-- ==== Sys2Proof/Syntax.lean ====
section
/-!
DEFINITION. The commands of the block: one constructor of Instr per row of spec/opcode_table.json, in the table's order. The rows give no operands: each constructor carries what the rules let the sender of the event state (log entry 1).
-/

namespace Sys2Proof

/-! ### Operand types -/

/-- The shape and data of one register access, to BAR0 or to the DAP space (21 R568, R569, R588). -/
structure RegAccess where
  /-- the host port it arrives on -/
  port : Nat
  /-- the function accessed: 0 the PF, 1–63 a VF -/
  fn : Nat
  /-- byte offset in the function's BAR0 -/
  offset : Nat
  /-- bytes from the first to the last one addressed -/
  len : Nat
  /-- byte enables, one per byte -/
  be : List Bool
  /-- bytes written, one per byte; empty for a read -/
  data : List Byte
  /-- the access is made in the DAP space through DAP_ACCESS: port and function mean nothing (21 R588) -/
  dap : Bool
  deriving DecidableEq, Repr

/-- Where a porch entry comes from (03 R78). -/
inductive PorchSource where
  | host (port : Nat)
  | internal
  deriving DecidableEq, Repr

/-- A request that can wait in the porch (03 R78, 21 R566, 22 R591). -/
inductive PorchRequest where
  /-- a register write -/
  | write (a : RegAccess)
  /-- a register read; `hid` names the host's request -/
  | read (a : RegAccess) (hid : Nat)
  /-- a BAR2 read -/
  | bar2Read (port fn offset length hid : Nat)
  /-- a BAR2 write -/
  | bar2Write (port fn offset : Nat) (data : List (Byte × Bool)) (poisoned relaxed : Bool)
  /-- a BAR4 write -/
  | bar4Write (port fn offset requester : Nat) (data : List (Byte × Bool)) (poisoned relaxed : Bool)
  /-- a SnpInv to the knock line of a ring -/
  | snpinv (bench ring : Nat)
  /-- a request inside the hub that needs nothing but the domain on -/
  | internal
  deriving DecidableEq, Repr

/-- The findings of start-up BIST (18 R531 Table 5). -/
structure BistResult where
  /-- the PD8 fabric or the ledger controller failed -/
  fabric : Bool
  /-- failed whittlers -/
  whittlers : List Nat
  /-- failed lathes -/
  lathes : List Nat
  /-- failed ways of the translation cache -/
  ways : List Nat
  /-- a walker failed -/
  walker : Bool
  /-- the dense engine failed -/
  dense : Bool
  /-- the lattice engine failed -/
  lattice : Bool
  /-- failed spindle ports -/
  spindles : List Nat
  /-- failed Envan links -/
  envans : List Nat
  /-- host ports whose buffers failed -/
  ports : List Nat
  deriving DecidableEq, Repr

/-- How a link training of a host port ends (04 R89, R90). -/
inductive TrainResult where
  /-- L0: width code, speed code, flit mode, CXL negotiated; `refused`: the alternate protocol negotiation failed -/
  | up (width speed : BitVec 3) (flit cxl refused : Bool)
  /-- failed with the FAIL_CAUSE of 04 Table 3 -/
  | failed (cause : BitVec 3)
  deriving DecidableEq, Repr

/-- Errors that AER logs (04 R117 Table 9). -/
inductive AerError where
  | receiver | badTlp | badDllp | replayTimeout | replayRollover | correctableFlit
  | completionTimeout | unexpectedCompletion | unsupportedRequest | poisonedTlp
  | malformedTlp | flowControl | uncorrectableFlit
  deriving DecidableEq, Repr

/-- What a configuration read asks for (04 Tables 1, 4, 5; R92, R106, R109, R112, R114, R117). The spec gives no configuration addresses: each field is named (log entry 73). -/
inductive ConfigReg where
  /-- Table 4 -/
  | vendorId | deviceId | vfDeviceId | revisionId | classCode | subsystem
  /-- the BAR registers 0, 2 and 4, and those of the SR-IOV capability -/
  | bar (n : Nat) | vfBar (n : Nat)
  /-- the SR-IOV capability -/
  | totalVfs | initialVfs | numVfs | vfControl | firstVfOffset | vfStride
  /-- greatest payload and the Device Control settings -/
  | maxPayload | deviceControl | deviceControl2
  /-- Link Status: speed and width -/
  | linkStatus
  /-- the ATS, PRI, PASID, MSI-X and ACS capabilities -/
  | atsCap | atsControl | priCapacity | priControl | priStatus | pasidWidth | pasidControl | msixSize | msixControl | acsCap
  /-- AER: errors logged, and those reported as fatal -/
  | aerStatus | aerSeverity
  /-- power management state and PME; memory space and bus master enables -/
  | pmCsr | command
  /-- the CXL DVSEC: a cache and no memory; its size in KiB -/
  | cxlCache | cxlCacheKib
  deriving DecidableEq, Repr

/-- A configuration request (04 R119): what it reads or writes. -/
inductive ConfigAccess where
  | read (reg : ConfigReg)
  | barWrite (n : Nat) (value : BitVec 64)
  | vfBarWrite (n : Nat) (value : BitVec 64)
  | memSpace (on : Bool)
  | pasidEnable (on : Bool)
  | atsEnable (on : Bool)
  | priEnable (on : Bool)
  | priAllocation (n : Nat)
  | priClear
  | msix (enable mask : Bool)
  | pme (on : Bool)
  | deviceControl (mps mrrs : BitVec 3) (relaxed : Bool)
  | completionTimeout (value : BitVec 4)
  | vfEnable
  | aerSeverity (error : AerError) (fatal : Bool)
  | aerClear
  deriving DecidableEq, Repr

/-- The ASPM state a link goes to: L0, or L1 with or without a substate (04 Table 1). -/
inductive AspmState where
  | l0 | l1 | l11 | l12
  deriving DecidableEq, Repr

/-- Status of a completion. -/
inductive CplStatus where
  | ok | unsupportedRequest | completerAbort | poisoned
  deriving DecidableEq, Repr

/-- Result of an ATS Translation Request (10 R286). -/
inductive AtsResult where
  /-- a translation: log2 of the page size, translated address of the page, write permission; `untranslatedOnly`: U set -/
  | translated (size addr : Nat) (read write untranslatedOnly : Bool)
  /-- Unsupported Request or Completer Abort -/
  | failed
  deriving DecidableEq, Repr

/-- Response Code of a PRG Response (04 R109). -/
inductive PriCode where
  | success | invalidRequest | responseFailure
  deriving DecidableEq, Repr

/-- What the read of a descriptor entry or of an engine's data gave (06 R173; 04 R104, R105). -/
inductive FetchResult where
  | ok (bytes : List Byte)
  /-- a completion with UR or CA, or no translation of a ring address (06 R157) -/
  | hostError
  /-- a completion timeout -/
  | hostTimeout
  /-- poisoned data -/
  | poisoned
  deriving DecidableEq, Repr

/-- How a memory request to a die, a remote die or the ledger ended (13 R380 Table 3; 17 R510). -/
inductive MemStatus where
  | ok | dieEcc | writeRefused | dieLost | ledgerEcc
  deriving DecidableEq, Repr

/-- What an SP attempt that ends in its lane step found (13 R383 Table 5). -/
inductive LaneFault where
  /-- no lane found a partner -/
  | noDie
  /-- too few lanes passed -/
  | lanes
  deriving DecidableEq, Repr

/-- Where a core's request points (13 R370; 10 R300). -/
inductive XltTarget where
  /-- a device virtual address -/
  | dva (addr : Nat)
  /-- a virtual coordinate of a placement: number, row, column, scratchpad offset -/
  | coord (placement row col offset : Nat)
  deriving DecidableEq, Repr

/-- A spindle port or an Envan link. -/
inductive LinkName where
  | spindle (die : Nat)
  | envan (link : Nat)
  /-- a host port, with the correctable error that its link met (04 Table 9) -/
  | hostPort (port : Nat) (error : AerError)
  deriving DecidableEq, Repr

/-- What the reads of one structure, or of two, for an engine gave: a blank and its parameter block (14 R400), a job block (15 R429 step 1), a job's coefficients and initial state (R429 step 4), a seal's parameter block (19 R535). -/
inductive LoadResult where
  /-- the bytes of the first and the second; nothing for a second that is not read -/
  | ok (first second : List Byte)
  /-- a code of 06 Table 6 with its DETAIL and the failing address -/
  | failed (code detail : Nat) (address : BitVec 64)
  deriving DecidableEq, Repr

/-- How an Envan training attempt ends (16 R454). -/
inductive ElResult where
  /-- UP: partner's HUB_ID, instance number and link, measured delay in ns -/
  | up (hub : Nat) (inst : BitVec 64) (link delayNs : Nat)
  /-- failed with EL_STATUS.CAUSE of Table 1 -/
  | failed (cause : BitVec 4)
  deriving DecidableEq, Repr

/-- One roster entry (16 R462 Table 5). -/
structure RosterEntry where
  /-- HOME -/
  home : Nat
  /-- BENCH -/
  bench : Nat
  /-- INCARN -/
  incarn : BitVec 16
  /-- CLASS_ID -/
  classId : Nat
  /-- HOLDERS, bit n for hub n -/
  holders : BitVec 32
  /-- RATE_CAP -/
  rateCap : BitVec 32
  deriving DecidableEq, Repr

/-- The routes of one ordered pair of members (16 R462, R464). -/
structure Route where
  /-- from this hub -/
  src : Nat
  /-- to this hub -/
  dst : Nat
  /-- first link of the primary route -/
  primary : Nat
  /-- its hops -/
  primaryHops : Nat
  /-- first link of the alternate route, 15 for none -/
  alternate : Nat
  /-- its hops -/
  alternateHops : Nat
  deriving DecidableEq, Repr

/-- A charter (16 R462 Table 5). -/
structure Charter where
  /-- EPOCH -/
  epoch : BitVec 64
  /-- MASTER -/
  master : Nat
  /-- RACK_FAMILY -/
  family : BitVec 64
  /-- IMAGE_VERSION -/
  version : BitVec 32
  /-- CHARTER_DIGEST, 16 bytes -/
  digest : List Byte
  /-- MEMBERS -/
  members : BitVec 32
  /-- LOST -/
  lost : BitVec 32
  /-- REFUSED -/
  refused : BitVec 32
  /-- ROUTES -/
  routes : List Route
  /-- TIME_BASE, µs -/
  timeBase : BitVec 64
  /-- STEP, µs -/
  step : BitVec 64
  /-- ROSTER_SEQ -/
  rosterSeq : BitVec 64
  /-- the roster -/
  roster : List RosterEntry
  deriving DecidableEq, Repr

/-- What the scrub found in a block (18 R514, R516, R518). -/
inductive ScrubFind where
  | clean
  /-- a corrected error; `overwritten`: a foreground write reached the block before the write-back -/
  | corrected (overwritten : Bool)
  | uncorrectable
  /-- an uncorrectable error in a firmware structure whose work the retry did not save (17 R510): of the bench that owns it, or of none -/
  | firmware (owner : Option Nat)
  deriving DecidableEq, Repr

/-- A part of the periodic self-test (18 R526 Table 3). -/
inductive TestUnit where
  | hsWay (way : Nat)
  | walkCache
  | lathe (lathe : Nat)
  | whittler (whittler : Nat)
  | burl (lattice : Bool)
  deriving DecidableEq, Repr

/-- What a service-core lock guards (17 R489; 20 R557): the running task, or a structure of the lock's owner or of the hub. -/
inductive LockStructure where
  /-- the task lock (20 R557) -/
  | task
  /-- the owner's Mode D table -/
  | table
  /-- the owner's fault-queue records -/
  | faults
  /-- the owner's placement map -/
  | placements
  /-- the owner's pending-notice store -/
  | notices
  /-- the billet pool -/
  | billets
  /-- the roster -/
  | roster
  deriving DecidableEq, Repr

/-- A service-core lock held by a whittler (17 R489): what it guards, the OWNER field, the time it was taken, its journal is not complete. -/
structure LockHeld where
  /-- what it guards -/
  guards : LockStructure
  /-- OWNER, as 17 Table 2 -/
  owner : BitVec 16
  /-- hearth time of the taking -/
  taken : BitVec 64
  deriving DecidableEq, Repr

/-- A DATA-class request of another sled (16 R456; 13 R370; 07 R216). -/
inductive DataRequest where
  /-- a write to a die of this hub -/
  | dieWrite (die offset : Nat) (data : List (Byte × Bool))
  /-- a read of a die of this hub -/
  | dieRead (die offset length : Nat)
  /-- a write to the scratchpad of a core of a guest's placement -/
  | scrWrite (number row col offset : Nat) (data : List (Byte × Bool))
  /-- a read of a scratchpad -/
  | scrRead (number row col offset length : Nat)
  /-- staged bytes for the scratchpad of a core of a guest's placement -/
  | load (number row col off : Nat) (data : List Byte)
  /-- the release of a placement's band (14 R409) -/
  | release (number : Nat)
  /-- where the cores of a whole placement are: hub, die, core, row, column (13 R370; 14 R401, R414) -/
  | bandMap (number : Nat) (cores : List (Nat × Nat × Nat × Nat × Nat))
  /-- the home hub found a new best energy at the boundary of an anneal sweep (15 R449) -/
  | stripBest (ring strip sweep : Nat)
  /-- the home hub ends a strip's run: its states are to be sent (15 R449, R450) -/
  | stripStop (ring strip sweep : Nat)
  /-- the home hub abandons a strip (15 R451) -/
  | stripEnd (ring strip : Nat)
  /-- a core of the bench on another sled raised a hold cause: the cause, address and core (05 R126; 13 R370, R371; log entry 43) -/
  | coreCause (cause : Nat) (address : BitVec 64) (core : BitVec 32)
  deriving DecidableEq, Repr

/-- A schedule segment of a Burl job (15 R426 Table 4). -/
structure Segment where
  /-- SWEEPS -/
  sweeps : Nat
  /-- BETA_START -/
  betaStart : Nat
  /-- BETA_END -/
  betaEnd : Nat
  /-- BETA_SHIFT -/
  shift : Nat
  deriving DecidableEq, Repr

/-- What a Burl job states (15 R426 Table 3). -/
structure JobSpec where
  /-- MODE 2: lattice -/
  lattice : Bool
  /-- WIDTH -/
  width : Nat
  /-- FLAGS.INIT_RANDOM -/
  initRandom : Bool
  /-- FLAGS.TRACE -/
  trace : Bool
  /-- FLAGS.TARGET -/
  target : Bool
  /-- spins of the whole job -/
  spins : Nat
  /-- LROWS; 0 for a dense job -/
  rows : Nat
  /-- LCOLS; 0 for a dense job -/
  cols : Nat
  /-- COEF_SEL -/
  coefSel : Nat
  /-- INIT_SEL -/
  initSel : Nat
  /-- SEED -/
  seed : BitVec 64
  /-- COEF -/
  coef : BitVec 64
  /-- INIT -/
  init : BitVec 64
  /-- TRACE_BILLET -/
  traceBillet : BitVec 64
  /-- TRACE_EVERY -/
  traceEvery : Nat
  /-- TIME_LIMIT_MS -/
  timeLimit : Nat
  /-- TARGET_ENERGY -/
  targetEnergy : Int
  /-- the schedule -/
  segments : List Segment
  /-- partition entries: HUB_ID and STRIP_ROWS -/
  parts : List (Nat × Nat)
  /-- the result billets -/
  results : List (BitVec 64)
  deriving DecidableEq, Repr

/-- The commands (spec/opcode_table.json). -/
inductive Instr where
  /-- HEARTH_POWER_GOOD (23 R618): both hearth rails have been in tolerance for 100 µs; `refPresent` says whether the reference runs. -/
  | hearthPowerGood
  /-- HEARTH_POWER_LOSS (23 R619). -/
  | hearthPowerLoss
  /-- STRAP_LATCH (02 R34): the levels on the strap balls; `refPresent`: the 25 MHz reference runs (03 R61). -/
  | strapLatch (hubId : BitVec 5) (masterEligible : Bool) (slotForce : BitVec 2) (testMode refPresent : Bool)
  /-- SFDP_READ_DONE (02 R40): the SFDP read ends; `density` n for 2^n MiB, 0 when unreadable; 1-1-4 support and the fast-read limit. -/
  | sfdpReadDone (density : Nat) (x4 : Bool) (mhz : Nat)
  /-- SLOT_HEADERS_READ (02 R48): the bytes of header and section table read from each slot. -/
  | slotHeadersRead (slotA slotB : List Byte)
  /-- SLOT_BODY_READ_DONE (02 R48): the slot (false A, true B) and its bytes from offset 0, with the signature block. -/
  | slotBodyReadDone (slotB : Bool) (bytes : List Byte)
  /-- IMAGE_BOUND_EXPIRY (02 R50). -/
  | imageBoundExpiry
  /-- LEDGER_TRAINING_DONE (03 R83): the failing channels, bit n for channel n. -/
  | ledgerTrainingDone (failMask : BitVec 4)
  /-- BIST_DONE (18 R531): what the start-up self-test found. -/
  | bistDone (result : BistResult)
  /-- LINKS_PHASE_END (13 R385). -/
  | linksPhaseEnd
  /-- MANAGEMENT_RESTART (02 R55): the value of a full-width write to HUB_CONTROL. -/
  | managementRestart (value : BitVec 32)
  /-- RESTART_SEQUENCE_RESUME (02 R56). -/
  | restartSequenceResume
  /-- HEARTH_TRIM (03 R59): the measured oscillator error in ppm. -/
  | hearthTrim (errorPpm : Int)
  /-- REF_LOSS (03 R60). -/
  | refLoss
  /-- REF_RETURN (03 R60). -/
  | refReturn
  /-- HEARTH_DEADLINE (03 R65): the general deadline that expires, by its place in the timer unit. -/
  | hearthDeadline (index : Nat)
  /-- IDLE_GATE_EXPIRY (03 R70). -/
  | idleGateExpiry (domain : Nat)
  /-- GATE_DRAIN_DONE (03 R72). -/
  | gateDrainDone (domain : Nat)
  /-- GATE_DRAIN_TIMEOUT (03 R73). -/
  | gateDrainTimeout (domain : Nat)
  /-- GATE_SAVE_DONE (03 R72). -/
  | gateSaveDone (domain : Nat)
  /-- PORCH_ENQUEUE (03 R78). -/
  | porchEnqueue (source : PorchSource) (domain slots : Nat) (request : PorchRequest)
  /-- DOMAIN_WAKE_DONE (03 R76). -/
  | domainWakeDone (domain : Nat)
  /-- PD7_REFILL_DONE (03 R74). -/
  | pd7RefillDone
  /-- PD_WAKE (03 R71): the value written to PD_WAKE. -/
  | pdWake (value : BitVec 32)
  /-- THERMAL_SAMPLE (03 R86): the sixteen sensor readings, signed, 0.1 °C. -/
  | thermalSample (sensors : List (BitVec 16))
  /-- THERMAL_RECOVERY (03 R86). -/
  | thermalRecovery
  /-- PERST_ASSERT (04 R118). -/
  | perstAssert (port : Nat)
  /-- PERST_DEASSERT (04 R89). -/
  | perstDeassert (port : Nat)
  /-- LINK_TRAINING_DONE (04 R89): how the attempt ended. -/
  | linkTrainingDone (port : Nat) (result : TrainResult)
  /-- DETECT_TIMEOUT (04 R90). -/
  | detectTimeout (port : Nat)
  /-- DETECT_RETRY (04 R90). -/
  | detectRetry (port : Nat)
  /-- LINK_DOWN (04 R91). -/
  | linkDown (port : Nat) (error : Option AerError)
  /-- HOT_RESET (04 R118). -/
  | hotReset (port : Nat)
  /-- DPC_CONTAINMENT (04 R118). -/
  | dpcContainment (port : Nat)
  /-- CXL_LOST (04 R116). -/
  | cxlLost (port : Nat)
  /-- FLR (04 R118): function 0 is the PF. -/
  | flr (port fn : Nat)
  /-- VF_ENABLE_CLEAR (04 R118). -/
  | vfEnableClear (port : Nat)
  /-- NUMVFS_WRITE (04 R118): a write of NumVFs. -/
  | numvfsWrite (port value : Nat)
  /-- CONFIG_REQUEST (04 R119). -/
  | configRequest (port fn : Nat) (access : ConfigAccess)
  /-- POWER_STATE_CHANGE (04 R121). -/
  | powerStateChange (port fn : Nat) (d3hot : Bool)
  /-- BUS_MASTER_ENABLE_CHANGE (04 R121). -/
  | busMasterEnableChange (port fn : Nat) (enable : Bool)
  /-- LINK_POWER_STATE_CHANGE (04 R121). -/
  | linkPowerStateChange (port : Nat) (l2 : Bool)
  /-- BAR2_READ (04 R98): host read of `length` bytes at `offset`; `hid` names the host's request. -/
  | bar2Read (port fn offset length hid : Nat)
  /-- BAR2_WRITE (04 R97): each byte with its byte enable. -/
  | bar2Write (port fn offset : Nat) (data : List (Byte × Bool)) (poisoned relaxed : Bool)
  /-- BAR4_WRITE (12 R361): a peer's memory write with its Requester ID. -/
  | bar4Write (port fn offset requester : Nat) (data : List (Byte × Bool)) (poisoned relaxed : Bool)
  /-- BAR4_READ (01 R29). -/
  | bar4Read (port fn hid : Nat)
  /-- ATOMICOP (04 R88). -/
  | atomicop (port fn bar hid : Nat)
  /-- HOST_COMPLETION (04 R105): a completion with its tag, status and data. -/
  | hostCompletion (port tag : Nat) (status : CplStatus) (data : List Byte)
  /-- COMPLETION_TIMEOUT (04 R104). -/
  | completionTimeout (port tag : Nat)
  /-- ATS_TRANSLATION_COMPLETION (10 R286). -/
  | atsTranslationCompletion (port tag : Nat) (result : AtsResult)
  /-- INVALIDATE_REQUEST (04 R108). -/
  | invalidateRequest (port fn itag base length : Nat) (pasid : Option Nat)
  /-- INVALIDATE_COMPLETION (04 R108). -/
  | invalidateCompletion (port fn itag : Nat)
  /-- PRI_RESPONSE (04 R109): page request group and response code. -/
  | priResponse (port fn group : Nat) (code : PriCode)
  /-- MSIX_MODERATION_EXPIRY (04 R112). -/
  | msixModerationExpiry (bench vector : Nat)
  /-- MSIX_ENTRY_WRITE (22 R609): a full-width write of dword 0–3 of an entry. -/
  | msixEntryWrite (port fn vector dword : Nat) (value : BitVec 32)
  /-- SNPINV (06 R167): a SnpInv to the knock line of a ring. -/
  | snpinv (bench ring : Nat)
  /-- SNPDATA (04 R114): a SnpData or SnpCur to the knock line of a ring. -/
  | snpdata (bench ring : Nat)
  /-- GO_S (06 R166): the tail word carried by the line. -/
  | goS (bench ring : Nat) (tail : BitVec 32)
  /-- KNOCK_POLL (06 R170): the 20 µs poll of a POLLING ring returns the tail word. -/
  | knockPoll (bench ring : Nat) (tail : BitVec 32)
  /-- DOORBELL (06 R163): a full-width write to RING_DOORBELL. -/
  | doorbell (bench ring : Nat) (tail : BitVec 32)
  /-- OWN_LATE_RETRY (06 R162). -/
  | ownLateRetry (bench ring : Nat)
  /-- DESCRIPTOR_FETCH (06 R173): what the fetch of the ring's next entry returned. -/
  | descriptorFetch (bench ring : Nat) (result : FetchResult)
  /-- DESCRIPTOR_COMPLETE (06 R175). -/
  | descriptorComplete (bench ring : Nat)
  /-- RING_ENABLE (22 R606): the value written to RING_CTRL, with ENABLE = 1. -/
  | ringEnable (bench ring : Nat) (value : BitVec 32)
  /-- RING_DISABLE (06 R182): the value written to RING_CTRL, with ENABLE = 0. -/
  | ringDisable (bench ring : Nat) (value : BitVec 32)
  /-- RING_DISABLE_DONE (06 R182). -/
  | ringDisableDone (bench ring : Nat)
  /-- RING_PAUSE (06 R181): the value written to RING_CTRL, with PAUSE = 1. -/
  | ringPause (bench ring : Nat) (value : BitVec 32)
  /-- RING_UNPAUSE (06 R181): the value written to RING_CTRL, with PAUSE = 0. -/
  | ringUnpause (bench ring : Nat) (value : BitVec 32)
  /-- RING_RESUME (06 R180): the value written to RING_CTRL, with RESUME = 1. -/
  | ringResume (bench ring : Nat) (value : BitVec 32)
  /-- RING_ABORT (06 R183): the value written to RING_CTRL, with ABORT = 1. -/
  | ringAbort (bench ring : Nat) (value : BitVec 32)
  /-- ABORT_DONE (06 R183). -/
  | abortDone (bench ring : Nat)
  /-- COPY (07 R195): the ring's next descriptor, a COPY, starts. -/
  | copy (bench ring : Nat)
  /-- GATHER (07 R201): the index entries read, from the one that contains P. -/
  | gather (bench ring : Nat) (index : List Nat)
  /-- SCATTER (07 R201): the index entries read, from the one that contains P. -/
  | scatter (bench ring : Nat) (index : List Nat)
  /-- FILL (07 R205). -/
  | fill (bench ring : Nat)
  /-- COMPARE (07 R206). -/
  | compare (bench ring : Nat)
  /-- ACQUIRE (09 R267). -/
  | acquire (bench ring : Nat)
  /-- FENCE (07 R208). -/
  | fence (bench ring : Nat)
  /-- EVENT_WAIT (07 R209). -/
  | eventWait (bench ring : Nat)
  /-- EVENT_WAIT_SATISFIED (07 R209). -/
  | eventWaitSatisfied (bench ring : Nat)
  /-- EVENT_SIGNAL (07 R210). -/
  | eventSignal (bench ring : Nat)
  /-- LAUNCH (14 R400). -/
  | launch (bench ring : Nat)
  /-- ANNEAL (15 R429): what the read of the job block gave. -/
  | anneal (bench ring : Nat) (block : LoadResult)
  /-- PREFETCH (11 R335). -/
  | prefetch (bench ring : Nat)
  /-- ADVISE (11 R337). -/
  | advise (bench ring : Nat)
  /-- BILLET_ALLOC (07 R211). -/
  | billetAlloc (bench ring : Nat)
  /-- BILLET_FREE (17 R504). -/
  | billetFree (bench ring : Nat)
  /-- SEAL_OPEN (19 R535): what the read of the 32-byte parameter block gave. -/
  | sealOpen (bench ring : Nat) (block : LoadResult)
  /-- SEAL_CLOSE (19 R547). -/
  | sealClose (bench ring : Nat)
  /-- CHANNEL_TAKEUP (08 R231): a take-up round of a lathe cluster. -/
  | channelTakeup (clusterB : Bool)
  /-- BURST_GRANT (08 R238): an arbitration round of a lathe. -/
  | burstGrant (lathe : Nat)
  /-- EGRESS_GRANT (04 R103): an arbitration round of a host port. -/
  | egressGrant (port : Nat)
  /-- RESERVATION_START (08 R239): a burst of the ring has waited 8 µs for space or slots only. -/
  | reservationStart (bench ring : Nat)
  /-- READ_DATA_RETURN (08 R241): data for a read slot, from a die, a remote hub or a ledger read that failed. -/
  | readDataReturn (lathe slot : Nat) (status : MemStatus) (data : List Byte)
  /-- WRITE_ACK (07 R216). -/
  | writeAck (lathe slot : Nat) (status : MemStatus)
  /-- TRIGGER_FIRE (07 R223): the trigger of the ring's oldest waiting descriptor fires. -/
  | triggerFire (bench ring : Nat)
  /-- PACE_TIMER_EXPIRY (08 R248). -/
  | paceTimerExpiry (clusterB : Bool) (timer : Nat)
  /-- PACING_YIELD (08 R235). -/
  | pacingYield (bench ring : Nat)
  /-- EVENT_CLAIM (08 R245). -/
  | eventClaim (bench line : Nat)
  /-- EVENT_RELEASE (08 R245). -/
  | eventRelease (bench line : Nat)
  /-- PACE_CLAIM (22 R600): a write to PACE_SLOT 0x00 with CLAIM = 1. -/
  | paceClaim (bench slot timer : Nat) (clusterB : Bool)
  /-- PACE_RELEASE (22 R600): a write to PACE_SLOT 0x00 with CLAIM = 0. -/
  | paceRelease (bench slot : Nat)
  /-- PACE_ARM (08 R248). -/
  | paceArm (bench slot : Nat)
  /-- PACE_DISARM (08 R248). -/
  | paceDisarm (bench slot : Nat)
  /-- LATHE_BUS_ERROR (08 R251): the tag of the error record where it passed its check. -/
  | latheBusError (lathe : Nat) (tag : Option (BitVec 16))
  /-- HALT_REPLAY_RESPONSE (08 R252): the replayed request answered, reproducing the error or not. -/
  | haltReplayResponse (lathe : Nat) (reproduces : Bool)
  /-- HALT_REPLAY_TIMEOUT (08 R252). -/
  | haltReplayTimeout (lathe : Nat)
  /-- HALT_ISOLATION_DONE (08 R253). -/
  | haltIsolationDone (lathe : Nat)
  /-- MISS_SLOT_GRANT (10 R283): an arbitration round for a free miss slot. -/
  | missSlotGrant
  /-- WALKER_GRANT (10 R283): an arbitration round for a free walker. -/
  | walkerGrant
  /-- WALK_DONE (10 R293): the walk of a bench's 4 KiB page ends; `ledgerUe`: the SPA of an uncorrectable ledger error that it met (17 R510). -/
  | walkDone (bench page : Nat) (ledgerUe : Option (BitVec 64))
  /-- TRACKER_EXPIRY (10 R311). -/
  | trackerExpiry (bench stream : Nat)
  /-- INV_RING_ENABLE (21 R581): the value written to INV_CTRL, with ENABLE = 1. -/
  | invRingEnable (bench : Nat) (value : BitVec 32)
  /-- INV_DOORBELL (10 R303). -/
  | invDoorbell (bench : Nat) (tail : BitVec 32)
  /-- SET_ENTRY (10 R304): the 32 bytes read at INV_HEAD. -/
  | setEntry (bench : Nat) (entry : List Byte)
  /-- INVALIDATE (10 R304): the 32 bytes read at INV_HEAD. -/
  | invalidate (bench : Nat) (entry : List Byte)
  /-- PIN_LOAD (10 R304): the 32 bytes read at INV_HEAD. -/
  | pinLoad (bench : Nat) (entry : List Byte)
  /-- TOKEN (10 R306): the 32 bytes read at INV_HEAD. -/
  | token (bench : Nat) (entry : List Byte)
  /-- TOKEN_COMPLETE (10 R306). -/
  | tokenComplete (bench : Nat)
  /-- INV_RESUME (10 R305). -/
  | invResume (bench : Nat)
  /-- XLATE_INV_RECEIVED (10 R308): a forwarded entry of a guest's ring. -/
  | xlateInvReceived (home bench : Nat) (incarn : BitVec 16) (entry : List Byte) (count : BitVec 32)
  /-- XLATE_INV_ACK (10 R308). -/
  | xlateInvAck (holder bench : Nat) (count : BitVec 32)
  /-- FAULT_CMD_RETRY (11 R322). -/
  | faultCmdRetry (index : Nat)
  /-- FAULT_CMD_FATAL (11 R322). -/
  | faultCmdFatal (index : Nat)
  /-- FAULT_FIND (21 R583): the value written. -/
  | faultFind (value : BitVec 32)
  /-- FAULT_READ (21 R583): a full-width read of the last dword. -/
  | faultRead
  /-- REGION_QUERY_SEL (21 R583): the value written. -/
  | regionQuerySel (value : BitVec 64)
  /-- REGION_QUERY (21 R583): a full-width read of the last dword. -/
  | regionQuery
  /-- COUNT_UPDATE (11 R334): the oldest queued count is applied. -/
  | countUpdate
  /-- COUNT_DECAY (11 R333): the decay pass of a hearth second. -/
  | countDecay
  /-- DECAY_OVERDUE (18 R523). -/
  | decayOverdue
  /-- MIG_START (11 R339). -/
  | migStart
  /-- MIG_LEAF_COPY_DONE (11 R340): the copy ended without or with an error. -/
  | migLeafCopyDone (result : FetchResult)
  /-- MIG_LEAF_DONE (11 R340). -/
  | migLeafDone
  /-- FORM (05 R140): CODE 0x01 written to BENCH_CMD, with the arguments of BENCH_CMD_ARG. -/
  | form
  /-- FORMATION_DONE (05 R140). -/
  | formationDone
  /-- SET_LIMITS (05 R135): CODE 0x02. -/
  | setLimits
  /-- SET_KEEP (05 R132): CODE 0x03. -/
  | setKeep
  /-- HOLD (05 R138): CODE 0x04. -/
  | hold
  /-- RESUME (14 R418): CODE 0x05. -/
  | resume
  /-- SWEEP (17 R492): CODE 0x06. -/
  | sweep
  /-- GRANT_DIE_MEM (05 R136): CODE 0x07. -/
  | grantDieMem
  /-- RETURN_DIE_MEM (05 R136): CODE 0x08. -/
  | returnDieMem
  /-- DIE_MEM_ZERO_FILL_DONE (05 R137): the fill of a range of a die ends. -/
  | dieMemZeroFillDone (die offset length : Nat)
  /-- REATTACH_DEADLINE_EXPIRY (05 R131). -/
  | reattachDeadlineExpiry (bench : Nat)
  /-- NOTICE_WRITE (05 R150). -/
  | noticeWrite (bench : Nat)
  /-- NOTICE_HEAD_WRITE (22 R596). -/
  | noticeHeadWrite (bench : Nat) (value : BitVec 32)
  /-- NOTICE_ENABLE (22 R597). -/
  | noticeEnable (bench : Nat)
  /-- NOTICE_DISABLE (22 R597). -/
  | noticeDisable (bench : Nat)
  /-- HOLD_LONG (14 R417). -/
  | holdLong (bench placement : Nat)
  /-- ATTACH_TOKEN_WRITE (22 R598): a write to ATTACH_TOKEN; `part` 0 low dword, 1 high dword, 2 both. -/
  | attachTokenWrite (bench part : Nat) (value : BitVec 64)
  /-- ATTACH_RESUME (12 R353): an ATTACH_CMD that takes effect with MODE RESUME; its EPOCH. -/
  | attachResume (bench : Nat) (epoch : BitVec 32)
  /-- ATTACH_CLOSE (12 R353): MODE CLOSE. -/
  | attachClose (bench : Nat) (epoch : BitVec 32)
  /-- ATTACH_FRESH (12 R353): MODE FRESH. -/
  | attachFresh (bench : Nat) (epoch : BitVec 32)
  /-- PEER_WINDOW_OPEN (12 R360). -/
  | peerWindowOpen (bench : Nat)
  /-- PEER_WINDOW_CLOSE (12 R364). -/
  | peerWindowClose (bench : Nat)
  /-- PEER_WRITE_APPLY (12 R363): the bench's oldest buffered BAR4 write. -/
  | peerWriteApply (bench : Nat)
  /-- PEER_DROPPED_INTERVAL (12 R362): the 100 µs interval of a CAUSE ends. -/
  | peerDroppedInterval (bench cause : Nat)
  /-- DIE_PWRGOOD_RISE (13 R383). -/
  | diePwrgoodRise (die : Nat)
  /-- DIE_PWRGOOD_FALL (13 R388): low for more than 1 µs. -/
  | diePwrgoodFall (die : Nat)
  /-- DIE_FATAL (13 R388). -/
  | dieFatal (die : Nat)
  /-- SP_ATTEMPT_START (13 R383). -/
  | spAttemptStart (die : Nat)
  /-- SP_LANES_ALIGNED (13 R383): at full or half width. -/
  | spLanesAligned (die : Nat) (half : Bool)
  /-- SP_PARAMETERS_EXCHANGED (13 R383): a WT256 of an accepted stepping, its usable memory in GiB, its defective cores. -/
  | spParametersExchanged (die : Nat) (accepted : Bool) (memGiB : Nat) (defects : List Nat)
  /-- SP_CREDITS_EXCHANGED (13 R383). -/
  | spCreditsExchanged (die : Nat)
  /-- SP_ZERO_FILL_DONE (13 R383). -/
  | spZeroFillDone (die : Nat)
  /-- SP_STEP_TIMEOUT (13 R383): the running step exceeds its bound or finds nothing. -/
  | spStepTimeout (die : Nat) (finding : LaneFault)
  /-- SP_BACKOFF_EXPIRY (13 R384). -/
  | spBackoffExpiry (die : Nat)
  /-- SP_ABSENT_RETRY (13 R384). -/
  | spAbsentRetry (die : Nat)
  /-- XLT_REQUEST (13 R370): a core's request, its id at the die and the bench it carries. -/
  | xltRequest (die core id bench : Nat) (target : XltTarget) (write : Bool) (length : Nat) (data : List (Byte × Bool))
  /-- CORE_EVENT_WRITE (13 R371): op 1 SET, 2 CLEAR, 3 PULSE. -/
  | coreEventWrite (die core line op : Nat)
  /-- CORE_FATAL_ERROR (13 R371). -/
  | coreFatalError (die core : Nat) (address : BitVec 64)
  /-- DIE_UE_REPORT (13 R381). -/
  | dieUeReport (die : Nat) (spa : BitVec 64)
  /-- FLIT_CRC_ERROR (13 R379): on a spindle port or an Envan link; `same`: the flit that failed last failed again. -/
  | flitCrcError (link : LinkName) (same : Bool)
  /-- FLIT_ACK_TIMEOUT (13 R379). -/
  | flitAckTimeout (die : Nat)
  /-- SP_RECOVERY_DONE (13 R386). -/
  | spRecoveryDone (die : Nat) (ok : Bool)
  /-- SP_REQUEST_TIMEOUT (13 R388). -/
  | spRequestTimeout (die : Nat)
  /-- LANE_RECAL (18 R521). -/
  | laneRecal (link : LinkName) (lane : Nat) (usable : Bool)
  /-- RECAL_FORCE (18 R522): `hold`: a HOLD message comes in the window and abandons it. -/
  | recalForce (link : LinkName) (lane : Nat) (hold usable : Bool)
  /-- LAUNCH_STAGE_DONE (14 R400): what the staging of the blank and the parameter block gave. -/
  | launchStageDone (bench ring : Nat) (result : LoadResult)
  /-- LAUNCH_PLACE_START (14 R402, R405): the other hubs of the cascade in the order of the split (Envan hop count, then HUB_ID), each with its free cores. -/
  | launchPlaceStart (bench ring : Nat) (free : List (Nat × Nat))
  /-- PLACEMENT_DONE (14 R406): the cores that the bands on other hubs were given: hub, die, core, row, column; `failure`: code (XLATE_FATAL or PIN_VIOLATION), DETAIL and DVA of the first range that one of those hubs cannot pin. -/
  | placementDone (bench ring : Nat) (bands : List (Nat × Nat × Nat × Nat × Nat)) (failure : Option (Nat × Nat × Nat))
  /-- LAUNCH_LOAD_DONE (14 R400). -/
  | launchLoadDone (bench ring : Nat)
  /-- LAUNCH_START_TIME (14 R400). -/
  | launchStartTime (bench ring : Nat)
  /-- PLACE_RELEASE (14 R409). -/
  | placeRelease (bench number : Nat)
  /-- PLACE_RELEASE_DONE (14 R409). -/
  | placeReleaseDone (home bench number : Nat)
  /-- LATE_SET (14 R414). -/
  | lateSet (die core : Nat)
  /-- LATE_CLEAR (14 R415). -/
  | lateClear (die core : Nat)
  /-- HOLD_FORWARD (14 R414): a forwarded HOLD of a placement. -/
  | holdForward (home bench number : Nat) (incarn : BitVec 16)
  /-- LATE_REPORT (16 R484): a holder reports a LATE SET or CLEAR of a core. -/
  | lateReport (hub bench number die core : Nat) (set : Bool) (incarn : BitVec 16)
  /-- RELEASE_MESSAGE (14 R415). -/
  | releaseMessage (home bench number : Nat) (incarn : BitVec 16) (time : BitVec 64)
  /-- RELEASE_TIME (14 R415). -/
  | releaseTime (home bench number : Nat)
  /-- ANNEAL_ADMIT (15 R429): space frees for the ANNEAL that the ring waits on at step 3; of the hubs it names, those that cannot admit their strip. -/
  | annealAdmit (bench ring : Nat) (refused : List Nat)
  /-- ANNEAL_LOAD_DONE (15 R429): what the coefficient and initial-state reads gave. -/
  | annealLoadDone (bench ring : Nat) (result : LoadResult)
  /-- BURL_MOVE (15 R432): one move of the dense or the lattice engine. -/
  | burlMove (lattice : Bool)
  /-- BURL_SLICE_END (15 R442). -/
  | burlSliceEnd (lattice : Bool)
  /-- BURL_CHECKPOINT_DONE (15 R443). -/
  | burlCheckpointDone (lattice : Bool)
  /-- BURL_HALO_RECEIVED (15 R448): strip `strip`, or with 255 the home hub, receives the boundary rows and strip energy of strip `source` at the end of anneal sweep `sweep`. -/
  | burlHaloReceived (home bench ring : Nat) (incarn : BitVec 16) (strip source sweep : Nat) (first last : List Bool) (energy : Int)
  /-- ANNEAL_WRITE_DONE (15 R439). -/
  | annealWriteDone (bench ring : Nat)
  /-- EL_TRAINING_DONE (16 R454). -/
  | elTrainingDone (link : Nat) (result : ElResult)
  /-- EL_BACKOFF_EXPIRY (16 R454). -/
  | elBackoffExpiry (link : Nat)
  /-- EL_FLIT_SILENCE (16 R455). -/
  | elFlitSilence (link : Nat)
  /-- PRESENCE_SEND (16 R459). -/
  | presenceSend
  /-- PRESENCE_RECEIVED (16 R459): the sender, its instance number, eligibility, highest epoch, and the refusal condition of Table 4 it meets (0 none). -/
  | presenceReceived (hub : Nat) (inst : BitVec 64) (eligible : Bool) (epoch : BitVec 64) (refusal : BitVec 3)
  /-- HUB_SILENT (16 R459). -/
  | hubSilent (hub : Nat)
  /-- MASTER_CLAIM (16 R461). -/
  | masterClaim
  /-- CHARTER_SEND (16 R462): the cabling as the master knows it: hub, link, hub at the other end. -/
  | charterSend (cables : List (Nat × Nat × Nat))
  /-- CHARTER_RECEIVED (16 R472). -/
  | charterReceived (charter : Charter)
  /-- TIME_STATEMENT_SEND (16 R462). -/
  | timeStatementSend
  /-- TIME_STATEMENT_RECEIVED (16 R468): the stated time in ns and the delays summed along its path in ns. -/
  | timeStatementReceived (statedNs delayNs : Nat)
  /-- HEARTH_TIME_REPORT (16 R470): a member's report that it is ahead. -/
  | hearthTimeReport (hub : Nat) (time : BitVec 64)
  /-- DELAY_PROBE (16 R468): the measured delay of a link in ns. -/
  | delayProbe (link delayNs : Nat)
  /-- ROSTER_REPORT (16 R474): the spanning benches a member is home to, and the guests it holds (home, bench, INCARN). -/
  | rosterReport (hub : Nat) (homes : List (Nat × BitVec 16)) (guests : List (Nat × Nat × BitVec 16))
  /-- ROSTER_UPDATE (16 R474). -/
  | rosterUpdate (seq : BitVec 64) (entries : List RosterEntry)
  /-- BENCH_REGISTRATION (16 R479): a bench of hub `home` is registered, or its new INCARN told: by this hub where it is the home, else at the master. -/
  | benchRegistration (home bench : Nat) (incarn : BitVec 16) (classId : Nat) (rateCap : BitVec 32)
  /-- REMOTE_GRANT (16 R482): a forwarded GRANT_DIE_MEM, or RETURN_DIE_MEM; `room`: the bytes that the bench's grants on every hub leave of its DIE_MEM_QUOTA (05 R136). -/
  | remoteGrant (home bench : Nat) (incarn : BitVec 16) (classId : Nat) (rateCap : BitVec 32) (giveBack : Bool) (die offset length room : Nat)
  /-- REMOTE_SWEEP (16 R483): the home's sweep command with the new INCARN. -/
  | remoteSweep (home bench : Nat) (incarn : BitVec 16) (release : Bool)
  /-- SWEEP_SETTLE_TIMEOUT (17 R495). -/
  | sweepSettleTimeout (bench : Nat)
  /-- SWEEP_CUT (17 R494). -/
  | sweepCut (bench : Nat)
  /-- SWEEP_DRAIN_DONE (17 R494). -/
  | sweepDrainDone (bench : Nat)
  /-- SWEEP_LOCKS_TAKEN (17 R494). -/
  | sweepLocksTaken (bench : Nat)
  /-- SWEEP_RECLAIM_DONE (17 R494). -/
  | sweepReclaimDone (bench : Nat)
  /-- LOCK_EXPIRY (17 R491): the lock by its place in the tally ledger. -/
  | lockExpiry (lock : Nat)
  /-- WHITTLER_WATCHDOG (17 R490). -/
  | whittlerWatchdog (whittler : Nat)
  /-- TALLY_QUERY (21 R582): a full-width read of the last dword. -/
  | tallyQuery
  /-- ERRLOG_ENTRY_READ (21 R584): a full-width read of an entry's last dword, through ERRLOG_DATA, or through the mirror at slot `slot`. -/
  | errlogEntryRead (mirror : Bool) (slot : Nat)
  /-- SCRUB_BLOCK (18 R514): what the block at POSITION gave. -/
  | scrubBlock (find : ScrubFind)
  /-- SCRUB_PASS_START (18 R514). -/
  | scrubPassStart
  /-- SCRUB_FLOOR_DEADLINE (18 R517). -/
  | scrubFloorDeadline
  /-- DIE_SCRUB_REQUEST (18 R519). -/
  | dieScrubRequest (die : Nat)
  /-- DIE_SCRUB_ACK (18 R519). -/
  | dieScrubAck (die : Nat)
  /-- TELEMETRY_SNAPSHOT (18 R525). -/
  | telemetrySnapshot
  /-- SELFTEST_START (18 R526). -/
  | selftestStart (part : TestUnit)
  /-- SELFTEST_DONE (18 R529). -/
  | selftestDone (part : TestUnit) (ok : Bool)
  /-- SEAL_CHECK_DONE (19 R539): the checks of the stream's oldest captured frame end. -/
  | sealCheckDone (stream : Nat)
  /-- FRAME_EVENT (19 R542): the forwarded trailer of the stream's oldest captured frame is acknowledged. -/
  | frameEvent (stream : Nat)
  /-- JTAG_DAP_ACCESS (20 R549). -/
  | jtagDapAccess
  /-- JTAG_EXTEST (20 R553). -/
  | jtagExtest
  /-- JTAG_CLAMP (20 R553). -/
  | jtagClamp
  /-- JTAG_HIGHZ (20 R553). -/
  | jtagHighz
  /-- JTAG_TEST_LOGIC_RESET (20 R549). -/
  | jtagTestLogicReset
  /-- JTAG_IDCODE (20 R549). -/
  | jtagIdcode
  /-- JTAG_BYPASS (20 R549). -/
  | jtagBypass
  /-- JTAG_SAMPLE_PRELOAD (20 R549). -/
  | jtagSamplePreload
  /-- DAP_MEMORY_READ (20 R552): DAP_CSR.GO with SPACE 1 (ledger) or 2 (die memory), at this SPA. -/
  | dapMemoryRead (space : BitVec 2) (addr : BitVec 64)
  /-- DAP_MEMORY_DATA (20 R552): the 64 bytes, or none where the read met a hole or a die that is not UP. -/
  | dapMemoryData (data : Option (List Byte))
  /-- DAP_REGISTER_READ (20 R554): DAP_CSR.GO with WRITE = 0, QUIET and DAP_ADDR as given. -/
  | dapRegisterRead (quiet : Bool) (addr : Nat)
  /-- DAP_REGISTER_WRITE (20 R551): DAP_CSR.GO with WRITE = 1. -/
  | dapRegisterWrite (addr : Nat) (value : BitVec 32)
  /-- WHITTLER_HALT (20 R556): the locks the whittler holds at its instruction boundary. -/
  | whittlerHalt (whittler : Nat) (locks : List LockHeld)
  /-- WHITTLER_STEP (20 R556). -/
  | whittlerStep (whittler : Nat)
  /-- WHITTLER_RESUME (20 R556). -/
  | whittlerResume (whittler : Nat)
  /-- WHITTLER_HONOUR (20 R559): the value written to WHITTLER_DBG.HONOUR. -/
  | whittlerHonour (whittler : Nat) (honour : Bool)
  /-- DEBUG_CTRL_WRITE (21 R587). -/
  | debugCtrlWrite (value : BitVec 32)
  /-- FLASH_READ (21 R577): SLOT (false A, true B) and LENGTH of FLASH_CMD. -/
  | flashRead (slotB : Bool) (length : Nat)
  /-- FLASH_PROGRAM (21 R577). -/
  | flashProgram (slotB : Bool) (length : Nat)
  /-- FLASH_ERASE_4K (21 R577). -/
  | flashErase4k (slotB : Bool)
  /-- FLASH_CMD_DONE (21 R577): the bytes a READ returned. -/
  | flashCmdDone (data : List Byte)
  /-- FLASH_CMD_TIMEOUT (21 R577). -/
  | flashCmdTimeout
  /-- SMBUS_POINTER (21 R575): the offset; `pecOk`: the PEC is absent or right. -/
  | smbusPointer (offset : BitVec 24) (pecOk : Bool)
  /-- SMBUS_READ (21 R575). -/
  | smbusRead (pecOk : Bool)
  /-- SMBUS_RESTART (21 R575). -/
  | smbusRestart (value : BitVec 16) (pecOk : Bool)
  /-- CHARTER_SNAPSHOT (21 R586): the value written to CHARTER_OFFSET. -/
  | charterSnapshot (offset : BitVec 32)
  /-- REGISTER_WRITE (21 R569). -/
  | registerWrite (access : RegAccess)
  /-- ASPM_L1_CHANGE (03 R75): the link enters L1.2, or leaves it. -/
  | aspmL1Change (port : Nat) (state : AspmState)
  /-- ATTACH_REFUSED (12 R351): the ATTACH_CMD that fails a check: its MODE and EPOCH. -/
  | attachRefused (bench mode : Nat) (epoch : BitVec 32)
  /-- REGISTER_READ (21 R570): `hid` names the host's request. -/
  | registerRead (access : RegAccess) (hid : Nat)
  /-- ENVAN_DATA_REQUEST (07 R216): the sending hub, the bench it is for, the request and its number there. -/
  | envanDataRequest (sender home bench : Nat) (incarn : BitVec 16) (id : Nat) (request : DataRequest)
  /-- DIE_READ_RESPONSE (13 R380): the answer of a die to a request with this id; `die` 8 + h: of hub h to a core request that Envan carried. -/
  | dieReadResponse (die id : Nat) (status : MemStatus) (data : List Byte)
  /-- REMOTE_BAND_PLACEMENT (14 R405): a band of a spanning placement: its first row in the virtual grid, its rows, the grid's columns, flags and queues of a core, PLACE_SEED and the budget in ms, the ranges to be pinned. -/
  | remoteBandPlacement (home bench : Nat) (incarn : BitVec 16) (classId : Nat) (rateCap : BitVec 32) (number row rows cols flags queues seed budget : Nat) (ranges : List (Nat × Nat × Bool))
  /-- STRIP_ADMIT (15 R447): strip `strip` of a multi-hub lattice job: what the job states, the strip's coefficient records and initial rows. -/
  | stripAdmit (home bench ring : Nat) (incarn : BitVec 16) (classId : Nat) (rateCap : BitVec 32) (strip : Nat) (job : JobSpec) (coef : List Byte) (init : List Bool)
  /-- STRIP_STATE_RETURN (15 R449): a strip's best and final states. -/
  | stripStateReturn (bench ring : Nat) (incarn : BitVec 16) (strip : Nat) (best final : List Bool)
  /-- REMOTE_GRANT_RESULT (16 R482): the holder's RESULT. -/
  | remoteGrantResult (result : BitVec 8)
  /-- SELFTEST_OVERDUE (18 R530). -/
  | selftestOverdue (part : TestUnit)
  deriving DecidableEq, Repr

end Sys2Proof
end

