-- ==== Sys2Proof/WellFormed.lean ====
section
/-!
DEFINITION. Which commands are well formed: every operand that names a unit, a register or a numbered thing of the spec lies in the range the spec gives it, and every block of fixed size has that size.
-/

namespace Sys2Proof

/-- Benches are numbered 0–255 (00 R4, 05). -/
def okBench (n : Nat) : Bool := n < 256
/-- A core request names a bench, or 256 + a guest slot (13 R370). -/
def okOwner (n : Nat) : Bool := n < 512
/-- A bench has at most 16 rings (06 R155). -/
def okRing (n : Nat) : Bool := n < 16
/-- Host ports HP0–HP3 (00 R4). -/
def okPort (n : Nat) : Bool := n < 4
/-- A port has its PF, 0, and at most 63 VFs (04 R92). -/
def okFn (n : Nat) : Bool := n < 64
/-- Dies 0–7 (00 R4). -/
def okDie (n : Nat) : Bool := n < 8
/-- Lathes 0–15 (00 R4). -/
def okLathe (n : Nat) : Bool := n < 16
/-- A bench has 32 vectors (04 R111). -/
def okVector (n : Nat) : Bool := n < 32
/-- Switched domains PD1–PD12 (03 R68). -/
def okDomain (n : Nat) : Bool := 1 ≤ n && n ≤ 12
/-- Cores of a die are numbered 0–255 (20 Table 5: die × 256 + core). -/
def okCore (n : Nat) : Bool := n < 256
/-- Event lines 0–255 (08 R244). -/
def okLine (n : Nat) : Bool := n < 256
/-- Pace timers 0–63 of a cluster (08 R247). -/
def okTimer (n : Nat) : Bool := n < 64
/-- HUB_ID is 5 bits (02 R34). -/
def okHub (n : Nat) : Bool := n < 32
/-- WHITTLER_DBG.WHITTLER is 7 bits (21 R588). -/
def okWhittler (n : Nat) : Bool := n < 128
/-- An ITag is 5 bits (PCIe ATS). -/
def okItag (n : Nat) : Bool := n < 32
/-- A port has at most 2,048 tags (01 R31). -/
def okTag (n : Nat) : Bool := n < 2048
/-- Placement numbers are 8 bits (14 R400). -/
def okNumber (n : Nat) : Bool := n < 256
/-- An invalidation ring entry has 32 bytes (10 R302). -/
def okEntry (b : List Byte) : Bool := b.length == 32
/-- A SEAL_OPEN parameter block has 32 bytes (19 R535). -/
def okSealBlock : LoadResult → Bool
  | .ok b _ => b.length == 32
  | .failed .. => true
/-- CLASS_ID is 0–31 (02 Table 8). -/
def okClass (n : Nat) : Bool := n < 32
/-- Envan links EL0–EL5 (16 R453). -/
def okLink (n : Nat) : Bool := n < 6
/-- Errors that a link corrects (04 Table 9). -/
def correctableErrors : List AerError := [.receiver, .badTlp, .badDllp, .replayTimeout, .replayRollover, .correctableFlit]
/-- Errors that take a link down (04 Table 9). -/
def fatalErrors : List AerError := [.malformedTlp, .flowControl, .uncorrectableFlit]
/-- An access of `n` bytes lies inside BAR2, 64 GiB (04 Table 5). -/
def okBar2 (o n : Nat) : Bool := o + n ≤ 2 ^ 36
/-- An access of `n` bytes lies inside BAR4, 16 GiB (04 Table 5). -/
def okBar4 (o n : Nat) : Bool := o + n ≤ 2 ^ 34
/-- A link by name. -/
def okLinkName : LinkName → Bool
  | .spindle d => okDie d
  | .envan l => okLink l
  | .hostPort p e => okPort p && correctableErrors.contains e
/-- A self-test part (18 Table 3). -/
def okPart : TestUnit → Bool
  | .hsWay w => w < 16
  | .walkCache => true
  | .lathe l => okLathe l
  | .whittler w => okWhittler w
  | .burl _ => true
/-- A register access: its function exists, it has a length, its byte enables and bytes are as many, the first and the last byte are enabled (21 R568). -/
def okAccess (a : RegAccess) : Bool :=
  okPort a.port && okFn a.fn && 1 ≤ a.len && a.be.length == a.len && (a.data.length == a.len || a.data.isEmpty) &&
  a.be.head? == some true && a.be.getLast? == some true
/-- A porch entry comes from a host port or from inside (03 R78). -/
def okSource : PorchSource → Bool
  | .host p => okPort p
  | .internal => true
/-- A request that the porch can hold (03 R78). -/
def okRequest : PorchRequest → Bool
  | .write a => okAccess a
  | .read a _ => okAccess a
  | .bar2Read p f o n _ => okPort p && okFn f && okBar2 o n
  | .bar2Write p f o d _ _ => okPort p && okFn f && okBar2 o d.length
  | .bar4Write p f o _ d _ _ => okPort p && okFn f && okBar4 o d.length
  | .snpinv b r => okBench b && okRing r
  | .internal => true
/-- Fault indexes are 12 bits (21 R583). -/
def okFault (n : Nat) : Bool := n < 4096
/-- PACE_SLOT[0–7] (22 R600). -/
def okPaceSlot (n : Nat) : Bool := n < 8
/-- A lathe has 256 slots of each kind (08 R241). -/
def okSlot (n : Nat) : Bool := n < 256
/-- Sealed streams 0–63 (19 R534). -/
def okStream (n : Nat) : Bool := n < 64
/-- CODE, DETAIL and DVA of a range that a hub cannot pin (14 R400 step 4). -/
def okPinFailure : Option (Nat × Nat × Nat) → Bool
  | none => true
  | some (code, detail, va) => (code == 0x10 || code == 0x11) && detail < 256 && va < 2 ^ 64
/-- There are 16 sensors (03 R86). -/
def okSensors (l : List (BitVec 16)) : Bool := l.length == 16

/-- The command is well formed. -/
def Instr.wf : Instr → Bool
  | .hearthPowerGood => true
  | .hearthPowerLoss => true
  | .strapLatch _ _ _ _ _ => true
  | .sfdpReadDone _ _ _ => true
  | .slotHeadersRead _ _ => true
  | .slotBodyReadDone _ _ => true
  | .imageBoundExpiry => true
  | .ledgerTrainingDone _ => true
  | .bistDone _ => true
  | .linksPhaseEnd => true
  | .managementRestart _ => true
  | .restartSequenceResume => true
  | .hearthTrim _ => true
  | .refLoss => true
  | .refReturn => true
  | .hearthDeadline _ => true
  | .idleGateExpiry domain => okDomain domain
  | .gateDrainDone domain => okDomain domain
  | .gateDrainTimeout domain => okDomain domain
  | .gateSaveDone domain => okDomain domain
  | .porchEnqueue source domain _ request => okSource source && okDomain domain && okRequest request
  | .domainWakeDone domain => okDomain domain
  | .pd7RefillDone => true
  | .pdWake _ => true
  | .thermalSample sensors => okSensors sensors
  | .thermalRecovery => true
  | .perstAssert port => okPort port
  | .perstDeassert port => okPort port
  | .linkTrainingDone port _ => okPort port
  | .detectTimeout port => okPort port
  | .detectRetry port => okPort port
  | .linkDown port error => okPort port && error.all fun e => fatalErrors.contains e
  | .hotReset port => okPort port
  | .dpcContainment port => okPort port
  | .cxlLost port => okPort port
  | .flr port fn => okPort port && okFn fn
  | .vfEnableClear port => okPort port
  | .numvfsWrite port _ => okPort port
  | .configRequest port fn _ => okPort port && okFn fn
  | .powerStateChange port fn _ => okPort port && okFn fn
  | .busMasterEnableChange port fn _ => okPort port && okFn fn
  | .linkPowerStateChange port _ => okPort port
  | .bar2Read port fn offset length _ => okPort port && okFn fn && okBar2 offset length
  | .bar2Write port fn offset data _ _ => okPort port && okFn fn && okBar2 offset data.length
  | .bar4Write port fn offset _ data _ _ => okPort port && okFn fn && okBar4 offset data.length
  | .bar4Read port fn _ => okPort port && okFn fn
  | .atomicop port fn _ _ => okPort port && okFn fn
  | .hostCompletion port tag _ _ => okPort port && okTag tag
  | .completionTimeout port tag => okPort port && okTag tag
  | .atsTranslationCompletion port tag _ => okPort port && okTag tag
  | .invalidateRequest port fn itag _ _ _ => okPort port && okFn fn && okItag itag
  | .invalidateCompletion port fn itag => okPort port && okFn fn && okItag itag
  | .priResponse port fn _ _ => okPort port && okFn fn
  | .msixModerationExpiry bench vector => okBench bench && okVector vector
  | .msixEntryWrite port fn vector _ _ => okPort port && okFn fn && okVector vector
  | .snpinv bench ring => okBench bench && okRing ring
  | .snpdata bench ring => okBench bench && okRing ring
  | .goS bench ring _ => okBench bench && okRing ring
  | .knockPoll bench ring _ => okBench bench && okRing ring
  | .doorbell bench ring _ => okBench bench && okRing ring
  | .ownLateRetry bench ring => okBench bench && okRing ring
  | .descriptorFetch bench ring _ => okBench bench && okRing ring
  | .descriptorComplete bench ring => okBench bench && okRing ring
  | .ringEnable bench ring _ => okBench bench && okRing ring
  | .ringDisable bench ring _ => okBench bench && okRing ring
  | .ringDisableDone bench ring => okBench bench && okRing ring
  | .ringPause bench ring _ => okBench bench && okRing ring
  | .ringUnpause bench ring _ => okBench bench && okRing ring
  | .ringResume bench ring _ => okBench bench && okRing ring
  | .ringAbort bench ring _ => okBench bench && okRing ring
  | .abortDone bench ring => okBench bench && okRing ring
  | .copy bench ring => okBench bench && okRing ring
  | .gather bench ring _ => okBench bench && okRing ring
  | .scatter bench ring _ => okBench bench && okRing ring
  | .fill bench ring => okBench bench && okRing ring
  | .compare bench ring => okBench bench && okRing ring
  | .acquire bench ring => okBench bench && okRing ring
  | .fence bench ring => okBench bench && okRing ring
  | .eventWait bench ring => okBench bench && okRing ring
  | .eventWaitSatisfied bench ring => okBench bench && okRing ring
  | .eventSignal bench ring => okBench bench && okRing ring
  | .launch bench ring => okBench bench && okRing ring
  | .anneal bench ring _ => okBench bench && okRing ring
  | .prefetch bench ring => okBench bench && okRing ring
  | .advise bench ring => okBench bench && okRing ring
  | .billetAlloc bench ring => okBench bench && okRing ring
  | .billetFree bench ring => okBench bench && okRing ring
  | .sealOpen bench ring block => okBench bench && okRing ring && okSealBlock block
  | .sealClose bench ring => okBench bench && okRing ring
  | .channelTakeup _ => true
  | .burstGrant lathe => okLathe lathe
  | .egressGrant port => okPort port
  | .reservationStart bench ring => okBench bench && okRing ring
  | .readDataReturn lathe slot _ _ => okLathe lathe && okSlot slot
  | .writeAck lathe slot _ => decide (lathe ≤ 16) && (lathe == 16 || okSlot slot)
  | .triggerFire bench ring => okBench bench && okRing ring
  | .paceTimerExpiry _ timer => okTimer timer
  | .pacingYield bench ring => okBench bench && okRing ring
  | .eventClaim bench line => okBench bench && okLine line
  | .eventRelease bench line => okBench bench && okLine line
  | .paceClaim bench slot timer _ => okBench bench && okPaceSlot slot && okTimer timer
  | .paceRelease bench slot => okBench bench && okPaceSlot slot
  | .paceArm bench slot => okBench bench && okPaceSlot slot
  | .paceDisarm bench slot => okBench bench && okPaceSlot slot
  | .latheBusError lathe _ => okLathe lathe
  | .haltReplayResponse lathe _ => okLathe lathe
  | .haltReplayTimeout lathe => okLathe lathe
  | .haltIsolationDone lathe => okLathe lathe
  | .missSlotGrant => true
  | .walkerGrant => true
  | .walkDone bench _ _ => okBench bench
  | .trackerExpiry bench _ => okBench bench
  | .invRingEnable bench _ => okBench bench
  | .invDoorbell bench _ => okBench bench
  | .setEntry bench entry => okBench bench && okEntry entry
  | .invalidate bench entry => okBench bench && okEntry entry
  | .pinLoad bench entry => okBench bench && okEntry entry
  | .token bench entry => okBench bench && okEntry entry
  | .tokenComplete bench => okBench bench
  | .invResume bench => okBench bench
  | .xlateInvReceived home bench _ entry _ => okHub home && okBench bench && okEntry entry
  | .xlateInvAck holder bench _ => okHub holder && okBench bench
  | .faultCmdRetry index => okFault index
  | .faultCmdFatal index => okFault index
  | .faultFind _ => true
  | .faultRead => true
  | .regionQuerySel _ => true
  | .regionQuery => true
  | .countUpdate => true
  | .countDecay => true
  | .decayOverdue => true
  | .migStart => true
  | .migLeafCopyDone _ => true
  | .migLeafDone => true
  | .form => true
  | .formationDone => true
  | .setLimits => true
  | .setKeep => true
  | .hold => true
  | .resume => true
  | .sweep => true
  | .grantDieMem => true
  | .returnDieMem => true
  | .dieMemZeroFillDone die _ _ => okDie die
  | .reattachDeadlineExpiry bench => okBench bench
  | .noticeWrite bench => okBench bench
  | .noticeHeadWrite bench _ => okBench bench
  | .noticeEnable bench => okBench bench
  | .noticeDisable bench => okBench bench
  | .holdLong bench _ => okBench bench
  | .attachTokenWrite bench _ _ => okBench bench
  | .attachResume bench _ => okBench bench
  | .attachClose bench _ => okBench bench
  | .attachFresh bench _ => okBench bench
  | .peerWindowOpen bench => okBench bench
  | .peerWindowClose bench => okBench bench
  | .peerWriteApply bench => okBench bench
  | .peerDroppedInterval bench _ => okBench bench
  | .diePwrgoodRise die => okDie die
  | .diePwrgoodFall die => okDie die
  | .dieFatal die => okDie die
  | .spAttemptStart die => okDie die
  | .spLanesAligned die _ => okDie die
  | .spParametersExchanged die _ _ _ => okDie die
  | .spCreditsExchanged die => okDie die
  | .spZeroFillDone die => okDie die
  | .spStepTimeout die _ => okDie die
  | .spBackoffExpiry die => okDie die
  | .spAbsentRetry die => okDie die
  | .xltRequest die core _ bench _ _ _ _ => okDie die && okCore core && okOwner bench
  | .coreEventWrite die core line _ => okDie die && okCore core && okLine line
  | .coreFatalError die core _ => okDie die && okCore core
  | .dieUeReport die _ => okDie die
  | .flitCrcError link _ => okLinkName link
  | .flitAckTimeout die => okDie die
  | .spRecoveryDone die _ => okDie die
  | .spRequestTimeout die => okDie die
  | .laneRecal link _ _ => okLinkName link
  | .recalForce link _ _ _ => okLinkName link
  | .launchStageDone bench ring _ => okBench bench && okRing ring
  | .launchPlaceStart bench ring _ => okBench bench && okRing ring
  | .placementDone bench ring _ failure => okBench bench && okRing ring && okPinFailure failure
  | .launchLoadDone bench ring => okBench bench && okRing ring
  | .launchStartTime bench ring => okBench bench && okRing ring
  | .placeRelease bench number => okBench bench && okNumber number
  | .placeReleaseDone home bench number => okHub home && okBench bench && okNumber number
  | .lateSet die core => okDie die && okCore core
  | .lateClear die core => okDie die && okCore core
  | .holdForward home bench number _ => okHub home && okBench bench && okNumber number
  | .lateReport hub bench number die core _ _ => okHub hub && okBench bench && okNumber number && okDie die && okCore core
  | .releaseMessage home bench number _ _ => okHub home && okBench bench && okNumber number
  | .releaseTime home bench number => okHub home && okBench bench && okNumber number
  | .annealAdmit bench ring _ => okBench bench && okRing ring
  | .annealLoadDone bench ring _ => okBench bench && okRing ring
  | .burlMove _ => true
  | .burlSliceEnd _ => true
  | .burlCheckpointDone _ => true
  | .burlHaloReceived home bench ring _ _ _ _ _ _ _ => okHub home && okBench bench && okRing ring
  | .annealWriteDone bench ring => okBench bench && okRing ring
  | .elTrainingDone link _ => okLink link
  | .elBackoffExpiry link => okLink link
  | .elFlitSilence link => okLink link
  | .presenceSend => true
  | .presenceReceived hub _ _ _ _ => okHub hub
  | .hubSilent hub => okHub hub
  | .masterClaim => true
  | .charterSend _ => true
  | .charterReceived _ => true
  | .timeStatementSend => true
  | .timeStatementReceived _ _ => true
  | .hearthTimeReport hub _ => okHub hub
  | .delayProbe link _ => okLink link
  | .rosterReport hub _ _ => okHub hub
  | .rosterUpdate _ _ => true
  | .benchRegistration home bench _ classId _ => okHub home && okBench bench && okClass classId
  | .remoteGrant home bench _ classId _ _ die _ _ _ => okHub home && okBench bench && okClass classId && okDie die
  | .remoteSweep home bench _ _ => okHub home && okBench bench
  | .sweepSettleTimeout bench => okBench bench
  | .sweepCut bench => okBench bench
  | .sweepDrainDone bench => okBench bench
  | .sweepLocksTaken bench => okBench bench
  | .sweepReclaimDone bench => okBench bench
  | .lockExpiry _ => true
  | .whittlerWatchdog whittler => okWhittler whittler
  | .tallyQuery => true
  | .errlogEntryRead _ _ => true
  | .scrubBlock _ => true
  | .scrubPassStart => true
  | .scrubFloorDeadline => true
  | .dieScrubRequest die => okDie die
  | .dieScrubAck die => okDie die
  | .telemetrySnapshot => true
  | .selftestStart part => okPart part
  | .selftestDone part _ => okPart part
  | .sealCheckDone stream => okStream stream
  | .frameEvent stream => okStream stream
  | .jtagDapAccess => true
  | .jtagExtest => true
  | .jtagClamp => true
  | .jtagHighz => true
  | .jtagTestLogicReset => true
  | .jtagIdcode => true
  | .jtagBypass => true
  | .jtagSamplePreload => true
  | .dapMemoryRead _ _ => true
  | .dapMemoryData _ => true
  | .dapRegisterRead _ _ => true
  | .dapRegisterWrite _ _ => true
  | .whittlerHalt whittler _ => okWhittler whittler
  | .whittlerStep whittler => okWhittler whittler
  | .whittlerResume whittler => okWhittler whittler
  | .whittlerHonour whittler _ => okWhittler whittler
  | .debugCtrlWrite _ => true
  | .flashRead _ _ => true
  | .flashProgram _ _ => true
  | .flashErase4k _ => true
  | .flashCmdDone _ => true
  | .flashCmdTimeout => true
  | .smbusPointer _ _ => true
  | .smbusRead _ => true
  | .smbusRestart _ _ => true
  | .charterSnapshot _ => true
  | .registerWrite access => okAccess access
  | .aspmL1Change port _ => okPort port
  | .attachRefused bench _ _ => okBench bench
  | .registerRead access _ => okAccess access
  | .envanDataRequest sender home bench _ _ _ => okHub sender && okHub home && okBench bench
  | .dieReadResponse die _ _ _ => okDie die
  | .remoteBandPlacement home bench _ classId _ number _ _ _ _ _ _ _ _ => okHub home && okBench bench && okClass classId && okNumber number
  | .stripAdmit home bench ring _ classId _ _ _ _ _ => okHub home && okBench bench && okRing ring && okClass classId
  | .stripStateReturn bench ring _ _ _ _ => okBench bench && okRing ring
  | .remoteGrantResult _ => true
  | .selftestOverdue part => okPart part

end Sys2Proof
end

