-- ==== Sys2Proof/Decode.lean ====
section
/-!
DEFINITION. The table gives no row any bits: no word spells a command, so the decoder of table words answers none on every word.
-/

namespace Sys2Proof

/-- The rows of spec/opcode_table.json have no bits ("fields": []): no word spells a command of this block. -/
def decodeTableWord (_nbits _w : Nat) : Option Instr := none

end Sys2Proof
end

