-- ==== Sys2Proof/Config.lean ====
section
/-!
DEFINITION. What an implementation fixes and the spec leaves open: opaque constants. Nothing can be proved of their values, so a claim holds whatever they are.
-/

namespace Sys2Proof.Config

/-- Numbers of the hub's random number generator (05 R133), and other free 64-bit values, by draw (log entry 15). -/
opaque random : Nat → BitVec 64

/-- SHA-384 (02 R47, 16 R463), uninterpreted (log entry 16). -/
opaque sha384 : List Byte → List Byte

/-- ECDSA P-384 verification of X, Y, r, s over a message (02 R46, R47), uninterpreted (log entry 16). -/
opaque ecdsaVerify : List Byte → List Byte → List Byte

/-- Drift of hearth time in 1e-8 µs per µs while the reference is lost (03 R60 step 3: within ±200 ppm), by draw (log entry 17). -/
opaque drift : Nat → Int

/-- Size of the billet pool in KiB: what firmware leaves of ledger memory (07 R211; log entry 18). -/
opaque billetKib : Nat

/-- Table pages that ledger memory has room for (10 R290; log entry 18). -/
opaque tablePages : Nat

/-- The MiB of ledger memory that a billet index's megabyte takes (01 R24; 17 R510; log entry 18). -/
opaque billetHome : Nat → Nat

/-- KiB of ledger memory that sealed streams' staging may take (19 R534; log entry 18). -/
opaque stagingKib : Nat

/-- The hash of a tag, modulo 4,096 the set of the translation cache that it falls in: bench, Mode D, PASID, page size, page number (10 R279, R280; log entry 19). -/
opaque cacheSet : Nat → Bool → Nat → Nat → Nat → Nat

/-- The hash of a non-leaf entry's bench, level and index, modulo 256 the set of the walk cache that it falls in (10 R279; log entry 19). -/
opaque walkSet : Nat → Nat → Nat → Nat

/-- How much a placement prefers a physical core for a virtual one, lower first, by the inputs of 14 R406, the virtual core and the physical core (log entry 20). -/
opaque corePreference : List Nat → Nat → Nat → Nat

/-- The route word or physical address that a COORD, FLAG or QUEUE relocation writes (14 R397 Table 5), in the form that the WT256 manual defines, by relocation type and: site and target on one die, the target's die and core, placement number, row, column, index (log entry 25). -/
opaque patchWord : Nat → List Nat → BitVec 64

/-- The LINKS section enables a host port (02 R44 Table 6: the body is opaque; log entry 65). -/
opaque linksHost : List Byte → Nat → Bool

/-- The LINKS section enables a spindle port and its die (02 R44; log entry 65). -/
opaque linksSpindle : List Byte → Nat → Bool

/-- The LINKS section enables an Envan link (02 R44; log entry 65). -/
opaque linksEnvan : List Byte → Nat → Bool

/-- The order in which the LINKS section has the dies powered (02 R44; log entry 65). -/
opaque linksDieOrder : List Byte → List Nat

/-- The LINKS section permits a spindle port to train at half width (02 R44; 13 R368; log entry 65). -/
opaque linksDegraded : List Byte → Nat → Bool

/-- The ROM link parameters of factory defaults permit half width (02 R51; 13 R368; log entry 65). -/
opaque romDegraded : Bool

/-- The Subsystem IDs that the LINKS section gives (04 Table 4; log entry 65). -/
opaque linksSubsystem : List Byte → BitVec 32

end Sys2Proof.Config
end

