-- ==== Sys2Proof/Machine/State.lean ====
section
/-!
DEFINITION. The state of the hub as plain data, and its value at reset. Each field's docstring says its name in the spec, its width, the rule that names it and its reset value.
-/

namespace Sys2Proof.Machine

/-- Addressed memory in canonical form: addresses strictly rising, no entry equal to what an unlisted address reads as. -/
abbrev Memory := List Host.Cell

/-! ### Messages that leave the hub

The hub's effect on the world outside it is the list of messages it sends. -/

/-- A message to a die on its spindle port (13). -/
inductive DieMsg where
  /-- a read for a lathe: lathe, slot, offset in the die's address space, bytes -/
  | read (lathe slot offset length : Nat)
  /-- a write for a lathe -/
  | write (lathe slot offset : Nat) (data : List Byte)
  /-- a masked write for a lathe: each byte with its byte enable (07 R214, R215) -/
  | writeMasked (lathe slot offset : Nat) (data : List (Byte × Bool))
  /-- a host BAR2 read (04 R98; 09 R276) -/
  | hubRead (id offset length : Nat)
  /-- a host BAR2 write, a peer write or a forwarded frame; with a number where its acknowledgement is awaited (09 R274) -/
  | hubWrite (id : Option Nat) (offset : Nat) (data : List (Byte × Bool))
  /-- a zero fill of a range (05 R137; 14 R409) -/
  | zeroFill (offset length : Nat)
  /-- a SCRUB request (18 R519) -/
  | scrub (offset length : Nat)
  /-- a DAP read of 64 bytes (20 R552) -/
  | dapRead (offset : Nat)
  /-- the placement tags and routing of a core's launch (14 R400) -/
  | loadCore (core home bench number row col flags queues : Nat)
  /-- RUN at a start time (14 R401) -/
  | start (core : Nat) (time : BitVec 64)
  /-- HOLD of a placement (14 R414) -/
  | hold (home bench number : Nat)
  /-- RELEASE(T) (14 R415) -/
  | release (home bench number : Nat) (time : BitVec 64)
  /-- the cores of a placement stop and clear (14 R409) -/
  | stopCore (core : Nat)
  /-- a core request forwarded to the die that holds its target (13 R370) -/
  | xltForward (id offset length : Nat) (write : Bool) (data : List (Byte × Bool))
  /-- the answer to a core request: REFUSED, poison, or an acknowledgement with what a read gave (13 R370, R380) -/
  | xltAnswer (id : Nat) (refused poisoned : Bool) (data : List Byte)
  deriving DecidableEq, Repr

/-- A message to another hub over Envan (16 R456 Table 2). -/
inductive EnvanMsg where
  /-- HOLD class: HOLD of a placement -/
  | hold (home bench number : Nat) (incarn : BitVec 16)
  /-- HOLD class: RELEASE(T) -/
  | release (home bench number : Nat) (incarn : BitVec 16) (time : BitVec 64)
  /-- HOLD class: a LATE SET or CLEAR report to the home hub -/
  | late (home bench number die core : Nat) (set : Bool) (incarn : BitVec 16)
  /-- CHARTER class: presence (R459) -/
  | presence (hub : Nat) (inst : BitVec 64) (eligible : Bool) (epoch : BitVec 64)
  /-- CHARTER class: a full charter -/
  | charter (c : Charter)
  /-- CHARTER class: a time statement -/
  | time (time : BitVec 64) (frac : Nat)
  /-- CHARTER class: a member's hearth time (R470) -/
  | timeReport (time : BitVec 64)
  /-- CHARTER class: a delay probe (R468) -/
  | probe
  /-- CHARTER class: a member's report after an epoch (R474) -/
  | rosterReport (homes : List (Nat × BitVec 16)) (guests : List (Nat × Nat × BitVec 16))
  /-- CHARTER class: a roster update -/
  | rosterUpdate (seq : BitVec 64) (entries : List RosterEntry)
  /-- CHARTER class: registration of a spanning bench, or its new INCARN (R479, R483) -/
  | register (bench : Nat) (incarn : BitVec 16) (classId : Nat) (rateCap : BitVec 32)
  /-- CHARTER class: a forwarded GRANT_DIE_MEM or RETURN_DIE_MEM (R482); `room`: the bytes that the bench's grants leave of its DIE_MEM_QUOTA (05 R136) -/
  | remoteGrant (bench : Nat) (incarn : BitVec 16) (classId : Nat) (rateCap : BitVec 32) (giveBack : Bool) (die offset length room : Nat)
  /-- CHARTER class: the RESULT of one -/
  | remoteGrantResult (result : BitVec 8)
  /-- CHARTER class: a sweep command (R483) -/
  | remoteSweep (bench : Nat) (incarn : BitVec 16) (release : Bool)
  /-- CHARTER class: a holder asks the home to sweep a bench with cause DIE_LOST (R481) -/
  | askSweep (bench : Nat) (incarn : BitVec 16)
  /-- XLATE_INV class: a forwarded entry with its ring count (10 R308) -/
  | xlateInv (bench : Nat) (incarn : BitVec 16) (entry : List Byte) (count : BitVec 32)
  /-- XLATE_INV class: its acknowledgement -/
  | xlateInvAck (bench : Nat) (count : BitVec 32)
  /-- BURL class: boundary rows and strip energy (15 R448) -/
  | halo (home bench ring : Nat) (incarn : BitVec 16) (strip source sweep : Nat) (first last : List Bool) (energy : Int)
  /-- BURL class: a new best boundary (15 R449) -/
  | best (bench : Nat) (incarn : BitVec 16) (ring strip sweep : Nat)
  /-- DATA class: a lathe's write to a die or a core of another sled -/
  | dataWrite (lathe slot bench : Nat) (incarn : BitVec 16) (die offset : Nat) (data : List Byte)
  /-- DATA class: the same with byte enables -/
  | dataWriteMasked (lathe slot bench : Nat) (incarn : BitVec 16) (die offset : Nat) (data : List (Byte × Bool))
  /-- DATA class: a lathe's read -/
  | dataRead (lathe slot bench : Nat) (incarn : BitVec 16) (die offset length : Nat)
  /-- DATA class: the answer to a request of another sled -/
  | dataAnswer (id : Nat) (status : MemStatus) (data : List Byte)
  /-- DATA class: a forwarded core request (13 R370) -/
  | xltForward (id home bench : Nat) (incarn : BitVec 16) (die offset length : Nat) (write : Bool) (data : List (Byte × Bool))
  /-- DATA class: a band of a spanning placement to place and load (14 R405) -/
  | band (bench : Nat) (incarn : BitVec 16) (classId : Nat) (rateCap : BitVec 32) (number row rows cols flags queues seed budget : Nat) (ranges : List (Nat × Nat × Bool))
  /-- DATA class: a band placed: its cores, each with die, core, row, column, none where it did not fit; or CODE, DETAIL and DVA of a range that cannot be pinned there (14 R400 step 4) -/
  | bandDone (home bench number : Nat) (cores : List (Nat × Nat × Nat × Nat)) (failure : Option (Nat × Nat × Nat))
  /-- DATA class: the release of a placement's band (14 R409) -/
  | bandRelease (bench number : Nat) (incarn : BitVec 16)
  /-- DATA class: where the cores of the whole placement are: hub, die, core, row, column (13 R370; 14 R401, R414) -/
  | bandMap (bench number : Nat) (incarn : BitVec 16) (cores : List (Nat × Nat × Nat × Nat × Nat))
  /-- DATA class: a strip of a lattice job (15 R447) -/
  | strip (bench : Nat) (incarn : BitVec 16) (classId : Nat) (rateCap : BitVec 32) (ring strip : Nat) (job : JobSpec) (coef : List Byte) (init : List Bool)
  /-- DATA class: a strip's best and final states (15 R449) -/
  | stripState (home bench ring strip : Nat) (incarn : BitVec 16) (best final : List Bool)
  /-- DATA class: a strip that this hub cannot admit (15 Table 7; 16 R480) -/
  | stripRefused (home bench ring strip : Nat) (incarn : BitVec 16)
  /-- DATA class: staged bytes for the scratchpad of a core on another sled (14 R400 step 7) -/
  | loadScr (home bench number row col off : Nat) (incarn : BitVec 16) (data : List Byte)
  /-- DATA class: a strip's run ends at a boundary before its schedule, and its states are due (15 R450) -/
  | stripStop (bench : Nat) (incarn : BitVec 16) (ring strip sweep : Nat)
  /-- DATA class: a strip's job is abandoned (15 R451) -/
  | stripEnd (bench : Nat) (incarn : BitVec 16) (ring strip : Nat)
  /-- DATA class: a core of a guest raised a hold cause of its bench (13 R370, R371; log entry 43) -/
  | coreCause (bench : Nat) (incarn : BitVec 16) (cause : Nat) (address : BitVec 64) (core : BitVec 32)
  deriving DecidableEq, Repr

/-- A CXL.cache message to the home agent (04 Table 8). -/
inductive CxlMsg where
  | rdShared | rdCurr | cleanEvictNoData | rspIHitSE | rspSHitSE
  deriving DecidableEq, Repr

/-- Attributes of a memory request to a host port that vary (04 R101 Table 6). No Snoop, ID-Based Ordering and a PASID prefix are never set. -/
structure TlpAttr where
  /-- Relaxed Ordering -/
  relaxed : Bool
  /-- Address type: translated (AT = 10), else untranslated (AT = 00) -/
  translated : Bool
  deriving DecidableEq, Repr

/-- Severity of an error message (04 Table 9). -/
inductive Severity where
  | correctable | nonFatal | fatal
  deriving DecidableEq, Repr

/-- A message that leaves the hub. -/
inductive Out where
  /-- a posted memory write: Requester function, attributes, bus address, data -/
  | hostWrite (port fn : Nat) (attr : TlpAttr) (addr : Nat) (data : List Byte)
  /-- the same with byte enables: each byte with its own -/
  | hostWriteMasked (port fn : Nat) (attr : TlpAttr) (addr : Nat) (data : List (Byte × Bool))
  /-- a memory read with its tag and the byte enables of its first and last dword -/
  | hostRead (port fn tag : Nat) (attr : TlpAttr) (addr length : Nat) (firstBe lastBe : BitVec 4)
  /-- an MSI-X message: address and data -/
  | msix (port fn : Nat) (addr : Nat) (data : BitVec 32)
  /-- an ATS Translation Request with its tag; `write` is the complement of NW -/
  | atsRequest (port fn tag : Nat) (pasid : Option Nat) (addr : Nat) (write : Bool)
  /-- a PRI page request: group index, PASID, page address, write -/
  | pageRequest (port fn group : Nat) (pasid : Option Nat) (addr : Nat) (write : Bool)
  /-- an ATS Invalidate Completion -/
  | invCompletion (port fn itag : Nat)
  /-- a completion of a host's request -/
  | completion (port fn hid : Nat) (status : CplStatus) (data : List Byte)
  /-- the completion of a configuration read -/
  | configData (port fn : Nat) (value : BitVec 64)
  /-- an error message of a function (04 R117) -/
  | errorMessage (port fn : Nat) (error : AerError) (severity : Severity)
  /-- Configuration Request Retry Status -/
  | retryStatus (port fn : Nat)
  /-- a CXL.cache message to the home agent -/
  | cxl (port : Nat) (msg : CxlMsg) (addr : Nat)
  /-- a message to a die -/
  | die (die : Nat) (msg : DieMsg)
  /-- a message to another hub -/
  | envan (hub : Nat) (msg : EnvanMsg)
  /-- a command to the flash: slot, operation, offset in the slot, data -/
  | flash (slotB : Bool) (op offset : Nat) (data : List Byte)
  /-- a read command on the SPI bus: opcode, x4 data, clock in kHz, address, bytes (02 R38 Table 4, R39) -/
  | spiRead (opcode : Nat) (x4 : Bool) (khz addr length : Nat)
  /-- quad enable set as the SFDP quad-enable requirement states (02 R39) -/
  | spiQuad
  /-- a read of ledger memory for the DAP -/
  | ledgerRead (addr : BitVec 64)
  /-- a dword to the SMBus master -/
  | smbus (data : BitVec 32)
  /-- a dword to the TAP: the identification code, or a register of the DAP space -/
  | tap (data : BitVec 32)
  deriving DecidableEq, Repr

/-! ### Chapter 02: straps, start sequence, image -/

/-- The grade of the part (00_scope.md R1, R2, Table 1). A property of the part: no command writes it. -/
inductive Grade where
  | ax5216
  | ax5208
  deriving DecidableEq, Repr

/-- HUB_STATUS.PHASE, Table 2 of 02_start_and_image.md. -/
inductive Phase where
  | straps | flash | bist | links | hosts | running | restarting
  deriving DecidableEq, Repr

/-- What a torn-down hub waits for before the start sequence runs again from strap latch (02 R55, R56; 03 R60, R86; 20 R553). -/
inductive RestartWait where
  /-- no teardown is waiting -/
  | none
  /-- the 100 ms of deasserted die power (R56 step 4) -/
  | diePower
  /-- 10 ms of the reference without a gap (R60 step 5) -/
  | reference
  /-- 10 s below 90 °C (R86) -/
  | cool
  /-- Test-Logic-Reset of the TAP (R553) -/
  | testLogicReset
  deriving DecidableEq, Repr

/-- The four straps as STRAP_STATUS reads them (02 R34, 21 Table 6). -/
structure Straps where
  /-- STRAP_STATUS.HUB_ID; 5 bits; 02 R34, 21 R576; reset DESIGN CHOICE 0 (latched at STRAP_LATCH), log entry 10 -/
  hubId : BitVec 5
  /-- STRAP_STATUS.MASTER_ELIGIBLE; 1 bit; 02 R34, 21 R576; reset DESIGN CHOICE 0 (latched), log entry 10 -/
  masterEligible : Bool
  /-- STRAP_STATUS.IMAGE_SLOT_FORCE; 2 bits; 02 R34, 21 R576; reset DESIGN CHOICE 0 (latched), log entry 10 -/
  slotForce : BitVec 2
  /-- STRAP_STATUS.TEST_MODE; 1 bit; 02 R34, 21 R576; reset DESIGN CHOICE 0 (latched), log entry 10 -/
  testMode : Bool
  deriving DecidableEq, Repr

/-- One bench class record of BENCH_POLICY (02 R44 Table 8). -/
structure BenchClass where
  /-- CLASS_ID; 0–31 -/
  classId : Nat
  /-- QOS_CLASS; 0–7 -/
  qosClass : Nat
  /-- MAX_RINGS; 1–16 -/
  maxRings : Nat
  /-- ADDR_MODES bit 0: Mode S -/
  modeS : Bool
  /-- ADDR_MODES bit 1: Mode D -/
  modeD : Bool
  /-- CHANNEL_QUOTA -/
  channelQuota : Nat
  /-- FAULT_SHARE; 1–1,024 -/
  faultShare : Nat
  /-- DIE_MEM_QUOTA; bytes -/
  dieMemQuota : Nat
  /-- CORE_LIMIT -/
  coreLimit : Nat
  /-- BURL_ACCESS bit 0: dense engine -/
  burlDense : Bool
  /-- BURL_ACCESS bit 1: lattice engine -/
  burlLattice : Bool
  /-- FLAGS bit 0: KEEP_ALLOWED -/
  keepAllowed : Bool
  /-- FLAGS bit 1: PEER_ALLOWED -/
  peerAllowed : Bool
  /-- FLAGS bit 2: SEAL_ALLOWED -/
  sealAllowed : Bool
  /-- FLAGS bit 3: MGMT -/
  mgmt : Bool
  /-- BILLET_QUOTA; KiB -/
  billetQuota : Nat
  /-- RATE_CAP; MB/s, 0 for none -/
  rateCap : Nat
  /-- HOT_THRESHOLD; 0 for no counting -/
  hotThreshold : Nat
  deriving DecidableEq, Repr

/-- One QOS entry (02 R44 Table 9). -/
structure QosClass where
  /-- LATHE_WEIGHT; 1–255 -/
  latheWeight : Nat
  /-- WALKER_WEIGHT; 1–255 -/
  walkerWeight : Nat
  /-- EGRESS_WEIGHT; 1–255 -/
  egressWeight : Nat
  /-- MOD_FLOOR_NS; 0–1,000,000 -/
  modFloorNs : Nat
  deriving DecidableEq, Repr

/-- The CASCADE section (02 R44 Table 10). -/
structure CascadeCfg where
  /-- MASTER_CAPABLE -/
  masterCapable : Bool
  /-- SUCCESSORS, the first SUCCESSOR_COUNT entries -/
  successors : List Nat
  /-- HUB_COUNT -/
  hubCount : Nat
  deriving DecidableEq, Repr

/-- The BURL section (02 R44 Table 11). -/
structure BurlCfg where
  /-- TENANT_ENABLE -/
  tenantEnable : Bool
  /-- PLACEMENT_BUDGET_MS; 100–10,000 -/
  budgetMs : Nat
  /-- WEIGHTS, opaque placement cost weights -/
  weights : List Byte
  deriving DecidableEq, Repr

/-- The configuration in force, from the selected slot or the ROM (02 R44, R51 Table 15). -/
structure ImageCfg where
  /-- IMAGE_VERSION; 0 on factory defaults -/
  version : BitVec 32
  /-- RACK_FAMILY -/
  rackFamily : BitVec 64
  /-- the class records -/
  classes : List BenchClass
  /-- MGMT_PORT -/
  mgmtPort : Nat
  /-- MGMT_FUNCTION; 0 for the PF -/
  mgmtFunction : Nat
  /-- MGMT_CLASS -/
  mgmtClass : Nat
  /-- REATTACH_TIMEOUT_S -/
  reattachTimeoutS : Nat
  /-- VF_COUNT of each host port -/
  vfCount : List Nat
  /-- MAX_BENCHES -/
  maxBenches : Nat
  /-- the eight QOS entries -/
  qos : List QosClass
  /-- the CASCADE section, if present -/
  cascade : Option CascadeCfg
  /-- the BURL section, if present -/
  burl : Option BurlCfg
  /-- the LINKS section, opaque (empty on factory defaults: ROM link parameters) -/
  links : List Byte
  /-- the CAL_OVERRIDE section, opaque (empty when absent: fused calibration) -/
  calOverride : List Byte
  /-- the WHITTLER_FW section, opaque (empty on factory defaults: ROM build) -/
  firmware : List Byte
  /-- IDLE_GATE_MS[PD1..PD12]; all 0 without a POWER section -/
  idleGateMs : List Nat
  /-- the configuration is the factory defaults of R51 -/
  defaults : Bool
  deriving DecidableEq, Repr

/-- One section-table entry of a slot (02 R42). -/
structure SectionEntry where
  /-- TYPE -/
  type : Nat
  /-- BODY_VERSION -/
  version : Nat
  /-- OFFSET -/
  offset : Nat
  /-- LENGTH -/
  length : Nat
  /-- SECTION_CHECK -/
  check : BitVec 32
  deriving DecidableEq, Repr

/-- A slot header that passed checks 1–6 (02 R41 Table 5), with its section table. -/
structure SlotHeader where
  /-- IMAGE_VERSION -/
  version : BitVec 32
  /-- IMAGE_LENGTH -/
  length : Nat
  /-- SPI_MODE bit 0: x4 permitted -/
  x4 : Bool
  /-- SPI_CLOCK_MHZ -/
  clockMhz : Nat
  /-- SIG_OFFSET -/
  sigOffset : Nat
  /-- RACK_FAMILY -/
  rackFamily : BitVec 64
  /-- the section table -/
  sections : List SectionEntry
  deriving DecidableEq, Repr

/-- IMAGE_INFO.SLOT_x_RESULT codes, Table 14 of 02_start_and_image.md. -/
inductive SlotResult where
  | ok | notRead | pending | flashAbsent | badMagic | badFormat | badHeader
  | imageCheck | missingSection | sectionCheck | sectionContent | signature | timedOut
  deriving DecidableEq, Repr

/-- Where the search for a configuration stands (02 R40, R48, R50). -/
structure SlotSearch where
  /-- SFDP density, n for 2^n MiB; 0 unreadable; 02 R40; reset 0 -/
  density : Nat
  /-- SFDP advertises 1-1-4 fast read; 02 R39; reset false -/
  sfdpX4 : Bool
  /-- SFDP fast-read limit in MHz; 02 R39; reset 0 -/
  sfdpMhz : Nat
  /-- header of slot A when it passed checks 1–6; 02 R48; reset none -/
  headerA : Option SlotHeader
  /-- header of slot B when it passed checks 1–6; 02 R48; reset none -/
  headerB : Option SlotHeader
  /-- the slot whose body is being read (false A, true B); 02 R48; reset none -/
  reading : Option Bool
  /-- hearth time at which the 60 s image bound expires; 02 R50, 03 R65; reset none -/
  bound : Option (BitVec 64)
  deriving DecidableEq, Repr

/-- IMAGE_INFO (21 R577 Table 8). -/
structure ImageInfo where
  /-- IMAGE_INFO.SLOT_A_RESULT; 4 bits; 02 R49, 21 R577; reset 0x2 PENDING -/
  slotA : SlotResult
  /-- IMAGE_INFO.SLOT_B_RESULT; 4 bits; 02 R49, 21 R577; reset 0x2 PENDING -/
  slotB : SlotResult
  /-- IMAGE_INFO.SIGNATURE; 2 bits; 02 R47, 21 R577; reset 0 NOT_CHECKED -/
  signature : BitVec 2
  /-- IMAGE_INFO.SPI_WIDTH; 4 bits; 21 R577; reset 0 -/
  spiWidth : BitVec 4
  /-- IMAGE_INFO.SPI_MHZ; 8 bits; 21 R577; reset 0 -/
  spiMhz : BitVec 8
  /-- IMAGE_INFO.VERSION; 32 bits; 21 R577; reset 0 -/
  version : BitVec 32
  /-- IMAGE_INFO.FW_VERSION; 32 bits; 02 R51, 21 R577; reset 0 -/
  fwVersion : BitVec 32
  deriving DecidableEq, Repr

/-- The flash programming interface (21 R577 Table 9). -/
structure FlashIf where
  /-- FLASH_ADDR; 32 bits; 21 R577; reset 0 -/
  addr : BitVec 32
  /-- FLASH_DATA, the 256-byte buffer; 21 R577; reset all 0 (DESIGN CHOICE, log entry 10) -/
  data : List Byte
  /-- FLASH_STATUS.BUSY; 1 bit; 21 R577; reset 0 -/
  busy : Bool
  /-- FLASH_STATUS.RESULT; 4 bits; 21 R577; reset 0 -/
  result : BitVec 4
  /-- the running command: OP, SLOT, OFFSET, LENGTH; 21 R577; reset none -/
  running : Option (Nat × Bool × Nat × Nat)
  /-- hearth time at which it began; 21 R577; reset 0 -/
  since : BitVec 64
  deriving DecidableEq, Repr

/-- The chip-wide state of chapter 02 with HUB_STATUS, HUB_CONTROL and fuses. -/
structure Chip where
  /-- the grade of the part, read as HUB_IDENT.GRADE and DEVICE; 00 R2, 21 R576; AX5216 or AX5208 (DESIGN CHOICE AX5216, log entry 11) -/
  grade : Grade
  /-- the hearth rails are up (23 R618, R619); reset false -/
  powered : Bool
  /-- the key digest is fused, IMAGE_INFO.KEY_FUSED; 02 R47, 21 R577; reset DESIGN CHOICE none, log entry 12 -/
  keyDigest : Option (List Byte)
  /-- HUB_STATUS.PHASE; 3 bits; 02 Table 2, 21 R576; reset 0 STRAPS -/
  phase : Phase
  /-- what a torn-down hub waits for; 02 R55, R56; reset none -/
  wait : RestartWait
  /-- hearth time at which DIE_PWR_EN was deasserted by a teardown; 02 R56 step 4; reset 0 -/
  teardownAt : BitVec 64
  /-- STRAP_STATUS; 02 R34 -/
  straps : Straps
  /-- hearth time at which PHASE moved to LINKS; 13 R385; reset 0 -/
  linksAt : BitVec 64
  /-- HUB_STATUS.CFG_DEFAULTED; 1 bit; 02 R52, 21 R576; reset 0 -/
  cfgDefaulted : Bool
  /-- HUB_STATUS.CFG_SOURCE; 2 bits; 02 R52, 21 R576; reset 3 -/
  cfgSource : BitVec 2
  /-- HUB_STATUS.CFG_REASON; 3 bits; 02 R52, 21 R576; reset 0 -/
  cfgReason : BitVec 3
  /-- HUB_STATUS.LEDGER_FAIL; 1 bit; 03 R83, 21 R576; reset 0 -/
  ledgerFail : Bool
  /-- HUB_STATUS.LEDGER_MASK; 4 bits; 03 R83, 21 R576; reset 0 -/
  ledgerMask : BitVec 4
  /-- HUB_STATUS.BIST_FAIL; 1 bit; 18 R532, 21 R576; reset 0 -/
  bistFail : Bool
  /-- HUB_STATUS.BIST_UNIT; 4 bits; 18 R532, 21 R576; reset 0 -/
  bistUnit : BitVec 4
  /-- HUB_STATUS.LAST_RESTART; 4 bits; 02 R55, 21 R576; reset 0 COLD -/
  lastRestart : BitVec 4
  /-- the hub's BAD_ACCESS_COUNT; 32 bits; 21 R574, R576; reset 0 -/
  badAccess : BitVec 32
  /-- ledger training and zero fill are done; 02 R37, 03 R82; reset false -/
  ledgerReady : Bool
  /-- the configuration in force; 02 R48, R51; reset none -/
  cfg : Option ImageCfg
  /-- where the slot search stands; 02 R48 -/
  search : SlotSearch
  /-- IMAGE_INFO; 21 R577 -/
  image : ImageInfo
  /-- the flash programming interface; 21 R577 -/
  flash : FlashIf
  /-- the SMBus read pointer; 24 bits; 21 R575; reset DESIGN CHOICE 0, log entry 10 -/
  smbusPtr : BitVec 24
  /-- the staged low dword of the hub block, with the offset it was written to; 21 R571; reset none -/
  staged : Option (Nat × BitVec 32)
  deriving DecidableEq, Repr

/-! ### Chapter 03: hearth, power domains, porch, thermal -/

/-- PD_STATUS.STATE (03 R72). ABSENT is a fact of the grade and is not stored. -/
inductive PdState where
  | on | closing | draining | saving | off | waking
  deriving DecidableEq, Repr

/-- One switched power domain. -/
structure PdDomain where
  /-- PD_STATUS.STATE; 4 bits; 03 R72, 21 R578; reset 4 OFF -/
  state : PdState
  /-- PD_GATE_ABORT_COUNT; 32 bits; 03 R73, 21 R578; reset 0 -/
  gateAborts : BitVec 32
  /-- hearth time from which the idle-gate timer counts; 03 R70; reset 0 -/
  idleSince : BitVec 64
  /-- hearth time at which the current gate step began; 03 R72; reset 0 -/
  stepSince : BitVec 64
  deriving DecidableEq, Repr

/-- What a general hearth deadline was set for (03 R65). -/
inductive DeadlineKind where
  | reattach (bench : Nat)
  | tallyExpiry (lock : Nat)
  | spindleRetry (die : Nat)
  | envanRetry (link : Nat)
  | masterSilence
  | scrubFloor
  deriving DecidableEq, Repr

/-- One of the 1,024 general deadlines of the hearth timer unit (03 R65 Table 1). -/
structure Deadline where
  /-- what it was set for -/
  kind : DeadlineKind
  /-- the hearth time it compares against -/
  time : BitVec 64
  deriving DecidableEq, Repr

/-- One request held in the porch (03 R78). -/
structure PorchEntry where
  /-- where it came from -/
  source : PorchSource
  /-- the domain it is addressed to -/
  domain : Nat
  /-- the porch entries it takes -/
  slots : Nat
  /-- the request -/
  request : PorchRequest
  deriving DecidableEq, Repr

/-- The hearth: clock, time, timers, power domains, porch, thermal. -/
structure Hearth where
  /-- HEARTH_TIME; 64 bits; 03 R62, 21 R578; reset 0 -/
  time : BitVec 64
  /-- hearth time counts (from the first strap latch); 03 R62; reset false -/
  counting : Bool
  /-- HEARTH_RATE_ADJ, signed, 0.01 ppm; 32 bits; 03 R64, 21 R578; reset 0 -/
  rateAdj : Int
  /-- accumulated correction, in units of 1e-8 µs; 03 R60; model's own field; reset 0 -/
  rateAcc : Int
  /-- the rate error that trimming left the oscillator with, in 0.01 ppm, within ±50 ppm; 03 R59; reset 0 (DESIGN CHOICE, log entry 10) -/
  oscTrim : Int
  /-- the 25 MHz reference is absent, HUB_STATUS.REF_LOST; 1 bit; 03 R60, R61; reset 0 -/
  refLost : Bool
  /-- the thermal cause of HEARTH_ALERT_N; 03 R86; reset false -/
  thermalAlert : Bool
  /-- THERMAL_STATUS.TJ_MAX, signed, 0.1 °C; 16 bits; 03 R86, 21 R578; reset 0 -/
  tjMax : BitVec 16
  /-- THERMAL_STATUS.WARN; 1 bit; 03 R86, 21 R578; reset 0 -/
  thermalWarn : Bool
  /-- THERMAL_STATUS.SENSOR; 4 bits; 21 R578; reset 0 -/
  sensor : BitVec 4
  /-- the sixteen sensors as last read, 0.1 °C; 16 × 16 bits; 03 R86; reset empty, all 0 (DESIGN CHOICE, log entry 10) -/
  sensors : List (BitVec 16)
  /-- hearth time of the first of the samples since when every sample read below 90 °C; 03 R86; reset none -/
  coolSince : Option (BitVec 64)
  /-- PD1–PD12 by number; 03 R68, R72; reset all OFF -/
  domains : Tab PdDomain
  /-- the general deadlines in use, at most 1,024; 03 R65; reset none -/
  deadlines : List Deadline
  /-- the detect-retry timers of the host ports, by port; 03 R65, 04 R90; reset none running -/
  detectRetry : Tab (Option (BitVec 64))
  /-- the porch, oldest first; 512 entries; 03 R78; reset empty -/
  porch : List PorchEntry
  /-- requests that wait outside a full porch with credits withheld, oldest first; 03 R80; reset empty -/
  withheld : List PorchEntry
  /-- PORCH_STATUS.HIGH_WATER; 10 bits; 03 R80, 21 R578; reset 0 -/
  highWater : Nat
  /-- the PD7 pin refill is under way; 03 R74; reset false -/
  refilling : Bool
  deriving DecidableEq, Repr

/-! ### Chapter 04: host ports and functions -/

/-- PORT_STATUS.LINK_STATE (21 R579 Table 12). -/
inductive LinkState where
  | down | detect | training | l0 | l1 | l2 | recovery | absent
  deriving DecidableEq, Repr

/-- What a host-port tag was issued for (04 R100, R104, R107; 06 R170, R173; 08 R242). -/
inductive TagOwner where
  /-- a data read of a lathe channel, with its read slot and destination offset in the transfer -/
  | latheRead (lathe channel slot : Nat)
  /-- the flush read of a ring's completing descriptor, with its lathe and read slot (R102; 08 R241) -/
  | flush (bench ring lathe slot : Nat)
  /-- an ATS translation request for this Headstock request -/
  | ats (miss : Nat)
  /-- the flush read that a function's invalidation with this ITag waits on (R108) -/
  | invFlush (fn itag : Nat)
  /-- the flush read behind the posted writes of a ring that is ABORTING (06 R183) -/
  | abortFlush (bench ring : Nat)
  deriving DecidableEq, Repr

/-- One outstanding non-posted request of a host port (04 R100, R104). -/
structure TagUse where
  /-- the tag -/
  tag : Nat
  /-- the function it was issued for -/
  fn : Nat
  /-- the bench it was issued for -/
  bench : Nat
  /-- what it serves -/
  owner : TagOwner
  /-- its bench was cut or detached: the completion is discarded (17 R498) -/
  chaff : Bool
  deriving DecidableEq, Repr

/-- One TLP waiting in a function's egress queue (04 R103). -/
structure EgressTlp where
  /-- the function whose queue it waits in -/
  fn : Nat
  /-- the bench charged, 256 for none -/
  bench : Nat
  /-- bytes charged by the arbiter -/
  size : Nat
  /-- bytes counted against RATE_CAP (05 R144): data bytes only -/
  capped : Nat
  /-- a data write of a descriptor (07 Table 10; 17 R499) -/
  data : Bool
  /-- for a non-posted request, what it is for: it takes its tag as it leaves (01 R31; 08 Table 2) -/
  owner : Option TagOwner
  /-- a write of a notice of the bench: true for the second, with PHASE (05 R150) -/
  notice : Option Bool
  /-- what leaves the port -/
  tlp : Out
  deriving DecidableEq, Repr

/-- A request that was issued under a translation that an invalidation removed (04 R108; 10 R306). -/
inductive InFlight where
  /-- a lathe's slot -/
  | slot (lathe : Nat) (write : Bool) (slot : Nat)
  /-- a burst that was translated: ring, descriptor count, first byte -/
  | burst (ring : Nat) (desc : BitVec 32) (start : Nat)
  /-- a core request: die and identifier there -/
  | core (die id : Nat)
  /-- a host BAR2 read, by its identifier -/
  | bar2 (id : Nat)
  /-- a write of a host or a peer, by its number -/
  | put (id : Nat)
  deriving DecidableEq, Repr

/-- One ATS Invalidate Request that was accepted and not yet completed (04 R108). -/
structure InvRequest where
  /-- the function -/
  fn : Nat
  /-- the request's ITag -/
  itag : Nat
  /-- first byte of the invalidated range -/
  base : Nat
  /-- its length in bytes -/
  length : Nat
  /-- the PASID, or none for all -/
  pasid : Option Nat
  /-- requests issued under the translations it removed, not yet finished -/
  barrier : List InFlight
  /-- a flush read behind posted writes has not completed -/
  flush : Bool
  deriving DecidableEq, Repr

/-- One host port (04; 21 R579). -/
structure Port where
  /-- PORT_STATUS.LINK_STATE; 4 bits; 04 R90, 21 R579; reset 0 DOWN -/
  link : LinkState
  /-- PORT_STATUS.WIDTH; 3 bits; 21 R579; reset 0 -/
  width : BitVec 3
  /-- PORT_STATUS.SPEED; 3 bits; 21 R579; reset 0 -/
  speed : BitVec 3
  /-- PORT_STATUS.FLIT; 1 bit; 21 R579; reset 0 -/
  flit : Bool
  /-- PORT_STATUS.CXL; 1 bit; 21 R579; reset 0 -/
  cxl : Bool
  /-- PORT_STATUS.FAIL_CAUSE; 3 bits; 04 R90 Table 3, 21 R579; reset 0 -/
  failCause : BitVec 3
  /-- PORT_STATUS.TRAIN_FAIL_COUNT; 8 bits; 04 R89, 21 R579; reset 0 -/
  trainFails : BitVec 8
  /-- PORT_TRAIN.CONSEC_FAILS; 3 bits; 21 R579; reset 0 -/
  consecFails : Nat
  /-- PORT_TRAIN.MPS; 3 bits; 04 R100, 21 R579; reset 0 -/
  mps : BitVec 3
  /-- PORT_TRAIN.MRRS; 3 bits; 04 R100, 21 R579; reset 0 -/
  mrrs : BitVec 3
  /-- PF Device Control Enable Relaxed Ordering; 1 bit; 04 R100; reset PRESUMED 1 (PCIe), log entry 13 -/
  relaxed : Bool
  /-- PF Device Control 2 Completion Timeout Value; 4 bits; 04 R104; reset 0 (default encoding) -/
  cto : BitVec 4
  /-- SR-IOV NumVFs; 04 R92; reset 0 (PRESUMED, log entry 13) -/
  numVfs : Nat
  /-- SR-IOV VF Enable; 04 R92; reset 0 (PRESUMED, log entry 13) -/
  vfEnable : Bool
  /-- HPn_PERST_N is asserted; 04 R89; reset true (PRESUMED, log entry 13) -/
  perst : Bool
  /-- the link is in L1.2; 03 R68, 04 Table 1; reset false -/
  l12 : Bool
  /-- the link is in L1.1; 04 Table 1; reset false. HPn_CLKREQ_N is deasserted in L1.1 and L1.2 -/
  l11 : Bool
  /-- the detect-retry timer woke the port for its one attempt; 04 R90; reset false -/
  retrying : Bool
  /-- the VF BARs 0, 2 and 4 of the SR-IOV capability, address bits; 64 bits each; 04 R95; reset 0 (PRESUMED, log entry 13) -/
  vfBars : List (BitVec 64)
  /-- HPn_WAKE_N is asserted; 04 R121; reset false -/
  wake : Bool
  /-- the outstanding non-posted requests; 04 R100 (PORT_TRAIN.TAGS_IN_USE is their number); reset none -/
  tags : List TagUse
  /-- the egress queues of all functions, oldest first; 04 R103; reset empty -/
  egress : List EgressTlp
  /-- the accepted Invalidate Requests, oldest first; 256; 04 R108; reset none -/
  invalidates : List InvRequest
  /-- Invalidate Requests that wait with posted credits withheld: function, ITag, base, length, PASID; 04 R108; reset none -/
  invWaiting : List (Nat × Nat × Nat × Nat × Option Nat)
  /-- bytes in the peer write buffer; 12 R363; reset 0 -/
  peerBytes : Nat
  /-- start-up BIST failed: the port presents no receiver; 18 R531; reset false -/
  unfit : Bool
  deriving DecidableEq, Repr

/-- One PCIe function, keyed port × 64 + function (04 R92, R106, R109, R112, R121). -/
structure Fn where
  /-- the function is in D3hot; 04 R121; reset false -/
  d3hot : Bool
  /-- Bus Master Enable; 04 R121; reset 0 (PRESUMED, log entry 13) -/
  busMaster : Bool
  /-- Memory Space Enable; 12 R350, R351; reset 0 (PRESUMED, log entry 13) -/
  memSpace : Bool
  /-- PASID Enable; 04 R106; reset 0 (PRESUMED, log entry 13) -/
  pasidEn : Bool
  /-- ATS Enable; 04 R106; reset 0 (PRESUMED, log entry 13) -/
  atsEn : Bool
  /-- PRI Enable; 04 R106; reset 0 (PRESUMED, log entry 13) -/
  priEn : Bool
  /-- PRI Outstanding Page Request Allocation; 04 R109; reset 0 (PRESUMED, log entry 13) -/
  priAlloc : Nat
  /-- PRI Status Response Failure; 04 R109; reset 0 -/
  priFailure : Bool
  /-- MSI-X Enable; 04 R112; reset 0 (PRESUMED, log entry 13) -/
  msixEn : Bool
  /-- MSI-X Function Mask; 04 R112; reset 0 (PRESUMED, log entry 13) -/
  msixMask : Bool
  /-- PME Enable; 04 R121; reset 0 (PRESUMED, log entry 13) -/
  pmeEn : Bool
  /-- errors logged on the function through AER, oldest first; 04 R117; reset none -/
  aer : List AerError
  /-- uncorrectable errors that AER reports as fatal; 04 R117 Table 9; reset those of Table 9 -/
  fatal : List AerError
  /-- BARs 0, 2 and 4, address bits; 64 bits each; 04 R95; reset 0 (PRESUMED, log entry 13) -/
  bars : List (BitVec 64)
  deriving DecidableEq, Repr

/-! ### Chapter 05: benches -/

/-- BENCH_STATUS.STATE (05 R125 Table 1). -/
inductive BenchState where
  | vacant | forming | active | held | sweeping
  deriving DecidableEq, Repr

/-- One die-memory grant (05 R136), on this hub or, for a spanning bench, on a holder (16 R482). -/
structure Grant where
  /-- HUB_ID of the holder; 255 for this hub -/
  hub : Nat
  /-- the die -/
  die : Nat
  /-- byte offset in the die's memory -/
  offset : Nat
  /-- bytes -/
  length : Nat
  deriving DecidableEq, Repr

/-- A notice as made: everything of 05 R150 Table 9 but PHASE, which its place in the queue gives. -/
structure Notice where
  /-- TYPE -/
  type : Nat
  /-- CAUSE -/
  cause : Nat
  /-- RING -/
  ring : Nat
  /-- SEQ -/
  seq : BitVec 32
  /-- TIME -/
  time : BitVec 64
  /-- ARG0 -/
  arg0 : BitVec 64
  /-- ARG1 -/
  arg1 : BitVec 32
  /-- SUBJECT [15:0] -/
  subject : Nat
  deriving DecidableEq, Repr

/-- A bench's notice queue (05 R149–R152; 22 R596, R597). -/
structure NoticeQ where
  /-- NOTICE_BASE; 64 bits; 22 R596; reset 0 -/
  base : BitVec 64
  /-- NOTICE_SIZE.LOG2; 4 bits; 22 R596; reset 0 -/
  log2 : BitVec 4
  /-- NOTICE_HEAD; 32 bits; 22 R596; reset 0 -/
  head : BitVec 32
  /-- NOTICE_TAIL; 32 bits; 05 R150, 22 R596; reset 0 -/
  tail : BitVec 32
  /-- NOTICE_CTRL.ENABLE; 1 bit; 22 R597; reset 0 -/
  enable : Bool
  /-- NOTICE_CTRL.PHASE; 1 bit; 05 R150, 22 R596; reset 0 -/
  phase : Bool
  /-- NOTICE_SEQ; 32 bits; 05 R150, 22 R596; reset 0 -/
  seq : BitVec 32
  /-- the pending store, in SEQ order, but for the notice being written; 64 notices with it; 05 R152; reset empty -/
  pending : List Notice
  /-- the notice being written: its second write has not been issued; 05 R150, R152; reset none -/
  writing : Option Notice
  /-- notices lost or discarded since the previous OVERFLOW; 05 R152; reset 0 -/
  lost : Nat
  /-- SEQ of the first of them; 05 R152; reset 0 -/
  firstLost : BitVec 32
  /-- a write of NOTICE_CTRL.ENABLE that waits until the notice in progress has been issued; 22 R597; reset none -/
  ctrlWait : Option Bool
  deriving DecidableEq, Repr

/-- Bench counters (22 R595 Table 6), all reset 0. -/
structure BenchCounters where
  /-- BAD_ACCESS_COUNT; 32 bits; 22 R592; reset 0 -/
  badAccess : BitVec 32
  /-- BAR2_MISS_COUNT; 32 bits; 04 R98; reset 0 -/
  bar2Miss : BitVec 32
  /-- HOLD_CAUSE_COUNT; 32 bits; 05 R127; reset 0 -/
  holdCause : BitVec 32
  /-- FAULT_WAIT_COUNT; 32 bits; 05 R148; reset 0 -/
  faultWait : BitVec 32
  /-- NOTICE_LOST_COUNT; 32 bits; 05 R152; reset 0 -/
  noticeLost : BitVec 32
  /-- ATTACH_FAIL_COUNT; 32 bits; 12 R352; reset 0 -/
  attachFail : BitVec 32
  /-- EVENT_CLAIM_FAIL; 32 bits; 08 R245, R247; reset 0 -/
  claimFail : BitVec 32
  /-- PEER_DROP_COUNT; 32 bits; 12 R361; reset 0 -/
  peerDrop : BitVec 32
  /-- PEER_RID_REJECT_COUNT; 32 bits; 12 R361; reset 0 -/
  peerRid : BitVec 32
  /-- PEER_POISON_COUNT; 32 bits; 12 R361; reset 0 -/
  peerPoison : BitVec 32
  /-- PEER_ERR_COUNT; 32 bits; 01 R29; reset 0 -/
  peerErr : BitVec 32
  /-- BILLET_STATS.FREE_TWICE; 16 bits; 17 R504; reset 0 -/
  freeTwice : BitVec 16
  /-- BILLET_STATS.NOT_OWNER; 16 bits; 17 R504; reset 0 -/
  notOwner : BitVec 16
  deriving DecidableEq, Repr

/-- One MSI-X table entry (22 R608 Table 15). -/
structure MsixEntry where
  /-- ADDR_LO; 32 bits; 22 R608; reset 0 -/
  addrLo : BitVec 32
  /-- ADDR_HI; 32 bits; 22 R608; reset 0 -/
  addrHi : BitVec 32
  /-- DATA; 32 bits; 22 R608; reset 0 -/
  data : BitVec 32
  /-- MASK; 1 bit; 22 R608; reset 1 -/
  mask : Bool
  deriving DecidableEq, Repr

/-- A bench's vectors (04 R111–R113; 22 R608). -/
structure Msix where
  /-- the 32 entries, by vector; reset all masked -/
  table : Tab MsixEntry
  /-- PBA; 32 bits; 04 R112, 22 R608; reset 0 -/
  pba : BitVec 32
  /-- vectors inside their MOD_FLOOR_NS interval; 04 R112; reset 0 -/
  inFloor : BitVec 32
  /-- vectors with a firing held for the end of the interval; 04 R112; reset 0 -/
  heldMsg : BitVec 32
  deriving DecidableEq, Repr

/-- The adjustable limits (05 R134, R135; 21 R581 Table 15; 22 R595 Table 5). -/
structure Limits where
  /-- DIE_MEM_QUOTA; 64 bits; 05 R134; reset 0 (entry of a VACANT bench), set by FORM -/
  dieMem : BitVec 64
  /-- BILLET_QUOTA; 32 bits; 05 R134; reset 0, set by FORM -/
  billet : BitVec 32
  /-- RATE_CAP; 32 bits; 05 R144; reset 0, set by FORM -/
  rateCap : BitVec 32
  /-- CHANNEL_QUOTA; 16 bits; 05 R134; reset 0, set by FORM -/
  channels : BitVec 16
  /-- CORE_LIMIT; 16 bits; 05 R134; reset 0, set by FORM -/
  cores : BitVec 16
  deriving DecidableEq, Repr

/-- BENCH_CMD, BENCH_CMD_STATUS and BENCH_CMD_ARG (05 R138; 21 R580). -/
structure Mailbox where
  /-- BENCH_CMD_ARG; 64 bytes; 21 R580 Table 14; reset all 0 -/
  arg : List Byte
  /-- BENCH_CMD_STATUS.BUSY; 1 bit; 05 R138; reset 0 -/
  busy : Bool
  /-- BENCH_CMD_STATUS.RESULT; 8 bits; 05 R138 Table 7; reset 0 -/
  result : BitVec 8
  /-- BENCH_CMD_STATUS.CODE; 8 bits; 21 R580; reset 0 -/
  code : BitVec 8
  /-- BENCH_CMD_STATUS.TOKEN; 64 bits; 21 R580; reset 0 -/
  token : BitVec 64
  /-- the bench the running command names; model's own field; reset 0 -/
  bench : Nat
  /-- BENCH_VIEW_SELECT; 8 bits; 21 R580; reset 0 -/
  viewSelect : BitVec 8
  deriving DecidableEq, Repr

/-- One weighted arbiter's charges (05 R142). Charges are exact: the size of a grant times `chargeScale / weight`. -/
structure Charge where
  /-- the accumulated charge the bench keeps; none when it keeps none (05 R142, R145) -/
  kept : Option Nat
  /-- the bench was waiting at the last arbitration round -/
  waiting : Bool
  deriving DecidableEq, Repr

/-! ### Chapters 06–08: rings, descriptors, lathes, event lines, pace timers -/

/-- RING_STATUS.STATE (06 R178 Table 4). -/
inductive RingState where
  | disabled | idle | running | pausing | paused | parked | aborting
  deriving DecidableEq, Repr

/-- RING_STATUS.PARK_CAUSE (06 R179 Table 5). -/
inductive ParkCause where
  | none | fault | error | host | fetch | halt
  deriving DecidableEq, Repr

/-- RING_STATUS.KNOCK_STATE (06 R166 Table 2). -/
inductive KnockState where
  | off | acquiring | held | polling | refused
  deriving DecidableEq, Repr

/-- The status of a descriptor, bytes 0x30–0x3B (06 R174 Table 3). -/
structure Status where
  /-- CODE -/
  code : Nat
  /-- DETAIL -/
  detail : Nat
  /-- OPERAND, 255 for none -/
  operand : Nat
  /-- RESULT -/
  result : BitVec 64
  deriving DecidableEq, Repr

/-- Where the bytes of an operand lie once translated (10 Table 5; 07 R191). -/
inductive Dest where
  /-- a die of this hub: die, offset in its address space -/
  | die (d off : Nat)
  /-- a die or core of another hub: hub, die, offset -/
  | remote (hub d off : Nat)
  /-- host memory: bus address -/
  | host (addr : Nat)
  /-- a peer device: bus address -/
  | peer (addr : Nat)
  /-- a billet: key in the billet memory -/
  | billet (key : Nat)
  deriving DecidableEq, Repr

/-- One read request of a burst (08 R237): its slot, its place in the burst, the data once returned. -/
structure ReadPiece where
  /-- the lathe's read slot; none for a request not yet issued -/
  slot : Option Nat
  /-- where the bytes used begin -/
  src : Dest
  /-- 0 for the source (range A of a COMPARE), 1 for range B -/
  operand : Nat
  /-- byte offset in the burst of the first byte used -/
  off : Nat
  /-- bytes used -/
  len : Nat
  /-- bytes of the read before the first used byte (07 R213) -/
  skip : Nat
  /-- the bytes used, once they have returned -/
  data : Option (List Byte)
  deriving DecidableEq, Repr

/-- One burst that was issued and is not yet part of P (07 R212, R220). -/
structure Burst where
  /-- first byte, in canonical order -/
  start : Nat
  /-- bytes -/
  len : Nat
  /-- the lathe it was issued on -/
  lathe : Nat
  /-- reorder-buffer bytes it holds (08 R241) -/
  reorder : Nat
  /-- its read requests -/
  reads : List ReadPiece
  /-- what it writes: offset in the burst, bytes, destination -/
  dst : List (Nat × Nat × Dest)
  /-- its writes have been issued -/
  issued : Bool
  /-- write slots awaiting acknowledgement -/
  acks : List Nat
  /-- offset of the element that the burst lies in, as its index entry gave it; 0 without an index (07 R201) -/
  elem : Nat
  /-- its number in the order in which the lathe admitted bursts (08 R238) -/
  admitted : Nat
  deriving DecidableEq, Repr

/-- How far a fetched descriptor has come (06 R173, R175; 07 R221, R223). -/
inductive DescPhase where
  /-- fetched, not started -/
  | ready
  /-- waiting for its trigger (07 R223) -/
  | trigger
  /-- its trigger has fired; it may start -/
  | fired
  /-- started: bursts, engine work or a wait in progress -/
  | started
  /-- EVENT_WAIT waiting for its line (07 R209) -/
  | eventWait
  /-- faulted: the ring is, or will be, parked on it (06 R179) -/
  | faulted
  /-- an outcome is fixed; the status is written when its writes are acknowledged (06 R175) -/
  | ending
  deriving DecidableEq, Repr

/-- What keeps a burst back that only the lathe's room delays (08 R237, R239; 20 R561 Table 3). -/
structure RoomWait where
  /-- hearth time since which it waits -/
  since : BitVec 64
  /-- read slots are lacking -/
  reads : Bool
  /-- write slots are lacking -/
  writes : Bool
  /-- reorder-buffer bytes are lacking -/
  reorder : Bool
  /-- the lathe -/
  lathe : Nat
  deriving DecidableEq, Repr

/-- One fetched descriptor of a ring (06 R173; 07 R187, R220). -/
structure Desc where
  /-- its free-running count -/
  count : BitVec 32
  /-- its 64 bytes as fetched -/
  bytes : List Byte
  /-- how far it has come -/
  phase : DescPhase
  /-- started order in the bench, for FENCE (07 R208) -/
  order : Nat
  /-- progress point P (07 R220) -/
  p : Nat
  /-- canonical offset of the next burst to issue -/
  next : Nat
  /-- the total fixed at start -/
  total : Nat
  /-- bursts issued and not yet below P, in canonical order -/
  bursts : List Burst
  /-- index entries read, from the entry `indexBase` on (07 R201, R221) -/
  index : List Nat
  /-- number of the first entry of `index` -/
  indexBase : Nat
  /-- host address in the last granule written, for the flush read (04 R102) -/
  flushAddr : BitVec 64
  /-- posted writes issued whose flush read has not completed (07 Table 10; 17 R499) -/
  hostWrites : Nat
  /-- how many of `hostWrites`, the oldest, the outstanding flush read pushes; 0 with none outstanding (04 R102) -/
  covered : Nat
  /-- of a SCATTER, where the writes of `hostWrites` lie: offset in the destination and bytes, oldest first (07 R203) -/
  written : List (Nat × Nat)
  /-- edges lost to saturation while it ran (07 R226) -/
  edgesLost : Nat
  /-- pages that a PREFETCH left cached, and pages it could not translate (11 R335) -/
  pagesDone : Nat
  pagesFailed : Nat
  /-- the outcome, when it is fixed -/
  status : Option Status
  /-- the lathe that ran it, for the LATHE byte -/
  lathe : Nat
  /-- hearth time from which it waits at a burst boundary for its pacing condition (08 R235) -/
  paceWait : Option (BitVec 64)
  /-- hearth time since which its next burst is kept back by reorder space or slots alone (08 R239) -/
  roomWait : Option RoomWait
  /-- CODE, DETAIL and RESULT that take the place of DONE: a frame that was not GOOD fired it or released a burst of it (19 R543, R545) -/
  sealNote : Option (Nat × Nat × BitVec 64)
  deriving DecidableEq, Repr

/-- One ring (06; 22 R605 Table 14). -/
structure Ring where
  /-- RING_BASE; 64 bits; 06 R156, 22 R605; reset 0 -/
  base : BitVec 64
  /-- RING_SIZE.LOG2; 5 bits; 06 R156, 22 R605; reset 0 -/
  log2 : BitVec 5
  /-- RING_PASID; 20 bits; 06 R157, 22 R605; reset 0 -/
  pasid : BitVec 20
  /-- RING_KNOCK_ADDR; 64 bits; 06 R165, 22 R605; reset 0 -/
  knockAddr : BitVec 64
  /-- RING_CTRL.PAUSE; 1 bit; 06 R181, 22 R605; reset 0 -/
  pause : Bool
  /-- RING_CTRL.KNOCK_EN; 1 bit; 06 R165, 22 R605; reset 0 -/
  knockEn : Bool
  /-- RING_CTRL.COHERENT_FETCH; 1 bit; 06 R173, 22 R605; reset 0 -/
  coherent : Bool
  /-- RING_CTRL.PASID_EN; 1 bit; 06 R157, 22 R605; reset 0 -/
  pasidEn : Bool
  /-- RING_STATUS.STATE; 3 bits; 06 R178, 22 R605; reset 0 DISABLED -/
  state : RingState
  /-- RING_STATUS.PARK_CAUSE; 3 bits; 06 R179, 22 R605; reset 0 -/
  park : ParkCause
  /-- RING_STATUS.KNOCK_STATE; 3 bits; 06 R166, 22 R605; reset 0 OFF -/
  knock : KnockState
  /-- RING_STATUS.CONFIG_ERROR; 1 bit; 06 R156, 22 R605; reset 0 -/
  configError : Bool
  /-- RING_STATUS.CLUSTER: false A, true B; 1 bit; 08 R228, 22 R605; set by FORM, reset 0 -/
  clusterB : Bool
  /-- the ring context taken at FORM; 08 R228, R229; reset 0 -/
  context : Nat
  /-- RING_HEAD; 32 bits; 06 R159, 22 R605; reset 0 -/
  head : BitVec 32
  /-- RING_TAIL_SEEN; 32 bits; 06 R161, 22 R605; reset 0 -/
  tail : BitVec 32
  /-- RING_STATS.BAD_TAIL; 32 bits; 06 R161, 22 R605; reset 0 -/
  badTail : BitVec 32
  /-- RING_STATS.OWN_LATE; 32 bits; 06 R162, 22 R605; reset 0 -/
  ownLate : BitVec 32
  /-- RING_STATS.SPURIOUS_KNOCK; 32 bits; 06 R167, 22 R605; reset 0 -/
  spurious : BitVec 32
  /-- DESC_DONE; 64 bits; 20 R562, 22 R605; reset 0 -/
  descDone : BitVec 64
  /-- BYTES_READ; 64 bits; 20 R562, 22 R605; reset 0 -/
  bytesRead : BitVec 64
  /-- BYTES_WRITTEN; 64 bits; 20 R562, 22 R605; reset 0 -/
  bytesWritten : BitVec 64
  /-- fetched descriptors not completed, oldest first; 06 R173; reset none -/
  descs : List Desc
  /-- count of the next entry to fetch; 06 R162, R173; reset 0 -/
  fetchNext : BitVec 32
  /-- fetching stopped at an entry that read OWN = 0; 06 R162; reset false -/
  ownStop : Bool
  /-- the entry to be fetched next could not be fetched: the ring parks with cause FETCH once it stands at RING_HEAD; 06 R157, R173; reset false -/
  fetchFailed : Bool
  /-- the ring is giving up its knock line after ENABLE = 0; 06 R182; reset false -/
  disabling : Bool
  /-- a flush read that ABORTING waits for has not completed; 06 R183; reset false -/
  flushing : Bool
  /-- the knock line must be taken again by RdShared, whose GO-S a snoop caused; 06 R167; reset false -/
  retake : Bool
  /-- host address of the knock line, as the translation of RING_KNOCK_ADDR gave it; 04 R115, 06 R166; reset none -/
  knockLine : Option Nat
  /-- pending edges, saturating at 255; 07 R226; reset 0 -/
  edges : Nat
  /-- TRIG and TRIG_ARG of a completed descriptor whose leftover edges wait for the next posted entry to be fetched; 07 R226; reset none -/
  edgesFrom : Option (Nat × Nat)
  /-- for edges of a sealed stream, what each pending edge's frame gives the descriptor that consumes it; 19 R545; reset none -/
  edgeMarks : List (Option (Nat × Nat × BitVec 64))
  /-- count of the descriptor last granted a burst, for turns; 07 R190; reset none -/
  lastDesc : Option (BitVec 32)
  /-- the lathe and channel held; 08 R231; reset none -/
  channel : Option (Nat × Nat)
  /-- hearth time of the take-up; 08 R234; reset 0 -/
  channelSince : BitVec 64
  deriving DecidableEq, Repr

/-- One slot of a lathe's read or write pool (08 R241 Table 2). -/
structure SlotUse where
  /-- the slot, 0–255 -/
  slot : Nat
  /-- the bench it serves -/
  bench : Nat
  /-- the ring it serves -/
  ring : Nat
  /-- the descriptor's count -/
  desc : BitVec 32
  /-- first byte of the burst -/
  burst : Nat
  /-- the die addressed, or none -/
  die : Option Nat
  /-- the other hub addressed, or none -/
  hub : Option Nat
  /-- the SPA of the first byte used, or the host address of the request, for RESULT (06 R185) -/
  spa : BitVec 64
  /-- the operand address was a DVA: Mode D (10 R306, 11 R340) -/
  modeD : Bool
  /-- operand address of the request's first byte, before translation -/
  va : Nat
  /-- bytes of the request -/
  len : Nat
  /-- what returns is discarded (07 R221; 08 R242, R243) -/
  chaff : Bool
  deriving DecidableEq, Repr

/-- One candidate of the halt replay (08 R252). -/
structure ReplayItem where
  /-- the halted channel -/
  channel : Nat
  /-- its bench -/
  bench : Nat
  /-- its ring -/
  ring : Nat
  /-- the descriptor's count -/
  desc : BitVec 32
  /-- a descriptor fetch, or else a read of the next burst -/
  fetch : Bool
  /-- where it reads: the place of the first byte, its bytes; none for the request that an error record's tag names -/
  read : Option (Dest × Nat)
  /-- the transaction tag of the request (08 R254) -/
  tag : BitVec 16
  deriving DecidableEq, Repr

/-- A lathe halt in progress (08 R251–R257). -/
structure Halt where
  /-- hearth time of the (last) bus error -/
  since : BitVec 64
  /-- the tag of the error record, when it passed its check -/
  tag : Option (BitVec 16)
  /-- every request that the isolation replays, in order; it begins with them again after a further error (R257) -/
  items : List ReplayItem
  /-- what is still to be replayed, in order -/
  replay : List ReplayItem
  /-- the first of `replay` has been issued -/
  sent : Bool
  /-- the culprit, once found -/
  culprit : Option ReplayItem
  /-- the halted channels with their holders: (channel, bench, ring) -/
  halted : List (Nat × Nat × Nat)
  deriving DecidableEq, Repr

/-- A burst for which a lathe keeps the space and slots that free: whose it is and what it needs (08 R239). -/
structure Reserve where
  /-- its bench -/
  bench : Nat
  /-- its ring -/
  ring : Nat
  /-- reorder-buffer bytes -/
  reorder : Nat
  /-- read slots -/
  reads : Nat
  /-- write slots -/
  writes : Nat
  deriving DecidableEq, Repr

/-- One lathe (07, 08; 21 R585 SELFTEST_STATUS.LATHE_FENCED). -/
structure Lathe where
  /-- fenced until the next hub restart, SELFTEST_STATUS.LATHE_FENCED; 1 bit; 08 R255, 18 R529; reset 0 -/
  fenced : Bool
  /-- the halt in progress; 08 R251; reset none -/
  halt : Option Halt
  /-- hearth times of its unattributed halts, newest first; 08 R255; reset none -/
  unattributed : List (BitVec 64)
  /-- outstanding read slots, at most 256; 08 R241; reset none -/
  reads : List SlotUse
  /-- outstanding write slots, at most 256; 08 R241; reset none -/
  writes : List SlotUse
  /-- reorder-buffer bytes in use, at most 128 KiB; 08 R241; reset 0 -/
  reorder : Nat
  /-- the burst for which freed space and slots are kept; 08 R239; reset none -/
  reserved : Option Reserve
  /-- bursts admitted so far; 08 R238; reset 0 -/
  admitted : Nat
  /-- holders of channels 0–30 by channel: bench and ring; 08 R230; reset all free -/
  channels : Tab (Option (Nat × Nat))
  /-- the channel last served within each bench, for turns; 08 R238; reset none -/
  lastChannel : Tab Nat
  /-- channels of swept benches whose last issued write is not acknowledged: channel, bench, ring; 08 R243; reset none -/
  draining : List (Nat × Nat × Nat)
  /-- busy with its self-test, taking no ring; 18 R527; reset false -/
  testing : Bool
  deriving DecidableEq, Repr

/-- One of the 256 event lines (07 R210; 08 R244). -/
structure EventLine where
  /-- the bench that holds it; 08 R244; reset none -/
  holder : Option Nat
  /-- its level; 07 R210; reset clear -/
  level : Bool
  deriving DecidableEq, Repr

/-- One pace timer, keyed cluster × 64 + timer (08 R247, R248). -/
structure PaceTimer where
  /-- the bench that holds it; 08 R247; reset none -/
  holder : Option Nat
  /-- the slot of that bench that holds it; 08 R247; reset 0 -/
  slot : Nat
  /-- it is armed; 08 R248; reset false -/
  armed : Bool
  /-- expiries since it was armed; 08 R248; reset 0 -/
  expiries : Nat
  /-- hearth time at which it was armed; 08 R248; reset 0 -/
  armedAt : BitVec 64
  deriving DecidableEq, Repr

/-- PACE_SLOT[k] (22 R600 Table 10). -/
structure PaceSlot where
  /-- PACE_SLOT.TIMER; 6 bits; 22 R600; reset 0 -/
  timer : BitVec 6
  /-- PACE_SLOT.CLUSTER; 1 bit; 22 R600; reset 0 -/
  clusterB : Bool
  /-- PACE_SLOT.CLAIM; 1 bit; 22 R600; reset 0 -/
  claim : Bool
  /-- PACE_SLOT.PERIOD; 32 bits; 08 R248, 22 R600; reset 0 -/
  period : BitVec 32
  /-- PACE_SLOT.ARM; 1 bit; 08 R248, 22 R600; reset 0 -/
  arm : Bool
  deriving DecidableEq, Repr

/-! ### Chapters 10–11: the Headstock, faults, regions, migration -/

/-- One translation-cache entry (10 R280, R286, R291, R292). Most recently used first in the list that holds it. -/
structure CacheEntry where
  /-- the way it stands in, 0–15 (18 R528) -/
  way : Nat
  /-- tag BENCH -/
  bench : Nat
  /-- tag SPACE: Mode D -/
  modeD : Bool
  /-- tag PASID; 0 in Mode D -/
  pasid : Nat
  /-- log2 of the page size: 12, 16, 21 or 30 -/
  size : Nat
  /-- virtual page number at that size -/
  vpn : Nat
  /-- Target 0–3; 1 for Mode S host addresses -/
  target : Nat
  /-- frame: first byte of the page in the target's space -/
  frame : Nat
  /-- W -/
  w : Bool
  /-- PIN -/
  pin : Bool
  /-- CNT -/
  cnt : Bool
  /-- PEER -/
  peer : Bool
  deriving DecidableEq, Repr

/-- Who waits on a Headstock request (10 R285 Table 2). -/
inductive Waiter where
  /-- a lathe operand: ring, descriptor count, operand, address, write -/
  | lathe (ring : Nat) (desc : BitVec 32) (operand addr : Nat) (write : Bool)
  /-- a BAR2 read -/
  | bar2Read (port fn offset length hid : Nat)
  /-- a BAR2 write -/
  | bar2Write (port fn offset : Nat) (data : List (Byte × Bool))
  /-- a BAR4 write at the head of the peer write buffer -/
  | bar4
  /-- a breadcrumb lookup -/
  | prefetch
  /-- the page that a PREFETCH descriptor translates: ring, descriptor count -/
  | prefetchDesc (ring : Nat) (desc : BitVec 32)
  /-- a PIN_LOAD or a reload of an invalidated pin, with log2 of its page size -/
  | pinLoad (size : Nat)
  /-- the retry of a posted Mode D fault, by fault index -/
  | retry (fault : Nat)
  /-- the ring's knock line (04 R115) -/
  | ringAddr (ring : Nat)
  /-- an entry of the ring, or its tail word, to be read; or an entry whose status is to be written (04 R107; 06 R157) -/
  | ringEntry (ring : Nat) (write : Bool)
  deriving DecidableEq, Repr

/-- How far a Headstock request has come (10 R283). -/
inductive MissStage where
  /-- in the request queue, without a miss slot -/
  | queued
  /-- holds a miss slot; a Mode D miss waits for a walker -/
  | slotted
  /-- a walker walks it -/
  | walking
  /-- an ATS Translation Request waits at this port or is outstanding there -/
  | ats (port : Nat)
  deriving DecidableEq, Repr

/-- One distinct page that missed, with every request waiting on it (10 R279, R283). -/
structure Miss where
  /-- its number, which its Translation Request names -/
  id : Nat
  /-- the bench -/
  bench : Nat
  /-- Mode D -/
  modeD : Bool
  /-- the PASID of a Mode S miss; none when the request carries no PASID -/
  pasid : Option Nat
  /-- the 4 KiB page number -/
  page : Nat
  /-- a write waits on it -/
  write : Bool
  /-- how far it has come -/
  stage : MissStage
  /-- an invalidation covered it after it was issued: the result is not installed (10 R288, R307) -/
  stale : Bool
  /-- the requests that wait -/
  waiters : List Waiter
  deriving DecidableEq, Repr

/-- One breadcrumb tracker (10 R311, R312). -/
structure Tracker where
  /-- the bench -/
  bench : Nat
  /-- STREAM, 1–255 -/
  stream : Nat
  /-- bytes 0x06–0x2F of the COPY it was seeded from or last matched: selectors, PASID, geometry, bases -/
  shape : List Byte
  /-- source base of the tile now run -/
  src : Nat
  /-- destination base of the tile now run -/
  dst : Nat
  /-- hearth time of its last use -/
  used : BitVec 64
  deriving DecidableEq, Repr

/-- Fault STATE (11 R321 Table 2). -/
inductive FaultState where
  | free | waitingShare | posted | priSent | retrying
  deriving DecidableEq, Repr

/-- One fault record (11 R321 Table 2). -/
structure FaultRec where
  /-- ADDRESS: the operand address of the faulting burst's first byte -/
  address : BitVec 64
  /-- DESC -/
  desc : BitVec 32
  /-- BENCH -/
  bench : Nat
  /-- RING -/
  ring : Nat
  /-- FLAGS.OPERAND -/
  operand : Nat
  /-- FLAGS.WRITE -/
  write : Bool
  /-- FLAGS.MODE: Mode D -/
  modeD : Bool
  /-- PASID -/
  pasid : Nat
  /-- KIND -/
  kind : Nat
  /-- STATE -/
  state : FaultState
  /-- RETRIES -/
  retries : BitVec 16
  /-- TIME -/
  time : BitVec 64
  /-- Successes received that left the access without permission (11 R323) -/
  successes : Nat
  /-- the operand address that could not be translated: what is walked and asked for again (11 R316, R323, R325) -/
  va : BitVec 64
  deriving DecidableEq, Repr

/-- One page request group outstanding on a function (04 R109, R110). -/
structure PageRequest where
  /-- port of the function -/
  port : Nat
  /-- the function -/
  fn : Nat
  /-- the page request group index -/
  group : Nat
  /-- the fault it serves; none once abandoned -/
  fault : Option Nat
  deriving DecidableEq, Repr

/-- One region record (11 R331 Table 3). -/
structure Region where
  /-- COUNT; 32 bits; 11 R331; reset 0 -/
  count : Nat
  /-- ADVICE [0] READ_MOSTLY -/
  readMostly : Bool
  /-- ADVICE [1] PREFERRED_LOCATION -/
  preferred : Bool
  /-- ADVICE [2] ACCESSED_BY -/
  accessedBy : Bool
  /-- ADVICE [3] HOT_ARMED -/
  armed : Bool
  /-- ADVICE [4] MIG_WANTED -/
  wanted : Bool
  /-- LOCATION -/
  location : Nat
  /-- DIES -/
  dies : Nat
  deriving DecidableEq, Repr

/-- One table page of 512 entries (10 R290). -/
structure TablePage where
  /-- the page, which the Frame of the entry above it names -/
  id : Nat
  /-- the level its entries stand at, 1–4 -/
  level : Nat
  /-- the entries that are not zero, by index 0–511 -/
  entries : Tab (BitVec 64)
  deriving DecidableEq, Repr

/-- The Mode D table of a bench (10 R290–R292): its pages of ledger memory, at addresses of the hub's choosing that no software can see (log entry 81). -/
structure ModeD where
  /-- the page of the root; none where the bench has no table; 10 R290; reset none -/
  root : Option Nat
  /-- the pages, those of removed subtrees included until they return to the pool; 10 R290; reset none -/
  pages : List TablePage
  /-- pages of removed subtrees that await the next TOKEN; 10 R304; reset none -/
  limbo : List Nat
  deriving DecidableEq, Repr

/-- A walk-cache entry (10 R279, R284): a non-leaf entry of level 4, 3 or 2 as it was read. -/
structure WalkEntry where
  /-- the bench or guest -/
  bench : Nat
  /-- its level -/
  level : Nat
  /-- the DVA bits that select it and the entries above it -/
  index : Nat
  /-- the entry -/
  entry : BitVec 64
  deriving DecidableEq, Repr

/-- A bench's invalidation ring (10 R302–R306; 21 R581 Table 15). -/
structure InvRing where
  /-- INV_BASE; 64 bits; 21 R581; reset 0 -/
  base : BitVec 64
  /-- INV_CTRL.ENABLE; 1 bit; 21 R581; reset 0 -/
  enable : Bool
  /-- INV_CTRL.LOG2; 4 bits; 21 R581; reset 0 -/
  log2 : BitVec 4
  /-- the tail count accepted from INV_DOORBELL; 32 bits; 10 R303; reset 0 -/
  tail : BitVec 32
  /-- INV_HEAD; 32 bits; 21 R581; reset 0 -/
  head : BitVec 32
  /-- INV_STATUS.CODE; 4 bits; 10 R305; reset 0 -/
  code : BitVec 4
  /-- INV_STATUS.STOPPED; 1 bit; 10 R305; reset 0 -/
  stopped : Bool
  /-- INV_STATUS.TOKEN_DONE; 1 bit; 10 R306; reset 0 -/
  tokenDone : Bool
  /-- INV_STATUS.PIN_FULL; 1 bit; 10 R299; reset 0 -/
  pinFull : Bool
  /-- INV_STATUS.INDEX; 16 bits; 10 R305; reset 0 -/
  index : BitVec 16
  /-- INV_STATUS.PIN_FULL_DVA; 64 bits; 10 R299; reset 0 -/
  pinFullDva : BitVec 64
  /-- a pin failed since the previous TOKEN; 10 R306; reset false -/
  pinFailed : Bool
  /-- the TOKEN that waits: DONE_ADDR and value; 10 R306; reset none -/
  token : Option (BitVec 64 × BitVec 31)
  /-- requests issued under removed translations; 10 R306; reset none -/
  barrier : List InFlight
  /-- forwarded entries not yet acknowledged: holder and ring count; 10 R308; reset none -/
  unacked : List (Nat × BitVec 32)
  deriving DecidableEq, Repr

/-- The XLT block's registers and the Headstock's shared state (10, 11; 21 R583 Table 16). -/
structure Headstock where
  /-- the translation cache, most recently used first; 65,536 entries, 4,096 sets of 16 ways; 10 R279; reset empty -/
  cache : List CacheEntry
  /-- the walk cache, most recently used first; 2,048 entries, 256 sets of 8 ways; 10 R279; reset empty -/
  walkCache : List WalkEntry
  /-- the pin lists of the benches, in ledger memory: every pinned entry installed; 10 R279, R298; reset empty -/
  pins : List CacheEntry
  /-- requests and miss slots, oldest first; 10 R283; reset none -/
  misses : List Miss
  /-- number of the next of them (model's own field); reset 0 -/
  nextMiss : Nat
  /-- breadcrumb trackers, at most 256; 10 R311; reset none -/
  trackers : List Tracker
  /-- the retired ways of the translation cache, SELFTEST_STATUS.HS_WAYS_RETIRED their number; 16 × 1 bit; 18 R529, R531, 21 R585; reset none -/
  retired : List Nat
  /-- the fault queue by index; 4,096 or 2,048 entries; 05 R147, 11 R321; reset all FREE -/
  faults : Tab (Option FaultRec)
  /-- faults in WAITING_SHARE, in the order found; 11 R321; reset none -/
  waiting : List FaultRec
  /-- outstanding page requests; 04 R109; reset none -/
  pageReqs : List PageRequest
  /-- the count queue: bench and region; 4,096 updates; 11 R334; reset empty -/
  counts : List (Nat × Nat)
  /-- FAULT_READ_SEL; 12 bits; 21 R583; reset 0 -/
  faultSel : BitVec 12
  /-- FAULT_FIND.BENCH; 8 bits; 21 R583; reset 0 -/
  findBench : BitVec 8
  /-- FAULT_FIND.START; 12 bits; 21 R583; reset 0 -/
  findStart : BitVec 12
  /-- FAULT_FIND.FOUND; 1 bit; 21 R583; reset 0 -/
  findFound : Bool
  /-- REGION_QUERY_SEL.REGION; 32 bits (DVA [47:16]); 21 R583; reset 0 -/
  queryRegion : BitVec 32
  /-- REGION_QUERY_SEL.BENCH; 8 bits; 21 R583; reset 0 -/
  queryBench : BitVec 8
  /-- REGION_QUERY_SEL.FOUND; 1 bit; 21 R583; reset 0 -/
  queryFound : Bool
  /-- XLATE_PIN_FULL_COUNT; 32 bits; 10 R299, 21 R583; reset 0 -/
  pinFullCount : BitVec 32
  /-- BREADCRUMB_NO_TRACKER; 32 bits; 10 R311, 21 R583; reset 0 -/
  noTracker : BitVec 32
  /-- BREADCRUMB_RESEED; 32 bits; 10 R311, 21 R583; reset 0 -/
  reseed : BitVec 32
  /-- table pages in use, of the part of ledger memory reserved for tables; 10 R290; reset 0 -/
  tablePages : Nat
  /-- the hearth second that the last decay pass started for; 11 R333, 18 R523; reset 0 -/
  decaySecond : Nat
  /-- hearth time at which the last decay pass started; 18 R523; reset none -/
  decayStart : Option (BitVec 64)
  /-- the decay pass takes a floor-mode share; 18 R523; reset false -/
  decayFloor : Bool
  deriving DecidableEq, Repr

/-- Steps of the migration of one leaf (11 R340). -/
inductive MigStage where
  | idle | copying | draining
  deriving DecidableEq, Repr

/-- The MIG block (11 R336, R339, R340; 21 R583 Table 17). -/
structure Mig where
  /-- MIG_ARG; 40 bytes: BENCH, DIRECTION, DVA, LENGTH, DEST, DONE_ADDR; 21 R583; reset all 0 -/
  arg : List Byte
  /-- MIG_STATUS.BUSY; 1 bit; 21 R583; reset 0 -/
  busy : Bool
  /-- MIG_STATUS.RESULT; 4 bits; 11 R340 Table 5; reset 0 -/
  result : BitVec 4
  /-- MIG_STATUS.INDEX; 20 bits; 11 R340; reset 0 -/
  index : Nat
  /-- the step of the current leaf; 11 R340; reset idle -/
  stage : MigStage
  /-- DVA of the current leaf; 11 R340; reset 0 -/
  leaf : Nat
  /-- log2 of its size; 11 R340; reset 0 -/
  leafSize : Nat
  /-- its destination frame; 11 R340; reset 0 -/
  dest : Nat
  /-- read requests issued under the old entry: lathe and slot; 11 R340 step 4; reset none -/
  readers : List (Nat × Nat)
  /-- MIGQ_BASE; 64 bits; 21 R583; reset 0 -/
  qBase : BitVec 64
  /-- MIGQ_CTRL.ENABLE; 1 bit; 21 R583; reset 0 -/
  qEnable : Bool
  /-- MIGQ_CTRL.LOG2; 4 bits; 21 R583; reset 0 -/
  qLog2 : BitVec 4
  /-- MIGQ_HEAD; 32 bits; 21 R583; reset 0 -/
  qHead : BitVec 32
  /-- MIGQ_TAIL; 32 bits; 21 R583; reset 0 -/
  qTail : BitVec 32
  /-- PHASE the next migration request carries; 11 R336; reset 0 -/
  qPhase : Bool
  /-- MIGQ_LOST; 32 bits; 21 R583; reset 0 -/
  qLost : BitVec 32
  deriving DecidableEq, Repr

/-! ### Chapters 12–14: attachment, the peer window, spindle ports, placements -/

/-- ATTACH registers and the lock-out (12 R350–R352; 22 R598 Table 8). -/
structure Attach where
  /-- ATTACH_TOKEN, kept internally, reads zero; 64 bits; 22 R598; reset 0 -/
  token : BitVec 64
  /-- low dword last applied to ATTACH_CMD; 32 bits; 21 R571; reset 0 -/
  cmdLow : BitVec 32
  /-- ATTACH_STATUS.RESULT; 4 bits; 12 R351; reset 0 -/
  result : BitVec 4
  /-- ATTACH_STATUS.BUSY; 1 bit; 22 R598; reset 0 (each ATTACH_CMD ends within its step, log entry 21) -/
  busy : Bool
  /-- BAD_TOKEN refusals within the current epoch; 12 R352; reset 0 -/
  badTokens : Nat
  /-- hearth time of the latest BAD_TOKEN refusal; 12 R352; reset none -/
  lastBad : Option (BitVec 64)
  deriving DecidableEq, Repr

/-- The peer context (12 R360–R362; 21 R581 Table 15). -/
structure Peer where
  /-- PEER_CTRL.ENABLE; 1 bit; 12 R360; reset 0 -/
  enable : Bool
  /-- PEER_DVA_BASE; 64 bits; 12 R360; reset 0 -/
  base : BitVec 64
  /-- PEER_RID0–3; 17 bits each; 12 R360; reset 0 -/
  rids : List (BitVec 17)
  /-- buffered BAR4 writes of the bench, oldest first: offset, bytes and Relaxed Ordering attribute; 12 R363, 09 R274; reset none -/
  buffered : List (Nat × List (Byte × Bool) × Bool)
  /-- a PEER_DROPPED notice of CAUSE 1 was made less than 100 µs ago; 12 R362; reset false -/
  interval1 : Bool
  /-- the same for CAUSE 2; 12 R362; reset false -/
  interval2 : Bool
  /-- offset of the first CAUSE 1 write discarded since the previous notice, and the bytes; 12 R362; reset none -/
  dropped1 : Option (Nat × Nat)
  /-- the same for CAUSE 2; 12 R362; reset none -/
  dropped2 : Option (Nat × Nat)
  deriving DecidableEq, Repr

/-- SP_STATUS.STATE (13 R382 Table 4). -/
inductive SpState where
  | off | powering | training | zeroing | up | recovery | backoff | absent
  deriving DecidableEq, Repr

/-- Steps of one spindle-port attempt (13 R383). -/
inductive SpStep where
  | none | power | lanes | parameters | credits | zero
  deriving DecidableEq, Repr

/-- A core request that was forwarded and awaits its answer (13 R370, R377). -/
structure XltReq where
  /-- the die that issued it -/
  die : Nat
  /-- its identifier at that die -/
  id : Nat
  /-- the bench -/
  bench : Nat
  /-- data blocks it carries -/
  blocks : Nat
  /-- a write -/
  write : Bool
  /-- the die it was forwarded to; 8 + h for hub h over Envan -/
  target : Nat
  /-- the bench was cut: a read's data is discarded (13 R378) -/
  chaff : Bool
  deriving DecidableEq, Repr

/-- A host BAR2 read forwarded to a die (04 R99; 09 R276). -/
structure Bar2Req where
  /-- identifier on the spindle port -/
  id : Nat
  /-- the die addressed -/
  die : Nat
  /-- the host's request -/
  hid : Nat
  /-- its port -/
  port : Nat
  /-- its function -/
  fn : Nat
  /-- bytes asked for -/
  length : Nat
  /-- the SPA read -/
  spa : BitVec 64
  deriving DecidableEq, Repr

/-- A host or peer write that its die has not acknowledged (09 R274). -/
structure Bar2Put where
  /-- its number among such writes -/
  id : Nat
  /-- the die addressed -/
  die : Nat
  /-- the port of the function that it came through -/
  port : Nat
  /-- the function -/
  fn : Nat
  /-- it came through BAR4, else through BAR2 -/
  peer : Bool
  deriving DecidableEq, Repr

/-- An access of a host to a function, which is applied in its turn (09 R274–R276). -/
inductive Bar2Item where
  /-- a BAR2 read -/
  | read (offset length hid : Nat)
  /-- a BAR2 write, with its Relaxed Ordering attribute -/
  | write (offset : Nat) (data : List (Byte × Bool)) (relaxed : Bool)
  /-- a doorbell -/
  | doorbell (bench ring : Nat) (tail : BitVec 32)
  deriving DecidableEq, Repr

/-- An access that waits for its turn. -/
structure Bar2Wait where
  /-- its port -/
  port : Nat
  /-- its function -/
  fn : Nat
  /-- the access -/
  item : Bar2Item
  /-- its translation has been asked for -/
  walking : Bool
  deriving DecidableEq, Repr

/-- A request of another hub that was forwarded to a die of this hub and awaits its answer (16 R456 DATA class). -/
structure RemoteReq where
  /-- the hub that sent it -/
  sender : Nat
  /-- its number there -/
  id : Nat
  /-- its number at the die -/
  key : Nat
  /-- the die -/
  die : Nat
  /-- HUB_ID of the home of its bench -/
  home : Nat
  /-- the bench at its home -/
  bench : Nat
  /-- offset in the die's address space -/
  offset : Nat
  /-- bytes -/
  length : Nat
  deriving DecidableEq, Repr

/-- What the answer to a request of a spindle port names (13 R375). -/
inductive PortKey where
  /-- a lathe's slot -/
  | lathe (lathe slot : Nat) (write : Bool)
  /-- a read of the hub, or a forwarded core request, by its number -/
  | hub (id : Nat)
  /-- a write of the hub, by its number -/
  | put (id : Nat)
  /-- the SCRUB request -/
  | scrub
  /-- the DAP's read (20 R552) -/
  | dap
  deriving DecidableEq, Repr

/-- A request that waits for MEM and SCR credits of a spindle port (13 R376). -/
structure PortReq where
  /-- the bench, 256 + slot for a guest; none for a request made for no bench -/
  bench : Option Nat
  /-- a forwarded core request, which may take reserved credits -/
  core : Bool
  /-- the request -/
  msg : DieMsg
  deriving DecidableEq, Repr

/-- The credits that a request sent and not yet answered holds (13 R375). -/
structure PortUse where
  /-- what its answer names -/
  key : PortKey
  /-- 256-byte blocks of data -/
  blocks : Nat
  /-- they are of the reserved ones -/
  reserved : Bool
  /-- hearth time at which it was sent (13 R388) -/
  since : BitVec 64
  /-- the bench, or the guest from 256 on, that it was made for -/
  bench : Option Nat
  deriving DecidableEq, Repr

/-- One spindle port with its die (13; 21 R586 Table 20). -/
structure Spindle where
  /-- SP_STATUS.STATE; 4 bits; 13 R382, 21 R586; reset 0 OFF (8 NOT_FITTED where absent) -/
  state : SpState
  /-- the step of the attempt in progress; 13 R383; reset none -/
  step : SpStep
  /-- SP_STATUS.CAUSE; 4 bits; 13 R383 Table 5; reset 0 -/
  cause : BitVec 4
  /-- SP_STATUS.WIDTH; 1 bit; 13 R368; reset 0 -/
  half : Bool
  /-- SP_STATUS.ATTEMPTS; 8 bits; 13 R384; reset 0 -/
  attempts : BitVec 8
  /-- failed attempts since the port was last UP, absent or lost, for the backoff; 13 R384; reset 0 -/
  fails : Nat
  /-- SP_STATUS.CRC_COUNT; 32 bits; 13 R379; reset 0 -/
  crc : BitVec 32
  /-- SP_STATUS.RECOVERY_COUNT; 32 bits; 13 R386; reset 0 -/
  recoveries : BitVec 32
  /-- SP_STATUS.RECAL_FORCED; 32 bits; 18 R522; reset 0 -/
  recalForced : BitVec 32
  /-- SP_STATUS.WRITE_ERR_COUNT; 32 bits; 13 R380; reset 0 -/
  writeErr : BitVec 32
  /-- SP_STATUS.EVENT_REJECT_COUNT; 32 bits; 13 R371; reset 0 -/
  eventReject : BitVec 32
  /-- DIE_PWR_EN[d]; 13 R390; reset deasserted -/
  pwrEn : Bool
  /-- hearth time at which DIE_PWR_EN was last asserted; 13 R382, R383; reset 0 -/
  onSince : BitVec 64
  /-- hearth time at which the step in progress began; 13 R383; reset 0 -/
  stepAt : BitVec 64
  /-- hearth time at which DIE_PWR_EN was last deasserted; 13 R384, R389; reset 0 -/
  offSince : BitVec 64
  /-- DIE_PWRGOOD[d] as last seen; 13 R390; reset deasserted (DESIGN CHOICE, log entry 10) -/
  pwrGood : Bool
  /-- successive CRC failures of one flit; 13 R379; reset 0 -/
  crcRun : Nat
  /-- hearth time of the latest failed retraining in place; 13 R386; reset none -/
  failedRecovery : Option (BitVec 64)
  /-- the die's core defect map, the defective cores; 13 R383; reset none known -/
  defects : List Nat
  /-- the die was lost and waits its 100 ms off; 13 R389; reset false -/
  lost : Bool
  /-- DIE_SCRUB_STATUS.PASS_START; 64 bits; 18 R519; reset 0 -/
  scrubStart : BitVec 64
  /-- DIE_SCRUB_STATUS.POSITION; 64 bits; 18 R519; reset 0 -/
  scrubPos : BitVec 64
  /-- a SCRUB request is outstanding; 18 R519; reset false -/
  scrubbing : Bool
  /-- hearth time of the last SCRUB request; 18 R519; reset 0 -/
  scrubAt : BitVec 64
  /-- hearth time and TJ_MAX of the last recalibration, by lane; 18 R521; reset 0 -/
  recal : Tab (BitVec 64 × BitVec 16)
  /-- core requests from this die in progress; 13 R377; reset none -/
  xlt : List XltReq
  /-- messages that ask for no MEM or SCR credit, waiting for RECOVERY to end; 13 R386; reset none -/
  heldMsgs : List DieMsg
  /-- requests waiting for MEM and SCR credits, in the order of arrival; 13 R376; reset none -/
  queue : List PortReq
  /-- requests sent and not answered, with the credits they hold; 13 R375; reset none -/
  sent : List PortUse
  /-- grants to benches since a request made for no bench was served; 13 R376; reset 0 -/
  turns : Nat
  /-- start-up BIST failed, or the LINKS section disables the port: it reads NOT_FITTED; 13 Table 4, 18 R531; reset false -/
  unfit : Bool
  deriving DecidableEq, Repr

/-- PLACE_STATUS.STATE without FREE (14 R408 Table 8). -/
inductive PlaceState where
  | loading | running | held | releasing
  deriving DecidableEq, Repr

/-- One physical core of a placement (14 R404). -/
structure PlacedCore where
  /-- HUB_ID of its hub -/
  hub : Nat
  /-- its die on that hub -/
  die : Nat
  /-- its number in the die -/
  core : Nat
  /-- virtual row -/
  row : Nat
  /-- virtual column -/
  col : Nat
  deriving DecidableEq, Repr

/-- One placement, of a bench of this hub or of a guest (14 R400–R419; 22 R601). -/
structure Placement where
  /-- HUB_ID of the home hub -/
  home : Nat
  /-- the bench at its home -/
  bench : Nat
  /-- the placement number, 1–255 -/
  number : Nat
  /-- PLACE_STATUS.STATE; 3 bits; 14 R408, 22 R601; reset FREE: no such placement -/
  state : PlaceState
  /-- ROWS of the virtual grid -/
  rows : Nat
  /-- COLS of the virtual grid -/
  cols : Nat
  /-- its cores; PLACE_STATUS.CORES is their number, SLEDS the number of their hubs -/
  cores : List PlacedCore
  /-- PLACE_STATUS.HOLDS; 32 bits, saturating; 14 R408; reset 0 -/
  holds : Nat
  /-- cores with an outstanding LATE: hub, die, core; 14 R413, R415; reset none -/
  lates : List (Nat × Nat × Nat)
  /-- it is frozen on this hub; 14 R412; reset false -/
  frozen : Bool
  /-- hearth time at which the schedule hold began; 14 R417; reset none -/
  holdStart : Option (BitVec 64)
  /-- HOLD_LONG was sent for this hold; 14 R417; reset false -/
  holdLong : Bool
  /-- the pending RELEASE(T); 14 R415; reset none -/
  release : Option (BitVec 64)
  /-- it has started (step 8 applied); 14 R400; reset false -/
  started : Bool
  deriving DecidableEq, Repr

/-- Steps of a LAUNCH (14 R400 Table 6). -/
inductive LaunchStage where
  /-- step 1 -/
  | staging
  /-- steps 2–4 passed; waits its turn for step 5 -/
  | ready
  /-- step 5 -/
  | placing
  /-- steps 6–7 -/
  | loading
  /-- step 8: the start time is stamped -/
  | stamped (time : BitVec 64)
  deriving DecidableEq, Repr

/-- One LAUNCH under way (14 R400, R402). -/
structure Launch where
  /-- the bench -/
  bench : Nat
  /-- the ring -/
  ring : Nat
  /-- the descriptor's count -/
  desc : BitVec 32
  /-- the step -/
  stage : LaunchStage
  /-- the staged blank -/
  blank : List Byte
  /-- the staged parameter block -/
  params : List Byte
  /-- the placement number taken -/
  number : Nat
  /-- budget of step 5, ms -/
  budget : Nat
  /-- hearth time at which step 5 began -/
  placeStart : BitVec 64
  /-- duration of step 5 in µs, for RESULT -/
  placeTime : Nat
  /-- the bands of the split: hub, first row, rows (R405) -/
  bands : List (Nat × Nat × Nat)
  /-- the cores of this hub that were free when step 5 began, die × 256 + core (R406) -/
  free : List Nat
  /-- numbers of the hub's writes of step 7 that no die has acknowledged -/
  loads : List Nat
  deriving DecidableEq, Repr

/-! ### Chapter 15: the Burl -/

/-- How far a Burl job has come (15 R429 Table 5). -/
inductive JobPhase where
  /-- step 3: waits for store space -/
  | admission
  /-- step 4 -/
  | load
  /-- step 5, resident or waiting for a slice -/
  | ready
  /-- step 5, running on its engine -/
  | running
  /-- being checkpointed at the end of a slice (R443) -/
  | saving
  /-- a strip that waits at the sweep barrier (R448) -/
  | barrier
  /-- step 6: waits for strips' states -/
  | gathering
  /-- step 6: result and trace writes issued -/
  | writing
  deriving DecidableEq, Repr

/-- What a strip reports at a sweep boundary (15 R448). -/
structure StripReport where
  /-- the strip -/
  strip : Nat
  /-- anneal sweeps it has completed -/
  sweep : Nat
  /-- its first row -/
  first : List Bool
  /-- its last row -/
  last : List Bool
  /-- its energy without interface terms -/
  energy : Int
  deriving DecidableEq, Repr

/-- A strip's states at the end (15 R449). -/
structure StripState where
  /-- the strip -/
  strip : Nat
  /-- its part of the best state -/
  best : List Bool
  /-- its part of the final state -/
  final : List Bool
  deriving DecidableEq, Repr

/-- A job or strip of the Burl, with what a checkpoint holds (15 R443). -/
structure Job where
  /-- HUB_ID of the home hub -/
  home : Nat
  /-- the bench at its home -/
  bench : Nat
  /-- the ring of the ANNEAL at its home -/
  ring : Nat
  /-- the count of the ANNEAL, at its home -/
  desc : BitVec 32
  /-- the strip this hub runs; none for a whole job, or for a multi-hub job as its home hub keeps it -/
  strip : Option Nat
  /-- what the job states -/
  spec : JobSpec
  /-- the step -/
  phase : JobPhase
  /-- bytes of tenant store reserved -/
  store : Nat
  /-- the coefficients in the layout of Table 2; a lattice job has the records of the row above its first in front, zeros where there is none -/
  coef : List Int
  /-- the spin set's state -/
  spins : List Bool
  /-- best state -/
  best : List Bool
  /-- best energy -/
  bestEnergy : Int
  /-- BEST_MOVE -/
  bestMove : Nat
  /-- the move index -/
  move : Nat
  /-- anneal sweeps completed -/
  sweeps : Nat
  /-- trace samples written -/
  written : Nat
  /-- engine time used, in 1/64 ns (R450) -/
  engineTime : Nat
  /-- halo row above the strip, as the running sweep holds it fixed -/
  above : List Bool
  /-- halo row below the strip, as the running sweep holds it fixed -/
  below : List Bool
  /-- the sweep of the last halo row above that has come -/
  haloAbove : Nat
  /-- the sweep of the last halo row below that has come -/
  haloBelow : Nat
  /-- that row above, for the next sweep -/
  nextAbove : List Bool
  /-- that row below -/
  nextBelow : List Bool
  /-- a strip's states at the sweep boundaries that the home hub has not judged (R449) -/
  snaps : List (Nat × List Bool)
  /-- at the home hub: reports not yet judged -/
  reports : List StripReport
  /-- at the home hub: per strip, its best and final state once returned -/
  returned : List StripState
  /-- lost strips, LOST_MASK -/
  lost : List Nat
  /-- DETAIL of ANNEAL_STOPPED once the job ends early (R450) -/
  stop : Option Nat
  deriving DecidableEq, Repr

/-- One Burl engine (15 R420; 21 R586 Table 22). -/
structure Engine where
  /-- BURL_STATUS.STATE 4, OUT_OF_SERVICE; 18 R529; reset 0 -/
  outOfService : Bool
  /-- BURL_STATUS.STATE 3, a self-test runs; 18 R526; reset 0 -/
  testing : Bool
  /-- the engine failed its last self-test; 18 R529; reset false -/
  failedOnce : Bool
  /-- the placement that holds the dense engine: bench and ring (BURL_STATUS.STATE 2); 15 R444; reset none -/
  placing : Option (Nat × Nat)
  /-- engine time of the running slice, in 1/64 ns; 15 R442; reset 0 -/
  sliceTime : Nat
  /-- charges of the time-slicing arbiter by bench; 15 R442; reset none -/
  charges : Tab Charge
  deriving DecidableEq, Repr

/-! ### Chapter 16: cascade -/

/-- EL_STATUS.STATE without NOT_FITTED, which is a fact of the grade (21 R586 Table 20). -/
inductive ElState where
  | down | training | up | recovery | backoff | absent
  deriving DecidableEq, Repr

/-- One Envan link (16 R453–R455; 21 R586 Table 20). -/
structure Envan where
  /-- EL_STATUS.STATE; 4 bits; 16 R454, 21 R586; reset 0 DOWN (6 NOT_FITTED where absent) -/
  state : ElState
  /-- EL_STATUS.CAUSE; 4 bits; 16 R454 Table 1; reset 0 -/
  cause : BitVec 4
  /-- EL_STATUS.PARTNER_HUB; 5 bits; 21 R586; reset 0 -/
  partner : Nat
  /-- EL_STATUS.PARTNER_LINK; 3 bits; 21 R586; reset 0 -/
  partnerLink : Nat
  /-- EL_STATUS.ATTEMPTS; 8 bits; 16 R454, 21 R586; reset 0 -/
  attempts : BitVec 8
  /-- failed attempts for the backoff; 16 R454; reset 0 -/
  fails : Nat
  /-- EL_STATUS.CRC_COUNT; 32 bits; 21 R586; reset 0 -/
  crc : BitVec 32
  /-- EL_STATUS.RECAL_FORCED; 32 bits; 18 R522; reset 0 -/
  recalForced : BitVec 32
  /-- EL_STATUS.DELAY_NS; 32 bits; 16 R468; reset 0 -/
  delayNs : BitVec 32
  /-- successive CRC failures of one flit; 13 R379, 16 R455; reset 0 -/
  crcRun : Nat
  /-- hearth time of the latest failed retraining in place; 16 R455; reset none -/
  failedRecovery : Option (BitVec 64)
  /-- start-up BIST failed: never trained; 18 R531; reset false -/
  unfit : Bool
  /-- hearth time and TJ_MAX of the last recalibration, by lane; 18 R521; reset 0 -/
  recal : Tab (BitVec 64 × BitVec 16)
  deriving DecidableEq, Repr

/-- What a hub knows of another hub (16 R459). -/
structure Presence where
  /-- its instance number -/
  inst : BitVec 64
  /-- it is eligible -/
  eligible : Bool
  /-- hearth time of its last presence message -/
  heard : BitVec 64
  /-- it has been found silent since -/
  silent : Bool
  /-- the refusal condition it meets, 0 none (Table 4) -/
  refusal : BitVec 3
  deriving DecidableEq, Repr

/-- One guest slot (16 R480; 21 R586 Table 21 GUEST_TABLE). -/
structure Guest where
  /-- GUEST_TABLE.HOME; 8 bits; 21 R586; reset 0 -/
  home : Nat
  /-- GUEST_TABLE.BENCH; 8 bits; 21 R586; reset 0 -/
  bench : Nat
  /-- GUEST_TABLE.INCARN; 16 bits; 21 R586; reset 0 -/
  incarn : BitVec 16
  /-- CLASS_ID; 16 R480; reset 0 -/
  classId : Nat
  /-- RATE_CAP from the roster; 16 R480; reset 0 -/
  rateCap : BitVec 32
  /-- grants on this hub's dies (GUEST_TABLE.GRANT_BYTES is their sum); 16 R480; reset none -/
  grants : List Grant
  /-- the guest's copy of the bench's Mode D table; 10 R308; reset none -/
  modeD : ModeD
  /-- forwarded entries applied and not yet acknowledged: the home's count, and the requests issued under what they removed; 10 R308; reset none -/
  unanswered : List (BitVec 32 × List InFlight)
  deriving DecidableEq, Repr

/-- CASCADE_STATUS.STATE (16 R460 Table 3). -/
inductive CascadeState where
  | alone | seeking | chartered | master | uncharted | joining
  deriving DecidableEq, Repr

/-- CASCADE_STATUS.TIME_STATE (16 R468 Table 6). -/
inductive TimeState where
  | disciplined | slewing | resync | free
  deriving DecidableEq, Repr

/-- The cascade (16; 21 R586 Table 21). -/
structure Cascade where
  /-- CASCADE_STATUS.STATE; 3 bits; 16 R460, 21 R586; reset 0 ALONE -/
  state : CascadeState
  /-- CASCADE_STATUS.REASON; 3 bits; 16 R460, 21 R586; reset 0 -/
  reason : BitVec 3
  /-- CASCADE_STATUS.TIME_STATE; 2 bits; 16 R468, 21 R586; reset 3 FREE -/
  timeState : TimeState
  /-- CASCADE_STATUS.STALE_COUNT; 32 bits; 16 R457; reset 0 -/
  stale : BitVec 32
  /-- CASCADE_STATUS.OFFSET, signed, ns; 64 bits; 16 R468; reset 0 -/
  offset : Int
  /-- the charter followed or issued (CASCADE_STATUS.MASTER, MEMBERS, EPOCH, ROSTER_SEQ); 16 R462; reset none, the registers read 0 -/
  charter : Option Charter
  /-- highest epoch heard; 16 R459; reset 0 -/
  highest : BitVec 64
  /-- hearth time at which a valid charter was last heard, or PHASE LINKS ended; 16 R461; reset none -/
  charterHeard : Option (BitVec 64)
  /-- this start's instance number; 16 R454; reset 0 (drawn at each start, log entry 14) -/
  inst : BitVec 64
  /-- what is known of other hubs, by HUB_ID, in the order first heard; 16 R459, R464; reset none -/
  presence : List (Nat × Presence)
  /-- the forward step that the next epoch states, µs; 16 R470; reset 0 -/
  nextStep : BitVec 64
  /-- messages that wait at their credit boundary for a route, with their hubs, oldest first; 16 R477; reset none -/
  waiting : List (Nat × EnvanMsg)
  /-- hubs declared lost at the next epoch; 16 R475; reset none -/
  newLost : List Nat
  /-- members' reports since the epoch: hub, benches it is home to, guests it holds; 16 R474; reset none -/
  reports : List (Nat × List (Nat × BitVec 16) × List (Nat × Nat × BitVec 16))
  /-- benches of this hub that are registered as spanning sleds; 16 R479; reset none -/
  spanning : List Nat
  /-- the guests, by slot, at most 256; 16 R480; reset all free -/
  guests : Tab (Option Guest)
  /-- the bench command forwarded to a holder: bench, holder, command, die, offset, length; 16 R482; reset none -/
  forwarded : Option (Nat × Nat × Bool × Nat × Nat × Nat)
  /-- forwarded grants that wait here for a zero fill: home, bench, guest slot, die, offset, length; 05 R137, 16 R482; reset none -/
  grantWaits : List (Nat × Nat × Nat × Nat × Nat × Nat)
  /-- CHARTER_OFFSET; 32 bits; 21 R586; reset 0 -/
  windowOffset : BitVec 32
  /-- the snapshot (CHARTER_LENGTH is its length); 21 R586; reset empty -/
  snapshot : List Byte
  deriving DecidableEq, Repr

/-! ### Chapter 17: tallies, sweeps, billets, the error log -/

/-- Tally STATE (17 R487 Table 2). -/
inductive TallyState where
  | free | held | broken
  deriving DecidableEq, Repr

/-- A tally record (17 R487 Table 2). -/
structure Tally where
  /-- KIND -/
  kind : Nat
  /-- STATE -/
  state : TallyState
  /-- OWNER -/
  owner : BitVec 16
  /-- INCARN -/
  incarn : BitVec 16
  /-- UNIT -/
  unit : Nat
  /-- RESOURCE -/
  resource : BitVec 64
  /-- GRANTED -/
  granted : BitVec 64
  /-- EXPIRY -/
  expiry : BitVec 64
  deriving DecidableEq, Repr

/-- A service-core lock that a stopped whittler holds (17 R489–R491; 20 R557–R559). -/
structure Lock where
  /-- what it guards -/
  guards : LockStructure
  /-- OWNER -/
  owner : BitVec 16
  /-- the holding whittler -/
  whittler : Nat
  /-- EXPIRY -/
  expiry : BitVec 64
  /-- time left, µs, while its expiry stands still (20 R559) -/
  frozen : Option Nat
  /-- it was broken and its journal is to be undone by the next taker (17 R491) -/
  broken : Bool
  deriving DecidableEq, Repr

/-- One whittler (17 R490, R509; 20 R556). -/
structure Whittler where
  /-- fenced until the next hub restart; 17 R509; reset false -/
  fenced : Bool
  /-- hearth times of its resets, newest first; 17 R509; reset none -/
  resets : List (BitVec 64)
  /-- WHITTLER_DBG.HALTED; 1 bit; 20 R556, 21 R588; reset 0 -/
  halted : Bool
  /-- WHITTLER_DBG.HONOUR; 1 bit; 20 R559, 21 R588; reset 0 -/
  honour : Bool
  /-- its self-test runs; 18 R526; reset false -/
  testing : Bool
  deriving DecidableEq, Repr

/-- Steps of a sweep (17 R494 Table 3) at which it can stand between commands. -/
inductive SweepStep where
  /-- step 2, settle -/
  | settle
  /-- steps 1 or 2 have ended: the cut is next -/
  | cut
  /-- step 4, drain -/
  | drain
  /-- step 5, locks -/
  | locks
  /-- step 6, reclaim -/
  | reclaim
  deriving DecidableEq, Repr

/-- A running sweep (17 R492–R499). -/
structure Sweep where
  /-- the step it stands at -/
  step : SweepStep
  /-- its disposition is RELEASE -/
  release : Bool
  /-- COMMAND_DONE is due at its end -/
  command : Bool
  /-- writes counted at the cut as issued and not acknowledged (R499) -/
  writes : Nat
  /-- placements being released that step 6 waits for: (home, bench, number) -/
  placements : List (Nat × Nat × Nat)
  /-- a Function Level Reset asked for it or came during it (04 R119) -/
  flr : Bool
  /-- hearth time at which it began (R494) -/
  since : BitVec 64
  deriving DecidableEq, Repr

/-- One billet of the pool (07 R193, R211; 17 R503). -/
structure Billet where
  /-- GENERATION of its current or latest allocation, 0 before the first; 17 R503; reset 0 -/
  gen : Nat
  /-- it is allocated; reset false -/
  live : Bool
  /-- the bench that owns it; reset 0 -/
  owner : Nat
  /-- its size in KiB; reset 0 -/
  kib : Nat
  /-- a free of it was accepted and waits for its users: those that started before this number of the owner's started order (R208); 07 R211, 17 R505; reset none -/
  freeing : Option Nat
  deriving DecidableEq, Repr

/-- An error-log entry (17 R507 Table 7). -/
structure LogEntry where
  /-- SEQ -/
  seq : BitVec 32
  /-- CLASS -/
  cls : Nat
  /-- CODE -/
  code : Nat
  /-- FLAGS [0] FAULT -/
  fault : Bool
  /-- FLAGS [1] READ -/
  read : Bool
  /-- TIME -/
  time : BitVec 64
  /-- ARG0 -/
  arg0 : BitVec 64
  /-- ARG1 -/
  arg1 : BitVec 64
  deriving DecidableEq, Repr

/-- A cause that holds HUB_FAULT_N asserted (17 R508 Table 8). -/
inductive FaultCause where
  /-- an unread entry, by SEQ -/
  | entry (seq : BitVec 32)
  /-- a ledger channel failed training -/
  | ledger
  /-- every lathe of a cluster is fenced -/
  | lathes
  /-- the whittler minimum is breached -/
  | whittlers
  /-- an uncorrectable ledger error in a firmware structure of no bench (R510) -/
  | firmware
  /-- a pin-driving instruction (20 R553) -/
  | dbg
  deriving DecidableEq, Repr

/-- Recovery: tallies, whittlers, billets, the error log, the REC registers. -/
structure Recovery where
  /-- the tally ledger, oldest grant first; 17 R485; reset empty -/
  tallies : List Tally
  /-- locks of stopped whittlers; 17 R489; reset none -/
  locks : List Lock
  /-- the whittlers by number; 17 R509; reset none fenced -/
  whittlers : Tab Whittler
  /-- the billet pool by index; 17 R503; reset none allocated -/
  billets : Tab Billet
  /-- the error log's ring, by index 0–1,023; 17 R507; reset empty -/
  log : Tab (Option LogEntry)
  /-- the hearth mirror, by SEQ mod 64; 17 R507, 21 R584; reset empty -/
  mirror : Tab (Option LogEntry)
  /-- SEQ of the next entry (ERRLOG_INDEX.HEAD is its low 10 bits); 17 R507; reset 0 -/
  logSeq : BitVec 32
  /-- ERRLOG_INDEX.INDEX; 10 bits; 21 R584; reset 0 -/
  logIndex : BitVec 10
  /-- TALLY_QUERY_SEL.OWNER; 9 bits; 21 R584; reset 0 -/
  tallyOwner : BitVec 9
  /-- TALLY_QUERY_SEL.INDEX; 20 bits; 21 R584; reset 0 -/
  tallyIndex : BitVec 20
  /-- the causes that hold HUB_FAULT_N asserted (HUB_STATUS.HUB_FAULT); 17 R508, 21 R576; reset none -/
  faults : List FaultCause
  /-- ledger blocks with an uncorrectable error that the scrub marked, by block number; 18 R518; reset none -/
  marked : List Nat
  deriving DecidableEq, Repr

/-! ### Chapter 18: background work -/

/-- Scrub, telemetry and self-test (21 R585 Table 19). -/
structure Background where
  /-- SCRUB_STATUS.PASS_START; 64 bits; 18 R514, 21 R585; reset 0 -/
  passStart : BitVec 64
  /-- SCRUB_STATUS.POSITION; 64 bits; 18 R514, 21 R585; reset 0 -/
  position : BitVec 64
  /-- SCRUB_STATUS.FLOOR; 1 bit; 18 R515, 21 R585; reset 0 -/
  floor : Bool
  /-- SCRUB_STATUS.CE_COUNT; 32 bits; 18 R518, 21 R585; reset 0 -/
  ce : BitVec 32
  /-- SCRUB_STATUS.UE_COUNT; 32 bits; 18 R518, 21 R585; reset 0 -/
  ue : BitVec 32
  /-- a pass is under way; 18 R514; reset false -/
  scrubbing : Bool
  /-- TELEM_CTRL.ENABLE; 1 bit; 21 R585; reset 0 -/
  telemEnable : Bool
  /-- TELEM_CTRL.PERIOD_MS; 14 bits; 21 R585; reset 100 -/
  telemPeriod : BitVec 14
  /-- TELEM_CTRL.SKIPPED; 32 bits; 18 R525, 21 R585; reset 0 -/
  telemSkipped : BitVec 32
  /-- TELEM_CTRL.ADDR; 64 bits; 21 R585; reset 0 -/
  telemAddr : BitVec 64
  /-- SEQ of the next snapshot; 18 R525 Table 2; reset DESIGN CHOICE 0, log entry 10 -/
  telemSeq : BitVec 32
  /-- SELFTEST_STATUS.OVERDUE; 32 bits; 18 R530, 21 R585; reset 0 -/
  overdue : BitVec 32
  /-- the parts under test; 18 R526; reset none -/
  testing : List TestUnit
  /-- hearth time from which a part's 24 h run, where it is not the start of RUNNING: its last test, or its last count in OVERDUE; 18 R526, R530; reset none -/
  tested : List (TestUnit × BitVec 64)
  /-- hearth time at which PHASE reached RUNNING; 18 R530; reset 0 -/
  runningAt : BitVec 64
  /-- hearth time of the last snapshot made or skipped since TELEM_CTRL.ENABLE; 18 R525; reset none -/
  telemAt : Option (BitVec 64)
  deriving DecidableEq, Repr

/-! ### Chapter 19: sealed streams -/

/-- Outcome of a frame (19 R539 Table 4). -/
inductive FrameOutcome where
  | good
  | gap (missing : Nat)
  | broken (detail : Nat)
  | stale (detail : Nat)
  deriving DecidableEq, Repr

/-- A captured frame (19 R538). -/
structure Frame where
  /-- the slot written -/
  slot : Nat
  /-- the slot's bytes at capture -/
  bytes : List Byte
  /-- arrival time in ns -/
  arrival : Nat
  /-- its outcome, once its checks have ended and it is being forwarded -/
  outcome : Option FrameOutcome
  /-- numbers of its payload writes not yet acknowledged (R540) -/
  payload : List Nat
  /-- die and offset of its trailer as forwarding translated it -/
  target : Nat × Nat
  /-- number of its trailer's write, once issued -/
  trailer : Option Nat
  deriving DecidableEq, Repr

/-- One sealed stream (19 R533–R548; 22 R602 Table 12). -/
structure Stream where
  /-- SEAL_STATUS.OPEN; 1 bit; 22 R602; reset 0 -/
  isOpen : Bool
  /-- the generation of the handle; 19 R535; reset 0 before the first open -/
  gen : Nat
  /-- the bench that holds it; reset 0 -/
  bench : Nat
  /-- WINDOW; 19 R533 -/
  window : Nat
  /-- SLOT_SIZE; 19 R533 -/
  slotSize : Nat
  /-- SLOTS; 19 R533 -/
  slots : Nat
  /-- SEAL_STATUS.HUB_STAMP; 1 bit; 22 R602; reset 0 -/
  hubStamp : Bool
  /-- MAX_AGE_US; 19 R533 -/
  maxAge : Nat
  /-- SEAL_STATUS.EXPECTED, E; 32 bits; 19 R539, 22 R602; reset 0 -/
  expected : BitVec 32
  /-- the chain value C; 32 bits; 19 R539; reset 0 -/
  chain : BitVec 32
  /-- bytes in staging, those of a discarded frame gone: offset in the landing range and byte; 19 R538, R541; reset none -/
  staging : Tab Byte
  /-- captured frames in trailer arrival order; 19 R538; reset none -/
  captured : List Frame
  /-- SEAL_STATUS.GOOD; 32 bits; 22 R602; reset 0 -/
  good : BitVec 32
  /-- SEAL_STATUS.GAP; 32 bits; 22 R602; reset 0 -/
  gap : BitVec 32
  /-- SEAL_STATUS.BROKEN; 32 bits; 22 R602; reset 0 -/
  broken : BitVec 32
  /-- SEAL_STATUS.STALE; 32 bits; 22 R602; reset 0 -/
  stale : BitVec 32
  /-- SEAL_STATUS.MISSING; 32 bits; 22 R602; reset 0 -/
  missing : BitVec 32
  /-- SEAL_STATUS.UNCONSUMED; 32 bits; 22 R602; reset 0 -/
  unconsumed : BitVec 32
  /-- SEAL_STATUS.LAST_COUNTER; 32 bits; 22 R602; reset 0 -/
  lastCounter : BitVec 32
  /-- SEAL_STATUS.LAST_OUTCOME; 8 bits; 22 R602; reset 0 -/
  lastOutcome : BitVec 8
  /-- SEAL_STATUS.LAST_DETAIL; 8 bits; 22 R602; reset 0 -/
  lastDetail : BitVec 8
  /-- frames forwarded since open; 19 R547; reset 0 -/
  forwarded : Nat
  /-- the ring whose SEAL_CLOSE waits for the captured frames; 19 R547; reset none -/
  closing : Option Nat
  deriving DecidableEq, Repr

/-! ### Chapter 20: debug, counters, trace -/

/-- The debug access port and DBG block (21 R587, R588 Tables 23, 24). -/
structure Debug where
  /-- DEBUG_STATUS.LEVEL, the fuse; 2 bits; 20 R550, 21 R587; fused (DESIGN CHOICE 0, log entry 12) -/
  level : BitVec 2
  /-- DEBUG_STATUS.ATTACHED; 1 bit; 20 R549, 21 R587; reset 0 -/
  attached : Bool
  /-- DEBUG_CTRL.DAP_WRITE; 1 bit; 21 R587; reset 0 -/
  dapWrite : Bool
  /-- DEBUG_CTRL.HALT_ALLOW; 1 bit; 21 R587; reset 0 -/
  haltAllow : Bool
  /-- DEBUG_CTRL.HONOUR_ALLOW; 1 bit; 21 R587; reset 0 -/
  honourAllow : Bool
  /-- a pin-driving instruction holds the switched domains off; 20 R553; reset false -/
  pinDriving : Bool
  /-- DAP_CSR.QUIET; 1 bit; 20 R554, 21 R588; reset 1 -/
  quiet : Bool
  /-- DAP_CSR.WRITE; 1 bit; 21 R588; reset 0 -/
  write : Bool
  /-- DAP_CSR.SPACE; 2 bits; 21 R588; reset 0 -/
  space : BitVec 2
  /-- DAP_ADDR; 64 bits; 21 R588; reset 0 -/
  addr : BitVec 64
  /-- DAP_STATUS.BUSY; 1 bit; 21 R588; reset 0 -/
  busy : Bool
  /-- DAP_STATUS.REFUSED; 1 bit; 20 R550, 21 R588; reset 0 -/
  refused : Bool
  /-- DAP_STATUS.HOLE; 1 bit; 20 R552, 21 R588; reset 0 -/
  hole : Bool
  /-- DAP_STATUS.ASLEEP; 1 bit; 20 R554, 21 R588; reset 0 -/
  asleep : Bool
  /-- WHITTLER_DBG.WHITTLER; 7 bits; 21 R588; reset 0 -/
  whittler : BitVec 7
  /-- WHITTLER_DBG.REG; 8 bits; 21 R588; reset 0 -/
  reg : BitVec 8
  /-- WHITTLER_DBG_DATA; 64 bits; 21 R588; reset 0 -/
  regData : BitVec 64
  /-- values written to registers of halted whittlers that have not run since, keyed whittler × 256 + register; 20 R556; reset none -/
  written : Tab (Option (BitVec 64))
  /-- DAP_DATA, 16 dwords; 21 R588; reset all 0 -/
  data : List Byte
  /-- the staged low dword of the DAP space, with its offset; 21 R571, R588; reset none -/
  staged : Option (Nat × BitVec 32)
  deriving DecidableEq, Repr

/-- A bench's trace ring (20 R563; 22 R603 Table 13). -/
structure Trace where
  /-- TRACE_BASE; 64 bits; 22 R603; reset 0 -/
  base : BitVec 64
  /-- TRACE_SIZE.LOG2; 5 bits; 22 R603; reset 0 -/
  log2 : BitVec 5
  /-- TRACE_HEAD; 32 bits; 22 R603; reset 0 -/
  head : BitVec 32
  /-- TRACE_TAIL; 32 bits; 22 R603; reset 0 -/
  tail : BitVec 32
  /-- TRACE_CTRL.ENABLE; 1 bit; 22 R603; reset 0 -/
  enable : Bool
  /-- TRACE_CTRL.ALL; 1 bit; 22 R603; reset 0 -/
  all : Bool
  /-- TRACE_CTRL.MASK; 7 bits; 22 R603; reset 0 -/
  mask : BitVec 7
  /-- TRACE_LOST; 32 bits; 22 R603; reset 0 -/
  lost : BitVec 32
  /-- PHASE the next record carries; 20 R563; reset 0 -/
  phase : Bool
  deriving DecidableEq, Repr

/-! ### The bench -/

/-- One bench with everything that is its own (05; 21 R581; 22). -/
structure Bench where
  /-- BENCH_TABLE.STATE; 3 bits; 05 R125, 21 R581; reset 0 VACANT -/
  state : BenchState
  /-- DETACHED; 1 bit; 05 R130, 21 R581; reset 0 -/
  detached : Bool
  /-- KEEP; 1 bit; 05 R132, 21 R581; reset 0 -/
  keep : Bool
  /-- HOLD_CAUSE; 2 bits; 05 R127, 21 R581; reset 0 -/
  holdCause : BitVec 2
  /-- SWEEP_CAUSE; 3 bits; 05 R128, 21 R581; reset 0 -/
  sweepCause : BitVec 3
  /-- PORT; 2 bits; 21 R581; reset 0 -/
  port : Nat
  /-- FUNCTION; 6 bits; 21 R581; reset 0 -/
  fn : Nat
  /-- CLASS; 5 bits; 21 R581; reset 0 -/
  classId : Nat
  /-- RING_COUNT; 5 bits; 21 R581; reset 0 -/
  ringCount : Nat
  /-- INCARN; 16 bits; 16 R457, 21 R581; reset 0 -/
  incarn : BitVec 16
  /-- ATTACH_TOKEN; 64 bits; 05 R133, 21 R581; reset 0 -/
  token : BitVec 64
  /-- REATTACH_DEADLINE; 64 bits; 12 R346, 21 R581; reset 0 -/
  deadline : BitVec 64
  /-- ATTACH_EPOCH; 32 bits; 12 R346, 21 R581; reset 0 -/
  epoch : BitVec 32
  /-- CUT_TIME; 64 bits; 17 R494, 21 R581; reset 0 -/
  cutTime : BitVec 64
  /-- the adjustable limits; 05 R134; reset 0 -/
  limits : Limits
  /-- BAR2_DVA_BASE; 64 bits; 04 R97, 22 R595; reset 0 -/
  bar2Base : BitVec 64
  /-- die-memory grants on every hub (DIE_MEM_HELD is their sum); 05 R136; reset none -/
  grants : List Grant
  /-- the bench counters; 22 R595 -/
  counters : BenchCounters
  /-- the notice queue; 22 R596 -/
  notices : NoticeQ
  /-- the MSI-X table and PBA; 22 R608 -/
  msix : Msix
  /-- the attach handshake; 22 R598 -/
  attach : Attach
  /-- XLATE_TOKEN_DONE.DONE; 1 bit; 22 R599; reset 0 -/
  tokenDone : Bool
  /-- LAST_TOKEN; 31 bits; 22 R599; reset 0 -/
  lastToken : BitVec 31
  /-- PACE_SLOT[0–7]; 22 R600; reset 0 -/
  paceSlots : Tab PaceSlot
  /-- PLACE_SELECT; 8 bits; 22 R601; reset 0 -/
  placeSelect : BitVec 8
  /-- SEAL_SELECT; 16 bits; 22 R602; reset 0 -/
  sealSelect : BitVec 16
  /-- the trace ring; 22 R603 -/
  trace : Trace
  /-- the 12 stall counters; 64 bits each; 20 R561, 22 R604; reset 0 -/
  stalls : Tab (BitVec 64)
  /-- the invalidation ring; 21 R581 -/
  invRing : InvRing
  /-- the peer window; 21 R581 -/
  peer : Peer
  /-- the Mode D table; 10 R290; reset none -/
  modeD : ModeD
  /-- region records in DVA order, by region number; 11 R331; reset none -/
  regions : Tab (Option Region)
  /-- REGION_EVICT_COUNT; 32 bits; 11 R331, 21 R581; reset 0 -/
  regionEvict : BitVec 32
  /-- COUNT_DROPPED; 32 bits; 11 R334, 21 R581; reset 0 -/
  countDropped : BitVec 32
  /-- ADVISE_DROPPED; 32 bits; 11 R337, 21 R581; reset 0 -/
  adviseDropped : BitVec 32
  /-- RING[0–15]; 22 R605 -/
  rings : Tab Ring
  /-- the ring last taken into a channel, by cluster, for turns; 08 R232; reset none -/
  takenRing : Tab Nat
  /-- the last translated posted write that no flush read has followed: its host address; 04 R108; reset none -/
  posted : Option (BitVec 64)
  /-- next start order, for FENCE; 07 R208; model's own field; reset 0 -/
  nextOrder : Nat
  /-- RATE_CAP bucket in bytes, negative while it owes; 05 R144; reset 0 -/
  bucket : Int
  /-- the staged low dword of the bench map, with its offset; 21 R571, 22 R592; reset none -/
  staged : Option (Nat × BitVec 32)
  /-- the running sweep; 17 R494; reset none -/
  sweep : Option Sweep
  deriving DecidableEq, Repr

/-! ### The whole machine -/

/-- The hub, and the commands that wait for it. -/
structure State where
  /-- commands waiting, first in, first out (model's own field: the queue of this block); reset empty -/
  pending : List Instr
  /-- start, straps, image, flash, HUB block; 02, 21 R576, R577 -/
  chip : Chip
  /-- the hearth; 03, 21 R578 -/
  hearth : Hearth
  /-- host ports by number; 04, 21 R579; reset all DOWN -/
  ports : Tab Port
  /-- functions by port × 64 + function; 04; reset PRESUMED the values of PCIe, log entry 13 -/
  fns : Tab Fn
  /-- the bench command mailbox; 05 R138, 21 R580 -/
  mailbox : Mailbox
  /-- benches by number; 05; reset all VACANT -/
  benches : Tab Bench
  /-- ranges of this hub's dies being zero-filled: die, offset, length; 05 R137; reset none -/
  zeroFill : List (Nat × Nat × Nat)
  /-- forming bench whose FORMATION_DONE is due, with its arguments checked; 05 R140; reset none -/
  forming : Option Nat
  /-- an FLR reached the function of the forming bench: sweep when formation ends; 05 R126; reset false -/
  formingFlr : Bool
  /-- lathes by number; 07, 08; reset none fenced -/
  lathes : Tab Lathe
  /-- the 256 event lines; 08 R244; reset none held, clear -/
  events : Tab EventLine
  /-- the 128 pace timers, by cluster × 64 + timer; 08 R247; reset none held -/
  paceTimers : Tab PaceTimer
  /-- charges of the weighted arbiters, by arbiter and bench; 05 R142; reset none -/
  charges : Tab (Tab Charge)
  /-- the Headstock; 10, 11, 21 R583 -/
  headstock : Headstock
  /-- migration; 11, 21 R583 -/
  mig : Mig
  /-- spindle ports by number; 13, 21 R586; reset all OFF -/
  spindles : Tab Spindle
  /-- BAR2 reads forwarded to dies; 04 R98; reset none -/
  bar2Reads : List Bar2Req
  /-- host and peer writes that their die has not acknowledged; 09 R274; reset none -/
  bar2Writes : List Bar2Put
  /-- accesses of hosts that wait for their turn, in arrival order; 09 R274–R276; reset none -/
  bar2Queue : List Bar2Wait
  /-- requests of other sleds forwarded to dies; 16 R456; reset none -/
  remotes : List RemoteReq
  /-- placements, of benches of this hub and of guests; 14 R408; reset none -/
  placements : List Placement
  /-- LAUNCHes under way, oldest first; 14 R402; reset none -/
  launches : List Launch
  /-- Burl jobs in acceptance order; 15 R429; reset none -/
  jobs : List Job
  /-- the dense engine; 15 R420 -/
  dense : Engine
  /-- the lattice engine; 15 R420 -/
  lattice : Engine
  /-- Envan links by number; 16 R453; reset all DOWN -/
  envans : Tab Envan
  /-- the cascade; 16, 21 R586 -/
  cascade : Cascade
  /-- recovery; 17, 21 R584 -/
  recovery : Recovery
  /-- background work; 18, 21 R585 -/
  bg : Background
  /-- the 64 sealed streams by index; 19 R535; reset none open -/
  streams : Tab Stream
  /-- debug; 20, 21 R587, R588 -/
  dbg : Debug
  /-- performance counters of the PERF block by qword (offset div 8); 64 bits each; 21 R589; reset 0 -/
  perf : Tab (BitVec 64)
  /-- billet contents, the addressed RAM of the hub that benches read and write: key = index × 2^20 + offset; 07 R211; reset lists nothing -/
  billetMem : Memory
  /-- free values drawn so far (model's own field); reset DESIGN CHOICE 0, log entry 15 -/
  draws : Nat
  /-- messages sent, oldest first (model's own field); reset empty -/
  out : List Out
  deriving DecidableEq, Repr

/-! ### Reset -/

/-- No straps latched. -/
def Straps.reset : Straps := ⟨0, false, 0, false⟩

/-- No search under way. -/
def SlotSearch.reset : SlotSearch := ⟨0, false, 0, none, none, none, none⟩

/-- IMAGE_INFO at reset (21 R577 Table 8). -/
def ImageInfo.reset : ImageInfo := ⟨.pending, .pending, 0, 0, 0, 0, 0⟩

/-- The flash interface at reset (21 R577 Table 9). -/
def FlashIf.reset : FlashIf := ⟨0, List.replicate 256 0, false, 0, none, 0⟩

/-- The chip before its hearth has power. -/
def Chip.reset : Chip :=
  { grade := .ax5216, powered := false, keyDigest := none, phase := .straps, wait := .none, teardownAt := 0,
    straps := .reset, linksAt := 0, cfgDefaulted := false, cfgSource := 3, cfgReason := 0, ledgerFail := false, ledgerMask := 0,
    bistFail := false, bistUnit := 0, lastRestart := 0, badAccess := 0, ledgerReady := false, cfg := none,
    search := .reset, image := .reset, flash := .reset, smbusPtr := 0, staged := none }

/-- A switched domain at reset (21 R578 Table 10). -/
def PdDomain.reset : PdDomain := ⟨.off, 0, 0, 0⟩

/-- The hearth at reset. -/
def Hearth.reset : Hearth :=
  { time := 0, counting := false, rateAdj := 0, rateAcc := 0, oscTrim := 0, refLost := false, thermalAlert := false,
    tjMax := 0, thermalWarn := false, sensor := 0, sensors := [], coolSince := none, domains := [], deadlines := [], detectRetry := [],
    porch := [], withheld := [], highWater := 0, refilling := false }

/-- A host port at reset (21 R579 Table 12). -/
def Port.reset : Port :=
  { link := .down, width := 0, speed := 0, flit := false, cxl := false, failCause := 0, trainFails := 0,
    consecFails := 0, mps := 0, mrrs := 0, relaxed := true, cto := 0, numVfs := 0, vfEnable := false, perst := true,
    l12 := false, l11 := false, retrying := false, vfBars := List.replicate 3 0, wake := false, tags := [], egress := [],
    invalidates := [], invWaiting := [], peerBytes := 0, unfit := false }

/-- A function at reset. -/
def Fn.reset : Fn :=
  { d3hot := false, busMaster := false, memSpace := false, pasidEn := false, atsEn := false, priEn := false,
    priAlloc := 0, priFailure := false, msixEn := false, msixMask := false, pmeEn := false, aer := [],
    fatal := [.malformedTlp, .flowControl, .uncorrectableFlit], bars := List.replicate 3 0 }

/-- The mailbox at reset (21 R580). -/
def Mailbox.reset : Mailbox := ⟨List.replicate 64 0, false, 0, 0, 0, 0, 0⟩

/-- Limits of a VACANT bench. -/
def Limits.reset : Limits := ⟨0, 0, 0, 0, 0⟩

/-- Counters at reset (22 R595 Table 6). -/
def BenchCounters.reset : BenchCounters := ⟨0, 0, 0, 0, 0, 0, 0, 0, 0, 0, 0, 0, 0⟩

/-- A notice queue at reset (22 R596 Table 7). -/
def NoticeQ.reset : NoticeQ := ⟨0, 0, 0, 0, false, false, 0, [], none, 0, 0, none⟩

/-- An MSI-X entry at reset (22 R608 Table 15). -/
def MsixEntry.reset : MsixEntry := ⟨0, 0, 0, true⟩

/-- The MSI-X page at reset (22 R608). -/
def Msix.reset : Msix := ⟨[], 0, 0, 0⟩

/-- No charge kept. -/
def Charge.reset : Charge := ⟨none, false⟩

/-- A ring at reset (22 R605 Table 14). -/
def Ring.reset : Ring :=
  { base := 0, log2 := 0, pasid := 0, knockAddr := 0, pause := false, knockEn := false, coherent := false,
    pasidEn := false, state := .disabled, park := .none, knock := .off, configError := false, clusterB := false,
    context := 0, head := 0, tail := 0, badTail := 0, ownLate := 0, spurious := 0, descDone := 0, bytesRead := 0,
    bytesWritten := 0, descs := [], fetchNext := 0, ownStop := false, fetchFailed := false, disabling := false, flushing := false, retake := false, knockLine := none, edges := 0, edgesFrom := none, edgeMarks := [],
    lastDesc := none, channel := none, channelSince := 0 }

/-- A lathe at reset. -/
def Lathe.reset : Lathe :=
  { fenced := false, halt := none, unattributed := [], reads := [], writes := [], reorder := 0, reserved := none, admitted := 0,
    channels := [], lastChannel := [], draining := [], testing := false }

/-- An event line at reset: held by no bench and clear (07 R210). -/
def EventLine.reset : EventLine := ⟨none, false⟩

/-- A pace timer at reset: held by no bench, disarmed. -/
def PaceTimer.reset : PaceTimer := ⟨none, 0, false, 0, 0⟩

/-- A pace slot at reset (22 R600 Table 10). -/
def PaceSlot.reset : PaceSlot := ⟨0, false, false, 0, false⟩

/-- No Mode D table. -/
def ModeD.reset : ModeD := ⟨none, [], []⟩

/-- A Mode D table of a zeroed root (05 R140; 10 R310); none where the bench has no table. -/
def ModeD.fresh (has : Bool) : ModeD := if has then ⟨some 0, [⟨0, 4, []⟩], []⟩ else .reset

/-- The bench has a table. -/
def ModeD.present (t : ModeD) : Bool := t.root.isSome

/-- The invalidation ring at reset (21 R581 Table 15). -/
def InvRing.reset : InvRing :=
  { base := 0, enable := false, log2 := 0, tail := 0, head := 0, code := 0, stopped := false, tokenDone := false,
    pinFull := false, index := 0, pinFullDva := 0, pinFailed := false, token := none, barrier := [], unacked := [] }

/-- The Headstock at reset (21 R583 Table 16). -/
def Headstock.reset : Headstock :=
  { cache := [], walkCache := [], pins := [], misses := [], nextMiss := 0, trackers := [], retired := [], faults := [], waiting := [],
    pageReqs := [], counts := [], faultSel := 0, findBench := 0, findStart := 0, findFound := false, queryRegion := 0,
    queryBench := 0, queryFound := false, pinFullCount := 0, noTracker := 0, reseed := 0, tablePages := 0,
    decaySecond := 0, decayStart := none, decayFloor := false }

/-- Migration at reset (21 R583 Table 17). -/
def Mig.reset : Mig :=
  { arg := List.replicate 40 0, busy := false, result := 0, index := 0, stage := .idle, leaf := 0, leafSize := 0,
    dest := 0, readers := [], qBase := 0, qEnable := false, qLog2 := 0, qHead := 0, qTail := 0, qPhase := false,
    qLost := 0 }

/-- The attach registers at reset (22 R598 Table 8). -/
def Attach.reset : Attach := ⟨0, 0, 0, false, 0, none⟩

/-- The peer context at reset (21 R581 Table 15). -/
def Peer.reset : Peer := ⟨false, 0, List.replicate 4 0, [], false, false, none, none⟩

/-- A spindle port at reset (21 R586 Table 20). -/
def Spindle.reset : Spindle :=
  { state := .off, step := .none, cause := 0, half := false, attempts := 0, fails := 0, crc := 0, recoveries := 0,
    recalForced := 0, writeErr := 0, eventReject := 0, pwrEn := false, onSince := 0, stepAt := 0, offSince := 0, pwrGood := false, crcRun := 0,
    failedRecovery := none, defects := [], lost := false, scrubStart := 0, scrubPos := 0, scrubbing := false,
    scrubAt := 0, recal := [], xlt := [], heldMsgs := [], queue := [], sent := [], turns := 0, unfit := false }

/-- An idle engine. -/
def Engine.reset : Engine := ⟨false, false, false, none, 0, []⟩

/-- An Envan link at reset (21 R586 Table 20). -/
def Envan.reset : Envan :=
  { state := .down, cause := 0, partner := 0, partnerLink := 0, attempts := 0, fails := 0, crc := 0, recalForced := 0,
    delayNs := 0, crcRun := 0, failedRecovery := none, unfit := false, recal := [] }

/-- The cascade at reset (21 R586 Table 21). -/
def Cascade.reset : Cascade :=
  { state := .alone, reason := 0, timeState := .free, stale := 0, offset := 0, charter := none, highest := 0,
    charterHeard := none, inst := 0, presence := [], nextStep := 0, waiting := [], newLost := [], reports := [],
    spanning := [], guests := [], forwarded := none, grantWaits := [], windowOffset := 0, snapshot := [] }

/-- A whittler at reset. -/
def Whittler.reset : Whittler := ⟨false, [], false, false, false⟩

/-- A billet index never allocated. -/
def Billet.reset : Billet := ⟨0, false, 0, 0, none⟩

/-- Recovery at reset (21 R584 Table 18). -/
def Recovery.reset : Recovery :=
  { tallies := [], locks := [], whittlers := [], billets := [], log := [], mirror := [], logSeq := 0,
    logIndex := 0, tallyOwner := 0, tallyIndex := 0, faults := [], marked := [] }

/-- Background work at reset (21 R585 Table 19). -/
def Background.reset : Background :=
  { passStart := 0, position := 0, floor := false, ce := 0, ue := 0, scrubbing := false, telemEnable := false,
    telemPeriod := 100, telemSkipped := 0, telemAddr := 0, telemSeq := 0, overdue := 0, testing := [],
    tested := [], runningAt := 0, telemAt := none }

/-- A stream never opened. -/
def Stream.reset : Stream :=
  { isOpen := false, gen := 0, bench := 0, window := 0, slotSize := 0, slots := 0, hubStamp := false, maxAge := 0,
    expected := 0, chain := 0, staging := [], captured := [], good := 0, gap := 0, broken := 0, stale := 0,
    missing := 0, unconsumed := 0, lastCounter := 0, lastOutcome := 0, lastDetail := 0, forwarded := 0,
    closing := none }

/-- Debug at reset (21 R587, R588). -/
def Debug.reset : Debug :=
  { level := 0, attached := false, dapWrite := false, haltAllow := false, honourAllow := false, pinDriving := false,
    quiet := true, write := false, space := 0, addr := 0, busy := false, refused := false, hole := false,
    asleep := false, whittler := 0, reg := 0, regData := 0, written := [], data := List.replicate 64 0, staged := none }

/-- A trace ring at reset (22 R603 Table 13). -/
def Trace.reset : Trace := ⟨0, 0, 0, 0, false, false, 0, 0, false⟩

/-- A VACANT bench: every register at its reset value (21 R581 Table 15, 22). -/
def Bench.reset : Bench :=
  { state := .vacant, detached := false, keep := false, holdCause := 0, sweepCause := 0, port := 0, fn := 0,
    classId := 0, ringCount := 0, incarn := 0, token := 0, deadline := 0, epoch := 0, cutTime := 0, limits := .reset,
    bar2Base := 0, grants := [], counters := .reset, notices := .reset, msix := .reset, attach := .reset,
    tokenDone := false, lastToken := 0, paceSlots := [], placeSelect := 0, sealSelect := 0, trace := .reset,
    stalls := [], invRing := .reset, peer := .reset, modeD := .reset, regions := [], regionEvict := 0,
    countDropped := 0, adviseDropped := 0, rings := [], takenRing := [], posted := none, nextOrder := 0, bucket := 0, staged := none, sweep := none }

/-- The hub right after reset: unpowered, every register at its cold-start value (21 R567), no command waiting. -/
def State.reset : State :=
  { pending := [], chip := .reset, hearth := .reset, ports := [], fns := [], mailbox := .reset, benches := [],
    zeroFill := [], forming := none, formingFlr := false, lathes := [], events := [], paceTimers := [], charges := [],
    headstock := .reset, mig := .reset, spindles := [], bar2Reads := [], bar2Writes := [], bar2Queue := [], remotes := [], placements := [], launches := [], jobs := [],
    dense := .reset, lattice := .reset, envans := [], cascade := .reset, recovery := .reset, bg := .reset, streams := [],
    dbg := .reset, perf := [], billetMem := [], draws := 0, out := [] }

/-- The stops of a meaning. None is raised: every command of the table has an effect (NOTES.md, Stops). -/
inductive Fault where
  /-- raised by no command; it stands so that the type is not empty. Safe: nothing stops with it. -/
  | none
  deriving DecidableEq, Repr

/-- The refusals. -/
inductive Refusal where
  /-- a command whose meaning is not written yet, rejected by its mnemonic. Safe: the run stops. -/
  | notModelled (mnemonic : String)
  deriving DecidableEq, Repr

end Sys2Proof.Machine
end

