-- ==== Sys2Proof/Machine/Table.lean ====
section
/-!
DEFINITION. Sparse tables and addressed memory: reading and writing one entry; bytes and little-endian numbers; CRC-32C.
-/

namespace Sys2Proof.Machine

/-- The entry at `k`, or `d` where the table lists none. -/
def tabGet {α : Type} (t : Tab α) (d : α) (k : Nat) : α :=
  match t with
  | [] => d
  | e :: r => if e.1 = k then e.2 else tabGet r d k

/-- The table with the entry at `k` set to `v`, in rising key order. -/
def tabSet {α : Type} (k : Nat) (v : α) : Tab α → Tab α
  | [] => [(k, v)]
  | e :: r => if k < e.1 then (k, v) :: e :: r else if e.1 = k then (k, v) :: r else e :: tabSet k v r

/-- The table without an entry at `k`. -/
def tabDel {α : Type} (k : Nat) (t : Tab α) : Tab α := t.filter fun e => e.1 != k

/-- The table with the value at `k` set to `v`, listing nothing where `v` is the default `d`. -/
def tabPut {α : Type} [DecidableEq α] (d : α) (k : Nat) (v : α) (t : Tab α) : Tab α :=
  if v = d then tabDel k t else tabSet k v t

/-- The entry at `k` changed by `f`. -/
def tabMod {α : Type} (d : α) (k : Nat) (f : α → α) (t : Tab α) : Tab α := tabSet k (f (tabGet t d k)) t

/-- A word made of its fields: the place of each one's lowest bit, and its value. -/
def fields (l : List (Nat × Nat)) : Nat := l.foldl (fun n e => n + e.2 * 2 ^ e.1) 0

/-- The keys of a table. -/
def tabKeys {α : Type} (t : Tab α) : List Nat := t.map Prod.fst

/-- Keys strictly rise. -/
def tabSorted {α : Type} : Tab α → Bool
  | [] => true
  | [_] => true
  | a :: b :: r => decide (a.1 < b.1) && tabSorted (b :: r)

/-- A memory is in canonical form: addresses strictly rise and no listed byte is 0, which an unlisted address reads as. -/
def Memory.wf (m : Memory) : Bool := tabSorted m && m.all fun c => c.2 != 0

/-- The byte at an address: 0 where the memory lists none (07 R211: billets are zero-filled at allocation). -/
def memRead (m : Memory) (a : Nat) : Byte := tabGet m 0 a

/-- One byte written. -/
def memWrite (m : Memory) (a : Nat) (b : Byte) : Memory := tabPut 0 a b m

/-- `n` bytes from address `a` on. -/
def memReads (m : Memory) (a : Nat) : Nat → List Byte
  | 0 => []
  | n + 1 => memRead m a :: memReads m (a + 1) n

/-- Bytes written from address `a` on. -/
def memWrites (m : Memory) (a : Nat) : List Byte → Memory
  | [] => m
  | b :: r => memWrites (memWrite m a b) (a + 1) r

/-- Every address of `[a, a + n)` made 0. -/
def memZero (m : Memory) (a n : Nat) : Memory := m.filter fun c => decide (c.1 < a) || decide (a + n ≤ c.1)

/-- The number that bytes spell, least significant first (00 R10). -/
def leNat : List Byte → Nat
  | [] => 0
  | b :: r => b.toNat + 256 * leNat r

/-- The `n` bytes of a number, least significant first (00 R10). -/
def leBytes : Nat → Nat → List Byte
  | 0, _ => []
  | n + 1, v => BitVec.ofNat 8 (v % 256) :: leBytes n (v / 256)

/-- `n` bytes of a block from offset `o` on; bytes beyond the block read 0. -/
def slice (b : List Byte) (o n : Nat) : List Byte :=
  let r := (b.drop o).take n
  r ++ List.replicate (n - r.length) 0

/-- The little-endian field of `n` bytes at offset `o`. -/
def field (b : List Byte) (o n : Nat) : Nat := leNat (slice b o n)

/-- Bits `lo` to `lo + n - 1` of a number. -/
def bits (v lo n : Nat) : Nat := v / 2 ^ lo % 2 ^ n

/-- A list with the elements from index `o` on replaced by `v`. -/
def splice {α : Type} (l : List α) (o : Nat) (v : List α) : List α := l.take o ++ v ++ l.drop (o + v.length)

/-- A number of `w` bits as a signed one. -/
def signed (w v : Nat) : Int := if v < 2 ^ (w - 1) then (v : Int) else (v : Int) - 2 ^ w

/-- One step of the reflected Castagnoli CRC (02 R43). -/
def crcBit (c : Nat) : Nat := if c % 2 = 1 then (c / 2) ^^^ 0x82F63B78 else c / 2

/-- The CRC register after one byte. -/
def crcByte (c : Nat) (b : Byte) : Nat := crcBit (crcBit (crcBit (crcBit (crcBit (crcBit (crcBit (crcBit (c ^^^ b.toNat))))))))

/-- CRC-32C: polynomial 0x1EDC_6F41 reflected, initial value and final XOR 0xFFFF_FFFF (02 R43). -/
def crc32c (l : List Byte) : Nat := l.foldl crcByte 0xFFFFFFFF ^^^ 0xFFFFFFFF

end Sys2Proof.Machine
end

