-- ==== Sys2Proof/Machine/Ops.lean ====
section
/-!
DEFINITION. The named operations over the state that every family uses: units of the grade, accessors, messages out, free values, tallies, the error log and HUB_FAULT_N, notices, vectors, tags, deadlines.
-/

namespace Sys2Proof.Machine

/-- What a meaning answers. -/
abbrev Result := Host.Outcome State Fault Refusal

/-! ### Units of the grade (00 R4 Table 1) -/

/-- The part is an AX5216. -/
def State.big (s : State) : Bool := s.chip.grade == .ax5216

/-- Host ports of the grade. -/
def State.nPorts (s : State) : Nat := if s.big then 4 else 2
/-- Spindle ports of the grade. -/
def State.nDies (s : State) : Nat := if s.big then 8 else 4
/-- Envan links of the grade. -/
def State.nEnvans (s : State) : Nat := if s.big then 6 else 4
/-- Lathes of the grade. -/
def State.nLathes (s : State) : Nat := if s.big then 16 else 8
/-- Whittlers of the grade. -/
def State.nWhittlers (s : State) : Nat := if s.big then 128 else 64
/-- Benches of the grade. -/
def State.nBenches (s : State) : Nat := if s.big then 256 else 128
/-- Fault-queue entries of the grade (05 R147). -/
def State.nFaults (s : State) : Nat := if s.big then 4096 else 2048
/-- Bytes of ledger memory of the grade (01 R24). -/
def State.ledgerBytes (s : State) : Nat := if s.big then 2 ^ 36 else 2 ^ 35
/-- Bytes of a die's memory (01 R24). -/
def dieBytes : Nat := 48 * 2 ^ 30

/-- PDn is a switched domain of the grade (00 R5). -/
def State.domainPresent (s : State) (n : Nat) : Bool :=
  decide (1 ≤ n ∧ n ≤ 12) && (s.big || !(n == 3 || n == 4 || n == 6 || n == 12))

/-! ### Accessors -/

/-- Hearth time. -/
def State.now (s : State) : BitVec 64 := s.hearth.time

/-- A host port. -/
def State.port (s : State) (p : Nat) : Port := tabGet s.ports .reset p
/-- A host port changed. -/
def State.modPort (s : State) (p : Nat) (f : Port → Port) : State := { s with ports := tabMod .reset p f s.ports }
/-- A function: 0 is the PF. -/
def State.fnAt (s : State) (p f : Nat) : Fn := tabGet s.fns .reset (p * 64 + f)
/-- A function changed. -/
def State.modFn (s : State) (p f : Nat) (g : Fn → Fn) : State := { s with fns := tabMod .reset (p * 64 + f) g s.fns }
/-- A bench. -/
def State.bench (s : State) (b : Nat) : Bench := tabGet s.benches .reset b
/-- A bench set. -/
def State.setBench (s : State) (b : Nat) (v : Bench) : State := { s with benches := tabSet b v s.benches }
/-- A bench changed. -/
def State.modBench (s : State) (b : Nat) (f : Bench → Bench) : State := s.setBench b (f (s.bench b))
/-- Ring `r` of bench `b`. -/
def State.ring (s : State) (b r : Nat) : Ring := tabGet (s.bench b).rings .reset r
/-- A ring changed. -/
def State.modRing (s : State) (b r : Nat) (f : Ring → Ring) : State :=
  s.modBench b fun x => { x with rings := tabMod .reset r f x.rings }
/-- A lathe. -/
def State.lathe (s : State) (l : Nat) : Lathe := tabGet s.lathes .reset l
/-- A lathe changed. -/
def State.modLathe (s : State) (l : Nat) (f : Lathe → Lathe) : State := { s with lathes := tabMod .reset l f s.lathes }
/-- A spindle port. -/
def State.die (s : State) (d : Nat) : Spindle := tabGet s.spindles .reset d
/-- A spindle port changed. -/
def State.modDie (s : State) (d : Nat) (f : Spindle → Spindle) : State :=
  { s with spindles := tabMod .reset d f s.spindles }
/-- An Envan link. -/
def State.envan (s : State) (l : Nat) : Envan := tabGet s.envans .reset l
/-- An Envan link changed. -/
def State.modEnvan (s : State) (l : Nat) (f : Envan → Envan) : State := { s with envans := tabMod .reset l f s.envans }
/-- A whittler. -/
def State.whittler (s : State) (w : Nat) : Whittler := tabGet s.recovery.whittlers .reset w
/-- A whittler changed. -/
def State.modWhittler (s : State) (w : Nat) (f : Whittler → Whittler) : State :=
  { s with recovery := { s.recovery with whittlers := tabMod .reset w f s.recovery.whittlers } }
/-- A sealed stream. -/
def State.stream (s : State) (i : Nat) : Stream := tabGet s.streams .reset i
/-- A sealed stream changed. -/
def State.modStream (s : State) (i : Nat) (f : Stream → Stream) : State :=
  { s with streams := tabMod .reset i f s.streams }
/-- An event line. -/
def State.event (s : State) (n : Nat) : EventLine := tabGet s.events .reset n
/-- An event line changed. -/
def State.modEvent (s : State) (n : Nat) (f : EventLine → EventLine) : State :=
  { s with events := tabMod .reset n f s.events }
/-- Pace timer `t` of a cluster. -/
def State.paceTimer (s : State) (clusterB : Bool) (t : Nat) : PaceTimer :=
  tabGet s.paceTimers .reset (clusterB.toNat * 64 + t)
/-- A pace timer changed. -/
def State.modPaceTimer (s : State) (clusterB : Bool) (t : Nat) (f : PaceTimer → PaceTimer) : State :=
  { s with paceTimers := tabMod .reset (clusterB.toNat * 64 + t) f s.paceTimers }
/-- A switched domain. -/
def State.domain (s : State) (n : Nat) : PdDomain := tabGet s.hearth.domains .reset n
/-- A switched domain changed. -/
def State.modDomain (s : State) (n : Nat) (f : PdDomain → PdDomain) : State :=
  { s with hearth := { s.hearth with domains := tabMod .reset n f s.hearth.domains } }
/-- The domain is ON. -/
def State.domainOn (s : State) (n : Nat) : Bool := (s.domain n).state == .on
/-- What a command makes the domain busy with restarts its idle-gate timer, however short it lasts (03 R70). -/
def State.stir (s : State) (n : Nat) : State := s.modDomain n fun d => { d with idleSince := s.now }
/-- A guest slot. -/
def State.guest (s : State) (g : Nat) : Option Guest := tabGet s.cascade.guests none g
/-- A guest slot set. -/
def State.setGuest (s : State) (g : Nat) (v : Option Guest) : State :=
  { s with cascade := { s.cascade with guests := tabSet g v s.cascade.guests } }

/-- The domain that holds a die's spindle port (03 Table 3). -/
def dieDomain (d : Nat) : Nat := if d < 4 then 11 else 12
/-- The domain of a lathe cluster. -/
def clusterDomain (clusterB : Bool) : Nat := if clusterB then 6 else 5
/-- The cluster of a lathe (08 R228). -/
def latheCluster (l : Nat) : Bool := decide (8 ≤ l)

/-! ### Messages out, free values, counters -/

/-- The message leaves the hub. -/
def State.emit (s : State) (o : Out) : State := { s with out := s.out ++ [o] }

/-- The next free value. -/
def State.draw (s : State) : BitVec 64 × State := (Config.random s.draws, { s with draws := s.draws + 1 })

/-- One in the hub's BAD_ACCESS_COUNT (21 R574). -/
def State.countHub (s : State) : State := { s with chip := { s.chip with badAccess := s.chip.badAccess + 1 } }

/-- One in a bench's BAD_ACCESS_COUNT (22 R592). -/
def State.countBench (s : State) (b : Nat) : State :=
  s.modBench b fun x => { x with counters := { x.counters with badAccess := x.counters.badAccess + 1 } }

/-- A performance counter of the PERF block raised, by its qword (21 R589). -/
def State.countPerf (s : State) (q n : Nat) : State :=
  if n = 0 then s else { s with perf := tabMod 0 q (fun v => v + BitVec.ofNat 64 n) s.perf }

/-- Data bytes that a message to a die carries. -/
def DieMsg.bytes : DieMsg → Nat
  | .write _ _ _ d => d.length
  | .writeMasked _ _ _ d => d.length
  | .hubWrite _ _ d => d.length
  | .xltForward _ _ _ _ d => d.length
  | .xltAnswer _ _ _ d => d.length
  | _ => 0

/-- A message to a die, counted in SP_BYTES_OUT by the data it carries (21 Table 25); it waits while the port is in RECOVERY (13 R386). -/
def State.sendDie (s : State) (d : Nat) (m : DieMsg) : State :=
  if (s.die d).state = .recovery then s.modDie d fun x => { x with heldMsgs := x.heldMsgs ++ [m] }
  else (s.countPerf (64 + 4 * d) m.bytes).emit (.die d m)

/-- Data bytes that a message to another hub carries. -/
def EnvanMsg.bytes : EnvanMsg → Nat
  | .dataWrite _ _ _ _ _ _ d => d.length
  | .dataWriteMasked _ _ _ _ _ _ d => d.length
  | .dataAnswer _ _ d => d.length
  | .xltForward _ _ _ _ _ _ _ _ d => d.length
  | .loadScr _ _ _ _ _ _ _ d => d.length
  | _ => 0

/-- The link that messages to a hub leave on: the first of the primary route, or of the alternate while that is down (16 R464, R477). -/
def State.linkTo (s : State) (h : Nat) : Option Nat :=
  (s.cascade.charter.bind fun c => c.routes.find? fun r => r.src == s.chip.straps.hubId.toNat && r.dst == h).map fun r =>
    let st := (s.envan r.primary).state
    if st = .up ∨ st = .recovery ∨ r.alternate = 15 then r.primary else r.alternate

/-- A link that a route may use. -/
def State.linkUp (s : State) (l : Nat) : Bool := (s.envan l).state == .up || (s.envan l).state == .recovery

/-- Hops of the route that messages to a hub take, of 8 at most: the primary, or the alternate while the first link of that is down (16 R464, R477). -/
def State.routeHops (s : State) (h : Nat) : Option Nat :=
  match s.cascade.charter.bind fun c => c.routes.find? fun r => r.src == s.chip.straps.hubId.toNat && r.dst == h with
  | some r =>
    if s.linkUp r.primary ∧ r.primaryHops ≤ 8 then some r.primaryHops
    else if r.alternate ≠ 15 ∧ s.linkUp r.alternate ∧ r.alternateHops ≤ 8 then some r.alternateHops else none
  | none => none

/-- There is a route to a hub. -/
def State.routed (s : State) (h : Nat) : Bool := (s.routeHops h).isSome

/-- Rank of the class of a message that goes along a route (16 Table 2); none for what is flooded, or goes to the master before there are routes (R459, R462, R468). -/
def EnvanMsg.rank : EnvanMsg → Option Nat
  | .hold .. => some 0
  | .release .. => some 0
  | .late .. => some 0
  | .presence .. => none
  | .charter .. => none
  | .time .. => none
  | .timeReport .. => none
  | .probe => none
  | .rosterReport .. => none
  | .rosterUpdate .. => none
  | .register .. => none
  | .remoteGrant .. => some 1
  | .remoteGrantResult .. => some 1
  | .remoteSweep .. => some 1
  | .askSweep .. => some 1
  | .xlateInv .. => some 2
  | .xlateInvAck .. => some 2
  | .halo .. => some 3
  | .best .. => some 3
  | _ => some 4

/-- A message to another hub, counted in EL_BYTES_OUT of its link by the data it carries (21 Table 25); while no route leads there it waits at its credit boundary (16 R477). -/
def State.sendHub (s : State) (h : Nat) (m : EnvanMsg) : State :=
  if m.rank.isSome ∧ ¬ s.routed h then { s with cascade := { s.cascade with waiting := s.cascade.waiting ++ [(h, m)] } } else
  (match s.linkTo h with
   | some l => s.countPerf (96 + 4 * l) m.bytes
   | none => s).emit (.envan h m)

/-- Data bytes that a request of another sled carries. -/
def requestBytes : DataRequest → Nat
  | .dieWrite _ _ d => d.length
  | .scrWrite _ _ _ _ d => d.length
  | .load _ _ _ _ d => d.length
  | _ => 0

/-- Data bytes that arrived from another hub, on the link that its route uses: EL_BYTES_IN (20 R562). -/
def State.hubIn (s : State) (h n : Nat) : State :=
  match s.linkTo h with
  | some l => s.countPerf (97 + 4 * l) n
  | none => s

/-- Messages that waited for a route are sent again where there is one, in class order (16 R477). -/
def State.sendWaiting (s : State) : State :=
  let l := s.cascade.waiting
  (List.range 5).foldl (fun s k => (l.filter fun e => e.2.rank == some k).foldl (fun s e => s.sendHub e.1 e.2) s)
    { s with cascade := { s.cascade with waiting := [] } }

/-! ### Benches -/

/-- The bench bound to a function, if any (05 R123). -/
def State.benchOf (s : State) (p f : Nat) : Option Nat :=
  (s.benches.find? fun e => e.2.state != .vacant && e.2.port == p && e.2.fn == f).map Prod.fst

/-- The benches that are not VACANT, by number. -/
def State.liveBenches (s : State) : List Nat := (s.benches.filter fun e => e.2.state != .vacant).map Prod.fst

/-- The class of a bench (05 R134). -/
def State.classOf (s : State) (b : Nat) : Option BenchClass :=
  (s.chip.cfg.map ImageCfg.classes).bind fun l => l.find? fun c => c.classId == (s.bench b).classId

/-- A flag of the bench's class; false without one. -/
def State.classHas (s : State) (b : Nat) (f : BenchClass → Bool) : Bool := ((s.classOf b).map f).getD false

/-- The number of a bench's QoS class (05 R141). Guest slot g competes as number 256 + g under its own class (16 R480). -/
def State.qosNumber (s : State) (b : Nat) : Nat :=
  let id := if b < 256 then (s.bench b).classId else ((s.guest (b - 256)).map Guest.classId).getD 0
  (((s.chip.cfg.map ImageCfg.classes).bind fun l => l.find? fun c => c.classId == id).map BenchClass.qosClass).getD 0

/-- The QoS settings of a bench (05 R141). -/
def State.qosOf (s : State) (b : Nat) : QosClass :=
  (((s.chip.cfg.map ImageCfg.qos).getD [])[s.qosNumber b]?).getD ⟨1, 1, 1, 0⟩

/-- HUB_ID as a number. -/
def State.hubId (s : State) : Nat := s.chip.straps.hubId.toNat

/-! ### Tallies (17 R485–R488) -/

/-- OWNER of hub work on behalf of no bench (17 Table 2). -/
def hubOwner : BitVec 16 := 0x01FF
/-- OWNER of a bench; numbers from 256 on are guest slots (17 Table 2). -/
def benchOwner (b : Nat) : BitVec 16 := BitVec.ofNat 16 b
/-- No expiry. -/
def noExpiry : BitVec 64 := 0xFFFFFFFFFFFFFFFF

/-- A structure is guarded by an unbroken lock of a whittler that has stopped: work that needs it waits (17 R489; 20 R558, R560). Of a bench's structures, that of bench `b`. -/
def State.structureHeld (s : State) (k : LockStructure) (b : Nat) : Bool :=
  s.recovery.locks.any fun l =>
    l.guards == k && !l.broken && (s.whittler l.whittler).halted && (k == .billets || k == .roster || l.owner == benchOwner b)

/-- The incarnation of a bench or guest slot. -/
def State.incarnOf (s : State) (b : Nat) : BitVec 16 :=
  if b < 256 then (s.bench b).incarn else ((s.guest (b - 256)).map Guest.incarn).getD 0

/-- A grant recorded (17 R485, R486). -/
def State.addTally (s : State) (kind b unit resource : Nat) : State :=
  { s with recovery := { s.recovery with tallies := s.recovery.tallies ++
    [⟨kind, .held, benchOwner b, s.incarnOf b, unit, BitVec.ofNat 64 resource, s.now, noExpiry⟩] } }

/-- The tally is of this kind, owner and resource. -/
def Tally.is (kind b resource : Nat) (t : Tally) : Bool :=
  t.kind == kind && t.owner == benchOwner b && t.resource == BitVec.ofNat 64 resource

/-- A grant ended (17 R488): one record of this kind, owner and resource passes to FREE. -/
def State.endTally (s : State) (kind b resource : Nat) : State :=
  { s with recovery := { s.recovery with tallies := s.recovery.tallies.eraseP (Tally.is kind b resource) } }

/-- Every record of an owner of these kinds ended. -/
def State.endTallies (s : State) (b : Nat) (kinds : List Nat) : State :=
  { s with recovery := { s.recovery with
    tallies := s.recovery.tallies.filter fun t => !(t.owner == benchOwner b && kinds.contains t.kind) } }

/-- Every record of an owner of these kinds BROKEN (17 R488). -/
def State.breakTallies (s : State) (b : Nat) (kinds : List Nat) : State :=
  let f : Tally → Tally := fun t => if t.owner == benchOwner b && kinds.contains t.kind then { t with state := .broken } else t
  { s with recovery := { s.recovery with tallies := s.recovery.tallies.map f } }

/-! ### Deadlines (03 R65) -/

/-- A general deadline set; 1,024 fit, and a further one is not set. -/
def State.addDeadline (s : State) (k : DeadlineKind) (t : BitVec 64) : State :=
  if s.hearth.deadlines.length < 1024 then { s with hearth := { s.hearth with deadlines := s.hearth.deadlines ++ [⟨k, t⟩] } }
  else s

/-- Every general deadline of this kind cancelled. -/
def State.cancelDeadline (s : State) (k : DeadlineKind) : State :=
  { s with hearth := { s.hearth with deadlines := s.hearth.deadlines.filter fun d => d.kind != k } }

/-! ### Host ports -/

/-- The function has been enabled by its host: the PF, or a VF below NumVFs while VF Enable is 1 (04 R92, 05 R123). -/
def State.fnEnabled (s : State) (p f : Nat) : Bool := f == 0 || ((s.port p).vfEnable && decide (f ≤ (s.port p).numVfs))

/-- The function may issue requests: in D0, Bus Master Enable 1, its link up and not in L2 (04 R121). -/
def State.fnMayIssue (s : State) (p f : Nat) : Bool :=
  !(s.fnAt p f).d3hot && (s.fnAt p f).busMaster && s.fnEnabled p f &&
    ((s.port p).link == .l0 || (s.port p).link == .l1 || (s.port p).link == .recovery)

/-- The function whose Requester ID a bench's requests carry: its own, and the PF's for the management bench (04 R93). -/
def State.reqFn (s : State) (b : Nat) : Nat := if b = 0 then 0 else (s.bench b).fn

/-- The bench may use its host port: attached, and its function may issue, under the Requester ID its requests carry (04 R93, R121, 12 R346). -/
def State.mayUsePort (s : State) (b : Nat) : Bool :=
  let x := s.bench b
  !x.detached && s.fnMayIssue x.port x.fn && s.fnMayIssue x.port (s.reqFn b)

/-- A TLP joins its function's egress queue (04 R103): bench charged, bytes charged by the arbiter, bytes counted against RATE_CAP. -/
def State.egress (s : State) (p f b size capped : Nat) (o : Out) : State :=
  s.modPort p fun x => { x with egress := x.egress ++ [⟨f, b, size, capped, false, none, none, o⟩] }

/-- A data write of a descriptor joins its function's queue; its bytes were counted against RATE_CAP with its burst. -/
def State.egressData (s : State) (p f b size : Nat) (o : Out) : State :=
  s.modPort p fun x => { x with egress := x.egress ++ [⟨f, b, size, 0, true, none, none, o⟩] }

/-- A non-posted request of a bench joins its function's queue: it waits there for a tag (01 R31; 08 Table 2), and keeps its place behind earlier writes (04 R102, R103). -/
def State.egressRead (s : State) (b : Nat) (owner : TagOwner) (o : Out) : State :=
  s.modPort (s.bench b).port fun x => { x with egress := x.egress ++ [⟨s.reqFn b, b, 16, 0, false, some owner, none, o⟩] }

/-- A posted write of the bench joins its function's queue. -/
def State.benchWrite (s : State) (b addr : Nat) (attr : TlpAttr) (data : List Byte) : State :=
  s.egress (s.bench b).port (s.reqFn b) b data.length 0 (.hostWrite (s.bench b).port (s.reqFn b) attr addr data)

/-- A link that carries a host. -/
def LinkState.isUp (l : LinkState) : Bool := l == .l0 || l == .l1 || l == .l2 || l == .recovery

/-- Attributes of a request at an untranslated address that keeps its order. -/
def plainAttr : TlpAttr := ⟨false, false⟩

/-- One write of a notice of the bench joins its function's queue; `last`: the second, with PHASE (05 R150). -/
def State.egressNotice (s : State) (b : Nat) (last : Bool) (addr : Nat) (data : List Byte) : State :=
  let p := (s.bench b).port
  let f := s.reqFn b
  s.modPort p fun x => { x with egress := x.egress ++ [⟨f, b, data.length, 0, false, none, some last, .hostWrite p f plainAttr addr data⟩] }

/-- A flush read: one dword with no byte enabled, at the dword of an address (04 R102). -/
def State.flushRead (s : State) (b : Nat) (owner : TagOwner) (translated : Bool) (addr : Nat) : State :=
  s.egressRead b owner (.hostRead (s.bench b).port (s.reqFn b) 0 ⟨false, translated⟩ (addr / 4 * 4) 4 0 0)

/-- Bytes of a largest host request by its PCIe code. -/
def pcieSize (code : BitVec 3) : Nat := 128 * 2 ^ code.toNat

/-- Non-posted requests a port can have outstanding (01 R31; 04 Table 1). -/
def Port.tagLimit (p : Port) : Nat := if p.flit then 2048 else 768

/-- The lowest tag that is not in use. -/
def lowestTag (used : List Nat) : Nat → Nat → Option Nat
  | 0, _ => none
  | n + 1, t => if used.contains t then lowestTag used n (t + 1) else some t

/-- A tag is free at the port. -/
def Port.tagFree (p : Port) : Bool := decide (p.tags.length < p.tagLimit)

/-- Reads of `n` bytes of host memory that one command issues for a function of a port and has answered (DESIGN CHOICE, log entry 5): each of at most the port's MRRS, inside a 4 KiB page and of whole dwords, under the lowest free tag, which is free again at the end. -/
def State.readFrom (s : State) (p f : Nat) (attr : TlpAttr) : Nat → Nat → Nat → State
  | 0, _, _ => s
  | fuel + 1, addr, n =>
    if n = 0 then s else
    let u := min 4096 (pcieSize (s.port p).mrrs)
    let k := min n (u - addr % u)
    let len := (addr % 4 + k + 3) / 4 * 4
    let t := (lowestTag ((s.port p).tags.map TagUse.tag) (s.port p).tagLimit 0).getD 0
    (s.emit (.hostRead p f t attr (addr / 4 * 4) len 0xF (if len = 4 then 0 else 0xF))).readFrom p f attr fuel (addr + k) (n - k)

/-- The same for a bench's function. -/
def State.readHost (s : State) (b : Nat) (attr : TlpAttr) (fuel addr n : Nat) : State := s.readFrom (s.bench b).port (s.reqFn b) attr fuel addr n

/-- The request with its tag. -/
def Out.withTag (t : Nat) : Out → Out
  | .hostRead p f _ a addr n fb lb => .hostRead p f t a addr n fb lb
  | .atsRequest p f _ q addr w => .atsRequest p f t q addr w
  | o => o

/-- What leaves the port of a queued TLP: a non-posted request takes a free tag, the lowest (DESIGN CHOICE, log entry 74: the spec names no order of tags). -/
def State.tagOut (s : State) (p : Nat) (t : EgressTlp) : Out × State :=
  match t.owner with
  | none => (t.tlp, s)
  | some o =>
    let n := (lowestTag ((s.port p).tags.map TagUse.tag) (s.port p).tagLimit 0).getD 0
    (t.tlp.withTag n, s.modPort p fun q => { q with tags := q.tags ++ [⟨n, t.fn, t.bench, o, false⟩] })

/-- What the port's non-posted requests are for: those waiting for a tag and those outstanding. -/
def Port.owners (p : Port) : List TagOwner := p.egress.filterMap EgressTlp.owner ++ (p.tags.filter fun u => !u.chaff).map TagUse.owner

/-- The use of a tag. -/
def State.tagUse (s : State) (p t : Nat) : Option TagUse := (s.port p).tags.find? fun u => u.tag == t

/-- The tag is freed. -/
def State.freeTag (s : State) (p t : Nat) : State :=
  s.modPort p fun x => { x with tags := x.tags.filter fun u => u.tag != t }

/-- An error that AER corrects without loss (04 Table 9). -/
def aerCorrectable (e : AerError) : Bool :=
  [AerError.receiver, .badTlp, .badDllp, .replayTimeout, .replayRollover, .correctableFlit].contains e

/-- The severity that a function reports an error with (04 R117). -/
def Fn.severity (x : Fn) (e : AerError) : Severity :=
  if aerCorrectable e then .correctable else if x.fatal.contains e then .fatal else .nonFatal

/-- An error is logged and reported through AER on a function (04 R117). -/
def State.aer (s : State) (p f : Nat) (e : AerError) : State :=
  (s.modFn p f fun x => { x with aer := x.aer ++ [e] }).emit (.errorMessage p f e ((s.fnAt p f).severity e))

/-! ### Vectors (04 R111–R113) -/

/-- The vector may send: MSI-X enabled, unmasked, and its bench may use its port (04 R112). -/
def State.vectorOpen (s : State) (b v : Nat) : Bool :=
  let x := s.bench b
  let f := s.fnAt x.port x.fn
  f.msixEn && !f.msixMask && !(tabGet x.msix.table .reset v).mask && s.mayUsePort b

/-- The message of a vector joins the queue and its MOD_FLOOR_NS interval begins (04 R111, R112; 22 R609). -/
def State.sendVector (s : State) (b v : Nat) : State :=
  let x := s.bench b
  let e := tabGet x.msix.table .reset v
  let addr := (e.addrLo.toNat / 4 * 4) + 2 ^ 32 * e.addrHi.toNat
  let s := s.egress x.port (s.reqFn b) b 4 0 (.msix x.port (s.reqFn b) addr e.data)
  if (s.qosOf b).modFloorNs = 0 then s
  else s.modBench b fun y => { y with msix := { y.msix with inFloor := y.msix.inFloor ||| (1#32 <<< v) } }

/-- A vector fires (04 R112): its PBA bit is set where it may not send; inside its floor it is held; else it sends. While the bench is detached the firing is dropped (12 Table 1). -/
def State.fireVector (s : State) (b v : Nat) : State :=
  if (s.bench b).detached then s
  else if !s.vectorOpen b v then s.modBench b fun y => { y with msix := { y.msix with pba := y.msix.pba ||| (1#32 <<< v) } }
  else if (s.bench b).msix.inFloor.getLsbD v then
    s.modBench b fun y => { y with msix := { y.msix with heldMsg := y.msix.heldMsg ||| (1#32 <<< v) } }
  else s.sendVector b v

/-- A pending vector that may send now does (04 R112). -/
def State.flushVector (s : State) (b v : Nat) : State :=
  if (s.bench b).msix.pba.getLsbD v && s.vectorOpen b v then
    (s.modBench b fun y => { y with msix := { y.msix with pba := y.msix.pba &&& ~~~(1#32 <<< v) } }).fireVector b v
  else s

/-- Every pending vector of a bench that may send now does. -/
def State.flushVectors (s : State) (b : Nat) : State := (List.range 32).foldl (fun s v => s.flushVector b v) s

/-- Held messages are discarded and PBA bits cleared (04 R113). -/
def State.dropVectors (s : State) (b : Nat) : State :=
  s.modBench b fun y => { y with msix := { y.msix with pba := 0, heldMsg := 0 } }

/-! ### Notices (05 R149–R152) -/

/-- RING of a notice that names no ring (05 Table 9). -/
def noRing : Nat := 0xFFFF

/-- A posted notice asserts its port's WAKE_N while the link is in L2, or the function in D3hot with PME enabled (04 R121). -/
def State.wakeHost (s : State) (b : Nat) : State :=
  let x := s.bench b
  let f := s.fnAt x.port x.fn
  if (s.port x.port).link = .l2 ∨ (f.d3hot ∧ f.pmeEn) then s.modPort x.port fun p => { p with wake := true } else s

/-- A notice is made for a bench that is not VACANT: it takes the next SEQ and enters the pending store of 64, or is lost (05 R151, R152). -/
def State.notice (s : State) (b type cause ring : Nat) (arg0 : BitVec 64) (arg1 : BitVec 32) (subject : Nat) : State :=
  if (s.bench b).state == .vacant then s else
  (s.wakeHost b).modBench b fun x =>
    let q := x.notices
    if q.pending.length + q.writing.toList.length < 64 then
      { x with notices := { q with
          seq := q.seq + 1, pending := q.pending ++ [⟨type, cause, ring, q.seq, s.hearth.time, arg0, arg1, subject⟩] } }
    else
      { x with
        notices := { q with seq := q.seq + 1, lost := q.lost + 1, firstLost := if q.lost = 0 then q.seq else q.firstLost }
        counters := { x.counters with noticeLost := x.counters.noticeLost + 1 } }

/-- What a discarded notice adds to the losses that the next OVERFLOW reports: an OVERFLOW not yet written gives its own back (05 R152). -/
def Notice.lossOf (n : Notice) : BitVec 32 × Nat := if n.type = 0x10 then (n.arg0.setWidth 32, n.arg1.toNat + 1) else (n.seq, 1)

/-- The pending notices are discarded and covered by the next OVERFLOW (05 R152). -/
def NoticeQ.discard (q : NoticeQ) : NoticeQ :=
  match (if q.lost = 0 then [] else [(q.firstLost, q.lost)]) ++ (q.writing.toList ++ q.pending).map Notice.lossOf with
  | [] => q
  | g :: r => { q with
      pending := [], writing := none, lost := r.foldl (fun n x => n + x.2) g.2
      firstLost := r.foldl (fun m x => if x.1.toNat < m.toNat then x.1 else m) g.1 }

/-- Entries of a notice queue. -/
def NoticeQ.size (q : NoticeQ) : Nat := 2 ^ q.log2.toNat

/-- A write of a notice of the bench waits for its turn at the port. -/
def State.noticeQueued (s : State) (b : Nat) : Bool := (s.port (s.bench b).port).egress.any fun t => t.bench == b && t.notice.isSome

/-- NOTICE_CTRL.ENABLE takes effect (05 R149, R152; 22 R597): an enable with LOG2 outside 4–12 leaves 0 and is counted; another sets HEAD and TAIL to 0. -/
def State.setNotices (s : State) (b : Nat) (on : Bool) : State :=
  let l := (s.bench b).notices.log2.toNat
  let s := s.modBench b fun x => { x with notices := { x.notices with enable := on && decide (4 ≤ l) && decide (l ≤ 12), ctrlWait := none } }
  if ¬ on then s
  else if l < 4 ∨ 12 < l then s.countBench b
  else s.modBench b fun x => { x with notices := { x.notices with head := 0, tail := 0, phase := true } }

/-- NOTICE_CTRL written: it waits until both writes of a notice in progress have been issued (22 R597). -/
def State.putNoticeCtrl (s : State) (b : Nat) (on : Bool) : State :=
  if s.noticeQueued b then s.modBench b fun x => { x with notices := { x.notices with ctrlWait := some on } } else s.setNotices b on

/-- A write of NOTICE_CTRL that waited takes effect, no notice being in progress any more. -/
def State.settleNotices (s : State) (b : Nat) : State :=
  match (s.bench b).notices.ctrlWait with
  | some on => if s.noticeQueued b then s else s.setNotices b on
  | none => s

/-- Notice writes still queued are withdrawn: their function has stopped issuing; the notice is written again whole (05 R150), and a write of NOTICE_CTRL waits for it no longer. -/
def State.unwriteNotices (s : State) (p : Nat) (f : EgressTlp → Bool) : State :=
  let benches := ((s.port p).egress.filter fun t => t.notice.isSome && f t).map EgressTlp.bench
  let s := s.modPort p fun x => { x with egress := x.egress.filter fun t => t.notice.isNone || !f t }
  benches.foldl State.settleNotices s

/-- The second write of a notice has been issued (05 R150): it leaves the pending store, NOTICE_TAIL advances, PHASE inverts at the wrap, vector 0 fires. -/
def State.noticeDone (s : State) (b : Nat) : State :=
  ((s.modBench b fun x =>
    let q := x.notices
    { x with notices := { q with
        writing := none, tail := q.tail + 1, phase := if q.tail.toNat % q.size + 1 = q.size then !q.phase else q.phase } }).fireVector b 0).settleNotices b

/-! ### The error log and HUB_FAULT_N (17 R507, R508) -/

/-- A cause of HUB_FAULT_N begins to hold. -/
def State.addFault (s : State) (c : FaultCause) : State :=
  if s.recovery.faults.contains c then s
  else { s with recovery := { s.recovery with faults := s.recovery.faults ++ [c] } }

/-- A cause of HUB_FAULT_N ends. -/
def State.endFault (s : State) (c : FaultCause) : State :=
  { s with recovery := { s.recovery with faults := s.recovery.faults.filter fun d => d != c } }

/-- HUB_FAULT_N is asserted. -/
def State.hubFault (s : State) : Bool := !s.recovery.faults.isEmpty

/-- HEARTH_ALERT_N is asserted: the reference is lost, or the thermal cause holds (03 R60, R86). -/
def State.hearthAlert (s : State) : Bool := s.hearth.refLost || s.hearth.thermalAlert

/-- An entry is written to the log and its mirror, and makes a HUB_ERROR notice to bench 0 (17 R507, R508). Codes number the codes of 17 Table 8 from 1 in their order (log entry 22). -/
def State.logEntry (s : State) (cls code : Nat) (fault : Bool) (arg0 arg1 : BitVec 64) : State :=
  let q := s.recovery.logSeq
  let e : LogEntry := ⟨q, cls, code, fault, false, s.now, arg0, arg1⟩
  let s := { s with recovery := { s.recovery with
    log := tabSet (q.toNat % 1024) (some e) s.recovery.log
    mirror := tabSet (q.toNat % 64) (some e) s.recovery.mirror
    logSeq := q + 1 } }
  s.notice 0 0x0E cls noRing (BitVec.ofNat 64 (q.toNat % 1024)) 0 0

/-- An entry that asserts nothing. -/
def State.logError (s : State) (cls code : Nat) (arg0 arg1 : BitVec 64) : State := s.logEntry cls code false arg0 arg1

/-- An entry that asserts HUB_FAULT_N until it is read (17 Table 8). -/
def State.logFault (s : State) (cls code : Nat) (arg0 arg1 : BitVec 64) : State :=
  (s.addFault (.entry s.recovery.logSeq)).logEntry cls code true arg0 arg1

/-- An entry that asserts HUB_FAULT_N for a cause of its own. -/
def State.logCause (s : State) (cls code : Nat) (c : FaultCause) (arg0 arg1 : BitVec 64) : State :=
  (s.addFault c).logEntry cls code true arg0 arg1

/-- The entry with this SEQ counts as read in both copies; a HUB_FAULT_N cause that it held ends, of a clock or thermal entry only once the restart is over (17 R507, R508 Table 8). -/
def State.markRead (s : State) (q : BitVec 32) : State :=
  let f : Option LogEntry → Option LogEntry := fun o => o.map fun e => if e.seq = q then { e with read := true } else e
  let early := s.chip.phase == .restarting && ((tabGet s.recovery.mirror none (q.toNat % 64)).map fun e => e.seq == q && (e.cls == 1 || e.cls == 2)).getD false
  let s := { s with recovery := { s.recovery with
    log := tabMod none (q.toNat % 1024) f s.recovery.log
    mirror := tabMod none (q.toNat % 64) f s.recovery.mirror } }
  if early then s else s.endFault (.entry q)

/-! ### Retraining in place (13 R386; 16 R455) -/

/-- A spindle port that is UP begins to retrain in place. -/
def Spindle.retrain (x : Spindle) : Spindle := if x.state = .up then { x with state := .recovery, crcRun := 0 } else x

/-- An Envan link that is UP begins to retrain in place. -/
def Envan.retrain (x : Envan) : Envan := if x.state = .up then { x with state := .recovery, crcRun := 0 } else x

/-! ### Uncorrectable ledger errors (17 R510; 18 R518) -/

/-- First byte of ledger memory (01 R24). -/
def ledgerBase : Nat := 2 ^ 41

/-- Where a byte of the billet memory lies in ledger memory. -/
def ledgerOff (k : Nat) : Nat := Config.billetHome (k / 2 ^ 20) * 2 ^ 20 + k % 2 ^ 20

/-- The SPA of a byte of the billet memory. -/
def ledgerSpa (k : Nat) : BitVec 64 := BitVec.ofNat 64 (ledgerBase + ledgerOff k)

/-- LEDGER_UE, with the SPA in ARG0. -/
def State.logLedgerUe (s : State) (spa : BitVec 64) : State := s.logError 0x3 2 spa 0

/-- LEDGER_UE for a read that ended with DETAIL LEDGER_ECC. -/
def State.logLoad (s : State) (code detail : Nat) (spa : BitVec 64) : State :=
  if code = 0x22 ∧ detail = 4 then s.logLedgerUe spa else s

/-- The first block among these bytes of ledger memory that the scrub has marked, by its offset there. -/
def Recovery.markIn (r : Recovery) (p n : Nat) : Option Nat :=
  ((r.marked.map fun k => 256 * k).filter fun k => decide (k < p + n) && decide (p < k + 256)).min?

/-- A write of these bytes of the billet memory, whole blocks of which are marked no longer. -/
def State.clearMarks (s : State) (k n : Nat) : State :=
  let p := ledgerOff k
  { s with recovery := { s.recovery with marked := s.recovery.marked.filter fun b => !(decide (p ≤ 256 * b) && decide (256 * b + 256 ≤ p + n)) } }

/-! ### Weighted arbiters (05 R142) -/

/-- Charges are kept exactly: the size of a grant times this common multiple of every weight, divided by the weight. -/
def chargeScale : Nat := 8337245403447921335829504375888192675135162254454825924977726845769444687965016467695833282339504042669808000

/-- The benches that begin to wait take their charge: the larger of what they kept and the smallest charge among those waiting; without a kept charge, the smallest, or 0. Those that stop waiting keep theirs. -/
def arbJoin (c : Tab Charge) (waiting : List Nat) : Tab Charge :=
  let old := waiting.filter fun b => (tabGet c .reset b).waiting
  let low := (old.map fun b => ((tabGet c .reset b).kept).getD 0).min?
  let join := fun (c : Tab Charge) (b : Nat) =>
    let x := tabGet c .reset b
    if x.waiting then c
    else
      let v := match x.kept, low with
        | some k, some m => max k m
        | some k, none => k
        | none, some m => m
        | none, none => 0
      tabSet b ⟨some v, true⟩ c
  (waiting.foldl join c).map fun e => if waiting.contains e.1 then e else (e.1, { e.2 with waiting := false })

/-- `a` is served before `b`: the smaller charge, then the lower QoS class number, then the lower bench number. -/
def arbBefore (c : Tab Charge) (qos : Nat → Nat) (a b : Nat) : Bool :=
  let ca := ((tabGet c .reset a).kept).getD 0
  let cb := ((tabGet c .reset b).kept).getD 0
  decide (ca < cb) || (ca == cb && (decide (qos a < qos b) || (qos a == qos b && decide (a ≤ b))))

/-- The bench served next. -/
def arbPick (c : Tab Charge) (qos : Nat → Nat) : List Nat → Option Nat
  | [] => none
  | b :: r => some (r.foldl (fun m x => if arbBefore c qos m x then m else x) b)

/-- A grant of `size` charged to a bench of this weight. -/
def arbCharge (c : Tab Charge) (b size weight : Nat) : Tab Charge :=
  tabMod .reset b (fun x => { x with kept := some (x.kept.getD 0 + size * chargeScale / max weight 1) }) c

/-- The bench leaves the arbiter with its charge discarded (05 R145). -/
def arbLeave (c : Tab Charge) (b : Nat) : Tab Charge := tabDel b c

/-- The charges of an arbiter. -/
def State.arbiter (s : State) (k : Nat) : Tab Charge := tabGet s.charges [] k
/-- Arbiter of a lathe's burst grants. -/
def arbLathe (l : Nat) : Nat := l
/-- Arbiter of a host port's egress. -/
def arbEgress (p : Nat) : Nat := 100 + p
/-- Arbiter of Headstock miss slots. -/
def arbMiss : Nat := 200
/-- Arbiter of walkers. -/
def arbWalker : Nat := 201
/-- Arbiter of a spindle port's MEM and SCR credits. -/
def arbSpindle (d : Nat) : Nat := 210 + d

/-- One round of an arbiter: the waiting benches join, and the one served next is named. -/
def State.arbitrate (s : State) (k : Nat) (waiting : List Nat) : Option Nat × State :=
  let c := arbJoin (s.arbiter k) waiting
  (arbPick c s.qosNumber waiting, { s with charges := tabSet k c s.charges })

/-- A grant of an arbiter charged. -/
def State.charge (s : State) (k b size weight : Nat) : State :=
  { s with charges := tabSet k (arbCharge (s.arbiter k) b size weight) s.charges }

/-- The bench's charges are discarded at every arbiter (05 R145). -/
def State.leaveArbiters (s : State) (b : Nat) : State :=
  { s with
    charges := s.charges.map fun e => (e.1, arbLeave e.2 b)
    dense := { s.dense with charges := arbLeave s.dense.charges b }
    lattice := { s.lattice with charges := arbLeave s.lattice.charges b } }

/-! ### The MEM and SCR credits of a spindle port (13 R375, R376) -/

/-- What the answer to a request names. -/
def DieMsg.key : DieMsg → PortKey
  | .read l n _ _ => .lathe l n false
  | .write l n _ _ => .lathe l n true
  | .writeMasked l n _ _ => .lathe l n true
  | .hubRead id _ _ => .hub id
  | .xltForward id _ _ _ _ => .hub id
  | .hubWrite id _ _ => .put (id.getD 0)
  | .dapRead _ => .dap
  | _ => .scrub

/-- First byte and length of the data that a request carries to the die. -/
def DieMsg.carries : DieMsg → Nat × Nat
  | .write _ _ o d => (o, d.length)
  | .writeMasked _ _ o d => (o, d.length)
  | .hubWrite _ o d => (o, d.length)
  | .xltForward _ o _ w d => (o, if w then d.length else 0)
  | _ => (0, 0)

/-- Blocks of 256 bytes that a request carries. -/
def DieMsg.blocks (m : DieMsg) : Nat :=
  if m.carries.2 = 0 then 0 else (m.carries.1 + m.carries.2 - 1) / 256 - m.carries.1 / 256 + 1

/-- Bytes that a request moves. -/
def DieMsg.moves : DieMsg → Nat
  | .read _ _ _ n => n
  | .hubRead _ _ n => n
  | .xltForward _ _ n _ _ => n
  | .dapRead _ => 64
  | m => m.carries.2

/-- Headers and blocks in use, of the reserved credits or of the others. -/
def Spindle.inUse (x : Spindle) (reserved : Bool) : Nat × Nat :=
  let l := x.sent.filter fun u => u.reserved == reserved
  (l.length, l.foldl (fun n u => n + u.blocks) 0)

/-- Credits are free for a request (13 Table 2): of 384 headers and 1,024 blocks, 64 and 256 are kept for forwarded core requests. -/
def Spindle.room (x : Spindle) (reserved : Bool) (blocks : Nat) : Bool :=
  decide ((x.inUse reserved).1 < if reserved then 64 else 320) && decide ((x.inUse reserved).2 + blocks ≤ if reserved then 256 else 768)

/-- The request that the port serves next, and whether it takes reserved credits (13 R376): a core request that the reserved ones admit; a request made for no bench once eight of benches were granted, or where none waits; else the oldest of the bench that R142 serves. -/
def State.nextPort (s : State) (d : Nat) : Option (PortReq × Bool) × State :=
  let x := s.die d
  if x.state ≠ .up then (none, s) else
  match x.queue.find? fun q => q.core && x.room true q.msg.blocks with
  | some q => (some (q, true), s)
  | none =>
    let benches := (x.queue.filterMap PortReq.bench).dedup
    match x.queue.find? fun q => q.bench.isNone && (benches.isEmpty || decide (8 ≤ x.turns)) with
    | some q => (if x.room false q.msg.blocks then some (q, false) else none, s)
    | none =>
      let (pick, s) := s.arbitrate (arbSpindle d) benches
      (((pick.bind fun b => x.queue.find? fun q => q.bench == some b).filter fun q => x.room false q.msg.blocks).map fun q => (q, false), s)

/-- A request is sent with its credits. -/
def State.grantPort (s : State) (d : Nat) (q : PortReq) (reserved : Bool) : State :=
  let s := s.modDie d fun x => { x with
    queue := x.queue.erase q, sent := x.sent ++ [⟨q.msg.key, q.msg.blocks, reserved, s.now, q.bench⟩]
    turns := if q.bench.isNone then 0 else if reserved then x.turns else x.turns + 1 }
  let s := match q.bench with
    | some b => if reserved then s else s.charge (arbSpindle d) b q.msg.moves (s.qosOf b).latheWeight
    | none => s
  s.sendDie d q.msg

/-- Requests are served while credits are free. -/
def State.pumpPort (s : State) (d : Nat) : Nat → State
  | 0 => s
  | n + 1 =>
    match s.nextPort d with
    | (none, s) => s
    | (some (q, r), s) => (s.grantPort d q r).pumpPort d n

/-- Numbers of the hub's writes that wait at a spindle port, or for their acknowledgement. -/
def State.portPuts (s : State) : List Nat :=
  s.spindles.flatMap fun e => (e.2.sent.map PortUse.key ++ e.2.queue.map fun q => q.msg.key).filterMap fun k =>
    match k with
    | .put id => some id
    | _ => none

/-- The hub's writes that were asked for from `s` to `t`. -/
def State.putsSince (s t : State) : List Nat := t.portPuts.filter fun k => !s.portPuts.contains k

/-- Number of a write of the hub: one that none under way has. -/
def State.nextPut (s : State) : Nat :=
  let used := s.bar2Writes.map Bar2Put.id ++ s.portPuts
  (lowestTag used (used.length + 1) 0).getD 0

/-- A MEM or SCR request for a bench, or for none, joins those that wait for the port's credits (13 R375, R376). -/
def State.askDie (s : State) (d : Nat) (bench : Option Nat) (core : Bool) (m : DieMsg) : State :=
  let m := match m with
    | .hubWrite none o data => .hubWrite (some s.nextPut) o data
    | m => m
  let s := s.modDie d fun x => { x with queue := x.queue ++ [⟨bench, core, m⟩] }
  s.pumpPort d (s.die d).queue.length

/-- The request waits at a port and was not sent. -/
def State.unsent (s : State) (k : PortKey) : Bool := s.spindles.any fun e => e.2.queue.any fun q => q.msg.key == k

/-- Numbers of reads of the hub and of forwarded core requests that a spindle port still holds credits for. -/
def State.hubKeys (s : State) : List Nat :=
  s.spindles.flatMap fun e => (e.2.sent.map PortUse.key ++ e.2.queue.map fun q => q.msg.key).filterMap fun k =>
    match k with
    | .hub id => some id
    | _ => none

/-- A request has been answered: its credits are free. -/
def State.portDone (s : State) (k : PortKey) : State :=
  match s.spindles.find? fun e => e.2.sent.any fun u => u.key == k with
  | none => s
  | some (d, _) =>
    let s := s.modDie d fun x => { x with sent := x.sent.eraseP fun u => u.key == k }
    s.pumpPort d (s.die d).queue.length

/-! ### The debug access port (20 R552) -/

/-- The debug access port changed. -/
def State.modDebug (s : State) (f : Debug → Debug) : State := { s with dbg := f s.dbg }

/-- 64 bytes of ones. -/
def ones64 : List Byte := List.replicate 64 0xFF

/-- A DAP read of a hole, or of a die that is not UP: all ones and HOLE. -/
def Debug.atHole (d : Debug) : Debug := { d with busy := false, hole := true, data := ones64 }

/-- A DAP read of a domain that is off: all ones and ASLEEP. -/
def Debug.atSleep (d : Debug) (data : List Byte) : Debug := { d with busy := false, asleep := true, data := data }

/-! ### The event trace (20 R563) -/

/-- Mask bit of a trace event (20 Table 5). -/
def traceBit (event : Nat) : Nat := if event ≤ 5 then event - 1 else if event = 8 then 6 else 5

/-- Bytes 0x00–0x1B of a trace record (20 Table 4). -/
def traceBytes (time : BitVec 64) (b ring event : Nat) (desc : BitVec 32) (arg0 : BitVec 64) (arg1 : BitVec 32) : List Byte :=
  leBytes 8 time.toNat ++ leBytes 2 b ++ leBytes 1 ring ++ leBytes 1 event ++ leBytes 4 desc.toNat ++ leBytes 8 arg0.toNat ++ leBytes 4 arg1.toNat

/-- One record for the trace ring of bench `o`: two writes, PHASE last; dropped and counted where the ring is full or the bench is detached. -/
def State.traceTo (s : State) (o b ring event : Nat) (desc : BitVec 32) (arg0 : BitVec 64) (arg1 : BitVec 32) : State :=
  let x := s.bench o
  let t := x.trace
  if ¬ t.enable ∨ ¬ t.mask.getLsbD (traceBit event) then s
  else if x.detached ∨ (t.tail - t.head).toNat = 2 ^ t.log2.toNat then
    s.modBench o fun x => { x with trace := { x.trace with lost := x.trace.lost + 1 } }
  else
    let k := t.tail.toNat % 2 ^ t.log2.toNat
    let a := t.base.toNat + 32 * k
    let s := s.egress x.port (s.reqFn o) o 28 28 (.hostWrite x.port (s.reqFn o) plainAttr a (traceBytes s.now b ring event desc arg0 arg1))
    let s := s.egress x.port (s.reqFn o) o 4 4 (.hostWrite x.port (s.reqFn o) plainAttr (a + 28) (leBytes 4 (if t.phase then 2 ^ 31 else 0)))
    s.modBench o fun x => { x with trace := { x.trace with
      tail := t.tail + 1, phase := if k + 1 = 2 ^ t.log2.toNat then !t.phase else t.phase } }

/-- An event of bench `b` is recorded in its own trace ring, and in that of bench 0 where ALL is set. -/
def State.trace (s : State) (b ring event : Nat) (desc : BitVec 32) (arg0 : BitVec 64) (arg1 : BitVec 32) : State :=
  let s := s.traceTo b b ring event desc arg0 arg1
  if b ≠ 0 ∧ (s.bench 0).trace.all then s.traceTo 0 b ring event desc arg0 arg1 else s

/-! ### RATE_CAP (05 R144) -/

/-- Bytes the bucket holds at most: the larger of 1 ms of the cap and 64 KiB. -/
def bucketMax (cap : Nat) : Int := max (cap * 1000 : Nat) 65536

/-- A burst or TLP of the bench may start: it has no cap, or its bucket is not negative. -/
def Bench.rateOpen (x : Bench) : Bool := x.limits.rateCap == 0 || decide (0 ≤ x.bucket)

/-- The length of a started burst is subtracted. -/
def State.rateCharge (s : State) (b n : Nat) : State :=
  s.modBench b fun x => if x.limits.rateCap = 0 then x else { x with bucket := x.bucket - n }

end Sys2Proof.Machine
end

