-- ==== Sys2Proof/Machine/BenchOps.lean ====
section
/-!
DEFINITION. Benches: the arguments of bench commands, their checks, formation, the mailbox's end (05).
-/

namespace Sys2Proof.Machine

/-- The fields of BENCH_CMD_ARG (21 R580 Table 14). -/
structure BenchArg where
  /-- BENCH -/
  bench : Nat
  /-- HUB -/
  hub : Nat
  /-- CLASS -/
  cls : Nat
  /-- PORT -/
  port : Nat
  /-- FUNCTION -/
  fn : Nat
  /-- RING_COUNT -/
  rings : Nat
  /-- OPTIONS -/
  options : Nat
  /-- DIE -/
  die : Nat
  /-- OFFSET -/
  offset : Nat
  /-- LENGTH -/
  length : Nat
  /-- BAR2_DVA_BASE -/
  bar2 : Nat
  /-- the adjustable limits -/
  limits : Limits
  /-- a reserved byte or bit is not zero -/
  reserved : Bool
  deriving DecidableEq, Repr

/-- BENCH_CMD_ARG read as its fields. -/
def benchArg (a : List Byte) : BenchArg :=
  { bench := field a 0x00 1, hub := field a 0x01 1, cls := field a 0x02 1, port := field a 0x03 1,
    fn := field a 0x04 1, rings := field a 0x05 1, options := field a 0x06 1, die := field a 0x07 1,
    offset := field a 0x08 8, length := field a 0x10 8, bar2 := field a 0x18 8,
    limits := ⟨BitVec.ofNat 64 (field a 0x20 8), BitVec.ofNat 32 (field a 0x28 4), BitVec.ofNat 32 (field a 0x2C 4),
      BitVec.ofNat 16 (field a 0x30 2), BitVec.ofNat 16 (field a 0x32 2)⟩
    reserved := decide (field a 0x06 1 ≥ 4) || decide (field a 0x34 12 ≠ 0) }

/-- RESULT codes (05 Table 7). -/
def resOk : Nat := 0x00
def resBadBench : Nat := 0x01
def resBadState : Nat := 0x02
def resNoClass : Nat := 0x03
def resBadFunction : Nat := 0x04
def resBound : Nat := 0x05
def resNoRings : Nat := 0x06
def resNoFaultSpace : Nat := 0x07
def resOverClass : Nat := 0x08
def resInUse : Nat := 0x09
def resNotAllowed : Nat := 0x0A
def resNoLedger : Nat := 0x0B
def resOverQuota : Nat := 0x0C
def resRange : Nat := 0x0D
def resNoGuestSlot : Nat := 0x0E

/-- MAX_BENCHES of the image; 1 under factory defaults (05 R122). -/
def State.maxBenches (s : State) : Nat := (s.chip.cfg.map ImageCfg.maxBenches).getD 0

/-- A class of the image. -/
def State.findClass (s : State) (id : Nat) : Option BenchClass :=
  (s.chip.cfg.map ImageCfg.classes).bind fun l => l.find? fun c => c.classId == id

/-- The management function: its port and function (05 R122). -/
def State.mgmtFn (s : State) : Nat × Nat := ((s.chip.cfg.map fun c => (c.mgmtPort, c.mgmtFunction)).getD (0, 0))

/-- A function exists under the image: a present port, and function 0 or a VF up to its VF_COUNT (05 R123). -/
def State.fnExists (s : State) (p f : Nat) : Bool :=
  decide (p < s.nPorts) && decide (f ≤ (((s.chip.cfg.map ImageCfg.vfCount).getD [])[p]?).getD 0) &&
    (((s.chip.cfg.map ImageCfg.defaults).getD true) → p = 0)

/-- A limit above its class value, or RATE_CAP 0 in a capped class (05 Table 7). -/
def limitsOver (l : Limits) (c : BenchClass) : Bool :=
  decide (c.dieMemQuota < l.dieMem.toNat) || decide (c.billetQuota < l.billet.toNat) ||
  decide (c.channelQuota < l.channels.toNat) || decide (c.coreLimit < l.cores.toNat) ||
  (c.rateCap != 0 && (l.rateCap == 0 || decide (c.rateCap < l.rateCap.toNat)))

/-- BAR2_DVA_BASE keeps 04 R97. -/
def bar2Ok (base : Nat) : Bool := base % 2 ^ 21 == 0 && decide (base + 2 ^ 36 ≤ 2 ^ 48)

/-- The ring contexts in use: the tallies of kind 0x01. -/
def State.contextsUsed (s : State) : List Nat :=
  (s.recovery.tallies.filter fun t => t.kind == 0x01 && t.state == .held).map fun t => t.resource.toNat

/-- The lowest `n` numbers of `[base, base + fuel)` that are not used. -/
def lowestFree (used : List Nat) : Nat → Nat → Nat → List Nat
  | 0, _, _ => []
  | fuel + 1, base, n =>
    if n = 0 then [] else
    if used.contains base then lowestFree used fuel (base + 1) n
    else base :: lowestFree used fuel (base + 1) (n - 1)

/-- Ring contexts of cluster A that are free (08 R228). -/
def State.freeA (s : State) : Nat := 1024 - (s.contextsUsed.filter fun c => decide (c < 1024)).length
/-- Ring contexts of cluster B that are free. -/
def State.freeB (s : State) : Nat :=
  if s.big then 1024 - (s.contextsUsed.filter fun c => decide (1024 ≤ c)).length else 0

/-- The contexts a FORM takes: all from one cluster where one has enough, the one with more free, or A on a tie; else from the one with more free first (08 R229). -/
def State.chooseContexts (s : State) (n : Nat) : List Nat :=
  let a := lowestFree s.contextsUsed 1024 0
  let b := lowestFree s.contextsUsed (if s.big then 1024 else 0) 1024
  let bFirst := decide (s.freeA < s.freeB)
  if n ≤ s.freeA ∨ n ≤ s.freeB then (if bFirst then b n else a n)
  else if bFirst then b s.freeB ++ a (n - s.freeB) else a s.freeA ++ b (n - s.freeA)

/-- Fault-queue entries reserved by every bench not VACANT (05 R147). -/
def State.faultReserved (s : State) : Nat :=
  s.liveBenches.foldl (fun n b => n + ((s.classOf b).map BenchClass.faultShare).getD 0) 0

/-- The checks of FORM, in the order of 05 R140 step 1. -/
def State.formCheck (s : State) (a : BenchArg) : Nat :=
  if s.maxBenches ≤ a.bench ∨ a.bench = 0 then resBadBench else
  if (s.bench a.bench).state ≠ .vacant then resBadState else
  match s.findClass a.cls with
  | none => resNoClass
  | some c =>
    if c.mgmt ∨ (a.options % 2 = 1 ∧ ¬ c.keepAllowed) then resNotAllowed else
    if ¬ s.fnExists a.port a.fn ∨ (a.port, a.fn) = s.mgmtFn then resBadFunction else
    if (s.benchOf a.port a.fn).isSome then resBound else
    if limitsOver a.limits c ∨ a.rings = 0 ∨ c.maxRings < a.rings ∨ a.reserved then resOverClass else
    if ¬ bar2Ok a.bar2 then resRange else
    if s.freeA + s.freeB < a.rings then resNoRings else
    if s.nFaults < s.faultReserved + c.faultShare then resNoFaultSpace else resOk

/-- Bytes of RATE_CAP's bucket when it starts full (05 R144). -/
def fullBucket (l : Limits) : Int := if l.rateCap = 0 then 0 else bucketMax l.rateCap.toNat

/-- The rings of a bench with their contexts, every register at its reset value. -/
def freshRings : List Nat → Nat → Tab Ring
  | [], _ => []
  | c :: r, n => (n, { Ring.reset with context := c, clusterB := decide (1024 ≤ c) }) :: freshRings r (n + 1)

/-- Steps 2 and 3 of formation (05 R140): the bench is FORMING, its ring contexts and fault-queue entries are taken as tallies. FORM restores every field of its entry but INCARN (21 R581). -/
def State.formReserve (s : State) (b cls p f rings : Nat) (limits : Limits) (bar2 : Nat) (keep : Bool) : State :=
  let cs := s.chooseContexts rings
  let s := s.setBench b { Bench.reset with
    state := .forming, keep := keep, port := p, fn := f, classId := cls, ringCount := rings
    incarn := (s.bench b).incarn, token := (s.bench b).token, limits := limits
    bar2Base := BitVec.ofNat 64 bar2, rings := freshRings cs 0, bucket := fullBucket limits }
  let s := cs.foldl (fun s c => s.addTally 0x01 b (if c < 1024 then 0 else 1) c) s
  s.addTally 0x02 b 0 (((s.findClass cls).map BenchClass.faultShare).getD 0)

/-- A token that is not 0 and not the previous one (05 R133): the number drawn, or the first of 1 and 2 that will do. -/
def goodToken (t prev : BitVec 64) : BitVec 64 :=
  if t ≠ 0 ∧ t ≠ prev then t else if prev = 1 then 2 else 1

/-- The re-attach deadline of a bench detached now: hearth time plus REATTACH_TIMEOUT_S (05 R131). -/
def State.reattachTime (s : State) : BitVec 64 :=
  s.now + BitVec.ofNat 64 (((s.chip.cfg.map ImageCfg.reattachTimeoutS).getD 600) * 1000000)

/-- The deadline of a detached bench starts, unless KEEP is 1 or the bench is bench 0 (05 R131, R132). -/
def State.startDeadline (s : State) (b : Nat) : State :=
  if b = 0 ∨ (s.bench b).keep then s.modBench b fun x => { x with deadline := 0 }
  else (s.modBench b fun x => { x with deadline := s.reattachTime }).addDeadline (.reattach b) s.reattachTime

/-- Steps 4 to 6 of formation (05 R140): the root of the Mode D table, the attach token. -/
def State.formFinish (s : State) (b : Nat) : State :=
  let (t, s) := s.draw
  let modeD := s.classHas b BenchClass.modeD
  let s := s.modBench b fun x => { x with token := goodToken t x.token, modeD := .fresh modeD }
  if modeD then { s with headstock := { s.headstock with tablePages := s.headstock.tablePages + 1 } } else s

/-- Bench 0 as the hub forms it before PHASE reaches RUNNING (05 R122). -/
def State.formBench0 (s : State) : State :=
  match s.chip.cfg with
  | none => s
  | some cfg =>
    match s.findClass cfg.mgmtClass with
    | none => s
    | some c =>
      let l : Limits := ⟨BitVec.ofNat 64 c.dieMemQuota, BitVec.ofNat 32 c.billetQuota, BitVec.ofNat 32 c.rateCap,
        BitVec.ofNat 16 c.channelQuota, BitVec.ofNat 16 c.coreLimit⟩
      ((s.formReserve 0 cfg.mgmtClass cfg.mgmtPort cfg.mgmtFunction c.maxRings l 0 false).formFinish 0).modBench 0
        fun x => { x with state := .active }

/-- A bench command is accepted when BUSY is 0 and bench 0 is formed; written while BUSY, or during a sweep of bench 0, it is discarded and counted (05 R138; 17 R501; 21 R573). -/
def State.acceptCommand (s : State) (code : Nat) (run : State → BenchArg → State) : State :=
  if s.mailbox.busy ∨ (s.bench 0).state = .sweeping then s.countHub
  else if (s.bench 0).state ≠ .active ∧ (s.bench 0).state ≠ .held then s
  else
    let a := benchArg s.mailbox.arg
    run ({ s with mailbox := { s.mailbox with busy := true, code := BitVec.ofNat 8 code, token := 0, bench := a.bench } }.stir 8) a

/-- The COMMAND_DONE notice of the command that ended last (05 Table 10). -/
def State.commandDone (s : State) : State :=
  let m := s.mailbox
  s.notice 0 0x0F m.result.toNat noRing m.token (m.code.setWidth 32) m.bench

/-- A bench command ends: BUSY clears, RESULT is valid, COMMAND_DONE goes to bench 0; during a sweep of bench 0, only once that sweep has ended (05 R138, Table 10; 17 R501). -/
def State.endCommand (s : State) (result : Nat) (token : BitVec 64) : State :=
  let s := { s with mailbox := { s.mailbox with busy := false, result := BitVec.ofNat 8 result, token := token } }
  if (s.bench 0).state = .sweeping then s.modBench 0 fun x => { x with sweep := x.sweep.map fun w => { w with command := true } }
  else s.commandDone

/-- The checks common to commands on a formed bench: BAD_BENCH, BAD_STATE, reserved bytes (05 R139; 21 R580). -/
def State.commandCheck (s : State) (a : BenchArg) (states : List BenchState) : Nat :=
  if s.maxBenches ≤ a.bench then resBadBench
  else if ¬ states.contains (s.bench a.bench).state then resBadState
  else if a.reserved then resOverClass else resOk

/-- Bytes of die memory a bench holds on every hub (21 DIE_MEM_HELD). -/
def Bench.dieMemHeld (x : Bench) : Nat := x.grants.foldl (fun n g => n + g.length) 0

/-- KiB of billets a bench holds, with seal staging (21 BILLET_HELD; 19 R535). -/
def State.billetHeld (s : State) (b : Nat) : Nat :=
  s.recovery.billets.foldl (fun n e => if e.2.live && e.2.owner == b then n + e.2.kib else n) 0 +
  s.streams.foldl (fun n e => if e.2.isOpen && e.2.bench == b then n + e.2.slots * e.2.slotSize / 1024 else n) 0

/-- Cores of a placement: those that a LAUNCH has reserved, while it loads (14 R400). -/
def Placement.coreCount (p : Placement) : Nat := if p.state = .loading then p.rows * p.cols else p.cores.length

/-- Cores in placements of a bench of this hub, on every hub (21 CORES_PLACED). -/
def State.coresPlaced (s : State) (b : Nat) : Nat :=
  s.placements.foldl (fun n p => if p.home == s.hubId && p.bench == b then n + p.coreCount else n) 0

end Sys2Proof.Machine
end

