-- ==== Sys2Proof/Machine/ImageOps.lean ====
section
/-!
DEFINITION. The Qorash image: header, section table, section bodies, signature, slot selection, factory defaults (02 R38–R52).
-/

namespace Sys2Proof.Machine

/-- The factory-default configuration (02 R51 Table 15). Class 0 has every tenant channel, all die memory, all cores, no billet limit (the greatest value of the field, log entry 24). -/
def factoryDefaults (big : Bool) : ImageCfg :=
  let dies := if big then 8 else 4
  let c : BenchClass :=
    { classId := 0, qosClass := 0, maxRings := 16, modeS := true, modeD := true,
      channelQuota := if big then 480 else 240, faultShare := 1024, dieMemQuota := dies * dieBytes,
      coreLimit := dies * 256, burlDense := true, burlLattice := true, keepAllowed := false, peerAllowed := false,
      sealAllowed := false, mgmt := true, billetQuota := 2 ^ 32 - 1, rateCap := 0, hotThreshold := 0 }
  { version := 0, rackFamily := 0, classes := [c]
    mgmtPort := 0, mgmtFunction := 0, mgmtClass := 0, reattachTimeoutS := 600, vfCount := [0, 0, 0, 0], maxBenches := 1
    qos := List.replicate 8 ⟨1, 1, 1, 0⟩, cascade := none, burl := none, links := [], calOverride := [], firmware := []
    idleGateMs := List.replicate 12 0, defaults := true }

/-- Section entries of a table (02 R42). -/
def sectionTable (slot : List Byte) : Nat → Nat → List SectionEntry
  | 0, _ => []
  | n + 1, o =>
    ⟨field slot o 2, field slot (o + 2) 2, field slot (o + 4) 4, field slot (o + 8) 4,
      BitVec.ofNat 32 (field slot (o + 12) 4)⟩ :: sectionTable slot n (o + 16)

/-- Two bodies overlap. -/
def SectionEntry.overlaps (a b : SectionEntry) : Bool := decide (a.offset < b.offset + b.length) && decide (b.offset < a.offset + a.length)

/-- A section table keeps 02 R42: offsets multiples of 64, lengths above 0, no overlap, within IMAGE_LENGTH, no TYPE twice. -/
def sectionsOk (imageLength : Nat) : List SectionEntry → Nat → Bool
  | [], _ => true
  | e :: r, start =>
    e.offset % 64 == 0 && decide (0 < e.length) && decide (start ≤ e.offset) && decide (e.offset + e.length ≤ imageLength) &&
    r.all (fun f => !e.overlaps f && f.type != e.type) && sectionsOk imageLength r start

/-- The known section types (02 Table 6) with the BODY_VERSIONs accepted. -/
def sectionKnown (t : Nat) : Option (Nat × Nat) :=
  if t = 1 then some (2, 4) else if t = 6 then some (1, 2) else if 2 ≤ t ∧ t ≤ 8 then some (1, 1) else none

/-- Checks 2 to 6 of a slot (02 R41, R42, R44, Table 14). DESIGN CHOICE (log entry 66): an IMAGE_LENGTH beyond the end of the last section is accepted, and GRADE_MASK bits 2–7 are ignored; Table 5 names no failing condition for either. -/
def checkHeader (big : Bool) (slotSize : Nat) (slot : List Byte) : SlotResult × Option SlotHeader :=
  let count := field slot 0x06 2
  let version := field slot 0x08 4
  let length := field slot 0x0C 4
  let sig := field slot 0x14 4
  let sections := sectionTable slot count 0x40
  if field slot 0x00 4 ≠ 0x48535251 then (.badMagic, none) else
  if field slot 0x04 2 ≠ 3 ∨ bits (field slot 0x10 1) (if big then 0 else 1) 1 = 0 ∨ 0xB0 < field slot 0x11 1 then (.badFormat, none) else
  if count < 1 ∨ 32 < count ∨ version < 1 ∨ 0xFFFFFFFE < version ∨ length < 0x40 + 16 * count ∨ slotSize < length ∨
     2 ≤ field slot 0x12 1 ∨ field slot 0x13 1 < 12 ∨ 133 < field slot 0x13 1 ∨
     (sig ≠ 0 ∧ (sig % 8 ≠ 0 ∨ sig < length ∨ slotSize < sig + 200)) ∨ field slot 0x28 20 ≠ 0 ∨
     ¬ sectionsOk length sections (0x40 + 16 * count) then (.badHeader, none) else
  if crc32c (slice slot 0 0x3C ++ sections.flatMap fun e => leBytes 4 e.check.toNat) ≠ field slot 0x3C 4 then (.imageCheck, none) else
  if ¬ ([1, 2, 3, 6].all fun t => sections.any fun e => e.type == t) ∨
     sections.any (fun e => (sectionKnown e.type).isNone && decide (e.type < 0x8000)) then (.missingSection, none) else
  (.ok, some ⟨BitVec.ofNat 32 version, length, field slot 0x12 1 == 1, field slot 0x13 1, sig,
    BitVec.ofNat 64 (field slot 0x18 8), sections⟩)

/-- The body of a section by TYPE. -/
def sectionBody (h : SlotHeader) (slot : List Byte) (t : Nat) : Option (List Byte) :=
  (h.sections.find? fun e => e.type == t).map fun e => slice slot e.offset e.length

/-- Check 7: every SECTION_CHECK and BODY_VERSION (02 R42, R44). -/
def checkSections (h : SlotHeader) (slot : List Byte) : Bool :=
  h.sections.all fun e => crc32c (slice slot e.offset e.length) == e.check.toNat &&
    match sectionKnown e.type with
    | some (lo, hi) => decide (lo ≤ e.version) && decide (e.version ≤ hi)
    | none => true

/-- A class record (02 Table 8). -/
def parseClass (b : List Byte) : BenchClass :=
  let m := field b 0x03 1
  let a := field b 0x12 1
  let f := field b 0x13 1
  { classId := field b 0x00 1, qosClass := field b 0x01 1, maxRings := field b 0x02 1, modeS := m % 2 == 1,
    modeD := bits m 1 1 == 1, channelQuota := field b 0x04 2, faultShare := field b 0x06 2, dieMemQuota := field b 0x08 8,
    coreLimit := field b 0x10 2, burlDense := a % 2 == 1, burlLattice := bits a 1 1 == 1, keepAllowed := f % 2 == 1,
    peerAllowed := bits f 1 1 == 1, sealAllowed := bits f 2 1 == 1, mgmt := bits f 3 1 == 1,
    billetQuota := field b 0x14 4, rateCap := field b 0x18 4, hotThreshold := field b 0x1C 4 }

/-- The rules of Table 8, with the undefined bits of R45. -/
def classOk (big : Bool) (b : List Byte) : Bool :=
  let c := parseClass b
  let dies := if big then 8 else 4
  decide (c.classId < 32) && decide (c.qosClass < 8) && decide (1 ≤ c.maxRings) && decide (c.maxRings ≤ 16) &&
  decide (1 ≤ field b 0x03 1) && decide (field b 0x03 1 < 4) && decide (1 ≤ c.channelQuota) &&
  decide (c.channelQuota ≤ if big then 480 else 240) && decide (1 ≤ c.faultShare) && decide (c.faultShare ≤ 1024) &&
  c.dieMemQuota % 2 ^ 21 == 0 && decide (c.dieMemQuota ≤ dies * dieBytes) && decide (c.coreLimit ≤ dies * 256) &&
  decide (field b 0x12 1 < 4) && decide (field b 0x13 1 < 16) && c.billetQuota % 4 == 0 && field b 0x20 32 == 0

/-- The class records of a BENCH_POLICY body. -/
def classBodies (p : List Byte) : Nat → Nat → List (List Byte)
  | 0, _ => []
  | n + 1, o => slice p o 64 :: classBodies p n (o + 64)

/-- CLASS_IDs differ. -/
def idsDiffer : List Nat → Bool
  | [] => true
  | a :: r => !r.contains a && idsDiffer r

/-- The rules of Table 7 and Table 8. DESIGN CHOICE (log entry 67), here and for the QOS, CASCADE and POWER bodies: a LENGTH that is not the table's size is SECTION_CONTENT; the spec names no result for it. -/
def policyOk (big : Bool) (p : List Byte) : Bool :=
  let n := field p 0x00 1
  let cs := (classBodies p n 32).map parseClass
  let ports := if big then 4 else 2
  let vf := slice p 0x08 4
  decide (1 ≤ n) && decide (n ≤ 32) && p.length == 32 + 64 * n && decide (field p 0x01 1 < ports) &&
  decide (field p 0x02 1 ≤ field vf (field p 0x01 1) 1) && cs.any (fun c => c.classId == field p 0x03 1 && c.mgmt) &&
  decide (1 ≤ field p 0x04 4) && decide (field p 0x04 4 ≤ 86400) && vf.all (fun v => decide (v.toNat < 64)) &&
  (vf.drop ports).all (fun v => v == 0) && decide (1 ≤ field p 0x0C 2) && decide (field p 0x0C 2 ≤ if big then 256 else 128) &&
  field p 0x0E 18 == 0 && (classBodies p n 32).all (classOk big) && idsDiffer (cs.map BenchClass.classId)

/-- A QOS entry (02 Table 9). -/
def parseQos (b : List Byte) (o : Nat) : QosClass := ⟨field b o 2, field b (o + 2) 2, field b (o + 4) 2, field b (o + 8) 4⟩

/-- The rules of Table 9. -/
def qosOk (q : List Byte) : Bool :=
  q.length == 128 && (List.range 8).all fun i =>
    let c := parseQos q (16 * i)
    decide (1 ≤ c.latheWeight) && decide (c.latheWeight ≤ 255) && decide (1 ≤ c.walkerWeight) && decide (c.walkerWeight ≤ 255) &&
    decide (1 ≤ c.egressWeight) && decide (c.egressWeight ≤ 255) && decide (c.modFloorNs ≤ 1000000) &&
    field q (16 * i + 6) 2 == 0 && field q (16 * i + 12) 4 == 0

/-- The rules of Table 10. -/
def cascadeOk (c : List Byte) : Bool :=
  let n := field c 1 1
  c.length == 40 && decide (field c 0 1 < 2) && decide (n ≤ 32) && decide (1 ≤ field c 2 1) && decide (field c 2 1 ≤ 32) &&
  field c 3 5 == 0 && (slice c 8 n).all (fun b => decide (b.toNat < 32)) && (slice c (8 + n) (32 - n)).all fun b => b == 0xFF

/-- The rules of Table 11. -/
def burlOk (b : List Byte) : Bool :=
  decide (8 ≤ b.length) && decide (field b 0 1 < 2) && field b 1 3 == 0 && decide (100 ≤ field b 4 4) && decide (field b 4 4 ≤ 10000)

/-- The rules of Table 12: entries of domains absent on the grade are not checked (02 R45). -/
def powerOk (big : Bool) (p : List Byte) : Bool :=
  p.length == 48 && (List.range 12).all fun i =>
    (!big && (i + 1 == 3 || i + 1 == 4 || i + 1 == 6 || i + 1 == 12)) || decide (field p (4 * i) 4 ≤ 3600000)

/-- Check 8 of a slot (02 R45). -/
def checkContent (big : Bool) (h : SlotHeader) (slot : List Byte) : Bool :=
  let opt : Nat → (List Byte → Bool) → Bool := fun t f => ((sectionBody h slot t).map f).getD true
  opt 2 (policyOk big) && opt 3 qosOk && opt 4 cascadeOk && opt 5 burlOk && opt 8 (powerOk big)

/-- Check 9 of a slot: the signature, when the key digest is fused (02 R46, R47). The algorithm number is read most significant byte first: R41 excepts the block from little-endian (DEDUCED, log entry 68). Its two reserved bytes are not checked (DESIGN CHOICE, log entry 68). -/
def checkSignature (key : Option (List Byte)) (h : SlotHeader) (slot : List Byte) : Bool :=
  match key with
  | none => true
  | some d =>
    let b := slice slot h.sigOffset 200
    h.sigOffset != 0 && field b 0 4 == 0x47495351 && slice b 4 2 == [0, 1] && Config.sha384 (slice b 8 96) == d &&
      decide (Config.ecdsaVerify (slice b 8 192) (slot.take h.length) ≠ [])

/-- Checks 7 to 9. -/
def checkBody (big : Bool) (key : Option (List Byte)) (h : SlotHeader) (slot : List Byte) : SlotResult :=
  if ¬ checkSections h slot then .sectionCheck
  else if ¬ checkContent big h slot then .sectionContent
  else if ¬ checkSignature key h slot then .signature else .ok

/-- The configuration a valid slot holds (02 R44 Tables 7–12). -/
def parseConfig (h : SlotHeader) (slot : List Byte) : ImageCfg :=
  let p := (sectionBody h slot 2).getD []
  let q := (sectionBody h slot 3).getD []
  { version := h.version, rackFamily := h.rackFamily, classes := (classBodies p (field p 0 1) 32).map parseClass
    mgmtPort := field p 1 1, mgmtFunction := field p 2 1, mgmtClass := field p 3 1, reattachTimeoutS := field p 4 4
    vfCount := (slice p 8 4).map BitVec.toNat, maxBenches := field p 0x0C 2, qos := (List.range 8).map fun i => parseQos q (16 * i)
    cascade := (sectionBody h slot 4).map fun c => ⟨field c 0 1 == 1, (slice c 8 (field c 1 1)).map BitVec.toNat, field c 2 1⟩
    burl := (sectionBody h slot 5).map fun b => ⟨field b 0 1 == 1, field b 4 4, b.drop 8⟩
    links := (sectionBody h slot 6).getD [], calOverride := (sectionBody h slot 7).getD [], firmware := (sectionBody h slot 1).getD []
    idleGateMs := match sectionBody h slot 8 with
      | some b => (List.range 12).map fun i => field b (4 * i) 4
      | none => List.replicate 12 0
    defaults := false }

/-- The code of a slot result (02 Table 14). -/
def SlotResult.code : SlotResult → Nat
  | .ok => 0x0 | .notRead => 0x1 | .pending => 0x2 | .flashAbsent => 0x3 | .badMagic => 0x4 | .badFormat => 0x5
  | .badHeader => 0x6 | .imageCheck => 0x7 | .missingSection => 0x8 | .sectionCheck => 0x9 | .sectionContent => 0xA
  | .signature => 0xB | .timedOut => 0xC

/-- The result of slot A or B in IMAGE_INFO. -/
def ImageInfo.set (i : ImageInfo) (slotB : Bool) (r : SlotResult) : ImageInfo :=
  if slotB then { i with slotB := r } else { i with slotA := r }

/-- The result of a slot. -/
def ImageInfo.get (i : ImageInfo) (slotB : Bool) : SlotResult := if slotB then i.slotB else i.slotA

/-- A slot's result recorded. -/
def State.slotResult (s : State) (slotB : Bool) (r : SlotResult) : State :=
  { s with chip := { s.chip with image := s.chip.image.set slotB r } }

/-- Bytes of one slot: half the density (02 R40). -/
def State.slotSize (s : State) : Nat := 2 ^ s.chip.search.density * 2 ^ 20 / 2

/-- PHASE BIST begins once the configuration is applied and ledger memory is trained and zeroed: the other domains are powered (02 Table 3, R37). -/
def State.tryBist (s : State) : State :=
  if s.chip.phase = .flash ∧ s.chip.cfg.isSome ∧ s.chip.ledgerReady then
    [5, 6, 7, 9, 10, 11, 12].foldl
      (fun s n => if s.domainPresent n then s.modDomain n fun d => { d with state := .on, idleSince := s.now } else s)
      { s with chip := { s.chip with phase := .bist } }
  else s

/-- Flash address of a slot (02 R40). -/
def State.slotBase (s : State) (slotB : Bool) : Nat := if slotB then s.slotSize else 0

/-- IMAGE_SLOT_FORCE keeps the hub from reading the slot's header (02 R48 Table 13). -/
def State.forcedAway (s : State) (slotB : Bool) : Bool :=
  s.chip.straps.slotForce == 3 || s.chip.straps.slotForce == (if slotB then 1 else 2)

/-- A read command of 02 Table 4: the 3-byte forms where the last byte read lies in the first 16 MiB (DEDUCED, log entry 69). -/
def State.spi (s : State) (x4 : Bool) (khz addr length : Nat) : State :=
  let near := decide (addr + length ≤ 2 ^ 24)
  s.emit (.spiRead (if x4 then (if near then 0x6B else 0x6C) else if near then 0x03 else 0x13) x4 khz addr length)

/-- SFDP discovery: x1, 12.5 MHz (02 Table 4). -/
def State.readSfdp (s : State) : State := s.emit (.spiRead 0x5A false 12500 0 256)

/-- The headers of the slots that are not forced away are read at 12.5 MHz, x1, each with room for the greatest section table (02 R39, R48). -/
def State.readHeaders (s : State) : State :=
  [false, true].foldl (fun (s : State) b => if s.forcedAway b then s else s.spi false 12500 (s.slotBase b) 0x240) s

/-- Bodies of the slot are read at x4 (02 R39). -/
def State.bodyX4 (s : State) (h : SlotHeader) : Bool := h.x4 && s.chip.search.sfdpX4

/-- The clock of body reads, MHz (02 R39). -/
def State.bodyMhz (s : State) (h : SlotHeader) : Nat := min (min h.clockMhz s.chip.search.sfdpMhz) 133

/-- The body of a slot is read, with quad enable set first for x4, and its signature block when the key digest is fused (02 R39, R47). SPI_WIDTH and SPI_MHZ show what is used. -/
def State.readBody (s : State) (slotB : Bool) (h : SlotHeader) : State :=
  let x4 := s.bodyX4 h
  let mhz := s.bodyMhz h
  let s := { s with chip := { s.chip with
    search := { s.chip.search with reading := some slotB }
    image := { s.chip.image with spiWidth := if x4 then 4 else 1, spiMhz := BitVec.ofNat 8 mhz } } }
  let s := if x4 then s.emit .spiQuad else s
  let s := s.spi x4 (1000 * mhz) (s.slotBase slotB) h.length
  if s.chip.keyDigest.isSome ∧ h.sigOffset ≠ 0 then s.spi x4 (1000 * mhz) (s.slotBase slotB + h.sigOffset) 200 else s

/-- Factory defaults apply with this CFG_REASON (02 R51, R52). A slot not read reads NOT_READ. SIGNATURE keeps the 2 FAILED of a slot that failed check 9: its field speaks of the selected slot, and none is (DESIGN CHOICE, log entry 70). -/
def State.applyDefaults (s : State) (reason : BitVec 3) : State :=
  let i := s.chip.image
  let fix : SlotResult → SlotResult := fun r => if r = .pending then .notRead else r
  State.tryBist { s with chip := { s.chip with
    cfg := some (factoryDefaults s.big), cfgDefaulted := true, cfgSource := 2, cfgReason := reason
    image := { i with slotA := fix i.slotA, slotB := fix i.slotB, version := 0, fwVersion := 0x00B00100 }
    search := { s.chip.search with reading := none } } }

/-- A slot is selected and its sections are applied (02 R48, R49, R53); the other slot, whose body was not read, reads NOT_READ. The build number inside the opaque firmware is a free value (log entry 15). -/
def State.applySlot (s : State) (slotB : Bool) (h : SlotHeader) (slot : List Byte) : State :=
  let (fw, s) := s.draw
  let i := (s.chip.image.set slotB .ok)
  let i := if i.get (!slotB) = .pending then i.set (!slotB) .notRead else i
  State.tryBist { s with chip := { s.chip with
    cfg := some (parseConfig h slot), cfgDefaulted := false, cfgSource := if slotB then 1 else 0, cfgReason := 0
    image := { i with
      signature := if s.chip.keyDigest.isSome then 1 else 0
      version := h.version, fwVersion := fw.setWidth 32 }
    search := { s.chip.search with reading := none } } }

/-- The reason defaults apply for when no slot read is valid (02 Table 16). -/
def State.badReason (s : State) : BitVec 3 := if s.chip.straps.slotForce = 0 then 3 else 2

/-- The next slot whose body is read, or factory defaults (02 R48 Table 13): of the slots whose headers passed and whose body is unread, the greater IMAGE_VERSION, slot A on a tie. -/
def State.nextSlot (s : State) : State :=
  let q := s.chip.search
  let a := if s.chip.image.slotA = .pending then q.headerA else none
  let b := if s.chip.image.slotB = .pending then q.headerB else none
  match a, b with
  | some x, some y => if x.version.toNat < y.version.toNat then s.readBody true y else s.readBody false x
  | some x, none => s.readBody false x
  | none, some y => s.readBody true y
  | none, none => s.applyDefaults s.badReason

end Sys2Proof.Machine
end

