-- ==== Sys2Proof/Machine/RestartOps.lean ====
section
/-!
DEFINITION. The hub restart: what is torn down, what the hearth keeps, when the start sequence runs again (02 R55–R57; 03 R60, R66, R81, R86; 20 R553; 21 R567).
-/

namespace Sys2Proof.Machine

/-- LAST_RESTART values (02 R55, 21 Table 5). -/
def restartManagement : BitVec 4 := 1
def restartSmbus : BitVec 4 := 2
def restartRefLoss : BitVec 4 := 3
def restartThermal : BitVec 4 := 4
def restartDebug : BitVec 4 := 5

/-- The hearth after a teardown: every switched domain off, every timer but hearth time cleared, the porch discarded; time, trim, alerts, sensors and the counts of PD0 kept (03 R62, R66, R81; 21 R567). -/
def Hearth.afterTeardown (h : Hearth) : Hearth :=
  { h with
    domains := h.domains.map fun e => (e.1, { PdDomain.reset with gateAborts := e.2.gateAborts })
    deadlines := [], detectRetry := [], porch := [], withheld := [], refilling := false }

/-- The chip after a teardown: PHASE RESTARTING, what PD0 keeps, and the source in LAST_RESTART (02 R56). -/
def Chip.afterTeardown (c : Chip) (now : BitVec 64) (source : BitVec 4) (w : RestartWait) : Chip :=
  { Chip.reset with
    grade := c.grade, powered := c.powered, keyDigest := c.keyDigest, phase := .restarting, wait := w
    teardownAt := now, straps := c.straps, lastRestart := source, badAccess := c.badAccess
    flash := c.flash, smbusPtr := c.smbusPtr }

/-- A host port after a teardown: its link is down; TRAIN_FAIL_COUNT and the level of PERST_N remain. -/
def Port.afterTeardown (p : Port) : Port := { Port.reset with trainFails := p.trainFails, perst := p.perst }

/-- What of recovery outlives a teardown: the hearth mirror with its SEQ, and the causes of HUB_FAULT_N that a restart does not end (17 R507, R508 Table 8). -/
def Recovery.afterTeardown (r : Recovery) : Recovery :=
  { Recovery.reset with
    mirror := r.mirror, logSeq := r.logSeq
    faults := r.faults.filter fun c =>
      match c with
      | .entry _ => true
      | .ledger => true
      | .dbg => true
      | _ => false }

/-- The debug access port after a teardown: the debugger stays attached; an access that had not ended reads all ones with ASLEEP, or with HOLE from a die; no whittler is halted (20 Edges; DESIGN CHOICE for the access, log entry 86). -/
def Debug.afterTeardown (d : Debug) : Debug :=
  let d := { d with written := [] }
  if ¬ d.busy then d else if d.space = 2 then d.atHole else d.atSleep ones64

/-- Steps 1 to 5 of a hub restart (02 R56): every bench is cut with no sweep, every link is down, die power is deasserted, every switched domain is off. Nothing is sent after the cut. -/
def State.teardown (s : State) (source : BitVec 4) (w : RestartWait) : State :=
  { State.reset with
    pending := s.pending, out := s.out, draws := s.draws
    chip := s.chip.afterTeardown s.now source w
    hearth := s.hearth.afterTeardown
    ports := s.ports.map fun e => (e.1, e.2.afterTeardown)
    recovery := s.recovery.afterTeardown
    bg := { Background.reset with telemSeq := s.bg.telemSeq }
    dbg := s.dbg.afterTeardown }

/-- A hub restart under way or not yet begun by a strap latch: the hearth runs but straps are not latched. -/
def State.running (s : State) : Bool := s.chip.powered && !(s.chip.phase == .straps) && !(s.chip.phase == .restarting)

/-- The port reaches its functions' memory: link up, the function enabled by its host, Memory Space Enable (05 R123; 12 R350). -/
def State.decodes (s : State) (p f : Nat) : Bool :=
  s.running && (s.port p).link.isUp && s.fnEnabled p f && (s.fnAt p f).memSpace

/-- A write to the hub block discards a staged low dword (21 R571). -/
def State.unstageHub (s : State) : State := { s with chip := { s.chip with staged := none } }

/-- A write to the hub block through the management function (05 R123; 12 R348, R357; 21 R574): it arrives where the function's memory is reached, and is discarded and counted while bench 0 is detached. -/
def State.fromMgmt (s : State) (f : State → State) : State :=
  if ¬ s.decodes s.mgmtFn.1 s.mgmtFn.2 then s else if (s.bench 0).detached then s.unstageHub.countHub else f s.unstageHub

/-- A write of the management function to a bench's entry of BENCH_TABLE: VACANT entries discard and count; those of absent benches only discard (21 R581). -/
def State.tableServed (s : State) (b : Nat) (f : State → State) : State :=
  if ¬ s.running ∨ s.nBenches ≤ b then s
  else if (s.bench b).state = .vacant then s.countHub else f s

/-- The start sequence runs from strap latch, once die power has been deasserted for 100 ms (02 R56 steps 4 and 6). -/
def State.resumeStart (s : State) : State :=
  { s with chip := { s.chip with phase := .straps, wait := .none } }

/-- A pin-driving instruction: when PHASE is not STRAPS, steps 2 to 5 of a restart and HUB_FAULT_N; the switched domains stay off until Test-Logic-Reset (20 R553). -/
def State.pinDrive (s : State) : State :=
  let s := if s.chip.powered ∧ s.chip.phase ≠ .straps then (s.addFault .dbg).teardown restartDebug .testLogicReset else s
  { s with dbg := { s.dbg with pinDriving := true } }

/-- The configuration in force is a slot's, and its LINKS section says so; `dflt` on factory defaults and before (02 R44, R51). -/
def State.linksSay (s : State) (f : List Byte → Bool) (dflt : Bool) : Bool :=
  match s.chip.cfg with
  | some c => if c.defaults then dflt else f c.links
  | none => dflt

/-- Spindle ports and Envan links that the LINKS section disables read NOT_FITTED (02 R44; 13 Table 4). -/
def State.disableLinks (s : State) : State :=
  let s := (List.range s.nDies).foldl (fun s d =>
    if s.linksSay (fun l => Config.linksSpindle l d) true then s else s.modDie d fun x => { x with unfit := true }) s
  (List.range s.nEnvans).foldl (fun s l =>
    if s.linksSay (fun y => Config.linksEnvan y l) true then s else s.modEnvan l fun x => { x with unfit := true }) s

/-- Links, dies and host ports of LINKS begin to train: each Envan link of the grade is TRAINING (02 Table 3; 16 R454). -/
def State.startEnvans (s : State) : State :=
  (List.range s.nEnvans).foldl (fun s l =>
    if (s.envan l).unfit then s else s.modEnvan l fun x => { x with state := .training, attempts := 1 }) s

/-- A host port that may present a receiver: of the grade, fit, enabled by LINKS, and HP0 only on factory defaults (02 R44, R51; 18 R531); none with the strap TEST_MODE 1, which exposes no function (02 R34 Table 1). -/
def State.portEnabled (s : State) (p : Nat) : Bool :=
  decide (p < s.nPorts) && !(s.port p).unfit && !s.chip.straps.testMode && s.linksSay (fun l => Config.linksHost l p) (p == 0)

/-- The phases in which host ports train (02 R35 Table 2). -/
def State.hostPhase (s : State) : Bool := s.chip.phase == .hosts || s.chip.phase == .running

/-- A port enters Detect when PERST_N is deasserted (04 R89). -/
def State.startDetect (s : State) (p : Nat) : State :=
  if s.portEnabled p && s.hostPhase && !(s.port p).perst then
    s.modPort p fun x => { x with link := .detect, consecFails := 0, retrying := false } else s

/-- Start-up BIST stops the start: BIST_FAIL with its unit (18 R532). -/
def State.bistStop (s : State) (unit : BitVec 4) : State :=
  { s with chip := { s.chip with bistFail := true, bistUnit := unit } }

/-- The findings of start-up BIST that do not stop the start (18 R531 Table 5). -/
def State.bistApply (s : State) (r : BistResult) : State :=
  let s := r.whittlers.foldl (fun s w => s.modWhittler w fun x => { x with fenced := true }) s
  let s := r.lathes.foldl (fun s l => s.modLathe l fun x => { x with fenced := true }) s
  let s := r.spindles.foldl (fun s d => s.modDie d fun x => { x with unfit := true }) s
  let s := r.envans.foldl (fun s l => s.modEnvan l fun x => { x with unfit := true }) s
  let s := r.ports.foldl (fun s p => s.modPort p fun x => { x with unfit := true }) s
  { s with
    headstock := { s.headstock with retired := r.ways.dedup }
    dense := { s.dense with outOfService := r.dense }
    lattice := { s.lattice with outOfService := r.lattice } }

/-- Every lathe of cluster A is fenced. -/
def State.clusterAFenced (s : State) : Bool := (List.range 8).all fun l => (s.lathe l).fenced

end Sys2Proof.Machine
end

