-- ==== Sys2Proof/Machine/HearthOps.lean ====
section
/-!
DEFINITION. The hearth: time, idle conditions, the gate handshake, waking, room in the porch (03 R60–R81; 18 R515, R517).
-/

namespace Sys2Proof.Machine

/-! ### Time (03 R60, R62) -/

/-- Units of 1e-8 µs that a microsecond gains: HEARTH_RATE_ADJ with the reference; without it the oscillator's own error, within ±200 ppm (03 R60, R64). -/
def State.rateNow (s : State) : Int :=
  if s.hearth.refLost then max (-20000) (min 20000 (s.hearth.oscTrim + Config.drift s.draws)) else s.hearth.rateAdj

/-- Microseconds that hearth time advances by in one tick, and what is left of the accumulated correction. -/
def rateStep (acc : Int) : Nat × Int :=
  if 100000000 ≤ acc then (2, acc - 100000000) else if acc ≤ -100000000 then (0, acc + 100000000) else (1, acc)

/-- One microsecond of a bench's RATE_CAP bucket (05 R144). -/
def Bench.refill (b : Bench) : Bench :=
  if b.limits.rateCap = 0 then b
  else { b with bucket := min (b.bucket + b.limits.rateCap.toNat) (bucketMax b.limits.rateCap.toNat) }


/-! ### The scrub floor line (18 R515) -/

/-- Bytes of the floor line of the pass at hearth time t. -/
def State.floorLine (s : State) (t : BitVec 64) : Nat :=
  s.ledgerBytes * (t.toNat - s.bg.passStart.toNat) / 86400000000

/-- Hearth time at which the floor line reaches POSITION (18 R517). -/
def State.floorTime (s : State) : BitVec 64 :=
  s.bg.passStart + BitVec.ofNat 64 ((s.bg.position.toNat * 86400000000 + s.ledgerBytes - 1) / s.ledgerBytes)

/-! ### Idle conditions (03 R68 Table 3) -/

/-- A ring has work fetched, or a doorbell or knock pending. -/
def Ring.busy (r : Ring) : Bool :=
  !r.descs.isEmpty || (decide (r.head ≠ r.tail) && (r.state == .idle || r.state == .running || r.state == .pausing))

/-- The port has a knock line held, or a ring that polls its tail word (04 R114; 06 R165, R171). -/
def State.knockHeld (s : State) (p : Nat) : Bool :=
  s.benches.any fun e => e.2.state != .vacant && e.2.port == p && e.2.rings.any fun r =>
    r.2.knock == .held || r.2.knock == .acquiring || r.2.knock == .polling

/-- A die of this hub holds a bench's die memory or a core of a placement. -/
def State.dieUsed (s : State) (d : Nat) : Bool :=
  s.benches.any (fun e => e.2.grants.any fun g => g.hub == 255 && g.die == d) ||
  s.cascade.guests.any (fun e => (e.2.map fun g => g.grants.any fun x => x.die == d).getD false) ||
  s.placements.any fun p => p.cores.any fun c => c.hub == s.hubId && c.die == d

/-- The domain is off, or absent on the grade. -/
def State.domainOff (s : State) (n : Nat) : Bool := !s.domainPresent n || (s.domain n).state == .off

/-- A lathe cluster is idle. -/
def State.clusterIdle (s : State) (b : Bool) : Bool :=
  !(s.benches.any fun e => e.2.rings.any fun r => r.2.clusterB == b && r.2.busy) &&
  !(s.paceTimers.any fun e => e.2.armed && decide (64 ≤ e.1) == b)

/-- No invalidation is queued: no ring entry below a tail, no TOKEN waiting, no ATS invalidation. -/
def State.noInvalidation (s : State) : Bool :=
  s.benches.all (fun e => decide (e.2.invRing.head = e.2.invRing.tail) && e.2.invRing.token.isNone) &&
  s.ports.all fun e => e.2.invalidates.isEmpty

/-- The dies of a spindle domain on the grade. -/
def State.groupDies (s : State) (n : Nat) : List Nat := (List.range s.nDies).filter fun d => dieDomain d == n

/-- No request to or from the die is outstanding: core requests, BAR2 reads, requests of other sleds, lathe requests, zero fills, scrubs (13 R390). -/
def State.dieQuiet (s : State) (d : Nat) : Bool :=
  !(s.die d).scrubbing && (s.die d).queue.isEmpty && (s.die d).sent.isEmpty && (s.die d).xlt.isEmpty && s.spindles.all (fun e => e.2.xlt.all fun x => x.target != d) &&
  s.bar2Reads.all (fun x => x.die != d) && s.bar2Writes.all (fun x => x.die != d) && s.remotes.all (fun x => x.die != d) && s.zeroFill.all (fun z => z.1 != d) &&
  s.lathes.all fun e => e.2.reads.all (fun u => u.die != some d) && e.2.writes.all fun u => u.die != some d

/-- The decay pass of this hearth second has been found not to end (18 R523): any other ends with its command. -/
def State.decaying (s : State) : Bool :=
  s.headstock.decayFloor && decide (s.now.toNat / 1000000 ≤ s.headstock.decaySecond)

/-- A whittler task of PD8 is queued or runs: a scrub in floor mode, count updates, the decay pass, a launch (03 R68; 11 R334; 18 R515, R523). -/
def State.whittlerTask (s : State) : Bool :=
  s.mailbox.busy || s.mig.busy || s.bg.floor || !s.headstock.counts.isEmpty || s.decaying || !s.launches.isEmpty

/-- The idle condition of PDn. -/
def State.idle (s : State) (n : Nat) : Bool :=
  if n ≤ 4 then
    let p := s.port (n - 1)
    p.link == .down || p.link == .absent || (p.l12 && !s.knockHeld (n - 1) && p.tags.isEmpty)
  else if n ≤ 6 then s.clusterIdle (n == 6)
  else if n = 7 then s.domainOff 5 && s.domainOff 6 && s.domainOff 11 && s.domainOff 12 && s.noInvalidation
  else if n = 8 then
    [1, 2, 3, 4, 5, 6, 7, 9, 10, 11, 12].all s.domainOff && !s.whittlerTask &&
    s.benches.all fun e => e.2.state != .forming && e.2.state != .sweeping
  else if n = 9 then s.jobs.isEmpty && s.dense.placing.isNone && s.launches.all fun l => l.stage != .ready
  else if n = 10 then s.envans.all fun e => e.2.state != .up && e.2.state != .recovery
  else (s.groupDies n).all fun d => !s.dieUsed d

/-- IDLE_GATE_MS of PDn (02 Table 12). -/
def State.idleGateMs (s : State) (n : Nat) : Nat := (((s.chip.cfg.map ImageCfg.idleGateMs).getD [])[n - 1]?).getD 0

/-! ### The microsecond that passes -/

/-- A domain that has closed its ingress for the microsecond of step 1 drains (03 R72 Table 4); the idle-gate timer of one that is not idle stands at zero (03 R70). -/
def PdDomain.tick (d : PdDomain) (idle : Bool) (now : BitVec 64) : PdDomain :=
  { d with
    state := if d.state = .closing then .draining else d.state
    stepSince := if d.state = .closing then now else d.stepSince
    idleSince := if idle then d.idleSince else now }

/-- One microsecond of the hub in which no command comes: hearth time advances, buckets fill, closing domains drain, idle-gate timers run. -/
def State.tick (s : State) : State :=
  if ¬ s.hearth.counting then s else
  let (n, acc) := rateStep (s.hearth.rateAcc + s.rateNow)
  let now := s.hearth.time + BitVec.ofNat 64 n
  { s with
    hearth := { s.hearth with
      time := now, rateAcc := acc
      domains := s.hearth.domains.map fun e => (e.1, e.2.tick (s.idle e.1) now) }
    draws := if s.hearth.refLost then s.draws + 1 else s.draws
    benches := s.benches.map fun e => (e.1, e.2.refill) }

/-- TIME_STATE and HEARTH_RATE_ADJ set. -/
def State.setTime (s : State) (t : TimeState) (adj : Int) : State :=
  { s with hearth := { s.hearth with rateAdj := adj }, cascade := { s.cascade with timeState := t } }

/-- A hub that does not discipline its hearth time reads FREE (16 R467, R468). -/
def State.freeTime (s : State) : State :=
  ({ s with cascade := { s.cascade with offset := 0 } }).setTime .free 0

/-- The role of a master, or of a seeker, with no time discipline. -/
def State.setRole (s : State) (r : CascadeState) : State :=
  ({ s with cascade := { s.cascade with state := r, reason := 0 } }).freeTime

/-- The hub follows a charter, or issues one. -/
def State.following (s : State) : Bool :=
  s.cascade.state == .chartered || s.cascade.state == .master || s.cascade.state == .uncharted || s.cascade.state == .joining

/-! ### The gate handshake and waking (03 R72–R76) -/

/-- The domains that PDn depends on (03 Table 3). -/
def domainDeps (n : Nat) : List Nat :=
  if n = 8 then [] else if n = 5 ∨ n = 6 ∨ n = 11 ∨ n = 12 then [7, 8] else [8]

/-- Steps 1 to 3 of a gate are in progress. -/
def PdDomain.gating (d : PdDomain) : Bool := d.state == .closing || d.state == .draining || d.state == .saving

/-- A gate is abandoned and counted (03 R73). -/
def State.abortGate (s : State) (n : Nat) : State :=
  s.modDomain n fun d => if d.gating then { d with state := .on, gateAborts := d.gateAborts + 1, idleSince := s.now } else d

/-- One domain wakes: from OFF it is WAKING; a gate in progress is abandoned; the idle-gate timer restarts (03 R71, R75). -/
def State.wakeOne (s : State) (n : Nat) : State :=
  if ¬ s.domainPresent n then s else
  (s.abortGate n).modDomain n fun d =>
    { d with state := if d.state = .off then .waking else d.state, idleSince := s.now }

/-- A domain and the domains it depends on wake in parallel (03 R75). -/
def State.wake (s : State) (n : Nat) : State := (domainDeps n ++ [n]).foldl State.wakeOne s

/-- An event of a hearth timer meets its owner, which it wakes first: it abandons a gate, and from OFF the event stays due until the domain is ON (03 R65, R75). -/
def State.ownedBy (s : State) (n : Nat) (f : State → State) : State :=
  let t := if s.domainOn n then s else s.wake n
  if t.domainOn n then f t else t

/-- A unit of the domain works: it has power, and is not beyond the drain step of a gate (03 R67, R72). -/
def State.domainWorks (s : State) (n : Nat) : Bool :=
  let d := (s.domain n).state
  s.domainPresent n && (d == .on || d == .closing || d == .draining)

/-- Work for a unit of the domain: its idle-gate timer restarts; it abandons a gate, or wakes (03 R67, R70, R73, R75). -/
def State.rouse (s : State) (n : Nat) : State := if s.domainOn n then s.stir n else s.wake n

/-- A die's supply is cut before its group is gated (03 R69, 13 R390). -/
def Spindle.powerOff (now : BitVec 64) (x : Spindle) : Spindle :=
  { x with pwrEn := false, offSince := now, state := .off, step := .none }

/-! ### The porch (03 R78–R80) -/

/-- Porch entries that a request takes: one for each 64 bytes of a write, one for a read. -/
def PorchRequest.slots (r : PorchRequest) (given : Nat) : Nat :=
  match r with
  | .bar2Write _ _ _ d _ _ => max 1 ((d.length + 63) / 64)
  | .bar4Write _ _ _ _ d _ _ => max 1 ((d.length + 63) / 64)
  | .write a => max 1 ((a.data.length + 63) / 64)
  | .internal => max 1 given
  | _ => 1

/-- Entries in use from a source. -/
def porchUsed (l : List PorchEntry) (src : PorchSource) : Nat :=
  (l.filter fun e => e.source == src).foldl (fun n e => n + e.slots) 0

/-- Entries reserved for a source (03 Table 6). -/
def porchReserved : PorchSource → Nat
  | .host _ => 64
  | .internal => 128

/-- Entries of the shared pool. -/
def State.porchShared (s : State) : Nat := if s.big then 128 else 256

/-- Sources of porch entries. -/
def State.porchSources (s : State) : List PorchSource := .internal :: (List.range s.nPorts).map .host

/-- The porch can take this content (03 Table 6). -/
def State.porchFits (s : State) (l : List PorchEntry) : Bool :=
  decide ((s.porchSources.foldl (fun n src => n + (porchUsed l src - porchReserved src)) 0) ≤ s.porchShared)

/-- PORCH_STATUS.OCCUPANCY. -/
def State.porchOccupancy (s : State) : Nat := s.hearth.porch.foldl (fun n e => n + e.slots) 0

/-- Content of the porch set, with its high-water mark. -/
def State.setPorch (s : State) (l : List PorchEntry) : State :=
  let n := l.foldl (fun n e => n + e.slots) 0
  { s with hearth := { s.hearth with porch := l, highWater := max s.hearth.highWater n } }

/-- A request that entered the porch wakes its domain, unless that is ON (03 R75). -/
def State.wakeFor (s : State) (n : Nat) : State := if s.domainOn n then s else s.wake n

/-- Withheld requests enter as room allows, in order for each source (03 R80). -/
def State.admitWithheld (s : State) : List PorchEntry → List PorchEntry → State
  | [], keep => { s with hearth := { s.hearth with withheld := keep } }
  | e :: r, keep =>
    if e.domain ≠ 0 ∧ ¬ keep.any (fun k => k.source == e.source) ∧ s.porchFits (s.hearth.porch ++ [e]) then
      ((s.setPorch (s.hearth.porch ++ [e])).wakeFor e.domain).admitWithheld r keep
    else s.admitWithheld r (keep ++ [e])

/-- A request enters the porch, or waits with credits withheld (03 R78, R80). Answers whether it entered. -/
def State.porchAdd (s : State) (e : PorchEntry) : Bool × State :=
  if ¬ s.hearth.withheld.any (fun k => k.source == e.source) ∧ s.porchFits (s.hearth.porch ++ [e]) then
    (true, s.setPorch (s.hearth.porch ++ [e]))
  else (false, { s with hearth := { s.hearth with withheld := s.hearth.withheld ++ [e] } })

/-- A request addressed to a domain (03 R72, R73, R75, R78): served where the domain is ON; it abandons a gate in progress, whose replay serves it at once; else it waits in the porch and wakes the domain, or waits outside a full porch. -/
def State.atDomain (s : State) (e : PorchEntry) (f : State → State) : State :=
  if s.domainOn e.domain then f s
  else if (s.domain e.domain).gating then
    f ({ s with hearth := { s.hearth with highWater := max s.hearth.highWater (s.porchOccupancy + e.slots) } }.abortGate e.domain)
  else
    match s.porchAdd e with
    | (true, s) => s.wake e.domain
    | (false, s) => s

end Sys2Proof.Machine
end

