-- ==== Sys2Proof/Machine/Operands.lean ====
section
/-!
DEFINITION. Descriptors: fields, the opcode table, the checks at fetch, the canonical order of each opcode, its bursts (07 R187–R215, R219, R224).
-/

namespace Sys2Proof.Machine

/-! ### Fields (07 Table 1) -/

/-- OPCODE. -/
def opOf (b : List Byte) : Nat := field b 0x00 1
/-- FLAGS. -/
def flagsOf (b : List Byte) : Nat := field b 0x01 1
/-- FLAGS.IRQ. -/
def irqOf (b : List Byte) : Bool := bits (flagsOf b) 0 1 == 1
/-- FLAGS.OVERLAP. -/
def overlapOf (b : List Byte) : Bool := bits (flagsOf b) 1 1 == 1
/-- FLAGS.FLAG_DST. -/
def flagDstOf (b : List Byte) : Bool := bits (flagsOf b) 2 1 == 1
/-- VECTOR. -/
def vectorOf (b : List Byte) : Nat := field b 0x02 1
/-- PACING.TRIG. -/
def trigOf (b : List Byte) : Nat := bits (field b 0x03 1) 0 2
/-- PACING.PACE. -/
def paceOf (b : List Byte) : Nat := bits (field b 0x03 1) 2 2
/-- PACING.BURST. -/
def burstCode (b : List Byte) : Nat := bits (field b 0x03 1) 4 4
/-- Bytes of a burst. -/
def burstOf (b : List Byte) : Nat := 2 ^ (8 + burstCode b)
/-- TRIG_ARG. -/
def trigArgOf (b : List Byte) : Nat := field b 0x04 2
/-- The selector of operand i. -/
def selOf (b : List Byte) (i : Nat) : Nat := bits (field b 0x06 2) (4 * i) 4
/-- CONTEXT.PASID. -/
def pasidOf (b : List Byte) : Nat := bits (field b 0x08 4) 0 20
/-- CONTEXT.STREAM. -/
def streamOf (b : List Byte) : Nat := bits (field b 0x08 4) 20 8
/-- CONTROL.TAG. -/
def tagOf (b : List Byte) : Nat := field b 0x3C 2
/-- CONTROL.OWN. -/
def ownOf (b : List Byte) : Bool := bits (field b 0x3C 4) 31 1 == 1

/-- The address of operand i (07 Tables 6–9): operand 0 at 0x10, operand 1 at 0x18, the index table at 0x20. -/
def addrOf (b : List Byte) (i : Nat) : Nat := field b (if i = 0 then 0x10 else if i = 1 then 0x18 else 0x20) 8

/-! ### Opcodes (07 Table 4) -/

/-- What an opcode accepts: operands needed, and 0 none, 1 needed, 2 optional for each of operands 0 to 2; TRIG, PACE, OVERLAP, FLAG_DST. -/
structure OpInfo where
  op0 : Nat
  op1 : Nat
  op2 : Nat
  trig : Bool
  pace : Bool
  overlap : Bool
  flagDst : Bool
  deriving DecidableEq, Repr

/-- 07 Table 4. -/
def opInfo (op : Nat) : Option OpInfo :=
  if op = 0x01 then some ⟨1, 1, 0, true, true, true, true⟩ else
  if op = 0x02 ∨ op = 0x03 then some ⟨1, 1, 1, true, true, true, false⟩ else
  if op = 0x04 then some ⟨0, 1, 0, true, true, true, true⟩ else
  if op = 0x05 then some ⟨1, 1, 0, true, false, true, false⟩ else
  if op = 0x13 then some ⟨0, 0, 0, true, false, false, false⟩ else
  if op = 0x20 then some ⟨1, 2, 0, false, false, false, false⟩ else
  if op = 0x21 ∨ op = 0x31 ∨ op = 0x50 then some ⟨1, 0, 0, false, false, false, false⟩ else
  if op = 0x30 then some ⟨1, 0, 0, false, false, true, false⟩ else
  if op = 0x10 ∨ op = 0x11 ∨ op = 0x12 ∨ op = 0x40 ∨ op = 0x41 ∨ op = 0x51 then some ⟨0, 0, 0, false, false, false, false⟩
  else none

/-- The opcode accepts OVERLAP (07 R190). -/
def opOverlaps (op : Nat) : Bool := ((opInfo op).map OpInfo.overlap).getD false

/-- The opcode moves or compares data in bursts. -/
def opMoves (op : Nat) : Bool := decide (1 ≤ op ∧ op ≤ 5)

/-! ### Geometry (07 R195–R206) -/

/-- The tile fields of a COPY (07 Table 6). -/
structure Tile where
  rows : Nat
  planes : Nat
  rowBytes : Nat
  srcStride : Nat
  dstStride : Nat
  srcPitch : Nat
  dstPitch : Nat
  deriving DecidableEq, Repr

/-- The tile of a COPY. -/
def tileOf (b : List Byte) : Tile :=
  ⟨field b 0x0C 2, field b 0x0E 2, field b 0x20 4, field b 0x24 4, field b 0x28 4, field b 0x2C 2, field b 0x2E 2⟩

/-- The fields of GATHER and SCATTER (07 Table 7). -/
structure Indexed where
  count : Nat
  bound : Nat
  elem : Nat
  index64 : Bool
  scaled : Bool
  deriving DecidableEq, Repr

/-- The index fields of a descriptor. -/
def indexedOf (b : List Byte) : Indexed :=
  let s := field b 0x28 8
  ⟨field b 0x0C 4, bits s 0 40, bits s 40 17, bits s 57 1 == 1, bits s 58 1 == 1⟩

/-- Bytes of an index entry. -/
def Indexed.width (x : Indexed) : Nat := if x.index64 then 8 else 4

/-- LENGTH, bits [39:0] at 0x20. -/
def lengthOf (b : List Byte) : Nat := bits (field b 0x20 8) 0 40

/-- A COPY is linear. -/
def isLinear (b : List Byte) : Bool := (tileOf b).rows == 0

/-- Bytes of a tile. -/
def Tile.total (t : Tile) : Nat := t.rowBytes * t.rows * max t.planes 1

/-- The total of a data descriptor, counted in its canonical order. -/
def totalOf (b : List Byte) : Nat :=
  if opOf b = 0x01 then (if isLinear b then lengthOf b else (tileOf b).total)
  else if opOf b = 0x02 ∨ opOf b = 0x03 then (indexedOf b).count * (indexedOf b).elem
  else lengthOf b

/-- The extent of a tile's side, from its base to its last byte (07 R194, R196). -/
def Tile.extent (t : Tile) (stride pitch : Nat) : Nat :=
  (max t.planes 1 - 1) * pitch * stride + (t.rows - 1) * stride + t.rowBytes

/-- Bytes of the extent of operand i (07 R194). -/
def extentOf (b : List Byte) (i : Nat) : Nat :=
  let op := opOf b
  if op = 0x01 then
    if isLinear b then lengthOf b
    else if i = 0 then (tileOf b).extent (tileOf b).srcStride (tileOf b).srcPitch
    else (tileOf b).extent (tileOf b).dstStride (tileOf b).dstPitch
  else if op = 0x02 ∨ op = 0x03 then
    let x := indexedOf b
    if i = 2 then x.count * x.width
    else if (i = 0) = (op = 0x02) then x.bound
    else x.count * x.elem
  else if op = 0x20 then (if i = 0 then lengthOf b else 8)
  else if op = 0x21 then 96
  else if op = 0x50 then 32
  else lengthOf b

/-- Where a canonical offset lies: the offset in the source, in the destination, and the bytes left in its row, element or range. For an indexed operand `entry` gives the offset of an element. -/
structure Place where
  src : Nat
  dst : Nat
  left : Nat
  deriving DecidableEq, Repr

/-- Offset o_k of an index entry (07 R201). -/
def Indexed.offset (x : Indexed) (entry : Nat) : Nat := if x.scaled then entry * x.elem else entry

/-- Entry k is out of range (07 R202). -/
def Indexed.badEntry (x : Indexed) (entry : Nat) : Bool :=
  decide (x.bound < x.offset entry + x.elem) || decide (2 ^ 64 ≤ x.offset entry)

/-- The place of canonical offset p (07 R196, R201). `o` is the offset of the element that contains p. -/
def placeOf (b : List Byte) (o p : Nat) : Place :=
  let op := opOf b
  if op = 0x01 ∧ ¬ isLinear b then
    let t := tileOf b
    let k := p / t.rowBytes
    let j := p % t.rowBytes
    let pl := k / t.rows
    let r := k % t.rows
    ⟨pl * t.srcPitch * t.srcStride + r * t.srcStride + j, pl * t.dstPitch * t.dstStride + r * t.dstStride + j, t.rowBytes - j⟩
  else if op = 0x02 then ⟨o + p % (indexedOf b).elem, p, (indexedOf b).elem - p % (indexedOf b).elem⟩
  else if op = 0x03 then ⟨p, o + p % (indexedOf b).elem, (indexedOf b).elem - p % (indexedOf b).elem⟩
  else ⟨p, p, totalOf b - p⟩

/-- Bytes of the burst at canonical offset p (07 R212): to the end of the row, element or range, cut at multiples of the burst size of the destination's address; for COMPARE, of range A. -/
def burstLen (b : List Byte) (o p : Nat) : Nat :=
  let pl := placeOf b o p
  let a := if opOf b = 0x05 then addrOf b 0 + pl.src else addrOf b 1 + pl.dst
  min pl.left (burstOf b - a % burstOf b)

/-! ### Checks at fetch (07 R219) -/

/-- The offset of the first byte of a range that is not zero. -/
def firstNonZero (b : List Byte) (o : Nat) : Nat → Option Nat
  | 0 => none
  | n + 1 => if field b o 1 ≠ 0 then some o else firstNonZero b (o + 1) n

/-- A check: the offset of its field, and whether it fails. -/
abbrev Check := Nat × Bool

/-- The checks of a reserved range. -/
def reservedCheck (b : List Byte) (o n : Nat) : List Check :=
  match firstNonZero b o n with
  | some k => [(k, true)]
  | none => []

/-- The extent of operand i leaves its address form, or a GRID address has a reserved bit set (07 R192, R194). -/
def badAddress (b : List Byte) (i : Nat) : Bool :=
  let a := addrOf b i
  let sel := selOf b i
  if sel = 1 then decide (2 ^ 64 < a + extentOf b i)
  else if sel = 2 then decide (2 ^ 48 < a + extentOf b i) || decide (2 ^ 48 ≤ a)
  else if sel = 4 then bits a 20 4 != 0 || bits a 48 8 != 0
  else false

/-- The selector of operand i breaks R191. -/
def badSel (need sel : Nat) : Bool :=
  decide (4 < sel) || (need == 0 && sel != 0) || (need == 1 && sel == 0)

/-- Checks of bytes 0x00–0x0B and of CONTROL (07 R188, R189, R191, R224; 06 R174; 11 R335, R337; 14 R398; 15 R426; 19 R533). -/
def commonChecks (b : List Byte) (i : OpInfo) : List Check :=
  let t := trigOf b
  let p := paceOf b
  let modeS := (List.range 3).any fun k => selOf b k == 1
  [(0x01, decide (8 ≤ flagsOf b) || (overlapOf b && !i.overlap) || (flagDstOf b && !i.flagDst)),
   (0x02, decide (31 < vectorOf b)),
   (0x03, p == 3 || decide (8 < burstCode b) || (t != 0 && !i.trig) || (p != 0 && !i.pace) || (t == 0 && p != 0) || (p == 1 && t != 2)),
   (0x04, (t == 0 && trigArgOf b != 0) || (t == 1 && decide (63 < trigArgOf b)) || (t == 2 && decide (255 < trigArgOf b))),
   (0x06, badSel i.op0 (selOf b 0) || badSel i.op1 (selOf b 1) || badSel i.op2 (selOf b 2) || selOf b 3 != 0 ||
      ((opOf b == 0x30 || opOf b == 0x31) && decide (2 < selOf b 0)) ||
      ((opOf b == 0x21 || opOf b == 0x50) && selOf b 0 == 4) || (opOf b == 0x20 && selOf b 1 == 4)),
   (0x08, !modeS && opOf b != 0x21 && pasidOf b != 0),
   (0x0B, bits (field b 0x08 4) 28 4 != 0),
   (0x3C, bits (field b 0x3C 4) 16 15 != 0)]

/-- Reserved bits above bit 39 of the 8-byte LENGTH at 0x20. -/
def lengthReserved (b : List Byte) : List Check := reservedCheck b 0x25 3

/-- The checks of each opcode's own bytes (07 Tables 6–9, R195–R201, R215; 11 R337). Planes of one row overlap where DST_PLANE_PITCH × DST_ROW_STRIDE is below ROW_BYTES: DST_PLANE_PITCH is the field that fails (DEDUCED, log entry 79). -/
def opChecks (b : List Byte) : List Check :=
  let op := opOf b
  let a0 := (0x10, badAddress b 0)
  let a1 := (0x18, badAddress b 1)
  let flagDst : List Check := if flagDstOf b then
      [(0x20, totalOf b == 0 || decide (64 < totalOf b)), (0x18, decide (64 < addrOf b 1 % 64 + extentOf b 1))] else []
  if op = 0x01 then
    let t := tileOf b
    flagDst ++ if t.rows = 0 then
      [a0, a1, (0x0E, t.planes != 0)] ++ lengthReserved b ++ reservedCheck b 0x28 8
    else
      [a0, a1, (0x20, t.rowBytes == 0 || decide (2 ^ 40 - 1 < t.total)),
       (0x28, decide (1 < t.rows) && decide (t.dstStride < t.rowBytes)),
       (0x2E, decide (1 < t.planes) && (decide (t.dstPitch < t.rows) || decide (t.dstPitch * t.dstStride < t.rowBytes)))] ++
      if t.planes = 0 then reservedCheck b 0x2C 4 else []
  else if op = 0x02 ∨ op = 0x03 then
    let x := indexedOf b
    [a0, a1, (0x20, badAddress b 2 || addrOf b 2 % x.width != 0), (0x0C, x.count == 0 || decide (2 ^ 40 - 1 < x.count * x.elem)),
     (0x28, x.bound == 0 || x.elem == 0 || decide (65536 < x.elem)), (0x2F, decide (8 ≤ field b 0x2F 1))]
  else if op = 0x04 then flagDst ++ a1 :: reservedCheck b 0x0C 12 ++ lengthReserved b
  else if op = 0x05 then [a0, a1] ++ reservedCheck b 0x0C 4 ++ lengthReserved b ++ reservedCheck b 0x28 8
  else if op = 0x11 then (0x0C, decide (1 < field b 0x0C 1)) :: reservedCheck b 0x0D 35
  else if op = 0x12 then [(0x0C, decide (255 < field b 0x0C 2)), (0x0E, decide (2 < field b 0x0E 1))] ++ reservedCheck b 0x0F 33
  else if op = 0x13 then
    [(0x0C, decide (255 < field b 0x0C 2)), (0x0E, decide (field b 0x0E 1 < 1) || decide (3 < field b 0x0E 1))] ++ reservedCheck b 0x0F 33
  else if op = 0x20 then
    [a0, a1, (0x18, selOf b 1 == 0 && addrOf b 1 != 0),
     (0x28, field b 0x28 4 != 0 && (decide (field b 0x28 4 < 100) || decide (10000 < field b 0x28 4)))] ++
      reservedCheck b 0x0C 4 ++ lengthReserved b ++ reservedCheck b 0x2C 4
  else if op = 0x21 ∨ op = 0x50 then a0 :: reservedCheck b 0x0C 4 ++ reservedCheck b 0x18 24
  else if op = 0x30 then
    [a0, (0x0C, decide (field b 0x0C 1 < 1) || decide (2 < field b 0x0C 1))] ++ reservedCheck b 0x0D 3 ++
      reservedCheck b 0x18 8 ++ lengthReserved b ++ reservedCheck b 0x28 8
  else if op = 0x31 then
    [a0, (0x0C, decide (field b 0x0C 1 < 1) || decide (3 < field b 0x0C 1)), (0x0D, decide (1 < field b 0x0D 1)),
     (0x28, field b 0x0C 1 == 2 && decide (8 < field b 0x28 8))] ++
      reservedCheck b 0x0E 2 ++ reservedCheck b 0x18 8 ++ lengthReserved b
  else if op = 0x40 then
    (0x20, lengthOf b % 4096 != 0 || lengthOf b == 0 || decide (2 ^ 20 < lengthOf b)) ::
      reservedCheck b 0x0C 20 ++ lengthReserved b ++ reservedCheck b 0x28 8
  else if op = 0x41 then reservedCheck b 0x0C 28
  else if op = 0x51 then reservedCheck b 0x0E 34
  else reservedCheck b 0x0C 36

/-- The lowest offset among the failing checks. -/
def lowestFailure (l : List Check) : Option Nat := ((l.filter Prod.snd).map Prod.fst).min?

/-- The first failure of a descriptor at fetch, by the lowest offset (07 R219). -/
def fetchCheck (b : List Byte) : Option Nat :=
  match opInfo (opOf b) with
  | none => some 0
  | some i => lowestFailure (commonChecks b i ++ opChecks b)

/-- Byte of the PATTERN that FILL writes at address a (07 R205). -/
def fillByte (b : List Byte) (a : Nat) : Byte := BitVec.ofNat 8 (field b (0x28 + a % 8) 1)

/-- The bytes FILL writes to `[a, a + n)`. -/
def fillBytes (b : List Byte) (a : Nat) : Nat → List Byte
  | 0 => []
  | n + 1 => fillByte b a :: fillBytes b (a + 1) n

end Sys2Proof.Machine
end

