-- ==== Sys2Proof/Machine/HeadstockOps.lean ====
section
/-!
DEFINITION. The Headstock: the Mode D table and its walk, target checks, the translation cache, miss slots, billets and placements as operand spaces (07 R192, R193; 10).
-/

namespace Sys2Proof.Machine

/-! ### Billets and grants -/

/-- The handle of billet `index` in generation `gen` (07 R193). -/
def handleOf (index gen : Nat) : Nat := index * 2 ^ 20 + gen * 2 ^ 40

/-- A billet serves an operation of its owner that began at this place of the owner's started order: a free that was accepted keeps out later ones only (07 R211). -/
def Billet.serves (x : Billet) (order : Nat) : Bool := x.live && (x.freeing.map fun k => decide (order < k)).getD true

/-- The billet key of `off` bytes past a BILLET address that an operation of the bench may use: owned, current generation, the offset below its size (07 R193). -/
def State.billetKey (s : State) (b order addr off : Nat) : Option Nat :=
  let i := bits addr 20 20
  let x := tabGet s.recovery.billets .reset i
  let o := addr % 2 ^ 20 + off
  if addr < 2 ^ 60 ∧ x.serves order ∧ x.owner = b ∧ x.gen = bits addr 40 20 ∧ o < x.kib * 1024 then some (i * 2 ^ 20 + o) else none

/-- The grants of a bench or guest on dies of this hub. -/
def State.grantsOf (s : State) (b : Nat) : List Grant :=
  if b < 256 then (s.bench b).grants.filter fun g => g.hub == 255
  else ((s.guest (b - 256)).map Guest.grants).getD []

/-- `[off, off + len)` of a die is held in grants, on one or several (05 R136; 10 R293). -/
def covered (gs : List Grant) (die : Nat) : Nat → Nat → Nat → Bool
  | 0, _, len => len == 0
  | n + 1, off, len =>
    if len = 0 then true else
    match gs.find? fun g => g.die == die && decide (g.offset ≤ off) && decide (off < g.offset + g.length) with
    | none => false
    | some g =>
      let k := g.offset + g.length - off
      if len ≤ k then true else covered gs die n (off + k) (len - k)

/-- The bench holds the range. -/
def State.holds (s : State) (b die off len : Nat) : Bool :=
  let gs := s.grantsOf b
  covered gs die (gs.length + 1) off len

/-- The die is in the placement map: UP or RECOVERY (13 R383, R388). -/
def State.dieMapped (s : State) (d : Nat) : Bool :=
  decide (d < s.nDies) && ((s.die d).state == .up || (s.die d).state == .recovery)

/-! ### The Mode D table (10 R290–R294) -/

/-- V of an entry. -/
def entV (e : Nat) : Bool := bits e 0 1 == 1
/-- W. -/
def entW (e : Nat) : Bool := bits e 1 1 == 1
/-- PIN. -/
def entPin (e : Nat) : Bool := bits e 2 1 == 1
/-- LEAF. -/
def entLeaf (e : Nat) : Bool := bits e 3 1 == 1
/-- CNT. -/
def entCnt (e : Nat) : Bool := bits e 4 1 == 1
/-- PEER. -/
def entPeer (e : Nat) : Bool := bits e 5 1 == 1
/-- CONTIG. -/
def entContig (e : Nat) : Nat := bits e 6 2
/-- The Frame field, as bits [51:12]. -/
def entFrame (e : Nat) : Nat := bits e 12 40
/-- Target. -/
def entTarget (e : Nat) : Nat := bits e 52 4

/-- How a walk ends (10 R293). -/
inductive WalkEnd where
  /-- a replayable failure, with its KIND (11 Table 1) -/
  | fault (kind : Nat)
  /-- XLATE_FATAL with its DETAIL -/
  | fatal (detail : Nat)
  /-- PERMISSION: a billet the bench does not own -/
  | permission
  /-- a usable leaf -/
  | leaf (e : CacheEntry)
  deriving DecidableEq, Repr

/-- Bits of the DVA below those that index a level (10 Table 3). -/
def levelShift (level : Nat) : Nat := 3 + 9 * level

/-- Entry of a page that a DVA selects. -/
def TablePage.at (p : TablePage) (dva : Nat) : Nat := (tabGet p.entries 0 (dva / 2 ^ levelShift p.level % 512)).toNat

/-- The page of a table with this number, at this level. -/
def ModeD.page (t : ModeD) (level id : Nat) : Option TablePage := t.pages.find? fun p => p.id == id && p.level == level

/-- A non-leaf entry breaks 10 Table 4. -/
def badNonLeaf (e : Nat) : Bool := bits e 1 11 != 0 || entTarget e != 0

/-- log2 of the page that a leaf of a level maps (10 Table 3). -/
def leafSize (level e : Nat) : Nat := if level = 3 then 30 else if level = 2 then 21 else if entContig e = 1 then 16 else 12

/-- An entry stands for a next table: every entry of level 4, and one of level 3 or 2 with LEAF = 0 (10 R291). -/
def nonLeafAt (level e : Nat) : Bool := level == 4 || (decide (2 ≤ level) && !entLeaf e)

/-- An entry of a level leads to a next table: valid, non-leaf and as 10 Table 4 has it. -/
def leadsOn (level e : Nat) : Bool := entV e && nonLeafAt level e && !badNonLeaf e

/-- A leaf breaks 10 Table 4 or Table 5 at its level. -/
def badLeaf (level e : Nat) : Bool :=
  bits e 8 4 != 0 || decide (2 ≤ entContig e) || (entContig e == 1 && level != 1) || (level == 1 && entLeaf e) ||
  decide (3 < entTarget e) || (entTarget e == 3 && level != 2) ||
  (decide (entTarget e < 3) && entFrame e * 4096 % 2 ^ levelShift level != 0)

/-- The cache entry that a leaf gives (10 R294): a CONTIG member gives its whole run. -/
def leafEntry (b level e dva : Nat) : CacheEntry :=
  let z := leafSize level e
  let frame := if entTarget e = 3 then entFrame e * 2 ^ 20
    else if z = 16 then (entFrame e * 4096 + 2 ^ 52 - dva / 4096 % 16 * 4096) % 2 ^ 52 else entFrame e * 4096
  ⟨0, b, true, 0, z, dva / 2 ^ z, entTarget e, frame, entW e, entPin e, entCnt e, entPeer e⟩

/-- The target check of a leaf (10 R293): hole, grant, billet. -/
def State.targetCheck (s : State) (e : CacheEntry) : WalkEnd :=
  if e.target = 0 then
    let d := e.frame / 2 ^ 36
    if ¬ s.dieMapped d ∨ dieBytes < e.frame % 2 ^ 36 + 2 ^ e.size then .fatal 1
    else if ¬ s.holds e.bench d (e.frame % 2 ^ 36) (2 ^ e.size) then .fatal 2 else .leaf e
  else if e.target = 3 then
    if (s.billetKey e.bench 0 e.frame 0).isSome then .leaf e else .permission
  else .leaf e

/-- The leaf at a level, with the write check and the target check. -/
def State.leafEnd (s : State) (b level e dva : Nat) (write : Bool) : WalkEnd :=
  if badLeaf level e then .fatal 3
  else if write ∧ ¬ entW e then .fault 2
  else s.targetCheck (leafEntry b level e dva)

/-- The table copy of a bench or guest on this hub. -/
def State.tableOf (s : State) (b : Nat) : ModeD :=
  if b < 256 then (s.bench b).modeD else ((s.guest (b - 256)).map Guest.modeD).getD .reset

/-- The page at `depth` levels below the root on the path of a DVA. -/
def ModeD.pageBelow (t : ModeD) (dva : Nat) : Nat → Option Nat
  | 0 => t.root
  | d + 1 => (t.pageBelow dva d).bind fun id => (t.page (4 - d) id).bind fun p =>
      if leadsOn (4 - d) (p.at dva) then some (entFrame (p.at dva)) else none

/-- The page on the path of a DVA whose entries stand at a level. -/
def ModeD.pathPage (t : ModeD) (level dva : Nat) : Option Nat := t.pageBelow dva (4 - level)

/-- The entry of a level on the path of a DVA; 0 where the path is absent. -/
def ModeD.entry (t : ModeD) (level dva : Nat) : Nat :=
  (((t.pathPage level dva).bind (t.page level)).map fun p => p.at dva).getD 0

/-- The leaf entry that maps a DVA below page `id` of a level, with its level. -/
def ModeD.leafFrom (t : ModeD) (dva : Nat) : Nat → Nat → Option (Nat × Nat)
  | 0, _ => none
  | n + 1, id =>
    (t.page (n + 1) id).bind fun p =>
      let e := p.at dva
      if ¬ entV e then none
      else if nonLeafAt (n + 1) e then t.leafFrom dva n (entFrame e) else some (n + 1, e)

/-- The leaf entry that maps a DVA, with its level, if its path is valid. -/
def ModeD.leaf (t : ModeD) (dva : Nat) : Option (Nat × Nat) := t.root.bind fun r => t.leafFrom dva 4 r

/-- A walk from the page `id` of a level on (10 R293): the first condition that holds decides. A page that is none of this table at that level makes the entry that named it malformed. -/
def State.walkFrom (s : State) (b dva : Nat) (write : Bool) : Nat → Nat → WalkEnd
  | 0, _ => .fatal 3
  | n + 1, id =>
    match (s.tableOf b).page (n + 1) id with
    | none => .fatal 3
    | some p =>
      let e := p.at dva
      if ¬ entV e then .fault 1
      else if ¬ nonLeafAt (n + 1) e then s.leafEnd b (n + 1) e dva write
      else if badNonLeaf e then .fatal 3
      else s.walkFrom b dva write n (entFrame e)

/-- The walk-cache entry of a level for a DVA. -/
def State.walkHit (s : State) (b dva level : Nat) : Option WalkEntry :=
  s.headstock.walkCache.find? fun e => e.bench == b && e.level == level && e.index == dva / 2 ^ levelShift level

/-- Where a walk begins (10 R284): the level of its first read, the page read, and the walk-cache entry that named that page. -/
def State.walkStart (s : State) (b dva : Nat) : Option (Nat × Nat × Option WalkEntry) :=
  match s.walkHit b dva 2, s.walkHit b dva 3, s.walkHit b dva 4 with
  | some e, _, _ => some (1, entFrame e.entry.toNat, some e)
  | none, some e, _ => some (2, entFrame e.entry.toNat, some e)
  | none, none, some e => some (3, entFrame e.entry.toNat, some e)
  | none, none, none => (s.tableOf b).root.map fun r => (4, r, none)

/-- A walk of a bench's or guest's table (10 R284, R293): from the walk cache where it holds an entry on the path, else from the root. -/
def State.walk (s : State) (b dva : Nat) (write : Bool) : WalkEnd :=
  if 2 ^ 48 ≤ dva then .fault 1 else
  match s.walkStart b dva with
  | none => .fault 1
  | some (level, id, _) => s.walkFrom b dva write level id

/-- The non-leaf entries that a walk from page `id` of a level reads, deepest first. -/
def State.walkReads (s : State) (b dva : Nat) : Nat → Nat → List WalkEntry
  | 0, _ => []
  | n + 1, id =>
    match (s.tableOf b).page (n + 1) id with
    | none => []
    | some p =>
      let e := p.at dva
      if leadsOn (n + 1) e then s.walkReads b dva n (entFrame e) ++ [⟨b, n + 1, dva / 2 ^ levelShift (n + 1), BitVec.ofNat 64 e⟩] else []

/-- The set of a walk-cache entry. -/
def WalkEntry.set (e : WalkEntry) : Nat := Config.walkSet e.bench e.level e.index % 256

/-- A walk-cache entry becomes the most recently used of its set, whose eighth other one leaves. -/
def keepWalk (l : List WalkEntry) (e : WalkEntry) : List WalkEntry :=
  let rest := l.filter fun x => !(x.bench == e.bench && x.level == e.level && x.index == e.index)
  let out := (rest.filter fun x => x.set == e.set).drop 7
  e :: rest.filter fun x => !out.contains x

/-- The non-leaf entries that a walk used are the walk cache's most recent (10 R284); none are kept while it is quarantined (18 R526). -/
def State.fillWalkCache (s : State) (b va : Nat) : State :=
  if s.bg.testing.contains .walkCache then s else
  match s.walkStart b va with
  | none => s
  | some (level, id, hit) =>
    { s with headstock := { s.headstock with walkCache := (hit.toList ++ (s.walkReads b va level id).reverse).foldl keepWalk s.headstock.walkCache } }

/-! ### The translation cache (10 R279–R282, R298, R299) -/

/-- PASID tag of a request that carries none (10 R107: ring addresses without PASID_EN). -/
def noPasid : Nat := 2 ^ 20

/-- The PASID tag of a Mode S request. -/
def pasidTag (p : Option Nat) : Nat := p.getD noPasid

/-- The entry covers the address under this tag. -/
def CacheEntry.hits (e : CacheEntry) (b : Nat) (modeD : Bool) (pasid va : Nat) : Bool :=
  e.bench == b && e.modeD == modeD && e.pasid == pasid && e.vpn == va / 2 ^ e.size

/-- The smaller of two candidates. -/
def smallerEntry (a : Option CacheEntry) (e : CacheEntry) : Option CacheEntry :=
  match a with
  | none => some e
  | some x => if e.size < x.size then some e else some x

/-- A lookup (10 R280, R281): the smallest entry that covers the address. -/
def State.lookup (s : State) (b : Nat) (modeD : Bool) (pasid va : Nat) : Option CacheEntry :=
  (s.headstock.cache.filter fun e => e.hits b modeD pasid va).foldl smallerEntry none

/-- The entry becomes the most recently used. -/
def State.touch (s : State) (e : CacheEntry) : State :=
  { s with headstock := { s.headstock with cache := e :: s.headstock.cache.filter fun x => x != e } }

/-- A lookup that an access uses: it counts as a hit, and the entry becomes the most recently used (10 R282; 20 R562). -/
def State.useEntry (s : State) (b : Nat) (modeD : Bool) (pasid va : Nat) : State :=
  match s.lookup b modeD pasid va with
  | some e => ((s.countPerf 128 1).countPerf 129 1).touch e
  | none => s

/-- Of one tag. -/
def CacheEntry.same (x e : CacheEntry) : Bool :=
  x.bench == e.bench && x.modeD == e.modeD && x.pasid == e.pasid && x.size == e.size && x.vpn == e.vpn

/-- The set of an entry. -/
def CacheEntry.set (e : CacheEntry) : Nat := Config.cacheSet e.bench e.modeD e.pasid e.size e.vpn % 4096

/-- Ways of a set in use by bench, unpinned. -/
def unpinnedWays (l : List CacheEntry) (b : Nat) : Nat := (l.filter fun e => !e.pin && e.bench == b).length

/-- The entry of a full set that a fill replaces (10 R282): of the benches with most unpinned ways, the least recently used. -/
def victim (set : List CacheEntry) : Option CacheEntry :=
  let free := set.filter fun e => !e.pin
  let most := (free.map fun e => unpinnedWays set e.bench).foldl max 0
  (free.filter fun e => unpinnedWays set e.bench == most).getLast?

/-- The lowest way of 16 that no entry of the set stands in. -/
def freeWay (used : List Nat) : Nat → Nat → Nat
  | 0, w => w
  | n + 1, w => if used.contains w then freeWay used n (w + 1) else w

/-- A pin that does not fit is counted, and its DVA recorded (10 R299, R306). -/
def State.pinFull (s : State) (b dva : Nat) : State :=
  let s := { s with headstock := { s.headstock with pinFullCount := s.headstock.pinFullCount + 1 } }
  if 256 ≤ b then s else
  s.modBench b fun x => { x with invRing := { x.invRing with pinFull := true, pinFullDva := BitVec.ofNat 64 dva, pinFailed := true } }

/-- Ways that no fill uses: retired, or quarantined for a self-test (18 R528, R529). -/
def State.closedWays (s : State) : List Nat :=
  (List.range 16).filter fun w => s.headstock.retired.contains w || s.bg.testing.contains (.hsWay w)

/-- A fill of the cache (10 R282, R298, R299); a pinned entry joins its bench's pin list. `low`: a prefetch fill, placed as the least recently used. -/
def State.install (s : State) (e : CacheEntry) (low : Bool) : State :=
  let s := { s with headstock := { s.headstock with
    cache := s.headstock.cache.filter fun x => !x.same e
    pins := s.headstock.pins.filter fun x => !x.same e } }
  let c := s.headstock.cache
  let set := c.filter fun x => x.set == e.set
  let closed := s.closedWays
  if e.pin ∧ (12 ≤ (set.filter CacheEntry.pin).length ∨ 49152 ≤ (c.filter CacheEntry.pin).length) then
    s.pinFull e.bench (e.vpn * 2 ^ e.size)
  else
    let put : List CacheEntry → Nat → State := fun l w =>
      let e := { e with way := w }
      { s with headstock := { s.headstock with
        cache := if low then l ++ [e] else e :: l
        pins := if e.pin then s.headstock.pins ++ [{ e with way := 0 }] else s.headstock.pins } }
    if set.length < 16 - closed.length then put c (freeWay (set.map CacheEntry.way ++ closed) 16 0)
    else
      match victim set with
      | none => s
      | some v => put (c.filter fun x => x != v) v.way

/-- Every entry that satisfies `p` is removed from the cache and from the pin lists. -/
def State.dropEntries (s : State) (p : CacheEntry → Bool) : State :=
  { s with headstock := { s.headstock with
    cache := s.headstock.cache.filter fun e => !p e
    pins := s.headstock.pins.filter fun e => !p e } }

/-- The entry covers some part of `[base, base + len)` of its virtual space. -/
def CacheEntry.overlaps (e : CacheEntry) (base len : Nat) : Bool :=
  decide (e.vpn * 2 ^ e.size < base + len) && decide (base < (e.vpn + 1) * 2 ^ e.size)

/-- The frame of the entry lies on some part of `[off, off + len)` of a die. -/
def CacheEntry.onDie (e : CacheEntry) (die off len : Nat) : Bool :=
  e.modeD && e.target == 0 && e.frame / 2 ^ 36 == die && decide (e.frame % 2 ^ 36 < off + len) && decide (off < e.frame % 2 ^ 36 + 2 ^ e.size)

/-! ### Misses (10 R283) -/

/-- The miss is of this page of this tag. -/
def Miss.same (m : Miss) (b : Nat) (modeD : Bool) (pasid : Option Nat) (page : Nat) : Bool :=
  m.bench == b && m.modeD == modeD && m.pasid == pasid && m.page == page && !m.stale

/-- The waiter is a TLP of its own, which no equal one stands for: BAR2 accesses (04 R97). -/
def Waiter.isTlp : Waiter → Bool
  | .bar2Read _ _ _ _ _ => true
  | .bar2Write _ _ _ _ => true
  | _ => false

/-- A request that misses joins the slot of its page, or queues for one (10 R283); its lookup is counted once (20 R562). -/
def State.request (s : State) (b : Nat) (modeD : Bool) (pasid : Option Nat) (va : Nat) (write : Bool) (w : Waiter) : State :=
  let page := va / 4096
  let join : Miss → Miss := fun m =>
    if m.same b modeD pasid page then
      { m with write := m.write || write, waiters := if m.waiters.contains w ∧ ¬ w.isTlp then m.waiters else m.waiters ++ [w] }
    else m
  let s := if (s.headstock.misses.any fun m => m.same b modeD pasid page && m.waiters.contains w) ∧ ¬ w.isTlp then s else s.countPerf 128 1
  if s.headstock.misses.any fun m => m.same b modeD pasid page then
    { s with headstock := { s.headstock with misses := s.headstock.misses.map join } }
  else
    { s with headstock := { s.headstock with
      nextMiss := s.headstock.nextMiss + 1
      misses := s.headstock.misses ++ [⟨s.headstock.nextMiss, b, modeD, pasid, page, write, .queued, false, [w]⟩] } }

/-- Miss slots in use. -/
def State.missSlots (s : State) : Nat := (s.headstock.misses.filter fun m => m.stage != .queued).length

/-- Walkers in use. -/
def State.walkers (s : State) : Nat := (s.headstock.misses.filter fun m => m.stage == .walking).length

/-- Only prefetches wait on it (10 R313). -/
def Miss.prefetchOnly (m : Miss) : Bool := m.waiters.all fun w =>
  match w with
  | .prefetch => true
  | .prefetchDesc _ _ => true
  | _ => false

/-- The miss leaves, and its tallies end (10 R284). -/
def State.endMiss (s : State) (m : Miss) : State :=
  let s := { s with headstock := { s.headstock with misses := s.headstock.misses.erase m } }
  let s := if m.stage = .queued then s else s.endTally 0x04 m.bench m.page
  if m.stage = .walking then s.endTally 0x05 m.bench m.page else s

/-- Requests of a bench to the Headstock end: queued ones leave, running ones finish with their result discarded (10 R310). -/
def State.dropMisses (s : State) (b : Nat) (p : Miss → Bool) : State :=
  { s with headstock := { s.headstock with
    misses := (s.headstock.misses.filter fun m => !(m.bench == b && p m && m.stage == .queued)).map fun m =>
      if m.bench == b && p m then { m with stale := true, waiters := [] } else m } }

/-! ### Access counting (11 R330, R334) -/

/-- One access to a counted region is queued, or dropped and counted when 4,096 updates wait. -/
def State.countAccess (s : State) (b dva : Nat) : State :=
  if 256 ≤ b ∨ ((s.classOf b).map BenchClass.hotThreshold).getD 0 = 0 then s
  else if s.headstock.counts.length < 4096 then
    { s with headstock := { s.headstock with counts := s.headstock.counts ++ [(b, dva / 65536)] } }
  else s.modBench b fun x => { x with countDropped := x.countDropped + 1 }

/-! ### Placements as an operand space (07 R192; 14 R403, R404) -/

/-- Offset of a core's scratchpad byte in its die's address space (01 R24). -/
def dieScr (core off : Nat) : Nat := 2 ^ 36 + core * 2 ^ 24 + off

/-- SPA of a location of a die (01 R24). -/
def spaOf (die off : Nat) : BitVec 64 :=
  if off < 2 ^ 36 then BitVec.ofNat 64 (die * 2 ^ 36 + off) else BitVec.ofNat 64 (2 ^ 40 + die * 2 ^ 32 + (off - 2 ^ 36))

/-- A placement by home, bench and number. -/
def State.placement (s : State) (home b n : Nat) : Option Placement :=
  s.placements.find? fun p => p.home == home && p.bench == b && p.number == n

/-- The placement of bench `b` of this hub with this number. -/
def State.ownPlacement (s : State) (b n : Nat) : Option Placement := s.placement s.hubId b n

/-- A placement changed. -/
def State.modPlacement (s : State) (home b n : Nat) (f : Placement → Placement) : State :=
  { s with placements := s.placements.map fun p => if p.home == home && p.bench == b && p.number == n then f p else p }

/-- The core of a placement at a virtual position. -/
def Placement.coreAt (p : Placement) (row col : Nat) : Option PlacedCore := p.cores.find? fun c => c.row == row && c.col == col

/-! ### Translating an operand (07 R191–R193; 10 R285–R293; 12 R365) -/

/-- Where an operand byte lies, or what its translation meets. -/
inductive Xl where
  /-- it lies here -/
  | ok (d : Dest)
  /-- not cached: Mode D, PASID of a Mode S request -/
  | miss (modeD : Bool) (pasid : Option Nat)
  /-- a replayable failure, with its KIND -/
  | fault (kind : Nat)
  /-- the operand ends with this code and DETAIL -/
  | stop (code detail : Nat)
  /-- it needs the host port, which the bench may not use now (12 R346) -/
  | noPort
  deriving DecidableEq, Repr

/-- Bytes a cached entry still covers from this address on. -/
def CacheEntry.room (e : CacheEntry) (va : Nat) : Nat := 2 ^ e.size - va % 2 ^ e.size

/-- A GRID address (07 R192). -/
def State.xlGrid (s : State) (b addr off : Nat) : Xl :=
  let o := addr % 2 ^ 20 + off
  match s.ownPlacement b (addr / 2 ^ 56) with
  | none => .stop 0x10 7
  | some p =>
    match p.coreAt (bits addr 24 12) (bits addr 36 12) with
    | none => .stop 0x10 7
    | some c =>
      if 2 ^ 19 ≤ o then .stop 0x10 7
      else if c.hub = s.hubId then .ok (.die c.die (dieScr c.core o)) else .ok (.remote c.hub c.die (dieScr c.core o))

/-- The peer window admits the operand: ENABLE, the class, the whole extent inside 16 GiB (12 R365). -/
def State.peerCheck (s : State) (b dva extent : Nat) : Option (Nat × Nat) :=
  let p := (s.bench b).peer
  if ¬ p.enable ∨ ¬ s.classHas b BenchClass.peerAllowed then some (0x23, 1)
  else if dva < p.base.toNat ∨ p.base.toNat + 2 ^ 34 < dva + extent then some (0x23, 2) else none

/-- What a Mode D entry gives for an address. -/
def State.xlEntry (s : State) (e : CacheEntry) (order va : Nat) (write : Bool) (base extent : Nat) : Xl :=
  if write ∧ ¬ e.w then .fault 2 else
  let o := va % 2 ^ e.size
  if e.target = 0 then .ok (.die (e.frame / 2 ^ 36) (e.frame % 2 ^ 36 + o))
  else if e.target = 1 then (if s.mayUsePort e.bench then .ok (.host (e.frame + o)) else .noPort)
  else if e.target = 2 then
    match s.peerCheck e.bench base extent with
    | some (c, d) => .stop c d
    | none => if s.mayUsePort e.bench then .ok (.peer (e.frame + o)) else .noPort
  else
    match s.billetKey e.bench order e.frame o with
    | some k => .ok (.billet k)
    | none => .stop 0x12 0

/-- The Mode S enables of the bench's function (04 R106). -/
def State.modeSEnabled (s : State) (b : Nat) : Bool :=
  let f := s.fnAt (s.bench b).port (s.bench b).fn
  f.pasidEn && f.atsEn && f.priEn

/-- One operand address of a bench of this hub translated: its operation's place in the started order, selector, PASID, the operand's base and extent, the offset in it. -/
def State.xlate (s : State) (b order sel pasid base extent off : Nat) (write : Bool) : Xl :=
  let va := base + off
  if sel = 1 then
    if ¬ s.classHas b BenchClass.modeS then .stop 0x12 0
    else if ¬ s.modeSEnabled b then .stop 0x10 4
    else if ¬ s.mayUsePort b then .noPort
    else
      match s.lookup b false pasid va with
      | none => .miss false (some pasid)
      | some e => if write ∧ ¬ e.w then .fault 3 else .ok (.host (e.frame + va % 2 ^ e.size))
  else if sel = 2 then
    if ¬ s.classHas b BenchClass.modeD then .stop 0x12 0
    else
      match s.lookup b true 0 va with
      | none => .miss true none
      | some e => s.xlEntry e order va write base extent
  else if sel = 3 then
    match s.billetKey b order base off with
    | some k => .ok (.billet k)
    | none => .stop 0x12 0
  else s.xlGrid b base off

end Sys2Proof.Machine
end

