-- ==== Sys2Proof/Machine/RingOps.lean ====
section
/-!
DEFINITION. Rings: tails, states, parking, channels, knock lines, stopping and ending descriptors, the fault queue (06 R161–R184; 07 R220, R221; 08 R231, R234; 11 R317–R329).
-/

namespace Sys2Proof.Machine

/-! ### States (06 R161, R178–R181) -/

/-- A descriptor in execution: started, which a triggered one has with its trigger (07 R223, R227), and without a written status. -/
def Desc.running (d : Desc) : Bool := d.phase == .fired || d.phase == .started || d.phase == .eventWait || d.phase == .ending

/-- The descriptors up to the last one in execution or faulted: what a ring keeps when it drops those fetched ahead. -/
def Ring.kept (r : Ring) : List Desc := (r.descs.reverse.dropWhile fun d => !(d.running || d.phase == .faulted)).reverse

/-- The ring with a state that follows from what it holds: PAUSE, work started, work left. PARKED, DISABLED and ABORTING stand. -/
def Ring.settle (r : Ring) : Ring :=
  if r.state = .disabled ∨ r.state = .parked ∨ r.state = .aborting then r
  else if r.pause then { r with state := if r.descs.any fun d => d.running || d.phase == .faulted then .pausing else .paused }
  else { r with state := if r.head = r.tail then .idle else .running }

/-- The ring leaves PARKED. -/
def Ring.unpark (r : Ring) : Ring := Ring.settle { r with state := .running, park := .none }

/-- A tail value offered to the ring (06 R161). Answers whether it was one already seen. -/
def Ring.offer (r : Ring) (v : BitVec 32) : Bool × Ring :=
  if (v - r.tail).toInt ≤ 0 then (true, r)
  else if (v - r.head).toNat ≤ 2 ^ r.log2.toNat then
    (false, Ring.settle { r with tail := v, ownStop := false })
  else (false, { r with badTail := r.badTail + 1 })

/-- The oldest descriptor not completed. -/
def Ring.oldest (r : Ring) : Option Desc := r.descs.head?

/-- A descriptor of the ring changed, by its count. -/
def Ring.modDesc (r : Ring) (c : BitVec 32) (f : Desc → Desc) : Ring :=
  { r with descs := r.descs.map fun d => if d.count = c then f d else d }

/-- A descriptor changed. -/
def State.modDesc (s : State) (b r : Nat) (c : BitVec 32) (f : Desc → Desc) : State := s.modRing b r fun x => x.modDesc c f

/-- A descriptor by count. -/
def State.desc (s : State) (b r : Nat) (c : BitVec 32) : Option Desc := (s.ring b r).descs.find? fun d => d.count == c

/-! ### Channels (08 R231, R234) -/

/-- Resource number of a channel in its tally: lathe and channel. -/
def channelNumber (l c : Nat) : Nat := l * 32 + c

/-- RING_PROGRESS: P of the descriptor at RING_HEAD, 0 before it starts (07 R221). -/
def Ring.progress (r : Ring) : Nat :=
  match r.oldest with
  | some d => if d.count = r.head then d.p else 0
  | none => 0

/-- PARK_CAUSE as RING_STATUS reads it (06 Table 5). -/
def ParkCause.code : ParkCause → Nat
  | .none => 0 | .fault => 1 | .error => 2 | .host => 3 | .fetch => 4 | .halt => 5

/-- An event of a ring for the trace (20 Table 5): its oldest descriptor, its progress. -/
def State.traceRing (s : State) (b r event arg1 : Nat) : State :=
  let x := s.ring b r
  s.trace b r event x.head (BitVec.ofNat 64 x.progress) (BitVec.ofNat 32 arg1)

/-- The ring gives up its channel, and the tally ends. `reason` as CHANNEL_GIVE reports it (20 Table 5): 1 idle, 2 turn, 3 quota, 4 pacing. -/
def State.giveUp (s : State) (b r reason : Nat) : State :=
  match (s.ring b r).channel with
  | none => s
  | some (l, c) =>
    let s := s.modLathe l fun x => { x with
      channels := tabSet c none x.channels, reserved := x.reserved.filter fun q => !(q.bench == b && q.ring == r) }
    ((s.modRing b r fun x => { x with channel := none }).endTally 0x03 b (channelNumber l c)).trace b r 5 (s.ring b r).head
      (BitVec.ofNat 64 l) (BitVec.ofNat 32 reason)

/-- Tenant channels that a bench holds: the HELD tallies of kind 0x03 below channel 30. -/
def State.channelsHeld (s : State) (b : Nat) : Nat :=
  (s.recovery.tallies.filter fun t => t.kind == 0x03 && t.owner == benchOwner b && t.state == .held && decide (t.resource.toNat % 32 < 30)).length

/-! ### Parking (06 R179; 07 R221; 08 R234) -/

/-- The in-flight reads of a descriptor become chaff; each keeps its slot (08 R242). -/
def State.chaffReads (s : State) (b r : Nat) (c : BitVec 32) : State :=
  let mark : SlotUse → SlotUse := fun u => if u.bench == b && u.ring == r && u.desc == c then { u with chaff := true } else u
  { s with lathes := s.lathes.map fun e => (e.1, { e.2 with reads := e.2.reads.map mark }) }

/-- Reorder space that a burst's discarded reads held is freed. -/
def State.freeReorder (s : State) (l : List Burst) : State :=
  l.foldl (fun s u => s.modLathe u.lathe fun x => { x with reorder := x.reorder - u.reorder }) s

/-- Where a run of bursts from P ends. -/
def burstsEnd (p : Nat) (l : List Burst) : Nat := (l.getLast?.map fun u => u.start + u.len).getD p

/-- The descriptor stops at its progress point (07 R221): writes issued from P on complete and may still advance P, issued reads are discarded, other bursts are issued again, and index entries are read again from the one that contains P. -/
def State.stopAtP (s : State) (b r : Nat) (c : BitVec 32) : State :=
  match s.desc b r c with
  | none => s
  | some d =>
    let keep := d.bursts.takeWhile Burst.issued
    let next := burstsEnd d.p keep
    ((s.freeReorder (d.bursts.drop keep.length)).chaffReads b r c).modDesc b r c fun d =>
      { d with next := next, bursts := keep, index := [], indexBase := next / max 1 (indexedOf d.bytes).elem, paceWait := none, roomWait := none }

/-- Every descriptor of a ring in execution stops at its progress point. -/
def State.stopRing (s : State) (b r : Nat) : State :=
  (s.ring b r).descs.foldl (fun s d => if d.phase = .started then s.stopAtP b r d.count else s) s

/-- The ring parks; with any cause but HALT it gives up its channel (06 R179; 08 R234); ERROR and FETCH discard its pending edges (07 R226). -/
def State.parkRing (s : State) (b r : Nat) (cause : ParkCause) : State :=
  let s := if cause = .halt then s else s.giveUp b r 1
  (s.modRing b r fun x =>
    { x with state := .parked, park := cause,
             edges := if cause = .error ∨ cause = .fetch then 0 else x.edges,
             edgesFrom := if cause = .error ∨ cause = .fetch then none else x.edgesFrom,
             edgeMarks := if cause = .error ∨ cause = .fetch then [] else x.edgeMarks }).traceRing b r 3 cause.code

/-- A ring that runs, whose entry at RING_HEAD could not be fetched, parks with cause FETCH (06 R173, R179). -/
def State.fetchPark (s : State) (b r : Nat) : State :=
  let x := s.ring b r
  if x.fetchFailed ∧ x.descs.isEmpty ∧ (x.state = .running ∨ x.state = .pausing) then s.parkRing b r .fetch else s

/-- A ring that needs the port while its function may not issue: its descriptors stop and it parks with cause HOST (04 R121; 12 R346). -/
def State.parkHost (s : State) (b r : Nat) : State :=
  if (s.ring b r).state = .running ∨ (s.ring b r).state = .pausing then (s.stopRing b r).parkRing b r .host else s

/-- A ring PARKED with this cause runs again. -/
def State.unparkRing (s : State) (b r : Nat) (cause : ParkCause) : State :=
  if (s.ring b r).state = .parked ∧ (s.ring b r).park = cause then
    let s := (s.modRing b r Ring.unpark).traceRing b r 4 0
    (if (s.ring b r).state = .paused then s.giveUp b r 1 else s).fetchPark b r
  else s

/-- Rings PARKED with cause HOST run again (04 R121; 06 R179). -/
def State.resumeHost (s : State) (b : Nat) : State :=
  (tabKeys (s.bench b).rings).foldl (fun s r => s.unparkRing b r .host) s

/-! ### Outcomes (06 R185) -/

/-- Codes after which the ring goes on (06 Table 6). -/
def continues (code : Nat) : Bool := [0x00, 0x01, 0x50, 0x51, 0x52, 0x60, 0x61, 0x70].contains code

/-- An outcome is fixed for a descriptor: nothing more is issued for it; its status is written by DESCRIPTOR_COMPLETE. One that has not started stays so. A sealed frame that was not GOOD takes the place of DONE (19 R543, R545). -/
def State.endDesc (s : State) (b r : Nat) (c : BitVec 32) (code detail operand : Nat) (result : BitVec 64) : State :=
  match s.desc b r c with
  | none => s
  | some d =>
    if d.status.isSome then s else
    let gone := d.bursts.filter fun u => !u.issued
    let s := if code = 0 then s else (s.freeReorder gone).chaffReads b r c
    let st : Status := match d.sealNote with
      | some (c, dt, v) => if code = 0 then ⟨c, dt, 255, v⟩ else ⟨code, detail, operand, result⟩
      | none => ⟨code, detail, operand, result⟩
    s.modDesc b r c fun d => { d with
      phase := if d.running || d.phase == .faulted then .ending else .ready, status := some st, paceWait := none
      bursts := d.bursts.filter fun u => u.issued && !u.acks.isEmpty }

/-- A descriptor starts: it takes the bench's next number in the order of starting (07 R208); one whose trigger fired has it already. -/
def State.numberDesc (s : State) (b r : Nat) (c : BitVec 32) : State :=
  if ((s.desc b r c).map fun d => d.phase == .fired).getD false then s else
  let o := (s.bench b).nextOrder
  (s.modDesc b r c fun d => { d with order := o }).modBench b fun x => { x with nextOrder := o + 1 }

/-- The descriptor takes its place in execution: it starts, numbered for FENCE (06 R173; 07 R208). -/
def State.startDesc (s : State) (b r : Nat) (c : BitVec 32) (total : Nat) : State :=
  let (l, k) := ((s.ring b r).channel).getD (0, 0)
  ((s.numberDesc b r c).modDesc b r c fun d => { d with phase := .started, total := total }).trace b r 1 c (BitVec.ofNat 64 l) (BitVec.ofNat 32 k)

/-! ### The knock line (06 R165–R170; 04 R114–R116) -/

/-- The host address of a ring address, by the ring's cached translation. -/
def State.ringHost (s : State) (b r va : Nat) : Option Nat :=
  let x := s.ring b r
  (s.lookup b false (if x.pasidEn then x.pasid.toNat else noPasid) va).map fun e => e.frame + va % 2 ^ e.size

/-- A CXL message about the ring's knock line. -/
def State.knockMsg (s : State) (b r : Nat) (m : CxlMsg) : State :=
  match (s.ring b r).knockLine with
  | some a => s.emit (.cxl (s.bench b).port m a)
  | none => s

/-- The bench's function may send CXL.cache requests: it may issue requests, on a port that runs CXL (04 R114, R121). -/
def State.mayCxl (s : State) (b : Nat) : Bool := s.mayUsePort b && (s.port (s.bench b).port).cxl

/-- The line is asked for at the address that its translation gave: RdShared of its 64 bytes (06 R166; 04 R115). -/
def State.readKnock (s : State) (b r a : Nat) : State :=
  (s.modRing b r fun x => { x with knockLine := some (a / 64 * 64) }).knockMsg b r .rdShared

/-- The knock line is taken (06 R165, R166, R170): OFF without KNOCK_EN, POLLING on a PCIe port, REFUSED where ATS is disabled, else ACQUIRING with RdShared or a translation first, both of which wait while the function may issue nothing (04 R121). -/
def State.takeKnock (s : State) (b r : Nat) : State :=
  let x := s.ring b r
  let y := s.bench b
  if ¬ x.knockEn then s.modRing b r fun x => { x with knock := .off }
  else if y.detached then s.modRing b r fun x => { x with knock := .acquiring }
  else if ¬ (s.port y.port).cxl then s.modRing b r fun x => { x with knock := .polling }
  else if ¬ (s.fnAt y.port y.fn).atsEn then s.modRing b r fun x => { x with knock := .refused }
  else
    let s := s.modRing b r fun x => { x with knock := .acquiring, knockLine := none }
    if ¬ s.mayUsePort b then s else
    match s.ringHost b r x.knockAddr.toNat with
    | some a => s.readKnock b r a
    | none => s.request b false (if x.pasidEn then some x.pasid.toNat else none) x.knockAddr.toNat false (.ringAddr r)

/-- The knock line is given up: CleanEvictNoData where the line is held and the function may send it (04 R121; 06 R169). -/
def State.dropKnock (s : State) (b r : Nat) : State :=
  let x := s.ring b r
  let s := if x.knock = .held ∧ s.mayCxl b then s.knockMsg b r .cleanEvictNoData else s
  s.modRing b r fun x => { x with knock := .off, retake := false, knockLine := none }

/-! ### Ring addresses (04 R107, R115; 06 R157, R173) -/

/-- PASID of ring addresses (06 R157). -/
def Ring.pasidOf (x : Ring) : Option Nat := if x.pasidEn then some x.pasid.toNat else none

/-- Where a ring address lies for a request of the hub. -/
inductive RingAt where
  /-- at this bus address, or at this translated one -/
  | addr (a : Nat) (translated : Bool)
  /-- its translation is to be asked for -/
  | miss
  /-- it cannot be translated -/
  | failed
  deriving DecidableEq, Repr

/-- A ring address (06 R157): as it stands with PASID_EN = 0, by the function's ATS translation with PASID_EN = 1. -/
def State.ringAt (s : State) (b r va : Nat) (write : Bool) : RingAt :=
  let x := s.ring b r
  let y := s.bench b
  if ¬ x.pasidEn then .addr va false
  else if ¬ (s.fnAt y.port y.fn).atsEn then .failed
  else
    match s.lookup b false x.pasid.toNat va with
    | some e => if write && !e.w then .miss else .addr (e.frame + va % 2 ^ e.size) true
    | none => .miss

/-- The translation of a ring address is asked for. -/
def State.askRing (s : State) (b r va : Nat) (write : Bool) : State :=
  s.request b false (s.ring b r).pasidOf va write (.ringEntry r write)

/-- A fetch has failed (06 R173): nothing further is fetched, and the ring parks once the descriptors before the entry have completed. -/
def State.fetchStops (s : State) (b r : Nat) : State := (s.modRing b r fun x => { x with fetchFailed := true }).fetchPark b r

/-- A ring address cannot be translated (06 R157): a ring that reads it stops there, one that writes a status parks at once; with PASID_EN = 0 its entries are read without a translation. -/
def State.ringUnmapped (s : State) (b r : Nat) (write : Bool) : State :=
  let x := s.ring b r
  if ¬ x.pasidEn then s
  else if ¬ write then s.fetchStops b r
  else if x.state = .running ∨ x.state = .pausing then s.parkRing b r .fetch else s

/-- The read of `n` bytes at a ring address: RdCurr of the line where the ring reads coherently, at the address its translation gave; else a memory read (06 R173). Nothing where a tag or a translation is awaited; what the ring asks for first is asked for. -/
def State.readRing (s : State) (b r va n : Nat) (coherent : Bool) : Option State × State :=
  let p := (s.bench b).port
  let line := if coherent && s.mayCxl b && (s.fnAt p (s.bench b).fn).atsEn then s.ringHost b r va else none
  match line with
  | some a => (some (s.emit (.cxl p .rdCurr (a / 64 * 64))), s)
  | none =>
    let s := if coherent ∧ s.mayCxl b ∧ (s.fnAt p (s.bench b).fn).atsEn then s.askRing b r va false else s
    match s.ringAt b r va false with
    | .addr a t => (if (s.port p).tagFree then some (s.readHost b ⟨false, t⟩ 2 a n) else none, s)
    | .miss => (none, s.askRing b r va false)
    | .failed => (none, s.fetchStops b r)

/-- Address of the entry of a count (06 R156, R159). -/
def Ring.entry (x : Ring) (c : BitVec 32) : Nat := x.base.toNat + 64 * (c.toNat % 2 ^ x.log2.toNat)

/-! ### Faults (11 R317–R329; 05 R147, R148) -/

/-- FAULT_SHARE of a bench. -/
def State.faultShare (s : State) (b : Nat) : Nat := ((s.classOf b).map BenchClass.faultShare).getD 0

/-- Fault-queue entries that a bench holds. -/
def State.faultsOf (s : State) (b : Nat) : Nat := (s.headstock.faults.filter fun e => (e.2.map fun f => f.bench == b).getD false).length

/-- The lowest FREE index of the fault queue. -/
def State.freeFault (s : State) : Option Nat :=
  lowestTag ((s.headstock.faults.filter fun e => e.2.isSome).map Prod.fst) s.nFaults 0

/-- A fault record. -/
def State.fault (s : State) (i : Nat) : Option FaultRec := tabGet s.headstock.faults none i

/-- A fault record set. -/
def State.setFault (s : State) (i : Nat) (f : Option FaultRec) : State :=
  { s with headstock := { s.headstock with faults := tabPut none i f s.headstock.faults } }

/-- Page requests outstanding on a function. -/
def State.pageReqsOf (s : State) (p f : Nat) : List PageRequest := s.headstock.pageReqs.filter fun q => q.port == p && q.fn == f

/-- A Mode S fault's page request is sent where the host's allocation and the port's 256 allow (04 R109; 11 R323 step 1). It takes the lowest free of 512 group indexes of its function (DESIGN CHOICE, log entry 75: the spec gives neither an order nor the number of them). -/
def State.sendPri (s : State) (i : Nat) : State :=
  match s.fault i with
  | none => s
  | some f =>
    let x := s.bench f.bench
    let g := s.fnAt x.port x.fn
    let out := s.pageReqsOf x.port x.fn
    if f.modeD ∨ f.state ≠ .posted ∨ ¬ g.priEn ∨ g.priFailure ∨ ¬ s.mayUsePort f.bench ∨ g.priAlloc ≤ out.length ∨
       256 ≤ (s.headstock.pageReqs.filter fun q => q.port == x.port).length then s else
    match lowestTag (out.map PageRequest.group) 512 0 with
    | none => s
    | some n =>
      let s := s.setFault i (some { f with state := .priSent })
      let q : PageRequest := ⟨x.port, x.fn, n, some i⟩
      let s := { s with headstock := { s.headstock with pageReqs := s.headstock.pageReqs ++ [q] } }
      s.egress x.port (s.reqFn f.bench) f.bench 16 0 (.pageRequest x.port (s.reqFn f.bench) n (some f.pasid) (f.va.toNat / 4096 * 4096) f.write)

/-- A fault takes an entry and is served: a page request for Mode S, an XLATE_FAULT notice for Mode D (11 R323, R325). -/
def State.postFault (s : State) (f : FaultRec) : State :=
  match s.freeFault with
  | none => s
  | some i =>
    let s := (s.setFault i (some { f with state := .posted })).trace f.bench f.ring 8 f.desc f.va (BitVec.ofNat 32 i)
    if f.modeD then
      s.notice f.bench 0x01 f.kind f.ring (BitVec.ofNat 64 (f.va.toNat / 4096 * 4096)) f.desc f.bench
    else s.sendPri i

/-- A waiting fault of the bench takes the entry that freed, in the order found (05 R148; 11 R321). -/
def State.postWaiting (s : State) (b : Nat) : State :=
  match s.headstock.waiting.find? fun f => f.bench == b with
  | none => s
  | some f =>
    if s.faultsOf b < s.faultShare b ∧ ¬ s.structureHeld .faults b then
      ({ s with headstock := { s.headstock with waiting := s.headstock.waiting.erase f } }).postFault f
    else s

/-- The ring's state while a fault stands: it reads PARKED with cause FAULT once the faulting descriptor is oldest and none of the ring issues (11 R318). -/
def State.settleFault (s : State) (b r : Nat) : State :=
  let x := s.ring b r
  match x.oldest with
  | some d =>
    if d.phase = .faulted ∧ (x.state = .running ∨ x.state = .pausing) ∧ ¬ x.descs.any (fun e => e.phase == .started) then
      s.parkRing b r .fault
    else s
  | none => s

/-- The faults that waited for a lock of their bench's records take the entries that are free (20 R560). -/
def State.postAll (s : State) : State := (s.headstock.waiting.map FaultRec.bench).foldl State.postWaiting s

/-- A replayable failure of a lathe operand at `addr` becomes a fault; its burst begins at operand address `first` (11 R315, R317, R321; 05 R148). -/
def State.raiseFault (s : State) (b r : Nat) (c : BitVec 32) (operand kind pasid first addr : Nat) (write : Bool) : State :=
  match s.desc b r c with
  | none => s
  | some d =>
    if d.phase = .faulted then s else
    let modeD := kind != 3
    let f : FaultRec := ⟨BitVec.ofNat 64 first, c, b, r, operand, write, modeD, if modeD then 0 else pasid, kind, .waitingShare, 0, s.now, 0,
      BitVec.ofNat 64 addr⟩
    let s := (s.stopAtP b r c).modDesc b r c fun d => { d with phase := .faulted }
    let full := s.faultShare b ≤ s.faultsOf b
    let s := if ¬ full ∧ ¬ s.structureHeld .faults b ∧ ¬ s.headstock.waiting.any (fun g => g.bench == b) then s.postFault f
      else
        let t := { s with headstock := { s.headstock with waiting := s.headstock.waiting ++ [f] } }
        if full then t.modBench b fun x => { x with counters := { x.counters with faultWait := x.counters.faultWait + 1 } } else t
    s.settleFault b r

/-- A fault leaves the queue, and a waiting one of its bench takes the entry. A page request that serves it is abandoned: its response will be discarded. -/
def State.freeFaultEntry (s : State) (i : Nat) : State :=
  match s.fault i with
  | none => s
  | some f =>
    let drop : PageRequest → PageRequest := fun q => if q.fault = some i then { q with fault := none } else q
    let s := s.setFault i none
    ({ s with headstock := { s.headstock with pageReqs := s.headstock.pageReqs.map drop } }).postWaiting f.bench

/-- The ring that a fault parked runs again. -/
def State.unparkFault (s : State) (b r : Nat) : State := s.unparkRing b r .fault

/-- The fault ends with the page usable: the descriptor issues again from P (11 R320). -/
def State.faultUsable (s : State) (i : Nat) : State :=
  match s.fault i with
  | none => s
  | some f =>
    let s := s.freeFaultEntry i
    (s.modDesc f.bench f.ring f.desc fun d => if d.phase = .faulted then { d with phase := .started } else d).unparkFault f.bench f.ring

/-- The fault ends with an outcome of its own: a status, and the ring runs on to write it (11 R320, R326). -/
def State.faultEnds (s : State) (i code detail : Nat) : State :=
  match s.fault i with
  | none => s
  | some f =>
    let s := s.freeFaultEntry i
    (s.endDesc f.bench f.ring f.desc code detail f.operand f.va).unparkFault f.bench f.ring

/-- Faults of a bench, or of one ring, are discarded (06 R183; 11 R329). -/
def State.discardFaults (s : State) (p : FaultRec → Bool) : State :=
  let s := { s with headstock := { s.headstock with waiting := s.headstock.waiting.filter fun f => !p f } }
  (s.headstock.faults.filter fun e => (e.2.map p).getD false).foldl (fun s e => s.freeFaultEntry e.1) s

/-! ### Ending a ring -/

/-- Requests of a ring to the Headstock are forgotten. -/
def State.dropWaiters (s : State) (b : Nat) (p : Waiter → Bool) : State :=
  { s with headstock := { s.headstock with
    misses := s.headstock.misses.map fun m => if m.bench == b then { m with waiters := m.waiters.filter fun w => !p w } else m } }

/-- The waiter is of this ring. -/
def Waiter.ofRing (r : Nat) : Waiter → Bool
  | .lathe q _ _ _ _ => q == r
  | .prefetchDesc q _ => q == r
  | .ringAddr q => q == r
  | .ringEntry q _ => q == r
  | _ => false

/-- Every descriptor of the ring that has not completed is abandoned, with no status (06 R183; 12 Table 3; 17 R496): reads become chaff, faults end, the knock line goes with its tally (17 Table 1). -/
def State.abandonWork (s : State) (b r : Nat) : State :=
  let x := s.ring b r
  let s := x.descs.foldl (fun s d => (s.freeReorder d.bursts).chaffReads b r d.count) s
  let s := s.discardFaults fun f => f.bench == b && f.ring == r
  let s := s.dropWaiters b (Waiter.ofRing r)
  let s := if x.knockEn then (s.dropKnock b r).endTally 0x06 b x.context else s
  s.modRing b r fun x => { x with descs := [], edges := 0, edgesFrom := none, edgeMarks := [], fetchNext := x.head, ownStop := false, fetchFailed := false }

/-- A ring's work is abandoned, and it gives up its channel. -/
def State.abandonRing (s : State) (b r : Nat) : State := (s.abandonWork b r).giveUp b r 1

/-- Writes issued for a ring and not yet acknowledged. -/
def State.ringWrites (s : State) (b r : Nat) : Nat :=
  s.lathes.foldl (fun n e => n + (e.2.writes.filter fun u => u.bench == b && u.ring == r).length) 0

/-- A channel stopped at a sweep's cut returns to the pool with the acknowledgement of its last issued write (08 R243). -/
def State.releaseCut (s : State) (b r : Nat) : State :=
  if (s.bench b).state = .sweeping ∧ (s.ring b r).descs.isEmpty ∧ s.ringWrites b r = 0 then s.giveUp b r 1 else s

/-- A ring's channel whose writes are still to be acknowledged when its sweep ends: it belongs to the ring no more, and to the pool not yet (08 R243; 17 R488). -/
def State.drainChannel (s : State) (b r : Nat) : State :=
  match (s.ring b r).channel with
  | none => s
  | some (l, c) => (s.modLathe l fun x => { x with
      channels := tabSet c none x.channels, draining := x.draining ++ [(c, b, r)]
      reserved := x.reserved.filter fun q => !(q.bench == b && q.ring == r) }).modRing b r fun x => { x with channel := none }

/-- The last issued write of a swept ring is acknowledged: its channels return to the pool, and their tallies are FREE. -/
def State.settleDrain (s : State) (b r : Nat) : State :=
  if s.lathes.any (fun e => e.2.writes.any fun u => u.bench == b && u.ring == r && u.chaff) then s else
  s.lathes.foldl (fun s e =>
    (e.2.draining.filter fun q => q.2 == (b, r)).foldl (fun s q => s.endTally 0x03 b (channelNumber e.1 q.1))
      (s.modLathe e.1 fun x => { x with draining := x.draining.filter fun q => q.2 != (b, r) })) s

/-- Writes issued for a descriptor and not yet acknowledged. -/
def State.descWrites (s : State) (b r : Nat) (c : BitVec 32) : Nat :=
  s.lathes.foldl (fun n e => n + (e.2.writes.filter fun u => u.bench == b && u.ring == r && u.desc == c).length) 0

/-- Writes issued for a bench and not yet acknowledged. -/
def State.benchWrites (s : State) (b : Nat) : Nat :=
  s.lathes.foldl (fun n e => n + (e.2.writes.filter fun u => u.bench == b).length) 0

end Sys2Proof.Machine
end

