-- ==== Sys2Proof/Machine/LatheOps.lean ====
section
/-!
DEFINITION. Lathes: cutting bursts into requests, eligibility, issuing reads and writes, data and acknowledgements coming back, progress, outcomes, starting descriptors (07 R190, R208–R222; 08 R237–R243; 04 R100–R102).
-/

namespace Sys2Proof.Machine

/-! ### Cutting an operand's run into requests (07 R212–R214; 08 R237; 04 R100) -/

/-- The boundary no request of this destination crosses: 4 KiB, and MPS or MRRS on a host port. -/
def State.unit (s : State) (b : Nat) (d : Dest) (write : Bool) : Nat :=
  match d with
  | .host _ | .peer _ =>
    let p := s.port (s.bench b).port
    min 4096 (pcieSize (if write then p.mps else p.mrrs))
  | _ => 4096

/-- One operand of a descriptor, as its translation needs it: the descriptor's place in the started order, selector, PASID, base, extent, write. -/
structure Operand where
  number : Nat
  order : Nat
  sel : Nat
  pasid : Nat
  base : Nat
  extent : Nat
  write : Bool
  deriving DecidableEq, Repr

/-- Operand i of a descriptor that started in this place of the order. -/
def operandOf (d : List Byte) (order i : Nat) (write : Bool) : Operand := ⟨i, order, selOf d i, pasidOf d, addrOf d i, extentOf d i, write⟩

/-- One operand byte translated. -/
def State.xlOp (s : State) (b : Nat) (o : Operand) (off : Nat) : Xl := s.xlate b o.order o.sel o.pasid o.base o.extent off o.write

/-- What a run of an operand needs: the requests that serve it, or the first obstacle with its operand offset. -/
inductive Plan where
  | ok (l : List (Nat × Nat × Dest))
  | bad (off : Nat) (x : Xl)
  deriving DecidableEq, Repr

/-- A request put before a plan. -/
def Plan.cons (x : Nat × Nat × Dest) : Plan → Plan
  | .ok l => .ok (x :: l)
  | p => p

/-- The requests for `n` bytes of an operand from offset `off`, the first of them byte `at0` of the burst. -/
def State.plan (s : State) (b : Nat) (o : Operand) : Nat → Nat → Nat → Nat → Plan
  | 0, _, _, _ => .ok []
  | fuel + 1, off, at0, n =>
    if n = 0 then .ok [] else
    match s.xlOp b o off with
    | .ok d =>
      let u := s.unit b d o.write
      let k := min n (u - (o.base + off) % u)
      (s.plan b o fuel (off + k) (at0 + k) (n - k)).cons (at0, k, d)
    | x => .bad off x

/-- Requests that a burst can need at most: 64 KiB in 128-byte pieces, and one more. -/
def planFuel : Nat := 514

/-- A read rounded outward: to 64 bytes, or to dwords for a peer device (07 R213): bytes before the first used, and bytes read. -/
def roundRead (d : Dest) (n : Nat) : Nat × Nat :=
  let r : Nat → Nat → Nat × Nat := fun u a => (a % u, (a % u + n + u - 1) / u * u)
  match d with
  | .peer a => r 4 a
  | .die _ a | .remote _ _ a | .host a | .billet a => r 64 a

/-- Reads of an operand for a burst. -/
def toReads (operand : Nat) (l : List (Nat × Nat × Dest)) : List ReadPiece :=
  l.map fun x => ⟨none, x.2.2, operand, x.1, x.2.1, (roundRead x.2.2 x.2.1).1, none⟩

/-! ### The next burst of a descriptor -/

/-- What stands before a descriptor's next burst. -/
inductive Next where
  /-- it can be issued -/
  | burst (u : Burst)
  /-- an index entry that it needs has not been read -/
  | awaitIndex
  /-- an index entry is out of range: its number (07 R202) -/
  | badIndex (k : Nat)
  /-- an operand stands in the way: its number, the address, the obstacle, a write -/
  | bad (operand addr : Nat) (x : Xl) (write : Bool)
  deriving DecidableEq, Repr

/-- An index entry, where the hub has it. -/
inductive IndexEntry where
  /-- its value -/
  | value (v : Nat)
  /-- it has to be read -/
  | unread
  /-- the table cannot be read there -/
  | bad (x : Xl)
  deriving DecidableEq, Repr

/-- Index entry k of a descriptor (07 R201): as its reads gave it, or, of a table in a billet, from the hub's own memory. -/
def State.indexEntry (s : State) (b : Nat) (d : Desc) (k : Nat) : IndexEntry :=
  let x := indexedOf d.bytes
  match if k < d.indexBase then none else d.index[k - d.indexBase]? with
  | some v => .value v
  | none =>
    match s.xlOp b (operandOf d.bytes d.order 2 false) (k * x.width) with
    | .ok (.billet key) => .value (field (memReads s.billetMem key x.width) 0 x.width)
    | .ok _ => .unread
    | z => .bad z

/-- The burst at canonical offset `d.next` of an element at offset `o` (07 R212): operands 0 and 1 in order (11 R317). -/
def State.cutBurst (s : State) (b : Nat) (d : Desc) (lathe o : Nat) : Next :=
  let y := d.bytes
  let op := opOf y
  let p := d.next
  let pl := placeOf y o p
  let n := burstLen y o p
  let src := operandOf y d.order 0 false
  let dst := operandOf y d.order 1 (op != 0x05)
  let a := if op = 0x04 then .ok [] else s.plan b src planFuel pl.src 0 n
  match a with
  | .bad off x => .bad 0 (src.base + off) x false
  | .ok reads =>
    match s.plan b dst planFuel pl.dst 0 n with
    | .bad off x => .bad 1 (dst.base + off) x (op != 0x05)
    | .ok writes =>
      let rs := toReads 0 reads ++ if op = 0x05 then toReads 1 writes else []
      let room := rs.foldl (fun k r => k + (roundRead r.src r.len).2) 0
      .burst ⟨p, n, lathe, room, rs, if op = 0x05 then [] else writes, false, [], o, 0⟩

/-- What stands before the burst at canonical offset `d.next`: the index entry it needs first (07 R202). -/
def State.nextBurst (s : State) (b : Nat) (d : Desc) (lathe : Nat) : Next :=
  let y := d.bytes
  if opOf y ≠ 0x02 ∧ opOf y ≠ 0x03 then s.cutBurst b d lathe 0 else
  let x := indexedOf y
  let k := d.next / x.elem
  match s.indexEntry b d k with
  | .value v => if x.badEntry v then .badIndex k else s.cutBurst b d lathe (x.offset v)
  | .unread => .awaitIndex
  | .bad z => .bad 2 (addrOf y 2 + k * x.width) z false

/-- The operand address of the first byte of the burst that met an obstacle at `addr` of the operand (11 R321 Table 2): the place of its canonical offset in a data operand; of an index table, and of an operand that is loaded and not cut into bursts, `addr` itself. -/
def State.burstFirst (s : State) (b : Nat) (d : Desc) (operand addr : Nat) : Nat :=
  let y := d.bytes
  let op := opOf y
  if op = 0 ∨ 0x05 < op ∨ 1 < operand then addr else
  let x := indexedOf y
  let o := if op ≠ 0x02 ∧ op ≠ 0x03 then 0 else
    match s.indexEntry b d (d.next / x.elem) with
    | .value v => x.offset v
    | _ => 0
  let pl := placeOf y o d.next
  addrOf y operand + (if operand = 0 then pl.src else pl.dst)

/-! ### Loads of an engine: index tables and the structures of LAUNCH, ANNEAL and SEAL_OPEN (07 R194, R201; 04 R100) -/

/-- Bytes of `n` from an operand offset on that reads outside the hub can bring: what is translated, and no billet. -/
def State.reach (s : State) (b : Nat) (o : Operand) : Nat → Nat → Nat → Nat
  | 0, _, _ => 0
  | fuel + 1, off, n =>
    if n = 0 then 0 else
    let k := min n (4096 - (o.base + off) % 4096)
    match s.xlOp b o off with
    | .ok (.billet _) => 0
    | .ok _ => k + s.reach b o fuel (off + k) (n - k)
    | _ => 0

/-- The run has bytes behind a host port. -/
def State.hasHost (s : State) (b : Nat) (o : Operand) : Nat → Nat → Nat → Bool
  | 0, _, _ => false
  | fuel + 1, off, n =>
    if n = 0 then false else
    let k := min n (4096 - (o.base + off) % 4096)
    (match s.xlOp b o off with
     | .ok (.host _) => true
     | .ok (.peer _) => true
     | _ => false) || s.hasHost b o fuel (off + k) (n - k)

/-- The read of `n` bytes of one page that one command issues and has answered (DESIGN CHOICE, log entry 5). -/
def State.loadPage (s : State) (b : Nat) (o : Operand) (n : Nat) : Dest → State
  | .host a => s.readHost b ⟨(s.port (s.bench b).port).relaxed, o.sel == 1⟩ 34 a n
  | .peer a => s.readHost b ⟨(s.port (s.bench b).port).relaxed, false⟩ 34 a n
  | .die d a => s.sendDie d (.hubRead (3 * (lowestTag (s.bar2Reads.map fun q => q.id / 3) (s.bar2Reads.length + 1) 0).getD 0) (a / 64 * 64) ((a % 64 + n + 63) / 64 * 64))
  | .remote h d a => s.sendHub h (.dataRead 16 0 b (s.bench b).incarn d (a / 64 * 64) ((a % 64 + n + 63) / 64 * 64))
  | .billet _ => s

/-- The reads of a run, page by page. -/
def State.loadReads (s : State) (b : Nat) (o : Operand) : Nat → Nat → Nat → State
  | 0, _, _ => s
  | fuel + 1, off, n =>
    if n = 0 then s else
    let k := min n (4096 - (o.base + off) % 4096)
    match s.xlOp b o off with
    | .ok d => (s.loadPage b o k d).loadReads b o fuel (off + k) (n - k)
    | _ => s

/-- The reads of `n` bytes of an operand from an offset on, at most one tag at a time; none where they need one and the port has none free (01 R31). -/
def State.load (s : State) (b : Nat) (o : Operand) (off n : Nat) : Option State :=
  let fuel := n / 4096 + 2
  if s.hasHost b o fuel off n ∧ ¬ (s.port (s.bench b).port).tagFree then none else some (s.loadReads b o fuel off n)

/-- The entries of an index table that a command brings, from the one that contains the next byte on (07 R201, R221), as far as the table is translated; their reads are issued. A table in a billet is read as its entries are needed. -/
def State.readIndex (s : State) (b r : Nat) (c : BitVec 32) (index : List Nat) : State :=
  match s.desc b r c with
  | none => s
  | some d =>
    let x := indexedOf d.bytes
    let k := d.next / x.elem
    if d.status.isSome ∨ d.total ≤ d.next ∨ s.indexEntry b d k ≠ .unread then s else
    let o := operandOf d.bytes d.order 2 false
    let want := min index.length (x.count - k)
    let got := s.reach b o (want * x.width / 4096 + 2) (k * x.width) (want * x.width) / x.width
    match s.load b o (k * x.width) (got * x.width) with
    | none => s
    | some s => s.modDesc b r c fun d => { d with index := index.take got, indexBase := k }

/-- The entries that translations of a burst use become most recently used (10 R282). -/
def State.touchOp (s : State) (b : Nat) (o : Operand) (off : Nat) : State :=
  if o.sel = 1 ∨ o.sel = 2 then s.useEntry b (o.sel == 2) (if o.sel = 2 then 0 else o.pasid) (o.base + off) else s

/-- The access to an operand's bytes is counted where its leaf has CNT = 1 (11 R330). -/
def State.countOp (s : State) (b : Nat) (o : Operand) (off : Nat) : State :=
  if o.sel ≠ 2 then s else
  match s.lookup b true 0 (o.base + off) with
  | some e => if e.cnt then s.countAccess b (o.base + off) else s
  | none => s

/-! ### Pacing (07 R225; 08 R237) -/

/-- The line is held by the bench and set. -/
def State.lineSet (s : State) (b n : Nat) : Bool := (s.event n).holder == some b && (s.event n).level

/-- The pacing condition of a descriptor holds. -/
def State.paceOpen (s : State) (b r : Nat) (y : List Byte) : Bool :=
  if paceOf y = 0 then true else if paceOf y = 1 then s.lineSet b (trigArgOf y) else decide (0 < (s.ring b r).edges)

/-! ### Slots (08 R237, R239, R241) -/

/-- Write requests that keep their slot after issue: those not to a host port, whose slot is released at issue, and not to a billet, which is written at once. -/
def slotWrites (l : List (Nat × Nat × Dest)) : Nat :=
  (l.filter fun x => match x.2.2 with | .die _ _ => true | .remote _ _ _ => true | _ => false).length

/-- The lathe has room for the burst (08 R237). -/
def Lathe.fits (x : Lathe) (u : Burst) : Bool :=
  decide (x.reorder + u.reorder ≤ 131072) && decide (min 64 u.reads.length + x.reads.length ≤ 256) &&
  decide (min 64 u.dst.length + x.writes.length ≤ 256)

/-- The reservation of another ring does not stand in the way: the burst needs none of what the reserved one still waits for (08 R239). -/
def Lathe.admits (x : Lathe) (b r : Nat) (u : Burst) : Bool :=
  match x.reserved with
  | none => true
  | some q =>
    (q.bench == b && q.ring == r) ||
    ((decide (x.reorder + q.reorder ≤ 131072) || u.reorder == 0) && (decide (q.reads + x.reads.length ≤ 256) || u.reads.isEmpty) &&
      (decide (q.writes + x.writes.length ≤ 256) || u.dst.isEmpty))

/-- The lowest free slot of a pool of 256. -/
def freeSlot (l : List SlotUse) : Option Nat := lowestTag (l.map SlotUse.slot) 256 0

/-! ### Issuing reads (07 R213; 08 R241) -/

/-- The SPA of a destination inside the sled. -/
def Dest.spa : Dest → BitVec 64
  | .die d o => spaOf d o
  | .remote _ d o => spaOf d o
  | .billet k => ledgerSpa k
  | .host a => BitVec.ofNat 64 a
  | .peer a => BitVec.ofNat 64 a

/-- The other hub of a destination. -/
def Dest.hubOf : Dest → Option Nat
  | .remote h _ _ => some h
  | _ => none

/-- The die of a destination. -/
def Dest.dieOf : Dest → Option Nat
  | .die d _ => some d
  | _ => none

/-- Bytes of a billet rounded as a read takes them. -/
def State.billetBytes (s : State) (k n : Nat) : List Byte := memReads s.billetMem k n

/-- A lathe's read pool takes a slot. -/
def State.takeRead (s : State) (l : Nat) (u : SlotUse) : State := s.modLathe l fun x => { x with reads := x.reads ++ [u] }

/-- Byte enables of the first and last dword of a read that begins `skip` bytes before the first of `n` used bytes: a peer device is asked for the used bytes alone, host memory for whole dwords (07 R213). -/
def readEnables (d : Dest) (skip n : Nat) : BitVec 4 × BitVec 4 :=
  match d with
  | .peer _ =>
    let upTo : Nat → BitVec 4 := fun k => BitVec.ofNat 4 (2 ^ k - 1)
    let first : BitVec 4 := upTo (min 4 (skip + n)) &&& ~~~upTo skip
    (first, if skip + n ≤ 4 then 0 else upTo ((skip + n - 1) % 4 + 1))
  | _ => (0xF, 0xF)

/-- Attributes of a descriptor's bulk data request to a host port (04 R101 Table 6): Relaxed Ordering where the PF enables it and the operand is no flag; translated for Mode S. -/
def State.dataAttr (s : State) (b : Nat) (y : List Byte) (operand : Nat) (write : Bool) : TlpAttr :=
  ⟨(s.port (s.bench b).port).relaxed && !(write && flagDstOf y), selOf y operand == 1⟩

/-- One read request issued, if a slot is free; at a host port it waits there for a tag with its slot held (08 Table 2). Answers the piece as it then stands. -/
def State.issueRead (s : State) (b r : Nat) (d : Desc) (u : Burst) (q : ReadPiece) : ReadPiece × State :=
  if q.slot.isSome ∨ q.data.isSome then (q, s) else
  let y := s.bench b
  let sel := selOf d.bytes q.operand
  let pl := placeOf d.bytes u.elem u.start
  let va := addrOf d.bytes q.operand + (if q.operand = 0 then pl.src else pl.dst) + q.off
  let len := (roundRead q.src q.len).2
  match freeSlot (s.lathe u.lathe).reads with
    | none => (q, s)
    | some n =>
      let first := match q.src with
        | .host _ | .peer _ => q.src.spa - BitVec.ofNat 64 q.skip
        | _ => q.src.spa
      let use : SlotUse := ⟨n, b, r, d.count, u.start, q.src.dieOf, q.src.hubOf, first, sel == 2, va, len, false⟩
      match q.src with
      | .die di o => ({ q with slot := some n }, (s.takeRead u.lathe use).askDie di (some b) false (.read u.lathe n (o - q.skip) len))
      | .remote h di o =>
        ({ q with slot := some n }, (s.takeRead u.lathe use).sendHub h (.dataRead u.lathe n b y.incarn di (o - q.skip) len))
      | .host a | .peer a =>
        let be := readEnables q.src q.skip q.len
        ({ q with slot := some n }, (s.takeRead u.lathe use).egressRead b (.latheRead u.lathe (((s.ring b r).channel.map Prod.snd).getD 0) n)
          (.hostRead y.port (s.reqFn b) 0 (s.dataAttr b d.bytes q.operand false) (a - q.skip) len be.1 be.2))
      | .billet _ => ({ q with slot := some n }, s.takeRead u.lathe use)

/-- Every read of a burst that can be issued. -/
def State.issueReads (s : State) (b r : Nat) (d : Desc) (u : Burst) : List ReadPiece → List ReadPiece × State
  | [] => ([], s)
  | q :: rest =>
    let (q, s) := s.issueRead b r d u q
    let (l, s) := s.issueReads b r d u rest
    (q :: l, s)

/-- A burst of a descriptor changed, by its first byte. -/
def Desc.modBurst (d : Desc) (start : Nat) (f : Burst → Burst) : Desc :=
  { d with bursts := d.bursts.map fun u => if u.start = start then f u else u }

/-- A burst of a descriptor, by its first byte. -/
def Desc.burst (d : Desc) (start : Nat) : Option Burst := d.bursts.find? fun u => u.start == start

/-! ### Comparing (07 R206) -/

/-- The first byte at which two equally long ranges differ. -/
def firstDiff : List Byte → List Byte → Nat → Option Nat
  | a :: x, b :: y, k => if a = b then firstDiff x y (k + 1) else some k
  | _, _, _ => none

/-- What a COMPARE burst found. -/
def compareBurst (u : Burst) : Option Nat :=
  let f : Nat → List Byte := fun o => (u.reads.filter fun q => q.operand == o).flatMap fun q => slice (q.data.getD []) 0 q.len
  firstDiff (f 0) (f 1) 0

/-- The lowest mismatch that a COMPARE has found so far: no read beyond it is issued. -/
def Desc.mismatch (d : Desc) : Option Nat :=
  if opOf d.bytes = 0x05 then d.bursts.findSome? fun u => if u.issued then (compareBurst u).map fun k => u.start + k else none else none

/-! ### Writing (07 R203, R214–R216, R220; 09 R273) -/

/-- Data bytes `[off, off + n)` of a burst. -/
def burstData (y : List Byte) (a : Nat) (u : Burst) (off n : Nat) : List Byte :=
  if opOf y = 0x04 then fillBytes y (a + off) n
  else
    let whole := (u.reads.filter fun q => q.operand == 0).flatMap fun q => slice (q.data.getD []) 0 q.len
    slice whole off n

/-- Where a burst lies in the destination. -/
def Desc.burstAt (d : Desc) (u : Burst) : Nat := (placeOf d.bytes u.elem u.start).dst

/-- The address that FILL's pattern is taken by: the offset for a BILLET operand (07 R205). -/
def fillBase (y : List Byte) (dstOff : Nat) : Nat :=
  let a := addrOf y 1
  (if selOf y 1 = 3 then a % 2 ^ 20 else a) + dstOff

/-- Every byte is enabled. -/
def allEnabled (data : List (Byte × Bool)) : Bool := data.all Prod.snd

/-- Enabled bytes written to a billet. -/
def writeEnabled (m : Memory) (k : Nat) : List (Byte × Bool) → Memory
  | [] => m
  | (v, be) :: r => writeEnabled (if be then memWrite m k v else m) (k + 1) r

/-- One write request of a burst issued, with byte enables where it leaves bytes out (07 R214): the slot it holds, if any. -/
def State.issueWrite (s : State) (b r : Nat) (d : Desc) (u : Burst) (off : Nat) (dest : Dest) (data : List (Byte × Bool)) : Option Nat × State :=
  let y := s.bench b
  let va := addrOf d.bytes 1 + d.burstAt u + off
  let plain := data.map Prod.fst
  let use : Nat → SlotUse := fun n =>
    ⟨n, b, r, d.count, u.start, dest.dieOf, dest.hubOf, dest.spa, selOf d.bytes 1 == 2, va, data.length, false⟩
  let take : Nat → State := fun n => s.modLathe u.lathe fun x => { x with writes := x.writes ++ [use n] }
  match dest with
  | .billet k =>
    let s := if allEnabled data then s.clearMarks k data.length else s
    (none, { s with billetMem := writeEnabled s.billetMem k data })
  | .die di o =>
    let n := (freeSlot (s.lathe u.lathe).writes).getD 255
    (some n, (take n).askDie di (some b) false (if allEnabled data then .write u.lathe n o plain else .writeMasked u.lathe n o data))
  | .remote h di o =>
    let n := (freeSlot (s.lathe u.lathe).writes).getD 255
    (some n, (take n).sendHub h (if allEnabled data then .dataWrite u.lathe n b y.incarn di o plain else .dataWriteMasked u.lathe n b y.incarn di o data))
  | .host a | .peer a =>
    let attr := s.dataAttr b d.bytes 1 true
    let s := s.egressData y.port (s.reqFn b) b data.length
      (if allEnabled data then .hostWrite y.port (s.reqFn b) attr a plain else .hostWriteMasked y.port (s.reqFn b) attr a data)
    let s := if attr.translated then s.modBench b fun x => { x with posted := some (BitVec.ofNat 64 (a + data.length - 1)) } else s
    (none, s.modDesc b r d.count fun d => { d with
      hostWrites := d.hostWrites + 1, flushAddr := BitVec.ofNat 64 (a + data.length - 1)
      written := if opOf d.bytes = 0x03 then d.written ++ [(d.burstAt u + off, data.length)] else d.written })

/-- Every write of a burst issued; the slots it then holds. -/
def State.issueWrites (s : State) (b r : Nat) (d : Desc) (u : Burst) : List (Nat × Nat × Dest) → List Nat × State
  | [] => ([], s)
  | x :: rest =>
    let base := fillBase d.bytes (d.burstAt u)
    let (n, s) := s.issueWrite b r d u x.1 x.2.2 ((burstData d.bytes base u x.1 x.2.1).map fun v => (v, true))
    let (l, s) := s.issueWrites b r d u rest
    (n.toList ++ l, s)

/-- The bytes of a flag whose tile has several rows, from the destination's first byte on, each with its enable (07 R215). -/
def flagBytes (d : Desc) : List (Byte × Bool) :=
  let cells := d.bursts.flatMap fun u => (List.range u.len).zip (burstData d.bytes 0 u 0 u.len) |>.map fun e => (d.burstAt u + e.1, e.2)
  let n := cells.foldl (fun n e => max n (e.1 + 1)) 0
  (List.range n).map fun k => ((cells.find? fun e => e.1 == k).map fun e => (e.2, true)).getD (0, false)

/-- The writes of a burst. Of a flag in several bursts one write, with the first of them, carries all (07 R215). -/
def State.sendBurst (s : State) (b r : Nat) (d : Desc) (u : Burst) : List Nat × State :=
  if ¬ flagDstOf d.bytes ∨ d.bursts.length ≤ 1 then s.issueWrites b r d u u.dst
  else if u.start ≠ 0 then ([], s)
  else
    match u.dst with
    | [] => ([], s)
    | x :: _ =>
      let (n, s) := s.issueWrite b r d u 0 x.2.2 (flagBytes d)
      (n.toList, s)

/-- The destination ranges of two writes of a SCATTER meet (07 R203). -/
def rangesMeet (a n c m : Nat) : Bool := decide (a < c + m) && decide (c < a + n)

/-- The destination ranges of two bursts of a SCATTER meet (07 R203). -/
def Desc.burstsMeet (d : Desc) (u v : Burst) : Bool := opOf d.bytes == 0x03 && rangesMeet (d.burstAt u) u.len (d.burstAt v) v.len

/-- The burst meets a posted write of its descriptor that no flush read has acknowledged (07 R203, Table 10). -/
def Desc.meetsPosted (d : Desc) (u : Burst) : Bool := d.written.any fun w => rangesMeet (d.burstAt u) u.len w.1 w.2

/-- Every read of the burst has returned. -/
def Burst.full (u : Burst) : Bool := u.reads.all fun q => q.data.isSome

/-- The burst's writes go to the host port. -/
def Burst.toPort (u : Burst) : Bool := u.dst.all fun x =>
  match x.2.2 with
  | .host _ => true
  | .peer _ => true
  | _ => false

/-- A flag write may go: every earlier descriptor of the ring has issued all its writes, and they are acknowledged; those to the host port that carries the flag need only be issued (09 R273). -/
def State.flagOpen (s : State) (b r : Nat) (d : Desc) (u : Burst) : Bool :=
  let x := s.ring b r
  x.descs.all fun e => !(decide ((e.count - x.head).toNat < (d.count - x.head).toNat)) ||
    (e.status.isSome && e.bursts.isEmpty && s.descWrites b r e.count == 0 && (u.toPort || e.hostWrites == 0))

/-- The burst may write: its data is there, write slots are free, no unacknowledged write of an earlier entry meets it, and a flag is whole and stays behind the data it announces. -/
def State.mayWrite (s : State) (b r : Nat) (d : Desc) (u : Burst) : Bool :=
  u.full && !u.issued && decide (slotWrites u.dst + (s.lathe u.lathe).writes.length ≤ 256) &&
  (!flagDstOf d.bytes || (s.flagOpen b r d u && decide (d.next = d.total) && d.bursts.all Burst.full)) &&
  !d.meetsPosted u && !(d.bursts.any fun v => decide (v.start < u.start) && (!v.issued || !v.acks.isEmpty) && d.burstsMeet u v)

/-- A burst's writes issue, and its reorder space is free. -/
def State.writeBurst (s : State) (b r : Nat) (c : BitVec 32) (start : Nat) : State :=
  match s.desc b r c with
  | none => s
  | some d =>
    match d.burst start with
    | none => s
    | some u =>
      if d.status.isSome ∨ ¬ s.mayWrite b r d u then s else
      let (slots, s) := s.sendBurst b r d u
      let s := s.modLathe u.lathe fun x => { x with reorder := x.reorder - u.reorder }
      let s := s.modDesc b r c fun d => d.modBurst u.start fun x => { x with issued := true, acks := slots, reorder := 0 }
      s.modRing b r fun x => { x with bytesWritten := x.bytesWritten + BitVec.ofNat 64 (if u.dst.isEmpty then 0 else u.len) }

/-- P advances across bursts that are written, in canonical order (07 R220); a COMPARE stops at the first that differs, and answers where (07 R206). -/
def advanceP (d : Desc) : List Burst → Desc × Option Nat
  | [] => ({ d with bursts := [] }, none)
  | u :: r =>
    if u.issued ∧ u.acks = [] ∧ u.start = d.p then
      match if opOf d.bytes = 0x05 then compareBurst u else none with
      | some k => ({ d with bursts := u :: r }, some (u.start + k))
      | none => advanceP { d with p := u.start + u.len } r
    else ({ d with bursts := u :: r }, none)

/-- RESULT of a data descriptor on DONE (07 Table 11). -/
def doneResult (d : Desc) : BitVec 64 :=
  let y := d.bytes
  let lost := min d.edgesLost 65535 * 2 ^ 48
  if opOf y = 0x05 then BitVec.ofNat 64 d.total
  else if opOf y = 0x02 ∨ opOf y = 0x03 then BitVec.ofNat 64 ((indexedOf y).count + lost)
  else BitVec.ofNat 64 (d.total + lost)

/-- A flush read of the descriptor is outstanding: a read slot of no bytes. -/
def State.flushOut (s : State) (b r : Nat) (d : Desc) : Bool :=
  (s.lathe d.lathe).reads.any fun u => u.bench == b && u.ring == r && u.desc == d.count && u.len == 0 && !u.chaff

/-- The descriptor awaits the acknowledgement of posted writes: to complete, with everything else acknowledged, or to issue a write that meets one (07 R203, R216). -/
def State.awaitsFlush (s : State) (b r : Nat) (d : Desc) : Bool :=
  d.hostWrites != 0 && ((d.phase == .ending && d.bursts.isEmpty && s.descWrites b r d.count == 0) ||
    d.bursts.any fun u => u.full && !u.issued && d.meetsPosted u)

/-- The flush read that posted writes are acknowledged by is issued (04 R102), with a read slot (08 R241); a halted lathe issues none (08 R251). -/
def State.tryFlush (s : State) (b r : Nat) (c : BitVec 32) : State :=
  match s.desc b r c with
  | none => s
  | some d =>
    if ¬ s.awaitsFlush b r d ∨ s.flushOut b r d ∨ (s.lathe d.lathe).halt.isSome then s else
    if ¬ s.mayUsePort b then s.parkHost b r else
    match freeSlot (s.lathe d.lathe).reads with
    | none => s
    | some n =>
      let use : SlotUse := ⟨n, b, r, c, d.total, none, none, d.flushAddr, false, d.flushAddr.toNat, 0, false⟩
      ((s.takeRead d.lathe use).flushRead b (.flush b r d.lathe n) (selOf d.bytes 1 == 1) d.flushAddr.toNat).modDesc b r c fun d =>
        { d with covered := d.hostWrites }

/-- A descriptor moves on as far as its acknowledgements allow: progress, its outcome, the flush read. -/
def State.advance (s : State) (b r : Nat) (c : BitVec 32) : State :=
  match s.desc b r c with
  | none => s
  | some d =>
    let e := advanceP d d.bursts
    let s := s.modDesc b r c fun _ => e.1
    let s := match e.2 with
      | some k => s.endDesc b r c 0x01 0 255 (BitVec.ofNat 64 k)
      | none =>
        if d.phase = DescPhase.started ∧ d.status.isNone ∧ opMoves (opOf d.bytes) ∧ e.1.p = d.total then s.endDesc b r c 0x00 0 255 (doneResult d) else s
    s.tryFlush b r c

/-- Every descriptor of a ring moves on, and a fault of it settles. -/
def State.advanceRing (s : State) (b r : Nat) : State :=
  ((s.ring b r).descs.foldl (fun s d => s.advance b r d.count) s).settleFault b r

/-! ### Admitted bursts go on (08 R238) -/

/-- A burst with requests left to issue, and its number in the order of admission. -/
structure Admitted where
  bench : Nat
  ring : Nat
  desc : BitVec 32
  start : Nat
  number : Nat
  deriving DecidableEq, Repr

/-- A burst put in its place by number. -/
def putAdmitted (x : Admitted) : List Admitted → List Admitted
  | [] => [x]
  | y :: l => if x.number ≤ y.number then x :: y :: l else y :: putAdmitted x l

/-- The bursts of a lathe with requests left to issue, in order of admission. -/
def State.admitted (s : State) (l : Nat) : List Admitted :=
  (s.benches.flatMap fun e => e.2.rings.flatMap fun q => q.2.descs.flatMap fun d =>
    (d.bursts.filter fun u => u.lathe == l && !u.issued).map fun u => (⟨e.1, q.1, d.count, u.start, u.admitted⟩ : Admitted)).foldl
    (fun acc x => putAdmitted x acc) []

/-- An admitted burst issues the reads it can, and its writes when its data is there. -/
def State.pumpBurst (s : State) (b r : Nat) (c : BitVec 32) (start : Nat) : State :=
  match s.desc b r c with
  | none => s
  | some d =>
    match d.burst start with
    | none => s
    | some u =>
      if d.status.isSome ∨ (d.mismatch.map fun k => decide (k < start)).getD false then s else
      let (l, s) := s.issueReads b r d u u.reads
      (s.modDesc b r c fun d => d.modBurst start fun x => { x with reads := l }).writeBurst b r c start

/-- Rings with a descriptor that the lathe runs. -/
def State.ringsOn (s : State) (l : Nat) : List (Nat × Nat) :=
  s.benches.flatMap fun e => e.2.rings.filterMap fun q =>
    if q.2.descs.any fun d => d.lathe == l || d.bursts.any fun u => u.lathe == l then some (e.1, q.1) else none

/-- The lathe's admitted bursts go on in order of admission, then its rings. -/
def State.pumpOnce (s : State) (l : Nat) : State :=
  let s := (s.admitted l).foldl (fun s x => s.pumpBurst x.bench x.ring x.desc x.start) s
  (s.ringsOn l).foldl (fun s q => s.advanceRing q.1 q.2) s

/-- The lathe goes on as its slots allow. What a descriptor's progress lets go on, a flag behind it, goes on too. -/
def State.pumpLathe (s : State) (l : Nat) : State := (s.pumpOnce l).pumpOnce l

/-- A ring goes on, on the lathes that run its descriptors. -/
def State.pumpRing (s : State) (b r : Nat) : State :=
  (((s.ring b r).descs.map Desc.lathe).eraseDups.foldl (fun s l => s.pumpLathe l) s).advanceRing b r

/-! ### Data and acknowledgements -/

/-- DETAIL of SPINDLE_ERROR (13 Table 3; 17 R510). -/
def memDetail : MemStatus → Nat
  | .ok => 0 | .dieEcc => 1 | .writeRefused => 2 | .dieLost => 3 | .ledgerEcc => 4

/-- The outcome that an error of one request gives its descriptor; only the first counts. -/
def State.failSlot (s : State) (u : SlotUse) (code detail operand : Nat) (result : BitVec 64) : State :=
  if u.chaff then s else (s.endDesc u.bench u.ring u.desc code detail operand result).tryFlush u.bench u.ring u.desc

/-- A slot is free again: nothing waits for the request that held it (04 R108; 10 R306; 11 R340 step 4). -/
def State.slotFreed (s : State) (l : Nat) (write : Bool) (slot : Nat) : State :=
  let keep : InFlight → Bool := fun x => x != .slot l write slot
  { s with
    benches := s.benches.map fun e => (e.1, { e.2 with invRing := { e.2.invRing with barrier := e.2.invRing.barrier.filter keep } })
    ports := s.ports.map fun e => (e.1, { e.2 with invalidates := e.2.invalidates.map fun q => { q with barrier := q.barrier.filter keep } })
    mig := if write then s.mig else { s.mig with readers := s.mig.readers.filter fun x => x != (l, slot) } }

/-- What a read piece gives: what returned, or for a billet the hub's own memory. -/
def State.pieceData (s : State) (q : ReadPiece) (data : List Byte) : List Byte :=
  match q.src with
  | .billet k => s.billetBytes k q.len
  | _ => slice data q.skip q.len

/-- A read slot's data is there: the slot is free, and the data joins its burst unless it is chaff (08 R241, R242). -/
def State.deliver (s : State) (l slot : Nat) (data : List Byte) : State :=
  match (s.lathe l).reads.find? fun u => u.slot == slot with
  | none => s
  | some u =>
    let s := (s.modLathe l fun x => { x with reads := x.reads.filter fun v => v.slot != slot }).slotFreed l false slot
    let s := s.portDone (.lathe l slot false)
    let put : ReadPiece → ReadPiece := fun q => if q.slot = some slot ∧ q.data.isNone then { q with data := some (s.pieceData q data) } else q
    let s := if u.chaff then s else
      (s.modDesc u.bench u.ring u.desc fun d => d.modBurst u.burst fun x => if x.lathe = l then { x with reads := x.reads.map put } else x).modRing
        u.bench u.ring fun x => { x with bytesRead := x.bytesRead + BitVec.ofNat 64 u.len }
    s.pumpLathe l

/-- A read slot's request failed: the slot is free, and the descriptor ends. -/
def State.failRead (s : State) (l slot : Nat) (code detail : Nat) (result : SlotUse → BitVec 64) : State :=
  match (s.lathe l).reads.find? fun u => u.slot == slot with
  | none => s
  | some u =>
    let s := (s.modLathe l fun x => { x with reads := x.reads.filter fun v => v.slot != slot }).slotFreed l false slot
    let s := s.portDone (.lathe l slot false)
    let operand := match s.desc u.bench u.ring u.desc with
      | some d => ((d.bursts.flatMap Burst.reads).find? fun q => q.slot == some slot).map ReadPiece.operand |>.getD 0
      | none => 0
    (s.failSlot u code detail operand (result u)).pumpLathe l

/-- A write slot is acknowledged: it is free, and the burst waits for it no longer. -/
def State.ackWrite (s : State) (l slot : Nat) (status : MemStatus) : State :=
  match (s.lathe l).writes.find? fun u => u.slot == slot with
  | none => s
  | some u =>
    let s := (s.modLathe l fun x => { x with writes := x.writes.filter fun v => v.slot != slot }).slotFreed l true slot
    let s := s.portDone (.lathe l slot true)
    let s := s.modDesc u.bench u.ring u.desc fun d =>
      { d with bursts := d.bursts.map fun x => if x.lathe = l then { x with acks := x.acks.erase slot } else x }
    let s := if status = .ok then s else s.failSlot u 0x22 (memDetail status) 1 u.spa
    let s := if u.chaff then s else
      s.modDesc u.bench u.ring u.desc fun d => if d.status.isSome then { d with bursts := d.bursts.filter fun x => !x.acks.isEmpty } else d
    ((s.pumpLathe l).releaseCut u.bench u.ring).settleDrain u.bench u.ring

/-! ### Starting descriptors (06 R173; 07 R190, R223; 11 R318; 05 R125) -/

/-- The descriptor waits for its trigger. -/
def Desc.awaitsTrigger (d : Desc) : Bool := d.phase == .trigger && d.status.isNone

/-- The descriptors of the ring before one. -/
def Ring.before (r : Ring) (d : Desc) : List Desc := r.descs.filter fun e => decide ((e.count - r.head).toNat < (d.count - r.head).toNat)

/-- A descriptor may start beside those before it, which run or await their triggers; at most four run at once (07 R190, R223). -/
def Ring.overlapOk (r : Ring) (d : Desc) : Bool :=
  (r.before d).isEmpty ||
  (overlapOf d.bytes && decide ((r.descs.filter Desc.running).length < 4) &&
    (r.before d).all fun e => opOverlaps (opOf e.bytes) && (e.running || e.awaitsTrigger))

/-- The descriptor is the culprit of a lathe halt whose status is not yet written: nothing of its ring goes on behind it (08 R254). -/
def Desc.isCulprit (d : Desc) : Bool := (d.status.map fun st => st.code == 0x41).getD false

/-- A descriptor may start: bench ACTIVE, ring RUNNING, no fault posted in the ring, OVERLAP rules kept (05 R125; 06 R181, R184; 11 R318). One whose trigger has fired has started for PAUSE and HOLD (07 R227). -/
def State.mayStart (s : State) (b r : Nat) (d : Desc) : Bool :=
  let x := s.ring b r
  let y := s.bench b
  d.status.isNone && !x.descs.any (fun e => e.phase == .faulted || e.isCulprit) &&
  if d.phase = .fired then (y.state == .active || y.state == .held) && (x.state == .running || x.state == .pausing)
  else y.state == .active && x.state == .running && !x.pause && x.overlapOk d

/-- The ring's oldest descriptor of this opcode that may start, its trigger fired where it has one. -/
def State.startable (s : State) (b r op : Nat) : Option Desc :=
  (s.ring b r).descs.find? fun d => opOf d.bytes == op && (d.phase == .ready || d.phase == .fired) && s.mayStart b r d

end Sys2Proof.Machine
end

