-- ==== Sys2Proof/Machine/EventOps.lean ====
section
/-!
DEFINITION. Event lines, pace timers, frame arrivals: edges, triggers, claims and releases (07 R209–R210, R223–R226; 08 R244–R249; 19 R542).
-/

namespace Sys2Proof.Machine

/-! ### Sources of triggers and pacing -/

/-- What triggers or paces a descriptor (07 Table 3, R224). -/
inductive PaceSource where
  /-- an event line -/
  | line (n : Nat)
  /-- a pace timer of a cluster -/
  | timer (clusterB : Bool) (t : Nat)
  /-- a sealed stream, by handle -/
  | stream (handle : Nat)
  deriving DecidableEq, Repr

/-- The source that a descriptor of a ring in this cluster names. -/
def sourceOf (clusterB : Bool) (y : List Byte) : Option PaceSource :=
  if trigOf y = 1 then some (.timer clusterB (trigArgOf y))
  else if trigOf y = 2 then some (.line (trigArgOf y))
  else if trigOf y = 3 then some (.stream (trigArgOf y)) else none

/-- The bench holds the source: the line, the timer in that cluster, the open stream (08 R244, R247; 19 R535). -/
def State.holdsSource (s : State) (b : Nat) : PaceSource → Bool
  | .line n => (s.event n).holder == some b
  | .timer c t => (s.paceTimer c t).holder == some b
  | .stream h =>
    let x := s.stream (h % 64)
    x.isOpen && x.bench == b && x.gen == h / 64

/-- A descriptor counts edges of a source: edge-paced by it, from when it is eligible to start until it completes (07 R226). -/
def State.countsEdges (s : State) (b r : Nat) (src : PaceSource) (d : Desc) : Bool :=
  paceOf d.bytes == 2 && sourceOf (s.ring b r).clusterB d.bytes == some src &&
    (d.running || d.phase == .faulted || (d.phase == .trigger && s.mayStart b r d))

/-- One edge for a ring: pending up to 255, lost beyond and counted in the descriptor that runs (07 R226). -/
def State.edgeRing (s : State) (b r : Nat) (src : PaceSource) : State :=
  match (s.ring b r).descs.find? (s.countsEdges b r src) with
  | none => s
  | some d =>
    if (s.ring b r).edges < 255 then s.modRing b r fun x => { x with edges := x.edges + 1 }
    else s.modDesc b r d.count fun e => { e with edgesLost := e.edgesLost + 1 }

/-- One edge of a source for every ring of a bench. -/
def State.edgeBench (s : State) (b : Nat) (src : PaceSource) : State :=
  (tabKeys (s.bench b).rings).foldl (fun s r => s.edgeRing b r src) s

/-- The descriptor waits for this trigger and is eligible to start. -/
def State.awaits (s : State) (b r : Nat) (src : PaceSource) (d : Desc) : Bool :=
  d.phase == .trigger && sourceOf (s.ring b r).clusterB d.bytes == some src && s.mayStart b r d

/-- A descriptor's trigger fires: it has started (07 R223, R227). -/
def State.fireDesc (s : State) (b r : Nat) (c : BitVec 32) : State := (s.numberDesc b r c).modDesc b r c fun d => { d with phase := .fired }

/-- The triggers of a ring's eligible descriptors that wait for the source fire, in ring order (07 R223). -/
def State.fireRing (s : State) (b r : Nat) (src : PaceSource) : State :=
  (s.ring b r).descs.foldl (fun s d => if s.awaits b r src d then s.fireDesc b r d.count else s) s

/-- An expiry or a frame: every trigger of the bench that awaits it fires, and it counts as one edge (07 R223, R226; 08 R249). -/
def State.firing (s : State) (b : Nat) (src : PaceSource) : State :=
  (tabKeys (s.bench b).rings).foldl (fun s r => (s.edgeRing b r src).fireRing b r src) s

/-- Some descriptor of the bench consumes a firing of the source. -/
def State.consumes (s : State) (b : Nat) (src : PaceSource) : Bool :=
  (s.bench b).rings.any fun e => e.2.descs.any fun d => s.awaits b e.1 src d || s.countsEdges b e.1 src d

/-! ### Event lines (07 R210) -/

/-- An operation on a line: 1 SET, 2 CLEAR, 3 PULSE. SET of a clear line, and PULSE, make one edge for its holder. -/
def State.lineOp (s : State) (n op : Nat) : State :=
  let e := s.event n
  let edge := (op == 1 && !e.level) || op == 3
  let s := s.modEvent n fun e => { e with level := if op = 1 then true else if op = 2 then false else e.level }
  match e.holder with
  | some b => if edge then s.edgeBench b (.line n) else s
  | none => s

/-- Lines that a bench holds. -/
def State.linesHeld (s : State) (b : Nat) : Nat := (s.events.filter fun e => e.2.holder == some b).length

/-- The descriptor depends on the source: it waits on the line, or is triggered or paced by it (08 R245; 22 R600). -/
def dependsOn (clusterB : Bool) (src : PaceSource) (d : Desc) : Bool :=
  d.status.isNone &&
  (sourceOf clusterB d.bytes == some src || (d.phase == .eventWait && decide (src = .line (field d.bytes 0x0C 2))))

/-- Every descriptor of the bench that depends on a released source ends with PERMISSION (08 R245; 22 R600). -/
def State.endDependents (s : State) (b : Nat) (src : PaceSource) : State :=
  (s.bench b).rings.foldl (fun s e =>
    (e.2.descs.filter (dependsOn e.2.clusterB src)).foldl (fun s d =>
      (s.endDesc b e.1 d.count 0x12 0 255 0).tryFlush b e.1 d.count) s) s

/-- A line is claimed by a bench: clear, with no edges (08 R245). -/
def State.takeLine (s : State) (b n : Nat) : State :=
  (s.modEvent n fun _ => ⟨some b, false⟩).addTally 0x0B b 0 n

/-- A line is released. -/
def State.dropLine (s : State) (b n : Nat) : State :=
  (s.modEvent n fun _ => EventLine.reset).endTally 0x0B b n

/-! ### Pace timers (08 R247, R248; 22 R600) -/

/-- A pace slot of a bench. -/
def State.paceSlot (s : State) (b k : Nat) : PaceSlot := tabGet (s.bench b).paceSlots .reset k

/-- A pace slot changed. -/
def State.modPaceSlot (s : State) (b k : Nat) (f : PaceSlot → PaceSlot) : State :=
  s.modBench b fun x => { x with paceSlots := tabMod .reset k f x.paceSlots }

/-- The slot's timer is disarmed and released (08 R248). -/
def State.dropTimer (s : State) (b k : Nat) : State :=
  let p := s.paceSlot b k
  if ¬ p.claim then s else
  let t := p.timer.toNat
  ((s.modPaceTimer p.clusterB t fun _ => PaceTimer.reset).modPaceSlot b k fun p => { p with claim := false, arm := false }).endTally
    0x0C b (p.clusterB.toNat * 64 + t)

/-- The next expiry is due: armed at a, expiry k comes at a + k × PERIOD (08 R248). -/
def State.paceDue (s : State) (clusterB : Bool) (t : Nat) : Bool :=
  let x := s.paceTimer clusterB t
  match x.holder with
  | some b =>
    x.armed && decide ((x.expiries + 1) * (s.paceSlot b x.slot).period.toNat ≤ (s.now.toNat - x.armedAt.toNat) * 100 + 99)
  | none => false

end Sys2Proof.Machine
end

