-- ==== Sys2Proof/Machine/HotOps.lean ====
section
/-!
DEFINITION. Region records, HOT crossings, migration requests, PREFETCH and breadcrumb look-ahead (10 R311–R313; 11 R330–R338; 07 R199).
-/

namespace Sys2Proof.Machine

/-! ### Region records (11 R331, R332) -/

/-- A new record (11 R332). -/
def Region.fresh : Region := ⟨0, false, false, false, true, false, 0, 0⟩

/-- The record carries advice. -/
def Region.advised (r : Region) : Bool := r.readMostly || r.preferred || r.accessedBy

/-- A region record of a bench. -/
def State.region (s : State) (b n : Nat) : Option Region := tabGet (s.bench b).regions none n

/-- A region record set. -/
def State.setRegion (s : State) (b n : Nat) (r : Option Region) : State :=
  s.modBench b fun x => { x with regions := tabPut none n r x.regions }

/-- The record that a full table gives up: without advice, with the lowest count, the lowest region among equals. -/
def regionVictim (t : Tab (Option Region)) : Option Nat :=
  let free := t.filterMap fun e => (e.2.filter fun r => !r.advised).map fun r => (e.1, r.count)
  match free with
  | [] => none
  | x :: l => some (l.foldl (fun m y => if y.2 < m.2 then y else m) x).1

/-- The record of a region, created where the table allows (11 R331). -/
def State.makeRegion (s : State) (b n : Nat) : Option Region × State :=
  match s.region b n with
  | some r => (some r, s)
  | none =>
    let t := (s.bench b).regions
    if t.length < 262144 then (some .fresh, s.setRegion b n (some .fresh))
    else
      match regionVictim t with
      | none => (none, s)
      | some v =>
        (some .fresh, ((s.setRegion b v none).setRegion b n (some .fresh)).modBench b fun x => { x with regionEvict := x.regionEvict + 1 })

/-- Target of the leaf that maps a DVA. -/
def State.leafTarget (s : State) (b dva : Nat) : Option Nat := ((s.tableOf b).leaf dva).map fun e => entTarget e.2

/-- ADVICE as a record and a migration request show it (11 Table 3). -/
def Region.advice (r : Region) : Nat :=
  r.readMostly.toNat + 2 * r.preferred.toNat + 4 * r.accessedBy.toNat + 8 * r.armed.toNat + 16 * r.wanted.toNat

/-- The 16 bytes of a region record as REGION_QUERY shows it (11 Table 3). -/
def regionBytes (n : Nat) (r : Region) : List Byte :=
  leBytes 8 (n * 65536) ++ leBytes 4 r.count ++ leBytes 1 r.advice ++ leBytes 1 r.location ++ leBytes 1 r.dies ++ [0]

/-! ### Migration requests (11 R336) -/

/-- A posted write for no bench, under the PF of the management function's port (04 R93). -/
def State.mgmtWrite (s : State) (addr : Nat) (data : List Byte) : State :=
  let p := s.mgmtFn.1
  s.egress p 0 256 data.length 0 (.hostWrite p 0 plainAttr addr data)

/-- A migration request is written to the queue, PHASE last, and MIG_WANTED is set; it is lost where the queue is full or disabled. -/
def State.migRequest (s : State) (b n source : Nat) : State :=
  match s.region b n with
  | none => s
  | some r =>
    let q := s.mig
    if ¬ q.qEnable ∨ (q.qTail - q.qHead).toNat = 2 ^ q.qLog2.toNat then { s with mig := { q with qLost := q.qLost + 1 } }
    else
      let s := s.setRegion b n (some { r with wanted := true })
      let k := q.qTail.toNat % 2 ^ q.qLog2.toNat
      let a := q.qBase.toNat + 16 * k
      let info := r.advice % 32 + 32 * r.dies + if q.qPhase then 2 ^ 31 else 0
      let s := s.mgmtWrite a (leBytes 8 (n * 65536) ++ leBytes 2 b ++ leBytes 1 source ++ leBytes 1 r.location)
      let s := s.mgmtWrite (a + 12) (leBytes 4 info)
      { s with mig := { s.mig with qTail := q.qTail + 1, qPhase := if k + 1 = 2 ^ q.qLog2.toNat then !q.qPhase else q.qPhase } }

/-- The region wants a migration: PREFERRED_LOCATION names a die, its leaf has Target 1, MIG_WANTED is 0 (11 R332, R335). -/
def State.wantsMove (s : State) (b n : Nat) (r : Region) : Bool :=
  r.preferred && decide (1 ≤ r.location) && !r.wanted && s.leafTarget b (n * 65536) == some 1

/-- HOT_THRESHOLD of a bench. -/
def State.hotThreshold (s : State) (b : Nat) : Nat := ((s.classOf b).map BenchClass.hotThreshold).getD 0

/-- One count applied to a record, with the HOT crossing (11 R331, R332). -/
def State.applyCount (s : State) (b n : Nat) : State :=
  match s.makeRegion b n with
  | (none, s) => s
  | (some r, s) =>
    let c := min (r.count + 1) 0xFFFFFFFF
    let hot := r.armed && decide (s.hotThreshold b ≤ c)
    let r := { r with count := c, armed := r.armed && !hot }
    let s := s.setRegion b n (some r)
    if ¬ hot then s else
    let s := s.notice b 0x02 0 noRing (BitVec.ofNat 64 (n * 65536)) (BitVec.ofNat 32 c) b
    if s.wantsMove b n r then s.migRequest b n 1 else s

/-! ### Look-ahead (10 R311–R313) -/

/-- Page numbers of `[a, a + n)` joined to a list of at most `k` distinct pages, latest first. -/
def addPages (k : Nat) (acc : List Nat) (p last : Nat) : Nat → List Nat
  | 0 => acc
  | fuel + 1 =>
    if last < p ∨ k ≤ acc.length then acc
    else addPages k (if acc.contains p then acc else p :: acc) (p + 1) last fuel

/-- Pages of the rows of a tile's side from row `r` on. -/
def rowPages (b : List Byte) (src : Bool) (base : Nat) (acc : List Nat) : Nat → Nat → List Nat
  | 0, _ => acc
  | rows + 1, r =>
    if 512 ≤ acc.length then acc else
    let t := tileOf b
    let pl := placeOf b 0 (r * t.rowBytes)
    let a := base + if src then pl.src else pl.dst
    rowPages b src base (addPages 512 acc (a / 4096) ((a + t.rowBytes - 1) / 4096) 513) rows (r + 1)

/-- Pages of the tile of a COPY whose side lies at `base`, joined to those already taken. -/
def tilePages (b : List Byte) (src : Bool) (base : Nat) (acc : List Nat) : List Nat :=
  if isLinear b then
    (if lengthOf b = 0 then acc else addPages 512 acc (base / 4096) ((base + lengthOf b - 1) / 4096) 513)
  else rowPages b src base acc ((tileOf b).rows * max (tileOf b).planes 1) 0

/-- The outer extent by which the next tile of a stream is displaced (07 R199). -/
def outerExtent (b : List Byte) (src : Bool) : Nat :=
  if isLinear b then lengthOf b
  else
    let t := tileOf b
    let stride := if src then t.srcStride else t.dstStride
    if t.planes = 0 then t.rows * stride else t.planes * (if src then t.srcPitch else t.dstPitch) * stride

/-- A page is asked for ahead of need where it is not cached (10 R312, R313). -/
def State.askPage (s : State) (b sel pasid page : Nat) (w : Waiter) : State :=
  let modeD := sel == 2
  if (s.lookup b modeD (if modeD then 0 else pasid) (page * 4096)).isSome then s
  else s.request b modeD (if modeD then none else some pasid) (page * 4096) false w

/-- The pages of tile k + i of an operand that earlier tiles do not touch, in order, and every page taken up to it. -/
def nextTile (y : List Byte) (src : Bool) (i : Nat) (acc : List Nat) : List Nat × List Nat :=
  let all := tilePages y src (addrOf y (if src then 0 else 1) + (i + 1) * outerExtent y src) acc
  ((all.take (all.length - acc.length)).reverse, all)

/-- The pages of an operand asked for ahead of need, where its mode translates. -/
def State.askTile (s : State) (b : Nat) (y : List Byte) (i : Nat) (pages : List Nat) : State :=
  let sel := selOf y i
  if sel = 1 ∨ sel = 2 then pages.foldl (fun s p => s.askPage b sel (pasidOf y) p .prefetch) s else s

/-- The tracker asks for tiles k + 1 to k + 8 of the COPY that starts, tile by tile, at most 512 pages of each operand (10 R312). -/
def State.lookAhead (s : State) (b : Nat) (y : List Byte) : State :=
  ((List.range 8).foldl (fun (q : State × List Nat × List Nat) i =>
    let src := nextTile y true i q.2.1
    let dst := nextTile y false i q.2.2
    ((q.1.askTile b y 0 src.1).askTile b y 1 dst.1, src.2, dst.2)) (s, [], [])).1

/-- The part of a COPY that a stream must keep: selectors, PASID, geometry, without the bases. -/
def streamShape (y : List Byte) : List Byte := slice y 0x06 2 ++ slice y 0x08 4 ++ slice y 0x0C 4 ++ slice y 0x20 16

/-- A COPY with STREAM ≠ 0 starts (10 R311): its tracker is taken, advanced or seeded afresh. -/
def State.breadcrumb (s : State) (b : Nat) (y : List Byte) : State :=
  let st := streamOf y
  if st = 0 then s else
  let h := s.headstock
  let t : Tracker := ⟨b, st, streamShape y, addrOf y 0, addrOf y 1, s.now⟩
  let mine : Tracker → Bool := fun x => x.bench == b && x.stream == st
  let put : Headstock → State := fun h => { s with headstock := { h with trackers := h.trackers.map fun x => if mine x then t else x } }
  match h.trackers.find? mine with
  | none =>
    if 256 ≤ h.trackers.length ∨ 32 ≤ (h.trackers.filter fun x => x.bench == b).length then
      { s with headstock := { h with noTracker := h.noTracker + 1 } }
    else State.lookAhead { s with headstock := { h with trackers := h.trackers ++ [t] } } b y
  | some x =>
    if x.shape = t.shape ∧ t.src = x.src + outerExtent y true ∧ t.dst = x.dst + outerExtent y false then (put h).lookAhead b y
    else (put { h with reseed := h.reseed + 1 }).lookAhead b y

/-! ### PREFETCH (11 R335) -/

/-- Pages of a PREFETCH. -/
def prefetchPages (y : List Byte) : Nat := (addrOf y 0 + lengthOf y + 4095) / 4096 - addrOf y 0 / 4096

/-- Regions with a record in the range of a descriptor, in order. -/
def State.regionsIn (s : State) (b lo n : Nat) : List (Nat × Region) :=
  (s.bench b).regions.filterMap fun e =>
    if decide (lo / 65536 ≤ e.1) && decide (e.1 * 65536 < lo + n) then e.2.map fun r => (e.1, r) else none

/-- RESULT of a PREFETCH. -/
def prefetchResult (d : Desc) : BitVec 64 := BitVec.ofNat 64 (min d.pagesDone 0xFFFFFFFF + 2 ^ 32 * min d.pagesFailed 0xFFFFFFFF)

/-- A PREFETCH ends: with KIND 2, migration requests for the regions that want to move; DONE. -/
def State.endPrefetch (s : State) (b r : Nat) (d : Desc) : State :=
  let y := d.bytes
  let s := if field y 0x0C 1 = 2 ∧ selOf y 0 = 2 then
      (s.regionsIn b (addrOf y 0) (lengthOf y)).foldl (fun s e => if s.wantsMove b e.1 e.2 then s.migRequest b e.1 2 else s) s
    else s
  s.endDesc b r d.count 0x00 0 255 (prefetchResult d)

/-- A PREFETCH goes on over pages that are cached until one must be asked for, in ascending order. -/
def State.pumpPrefetch (s : State) (b r : Nat) (c : BitVec 32) : Nat → State
  | 0 => match s.desc b r c with
    | some d => s.endPrefetch b r d
    | none => s
  | fuel + 1 =>
    match s.desc b r c with
    | none => s
    | some d =>
      let y := d.bytes
      let page := addrOf y 0 / 4096 + d.next
      let sel := selOf y 0
      if (s.lookup b (sel == 2) (if sel = 2 then 0 else pasidOf y) (page * 4096)).isSome then
        (s.modDesc b r c fun d => { d with next := d.next + 1, pagesDone := d.pagesDone + 1 }).pumpPrefetch b r c fuel
      else s.askPage b sel (pasidOf y) page (.prefetchDesc r c)

/-- The page that a PREFETCH waited for has been tried. -/
def State.prefetchTried (s : State) (b r : Nat) (c : BitVec 32) (ok : Bool) : State :=
  match s.desc b r c with
  | none => s
  | some d =>
    if d.phase ≠ .started ∨ d.status.isSome then s else
    let s := s.modDesc b r c fun d =>
      { d with next := d.next + 1, pagesDone := d.pagesDone + ok.toNat, pagesFailed := d.pagesFailed + (!ok).toNat }
    s.pumpPrefetch b r c (prefetchPages d.bytes - (d.next + 1))

/-! ### ADVISE (11 R337) -/

/-- One region's record advised. -/
def Region.advise (r : Region) (advice : Nat) (set : Bool) (arg : Nat) : Region :=
  let r := if set then r else { r with wanted := false }
  if advice = 1 then { r with readMostly := set }
  else if advice = 2 then { r with preferred := set, location := if set then arg else r.location }
  else { r with accessedBy := set, dies := if set then arg else r.dies }

/-- Advice on the regions from number `n` on; answers how many were recorded. -/
def State.adviseFrom (s : State) (b advice : Nat) (set : Bool) (arg n : Nat) : Nat → Nat × State
  | 0 => (0, s)
  | k + 1 =>
    match s.makeRegion b n with
    | (some r, s) =>
      let (m, s) := (s.setRegion b n (some (r.advise advice set arg))).adviseFrom b advice set arg (n + 1) k
      (m + 1, s)
    | (none, s) => (s.modBench b fun x => { x with adviseDropped := x.adviseDropped + 1 }).adviseFrom b advice set arg (n + 1) k

end Sys2Proof.Machine
end

