-- ==== Sys2Proof/Machine/RegOps.lean ====
section
/-!
DEFINITION. Access to a bench's registers: what a bench's state and detachment let through, where a ring's registers lie, the ring control register (06 R156–R183; 21 R569–R574; 22 R590–R606).
-/

namespace Sys2Proof.Machine

/-! ### What the bench map serves (22 R593, R594) -/

/-- A write to the bench map is served: the bench is ACTIVE or HELD, and attached. -/
def State.benchServes (s : State) (b : Nat) : Bool :=
  ((s.bench b).state == .active || (s.bench b).state == .held) && !(s.bench b).detached

/-- A write that is discarded is counted: in the hub's count without a bench, else in the bench's (21 R574; 22 R592). -/
def State.discard (s : State) (b : Nat) : State := if (s.bench b).state = .vacant then s.countHub else s.countBench b

/-- A write to the bench map discards a staged low dword (22 R592). -/
def State.unstage (s : State) (b : Nat) : State :=
  if (s.bench b).staged.isNone then s else s.modBench b fun x => { x with staged := none }

/-- A write to a register of the bench map by the row of its own: it arrives where the memory of the bench's function is reached (05 R123). A VACANT bench has no function: what writes is the hub's own count. -/
def State.served (s : State) (b : Nat) (f : State → State) : State :=
  if ¬ s.decodes (s.bench b).port (s.bench b).fn then s else if s.benchServes b then f (s.unstage b) else (s.discard b).unstage b

/-- A full-width 32-bit write. -/
def fullWrite (p f offset : Nat) (value : BitVec 32) : PorchRequest :=
  .write ⟨p, f, offset, 4, List.replicate 4 true, leBytes 4 value.toNat, false⟩

/-- A write to a register of ring r, whose cluster holds it: absent rings discard and count; a sleeping cluster is woken through the porch (06 R164; 22 R590, R591, R593). -/
def State.servedRing (s : State) (b r offset : Nat) (value : BitVec 32) (f : State → State) : State :=
  s.served b fun s =>
    let x := s.bench b
    if x.ringCount ≤ r then s.countBench b
    else s.atDomain ⟨.host x.port, clusterDomain (s.ring b r).clusterB, 1, fullWrite x.port x.fn offset value⟩ f

/-! ### Rings -/

/-- A descriptor has bursts to issue, its pacing condition apart; a COMPARE that has found a mismatch has none (07 R206). -/
def Desc.issuing (d : Desc) : Bool :=
  opMoves (opOf d.bytes) && d.status.isNone && d.phase == .started && decide (d.next < d.total) && d.mismatch.isNone

/-- The ring's oldest descriptor waits for its trigger or runs EVENT_WAIT: the ring holds no channel (08 R233), also where a later one with OVERLAP could issue (DEDUCED, log entry 80). -/
def Ring.heldBack (x : Ring) : Bool := (x.oldest.map fun d => d.awaitsTrigger || d.phase == .eventWait).getD false

/-- The bench's started descriptors go on: ACTIVE, HELD, or settling in a sweep (05 R125, R127; 17 R494). -/
def Bench.goesOn (x : Bench) : Bool :=
  x.state == .active || x.state == .held || (x.state == .sweeping && (x.sweep.map fun w => w.step == .settle).getD false)

/-- The ring has something to take a channel for: it runs, holds none, and has a descriptor ready to issue a burst (08 R231, R233, R235). -/
def State.wantsChannel (s : State) (b r : Nat) (x : Ring) : Bool :=
  (x.state == .running || x.state == .pausing) && x.channel.isNone && !x.heldBack &&
  x.descs.any fun d => d.issuing && (d.paceWait.isNone || s.paceOpen b r d.bytes)

/-- A ring of another bench waits for a channel in the cluster. -/
def State.othersWait (s : State) (b : Nat) (clusterB : Bool) : Bool :=
  s.benches.any fun e => e.1 != b && e.2.goesOn && e.2.rings.any fun r => r.2.clusterB == clusterB && s.wantsChannel e.1 r.1 r.2

/-- A descriptor of the ring is ready to issue: one with bursts left, or a data descriptor that may start. -/
def State.readyToIssue (s : State) (b r : Nat) : Bool :=
  (s.ring b r).descs.any fun d => d.issuing || (opMoves (opOf d.bytes) && (d.phase == .ready || d.phase == .fired) && s.mayStart b r d)

/-- At a descriptor boundary the ring gives up its channel where nothing further is ready, its turn is over while another bench waits, or its bench is over quota (08 R234). -/
def State.boundary (s : State) (b r : Nat) : State :=
  let x := s.ring b r
  if x.channel.isNone then s
  else if x.heldBack ∨ ¬ s.readyToIssue b r then s.giveUp b r 1
  else if s.othersWait b x.clusterB ∧ x.channelSince.toNat + 20 ≤ s.now.toNat then s.giveUp b r 2
  else if (s.bench b).limits.channels.toNat < s.channelsHeld b then s.giveUp b r 3
  else s

/-- A state that follows is settled, and a ring that becomes PAUSED gives up its channel (08 R234); one whose next entry could not be fetched parks. -/
def State.settleRing (s : State) (b r : Nat) : State :=
  let s := s.modRing b r Ring.settle
  (if (s.ring b r).state = .paused then s.giveUp b r 1 else s).fetchPark b r

/-- A tail value is offered to a ring by doorbell, knock or poll (06 R161). -/
def State.offerTail (s : State) (b r : Nat) (v : BitVec 32) : State :=
  (s.modRing b r fun x => (x.offer v).2).stir (clusterDomain (s.ring b r).clusterB)

/-- LOG2 is in 4–16 (06 R156). -/
def Ring.sizeOk (x : Ring) : Bool := decide (4 ≤ x.log2.toNat) && decide (x.log2.toNat ≤ 16)

/-- The ring at the start of its counts (06 R159): RING_HEAD and RING_TAIL_SEEN 0, RING_STATS clear. -/
def Ring.started (x : Ring) : Ring :=
  Ring.settle { x with
    state := .idle, park := .none, configError := false, head := 0, tail := 0, badTail := 0, ownLate := 0, spurious := 0
    descs := [], fetchNext := 0, ownStop := false, fetchFailed := false, disabling := false, flushing := false, retake := false, edges := 0, edgesFrom := none, edgeMarks := [], lastDesc := none }

/-- ENABLE = 1 on a DISABLED ring (06 R156, R159, R165; 22 R606); with KNOCK_EN its knock tracker is held under a tally (17 Table 1). -/
def State.enableRing (s : State) (b r : Nat) : State :=
  let x := s.ring b r
  if x.sizeOk then
    let s := s.modRing b r Ring.started
    (if x.knockEn then s.addTally 0x06 b x.clusterB.toNat x.context else s).takeKnock b r
  else s.modRing b r fun x => { x with configError := true }

/-- ENABLE = 0 is accepted in IDLE, PAUSED, and PARKED with cause ERROR or FETCH (06 R182). -/
def Ring.mayDisable (x : Ring) : Bool :=
  x.state == .idle || x.state == .paused || (x.state == .parked && (x.park == .error || x.park == .fetch))

/-- RESUME takes effect in PARKED with cause ERROR or FETCH (06 R180). -/
def Ring.mayResume (x : Ring) : Bool := x.state == .parked && (x.park == .error || x.park == .fetch)

/-- RESUME (06 R180): descriptors that ran on under OVERLAP stay, the rest of the entries are fetched again from RING_HEAD on. -/
def Ring.resumed (x : Ring) : Ring :=
  let keep := x.kept
  Ring.unpark { x with descs := keep, fetchNext := x.head + BitVec.ofNat 32 keep.length, ownStop := false, fetchFailed := false }

/-- PAUSE written (06 R181): PARKED with cause ERROR or FETCH becomes PAUSED at once, other parked rings keep PAUSE_PENDING. -/
def Ring.setPause (x : Ring) (p : Bool) : Ring :=
  let x := { x with pause := p }
  if p ∧ x.mayResume then { x with state := .paused, park := .none } else x.settle

/-- The mode bits of a RING_CTRL value: KNOCK_EN, COHERENT_FETCH, PASID_EN. -/
def ringMode (v : BitVec 32) : Bool × Bool × Bool := (v.getLsbD 4, v.getLsbD 5, v.getLsbD 6)

/-- The mode bits that the ring holds. -/
def Ring.mode (x : Ring) : Bool × Bool × Bool := (x.knockEn, x.coherent, x.pasidEn)

end Sys2Proof.Machine
end

