-- ==== Sys2Proof/Machine/BurstOps.lean ====
section
/-!
DEFINITION. A lathe's channels: what stands before each channel's next burst, which bursts are eligible, granting one (07 R212, R225; 08 R231–R239; 10 R282; 11 R317, R330, R340).
-/

namespace Sys2Proof.Machine

/-! ### What keeps a burst back -/

/-- The bench and leaf that the running migration holds closed to writes (11 R340). -/
def State.migClosed (s : State) (b addr : Nat) : Bool :=
  s.mig.stage != .idle && b == field s.mig.arg 0 1 && decide (s.mig.leaf ≤ addr) && decide (addr < s.mig.leaf + 2 ^ s.mig.leafSize)

/-- A write of the burst falls under a leaf that is closed to writes. -/
def State.burstClosed (s : State) (b : Nat) (d : Desc) (u : Burst) : Bool :=
  selOf d.bytes 1 == 2 && u.dst.any fun x =>
    let a := addrOf d.bytes 1 + d.burstAt u + x.1
    s.migClosed b a || s.migClosed b (a + x.2.1 - 1)

/-- RESULT of an operand's fatal outcome (06 Table 6): the BAR4 offset for PEER_ERROR, else the operand address. -/
def State.stopResult (s : State) (b code addr : Nat) : BitVec 64 :=
  if code = 0x23 then BitVec.ofNat 64 addr - (s.bench b).peer.base else BitVec.ofNat 64 addr

/-- An obstacle of an operand is dealt with (10 R283, R289; 11 R315, R317): a request to the Headstock, a fault, an outcome, or the port. A Mode S fault whose function has PRI Response Failure ends with PRI_FAILED (04 R109). -/
def State.meetObstacle (s : State) (b r : Nat) (d : Desc) (operand addr : Nat) (x : Xl) (write : Bool) : State :=
  match x with
  | .ok _ => s
  | .miss modeD pasid => s.request b modeD pasid addr write (.lathe r d.count operand addr write)
  | .fault kind =>
    if kind = 3 ∧ (s.fnAt (s.bench b).port (s.bench b).fn).priFailure then
      (s.endDesc b r d.count 0x10 5 operand (BitVec.ofNat 64 addr)).advance b r d.count
    else s.raiseFault b r d.count operand kind (pasidOf d.bytes) (s.burstFirst b d operand addr) addr write
  | .stop code detail => (s.endDesc b r d.count code detail operand (s.stopResult b code addr)).advance b r d.count
  | .noPort => s.parkHost b r

/-- A descriptor before this one is the culprit of a lathe halt: this one goes on only after RESUME (08 R254). -/
def Ring.behindCulprit (x : Ring) (d : Desc) : Bool := (x.before d).any Desc.isCulprit

/-- A descriptor in execution looks at its next burst: the burst where nothing but the lathe's room stands before it; obstacles are dealt with. -/
def State.attendDesc (s : State) (l b r : Nat) (c : BitVec 32) : Option Burst × State :=
  match s.desc b r c with
  | none => (none, s)
  | some d =>
    if ¬ d.issuing ∨ (s.ring b r).behindCulprit d then (none, s)
    else if ¬ s.paceOpen b r d.bytes then
      (none, if d.paceWait.isSome then s else s.modDesc b r c fun d => { d with paceWait := some s.now })
    else
      let s := if d.paceWait.isSome then s.modDesc b r c fun d => { d with paceWait := none } else s
      if ¬ (s.bench b).rateOpen then (none, s) else
      match s.nextBurst b d l with
      | .awaitIndex => (none, s)
      | .badIndex k => (none, if ¬ d.bursts.isEmpty then s else (s.endDesc b r c 0x31 0 2 (BitVec.ofNat 64 k)).advance b r c)
      | .bad operand addr x write => (none, s.meetObstacle b r d operand addr x write)
      | .burst u => (if s.burstClosed b d u then none else some u, s)

/-- The ring's channel is served: its descriptors go on. -/
def State.channelRuns (s : State) (b r : Nat) : Bool :=
  (s.bench b).goesOn && ((s.ring b r).state == .running || (s.ring b r).state == .pausing)

/-- A list turned so that it begins after the last element that satisfies `p`. -/
def turnAfter {α : Type} (l : List α) (p : α → Bool) : List α := (l.dropWhile fun x => !p x).drop 1 ++ l.takeWhile (fun x => !p x) ++ l.filter p

/-- Descriptors of a ring in turn, after the one served last (07 R190). -/
def Ring.turns (x : Ring) : List (BitVec 32) :=
  let l := x.descs.map Desc.count
  match x.lastDesc with
  | none => l
  | some c => if l.contains c then turnAfter l (· == c) else l

/-- What of a lathe's room a burst lacks, from now on. -/
def Lathe.lacks (x : Lathe) (l : Nat) (u : Burst) (since : BitVec 64) : RoomWait :=
  ⟨since, decide (256 < min 64 u.reads.length + x.reads.length), decide (256 < min 64 u.dst.length + x.writes.length), decide (131072 < x.reorder + u.reorder), l⟩

/-- The descriptors of a channel's ring looked at in turn; the first that could be granted here, with its burst. One that only the lathe's room keeps back waits from now on (08 R239). -/
def State.attendTurns (s : State) (l b r : Nat) : List (BitVec 32) → Option (BitVec 32 × Burst) × State
  | [] => (none, s)
  | c :: rest =>
    if ¬ s.channelRuns b r then (none, s) else
    let (u, s) := s.attendDesc l b r c
    let (v, s) := s.attendTurns l b r rest
    match u with
    | some u =>
      if ¬ (s.lathe l).fits u then (v, s.modDesc b r c fun d =>
        { d with roomWait := some ((s.lathe l).lacks l u ((d.roomWait.map RoomWait.since).getD s.now)) })
      else if (s.lathe l).admits b r u then (some (c, u), s.modDesc b r c fun d => { d with roomWait := none })
      else (v, s)
    | none => (v, s)

/-- Every channel of a lathe looked at; those with a burst eligible: channel, bench, ring, descriptor, burst. -/
def State.attendLathe (s : State) (l : Nat) : List (Nat × Option (Nat × Nat)) → List (Nat × Nat × Nat × BitVec 32 × Burst) × State
  | [] => ([], s)
  | (_, none) :: rest => s.attendLathe l rest
  | (k, some (b, r)) :: rest =>
    let (u, s) := s.attendTurns l b r (s.ring b r).turns
    let (v, s) := s.attendLathe l rest
    match u with
    | some (c, u) => ((k, b, r, c, u) :: v, s)
    | none => (v, s)

/-! ### Granting -/

/-- Accesses of a granted burst: the entries used become most recent (10 R282), and each request counts in its region (11 R330). -/
def State.accessBurst (s : State) (b : Nat) (d : Desc) (u : Burst) : State :=
  let pl := placeOf d.bytes u.elem u.start
  let one := fun (s : State) (i off : Nat) (w : Bool) =>
    let o := operandOf d.bytes d.order i w
    (s.touchOp b o off).countOp b o off
  let s := u.reads.foldl (fun s q => one s q.operand ((if q.operand = 0 then pl.src else pl.dst) + q.off) false) s
  u.dst.foldl (fun s x => one s 1 (pl.dst + x.1) true) s

/-- Bytes that the burst writes: what RATE_CAP counts (05 R144). -/
def Burst.written (u : Burst) : Nat := u.dst.foldl (fun n x => n + x.2.1) 0

/-- A burst is granted (08 R238): charged, counted against the cap, an edge consumed, admitted; then the lathe's admitted bursts go on. A burst issued again after a stop takes an edge again (DESIGN CHOICE, log entry 78: the spec does not say whether it needs one). -/
def State.grantBurst (s : State) (l k b r : Nat) (c : BitVec 32) (u : Burst) : State :=
  match s.desc b r c with
  | none => s
  | some d =>
    let u := { u with admitted := (s.lathe l).admitted }
    let mark := ((s.ring b r).edgeMarks.head?).bind id
    let s := s.charge (arbLathe l) b u.len (s.qosOf b).latheWeight
    let s := s.modLathe l fun x => { x with
      lastChannel := tabSet b k x.lastChannel, reorder := x.reorder + u.reorder
      reserved := x.reserved.filter fun q => !(q.bench == b && q.ring == r), admitted := x.admitted + 1 }
    let s := (s.rateCharge b u.written).countPerf (2 * l) u.len
    let s := s.accessBurst b d u
    let s := s.modRing b r fun x => { x with
      lastDesc := some c, edges := if paceOf d.bytes = 2 then x.edges - 1 else x.edges,
      edgeMarks := if paceOf d.bytes = 2 then x.edgeMarks.drop 1 else x.edgeMarks }
    let s := s.modDesc b r c fun d => { d with
      sealNote := if paceOf d.bytes = 2 then d.sealNote.or mark else d.sealNote, next := d.next + u.len, bursts := d.bursts ++ [u], lathe := l, roomWait := none }
    s.pumpLathe l

/-- The channel served within a bench: the first after the one served last. -/
def State.channelTurn (s : State) (l b : Nat) (e : List (Nat × Nat × Nat × BitVec 32 × Burst)) :
    Option (Nat × Nat × Nat × BitVec 32 × Burst) :=
  let mine := e.filter fun x => x.2.1 == b
  let after := tabGet ((s.lathe l).lastChannel.map fun e => (e.1, e.2 + 1)) 0 b
  ((mine.filter fun x => decide (after ≤ x.1)) ++ mine).head?

/-! ### Taking up channels (08 R230–R232) -/

/-- A lathe may take rings: present, of the cluster, not halted or fenced. A self-test yields to them (18 R527). -/
def State.latheUsable (s : State) (clusterB : Bool) (l : Nat) : Bool :=
  decide (l < s.nLathes) && latheCluster l == clusterB && !(s.lathe l).fenced && (s.lathe l).halt.isNone

/-- Bytes that an engine moves for a bench on channel 31 count against its RATE_CAP, and at its LATHE_WEIGHT at a lathe of the cluster: the lowest that is usable (11 R340; 14 R400; 15 R429). DESIGN CHOICE (log entry 88): no rule says which lathe. -/
def State.engineCharge (s : State) (b : Nat) (clusterB : Bool) (n : Nat) : State :=
  let s := s.rateCharge b n
  match (List.range 16).find? (s.latheUsable clusterB) with
  | none => s
  | some l =>
    let others := ((s.arbiter (arbLathe l)).filter fun e => e.2.waiting).map Prod.fst
    ((s.arbitrate (arbLathe l) (others ++ [b]).dedup).2).charge (arbLathe l) b n (s.qosOf b).latheWeight

/-- Free tenant channels of a lathe. -/
def Lathe.freeChannels (x : Lathe) : List Nat := (List.range 30).filter fun c => (tabGet x.channels none c).isNone && !x.draining.any fun q => q.1 == c

/-- The lathe with most free tenant channels, the lower number among equals, with its lowest free channel. -/
def State.bestChannel (s : State) (clusterB : Bool) : Option (Nat × Nat) :=
  let l := (List.range 16).filter fun l => s.latheUsable clusterB l && !(s.lathe l).freeChannels.isEmpty
  match l with
  | [] => none
  | x :: rest =>
    let m := rest.foldl (fun m y => if (s.lathe m).freeChannels.length < (s.lathe y).freeChannels.length then y else m) x
    (s.lathe m).freeChannels.head?.map fun c => (m, c)

/-- A free channel 30 of the cluster, for bench 0. -/
def State.mgmtChannel (s : State) (clusterB : Bool) : Option (Nat × Nat) :=
  ((List.range 16).find? fun l => s.latheUsable clusterB l && (tabGet (s.lathe l).channels none 30).isNone && !(s.lathe l).draining.any fun q => q.1 == 30).map fun l => (l, 30)

/-- The channel that a ring of the bench may take now: for bench 0 channel 30 first, then a tenant channel; tenant channels within CHANNEL_QUOTA. -/
def State.channelFor (s : State) (b : Nat) (clusterB : Bool) : Option (Nat × Nat) :=
  let tenant := if s.channelsHeld b < (s.bench b).limits.channels.toNat then s.bestChannel clusterB else none
  if b = 0 then (s.mgmtChannel clusterB).or tenant else tenant

/-- Rings of a bench that wait for a channel in the cluster. -/
def State.waitingRings (s : State) (b : Nat) (clusterB : Bool) : List Nat :=
  (s.bench b).rings.filterMap fun e => if e.2.clusterB == clusterB && s.wantsChannel b e.1 e.2 then some e.1 else none

/-- The arbiter of a cluster's channel queue. -/
def arbTake (clusterB : Bool) : Nat := 50 + clusterB.toNat

/-- A ring takes a channel: tallied, its hold begins; a self-test of the lathe stops (18 R527). -/
def State.takeChannel (s : State) (b r l c : Nat) : State :=
  let s := { s with bg := { s.bg with testing := s.bg.testing.filter fun t => t != TestUnit.lathe l } }
  let s := s.modLathe l fun x => { x with testing := false, channels := tabSet c (some (b, r)) x.channels }
  (s.modRing b r fun x => { x with channel := some (l, c), channelSince := s.now }).addTally 0x03 b l (channelNumber l c)

end Sys2Proof.Machine
end

