-- ==== Sys2Proof/Machine/HaltOps.lean ====
section
/-!
DEFINITION. Lathe halts: halting channels, the requests to replay, the culprit, resuming (08 R250–R258).
-/

namespace Sys2Proof.Machine

/-- The rings on a lathe's channels: channel, bench, ring. -/
def Lathe.holders (x : Lathe) : List (Nat × Nat × Nat) := x.channels.filterMap fun e => e.2.map fun q => (e.1, q.1, q.2)

/-- The tag of a request: channel, write, slot (08 R254). -/
def latheTag (channel : Nat) (write : Bool) (slot : Nat) : BitVec 16 := BitVec.ofNat 16 (channel * 2048 + write.toNat * 1024 + slot)

/-- The entries of a ring that stand in the prefetch buffer, not started. -/
def Ring.prefetched (x : Ring) : List Desc := x.descs.drop x.kept.length

/-- The request that a tag names: an outstanding slot's, else the channel's fetch, which holds no slot (08 R252). -/
def State.namedBy (s : State) (l : Nat) (t : BitVec 16) : Option ReplayItem :=
  let x := s.lathe l
  let ch := t.toNat / 2048
  let pool := if t.getLsbD 10 then x.writes else x.reads
  (x.holders.find? fun e => e.1 == ch).map fun e =>
    match pool.find? fun u => u.slot == t.toNat % 256 && u.bench == e.2.1 && u.ring == e.2.2 && !u.chaff with
    | some u => ⟨ch, e.2.1, e.2.2, u.desc, false, none, t⟩
    | none => ⟨ch, e.2.1, e.2.2, (s.ring e.2.1 e.2.2).head, true, none, t⟩

/-- What is replayed for one halted channel (08 R252): its fetches, then the reads of each descriptor's next burst from P; no read of a peer window. -/
def State.replayItems (s : State) (l : Nat) (e : Nat × Nat × Nat) : List ReplayItem :=
  let (ch, b, r) := e
  let tag := latheTag ch false ((freeSlot (s.lathe l).reads).getD 0)
  let x := s.ring b r
  let fetches := x.prefetched.map fun d =>
    let place := match s.ringAt b r (x.entry d.count) false with
      | .addr a _ => some (Dest.host a, 64)
      | _ => none
    (⟨ch, b, r, d.count, true, place, tag⟩ : ReplayItem)
  let reads := (x.descs.filter fun d => opMoves (opOf d.bytes) && d.phase == .started && d.status.isNone && decide (d.p < d.total)).flatMap fun d =>
    match s.nextBurst b { d with next := d.p } l with
    | .burst u => (u.reads.filter fun q => match q.src with | .peer _ => false | _ => true).map fun q =>
        (⟨ch, b, r, d.count, false, some (q.src, q.len), tag⟩ : ReplayItem)
    | _ => []
  fetches ++ reads

/-- A channel halts (08 R251): its ring's descriptors stop at P, fetched entries are dropped, and it parks with cause HALT. -/
def State.haltRing (s : State) (b r : Nat) : State :=
  let s := s.stopRing b r
  let s := s.modRing b r fun x => { x with descs := x.kept, fetchNext := x.head + BitVec.ofNat 32 x.kept.length, ownStop := false }
  if (s.ring b r).state = .running ∨ (s.ring b r).state = .pausing then s.parkRing b r .halt else s

/-- One request is issued on channel 31; what it gives comes as its replay's answer, and takes no slot or tag (08 R252; DESIGN CHOICE, log entry 5). -/
def State.sendReplay (s : State) (l : Nat) (i : ReplayItem) : State :=
  let slot := i.tag.toNat % 256
  match i.read with
  | some (.die d a, n) => s.sendDie d (.read l slot (a / 64 * 64) ((a % 64 + n + 63) / 64 * 64))
  | some (.remote h d a, n) => s.sendHub h (.dataRead l slot i.bench (s.bench i.bench).incarn d (a / 64 * 64) ((a % 64 + n + 63) / 64 * 64))
  | some (.host a, n) => s.readHost i.bench ⟨false, false⟩ 34 a n
  | _ => s

/-- The replay's next request is issued once every issued write of the lathe is acknowledged (08 R252). -/
def State.replayNext (s : State) (l : Nat) : State :=
  let x := s.lathe l
  match x.halt with
  | none => s
  | some h =>
    match h.replay with
    | [] => s
    | i :: _ =>
      if h.sent ∨ ¬ x.writes.isEmpty ∨ h.culprit.isSome then s
      else (s.modLathe l fun x => { x with halt := some { h with sent := true } }).sendReplay l i

/-- A bus error halts the lathe, or starts its isolation again from its first step (08 R251, R252, R257). -/
def State.haltLathe (s : State) (l : Nat) (tag : Option (BitVec 16)) : State :=
  let x := s.lathe l
  let halted := match x.halt with
    | some h => h.halted
    | none => x.holders
  let s := match x.halt with
    | some h => (s.logError 0x5 1 (BitVec.ofNat 64 l) h.since).logError 0x5 1 (BitVec.ofNat 64 l) s.now
    | none => s
  let named := tag.bind (s.namedBy l)
  let items := match x.halt with
    | some h => h.items
    | none => halted.flatMap (s.replayItems l)
  let s := halted.foldl (fun s e => s.haltRing e.2.1 e.2.2) s
  (s.modLathe l fun x => { x with
    halt := some ⟨s.now, tag, items, if tag.isSome then [] else items, false, named, halted⟩, reserved := none
    reads := x.reads.map fun u => { u with chaff := true } }).replayNext l

/-- The request under replay has answered: the replay goes on with the next, or the culprit is found (08 R252). -/
def State.replayed (s : State) (l : Nat) (reproduces : Bool) : State :=
  match (s.lathe l).halt with
  | none => s
  | some h =>
    match h.replay with
    | [] => s
    | i :: rest =>
      if ¬ h.sent ∨ h.culprit.isSome then s.replayNext l
      else (s.modLathe l fun x => { x with
        halt := some (if reproduces then { h with replay := [], sent := false, culprit := some i } else { h with replay := rest, sent := false }) }).replayNext l

/-- The isolation has come to its end: issued writes acknowledged, nothing left to replay. -/
def Lathe.isolated (x : Lathe) : Bool :=
  match x.halt with
  | none => false
  | some h => x.writes.isEmpty && h.replay.isEmpty

/-- The LATHE_HALT notice of a ring (08 R256). -/
def State.haltNotice (s : State) (b r cause l : Nat) (since : BitVec 64) : State :=
  s.notice b 0x07 cause r (BitVec.ofNat 64 l) ((s.now - since).setWidth 32) b

/-- The culprit is ended (08 R254): its descriptor with LATHE_HALT_CULPRIT, its ring standing parked until that status is written, or running where earlier descriptors complete first; or its ring parked with cause FETCH. -/
def State.endCulprit (s : State) (l : Nat) (i : ReplayItem) (since : BitVec 64) : State :=
  let s := if i.fetch then (s.modRing i.bench i.ring fun x => { x with fetchFailed := true }).unparkRing i.bench i.ring .halt
    else
      let s := (s.endDesc i.bench i.ring i.desc 0x41 0 0 (i.tag.setWidth 64)).advance i.bench i.ring i.desc
      if (s.ring i.bench i.ring).head = i.desc then s else s.unparkRing i.bench i.ring .halt
  s.haltNotice i.bench i.ring 2 l since

/-- An innocent ring resumes from P (08 R253). -/
def State.resumeInnocent (s : State) (l : Nat) (e : Nat × Nat × Nat) (since : BitVec 64) : State :=
  (s.unparkRing e.2.1 e.2.2 .halt).haltNotice e.2.1 e.2.2 1 l since

/-- Every lathe of the grade in a cluster is fenced. -/
def State.clusterFenced (s : State) (clusterB : Bool) : Bool :=
  ((List.range s.nLathes).filter fun l => latheCluster l == clusterB).all fun l => (s.lathe l).fenced

/-- A lathe is fenced until the next hub restart; with every lathe of its cluster fenced, HUB_FAULT_N (08 R255; 18 R529). -/
def State.fenceLathe (s : State) (l : Nat) : State :=
  let s := s.modLathe l fun x => { x with fenced := true }
  if s.clusterFenced (latheCluster l) then s.logCause 0x5 2 .lathes (BitVec.ofNat 64 l) 0 else s.logError 0x5 2 (BitVec.ofNat 64 l) 0

/-- A halt without a culprit (08 R255): logged, and the third within 1 s fences the lathe. -/
def State.unattributedHalt (s : State) (l : Nat) : State :=
  let s := s.logError 0x5 1 (BitVec.ofNat 64 l) s.now
  let recent := s.now :: (s.lathe l).unattributed.filter fun t => decide (s.now.toNat < t.toNat + 1000000)
  let s := s.modLathe l fun x => { x with unattributed := recent }
  if 3 ≤ recent.length ∧ ¬ (s.lathe l).fenced then s.fenceLathe l else s

end Sys2Proof.Machine
end

