-- ==== Sys2Proof/Machine/DescOps.lean ====
section
/-!
DEFINITION. Descriptors without bursts: waits that other completions end, billets (07 R208–R211; 17 R503–R505).
-/

namespace Sys2Proof.Machine

/-- A descriptor's outcome without an operand: its code and RESULT. -/
def State.endPlain (s : State) (b r : Nat) (d : Desc) (code : Nat) (result : BitVec 64) : State :=
  s.endDesc b r d.count code 0 255 result

/-- The ring's next descriptor of this opcode starts, or the one that has started and still waits is looked at again. -/
def State.begin (s : State) (b r op : Nat) : Option (Desc × State) :=
  match s.startable b r op with
  | some d =>
    let s := s.startDesc b r d.count (totalOf d.bytes)
    (s.desc b r d.count).map fun d => (d, s)
  | none =>
    if ¬ s.channelRuns b r then none else
    ((s.ring b r).descs.find? fun d => opOf d.bytes == op && d.phase == .started && d.status.isNone).map fun d => (d, s)

/-! ### FENCE (07 R208) -/

/-- A descriptor of the ring that started before order `o` has not completed. -/
def Ring.startedBefore (x : Ring) (o : Nat) : Bool := x.descs.any fun e => (e.running || e.phase == .faulted) && decide (e.order < o)

/-- Every descriptor started earlier in the FENCE's scope has completed. -/
def State.fenceOpen (s : State) (b r : Nat) (d : Desc) : Bool :=
  if field d.bytes 0x0C 1 = 1 then !((s.bench b).rings.any fun e => e.2.startedBefore d.order)
  else !(s.ring b r).startedBefore d.order

/-! ### Billets (07 R193, R211; 17 R503–R505) -/

/-- Billet indexes of the pool: one for each 4 KiB. -/
def billetIndexes : Nat := Config.billetKib / 4

/-- KiB of the pool that are taken. -/
def State.billetsTaken (s : State) : Nat := s.recovery.billets.foldl (fun n e => if e.2.live then n + e.2.kib else n) 0

/-- A billet. -/
def State.billet (s : State) (i : Nat) : Billet := tabGet s.recovery.billets .reset i

/-- A billet changed. -/
def State.modBillet (s : State) (i : Nat) (f : Billet → Billet) : State :=
  { s with recovery := { s.recovery with billets := tabMod .reset i f s.recovery.billets } }

/-- The next generation of an index (17 R503). -/
def nextGen (g : Nat) : Nat := if g = 0xFFFFF then 1 else g + 1

/-- The lowest index that is not allocated. -/
def State.freeBillet (s : State) : Option Nat := lowestTag ((s.recovery.billets.filter fun e => e.2.live).map Prod.fst) billetIndexes 0

/-- A billet of `kib` KiB allocated at index `i`, zero-filled. -/
def State.allocBillet (s : State) (b i kib : Nat) : State :=
  let s := s.modBillet i fun x => ⟨nextGen x.gen, true, b, kib, none⟩
  ({ s with billetMem := memZero s.billetMem (i * 2 ^ 20) (2 ^ 20) }.clearMarks (i * 2 ^ 20) (2 ^ 20)).addTally 0x09 b 0 i

/-- An allocation ends; the entries whose Target names it are removed (10 R309 Table 8). -/
def State.endBillet (s : State) (i : Nat) : State :=
  let s := s.dropEntries fun e => e.modeD && e.target == 3 && bits e.frame 20 20 == i
  (s.modBillet i fun x => { x with live := false, freeing := none }).endTally 0x09 (s.billet i).owner i

/-- An operand of a started descriptor names the billet, by its handle or through a DVA that a cached leaf maps to it. -/
def State.namesBillet (s : State) (b i : Nat) (d : Desc) : Bool :=
  (d.running || d.phase == .faulted) && opOf d.bytes != 0x41 &&
    (List.range 3).any fun k =>
      (selOf d.bytes k == 3 && bits (addrOf d.bytes k) 20 20 == i) ||
      (selOf d.bytes k == 2 && s.headstock.cache.any fun e =>
        e.bench == b && e.modeD && e.target == 3 && bits e.frame 20 20 == i && e.overlaps (addrOf d.bytes k) (extentOf d.bytes k))

/-- A request of a lathe to the billet is outstanding. -/
def SlotUse.inBillet (u : SlotUse) (i : Nat) : Bool := u.spa.toNat / 2 ^ 20 == 2 ^ 21 + i

/-- An operation that names the billet is in flight (07 R211). -/
def State.billetBusy (s : State) (i : Nat) : Bool :=
  s.benches.any (fun e => e.2.rings.any fun r => r.2.descs.any fun d => s.namesBillet e.1 i d) ||
  s.lathes.any (fun e => e.2.reads.any fun u => u.inBillet i) ||
  s.jobs.any fun j => j.home == s.hubId &&
    ((if j.spec.coefSel = 3 then [j.spec.coef] else []) ++ (if j.spec.initSel = 3 then [j.spec.init] else []) ++
      j.spec.traceBillet :: j.spec.results).any fun h => h != 0 && bits h.toNat 20 20 == i

/-- HANDLE of a BILLET_FREE. -/
def freeHandle (y : List Byte) : Nat := field y 0x28 8

/-- A BILLET_FREE that was accepted completes once nothing names the billet. -/
def State.settleFree (s : State) (b r : Nat) (d : Desc) : State :=
  let i := bits (freeHandle d.bytes) 20 20
  if s.billetBusy i then s else (s.endBillet i).endPlain b r d 0x00 0

/-- A FOREIGN_FREE notice (17 R504). -/
def State.foreignFree (s : State) (to_ handle from_ : Nat) : State :=
  s.notice to_ 0x08 0 noRing (BitVec.ofNat 64 handle) (BitVec.ofNat 32 from_) to_

/-- BILLET_FREE as 17 Table 6 states; the first row that applies. -/
def State.freeRows (s : State) (b r : Nat) (d : Desc) : State :=
  let h := freeHandle d.bytes
  let i := bits h 20 20
  let x := s.billet i
  if h % 2 ^ 20 ≠ 0 ∨ 2 ^ 60 ≤ h ∨ billetIndexes ≤ i then s.endPlain b r d 0x30 0x28
  else if ¬ x.live ∨ x.gen ≠ bits h 40 20 ∨ x.freeing.isSome then
    (s.modBench b fun y => { y with counters := { y.counters with freeTwice := y.counters.freeTwice + 1 } }).endPlain b r d 0x60 (BitVec.ofNat 64 h)
  else if x.owner ≠ b ∧ b ≠ 0 then
    let s := (s.foreignFree x.owner h b).foreignFree 0 h b
    (s.modBench b fun y => { y with counters := { y.counters with notOwner := y.counters.notOwner + 1 } }).endPlain b r d 0x61 (BitVec.ofNat 64 h)
  else
    let s := if x.owner ≠ b then s.foreignFree x.owner h 0 else s
    (s.modBillet i fun y => { y with freeing := some (s.bench x.owner).nextOrder }).settleFree b r d

/-! ### What a completion lets go on -/

/-- Waits of a bench that a completion may have ended: its FENCEs and its accepted frees. -/
def State.settleWaits (s : State) (b : Nat) : State :=
  (s.bench b).rings.foldl (fun s e =>
    (s.ring b e.1).descs.foldl (fun s d =>
      if d.phase ≠ .started ∨ d.status.isSome then s
      else if opOf d.bytes = 0x11 then (if s.fenceOpen b e.1 d then s.endPlain b e.1 d 0x00 0 else s)
      else if opOf d.bytes = 0x41 then s.settleFree b e.1 d else s) s) s

end Sys2Proof.Machine
end

