-- ==== Sys2Proof/Machine/Rings.lean ====
section
/-!
DEFINITION. Rings: doorbells, knocks, fetching entries, completing descriptors (06 R161–R177; 04 R114).
-/

namespace Sys2Proof.Machine

/-- The bench is ACTIVE or HELD. -/
def State.benchLive (s : State) (b : Nat) : Bool := (s.bench b).state == .active || (s.bench b).state == .held

/-- A tail count written to RING_DOORBELL (06 R163): a DISABLED ring discards and counts it, an ABORTING ring discards it, any other takes the tail as R161 states. -/
def State.doorbellNow (s : State) (b r : Nat) (tail : BitVec 32) : State :=
  if (s.ring b r).state = .disabled then s.countBench b
  else if (s.ring b r).state = .aborting ∨ (s.ring b r).disabling then s
  else s.offerTail b r tail

/-- A write of the function through BAR2, or through BAR4, has not been acknowledged by its die (09 R274). -/
def State.putOpen (s : State) (p f : Nat) (peer : Bool) : Bool := s.bar2Writes.any fun q => q.port == p && q.fn == f && q.peer == peer

/-- The access that waits first of a function. -/
def State.bar2Head (s : State) (p f : Nat) : Option Bar2Wait := s.bar2Queue.find? fun w => w.port == p && w.fn == f

/-- A doorbell of a function is applied after every BAR2 write that the function sent before it has been acknowledged (09 R275). -/
def State.doorbell (s : State) (b r : Nat) (tail : BitVec 32) : State :=
  let p := (s.bench b).port
  let f := (s.bench b).fn
  if s.putOpen p f false ∨ (s.bar2Head p f).isSome then { s with bar2Queue := s.bar2Queue ++ [⟨p, f, .doorbell b r tail, false⟩] }
  else s.doorbellNow b r tail

/-- DOORBELL (06 R163, R164; 22 R605). -/
def execDoorbell (bench ring : Nat) (tail : BitVec 32) (s : State) : Result :=
  .next (s.servedRing bench ring (0x2000 + 4 * ring) tail fun s => s.doorbell bench ring tail)

/-- GO_S (06 R166, R167): the line is held, and its tail word is applied; where a snoop caused the read and the value was already seen, SPURIOUS_KNOCK counts. -/
def execGoS (bench ring : Nat) (tail : BitVec 32) (s : State) : Result :=
  let x := s.ring bench ring
  if x.knock ≠ .acquiring ∨ ¬ s.benchLive bench ∨ (s.bench bench).detached ∨ ¬ (s.port (s.bench bench).port).cxl then .next s else
  let o := x.offer tail
  .next (s.modRing bench ring fun _ => { o.2 with
    knock := .held, retake := false, spurious := if x.retake ∧ o.1 then x.spurious + 1 else x.spurious })

/-- A snoop that invalidates a held line: RspIHitSE, and the line is taken again by RdShared (06 R167), once the function may issue it (04 R121); with ATS disabled the ring is REFUSED (04 R115). -/
def State.knocked (s : State) (b r : Nat) : State :=
  let y := s.bench b
  let s := s.knockMsg b r .rspIHitSE
  if ¬ (s.fnAt y.port y.fn).atsEn then s.modRing b r fun x => { x with knock := .refused, retake := false, knockLine := none }
  else if ¬ s.mayUsePort b then s.modRing b r fun x => { x with knock := .acquiring, retake := true, knockLine := none }
  else (s.modRing b r fun x => { x with knock := .acquiring, retake := true }).knockMsg b r .rdShared

/-- SNPINV (06 R167; 04 Table 8): a knock where the line is held, through the porch where the cluster is off. While the bench sweeps the snoop is only answered, and the line is not taken again. On a line that is not held the answer is the one of Table 8 too (DESIGN CHOICE, log entry 76: the spec names none). -/
def execSnpinv (bench ring : Nat) (s : State) : Result :=
  let x := s.ring bench ring
  if ¬ (s.port (s.bench bench).port).cxl then .next s
  else if x.knock ≠ .held then .next (s.knockMsg bench ring .rspIHitSE)
  else if ¬ s.benchLive bench then
    .next ((s.knockMsg bench ring .rspIHitSE).modRing bench ring fun x => { x with knock := .acquiring, retake := false })
  else .next (s.atDomain ⟨.internal, clusterDomain x.clusterB, 1, .snpinv bench ring⟩ fun s => s.knocked bench ring)

/-- SNPDATA (06 R167; 04 Table 8): a held line stays Shared and is answered RspSHitSE. It is no knock. On a line that is not held nothing stays Shared: RspIHitSE (DESIGN CHOICE, log entry 76). -/
def execSnpdata (bench ring : Nat) (s : State) : Result :=
  if ¬ (s.port (s.bench bench).port).cxl then .next s
  else .next (s.knockMsg bench ring (if (s.ring bench ring).knock = .held then .rspSHitSE else .rspIHitSE))

/-- The tail that a poll read is applied; one that is new wakes a cluster that is off, and is found again by the next poll (06 R170; 03 R75). -/
def State.polled (s : State) (b r : Nat) (tail : BitVec 32) : State :=
  let x := s.ring b r
  if s.domainWorks (clusterDomain x.clusterB) then s.offerTail b r tail
  else if (x.offer tail).1 then s else s.wake (clusterDomain x.clusterB)

/-- KNOCK_POLL (06 R170): the tail word of a POLLING ring is read with a memory read, and applied. -/
def execKnockPoll (bench ring : Nat) (tail : BitVec 32) (s : State) : Result :=
  let x := s.ring bench ring
  if x.knock ≠ .polling ∨ x.disabling ∨ ¬ s.mayUsePort bench then .next s else
  match s.readRing bench ring x.knockAddr.toNat 4 false with
  | (some s, _) => .next (s.polled bench ring tail)
  | (none, s) => .next s

/-- OWN_LATE_RETRY (06 R162): 10 µs have passed: the entry that read OWN = 0 may be read again, while the ring is enabled and not paused. -/
def execOwnLateRetry (bench ring : Nat) (s : State) : Result :=
  let x := s.ring bench ring
  .next (if x.ownStop ∧ ¬ x.pause ∧ x.state ≠ .disabled then s.modRing bench ring fun x => { x with ownStop := false } else s)

/-! ### Fetching (06 R162, R173; 07 R219, R224) -/

/-- The ring may fetch its next entry: its cluster powered, bench ACTIVE, ring RUNNING and not stopped at OWN = 0 or at an entry that could not be fetched, the entry below RING_TAIL_SEEN and at most eight ahead of RING_HEAD. -/
def State.mayFetch (s : State) (b r : Nat) : Bool :=
  let x := s.ring b r
  s.domainWorks (clusterDomain x.clusterB) && (s.bench b).state == .active && x.state == .running && !x.ownStop && !x.fetchFailed && !x.disabling && decide (0 < (x.tail - x.fetchNext).toInt) &&
    decide ((x.fetchNext - x.head).toNat ≤ 8)

/-- A descriptor as fetched. -/
def Desc.fetched (c : BitVec 32) (y : List Byte) : Desc :=
  { count := c, bytes := y, phase := if trigOf y = 0 then .ready else .trigger, order := 0, p := 0, next := 0,
    total := 0, bursts := [], index := [], indexBase := 0, flushAddr := 0, hostWrites := 0, covered := 0, written := [],
    edgesLost := 0, pagesDone := 0, pagesFailed := 0, status := none, lathe := 0, paceWait := none, roomWait := none, sealNote := none }

/-- The status that the checks at fetch give a descriptor, if one: BAD_DESCRIPTOR with the first offending field (07 R219). -/
def fetchStatus (y : List Byte) : Option Status := (fetchCheck y).map fun k => ⟨0x30, 0, 255, BitVec.ofNat 64 k⟩

/-- Edges that a completed descriptor left for the next entry pass to it, or are discarded (07 R226). -/
def Ring.claimEdges (x : Ring) (y : List Byte) : Ring :=
  match x.edgesFrom with
  | none => x
  | some src =>
    if paceOf y = 2 ∧ (trigOf y, trigArgOf y) = src then { x with edgesFrom := none }
    else { x with edges := 0, edgesFrom := none, edgeMarks := [] }

/-- An entry read: one with OWN = 0 stops the fetch and counts OWN_LATE; another joins the ring's descriptors. -/
def State.takeEntry (s : State) (b r : Nat) (y : List Byte) : State :=
  s.modRing b r fun x =>
    if ¬ ownOf y then { x with ownLate := x.ownLate + 1, ownStop := true }
    else
      let d := Desc.fetched x.fetchNext y
      let d := match fetchStatus y with
        | some st => { d with status := some st, phase := .ready }
        | none => d
      let x := x.claimEdges y
      { x with descs := x.descs ++ [d], fetchNext := x.fetchNext + 1 }

/-- DESCRIPTOR_FETCH (04 R107; 06 R157, R173; 01 R31): the entry is read, where its address is translated and a tag is free; what the read gives joins the ring's descriptors, or stops the fetch. -/
def execDescriptorFetch (bench ring : Nat) (result : FetchResult) (s : State) : Result :=
  if ¬ s.mayFetch bench ring then .next s
  else if ¬ s.mayUsePort bench then .next (s.parkHost bench ring)
  else
    let x := s.ring bench ring
    match s.readRing bench ring (x.entry x.fetchNext) 64 x.coherent with
    | (none, s) => .next s
    | (some s, _) =>
      match result with
      | .ok bytes => .next (s.takeEntry bench ring (slice bytes 0 64))
      | .hostError => .next (s.fetchStops bench ring)
      | .hostTimeout => .next ((s.aer (s.bench bench).port (s.reqFn bench) .completionTimeout).fetchStops bench ring)
      | .poisoned => .next ((s.aer (s.bench bench).port (s.reqFn bench) .poisonedTlp).fetchStops bench ring)

/-! ### Completing (06 R174–R177; 07 R226; 08 R234) -/

/-- A started descriptor may write its status: the ring runs or pauses, its bench is ACTIVE or HELD, or settles in a sweep; one refused before it started waits for the ring to run (06 R175, R181, R184; 17 R494). The culprit of a lathe halt writes it while its ring stands parked (08 R254). -/
def State.mayComplete (s : State) (b r : Nat) (d : Desc) : Bool :=
  let x := s.ring b r
  let y := s.bench b
  let settling := y.state == .sweeping && (y.sweep.map fun w => w.step == .settle).getD false
  d.status.isSome && d.bursts.isEmpty && s.descWrites b r d.count == 0 && d.hostWrites == 0 &&
  if d.phase = .ending then
    ((x.state == .running || x.state == .pausing || (x.state == .parked && x.park == .halt && d.isCulprit)) &&
      (y.state == .active || y.state == .held)) ||
    (settling && x.state != .disabled && x.state != .aborting)
  else x.state == .running && !x.pause && y.state == .active

/-- Bytes 0x30–0x3B (06 Table 3). -/
def statusBytes (st : Status) (lathe : Nat) : List Byte :=
  leBytes 1 st.code ++ leBytes 1 st.detail ++ leBytes 1 st.operand ++ leBytes 1 lathe ++ leBytes 8 st.result.toNat

/-- The vector of a descriptor: the one named, or the ring's own (06 R177; 05 R154). -/
def vectorFor (r v : Nat) : Nat := if 1 ≤ v ∧ v ≤ 31 then v else r + 1

/-- Edges left over pass to the next descriptor where it is edge-paced by the same source; a posted one that is not yet fetched is judged when it is (07 R226). -/
def Ring.passEdges (x : Ring) (done : Desc) : Ring :=
  let src := (trigOf done.bytes, trigArgOf done.bytes)
  if paceOf done.bytes ≠ 2 then { x with edges := 0, edgesFrom := none, edgeMarks := [] } else
  match x.descs with
  | n :: _ => Ring.claimEdges { x with edgesFrom := some src } n.bytes
  | [] => if x.head = x.tail then { x with edges := 0, edgesFrom := none, edgeMarks := [] } else { x with edgesFrom := some src }

/-- A descriptor whose trigger source its bench does not hold is refused when it could start (07 R219; 08 R245, R247; 19 R542). -/
def State.refuseSource (s : State) (b r : Nat) : State :=
  match (s.ring b r).oldest with
  | none => s
  | some d =>
    match sourceOf (s.ring b r).clusterB d.bytes with
    | none => s
    | some src => if d.awaitsTrigger ∧ s.mayStart b r d ∧ ¬ s.holdsSource b src then s.endDesc b r d.count 0x12 0 255 0 else s

/-- Status, then OWN, then RING_HEAD (06 R175), at the entry's address `a` as the ring's translation gives it; an invalidation of that translation will be followed by a flush read (04 R101, R108). -/
def State.writeStatus (s : State) (b r : Nat) (d : Desc) (st : Status) (a : Nat) (translated : Bool) : State :=
  let s := s.benchWrite b (a + 0x30) ⟨false, translated⟩ (statusBytes st d.lathe)
  let s := s.benchWrite b (a + 0x3C) ⟨false, translated⟩ (leBytes 4 (tagOf d.bytes))
  let s := if translated then s.modBench b fun x => { x with posted := some (BitVec.ofNat 64 (a + 0x3C)) } else s
  s.modRing b r fun x => Ring.passEdges { x with
    head := x.head + 1, descDone := x.descDone + 1, descs := x.descs.filter fun e => e.count != d.count } d

/-- The descriptor's end for its ring: its code parks it or it goes on, its vector fires, its channel is kept or given up. -/
def State.finish (s : State) (b r : Nat) (d : Desc) (st : Status) : State :=
  let s := s.trace b r 2 d.count st.result (BitVec.ofNat 32 st.code)
  let parks := !continues st.code && st.code != 0x40 && (s.bench b).state != .sweeping
  let s := if parks then s.parkRing b r .error else s.settleRing b r
  let s := if st.code ≠ 0x40 ∧ (irqOf d.bytes ∨ parks) then s.fireVector b (vectorFor r (vectorOf d.bytes)) else s
  let s := if parks then s else (s.boundary b r).pumpRing b r
  s.settleWaits b

/-- DESCRIPTOR_COMPLETE (06 R175, R177, R185): the oldest descriptor, its outcome fixed and its writes acknowledged. -/
def execDescriptorComplete (bench ring : Nat) (s : State) : Result :=
  let s := s.refuseSource bench ring
  match (s.ring bench ring).oldest with
  | none => .next s
  | some d =>
    match d.status with
    | none => .next s
    | some st =>
      if ¬ s.mayComplete bench ring d then .next s
      else if ¬ s.mayUsePort bench then .next (s.parkHost bench ring)
      else
        let va := (s.ring bench ring).entry d.count
        match s.ringAt bench ring va true with
        | .addr a t => .next ((s.writeStatus bench ring d st a t).finish bench ring d st)
        | .miss => .next (s.askRing bench ring va true)
        | .failed => .next (s.ringUnmapped bench ring true)

end Sys2Proof.Machine
end

