-- ==== Sys2Proof/Machine/HostOps.lean ====
section
/-!
DEFINITION. Host accesses to a bench's memory: BAR2 reads and writes, the peer window with its buffer and drops, landing in a sealed stream's staging (04 R97–R99; 10 R285, R301; 12 R360–R366; 19 R536–R538).
-/

namespace Sys2Proof.Machine

/-- Read data cut into completions of at most `mps` bytes, each but the last ending on a 128-byte boundary (04 R99). -/
def splitCpl (mps : Nat) : Nat → Nat → List Byte → List (List Byte)
  | 0, _, d => [d]
  | n + 1, addr, d =>
    let k := (addr + mps) / 128 * 128 - addr
    if d.length ≤ k then [d] else d.take k :: splitCpl mps n (addr + k) (d.drop k)

/-- The bench that the completions of a function's requests are charged to; 256, none, without a bench and while its bench is swept: from the cut on it takes part at no arbiter (05 R145). -/
def State.cplPayer (s : State) (p f : Nat) : Nat := ((s.benchOf p f).filter fun b => (s.bench b).state != .sweeping).getD 256

/-- The completions of a host's request from this address join its function's queue. -/
def State.complete (s : State) (p f hid addr : Nat) (status : CplStatus) (data : List Byte) : State :=
  (splitCpl (pcieSize (s.port p).mps) data.length addr data).foldl (fun s d =>
    s.egress p f (s.cplPayer p f) d.length 0 (.completion p f hid status d)) s

/-! ### BAR2 (04 R97–R99) -/

/-- Where an access to BAR2 lies. -/
inductive Bar2Map where
  | at (die off : Nat) (counted : Bool)
  | miss
  | unmapped
  deriving DecidableEq, Repr

/-- A BAR2 offset looked up: a leaf with V, PIN, Target 0, and W for a write. -/
def State.bar2Map (s : State) (b off : Nat) (write : Bool) : Bar2Map :=
  let va := (s.bench b).bar2Base.toNat + off
  if ¬ s.classHas b BenchClass.modeD then .unmapped else
  match s.lookup b true 0 va with
  | none => .miss
  | some e =>
    if e.pin ∧ e.target = 0 ∧ (e.w ∨ ¬ write) then .at (e.frame / 2 ^ 36) (e.frame % 2 ^ 36 + va % 2 ^ e.size) e.cnt else .unmapped

/-- One in BAR2_MISS_COUNT. -/
def State.bar2Missed (s : State) (b : Nat) : State :=
  s.modBench b fun x => { x with counters := { x.counters with bar2Miss := x.counters.bar2Miss + 1 } }

/-- A read of an unmapped offset: all ones, counted (04 R98). -/
def State.bar2Ones (s : State) (b p f off length hid : Nat) : State :=
  (s.bar2Missed b).complete p f hid off .ok (List.replicate length 0xFF)

/-- A BAR2 read of a lost die completes with all ones, counted (13 Table 3). -/
def State.bar2Lost (s : State) (q : Bar2Req) : State :=
  let s := { s with bar2Reads := s.bar2Reads.filter fun r => r.id != q.id }
  match s.benchOf q.port q.fn with
  | some b => s.bar2Ones b q.port q.fn (q.spa.toNat % 4096) q.length q.hid
  | none => s.complete q.port q.fn q.hid (q.spa.toNat % 4096) .ok (List.replicate q.length 0xFF)

/-- The access counts in its region where the leaf says so (11 R330). -/
def State.bar2Count (s : State) (b off : Nat) (counted : Bool) : State :=
  let s := s.useEntry b true 0 ((s.bench b).bar2Base.toNat + off)
  if counted then s.countAccess b ((s.bench b).bar2Base.toNat + off) else s

/-- A BAR2 read forwarded to its die. -/
def State.bar2ReadAt (s : State) (b p f off length hid d o : Nat) (counted : Bool) : State :=
  let used := (s.bar2Reads.map Bar2Req.id ++ s.hubKeys).map fun k => k / 3
  let id := 3 * (lowestTag used (used.length + 1) 0).getD 0
  let q : Bar2Req := ⟨id, d, hid, p, f, length, spaOf d o⟩
  let s := { s with bar2Reads := s.bar2Reads ++ [q] }
  (s.bar2Count b off counted).askDie d (some b) false (.hubRead id o length)

/-- A write of a function sent to a die, which will acknowledge it (09 R274). -/
def State.sendPut (s : State) (p f d o : Nat) (peer : Bool) (data : List (Byte × Bool)) : State :=
  let id := s.nextPut
  let q : Bar2Put := ⟨id, d, p, f, peer⟩
  ({ s with bar2Writes := s.bar2Writes ++ [q] }).askDie d (s.benchOf p f) false (.hubWrite (some id) o data)

/-- A BAR2 write forwarded to its die. -/
def State.bar2WriteAt (s : State) (b p f off : Nat) (data : List (Byte × Bool)) (d o : Nat) (counted : Bool) : State :=
  (s.bar2Count b off counted).sendPut p f d o false data

/-- The bench serves BAR2: bound, ACTIVE or HELD, attached (05 Table 1; 12 R348). -/
def State.bar2Bench (s : State) (p f : Nat) : Option Nat := (s.benchOf p f).filter fun b => s.benchServes b

/-! ### The order of a function's accesses (09 R274–R276)

BAR2 accesses and doorbells of a function take effect in the order of arrival. A write without Relaxed Ordering, a read and a doorbell wait until every earlier BAR2 write has been acknowledged by its die; an access whose offset has to be walked keeps later ones waiting. -/

/-- The first access that waits of a function leaves the queue. -/
def State.bar2Pop (s : State) (p f : Nat) : State :=
  match s.bar2Head p f with
  | none => s
  | some w => { s with bar2Queue := s.bar2Queue.erase w }

/-- The first access that waits of a function has asked for its translation. -/
def State.bar2Walking (s : State) (p f : Nat) : State :=
  match s.bar2Head p f with
  | none => s
  | some w =>
    { s with bar2Queue := s.bar2Queue.takeWhile (fun v => v != w) ++ { w with walking := true } :: (s.bar2Queue.dropWhile fun v => v != w).drop 1 }

/-- A BAR2 read whose turn it is: forwarded to its die, walked, or all ones. Answers whether it has left the queue. -/
def State.bar2ReadTurn (s : State) (p f off length hid : Nat) : Bool × State :=
  match s.bar2Bench p f with
  | none =>
    (true, match s.benchOf p f with
      | some b => (s.bar2Pop p f).bar2Ones b p f off length hid
      | none => (s.bar2Pop p f).complete p f hid off .ok (List.replicate length 0xFF))
  | some b =>
    match s.bar2Map b off false with
    | .unmapped => (true, (s.bar2Pop p f).bar2Ones b p f off length hid)
    | .miss => (false, (s.bar2Walking p f).request b true none ((s.bench b).bar2Base.toNat + off) false (.bar2Read p f off length hid))
    | .at d o c => (true, (s.bar2Pop p f).bar2ReadAt b p f off length hid d o c)

/-- A BAR2 write whose turn it is. -/
def State.bar2WriteTurn (s : State) (p f off : Nat) (data : List (Byte × Bool)) : Bool × State :=
  match s.bar2Bench p f with
  | none =>
    (true, match s.benchOf p f with
      | some b => (s.bar2Pop p f).bar2Missed b
      | none => s.bar2Pop p f)
  | some b =>
    match s.bar2Map b off true with
    | .unmapped => (true, (s.bar2Pop p f).bar2Missed b)
    | .miss => (false, (s.bar2Walking p f).request b true none ((s.bench b).bar2Base.toNat + off) true (.bar2Write p f off data))
    | .at d o c => (true, (s.bar2Pop p f).bar2WriteAt b p f off data d o c)

/-- The first access that waits of a function, where its turn has come. Answers whether it has left the queue. -/
def State.bar2Turn (s : State) (p f : Nat) : Bool × State :=
  match s.bar2Head p f with
  | none => (false, s)
  | some w =>
    if w.walking then (false, s) else
    let wait := s.putOpen p f false
    match w.item with
    | .doorbell b r tail => if wait then (false, s) else (true, (s.bar2Pop p f).doorbellNow b r tail)
    | .read off length hid => if wait then (false, s) else s.bar2ReadTurn p f off length hid
    | .write off data relaxed => if wait && !relaxed then (false, s) else s.bar2WriteTurn p f off data

/-- A function's accesses go on in order. -/
def State.pumpBar2 (s : State) (p f : Nat) : Nat → State
  | 0 => s
  | n + 1 =>
    match s.bar2Turn p f with
    | (true, s) => s.pumpBar2 p f n
    | (false, s) => s

/-- A function's accesses go on in order, as far as they can. -/
def State.serveQueue (s : State) (p f : Nat) : State := s.pumpBar2 p f s.bar2Queue.length

/-- An access of a function arrives behind those that wait. -/
def State.arrive (s : State) (p f : Nat) (i : Bar2Item) : State :=
  let w : Bar2Wait := ⟨p, f, i, false⟩
  ({ s with bar2Queue := s.bar2Queue ++ [w] }).serveQueue p f

/-- The access of a function that was walked has been served: the next goes on. -/
def State.bar2Served (s : State) (p f : Nat) : State := (s.bar2Pop p f).serveQueue p f

/-- Every access that a walk kept waiting of a bench's function is looked at again, the bench serving none now. -/
def State.stopBar2 (s : State) (p f : Nat) : State :=
  let again : Bar2Wait → Bar2Wait := fun w => if w.port = p ∧ w.fn = f then { w with walking := false } else w
  ({ s with bar2Queue := s.bar2Queue.map again }).serveQueue p f

/-- A die has acknowledged a write of a host or a peer, or refused it, which counts at the die (09 R274; 13 R380). -/
def State.putAcked (s : State) (id : Nat) (status : MemStatus) : State :=
  match s.bar2Writes.find? fun q => q.id == id with
  | none => s
  | some q =>
    let s := if status = .writeRefused then s.modDie q.die fun x => { x with writeErr := x.writeErr + 1 } else s
    ({ s with bar2Writes := s.bar2Writes.erase q }).serveQueue q.port q.fn

/-! ### The peer window (10 R301; 12 R361–R366) -/

/-- The peer context changed. -/
def State.modPeer (s : State) (b : Nat) (f : Peer → Peer) : State := s.modBench b fun x => { x with peer := f x.peer }

/-- A PEER_DROPPED notice. -/
def State.peerNotice (s : State) (b cause off bytes : Nat) : State :=
  s.notice b 0x09 cause noRing (BitVec.ofNat 64 off) (BitVec.ofNat 32 bytes) b

/-- A peer write discarded for want of a leaf: counted, with at most one notice of its CAUSE in 100 µs (12 R362). -/
def State.peerDrop (s : State) (b cause off bytes : Nat) : State :=
  let s := s.modBench b fun x => { x with counters := { x.counters with peerDrop := x.counters.peerDrop + 1 } }
  let p := (s.bench b).peer
  let add : Option (Nat × Nat) → Option (Nat × Nat) := fun o => some (((o.map Prod.fst).getD off), ((o.map Prod.snd).getD 0) + bytes)
  if cause = 1 then
    if p.interval1 then s.modPeer b fun p => { p with dropped1 := add p.dropped1 }
    else (s.modPeer b fun p => { p with interval1 := true }).peerNotice b 1 off bytes
  else
    if p.interval2 then s.modPeer b fun p => { p with dropped2 := add p.dropped2 }
    else (s.modPeer b fun p => { p with interval2 := true }).peerNotice b 2 off bytes

/-- How R301 answers for a BAR4 offset. -/
inductive PeerLeaf where
  | at (die off : Nat) (counted : Bool)
  | miss
  | refused (cause : Nat)
  deriving DecidableEq, Repr

/-- DVA of a BAR4 offset. -/
def State.peerDva (s : State) (b off : Nat) : Nat := (s.bench b).peer.base.toNat + off

/-- A BAR4 offset looked up. -/
def State.peerLeaf (s : State) (b off : Nat) : PeerLeaf :=
  let va := s.peerDva b off
  match s.lookup b true 0 va with
  | none => .miss
  | some e =>
    if ¬ e.peer then .refused 1
    else if ¬ e.w ∨ e.target ≠ 0 then .refused 2
    else .at (e.frame / 2 ^ 36) (e.frame % 2 ^ 36 + va % 2 ^ e.size) e.cnt

/-- A BAR4 offset walked, as R301 judges the leaf. -/
def State.peerWalk (s : State) (b off : Nat) : PeerLeaf :=
  let va := s.peerDva b off
  let peer := ((s.tableOf b).leaf va).map fun e => entPeer e.2
  match s.walk b va true with
  | .leaf e =>
    if ¬ e.peer then .refused 1 else if e.target ≠ 0 then .refused 2
    else .at (e.frame / 2 ^ 36) (e.frame % 2 ^ 36 + va % 2 ^ e.size) e.cnt
  | _ => .refused (if peer = some true then 2 else 1)

/-- Bytes of a landing range. -/
def Stream.span (x : Stream) : Nat := x.slots * x.slotSize

/-- The BAR4 offset lies in the stream's landing range. -/
def Stream.covers (x : Stream) (b off : Nat) : Bool :=
  x.isOpen && x.bench == b && decide (x.window ≤ off) && decide (off < x.window + x.span)

/-- The stream of the bench whose landing range holds the offset. -/
def State.streamAt (s : State) (b off : Nat) : Option Nat := (s.streams.find? fun e => e.2.covers b off).map Prod.fst

/-- A BAR4 write of this port waits outside a full peer write buffer; the port's later posted requests wait behind it. -/
def State.peerStalled (s : State) (p : Nat) : Bool := s.hearth.withheld.any fun e => e.domain == 0 && e.source == PorchSource.host p

/-- Data bytes that arrived at a host port: PORT_BYTES_IN (20 R562). -/
def State.portIn (s : State) (p n : Nat) : State := s.countPerf (33 + 4 * p) n

/-- A counter of the bench's raised. -/
def State.count (s : State) (b : Nat) (f : BenchCounters → BenchCounters) : State := s.modBench b fun x => { x with counters := f x.counters }

/-- The Requester ID is admitted: listed, or no entry is VALID (12 R360). -/
def Peer.admits (x : Peer) (requester : Nat) : Bool :=
  !(x.rids.any fun r => r.getLsbD 16) || x.rids.any fun r => r.getLsbD 16 && decide (r.toNat % 2 ^ 16 = requester)

/-- A BAR4 write served (12 R361 Table 6, R363; 19 R547): the first row that applies; an admitted one joins the peer write buffer, and waits outside a full one. -/
def State.serveBar4Write (s : State) (p f off requester : Nat) (data : List (Byte × Bool)) (poisoned relaxed : Bool) : State :=
  match s.benchOf p f with
  | none => if poisoned then s.aer p f .poisonedTlp else s
  | some b =>
    let x := s.bench b
    let drop := s.count b fun c => { c with peerDrop := c.peerDrop + 1 }
    if ¬ s.classHas b BenchClass.peerAllowed then drop
    else if ¬ x.peer.enable ∨ ¬ s.benchServes b then drop
    else if ¬ x.peer.admits requester then s.count b fun c => { c with peerRid := c.peerRid + 1 }
    else if poisoned then (s.count b fun c => { c with peerPoison := c.peerPoison + 1 }).aer p f .poisonedTlp
    else if (((s.streamAt b off).map fun i => (s.stream i).closing.isSome).getD false) then drop
    else
      let fill := fun (s : State) => (s.modPeer b fun q => { q with buffered := q.buffered ++ [(off, data, relaxed)] }).modPort p fun q => { q with peerBytes := q.peerBytes + data.length }
      if (s.port p).peerBytes + data.length ≤ 128 * 1024 ∧ ¬ s.peerStalled p then fill s
      else { s with hearth := { s.hearth with withheld := s.hearth.withheld ++ [⟨.host p, 0, 0, .bar4Write p f off requester data poisoned relaxed⟩] } }

/-- Writes that waited outside the peer write buffer of a port enter it in order as far as it has room (12 R363). -/
def State.admitPeer (s : State) (p : Nat) : List PorchEntry → State
  | [] => s
  | e :: r =>
    if e.domain ≠ 0 ∨ e.source ≠ PorchSource.host p then s.admitPeer p r else
    match e.request with
    | .bar4Write _ f off requester data poisoned relaxed =>
      if 128 * 1024 < (s.port p).peerBytes + data.length then s
      else
        let held := s.hearth.withheld
        let s := ({ s with hearth := { s.hearth with withheld := [] } }).serveBar4Write p f off requester data poisoned relaxed
        ({ s with hearth := { s.hearth with withheld := held.erase e } }).admitPeer p r
    | _ => s.admitPeer p r

/-- The oldest buffered write leaves the buffer. -/
def State.popPeer (s : State) (b : Nat) : State :=
  match (s.bench b).peer.buffered with
  | [] => s
  | (_, d, _) :: r =>
    let p := (s.bench b).port
    let s := (s.modPeer b fun p => { p with buffered := r }).modPort p fun q => { q with peerBytes := q.peerBytes - d.length }
    let s := s.admitPeer p s.hearth.withheld
    s.admitWithheld s.hearth.withheld []

/-! ### Landing in a sealed stream (19 R536–R538) -/

/-- A slot is captured. -/
def Stream.holdsSlot (x : Stream) (slot : Nat) : Bool := x.captured.any fun f => f.slot == slot

/-- Enabled bytes written to staging from an offset of the landing range on. -/
def stage (t : Tab Byte) (o : Nat) : List (Byte × Bool) → Tab Byte
  | [] => t
  | (v, be) :: r => stage (if be then tabSet o v t else t) (o + 1) r

/-- The bytes of a slot in staging; bytes not written read 0. -/
def slotBytes (t : Tab Byte) (o : Nat) : Nat → List Byte
  | 0 => []
  | n + 1 => tabGet t 0 o :: slotBytes t (o + 1) n

/-- A write to the landing range lands in staging; one that covers the last byte of its slot brings the trailer, and the slot is captured with its arrival time (19 R536–R538). -/
def Stream.land (x : Stream) (now : BitVec 64) (off : Nat) (data : List (Byte × Bool)) : Stream :=
  let o := off - x.window
  let slot := o / x.slotSize
  let base := slot * x.slotSize
  let t := stage x.staging o data
  if o + data.length ≠ base + x.slotSize ∨ ¬ ((data.getLast?.map Prod.snd).getD false) then { x with staging := t }
  else
    let bytes := slotBytes t base x.slotSize
    let ns := now.toNat * 1000
    let bytes := if x.hubStamp then splice bytes (x.slotSize - 32 + 8) (leBytes 8 (ns / 40 * 40)) else bytes
    { x with staging := t, captured := x.captured ++ [⟨slot, bytes, ns, none, [], (0, 0), none⟩] }

/-- The stream's oldest captured frame changed. -/
def State.modFrame (s : State) (i : Nat) (f : Frame → Frame) : State :=
  s.modStream i fun x =>
    match x.captured with
    | [] => x
    | e :: r => { x with captured := f e :: r }

/-- The trailer of a frame being forwarded is written once every payload write is acknowledged (19 R540). -/
def State.sendTrailer (s : State) (i : Nat) : State :=
  match (s.stream i).captured with
  | [] => s
  | f :: _ =>
    if f.outcome.isNone ∨ ¬ f.payload.isEmpty ∨ f.trailer.isSome then s else
    let id := s.nextPut
    let y := (f.bytes.drop (f.bytes.length - 32)).map fun v => (v, true)
    (s.askDie f.target.1 (some (s.stream i).bench) false (.hubWrite (some id) f.target.2 y)).modFrame i fun f => { f with trailer := some id }

/-- The number is that of a trailer's write, whose acknowledgement is the frame event. -/
def State.isTrailer (s : State) (id : Nat) : Bool := s.streams.any fun e => (e.2.captured.head?.map fun f => f.trailer == some id).getD false

/-- A write of a frame's payload is acknowledged (19 R540). -/
def State.frameAcked (s : State) (id : Nat) : State :=
  match s.streams.find? fun e => (e.2.captured.head?.map fun f => f.payload.contains id).getD false with
  | none => s
  | some (i, _) => (s.modFrame i fun f => { f with payload := f.payload.erase id }).sendTrailer i

/-- A write of a placement's step 7 is acknowledged (14 R400). -/
def State.loadAcked (s : State) (id : Nat) : State :=
  { s with launches := s.launches.map fun l => { l with loads := l.loads.erase id } }

/-- The oldest buffered BAR4 write meets its leaf (12 R361, R363): applied to the die or to a stream's staging, discarded with a notice, or left waiting for a walk, for a captured slot, or, without Relaxed Ordering, for the acknowledgement of the function's earlier ones (09 R274). -/
def State.applyPeer (s : State) (b : Nat) (leaf : PeerLeaf) : State :=
  match (s.bench b).peer.buffered with
  | [] => s
  | (off, data, relaxed) :: _ =>
    match leaf with
    | .miss => s.request b true none (s.peerDva b off) true .bar4
    | .refused cause => (s.popPeer b).peerDrop b cause off data.length
    | .at d o c =>
      match s.streamAt b off with
      | some i =>
        let x := s.stream i
        if x.closing.isSome then
          (s.popPeer b).modBench b fun y => { y with counters := { y.counters with peerDrop := y.counters.peerDrop + 1 } }
        else if x.holdsSlot ((off - x.window) / x.slotSize) then s
        else
          let s := ((s.useEntry b true 0 (s.peerDva b off)).popPeer b).modStream i fun x => x.land s.now off data
          if c then s.countAccess b (s.peerDva b off) else s
      | none =>
        let p := (s.bench b).port
        let f := (s.bench b).fn
        if s.putOpen p f true ∧ ¬ relaxed then s else
        let s := ((s.useEntry b true 0 (s.peerDva b off)).popPeer b).sendPut p f d o true data
        if c then s.countAccess b (s.peerDva b off) else s

end Sys2Proof.Machine
end

