-- ==== Sys2Proof/Machine/InvOps.lean ====
section
/-!
DEFINITION. The Headstock at work: serving what waits on a walk or a translation, the Mode D table's changes, the invalidation ring, requests in flight under removed translations (04 R108, R109; 10 R283–R310; 11 R322–R328).
-/

namespace Sys2Proof.Machine

/-! ### Serving a walk (10 R284, R285, R293; 11 R326) -/

/-- A write waits. -/
def State.waiterWrites (s : State) : Waiter → Bool
  | .lathe _ _ _ _ w => w
  | .bar2Write _ _ _ _ => true
  | .bar4 => true
  | .ringEntry _ w => w
  | .retry i => ((s.fault i).map FaultRec.write).getD false
  | _ => false

/-- A lathe operand meets the end of its walk. -/
def State.serveLathe (s : State) (b r : Nat) (c : BitVec 32) (operand addr : Nat) (write : Bool) (e : WalkEnd) : State :=
  match s.desc b r c with
  | none => s
  | some d =>
    if d.phase ≠ .started ∨ d.status.isSome then s else
    match e with
    | .leaf _ => s
    | .fault kind => s.raiseFault b r c operand kind 0 (s.burstFirst b d operand addr) addr write
    | .fatal detail => (s.endDesc b r c 0x10 detail operand (BitVec.ofNat 64 addr)).advance b r c
    | .permission => (s.endDesc b r c 0x12 0 operand (BitVec.ofNat 64 addr)).advance b r c

/-- A retried Mode D fault meets the end of its walk (11 R326). -/
def State.serveRetry (s : State) (i : Nat) (e : WalkEnd) : State :=
  match s.fault i with
  | none => s
  | some f =>
    if f.state ≠ .retrying then s else
    match e with
    | .leaf _ => s.faultUsable i
    | .fault _ => s.setFault i (some { f with state := .posted })
    | .fatal detail => s.faultEnds i 0x10 detail
    | .permission => s.faultEnds i 0x12 0

/-- A host access to BAR2 meets the end of its walk: a pinned leaf of Target 0 serves it, anything else leaves it unmapped; the function's next access goes on. -/
def State.serveBar2 (s : State) (b : Nat) (va : Nat) (e : WalkEnd) (w : Waiter) : State :=
  match e, w with
  | .leaf x, .bar2Read p f off length hid =>
    (if x.pin ∧ x.target = 0 then s.bar2ReadAt b p f off length hid (x.frame / 2 ^ 36) (x.frame % 2 ^ 36 + va % 2 ^ x.size) x.cnt
     else s.bar2Ones b p f off length hid).bar2Served p f
  | _, .bar2Read p f off length hid => (s.bar2Ones b p f off length hid).bar2Served p f
  | .leaf x, .bar2Write p f off data =>
    (if x.pin ∧ x.target = 0 then s.bar2WriteAt b p f off data (x.frame / 2 ^ 36) (x.frame % 2 ^ 36 + va % 2 ^ x.size) x.cnt
     else s.bar2Missed b).bar2Served p f
  | _, .bar2Write p f _ _ => (s.bar2Missed b).bar2Served p f
  | _, _ => s

/-- The end of a walk for an address; a ledger error reads as a malformed entry (17 R510). -/
def State.walkEnd (s : State) (b va : Nat) (write ue : Bool) : WalkEnd := if ue then .fatal 3 else s.walk b va write

/-- One request that waited on a walk of a page is served. -/
def State.serveWalk (s : State) (b page : Nat) (ue : Bool) (w : Waiter) : State :=
  match w with
  | .lathe r c operand addr write => s.serveLathe b r c operand addr write (s.walkEnd b addr write ue)
  | .bar2Read _ _ off _ _ =>
    let va := (s.bench b).bar2Base.toNat + off
    s.serveBar2 b va (s.walkEnd b va false ue) w
  | .bar2Write _ _ off _ =>
    let va := (s.bench b).bar2Base.toNat + off
    s.serveBar2 b va (s.walkEnd b va true ue) w
  | .bar4 =>
    match (s.bench b).peer.buffered with
    | [] => s
    | (off, _, _) :: _ => if s.peerDva b off / 4096 = page then s.applyPeer b (if ue then .refused 1 else s.peerWalk b off) else s
  | .prefetchDesc r c =>
    let ok := match s.walkEnd b (page * 4096) false ue with
      | .leaf _ => true
      | _ => false
    s.prefetchTried b r c ok
  | .retry i => s.serveRetry i (s.walkEnd b (((s.fault i).map fun f => f.va.toNat).getD 0) (s.waiterWrites w) ue)
  | .prefetch => s
  | .pinLoad _ => s
  | .ringAddr _ => s
  | .ringEntry _ _ => s

/-- The same request asks again (10 R288, R307). -/
def State.askAgain (s : State) (m : Miss) (w : Waiter) : State :=
  let va := match w with
    | .lathe _ _ _ addr _ => addr
    | _ => m.page * 4096
  s.request m.bench m.modeD m.pasid va (s.waiterWrites w) w

/-- The leaf of a walk is installed where some request on the page could use it. -/
def State.installWalk (s : State) (m : Miss) (va : Nat) : State :=
  match s.walk m.bench va false with
  | .leaf e =>
    if e.w ∨ m.waiters.isEmpty ∨ m.waiters.any (fun w => !s.waiterWrites w) then
      let s := if m.prefetchOnly then s.countPerf 131 1 else s
      s.install e m.prefetchOnly
    else s
  | _ => s

/-! ### Translations of Mode S (10 R286–R289; 11 R323) -/

/-- log2 of the entry that a completion gives: the largest page size within the returned range. -/
def atsSize (size : Nat) : Nat := if 30 ≤ size then 30 else if 21 ≤ size then 21 else if 16 ≤ size then 16 else 12

/-- The entry that a Translation Completion gives for a page. -/
def atsEntry (b pasid page size addr : Nat) (w : Bool) : CacheEntry :=
  let z := atsSize size
  let va := page * 4096
  ⟨0, b, false, pasid, z, va / 2 ^ z, 1, addr + (va % 2 ^ size / 2 ^ z) * 2 ^ z, w, false, false, false⟩

/-- A retried Mode S fault meets its Translation Completion (11 R323): a fourth Success without permission is fatal, and so is a fault while PRI shows Response Failure (04 Table 7). -/
def State.serveRetryS (s : State) (i : Nat) (granted : Bool) : State :=
  match s.fault i with
  | none => s
  | some f =>
    if f.state ≠ .retrying then s
    else if granted then s.faultUsable i
    else if 4 ≤ f.successes then s.faultEnds i 0x10 6
    else if (s.fnAt (s.bench f.bench).port (s.bench f.bench).fn).priFailure then s.faultEnds i 0x10 5
    else (s.setFault i (some { f with state := .posted, retries := if f.retries = 0xFFFF then f.retries else f.retries + 1 })).sendPri i

/-- One request that waited on a translation is served: `granted` says whether the page admits a read, a write. -/
def State.serveAts (s : State) (m : Miss) (granted : Bool → Bool) (w : Waiter) : State :=
  let b := m.bench
  match w with
  | .lathe r c operand addr write =>
    match s.desc b r c with
    | none => s
    | some d =>
      if d.phase ≠ .started ∨ d.status.isSome ∨ granted write then s
      else if (s.fnAt (s.bench b).port (s.bench b).fn).priFailure then
        (s.endDesc b r c 0x10 5 operand (BitVec.ofNat 64 addr)).advance b r c
      else s.raiseFault b r c operand 3 (pasidOf d.bytes) (s.burstFirst b d operand addr) addr write
  | .prefetchDesc r c => s.prefetchTried b r c (granted false)
  | .retry i => s.serveRetryS i (granted (s.waiterWrites w))
  | .ringAddr r =>
    if (s.ring b r).knock ≠ .acquiring then s
    else if granted false then
      match s.ringHost b r (s.ring b r).knockAddr.toNat with
      | some a => s.readKnock b r a
      | none => s
    else s.modRing b r fun x => { x with knock := .refused }
  | .ringEntry r write => if granted write then s else s.ringUnmapped b r write
  | _ => s

/-- One request whose Translation Request failed (10 R289; 04 R107). -/
def State.failAts (s : State) (m : Miss) (w : Waiter) : State :=
  let b := m.bench
  match w with
  | .lathe r c operand addr write => s.serveLathe b r c operand addr write (.fatal 4)
  | .prefetchDesc r c => s.prefetchTried b r c false
  | .retry i => s.faultEnds i 0x10 4
  | .ringAddr r => if (s.ring b r).knock = .acquiring then s.modRing b r fun x => { x with knock := .refused } else s
  | .ringEntry r write => s.ringUnmapped b r write
  | _ => s

/-- The requests of a miss whose function may not issue now: rings park, faults stay posted. -/
def State.portLost (s : State) (m : Miss) : State :=
  m.waiters.foldl (fun s w =>
    match w with
    | .lathe r _ _ _ _ => s.parkHost m.bench r
    | .prefetchDesc r _ => s.parkHost m.bench r
    | .retry i =>
      match s.fault i with
      | some f => s.setFault i (some { f with state := .posted })
      | none => s
    | _ => s) (s.endMiss m)

/-- A Mode S miss that holds a slot sends its Translation Request, which waits at the port for a tag. -/
def State.sendAts (s : State) (m : Miss) : State :=
  let x := s.bench m.bench
  if ¬ s.mayUsePort m.bench then s.portLost m else
    let s := { s with headstock := { s.headstock with
      misses := s.headstock.misses.map fun n => if n = m then { m with stage := .ats x.port } else n } }
    (s.countPerf 132 1).egressRead m.bench (.ats m.id) (.atsRequest x.port (s.reqFn m.bench) 0 m.pasid (m.page * 4096) m.write)

/-- The Headstock request that a Translation Request serves. -/
def State.missOf (s : State) (id : Nat) : Option Miss := s.headstock.misses.find? fun m => m.id == id

/-- Every Mode S miss with a slot that has not sent its request does. -/
def State.pumpAts (s : State) : State :=
  (s.headstock.misses.filter fun m => !m.modeD && m.stage == .slotted).foldl State.sendAts s

/-! ### Requests in flight under what is removed (04 R108; 10 R306) -/

/-- A lathe's outstanding slots that satisfy `p`. -/
def State.slotsWhere (s : State) (p : SlotUse → Bool) : List InFlight :=
  s.lathes.flatMap fun e =>
    ((e.2.reads.filter p).map fun u => InFlight.slot e.1 false u.slot) ++ ((e.2.writes.filter p).map fun u => InFlight.slot e.1 true u.slot)

/-- Operand i of the descriptor, under this selector, touches `[base, base + len)`. -/
def Desc.touches (d : Desc) (sel base len : Nat) : Bool :=
  (List.range 2).any fun i => selOf d.bytes i == sel && decide (addrOf d.bytes i < base + len) && decide (base < addrOf d.bytes i + extentOf d.bytes i)

/-- Bursts of a bench that were translated under a range. -/
def State.burstsWhere (s : State) (b : Nat) (p : Desc → Bool) : List InFlight :=
  (s.bench b).rings.flatMap fun e => (e.2.descs.filter p).flatMap fun d => d.bursts.map fun u => InFlight.burst e.1 d.count u.start

/-- The request is still in flight. -/
def State.inFlight (s : State) (b : Nat) : InFlight → Bool
  | .slot _ _ _ => true
  | .burst r c start => ((s.desc b r c).map fun d => d.bursts.any fun u => u.start == start).getD false
  | .core d id => (s.die d).xlt.any fun q => q.id == id
  | .bar2 id => s.bar2Reads.any fun q => q.id == id
  | .put id => s.bar2Writes.any fun q => q.id == id

/-- What is in flight of a bench under Mode D translations of `[base, base + len)`. -/
def State.underModeD (s : State) (b base len : Nat) : List InFlight :=
  let hit : SlotUse → Bool := fun u => u.bench == b && u.modeD && decide (u.va < base + len) && decide (base < u.va + u.len)
  let x := s.bench b
  s.slotsWhere hit ++ s.burstsWhere b (fun d => d.touches 2 base len) ++
  s.spindles.flatMap (fun e => (e.2.xlt.filter fun q => q.bench == b).map fun q => InFlight.core e.1 q.id) ++
  if 256 ≤ b then [] else
  ((s.bar2Reads.filter fun q => q.port == x.port && q.fn == x.fn).map fun q => InFlight.bar2 q.id) ++
  (s.bar2Writes.filter fun q => q.port == x.port && q.fn == x.fn).map fun q => InFlight.put q.id

/-- What is in flight of a bench under Mode S translations of `[base, base + len)`. -/
def State.underModeS (s : State) (b base len : Nat) (pasid : Option Nat) : List InFlight :=
  let mine : Nat → BitVec 32 → Bool := fun r c => ((s.desc b r c).map fun d => pasid.isNone || pasid == some (pasidOf d.bytes)).getD true
  let hit : SlotUse → Bool := fun u =>
    u.bench == b && !u.modeD && u.die.isNone && decide (u.va < base + len) && decide (base < u.va + u.len) && mine u.ring u.desc
  s.slotsWhere hit ++ s.burstsWhere b fun d => d.touches 1 base len && (pasid.isNone || pasid == some (pasidOf d.bytes))

/-! ### Changing a Mode D table (10 R304) -/

/-- The page `id` of a level and every page below it. -/
def ModeD.under (t : ModeD) : Nat → Nat → List Nat
  | 0, _ => []
  | n + 1, id =>
    match t.page (n + 1) id with
    | none => []
    | some p => id :: p.entries.flatMap fun e => if leadsOn (n + 1) e.2.toNat then t.under n (entFrame e.2.toNat) else []

/-- The subtree that an entry of a level holds. -/
def ModeD.subtree (t : ModeD) (level e : Nat) : List Nat := if leadsOn level e then t.under (level - 1) (entFrame e) else []

/-- An entry of a level on the path of a DVA written. -/
def ModeD.put (t : ModeD) (level dva : Nat) (v : BitVec 64) : ModeD :=
  match t.pathPage level dva with
  | none => t
  | some id => { t with pages := t.pages.map fun p =>
      if p.id = id ∧ p.level = level then { p with entries := tabPut 0 (dva / 2 ^ levelShift level % 512) v p.entries } else p }

/-- A page number that no page of the table has. -/
def ModeD.newId (t : ModeD) : Nat := (t.pages.map TablePage.id).foldl max 0 + 1

/-- The path above a level is present: each entry valid and not a leaf. -/
def ModeD.pathTo (t : ModeD) (level dva : Nat) : Bool := (t.pathPage level dva).isSome

/-- The table copy of a bench or guest changed. -/
def State.modTable (s : State) (b : Nat) (f : ModeD → ModeD) : State :=
  if b < 256 then s.modBench b fun x => { x with modeD := f x.modeD }
  else s.setGuest (b - 256) ((s.guest (b - 256)).map fun g => { g with modeD := f g.modeD })

/-- A table with one entry of a level set (10 R304): the subtree that the old entry held is removed, and a valid non-leaf entry gets a zeroed page. -/
def ModeD.setAt (t : ModeD) (level dva v : Nat) : ModeD :=
  let gone := t.subtree level (t.entry level dva)
  if nonLeafAt level v ∧ entV v then
    { t.put level dva (BitVec.ofNat 64 (v + t.newId * 2 ^ 12)) with
      pages := ⟨t.newId, level - 1, []⟩ :: (t.put level dva (BitVec.ofNat 64 (v + t.newId * 2 ^ 12))).pages, limbo := t.limbo ++ gone }
  else { t.put level dva (BitVec.ofNat 64 v) with limbo := t.limbo ++ gone }

/-- SET_ENTRY applied to a table copy: an entry written, its former subtree waiting for the next TOKEN, a new table page taken (10 R304). Answers 0, or the code that stops the ring: 1 BAD_ENTRY, 2 NO_LEDGER. -/
def State.setEntry (s : State) (b level dva v : Nat) : Nat × State :=
  let grows := decide (nonLeafAt level v ∧ entV v)
  if ¬ (s.tableOf b).pathTo level dva ∨ (nonLeafAt level v ∧ entFrame v ≠ 0) then (1, s)
  else if grows ∧ Config.tablePages ≤ s.headstock.tablePages then (2, s)
  else
    let s := s.modTable b fun t => t.setAt level dva v
    (0, { s with headstock := { s.headstock with tablePages := s.headstock.tablePages + grows.toNat } })

/-- The pages of removed subtrees return to the pool, and the walk cache gives up every entry that names one (10 R304). -/
def State.returnPages (s : State) (b : Nat) : State :=
  let gone := (s.tableOf b).limbo
  let s := { s with headstock := { s.headstock with
    tablePages := s.headstock.tablePages - gone.length
    walkCache := s.headstock.walkCache.filter fun e => !(e.bench == b && gone.contains (entFrame e.entry.toNat)) } }
  s.modTable b fun t => { t with pages := t.pages.filter (fun p => !gone.contains p.id), limbo := [] }

/-- The leaves below page `id` of a level: DVA, level, entry. `base` is the page's index among those of its level. -/
def ModeD.leavesUnder (t : ModeD) : Nat → Nat → Nat → List (Nat × Nat × Nat)
  | 0, _, _ => []
  | n + 1, id, base =>
    match t.page (n + 1) id with
    | none => []
    | some p => p.entries.flatMap fun e =>
        let v := e.2.toNat
        if ¬ entV v then []
        else if nonLeafAt (n + 1) v then t.leavesUnder n (entFrame v) (base * 512 + e.1)
        else [((base * 512 + e.1) * 2 ^ levelShift (n + 1), n + 1, v)]

/-- The leaves of a table that satisfy `p` in `[base, base + len)`: DVA and log2 of the page size. -/
def ModeD.leavesIn (t : ModeD) (base len : Nat) (p : Nat → Bool) : List (Nat × Nat) :=
  ((t.root.map fun r => t.leavesUnder 4 r 0).getD []).filterMap fun e =>
    if p e.2.2 && decide (e.1 < base + len) && decide (base < e.1 + 2 ^ levelShift e.2.1) then some (e.1, leafSize e.2.1 e.2.2) else none

/-- Pins are walked and installed: DVA and log2 of the page size of each (10 R298). -/
def State.loadPins (s : State) (b : Nat) (l : List (Nat × Nat)) : State :=
  l.foldl (fun s e => s.request b true none e.1 false (.pinLoad e.2)) s

/-- Every pinned leaf of a range is walked and installed (10 R304, R298). -/
def State.pinRange (s : State) (b base len : Nat) : State := s.loadPins b ((s.tableOf b).leavesIn base len entPin)

/-- Requests in flight under what was removed hold the bench's next TOKEN (10 R306). -/
def State.addBarrier (s : State) (b : Nat) (l : List InFlight) : State :=
  if b < 256 then s.modBench b fun x => { x with invRing := { x.invRing with barrier := x.invRing.barrier ++ l } } else s

/-- A walk-cache entry covers some part of `[base, base + len)`. -/
def WalkEntry.overlaps (e : WalkEntry) (base len : Nat) : Bool :=
  decide (e.index * 2 ^ levelShift e.level < base + len) && decide (base < (e.index + 1) * 2 ^ levelShift e.level)

/-- A walk of the bench on a page of the range is under way: what it finds is not installed (10 R307). -/
def Miss.walksIn (m : Miss) (b base len : Nat) : Bool :=
  m.bench == b && m.modeD && m.stage == .walking && decide (base < (m.page + 1) * 4096) && decide (m.page * 4096 < base + len)

/-- INVALIDATE applied on one hub (10 R304, R307): every cached entry and walk-cache entry on the range leaves, walks under way there are not installed, and every pin removed is walked again. -/
def State.invalidateRange (s : State) (b base len : Nat) : State :=
  let n := if len = 0 then 2 ^ 48 else len
  let hit : CacheEntry → Bool := fun e => e.bench == b && e.modeD && e.overlaps base n
  let pins := (s.headstock.pins.filter hit).map fun e => (e.vpn * 2 ^ e.size, e.size)
  let flight := s.underModeD b base n
  let s := s.dropEntries hit
  let s := { s with headstock := { s.headstock with
    walkCache := s.headstock.walkCache.filter fun e => !(e.bench == b && e.overlaps base n)
    misses := s.headstock.misses.map fun (m : Miss) => if m.walksIn b base n then { m with stale := true } else m } }
  (s.addBarrier b flight).loadPins b pins

/-- Nothing is left of an entry that a guest's copy applied: what was issued under what it removed has finished, and its pins are loaded (10 R306, R308). -/
def State.guestSettled (s : State) (g : Nat) (l : List InFlight) : Bool :=
  !(l.any (s.inFlight (256 + g))) && !(s.headstock.misses.any fun m => m.bench == 256 + g && m.waiters.any fun w =>
    match w with
    | .pinLoad _ => true
    | _ => false)

/-- Holders acknowledge the forwarded entries that they have applied (10 R308). -/
def State.pumpInvAcks (s : State) : State :=
  s.cascade.guests.foldl (fun s e =>
    match s.guest e.1 with
    | none => s
    | some g =>
      let done := g.unanswered.filter fun q => s.guestSettled e.1 q.2
      done.foldl (fun s q => s.sendHub g.home (.xlateInvAck g.bench q.1))
        (s.setGuest e.1 (some { g with unanswered := g.unanswered.filter fun q => !s.guestSettled e.1 q.2 }))) s

/-! ### Requests that a spindle port never sends (13 R378) -/

/-- A write of a lathe is never sent: its slot is free, and its burst waits for it no longer. -/
def State.unwrite (s : State) (l n : Nat) : State :=
  match (s.lathe l).writes.find? fun u => u.slot == n with
  | none => s
  | some u =>
    ((s.modLathe l fun x => { x with writes := x.writes.filter fun v => v.slot != n }).slotFreed l true n).modDesc u.bench u.ring u.desc fun d =>
      { d with bursts := d.bursts.map fun x => if x.lathe = l then { x with acks := x.acks.erase n } else x }

/-- A request that waited at a spindle port ends unsent: what held it is free; a core request is answered REFUSED, a BAR2 read with all ones. -/
def State.unask (s : State) (q : PortReq) : State :=
  match q.msg with
  | .read l n _ _ => (s.modLathe l fun x => { x with reads := x.reads.filter fun u => u.slot != n }).slotFreed l false n
  | .write l n _ _ => s.unwrite l n
  | .writeMasked l n _ _ => s.unwrite l n
  | .hubRead id _ _ =>
    match s.bar2Reads.find? fun r => r.id == id with
    | some r => s.bar2Lost r
    | none => { s with remotes := s.remotes.filter fun r => r.key != id }
  | .hubWrite id _ _ => { s with bar2Writes := s.bar2Writes.filter fun w => some w.id != id }
  | .xltForward id _ _ _ _ =>
    if id % 3 = 1 then
      let d := (id - 1) / 3 % 8
      (s.modDie d fun x => { x with xlt := x.xlt.filter fun r => r.id != (id - 1) / 24 }).sendDie d (.xltAnswer ((id - 1) / 24) true false [])
    else { s with remotes := s.remotes.filter fun r => r.key != id }
  | _ => s

/-- At a cut, requests of the bench or guest that wait at spindle ports are never sent. -/
def State.dropAsked (s : State) (o : Nat) : State :=
  let gone := s.spindles.flatMap fun e => e.2.queue.filter fun q => q.bench == some o
  let f : Spindle → Spindle := fun x => { x with queue := x.queue.filter fun q => q.bench != some o }
  gone.foldl State.unask { s with spindles := s.spindles.map fun e => (e.1, f e.2) }

/-! ### Faults retried (11 R322, R326, R327) -/

/-- A posted fault is retried: a walk, or a new Translation Request. -/
def State.retryFault (s : State) (i : Nat) : State :=
  match s.fault i with
  | none => s
  | some f =>
    if f.state = .retrying then s else
    let drop : PageRequest → PageRequest := fun q => if q.fault = some i then { q with fault := none } else q
    let s := { s with headstock := { s.headstock with pageReqs := s.headstock.pageReqs.map drop } }
    let s := s.setFault i (some { f with state := .retrying, retries := if ¬ f.modeD ∨ f.retries = 0xFFFF then f.retries else f.retries + 1 })
    s.request f.bench f.modeD (if f.modeD then none else some f.pasid) f.va.toNat f.write (.retry i)

/-- Every posted Mode D fault of the bench that satisfies `p` is retried. -/
def State.retryFaults (s : State) (b : Nat) (p : FaultRec → Bool) : State :=
  (s.headstock.faults.filter fun e => (e.2.map fun f => f.bench == b && f.modeD && f.state == .posted && p f).getD false).foldl
    (fun s e => s.retryFault e.1) s

/-! ### The invalidation ring (10 R302–R308) -/

/-- The ring changed. -/
def State.modInv (s : State) (b : Nat) (f : InvRing → InvRing) : State := s.modBench b fun x => { x with invRing := f x.invRing }

/-- Hubs other than this one that hold a bench of this hub: those of its roster entry that are not lost (10 R308; 16 R481). -/
def State.holdersOf (s : State) (b : Nat) : List Nat :=
  match s.cascade.charter.bind fun c => c.roster.find? fun e => e.home == s.hubId && e.bench == b with
  | none => []
  | some e => (List.range 32).filter fun h => e.holders.getLsbD h && h != s.hubId

/-- The ring stops at the entry that cannot be applied (10 R305). -/
def State.invStop (s : State) (b : Nat) (code : BitVec 4) : State :=
  s.modInv b fun x => { x with stopped := true, code := code, index := x.head.setWidth 16 }

/-- The migration under way holds the leaf of this range between its steps (11 R343). -/
def State.migHolds (s : State) (b base len : Nat) : Bool :=
  s.mig.stage != .idle && b == field s.mig.arg 0 1 && decide (base < s.mig.leaf + 2 ^ s.mig.leafSize) &&
    (len == 0 || decide (s.mig.leaf < base + len))

/-- The ring reads its next entry: enabled, not stopped, published, no TOKEN before it waiting, and the management function may issue a read. -/
def State.invReads (s : State) (b : Nat) : Bool :=
  let x := (s.bench b).invRing
  s.running && x.enable && !x.stopped && x.head != x.tail && x.token.isNone && ((s.bench b).state == .active || (s.bench b).state == .held) &&
    s.fnMayIssue s.mgmtFn.1 0 && (s.port s.mgmtFn.1).tagFree

/-- The entry at INV_HEAD is read from host memory, under the PF of the management function's port (10 R302, R303). -/
def State.readInv (s : State) (b : Nat) : State :=
  let x := (s.bench b).invRing
  s.readFrom s.mgmtFn.1 0 plainAttr 2 (x.base.toNat + 32 * (x.head.toNat % 2 ^ x.log2.toNat)) 32

/-- The entry has been applied: INV_HEAD passes it. -/
def State.invNext (s : State) (b : Nat) : State := s.modInv b fun x => { x with head := x.head + 1 }

/-- An entry forwarded to a holder, which will acknowledge it (10 R308). -/
def State.invForward (s : State) (b : Nat) (entry : List Byte) (h : Nat) : State :=
  let c := (s.bench b).invRing.head
  (s.modInv b fun x => { x with unacked := x.unacked ++ [(h, c)] }).sendHub h (.xlateInv b (s.bench b).incarn entry c)

/-- Reserved bytes of a range are zero. -/
def zeroBytes (e : List Byte) (o n : Nat) : Bool := (slice e o n).all fun v => v == 0

/-- The DVA of an entry is aligned and inside the table. -/
def invDvaOk (e : List Byte) : Bool := field e 0x08 8 % 4096 == 0 && decide (field e 0x08 8 < 2 ^ 48)

end Sys2Proof.Machine
end

