-- ==== Sys2Proof/Machine/PlaceOps.lean ====
section
/-!
DEFINITION. Blanks and placements: the checks of a blank, ranges, free cores, bands, loading a core, freezing, releasing, hold and release across hubs (14 R394–R419; 13 R377).
-/

namespace Sys2Proof.Machine

/-! ### Structures read for an engine (07 R194; 14 R400; 15 R429) -/

/-- The first obstacle in an operand's run of `n` bytes, page by page: its offset and what is met. -/
def State.scanOp (s : State) (b : Nat) (o : Operand) : Nat → Nat → Nat → Option (Nat × Xl)
  | 0, _, _ => none
  | fuel + 1, off, n =>
    if n = 0 then none else
    let k := min n (4096 - (o.base + off) % 4096)
    let far := (o.sel = 2 ∧ 2 ^ 48 < o.base + off + k) ∨ (o.sel = 1 ∧ 2 ^ 64 < o.base + off + k)
    match (if far then Xl.stop 0x10 1 else s.xlOp b o off) with
    | .ok _ => s.scanOp b o fuel (off + k) (n - k)
    | x => some (off, x)

/-- The first obstacle in the whole of a structure. -/
def State.scanAll (s : State) (b : Nat) (o : Operand) (n : Nat) : Option (Nat × Xl) := s.scanOp b o (n / 4096 + 2) 0 n

/-- The bytes of a structure: what the read returned, or for a billet the hub's own memory. -/
def State.opBytes (s : State) (b : Nat) (o : Operand) (given : List Byte) : Nat → Nat → Nat → List Byte
  | 0, _, _ => []
  | fuel + 1, off, n =>
    if n = 0 then [] else
    let k := min n (4096 - (o.base + off) % 4096)
    (match s.xlOp b o off with
     | .ok (.billet key) => memReads s.billetMem key k
     | _ => slice given off k) ++ s.opBytes b o given fuel (off + k) (n - k)

/-- The bytes of the whole of a structure. -/
def State.allBytes (s : State) (b : Nat) (o : Operand) (given : List Byte) (n : Nat) : List Byte :=
  s.opBytes b o given (n / 4096 + 2) 0 n

/-- The first block of a structure's billet bytes that the scrub has marked, by its offset in ledger memory. -/
def State.opMark (s : State) (b : Nat) (o : Operand) : Nat → Nat → Nat → Option Nat
  | 0, _, _ => none
  | fuel + 1, off, n =>
    if n = 0 then none else
    let k := min n (4096 - (o.base + off) % 4096)
    match s.xlOp b o off with
    | .ok (.billet key) => (s.recovery.markIn (ledgerOff key) k).or (s.opMark b o fuel (off + k) (n - k))
    | _ => s.opMark b o fuel (off + k) (n - k)

/-- What the reads of a structure gave: LEDGER_ECC where a block of it in a billet is marked (17 R510; 18 R518). -/
def State.loaded (s : State) (b : Nat) (o : Operand) (n : Nat) (r : LoadResult) : LoadResult :=
  match r, s.opMark b o (n / 4096 + 2) 0 n with
  | .ok _ _, some p => .failed 0x22 4 (BitVec.ofNat 64 (ledgerBase + p))
  | r, _ => r

/-! ### The blank and its parameter block (14 R394–R399) -/

/-- The resource declaration and what the loader needs of a blank. -/
structure BlankInfo where
  span : Bool
  decl : Nat
  sect : Nat
  sectCount : Nat
  reloc : Nat
  relocCount : Nat
  seed : Nat
  rows : Nat
  cols : Nat
  flags : Nat
  queues : Nat
  scratch : Nat
  ranges : Nat
  slots : Nat
  deriving DecidableEq, Repr

/-- The fields of a blank (14 Tables 1, 2). -/
def blankInfo (y : List Byte) : BlankInfo :=
  let d := field y 0x10 4
  ⟨field y 0x06 2 == 1, d, field y 0x14 4, field y 0x18 2, field y 0x1C 4, field y 0x20 4, field y 0x28 8,
   field y d 2, field y (d + 2) 2, field y (d + 4) 1, field y (d + 5) 1, field y (d + 8) 4, field y (d + 12) 1, field y (d + 13) 1⟩

/-- Checks of the header (14 Table 1). -/
def headerChecks (y : List Byte) (length : Nat) : List Check :=
  let i := blankInfo y
  [(0x00, field y 0 4 != 0x4B4E4C42), (0x04, field y 4 2 != 1), (0x06, decide (1 < field y 6 2)), (0x08, field y 8 4 != length),
   (0x0C, field y 0x0C 4 != crc32c (splice y 0x0C (List.replicate 4 0))),
   (0x10, i.decl % 16 != 0 || decide (length < i.decl + 64 + 16 * i.ranges)),
   (0x14, i.sect % 8 != 0 || decide (length < i.sect + 24 * i.sectCount)),
   (0x18, i.sectCount == 0 || decide (4096 < i.sectCount)), (0x1A, field y 0x1A 2 != 0),
   (0x1C, i.reloc % 16 != 0 || decide (length < i.reloc + 16 * i.relocCount)), (0x20, decide (1048576 < i.relocCount))] ++
    reservedCheck y 0x30 16

/-- Checks of the resource declaration (14 Table 2). -/
def declChecks (y : List Byte) : List Check :=
  let i := blankInfo y
  let d := i.decl
  [(d, i.rows == 0 || decide (4096 < i.rows)), (d + 2, i.cols == 0 || decide (4096 < i.cols) || decide (65536 < i.rows * i.cols)),
   (d + 4, decide (64 < i.flags)), (d + 5, decide (16 < i.queues)), (d + 6, field y (d + 6) 2 != 0),
   (d + 8, i.scratch % 256 != 0 || decide (i.scratch < 256) || decide (524288 < i.scratch)),
   (d + 12, decide (32 < i.ranges)), (d + 13, decide (16 < i.slots))] ++ reservedCheck y (d + 14) 50 ++
    (List.range i.ranges).flatMap fun k =>
      let e := d + 64 + 16 * k
      [(e, field y e 8 == 0 || field y e 8 % 4096 != 0), (e + 8, decide (1 < field y (e + 8) 1))] ++ reservedCheck y (e + 9) 7

/-- Checks of one section entry at `e` (14 Table 3). -/
def sectionChecks (y : List Byte) (length e : Nat) : List Check :=
  let i := blankInfo y
  let scope := field y (e + 1) 1
  let row := field y (e + 4) 2
  let col := field y (e + 6) 2
  let n := field y (e + 12) 4
  [(e, field y e 1 != 1 && field y e 1 != 2), (e + 1, decide (1 < scope)), (e + 2, field y (e + 2) 2 != 0),
   (e + 4, if scope = 1 then decide (i.rows ≤ row) else row != 0), (e + 6, if scope = 1 then decide (i.cols ≤ col) else col != 0),
   (e + 8, decide (length < field y (e + 8) 4 + n)), (e + 12, n == 0), (e + 16, decide (i.scratch < field y (e + 16) 4 + n)),
   (e + 20, field y (e + 20) 4 != 0)]

/-- Checks of one relocation record at `e` (14 Tables 4, 5). -/
def relocChecks (y : List Byte) (e : Nat) : List Check :=
  let i := blankInfo y
  let t := field y e 1
  let w := field y (e + 1) 1
  let row := field y (e + 4) 2
  let col := field y (e + 6) 2
  let every := row == 0xFFFF && col == 0xFFFF
  let site := field y (e + 8) 4
  let arg := field y (e + 12) 4
  let target := decide (i.rows ≤ bits arg 0 12) || decide (i.cols ≤ bits arg 12 12)
  [(e, t == 0 || decide (5 < t)), (e + 1, (w != 4 && w != 8) || (t == 5 && w != 8)), (e + 2, field y (e + 2) 2 != 0),
   (e + 4, !every && decide (i.rows ≤ row)), (e + 6, !every && decide (i.cols ≤ col)),
   (e + 8, site % w != 0 || decide (i.scratch < site + w)),
   (e + 12, (decide (1 ≤ t ∧ t ≤ 3) && target) || (t == 2 && decide (i.flags ≤ bits arg 24 6)) ||
      (t == 3 && decide (i.queues ≤ bits arg 24 4)) || (t == 4 && decide (i.ranges ≤ bits arg 0 5)) ||
      (t == 5 && decide (i.slots ≤ bits arg 0 4)))]

/-- The first failing check, in order. -/
def firstFailure (l : List Check) : Option Nat := (l.find? Prod.snd).map Prod.fst

/-- The first offending field of a blank, in the order header, declaration, sections, relocations (14 R399). -/
def blankFailure (y : List Byte) (length : Nat) : Option Nat :=
  match firstFailure (headerChecks y length) with
  | some k => some k
  | none =>
    let i := blankInfo y
    firstFailure (declChecks y ++ (List.range i.sectCount).flatMap (fun k => sectionChecks y length (i.sect + 24 * k)) ++
      (List.range i.relocCount).flatMap fun k => relocChecks y (i.reloc + 16 * k))

/-- The first offending field of a parameter block (14 R398). -/
def paramFailure (i : BlankInfo) (p : List Byte) : Option Nat :=
  firstFailure ([(0x00, field p 0 1 != i.ranges), (0x01, field p 1 1 != i.slots)] ++ reservedCheck p 2 6 ++
    (List.range i.ranges).map fun k => (8 + 8 * k, field p (8 + 8 * k) 8 % 4096 != 0))

/-- Bytes of a parameter block by its head. -/
def paramLength (p : List Byte) : Nat := 8 + 8 * field p 0 1 + 8 * field p 1 1

/-- The ranges of a launch: base, length, written. -/
def launchRanges (y p : List Byte) : List (Nat × Nat × Bool) :=
  let i := blankInfo y
  (List.range i.ranges).map fun k => (field p (8 + 8 * k) 8, field y (i.decl + 64 + 16 * k) 8, field y (i.decl + 72 + 16 * k) 1 == 1)

/-! ### Ranges (14 R400 step 4) -/

/-- The pages of a range walked to pinned leaves of Target 0, which are installed; or the code, DETAIL and DVA of the first that is not. -/
def State.pinPages (s : State) (b : Nat) (write : Bool) : Nat → Nat → Nat → Option (Nat × Nat × Nat) × State
  | 0, _, _ => (none, s)
  | fuel + 1, va, n =>
    if n = 0 then (none, s)
    else if 2 ^ 48 ≤ va then (some (0x10, 7, va), s) else
    match s.walk b va write with
    | .fatal d => (some (0x10, d, va), s)
    | .leaf e =>
      if ¬ e.pin ∨ e.target ≠ 0 then (some (0x11, 0, va), s) else
      let s := s.install e false
      if ((s.lookup b true 0 va).map CacheEntry.pin).getD false then
        let k := min n (2 ^ e.size - va % 2 ^ e.size)
        s.pinPages b write fuel (va + k) (n - k)
      else (some (0x11, 0, va), s)
    | _ => (some (0x11, 0, va), s)

/-- Every range of a launch pinned, or the first failure. -/
def State.pinRanges (s : State) (b : Nat) : List (Nat × Nat × Bool) → Option (Nat × Nat × Nat) × State
  | [] => (none, s)
  | (base, n, w) :: r =>
    match s.pinPages b w (n / 4096 + 1) base n with
    | (some x, s) => (some x, s)
    | (none, s) => s.pinRanges b r

/-! ### Cores (14 R404–R406) -/

/-- The free physical cores of this hub: die × 256 + core, on a die that is UP, in no placement, not defective. -/
def State.freeCores (s : State) : List Nat :=
  let used := s.placements.flatMap fun p => (p.cores.filter fun c => c.hub == s.hubId).map fun c => c.die * 256 + c.core
  (List.range s.nDies).flatMap fun d =>
    if (s.die d).state ≠ .up then [] else
    ((List.range 256).filter fun c => !(s.die d).defects.contains c).filterMap fun c =>
      if used.contains (d * 256 + c) then none else some (d * 256 + c)

/-- The bands of whole rows that a grid is split into over hubs with so many free cores, in order; and the rows left over. -/
def splitBands (cols : Nat) : List (Nat × Nat) → Nat → Nat → List (Nat × Nat × Nat) × Nat
  | [], _, left => ([], left)
  | (h, free) :: r, row, left =>
    let n := min left (free / cols)
    let (l, rest) := splitBands cols r (row + n) (left - n)
    (if n = 0 then l else (h, row, n) :: l, rest)

/-- The most preferred of some cores. -/
def bestCore (rank : Nat → Nat) : List Nat → Option Nat
  | [] => none
  | c :: r =>
    match bestCore rank r with
    | none => some c
    | some d => if rank c ≤ rank d then some c else some d

/-- Virtual cores, by index, each given the most preferred core left. -/
def assignCores (inputs : List Nat) : List Nat → List Nat → List (Nat × Nat)
  | [], _ => []
  | v :: r, free =>
    match bestCore (Config.corePreference inputs v) free with
    | none => []
    | some c => (v, c) :: assignCores inputs r (free.filter fun x => x != c)

/-- The cores of a band on this hub: rows `[row, row + rows)`. -/
def State.bandCores (s : State) (inputs free : List Nat) (row rows cols : Nat) : List PlacedCore :=
  (assignCores inputs (List.range (rows * cols)) free).map fun e => ⟨s.hubId, e.2 / 256, e.2 % 256, row + e.1 / cols, e.1 % cols⟩

/-- The inputs that a band's placement is a function of (14 R406): its rows and columns, PLACE_SEED, the budget, image version and weights, the free cores. -/
def State.placeInputs (s : State) (rows cols seed budget : Nat) (free : List Nat) : List Nat :=
  [rows, cols, seed, budget, ((s.chip.cfg.map ImageCfg.version).getD 0).toNat] ++
    (((s.chip.cfg.bind ImageCfg.burl).map BurlCfg.weights).getD []).map BitVec.toNat ++ free

/-- XLT credits of a bench on the dies where it has cores, as tallies (13 R377; 17 Table 1). -/
def State.tallyXlt (s : State) (b : Nat) : List Nat → State
  | [] => s
  | d :: r => (if s.recovery.tallies.any (Tally.is 0x0A b d) then s else s.addTally 0x0A b d d).tallyXlt b r

/-- The bench number, or for a guest its slot from 256 on, under which this hub's tallies name the bench of a placement. -/
def State.ownerOf (s : State) (home b : Nat) : Nat :=
  if home = s.hubId then b else
  match s.cascade.guests.find? fun e => (e.2.map fun g => g.home == home && g.bench == b).getD false with
  | some e => 256 + e.1
  | none => 511

/-- Credits of dies on which a bench has no core left are returned. -/
def State.settleXlt (s : State) (home b : Nat) : State :=
  let o := s.ownerOf home b
  (List.range s.nDies).foldl (fun s d =>
    if s.placements.any fun p => p.home == home && p.bench == b && p.cores.any fun c => c.hub == s.hubId && c.die == d then s
    else s.endTally 0x0A o d) s

/-! ### Loading (14 R396, R397, R400 steps 6 and 7) -/

/-- The sections that a core takes, in table order: scratchpad offset and body. -/
def coreSections (y : List Byte) (row col : Nat) : List (Nat × List Byte) :=
  let i := blankInfo y
  (List.range i.sectCount).filterMap fun k =>
    let e := i.sect + 24 * k
    if field y (e + 1) 1 = 1 ∧ ¬ (field y (e + 4) 2 = row ∧ field y (e + 6) 2 = col) then none
    else some (field y (e + 16) 4, slice y (field y (e + 8) 4) (field y (e + 12) 4))

/-- A byte of a core's scratchpad once its sections are loaded: of the last that covers it, 0 where none does (R409). -/
def imageByte (l : List (Nat × List Byte)) (o : Nat) : Byte :=
  match (l.filter fun e => decide (e.1 ≤ o) && decide (o < e.1 + e.2.length)).getLast? with
  | some e => (e.2[o - e.1]?).getD 0
  | none => 0

/-- The value that a relocation writes at a core's site, which now holds `image` (14 Table 5). -/
def patchValue (y p : List Byte) (cores : List PlacedCore) (number e : Nat) (image : List (Nat × List Byte)) (c : PlacedCore) : Nat :=
  let i := blankInfo y
  let t := field y e 1
  let w := field y (e + 1) 1
  let site := field y (e + 8) 4
  let arg := field y (e + 12) 4
  if t = 4 then
    let old := leNat ((List.range w).map fun k => imageByte image (site + k))
    field p (8 + 8 * bits arg 0 5) 8 + old
  else if t = 5 then field p (8 + 8 * i.ranges + 8 * bits arg 0 4) 8
  else
    let row := bits arg 0 12
    let col := bits arg 12 12
    let idx := bits arg 24 8
    match cores.find? fun x => x.row == row && x.col == col with
    | some x => (Config.patchWord t [if x.hub = c.hub ∧ x.die = c.die then 1 else 0, x.die, x.core, number, row, col, idx]).toNat
    | none => 0

/-- What a core's scratchpad is loaded with, in order: its sections, then its relocations in table order, each over what stands before it (14 R397, R400 step 6). -/
def coreWrites (y p : List Byte) (cores : List PlacedCore) (number : Nat) (c : PlacedCore) : List (Nat × List Byte) :=
  let i := blankInfo y
  (List.range i.relocCount).foldl (fun image k =>
    let e := i.reloc + 16 * k
    let row := field y (e + 4) 2
    let col := field y (e + 6) 2
    if (row = 0xFFFF ∧ col = 0xFFFF) ∨ (row = c.row ∧ col = c.col) then
      image ++ [(field y (e + 8) 4, leBytes (field y (e + 1) 1) (patchValue y p cores number e image c))]
    else image) (coreSections y c.row c.col)

/-- Staged bytes written to a die for a bench, in requests of at most 4 KiB (13 Table 1). -/
def State.loadBytes (s : State) (d b off : Nat) : Nat → List Byte → State
  | 0, _ => s
  | n + 1, l =>
    let k := 4096 - off % 4096
    if l.isEmpty then s
    else (s.askDie d (some b) false (.hubWrite none off ((l.take k).map fun v => (v, true)))).loadBytes d b (off + k) n (l.drop k)

/-- A core is configured and its sections and patches are written: over its spindle port, or over Envan to the hub that carries it. -/
def State.loadCore (s : State) (b number : Nat) (y p : List Byte) (cores : List PlacedCore) (c : PlacedCore) : State :=
  let i := blankInfo y
  let writes := coreWrites y p cores number c
  if c.hub = s.hubId then
    let s := s.sendDie c.die (.loadCore c.core s.hubId b number c.row c.col i.flags i.queues)
    writes.foldl (fun s w => s.loadBytes c.die b (dieScr c.core w.1) (w.2.length / 4096 + 2) w.2) s
  else writes.foldl (fun s w => s.sendHub c.hub (.loadScr s.hubId b number c.row c.col w.1 (s.bench b).incarn w.2)) s

/-! ### Frozen placements (14 R412–R419) -/

/-- The dies of this hub that carry cores of a placement. -/
def State.placeDies (s : State) (p : Placement) : List Nat :=
  (List.range s.nDies).filter fun d => p.cores.any fun c => c.hub == s.hubId && c.die == d

/-- The other hubs of a placement. -/
def State.placeHubs (s : State) (p : Placement) : List Nat :=
  (List.range 32).filter fun h => h != s.hubId && p.cores.any fun c => c.hub == h

/-- The incarnation of the bench of a placement. -/
def State.placeIncarn (s : State) (home b : Nat) : BitVec 16 := s.incarnOf (s.ownerOf home b)

/-- A placement is frozen on this hub: HOLD to its dies, a new hold counted; a pending release is cancelled (14 R414, R416). -/
def State.freezeHere (s : State) (p : Placement) : State :=
  let s := s.modPlacement p.home p.bench p.number fun x => { x with
    frozen := true, release := none, state := if x.state = .running then .held else x.state
    holds := if x.frozen ∧ x.release.isNone then x.holds else min (x.holds + 1) (2 ^ 32 - 1) }
  if p.frozen then s
  else (s.placeDies p).foldl (fun s d => s.sendDie d (.hold p.home p.bench p.number)) s

/-- A placement is frozen on every hub: HOLD here, and forwarded to the others. -/
def State.freezeAll (s : State) (p : Placement) : State :=
  let inc := s.placeIncarn p.home p.bench
  if p.frozen ∧ p.release.isNone then s.freezeHere p
  else (s.placeHubs p).foldl (fun s h => s.sendHub h (.hold p.home p.bench p.number inc)) (s.freezeHere p)

/-- Every placement of a bench of this hub is frozen by a bench hold; one that has not started starts frozen, and its other hubs are told (14 R412, Edges). -/
def State.holdBench (s : State) (b : Nat) : State :=
  (s.placements.filter fun p => p.home == s.hubId && p.bench == b && p.state != .releasing).foldl (fun s p =>
    if p.started then s.freezeAll p
    else (s.placeHubs p).foldl (fun s h => s.sendHub h (.hold p.home b p.number (s.bench b).incarn)) s) s

/-- The bench hold of a bench of this hub is in force (14 R412). -/
def State.benchHeld (s : State) (b : Nat) : Bool := (s.bench b).state == .held || (s.bench b).state == .sweeping

/-- Microseconds between a release being stamped and applied (14 Table 9). -/
def State.releaseLead (s : State) (p : Placement) : Nat :=
  if (s.placeHubs p).isEmpty then 2
  else if s.cascade.timeState = .resync ∨ s.cascade.nextStep ≠ 0 then 64 else 4

/-- The home hub stamps a release when nothing holds the placement and every hub of it has a route (14 R415; 16 R478). Under a bench hold its schedule hold has ended with its last LATE (14 R417). -/
def State.tryRelease (s : State) (b n : Nat) : State :=
  match s.ownPlacement b n with
  | none => s
  | some p =>
    let s := if p.lates.isEmpty ∧ s.benchHeld b then s.modPlacement p.home b n fun x => { x with holdStart := none, holdLong := false } else s
    if ¬ p.frozen ∨ ¬ p.lates.isEmpty ∨ p.release.isSome ∨ p.state = .releasing ∨ ¬ p.started ∨ s.benchHeld b ∨ ¬ (s.placeHubs p).all s.routed then s else
    let t := s.now + BitVec.ofNat 64 (s.releaseLead p)
    let s := s.modPlacement p.home b n fun x => { x with release := some t }
    (s.placeHubs p).foldl (fun s h => s.sendHub h (.release p.home b n (s.bench b).incarn t)) s

/-- A LATE SET of a core of a placement at the hub that keeps the books: the schedule hold begins with the first. -/
def State.lateHere (s : State) (p : Placement) (e : Nat × Nat × Nat) : State :=
  s.modPlacement p.home p.bench p.number fun x => { x with
    holdStart := if x.lates.isEmpty then some (x.holdStart.getD s.now) else x.holdStart
    lates := if x.lates.contains e then x.lates else x.lates ++ [e] }

/-! ### Release of a placement (14 R409) -/

/-- Cores of a placement on this hub are stopped and cleared; its hold state is discarded. -/
def State.stopPlacement (s : State) (p : Placement) : State :=
  let s := s.modPlacement p.home p.bench p.number fun x => { x with
    state := .releasing, frozen := true, lates := [], release := none, holdStart := none }
  let s := if p.frozen then s
    else (s.placeDies p).foldl (fun s d => s.sendDie d (.hold p.home p.bench p.number)) s
  (p.cores.filter fun c => c.hub == s.hubId).foldl (fun s c => s.sendDie c.die (.stopCore c.core)) s

/-- A placement of a bench of this hub is released on every hub of it. -/
def State.releasePlacement (s : State) (b n : Nat) : State :=
  match s.ownPlacement b n with
  | none => s
  | some p =>
    if p.state = .releasing then s else
    (s.placeHubs p).foldl (fun s h => s.sendHub h (.bandRelease b n (s.bench b).incarn)) (s.stopPlacement p)

/-- A released placement's cores are back in the free pool. -/
def State.dropPlacement (s : State) (home b n : Nat) : State :=
  ({ s with placements := s.placements.filter fun p => !(p.home == home && p.bench == b && p.number == n) }).settleXlt home b

/-! ### LAUNCH contexts (14 R402) -/

/-- The LAUNCH under way on a ring. -/
def State.launchOf (s : State) (b r : Nat) : Option Launch := s.launches.find? fun l => l.bench == b && l.ring == r

/-- The LAUNCH of a ring changed. -/
def State.modLaunch (s : State) (b r : Nat) (f : Launch → Launch) : State :=
  { s with launches := s.launches.map fun l => if l.bench == b && l.ring == r then f l else l }

/-- The context of a ring's LAUNCH is free again, with its tally; the dense engine is given up. -/
def State.freeLaunch (s : State) (b r : Nat) : State :=
  let s := { s with launches := s.launches.filter fun l => !(l.bench == b && l.ring == r) }
  let s := s.endTally 0x0D b r
  if s.dense.placing = some (b, r) then { s with dense := { s.dense with placing := none } } else s

/-- A LAUNCH is abandoned before its start is stamped: its cores return, its context is free (14 R400; 17 Table 1). -/
def State.abandonLaunch (s : State) (b r : Nat) : State :=
  match s.launchOf b r with
  | none => s
  | some l =>
    match l.stage with
    | .stamped _ => s
    | _ =>
      let hubs := (l.bands.map Prod.fst).filter fun h => h != s.hubId
      let s := hubs.foldl (fun s h => s.sendHub h (.bandRelease b l.number (s.bench b).incarn)) s
      (s.dropPlacement s.hubId b l.number).freeLaunch b r

/-- A step of a LAUNCH fails: nothing is started, and the descriptor ends. -/
def State.failLaunch (s : State) (l : Launch) (code detail : Nat) (result : BitVec 64) : State :=
  (s.abandonLaunch l.bench l.ring).endDesc l.bench l.ring l.desc code detail 255 result

/-- The lowest placement number from 1 on that a bench does not hold (14 R401). -/
def State.placeNumber (s : State) (b : Nat) : Nat :=
  (lowestTag ((s.placements.filter fun p => p.home == s.hubId && p.bench == b).map Placement.number) 255 1).getD 0

end Sys2Proof.Machine
end

