-- ==== Sys2Proof/Machine/BurlOps.lean ====
section
/-!
DEFINITION. The Burl: job blocks and their checks, energies, the generator and the weights, moves and schedule, results and trace, admission, slices, strips of a multi-hub job (15 R420–R452).
-/

namespace Sys2Proof.Machine

/-! ### Capacities (15 Table 1) -/

/-- Spins of the dense engine. -/
def denseSpins (big : Bool) : Nat := if big then 16384 else 8192
/-- Spins of the lattice engine. -/
def latticeSpins (big : Bool) : Nat := if big then 1048576 else 262144
/-- Columns of the lattice engine. -/
def latticeCols (big : Bool) : Nat := if big then 1024 else 512
/-- Bytes of the tenant store of the dense engine. -/
def denseStore (big : Bool) : Nat := (if big then 2049 else 513) * 2 ^ 20

/-! ### The job block (15 R426–R428) -/

/-- Bytes of a job block by its header. -/
def jobLength (y : List Byte) : Nat := 0x60 + 16 * field y 6 1 + 8 * field y 0x0C 1 + 8 * field y 0x0D 1

/-- Offset of the partition entries. -/
def partsAt (y : List Byte) : Nat := 0x60 + 16 * field y 6 1

/-- Offset of the result handles. -/
def resultsAt (y : List Byte) : Nat := partsAt y + 8 * field y 0x0C 1

/-- What a job block states. -/
def jobSpec (y : List Byte) : JobSpec :=
  let lattice := field y 4 1 == 2
  let rows := field y 8 2
  let cols := field y 10 2
  { lattice := lattice, width := field y 5 1, initRandom := bits (field y 7 1) 0 1 == 1, trace := bits (field y 7 1) 1 1 == 1
    target := bits (field y 7 1) 2 1 == 1, spins := if lattice then rows * cols else field y 8 4
    rows := if lattice then rows else 0, cols := if lattice then cols else 0, coefSel := field y 0x0E 1, initSel := field y 0x0F 1
    seed := BitVec.ofNat 64 (field y 0x10 8), coef := BitVec.ofNat 64 (field y 0x18 8), init := BitVec.ofNat 64 (field y 0x20 8)
    traceBillet := BitVec.ofNat 64 (field y 0x28 8), traceEvery := field y 0x30 5, timeLimit := field y 0x38 4
    targetEnergy := signed 128 (field y 0x40 16)
    segments := (List.range (field y 6 1)).map fun k =>
      let e := 0x60 + 16 * k
      ⟨field y e 4, field y (e + 4) 4, field y (e + 8) 4, field y (e + 12) 1⟩
    parts := (List.range (field y 0x0C 1)).map fun k => (field y (partsAt y + 8 * k) 1, field y (partsAt y + 8 * k + 2) 2)
    results := (List.range (field y 0x0D 1)).map fun k => BitVec.ofNat 64 (field y (resultsAt y + 8 * k) 8) }

/-- Bytes of one state in a result stream: a multiple of 64 (15 R427). -/
def stateBytes (n : Nat) : Nat := ((n + 7) / 8 + 63) / 64 * 64

/-- Bytes that the result billets hold. -/
def State.resultBytes (s : State) (l : List (BitVec 64)) : Nat :=
  l.foldl (fun n h => n + (s.billet (bits h.toNat 20 20)).kib * 1024) 0

/-- The first offending field of a job block, in order of offset; the hub's own strips keep its own limits, other hubs' those of the larger grade. -/
def State.jobFailure (s : State) (y : List Byte) : Option Nat :=
  let j := jobSpec y
  let big := s.big
  let hubs := field y 0x0C 1
  let modes := [1, 2, 3]
  let parts := (List.range hubs).map fun k => (partsAt y + 8 * k, field y (partsAt y + 8 * k) 1, field y (partsAt y + 8 * k + 2) 2)
  firstFailure ([(0x00, field y 0 4 != 0x4A525542), (0x04, field y 4 1 != 1 && field y 4 1 != 2),
    (0x05, j.width != 16 && j.width != 32 && j.width != 64), (0x06, field y 6 1 == 0 || decide (16 < field y 6 1)), (0x07, decide (8 ≤ field y 7 1)),
    (0x08, if j.lattice then
        j.rows == 0 || j.cols == 0 || (hubs == 0 && (decide (latticeSpins big < j.spins) || decide (latticeCols big < j.cols)))
      else decide (j.spins < 2) || decide (denseSpins big < j.spins)),
    (0x0C, if j.lattice then decide (32 < hubs) else hubs != 0), (0x0D, j.results.isEmpty || decide (16 < j.results.length)),
    (0x0E, !modes.contains j.coefSel), (0x0F, if j.initRandom then j.initSel != 0 else !modes.contains j.initSel),
    (0x20, j.initRandom && j.init != 0), (0x28, j.trace == (j.traceBillet == 0)),
    (0x30, j.trace == (j.traceEvery == 0)), (0x35, field y 0x35 3 != 0), (0x38, decide (86400000 < j.timeLimit)), (0x3C, field y 0x3C 4 != 0),
    (0x40, !j.target && j.targetEnergy != 0)] ++ reservedCheck y 0x50 16 ++
    ((List.range (field y 6 1)).flatMap fun k =>
      let e := 0x60 + 16 * k
      [(e, field y e 4 == 0), (e + 12, decide (127 < field y (e + 12) 1)), (e + 13, field y (e + 13) 3 != 0)]) ++
    (parts.flatMap fun p =>
      let own := !(p.2.1 == s.hubId) || big
      [(p.1, decide (31 < p.2.1) || decide (latticeCols own < j.cols)), (p.1 + 1, field y (p.1 + 1) 1 != 0),
       (p.1 + 2, p.2.2 == 0 || decide (latticeSpins own < p.2.2 * j.cols)), (p.1 + 4, field y (p.1 + 4) 4 != 0)]) ++
    [(partsAt y + 8 * (hubs - 1) + 2, hubs != 0 && (parts.foldl (fun n p => n + p.2.2) 0) != j.rows)])

/-! ### Spins, energies, fields (15 R423–R425, R448) -/

/-- A spin's value: 1 or −1. -/
def spinVal (b : Bool) : Int := if b then 1 else -1

/-- A state from its bytes: spin i is bit i mod 8 of byte i div 8. -/
def unpackSpins (n : Nat) (y : List Byte) : List Bool := (List.range n).map fun i => bits (field y (i / 8) 1) (i % 8) 1 == 1

/-- A state as bytes, filled with zeros to a given length. -/
def packSpins (l : List Bool) (bytes : Nat) : List Byte :=
  (List.range bytes).map fun k => BitVec.ofNat 8 (leNatBits ((l.drop (8 * k)).take 8))
where
  /-- The number that bits spell, least significant first. -/
  leNatBits : List Bool → Nat
    | [] => 0
    | b :: r => b.toNat + 2 * leNatBits r

/-- Coefficients from their bytes. -/
def coefsOf (width n : Nat) (y : List Byte) : List Int :=
  (List.range n).map fun k => signed width (field y (k * (width / 8)) (width / 8))

/-- Coefficients as bytes. -/
def coefBytes (width : Nat) (l : List Int) : List Byte := l.flatMap fun c => leBytes (width / 8) (c % 2 ^ width).toNat

/-- Coefficients that a job reads. -/
def specCoefs (j : JobSpec) : Nat := if j.lattice then 5 * j.spins else j.spins + j.spins * (j.spins - 1) / 2

/-- J between spins of a dense job. -/
def Job.denseJ (j : Job) (a b : Nat) : Int :=
  let n := j.spec.spins
  let i := min a b
  let k := max a b
  if i = k then 0 else (j.coef[n + i * (n - 1) - i * (i - 1) / 2 + (k - i - 1)]?).getD 0

/-- Local field of a spin of a dense job. -/
def Job.denseField (j : Job) (i : Nat) : Int :=
  ((List.range j.spins.length).foldl (fun e k => e + j.denseJ i k * spinVal ((j.spins[k]?).getD false)) ((j.coef[i]?).getD 0))

/-- Coefficient k of the record at row r and column c of a lattice job; row 0 is the row above its first. -/
def Job.latCoef (j : Job) (r c k : Nat) : Int := (j.coef[5 * (j.spec.cols * r + c) + k]?).getD 0

/-- Rows of a lattice job's spin set. -/
def Job.rows (j : Job) : Nat := j.spins.length / max j.spec.cols 1

/-- The spin at row r, column c − 1: rows 1 to `rows` are the set's own, 0 and `rows + 1` the halo; 0 where there is none. -/
def Job.latSpin (j : Job) (r c : Nat) : Int :=
  if c = 0 ∨ j.spec.cols < c then 0 else
  let at_ : List Bool → Nat → Int := fun l k => ((l[k]?).map spinVal).getD 0
  if r = 0 then at_ j.above (c - 1) else if r = j.rows + 1 then at_ j.below (c - 1) else at_ j.spins ((r - 1) * j.spec.cols + (c - 1))

/-- Local field of a spin of a lattice job: h and its eight neighbours. -/
def Job.latField (j : Job) (i : Nat) : Int :=
  let r := i / j.spec.cols + 1
  let c := i % j.spec.cols
  let x := c + 1
  j.latCoef r c 0 + j.latCoef r c 1 * j.latSpin r (x + 1) + j.latCoef r (c - 1) 1 * j.latSpin r (x - 1) +
    j.latCoef r c 2 * j.latSpin (r + 1) (x + 1) + j.latCoef (r - 1) (c - 1) 2 * j.latSpin (r - 1) (x - 1) +
    j.latCoef r c 3 * j.latSpin (r + 1) x + j.latCoef (r - 1) c 3 * j.latSpin (r - 1) x +
    j.latCoef r c 4 * j.latSpin (r + 1) (x - 1) + j.latCoef (r - 1) (c + 1) 4 * j.latSpin (r - 1) (x + 1)

/-- Local field of a spin. -/
def Job.localField (j : Job) (i : Nat) : Int := if j.spec.lattice then j.latField i else j.denseField i

/-- The couplings of row r to the row below it, of spins t. -/
def rowBelow (j : Job) (r : Nat) (s t : List Bool) : Int :=
  let v : List Bool → Nat → Int := fun l x => if x = 0 then 0 else ((l[x - 1]?).map spinVal).getD 0
  (List.range j.spec.cols).foldl (fun e c => e + v s (c + 1) *
    (j.latCoef r c 2 * v t (c + 2) + j.latCoef r c 3 * v t (c + 1) + j.latCoef r c 4 * v t c)) 0

/-- Row k of a state of the set. -/
def rowOf (cols : Nat) (l : List Bool) (k : Nat) : List Bool := (l.drop (k * cols)).take cols

/-- Energy of a state of the spin set, without the terms to a strip above or below. -/
def Job.energyOf (j : Job) (l : List Bool) : Int :=
  if ¬ j.spec.lattice then
    let n := l.length
    let v := fun k => spinVal ((l[k]?).getD false)
    let sum : Int := (List.range n).foldl (fun e i => e + ((j.coef[i]?).getD 0) * v i +
      (List.range i).foldl (fun e k => e + j.denseJ k i * v k * v i) 0) 0
    Int.neg sum
  else
    let cols := j.spec.cols
    let rows := l.length / max cols 1
    let sum : Int := (List.range rows).foldl (fun e k =>
      let row := rowOf cols l k
      let v : Nat → Int := fun c => ((row[c]?).map spinVal).getD 0
      let own := (List.range cols).foldl (fun e c => e + v c * (j.latCoef (k + 1) c 0 + j.latCoef (k + 1) c 1 * v (c + 1))) 0
      e + own + (if k + 1 < rows then rowBelow j (k + 1) row (rowOf cols l (k + 1)) else 0)) 0
    Int.neg sum

/-- Energy of the set's present state. -/
def Job.energy (j : Job) : Int := j.energyOf j.spins

/-! ### The generator and the weights (15 R431–R435) -/

/-- One round of Philox4×32. -/
def philoxRound (c : Nat × Nat × Nat × Nat) (k : Nat × Nat) : Nat × Nat × Nat × Nat :=
  let m := 2 ^ 32
  let p0 := 0xD2511F53 * c.1
  let p1 := 0xCD9E8D57 * c.2.2.1
  (((p1 / m) ^^^ c.2.1) ^^^ k.1, p1 % m, ((p0 / m) ^^^ c.2.2.2) ^^^ k.2, p0 % m)

/-- Rounds of Philox4×32, the key rising after each. -/
def philoxRounds : Nat → Nat × Nat → Nat × Nat × Nat × Nat → Nat × Nat × Nat × Nat
  | 0, _, c => c
  | n + 1, k, c => philoxRounds n ((k.1 + 0x9E3779B9) % 2 ^ 32, (k.2 + 0xBB67AE85) % 2 ^ 32) (philoxRound c k)

/-- Philox4×32-10 under SEED at a counter. -/
def philox (seed : BitVec 64) (c0 c1 c2 c3 : Nat) : Nat × Nat × Nat × Nat :=
  philoxRounds 10 (seed.toNat % 2 ^ 32, seed.toNat / 2 ^ 32) (c0 % 2 ^ 32, c1 % 2 ^ 32, c2 % 2 ^ 32, c3 % 2 ^ 32)

/-- Spin i of strip k at the start of an INIT_RANDOM run. -/
def randomSpin (seed : BitVec 64) (k i : Nat) : Bool :=
  let o := philox seed (i / 128) 0 k 1
  let b := i % 128
  let w := if b < 32 then o.1 else if b < 64 then o.2.1 else if b < 96 then o.2.2.1 else o.2.2.2
  bits w (b % 32) 1 == 1

/-- 2^128 × e^(−1/256), rounded. -/
def expStep : Nat := 338955731696479810470146282672867036735

/-- The acceptance weight: round(2^24 × e^(−q/256)) between its bounds. -/
def weight (q : Int) : Nat :=
  if q ≤ 0 then 2 ^ 24 else if 4096 ≤ q then 0 else (expStep ^ q.toNat * 2 ^ 25 / 2 ^ (128 * q.toNat) + 1) / 2

/-- The multiplier and the shift of anneal sweep k of a schedule. -/
def betaAt : List Segment → Nat → Nat × Nat
  | [], _ => (0, 0)
  | g :: r, k =>
    if k < g.sweeps then (((g.betaStart : Int) + (((g.betaEnd : Int) - g.betaStart) * k).tdiv g.sweeps).toNat, g.shift)
    else betaAt r (k - g.sweeps)

/-- Anneal sweeps of a schedule. -/
def specSweeps (j : JobSpec) : Nat := j.segments.foldl (fun n g => n + g.sweeps) 0

/-- The first index at which the running sum exceeds r. -/
def pickWeighted (r : Nat) : List Nat → Nat → Nat → Option Nat
  | [], _, _ => none
  | w :: l, i, sum => if r < sum + w then some i else pickWeighted r l (i + 1) (sum + w)

/-- One move (15 R432): at most one spin flips. -/
def Job.moveOnce (j : Job) : Job :=
  let (beta, shift) := betaAt j.spec.segments j.sweeps
  let w := (List.range j.spins.length).map fun i =>
    let de := 2 * spinVal ((j.spins[i]?).getD false) * j.localField i
    weight ((de * beta).fdiv (2 ^ shift))
  let total := w.foldl (· + ·) 0
  let o := philox j.spec.seed j.move (j.move / 2 ^ 32) (j.strip.getD 0) 0
  let r := (o.1 + 2 ^ 32 * o.2.1) * total / 2 ^ 64
  let spins := if total = 0 then j.spins else
    match pickWeighted r w 0 0 with
    | some i => j.spins.set i !((j.spins[i]?).getD false)
    | none => j.spins
  { j with spins := spins, move := j.move + 1, engineTime := j.engineTime + if j.spec.lattice then 256 else 2560 + j.spins.length * (j.spec.width / 8) }

/-! ### Jobs of the hub -/

/-- The same job. -/
def Job.same (a b : Job) : Bool := a.home == b.home && a.bench == b.bench && a.ring == b.ring && a.strip == b.strip

/-- A job in the place of the one it is. -/
def State.setJob (s : State) (j : Job) : State := { s with jobs := s.jobs.map fun x => if x.same j then j else x }

/-- A job by home, bench, ring and strip. -/
def State.jobOf (s : State) (home b r : Nat) (strip : Option Nat) : Option Job :=
  s.jobs.find? fun j => j.home == home && j.bench == b && j.ring == r && j.strip == strip

/-- An engine. -/
def State.engine (s : State) (lattice : Bool) : Engine := if lattice then s.lattice else s.dense

/-- An engine changed. -/
def State.modEngine (s : State) (lattice : Bool) (f : Engine → Engine) : State :=
  if lattice then { s with lattice := f s.lattice } else { s with dense := f s.dense }

/-- A job joins the Burl, which wakes for it (15 R452; 03 R67, R75). -/
def State.addJob (s : State) (j : Job) : State := ({ s with jobs := s.jobs ++ [j] }).rouse 9

/-- The job that an engine runs. -/
def State.runningJob (s : State) (lattice : Bool) : Option Job :=
  s.jobs.find? fun j => j.spec.lattice == lattice && (j.phase == .running || j.phase == .saving)

/-- The owner of a job's tallies: a bench or a guest. -/
def State.jobOwner (s : State) (j : Job) : Nat := s.ownerOf j.home j.bench

/-- A placement waits for the dense engine, or holds it (15 R444). -/
def State.placementWaits (s : State) : Bool := s.dense.placing.isSome || s.launches.any fun l => l.stage == .ready

/-- A job's turn ends: its tally, and the charge of its engine time in µs (15 R442). -/
def State.endSlice (s : State) (j : Job) : State :=
  let o := s.jobOwner j
  let s := s.modEngine j.spec.lattice fun e => { e with
    charges := arbCharge e.charges o (e.sliceTime / 64000) (s.qosOf o).latheWeight, sliceTime := 0 }
  s.endTally 0x08 o j.spec.lattice.toNat

/-- A job begins its turn: a self-test stops, its time is tallied. -/
def State.startJob (s : State) (j : Job) : State :=
  let l := j.spec.lattice
  let s := (s.setJob { j with phase := .running }).modEngine l fun e => { e with testing := false, sliceTime := 0 }
  let s := { s with bg := { s.bg with testing := s.bg.testing.filter fun t => t != TestUnit.burl l } }
  s.addTally 0x08 (s.jobOwner j) l.toNat l.toNat

/-- An idle engine with power takes its next job: by time share over benches, within a bench in acceptance order (15 R442). -/
def State.nextJob (s : State) (lattice : Bool) : State :=
  let e := s.engine lattice
  if (s.runningJob lattice).isSome ∨ e.outOfService ∨ ¬ s.domainWorks 9 ∨ (¬ lattice ∧ s.placementWaits) then s else
  let ready := s.jobs.filter fun j => j.spec.lattice == lattice && j.phase == .ready
  let owners := (ready.map s.jobOwner).eraseDups
  let c := arbJoin e.charges owners
  let s := s.modEngine lattice fun e => { e with charges := c }
  match arbPick c s.qosNumber owners with
  | none => s
  | some o =>
    match ready.find? fun j => s.jobOwner j == o with
    | none => s
    | some j => s.startJob j

/-- A running job stands at the end of an anneal sweep and must give way: its slice has lasted 20 ms, or a placement waits for its engine (15 R442, R444). -/
def State.sliceDue (s : State) (j : Job) : Bool :=
  j.phase == .running && j.move == j.sweeps * j.spins.length &&
    (decide (20 * 64000000 ≤ (s.engine j.spec.lattice).sliceTime) || (!j.spec.lattice && s.placementWaits))

/-- A job leaves the Burl, with its tallies; an engine that it held takes its next job. -/
def State.dropJob (s : State) (j : Job) : State :=
  let j := (s.jobs.find? j.same).getD j
  let s := if j.phase == .running then s.endSlice j else s
  let s := { s with jobs := s.jobs.filter fun x => !x.same j }
  (if j.store = 0 ∧ ¬ j.spec.lattice then s else s.endTally 0x07 (s.jobOwner j) j.ring).nextJob j.spec.lattice

/-! ### Billet streams (15 R437, R438) -/

/-- Where a billet named by its handle lies in the billet memory. -/
def billetBase (h : BitVec 64) : Nat := bits h.toNat 20 20 * 2 ^ 20

/-- Bytes written across result billets in order. -/
def State.writeStream (s : State) : List (BitVec 64) → List Byte → State
  | [], _ => s
  | h :: r, d =>
    let n := (s.billet (bits h.toNat 20 20)).kib * 1024
    ({ s with billetMem := memWrites s.billetMem (billetBase h) (d.take n) }.clearMarks (billetBase h) (d.take n).length).writeStream r (d.drop n)

/-- A signed 128-bit number as bytes. -/
def energyBytes (e : Int) : List Byte := leBytes 16 (e % 2 ^ 128).toNat

/-- A trace sample is written to the ring in the trace billet. -/
def State.traceSample (s : State) (j : Job) (moves : Nat) (energy : Int) (sweep : Nat) : State :=
  if ¬ j.spec.trace then s else
  let (beta, shift) := betaAt j.spec.segments (min sweep (specSweeps j.spec - 1))
  let h := j.spec.traceBillet
  let cap := ((s.billet (bits h.toNat 20 20)).kib * 1024 - 64) / 32
  let sample := leBytes 8 moves ++ energyBytes energy ++ leBytes 4 beta ++ leBytes 1 shift ++ leBytes 3 0
  let m := memWrites s.billetMem (billetBase h + 64 + j.written % max cap 1 * 32) sample
  let m := memWrites m (billetBase h) (leBytes 8 (j.written + 1) ++ leBytes 4 cap)
  ({ s with billetMem := m }).setJob { j with written := j.written + 1 }

/-- The result stream (15 Table 6). -/
def resultStream (best final : Int) (bestMove moves lost n : Nat) (bestState finalState : List Bool) : List Byte :=
  energyBytes best ++ energyBytes final ++ leBytes 8 bestMove ++ leBytes 8 moves ++ leBytes 4 lost ++ leBytes 12 0 ++
    packSpins bestState (stateBytes n) ++ packSpins finalState (stateBytes n)

/-- LOST_MASK. -/
def lostMask (l : List Nat) : Nat := l.foldl (fun m k => m ||| 2 ^ k) 0

/-- A job at its home hub has ended its run: results and the final trace sample are written (15 R429 step 6). -/
def State.writeResults (s : State) (j : Job) (final : Int) (moves : Nat) (bestState finalState : List Bool) : State :=
  let s := if j.phase == .running then s.endSlice j else s
  let s := s.traceSample j moves final j.sweeps
  let j := { j with phase := .writing, move := moves }
  let s := s.setJob { j with written := j.written + if j.spec.trace then 1 else 0 }
  (s.writeStream j.spec.results (resultStream j.bestEnergy final j.bestMove moves (lostMask j.lost) j.spec.spins bestState finalState)).nextJob
    j.spec.lattice

/-- A single-hub job ends its run. -/
def State.endSingle (s : State) (j : Job) : State := s.writeResults j j.energy j.move j.best j.spins

/-- The best state so far, after a move or at the start: lower energy only (15 R437). -/
def Job.keepBest (j : Job) : Job :=
  if j.energy < j.bestEnergy then { j with best := j.spins, bestEnergy := j.energy, bestMove := j.move } else j

/-- TARGET is reached. -/
def Job.onTarget (j : Job) : Bool := j.spec.target && decide (j.bestEnergy ≤ j.spec.targetEnergy)

/-- The time limit is exceeded. -/
def Job.overTime (j : Job) : Bool := j.spec.timeLimit != 0 && decide (j.spec.timeLimit * 64000000 < j.engineTime)

/-- One move of a single-hub job with the checks that follow it (15 R437, R438, R450). -/
def State.moveSingle (s : State) (j : Job) : State :=
  let k := j.moveOnce.keepBest
  let k := if k.move = (k.sweeps + 1) * k.spins.length then { k with sweeps := k.sweeps + 1 } else k
  let s := s.setJob k
  let s := if k.spec.trace ∧ k.move % k.spec.traceEvery = 0 then s.traceSample k k.move k.energy j.sweeps else s
  let k := if k.spec.trace ∧ k.move % k.spec.traceEvery = 0 then { k with written := k.written + 1 } else k
  let boundary := k.sweeps ≠ j.sweeps
  if k.onTarget then s.endSingle { k with stop := some 1 }
  else if boundary ∧ specSweeps k.spec ≤ k.sweeps then s.endSingle k
  else if boundary ∧ k.overTime then s.endSingle { k with stop := some 2 }
  else s

/-! ### Strips (15 R447–R449) -/

/-- The first row of strip k. -/
def firstRow (j : JobSpec) (k : Nat) : Nat := (j.parts.take k).foldl (fun n p => n + p.2) 0

/-- Rows of strip k. -/
def stripRows (j : JobSpec) (k : Nat) : Nat := ((j.parts[k]?).map Prod.snd).getD 0

/-- The hub of strip k. -/
def stripHub (j : JobSpec) (k : Nat) : Nat := ((j.parts[k]?).map Prod.fst).getD 255

/-- A strip holds both halos of a sweep (15 R448). -/
def Job.halosHeld (j : Job) (sweep : Nat) : Bool :=
  let k := j.strip.getD 0
  (k == 0 || decide (sweep ≤ j.haloAbove)) && (decide (j.spec.parts.length ≤ k + 1) || decide (sweep ≤ j.haloBelow))

/-- Strip k as this hub admits it: coefficients with the row above, its rows with those of its neighbours. -/
def stripJob (home b r : Nat) (desc : BitVec 32) (k : Nat) (spec : JobSpec) (coef : List Int) (init : List Bool) : Job :=
  let n := stripRows spec k * spec.cols
  let up := if k = 0 then 0 else spec.cols
  let own := (init.drop up).take n
  { home := home, bench := b, ring := r, desc := desc, strip := some k, spec := spec, phase := .ready, store := 0, coef := coef
    spins := own, best := own, bestEnergy := 0, bestMove := 0, move := 0, sweeps := 0, written := 0, engineTime := 0
    above := init.take up, below := init.drop (up + n), haloAbove := 0, haloBelow := 0
    nextAbove := init.take up, nextBelow := init.drop (up + n), snaps := [], reports := [], returned := [], lost := [], stop := none }

/-- What strip k takes of a job's state: its rows with the rows next to it. -/
def stripInit (spec : JobSpec) (k : Nat) (l : List Bool) : List Bool :=
  let first := firstRow spec k
  let up := if k = 0 then 0 else 1
  (l.drop ((first - up) * spec.cols)).take ((stripRows spec k + up + 1) * spec.cols)

/-- What strip k takes of a job's coefficients: its records and those of the row above. -/
def stripCoef (spec : JobSpec) (k : Nat) (l : List Int) : List Int :=
  (l.drop (5 * spec.cols * firstRow spec k)).take (5 * spec.cols * (stripRows spec k + 1))

/-- A message for a strip: to its hub, or to this one. -/
def State.toStrip (s : State) (spec : JobSpec) (k : Nat) (m : EnvanMsg) (here : State → State) : State :=
  if stripHub spec k = s.hubId then here s else s.sendHub (stripHub spec k) m

/-- A strip takes over the halos of its last sweep, which the next sweep holds fixed (15 R448). -/
def Job.exchange (j : Job) : Job := { j with above := j.nextAbove, below := j.nextBelow }

/-- A strip takes the boundary row of its neighbour for its next sweep; once it holds both halos of its last sweep it may go on (15 R448). -/
def State.takeHalo (s : State) (j : Job) (source sweep : Nat) (first last : List Bool) : State :=
  let k := j.strip.getD 0
  let j := if source + 1 = k ∧ j.haloAbove < sweep then { j with nextAbove := last, haloAbove := sweep }
    else if source = k + 1 ∧ j.haloBelow < sweep then { j with nextBelow := first, haloBelow := sweep } else j
  let j := if j.phase = .barrier ∧ j.halosHeld j.sweeps ∧ j.sweeps < specSweeps j.spec then { j.exchange with phase := .ready } else j
  (s.setJob j).nextJob true

/-- A strip records its state of a boundary as its best. -/
def State.stripBest (s : State) (j : Job) (sweep : Nat) : State :=
  match j.snaps.find? fun e => e.1 == sweep with
  | some e => s.setJob { j with best := e.2, snaps := j.snaps.filter fun x => decide (sweep ≤ x.1) }
  | none => s

/-- A multi-hub job whose strips have all returned, or been lost, writes its results. -/
def State.gather (s : State) (j : Job) : State :=
  let k := j.spec.parts.length
  if j.phase ≠ .gathering ∨ ¬ ((List.range k).all fun i => j.lost.contains i || j.returned.any fun x => x.strip == i) then s else
  let rows := fun (f : StripState → List Bool) => (List.range k).flatMap fun i =>
    match j.returned.find? fun x => x.strip == i with
    | some x => if j.lost.contains i then List.replicate (stripRows j.spec i * j.spec.cols) false else f x
    | none => List.replicate (stripRows j.spec i * j.spec.cols) false
  s.writeResults j (match j.reports.head? with
    | some x => x.energy
    | none => j.bestEnergy) (j.sweeps * j.spec.spins) (rows StripState.best) (rows StripState.final)

/-- A strip's states reach the home hub. -/
def State.stripReturn (s : State) (b r k : Nat) (best final : List Bool) : State :=
  match s.jobOf s.hubId b r none with
  | none => s
  | some j =>
    if j.phase ≠ .gathering then s else
    let j := { j with returned := j.returned.filter (fun x => x.strip != k) ++ [⟨k, best, final⟩] }
    (s.setJob j).gather j

/-- A strip's run ends at a boundary: its best and final states go to the home hub, and it leaves the Burl (15 R449). -/
def State.stripStop (s : State) (j : Job) (sweep : Nat) : State :=
  let final := ((j.snaps.find? fun e => e.1 == sweep).map Prod.snd).getD j.spins
  let k := j.strip.getD 0
  let s := s.dropJob j
  if j.home = s.hubId then s.stripReturn j.bench j.ring k j.best final
  else s.sendHub j.home (.stripState j.home j.bench j.ring k (s.placeIncarn j.home j.bench) j.best final)

/-- The strips of a job are told to end at a boundary, and their states are awaited (15 R449, R450). -/
def State.stopStrips (s : State) (j : Job) (sweep : Nat) (energy : Int) : State :=
  let j := { j with phase := .gathering, sweeps := sweep, reports := [⟨0, sweep, [], [], energy⟩] }
  let inc := (s.bench j.bench).incarn
  let s := s.setJob j
  let s := (List.range j.spec.parts.length).foldl (fun s k =>
    if j.lost.contains k then s else
    s.toStrip j.spec k (.stripStop j.bench inc j.ring k sweep) fun s =>
      match s.jobOf s.hubId j.bench j.ring (some k) with
      | some x => s.stripStop x sweep
      | none => s) s
  match s.jobOf s.hubId j.bench j.ring none with
  | some j => s.gather j
  | none => s

/-- Energy of a whole multi-hub job at a boundary, each interface counted once (15 R448). -/
def Job.boundaryEnergy (j : Job) (l : List StripReport) : Int :=
  let row := fun k => l.find? fun x => x.strip == k
  (List.range j.spec.parts.length).foldl (fun e k =>
    match row k, row (k + 1) with
    | some a, some b => e + a.energy - rowBelow j (firstRow j.spec (k + 1)) a.last b.first
    | some a, none => e + a.energy
    | none, _ => e) 0

/-- The home hub judges the next boundary of a multi-hub job once every strip has reported it: best, target, trace and time limit (15 R448–R450). -/
def State.judge (s : State) (j : Job) : State :=
  let sweep := j.sweeps + 1
  let now := j.reports.filter fun x => x.sweep == sweep
  let n := j.spec.parts.length
  if j.phase ≠ .barrier ∨ ¬ ((List.range n).all fun k => now.any fun x => x.strip == k) then s else
  let e := j.boundaryEnergy now
  let most := (j.spec.parts.map fun p => p.2 * j.spec.cols).foldl max 0
  let better := e < j.bestEnergy
  let j := { j with
    sweeps := sweep, move := sweep * j.spec.spins, reports := j.reports.filter fun x => x.sweep != sweep
    engineTime := sweep * most * 256, bestEnergy := if better then e else j.bestEnergy
    bestMove := if better then sweep * j.spec.spins else j.bestMove }
  let j := { j with reports := ⟨255, sweep, [], [], e⟩ :: j.reports.filter fun x => x.strip != 255 }
  let s := s.setJob j
  let inc := (s.bench j.bench).incarn
  let s := if ¬ better then s else (List.range n).foldl (fun s k =>
    s.toStrip j.spec k (.best j.bench inc j.ring k sweep) fun s =>
      match s.jobOf s.hubId j.bench j.ring (some k) with
      | some x => s.stripBest x sweep
      | none => s) s
  let sampled := j.spec.trace ∧ sweep % j.spec.traceEvery = 0
  let s := if sampled then s.traceSample j j.move e (sweep - 1) else s
  let j := if sampled then { j with written := j.written + 1 } else j
  if j.onTarget then s.stopStrips { j with stop := some 1 } sweep e
  else if specSweeps j.spec ≤ sweep then s.stopStrips j sweep e
  else if j.overTime then s.stopStrips { j with stop := some 2 } sweep e
  else s

/-- A report reaches the home hub. -/
def State.report (s : State) (b r source sweep : Nat) (first last : List Bool) (energy : Int) : State :=
  match s.jobOf s.hubId b r none with
  | none => s
  | some j =>
    let j := { j with reports := j.reports ++ [⟨source, sweep, first, last, energy⟩] }
    (s.setJob j).judge j

/-- The boundary rows of a strip go to the strips next to it and to the home hub (15 R448). -/
def State.sendHalo (s : State) (j : Job) : State :=
  let k := j.strip.getD 0
  let first := rowOf j.spec.cols j.spins 0
  let last := rowOf j.spec.cols j.spins (j.rows - 1)
  let e := j.energy
  let inc := s.placeIncarn j.home j.bench
  let one := fun (s : State) (i : Nat) => s.toStrip j.spec i (.halo j.home j.bench j.ring inc i k j.sweeps first last e) fun s =>
    match s.jobOf j.home j.bench j.ring (some i) with
    | some x => s.takeHalo x k j.sweeps first last
    | none => s
  let s := if k = 0 then s else one s (k - 1)
  let s := if j.spec.parts.length ≤ k + 1 then s else one s (k + 1)
  if j.home = s.hubId then s.report j.bench j.ring k j.sweeps first last e
  else s.sendHub j.home (.halo j.home j.bench j.ring inc 255 k j.sweeps first last e)

/-- One move of a strip; at the end of an anneal sweep its rows are sent, and it waits at the barrier unless it holds both halos (15 R448). -/
def State.moveStrip (s : State) (j : Job) : State :=
  let k := j.moveOnce
  if k.move ≠ (k.sweeps + 1) * k.spins.length then s.setJob k else
  let k := { k with sweeps := k.sweeps + 1, snaps := k.snaps ++ [(k.sweeps + 1, k.spins)] }
  let waits := ¬ k.halosHeld k.sweeps ∨ specSweeps k.spec ≤ k.sweeps
  let s := if waits then (s.endSlice k).setJob { k with phase := .barrier } else s.setJob k.exchange
  (s.sendHalo k).nextJob true

/-! ### Admission, loading, ends (15 R429, R430, R450, R451) -/

/-- Bytes of the tenant store that resident dense jobs take. -/
def State.storeUsed (s : State) : Nat := s.jobs.foldl (fun n j => if j.phase == .admission then n else n + j.store) 0

/-- A hub may run a strip: this one, or a chartered member (15 Table 7). -/
def State.hubAvailable (s : State) (h : Nat) : Bool :=
  if h = s.hubId then true else
  match s.cascade.charter with
  | some c => c.members.getLsbD h && !c.lost.getLsbD h && c.members.getLsbD s.hubId
  | none => false

/-- A strip is beyond this hub's lattice engine. -/
def State.latticeStripTooBig (s : State) (j : JobSpec) (k : Nat) : Bool :=
  decide (latticeSpins s.big < stripRows j k * j.cols) || decide (latticeCols s.big < j.cols) || s.lattice.outOfService

/-- A job waiting at step 3 is admitted where its engine is in service, no earlier one of that engine waits, and the store has room. -/
def State.admitJob (s : State) (j : Job) : State :=
  let lattice := j.spec.lattice
  let first := (s.jobs.find? fun x => x.spec.lattice == lattice && x.phase == .admission).map fun x => x.same j
  if first ≠ some true ∨ (s.engine lattice).outOfService ∨ (¬ lattice ∧ denseStore s.big < s.storeUsed + j.store) then s
  else (s.setJob { j with phase := .load }).addTally 0x07 (s.jobOwner j) lattice.toNat j.ring

/-- A multi-hub job ends before any boundary, with DETAIL `stop` (15 Table 7): its best and final state are the initial state where that is held, with its energy once it has been loaded; an energy that nothing gives is open, and strips whose state is not held are marked lost. -/
def State.endUnrun (s : State) (j : Job) (stop : Nat) : State :=
  if j.phase = .barrier then s.writeResults { j with stop := some stop } j.bestEnergy 0 j.spins j.spins else
  let init := if j.spec.initRandom then
      (List.range j.spec.parts.length).flatMap fun k => (List.range (stripRows j.spec k * j.spec.cols)).map (randomSpin j.spec.seed k)
    else List.replicate j.spec.spins false
  let (a, s) := s.draw
  let (b, s) := s.draw
  let e := signed 128 (a.toNat + 2 ^ 64 * b.toNat)
  let lost := if j.spec.initRandom then j.lost else List.range j.spec.parts.length
  s.writeResults { j with stop := some stop, bestEnergy := e, lost := lost } e 0 init init

/-- The strips of a job are abandoned on every hub. -/
def State.endStrips (s : State) (j : Job) : State :=
  let inc := (s.bench j.bench).incarn
  let s := (List.range j.spec.parts.length).foldl (fun s k =>
    if stripHub j.spec k = s.hubId then s else s.sendHub (stripHub j.spec k) (.stripEnd j.bench inc j.ring k)) s
  (s.jobs.filter fun x => x.home == s.hubId && x.bench == j.bench && x.ring == j.ring && x.strip.isSome).foldl State.dropJob s

/-- Step 3 of an ANNEAL: a hub named that cannot run its strip ends the job with HUBS_UNAVAILABLE; a job with strips elsewhere waits for the bench's registration (15 R429, R450; 16 R479). -/
def State.tryAdmit (s : State) (j : Job) (refused : List Nat) : State :=
  if j.spec.parts.any fun p => refused.contains p.1 || !s.hubAvailable p.1 then s.endUnrun j 4
  else if j.spec.parts.any (fun p => p.1 != s.hubId) ∧ ¬ s.cascade.spanning.contains j.bench then s
  else s.admitJob j

/-- The loaded job starts its run: a whole job, or its strips (15 R429 step 5, R447). -/
def State.runJob (s : State) (j : Job) (coef init : List Byte) : State :=
  let spec := j.spec
  let start := fun k n => (List.range n).map (randomSpin spec.seed k)
  let zeros : List Int := if spec.lattice then List.replicate (5 * spec.cols) 0 else []
  let cs := zeros ++ coefsOf spec.width (specCoefs spec) coef
  if spec.parts.isEmpty then
    let st := if spec.initRandom then start 0 spec.spins else unpackSpins spec.spins init
    let j := { j with coef := cs, spins := st, best := st, phase := .ready }
    let j := { j with bestEnergy := j.energy }
    let s := s.setJob j
    if j.onTarget then s.endSingle { j with stop := some 1 } else s.nextJob spec.lattice
  else
    let n := spec.parts.length
    let st := if spec.initRandom then (List.range n).flatMap fun k => start k (stripRows spec k * spec.cols) else unpackSpins spec.spins init
    let j := { j with coef := cs, spins := st, phase := .barrier }
    let j := { j with bestEnergy := j.energy }
    let s := s.setJob j
    let x := s.bench j.bench
    let s := (List.range n).foldl (fun s k =>
      s.toStrip spec k (.strip j.bench x.incarn x.classId x.limits.rateCap j.ring k spec (coefBytes spec.width (stripCoef spec k cs)) (stripInit spec k st)) fun s =>
        s.addJob (stripJob s.hubId j.bench j.ring j.desc k spec (stripCoef spec k cs) (stripInit spec k st))) s
    if j.onTarget then s.stopStrips { j with stop := some 1 } 0 j.bestEnergy else s.nextJob true

/-- The ANNEAL of a ring is abandoned on every hub, with nothing written (15 R451). -/
def State.abandonAnneal (s : State) (b r : Nat) : State :=
  match s.jobOf s.hubId b r none with
  | none => s
  | some j => (s.endStrips j).dropJob j

/-- Jobs with a strip on a lost hub end at the last boundary that every strip completed (15 Table 7 PARTNER_LOST). -/
def State.partnersLost (s : State) (hubs : List Nat) : State :=
  (s.jobs.filter fun j => j.home == s.hubId && j.strip.isNone && j.phase != .writing && j.spec.parts.any fun p => hubs.contains p.1).foldl (fun s j =>
    let lost := (List.range j.spec.parts.length).filter fun k => hubs.contains (stripHub j.spec k)
    let j := { j with lost := (j.lost ++ lost).eraseDups, stop := some 3 }
    if j.phase = .barrier then
      s.stopStrips j j.sweeps (((j.reports.find? fun x => x.strip == 255).map StripReport.energy).getD j.energy)
    else if j.phase = .gathering then (s.setJob j).gather j
    else s.endUnrun j 3) s

/-! ### The roster (16 R457, R462, R474, R479, R483) -/

/-- The hub issues the charter. -/
def State.isMaster (s : State) : Bool := s.cascade.state == .master

/-- A message to every other member of the charter. -/
def State.toMembers (s : State) (m : EnvanMsg) : State :=
  let members := (s.cascade.charter.map Charter.members).getD 0
  ((List.range 32).filter fun h => members.getLsbD h && h != s.hubId).foldl (fun s h => s.sendHub h m) s

/-- The master's roster changed: ROSTER_SEQ rises and an update goes to every member. -/
def State.setRoster (s : State) (l : List RosterEntry) : State :=
  match s.cascade.charter with
  | none => s
  | some c =>
    if c.roster = l then s else
    let c := { c with roster := l, rosterSeq := c.rosterSeq + 1 }
    ({ s with cascade := { s.cascade with charter := some c } }).toMembers (.rosterUpdate c.rosterSeq l)

/-- An entry of a bench put into a roster: its holders are kept. -/
def rosterPut (home b : Nat) (incarn : BitVec 16) (classId : Nat) (rateCap : BitVec 32) (l : List RosterEntry) : List RosterEntry :=
  match l.find? fun e => e.home == home && e.bench == b with
  | some _ => l.map fun e => if e.home = home ∧ e.bench = b then { e with incarn := incarn, classId := classId, rateCap := rateCap } else e
  | none => l ++ [⟨home, b, incarn, classId, 1#32 <<< home, rateCap⟩]

/-- The home hub tells the master of a spanning bench: its registration, or its new INCARN (16 R479, R483). -/
def State.tellMaster (s : State) (b : Nat) : State :=
  let x := s.bench b
  match s.cascade.charter with
  | none => s
  | some c =>
    if s.isMaster then s.setRoster (rosterPut s.hubId b x.incarn x.classId x.limits.rateCap c.roster)
    else s.sendHub c.master (.register b x.incarn x.classId x.limits.rateCap)

/-- A hub joins the holders of a bench whose guest it reports with the entry's incarnation. -/
def addHolder (hub : Nat) (guests : List (Nat × Nat × BitVec 16)) (l : List RosterEntry) : List RosterEntry :=
  l.map fun e => if guests.contains (e.home, e.bench, e.incarn) then { e with holders := e.holders ||| (1#32 <<< hub) } else e

/-- The spanning benches that this hub is home to, and the guests it holds. -/
def State.ownReport (s : State) : List (Nat × BitVec 16) × List (Nat × Nat × BitVec 16) :=
  (s.cascade.spanning.map fun b => (b, (s.bench b).incarn),
   s.cascade.guests.filterMap fun e => e.2.map fun g => (g.home, g.bench, g.incarn))

/-- The master takes a member's report: until the roster is settled it is kept for that; later it acknowledges the guests that it lists. -/
def State.takeReport (s : State) (hub : Nat) (homes : List (Nat × BitVec 16)) (guests : List (Nat × Nat × BitVec 16)) : State :=
  if s.cascade.reports.isEmpty then
    match s.cascade.charter with
    | some c => s.setRoster (addHolder hub guests c.roster)
    | none => s
  else { s with cascade := { s.cascade with reports := (s.cascade.reports.filter fun r => r.1 != hub) ++ [(hub, homes, guests)] } }

/-- The master is told what this hub holds. -/
def State.tellReport (s : State) : State :=
  let r := s.ownReport
  match s.cascade.charter with
  | none => s
  | some c => if s.isMaster then s.takeReport s.hubId r.1 r.2 else s.sendHub c.master (.rosterReport r.1 r.2)

/-! ### Guests (16 R457, R479–R483) -/

/-- The guest slot of a bench of another hub. -/
def State.guestSlot (s : State) (home b : Nat) : Option Nat :=
  (s.cascade.guests.find? fun e => (e.2.map fun g => g.home == home && g.bench == b).getD false).map Prod.fst

/-- The hub follows a charter that has it as a member, or issues it. -/
def State.chartered (s : State) : Bool := s.cascade.state == .chartered || s.cascade.state == .master

/-- A message of an incarnation that the guest does not have is discarded and counted (16 R457). -/
def State.staleMessage (s : State) : State := { s with cascade := { s.cascade with stale := s.cascade.stale + 1 } }

/-- A message of a bench carries the incarnation that this hub holds for it (16 R457). -/
def State.msgCurrent (s : State) (home b : Nat) (incarn : BitVec 16) : Bool :=
  if home = s.hubId then (s.bench b).state != .vacant && (s.bench b).incarn == incarn
  else match s.guestSlot home b with
    | some g => ((s.guest g).map fun x => x.incarn == incarn).getD false
    | none => false

/-- A bench of another hub is a guest: in its slot, or newly admitted to the lowest free one; none where its incarnation is stale or no slot is free (16 R480). -/
def State.admitGuest (s : State) (home b : Nat) (incarn : BitVec 16) (classId : Nat) (rateCap : BitVec 32) : Option Nat × State :=
  match s.guestSlot home b with
  | some g => (if s.msgCurrent home b incarn then some g else none, s)
  | none =>
    match lowestTag ((s.cascade.guests.filter fun e => e.2.isSome).map Prod.fst) 256 0 with
    | none => (none, s)
    | some g =>
      let modeD := ((s.findClass classId).map BenchClass.modeD).getD false
      let s := { s with headstock := { s.headstock with tablePages := s.headstock.tablePages + modeD.toNat } }
      (some g, ((s.setGuest g (some ⟨home, b, incarn, classId, rateCap, [], .fresh modeD, []⟩)).addTally 0x0E (256 + g) 0 g).tellReport)

/-- A range of a die begins its zero fill (05 R137). -/
def State.beginFill (s : State) (d off len : Nat) : State :=
  ({ s with zeroFill := s.zeroFill ++ [(d, off, len)] }).sendDie d (.zeroFill off len)

/-- Every grant of an owner on this hub's dies goes to zero fill. -/
def State.fillGrants (s : State) (l : List Grant) : State := l.foldl (fun s g => s.beginFill g.die g.offset g.length) s

/-- A guest is cut: its placements are stopped, its grants zero-filled, its tallies broken, its translations and table discarded, its strips dropped. With `keep` the slot stays for the new incarnation (16 R481, R483). -/
def State.cutGuest (s : State) (g : Nat) (keep : Option (BitVec 16)) : State :=
  match s.guest g with
  | none => s
  | some x =>
    let o := 256 + g
    let s := (s.placements.filter fun p => p.home == x.home && p.bench == x.bench).foldl (fun s p => s.stopPlacement p) s
    let s := (s.jobs.filter fun j => j.home == x.home && j.bench == x.bench).foldl (fun s j => s.dropJob j) s
    let s := (((s.dropAsked o).fillGrants x.grants).dropEntries fun e => e.bench == o).dropMisses o fun _ => true
    let s := { s with headstock := { s.headstock with walkCache := s.headstock.walkCache.filter fun e => e.bench != o } }
    let s := (s.endTallies o [0x07, 0x08, 0x0A, 0x10]).leaveArbiters o
    let root := if keep.isSome then x.modeD.present.toNat else 0
    let s := { s with headstock := { s.headstock with tablePages := s.headstock.tablePages - x.modeD.pages.length + root } }
    match keep with
    | some i => s.setGuest g (some { x with incarn := i, grants := [], modeD := .fresh x.modeD.present, unanswered := [] })
    | none => (s.setGuest g none).endTallies o [0x0E]

/-- An orphaned guest is discarded and logged (16 R474, R481). -/
def State.orphanGuest (s : State) (g : Nat) : State :=
  match s.guest g with
  | none => s
  | some x => (s.cutGuest g none).logError 7 2 (BitVec.ofNat 64 x.home) (BitVec.ofNat 64 x.bench)

end Sys2Proof.Machine
end

