-- ==== Sys2Proof/Machine/SealOps.lean ====
section
/-!
DEFINITION. Sealed streams: the parameter block, the checks of a frame, forwarding, frame events, closing (19 R533–R548).
-/

namespace Sys2Proof.Machine

/-! ### Opening (19 R533–R535) -/

/-- A power of two between two bounds. -/
def powerIn (n lo hi : Nat) : Bool := decide (lo ≤ n ∧ n ≤ hi) && n == 2 ^ n.log2

/-- The first offending field of a parameter block (19 Table 1). -/
def sealFailure (p : List Byte) : Option Nat :=
  let size := field p 0x08 4
  let slots := field p 0x0C 2
  let stamp := bits (field p 0x0E 1) 0 1 == 1
  let age := field p 0x18 4
  firstFailure [(0x00, field p 0 8 % size != 0), (0x08, !powerIn size 4096 (2 ^ 20)),
    (0x0C, !powerIn slots 2 256 || decide (2 ^ 24 < slots * size)), (0x0E, decide (1 < field p 0x0E 1)), (0x0F, field p 0x0F 1 != 0),
    (0x18, decide (60000000 < age) || (stamp && age != 0)), (0x1C, field p 0x1C 4 != 0)]

/-- The landing range meets that of another open stream of the bench. -/
def State.sealOverlaps (s : State) (b window span : Nat) : Bool :=
  s.streams.any fun e => e.2.isOpen && e.2.bench == b && decide (e.2.window < window + span) && decide (window < e.2.window + e.2.span)

/-- The first 4 KiB page of a landing range with no leaf meeting R301. -/
def State.unmappedPage (s : State) (b window span : Nat) : Option Nat :=
  (List.range (span / 4096)).findSome? fun k =>
    match s.peerWalk b (window + 4096 * k) with
    | .at _ _ _ => none
    | _ => some (window + 4096 * k)

/-- The handle of a stream. -/
def Stream.handle (x : Stream) (i : Nat) : Nat := i + 64 * x.gen

/-- Resource number of a stream's staging in its billet tally. -/
def stagingNumber (i : Nat) : Nat := 2 ^ 32 + i

/-- KiB of ledger memory that open streams' staging takes. -/
def State.stagingUsed (s : State) : Nat := s.streams.foldl (fun n e => if e.2.isOpen then n + e.2.span / 1024 else n) 0

/-- The lowest stream index that is not open. -/
def State.freeStream (s : State) : Option Nat := lowestTag ((s.streams.filter fun e => e.2.isOpen).map Prod.fst) 64 0

/-- A stream opened as its parameter block states, in the next generation of its index. -/
def openStream (gen b : Nat) (p : List Byte) : Stream :=
  { Stream.reset with
    isOpen := true, gen := if gen = 1023 then 1 else gen + 1, bench := b, window := field p 0 8, slotSize := field p 8 4
    slots := field p 0x0C 2, hubStamp := bits (field p 0x0E 1) 0 1 == 1, maxAge := field p 0x18 4
    expected := BitVec.ofNat 32 (field p 0x10 4), chain := BitVec.ofNat 32 (field p 0x14 4) }

/-! ### Checking a frame (19 R536–R539) -/

/-- Offset of a trailer in its slot. -/
def Stream.trailerAt (x : Stream) : Nat := x.slotSize - 32

/-- COUNTER of a frame. -/
def Stream.counterOf (x : Stream) (f : Frame) : BitVec 32 := BitVec.ofNat 32 (field f.bytes x.trailerAt 4)

/-- CHECK as it must be: over the payload and trailer bytes 0x00–0x13, TIMESTAMP taken as zero with HUB_STAMP. -/
def Stream.checkOf (x : Stream) (f : Frame) : Nat :=
  let t := x.trailerAt
  let tr := slice f.bytes t 0x14
  crc32c (f.bytes.take (field f.bytes (t + 4) 4) ++ if x.hubStamp then splice tr 8 (List.replicate 8 0) else tr)

/-- The outcome of a frame (19 Table 4). -/
def Stream.judge (x : Stream) (f : Frame) : FrameOutcome :=
  let t := x.trailerAt
  let k := x.counterOf f
  let d := (k - x.expected).toInt
  let stamp : Int := field f.bytes (t + 8) 8
  let arrival : Int := f.arrival
  let check := field f.bytes (t + 0x14) 4
  if t < field f.bytes (t + 4) 4 ∨ field f.bytes (t + 0x10) 4 ≠ 0 then .broken 1
  else if check ≠ x.checkOf f then .broken 2
  else if k.toNat % x.slots ≠ f.slot then .broken 4
  else if d < 0 then .stale 1
  else if arrival + 50000 < stamp then .broken 5
  else if x.maxAge ≠ 0 ∧ (x.maxAge : Int) * 1000 < arrival - stamp then .stale 2
  else if d = 0 ∧ field f.bytes (t + 0x18) 4 ≠ crc32c (leBytes 4 x.chain.toNat ++ leBytes 4 check) then .broken 3
  else if 0 < d then .gap d.toNat else .good

/-! ### Forwarding (19 R540) -/

/-- The pages of a slot translated again; or the CAUSE and offset of the first that R301 refuses. -/
def State.forwardPages (s : State) (b off : Nat) : Nat → List (Nat × Nat) ⊕ (Nat × Nat)
  | 0 => .inl []
  | n + 1 =>
    match s.peerWalk b off with
    | .at d o _ =>
      match s.forwardPages b (off + 4096) n with
      | .inl l => .inl ((d, o) :: l)
      | .inr e => .inr e
    | .refused cause => .inr (cause, off)
    | .miss => .inr (1, off)

/-- A payload written page by page; answers the numbers of the writes. -/
def State.forwardPayload (s : State) (b : Nat) : List (Nat × Nat) → List Byte → List Nat × State
  | [], _ => ([], s)
  | (d, o) :: r, y =>
    if y.isEmpty then ([], s) else
    let id := s.nextPut
    let s := s.askDie d (some b) false (.hubWrite (some id) o ((y.take 4096).map fun v => (v, true)))
    let (l, s) := s.forwardPayload b r (y.drop 4096)
    (id :: l, s)

/-- A frame judged fit is forwarded to the pages of its slot: its payload, and after that its trailer with OUTCOME set (19 R540). -/
def State.forwardFrame (s : State) (i : Nat) (f : Frame) (o : FrameOutcome) (pages : List (Nat × Nat)) : State :=
  let x := s.stream i
  let y := splice f.bytes (x.slotSize - 4) (leBytes 4 (if o = .good then 0 else 1))
  let (l, s) := s.forwardPayload x.bench pages (f.bytes.take (field f.bytes (x.trailerAt + 4) 4))
  let last := pages.getLast?.getD (0, 0)
  (s.modFrame i fun f => { f with bytes := y, outcome := some o, payload := l, target := (last.1, last.2 + 4064) }).sendTrailer i

/-! ### Frame events (19 R542–R545) -/

/-- CODE, DETAIL and RESULT that a frame gives in place of DONE (19 Table 5); `expected` is the counter of the first missing frame. -/
def frameNote (o : FrameOutcome) (k expected : BitVec 32) : Option (Nat × Nat × BitVec 64) :=
  match o with
  | .good => none
  | .gap n => some (0x51, min n 255, expected.setWidth 64)
  | .broken d => some (0x50, d, k.setWidth 64)
  | .stale d => some (0x52, d, k.setWidth 64)

/-- The descriptor was forwarded a frame that it may read. -/
def FrameOutcome.forwarded : FrameOutcome → Bool
  | .good | .gap _ => true
  | _ => false

/-- Code of an outcome as SEAL_STATUS shows it (22 Table 12). -/
def FrameOutcome.code : FrameOutcome → Nat
  | .good => 0
  | .gap _ => 1
  | .broken _ => 2
  | .stale _ => 3

/-- DETAIL of an outcome. -/
def FrameOutcome.detail : FrameOutcome → Nat
  | .good => 0
  | .gap n => min n 255
  | .broken d | .stale d => d

/-- A MODE_D operand 0 that lies wholly in slot 0 of the landing range is moved to the frame's slot (19 R544). -/
def rebase (x : Stream) (base : Nat) (k : BitVec 32) (y : List Byte) : List Byte :=
  let a := addrOf y 0
  let lo := base + x.window
  if selOf y 0 = 2 ∧ lo ≤ a ∧ a + extentOf y 0 ≤ lo + x.slotSize then
    splice y 0x10 (leBytes 8 (a + k.toNat % x.slots * x.slotSize))
  else y

/-- A frame fires a waiting descriptor (19 Table 5). -/
def State.fireFrameDesc (s : State) (b r i : Nat) (o : FrameOutcome) (k expected : BitVec 32) (d : Desc) : State :=
  let x := s.stream i
  if ¬ s.awaits b r (.stream (x.handle i)) d then s
  else if o.forwarded then
    (s.fireDesc b r d.count).modDesc b r d.count fun e => { e with
      bytes := rebase x (s.bench b).peer.base.toNat k e.bytes, sealNote := frameNote o k expected }
  else
    match frameNote o k expected with
    | some (c, dt, v) => s.endDesc b r d.count c dt 255 v
    | none => s

/-- A frame fires the waiting descriptors of a ring, in ring order. -/
def State.fireFrame (s : State) (b r i : Nat) (o : FrameOutcome) (k expected : BitVec 32) : State :=
  (s.ring b r).descs.foldl (fun s d => s.fireFrameDesc b r i o k expected d) s

/-- A frame is one edge for a ring paced by the stream, with what its frame gives (19 R545). -/
def State.edgeFrame (s : State) (b r i : Nat) (o : FrameOutcome) (k expected : BitVec 32) : State :=
  let before := (s.ring b r).edges
  let s := s.edgeRing b r (.stream ((s.stream i).handle i))
  if (s.ring b r).edges = before then s else s.modRing b r fun x => { x with edgeMarks := x.edgeMarks ++ [frameNote o k expected] }

/-- What SEAL_STATUS records of a frame event (19 R542). -/
def Stream.record (x : Stream) (o : FrameOutcome) (k : BitVec 32) (consumed : Bool) : Stream :=
  let x := { x with unconsumed := if consumed then x.unconsumed else x.unconsumed + 1 }
  let x := match o with
    | .good => { x with good := x.good + 1 }
    | .gap n => { x with gap := x.gap + 1, missing := x.missing + BitVec.ofNat 32 n }
    | .broken _ => { x with broken := x.broken + 1 }
    | .stale _ => { x with stale := x.stale + 1 }
  if o = .good then x
  else { x with lastCounter := k, lastOutcome := BitVec.ofNat 8 o.code, lastDetail := BitVec.ofNat 8 o.detail }

/-- The slot's bytes are discarded from staging (19 R541). -/
def Stream.discardSlot (x : Stream) (slot : Nat) : Stream :=
  { x with staging := x.staging.filter fun e => e.1 / x.slotSize != slot }

/-- The frame event of a stream's oldest captured frame (19 R541–R545): E and C advance where it was forwarded, a frame that was not leaves staging, its slot is released, descriptors fire and count it. -/
def State.frameDone (s : State) (i : Nat) (f : Frame) (o : FrameOutcome) : State :=
  let x := s.stream i
  let b := x.bench
  let k := x.counterOf f
  let consumed := s.consumes b (.stream (x.handle i))
  let s := s.modStream i fun x =>
    let x := { x with captured := x.captured.drop 1 }
    let x := if o.forwarded then
        { x with expected := k + 1, chain := BitVec.ofNat 32 (field f.bytes (x.trailerAt + 0x18) 4), forwarded := x.forwarded + 1 }
      else x.discardSlot f.slot
    x.record o k consumed
  (tabKeys (s.bench b).rings).foldl (fun s r => (s.edgeFrame b r i o k x.expected).fireFrame b r i o k x.expected) s

/-! ### Closing (19 R547, R548) -/

/-- A stream ends: its staging is released and its tally ends; its generation stays. -/
def State.endStream (s : State) (i : Nat) : State :=
  let x := s.stream i
  (s.modStream i fun x => { Stream.reset with gen := x.gen }).endTally 0x09 x.bench (stagingNumber i)

/-- A closing stream with no captured frame left closes, and its SEAL_CLOSE completes with E and the frames forwarded. -/
def State.settleClose (s : State) (i : Nat) : State :=
  let x := s.stream i
  match x.closing with
  | none => s
  | some r =>
    if ¬ x.captured.isEmpty then s else
    let s := s.endStream i
    match (s.ring x.bench r).descs.find? fun d => opOf d.bytes == 0x51 && d.phase == .started && d.status.isNone with
    | some d => s.endPlain x.bench r d 0x00 (BitVec.ofNat 64 (x.expected.toNat + 2 ^ 32 * min x.forwarded (2 ^ 32 - 1)))
    | none => s

/-- Every stream of a bench closes without completions (19 R548). -/
def State.closeStreams (s : State) (b : Nat) : State :=
  ((s.streams.filter fun e => e.2.isOpen && e.2.bench == b).map Prod.fst).foldl (fun s i => s.endStream i) s

end Sys2Proof.Machine
end

