-- ==== Sys2Proof/Machine/SweepOps.lean ====
section
/-!
DEFINITION. The sweep of a bench: freeze, settle, cut, drain, locks, reclaim, dispose (17 R492–R502; 05 R125–R129).
-/

namespace Sys2Proof.Machine

/-! ### Freeze and settle -/

/-- A descriptor of a bench that settles writes SWEPT: its fault ends, what it holds is let go, its status is fixed whatever it was (17 R495). -/
def State.sweepDesc (s : State) (b r : Nat) (d : Desc) : State :=
  let s := s.endDesc b r d.count 0x40 0 255 0
  (s.modDesc b r d.count fun d => { d with status := some ⟨0x40, 0, 255, 0⟩, sealNote := none }).advance b r d.count

/-- A descriptor has started. -/
def Desc.begun (d : Desc) : Bool := d.running || d.phase == .faulted || d.phase == .ending

/-- Step 2 begins: every started descriptor of the bench is to write SWEPT, in ring order; page requests are abandoned. -/
def State.settleBench (s : State) (b : Nat) : State :=
  let s := s.discardFaults fun f => f.bench == b
  (s.bench b).rings.foldl (fun s e => (e.2.descs.filter Desc.begun).foldl (fun s d => s.sweepDesc b e.1 d) s) s

/-- Every started descriptor of the bench has written its status. -/
def Bench.settled (x : Bench) : Bool := x.rings.all fun e => !e.2.descs.any Desc.begun

/-- A sweep begins (17 R492, R494, R495): a FORMING bench is swept when formation ends; a second cause can only make the disposition RELEASE, and an FLR ends step 2; bench 0 is never released (05 R129). `command`: COMMAND_DONE is due. -/
def State.startSweep (s : State) (b cause : Nat) (release command : Bool) : State :=
  let release := release && b != 0
  let x := s.bench b
  match x.state with
  | .vacant => s
  | .forming => { s with formingFlr := true }
  | .sweeping => s.modBench b fun x => { x with sweep := x.sweep.map fun w => { w with
      release := w.release || release, flr := w.flr || cause == 2, step := if cause = 2 ∧ w.step = .settle then .cut else w.step } }
  | _ =>
    let f := s.fnAt x.port x.fn
    let settle := (cause == 1 || cause == 4 || cause == 5) && !x.detached && !f.d3hot && f.busMaster
    let s := s.modBench b fun x => { x with
      state := .sweeping, sweepCause := BitVec.ofNat 3 cause, holdCause := 0
      sweep := some ⟨if settle then .settle else .cut, release, command, 0, [], cause == 2, s.now⟩ }
    let s := s.holdBench b
    if settle then s.settleBench b else s

/-- The step of a bench's sweep is this one. -/
def State.sweepAt (s : State) (b : Nat) (p : SweepStep) : Bool :=
  (s.bench b).state == .sweeping && ((s.bench b).sweep.map fun w => w.step == p).getD false

/-- The sweep record of a bench changed. -/
def State.modSweep (s : State) (b : Nat) (f : Sweep → Sweep) : State := s.modBench b fun x => { x with sweep := x.sweep.map f }

/-! ### The cut -/

/-- Writes of a bench issued and not yet acknowledged as 07 Table 10 states: write slots, and posted writes that left the port's queue with no flush read completed since (17 R499). -/
def State.writesOut (s : State) (b : Nat) : Nat :=
  let x := s.bench b
  let posted := x.rings.foldl (fun n e => e.2.descs.foldl (fun n d => n + d.hostWrites) n) 0
  let queued := ((s.port x.port).egress.filter fun t => t.bench == b && t.data).length
  s.benchWrites b + (posted - queued)

/-- A TLP that is never issued: the read slot that waits for a read, and the miss whose translation it asks for, are free again. -/
def State.unissue (s : State) (p : Nat) (t : EgressTlp) : State :=
  match t.owner with
  | none => s
  | some (.latheRead l _ n) => s.modLathe l fun x => { x with reads := x.reads.filter fun v => v.slot != n }
  | some (.flush _ _ l n) => s.modLathe l fun x => { x with reads := x.reads.filter fun v => v.slot != n }
  | some (.ats id) => { s with headstock := { s.headstock with misses := s.headstock.misses.filter fun m => m.id != id || !m.stale } }
  | some (.invFlush f i) =>
    s.modPort p fun x => { x with invalidates := x.invalidates.map fun q => if q.itag = i ∧ q.fn = f then { q with flush := false } else q }
  | some (.abortFlush b r) => s.modRing b r fun x => { x with flushing := false }

/-- Every queued TLP of a bench is discarded (17 R493). -/
def State.dropEgress (s : State) (b : Nat) : State :=
  let p := (s.bench b).port
  let gone := (s.port p).egress.filter fun t => t.bench == b
  let s := s.modPort p fun x => { x with egress := x.egress.filter fun t => t.bench != b }
  gone.foldl (fun s t => s.unissue p t) s

/-- The message is work of a bench of this hub, and not a command about it: a request of its lathes or cores, a part of its LAUNCH or ANNEAL. -/
def EnvanMsg.workOf (hub b : Nat) : EnvanMsg → Bool
  | .dataWrite _ _ x _ _ _ _ => x == b
  | .dataWriteMasked _ _ x _ _ _ _ => x == b
  | .dataRead _ _ x _ _ _ _ => x == b
  | .xltForward _ h x _ _ _ _ _ _ => h == hub && x == b
  | .band x _ _ _ _ _ _ _ _ _ _ _ _ => x == b
  | .bandMap x _ _ _ => x == b
  | .strip x _ _ _ _ _ _ _ _ => x == b
  | .halo h x _ _ _ _ _ _ _ _ => h == hub && x == b
  | .best x _ _ _ _ => x == b
  | .loadScr h x _ _ _ _ _ _ => h == hub && x == b
  | _ => false

/-- A message that waited for a route and is never sent: the slot of the request is free again. -/
def State.unsend (s : State) (m : EnvanMsg) : State :=
  match m with
  | .dataWrite l n _ _ _ _ _ => s.modLathe l fun x => { x with writes := x.writes.filter fun v => v.slot != n }
  | .dataWriteMasked l n _ _ _ _ _ => s.modLathe l fun x => { x with writes := x.writes.filter fun v => v.slot != n }
  | .dataRead l n _ _ _ _ _ => s.modLathe l fun x => { x with reads := x.reads.filter fun v => v.slot != n }
  | _ => s

/-- Work of a bench that waits for a route to another hub is discarded (17 R493). -/
def State.dropRouteless (s : State) (b : Nat) : State :=
  let gone := s.cascade.waiting.filter fun e => EnvanMsg.workOf s.hubId b e.2
  gone.foldl (fun s e => s.unsend e.2) { s with cascade := { s.cascade with waiting := s.cascade.waiting.filter fun e => !EnvanMsg.workOf s.hubId b e.2 } }

/-- Lathes at the cut (08 R243, R258): halted channels are neither replayed nor resumed; issued reads become chaff; a channel with issued writes is kept until they are acknowledged. -/
def State.cutLathes (s : State) (b : Nat) : State :=
  let s := (s.bench b).rings.foldl (fun s e => (s.abandonWork b e.1).releaseCut b e.1) s
  { s with lathes := s.lathes.map fun e => (e.1, { e.2 with
      halt := e.2.halt.map fun h => { h with
        items := h.items.filter fun i => i.bench != b
        replay := h.replay.filter fun i => i.bench != b
        sent := h.sent && !((h.replay.head?.map fun i => i.bench == b).getD false)
        halted := h.halted.filter fun q => q.2.1 != b }
      reserved := e.2.reserved.filter fun q => q.bench != b
      reads := e.2.reads.map fun u => if u.bench = b then { u with chaff := true } else u
      writes := e.2.writes.map fun u => if u.bench = b then { u with chaff := true } else u
      lastChannel := tabDel b e.2.lastChannel }) }

/-- The bench of the migration under way. -/
def Mig.bench (m : Mig) : Nat := field m.arg 0 1

/-- A migration of a swept bench ends at once with SWEPT (11 R342; 17 Table 4). -/
def State.cutMig (s : State) (b : Nat) : State :=
  if s.mig.busy ∧ s.mig.bench = b then { s with mig := { s.mig with busy := false, result := 9, stage := .idle, readers := [] } } else s

/-- The bench's work in the Headstock ends (10 R310). -/
def State.cutHeadstock (s : State) (b : Nat) : State :=
  let s := (s.discardFaults fun f => f.bench == b).dropMisses b fun _ => true
  let s := { s with headstock := { s.headstock with
    trackers := s.headstock.trackers.filter fun t => t.bench != b
    counts := s.headstock.counts.filter fun c => c.1 != b } }
  s.modBench b fun x => { x with invRing := { x.invRing with enable := false, token := none, barrier := [], unacked := [] } }

/-- Buffered peer writes are applied (12 R366). -/
def State.applyBuffered (s : State) (b : Nat) : State :=
  (s.bench b).peer.buffered.foldl (fun s w => s.applyPeer b (s.peerWalk b w.1)) (s.modPeer b fun x =>
    { x with buffered := x.buffered.map fun w => (w.1, w.2.1, true) })

/-- The loader, the Burl and the placements at the cut (14 R419; 15 R451; 17 Tables 1, 4). -/
def State.cutCores (s : State) (b : Nat) : State :=
  let s := (s.launches.filter fun l => l.bench == b).foldl (fun s l => (s.abandonLaunch b l.ring).freeLaunch b l.ring) s
  let s := (s.jobs.filter fun j => j.home == s.hubId && j.bench == b).foldl (fun s j => s.abandonAnneal b j.ring) s
  { s with
    placements := s.placements.map fun p =>
      if p.home = s.hubId ∧ p.bench = b then { p with lates := [], release := none, holdStart := none, holdLong := false } else p
    spindles := s.spindles.map fun e => (e.1, { e.2 with
      xlt := e.2.xlt.map fun q => if q.bench = b then { q with chaff := true } else q }) }

/-- Lines, timers, streams and billets of the bench are released without completions (08 R245, R248; 17 R506; 19 R548). -/
def State.cutHeld (s : State) (b : Nat) : State :=
  let s := ((s.events.filter fun e => e.2.holder == some b).map Prod.fst).foldl (fun s n => s.dropLine b n) s
  let s := (List.range 8).foldl (fun s k => s.dropTimer b k) s
  let s := s.closeStreams b
  ((s.recovery.billets.filter fun e => e.2.live && e.2.owner == b).map Prod.fst).foldl (fun s i => s.endBillet i) s

/-- The cut point (17 R494 step 3, R496 Table 4); BAR2 reads that dies have not answered complete as unmapped, and their data is discarded (13 R378). -/
def State.cutBench (s : State) (b : Nat) : State :=
  let s := (s.dropAsked b).dropRouteless b
  let writes := s.writesOut b
  let s := s.applyBuffered b
  let s := (s.dropEgress b).modPort (s.bench b).port fun x => { x with tags := x.tags.map fun t => if t.bench = b then { t with chaff := true } else t }
  let s := (((s.cutLathes b).cutHeadstock b).cutMig b).cutCores b
  let s := ((s.cutHeld b).dropVectors b).leaveArbiters b
  let s := s.modBench b fun x => { x with
    cutTime := s.now, incarn := x.incarn + 1, bucket := 0, notices := x.notices.discard
    trace := { x.trace with enable := false } }
  let s := s.modSweep b fun w => { w with step := .drain, writes := writes }
  let x := s.bench b
  let release := (x.sweep.map Sweep.release).getD false
  let s := (s.holdersOf b).foldl (fun s h => s.sendHub h (.remoteSweep b x.incarn release)) s
  let s := if s.cascade.spanning.contains b then s.tellMaster b else s
  let s := (s.bar2Reads.filter fun q => q.port == x.port && q.fn == x.fn).foldl State.bar2Lost s
  let s := s.stopBar2 x.port x.fn
  if (s.cascade.forwarded.map fun f => f.1 == b).getD false then
    ({ s with cascade := { s.cascade with forwarded := none } }).endCommand resBadState 0
  else s

/-! ### Drain, locks, reclaim -/

/-- The key is of a lathe's request, which holds a slot there. -/
def PortKey.ofLathe : PortKey → Bool
  | .lathe _ _ _ => true
  | _ => false

/-- Writes of the bench to dies of this hub that are not acknowledged: of its lathes, and those that the ports sent for its host, its peers, its cores and its engines; billet writes are taken by the ledger at once. -/
def State.dieWrites (s : State) (b : Nat) : Nat :=
  s.lathes.foldl (fun n e => n + (e.2.writes.filter fun u => u.bench == b && u.die.isSome).length) 0 +
    s.spindles.foldl (fun n e => n + (e.2.sent.filter fun u => u.bench == some b && u.blocks != 0 && !u.key.ofLathe).length) 0

/-- The locks of the bench can be taken: each is broken, or its whittler runs and ends its section (17 R489, R491). -/
def State.locksFree (s : State) (b : Nat) : Bool :=
  s.recovery.locks.all fun l => l.owner != benchOwner b || l.broken || !(s.whittler l.whittler).halted

/-- The journals of the bench's broken locks are undone by the taker (17 R491). -/
def State.takeLocks (s : State) (b : Nat) : State :=
  ({ s with recovery := { s.recovery with locks := s.recovery.locks.filter fun l => l.owner != benchOwner b } }).endTallies b [0x0F]

/-- Step 6 begins (17 R494, Table 1): placements are released, tallies broken, translations removed, the table emptied, die memory queued for zero fill. -/
def State.reclaim (s : State) (b : Nat) : State :=
  let mine := (s.placements.filter fun p => p.home == s.hubId && p.bench == b).map fun p => (p.home, p.bench, p.number)
  let s := mine.foldl (fun s p => s.releasePlacement b p.2.2) s
  let s := (s.breakTallies b [0x03, 0x04, 0x05]).endTallies b [0x06, 0x07, 0x08, 0x09, 0x0B, 0x0C, 0x0D, 0x10]
  let s := s.dropEntries fun e => e.bench == b
  let x := s.bench b
  let s := { s with headstock := { s.headstock with
    walkCache := s.headstock.walkCache.filter fun e => e.bench != b
    tablePages := s.headstock.tablePages - x.modeD.pages.length + x.modeD.present.toNat } }
  let s := s.fillGrants (x.grants.filter fun g => g.hub == 255)
  let s := s.modBench b fun x => { x with modeD := .fresh x.modeD.present, grants := [], regions := [] }
  s.modSweep b fun w => { w with step := .reclaim, placements := mine }

/-! ### Dispose -/

/-- A bench after a RESET sweep (05 R128; 21 R581; 22 R594 Table 3): bound as before, every other register at its reset value; a vector's MOD_FLOOR_NS interval runs on (05 R146). -/
def Bench.afterReset (x : Bench) : Bench :=
  { Bench.reset with
    state := .active, detached := x.detached, keep := x.keep, sweepCause := x.sweepCause, port := x.port, fn := x.fn
    classId := x.classId, ringCount := x.ringCount, incarn := x.incarn, token := x.token, deadline := x.deadline
    epoch := x.epoch, cutTime := x.cutTime, limits := x.limits, bar2Base := x.bar2Base
    notices := { NoticeQ.reset with seq := x.notices.seq, pending := x.notices.pending, lost := x.notices.lost, firstLost := x.notices.firstLost }
    msix := { Msix.reset with inFloor := x.msix.inFloor }
    attach := { Attach.reset with badTokens := x.attach.badTokens, lastBad := x.attach.lastBad }
    modeD := .fresh x.modeD.present
    rings := x.rings.map fun e => (e.1, { Ring.reset with context := e.2.context, clusterB := e.2.clusterB })
    bucket := fullBucket x.limits }

/-- Step 7 (17 R494, R499; 05 R128, R140): a channel whose writes to other hubs are not acknowledged waits for them (08 R243); the disposition, the SWEPT notices, COMMAND_DONE. -/
def State.dispose (s : State) (b : Nat) : State :=
  match (s.bench b).sweep with
  | none => s
  | some w =>
    let cause := (s.bench b).sweepCause.toNat
    let s := (s.bench b).rings.foldl (fun s e => if s.ringWrites b e.1 = 0 then s.giveUp b e.1 1 else s.drainChannel b e.1) s
    let writes := BitVec.ofNat 64 w.writes
    let s := if w.release then
        let s := (s.endTallies b [0x01, 0x02]).cancelDeadline (.reattach b)
        let pages := (s.bench b).modeD.pages.length
        let s := { s with
          headstock := { s.headstock with tablePages := s.headstock.tablePages - pages }
          cascade := { s.cascade with spanning := s.cascade.spanning.filter fun n => n != b } }
        let s := s.setBench b { Bench.reset with incarn := (s.bench b).incarn, token := (s.bench b).token }
        s.notice 0 0x04 cause noRing writes 2 b
      else
        let s := ((s.leaveArbiters b).modBench b Bench.afterReset).notice 0 0x04 cause noRing writes 1 b
        if b = 0 then s else s.notice b 0x04 cause noRing writes 1 b
    if ¬ w.command then s
    else if ¬ s.mailbox.busy then s.commandDone
    else if s.mailbox.code = 1 then
      (if w.release then s.endCommand resBadState 0 else s.endCommand resOk (s.bench b).token)
    else s.endCommand resOk 0

end Sys2Proof.Machine
end

