-- ==== Sys2Proof/Machine/AttachOps.lean ====
section
/-!
DEFINITION. Losing a host and its return: links that go down, detachment, the attach handshake with its modes, functions that may issue again (04 R91, R116, R120, R121; 12 R345–R357).
-/

namespace Sys2Proof.Machine

/-! ### The link goes down (04 R91, R116, R120; 12 R346) -/

/-- The flush read that an ABORTING ring waits for is over (06 R183). -/
def State.abortFlushed (s : State) (b r : Nat) : State := s.modRing b r fun x => { x with flushing := false }

/-- A request queued or outstanding on a lost port ends (12 Table 1): its slot is free; its ring stops at P and parks with cause HOST. -/
def State.endOwner (s : State) (chaff : Bool) (o : TagOwner) : State :=
  let slot := fun (l n : Nat) =>
    match (s.lathe l).reads.find? fun v => v.slot == n with
    | none => s
    | some v =>
      let s := (s.modLathe l fun x => { x with reads := x.reads.filter fun w => w.slot != n }).slotFreed l false n
      if v.chaff ∨ chaff then s else s.parkHost v.bench v.ring
  match o with
  | .latheRead l _ n => slot l n
  | .flush _ _ l n => slot l n
  | .ats id =>
    match s.missOf id with
    | some m => s.portLost m
    | none => s
  | .invFlush _ _ => s
  | .abortFlush b r => s.abortFlushed b r

/-- The knock lines of a bench are dropped with nothing sent; each ring reads the state given (04 R116; 06 R170). A ring that is REFUSED runs on doorbells and is not polled (R166). -/
def State.loseKnocks (s : State) (b : Nat) (k : KnockState) : State :=
  (s.bench b).rings.foldl (fun s e =>
    if ¬ e.2.knockEn ∨ e.2.state = .disabled ∨ e.2.knock = .off ∨ (k = .polling ∧ e.2.knock = .refused) then s
    else if e.2.disabling then (s.modRing b e.1 fun x => { x with knock := .off, retake := false, knockLine := none })
    else (s.modRing b e.1 fun x => { x with knock := k, retake := false, knockLine := none })) s

/-- Page requests of a bench are abandoned; its Mode S faults are POSTED again, as from the first step (11 R324). -/
def State.abandonPages (s : State) (b : Nat) : State :=
  let x := s.bench b
  let h := s.headstock
  { s with headstock := { h with
    pageReqs := h.pageReqs.map fun q => if q.port = x.port ∧ q.fn = x.fn then { q with fault := none } else q
    faults := h.faults.map fun e => (e.1, e.2.map fun f =>
      if f.bench = b ∧ ¬ f.modeD ∧ (f.state = .posted ∨ f.state = .priSent ∨ f.state = .retrying) then { f with state := .posted, successes := 0 } else f) } }

/-- A bench is detached, or loses its link again (12 R346, Table 1; 05 R130, R131): what needs the port stops; the rest is kept. Posted writes still queued go out after re-attach. -/
def State.detachBench (s : State) (b : Nat) : State :=
  let x := s.bench b
  if x.state = .vacant then s else
  let first := !x.detached
  let s := s.modBench b fun x => { x with
    detached := true, epoch := x.epoch + 1, attach := { x.attach with badTokens := 0 }, msix := { Msix.reset with inFloor := x.msix.inFloor } }
  let s := s.loseKnocks b .acquiring
  let s := (s.headstock.misses.filter fun m => m.bench == b && !m.modeD).foldl (fun s m => s.portLost m) s
  let s := (s.dropEntries fun e => e.bench == b && !e.modeD).abandonPages b
  if ¬ first then s else
  let s := s.startDeadline b
  s.notice 0 0x05 0 noRing (s.bench b).deadline (BitVec.ofNat 32 x.port) b

/-- The benches bound to functions of a port. -/
def State.portBenches (s : State) (p : Nat) : List Nat :=
  (s.benches.filter fun e => e.2.state != .vacant && e.2.port == p).map Prod.fst

/-- A port's link goes down (04 R91, R116, R120): configuration space at reset values, nothing outstanding, its benches detached. -/
def State.linkLost (s : State) (p : Nat) : State :=
  let old := s.port p
  let s := s.modPort p fun x => { Port.reset with
    trainFails := x.trainFails, perst := x.perst, peerBytes := x.peerBytes, unfit := x.unfit
    egress := x.egress.filter fun t => t.notice.isNone && match t.tlp with
      | .hostWrite _ _ _ _ _ => true
      | _ => false }
  let mine : Waiter → Bool := fun w =>
    match w with
    | Waiter.bar2Read q _ _ _ _ => q == p
    | Waiter.bar2Write q _ _ _ => q == p
    | _ => false
  let drop : Miss → Miss := fun m => { m with waiters := m.waiters.filter fun w => !mine w }
  let h := s.headstock
  let s := { s with
    fns := s.fns.filter fun e => e.1 / 64 != p
    bar2Reads := s.bar2Reads.filter fun q => q.port != p
    bar2Queue := s.bar2Queue.filter fun w => w.port != p
    hearth := { s.hearth with withheld := s.hearth.withheld.filter fun e => !(e.source == PorchSource.host p) }
    headstock := { h with misses := h.misses.map drop } }
  let s := old.tags.foldl (fun s u => s.endOwner u.chaff u.owner) s
  let s := (old.egress.filterMap EgressTlp.owner).foldl (fun s o => s.endOwner false o) s
  (s.portBenches p).foldl (fun s b => s.detachBench b) s

/-! ### Back on the port (04 R112, R121; 05 R152) -/

/-- The ring waits for its knock line with nothing asked for. -/
def State.knockDue (s : State) (b r : Nat) : Bool :=
  let x := s.ring b r
  x.knock == .acquiring && x.knockLine.isNone && !s.headstock.misses.any fun m => m.bench == b && m.waiters.contains (.ringAddr r)

/-- What waited for the bench's function goes on, where that may issue: rings PARKED with cause HOST, knock lines not yet asked for, pending vectors, page requests, translations. -/
def State.portBack (s : State) (b : Nat) : State :=
  if ¬ s.mayUsePort b then s else
  let s := (s.resumeHost b).flushVectors b
  let s := (tabKeys (s.bench b).rings).foldl (fun s r => if s.knockDue b r then s.takeKnock b r else s) s
  let s := (s.headstock.faults.filter fun e => (e.2.map fun f => f.bench == b && !f.modeD && f.state == .posted).getD false).foldl (fun s e => s.sendPri e.1) s
  ((tabKeys (s.bench b).rings).foldl (fun s r => s.pumpRing b r) s).pumpAts

/-! ### The attach handshake (12 R350–R354) -/

/-- The lock-out is in force (12 R352). -/
def State.lockedOut (s : State) (b : Nat) : Bool :=
  let a := (s.bench b).attach
  decide (8 ≤ a.badTokens) && (a.lastBad.map fun t => decide (s.now.toNat < t.toNat + 1000000)).getD false

/-- The checks of an ATTACH_CMD in the order of 12 Table 2; 0 where it is accepted. -/
def State.attachCheck (s : State) (b mode : Nat) (epoch : BitVec 32) : Nat :=
  let x := s.bench b
  let f := s.fnAt x.port x.fn
  if s.lockedOut b then 1
  else if ¬ x.detached then 2
  else if x.state = .sweeping then 3
  else if ¬ f.busMaster ∨ ¬ f.memSpace ∨ ¬ (s.port x.port).link.isUp then 4
  else if mode = 0 ∨ 3 < mode then 5
  else if epoch ≠ x.epoch then 6
  else if x.attach.token ≠ x.token then 7
  else if x.deadline ≠ 0 ∧ x.deadline.toNat ≤ s.now.toNat then 8
  else 0

/-- An ATTACH_CMD takes effect: RESULT, and ATTACH_TOKEN is 0 (22 R598). -/
def State.attachResult (s : State) (b result : Nat) : State :=
  s.modBench b fun x => { x with attach := { x.attach with token := 0, result := BitVec.ofNat 4 result } }

/-- An ATTACH_CMD is refused (12 R351, R352): a BAD_TOKEN is counted, and the eighth of an epoch is logged. -/
def State.attachRefuse (s : State) (b result : Nat) : State :=
  let s := s.attachResult b result
  if result ≠ 7 then s else
  let s := s.modBench b fun x => { x with
    counters := { x.counters with attachFail := x.counters.attachFail + 1 }
    attach := { x.attach with badTokens := x.attach.badTokens + 1, lastBad := some s.now } }
  if (s.bench b).attach.badTokens = 8 then s.logError 8 1 (BitVec.ofNat 64 b) ((s.bench b).epoch.setWidth 64) else s

/-- The detachment has stopped a descriptor: its ring is PARKED with cause HOST, or it waits for a page of the host (12 R353, R354 step 4). -/
def State.hostStopped (s : State) (b r : Nat) (d : Desc) : Bool :=
  ((s.ring b r).state == .parked && (s.ring b r).park == .host) ||
  s.headstock.faults.any fun e => (e.2.map fun f => f.bench == b && f.ring == r && f.desc == d.count && !f.modeD).getD false

/-- CLOSE (12 Table 3): of the descriptors that the detachment stopped, data-complete ones keep their outcome, every other started one ends with DETACHED, its fault discarded, its loader or Burl work abandoned. -/
def State.closeRing (s : State) (b r : Nat) : State :=
  let open_ := (s.ring b r).descs.filter fun d => d.begun && d.status.isNone && s.hostStopped b r d
  if open_.isEmpty then s else
  let counts := open_.map Desc.count
  let s := s.discardFaults fun f => f.bench == b && f.ring == r && counts.contains f.desc
  let s := open_.foldl (fun s d =>
    let s := if opOf d.bytes = 0x20 then s.abandonLaunch b r else s
    let s := if opOf d.bytes = 0x21 then s.abandonAnneal b r else s
    s.endDesc b r d.count 0x42 0 255 0) s
  s.unparkFault b r

/-- FRESH (12 Table 3): work abandoned, the ring DISABLED at register reset values. -/
def State.freshRing (s : State) (b r : Nat) : State :=
  let s := ((s.abandonRing b r).abandonLaunch b r).abandonAnneal b r
  s.modRing b r fun x => { Ring.reset with context := x.context, clusterB := x.clusterB }

/-- FRESH for the whole bench: nothing queued goes out, the notice queue is at reset values but for SEQ. -/
def State.freshBench (s : State) (b : Nat) : State :=
  let s := (tabKeys (s.bench b).rings).foldl (fun s r => s.freshRing b r) (s.dropEgress b)
  s.modBench b fun x =>
    let q := x.notices.discard
    { x with notices := { NoticeQ.reset with seq := q.seq, lost := q.lost, firstLost := q.firstLost } }

/-- An accepted ATTACH_CMD (12 R354): DETACHED clear, the mode applied, knock lines taken again, page requests sent again, ATTACHED. -/
def State.attachAccept (s : State) (b mode : Nat) : State :=
  let s := ((s.attachResult b 0).modBench b fun x => { x with detached := false, deadline := 0 }).cancelDeadline (.reattach b)
  let rings := tabKeys (s.bench b).rings
  let s := if mode = 3 then s.freshBench b
    else if mode = 2 then rings.foldl (fun s r => s.closeRing b r) s
    else s
  let s := rings.foldl (fun s r => if (s.ring b r).state = .disabled ∨ (s.ring b r).disabling then s else s.takeKnock b r) s
  let s := (s.portBack b).settleNotices b
  let port := BitVec.ofNat 32 (s.bench b).port
  let s := s.notice b 0x06 0 noRing 0 port b
  if b = 0 then s else s.notice 0 0x06 0 noRing 0 port b

/-- An ATTACH_CMD of a bench that its state lets through (22 R593): accepted, or refused. -/
def State.attachCmd (s : State) (b mode : Nat) (epoch : BitVec 32) : State :=
  let x := s.bench b
  if ¬ s.running then s
  else if x.state = .vacant then s.countHub
  else if x.state = .forming ∨ x.state = .sweeping then s.countBench b
  else
    let s := s.modBench b fun x => { x with attach := { x.attach with cmdLow := epoch } }
    let r := s.attachCheck b mode epoch
    if r = 0 then s.attachAccept b mode else s.attachRefuse b r

end Sys2Proof.Machine
end

