-- ==== Sys2Proof/Machine/HostPorts.lean ====
section
/-!
DEFINITION. Host ports: reset lines, training, link loss, resets, configuration, power states, egress, completions, vectors (04 R89–R121).
-/

namespace Sys2Proof.Machine

/-! ### Training (04 R89, R90) -/

/-- PERST_ASSERT (04 R89–R91, Table 10): a conventional reset: the link is down, the detect-retry timer stops. -/
def execPerstAssert (port : Nat) (s : State) : Result :=
  if s.nPorts ≤ port then .next s else
  let s := s.modPort port fun x => { x with perst := true }
  let s := { s with hearth := { s.hearth with detectRetry := tabDel port s.hearth.detectRetry } }
  .next (if (s.port port).link.isUp then s.linkLost port
    else s.modPort port fun x => { x with link := .down, width := 0, speed := 0 })

/-- The port's domain wakes for activity on its balls, once host ports are powered (03 R75). -/
def State.wakePort (s : State) (p : Nat) : State := if s.hostPhase then s.wakeFor (p + 1) else s

/-- PERST_DEASSERT (04 R89, R90; 03 R75): the port's domain wakes, and the port may train from Detect. -/
def execPerstDeassert (port : Nat) (s : State) : Result :=
  if s.nPorts ≤ port then .next s else
  .next (((s.modPort port fun x => { x with perst := false }).wakePort port).startDetect port)

/-- A port stops training: ABSENT, with its detect-retry timer running for 1 s (04 R90; 03 Table 1). -/
def State.absentPort (s : State) (p : Nat) : State :=
  let s := s.modPort p fun x => { x with link := .absent, retrying := false }
  { s with hearth := { s.hearth with detectRetry := tabSet p (some (s.now + 1000000)) s.hearth.detectRetry } }

/-- The port trains; a link in L0 or L1 may retrain in place (04 R89, R91). -/
def Port.trains (x : Port) : Bool :=
  x.link == .detect || x.link == .training || x.link == .recovery || x.link == .l0 || x.link == .l1

/-- Knock lines are dropped with nothing sent, and the rings poll (04 R116; 06 R170). -/
def State.cxlGone (s : State) (port : Nat) : State :=
  (s.portBenches port).foldl (fun s b => if (s.bench b).detached then s else s.loseKnocks b .polling)
    (s.modPort port fun x => { x with cxl := false })

/-- A training attempt fails (04 R89, R90): counted; a link that was up is lost; the fourth failure in succession, or that of the one attempt of a retry, makes the port ABSENT. -/
def State.trainFailed (s : State) (port : Nat) (cause : BitVec 3) : State :=
  let s := if (s.port port).link.isUp then s.linkLost port else s
  let s := s.modPort port fun x => { x with
    link := .detect, failCause := cause, trainFails := x.trainFails + 1, consecFails := min 4 (x.consecFails + 1) }
  if 4 ≤ (s.port port).consecFails ∨ (s.port port).retrying then s.absentPort port else s

/-- A link comes up, or has retrained (04 R89, R90, R116; 06 R165, R170): L0; with CXL the polling rings take their knock lines, without it those held are lost. -/
def State.trained (s : State) (port : Nat) (width speed : BitVec 3) (flit cxl refused : Bool) : State :=
  let s := if (s.port port).cxl ∧ ¬ cxl then s.cxlGone port else s
  let s := s.modPort port fun x => { x with
    link := .l0, width := width, speed := speed, flit := flit, cxl := cxl, consecFails := 0, retrying := false, l11 := false, l12 := false
    failCause := if refused then 6 else 0 }
  let s := { s with headstock := { s.headstock with pageReqs := s.headstock.pageReqs.filter fun q => q.port != port || q.fault.isSome } }
  (s.portBenches port).foldl (fun s b =>
    if (s.bench b).detached ∨ ¬ cxl then s
    else (s.bench b).rings.foldl (fun s e => if e.2.knock = .polling then s.takeKnock b e.1 else s) s) s

/-- LINK_TRAINING_DONE (04 R87, R89, R90, Table 3; 06 R170): a port trains while its PERST_N is deasserted and its domain ON. A partner of fewer than four lanes fails as NARROW, one at 64 GT/s without flit mode as FLIT_REQUIRED. -/
def execLinkTrainingDone (port : Nat) (result : TrainResult) (s : State) : Result :=
  if ¬ (s.port port).trains ∨ (s.port port).perst ∨ s.nPorts ≤ port ∨ ¬ s.domainOn (port + 1) then .next s else
  match result with
  | .up width speed flit cxl refused =>
    if width = 0 then .next (s.trainFailed port 3)
    else if speed = 6 ∧ ¬ flit then .next (s.trainFailed port 5)
    else .next (s.trained port width speed flit cxl refused)
  | .failed cause => .next (s.trainFailed port cause)

/-- DETECT_TIMEOUT (04 R90): no receiver for 24 ms. -/
def execDetectTimeout (port : Nat) (s : State) : Result :=
  if (s.port port).link ≠ .detect ∨ ¬ s.domainOn (port + 1) then .next s
  else .next ((s.modPort port fun x => { x with failCause := 1 }).absentPort port)

/-- DETECT_RETRY (04 R90; 03 R65, R68): the 1 s timer wakes an ABSENT port for one attempt. -/
def execDetectRetry (port : Nat) (s : State) : Result :=
  match tabGet s.hearth.detectRetry none port with
  | none => .next s
  | some t =>
    if s.now.toNat < t.toNat ∨ (s.port port).link ≠ .absent ∨ (s.port port).perst then .next s else
    let s := { s with hearth := { s.hearth with detectRetry := tabDel port s.hearth.detectRetry } }
    .next ((s.wake (port + 1)).modPort port fun x => { x with link := .detect, retrying := true })

/-! ### Link loss and resets (04 R91, R116, R118–R120) -/

/-- A link that is up goes down, and the port returns to Detect. -/
def State.dropLink (s : State) (p : Nat) : State :=
  if (s.port p).link.isUp then ((s.linkLost p).wakePort p).startDetect p else s

/-- LINK_DOWN (04 R91, R117): a fatal error that took the link down is logged on the PF. -/
def execLinkDown (port : Nat) (error : Option AerError) (s : State) : Result :=
  let up := (s.port port).link.isUp
  let s := s.dropLink port
  .next (match error with
    | some e => if up then s.aer port 0 e else s
    | none => s)

/-- HOT_RESET (04 R91, Table 10, R120). -/
def execHotReset (port : Nat) (s : State) : Result := .next (s.dropLink port)

/-- DPC_CONTAINMENT (04 R91, Table 10). -/
def execDpcContainment (port : Nat) (s : State) : Result := .next (s.dropLink port)

/-- CXL_LOST (04 R116; 06 R170): knock lines are dropped with nothing sent, and the rings poll. -/
def execCxlLost (port : Nat) (s : State) : Result :=
  .next (if (s.port port).cxl then s.cxlGone port else s)

/-- Configuration space of a function at reset values. -/
def State.resetFn (s : State) (p f : Nat) : State := { s with fns := tabDel (p * 64 + f) s.fns }

/-- The bench of a function is swept with cause FLR, its vectors' held messages discarded (04 R113, R118). -/
def State.flrBench (s : State) (b : Nat) : State := (s.dropVectors b).startSweep b 2 false false

/-- The VFs of a port vanish: configuration space reset, benches swept. -/
def State.flrVfs (s : State) (p : Nat) : State :=
  let s := { s.modPort p fun x => { x with vfEnable := false } with fns := s.fns.filter fun e => e.1 / 64 != p || e.1 % 64 == 0 }
  ((s.portBenches p).filter fun b => (s.bench b).fn != 0).foldl (fun s b => s.flrBench b) s

/-- FLR (04 R118 Table 10): a VF's bench, or with the PF every bench of the port. -/
def execFlr (port fn : Nat) (s : State) : Result :=
  if ¬ (s.port port).link.isUp ∨ ¬ s.fnEnabled port fn then .next s
  else if fn = 0 then
    let s := (s.flrVfs port).resetFn port 0
    let s := s.modPort port fun x => { x with numVfs := 0, mps := 0, mrrs := 0, relaxed := true, cto := 0, vfBars := List.replicate 3 0 }
    .next (((s.portBenches port).filter fun b => (s.bench b).fn == 0).foldl (fun s b => s.flrBench b) s)
  else
    match s.benchOf port fn with
    | none => .next (s.resetFn port fn)
    | some b => .next ((s.resetFn port fn).flrBench b)

/-- VF_ENABLE_CLEAR (04 Table 10). -/
def execVfEnableClear (port : Nat) (s : State) : Result :=
  .next (if (s.port port).vfEnable then s.flrVfs port else s)

/-- VF_COUNT of a port. -/
def State.totalVfs (s : State) (p : Nat) : Nat := (((s.chip.cfg.map ImageCfg.vfCount).getD [])[p]?).getD 0

/-- NUMVFS_WRITE (04 R92, Table 10): ignored while VF Enable is set; a value above TotalVFs is ignored too. -/
def execNumvfsWrite (port value : Nat) (s : State) : Result :=
  .next (if (s.port port).vfEnable ∨ s.totalVfs port < value then s else s.modPort port fun x => { x with numVfs := value })

/-! ### Configuration and power (04 R92, R106, R119, R121) -/

/-- The errors that AER knows, by bit (log entry 73). -/
def aerErrors : List AerError :=
  [.receiver, .badTlp, .badDllp, .replayTimeout, .replayRollover, .correctableFlit, .completionTimeout, .unexpectedCompletion,
   .unsupportedRequest, .poisonedTlp, .malformedTlp, .flowControl, .uncorrectableFlit]

/-- Address bits of BAR 0, 2 or 4 of a function, with its size (04 R95, R96 Table 5): 1 MiB on the management function, and on every VF of a port where that is a VF. -/
def State.barBits (s : State) (p f n : Nat) : Nat :=
  if n = 2 then 36 else if n = 4 then 34
  else if (p, f) = s.mgmtFn ∨ (p = s.mgmtFn.1 ∧ s.mgmtFn.2 ≠ 0 ∧ f ≠ 0) then 20 else 16

/-- A BAR register as it reads: its address above its size, 64-bit, BAR2 and BAR4 prefetchable. -/
def barReads (v : BitVec 64) (n bits : Nat) : BitVec 64 :=
  BitVec.ofNat 64 (v.toNat / 2 ^ bits * 2 ^ bits + if n = 0 then 0x4 else 0xC)

/-- A configuration field of a function (04 Tables 1, 4, 5). Enables stand one bit each in the order named. -/
def State.configRead (s : State) (p f : Nat) (r : ConfigReg) : BitVec 64 :=
  let x := s.fnAt p f
  let q := s.port p
  let n : Nat → BitVec 64 := BitVec.ofNat 64
  let flags : List Bool → BitVec 64 := fun l => n (fields (l.mapIdx fun i b => (i, b.toNat)))
  match r with
  | .vendorId => 0x1F3B
  | .deviceId => n ((if s.big then 0x5216 else 0x5208) + if f = 0 then 0 else 1)
  | .vfDeviceId => n (if s.big then 0x5217 else 0x5209)
  | .revisionId => 0xB0
  | .classCode => 0x120000
  | .subsystem => (Config.linksSubsystem ((s.chip.cfg.map ImageCfg.links).getD [])).setWidth 64
  | .bar i => barReads ((x.bars[i / 2]?).getD 0) i (s.barBits p f i)
  | .vfBar i => barReads ((q.vfBars[i / 2]?).getD 0) i (s.barBits p 1 i)
  | .totalVfs => n (s.totalVfs p)
  | .initialVfs => n (s.totalVfs p)
  | .numVfs => n q.numVfs
  | .vfControl => flags [q.vfEnable]
  | .firstVfOffset => 1
  | .vfStride => 1
  | .maxPayload => 512
  | .deviceControl => n (fields [(0, q.mps.toNat), (4, q.mrrs.toNat), (8, q.relaxed.toNat)])
  | .deviceControl2 => q.cto.setWidth 64
  | .linkStatus => n (fields [(0, q.speed.toNat), (4, q.width.toNat)])
  | .atsCap => 32
  | .atsControl => flags [x.atsEn]
  | .priCapacity => 256
  | .priControl => n (fields [(0, x.priEn.toNat), (32, x.priAlloc)])
  | .priStatus => flags [x.priFailure]
  | .pasidWidth => 20
  | .pasidControl => flags [x.pasidEn]
  | .msixSize => 32
  | .msixControl => flags [x.msixEn, x.msixMask]
  | .acsCap => 1
  | .aerStatus => flags (aerErrors.map fun e => x.aer.contains e)
  | .aerSeverity => flags (aerErrors.map fun e => x.fatal.contains e)
  | .pmCsr => flags [x.d3hot, x.pmeEn]
  | .command => flags [x.memSpace, x.busMaster]
  | .cxlCache => flags [f == 0 && q.cxl]
  | .cxlCacheKib => n (if f == 0 && q.cxl then 128 else 0)

/-- ATS is disabled: the bench's knock lines are given up, and its rings read REFUSED (04 R115). -/
def State.atsOff (s : State) (b : Nat) : State :=
  (s.bench b).rings.foldl (fun s e =>
    if e.2.knock = .held ∨ e.2.knock = .acquiring then (s.dropKnock b e.1).modRing b e.1 fun x => { x with knock := .refused } else s) s

/-- ATS is enabled: rings that were REFUSED for want of it take their knock lines (04 R115; 06 R166). -/
def State.atsOn (s : State) (b : Nat) : State :=
  (s.bench b).rings.foldl (fun s e => if e.2.knock = .refused then s.takeKnock b e.1 else s) s

/-- ATS Enable written. -/
def State.setAts (s : State) (p f : Nat) (on : Bool) : State :=
  let was := (s.fnAt p f).atsEn
  let s := s.modFn p f fun x => { x with atsEn := on }
  match s.benchOf p f with
  | none => s
  | some b => if was = on ∨ (s.bench b).detached then s else if on then s.atsOn b else s.atsOff b

/-- A configuration access applied. -/
def State.configure (s : State) (p f : Nat) (a : ConfigAccess) : State :=
  match a with
  | .read r => s.emit (.configData p f (s.configRead p f r))
  | .barWrite i v => s.modFn p f fun x => { x with bars := x.bars.set (i / 2) v }
  | .vfBarWrite i v => if f = 0 then s.modPort p fun x => { x with vfBars := x.vfBars.set (i / 2) v } else s
  | .memSpace on => s.modFn p f fun x => { x with memSpace := on }
  | .pasidEnable on => s.modFn p f fun x => { x with pasidEn := on }
  | .atsEnable on => s.setAts p f on
  | .priEnable on => s.modFn p f fun x => { x with priEn := on, priFailure := if on then false else x.priFailure }
  | .priAllocation n => s.modFn p f fun x => { x with priAlloc := n }
  | .priClear => s.modFn p f fun x => { x with priFailure := false }
  | .msix enable mask => s.modFn p f fun x => { x with msixEn := enable, msixMask := mask }
  | .pme on => s.modFn p f fun x => { x with pmeEn := on }
  | .deviceControl mps mrrs relaxed => if f = 0 then s.modPort p fun x => { x with mps := mps, mrrs := mrrs, relaxed := relaxed } else s
  | .completionTimeout v => if f = 0 then s.modPort p fun x => { x with cto := v } else s
  | .vfEnable => if f = 0 then s.modPort p fun x => { x with vfEnable := true } else s
  | .aerSeverity e fatal => s.modFn p f fun x => { x with fatal := if fatal then (if x.fatal.contains e then x.fatal else x.fatal ++ [e]) else x.fatal.erase e }
  | .aerClear => s.modFn p f fun x => { x with aer := [] }

/-- Configuration requests to the function complete with Request Retry Status: the sweep that its Function Level Reset asked for has not finished (04 R119). -/
def State.cfgRetry (s : State) (p f : Nat) : Bool :=
  match s.benchOf p f with
  | none => false
  | some b => ((s.bench b).state == .sweeping && ((s.bench b).sweep.map Sweep.flr).getD false) || (s.forming == some b && s.formingFlr)

/-- A function answers a configuration request: with the first, PHASE reaches RUNNING (02 Table 2) and the first scrub pass begins (18 R514). -/
def State.answered (s : State) : State :=
  if s.chip.phase ≠ .hosts then s else
  { s with
    chip := { s.chip with phase := .running }
    bg := { s.bg with scrubbing := true, position := 0, passStart := s.now, floor := false, runningAt := s.now, tested := [] } }

/-- CONFIG_REQUEST (04 R94, R117, R119; 17 R500): Request Retry Status while an FLR sweep runs; a function that does not exist is an Unsupported Request; what the access lets go on goes on. The first answer brings PHASE to RUNNING. -/
def execConfigRequest (port fn : Nat) (access : ConfigAccess) (s : State) : Result :=
  if ¬ (s.port port).link.isUp then .next s
  else if ¬ s.fnEnabled port fn then .next (s.aer port 0 .unsupportedRequest)
  else if s.cfgRetry port fn then .next (s.emit (.retryStatus port fn))
  else
    let s := s.answered.configure port fn access
    .next ((s.portBenches port).foldl (fun s b => s.portBack b) s)

/-- The function's bench goes on. -/
def State.fnBack (s : State) (p f : Nat) : State :=
  match s.benchOf p f with
  | some b => s.portBack b
  | none => s

/-- The function stops issuing requests: notices of its bench that are half written will be written again (05 R150). -/
def State.fnStops (s : State) (p f : Nat) : State := s.unwriteNotices p fun t => t.fn == f || s.benchOf p f == some t.bench

/-- POWER_STATE_CHANGE (04 R119, R121): a function in D3hot issues nothing; back in D0 its rings resume. A configuration write, it is retried while an FLR's sweep runs. -/
def execPowerStateChange (port fn : Nat) (d3hot : Bool) (s : State) : Result :=
  if ¬ (s.port port).link.isUp ∨ ¬ s.fnEnabled port fn then .next s
  else if s.cfgRetry port fn then .next (s.emit (.retryStatus port fn)) else
  let s := s.modFn port fn fun x => { x with d3hot := d3hot }
  let s := if d3hot then s.fnStops port fn else s.modPort port fun x => { x with wake := false }
  .next (s.fnBack port fn)

/-- BUS_MASTER_ENABLE_CHANGE (04 R119, R121). -/
def execBusMasterEnableChange (port fn : Nat) (enable : Bool) (s : State) : Result :=
  if ¬ (s.port port).link.isUp ∨ ¬ s.fnEnabled port fn then .next s
  else if s.cfgRetry port fn then .next (s.emit (.retryStatus port fn))
  else
    let s := s.modFn port fn fun x => { x with busMaster := enable }
    .next ((if enable then s else s.fnStops port fn).fnBack port fn)

/-- LINK_POWER_STATE_CHANGE (04 R121): L2 entered or left with PERST_N deasserted. -/
def execLinkPowerStateChange (port : Nat) (l2 : Bool) (s : State) : Result :=
  let x := s.port port
  if x.perst then .next s
  else if l2 then
    .next (if x.link = .l0 ∨ x.link = .l1 then (s.modPort port fun x => { x with link := .l2, l11 := false, l12 := false }).unwriteNotices port fun _ => true else s)
  else if x.link ≠ .l2 then .next s
  else
    let s := s.modPort port fun x => { x with link := .l0, wake := false }
    .next ((s.portBenches port).foldl (fun s b => s.portBack b) s)

/-- ASPM_L1_CHANGE (03 R68, R71; 04 Table 1): the link enters L1, L1.1 or L1.2 or leaves it; leaving wakes the port's domain. -/
def execAspmL1Change (port : Nat) (state : AspmState) (s : State) : Result :=
  let x := s.port port
  if state = .l0 then
    .next (if x.link = .l1 then (s.modPort port fun x => { x with link := .l0, l11 := false, l12 := false }).wake (port + 1) else s)
  else if x.link ≠ .l0 ∧ x.link ≠ .l1 then .next s
  else .next ((s.modPort port fun x => { x with link := .l1, l11 := state == .l11, l12 := state == .l12 }).stir (port + 1))

/-- HPn_CLKREQ_N is asserted: the link needs the reference clock (04 Table 1). -/
def Port.clkreq (x : Port) : Bool := x.link.isUp && !x.l11 && !x.l12

/-! ### Egress (04 R103; 05 R142, R144) -/

/-- The first TLP of each function's queue. -/
def firstOfFns : List EgressTlp → List Nat → List EgressTlp
  | [], _ => []
  | t :: r, seen => if seen.contains t.fn then firstOfFns r seen else t :: firstOfFns r (t.fn :: seen)

/-- The bench that a TLP is arbitrated under: work for no bench is the management bench's (04 R93). -/
def EgressTlp.payer (t : EgressTlp) : Nat := if t.bench = 256 then 0 else t.bench

/-- A completion answers the host; it is no request of the function (04 R121). -/
def EgressTlp.answers (t : EgressTlp) : Bool :=
  match t.tlp with
  | .completion _ _ _ _ _ => true
  | .invCompletion _ _ _ => true
  | _ => false

/-- A TLP at the head of its queue may go; a non-posted request needs a tag (01 R31). -/
def State.tlpReady (s : State) (p : Nat) (t : EgressTlp) : Bool :=
  if t.answers then (s.port p).link.isUp && (s.port p).link != .l2
  else s.fnMayIssue p t.fn && (t.bench == 256 || !(s.bench t.bench).detached) && (t.capped == 0 || (s.bench t.bench).rateOpen) &&
    (t.owner.isNone || (s.port p).tagFree)

/-- Data bytes that a TLP to the host carries. -/
def Out.hostBytes : Out → Nat
  | .hostWrite _ _ _ _ d => d.length
  | .completion _ _ _ _ d => d.length
  | _ => 0

/-- EGRESS_GRANT (04 R103; 05 R142–R144, R150): the bench served next by EGRESS_WEIGHT sends the TLP at the head of its function's queue. -/
def execEgressGrant (port : Nat) (s : State) : Result :=
  let heads := (firstOfFns (s.port port).egress []).filter (s.tlpReady port)
  match s.arbitrate (arbEgress port) (heads.map EgressTlp.payer).eraseDups with
  | (none, s) => .next s
  | (some b, s) =>
    match heads.find? fun t => t.payer == b with
    | none => .next s
    | some t =>
      let s := s.charge (arbEgress port) b t.size (s.qosOf b).egressWeight
      let s := if t.capped = 0 then s else s.rateCharge t.bench t.capped
      let s := s.modPort port fun x => { x with egress := x.egress.erase t }
      let (o, s) := s.tagOut port t
      let s := (s.countPerf (32 + 4 * port) t.tlp.hostBytes).emit o
      .next (if t.notice = some true then s.noticeDone t.bench else s)

/-! ### Completions (04 R102, R104, R105) -/

/-- The flush read of a descriptor has completed: every posted write that it followed has reached the host (04 R102). -/
def State.flushDone (s : State) (b r l n : Nat) (failed : Option Nat) : State :=
  match (s.lathe l).reads.find? fun v => v.slot == n with
  | none => s
  | some v =>
    let s := (s.modLathe l fun x => { x with reads := x.reads.filter fun w => w.slot != n }).slotFreed l false n
    if v.chaff then s.pumpLathe l else
    let s := s.modBench b fun x => if x.posted = some v.spa then { x with posted := none } else x
    let s := s.modDesc b r v.desc fun d => { d with
      hostWrites := d.hostWrites - d.covered, written := d.written.drop d.covered, covered := 0
      status := match failed, d.status with
        | some code, some st => if st.code = 0 then some ⟨code, 0, 255, d.flushAddr &&& ~~~3#64⟩ else some st
        | _, st => st }
    (s.advance b r v.desc).pumpLathe l

/-- The flush read of an invalidation has completed (04 R108). -/
def State.invFlushed (s : State) (p f i : Nat) : State :=
  s.modPort p fun x => { x with invalidates := x.invalidates.map fun q => if q.itag = i ∧ q.fn = f then { q with flush := false } else q }

/-- A tag's request has failed with a code of 06 Table 6. -/
def State.failTag (s : State) (p : Nat) (u : TagUse) (code : Nat) : State :=
  let s := s.freeTag p u.tag
  match u.owner with
  | .latheRead l _ n => s.failRead l n code 0 SlotUse.spa
  | .flush b r l n => s.flushDone b r l n (some code)
  | .ats id =>
    match s.missOf id with
    | none => s
    | some m => m.waiters.foldl (fun s w => s.failAts m w) (s.endMiss m)
  | .invFlush f i => s.invFlushed p f i
  | .abortFlush b r => s.abortFlushed b r

/-- HOST_COMPLETION (04 R102, R104, R105; 08 R241, R242; 17 R498): a tag is free, its data delivered or its descriptor ended with HOST_ERROR; chaff only frees what it held. -/
def execHostCompletion (port tag : Nat) (status : CplStatus) (data : List Byte) (s : State) : Result :=
  match s.tagUse port tag with
  | none => .next (s.aer port 0 .unexpectedCompletion)
  | some u =>
    let s := if status = .poisoned then s.aer port u.fn .poisonedTlp else s
    let s := s.portIn port data.length
    if status ≠ .ok then .next (s.failTag port u 0x20) else
    match u.owner with
    | .latheRead l _ n => .next ((s.freeTag port tag).deliver l n data)
    | .flush b r l n => .next ((s.freeTag port tag).flushDone b r l n none)
    | .ats _ => .next s
    | .invFlush f i => .next ((s.freeTag port tag).invFlushed port f i)
    | .abortFlush b r => .next ((s.freeTag port tag).abortFlushed b r)

/-- COMPLETION_TIMEOUT (04 R104, R107): the tag is free, AER records it on the function, the descriptor ends with HOST_TIMEOUT or its ATS equivalent. -/
def execCompletionTimeout (port tag : Nat) (s : State) : Result :=
  match s.tagUse port tag with
  | none => .next s
  | some u => .next ((s.aer port u.fn .completionTimeout).failTag port u 0x21)

/-! ### BARs of the host (04 R98; 12 Table 6) -/

/-- A BAR2 access, at its domains (03 R78). -/
def State.atBar2 (s : State) (p : Nat) (r : PorchRequest) (f : State → State) : State :=
  s.atDomain ⟨.host p, 7, PorchRequest.slots r 1, r⟩ f

/-- A BAR2 read served in its turn. -/
def State.serveBar2Read (s : State) (p f off len hid : Nat) : State := s.arrive p f (.read off len hid)

/-- A BAR2 write served in its turn; a poisoned one is discarded and logged (04 Table 9). -/
def State.serveBar2Write (s : State) (p f off : Nat) (data : List (Byte × Bool)) (poisoned relaxed : Bool) : State :=
  if poisoned then s.aer p f .poisonedTlp else s.arrive p f (.write off data relaxed)

/-- BAR2_READ (04 R97–R99; 09 R276). -/
def execBar2Read (port fn offset length hid : Nat) (s : State) : Result :=
  if ¬ s.decodes port fn ∨ 2 ^ 36 < offset + length then .next s else
  .next (s.atBar2 port (.bar2Read port fn offset length hid) fun s => s.serveBar2Read port fn offset length hid)

/-- BAR2_WRITE (04 R97–R99, R117; 09 R274). -/
def execBar2Write (port fn offset : Nat) (data : List (Byte × Bool)) (poisoned relaxed : Bool) (s : State) : Result :=
  if ¬ s.decodes port fn ∨ 2 ^ 36 < offset + data.length then .next s else
  .next ((s.portIn port data.length).atBar2 port (.bar2Write port fn offset data poisoned relaxed) fun s => s.serveBar2Write port fn offset data poisoned relaxed)

/-- BAR4_WRITE (01 R29; 12 R361, R363). -/
def execBar4Write (port fn offset requester : Nat) (data : List (Byte × Bool)) (poisoned relaxed : Bool) (s : State) : Result :=
  if ¬ s.decodes port fn ∨ 2 ^ 34 < offset + data.length then .next s else
  .next ((s.portIn port data.length).atBar2 port (.bar4Write port fn offset requester data poisoned relaxed) fun s => s.serveBar4Write port fn offset requester data poisoned relaxed)

/-- BAR4_READ (01 R29; 12 Table 6; 04 R117): Unsupported Request, logged, counted. -/
def execBar4Read (port fn hid : Nat) (s : State) : Result :=
  if ¬ s.decodes port fn then .next s else
  let s := (s.aer port fn .unsupportedRequest).complete port fn hid 0 .unsupportedRequest []
  .next (match s.benchOf port fn with
    | some b => s.count b fun c => { c with peerErr := c.peerErr + 1 }
    | none => s)

/-- ATOMICOP (04 R88, R117): Unsupported Request to any BAR. -/
def execAtomicop (port fn _bar hid : Nat) (s : State) : Result :=
  if ¬ s.decodes port fn then .next s else
  .next ((s.aer port fn .unsupportedRequest).complete port fn hid 0 .unsupportedRequest [])

/-! ### MSI-X (04 R111–R113; 22 R608) -/

/-- MSIX_MODERATION_EXPIRY (04 R112; 05 R146): the interval ends; a firing held in it sends its one message, or becomes pending. -/
def execMsixModerationExpiry (bench vector : Nat) (s : State) : Result :=
  let m := (s.bench bench).msix
  if 32 ≤ vector ∨ ¬ m.inFloor.getLsbD vector then .next s else
  let clear : BitVec 32 → BitVec 32 := fun v => v &&& ~~~(1#32 <<< vector)
  let s := s.modBench bench fun x => { x with msix := { x.msix with inFloor := clear x.msix.inFloor, heldMsg := clear x.msix.heldMsg } }
  .next (if m.heldMsg.getLsbD vector then s.fireVector bench vector else s)

/-- An MSI-X entry with one dword written. -/
def MsixEntry.put (e : MsixEntry) (dword : Nat) (v : BitVec 32) : MsixEntry :=
  match dword with
  | 0 => { e with addrLo := v &&& ~~~3#32 }
  | 1 => { e with addrHi := v }
  | 2 => { e with data := v }
  | 3 => { e with mask := v.getLsbD 0 }
  | _ => e

/-- One dword of an entry of the MSI-X table written: clearing MASK sends what is pending (04 R112). -/
def State.putMsix (s : State) (b vector dword : Nat) (value : BitVec 32) : State :=
  (s.modBench b fun x => { x with msix := { x.msix with
    table := tabSet vector ((tabGet x.msix.table .reset vector).put dword value) x.msix.table } }).flushVector b vector

/-- MSIX_ENTRY_WRITE (04 R112; 22 R593, R608; 12 R348): served while detached too; clearing MASK sends what is pending. -/
def execMsixEntryWrite (port fn vector dword : Nat) (value : BitVec 32) (s : State) : Result :=
  if ¬ s.decodes port fn then .next s else
  match s.benchOf port fn with
  | none => .next s.countHub
  | some b =>
    if (s.bench b).state = .forming ∨ (s.bench b).state = .sweeping then .next (s.countBench b)
    else if 32 ≤ vector ∨ 4 ≤ dword then .next (s.countBench b)
    else .next (s.putMsix b vector dword value)

end Sys2Proof.Machine
end

