-- ==== Sys2Proof/Machine/Benches.lean ====
section
/-!
DEFINITION. Benches: the command mailbox and what its commands do, die-memory grants, the notice queue (05; 21 R580; 22 R596, R597).
-/

namespace Sys2Proof.Machine

/-! ### FORM (05 R140) -/

/-- FORM accepted: the checks, then steps 2 and 3; DETACHED where the function's link is down (R130). -/
def State.formCmd (s : State) : State :=
  s.acceptCommand 1 fun s a =>
    let r := s.formCheck a
    if r ≠ resOk then s.endCommand r 0 else
    let s := { s.formReserve a.bench a.cls a.port a.fn a.rings a.limits a.bar2 (a.options % 2 == 1) with forming := some a.bench, formingFlr := false }
    if (s.port a.port).link.isUp then s else s.detachBench a.bench

/-- FORM (05 R138–R140). -/
def execForm (s : State) : Result := .next (s.fromMgmt State.formCmd)

/-- Everything reserved is returned, and the bench is VACANT (05 R126). -/
def State.unform (s : State) (b : Nat) : State :=
  let s := (s.endTallies b [0x01, 0x02]).cancelDeadline (.reattach b)
  s.setBench b { Bench.reset with incarn := (s.bench b).incarn, token := (s.bench b).token }

/-- FORMATION_DONE (05 R140): NO_LEDGER where no table page is left; ACTIVE with the token; or into a sweep whose cause arrived meanwhile. -/
def execFormationDone (s : State) : Result :=
  match s.forming with
  | none => .next s
  | some b =>
    let flr := s.formingFlr
    let s := { s with forming := none, formingFlr := false }
    if s.classHas b BenchClass.modeD ∧ Config.tablePages ≤ s.headstock.tablePages then .next ((s.unform b).endCommand resNoLedger 0)
    else
      let s := (s.formFinish b).modBench b fun x => { x with state := .active }
      .next (if flr then s.startSweep b 2 false true else s.endCommand resOk (s.bench b).token)

/-! ### SET_LIMITS and SET_KEEP (05 R132, R135, R144) -/

/-- The bucket under a new cap (05 R144). -/
def newBucket (level : Int) (old new : Nat) : Int :=
  if new = 0 then 0 else if old = 0 then bucketMax new else min level (bucketMax new)

/-- A bench holds more than new limits would allow (05 R135). -/
def State.limitsInUse (s : State) (b : Nat) (l : Limits) : Bool :=
  decide (l.dieMem.toNat < (s.bench b).dieMemHeld) || decide (l.cores.toNat < s.coresPlaced b) || decide (l.billet.toNat < s.billetHeld b)

/-- Limits a class allows; none without the class. -/
def State.limitsOverClass (s : State) (b : Nat) (l : Limits) : Bool := ((s.classOf b).map (limitsOver l)).getD true

/-- SET_LIMITS accepted: all five limits at once, or none. -/
def State.setLimitsCmd (s : State) : State :=
  s.acceptCommand 2 fun s a =>
    let r := s.commandCheck a [.active, .held]
    if r ≠ resOk then s.endCommand r 0
    else if s.limitsOverClass a.bench a.limits then s.endCommand resOverClass 0
    else if s.limitsInUse a.bench a.limits then s.endCommand resInUse 0
    else (s.modBench a.bench fun x => { x with
        limits := a.limits, bucket := newBucket x.bucket x.limits.rateCap.toNat a.limits.rateCap.toNat }).endCommand resOk 0

/-- SET_LIMITS (05 R135, R139). -/
def execSetLimits (s : State) : Result := .next (s.fromMgmt State.setLimitsCmd)

/-- A new value of KEEP (05 R132). -/
def State.putKeep (s : State) (b : Nat) (keep : Bool) : State :=
  let x := s.bench b
  if x.keep = keep then s
  else
    let s := s.modBench b fun x => { x with keep := keep }
    if ¬ x.detached then s else (s.cancelDeadline (.reattach b)).startDeadline b

/-- SET_KEEP accepted. -/
def State.setKeepCmd (s : State) : State :=
  s.acceptCommand 3 fun s a =>
    let r := s.commandCheck a [.active, .held]
    if r ≠ resOk then s.endCommand r 0
    else if ¬ s.classHas a.bench BenchClass.keepAllowed then s.endCommand resNotAllowed 0
    else (s.putKeep a.bench (a.options % 2 == 1)).endCommand resOk 0

/-- SET_KEEP (05 R132, R139). -/
def execSetKeep (s : State) : Result := .next (s.fromMgmt State.setKeepCmd)

/-! ### HOLD, RESUME, SWEEP (05 R126, R127; 14 R412, R418; 17 R492) -/

/-- A hold cause of Table 3 meets a bench: ACTIVE becomes HELD with every placement frozen and HELD notices; a second cause only counts. -/
def State.holdFor (s : State) (b cause : Nat) (address : BitVec 64) (core : BitVec 32) : State :=
  match (s.bench b).state with
  | .active =>
    let s := (s.modBench b fun x => { x with state := .held, holdCause := BitVec.ofNat 2 cause }).holdBench b
    let s := s.notice b 0x03 cause noRing address core b
    if b = 0 then s else s.notice 0 0x03 cause noRing address core b
  | .held => s.modBench b fun x => { x with counters := { x.counters with holdCause := x.counters.holdCause + 1 } }
  | _ => s

/-- HOLD accepted. -/
def State.holdCmd (s : State) : State :=
  s.acceptCommand 4 fun s a =>
    let r := if a.bench = 0 then resBadBench else s.commandCheck a [.active]
    if r ≠ resOk then s.endCommand r 0 else (s.holdFor a.bench 3 0 0xFFFFFFFF).endCommand resOk 0

/-- HOLD (05 R138, R139). -/
def execHold (s : State) : Result := .next (s.fromMgmt State.holdCmd)

/-- The bench hold ends: rings start descriptors again, placements with nothing else against them are released (14 R415, R418). -/
def State.endHold (s : State) (b : Nat) : State :=
  let s := s.modBench b fun x => { x with state := .active, holdCause := 0 }
  let mine := (s.placements.filter fun p => p.home == s.hubId && p.bench == b).map Placement.number
  mine.foldl (fun s n => s.tryRelease b n) s

/-- RESUME accepted. -/
def State.resumeCmd (s : State) : State :=
  s.acceptCommand 5 fun s a =>
    let r := s.commandCheck a [.held]
    if r ≠ resOk then s.endCommand r 0 else (s.endHold a.bench).endCommand resOk 0

/-- RESUME (05 R138, R139; 14 R418). -/
def execResume (s : State) : Result := .next (s.fromMgmt State.resumeCmd)

/-- SWEEP accepted: BUSY stays until the sweep ends. -/
def State.sweepCmd (s : State) : State :=
  s.acceptCommand 6 fun s a =>
    let release := a.options / 2 % 2 == 1
    let r := if a.bench = 0 ∧ release then resBadBench else s.commandCheck a [.active, .held]
    if r ≠ resOk then s.endCommand r 0 else s.startSweep a.bench 1 release true

/-- SWEEP (05 R138, R139; 17 R492). -/
def execSweep (s : State) : Result := .next (s.fromMgmt State.sweepCmd)

/-! ### Die-memory grants (05 R136, R137; 10 R309; 16 R482) -/

/-- 2 MiB. -/
def mib2 : Nat := 2 ^ 21

/-- A range may be granted or returned: on a die in the placement map (02 R37), 2 MiB aligned, a multiple of it and not empty, within 48 GiB. -/
def State.rangeOk (s : State) (d off len : Nat) : Bool :=
  decide (d < s.nDies) && s.dieMapped d && off % mib2 == 0 && len % mib2 == 0 && len != 0 && decide (off + len ≤ dieBytes)

/-- A grant and a range share a byte. -/
def Grant.meets (g : Grant) (d off len : Nat) : Bool :=
  g.die == d && decide (g.offset < off + len) && decide (off < g.offset + g.length)

/-- Some byte of a range of this hub's dies is held by a bench or a guest. -/
def State.rangeHeld (s : State) (d off len : Nat) : Bool :=
  s.benches.any (fun e => e.2.grants.any fun g => g.hub == 255 && g.meets d off len) ||
  s.cascade.guests.any fun e => (e.2.map fun x => x.grants.any fun g => g.meets d off len).getD false

/-- Some byte of a range is still being zero-filled. -/
def State.filling (s : State) (d off len : Nat) : Bool :=
  s.zeroFill.any fun z => z.1 == d && decide (z.2.1 < off + len) && decide (off < z.2.1 + z.2.2)

/-- What is left of a grant when a range is taken from it. -/
def Grant.cut (g : Grant) (d off len : Nat) : List Grant :=
  if ¬ g.meets d off len then [g] else
  (if g.offset < off then [{ g with length := off - g.offset }] else []) ++
  (if off + len < g.offset + g.length then [{ g with offset := off + len, length := g.offset + g.length - (off + len) }] else [])

/-- HUB names this hub. -/
def State.here (s : State) (hub : Nat) : Bool := hub == 255 || hub == s.hubId

/-- A grant taken by an owner on this hub: with its tally. -/
def State.takeGrant (s : State) (o d off len : Nat) : State :=
  let s := if o < 256 then s.modBench o fun x => { x with grants := x.grants ++ [⟨255, d, off, len⟩] }
    else s.setGuest (o - 256) ((s.guest (o - 256)).map fun g => { g with grants := g.grants ++ [⟨s.hubId, d, off, len⟩] })
  (s.stir (dieDomain d)).addTally 0x10 o d off

/-- The checks of GRANT_DIE_MEM on this hub, in the order of R136; `quota` and `held` are the bench's, on every hub. -/
def State.grantCheck (s : State) (d off len held quota : Nat) : Nat :=
  if ¬ s.rangeOk d off len ∨ s.rangeHeld d off len then resRange
  else if quota < held + len then resOverQuota else resOk

/-- A bench of this hub is to be known to the master as spanning sleds before its first remote act (16 R479). -/
def State.spanBench (s : State) (b : Nat) : State :=
  if s.cascade.spanning.contains b then s
  else ({ s with cascade := { s.cascade with spanning := s.cascade.spanning ++ [b] } }).tellMaster b

/-- The home is told the RESULT of a forwarded command (16 R482). -/
def State.answerGrant (s : State) (home r : Nat) : State := s.sendHub home (.remoteGrantResult (BitVec.ofNat 8 r))

/-- A command for die memory of another hub is forwarded to its holder (16 R482); one that no chartered member can take ends with RANGE. -/
def State.forward (s : State) (a : BenchArg) (giveBack : Bool) : State :=
  if ¬ s.chartered ∨ ¬ s.hubAvailable a.hub then s.endCommand resRange 0 else
  let s := s.spanBench a.bench
  let x := s.bench a.bench
  ({ s with cascade := { s.cascade with forwarded := some (a.bench, a.hub, giveBack, a.die, a.offset, a.length) } }).sendHub a.hub
    (.remoteGrant a.bench x.incarn x.classId x.limits.rateCap giveBack a.die a.offset a.length (x.limits.dieMem.toNat - x.dieMemHeld))

/-- GRANT_DIE_MEM runs, or runs again when a zero fill has ended. -/
def State.runGrant (s : State) (a : BenchArg) : State :=
  let r := s.commandCheck a [.active, .held]
  if r ≠ resOk then s.endCommand r 0
  else if ¬ s.here a.hub then s.forward a false
  else
    let r := s.grantCheck a.die a.offset a.length (s.bench a.bench).dieMemHeld (s.bench a.bench).limits.dieMem.toNat
    if r ≠ resOk then s.endCommand r 0
    else if s.filling a.die a.offset a.length then s
    else (s.takeGrant a.bench a.die a.offset a.length).endCommand resOk 0

/-- GRANT_DIE_MEM accepted. -/
def State.grantCmd (s : State) : State := s.acceptCommand 7 fun s a => s.runGrant a

/-- GRANT_DIE_MEM (05 R136, R137; 16 R482). -/
def execGrantDieMem (s : State) : Result := .next (s.fromMgmt State.grantCmd)

/-- The owner's pin list has an entry on the range (05 R136; 10 R298). -/
def State.pinnedIn (s : State) (o d off len : Nat) : Bool :=
  s.headstock.pins.any fun e => e.bench == o && e.onDie d off len

/-- A location of this hub lies on the range. -/
def Dest.onRange (x : Dest) (n d off len : Nat) : Bool :=
  match x with
  | .die e o => e == d && decide (o < off + len) && decide (off < o + n)
  | _ => false

/-- The owner has a request in flight to the range (10 R306, R309). -/
def State.busyIn (s : State) (o d off len : Nat) : Bool :=
  let lo := (spaOf d off).toNat
  let hit : SlotUse → Bool := fun u => u.bench == o && u.die == some d && decide (u.spa.toNat < lo + len) && decide (lo < u.spa.toNat + u.len)
  let x := s.bench o
  s.lathes.any (fun e => e.2.reads.any hit || e.2.writes.any hit) ||
  (decide (o < 256) && x.rings.any fun e => e.2.descs.any fun c => c.bursts.any fun u =>
    (u.dst.any fun w => w.2.2.onRange w.2.1 d off len) || u.reads.any fun q => q.data.isNone && q.src.onRange q.len d off len) ||
  s.spindles.any (fun e => e.2.xlt.any fun q => q.bench == o && q.target == d) ||
  (decide (o < 256) && s.bar2Reads.any fun q => q.port == x.port && q.fn == x.fn && q.die == d && decide (q.spa.toNat < lo + len) && decide (lo < q.spa.toNat + q.length)) ||
  (decide (o < 256) && s.bar2Writes.any fun q => q.port == x.port && q.fn == x.fn && q.die == d)

/-- A range leaves an owner's grants, and the translations to it with it (10 Table 8). -/
def State.cutRange (s : State) (o d off len : Nat) : State :=
  let s := if o < 256 then s.modBench o fun x => { x with grants := x.grants.flatMap fun g => if g.hub = 255 then g.cut d off len else [g] }
    else s.setGuest (o - 256) ((s.guest (o - 256)).map fun x => { x with grants := x.grants.flatMap fun g => g.cut d off len })
  let left := s.grantsOf o
  let s := (left.filter fun g => g.die == d).foldl (fun s g => if s.recovery.tallies.any (fun t => t.is 0x10 o g.offset && t.unit == d) then s else s.addTally 0x10 o d g.offset) s
  let s := { s with recovery := { s.recovery with tallies := s.recovery.tallies.filter fun t =>
    !(t.kind == 0x10 && t.owner == benchOwner o && t.unit == d) || left.any fun g => g.die == d && t.resource == BitVec.ofNat 64 g.offset } }
  s.dropEntries fun e => e.bench == o && e.onDie d off len

/-- The return under way: its range waits for the requests in flight to it. -/
def State.returning (s : State) : Option (Nat × Nat × Nat) :=
  let a := benchArg s.mailbox.arg
  if s.mailbox.busy ∧ s.mailbox.code = 8 ∧ s.cascade.forwarded.isNone ∧ s.zeroFill.contains (a.die, a.offset, a.length) then
    some (a.die, a.offset, a.length) else none

/-- A return completes once nothing is in flight to the range: the zero fill is sent. -/
def State.endReturn (s : State) : State :=
  let a := benchArg s.mailbox.arg
  if s.busyIn a.bench a.die a.offset a.length then s
  else (s.sendDie a.die (.zeroFill a.offset a.length)).endCommand resOk 0

/-- RETURN_DIE_MEM runs: the range leaves the bench's grants at once, and completes with its zero fill sent. -/
def State.runReturn (s : State) (a : BenchArg) : State :=
  let r := s.commandCheck a [.active, .held]
  if r ≠ resOk then s.endCommand r 0
  else if ¬ s.here a.hub then
    (if ¬ covered ((s.bench a.bench).grants.filter fun g => g.hub == a.hub) a.die 4096 a.offset a.length ∨ a.length = 0 then s.endCommand resRange 0
     else s.forward a true)
  else if ¬ s.rangeOk a.die a.offset a.length ∨ ¬ s.holds a.bench a.die a.offset a.length then s.endCommand resRange 0
  else if s.pinnedIn a.bench a.die a.offset a.length then s.endCommand resInUse 0
  else
    let s := s.cutRange a.bench a.die a.offset a.length
    ({ s with zeroFill := s.zeroFill ++ [(a.die, a.offset, a.length)] }).endReturn

/-- RETURN_DIE_MEM accepted. -/
def State.returnCmd (s : State) : State := s.acceptCommand 8 fun s a => s.runReturn a

/-- RETURN_DIE_MEM (05 R136, R137; 10 R309); sent again while one waits, the requests in flight are looked at again. -/
def execReturnDieMem (s : State) : Result :=
  .next (if s.returning.isSome then s.endReturn else s.fromMgmt State.returnCmd)

/-- A forwarded grant that waited for a zero fill of its range completes once none is left (05 R137; 16 R482); one whose guest is gone is dropped. -/
def State.grantWaited (s : State) (w : Nat × Nat × Nat × Nat × Nat × Nat) : State :=
  let (home, b, g, d, off, len) := w
  if s.filling d off len then s else
  let s := { s with cascade := { s.cascade with grantWaits := s.cascade.grantWaits.erase w } }
  if ¬ ((s.guest g).map fun x => x.home == home && x.bench == b).getD false then s
  else if ¬ s.rangeOk d off len ∨ s.rangeHeld d off len then s.answerGrant home resRange
  else (s.takeGrant (256 + g) d off len).answerGrant home resOk

/-- DIE_MEM_ZERO_FILL_DONE (05 R137): the range is free; a GRANT_DIE_MEM that waits for it completes. -/
def execDieMemZeroFillDone (die offset length : Nat) (s : State) : Result :=
  if s.returning = some (die, offset, length) ∨ ¬ s.zeroFill.contains (die, offset, length) then .next s else
  let s := { s with zeroFill := s.zeroFill.erase (die, offset, length) }
  let s := if s.mailbox.busy ∧ s.mailbox.code = 7 ∧ s.cascade.forwarded.isNone then s.runGrant (benchArg s.mailbox.arg) else s
  .next (s.cascade.grantWaits.foldl State.grantWaited s)

/-! ### Timeout of a detached bench (05 R131; 12 R356) -/

/-- REATTACH_DEADLINE_EXPIRY (05 R131, R132). -/
def execReattachDeadlineExpiry (bench : Nat) (s : State) : Result :=
  let x := s.bench bench
  if bench = 0 ∨ x.state = .vacant ∨ ¬ x.detached ∨ x.keep ∨ x.deadline = 0 ∨ s.now.toNat < x.deadline.toNat then .next s
  else .next (s.ownedBy 8 fun s => (s.cancelDeadline (.reattach bench)).startSweep bench 3 true false)

/-! ### The notice queue (05 R149–R152; 22 R596, R597) -/

/-- The 32 bytes of a notice: without PHASE, and the dword with it (05 Table 9). -/
def Notice.bytes (n : Notice) (phase : Bool) : List Byte × List Byte :=
  (leBytes 1 n.type ++ leBytes 1 n.cause ++ leBytes 2 n.ring ++ leBytes 4 n.seq.toNat ++ leBytes 8 n.time.toNat ++
    leBytes 8 n.arg0.toNat ++ leBytes 4 n.arg1.toNat,
   leBytes 4 (n.subject % 2 ^ 16 + (if phase then 2 ^ 31 else 0)))

/-- The notice written next, and the queue without it: one half written, whole again; the bench's own ATTACHED; an OVERFLOW made now; then SEQ order (05 R150, R152). -/
def NoticeQ.next (q : NoticeQ) (b : Nat) (now : BitVec 64) : Option (Notice × NoticeQ) :=
  match q.writing, q.pending.find? fun n => n.type == 0x06 && n.subject == b with
  | some n, _ => some (n, q)
  | none, some n => some (n, { q with pending := q.pending.erase n })
  | none, none =>
    if q.lost ≠ 0 then
      some (⟨0x10, 0, noRing, q.seq, now, q.firstLost.setWidth 64, BitVec.ofNat 32 q.lost, b⟩, { q with seq := q.seq + 1, lost := 0 })
    else
      match q.pending with
      | [] => none
      | n :: r => some (n, { q with pending := r })

/-- A notice of the bench may be written: the queue can take it, its function may issue, and none is being written. -/
def State.noticeOpen (s : State) (b : Nat) : Bool :=
  let x := s.bench b
  let q := x.notices
  x.goesOn && q.enable && (q.tail - q.head).toNat != q.size && s.mayUsePort b && !s.noticeQueued b && !s.structureHeld .notices b

/-- NOTICE_WRITE (05 R150, R152; 04 R103): the two writes of a notice join its function's queue, PHASE last; as the second is issued TAIL advances and vector 0 fires. -/
def execNoticeWrite (bench : Nat) (s : State) : Result :=
  if ¬ s.noticeOpen bench then .next s else
  match (s.bench bench).notices.next bench s.now with
  | none => .next s
  | some (n, q) =>
    let a := q.base.toNat + 32 * (q.tail.toNat % q.size)
    let w := n.bytes q.phase
    let s := s.modBench bench fun x => { x with notices := { q with writing := some n } }
    .next ((s.egressNotice bench false a w.1).egressNotice bench true (a + 28) w.2)

/-- A write of NOTICE_HEAD served (22 R596). -/
def State.putNoticeHead (s : State) (b : Nat) (v : BitVec 32) : State :=
  let q := (s.bench b).notices
  if q.enable ∧ (q.tail - v).toNat ≤ q.size then s.modBench b fun x => { x with notices := { x.notices with head := v } } else s.countBench b

/-- NOTICE_HEAD_WRITE (22 R596). -/
def execNoticeHeadWrite (bench : Nat) (value : BitVec 32) (s : State) : Result := .next (s.served bench fun s => s.putNoticeHead bench value)

/-- NOTICE_ENABLE (22 R597). -/
def execNoticeEnable (bench : Nat) (s : State) : Result := .next (s.served bench fun s => s.putNoticeCtrl bench true)

/-- NOTICE_DISABLE (22 R597). -/
def execNoticeDisable (bench : Nat) (s : State) : Result := .next (s.served bench fun s => s.putNoticeCtrl bench false)

end Sys2Proof.Machine
end

