-- ==== Sys2Proof/Machine/Migration.lean ====
section
/-!
DEFINITION. Migration of Mode D leaves between host memory and die memory (11 R339–R344; 21 Table 17).
-/

namespace Sys2Proof.Machine

/-- DIRECTION of the migration is TO_DIE. -/
def Mig.toDie (m : Mig) : Bool := field m.arg 1 1 == 1
/-- First byte of the range. -/
def Mig.dva (m : Mig) : Nat := field m.arg 0x08 8
/-- Bytes of the range. -/
def Mig.length (m : Mig) : Nat := field m.arg 0x10 8
/-- First destination frame. -/
def Mig.first (m : Mig) : Nat := field m.arg 0x18 8
/-- Where the count of leaves is written. DESIGN CHOICE (log entry 83): DONE_ADDR is 4-byte aligned (11 R339), and Table 5 names no outcome for another value; its two low bits are dropped. -/
def Mig.doneAddr (m : Mig) : Nat := field m.arg 0x20 8 / 4 * 4

/-- BAD_ARGS of a migration (11 Table 5). -/
def State.migBadArgs (s : State) : Bool :=
  let m := s.mig
  let d := field m.arg 1 1
  !(d == 1 || d == 2) || m.dva % 4096 != 0 || m.length % 4096 != 0 || decide (2 ^ 30 < m.length) || decide (2 ^ 48 < m.dva + m.length) ||
  m.first % 4096 != 0 || decide (2 ^ 52 < m.first + m.length) || (s.bench m.bench).state == .vacant || !s.classHas m.bench BenchClass.modeD

/-- A migration ends with a RESULT. -/
def State.migEnd (s : State) (result : BitVec 4) : State :=
  { s with mig := { s.mig with busy := false, result := result, stage := .idle, readers := [] } }

/-- The first check that a leaf fails, in the order of 11 Table 5; 0 where it passes. A CONTIG run is one leaf of 64 KiB (log). -/
def State.migCheck (s : State) (level e : Nat) : BitVec 4 :=
  let m := s.mig
  let z := leafSize level e
  if entTarget e ≠ (if m.toDie then 1 else 0) then 3
  else if entPin e then 4
  else if entPeer e then 5
  else if 21 < z ∨ m.leaf % 2 ^ z ≠ 0 ∨ m.dva + m.length < m.leaf + 2 ^ z then 6
  else if m.toDie ∧ (¬ s.dieMapped (m.dest / 2 ^ 36) ∨ ¬ s.holds m.bench (m.dest / 2 ^ 36) (m.dest % 2 ^ 36) (2 ^ z)) then 7
  else if m.dest % 2 ^ z ≠ 0 then 1 else 0

/-- The leaf at the cursor is read afresh, checked and closed to writes; past the last one the migration is done, and DONE_ADDR is written (11 R340, R343). -/
def State.migLeaf (s : State) : State :=
  let m := s.mig
  if m.dva + m.length ≤ m.leaf then (s.migEnd 0).mgmtWrite m.doneAddr (leBytes 4 m.index)
  else
    match (s.tableOf m.bench).leaf m.leaf with
    | none => s.migEnd 2
    | some (level, e) =>
      let r := s.migCheck level e
      if r ≠ 0 then s.migEnd r
      else { s with mig := { s.mig with stage := .copying, leafSize := leafSize level e, readers := [] } }

/-- START written to MIG_CMD (11 R339; 21 R573). -/
def State.startMig (s : State) : State :=
  if s.mig.busy then s.countHub else
  let s := ({ s with mig := { s.mig with busy := true, result := 0, index := 0, leaf := s.mig.dva, dest := s.mig.first } }).stir 8
  if s.migBadArgs then s.migEnd 1
  else if (s.bench s.mig.bench).state = .sweeping then s.migEnd 9
  else s.migLeaf

/-- MIG_START (11 R339, R340 steps 1 and 2). -/
def execMigStart (s : State) : Result := .next (s.fromMgmt State.startMig)

/-- Writes of the bench under the leaf are acknowledged, and its reads under it have been issued: the copy may end (11 R340 steps 2 and 4). -/
def State.migQuiet (s : State) : Bool :=
  let m := s.mig
  let b := m.bench
  let hit : SlotUse → Bool := fun u => u.bench == b && u.modeD && decide (u.va < m.leaf + 2 ^ m.leafSize) && decide (m.leaf < u.va + u.len)
  !(s.lathes.any fun e => e.2.writes.any hit) &&
  (s.bench b).rings.all fun e => e.2.descs.all fun d => d.bursts.all fun u =>
    !s.burstClosed b d u && (!d.touches 2 m.leaf (2 ^ m.leafSize) || u.reads.all fun q => q.slot.isSome || q.data.isSome)

/-- Read slots that were issued under the leaf. -/
def State.migReaders (s : State) : List (Nat × Nat) :=
  let m := s.mig
  let hit : SlotUse → Bool := fun u => u.bench == m.bench && u.modeD && decide (u.va < m.leaf + 2 ^ m.leafSize) && decide (m.leaf < u.va + u.len)
  s.lathes.flatMap fun e => (e.2.reads.filter hit).map fun u => (e.1, u.slot)

/-- An entry with its new frame and Target: V, W, LEAF, CNT, the software bits, and CONTIG of a run stay. -/
def migEntry (e : BitVec 64) (toDie : Bool) (frame : Nat) : BitVec 64 :=
  (e &&& 0xFF000000000000DB#64) ||| BitVec.ofNat 64 frame ||| (if toDie then 0#64 else 1#64 <<< 52)

/-- A run of level 1 entries from page `n` on rewritten. -/
def migRun (t : ModeD) (toDie : Bool) (page frame : Nat) : Nat → ModeD
  | 0 => t
  | n + 1 => migRun (t.put 1 (page * 4096) (migEntry (BitVec.ofNat 64 (t.entry 1 (page * 4096))) toDie frame)) toDie (page + 1) (frame + 4096) n

/-- The leaf rewritten in the bench's table. -/
def State.migRewrite (s : State) : State :=
  let m := s.mig
  s.modTable m.bench fun t =>
    if m.leafSize = 21 then t.put 2 m.leaf (migEntry (BitVec.ofNat 64 (t.entry 2 m.leaf)) m.toDie m.dest)
    else migRun t m.toDie (m.leaf / 4096) m.dest (2 ^ m.leafSize / 4096)

/-- A page of the leaf that is copied: in host memory or on a die. -/
def migPlace (die : Bool) (frame : Nat) : Dest := if die then .die (frame / 2 ^ 36) (frame % 2 ^ 36) else .host frame

/-- Bytes written to the host memory of a bench, in posted writes of at most its port's MPS (04 R100). -/
def State.hostBytes (s : State) (b addr : Nat) : Nat → List Byte → State
  | 0, _ => s
  | n + 1, l =>
    let k := s.unit b (.host addr) true - addr % s.unit b (.host addr) true
    if l.isEmpty then s
    else (s.benchWrite b addr ⟨(s.port (s.bench b).port).relaxed, false⟩ (l.take k)).hostBytes b (addr + k) n (l.drop k)

/-- Where the leaf at the cursor lies now. -/
def State.migFrame (s : State) : Nat := (((s.tableOf s.mig.bench).leaf s.mig.leaf).map fun e => entFrame e.2).getD 0

/-- The reads of the leaf's page, 4 KiB at a time. -/
def State.migReads (s : State) : State :=
  let m := s.mig
  let o : Operand := ⟨0, 0, 2, 0, m.leaf, 2 ^ m.leafSize, false⟩
  (List.range (2 ^ m.leafSize / 4096)).foldl (fun t k => t.loadPage m.bench o 4096 (migPlace (!m.toDie) (s.migFrame + 4096 * k))) s

/-- The writes of the leaf's page to its new place. -/
def State.migWrites (s : State) (data : List Byte) : State :=
  let m := s.mig
  if m.toDie then s.loadBytes (m.dest / 2 ^ 36) m.bench (m.dest % 2 ^ 36) (data.length / 4096 + 2) data
  else s.hostBytes m.bench m.dest (data.length / 128 + 2) data

/-- MIG_LEAF_COPY_DONE (11 R340 steps 3 and 4, R342): the page is read and written within RATE_CAP, where a read of the host has a tag, and its bytes count against the bench at both its weights, those of posted writes as they leave the port; the leaf is rewritten and its cached entry removed; an error ends the migration under the old translation. -/
def execMigLeafCopyDone (result : FetchResult) (s : State) : Result :=
  let m := s.mig
  if m.stage ≠ .copying ∨ s.structureHeld .table m.bench ∨ ¬ s.migQuiet ∨ ¬ (s.bench m.bench).rateOpen ∨ (m.toDie ∧ ¬ (s.port (s.bench m.bench).port).tagFree) then .next s else
  match result with
  | .ok data =>
    let b := m.bench
    let n := 2 ^ m.leafSize
    let s := s.migReads.migWrites (slice data 0 n)
    let s := s.engineCharge b (s.ring b 0).clusterB n
    let s := if m.toDie then s.charge (arbEgress (s.bench b).port) b n (s.qosOf b).egressWeight else s
    let readers := s.migReaders
    let s := s.migRewrite.dropEntries fun e => e.bench == b && e.modeD && e.overlaps m.leaf n
    .next { s with mig := { s.mig with stage := .draining, readers := readers } }
  | _ => .next (s.migReads.migEnd 8)

/-- MIG_WANTED is cleared in every region record that the page touches. -/
def unwant (base n : Nat) (t : Tab (Option Region)) : Tab (Option Region) :=
  let f : Nat → Option Region → Option Region := fun k o =>
    if k * 65536 < base + n ∧ base < (k + 1) * 65536 then o.map fun r => { r with wanted := false } else o
  t.map fun e => (e.1, f e.1 e.2)

/-- MIG_LEAF_DONE (11 R340 step 5, R343, R326): the leaf reopens, its posted faults are retried, and the next leaf follows. -/
def execMigLeafDone (s : State) : Result :=
  let m := s.mig
  if m.stage ≠ .draining ∨ ¬ m.readers.isEmpty then .next s else
  let n := 2 ^ m.leafSize
  let s := { s with mig := { m with stage := .idle, index := m.index + 1, leaf := m.leaf + n, dest := m.dest + n } }
  let s := s.modBench m.bench fun x => { x with regions := unwant m.leaf n x.regions }
  let s := s.retryFaults m.bench fun f => decide (m.leaf ≤ f.va.toNat) && decide (f.va.toNat < m.leaf + n)
  .next s.migLeaf

end Sys2Proof.Machine
end

