-- ==== Sys2Proof/Machine/Attach.lean ====
section
/-!
DEFINITION. The attach registers and the peer window's commands (12 R350–R354, R360–R364; 22 R598).
-/

namespace Sys2Proof.Machine

/-! ### ATTACH registers -/

/-- A write that ATTACH registers take in every state but VACANT, FORMING and SWEEPING, detached or not (22 R593). -/
def State.attachWrite (s : State) (b : Nat) (f : State → State) : State :=
  if ¬ s.running then s
  else if (s.bench b).state = .active ∨ (s.bench b).state = .held then f s
  else (s.discard b).unstage b

/-- Offset of ATTACH_TOKEN. -/
def attachTokenAt : Nat := 0x200

/-- ATTACH_TOKEN written: the low dword is staged, the high dword or the whole applies (21 R571; 22 R598). -/
def State.putToken (s : State) (b part : Nat) (value : BitVec 64) : State :=
  let x := s.bench b
  let low : BitVec 32 :=
    match x.staged with
    | some (o, v) => if o = attachTokenAt then v else x.attach.token.setWidth 32
    | none => x.attach.token.setWidth 32
  if part = 0 then s.modBench b fun x => { x with staged := some (attachTokenAt, value.setWidth 32) }
  else
    let v := if part = 1 then value.setWidth 32 ++ low else value
    s.modBench b fun x => { x with staged := none, attach := { x.attach with token := v } }

/-- ATTACH_TOKEN_WRITE (22 R598, R593). -/
def execAttachTokenWrite (bench part : Nat) (value : BitVec 64) (s : State) : Result :=
  .next (s.attachWrite bench fun s => s.putToken bench part value)

/-- ATTACH_RESUME (12 R351–R354). -/
def execAttachResume (bench : Nat) (epoch : BitVec 32) (s : State) : Result := .next ((s.unstage bench).attachCmd bench 1 epoch)

/-- ATTACH_CLOSE (12 R351–R354). -/
def execAttachClose (bench : Nat) (epoch : BitVec 32) (s : State) : Result := .next ((s.unstage bench).attachCmd bench 2 epoch)

/-- ATTACH_FRESH (12 R351–R354; 22 R594). -/
def execAttachFresh (bench : Nat) (epoch : BitVec 32) (s : State) : Result := .next ((s.unstage bench).attachCmd bench 3 epoch)

/-- ATTACH_REFUSED (12 R351, R352): the ATTACH_CMD fails a check, and RESULT says which; one that passes them all is no refusal. -/
def execAttachRefused (bench mode : Nat) (epoch : BitVec 32) (s : State) : Result :=
  .next (if ((s.bench bench).state = .active ∨ (s.bench bench).state = .held) ∧ s.attachCheck bench mode epoch = 0 then s
    else (s.unstage bench).attachCmd bench mode epoch)

/-! ### The peer window -/

/-- PEER_WINDOW_OPEN (12 R360): ENABLE = 1. -/
def execPeerWindowOpen (bench : Nat) (s : State) : Result :=
  .next (s.fromMgmt fun s => s.tableServed bench fun s => s.modPeer bench fun p => { p with enable := true })

/-- PEER_WINDOW_CLOSE (12 R364): ENABLE = 0; buffered writes are still applied. -/
def execPeerWindowClose (bench : Nat) (s : State) : Result :=
  .next (s.fromMgmt fun s => s.tableServed bench fun s => s.modPeer bench fun p => { p with enable := false })

/-- PEER_WRITE_APPLY (12 R361–R363; 10 R301; 19 R536–R538): the bench's oldest buffered write meets its leaf. -/
def execPeerWriteApply (bench : Nat) (s : State) : Result :=
  match (s.bench bench).peer.buffered with
  | [] => .next s
  | (off, _) :: _ => .next (s.applyPeer bench (s.peerLeaf bench off))

/-- PEER_DROPPED_INTERVAL (12 R362): drops of the interval make the one notice of the next, or the interval ends. -/
def execPeerDroppedInterval (bench cause : Nat) (s : State) : Result :=
  let p := (s.bench bench).peer
  if cause = 1 then
    match p.dropped1 with
    | some (off, n) => .next ((s.modPeer bench fun p => { p with dropped1 := none }).peerNotice bench 1 off n)
    | none => .next (if p.interval1 then s.modPeer bench fun p => { p with interval1 := false } else s)
  else if cause = 2 then
    match p.dropped2 with
    | some (off, n) => .next ((s.modPeer bench fun p => { p with dropped2 := none }).peerNotice bench 2 off n)
    | none => .next (if p.interval2 then s.modPeer bench fun p => { p with interval2 := false } else s)
  else .next s

end Sys2Proof.Machine
end

