-- ==== Sys2Proof/Machine/WhittlerOps.lean ====
section
/-!
DEFINITION. Whittlers and the service-core locks of stopped ones: halting, resuming, honouring, resets, fences (17 R489–R491, R509; 20 R556–R559). A running whittler ends its sections below 2 ms, so only locks of whittlers that have stopped are kept.
-/

namespace Sys2Proof.Machine

/-! ### Locks -/

/-- The number that a lock's tally gives in RESOURCE (the model's own, log entry 87). -/
def lockNumber : LockStructure → Nat
  | .task => 0
  | .table => 1
  | .faults => 2
  | .placements => 3
  | .notices => 4
  | .billets => 5
  | .roster => 6

/-- The number of a lock in the hearth's timer unit. -/
def Lock.key (l : Lock) : Nat := (l.owner.toNat * 8 + lockNumber l.guards) * 128 + l.whittler

/-- The tally is the lock's record (17 R489). -/
def Lock.tally (l : Lock) (t : Tally) : Bool :=
  t.kind == 0x0F && t.owner == l.owner && t.unit == l.whittler && t.resource == BitVec.ofNat 64 (lockNumber l.guards)

/-- The locks are these: each unbroken one has its tally, with its EXPIRY, and while that runs its deadline (17 Table 1; 03 R65). -/
def State.setLocks (s : State) (l : List Lock) : State :=
  let live := l.filter fun x => !x.broken
  let keep : Tally → Option Tally := fun t =>
    if t.kind ≠ 0x0F then some t else (live.find? fun x => x.tally t).map fun x => { t with expiry := x.expiry }
  let lockDeadline : Deadline → Bool := fun d =>
    match d.kind with
    | .tallyExpiry _ => true
    | _ => false
  let s := { s with
    recovery := { s.recovery with locks := l, tallies := s.recovery.tallies.filterMap keep }
    hearth := { s.hearth with deadlines := s.hearth.deadlines.filter fun d => !lockDeadline d } }
  let s := (live.filter fun x => x.frozen.isNone).foldl (fun s x => s.addDeadline (.tallyExpiry x.key) x.expiry) s
  s.postAll

/-- The whittler stops holding a lock: it expires 10 ms after it was taken (17 R489; 20 R558). -/
def State.holdLock (s : State) (w : Nat) (h : LockHeld) : State :=
  let e := h.taken + 10000
  let t : Tally := ⟨0x0F, .held, h.owner, if h.owner = hubOwner then 0 else s.incarnOf h.owner.toNat, w, BitVec.ofNat 64 (lockNumber h.guards), h.taken, e⟩
  let l : Lock := ⟨h.guards, h.owner, w, e, none, false⟩
  let s := { s with recovery := { s.recovery with tallies := s.recovery.tallies ++ [t] } }
  s.setLocks (s.recovery.locks ++ [l])

/-- The expiry stands still (20 R559): of a lock of a bench or guest slot. -/
def Lock.freeze (now : BitVec 64) (l : Lock) : Lock :=
  if l.owner = hubOwner ∨ l.broken ∨ l.frozen.isSome then l else { l with frozen := some (l.expiry.toNat - now.toNat) }

/-- The expiry runs again with the time that remained. -/
def Lock.thaw (now : BitVec 64) (l : Lock) : Lock :=
  match l.frozen with
  | some n => { l with expiry := now + BitVec.ofNat 64 n, frozen := none }
  | none => l

/-- The lock is broken: its journal is left to the next taker (17 R491). -/
def Lock.break (l : Lock) : Lock := { l with broken := true, frozen := none }

/-- Locks of a whittler changed. -/
def State.modLocks (s : State) (w : Nat) (f : Lock → Lock) : State :=
  s.setLocks (s.recovery.locks.map fun l => if l.whittler = w then f l else l)

/-! ### Running, halted, fenced -/

/-- The whittler runs: of the grade, not fenced, not halted. -/
def State.whittlerRuns (s : State) (w : Nat) : Bool :=
  decide (w < s.nWhittlers) && !(s.whittler w).fenced && !(s.whittler w).halted

/-- Running whittlers of the group of 16 that a whittler belongs to. -/
def State.groupRunning (s : State) (w : Nat) : Nat := ((List.range 16).filter fun i => s.whittlerRuns (w / 16 * 16 + i)).length

/-- The whittlers of the grade that a debugger halts. -/
def State.haltedWhittlers (s : State) : List Nat := (List.range s.nWhittlers).filter fun w => (s.whittler w).halted

/-- A whittler stops at an instruction boundary with its locks; a self-test of it ends (20 R556, R557). -/
def State.haltWhittler (s : State) (w : Nat) (locks : List LockHeld) : State :=
  let s := { s with bg := { s.bg with testing := s.bg.testing.filter fun t => t != TestUnit.whittler w } }
  let s := s.setLocks (s.recovery.locks.filter fun l => l.whittler != w || l.broken)
  let s := s.modWhittler w fun x => { x with halted := true, testing := false }
  let s : State := locks.foldl (fun (s : State) h => s.holdLock w h) s
  if (s.whittler w).honour ∧ s.dbg.honourAllow then s.modLocks w (Lock.freeze s.now) else s

/-- A whittler resumes: frozen expiries run again (20 R558, R559). -/
def State.resumeWhittler (s : State) (w : Nat) : State :=
  (s.modWhittler w fun x => { x with halted := false }).modLocks w (Lock.thaw s.now)

/-- A lock of a halted whittler stands still: DEBUG_STATUS.HONOUR_ACTIVE (20 R559). -/
def State.honourActive (s : State) : Bool := s.recovery.locks.any fun l => l.frozen.isSome && (s.whittler l.whittler).halted

/-- The minimum of 17 R509 is breached: fewer than half of the whittlers unfenced, or a group without any. -/
def State.whittlerMinimum (s : State) : Bool :=
  let open_ := (List.range s.nWhittlers).filter fun w => !(s.whittler w).fenced
  decide (open_.length < s.nWhittlers / 2) || (List.range (s.nWhittlers / 16)).any fun g => !open_.any fun w => w / 16 == g

/-- A whittler is fenced until the next hub restart (17 R509; 18 R529). -/
def State.fenceWhittler (s : State) (w : Nat) : State :=
  let s := (s.modWhittler w fun x => { x with fenced := true, halted := false, testing := false }).modLocks w Lock.break
  if s.whittlerMinimum then s.logCause 6 2 .whittlers (BitVec.ofNat 64 w) 0 else s.logError 6 2 (BitVec.ofNat 64 w) 0

/-! ### DEBUG_CTRL (20 R550, R556, R559; 21 R587) -/

/-- DEBUG_CTRL written: clearing HALT_ALLOW resumes every halted whittler, clearing HONOUR_ALLOW lets frozen expiries run, setting it makes those of halted whittlers with HONOUR stand still. -/
def State.putDebugCtrl (s : State) (v : BitVec 32) : State :=
  let s := { s with dbg := { s.dbg with dapWrite := v.getLsbD 0, haltAllow := v.getLsbD 1, honourAllow := v.getLsbD 2 } }
  let s := if v.getLsbD 1 then s else s.haltedWhittlers.foldl (fun s w => s.resumeWhittler w) s
  s.setLocks (s.recovery.locks.map fun l =>
    if ¬ v.getLsbD 2 then l.thaw s.now
    else if (s.whittler l.whittler).halted ∧ (s.whittler l.whittler).honour then l.freeze s.now else l)

end Sys2Proof.Machine
end

