-- ==== Sys2Proof/Machine/Background.lean ====
section
/-!
DEFINITION. Background work: recalibration, the ledger and die scrubs, telemetry, periodic self-tests (18).
-/

namespace Sys2Proof.Machine

/-! ### Link recalibration (18 R521, R522) -/

/-- The last recalibration of a lane: its hearth time and TJ_MAX then. -/
def State.lastRecal (s : State) (link : LinkName) (lane : Nat) : BitVec 64 × BitVec 16 :=
  match link with
  | .spindle d => tabGet (s.die d).recal (0, 0) lane
  | .envan l => tabGet (s.envan l).recal (0, 0) lane
  | .hostPort _ _ => (0, 0)

/-- A lane of a link that is UP recalibrates, in a gap or in a forced window, which is counted; with no usable setting the link retrains in place. Host ports recalibrate as PCIe lays down, with nothing of the hub's own. -/
def State.recalLane (s : State) (link : LinkName) (lane : Nat) (forced usable : Bool) : State :=
  let at_ := (s.now, s.hearth.tjMax)
  match link with
  | .spindle d => s.modDie d fun x =>
    if x.state ≠ .up then x else
    let x := if forced then { x with recalForced := x.recalForced + 1 } else x
    if usable then { x with recal := tabSet lane at_ x.recal } else x.retrain
  | .envan l => s.modEnvan l fun x =>
    if x.state ≠ .up then x else
    let x := if forced then { x with recalForced := x.recalForced + 1 } else x
    if usable then { x with recal := tabSet lane at_ x.recal } else x.retrain
  | .hostPort _ _ => s

/-- LANE_RECAL (18 R521): a lane recalibrates in a gap between flits. -/
def execLaneRecal (link : LinkName) (lane : Nat) (usable : Bool) (s : State) : Result := .next (s.recalLane link lane false usable)

/-- A window may be forced for the lane: its last recalibration is 950 ms old, or TJ_MAX has moved by 10 °C since (18 R522). -/
def State.recalDue (s : State) (link : LinkName) (lane : Nat) : Bool :=
  let (t, tj) := s.lastRecal link lane
  decide (t.toNat + 950000 ≤ s.now.toNat) || decide (100 ≤ (s.hearth.tjMax.toInt - tj.toInt).natAbs)

/-- RECAL_FORCE (18 R522): a forced window for a lane near its deadline; one that a HOLD message comes in is abandoned. -/
def execRecalForce (link : LinkName) (lane : Nat) (hold usable : Bool) (s : State) : Result :=
  .next (if hold ∨ ¬ s.recalDue link lane then s else s.recalLane link lane true usable)

/-! ### Ledger scrub (18 R514–R518) -/

/-- The scrub passes to the next block; floor mode begins below the floor line and ends 1/64 of the capacity above it (18 R515). At the end of the populated range the pass ends. -/
def State.scrubOn (s : State) : State :=
  let p := s.bg.position.toNat + 256
  let line := s.floorLine s.now
  let floor := if s.bg.floor then decide (p < line + s.ledgerBytes / 64) else decide (p < line)
  { s with bg := { s.bg with position := BitVec.ofNat 64 p, floor := floor, scrubbing := decide (p < s.ledgerBytes) } }

/-- The scrub's block has an uncorrectable error: logged, counted and marked (18 R518). -/
def State.scrubUe (s : State) : State :=
  let block := s.bg.position.toNat / 256
  let s := { s with
    bg := { s.bg with ue := s.bg.ue + 1 }
    recovery := { s.recovery with marked := if s.recovery.marked.contains block then s.recovery.marked else s.recovery.marked ++ [block] } }
  s.logLedgerUe (BitVec.ofNat 64 (ledgerBase + block * 256))

/-- A firmware structure lost to an uncorrectable error: its bench is swept as by MGMT with RESET; without one HUB_FAULT_N is asserted until a restart (17 R510). -/
def State.firmwareLost (s : State) : Option Nat → State
  | some b => s.startSweep b 1 false false
  | none => s.addFault .firmware

/-- SCRUB_BLOCK (18 R514–R518; 17 R510): a corrected error is counted, and written back unless a foreground write came between; an uncorrectable one is logged, counted and marked. -/
def execScrubBlock (find : ScrubFind) (s : State) : Result :=
  if ¬ s.running ∨ ¬ s.domainOn 8 ∨ ¬ s.bg.scrubbing then .next s else
  let s := match find with
    | .clean => s
    | .corrected _ => { s with bg := { s.bg with ce := s.bg.ce + 1 } }
    | .uncorrectable => s.scrubUe
    | .firmware owner => s.scrubUe.firmwareLost owner
  .next s.scrubOn

/-- SCRUB_PASS_START (18 R514): the previous pass has ended, and began at least 4 h ago. -/
def execScrubPassStart (s : State) : Result :=
  .next (if ¬ s.running ∨ ¬ s.domainOn 8 ∨ s.bg.scrubbing ∨ s.now.toNat < s.bg.passStart.toNat + 14400000000 then s
    else { s with bg := { s.bg with scrubbing := true, position := 0, passStart := s.now, floor := false } })

/-! ### Die scrub (18 R519, R520) -/

/-- DIE_SCRUB_REQUEST (18 R519): 1 MiB of an UP die, one request outstanding, one each 100 ms. -/
def execDieScrubRequest (die : Nat) (s : State) : Result :=
  let x := s.die die
  if x.state ≠ .up ∨ x.scrubbing ∨ s.now.toNat < x.scrubAt.toNat + 100000 then .next s else
  let s := s.modDie die fun x => { x with
    scrubbing := true, scrubAt := s.now, scrubStart := if x.scrubPos = 0 then s.now else x.scrubStart }
  .next (s.askDie die none false (.scrub x.scrubPos.toNat (2 ^ 20)))

/-- DIE_SCRUB_ACK (18 R519): POSITION passes the range; past the last one a new pass begins with the next request. -/
def execDieScrubAck (die : Nat) (s : State) : Result :=
  if ¬ (s.die die).scrubbing ∨ ¬ (s.die die).sent.any (fun u => u.key == .scrub) then .next s else
  let s := s.modDie die fun x =>
    let p := x.scrubPos.toNat + 2 ^ 20
    { x with scrubbing := false, scrubPos := if p < dieBytes then BitVec.ofNat 64 p else 0, sent := x.sent.eraseP fun u => u.key == .scrub }
  .next (s.pumpPort die (s.die die).queue.length)

/-! ### Telemetry (18 R525) -/

/-- Error-log entries without READ (21 ERRLOG_UNREAD). -/
def State.unreadEntries (s : State) : Nat := (s.recovery.log.filter fun e => (e.2.map fun x => !x.read).getD false).length

/-- PD_ON: bit n for PDn ON; PD0 is never off. -/
def State.pdOn (s : State) : Nat := (List.range 12).foldl (fun n i => n + if s.domainOn (i + 1) then 2 ^ (i + 1) else 0) 1

/-- A telemetry snapshot (18 Table 2). -/
def State.telemetry (s : State) : List Byte :=
  leBytes 8 s.now.toNat ++ leBytes 4 s.bg.telemSeq.toNat ++ leBytes 2 s.hearth.tjMax.toNat ++ leBytes 2 s.pdOn ++
  leBytes 4 s.liveBenches.length ++ leBytes 4 s.freeCores.length ++ leBytes 8 s.bg.position.toNat ++
  leBytes 4 s.bg.ce.toNat ++ leBytes 4 s.bg.ue.toNat ++ leBytes 4 s.unreadEntries ++ leBytes 4 s.bg.overdue.toNat ++
  List.replicate 16 0

/-- The previous snapshot is still queued for egress. -/
def State.telemetryQueued (s : State) : Bool :=
  (s.port s.mgmtFn.1).egress.any fun t => t.capped == 0 &&
    match t.tlp with
    | .hostWrite _ _ _ a d => a == s.bg.telemAddr.toNat && d.length == 64
    | _ => false

/-- PERIOD_MS has passed since the last snapshot, if there was one since ENABLE. -/
def Background.telemDue (b : Background) (now : BitVec 64) : Bool :=
  b.telemEnable && (b.telemAt.map fun t => decide (t.toNat + 1000 * b.telemPeriod.toNat ≤ now.toNat)).getD true

/-- TELEMETRY_SNAPSHOT (18 R525; 04 R93): one posted write under the PF of the management function's port, outside RATE_CAP, or a skipped one. -/
def execTelemetrySnapshot (s : State) : Result :=
  if ¬ s.running ∨ ¬ s.bg.telemDue s.now then .next s else
  let skip := s.telemetryQueued
  let data := s.telemetry
  let p := s.mgmtFn.1
  let s := { s with bg := { s.bg with
    telemSeq := s.bg.telemSeq + 1, telemAt := some s.now, telemSkipped := if skip then s.bg.telemSkipped + 1 else s.bg.telemSkipped } }
  .next (if skip then s else s.egress p 0 0 64 0 (.hostWrite p 0 plainAttr s.bg.telemAddr.toNat data))

/-! ### Periodic self-test (18 R526–R530) -/

/-- A pinned entry of a quarantined way moves into another way of its set, in place of an unpinned entry where none is free (18 R528). -/
def State.rehome (s : State) (p : CacheEntry) : State :=
  let c := s.headstock.cache
  let closed := s.closedWays
  let set := c.filter fun x => x.set == p.set && !closed.contains x.way
  let move := fun (c : List CacheEntry) (w : Nat) => c.map fun x => if x = p then { x with way := w } else x
  let c := if set.length < 16 - closed.length then move c (freeWay (set.map CacheEntry.way ++ closed) 16 0)
    else match victim set with
      | some v => move (c.filter fun x => x != v) v.way
      | none => c.filter fun x => x != p
  let pins := s.headstock.pins.filter fun x => !x.same p || c.any p.same
  { s with headstock := { s.headstock with cache := c, pins := pins } }

/-- A way is quarantined: its pins move, its unpinned entries are dropped. -/
def State.quarantine (s : State) (w : Nat) : State :=
  let pins := s.headstock.cache.filter fun e => e.way == w && e.pin
  let s := pins.foldl State.rehome s
  { s with headstock := { s.headstock with cache := s.headstock.cache.filter fun e => e.way != w } }

/-- A Burl engine runs no job and holds none that waits. -/
def State.engineIdle (s : State) (lattice : Bool) : Bool :=
  !(s.engine lattice).outOfService && (s.engine lattice).placing.isNone &&
  s.jobs.all fun j => j.spec.lattice != lattice || j.phase == .gathering || j.phase == .writing

/-- The start condition of a part, and no other part of its unit under test (18 Table 3). -/
def State.testMayStart (s : State) (part : TestUnit) : Bool :=
  s.running && !s.bg.testing.contains part &&
  match part with
  | .hsWay w => decide (w < 16) && !s.headstock.retired.contains w && s.domainOn 7 && s.bg.testing.all fun t =>
      match t with
      | .hsWay _ | .walkCache => false
      | _ => true
  | .walkCache => s.domainOn 7 && s.bg.testing.all fun t =>
      match t with
      | .hsWay _ => false
      | _ => true
  | .lathe l => decide (l < s.nLathes) && s.domainOn (clusterDomain (latheCluster l)) && !(s.lathe l).fenced &&
      (s.lathe l).halt.isNone && (s.lathe l).holders.isEmpty && (s.lathe l).draining.isEmpty && s.bg.testing.all fun t =>
      match t with
      | .lathe k => latheCluster k != latheCluster l
      | _ => true
  | .whittler w => s.whittlerRuns w && decide (2 ≤ s.groupRunning w) && s.bg.testing.all fun t =>
      match t with
      | .whittler v => v / 16 != w / 16
      | _ => true
  | .burl l => s.domainOn 9 && s.engineIdle l && s.bg.testing.all fun t =>
      match t with
      | .burl _ => false
      | _ => true

/-- The units' own mark of a test. -/
def State.markTest (s : State) (part : TestUnit) (on : Bool) : State :=
  match part with
  | .hsWay _ => s
  | .walkCache => s
  | .lathe l => s.modLathe l fun x => { x with testing := on }
  | .whittler w => s.modWhittler w fun x => { x with testing := on }
  | .burl l => s.modEngine l fun e => { e with testing := on }

/-- SELFTEST_START (18 R526, R528): a part begins; a way is quarantined, the walk cache emptied. -/
def execSelftestStart (part : TestUnit) (s : State) : Result :=
  if ¬ s.testMayStart part then .next s else
  let s := ({ s with bg := { s.bg with testing := s.bg.testing ++ [part] } }).markTest part true
  .next (match part with
    | .hsWay w => s.quarantine w
    | .walkCache => { s with headstock := { s.headstock with walkCache := [] } }
    | _ => s)

/-- A part is under test no longer. -/
def State.endTest (s : State) (part : TestUnit) : State :=
  ({ s with bg := { s.bg with testing := s.bg.testing.filter fun t => t != part } }).markTest part false

/-- A part's 24 h run anew from now (18 R526, R530). -/
def State.stampTest (s : State) (part : TestUnit) : State :=
  { s with bg := { s.bg with tested := (s.bg.tested.filter fun e => e.1 != part) ++ [(part, s.now)] } }

/-- SELFTEST_DONE (18 R529 Table 4): a failure retires the way, fences the lathe or whittler; an engine is tested again at once, and is out of service after a second failure in succession. -/
def execSelftestDone (part : TestUnit) (ok : Bool) (s : State) : Result :=
  if ¬ s.bg.testing.contains part then .next s else
  let s := s.stampTest part
  .next (match part with
    | .hsWay w =>
      let s := s.endTest part
      if ok then s else { s with headstock := { s.headstock with retired := s.headstock.retired ++ [w] } }
    | .walkCache => s.endTest part
    | .lathe l => if ok then s.endTest part else (s.endTest part).fenceLathe l
    | .whittler w => if ok then s.endTest part else (s.endTest part).fenceWhittler w
    | .burl l =>
      if ok then (s.endTest part).modEngine l fun e => { e with failedOnce := false }
      else if (s.engine l).failedOnce then (s.endTest part).modEngine l fun e => { e with outOfService := true }
      else s.modEngine l fun e => { e with failedOnce := true })

/-- The part has not been tested, nor counted, for 24 h. -/
def State.testOverdue (s : State) (part : TestUnit) : Bool :=
  let from_ := ((s.bg.tested.find? fun e => e.1 == part).map Prod.snd).getD s.bg.runningAt
  s.chip.phase == .running && decide (from_.toNat + 86400000000 ≤ s.now.toNat)

/-- SELFTEST_OVERDUE (18 R530): a part not tested within 24 h. -/
def execSelftestOverdue (part : TestUnit) (s : State) : Result :=
  .next (if s.testOverdue part then { s.stampTest part with bg := { (s.stampTest part).bg with overdue := s.bg.overdue + 1 } } else s)

end Sys2Proof.Machine
end

