-- ==== Sys2Proof/Machine/Burl.lean ====
section
/-!
DEFINITION. ANNEAL and the Burl's commands (15 R422–R451).
-/

namespace Sys2Proof.Machine

/-- The whole job of a ring's ANNEAL. -/
def State.annealOf (s : State) (b r : Nat) : Option Job := s.jobOf s.hubId b r none

/-- Steps 2 and 3 of an ANNEAL whose job block is staged (15 R422, R426–R428, R429). -/
def State.checkAnneal (s : State) (b r : Nat) (d : Desc) (y : List Byte) : State :=
  let j := jobSpec y
  let mode := field y 4 1
  if (mode = 1 ∧ ¬ s.classHas b BenchClass.burlDense) ∨ (mode = 2 ∧ ¬ s.classHas b BenchClass.burlLattice) then s.endPlain b r d 0x12 0 else
  match s.jobFailure y with
  | some k => s.endPlain b r d 0x30 (BitVec.ofNat 64 (2 ^ 62 + k))
  | none =>
    let named := (if j.trace then [j.traceBillet] else []) ++ j.results
    match named.find? fun h => (s.billetKey b d.order h.toNat 0).isNone with
    | some h => s.endPlain b r d 0x12 h
    | none =>
      if s.resultBytes j.results < 64 + 2 * stateBytes j.spins then s.endPlain b r d 0x30 (BitVec.ofNat 64 (2 ^ 62 + 0x0D)) else
      let store := if j.lattice then 0 else j.spins * j.spins * (j.width / 8) + j.spins * (j.width / 8)
      let job : Job :=
        { home := s.hubId, bench := b, ring := r, desc := d.count, strip := none, spec := j, phase := .admission, store := store, coef := []
          spins := [], best := [], bestEnergy := 0, bestMove := 0, move := 0, sweeps := 0, written := 0, engineTime := 0, above := [], below := []
          haloAbove := 0, haloBelow := 0, nextAbove := [], nextBelow := [], snaps := [], reports := [], returned := [], lost := [], stop := none }
      let s := s.addJob job
      if j.parts.any (fun p => p.1 != s.hubId) ∧ j.parts.all (fun p => s.hubAvailable p.1) then s
      else s.tryAdmit job []

/-- ANNEAL (15 R422, R429): it starts, its ring gives up the channel; its job block is staged and checked, and admitted or made to wait. -/
def execAnneal (bench ring : Nat) (block : LoadResult) (s : State) : Result :=
  match s.begin bench ring 0x21 with
  | none => .next s
  | some (d, s) =>
    let s := s.giveUp bench ring 1
    let enabled := ((s.chip.cfg.bind ImageCfg.burl).map BurlCfg.tenantEnable).getD false
    if (s.annealOf bench ring).isSome then .next s
    else if ¬ enabled ∨ ¬ (s.classHas bench BenchClass.burlDense ∨ s.classHas bench BenchClass.burlLattice) then .next (s.endPlain bench ring d 0x12 0)
    else
      let o := operandOf d.bytes d.order 0 false
      match s.scanAll bench o 96 with
      | some (off, x) => .next (s.meetObstacle bench ring d 0 (o.base + off) x false)
      | none =>
        if ¬ (s.bench bench).rateOpen then .next s else
        match s.loaded bench o 96 block with
        | .failed code detail address =>
          .next (match s.load bench o 0 96 with
            | none => s
            | some t => (t.logLoad code detail address).endDesc bench ring d.count code detail 0 address)
        | .ok data _ =>
          let n := jobLength (s.allBytes bench o data 96)
          match s.scanAll bench o n with
          | some (off, x) => .next (s.meetObstacle bench ring d 0 (o.base + off) x false)
          | none =>
            .next (match s.load bench o 0 n with
              | none => s
              | some t => (t.engineCharge bench (s.ring bench ring).clusterB n).checkAnneal bench ring d (s.allBytes bench o data n))

/-- ANNEAL_ADMIT (15 R429 step 3, Table 7; 16 R480): space has freed: the waiting job is admitted, or ends where a hub it names cannot take its strip; so does a job whose strips have been sent, where one hub refuses its own before any boundary. -/
def execAnnealAdmit (bench ring : Nat) (refused : List Nat) (s : State) : Result :=
  match s.annealOf bench ring with
  | none => .next s
  | some j =>
    .next (if (s.bench bench).state = .sweeping then s
      else if j.phase = .admission then s.tryAdmit j refused
      else if j.phase = .barrier ∧ j.sweeps = 0 ∧ j.spec.parts.any (fun p => p.1 != s.hubId && refused.contains p.1) then (s.endStrips j).endUnrun j 4
      else s)

/-- ANNEAL_LOAD_DONE (15 R429 steps 4 and 5): coefficients and initial state are in the store and the run starts; or an obstacle or a failed read. -/
def execAnnealLoadDone (bench ring : Nat) (result : LoadResult) (s : State) : Result :=
  match s.annealOf bench ring with
  | none => .next s
  | some j =>
    match s.desc bench ring j.desc with
    | none => .next s
    | some d =>
      if j.phase ≠ .load ∨ d.phase ≠ .started ∨ (s.bench bench).state = .sweeping ∨ ¬ s.channelRuns bench ring ∨ ¬ (s.bench bench).rateOpen then .next s else
      let nc := specCoefs j.spec * (j.spec.width / 8)
      let ni := if j.spec.initRandom then 0 else (j.spec.spins + 7) / 8
      let oc : Operand := ⟨0, d.order, j.spec.coefSel, pasidOf d.bytes, j.spec.coef.toNat, nc, false⟩
      let oi : Operand := ⟨0, d.order, j.spec.initSel, pasidOf d.bytes, j.spec.init.toNat, ni, false⟩
      match s.scanAll bench oc nc with
      | some (off, x) => .next (s.meetObstacle bench ring d 0 (oc.base + off) x false)
      | none =>
        match s.scanAll bench oi ni with
        | some (off, x) => .next (s.meetObstacle bench ring d 0 (oi.base + off) x false)
        | none =>
          match (s.load bench oc 0 nc).bind fun t => t.load bench oi 0 ni with
          | none => .next s
          | some t =>
            match s.loaded bench oi ni (s.loaded bench oc nc result) with
            | .failed code detail address => .next (((t.logLoad code detail address).dropJob j).endDesc bench ring j.desc code detail 0 address)
            | .ok coef init => .next ((t.engineCharge bench (s.ring bench ring).clusterB (nc + ni)).runJob j (s.allBytes bench oc coef nc) (s.allBytes bench oi init ni))

/-- BURL_MOVE (15 R432–R437, R448, R450): the job on the engine makes one move, with the checks that follow it; none is made at a boundary where it must give way. -/
def execBurlMove (lattice : Bool) (s : State) : Result :=
  match s.runningJob lattice with
  | none => .next s
  | some j =>
    if j.phase ≠ .running ∨ ¬ s.domainWorks 9 ∨ s.sliceDue j ∨ (j.home = s.hubId ∧ (s.bench j.bench).state = .sweeping) then .next s else
    let used := j.moveOnce.engineTime - j.engineTime
    let s := (s.countPerf (136 + lattice.toNat) 1).modEngine lattice fun e => { e with sliceTime := e.sliceTime + used }
    .next (if j.strip.isSome then s.moveStrip j else s.moveSingle j)

/-- BURL_SLICE_END (15 R442, R444): at an anneal-sweep boundary after 20 ms, or where a placement waits, the job is checkpointed. -/
def execBurlSliceEnd (lattice : Bool) (s : State) : Result :=
  match s.runningJob lattice with
  | none => .next s
  | some j => .next (if s.sliceDue j then (s.endSlice j).setJob { j with phase := .saving } else s)

/-- BURL_CHECKPOINT_DONE (15 R443): the checkpoint is complete and the engine takes its next job. -/
def execBurlCheckpointDone (lattice : Bool) (s : State) : Result :=
  match s.runningJob lattice with
  | none => .next s
  | some j => .next (if j.phase = .saving then (s.setJob { j with phase := .ready }).nextJob lattice else s)

/-- BURL_HALO_RECEIVED (15 R448; 16 R457): a strip holds a neighbour's row, or the home hub a strip's report. -/
def execBurlHaloReceived (home bench ring : Nat) (incarn : BitVec 16) (strip source sweep : Nat) (first last : List Bool) (energy : Int) (s : State) : Result :=
  if ¬ s.msgCurrent home bench incarn then .next s.staleMessage
  else if strip = 255 ∧ home = s.hubId then .next (s.report bench ring source sweep first last energy)
  else
    match s.jobOf home bench ring (some strip) with
    | some j => .next (s.takeHalo j source sweep first last)
    | none => .next s

/-- ANNEAL_WRITE_DONE (15 R439, R450): every result and trace write is acknowledged: the outcome is fixed, with RESULT the moves. -/
def execAnnealWriteDone (bench ring : Nat) (s : State) : Result :=
  match s.annealOf bench ring with
  | none => .next s
  | some j =>
    if j.phase ≠ .writing ∨ (s.bench bench).state = .sweeping then .next s else
    let s := s.dropJob j
    .next (match j.stop with
      | some k => s.endDesc bench ring j.desc 0x70 k 255 (BitVec.ofNat 64 j.move)
      | none => s.endDesc bench ring j.desc 0x00 0 255 (BitVec.ofNat 64 j.move))

/-- STRIP_ADMIT (15 R447, Table 7; 16 R480): a partner hub admits a strip as a job of the bench, its guest; where its lattice engine or its guest slots have no room for it, it tells the home hub. -/
def execStripAdmit (home bench ring : Nat) (incarn : BitVec 16) (classId : Nat) (rateCap : BitVec 32) (strip : Nat) (job : JobSpec) (coef : List Byte) (init : List Bool) (s : State) : Result :=
  if ¬ s.chartered ∨ home = s.hubId then .next s
  else if (s.guestSlot home bench).isSome ∧ ¬ s.msgCurrent home bench incarn then .next s.staleMessage
  else if (s.jobOf home bench ring (some strip)).isSome then .next s
  else if s.latticeStripTooBig job strip then .next (s.sendHub home (.stripRefused home bench ring strip incarn))
  else
    match s.admitGuest home bench incarn classId rateCap with
    | (none, s) => .next (s.sendHub home (.stripRefused home bench ring strip incarn))
    | (some g, s) =>
      let cs := coefsOf job.width (5 * job.cols * (stripRows job strip + 1)) coef
      let j := stripJob home bench ring 0 strip job cs init
      .next (((s.addJob j).addTally 0x07 (256 + g) 1 ring).nextJob true)

/-- STRIP_STATE_RETURN (15 R449; 16 R457): the home hub has a strip's best and final states; with the last it assembles the result stream. -/
def execStripStateReturn (bench ring : Nat) (incarn : BitVec 16) (strip : Nat) (best final : List Bool) (s : State) : Result :=
  .next (if s.msgCurrent s.hubId bench incarn then s.stripReturn bench ring strip best final else s.staleMessage)

end Sys2Proof.Machine
end

