-- ==== Sys2Proof/Machine/Placements.lean ====
section
/-!
DEFINITION. LAUNCH, placements, hold and release (14 R394–R419; 16 R484).
-/

namespace Sys2Proof.Machine

/-! ### LAUNCH (14 R400) -/

/-- LAUNCH (14 R400 step 1, R402): it starts, its ring gives up the channel; it takes one of the four loader contexts, or waits for one. -/
def execLaunch (bench ring : Nat) (s : State) : Result :=
  match s.begin bench ring 0x20 with
  | none => .next s
  | some (d, s) =>
    let s := s.giveUp bench ring 1
    if (s.launchOf bench ring).isSome then .next s
    else if 2 ^ 28 < lengthOf d.bytes then .next (s.endPlain bench ring d 0x30 0x20)
    else if 4 ≤ s.launches.length then .next s
    else
      let l : Launch := ⟨bench, ring, d.count, .staging, [], [], 0, 0, 0, 0, [], [], []⟩
      .next ((({ s with launches := s.launches ++ [l] }).stir 8).addTally 0x0D bench 0 ring)

/-- Steps 2 to 4 of a LAUNCH whose structures are staged: checks, quota, ranges; it then waits its turn for step 5 (14 R399, R400). -/
def State.checkLaunch (s : State) (l : Launch) (d : Desc) (y p : List Byte) : State :=
  let b := l.bench
  let bad := fun (form off : Nat) => s.failLaunch l 0x30 0 (BitVec.ofNat 64 (form * 2 ^ 62 + off))
  let i := blankInfo y
  match blankFailure y (lengthOf d.bytes) with
  | some k => bad 1 k
  | none =>
    if selOf d.bytes 1 = 0 ∧ (i.ranges ≠ 0 ∨ i.slots ≠ 0) then bad 1 (i.decl + (if i.ranges ≠ 0 then 12 else 13)) else
    match (if selOf d.bytes 1 = 0 then none else paramFailure i p) with
    | some k => bad 2 k
    | none =>
      let short := s.coresPlaced b + i.rows * i.cols - (s.bench b).limits.cores.toNat
      let number := s.placeNumber b
      if short ≠ 0 then s.failLaunch l 0x32 0 (BitVec.ofNat 64 short)
      else if number = 0 then s.failLaunch l 0x32 0 1
      else
        match s.pinRanges b (launchRanges y p) with
        | (some (code, detail, va), s) => s.failLaunch l code detail (BitVec.ofNat 64 va)
        | (none, s) =>
          let budget := if field d.bytes 0x28 4 ≠ 0 then field d.bytes 0x28 4
            else ((s.chip.cfg.bind ImageCfg.burl).map BurlCfg.budgetMs).getD 1500
          let place : Placement := ⟨s.hubId, b, number, .loading, i.rows, i.cols, [], 0, [], false, none, false, none, false⟩
          let m := { l with stage := .ready, blank := y, params := p, number := number, budget := budget }
          State.rouse { s with
            launches := (s.launches.filter fun x => !(x.bench == b && x.ring == l.ring)) ++ [m]
            placements := s.placements ++ [place] } 9

/-- LAUNCH_STAGE_DONE (14 R400 steps 1 to 4; 05 R144): staging reads the structures and ends: an obstacle of its operands, a failed read, or the checks. Nothing is read while RATE_CAP holds the bench back or a tag is awaited. -/
def execLaunchStageDone (bench ring : Nat) (result : LoadResult) (s : State) : Result :=
  match s.launchOf bench ring with
  | none => .next s
  | some l =>
    match s.desc bench ring l.desc with
    | none => .next s
    | some d =>
      if l.stage ≠ .staging ∨ d.phase ≠ .started ∨ (s.bench bench).state = .sweeping ∨ ¬ s.channelRuns bench ring ∨ ¬ (s.bench bench).rateOpen then .next s else
      let o0 := operandOf d.bytes d.order 0 false
      let o1 := operandOf d.bytes d.order 1 false
      match s.scanAll bench o0 (lengthOf d.bytes) with
      | some (off, x) => .next (s.meetObstacle bench ring d 0 (o0.base + off) x false)
      | none =>
        match (if o1.sel = 0 then none else s.scanAll bench o1 8) with
        | some (off, x) => .next (s.meetObstacle bench ring d 1 (o1.base + off) x false)
        | none =>
          match s.load bench o0 0 (lengthOf d.bytes) with
          | none => .next s
          | some t =>
            match s.loaded bench o1 (if o1.sel = 0 then 0 else 8) (s.loaded bench o0 (lengthOf d.bytes) result) with
            | .failed code detail address => .next ((t.logLoad code detail address).failLaunch l code detail address)
            | .ok blank params =>
              let n := if o1.sel = 0 then 0 else paramLength (s.allBytes bench o1 params 8)
              match s.scanAll bench o1 n with
              | some (off, x) => .next (s.meetObstacle bench ring d 1 (o1.base + off) x false)
              | none =>
                match t.load bench o1 0 n with
                | none => .next s
                | some t =>
                  let y := s.allBytes bench o0 blank (lengthOf d.bytes)
                  let p := s.allBytes bench o1 params n
                  .next ((t.engineCharge bench (t.ring bench ring).clusterB (y.length + p.length)).checkLaunch l d y p)

/-- The other hubs that bands may go to, with their free cores: in order of hops, then of HUB_ID (14 R405). -/
def State.bandHubs (s : State) (free : List (Nat × Nat)) : List (Nat × Nat) :=
  (List.range 9).flatMap fun n => (List.range 32).filterMap fun h =>
    if h ≠ s.hubId ∧ s.routeHops h = some n then free.find? fun e => e.1 == h else none

/-- LAUNCH_PLACE_START (14 R402, R405; 15 R444; 18 R527): step 5 begins for the LAUNCH that reached it first, on an idle dense engine with power: the grid is split into bands, or QUOTA with the shortfall. `free` names other hubs with their free cores. -/
def execLaunchPlaceStart (bench ring : Nat) (free : List (Nat × Nat)) (s : State) : Result :=
  match s.launches.find? fun l => l.stage == .ready && (s.bench l.bench).state != .sweeping with
  | none => .next s
  | some l =>
    if l.bench ≠ bench ∨ l.ring ≠ ring ∨ s.structureHeld .placements bench ∨ s.dense.placing.isSome ∨ s.dense.outOfService ∨ ¬ s.domainWorks 9 ∨ (s.runningJob false).isSome then .next s else
    let i := blankInfo l.blank
    let own := s.freeCores
    let others := if i.span ∧ s.chartered then s.bandHubs free else []
    let need := i.rows * i.cols
    let hubs := (s.hubId, own.length) :: others
    let (bands, left) := if need ≤ own.length then ([(s.hubId, 0, i.rows)], 0) else splitBands i.cols hubs 0 i.rows
    if left ≠ 0 ∨ (need > own.length ∧ others.isEmpty) then
      let total := hubs.foldl (fun n e => n + e.2) 0
      .next (s.failLaunch l 0x32 0 (BitVec.ofNat 64 (if total < need then need - total else left * i.cols)))
    else if bands.any (fun e => e.1 != s.hubId) ∧ ¬ s.cascade.spanning.contains bench then .next s
    else
      let s := s.modLaunch bench ring fun l => { l with stage := .placing, placeStart := s.now, bands := bands, free := own }
      let s := { s with
        dense := { s.dense with placing := some (bench, ring), testing := false }
        bg := { s.bg with testing := s.bg.testing.filter fun t => t != TestUnit.burl false } }
      let x := s.bench bench
      let ranges := launchRanges l.blank l.params
      .next (bands.foldl (fun s e =>
        if e.1 = s.hubId then s
        else s.sendHub e.1 (.band bench x.incarn x.classId x.limits.rateCap l.number e.2.1 e.2.2 i.cols i.flags i.queues i.seed l.budget ranges)) s)

/-- PLACEMENT_DONE (14 R405, R406, R400 steps 6 and 7): the bands have run their budget: cores are assigned, every hub is told where they are, and they are relocated and loaded, which counts for the bench as channel 31's work; or QUOTA where too few were left, or `failure`: code, DETAIL and DVA of a range that another hub cannot pin (step 4). -/
def execPlacementDone (bench ring : Nat) (bands : List (Nat × Nat × Nat × Nat × Nat)) (failure : Option (Nat × Nat × Nat)) (s : State) : Result :=
  match s.launchOf bench ring with
  | none => .next s
  | some l =>
    if l.stage ≠ .placing ∨ s.structureHeld .placements bench ∨ (s.bench bench).state = .sweeping then .next s else
    match (if l.bands.any fun e => e.1 != s.hubId then failure else none) with
    | some (code, detail, va) => .next ((s.failLaunch l code detail (BitVec.ofNat 64 va)).nextJob false)
    | none =>
    let i := blankInfo l.blank
    let free := l.free.filter fun c => s.freeCores.contains c
    let own := (l.bands.filter fun e => e.1 == s.hubId).flatMap fun e =>
      s.bandCores (s.placeInputs e.2.2 i.cols i.seed l.budget free) free e.2.1 e.2.2 i.cols
    let others := (bands.filter fun e => e.1 != s.hubId && l.bands.any fun x => x.1 == e.1).map fun e => PlacedCore.mk e.1 e.2.1 e.2.2.1 e.2.2.2.1 e.2.2.2.2
    let cores := own ++ others
    let need := i.rows * i.cols
    if cores.length < need then
      .next ((s.failLaunch l 0x32 0 (BitVec.ofNat 64 (need - cores.length))).nextJob false)
    else
      let took := s.now.toNat - l.placeStart.toNat
      let s := { s with dense := { s.dense with placing := none } }
      let s := s.modLaunch bench ring fun l => { l with stage := .loading, placeTime := min took (2 ^ 32 - 1), blank := [], params := [], free := [] }
      if ((s.ownPlacement bench l.number).map Placement.state) ≠ some PlaceState.loading then .next (s.nextJob false) else
      let s := s.modPlacement s.hubId bench l.number fun p => { p with cores := cores }
      let s := (own.map PlacedCore.die).eraseDups.foldl (fun s d => s.stir (dieDomain d)) s
      let map := cores.map fun c => (c.hub, c.die, c.core, c.row, c.col)
      let s := (others.map PlacedCore.hub).eraseDups.foldl (fun s h => s.sendHub h (.bandMap bench l.number (s.bench bench).incarn map)) s
      let s := s.tallyXlt bench ((own.map PlacedCore.die).eraseDups)
      let t := cores.foldl (fun s c => s.loadCore bench l.number l.blank l.params cores c) s
      let n := cores.foldl (fun n c => (coreWrites l.blank l.params cores l.number c).foldl (fun n w => n + w.2.length) n) 0
      .next (((t.modLaunch bench ring fun l => { l with loads := s.putsSince t }).engineCharge bench (s.ring bench ring).clusterB n).nextJob false)

/-- LAUNCH_LOAD_DONE (14 R400 step 8, Edges): once every write of step 7 is acknowledged the home hub stamps the start time and sends it to every hub of the placement; under a bench hold the others start with the release that ends it. -/
def execLaunchLoadDone (bench ring : Nat) (s : State) : Result :=
  match s.launchOf bench ring with
  | none => .next s
  | some l =>
    if l.stage ≠ .loading ∨ ¬ l.loads.isEmpty ∨ (s.bench bench).state = .sweeping then .next s else
    match s.ownPlacement bench l.number with
    | none => .next (s.modLaunch bench ring fun l => { l with stage := .stamped s.now })
    | some p =>
      let t := s.now + BitVec.ofNat 64 (s.releaseLead p)
      let s := s.modLaunch bench ring fun l => { l with stage := .stamped t }
      .next (if s.benchHeld bench then s else (s.placeHubs p).foldl (fun s h => s.sendHub h (.release p.home bench l.number (s.bench bench).incarn t)) s)

/-- The cores of a placement on this hub start; under a bench hold they start frozen, and a hold that came before the start ends with it (14 R400 step 8, Edges). -/
def State.startPlacement (s : State) (p : Placement) (held : Bool) : State :=
  let s := s.modPlacement p.home p.bench p.number fun x => { x with
    state := if held then .held else .running, started := true, frozen := held, release := none, holds := if held then x.holds + 1 else x.holds }
  let s := if held then (s.placeDies p).foldl (fun s d => s.sendDie d (.hold p.home p.bench p.number)) s
    else if p.frozen then (s.placeDies p).foldl (fun s d => s.sendDie d (.release p.home p.bench p.number s.now)) s else s
  (p.cores.filter fun c => c.hub == s.hubId).foldl (fun s c => s.sendDie c.die (.start c.core s.now)) s

/-- LAUNCH_START_TIME (14 R400, R401, Table 7; 09 R269): hearth time has reached the stamped time: the cores start, the context is free, and the descriptor completes with DONE. -/
def execLaunchStartTime (bench ring : Nat) (s : State) : Result :=
  match s.launchOf bench ring with
  | none => .next s
  | some l =>
    match l.stage with
    | .stamped t =>
      if s.now.toNat < t.toNat ∨ (s.bench bench).state = .sweeping then .next s else
      let p := s.ownPlacement bench l.number
      let sleds := ((p.map fun p => 1 + (s.placeHubs p).length).getD 1)
      let s := match p with
        | some p => if p.state = PlaceState.loading then s.startPlacement p (s.benchHeld bench) else s
        | none => s
      .next ((s.freeLaunch bench ring).endDesc bench ring l.desc 0x00 0 255 (BitVec.ofNat 64 (l.number + 2 ^ 8 * sleds + 2 ^ 32 * l.placeTime)))
    | _ => .next s

/-! ### Release of a placement (14 R409) -/

/-- PLACE_RELEASE written (14 R409; 22 R601): a RUNNING or HELD placement of the bench is released; another number is discarded and counted. -/
def State.putPlaceRelease (s : State) (bench number : Nat) : State :=
  if ((s.ownPlacement bench number).map fun p => p.state == .running || p.state == .held).getD false then s.releasePlacement bench number
  else s.countBench bench

/-- PLACE_RELEASE (14 R409; 22 R601): the placement is frozen, stopped and cleared; a number not held, or of a placement LOADING or RELEASING, is discarded and counted. -/
def execPlaceRelease (bench number : Nat) (s : State) : Result := .next (s.served bench fun s => s.putPlaceRelease bench number)

/-- PLACE_RELEASE_DONE (14 R409): the cores are cleared and back in the free pool; a sweep waits for them no longer (17 R494). -/
def execPlaceReleaseDone (home bench number : Nat) (s : State) : Result :=
  match s.placement home bench number with
  | none => .next s
  | some p =>
    if p.state ≠ .releasing ∨ s.structureHeld .placements (s.ownerOf home bench) ∨ (home = s.hubId ∧ s.launches.any fun l => l.bench == bench && l.number == number) then .next s else
    let s := s.dropPlacement home bench number
    .next (if home ≠ s.hubId then s else s.modBench bench fun x => { x with
      sweep := x.sweep.map fun w => { w with placements := w.placements.filter fun e => e != (home, bench, number) } })

/-! ### Hold (14 R412–R418; 16 R478, R484) -/

/-- The placement whose core this is. -/
def State.placementOf (s : State) (die core : Nat) : Option Placement :=
  s.placements.find? fun p => p.cores.any fun c => c.hub == s.hubId && c.die == die && c.core == core

/-- LATE_SET (14 R413, R414, R416): HOLD to the placement's dies and hubs, the report to its home; a core in no placement is logged. -/
def execLateSet (die core : Nat) (s : State) : Result :=
  match s.placementOf die core with
  | none => .next (s.logError 4 3 (BitVec.ofNat 64 (die * 256 + core)) 0)
  | some p =>
    if p.state = .releasing then .next s else
    let s := (s.lateHere p (s.hubId, die, core)).freezeAll p
    if p.home = s.hubId then .next (s.trace p.bench 0xFF 6 0 (BitVec.ofNat 64 p.number) (BitVec.ofNat 32 (die * 256 + core)))
    else .next (s.sendHub p.home (.late p.home p.bench p.number die core true (s.placeIncarn p.home p.bench)))

/-- LATE_CLEAR (14 R413, R415): reported to the home, which stamps a release when nothing is outstanding. -/
def execLateClear (die core : Nat) (s : State) : Result :=
  match s.placementOf die core with
  | none => .next (s.logError 4 3 (BitVec.ofNat 64 (die * 256 + core)) 0)
  | some p =>
    let s := s.modPlacement p.home p.bench p.number fun x => { x with lates := x.lates.filter fun e => e != (s.hubId, die, core) }
    if p.home = s.hubId then .next (s.tryRelease p.bench p.number)
    else .next (s.sendHub p.home (.late p.home p.bench p.number die core false (s.placeIncarn p.home p.bench)))

/-- HOLD_FORWARD (14 R414, R416; 16 R457): the placement's cores on this hub freeze, and a pending release is cancelled. -/
def execHoldForward (home bench number : Nat) (incarn : BitVec 16) (s : State) : Result :=
  if ¬ s.msgCurrent home bench incarn then .next s.staleMessage else
  match s.placement home bench number with
  | none => .next s
  | some p => .next (if p.state = .releasing then s else s.freezeHere p)

/-- LATE_REPORT (14 R415; 16 R484): the home hub notes a holder's LATE SET or CLEAR and stamps a release when nothing is outstanding. -/
def execLateReport (hub bench number die core : Nat) (set : Bool) (incarn : BitVec 16) (s : State) : Result :=
  if ¬ s.msgCurrent s.hubId bench incarn then .next s.staleMessage else
  match s.ownPlacement bench number with
  | none => .next s
  | some p =>
    if p.state = .releasing then .next s
    else if set then
      .next (((s.lateHere p (hub, die, core)).freezeHere p).trace bench 0xFF 6 0 (BitVec.ofNat 64 number) (BitVec.ofNat 32 (die * 256 + core)))
    else .next ((s.modPlacement p.home bench number fun x => { x with lates := x.lates.filter fun e => e != (hub, die, core) }).tryRelease bench number)

/-- RELEASE_MESSAGE (14 R415): a hub holds RELEASE(T) until hearth time T. -/
def execReleaseMessage (home bench number : Nat) (incarn : BitVec 16) (time : BitVec 64) (s : State) : Result :=
  if ¬ s.msgCurrent home bench incarn then .next s.staleMessage else
  .next (s.modPlacement home bench number fun x => if x.state = .releasing then x else { x with release := some time })

/-- A pending RELEASE(T) is applied: RELEASE to every die of the placement, or the start of its cores. -/
def State.applyRelease (s : State) (p : Placement) (t : BitVec 64) : State :=
  if ¬ p.started then s.startPlacement p false
  else
    let held := s.now.toNat - (p.holdStart.getD s.now).toNat
    let s := s.modPlacement p.home p.bench p.number fun x => { x with
      frozen := false, release := none, holdStart := none, holdLong := false, state := .running }
    let s := (s.placeDies p).foldl (fun s d => s.sendDie d (.release p.home p.bench p.number t)) s
    if p.home = s.hubId then s.trace p.bench 0xFF 7 0 (BitVec.ofNat 64 p.number) (BitVec.ofNat 32 held) else s

/-- RELEASE_TIME (14 R415): hearth time has reached T. -/
def execReleaseTime (home bench number : Nat) (s : State) : Result :=
  match s.placement home bench number with
  | none => .next s
  | some p =>
    match p.release with
    | none => .next s
    | some t => .next (if s.now.toNat < t.toNat then s else s.applyRelease p t)

/-- HOLD_LONG (14 R417): a schedule hold has lasted 1 ms: one notice to the bench. -/
def execHoldLong (bench placement : Nat) (s : State) : Result :=
  match s.ownPlacement bench placement with
  | none => .next s
  | some p =>
    match p.holdStart with
    | none => .next s
    | some t =>
      let n := s.now.toNat - t.toNat
      if ¬ p.frozen ∨ p.lates.isEmpty ∨ p.holdLong ∨ n < 1000 then .next s else
      .next ((s.modPlacement p.home bench placement fun x => { x with holdLong := true }).notice bench 0x0A 0 noRing t (BitVec.ofNat 32 n) bench)

/-! ### A band on another hub (14 R405; 16 R480) -/

/-- REMOTE_BAND_PLACEMENT (14 R400 step 4, R405; 16 R457, R480): the guest is admitted and its pins installed; its band is placed and its cores configured; the home is told the cores, none where it does not fit, or which range cannot be pinned. -/
def execRemoteBandPlacement (home bench : Nat) (incarn : BitVec 16) (classId : Nat) (rateCap : BitVec 32) (number row rows cols flags queues seed budget : Nat) (ranges : List (Nat × Nat × Bool)) (s : State) : Result :=
  if ¬ s.chartered ∨ home = s.hubId then .next s
  else if (s.guestSlot home bench).isSome ∧ ¬ s.msgCurrent home bench incarn then .next s.staleMessage
  else
    match s.admitGuest home bench incarn classId rateCap with
    | (none, s) => .next (s.sendHub home (.bandDone home bench number [] none))
    | (some g, s) =>
      match s.pinRanges (256 + g) ranges with
      | (some e, s) => .next (s.sendHub home (.bandDone home bench number [] (some e)))
      | (none, s) =>
      let free := s.freeCores
      let cores := s.bandCores (s.placeInputs rows cols seed budget free) free row rows cols
      if s.dense.outOfService ∨ ¬ s.domainWorks 9 ∨ s.dense.placing.isSome ∨ cores.length < rows * cols ∨ (s.placement home bench number).isSome then
        .next (s.sendHub home (.bandDone home bench number [] none))
      else
        let place : Placement := ⟨home, bench, number, .loading, rows, cols, cores, 0, [], false, none, false, none, false⟩
        let s := ({ s with placements := s.placements ++ [place] }).tallyXlt (256 + g) ((cores.map PlacedCore.die).eraseDups)
        let s := cores.foldl (fun s c => s.sendDie c.die (.loadCore c.core home (256 + g) number c.row c.col flags queues)) s
        .next (s.sendHub home (.bandDone home bench number (cores.map fun c => (c.die, c.core, c.row, c.col)) none))

end Sys2Proof.Machine
end

