-- ==== Sys2Proof/Machine/SpindleOps.lean ====
section
/-!
DEFINITION. The spindle ports: attempts of the Bridgekeeper, the loss of a die, answers to what a die was asked (13).
-/

namespace Sys2Proof.Machine

/-- A spindle port of the grade that start-up BIST found fit and the LINKS section enables. -/
def State.portFitted (s : State) (d : Nat) : Bool := decide (d < s.nDies) && !(s.die d).unfit

/-- Dies may be powered: from PHASE LINKS on (02 Table 2; 13 R385, R390). -/
def State.mayPower (s : State) : Bool :=
  (s.chip.phase == .links || s.chip.phase == .hosts || s.chip.phase == .running) && !s.dbg.pinDriving

/-- The dies in the order in which they are powered: that of the LINKS section, then by index (02 R51; 13 R382). -/
def State.dieOrder (s : State) : List Nat :=
  let first := match s.chip.cfg with
    | some c => if c.defaults then [] else Config.linksDieOrder c.links
    | none => []
  (first ++ List.range s.nDies).eraseDups

/-- It is the die's turn to be powered (13 R382): every fitted die before it whose domain is ON has been, and 5 ms have passed since the last one. -/
def State.dieTurn (s : State) (d : Nat) : Bool :=
  ((s.dieOrder.takeWhile fun e => e != d).all fun e => !s.portFitted e || !s.domainOn (dieDomain e) || (s.die e).state != .off) &&
  (List.range s.nDies).all fun e => e == d || !(s.die e).pwrEn || decide ((s.die e).onSince.toNat + 5000 ≤ s.now.toNat)

/-- An attempt begins: DIE_PWR_EN asserted (13 R383 step 1). -/
def Spindle.attempt (now : BitVec 64) (x : Spindle) : Spindle :=
  { x with
    pwrEn := true, onSince := now, stepAt := now, state := .powering, step := .power
    attempts := if x.attempts = 255 then 255 else x.attempts + 1, lost := false }

/-- A step of an attempt begins. -/
def Spindle.toStep (now : BitVec 64) (n : SpStep) (x : Spindle) : Spindle := { x with step := n, stepAt := now }

/-- Microseconds that a step may take (13 R383); none for the zero fill. -/
def SpStep.bound : SpStep → Option Nat
  | .power => Option.some 50000
  | .lanes => Option.some 2000
  | .parameters => Option.some 1000
  | .credits => Option.some 10
  | _ => Option.none

/-- An attempt fails with a CAUSE: DIE_PWR_EN is deasserted; the wait of R384 follows, or the port stays ABSENT. -/
def Spindle.fail (x : Spindle) (now : BitVec 64) (cause : BitVec 4) : Spindle :=
  { x with
    pwrEn := false, offSince := now, step := .none, cause := cause
    state := if 8 ≤ x.fails then .absent else .backoff, fails := if 8 ≤ x.fails then x.fails else x.fails + 1 }

/-- Milliseconds of the wait after a failed attempt. -/
def backoffMs (fails : Nat) : Nat := 2 ^ (fails - 1)

/-- An attempt is past its power step. -/
def Spindle.pastPower (x : Spindle) : Bool := x.step != .none && x.step != .power

/-- Ten seconds from now. -/
def State.in10s (s : State) : BitVec 64 := s.now + 10000000

/-! ### A lost die (13 R388, R389) -/

/-- Lathe requests to a die end: reads with SPINDLE_ERROR DIE_LOST, writes likewise (13 Table 3). -/
def State.dropLatheWork (s : State) (d : Nat) : State :=
  let s := s.lathes.foldl (fun s e => (e.2.reads.filter fun u => u.die == some d).foldl
    (fun s u => s.failRead e.1 u.slot 0x22 3 fun u => u.spa) s) s
  s.lathes.foldl (fun s e => (e.2.writes.filter fun u => u.die == some d).foldl (fun s u => s.ackWrite e.1 u.slot .dieLost) s) s

/-- Requests of other sleds to a lost die are answered DIE_LOST. -/
def State.remoteLost (s : State) (d : Nat) : State :=
  let gone := s.remotes.filter fun q => q.die == d
  let s := { s with remotes := s.remotes.filter fun q => q.die != d }
  gone.foldl (fun s q => s.sendHub q.sender (.dataAnswer q.id .dieLost [])) s

/-- Step 2: every outstanding request to the die ends; core requests forwarded to it, and its own, are discarded. -/
def State.endDieRequests (s : State) (d : Nat) : State :=
  let s := s.dropLatheWork d
  let s := (s.bar2Reads.filter fun q => q.die == d).foldl State.bar2Lost s
  let s := (s.bar2Writes.filter fun q => q.die == d).foldl (fun s q => s.putAcked q.id .dieLost) s
  let f : Spindle → Spindle := fun x => { x with xlt := x.xlt.filter fun q => q.target != d && q.die != d }
  let s := { s with spindles := s.spindles.map fun (e : Nat × Spindle) => (e.1, f e.2) }
  (s.remoteLost d).pumpInvAcks

/-- Zero fills of a lost die end with it: a return that waited completes, a grant that waited is looked at again. -/
def State.endDieFills (s : State) (d : Nat) : State :=
  let back := (s.returning.map fun r => r.1 == d).getD false
  let s := { s with zeroFill := s.zeroFill.filter fun z => z.1 != d }
  if back then s.endCommand resOk 0
  else if s.mailbox.busy ∧ s.mailbox.code = 7 ∧ s.cascade.forwarded.isNone then s.runGrant (benchArg s.mailbox.arg) else s

/-- A bench of this hub holds a grant on the die, or has a core of a placement on it. -/
def State.benchOnDie (s : State) (b d : Nat) : Bool :=
  ((s.bench b).grants.any fun g => g.hub == 255 && g.die == d) ||
  s.placements.any fun p => p.home == s.hubId && p.bench == b && p.cores.any fun c => c.hub == s.hubId && c.die == d

/-- A guest loses its state on a lost die, and its home is asked to sweep the bench (16 R481). -/
def State.guestOffDie (s : State) (g d : Nat) : State :=
  match s.guest g with
  | none => s
  | some x =>
    let onIt : Placement → Bool := fun p => p.home == x.home && p.bench == x.bench && p.cores.any fun c => c.hub == s.hubId && c.die == d
    if ¬ x.grants.any (fun e => e.die == d) ∧ ¬ s.placements.any onIt then s else
    let s := s.setGuest g (some { x with grants := x.grants.filter fun e => e.die != d })
    let s := { s with
      recovery := { s.recovery with tallies := s.recovery.tallies.filter fun t => !(t.owner == benchOwner (256 + g) && (t.kind == 0x10 || t.kind == 0x0A) && t.unit == d) }
      placements := s.placements.map fun p => if onIt p then { p with cores := p.cores.filter fun c => !(c.hub == s.hubId && c.die == d) } else p }
    s.sendHub x.home (.askSweep x.bench x.incarn)

/-- A die in UP or RECOVERY is lost (13 R388): out of the placement map, its requests, translations and benches ended, bench 0 told; DIE_PWR_EN is deasserted for 100 ms (R389). -/
def State.dieLost (s : State) (d : Nat) (cause : BitVec 4) : State :=
  let dap := (s.die d).sent.any (fun u => u.key == .dap) || (s.die d).queue.any fun q => q.msg.key == .dap
  let s := if dap then s.modDebug Debug.atHole else s
  let s := s.modDie d fun x => { x with
    state := .backoff, step := .none, cause := cause, pwrEn := false, offSince := s.now, lost := true, fails := 0, attempts := 0
    heldMsgs := [], queue := [], sent := [], turns := 0, crcRun := 0, failedRecovery := none, scrubbing := false }
  let s := ((s.dropEntries fun e => e.onDie d 0 (2 ^ 36)).endDieRequests d).modDie d fun x => { x with queue := [] }
  let benches := s.liveBenches.filter fun b => s.benchOnDie b d && ((s.bench b).state == .active || (s.bench b).state == .held)
  let s := benches.foldl (fun s b => s.startSweep b 4 false false) s
  let s := (s.cascade.guests.map Prod.fst).foldl (fun s g => s.guestOffDie g d) s
  let s := (s.endDieFills d).notice 0 0x0B 0 noRing (BitVec.ofNat 64 d) (BitVec.ofNat 32 benches.length) 0
  s.logFault 4 1 (BitVec.ofNat 64 d) (cause.setWidth 64)

/-- The die is UP or in RECOVERY, so it can be lost. -/
def Spindle.inService (x : Spindle) : Bool := x.state == .up || x.state == .recovery

/-- A cause that loses a die in service, and fails an attempt under way. -/
def State.dieCause (s : State) (d : Nat) (cause : BitVec 4) : State :=
  if (s.die d).inService then s.dieLost d cause
  else if (s.die d).step ≠ SpStep.none then s.modDie d fun x => x.fail s.now cause else s

/-- A request to the die has been outstanding for 2 ms. -/
def State.dieOverdue (s : State) (d : Nat) : Bool := (s.die d).sent.any fun u => decide (u.since.toNat + 2000 ≤ s.now.toNat)

/-- A message of the HOLD class (13 R372). -/
def DieMsg.isHold : DieMsg → Bool
  | .hold _ _ _ => true
  | .release _ _ _ _ => true
  | _ => false

/-- Retraining in place has succeeded (13 R386): UP, what waited is sent, HOLD messages first (R372), and requests go on at their credit boundary. -/
def State.portResumes (s : State) (d : Nat) : State :=
  let held := (s.die d).heldMsgs
  let s := s.modDie d fun x => { x with state := .up, recoveries := x.recoveries + 1, heldMsgs := [] }
  let s := (held.filter DieMsg.isHold ++ held.filter fun m => !m.isHold).foldl (fun s m => s.sendDie d m) s
  s.pumpPort d (s.die d).queue.length

/-! ### Core requests (13 R370, R377, R380; 10 R300) -/

/-- Number of a forwarded core request at the die that serves it. -/
def xltKey (die id : Nat) : Nat := 3 * (8 * id + die) + 1

/-- Where a core request goes. -/
inductive CoreTo where
  /-- a die of this hub -/
  | die (d off : Nat)
  /-- a die of another hub -/
  | hub (h d off : Nat)
  /-- a pin violation, with the DVA -/
  | violation (addr : Nat)
  /-- the reload of its pin is under way -/
  | wait
  deriving DecidableEq, Repr

/-- A reload of a pinned entry that a DVA needs is under way (10 R300). -/
def State.pinComing (s : State) (o va : Nat) : Bool :=
  s.hearth.refilling ||
  s.headstock.misses.any fun m => m.bench == o && m.modeD && m.waiters.any fun w =>
    match w with
    | .pinLoad z => decide (m.page * 4096 / 2 ^ z = va / 2 ^ z)
    | _ => false

/-- The target of a core request of an owner, whose core stands in this placement: a coordinate names a core of that placement only (01 R28; 13 R370). -/
def State.coreTo (s : State) (o : Nat) (p : Placement) (target : XltTarget) (write : Bool) (len : Nat) : CoreTo :=
  match target with
  | .dva va =>
    match s.lookup o true 0 va with
    | some e =>
      let d := e.frame / 2 ^ 36
      let off := e.frame % 2 ^ 36
      if e.pin ∧ e.target = 0 ∧ (e.w ∨ ¬ write) ∧ s.dieMapped d ∧ s.holds o d off (2 ^ e.size) then .die d (off + va % 2 ^ e.size)
      else if s.pinComing o va then .wait else .violation va
    | none => if s.pinComing o va then .wait else .violation va
  | .coord n row col off =>
    if n ≠ p.number ∨ 512 * 1024 < off + len ∨ p.state = .releasing then .violation 0 else
    match p.coreAt row col with
    | some c => if c.hub = s.hubId then .die c.die (dieScr c.core off) else .hub c.hub c.die (dieScr c.core off)
    | none => .violation 0

/-- REFUSED for a core request. -/
def State.refuseCore (s : State) (d id : Nat) : State := s.sendDie d (.xltAnswer id true false [])

/-- A core raises a hold cause of its bench (05 R126; 13 R370, R371): the bench of this hub is held; the home of a guest is told. -/
def State.coreCause (s : State) (o cause : Nat) (address : BitVec 64) (core : BitVec 32) : State :=
  if o < 256 then s.holdFor o cause address core else
  match s.guest (o - 256) with
  | some x => s.sendHub x.home (.coreCause x.bench x.incarn cause address core)
  | none => s

/-- A pin violation (13 R370): REFUSED, and the bench is held with cause PIN_VIOLATION. -/
def State.pinViolation (s : State) (o d core id addr : Nat) : State :=
  (s.refuseCore d id).coreCause o 1 (BitVec.ofNat 64 addr) (BitVec.ofNat 32 (d * 256 + core))

/-- XLT credits of an owner in use at a die: headers and blocks (13 R377). -/
def Spindle.xltUsed (x : Spindle) (o : Nat) : Nat × Nat :=
  let mine := x.xlt.filter fun q => q.bench == o
  (mine.length, mine.foldl (fun n q => n + q.blocks) 0)

/-- XLT credits in use at a die: headers and blocks, at most 256 and 512 (13 R375 Table 2). -/
def Spindle.xltTotal (x : Spindle) : Nat × Nat := (x.xlt.length, x.xlt.foldl (fun n q => n + q.blocks) 0)

/-- The answer of the die that served a core request: data, poison or REFUSED; nothing for a read of a cut bench or a lost die (13 Table 3, R378). -/
def State.answerCore (s : State) (q : XltReq) (status : MemStatus) (data : List Byte) : State :=
  let s := s.modDie q.die fun x => { x with xlt := x.xlt.filter fun r => r.id != q.id }
  let s := s.pumpInvAcks
  if q.chaff ∧ ¬ q.write then s else
  match status with
  | .ok => s.sendDie q.die (.xltAnswer q.id false false data)
  | .dieEcc => s.sendDie q.die (.xltAnswer q.id false true data)
  | .ledgerEcc => s.sendDie q.die (.xltAnswer q.id false true data)
  | .writeRefused => s.refuseCore q.die q.id
  | .dieLost => s

/-- The answer to a BAR2 read (13 R381, Table 3). -/
def State.answerBar2 (s : State) (q : Bar2Req) (status : MemStatus) (data : List Byte) : State :=
  let t := { s with bar2Reads := s.bar2Reads.filter fun r => r.id != q.id }
  match status with
  | .ok => t.complete q.port q.fn q.hid (q.spa.toNat % 4096) .ok data
  | .writeRefused => t.complete q.port q.fn q.hid (q.spa.toNat % 4096) .ok data
  | .dieLost => s.bar2Lost q
  | _ => (t.complete q.port q.fn q.hid (q.spa.toNat % 4096) .poisoned data).logError 4 2 q.spa (BitVec.ofNat 64 (q.port + 256 * q.fn))

end Sys2Proof.Machine
end

