-- ==== Sys2Proof/Machine/CascadeOps.lean ====
section
/-!
DEFINITION. The cascade: Envan links, routes, the charter and its succession, rack time, the roster, the loss of a hub (16).
-/

namespace Sys2Proof.Machine

/-! ### Envan links (16 R454, R455, R477, R478) -/

/-- An Envan link of the grade that start-up BIST found fit. -/
def State.envanFitted (s : State) (l : Nat) : Bool := decide (l < s.nEnvans) && !(s.envan l).unfit

/-- An attempt of a link fails with a CAUSE: the wait of R384 follows, or the link stays ABSENT and is tried every 10 s. -/
def State.envanFail (s : State) (l : Nat) (cause : BitVec 4) : State :=
  let x := s.envan l
  let absent := decide (8 ≤ x.fails)
  let n := if absent then x.fails else x.fails + 1
  let s := s.modEnvan l fun x => { x with
    state := if absent then .absent else .backoff, fails := n, cause := cause, partner := 0, partnerLink := 0 }
  (s.cancelDeadline (.envanRetry l)).addDeadline (.envanRetry l)
    (if absent then s.in10s else s.now + BitVec.ofNat 64 (backoffMs n * 1000))

/-- The wait of a link's next attempt has not passed. -/
def State.envanWaits (s : State) (l : Nat) : Bool :=
  s.hearth.deadlines.any fun d => d.kind == .envanRetry l && decide (s.now.toNat < d.time.toNat)

/-- An attempt of a link begins. -/
def Envan.attempt (x : Envan) : Envan :=
  { x with state := .training, attempts := if x.attempts = 255 then 255 else x.attempts + 1 }

/-- Some Envan link is UP. -/
def State.anyLinkUp (s : State) : Bool := (List.range s.nEnvans).any s.linkUp

/-- Messages that waited for a route go (16 R477), and placements answer to the routes that there are: those cut off from their home, and this hub's own cut off from a holder, freeze; this hub's own that nothing holds are released (16 R478). -/
def State.settleRoutes (s : State) : State :=
  s.placements.foldl (fun s p =>
    if p.state = .releasing ∨ ¬ p.started then s
    else if p.home ≠ s.hubId then (if s.routed p.home ∨ p.frozen ∧ p.release.isNone then s else s.freezeHere p)
    else if (s.placeHubs p).all s.routed then s.tryRelease p.bench p.number
    else if p.frozen ∧ p.release.isNone then s else s.freezeAll p) s.sendWaiting

/-! ### Hearth time (16 R467–R471; 03 R64, R65) -/

/-- A time moved forward. -/
def later (n : BitVec 64) (t : BitVec 64) : BitVec 64 := t + n

/-- What a bench measures by hearth time moves with it. -/
def Bench.stepTime (x : Bench) (n : BitVec 64) : Bench :=
  let desc : Desc → Desc := fun d => { d with paceWait := d.paceWait.map (later n), roomWait := d.roomWait.map fun t => { t with since := t.since + n } }
  let ring : Ring → Ring := fun r => { r with channelSince := r.channelSince + n, descs := r.descs.map desc }
  { x with
    deadline := if x.detached ∧ x.deadline ≠ 0 then x.deadline + n else x.deadline
    sweep := x.sweep.map fun w => { w with since := w.since + n }
    attach := { x.attach with lastBad := x.attach.lastBad.map (later n) }
    rings := x.rings.map fun (e : Nat × Ring) => (e.1, ring e.2) }

/-- The hearth's timers and deadlines move with hearth time. -/
def Hearth.stepTime (h : Hearth) (n : BitVec 64) : Hearth :=
  { h with
    time := h.time + n
    deadlines := h.deadlines.map fun d => { d with time := d.time + n }
    detectRetry := h.detectRetry.map fun e => (e.1, e.2.map (later n))
    coolSince := h.coolSince.map (later n)
    domains := h.domains.map fun e => (e.1, { e.2 with idleSince := e.2.idleSince + n, stepSince := e.2.stepSince + n }) }

/-- What recovery measures by hearth time moves with it: expiries of tallies and locks. -/
def Recovery.stepTime (r : Recovery) (n : BitVec 64) : Recovery :=
  { r with
    tallies := r.tallies.map fun t => if t.expiry = noExpiry then t else { t with expiry := t.expiry + n }
    locks := r.locks.map fun l => { l with expiry := l.expiry + n }
    whittlers := r.whittlers.map fun e => (e.1, { e.2 with resets := e.2.resets.map (later n) }) }

/-- Presence and charter silence move with hearth time. -/
def Cascade.stepTime (c : Cascade) (n : BitVec 64) : Cascade :=
  { c with
    charterHeard := c.charterHeard.map (later n)
    presence := c.presence.map fun e => (e.1, { e.2 with heard := e.2.heard + n }) }

/-- Hearth time steps forward by `us` µs (16 R469; 03 R64, R65): every pending timer and deadline keeps its remaining time; a RELEASE(T) is not moved, and one that the step reaches is applied. -/
def State.forwardStep (s : State) (us : Nat) : State :=
  let n := BitVec.ofNat 64 us
  let use : PortUse → PortUse := fun u => { u with since := u.since + n }
  let lanes : Tab (BitVec 64 × BitVec 16) → Tab (BitVec 64 × BitVec 16) := fun t => t.map fun e => (e.1, e.2.1 + n, e.2.2)
  let spindle : Spindle → Spindle := fun x => { x with
    onSince := x.onSince + n, stepAt := x.stepAt + n, offSince := x.offSince + n, scrubAt := x.scrubAt + n, sent := x.sent.map use
    recal := lanes x.recal, failedRecovery := x.failedRecovery.map (later n) }
  let envan : Envan → Envan := fun x => { x with recal := lanes x.recal, failedRecovery := x.failedRecovery.map (later n) }
  let lathe : Lathe → Lathe := fun x => { x with
    halt := x.halt.map fun h => { h with since := h.since + n }, unattributed := x.unattributed.map fun t => t + n }
  let pace : PaceTimer → PaceTimer := fun x => if x.armed then { x with armedAt := x.armedAt + n } else x
  let s := { s with
    chip := { s.chip with
      flash := { s.chip.flash with since := s.chip.flash.since + n }, teardownAt := s.chip.teardownAt + n, linksAt := s.chip.linksAt + n
      search := { s.chip.search with bound := s.chip.search.bound.map (later n) } }
    hearth := s.hearth.stepTime n
    benches := s.benches.map fun (e : Nat × Bench) => (e.1, e.2.stepTime n)
    recovery := s.recovery.stepTime n
    cascade := s.cascade.stepTime n
    bg := { s.bg with
      telemAt := s.bg.telemAt.map (later n), runningAt := s.bg.runningAt + n, tested := s.bg.tested.map fun (e : TestUnit × BitVec 64) => (e.1, e.2 + n) }
    spindles := s.spindles.map fun (e : Nat × Spindle) => (e.1, spindle e.2)
    envans := s.envans.map fun (e : Nat × Envan) => (e.1, envan e.2)
    lathes := s.lathes.map fun (e : Nat × Lathe) => (e.1, lathe e.2)
    launches := s.launches.map fun (l : Launch) => { l with placeStart := l.placeStart + n }
    placements := s.placements.map fun (p : Placement) => { p with holdStart := p.holdStart.map (later n) }
    paceTimers := s.paceTimers.map fun (e : Nat × PaceTimer) => (e.1, pace e.2) }
  s.placements.foldl (fun s p =>
    match p.release with
    | some t => if t.toNat ≤ s.now.toNat then s.applyRelease p t else s
    | none => s) s

/-- An OFFSET within 20 µs is closed by rate: steered where it is within 250 ns, by a value that the spec leaves open, else in 50 ms, within ±500 ppm (16 Table 6). -/
def State.slew (s : State) (ns : Int) : State :=
  if ns.natAbs ≤ 250 then
    let (v, s) := s.draw
    s.setTime .disciplined ((v.toNat % 100001 : Nat) - 50000)
  else s.setTime .slewing (max (-50000) (min 50000 (2 * ns)))

/-- A hub disciplines its hearth time by an OFFSET in ns (16 R468–R470): beyond 20 µs behind it steps forward; ahead it reports its time to the master. -/
def State.discipline (s : State) (ns : Int) : State :=
  let s := { s with cascade := { s.cascade with offset := ns } }
  if ns.natAbs ≤ 20000 then s.slew ns
  else if 0 < ns then (s.forwardStep (ns / 1000).toNat).slew (ns % 1000)
  else
    let s := { s with cascade := { s.cascade with timeState := .resync } }
    match s.cascade.charter with
    | some c => if s.cascade.state = .uncharted then s else s.sendHub c.master (.timeReport s.now)
    | none => s

/-! ### Digest, eligibility, presence (16 R458, R459, R461, R463) -/

/-- The header of the selected slot. -/
def State.header (s : State) : Option SlotHeader :=
  if s.chip.cfgSource = 0 then s.chip.search.headerA else if s.chip.cfgSource = 1 then s.chip.search.headerB else none

/-- SECTION_CHECK of a section of the selected slot; 0 where it has none. -/
def State.sectionCheck (s : State) (type : Nat) : Nat :=
  match s.header.bind fun h => h.sections.find? fun e => e.type == type with
  | some e => e.check.toNat
  | none => 0

/-- RACK_FAMILY of the configuration. -/
def State.family (s : State) : BitVec 64 := (s.chip.cfg.map ImageCfg.rackFamily).getD 0
/-- IMAGE_VERSION of the configuration. -/
def State.version (s : State) : BitVec 32 := (s.chip.cfg.map ImageCfg.version).getD 0

/-- CHARTER_DIGEST of this hub's configuration (16 R463). -/
def State.digest (s : State) : List Byte :=
  (Config.sha384 (leBytes 8 s.family.toNat ++ leBytes 4 s.version.toNat ++
    (List.range 5).flatMap fun k => leBytes 4 (s.sectionCheck (k + 1)))).take 16

/-- SUCCESSORS of the CASCADE section. -/
def State.successors (s : State) : List Nat := ((s.chip.cfg.bind ImageCfg.cascade).map CascadeCfg.successors).getD []

/-- The hub is eligible for the master role (16 R458). -/
def State.eligible (s : State) : Bool :=
  s.chip.straps.masterEligible && !((s.chip.cfg.map ImageCfg.defaults).getD true) &&
    ((s.chip.cfg.bind ImageCfg.cascade).map CascadeCfg.masterCapable).getD false && s.successors.contains s.hubId

/-- What is known of another hub. -/
def State.presenceOf (s : State) (h : Nat) : Option Presence := (s.cascade.presence.find? fun e => e.1 == h).map Prod.snd

/-- A hub is live to this one (16 R459). -/
def State.live (s : State) (h : Nat) : Bool := ((s.presenceOf h).map fun p => !p.silent).getD false

/-- A hub is a member of the charter that this hub follows. -/
def State.member (s : State) (h : Nat) : Bool := ((s.cascade.charter.map Charter.members).getD 0).getLsbD h

/-- Hubs that this one can reach: members, hubs it hears, and partners of its links. -/
def State.reachable (s : State) : List Nat :=
  (List.range 32).filter fun h => h != s.hubId && (s.member h || s.live h ||
    (List.range s.nEnvans).any fun l => s.linkUp l && (s.envan l).partner == h)

/-- A message to every hub that can be reached. -/
def State.flood (s : State) (m : EnvanMsg) : State := s.reachable.foldl (fun s h => s.sendHub h m) s

/-- The presence message of this hub. -/
def State.sendPresence (s : State) : State :=
  s.flood (.presence s.hubId s.cascade.inst s.eligible s.cascade.highest)

/-- No valid charter has been heard for 2 s, counted from the end of PHASE LINKS at first (16 R461). -/
def State.charterSilent (s : State) : Bool :=
  (s.cascade.charterHeard.map fun t => decide (t.toNat + 2000000 ≤ s.now.toNat)).getD false

/-! ### Routes (16 R464) -/

/-- Hubs within `n` hops of a hub over cables between hubs that may carry the route. -/
def nearTo (cables : List (Nat × Nat × Nat)) (ok : Nat → Bool) (dst : Nat) : Nat → List Nat
  | 0 => [dst]
  | n + 1 =>
    let l := nearTo cables ok dst n
    (l ++ cables.filterMap fun c => if l.contains c.2.2 ∧ ok c.1 then some c.1 else none).eraseDups

/-- Hops of the shortest path between two hubs, up to 8. -/
def hopsTo (cables : List (Nat × Nat × Nat)) (ok : Nat → Bool) (src dst : Nat) : Option Nat :=
  (List.range 9).find? fun n => (nearTo cables ok dst n).contains src

/-- The first links that lead from one hub to another, with hops and next hub. -/
def firstLinks (cables : List (Nat × Nat × Nat)) (ok : Nat → Bool) (src dst : Nat) : List (Nat × Nat × Nat) :=
  (cables.filter fun c => c.1 == src && ok c.2.2).filterMap fun c =>
    match hopsTo cables (fun h => ok h && h != src) c.2.2 dst with
    | some n => if n + 1 ≤ 8 then some (n + 1, c.2.1, c.2.2) else none
    | none => none

/-- The route taken first: fewer hops, then the lower link, then the lower next hub. -/
def bestRoute : List (Nat × Nat × Nat) → Option (Nat × Nat × Nat)
  | [] => none
  | x :: r =>
    match bestRoute r with
    | none => some x
    | some y => if x.1 < y.1 ∨ x.1 = y.1 ∧ (x.2.1 < y.2.1 ∨ x.2.1 = y.2.1 ∧ x.2.2 ≤ y.2.2) then some x else some y

/-- The routes of an ordered pair of hubs. -/
def routeOf (cables : List (Nat × Nat × Nat)) (ok : Nat → Bool) (src dst : Nat) : Option Route :=
  let l := firstLinks cables ok src dst
  (bestRoute l).map fun p =>
    match bestRoute (l.filter fun x => x.2.1 != p.2.1) with
    | some a => ⟨src, dst, p.2.1, p.1, a.2.1, a.1⟩
    | none => ⟨src, dst, p.2.1, p.1, 15, 0⟩

/-- The routes of every ordered pair of members. -/
def routesOf (cables : List (Nat × Nat × Nat)) (members : List Nat) : List Route :=
  members.flatMap fun a => members.filterMap fun b => if a = b then none else routeOf cables members.contains a b

/-- Hub numbers of a mask. -/
def maskHubs (m : BitVec 32) : List Nat := (List.range 32).filter m.getLsbD
/-- The mask of hub numbers. -/
def hubMask (l : List Nat) : BitVec 32 := l.foldl (fun m h => m ||| (1#32 <<< h)) 0

/-! ### Loss of hubs, the roster (16 R474–R476) -/

/-- What a declared loss ends: tokens, remote requests, strips, forwarded commands (16 Table 8). -/
def State.hubLost (s : State) (h : Nat) : State :=
  let s := s.liveBenches.foldl (fun s b => s.modInv b fun x => { x with unacked := x.unacked.filter fun q => q.1 != h }) s
  let s := s.lathes.foldl (fun s e => (e.2.reads.filter fun u => u.hub == some h).foldl (fun s u => s.failRead e.1 u.slot 0x22 3 SlotUse.spa) s) s
  let s := s.lathes.foldl (fun s e => (e.2.writes.filter fun u => u.hub == some h).foldl (fun s u => s.ackWrite e.1 u.slot .dieLost) s) s
  let f : Spindle → Spindle := fun x => { x with xlt := x.xlt.filter fun q => q.target != 8 + h }
  let s := { s with spindles := s.spindles.map (fun (e : Nat × Spindle) => (e.1, f e.2)), remotes := s.remotes.filter fun q => q.sender != h }
  let s := s.pumpInvAcks
  let s := { s with cascade := { s.cascade with waiting := s.cascade.waiting.filter fun e => e.1 != h } }
  if (s.cascade.forwarded.map fun q => q.2.1 == h).getD false then
    ({ s with cascade := { s.cascade with forwarded := none } }).endCommand resRange 0
  else s

/-- The effects of hubs declared lost. -/
def State.hubsLost (s : State) (l : List Nat) : State :=
  let l := l.filter fun h => h != s.hubId
  if l.isEmpty then s else (l.foldl (fun s h => s.hubLost h) s).partnersLost l

/-- An entry of a bench. -/
def entryOf (l : List RosterEntry) (home b : Nat) : Option RosterEntry := l.find? fun e => e.home == home && e.bench == b

/-- A bench of this hub needs a holder: it holds a grant there, or cores of a placement (16 R474). -/
def State.needsHub (s : State) (b h : Nat) : Bool :=
  ((s.bench b).grants.any fun g => g.hub == h) ||
  s.placements.any fun p => p.home == s.hubId && p.bench == b && p.cores.any fun c => c.hub == h

/-- A guest takes its RATE_CAP from the roster; as reported, it is an orphan where its bench has no entry or its hub no place in HOLDERS. -/
def State.actGuest (s : State) (new : List RosterEntry) (told : List (Nat × Nat × BitVec 16)) (g : Nat) : State :=
  match s.guest g with
  | none => s
  | some x =>
    match (entryOf new x.home x.bench).filter fun e => e.incarn == x.incarn with
    | some e =>
      if told.contains (x.home, x.bench, x.incarn) ∧ ¬ e.holders.getLsbD s.hubId then s.orphanGuest g
      else s.setGuest g (some { x with rateCap := e.rateCap })
    | none => if told.contains (x.home, x.bench, x.incarn) then s.orphanGuest g else s

/-- A spanning bench is swept where its entry lost a holder that it needs, or where the roster lists it not at all (16 R474). -/
def State.actBench (s : State) (old new : List RosterEntry) (told : List (Nat × BitVec 16)) (b : Nat) : State :=
  match entryOf new s.hubId b with
  | some e =>
    let was := ((entryOf old s.hubId b).map RosterEntry.holders).getD 0
    if (maskHubs was).any fun h => h != s.hubId && !e.holders.getLsbD h && s.needsHub b h then s.startSweep b 4 false false else s
  | none => if told.contains (b, (s.bench b).incarn) then s.startSweep b 5 true false else s

/-- The hub acts on a settled roster, by what it had reported for it. -/
def State.actRoster (s : State) (old new : List RosterEntry) : State :=
  let told := ((s.cascade.reports.find? fun r => r.1 == s.hubId).map Prod.snd).getD ([], [])
  let s := { s with cascade := { s.cascade with reports := [] } }
  let s := (s.cascade.guests.map Prod.fst).foldl (fun s g => s.actGuest new told.2 g) s
  s.cascade.spanning.foldl (fun s b => s.actBench old new told.1 b) s

/-- What is kept of a roster entry after an epoch: its home is a member that reports it; HOLDERS are the home and the members that report a guest of its incarnation. -/
def keepEntry (members : BitVec 32) (reports : List (Nat × List (Nat × BitVec 16) × List (Nat × Nat × BitVec 16))) (e : RosterEntry) : Option RosterEntry :=
  if members.getLsbD e.home ∧ reports.any (fun r => r.1 == e.home && r.2.1.any fun q => q.1 == e.bench) then
    some { e with holders := hubMask ((List.range 32).filter fun h =>
      h == e.home || (members.getLsbD h && reports.any fun r => r.1 == h && r.2.2.contains (e.home, e.bench, e.incarn))) }
  else none

/-- The master settles the roster from the members' reports, and acts on it itself (16 R474). -/
def State.settleRoster (s : State) : State :=
  match s.cascade.charter with
  | none => s
  | some c =>
    let new := c.roster.filterMap (keepEntry c.members s.cascade.reports)
    let c2 := { c with roster := new, rosterSeq := c.rosterSeq + 1 }
    let s := ({ s with cascade := { s.cascade with charter := some c2 } }).toMembers (.rosterUpdate c2.rosterSeq new)
    s.actRoster c.roster new

/-- What this hub reports is kept until the roster is settled. -/
def State.keepReport (s : State) : State :=
  { s with cascade := { s.cascade with reports := [(s.hubId, s.ownReport.1, s.ownReport.2)] } }

/-- The CHARTER notice of bench 0 (16 R466). -/
def State.charterNotice (s : State) (cause : Nat) (c : Charter) : State :=
  s.notice 0 0x0D cause noRing c.epoch (BitVec.ofNat 32 c.master) 0

/-- A valid charter is heard: its silence is watched from now on (16 R461; 03 R65). -/
def State.heardCharter (s : State) (c : Charter) : State :=
  ({ s with cascade := { s.cascade with charter := some c, charterHeard := some s.now } }.cancelDeadline .masterSilence).addDeadline
    .masterSilence (s.now + 2000000)

/-! ### Following a charter (16 R465, R472, R473) -/

/-- How this hub stands to a charter: its state and, where it is UNCHARTERED, the reason (16 Tables 3, 4, 7). -/
def State.standing (s : State) (c : Charter) : CascadeState × BitVec 3 :=
  if (s.chip.cfg.map ImageCfg.defaults).getD true then (.uncharted, 4)
  else if c.family ≠ s.family then (.uncharted, 1)
  else if c.version ≠ s.version then (.uncharted, 2)
  else if c.digest ≠ s.digest then (.uncharted, 3)
  else if c.members.getLsbD s.hubId then
    (if (s.live s.hubId) ∧ s.cascade.state ≠ .chartered ∧ s.cascade.state ≠ .master then (.uncharted, 5) else (.chartered, 0))
  else if c.refused.getLsbD s.hubId then (.uncharted, if (maskHubs c.members).length = 32 then 7 else 6)
  else (.joining, 0)

/-- A charter wins against the one followed: the higher epoch, then the lower master. -/
def State.charterWins (s : State) (c : Charter) : Bool :=
  match s.cascade.charter with
  | none => true
  | some d => !s.following || decide (d.epoch.toNat < c.epoch.toNat) || (d.epoch == c.epoch && decide (c.master ≤ d.master))

/-- A new epoch is followed: losses, membership, the notice, the step, the report (16 R465, R466, R470, R472, R474). -/
def State.follow (s : State) (c : Charter) : State :=
  let was := s.cascade.state
  let old := s.cascade.charter
  let (st, reason) := s.standing c
  let cause := if st = .uncharted ∧ was ≠ .uncharted then 2 else if (old.map fun d => d.master != c.master).getD true then 3 else 1
  let s := { s with cascade := { s.cascade with
    state := st, reason := reason, nextStep := 0, newLost := [], reports := [] } }
  let s := ((s.heardCharter c).charterNotice cause c).hubsLost (maskHubs c.lost)
  let entering := was = .alone ∨ was = .seeking ∨ was = .master
  let s := if entering ∨ c.step ≠ 0 then s.discipline (((c.timeBase.toNat : Int) - s.now.toNat) * 1000) else s
  let s := if was = .master then s.sendPresence else s
  let s := if st = .uncharted then (s.cascade.guests.map Prod.fst).foldl (fun s g => s.orphanGuest g) s else s
  let s := if st = .chartered then
      let s := s.keepReport
      s.sendHub c.master (.rosterReport s.ownReport.1 s.ownReport.2)
    else s
  s.settleRoutes

/-- The charter is heard again: its content is taken, a newer roster acted on. -/
def State.refresh (s : State) (c : Charter) : State :=
  match s.cascade.charter with
  | none => s
  | some d =>
    let s := s.heardCharter c
    if d.rosterSeq.toNat < c.rosterSeq.toNat ∧ s.cascade.state = .chartered then s.actRoster d.roster c.roster else s

/-! ### The charter window (21 R586) -/

/-- One of the 1,024 ordered pairs in ROUTES: the first links of both routes, then their hops, 4 bits each. -/
def routeBytes (l : List Route) (a b : Nat) : List Byte :=
  match l.find? fun r => r.src == a && r.dst == b with
  | some r => leBytes 1 (r.primary + 16 * r.alternate) ++ leBytes 1 (r.primaryHops + 16 * r.alternateHops)
  | none => leBytes 1 0xFF ++ leBytes 1 0

/-- One roster entry as Table 5 has it. -/
def entryBytes (e : RosterEntry) : List Byte :=
  leBytes 1 e.home ++ leBytes 1 e.bench ++ leBytes 2 e.incarn.toNat ++ leBytes 1 e.classId ++ leBytes 3 0 ++
    leBytes 4 e.holders.toNat ++ leBytes 4 e.rateCap.toNat

/-- A charter and its roster in the item order of Table 5. -/
def charterBytes (c : Charter) : List Byte :=
  leBytes 8 c.epoch.toNat ++ leBytes 1 c.master ++ leBytes 8 c.family.toNat ++ leBytes 4 c.version.toNat ++ slice c.digest 0 16 ++
    leBytes 4 c.members.toNat ++ leBytes 4 c.lost.toNat ++ leBytes 4 c.refused.toNat ++
    ((List.range 32).flatMap fun a => (List.range 32).flatMap fun b => routeBytes c.routes a b) ++
    leBytes 8 c.timeBase.toNat ++ leBytes 2 0 ++ leBytes 8 c.step.toNat ++ leBytes 8 c.rosterSeq.toNat ++ c.roster.flatMap entryBytes

/-- CHARTER_OFFSET written: the snapshot is taken, and the window shows it from there (21 R586). DESIGN CHOICE (log entry 64): the card asks for a multiple of 4 and states no outcome for another value; its two low bits are dropped. -/
def State.snapCharter (s : State) (offset : BitVec 32) : State :=
  { s with cascade := { s.cascade with
    windowOffset := offset &&& 0xFFFFFFFC#32, snapshot := (s.cascade.charter.map charterBytes).getD [] } }

end Sys2Proof.Machine
end

