-- ==== Sys2Proof/Machine/Cascade.lean ====
section
/-!
DEFINITION. The commands of the cascade: Envan links, presence, charters, rack time, rosters, remote grants and sweeps, requests of other sleds (16; 21 R586).
-/

namespace Sys2Proof.Machine

/-! ### Links (16 R454, R455) -/

/-- A link is UP: where it is the first, the hub is ALONE no longer; placements that waited for a route go on. -/
def State.linkCame (s : State) : State :=
  let s := if s.cascade.state ≠ .alone then s else
    match s.cascade.charter with
    | some c =>
      if s.charterSilent then s.setRole .seeking
      else { s with cascade := { s.cascade with state := (s.standing c).1, reason := (s.standing c).2 } }
    | none => s.setRole .seeking
  s.settleRoutes

/-- EL_TRAINING_DONE (16 R454 Table 1, R455): UP with its partner, or a failure; a partner with this hub's own instance number fails with SELF_LOOP. In RECOVERY the first failure is remembered, and a second within 1 s restarts the attempts. -/
def execElTrainingDone (link : Nat) (result : ElResult) (s : State) : Result :=
  let x := s.envan link
  if ¬ s.envanFitted link ∨ (x.state ≠ .training ∧ x.state ≠ .recovery) then .next s else
  match result with
  | .up hub inst partnerLink delayNs =>
    if inst = s.cascade.inst then .next (s.envanFail link 4) else
    let s := s.modEnvan link fun x => { x with
      state := .up, cause := 0, partner := hub, partnerLink := partnerLink, delayNs := BitVec.ofNat 32 delayNs
      attempts := 0, fails := 0, crcRun := 0 }
    .next (((s.cancelDeadline (.envanRetry link)).stir 10).linkCame)
  | .failed cause =>
    if x.state = .training then .next (s.envanFail link cause)
    else
      match x.failedRecovery with
      | some t =>
        if s.now.toNat ≤ t.toNat + 1000000 then
          .next (s.modEnvan link fun x => { x with state := .training, cause := 5, attempts := 1, fails := 0, partner := 0, partnerLink := 0, failedRecovery := none })
        else .next (s.modEnvan link fun x => { x with failedRecovery := some s.now })
      | none => .next (s.modEnvan link fun x => { x with failedRecovery := some s.now })

/-- EL_BACKOFF_EXPIRY (16 R454; 13 R384): the wait is over: the next attempt starts; after the eighth failure the link is ABSENT and tried every 10 s. A link that is DOWN is tried at once. -/
def execElBackoffExpiry (link : Nat) (s : State) : Result :=
  let x := s.envan link
  if ¬ s.envanFitted link ∨ s.envanWaits link ∨ ¬ (s.chip.phase = .links ∨ s.chip.phase = .hosts ∨ s.chip.phase = .running) ∨
     ¬ (x.state = .backoff ∨ x.state = .absent ∨ x.state = .down) then .next s
  else .next (s.ownedBy 10 fun s =>
    if x.state = .backoff ∧ 8 ≤ x.fails then
      ((s.modEnvan link fun x => { x with state := .absent }).cancelDeadline (.envanRetry link)).addDeadline (.envanRetry link) s.in10s
    else (s.cancelDeadline (.envanRetry link)).modEnvan link Envan.attempt)

/-- EL_FLIT_SILENCE (16 R455, R477, R478): the link is DOWN; routes switch to their alternates; what no route reaches freezes. -/
def execElFlitSilence (link : Nat) (s : State) : Result :=
  if ¬ s.linkUp link then .next s else
  let s := s.modEnvan link fun x => { x with state := .down, partner := 0, partnerLink := 0, crcRun := 0 }
  let s := if s.anyLinkUp ∨ s.isMaster then s else s.setRole .alone
  .next s.settleRoutes

/-! ### Presence and succession (16 R459, R461, R475) -/

/-- PRESENCE_SEND (16 R459). -/
def execPresenceSend (s : State) : Result := .next (if s.anyLinkUp then s.sendPresence else s)

/-- PRESENCE_RECEIVED (16 R459): its sender is live; the master admits or refuses it at its next epoch (R464). A second hub of one HUB_ID is not taken for the first. -/
def execPresenceReceived (hub : Nat) (inst : BitVec 64) (eligible : Bool) (epoch : BitVec 64) (refusal : BitVec 3) (s : State) : Result :=
  if ¬ s.anyLinkUp ∨ inst = s.cascade.inst then .next s else
  let known := s.presenceOf hub
  if (known.map fun p => p.inst != inst && !p.silent).getD false then .next s else
  let p : Presence := ⟨inst, eligible, s.now, false, refusal⟩
  let list := if known.isSome then s.cascade.presence.map fun e => if e.1 = hub then (hub, p) else e else s.cascade.presence ++ [(hub, p)]
  .next { s with cascade := { s.cascade with
    presence := list, highest := if s.cascade.highest.toNat < epoch.toNat then epoch else s.cascade.highest } }

/-- A hub is silent: a master declares a silent member lost; members of a silent master seek. -/
def State.hubSilent (s : State) (hub : Nat) : State :=
  let gone : Nat × Presence → Nat × Presence := fun e => if e.1 = hub then (hub, { e.2 with silent := true }) else e
  let s := { s with cascade := { s.cascade with presence := s.cascade.presence.map gone } }
  if s.isMaster then
    if s.member hub ∧ hub ≠ s.hubId ∧ ¬ s.cascade.newLost.contains hub then
      { s with cascade := { s.cascade with newLost := s.cascade.newLost ++ [hub] } }
    else s
  else if (s.cascade.charter.map Charter.master) = some hub ∧ s.charterSilent ∧ s.following then s.setRole .seeking else s

/-- HUB_SILENT (16 R459, R475, R460): no presence for 2 s. The master declares a silent member lost; members of a silent master seek. -/
def execHubSilent (hub : Nat) (s : State) : Result :=
  match s.presenceOf hub with
  | none => .next s
  | some p =>
    if p.silent ∨ s.now.toNat < p.heard.toNat + 2000000 then .next s else
    .next (s.ownedBy 8 fun s => s.hubSilent hub)

/-- The hub is the earliest of its SUCCESSORS among the eligible hubs live to it, without a master whose charter is silent (16 R461). -/
def State.firstInLine (s : State) : Bool :=
  let old := s.cascade.charter.map Charter.master
  let may : Nat → Bool := fun h => h == s.hubId ||
    (some h != old && ((s.presenceOf h).map fun p => p.eligible && !p.silent).getD false)
  s.successors.find? may == some s.hubId

/-- MASTER_CLAIM (16 R461, R466, R475): the hub issues a charter of an epoch above all heard, with the silent master lost. -/
def execMasterClaim (s : State) : Result :=
  if ¬ s.eligible ∨ s.isMaster ∨ ¬ s.charterSilent ∨ ¬ s.firstInLine then .next s else
  let old := s.cascade.charter
  let heard := (s.cascade.presence.filter fun e => !e.2.silent && e.1 != s.hubId)
  let members := s.hubId :: ((heard.filter fun e => e.2.refusal == 0).map Prod.fst).take 31
  let lost := (maskHubs ((old.map Charter.members).getD 0)).filter fun h => h != s.hubId && !s.live h
  let c : Charter :=
    { epoch := s.cascade.highest + 1, master := s.hubId, family := s.family, version := s.version, digest := s.digest
      members := hubMask members, lost := hubMask lost, refused := hubMask ((heard.map Prod.fst).filter fun h => !members.contains h)
      routes := [], timeBase := 0, step := 0, rosterSeq := 0, roster := (old.map Charter.roster).getD [] }
  let s := { s with cascade := { s.cascade with
    charter := some c, highest := c.epoch, charterHeard := some s.now, newLost := [], nextStep := 0 } }
  let s := (s.setRole .master).keepReport
  let s := s.charterNotice (if old.isSome then 3 else 1) c
  .next (s.hubsLost lost)

/-- Members of the next epoch and the hubs refused: those heard are admitted in the order first heard, up to 32 members, where they have a route of 8 hops or fewer to every member (16 R464). -/
def State.nextMembers (s : State) (cables : List (Nat × Nat × Nat)) (members : List Nat) : List Nat × List Nat :=
  let heard := s.cascade.presence.filter fun e => !e.2.silent && e.1 != s.hubId && !members.contains e.1
  let able := (heard.filter fun e => e.2.refusal == 0).map Prod.fst
  let all := members ++ able
  let next := able.foldl (fun (l : List Nat) h =>
    if l.length < 32 ∧ (l.all fun m => (hopsTo cables all.contains h m).isSome) then l ++ [h] else l) members
  (next, (heard.map Prod.fst).filter fun h => !next.contains h)

/-- CHARTER_SEND (16 R462, R464, R466, R470, R474): a new epoch where one is due, with its losses, members, routes and step; the charter, with the master's time, to every hub it can reach; the roster is settled between epochs. -/
def execCharterSend (cables : List (Nat × Nat × Nat)) (s : State) : Result :=
  match s.cascade.charter with
  | none => .next s
  | some c =>
    if ¬ s.isMaster then .next s else
    let first := c.timeBase == 0
    let kept := if first then [s.hubId] else (maskHubs c.members).filter fun h => !s.cascade.newLost.contains h
    let (members, refused) := s.nextMembers cables kept
    let routes := routesOf cables members
    let changed := !first && (hubMask members != c.members || hubMask refused != c.refused || !s.cascade.newLost.isEmpty || routes != c.routes) ||
      s.cascade.nextStep != 0
    let d : Charter :=
      if changed then { c with
        epoch := c.epoch + 1, members := hubMask members, lost := hubMask s.cascade.newLost, refused := hubMask refused, routes := routes
        timeBase := s.now, step := s.cascade.nextStep, rosterSeq := 0 }
      else { c with members := hubMask members, refused := hubMask refused, routes := routes, timeBase := s.now }
    let lost := s.cascade.newLost
    let s := { s with cascade := { s.cascade with
      charter := some d, highest := d.epoch, charterHeard := some s.now, newLost := [], nextStep := 0 } }
    let s := if changed then (s.keepReport.charterNotice 1 d).hubsLost lost
      else if ¬ first ∧ ¬ s.cascade.reports.isEmpty then s.settleRoster else s
    .next (((s.cascade.charter.map fun e => s.flood (.charter e)).getD s).settleRoutes)

/-- CHARTER_RECEIVED (16 R472, R473, R465, R466): the higher epoch wins, then the lower master; a losing master steps down, and where the epochs were equal it logs SPLIT_BRAIN. -/
def execCharterReceived (charter : Charter) (s : State) : Result :=
  if ¬ s.anyLinkUp ∨ charter.master = s.hubId then .next s else
  let s := { s with cascade := { s.cascade with
    highest := if s.cascade.highest.toNat < charter.epoch.toNat then charter.epoch else s.cascade.highest } }
  if ¬ s.charterWins charter then .next s else
  match s.cascade.charter with
  | none => .next (s.follow charter)
  | some d =>
    if s.following ∧ d.epoch = charter.epoch ∧ d.master = charter.master then .next (s.refresh charter)
    else
      let s := if s.isMaster ∧ d.epoch = charter.epoch then
          s.logFault 7 1 charter.epoch (BitVec.ofNat 64 charter.master) else s
      .next (s.follow charter)

/-! ### Rack time (16 R467–R471) -/

/-- TIME_STATEMENT_SEND (16 R462). -/
def execTimeStatementSend (s : State) : Result :=
  .next (if s.isMaster then s.flood (.time s.now 0) else s)

/-- TIME_STATEMENT_RECEIVED (16 R468–R470): OFFSET from the stated time and the delays of its path. -/
def execTimeStatementReceived (statedNs delayNs : Nat) (s : State) : Result :=
  .next (if s.cascade.state = .joining ∨ s.cascade.state = .chartered ∨ s.cascade.state = .uncharted then
    s.discipline ((statedNs : Int) + delayNs - s.now.toNat * 1000) else s)

/-- HEARTH_TIME_REPORT (16 R470): the master steps to the reported time plus 1 ms, and states the step in a new epoch. -/
def execHearthTimeReport (_hub : Nat) (time : BitVec 64) (s : State) : Result :=
  if ¬ s.isMaster ∨ time.toNat ≤ s.now.toNat then .next s else
  let n := time.toNat + 1000 - s.now.toNat
  let s := s.forwardStep n
  .next { s with cascade := { s.cascade with nextStep := s.cascade.nextStep + BitVec.ofNat 64 n } }

/-- DELAY_PROBE (16 R468): the link's delay, averaged over 16 exchanges. -/
def execDelayProbe (link delayNs : Nat) (s : State) : Result :=
  if ¬ s.linkUp link then .next s else
  .next ((s.modEnvan link fun x => { x with delayNs := BitVec.ofNat 32 delayNs }).sendHub (s.envan link).partner .probe)

/-! ### The roster (16 R474, R479, R483) -/

/-- ROSTER_REPORT (16 R474): the master keeps a member's report; when every member has reported, the roster is settled. -/
def execRosterReport (hub : Nat) (homes : List (Nat × BitVec 16)) (guests : List (Nat × Nat × BitVec 16)) (s : State) : Result :=
  if ¬ s.isMaster ∨ ¬ s.member hub then .next s else
  let s := s.takeReport hub homes guests
  let all := (maskHubs ((s.cascade.charter.map Charter.members).getD 0)).all fun h => s.cascade.reports.any fun r => r.1 == h
  .next (if all then s.settleRoster else s)

/-- ROSTER_UPDATE (16 R462, R474): a newer roster replaces the one held, and the hub acts on it. -/
def execRosterUpdate (seq : BitVec 64) (entries : List RosterEntry) (s : State) : Result :=
  match s.cascade.charter with
  | none => .next s
  | some c =>
    if s.cascade.state ≠ .chartered ∨ seq.toNat ≤ c.rosterSeq.toNat then .next s else
    .next (({ s with cascade := { s.cascade with charter := some { c with roster := entries, rosterSeq := seq } } }).actRoster c.roster entries)

/-- BENCH_REGISTRATION (16 R479, R483): the home hub registers a bench before its first remote act; the master enters a bench of a member, or its new INCARN. -/
def execBenchRegistration (home bench : Nat) (incarn : BitVec 16) (classId : Nat) (rateCap : BitVec 32) (s : State) : Result :=
  if ¬ s.chartered then .next s
  else if home = s.hubId then .next (if (s.bench bench).state = .active ∨ (s.bench bench).state = .held then s.spanBench bench else s)
  else if s.isMaster ∧ s.member home then
    .next (s.setRoster (rosterPut home bench incarn classId rateCap ((s.cascade.charter.map Charter.roster).getD [])))
  else .next s

/-! ### Grants and sweeps across sleds (16 R482, R483) -/

/-- A forwarded GRANT_DIE_MEM at the holder: the checks of 05 R136 in their order, the guest slot, then the grant; it waits for a zero fill of the range. -/
def State.grantGuest (s : State) (home b : Nat) (incarn : BitVec 16) (classId : Nat) (rateCap : BitVec 32) (d off len room : Nat) : State :=
  let r := s.grantCheck d off len 0 room
  if r ≠ resOk then s.answerGrant home r else
  match s.admitGuest home b incarn classId rateCap with
  | (none, s) => s.answerGrant home resNoGuestSlot
  | (some g, s) =>
    if s.filling d off len then { s with cascade := { s.cascade with grantWaits := s.cascade.grantWaits ++ [(home, b, g, d, off, len)] } }
    else (s.takeGrant (256 + g) d off len).answerGrant home resOk

/-- A returned range of a guest goes to zero fill once no request to it is in flight. -/
def State.endGuestReturn (s : State) (home o d off len : Nat) : State :=
  if s.busyIn o d off len then s else (s.sendDie d (.zeroFill off len)).answerGrant home resOk

/-- A forwarded RETURN_DIE_MEM at the holder; sent again while it waits, the requests in flight are looked at again. -/
def State.returnGuest (s : State) (home g d off len : Nat) : State :=
  let o := 256 + g
  if s.zeroFill.contains (d, off, len) then s.endGuestReturn home o d off len
  else if ¬ s.rangeOk d off len ∨ ¬ s.holds o d off len then s.answerGrant home resRange
  else if s.pinnedIn o d off len then s.answerGrant home resInUse
  else
    let s := s.cutRange o d off len
    ({ s with zeroFill := s.zeroFill ++ [(d, off, len)] }).endGuestReturn home o d off len

/-- REMOTE_GRANT (16 R480, R482; 05 R136, R137). -/
def execRemoteGrant (home bench : Nat) (incarn : BitVec 16) (classId : Nat) (rateCap : BitVec 32) (giveBack : Bool) (die offset length room : Nat) (s : State) : Result :=
  if ¬ s.chartered ∨ home = s.hubId then .next s else
  match s.guestSlot home bench with
  | none => .next (if giveBack then s.answerGrant home resRange else s.grantGuest home bench incarn classId rateCap die offset length room)
  | some g =>
    if ¬ s.msgCurrent home bench incarn then .next s.staleMessage
    else .next (if giveBack then s.returnGuest home g die offset length else s.grantGuest home bench incarn classId rateCap die offset length room)

/-- REMOTE_GRANT_RESULT (16 R482): the bench's grants change with RESULT OK, and the command ends with the holder's RESULT. -/
def execRemoteGrantResult (result : BitVec 8) (s : State) : Result :=
  match s.cascade.forwarded with
  | none => .next s
  | some (b, h, giveBack, d, off, len) =>
    let grants : List Grant → List Grant := fun l =>
      if giveBack then l.flatMap fun (g : Grant) => (if g.hub = h then g.cut d off len else [g] : List Grant) else l ++ [Grant.mk h d off len]
    let s := if result.toNat = resOk then s.modBench b fun x => { x with grants := grants x.grants } else s
    .next (({ s with cascade := { s.cascade with forwarded := none } }).endCommand result.toNat 0)

/-- REMOTE_SWEEP (16 R481, R483): the guest is cut; its slot is kept for the new incarnation after a RESET while the roster lists it. -/
def execRemoteSweep (home bench : Nat) (incarn : BitVec 16) (release : Bool) (s : State) : Result :=
  match s.guestSlot home bench with
  | none => .next s
  | some g =>
    if ((s.guest g).map fun x => x.incarn == incarn).getD false then .next s else
    let listed := ((s.cascade.charter.bind fun c => entryOf c.roster home bench).map fun e => e.holders.getLsbD s.hubId).getD false
    .next (s.cutGuest g (if ¬ release ∧ listed then some incarn else none))

/-! ### Requests of other sleds (16 R456, R457; 07 R216; 13 R370) -/

/-- A request of another sled goes to a die of this hub, which holds it for the bench; else it is answered as Table 3 of 13 has it. -/
def State.remoteToDie (s : State) (sender home b id d off len : Nat) (held write : Bool) (data : List (Byte × Bool)) : State :=
  if ¬ s.dieMapped d then s.sendHub sender (.dataAnswer id .dieLost [])
  else if ¬ held then s.sendHub sender (.dataAnswer id (if write then .writeRefused else .dieLost) [])
  else
    let used := (s.remotes.map RemoteReq.key ++ s.hubKeys).map fun k => k / 3
    let n := (lowestTag used (used.length + 1) 0).getD 0
    let key := 3 * n + 2
    let q : RemoteReq := ⟨sender, id, key, d, home, b, off, len⟩
    let s := { s with remotes := s.remotes ++ [q] }
    s.askDie d (some (s.ownerOf home b)) true (if write then .xltForward key off len true data else .hubRead key off len)

/-- The place of a scratchpad byte of a placement on this hub. -/
def State.scrPlace (s : State) (home b number row col off : Nat) : Option (Nat × Nat) :=
  ((s.placement home b number).bind fun p => (p.coreAt row col).filter fun c => c.hub == s.hubId).map fun c => (c.die, dieScr c.core off)

/-- What another sled may reach of a die for a bench: what the bench holds there, and the scratchpads of its cores (07 R192; 13 R370). -/
def State.reaches (s : State) (home b o d off len : Nat) : Bool :=
  s.holds o d off len || s.placements.any fun p => p.home == home && p.bench == b && p.cores.any fun c =>
    c.hub == s.hubId && c.die == d && decide (dieScr c.core 0 ≤ off) && decide (off + len ≤ dieScr c.core (512 * 1024))

/-- ENVAN_DATA_REQUEST (16 R456, R457; 07 R216; 13 R370; 14 R400, R409; 15 R449–R451): a request of another sled for a bench whose incarnation is current. -/
def execEnvanDataRequest (sender home bench : Nat) (incarn : BitVec 16) (id : Nat) (request : DataRequest) (s : State) : Result :=
  if ¬ s.msgCurrent home bench incarn then .next s.staleMessage else
  let o := s.ownerOf home bench
  let s := s.hubIn sender (requestBytes request)
  match request with
  | .dieWrite d off data => .next (s.remoteToDie sender home bench id d off data.length (s.reaches home bench o d off data.length) true data)
  | .dieRead d off len => .next (s.remoteToDie sender home bench id d off len (s.reaches home bench o d off len) false [])
  | .scrWrite number row col off data =>
    match s.scrPlace home bench number row col off with
    | some (d, a) => .next (s.remoteToDie sender home bench id d a data.length true true data)
    | none => .next (s.sendHub sender (.dataAnswer id .writeRefused []))
  | .scrRead number row col off len =>
    match s.scrPlace home bench number row col off with
    | some (d, a) => .next (s.remoteToDie sender home bench id d a len true false [])
    | none => .next (s.sendHub sender (.dataAnswer id .dieLost []))
  | .load number row col off data =>
    match s.scrPlace home bench number row col off with
    | some (d, a) => .next (s.loadBytes d o a (data.length / 4096 + 2) data)
    | none => .next s
  | .release number =>
    match s.placement home bench number with
    | some p => .next (if p.state = .releasing ∨ home = s.hubId then s else s.stopPlacement p)
    | none => .next s
  | .stripBest ring strip sweep =>
    match s.jobOf home bench ring (some strip) with
    | some j => .next (s.stripBest j sweep)
    | none => .next s
  | .stripStop ring strip sweep =>
    match s.jobOf home bench ring (some strip) with
    | some j => .next (s.stripStop j sweep)
    | none => .next s
  | .stripEnd ring strip =>
    match s.jobOf home bench ring (some strip) with
    | some j => .next (s.dropJob j)
    | none => .next s
  | .bandMap number cores =>
    .next (if home = s.hubId then s else s.modPlacement home bench number fun p => { p with
      cores := (p.cores.filter fun c => c.hub == s.hubId) ++
        (cores.filter fun e => e.1 != s.hubId).map fun e => PlacedCore.mk e.1 e.2.1 e.2.2.1 e.2.2.2.1 e.2.2.2.2 })
  | .coreCause cause address core => .next (if home = s.hubId then s.holdFor bench cause address core else s)

/-! ### The charter window (21 R586) -/

/-- CHARTER_SNAPSHOT (21 R586; 12 R348): CHARTER_OFFSET written. -/
def execCharterSnapshot (offset : BitVec 32) (s : State) : Result := .next (s.fromMgmt fun s => s.snapCharter offset)

end Sys2Proof.Machine
end

