-- ==== Sys2Proof/Machine/Debug.lean ====
section
/-!
DEFINITION. Debug commands: memory reads of the DAP, halting whittlers, the grants of DEBUG_CTRL (20 R549–R560; 21 R587, R588).
-/

namespace Sys2Proof.Machine

/-- DAP_STATUS.REFUSED set: an operation beyond what is granted does nothing else (20 R550). -/
def State.dapRefuse (s : State) : State := s.modDebug fun d => { d with refused := true }

/-- A DAP operation of an attached debugger (20 R549, Table 1): done where it is granted, else refused. -/
def State.granted (s : State) (ok : Bool) (f : State → State) : State :=
  if ¬ s.chip.powered ∨ ¬ s.dbg.attached then s else if ok then f s else s.dapRefuse

/-- DEBUG_LEVEL 0: full. -/
def Debug.full (d : Debug) : Bool := d.level == 0
/-- DEBUG_LEVEL 0 or 1: quiet reads of registers and memory. -/
def Debug.observes (d : Debug) : Bool := d.level == 0 || d.level == 1
/-- Whittler halt, step and register access (20 Table 1). -/
def Debug.mayHalt (d : Debug) : Bool := d.full && d.haltAllow
/-- The halt-honouring mode (20 Table 1). -/
def Debug.mayHonour (d : Debug) : Bool := d.full && d.honourAllow

/-! ### Memory reads (20 R552) -/

/-- A 64-byte read of memory begins (20 R552): from ledger memory, or from a die that is UP, as a request for no bench; elsewhere it meets a hole. -/
def State.dapRead (s : State) (space addr : Nat) : State :=
  let a := addr / 64 * 64
  let busy := s.modDebug fun d => { d with busy := true }
  if space = 1 then
    if ¬ (ledgerBase ≤ a ∧ a < ledgerBase + s.ledgerBytes) then s.modDebug Debug.atHole
    else if ¬ s.domainOn 8 then s.modDebug fun d => d.atSleep ones64
    else busy.emit (.ledgerRead (BitVec.ofNat 64 a))
  else
    let d := a / 2 ^ 36
    let o := a % 2 ^ 36
    if d < s.nDies ∧ o < dieBytes ∧ (s.die d).state = .up then busy.askDie d none false (.dapRead o) else s.modDebug Debug.atHole

/-- A memory read started by GO: one that is started while another is in progress is discarded (21 R573). -/
def State.dapMemory (s : State) (space : BitVec 2) (addr : BitVec 64) : State :=
  s.granted s.dbg.observes fun s =>
    if s.dbg.busy ∨ space = 0 ∨ space = 3 then s
    else (s.modDebug fun d => { d with space := space, addr := addr }).dapRead space.toNat addr.toNat

/-- DAP_MEMORY_READ (20 R550, R552). -/
def execDapMemoryRead (space : BitVec 2) (addr : BitVec 64) (s : State) : Result := .next (s.dapMemory space addr)

/-- DAP_MEMORY_DATA (20 R552): the answer to a memory read that was sent; its credits are free. -/
def execDapMemoryData (data : Option (List Byte)) (s : State) : Result :=
  if ¬ s.dbg.busy ∨ s.dbg.space = 0 ∨ s.unsent .dap then .next s else
  let s := s.portDone .dap
  match data with
  | some b => .next (s.modDebug fun d => { d with busy := false, data := slice b 0 64 })
  | none => .next (s.modDebug Debug.atHole)

/-! ### Whittlers (20 R550, R556–R559) -/

/-- A whittler named in WHITTLER_DBG. -/
def State.nameWhittler (s : State) (w : Nat) : State := s.modDebug fun d => { d with whittler := BitVec.ofNat 7 w }

/-- The named whittler's registers may be read and written: within the grant, of a whittler of the grade that is not fenced (20 R556). -/
def State.mayTouch (s : State) : Bool :=
  let w := s.dbg.whittler.toNat
  s.dbg.mayHalt && decide (w < s.nWhittlers) && !(s.whittler w).fenced

/-- Key of the register that WHITTLER_DBG names. -/
def Debug.regKey (d : Debug) : Nat := d.whittler.toNat * 256 + d.reg.toNat

/-- WHITTLER_DBG_DATA takes the named register's value: what was written to it since the whittler stopped, else a free value, its program's (log entry 85). -/
def State.loadReg (s : State) : State :=
  if ¬ s.mayTouch then s else
  match (if (s.whittler s.dbg.whittler.toNat).halted then tabGet s.dbg.written none s.dbg.regKey else none) with
  | some v => s.modDebug fun d => { d with regData := v }
  | none =>
    let (v, s) := s.draw
    s.modDebug fun d => { d with regData := v }

/-- A register of the named whittler written. -/
def State.putReg (s : State) (v : BitVec 64) : State :=
  s.modDebug fun d => { d with regData := v, written := tabSet d.regKey (some v) d.written }

/-- The whittler runs: what was written to its registers may change. -/
def State.regsRun (s : State) (w : Nat) : State :=
  s.modDebug fun d => { d with written := d.written.filter fun e => e.1 / 256 != w }

/-- A halt of a whittler: refused where it is fenced, absent, or its group would be left with fewer than 4 running. -/
def State.haltFor (s : State) (w : Nat) (locks : List LockHeld) : State :=
  if (s.whittler w).halted then s
  else if ¬ s.whittlerRuns w ∨ s.groupRunning w < 5 then s.dapRefuse
  else s.haltWhittler w locks

/-- WHITTLER_HALT (20 R550, R556–R558). -/
def execWhittlerHalt (whittler : Nat) (locks : List LockHeld) (s : State) : Result :=
  .next (s.granted s.dbg.mayHalt fun s => ((s.nameWhittler whittler).haltFor whittler locks).loadReg)

/-- One instruction of a halted whittler: of its program nothing is kept, so its registers hold free values after it; it stays halted (20 R556). -/
def State.stepWhittler (s : State) (w : Nat) : State := if (s.whittler w).halted then s.regsRun w else s

/-- A halted whittler resumes. -/
def State.letRun (s : State) (w : Nat) : State := if (s.whittler w).halted then (s.resumeWhittler w).regsRun w else s

/-- WHITTLER_STEP (20 R556). -/
def execWhittlerStep (whittler : Nat) (s : State) : Result :=
  .next (s.granted s.dbg.mayHalt fun s => ((s.nameWhittler whittler).stepWhittler whittler).loadReg)

/-- WHITTLER_RESUME (20 R556, R558, R559). -/
def execWhittlerResume (whittler : Nat) (s : State) : Result :=
  .next (s.granted s.dbg.mayHalt fun s => ((s.nameWhittler whittler).letRun whittler).loadReg)

/-- WHITTLER_DBG.HONOUR written (20 R559): the expiry of the bench-owned locks of a halted whittler stands still, or runs again with the time that remained. -/
def State.putHonour (s : State) (w : Nat) (honour : Bool) : State :=
  if s.nWhittlers ≤ w then s else
  let s := s.modWhittler w fun x => { x with honour := honour }
  if honour then (if (s.whittler w).halted then s.modLocks w (Lock.freeze s.now) else s) else s.modLocks w (Lock.thaw s.now)

/-- WHITTLER_HONOUR (20 R550, R559). -/
def execWhittlerHonour (whittler : Nat) (honour : Bool) (s : State) : Result :=
  .next (s.granted s.dbg.mayHonour fun s => (s.nameWhittler whittler).putHonour whittler honour)

/-- DEBUG_CTRL_WRITE (20 R550, R556, R559; 21 R587): through the management function alone. -/
def execDebugCtrlWrite (value : BitVec 32) (s : State) : Result := .next (s.fromMgmt fun s => s.putDebugCtrl value)

end Sys2Proof.Machine
end

