-- ==== Sys2Proof/Machine/Descriptors.lean ====
section
/-!
DEFINITION. The descriptor opcodes of chapters 07, 09 and 11: each command is the start of the ring's next descriptor (06 R173; 07 R187–R211; 09 R267; 11 R335, R337).
-/

namespace Sys2Proof.Machine

/-- COPY (07 R195–R200; 10 R311): it starts; its stream's tracker is taken, advanced or seeded; its bursts follow. -/
def execCopy (bench ring : Nat) (s : State) : Result :=
  match s.startable bench ring 0x01 with
  | none => .next s
  | some d => .next (((s.startDesc bench ring d.count (totalOf d.bytes)).breadcrumb bench d.bytes).advance bench ring d.count)

/-- An indexed descriptor starts, or, started, reads on in its index table: with the entries that the command brings from the one that contains its next byte on. -/
def State.startIndexed (s : State) (b r op : Nat) (index : List Nat) : State :=
  match s.begin b r op with
  | none => s
  | some (d, s) => s.readIndex b r d.count index

/-- GATHER (07 R201, R202, R221): it starts, and reads entries of its index table; or reads further entries, after a stop those from the one that contains P on. -/
def execGather (bench ring : Nat) (index : List Nat) (s : State) : Result := .next (s.startIndexed bench ring 0x02 index)

/-- SCATTER (07 R201–R203, R221): as GATHER. -/
def execScatter (bench ring : Nat) (index : List Nat) (s : State) : Result := .next (s.startIndexed bench ring 0x03 index)

/-- A data descriptor with no more to do at its start than to move on. -/
def State.startData (s : State) (b r op : Nat) : State :=
  match s.startable b r op with
  | none => s
  | some d => (s.startDesc b r d.count (totalOf d.bytes)).advance b r d.count

/-- FILL (07 R205): it starts. -/
def execFill (bench ring : Nat) (s : State) : Result := .next (s.startData bench ring 0x04)

/-- COMPARE (07 R206): it starts. -/
def execCompare (bench ring : Nat) (s : State) : Result := .next (s.startData bench ring 0x05)

/-- ACQUIRE (09 R267): every earlier descriptor of the ring has completed; those fetched ahead are discarded and fetched again; invalidations signalled before are applied already. -/
def execAcquire (bench ring : Nat) (s : State) : Result :=
  match s.startable bench ring 0x10 with
  | none => .next s
  | some d =>
    let s := (s.startDesc bench ring d.count 0).modRing bench ring fun x =>
      { x with descs := x.descs.filter fun e => e.count == d.count, fetchNext := d.count + 1, ownStop := false }
    .next (s.endPlain bench ring d 0x00 0)

/-- FENCE (07 R208): it starts, and completes once every descriptor started earlier in its scope has completed. -/
def execFence (bench ring : Nat) (s : State) : Result :=
  match s.begin bench ring 0x11 with
  | none => .next s
  | some (d, s) =>
    match s.desc bench ring d.count with
    | none => .next s
    | some d => .next (if s.fenceOpen bench ring d then s.endPlain bench ring d 0x00 0 else s)

/-- EVENT_WAIT (07 R209, R210; 08 R233): it waits on its line, without a channel; a line that the bench does not hold is PERMISSION. -/
def execEventWait (bench ring : Nat) (s : State) : Result :=
  match s.startable bench ring 0x12 with
  | none => .next s
  | some d =>
    let s := s.startDesc bench ring d.count 0
    if (s.event (field d.bytes 0x0C 2)).holder ≠ some bench then .next (s.endPlain bench ring d 0x12 0)
    else .next ((s.modDesc bench ring d.count fun d => { d with phase := .eventWait }).giveUp bench ring 1)

/-- A waiter on a line in the state that MODE names (07 R209). -/
def State.waitMet (s : State) (d : Desc) : Bool :=
  (s.event (field d.bytes 0x0C 2)).level == (field d.bytes 0x0E 1 != 2)

/-- A waiter of MODE 1 on the same line began earlier. -/
def State.earlierWaiter (s : State) (b : Nat) (d : Desc) : Bool :=
  (s.bench b).rings.any fun e => e.2.descs.any fun f =>
    f.phase == .eventWait && field f.bytes 0x0C 2 == field d.bytes 0x0C 2 && field f.bytes 0x0E 1 == 1 && decide (f.order < d.order)

/-- EVENT_WAIT_SATISFIED (07 R209; 08 R246): the line is seen in the state waited for; MODE 1 clears it in the same step, in the order the waiters began. -/
def execEventWaitSatisfied (bench ring : Nat) (s : State) : Result :=
  match (s.ring bench ring).descs.find? fun d => d.phase == .eventWait with
  | none => .next s
  | some d =>
    let mode := field d.bytes 0x0E 1
    if ¬ s.channelRuns bench ring ∨ ¬ s.waitMet d ∨ (mode = 1 ∧ s.earlierWaiter bench d) then .next s else
    let s := if mode = 1 then s.lineOp (field d.bytes 0x0C 2) 2 else s
    .next (s.endPlain bench ring d 0x00 s.now)

/-- EVENT_SIGNAL (07 R210): it operates on a held line, RESULT the level before; it completes once the line has changed. -/
def execEventSignal (bench ring : Nat) (s : State) : Result :=
  match s.startable bench ring 0x13 with
  | none => .next s
  | some d =>
    let s := s.startDesc bench ring d.count 0
    let n := field d.bytes 0x0C 2
    if (s.event n).holder ≠ some bench then .next (s.endPlain bench ring d 0x12 0)
    else .next ((s.lineOp n (field d.bytes 0x0E 1)).endPlain bench ring d 0x00 (BitVec.ofNat 64 (s.event n).level.toNat))

/-- PREFETCH (11 R335): its pages are translated in ascending order; class and enables are judged first (10 R289). One of no bytes is done (07 R217). -/
def execPrefetch (bench ring : Nat) (s : State) : Result :=
  match s.startable bench ring 0x30 with
  | none => .next s
  | some d =>
    let s := s.startDesc bench ring d.count (lengthOf d.bytes)
    if lengthOf d.bytes = 0 then .next (s.endPlain bench ring d 0x00 0) else
    let sel := selOf d.bytes 0
    let allowed := if sel = 1 then s.classHas bench BenchClass.modeS else s.classHas bench BenchClass.modeD
    if ¬ allowed then .next (s.endDesc bench ring d.count 0x12 0 0 (BitVec.ofNat 64 (addrOf d.bytes 0)))
    else .next (s.pumpPrefetch bench ring d.count (prefetchPages d.bytes))

/-- Regions that the range of an ADVISE touches. -/
def adviseRegions (y : List Byte) : Nat :=
  (addrOf y 0 + lengthOf y + 65535) / 65536 - addrOf y 0 / 65536

/-- ADVISE (11 R337): advice is recorded on each region of the range; a die that the grade lacks is BAD_DESCRIPTOR with RESULT 0x28, MODE_S is PERMISSION. One of no bytes is done (07 R217). -/
def execAdvise (bench ring : Nat) (s : State) : Result :=
  match s.startable bench ring 0x31 with
  | none => .next s
  | some d =>
    let s := s.startDesc bench ring d.count 0
    let y := d.bytes
    if lengthOf y = 0 then .next (s.endPlain bench ring d 0x00 0) else
    let advice := field y 0x0C 1
    let arg := field y 0x28 8
    if selOf y 0 = 1 ∨ ¬ s.classHas bench BenchClass.modeD then .next (s.endDesc bench ring d.count 0x12 0 0 (BitVec.ofNat 64 (addrOf y 0)))
    else if advice = 2 ∧ s.nDies < arg then .next (s.endPlain bench ring d 0x30 0x28)
    else
      let (n, s) := s.adviseFrom bench advice (field y 0x0D 1 == 1) (arg % 256) (addrOf y 0 / 65536) (adviseRegions y)
      .next (s.endPlain bench ring d 0x00 (BitVec.ofNat 64 n))

/-- BILLET_ALLOC (07 R211; 17 R503): QUOTA with the shortfall, a wait while the pool is exhausted, or a zero-filled billet and its handle. -/
def execBilletAlloc (bench ring : Nat) (s : State) : Result :=
  match s.begin bench ring 0x40 with
  | none => .next s
  | some (d, s) =>
    let kib := lengthOf d.bytes / 1024
    let short := s.billetHeld bench + kib - (s.bench bench).limits.billet.toNat
    if short ≠ 0 then .next (s.endPlain bench ring d 0x32 (BitVec.ofNat 64 short))
    else if Config.billetKib < s.billetsTaken + kib ∨ s.structureHeld .billets bench then .next s
    else
      match s.freeBillet with
      | none => .next s
      | some i =>
        let s := s.allocBillet bench i kib
        .next (s.endPlain bench ring d 0x00 (BitVec.ofNat 64 (handleOf i (s.billet i).gen)))

/-- BILLET_FREE (07 R211; 17 R504, R505): the outcomes of 17 Table 6; an accepted free completes once no operation names the billet. -/
def execBilletFree (bench ring : Nat) (s : State) : Result :=
  if s.structureHeld .billets bench then .next s else
  match s.startable bench ring 0x41 with
  | some d => .next ((s.startDesc bench ring d.count 0).freeRows bench ring d)
  | none => .next (s.settleWaits bench)

end Sys2Proof.Machine
end

