-- ==== Sys2Proof/Machine/Flash.lean ====
section
/-!
DEFINITION. The flash programming interface (02 R54; 21 R577 Table 9).
-/

namespace Sys2Proof.Machine

/-- FLASH_STATUS.RESULT codes. -/
def flashOk : BitVec 4 := 0
def flashPermission : BitVec 4 := 1
def flashBadAddr : BitVec 4 := 2
def flashAbsent : BitVec 4 := 3
def flashTimeout : BitVec 4 := 4

/-- The slot is the selected one; under factory defaults none is. -/
def State.slotSelected (s : State) (slotB : Bool) : Bool := s.chip.cfgSource == (if slotB then 1 else 0)

/-- BAD_ADDR: an erase that is not of an aligned sector, a transfer of no or too many bytes, a range beyond the slot, a program across a page. -/
def State.flashRange (s : State) (op off len : Nat) : Bool :=
  if op = 3 then off % 4096 == 0 && decide (off + 4096 ≤ s.slotSize)
  else decide (1 ≤ len) && decide (len ≤ 256) && decide (off + len ≤ s.slotSize) && (op != 2 || decide (off % 256 + len ≤ 256))

/-- The flash interface changed. -/
def State.modFlash (s : State) (f : FlashIf → FlashIf) : State := { s with chip := { s.chip with flash := f s.chip.flash } }

/-- FLASH_CMD written (21 R573, R577): OP 1 READ, 2 PROGRAM, 3 ERASE_4K; others, and any while BUSY, are discarded and counted. A READ goes out by a command of 02 Table 4, at x1 and 12.5 MHz (DESIGN CHOICE, log entry 69). -/
def State.flashCmd (s : State) (op : Nat) (slotB : Bool) (len : Nat) : State :=
  let f := s.chip.flash
  let off := f.addr.toNat
  if f.busy ∨ op = 0 ∨ 3 < op then s.countHub
  else if s.slotSelected slotB then s.modFlash fun f => { f with result := flashPermission }
  else if s.chip.search.density = 0 then s.modFlash fun f => { f with result := flashAbsent }
  else if ¬ s.flashRange op off len then s.modFlash fun f => { f with result := flashBadAddr }
  else
    let data := if op = 2 then slice f.data 0 len else []
    let s := (s.modFlash fun f => { f with busy := true, running := some (op, slotB, off, len), since := s.now }).emit (.flash slotB op off data)
    if op = 1 then s.spi false 12500 (s.slotBase slotB + off) len else s

/-- FLASH_READ (21 R577). -/
def execFlashRead (slotB : Bool) (length : Nat) (s : State) : Result := .next (s.fromMgmt fun s => s.flashCmd 1 slotB length)

/-- FLASH_PROGRAM (21 R577). -/
def execFlashProgram (slotB : Bool) (length : Nat) (s : State) : Result := .next (s.fromMgmt fun s => s.flashCmd 2 slotB length)

/-- FLASH_ERASE_4K (21 R577). -/
def execFlashErase4k (slotB : Bool) (s : State) : Result := .next (s.fromMgmt fun s => s.flashCmd 3 slotB 0)

/-- FLASH_CMD_DONE (21 R577): BUSY clears with RESULT OK; a READ has filled FLASH_DATA. -/
def execFlashCmdDone (data : List Byte) (s : State) : Result :=
  match s.chip.flash.running with
  | none => .next s
  | some (op, _, _, len) =>
    .next (s.modFlash fun f => { f with
      busy := false, running := none, result := flashOk
      data := if op = 1 then splice f.data 0 (slice data 0 len) else f.data })

/-- FLASH_CMD_TIMEOUT (21 R577): an erase has passed 5 s, or a program 10 ms. -/
def execFlashCmdTimeout (s : State) : Result :=
  match s.chip.flash.running with
  | none => .next s
  | some (op, _, _, _) =>
    let bound := if op = 3 then 5000000 else 10000
    .next (if op = 1 ∨ s.now.toNat < s.chip.flash.since.toNat + bound then s else s.modFlash fun f => { f with busy := false, running := none, result := flashTimeout })

end Sys2Proof.Machine
end

