-- ==== Sys2Proof/Machine/Headstock.lean ====
section
/-!
DEFINITION. The Headstock's commands: miss slots, walkers, walks, translations, trackers, the invalidation ring, faults, regions, counts (04 R108, R109; 10; 11; 21 R581, R583).
-/

namespace Sys2Proof.Machine

/-- A queued miss may take a slot: one of 1,024, or for a prefetch while fewer than 768 are in use (10 R313). -/
def State.slotOpen (s : State) (m : Miss) : Bool :=
  m.stage == .queued && if m.prefetchOnly then decide (s.missSlots < 768) else decide (s.missSlots < 1024)

/-- MISS_SLOT_GRANT (10 R283, R313): one queued miss of the bench served next takes a slot; Mode S misses send their requests. -/
def execMissSlotGrant (s : State) : Result :=
  let waiting := ((s.headstock.misses.filter s.slotOpen).map Miss.bench).dedup
  let (pick, s) := s.arbitrate arbMiss waiting
  match pick with
  | none => .next s.pumpAts
  | some b =>
    match s.headstock.misses.find? fun m => m.bench == b && s.slotOpen m with
    | none => .next s.pumpAts
    | some m =>
      let s := s.charge arbMiss b 1 (s.qosOf b).walkerWeight
      let s := { s with headstock := { s.headstock with misses := s.headstock.misses.map fun n => if n = m then { m with stage := .slotted } else n } }
      .next (s.addTally 0x04 b 0 m.page).pumpAts

/-- WALKER_GRANT (10 R283, R313): a free one of the 32 walkers goes to a waiting miss of the bench served next; prefetches only while no demand miss waits. -/
def execWalkerGrant (s : State) : Result :=
  let ready := s.headstock.misses.filter fun m => m.modeD && m.stage == .slotted
  let demand := ready.filter fun m => !m.prefetchOnly
  let l := if demand.isEmpty then ready else demand
  if 32 ≤ s.walkers then .next s else
  let (pick, s) := s.arbitrate arbWalker (l.map Miss.bench).dedup
  match pick.bind fun b => l.find? fun m => m.bench == b with
  | none => .next s
  | some m =>
    let s := s.charge arbWalker m.bench 1 (s.qosOf m.bench).walkerWeight
    let s := { s with headstock := { s.headstock with misses := s.headstock.misses.map fun n => if n = m then { m with stage := .walking } else n } }
    .next ((s.countPerf 130 1).addTally 0x05 m.bench 0 m.page)

/-- WALK_DONE (10 R284, R293, R307; 17 R510): the walk's end is installed and given to every request on the page; one that an invalidation overtook is walked again. -/
def execWalkDone (bench page : Nat) (ledgerUe : Option (BitVec 64)) (s : State) : Result :=
  match s.headstock.misses.find? fun m => m.bench == bench && m.modeD && m.page == page && m.stage == .walking with
  | none => .next s
  | some m =>
    let s := s.endMiss m
    if m.stale then .next (m.waiters.foldl (fun s w => s.askAgain m w) s) else
    let s := match ledgerUe with
      | some spa => s.logLedgerUe spa
      | none => (s.installWalk m (page * 4096)).fillWalkCache bench (page * 4096)
    .next (m.waiters.foldl (fun s w => s.serveWalk bench page ledgerUe.isSome w) s).pumpInvAcks

/-- ATS_TRANSLATION_COMPLETION (10 R286–R289; 04 R107): the entry is kept and every waiting request served; a failure or U = 1 is ATS_FAILED; one that an Invalidate Request overtook is asked again. -/
def execAtsTranslationCompletion (port tag : Nat) (result : AtsResult) (s : State) : Result :=
  match s.tagUse port tag with
  | none => .next (s.aer port 0 .unexpectedCompletion)
  | some u =>
    match u.owner with
    | .latheRead _ _ _ | .flush _ _ _ _ | .invFlush _ _ | .abortFlush _ _ => .next s
    | .ats id =>
    let s := s.freeTag port tag
    match s.missOf id with
    | none => .next s
    | some m =>
      let s := s.endMiss m
      if m.stale then .next (m.waiters.foldl (fun s w => s.askAgain m w) s) else
      match result with
      | .failed => .next (m.waiters.foldl (fun s w => s.failAts m w) s)
      | .translated size addr read write u =>
        if u then .next (m.waiters.foldl (fun s w => s.failAts m w) s) else
        let s := if read ∧ ¬ (s.benches.all fun e => e.1 != m.bench || e.2.state == .vacant) then
            s.install (atsEntry m.bench (pasidTag m.pasid) m.page size addr write) m.prefetchOnly else s
        .next (m.waiters.foldl (fun s w => s.serveAts m (fun wr => if wr then write && read else read) w) s)

/-- The port accepts a further Invalidate Request of the function: 32 of it, 256 of the port (04 R108). -/
def Port.invRoom (x : Port) (fn : Nat) : Bool :=
  decide ((x.invalidates.filter fun q => q.fn == fn).length < 32) && decide (x.invalidates.length < 256)

/-- The miss is a Mode S one under this PASID in `[base, base + length)`, its Translation Request not yet answered. -/
def Miss.askedIn (m : Miss) (b base length : Nat) (pasid : Option Nat) : Bool :=
  m.bench == b && !m.modeD && (pasid.isNone || pasid == m.pasid) && decide (base < (m.page + 1) * 4096) && decide (m.page * 4096 < base + length) &&
    (match m.stage with
     | .ats _ => true
     | _ => false)

/-- The ring's knock line is held, or asked for, under this PASID in `[base, base + length)`. -/
def Ring.knockIn (x : Ring) (base length : Nat) (pasid : Option Nat) : Bool :=
  (x.knock == .held || x.knock == .acquiring) && x.knockEn &&
    (pasid.isNone || pasid == (if x.pasidEn then some x.pasid.toNat else none)) &&
    decide (base ≤ x.knockAddr.toNat) && decide (x.knockAddr.toNat < base + length)

/-- An Invalidate Request accepted (04 R108; 10 R288; 06 R169): covered entries of the function's bench go, translations outstanding for them will not be installed, a knock line under one is released and taken again; what is in flight under them is remembered, and a flush read follows translated posted writes. -/
def State.acceptInvalidate (s : State) (port fn itag base length : Nat) (pasid : Option Nat) : State :=
  let s := s.stir 7
  match s.benchOf port fn with
  | none => s.modPort port fun x => { x with invalidates := x.invalidates ++ [⟨fn, itag, base, length, pasid, [], false⟩] }
  | some b =>
    let covers : CacheEntry → Bool := fun e => e.bench == b && !e.modeD && (pasid.isNone || pasid == some e.pasid) && e.overlaps base length
    let lines := (s.bench b).rings.filter fun e => e.2.knockIn base length pasid
    let flight := s.underModeS b base length pasid
    let s := (lines.foldl (fun s e => s.dropKnock b e.1) s).dropEntries covers
    let s := { s with headstock := { s.headstock with
      misses := s.headstock.misses.map fun (m : Miss) => if m.askedIn b base length pasid then { m with stale := true } else m } }
    let s := lines.foldl (fun s e => s.takeKnock b e.1) s
    let last := (s.bench b).posted
    let s := match last with
      | none => s
      | some a => s.flushRead b (.invFlush fn itag) true a.toNat
    s.modPort port fun x => { x with invalidates := x.invalidates ++ [⟨fn, itag, base, length, pasid, flight, last.isSome⟩] }

/-- INVALIDATE_REQUEST (04 R108): accepted, or left waiting with posted credits withheld. -/
def execInvalidateRequest (port fn itag base length : Nat) (pasid : Option Nat) (s : State) : Result :=
  let x := s.port port
  .next (if x.invWaiting.isEmpty ∧ x.invRoom fn then s.acceptInvalidate port fn itag base length pasid
    else s.modPort port fun x => { x with invWaiting := x.invWaiting ++ [(fn, itag, base, length, pasid)] })

/-- Invalidate Requests that waited are accepted in order as room allows. -/
def State.admitInvalidates (s : State) (port : Nat) : List (Nat × Nat × Nat × Nat × Option Nat) → State
  | [] => s
  | q :: r =>
    if (s.port port).invRoom q.1 then
      ((s.modPort port fun x => { x with invWaiting := r }).acceptInvalidate port q.1 q.2.1 q.2.2.1 q.2.2.2.1 q.2.2.2.2).admitInvalidates port r
    else s

/-- INVALIDATE_COMPLETION (04 R108): everything issued under the removed translations has finished; a request that waited for room is accepted. -/
def execInvalidateCompletion (port fn itag : Nat) (s : State) : Result :=
  match (s.port port).invalidates.find? fun q => q.fn == fn && q.itag == itag with
  | none => .next s
  | some q =>
    if q.flush ∨ q.barrier.any (s.inFlight ((s.benchOf port fn).getD 256)) then .next s
    else
      let s := (s.modPort port fun x => { x with invalidates := x.invalidates.erase q }).egress port fn ((s.benchOf port fn).getD 256) 4 0 (.invCompletion port fn itag)
      .next (s.admitInvalidates port (s.port port).invWaiting)

/-- Mode S faults of a port that are posted ask for their pages, as the allocation and the port's 256 allow (04 R109). -/
def State.pumpPri (s : State) (port : Nat) : State :=
  (s.headstock.faults.filter fun e => (e.2.map fun f => !f.modeD && f.state == .posted && (s.bench f.bench).port == port).getD false).foldl
    (fun s e => s.sendPri e.1) s

/-- PRI_RESPONSE (04 R109; 11 R323): Success sends a new Translation Request; the others end the fault with PRI_FAILED, and Response Failure stops the function's page requests; requests held back for room go out. -/
def execPriResponse (port fn group : Nat) (code : PriCode) (s : State) : Result :=
  match s.headstock.pageReqs.find? fun q => q.port == port && q.fn == fn && q.group == group with
  | none => .next s
  | some q =>
    let s := { s with headstock := { s.headstock with pageReqs := s.headstock.pageReqs.erase q } }
    let s := if code = .responseFailure then s.modFn port fn fun x => { x with priFailure := true } else s
    match q.fault with
    | none => .next (s.pumpPri port)
    | some i =>
      match s.fault i with
      | none => .next (s.pumpPri port)
      | some f =>
        if f.state ≠ .priSent then .next (s.pumpPri port) else
        if code = .success then
          .next (State.pumpPri ((s.setFault i (some { f with successes := f.successes + 1, state := .retrying })).request
            f.bench false (some f.pasid) f.va.toNat f.write (.retry i)) port)
        else .next ((s.faultEnds i 0x10 5).pumpPri port)

/-- TRACKER_EXPIRY (10 R311): a tracker unused for 100 µs is freed. -/
def execTrackerExpiry (bench stream : Nat) (s : State) : Result :=
  .next { s with headstock := { s.headstock with trackers := s.headstock.trackers.filter fun t =>
    !(t.bench == bench && t.stream == stream && decide (t.used.toNat + 100 ≤ s.now.toNat)) } }

/-! ### The invalidation ring (10 R302–R308; 21 R581) -/

/-- INV_CTRL written (21 R581): ENABLE = 0 stops the ring; ENABLE = 1 starts counts and INV_STATUS afresh; a LOG2 outside 4–12 at enable, or a change of LOG2 while enabled, is counted. -/
def State.putInvCtrl (s : State) (bench : Nat) (value : BitVec 32) : State :=
  s.tableServed bench fun s =>
    let l := value.extractLsb' 16 4
    let x := (s.bench bench).invRing
    if x.enable then
      let s := if l = x.log2 then s else s.countHub
      if value.getLsbD 0 then s else s.modInv bench fun x => { x with enable := false }
    else if value.getLsbD 0 = false then s.modInv bench fun x => { x with log2 := l }
    else
      let s := s.modInv bench fun x => { x with log2 := l }
      if l.toNat < 4 ∨ 12 < l.toNat then s.countHub
      else s.modInv bench fun x => { x with
        enable := true, head := 0, tail := 0, code := 0, stopped := false, tokenDone := false, pinFull := false, index := 0
        pinFullDva := 0, pinFailed := false, token := none, barrier := [], unacked := [] }

/-- INV_RING_ENABLE (21 R581). -/
def execInvRingEnable (bench : Nat) (value : BitVec 32) (s : State) : Result := .next (s.fromMgmt fun s => s.putInvCtrl bench value)

/-- A tail count written to INV_DOORBELL, taken as 06 R161 states; one that runs too far ahead is counted. -/
def State.putInvTail (s : State) (bench : Nat) (tail : BitVec 32) : State :=
  s.tableServed bench fun s =>
    let x := (s.bench bench).invRing
    if ¬ x.enable then s.countHub
    else if (tail - x.tail).toInt ≤ 0 then s
    else if (tail - x.head).toNat ≤ 2 ^ x.log2.toNat then s.modInv bench fun x => { x with tail := tail }
    else s.countHub

/-- INV_DOORBELL (10 R303). -/
def execInvDoorbell (bench : Nat) (tail : BitVec 32) (s : State) : Result := .next (s.fromMgmt fun s => s.putInvTail bench tail)

/-- SET_ENTRY (10 R304, R305, R308). -/
def execSetEntry (bench : Nat) (entry : List Byte) (s : State) : Result :=
  if ¬ s.invReads bench then .next s else
  let level := field entry 0x01 1
  let hub := field entry 0x02 1
  let dva := field entry 0x08 8
  if s.migHolds bench dva 4096 ∨ s.structureHeld .table bench then .next s else
  let s := s.readInv bench
  if field entry 0 1 ≠ 1 ∨ level < 1 ∨ 4 < level ∨ ¬ zeroBytes entry 0x03 5 ∨ ¬ zeroBytes entry 0x18 8 ∨ ¬ invDvaOk entry then .next (s.invStop bench 1)
  else if hub ≠ 255 ∧ hub ≠ s.hubId then
    if (s.holdersOf bench).contains hub then .next ((s.invForward bench entry hub).invNext bench) else .next (s.invStop bench 3)
  else
    match s.setEntry bench level dva (field entry 0x10 8) with
    | (0, s) => .next (s.invNext bench)
    | (c, s) => .next (s.invStop bench (BitVec.ofNat 4 c))

/-- INVALIDATE (10 R304, R308): covered entries go, pins are walked again, and every holder is told. -/
def execInvalidate (bench : Nat) (entry : List Byte) (s : State) : Result :=
  if ¬ s.invReads bench then .next s else
  let dva := field entry 0x08 8
  let len := field entry 0x10 8
  if s.migHolds bench dva len then .next s else
  let s := s.readInv bench
  if field entry 0 1 ≠ 2 ∨ ¬ zeroBytes entry 0x01 7 ∨ ¬ zeroBytes entry 0x18 8 ∨ ¬ invDvaOk entry ∨ len % 4096 ≠ 0 then .next (s.invStop bench 1)
  else
    let s := s.invalidateRange bench (if len = 0 then 0 else dva) len
    .next (((s.holdersOf bench).foldl (fun s h => s.invForward bench entry h) s).invNext bench)

/-- PIN_LOAD (10 R304, R298, R308): every pinned leaf of the range is walked and installed, here and on every holder. -/
def execPinLoad (bench : Nat) (entry : List Byte) (s : State) : Result :=
  if ¬ s.invReads bench then .next s else
  let dva := field entry 0x08 8
  let len := field entry 0x10 8
  if s.migHolds bench dva len then .next s else
  let s := s.readInv bench
  if field entry 0 1 ≠ 3 ∨ ¬ zeroBytes entry 0x01 7 ∨ ¬ zeroBytes entry 0x18 8 ∨ ¬ invDvaOk entry ∨ len % 4096 ≠ 0 ∨ len = 0 then .next (s.invStop bench 1)
  else
    let s := s.pinRange bench dva len
    .next (((s.holdersOf bench).foldl (fun s h => s.invForward bench entry h) s).invNext bench)

/-- TOKEN (10 R306; 11 R327): it is taken, and every posted Mode D fault of the bench is retried. -/
def execToken (bench : Nat) (entry : List Byte) (s : State) : Result :=
  if ¬ s.invReads bench then .next s else
  let addr := field entry 0x08 8
  let v := field entry 0x10 8
  let s := s.readInv bench
  if field entry 0 1 ≠ 4 ∨ ¬ zeroBytes entry 0x01 7 ∨ ¬ zeroBytes entry 0x18 8 ∨ addr % 4 ≠ 0 ∨ 2 ^ 31 ≤ v then .next (s.invStop bench 1)
  else
    let s := s.retryFaults bench fun _ => true
    .next ((s.modInv bench fun x => { x with token := some (BitVec.ofNat 64 addr, BitVec.ofNat 31 v) }).invNext bench)

/-- The bench still waits for walks that its TOKEN stands behind: pins being loaded, faults being retried. -/
def State.tokenWalks (s : State) (b : Nat) : Bool :=
  s.headstock.misses.any fun m => m.bench == b && m.waiters.any fun w =>
    match w with
    | .pinLoad _ => true
    | .retry i => ((s.fault i).map FaultRec.modeD).getD false
    | _ => false

/-- TOKEN_COMPLETE (10 R304, R306; 22 R599): every earlier entry applied and acknowledged, every request under what it removed finished: the value goes to DONE_ADDR, TOKEN_DONE is set for bench and management, removed table pages return. -/
def execTokenComplete (bench : Nat) (s : State) : Result :=
  let x := (s.bench bench).invRing
  match x.token with
  | none => .next s
  | some (addr, v) =>
    if ¬ x.unacked.isEmpty ∨ x.barrier.any (s.inFlight bench) ∨ s.tokenWalks bench ∨ ¬ s.fnMayIssue s.mgmtFn.1 0 then .next s else
    let s := (s.mgmtWrite addr.toNat (leBytes 4 (v.toNat + if x.pinFailed then 2 ^ 31 else 0))).returnPages bench
    .next (s.modBench bench fun y => { y with
      tokenDone := true, lastToken := v
      invRing := { y.invRing with token := none, tokenDone := true, pinFailed := false, barrier := [] } })

/-- INV_RESUME written (10 R305; 21 Table 15): the entry that stopped the ring is skipped; otherwise discarded and counted. -/
def State.resumeInv (s : State) (bench : Nat) : State :=
  s.tableServed bench fun s =>
    if (s.bench bench).invRing.stopped then s.modInv bench fun x => { x with stopped := false, code := 0, head := x.head + 1 }
    else s.countHub

/-- INV_RESUME (10 R305). -/
def execInvResume (bench : Nat) (s : State) : Result := .next (s.fromMgmt fun s => s.resumeInv bench)

/-- XLATE_INV_RECEIVED (10 R308): an entry for a guest's copy of its table, applied, and acknowledged once what was issued under what it removed has finished. -/
def execXlateInvReceived (home bench : Nat) (incarn : BitVec 16) (entry : List Byte) (count : BitVec 32) (s : State) : Result :=
  match s.guestSlot home bench with
  | none => .next s.staleMessage
  | some g =>
    if ((s.guest g).map Guest.incarn) ≠ some incarn then .next s.staleMessage else
    let b := 256 + g
    let dva := field entry 0x08 8
    let len := field entry 0x10 8
    let op := field entry 0 1
    let flight := if op = 2 then s.underModeD b (if len = 0 then 0 else dva) (if len = 0 then 2 ^ 48 else len) else []
    let s := if op = 1 then (s.setEntry b (field entry 0x01 1) dva len).2
      else if op = 2 then s.invalidateRange b (if len = 0 then 0 else dva) len
      else if op = 3 then s.pinRange b dva len else s
    .next (s.setGuest g ((s.guest g).map fun x => { x with unanswered := x.unanswered ++ [(count, flight)] })).pumpInvAcks

/-- XLATE_INV_ACK (10 R308): a holder has applied an entry. -/
def execXlateInvAck (holder bench : Nat) (count : BitVec 32) (s : State) : Result :=
  .next (if (s.bench bench).state = .vacant then s
    else s.modInv bench fun x => { x with unacked := x.unacked.filter fun q => q != (holder, count) })

/-! ### Faults and regions (11 R322; 21 R583) -/

/-- ACTION written to FAULT_CMD (11 R320, R322): RETRY retries a posted fault at once, FATAL ends it with XLATE_FATAL; on FREE or WAITING_SHARE, and other actions, discarded and counted. -/
def State.faultCmd (s : State) (index action : Nat) : State :=
  if (s.fault index).isNone then s.countHub
  else if action = 1 then s.retryFault index
  else if action = 2 then s.faultEnds index 0x10 6 else s.countHub

/-- FAULT_CMD_RETRY (11 R322). -/
def execFaultCmdRetry (index : Nat) (s : State) : Result := .next (s.fromMgmt fun s => s.faultCmd index 1)

/-- FAULT_CMD_FATAL (11 R322, R320). -/
def execFaultCmdFatal (index : Nat) (s : State) : Result := .next (s.fromMgmt fun s => s.faultCmd index 2)

/-- FAULT_FIND written (21 R583): the lowest index from START on of a fault of BENCH. -/
def State.findFault (s : State) (value : BitVec 32) : State :=
  let b := value.extractLsb' 0 8
  let start := value.extractLsb' 16 12
  let hit := ((s.headstock.faults.filter fun e => decide (start.toNat ≤ e.1) && (e.2.map fun f => f.bench == b.toNat).getD false).map Prod.fst).min?
  let h := { s.headstock with findBench := b, findStart := start, findFound := hit.isSome }
  { s with headstock := match hit with
    | some i => { h with faultSel := BitVec.ofNat 12 i }
    | none => h }

/-- FAULT_FIND (21 R583). -/
def execFaultFind (value : BitVec 32) (s : State) : Result := .next (s.fromMgmt fun s => s.findFault value)

/-- Reading FAULT_READ's last dword advances the index, wrapping at the queue size (21 Table 16). -/
def State.nextFault (s : State) : State :=
  { s with headstock := { s.headstock with faultSel := BitVec.ofNat 12 ((s.headstock.faultSel.toNat + 1) % s.nFaults) } }

/-- FAULT_READ (21 Table 16). -/
def execFaultRead (s : State) : Result := .next (if s.running then s.nextFault else s)

/-- The bench's record at the lowest region at or above `n`. -/
def State.regionFrom (s : State) (b n : Nat) : Option Nat :=
  (((s.bench b).regions.filter fun e => decide (n ≤ e.1) && e.2.isSome).map Prod.fst).min?

/-- REGION_QUERY shows the bench's record at the lowest region from `n` on, if there is one. -/
def State.loadRegion (s : State) (b : BitVec 8) (n : Nat) : State :=
  let h := s.headstock
  { s with headstock := match s.regionFrom b.toNat n with
    | some k => { h with queryBench := b, queryRegion := BitVec.ofNat 32 k, queryFound := true }
    | none => { h with queryBench := b, queryFound := false } }

/-- REGION_QUERY_SEL written (21 R583). -/
def State.selectRegion (s : State) (value : BitVec 64) : State :=
  let s := { s with headstock := { s.headstock with queryRegion := value.extractLsb' 16 32 } }
  s.loadRegion (value.extractLsb' 48 8) (value.extractLsb' 16 32).toNat

/-- REGION_QUERY_SEL (21 R583). -/
def execRegionQuerySel (value : BitVec 64) (s : State) : Result := .next (s.fromMgmt fun s => s.selectRegion value)

/-- Reading REGION_QUERY's last dword loads the bench's next record, or clears FOUND (21 Table 16). -/
def State.nextRegion (s : State) : State :=
  if s.headstock.queryFound then s.loadRegion s.headstock.queryBench (s.headstock.queryRegion.toNat + 1) else s

/-- REGION_QUERY (21 Table 16). -/
def execRegionQuery (s : State) : Result := .next (if s.running then s.nextRegion else s)

/-- COUNT_UPDATE (11 R331, R332, R334): the oldest queued count reaches its record. -/
def execCountUpdate (s : State) : Result :=
  match s.headstock.counts with
  | [] => .next s
  | (b, n) :: r =>
    let s := { s with headstock := { s.headstock with counts := r } }
    .next (if (s.bench b).state = .vacant then s else s.applyCount b n)

/-- One record halved (11 R333). -/
def Region.decay (r : Region) (threshold : Nat) : Region :=
  { r with count := r.count / 2, armed := r.armed || decide (r.count / 2 < threshold) }

/-- COUNT_DECAY (11 R333; 18 R523): the pass of a hearth second halves every COUNT and re-arms those below the threshold. -/
def execCountDecay (s : State) : Result :=
  let sec := s.now.toNat / 1000000
  if ¬ s.running ∨ sec ≤ s.headstock.decaySecond then .next s else
  let s := { s with headstock := { s.headstock with decaySecond := sec, decayStart := some s.now, decayFloor := false } }
  let s := if s.liveBenches.any (fun b => s.hotThreshold b != 0) then s.stir 8 else s
  .next (s.liveBenches.foldl (fun s b =>
    if s.hotThreshold b = 0 then s
    else s.modBench b fun x => { x with regions := x.regions.map fun e => (e.1, e.2.map fun r => r.decay (s.hotThreshold b)) }) s)

/-- DECAY_OVERDUE (18 R523): a pass not ended after 500 ms takes the floor-mode share. -/
def execDecayOverdue (s : State) : Result :=
  match s.headstock.decayStart with
  | none => .next s
  | some t => .next (if t.toNat + 500000 ≤ s.now.toNat then { s with headstock := { s.headstock with decayFloor := true } } else s)

end Sys2Proof.Machine
end

