-- ==== Sys2Proof/Machine/Hearth.lean ====
section
/-!
DEFINITION. The hearth's commands without porch replay: deadlines, the gate handshake, waking by register (03).
-/

namespace Sys2Proof.Machine

/-- The domain that owns a general deadline (03 R65). -/
def DeadlineKind.domain : DeadlineKind → Nat
  | .spindleRetry d => dieDomain d
  | .envanRetry _ => 10
  | _ => 8

/-- HEARTH_DEADLINE (03 R65, R75): a deadline that has passed leaves the timer unit, and its owning domain wakes, abandoning a gate; the scrub floor's puts the scrub in floor mode (18 R515, R517); with the master's silence the hub seeks (16 Table 3); another's event is the command of its own name. -/
def execHearthDeadline (index : Nat) (s : State) : Result :=
  match s.hearth.deadlines[index]? with
  | none => .next s
  | some d =>
    if s.now.toNat < d.time.toNat then .next s else
    let s := { s with hearth := { s.hearth with deadlines := s.hearth.deadlines.eraseIdx index } }
    let s := if d.kind = .scrubFloor then { s with bg := { s.bg with floor := true } }
      else if d.kind = .masterSilence ∧ s.following ∧ s.cascade.state ≠ .master then s.setRole .seeking else s
    .next (if s.domainOn d.kind.domain then s else s.wake d.kind.domain)

/-- IDLE_GATE_EXPIRY (03 R68–R70, R72): the idle condition has held for IDLE_GATE_MS: the domain closes ingress; the dies of a spindle domain lose DIE_PWR_EN first, once no request to or from them is outstanding (13 R390). -/
def execIdleGateExpiry (domain : Nat) (s : State) : Result :=
  if ¬ s.domainPresent domain ∨ ¬ s.domainOn domain ∨ s.idleGateMs domain = 0 ∨ ¬ s.idle domain ∨
     s.now.toNat < (s.domain domain).idleSince.toNat + s.idleGateMs domain * 1000 ∨
     ((domain = 11 ∨ domain = 12) ∧ ¬ (s.groupDies domain).all s.dieQuiet) then .next s else
  let s := if domain = 11 ∨ domain = 12 then (s.groupDies domain).foldl (fun s d => s.modDie d (Spindle.powerOff s.now)) s else s
  .next (s.modDomain domain fun d => { d with state := .closing, stepSince := s.now })

/-- GATE_DRAIN_DONE (03 R72 step 3): accepted operations have run to completion, so the domain saves. -/
def execGateDrainDone (domain : Nat) (s : State) : Result :=
  .next (s.modDomain domain fun d =>
    if d.state = .closing ∨ d.state = .draining then { d with state := .saving, stepSince := s.now } else d)

/-- GATE_SAVE_DONE (03 R72 step 4, R74, R84; 18 R517): the power switch opens; the Headstock's caches are lost, the pin lists stay in ledger memory; with PD8 off a deadline stands for the scrub floor. -/
def execGateSaveDone (domain : Nat) (s : State) : Result :=
  if (s.domain domain).state ≠ .saving then .next s else
  let s := s.modDomain domain fun d => { d with state := .off, stepSince := s.now }
  if domain = 7 then
    .next { s with
      hearth := { s.hearth with refilling := false }
      headstock := { s.headstock with cache := [], walkCache := [] } }
  else if domain = 8 then .next ((s.cancelDeadline .scrubFloor).addDeadline .scrubFloor s.floorTime)
  else .next s

/-- PD_WAKE written (03 R71; 21 Table 10): each bit of a present domain that is 1 wakes it; bits of absent domains are discarded. -/
def State.putPdWake (s : State) (value : BitVec 32) : State :=
  (List.range 12).foldl (fun s i => if value.getLsbD (i + 1) ∧ s.domainPresent (i + 1) then s.wake (i + 1) else s) s

/-- PD_WAKE (03 R71; 21 Table 10). -/
def execPdWake (value : BitVec 32) (s : State) : Result := .next (s.fromMgmt fun s => s.putPdWake value)

/-- SCRUB_FLOOR_DEADLINE (18 R517): the floor line has reached the saved POSITION: PD8 wakes to scrub in floor mode. -/
def execScrubFloorDeadline (s : State) : Result :=
  if ¬ s.running ∨ ¬ s.domainOff 8 ∨ s.now.toNat < s.floorTime.toNat then .next s else
  .next ((({ s with bg := { s.bg with floor := true } }).cancelDeadline .scrubFloor).wake 8)

end Sys2Proof.Machine
end

