-- ==== Sys2Proof/Machine/Lathes.lean ====
section
/-!
DEFINITION. The lathes' commands: channels, bursts, data and acknowledgements, triggers, event lines, pace timers, halts (07 R209–R226; 08).
-/

namespace Sys2Proof.Machine

/-- CHANNEL_TAKEUP (08 R231, R232): one waiting ring of the bench served next takes a channel of the cluster. -/
def execChannelTakeup (clusterB : Bool) (s : State) : Result :=
  if ¬ s.domainWorks (clusterDomain clusterB) then .next s else
  let benches := s.liveBenches.filter fun b =>
    (s.bench b).goesOn && !(s.waitingRings b clusterB).isEmpty && (s.channelFor b clusterB).isSome
  let (pick, s) := s.arbitrate (arbTake clusterB) benches
  match pick with
  | none => .next s
  | some b =>
    let l := s.waitingRings b clusterB
    let after := tabGet ((s.bench b).takenRing.map fun e => (e.1, e.2 + 1)) 0 clusterB.toNat
    match ((l.filter fun r => decide (after ≤ r)) ++ l).head?, s.channelFor b clusterB with
    | some r, some (la, c) =>
      let s := s.charge (arbTake clusterB) b 1 (s.qosOf b).latheWeight
      let s := s.modBench b fun x => { x with takenRing := tabSet clusterB.toNat r x.takenRing }
      .next (s.takeChannel b r la c)
    | _, _ => .next s

/-- BURST_GRANT (08 R237, R238): each channel of the lathe is looked at, and one eligible burst is granted by the weighted round robin. -/
def execBurstGrant (lathe : Nat) (s : State) : Result :=
  if (s.lathe lathe).halt.isSome ∨ ¬ s.domainWorks (clusterDomain (decide (8 ≤ lathe))) then .next s else
  let (e, s) := s.attendLathe lathe (s.lathe lathe).channels
  let benches := (e.map fun x => x.2.1).dedup
  let (pick, s) := s.arbitrate (arbLathe lathe) benches
  match pick with
  | none => .next s
  | some b =>
    match s.channelTurn lathe b e with
    | none => .next s
    | some (k, b, r, c, u) => .next (s.grantBurst lathe k b r c u)

/-- The burst of a descriptor that only the lathe's room has kept back for 8 µs (08 R239). -/
def State.keptBack (s : State) (b l : Nat) (d : Desc) : Option Burst :=
  if ¬ d.issuing ∨ ¬ (d.roomWait.map fun t => decide (t.since.toNat + 8 ≤ s.now.toNat)).getD false then none else
  match s.nextBurst b d l with
  | .burst u => if (s.lathe l).fits u then none else some u
  | _ => none

/-- RESERVATION_START (08 R239): the ring's burst has been kept back by space or slots alone for 8 µs: what frees from now on is kept for it. -/
def execReservationStart (bench ring : Nat) (s : State) : Result :=
  match (s.ring bench ring).channel with
  | none => .next s
  | some (l, _) =>
    match (s.ring bench ring).descs.findSome? (s.keptBack bench l) with
    | none => .next s
    | some u =>
      .next (if (s.lathe l).reserved.isSome then s
        else s.modLathe l fun x => { x with reserved := some ⟨bench, ring, u.reorder, min 64 u.reads.length, min 64 u.dst.length⟩ })

/-- The slot is one of a request to a host port, which its tag answers. -/
def State.hostSlot (s : State) (l slot : Nat) : Bool :=
  s.ports.any fun e => e.2.tags.any fun t =>
    match t.owner with
    | .latheRead l' _ n => l' == l && n == slot
    | .flush _ _ l' n => l' == l && n == slot
    | _ => false

/-- A response whose slot names no outstanding request of the lathe is a lathe bus error (08 R250). -/
def State.strayResponse (s : State) (l : Nat) : State := if s.running ∧ l < s.nLathes then s.haltLathe l none else s

/-- READ_DATA_RETURN (08 R241, R242, R250; 13 R380; 17 R510): data of a die, another sled or the ledger for a read slot; an error ends its descriptor with SPINDLE_ERROR, and a ledger error is logged. A block of a billet that the scrub marked reads as one (18 R518). -/
def execReadDataReturn (lathe slot : Nat) (status : MemStatus) (data : List Byte) (s : State) : Result :=
  if s.hostSlot lathe slot then .next s else
  if s.unsent (.lathe lathe slot false) then .next (s.strayResponse lathe) else
  match (s.lathe lathe).reads.find? fun u => u.slot == slot with
  | none => .next (s.strayResponse lathe)
  | some u =>
    let s := (u.die.map fun d => s.countPerf (65 + 4 * d) data.length).getD s
    let s := (u.hub.map fun h => s.hubIn h data.length).getD s
    let mark := if u.die.isNone ∧ u.hub.isNone then s.recovery.markIn (u.spa.toNat - ledgerBase) u.len else none
    match mark with
    | some p =>
      let spa := BitVec.ofNat 64 (ledgerBase + p)
      .next ((s.logLedgerUe spa).failRead lathe slot 0x22 4 fun _ => spa)
    | none =>
      if status = .ok then .next (s.deliver lathe slot data)
      else .next ((s.logLoad 0x22 (memDetail status) u.spa).failRead lathe slot 0x22 (memDetail status) SlotUse.spa)

/-- WRITE_ACK (07 R216, R220; 08 R250; 09 R274; 13 R380): a write is acknowledged, or refused and counted at its die. Lathe 16 stands for the hub itself, whose writes of hosts, peers and frames the slot numbers; a frame's trailer is acknowledged by its frame event (19 R542). -/
def execWriteAck (lathe slot : Nat) (status : MemStatus) (s : State) : Result :=
  if s.unsent (if lathe = 16 then .put slot else .lathe lathe slot true) then .next (if lathe = 16 then s else s.strayResponse lathe) else
  if lathe = 16 then .next (if s.isTrailer slot then s else (((s.portDone (.put slot)).putAcked slot status).frameAcked slot).loadAcked slot) else
  match (s.lathe lathe).writes.find? fun u => u.slot == slot with
  | none => .next (s.strayResponse lathe)
  | some u =>
    let s := match u.die, status with
      | some d, .writeRefused => s.modDie d fun x => { x with writeErr := x.writeErr + 1 }
      | _, _ => s
    .next ((s.ackWrite lathe slot status).replayNext lathe)

/-- TRIGGER_FIRE (07 R223; 08 R233): an event line seen set fires the trigger of the ring's oldest descriptor that waits for it and is eligible to start. -/
def execTriggerFire (bench ring : Nat) (s : State) : Result :=
  match (s.ring bench ring).descs.find? fun d =>
    d.phase == .trigger && trigOf d.bytes == 2 && s.mayStart bench ring d && s.lineSet bench (trigArgOf d.bytes) with
  | none => .next s
  | some d => .next (s.fireDesc bench ring d.count)

/-- PACE_TIMER_EXPIRY (08 R248, R249; 07 R223, R226): the next expiry of an armed timer is due: it fires triggers and counts as an edge; unconsumed it is lost. -/
def execPaceTimerExpiry (clusterB : Bool) (timer : Nat) (s : State) : Result :=
  if ¬ s.domainWorks (clusterDomain clusterB) ∨ ¬ s.paceDue clusterB timer then .next s else
  match (s.paceTimer clusterB timer).holder with
  | none => .next s
  | some b => .next ((s.modPaceTimer clusterB timer fun x => { x with expiries := x.expiries + 1 }).firing b (.timer clusterB timer))

/-- PACING_YIELD (08 R235): 10 µs at a burst boundary without the pacing condition, every burst written: the channel is given up. -/
def execPacingYield (bench ring : Nat) (s : State) : Result :=
  let x := s.ring bench ring
  let run := x.descs.filter Desc.issuing
  let waits := x.descs.all (fun d => d.bursts.isEmpty) && run.all fun d =>
    !s.paceOpen bench ring d.bytes && (d.paceWait.map fun t => decide (t.toNat + 10 ≤ s.now.toNat)).getD false
  .next (if x.channel.isSome ∧ ¬ run.isEmpty ∧ waits then s.giveUp bench ring 4 else s)

/-! ### Event lines (08 R244, R245; 22 R599) -/

/-- One in EVENT_CLAIM_FAIL. -/
def State.claimFail (s : State) (b : Nat) : State :=
  s.modBench b fun x => { x with counters := { x.counters with claimFail := x.counters.claimFail + 1 } }

/-- A line claimed through EVENT_CLAIM (08 R245; 22 R599): a free line within the bench's 16 (bench 0: any number); one it holds already changes nothing. -/
def State.claimLine (s : State) (bench line : Nat) : State :=
  match (s.event line).holder with
  | some b => if b = bench then s else s.claimFail bench
  | none => if bench ≠ 0 ∧ 16 ≤ s.linesHeld bench then s.claimFail bench else s.takeLine bench line

/-- EVENT_CLAIM (08 R245; 22 R599). -/
def execEventClaim (bench line : Nat) (s : State) : Result := .next (s.served bench fun s => s.claimLine bench line)

/-- A line released through EVENT_CLAIM (08 R245; 22 R599): waits, triggers and pacing on the line end with PERMISSION; a line not held is counted. -/
def State.releaseLine (s : State) (bench line : Nat) : State :=
  if (s.event line).holder = some bench then (s.dropLine bench line).endDependents bench (.line line) else s.claimFail bench

/-- EVENT_RELEASE (08 R245; 22 R599). -/
def execEventRelease (bench line : Nat) (s : State) : Result := .next (s.served bench fun s => s.releaseLine bench line)

/-! ### Pace timers (08 R247, R248; 22 R600) -/

/-- A cluster of the grade. -/
def State.clusterPresent (s : State) (clusterB : Bool) : Bool := s.big || !clusterB

/-- CLAIM = 1 written to a slot (08 R247; 22 R600): a free timer of a present cluster; a slot that holds another timer discards and counts. -/
def State.claimPace (s : State) (bench slot timer : Nat) (clusterB : Bool) : State :=
  let p := s.paceSlot bench slot
  if p.claim then (if p.timer.toNat = timer ∧ p.clusterB = clusterB then s else s.countBench bench) else
  let s := s.modPaceSlot bench slot fun p => { p with timer := BitVec.ofNat 6 timer, clusterB := clusterB }
  if ¬ s.clusterPresent clusterB ∨ (s.paceTimer clusterB timer).holder.isSome then s.claimFail bench
  else
    let s := s.modPaceSlot bench slot fun p => { p with claim := true }
    (s.modPaceTimer clusterB timer fun _ => ⟨some bench, slot, false, 0, 0⟩).addTally 0x0C bench clusterB.toNat (clusterB.toNat * 64 + timer)

/-- PACE_CLAIM (08 R247; 22 R600). -/
def execPaceClaim (bench slot timer : Nat) (clusterB : Bool) (s : State) : Result :=
  .next (s.served bench fun s => s.claimPace bench slot timer clusterB)

/-- CLAIM = 0 written to a slot (08 R248; 22 R600): the timer is disarmed and released, and descriptors that depend on it end with PERMISSION; a slot without one is counted. -/
def State.releasePace (s : State) (bench slot : Nat) : State :=
  let p := s.paceSlot bench slot
  if p.claim then (s.dropTimer bench slot).endDependents bench (.timer p.clusterB p.timer.toNat) else s.claimFail bench

/-- PACE_RELEASE (08 R248; 22 R600). -/
def execPaceRelease (bench slot : Nat) (s : State) : Result := .next (s.served bench fun s => s.releasePace bench slot)

/-- ARM = 1 written to a slot (08 R248; 22 R600): expiries begin one PERIOD from now; a slot without a timer, or a PERIOD below 10, leaves ARM 0 and is counted. An armed timer goes on. -/
def State.armPace (s : State) (bench slot : Nat) : State :=
  let p := s.paceSlot bench slot
  if ¬ p.claim ∨ p.period.toNat < 10 then s.countBench bench
  else if p.arm then s
  else ((s.modPaceSlot bench slot fun p => { p with arm := true }).modPaceTimer p.clusterB p.timer.toNat fun x =>
    { x with armed := true, expiries := 0, armedAt := s.now }).rouse (clusterDomain p.clusterB)

/-- PACE_ARM (08 R248; 22 R600). -/
def execPaceArm (bench slot : Nat) (s : State) : Result := .next (s.served bench fun s => s.armPace bench slot)

/-- ARM = 0 written to a slot (08 R248): expiries stop. -/
def State.disarmPace (s : State) (bench slot : Nat) : State :=
  let p := s.paceSlot bench slot
  if ¬ p.claim then s
  else (s.modPaceSlot bench slot fun p => { p with arm := false }).modPaceTimer p.clusterB p.timer.toNat fun x => { x with armed := false }

/-- PACE_DISARM (08 R248). -/
def execPaceDisarm (bench slot : Nat) (s : State) : Result := .next (s.served bench fun s => s.disarmPace bench slot)

/-! ### Halts (08 R250–R258) -/

/-- LATHE_BUS_ERROR (08 R251, R252, R257): every channel halts at its progress point, or an isolation under way starts again. -/
def execLatheBusError (lathe : Nat) (tag : Option (BitVec 16)) (s : State) : Result :=
  .next (if s.running ∧ lathe < s.nLathes then s.haltLathe lathe tag else s)

/-- HALT_REPLAY_RESPONSE (08 R252): the request under replay reproduces the error, or does not. -/
def execHaltReplayResponse (lathe : Nat) (reproduces : Bool) (s : State) : Result := .next (s.replayed lathe reproduces)

/-- HALT_REPLAY_TIMEOUT (08 R252): no answer in 4 µs counts as no error. -/
def execHaltReplayTimeout (lathe : Nat) (s : State) : Result := .next (s.replayed lathe false)

/-- HALT_ISOLATION_DONE (08 R253–R256): the culprit is ended, every innocent channel resumes from P; without a culprit all resume and the halt is logged UNATTRIBUTED. A culprit swept meanwhile gets no status (R258). -/
def execHaltIsolationDone (lathe : Nat) (s : State) : Result :=
  let x := s.lathe lathe
  match x.halt with
  | none => .next s
  | some h =>
    if ¬ x.isolated then .next s else
    let s := s.modLathe lathe fun x => { x with halt := none }
    match h.culprit with
    | some i =>
      let s := if h.halted.any fun e => e.2.1 == i.bench && e.2.2 == i.ring then s.endCulprit lathe i h.since else s
      .next (((h.halted.filter fun e => !(e.2.1 == i.bench && e.2.2 == i.ring)).foldl (fun s e => s.resumeInnocent lathe e h.since) s).pumpLathe lathe)
    | none => .next (((h.halted.foldl (fun s e => s.resumeInnocent lathe e h.since) s).pumpLathe lathe).unattributedHalt lathe)

end Sys2Proof.Machine
end

