-- ==== Sys2Proof/Machine/Recovery.lean ====
section
/-!
DEFINITION. Recovery's commands: the steps of a sweep, lock expiry, the watchdog, the query windows of tallies and the error log (17; 21 R582, R584).
-/

namespace Sys2Proof.Machine

/-- SWEEP_SETTLE_TIMEOUT (17 R494, R495): step 2 has run 1 ms: descriptors not yet written keep OWN = 1. -/
def execSweepSettleTimeout (bench : Nat) (s : State) : Result :=
  let due := ((s.bench bench).sweep.map fun w => decide (w.since.toNat + 1000 ≤ s.now.toNat)).getD false
  .next (if s.sweepAt bench .settle ∧ due then s.modSweep bench fun w => { w with step := .cut } else s)

/-- A bench command runs that a sweep of bench 0 must let complete its effect first (17 R501). -/
def State.commandRuns (s : State) : Bool := s.mailbox.busy && !(s.mailbox.code == 6 && s.mailbox.bench == 0)

/-- SWEEP_CUT (17 R494 step 3, R496, R501): steps 1 and 2 have ended, every started descriptor having written its status where step 2 is taken. -/
def execSweepCut (bench : Nat) (s : State) : Result :=
  let due := s.sweepAt bench .cut || (s.sweepAt bench .settle && (s.bench bench).settled)
  .next (if due ∧ ¬ (bench = 0 ∧ s.commandRuns) then s.cutBench bench else s)

/-- SWEEP_DRAIN_DONE (17 R494 step 4): writes to this hub's dies are acknowledged; the ledger's are at once. -/
def execSweepDrainDone (bench : Nat) (s : State) : Result :=
  .next (if s.sweepAt bench .drain ∧ s.dieWrites bench = 0 then s.modSweep bench fun w => { w with step := .locks } else s)

/-- SWEEP_LOCKS_TAKEN (17 R494 steps 5 and 6, R491). -/
def execSweepLocksTaken (bench : Nat) (s : State) : Result :=
  .next (if s.sweepAt bench .locks ∧ s.locksFree bench then (s.takeLocks bench).reclaim bench else s)

/-- SWEEP_RECLAIM_DONE (17 R494 steps 6 and 7, R499): its placements are released, so the disposition is applied. -/
def execSweepReclaimDone (bench : Nat) (s : State) : Result :=
  .next (if s.sweepAt bench .reclaim ∧ (((s.bench bench).sweep.map Sweep.placements).getD []).isEmpty then s.dispose bench else s)

/-- LOCK_EXPIRY (17 R491; 20 R557–R559): a lock whose expiry has come is broken; one whose whittler has resumed meanwhile has been released. -/
def execLockExpiry (lock : Nat) (s : State) : Result :=
  match s.recovery.locks[lock]? with
  | none => .next s
  | some l =>
    if l.broken ∨ l.frozen.isSome ∨ s.now.toNat < l.expiry.toNat then .next s else
    .next (s.ownedBy 8 fun s =>
      if (s.whittler l.whittler).halted then s.setLocks (s.recovery.locks.mapIdx fun i x => if i = lock then x.break else x)
      else s.setLocks (s.recovery.locks.eraseIdx lock))

/-- WHITTLER_WATCHDOG (17 R490, R509): a whittler that no debugger has halted is reset, its locks broken; the third reset within 1 s fences it. -/
def execWhittlerWatchdog (whittler : Nat) (s : State) : Result :=
  if ¬ s.running ∨ ¬ s.whittlerRuns whittler then .next s else
  let recent := s.now :: ((s.whittler whittler).resets.filter fun t => decide (s.now.toNat < t.toNat + 1000000)).take 2
  let s := (s.modWhittler whittler fun x => { x with resets := recent, testing := false }).modLocks whittler Lock.break
  let s := { s with bg := { s.bg with testing := s.bg.testing.filter fun t => t != TestUnit.whittler whittler } }
  let s := s.logError 6 1 (BitVec.ofNat 64 whittler) 0
  .next (if recent.length = 3 then s.fenceWhittler whittler else s)

/-- Reading TALLY_QUERY's last dword advances INDEX (21 R582). -/
def State.nextTally (s : State) : State := { s with recovery := { s.recovery with tallyIndex := s.recovery.tallyIndex + 1 } }

/-- TALLY_QUERY (21 R582, Table 18). -/
def execTallyQuery (s : State) : Result := .next (if s.running then s.nextTally else s)

/-- Reading an entry's last dword marks it READ: through ERRLOG_DATA, which advances ERRLOG_INDEX too, or through the mirror (17 R507; 21 R584). -/
def State.readLog (s : State) (mirror : Bool) (slot : Nat) : State :=
  if mirror then
    match tabGet s.recovery.mirror none slot with
    | some e => s.markRead e.seq
    | none => s
  else
    let i := s.recovery.logIndex
    let s := match tabGet s.recovery.log none i.toNat with
      | some e => s.markRead e.seq
      | none => s
    { s with recovery := { s.recovery with logIndex := i + 1 } }

/-- ERRLOG_ENTRY_READ (17 R507, R508; 21 R584): the mirror answers whenever the hearth has power. -/
def execErrlogEntryRead (mirror : Bool) (slot : Nat) (s : State) : Result :=
  .next (if (if mirror then s.chip.powered else s.running) then s.readLog mirror slot else s)

end Sys2Proof.Machine
end

