-- ==== Sys2Proof/Machine/Flags.lean ====
section
/-!
DEFINITION. Status words: how each state of the hub and its units reads in a register (20 R549–R559; 21 Tables 4–22; 22 Tables 4–14).
-/

namespace Sys2Proof.Machine


/-- A 32-bit word made of its fields. -/
def word (l : List (Nat × Nat)) : BitVec 32 := BitVec.ofNat 32 (fields l)

/-- The low dword of a 64-bit value. -/
def lo32 (v : BitVec 64) : BitVec 32 := v.extractLsb' 0 32
/-- The high dword of a 64-bit value. -/
def hi32 (v : BitVec 64) : BitVec 32 := v.extractLsb' 32 32
/-- Dword `i` of a 64-bit value: 0 the low one. -/
def half (v : BitVec 64) (i : Nat) : BitVec 32 := if i = 0 then lo32 v else hi32 v
/-- Dword `i` of a block of bytes. -/
def dwordOf (b : List Byte) (i : Nat) : BitVec 32 := BitVec.ofNat 32 (field b (4 * i) 4)

/-! ### Encodings -/

/-- HUB_STATUS.PHASE (02 Table 2). -/
def Phase.code : Phase → Nat
  | .straps => 0 | .flash => 1 | .bist => 2 | .links => 3 | .hosts => 4 | .running => 5 | .restarting => 6

/-- PD_STATUS.STATE (03 Table 4). -/
def PdState.code : PdState → Nat
  | .on => 0 | .closing => 1 | .draining => 2 | .saving => 3 | .off => 4 | .waking => 5

/-- PORT_STATUS.LINK_STATE (21 Table 12). -/
def LinkState.code : LinkState → Nat
  | .down => 0 | .detect => 1 | .training => 2 | .l0 => 3 | .l1 => 4 | .l2 => 5 | .recovery => 6 | .absent => 7

/-- BENCH_STATUS.STATE (05 Table 1). -/
def BenchState.code : BenchState → Nat
  | .vacant => 0 | .forming => 1 | .active => 2 | .held => 3 | .sweeping => 4

/-- RING_STATUS.STATE (06 Table 4). -/
def RingState.code : RingState → Nat
  | .disabled => 0 | .idle => 1 | .running => 2 | .pausing => 3 | .paused => 4 | .parked => 5 | .aborting => 6

/-- RING_STATUS.KNOCK_STATE (06 Table 2). -/
def KnockState.code : KnockState → Nat
  | .off => 0 | .acquiring => 1 | .held => 2 | .polling => 3 | .refused => 4

/-- STATE of a fault record (11 Table 2). -/
def FaultState.code : FaultState → Nat
  | .free => 0 | .waitingShare => 1 | .posted => 2 | .priSent => 3 | .retrying => 4

/-- SP_STATUS.STATE (13 Table 4). -/
def SpState.code : SpState → Nat
  | .off => 0 | .powering => 1 | .training => 2 | .zeroing => 3 | .up => 4 | .recovery => 5 | .backoff => 6 | .absent => 7

/-- PLACE_STATUS.STATE (14 Table 8). -/
def PlaceState.code : PlaceState → Nat
  | .loading => 1 | .running => 2 | .held => 3 | .releasing => 4

/-- EL_STATUS.STATE (21 Table 20). -/
def ElState.code : ElState → Nat
  | .down => 0 | .training => 1 | .up => 2 | .recovery => 3 | .backoff => 4 | .absent => 5

/-- CASCADE_STATUS.STATE (16 Table 3). -/
def CascadeState.code : CascadeState → Nat
  | .alone => 0 | .seeking => 1 | .chartered => 2 | .master => 3 | .uncharted => 4 | .joining => 5

/-- CASCADE_STATUS.TIME_STATE (16 Table 6). -/
def TimeState.code : TimeState → Nat
  | .disciplined => 0 | .slewing => 1 | .resync => 2 | .free => 3

/-- STATE of a tally record (17 Table 2). -/
def TallyState.code : TallyState → Nat
  | .free => 0 | .held => 1 | .broken => 2

/-! ### The hub block (21 Tables 4–12) -/

/-- HUB_IDENT (21 Table 4). -/
def State.hubIdent (s : State) : BitVec 32 :=
  word [(0, if s.big then 1 else 2), (8, 0xB0), (16, if s.big then 0x5216 else 0x5208)]

/-- HUB_STATUS (21 Table 5). -/
def State.hubStatus (s : State) : BitVec 32 :=
  let c := s.chip
  word [(0, c.phase.code), (3, c.cfgDefaulted.toNat), (4, c.cfgSource.toNat), (6, c.cfgReason.toNat), (9, s.hearth.refLost.toNat),
    (10, c.ledgerFail.toNat), (11, c.ledgerMask.toNat), (15, c.bistFail.toNat), (16, c.bistUnit.toNat), (20, c.lastRestart.toNat),
    (24, s.hubFault.toNat), (25, s.hearthAlert.toNat)]

/-- STRAP_STATUS (21 Table 6). -/
def Straps.word (p : Straps) : BitVec 32 :=
  Machine.word [(0, p.hubId.toNat), (5, p.masterEligible.toNat), (6, p.slotForce.toNat), (8, p.testMode.toNat)]

/-- Dword `i` of IMAGE_INFO (21 Table 8). -/
def State.imageInfo (s : State) (i : Nat) : BitVec 32 :=
  let x := s.chip.image
  match i with
  | 0 => word [(0, x.slotA.code), (4, x.slotB.code), (8, x.signature.toNat), (10, s.chip.keyDigest.isSome.toNat),
      (12, s.chip.search.density), (16, x.spiWidth.toNat), (24, x.spiMhz.toNat)]
  | 1 => x.version
  | 2 => x.fwVersion
  | _ => 0

/-- FLASH_STATUS (21 Table 9). -/
def FlashIf.status (f : FlashIf) : BitVec 32 := word [(0, f.busy.toNat), (4, f.result.toNat)]

/-- STATE of PDn as PD_STATUS reads it (03 R72). -/
def State.pdCode (s : State) (n : Nat) : Nat := if s.domainPresent n then (s.domain n).state.code else 6

/-- PD_STATUS (21 Table 10). -/
def State.pdStatus (s : State) : BitVec 64 :=
  BitVec.ofNat 64 (fields ((List.range 12).map fun i => (4 * i, s.pdCode (i + 1))))

/-- PORCH_STATUS (21 Table 10). -/
def State.porchStatus (s : State) : BitVec 32 := word [(0, s.porchOccupancy), (16, s.hearth.highWater)]

/-- THERMAL_STATUS (21 Table 10). -/
def Hearth.thermalStatus (h : Hearth) : BitVec 32 := word [(0, h.tjMax.toNat), (16, h.thermalWarn.toNat), (20, h.sensor.toNat)]

/-- PORT_STATUS (21 Table 12). -/
def Port.status (p : Port) : BitVec 32 :=
  word [(0, p.link.code), (4, p.width.toNat), (8, p.speed.toNat), (11, p.flit.toNat), (12, p.cxl.toNat), (16, p.failCause.toNat),
    (24, p.trainFails.toNat)]

/-- PORT_TRAIN (21 Table 12). -/
def Port.train (p : Port) : BitVec 32 :=
  word [(0, p.consecFails), (4, p.mps.toNat), (8, p.mrrs.toNat), (16, p.tags.length)]

/-- The low dword of BENCH_CMD_STATUS (21 Table 13). -/
def Mailbox.status (m : Mailbox) : BitVec 32 := word [(0, m.busy.toNat), (8, m.result.toNat), (16, m.code.toNat)]

/-- The first dword of a BENCH_TABLE entry (21 Table 15). -/
def Bench.tableWord (x : Bench) : BitVec 32 :=
  word [(0, x.state.code), (3, x.detached.toNat), (4, x.keep.toNat), (5, x.holdCause.toNat), (8, x.sweepCause.toNat), (12, x.port),
    (16, x.fn), (24, x.classId)]

/-- INV_CTRL (21 Table 15). -/
def InvRing.ctrl (x : InvRing) : BitVec 32 := word [(0, x.enable.toNat), (16, x.log2.toNat)]

/-- INV_STATUS (21 Table 15). -/
def InvRing.status (x : InvRing) : BitVec 32 :=
  word [(0, x.code.toNat), (4, x.stopped.toNat), (5, x.tokenDone.toNat), (6, x.pinFull.toNat), (16, x.index.toNat)]

/-- PEER_CTRL (21 Table 15; 12 Table 5): CLOSED reads 1 while the window is closed and nothing is buffered. -/
def Peer.ctrl (x : Peer) : BitVec 32 := word [(0, x.enable.toNat), (1, (!x.enable && x.buffered.isEmpty).toNat)]

/-! ### Records shown through windows -/

/-- The 32 bytes of a fault record (11 Table 2). -/
def FaultRec.toBytes (f : FaultRec) : List Byte :=
  leBytes 8 f.address.toNat ++ leBytes 4 f.desc.toNat ++ leBytes 2 f.bench ++ leBytes 1 f.ring ++
  leBytes 1 (fields [(0, f.operand), (2, f.write.toNat), (3, f.modeD.toNat)]) ++ leBytes 4 f.pasid ++ leBytes 1 f.kind ++
  leBytes 1 f.state.code ++ leBytes 2 f.retries.toNat ++ leBytes 8 f.time.toNat

/-- The 32 bytes of a tally record (17 Table 2). -/
def Tally.toBytes (t : Tally) : List Byte :=
  leBytes 1 t.kind ++ leBytes 1 t.state.code ++ leBytes 2 t.owner.toNat ++ leBytes 2 t.incarn.toNat ++ leBytes 2 t.unit ++
  leBytes 8 t.resource.toNat ++ leBytes 8 t.granted.toNat ++ leBytes 8 t.expiry.toNat

/-- The 32 bytes of an error-log entry (17 Table 7). -/
def LogEntry.toBytes (e : LogEntry) : List Byte :=
  leBytes 4 e.seq.toNat ++ leBytes 1 e.cls ++ leBytes 1 e.code ++ leBytes 1 (fields [(0, e.fault.toNat), (1, e.read.toNat)]) ++ [0] ++
  leBytes 8 e.time.toNat ++ leBytes 8 e.arg0.toNat ++ leBytes 8 e.arg1.toNat

/-- Dword `i` of FAULT_READ (21 Table 16): zeros for an index in state FREE. -/
def State.faultDword (s : State) (i : Nat) : BitVec 32 :=
  match tabGet s.headstock.faults none s.headstock.faultSel.toNat with
  | some f => dwordOf f.toBytes i
  | none => 0

/-- Dword `i` of REGION_QUERY (21 Table 16): the record last loaded as it now stands. -/
def State.regionDword (s : State) (i : Nat) : BitVec 32 :=
  let h := s.headstock
  if ¬ h.queryFound then 0 else
  match tabGet (s.bench h.queryBench.toNat).regions none h.queryRegion.toNat with
  | some r => dwordOf (regionBytes h.queryRegion.toNat r) i
  | none => 0

/-- REGION_QUERY_SEL (21 Table 16). -/
def Headstock.querySel (h : Headstock) : BitVec 64 :=
  BitVec.ofNat 64 (fields [(16, h.queryRegion.toNat), (48, h.queryBench.toNat), (63, h.queryFound.toNat)])

/-- FAULT_FIND (21 Table 16). -/
def Headstock.findWord (h : Headstock) : BitVec 32 :=
  word [(0, h.findBench.toNat), (16, h.findStart.toNat), (31, h.findFound.toNat)]

/-- The tallies of the OWNER selected. -/
def Recovery.selected (r : Recovery) : List Tally := r.tallies.filter fun t => t.owner == r.tallyOwner.setWidth 16

/-- Dword `i` of TALLY_QUERY (21 Table 18): a FREE record past the last one. -/
def Recovery.tallyDword (r : Recovery) (i : Nat) : BitVec 32 :=
  match r.selected[r.tallyIndex.toNat]? with
  | some t => dwordOf t.toBytes i
  | none => 0

/-- Dword `i` of an entry of the error log or its mirror; zeros where none was written. -/
def logDword (t : Tab (Option LogEntry)) (n i : Nat) : BitVec 32 :=
  match tabGet t none n with
  | some e => dwordOf e.toBytes i
  | none => 0

/-- The low dword of MIG_STATUS (21 Table 17). -/
def Mig.status (m : Mig) : BitVec 32 := word [(0, m.busy.toNat), (4, m.result.toNat), (12, m.index)]

/-! ### Self-test, links, cascade, Burl (21 Tables 19–22) -/

/-- SELFTEST_STATUS, its first dword (21 Table 19). -/
def State.selftestWord (s : State) : BitVec 32 :=
  word (((List.range s.nLathes).map fun l => (l, (s.lathe l).fenced.toNat)) ++
    [(16, s.dense.outOfService.toNat), (17, s.lattice.outOfService.toNat), (20, s.headstock.retired.length)])

/-- Fenced whittlers. -/
def State.whittlersFenced (s : State) : Nat := ((List.range s.nWhittlers).filter fun w => (s.whittler w).fenced).length

/-- SP_STATUS, its first dword (21 Table 20); a port found unfit reads NOT_FITTED (18 R531). -/
def Spindle.status (x : Spindle) : BitVec 32 :=
  word [(0, if x.unfit then 8 else x.state.code), (4, x.cause.toNat), (8, x.half.toNat), (16, x.attempts.toNat)]

/-- EL_STATUS, its first dword (21 Table 20). -/
def Envan.status (x : Envan) : BitVec 32 :=
  word [(0, if x.unfit then 6 else x.state.code), (4, x.cause.toNat), (8, x.partner), (16, x.partnerLink), (24, x.attempts.toNat)]

/-- CASCADE_STATUS, its first dword (21 Table 21). -/
def Cascade.status (c : Cascade) : BitVec 32 :=
  word [(0, c.state.code), (4, c.reason.toNat), (8, c.timeState.code), (16, (c.charter.map Charter.master).getD 0),
    (24, (maskHubs ((c.charter.map Charter.members).getD 0)).length)]

/-- Cores placed on this hub for a guest. -/
def State.guestCores (s : State) (g : Guest) : Nat :=
  s.placements.foldl (fun n p =>
    if p.home == g.home && p.bench == g.bench then n + (p.cores.filter fun c => c.hub == s.hubId).length else n) 0

/-- Dword `i` of a GUEST_TABLE entry (21 Table 21). -/
def State.guestDword (s : State) (g i : Nat) : BitVec 32 :=
  match s.guest g with
  | none => 0
  | some x =>
    match i with
    | 0 => word [(0, 1), (8, x.home), (16, x.bench)]
    | 1 => word [(0, x.incarn.toNat), (16, s.guestCores x)]
    | 2 => lo32 (BitVec.ofNat 64 (x.grants.foldl (fun n y => n + y.length) 0))
    | 3 => hi32 (BitVec.ofNat 64 (x.grants.foldl (fun n y => n + y.length) 0))
    | _ => 0

/-- OWNER of a unit that serves nobody (21 Table 22). -/
def noOwner : Nat := 0x1FF

/-- One half of BURL_STATUS (21 Table 22): OUT_OF_SERVICE, TEST, PLACEMENT, TENANT, IDLE. -/
def State.burlWord (s : State) (lattice : Bool) : BitVec 32 :=
  let e := s.engine lattice
  let waiting := (s.jobs.filter fun j => j.spec.lattice == lattice && j.phase == .ready).length
  let (state, owner) :=
    if e.outOfService then (4, noOwner)
    else if e.testing then (3, noOwner)
    else match e.placing, s.runningJob lattice with
      | some (b, _), _ => (2, b)
      | none, some j => (1, s.jobOwner j)
      | none, none => (0, noOwner)
  word [(0, state), (8, owner), (20, waiting)]

/-! ### Debug (21 Tables 23, 24) -/

/-- DEBUG_CTRL. -/
def Debug.ctrl (d : Debug) : BitVec 32 := word [(0, d.dapWrite.toNat), (1, d.haltAllow.toNat), (2, d.honourAllow.toNat)]

/-- DEBUG_STATUS. -/
def State.debugStatus (s : State) : BitVec 32 :=
  word [(0, s.dbg.level.toNat), (4, s.dbg.attached.toNat), (5, s.honourActive.toNat), (8, s.haltedWhittlers.length)]

/-- DAP_CSR. -/
def Debug.csr (d : Debug) : BitVec 32 := word [(0, d.quiet.toNat), (1, d.write.toNat), (4, d.space.toNat)]

/-- DAP_STATUS. -/
def Debug.status (d : Debug) : BitVec 32 := word [(0, d.busy.toNat), (1, d.refused.toNat), (2, d.hole.toNat), (3, d.asleep.toNat)]

/-- WHITTLER_DBG: HONOUR and HALTED are those of the whittler it names. -/
def State.whittlerDbg (s : State) : BitVec 32 :=
  let w := s.whittler s.dbg.whittler.toNat
  word [(0, s.dbg.whittler.toNat), (11, w.honour.toNat), (12, w.halted.toNat), (16, s.dbg.reg.toNat)]

/-! ### The bench map (22 Tables 4–14) -/

/-- BENCH_STATUS (22 Table 4). -/
def State.benchStatus (s : State) (b : Nat) : BitVec 32 :=
  let x := s.bench b
  word [(0, x.state.code), (3, s.chip.cfgDefaulted.toNat), (4, x.holdCause.toNat), (8, x.sweepCause.toNat), (11, x.detached.toNat),
    (12, x.keep.toNat)]

/-- BENCH_STATUS where only STATE and CFG_DEFAULTED are shown (22 R593). -/
def State.benchStateWord (s : State) (state : BenchState) : BitVec 32 := word [(0, state.code), (3, s.chip.cfgDefaulted.toNat)]

/-- BENCH_INFO (22 Table 4). -/
def State.benchInfo (s : State) (b : Nat) : BitVec 32 :=
  let has := fun f => (s.classHas b f).toNat
  word [(0, b), (8, (s.bench b).ringCount), (16, s.qosNumber b), (20, has BenchClass.modeS), (21, has BenchClass.modeD),
    (22, has BenchClass.burlDense), (23, has BenchClass.burlLattice), (24, has BenchClass.keepAllowed), (25, has BenchClass.peerAllowed),
    (26, has BenchClass.sealAllowed)]

/-- NOTICE_CTRL (22 Table 7). -/
def NoticeQ.ctrl (q : NoticeQ) : BitVec 32 := word [(0, q.enable.toNat), (1, q.phase.toNat)]

/-- ATTACH_STATUS (22 Table 8). -/
def Attach.status (a : Attach) : BitVec 32 := word [(0, a.busy.toNat), (4, a.result.toNat)]

/-- Dword `m` of EVENT_HELD (22 Table 9). -/
def State.eventHeld (s : State) (b m : Nat) : BitVec 32 :=
  word ((List.range 32).map fun n => (n, ((s.event (32 * m + n)).holder == some b).toNat))

/-- Dword `m` of EVENT_LEVEL (22 Table 9). -/
def State.eventLevel (s : State) (b m : Nat) : BitVec 32 :=
  word ((List.range 32).map fun n => (n, ((s.event (32 * m + n)).holder == some b && (s.event (32 * m + n)).level).toNat))

/-- PACE_SLOT, its first dword (22 Table 10). -/
def PaceSlot.word (p : PaceSlot) : BitVec 32 := Machine.word [(0, p.timer.toNat), (8, p.clusterB.toNat), (12, p.claim.toNat)]

/-- Dword `i` of PLACE_STATUS (22 Table 11). -/
def State.placeDword (s : State) (b i : Nat) : BitVec 32 :=
  match s.ownPlacement b (s.bench b).placeSelect.toNat with
  | none => 0
  | some p =>
    if i = 0 then word [(0, p.state.code), (8, ((p.cores.map PlacedCore.hub).eraseDups).length), (16, p.cores.length)]
    else BitVec.ofNat 32 p.holds

/-- The stream that SEAL_SELECT names, where the bench holds it (22 R602; 19 R535): index [5:0], generation above. -/
def State.sealNamed (s : State) (b : Nat) : Option Nat :=
  let h := (s.bench b).sealSelect.toNat
  let x := s.stream (h % 64)
  if x.isOpen ∧ x.bench = b ∧ x.gen = h / 64 then some (h % 64) else none

/-- Dword `i` of SEAL_STATUS (22 Table 12). -/
def Stream.dword (x : Stream) (i : Nat) : BitVec 32 :=
  match i with
  | 0 => word [(0, x.isOpen.toNat), (1, x.hubStamp.toNat)]
  | 1 => x.expected
  | 2 => x.good
  | 3 => x.gap
  | 4 => x.broken
  | 5 => x.stale
  | 6 => x.missing
  | 7 => x.unconsumed
  | 8 => x.lastCounter
  | 9 => word [(0, x.lastOutcome.toNat), (8, x.lastDetail.toNat)]
  | _ => 0

/-- TRACE_CTRL (22 Table 13). -/
def Trace.ctrl (t : Trace) : BitVec 32 := word [(0, t.enable.toNat), (1, t.all.toNat), (8, t.mask.toNat)]

/-- RING_CTRL (22 Table 14): ENABLE reads 1 while the ring is not DISABLED. -/
def Ring.ctrl (x : Ring) : BitVec 32 :=
  word [(0, (x.state != .disabled).toNat), (1, x.pause.toNat), (4, x.knockEn.toNat), (5, x.coherent.toNat), (6, x.pasidEn.toNat)]

/-- PAUSE_PENDING (06 R181): PAUSE was set on a ring that stays PARKED. -/
def Ring.pausePending (x : Ring) : Bool := x.pause && x.state == .parked

/-- RING_STATUS (22 Table 14). -/
def Ring.status (x : Ring) : BitVec 32 :=
  word [(0, x.state.code), (4, if x.state = .parked then x.park.code else 0), (8, x.knock.code), (11, x.pausePending.toNat),
    (12, x.configError.toNat), (13, x.clusterB.toNat)]

end Sys2Proof.Machine
end

