-- ==== Sys2Proof/Machine/RegFile.lean ====
section
/-!
DEFINITION. Register accesses by shape: what each width, alignment and set of byte enables does, staging on PAIR registers, what is counted (00 R5, R12–R15; 21 R565, R568–R574; 22 R590, R592).
-/

namespace Sys2Proof.Machine

/-- What a dword of a register map is. -/
inductive RegKind where
  /-- no register: reads all ones, writes discarded, both counted (21 R565) -/
  | hole
  /-- of a unit absent on the grade: reads zero, writes discarded and not counted (00 R5) -/
  | absent
  /-- reads its value, and every write is discarded and counted (21 R581; 22 R593); `whole` for half of a 64-bit register -/
  | dead (whole : Bool)
  /-- a 32-bit register, or a dword of a group -/
  | word
  /-- a dword of a byte-writable group (00 R14, BW) -/
  | bytes
  /-- the low dword of a PAIR register -/
  | low
  /-- the high dword of a PAIR register -/
  | high
  /-- a dword of a 64-bit register that is no PAIR -/
  | wide
  deriving DecidableEq, Repr

/-- A register of this kind of which nothing may be written. -/
def RegKind.deadened : RegKind → RegKind
  | .low => .dead true
  | .high => .dead true
  | .wide => .dead true
  | .hole => .hole
  | .absent => .absent
  | _ => .dead false

/-- A register map: the hub block, a bench's map, or the DAP space. -/
structure RegMap where
  /-- what stands at a dword's offset -/
  kind : State → Nat → RegKind
  /-- the value of a dword -/
  val : State → Nat → BitVec 32
  /-- a full-width write of a 32-bit register -/
  put : State → Nat → BitVec 32 → State
  /-- a write of a whole PAIR register, at the offset of its low dword -/
  put64 : State → Nat → BitVec 64 → State
  /-- a write of some bytes of one dword of a byte-writable group -/
  putBytes : State → Nat → List (Byte × Bool) → State
  /-- the side effect of a full-width read that is not quiet -/
  effect : State → Nat → State
  /-- the current low value of a PAIR register, at its offset (21 R571) -/
  low : State → Nat → BitVec 32
  /-- one counted access -/
  count : State → State
  /-- the staged low dword and its offset -/
  staged : State → Option (Nat × BitVec 32)
  /-- the staged value set or discarded -/
  stage : State → Option (Nat × BitVec 32) → State

/-- Bytes of ones. -/
def ones (n : Nat) : List Byte := List.replicate n 0xFF

/-- A read that is counted and returns all ones. -/
def RegMap.missRead (m : RegMap) (s : State) (n : Nat) : List Byte × State := (ones n, m.count s)

/-- The value of a dword as its kind shows it. -/
def RegMap.show (m : RegMap) (s : State) (o : Nat) : List Byte :=
  if m.kind s o = .absent then List.replicate 4 0 else leBytes 4 (m.val s o).toNat

/-- A read of one aligned dword with every byte enabled (21 Table 2): the side effect occurs, but not on half of a 64-bit register that is no PAIR, and not on a quiet read. -/
def RegMap.readDword (m : RegMap) (s : State) (quiet : Bool) (o : Nat) : List Byte × State :=
  match m.kind s o with
  | .hole => m.missRead s 4
  | .word | .bytes | .low | .high => (m.show s o, if quiet then s else m.effect s o)
  | .absent | .dead _ | .wide => (m.show s o, s)

/-- No register stands at either dword of an aligned 64-bit access: it is one access to a hole, counted once (21 R569). -/
def RegMap.bothHoles (m : RegMap) (s : State) (o : Nat) : Bool := m.kind s o == .hole && m.kind s (o + 4) == .hole

/-- An aligned 64-bit read: a whole PAIR or 64-bit register, or two 32-bit registers, lower address first (21 Table 2). -/
def RegMap.readQword (m : RegMap) (s : State) (quiet : Bool) (o : Nat) : List Byte × State :=
  if m.bothHoles s o then m.missRead s 8 else
  let a := m.readDword s quiet o
  let b := m.readDword a.2 quiet (o + 4)
  (a.1 ++ b.1, b.2)

/-- A read narrower than its register, within one dword: the requested bytes, no side effect (21 Table 2). -/
def RegMap.readNarrow (m : RegMap) (s : State) (o n : Nat) : List Byte × State :=
  if m.kind s (o / 4 * 4) = .hole then m.missRead s n else (slice (m.show s (o / 4 * 4)) (o % 4) n, s)

/-- Every dword that `n` bytes at offset `o` touch is a register of an absent unit. R5 prevails over Table 2 there: an access of any shape is uncounted (R569). An access that touches other registers too keeps their outcome (DEDUCED, log entry 63). -/
def RegMap.allAbsent (m : RegMap) (s : State) (o n : Nat) : Bool :=
  (List.range ((o % 4 + n + 3) / 4)).all fun i => m.kind s (o / 4 * 4 + 4 * i) == .absent

/-- A read of a register map (21 R569 Table 2). -/
def RegMap.read (m : RegMap) (s : State) (quiet : Bool) (a : RegAccess) : List Byte × State :=
  if a.len = 0 then ([], s)
  else if m.allAbsent s a.offset a.len then (List.replicate a.len 0, s)
  else if 8 < a.len then m.missRead s a.len
  else
    let full := a.be.all id
    if full ∧ a.offset % 4 = 0 ∧ a.len = 4 then m.readDword s quiet a.offset
    else if full ∧ a.offset % 8 = 0 ∧ a.len = 8 then m.readQword s quiet a.offset
    else if a.offset % 4 + a.len ≤ 4 then m.readNarrow s a.offset a.len
    else m.missRead s a.len

/-- A full-width 32-bit write (21 Table 2, R571): the low dword of a PAIR is staged, its high dword applies both; half of a 64-bit register that is no PAIR is narrower. `st` is what was staged before this write. -/
def RegMap.writeDword (m : RegMap) (s : State) (st : Option (Nat × BitVec 32)) (o : Nat) (v : BitVec 32) : State :=
  match m.kind s o with
  | .hole | .dead _ | .wide => m.count s
  | .absent => s
  | .word => m.put s o v
  | .bytes => m.putBytes s o ((leBytes 4 v.toNat).map fun b => (b, true))
  | .low => m.stage s (some (o, v))
  | .high =>
    let low :=
      match st with
      | some (p, w) => if p + 4 = o then w else m.low s (o - 4)
      | none => m.low s (o - 4)
    m.put64 s (o - 4) (v ++ low)

/-- An aligned 64-bit write: a whole register, or two full-width writes, lower address first (21 Table 2). -/
def RegMap.writeQword (m : RegMap) (s : State) (st : Option (Nat × BitVec 32)) (o : Nat) (v : BitVec 64) : State :=
  if m.bothHoles s o then m.count s else
  match m.kind s o with
  | .low => m.put64 s o v
  | .wide => s
  | .dead true => m.count s
  | _ => m.writeDword (m.writeDword s st o (lo32 v)) none (o + 4) (hi32 v)

/-- A write narrower than its register, within one dword: BW fields take the bytes written, elsewhere it is discarded and counted (21 Table 2). -/
def RegMap.writeNarrow (m : RegMap) (s : State) (o : Nat) (data : List (Byte × Bool)) : State :=
  match m.kind s (o / 4 * 4) with
  | .bytes => m.putBytes s o data
  | .absent => s
  | _ => m.count s

/-- A write to a register map (21 R569 Table 2, R571): it discards what another write staged. -/
def RegMap.write (m : RegMap) (s : State) (a : RegAccess) : State :=
  if a.len = 0 then s else
  let st := m.staged s
  let s := if st.isSome then m.stage s none else s
  let full := a.be.all id
  if m.allAbsent s a.offset a.len then s
  else if 8 < a.len then m.count s
  else if full ∧ a.offset % 4 = 0 ∧ a.len = 4 then m.writeDword s st a.offset (dwordOf a.data 0)
  else if full ∧ a.offset % 8 = 0 ∧ a.len = 8 then m.writeQword s st a.offset (BitVec.ofNat 64 (field a.data 0 8))
  else if a.offset % 4 + a.len ≤ 4 then m.writeNarrow s a.offset (a.data.zip a.be)
  else m.count s

/-- A field of a byte-writable block with some bytes from offset `o` on written. -/
def putBytes (block : List Byte) (o : Nat) (data : List (Byte × Bool)) : List Byte :=
  block.mapIdx fun i b =>
    if o ≤ i then
      match data[i - o]? with
      | some (v, true) => v
      | _ => b
    else b

end Sys2Proof.Machine
end

