-- ==== Sys2Proof/Machine/RingCtl.lean ====
section
/-!
DEFINITION. RING_CTRL: enable, disable, pause, resume, abort of a ring (06 R180–R183; 22 R606).
-/

namespace Sys2Proof.Machine

/-- The mode bits of a RING_CTRL value applied. -/
def Ring.setMode (x : Ring) (v : BitVec 32) : Ring :=
  { x with knockEn := (ringMode v).1, coherent := (ringMode v).2.1, pasidEn := (ringMode v).2.2 }

/-- ABORT (06 R183): every descriptor that has not completed is abandoned, with the LAUNCH or job it runs; the ring is ABORTING, and a flush read follows posted writes that none has followed (07 Table 10). -/
def State.abortRing (s : State) (b r : Nat) : State :=
  let posted := ((s.ring b r).descs.filter fun d => d.hostWrites != 0).getLast?
  let s := ((s.abandonRing b r).abandonLaunch b r).abandonAnneal b r
  let s := s.modRing b r fun x => { x with state := .aborting, park := .none, disabling := false, flushing := posted.isSome }
  match posted with
  | some d => s.flushRead b (.abortFlush b r) (selOf d.bytes 1 == 1) d.flushAddr.toNat
  | none => s

/-- ENABLE = 0 accepted (06 R182): what has not completed is left, and the knock line is given up. Until it is DISABLED the ring shows the state it had, fetches nothing, takes no tail, and of its control only ABORT (DESIGN CHOICE, log entry 77: the spec says nothing of these 2 µs). -/
def State.stopEnabled (s : State) (b r : Nat) : State :=
  (s.abandonRing b r).modRing b r fun x => { x with disabling := true }

/-- RESUME as 06 R180 has it, judged by the ring before the write. -/
def State.resumeRing (s : State) (b r : Nat) (was : Ring) : State :=
  if ¬ was.mayResume then s.countBench b
  else
    let s := (s.modRing b r Ring.resumed).traceRing b r 4 0
    if (s.ring b r).state = .paused then s.giveUp b r 1 else s

/-- PAUSE as written (06 R181). -/
def State.pauseRing (s : State) (b r : Nat) (p : Bool) : State :=
  let s := s.modRing b r fun x => x.setPause p
  (if (s.ring b r).state = .paused then s.giveUp b r 1 else s).fetchPark b r

/-- A write to RING_CTRL, judged against the ring's state before it (22 R606). -/
def State.putRingCtrl (s : State) (b r : Nat) (v : BitVec 32) : State :=
  let x := s.ring b r
  let enable := v.getLsbD 0
  if x.state = .disabled then
    let s := s.modRing b r fun x => { x.setMode v with pause := v.getLsbD 1 }
    let s := if v.getLsbD 2 ∨ v.getLsbD 3 then s.countBench b else s
    if enable then s.enableRing b r else s
  else if ringMode v ≠ x.mode ∨ (x.disabling ∧ v.getLsbD 3 = false) then s.countBench b
  else if v.getLsbD 3 then (s.modRing b r fun x => { x with pause := v.getLsbD 1 }).abortRing b r
  else if ¬ enable ∧ ¬ x.mayDisable then s.countBench b
  else
    let s := s.pauseRing b r (v.getLsbD 1)
    let s := if v.getLsbD 2 then s.resumeRing b r x else s
    if enable then s else s.stopEnabled b r

/-- A write to RING_CTRL reaches its ring (22 R590, R593). -/
def State.ringCtrl (s : State) (b r : Nat) (v : BitVec 32) : State :=
  s.servedRing b r (0x1018 + 0x100 * r) v fun s => s.putRingCtrl b r v

/-- RING_ENABLE (06 R156, R159, R165; 22 R606): ENABLE = 1. -/
def execRingEnable (bench ring : Nat) (value : BitVec 32) (s : State) : Result := .next (s.ringCtrl bench ring (value ||| 1))

/-- RING_DISABLE (06 R182; 22 R606): ENABLE = 0. -/
def execRingDisable (bench ring : Nat) (value : BitVec 32) (s : State) : Result := .next (s.ringCtrl bench ring (value &&& ~~~ 1#32))

/-- RING_PAUSE (06 R181; 08 R234): PAUSE = 1. -/
def execRingPause (bench ring : Nat) (value : BitVec 32) (s : State) : Result := .next (s.ringCtrl bench ring (value ||| 2))

/-- RING_UNPAUSE (06 R181): PAUSE = 0. -/
def execRingUnpause (bench ring : Nat) (value : BitVec 32) (s : State) : Result := .next (s.ringCtrl bench ring (value &&& ~~~ 2#32))

/-- RING_RESUME (06 R180): RESUME = 1. -/
def execRingResume (bench ring : Nat) (value : BitVec 32) (s : State) : Result := .next (s.ringCtrl bench ring (value ||| 4))

/-- RING_ABORT (06 R183; 08 R234): ABORT = 1. -/
def execRingAbort (bench ring : Nat) (value : BitVec 32) (s : State) : Result := .next (s.ringCtrl bench ring (value ||| 8))

/-- RING_DISABLE_DONE (06 R182): the knock line is given up, and every issued write is acknowledged: DISABLED. -/
def execRingDisableDone (bench ring : Nat) (s : State) : Result :=
  if ¬ (s.ring bench ring).disabling ∨ s.ringWrites bench ring ≠ 0 then .next s
  else .next (s.modRing bench ring fun x => { x with state := .disabled, park := .none, disabling := false, descs := [] })

/-- ABORT_DONE (06 R183): every issued write is acknowledged: DISABLED. -/
def execAbortDone (bench ring : Nat) (s : State) : Result :=
  let x := s.ring bench ring
  if x.state ≠ .aborting ∨ s.ringWrites bench ring ≠ 0 ∨ x.flushing then .next s
  else .next (s.modRing bench ring fun x => { x with state := .disabled, descs := [] })

end Sys2Proof.Machine
end

