-- ==== Sys2Proof/Machine/BenchRegs.lean ====
section
/-!
DEFINITION. The bench map: which register lies where, what it reads and what a write does, what each bench state lets through (22; 04 R94).
-/

namespace Sys2Proof.Machine

/-! ### What lies where (22 Table 1, Tables 4–15) -/

/-- Low and high dwords of a PAIR register that lies at a multiple of 8. -/
def pairAt (o : Nat) : RegKind := if o % 8 = 0 then .low else .high

/-- The RING block of one ring (22 Table 14). -/
def ringKind (o : Nat) : RegKind :=
  if o < 0x08 then pairAt o
  else if o < 0x10 then .word
  else if o < 0x18 then pairAt o
  else if o < 0x28 then .word
  else if o < 0x30 then pairAt o
  else if o < 0x3C then .word
  else if 0x40 ≤ o ∧ o < 0x58 then pairAt o
  else .hole

/-- The blocks below the rings, by block number (22 Tables 4–13). -/
def blockKind (block o : Nat) : RegKind :=
  match block with
  | 0 => if o < 8 then .word else if o < 0x10 then pairAt o else if 0x40 ≤ o ∧ o < 0x48 then .wide
    else if 0x48 ≤ o ∧ o < 0x58 then .word else if 0x80 ≤ o ∧ o < 0xB0 then .word else .hole
  | 1 => if o < 8 then pairAt o else if o < 0x1C then .word else .hole
  | 2 => if o < 0x10 then pairAt o else if o < 0x18 then .word else .hole
  | 3 => if o < 8 ∨ o = 0x10 ∨ (0x20 ≤ o ∧ o < 0x60) then .word else .hole
  | 4 => if o < 0x80 then .word else .hole
  | 5 => if o = 0 ∨ o = 0x10 ∨ o = 0x14 ∨ o = 0x20 then .word else .hole
  | 6 => if o = 0 ∨ (0x10 ≤ o ∧ o < 0x40) then .word else .hole
  | 7 => if o < 8 then pairAt o else if o < 0x1C then .word else .hole
  | 8 => if o < 0x60 then pairAt o else .hole
  | _ => .hole

/-- What stands at a dword of a bench's map: the registers of absent rings and their doorbells are dead (22 R593). -/
def State.benchKind (s : State) (b o : Nat) : RegKind :=
  let there : Nat → Bool := fun r => decide (r < (s.bench b).ringCount)
  if o < 0x1000 then blockKind (o / 0x100) (o % 0x100)
  else if o < 0x2000 then
    let k := ringKind (o % 0x100)
    if there ((o - 0x1000) / 0x100) then k else k.deadened
  else if o < 0x2040 then (if there ((o - 0x2000) / 4) then .word else .dead false)
  else if 0x3000 ≤ o ∧ o < 0x3200 then .word
  else if 0x3800 ≤ o ∧ o < 0x3808 then .wide
  else .hole

/-! ### What it reads -/

/-- The BENCH block (22 Tables 4–6). -/
def State.benchWord (s : State) (b o : Nat) : BitVec 32 :=
  let x := s.bench b
  let c := x.counters
  match o with
  | 0x00 => s.benchStatus b
  | 0x04 => s.benchInfo b
  | 0x08 => lo32 x.bar2Base
  | 0x0C => hi32 x.bar2Base
  | 0x40 => lo32 x.limits.dieMem
  | 0x44 => hi32 x.limits.dieMem
  | 0x48 => x.limits.billet
  | 0x4C => x.limits.rateCap
  | 0x50 => word [(0, x.limits.channels.toNat), (16, x.limits.cores.toNat)]
  | 0x80 => c.badAccess
  | 0x84 => c.bar2Miss
  | 0x88 => c.holdCause
  | 0x8C => c.faultWait
  | 0x90 => c.noticeLost
  | 0x94 => c.attachFail
  | 0x98 => c.claimFail
  | 0x9C => c.peerDrop
  | 0xA0 => c.peerRid
  | 0xA4 => c.peerPoison
  | 0xA8 => c.peerErr
  | 0xAC => word [(0, c.freeTwice.toNat), (16, c.notOwner.toNat)]
  | _ => 0

/-- The NOTICE block (22 Table 7). -/
def NoticeQ.word (q : NoticeQ) (o : Nat) : BitVec 32 :=
  match o with
  | 0x00 => lo32 q.base
  | 0x04 => hi32 q.base
  | 0x08 => q.log2.setWidth 32
  | 0x0C => q.head
  | 0x10 => q.tail
  | 0x14 => q.ctrl
  | 0x18 => q.seq
  | _ => 0

/-- The EVT block (22 Table 9). -/
def State.eventWord (s : State) (b o : Nat) : BitVec 32 :=
  if o = 0 then Machine.word [(0, (s.bench b).tokenDone.toNat)]
  else if o = 4 then (s.bench b).lastToken.setWidth 32
  else if o < 0x20 then 0
  else if o < 0x40 then s.eventHeld b ((o - 0x20) / 4)
  else s.eventLevel b ((o - 0x40) / 4)

/-- The PACE block (22 Table 10). -/
def State.paceWord (s : State) (b o : Nat) : BitVec 32 :=
  let p := s.paceSlot b (o / 0x10)
  match o % 0x10 with
  | 0x0 => p.word
  | 0x4 => p.period
  | 0x8 => Machine.word [(0, p.arm.toNat)]
  | _ => 0

/-- The SEAL block (22 Table 12). -/
def State.sealWord (s : State) (b o : Nat) : BitVec 32 :=
  if o = 0 then (s.bench b).sealSelect.setWidth 32 else
  match s.sealNamed b with
  | some i => (s.stream i).dword ((o - 0x10) / 4)
  | none => 0

/-- The TRACE block (22 Table 13). -/
def Trace.word (t : Trace) (o : Nat) : BitVec 32 :=
  match o with
  | 0x00 => lo32 t.base
  | 0x04 => hi32 t.base
  | 0x08 => t.log2.setWidth 32
  | 0x0C => t.head
  | 0x10 => t.tail
  | 0x14 => t.ctrl
  | 0x18 => t.lost
  | _ => 0

/-- The registers of one ring (22 Table 14). -/
def Ring.word (x : Ring) (o : Nat) : BitVec 32 :=
  match o with
  | 0x00 => lo32 x.base
  | 0x04 => hi32 x.base
  | 0x08 => x.log2.setWidth 32
  | 0x0C => x.pasid.setWidth 32
  | 0x10 => lo32 x.knockAddr
  | 0x14 => hi32 x.knockAddr
  | 0x18 => x.ctrl
  | 0x1C => x.status
  | 0x20 => x.head
  | 0x24 => x.tail
  | 0x28 => lo32 (BitVec.ofNat 64 x.progress)
  | 0x2C => hi32 (BitVec.ofNat 64 x.progress)
  | 0x30 => x.badTail
  | 0x34 => x.ownLate
  | 0x38 => x.spurious
  | 0x40 => lo32 x.descDone
  | 0x44 => hi32 x.descDone
  | 0x48 => lo32 x.bytesRead
  | 0x4C => hi32 x.bytesRead
  | 0x50 => lo32 x.bytesWritten
  | 0x54 => hi32 x.bytesWritten
  | _ => 0

/-- One dword of an MSI-X table entry (22 Table 15). -/
def MsixEntry.word (e : MsixEntry) (dword : Nat) : BitVec 32 :=
  match dword with
  | 0 => e.addrLo
  | 1 => e.addrHi
  | 2 => e.data
  | _ => Machine.word [(0, e.mask.toNat)]

/-- The MSI-X page (22 Table 15). -/
def Msix.word (m : Msix) (o : Nat) : BitVec 32 :=
  if o < 0x200 then (tabGet m.table .reset (o / 0x10)).word (o % 0x10 / 4) else if o = 0x800 then m.pba else 0

/-- The value of a dword of a bench's map. -/
def State.benchVal (s : State) (b o : Nat) : BitVec 32 :=
  let x := s.bench b
  match o / 0x100 with
  | 0x00 => s.benchWord b o
  | 0x01 => x.notices.word (o % 0x100)
  | 0x02 => if o = 0x210 then x.attach.status else if o = 0x214 then x.epoch else 0
  | 0x03 => s.eventWord b (o % 0x100)
  | 0x04 => s.paceWord b (o % 0x100)
  | 0x05 => if o = 0x500 then x.placeSelect.setWidth 32 else if o = 0x520 then 0 else s.placeDword b ((o - 0x510) / 4)
  | 0x06 => s.sealWord b (o % 0x100)
  | 0x07 => x.trace.word (o % 0x100)
  | 0x08 => half (tabGet x.stalls 0 ((o - 0x800) / 8)) (o / 4 % 2)
  | _ =>
    if o < 0x1000 then 0
    else if o < 0x2000 then (s.ring b ((o - 0x1000) / 0x100)).word (o % 0x100)
    else if o < 0x3000 then 0 else x.msix.word (o - 0x3000)

/-! ### What a write does -/

/-- A bench counter written (22 Table 6). -/
def BenchCounters.put (c : BenchCounters) (o : Nat) (v : BitVec 32) : BenchCounters :=
  match o with
  | 0x80 => { c with badAccess := v }
  | 0x84 => { c with bar2Miss := v }
  | 0x88 => { c with holdCause := v }
  | 0x8C => { c with faultWait := v }
  | 0x90 => { c with noticeLost := v }
  | 0x94 => { c with attachFail := v }
  | 0x98 => { c with claimFail := v }
  | 0x9C => { c with peerDrop := v }
  | 0xA0 => { c with peerRid := v }
  | 0xA4 => { c with peerPoison := v }
  | 0xA8 => { c with peerErr := v }
  | 0xAC => { c with freeTwice := v.setWidth 16, notOwner := v.extractLsb' 16 16 }
  | _ => c

/-- The notice queue changed. -/
def State.modNotices (s : State) (b : Nat) (f : NoticeQ → NoticeQ) : State := s.modBench b fun x => { x with notices := f x.notices }

/-- The NOTICE block written (22 R596, R597). -/
def State.putNotice (s : State) (b o : Nat) (v : BitVec 32) : State :=
  match o with
  | 0x08 => if (s.bench b).notices.enable then s.countBench b else s.modNotices b fun q => { q with log2 := v.setWidth 4 }
  | 0x0C => s.putNoticeHead b v
  | 0x14 => s.putNoticeCtrl b (v.getLsbD 0)
  | _ => s

/-- The EVT block written (22 R599; 00 W1C). -/
def State.putEvent (s : State) (b o : Nat) (v : BitVec 32) : State :=
  match o with
  | 0x00 => if v.getLsbD 0 then s.modBench b fun x => { x with tokenDone := false } else s
  | 0x10 =>
    let n := (v.setWidth 8).toNat
    if v.getLsbD 8 then s.claimLine b n else s.releaseLine b n
  | _ => s

/-- A pace slot written (22 R600): CLAIM, PERIOD while ARM is 0, ARM. -/
def State.putPace (s : State) (b k o : Nat) (v : BitVec 32) : State :=
  match o with
  | 0x0 =>
    if v.getLsbD 12 then s.claimPace b k (v.setWidth 6).toNat (v.getLsbD 8)
    else (s.releasePace b k).modPaceSlot b k fun p => { p with timer := v.setWidth 6, clusterB := v.getLsbD 8 }
  | 0x4 => if (s.paceSlot b k).arm then s.countBench b else s.modPaceSlot b k fun p => { p with period := v }
  | 0x8 => if v.getLsbD 0 then s.armPace b k else s.disarmPace b k
  | _ => s

/-- The PLACE block written (22 R601). -/
def State.putPlace (s : State) (b o : Nat) (v : BitVec 32) : State :=
  match o with
  | 0x00 => s.modBench b fun x => { x with placeSelect := v.setWidth 8 }
  | 0x20 => s.putPlaceRelease b (v.setWidth 8).toNat
  | _ => s

/-- A counter of SEAL_STATUS written (22 Table 12). -/
def Stream.put (x : Stream) (i : Nat) (v : BitVec 32) : Stream :=
  match i with
  | 2 => { x with good := v }
  | 3 => { x with gap := v }
  | 4 => { x with broken := v }
  | 5 => { x with stale := v }
  | 6 => { x with missing := v }
  | 7 => { x with unconsumed := v }
  | _ => x

/-- The SEAL block written (22 R602): without a stream of the bench's there is nothing to write. -/
def State.putSeal (s : State) (b o : Nat) (v : BitVec 32) : State :=
  if o = 0 then s.modBench b fun x => { x with sealSelect := v.setWidth 16 } else
  match s.sealNamed b with
  | some i => s.modStream i fun x => x.put ((o - 0x10) / 4) v
  | none => s

/-- The trace ring changed. -/
def State.modTrace (s : State) (b : Nat) (f : Trace → Trace) : State := s.modBench b fun x => { x with trace := f x.trace }

/-- TRACE_CTRL written (22 R603): ALL of a bench other than bench 0 is discarded and counted; an enable with LOG2 outside 6–16 leaves ENABLE 0 and is counted; enabling starts the ring. -/
def State.putTraceCtrl (s : State) (b : Nat) (v : BitVec 32) : State :=
  let t := (s.bench b).trace
  let l := t.log2.toNat
  if v.getLsbD 1 ∧ b ≠ 0 then s.countBench b else
  let s := s.modTrace b fun t => { t with all := v.getLsbD 1, mask := v.extractLsb' 8 7 }
  if v.getLsbD 0 = false then s.modTrace b fun t => { t with enable := false }
  else if t.enable then s
  else if l < 6 ∨ 16 < l then s.countBench b
  else s.modTrace b fun t => { t with enable := true, head := 0, tail := 0, phase := true }

/-- The TRACE block written (22 R603, R596). -/
def State.putTrace (s : State) (b o : Nat) (v : BitVec 32) : State :=
  let t := (s.bench b).trace
  match o with
  | 0x08 => if t.enable then s.countBench b else s.modTrace b fun t => { t with log2 := v.setWidth 5 }
  | 0x0C => if t.enable ∧ (t.tail - v).toNat ≤ 2 ^ t.log2.toNat then s.modTrace b fun t => { t with head := v } else s.countBench b
  | 0x14 => s.putTraceCtrl b v
  | 0x18 => s.modTrace b fun t => { t with lost := v }
  | _ => s

/-- A ring set-up register written: only while the ring is DISABLED (06 R158). -/
def State.setUpRing (s : State) (b r : Nat) (f : Ring → Ring) : State :=
  if (s.ring b r).state = .disabled then s.modRing b r f else s.countBench b

/-- The RING block written (22 Table 14). -/
def State.putRing (s : State) (b r o : Nat) (v : BitVec 32) : State :=
  match o with
  | 0x08 => s.setUpRing b r fun x => { x with log2 := v.setWidth 5 }
  | 0x0C => s.setUpRing b r fun x => { x with pasid := v.setWidth 20 }
  | 0x18 => s.putRingCtrl b r v
  | 0x30 => s.modRing b r fun x => { x with badTail := v }
  | 0x34 => s.modRing b r fun x => { x with ownLate := v }
  | 0x38 => s.modRing b r fun x => { x with spurious := v }
  | _ => s

/-- A 32-bit register of a bench's map written at full width. -/
def State.putBench (s : State) (b o : Nat) (v : BitVec 32) : State :=
  match o / 0x100 with
  | 0x00 => s.modBench b fun x => { x with counters := x.counters.put o v }
  | 0x01 => s.putNotice b (o % 0x100) v
  | 0x02 => s
  | 0x03 => s.putEvent b (o % 0x100) v
  | 0x04 => s.putPace b (o % 0x100 / 0x10) (o % 0x10) v
  | 0x05 => s.putPlace b (o % 0x100) v
  | 0x06 => s.putSeal b (o % 0x100) v
  | 0x07 => s.putTrace b (o % 0x100) v
  | _ =>
    if o < 0x1000 then s
    else if o < 0x2000 then s.putRing b ((o - 0x1000) / 0x100) (o % 0x100) v
    else if o < 0x3000 then s.doorbell b ((o - 0x2000) / 4) v
    else s.putMsix b ((o - 0x3000) / 0x10) (o % 0x10 / 4) v

/-- Bits [11:0] clear. -/
def aligned12 (v : BitVec 64) : BitVec 64 := v &&& ~~~0xFFF#64

/-- A PAIR register of the RING block written. -/
def State.putRing64 (s : State) (b r o : Nat) (v : BitVec 64) : State :=
  match o with
  | 0x00 => s.setUpRing b r fun x => { x with base := aligned12 v }
  | 0x10 => s.setUpRing b r fun x => { x with knockAddr := v &&& ~~~3#64 }
  | 0x40 => s.modRing b r fun x => { x with descDone := v }
  | 0x48 => s.modRing b r fun x => { x with bytesRead := v }
  | 0x50 => s.modRing b r fun x => { x with bytesWritten := v }
  | _ => s

/-- A PAIR register of a bench's map written whole (22 R592, R598). -/
def State.putBench64 (s : State) (b o : Nat) (v : BitVec 64) : State :=
  let x := s.bench b
  match o with
  | 0x100 => if x.notices.enable then s.countBench b else s.modNotices b fun q => { q with base := aligned12 v }
  | 0x200 => s.modBench b fun x => { x with attach := { x.attach with token := v } }
  | 0x208 => s.attachCmd b (v.extractLsb' 32 4).toNat (lo32 v)
  | 0x700 => if x.trace.enable then s.countBench b else s.modTrace b fun t => { t with base := aligned12 v }
  | _ =>
    if 0x800 ≤ o ∧ o < 0x860 then s.modBench b fun x => { x with stalls := tabPut 0 ((o - 0x800) / 8) v x.stalls }
    else if 0x1000 ≤ o ∧ o < 0x2000 then s.putRing64 b ((o - 0x1000) / 0x100) (o % 0x100) v
    else s

/-- The current low value of a PAIR register of a bench's map: of a WO one, the low dword last applied (21 R571). -/
def State.benchLow (s : State) (b o : Nat) : BitVec 32 :=
  if o = 0x200 then lo32 (s.bench b).attach.token
  else if o = 0x208 then (s.bench b).attach.cmdLow
  else s.benchVal b o

/-- The map of bench `b`. Its reads have no side effects. -/
def benchMap (b : Nat) : RegMap where
  kind s o := s.benchKind b o
  val s o := s.benchVal b o
  put s o v := s.putBench b o v
  put64 s o v := s.putBench64 b o v
  putBytes s _ _ := s
  effect s _ := s
  low s o := s.benchLow b o
  count s := s.countBench b
  staged s := (s.bench b).staged
  stage s v := s.modBench b fun x => { x with staged := v }

/-! ### What each state lets through (22 R593 Table 2; 04 R94) -/

/-- What a map shows of which nothing but STATE and CFG_DEFAULTED is to be seen. -/
def State.stateOnly (s : State) (state : BenchState) (a : RegAccess) : List Byte :=
  slice (leBytes 4 (s.benchStateWord state).toNat) a.offset a.len

/-- The bench as its map shows it while FORMING: every register at its reset value (05 Table 1; 22 Tables 4, 5). -/
def Bench.formingView (x : Bench) : Bench :=
  { Bench.reset with
    state := .forming, port := x.port, fn := x.fn, classId := x.classId, ringCount := x.ringCount, limits := x.limits
    bar2Base := x.bar2Base, rings := x.rings }

/-- A read of a bench's map, through a register map of it. -/
def State.benchRead (s : State) (m : RegMap) (b : Nat) (quiet : Bool) (a : RegAccess) : List Byte × State :=
  let st := (s.bench b).state
  if st = .vacant ∨ st = .sweeping then (s.stateOnly st a, s)
  else if st = .forming then ((m.read (s.modBench b Bench.formingView) quiet a).1, (m.read s quiet a).2)
  else m.read s quiet a

/-- Registers that a detached bench can write: ATTACH_TOKEN, ATTACH_CMD, the MSI-X table. -/
def servedDetached (o : Nat) : Bool := (decide (0x200 ≤ o) && decide (o < 0x210)) || (decide (0x3000 ≤ o) && decide (o < 0x3200))

/-- A write to a bench's map. -/
def State.benchWriteAt (s : State) (b : Nat) (a : RegAccess) : State :=
  let x := s.bench b
  if a.len = 0 then s
  else if x.state = .vacant then s.countHub
  else if x.state = .forming ∨ x.state = .sweeping ∨ (x.detached ∧ ¬ servedDetached a.offset) then (s.countBench b).unstage b
  else (benchMap b).write s a

/-- The domain that holds a register of a bench's map: 0 for one that any port serves (22 R591, Table 1). -/
def State.benchDomain (s : State) (b o : Nat) : Nat :=
  let r := if o < 0x2000 then (o - 0x1000) / 0x100 else (o - 0x2000) / 4
  if 0x3000 ≤ o ∧ o < 0x4000 then 0
  else if 0x1000 ≤ o ∧ o < 0x3000 ∧ r < (s.bench b).ringCount then clusterDomain (s.ring b r).clusterB
  else 8

end Sys2Proof.Machine
end

