-- ==== Sys2Proof/Machine/Start.lean ====
section
/-!
DEFINITION. The start sequence: power, straps, flash, ledger training, start-up BIST, the end of LINKS, restarts (02, 03 R60–R61, 18 R531, 23 R618–R619).
-/

namespace Sys2Proof.Machine

/-- HEARTH_POWER_GOOD (23 R618): a cold start begins; every register is at its cold-start value. -/
def execHearthPowerGood (s : State) : Result :=
  .next (if s.chip.powered then s else { s with chip := { s.chip with powered := true, lastRestart := 0 } })

/-- HEARTH_POWER_LOSS (23 R619): the hub is cut and holds nothing but its fuses; a cold start follows. -/
def execHearthPowerLoss (s : State) : Result :=
  .next { State.reset with
    pending := s.pending, out := s.out, draws := s.draws
    chip := { Chip.reset with grade := s.chip.grade, keyDigest := s.chip.keyDigest }
    dbg := { Debug.reset with level := s.dbg.level } }

/-- Hearth time at which the 60 s image bound ends (02 R50). -/
def State.boundFrom (s : State) : BitVec 64 := s.now + 60000000

/-- STRAP_LATCH (02 R34, 03 R61, R62): straps latch, the image bound starts, hearth time counts from 0 at a cold start; without the reference the boot sequencer stays in STRAPS. -/
def execStrapLatch (hubId : BitVec 5) (masterEligible : Bool) (slotForce : BitVec 2) (testMode refPresent : Bool) (s : State) : Result :=
  if ¬ s.chip.powered ∨ s.chip.phase ≠ .straps ∨ s.chip.search.bound.isSome ∨ s.dbg.pinDriving then .next s else
  let s := { s with
    hearth := { s.hearth with counting := true }
    chip := { s.chip with straps := ⟨hubId, masterEligible, slotForce, testMode⟩, search := { SlotSearch.reset with bound := some s.boundFrom } } }
  if refPresent then
    .next ({ s with
      chip := { s.chip with phase := .flash }
      hearth := { s.hearth with refLost := false } }.modDomain 8 fun d => { d with state := .on, idleSince := s.now }).readSfdp
  else .next { s with hearth := { s.hearth with refLost := true } }

/-- A start that looks at the flash: PHASE FLASH, no configuration yet. -/
def State.undecided (s : State) : Bool := s.chip.phase == .flash && s.chip.cfg.isNone

/-- It may still select a slot: the 60 s bound has not passed (02 R50). -/
def State.searching (s : State) : Bool :=
  s.undecided && ((s.chip.search.bound.map fun b => decide (s.now.toNat < b.toNat)).getD false)

/-- SFDP_READ_DONE (02 R40, R48): density and fast-read facts are taken; an unreadable SFDP is FLASH_ABSENT for both slots, and factory defaults apply; so do they when forced. -/
def execSfdpReadDone (density : Nat) (x4 : Bool) (mhz : Nat) (s : State) : Result :=
  if ¬ s.searching then .next s else
  let s := { s with chip := { s.chip with search := { s.chip.search with density := density, sfdpX4 := x4, sfdpMhz := mhz } } }
  if density = 0 then
    let s := (s.slotResult false .flashAbsent).slotResult true .flashAbsent
    .next (s.applyDefaults (if s.chip.straps.slotForce = 3 then 1 else s.badReason))
  else if s.chip.straps.slotForce = 3 then .next (s.applyDefaults 1)
  else .next s.readHeaders

/-- SLOT_HEADERS_READ (02 R41, R42, R48, R49): checks 1 to 6 of each slot that is not forced away; the candidate is chosen. -/
def execSlotHeadersRead (slotA slotB : List Byte) (s : State) : Result :=
  if ¬ s.searching ∨ s.chip.search.density = 0 ∨ s.chip.search.reading.isSome then .next s else
  let look : Bool → List Byte → SlotResult × Option SlotHeader := fun b l =>
    if s.forcedAway b then (.notRead, none)
    else
      match checkHeader s.big s.slotSize l with
      | (.ok, h) => (SlotResult.pending, h)
      | (r, _) => (r, none)
  let (ra, ha) := look false slotA
  let (rb, hb) := look true slotB
  let s := (s.slotResult false ra).slotResult true rb
  .next (State.nextSlot { s with chip := { s.chip with search := { s.chip.search with headerA := ha, headerB := hb } } })

/-- SLOT_BODY_READ_DONE (02 R44–R48): checks 7 to 9; the slot is selected, or the other slot or factory defaults follow. -/
def execSlotBodyReadDone (slotB : Bool) (bytes : List Byte) (s : State) : Result :=
  if ¬ s.searching ∨ s.chip.search.reading ≠ some slotB then .next s else
  match (if slotB then s.chip.search.headerB else s.chip.search.headerA) with
  | none => .next s
  | some h =>
    match checkBody s.big s.chip.keyDigest h bytes with
    | .ok => .next (s.applySlot slotB h bytes)
    | r =>
      let s := s.slotResult slotB r
      let s := if r = .signature then { s with chip := { s.chip with image := { s.chip.image with signature := 2 } } } else s
      .next s.nextSlot

/-- A slot whose examination the bound cut off reads TIMED_OUT: the one whose body is read, and one whose header is read or to be read; a slot forced away is not examined (02 R49, R50 Table 14). -/
def State.timeOutSlot (s : State) (slotB : Bool) : State :=
  if s.chip.image.get slotB = .pending ∧ ¬ s.forcedAway slotB then s.slotResult slotB .timedOut else s

/-- IMAGE_BOUND_EXPIRY (02 R50): no configuration within 60 s of strap latch: the slots under examination read TIMED_OUT and factory defaults apply with TIMEOUT. -/
def execImageBoundExpiry (s : State) : Result :=
  match s.chip.search.bound with
  | none => .next s
  | some t =>
    if s.now.toNat < t.toNat ∨ ¬ s.undecided then .next s
    else .next (((s.timeOutSlot false).timeOutSlot true).applyDefaults 4)

/-- LEDGER_TRAINING_DONE (02 R37; 03 R82, R83): ledger memory is trained and zeroed, or a failing channel stops the start with LEDGER_FAIL, its mask and HUB_FAULT_N. -/
def execLedgerTrainingDone (failMask : BitVec 4) (s : State) : Result :=
  if s.chip.phase ≠ .flash ∨ s.chip.ledgerReady ∨ s.chip.ledgerFail then .next s
  else if failMask = 0 then
    .next ({ s with chip := { s.chip with ledgerReady := true }, billetMem := [] }.endFault .ledger).tryBist
  else
    .next ({ s with chip := { s.chip with ledgerFail := true, ledgerMask := failMask } }.logCause 0x3 1 .ledger (failMask.setWidth 64) 0)

/-- BIST_DONE (18 R531, R532): a failure marked stop leaves PHASE; otherwise units are fenced, retired or out of service and PHASE moves to LINKS, the instance number is drawn and the Envan links train. -/
def execBistDone (result : BistResult) (s : State) : Result :=
  if s.chip.phase ≠ .bist ∨ s.chip.bistFail then .next s else
  if result.fabric then .next (s.bistStop 1) else
  let t := s.bistApply result
  if t.clusterAFenced then .next (s.bistStop 2) else
  if result.walker ∨ 4 < result.ways.length then .next (s.bistStop 3) else
  let (i, t) := t.draw
  .next ({ t with chip := { t.chip with phase := .links, linksAt := t.now }, cascade := { t.cascade with inst := i } }.disableLinks.startEnvans)

/-- Every spindle port is UP, ABSENT or NOT_FITTED (13 R385). -/
def State.portsSettled (s : State) : Bool :=
  (List.range s.nDies).all fun d => (s.die d).unfit || (s.die d).state == .up || (s.die d).state == .absent

/-- LINKS_PHASE_END (13 R385; 02 R35; 05 R122): every spindle port is settled, or LINKS began 2 s ago: the host ports are powered, bench 0 is formed, ports with PERST_N deasserted enter Detect. -/
def execLinksPhaseEnd (s : State) : Result :=
  if s.chip.phase ≠ .links ∨ ¬ (s.portsSettled ∨ s.chip.linksAt.toNat + 2000000 ≤ s.now.toNat) then .next s else
  let s := { s with chip := { s.chip with phase := .hosts }, cascade := { s.cascade with charterHeard := some s.now } }
  let s := [1, 2, 3, 4].foldl (fun s n =>
    if s.domainPresent n then s.modDomain n fun d => { d with state := .on, idleSince := s.now } else s) s
  .next ((List.range s.nPorts).foldl State.startDetect s.formBench0)

/-- HUB_CONTROL written (02 R55; 21 R576): RESTART with the key restarts the hub; RESTART with another key is counted. -/
def State.putHubControl (s : State) (value : BitVec 32) : State :=
  if value.getLsbD 0 = false then s
  else if value.extractLsb' 16 16 = 0xA5C3#16 then s.teardown restartManagement .diePower
  else s.countHub

/-- MANAGEMENT_RESTART (02 R55; 21 R576). -/
def execManagementRestart (value : BitVec 32) (s : State) : Result := .next (s.fromMgmt fun s => s.putHubControl value)

/-- RESTART_SEQUENCE_RESUME (02 R56 step 6): die power has been deasserted for at least 100 ms, which the sender asserts while hearth time does not count yet. -/
def execRestartSequenceResume (s : State) : Result :=
  .next (if s.chip.wait = .diePower ∧ (s.chip.teardownAt.toNat + 100000 ≤ s.now.toNat ∨ ¬ s.hearth.counting) ∧ ¬ s.dbg.pinDriving then
    s.resumeStart else s)

/-- A free rate error within a bound, both in 0.01 ppm (log entry 17). -/
def State.driftWithin (s : State) (bound : Int) : Int := max (-bound) (min bound (Config.drift s.draws))

/-- HEARTH_TRIM (03 R59): the oscillator is measured against the reference, while it runs, and trimmed to within ±50 ppm of it: an error within that stands, a greater one is trimmed away to a free one within it. -/
def execHearthTrim (errorPpm : Int) (s : State) : Result :=
  if ¬ s.chip.powered ∨ s.hearth.refLost then .next s
  else if errorPpm.natAbs ≤ 50 then .next { s with hearth := { s.hearth with oscTrim := 100 * errorPpm } }
  else .next { s with hearth := { s.hearth with oscTrim := s.driftWithin 5000 }, draws := s.draws + 1 }

/-- REF_LOSS (03 R60): REF_LOST, HEARTH_ALERT_N and HUB_FAULT_N, a log entry, and the teardown of a restart. Before a cold start's strap latch nothing runs that is to be torn down: REF_LOST and HEARTH_ALERT_N only (03 R61). -/
def execRefLoss (s : State) : Result :=
  if ¬ s.chip.powered ∨ s.hearth.refLost then .next s else
  if s.chip.phase = .straps ∧ ¬ s.hearth.counting then .next { s with hearth := { s.hearth with refLost := true } } else
  let w := if s.chip.wait = .cool ∨ s.chip.wait = .testLogicReset then s.chip.wait else .reference
  let s := (s.logFault 0x1 1 0 0).teardown restartRefLoss w
  .next { s with hearth := { s.hearth with refLost := true } }

/-- REF_RETURN (03 R60, R61): the reference has run 10 ms without a gap: the start sequence runs from strap latch, or the start that waited in STRAPS goes on; a bound that passed meanwhile leads to factory defaults, with both slots NOT_READ: no slot was under examination (DESIGN CHOICE, log entry 71). -/
def execRefReturn (s : State) : Result :=
  if ¬ s.chip.powered ∨ ¬ s.hearth.refLost then .next s else
  let s := { s with hearth := { s.hearth with refLost := false } }
  if s.chip.phase = .straps ∧ s.chip.search.bound.isSome then
    let t := { s with chip := { s.chip with phase := .flash } }.modDomain 8 fun d => { d with state := .on, idleSince := s.now }
    match s.chip.search.bound with
    | some b => .next (if b.toNat ≤ s.now.toNat then t.applyDefaults 4 else t.readSfdp)
    | none => .next t
  else if s.chip.wait = .reference then .next { s with chip := { s.chip with wait := .diePower } }
  else .next s

/-- JTAG_EXTEST (20 R553). -/
def execJtagExtest (s : State) : Result := .next s.pinDrive
/-- JTAG_CLAMP (20 R553). -/
def execJtagClamp (s : State) : Result := .next s.pinDrive
/-- JTAG_HIGHZ (20 R553). -/
def execJtagHighz (s : State) : Result := .next s.pinDrive

/-- JTAG_TEST_LOGIC_RESET (20 R549, R553): the debugger detaches; after a pin-driving instruction the start sequence runs from strap latch. -/
def execJtagTestLogicReset (s : State) : Result :=
  let was := s.dbg.pinDriving
  let s := { s with dbg := { s.dbg with attached := false, pinDriving := false } }
  .next (if was then
      State.endFault (if s.chip.wait = .testLogicReset then { s with chip := { s.chip with wait := if s.hearth.refLost then .reference else .diePower } } else s) .dbg
    else s)

/-- JTAG_IDCODE (20 R549). -/
def execJtagIdcode (s : State) : Result :=
  .next (if s.chip.powered then s.emit (.tap (if s.big then 0xB52167AB else 0xB52087AB)) else s)

/-- JTAG_BYPASS (20 R549): the bypass register is selected; the hub is not disturbed. -/
def execJtagBypass (s : State) : Result := .next s

/-- JTAG_SAMPLE_PRELOAD (20 R549): the balls are sampled; the hub is not disturbed. -/
def execJtagSamplePreload (s : State) : Result := .next s

/-- JTAG_DAP_ACCESS (20 R549, R554): a debugger is attached from the first DAP_ACCESS; QUIET is 1 after attach. -/
def execJtagDapAccess (s : State) : Result :=
  .next (if s.chip.powered ∧ ¬ s.dbg.attached then { s with dbg := { s.dbg with attached := true, quiet := true } } else s)

/-- Every sample of the last 10 s read below 90 °C; before hearth time counts the sender asserts the 10 s (03 R86). -/
def Hearth.cooled (h : Hearth) : Bool :=
  (h.coolSince.map fun t => !h.counting || decide (t.toNat + 10000000 ≤ h.time.toNat)).getD false

/-- THERMAL_RECOVERY (03 R86): the hottest sensor has read below 90 °C for 10 s after a thermal cut; while the reference is lost the start goes on to wait for it (03 R60 step 5). -/
def execThermalRecovery (s : State) : Result :=
  .next (if s.chip.wait = .cool ∧ s.hearth.cooled then
    { s with chip := { s.chip with wait := if s.hearth.refLost then .reference else .diePower } } else s)

/-- The hottest of the sensor readings, signed. -/
def hottest (l : List (BitVec 16)) : Int :=
  match l with
  | [] => 0
  | x :: r => r.foldl (fun m y => max m y.toInt) x.toInt

/-- THERMAL_SAMPLE (03 R86; 18 R524): TJ_MAX is the hottest; at 100 °C WARN, HEARTH_ALERT_N and a THERMAL notice; below 95 °C the alert ends; at 115 °C the hub is cut with HUB_FAULT_N. Of sensors with the same hottest reading SENSOR and ARG0 name the lowest number (DESIGN CHOICE, log entry 72). -/
def execThermalSample (sensors : List (BitVec 16)) (s : State) : Result :=
  if ¬ s.chip.powered then .next s else
  let t := hottest sensors
  let n := sensors.findIdx fun x => x.toInt == t
  let rose := decide (1000 ≤ t) && !s.hearth.thermalAlert
  let s := { s with hearth := { s.hearth with
    sensors := sensors, tjMax := BitVec.ofInt 16 t, sensor := BitVec.ofNat 4 n
    coolSince := if 900 ≤ t then none else some (s.hearth.coolSince.getD s.now)
    thermalWarn := s.hearth.thermalWarn || decide (1000 ≤ t)
    thermalAlert := decide (1000 ≤ t) || (s.hearth.thermalAlert && decide (950 ≤ t)) } }
  let s := if rose then s.notice 0 0x0C 1 noRing (BitVec.ofNat 64 n) (BitVec.ofInt 32 t) 0 else s
  if 1150 ≤ t ∧ s.chip.wait ≠ RestartWait.cool then .next ((s.logFault 0x2 1 (BitVec.ofInt 64 t) 0).teardown restartThermal .cool)
  else .next s

end Sys2Proof.Machine
end

