-- ==== Sys2Proof/Machine/HubRegs.lean ====
section
/-!
DEFINITION. The hub block: which register lies where, what it reads, what a write does, what a read does besides (21 R565–R589).
-/

namespace Sys2Proof.Machine

/-! ### What lies where (21 Table 1, Tables 4–25) -/

/-- A register of a unit: absent where the grade has no such unit (00 R5). -/
def ofUnit (present : Bool) (k : RegKind) : RegKind := if k = .hole ∨ present then k else .absent

/-- A BENCH_TABLE entry (21 Table 15): the whole 256 bytes are one group. -/
def tableKind (o : Nat) : RegKind :=
  if o = 0x28 ∨ o = 0x2C ∨ o = 0x30 ∨ o = 0x34 then .wide
  else if o / 8 = 1 ∨ o / 8 = 2 ∨ o / 8 = 4 ∨ o / 8 = 12 ∨ o / 8 = 16 ∨ o / 8 = 19 then pairAt o
  else .word

/-- The PERF block (21 Table 25). The reserved fourth qword of a port's, die's or link's group reads zero and discards writes (00 R12), as an absent unit's register does. -/
def State.perfKind (s : State) (o : Nat) : RegKind :=
  if o < 0x100 then ofUnit (decide (o / 0x10 < s.nLathes)) (pairAt o)
  else if o < 0x3C0 ∧ 0x18 ≤ o % 0x20 ∧ ¬ (0x180 ≤ o ∧ o < 0x200) then .absent
  else if o < 0x180 then ofUnit (decide ((o - 0x100) / 0x20 < s.nPorts)) (pairAt o)
  else if o < 0x200 then .hole
  else if o < 0x300 then ofUnit (decide ((o - 0x200) / 0x20 < s.nDies)) (pairAt o)
  else if o < 0x3C0 then ofUnit (decide ((o - 0x300) / 0x20 < s.nEnvans)) (pairAt o)
  else if (0x400 ≤ o ∧ o < 0x428) ∨ (0x440 ≤ o ∧ o < 0x450) ∨ (0x480 ≤ o ∧ o < 0x4E0) then pairAt o
  else .hole

/-- The blocks of PD0 and BCMD, by block number from 0x1_0000 in units of 4 KiB. -/
def State.lowKind (s : State) (block o : Nat) : RegKind :=
  match block with
  | 0x10 => if o < 0x0C ∨ o = 0x10 ∨ o = 0x14 then .word else .hole
  | 0x11 => if o < 0x1C then .word else if 0x100 ≤ o ∧ o < 0x200 then .bytes else .hole
  | 0x12 =>
    if o < 0x08 then pairAt o
    else if o < 0x10 ∨ o = 0x18 ∨ o = 0x1C then .word
    else if o < 0x18 then pairAt o
    else if 0x40 ≤ o ∧ o < 0x70 then ofUnit (s.domainPresent ((o - 0x40) / 4 + 1)) .word
    else .hole
  | 0x13 => if o < 0x40 ∧ o % 0x10 < 8 then ofUnit (decide (o / 0x10 < s.nPorts)) .word else .hole
  | 0x14 =>
    if o = 0 ∨ o = 0x10 ∨ o = 0x14 ∨ o = 0x100 then .word
    else if o = 0x18 ∨ o = 0x1C then pairAt o
    else if 0x40 ≤ o ∧ o < 0x80 then .bytes
    else .hole
  | _ => .hole

/-- The blocks from XLT on, by block number in units of 4 KiB. -/
def State.highKind (s : State) (block o : Nat) : RegKind :=
  match block with
  | 0x40 =>
    if o = 0 ∨ (0x20 ≤ o ∧ o < 0x48) ∨ (0x90 ≤ o ∧ o < 0xA0) ∨ (0xC0 ≤ o ∧ o < 0xCC) then .word
    else if o = 0x80 ∨ o = 0x84 then pairAt o
    else .hole
  | 0x41 =>
    if o < 0x28 then .bytes
    else if o = 0x40 ∨ o = 0x44 ∨ (0x50 ≤ o ∧ o < 0x60) then .word
    else if o = 0x48 ∨ o = 0x4C then pairAt o
    else .hole
  | 0x50 =>
    if o < 8 ∨ (0x20 ≤ o ∧ o < 0x40) ∨ (0x100 ≤ o ∧ o < 0x108) ∨ (0x120 ≤ o ∧ o < 0x140) ∨ 0x800 ≤ o then .word else .hole
  | 0x51 =>
    if o < 0x10 then pairAt o
    else if o < 0x20 then .word
    else if 0x40 ≤ o ∧ o < 0xC0 then ofUnit (decide ((o - 0x40) / 0x10 < s.nDies)) (pairAt o)
    else if (0x100 ≤ o ∧ o < 0x110) ∨ (0x200 ≤ o ∧ o < 0x208) then .word
    else if o = 0x208 ∨ o = 0x20C then pairAt o
    else .hole
  | 0x60 =>
    if o < 0x100 then ofUnit (decide (o / 0x20 < s.nDies)) .word
    else if o < 0x1C0 then ofUnit (decide ((o - 0x100) / 0x20 < s.nEnvans)) .word
    else .hole
  | 0x61 => if o < 8 ∨ o = 0x20 ∨ o = 0x24 then .word else if o < 0x20 then pairAt o else .hole
  | 0x62 => if o % 0x20 = 8 ∨ o % 0x20 = 0xC then .wide else .word
  | 0x63 => if o % 0x20 = 8 ∨ o % 0x20 = 0xC then .wide else .word
  | 0x64 => .word
  | 0x70 => if o < 8 then .wide else .hole
  | 0x80 => if o < 8 then .word else .hole
  | 0x90 => s.perfKind o
  | _ => .hole

/-- What stands at a dword of the hub block. Entries of absent benches are absent, those of VACANT benches dead (21 R581). -/
def State.hubKind (s : State) (o : Nat) : RegKind :=
  if 0x20000 ≤ o ∧ o < 0x30000 then
    let b := (o - 0x20000) / 0x100
    if s.nBenches ≤ b then .absent
    else if (s.bench b).state = .vacant then (tableKind (o % 0x100)).deadened else tableKind (o % 0x100)
  else if o < 0x20000 then s.lowKind (o / 0x1000) (o % 0x1000)
  else s.highKind (o / 0x1000) (o % 0x1000)

/-! ### What it reads -/

/-- The PWR block (21 Tables 10, 11). -/
def State.powerWord (s : State) (o : Nat) : BitVec 32 :=
  match o with
  | 0x00 => lo32 s.pdStatus
  | 0x04 => hi32 s.pdStatus
  | 0x0C => s.porchStatus
  | 0x10 => lo32 s.now
  | 0x14 => hi32 s.now
  | 0x18 => BitVec.ofInt 32 s.hearth.rateAdj
  | 0x1C => s.hearth.thermalStatus
  | _ => if 0x40 ≤ o then (s.domain ((o - 0x40) / 4 + 1)).gateAborts else 0

/-- The BCMD block (21 Tables 13, 14). -/
def Mailbox.word (m : Mailbox) (o : Nat) : BitVec 32 :=
  match o with
  | 0x10 => m.status
  | 0x18 => lo32 m.token
  | 0x1C => hi32 m.token
  | 0x100 => m.viewSelect.setWidth 32
  | _ => if 0x40 ≤ o ∧ o < 0x80 then dwordOf m.arg ((o - 0x40) / 4) else 0

/-- The invalidation and peer registers of a BENCH_TABLE entry (21 Table 15). -/
def Bench.tableHigh (x : Bench) (o : Nat) : BitVec 32 :=
  match o with
  | 0x60 => lo32 x.invRing.base
  | 0x64 => hi32 x.invRing.base
  | 0x68 => x.invRing.ctrl
  | 0x70 => x.invRing.head
  | 0x78 => x.invRing.status
  | 0x80 => lo32 x.invRing.pinFullDva
  | 0x84 => hi32 x.invRing.pinFullDva
  | 0x90 => x.peer.ctrl
  | 0x98 => lo32 x.peer.base
  | 0x9C => hi32 x.peer.base
  | 0xB0 => x.regionEvict
  | 0xB4 => x.countDropped
  | 0xB8 => x.adviseDropped
  | _ => if 0xA0 ≤ o ∧ o < 0xB0 then ((x.peer.rids[(o - 0xA0) / 4]?).getD 0).setWidth 32 else 0

/-- A BENCH_TABLE entry (21 Table 15). A VACANT bench's reads its reset values. -/
def State.tableVal (s : State) (b o : Nat) : BitVec 32 :=
  let x := s.bench b
  if x.state = .vacant then Bench.reset.tableHigh o else
  match o with
  | 0x00 => x.tableWord
  | 0x04 => word [(0, x.ringCount), (16, x.incarn.toNat)]
  | 0x08 => lo32 x.token
  | 0x0C => hi32 x.token
  | 0x10 => lo32 x.deadline
  | 0x14 => hi32 x.deadline
  | 0x18 => x.epoch
  | 0x20 => lo32 x.cutTime
  | 0x24 => hi32 x.cutTime
  | 0x28 => lo32 x.limits.dieMem
  | 0x2C => hi32 x.limits.dieMem
  | 0x30 => lo32 (BitVec.ofNat 64 x.dieMemHeld)
  | 0x34 => hi32 (BitVec.ofNat 64 x.dieMemHeld)
  | 0x38 => x.limits.billet
  | 0x3C => BitVec.ofNat 32 (s.billetHeld b)
  | 0x40 => x.limits.rateCap
  | 0x44 => word [(0, x.limits.channels.toNat), (16, s.channelsHeld b)]
  | 0x48 => word [(0, x.limits.cores.toNat), (16, s.coresPlaced b)]
  | _ => x.tableHigh o

/-- The XLT block (21 Table 16). -/
def State.xltWord (s : State) (o : Nat) : BitVec 32 :=
  let h := s.headstock
  match o with
  | 0x00 => h.faultSel.setWidth 32
  | 0x40 => 0
  | 0x44 => h.findWord
  | 0x80 => lo32 h.querySel
  | 0x84 => hi32 h.querySel
  | 0xC0 => h.pinFullCount
  | 0xC4 => h.noTracker
  | 0xC8 => h.reseed
  | _ => if 0x20 ≤ o ∧ o < 0x40 then s.faultDword ((o - 0x20) / 4) else if 0x90 ≤ o ∧ o < 0xA0 then s.regionDword ((o - 0x90) / 4) else 0

/-- The MIG block (21 Table 17). -/
def Mig.word (m : Mig) (o : Nat) : BitVec 32 :=
  match o with
  | 0x40 => 0
  | 0x44 => m.status
  | 0x48 => lo32 m.qBase
  | 0x4C => hi32 m.qBase
  | 0x50 => Machine.word [(0, m.qEnable.toNat), (16, m.qLog2.toNat)]
  | 0x54 => m.qHead
  | 0x58 => m.qTail
  | 0x5C => m.qLost
  | _ => dwordOf m.arg (o / 4)

/-- The REC block and the error-log mirror (21 Table 18). -/
def State.recWord (s : State) (o : Nat) : BitVec 32 :=
  let r := s.recovery
  if 0x800 ≤ o then logDword r.mirror ((o - 0x800) / 0x20) (o % 0x20 / 4) else
  match o with
  | 0x000 => word [(0, r.tallyOwner.toNat), (12, r.tallyIndex.toNat)]
  | 0x004 => BitVec.ofNat 32 r.selected.length
  | 0x100 => word [(0, r.logIndex.toNat), (16, r.logSeq.toNat % 1024)]
  | 0x104 => BitVec.ofNat 32 s.unreadEntries
  | _ => if o < 0x40 then r.tallyDword ((o - 0x20) / 4) else logDword r.log r.logIndex.toNat ((o - 0x120) / 4)

/-- The BG block (21 Table 19). -/
def State.bgWord (s : State) (o : Nat) : BitVec 32 :=
  let g := s.bg
  match o with
  | 0x000 => lo32 g.passStart
  | 0x004 => hi32 g.passStart
  | 0x008 => lo32 g.position
  | 0x00C => hi32 g.position
  | 0x010 => word [(0, g.floor.toNat)]
  | 0x014 => g.ce
  | 0x018 => g.ue
  | 0x100 => s.selftestWord
  | 0x104 => BitVec.ofNat 32 s.whittlersFenced
  | 0x108 => g.overdue
  | 0x200 => word [(0, g.telemEnable.toNat), (16, g.telemPeriod.toNat)]
  | 0x204 => g.telemSkipped
  | 0x208 => lo32 g.telemAddr
  | 0x20C => hi32 g.telemAddr
  | _ =>
    if 0x40 ≤ o ∧ o < 0xC0 then
      let x := s.die ((o - 0x40) / 0x10)
      half (if o % 0x10 < 8 then x.scrubStart else x.scrubPos) (o / 4 % 2)
    else 0

/-- SP_STATUS (21 Table 20). -/
def Spindle.word (x : Spindle) (o : Nat) : BitVec 32 :=
  match o with
  | 0x00 => x.status
  | 0x04 => x.crc
  | 0x08 => x.recoveries
  | 0x0C => x.recalForced
  | 0x10 => x.writeErr
  | 0x14 => x.eventReject
  | _ => 0

/-- EL_STATUS (21 Table 20). -/
def Envan.word (x : Envan) (o : Nat) : BitVec 32 :=
  match o with
  | 0x00 => x.status
  | 0x04 => x.crc
  | 0x08 => x.recalForced
  | 0x0C => x.delayNs
  | _ => 0

/-- The CAS block (21 Table 21). -/
def Cascade.word (c : Cascade) (o : Nat) : BitVec 32 :=
  let epoch := (c.charter.map Charter.epoch).getD 0
  let seq := (c.charter.map Charter.rosterSeq).getD 0
  match o with
  | 0x00 => c.status
  | 0x04 => c.stale
  | 0x08 => lo32 epoch
  | 0x0C => hi32 epoch
  | 0x10 => lo32 (BitVec.ofInt 64 c.offset)
  | 0x14 => hi32 (BitVec.ofInt 64 c.offset)
  | 0x18 => lo32 seq
  | 0x1C => hi32 seq
  | 0x20 => c.windowOffset
  | 0x24 => BitVec.ofNat 32 c.snapshot.length
  | _ => 0

/-- The PERF block (21 Table 25). -/
def State.perfWord (s : State) (o : Nat) : BitVec 32 := half (tabGet s.perf 0 (o / 8)) (o / 4 % 2)

/-- The value of a dword of the hub block. -/
def State.hubVal (s : State) (o : Nat) : BitVec 32 :=
  let low := o % 0x1000
  if 0x20000 ≤ o ∧ o < 0x30000 then s.tableVal ((o - 0x20000) / 0x100) (o % 0x100) else
  match o / 0x1000 with
  | 0x10 =>
    match low with
    | 0x00 => s.hubIdent
    | 0x04 => s.hubStatus
    | 0x08 => s.chip.straps.word
    | 0x14 => s.chip.badAccess
    | _ => 0
  | 0x11 =>
    if low < 0x10 then s.imageInfo (low / 4)
    else if low = 0x10 then s.chip.flash.addr
    else if low = 0x18 then s.chip.flash.status
    else if 0x100 ≤ low then dwordOf s.chip.flash.data ((low - 0x100) / 4) else 0
  | 0x12 => s.powerWord low
  | 0x13 => if low % 0x10 = 0 then (s.port (low / 0x10)).status else (s.port (low / 0x10)).train
  | 0x14 => s.mailbox.word low
  | 0x40 => s.xltWord low
  | 0x41 => s.mig.word low
  | 0x50 => s.recWord low
  | 0x51 => s.bgWord low
  | 0x60 => if low < 0x100 then (s.die (low / 0x20)).word (low % 0x20) else (s.envan ((low - 0x100) / 0x20)).word (low % 0x20)
  | 0x61 => s.cascade.word low
  | 0x62 => s.guestDword (low / 0x20) (low % 0x20 / 4)
  | 0x63 => s.guestDword (low / 0x20 + 0x80) (low % 0x20 / 4)
  | 0x64 => BitVec.ofNat 32 (field s.cascade.snapshot (s.cascade.windowOffset.toNat + low) 4)
  | 0x70 => s.burlWord (low == 4)
  | 0x80 => if low = 0 then s.dbg.ctrl else s.debugStatus
  | 0x90 => s.perfWord low
  | _ => 0

/-! ### What a write does -/

/-- A counter of the PWR block, WARN, and the command that wakes domains (21 Tables 10, 11). -/
def State.putPower (s : State) (o : Nat) (v : BitVec 32) : State :=
  match o with
  | 0x08 => s.putPdWake v
  | 0x1C => if v.getLsbD 16 then { s with hearth := { s.hearth with thermalWarn := false } } else s
  | _ => if 0x40 ≤ o then s.modDomain ((o - 0x40) / 4 + 1) fun d => { d with gateAborts := v } else s

/-- The IMG block written (21 R573, Table 9). -/
def State.putImage (s : State) (o : Nat) (v : BitVec 32) : State :=
  match o with
  | 0x10 => if s.chip.flash.busy then s.countHub else s.modFlash fun f => { f with addr := v }
  | 0x14 => s.flashCmd (v.setWidth 4).toNat (v.getLsbD 4) (v.extractLsb' 16 9).toNat
  | _ => s

/-- BENCH_CMD written (21 Table 13; 05 Table 6): unknown codes are discarded and counted. -/
def State.benchCmd (s : State) (code : Nat) : State :=
  match code with
  | 1 => s.formCmd
  | 2 => s.setLimitsCmd
  | 3 => s.setKeepCmd
  | 4 => s.holdCmd
  | 5 => s.resumeCmd
  | 6 => s.sweepCmd
  | 7 => s.grantCmd
  | 8 => s.returnCmd
  | _ => s.countHub

/-- The BCMD block written (21 R580). -/
def State.putMailbox (s : State) (o : Nat) (v : BitVec 32) : State :=
  match o with
  | 0x000 => s.benchCmd (v.setWidth 8).toNat
  | 0x100 => { s with mailbox := { s.mailbox with viewSelect := v.setWidth 8 } }
  | _ => s

/-- PEER_RIDk and PEER_DVA_BASE are written only while ENABLE is 0 (12 R360). -/
def State.setUpPeer (s : State) (b : Nat) (f : Peer → Peer) : State :=
  if (s.bench b).peer.enable then s.countHub else s.modPeer b f

/-- A BENCH_TABLE entry written (21 R581, Table 15). -/
def State.putTable (s : State) (b o : Nat) (v : BitVec 32) : State :=
  match o with
  | 0x68 => s.putInvCtrl b v
  | 0x6C => s.putInvTail b v
  | 0x74 => if v.getLsbD 0 then s.resumeInv b else s
  | 0x78 => s.modBench b fun x => { x with invRing := { x.invRing with
      tokenDone := x.invRing.tokenDone && !v.getLsbD 5, pinFull := x.invRing.pinFull && !v.getLsbD 6 } }
  | 0x90 => s.modPeer b fun p => { p with enable := v.getLsbD 0 }
  | 0xB0 => s.modBench b fun x => { x with regionEvict := v }
  | 0xB4 => s.modBench b fun x => { x with countDropped := v }
  | 0xB8 => s.modBench b fun x => { x with adviseDropped := v }
  | _ =>
    if 0xA0 ≤ o ∧ o < 0xB0 then s.setUpPeer b fun p => { p with rids := p.rids.set ((o - 0xA0) / 4) (v.setWidth 17) } else s

/-- The XLT block written (21 Table 16). -/
def State.putXlt (s : State) (o : Nat) (v : BitVec 32) : State :=
  let set : (Headstock → Headstock) → State := fun f => { s with headstock := f s.headstock }
  match o with
  | 0x00 => set fun h => { h with faultSel := v.setWidth 12 }
  | 0x40 => s.faultCmd (v.setWidth 12).toNat (v.extractLsb' 16 2).toNat
  | 0x44 => s.findFault v
  | 0xC0 => set fun h => { h with pinFullCount := v }
  | 0xC4 => set fun h => { h with noTracker := v }
  | 0xC8 => set fun h => { h with reseed := v }
  | _ => s

/-- MIGQ_CTRL written (21 Table 17; 11 R336): LOG2 only while ENABLE is 0, else counted; enabling sets both counts to 0; an enable with LOG2 outside 6–12 leaves ENABLE 0 and is counted. -/
def State.putMigCtrl (s : State) (v : BitVec 32) : State :=
  let m := s.mig
  let l := v.extractLsb' 16 4
  if m.qEnable then
    let s := if l = m.qLog2 then s else s.countHub
    if v.getLsbD 0 then s else { s with mig := { s.mig with qEnable := false } }
  else
    let s := { s with mig := { s.mig with qLog2 := l } }
    if v.getLsbD 0 = false then s
    else if l.toNat < 6 ∨ 12 < l.toNat then s.countHub
    else { s with mig := { s.mig with qEnable := true, qHead := 0, qTail := 0, qPhase := true } }

/-- The MIG block written (21 Table 17). -/
def State.putMig (s : State) (o : Nat) (v : BitVec 32) : State :=
  match o with
  | 0x40 => if v.getLsbD 0 then s.startMig else s
  | 0x50 => s.putMigCtrl v
  | 0x54 => { s with mig := { s.mig with qHead := v } }
  | 0x5C => { s with mig := { s.mig with qLost := v } }
  | _ => s

/-- The REC block written (21 Table 18). -/
def State.putRec (s : State) (o : Nat) (v : BitVec 32) : State :=
  match o with
  | 0x000 => { s with recovery := { s.recovery with tallyOwner := v.setWidth 9, tallyIndex := v.extractLsb' 12 20 } }
  | 0x100 => { s with recovery := { s.recovery with logIndex := v.setWidth 10 } }
  | _ => s

/-- TELEM_CTRL written (21 Table 19): an enable with PERIOD_MS outside 10–10,000 is counted and leaves ENABLE 0. -/
def State.putTelemetry (s : State) (v : BitVec 32) : State :=
  let p := v.extractLsb' 16 14
  let ok := decide (10 ≤ p.toNat) && decide (p.toNat ≤ 10000)
  let t := { s with bg := { s.bg with telemPeriod := p, telemEnable := v.getLsbD 0 && ok, telemAt := if v.getLsbD 0 ∧ ok then s.bg.telemAt else none } }
  if v.getLsbD 0 && !ok then t.countHub else t

/-- The BG block written (21 Table 19). -/
def State.putBg (s : State) (o : Nat) (v : BitVec 32) : State :=
  match o with
  | 0x014 => { s with bg := { s.bg with ce := v } }
  | 0x018 => { s with bg := { s.bg with ue := v } }
  | 0x108 => { s with bg := { s.bg with overdue := v } }
  | 0x200 => s.putTelemetry v
  | 0x204 => { s with bg := { s.bg with telemSkipped := v } }
  | _ => s

/-- A counter of SP_STATUS written. -/
def Spindle.put (x : Spindle) (o : Nat) (v : BitVec 32) : Spindle :=
  match o with
  | 0x04 => { x with crc := v }
  | 0x08 => { x with recoveries := v }
  | 0x0C => { x with recalForced := v }
  | 0x10 => { x with writeErr := v }
  | 0x14 => { x with eventReject := v }
  | _ => x

/-- A counter of EL_STATUS written. -/
def Envan.put (x : Envan) (o : Nat) (v : BitVec 32) : Envan :=
  match o with
  | 0x04 => { x with crc := v }
  | 0x08 => { x with recalForced := v }
  | _ => x

/-- The CAS block written (21 Table 21, R586). -/
def State.putCascade (s : State) (o : Nat) (v : BitVec 32) : State :=
  match o with
  | 0x04 => { s with cascade := { s.cascade with stale := v } }
  | 0x20 => s.snapCharter v
  | _ => s

/-- A 32-bit register of the hub block written at full width. -/
def State.putHub (s : State) (o : Nat) (v : BitVec 32) : State :=
  let low := o % 0x1000
  if 0x20000 ≤ o ∧ o < 0x30000 then s.putTable ((o - 0x20000) / 0x100) (o % 0x100) v else
  match o / 0x1000 with
  | 0x10 =>
    match low with
    | 0x10 => s.putHubControl v
    | 0x14 => { s with chip := { s.chip with badAccess := v } }
    | _ => s
  | 0x11 => s.putImage low v
  | 0x12 => s.putPower low v
  | 0x13 => if low % 0x10 = 0 then s.modPort (low / 0x10) fun p => { p with trainFails := v.extractLsb' 24 8 } else s
  | 0x14 => s.putMailbox low v
  | 0x40 => s.putXlt low v
  | 0x41 => s.putMig low v
  | 0x50 => s.putRec low v
  | 0x51 => s.putBg low v
  | 0x60 => if low < 0x100 then s.modDie (low / 0x20) fun x => x.put (low % 0x20) v else s.modEnvan ((low - 0x100) / 0x20) fun x => x.put (low % 0x20) v
  | 0x61 => s.putCascade low v
  | 0x80 => if low = 0 then s.putDebugCtrl v else s
  | _ => s

/-- A PAIR register of the hub block written whole. -/
def State.putHub64 (s : State) (o : Nat) (v : BitVec 64) : State :=
  if 0x20000 ≤ o ∧ o < 0x30000 then
    let b := (o - 0x20000) / 0x100
    match o % 0x100 with
    | 0x60 => if (s.bench b).invRing.enable then s.countHub else s.modBench b fun x => { x with invRing := { x.invRing with base := aligned12 v } }
    | 0x98 => s.setUpPeer b fun p => { p with base := v }
    | _ => s
  else if 0x90000 ≤ o ∧ o < 0x91000 then { s with perf := tabPut 0 ((o - 0x90000) / 8) v s.perf }
  else
    match o with
    | 0x40080 => s.selectRegion v
    | 0x41048 => if s.mig.qEnable then s.countHub else { s with mig := { s.mig with qBase := v } }
    | 0x51208 => if s.bg.telemEnable then s.countHub else { s with bg := { s.bg with telemAddr := v } }
    | _ => s

/-- The bytes of MIG_ARG that hold fields: 0x02–0x07 are reserved, read zero and ignore writes (00 R12; 21 Table 17). -/
def migField (o : Nat) (data : List (Byte × Bool)) : List (Byte × Bool) :=
  data.mapIdx fun i d => (d.1, d.2 && !(decide (2 ≤ o + i) && decide (o + i < 8)))

/-- Bytes of a byte-writable block of the hub written: FLASH_DATA, BENCH_CMD_ARG, MIG_ARG, each closed while its command runs (21 R573). -/
def State.putHubBytes (s : State) (o : Nat) (data : List (Byte × Bool)) : State :=
  if o < 0x12000 then
    if s.chip.flash.busy then s.countHub else s.modFlash fun f => { f with data := putBytes f.data (o - 0x11100) data }
  else if o < 0x20000 then
    if s.mailbox.busy then s.countHub else { s with mailbox := { s.mailbox with arg := putBytes s.mailbox.arg (o - 0x14040) data } }
  else
    if s.mig.busy then s.countHub else { s with mig := { s.mig with arg := putBytes s.mig.arg (o - 0x41000) (migField (o - 0x41000) data) } }

/-! ### What a read does besides -/

/-- Side effects of full-width reads that are not quiet (21 R570, R582, R584, Table 10): HIGH_WATER starts again, query windows advance, error-log entries are marked READ. -/
def State.hubEffect (s : State) (o : Nat) : State :=
  if o = 0x1200C then { s with hearth := { s.hearth with highWater := s.porchOccupancy } }
  else if o = 0x4003C then s.nextFault
  else if o = 0x4009C then s.nextRegion
  else if o = 0x5003C then s.nextTally
  else if o = 0x5013C then s.readLog false 0
  else if 0x50800 ≤ o ∧ o < 0x51000 ∧ o % 0x20 = 0x1C then s.readLog true ((o - 0x50800) / 0x20)
  else s

/-- The hub block without the BVIEW window. -/
def hubMap : RegMap where
  kind s o := s.hubKind o
  val s o := s.hubVal o
  put s o v := s.putHub o v
  put64 s o v := s.putHub64 o v
  putBytes s o d := s.putHubBytes o d
  effect s o := s.hubEffect o
  low s o := s.hubVal o
  count s := s.countHub
  staged s := s.chip.staged
  stage s v := { s with chip := { s.chip with staged := v } }

end Sys2Proof.Machine
end

