-- ==== Sys2Proof/Machine/RegPath.lean ====
section
/-!
DEFINITION. The paths to registers: a function's BAR0, the porch and its replay when a domain wakes, the debug access port, SMBus (03 R72–R80; 04 R94, R96; 20 R550–R554; 21 R565–R575, R588; 22 R590–R593).
-/

namespace Sys2Proof.Machine

/-! ### The hub block with its BVIEW window -/

/-- The BVIEW window (21 R580). -/
def inView (o : Nat) : Bool := decide (0x30000 ≤ o) && decide (o < 0x40000)

/-- The bench that the window shows. -/
def State.viewed (s : State) : Nat := s.mailbox.viewSelect.toNat

/-- The access as the viewed bench's map has it. -/
def RegAccess.inMap (a : RegAccess) : RegAccess := { a with offset := a.offset - 0x30000 }

/-- A read of the hub block: through BVIEW it is quiet, and what is counted is the hub's (21 R574, R580); the view of a bench that the grade lacks reads zero, uncounted (00 R5). -/
def State.hubRead (s : State) (quiet : Bool) (a : RegAccess) : List Byte × State :=
  if inView a.offset ∧ s.nBenches ≤ s.viewed then (List.replicate a.len 0, s)
  else if inView a.offset then s.benchRead { benchMap s.viewed with count := State.countHub } s.viewed true (RegAccess.inMap a)
  else hubMap.read s quiet a

/-- HUB_CONTROL and BAD_ACCESS_COUNT written by one 64-bit access, in one cycle (21 R569): the count takes the written value plus the increments of that cycle (00 R16, ACC). A restart that the low half starts ends the access. -/
def State.putControlPair (s : State) (v : BitVec 64) : State :=
  let t := s.putHubControl (lo32 v)
  if t.running then { t with chip := { t.chip with badAccess := hi32 v + (t.chip.badAccess - s.chip.badAccess) } } else t

/-- A write to the hub block by the management function or as one (12 R348; 20 R551; 21 R571, R580): discarded and counted while bench 0 is detached, and in BVIEW. -/
def State.hubWrite (s : State) (a : RegAccess) : State :=
  if a.len = 0 then s
  else if inView a.offset ∧ s.nBenches ≤ s.viewed then s.unstageHub
  else if (s.bench 0).detached ∨ inView a.offset then s.unstageHub.countHub
  else if a.offset = 0x10010 ∧ a.len = 8 ∧ a.be.all id then s.unstageHub.putControlPair (BitVec.ofNat 64 (field a.data 0 8))
  else hubMap.write s a

/-- The domain that holds a register of the hub block: 0 for PD0, which wakes nothing (21 Table 1, R566). -/
def State.hubDomain (s : State) (o : Nat) : Nat :=
  if inView o then s.benchDomain s.viewed (o - 0x30000)
  else if (0x10000 ≤ o ∧ o < 0x14000) ∨ (0x50800 ≤ o ∧ o < 0x51000) ∨ (0x80000 ≤ o ∧ o < 0x81000) then 0 else 8

/-! ### A function's BAR0 (04 R94, R96; 21 R565) -/

/-- The access reaches the hub block. -/
def State.reachesHub (s : State) (a : RegAccess) : Bool := decide (0x10000 ≤ a.offset) && (a.port, a.fn) == s.mgmtFn

/-- A read served. -/
def State.barRead (s : State) (a : RegAccess) : List Byte × State :=
  if 0x10000 ≤ a.offset then (if s.reachesHub a then s.hubRead false a else (ones a.len, s)) else
  match s.benchOf a.port a.fn with
  | some b => s.benchRead (benchMap b) b false a
  | none => (s.stateOnly .vacant a, s)

/-- A write served. -/
def State.barWrite (s : State) (a : RegAccess) : State :=
  if a.len = 0 then s else
  match s.benchOf a.port a.fn with
  | some b =>
    if 0x10000 ≤ a.offset then (if s.reachesHub a then s.hubWrite a else (s.countBench b).unstage b) else s.benchWriteAt b a
  | none => s.countHub

/-- The domain that an access to BAR0 is addressed to. -/
def State.barDomain (s : State) (a : RegAccess) : Nat :=
  if 0x10000 ≤ a.offset then (if s.reachesHub a then s.hubDomain a.offset else 0) else
  match s.benchOf a.port a.fn with
  | some b => s.benchDomain b a.offset
  | none => 8

/-! ### The debug access port's register accesses (20 R551, R554; 21 R588) -/

/-- A 32-bit access of the DAP to the hub block. -/
def dapAccess (addr : Nat) (data : List Byte) : RegAccess := ⟨0, 0, addr, 4, List.replicate 4 true, data, true⟩

/-- An offset of the hub block (21 R565). -/
def inHub (o : Nat) : Bool := decide (0x10000 ≤ o) && decide (o < 0x100000)

/-- What a DAP register read gave goes to DAP_DATA. -/
def State.dapFill (s : State) (d : List Byte) : State :=
  s.modDebug fun x => { x with busy := false, data := putBytes x.data 0 (d.map fun b => (b, true)) }

/-- A DAP register read served: offsets outside the hub block read as holes. -/
def State.dapReadNow (s : State) (quiet : Bool) (a : RegAccess) : State :=
  if inHub a.offset then
    let r := s.hubRead quiet a
    r.2.dapFill r.1
  else s.countHub.dapFill (ones 4)

/-- A DAP register write served, as the management function would make it. -/
def State.dapWriteNow (s : State) (a : RegAccess) : State :=
  let s := s.modDebug fun x => { x with busy := false }
  if ¬ s.running then s else if inHub a.offset then s.hubWrite a else s.countHub

/-! ### What waits in the porch is served (03 R78, R79) -/

/-- A request is served, its domain being ON. -/
def State.serve (s : State) (r : PorchRequest) : State :=
  match r with
  | .write a => if a.dap then s.dapWriteNow a else if s.decodes a.port a.fn then s.barWrite a else s
  | .read a hid =>
    if a.dap then s.dapReadNow false a
    else if s.decodes a.port a.fn then
      let d := s.barRead a
      d.2.complete a.port a.fn hid a.offset .ok d.1
    else s
  | .bar2Read p f o n hid => if s.decodes p f then s.serveBar2Read p f o n hid else s
  | .bar2Write p f o d poisoned relaxed => if s.decodes p f then s.serveBar2Write p f o d poisoned relaxed else s
  | .bar4Write p f o q d poisoned relaxed => if s.decodes p f then s.serveBar4Write p f o q d poisoned relaxed else s
  | .snpinv b r => if (s.ring b r).knock = .held then s.knocked b r else s
  | .internal => s

/-- The domain that a request is addressed to; of an internal one, the domain named. -/
def State.requestDomain (s : State) (r : PorchRequest) (named : Nat) : Nat :=
  match r with
  | .write a => if a.dap then s.hubDomain a.offset else s.barDomain a
  | .read a _ => if a.dap then s.hubDomain a.offset else s.barDomain a
  | .bar2Read _ _ _ _ _ => 7
  | .bar2Write _ _ _ _ _ _ => 7
  | .bar4Write _ _ _ _ _ _ _ => 7
  | .snpinv b r => clusterDomain (s.ring b r).clusterB
  | .internal => named

/-- A request arrives at its domain: served where that is ON or needs no waking, else it goes through the porch. -/
def State.route (s : State) (source : PorchSource) (r : PorchRequest) (named given : Nat) : State :=
  let d := s.requestDomain r named
  if d = 0 then s.serve r
  else if ¬ s.domainPresent d then s
  else s.atDomain ⟨source, d, PorchRequest.slots r given, r⟩ fun s => s.serve r

/-- REGISTER_WRITE to BAR0 (21 R565–R574; 22 R590–R593). -/
def State.registerWrite (s : State) (a : RegAccess) : State :=
  if ¬ s.decodes a.port a.fn ∨ 0x100000 ≤ a.offset then s else (s.portIn a.port a.data.length).route (.host a.port) (.write a) 0 1

/-- REGISTER_READ of BAR0. -/
def State.registerRead (s : State) (a : RegAccess) (hid : Nat) : State :=
  if ¬ s.decodes a.port a.fn ∨ 0x100000 ≤ a.offset then s else s.route (.host a.port) (.read a hid) 0 1

/-! ### DAP commands (20 R550–R554) -/

/-- The domain is off or waking: a quiet read neither wakes it nor waits for it. -/
def State.asleep (s : State) (d : Nat) : Bool :=
  d != 0 && (!s.domainPresent d || (s.domain d).state == .off || (s.domain d).state == .waking)

/-- A DAP register read of a domain that is off and is not to wake. -/
def State.dapSleeps (s : State) : State := s.modDebug fun d => d.atSleep (putBytes d.data 0 ((ones 4).map fun b => (b, true)))

/-- A DAP register read (20 R554, Table 1). While the hub does not run no domain wakes (log entry 86). At level 2 only IDENT and HUB_STATUS are read, quietly. -/
def State.dapRegisterRead (s : State) (quiet : Bool) (addr : Nat) : State :=
  let ok := if quiet then s.dbg.observes || addr == 0x10000 || addr == 0x10004 else s.dbg.full
  s.granted ok fun s =>
    if s.dbg.busy then s else
    let s := s.modDebug fun d => { d with quiet := quiet, write := false, space := 0, addr := BitVec.ofNat 64 addr }
    let a := dapAccess addr []
    if quiet then
      if s.asleep (s.hubDomain addr) then s.dapSleeps else s.dapReadNow true a
    else if ¬ s.running ∧ s.hubDomain addr ≠ 0 then s.dapSleeps
    else (s.modDebug fun d => { d with busy := true }).route .internal (.read a 0) 0 1

/-- DAP_REGISTER_READ (20 R550, R554; 21 R588). -/
def execDapRegisterRead (quiet : Bool) (addr : Nat) (s : State) : Result := .next (s.dapRegisterRead quiet addr)

/-- A DAP register write (20 R550, R551; 21 R587): never to DEBUG_CTRL. -/
def State.dapRegisterWrite (s : State) (addr : Nat) (value : BitVec 32) : State :=
  s.granted (s.dbg.full && s.dbg.dapWrite && addr / 4 != 0x20000) fun s =>
    if s.dbg.busy then s else
    let data := leBytes 4 value.toNat
    let s := s.modDebug fun d => { d with
      busy := true, write := true, space := 0, addr := BitVec.ofNat 64 addr, data := putBytes d.data 0 (data.map fun b => (b, true)) }
    if ¬ s.running ∧ s.hubDomain addr ≠ 0 then s.modDebug fun d => { d with busy := false, asleep := true }
    else s.route .internal (.write (dapAccess addr data)) 0 1

/-- DAP_REGISTER_WRITE (20 R550, R551; 21 R587). -/
def execDapRegisterWrite (addr : Nat) (value : BitVec 32) (s : State) : Result := .next (s.dapRegisterWrite addr value)

/-! ### The DAP space (21 R588, Table 24) -/

/-- What stands at a dword of the DAP space. -/
def dapKind (o : Nat) : RegKind :=
  if o = 0x00 ∨ o = 0x10 ∨ o = 0x18 ∨ (0x40 ≤ o ∧ o < 0x80) then .word
  else if o = 0x08 ∨ o = 0x0C ∨ o = 0x20 ∨ o = 0x24 then pairAt o
  else .hole

/-- The value of a dword of the DAP space. -/
def State.dapVal (s : State) (o : Nat) : BitVec 32 :=
  let d := s.dbg
  match o with
  | 0x00 => d.csr
  | 0x08 => lo32 d.addr
  | 0x0C => hi32 d.addr
  | 0x10 => d.status
  | 0x18 => s.whittlerDbg
  | 0x20 => lo32 d.regData
  | 0x24 => hi32 d.regData
  | _ => dwordOf d.data ((o - 0x40) / 4)

/-- GO: the access that DAP_CSR and DAP_ADDR describe. -/
def State.dapGo (s : State) : State :=
  let d := s.dbg
  if d.space ≠ 0 then s.dapMemory d.space d.addr
  else if d.write then s.dapRegisterWrite d.addr.toNat (dwordOf d.data 0)
  else s.dapRegisterRead d.quiet d.addr.toNat

/-- WHITTLER_DBG written: HONOUR, HALT, STEP and RESUME each within its grant. -/
def State.putWhittlerDbg (s : State) (v : BitVec 32) : State :=
  let w := (v.setWidth 7).toNat
  let s := s.modDebug fun d => { d with whittler := v.setWidth 7, reg := v.extractLsb' 16 8 }
  let s := if v.getLsbD 11 = (s.whittler w).honour then s else s.granted s.dbg.mayHonour fun s => s.putHonour w (v.getLsbD 11)
  let s :=
    if v.getLsbD 8 then s.granted s.dbg.mayHalt fun s => s.haltFor w []
    else if v.getLsbD 10 then s.granted s.dbg.mayHalt fun s => s.letRun w
    else if v.getLsbD 9 then s.granted s.dbg.mayHalt fun s => s.stepWhittler w
    else s
  s.loadReg

/-- A 32-bit register of the DAP space written: the arguments and the command of an access only while none is in progress (21 R573). -/
def State.putDap (s : State) (o : Nat) (v : BitVec 32) : State :=
  if s.dbg.busy ∧ o ≠ 0x10 ∧ o ≠ 0x18 then s else
  match o with
  | 0x00 =>
    let s := s.modDebug fun d => { d with quiet := v.getLsbD 0, write := v.getLsbD 1, space := v.extractLsb' 4 2 }
    if v.getLsbD 8 then s.dapGo else s
  | 0x10 => s.modDebug fun d => { d with
      refused := d.refused && !v.getLsbD 1, hole := d.hole && !v.getLsbD 2, asleep := d.asleep && !v.getLsbD 3 }
  | 0x18 => s.putWhittlerDbg v
  | _ => s.modDebug fun d => { d with data := putBytes d.data (o - 0x40) ((leBytes 4 v.toNat).map fun b => (b, true)) }

/-- A PAIR register of the DAP space written whole: WHITTLER_DBG_DATA within the grant of whittler registers, and only of an unfenced whittler. -/
def State.putDap64 (s : State) (o : Nat) (v : BitVec 64) : State :=
  if o = 0x08 then (if s.dbg.busy then s else s.modDebug fun d => { d with addr := v })
  else s.granted s.mayTouch fun s => s.putReg v

/-- A read of the DAP space that is not granted: WHITTLER_DBG_DATA without the grant of whittler registers (20 R550). -/
def State.dapSeen (s : State) (o : Nat) : State := if o / 8 = 4 ∧ ¬ s.mayTouch then s.dapRefuse else s

/-- The DAP space. It counts nothing. -/
def dapMap : RegMap where
  kind _ o := dapKind o
  val s o := s.dapVal o
  put s o v := s.putDap o v
  put64 s o v := s.putDap64 o v
  putBytes s _ _ := s
  effect s o := s.dapSeen o
  low s o := s.dapVal o
  count s := s
  staged s := s.dbg.staged
  stage s v := s.modDebug fun d => { d with staged := v }

/-- A debugger is attached to a powered hub. -/
def State.dapOpen (s : State) : Bool := s.chip.powered && s.dbg.attached

/-- REGISTER_WRITE (21 R565–R574, R588; 22 R590–R593). -/
def execRegisterWrite (access : RegAccess) (s : State) : Result :=
  .next (if access.dap then (if s.dapOpen then dapMap.write s access else s) else s.registerWrite access)

/-- REGISTER_READ (21 R565–R574, R588; 22 R590–R593): the completion carries what is read. -/
def execRegisterRead (access : RegAccess) (hid : Nat) (s : State) : Result :=
  if access.dap then
    if ¬ s.dapOpen then .next s else
    let d := dapMap.read s false access
    .next (d.2.emit (.tap (dwordOf d.1 0)))
  else .next (s.registerRead access hid)

/-! ### The porch and waking (03 R72–R80) -/

/-- PORCH_ENQUEUE (03 R72, R73, R75, R78, R80): a request addressed to a closing or sleeping domain enters the porch and wakes it, or waits with credits withheld. -/
def execPorchEnqueue (source : PorchSource) (domain slots : Nat) (request : PorchRequest) (s : State) : Result :=
  .next (if s.running then s.route source request domain slots else s)

/-- Every domain that PDn depends on is ON. -/
def State.depsOn (s : State) (n : Nat) : Bool := (domainDeps n).all s.domainOn

/-- The porch entries of a domain, and the withheld requests addressed to it, are served in arrival order; withheld requests then enter as room allows (03 R79, R80). -/
def State.replay (s : State) (n : Nat) : State :=
  let mine : PorchEntry → Bool := fun e => e.domain == n
  let due := s.hearth.porch.filter mine ++ s.hearth.withheld.filter mine
  let s := s.setPorch (s.hearth.porch.filter fun e => !mine e)
  let s := { s with hearth := { s.hearth with withheld := s.hearth.withheld.filter fun e => !mine e } }
  let s : State := due.foldl (fun (s : State) e => s.serve e.request) s
  s.admitWithheld s.hearth.withheld []

/-- DOMAIN_WAKE_DONE (03 R74–R76, R79; 18 R517): a woken domain reports ON, once those it depends on are, and replays its porch entries; after PD7 the pins it held are walked again; after PD9 the engines take their jobs. -/
def execDomainWakeDone (domain : Nat) (s : State) : Result :=
  if (s.domain domain).state ≠ .waking ∨ ¬ s.depsOn domain then .next s else
  let s := s.modDomain domain fun d => { d with state := .on, idleSince := s.now }
  let s := if domain = 7 then { s with hearth := { s.hearth with refilling := !s.headstock.pins.isEmpty } } else s
  let s := if domain = 8 then s.cancelDeadline .scrubFloor else s
  let s := s.replay domain
  .next (if domain = 9 then (s.nextJob false).nextJob true else s)

/-- One entry of the pin lists walked again after a gate (03 R74): it is installed if its leaf still pins it, and leaves the list if not. -/
def State.refillPin (s : State) (p : CacheEntry) : State :=
  if s.headstock.cache.any p.same then s else
  let s := ({ s with headstock := { s.headstock with pins := s.headstock.pins.filter fun x => !x.same p } }).countPerf 130 1
  match s.walk p.bench (p.vpn * 2 ^ p.size) false with
  | .leaf e => if e.pin then s.install e false else s
  | _ => s

/-- PD7_REFILL_DONE (03 R74): the pins of the lists that the cache does not hold are walked and installed. -/
def execPd7RefillDone (s : State) : Result :=
  if ¬ s.hearth.refilling then .next s else
  let s := s.headstock.pins.foldl State.refillPin s
  .next { s with hearth := { s.hearth with refilling := false } }

/-- GATE_DRAIN_TIMEOUT (03 R73): step 2 has not finished within 2 ms: the gate is abandoned and counted, and the idle-gate timer restarts. -/
def execGateDrainTimeout (domain : Nat) (s : State) : Result :=
  let d := s.domain domain
  .next (if d.state = .draining ∧ d.stepSince.toNat + 2000 ≤ s.now.toNat then s.abortGate domain else s)

/-! ### SMBus (21 R575) -/

/-- An offset that Table 1 marks readable over SMBus. -/
def smbusReadable (o : Nat) : Bool :=
  decide (0x10000 ≤ o ∧ o < 0x11010) || decide (0x12000 ≤ o ∧ o < 0x14000) || decide (0x50800 ≤ o ∧ o < 0x51000) ||
  decide (0x80000 ≤ o ∧ o < 0x81000)

/-- The hub answers on SMBus: from its first strap latch on (02 Table 3, R36). -/
def State.smbusOpen (s : State) : Bool := s.chip.powered && s.hearth.counting

/-- SMBUS_POINTER (21 R575). -/
def execSmbusPointer (offset : BitVec 24) (pecOk : Bool) (s : State) : Result :=
  if ¬ s.smbusOpen then .next s
  else if ¬ pecOk ∨ offset.toNat % 4 ≠ 0 then .next s.countHub
  else .next { s with chip := { s.chip with smbusPtr := offset } }

/-- SMBUS_READ (21 R575): a full-width read with its side effects; elsewhere all ones, counted. -/
def execSmbusRead (pecOk : Bool) (s : State) : Result :=
  if ¬ s.smbusOpen then .next s
  else if ¬ pecOk then .next s.countHub
  else
    let o := s.chip.smbusPtr.toNat
    let d := if smbusReadable o then hubMap.read s false (dapAccess o []) else (ones 4, s.countHub)
    let s := { d.2 with chip := { d.2.chip with smbusPtr := d.2.chip.smbusPtr + 4 } }
    .next (s.emit (.smbus (dwordOf d.1 0)))

/-- SMBUS_RESTART (21 R575; 02 R55, R56): 0xA5C3 restarts the hub with source SMBUS, also while a start waits in STRAPS or a restart is under way: what that waits for is still waited for. -/
def execSmbusRestart (value : BitVec 16) (pecOk : Bool) (s : State) : Result :=
  if ¬ s.smbusOpen then .next s
  else if ¬ pecOk ∨ value ≠ 0xA5C3#16 then .next s.countHub
  else .next (s.teardown restartSmbus (if s.chip.wait = .none then .diePower else s.chip.wait))

end Sys2Proof.Machine
end

