-- ==== Sys2Proof/Machine/Seals.lean ====
section
/-!
DEFINITION. The commands of sealed streams (19 R533–R548).
-/

namespace Sys2Proof.Machine

/-- The checks of SEAL_OPEN from Table 1 on, and the opening (19 Table 2). -/
def State.checkSeal (s : State) (b r : Nat) (d : Desc) (p : List Byte) : State :=
  let peerError := fun (detail : Nat) (result : Nat) => s.endDesc b r d.count 0x23 detail 255 (BitVec.ofNat 64 result)
  let window := field p 0 8
  let span := field p 8 4 * field p 0x0C 2
  let kib := span / 1024
  match sealFailure p with
  | some k => s.endPlain b r d 0x30 (BitVec.ofNat 64 (2 ^ 63 + k))
  | none =>
    if s.sealOverlaps b window span then s.endPlain b r d 0x30 (BitVec.ofNat 64 (2 ^ 63))
    else if ¬ (s.bench b).peer.enable then peerError 1 window
    else if 2 ^ 34 < window + span then peerError 2 window
    else
      match s.unmappedPage b window span with
      | some off => peerError 3 off
      | none =>
        let short := s.billetHeld b + kib - (s.bench b).limits.billet.toNat
        if 8 ≤ (s.streams.filter fun e => e.2.isOpen && e.2.bench == b).length then s.endPlain b r d 0x32 1
        else if short ≠ 0 then s.endPlain b r d 0x32 (BitVec.ofNat 64 short)
        else if Config.stagingKib < s.stagingUsed + kib then s
        else
          match s.freeStream with
          | none => s
          | some i =>
            let s := (s.modStream i fun x => openStream x.gen b p).addTally 0x09 b 0 (stagingNumber i)
            s.endPlain b r d 0x00 (BitVec.ofNat 64 ((s.stream i).handle i))

/-- SEAL_OPEN (19 R533–R535): the outcomes of Table 2 in order; it waits while no stream or staging is free. -/
def execSealOpen (bench ring : Nat) (block : LoadResult) (s : State) : Result :=
  if s.structureHeld .billets bench then .next s else
  match s.begin bench ring 0x50 with
  | none => .next s
  | some (d, s) =>
    if ¬ (s.classHas bench BenchClass.sealAllowed ∧ s.classHas bench BenchClass.peerAllowed) then .next (s.endPlain bench ring d 0x12 0) else
    let o := operandOf d.bytes d.order 0 false
    match s.scanAll bench o 32 with
    | some (off, x) => .next (s.meetObstacle bench ring d 0 (o.base + off) x false)
    | none =>
      match s.load bench o 0 32 with
      | none => .next s
      | some t =>
        match s.loaded bench o 32 block with
        | .failed code detail address => .next ((t.logLoad code detail address).endDesc bench ring d.count code detail 0 address)
        | .ok data _ => .next (t.checkSeal bench ring d (s.allBytes bench o data 32))

/-- SEAL_CLOSE (19 R547): admission stops, partly written frames are discarded, dependent descriptors end with PERMISSION; it completes when no captured frame is left. -/
def execSealClose (bench ring : Nat) (s : State) : Result :=
  match s.begin bench ring 0x51 with
  | none => .next s
  | some (d, s) =>
    let h := field d.bytes 0x0C 2
    let i := h % 64
    if (s.stream i).closing = some ring ∧ s.holdsSource bench (.stream h) then .next (s.settleClose i)
    else if ¬ s.holdsSource bench (.stream h) ∨ (s.stream i).closing.isSome then .next (s.endPlain bench ring d 0x12 0)
    else
      let s := (s.modStream i fun x => { x with closing := some ring, staging := [] }).endDependents bench (.stream h)
      .next (s.settleClose i)

/-- SEAL_CHECK_DONE (19 R538–R542): the oldest captured frame is judged: forwarded, its payload first; or discarded, which is its frame event. -/
def execSealCheckDone (stream : Nat) (s : State) : Result :=
  let x := s.stream stream
  match x.captured with
  | [] => .next s
  | f :: _ =>
    if ¬ x.isOpen ∨ f.outcome.isSome then .next s else
    let o := x.judge f
    if ¬ o.forwarded then .next ((s.frameDone stream f o).settleClose stream) else
    let off := x.window + f.slot * x.slotSize
    match s.forwardPages x.bench off (x.slotSize / 4096) with
    | .inr (cause, off) => .next (((s.peerDrop x.bench cause off x.slotSize).frameDone stream f (.broken 6)).settleClose stream)
    | .inl pages => .next (s.forwardFrame stream f o pages)

/-- FRAME_EVENT (19 R541–R545): the die has acknowledged the trailer of the frame being forwarded. -/
def execFrameEvent (stream : Nat) (s : State) : Result :=
  match (s.stream stream).captured with
  | [] => .next s
  | f :: _ =>
    match f.outcome, f.trailer with
    | some o, some id =>
      .next (if s.unsent (.put id) then s else ((s.portDone (.put id)).frameDone stream f o).settleClose stream)
    | _, _ => .next s

end Sys2Proof.Machine
end

