-- ==== Sys2Proof/Machine/Spindles.lean ====
section
/-!
DEFINITION. The commands of the spindle ports: the Bridgekeeper's attempts, retraining in place, die loss, core requests and notices (13).
-/

namespace Sys2Proof.Machine

/-! ### Attempts (13 R383, R384, R389) -/

/-- SP_ATTEMPT_START (13 R382, R383, R389): from OFF, in its turn, or after the 100 ms of a loss. -/
def execSpAttemptStart (die : Nat) (s : State) : Result :=
  let x := s.die die
  if ¬ s.portFitted die ∨ ¬ s.mayPower ∨ ¬ s.domainOn (dieDomain die) then .next s
  else if x.state = .off ∧ s.dieTurn die ∨ (x.state = .backoff ∧ x.lost ∧ x.offSince.toNat + 100000 ≤ s.now.toNat) then
    .next (s.modDie die (Spindle.attempt s.now))
  else .next s

/-- DIE_PWRGOOD_RISE (13 R383 steps 1, 2, R390): ignored where the port is absent. -/
def execDiePwrgoodRise (die : Nat) (s : State) : Result :=
  if s.nDies ≤ die then .next s else
  .next (s.modDie die fun x =>
    let x := { x with pwrGood := true }
    if x.pwrEn ∧ x.step = .power then { x.toStep s.now .lanes with state := .training } else x)

/-- DIE_PWRGOOD_FALL (13 R383, R388): a die in service is lost with NO_POWER; an attempt past its first step fails with it. -/
def execDiePwrgoodFall (die : Nat) (s : State) : Result :=
  if s.nDies ≤ die then .next s else
  let s := s.modDie die fun x => { x with pwrGood := false }
  .next (if (s.die die).inService ∨ (s.die die).pastPower then s.dieCause die 1 else s)

/-- DIE_FATAL (13 R388, Table 5). -/
def execDieFatal (die : Nat) (s : State) : Result :=
  .next (if s.nDies ≤ die then s else if (s.die die).inService ∨ (s.die die).pastPower then s.dieCause die 8 else s)

/-- Half width is permitted on a spindle port (13 R368). -/
def State.halfPermitted (s : State) (d : Nat) : Bool := s.linksSay (fun l => Config.linksDegraded l d) Config.romDegraded

/-- SP_LANES_ALIGNED (13 R368, R383 step 2): at full width, or at half width where that is permitted; else the attempt fails with LANES. -/
def execSpLanesAligned (die : Nat) (half : Bool) (s : State) : Result :=
  .next (s.modDie die fun x =>
    if x.step ≠ .lanes then x
    else if half ∧ ¬ s.halfPermitted die then x.fail s.now 3 else { x.toStep s.now .parameters with half := half })

/-- SP_PARAMETERS_EXCHANGED (13 R383 step 3, Table 5): not a WT256 of an accepted stepping, or less than 48 GiB, fails with PARAMETERS; the defect map is kept. -/
def execSpParametersExchanged (die : Nat) (accepted : Bool) (memGiB : Nat) (defects : List Nat) (s : State) : Result :=
  .next (s.modDie die fun x =>
    if x.step ≠ .parameters then x
    else if ¬ accepted ∨ memGiB < 48 then x.fail s.now 4
    else { x.toStep s.now .credits with defects := defects })

/-- SP_CREDITS_EXCHANGED (13 R383 steps 4, 5): the zero fill of the whole die begins. -/
def execSpCreditsExchanged (die : Nat) (s : State) : Result :=
  if (s.die die).step ≠ .credits then .next s else
  .next ((s.modDie die fun x => { x.toStep s.now .zero with state := .zeroing }).sendDie die (.zeroFill 0 dieBytes))

/-- SP_ZERO_FILL_DONE (13 R383 step 6; 02 R37; 03 R74): the die enters the placement map, which waits for a pin refill to end: UP. -/
def execSpZeroFillDone (die : Nat) (s : State) : Result :=
  if (s.die die).step ≠ .zero ∨ s.hearth.refilling then .next s else
  .next ((s.modDie die fun x => { x with
    step := .none, state := .up, cause := 0, attempts := 0, fails := 0, crcRun := 0, failedRecovery := none, scrubPos := 0 }).cancelDeadline (.spindleRetry die))

/-- CAUSE of the step in progress (13 Table 5). -/
def Spindle.stepCause (x : Spindle) (found : LaneFault) : BitVec 4 :=
  match x.step with
  | .lanes => if found = .noDie then 2 else 3
  | .parameters => 4
  | .credits => 5
  | _ => 1

/-- SP_STEP_TIMEOUT (13 R383, Table 5): the step in progress has lasted its bound and fails with its cause. -/
def execSpStepTimeout (die : Nat) (found : LaneFault) (s : State) : Result :=
  .next (s.modDie die fun x =>
    match x.step.bound with
    | some n => if x.stepAt.toNat + n ≤ s.now.toNat then x.fail s.now (x.stepCause found) else x
    | none => x)

/-- SP_BACKOFF_EXPIRY (13 R384): after the eighth failure the port is ABSENT, else the next attempt starts. -/
def execSpBackoffExpiry (die : Nat) (s : State) : Result :=
  let x := s.die die
  if x.state ≠ .backoff ∨ x.lost ∨ ¬ s.mayPower ∨ s.now.toNat < x.offSince.toNat + backoffMs x.fails * 1000 then .next s else
  .next (s.ownedBy (dieDomain die) fun s =>
    if 8 ≤ x.fails then (s.modDie die fun x => { x with state := .absent }).addDeadline (.spindleRetry die) s.in10s
    else s.modDie die (Spindle.attempt s.now))

/-- SP_ABSENT_RETRY (13 R384): every 10 s one further attempt. -/
def execSpAbsentRetry (die : Nat) (s : State) : Result :=
  if (s.die die).state ≠ .absent ∨ ¬ s.mayPower ∨
     s.hearth.deadlines.any (fun e => e.kind == .spindleRetry die && decide (s.now.toNat < e.time.toNat)) then .next s
  else .next (s.ownedBy (dieDomain die) fun s =>
    ((s.cancelDeadline (.spindleRetry die)).addDeadline (.spindleRetry die) s.in10s).modDie die (Spindle.attempt s.now))

/-! ### Link errors and retraining in place (13 R379, R386, R388; 16 R455) -/

/-- FLIT_CRC_ERROR (13 R379; 16 R455): one replay counted; the sixteenth failure of one flit in succession starts retraining in place. -/
def execFlitCrcError (link : LinkName) (same : Bool) (s : State) : Result :=
  match link with
  | .spindle d => .next (s.modDie d fun x =>
      let run := if same then x.crcRun + 1 else 1
      let x := { x with crc := x.crc + 1, crcRun := run }
      if 16 ≤ run then x.retrain else x)
  | .envan l => .next (s.modEnvan l fun x =>
      let run := if same then x.crcRun + 1 else 1
      let x := { x with crc := x.crc + 1, crcRun := run }
      if 16 ≤ run then x.retrain else x)
  | .hostPort p e => .next (if s.running ∧ p < s.nPorts ∧ (s.port p).link ≠ .down then s.aer p 0 e else s)

/-- FLIT_ACK_TIMEOUT (13 R379). -/
def execFlitAckTimeout (die : Nat) (s : State) : Result :=
  .next (s.modDie die Spindle.retrain)

/-- SP_RECOVERY_DONE (13 R386, R388): UP again, with HOLD-class messages that waited sent; a second failure within 1 s loses the die. -/
def execSpRecoveryDone (die : Nat) (ok : Bool) (s : State) : Result :=
  let x := s.die die
  if x.state ≠ .recovery then .next s
  else if ok then
    .next (s.portResumes die)
  else
    match x.failedRecovery with
    | some t => .next (if s.now.toNat ≤ t.toNat + 1000000 then s.dieLost die 6 else s.modDie die fun x => { x with failedRecovery := some s.now })
    | none => .next (s.modDie die fun x => { x with failedRecovery := some s.now })

/-- SP_REQUEST_TIMEOUT (13 R388): a request outstanding for 2 ms loses the die. -/
def execSpRequestTimeout (die : Nat) (s : State) : Result :=
  .next (if (s.die die).inService ∧ s.dieOverdue die then s.dieLost die 7 else s)

/-! ### What dies send (13 R370, R371, R380, R381) -/

/-- XLT_REQUEST (13 R370, R377, R378; 10 R300): a core's request is forwarded to the die that holds its target, or refused as a pin violation. -/
def execXltRequest (die core id bench : Nat) (target : XltTarget) (write : Bool) (length : Nat) (data : List (Byte × Bool)) (s : State) : Result :=
  if ¬ s.dieMapped die ∨ (s.die die).xlt.any (fun q => q.id == id) then .next s else
  let s := s.countPerf (65 + 4 * die) data.length
  match s.placementOf die core with
  | none => .next ((s.refuseCore die id).logError 4 3 (BitVec.ofNat 64 (die * 256 + core)) 0)
  | some p =>
    let o := s.ownerOf p.home p.bench
    if o < 256 ∧ (s.bench o).state = .sweeping then .next (s.refuseCore die id) else
    let blocks := if write then 1 else 0
    let used := (s.die die).xltUsed o
    let all := (s.die die).xltTotal
    if 64 ≤ used.1 ∨ 128 < used.2 + blocks ∨ 256 ≤ all.1 ∨ 512 < all.2 + blocks then .next s
    else if bench ≠ o then .next (s.pinViolation o die core id (match target with | .dva a => a | .coord _ _ _ _ => 0))
    else
      let take := fun (t : Nat) => s.modDie die fun x => { x with xlt := x.xlt ++ [⟨die, id, o, blocks, write, t, false⟩] }
      let dest := s.coreTo o p target write length
      let s := match target with
        | .dva va => s.useEntry o true 0 va
        | .coord _ _ _ _ => s
      match dest with
      | .wait => .next s
      | .violation a => .next (s.pinViolation o die core id a)
      | .die d off => .next ((take d).askDie d (some o) true (.xltForward (xltKey die id) off length write data))
      | .hub h d off => .next ((take (8 + h)).sendHub h (.xltForward (xltKey die id) p.home p.bench (s.placeIncarn p.home p.bench) d off length write data))

/-- DIE_READ_RESPONSE (13 R370, R380 Table 3, R381; 04 R98): a BAR2 read completes, a core gets its answer, or another sled its own. WRITE_REFUSED of a posted write, which no request here awaits, is counted. -/
def execDieReadResponse (die id : Nat) (status : MemStatus) (data : List Byte) (s : State) : Result :=
  if s.unsent (.hub id) then .next s else
  let s := s.portDone (.hub id)
  if id % 3 = 1 then
    match (s.die ((id - 1) / 3 % 8)).xlt.find? fun q => q.id == (id - 1) / 24 with
    | none => .next s
    | some q =>
      if q.target ≠ die then .next s else
      .next ((if die < 8 then s.countPerf (65 + 4 * die) data.length else s).answerCore q status data)
  else if 8 ≤ die then .next s
  else
    let s := s.countPerf (65 + 4 * die) data.length
    match s.bar2Reads.find? (fun q => q.id == id && q.die == die), s.remotes.find? (fun q => q.key == id && q.die == die) with
    | some q, _ => .next (s.answerBar2 q status data)
    | none, some q => .next (({ s with remotes := s.remotes.filter fun r => r.key != id }).sendHub q.sender (.dataAnswer q.id status data))
    | none, none => .next (if status = .writeRefused then s.modDie die fun x => { x with writeErr := x.writeErr + 1 } else s)

/-- CORE_EVENT_WRITE (13 R371): applied to a line that the core's bench holds, else discarded and counted. -/
def execCoreEventWrite (die core line op : Nat) (s : State) : Result :=
  if ¬ s.dieMapped die then .next s else
  match s.placementOf die core with
  | none => .next (s.logError 4 3 (BitVec.ofNat 64 (die * 256 + core)) 0)
  | some p =>
    let o := s.ownerOf p.home p.bench
    if line < 256 ∧ 1 ≤ op ∧ op ≤ 3 ∧ (s.event line).holder = some o then .next (s.lineOp line op)
    else .next (s.modDie die fun x => { x with eventReject := x.eventReject + 1 })

/-- CORE_FATAL_ERROR (13 R371; 05 R126): cause CORE_FAULT for the core's bench; a core in no placement is logged. -/
def execCoreFatalError (die core : Nat) (address : BitVec 64) (s : State) : Result :=
  if ¬ s.dieMapped die then .next s else
  match s.placementOf die core with
  | none => .next (s.logError 4 3 (BitVec.ofNat 64 (die * 256 + core)) 0)
  | some p =>
    let o := s.ownerOf p.home p.bench
    .next (s.coreCause o 2 address (BitVec.ofNat 32 (die * 256 + core)))

/-- DIE_UE_REPORT (13 R381): logged as DIE_UE, and bench 0 is told. -/
def execDieUeReport (die : Nat) (spa : BitVec 64) (s : State) : Result :=
  .next (if s.dieMapped die then s.logError 4 2 spa 0 else s)

end Sys2Proof.Machine
end

