-- ==== Sys2Proof/Machine/Dispatch.lean ====
section
/-!
DEFINITION. One arm per command of the table, each one direct call of its meaning.
-/

namespace Sys2Proof.Machine

def exec (i : Instr) (s : State) : Host.Outcome State Fault Refusal :=
  match i with
  | .hearthPowerGood => Sys2Proof.Machine.execHearthPowerGood s
  | .hearthPowerLoss => Sys2Proof.Machine.execHearthPowerLoss s
  | .strapLatch hubId masterEligible slotForce testMode refPresent => Sys2Proof.Machine.execStrapLatch hubId masterEligible slotForce testMode refPresent s
  | .sfdpReadDone density x4 mhz => Sys2Proof.Machine.execSfdpReadDone density x4 mhz s
  | .slotHeadersRead slotA slotB => Sys2Proof.Machine.execSlotHeadersRead slotA slotB s
  | .slotBodyReadDone slotB bytes => Sys2Proof.Machine.execSlotBodyReadDone slotB bytes s
  | .imageBoundExpiry => Sys2Proof.Machine.execImageBoundExpiry s
  | .ledgerTrainingDone failMask => Sys2Proof.Machine.execLedgerTrainingDone failMask s
  | .bistDone result => Sys2Proof.Machine.execBistDone result s
  | .linksPhaseEnd => Sys2Proof.Machine.execLinksPhaseEnd s
  | .managementRestart value => Sys2Proof.Machine.execManagementRestart value s
  | .restartSequenceResume => Sys2Proof.Machine.execRestartSequenceResume s
  | .hearthTrim errorPpm => Sys2Proof.Machine.execHearthTrim errorPpm s
  | .refLoss => Sys2Proof.Machine.execRefLoss s
  | .refReturn => Sys2Proof.Machine.execRefReturn s
  | .hearthDeadline index => Sys2Proof.Machine.execHearthDeadline index s
  | .idleGateExpiry domain => Sys2Proof.Machine.execIdleGateExpiry domain s
  | .gateDrainDone domain => Sys2Proof.Machine.execGateDrainDone domain s
  | .gateDrainTimeout domain => Sys2Proof.Machine.execGateDrainTimeout domain s
  | .gateSaveDone domain => Sys2Proof.Machine.execGateSaveDone domain s
  | .porchEnqueue source domain slots request => Sys2Proof.Machine.execPorchEnqueue source domain slots request s
  | .domainWakeDone domain => Sys2Proof.Machine.execDomainWakeDone domain s
  | .pd7RefillDone => Sys2Proof.Machine.execPd7RefillDone s
  | .pdWake value => Sys2Proof.Machine.execPdWake value s
  | .thermalSample sensors => Sys2Proof.Machine.execThermalSample sensors s
  | .thermalRecovery => Sys2Proof.Machine.execThermalRecovery s
  | .perstAssert port => Sys2Proof.Machine.execPerstAssert port s
  | .perstDeassert port => Sys2Proof.Machine.execPerstDeassert port s
  | .linkTrainingDone port result => Sys2Proof.Machine.execLinkTrainingDone port result s
  | .detectTimeout port => Sys2Proof.Machine.execDetectTimeout port s
  | .detectRetry port => Sys2Proof.Machine.execDetectRetry port s
  | .linkDown port error => Sys2Proof.Machine.execLinkDown port error s
  | .hotReset port => Sys2Proof.Machine.execHotReset port s
  | .dpcContainment port => Sys2Proof.Machine.execDpcContainment port s
  | .cxlLost port => Sys2Proof.Machine.execCxlLost port s
  | .flr port fn => Sys2Proof.Machine.execFlr port fn s
  | .vfEnableClear port => Sys2Proof.Machine.execVfEnableClear port s
  | .numvfsWrite port value => Sys2Proof.Machine.execNumvfsWrite port value s
  | .configRequest port fn access => Sys2Proof.Machine.execConfigRequest port fn access s
  | .powerStateChange port fn d3hot => Sys2Proof.Machine.execPowerStateChange port fn d3hot s
  | .busMasterEnableChange port fn enable => Sys2Proof.Machine.execBusMasterEnableChange port fn enable s
  | .linkPowerStateChange port l2 => Sys2Proof.Machine.execLinkPowerStateChange port l2 s
  | .bar2Read port fn offset length hid => Sys2Proof.Machine.execBar2Read port fn offset length hid s
  | .bar2Write port fn offset data poisoned relaxed => Sys2Proof.Machine.execBar2Write port fn offset data poisoned relaxed s
  | .bar4Write port fn offset requester data poisoned relaxed => Sys2Proof.Machine.execBar4Write port fn offset requester data poisoned relaxed s
  | .bar4Read port fn hid => Sys2Proof.Machine.execBar4Read port fn hid s
  | .atomicop port fn bar hid => Sys2Proof.Machine.execAtomicop port fn bar hid s
  | .hostCompletion port tag status data => Sys2Proof.Machine.execHostCompletion port tag status data s
  | .completionTimeout port tag => Sys2Proof.Machine.execCompletionTimeout port tag s
  | .atsTranslationCompletion port tag result => Sys2Proof.Machine.execAtsTranslationCompletion port tag result s
  | .invalidateRequest port fn itag base length pasid => Sys2Proof.Machine.execInvalidateRequest port fn itag base length pasid s
  | .invalidateCompletion port fn itag => Sys2Proof.Machine.execInvalidateCompletion port fn itag s
  | .priResponse port fn group code => Sys2Proof.Machine.execPriResponse port fn group code s
  | .msixModerationExpiry bench vector => Sys2Proof.Machine.execMsixModerationExpiry bench vector s
  | .msixEntryWrite port fn vector dword value => Sys2Proof.Machine.execMsixEntryWrite port fn vector dword value s
  | .snpinv bench ring => Sys2Proof.Machine.execSnpinv bench ring s
  | .snpdata bench ring => Sys2Proof.Machine.execSnpdata bench ring s
  | .goS bench ring tail => Sys2Proof.Machine.execGoS bench ring tail s
  | .knockPoll bench ring tail => Sys2Proof.Machine.execKnockPoll bench ring tail s
  | .doorbell bench ring tail => Sys2Proof.Machine.execDoorbell bench ring tail s
  | .ownLateRetry bench ring => Sys2Proof.Machine.execOwnLateRetry bench ring s
  | .descriptorFetch bench ring result => Sys2Proof.Machine.execDescriptorFetch bench ring result s
  | .descriptorComplete bench ring => Sys2Proof.Machine.execDescriptorComplete bench ring s
  | .ringEnable bench ring value => Sys2Proof.Machine.execRingEnable bench ring value s
  | .ringDisable bench ring value => Sys2Proof.Machine.execRingDisable bench ring value s
  | .ringDisableDone bench ring => Sys2Proof.Machine.execRingDisableDone bench ring s
  | .ringPause bench ring value => Sys2Proof.Machine.execRingPause bench ring value s
  | .ringUnpause bench ring value => Sys2Proof.Machine.execRingUnpause bench ring value s
  | .ringResume bench ring value => Sys2Proof.Machine.execRingResume bench ring value s
  | .ringAbort bench ring value => Sys2Proof.Machine.execRingAbort bench ring value s
  | .abortDone bench ring => Sys2Proof.Machine.execAbortDone bench ring s
  | .copy bench ring => Sys2Proof.Machine.execCopy bench ring s
  | .gather bench ring index => Sys2Proof.Machine.execGather bench ring index s
  | .scatter bench ring index => Sys2Proof.Machine.execScatter bench ring index s
  | .fill bench ring => Sys2Proof.Machine.execFill bench ring s
  | .compare bench ring => Sys2Proof.Machine.execCompare bench ring s
  | .acquire bench ring => Sys2Proof.Machine.execAcquire bench ring s
  | .fence bench ring => Sys2Proof.Machine.execFence bench ring s
  | .eventWait bench ring => Sys2Proof.Machine.execEventWait bench ring s
  | .eventWaitSatisfied bench ring => Sys2Proof.Machine.execEventWaitSatisfied bench ring s
  | .eventSignal bench ring => Sys2Proof.Machine.execEventSignal bench ring s
  | .launch bench ring => Sys2Proof.Machine.execLaunch bench ring s
  | .anneal bench ring block => Sys2Proof.Machine.execAnneal bench ring block s
  | .prefetch bench ring => Sys2Proof.Machine.execPrefetch bench ring s
  | .advise bench ring => Sys2Proof.Machine.execAdvise bench ring s
  | .billetAlloc bench ring => Sys2Proof.Machine.execBilletAlloc bench ring s
  | .billetFree bench ring => Sys2Proof.Machine.execBilletFree bench ring s
  | .sealOpen bench ring block => Sys2Proof.Machine.execSealOpen bench ring block s
  | .sealClose bench ring => Sys2Proof.Machine.execSealClose bench ring s
  | .channelTakeup clusterB => Sys2Proof.Machine.execChannelTakeup clusterB s
  | .burstGrant lathe => Sys2Proof.Machine.execBurstGrant lathe s
  | .egressGrant port => Sys2Proof.Machine.execEgressGrant port s
  | .reservationStart bench ring => Sys2Proof.Machine.execReservationStart bench ring s
  | .readDataReturn lathe slot status data => Sys2Proof.Machine.execReadDataReturn lathe slot status data s
  | .writeAck lathe slot status => Sys2Proof.Machine.execWriteAck lathe slot status s
  | .triggerFire bench ring => Sys2Proof.Machine.execTriggerFire bench ring s
  | .paceTimerExpiry clusterB timer => Sys2Proof.Machine.execPaceTimerExpiry clusterB timer s
  | .pacingYield bench ring => Sys2Proof.Machine.execPacingYield bench ring s
  | .eventClaim bench line => Sys2Proof.Machine.execEventClaim bench line s
  | .eventRelease bench line => Sys2Proof.Machine.execEventRelease bench line s
  | .paceClaim bench slot timer clusterB => Sys2Proof.Machine.execPaceClaim bench slot timer clusterB s
  | .paceRelease bench slot => Sys2Proof.Machine.execPaceRelease bench slot s
  | .paceArm bench slot => Sys2Proof.Machine.execPaceArm bench slot s
  | .paceDisarm bench slot => Sys2Proof.Machine.execPaceDisarm bench slot s
  | .latheBusError lathe tag => Sys2Proof.Machine.execLatheBusError lathe tag s
  | .haltReplayResponse lathe reproduces => Sys2Proof.Machine.execHaltReplayResponse lathe reproduces s
  | .haltReplayTimeout lathe => Sys2Proof.Machine.execHaltReplayTimeout lathe s
  | .haltIsolationDone lathe => Sys2Proof.Machine.execHaltIsolationDone lathe s
  | .missSlotGrant => Sys2Proof.Machine.execMissSlotGrant s
  | .walkerGrant => Sys2Proof.Machine.execWalkerGrant s
  | .walkDone bench page ledgerUe => Sys2Proof.Machine.execWalkDone bench page ledgerUe s
  | .trackerExpiry bench stream => Sys2Proof.Machine.execTrackerExpiry bench stream s
  | .invRingEnable bench value => Sys2Proof.Machine.execInvRingEnable bench value s
  | .invDoorbell bench tail => Sys2Proof.Machine.execInvDoorbell bench tail s
  | .setEntry bench entry => Sys2Proof.Machine.execSetEntry bench entry s
  | .invalidate bench entry => Sys2Proof.Machine.execInvalidate bench entry s
  | .pinLoad bench entry => Sys2Proof.Machine.execPinLoad bench entry s
  | .token bench entry => Sys2Proof.Machine.execToken bench entry s
  | .tokenComplete bench => Sys2Proof.Machine.execTokenComplete bench s
  | .invResume bench => Sys2Proof.Machine.execInvResume bench s
  | .xlateInvReceived home bench incarn entry count => Sys2Proof.Machine.execXlateInvReceived home bench incarn entry count s
  | .xlateInvAck holder bench count => Sys2Proof.Machine.execXlateInvAck holder bench count s
  | .faultCmdRetry index => Sys2Proof.Machine.execFaultCmdRetry index s
  | .faultCmdFatal index => Sys2Proof.Machine.execFaultCmdFatal index s
  | .faultFind value => Sys2Proof.Machine.execFaultFind value s
  | .faultRead => Sys2Proof.Machine.execFaultRead s
  | .regionQuerySel value => Sys2Proof.Machine.execRegionQuerySel value s
  | .regionQuery => Sys2Proof.Machine.execRegionQuery s
  | .countUpdate => Sys2Proof.Machine.execCountUpdate s
  | .countDecay => Sys2Proof.Machine.execCountDecay s
  | .decayOverdue => Sys2Proof.Machine.execDecayOverdue s
  | .migStart => Sys2Proof.Machine.execMigStart s
  | .migLeafCopyDone result => Sys2Proof.Machine.execMigLeafCopyDone result s
  | .migLeafDone => Sys2Proof.Machine.execMigLeafDone s
  | .form => Sys2Proof.Machine.execForm s
  | .formationDone => Sys2Proof.Machine.execFormationDone s
  | .setLimits => Sys2Proof.Machine.execSetLimits s
  | .setKeep => Sys2Proof.Machine.execSetKeep s
  | .hold => Sys2Proof.Machine.execHold s
  | .resume => Sys2Proof.Machine.execResume s
  | .sweep => Sys2Proof.Machine.execSweep s
  | .grantDieMem => Sys2Proof.Machine.execGrantDieMem s
  | .returnDieMem => Sys2Proof.Machine.execReturnDieMem s
  | .dieMemZeroFillDone die offset length => Sys2Proof.Machine.execDieMemZeroFillDone die offset length s
  | .reattachDeadlineExpiry bench => Sys2Proof.Machine.execReattachDeadlineExpiry bench s
  | .noticeWrite bench => Sys2Proof.Machine.execNoticeWrite bench s
  | .noticeHeadWrite bench value => Sys2Proof.Machine.execNoticeHeadWrite bench value s
  | .noticeEnable bench => Sys2Proof.Machine.execNoticeEnable bench s
  | .noticeDisable bench => Sys2Proof.Machine.execNoticeDisable bench s
  | .holdLong bench placement => Sys2Proof.Machine.execHoldLong bench placement s
  | .attachTokenWrite bench part value => Sys2Proof.Machine.execAttachTokenWrite bench part value s
  | .attachResume bench epoch => Sys2Proof.Machine.execAttachResume bench epoch s
  | .attachClose bench epoch => Sys2Proof.Machine.execAttachClose bench epoch s
  | .attachFresh bench epoch => Sys2Proof.Machine.execAttachFresh bench epoch s
  | .peerWindowOpen bench => Sys2Proof.Machine.execPeerWindowOpen bench s
  | .peerWindowClose bench => Sys2Proof.Machine.execPeerWindowClose bench s
  | .peerWriteApply bench => Sys2Proof.Machine.execPeerWriteApply bench s
  | .peerDroppedInterval bench cause => Sys2Proof.Machine.execPeerDroppedInterval bench cause s
  | .diePwrgoodRise die => Sys2Proof.Machine.execDiePwrgoodRise die s
  | .diePwrgoodFall die => Sys2Proof.Machine.execDiePwrgoodFall die s
  | .dieFatal die => Sys2Proof.Machine.execDieFatal die s
  | .spAttemptStart die => Sys2Proof.Machine.execSpAttemptStart die s
  | .spLanesAligned die half => Sys2Proof.Machine.execSpLanesAligned die half s
  | .spParametersExchanged die accepted memGiB defects => Sys2Proof.Machine.execSpParametersExchanged die accepted memGiB defects s
  | .spCreditsExchanged die => Sys2Proof.Machine.execSpCreditsExchanged die s
  | .spZeroFillDone die => Sys2Proof.Machine.execSpZeroFillDone die s
  | .spStepTimeout die finding => Sys2Proof.Machine.execSpStepTimeout die finding s
  | .spBackoffExpiry die => Sys2Proof.Machine.execSpBackoffExpiry die s
  | .spAbsentRetry die => Sys2Proof.Machine.execSpAbsentRetry die s
  | .xltRequest die core id bench target write length data => Sys2Proof.Machine.execXltRequest die core id bench target write length data s
  | .coreEventWrite die core line op => Sys2Proof.Machine.execCoreEventWrite die core line op s
  | .coreFatalError die core address => Sys2Proof.Machine.execCoreFatalError die core address s
  | .dieUeReport die spa => Sys2Proof.Machine.execDieUeReport die spa s
  | .flitCrcError link same => Sys2Proof.Machine.execFlitCrcError link same s
  | .flitAckTimeout die => Sys2Proof.Machine.execFlitAckTimeout die s
  | .spRecoveryDone die ok => Sys2Proof.Machine.execSpRecoveryDone die ok s
  | .spRequestTimeout die => Sys2Proof.Machine.execSpRequestTimeout die s
  | .laneRecal link lane usable => Sys2Proof.Machine.execLaneRecal link lane usable s
  | .recalForce link lane hold usable => Sys2Proof.Machine.execRecalForce link lane hold usable s
  | .launchStageDone bench ring result => Sys2Proof.Machine.execLaunchStageDone bench ring result s
  | .launchPlaceStart bench ring free => Sys2Proof.Machine.execLaunchPlaceStart bench ring free s
  | .placementDone bench ring bands failure => Sys2Proof.Machine.execPlacementDone bench ring bands failure s
  | .launchLoadDone bench ring => Sys2Proof.Machine.execLaunchLoadDone bench ring s
  | .launchStartTime bench ring => Sys2Proof.Machine.execLaunchStartTime bench ring s
  | .placeRelease bench number => Sys2Proof.Machine.execPlaceRelease bench number s
  | .placeReleaseDone home bench number => Sys2Proof.Machine.execPlaceReleaseDone home bench number s
  | .lateSet die core => Sys2Proof.Machine.execLateSet die core s
  | .lateClear die core => Sys2Proof.Machine.execLateClear die core s
  | .holdForward home bench number incarn => Sys2Proof.Machine.execHoldForward home bench number incarn s
  | .lateReport hub bench number die core set incarn => Sys2Proof.Machine.execLateReport hub bench number die core set incarn s
  | .releaseMessage home bench number incarn time => Sys2Proof.Machine.execReleaseMessage home bench number incarn time s
  | .releaseTime home bench number => Sys2Proof.Machine.execReleaseTime home bench number s
  | .annealAdmit bench ring refused => Sys2Proof.Machine.execAnnealAdmit bench ring refused s
  | .annealLoadDone bench ring result => Sys2Proof.Machine.execAnnealLoadDone bench ring result s
  | .burlMove lattice => Sys2Proof.Machine.execBurlMove lattice s
  | .burlSliceEnd lattice => Sys2Proof.Machine.execBurlSliceEnd lattice s
  | .burlCheckpointDone lattice => Sys2Proof.Machine.execBurlCheckpointDone lattice s
  | .burlHaloReceived home bench ring incarn strip source sweep first last energy => Sys2Proof.Machine.execBurlHaloReceived home bench ring incarn strip source sweep first last energy s
  | .annealWriteDone bench ring => Sys2Proof.Machine.execAnnealWriteDone bench ring s
  | .elTrainingDone link result => Sys2Proof.Machine.execElTrainingDone link result s
  | .elBackoffExpiry link => Sys2Proof.Machine.execElBackoffExpiry link s
  | .elFlitSilence link => Sys2Proof.Machine.execElFlitSilence link s
  | .presenceSend => Sys2Proof.Machine.execPresenceSend s
  | .presenceReceived hub inst eligible epoch refusal => Sys2Proof.Machine.execPresenceReceived hub inst eligible epoch refusal s
  | .hubSilent hub => Sys2Proof.Machine.execHubSilent hub s
  | .masterClaim => Sys2Proof.Machine.execMasterClaim s
  | .charterSend cables => Sys2Proof.Machine.execCharterSend cables s
  | .charterReceived charter => Sys2Proof.Machine.execCharterReceived charter s
  | .timeStatementSend => Sys2Proof.Machine.execTimeStatementSend s
  | .timeStatementReceived statedNs delayNs => Sys2Proof.Machine.execTimeStatementReceived statedNs delayNs s
  | .hearthTimeReport hub time => Sys2Proof.Machine.execHearthTimeReport hub time s
  | .delayProbe link delayNs => Sys2Proof.Machine.execDelayProbe link delayNs s
  | .rosterReport hub homes guests => Sys2Proof.Machine.execRosterReport hub homes guests s
  | .rosterUpdate seq entries => Sys2Proof.Machine.execRosterUpdate seq entries s
  | .benchRegistration home bench incarn classId rateCap => Sys2Proof.Machine.execBenchRegistration home bench incarn classId rateCap s
  | .remoteGrant home bench incarn classId rateCap giveBack die offset length room => Sys2Proof.Machine.execRemoteGrant home bench incarn classId rateCap giveBack die offset length room s
  | .remoteSweep home bench incarn release => Sys2Proof.Machine.execRemoteSweep home bench incarn release s
  | .sweepSettleTimeout bench => Sys2Proof.Machine.execSweepSettleTimeout bench s
  | .sweepCut bench => Sys2Proof.Machine.execSweepCut bench s
  | .sweepDrainDone bench => Sys2Proof.Machine.execSweepDrainDone bench s
  | .sweepLocksTaken bench => Sys2Proof.Machine.execSweepLocksTaken bench s
  | .sweepReclaimDone bench => Sys2Proof.Machine.execSweepReclaimDone bench s
  | .lockExpiry lock => Sys2Proof.Machine.execLockExpiry lock s
  | .whittlerWatchdog whittler => Sys2Proof.Machine.execWhittlerWatchdog whittler s
  | .tallyQuery => Sys2Proof.Machine.execTallyQuery s
  | .errlogEntryRead mirror slot => Sys2Proof.Machine.execErrlogEntryRead mirror slot s
  | .scrubBlock find => Sys2Proof.Machine.execScrubBlock find s
  | .scrubPassStart => Sys2Proof.Machine.execScrubPassStart s
  | .scrubFloorDeadline => Sys2Proof.Machine.execScrubFloorDeadline s
  | .dieScrubRequest die => Sys2Proof.Machine.execDieScrubRequest die s
  | .dieScrubAck die => Sys2Proof.Machine.execDieScrubAck die s
  | .telemetrySnapshot => Sys2Proof.Machine.execTelemetrySnapshot s
  | .selftestStart part => Sys2Proof.Machine.execSelftestStart part s
  | .selftestDone part ok => Sys2Proof.Machine.execSelftestDone part ok s
  | .sealCheckDone stream => Sys2Proof.Machine.execSealCheckDone stream s
  | .frameEvent stream => Sys2Proof.Machine.execFrameEvent stream s
  | .jtagDapAccess => Sys2Proof.Machine.execJtagDapAccess s
  | .jtagExtest => Sys2Proof.Machine.execJtagExtest s
  | .jtagClamp => Sys2Proof.Machine.execJtagClamp s
  | .jtagHighz => Sys2Proof.Machine.execJtagHighz s
  | .jtagTestLogicReset => Sys2Proof.Machine.execJtagTestLogicReset s
  | .jtagIdcode => Sys2Proof.Machine.execJtagIdcode s
  | .jtagBypass => Sys2Proof.Machine.execJtagBypass s
  | .jtagSamplePreload => Sys2Proof.Machine.execJtagSamplePreload s
  | .dapMemoryRead space addr => Sys2Proof.Machine.execDapMemoryRead space addr s
  | .dapMemoryData data => Sys2Proof.Machine.execDapMemoryData data s
  | .dapRegisterRead quiet addr => Sys2Proof.Machine.execDapRegisterRead quiet addr s
  | .dapRegisterWrite addr value => Sys2Proof.Machine.execDapRegisterWrite addr value s
  | .whittlerHalt whittler locks => Sys2Proof.Machine.execWhittlerHalt whittler locks s
  | .whittlerStep whittler => Sys2Proof.Machine.execWhittlerStep whittler s
  | .whittlerResume whittler => Sys2Proof.Machine.execWhittlerResume whittler s
  | .whittlerHonour whittler honour => Sys2Proof.Machine.execWhittlerHonour whittler honour s
  | .debugCtrlWrite value => Sys2Proof.Machine.execDebugCtrlWrite value s
  | .flashRead slotB length => Sys2Proof.Machine.execFlashRead slotB length s
  | .flashProgram slotB length => Sys2Proof.Machine.execFlashProgram slotB length s
  | .flashErase4k slotB => Sys2Proof.Machine.execFlashErase4k slotB s
  | .flashCmdDone data => Sys2Proof.Machine.execFlashCmdDone data s
  | .flashCmdTimeout => Sys2Proof.Machine.execFlashCmdTimeout s
  | .smbusPointer offset pecOk => Sys2Proof.Machine.execSmbusPointer offset pecOk s
  | .smbusRead pecOk => Sys2Proof.Machine.execSmbusRead pecOk s
  | .smbusRestart value pecOk => Sys2Proof.Machine.execSmbusRestart value pecOk s
  | .charterSnapshot offset => Sys2Proof.Machine.execCharterSnapshot offset s
  | .registerWrite access => Sys2Proof.Machine.execRegisterWrite access s
  | .aspmL1Change port state => Sys2Proof.Machine.execAspmL1Change port state s
  | .attachRefused bench mode epoch => Sys2Proof.Machine.execAttachRefused bench mode epoch s
  | .registerRead access hid => Sys2Proof.Machine.execRegisterRead access hid s
  | .envanDataRequest sender home bench incarn id request => Sys2Proof.Machine.execEnvanDataRequest sender home bench incarn id request s
  | .dieReadResponse die id status data => Sys2Proof.Machine.execDieReadResponse die id status data s
  | .remoteBandPlacement home bench incarn classId rateCap number row rows cols flags queues seed budget ranges => Sys2Proof.Machine.execRemoteBandPlacement home bench incarn classId rateCap number row rows cols flags queues seed budget ranges s
  | .stripAdmit home bench ring incarn classId rateCap strip job coef init => Sys2Proof.Machine.execStripAdmit home bench ring incarn classId rateCap strip job coef init s
  | .stripStateReturn bench ring incarn strip best final => Sys2Proof.Machine.execStripStateReturn bench ring incarn strip best final s
  | .remoteGrantResult result => Sys2Proof.Machine.execRemoteGrantResult result s
  | .selftestOverdue part => Sys2Proof.Machine.execSelftestOverdue part s

end Sys2Proof.Machine
end

