-- ==== Sys2Proof/Machine/Stalls.lean ====
section
/-!
DEFINITION. What time counts: the stall counters of benches with their totals, and the busy times of units, counted in each microsecond that passes (20 R561, R562; log entry 57).
-/

namespace Sys2Proof.Machine

/-- Descriptors of a bench, with their rings. -/
def Bench.allDescs (x : Bench) : List (Nat × Desc) := x.rings.flatMap fun (e : Nat × Ring) => e.2.descs.map fun d => (e.1, d)

/-- A burst of the bench lacks part of a lathe's room, as `what` says. -/
def Bench.lacksRoom (x : Bench) (what : RoomWait → Bool) : Bool :=
  x.allDescs.any fun (e : Nat × Desc) => e.2.issuing && (e.2.roomWait.map what).getD false

/-- An admitted burst of the bench has reads that no slot is free for. -/
def State.readsUnslotted (s : State) (x : Bench) : Bool :=
  x.allDescs.any fun (e : Nat × Desc) => e.2.bursts.any fun u =>
    decide (256 ≤ (s.lathe u.lathe).reads.length) && u.reads.any fun q => q.slot.isNone && q.data.isNone

/-- An admitted burst of the bench has writes that no slot is free for. -/
def State.writesUnslotted (s : State) (x : Bench) : Bool :=
  x.allDescs.any fun (e : Nat × Desc) => e.2.bursts.any fun u =>
    decide (256 ≤ (s.lathe u.lathe).writes.length) && !u.issued && u.reads.all fun q => q.data.isSome

/-- A request of the bench waits at RATE_CAP's bucket (05 R144). -/
def State.rateWaits (s : State) (b : Nat) (x : Bench) : Bool :=
  !x.rateOpen && ((x.allDescs.any fun (e : Nat × Desc) => e.2.issuing && s.channelRuns b e.1) ||
    ((s.port x.port).egress.any fun t => t.bench == b && t.capped != 0) || (s.launches.any fun l => l.bench == b && l.stage == .staging) ||
    (s.mig.bench == b && s.mig.stage == .copying))

/-- A request of bench `b` waits at bound `i` of 20 Table 3. -/
def State.stalled (s : State) (b i : Nat) : Bool :=
  let x := s.bench b
  match i with
  | 0 => !(s.waitingRings b false).isEmpty || !(s.waitingRings b true).isEmpty
  | 1 => s.rateWaits b x
  | 2 => x.lacksRoom RoomWait.reads || s.readsUnslotted x
  | 3 => x.lacksRoom RoomWait.writes || s.writesUnslotted x
  | 4 => x.lacksRoom RoomWait.reorder
  | 5 => !(s.port x.port).tagFree && (s.port x.port).egress.any fun t => t.bench == b && t.owner.isSome
  | 6 => s.headstock.misses.any fun m => m.bench == b && m.stage == .queued
  | 7 => s.headstock.misses.any fun m => m.bench == b && m.modeD && m.stage == .slotted
  | 8 => s.spindles.any fun e => e.2.queue.any fun q => q.bench == some b
  | 9 => s.headstock.waiting.any fun f => f.bench == b
  | 10 => x.allDescs.any fun (e : Nat × Desc) => opOf e.2.bytes == 0x20 && e.2.phase == .started && e.2.status.isNone && (s.launchOf b e.1).isNone
  | 11 => s.jobs.any fun j => j.home == s.hubId && j.bench == b && j.phase == .admission
  | _ => false

/-- The counter of a bound, raised. -/
def Bench.stall (x : Bench) (i ns : Nat) : Bench :=
  { x with stalls := tabPut 0 i (tabGet x.stalls 0 i + BitVec.ofNat 64 ns) x.stalls }

/-- The stall counters of one bench, and the hub's totals, for a time in which its requests waited. -/
def State.countBenchStalls (s : State) (ns b : Nat) : State :=
  ((List.range 12).filter (s.stalled b)).foldl (fun s i => (s.modBench b fun x => x.stall i ns).countPerf (144 + i) ns) s

/-- A lathe has requests outstanding or holds data. -/
def Lathe.working (x : Lathe) : Bool := !x.reads.isEmpty || !x.writes.isEmpty || x.reorder != 0

/-- A host port has TLPs to send or requests outstanding. -/
def Port.working (x : Port) : Bool := !x.egress.isEmpty || !x.tags.isEmpty

/-- A spindle port has requests waiting or outstanding, or core requests to answer. -/
def Spindle.working (x : Spindle) : Bool := !x.queue.isEmpty || !x.sent.isEmpty || !x.xlt.isEmpty

/-- An Envan link carries requests of lathes that are outstanding at the hub it leads to. -/
def State.envanWorking (s : State) (l : Nat) : Bool :=
  s.lathes.any fun (e : Nat × Lathe) => (e.2.reads ++ e.2.writes).any fun u => (u.hub.bind s.linkTo) == some l

/-- Busy times of the units (20 R562; 21 Table 25). -/
def State.countBusy (s : State) (ns : Nat) : State :=
  let busy : List Nat :=
    (((List.range 16).filter fun l => (s.lathe l).working).map fun l => 2 * l + 1) ++
    (((List.range 4).filter fun p => (s.port p).working).map fun p => 34 + 4 * p) ++
    (((List.range 8).filter fun d => (s.die d).working).map fun d => 66 + 4 * d) ++
    (((List.range 6).filter s.envanWorking).map fun l => 98 + 4 * l)
  busy.foldl (fun s q => s.countPerf q ns) s

/-- What waits or works when a microsecond begins counts it. -/
def State.countTime (s : State) (us : Nat) : State :=
  if us = 0 then s else
  ((s.benches.map Prod.fst).foldl (fun s b => s.countBenchStalls (1000 * us) b) s).countBusy (1000 * us)

/-- One microsecond in which no command comes: time passes, and what waited or worked counts it. -/
def State.idleTick (s : State) : State :=
  let t := s.tick
  t.countTime (t.now.toNat - s.now.toNat)

end Sys2Proof.Machine
end

