-- ==== Sys2Proof/Machine/Step.lean ====
section
/-!
DEFINITION. One step: the command at the front of the queue runs; on an empty queue one microsecond passes (log entry 2).
-/

namespace Sys2Proof.Machine

/-- The state with the queue's rest. -/
def State.withPending (s : State) (l : List Instr) : State := { s with pending := l }

/-- One step of the hub. -/
def step (s : State) : Host.Outcome State Fault Refusal :=
  match s.pending with
  | [] => .next s.idleTick
  | c :: r => exec c (s.withPending r)

/-- `s` with the command that a table word spells at the front of its queue: no row of the table gives bits, so none is spelt. -/
def State.withFetchWord (s : State) (nbits w : Nat) : State :=
  match decodeTableWord nbits w with
  | none => s
  | some c => s.withPending (c :: s.pending)

end Sys2Proof.Machine
end

