-- ==== Sys2Proof/Safety.lean ====
section
/-!
DEFINITION. What a safe run is, in the terms the statements use: the components of the state, which of them each command may change, and what no command ever changes.
-/

namespace Sys2Proof.Machine

/-- The components of the state: each field of State but the queue, and the straps, which stand in the field `chip`. -/
inductive Part where
  | chip | hearth | ports | fns | mailbox | benches | zeroFill | forming | formingFlr | lathes | events | paceTimers | charges
  | headstock | mig | spindles | bar2Reads | remotes | placements | launches | jobs | dense | lattice | envans | cascade | recovery
  | bg | streams | dbg | perf | billetMem | draws | out | straps | bar2Writes | bar2Queue
  deriving DecidableEq, Repr

/-- The component is in `t` as it is in `s`. -/
def Part.same (p : Part) (s t : State) : Prop :=
  match p with
  | .chip => t.chip = s.chip
  | .hearth => t.hearth = s.hearth
  | .ports => t.ports = s.ports
  | .fns => t.fns = s.fns
  | .mailbox => t.mailbox = s.mailbox
  | .benches => t.benches = s.benches
  | .zeroFill => t.zeroFill = s.zeroFill
  | .forming => t.forming = s.forming
  | .formingFlr => t.formingFlr = s.formingFlr
  | .lathes => t.lathes = s.lathes
  | .events => t.events = s.events
  | .paceTimers => t.paceTimers = s.paceTimers
  | .charges => t.charges = s.charges
  | .headstock => t.headstock = s.headstock
  | .mig => t.mig = s.mig
  | .spindles => t.spindles = s.spindles
  | .bar2Reads => t.bar2Reads = s.bar2Reads
  | .remotes => t.remotes = s.remotes
  | .placements => t.placements = s.placements
  | .launches => t.launches = s.launches
  | .jobs => t.jobs = s.jobs
  | .dense => t.dense = s.dense
  | .lattice => t.lattice = s.lattice
  | .envans => t.envans = s.envans
  | .cascade => t.cascade = s.cascade
  | .recovery => t.recovery = s.recovery
  | .bg => t.bg = s.bg
  | .streams => t.streams = s.streams
  | .dbg => t.dbg = s.dbg
  | .perf => t.perf = s.perf
  | .billetMem => t.billetMem = s.billetMem
  | .draws => t.draws = s.draws
  | .out => t.out = s.out
  | .straps => t.chip.straps = s.chip.straps
  | .bar2Writes => t.bar2Writes = s.bar2Writes
  | .bar2Queue => t.bar2Queue = s.bar2Queue

/-- `t` is `s` but for the components of `l`. -/
def Unchanged (l : List Part) (s t : State) : Prop := ∀ p, p ∉ l → p.same s t

/-- What no command changes: the queue of the commands behind it, the grade, the fused key digest and the fused debug level (00 R4; 02 R46; 20 R551); messages sent are not taken back, and free values are not drawn twice. -/
structure Lasting (s t : State) : Prop where
  /-- the queue -/
  pending : t.pending = s.pending
  /-- the grade -/
  grade : t.chip.grade = s.chip.grade
  /-- the key digest -/
  keyDigest : t.chip.keyDigest = s.chip.keyDigest
  /-- the debug level -/
  level : t.dbg.level = s.dbg.level
  /-- messages sent -/
  out : s.out <+: t.out
  /-- free values drawn -/
  draws : s.draws ≤ t.draws

/-- Every component but the straps. -/
def Part.live : List Part :=
    [.chip, .hearth, .ports, .fns, .mailbox, .benches, .zeroFill, .forming, .formingFlr, .lathes, .events, .paceTimers, .charges,
    .headstock, .mig, .spindles, .bar2Reads, .remotes, .placements, .launches, .jobs, .dense, .lattice, .envans, .cascade, .recovery, .bg,
    .streams, .dbg, .perf, .billetMem, .draws, .out, .bar2Writes, .bar2Queue]

/-- The components that a command may change; every other is as before, whatever the state (the frame of each row of the table). -/
def mayChange (c : Instr) : List Part :=
  match c with
  | .hearthPowerGood => [.chip]
  | .hearthPowerLoss => .straps :: Part.live
  | .strapLatch .. => [.chip, .hearth, .out, .straps]
  | .sfdpReadDone .. => [.chip, .hearth, .out]
  | .slotHeadersRead .. => [.chip, .hearth, .out]
  | .slotBodyReadDone .. => [.chip, .hearth, .draws, .out]
  | .imageBoundExpiry => [.chip, .hearth]
  | .ledgerTrainingDone .. => [.chip, .hearth, .ports, .benches, .recovery, .billetMem]
  | .bistDone .. => [.chip, .ports, .lathes, .headstock, .spindles, .dense, .lattice, .envans, .cascade, .recovery, .draws]
  | .linksPhaseEnd => [.chip, .hearth, .ports, .benches, .headstock, .cascade, .recovery, .draws]
  | .managementRestart .. => Part.live
  | .restartSequenceResume => [.chip]
  | .hearthTrim .. => [.hearth, .draws]
  | .refLoss => Part.live
  | .refReturn => [.chip, .hearth, .out]
  | .hearthDeadline .. => [.hearth, .cascade, .bg]
  | .idleGateExpiry .. => [.hearth, .spindles]
  | .gateDrainDone .. => [.hearth]
  | .gateDrainTimeout .. => [.hearth]
  | .gateSaveDone .. => [.hearth, .headstock]
  | .porchEnqueue .. => Part.live
  | .domainWakeDone .. => Part.live
  | .pd7RefillDone => [.hearth, .benches, .headstock, .perf]
  | .pdWake .. => [.chip, .hearth]
  | .thermalSample .. => Part.live
  | .thermalRecovery => [.chip]
  | .perstAssert .. => [.hearth, .ports, .fns, .benches, .lathes, .headstock, .mig, .bar2Reads, .recovery, .bar2Queue]
  | .perstDeassert .. => [.hearth, .ports]
  | .linkTrainingDone .. => [.hearth, .ports, .fns, .benches, .lathes, .headstock, .mig, .bar2Reads, .recovery, .perf, .out, .bar2Queue]
  | .detectTimeout .. => [.hearth, .ports]
  | .detectRetry .. => [.hearth, .ports]
  | .linkDown .. => [.hearth, .ports, .fns, .benches, .lathes, .headstock, .mig, .bar2Reads, .recovery, .out, .bar2Queue]
  | .hotReset .. => [.hearth, .ports, .fns, .benches, .lathes, .headstock, .mig, .bar2Reads, .recovery, .bar2Queue]
  | .dpcContainment .. => [.hearth, .ports, .fns, .benches, .lathes, .headstock, .mig, .bar2Reads, .recovery, .bar2Queue]
  | .cxlLost .. => [.ports, .benches]
  | .flr .. => [.ports, .fns, .benches, .formingFlr, .lathes, .headstock, .spindles, .placements, .cascade, .recovery, .perf, .out]
  | .vfEnableClear .. => [.ports, .fns, .benches, .formingFlr, .lathes, .headstock, .spindles, .placements, .cascade, .recovery, .perf, .out]
  | .numvfsWrite .. => [.ports]
  | .configRequest .. => [.chip, .ports, .fns, .benches, .lathes, .charges, .headstock, .spindles, .cascade, .recovery, .bg, .perf, .billetMem, .out]
  | .powerStateChange .. => [.ports, .fns, .benches, .lathes, .charges, .headstock, .spindles, .cascade, .recovery, .perf, .billetMem, .out]
  | .busMasterEnableChange .. => [.ports, .fns, .benches, .lathes, .charges, .headstock, .spindles, .cascade, .recovery, .perf, .billetMem, .out]
  | .linkPowerStateChange .. => [.ports, .benches, .lathes, .charges, .headstock, .spindles, .cascade, .recovery, .perf, .billetMem, .out]
  | .bar2Read .. => [.hearth, .ports, .benches, .charges, .headstock, .spindles, .bar2Reads, .perf, .out, .bar2Writes, .bar2Queue]
  | .bar2Write .. => [.hearth, .ports, .fns, .benches, .charges, .headstock, .spindles, .bar2Reads, .perf, .out, .bar2Writes, .bar2Queue]
  | .bar4Write .. => [.hearth, .ports, .fns, .benches, .perf, .out]
  | .bar4Read .. => [.ports, .fns, .benches, .out]
  | .atomicop .. => [.ports, .fns, .out]
  | .hostCompletion .. => [.ports, .fns, .benches, .lathes, .charges, .headstock, .mig, .spindles, .cascade, .recovery, .perf, .billetMem, .out]
  | .completionTimeout .. => [.ports, .fns, .benches, .lathes, .charges, .headstock, .mig, .spindles, .cascade, .recovery, .perf, .billetMem, .out]
  | .atsTranslationCompletion .. => [.ports, .fns, .benches, .lathes, .headstock, .mig, .recovery, .perf, .out]
  | .invalidateRequest .. => [.hearth, .ports, .benches, .headstock, .perf, .out]
  | .invalidateCompletion .. => [.hearth, .ports, .benches, .headstock, .perf, .out]
  | .priResponse .. => [.ports, .fns, .benches, .lathes, .headstock, .recovery, .perf]
  | .msixModerationExpiry .. => [.ports, .benches]
  | .msixEntryWrite .. => [.chip, .ports, .benches]
  | .snpinv .. => [.hearth, .benches, .out]
  | .snpdata .. => [.out]
  | .goS .. => [.benches]
  | .knockPoll .. => [.hearth, .ports, .benches, .lathes, .headstock, .recovery, .perf, .out]
  | .doorbell .. => [.chip, .hearth, .benches, .bar2Queue]
  | .ownLateRetry .. => [.benches]
  | .descriptorFetch .. => [.ports, .fns, .benches, .lathes, .headstock, .recovery, .perf, .out]
  | .descriptorComplete .. => [.ports, .benches, .lathes, .charges, .headstock, .spindles, .cascade, .recovery, .perf, .billetMem, .out]
  | .ringEnable .. => [.chip, .hearth, .ports, .benches, .lathes, .headstock, .placements, .launches, .jobs, .dense, .lattice, .cascade, .recovery, .bg, .perf, .out]
  | .ringDisable .. => [.chip, .hearth, .ports, .benches, .lathes, .headstock, .placements, .launches, .jobs, .dense, .lattice, .cascade, .recovery, .bg, .perf, .out]
  | .ringDisableDone .. => [.benches]
  | .ringPause .. => [.chip, .hearth, .ports, .benches, .lathes, .headstock, .placements, .launches, .jobs, .dense, .lattice, .cascade, .recovery, .bg, .perf, .out]
  | .ringUnpause .. => [.chip, .hearth, .ports, .benches, .lathes, .headstock, .placements, .launches, .jobs, .dense, .lattice, .cascade, .recovery, .bg, .perf, .out]
  | .ringResume .. => [.chip, .hearth, .ports, .benches, .lathes, .headstock, .placements, .launches, .jobs, .dense, .lattice, .cascade, .recovery, .bg, .perf, .out]
  | .ringAbort .. => [.chip, .hearth, .ports, .benches, .lathes, .headstock, .placements, .launches, .jobs, .dense, .lattice, .cascade, .recovery, .bg, .perf, .out]
  | .abortDone .. => [.benches]
  | .copy .. => [.ports, .benches, .lathes, .headstock, .recovery, .perf]
  | .gather .. => [.ports, .benches, .spindles, .cascade, .perf, .out]
  | .scatter .. => [.ports, .benches, .spindles, .cascade, .perf, .out]
  | .fill .. => [.ports, .benches, .lathes, .recovery]
  | .compare .. => [.ports, .benches, .lathes, .recovery]
  | .acquire .. => [.ports, .benches, .lathes]
  | .fence .. => [.ports, .benches, .lathes]
  | .eventWait .. => [.ports, .benches, .lathes, .recovery]
  | .eventWaitSatisfied .. => [.benches, .lathes, .events]
  | .eventSignal .. => [.ports, .benches, .lathes, .events]
  | .launch .. => [.hearth, .ports, .benches, .lathes, .launches, .recovery]
  | .anneal .. => [.hearth, .ports, .benches, .lathes, .charges, .headstock, .spindles, .jobs, .dense, .lattice, .cascade, .recovery, .bg, .perf, .billetMem, .draws, .out]
  | .prefetch .. => [.ports, .benches, .lathes, .headstock, .mig, .perf]
  | .advise .. => [.ports, .benches, .lathes]
  | .billetAlloc .. => [.ports, .benches, .lathes, .recovery, .billetMem]
  | .billetFree .. => [.ports, .benches, .lathes, .headstock, .recovery]
  | .sealOpen .. => [.ports, .benches, .lathes, .headstock, .spindles, .cascade, .recovery, .streams, .perf, .out]
  | .sealClose .. => [.ports, .benches, .lathes, .recovery, .streams]
  | .channelTakeup .. => [.benches, .lathes, .charges, .recovery, .bg]
  | .burstGrant .. => [.ports, .benches, .lathes, .charges, .headstock, .spindles, .cascade, .recovery, .perf, .billetMem, .out]
  | .egressGrant .. => [.ports, .benches, .charges, .perf, .out]
  | .reservationStart .. => [.lathes]
  | .readDataReturn .. => [.ports, .benches, .lathes, .charges, .mig, .spindles, .cascade, .recovery, .perf, .billetMem, .out]
  | .writeAck .. => [.hearth, .ports, .benches, .lathes, .charges, .headstock, .mig, .spindles, .bar2Reads, .launches, .cascade, .recovery, .streams, .perf, .billetMem, .out, .bar2Writes, .bar2Queue]
  | .triggerFire .. => [.benches]
  | .paceTimerExpiry .. => [.benches, .paceTimers]
  | .pacingYield .. => [.ports, .benches, .lathes, .recovery]
  | .eventClaim .. => [.chip, .benches, .events, .recovery]
  | .eventRelease .. => [.chip, .ports, .benches, .lathes, .events, .recovery]
  | .paceClaim .. => [.chip, .benches, .paceTimers, .recovery]
  | .paceRelease .. => [.chip, .ports, .benches, .lathes, .paceTimers, .recovery]
  | .paceArm .. => [.chip, .hearth, .benches, .paceTimers]
  | .paceDisarm .. => [.chip, .benches, .paceTimers]
  | .latheBusError .. => [.ports, .benches, .lathes, .spindles, .cascade, .recovery, .perf, .out]
  | .haltReplayResponse .. => [.lathes, .spindles, .cascade, .perf, .out]
  | .haltReplayTimeout .. => [.lathes, .spindles, .cascade, .perf, .out]
  | .haltIsolationDone .. => [.ports, .benches, .lathes, .charges, .spindles, .cascade, .recovery, .perf, .billetMem, .out]
  | .missSlotGrant => [.ports, .benches, .lathes, .charges, .headstock, .recovery, .perf]
  | .walkerGrant => [.charges, .headstock, .recovery, .perf]
  | .walkDone .. => [.hearth, .ports, .fns, .benches, .lathes, .charges, .headstock, .mig, .spindles, .bar2Reads, .cascade, .recovery, .streams, .perf, .out, .bar2Writes, .bar2Queue]
  | .trackerExpiry .. => [.headstock]
  | .invRingEnable .. => [.chip, .benches]
  | .invDoorbell .. => [.chip, .benches]
  | .setEntry .. => [.benches, .headstock, .cascade, .perf, .out]
  | .invalidate .. => [.benches, .headstock, .cascade, .perf, .out]
  | .pinLoad .. => [.benches, .headstock, .cascade, .perf, .out]
  | .token .. => [.benches, .headstock, .perf, .out]
  | .tokenComplete .. => [.ports, .benches, .headstock, .cascade]
  | .invResume .. => [.chip, .benches]
  | .xlateInvReceived .. => [.benches, .headstock, .cascade, .perf, .out]
  | .xlateInvAck .. => [.benches]
  | .faultCmdRetry .. => [.chip, .ports, .benches, .lathes, .headstock, .recovery, .perf]
  | .faultCmdFatal .. => [.chip, .ports, .benches, .lathes, .headstock, .recovery, .perf]
  | .faultFind .. => [.chip, .headstock]
  | .faultRead => [.headstock]
  | .regionQuerySel .. => [.chip, .headstock]
  | .regionQuery => [.headstock]
  | .countUpdate => [.ports, .benches, .headstock, .mig]
  | .countDecay => [.hearth, .benches, .headstock]
  | .decayOverdue => [.headstock]
  | .migStart => [.chip, .hearth, .ports, .mig]
  | .migLeafCopyDone .. => [.ports, .benches, .charges, .headstock, .mig, .spindles, .cascade, .perf, .out]
  | .migLeafDone => [.ports, .benches, .headstock, .mig, .perf]
  | .form => [.chip, .hearth, .ports, .mailbox, .benches, .forming, .formingFlr, .lathes, .headstock, .recovery]
  | .formationDone => [.hearth, .ports, .mailbox, .benches, .forming, .formingFlr, .lathes, .headstock, .spindles, .placements, .cascade, .recovery, .perf, .draws, .out]
  | .setLimits => [.chip, .hearth, .ports, .mailbox, .benches]
  | .setKeep => [.chip, .hearth, .ports, .mailbox, .benches]
  | .hold => [.chip, .hearth, .ports, .mailbox, .benches, .spindles, .placements, .cascade, .perf, .out]
  | .resume => [.chip, .hearth, .ports, .mailbox, .benches, .placements, .cascade, .perf, .out]
  | .sweep => [.chip, .hearth, .ports, .mailbox, .benches, .formingFlr, .lathes, .headstock, .spindles, .placements, .cascade, .recovery, .perf, .out]
  | .grantDieMem => [.chip, .hearth, .ports, .mailbox, .benches, .cascade, .recovery, .perf, .out]
  | .returnDieMem => [.chip, .hearth, .ports, .mailbox, .benches, .zeroFill, .headstock, .spindles, .cascade, .recovery, .perf, .out]
  | .dieMemZeroFillDone .. => [.hearth, .ports, .mailbox, .benches, .zeroFill, .cascade, .recovery, .perf, .out]
  | .reattachDeadlineExpiry .. => [.hearth, .ports, .benches, .formingFlr, .lathes, .headstock, .spindles, .placements, .cascade, .recovery, .perf, .out]
  | .noticeWrite .. => [.ports, .benches]
  | .noticeHeadWrite .. => [.chip, .benches]
  | .noticeEnable .. => [.chip, .benches]
  | .noticeDisable .. => [.chip, .benches]
  | .holdLong .. => [.ports, .benches, .placements]
  | .attachTokenWrite .. => [.chip, .benches]
  | .attachResume .. => [.chip, .hearth, .ports, .benches, .lathes, .charges, .headstock, .spindles, .placements, .launches, .jobs, .dense, .lattice, .cascade, .recovery, .bg, .perf, .billetMem, .out]
  | .attachClose .. => [.chip, .hearth, .ports, .benches, .lathes, .charges, .headstock, .spindles, .placements, .launches, .jobs, .dense, .lattice, .cascade, .recovery, .bg, .perf, .billetMem, .out]
  | .attachFresh .. => [.chip, .hearth, .ports, .benches, .lathes, .charges, .headstock, .spindles, .placements, .launches, .jobs, .dense, .lattice, .cascade, .recovery, .bg, .perf, .billetMem, .out]
  | .peerWindowOpen .. => [.chip, .benches]
  | .peerWindowClose .. => [.chip, .benches]
  | .peerWriteApply .. => [.hearth, .ports, .fns, .benches, .charges, .headstock, .spindles, .streams, .perf, .out, .bar2Writes]
  | .peerDroppedInterval .. => [.ports, .benches]
  | .diePwrgoodRise .. => [.spindles]
  | .diePwrgoodFall .. => [.hearth, .ports, .mailbox, .benches, .zeroFill, .formingFlr, .lathes, .charges, .headstock, .mig, .spindles, .bar2Reads, .remotes, .placements, .cascade, .recovery, .dbg, .perf, .billetMem, .out, .bar2Writes, .bar2Queue]
  | .dieFatal .. => [.hearth, .ports, .mailbox, .benches, .zeroFill, .formingFlr, .lathes, .charges, .headstock, .mig, .spindles, .bar2Reads, .remotes, .placements, .cascade, .recovery, .dbg, .perf, .billetMem, .out, .bar2Writes, .bar2Queue]
  | .spAttemptStart .. => [.spindles]
  | .spLanesAligned .. => [.spindles]
  | .spParametersExchanged .. => [.spindles]
  | .spCreditsExchanged .. => [.spindles, .perf, .out]
  | .spZeroFillDone .. => [.hearth, .spindles]
  | .spStepTimeout .. => [.spindles]
  | .spBackoffExpiry .. => [.hearth, .spindles]
  | .spAbsentRetry .. => [.hearth, .spindles]
  | .xltRequest .. => [.ports, .benches, .charges, .headstock, .spindles, .placements, .cascade, .recovery, .perf, .out]
  | .coreEventWrite .. => [.ports, .benches, .events, .spindles, .recovery]
  | .coreFatalError .. => [.ports, .benches, .spindles, .placements, .cascade, .recovery, .perf, .out]
  | .dieUeReport .. => [.ports, .benches, .recovery]
  | .flitCrcError .. => [.fns, .spindles, .envans, .out]
  | .flitAckTimeout .. => [.spindles]
  | .spRecoveryDone .. => [.hearth, .ports, .mailbox, .benches, .zeroFill, .formingFlr, .lathes, .charges, .headstock, .mig, .spindles, .bar2Reads, .remotes, .placements, .cascade, .recovery, .dbg, .perf, .billetMem, .out, .bar2Writes, .bar2Queue]
  | .spRequestTimeout .. => [.hearth, .ports, .mailbox, .benches, .zeroFill, .formingFlr, .lathes, .charges, .headstock, .mig, .spindles, .bar2Reads, .remotes, .placements, .cascade, .recovery, .dbg, .perf, .billetMem, .out, .bar2Writes, .bar2Queue]
  | .laneRecal .. => [.spindles, .envans]
  | .recalForce .. => [.spindles, .envans]
  | .launchStageDone .. => [.hearth, .ports, .benches, .lathes, .charges, .headstock, .spindles, .placements, .launches, .dense, .cascade, .recovery, .perf, .out]
  | .launchPlaceStart .. => [.benches, .lathes, .placements, .launches, .dense, .cascade, .recovery, .bg, .perf, .out]
  | .placementDone .. => [.hearth, .benches, .lathes, .charges, .spindles, .placements, .launches, .jobs, .dense, .lattice, .cascade, .recovery, .bg, .perf, .out]
  | .launchLoadDone .. => [.launches, .cascade, .perf, .out]
  | .launchStartTime .. => [.benches, .lathes, .spindles, .placements, .launches, .dense, .recovery, .perf, .out]
  | .placeRelease .. => [.chip, .benches, .spindles, .placements, .cascade, .perf, .out]
  | .placeReleaseDone .. => [.benches, .placements, .recovery]
  | .lateSet .. => [.ports, .benches, .spindles, .placements, .cascade, .recovery, .perf, .out]
  | .lateClear .. => [.ports, .benches, .placements, .cascade, .recovery, .perf, .out]
  | .holdForward .. => [.spindles, .placements, .cascade, .perf, .out]
  | .lateReport .. => [.ports, .benches, .spindles, .placements, .cascade, .perf, .out]
  | .releaseMessage .. => [.placements, .cascade]
  | .releaseTime .. => [.ports, .benches, .spindles, .placements, .perf, .out]
  | .annealAdmit .. => [.jobs, .dense, .lattice, .cascade, .recovery, .bg, .perf, .billetMem, .draws, .out]
  | .annealLoadDone .. => [.hearth, .ports, .benches, .lathes, .charges, .headstock, .spindles, .jobs, .dense, .lattice, .cascade, .recovery, .bg, .perf, .billetMem, .out]
  | .burlMove .. => [.jobs, .dense, .lattice, .cascade, .recovery, .bg, .perf, .billetMem, .out]
  | .burlSliceEnd .. => [.jobs, .dense, .lattice, .recovery]
  | .burlCheckpointDone .. => [.jobs, .dense, .lattice, .recovery, .bg]
  | .burlHaloReceived .. => [.jobs, .dense, .lattice, .cascade, .recovery, .bg, .perf, .billetMem, .out]
  | .annealWriteDone .. => [.benches, .lathes, .jobs, .dense, .lattice, .recovery, .bg]
  | .elTrainingDone .. => [.hearth, .spindles, .placements, .envans, .cascade, .perf, .out]
  | .elBackoffExpiry .. => [.hearth, .envans]
  | .elFlitSilence .. => [.hearth, .spindles, .placements, .envans, .cascade, .perf, .out]
  | .presenceSend => [.cascade, .perf, .out]
  | .presenceReceived .. => [.cascade]
  | .hubSilent .. => [.hearth, .cascade]
  | .masterClaim => [.hearth, .ports, .mailbox, .benches, .lathes, .charges, .mig, .spindles, .remotes, .jobs, .dense, .lattice, .cascade, .recovery, .bg, .perf, .billetMem, .draws, .out]
  | .charterSend .. => [.ports, .mailbox, .benches, .zeroFill, .formingFlr, .lathes, .charges, .headstock, .mig, .spindles, .bar2Reads, .remotes, .placements, .jobs, .dense, .lattice, .cascade, .recovery, .bg, .perf, .billetMem, .draws, .out, .bar2Writes]
  | .charterReceived .. => [.chip, .hearth, .ports, .mailbox, .benches, .zeroFill, .formingFlr, .lathes, .paceTimers, .charges, .headstock, .mig, .spindles, .bar2Reads, .remotes, .placements, .launches, .jobs, .dense, .lattice, .envans, .cascade, .recovery, .bg, .perf, .billetMem, .draws, .out, .bar2Writes]
  | .timeStatementSend => [.cascade, .perf, .out]
  | .timeStatementReceived .. => [.chip, .hearth, .ports, .benches, .lathes, .paceTimers, .spindles, .placements, .launches, .envans, .cascade, .recovery, .bg, .perf, .draws, .out]
  | .hearthTimeReport .. => [.chip, .hearth, .ports, .benches, .lathes, .paceTimers, .spindles, .placements, .launches, .envans, .cascade, .recovery, .bg, .perf, .out]
  | .delayProbe .. => [.envans, .cascade, .perf, .out]
  | .rosterReport .. => [.ports, .benches, .zeroFill, .formingFlr, .lathes, .charges, .headstock, .mig, .spindles, .bar2Reads, .remotes, .placements, .jobs, .dense, .lattice, .cascade, .recovery, .bg, .perf, .out, .bar2Writes]
  | .rosterUpdate .. => [.ports, .benches, .zeroFill, .formingFlr, .lathes, .charges, .headstock, .mig, .spindles, .bar2Reads, .remotes, .placements, .jobs, .dense, .lattice, .cascade, .recovery, .bg, .perf, .out, .bar2Writes]
  | .benchRegistration .. => [.cascade, .perf, .out]
  | .remoteGrant .. => [.hearth, .benches, .zeroFill, .headstock, .spindles, .cascade, .recovery, .perf, .out]
  | .remoteSweep .. => [.ports, .benches, .zeroFill, .lathes, .charges, .headstock, .mig, .spindles, .bar2Reads, .remotes, .placements, .jobs, .dense, .lattice, .cascade, .recovery, .bg, .perf, .out, .bar2Writes]
  | .sweepSettleTimeout .. => [.benches]
  | .sweepCut .. => [.hearth, .ports, .fns, .mailbox, .benches, .lathes, .events, .paceTimers, .charges, .headstock, .mig, .spindles, .bar2Reads, .remotes, .placements, .launches, .jobs, .dense, .lattice, .cascade, .recovery, .bg, .streams, .perf, .out, .bar2Writes, .bar2Queue]
  | .sweepDrainDone .. => [.benches]
  | .sweepLocksTaken .. => [.benches, .zeroFill, .headstock, .spindles, .placements, .cascade, .recovery, .perf, .out]
  | .sweepReclaimDone .. => [.hearth, .ports, .mailbox, .benches, .lathes, .charges, .headstock, .dense, .lattice, .cascade, .recovery]
  | .lockExpiry .. => [.hearth, .ports, .benches, .headstock, .recovery]
  | .whittlerWatchdog .. => [.hearth, .ports, .benches, .headstock, .recovery, .bg]
  | .tallyQuery => [.recovery]
  | .errlogEntryRead .. => [.recovery]
  | .scrubBlock .. => [.ports, .benches, .formingFlr, .lathes, .headstock, .spindles, .placements, .cascade, .recovery, .bg, .perf, .out]
  | .scrubPassStart => [.bg]
  | .scrubFloorDeadline => [.hearth, .bg]
  | .dieScrubRequest .. => [.charges, .spindles, .perf, .out]
  | .dieScrubAck .. => [.charges, .spindles, .perf, .out]
  | .telemetrySnapshot => [.ports, .bg]
  | .selftestStart .. => [.lathes, .headstock, .dense, .lattice, .recovery, .bg]
  | .selftestDone .. => [.hearth, .ports, .benches, .lathes, .headstock, .dense, .lattice, .recovery, .bg]
  | .sealCheckDone .. => [.ports, .benches, .lathes, .charges, .spindles, .recovery, .streams, .perf, .out]
  | .frameEvent .. => [.benches, .lathes, .charges, .spindles, .recovery, .streams, .perf, .out]
  | .jtagDapAccess => [.dbg]
  | .jtagExtest => Part.live
  | .jtagClamp => Part.live
  | .jtagHighz => Part.live
  | .jtagTestLogicReset => [.chip, .recovery, .dbg]
  | .jtagIdcode => [.out]
  | .jtagBypass => []
  | .jtagSamplePreload => []
  | .dapMemoryRead .. => [.charges, .spindles, .dbg, .perf, .out]
  | .dapMemoryData .. => [.charges, .spindles, .dbg, .perf, .out]
  | .dapRegisterRead .. => Part.live
  | .dapRegisterWrite .. => Part.live
  | .whittlerHalt .. => [.hearth, .ports, .benches, .headstock, .recovery, .bg, .dbg, .draws]
  | .whittlerStep .. => [.dbg, .draws]
  | .whittlerResume .. => [.hearth, .ports, .benches, .headstock, .recovery, .dbg, .draws]
  | .whittlerHonour .. => [.hearth, .ports, .benches, .headstock, .recovery, .dbg]
  | .debugCtrlWrite .. => [.chip, .hearth, .ports, .benches, .headstock, .recovery, .dbg]
  | .flashRead .. => [.chip, .out]
  | .flashProgram .. => [.chip, .out]
  | .flashErase4k .. => [.chip, .out]
  | .flashCmdDone .. => [.chip]
  | .flashCmdTimeout => [.chip]
  | .smbusPointer .. => [.chip]
  | .smbusRead .. => Part.live
  | .smbusRestart .. => Part.live
  | .charterSnapshot .. => [.chip, .cascade]
  | .registerWrite .. => Part.live
  | .aspmL1Change .. => [.hearth, .ports]
  | .attachRefused .. => [.chip, .hearth, .ports, .benches, .lathes, .charges, .headstock, .spindles, .placements, .launches, .jobs, .dense, .lattice, .cascade, .recovery, .bg, .perf, .billetMem, .out]
  | .registerRead .. => Part.live
  | .envanDataRequest .. => [.ports, .benches, .charges, .spindles, .remotes, .placements, .jobs, .dense, .lattice, .cascade, .recovery, .bg, .perf, .billetMem, .out]
  | .dieReadResponse .. => [.ports, .benches, .charges, .spindles, .bar2Reads, .remotes, .cascade, .recovery, .perf, .out]
  | .remoteBandPlacement .. => [.benches, .headstock, .spindles, .placements, .cascade, .recovery, .perf, .out]
  | .stripAdmit .. => [.hearth, .headstock, .jobs, .dense, .lattice, .cascade, .recovery, .bg, .perf, .out]
  | .stripStateReturn .. => [.jobs, .dense, .lattice, .cascade, .recovery, .bg, .billetMem]
  | .remoteGrantResult .. => [.ports, .mailbox, .benches, .cascade]
  | .selftestOverdue .. => [.bg]

/-- The invariant that every step keeps: the memory of the billets is in its canonical form. -/
def State.Inv (s : State) : Prop := s.billetMem.wf = true

end Sys2Proof.Machine
end

