-- ==== Sys2Proof/Certificates/Slice0/Obligations.lean ====
section
/-!
DEFINITION. The statements about this model that are given to the provers, one definition each; OBLIGATIONS.json lists them with the rules they come from.
-/

open Sys2Proof Sys2Proof.Machine

/-- A step runs the command at the front of the queue. A step of a state with a command at the front of its queue is exec of that command on the state with the queue's rest, for every command and state. On an empty queue a step is one tick of the hub's clock: that clause is the model's choice (log entry 2). The conditions and results are exactly those of the Lean clauses. Where it rests on a choice of the model's own rather than a rule: log entry 2. (95_what_each_step_holds) -/
def Obligations.StepRunsTheFrontCommand : Prop :=
  (∀ (s : State) (c : Instr) (r : List Instr), step (s.withPending (c :: r)) = exec c (s.withPending r)) ∧
  (∀ (s : State) (c : Instr) (r : List Instr), s.pending = c :: r → step s = exec c (s.withPending r)) ∧
  (∀ s : State, s.pending = [] → step s = .next s.idleTick)

/-- Every command completes and changes only the components of its frame. For every command and every state, exec answers a next state. It differs from the first only in the components that mayChange lists for the command; the queue, the grade, the fused digest and the fused debug level stay; messages sent are not taken back; free values are not drawn twice. That every command completes rests on log entry 3 (a row whose condition does not hold changes nothing). The conditions and results are exactly those of the Lean clauses. Where it rests on a choice of the model's own rather than a rule: log entry 3. (95_what_each_step_holds, R4, R34, R46, R551) -/
def Obligations.EveryCommandCompletesWithinItsFrame : Prop :=
  ∀ (c : Instr) (s : State), ∃ t, exec c s = .next t ∧ Unchanged (mayChange c) s t ∧ Lasting s t

/-- Every step keeps the canonical form of billet memory. From every state whose billet memory is in canonical form (addresses strictly rising, no zero byte listed), a step leaves one that is. The conditions and results are exactly those of the Lean clauses. Where it rests on a choice of the model's own rather than a rule: log entry 53. (R211) -/
def Obligations.InvariantKeptByEveryStep : Prop :=
  ∀ (s t : State), s.Inv → step s = .next t → t.Inv

/-- The state right after reset. State.reset meets the invariant; its queue, porch, deadlines, benches, lathes, messages and billet bytes are empty; the hub is unpowered in STRAPS with hearth time 0; every bench is VACANT, every ring DISABLED, every switched domain OFF, every host port DOWN with PERST_N asserted. That the first state is the unpowered one is the model's choice (log entry 9), and registers the spec gives no reset value read 0 (log entry 10). The conditions and results are exactly those of the Lean clauses. Where it rests on a choice of the model's own rather than a rule: log entries 9, 10. (R58) -/
def Obligations.ResetState : Prop :=
  State.reset.Inv ∧ State.reset.pending = [] ∧ State.reset.chip.powered = false ∧ State.reset.chip.phase = .straps ∧ State.reset.hearth.time = 0 ∧ State.reset.benches = [] ∧ State.reset.lathes = [] ∧ State.reset.hearth.deadlines = [] ∧ State.reset.hearth.porch = [] ∧ State.reset.billetMem = [] ∧ State.reset.out = [] ∧ (∀ b, (State.reset.bench b).state = .vacant) ∧ (∀ b r, (State.reset.ring b r).state = .disabled) ∧ (∀ n, 1 ≤ n → n ≤ 12 → (State.reset.domain n).state = .off) ∧ (∀ p, (State.reset.port p).link = .down ∧ (State.reset.port p).perst = true)

/-- Straps change only at strap latch or power loss. Whatever the command, unless it is STRAP_LATCH or HEARTH_POWER_LOSS, a next state has the straps it had. The conditions and results are exactly those of the Lean clauses. (R34) -/
def Obligations.StrapsChangeOnlyAtTheirLatch : Prop :=
  ∀ (s t : State) (c : Instr), (∀ h m f x r, c ≠ .strapLatch h m f x r) → c ≠ .hearthPowerLoss → (exec c s = .next t) → t.chip.straps = s.chip.straps

/-- Reading and writing bytes of billet memory. Written bytes read back, every other address reads as before, both for writes and for zeroing; a run of reads reads each address; writes and zeroing keep the canonical form; two memories in canonical form that read the same everywhere are equal. That a byte nothing has written reads 0 is R211's zero fill at allocation. The conditions and results are exactly those of the Lean clauses. Where it rests on a choice of the model's own rather than a rule: log entry 53. (R211, R193) -/
def Obligations.BilletMemory : Prop :=
  (∀ (m : Memory) (a i : Nat) (l : List Byte), i < l.length → memRead (memWrites m a l) (a + i) = l.getD i 0) ∧
  (∀ (m : Memory) (a c : Nat) (l : List Byte), c < a ∨ a + l.length ≤ c → memRead (memWrites m a l) c = memRead m c) ∧
  (∀ (m : Memory) (a : Nat) (l : List Byte), m.wf = true → (memWrites m a l).wf = true ∧ (∀ n, (memZero m a n).wf = true)) ∧
  (∀ (m : Memory) (a n c : Nat), m.wf = true → memRead (memZero m a n) c = if a ≤ c ∧ c < a + n then 0 else memRead m c) ∧
  (∀ (m : Memory) (a n i : Nat), i < n → (memReads m a n)[i]? = some (memRead m (a + i))) ∧
  (∀ m n : Memory, m.wf = true → n.wf = true → (∀ a, memRead m a = memRead n a) → m = n)

/-- Bit ranges include both ends; multi-byte fields are little-endian. Bit i of the range [h:l] of a number is its bit l + i up to h and nothing above. Bit 8k + i of the n-byte field at offset o is bit i of the byte at offset o + k. The n bytes of a number are its base-256 digits, least significant first, and spell the number modulo 256^n. The conditions and results are exactly those of the Lean clauses. (R10) -/
def Obligations.BitsAndBytesOfStructures : Prop :=
  (∀ (v h l i : Nat), l ≤ h → (bits v l (h - l + 1)).testBit i = (decide (i ≤ h - l) && v.testBit (l + i))) ∧
  (∀ (b : List Byte) (o n k i : Nat), k < n → i < 8 → (field b o n).testBit (8 * k + i) = (b.getD (o + k) 0).getLsbD i) ∧
  (∀ (v n k : Nat), k < n → (leBytes n v)[k]? = some (BitVec.ofNat 8 (v / 256 ^ k))) ∧
  (∀ (v n : Nat), (leBytes n v).length = n ∧ leNat (leBytes n v) = v % 256 ^ n)

/-- crc32c is the reflected Castagnoli CRC. crc32c of a list of bytes is the bit-serial register of the polynomial 0x1EDC6F41 with its 32 bits reversed, fed each byte from bit 0 on, from the initial value 0xFFFFFFFF, with the final XOR 0xFFFFFFFF. The conditions and results are exactly those of the Lean clauses. (R43) -/
def Obligations.Crc32cOfAnImage : Prop :=
  ∀ l : List Byte, crc32c l = (l.flatMap fun b => (List.range 8).map fun i => b.getLsbD i).foldl
    (fun c x => if c.testBit 0 != x then (c / 2) ^^^ ((List.range 32).foldl (fun v i => v + (if (0x1EDC6F41 : Nat).testBit i then 2 ^ (31 - i) else 0)) 0) else c / 2) 0xFFFFFFFF ^^^ 0xFFFFFFFF

/-- Spins as bits, in row-major order. A bit 1 is +1 and 0 is -1. Spin i is bit i mod 8 of byte i div 8. A state of N spins packs into ceil(N / 8) bytes and unpacks to itself. Column c of row r of a lattice state is spin r times the number of columns + c. The conditions and results are exactly those of the Lean clauses. (R424) -/
def Obligations.SpinsOfAState : Prop :=
  (spinVal true = 1 ∧ spinVal false = -1) ∧
  (∀ (n i : Nat) (y : List Byte), i < n → (unpackSpins n y)[i]? = some ((y.getD (i / 8) 0).getLsbD (i % 8))) ∧
  (∀ l : List Bool, (packSpins l ((l.length + 7) / 8)).length = (l.length + 7) / 8 ∧ unpackSpins l.length (packSpins l ((l.length + 7) / 8)) = l) ∧
  (∀ (cols row col : Nat) (l : List Bool), col < cols → (rowOf cols l row)[col]? = l[row * cols + col]?)

/-- The acceptance weight is the rounded exponential between its bounds. weight(q) is 2^24 for q at or below 0, 0 for q at or above 4096, and between them the integer within one half of 2^24 times e^(-q/256). It depends on q alone. The conditions and results are exactly those of the Lean clauses. (R433) -/
def Obligations.WeightsOfTheBurl : Prop :=
  (∀ q : Int, q ≤ 0 → weight q = 2 ^ 24) ∧
  (∀ q : Int, 0 < q → q < 4096 → |((weight q : Nat) : ℝ) - 2 ^ 24 * Real.exp (-(q : ℝ) / 256)| ≤ 1 / 2) ∧
  (∀ q : Int, 4096 ≤ q → weight q = 0)

/-- HUB_IDENT gives the grade and the stepping. In every state in which the management function decodes, a read of HUB_IDENT through it completes with data whose GRADE byte is 1 on an AX5216 and 2 on an AX5208 and whose STEPPING byte is 0xB0. Rows: REGISTER_READ. The conditions and results are exactly those of the Lean clauses. (R2) -/
def Obligations.IdentityOfTheHub : Prop :=
  ∀ (s : State) (p f hid : Nat), s.decodes p f = true → s.mgmtFn = (p, f) →
    ∃ t d, exec (.registerRead ⟨p, f, 0x10000, 4, [true, true, true, true], [], false⟩ hid) s = .next t ∧ ((t.port p).egress.getLast?.map EgressTlp.tlp) = some (.completion p f hid .ok d) ∧ field d 0 1 = (if s.chip.grade = .ax5216 then 1 else 2) ∧ field d 1 1 = 0xB0

/-- What a hub restart cuts and what it keeps. A restart by the management register or SMBus with the key, or by a pin-driving JTAG instruction, on a running hub whose management function is reached and whose bench 0 is attached, keeps hearth time and its counting, empties the deadlines, the retry times, the porch and the withheld requests, sends nothing more, and leaves no bench, lathe, placement, job or stream; every host port and Envan link is DOWN with no queued TLP or tag, every switched domain OFF. REF_LOSS on a powered hub with no wait does the same to the time, timers, porch, benches, lathes and host links. Rows: MANAGEMENT_RESTART, SMBUS_RESTART, JTAG_EXTEST, JTAG_CLAMP, JTAG_HIGHZ, REF_LOSS. The conditions and results are exactly those of the Lean clauses. Where it rests on a choice of the model's own rather than a rule: log entry 32. (R56, R57, R62, R66, R81) -/
def Obligations.RestartCutsEverything : Prop :=
  (∀ (s : State) (c : Instr), s.running = true → s.hearth.counting = true → s.decodes s.mgmtFn.1 s.mgmtFn.2 = true → (s.bench 0).detached = false →
    c = .managementRestart 0xA5C30001 ∨ c = .smbusRestart 0xA5C3 true ∨ c = .jtagExtest ∨ c = .jtagClamp ∨ c = .jtagHighz →
    ∃ t, exec c s = .next t ∧ t.hearth.time = s.hearth.time ∧ t.hearth.counting = s.hearth.counting ∧ t.hearth.deadlines = [] ∧ t.hearth.detectRetry = [] ∧ t.hearth.porch = [] ∧ t.hearth.withheld = [] ∧ t.out = s.out ∧ t.benches = [] ∧ t.lathes = [] ∧ t.placements = [] ∧ t.jobs = [] ∧ t.streams = [] ∧ (∀ p, (t.port p).link = .down ∧ (t.port p).egress = [] ∧ (t.port p).tags = []) ∧ (∀ n, (t.domain n).state = .off) ∧ (∀ l, (t.envan l).state = .down)) ∧
  (∀ s : State, s.chip.powered = true → s.hearth.counting = true → s.hearth.refLost = false → s.chip.wait = .none →
    ∃ t, exec .refLoss s = .next t ∧ t.hearth.time = s.hearth.time ∧ t.hearth.deadlines = [] ∧ t.hearth.detectRetry = [] ∧ t.hearth.porch = [] ∧ t.hearth.withheld = [] ∧ t.benches = [] ∧ t.lathes = [] ∧ (∀ p, (t.port p).link = .down))

/-- Power, strap latch, reference at the latch, oscillator trim. HEARTH_POWER_GOOD powers the hearth once. HEARTH_POWER_LOSS leaves the reset state but for the fuses and grade. STRAP_LATCH in STRAPS stores the straps, starts the 60 s bound and hearth time, and goes to FLASH with PD8 on; without the reference it stays in STRAPS with REF_LOST and HEARTH_ALERT_N. In any other phase it does nothing. HEARTH_TRIM of an error within 50 ppm keeps it, in hundredths; a greater one leaves a free one within 50 ppm; without the reference nothing is measured. Rows: HEARTH_POWER_GOOD, HEARTH_POWER_LOSS, STRAP_LATCH, HEARTH_TRIM. The conditions and results are exactly those of the Lean clauses. Where it rests on a choice of the model's own rather than a rule: log entries 3, 9, 12. (R34, R50, R59, R60, R61, R62, R618, R619) -/
def Obligations.PowerAndStraps : Prop :=
  (∀ (s : State), s.chip.powered = false → exec .hearthPowerGood s = .next { s with chip := { s.chip with powered := true, lastRestart := 0 } }) ∧
  (∀ (s : State), s.chip.powered = true → exec .hearthPowerGood s = .next s) ∧
  (∀ (s : State), ∃ t, exec .hearthPowerLoss s = .next t ∧ t.chip.powered = false ∧ t.chip.phase = .straps ∧ t.hearth = Hearth.reset ∧ t.benches = [] ∧ t.billetMem = [] ∧ t.chip.grade = s.chip.grade ∧ t.chip.keyDigest = s.chip.keyDigest ∧ t.dbg.level = s.dbg.level) ∧
  (∀ (s : State) (hub : BitVec 5) (e x : Bool) (f : BitVec 2), s.chip.powered = true → s.chip.phase = .straps → s.chip.search.bound = none → s.dbg.pinDriving = false →
    ∃ t, exec (.strapLatch hub e f x true) s = .next t ∧ t.chip.straps = ⟨hub, e, f, x⟩ ∧ t.chip.search.bound = some (s.now + 60000000) ∧ t.hearth.counting = true ∧ t.hearth.time = s.hearth.time ∧ t.chip.phase = .flash ∧ (t.domain 8).state = .on ∧ t.hearth.refLost = false) ∧
  (∀ (s : State) (hub : BitVec 5) (e x : Bool) (f : BitVec 2), s.chip.powered = true → s.chip.phase = .straps → s.chip.search.bound = none → s.dbg.pinDriving = false →
    ∃ t, exec (.strapLatch hub e f x false) s = .next t ∧ t.chip.straps = ⟨hub, e, f, x⟩ ∧ t.chip.search.bound = some (s.now + 60000000) ∧ t.hearth.counting = true ∧ t.chip.phase = .straps ∧ t.hearth.refLost = true ∧ t.hearthAlert = true) ∧
  (∀ (s : State) (hub : BitVec 5) (e x r : Bool) (f : BitVec 2), s.chip.phase ≠ .straps → exec (.strapLatch hub e f x r) s = .next s) ∧
  (∀ (s : State) (v : Int), s.chip.powered = true → s.hearth.refLost = false → -50 ≤ v → v ≤ 50 → exec (.hearthTrim v) s = .next { s with hearth := { s.hearth with oscTrim := 100 * v } }) ∧
  (∀ (s : State) (v : Int), s.chip.powered = true → s.hearth.refLost = false → v < -50 ∨ 50 < v →
    ∃ t, exec (.hearthTrim v) s = .next t ∧ -5000 ≤ t.hearth.oscTrim ∧ t.hearth.oscTrim ≤ 5000 ∧ t.hearth = { s.hearth with oscTrim := t.hearth.oscTrim } ∧ t.draws = s.draws + 1) ∧
  (∀ (s : State) (v : Int), s.hearth.refLost = true → exec (.hearthTrim v) s = .next s)

/-- The image search: SFDP, headers, bodies, factory defaults and the 60 s bound. SFDP_READ_DONE stores the device's facts, or applies factory defaults for an absent device or forced defaults. SLOT_HEADERS_READ keeps the headers that pass, applies defaults with reason 2 or 3 where none does, and reads slot A where only A does. SLOT_BODY_READ_DONE of a good body selects it: its configuration, source, reason 0 and version. IMAGE_BOUND_EXPIRY at the bound applies defaults with reason 4, not before; a slot under examination reads TIMED_OUT, one forced away NOT_READ; past the bound SFDP_READ_DONE changes nothing. Rows: SFDP_READ_DONE, SLOT_HEADERS_READ, SLOT_BODY_READ_DONE, IMAGE_BOUND_EXPIRY. The conditions and results are exactly those of the Lean clauses. Where it rests on a choice of the model's own rather than a rule: log entries 3, 14. (R40, R41, R42, R44, R45, R48, R49, R50) -/
def Obligations.ImageSearch : Prop :=
  (∀ (s : State) (d n : Nat) (x : Bool), s.searching = true → d ≠ 0 → s.chip.straps.slotForce ≠ 3#2 →
    ∃ t, exec (.sfdpReadDone d x n) s = .next t ∧ t.chip.search.density = d ∧ t.chip.search.sfdpX4 = x ∧ t.chip.search.sfdpMhz = n ∧ t.chip.cfg = none ∧ t.chip.phase = .flash) ∧
  (∀ (s : State) (d n : Nat) (x : Bool), s.searching = true → (d = 0 ∨ s.chip.straps.slotForce = 3#2) →
    ∃ t, exec (.sfdpReadDone d x n) s = .next t ∧ t.chip.cfg = some (factoryDefaults s.big) ∧ t.chip.cfgDefaulted = true ∧ t.chip.cfgSource = 2 ∧ (d = 0 → t.chip.image.slotA = .flashAbsent ∧ t.chip.image.slotB = .flashAbsent)) ∧
  (∀ (s : State) (a b : List Byte) (x y : Option SlotHeader), s.searching = true → s.chip.search.density ≠ 0 → s.chip.search.reading = none → x = (if s.chip.straps.slotForce = 2#2 ∨ (checkHeader s.big s.slotSize a).1 ≠ .ok then none else (checkHeader s.big s.slotSize a).2) → y = (if s.chip.straps.slotForce = 1#2 ∨ (checkHeader s.big s.slotSize b).1 ≠ .ok then none else (checkHeader s.big s.slotSize b).2) →
    ∃ t, exec (.slotHeadersRead a b) s = .next t ∧ t.chip.search.headerA = x ∧ t.chip.search.headerB = y ∧ (x = none → y = none → t.chip.cfg = some (factoryDefaults s.big) ∧ t.chip.cfgReason = if s.chip.straps.slotForce = 0#2 then 3 else 2) ∧ (x.isSome = true → y = none → t.chip.search.reading = some false ∧ t.chip.cfg = none)) ∧
  (∀ (s : State) (x : Bool) (h : SlotHeader) (y : List Byte), s.searching = true → s.chip.search.reading = some x → (if x then s.chip.search.headerB else s.chip.search.headerA) = some h → checkBody s.big s.chip.keyDigest h y = .ok →
    ∃ t, exec (.slotBodyReadDone x y) s = .next t ∧ t.chip.cfg = some (parseConfig h y) ∧ t.chip.cfgDefaulted = false ∧ t.chip.cfgSource = (if x then 1 else 0) ∧ t.chip.cfgReason = 0 ∧ t.chip.image.version = h.version) ∧
  (∀ (s : State) (v : BitVec 64), s.undecided = true → s.chip.search.bound = some v → v.toNat ≤ s.now.toNat →
    ∃ t, exec .imageBoundExpiry s = .next t ∧ t.chip.cfg = some (factoryDefaults s.big) ∧ t.chip.cfgDefaulted = true ∧ t.chip.cfgReason = 4 ∧
    (∀ x, s.chip.image.get x = .pending → t.chip.image.get x = if s.forcedAway x then .notRead else .timedOut)) ∧
  (∀ (s : State) (d n : Nat) (x : Bool) (v : BitVec 64), s.chip.search.bound = some v → v.toNat ≤ s.now.toNat → exec (.sfdpReadDone d x n) s = .next s) ∧
  (∀ (s : State) (v : BitVec 64), s.chip.search.bound = some v → s.now.toNat < v.toNat → exec .imageBoundExpiry s = .next s)

/-- Ledger training, start-up BIST and the end of LINKS. LEDGER_TRAINING_DONE with no failure makes the ledger ready with empty billets, in BIST once configured; with a failure PHASE stays FLASH and HUB_FAULT_N is asserted. BIST_DONE with a failing fabric, all lathes of cluster A fenced, or a failing walker or more than 4 ways, stays in BIST with BIST_UNIT 1, 2 or 3; otherwise PHASE is LINKS, with a fresh instance number and the failing parts out of service. LINKS_PHASE_END, once every spindle port is settled or LINKS is 2 s old and not before, is HOSTS with bench 0 ACTIVE on the management function with its class. Rows: LEDGER_TRAINING_DONE, BIST_DONE, LINKS_PHASE_END. The conditions and results are exactly those of the Lean clauses. Where it rests on a choice of the model's own rather than a rule: log entries 14, 15. (R35, R37, R82, R83, R385, R531, R532) -/
def Obligations.BistAndLinks : Prop :=
  (∀ (s : State), s.chip.phase = .flash → s.chip.ledgerReady = false → s.chip.ledgerFail = false →
    ∃ t, exec (.ledgerTrainingDone 0#4) s = .next t ∧ t.chip.ledgerReady = true ∧ t.billetMem = [] ∧ t.chip.phase = (if s.chip.cfg.isSome then .bist else .flash)) ∧
  (∀ (s : State) (m : BitVec 4), m ≠ 0#4 → s.chip.phase = .flash → s.chip.ledgerReady = false → s.chip.ledgerFail = false →
    ∃ t, exec (.ledgerTrainingDone m) s = .next t ∧ t.chip.ledgerFail = true ∧ t.chip.ledgerMask = m ∧ t.chip.phase = .flash ∧ t.hubFault = true) ∧
  (∀ (s : State) (r : BistResult), s.chip.phase = .bist → s.chip.bistFail = false → r.fabric = true →
    ∃ t, exec (.bistDone r) s = .next t ∧ t.chip.bistFail = true ∧ t.chip.bistUnit = 1#4 ∧ t.chip.phase = .bist) ∧
  (∀ (s : State) (r : BistResult), s.chip.phase = .bist → s.chip.bistFail = false → r.fabric = false → (s.bistApply r).clusterAFenced = true →
    ∃ t, exec (.bistDone r) s = .next t ∧ t.chip.bistFail = true ∧ t.chip.bistUnit = 2#4 ∧ t.chip.phase = .bist) ∧
  (∀ (s : State) (r : BistResult), s.chip.phase = .bist → s.chip.bistFail = false → r.fabric = false → (s.bistApply r).clusterAFenced = false → (r.walker = true ∨ 4 < r.ways.length) →
    ∃ t, exec (.bistDone r) s = .next t ∧ t.chip.bistFail = true ∧ t.chip.bistUnit = 3#4 ∧ t.chip.phase = .bist) ∧
  (∀ (s : State) (r : BistResult), s.chip.phase = .bist → s.chip.bistFail = false → r.fabric = false → (s.bistApply r).clusterAFenced = false → r.walker = false → r.ways.length ≤ 4 →
    ∃ t, exec (.bistDone r) s = .next t ∧ t.chip.phase = .links ∧ t.cascade.inst = Config.random s.draws ∧ t.headstock.retired = r.ways.dedup ∧ t.dense.outOfService = r.dense ∧ t.lattice.outOfService = r.lattice) ∧
  (∀ (s : State) (cfg : ImageCfg) (c : BenchClass), s.chip.phase = .links → s.chip.cfg = some cfg → s.findClass cfg.mgmtClass = some c → s.portsSettled = true ∨ s.chip.linksAt.toNat + 2000000 ≤ s.now.toNat →
    ∃ t, exec .linksPhaseEnd s = .next t ∧ t.chip.phase = .hosts ∧ (t.bench 0).state = .active ∧ (t.bench 0).port = cfg.mgmtPort ∧ (t.bench 0).fn = cfg.mgmtFunction ∧ (t.bench 0).classId = cfg.mgmtClass ∧ (t.bench 0).ringCount = c.maxRings) ∧
  (∀ s : State, s.portsSettled = false → s.now.toNat < s.chip.linksAt.toNat + 2000000 → exec .linksPhaseEnd s = .next s)

/-- Hub restart by each source, loss and return of the reference, junction temperature. MANAGEMENT_RESTART with its key restarts the hub with LAST_RESTART 1 and keeps hearth time, straps, the mirror and the log sequence; with a wrong key it only counts. RESTART_SEQUENCE_RESUME goes on 100 ms after the teardown, not before. REF_LOSS restarts with source 3, both alert outputs and one log entry, and REF_RETURN ends the wait, or starts the flash phase at a cold start. THERMAL_SAMPLE below 1000 keeps the warning and ends the alert below 950, from 1000 to 1150 warns and alerts, and from 1150 restarts with source 4. A sample below 900 keeps or starts the cool time and any other ends it. THERMAL_RECOVERY ends the wait to cool once the cool time is 10 s old, not before, and then waits for the reference where that is lost. Rows: MANAGEMENT_RESTART, RESTART_SEQUENCE_RESUME, REF_LOSS, REF_RETURN, THERMAL_SAMPLE, THERMAL_RECOVERY. The conditions and results are exactly those of the Lean clauses. Where it rests on a choice of the model's own rather than a rule: log entries 22, 32. (R55, R56, R57, R60, R61, R66, R86, R507, R508, R524, R576) -/
def Obligations.RestartSources : Prop :=
  (∀ (s : State) (v : BitVec 32), s.decodes s.mgmtFn.1 s.mgmtFn.2 = true → (s.bench 0).detached = false → v.getLsbD 0 = true → v.extractLsb' 16 16 = 0xA5C3#16 →
    ∃ t, exec (.managementRestart v) s = .next t ∧ t.chip.phase = .restarting ∧ t.chip.lastRestart = 1#4 ∧ t.chip.wait = .diePower ∧ t.benches = [] ∧ t.spindles = [] ∧ t.billetMem = [] ∧ t.hearth.time = s.hearth.time ∧ t.hearth.deadlines = [] ∧ t.recovery.mirror = s.recovery.mirror ∧ t.recovery.logSeq = s.recovery.logSeq ∧ t.chip.straps = s.chip.straps) ∧
  (∀ (s : State) (v : BitVec 32), s.decodes s.mgmtFn.1 s.mgmtFn.2 = true → (s.bench 0).detached = false → v.getLsbD 0 = true → v.extractLsb' 16 16 ≠ 0xA5C3#16 →
    ∃ t, exec (.managementRestart v) s = .next t ∧ t.chip.phase = s.chip.phase ∧ t.chip.badAccess = s.chip.badAccess + 1 ∧ t.benches = s.benches) ∧
  (∀ (s : State), s.chip.wait = .diePower → s.chip.teardownAt.toNat + 100000 ≤ s.now.toNat ∨ s.hearth.counting = false → s.dbg.pinDriving = false →
    exec .restartSequenceResume s = .next { s with chip := { s.chip with phase := .straps, wait := .none } }) ∧
  (∀ (s : State), s.hearth.counting = true → s.now.toNat < s.chip.teardownAt.toNat + 100000 → exec .restartSequenceResume s = .next s) ∧
  (∀ (s : State), s.chip.powered = true → s.hearth.counting = true → s.hearth.refLost = false → s.chip.wait = .none →
    ∃ t, exec .refLoss s = .next t ∧ t.hearth.refLost = true ∧ t.hearthAlert = true ∧ t.hubFault = true ∧ t.chip.phase = .restarting ∧ t.chip.lastRestart = 3#4 ∧ t.chip.wait = .reference ∧ t.benches = [] ∧ t.recovery.logSeq = s.recovery.logSeq + 1) ∧
  (∀ (s : State), s.chip.powered = true → s.hearth.refLost = true → s.chip.wait = .reference → s.chip.phase = .restarting →
    ∃ t, exec .refReturn s = .next t ∧ t.hearth.refLost = false ∧ t.chip.wait = .diePower ∧ t.chip.phase = .restarting) ∧
  (∀ (s : State) (v : BitVec 64), s.chip.powered = true → s.hearth.refLost = true → s.chip.phase = .straps → s.chip.search.bound = some v → s.now.toNat < v.toNat →
    ∃ t, exec .refReturn s = .next t ∧ t.hearth.refLost = false ∧ t.chip.phase = .flash ∧ (t.domain 8).state = .on) ∧
  (∀ (s : State) (l : List (BitVec 16)), s.chip.powered = true → hottest l < 1000 →
    ∃ t, exec (.thermalSample l) s = .next t ∧ t.hearth.tjMax = BitVec.ofInt 16 (hottest l) ∧ t.hearth.sensors = l ∧ t.hearth.thermalWarn = s.hearth.thermalWarn ∧ t.hearth.thermalAlert = (s.hearth.thermalAlert && decide (950 ≤ hottest l)) ∧ t.chip = s.chip ∧ t.benches = s.benches) ∧
  (∀ (s : State) (l : List (BitVec 16)), s.chip.powered = true → 1000 ≤ hottest l → hottest l < 1150 →
    ∃ t, exec (.thermalSample l) s = .next t ∧ t.hearth.thermalWarn = true ∧ t.hearthAlert = true ∧ t.chip = s.chip) ∧
  (∀ (s : State) (l : List (BitVec 16)), s.chip.powered = true → s.chip.wait ≠ .cool → 1150 ≤ hottest l →
    ∃ t, exec (.thermalSample l) s = .next t ∧ t.hearth.thermalWarn = true ∧ t.hearthAlert = true ∧ t.hubFault = true ∧ t.chip.phase = .restarting ∧ t.chip.lastRestart = 4#4 ∧ t.chip.wait = .cool ∧ t.benches = []) ∧
  (∀ (s : State), s.chip.wait = .cool → s.hearth.cooled = true → exec .thermalRecovery s = .next { s with chip := { s.chip with wait := if s.hearth.refLost then .reference else .diePower } }) ∧
  (∀ (s : State) (v : BitVec 64), s.hearth.counting = true → s.hearth.coolSince = none ∨ (s.hearth.coolSince = some v ∧ s.now.toNat < v.toNat + 10000000) → exec .thermalRecovery s = .next s) ∧
  (∀ (s : State) (l : List (BitVec 16)), s.chip.powered = true → hottest l < 900 → ∃ t, exec (.thermalSample l) s = .next t ∧ t.hearth.coolSince = some (s.hearth.coolSince.getD s.now)) ∧
  (∀ (s : State) (l : List (BitVec 16)), s.chip.powered = true → 900 ≤ hottest l → ∃ t, exec (.thermalSample l) s = .next t ∧ t.hearth.coolSince = none)

/-- JTAG instructions and the TAP reset. EXTEST, CLAMP and HIGHZ outside STRAPS tear the hub down with LAST_RESTART 5 and HUB_FAULT_N; in STRAPS they only drive the pins. Test-Logic-Reset ends that, detaches the debug port, and lets the start go on. IDCODE answers the grade's code; BYPASS and SAMPLE/PRELOAD change nothing; DAP_ACCESS attaches once, quiet. Rows: JTAG_EXTEST, JTAG_CLAMP, JTAG_HIGHZ, JTAG_TEST_LOGIC_RESET, JTAG_IDCODE, JTAG_BYPASS, JTAG_SAMPLE_PRELOAD, JTAG_DAP_ACCESS. The conditions and results are exactly those of the Lean clauses. Where it rests on a choice of the model's own rather than a rule: log entries 29, 32. (R549, R553, R554) -/
def Obligations.JtagInstructions : Prop :=
  (∀ (s : State), s.chip.powered = true → s.chip.phase ≠ .straps →
    ∃ t, exec .jtagExtest s = .next t ∧ t.dbg.pinDriving = true ∧ t.chip.phase = .restarting ∧ t.chip.lastRestart = 5#4 ∧ t.chip.wait = .testLogicReset ∧ t.hubFault = true ∧ t.benches = []) ∧
  (∀ (s : State), s.chip.powered = true → s.chip.phase ≠ .straps →
    ∃ t, exec .jtagClamp s = .next t ∧ t.dbg.pinDriving = true ∧ t.chip.phase = .restarting ∧ t.chip.lastRestart = 5#4 ∧ t.chip.wait = .testLogicReset ∧ t.hubFault = true ∧ t.benches = []) ∧
  (∀ (s : State), s.chip.powered = true → s.chip.phase ≠ .straps →
    ∃ t, exec .jtagHighz s = .next t ∧ t.dbg.pinDriving = true ∧ t.chip.phase = .restarting ∧ t.chip.lastRestart = 5#4 ∧ t.chip.wait = .testLogicReset ∧ t.hubFault = true ∧ t.benches = []) ∧
  (∀ (s : State), s.chip.phase = .straps → exec .jtagExtest s = .next { s with dbg := { s.dbg with pinDriving := true } }) ∧
  (∀ (s : State), s.chip.phase = .straps → exec .jtagClamp s = .next { s with dbg := { s.dbg with pinDriving := true } }) ∧
  (∀ (s : State), s.chip.phase = .straps → exec .jtagHighz s = .next { s with dbg := { s.dbg with pinDriving := true } }) ∧
  (∀ (s : State), s.dbg.pinDriving = true → s.chip.wait = .testLogicReset →
    ∃ t, exec .jtagTestLogicReset s = .next t ∧ t.dbg.attached = false ∧ t.dbg.pinDriving = false ∧ t.chip.wait = (if s.hearth.refLost then .reference else .diePower) ∧ t.recovery.faults.contains FaultCause.dbg = false) ∧
  (∀ (s : State), s.dbg.pinDriving = false →
    ∃ t, exec .jtagTestLogicReset s = .next t ∧ t.dbg.attached = false ∧ t.chip = s.chip ∧ t.recovery = s.recovery ∧ t.benches = s.benches) ∧
  (∀ (s : State), s.chip.powered = true →
    ∃ t, exec .jtagIdcode s = .next t ∧ t.out = s.out ++ [.tap (if s.chip.grade = .ax5216 then 0xB52167AB else 0xB52087AB)] ∧ t.chip = s.chip ∧ t.dbg = s.dbg) ∧
  (∀ (s : State), exec .jtagBypass s = .next s) ∧
  (∀ (s : State), exec .jtagSamplePreload s = .next s) ∧
  (∀ (s : State), s.chip.powered = true → s.dbg.attached = false → exec .jtagDapAccess s = .next { s with dbg := { s.dbg with attached := true, quiet := true } }) ∧
  (∀ (s : State), s.dbg.attached = true → exec .jtagDapAccess s = .next s)

/-- The closing handshake of a power domain: states and counts. A present, switched-on, idle domain whose idle gate time has passed goes to CLOSING at IDLE_GATE_EXPIRY, with the step's start noted and every other domain as before; without a gate time, not idle, too early, or with a request of a die of its group outstanding, nothing changes. GATE_DRAIN_DONE takes CLOSING or DRAINING to SAVING. GATE_DRAIN_TIMEOUT takes a domain that has drained for 2 ms back to ON, counts GATE_ABORTS and restarts its idle time. GATE_SAVE_DONE takes SAVING to OFF for every domain but PD8; for PD7 it empties the translation caches and keeps the pin lists. For PD8 it goes OFF and the last hearth deadline is the scrub floor time. Rows: IDLE_GATE_EXPIRY, GATE_DRAIN_DONE, GATE_DRAIN_TIMEOUT, GATE_SAVE_DONE. The conditions and results are exactly those of the Lean clauses. Where it rests on a choice of the model's own rather than a rule: log entries 3, 4, 59. (03_hearth:R69, 03_hearth:R70, 03_hearth:R72, 03_hearth:R73, 03_hearth:R74, 18_background:R517) -/
def Obligations.GateHandshake : Prop :=
  (∀ (s : State) (n : Nat), s.domainPresent n = true → s.domainOn n = true → s.idleGateMs n ≠ 0 → s.idle n = true →
    (s.domain n).idleSince.toNat + s.idleGateMs n * 1000 ≤ s.now.toNat → (n = 11 ∨ n = 12 → (s.groupDies n).all s.dieQuiet = true) →
    ∃ t, exec (.idleGateExpiry n) s = .next t ∧ (t.domain n).state = .closing ∧ (t.domain n).stepSince = s.now ∧ (n ≠ 11 → n ≠ 12 → t.spindles = s.spindles) ∧ (∀ m, m ≠ n → t.domain m = s.domain m)) ∧
  (∀ (s : State) (n : Nat), s.idleGateMs n = 0 ∨ s.idle n = false ∨ s.now.toNat < (s.domain n).idleSince.toNat + s.idleGateMs n * 1000 →
    exec (.idleGateExpiry n) s = .next s) ∧
  (∀ (s : State) (n : Nat), n = 11 ∨ n = 12 → (s.groupDies n).all s.dieQuiet = false → exec (.idleGateExpiry n) s = .next s) ∧
  (∀ (s : State) (n : Nat), (s.domain n).state = .closing ∨ (s.domain n).state = .draining →
    ∃ t, exec (.gateDrainDone n) s = .next t ∧ t.domain n = { s.domain n with state := .saving, stepSince := s.now } ∧ (∀ m, m ≠ n → t.domain m = s.domain m)) ∧
  (∀ (s : State) (n : Nat), (s.domain n).state = .draining → (s.domain n).stepSince.toNat + 2000 ≤ s.now.toNat →
    ∃ t, exec (.gateDrainTimeout n) s = .next t ∧ t.domain n = { s.domain n with state := .on, gateAborts := (s.domain n).gateAborts + 1, idleSince := s.now } ∧ (∀ m, m ≠ n → t.domain m = s.domain m)) ∧
  (∀ (s : State) (n : Nat), (s.domain n).state = .saving → n ≠ 8 →
    ∃ t, exec (.gateSaveDone n) s = .next t ∧ t.domain n = { s.domain n with state := .off, stepSince := s.now } ∧
    (n = 7 → t.headstock.cache = [] ∧ t.headstock.walkCache = [] ∧ t.headstock.pins = s.headstock.pins ∧ t.hearth.refilling = false) ∧ (n ≠ 7 → t.headstock = s.headstock)) ∧
  (∀ s : State, (s.domain 8).state = .saving → s.hearth.deadlines.length < 1024 →
    ∃ t, exec (.gateSaveDone 8) s = .next t ∧ (t.domain 8).state = .off ∧ t.hearth.deadlines.getLast? = some ⟨.scrubFloor, s.floorTime⟩)

/-- Waking a domain, hearth deadlines, the scrub floor line and the porch. PD_WAKE is the staged-write discard followed by the wake of each bit set; with one bit of a domain that is off, that domain is WAKING with its idle time restarted, and every domain it does not depend on is as before. HEARTH_DEADLINE removes a deadline whose time has come, waking its domain when that is off, abandoning its gate when that is in progress, and putting the scrub in floor mode for a scrub floor; it does nothing before that time. SCRUB_FLOOR_DEADLINE wakes PD8 and removes the floor deadline. DOMAIN_WAKE_DONE with every dependency on takes a waking domain to ON and empties a porch that holds one internal request of it. PD7_REFILL_DONE ends the refill, and changes nothing else where the cache holds every pin. PORCH_ENQUEUE of an internal request for an off domain joins the porch and wakes the domain, is withheld when the porch is full, and changes nothing when the domain is on. Rows: PD_WAKE, HEARTH_DEADLINE, SCRUB_FLOOR_DEADLINE, DOMAIN_WAKE_DONE, PD7_REFILL_DONE, PORCH_ENQUEUE. The conditions and results are exactly those of the Lean clauses. Where it rests on a choice of the model's own rather than a rule: log entries 3, 4, 7, 59. (03_hearth:R65, 03_hearth:R71, 03_hearth:R74, 03_hearth:R75, 03_hearth:R78, 03_hearth:R80, 18_background:R517, 21_registers:R571) -/
def Obligations.WakingAndDeadlines : Prop :=
  (∀ (s : State) (v : BitVec 32), s.decodes s.mgmtFn.1 s.mgmtFn.2 = true → (s.bench 0).detached = false →
    exec (.pdWake v) s = .next (s.unstageHub.putPdWake v)) ∧
  (∀ (s : State) (n : Nat), 1 ≤ n → n ≤ 12 → s.decodes s.mgmtFn.1 s.mgmtFn.2 = true → (s.bench 0).detached = false → s.domainPresent n = true → (s.domain n).state = .off →
    ∃ t, exec (.pdWake (1#32 <<< n)) s = .next t ∧ (t.domain n).state = .waking ∧ (t.domain n).idleSince = s.now ∧ (∀ m, m ≠ n → ¬ m ∈ domainDeps n → t.domain m = s.domain m)) ∧
  (∀ (s : State) (i : Nat) (d : Deadline), s.hearth.deadlines[i]? = some d → d.time.toNat ≤ s.now.toNat →
    s.domainOn d.kind.domain = true → d.kind ≠ .scrubFloor → d.kind ≠ .masterSilence →
    exec (.hearthDeadline i) s = .next { s with hearth := { s.hearth with deadlines := s.hearth.deadlines.eraseIdx i } }) ∧
  (∀ (s : State) (i : Nat) (d : Deadline), s.hearth.deadlines[i]? = some d → d.time.toNat ≤ s.now.toNat →
    (s.domain d.kind.domain).state = .off → s.domainPresent d.kind.domain = true →
    ∃ t, exec (.hearthDeadline i) s = .next t ∧ t.hearth.deadlines = s.hearth.deadlines.eraseIdx i ∧ (t.domain d.kind.domain).state = .waking ∧ t.bg = { s.bg with floor := s.bg.floor || d.kind == .scrubFloor }) ∧
  (∀ (s : State) (i : Nat) (d : Deadline), s.hearth.deadlines[i]? = some d → d.time.toNat ≤ s.now.toNat →
    (s.domain d.kind.domain).gating = true → s.domainPresent d.kind.domain = true →
    ∃ t, exec (.hearthDeadline i) s = .next t ∧ t.domain d.kind.domain = { s.domain d.kind.domain with state := .on, gateAborts := (s.domain d.kind.domain).gateAborts + 1, idleSince := s.now }) ∧
  (∀ (s : State) (i : Nat) (d : Deadline), s.hearth.deadlines[i]? = some d → s.now.toNat < d.time.toNat → exec (.hearthDeadline i) s = .next s) ∧
  (∀ s : State, s.running = true → (s.domain 8).state = .off → s.floorTime.toNat ≤ s.now.toNat →
    ∃ t, exec .scrubFloorDeadline s = .next t ∧ t.bg = { s.bg with floor := true } ∧ (t.domain 8).state = .waking ∧ (∀ d ∈ t.hearth.deadlines, d.kind ≠ .scrubFloor)) ∧
  (∀ (s : State) (n : Nat), (s.domain n).state = .waking → s.depsOn n = true → s.hearth.porch = [] → s.hearth.withheld = [] →
    ∃ t, exec (.domainWakeDone n) s = .next t ∧ t.domain n = { s.domain n with state := .on, idleSince := s.now } ∧ t.hearth.porch = [] ∧ t.hearth.time = s.hearth.time) ∧
  (∀ (s : State) (src : PorchSource) (n k : Nat), n ≠ 0 → (s.domain n).state = .waking → s.depsOn n = true →
    s.hearth.porch = [⟨src, n, k, .internal⟩] → s.hearth.withheld = [] →
    ∃ t, exec (.domainWakeDone n) s = .next t ∧ (t.domain n).state = .on ∧ t.hearth.porch = []) ∧
  (∀ s : State, s.hearth.refilling = true →
    ∃ t, exec .pd7RefillDone s = .next t ∧ t.hearth.refilling = false ∧ t.hearth.time = s.hearth.time) ∧
  (∀ s : State, s.hearth.refilling = true → (∀ e ∈ s.headstock.pins, s.headstock.cache.any e.same = true) → exec .pd7RefillDone s = .next { s with hearth := { s.hearth with refilling := false } }) ∧
  (∀ (s : State) (src : PorchSource) (n k : Nat), s.running = true → n ≠ 0 → s.domainPresent n = true → (s.domain n).state = .off → s.hearth.withheld = [] →
    s.porchFits (s.hearth.porch ++ [⟨src, n, max 1 k, .internal⟩]) = true →
    ∃ t, exec (.porchEnqueue src n k .internal) s = .next t ∧ t.hearth.porch = s.hearth.porch ++ [⟨src, n, max 1 k, .internal⟩] ∧ t.hearth.withheld = [] ∧ (t.domain n).state = .waking) ∧
  (∀ (s : State) (src : PorchSource) (n k : Nat), s.running = true → n ≠ 0 → s.domainPresent n = true → (s.domain n).state = .off → s.hearth.withheld = [] →
    s.porchFits (s.hearth.porch ++ [⟨src, n, max 1 k, .internal⟩]) = false →
    exec (.porchEnqueue src n k .internal) s = .next { s with hearth := { s.hearth with withheld := [⟨src, n, max 1 k, .internal⟩] } }) ∧
  (∀ (s : State) (n k : Nat), s.running = true → n ≠ 0 → s.domainPresent n = true → s.domainOn n = true → exec (.porchEnqueue .internal n k .internal) s = .next s)

/-- Host-port training: PERST_N, training results, detect time-outs and retries. PERST_ASSERT on a port whose link is not up puts it in DOWN, clears width, speed and its retry time, and changes no bench or other port; with the link up, the link is DOWN and NumVFs is 0. PERST_DEASSERT on an enabled port while host ports may train goes to DETECT. LINK_TRAINING_DONE up goes to L0 with the trained width, speed, mode and FAIL_CAUSE 6 only where CXL was refused; a partner of fewer than four lanes, or at 64 GT/s without flit mode, fails with cause 3 or 5. A failure counts TRAIN_FAIL_COUNT and goes back to DETECT, and the fourth in a row, or that of the one attempt of a retry, goes to ABSENT with a retry 1 s later. DETECT_TIMEOUT goes to ABSENT with FAIL_CAUSE 1 and that retry; DETECT_RETRY at its time goes back to DETECT for one attempt, and before it does nothing. Rows: PERST_ASSERT, PERST_DEASSERT, LINK_TRAINING_DONE, DETECT_TIMEOUT, DETECT_RETRY. The conditions and results are exactly those of the Lean clauses. Where it rests on a choice of the model's own rather than a rule: log entries 3, 4, 33. (R87, R89, R90, R92) -/
def Obligations.PortTraining : Prop :=
  (∀ (s : State) (p : Nat), p < s.nPorts → (s.port p).link.isUp = false →
    ∃ t, exec (.perstAssert p) s = .next t ∧ t.port p = { s.port p with perst := true, link := .down, width := 0, speed := 0 } ∧ tabGet t.hearth.detectRetry none p = none ∧ t.benches = s.benches ∧ (∀ q, q ≠ p → t.port q = s.port q)) ∧
  (∀ (s : State) (p : Nat), p < s.nPorts → (s.port p).link.isUp = true →
    ∃ t, exec (.perstAssert p) s = .next t ∧ (t.port p).perst = true ∧ (t.port p).link = .down ∧ (t.port p).width = 0 ∧ (t.port p).numVfs = 0) ∧
  (∀ (s : State) (p : Nat), p < s.nPorts → s.portEnabled p = true → s.hostPhase = true →
    ∃ t, exec (.perstDeassert p) s = .next t ∧ t.port p = { s.port p with perst := false, link := .detect, consecFails := 0, retrying := false } ∧ (∀ q, q ≠ p → t.port q = s.port q)) ∧
  (∀ (s : State) (p : Nat) (w sp : BitVec 3) (flit cxl refused : Bool), w ≠ 0 → (sp = 6 → flit = true) → p < s.nPorts → (s.port p).trains = true → (s.port p).perst = false → s.domainOn (p + 1) = true →
    ∃ t, exec (.linkTrainingDone p (.up w sp flit cxl refused)) s = .next t ∧ (t.port p).link = .l0 ∧ (t.port p).width = w ∧ (t.port p).speed = sp ∧ (t.port p).flit = flit ∧ (t.port p).cxl = cxl ∧ (t.port p).consecFails = 0 ∧ (t.port p).failCause = if refused then 6 else 0) ∧
  (∀ (s : State) (p : Nat) (cause : BitVec 3), p < s.nPorts → (s.port p).link = .training ∨ (s.port p).link = .detect → (s.port p).perst = false → s.domainOn (p + 1) = true → (s.port p).consecFails < 3 → (s.port p).retrying = false →
    ∃ t, exec (.linkTrainingDone p (.failed cause)) s = .next t ∧ t.port p = { s.port p with link := .detect, failCause := cause, trainFails := (s.port p).trainFails + 1, consecFails := (s.port p).consecFails + 1 } ∧ t.benches = s.benches) ∧
  (∀ (s : State) (p : Nat) (cause : BitVec 3), p < s.nPorts → (s.port p).link = .training ∨ (s.port p).link = .detect → (s.port p).perst = false → s.domainOn (p + 1) = true → 3 ≤ (s.port p).consecFails ∨ (s.port p).retrying = true →
    ∃ t, exec (.linkTrainingDone p (.failed cause)) s = .next t ∧ (t.port p).link = .absent ∧ (t.port p).retrying = false ∧ (t.port p).consecFails = min 4 ((s.port p).consecFails + 1) ∧ tabGet t.hearth.detectRetry none p = some (s.now + 1000000)) ∧
  (∀ (s : State) (p : Nat) (w sp : BitVec 3) (flit cxl refused : Bool), w = 0 ∨ (sp = 6 ∧ flit = false) → p < s.nPorts → (s.port p).link = .training ∨ (s.port p).link = .detect → (s.port p).perst = false → s.domainOn (p + 1) = true →
    ∃ t, exec (.linkTrainingDone p (.up w sp flit cxl refused)) s = .next t ∧ (t.port p).link.isUp = false ∧ (t.port p).failCause = (if w = 0 then 3 else 5) ∧ (t.port p).trainFails = (s.port p).trainFails + 1) ∧
  (∀ (s : State) (p : Nat), (s.port p).link = .detect → s.domainOn (p + 1) = true →
    ∃ t, exec (.detectTimeout p) s = .next t ∧ t.port p = { s.port p with link := .absent, failCause := 1, retrying := false } ∧ tabGet t.hearth.detectRetry none p = some (s.now + 1000000)) ∧
  (∀ (s : State) (p : Nat) (d : BitVec 64), tabGet s.hearth.detectRetry none p = some d → d.toNat ≤ s.now.toNat → (s.port p).link = .absent → (s.port p).perst = false →
    ∃ t, exec (.detectRetry p) s = .next t ∧ t.port p = { s.port p with link := .detect, retrying := true } ∧ tabGet t.hearth.detectRetry none p = none) ∧
  (∀ (s : State) (p : Nat) (d : BitVec 64), tabGet s.hearth.detectRetry none p = some d → s.now.toNat < d.toNat → exec (.detectRetry p) s = .next s)

/-- Loss of a host link, CXL loss, FLR, VF Enable and NumVFs. LINK_DOWN, HOT_RESET and DPC_CONTAINMENT on an up port that may train leave it in DETECT with NumVFs 0, and change nothing on a port that is not up; a fatal error that took the link down is logged on the PF and reported. CXL_LOST clears the port's CXL state, keeps its link state and sends nothing. FLR of a VF with no bench only clears the function; with an ACTIVE bench that bench is SWEEPING with cause 2. VF_ENABLE_CLEAR on a port with no VF bench clears VF Enable and every VF's function state and changes no bench. NUMVFS_WRITE stores the value while VF Enable is clear and does nothing while it is set. Rows: LINK_DOWN, HOT_RESET, DPC_CONTAINMENT, CXL_LOST, FLR, VF_ENABLE_CLEAR, NUMVFS_WRITE. The conditions and results are exactly those of the Lean clauses. Where it rests on a choice of the model's own rather than a rule: log entries 3, 33. (R91, R92, R116, R117, R118) -/
def Obligations.LinkLossAndResets : Prop :=
  (∀ (s : State) (c : Instr) (p : Nat) (e : Option AerError), c = .linkDown p e ∨ c = .hotReset p ∨ c = .dpcContainment p → (s.port p).link.isUp = true → s.portEnabled p = true → s.hostPhase = true → (s.port p).perst = false →
    ∃ t, exec c s = .next t ∧ (t.port p).link = .detect ∧ (t.port p).width = 0 ∧ (t.port p).numVfs = 0) ∧
  (∀ (s : State) (c : Instr) (p : Nat) (e : Option AerError), c = .linkDown p e ∨ c = .hotReset p ∨ c = .dpcContainment p → (s.port p).link.isUp = false → exec c s = .next s) ∧
  (∀ (s : State) (p : Nat) (e : AerError), (s.port p).link.isUp = true →
    ∃ t, exec (.linkDown p (some e)) s = .next t ∧ (t.fnAt p 0).aer = [e] ∧ t.out.getLast? = some (.errorMessage p 0 e (Fn.reset.severity e))) ∧
  (∀ (s : State) (p : Nat), (s.port p).cxl = true →
    ∃ t, exec (.cxlLost p) s = .next t ∧ (t.port p).cxl = false ∧ (t.port p).link = (s.port p).link ∧ t.out = s.out) ∧
  (∀ (s : State) (p f : Nat), f ≠ 0 → (s.port p).link.isUp = true → s.fnEnabled p f = true → s.benchOf p f = none →
    exec (.flr p f) s = .next { s with fns := tabDel (p * 64 + f) s.fns }) ∧
  (∀ (s : State) (p f b : Nat), f ≠ 0 → (s.port p).link.isUp = true → s.fnEnabled p f = true → s.benchOf p f = some b → (s.bench b).state = .active →
    ∃ t, exec (.flr p f) s = .next t ∧ (t.bench b).state = .sweeping ∧ (t.bench b).sweepCause = 2) ∧
  (∀ (s : State) (p : Nat), (s.port p).vfEnable = true → (∀ b ∈ s.portBenches p, (s.bench b).fn = 0) →
    ∃ t, exec (.vfEnableClear p) s = .next t ∧ (t.port p).vfEnable = false ∧ t.benches = s.benches ∧ (∀ e ∈ t.fns, e.1 / 64 ≠ p ∨ e.1 % 64 = 0)) ∧
  (∀ (s : State) (p v : Nat), (s.port p).vfEnable = false → v ≤ s.totalVfs p →
    exec (.numvfsWrite p v) s = .next (s.modPort p fun x => { x with numVfs := v })) ∧
  (∀ (s : State) (p v : Nat), (s.port p).vfEnable = true → exec (.numvfsWrite p v) s = .next s)

/-- Configuration requests, function power, link power states, MSI-X table and moderation. CONFIG_REQUEST to a function that is not enabled logs an unsupported request; to a bench in an FLR sweep it is answered with retry status, as are changes of power state and bus master enable; a read is answered with the register's value, and the first answer in HOSTS makes PHASE RUNNING and starts the scrub pass; Memory Space Enable is stored. POWER_STATE_CHANGE and BUS_MASTER_ENABLE_CHANGE store the function's bit, and a function in D3hot may not issue. LINK_POWER_STATE_CHANGE and ASPM_L1_CHANGE move the link between L0, L1, L1.1 or L1.2 and L2, and withdraw half-written notices where the link or the function stops issuing. MSIX_MODERATION_EXPIRY ends the floor of a vector with no held message and sends the held message of an open one. MSIX_ENTRY_WRITE stores one dword of one table entry of the function's bench and counts as a bad access without a bench. Rows: CONFIG_REQUEST, POWER_STATE_CHANGE, BUS_MASTER_ENABLE_CHANGE, LINK_POWER_STATE_CHANGE, ASPM_L1_CHANGE, MSIX_MODERATION_EXPIRY, MSIX_ENTRY_WRITE. The conditions and results are exactly those of the Lean clauses. Where it rests on a choice of the model's own rather than a rule: log entries 3, 33, 54. (R94, R106, R112, R117, R119, R121, R500, R514) -/
def Obligations.ConfigurationAndPower : Prop :=
  (∀ (s : State) (p f : Nat) (a : ConfigAccess), (s.port p).link.isUp = true → s.fnEnabled p f = false →
    exec (.configRequest p f a) s = .next (s.aer p 0 .unsupportedRequest)) ∧
  (∀ (s : State) (p f b : Nat) (a : ConfigAccess), (s.port p).link.isUp = true → s.fnEnabled p f = true → s.benchOf p f = some b → (s.bench b).state = .sweeping → (s.bench b).sweep.map Sweep.flr = some true →
    exec (.configRequest p f a) s = .next { s with out := s.out ++ [.retryStatus p f] }) ∧
  (∀ (s : State) (p f : Nat) (r : ConfigReg), (s.port p).link.isUp = true → s.fnEnabled p f = true → s.portBenches p = [] → s.benchOf p f = none → s.chip.phase = .hosts →
    ∃ t, exec (.configRequest p f (.read r)) s = .next t ∧ t.out = s.out ++ [.configData p f (s.configRead p f r)] ∧ t.chip.phase = .running ∧ t.bg.scrubbing = true ∧ t.bg.position = 0 ∧ t.bg.passStart = s.now ∧ t.fns = s.fns) ∧
  (∀ (s : State) (p f : Nat) (on : Bool), (s.port p).link.isUp = true → s.fnEnabled p f = true → s.portBenches p = [] → s.benchOf p f = none → s.chip.phase = .running →
    exec (.configRequest p f (.memSpace on)) s = .next (s.modFn p f fun x => { x with memSpace := on })) ∧
  (∀ (s : State) (p f : Nat), (s.port p).link.isUp = true → s.fnEnabled p f = true → s.benchOf p f = none →
    ∃ t, exec (.powerStateChange p f true) s = .next t ∧ t.fns = (s.modFn p f fun x => { x with d3hot := true }).fns ∧ t.out = s.out ∧ t.port p = { s.port p with egress := (s.port p).egress.filter fun e => e.notice.isNone || e.fn != f }) ∧
  (∀ (s : State) (p f : Nat), (s.port p).link.isUp = true → s.fnEnabled p f = true → s.benchOf p f = none →
    exec (.powerStateChange p f false) s = .next ((s.modFn p f fun x => { x with d3hot := false }).modPort p fun x => { x with wake := false })) ∧
  (∀ (s : State) (p f b : Nat), (s.port p).link.isUp = true → s.fnEnabled p f = true → s.benchOf p f = some b → s.cfgRetry p f = false →
    ∃ t, exec (.powerStateChange p f true) s = .next t ∧ (t.fnAt p f).d3hot = true ∧ t.fnMayIssue p f = false) ∧
  (∀ (s : State) (p f : Nat) (e : Bool), (s.port p).link.isUp = true → s.fnEnabled p f = true → s.benchOf p f = none →
    ∃ t, exec (.busMasterEnableChange p f e) s = .next t ∧ t.fns = (s.modFn p f fun x => { x with busMaster := e }).fns ∧ t.out = s.out ∧ (e = true → t.ports = s.ports)) ∧
  (∀ (s : State) (p f b : Nat) (e : Bool), (s.port p).link.isUp = true → s.fnEnabled p f = true → s.benchOf p f = some b → (s.bench b).state = .sweeping → (s.bench b).sweep.map Sweep.flr = some true →
    exec (.powerStateChange p f e) s = .next { s with out := s.out ++ [.retryStatus p f] } ∧ exec (.busMasterEnableChange p f e) s = .next { s with out := s.out ++ [.retryStatus p f] }) ∧
  (∀ (s : State) (p : Nat), (s.port p).perst = false → (s.port p).link = .l0 ∨ (s.port p).link = .l1 →
    ∃ t, exec (.linkPowerStateChange p true) s = .next t ∧ t.port p = { s.port p with link := .l2, l11 := false, l12 := false, egress := (s.port p).egress.filter fun e => e.notice.isNone } ∧ t.out = s.out) ∧
  (∀ (s : State) (p : Nat), (s.port p).perst = false → (s.port p).link = .l2 →
    ∃ t, exec (.linkPowerStateChange p false) s = .next t ∧ (t.port p).link = .l0) ∧
  (∀ (s : State) (p : Nat) (a : AspmState), a ≠ .l0 → (s.port p).link = .l0 ∨ (s.port p).link = .l1 →
    ∃ t, exec (.aspmL1Change p a) s = .next t ∧ t.port p = { s.port p with link := .l1, l11 := a == .l11, l12 := a == .l12 } ∧ (t.domain (p + 1)).idleSince = s.now) ∧
  (∀ (s : State) (p : Nat), (s.port p).link = .l1 →
    ∃ t, exec (.aspmL1Change p .l0) s = .next t ∧ t.port p = { s.port p with link := .l0, l11 := false, l12 := false }) ∧
  (∀ (s : State) (b v : Nat), v < 32 → (s.bench b).msix.inFloor.getLsbD v = true → (s.bench b).msix.heldMsg.getLsbD v = false →
    ∃ t, exec (.msixModerationExpiry b v) s = .next t ∧ (t.bench b).msix.inFloor = (s.bench b).msix.inFloor &&& ~~~(1#32 <<< v) ∧ t.ports = s.ports ∧ (∀ c, c ≠ b → t.bench c = s.bench c)) ∧
  (∀ (s : State) (b v : Nat), v < 32 → (s.bench b).msix.inFloor.getLsbD v = true → (s.bench b).msix.heldMsg.getLsbD v = true → s.vectorOpen b v = true →
    ∃ t, exec (.msixModerationExpiry b v) s = .next t ∧ (t.bench b).msix.heldMsg.getLsbD v = false ∧
    (t.port (s.bench b).port).egress = (s.port (s.bench b).port).egress ++ [⟨s.reqFn b, b, 4, 0, false, none, none, .msix (s.bench b).port (s.reqFn b) ((tabGet (s.bench b).msix.table .reset v).addrLo.toNat / 4 * 4 + 2 ^ 32 * (tabGet (s.bench b).msix.table .reset v).addrHi.toNat) (tabGet (s.bench b).msix.table .reset v).data⟩]) ∧
  (∀ (s : State) (p f b v k : Nat) (x : BitVec 32), s.decodes p f = true → s.benchOf p f = some b → (s.bench b).state = .active ∨ (s.bench b).state = .held → v < 32 → k < 4 → (s.bench b).msix.pba = 0#32 →
    ∃ t, exec (.msixEntryWrite p f v k x) s = .next t ∧ tabGet (t.bench b).msix.table .reset v = (tabGet (s.bench b).msix.table .reset v).put k x ∧ (∀ w, w ≠ v → tabGet (t.bench b).msix.table .reset w = tabGet (s.bench b).msix.table .reset w)) ∧
  (∀ (s : State) (p f v k : Nat) (x : BitVec 32), s.decodes p f = true → s.benchOf p f = none → exec (.msixEntryWrite p f v k x) s = .next s.countHub)

/-- BAR2, BAR4 and AtomicOp requests of a host. A decoded BAR2_READ of a function with none waiting that maps to a die queues one request, which goes to a die that is UP with credits free and waits at the port of another; behind a write not yet acknowledged it waits; an unmapped one counts BAR2_MISS and completes with all ones, cut by the port's MPS. BAR2_WRITE forwards its bytes to the die and awaits its acknowledgement, waits behind an earlier write without Relaxed Ordering, counts BAR2_MISS where unmapped, and only logs AER when poisoned. An admitted BAR4_WRITE joins the bench's peer window buffer; without the class right or the enable it counts PEER_DROP. BAR4_READ is an unsupported request, logged and counted in PEER_ERR. ATOMICOP is an unsupported request. A function that does not decode changes nothing. Rows: BAR2_READ, BAR2_WRITE, BAR4_WRITE, BAR4_READ, ATOMICOP. The conditions and results are exactly those of the Lean clauses. Where it rests on a choice of the model's own rather than a rule: log entries 5, 7. (R97, R98, R99, R88, R117, R274, R276, R361, R363, R350, R376) -/
def Obligations.HostMemoryAccess : Prop :=
  (∀ (s : State) (p f off n hid b d o : Nat) (cnt : Bool), s.decodes p f = true → s.domainOn 7 = true → s.bar2Head p f = none → s.putOpen p f false = false → off + n ≤ 2 ^ 36 → s.bar2Bench p f = some b → s.bar2Map b off false = .at d o cnt →
    (s.die d).state = .up → (s.die d).queue = [] → (s.die d).room false (DieMsg.blocks (.hubRead 0 o n)) = true →
    ∃ t, exec (.bar2Read p f off n hid) s = .next t ∧ t.bar2Reads.length = s.bar2Reads.length + 1 ∧ (t.bar2Reads.getLast?.map fun q => (q.die, q.hid, q.port, q.fn, q.length)) = some (d, hid, p, f, n) ∧ t.out = s.out ++ [.die d (.hubRead ((t.bar2Reads.getLast?.map Bar2Req.id).getD 0) o n)] ∧ t.ports = s.ports ∧ t.bar2Queue = s.bar2Queue) ∧
  (∀ (s : State) (p f off n hid b d o : Nat) (cnt : Bool), s.decodes p f = true → s.domainOn 7 = true → s.bar2Head p f = none → s.putOpen p f false = false → off + n ≤ 2 ^ 36 → s.bar2Bench p f = some b → s.bar2Map b off false = .at d o cnt → (s.die d).state ≠ .up →
    ∃ t, exec (.bar2Read p f off n hid) s = .next t ∧ t.bar2Reads.length = s.bar2Reads.length + 1 ∧ (t.die d).queue.length = (s.die d).queue.length + 1 ∧ t.out = s.out ∧ t.ports = s.ports) ∧
  (∀ (s : State) (p f off n hid : Nat), s.decodes p f = true → s.domainOn 7 = true → s.bar2Head p f = none → s.putOpen p f false = true → off + n ≤ 2 ^ 36 →
    ∃ t, exec (.bar2Read p f off n hid) s = .next t ∧ t = { s with bar2Queue := s.bar2Queue ++ [⟨p, f, .read off n hid, false⟩] }) ∧
  (∀ (s : State) (p f off n hid b : Nat), s.decodes p f = true → s.domainOn 7 = true → s.bar2Head p f = none → s.putOpen p f false = false → off + n ≤ 2 ^ 36 → s.bar2Bench p f = some b → s.bar2Map b off false = .unmapped →
    ∃ t, exec (.bar2Read p f off n hid) s = .next t ∧ (t.bench b).counters.bar2Miss = (s.bench b).counters.bar2Miss + 1 ∧ ((t.port p).egress.map EgressTlp.tlp) = (s.port p).egress.map EgressTlp.tlp ++ (splitCpl (pcieSize (s.port p).mps) n off (List.replicate n 0xFF)).map (Out.completion p f hid .ok) ∧ t.out = s.out) ∧
  (∀ (s : State) (p f off b d o : Nat) (data : List (Byte × Bool)) (cnt ro : Bool), s.decodes p f = true → s.domainOn 7 = true → s.bar2Head p f = none → ro = true ∨ s.putOpen p f false = false → off + data.length ≤ 2 ^ 36 → s.bar2Bench p f = some b → s.bar2Map b off true = .at d o cnt →
    (s.die d).state = .up → (s.die d).queue = [] → (s.die d).room false (DieMsg.blocks (.hubWrite none o data)) = true →
    ∃ t, exec (.bar2Write p f off data false ro) s = .next t ∧ t.out = s.out ++ [.die d (.hubWrite (some s.nextPut) o data)] ∧ t.bar2Writes = s.bar2Writes ++ [⟨s.nextPut, d, p, f, false⟩] ∧ t.ports = s.ports ∧ t.bar2Reads = s.bar2Reads) ∧
  (∀ (s : State) (p f off : Nat) (data : List (Byte × Bool)), s.decodes p f = true → s.domainOn 7 = true → s.bar2Head p f = none → s.putOpen p f false = true → off + data.length ≤ 2 ^ 36 →
    ∃ t, exec (.bar2Write p f off data false false) s = .next t ∧ t.bar2Queue = s.bar2Queue ++ [⟨p, f, .write off data false, false⟩] ∧ t.bar2Writes = s.bar2Writes ∧ t.out = s.out) ∧
  (∀ (s : State) (p f off b : Nat) (data : List (Byte × Bool)) (ro : Bool), s.decodes p f = true → s.domainOn 7 = true → s.bar2Head p f = none → ro = true ∨ s.putOpen p f false = false → off + data.length ≤ 2 ^ 36 → s.bar2Bench p f = some b → s.bar2Map b off true = .unmapped →
    ∃ t, exec (.bar2Write p f off data false ro) s = .next t ∧ (t.bench b).counters.bar2Miss = (s.bench b).counters.bar2Miss + 1 ∧ t.out = s.out) ∧
  (∀ (s : State) (p f off : Nat) (data : List (Byte × Bool)) (ro : Bool), s.decodes p f = true → s.domainOn 7 = true → off + data.length ≤ 2 ^ 36 →
    exec (.bar2Write p f off data true ro) s = .next ((s.portIn p data.length).aer p f .poisonedTlp)) ∧
  (∀ (s : State) (p f off q b : Nat) (data : List (Byte × Bool)) (ro : Bool), off + data.length ≤ 2 ^ 34 → s.decodes p f = true → s.domainOn 7 = true → s.benchOf p f = some b → s.benchServes b = true → s.classHas b BenchClass.peerAllowed = true →
    (s.bench b).peer.enable = true → (s.bench b).peer.admits q = true → s.streamAt b off = none → (s.port p).peerBytes + data.length ≤ 131072 → s.peerStalled p = false →
    ∃ t, exec (.bar4Write p f off q data false ro) s = .next t ∧ (t.bench b).peer = { (s.bench b).peer with buffered := (s.bench b).peer.buffered ++ [(off, data, ro)] } ∧ (t.port p).peerBytes = (s.port p).peerBytes + data.length ∧ t.out = s.out) ∧
  (∀ (s : State) (p f off q b : Nat) (data : List (Byte × Bool)) (poisoned ro : Bool), off + data.length ≤ 2 ^ 34 → s.decodes p f = true → s.domainOn 7 = true → s.benchOf p f = some b → s.classHas b BenchClass.peerAllowed = false ∨ (s.bench b).peer.enable = false →
    ∃ t, exec (.bar4Write p f off q data poisoned ro) s = .next t ∧ (t.bench b).counters.peerDrop = (s.bench b).counters.peerDrop + 1 ∧ (t.bench b).peer = (s.bench b).peer ∧ t.out = s.out) ∧
  (∀ (s : State) (p f hid b : Nat), s.decodes p f = true → s.benchOf p f = some b →
    ∃ t, exec (.bar4Read p f hid) s = .next t ∧ (t.bench b).counters.peerErr = (s.bench b).counters.peerErr + 1 ∧ (t.fnAt p f).aer = (s.fnAt p f).aer ++ [.unsupportedRequest] ∧ ((t.port p).egress.getLast?.map EgressTlp.tlp) = some (.completion p f hid .unsupportedRequest [])) ∧
  (∀ (s : State) (p f k hid : Nat), s.decodes p f = true →
    ∃ t, exec (.atomicop p f k hid) s = .next t ∧ (t.fnAt p f).aer = (s.fnAt p f).aer ++ [.unsupportedRequest] ∧ ((t.port p).egress.getLast?.map EgressTlp.tlp) = some (.completion p f hid .unsupportedRequest []) ∧ t.benches = s.benches) ∧
  (∀ (s : State) (c : Instr) (p f off n hid q : Nat) (data : List (Byte × Bool)) (po ro : Bool), s.decodes p f = false →
    c = .bar2Read p f off n hid ∨ c = .bar2Write p f off data po ro ∨ c = .bar4Write p f off q data po ro ∨ c = .bar4Read p f hid ∨ c = .atomicop p f n hid →
    exec c s = .next s)

/-- Egress, host completions, ATS, invalidate requests and page responses of a port. EGRESS_GRANT sends the one ready TLP of a port, a non-posted one under a tag that it takes, and nothing where none is ready. HOST_COMPLETION for an unused tag is an unexpected completion; data of a lathe read is delivered to it; the flush of an invalidate ends. COMPLETION_TIMEOUT logs AER and frees the tag. ATS_TRANSLATION_COMPLETION installs the translation of the one waiting miss. INVALIDATE_REQUEST removes the bench's overlapping Mode S entries and waits, behind a flush read where the bench has written by a translation; with no bench it only waits; without room it is kept outside. INVALIDATE_COMPLETION goes out once flushed and unblocked. PRI_RESPONSE success retries the fault of that group; Response Failure sets the function's failure bit. Rows: EGRESS_GRANT, HOST_COMPLETION, COMPLETION_TIMEOUT, ATS_TRANSLATION_COMPLETION, INVALIDATE_REQUEST, INVALIDATE_COMPLETION, PRI_RESPONSE. The conditions and results are exactly those of the Lean clauses. Where it rests on a choice of the model's own rather than a rule: log entries 5, 8, 38, 74. (R102, R103, R104, R105, R107, R108, R109, R286, R288, R323) -/
def Obligations.PortTraffic : Prop :=
  (∀ (s : State) (p : Nat) (x : EgressTlp), (s.port p).egress = [x] → s.tlpReady p x = true → x.owner = none → x.notice ≠ some true →
    ∃ t, exec (.egressGrant p) s = .next t ∧ t.out = s.out ++ [x.tlp] ∧ (t.port p).egress = []) ∧
  (∀ (s : State) (p n : Nat) (x : EgressTlp) (o : TagOwner), (s.port p).egress = [x] → s.tlpReady p x = true → x.owner = some o → x.notice = none → lowestTag ((s.port p).tags.map TagUse.tag) (s.port p).tagLimit 0 = some n →
    ∃ t, exec (.egressGrant p) s = .next t ∧ t.out = s.out ++ [x.tlp.withTag n] ∧ (t.port p).egress = [] ∧ (t.port p).tags = (s.port p).tags ++ [⟨n, x.fn, x.bench, o, false⟩]) ∧
  (∀ (s : State) (p : Nat), (∀ x ∈ (s.port p).egress, s.tlpReady p x = false) →
    ∃ t, exec (.egressGrant p) s = .next t ∧ t.out = s.out ∧ t.ports = s.ports) ∧
  (∀ (s : State) (p g : Nat) (st : CplStatus) (data : List Byte), s.tagUse p g = none →
    exec (.hostCompletion p g st data) s = .next (s.aer p 0 .unexpectedCompletion)) ∧
  (∀ (s : State) (p g l c n : Nat) (u : TagUse) (data : List Byte), s.tagUse p g = some u → u.owner = .latheRead l c n →
    exec (.hostCompletion p g .ok data) s = .next (((s.portIn p data.length).freeTag p g).deliver l n data)) ∧
  (∀ (s : State) (p g f i : Nat) (u : TagUse), s.tagUse p g = some u → u.owner = .invFlush f i →
    ∃ t, exec (.hostCompletion p g .ok []) s = .next t ∧ (t.port p).tags = (s.port p).tags.filter (fun v => v.tag != g) ∧ (∀ q ∈ (t.port p).invalidates, q.itag = i → q.fn = f → q.flush = false)) ∧
  (∀ (s : State) (p g : Nat) (u : TagUse), s.tagUse p g = some u →
    exec (.completionTimeout p g) s = .next ((s.aer p u.fn .completionTimeout).failTag p u 0x21)) ∧
  (∀ (s : State) (p g f i : Nat) (u : TagUse), s.tagUse p g = some u → u.tag = g → u.owner = .invFlush f i →
    ∃ t, exec (.completionTimeout p g) s = .next t ∧ (t.fnAt p u.fn).aer = (s.fnAt p u.fn).aer ++ [.completionTimeout] ∧ (t.port p).tags = (s.port p).tags.filter (fun v => v.tag != g)) ∧
  (∀ (s : State) (p g size addr : Nat) (w : Bool) (u : TagUse) (m : Miss), s.tagUse p g = some u → u.owner = .ats m.id → s.headstock.misses = [m] → m.stale = false → m.waiters = [] → (s.bench m.bench).state ≠ .vacant →
    exec (.atsTranslationCompletion p g (.translated size addr true w false)) s = .next (((s.freeTag p g).endMiss m).install (atsEntry m.bench (pasidTag m.pasid) m.page size addr w) m.prefetchOnly)) ∧
  (∀ (s : State) (p f i base len b : Nat) (pasid : Option Nat), (s.port p).invalidates = [] → (s.port p).invWaiting = [] → s.benchOf p f = some b → (s.bench b).rings = [] → (s.bench b).posted = none →
    ∃ t, exec (.invalidateRequest p f i base len pasid) s = .next t ∧ t.headstock.cache = s.headstock.cache.filter (fun e => !(e.bench == b && !e.modeD && (pasid.isNone || pasid == some e.pasid) && e.overlaps base len)) ∧ ((t.port p).invalidates.map fun q => (q.fn, q.itag, q.flush)) = [(f, i, false)]) ∧
  (∀ (s : State) (p f i base len : Nat) (pasid : Option Nat), (s.port p).invalidates = [] → (s.port p).invWaiting = [] → s.benchOf p f = none →
    exec (.invalidateRequest p f i base len pasid) s = .next ((s.stir 7).modPort p fun x => { x with invalidates := x.invalidates ++ [⟨f, i, base, len, pasid, [], false⟩] })) ∧
  (∀ (s : State) (p f i base len b : Nat) (pasid : Option Nat) (a : BitVec 64), (s.port p).invalidates = [] → (s.port p).invWaiting = [] → s.benchOf p f = some b → (s.bench b).port = p → (s.bench b).rings = [] → (s.bench b).posted = some a →
    ∃ t, exec (.invalidateRequest p f i base len pasid) s = .next t ∧ ((t.port p).invalidates.map fun q => (q.fn, q.itag, q.flush)) = [(f, i, true)] ∧ ((t.port p).egress.getLast?.map EgressTlp.owner) = some (some (.invFlush f i))) ∧
  (∀ (s : State) (p f i base len : Nat) (pasid : Option Nat), (s.port p).invRoom f = false ∨ (s.port p).invWaiting ≠ [] →
    exec (.invalidateRequest p f i base len pasid) s = .next (s.modPort p fun x => { x with invWaiting := x.invWaiting ++ [(f, i, base, len, pasid)] })) ∧
  (∀ (s : State) (p f i : Nat) (q : InvRequest), (s.port p).invalidates = [q] → q.fn = f → q.itag = i → q.flush = false → q.barrier = [] → (s.port p).invWaiting = [] →
    ∃ t, exec (.invalidateCompletion p f i) s = .next t ∧ (t.port p).invalidates = [] ∧ ((t.port p).egress.getLast?.map EgressTlp.tlp) = some (.invCompletion p f i)) ∧
  (∀ (s : State) (p f i : Nat) (q : InvRequest), (s.port p).invalidates = [q] → q.fn = f → q.itag = i → q.flush = true → exec (.invalidateCompletion p f i) s = .next s) ∧
  (∀ (s : State) (p f g i : Nat) (x : FaultRec), s.headstock.pageReqs = [⟨p, f, g, some i⟩] → s.fault i = some x → x.state = .priSent → (∀ e ∈ s.headstock.faults, ∀ y, e.2 = some y → y.state ≠ .posted) →
    ∃ t, exec (.priResponse p f g .success) s = .next t ∧ t.headstock.pageReqs = [] ∧ ((t.fault i).map fun y => (y.state, y.successes)) = some (.retrying, x.successes + 1) ∧ t.fns = s.fns) ∧
  (∀ (s : State) (p f g : Nat), s.headstock.pageReqs = [⟨p, f, g, none⟩] →
    exec (.priResponse p f g .responseFailure) s = .next (({ s with headstock := { s.headstock with pageReqs := [] } }.modFn p f fun x => { x with priFailure := true }).pumpPri p))

/-- Headstock misses, table walks, prefetch trackers, access counts and their decay. MISS_SLOT_GRANT and WALKER_GRANT move the one waiting Mode D miss on by one stage and change nothing else of the benches. WALK_DONE ends the miss: an uncorrectable error logs one entry and installs nothing; otherwise the walk's outcome is installed and the walk cache filled. TRACKER_EXPIRY drops exactly that stream's trackers unused for 100 us. COUNT_UPDATE applies the oldest queued count: a region below its threshold counts one. COUNT_DECAY once a second decays every region of the bench. DECAY_OVERDUE raises the floor 500 ms after the decay began, not before. Rows: MISS_SLOT_GRANT, WALKER_GRANT, WALK_DONE, TRACKER_EXPIRY, COUNT_UPDATE, COUNT_DECAY, DECAY_OVERDUE. The conditions and results are exactly those of the Lean clauses. Where it rests on a choice of the model's own rather than a rule: log entries 3, 4, 38, 39. (R283, R284, R311, R313, R331, R333, R510, R523) -/
def Obligations.MissesAndWalks : Prop :=
  (∀ (s : State) (m : Miss), s.headstock.misses = [m] → m.stage = .queued → m.modeD = true →
    ∃ t, exec .missSlotGrant s = .next t ∧ t.headstock = { s.headstock with misses := [{ m with stage := .slotted }] } ∧ t.benches = s.benches ∧ t.out = s.out) ∧
  (∀ (s : State) (m : Miss), s.headstock.misses = [m] → m.stage = .slotted → m.modeD = true →
    ∃ t, exec .walkerGrant s = .next t ∧ t.headstock = { s.headstock with misses := [{ m with stage := .walking }] } ∧ t.benches = s.benches ∧ t.out = s.out) ∧
  (∀ (s : State) (m : Miss) (a : BitVec 64), s.headstock.misses = [m] → m.stage = .walking → m.modeD = true → m.stale = false → m.waiters = [] →
    ∃ t, exec (.walkDone m.bench m.page (some a)) s = .next t ∧ t.headstock.misses = [] ∧ t.headstock.cache = s.headstock.cache ∧ t.recovery.logSeq = s.recovery.logSeq + 1) ∧
  (∀ (s : State) (m : Miss), s.headstock.misses = [m] → m.stage = .walking → m.modeD = true → m.stale = false → m.waiters = [] →
    exec (.walkDone m.bench m.page none) s = .next (((s.endMiss m).installWalk m (m.page * 4096)).fillWalkCache m.bench (m.page * 4096)).pumpInvAcks) ∧
  (∀ (s : State) (b n : Nat), ∃ t, exec (.trackerExpiry b n) s = .next t ∧ t.headstock = { s.headstock with trackers := s.headstock.trackers.filter fun x => !(x.bench == b && x.stream == n && decide (x.used.toNat + 100 ≤ s.now.toNat)) } ∧ t.benches = s.benches) ∧
  (∀ (s : State) (b n : Nat) (l : List (Nat × Nat)), s.headstock.counts = (b, n) :: l → (s.bench b).state ≠ .vacant →
    exec .countUpdate s = .next ({ s with headstock := { s.headstock with counts := l } }.applyCount b n)) ∧
  (∀ (s : State) (b n : Nat) (l : List (Nat × Nat)) (r : Region), s.headstock.counts = (b, n) :: l → (s.bench b).state ≠ .vacant → s.region b n = some r → r.count + 1 < s.hotThreshold b → r.count < 0xFFFFFFFF →
    ∃ t, exec .countUpdate s = .next t ∧ t.headstock.counts = l ∧ t.region b n = some { r with count := r.count + 1 }) ∧
  (∀ (s : State) (b : Nat), s.running = true → s.headstock.decaySecond < s.now.toNat / 1000000 → s.liveBenches = [b] → s.hotThreshold b ≠ 0 →
    ∃ t, exec .countDecay s = .next t ∧ t.headstock.decaySecond = s.now.toNat / 1000000 ∧ (t.bench b).regions = (s.bench b).regions.map (fun e => (e.1, e.2.map fun r => r.decay (s.hotThreshold b))) ∧ (∀ c, c ≠ b → t.bench c = s.bench c)) ∧
  (∀ (s : State) (d : BitVec 64), s.headstock.decayStart = some d → d.toNat + 500000 ≤ s.now.toNat →
    exec .decayOverdue s = .next { s with headstock := { s.headstock with decayFloor := true } }) ∧
  (∀ (s : State) (d : BitVec 64), s.headstock.decayStart = some d → s.now.toNat < d.toNat + 500000 → exec .decayOverdue s = .next s)

/-- The invalidation ring: enabling, doorbell, entries, token, resume, and other hubs' copies. INV_RING_ENABLE with a size of 4 to 12 clears the ring's counts and keeps its base. INV_DOORBELL takes a tail within the ring and counts a bad one. SET_ENTRY, INVALIDATE, PIN_LOAD and TOKEN are read from host memory and, well formed, have their effect and move the head by one; a failing SET_ENTRY stops the ring with its code; an entry with a path reads back what was set. INVALIDATE removes exactly the overlapping Mode D entries of the bench. TOKEN_COMPLETE writes the 4-byte token to host memory with bit 31 for a failed pin. INV_RESUME passes the failing entry. XLATE_INV_RECEIVED for a guest sets its entry and acknowledges once nothing is outstanding under it, and XLATE_INV_ACK ends the wait for that message. Rows: INV_RING_ENABLE, INV_DOORBELL, SET_ENTRY, INVALIDATE, PIN_LOAD, TOKEN, TOKEN_COMPLETE, INV_RESUME, XLATE_INV_RECEIVED, XLATE_INV_ACK. The conditions and results are exactly those of the Lean clauses. Where it rests on a choice of the model's own rather than a rule: log entries 1, 5, 38, 51. (R303, R304, R305, R306, R307, R308, R571, R457) -/
def Obligations.InvalidationRing : Prop :=
  (∀ (s : State) (b : Nat) (v : BitVec 32), s.decodes s.mgmtFn.1 s.mgmtFn.2 = true → (s.bench 0).detached = false → b < s.nBenches → (s.bench b).state ≠ .vacant → (s.bench b).invRing.enable = false → v.getLsbD 0 = true → 4 ≤ (v.extractLsb' 16 4).toNat → (v.extractLsb' 16 4).toNat ≤ 12 →
    ∃ t, exec (.invRingEnable b v) s = .next t ∧ (t.bench b).invRing.enable = true ∧ (t.bench b).invRing.log2 = v.extractLsb' 16 4 ∧ (t.bench b).invRing.head = 0 ∧ (t.bench b).invRing.tail = 0 ∧ (t.bench b).invRing.stopped = false ∧ (t.bench b).invRing.base = (s.bench b).invRing.base ∧ (∀ c, c ≠ b → t.bench c = s.bench c)) ∧
  (∀ (s : State) (b : Nat) (v : BitVec 32), s.decodes s.mgmtFn.1 s.mgmtFn.2 = true → (s.bench 0).detached = false → b < s.nBenches → (s.bench b).state ≠ .vacant → (s.bench b).invRing.enable = true → 0 < (v - (s.bench b).invRing.tail).toInt → (v - (s.bench b).invRing.head).toNat ≤ 2 ^ (s.bench b).invRing.log2.toNat →
    ∃ t, exec (.invDoorbell b v) s = .next t ∧ (t.bench b).invRing = { (s.bench b).invRing with tail := v } ∧ t.chip.badAccess = s.chip.badAccess) ∧
  (∀ (s : State) (b : Nat) (v : BitVec 32), s.decodes s.mgmtFn.1 s.mgmtFn.2 = true → (s.bench 0).detached = false → b < s.nBenches → (s.bench b).state ≠ .vacant → (s.bench b).invRing.enable = true → 0 < (v - (s.bench b).invRing.tail).toInt → 2 ^ (s.bench b).invRing.log2.toNat < (v - (s.bench b).invRing.head).toNat →
    ∃ t, exec (.invDoorbell b v) s = .next t ∧ t.benches = s.benches ∧ t.chip.badAccess = s.chip.badAccess + 1) ∧
  (∀ (s : State) (b : Nat) (e : List Byte), s.invReads b = true → s.migHolds b (field e 8 8) 4096 = false → s.structureHeld .table b = false → field e 0 1 = 1 → 1 ≤ field e 1 1 → field e 1 1 ≤ 4 → zeroBytes e 3 5 = true → zeroBytes e 24 8 = true → invDvaOk e = true → field e 2 1 = 255 → ((s.readInv b).setEntry b (field e 1 1) (field e 8 8) (field e 16 8)).1 = 0 →
    exec (.setEntry b e) s = .next (((s.readInv b).setEntry b (field e 1 1) (field e 8 8) (field e 16 8)).2.invNext b)) ∧
  (∀ (s : State) (b c : Nat) (e : List Byte), s.invReads b = true → s.migHolds b (field e 8 8) 4096 = false → s.structureHeld .table b = false → field e 0 1 = 1 → 1 ≤ field e 1 1 → field e 1 1 ≤ 4 → zeroBytes e 3 5 = true → zeroBytes e 24 8 = true → invDvaOk e = true → field e 2 1 = 255 → ((s.readInv b).setEntry b (field e 1 1) (field e 8 8) (field e 16 8)).1 = c → c ≠ 0 →
    exec (.setEntry b e) s = .next (((s.readInv b).setEntry b (field e 1 1) (field e 8 8) (field e 16 8)).2.invStop b (BitVec.ofNat 4 c))) ∧
  (∀ (s : State) (b level dva v : Nat), b < 256 → (((s.tableOf b).pathPage level dva).bind ((s.tableOf b).page level)).isSome = true → nonLeafAt level v = false → 1 ≤ level → level ≤ 4 → v < 2 ^ 64 →
    (s.setEntry b level dva v).1 = 0 ∧ ((s.setEntry b level dva v).2.tableOf b).entry level dva = v) ∧
  (∀ (s : State) (b : Nat) (e : List Byte), s.invReads b = true → s.migHolds b (field e 8 8) (field e 16 8) = false → field e 0 1 = 2 → zeroBytes e 1 7 = true → zeroBytes e 24 8 = true → invDvaOk e = true → field e 16 8 % 4096 = 0 → field e 16 8 ≠ 0 → s.holdersOf b = [] →
    ∃ t, exec (.invalidate b e) s = .next t ∧ t.headstock.cache = s.headstock.cache.filter (fun x => !(x.bench == b && x.modeD && x.overlaps (field e 8 8) (field e 16 8))) ∧ (t.bench b).invRing.head = (s.bench b).invRing.head + 1) ∧
  (∀ (s : State) (b : Nat) (e : List Byte), s.invReads b = true → s.migHolds b (field e 8 8) (field e 16 8) = false → field e 0 1 = 3 → zeroBytes e 1 7 = true → zeroBytes e 24 8 = true → invDvaOk e = true → field e 16 8 % 4096 = 0 → field e 16 8 ≠ 0 → s.holdersOf b = [] →
    ∃ t, exec (.pinLoad b e) s = .next t ∧ (t.bench b).invRing.head = (s.bench b).invRing.head + 1 ∧ t.headstock.cache = s.headstock.cache ∧ t.out = (s.readInv b).out) ∧
  (∀ (s : State) (b : Nat) (e : List Byte), s.invReads b = true → field e 0 1 = 4 → zeroBytes e 1 7 = true → zeroBytes e 24 8 = true → field e 8 8 % 4 = 0 → field e 16 8 < 2 ^ 31 →
    ∃ t, exec (.token b e) s = .next t ∧ (t.bench b).invRing.token = some (BitVec.ofNat 64 (field e 8 8), BitVec.ofNat 31 (field e 16 8)) ∧ (t.bench b).invRing.head = (s.bench b).invRing.head + 1) ∧
  (∀ (s : State) (b : Nat) (a : BitVec 64) (v : BitVec 31), b < 256 → (s.bench b).invRing.token = some (a, v) → (s.bench b).invRing.unacked = [] → (s.bench b).invRing.barrier = [] → s.tokenWalks b = false → s.fnMayIssue s.mgmtFn.1 0 = true →
    ∃ t, exec (.tokenComplete b) s = .next t ∧ (t.bench b).tokenDone = true ∧ (t.bench b).lastToken = v ∧ (t.bench b).invRing.token = none ∧ (t.bench b).invRing.tokenDone = true ∧ t.headstock.tablePages = s.headstock.tablePages - (s.bench b).modeD.limbo.length ∧
    ((t.port s.mgmtFn.1).egress.getLast?.map EgressTlp.tlp) = some (.hostWrite s.mgmtFn.1 0 plainAttr a.toNat (leBytes 4 (v.toNat + if (s.bench b).invRing.pinFailed then 2 ^ 31 else 0)))) ∧
  (∀ (s : State) (b : Nat), s.decodes s.mgmtFn.1 s.mgmtFn.2 = true → (s.bench 0).detached = false → b < s.nBenches → (s.bench b).state ≠ .vacant → (s.bench b).invRing.stopped = true →
    ∃ t, exec (.invResume b) s = .next t ∧ (t.bench b).invRing = { (s.bench b).invRing with stopped := false, code := 0, head := (s.bench b).invRing.head + 1 }) ∧
  (∀ (s : State) (h b : Nat) (i : BitVec 16) (e : List Byte) (n : BitVec 32), s.guestSlot h b = none → exec (.xlateInvReceived h b i e n) s = .next s.staleMessage) ∧
  (∀ (s u : State) (h b g : Nat) (i : BitVec 16) (e : List Byte) (n : BitVec 32), s.guestSlot h b = some g → ((s.guest g).map Guest.incarn) = some i → field e 0 1 = 1 → u = (s.setEntry (256 + g) (field e 1 1) (field e 8 8) (field e 16 8)).2 →
    exec (.xlateInvReceived h b i e n) s = .next (u.setGuest g ((u.guest g).map fun x => { x with unanswered := x.unanswered ++ [(n, [])] })).pumpInvAcks) ∧
  (∀ (s : State) (h b g : Nat) (x : Guest) (e : List Byte) (n : BitVec 32), s.cascade.guests = [(g, some x)] → x.home = h → x.bench = b → x.unanswered = [] → s.headstock.misses = [] → s.routed h = true → field e 0 1 = 1 →
    ∃ t, exec (.xlateInvReceived h b x.incarn e n) s = .next t ∧ t.out = s.out ++ [.envan h (.xlateInvAck b n)] ∧ (t.guest g).map Guest.unanswered = some []) ∧
  (∀ (s : State) (h b : Nat) (n : BitVec 32), (s.bench b).state ≠ .vacant →
    ∃ t, exec (.xlateInvAck h b n) s = .next t ∧ (t.bench b).invRing = { (s.bench b).invRing with unacked := (s.bench b).invRing.unacked.filter fun q => q != (h, n) } ∧ (∀ c, c ≠ b → t.bench c = s.bench c))

/-- Fault commands, fault search, and region queries. FAULT_CMD_RETRY on a posted fault makes it RETRYING and counts the retry of a Mode D one; FAULT_CMD_FATAL ends it; both count a bad access for a fault index with no record. FAULT_FIND stores its fields and selects the one matching record from its start on. FAULT_READ moves the selection on by one modulo the number of records. REGION_QUERY_SEL selects the first region at or after the one named, or none, and REGION_QUERY moves on to the next. Rows: FAULT_CMD_RETRY, FAULT_CMD_FATAL, FAULT_FIND, FAULT_READ, REGION_QUERY_SEL, REGION_QUERY. The conditions and results are exactly those of the Lean clauses. Where it rests on a choice of the model's own rather than a rule: log entry 1. (R320, R322, R571, R583) -/
def Obligations.FaultsAndRegionQueries : Prop :=
  (∀ (s : State) (i : Nat) (f : FaultRec), s.decodes s.mgmtFn.1 s.mgmtFn.2 = true → (s.bench 0).detached = false → s.fault i = some f → f.state = .posted → f.retries ≠ 0xFFFF →
    ∃ t, exec (.faultCmdRetry i) s = .next t ∧ t.fault i = some { f with state := .retrying, retries := if f.modeD then f.retries + 1 else f.retries } ∧ t.chip.badAccess = s.chip.badAccess) ∧
  (∀ (s : State) (i : Nat) (f : FaultRec), s.decodes s.mgmtFn.1 s.mgmtFn.2 = true → (s.bench 0).detached = false → s.fault i = some f →
    exec (.faultCmdFatal i) s = .next (s.unstageHub.faultEnds i 0x10 6)) ∧
  (∀ (s : State) (i : Nat) (c : Instr), s.decodes s.mgmtFn.1 s.mgmtFn.2 = true → (s.bench 0).detached = false → s.fault i = none → c = .faultCmdRetry i ∨ c = .faultCmdFatal i →
    exec c s = .next s.unstageHub.countHub) ∧
  (∀ (s : State) (v : BitVec 32), s.decodes s.mgmtFn.1 s.mgmtFn.2 = true → (s.bench 0).detached = false →
    ∃ t, exec (.faultFind v) s = .next t ∧ t.headstock.findBench = v.extractLsb' 0 8 ∧ t.headstock.findStart = v.extractLsb' 16 12 ∧ t.headstock.faults = s.headstock.faults) ∧
  (∀ (s : State) (v : BitVec 32) (i : Nat) (f : FaultRec), s.decodes s.mgmtFn.1 s.mgmtFn.2 = true → (s.bench 0).detached = false → s.headstock.faults = [(i, some f)] → i < 4096 → f.bench = (v.extractLsb' 0 8).toNat → (v.extractLsb' 16 12).toNat ≤ i →
    ∃ t, exec (.faultFind v) s = .next t ∧ t.headstock.findFound = true ∧ t.headstock.faultSel = BitVec.ofNat 12 i) ∧
  (∀ s : State, s.running = true → exec .faultRead s = .next { s with headstock := { s.headstock with faultSel := BitVec.ofNat 12 ((s.headstock.faultSel.toNat + 1) % s.nFaults) } }) ∧
  (∀ (s : State) (v : BitVec 64) (k : Nat), s.decodes s.mgmtFn.1 s.mgmtFn.2 = true → (s.bench 0).detached = false → s.regionFrom (v.extractLsb' 48 8).toNat (v.extractLsb' 16 32).toNat = some k →
    ∃ t, exec (.regionQuerySel v) s = .next t ∧ t.headstock = { s.headstock with queryBench := v.extractLsb' 48 8, queryRegion := BitVec.ofNat 32 k, queryFound := true }) ∧
  (∀ (s : State) (v : BitVec 64), s.decodes s.mgmtFn.1 s.mgmtFn.2 = true → (s.bench 0).detached = false → s.regionFrom (v.extractLsb' 48 8).toNat (v.extractLsb' 16 32).toNat = none →
    ∃ t, exec (.regionQuerySel v) s = .next t ∧ t.headstock = { s.headstock with queryBench := v.extractLsb' 48 8, queryRegion := v.extractLsb' 16 32, queryFound := false }) ∧
  (∀ s : State, s.running = true → s.headstock.queryFound = true → s.regionFrom s.headstock.queryBench.toNat (s.headstock.queryRegion.toNat + 1) = none →
    exec .regionQuery s = .next { s with headstock := { s.headstock with queryFound := false } }) ∧
  (∀ (s : State) (k : Nat), s.running = true → s.headstock.queryFound = true → s.regionFrom s.headstock.queryBench.toNat (s.headstock.queryRegion.toNat + 1) = some k →
    exec .regionQuery s = .next { s with headstock := { s.headstock with queryRegion := BitVec.ofNat 32 k } })

/-- Register reads and writes through BAR0 of a function. A decoded REGISTER_READ whose domain is on completes successfully with the bytes of the read; a REGISTER_WRITE has the write's effect; a function that does not decode, or an offset beyond 1 MiB, changes nothing. From the management function: HUB_IDENT of an AX5216 reads 0x5216B001; BAD_ACCESS is stored as written; a 4-byte read of a hole of the hub block counts and completes with ones; a misaligned 4-byte write that meets more than registers of absent units is discarded and counted; with bench 0 detached, a write is discarded and counted. Rows: REGISTER_READ, REGISTER_WRITE. The conditions and results are exactly those of the Lean clauses. Where it rests on a choice of the model's own rather than a rule: log entries 1, 7, 26. (R5, R94, R96, R99, R565, R569, R574) -/
def Obligations.RegisterAccess : Prop :=
  (∀ (s : State) (a : RegAccess) (hid : Nat), a.dap = false → s.decodes a.port a.fn = true → a.offset < 0x100000 → s.barDomain a = 0 ∨ (s.domainPresent (s.barDomain a) = true ∧ s.domainOn (s.barDomain a) = true) →
    exec (.registerRead a hid) s = .next ((s.barRead a).2.complete a.port a.fn hid a.offset .ok (s.barRead a).1)) ∧
  (∀ (s : State) (a : RegAccess), a.dap = false → s.decodes a.port a.fn = true → a.offset < 0x100000 → s.barDomain a = 0 ∨ (s.domainPresent (s.barDomain a) = true ∧ s.domainOn (s.barDomain a) = true) →
    exec (.registerWrite a) s = .next ((s.portIn a.port a.data.length).barWrite a)) ∧
  (∀ (s : State) (c : Instr) (a : RegAccess) (hid : Nat), c = .registerRead a hid ∨ c = .registerWrite a → a.dap = false → s.decodes a.port a.fn = false ∨ 0x100000 ≤ a.offset →
    exec c s = .next s) ∧
  (∀ (s : State) (p f hid : Nat), s.decodes p f = true → s.mgmtFn = (p, f) → s.chip.grade = .ax5216 →
    ∃ t, exec (.registerRead ⟨p, f, 0x10000, 4, [true, true, true, true], [], false⟩ hid) s = .next t ∧ ((t.port p).egress.getLast?.map EgressTlp.tlp) = some (.completion p f hid .ok [0x01, 0xB0, 0x16, 0x52]) ∧ t.chip = s.chip) ∧
  (∀ (s : State) (p f : Nat) (v : BitVec 32), s.decodes p f = true → s.mgmtFn = (p, f) → (s.benchOf p f).isSome = true → (s.bench 0).detached = false → s.chip.staged = none →
    exec (.registerWrite ⟨p, f, 0x10014, 4, [true, true, true, true], leBytes 4 v.toNat, false⟩) s = .next { s.portIn p 4 with chip := { s.chip with badAccess := v } }) ∧
  (∀ (s : State) (p f o hid : Nat), s.decodes p f = true → s.mgmtFn = (p, f) → 0x10000 ≤ o → o < 0x14000 → o % 4 = 0 → s.hubKind o = .hole →
    ∃ t, exec (.registerRead ⟨p, f, o, 4, [true, true, true, true], [], false⟩ hid) s = .next t ∧ t.chip.badAccess = s.chip.badAccess + 1 ∧ ((t.port p).egress.getLast?.map EgressTlp.tlp) = some (.completion p f hid .ok [0xFF, 0xFF, 0xFF, 0xFF])) ∧
  (∀ (s : State) (p f o : Nat) (d : List Byte), s.decodes p f = true → s.mgmtFn = (p, f) → 0x10000 ≤ o → o < 0x14000 → o % 4 ≠ 0 → hubMap.allAbsent s o 4 = false → (s.benchOf p f).isSome = true → (s.bench 0).detached = false →
    ∃ t, exec (.registerWrite ⟨p, f, o, 4, [true, true, true, true], d, false⟩) s = .next t ∧ t.chip = { s.chip with badAccess := s.chip.badAccess + 1, staged := none } ∧ t.benches = s.benches ∧ t.hearth = s.hearth ∧ t.ports = s.ports) ∧
  (∀ (s : State) (p f o : Nat) (d : List Byte), s.decodes p f = true → s.mgmtFn = (p, f) → 0x10000 ≤ o → o < 0x14000 → (s.benchOf p f).isSome = true → (s.bench 0).detached = true →
    exec (.registerWrite ⟨p, f, o, 4, [true, true, true, true], d, false⟩) s = .next (s.portIn p d.length).unstageHub.countHub)

/-- SMBus commands and the debug access port's register and memory accesses. SMBUS_POINTER stores an aligned offset with a good PEC and otherwise counts; SMBUS_READ answers the register at the pointer and moves it by 4, with ones and a count for a register not readable so; SMBUS_RESTART with its key restarts the hub, what a start waits for being waited for still, and otherwise counts. DAP_REGISTER_READ and DAP_REGISTER_WRITE run when the level and enables allow and set REFUSED when they do not. DAP_MEMORY_READ of ledger memory sends the read and is BUSY; of a die that is UP it sends the read and is BUSY, and of one that is not it answers HOLE and ones. DAP_MEMORY_DATA ends the access with its 64 bytes, or as a hole. Rows: SMBUS_POINTER, SMBUS_READ, SMBUS_RESTART, DAP_REGISTER_READ, DAP_REGISTER_WRITE, DAP_MEMORY_READ, DAP_MEMORY_DATA. The conditions and results are exactly those of the Lean clauses. Where it rests on a choice of the model's own rather than a rule: log entries 1, 29, 86. (R549, R550, R552, R554, R55, R575, R588) -/
def Obligations.SmbusAndDebugReads : Prop :=
  (∀ (s : State) (o : BitVec 24), s.smbusOpen = true → o.toNat % 4 = 0 → exec (.smbusPointer o true) s = .next { s with chip := { s.chip with smbusPtr := o } }) ∧
  (∀ (s : State) (o : BitVec 24) (pec : Bool), s.smbusOpen = true → pec = false ∨ o.toNat % 4 ≠ 0 → exec (.smbusPointer o pec) s = .next s.countHub) ∧
  (∀ s : State, s.smbusOpen = true → s.chip.smbusPtr = 0x10000 → s.chip.grade = .ax5216 →
    exec (.smbusRead true) s = .next { s with chip := { s.chip with smbusPtr := 0x10004 }, out := s.out ++ [.smbus 0x5216B001] }) ∧
  (∀ s : State, s.smbusOpen = true → smbusReadable s.chip.smbusPtr.toNat = false →
    exec (.smbusRead true) s = .next { s with chip := { s.chip with smbusPtr := s.chip.smbusPtr + 4, badAccess := s.chip.badAccess + 1 }, out := s.out ++ [.smbus 0xFFFFFFFF] }) ∧
  (∀ s : State, s.smbusOpen = true → ∃ t, exec (.smbusRestart 0xA5C3 true) s = .next t ∧ t.chip.phase = .restarting ∧ t.chip.lastRestart = 2 ∧ t.chip.wait = (if s.chip.wait = .none then .diePower else s.chip.wait) ∧ t.benches = [] ∧ t.hearth.time = s.hearth.time) ∧
  (∀ (s : State) (v : BitVec 16) (pec : Bool), s.smbusOpen = true → v ≠ 0xA5C3 ∨ pec = false → exec (.smbusRestart v pec) s = .next s.countHub) ∧
  (∀ (s : State) (a : Nat), s.chip.powered = true → s.dbg.attached = true → s.dbg.observes = true → s.dbg.busy = false → 0x10000 ≤ a → a < 0x14000 →
    exec (.dapRegisterRead true a) s = .next ((s.modDebug fun d => { d with quiet := true, write := false, space := 0, addr := BitVec.ofNat 64 a }).dapReadNow true (dapAccess a []))) ∧
  (∀ (s : State) (q : Bool) (a : Nat), s.chip.powered = true → s.dbg.attached = true → s.dbg.observes = false → s.dbg.full = false → q = false ∨ (a ≠ 0x10000 ∧ a ≠ 0x10004) →
    exec (.dapRegisterRead q a) s = .next (s.modDebug fun d => { d with refused := true })) ∧
  (∀ (s : State) (a : Nat) (v : BitVec 32), s.chip.powered = true → s.dbg.attached = true → s.dbg.full = false ∨ s.dbg.dapWrite = false ∨ a / 4 = 0x20000 →
    exec (.dapRegisterWrite a v) s = .next (s.modDebug fun d => { d with refused := true })) ∧
  (∀ (s : State) (v : BitVec 32), s.running = true → s.dbg.attached = true → s.dbg.full = true → s.dbg.dapWrite = true → s.dbg.busy = false → (s.bench 0).detached = false → s.chip.staged = none →
    ∃ t, exec (.dapRegisterWrite 0x10014 v) s = .next t ∧ t.chip = { s.chip with badAccess := v } ∧ t.dbg.busy = false ∧ t.benches = s.benches) ∧
  (∀ (s : State) (a : BitVec 64), s.chip.powered = true → s.dbg.attached = true → s.dbg.observes = true → s.dbg.busy = false → ledgerBase ≤ a.toNat / 64 * 64 → a.toNat / 64 * 64 < ledgerBase + s.ledgerBytes → s.domainOn 8 = true →
    ∃ t, exec (.dapMemoryRead 1 a) s = .next t ∧ t.dbg = { s.dbg with space := 1, addr := a, busy := true } ∧ t.out = s.out ++ [.ledgerRead (BitVec.ofNat 64 (a.toNat / 64 * 64))]) ∧
  (∀ (s : State) (a : BitVec 64), s.chip.powered = true → s.dbg.attached = true → s.dbg.observes = true → s.dbg.busy = false → s.nDies ≤ a.toNat / 64 * 64 / 2 ^ 36 ∨ (s.die (a.toNat / 64 * 64 / 2 ^ 36)).state ≠ .up →
    ∃ t, exec (.dapMemoryRead 2 a) s = .next t ∧ t.dbg = { s.dbg with space := 2, addr := a, busy := false, hole := true, data := ones64 } ∧ t.out = s.out) ∧
  (∀ (s : State) (a : BitVec 64) (d o : Nat), s.chip.powered = true → s.dbg.attached = true → s.dbg.observes = true → s.dbg.busy = false → d = a.toNat / 64 * 64 / 2 ^ 36 → o = a.toNat / 64 * 64 % 2 ^ 36 → d < s.nDies → o < dieBytes → (s.die d).state = .up → (s.die d).queue = [] → (s.die d).room false 0 = true →
    ∃ t, exec (.dapMemoryRead 2 a) s = .next t ∧ t.dbg.busy = true ∧ t.out = s.out ++ [.die d (.dapRead o)]) ∧
  (∀ (s : State) (d : List Byte), s.dbg.busy = true → s.dbg.space ≠ 0 → s.unsent .dap = false → ∃ t, exec (.dapMemoryData (some d)) s = .next t ∧ t.dbg = { s.dbg with busy := false, data := slice d 0 64 }) ∧
  (∀ (s : State), s.dbg.busy = true → s.dbg.space ≠ 0 → s.unsent .dap = false → ∃ t, exec (.dapMemoryData none) s = .next t ∧ t.dbg = { s.dbg with busy := false, hole := true, data := ones64 })

/-- Halting, stepping and resuming whittlers, honour bits, DEBUG_CTRL. With the level and enables that allow it: WHITTLER_HALT halts a running whittler of a group with at least five running, no other; with fewer, or not running, it is REFUSED and recovery state is as before. WHITTLER_STEP selects the whittler, whose registers hold free values where it is halted, and leaves recovery state; WHITTLER_RESUME ends its halt; WHITTLER_HONOUR stores the bit of that whittler alone. DEBUG_CTRL_WRITE stores its three enables. Without the right to halt, the three are REFUSED. Rows: WHITTLER_HALT, WHITTLER_STEP, WHITTLER_RESUME, WHITTLER_HONOUR, DEBUG_CTRL_WRITE. The conditions and results are exactly those of the Lean clauses. Where it rests on a choice of the model's own rather than a rule: log entries 29, 30, 85. (R550, R556, R557, R558, R559) -/
def Obligations.WhittlerDebug : Prop :=
  (∀ (s : State) (w : Nat) (l : List LockHeld), s.chip.powered = true → s.dbg.attached = true → s.dbg.mayHalt = true → s.whittlerRuns w = true → 5 ≤ s.groupRunning w →
    ∃ t, exec (.whittlerHalt w l) s = .next t ∧ t.whittler w = { s.whittler w with halted := true, testing := false } ∧ t.dbg.whittler = BitVec.ofNat 7 w ∧ (∀ v, v ≠ w → t.whittler v = s.whittler v)) ∧
  (∀ (s : State) (w : Nat) (l : List LockHeld), s.chip.powered = true → s.dbg.attached = true → s.dbg.mayHalt = true → (s.whittler w).halted = false → s.whittlerRuns w = false ∨ s.groupRunning w < 5 →
    ∃ t, exec (.whittlerHalt w l) s = .next t ∧ t.dbg.refused = true ∧ t.recovery = s.recovery ∧ t.bg = s.bg) ∧
  (∀ (s : State) (w : Nat), s.chip.powered = true → s.dbg.attached = true → s.dbg.mayHalt = true →
    ∃ t, exec (.whittlerStep w) s = .next t ∧ t.recovery = s.recovery ∧ t.dbg.whittler = BitVec.ofNat 7 w ∧ t.dbg.written = (if (s.whittler w).halted then s.dbg.written.filter (fun e => e.1 / 256 != w) else s.dbg.written) ∧ t.out = s.out) ∧
  (∀ (s : State) (w : Nat), s.chip.powered = true → s.dbg.attached = true → s.dbg.mayHalt = true → (s.whittler w).halted = true →
    ∃ t, exec (.whittlerResume w) s = .next t ∧ t.whittler w = { s.whittler w with halted := false } ∧ (∀ v, v ≠ w → t.whittler v = s.whittler v)) ∧
  (∀ (s : State) (w : Nat) (h : Bool), s.chip.powered = true → s.dbg.attached = true → s.dbg.mayHonour = true → w < s.nWhittlers →
    ∃ t, exec (.whittlerHonour w h) s = .next t ∧ t.whittler w = { s.whittler w with honour := h } ∧ (∀ v, v ≠ w → t.whittler v = s.whittler v)) ∧
  (∀ (s : State) (v : BitVec 32), s.decodes s.mgmtFn.1 s.mgmtFn.2 = true → (s.bench 0).detached = false →
    ∃ t, exec (.debugCtrlWrite v) s = .next t ∧ t.dbg = { s.dbg with dapWrite := v.getLsbD 0, haltAllow := v.getLsbD 1, honourAllow := v.getLsbD 2 }) ∧
  (∀ (s : State) (c : Instr) (w : Nat) (l : List LockHeld), c = .whittlerHalt w l ∨ c = .whittlerStep w ∨ c = .whittlerResume w → s.chip.powered = true → s.dbg.attached = true → s.dbg.mayHalt = false →
    exec c s = .next (s.modDebug fun d => { d with refused := true }))

/-- Flash commands of the IMG block. With the interface idle and the slot not in use, FLASH_READ, FLASH_PROGRAM and FLASH_ERASE_4K in range become BUSY and send one flash operation, a read with its SPI read command. On the selected slot they end with RESULT 1; while BUSY they are discarded and counted. FLASH_CMD_DONE ends the command with RESULT 0, and a read's bytes are in the data registers. FLASH_CMD_TIMEOUT of a program after 10 ms or an erase after 5 s ends it with RESULT 4, and does nothing earlier or for a read. Rows: FLASH_READ, FLASH_PROGRAM, FLASH_ERASE_4K, FLASH_CMD_DONE, FLASH_CMD_TIMEOUT. The conditions and results are exactly those of the Lean clauses. Where it rests on a choice of the model's own rather than a rule: log entries 5, 58, 69. (R54, R573, R577) -/
def Obligations.FlashProgramming : Prop :=
  (∀ (s : State) (b : Bool) (n : Nat), s.decodes s.mgmtFn.1 s.mgmtFn.2 = true → (s.bench 0).detached = false → s.chip.flash.busy = false → s.slotSelected b = false → s.chip.search.density ≠ 0 → s.flashRange 1 s.chip.flash.addr.toNat n = true →
    ∃ t, exec (.flashRead b n) s = .next t ∧ t.chip.flash = { s.chip.flash with busy := true, running := some (1, b, s.chip.flash.addr.toNat, n), since := s.now } ∧ t.out = s.out ++ [.flash b 1 s.chip.flash.addr.toNat [], .spiRead (if s.slotBase b + s.chip.flash.addr.toNat + n ≤ 2 ^ 24 then 0x03 else 0x13) false 12500 (s.slotBase b + s.chip.flash.addr.toNat) n]) ∧
  (∀ (s : State) (b : Bool) (n : Nat), s.decodes s.mgmtFn.1 s.mgmtFn.2 = true → (s.bench 0).detached = false → s.chip.flash.busy = false → s.slotSelected b = false → s.chip.search.density ≠ 0 → s.flashRange 2 s.chip.flash.addr.toNat n = true →
    ∃ t, exec (.flashProgram b n) s = .next t ∧ t.chip.flash = { s.chip.flash with busy := true, running := some (2, b, s.chip.flash.addr.toNat, n), since := s.now } ∧ t.out = s.out ++ [.flash b 2 s.chip.flash.addr.toNat (slice s.chip.flash.data 0 n)]) ∧
  (∀ (s : State) (b : Bool), s.decodes s.mgmtFn.1 s.mgmtFn.2 = true → (s.bench 0).detached = false → s.chip.flash.busy = false → s.slotSelected b = false → s.chip.search.density ≠ 0 → s.flashRange 3 s.chip.flash.addr.toNat 0 = true →
    ∃ t, exec (.flashErase4k b) s = .next t ∧ t.chip.flash = { s.chip.flash with busy := true, running := some (3, b, s.chip.flash.addr.toNat, 0), since := s.now } ∧ t.out = s.out ++ [.flash b 3 s.chip.flash.addr.toNat []]) ∧
  (∀ (s : State) (c : Instr) (b : Bool) (n : Nat), c = .flashRead b n ∨ c = .flashProgram b n ∨ c = .flashErase4k b → s.decodes s.mgmtFn.1 s.mgmtFn.2 = true → (s.bench 0).detached = false → s.chip.flash.busy = false → s.slotSelected b = true →
    ∃ t, exec c s = .next t ∧ t.chip.flash = { s.chip.flash with result := 1 } ∧ t.out = s.out) ∧
  (∀ (s : State) (c : Instr) (b : Bool) (n : Nat), c = .flashRead b n ∨ c = .flashProgram b n ∨ c = .flashErase4k b → s.decodes s.mgmtFn.1 s.mgmtFn.2 = true → (s.bench 0).detached = false → s.chip.flash.busy = true →
    exec c s = .next s.unstageHub.countHub) ∧
  (∀ (s : State) (op off n : Nat) (b : Bool) (d : List Byte), s.chip.flash.running = some (op, b, off, n) →
    ∃ t, exec (.flashCmdDone d) s = .next t ∧ t.chip.flash = { s.chip.flash with busy := false, running := none, result := 0, data := if op = 1 then splice s.chip.flash.data 0 (slice d 0 n) else s.chip.flash.data } ∧ t.out = s.out) ∧
  (∀ (s : State) (op off n : Nat) (b : Bool), s.chip.flash.running = some (op, b, off, n) → op ≠ 1 → s.chip.flash.since.toNat + (if op = 3 then 5000000 else 10000) ≤ s.now.toNat →
    ∃ t, exec .flashCmdTimeout s = .next t ∧ t.chip.flash = { s.chip.flash with busy := false, running := none, result := 4 }) ∧
  (∀ (s : State) (op off n : Nat) (b : Bool), s.chip.flash.running = some (op, b, off, n) → op = 1 ∨ s.now.toNat < s.chip.flash.since.toNat + (if op = 3 then 5000000 else 10000) → exec .flashCmdTimeout s = .next s)

/-- Steps of a sweep, locks, watchdogs, tally and error-log reads. SWEEP_SETTLE_TIMEOUT goes to the cut once the step has run 1 ms, and no earlier; SWEEP_CUT cuts the bench; SWEEP_DRAIN_DONE goes to the locks only with no die write outstanding; SWEEP_LOCKS_TAKEN takes the locks and reclaims grants, regions, table and cached translations; SWEEP_RECLAIM_DONE leaves a RELEASE sweep VACANT and a RESET sweep ACTIVE with its limits and incarnation. LOCK_EXPIRY breaks an expired lock of a halted whittler, and no lock that is broken, frozen or early. WHITTLER_WATCHDOG resets the whittler and logs it, and fences it on the third reset in 1 s. TALLY_QUERY moves on by one. ERRLOG_ENTRY_READ marks the entry read and removes its HUB_FAULT_N cause, that of a clock or thermal entry only once a restart is over. Rows: SWEEP_SETTLE_TIMEOUT, SWEEP_CUT, SWEEP_DRAIN_DONE, SWEEP_LOCKS_TAKEN, SWEEP_RECLAIM_DONE, LOCK_EXPIRY, WHITTLER_WATCHDOG, TALLY_QUERY, ERRLOG_ENTRY_READ. The conditions and results are exactly those of the Lean clauses. Where it rests on a choice of the model's own rather than a rule: log entries 22, 31, 52. (R489, R490, R491, R494, R495, R499, R501, R507, R508, R509, R582, R584) -/
def Obligations.SweepsAndRecovery : Prop :=
  (∀ (s : State) (b : Nat) (w : Sweep), s.sweepAt b .settle = true → (s.bench b).sweep = some w → w.since.toNat + 1000 ≤ s.now.toNat → exec (.sweepSettleTimeout b) s = .next (s.modSweep b fun w => { w with step := .cut })) ∧
  (∀ (s : State) (b : Nat) (w : Sweep), (s.bench b).sweep = some w → s.now.toNat < w.since.toNat + 1000 → exec (.sweepSettleTimeout b) s = .next s) ∧
  (∀ (s : State) (b : Nat), s.sweepAt b .cut = true → b ≠ 0 ∨ s.commandRuns = false →
    exec (.sweepCut b) s = .next (s.cutBench b)) ∧
  (∀ (s : State) (b : Nat), s.sweepAt b .drain = true → s.dieWrites b = 0 → exec (.sweepDrainDone b) s = .next (s.modSweep b fun w => { w with step := .locks })) ∧
  (∀ (s : State) (b : Nat), s.sweepAt b .drain = true → s.dieWrites b ≠ 0 → exec (.sweepDrainDone b) s = .next s) ∧
  (∀ (s : State) (b : Nat), s.sweepAt b .locks = true → s.locksFree b = true → exec (.sweepLocksTaken b) s = .next ((s.takeLocks b).reclaim b)) ∧
  (∀ (s : State) (b : Nat), s.sweepAt b .locks = true → s.locksFree b = true → (∀ p ∈ s.placements, p.home ≠ s.hubId ∨ p.bench ≠ b) →
    ∃ t, exec (.sweepLocksTaken b) s = .next t ∧ (t.bench b).grants = [] ∧ (t.bench b).regions = [] ∧ (t.bench b).modeD = .fresh (s.bench b).modeD.present ∧ (∀ e ∈ t.headstock.cache, e.bench ≠ b) ∧ t.sweepAt b .reclaim = true) ∧
  (∀ (s : State) (b : Nat) (w : Sweep), b ≠ 0 → s.sweepAt b .reclaim = true → (s.bench b).sweep = some w → w.placements = [] → w.release = true →
    ∃ t, exec (.sweepReclaimDone b) s = .next t ∧ (t.bench b).state = .vacant ∧ (t.bench b).incarn = (s.bench b).incarn) ∧
  (∀ (s : State) (b : Nat) (w : Sweep), b ≠ 0 → s.sweepAt b .reclaim = true → (s.bench b).sweep = some w → w.placements = [] → w.release = false →
    ∃ t, exec (.sweepReclaimDone b) s = .next t ∧ (t.bench b).state = .active ∧ (t.bench b).incarn = (s.bench b).incarn ∧ (t.bench b).limits = (s.bench b).limits) ∧
  (∀ (s : State) (l : Lock), s.recovery.locks = [l] → l.broken = false → l.frozen = none → l.expiry.toNat ≤ s.now.toNat → (s.whittler l.whittler).halted = true → s.domainOn 8 = true →
    ∃ t, exec (.lockExpiry 0) s = .next t ∧ t.recovery.locks = [{ l with broken := true }]) ∧
  (∀ (s : State) (i : Nat) (l : Lock), s.recovery.locks[i]? = some l → l.broken = true ∨ l.frozen.isSome = true ∨ s.now.toNat < l.expiry.toNat → exec (.lockExpiry i) s = .next s) ∧
  (∀ (s : State) (w : Nat), s.running = true → s.whittlerRuns w = true → (s.whittler w).resets = [] → s.recovery.locks = [] →
    ∃ t, exec (.whittlerWatchdog w) s = .next t ∧ t.whittler w = { s.whittler w with resets := [s.now], testing := false } ∧ t.recovery.logSeq = s.recovery.logSeq + 1) ∧
  (∀ (s : State) (w : Nat) (a b : BitVec 64), s.running = true → s.whittlerRuns w = true → (s.whittler w).resets = [a, b] → s.now.toNat < a.toNat + 1000000 → s.now.toNat < b.toNat + 1000000 →
    ∃ t, exec (.whittlerWatchdog w) s = .next t ∧ (t.whittler w).fenced = true) ∧
  (∀ s : State, s.running = true → exec .tallyQuery s = .next { s with recovery := { s.recovery with tallyIndex := s.recovery.tallyIndex + 1 } }) ∧
  (∀ (s : State) (n : Nat) (e : LogEntry), s.running = true → tabGet s.recovery.log none s.recovery.logIndex.toNat = some e → e.seq.toNat % 1024 = s.recovery.logIndex.toNat →
    ∃ t, exec (.errlogEntryRead false n) s = .next t ∧ t.recovery.logIndex = s.recovery.logIndex + 1 ∧ tabGet t.recovery.log none s.recovery.logIndex.toNat = some { e with read := true } ∧ t.recovery.faults.contains (FaultCause.entry e.seq) = false) ∧
  (∀ (s : State) (n : Nat) (e : LogEntry), s.chip.powered = true → s.chip.phase ≠ .restarting → tabGet s.recovery.mirror none n = some e → e.seq.toNat % 64 = n →
    ∃ t, exec (.errlogEntryRead true n) s = .next t ∧ t.recovery.logIndex = s.recovery.logIndex ∧ tabGet t.recovery.mirror none n = some { e with read := true } ∧ t.recovery.faults.contains (FaultCause.entry e.seq) = false) ∧
  (∀ (s : State) (n : Nat) (e : LogEntry), s.chip.powered = true → s.chip.phase = .restarting → tabGet s.recovery.mirror none n = some e → e.seq.toNat % 64 = n → e.cls = 1 ∨ e.cls = 2 →
    ∃ t, exec (.errlogEntryRead true n) s = .next t ∧ tabGet t.recovery.mirror none n = some { e with read := true } ∧ t.recovery.faults = s.recovery.faults)

/-- RING_CTRL commands and the doorbell of an absent ring. RING_ENABLE of a disabled ring of legal size is IDLE or PAUSED with head, tail and queue cleared; of illegal size it stays disabled with CONFIG_ERROR. RING_DISABLE of an idle ring empties it, of a running one changes nothing and counts; RING_DISABLE_DONE is DISABLED once no write is outstanding, and RING_RESUME before it only counts (log entry 77). RING_ENABLE with KNOCK_EN on a port without CXL polls, under a knock-tracker tally. RING_PAUSE, RING_UNPAUSE, RING_RESUME and RING_ABORT move the ring to PAUSED, IDLE or RUNNING, IDLE or RUNNING with the park cause cleared, and ABORTING, with the counts kept where stated; ABORT_DONE with no write outstanding is DISABLED. For a ring number the bench does not have, each of these and DOORBELL only counts. Rows: RING_ENABLE, RING_DISABLE, RING_DISABLE_DONE, RING_PAUSE, RING_UNPAUSE, RING_RESUME, RING_ABORT, ABORT_DONE, DOORBELL. The conditions and results are exactly those of the Lean clauses. Where it rests on a choice of the model's own rather than a rule: log entries 1, 7, 35, 77. (R156, R159, R165, R180, R181, R182, R183, R590, R593, R606) -/
def Obligations.RingControl : Prop :=
  (∀ (s : State) (b r : Nat) (v : BitVec 32), s.decodes (s.bench b).port (s.bench b).fn = true → s.benchServes b = true → r < (s.bench b).ringCount → s.domainOn (clusterDomain (s.ring b r).clusterB) = true → (s.ring b r).state = .disabled → (s.ring b r).sizeOk = true → v.getLsbD 4 = false →
    ∃ t, exec (.ringEnable b r v) s = .next t ∧ (t.ring b r).state = (if v.getLsbD 1 then .paused else .idle) ∧ (t.ring b r).head = 0 ∧ (t.ring b r).tail = 0 ∧ (t.ring b r).descs = [] ∧ (t.ring b r).configError = false ∧ (t.ring b r).knock = .off ∧ (t.ring b r).base = (s.ring b r).base) ∧
  (∀ (s : State) (b r : Nat) (v : BitVec 32), s.decodes (s.bench b).port (s.bench b).fn = true → s.benchServes b = true → r < (s.bench b).ringCount → s.domainOn (clusterDomain (s.ring b r).clusterB) = true → (s.ring b r).state = .disabled → (s.ring b r).sizeOk = false →
    ∃ t, exec (.ringEnable b r v) s = .next t ∧ (t.ring b r).state = .disabled ∧ (t.ring b r).configError = true) ∧
  (∀ (s : State) (b r : Nat) (v : BitVec 32), s.decodes (s.bench b).port (s.bench b).fn = true → s.benchServes b = true → r < (s.bench b).ringCount → s.domainOn (clusterDomain (s.ring b r).clusterB) = true → (s.ring b r).disabling = false → (s.ring b r).state = .idle → ringMode v = (s.ring b r).mode → v.getLsbD 2 = false → v.getLsbD 3 = false →
    ∃ t, exec (.ringDisable b r v) s = .next t ∧ (t.ring b r).disabling = true ∧ (t.ring b r).descs = []) ∧
  (∀ (s : State) (b r : Nat) (v : BitVec 32), s.decodes (s.bench b).port (s.bench b).fn = true → s.benchServes b = true → r < (s.bench b).ringCount → s.domainOn (clusterDomain (s.ring b r).clusterB) = true → (s.ring b r).state = .running → ringMode v = (s.ring b r).mode → v.getLsbD 3 = false →
    ∃ t, exec (.ringDisable b r v) s = .next t ∧ t.ring b r = s.ring b r ∧ (t.bench b).counters.badAccess = (s.bench b).counters.badAccess + 1) ∧
  (∀ (s : State) (b r : Nat), (s.ring b r).disabling = true → s.ringWrites b r = 0 →
    ∃ t, exec (.ringDisableDone b r) s = .next t ∧ t.ring b r = { s.ring b r with state := .disabled, park := .none, disabling := false, descs := [] } ∧ (∀ q, q ≠ r → t.ring b q = s.ring b q)) ∧
  (∀ (s : State) (b r : Nat) (v : BitVec 32), s.decodes (s.bench b).port (s.bench b).fn = true → s.benchServes b = true → r < (s.bench b).ringCount → s.domainOn (clusterDomain (s.ring b r).clusterB) = true → (s.ring b r).disabling = false → (s.ring b r).state = .idle ∨ (s.ring b r).state = .running → (s.ring b r).descs = [] → ringMode v = (s.ring b r).mode → v.getLsbD 0 = true → v.getLsbD 2 = false → v.getLsbD 3 = false →
    ∃ t, exec (.ringPause b r v) s = .next t ∧ (t.ring b r).state = .paused ∧ (t.ring b r).pause = true ∧ (t.ring b r).head = (s.ring b r).head ∧ (t.ring b r).tail = (s.ring b r).tail) ∧
  (∀ (s : State) (b r : Nat) (v : BitVec 32), s.decodes (s.bench b).port (s.bench b).fn = true → s.benchServes b = true → r < (s.bench b).ringCount → s.domainOn (clusterDomain (s.ring b r).clusterB) = true → (s.ring b r).disabling = false → (s.ring b r).fetchFailed = false → (s.ring b r).state = .paused → ringMode v = (s.ring b r).mode → v.getLsbD 0 = true → v.getLsbD 2 = false → v.getLsbD 3 = false →
    ∃ t, exec (.ringUnpause b r v) s = .next t ∧ t.ring b r = { s.ring b r with pause := false, state := if (s.ring b r).head = (s.ring b r).tail then .idle else .running }) ∧
  (∀ (s : State) (b r : Nat) (v : BitVec 32), s.decodes (s.bench b).port (s.bench b).fn = true → s.benchServes b = true → r < (s.bench b).ringCount → s.domainOn (clusterDomain (s.ring b r).clusterB) = true → (s.ring b r).disabling = false → (s.ring b r).mayResume = true → ringMode v = (s.ring b r).mode → v.getLsbD 0 = true → v.getLsbD 1 = false → v.getLsbD 3 = false →
    ∃ t, exec (.ringResume b r v) s = .next t ∧ (t.ring b r).state = (if (s.ring b r).head = (s.ring b r).tail then .idle else .running) ∧ (t.ring b r).park = .none ∧ (t.ring b r).ownStop = false ∧ (t.ring b r).head = (s.ring b r).head) ∧
  (∀ (s : State) (b r : Nat) (v : BitVec 32), s.decodes (s.bench b).port (s.bench b).fn = true → s.benchServes b = true → r < (s.bench b).ringCount → s.domainOn (clusterDomain (s.ring b r).clusterB) = true → (s.ring b r).state ≠ .disabled → ringMode v = (s.ring b r).mode →
    ∃ t, exec (.ringAbort b r v) s = .next t ∧ (t.ring b r).state = .aborting ∧ (t.ring b r).park = .none) ∧
  (∀ (s : State) (b r : Nat), (s.ring b r).state = .aborting → s.ringWrites b r = 0 → (s.ring b r).flushing = false →
    ∃ t, exec (.abortDone b r) s = .next t ∧ t.ring b r = { s.ring b r with state := .disabled, descs := [] } ∧ (∀ q, q ≠ r → t.ring b q = s.ring b q)) ∧
  (∀ (s : State) (c : Instr) (b r : Nat) (v : BitVec 32), s.decodes (s.bench b).port (s.bench b).fn = true → s.benchServes b = true → (s.bench b).ringCount ≤ r → (s.bench b).staged = none →
    c = .ringEnable b r v ∨ c = .ringDisable b r v ∨ c = .ringPause b r v ∨ c = .ringUnpause b r v ∨ c = .ringResume b r v ∨ c = .ringAbort b r v ∨ c = .doorbell b r v →
    exec c s = .next (s.countBench b)) ∧
  (∀ (s : State) (b r : Nat) (v : BitVec 32), s.decodes (s.bench b).port (s.bench b).fn = true → s.benchServes b = true → r < (s.bench b).ringCount → s.domainOn (clusterDomain (s.ring b r).clusterB) = true → (s.ring b r).state = .disabled → (s.ring b r).sizeOk = true → v.getLsbD 4 = true → (s.port (s.bench b).port).cxl = false →
    ∃ t, exec (.ringEnable b r v) s = .next t ∧ (t.ring b r).knock = .polling ∧ (t.ring b r).knockEn = true ∧ t.recovery.tallies = s.recovery.tallies ++ [⟨0x06, .held, benchOwner b, s.incarnOf b, (s.ring b r).clusterB.toNat, BitVec.ofNat 64 (s.ring b r).context, s.now, noExpiry⟩]) ∧
  (∀ (s : State) (b r : Nat), (s.ring b r).disabling = true → s.ringWrites b r ≠ 0 → exec (.ringDisableDone b r) s = .next s) ∧
  (∀ (s : State) (b r : Nat) (v : BitVec 32), s.decodes (s.bench b).port (s.bench b).fn = true → s.benchServes b = true → r < (s.bench b).ringCount → s.domainOn (clusterDomain (s.ring b r).clusterB) = true → (s.ring b r).state ≠ .disabled → (s.ring b r).disabling = true → v.getLsbD 3 = false → (s.bench b).staged = none →
    exec (.ringResume b r v) s = .next (s.countBench b))

/-- Tail values, knock lines and the OWN retry. DOORBELL takes a tail ahead of the last one and within the ring, counts one beyond the ring in BAD_TAIL, on a disabled ring counts a bad access, on one that is aborting or being disabled does nothing, and in every other state judges the tail alike; behind a BAR2 write of its function that is not acknowledged it waits. GO_S holds the knock line and judges its value as a tail. SNPINV of a held line answers and asks for the line again, at once or when the function may send; with ATS disabled the ring is REFUSED; of another line it only answers. SNPDATA answers by whether the line is held. Each answer names the line's 64-byte address. KNOCK_POLL reads the tail word and judges it as a tail. OWN_LATE_RETRY ends the ring's stop on a descriptor not yet owned. Rows: DOORBELL, GO_S, SNPINV, SNPDATA, KNOCK_POLL, OWN_LATE_RETRY. The conditions and results are exactly those of the Lean clauses. Where it rests on a choice of the model's own rather than a rule: log entries 5, 7, 35, 76, 77. (R161, R162, R163, R166, R167, R170, R275) -/
def Obligations.DoorbellsAndKnocks : Prop :=
  (∀ (s : State) (b r : Nat) (v : BitVec 32), s.decodes (s.bench b).port (s.bench b).fn = true → s.benchServes b = true → r < (s.bench b).ringCount → s.domainOn (clusterDomain (s.ring b r).clusterB) = true → s.putOpen (s.bench b).port (s.bench b).fn false = false → s.bar2Head (s.bench b).port (s.bench b).fn = none → (s.ring b r).disabling = false → (s.ring b r).state = .idle ∨ (s.ring b r).state = .running → (s.ring b r).pause = false → 0 < (v - (s.ring b r).tail).toInt → (v - (s.ring b r).head).toNat ≤ 2 ^ (s.ring b r).log2.toNat →
    ∃ t, exec (.doorbell b r v) s = .next t ∧ t.ring b r = { s.ring b r with tail := v, ownStop := false, state := if (s.ring b r).head = v then .idle else .running } ∧ (∀ q, q ≠ r → t.ring b q = s.ring b q)) ∧
  (∀ (s : State) (b r : Nat) (v : BitVec 32), s.decodes (s.bench b).port (s.bench b).fn = true → s.benchServes b = true → r < (s.bench b).ringCount → s.domainOn (clusterDomain (s.ring b r).clusterB) = true → s.putOpen (s.bench b).port (s.bench b).fn false = false → s.bar2Head (s.bench b).port (s.bench b).fn = none → (s.ring b r).disabling = false → (s.ring b r).state = .idle ∨ (s.ring b r).state = .running → (v - (s.ring b r).tail).toInt ≤ 0 →
    ∃ t, exec (.doorbell b r v) s = .next t ∧ t.ring b r = s.ring b r) ∧
  (∀ (s : State) (b r : Nat) (v : BitVec 32), s.decodes (s.bench b).port (s.bench b).fn = true → s.benchServes b = true → r < (s.bench b).ringCount → s.domainOn (clusterDomain (s.ring b r).clusterB) = true → s.putOpen (s.bench b).port (s.bench b).fn false = false → s.bar2Head (s.bench b).port (s.bench b).fn = none → (s.ring b r).disabling = false → (s.ring b r).state = .idle ∨ (s.ring b r).state = .running → 0 < (v - (s.ring b r).tail).toInt → 2 ^ (s.ring b r).log2.toNat < (v - (s.ring b r).head).toNat →
    ∃ t, exec (.doorbell b r v) s = .next t ∧ t.ring b r = { s.ring b r with badTail := (s.ring b r).badTail + 1 }) ∧
  (∀ (s : State) (b r : Nat) (v : BitVec 32), s.decodes (s.bench b).port (s.bench b).fn = true → s.benchServes b = true → r < (s.bench b).ringCount → s.domainOn (clusterDomain (s.ring b r).clusterB) = true → s.putOpen (s.bench b).port (s.bench b).fn false = false → s.bar2Head (s.bench b).port (s.bench b).fn = none → (s.ring b r).disabling = false → (s.ring b r).state ≠ .disabled → (s.ring b r).state ≠ .aborting →
    ∃ t, exec (.doorbell b r v) s = .next t ∧ t.ring b r = ((s.ring b r).offer v).2 ∧ (∀ q, q ≠ r → t.ring b q = s.ring b q) ∧ (∀ c, c ≠ b → t.bench c = s.bench c)) ∧
  (∀ (s : State) (b r : Nat) (v : BitVec 32), s.decodes (s.bench b).port (s.bench b).fn = true → s.benchServes b = true → r < (s.bench b).ringCount → s.domainOn (clusterDomain (s.ring b r).clusterB) = true → s.putOpen (s.bench b).port (s.bench b).fn false = false → s.bar2Head (s.bench b).port (s.bench b).fn = none → (s.ring b r).state ≠ .disabled → (s.ring b r).state = .aborting ∨ (s.ring b r).disabling = true →
    ∃ t, exec (.doorbell b r v) s = .next t ∧ t.ring b r = s.ring b r ∧ t.out = s.out) ∧
  (∀ (s : State) (b r : Nat) (v : BitVec 32), s.decodes (s.bench b).port (s.bench b).fn = true → s.benchServes b = true → r < (s.bench b).ringCount → s.domainOn (clusterDomain (s.ring b r).clusterB) = true → s.putOpen (s.bench b).port (s.bench b).fn false = false → s.bar2Head (s.bench b).port (s.bench b).fn = none → (s.ring b r).state = .disabled →
    ∃ t, exec (.doorbell b r v) s = .next t ∧ t.ring b r = s.ring b r ∧ (t.bench b).counters.badAccess = (s.bench b).counters.badAccess + 1) ∧
  (∀ (s : State) (b r : Nat) (v : BitVec 32), s.decodes (s.bench b).port (s.bench b).fn = true → s.benchServes b = true → r < (s.bench b).ringCount → s.domainOn (clusterDomain (s.ring b r).clusterB) = true → s.putOpen (s.bench b).port (s.bench b).fn false = true ∨ (s.bar2Head (s.bench b).port (s.bench b).fn).isSome = true →
    ∃ t, exec (.doorbell b r v) s = .next t ∧ t.bar2Queue = s.bar2Queue ++ [⟨(s.bench b).port, (s.bench b).fn, .doorbell b r v, false⟩] ∧ t.ring b r = s.ring b r) ∧
  (∀ (s : State) (b r : Nat) (v : BitVec 32), (s.ring b r).knock = .acquiring → s.benchLive b = true → (s.bench b).detached = false → (s.port (s.bench b).port).cxl = true →
    ∃ t, exec (.goS b r v) s = .next t ∧ t.ring b r = { ((s.ring b r).offer v).2 with knock := .held, retake := false, spurious := if (s.ring b r).retake ∧ ((s.ring b r).offer v).1 then (s.ring b r).spurious + 1 else (s.ring b r).spurious } ∧ (∀ q, q ≠ r → t.ring b q = s.ring b q)) ∧
  (∀ (s : State) (b r a : Nat), s.benchLive b = true → (s.port (s.bench b).port).cxl = true → (s.ring b r).knock = .held → s.domainOn (clusterDomain (s.ring b r).clusterB) = true → (s.ring b r).knockLine = some a → (s.fnAt (s.bench b).port (s.bench b).fn).atsEn = true → s.mayUsePort b = true →
    ∃ t, exec (.snpinv b r) s = .next t ∧ t.ring b r = { s.ring b r with knock := .acquiring, retake := true } ∧ t.out = s.out ++ [.cxl (s.bench b).port .rspIHitSE a, .cxl (s.bench b).port .rdShared a]) ∧
  (∀ (s : State) (b r a : Nat), s.benchLive b = true → (s.port (s.bench b).port).cxl = true → (s.ring b r).knock = .held → s.domainOn (clusterDomain (s.ring b r).clusterB) = true → (s.ring b r).knockLine = some a → (s.fnAt (s.bench b).port (s.bench b).fn).atsEn = true → s.mayUsePort b = false →
    ∃ t, exec (.snpinv b r) s = .next t ∧ t.ring b r = { s.ring b r with knock := .acquiring, retake := true, knockLine := none } ∧ t.out = s.out ++ [.cxl (s.bench b).port .rspIHitSE a]) ∧
  (∀ (s : State) (b r a : Nat), s.benchLive b = true → (s.port (s.bench b).port).cxl = true → (s.ring b r).knock = .held → s.domainOn (clusterDomain (s.ring b r).clusterB) = true → (s.ring b r).knockLine = some a → (s.fnAt (s.bench b).port (s.bench b).fn).atsEn = false →
    ∃ t, exec (.snpinv b r) s = .next t ∧ t.ring b r = { s.ring b r with knock := .refused, retake := false, knockLine := none } ∧ t.out = s.out ++ [.cxl (s.bench b).port .rspIHitSE a]) ∧
  (∀ (s : State) (b r : Nat), (s.port (s.bench b).port).cxl = true → (s.ring b r).knock ≠ .held →
    exec (.snpinv b r) s = .next (s.knockMsg b r .rspIHitSE)) ∧
  (∀ (s : State) (b r : Nat), (s.port (s.bench b).port).cxl = true →
    exec (.snpdata b r) s = .next (s.knockMsg b r (if (s.ring b r).knock = .held then .rspSHitSE else .rspIHitSE))) ∧
  (∀ (s : State) (b r : Nat) (c : Instr), c = .snpinv b r ∨ c = .snpdata b r → (s.port (s.bench b).port).cxl = false → exec c s = .next s) ∧
  (∀ (s : State) (b r a : Nat) (m : CxlMsg), (s.ring b r).knockLine = some a →
    s.knockMsg b r m = { s with out := s.out ++ [.cxl (s.bench b).port m a] }) ∧
  (∀ (s : State) (b r a : Nat) (tr : Bool) (v : BitVec 32), (s.ring b r).knock = .polling → (s.ring b r).disabling = false → s.mayUsePort b = true → s.ringAt b r (s.ring b r).knockAddr.toNat false = .addr a tr → (s.port (s.bench b).port).tagFree = true → s.domainWorks (clusterDomain (s.ring b r).clusterB) = true →
    ∃ t, exec (.knockPoll b r v) s = .next t ∧ t.ring b r = ((s.ring b r).offer v).2 ∧ (∀ q, q ≠ r → t.ring b q = s.ring b q) ∧ t.out = (s.readHost b ⟨false, tr⟩ 2 a 4).out) ∧
  (∀ (s : State) (b r : Nat), (s.ring b r).ownStop = true → (s.ring b r).pause = false → (s.ring b r).state ≠ .disabled →
    ∃ t, exec (.ownLateRetry b r) s = .next t ∧ t.ring b r = { s.ring b r with ownStop := false } ∧ (∀ q, q ≠ r → t.ring b q = s.ring b q)) ∧
  (∀ (s : State) (b r : Nat), (s.ring b r).ownStop = false ∨ (s.ring b r).pause = true ∨ (s.ring b r).state = .disabled → exec (.ownLateRetry b r) s = .next s)

/-- Fetching and completing descriptors. DESCRIPTOR_FETCH reads the ring's next entry, by a memory read or, coherently on a CXL port, by RdCurr; an owned entry joins the ring's descriptors, with BAD_DESCRIPTOR where the checks at fetch fail; one not owned stops the fetch; a failed read parks the ring, at once where no descriptor is before it. Without a tag or a translation nothing is read. DESCRIPTOR_COMPLETE writes the status of the oldest descriptor that has one, then OWN, and moves the head on by one. Rows: DESCRIPTOR_FETCH, DESCRIPTOR_COMPLETE. The conditions and results are exactly those of the Lean clauses. Where it rests on a choice of the model's own rather than a rule: log entries 5, 6, 35, 62. (R157, R162, R173, R175, R219) -/
def Obligations.FetchAndCompletion : Prop :=
  (∀ (s u : State) (b r : Nat) (y : List Byte), s.mayFetch b r = true → s.mayUsePort b = true → (s.readRing b r ((s.ring b r).entry (s.ring b r).fetchNext) 64 (s.ring b r).coherent).1 = some u → ownOf (slice y 0 64) = true → fetchCheck (slice y 0 64) = none →
    ∃ t, exec (.descriptorFetch b r (.ok y)) s = .next t ∧ t.ring b r = { (s.ring b r).claimEdges (slice y 0 64) with descs := (s.ring b r).descs ++ [Desc.fetched (s.ring b r).fetchNext (slice y 0 64)], fetchNext := (s.ring b r).fetchNext + 1 } ∧ (∀ q, q ≠ r → t.ring b q = s.ring b q) ∧ t.out = u.out) ∧
  (∀ (s u : State) (b r k : Nat) (y : List Byte), s.mayFetch b r = true → s.mayUsePort b = true → (s.readRing b r ((s.ring b r).entry (s.ring b r).fetchNext) 64 (s.ring b r).coherent).1 = some u → ownOf (slice y 0 64) = true → fetchCheck (slice y 0 64) = some k →
    ∃ t, exec (.descriptorFetch b r (.ok y)) s = .next t ∧ (t.ring b r).descs = (s.ring b r).descs ++ [{ Desc.fetched (s.ring b r).fetchNext (slice y 0 64) with phase := .ready, status := some ⟨0x30, 0, 255, BitVec.ofNat 64 k⟩ }] ∧ (t.ring b r).fetchNext = (s.ring b r).fetchNext + 1) ∧
  (∀ (s u : State) (b r : Nat) (y : List Byte), s.mayFetch b r = true → s.mayUsePort b = true → (s.readRing b r ((s.ring b r).entry (s.ring b r).fetchNext) 64 (s.ring b r).coherent).1 = some u → ownOf (slice y 0 64) = false →
    ∃ t, exec (.descriptorFetch b r (.ok y)) s = .next t ∧ t.ring b r = { s.ring b r with ownLate := (s.ring b r).ownLate + 1, ownStop := true }) ∧
  (∀ (s u : State) (b r : Nat), s.mayFetch b r = true → s.mayUsePort b = true → (s.readRing b r ((s.ring b r).entry (s.ring b r).fetchNext) 64 (s.ring b r).coherent).1 = some u → (s.ring b r).descs = [] →
    ∃ t, exec (.descriptorFetch b r .hostError) s = .next t ∧ (t.ring b r).state = .parked ∧ (t.ring b r).park = .fetch ∧ (t.ring b r).head = (s.ring b r).head) ∧
  (∀ (s u : State) (b r : Nat), s.mayFetch b r = true → s.mayUsePort b = true → (s.readRing b r ((s.ring b r).entry (s.ring b r).fetchNext) 64 (s.ring b r).coherent).1 = some u → (s.ring b r).descs ≠ [] →
    ∃ t, exec (.descriptorFetch b r .hostError) s = .next t ∧ t.ring b r = { s.ring b r with fetchFailed := true }) ∧
  (∀ (s u : State) (b r : Nat) (x : FetchResult), (s.readRing b r ((s.ring b r).entry (s.ring b r).fetchNext) 64 (s.ring b r).coherent) = (none, u) → s.mayFetch b r = true → s.mayUsePort b = true → exec (.descriptorFetch b r x) s = .next u) ∧
  (∀ (s : State) (b r va n a : Nat) (tr : Bool), s.ringAt b r va false = .addr a tr → (s.port (s.bench b).port).tagFree = true → s.readRing b r va n false = (some (s.readHost b ⟨false, tr⟩ 2 a n), s)) ∧
  (∀ (s : State) (b r va n : Nat) (c : Bool), s.ringAt b r va false = .miss → (c = true → s.mayCxl b = true → (s.fnAt (s.bench b).port (s.bench b).fn).atsEn = true → s.ringHost b r va = none) → (s.readRing b r va n c).1 = none) ∧
  (∀ (s : State) (b r va n a : Nat), s.mayCxl b = true → (s.fnAt (s.bench b).port (s.bench b).fn).atsEn = true → s.ringHost b r va = some a → s.readRing b r va n true = (some (s.emit (.cxl (s.bench b).port .rdCurr (a / 64 * 64))), s)) ∧
  (∀ (s : State) (b r : Nat) (x : FetchResult), s.mayFetch b r = false → exec (.descriptorFetch b r x) s = .next s) ∧
  (∀ (s : State) (b r a : Nat) (tr : Bool) (d : Desc) (st : Status), (s.ring b r).oldest = some d → d.awaitsTrigger = false → d.status = some st → s.mayComplete b r d = true → s.mayUsePort b = true → s.ringAt b r ((s.ring b r).entry d.count) true = .addr a tr →
    exec (.descriptorComplete b r) s = .next ((s.writeStatus b r d st a tr).finish b r d st)) ∧
  (∀ (s : State) (b r a : Nat) (tr : Bool) (d : Desc) (st : Status),
    ((s.writeStatus b r d st a tr).ring b r).head = (s.ring b r).head + 1 ∧ ((s.writeStatus b r d st a tr).ring b r).descDone = (s.ring b r).descDone + 1 ∧ ((s.writeStatus b r d st a tr).ring b r).descs = (s.ring b r).descs.filter (fun e => e.count != d.count) ∧
    (((s.writeStatus b r d st a tr).port (s.bench b).port).egress.map EgressTlp.tlp) = ((s.port (s.bench b).port).egress.map EgressTlp.tlp) ++
    [.hostWrite (s.bench b).port (s.reqFn b) ⟨false, tr⟩ (a + 0x30) (statusBytes st d.lathe), .hostWrite (s.bench b).port (s.reqFn b) ⟨false, tr⟩ (a + 0x3C) (leBytes 4 (tagOf d.bytes))])

/-- Start of the data-movement, ordering, event, prefetch and advice descriptors. For the ring's next startable descriptor of that opcode: COPY, FILL and COMPARE start with their total length; GATHER and SCATTER start with theirs and read their index table; ACQUIRE completes and lets the fetch go on after it; FENCE completes once no earlier descriptor of its scope is left, at once where it is the only one; EVENT_WAIT waits on a held line and otherwise completes PERMISSION; EVENT_WAIT_SATISFIED completes DONE with the time, and in MODE 1 clears the line; EVENT_SIGNAL of a held line completes with the former level and sets, clears or keeps the line, of another completes PERMISSION; PREFETCH of no bytes is DONE, is refused with PERMISSION without the mode's right, and otherwise goes through its pages; ADVISE of no bytes is DONE, in MODE_S or without Mode D is PERMISSION, of a die beyond the grade is BAD_DESCRIPTOR, and otherwise is DONE with the number of regions recorded. Rows: COPY, GATHER, SCATTER, FILL, COMPARE, ACQUIRE, FENCE, EVENT_WAIT, EVENT_WAIT_SATISFIED, EVENT_SIGNAL, PREFETCH, ADVISE. The conditions and results are exactly those of the Lean clauses. Where it rests on a choice of the model's own rather than a rule: log entries 6, 35, 62. (R201, R205, R206, R267, R208, R209, R210, R335, R337) -/
def Obligations.DescriptorStarts : Prop :=
  (∀ (s : State) (b r : Nat) (d : Desc), s.startable b r 0x01 = some d →
    exec (.copy b r) s = .next (((s.startDesc b r d.count (totalOf d.bytes)).breadcrumb b d.bytes).advance b r d.count)) ∧
  (∀ (s : State) (b r : Nat) (d : Desc) (l : List Nat), s.startable b r 0x02 = some d → s.desc b r d.count = some d → 
    ∃ t, exec (.gather b r l) s = .next t ∧ t = (s.startDesc b r d.count (totalOf d.bytes)).readIndex b r d.count l ∧ (t.desc b r d.count).map (fun e => (e.phase, e.total, e.order, e.status)) = some (.started, totalOf d.bytes, if d.phase = .fired then d.order else (s.bench b).nextOrder, none)) ∧
  (∀ (s : State) (b r : Nat) (d : Desc) (l : List Nat), s.startable b r 0x03 = some d → s.desc b r d.count = some d → 
    ∃ t, exec (.scatter b r l) s = .next t ∧ t = (s.startDesc b r d.count (totalOf d.bytes)).readIndex b r d.count l ∧ (t.desc b r d.count).map (fun e => (e.phase, e.total, e.order, e.status)) = some (.started, totalOf d.bytes, if d.phase = .fired then d.order else (s.bench b).nextOrder, none)) ∧
  (∀ (s : State) (b r : Nat) (d : Desc) (l : List Nat) (c : Instr) (op : Nat), (c = .gather b r l ∧ op = 2) ∨ (c = .scatter b r l ∧ op = 3) → s.startable b r op = none → s.channelRuns b r = true → ((s.ring b r).descs.find? fun e => opOf e.bytes == op && e.phase == .started && e.status.isNone) = some d →
    exec c s = .next (s.readIndex b r d.count l)) ∧
  (∀ (s : State) (b r : Nat) (d : Desc), s.startable b r 0x04 = some d →
    exec (.fill b r) s = .next ((s.startDesc b r d.count (totalOf d.bytes)).advance b r d.count)) ∧
  (∀ (s : State) (b r : Nat) (d : Desc), s.startable b r 0x05 = some d →
    exec (.compare b r) s = .next ((s.startDesc b r d.count (totalOf d.bytes)).advance b r d.count)) ∧
  (∀ (s : State) (b r total : Nat) (d : Desc), s.desc b r d.count = some d →
    (s.startDesc b r d.count total).desc b r d.count = some { d with phase := .started, order := if d.phase = .fired then d.order else (s.bench b).nextOrder, total := total } ∧ ((s.startDesc b r d.count total).bench b).nextOrder = if d.phase = .fired then (s.bench b).nextOrder else (s.bench b).nextOrder + 1) ∧
  (∀ (s : State) (b r : Nat) (d : Desc), s.startable b r 0x10 = some d → s.desc b r d.count = some d → d.sealNote = none →
    ∃ t, exec (.acquire b r) s = .next t ∧ (t.ring b r).fetchNext = d.count + 1 ∧ (t.ring b r).ownStop = false ∧ (∀ e ∈ (t.ring b r).descs, e.count = d.count) ∧ (t.desc b r d.count).map Desc.status = some (some ⟨0, 0, 255, 0⟩)) ∧
  (∀ (s : State) (b r : Nat) (d : Desc), s.startable b r 0x11 = some d → (s.ring b r).descs = [d] → d.sealNote = none → field d.bytes 0x0C 1 ≠ 1 →
    ∃ t, exec (.fence b r) s = .next t ∧ (t.desc b r d.count).map Desc.status = some (some ⟨0, 0, 255, 0⟩)) ∧
  (∀ (s u : State) (b r : Nat) (d e : Desc), s.startable b r 0x11 = some d → u = s.startDesc b r d.count (totalOf d.bytes) → u.desc b r d.count = some e →
    exec (.fence b r) s = .next (if (if field e.bytes 0x0C 1 = 1 then (u.bench b).rings.any (fun q => q.2.startedBefore e.order) else (u.ring b r).startedBefore e.order) then u else u.endPlain b r e 0 0)) ∧
  (∀ (s : State) (b r : Nat) (d : Desc), s.startable b r 0x12 = some d → s.desc b r d.count = some d → (s.event (field d.bytes 0x0C 2)).holder = some b →
    ∃ t, exec (.eventWait b r) s = .next t ∧ t.desc b r d.count = some { d with phase := .eventWait, order := if d.phase = .fired then d.order else (s.bench b).nextOrder, total := 0 } ∧ (t.ring b r).channel = none ∧ t.events = s.events) ∧
  (∀ (s : State) (b r : Nat) (d : Desc), s.startable b r 0x12 = some d → s.desc b r d.count = some d → (s.event (field d.bytes 0x0C 2)).holder ≠ some b →
    ∃ t, exec (.eventWait b r) s = .next t ∧ (t.desc b r d.count).map Desc.status = some (some ⟨0x12, 0, 255, 0⟩) ∧ t.events = s.events) ∧
  (∀ (s : State) (b r : Nat) (d : Desc), (s.ring b r).descs = [d] → d.phase = .eventWait → d.status = none → d.sealNote = none → s.channelRuns b r = true → s.waitMet d = true → field d.bytes 0x0E 1 ≠ 1 →
    ∃ t, exec (.eventWaitSatisfied b r) s = .next t ∧ (t.desc b r d.count).map Desc.status = some (some ⟨0, 0, 255, s.now⟩) ∧ t.events = s.events) ∧
  (∀ (s : State) (b r : Nat) (d : Desc), (s.ring b r).descs = [d] → d.phase = .eventWait → d.status = none → d.sealNote = none → s.channelRuns b r = true → s.waitMet d = true → field d.bytes 0x0E 1 = 1 → s.earlierWaiter b d = false →
    ∃ t, exec (.eventWaitSatisfied b r) s = .next t ∧ (t.desc b r d.count).map Desc.status = some (some ⟨0, 0, 255, s.now⟩) ∧ (t.event (field d.bytes 0x0C 2)).level = false) ∧
  (∀ (s : State) (b r : Nat) (d : Desc), s.startable b r 0x13 = some d → s.desc b r d.count = some d → d.sealNote = none → (s.event (field d.bytes 0x0C 2)).holder = some b →
    ∃ t, exec (.eventSignal b r) s = .next t ∧ (t.desc b r d.count).map Desc.status = some (some ⟨0, 0, 255, BitVec.ofNat 64 (s.event (field d.bytes 0x0C 2)).level.toNat⟩) ∧
    (t.event (field d.bytes 0x0C 2)).level = (if field d.bytes 0x0E 1 = 1 then true else if field d.bytes 0x0E 1 = 2 then false else (s.event (field d.bytes 0x0C 2)).level) ∧ (t.event (field d.bytes 0x0C 2)).holder = some b) ∧
  (∀ (s : State) (b r : Nat) (d : Desc), s.startable b r 0x13 = some d → s.desc b r d.count = some d → (s.event (field d.bytes 0x0C 2)).holder ≠ some b →
    ∃ t, exec (.eventSignal b r) s = .next t ∧ (t.desc b r d.count).map Desc.status = some (some ⟨0x12, 0, 255, 0⟩) ∧ t.events = s.events) ∧
  (∀ (s : State) (b r : Nat) (d : Desc) (c : Instr) (op : Nat), (c = .prefetch b r ∧ op = 0x30) ∨ (c = .advise b r ∧ op = 0x31) → s.startable b r op = some d → s.desc b r d.count = some d → d.sealNote = none → lengthOf d.bytes = 0 →
    ∃ t, exec c s = .next t ∧ (t.desc b r d.count).map Desc.status = some (some ⟨0, 0, 255, 0⟩) ∧ t.headstock = s.headstock) ∧
  (∀ (s : State) (b r : Nat) (d : Desc), s.startable b r 0x30 = some d → s.desc b r d.count = some d → lengthOf d.bytes ≠ 0 → (if selOf d.bytes 0 = 1 then s.classHas b BenchClass.modeS else s.classHas b BenchClass.modeD) = false →
    ∃ t, exec (.prefetch b r) s = .next t ∧ (t.desc b r d.count).map Desc.status = some (some ⟨0x12, 0, 0, BitVec.ofNat 64 (addrOf d.bytes 0)⟩) ∧ t.headstock = s.headstock) ∧
  (∀ (s : State) (b r : Nat) (d : Desc), s.startable b r 0x30 = some d → lengthOf d.bytes ≠ 0 → (if selOf d.bytes 0 = 1 then s.classHas b BenchClass.modeS else s.classHas b BenchClass.modeD) = true →
    exec (.prefetch b r) s = .next ((s.startDesc b r d.count (lengthOf d.bytes)).pumpPrefetch b r d.count (prefetchPages d.bytes))) ∧
  (∀ (s : State) (b r : Nat) (d : Desc), s.startable b r 0x31 = some d → s.desc b r d.count = some d → lengthOf d.bytes ≠ 0 → selOf d.bytes 0 = 1 ∨ s.classHas b BenchClass.modeD = false →
    ∃ t, exec (.advise b r) s = .next t ∧ (t.desc b r d.count).map Desc.status = some (some ⟨0x12, 0, 0, BitVec.ofNat 64 (addrOf d.bytes 0)⟩) ∧ (t.bench b).regions = (s.bench b).regions) ∧
  (∀ (s : State) (b r : Nat) (d : Desc), s.startable b r 0x31 = some d → s.desc b r d.count = some d → lengthOf d.bytes ≠ 0 → selOf d.bytes 0 ≠ 1 → s.classHas b BenchClass.modeD = true → field d.bytes 0x0C 1 = 2 → s.nDies < field d.bytes 0x28 8 →
    ∃ t, exec (.advise b r) s = .next t ∧ (t.desc b r d.count).map Desc.status = some (some ⟨0x30, 0, 255, 0x28⟩) ∧ (t.bench b).regions = (s.bench b).regions) ∧
  (∀ (s : State) (b r n : Nat) (d : Desc) (u : State), s.startable b r 0x31 = some d → s.desc b r d.count = some d → d.sealNote = none → lengthOf d.bytes ≠ 0 → selOf d.bytes 0 ≠ 1 → s.classHas b BenchClass.modeD = true → (field d.bytes 0x0C 1 = 2 → field d.bytes 0x28 8 ≤ s.nDies) →
    (s.startDesc b r d.count 0).adviseFrom b (field d.bytes 0x0C 1) (field d.bytes 0x0D 1 == 1) (field d.bytes 0x28 8 % 256) (addrOf d.bytes 0 / 65536) (adviseRegions d.bytes) = (n, u) →
    ∃ t, exec (.advise b r) s = .next t ∧ (t.desc b r d.count).map Desc.status = some (some ⟨0, 0, 255, BitVec.ofNat 64 n⟩) ∧ (t.bench b).regions = (u.bench b).regions)

/-- BILLET_ALLOC and BILLET_FREE. BILLET_ALLOC beyond the bench's limit completes QUOTA with the shortfall and changes no billet or byte; within the limit and the pool it takes a free index, its bytes read 0 and RESULT is the handle; with the pool full the descriptor waits. BILLET_FREE of a malformed handle completes BAD_DESCRIPTOR; of a live, idle billet of the bench the billet is free and the descriptor DONE; while a stopped whittler holds the allocator's lock nothing is freed. Rows: BILLET_ALLOC, BILLET_FREE. The conditions and results are exactly those of the Lean clauses. Where it rests on a choice of the model's own rather than a rule: log entries 6, 18, 53, 87. (R211, R503, R504, R505) -/
def Obligations.Billets : Prop :=
  (∀ (s : State) (b r : Nat) (d : Desc), s.startable b r 0x40 = some d → s.desc b r d.count = some d → s.billetHeld b + lengthOf d.bytes / 1024 - (s.bench b).limits.billet.toNat ≠ 0 →
    ∃ t, exec (.billetAlloc b r) s = .next t ∧ (t.desc b r d.count).map Desc.status = some (some ⟨0x32, 0, 255, BitVec.ofNat 64 (s.billetHeld b + lengthOf d.bytes / 1024 - (s.bench b).limits.billet.toNat)⟩) ∧ t.recovery.billets = s.recovery.billets ∧ t.billetMem = s.billetMem) ∧
  (∀ (s : State) (b r : Nat) (d : Desc), s.startable b r 0x40 = some d → s.desc b r d.count = some d → d.sealNote = none → s.structureHeld .billets b = false → s.billetHeld b + lengthOf d.bytes / 1024 ≤ (s.bench b).limits.billet.toNat →
    ∃ t, exec (.billetAlloc b r) s = .next t ∧ (∀ i, s.billetsTaken + lengthOf d.bytes / 1024 ≤ Config.billetKib → s.freeBillet = some i → t.billet i = ⟨nextGen (s.billet i).gen, true, b, lengthOf d.bytes / 1024, none⟩ ∧ (∀ k, k < 2 ^ 20 → memRead t.billetMem (i * 2 ^ 20 + k) = 0) ∧
    (t.desc b r d.count).map Desc.status = some (some ⟨0, 0, 255, BitVec.ofNat 64 (handleOf i (nextGen (s.billet i).gen))⟩)) ∧ (Config.billetKib < s.billetsTaken + lengthOf d.bytes / 1024 → t.recovery.billets = s.recovery.billets ∧ (t.desc b r d.count).map Desc.status = some none)) ∧
  (∀ (s : State) (b r : Nat) (d : Desc), s.structureHeld .billets b = false → s.startable b r 0x41 = some d → s.desc b r d.count = some d → freeHandle d.bytes % 2 ^ 20 ≠ 0 →
    ∃ t, exec (.billetFree b r) s = .next t ∧ (t.desc b r d.count).map Desc.status = some (some ⟨0x30, 0, 255, 0x28⟩) ∧ t.recovery.billets = s.recovery.billets) ∧
  (∀ (s : State) (b r i : Nat) (d : Desc), s.structureHeld .billets b = false → s.startable b r 0x41 = some d → s.desc b r d.count = some d → d.sealNote = none → freeHandle d.bytes % 2 ^ 20 = 0 → freeHandle d.bytes < 2 ^ 60 → i = bits (freeHandle d.bytes) 20 20 → (s.billet i).live = true → (s.billet i).gen = bits (freeHandle d.bytes) 40 20 → (s.billet i).freeing = none → (s.billet i).owner = b → (s.startDesc b r d.count 0).billetBusy i = false →
    ∃ t, exec (.billetFree b r) s = .next t ∧ (i < billetIndexes → (t.billet i).live = false ∧ (t.desc b r d.count).map Desc.status = some (some ⟨0, 0, 255, 0⟩)) ∧ (billetIndexes ≤ i → (t.desc b r d.count).map Desc.status = some (some ⟨0x30, 0, 255, 0x28⟩))) ∧
  (∀ (s : State) (b r : Nat), s.structureHeld .billets b = true → exec (.billetFree b r) s = .next s)

/-- Lathe channels, bursts, read data, write acknowledgements, triggers and pacing. CHANNEL_TAKEUP gives the one waiting ring a channel; BURST_GRANT grants the one attending channel its burst, and nothing on a halted lathe; RESERVATION_START reserves the lathe for a ring whose burst its room alone has kept back for 8 us. READ_DATA_RETURN delivers or, for a discarded read, frees the slot, and fails the descriptor on a die error or a marked block of the ledger. A response that names no outstanding request halts the lathe. WRITE_ACK applies the acknowledgement and counts WRITE_ERR of a refusing die. TRIGGER_FIRE fires a descriptor whose line is set. PACE_TIMER_EXPIRY counts one expiry when due and nothing else. PACING_YIELD gives up the channel after 10 us closed. Rows: CHANNEL_TAKEUP, BURST_GRANT, RESERVATION_START, READ_DATA_RETURN, WRITE_ACK, TRIGGER_FIRE, PACE_TIMER_EXPIRY, PACING_YIELD. The conditions and results are exactly those of the Lean clauses. Where it rests on a choice of the model's own rather than a rule: log entries 3, 5, 6, 36, 53. (R231, R232, R235, R237, R238, R239, R241, R242, R216, R220, R223, R248) -/
def Obligations.ChannelsAndBursts : Prop :=
  (∀ (s : State) (b r l c : Nat) (x : Bool), s.domainWorks (clusterDomain x) = true → s.liveBenches = [b] → (s.bench b).goesOn = true → s.waitingRings b x = [r] → s.channelFor b x = some (l, c) →
    ∃ t, exec (.channelTakeup x) s = .next t ∧ (t.ring b r).channel = some (l, c) ∧ (t.ring b r).channelSince = s.now ∧ tabGet (t.lathe l).channels none c = some (b, r) ∧ t.out = s.out) ∧
  (∀ (s : State) (l k b r : Nat) (c : BitVec 32) (u : Burst), (s.lathe l).halt = none → s.domainWorks (clusterDomain (decide (8 ≤ l))) = true → (s.attendLathe l (s.lathe l).channels).1 = [(k, b, r, c, u)] →
    exec (.burstGrant l) s = .next (((s.attendLathe l (s.lathe l).channels).2.arbitrate (arbLathe l) [b]).2.grantBurst l k b r c u)) ∧
  (∀ (s : State) (l : Nat), (s.lathe l).halt.isSome = true → exec (.burstGrant l) s = .next s) ∧
  (∀ (s : State) (b r l k : Nat) (u : Burst), (s.ring b r).channel = some (l, k) → (s.lathe l).reserved = none → (s.ring b r).descs.findSome? (s.keptBack b l) = some u →
    ∃ t, exec (.reservationStart b r) s = .next t ∧ (t.lathe l).reserved = some ⟨b, r, u.reorder, min 64 u.reads.length, min 64 u.dst.length⟩ ∧ (t.lathe l).channels = (s.lathe l).channels ∧ (∀ m, m ≠ l → t.lathe m = s.lathe m)) ∧
  (∀ (s : State) (b l : Nat) (d : Desc) (u : Burst), s.keptBack b l d = some u → d.issuing = true ∧ s.nextBurst b d l = .burst u ∧ (s.lathe l).fits u = false ∧ ∃ w, d.roomWait = some w ∧ w.since.toNat + 8 ≤ s.now.toNat) ∧
  (∀ (s : State) (b r l k : Nat), (s.ring b r).channel = some (l, k) → (s.lathe l).reserved.isSome = true ∨ (s.ring b r).descs.findSome? (s.keptBack b l) = none → exec (.reservationStart b r) s = .next s) ∧
  (∀ (s : State) (l n : Nat) (u : SlotUse) (data : List Byte), s.hostSlot l n = false → s.unsent (.lathe l n false) = false → (s.lathe l).reads.find? (fun u => u.slot == n) = some u → u.die = none → u.hub = none → s.recovery.markIn (u.spa.toNat - ledgerBase) u.len = none →
    exec (.readDataReturn l n .ok data) s = .next (s.deliver l n data)) ∧
  (∀ (s : State) (l n p : Nat) (u : SlotUse) (data : List Byte), s.hostSlot l n = false → s.unsent (.lathe l n false) = false → (s.lathe l).reads.find? (fun u => u.slot == n) = some u → u.die = none → u.hub = none → s.recovery.markIn (u.spa.toNat - ledgerBase) u.len = some p →
    exec (.readDataReturn l n .ok data) s = .next ((s.logLedgerUe (BitVec.ofNat 64 (ledgerBase + p))).failRead l n 0x22 4 fun _ => BitVec.ofNat 64 (ledgerBase + p))) ∧
  (∀ (s : State) (l n d : Nat) (u : SlotUse) (data : List Byte), s.hostSlot l n = false → s.unsent (.lathe l n false) = false → (s.lathe l).reads.find? (fun u => u.slot == n) = some u → u.die = some d → u.hub = none →
    exec (.readDataReturn l n .ok data) s = .next ((s.countPerf (65 + 4 * d) data.length).deliver l n data)) ∧
  (∀ (s : State) (l n d : Nat) (u : SlotUse) (data : List Byte), s.hostSlot l n = false → s.unsent (.lathe l n false) = false → (s.lathe l).reads.find? (fun u => u.slot == n) = some u → u.die = some d → u.hub = none → u.chaff = true → s.admitted l = [] → s.ringsOn l = [] →
    ∃ t, exec (.readDataReturn l n .ok data) s = .next t ∧ t.lathe l = { s.lathe l with reads := (s.lathe l).reads.filter fun v => v.slot != n } ∧ (∀ b r, t.ring b r = s.ring b r)) ∧
  (∀ (s : State) (l n d : Nat) (u : SlotUse), s.hostSlot l n = false → s.unsent (.lathe l n false) = false → (s.lathe l).reads.find? (fun u => u.slot == n) = some u → u.die = some d → u.hub = none →
    exec (.readDataReturn l n .dieEcc []) s = .next ((s.countPerf (65 + 4 * d) 0).failRead l n 0x22 1 SlotUse.spa)) ∧
  (∀ (s : State) (c : Instr) (l n : Nat) (st : MemStatus) (data : List Byte), (c = .readDataReturn l n st data ∧ s.hostSlot l n = false ∧ (s.lathe l).reads.find? (fun u => u.slot == n) = none) ∨ (c = .writeAck l n st ∧ l ≠ 16 ∧ (s.lathe l).writes.find? (fun u => u.slot == n) = none) → s.running = true → l < s.nLathes →
    exec c s = .next (s.haltLathe l none)) ∧
  (∀ (s : State) (l n : Nat) (u : SlotUse), l ≠ 16 → s.unsent (.lathe l n true) = false → (s.lathe l).writes.find? (fun u => u.slot == n) = some u → exec (.writeAck l n .ok) s = .next ((s.ackWrite l n .ok).replayNext l)) ∧
  (∀ (s : State) (l n d : Nat) (u : SlotUse), l ≠ 16 → s.unsent (.lathe l n true) = false → (s.lathe l).writes.find? (fun u => u.slot == n) = some u → u.die = some d →
    ∃ t, exec (.writeAck l n .writeRefused) s = .next t ∧ (t.die d).writeErr = (s.die d).writeErr + 1 ∧ (∀ e, e ≠ d → (t.die e).writeErr = (s.die e).writeErr)) ∧
  (∀ (s : State) (n : Nat) (q : Bar2Put), s.unsent (.put n) = false → s.isTrailer n = false → s.bar2Writes = [q] → q.id = n → s.streams = [] →
    ∃ t, exec (.writeAck 16 n .ok) s = .next t ∧ t.bar2Writes = (State.serveQueue { s.portDone (.put n) with bar2Writes := [] } q.port q.fn).bar2Writes) ∧
  (∀ (s : State) (b r : Nat) (d : Desc), (s.ring b r).descs.find? (fun d => d.phase == .trigger && trigOf d.bytes == 2 && s.mayStart b r d && s.lineSet b (trigArgOf d.bytes)) = some d → s.desc b r d.count = some d →
    ∃ t, exec (.triggerFire b r) s = .next t ∧ t.desc b r d.count = some { d with phase := .fired, order := (s.bench b).nextOrder } ∧ (t.bench b).nextOrder = (s.bench b).nextOrder + 1 ∧ t.events = s.events) ∧
  (∀ (s : State) (b r : Nat), (∀ d ∈ (s.ring b r).descs, d.phase = .trigger → trigOf d.bytes = 2 → s.mayStart b r d = true → s.lineSet b (trigArgOf d.bytes) = false) → exec (.triggerFire b r) s = .next s) ∧
  (∀ (s : State) (x : Bool) (n b : Nat), s.domainWorks (clusterDomain x) = true → s.paceDue x n = true → (s.paceTimer x n).holder = some b →
    ∃ t, exec (.paceTimerExpiry x n) s = .next t ∧ t.paceTimer x n = { s.paceTimer x n with expiries := (s.paceTimer x n).expiries + 1 } ∧ t.events = s.events) ∧
  (∀ (s : State) (x : Bool) (n : Nat), s.paceDue x n = false → exec (.paceTimerExpiry x n) s = .next s) ∧
  (∀ (s : State) (b r l k : Nat) (d : Desc) (w : BitVec 64), (s.ring b r).channel = some (l, k) → (s.ring b r).descs = [d] → d.issuing = true → d.bursts = [] → s.paceOpen b r d.bytes = false → d.paceWait = some w → w.toNat + 10 ≤ s.now.toNat →
    ∃ t, exec (.pacingYield b r) s = .next t ∧ (t.ring b r).channel = none ∧ tabGet (t.lathe l).channels none k = none ∧ (t.ring b r).descs = [d])

/-- Claiming and releasing event lines and pace timers, arming. EVENT_CLAIM takes a free line within 16 per tenant bench; a line of its own stays as it is; otherwise EVENT_CLAIM_FAIL counts and no line changes. EVENT_RELEASE frees a held line and otherwise counts. PACE_CLAIM takes a free timer of a present cluster and otherwise counts; PACE_RELEASE resets the timer; PACE_ARM with a period of at least 10 starts it and otherwise counts a bad access; PACE_DISARM stops it. Where stated, every other line is as before. Rows: EVENT_CLAIM, EVENT_RELEASE, PACE_CLAIM, PACE_RELEASE, PACE_ARM, PACE_DISARM. The conditions and results are exactly those of the Lean clauses. Where it rests on a choice of the model's own rather than a rule: log entries 1, 35. (R244, R245, R247, R248, R599, R600) -/
def Obligations.EventLinesAndPaceTimers : Prop :=
  (∀ (s : State) (b n : Nat), s.decodes (s.bench b).port (s.bench b).fn = true → s.benchServes b = true → (s.event n).holder = none → b = 0 ∨ s.linesHeld b < 16 →
    ∃ t, exec (.eventClaim b n) s = .next t ∧ t.event n = ⟨some b, false⟩ ∧ (t.bench b).counters = (s.bench b).counters ∧ (∀ m, m ≠ n → t.event m = s.event m)) ∧
  (∀ (s : State) (b n : Nat), s.decodes (s.bench b).port (s.bench b).fn = true → s.benchServes b = true → ((s.event n).holder = none ∧ b ≠ 0 ∧ 16 ≤ s.linesHeld b) ∨ (∃ c, (s.event n).holder = some c ∧ c ≠ b) →
    ∃ t, exec (.eventClaim b n) s = .next t ∧ t.events = s.events ∧ (t.bench b).counters.claimFail = (s.bench b).counters.claimFail + 1) ∧
  (∀ (s : State) (b n : Nat), s.decodes (s.bench b).port (s.bench b).fn = true → s.benchServes b = true → (s.event n).holder = some b →
    ∃ t, exec (.eventRelease b n) s = .next t ∧ t.event n = EventLine.reset ∧ (∀ m, m ≠ n → t.event m = s.event m)) ∧
  (∀ (s : State) (b n : Nat), s.decodes (s.bench b).port (s.bench b).fn = true → s.benchServes b = true → (s.event n).holder ≠ some b →
    ∃ t, exec (.eventRelease b n) s = .next t ∧ t.events = s.events ∧ (t.bench b).counters.claimFail = (s.bench b).counters.claimFail + 1) ∧
  (∀ (s : State) (b k n : Nat) (x : Bool), s.decodes (s.bench b).port (s.bench b).fn = true → s.benchServes b = true → (s.paceSlot b k).claim = false → s.clusterPresent x = true → (s.paceTimer x n).holder = none →
    ∃ t, exec (.paceClaim b k n x) s = .next t ∧ t.paceSlot b k = { s.paceSlot b k with timer := BitVec.ofNat 6 n, clusterB := x, claim := true } ∧ t.paceTimer x n = ⟨some b, k, false, 0, 0⟩) ∧
  (∀ (s : State) (b k n : Nat) (x : Bool), s.decodes (s.bench b).port (s.bench b).fn = true → s.benchServes b = true → (s.paceSlot b k).claim = false → s.clusterPresent x = false ∨ (s.paceTimer x n).holder.isSome = true →
    ∃ t, exec (.paceClaim b k n x) s = .next t ∧ (t.bench b).counters.claimFail = (s.bench b).counters.claimFail + 1 ∧ (t.paceSlot b k).claim = false ∧ t.paceTimers = s.paceTimers) ∧
  (∀ (s : State) (b k : Nat), s.decodes (s.bench b).port (s.bench b).fn = true → s.benchServes b = true → (s.paceSlot b k).claim = true →
    ∃ t, exec (.paceRelease b k) s = .next t ∧ t.paceSlot b k = { s.paceSlot b k with claim := false, arm := false } ∧ t.paceTimer (s.paceSlot b k).clusterB (s.paceSlot b k).timer.toNat = PaceTimer.reset) ∧
  (∀ (s : State) (b k : Nat), s.decodes (s.bench b).port (s.bench b).fn = true → s.benchServes b = true → (s.paceSlot b k).claim = true → (s.paceSlot b k).arm = false → 10 ≤ (s.paceSlot b k).period.toNat →
    ∃ t, exec (.paceArm b k) s = .next t ∧ t.paceSlot b k = { s.paceSlot b k with arm := true } ∧ t.paceTimer (s.paceSlot b k).clusterB (s.paceSlot b k).timer.toNat = { s.paceTimer (s.paceSlot b k).clusterB (s.paceSlot b k).timer.toNat with armed := true, expiries := 0, armedAt := s.now }) ∧
  (∀ (s : State) (b k : Nat), s.decodes (s.bench b).port (s.bench b).fn = true → s.benchServes b = true → (s.paceSlot b k).claim = false ∨ (s.paceSlot b k).period.toNat < 10 →
    ∃ t, exec (.paceArm b k) s = .next t ∧ t.paceSlot b k = s.paceSlot b k ∧ t.paceTimers = s.paceTimers ∧ (t.bench b).counters.badAccess = (s.bench b).counters.badAccess + 1) ∧
  (∀ (s : State) (b k : Nat), s.decodes (s.bench b).port (s.bench b).fn = true → s.benchServes b = true → (s.paceSlot b k).claim = true →
    ∃ t, exec (.paceDisarm b k) s = .next t ∧ t.paceSlot b k = { s.paceSlot b k with arm := false } ∧ (t.paceTimer (s.paceSlot b k).clusterB (s.paceSlot b k).timer.toNat).armed = false) ∧
  (∀ (s : State) (b n : Nat), s.decodes (s.bench b).port (s.bench b).fn = true → s.benchServes b = true → (s.event n).holder = some b → exec (.eventClaim b n) s = .next (s.unstage b))

/-- Lathe bus errors, replay and isolation. LATHE_BUS_ERROR halts the lathe at that time and ends its reservation. HALT_REPLAY_RESPONSE with an error names the culprit; without one, or at HALT_REPLAY_TIMEOUT, the replay goes on to the next request, which is sent once no write of the lathe is outstanding. HALT_ISOLATION_DONE without a culprit logs and remembers an unattributed error, fences the lathe on the third within 1 s, and with a culprit ends the halt and acts on it, unless it was swept meanwhile. Rows: LATHE_BUS_ERROR, HALT_REPLAY_RESPONSE, HALT_REPLAY_TIMEOUT, HALT_ISOLATION_DONE. The conditions and results are exactly those of the Lean clauses. Where it rests on a choice of the model's own rather than a rule: log entries 3, 5, 37. (R251, R252, R253, R254, R255, R257) -/
def Obligations.LatheHalts : Prop :=
  (∀ (s : State) (l : Nat) (g : Option (BitVec 16)), s.running = true → l < s.nLathes →
    ∃ t, exec (.latheBusError l g) s = .next t ∧ (t.lathe l).halt.map (fun h => (h.since, h.tag)) = some (s.now, g) ∧ (t.lathe l).reserved = none ∧ t.headstock = s.headstock) ∧
  (∀ (s : State) (l : Nat) (h : Halt) (i : ReplayItem) (rest : List ReplayItem), (s.lathe l).halt = some h → h.replay = i :: rest → h.sent = true → h.culprit = none →
    exec (.haltReplayResponse l true) s = .next (s.modLathe l fun x => { x with halt := some { h with replay := [], sent := false, culprit := some i } })) ∧
  (∀ (s : State) (c : Instr) (l : Nat) (h : Halt) (i : ReplayItem) (rest : List ReplayItem), c = .haltReplayResponse l false ∨ c = .haltReplayTimeout l → (s.lathe l).halt = some h → h.replay = i :: rest → h.sent = true → h.culprit = none →
    exec c s = .next ((s.modLathe l fun x => { x with halt := some { h with replay := rest, sent := false } }).replayNext l)) ∧
  (∀ (s : State) (l : Nat) (h : Halt) (i : ReplayItem) (rest : List ReplayItem), (s.lathe l).halt = some h → h.replay = i :: rest → h.sent = false → h.culprit = none → (s.lathe l).writes = [] →
    s.replayNext l = (s.modLathe l fun x => { x with halt := some { h with sent := true } }).sendReplay l i) ∧
  (∀ (s : State) (l : Nat) (h : Halt), (s.lathe l).halt = some h → (s.lathe l).writes ≠ [] → s.replayNext l = s) ∧
  (∀ (s : State) (l : Nat) (h : Halt), (s.lathe l).halt = some h → (s.lathe l).writes = [] → h.replay = [] → h.culprit = none → h.halted = [] → (s.lathe l).unattributed = [] →
    ∃ t, exec (.haltIsolationDone l) s = .next t ∧ (t.lathe l).halt = none ∧ (t.lathe l).unattributed = [s.now] ∧ (t.lathe l).fenced = (s.lathe l).fenced ∧ t.recovery.logSeq = s.recovery.logSeq + 1) ∧
  (∀ (s : State) (l : Nat) (h : Halt) (a b : BitVec 64), (s.lathe l).halt = some h → (s.lathe l).writes = [] → h.replay = [] → h.culprit = none → h.halted = [] → (s.lathe l).unattributed = [a, b] → s.now.toNat < a.toNat + 1000000 → s.now.toNat < b.toNat + 1000000 →
    ∃ t, exec (.haltIsolationDone l) s = .next t ∧ (t.lathe l).fenced = true) ∧
  (∀ (s : State) (l k : Nat) (h : Halt) (i : ReplayItem), (s.lathe l).halt = some h → (s.lathe l).writes = [] → h.replay = [] → h.culprit = some i → h.halted = [(k, i.bench, i.ring)] →
    exec (.haltIsolationDone l) s = .next (((s.modLathe l fun x => { x with halt := none }).endCulprit l i h.since).pumpLathe l)) ∧
  (∀ (s : State) (l : Nat) (h : Halt) (i : ReplayItem), (s.lathe l).halt = some h → (s.lathe l).writes = [] → h.replay = [] → h.culprit = some i → h.halted = [] →
    exec (.haltIsolationDone l) s = .next ((s.modLathe l fun x => { x with halt := none }).pumpLathe l))

/-- Steps of LAUNCH from acceptance to start, and a band placed for another hub. LAUNCH starts staging where a slot is free and waits otherwise. LAUNCH_STAGE_DONE checks the blank and takes a placement number, or fails with the read's outcome; nothing is staged while RATE_CAP holds the bench back. LAUNCH_PLACE_START takes the dense engine and notes the free cores, or fails with QUOTA and the shortfall. PLACEMENT_DONE places the cores, or fails with the shortfall or with the failure that another hub answered. LAUNCH_LOAD_DONE stamps a start 2 us ahead, and changes nothing while a write of the blank to a die is not acknowledged. LAUNCH_START_TIME runs the placement and completes with number, hub count and place time. REMOTE_BAND_PLACEMENT places a guest's band and answers its cores, or none when the engine is out of service or without power, or a range cannot be pinned; a stale message is counted. Rows: LAUNCH, LAUNCH_STAGE_DONE, LAUNCH_PLACE_START, PLACEMENT_DONE, LAUNCH_LOAD_DONE, LAUNCH_START_TIME, REMOTE_BAND_PLACEMENT. The conditions and results are exactly those of the Lean clauses. Where it rests on a choice of the model's own rather than a rule: log entries 5, 6, 15, 44, 87, 88. (R399, R400, R401, R402, R405, R406) -/
def Obligations.LaunchSteps : Prop :=
  (∀ (s u : State) (b r : Nat) (d : Desc), s.begin b r 0x20 = some (d, u) → (u.giveUp b r 1).launchOf b r = none → lengthOf d.bytes ≤ 2 ^ 28 → (u.giveUp b r 1).launches.length < 4 →
    ∃ t, exec (.launch b r) s = .next t ∧ t.launches = (u.giveUp b r 1).launches ++ [⟨b, r, d.count, .staging, [], [], 0, 0, 0, 0, [], [], []⟩] ∧ t.benches = (u.giveUp b r 1).benches ∧ t.placements = (u.giveUp b r 1).placements) ∧
  (∀ (s u : State) (b r : Nat) (d : Desc), s.begin b r 0x20 = some (d, u) → (u.giveUp b r 1).launchOf b r = none → lengthOf d.bytes ≤ 2 ^ 28 → 4 ≤ (u.giveUp b r 1).launches.length →
    exec (.launch b r) s = .next (u.giveUp b r 1)) ∧
  (∀ (s u : State) (b r : Nat) (l : Launch) (d : Desc) (blank params y : List Byte), s.launchOf b r = some l → l.bench = b → s.desc b r l.desc = some d → l.stage = .staging → d.phase = .started → (s.bench b).state ≠ .sweeping → s.channelRuns b r = true → (s.bench b).rateOpen = true → selOf d.bytes 1 = 0 →
    s.scanAll b (operandOf d.bytes d.order 0 false) (lengthOf d.bytes) = none → s.load b (operandOf d.bytes d.order 0 false) 0 (lengthOf d.bytes) = some u → s.loaded b (operandOf d.bytes d.order 0 false) (lengthOf d.bytes) (.ok blank params) = .ok blank params →
    y = s.allBytes b (operandOf d.bytes d.order 0 false) blank (lengthOf d.bytes) → blankFailure y (lengthOf d.bytes) = none → (blankInfo y).ranges = 0 → (blankInfo y).slots = 0 →
    s.coresPlaced b + (blankInfo y).rows * (blankInfo y).cols ≤ (s.bench b).limits.cores.toNat → s.placeNumber b ≠ 0 →
    ∃ t, exec (.launchStageDone b r (.ok blank params)) s = .next t ∧ t.placements = s.placements ++ [⟨s.hubId, b, s.placeNumber b, .loading, (blankInfo y).rows, (blankInfo y).cols, [], 0, [], false, none, false, none, false⟩] ∧
    (t.launches.getLast?).map (fun m => (m.bench, m.stage, m.number, m.blank)) = some (b, .ready, s.placeNumber b, y) ∧ t.out = u.out) ∧
  (∀ (s u : State) (b r : Nat) (l : Launch) (d : Desc) (code detail : Nat) (address : BitVec 64), s.launchOf b r = some l → l.bench = b → s.desc b r l.desc = some d → l.stage = .staging → d.phase = .started → (s.bench b).state ≠ .sweeping → s.channelRuns b r = true → (s.bench b).rateOpen = true → selOf d.bytes 1 = 0 →
    s.scanAll b (operandOf d.bytes d.order 0 false) (lengthOf d.bytes) = none → s.load b (operandOf d.bytes d.order 0 false) 0 (lengthOf d.bytes) = some u → 
    exec (.launchStageDone b r (.failed code detail address)) s = .next ((u.logLoad code detail address).failLaunch l code detail address)) ∧
  (∀ (s : State) (b r : Nat) (l : Launch) (x : LoadResult), s.launchOf b r = some l → (s.bench b).rateOpen = false → exec (.launchStageDone b r x) s = .next s) ∧
  (∀ (s : State) (b r : Nat) (free : List (Nat × Nat)) (l : Launch), s.launches.find? (fun l => l.stage == .ready && (s.bench l.bench).state != .sweeping) = some l → l.bench = b → l.ring = r → s.dense.placing = none → s.dense.outOfService = false → s.structureHeld .placements b = false → s.domainWorks 9 = true → s.runningJob false = none →
    (blankInfo l.blank).rows * (blankInfo l.blank).cols ≤ s.freeCores.length →
    ∃ t, exec (.launchPlaceStart b r free) s = .next t ∧ t.dense.placing = some (b, r) ∧ t.launches = (s.modLaunch b r fun l => { l with stage := .placing, placeStart := s.now, bands := [(s.hubId, 0, (blankInfo l.blank).rows)], free := s.freeCores }).launches ∧ t.placements = s.placements ∧ t.out = s.out) ∧
  (∀ (s : State) (b r : Nat) (free : List (Nat × Nat)) (l : Launch), s.launches.find? (fun l => l.stage == .ready && (s.bench l.bench).state != .sweeping) = some l → l.bench = b → l.ring = r → s.dense.placing = none → s.dense.outOfService = false → s.structureHeld .placements b = false → s.domainWorks 9 = true → s.runningJob false = none →
    s.freeCores.length < (blankInfo l.blank).rows * (blankInfo l.blank).cols → (blankInfo l.blank).span = false →
    exec (.launchPlaceStart b r free) s = .next (s.failLaunch l 0x32 0 (BitVec.ofNat 64 ((blankInfo l.blank).rows * (blankInfo l.blank).cols - s.freeCores.length)))) ∧
  (∀ (s : State) (b r : Nat) (bands : List (Nat × Nat × Nat × Nat × Nat)) (f : Option (Nat × Nat × Nat)) (l : Launch), s.launchOf b r = some l → l.stage = .placing → s.structureHeld .placements b = false → (s.bench b).state ≠ .sweeping → l.bands = [] → l.bench = b → l.ring = r → (blankInfo l.blank).rows * (blankInfo l.blank).cols ≠ 0 →
    exec (.placementDone b r bands f) s = .next ((s.failLaunch l 0x32 0 (BitVec.ofNat 64 ((blankInfo l.blank).rows * (blankInfo l.blank).cols))).nextJob false)) ∧
  (∀ (s : State) (b r n : Nat) (bands : List (Nat × Nat × Nat × Nat × Nat)) (f : Option (Nat × Nat × Nat)) (l : Launch) (p : Placement) (own : List PlacedCore), s.launchOf b r = some l → l.stage = .placing → s.structureHeld .placements b = false → (s.bench b).state ≠ .sweeping → l.bands = [(s.hubId, 0, n)] → s.ownPlacement b l.number = some p → p.state = .loading →
    own = s.bandCores (s.placeInputs n (blankInfo l.blank).cols (blankInfo l.blank).seed l.budget (l.free.filter fun c => s.freeCores.contains c)) (l.free.filter fun c => s.freeCores.contains c) 0 n (blankInfo l.blank).cols →
    ∃ t, exec (.placementDone b r bands f) s = .next t ∧ ((blankInfo l.blank).rows * (blankInfo l.blank).cols ≤ own.length → t.ownPlacement b l.number = some { p with cores := own } ∧ (t.launchOf b r).map Launch.stage = some .loading) ∧
    (own.length < (blankInfo l.blank).rows * (blankInfo l.blank).cols → t = (s.failLaunch l 0x32 0 (BitVec.ofNat 64 ((blankInfo l.blank).rows * (blankInfo l.blank).cols - own.length))).nextJob false)) ∧
  (∀ (s : State) (b r : Nat) (l : Launch) (p : Placement), s.launchOf b r = some l → l.stage = .loading → l.loads = [] → (s.bench b).state ≠ .sweeping → s.ownPlacement b l.number = some p → s.placeHubs p = [] →
    exec (.launchLoadDone b r) s = .next (s.modLaunch b r fun l => { l with stage := .stamped (s.now + 2) })) ∧
  (∀ (s : State) (b r : Nat) (l : Launch) (p : Placement) (d : Desc) (v : BitVec 64), s.launchOf b r = some l → l.stage = .stamped v → v.toNat ≤ s.now.toNat → (s.bench b).state ≠ .sweeping → s.benchHeld b = false → s.ownPlacement b l.number = some p → p.state = .loading → s.placeHubs p = [] → s.desc b r l.desc = some d → d.status = none → d.sealNote = none →
    ∃ t, exec (.launchStartTime b r) s = .next t ∧ t.ownPlacement b l.number = some { p with state := .running, started := true, frozen := false, release := none } ∧ t.launchOf b r = none ∧ (t.desc b r l.desc).map Desc.status = some (some ⟨0, 0, 255, BitVec.ofNat 64 (l.number + 2 ^ 8 * 1 + 2 ^ 32 * l.placeTime)⟩)) ∧
  (∀ (s : State) (home b g n row rows cols flags queues seed budget : Nat) (incarn : BitVec 16) (cls : Nat) (cap : BitVec 32) (ranges : List (Nat × Nat × Bool)), s.chartered = true → home ≠ s.hubId → s.guestSlot home b = some g → s.msgCurrent home b incarn = true → s.pinRanges (256 + g) ranges = (none, s) → s.routed home = true → s.dense.outOfService = false → s.domainWorks 9 = true → s.dense.placing = none → s.placement home b n = none →
    rows * cols ≤ (s.bandCores (s.placeInputs rows cols seed budget s.freeCores) s.freeCores row rows cols).length →
    ∃ t, exec (.remoteBandPlacement home b incarn cls cap n row rows cols flags queues seed budget ranges) s = .next t ∧ t.placements = s.placements ++ [⟨home, b, n, .loading, rows, cols, s.bandCores (s.placeInputs rows cols seed budget s.freeCores) s.freeCores row rows cols, 0, [], false, none, false, none, false⟩] ∧
    t.out.getLast? = some (.envan home (.bandDone home b n ((s.bandCores (s.placeInputs rows cols seed budget s.freeCores) s.freeCores row rows cols).map fun c => (c.die, c.core, c.row, c.col)) none))) ∧
  (∀ (s : State) (home b g n row rows cols flags queues seed budget : Nat) (incarn : BitVec 16) (cls : Nat) (cap : BitVec 32) (ranges : List (Nat × Nat × Bool)), s.chartered = true → home ≠ s.hubId → s.guestSlot home b = some g → s.msgCurrent home b incarn = true → s.pinRanges (256 + g) ranges = (none, s) → s.dense.outOfService = true ∨ s.domainWorks 9 = false →
    exec (.remoteBandPlacement home b incarn cls cap n row rows cols flags queues seed budget ranges) s = .next (s.sendHub home (.bandDone home b n [] none))) ∧
  (∀ (s u : State) (home b g n row rows cols flags queues seed budget : Nat) (incarn : BitVec 16) (cls : Nat) (cap : BitVec 32) (ranges : List (Nat × Nat × Bool)) (e : Nat × Nat × Nat), s.chartered = true → home ≠ s.hubId → s.guestSlot home b = some g → s.msgCurrent home b incarn = true → s.pinRanges (256 + g) ranges = (some e, u) →
    exec (.remoteBandPlacement home b incarn cls cap n row rows cols flags queues seed budget ranges) s = .next (u.sendHub home (.bandDone home b n [] (some e)))) ∧
  (∀ (s : State) (home b n row rows cols flags queues seed budget : Nat) (incarn : BitVec 16) (cls : Nat) (cap : BitVec 32) (ranges : List (Nat × Nat × Bool)), s.chartered = true → home ≠ s.hubId → (s.guestSlot home b).isSome = true → s.msgCurrent home b incarn = false →
    exec (.remoteBandPlacement home b incarn cls cap n row rows cols flags queues seed budget ranges) s = .next s.staleMessage) ∧
  (∀ (s : State) (b r code detail va : Nat) (bands : List (Nat × Nat × Nat × Nat × Nat)) (l : Launch), s.launchOf b r = some l → l.stage = .placing → s.structureHeld .placements b = false → (s.bench b).state ≠ .sweeping → (l.bands.any fun e => e.1 != s.hubId) = true →
    exec (.placementDone b r bands (some (code, detail, va))) s = .next ((s.failLaunch l code detail (BitVec.ofNat 64 va)).nextJob false)) ∧
  (∀ (s : State) (b r : Nat) (l : Launch), s.launchOf b r = some l → l.loads ≠ [] → exec (.launchLoadDone b r) s = .next s)

/-- Schedule holds: late inputs, hold and release messages, release times, HOLD_LONG. PLACE_RELEASE freezes and releases a running placement, and counts for one that does not exist; PLACE_RELEASE_DONE removes it. LATE_SET freezes the core's placement and records the late input; on a core with no placement it and LATE_CLEAR log one error. LATE_CLEAR of the last late input stamps a release 2 us ahead. HOLD_FORWARD, LATE_REPORT and RELEASE_MESSAGE act on a current message and count a stale one. RELEASE_TIME runs the placement at the stamped time, not before. HOLD_LONG sends one notice per hold after 1 ms. Rows: PLACE_RELEASE, PLACE_RELEASE_DONE, LATE_SET, LATE_CLEAR, HOLD_FORWARD, RELEASE_MESSAGE, LATE_REPORT, RELEASE_TIME, HOLD_LONG. The conditions and results are exactly those of the Lean clauses. Where it rests on a choice of the model's own rather than a rule: log entries 3, 45, 87. (R409, R412, R413, R414, R415, R416, R417, R484, R457) -/
def Obligations.HoldAndRelease : Prop :=
  (∀ (s : State) (b n : Nat) (p : Placement), s.decodes (s.bench b).port (s.bench b).fn = true → s.benchServes b = true → s.ownPlacement b n = some p → p.state = .running →
    ∃ t, exec (.placeRelease b n) s = .next t ∧ t.ownPlacement b n = some { p with state := .releasing, frozen := true, lates := [], release := none, holdStart := none }) ∧
  (∀ (s : State) (b n : Nat), s.decodes (s.bench b).port (s.bench b).fn = true → s.benchServes b = true → s.ownPlacement b n = none →
    exec (.placeRelease b n) s = .next ((s.unstage b).countBench b)) ∧
  (∀ (s : State) (home b n : Nat) (p : Placement), s.placement home b n = some p → p.state = .releasing → s.structureHeld .placements (s.ownerOf home b) = false → s.launches = [] →
    ∃ t, exec (.placeReleaseDone home b n) s = .next t ∧ t.placements = s.placements.filter (fun q => !(q.home == home && q.bench == b && q.number == n)) ∧ t.launches = [] ∧ t.out = s.out) ∧
  (∀ (s : State) (d c : Nat) (p : Placement), s.placementOf d c = some p → s.placement p.home p.bench p.number = some p → p.state ≠ .releasing → p.home = s.hubId →
    ∃ t, exec (.lateSet d c) s = .next t ∧ (t.placement p.home p.bench p.number).map (fun x => (x.frozen, x.release, x.lates.contains (s.hubId, d, c), x.state)) = some (true, none, true, if p.state = .running then .held else p.state)) ∧
  (∀ (s : State) (d c : Nat), s.placementOf d c = none → exec (.lateSet d c) s = .next (s.logError 4 3 (BitVec.ofNat 64 (d * 256 + c)) 0)) ∧
  (∀ (s : State) (d c : Nat), s.placementOf d c = none → exec (.lateClear d c) s = .next (s.logError 4 3 (BitVec.ofNat 64 (d * 256 + c)) 0)) ∧
  (∀ (s : State) (d c : Nat) (p : Placement), s.placementOf d c = some p → s.placement p.home p.bench p.number = some p → p.home = s.hubId → p.state ≠ .releasing → p.frozen = true → p.started = true → p.release = none → s.benchHeld p.bench = false → s.placeHubs p = [] → p.lates = [(s.hubId, d, c)] →
    ∃ t, exec (.lateClear d c) s = .next t ∧ t.placement p.home p.bench p.number = some { p with lates := [], release := some (s.now + 2) } ∧ t.out = s.out) ∧
  (∀ (s : State) (home b n : Nat) (incarn : BitVec 16) (p : Placement), s.msgCurrent home b incarn = true → s.placement home b n = some p → p.state ≠ .releasing →
    ∃ t, exec (.holdForward home b n incarn) s = .next t ∧ (t.placement home b n).map (fun x => (x.frozen, x.release)) = some (true, none)) ∧
  (∀ (s : State) (home b n : Nat) (incarn : BitVec 16), s.msgCurrent home b incarn = false → exec (.holdForward home b n incarn) s = .next s.staleMessage) ∧
  (∀ (s : State) (home b n : Nat) (incarn : BitVec 16) (v : BitVec 64), s.msgCurrent home b incarn = false → exec (.releaseMessage home b n incarn v) s = .next s.staleMessage) ∧
  (∀ (s : State) (hub b n d c : Nat) (incarn : BitVec 16) (p : Placement), s.msgCurrent s.hubId b incarn = true → s.ownPlacement b n = some p → p.state ≠ .releasing →
    ∃ t, exec (.lateReport hub b n d c true incarn) s = .next t ∧ (t.ownPlacement b n).map (fun x => (x.frozen, x.release, x.lates.contains (hub, d, c))) = some (true, none, true)) ∧
  (∀ (s : State) (home b n : Nat) (incarn : BitVec 16) (v : BitVec 64) (p : Placement), s.msgCurrent home b incarn = true → s.placement home b n = some p → p.state ≠ .releasing →
    ∃ t, exec (.releaseMessage home b n incarn v) s = .next t ∧ t.placement home b n = some { p with release := some v } ∧ t.out = s.out ∧ t.spindles = s.spindles) ∧
  (∀ (s : State) (home b n : Nat) (v : BitVec 64) (p : Placement), s.placement home b n = some p → p.release = some v → p.started = true → v.toNat ≤ s.now.toNat →
    ∃ t, exec (.releaseTime home b n) s = .next t ∧ t.placement home b n = some { p with frozen := false, release := none, holdStart := none, holdLong := false, state := .running }) ∧
  (∀ (s : State) (home b n : Nat) (v : BitVec 64) (p : Placement), s.placement home b n = some p → p.release = some v → s.now.toNat < v.toNat → exec (.releaseTime home b n) s = .next s) ∧
  (∀ (s : State) (b n : Nat) (v : BitVec 64) (p : Placement), s.ownPlacement b n = some p → p.holdStart = some v → p.frozen = true → p.lates ≠ [] → p.holdLong = false → v.toNat + 1000 ≤ s.now.toNat → (s.bench b).state ≠ .vacant → (s.bench b).notices.pending.length + (s.bench b).notices.writing.toList.length < 64 →
    ∃ t, exec (.holdLong b n) s = .next t ∧ t.ownPlacement b n = some { p with holdLong := true } ∧ (t.bench b).notices.pending = (s.bench b).notices.pending ++ [⟨0x0A, 0, noRing, (s.bench b).notices.seq, s.hearth.time, v, BitVec.ofNat 32 (s.now.toNat - v.toNat), b⟩]) ∧
  (∀ (s : State) (b n : Nat) (p : Placement), s.ownPlacement b n = some p → p.holdLong = true → exec (.holdLong b n) s = .next s)

/-- Steps of ANNEAL from acceptance to the result, and strips of other hubs. ANNEAL without the enable completes PERMISSION; with a well-formed dense job that fits it becomes a job that loads. ANNEAL_ADMIT lets the oldest waiting job load when the store has room. ANNEAL_LOAD_DONE sets the initial state. BURL_MOVE makes one move, and none while the Burl has no power; BURL_SLICE_END saves; BURL_CHECKPOINT_DONE makes the job ready and lets the next run; BURL_HALO_RECEIVED keeps the neighbour's row for the next sweep; STRIP_ADMIT makes the strip a job with its rows and coefficients, or answers that it does not fit; ANNEAL_ADMIT ends a job whose strip a hub has refused with HUBS_UNAVAILABLE; STRIP_STATE_RETURN stores a strip's states, and a stale one is counted; ANNEAL_WRITE_DONE ends the job and completes the descriptor. Rows: ANNEAL, ANNEAL_ADMIT, ANNEAL_LOAD_DONE, BURL_MOVE, BURL_SLICE_END, BURL_CHECKPOINT_DONE, BURL_HALO_RECEIVED, ANNEAL_WRITE_DONE, STRIP_ADMIT, STRIP_STATE_RETURN. The conditions and results are exactly those of the Lean clauses. Where it rests on a choice of the model's own rather than a rule: log entries 5, 6, 15, 46, 47, 88. (R422, R426, R427, R429, R430, R439, R447, R448, R449, R450) -/
def Obligations.AnnealSteps : Prop :=
  (∀ (s u : State) (b r : Nat) (d : Desc) (block : LoadResult), s.begin b r 0x21 = some (d, u) → (u.giveUp b r 1).annealOf b r = none → ((u.giveUp b r 1).chip.cfg.bind ImageCfg.burl).map BurlCfg.tenantEnable ≠ some true →
    exec (.anneal b r block) s = .next ((u.giveUp b r 1).endDesc b r d.count 0x12 0 255 0)) ∧
  (∀ (s u w x v : State) (b r n : Nat) (d : Desc) (data params y : List Byte), s.begin b r 0x21 = some (d, u) → w = u.giveUp b r 1 → w.jobs = [] → (w.chip.cfg.bind ImageCfg.burl).map BurlCfg.tenantEnable = some true → w.classHas b BenchClass.burlDense = true → (w.bench b).rateOpen = true →
    w.loaded b (operandOf d.bytes d.order 0 false) 96 (.ok data params) = .ok data params → n = jobLength (w.allBytes b (operandOf d.bytes d.order 0 false) data 96) → w.scanAll b (operandOf d.bytes d.order 0 false) 96 = none → w.scanAll b (operandOf d.bytes d.order 0 false) n = none → w.load b (operandOf d.bytes d.order 0 false) 0 n = some x → v = x.engineCharge b (w.ring b r).clusterB n →
    y = w.allBytes b (operandOf d.bytes d.order 0 false) data n → field y 4 1 = 1 → v.jobFailure y = none →
    (jobSpec y).trace = false → ((jobSpec y).results.all fun h => (v.billetKey b d.order h.toNat 0).isSome) = true → 64 + 2 * stateBytes (jobSpec y).spins ≤ v.resultBytes (jobSpec y).results → (jobSpec y).parts = [] → w.dense.outOfService = false → (jobSpec y).spins * (jobSpec y).spins * ((jobSpec y).width / 8) + (jobSpec y).spins * ((jobSpec y).width / 8) ≤ denseStore w.big →
    ∃ t, exec (.anneal b r (.ok data params)) s = .next t ∧ (t.jobOf t.hubId b r none).map (fun j => (j.phase, j.desc, j.spec, j.move)) = some (.load, d.count, jobSpec y, 0) ∧ t.billetMem = w.billetMem) ∧
  (∀ (s : State) (b r : Nat) (l : List Nat) (j : Job), s.annealOf b r = some j → j.phase = .admission → (s.bench b).state ≠ .sweeping → j.spec.parts = [] → s.jobs.find? (fun x => x.spec.lattice == j.spec.lattice && x.phase == .admission) = some j → (s.engine j.spec.lattice).outOfService = false → (j.spec.lattice = true ∨ s.storeUsed + j.store ≤ denseStore s.big) →
    ∃ t, exec (.annealAdmit b r l) s = .next t ∧ t.jobs = (s.setJob { j with phase := .load }).jobs ∧ t.billetMem = s.billetMem) ∧
  (∀ (s u : State) (b r : Nat) (d : Desc) (j : Job) (coef init : List Byte), s.annealOf b r = some j → s.desc b r j.desc = some d → j.phase = .load → d.phase = .started → (s.bench b).state ≠ .sweeping → s.channelRuns b r = true → (s.bench b).rateOpen = true → j.spec.parts = [] → j.spec.initRandom = true → j.spec.target = false →
    s.scanAll b ⟨0, d.order, j.spec.coefSel, pasidOf d.bytes, j.spec.coef.toNat, specCoefs j.spec * (j.spec.width / 8), false⟩ (specCoefs j.spec * (j.spec.width / 8)) = none → s.scanAll b ⟨0, d.order, j.spec.initSel, pasidOf d.bytes, j.spec.init.toNat, 0, false⟩ 0 = none → s.load b ⟨0, d.order, j.spec.coefSel, pasidOf d.bytes, j.spec.coef.toNat, specCoefs j.spec * (j.spec.width / 8), false⟩ 0 (specCoefs j.spec * (j.spec.width / 8)) = some u → s.loaded b ⟨0, d.order, j.spec.coefSel, pasidOf d.bytes, j.spec.coef.toNat, specCoefs j.spec * (j.spec.width / 8), false⟩ (specCoefs j.spec * (j.spec.width / 8)) (.ok coef init) = .ok coef init → s.loaded b ⟨0, d.order, j.spec.initSel, pasidOf d.bytes, j.spec.init.toNat, 0, false⟩ 0 (.ok coef init) = .ok coef init →
    ∃ t, exec (.annealLoadDone b r (.ok coef init)) s = .next t ∧ (t.annealOf b r).map (fun k => (k.spins, k.best, k.move)) = some ((List.range j.spec.spins).map (randomSpin j.spec.seed 0), (List.range j.spec.spins).map (randomSpin j.spec.seed 0), j.move)) ∧
  (∀ (s : State) (j : Job), s.runningJob j.spec.lattice = some j → j.phase = .running → s.domainWorks 9 = true → s.sliceDue j = false → (s.bench j.bench).state ≠ .sweeping → j.strip = none → s.jobOf j.home j.bench j.ring none = some j →
    ∃ t, exec (.burlMove j.spec.lattice) s = .next t ∧ (t.jobOf j.home j.bench j.ring none).map (fun k => (k.spins, k.move)) = some (j.moveOnce.spins, j.move + 1)) ∧
  (∀ (s : State) (j : Job), s.runningJob j.spec.lattice = some j → s.sliceDue j = true → s.jobOf j.home j.bench j.ring j.strip = some j →
    ∃ t, exec (.burlSliceEnd j.spec.lattice) s = .next t ∧ t.jobOf j.home j.bench j.ring j.strip = some { j with phase := .saving } ∧ (t.engine j.spec.lattice).sliceTime = 0) ∧
  (∀ (s : State) (j : Job), s.runningJob j.spec.lattice = some j → j.phase = .saving →
    exec (.burlCheckpointDone j.spec.lattice) s = .next ((s.setJob { j with phase := .ready }).nextJob j.spec.lattice)) ∧
  (∀ (s : State) (home b r k source n : Nat) (incarn : BitVec 16) (first last : List Bool) (e : Int) (j : Job), s.msgCurrent home b incarn = true → (k ≠ 255 ∨ home ≠ s.hubId) → s.jobOf home b r (some k) = some j → source + 1 = k → j.haloAbove < n →
    ∃ t, exec (.burlHaloReceived home b r incarn k source n first last e) s = .next t ∧ (t.jobOf home b r (some k)).map (fun x => (x.nextAbove, x.haloAbove, x.spins)) = some (last, n, j.spins)) ∧
  (∀ (s : State) (home b r k source n : Nat) (incarn : BitVec 16) (first last : List Bool) (e : Int) (j : Job), s.msgCurrent home b incarn = true → (k ≠ 255 ∨ home ≠ s.hubId) → s.jobOf home b r (some k) = some j → source = k + 1 → j.haloBelow < n → j.phase ≠ .barrier →
    ∃ t, exec (.burlHaloReceived home b r incarn k source n first last e) s = .next t ∧ (t.jobOf home b r (some k)).map (fun x => (x.nextBelow, x.haloBelow, x.above, x.below, x.spins)) = some (first, n, j.above, j.below, j.spins)) ∧
  (∀ (s : State) (home b r k source n : Nat) (incarn : BitVec 16) (first last : List Bool) (e : Int), s.msgCurrent home b incarn = false → exec (.burlHaloReceived home b r incarn k source n first last e) s = .next s.staleMessage) ∧
  (∀ (s : State) (b r : Nat) (d : Desc) (j : Job), s.annealOf b r = some j → j.phase = .writing → (s.bench b).state ≠ .sweeping → s.desc b r j.desc = some d → d.status = none → d.sealNote = none →
    ∃ t, exec (.annealWriteDone b r) s = .next t ∧ t.annealOf b r = none ∧ (t.desc b r j.desc).map Desc.status = some (some (match j.stop with | some k => ⟨0x70, k, 255, BitVec.ofNat 64 j.move⟩ | none => ⟨0, 0, 255, BitVec.ofNat 64 j.move⟩)) ∧ t.billetMem = s.billetMem) ∧
  (∀ (s : State) (home b r g k : Nat) (incarn : BitVec 16) (cls : Nat) (cap : BitVec 32) (j : JobSpec) (coef : List Byte) (init : List Bool), s.chartered = true → home ≠ s.hubId → s.guestSlot home b = some g → s.msgCurrent home b incarn = true → s.jobOf home b r (some k) = none → s.latticeStripTooBig j k = false →
    ∃ t, exec (.stripAdmit home b r incarn cls cap k j coef init) s = .next t ∧ (t.jobOf home b r (some k)).map (fun x => (x.spec, x.spins, x.coef, x.move)) =
    some (j, (init.drop (if k = 0 then 0 else j.cols)).take (stripRows j k * j.cols), coefsOf j.width (5 * j.cols * (stripRows j k + 1)) coef, 0) ∧ t.benches = s.benches) ∧
  (∀ (s : State) (b r k : Nat) (incarn : BitVec 16) (best final : List Bool) (j : Job), s.msgCurrent s.hubId b incarn = true → s.jobOf s.hubId b r none = some j → j.phase = .gathering → (∃ i, i < j.spec.parts.length ∧ i ≠ k ∧ j.lost.contains i = false ∧ (j.returned.any fun x => x.strip == i) = false) →
    exec (.stripStateReturn b r incarn k best final) s = .next (s.setJob { j with returned := j.returned.filter (fun x => x.strip != k) ++ [⟨k, best, final⟩] })) ∧
  (∀ (s : State) (b r k : Nat) (incarn : BitVec 16) (best final : List Bool), s.msgCurrent s.hubId b incarn = false → exec (.stripStateReturn b r incarn k best final) s = .next s.staleMessage) ∧
  (∀ (s : State) (j : Job), s.runningJob j.spec.lattice = some j → s.domainWorks 9 = false → exec (.burlMove j.spec.lattice) s = .next s) ∧
  (∀ (s : State) (home b r k : Nat) (incarn : BitVec 16) (cls : Nat) (cap : BitVec 32) (j : JobSpec) (coef : List Byte) (init : List Bool), s.chartered = true → home ≠ s.hubId → s.msgCurrent home b incarn = true → s.jobOf home b r (some k) = none → s.latticeStripTooBig j k = true →
    exec (.stripAdmit home b r incarn cls cap k j coef init) s = .next (s.sendHub home (.stripRefused home b r k incarn))) ∧
  (∀ (s : State) (b r : Nat) (l : List Nat) (j : Job), s.annealOf b r = some j → (s.bench b).state ≠ .sweeping → j.phase = .barrier → j.sweeps = 0 → (j.spec.parts.any fun p => p.1 != s.hubId && l.contains p.1) = true →
    exec (.annealAdmit b r l) s = .next ((s.endStrips j).endUnrun j 4))

/-- One move of the Burl: which spin flips, and beta over the schedule. With total weight 0 a move flips nothing. Otherwise it flips the spin whose cumulative weight first exceeds floor(u times total / 2^64), u being the generator's 64 bits for the seed, move and strip, and each weight that of the spin's flip. A move flips at most one spin, counts one, and keeps the coefficients. The multiplier of anneal sweep k of a segment moves from BETA_START towards BETA_END by their difference times k divided by SWEEPS, truncated towards zero, with the segment's shift; later sweeps belong to the following segments. The conditions and results are exactly those of the Lean clauses. Where it rests on a choice of the model's own rather than a rule: log entry 46. (R432, R433, R435) -/
def Obligations.MovesOfTheBurl : Prop :=
  (∀ (j : Job) (w : List Nat), w = (List.range j.spins.length).map (fun k => weight ((2 * spinVal ((j.spins[k]?).getD false) * j.localField k * ((betaAt j.spec.segments j.sweeps).1 : Int)).fdiv (2 ^ (betaAt j.spec.segments j.sweeps).2))) → w.sum = 0 → j.moveOnce.spins = j.spins) ∧
  (∀ (j : Job) (w : List Nat) (o : Nat × Nat × Nat × Nat) (r i : Nat), w = (List.range j.spins.length).map (fun k => weight ((2 * spinVal ((j.spins[k]?).getD false) * j.localField k * ((betaAt j.spec.segments j.sweeps).1 : Int)).fdiv (2 ^ (betaAt j.spec.segments j.sweeps).2))) →
    o = philox j.spec.seed j.move (j.move / 2 ^ 32) (j.strip.getD 0) 0 → r = (o.1 + 2 ^ 32 * o.2.1) * w.sum / 2 ^ 64 →
    i < w.length → (w.take i).sum ≤ r → r < (w.take (i + 1)).sum →
    j.moveOnce.spins = j.spins.set i !((j.spins[i]?).getD false)) ∧
  (∀ (j : Job), j.moveOnce.spins = j.spins ∨ ∃ i, i < j.spins.length ∧ j.moveOnce.spins = j.spins.set i !((j.spins[i]?).getD false)) ∧
  (∀ (j : Job), j.moveOnce.move = j.move + 1 ∧ j.moveOnce.spins.length = j.spins.length ∧ j.moveOnce.coef = j.coef) ∧
  (∀ (g : Segment) (l : List Segment) (k : Nat), g.sweeps ≤ k → betaAt (g :: l) k = betaAt l (k - g.sweeps)) ∧
  (∀ (g : Segment) (l : List Segment) (k : Nat), k < g.sweeps → g.betaStart ≤ g.betaEnd → betaAt (g :: l) k = (g.betaStart + (g.betaEnd - g.betaStart) * k / g.sweeps, g.shift)) ∧
  (∀ (g : Segment) (l : List Segment) (k : Nat), k < g.sweeps → g.betaEnd ≤ g.betaStart → betaAt (g :: l) k = (g.betaStart - (g.betaStart - g.betaEnd) * k / g.sweeps, g.shift))

/-- SEAL_OPEN, SEAL_CLOSE, and the outcome of a frame. SEAL_OPEN without the class right completes PERMISSION; with every check passed it opens a free stream and completes with its handle, or waits while the staging pool is full. SEAL_CLOSE waits for captured frames and otherwise frees the stream, keeping the generation. SEAL_CHECK_DONE of a frame that is not forwarded drops it with the expected counter and the chain kept; of one that is, its outcome is recorded and its payload is written, the trailer only once that is acknowledged; one whose pages are no longer mapped is dropped as BROKEN. FRAME_EVENT of a forwarded frame moves the counter and the chain on and counts it. Rows: SEAL_OPEN, SEAL_CLOSE, SEAL_CHECK_DONE, FRAME_EVENT. The conditions and results are exactly those of the Lean clauses. Where it rests on a choice of the model's own rather than a rule: log entries 5, 6, 14, 56, 87. (R533, R534, R535, R538, R540, R541, R542, R547) -/
def Obligations.SealedStreams : Prop :=
  (∀ (s u : State) (b r : Nat) (d : Desc) (block : LoadResult), s.structureHeld .billets b = false → s.begin b r 0x50 = some (d, u) → u.classHas b BenchClass.sealAllowed = false ∨ u.classHas b BenchClass.peerAllowed = false → exec (.sealOpen b r block) s = .next (u.endDesc b r d.count 0x12 0 255 0)) ∧
  (∀ (s u v : State) (b r : Nat) (d : Desc) (data params p : List Byte), s.structureHeld .billets b = false → s.begin b r 0x50 = some (d, u) → u.classHas b BenchClass.sealAllowed = true → u.classHas b BenchClass.peerAllowed = true → u.scanAll b (operandOf d.bytes d.order 0 false) 32 = none → u.load b (operandOf d.bytes d.order 0 false) 0 32 = some v → u.loaded b (operandOf d.bytes d.order 0 false) 32 (.ok data params) = .ok data params → p = u.allBytes b (operandOf d.bytes d.order 0 false) data 32 → sealFailure p = none →
    v.sealOverlaps b (field p 0 8) (field p 8 4 * field p 0x0C 2) = false → (v.bench b).peer.enable = true → field p 0 8 + field p 8 4 * field p 0x0C 2 ≤ 2 ^ 34 → v.unmappedPage b (field p 0 8) (field p 8 4 * field p 0x0C 2) = none → (v.streams.filter fun e => e.2.isOpen && e.2.bench == b).length < 8 →
    v.billetHeld b + field p 8 4 * field p 0x0C 2 / 1024 ≤ (v.bench b).limits.billet.toNat → v.desc b r d.count = some d → d.status = none → d.sealNote = none →
    ∃ t, exec (.sealOpen b r (.ok data params)) s = .next t ∧ (∀ i, v.stagingUsed + field p 8 4 * field p 0x0C 2 / 1024 ≤ Config.stagingKib → v.freeStream = some i → t.stream i = openStream (v.stream i).gen b p ∧ (t.desc b r d.count).map Desc.status = some (some ⟨0, 0, 255, BitVec.ofNat 64 ((t.stream i).handle i)⟩)) ∧
    (Config.stagingKib < v.stagingUsed + field p 8 4 * field p 0x0C 2 / 1024 → t = v)) ∧
  (∀ (s u : State) (b r : Nat) (d : Desc), s.begin b r 0x51 = some (d, u) → u.holdsSource b (.stream (field d.bytes 0x0C 2)) = true → (u.stream (field d.bytes 0x0C 2 % 64)).closing = none → (u.stream (field d.bytes 0x0C 2 % 64)).captured ≠ [] →
    ∃ t, exec (.sealClose b r) s = .next t ∧ t.stream (field d.bytes 0x0C 2 % 64) = { u.stream (field d.bytes 0x0C 2 % 64) with closing := some r, staging := [] }) ∧
  (∀ (s u : State) (b r : Nat) (d : Desc), s.begin b r 0x51 = some (d, u) → u.holdsSource b (.stream (field d.bytes 0x0C 2)) = true → (u.stream (field d.bytes 0x0C 2 % 64)).closing = none → (u.stream (field d.bytes 0x0C 2 % 64)).captured = [] →
    ∃ t, exec (.sealClose b r) s = .next t ∧ t.stream (field d.bytes 0x0C 2 % 64) = { Stream.reset with gen := (u.stream (field d.bytes 0x0C 2 % 64)).gen }) ∧
  (∀ (s : State) (i : Nat) (f : Frame) (rest : List Frame), (s.stream i).captured = f :: rest → (s.stream i).isOpen = true → (s.stream i).closing = none → f.outcome = none → ((s.stream i).judge f).forwarded = false →
    ∃ t, exec (.sealCheckDone i) s = .next t ∧ (t.stream i).captured = rest ∧ (t.stream i).expected = (s.stream i).expected ∧ (t.stream i).chain = (s.stream i).chain ∧ (t.stream i).lastCounter = (s.stream i).counterOf f) ∧
  (∀ (s : State) (i : Nat) (f : Frame) (rest : List Frame) (o : FrameOutcome) (l : List (Nat × Nat)), (s.stream i).captured = f :: rest → (s.stream i).isOpen = true → f.outcome = none → (s.stream i).judge f = o → o.forwarded = true → s.forwardPages (s.stream i).bench ((s.stream i).window + f.slot * (s.stream i).slotSize) ((s.stream i).slotSize / 4096) = .inl l →
    ∃ t, exec (.sealCheckDone i) s = .next t ∧ t = s.forwardFrame i f o l ∧ (t.stream i).captured.tail = rest ∧ (t.stream i).captured.head?.map (fun g => (g.outcome, g.slot, g.arrival)) = some (some o, f.slot, f.arrival) ∧ (t.stream i).expected = (s.stream i).expected ∧ (t.stream i).chain = (s.stream i).chain ∧ t.benches = s.benches) ∧
  (∀ (s : State) (i cause off : Nat) (f : Frame) (rest : List Frame), (s.stream i).captured = f :: rest → (s.stream i).isOpen = true → f.outcome = none → ((s.stream i).judge f).forwarded = true → s.forwardPages (s.stream i).bench ((s.stream i).window + f.slot * (s.stream i).slotSize) ((s.stream i).slotSize / 4096) = .inr (cause, off) →
    exec (.sealCheckDone i) s = .next (((s.peerDrop (s.stream i).bench cause off (s.stream i).slotSize).frameDone i f (.broken 6)).settleClose i)) ∧
  (∀ (s : State) (i : Nat) (f : Frame) (rest : List Frame), (s.stream i).captured = f :: rest → f.payload ≠ [] ∨ f.outcome = none ∨ f.trailer.isSome = true → s.sendTrailer i = s) ∧
  (∀ (s : State) (i : Nat) (f : Frame) (rest : List Frame) (o : FrameOutcome) (id : Nat), (s.stream i).captured = f :: rest → f.outcome = some o → f.trailer = some id → s.unsent (.put id) = false → o.forwarded = true → (s.stream i).closing = none →
    ∃ t, exec (.frameEvent i) s = .next t ∧ (t.stream i).captured = rest ∧ (t.stream i).expected = (s.stream i).counterOf f + 1 ∧ (t.stream i).chain = BitVec.ofNat 32 (field f.bytes ((s.stream i).trailerAt + 0x18) 4) ∧ (t.stream i).forwarded = (s.stream i).forwarded + 1) ∧
  (∀ (s : State) (i : Nat) (f : Frame) (rest : List Frame), (s.stream i).captured = f :: rest → f.trailer = none → exec (.frameEvent i) s = .next s)

/-- Migration of Mode D leaves. MIG_START while busy is counted; with no mode named (MIG_ARG byte 1 zero) it ends with result 1; with a first leaf that passes its checks that leaf is COPYING. MIG_LEAF_COPY_DONE with a failed copy ends with result 8; otherwise the leaf drains and no cached translation of the bench overlaps it. MIG_LEAF_DONE of the last leaf ends with result 0. Rows: MIG_START, MIG_LEAF_COPY_DONE, MIG_LEAF_DONE. The conditions and results are exactly those of the Lean clauses. Where it rests on a choice of the model's own rather than a rule: log entries 3, 5, 40, 83. (R339, R340, R342, R343) -/
def Obligations.LeafMigration : Prop :=
  (∀ (s : State), s.decodes s.mgmtFn.1 s.mgmtFn.2 = true → (s.bench 0).detached = false → s.mig.busy = true → exec .migStart s = .next s.unstageHub.countHub) ∧
  (∀ (s : State), s.decodes s.mgmtFn.1 s.mgmtFn.2 = true → (s.bench 0).detached = false → s.mig.busy = false → field s.mig.arg 1 1 = 0 →
    ∃ t, exec .migStart s = .next t ∧ t.mig.busy = false ∧ t.mig.result = 1 ∧ t.mig.index = 0 ∧ t.benches = s.unstageHub.benches) ∧
  (∀ (s u : State) (e n : Nat), s.decodes s.mgmtFn.1 s.mgmtFn.2 = true → (s.bench 0).detached = false → s.mig.busy = false → u = State.stir { s.unstageHub with mig := { s.mig with busy := true, result := 0, index := 0, leaf := s.mig.dva, dest := s.mig.first } } 8 → u.migBadArgs = false → (u.bench u.mig.bench).state ≠ .sweeping → 0 < s.mig.length → (u.tableOf u.mig.bench).leaf u.mig.dva = some (n, e) → u.migCheck n e = 0 →
    ∃ t, exec .migStart s = .next t ∧ t.mig = { u.mig with stage := .copying, leafSize := leafSize n e, readers := [] } ∧ t.benches = u.benches) ∧
  (∀ (s : State) (x : FetchResult), x = .hostError ∨ x = .hostTimeout ∨ x = .poisoned → s.mig.stage = .copying → s.structureHeld .table s.mig.bench = false → s.migQuiet = true → (s.bench s.mig.bench).rateOpen = true → (s.mig.toDie = true → (s.port (s.bench s.mig.bench).port).tagFree = true) →
    ∃ t, exec (.migLeafCopyDone x) s = .next t ∧ t.mig = { s.mig with busy := false, result := 8, stage := .idle, readers := [] } ∧ t.benches = s.benches) ∧
  (∀ (s : State) (y : List Byte), s.mig.stage = .copying → s.structureHeld .table s.mig.bench = false → s.migQuiet = true → (s.bench s.mig.bench).rateOpen = true → (s.mig.toDie = true → (s.port (s.bench s.mig.bench).port).tagFree = true) →
    ∃ t, exec (.migLeafCopyDone (.ok y)) s = .next t ∧ t.mig = { s.mig with stage := .draining, readers := s.migReaders } ∧ (∀ e ∈ t.headstock.cache, (e.bench == s.mig.bench && e.modeD && e.overlaps s.mig.leaf (2 ^ s.mig.leafSize)) = false)) ∧
  (∀ (s : State), s.mig.stage = .draining → s.mig.readers = [] → s.mig.dva + s.mig.length ≤ s.mig.leaf + 2 ^ s.mig.leafSize →
    ∃ t, exec .migLeafDone s = .next t ∧ t.mig.busy = false ∧ t.mig.result = 0 ∧ t.mig.index = s.mig.index + 1)

/-- The command mailbox: FORM, SET_LIMITS, SET_KEEP, HOLD, RESUME, SWEEP. A command while BUSY is discarded and counted. FORM that passes its checks begins to form the bench with the argument's fields, and otherwise ends with the first failing check's result; FORMATION_DONE makes it ACTIVE with a fresh token, or VACANT with NO_LEDGER. SET_LIMITS, SET_KEEP, HOLD and RESUME that pass their checks set the limits, the KEEP bit, HELD with cause 3, and ACTIVE, and end OK; HOLD of bench 0 is BAD_BENCH. SWEEP that passes its checks begins a sweep of cause 1 with the asked disposition. Rows: FORM, SET_LIMITS, SET_KEEP, HOLD, RESUME, SWEEP, GRANT_DIE_MEM, RETURN_DIE_MEM, FORMATION_DONE. The conditions and results are exactly those of the Lean clauses. Where it rests on a choice of the model's own rather than a rule: log entries 1, 19, 41. (R126, R127, R128, R132, R133, R135, R138, R139, R140, R412, R418, R492) -/
def Obligations.BenchCommands : Prop :=
  (∀ (s : State), s.decodes s.mgmtFn.1 s.mgmtFn.2 = true → (s.bench 0).detached = false → s.mailbox.busy = true → exec .form s = .next s.unstageHub.countHub) ∧
  (∀ (s : State), s.decodes s.mgmtFn.1 s.mgmtFn.2 = true → (s.bench 0).detached = false → s.mailbox.busy = true → exec .setLimits s = .next s.unstageHub.countHub) ∧
  (∀ (s : State), s.decodes s.mgmtFn.1 s.mgmtFn.2 = true → (s.bench 0).detached = false → s.mailbox.busy = true → exec .setKeep s = .next s.unstageHub.countHub) ∧
  (∀ (s : State), s.decodes s.mgmtFn.1 s.mgmtFn.2 = true → (s.bench 0).detached = false → s.mailbox.busy = true → exec .hold s = .next s.unstageHub.countHub) ∧
  (∀ (s : State), s.decodes s.mgmtFn.1 s.mgmtFn.2 = true → (s.bench 0).detached = false → s.mailbox.busy = true → exec .resume s = .next s.unstageHub.countHub) ∧
  (∀ (s : State), s.decodes s.mgmtFn.1 s.mgmtFn.2 = true → (s.bench 0).detached = false → s.mailbox.busy = true → exec .sweep s = .next s.unstageHub.countHub) ∧
  (∀ (s : State), s.decodes s.mgmtFn.1 s.mgmtFn.2 = true → (s.bench 0).detached = false → s.mailbox.busy = true → exec .grantDieMem s = .next s.unstageHub.countHub) ∧
  (∀ (s : State), s.decodes s.mgmtFn.1 s.mgmtFn.2 = true → (s.bench 0).detached = false → s.mailbox.busy = true → s.returning = none → exec .returnDieMem s = .next s.unstageHub.countHub) ∧
  (∀ (s u : State) (a : BenchArg), s.decodes s.mgmtFn.1 s.mgmtFn.2 = true → (s.bench 0).detached = false → s.mailbox.busy = false → ((s.bench 0).state = .active ∨ (s.bench 0).state = .held) → a = benchArg s.mailbox.arg → u = State.stir { s.unstageHub with mailbox := { s.mailbox with busy := true, code := 1, token := 0, bench := a.bench } } 8 → u.formCheck a = 0 → (s.port a.port).link.isUp = true → 
    ∃ t, exec .form s = .next t ∧ t.forming = some a.bench ∧ t.mailbox = u.mailbox ∧ (t.bench a.bench).state = .forming ∧ (t.bench a.bench).detached = false ∧ (t.bench a.bench).limits = a.limits ∧ (t.bench a.bench).port = a.port ∧ (t.bench a.bench).fn = a.fn ∧ (t.bench a.bench).classId = a.cls ∧ (t.bench a.bench).ringCount = a.rings ∧ (t.bench a.bench).incarn = (s.bench a.bench).incarn ∧ (∀ b, b ≠ a.bench → t.bench b = s.bench b)) ∧
  (∀ (s u : State) (a : BenchArg), s.decodes s.mgmtFn.1 s.mgmtFn.2 = true → (s.bench 0).detached = false → s.mailbox.busy = false → ((s.bench 0).state = .active ∨ (s.bench 0).state = .held) → a = benchArg s.mailbox.arg → u = State.stir { s.unstageHub with mailbox := { s.mailbox with busy := true, code := 1, token := 0, bench := a.bench } } 8 → u.formCheck a ≠ 0 → 
    exec .form s = .next (u.endCommand (u.formCheck a) 0)) ∧
  (∀ (s : State) (b : Nat), s.forming = some b → s.formingFlr = false →
    ∃ t, exec .formationDone s = .next t ∧ t.forming = none ∧ t.mailbox.busy = false ∧ ((s.classHas b BenchClass.modeD = false ∨ s.headstock.tablePages < Config.tablePages) → (t.bench b).state = .active ∧ (t.bench b).token ≠ 0 ∧ (t.bench b).token ≠ (s.bench b).token ∧ t.mailbox.token = (t.bench b).token ∧ t.mailbox.result = 0) ∧ (s.classHas b BenchClass.modeD = true → Config.tablePages ≤ s.headstock.tablePages → t.mailbox.result = 0x0B ∧ t.mailbox.token = 0 ∧ (b ≠ 0 → (t.bench b).state = .vacant ∧ (t.bench b).token = (s.bench b).token))) ∧
  (∀ (s u : State) (a : BenchArg), s.decodes s.mgmtFn.1 s.mgmtFn.2 = true → (s.bench 0).detached = false → s.mailbox.busy = false → ((s.bench 0).state = .active ∨ (s.bench 0).state = .held) → a = benchArg s.mailbox.arg → u = State.stir { s.unstageHub with mailbox := { s.mailbox with busy := true, code := 2, token := 0, bench := a.bench } } 8 → u.commandCheck a [.active, .held] = 0 → u.limitsOverClass a.bench a.limits = false → u.limitsInUse a.bench a.limits = false → 
    ∃ t, exec .setLimits s = .next t ∧ (t.bench a.bench).limits = a.limits ∧ t.mailbox.busy = false ∧ t.mailbox.result = 0 ∧ (∀ b, b ≠ a.bench → (t.bench b).limits = (s.bench b).limits)) ∧
  (∀ (s u : State) (a : BenchArg), s.decodes s.mgmtFn.1 s.mgmtFn.2 = true → (s.bench 0).detached = false → s.mailbox.busy = false → ((s.bench 0).state = .active ∨ (s.bench 0).state = .held) → a = benchArg s.mailbox.arg → u = State.stir { s.unstageHub with mailbox := { s.mailbox with busy := true, code := 2, token := 0, bench := a.bench } } 8 → u.commandCheck a [.active, .held] = 0 → u.limitsOverClass a.bench a.limits = true → 
    ∃ t, exec .setLimits s = .next t ∧ t.mailbox.busy = false ∧ t.mailbox.result = 0x08 ∧ (∀ b, (t.bench b).limits = (s.bench b).limits)) ∧
  (∀ (s u : State) (a : BenchArg), s.decodes s.mgmtFn.1 s.mgmtFn.2 = true → (s.bench 0).detached = false → s.mailbox.busy = false → ((s.bench 0).state = .active ∨ (s.bench 0).state = .held) → a = benchArg s.mailbox.arg → u = State.stir { s.unstageHub with mailbox := { s.mailbox with busy := true, code := 3, token := 0, bench := a.bench } } 8 → u.commandCheck a [.active, .held] = 0 → u.classHas a.bench BenchClass.keepAllowed = true → 
    ∃ t, exec .setKeep s = .next t ∧ (t.bench a.bench).keep = (a.options % 2 == 1) ∧ t.mailbox.busy = false ∧ t.mailbox.result = 0 ∧ (∀ b, b ≠ a.bench → (t.bench b).keep = (s.bench b).keep)) ∧
  (∀ (s u : State) (a : BenchArg), s.decodes s.mgmtFn.1 s.mgmtFn.2 = true → (s.bench 0).detached = false → s.mailbox.busy = false → ((s.bench 0).state = .active ∨ (s.bench 0).state = .held) → a = benchArg s.mailbox.arg → u = State.stir { s.unstageHub with mailbox := { s.mailbox with busy := true, code := 4, token := 0, bench := a.bench } } 8 → a.bench ≠ 0 → u.commandCheck a [.active] = 0 → 
    ∃ t, exec .hold s = .next t ∧ (t.bench a.bench).state = .held ∧ (t.bench a.bench).holdCause = 3 ∧ t.mailbox.busy = false ∧ t.mailbox.result = 0) ∧
  (∀ (s u : State) (a : BenchArg), s.decodes s.mgmtFn.1 s.mgmtFn.2 = true → (s.bench 0).detached = false → s.mailbox.busy = false → ((s.bench 0).state = .active ∨ (s.bench 0).state = .held) → a = benchArg s.mailbox.arg → u = State.stir { s.unstageHub with mailbox := { s.mailbox with busy := true, code := 4, token := 0, bench := a.bench } } 8 → a.bench = 0 → 
    exec .hold s = .next (u.endCommand 0x01 0)) ∧
  (∀ (s u : State) (a : BenchArg), s.decodes s.mgmtFn.1 s.mgmtFn.2 = true → (s.bench 0).detached = false → s.mailbox.busy = false → ((s.bench 0).state = .active ∨ (s.bench 0).state = .held) → a = benchArg s.mailbox.arg → u = State.stir { s.unstageHub with mailbox := { s.mailbox with busy := true, code := 5, token := 0, bench := a.bench } } 8 → u.commandCheck a [.held] = 0 → 
    ∃ t, exec .resume s = .next t ∧ (t.bench a.bench).state = .active ∧ (t.bench a.bench).holdCause = 0 ∧ t.mailbox.busy = false ∧ t.mailbox.result = 0) ∧
  (∀ (s u : State) (a : BenchArg), s.decodes s.mgmtFn.1 s.mgmtFn.2 = true → (s.bench 0).detached = false → s.mailbox.busy = false → ((s.bench 0).state = .active ∨ (s.bench 0).state = .held) → a = benchArg s.mailbox.arg → u = State.stir { s.unstageHub with mailbox := { s.mailbox with busy := true, code := 6, token := 0, bench := a.bench } } 8 → (a.bench ≠ 0 ∨ a.options / 2 % 2 = 0) → u.commandCheck a [.active, .held] = 0 → 
    exec .sweep s = .next (u.startSweep a.bench 1 (a.options / 2 % 2 == 1) true)) ∧
  (∀ (s u : State) (a : BenchArg), s.decodes s.mgmtFn.1 s.mgmtFn.2 = true → (s.bench 0).detached = false → s.mailbox.busy = false → ((s.bench 0).state = .active ∨ (s.bench 0).state = .held) → a = benchArg s.mailbox.arg → u = State.stir { s.unstageHub with mailbox := { s.mailbox with busy := true, code := 6, token := 0, bench := a.bench } } 8 → a.bench ≠ 0 → u.commandCheck a [.active, .held] = 0 → (s.bench a.bench).detached = true → 
    ∃ t, exec .sweep s = .next t ∧ (t.bench a.bench).state = .sweeping ∧ (t.bench a.bench).sweepCause = 1 ∧ (t.bench a.bench).sweep = some ⟨.cut, a.options / 2 % 2 == 1, true, 0, [], false, s.now⟩ ∧ t.mailbox = u.mailbox)

/-- GRANT_DIE_MEM, RETURN_DIE_MEM and the end of a zero fill. GRANT_DIE_MEM that passes its checks adds the range to the bench's grants and to no other; it waits while the range is being zero-filled, and otherwise ends with the first failing check. RETURN_DIE_MEM of a range the bench holds, with no pin in it, cuts the grants and starts a zero fill; with a pin it ends PINNED, and of a range not held it ends RANGE. DIE_MEM_ZERO_FILL_DONE ends that fill, and a forwarded grant that waited for it is looked at again. Rows: GRANT_DIE_MEM, RETURN_DIE_MEM, DIE_MEM_ZERO_FILL_DONE. The conditions and results are exactly those of the Lean clauses. Where it rests on a choice of the model's own rather than a rule: log entry 41. (R136, R137, R309) -/
def Obligations.DieMemoryGrants : Prop :=
  (∀ (s u : State) (a : BenchArg), s.decodes s.mgmtFn.1 s.mgmtFn.2 = true → (s.bench 0).detached = false → s.mailbox.busy = false → ((s.bench 0).state = .active ∨ (s.bench 0).state = .held) → a = benchArg s.mailbox.arg → u = State.stir { s.unstageHub with mailbox := { s.mailbox with busy := true, code := 7, token := 0, bench := a.bench } } 8 → u.commandCheck a [.active, .held] = 0 → u.here a.hub = true → a.bench < 256 → u.grantCheck a.die a.offset a.length (u.bench a.bench).dieMemHeld (u.bench a.bench).limits.dieMem.toNat = 0 → u.filling a.die a.offset a.length = false → 
    ∃ t, exec .grantDieMem s = .next t ∧ (t.bench a.bench).grants = (s.bench a.bench).grants ++ [⟨255, a.die, a.offset, a.length⟩] ∧ t.mailbox.busy = false ∧ t.mailbox.result = 0 ∧ (∀ b, b ≠ a.bench → (t.bench b).grants = (s.bench b).grants)) ∧
  (∀ (s u : State) (a : BenchArg), s.decodes s.mgmtFn.1 s.mgmtFn.2 = true → (s.bench 0).detached = false → s.mailbox.busy = false → ((s.bench 0).state = .active ∨ (s.bench 0).state = .held) → a = benchArg s.mailbox.arg → u = State.stir { s.unstageHub with mailbox := { s.mailbox with busy := true, code := 7, token := 0, bench := a.bench } } 8 → u.commandCheck a [.active, .held] = 0 → u.here a.hub = true → u.grantCheck a.die a.offset a.length (u.bench a.bench).dieMemHeld (u.bench a.bench).limits.dieMem.toNat = 0 → u.filling a.die a.offset a.length = true → 
    exec .grantDieMem s = .next u) ∧
  (∀ (s u : State) (a : BenchArg), s.decodes s.mgmtFn.1 s.mgmtFn.2 = true → (s.bench 0).detached = false → s.mailbox.busy = false → ((s.bench 0).state = .active ∨ (s.bench 0).state = .held) → a = benchArg s.mailbox.arg → u = State.stir { s.unstageHub with mailbox := { s.mailbox with busy := true, code := 7, token := 0, bench := a.bench } } 8 → u.commandCheck a [.active, .held] = 0 → u.here a.hub = true → u.grantCheck a.die a.offset a.length (u.bench a.bench).dieMemHeld (u.bench a.bench).limits.dieMem.toNat ≠ 0 → 
    exec .grantDieMem s = .next (u.endCommand (u.grantCheck a.die a.offset a.length (u.bench a.bench).dieMemHeld (u.bench a.bench).limits.dieMem.toNat) 0)) ∧
  (∀ (s u : State) (a : BenchArg), s.decodes s.mgmtFn.1 s.mgmtFn.2 = true → (s.bench 0).detached = false → s.mailbox.busy = false → ((s.bench 0).state = .active ∨ (s.bench 0).state = .held) → a = benchArg s.mailbox.arg → u = State.stir { s.unstageHub with mailbox := { s.mailbox with busy := true, code := 8, token := 0, bench := a.bench } } 8 → u.commandCheck a [.active, .held] = 0 → u.here a.hub = true → a.bench < 256 → u.rangeOk a.die a.offset a.length = true → u.holds a.bench a.die a.offset a.length = true → u.pinnedIn a.bench a.die a.offset a.length = false → (s.die a.die).state ≠ .recovery → 
    ∃ t, exec .returnDieMem s = .next t ∧ t.zeroFill = s.zeroFill ++ [(a.die, a.offset, a.length)] ∧ (t.bench a.bench).grants = (s.bench a.bench).grants.flatMap (fun g => if g.hub = 255 then g.cut a.die a.offset a.length else [g]) ∧ (t.mailbox.busy = false → t.mailbox.result = 0 ∧ t.out = s.out ++ [.die a.die (.zeroFill a.offset a.length)])) ∧
  (∀ (s u : State) (a : BenchArg), s.decodes s.mgmtFn.1 s.mgmtFn.2 = true → (s.bench 0).detached = false → s.mailbox.busy = false → ((s.bench 0).state = .active ∨ (s.bench 0).state = .held) → a = benchArg s.mailbox.arg → u = State.stir { s.unstageHub with mailbox := { s.mailbox with busy := true, code := 8, token := 0, bench := a.bench } } 8 → u.commandCheck a [.active, .held] = 0 → u.here a.hub = true → u.rangeOk a.die a.offset a.length = true → u.holds a.bench a.die a.offset a.length = true → u.pinnedIn a.bench a.die a.offset a.length = true → 
    exec .returnDieMem s = .next (u.endCommand 0x09 0)) ∧
  (∀ (s u : State) (a : BenchArg), s.decodes s.mgmtFn.1 s.mgmtFn.2 = true → (s.bench 0).detached = false → s.mailbox.busy = false → ((s.bench 0).state = .active ∨ (s.bench 0).state = .held) → a = benchArg s.mailbox.arg → u = State.stir { s.unstageHub with mailbox := { s.mailbox with busy := true, code := 8, token := 0, bench := a.bench } } 8 → u.commandCheck a [.active, .held] = 0 → u.here a.hub = true → u.holds a.bench a.die a.offset a.length = false → 
    exec .returnDieMem s = .next (u.endCommand 0x0D 0)) ∧
  (∀ (s : State) (d o n : Nat), s.zeroFill.contains (d, o, n) = true → s.mailbox.busy = false → s.cascade.grantWaits = [] → exec (.dieMemZeroFillDone d o n) s = .next { s with zeroFill := s.zeroFill.erase (d, o, n) }) ∧
  (∀ (s : State) (d o n : Nat) (w : Nat × Nat × Nat × Nat × Nat × Nat), s.zeroFill.contains (d, o, n) = true → s.mailbox.busy = false → s.cascade.grantWaits = [w] → exec (.dieMemZeroFillDone d o n) s = .next (State.grantWaited { s with zeroFill := s.zeroFill.erase (d, o, n) } w))

/-- The re-attach deadline and the notice queue. REATTACH_DEADLINE_EXPIRY of a detached tenant bench without KEEP, at its deadline, begins a RELEASE sweep of cause 3 and changes no other bench; early, with KEEP or for bench 0 it does nothing. NOTICE_WRITE queues the oldest notice as a 28-byte and a 4-byte write at its slot; the grant of the second moves the tail and phase on. NOTICE_HEAD_WRITE stores a head within the queue and counts another; NOTICE_ENABLE with a size of 4 to 12 clears the counts and sets the phase, and stays disabled otherwise; NOTICE_DISABLE disables; both wait while a notice is being written. Other benches are as before. Rows: REATTACH_DEADLINE_EXPIRY, NOTICE_WRITE, NOTICE_HEAD_WRITE, NOTICE_ENABLE, NOTICE_DISABLE. The conditions and results are exactly those of the Lean clauses. Where it rests on a choice of the model's own rather than a rule: log entries 3, 54. (R131, R132, R149, R150, R151, R152, R356, R596, R597) -/
def Obligations.DetachDeadlineAndNotices : Prop :=
  (∀ (s : State) (b : Nat), b ≠ 0 → ((s.bench b).state = .active ∨ (s.bench b).state = .held) → (s.bench b).detached = true → (s.bench b).keep = false → (s.bench b).deadline ≠ 0 → (s.bench b).deadline.toNat ≤ s.now.toNat → s.domainOn 8 = true →
    ∃ t, exec (.reattachDeadlineExpiry b) s = .next t ∧ (t.bench b).state = .sweeping ∧ (t.bench b).sweepCause = 3 ∧ (t.bench b).sweep = some ⟨.cut, true, false, 0, [], false, s.now⟩ ∧ (∀ c, c ≠ b → t.bench c = s.bench c)) ∧
  (∀ (s : State) (b : Nat), ((s.bench b).keep = true ∨ b = 0 ∨ s.now.toNat < (s.bench b).deadline.toNat) → exec (.reattachDeadlineExpiry b) s = .next s) ∧
  (∀ (s : State) (b : Nat) (n : Notice) (q : NoticeQ), s.noticeOpen b = true → (s.bench b).notices.next b s.now = some (n, q) →
    ∃ t, exec (.noticeWrite b) s = .next t ∧ (t.bench b).notices = { q with writing := some n } ∧
    ((t.port (s.bench b).port).egress.map EgressTlp.tlp) = ((s.port (s.bench b).port).egress.map EgressTlp.tlp) ++ [.hostWrite (s.bench b).port (s.reqFn b) plainAttr (q.base.toNat + 32 * (q.tail.toNat % q.size)) (n.bytes q.phase).1, .hostWrite (s.bench b).port (s.reqFn b) plainAttr (q.base.toNat + 32 * (q.tail.toNat % q.size) + 28) (n.bytes q.phase).2] ∧ t.out = s.out ∧ (∀ c, c ≠ b → t.bench c = s.bench c)) ∧
  (∀ (s : State) (b : Nat), s.noticeOpen b = false → exec (.noticeWrite b) s = .next s) ∧
  (∀ (s : State) (p : Nat) (x : EgressTlp), (s.port p).egress = [x] → s.tlpReady p x = true → x.owner = none → x.notice = some true → x.capped = 0 → (s.bench x.bench).notices.ctrlWait = none →
    ∃ t, exec (.egressGrant p) s = .next t ∧ t.out.take (s.out.length + 1) = s.out ++ [x.tlp] ∧ (t.bench x.bench).notices = { (s.bench x.bench).notices with writing := none, tail := (s.bench x.bench).notices.tail + 1, phase := if (s.bench x.bench).notices.tail.toNat % (s.bench x.bench).notices.size + 1 = (s.bench x.bench).notices.size then !(s.bench x.bench).notices.phase else (s.bench x.bench).notices.phase }) ∧
  (∀ (s : State) (b : Nat) (v : BitVec 32), s.decodes (s.bench b).port (s.bench b).fn = true → s.benchServes b = true → (s.bench b).notices.enable = true → ((s.bench b).notices.tail - v).toNat ≤ (s.bench b).notices.size →
    ∃ t, exec (.noticeHeadWrite b v) s = .next t ∧ (t.bench b).notices = { (s.bench b).notices with head := v } ∧ (∀ c, c ≠ b → t.bench c = s.bench c)) ∧
  (∀ (s : State) (b : Nat) (v : BitVec 32), s.decodes (s.bench b).port (s.bench b).fn = true → s.benchServes b = true → (s.bench b).notices.size < ((s.bench b).notices.tail - v).toNat →
    exec (.noticeHeadWrite b v) s = .next ((s.unstage b).countBench b)) ∧
  (∀ (s : State) (b : Nat), s.decodes (s.bench b).port (s.bench b).fn = true → s.benchServes b = true → s.noticeQueued b = false → 4 ≤ (s.bench b).notices.log2.toNat → (s.bench b).notices.log2.toNat ≤ 12 →
    ∃ t, exec (.noticeEnable b) s = .next t ∧ (t.bench b).notices = { (s.bench b).notices with enable := true, ctrlWait := none, head := 0, tail := 0, phase := true } ∧ (∀ c, c ≠ b → t.bench c = s.bench c)) ∧
  (∀ (s : State) (b : Nat), s.decodes (s.bench b).port (s.bench b).fn = true → s.benchServes b = true → s.noticeQueued b = false → ((s.bench b).notices.log2.toNat < 4 ∨ 12 < (s.bench b).notices.log2.toNat) →
    ∃ t, exec (.noticeEnable b) s = .next t ∧ (t.bench b).notices.enable = false ∧ (∀ c, c ≠ b → t.bench c = s.bench c)) ∧
  (∀ (s : State) (b : Nat), s.decodes (s.bench b).port (s.bench b).fn = true → s.benchServes b = true → s.noticeQueued b = false →
    ∃ t, exec (.noticeDisable b) s = .next t ∧ (t.bench b).notices = { (s.bench b).notices with enable := false, ctrlWait := none } ∧ (∀ c, c ≠ b → t.bench c = s.bench c)) ∧
  (∀ (s : State) (b : Nat) (c : Instr) (x : Bool), (c = .noticeEnable b ∧ x = true) ∨ (c = .noticeDisable b ∧ x = false) → s.decodes (s.bench b).port (s.bench b).fn = true → s.benchServes b = true → s.noticeQueued b = true →
    ∃ t, exec c s = .next t ∧ (t.bench b).notices = { (s.bench b).notices with ctrlWait := some x } ∧ t.ports = s.ports)

/-- The attach token and RESUME, CLOSE, FRESH and refused attaches. ATTACH_TOKEN_WRITE stores a whole token, stages a low dword, and joins a high dword with the staged one, changing no other bench. ATTACH_RESUME, ATTACH_CLOSE and ATTACH_FRESH that pass every check are accepted with their mode. ATTACH_REFUSED with the wrong token clears the token, counts it and keeps the bench detached; with another failing check it only reports it. While the bench is SWEEPING the command is discarded and counted. Rows: ATTACH_TOKEN_WRITE, ATTACH_RESUME, ATTACH_CLOSE, ATTACH_FRESH, ATTACH_REFUSED. The conditions and results are exactly those of the Lean clauses. Where it rests on a choice of the model's own rather than a rule: log entries 21, 34. (R351, R352, R353, R354, R593, R594, R598) -/
def Obligations.AttachHandshake : Prop :=
  (∀ (s : State) (b : Nat) (v : BitVec 64), s.running = true → ((s.bench b).state = .active ∨ (s.bench b).state = .held) →
    ∃ t, exec (.attachTokenWrite b 2 v) s = .next t ∧ t.bench b = { s.bench b with staged := none, attach := { (s.bench b).attach with token := v } } ∧ (∀ c, c ≠ b → t.bench c = s.bench c)) ∧
  (∀ (s : State) (b : Nat) (v : BitVec 64), s.running = true → ((s.bench b).state = .active ∨ (s.bench b).state = .held) →
    ∃ t, exec (.attachTokenWrite b 0 v) s = .next t ∧ t.bench b = { s.bench b with staged := some (0x200, v.setWidth 32) } ∧ (∀ c, c ≠ b → t.bench c = s.bench c)) ∧
  (∀ (s : State) (b : Nat) (v : BitVec 64) (w : BitVec 32), s.running = true → ((s.bench b).state = .active ∨ (s.bench b).state = .held) → (s.bench b).staged = some (0x200, w) →
    ∃ t, exec (.attachTokenWrite b 1 v) s = .next t ∧ t.bench b = { s.bench b with staged := none, attach := { (s.bench b).attach with token := v.setWidth 32 ++ w } } ∧ (∀ c, c ≠ b → t.bench c = s.bench c)) ∧
  (∀ (s u : State) (b : Nat) (e : BitVec 32), s.running = true → ((s.bench b).state = .active ∨ (s.bench b).state = .held) → u = (s.unstage b).modBench b (fun x => { x with attach := { x.attach with cmdLow := e } }) → u.attachCheck b 1 e = 0 →
    exec (.attachResume b e) s = .next (u.attachAccept b 1)) ∧
  (∀ (s u : State) (b : Nat) (e : BitVec 32), s.running = true → ((s.bench b).state = .active ∨ (s.bench b).state = .held) → u = (s.unstage b).modBench b (fun x => { x with attach := { x.attach with cmdLow := e } }) → u.attachCheck b 2 e = 0 →
    exec (.attachClose b e) s = .next (u.attachAccept b 2)) ∧
  (∀ (s u : State) (b : Nat) (e : BitVec 32), s.running = true → ((s.bench b).state = .active ∨ (s.bench b).state = .held) → u = (s.unstage b).modBench b (fun x => { x with attach := { x.attach with cmdLow := e } }) → u.attachCheck b 3 e = 0 →
    exec (.attachFresh b e) s = .next (u.attachAccept b 3)) ∧
  (∀ (s : State) (b m : Nat) (e : BitVec 32), s.running = true → ((s.bench b).state = .active ∨ (s.bench b).state = .held) → s.attachCheck b m e = 7 →
    ∃ t, exec (.attachRefused b m e) s = .next t ∧ (t.bench b).attach.token = 0 ∧ (t.bench b).attach.result = 7 ∧ (t.bench b).attach.badTokens = (s.bench b).attach.badTokens + 1 ∧ (t.bench b).attach.lastBad = some s.now ∧ (t.bench b).detached = true ∧ (t.bench b).epoch = (s.bench b).epoch ∧ (∀ c, c ≠ b → c ≠ 0 → t.bench c = s.bench c)) ∧
  (∀ (s : State) (b m : Nat) (e : BitVec 32), s.running = true → ((s.bench b).state = .active ∨ (s.bench b).state = .held) → s.attachCheck b m e ≠ 0 → s.attachCheck b m e ≠ 7 →
    ∃ t, exec (.attachRefused b m e) s = .next t ∧ (t.bench b).attach = { (s.bench b).attach with cmdLow := e, token := 0, result := BitVec.ofNat 4 (s.attachCheck b m e) } ∧ (t.bench b).detached = (s.bench b).detached ∧ (∀ c, c ≠ b → t.bench c = s.bench c)) ∧
  (∀ (s : State) (b : Nat) (e : BitVec 32), s.running = true → (s.bench b).state = .sweeping → exec (.attachResume b e) s = .next ((s.unstage b).countBench b))

/-- The peer window's enable, buffered writes and notices. PEER_WINDOW_OPEN and PEER_WINDOW_CLOSE set and clear the enable and nothing else of any bench. PEER_WRITE_APPLY of the oldest buffered write sends it to the die that its leaf maps, keeps it while an earlier one is not acknowledged, or counts it as dropped with its cause. PEER_DROPPED_INTERVAL sends the notice of the first write dropped in the interval, or ends the interval. Rows: PEER_WINDOW_OPEN, PEER_WINDOW_CLOSE, PEER_WRITE_APPLY, PEER_DROPPED_INTERVAL. The conditions and results are exactly those of the Lean clauses. Where it rests on a choice of the model's own rather than a rule: log entries 3, 5. (R301, R360, R361, R362, R363, R364) -/
def Obligations.PeerWindow : Prop :=
  (∀ (s : State) (b : Nat), s.decodes s.mgmtFn.1 s.mgmtFn.2 = true → (s.bench 0).detached = false → b < s.nBenches → (s.bench b).state ≠ .vacant → 
    ∃ t, exec (.peerWindowOpen b) s = .next t ∧ (t.bench b).peer = { (s.bench b).peer with enable := true } ∧ (∀ c, c ≠ b → t.bench c = s.bench c)) ∧
  (∀ (s : State) (b : Nat), s.decodes s.mgmtFn.1 s.mgmtFn.2 = true → (s.bench 0).detached = false → b < s.nBenches → (s.bench b).state ≠ .vacant → 
    ∃ t, exec (.peerWindowClose b) s = .next t ∧ (t.bench b).peer = { (s.bench b).peer with enable := false } ∧ (∀ c, c ≠ b → t.bench c = s.bench c)) ∧
  (∀ (s : State) (b o d a : Nat) (x ro : Bool) (y : List (Byte × Bool)) (r : List (Nat × List (Byte × Bool) × Bool)), (s.bench b).peer.buffered = (o, y, ro) :: r → s.peerLeaf b o = .at d a x → s.streamAt b o = none → s.hearth.withheld = [] → ro = true ∨ s.putOpen (s.bench b).port (s.bench b).fn true = false → (s.die d).state = .up → (s.die d).queue = [] → (s.die d).room false (DieMsg.blocks (.hubWrite none a y)) = true →
    ∃ t, exec (.peerWriteApply b) s = .next t ∧ (t.bench b).peer.buffered = r ∧ t.bar2Writes = s.bar2Writes ++ [⟨s.nextPut, d, (s.bench b).port, (s.bench b).fn, true⟩] ∧ t.out = s.out ++ [.die d (.hubWrite (some s.nextPut) a y)]) ∧
  (∀ (s : State) (b o d a : Nat) (x : Bool) (y : List (Byte × Bool)) (r : List (Nat × List (Byte × Bool) × Bool)), (s.bench b).peer.buffered = (o, y, false) :: r → s.peerLeaf b o = .at d a x → s.streamAt b o = none → s.putOpen (s.bench b).port (s.bench b).fn true = true → exec (.peerWriteApply b) s = .next s) ∧
  (∀ (s : State) (b o k : Nat) (ro : Bool) (y : List (Byte × Bool)) (r : List (Nat × List (Byte × Bool) × Bool)), (s.bench b).peer.buffered = (o, y, ro) :: r → s.peerLeaf b o = .refused k →
    exec (.peerWriteApply b) s = .next ((s.popPeer b).peerDrop b k o y.length)) ∧
  (∀ (s : State) (b o n : Nat), (s.bench b).peer.dropped1 = some (o, n) →
    exec (.peerDroppedInterval b 1) s = .next ((s.modPeer b fun p => { p with dropped1 := none }).peerNotice b 1 o n)) ∧
  (∀ (s : State) (b o n : Nat), (s.bench b).peer.dropped2 = some (o, n) →
    exec (.peerDroppedInterval b 2) s = .next ((s.modPeer b fun p => { p with dropped2 := none }).peerNotice b 2 o n)) ∧
  (∀ (s : State) (b : Nat), (s.bench b).peer.dropped1 = none → (s.bench b).peer.interval1 = true →
    ∃ t, exec (.peerDroppedInterval b 1) s = .next t ∧ (t.bench b).peer = { (s.bench b).peer with interval1 := false } ∧ (∀ c, c ≠ b → t.bench c = s.bench c))

/-- A die's training attempt step by step, back-off and absence. SP_ATTEMPT_START powers an OFF die that may be powered, in its turn, and no other OFF die. DIE_PWRGOOD_RISE, SP_LANES_ALIGNED, SP_PARAMETERS_EXCHANGED with at least 48 lanes, SP_CREDITS_EXCHANGED and SP_ZERO_FILL_DONE take it through the steps to UP, the credits step sending one zero fill of the die. Bad parameters, SP_STEP_TIMEOUT, DIE_PWRGOOD_FALL and DIE_FATAL fail the attempt with their CAUSE (the first when the step has lasted its bound), or lose a die in service. SP_BACKOFF_EXPIRY tries again after 1 ms times 2^(n-1), and after the eighth failure is ABSENT; SP_ABSENT_RETRY tries again with the next retry 10 s ahead. Every other die is as before where stated. Rows: SP_ATTEMPT_START, DIE_PWRGOOD_RISE, DIE_PWRGOOD_FALL, DIE_FATAL, SP_LANES_ALIGNED, SP_PARAMETERS_EXCHANGED, SP_CREDITS_EXCHANGED, SP_ZERO_FILL_DONE, SP_STEP_TIMEOUT, SP_BACKOFF_EXPIRY, SP_ABSENT_RETRY. The conditions and results are exactly those of the Lean clauses. Where it rests on a choice of the model's own rather than a rule: log entries 3, 4, 42. (R37, R368, R383, R384, R388, R389, R390) -/
def Obligations.DieAttempts : Prop :=
  (∀ (s : State) (d : Nat), s.portFitted d = true → s.mayPower = true → s.domainOn (dieDomain d) = true → (s.die d).state = .off → s.dieTurn d = true →
    ∃ t, exec (.spAttemptStart d) s = .next t ∧ t.die d = Spindle.attempt s.now (s.die d) ∧ (t.die d).state = .powering ∧ (t.die d).step = .power ∧ (t.die d).pwrEn = true ∧ t.out = s.out ∧ (∀ e, e ≠ d → t.die e = s.die e)) ∧
  (∀ (s : State) (d : Nat), s.mayPower = false ∨ s.domainOn (dieDomain d) = false ∨ ((s.die d).state = .off ∧ s.dieTurn d = false) → exec (.spAttemptStart d) s = .next s) ∧
  (∀ (s : State) (d : Nat), d < s.nDies → (s.die d).pwrEn = true → (s.die d).step = .power →
    ∃ t, exec (.diePwrgoodRise d) s = .next t ∧ t.die d = { s.die d with pwrGood := true, step := .lanes, stepAt := s.now, state := .training } ∧ (∀ e, e ≠ d → t.die e = s.die e)) ∧
  (∀ (s : State) (d : Nat), d < s.nDies → (s.die d).inService = false → (s.die d).pastPower = true →
    ∃ t, exec (.diePwrgoodFall d) s = .next t ∧ t.die d = Spindle.fail { s.die d with pwrGood := false } s.now 1 ∧ (t.die d).pwrEn = false ∧ (t.die d).cause = 1 ∧ (∀ e, e ≠ d → t.die e = s.die e)) ∧
  (∀ (s : State) (d : Nat), d < s.nDies → (s.die d).inService = true → exec (.diePwrgoodFall d) s = .next ((s.modDie d fun x => { x with pwrGood := false }).dieLost d 1)) ∧
  (∀ (s : State) (d : Nat), d < s.nDies → (s.die d).inService = true → exec (.dieFatal d) s = .next (s.dieLost d 8)) ∧
  (∀ (s : State) (d : Nat), d < s.nDies → (s.die d).inService = false → (s.die d).pastPower = true →
    ∃ t, exec (.dieFatal d) s = .next t ∧ t.die d = (s.die d).fail s.now 8 ∧ (∀ e, e ≠ d → t.die e = s.die e)) ∧
  (∀ (s : State) (d : Nat) (x : Bool), (s.die d).step = .lanes →
    ∃ t, exec (.spLanesAligned d x) s = .next t ∧ t.die d = (if x = true ∧ s.halfPermitted d = false then (s.die d).fail s.now 3 else { s.die d with half := x, step := .parameters, stepAt := s.now }) ∧ (∀ e, e ≠ d → t.die e = s.die e)) ∧
  (∀ (s : State) (d n : Nat) (l : List Nat), (s.die d).step = .parameters → 48 ≤ n →
    ∃ t, exec (.spParametersExchanged d true n l) s = .next t ∧ t.die d = { s.die d with defects := l, step := .credits, stepAt := s.now } ∧ (∀ e, e ≠ d → t.die e = s.die e)) ∧
  (∀ (s : State) (d n : Nat) (x : Bool) (l : List Nat), (s.die d).step = .parameters → (x = false ∨ n < 48) →
    ∃ t, exec (.spParametersExchanged d x n l) s = .next t ∧ t.die d = (s.die d).fail s.now 4 ∧ (t.die d).pwrEn = false ∧ (∀ e, e ≠ d → t.die e = s.die e)) ∧
  (∀ (s : State) (d : Nat), (s.die d).step = .credits →
    ∃ t, exec (.spCreditsExchanged d) s = .next t ∧ t.die d = { s.die d with step := .zero, stepAt := s.now, state := .zeroing } ∧ t.out = s.out ++ [.die d (.zeroFill 0 dieBytes)] ∧ (∀ e, e ≠ d → t.die e = s.die e)) ∧
  (∀ (s : State) (d : Nat), (s.die d).step = .zero → s.hearth.refilling = false →
    ∃ t, exec (.spZeroFillDone d) s = .next t ∧ t.die d = { s.die d with step := .none, state := .up, cause := 0, attempts := 0, fails := 0, crcRun := 0, failedRecovery := none, scrubPos := 0 } ∧ t.out = s.out ∧ (∀ e, e ≠ d → t.die e = s.die e)) ∧
  (∀ (s : State) (d : Nat), (s.die d).step ≠ .zero ∨ s.hearth.refilling = true → exec (.spZeroFillDone d) s = .next s) ∧
  (∀ (s : State) (d : Nat) (f : LaneFault), (s.die d).step = .lanes → (s.die d).stepAt.toNat + 2000 ≤ s.now.toNat →
    ∃ t, exec (.spStepTimeout d f) s = .next t ∧ t.die d = (s.die d).fail s.now (if f = .noDie then 2 else 3) ∧ (∀ e, e ≠ d → t.die e = s.die e)) ∧
  (∀ (s : State) (d : Nat) (f : LaneFault), ((s.die d).step = .power ∧ (s.die d).stepAt.toNat + 50000 ≤ s.now.toNat ∨ (s.die d).step = .parameters ∧ (s.die d).stepAt.toNat + 1000 ≤ s.now.toNat ∨ (s.die d).step = .credits ∧ (s.die d).stepAt.toNat + 10 ≤ s.now.toNat) →
    ∃ t, exec (.spStepTimeout d f) s = .next t ∧ t.die d = (s.die d).fail s.now (if (s.die d).step = .power then 1 else if (s.die d).step = .parameters then 4 else 5) ∧ (∀ e, e ≠ d → t.die e = s.die e)) ∧
  (∀ (s : State) (d : Nat), (s.die d).state = .backoff → (s.die d).lost = false → s.mayPower = true → s.domainOn (dieDomain d) = true → (s.die d).offSince.toNat + 2 ^ ((s.die d).fails - 1) * 1000 ≤ s.now.toNat → (s.die d).fails < 8 →
    ∃ t, exec (.spBackoffExpiry d) s = .next t ∧ t.die d = Spindle.attempt s.now (s.die d) ∧ (∀ e, e ≠ d → t.die e = s.die e)) ∧
  (∀ (s : State) (d : Nat), (s.die d).state = .backoff → (s.die d).lost = false → s.mayPower = true → s.domainOn (dieDomain d) = true → (s.die d).offSince.toNat + 2 ^ ((s.die d).fails - 1) * 1000 ≤ s.now.toNat → 8 ≤ (s.die d).fails →
    ∃ t, exec (.spBackoffExpiry d) s = .next t ∧ t.die d = { s.die d with state := .absent } ∧ (∀ e, e ≠ d → t.die e = s.die e)) ∧
  (∀ (s : State) (d : Nat), (s.die d).state = .absent → s.mayPower = true → s.domainOn (dieDomain d) = true → s.hearth.deadlines = [] →
    ∃ t, exec (.spAbsentRetry d) s = .next t ∧ t.die d = Spindle.attempt s.now (s.die d) ∧ t.hearth.deadlines = [⟨.spindleRetry d, s.now + 10000000⟩] ∧ (∀ e, e ≠ d → t.die e = s.die e))

/-- CRC errors, RECOVERY, and the loss of a die. FLIT_CRC_ERROR counts, and the sixteenth in a row takes an UP spindle or Envan link to RECOVERY, no other link. FLIT_ACK_TIMEOUT takes an UP spindle to RECOVERY. SP_RECOVERY_DONE returns to UP and sends the held messages, those of the HOLD class first; a failure is remembered, and a second within 1 s loses the die with cause 6. SP_REQUEST_TIMEOUT of a die in service with a request outstanding for 2 ms loses it with cause 7 and raises HUB_FAULT_N; with none so old it does nothing. Rows: FLIT_CRC_ERROR, FLIT_ACK_TIMEOUT, SP_RECOVERY_DONE, SP_REQUEST_TIMEOUT. The conditions and results are exactly those of the Lean clauses. Where it rests on a choice of the model's own rather than a rule: log entries 3, 42. (R379, R386, R388, R389, R455) -/
def Obligations.DieLinksAndLoss : Prop :=
  (∀ (s : State) (d : Nat) (x : Bool), ((s.die d).state ≠ .up ∨ x = false ∨ (s.die d).crcRun + 1 < 16) →
    ∃ t, exec (.flitCrcError (.spindle d) x) s = .next t ∧ t.die d = { s.die d with crc := (s.die d).crc + 1, crcRun := if x then (s.die d).crcRun + 1 else 1 } ∧ (∀ e, e ≠ d → t.die e = s.die e) ∧ t.envans = s.envans) ∧
  (∀ (s : State) (d : Nat), (s.die d).state = .up → 16 ≤ (s.die d).crcRun + 1 →
    ∃ t, exec (.flitCrcError (.spindle d) true) s = .next t ∧ t.die d = { s.die d with crc := (s.die d).crc + 1, state := .recovery, crcRun := 0 } ∧ (∀ e, e ≠ d → t.die e = s.die e)) ∧
  (∀ (s : State) (l : Nat), (s.envan l).state = .up → 16 ≤ (s.envan l).crcRun + 1 →
    ∃ t, exec (.flitCrcError (.envan l) true) s = .next t ∧ t.envan l = { s.envan l with crc := (s.envan l).crc + 1, state := .recovery, crcRun := 0 } ∧ t.spindles = s.spindles ∧ (∀ e, e ≠ l → t.envan e = s.envan e)) ∧
  (∀ (s : State) (d : Nat), (s.die d).state = .up →
    ∃ t, exec (.flitAckTimeout d) s = .next t ∧ t.die d = { s.die d with state := .recovery, crcRun := 0 } ∧ (∀ e, e ≠ d → t.die e = s.die e)) ∧
  (∀ (s : State) (d : Nat), (s.die d).state = .recovery → (s.die d).queue = [] →
    ∃ t, exec (.spRecoveryDone d true) s = .next t ∧ t.die d = { s.die d with state := .up, recoveries := (s.die d).recoveries + 1, heldMsgs := [] } ∧ t.out = s.out ++ ((s.die d).heldMsgs.filter DieMsg.isHold ++ (s.die d).heldMsgs.filter fun m => !m.isHold).map (Out.die d) ∧ (∀ e, e ≠ d → t.die e = s.die e)) ∧
  (∀ (s : State) (d : Nat) (v : BitVec 64), (s.die d).state = .recovery → (s.die d).failedRecovery = some v → s.now.toNat ≤ v.toNat + 1000000 →
    exec (.spRecoveryDone d false) s = .next (s.dieLost d 6)) ∧
  (∀ (s : State) (d : Nat), (s.die d).state = .recovery → (s.die d).failedRecovery = none →
    ∃ t, exec (.spRecoveryDone d false) s = .next t ∧ t.die d = { s.die d with failedRecovery := some s.now } ∧ (∀ e, e ≠ d → t.die e = s.die e)) ∧
  (∀ (s : State) (d : Nat), (s.die d).inService = true → s.dieOverdue d = true → exec (.spRequestTimeout d) s = .next (s.dieLost d 7)) ∧
  (∀ (s : State) (d : Nat), s.dieOverdue d = false → exec (.spRequestTimeout d) s = .next s) ∧
  (∀ (s : State) (d : Nat), (s.die d).inService = true → s.dieOverdue d = true → ∃ t, exec (.spRequestTimeout d) s = .next t ∧ t.hubFault = true)

/-- Requests of cores: XLT, die responses, events, fatal errors, UE reports. XLT_REQUEST of a placed core within its limits is forwarded to the die it maps to, here or on another hub, and waits for a pin that is being reloaded; one that names a bench other than the placement's, or nothing its bench holds pinned, HOLDS that bench and is refused, a guest's at its home hub; one of no placement is refused and logged. DIE_READ_RESPONSE frees its request's credits and answers the core, the BAR2 read or the other hub that it belongs to, and an unmatched refused write counts WRITE_ERR. CORE_EVENT_WRITE sets or clears a line of its bench and counts a line it does not hold. CORE_FATAL_ERROR HOLDS the bench with cause 2, a guest's at its home hub. DIE_UE_REPORT logs one entry. Rows: XLT_REQUEST, DIE_READ_RESPONSE, CORE_EVENT_WRITE, CORE_FATAL_ERROR, DIE_UE_REPORT. The conditions and results are exactly those of the Lean clauses. Where it rests on a choice of the model's own rather than a rule: log entries 5, 22, 43, 82. (R98, R126, R370, R371, R377, R378, R380, R381) -/
def Obligations.CoreRequests : Prop :=
  (∀ (s : State) (d k i o n e f : Nat) (g : XltTarget) (w : Bool) (y : List (Byte × Bool)) (p : Placement), s.dieMapped d = true → ((s.die d).xlt.any fun q => q.id == i) = false → s.placementOf d k = some p → s.ownerOf p.home p.bench = o → (o < 256 → (s.bench o).state ≠ .sweeping) → ((s.die d).xltUsed o).1 < 64 → ((s.die d).xltUsed o).2 + (if w then 1 else 0) ≤ 128 → (s.die d).xltTotal.1 < 256 → (s.die d).xltTotal.2 + (if w then 1 else 0) ≤ 512 → s.coreTo o p g w n = .die e f → (s.die e).state = .up → (s.die e).queue = [] → (s.die e).room true (DieMsg.blocks (.xltForward (xltKey d i) f n w y)) = true →
    ∃ t, exec (.xltRequest d k i o g w n y) s = .next t ∧ (t.die d).xlt = (s.die d).xlt ++ [⟨d, i, o, if w then 1 else 0, w, e, false⟩] ∧ t.out = s.out ++ [.die e (.xltForward (xltKey d i) f n w y)] ∧ t.benches = s.benches) ∧
  (∀ (s : State) (d k i o n h e f : Nat) (g : XltTarget) (w : Bool) (y : List (Byte × Bool)) (p : Placement), s.dieMapped d = true → ((s.die d).xlt.any fun q => q.id == i) = false → s.placementOf d k = some p → s.ownerOf p.home p.bench = o → (o < 256 → (s.bench o).state ≠ .sweeping) → ((s.die d).xltUsed o).1 < 64 → ((s.die d).xltUsed o).2 + (if w then 1 else 0) ≤ 128 → (s.die d).xltTotal.1 < 256 → (s.die d).xltTotal.2 + (if w then 1 else 0) ≤ 512 → s.coreTo o p g w n = .hub h e f → s.routed h = true →
    ∃ t, exec (.xltRequest d k i o g w n y) s = .next t ∧ (t.die d).xlt = (s.die d).xlt ++ [⟨d, i, o, if w then 1 else 0, w, 8 + h, false⟩] ∧ t.out = s.out ++ [.envan h (.xltForward (xltKey d i) p.home p.bench (s.placeIncarn p.home p.bench) e f n w y)] ∧ t.benches = s.benches) ∧
  (∀ (s : State) (d k i o n : Nat) (g : XltTarget) (w : Bool) (y : List (Byte × Bool)) (p : Placement), s.dieMapped d = true → ((s.die d).xlt.any fun q => q.id == i) = false → s.placementOf d k = some p → s.ownerOf p.home p.bench = o → (o < 256 → (s.bench o).state ≠ .sweeping) → ((s.die d).xltUsed o).1 < 64 → ((s.die d).xltUsed o).2 + (if w then 1 else 0) ≤ 128 → (s.die d).xltTotal.1 < 256 → (s.die d).xltTotal.2 + (if w then 1 else 0) ≤ 512 → s.coreTo o p g w n = .wait →
    ∃ t, exec (.xltRequest d k i o g w n y) s = .next t ∧ t.spindles = s.spindles ∧ t.out = s.out ∧ t.benches = s.benches) ∧
  (∀ (s : State) (d k i o n c a : Nat) (g : XltTarget) (w : Bool) (y : List (Byte × Bool)) (p : Placement), s.dieMapped d = true → ((s.die d).xlt.any fun q => q.id == i) = false → s.placementOf d k = some p → s.ownerOf p.home p.bench = o → (o < 256 → (s.bench o).state ≠ .sweeping) → ((s.die d).xltUsed o).1 < 64 → ((s.die d).xltUsed o).2 + (if w then 1 else 0) ≤ 128 → (s.die d).xltTotal.1 < 256 → (s.die d).xltTotal.2 + (if w then 1 else 0) ≤ 512 → (c ≠ o ∨ s.coreTo o p g w n = .violation a) → o < 256 → (s.bench o).state = .active → (s.die d).state = .up →
    ∃ t, exec (.xltRequest d k i c g w n y) s = .next t ∧ (t.bench o).state = .held ∧ (t.bench o).holdCause = 1 ∧ (t.die d).xlt = (s.die d).xlt ∧ (.die d (.xltAnswer i true false []) ∈ t.out)) ∧
  (∀ (s : State) (d k i o n a : Nat) (g : XltTarget) (w : Bool) (y : List (Byte × Bool)) (p : Placement) (x : Guest), s.dieMapped d = true → ((s.die d).xlt.any fun q => q.id == i) = false → s.placementOf d k = some p → s.ownerOf p.home p.bench = o → (o < 256 → (s.bench o).state ≠ .sweeping) → ((s.die d).xltUsed o).1 < 64 → ((s.die d).xltUsed o).2 + (if w then 1 else 0) ≤ 128 → (s.die d).xltTotal.1 < 256 → (s.die d).xltTotal.2 + (if w then 1 else 0) ≤ 512 → s.coreTo o p g w n = .violation a → 256 ≤ o → s.guest (o - 256) = some x → s.routed x.home = true → (s.die d).state = .up →
    ∃ t, exec (.xltRequest d k i o g w n y) s = .next t ∧ t.out = s.out ++ [.die d (.xltAnswer i true false []), .envan x.home (.coreCause x.bench x.incarn 1 (BitVec.ofNat 64 a) (BitVec.ofNat 32 (d * 256 + k)))] ∧ t.benches = s.benches) ∧
  (∀ (s : State) (d k i c n : Nat) (g : XltTarget) (w : Bool) (y : List (Byte × Bool)), s.dieMapped d = true → ((s.die d).xlt.any fun q => q.id == i) = false → s.placementOf d k = none →
    exec (.xltRequest d k i c g w n y) s = .next (((s.countPerf (65 + 4 * d) y.length).refuseCore d i).logError 4 3 (BitVec.ofNat 64 (d * 256 + k)) 0)) ∧
  (∀ (s : State) (d i : Nat) (m : MemStatus) (y : List Byte) (q : XltReq), s.unsent (.hub i) = false → i % 3 = 1 → (((s.portDone (.hub i)).die ((i - 1) / 3 % 8)).xlt.find? fun q => q.id == (i - 1) / 24) = some q → q.target = d → d < 8 →
    exec (.dieReadResponse d i m y) s = .next (((s.portDone (.hub i)).countPerf (65 + 4 * d) y.length).answerCore q m y)) ∧
  (∀ (s : State) (d i : Nat) (m : MemStatus) (y : List Byte) (q : Bar2Req), s.unsent (.hub i) = false → i % 3 ≠ 1 → d < 8 → ((s.portDone (.hub i)).bar2Reads.find? fun q => q.id == i && q.die == d) = some q →
    exec (.dieReadResponse d i m y) s = .next (((s.portDone (.hub i)).countPerf (65 + 4 * d) y.length).answerBar2 q m y)) ∧
  (∀ (s : State) (d i : Nat) (m : MemStatus) (y : List Byte) (q : RemoteReq), s.unsent (.hub i) = false → i % 3 ≠ 1 → d < 8 → ((s.portDone (.hub i)).bar2Reads.find? fun q => q.id == i && q.die == d) = none → ((s.portDone (.hub i)).remotes.find? fun q => q.key == i && q.die == d) = some q → s.routed q.sender = true →
    ∃ t, exec (.dieReadResponse d i m y) s = .next t ∧ t.out = (s.portDone (.hub i)).out ++ [.envan q.sender (.dataAnswer q.id m y)] ∧ t.remotes = (s.portDone (.hub i)).remotes.filter fun r => r.key != i) ∧
  (∀ (s : State) (d i : Nat) (y : List Byte), s.unsent (.hub i) = false → i % 3 ≠ 1 → d < 8 → ((s.portDone (.hub i)).bar2Reads.find? fun q => q.id == i && q.die == d) = none → ((s.portDone (.hub i)).remotes.find? fun q => q.key == i && q.die == d) = none →
    ∃ t, exec (.dieReadResponse d i .writeRefused y) s = .next t ∧ t.die d = { (s.portDone (.hub i)).die d with writeErr := ((s.portDone (.hub i)).die d).writeErr + 1 } ∧ t.out = (s.portDone (.hub i)).out ∧ (∀ e, e ≠ d → t.die e = (s.portDone (.hub i)).die e)) ∧
  (∀ (s : State) (d i : Nat) (m : MemStatus) (y : List Byte), s.unsent (.hub i) = true → exec (.dieReadResponse d i m y) s = .next s) ∧
  (∀ (s : State) (d k n a o : Nat) (p : Placement), s.dieMapped d = true → s.placementOf d k = some p → s.ownerOf p.home p.bench = o → n < 256 → 1 ≤ a → a ≤ 3 → (s.event n).holder = some o →
    ∃ t, exec (.coreEventWrite d k n a) s = .next t ∧ (t.event n).level = (if a = 1 then true else if a = 2 then false else (s.event n).level) ∧ (t.event n).holder = some o ∧ (a = 2 → t.spindles = s.spindles ∧ t.benches = s.benches ∧ t.out = s.out)) ∧
  (∀ (s : State) (d k n a o : Nat) (p : Placement), s.dieMapped d = true → s.placementOf d k = some p → s.ownerOf p.home p.bench = o → (256 ≤ n ∨ (s.event n).holder ≠ some o) →
    ∃ t, exec (.coreEventWrite d k n a) s = .next t ∧ t.die d = { s.die d with eventReject := (s.die d).eventReject + 1 } ∧ t.events = s.events ∧ (∀ e, e ≠ d → t.die e = s.die e)) ∧
  (∀ (s : State) (d k o : Nat) (v : BitVec 64) (p : Placement), s.dieMapped d = true → s.placementOf d k = some p → s.ownerOf p.home p.bench = o → o < 256 → (s.bench o).state = .active →
    ∃ t, exec (.coreFatalError d k v) s = .next t ∧ (t.bench o).state = .held ∧ (t.bench o).holdCause = 2) ∧
  (∀ (s : State) (d k o : Nat) (v : BitVec 64) (p : Placement) (x : Guest), s.dieMapped d = true → s.placementOf d k = some p → s.ownerOf p.home p.bench = o → 256 ≤ o → s.guest (o - 256) = some x → s.routed x.home = true →
    ∃ t, exec (.coreFatalError d k v) s = .next t ∧ t.out = s.out ++ [.envan x.home (.coreCause x.bench x.incarn 2 v (BitVec.ofNat 32 (d * 256 + k)))] ∧ t.benches = s.benches) ∧
  (∀ (s : State) (d k : Nat) (v : BitVec 64), s.dieMapped d = true → s.placementOf d k = none → exec (.coreFatalError d k v) s = .next (s.logError 4 3 (BitVec.ofNat 64 (d * 256 + k)) 0)) ∧
  (∀ (s : State) (d : Nat) (v : BitVec 64), s.dieMapped d = true → exec (.dieUeReport d v) s = .next (s.logError 4 2 v 0))

/-- Lane recalibration, scrub of ledger and dies, telemetry. LANE_RECAL and RECAL_FORCE of an UP link note the lane's time and TJ_MAX, the forced one counting, and a lane with no usable setting retrains its link; RECAL_FORCE does nothing for a lane that is not due or with a HOLD message there. SCRUB_BLOCK moves the position on by 256, counts a corrected or uncorrectable error, and logs and marks the block of the latter, with the billets' bytes as before; a lost structure of the firmware sweeps its bench or asserts HUB_FAULT_N. SCRUB_PASS_START starts a pass 4 h after the last, not before. DIE_SCRUB_REQUEST asks an UP die for 1 MiB every 100 ms, once the port has credits, and DIE_SCRUB_ACK moves that position on. TELEMETRY_SNAPSHOT sends one 64-byte record, or counts one skipped while the last waits, and does neither before the period has passed. Rows: LANE_RECAL, RECAL_FORCE, SCRUB_BLOCK, SCRUB_PASS_START, DIE_SCRUB_REQUEST, DIE_SCRUB_ACK, TELEMETRY_SNAPSHOT. The conditions and results are exactly those of the Lean clauses. Where it rests on a choice of the model's own rather than a rule: log entries 3, 4, 5, 53, 55. (R514, R515, R516, R517, R518, R519, R521, R522, R525) -/
def Obligations.BackgroundWork : Prop :=
  (∀ (s : State) (d n : Nat), (s.die d).state = .up →
    ∃ t, exec (.laneRecal (.spindle d) n true) s = .next t ∧ t.die d = { s.die d with recal := tabSet n (s.now, s.hearth.tjMax) (s.die d).recal } ∧ t.envans = s.envans ∧ (∀ e, e ≠ d → t.die e = s.die e)) ∧
  (∀ (s : State) (l n : Nat), (s.envan l).state = .up →
    ∃ t, exec (.laneRecal (.envan l) n true) s = .next t ∧ t.envan l = { s.envan l with recal := tabSet n (s.now, s.hearth.tjMax) (s.envan l).recal } ∧ t.spindles = s.spindles) ∧
  (∀ (s : State) (d n : Nat), (s.die d).state = .up →
    ∃ t, exec (.laneRecal (.spindle d) n false) s = .next t ∧ t.die d = { s.die d with state := .recovery, crcRun := 0 } ∧ (∀ e, e ≠ d → t.die e = s.die e)) ∧
  (∀ (s : State) (d n : Nat), (s.die d).state = .up → s.recalDue (.spindle d) n = true →
    ∃ t, exec (.recalForce (.spindle d) n false true) s = .next t ∧ t.die d = { s.die d with recalForced := (s.die d).recalForced + 1, recal := tabSet n (s.now, s.hearth.tjMax) (s.die d).recal } ∧ (∀ e, e ≠ d → t.die e = s.die e)) ∧
  (∀ (s : State) (l : LinkName) (n : Nat) (x u : Bool), x = true ∨ s.recalDue l n = false → exec (.recalForce l n x u) s = .next s) ∧
  (∀ (s : State), s.running = true → s.domainOn 8 = true → s.bg.scrubbing = true → 
    ∃ t, exec (.scrubBlock .clean) s = .next t ∧ t.bg.position = BitVec.ofNat 64 (s.bg.position.toNat + 256) ∧ t.bg.ce = s.bg.ce ∧ t.bg.ue = s.bg.ue ∧ t.recovery = s.recovery ∧ t.billetMem = s.billetMem) ∧
  (∀ (s : State) (x : Bool), s.running = true → s.domainOn 8 = true → s.bg.scrubbing = true → 
    ∃ t, exec (.scrubBlock (.corrected x)) s = .next t ∧ t.bg.position = BitVec.ofNat 64 (s.bg.position.toNat + 256) ∧ t.bg.ce = s.bg.ce + 1 ∧ t.bg.ue = s.bg.ue ∧ t.recovery = s.recovery ∧ t.billetMem = s.billetMem) ∧
  (∀ (s : State), s.running = true → s.domainOn 8 = true → s.bg.scrubbing = true → 
    ∃ t, exec (.scrubBlock .uncorrectable) s = .next t ∧ t.bg.position = BitVec.ofNat 64 (s.bg.position.toNat + 256) ∧ t.bg.ce = s.bg.ce ∧ t.bg.ue = s.bg.ue + 1 ∧ t.recovery.marked.contains (s.bg.position.toNat / 256) = true ∧ t.recovery.logSeq = s.recovery.logSeq + 1 ∧ t.billetMem = s.billetMem) ∧
  (∀ (s : State) (o : Option Nat), s.running = true → s.domainOn 8 = true → s.bg.scrubbing = true → exec (.scrubBlock (.firmware o)) s = .next (s.scrubUe.firmwareLost o).scrubOn) ∧
  (∀ (s : State), s.running = true → s.domainOn 8 = true → s.bg.scrubbing = true →
    ∃ t, exec (.scrubBlock (.firmware none)) s = .next t ∧ t.recovery.faults.contains .firmware = true ∧ t.hubFault = true ∧ t.bg.ue = s.bg.ue + 1) ∧
  (∀ (s : State), s.running = true → s.domainOn 8 = true → s.bg.scrubbing = false → s.bg.passStart.toNat + 14400000000 ≤ s.now.toNat →
    exec .scrubPassStart s = .next { s with bg := { s.bg with scrubbing := true, position := 0, passStart := s.now, floor := false } }) ∧
  (∀ (s : State), s.now.toNat < s.bg.passStart.toNat + 14400000000 → exec .scrubPassStart s = .next s) ∧
  (∀ (s : State) (d : Nat), (s.die d).state = .up → (s.die d).scrubbing = false → (s.die d).scrubAt.toNat + 100000 ≤ s.now.toNat → (s.die d).queue = [] → (s.die d).room false 0 = true →
    ∃ t, exec (.dieScrubRequest d) s = .next t ∧ (t.die d).scrubbing = true ∧ (t.die d).scrubAt = s.now ∧ t.out = s.out ++ [.die d (.scrub (s.die d).scrubPos.toNat (2 ^ 20))] ∧ (∀ e, e ≠ d → t.die e = s.die e)) ∧
  (∀ (s : State) (d : Nat), (s.die d).state = .up → (s.die d).scrubbing = false → (s.die d).scrubAt.toNat + 100000 ≤ s.now.toNat → (s.die d).queue = [] → (s.die d).room false 0 = false →
    ∃ t, exec (.dieScrubRequest d) s = .next t ∧ (t.die d).scrubbing = true ∧ (t.die d).queue = [⟨none, false, .scrub (s.die d).scrubPos.toNat (2 ^ 20)⟩] ∧ t.out = s.out ∧ (∀ e, e ≠ d → t.die e = s.die e)) ∧
  (∀ (s : State) (d : Nat), (s.die d).scrubbing = true → ((s.die d).sent.any fun u => u.key == .scrub) = true → (s.die d).queue = [] →
    ∃ t, exec (.dieScrubAck d) s = .next t ∧ t.die d = { s.die d with scrubbing := false, scrubPos := if (s.die d).scrubPos.toNat + 2 ^ 20 < dieBytes then BitVec.ofNat 64 ((s.die d).scrubPos.toNat + 2 ^ 20) else 0, sent := (s.die d).sent.eraseP fun u => u.key == .scrub } ∧ (∀ e, e ≠ d → t.die e = s.die e)) ∧
  (∀ (s : State), s.running = true → s.bg.telemDue s.now = true → s.telemetryQueued = false →
    ∃ t, exec .telemetrySnapshot s = .next t ∧ t.bg = { s.bg with telemSeq := s.bg.telemSeq + 1, telemAt := some s.now } ∧ (t.port s.mgmtFn.1).egress = (s.port s.mgmtFn.1).egress ++ [⟨0, 0, 64, 0, false, none, none, .hostWrite s.mgmtFn.1 0 plainAttr s.bg.telemAddr.toNat s.telemetry⟩] ∧ t.out = s.out) ∧
  (∀ (s : State), s.running = true → s.bg.telemDue s.now = true → s.telemetryQueued = true →
    ∃ t, exec .telemetrySnapshot s = .next t ∧ t.bg = { s.bg with telemSeq := s.bg.telemSeq + 1, telemAt := some s.now, telemSkipped := s.bg.telemSkipped + 1 } ∧ t.ports = s.ports) ∧
  (∀ (s : State), s.bg.telemDue s.now = false → exec .telemetrySnapshot s = .next s)

/-- Periodic self-tests: start, result, overdue. SELFTEST_START of a part that may be tested begins it: a Headstock way is emptied, the walk cache is emptied, a lathe is in test; a part that may not is left alone. SELFTEST_DONE of a failing part retires the way or fences the lathe, and the part is no longer in test. A passing part leaves the Headstock, the log and the faults as they were. A Burl engine that fails is tested again and, failing again, is out of service. SELFTEST_OVERDUE counts one for a part that has not been tested, nor counted, for 24 h. Rows: SELFTEST_START, SELFTEST_DONE, SELFTEST_OVERDUE. The conditions and results are exactly those of the Lean clauses. Where it rests on a choice of the model's own rather than a rule: log entries 3, 55. (R526, R528, R529, R530) -/
def Obligations.SelfTests : Prop :=
  (∀ (s : State) (w : Nat), s.testMayStart (.hsWay w) = true →
    ∃ t, exec (.selftestStart (.hsWay w)) s = .next t ∧ t.bg.testing = s.bg.testing ++ [.hsWay w] ∧ (∀ e ∈ t.headstock.cache, e.way ≠ w)) ∧
  (∀ (s : State), s.testMayStart .walkCache = true →
    ∃ t, exec (.selftestStart .walkCache) s = .next t ∧ t.bg.testing = s.bg.testing ++ [.walkCache] ∧ t.headstock.walkCache = [] ∧ t.headstock.cache = s.headstock.cache) ∧
  (∀ (s : State) (l : Nat), s.testMayStart (.lathe l) = true →
    ∃ t, exec (.selftestStart (.lathe l)) s = .next t ∧ t.bg.testing = s.bg.testing ++ [.lathe l] ∧ t.lathe l = { s.lathe l with testing := true } ∧ (∀ m, m ≠ l → t.lathe m = s.lathe m)) ∧
  (∀ (s : State) (x : TestUnit), s.testMayStart x = false → exec (.selftestStart x) s = .next s) ∧
  (∀ (s : State) (w : Nat), s.bg.testing.contains (.hsWay w) = true →
    ∃ t, exec (.selftestDone (.hsWay w) false) s = .next t ∧ t.headstock.retired = s.headstock.retired ++ [w] ∧ t.bg.testing.contains (.hsWay w) = false) ∧
  (∀ (s : State) (l : Nat), s.bg.testing.contains (.lathe l) = true →
    ∃ t, exec (.selftestDone (.lathe l) false) s = .next t ∧ (t.lathe l).fenced = true ∧ (t.lathe l).testing = false ∧ t.bg.testing.contains (.lathe l) = false) ∧
  (∀ (s : State) (x : TestUnit), s.bg.testing.contains x = true →
    ∃ t, exec (.selftestDone x true) s = .next t ∧ t.bg.testing.contains x = false ∧ t.headstock = s.headstock ∧ t.recovery.log = s.recovery.log ∧ t.recovery.faults = s.recovery.faults) ∧
  (∀ (s : State) (l : Bool), s.bg.testing.contains (.burl l) = true → (s.engine l).failedOnce = false →
    ∃ t, exec (.selftestDone (.burl l) false) s = .next t ∧ (t.engine l).failedOnce = true ∧ (t.engine l).outOfService = (s.engine l).outOfService ∧ t.bg.testing = s.bg.testing) ∧
  (∀ (s : State) (l : Bool), s.bg.testing.contains (.burl l) = true → (s.engine l).failedOnce = true →
    ∃ t, exec (.selftestDone (.burl l) false) s = .next t ∧ (t.engine l).outOfService = true ∧ t.bg.testing.contains (.burl l) = false) ∧
  (∀ (s : State) (x : TestUnit), s.testOverdue x = true →
    ∃ t, exec (.selftestOverdue x) s = .next t ∧ t.bg.overdue = s.bg.overdue + 1 ∧ t.testOverdue x = false ∧ t.headstock = s.headstock ∧ t.lathes = s.lathes) ∧
  (∀ (s : State) (x : TestUnit), s.testOverdue x = false → exec (.selftestOverdue x) s = .next s)

/-- Envan training, RECOVERY, back-off and silence. EL_TRAINING_DONE up records the partner and its link; a partner that is this very instance fails with cause 4. A failure backs off and, from the ninth on, is ABSENT; a failed recovery is remembered, and a second within 1 s trains again with cause 5. EL_BACKOFF_EXPIRY at its time trains again or is ABSENT, and before it does nothing. EL_FLIT_SILENCE takes the link DOWN, and a hub that is not master and loses its last link is ALONE. Every other link is as before. Rows: EL_TRAINING_DONE, EL_BACKOFF_EXPIRY, EL_FLIT_SILENCE. The conditions and results are exactly those of the Lean clauses. Where it rests on a choice of the model's own rather than a rule: log entries 3, 48. (R384, R454, R455, R477) -/
def Obligations.EnvanLinks : Prop :=
  (∀ (s : State) (l h k n : Nat) (i : BitVec 64), s.envanFitted l = true → ((s.envan l).state = .training ∨ (s.envan l).state = .recovery) → i ≠ s.cascade.inst →
    ∃ t, exec (.elTrainingDone l (.up h i k n)) s = .next t ∧ t.envan l = { s.envan l with state := .up, cause := 0, partner := h, partnerLink := k, delayNs := BitVec.ofNat 32 n, attempts := 0, fails := 0, crcRun := 0 } ∧ (∀ m, m ≠ l → t.envan m = s.envan m)) ∧
  (∀ (s : State) (l h k n : Nat), s.envanFitted l = true → (s.envan l).state = .training → (s.envan l).fails < 8 →
    ∃ t, exec (.elTrainingDone l (.up h s.cascade.inst k n)) s = .next t ∧ (t.envan l).state = .backoff ∧ (t.envan l).cause = 4 ∧ (t.envan l).fails = (s.envan l).fails + 1 ∧ (∀ m, m ≠ l → t.envan m = s.envan m)) ∧
  (∀ (s : State) (l : Nat) (k : BitVec 4), s.envanFitted l = true → (s.envan l).state = .training →
    ∃ t, exec (.elTrainingDone l (.failed k)) s = .next t ∧ t.envan l = { s.envan l with state := if 8 ≤ (s.envan l).fails then .absent else .backoff, fails := if 8 ≤ (s.envan l).fails then (s.envan l).fails else (s.envan l).fails + 1, cause := k, partner := 0, partnerLink := 0 } ∧ (∀ m, m ≠ l → t.envan m = s.envan m)) ∧
  (∀ (s : State) (l : Nat) (k : BitVec 4) (v : BitVec 64), s.envanFitted l = true → (s.envan l).state = .recovery → (s.envan l).failedRecovery = some v → s.now.toNat ≤ v.toNat + 1000000 →
    ∃ t, exec (.elTrainingDone l (.failed k)) s = .next t ∧ (t.envan l).state = .training ∧ (t.envan l).cause = 5 ∧ (t.envan l).failedRecovery = none ∧ (∀ m, m ≠ l → t.envan m = s.envan m)) ∧
  (∀ (s : State) (l : Nat) (k : BitVec 4), s.envanFitted l = true → (s.envan l).state = .recovery → (s.envan l).failedRecovery = none →
    ∃ t, exec (.elTrainingDone l (.failed k)) s = .next t ∧ t.envan l = { s.envan l with failedRecovery := some s.now } ∧ (∀ m, m ≠ l → t.envan m = s.envan m)) ∧
  (∀ (s : State) (l : Nat), s.envanFitted l = true → s.envanWaits l = false → s.domainOn 10 = true → s.chip.phase = .running → (s.envan l).state = .backoff → (s.envan l).fails < 8 →
    ∃ t, exec (.elBackoffExpiry l) s = .next t ∧ t.envan l = (s.envan l).attempt ∧ (t.envan l).state = .training ∧ (∀ m, m ≠ l → t.envan m = s.envan m)) ∧
  (∀ (s : State) (l : Nat), s.envanFitted l = true → s.envanWaits l = false → s.domainOn 10 = true → s.chip.phase = .running → (s.envan l).state = .backoff → 8 ≤ (s.envan l).fails →
    ∃ t, exec (.elBackoffExpiry l) s = .next t ∧ t.envan l = { s.envan l with state := .absent } ∧ (∀ m, m ≠ l → t.envan m = s.envan m)) ∧
  (∀ (s : State) (l : Nat), s.envanWaits l = true → exec (.elBackoffExpiry l) s = .next s) ∧
  (∀ (s : State) (l : Nat), s.linkUp l = true →
    ∃ t, exec (.elFlitSilence l) s = .next t ∧ t.envan l = { s.envan l with state := .down, partner := 0, partnerLink := 0, crcRun := 0 } ∧ (∀ m, m ≠ l → t.envan m = s.envan m) ∧ ((∀ m, m < s.nEnvans → m ≠ l → s.linkUp m = false) → s.isMaster = false → t.cascade.state = .alone))

/-- Presence, silence, the master claim, and charters. PRESENCE_SEND sends this hub's presence to every reachable hub, and nothing without a link. PRESENCE_RECEIVED of a new hub adds it and raises the highest epoch seen. HUB_SILENT marks a hub unheard for 2 s as not live, and the master notes a lost member for its next epoch. MASTER_CLAIM of an eligible hub that is first in line, with no live charter, makes it master with epoch one above the highest. CHARTER_SEND of unchanged members and routes refreshes the charter, or with a pending step issues epoch + 1. CHARTER_RECEIVED of another image family is UNCHARTERED with reason 1, and of a matching one that names this hub CHARTERED. CHARTER_SNAPSHOT copies the charter to the window, at the offset without its two low bits (the model's choice). Rows: PRESENCE_SEND, PRESENCE_RECEIVED, HUB_SILENT, MASTER_CLAIM, CHARTER_SEND, CHARTER_RECEIVED, CHARTER_SNAPSHOT. The conditions and results are exactly those of the Lean clauses. Where it rests on a choice of the model's own rather than a rule: log entries 3, 4, 48, 50, 64. (R459, R461, R462, R464, R466, R472, R473, R475, R586) -/
def Obligations.PresenceAndCharters : Prop :=
  (∀ (s : State), s.anyLinkUp = true →
    ∃ t, exec .presenceSend s = .next t ∧ (∀ h ∈ s.reachable, .envan h (.presence s.hubId s.cascade.inst s.eligible s.cascade.highest) ∈ t.out) ∧ t.cascade = s.cascade ∧ t.hearth = s.hearth) ∧
  (∀ (s : State), s.anyLinkUp = false → exec .presenceSend s = .next s) ∧
  (∀ (s : State) (h : Nat) (i e : BitVec 64) (x : Bool) (f : BitVec 3), s.anyLinkUp = true → i ≠ s.cascade.inst → s.presenceOf h = none →
    ∃ t, exec (.presenceReceived h i x e f) s = .next t ∧ t.cascade.presence = s.cascade.presence ++ [(h, ⟨i, x, s.now, false, f⟩)] ∧ t.cascade.highest = (if s.cascade.highest.toNat < e.toNat then e else s.cascade.highest) ∧ t.cascade.charter = s.cascade.charter ∧ t.out = s.out) ∧
  (∀ (s : State) (h : Nat) (i e : BitVec 64) (x : Bool) (f : BitVec 3), i = s.cascade.inst → exec (.presenceReceived h i x e f) s = .next s) ∧
  (∀ (s : State) (h : Nat) (p : Presence), s.domainOn 8 = true → s.presenceOf h = some p → p.silent = false → p.heard.toNat + 2000000 ≤ s.now.toNat →
    ∃ t, exec (.hubSilent h) s = .next t ∧ t.live h = false ∧ t.cascade.charter = s.cascade.charter ∧ (s.isMaster = true → s.member h = true → h ≠ s.hubId → s.cascade.newLost.contains h = false → t.cascade.newLost = s.cascade.newLost ++ [h])) ∧
  (∀ (s : State) (h : Nat) (p : Presence), s.presenceOf h = some p → s.now.toNat < p.heard.toNat + 2000000 → exec (.hubSilent h) s = .next s) ∧
  (∀ (s : State), s.eligible = true → s.isMaster = false → s.charterSilent = true → s.firstInLine = true → s.cascade.charter = none →
    ∃ t, exec .masterClaim s = .next t ∧ t.isMaster = true ∧ (t.cascade.charter).map (fun c => (c.epoch, c.master, c.lost)) = some (s.cascade.highest + 1, s.hubId, 0) ∧ t.cascade.highest = s.cascade.highest + 1 ∧ t.cascade.timeState = .free) ∧
  (∀ (s : State), (s.eligible = false ∨ s.isMaster = true ∨ s.charterSilent = false ∨ s.firstInLine = false) → exec .masterClaim s = .next s) ∧
  (∀ (s : State) (l : List (Nat × Nat × Nat)) (c : Charter) (m r : List Nat), s.isMaster = true → s.cascade.charter = some c → c.timeBase ≠ 0 → s.cascade.newLost = [] → s.cascade.nextStep = 0 → s.cascade.reports = [] → s.nextMembers l (maskHubs c.members) = (m, r) → hubMask m = c.members → hubMask r = c.refused → routesOf l m = c.routes →
    ∃ t, exec (.charterSend l) s = .next t ∧ t.cascade.charter = some { c with timeBase := s.now } ∧ t.cascade.charterHeard = some s.now ∧ t.cascade.highest = c.epoch) ∧
  (∀ (s : State) (l : List (Nat × Nat × Nat)) (c : Charter), s.isMaster = true → s.cascade.charter = some c → s.cascade.newLost = [] → s.cascade.nextStep ≠ 0 →
    ∃ t, exec (.charterSend l) s = .next t ∧ (t.cascade.charter).map (fun d => (d.epoch, d.master, d.step, d.timeBase)) = some (c.epoch + 1, c.master, s.cascade.nextStep, s.now) ∧ t.cascade.nextStep = 0 ∧ t.cascade.highest = c.epoch + 1) ∧
  (∀ (s : State) (l : List (Nat × Nat × Nat)), s.isMaster = false → exec (.charterSend l) s = .next s) ∧
  (∀ (s : State) (c : Charter), s.anyLinkUp = true → c.master ≠ s.hubId → s.cascade.charter = none → c.lost = 0 → c.step = 0 → s.cascade.state = .seeking → (s.chip.cfg.map ImageCfg.defaults) = some false → c.family ≠ s.family → s.cascade.guests = [] →
    ∃ t, exec (.charterReceived c) s = .next t ∧ t.cascade.state = .uncharted ∧ t.cascade.reason = 1 ∧ t.cascade.charter = some c) ∧
  (∀ (s : State) (c : Charter), s.anyLinkUp = true → c.master ≠ s.hubId → s.cascade.charter = none → c.lost = 0 → c.step = 0 → s.cascade.state = .seeking → (s.chip.cfg.map ImageCfg.defaults) = some false → c.family = s.family → c.version = s.version → c.digest = s.digest → c.members.getLsbD s.hubId = true → s.live s.hubId = false →
    ∃ t, exec (.charterReceived c) s = .next t ∧ t.cascade.state = .chartered ∧ t.cascade.reason = 0 ∧ t.cascade.charter = some c) ∧
  (∀ (s : State) (c : Charter), s.anyLinkUp = false → exec (.charterReceived c) s = .next s) ∧
  (∀ (s : State) (v : BitVec 32), s.decodes s.mgmtFn.1 s.mgmtFn.2 = true → (s.bench 0).detached = false →
    ∃ t, exec (.charterSnapshot v) s = .next t ∧ t.cascade.windowOffset = (v &&& 0xFFFFFFFC#32) ∧ t.cascade.snapshot = ((s.cascade.charter).map charterBytes).getD [] ∧ t.cascade.charter = s.cascade.charter)

/-- Rack time statements, forward steps, delay probes, roster and registrations. TIME_STATEMENT_SEND of the master goes to every reachable hub. TIME_STATEMENT_RECEIVED within 250 ns is DISCIPLINED with the rate within 50,000, up to 20 us SLEWING with twice the offset clamped to 50,000, and more than 20 us behind steps hearth time forward by the whole microseconds; ALONE, SEEKING and MASTER ignore it. HEARTH_TIME_REPORT of a hub ahead steps the master to 1,000 us beyond it. DELAY_PROBE stores the delay. ROSTER_REPORT is collected; ROSTER_UPDATE with a newer sequence replaces the roster. BENCH_REGISTRATION is noted, or put in the roster by the master. Rows: TIME_STATEMENT_SEND, TIME_STATEMENT_RECEIVED, HEARTH_TIME_REPORT, DELAY_PROBE, ROSTER_REPORT, ROSTER_UPDATE, BENCH_REGISTRATION. The conditions and results are exactly those of the Lean clauses. Where it rests on a choice of the model's own rather than a rule: log entries 17, 49, 50. (R462, R468, R469, R470, R474, R479) -/
def Obligations.RackTimeAndRoster : Prop :=
  (∀ (s : State), s.isMaster = true →
    ∃ t, exec .timeStatementSend s = .next t ∧ (∀ h ∈ s.reachable, .envan h (.time s.now 0) ∈ t.out) ∧ t.hearth = s.hearth ∧ t.cascade = s.cascade) ∧
  (∀ (s : State), s.isMaster = false → exec .timeStatementSend s = .next s) ∧
  (∀ (s : State) (n d : Nat), s.cascade.state = .chartered → (n : Int) + d - s.now.toNat * 1000 ≤ 250 → -250 ≤ (n : Int) + d - s.now.toNat * 1000 →
    ∃ t, exec (.timeStatementReceived n d) s = .next t ∧ t.cascade.timeState = .disciplined ∧ t.hearth.time = s.hearth.time ∧ t.cascade.offset = (n : Int) + d - s.now.toNat * 1000 ∧ -50000 ≤ t.hearth.rateAdj ∧ t.hearth.rateAdj ≤ 50000) ∧
  (∀ (s : State) (n d : Nat) (x : Int), s.cascade.state = .chartered → x = (n : Int) + d - s.now.toNat * 1000 → 250 < x.natAbs → x.natAbs ≤ 20000 →
    ∃ t, exec (.timeStatementReceived n d) s = .next t ∧ t.cascade.timeState = .slewing ∧ t.hearth.time = s.hearth.time ∧ t.hearth.rateAdj = max (-50000) (min 50000 (2 * x))) ∧
  (∀ (s : State) (n d : Nat) (x : Int), s.cascade.state = .chartered → x = (n : Int) + d - s.now.toNat * 1000 → 20000 < x →
    ∃ t, exec (.timeStatementReceived n d) s = .next t ∧ t.hearth.time = s.hearth.time + BitVec.ofNat 64 (x / 1000).toNat) ∧
  (∀ (s : State) (n d : Nat), (s.cascade.state = .alone ∨ s.cascade.state = .seeking ∨ s.cascade.state = .master) → exec (.timeStatementReceived n d) s = .next s) ∧
  (∀ (s : State) (h : Nat) (v : BitVec 64), s.isMaster = true → s.now.toNat < v.toNat →
    ∃ t, exec (.hearthTimeReport h v) s = .next t ∧ t.hearth.time = s.hearth.time + BitVec.ofNat 64 (v.toNat + 1000 - s.now.toNat) ∧ t.cascade.nextStep = s.cascade.nextStep + BitVec.ofNat 64 (v.toNat + 1000 - s.now.toNat)) ∧
  (∀ (s : State) (h : Nat) (v : BitVec 64), v.toNat ≤ s.now.toNat → exec (.hearthTimeReport h v) s = .next s) ∧
  (∀ (s : State) (l n : Nat), s.linkUp l = true →
    ∃ t, exec (.delayProbe l n) s = .next t ∧ (t.envan l).delayNs = BitVec.ofNat 32 n ∧ t.out = s.out ++ [.envan (s.envan l).partner .probe] ∧ (∀ m, m ≠ l → t.envan m = s.envan m)) ∧
  (∀ (s : State) (h m : Nat) (x : List (Nat × BitVec 16)) (y : List (Nat × Nat × BitVec 16)), s.isMaster = true → s.member h = true → s.cascade.reports ≠ [] → m < 32 → m ≠ h → s.member m = true → (s.cascade.reports.any fun r => r.1 == m) = false →
    exec (.rosterReport h x y) s = .next { s with cascade := { s.cascade with reports := (s.cascade.reports.filter fun r => r.1 != h) ++ [(h, x, y)] } }) ∧
  (∀ (s : State) (h : Nat) (x : List (Nat × BitVec 16)) (y : List (Nat × Nat × BitVec 16)), (s.isMaster = false ∨ s.member h = false) → exec (.rosterReport h x y) s = .next s) ∧
  (∀ (s : State) (v : BitVec 64) (e : List RosterEntry) (c : Charter), s.cascade.charter = some c → s.cascade.state = .chartered → c.rosterSeq.toNat < v.toNat → s.cascade.guests = [] → s.cascade.spanning = [] →
    ∃ t, exec (.rosterUpdate v e) s = .next t ∧ t.cascade.charter = some { c with roster := e, rosterSeq := v } ∧ t.cascade.reports = [] ∧ t.benches = s.benches) ∧
  (∀ (s : State) (v : BitVec 64) (e : List RosterEntry) (c : Charter), s.cascade.charter = some c → v.toNat ≤ c.rosterSeq.toNat → exec (.rosterUpdate v e) s = .next s) ∧
  (∀ (s : State) (b k : Nat) (i : BitVec 16) (v : BitVec 32), s.chartered = true → (s.bench b).state = .active →
    ∃ t, exec (.benchRegistration s.hubId b i k v) s = .next t ∧ t.cascade.spanning.contains b = true ∧ t.benches = s.benches) ∧
  (∀ (s : State) (h b k : Nat) (i : BitVec 16) (v : BitVec 32) (c : Charter), s.isMaster = true → h ≠ s.hubId → s.member h = true → s.cascade.charter = some c →
    ∃ t, exec (.benchRegistration h b i k v) s = .next t ∧ (t.cascade.charter).map Charter.roster = some (rosterPut h b i k v c.roster) ∧ t.benches = s.benches)

/-- Grants, sweeps and data requests of benches of other hubs. REMOTE_GRANT of a free, valid range adds it to the guest's grants and answers 0, waiting where it is being zero-filled; an invalid or held one answers RANGE, one beyond the quota OVER_QUOTA, and changes no grant; a return starts a zero fill and cuts the grants; a stale message counts. REMOTE_GRANT_RESULT ends the forwarded command with its result, the grant added on 0. REMOTE_SWEEP of another incarnation ends that guest alone; of the current one it keeps it. ENVAN_DATA_REQUEST of a guest that holds the range goes to the die and is recorded; of a die not in service it is answered DIE_LOST, a write beyond what it holds WRITE_REFUSED; the hold cause of a core on another hub HOLDS the bench at home; a stale one counts. Rows: REMOTE_GRANT, REMOTE_GRANT_RESULT, REMOTE_SWEEP, ENVAN_DATA_REQUEST. The conditions and results are exactly those of the Lean clauses. Where it rests on a choice of the model's own rather than a rule: log entries 5, 50, 51. (R456, R457, R480, R481, R482, R483) -/
def Obligations.RemoteBenches : Prop :=
  (∀ (s : State) (h b g k d o n m : Nat) (i : BitVec 16) (v : BitVec 32), s.chartered = true → h ≠ s.hubId → s.guestSlot h b = some g → s.msgCurrent h b i = true → s.rangeOk d o n = true → s.rangeHeld d o n = false → n ≤ m → s.filling d o n = false → s.routed h = true →
    ∃ t, exec (.remoteGrant h b i k v false d o n m) s = .next t ∧ (t.guest g).map Guest.grants = some (((s.guest g).map Guest.grants).getD [] ++ [⟨s.hubId, d, o, n⟩]) ∧ t.out = s.out ++ [.envan h (.remoteGrantResult 0)] ∧ t.benches = s.benches) ∧
  (∀ (s : State) (h b g k d o n m : Nat) (i : BitVec 16) (v : BitVec 32), s.chartered = true → h ≠ s.hubId → s.guestSlot h b = some g → s.msgCurrent h b i = true → s.rangeOk d o n = true → s.rangeHeld d o n = false → n ≤ m → s.filling d o n = true →
    ∃ t, exec (.remoteGrant h b i k v false d o n m) s = .next t ∧ t.cascade = { s.cascade with grantWaits := s.cascade.grantWaits ++ [(h, b, g, d, o, n)] } ∧ t.out = s.out) ∧
  (∀ (s : State) (h b g k d o n m : Nat) (i : BitVec 16) (v : BitVec 32), s.chartered = true → h ≠ s.hubId → s.guestSlot h b = some g → s.msgCurrent h b i = true → s.rangeOk d o n = true → s.rangeHeld d o n = false → m < n → s.routed h = true →
    ∃ t, exec (.remoteGrant h b i k v false d o n m) s = .next t ∧ t.cascade = s.cascade ∧ t.out = s.out ++ [.envan h (.remoteGrantResult 0x0C)] ∧ t.benches = s.benches) ∧
  (∀ (s : State) (h b g k d o n m : Nat) (i : BitVec 16) (v : BitVec 32), s.chartered = true → h ≠ s.hubId → s.guestSlot h b = some g → s.msgCurrent h b i = true → (s.rangeOk d o n = false ∨ s.rangeHeld d o n = true) → s.routed h = true →
    ∃ t, exec (.remoteGrant h b i k v false d o n m) s = .next t ∧ t.cascade = s.cascade ∧ t.out = s.out ++ [.envan h (.remoteGrantResult 0x0D)] ∧ t.benches = s.benches) ∧
  (∀ (s : State) (h b g k d o n m : Nat) (i : BitVec 16) (v : BitVec 32), s.chartered = true → h ≠ s.hubId → s.guestSlot h b = some g → s.msgCurrent h b i = true → s.zeroFill.contains (d, o, n) = false → s.rangeOk d o n = true → s.holds (256 + g) d o n = true → s.pinnedIn (256 + g) d o n = false →
    ∃ t, exec (.remoteGrant h b i k v true d o n m) s = .next t ∧ t.zeroFill = s.zeroFill ++ [(d, o, n)] ∧ (t.guest g).map Guest.grants = some ((((s.guest g).map Guest.grants).getD []).flatMap fun x => x.cut d o n) ∧ t.benches = s.benches) ∧
  (∀ (s : State) (h b g k d o n m : Nat) (i : BitVec 16) (v : BitVec 32) (x : Bool), s.chartered = true → h ≠ s.hubId → s.guestSlot h b = some g → s.msgCurrent h b i = false →
    exec (.remoteGrant h b i k v x d o n m) s = .next s.staleMessage) ∧
  (∀ (s : State) (b h d o n : Nat), s.cascade.forwarded = some (b, h, false, d, o, n) →
    ∃ t, exec (.remoteGrantResult 0) s = .next t ∧ (t.bench b).grants = (s.bench b).grants ++ [⟨h, d, o, n⟩] ∧ t.cascade.forwarded = none ∧ t.mailbox.busy = false ∧ t.mailbox.result = 0 ∧ (∀ c, c ≠ b → (t.bench c).grants = (s.bench c).grants)) ∧
  (∀ (s : State) (b h d o n : Nat) (r : BitVec 8), s.cascade.forwarded = some (b, h, false, d, o, n) → r ≠ 0 →
    ∃ t, exec (.remoteGrantResult r) s = .next t ∧ t.cascade.forwarded = none ∧ t.mailbox.busy = false ∧ t.mailbox.result = r ∧ (∀ c, (t.bench c).grants = (s.bench c).grants)) ∧
  (∀ (s : State) (h b g : Nat) (i : BitVec 16) (x : Guest), s.guestSlot h b = some g → s.guest g = some x → x.incarn ≠ i →
    ∃ t, exec (.remoteSweep h b i true) s = .next t ∧ t.guest g = none ∧ (∀ k, k ≠ g → t.guest k = s.guest k)) ∧
  (∀ (s : State) (h b g : Nat) (i : BitVec 16) (x : Guest) (r : Bool), s.guestSlot h b = some g → s.guest g = some x → x.incarn = i → exec (.remoteSweep h b i r) s = .next s) ∧
  (∀ (s : State) (a h b n d o : Nat) (i : BitVec 16) (y : List (Byte × Bool)), s.msgCurrent h b i = true → s.dieMapped d = true → s.reaches h b (s.ownerOf h b) d o y.length = true → (s.die d).state = .up → (s.die d).queue = [] → (∀ k, (s.die d).room true (DieMsg.blocks (.xltForward k o y.length true y)) = true) →
    ∃ t k, exec (.envanDataRequest a h b i n (.dieWrite d o y)) s = .next t ∧ t.out = s.out ++ [.die d (.xltForward k o y.length true y)] ∧ t.remotes = s.remotes ++ [⟨a, n, k, d, h, b, o, y.length⟩]) ∧
  (∀ (s : State) (a h b n d o k : Nat) (i : BitVec 16), s.msgCurrent h b i = true → s.dieMapped d = true → s.reaches h b (s.ownerOf h b) d o k = true → (s.die d).state = .up → (s.die d).queue = [] → (s.die d).room true 0 = true →
    ∃ t k2, exec (.envanDataRequest a h b i n (.dieRead d o k)) s = .next t ∧ t.out = s.out ++ [.die d (.hubRead k2 o k)] ∧ t.remotes = s.remotes ++ [⟨a, n, k2, d, h, b, o, k⟩]) ∧
  (∀ (s : State) (a h b n d o k : Nat) (i : BitVec 16), s.msgCurrent h b i = true → s.dieMapped d = false → s.routed a = true →
    ∃ t, exec (.envanDataRequest a h b i n (.dieRead d o k)) s = .next t ∧ t.out = s.out ++ [.envan a (.dataAnswer n .dieLost [])] ∧ t.remotes = s.remotes) ∧
  (∀ (s : State) (a h b n d o : Nat) (i : BitVec 16) (y : List (Byte × Bool)), s.msgCurrent h b i = true → s.dieMapped d = true → s.reaches h b (s.ownerOf h b) d o y.length = false → s.routed a = true →
    ∃ t, exec (.envanDataRequest a h b i n (.dieWrite d o y)) s = .next t ∧ t.out = s.out ++ [.envan a (.dataAnswer n .writeRefused [])] ∧ t.remotes = s.remotes) ∧
  (∀ (s : State) (h b n c : Nat) (i : BitVec 16) (v : BitVec 64) (k : BitVec 32), s.msgCurrent s.hubId b i = true → (s.bench b).state = .active →
    ∃ t, exec (.envanDataRequest h s.hubId b i n (.coreCause c v k)) s = .next t ∧ (t.bench b).state = .held ∧ (t.bench b).holdCause = BitVec.ofNat 2 c) ∧
  (∀ (s : State) (a h b n : Nat) (i : BitVec 16) (q : DataRequest), s.msgCurrent h b i = false → exec (.envanDataRequest a h b i n q) s = .next s.staleMessage)
end

