-- ==== Sys2Proof/Laws/Exec.lean ====
section
/-!
SUPPORT. exec at each command is that command's meaning: one equation for each, so that no proof unfolds the whole match.
-/

namespace Sys2Proof.Machine

@[simp] theorem exec_hearthPowerGood (s : State) : exec .hearthPowerGood s = execHearthPowerGood s := rfl
@[simp] theorem exec_hearthPowerLoss (s : State) : exec .hearthPowerLoss s = execHearthPowerLoss s := rfl
@[simp] theorem exec_strapLatch (hubId : BitVec 5) (masterEligible : Bool) (slotForce : BitVec 2) (testMode refPresent : Bool) (s : State) : exec (.strapLatch hubId masterEligible slotForce testMode refPresent) s = execStrapLatch hubId masterEligible slotForce testMode refPresent s := rfl
@[simp] theorem exec_sfdpReadDone (density : Nat) (x4 : Bool) (mhz : Nat) (s : State) : exec (.sfdpReadDone density x4 mhz) s = execSfdpReadDone density x4 mhz s := rfl
@[simp] theorem exec_slotHeadersRead (slotA slotB : List Byte) (s : State) : exec (.slotHeadersRead slotA slotB) s = execSlotHeadersRead slotA slotB s := rfl
@[simp] theorem exec_slotBodyReadDone (slotB : Bool) (bytes : List Byte) (s : State) : exec (.slotBodyReadDone slotB bytes) s = execSlotBodyReadDone slotB bytes s := rfl
@[simp] theorem exec_imageBoundExpiry (s : State) : exec .imageBoundExpiry s = execImageBoundExpiry s := rfl
@[simp] theorem exec_ledgerTrainingDone (failMask : BitVec 4) (s : State) : exec (.ledgerTrainingDone failMask) s = execLedgerTrainingDone failMask s := rfl
@[simp] theorem exec_bistDone (result : BistResult) (s : State) : exec (.bistDone result) s = execBistDone result s := rfl
@[simp] theorem exec_linksPhaseEnd (s : State) : exec .linksPhaseEnd s = execLinksPhaseEnd s := rfl
@[simp] theorem exec_managementRestart (value : BitVec 32) (s : State) : exec (.managementRestart value) s = execManagementRestart value s := rfl
@[simp] theorem exec_restartSequenceResume (s : State) : exec .restartSequenceResume s = execRestartSequenceResume s := rfl
@[simp] theorem exec_hearthTrim (errorPpm : Int) (s : State) : exec (.hearthTrim errorPpm) s = execHearthTrim errorPpm s := rfl
@[simp] theorem exec_refLoss (s : State) : exec .refLoss s = execRefLoss s := rfl
@[simp] theorem exec_refReturn (s : State) : exec .refReturn s = execRefReturn s := rfl
@[simp] theorem exec_hearthDeadline (index : Nat) (s : State) : exec (.hearthDeadline index) s = execHearthDeadline index s := rfl
@[simp] theorem exec_idleGateExpiry (domain : Nat) (s : State) : exec (.idleGateExpiry domain) s = execIdleGateExpiry domain s := rfl
@[simp] theorem exec_gateDrainDone (domain : Nat) (s : State) : exec (.gateDrainDone domain) s = execGateDrainDone domain s := rfl
@[simp] theorem exec_gateDrainTimeout (domain : Nat) (s : State) : exec (.gateDrainTimeout domain) s = execGateDrainTimeout domain s := rfl
@[simp] theorem exec_gateSaveDone (domain : Nat) (s : State) : exec (.gateSaveDone domain) s = execGateSaveDone domain s := rfl
@[simp] theorem exec_porchEnqueue (source : PorchSource) (domain slots : Nat) (request : PorchRequest) (s : State) : exec (.porchEnqueue source domain slots request) s = execPorchEnqueue source domain slots request s := rfl
@[simp] theorem exec_domainWakeDone (domain : Nat) (s : State) : exec (.domainWakeDone domain) s = execDomainWakeDone domain s := rfl
@[simp] theorem exec_pd7RefillDone (s : State) : exec .pd7RefillDone s = execPd7RefillDone s := rfl
@[simp] theorem exec_pdWake (value : BitVec 32) (s : State) : exec (.pdWake value) s = execPdWake value s := rfl
@[simp] theorem exec_thermalSample (sensors : List (BitVec 16)) (s : State) : exec (.thermalSample sensors) s = execThermalSample sensors s := rfl
@[simp] theorem exec_thermalRecovery (s : State) : exec .thermalRecovery s = execThermalRecovery s := rfl
@[simp] theorem exec_perstAssert (port : Nat) (s : State) : exec (.perstAssert port) s = execPerstAssert port s := rfl
@[simp] theorem exec_perstDeassert (port : Nat) (s : State) : exec (.perstDeassert port) s = execPerstDeassert port s := rfl
@[simp] theorem exec_linkTrainingDone (port : Nat) (result : TrainResult) (s : State) : exec (.linkTrainingDone port result) s = execLinkTrainingDone port result s := rfl
@[simp] theorem exec_detectTimeout (port : Nat) (s : State) : exec (.detectTimeout port) s = execDetectTimeout port s := rfl
@[simp] theorem exec_detectRetry (port : Nat) (s : State) : exec (.detectRetry port) s = execDetectRetry port s := rfl
@[simp] theorem exec_linkDown (port : Nat) (error : Option AerError) (s : State) : exec (.linkDown port error) s = execLinkDown port error s := rfl
@[simp] theorem exec_hotReset (port : Nat) (s : State) : exec (.hotReset port) s = execHotReset port s := rfl
@[simp] theorem exec_dpcContainment (port : Nat) (s : State) : exec (.dpcContainment port) s = execDpcContainment port s := rfl
@[simp] theorem exec_cxlLost (port : Nat) (s : State) : exec (.cxlLost port) s = execCxlLost port s := rfl
@[simp] theorem exec_flr (port fn : Nat) (s : State) : exec (.flr port fn) s = execFlr port fn s := rfl
@[simp] theorem exec_vfEnableClear (port : Nat) (s : State) : exec (.vfEnableClear port) s = execVfEnableClear port s := rfl
@[simp] theorem exec_numvfsWrite (port value : Nat) (s : State) : exec (.numvfsWrite port value) s = execNumvfsWrite port value s := rfl
@[simp] theorem exec_configRequest (port fn : Nat) (access : ConfigAccess) (s : State) : exec (.configRequest port fn access) s = execConfigRequest port fn access s := rfl
@[simp] theorem exec_powerStateChange (port fn : Nat) (d3hot : Bool) (s : State) : exec (.powerStateChange port fn d3hot) s = execPowerStateChange port fn d3hot s := rfl
@[simp] theorem exec_busMasterEnableChange (port fn : Nat) (enable : Bool) (s : State) : exec (.busMasterEnableChange port fn enable) s = execBusMasterEnableChange port fn enable s := rfl
@[simp] theorem exec_linkPowerStateChange (port : Nat) (l2 : Bool) (s : State) : exec (.linkPowerStateChange port l2) s = execLinkPowerStateChange port l2 s := rfl
@[simp] theorem exec_bar2Read (port fn offset length hid : Nat) (s : State) : exec (.bar2Read port fn offset length hid) s = execBar2Read port fn offset length hid s := rfl
@[simp] theorem exec_bar2Write (port fn offset : Nat) (data : List (Byte × Bool)) (poisoned relaxed : Bool) (s : State) : exec (.bar2Write port fn offset data poisoned relaxed) s = execBar2Write port fn offset data poisoned relaxed s := rfl
@[simp] theorem exec_bar4Write (port fn offset requester : Nat) (data : List (Byte × Bool)) (poisoned relaxed : Bool) (s : State) : exec (.bar4Write port fn offset requester data poisoned relaxed) s = execBar4Write port fn offset requester data poisoned relaxed s := rfl
@[simp] theorem exec_bar4Read (port fn hid : Nat) (s : State) : exec (.bar4Read port fn hid) s = execBar4Read port fn hid s := rfl
@[simp] theorem exec_atomicop (port fn _bar hid : Nat) (s : State) : exec (.atomicop port fn _bar hid) s = execAtomicop port fn _bar hid s := rfl
@[simp] theorem exec_hostCompletion (port tag : Nat) (status : CplStatus) (data : List Byte) (s : State) : exec (.hostCompletion port tag status data) s = execHostCompletion port tag status data s := rfl
@[simp] theorem exec_completionTimeout (port tag : Nat) (s : State) : exec (.completionTimeout port tag) s = execCompletionTimeout port tag s := rfl
@[simp] theorem exec_atsTranslationCompletion (port tag : Nat) (result : AtsResult) (s : State) : exec (.atsTranslationCompletion port tag result) s = execAtsTranslationCompletion port tag result s := rfl
@[simp] theorem exec_invalidateRequest (port fn itag base length : Nat) (pasid : Option Nat) (s : State) : exec (.invalidateRequest port fn itag base length pasid) s = execInvalidateRequest port fn itag base length pasid s := rfl
@[simp] theorem exec_invalidateCompletion (port fn itag : Nat) (s : State) : exec (.invalidateCompletion port fn itag) s = execInvalidateCompletion port fn itag s := rfl
@[simp] theorem exec_priResponse (port fn group : Nat) (code : PriCode) (s : State) : exec (.priResponse port fn group code) s = execPriResponse port fn group code s := rfl
@[simp] theorem exec_msixModerationExpiry (bench vector : Nat) (s : State) : exec (.msixModerationExpiry bench vector) s = execMsixModerationExpiry bench vector s := rfl
@[simp] theorem exec_msixEntryWrite (port fn vector dword : Nat) (value : BitVec 32) (s : State) : exec (.msixEntryWrite port fn vector dword value) s = execMsixEntryWrite port fn vector dword value s := rfl
@[simp] theorem exec_snpinv (bench ring : Nat) (s : State) : exec (.snpinv bench ring) s = execSnpinv bench ring s := rfl
@[simp] theorem exec_snpdata (bench ring : Nat) (s : State) : exec (.snpdata bench ring) s = execSnpdata bench ring s := rfl
@[simp] theorem exec_goS (bench ring : Nat) (tail : BitVec 32) (s : State) : exec (.goS bench ring tail) s = execGoS bench ring tail s := rfl
@[simp] theorem exec_knockPoll (bench ring : Nat) (tail : BitVec 32) (s : State) : exec (.knockPoll bench ring tail) s = execKnockPoll bench ring tail s := rfl
@[simp] theorem exec_doorbell (bench ring : Nat) (tail : BitVec 32) (s : State) : exec (.doorbell bench ring tail) s = execDoorbell bench ring tail s := rfl
@[simp] theorem exec_ownLateRetry (bench ring : Nat) (s : State) : exec (.ownLateRetry bench ring) s = execOwnLateRetry bench ring s := rfl
@[simp] theorem exec_descriptorFetch (bench ring : Nat) (result : FetchResult) (s : State) : exec (.descriptorFetch bench ring result) s = execDescriptorFetch bench ring result s := rfl
@[simp] theorem exec_descriptorComplete (bench ring : Nat) (s : State) : exec (.descriptorComplete bench ring) s = execDescriptorComplete bench ring s := rfl
@[simp] theorem exec_ringEnable (bench ring : Nat) (value : BitVec 32) (s : State) : exec (.ringEnable bench ring value) s = execRingEnable bench ring value s := rfl
@[simp] theorem exec_ringDisable (bench ring : Nat) (value : BitVec 32) (s : State) : exec (.ringDisable bench ring value) s = execRingDisable bench ring value s := rfl
@[simp] theorem exec_ringDisableDone (bench ring : Nat) (s : State) : exec (.ringDisableDone bench ring) s = execRingDisableDone bench ring s := rfl
@[simp] theorem exec_ringPause (bench ring : Nat) (value : BitVec 32) (s : State) : exec (.ringPause bench ring value) s = execRingPause bench ring value s := rfl
@[simp] theorem exec_ringUnpause (bench ring : Nat) (value : BitVec 32) (s : State) : exec (.ringUnpause bench ring value) s = execRingUnpause bench ring value s := rfl
@[simp] theorem exec_ringResume (bench ring : Nat) (value : BitVec 32) (s : State) : exec (.ringResume bench ring value) s = execRingResume bench ring value s := rfl
@[simp] theorem exec_ringAbort (bench ring : Nat) (value : BitVec 32) (s : State) : exec (.ringAbort bench ring value) s = execRingAbort bench ring value s := rfl
@[simp] theorem exec_abortDone (bench ring : Nat) (s : State) : exec (.abortDone bench ring) s = execAbortDone bench ring s := rfl
@[simp] theorem exec_copy (bench ring : Nat) (s : State) : exec (.copy bench ring) s = execCopy bench ring s := rfl
@[simp] theorem exec_gather (bench ring : Nat) (index : List Nat) (s : State) : exec (.gather bench ring index) s = execGather bench ring index s := rfl
@[simp] theorem exec_scatter (bench ring : Nat) (index : List Nat) (s : State) : exec (.scatter bench ring index) s = execScatter bench ring index s := rfl
@[simp] theorem exec_fill (bench ring : Nat) (s : State) : exec (.fill bench ring) s = execFill bench ring s := rfl
@[simp] theorem exec_compare (bench ring : Nat) (s : State) : exec (.compare bench ring) s = execCompare bench ring s := rfl
@[simp] theorem exec_acquire (bench ring : Nat) (s : State) : exec (.acquire bench ring) s = execAcquire bench ring s := rfl
@[simp] theorem exec_fence (bench ring : Nat) (s : State) : exec (.fence bench ring) s = execFence bench ring s := rfl
@[simp] theorem exec_eventWait (bench ring : Nat) (s : State) : exec (.eventWait bench ring) s = execEventWait bench ring s := rfl
@[simp] theorem exec_eventWaitSatisfied (bench ring : Nat) (s : State) : exec (.eventWaitSatisfied bench ring) s = execEventWaitSatisfied bench ring s := rfl
@[simp] theorem exec_eventSignal (bench ring : Nat) (s : State) : exec (.eventSignal bench ring) s = execEventSignal bench ring s := rfl
@[simp] theorem exec_launch (bench ring : Nat) (s : State) : exec (.launch bench ring) s = execLaunch bench ring s := rfl
@[simp] theorem exec_anneal (bench ring : Nat) (block : LoadResult) (s : State) : exec (.anneal bench ring block) s = execAnneal bench ring block s := rfl
@[simp] theorem exec_prefetch (bench ring : Nat) (s : State) : exec (.prefetch bench ring) s = execPrefetch bench ring s := rfl
@[simp] theorem exec_advise (bench ring : Nat) (s : State) : exec (.advise bench ring) s = execAdvise bench ring s := rfl
@[simp] theorem exec_billetAlloc (bench ring : Nat) (s : State) : exec (.billetAlloc bench ring) s = execBilletAlloc bench ring s := rfl
@[simp] theorem exec_billetFree (bench ring : Nat) (s : State) : exec (.billetFree bench ring) s = execBilletFree bench ring s := rfl
@[simp] theorem exec_sealOpen (bench ring : Nat) (block : LoadResult) (s : State) : exec (.sealOpen bench ring block) s = execSealOpen bench ring block s := rfl
@[simp] theorem exec_sealClose (bench ring : Nat) (s : State) : exec (.sealClose bench ring) s = execSealClose bench ring s := rfl
@[simp] theorem exec_channelTakeup (clusterB : Bool) (s : State) : exec (.channelTakeup clusterB) s = execChannelTakeup clusterB s := rfl
@[simp] theorem exec_burstGrant (lathe : Nat) (s : State) : exec (.burstGrant lathe) s = execBurstGrant lathe s := rfl
@[simp] theorem exec_egressGrant (port : Nat) (s : State) : exec (.egressGrant port) s = execEgressGrant port s := rfl
@[simp] theorem exec_reservationStart (bench ring : Nat) (s : State) : exec (.reservationStart bench ring) s = execReservationStart bench ring s := rfl
@[simp] theorem exec_readDataReturn (lathe slot : Nat) (status : MemStatus) (data : List Byte) (s : State) : exec (.readDataReturn lathe slot status data) s = execReadDataReturn lathe slot status data s := rfl
@[simp] theorem exec_writeAck (lathe slot : Nat) (status : MemStatus) (s : State) : exec (.writeAck lathe slot status) s = execWriteAck lathe slot status s := rfl
@[simp] theorem exec_triggerFire (bench ring : Nat) (s : State) : exec (.triggerFire bench ring) s = execTriggerFire bench ring s := rfl
@[simp] theorem exec_paceTimerExpiry (clusterB : Bool) (timer : Nat) (s : State) : exec (.paceTimerExpiry clusterB timer) s = execPaceTimerExpiry clusterB timer s := rfl
@[simp] theorem exec_pacingYield (bench ring : Nat) (s : State) : exec (.pacingYield bench ring) s = execPacingYield bench ring s := rfl
@[simp] theorem exec_eventClaim (bench line : Nat) (s : State) : exec (.eventClaim bench line) s = execEventClaim bench line s := rfl
@[simp] theorem exec_eventRelease (bench line : Nat) (s : State) : exec (.eventRelease bench line) s = execEventRelease bench line s := rfl
@[simp] theorem exec_paceClaim (bench slot timer : Nat) (clusterB : Bool) (s : State) : exec (.paceClaim bench slot timer clusterB) s = execPaceClaim bench slot timer clusterB s := rfl
@[simp] theorem exec_paceRelease (bench slot : Nat) (s : State) : exec (.paceRelease bench slot) s = execPaceRelease bench slot s := rfl
@[simp] theorem exec_paceArm (bench slot : Nat) (s : State) : exec (.paceArm bench slot) s = execPaceArm bench slot s := rfl
@[simp] theorem exec_paceDisarm (bench slot : Nat) (s : State) : exec (.paceDisarm bench slot) s = execPaceDisarm bench slot s := rfl
@[simp] theorem exec_latheBusError (lathe : Nat) (tag : Option (BitVec 16)) (s : State) : exec (.latheBusError lathe tag) s = execLatheBusError lathe tag s := rfl
@[simp] theorem exec_haltReplayResponse (lathe : Nat) (reproduces : Bool) (s : State) : exec (.haltReplayResponse lathe reproduces) s = execHaltReplayResponse lathe reproduces s := rfl
@[simp] theorem exec_haltReplayTimeout (lathe : Nat) (s : State) : exec (.haltReplayTimeout lathe) s = execHaltReplayTimeout lathe s := rfl
@[simp] theorem exec_haltIsolationDone (lathe : Nat) (s : State) : exec (.haltIsolationDone lathe) s = execHaltIsolationDone lathe s := rfl
@[simp] theorem exec_missSlotGrant (s : State) : exec .missSlotGrant s = execMissSlotGrant s := rfl
@[simp] theorem exec_walkerGrant (s : State) : exec .walkerGrant s = execWalkerGrant s := rfl
@[simp] theorem exec_walkDone (bench page : Nat) (ledgerUe : Option (BitVec 64)) (s : State) : exec (.walkDone bench page ledgerUe) s = execWalkDone bench page ledgerUe s := rfl
@[simp] theorem exec_trackerExpiry (bench stream : Nat) (s : State) : exec (.trackerExpiry bench stream) s = execTrackerExpiry bench stream s := rfl
@[simp] theorem exec_invRingEnable (bench : Nat) (value : BitVec 32) (s : State) : exec (.invRingEnable bench value) s = execInvRingEnable bench value s := rfl
@[simp] theorem exec_invDoorbell (bench : Nat) (tail : BitVec 32) (s : State) : exec (.invDoorbell bench tail) s = execInvDoorbell bench tail s := rfl
@[simp] theorem exec_setEntry (bench : Nat) (entry : List Byte) (s : State) : exec (.setEntry bench entry) s = execSetEntry bench entry s := rfl
@[simp] theorem exec_invalidate (bench : Nat) (entry : List Byte) (s : State) : exec (.invalidate bench entry) s = execInvalidate bench entry s := rfl
@[simp] theorem exec_pinLoad (bench : Nat) (entry : List Byte) (s : State) : exec (.pinLoad bench entry) s = execPinLoad bench entry s := rfl
@[simp] theorem exec_token (bench : Nat) (entry : List Byte) (s : State) : exec (.token bench entry) s = execToken bench entry s := rfl
@[simp] theorem exec_tokenComplete (bench : Nat) (s : State) : exec (.tokenComplete bench) s = execTokenComplete bench s := rfl
@[simp] theorem exec_invResume (bench : Nat) (s : State) : exec (.invResume bench) s = execInvResume bench s := rfl
@[simp] theorem exec_xlateInvReceived (home bench : Nat) (incarn : BitVec 16) (entry : List Byte) (count : BitVec 32) (s : State) : exec (.xlateInvReceived home bench incarn entry count) s = execXlateInvReceived home bench incarn entry count s := rfl
@[simp] theorem exec_xlateInvAck (holder bench : Nat) (count : BitVec 32) (s : State) : exec (.xlateInvAck holder bench count) s = execXlateInvAck holder bench count s := rfl
@[simp] theorem exec_faultCmdRetry (index : Nat) (s : State) : exec (.faultCmdRetry index) s = execFaultCmdRetry index s := rfl
@[simp] theorem exec_faultCmdFatal (index : Nat) (s : State) : exec (.faultCmdFatal index) s = execFaultCmdFatal index s := rfl
@[simp] theorem exec_faultFind (value : BitVec 32) (s : State) : exec (.faultFind value) s = execFaultFind value s := rfl
@[simp] theorem exec_faultRead (s : State) : exec .faultRead s = execFaultRead s := rfl
@[simp] theorem exec_regionQuerySel (value : BitVec 64) (s : State) : exec (.regionQuerySel value) s = execRegionQuerySel value s := rfl
@[simp] theorem exec_regionQuery (s : State) : exec .regionQuery s = execRegionQuery s := rfl
@[simp] theorem exec_countUpdate (s : State) : exec .countUpdate s = execCountUpdate s := rfl
@[simp] theorem exec_countDecay (s : State) : exec .countDecay s = execCountDecay s := rfl
@[simp] theorem exec_decayOverdue (s : State) : exec .decayOverdue s = execDecayOverdue s := rfl
@[simp] theorem exec_migStart (s : State) : exec .migStart s = execMigStart s := rfl
@[simp] theorem exec_migLeafCopyDone (result : FetchResult) (s : State) : exec (.migLeafCopyDone result) s = execMigLeafCopyDone result s := rfl
@[simp] theorem exec_migLeafDone (s : State) : exec .migLeafDone s = execMigLeafDone s := rfl
@[simp] theorem exec_form (s : State) : exec .form s = execForm s := rfl
@[simp] theorem exec_formationDone (s : State) : exec .formationDone s = execFormationDone s := rfl
@[simp] theorem exec_setLimits (s : State) : exec .setLimits s = execSetLimits s := rfl
@[simp] theorem exec_setKeep (s : State) : exec .setKeep s = execSetKeep s := rfl
@[simp] theorem exec_hold (s : State) : exec .hold s = execHold s := rfl
@[simp] theorem exec_resume (s : State) : exec .resume s = execResume s := rfl
@[simp] theorem exec_sweep (s : State) : exec .sweep s = execSweep s := rfl
@[simp] theorem exec_grantDieMem (s : State) : exec .grantDieMem s = execGrantDieMem s := rfl
@[simp] theorem exec_returnDieMem (s : State) : exec .returnDieMem s = execReturnDieMem s := rfl
@[simp] theorem exec_dieMemZeroFillDone (die offset length : Nat) (s : State) : exec (.dieMemZeroFillDone die offset length) s = execDieMemZeroFillDone die offset length s := rfl
@[simp] theorem exec_reattachDeadlineExpiry (bench : Nat) (s : State) : exec (.reattachDeadlineExpiry bench) s = execReattachDeadlineExpiry bench s := rfl
@[simp] theorem exec_noticeWrite (bench : Nat) (s : State) : exec (.noticeWrite bench) s = execNoticeWrite bench s := rfl
@[simp] theorem exec_noticeHeadWrite (bench : Nat) (value : BitVec 32) (s : State) : exec (.noticeHeadWrite bench value) s = execNoticeHeadWrite bench value s := rfl
@[simp] theorem exec_noticeEnable (bench : Nat) (s : State) : exec (.noticeEnable bench) s = execNoticeEnable bench s := rfl
@[simp] theorem exec_noticeDisable (bench : Nat) (s : State) : exec (.noticeDisable bench) s = execNoticeDisable bench s := rfl
@[simp] theorem exec_holdLong (bench placement : Nat) (s : State) : exec (.holdLong bench placement) s = execHoldLong bench placement s := rfl
@[simp] theorem exec_attachTokenWrite (bench part : Nat) (value : BitVec 64) (s : State) : exec (.attachTokenWrite bench part value) s = execAttachTokenWrite bench part value s := rfl
@[simp] theorem exec_attachResume (bench : Nat) (epoch : BitVec 32) (s : State) : exec (.attachResume bench epoch) s = execAttachResume bench epoch s := rfl
@[simp] theorem exec_attachClose (bench : Nat) (epoch : BitVec 32) (s : State) : exec (.attachClose bench epoch) s = execAttachClose bench epoch s := rfl
@[simp] theorem exec_attachFresh (bench : Nat) (epoch : BitVec 32) (s : State) : exec (.attachFresh bench epoch) s = execAttachFresh bench epoch s := rfl
@[simp] theorem exec_peerWindowOpen (bench : Nat) (s : State) : exec (.peerWindowOpen bench) s = execPeerWindowOpen bench s := rfl
@[simp] theorem exec_peerWindowClose (bench : Nat) (s : State) : exec (.peerWindowClose bench) s = execPeerWindowClose bench s := rfl
@[simp] theorem exec_peerWriteApply (bench : Nat) (s : State) : exec (.peerWriteApply bench) s = execPeerWriteApply bench s := rfl
@[simp] theorem exec_peerDroppedInterval (bench cause : Nat) (s : State) : exec (.peerDroppedInterval bench cause) s = execPeerDroppedInterval bench cause s := rfl
@[simp] theorem exec_diePwrgoodRise (die : Nat) (s : State) : exec (.diePwrgoodRise die) s = execDiePwrgoodRise die s := rfl
@[simp] theorem exec_diePwrgoodFall (die : Nat) (s : State) : exec (.diePwrgoodFall die) s = execDiePwrgoodFall die s := rfl
@[simp] theorem exec_dieFatal (die : Nat) (s : State) : exec (.dieFatal die) s = execDieFatal die s := rfl
@[simp] theorem exec_spAttemptStart (die : Nat) (s : State) : exec (.spAttemptStart die) s = execSpAttemptStart die s := rfl
@[simp] theorem exec_spLanesAligned (die : Nat) (half : Bool) (s : State) : exec (.spLanesAligned die half) s = execSpLanesAligned die half s := rfl
@[simp] theorem exec_spParametersExchanged (die : Nat) (accepted : Bool) (memGiB : Nat) (defects : List Nat) (s : State) : exec (.spParametersExchanged die accepted memGiB defects) s = execSpParametersExchanged die accepted memGiB defects s := rfl
@[simp] theorem exec_spCreditsExchanged (die : Nat) (s : State) : exec (.spCreditsExchanged die) s = execSpCreditsExchanged die s := rfl
@[simp] theorem exec_spZeroFillDone (die : Nat) (s : State) : exec (.spZeroFillDone die) s = execSpZeroFillDone die s := rfl
@[simp] theorem exec_spStepTimeout (die : Nat) (found : LaneFault) (s : State) : exec (.spStepTimeout die found) s = execSpStepTimeout die found s := rfl
@[simp] theorem exec_spBackoffExpiry (die : Nat) (s : State) : exec (.spBackoffExpiry die) s = execSpBackoffExpiry die s := rfl
@[simp] theorem exec_spAbsentRetry (die : Nat) (s : State) : exec (.spAbsentRetry die) s = execSpAbsentRetry die s := rfl
@[simp] theorem exec_xltRequest (die core id bench : Nat) (target : XltTarget) (write : Bool) (length : Nat) (data : List (Byte × Bool)) (s : State) : exec (.xltRequest die core id bench target write length data) s = execXltRequest die core id bench target write length data s := rfl
@[simp] theorem exec_coreEventWrite (die core line op : Nat) (s : State) : exec (.coreEventWrite die core line op) s = execCoreEventWrite die core line op s := rfl
@[simp] theorem exec_coreFatalError (die core : Nat) (address : BitVec 64) (s : State) : exec (.coreFatalError die core address) s = execCoreFatalError die core address s := rfl
@[simp] theorem exec_dieUeReport (die : Nat) (spa : BitVec 64) (s : State) : exec (.dieUeReport die spa) s = execDieUeReport die spa s := rfl
@[simp] theorem exec_flitCrcError (link : LinkName) (same : Bool) (s : State) : exec (.flitCrcError link same) s = execFlitCrcError link same s := rfl
@[simp] theorem exec_flitAckTimeout (die : Nat) (s : State) : exec (.flitAckTimeout die) s = execFlitAckTimeout die s := rfl
@[simp] theorem exec_spRecoveryDone (die : Nat) (ok : Bool) (s : State) : exec (.spRecoveryDone die ok) s = execSpRecoveryDone die ok s := rfl
@[simp] theorem exec_spRequestTimeout (die : Nat) (s : State) : exec (.spRequestTimeout die) s = execSpRequestTimeout die s := rfl
@[simp] theorem exec_laneRecal (link : LinkName) (lane : Nat) (usable : Bool) (s : State) : exec (.laneRecal link lane usable) s = execLaneRecal link lane usable s := rfl
@[simp] theorem exec_recalForce (link : LinkName) (lane : Nat) (hold usable : Bool) (s : State) : exec (.recalForce link lane hold usable) s = execRecalForce link lane hold usable s := rfl
@[simp] theorem exec_launchStageDone (bench ring : Nat) (result : LoadResult) (s : State) : exec (.launchStageDone bench ring result) s = execLaunchStageDone bench ring result s := rfl
@[simp] theorem exec_launchPlaceStart (bench ring : Nat) (free : List (Nat × Nat)) (s : State) : exec (.launchPlaceStart bench ring free) s = execLaunchPlaceStart bench ring free s := rfl
@[simp] theorem exec_placementDone (bench ring : Nat) (bands : List (Nat × Nat × Nat × Nat × Nat)) (failure : Option (Nat × Nat × Nat)) (s : State) : exec (.placementDone bench ring bands failure) s = execPlacementDone bench ring bands failure s := rfl
@[simp] theorem exec_launchLoadDone (bench ring : Nat) (s : State) : exec (.launchLoadDone bench ring) s = execLaunchLoadDone bench ring s := rfl
@[simp] theorem exec_launchStartTime (bench ring : Nat) (s : State) : exec (.launchStartTime bench ring) s = execLaunchStartTime bench ring s := rfl
@[simp] theorem exec_placeRelease (bench number : Nat) (s : State) : exec (.placeRelease bench number) s = execPlaceRelease bench number s := rfl
@[simp] theorem exec_placeReleaseDone (home bench number : Nat) (s : State) : exec (.placeReleaseDone home bench number) s = execPlaceReleaseDone home bench number s := rfl
@[simp] theorem exec_lateSet (die core : Nat) (s : State) : exec (.lateSet die core) s = execLateSet die core s := rfl
@[simp] theorem exec_lateClear (die core : Nat) (s : State) : exec (.lateClear die core) s = execLateClear die core s := rfl
@[simp] theorem exec_holdForward (home bench number : Nat) (incarn : BitVec 16) (s : State) : exec (.holdForward home bench number incarn) s = execHoldForward home bench number incarn s := rfl
@[simp] theorem exec_lateReport (hub bench number die core : Nat) (set : Bool) (incarn : BitVec 16) (s : State) : exec (.lateReport hub bench number die core set incarn) s = execLateReport hub bench number die core set incarn s := rfl
@[simp] theorem exec_releaseMessage (home bench number : Nat) (incarn : BitVec 16) (time : BitVec 64) (s : State) : exec (.releaseMessage home bench number incarn time) s = execReleaseMessage home bench number incarn time s := rfl
@[simp] theorem exec_releaseTime (home bench number : Nat) (s : State) : exec (.releaseTime home bench number) s = execReleaseTime home bench number s := rfl
@[simp] theorem exec_annealAdmit (bench ring : Nat) (refused : List Nat) (s : State) : exec (.annealAdmit bench ring refused) s = execAnnealAdmit bench ring refused s := rfl
@[simp] theorem exec_annealLoadDone (bench ring : Nat) (result : LoadResult) (s : State) : exec (.annealLoadDone bench ring result) s = execAnnealLoadDone bench ring result s := rfl
@[simp] theorem exec_burlMove (lattice : Bool) (s : State) : exec (.burlMove lattice) s = execBurlMove lattice s := rfl
@[simp] theorem exec_burlSliceEnd (lattice : Bool) (s : State) : exec (.burlSliceEnd lattice) s = execBurlSliceEnd lattice s := rfl
@[simp] theorem exec_burlCheckpointDone (lattice : Bool) (s : State) : exec (.burlCheckpointDone lattice) s = execBurlCheckpointDone lattice s := rfl
@[simp] theorem exec_burlHaloReceived (home bench ring : Nat) (incarn : BitVec 16) (strip source sweep : Nat) (first last : List Bool) (energy : Int) (s : State) : exec (.burlHaloReceived home bench ring incarn strip source sweep first last energy) s = execBurlHaloReceived home bench ring incarn strip source sweep first last energy s := rfl
@[simp] theorem exec_annealWriteDone (bench ring : Nat) (s : State) : exec (.annealWriteDone bench ring) s = execAnnealWriteDone bench ring s := rfl
@[simp] theorem exec_elTrainingDone (link : Nat) (result : ElResult) (s : State) : exec (.elTrainingDone link result) s = execElTrainingDone link result s := rfl
@[simp] theorem exec_elBackoffExpiry (link : Nat) (s : State) : exec (.elBackoffExpiry link) s = execElBackoffExpiry link s := rfl
@[simp] theorem exec_elFlitSilence (link : Nat) (s : State) : exec (.elFlitSilence link) s = execElFlitSilence link s := rfl
@[simp] theorem exec_presenceSend (s : State) : exec .presenceSend s = execPresenceSend s := rfl
@[simp] theorem exec_presenceReceived (hub : Nat) (inst : BitVec 64) (eligible : Bool) (epoch : BitVec 64) (refusal : BitVec 3) (s : State) : exec (.presenceReceived hub inst eligible epoch refusal) s = execPresenceReceived hub inst eligible epoch refusal s := rfl
@[simp] theorem exec_hubSilent (hub : Nat) (s : State) : exec (.hubSilent hub) s = execHubSilent hub s := rfl
@[simp] theorem exec_masterClaim (s : State) : exec .masterClaim s = execMasterClaim s := rfl
@[simp] theorem exec_charterSend (cables : List (Nat × Nat × Nat)) (s : State) : exec (.charterSend cables) s = execCharterSend cables s := rfl
@[simp] theorem exec_charterReceived (charter : Charter) (s : State) : exec (.charterReceived charter) s = execCharterReceived charter s := rfl
@[simp] theorem exec_timeStatementSend (s : State) : exec .timeStatementSend s = execTimeStatementSend s := rfl
@[simp] theorem exec_timeStatementReceived (statedNs delayNs : Nat) (s : State) : exec (.timeStatementReceived statedNs delayNs) s = execTimeStatementReceived statedNs delayNs s := rfl
@[simp] theorem exec_hearthTimeReport (_hub : Nat) (time : BitVec 64) (s : State) : exec (.hearthTimeReport _hub time) s = execHearthTimeReport _hub time s := rfl
@[simp] theorem exec_delayProbe (link delayNs : Nat) (s : State) : exec (.delayProbe link delayNs) s = execDelayProbe link delayNs s := rfl
@[simp] theorem exec_rosterReport (hub : Nat) (homes : List (Nat × BitVec 16)) (guests : List (Nat × Nat × BitVec 16)) (s : State) : exec (.rosterReport hub homes guests) s = execRosterReport hub homes guests s := rfl
@[simp] theorem exec_rosterUpdate (seq : BitVec 64) (entries : List RosterEntry) (s : State) : exec (.rosterUpdate seq entries) s = execRosterUpdate seq entries s := rfl
@[simp] theorem exec_benchRegistration (home bench : Nat) (incarn : BitVec 16) (classId : Nat) (rateCap : BitVec 32) (s : State) : exec (.benchRegistration home bench incarn classId rateCap) s = execBenchRegistration home bench incarn classId rateCap s := rfl
@[simp] theorem exec_remoteGrant (home bench : Nat) (incarn : BitVec 16) (classId : Nat) (rateCap : BitVec 32) (giveBack : Bool) (die offset length room : Nat) (s : State) : exec (.remoteGrant home bench incarn classId rateCap giveBack die offset length room) s = execRemoteGrant home bench incarn classId rateCap giveBack die offset length room s := rfl
@[simp] theorem exec_remoteSweep (home bench : Nat) (incarn : BitVec 16) (release : Bool) (s : State) : exec (.remoteSweep home bench incarn release) s = execRemoteSweep home bench incarn release s := rfl
@[simp] theorem exec_sweepSettleTimeout (bench : Nat) (s : State) : exec (.sweepSettleTimeout bench) s = execSweepSettleTimeout bench s := rfl
@[simp] theorem exec_sweepCut (bench : Nat) (s : State) : exec (.sweepCut bench) s = execSweepCut bench s := rfl
@[simp] theorem exec_sweepDrainDone (bench : Nat) (s : State) : exec (.sweepDrainDone bench) s = execSweepDrainDone bench s := rfl
@[simp] theorem exec_sweepLocksTaken (bench : Nat) (s : State) : exec (.sweepLocksTaken bench) s = execSweepLocksTaken bench s := rfl
@[simp] theorem exec_sweepReclaimDone (bench : Nat) (s : State) : exec (.sweepReclaimDone bench) s = execSweepReclaimDone bench s := rfl
@[simp] theorem exec_lockExpiry (lock : Nat) (s : State) : exec (.lockExpiry lock) s = execLockExpiry lock s := rfl
@[simp] theorem exec_whittlerWatchdog (whittler : Nat) (s : State) : exec (.whittlerWatchdog whittler) s = execWhittlerWatchdog whittler s := rfl
@[simp] theorem exec_tallyQuery (s : State) : exec .tallyQuery s = execTallyQuery s := rfl
@[simp] theorem exec_errlogEntryRead (mirror : Bool) (slot : Nat) (s : State) : exec (.errlogEntryRead mirror slot) s = execErrlogEntryRead mirror slot s := rfl
@[simp] theorem exec_scrubBlock (find : ScrubFind) (s : State) : exec (.scrubBlock find) s = execScrubBlock find s := rfl
@[simp] theorem exec_scrubPassStart (s : State) : exec .scrubPassStart s = execScrubPassStart s := rfl
@[simp] theorem exec_scrubFloorDeadline (s : State) : exec .scrubFloorDeadline s = execScrubFloorDeadline s := rfl
@[simp] theorem exec_dieScrubRequest (die : Nat) (s : State) : exec (.dieScrubRequest die) s = execDieScrubRequest die s := rfl
@[simp] theorem exec_dieScrubAck (die : Nat) (s : State) : exec (.dieScrubAck die) s = execDieScrubAck die s := rfl
@[simp] theorem exec_telemetrySnapshot (s : State) : exec .telemetrySnapshot s = execTelemetrySnapshot s := rfl
@[simp] theorem exec_selftestStart (part : TestUnit) (s : State) : exec (.selftestStart part) s = execSelftestStart part s := rfl
@[simp] theorem exec_selftestDone (part : TestUnit) (ok : Bool) (s : State) : exec (.selftestDone part ok) s = execSelftestDone part ok s := rfl
@[simp] theorem exec_sealCheckDone (stream : Nat) (s : State) : exec (.sealCheckDone stream) s = execSealCheckDone stream s := rfl
@[simp] theorem exec_frameEvent (stream : Nat) (s : State) : exec (.frameEvent stream) s = execFrameEvent stream s := rfl
@[simp] theorem exec_jtagDapAccess (s : State) : exec .jtagDapAccess s = execJtagDapAccess s := rfl
@[simp] theorem exec_jtagExtest (s : State) : exec .jtagExtest s = execJtagExtest s := rfl
@[simp] theorem exec_jtagClamp (s : State) : exec .jtagClamp s = execJtagClamp s := rfl
@[simp] theorem exec_jtagHighz (s : State) : exec .jtagHighz s = execJtagHighz s := rfl
@[simp] theorem exec_jtagTestLogicReset (s : State) : exec .jtagTestLogicReset s = execJtagTestLogicReset s := rfl
@[simp] theorem exec_jtagIdcode (s : State) : exec .jtagIdcode s = execJtagIdcode s := rfl
@[simp] theorem exec_jtagBypass (s : State) : exec .jtagBypass s = execJtagBypass s := rfl
@[simp] theorem exec_jtagSamplePreload (s : State) : exec .jtagSamplePreload s = execJtagSamplePreload s := rfl
@[simp] theorem exec_dapMemoryRead (space : BitVec 2) (addr : BitVec 64) (s : State) : exec (.dapMemoryRead space addr) s = execDapMemoryRead space addr s := rfl
@[simp] theorem exec_dapMemoryData (data : Option (List Byte)) (s : State) : exec (.dapMemoryData data) s = execDapMemoryData data s := rfl
@[simp] theorem exec_dapRegisterRead (quiet : Bool) (addr : Nat) (s : State) : exec (.dapRegisterRead quiet addr) s = execDapRegisterRead quiet addr s := rfl
@[simp] theorem exec_dapRegisterWrite (addr : Nat) (value : BitVec 32) (s : State) : exec (.dapRegisterWrite addr value) s = execDapRegisterWrite addr value s := rfl
@[simp] theorem exec_whittlerHalt (whittler : Nat) (locks : List LockHeld) (s : State) : exec (.whittlerHalt whittler locks) s = execWhittlerHalt whittler locks s := rfl
@[simp] theorem exec_whittlerStep (whittler : Nat) (s : State) : exec (.whittlerStep whittler) s = execWhittlerStep whittler s := rfl
@[simp] theorem exec_whittlerResume (whittler : Nat) (s : State) : exec (.whittlerResume whittler) s = execWhittlerResume whittler s := rfl
@[simp] theorem exec_whittlerHonour (whittler : Nat) (honour : Bool) (s : State) : exec (.whittlerHonour whittler honour) s = execWhittlerHonour whittler honour s := rfl
@[simp] theorem exec_debugCtrlWrite (value : BitVec 32) (s : State) : exec (.debugCtrlWrite value) s = execDebugCtrlWrite value s := rfl
@[simp] theorem exec_flashRead (slotB : Bool) (length : Nat) (s : State) : exec (.flashRead slotB length) s = execFlashRead slotB length s := rfl
@[simp] theorem exec_flashProgram (slotB : Bool) (length : Nat) (s : State) : exec (.flashProgram slotB length) s = execFlashProgram slotB length s := rfl
@[simp] theorem exec_flashErase4k (slotB : Bool) (s : State) : exec (.flashErase4k slotB) s = execFlashErase4k slotB s := rfl
@[simp] theorem exec_flashCmdDone (data : List Byte) (s : State) : exec (.flashCmdDone data) s = execFlashCmdDone data s := rfl
@[simp] theorem exec_flashCmdTimeout (s : State) : exec .flashCmdTimeout s = execFlashCmdTimeout s := rfl
@[simp] theorem exec_smbusPointer (offset : BitVec 24) (pecOk : Bool) (s : State) : exec (.smbusPointer offset pecOk) s = execSmbusPointer offset pecOk s := rfl
@[simp] theorem exec_smbusRead (pecOk : Bool) (s : State) : exec (.smbusRead pecOk) s = execSmbusRead pecOk s := rfl
@[simp] theorem exec_smbusRestart (value : BitVec 16) (pecOk : Bool) (s : State) : exec (.smbusRestart value pecOk) s = execSmbusRestart value pecOk s := rfl
@[simp] theorem exec_charterSnapshot (offset : BitVec 32) (s : State) : exec (.charterSnapshot offset) s = execCharterSnapshot offset s := rfl
@[simp] theorem exec_registerWrite (access : RegAccess) (s : State) : exec (.registerWrite access) s = execRegisterWrite access s := rfl
@[simp] theorem exec_aspmL1Change (port : Nat) (state : AspmState) (s : State) : exec (.aspmL1Change port state) s = execAspmL1Change port state s := rfl
@[simp] theorem exec_attachRefused (bench mode : Nat) (epoch : BitVec 32) (s : State) : exec (.attachRefused bench mode epoch) s = execAttachRefused bench mode epoch s := rfl
@[simp] theorem exec_registerRead (access : RegAccess) (hid : Nat) (s : State) : exec (.registerRead access hid) s = execRegisterRead access hid s := rfl
@[simp] theorem exec_envanDataRequest (sender home bench : Nat) (incarn : BitVec 16) (id : Nat) (request : DataRequest) (s : State) : exec (.envanDataRequest sender home bench incarn id request) s = execEnvanDataRequest sender home bench incarn id request s := rfl
@[simp] theorem exec_dieReadResponse (die id : Nat) (status : MemStatus) (data : List Byte) (s : State) : exec (.dieReadResponse die id status data) s = execDieReadResponse die id status data s := rfl
@[simp] theorem exec_remoteBandPlacement (home bench : Nat) (incarn : BitVec 16) (classId : Nat) (rateCap : BitVec 32) (number row rows cols flags queues seed budget : Nat) (ranges : List (Nat × Nat × Bool)) (s : State) : exec (.remoteBandPlacement home bench incarn classId rateCap number row rows cols flags queues seed budget ranges) s = execRemoteBandPlacement home bench incarn classId rateCap number row rows cols flags queues seed budget ranges s := rfl
@[simp] theorem exec_stripAdmit (home bench ring : Nat) (incarn : BitVec 16) (classId : Nat) (rateCap : BitVec 32) (strip : Nat) (job : JobSpec) (coef : List Byte) (init : List Bool) (s : State) : exec (.stripAdmit home bench ring incarn classId rateCap strip job coef init) s = execStripAdmit home bench ring incarn classId rateCap strip job coef init s := rfl
@[simp] theorem exec_stripStateReturn (bench ring : Nat) (incarn : BitVec 16) (strip : Nat) (best final : List Bool) (s : State) : exec (.stripStateReturn bench ring incarn strip best final) s = execStripStateReturn bench ring incarn strip best final s := rfl
@[simp] theorem exec_remoteGrantResult (result : BitVec 8) (s : State) : exec (.remoteGrantResult result) s = execRemoteGrantResult result s := rfl
@[simp] theorem exec_selftestOverdue (part : TestUnit) (s : State) : exec (.selftestOverdue part) s = execSelftestOverdue part s := rfl

end Sys2Proof.Machine
end

