-- ==== Sys2Proof/Laws/Table.lean ====
section
/-!
SUPPORT. Laws of the sparse tables and of addressed memory: an entry read after a write, the canonical form kept by every operation.
-/

namespace Sys2Proof.Machine

@[simp] theorem tabGet_nil {α : Type} (d : α) (k : Nat) : tabGet ([] : Tab α) d k = d := rfl

theorem tabGet_cons {α : Type} (e : Nat × α) (t : Tab α) (d : α) (k : Nat) :
    tabGet (e :: t) d k = if e.1 = k then e.2 else tabGet t d k := rfl

/-- An entry reads back as it was set. -/
@[simp] theorem tabGet_tabSet_same {α : Type} (t : Tab α) (d v : α) (k : Nat) : tabGet (tabSet k v t) d k = v := by
  induction t with
  | nil => simp [tabSet, tabGet_cons]
  | cons e r ih =>
    unfold tabSet
    split
    · simp [tabGet_cons]
    · split
      · simp [tabGet_cons]
      · rename_i h
        rw [tabGet_cons, if_neg h, ih]

/-- Setting one entry leaves every other as it was. -/
theorem tabGet_tabSet_ne {α : Type} (t : Tab α) (d v : α) {j k : Nat} (h : j ≠ k) : tabGet (tabSet k v t) d j = tabGet t d j := by
  induction t with
  | nil => simp [tabSet, tabGet_cons, h.symm]
  | cons e r ih =>
    unfold tabSet
    split
    · simp [tabGet_cons, h.symm]
    · split
      · rename_i g
        rw [tabGet_cons, tabGet_cons, if_neg h.symm, if_neg (fun x => h (x.symm.trans g))]
      · rw [tabGet_cons, tabGet_cons, ih]

@[simp] theorem tabGet_tabMod_same {α : Type} (t : Tab α) (d : α) (f : α → α) (k : Nat) :
    tabGet (tabMod d k f t) d k = f (tabGet t d k) := tabGet_tabSet_same ..

theorem tabGet_tabMod_ne {α : Type} (t : Tab α) (d : α) (f : α → α) {j k : Nat} (h : j ≠ k) :
    tabGet (tabMod d k f t) d j = tabGet t d j := tabGet_tabSet_ne t d _ h

/-! ### Keys strictly rise -/

/-- Every key of the table is above `n`. -/
def tabAbove {α : Type} (n : Nat) (t : Tab α) : Prop := ∀ e ∈ t, n < e.1

theorem tabSorted_cons {α : Type} (e : Nat × α) (t : Tab α) : tabSorted (e :: t) = true ↔ tabAbove e.1 t ∧ tabSorted t = true := by
  induction t generalizing e with
  | nil => simp [tabSorted, tabAbove]
  | cons a r ih =>
    simp only [tabSorted, Bool.and_eq_true, decide_eq_true_eq]
    constructor
    · rintro ⟨h, k⟩
      refine ⟨?_, k⟩
      intro x m
      rcases List.mem_cons.mp m with rfl | m
      · exact h
      · exact h.trans (((ih a).mp k).1 x m)
    · rintro ⟨h, k⟩
      exact ⟨h a (List.mem_cons_self ..), k⟩

theorem tabAbove_tabSet {α : Type} {n k : Nat} {v : α} {t : Tab α} (h : tabAbove n t) (g : n < k) : tabAbove n (tabSet k v t) := by
  induction t with
  | nil => intro x m; simp [tabSet] at m; subst m; exact g
  | cons e r ih =>
    have hr : tabAbove n r := fun x m => h x (List.mem_cons_of_mem _ m)
    unfold tabSet
    split
    · intro x m
      rcases List.mem_cons.mp m with rfl | m
      · exact g
      · exact h x m
    · split
      · intro x m
        rcases List.mem_cons.mp m with rfl | m
        · exact g
        · exact hr x m
      · intro x m
        rcases List.mem_cons.mp m with rfl | m
        · exact h _ (List.mem_cons_self ..)
        · exact ih hr x m

/-- Setting an entry keeps the keys in rising order. -/
theorem tabSorted_tabSet {α : Type} (k : Nat) (v : α) {t : Tab α} (h : tabSorted t = true) : tabSorted (tabSet k v t) = true := by
  induction t with
  | nil => rfl
  | cons e r ih =>
    obtain ⟨a, s⟩ := (tabSorted_cons e r).mp h
    unfold tabSet
    split
    · rename_i g
      refine (tabSorted_cons _ _).mpr ⟨?_, h⟩
      intro x m
      rcases List.mem_cons.mp m with rfl | m
      · exact g
      · exact g.trans (a x m)
    · split
      · rename_i g
        exact (tabSorted_cons _ _).mpr ⟨fun x m => g ▸ a x m, s⟩
      · rename_i g f
        exact (tabSorted_cons _ _).mpr ⟨tabAbove_tabSet a (by omega), ih s⟩

/-- Leaving entries out keeps the keys in rising order. -/
theorem tabSorted_filter {α : Type} (p : Nat × α → Bool) {t : Tab α} (h : tabSorted t = true) : tabSorted (t.filter p) = true := by
  induction t with
  | nil => rfl
  | cons e r ih =>
    obtain ⟨a, s⟩ := (tabSorted_cons e r).mp h
    rw [List.filter_cons]
    split
    · exact (tabSorted_cons _ _).mpr ⟨fun x m => a x (List.mem_of_mem_filter m), ih s⟩
    · exact ih s

theorem mem_tabSet {α : Type} {k : Nat} {v : α} {t : Tab α} {x : Nat × α} (m : x ∈ tabSet k v t) : x = (k, v) ∨ x ∈ t := by
  induction t with
  | nil => simp [tabSet] at m; exact .inl m
  | cons e r ih =>
    unfold tabSet at m
    split at m
    · exact List.mem_cons.mp m
    · split at m
      · rcases List.mem_cons.mp m with g | g
        · exact .inl g
        · exact .inr (List.mem_cons_of_mem _ g)
      · rcases List.mem_cons.mp m with g | g
        · exact .inr (g ▸ List.mem_cons_self ..)
        · exact (ih g).imp id (List.mem_cons_of_mem _)

/-! ### Memory -/

theorem memory_wf_iff (m : Memory) : m.wf = true ↔ tabSorted m = true ∧ ∀ c ∈ m, c.2 ≠ 0 := by
  unfold Memory.wf
  rw [Bool.and_eq_true, List.all_eq_true]
  refine and_congr_right fun _ => forall_congr' fun c => ?_
  simp

/-- Writing one byte keeps the canonical form. -/
theorem memWrite_wf (a : Nat) (b : Byte) {m : Memory} (h : m.wf = true) : (memWrite m a b).wf = true := by
  obtain ⟨s, z⟩ := (memory_wf_iff m).mp h
  unfold memWrite tabPut
  split
  · exact (memory_wf_iff _).mpr ⟨tabSorted_filter _ s, fun c k => z c (List.mem_of_mem_filter k)⟩
  · rename_i g
    refine (memory_wf_iff _).mpr ⟨tabSorted_tabSet _ _ s, fun c k => ?_⟩
    rcases mem_tabSet k with rfl | k
    · exact g
    · exact z c k

/-- Writing a run of bytes keeps the canonical form. -/
theorem memWrites_wf (l : List Byte) : ∀ (a : Nat) {m : Memory}, m.wf = true → (memWrites m a l).wf = true := by
  induction l with
  | nil => intro a m h; exact h
  | cons b r ih => intro a m h; exact ih (a + 1) (memWrite_wf a b h)

/-- Making a range 0 keeps the canonical form. -/
theorem memZero_wf (a n : Nat) {m : Memory} (h : m.wf = true) : (memZero m a n).wf = true := by
  obtain ⟨s, z⟩ := (memory_wf_iff m).mp h
  exact (memory_wf_iff _).mpr ⟨tabSorted_filter _ s, fun c k => z c (List.mem_of_mem_filter k)⟩

theorem tabGet_tabDel_same {α : Type} (t : Tab α) (d : α) (k : Nat) : tabGet (tabDel k t) d k = d := by
  unfold tabDel
  induction t with
  | nil => rfl
  | cons e r ih =>
    rw [List.filter_cons]
    split
    · rename_i h
      rw [tabGet_cons, if_neg (by simpa using h), ih]
    · exact ih

theorem tabGet_tabDel_ne {α : Type} (t : Tab α) (d : α) {j k : Nat} (h : j ≠ k) : tabGet (tabDel k t) d j = tabGet t d j := by
  unfold tabDel
  induction t with
  | nil => rfl
  | cons e r ih =>
    rw [List.filter_cons]
    split
    · rw [tabGet_cons, tabGet_cons, ih]
    · rename_i g
      have g : e.1 = k := by simpa using g
      rw [tabGet_cons, if_neg (fun x => h (x.symm.trans g)), ih]

/-- A byte reads back as it was written. -/
@[simp] theorem memRead_memWrite_same (m : Memory) (a : Nat) (b : Byte) : memRead (memWrite m a b) a = b := by
  unfold memRead memWrite tabPut
  split
  · rename_i h; rw [tabGet_tabDel_same, h]
  · exact tabGet_tabSet_same ..

/-- A write leaves every other byte as it was. -/
theorem memRead_memWrite_ne (m : Memory) (b : Byte) {a c : Nat} (h : c ≠ a) : memRead (memWrite m a b) c = memRead m c := by
  unfold memRead memWrite tabPut
  split
  · exact tabGet_tabDel_ne m 0 h
  · exact tabGet_tabSet_ne m 0 b h

/-- A run of bytes written leaves every address outside it as it was. -/
theorem memRead_memWrites_outside (l : List Byte) :
    ∀ (m : Memory) (a c : Nat), (c < a ∨ a + l.length ≤ c) → memRead (memWrites m a l) c = memRead m c := by
  induction l with
  | nil => intro m a c _; rfl
  | cons b r ih =>
    intro m a c h
    rw [List.length_cons] at h
    show memRead (memWrites (memWrite m a b) (a + 1) r) c = _
    rw [ih _ _ _ (by omega), memRead_memWrite_ne _ _ (by omega)]

end Sys2Proof.Machine
end

