-- ==== Sys2Proof/Laws/Kept.lean ====
section
/-!
SUPPORT. What an operation keeps, said once for each. `Kept m s t`: every component of the state whose bit is not in the mask `m` is in `t` as in `s`, and nothing that lasts has changed. Bit n of a mask is the n-th component of `Part` (chip is bit 0). The files of Laws/Kept/ hold one lemma per operation and per command, in the order of the model's files.
-/

namespace Sys2Proof.Machine

/-- The bit of a component in a mask. -/
def Part.bit (p : Part) : Nat :=
  match p with
  | .chip => 0
  | .hearth => 1
  | .ports => 2
  | .fns => 3
  | .mailbox => 4
  | .benches => 5
  | .zeroFill => 6
  | .forming => 7
  | .formingFlr => 8
  | .lathes => 9
  | .events => 10
  | .paceTimers => 11
  | .charges => 12
  | .headstock => 13
  | .mig => 14
  | .spindles => 15
  | .bar2Reads => 16
  | .remotes => 17
  | .placements => 18
  | .launches => 19
  | .jobs => 20
  | .dense => 21
  | .lattice => 22
  | .envans => 23
  | .cascade => 24
  | .recovery => 25
  | .bg => 26
  | .streams => 27
  | .dbg => 28
  | .perf => 29
  | .billetMem => 30
  | .draws => 31
  | .out => 32
  | .straps => 33
  | .bar2Writes => 34
  | .bar2Queue => 35

/-- From `s` to `t` nothing has changed but the components in the mask. -/
structure Kept (m : Nat) (s t : State) : Prop where
  pending : t.pending = s.pending
  grade : t.chip.grade = s.chip.grade
  key : t.chip.keyDigest = s.chip.keyDigest
  level : t.dbg.level = s.dbg.level
  billets : s.billetMem.wf = true → t.billetMem.wf = true
  out : s.out <+: t.out
  draws : s.draws ≤ t.draws
  rest : ∀ p : Part, m.testBit p.bit = false → p.same s t

theorem Part.same_refl (p : Part) (s : State) : p.same s s := by cases p <;> rfl
theorem Part.same_trans (p : Part) (s t u : State) (a : p.same s t) (b : p.same t u) : p.same s u := by
  cases p <;> exact Eq.trans b a

/-- A mask within another has none of its absent bits. -/
theorem mask_le {l m : Nat} (h : Nat.land l m = l) (n : Nat) (k : m.testBit n = false) : l.testBit n = false := by
  have e : (l &&& m).testBit n = l.testBit n := congrArg (Nat.testBit · n) h
  rw [Nat.testBit_and, k, Bool.and_false] at e
  exact e.symm

theorem land_trans {l k m : Nat} (a : Nat.land l k = l) (b : Nat.land k m = k) : Nat.land l m = l := by
  apply Nat.eq_of_testBit_eq
  intro i
  have x : (l &&& k).testBit i = l.testBit i := congrArg (Nat.testBit · i) a
  have y : (k &&& m).testBit i = k.testBit i := congrArg (Nat.testBit · i) b
  show (l &&& m).testBit i = _
  rw [Nat.testBit_and] at x y ⊢
  cases h : l.testBit i <;> cases h' : k.testBit i <;> cases h'' : m.testBit i <;> simp_all

theorem Kept.refl (m : Nat) (s : State) : Kept m s s :=
  ⟨rfl, rfl, rfl, rfl, id, List.prefix_refl _, Nat.le_refl _, fun p _ => p.same_refl s⟩
theorem Kept.trans {m : Nat} {s t u : State} (a : Kept m s t) (b : Kept m t u) : Kept m s u :=
  ⟨b.1.trans a.1, b.2.trans a.2, b.3.trans a.3, b.4.trans a.4, fun h => b.5 (a.5 h), a.6.trans b.6, a.7.trans b.7,
    fun p h => p.same_trans s t u (a.8 p h) (b.8 p h)⟩
theorem Kept.mono {l m : Nat} {s t : State} (a : Kept l s t) (h : Nat.land l m = l) : Kept m s t :=
  ⟨a.1, a.2, a.3, a.4, a.5, a.6, a.7, fun p k => a.8 p (mask_le h _ k)⟩
theorem Kept.step {l m : Nat} {s t u : State} (b : Kept l t u) (h : Nat.land l m = l) (a : Kept m s t) : Kept m s u :=
  a.trans (b.mono h)
theorem Kept.then {m : Nat} {s t u : State} (b : Kept m t u) (a : Kept m s t) : Kept m s u := a.trans b
theorem Kept.foldl {α : Type} {m : Nat} {f : State → α → State} (h : ∀ s x, Kept m s (f s x)) (l : List α) (s : State) :
    Kept m s (l.foldl f s) := by
  induction l generalizing s with
  | nil => exact .refl m s
  | cons x r ih => exact (h s x).trans (ih _)
theorem Kept.fold {α : Type} {m : Nat} {f : State → α → State} {l : List α} {s t : State} (h : ∀ s x, Kept m s (f s x))
    (k : Kept m t s) : Kept m t (l.foldl f s) := k.trans (Kept.foldl h l s)
theorem Kept.pair {α : Type} {m : Nat} {s t : State} {p : α × State} {a : α} (e : p = (a, t)) (h : Kept m s p.2) : Kept m s t := by
  subst e; exact h
theorem Kept.opt {α : Type} {m : Nat} {s t : State} {o : Option (α × State)} {a : α} (e : o = some (a, t))
    (h : ∀ p, o = some p → Kept m s p.2) : Kept m s t := h _ e
theorem bit_of {l m n : Nat} (h : Nat.land l m = l) (k : l.testBit n = true) : m.testBit n = true := by
  cases e : m.testBit n
  · exact absurd ((mask_le h n e).symm.trans k) Bool.false_ne_true
  · rfl

theorem Kept.snd {α : Type} {m : Nat} {s t : State} {a : α} (h : Kept m s t) : Kept m s (a, t).2 := h
theorem Kept.mapGetD {α : Type} {m : Nat} {s t : State} {f : α → State} {o : Option α} (h : ∀ x, Kept m s (f x)) (k : Kept m s t) :
    Kept m s ((o.map f).getD t) := by
  cases o with
  | none => exact k
  | some x => exact h x
theorem Kept.mem {s : State} {v : Memory} (h : s.billetMem.wf = true → v.wf = true) : Kept 0x40000000 s { s with billetMem := v } :=
  ⟨rfl, rfl, rfl, rfl, h, List.prefix_refl _, Nat.le_refl _, by
    intro p k
    cases p with
    | billetMem => exact absurd k (by decide)
    | _ => rfl⟩

theorem Kept.ite {m : Nat} {s a b : State} {c : Prop} [Decidable c] (h : Kept m s a) (k : Kept m s b) : Kept m s (if c then a else b) := by
  split
  · exact h
  · exact k

/-- The command answers a next state, and nothing has changed but the components in the mask. -/
def KeptR (m : Nat) (s : State) (r : Result) : Prop := ∃ t, r = .next t ∧ Kept m s t
theorem KeptR.next {m : Nat} {s t : State} (h : Kept m s t) : KeptR m s (.next t) := ⟨t, rfl, h⟩
theorem KeptR.step {l m : Nat} {s t : State} {r : Result} (k : KeptR l t r) (h : Nat.land l m = l) (a : Kept m s t) : KeptR m s r := by
  obtain ⟨u, e, k⟩ := k; exact ⟨u, e, k.step h a⟩
theorem KeptR.ite {m : Nat} {s : State} {a b : Result} {c : Prop} [Decidable c] (h : KeptR m s a) (k : KeptR m s b) :
    KeptR m s (if c then a else b) := by
  split
  · exact h
  · exact k

/-- A component that the mask admits is none that it leaves out. -/
theorem Part.admitted {m : Nat} {q : Part} {P : Prop} (h : Nat.land (2 ^ q.bit) m = 2 ^ q.bit) (k : m.testBit q.bit = false) : P :=
  absurd (bit_of h (Nat.testBit_two_pow_self)) (ne_of_eq_of_ne k Bool.false_ne_true)

/-- One component has changed, and it is none of those that last. -/
theorem Kept.one {m : Nat} {s X t : State} (h : Kept m s X) (q : Part) (e : Nat.land (2 ^ q.bit) m = 2 ^ q.bit) (a : t.pending = X.pending)
    (b : t.chip.grade = X.chip.grade) (c : t.chip.keyDigest = X.chip.keyDigest) (d : t.dbg.level = X.dbg.level)
    (f : t.billetMem = X.billetMem) (g : t.out = X.out) (i : t.draws = X.draws) (k : ∀ p, p ≠ q → p.same X t) :
    Kept m s t :=
  h.trans ⟨a, b, c, d, fun w => f ▸ w, g ▸ List.prefix_refl _, Nat.le_of_eq i.symm, fun p n =>
    if x : p = q then by subst x; exact Part.admitted e n else k p x⟩

theorem Kept.madeChip {m : Nat} {s X : State} {v : Chip} (h1 : v.grade = X.chip.grade) (h2 : v.keyDigest = X.chip.keyDigest)
    (h3 : v.straps = X.chip.straps) (e : Nat.land 0x1 m = 0x1)
    (h : Kept m s X) : Kept m s { X with chip := v } :=
  h.one .chip e rfl h1 h2 rfl rfl rfl rfl fun p n => by cases p <;> first | exact rfl | exact absurd rfl n | exact h3

theorem Kept.madeHearth {m : Nat} {s X : State} {v : Hearth} (e : Nat.land 0x2 m = 0x2)
    (h : Kept m s X) : Kept m s { X with hearth := v } :=
  h.one .hearth e rfl rfl rfl rfl rfl rfl rfl fun p n => by cases p <;> first | exact rfl | exact absurd rfl n

theorem Kept.madePorts {m : Nat} {s X : State} {v : Tab Port} (e : Nat.land 0x4 m = 0x4)
    (h : Kept m s X) : Kept m s { X with ports := v } :=
  h.one .ports e rfl rfl rfl rfl rfl rfl rfl fun p n => by cases p <;> first | exact rfl | exact absurd rfl n

theorem Kept.madeFns {m : Nat} {s X : State} {v : Tab Fn} (e : Nat.land 0x8 m = 0x8)
    (h : Kept m s X) : Kept m s { X with fns := v } :=
  h.one .fns e rfl rfl rfl rfl rfl rfl rfl fun p n => by cases p <;> first | exact rfl | exact absurd rfl n

theorem Kept.madeMailbox {m : Nat} {s X : State} {v : Mailbox} (e : Nat.land 0x10 m = 0x10)
    (h : Kept m s X) : Kept m s { X with mailbox := v } :=
  h.one .mailbox e rfl rfl rfl rfl rfl rfl rfl fun p n => by cases p <;> first | exact rfl | exact absurd rfl n

theorem Kept.madeBenches {m : Nat} {s X : State} {v : Tab Bench} (e : Nat.land 0x20 m = 0x20)
    (h : Kept m s X) : Kept m s { X with benches := v } :=
  h.one .benches e rfl rfl rfl rfl rfl rfl rfl fun p n => by cases p <;> first | exact rfl | exact absurd rfl n

theorem Kept.madeZeroFill {m : Nat} {s X : State} {v : List (Nat × Nat × Nat)} (e : Nat.land 0x40 m = 0x40)
    (h : Kept m s X) : Kept m s { X with zeroFill := v } :=
  h.one .zeroFill e rfl rfl rfl rfl rfl rfl rfl fun p n => by cases p <;> first | exact rfl | exact absurd rfl n

theorem Kept.madeForming {m : Nat} {s X : State} {v : Option Nat} (e : Nat.land 0x80 m = 0x80)
    (h : Kept m s X) : Kept m s { X with forming := v } :=
  h.one .forming e rfl rfl rfl rfl rfl rfl rfl fun p n => by cases p <;> first | exact rfl | exact absurd rfl n

theorem Kept.madeFormingFlr {m : Nat} {s X : State} {v : Bool} (e : Nat.land 0x100 m = 0x100)
    (h : Kept m s X) : Kept m s { X with formingFlr := v } :=
  h.one .formingFlr e rfl rfl rfl rfl rfl rfl rfl fun p n => by cases p <;> first | exact rfl | exact absurd rfl n

theorem Kept.madeLathes {m : Nat} {s X : State} {v : Tab Lathe} (e : Nat.land 0x200 m = 0x200)
    (h : Kept m s X) : Kept m s { X with lathes := v } :=
  h.one .lathes e rfl rfl rfl rfl rfl rfl rfl fun p n => by cases p <;> first | exact rfl | exact absurd rfl n

theorem Kept.madeEvents {m : Nat} {s X : State} {v : Tab EventLine} (e : Nat.land 0x400 m = 0x400)
    (h : Kept m s X) : Kept m s { X with events := v } :=
  h.one .events e rfl rfl rfl rfl rfl rfl rfl fun p n => by cases p <;> first | exact rfl | exact absurd rfl n

theorem Kept.madePaceTimers {m : Nat} {s X : State} {v : Tab PaceTimer} (e : Nat.land 0x800 m = 0x800)
    (h : Kept m s X) : Kept m s { X with paceTimers := v } :=
  h.one .paceTimers e rfl rfl rfl rfl rfl rfl rfl fun p n => by cases p <;> first | exact rfl | exact absurd rfl n

theorem Kept.madeCharges {m : Nat} {s X : State} {v : Tab (Tab Charge)} (e : Nat.land 0x1000 m = 0x1000)
    (h : Kept m s X) : Kept m s { X with charges := v } :=
  h.one .charges e rfl rfl rfl rfl rfl rfl rfl fun p n => by cases p <;> first | exact rfl | exact absurd rfl n

theorem Kept.madeHeadstock {m : Nat} {s X : State} {v : Headstock} (e : Nat.land 0x2000 m = 0x2000)
    (h : Kept m s X) : Kept m s { X with headstock := v } :=
  h.one .headstock e rfl rfl rfl rfl rfl rfl rfl fun p n => by cases p <;> first | exact rfl | exact absurd rfl n

theorem Kept.madeMig {m : Nat} {s X : State} {v : Mig} (e : Nat.land 0x4000 m = 0x4000)
    (h : Kept m s X) : Kept m s { X with mig := v } :=
  h.one .mig e rfl rfl rfl rfl rfl rfl rfl fun p n => by cases p <;> first | exact rfl | exact absurd rfl n

theorem Kept.madeSpindles {m : Nat} {s X : State} {v : Tab Spindle} (e : Nat.land 0x8000 m = 0x8000)
    (h : Kept m s X) : Kept m s { X with spindles := v } :=
  h.one .spindles e rfl rfl rfl rfl rfl rfl rfl fun p n => by cases p <;> first | exact rfl | exact absurd rfl n

theorem Kept.madeBar2Reads {m : Nat} {s X : State} {v : List Bar2Req} (e : Nat.land 0x10000 m = 0x10000)
    (h : Kept m s X) : Kept m s { X with bar2Reads := v } :=
  h.one .bar2Reads e rfl rfl rfl rfl rfl rfl rfl fun p n => by cases p <;> first | exact rfl | exact absurd rfl n

theorem Kept.madeBar2Writes {m : Nat} {s X : State} {v : List Bar2Put} (e : Nat.land 0x400000000 m = 0x400000000)
    (h : Kept m s X) : Kept m s { X with bar2Writes := v } :=
  h.one .bar2Writes e rfl rfl rfl rfl rfl rfl rfl fun p n => by cases p <;> first | exact rfl | exact absurd rfl n

theorem Kept.madeBar2Queue {m : Nat} {s X : State} {v : List Bar2Wait} (e : Nat.land 0x800000000 m = 0x800000000)
    (h : Kept m s X) : Kept m s { X with bar2Queue := v } :=
  h.one .bar2Queue e rfl rfl rfl rfl rfl rfl rfl fun p n => by cases p <;> first | exact rfl | exact absurd rfl n

theorem Kept.madeRemotes {m : Nat} {s X : State} {v : List RemoteReq} (e : Nat.land 0x20000 m = 0x20000)
    (h : Kept m s X) : Kept m s { X with remotes := v } :=
  h.one .remotes e rfl rfl rfl rfl rfl rfl rfl fun p n => by cases p <;> first | exact rfl | exact absurd rfl n

theorem Kept.madePlacements {m : Nat} {s X : State} {v : List Placement} (e : Nat.land 0x40000 m = 0x40000)
    (h : Kept m s X) : Kept m s { X with placements := v } :=
  h.one .placements e rfl rfl rfl rfl rfl rfl rfl fun p n => by cases p <;> first | exact rfl | exact absurd rfl n

theorem Kept.madeLaunches {m : Nat} {s X : State} {v : List Launch} (e : Nat.land 0x80000 m = 0x80000)
    (h : Kept m s X) : Kept m s { X with launches := v } :=
  h.one .launches e rfl rfl rfl rfl rfl rfl rfl fun p n => by cases p <;> first | exact rfl | exact absurd rfl n

theorem Kept.madeJobs {m : Nat} {s X : State} {v : List Job} (e : Nat.land 0x100000 m = 0x100000)
    (h : Kept m s X) : Kept m s { X with jobs := v } :=
  h.one .jobs e rfl rfl rfl rfl rfl rfl rfl fun p n => by cases p <;> first | exact rfl | exact absurd rfl n

theorem Kept.madeDense {m : Nat} {s X : State} {v : Engine} (e : Nat.land 0x200000 m = 0x200000)
    (h : Kept m s X) : Kept m s { X with dense := v } :=
  h.one .dense e rfl rfl rfl rfl rfl rfl rfl fun p n => by cases p <;> first | exact rfl | exact absurd rfl n

theorem Kept.madeLattice {m : Nat} {s X : State} {v : Engine} (e : Nat.land 0x400000 m = 0x400000)
    (h : Kept m s X) : Kept m s { X with lattice := v } :=
  h.one .lattice e rfl rfl rfl rfl rfl rfl rfl fun p n => by cases p <;> first | exact rfl | exact absurd rfl n

theorem Kept.madeEnvans {m : Nat} {s X : State} {v : Tab Envan} (e : Nat.land 0x800000 m = 0x800000)
    (h : Kept m s X) : Kept m s { X with envans := v } :=
  h.one .envans e rfl rfl rfl rfl rfl rfl rfl fun p n => by cases p <;> first | exact rfl | exact absurd rfl n

theorem Kept.madeCascade {m : Nat} {s X : State} {v : Cascade} (e : Nat.land 0x1000000 m = 0x1000000)
    (h : Kept m s X) : Kept m s { X with cascade := v } :=
  h.one .cascade e rfl rfl rfl rfl rfl rfl rfl fun p n => by cases p <;> first | exact rfl | exact absurd rfl n

theorem Kept.madeRecovery {m : Nat} {s X : State} {v : Recovery} (e : Nat.land 0x2000000 m = 0x2000000)
    (h : Kept m s X) : Kept m s { X with recovery := v } :=
  h.one .recovery e rfl rfl rfl rfl rfl rfl rfl fun p n => by cases p <;> first | exact rfl | exact absurd rfl n

theorem Kept.madeBg {m : Nat} {s X : State} {v : Background} (e : Nat.land 0x4000000 m = 0x4000000)
    (h : Kept m s X) : Kept m s { X with bg := v } :=
  h.one .bg e rfl rfl rfl rfl rfl rfl rfl fun p n => by cases p <;> first | exact rfl | exact absurd rfl n

theorem Kept.madeStreams {m : Nat} {s X : State} {v : Tab Stream} (e : Nat.land 0x8000000 m = 0x8000000)
    (h : Kept m s X) : Kept m s { X with streams := v } :=
  h.one .streams e rfl rfl rfl rfl rfl rfl rfl fun p n => by cases p <;> first | exact rfl | exact absurd rfl n

theorem Kept.madeDebug {m : Nat} {s X : State} {v : Debug} (h1 : v.level = X.dbg.level) (e : Nat.land 0x10000000 m = 0x10000000)
    (h : Kept m s X) : Kept m s { X with dbg := v } :=
  h.one .dbg e rfl rfl rfl h1 rfl rfl rfl fun p n => by cases p <;> first | exact rfl | exact absurd rfl n

theorem Kept.madePerf {m : Nat} {s X : State} {v : Tab (BitVec 64)} (e : Nat.land 0x20000000 m = 0x20000000)
    (h : Kept m s X) : Kept m s { X with perf := v } :=
  h.one .perf e rfl rfl rfl rfl rfl rfl rfl fun p n => by cases p <;> first | exact rfl | exact absurd rfl n

theorem Kept.madeChargesDenseLattice {m : Nat} {s X : State} {v12 : Tab (Tab Charge)} {v21 : Engine} {v22 : Engine}
    (e12 : Nat.land 0x1000 m = 0x1000) (e21 : Nat.land 0x200000 m = 0x200000) (e22 : Nat.land 0x400000 m = 0x400000) (h : Kept m s X) :
    Kept m s { X with charges := v12, dense := v21, lattice := v22 } :=
  have k1 : Kept m s { X with charges := v12 } := .madeCharges e12 h
  have k2 : Kept m s { X with charges := v12, dense := v21 } := .madeDense e21 k1
  Kept.madeLattice (X := { X with charges := v12, dense := v21 }) e22 k2

theorem Kept.madeHeadstockDenseLattice {m : Nat} {s X : State} {v13 : Headstock} {v21 : Engine} {v22 : Engine}
    (e13 : Nat.land 0x2000 m = 0x2000) (e21 : Nat.land 0x200000 m = 0x200000) (e22 : Nat.land 0x400000 m = 0x400000) (h : Kept m s X) :
    Kept m s { X with headstock := v13, dense := v21, lattice := v22 } :=
  have k1 : Kept m s { X with headstock := v13 } := .madeHeadstock e13 h
  have k2 : Kept m s { X with headstock := v13, dense := v21 } := .madeDense e21 k1
  Kept.madeLattice (X := { X with headstock := v13, dense := v21 }) e22 k2

theorem Kept.madeHearthCascade {m : Nat} {s X : State} {v1 : Hearth} {v24 : Cascade}
    (e1 : Nat.land 0x2 m = 0x2) (e24 : Nat.land 0x1000000 m = 0x1000000) (h : Kept m s X) :
    Kept m s { X with hearth := v1, cascade := v24 } :=
  have k1 : Kept m s { X with hearth := v1 } := .madeHearth e1 h
  Kept.madeCascade (X := { X with hearth := v1 }) e24 k1

theorem Kept.madePortsBenchesMig {m : Nat} {s X : State} {v2 : Tab Port} {v5 : Tab Bench} {v14 : Mig}
    (e2 : Nat.land 0x4 m = 0x4) (e5 : Nat.land 0x20 m = 0x20) (e14 : Nat.land 0x4000 m = 0x4000) (h : Kept m s X) :
    Kept m s { X with ports := v2, benches := v5, mig := v14 } :=
  have k1 : Kept m s { X with ports := v2 } := .madePorts e2 h
  have k2 : Kept m s { X with ports := v2, benches := v5 } := .madeBenches e5 k1
  Kept.madeMig (X := { X with ports := v2, benches := v5 }) e14 k2

theorem Kept.madeSpindlesPlacements {m : Nat} {s X : State} {v15 : Tab Spindle} {v18 : List Placement}
    (e15 : Nat.land 0x8000 m = 0x8000) (e18 : Nat.land 0x40000 m = 0x40000) (h : Kept m s X) :
    Kept m s { X with spindles := v15, placements := v18 } :=
  have k1 : Kept m s { X with spindles := v15 } := .madeSpindles e15 h
  Kept.madePlacements (X := { X with spindles := v15 }) e18 k1

theorem Kept.madeHeadstockCascade {m : Nat} {s X : State} {v13 : Headstock} {v24 : Cascade}
    (e13 : Nat.land 0x2000 m = 0x2000) (e24 : Nat.land 0x1000000 m = 0x1000000) (h : Kept m s X) :
    Kept m s { X with headstock := v13, cascade := v24 } :=
  have k1 : Kept m s { X with headstock := v13 } := .madeHeadstock e13 h
  Kept.madeCascade (X := { X with headstock := v13 }) e24 k1

theorem Kept.madeHearthFnsHeadstockBar2ReadsBar2Queue {m : Nat} {s X : State} {v1 : Hearth} {v3 : Tab Fn} {v13 : Headstock} {v16 : List Bar2Req} {v35 : List Bar2Wait}
    (e1 : Nat.land 0x2 m = 0x2) (e3 : Nat.land 0x8 m = 0x8) (e13 : Nat.land 0x2000 m = 0x2000) (e16 : Nat.land 0x10000 m = 0x10000) (e35 : Nat.land 0x800000000 m = 0x800000000) (h : Kept m s X) :
    Kept m s { X with hearth := v1, fns := v3, headstock := v13, bar2Reads := v16, bar2Queue := v35 } :=
  have k1 : Kept m s { X with hearth := v1 } := .madeHearth e1 h
  have k2 : Kept m s { X with hearth := v1, fns := v3 } := .madeFns e3 k1
  have k3 : Kept m s { X with hearth := v1, fns := v3, headstock := v13 } := .madeHeadstock e13 k2
  have k4 : Kept m s { X with hearth := v1, fns := v3, headstock := v13, bar2Reads := v16 } := .madeBar2Reads e16 k3
  Kept.madeBar2Queue (X := { X with hearth := v1, fns := v3, headstock := v13, bar2Reads := v16 }) e35 k4

theorem Kept.madeFormingFormingFlr {m : Nat} {s X : State} {v7 : Option Nat} {v8 : Bool}
    (e7 : Nat.land 0x80 m = 0x80) (e8 : Nat.land 0x100 m = 0x100) (h : Kept m s X) :
    Kept m s { X with forming := v7, formingFlr := v8 } :=
  have k1 : Kept m s { X with forming := v7 } := .madeForming e7 h
  Kept.madeFormingFlr (X := { X with forming := v7 }) e8 k1

theorem Kept.madeChipBg {m : Nat} {s X : State} {v0 : Chip} {v26 : Background}
    (h1 : v0.grade = X.chip.grade) (h2 : v0.keyDigest = X.chip.keyDigest) (h3 : v0.straps = X.chip.straps) (e0 : Nat.land 0x1 m = 0x1) (e26 : Nat.land 0x4000000 m = 0x4000000) (h : Kept m s X) :
    Kept m s { X with chip := v0, bg := v26 } :=
  have k1 : Kept m s { X with chip := v0 } := .madeChip h1 h2 h3 e0 h
  Kept.madeBg (X := { X with chip := v0 }) e26 k1

theorem Kept.madeHearthRecovery {m : Nat} {s X : State} {v1 : Hearth} {v25 : Recovery}
    (e1 : Nat.land 0x2 m = 0x2) (e25 : Nat.land 0x2000000 m = 0x2000000) (h : Kept m s X) :
    Kept m s { X with hearth := v1, recovery := v25 } :=
  have k1 : Kept m s { X with hearth := v1 } := .madeHearth e1 h
  Kept.madeRecovery (X := { X with hearth := v1 }) e25 k1

theorem Kept.madeRecoveryBg {m : Nat} {s X : State} {v25 : Recovery} {v26 : Background}
    (e25 : Nat.land 0x2000000 m = 0x2000000) (e26 : Nat.land 0x4000000 m = 0x4000000) (h : Kept m s X) :
    Kept m s { X with recovery := v25, bg := v26 } :=
  have k1 : Kept m s { X with recovery := v25 } := .madeRecovery e25 h
  Kept.madeBg (X := { X with recovery := v25 }) e26 k1

theorem Kept.madeDenseBg {m : Nat} {s X : State} {v21 : Engine} {v26 : Background}
    (e21 : Nat.land 0x200000 m = 0x200000) (e26 : Nat.land 0x4000000 m = 0x4000000) (h : Kept m s X) :
    Kept m s { X with dense := v21, bg := v26 } :=
  have k1 : Kept m s { X with dense := v21 } := .madeDense e21 h
  Kept.madeBg (X := { X with dense := v21 }) e26 k1

theorem Kept.madePlacementsLaunches {m : Nat} {s X : State} {v18 : List Placement} {v19 : List Launch}
    (e18 : Nat.land 0x40000 m = 0x40000) (e19 : Nat.land 0x80000 m = 0x80000) (h : Kept m s X) :
    Kept m s { X with placements := v18, launches := v19 } :=
  have k1 : Kept m s { X with placements := v18 } := .madePlacements e18 h
  Kept.madeLaunches (X := { X with placements := v18 }) e19 k1

theorem Kept.madePlacementsRecovery {m : Nat} {s X : State} {v18 : List Placement} {v25 : Recovery}
    (e18 : Nat.land 0x40000 m = 0x40000) (e25 : Nat.land 0x2000000 m = 0x2000000) (h : Kept m s X) :
    Kept m s { X with placements := v18, recovery := v25 } :=
  have k1 : Kept m s { X with placements := v18 } := .madePlacements e18 h
  Kept.madeRecovery (X := { X with placements := v18 }) e25 k1

theorem Kept.madeSpindlesRemotes {m : Nat} {s X : State} {v15 : Tab Spindle} {v17 : List RemoteReq}
    (e15 : Nat.land 0x8000 m = 0x8000) (e17 : Nat.land 0x20000 m = 0x20000) (h : Kept m s X) :
    Kept m s { X with spindles := v15, remotes := v17 } :=
  have k1 : Kept m s { X with spindles := v15 } := .madeSpindles e15 h
  Kept.madeRemotes (X := { X with spindles := v15 }) e17 k1

theorem Kept.madeHearthBg {m : Nat} {s X : State} {v1 : Hearth} {v26 : Background}
    (e1 : Nat.land 0x2 m = 0x2) (e26 : Nat.land 0x4000000 m = 0x4000000) (h : Kept m s X) :
    Kept m s { X with hearth := v1, bg := v26 } :=
  have k1 : Kept m s { X with hearth := v1 } := .madeHearth e1 h
  Kept.madeBg (X := { X with hearth := v1 }) e26 k1

theorem Kept.madeHearthHeadstock {m : Nat} {s X : State} {v1 : Hearth} {v13 : Headstock}
    (e1 : Nat.land 0x2 m = 0x2) (e13 : Nat.land 0x2000 m = 0x2000) (h : Kept m s X) :
    Kept m s { X with hearth := v1, headstock := v13 } :=
  have k1 : Kept m s { X with hearth := v1 } := .madeHearth e1 h
  Kept.madeHeadstock (X := { X with hearth := v1 }) e13 k1

theorem Kept.madeChipHearth {m : Nat} {s X : State} {v0 : Chip} {v1 : Hearth}
    (h1 : v0.grade = X.chip.grade) (h2 : v0.keyDigest = X.chip.keyDigest) (h3 : v0.straps = X.chip.straps) (e0 : Nat.land 0x1 m = 0x1) (e1 : Nat.land 0x2 m = 0x2) (h : Kept m s X) :
    Kept m s { X with chip := v0, hearth := v1 } :=
  have k1 : Kept m s { X with chip := v0 } := .madeChip h1 h2 h3 e0 h
  Kept.madeHearth (X := { X with chip := v0 }) e1 k1

theorem Kept.madeChipDebug {m : Nat} {s X : State} {v0 : Chip} {v28 : Debug}
    (h1 : v0.grade = X.chip.grade) (h2 : v0.keyDigest = X.chip.keyDigest) (h3 : v0.straps = X.chip.straps) (h4 : v28.level = X.dbg.level) (e0 : Nat.land 0x1 m = 0x1) (e28 : Nat.land 0x10000000 m = 0x10000000) (h : Kept m s X) :
    Kept m s { X with chip := v0, dbg := v28 } :=
  have k1 : Kept m s { X with chip := v0 } := .madeChip h1 h2 h3 e0 h
  Kept.madeDebug (X := { X with chip := v0 }) h4 e28 k1

theorem Kept.madeChipCascade {m : Nat} {s X : State} {v0 : Chip} {v24 : Cascade}
    (h1 : v0.grade = X.chip.grade) (h2 : v0.keyDigest = X.chip.keyDigest) (h3 : v0.straps = X.chip.straps) (e0 : Nat.land 0x1 m = 0x1) (e24 : Nat.land 0x1000000 m = 0x1000000) (h : Kept m s X) :
    Kept m s { X with chip := v0, cascade := v24 } :=
  have k1 : Kept m s { X with chip := v0 } := .madeChip h1 h2 h3 e0 h
  Kept.madeCascade (X := { X with chip := v0 }) e24 k1

theorem Kept.lasting {m : Nat} {s t : State} (h : Kept m s t) : Lasting s t := ⟨h.pending, h.grade, h.key, h.level, h.out, h.draws⟩

end Sys2Proof.Machine
end

