-- ==== Sys2Proof/Laws/Kept/Ops.lean ====
section
/-!
SUPPORT. What the operations and commands of Machine/Ops.lean keep.
-/

namespace Sys2Proof.Machine

theorem State.modPort_kept (s : State) (p : Nat) (f : Port → Port) : Kept 0x4 s (State.modPort s p f) := by
  have e2 : Nat.land 0x4 0x4 = 0x4 := rfl
  unfold State.modPort
  try dsimp only
  repeat' first
    | exact (rfl : Nat.land _ _ = _)
    | with_reducible first
      | assumption | apply Kept.refl | fail_if_no_progress refine Kept.madePorts e2 ?_

theorem State.modFn_kept (s : State) (p f : Nat) (g : Fn → Fn) : Kept 0x8 s (State.modFn s p f g) := by
  have e3 : Nat.land 0x8 0x8 = 0x8 := rfl
  unfold State.modFn
  try dsimp only
  repeat' first
    | exact (rfl : Nat.land _ _ = _)
    | with_reducible first
      | assumption | apply Kept.refl | fail_if_no_progress refine Kept.madeFns e3 ?_

theorem State.setBench_kept (s : State) (b : Nat) (v : Bench) : Kept 0x20 s (State.setBench s b v) := by
  have e5 : Nat.land 0x20 0x20 = 0x20 := rfl
  unfold State.setBench
  try dsimp only
  repeat' first
    | exact (rfl : Nat.land _ _ = _)
    | with_reducible first
      | assumption | apply Kept.refl | fail_if_no_progress refine Kept.madeBenches e5 ?_

theorem State.modBench_kept (s : State) (b : Nat) (f : Bench → Bench) : Kept 0x20 s (State.modBench s b f) := by
  unfold State.modBench
  try dsimp only
  repeat' first
    | exact (rfl : Nat.land _ _ = _)
    | with_reducible first
      | assumption | apply Kept.refl | apply Kept.step (State.setBench_kept ..)

theorem State.modRing_kept (s : State) (b r : Nat) (f : Ring → Ring) : Kept 0x20 s (State.modRing s b r f) := by
  unfold State.modRing
  try dsimp only
  repeat' first
    | exact (rfl : Nat.land _ _ = _)
    | with_reducible first
      | assumption | apply Kept.refl | apply Kept.step (State.modBench_kept ..)

theorem State.modLathe_kept (s : State) (l : Nat) (f : Lathe → Lathe) : Kept 0x200 s (State.modLathe s l f) := by
  have e9 : Nat.land 0x200 0x200 = 0x200 := rfl
  unfold State.modLathe
  try dsimp only
  repeat' first
    | exact (rfl : Nat.land _ _ = _)
    | with_reducible first
      | assumption | apply Kept.refl | fail_if_no_progress refine Kept.madeLathes e9 ?_

theorem State.modDie_kept (s : State) (d : Nat) (f : Spindle → Spindle) : Kept 0x8000 s (State.modDie s d f) := by
  have e15 : Nat.land 0x8000 0x8000 = 0x8000 := rfl
  unfold State.modDie
  try dsimp only
  repeat' first
    | exact (rfl : Nat.land _ _ = _)
    | with_reducible first
      | assumption | apply Kept.refl | fail_if_no_progress refine Kept.madeSpindles e15 ?_

theorem State.modEnvan_kept (s : State) (l : Nat) (f : Envan → Envan) : Kept 0x800000 s (State.modEnvan s l f) := by
  have e23 : Nat.land 0x800000 0x800000 = 0x800000 := rfl
  unfold State.modEnvan
  try dsimp only
  repeat' first
    | exact (rfl : Nat.land _ _ = _)
    | with_reducible first
      | assumption | apply Kept.refl | fail_if_no_progress refine Kept.madeEnvans e23 ?_

theorem State.modWhittler_kept (s : State) (w : Nat) (f : Whittler → Whittler) : Kept 0x2000000 s (State.modWhittler s w f) := by
  have e25 : Nat.land 0x2000000 0x2000000 = 0x2000000 := rfl
  unfold State.modWhittler
  try dsimp only
  repeat' first
    | exact (rfl : Nat.land _ _ = _)
    | with_reducible first
      | assumption | apply Kept.refl | fail_if_no_progress refine Kept.madeRecovery e25 ?_

theorem State.modStream_kept (s : State) (i : Nat) (f : Stream → Stream) : Kept 0x8000000 s (State.modStream s i f) := by
  have e27 : Nat.land 0x8000000 0x8000000 = 0x8000000 := rfl
  unfold State.modStream
  try dsimp only
  repeat' first
    | exact (rfl : Nat.land _ _ = _)
    | with_reducible first
      | assumption | apply Kept.refl | fail_if_no_progress refine Kept.madeStreams e27 ?_

theorem State.modEvent_kept (s : State) (n : Nat) (f : EventLine → EventLine) : Kept 0x400 s (State.modEvent s n f) := by
  have e10 : Nat.land 0x400 0x400 = 0x400 := rfl
  unfold State.modEvent
  try dsimp only
  repeat' first
    | exact (rfl : Nat.land _ _ = _)
    | with_reducible first
      | assumption | apply Kept.refl | fail_if_no_progress refine Kept.madeEvents e10 ?_

theorem State.modPaceTimer_kept (s : State) (clusterB : Bool) (t : Nat) (f : PaceTimer → PaceTimer) :
    Kept 0x800 s (State.modPaceTimer s clusterB t f) := by
  have e11 : Nat.land 0x800 0x800 = 0x800 := rfl
  unfold State.modPaceTimer
  try dsimp only
  repeat' first
    | exact (rfl : Nat.land _ _ = _)
    | with_reducible first
      | assumption | apply Kept.refl | fail_if_no_progress refine Kept.madePaceTimers e11 ?_

theorem State.modDomain_kept (s : State) (n : Nat) (f : PdDomain → PdDomain) : Kept 0x2 s (State.modDomain s n f) := by
  have e1 : Nat.land 0x2 0x2 = 0x2 := rfl
  unfold State.modDomain
  try dsimp only
  repeat' first
    | exact (rfl : Nat.land _ _ = _)
    | with_reducible first
      | assumption | apply Kept.refl | fail_if_no_progress refine Kept.madeHearth e1 ?_

theorem State.stir_kept (s : State) (n : Nat) : Kept 0x2 s (State.stir s n) := by
  unfold State.stir
  try dsimp only
  repeat' first
    | exact (rfl : Nat.land _ _ = _)
    | with_reducible first
      | assumption | apply Kept.refl | apply Kept.step (State.modDomain_kept ..)

theorem State.setGuest_kept (s : State) (g : Nat) (v : Option Guest) : Kept 0x1000000 s (State.setGuest s g v) := by
  have e24 : Nat.land 0x1000000 0x1000000 = 0x1000000 := rfl
  unfold State.setGuest
  try dsimp only
  repeat' first
    | exact (rfl : Nat.land _ _ = _)
    | with_reducible first
      | assumption | apply Kept.refl | fail_if_no_progress refine Kept.madeCascade e24 ?_

theorem State.emit_kept (s : State) (o : Out) : Kept 0x100000000 s (s.emit o) :=
  ⟨rfl, rfl, rfl, rfl, id, List.prefix_append _ _, Nat.le_refl _, fun p => by
    unfold State.emit; cases p <;> first | (intro _; rfl) | (intro h; cases h)⟩

theorem State.draw_kept (s : State) : Kept 0x80000000 s (s.draw).2 :=
  ⟨rfl, rfl, rfl, rfl, id, List.prefix_refl _, Nat.le_succ _, fun p => by
    unfold State.draw; cases p <;> first | (intro _; rfl) | (intro h; cases h)⟩

theorem State.countHub_kept (s : State) : Kept 0x1 s (State.countHub s) := by
  have e0 : Nat.land 0x1 0x1 = 0x1 := rfl
  unfold State.countHub
  try dsimp only
  repeat' first
    | exact (rfl : Nat.land _ _ = _)
    | with_reducible first
      | assumption | apply Kept.refl | fail_if_no_progress refine Kept.madeChip rfl rfl rfl e0 ?_

theorem State.countBench_kept (s : State) (b : Nat) : Kept 0x20 s (State.countBench s b) := by
  unfold State.countBench
  try dsimp only
  repeat' first
    | exact (rfl : Nat.land _ _ = _)
    | with_reducible first
      | assumption | apply Kept.refl | apply Kept.step (State.modBench_kept ..)

theorem State.countPerf_kept (s : State) (q n : Nat) : Kept 0x20000000 s (State.countPerf s q n) := by
  have e29 : Nat.land 0x20000000 0x20000000 = 0x20000000 := rfl
  unfold State.countPerf
  try dsimp only
  repeat' first
    | exact (rfl : Nat.land _ _ = _)
    | with_reducible first
      | assumption | apply Kept.refl | fail_if_no_progress refine Kept.madePerf e29 ?_ | apply Kept.ite
    | dsimp only
    | split

theorem State.sendDie_kept (s : State) (d : Nat) (m : DieMsg) : Kept 0x120008000 s (State.sendDie s d m) := by
  unfold State.sendDie
  try dsimp only
  repeat' first
    | exact (rfl : Nat.land _ _ = _)
    | with_reducible first
      | assumption | apply Kept.refl | apply Kept.step (State.modDie_kept ..) | apply Kept.step (State.emit_kept ..)
      | apply Kept.step (State.countPerf_kept ..) | apply Kept.ite
    | dsimp only
    | split

theorem State.sendHub_kept (s : State) (h : Nat) (m : EnvanMsg) : Kept 0x121000000 s (State.sendHub s h m) := by
  have e24 : Nat.land 0x1000000 0x121000000 = 0x1000000 := rfl
  unfold State.sendHub
  try dsimp only
  repeat' first
    | exact (rfl : Nat.land _ _ = _)
    | with_reducible first
      | assumption | apply Kept.refl | apply Kept.step (State.emit_kept ..) | apply Kept.step (State.countPerf_kept ..)
      | fail_if_no_progress refine Kept.madeCascade e24 ?_ | apply Kept.ite
    | dsimp only
    | split

theorem State.hubIn_kept (s : State) (h n : Nat) : Kept 0x20000000 s (State.hubIn s h n) := by
  unfold State.hubIn
  try dsimp only
  repeat' first
    | exact (rfl : Nat.land _ _ = _)
    | with_reducible first
      | assumption | apply Kept.refl | apply Kept.step (State.countPerf_kept ..)
    | dsimp only
    | split

theorem State.sendWaiting_kept (s : State) : Kept 0x121000000 s (State.sendWaiting s) := by
  have e24 : Nat.land 0x1000000 0x121000000 = 0x1000000 := rfl
  unfold State.sendWaiting
  try dsimp only
  repeat' first
    | exact (rfl : Nat.land _ _ = _)
    | (intro _; try dsimp only)
    | with_reducible first
      | assumption | apply Kept.refl | apply Kept.fold | apply Kept.step (State.sendHub_kept ..)
      | fail_if_no_progress refine Kept.madeCascade e24 ?_

theorem State.addTally_kept (s : State) (kind b unit resource : Nat) : Kept 0x2000000 s (State.addTally s kind b unit resource) := by
  have e25 : Nat.land 0x2000000 0x2000000 = 0x2000000 := rfl
  unfold State.addTally
  try dsimp only
  repeat' first
    | exact (rfl : Nat.land _ _ = _)
    | with_reducible first
      | assumption | apply Kept.refl | fail_if_no_progress refine Kept.madeRecovery e25 ?_

theorem State.endTally_kept (s : State) (kind b resource : Nat) : Kept 0x2000000 s (State.endTally s kind b resource) := by
  have e25 : Nat.land 0x2000000 0x2000000 = 0x2000000 := rfl
  unfold State.endTally
  try dsimp only
  repeat' first
    | exact (rfl : Nat.land _ _ = _)
    | with_reducible first
      | assumption | apply Kept.refl | fail_if_no_progress refine Kept.madeRecovery e25 ?_

theorem State.endTallies_kept (s : State) (b : Nat) (kinds : List Nat) : Kept 0x2000000 s (State.endTallies s b kinds) := by
  have e25 : Nat.land 0x2000000 0x2000000 = 0x2000000 := rfl
  unfold State.endTallies
  try dsimp only
  repeat' first
    | exact (rfl : Nat.land _ _ = _)
    | with_reducible first
      | assumption | apply Kept.refl | fail_if_no_progress refine Kept.madeRecovery e25 ?_

theorem State.breakTallies_kept (s : State) (b : Nat) (kinds : List Nat) : Kept 0x2000000 s (State.breakTallies s b kinds) := by
  have e25 : Nat.land 0x2000000 0x2000000 = 0x2000000 := rfl
  unfold State.breakTallies
  try dsimp only
  repeat' first
    | exact (rfl : Nat.land _ _ = _)
    | with_reducible first
      | assumption | apply Kept.refl | fail_if_no_progress refine Kept.madeRecovery e25 ?_ | apply Kept.ite
    | dsimp only
    | split

theorem State.addDeadline_kept (s : State) (k : DeadlineKind) (t : BitVec 64) : Kept 0x2 s (State.addDeadline s k t) := by
  have e1 : Nat.land 0x2 0x2 = 0x2 := rfl
  unfold State.addDeadline
  try dsimp only
  repeat' first
    | exact (rfl : Nat.land _ _ = _)
    | with_reducible first
      | assumption | apply Kept.refl | fail_if_no_progress refine Kept.madeHearth e1 ?_ | apply Kept.ite
    | dsimp only
    | split

theorem State.cancelDeadline_kept (s : State) (k : DeadlineKind) : Kept 0x2 s (State.cancelDeadline s k) := by
  have e1 : Nat.land 0x2 0x2 = 0x2 := rfl
  unfold State.cancelDeadline
  try dsimp only
  repeat' first
    | exact (rfl : Nat.land _ _ = _)
    | with_reducible first
      | assumption | apply Kept.refl | fail_if_no_progress refine Kept.madeHearth e1 ?_

theorem State.egress_kept (s : State) (p f b size capped : Nat) (o : Out) : Kept 0x4 s (State.egress s p f b size capped o) := by
  unfold State.egress
  try dsimp only
  repeat' first
    | exact (rfl : Nat.land _ _ = _)
    | with_reducible first
      | assumption | apply Kept.refl | apply Kept.step (State.modPort_kept ..)

theorem State.egressData_kept (s : State) (p f b size : Nat) (o : Out) : Kept 0x4 s (State.egressData s p f b size o) := by
  unfold State.egressData
  try dsimp only
  repeat' first
    | exact (rfl : Nat.land _ _ = _)
    | with_reducible first
      | assumption | apply Kept.refl | apply Kept.step (State.modPort_kept ..)

theorem State.egressRead_kept (s : State) (b : Nat) (owner : TagOwner) (o : Out) : Kept 0x4 s (State.egressRead s b owner o) := by
  unfold State.egressRead
  try dsimp only
  repeat' first
    | exact (rfl : Nat.land _ _ = _)
    | with_reducible first
      | assumption | apply Kept.refl | apply Kept.step (State.modPort_kept ..)

theorem State.benchWrite_kept (s : State) (b addr : Nat) (attr : TlpAttr) (data : List Byte) : Kept 0x4 s (State.benchWrite s b addr attr data) := by
  unfold State.benchWrite
  try dsimp only
  repeat' first
    | exact (rfl : Nat.land _ _ = _)
    | with_reducible first
      | assumption | apply Kept.refl | apply Kept.step (State.egress_kept ..)

theorem State.egressNotice_kept (s : State) (b : Nat) (last : Bool) (addr : Nat) (data : List Byte) :
    Kept 0x4 s (State.egressNotice s b last addr data) := by
  unfold State.egressNotice
  try dsimp only
  repeat' first
    | exact (rfl : Nat.land _ _ = _)
    | with_reducible first
      | assumption | apply Kept.refl | apply Kept.step (State.modPort_kept ..)

theorem State.flushRead_kept (s : State) (b : Nat) (owner : TagOwner) (translated : Bool) (addr : Nat) :
    Kept 0x4 s (State.flushRead s b owner translated addr) := by
  unfold State.flushRead
  try dsimp only
  repeat' first
    | exact (rfl : Nat.land _ _ = _)
    | with_reducible first
      | assumption | apply Kept.refl | apply Kept.step (State.egressRead_kept ..)

theorem State.readFrom_kept (s : State) (p f : Nat) (attr : TlpAttr) (fuel addr n : Nat) : Kept 0x100000000 s (State.readFrom s p f attr fuel addr n) := by
  induction fuel generalizing s addr n with
  | zero => exact .refl _ _
  | succ k ih =>
    unfold State.readFrom
    exact .ite (.refl _ _) ((State.emit_kept ..).trans (ih ..))

theorem State.readHost_kept (s : State) (b : Nat) (attr : TlpAttr) (fuel addr n : Nat) :
    Kept 0x100000000 s (State.readHost s b attr fuel addr n) := by
  unfold State.readHost
  try dsimp only
  repeat' first
    | exact (rfl : Nat.land _ _ = _)
    | with_reducible first
      | assumption | apply Kept.refl | apply Kept.step (State.readFrom_kept ..)

theorem State.tagOut_kept (s : State) (p : Nat) (t : EgressTlp) : Kept 0x4 s (State.tagOut s p t).2 := by
  unfold State.tagOut
  try dsimp only
  repeat' first
    | exact (rfl : Nat.land _ _ = _)
    | (intro _; try dsimp only)
    | with_reducible first
      | assumption | apply Kept.refl | apply Kept.mapGetD | apply Kept.step (State.modPort_kept ..)
    | dsimp only
    | split

theorem State.freeTag_kept (s : State) (p t : Nat) : Kept 0x4 s (State.freeTag s p t) := by
  unfold State.freeTag
  try dsimp only
  repeat' first
    | exact (rfl : Nat.land _ _ = _)
    | with_reducible first
      | assumption | apply Kept.refl | apply Kept.step (State.modPort_kept ..)

theorem State.aer_kept (s : State) (p f : Nat) (e : AerError) : Kept 0x100000008 s (State.aer s p f e) := by
  unfold State.aer
  try dsimp only
  repeat' first
    | exact (rfl : Nat.land _ _ = _)
    | with_reducible first
      | assumption | apply Kept.refl | apply Kept.step (State.modFn_kept ..) | apply Kept.step (State.emit_kept ..)

theorem State.sendVector_kept (s : State) (b v : Nat) : Kept 0x24 s (State.sendVector s b v) := by
  unfold State.sendVector
  try dsimp only
  repeat' first
    | exact (rfl : Nat.land _ _ = _)
    | with_reducible first
      | assumption | apply Kept.refl | apply Kept.step (State.modBench_kept ..) | apply Kept.step (State.egress_kept ..) | apply Kept.ite
    | dsimp only
    | split

theorem State.fireVector_kept (s : State) (b v : Nat) : Kept 0x24 s (State.fireVector s b v) := by
  unfold State.fireVector
  try dsimp only
  repeat' first
    | exact (rfl : Nat.land _ _ = _)
    | with_reducible first
      | assumption | apply Kept.refl | apply Kept.step (State.modBench_kept ..) | apply Kept.step (State.sendVector_kept ..)
      | apply Kept.ite
    | dsimp only
    | split

theorem State.flushVector_kept (s : State) (b v : Nat) : Kept 0x24 s (State.flushVector s b v) := by
  unfold State.flushVector
  try dsimp only
  repeat' first
    | exact (rfl : Nat.land _ _ = _)
    | with_reducible first
      | assumption | apply Kept.refl | apply Kept.step (State.modBench_kept ..) | apply Kept.step (State.fireVector_kept ..)
      | apply Kept.ite
    | dsimp only
    | split

theorem State.flushVectors_kept (s : State) (b : Nat) : Kept 0x24 s (State.flushVectors s b) := by
  unfold State.flushVectors
  try dsimp only
  repeat' first
    | exact (rfl : Nat.land _ _ = _)
    | (intro _; try dsimp only)
    | with_reducible first
      | assumption | apply Kept.refl | apply Kept.fold | apply Kept.step (State.flushVector_kept ..)

theorem State.dropVectors_kept (s : State) (b : Nat) : Kept 0x20 s (State.dropVectors s b) := by
  unfold State.dropVectors
  try dsimp only
  repeat' first
    | exact (rfl : Nat.land _ _ = _)
    | with_reducible first
      | assumption | apply Kept.refl | apply Kept.step (State.modBench_kept ..)

theorem State.wakeHost_kept (s : State) (b : Nat) : Kept 0x4 s (State.wakeHost s b) := by
  unfold State.wakeHost
  try dsimp only
  repeat' first
    | exact (rfl : Nat.land _ _ = _)
    | with_reducible first
      | assumption | apply Kept.refl | apply Kept.step (State.modPort_kept ..) | apply Kept.ite
    | dsimp only
    | split

theorem State.notice_kept (s : State) (b type cause ring : Nat) (arg0 : BitVec 64) (arg1 : BitVec 32) (subject : Nat) :
    Kept 0x24 s (State.notice s b type cause ring arg0 arg1 subject) := by
  unfold State.notice
  try dsimp only
  repeat' first
    | exact (rfl : Nat.land _ _ = _)
    | with_reducible first
      | assumption | apply Kept.refl | apply Kept.step (State.modBench_kept ..) | apply Kept.step (State.wakeHost_kept ..)
      | apply Kept.ite
    | dsimp only
    | split

theorem State.setNotices_kept (s : State) (b : Nat) (on : Bool) : Kept 0x20 s (State.setNotices s b on) := by
  unfold State.setNotices
  try dsimp only
  repeat' first
    | exact (rfl : Nat.land _ _ = _)
    | with_reducible first
      | assumption | apply Kept.refl | apply Kept.step (State.modBench_kept ..) | apply Kept.step (State.countBench_kept ..)
      | apply Kept.ite
    | dsimp only
    | split

theorem State.putNoticeCtrl_kept (s : State) (b : Nat) (on : Bool) : Kept 0x20 s (State.putNoticeCtrl s b on) := by
  unfold State.putNoticeCtrl
  try dsimp only
  repeat' first
    | exact (rfl : Nat.land _ _ = _)
    | with_reducible first
      | assumption | apply Kept.refl | apply Kept.step (State.modBench_kept ..) | apply Kept.step (State.setNotices_kept ..)
      | apply Kept.ite
    | dsimp only
    | split

theorem State.settleNotices_kept (s : State) (b : Nat) : Kept 0x20 s (State.settleNotices s b) := by
  unfold State.settleNotices
  try dsimp only
  repeat' first
    | exact (rfl : Nat.land _ _ = _)
    | with_reducible first
      | assumption | apply Kept.refl | apply Kept.step (State.setNotices_kept ..) | apply Kept.ite
    | dsimp only
    | split

theorem State.unwriteNotices_kept (s : State) (p : Nat) (f : EgressTlp → Bool) : Kept 0x24 s (State.unwriteNotices s p f) := by
  unfold State.unwriteNotices
  try dsimp only
  repeat' first
    | exact (rfl : Nat.land _ _ = _)
    | (intro _; try dsimp only)
    | with_reducible first
      | assumption | apply Kept.refl | apply Kept.fold | apply Kept.step (State.modPort_kept ..)
      | apply Kept.step (State.settleNotices_kept ..)

theorem State.noticeDone_kept (s : State) (b : Nat) : Kept 0x24 s (State.noticeDone s b) := by
  unfold State.noticeDone
  try dsimp only
  repeat' first
    | exact (rfl : Nat.land _ _ = _)
    | with_reducible first
      | assumption | apply Kept.refl | apply Kept.step (State.modBench_kept ..) | apply Kept.step (State.fireVector_kept ..)
      | apply Kept.step (State.settleNotices_kept ..) | apply Kept.ite
    | dsimp only
    | split

theorem State.addFault_kept (s : State) (c : FaultCause) : Kept 0x2000000 s (State.addFault s c) := by
  have e25 : Nat.land 0x2000000 0x2000000 = 0x2000000 := rfl
  unfold State.addFault
  try dsimp only
  repeat' first
    | exact (rfl : Nat.land _ _ = _)
    | with_reducible first
      | assumption | apply Kept.refl | fail_if_no_progress refine Kept.madeRecovery e25 ?_ | apply Kept.ite
    | dsimp only
    | split

theorem State.endFault_kept (s : State) (c : FaultCause) : Kept 0x2000000 s (State.endFault s c) := by
  have e25 : Nat.land 0x2000000 0x2000000 = 0x2000000 := rfl
  unfold State.endFault
  try dsimp only
  repeat' first
    | exact (rfl : Nat.land _ _ = _)
    | with_reducible first
      | assumption | apply Kept.refl | fail_if_no_progress refine Kept.madeRecovery e25 ?_

theorem State.logEntry_kept (s : State) (cls code : Nat) (fault : Bool) (arg0 arg1 : BitVec 64) :
    Kept 0x2000024 s (State.logEntry s cls code fault arg0 arg1) := by
  have e25 : Nat.land 0x2000000 0x2000024 = 0x2000000 := rfl
  unfold State.logEntry
  try dsimp only
  repeat' first
    | exact (rfl : Nat.land _ _ = _)
    | with_reducible first
      | assumption | apply Kept.refl | apply Kept.step (State.notice_kept ..) | fail_if_no_progress refine Kept.madeRecovery e25 ?_

theorem State.logError_kept (s : State) (cls code : Nat) (arg0 arg1 : BitVec 64) : Kept 0x2000024 s (State.logError s cls code arg0 arg1) := by
  unfold State.logError
  try dsimp only
  repeat' first
    | exact (rfl : Nat.land _ _ = _)
    | with_reducible first
      | assumption | apply Kept.refl | apply Kept.step (State.logEntry_kept ..)

theorem State.logFault_kept (s : State) (cls code : Nat) (arg0 arg1 : BitVec 64) : Kept 0x2000024 s (State.logFault s cls code arg0 arg1) := by
  unfold State.logFault
  try dsimp only
  repeat' first
    | exact (rfl : Nat.land _ _ = _)
    | with_reducible first
      | assumption | apply Kept.refl | apply Kept.step (State.addFault_kept ..) | apply Kept.step (State.logEntry_kept ..)

theorem State.logCause_kept (s : State) (cls code : Nat) (c : FaultCause) (arg0 arg1 : BitVec 64) :
    Kept 0x2000024 s (State.logCause s cls code c arg0 arg1) := by
  unfold State.logCause
  try dsimp only
  repeat' first
    | exact (rfl : Nat.land _ _ = _)
    | with_reducible first
      | assumption | apply Kept.refl | apply Kept.step (State.addFault_kept ..) | apply Kept.step (State.logEntry_kept ..)

theorem State.markRead_kept (s : State) (q : BitVec 32) : Kept 0x2000000 s (State.markRead s q) := by
  have e25 : Nat.land 0x2000000 0x2000000 = 0x2000000 := rfl
  unfold State.markRead
  try dsimp only
  repeat' first
    | exact (rfl : Nat.land _ _ = _)
    | (intro _; try dsimp only)
    | with_reducible first
      | assumption | apply Kept.refl | apply Kept.mapGetD | apply Kept.step (State.endFault_kept ..)
      | fail_if_no_progress refine Kept.madeRecovery e25 ?_ | apply Kept.ite
    | dsimp only
    | split

theorem State.logLedgerUe_kept (s : State) (spa : BitVec 64) : Kept 0x2000024 s (State.logLedgerUe s spa) := by
  unfold State.logLedgerUe
  try dsimp only
  repeat' first
    | exact (rfl : Nat.land _ _ = _)
    | with_reducible first
      | assumption | apply Kept.refl | apply Kept.step (State.logError_kept ..)

theorem State.logLoad_kept (s : State) (code detail : Nat) (spa : BitVec 64) : Kept 0x2000024 s (State.logLoad s code detail spa) := by
  unfold State.logLoad
  try dsimp only
  repeat' first
    | exact (rfl : Nat.land _ _ = _)
    | with_reducible first
      | assumption | apply Kept.refl | apply Kept.step (State.logLedgerUe_kept ..) | apply Kept.ite
    | dsimp only
    | split

theorem State.clearMarks_kept (s : State) (k n : Nat) : Kept 0x2000000 s (State.clearMarks s k n) := by
  have e25 : Nat.land 0x2000000 0x2000000 = 0x2000000 := rfl
  unfold State.clearMarks
  try dsimp only
  repeat' first
    | exact (rfl : Nat.land _ _ = _)
    | with_reducible first
      | assumption | apply Kept.refl | fail_if_no_progress refine Kept.madeRecovery e25 ?_

theorem State.arbitrate_kept (s : State) (k : Nat) (waiting : List Nat) : Kept 0x1000 s (State.arbitrate s k waiting).2 := by
  have e12 : Nat.land 0x1000 0x1000 = 0x1000 := rfl
  unfold State.arbitrate
  try dsimp only
  repeat' first
    | exact (rfl : Nat.land _ _ = _)
    | with_reducible first
      | assumption | apply Kept.refl | fail_if_no_progress refine Kept.madeCharges e12 ?_

theorem State.charge_kept (s : State) (k b size weight : Nat) : Kept 0x1000 s (State.charge s k b size weight) := by
  have e12 : Nat.land 0x1000 0x1000 = 0x1000 := rfl
  unfold State.charge
  try dsimp only
  repeat' first
    | exact (rfl : Nat.land _ _ = _)
    | with_reducible first
      | assumption | apply Kept.refl | fail_if_no_progress refine Kept.madeCharges e12 ?_

theorem State.leaveArbiters_kept (s : State) (b : Nat) : Kept 0x601000 s (State.leaveArbiters s b) := by
  have e12 : Nat.land 0x1000 0x601000 = 0x1000 := rfl
  have e21 : Nat.land 0x200000 0x601000 = 0x200000 := rfl
  have e22 : Nat.land 0x400000 0x601000 = 0x400000 := rfl
  unfold State.leaveArbiters
  try dsimp only
  repeat' first
    | exact (rfl : Nat.land _ _ = _)
    | with_reducible first
      | assumption | apply Kept.refl | fail_if_no_progress refine Kept.madeChargesDenseLattice e12 e21 e22 ?_

theorem State.nextPort_kept (s : State) (d : Nat) : Kept 0x1000 s (State.nextPort s d).2 := by
  unfold State.nextPort
  try dsimp only
  repeat' first
    | exact (rfl : Nat.land _ _ = _)
    | with_reducible first
      | assumption | apply Kept.refl | apply Kept.step (State.arbitrate_kept ..)
      | apply Kept.step (Kept.pair (by assumption) (State.arbitrate_kept ..)) | apply Kept.ite
    | dsimp only
    | split

theorem State.grantPort_kept (s : State) (d : Nat) (q : PortReq) (reserved : Bool) : Kept 0x120009000 s (State.grantPort s d q reserved) := by
  unfold State.grantPort
  try dsimp only
  repeat' first
    | exact (rfl : Nat.land _ _ = _)
    | with_reducible first
      | assumption | apply Kept.refl | apply Kept.step (State.modDie_kept ..) | apply Kept.step (State.sendDie_kept ..)
      | apply Kept.step (State.charge_kept ..) | apply Kept.ite
    | dsimp only
    | split

theorem State.pumpPort_kept (s : State) (d n : Nat) : Kept 0x120009000 s (State.pumpPort s d n) := by
  induction n generalizing s with
  | zero => exact .refl _ _
  | succ k ih =>
    unfold State.pumpPort
    split
    · exact (Kept.pair (by assumption) (State.nextPort_kept ..)).mono rfl
    · exact (((Kept.pair (by assumption) (State.nextPort_kept ..)).mono rfl).trans ((State.grantPort_kept ..).mono rfl)).trans (ih ..)

theorem State.askDie_kept (s : State) (d : Nat) (bench : Option Nat) (core : Bool) (m : DieMsg) :
    Kept 0x120009000 s (State.askDie s d bench core m) := by
  unfold State.askDie
  try dsimp only
  repeat' first
    | exact (rfl : Nat.land _ _ = _)
    | with_reducible first
      | assumption | apply Kept.refl | apply Kept.step (State.modDie_kept ..) | apply Kept.step (State.pumpPort_kept ..)
    | dsimp only
    | split

theorem State.portDone_kept (s : State) (k : PortKey) : Kept 0x120009000 s (State.portDone s k) := by
  unfold State.portDone
  try dsimp only
  repeat' first
    | exact (rfl : Nat.land _ _ = _)
    | with_reducible first
      | assumption | apply Kept.refl | apply Kept.step (State.modDie_kept ..) | apply Kept.step (State.pumpPort_kept ..)
    | dsimp only
    | split

theorem State.modDebug_kept (s : State) (f : Debug → Debug) (hf : ∀ x, (f x).level = x.level) : Kept 0x10000000 s (State.modDebug s f) :=
  (Kept.refl _ s).madeDebug (hf _) rfl

theorem State.traceTo_kept (s : State) (o b ring event : Nat) (desc : BitVec 32) (arg0 : BitVec 64) (arg1 : BitVec 32) :
    Kept 0x24 s (State.traceTo s o b ring event desc arg0 arg1) := by
  unfold State.traceTo
  try dsimp only
  repeat' first
    | exact (rfl : Nat.land _ _ = _)
    | with_reducible first
      | assumption | apply Kept.refl | apply Kept.step (State.modBench_kept ..) | apply Kept.step (State.egress_kept ..) | apply Kept.ite
    | dsimp only
    | split

theorem State.trace_kept (s : State) (b ring event : Nat) (desc : BitVec 32) (arg0 : BitVec 64) (arg1 : BitVec 32) :
    Kept 0x24 s (State.trace s b ring event desc arg0 arg1) := by
  unfold State.trace
  try dsimp only
  repeat' first
    | exact (rfl : Nat.land _ _ = _)
    | with_reducible first
      | assumption | apply Kept.refl | apply Kept.step (State.traceTo_kept ..) | apply Kept.ite
    | dsimp only
    | split

theorem State.rateCharge_kept (s : State) (b n : Nat) : Kept 0x20 s (State.rateCharge s b n) := by
  unfold State.rateCharge
  try dsimp only
  repeat' first
    | exact (rfl : Nat.land _ _ = _)
    | with_reducible first
      | assumption | apply Kept.refl | apply Kept.step (State.modBench_kept ..) | apply Kept.ite
    | dsimp only
    | split

end Sys2Proof.Machine
end

