-- ==== Sys2Proof/Laws/Kept/BenchOps.lean ====
section
/-!
SUPPORT. What the operations and commands of Machine/BenchOps.lean keep.
-/

namespace Sys2Proof.Machine

theorem State.formReserve_kept (s : State) (b cls p f rings : Nat) (limits : Limits) (bar2 : Nat) (keep : Bool) :
    Kept 0x2000020 s (State.formReserve s b cls p f rings limits bar2 keep) := by
  unfold State.formReserve
  try dsimp only
  repeat' first
    | exact (rfl : Nat.land _ _ = _)
    | (intro _; try dsimp only)
    | with_reducible first
      | assumption | apply Kept.refl | apply Kept.fold | apply Kept.mapGetD | apply Kept.step (State.setBench_kept ..)
      | apply Kept.step (State.addTally_kept ..) | apply Kept.ite
    | dsimp only
    | split

theorem State.startDeadline_kept (s : State) (b : Nat) : Kept 0x22 s (State.startDeadline s b) := by
  unfold State.startDeadline
  try dsimp only
  repeat' first
    | exact (rfl : Nat.land _ _ = _)
    | with_reducible first
      | assumption | apply Kept.refl | apply Kept.step (State.modBench_kept ..) | apply Kept.step (State.addDeadline_kept ..)
      | apply Kept.ite
    | dsimp only
    | split

theorem State.formFinish_kept (s : State) (b : Nat) : Kept 0x80002020 s (State.formFinish s b) := by
  have e13 : Nat.land 0x2000 0x80002020 = 0x2000 := rfl
  unfold State.formFinish
  try dsimp only
  repeat' first
    | exact (rfl : Nat.land _ _ = _)
    | with_reducible first
      | assumption | apply Kept.refl | apply Kept.step (State.modBench_kept ..) | apply Kept.step (State.draw_kept ..)
      | apply Kept.step (Kept.pair (by assumption) (State.draw_kept ..)) | fail_if_no_progress refine Kept.madeHeadstock e13 ?_
      | apply Kept.ite
    | dsimp only
    | split

theorem State.formBench0_kept (s : State) : Kept 0x82002020 s (State.formBench0 s) := by
  unfold State.formBench0
  try dsimp only
  repeat' first
    | exact (rfl : Nat.land _ _ = _)
    | with_reducible first
      | assumption | apply Kept.refl | apply Kept.step (State.formReserve_kept ..) | apply Kept.step (State.formFinish_kept ..)
      | apply Kept.step (State.modBench_kept ..)
    | dsimp only
    | split

theorem State.acceptCommand_kept (s : State) (code : Nat) (run : State → BenchArg → State) {M : Nat} (hm : Nat.land 0x13 M = 0x13) (hf : ∀ s x, Kept M s (run s x)) :
    Kept M s (State.acceptCommand s code run) := by
  have e4 : Nat.land 0x10 M = 0x10 := land_trans (k := 0x13) rfl hm
  unfold State.acceptCommand
  try dsimp only
  repeat' first
    | exact (rfl : Nat.land _ _ = _)
    | exact land_trans (k := 0x13) rfl hm
    | with_reducible first
      | assumption | apply Kept.refl | apply Kept.then (hf ..) | apply Kept.step (State.stir_kept ..)
      | apply Kept.step (State.countHub_kept ..) | fail_if_no_progress refine Kept.madeMailbox e4 ?_ | apply Kept.ite
    | dsimp only
    | split

theorem State.commandDone_kept (s : State) : Kept 0x24 s (State.commandDone s) := by
  unfold State.commandDone
  try dsimp only
  repeat' first
    | exact (rfl : Nat.land _ _ = _)
    | with_reducible first
      | assumption | apply Kept.refl | apply Kept.step (State.notice_kept ..)

theorem State.endCommand_kept (s : State) (result : Nat) (token : BitVec 64) : Kept 0x34 s (State.endCommand s result token) := by
  have e4 : Nat.land 0x10 0x34 = 0x10 := rfl
  unfold State.endCommand
  try dsimp only
  repeat' first
    | exact (rfl : Nat.land _ _ = _)
    | with_reducible first
      | assumption | apply Kept.refl | apply Kept.step (State.commandDone_kept ..) | apply Kept.step (State.modBench_kept ..)
      | fail_if_no_progress refine Kept.madeMailbox e4 ?_ | apply Kept.ite
    | dsimp only
    | split

end Sys2Proof.Machine
end

