-- ==== Sys2Proof/Laws/Kept/ImageOps.lean ====
section
/-!
SUPPORT. What the operations and commands of Machine/ImageOps.lean keep.
-/

namespace Sys2Proof.Machine

theorem State.slotResult_kept (s : State) (slotB : Bool) (r : SlotResult) : Kept 0x1 s (State.slotResult s slotB r) := by
  have e0 : Nat.land 0x1 0x1 = 0x1 := rfl
  unfold State.slotResult
  try dsimp only
  repeat' first
    | exact (rfl : Nat.land _ _ = _)
    | with_reducible first
      | assumption | apply Kept.refl | fail_if_no_progress refine Kept.madeChip rfl rfl rfl e0 ?_

theorem State.tryBist_kept (s : State) : Kept 0x3 s (State.tryBist s) := by
  have e0 : Nat.land 0x1 0x3 = 0x1 := rfl
  unfold State.tryBist
  try dsimp only
  repeat' first
    | exact (rfl : Nat.land _ _ = _)
    | (intro _; try dsimp only)
    | with_reducible first
      | assumption | apply Kept.refl | apply Kept.fold | apply Kept.step (State.modDomain_kept ..)
      | fail_if_no_progress refine Kept.madeChip rfl rfl rfl e0 ?_ | apply Kept.ite
    | dsimp only
    | split

theorem State.spi_kept (s : State) (x4 : Bool) (khz addr length : Nat) : Kept 0x100000000 s (State.spi s x4 khz addr length) := by
  unfold State.spi
  try dsimp only
  repeat' first
    | exact (rfl : Nat.land _ _ = _)
    | with_reducible first
      | assumption | apply Kept.refl | apply Kept.step (State.emit_kept ..) | apply Kept.ite
    | dsimp only
    | split

theorem State.readSfdp_kept (s : State) : Kept 0x100000000 s (State.readSfdp s) := by
  unfold State.readSfdp
  try dsimp only
  repeat' first
    | exact (rfl : Nat.land _ _ = _)
    | with_reducible first
      | assumption | apply Kept.refl | apply Kept.step (State.emit_kept ..)

theorem State.readHeaders_kept (s : State) : Kept 0x100000000 s (State.readHeaders s) := by
  unfold State.readHeaders
  try dsimp only
  repeat' first
    | exact (rfl : Nat.land _ _ = _)
    | (intro _; try dsimp only)
    | with_reducible first
      | assumption | apply Kept.refl | apply Kept.fold | apply Kept.step (State.spi_kept ..) | apply Kept.ite
    | dsimp only
    | split

theorem State.readBody_kept (s : State) (slotB : Bool) (h : SlotHeader) : Kept 0x100000001 s (State.readBody s slotB h) := by
  have e0 : Nat.land 0x1 0x100000001 = 0x1 := rfl
  unfold State.readBody
  try dsimp only
  repeat' first
    | exact (rfl : Nat.land _ _ = _)
    | with_reducible first
      | assumption | apply Kept.refl | apply Kept.step (State.spi_kept ..) | apply Kept.step (State.emit_kept ..)
      | fail_if_no_progress refine Kept.madeChip rfl rfl rfl e0 ?_ | apply Kept.ite
    | dsimp only
    | split

theorem State.applyDefaults_kept (s : State) (reason : BitVec 3) : Kept 0x3 s (State.applyDefaults s reason) := by
  have e0 : Nat.land 0x1 0x3 = 0x1 := rfl
  unfold State.applyDefaults
  try dsimp only
  repeat' first
    | exact (rfl : Nat.land _ _ = _)
    | with_reducible first
      | assumption | apply Kept.refl | apply Kept.step (State.tryBist_kept ..)
      | fail_if_no_progress refine Kept.madeChip rfl rfl rfl e0 ?_ | apply Kept.ite
    | dsimp only
    | split

theorem State.applySlot_kept (s : State) (slotB : Bool) (h : SlotHeader) (slot : List Byte) : Kept 0x80000003 s (State.applySlot s slotB h slot) := by
  have e0 : Nat.land 0x1 0x80000003 = 0x1 := rfl
  unfold State.applySlot
  try dsimp only
  repeat' first
    | exact (rfl : Nat.land _ _ = _)
    | with_reducible first
      | assumption | apply Kept.refl | apply Kept.step (State.tryBist_kept ..) | apply Kept.step (State.draw_kept ..)
      | apply Kept.step (Kept.pair (by assumption) (State.draw_kept ..)) | fail_if_no_progress refine Kept.madeChip rfl rfl rfl e0 ?_
      | apply Kept.ite
    | dsimp only
    | split

theorem State.nextSlot_kept (s : State) : Kept 0x100000003 s (State.nextSlot s) := by
  unfold State.nextSlot
  try dsimp only
  repeat' first
    | exact (rfl : Nat.land _ _ = _)
    | with_reducible first
      | assumption | apply Kept.refl | apply Kept.step (State.readBody_kept ..) | apply Kept.step (State.applyDefaults_kept ..)
      | apply Kept.ite
    | dsimp only
    | split

end Sys2Proof.Machine
end

