-- ==== Sys2Proof/Laws/Kept/RestartOps.lean ====
section
/-!
SUPPORT. What the operations and commands of Machine/RestartOps.lean keep.
-/

namespace Sys2Proof.Machine

theorem Debug.afterTeardown_level (d : Debug) : d.afterTeardown.level = d.level := by
  unfold Debug.afterTeardown
  dsimp only
  repeat' split
  all_goals rfl

theorem State.teardown_kept (s : State) (source : BitVec 4) (w : RestartWait) : Kept 0xdffffffff s (State.teardown s source w) :=
  ⟨rfl, rfl, rfl, Debug.afterTeardown_level _, fun _ => rfl, List.prefix_refl _, Nat.le_refl _, by
    intro p k
    cases p with
    | out | draws | straps => rfl
    | _ => exact absurd k (by decide)⟩

theorem State.unstageHub_kept (s : State) : Kept 0x1 s (State.unstageHub s) := by
  have e0 : Nat.land 0x1 0x1 = 0x1 := rfl
  unfold State.unstageHub
  try dsimp only
  repeat' first
    | exact (rfl : Nat.land _ _ = _)
    | with_reducible first
      | assumption | apply Kept.refl | fail_if_no_progress refine Kept.madeChip rfl rfl rfl e0 ?_

theorem State.fromMgmt_kept (s : State) (f : State → State) {M : Nat} (hm : Nat.land 0x1 M = 0x1) (hf : ∀ s, Kept M s (f s)) :
    Kept M s (State.fromMgmt s f) := by
  unfold State.fromMgmt
  try dsimp only
  repeat' first
    | exact (rfl : Nat.land _ _ = _)
    | exact land_trans (k := 0x1) rfl hm
    | with_reducible first
      | assumption | apply Kept.refl | apply Kept.then (hf ..) | apply Kept.step (State.countHub_kept ..)
      | apply Kept.step (State.unstageHub_kept ..) | apply Kept.ite
    | dsimp only
    | split

theorem State.tableServed_kept (s : State) (b : Nat) (f : State → State) {M : Nat} (hm : Nat.land 0x1 M = 0x1) (hf : ∀ s, Kept M s (f s)) :
    Kept M s (State.tableServed s b f) := by
  unfold State.tableServed
  try dsimp only
  repeat' first
    | exact (rfl : Nat.land _ _ = _)
    | exact land_trans (k := 0x1) rfl hm
    | with_reducible first
      | assumption | apply Kept.refl | apply Kept.then (hf ..) | apply Kept.step (State.countHub_kept ..) | apply Kept.ite
    | dsimp only
    | split

theorem State.resumeStart_kept (s : State) : Kept 0x1 s (State.resumeStart s) := by
  have e0 : Nat.land 0x1 0x1 = 0x1 := rfl
  unfold State.resumeStart
  try dsimp only
  repeat' first
    | exact (rfl : Nat.land _ _ = _)
    | with_reducible first
      | assumption | apply Kept.refl | fail_if_no_progress refine Kept.madeChip rfl rfl rfl e0 ?_

theorem State.pinDrive_kept (s : State) : Kept 0xdffffffff s (State.pinDrive s) := by
  have e28 : Nat.land 0x10000000 0xdffffffff = 0x10000000 := rfl
  unfold State.pinDrive
  try dsimp only
  repeat' first
    | exact (rfl : Nat.land _ _ = _)
    | with_reducible first
      | assumption | apply Kept.refl | apply Kept.step (State.addFault_kept ..) | apply Kept.step (State.teardown_kept ..)
      | fail_if_no_progress refine Kept.madeDebug rfl e28 ?_ | apply Kept.ite
    | dsimp only
    | split

theorem State.disableLinks_kept (s : State) : Kept 0x808000 s (State.disableLinks s) := by
  unfold State.disableLinks
  try dsimp only
  repeat' first
    | exact (rfl : Nat.land _ _ = _)
    | (intro _; try dsimp only)
    | with_reducible first
      | assumption | apply Kept.refl | apply Kept.fold | apply Kept.step (State.modDie_kept ..) | apply Kept.step (State.modEnvan_kept ..)
      | apply Kept.ite
    | dsimp only
    | split

theorem State.startEnvans_kept (s : State) : Kept 0x800000 s (State.startEnvans s) := by
  unfold State.startEnvans
  try dsimp only
  repeat' first
    | exact (rfl : Nat.land _ _ = _)
    | (intro _; try dsimp only)
    | with_reducible first
      | assumption | apply Kept.refl | apply Kept.fold | apply Kept.step (State.modEnvan_kept ..) | apply Kept.ite
    | dsimp only
    | split

theorem State.startDetect_kept (s : State) (p : Nat) : Kept 0x4 s (State.startDetect s p) := by
  unfold State.startDetect
  try dsimp only
  repeat' first
    | exact (rfl : Nat.land _ _ = _)
    | with_reducible first
      | assumption | apply Kept.refl | apply Kept.step (State.modPort_kept ..) | apply Kept.ite
    | dsimp only
    | split

theorem State.bistStop_kept (s : State) (unit : BitVec 4) : Kept 0x1 s (State.bistStop s unit) := by
  have e0 : Nat.land 0x1 0x1 = 0x1 := rfl
  unfold State.bistStop
  try dsimp only
  repeat' first
    | exact (rfl : Nat.land _ _ = _)
    | with_reducible first
      | assumption | apply Kept.refl | fail_if_no_progress refine Kept.madeChip rfl rfl rfl e0 ?_

theorem State.bistApply_kept (s : State) (r : BistResult) : Kept 0x2e0a204 s (State.bistApply s r) := by
  have e13 : Nat.land 0x2000 0x2e0a204 = 0x2000 := rfl
  have e21 : Nat.land 0x200000 0x2e0a204 = 0x200000 := rfl
  have e22 : Nat.land 0x400000 0x2e0a204 = 0x400000 := rfl
  unfold State.bistApply
  try dsimp only
  repeat' first
    | exact (rfl : Nat.land _ _ = _)
    | (intro _; try dsimp only)
    | with_reducible first
      | assumption | apply Kept.refl | apply Kept.fold | apply Kept.step (State.modPort_kept ..)
      | apply Kept.step (State.modLathe_kept ..) | apply Kept.step (State.modDie_kept ..) | apply Kept.step (State.modEnvan_kept ..)
      | apply Kept.step (State.modWhittler_kept ..) | fail_if_no_progress refine Kept.madeHeadstockDenseLattice e13 e21 e22 ?_

end Sys2Proof.Machine
end

