-- ==== Sys2Proof/Laws/Kept/HearthOps.lean ====
section
/-!
SUPPORT. What the operations and commands of Machine/HearthOps.lean keep.
-/

namespace Sys2Proof.Machine

theorem State.tick_kept (s : State) : Kept 0x80000022 s (State.tick s) := by
  unfold State.tick
  split
  · exact .refl _ _
  · refine ⟨rfl, rfl, rfl, rfl, id, List.prefix_refl _, ?_, ?_⟩
    · show s.draws ≤ if s.hearth.refLost then s.draws + 1 else s.draws
      split
      · exact Nat.le_succ _
      · exact Nat.le_refl _
    · intro p k
      cases p with
      | hearth | draws | benches => exact absurd k (by decide)
      | _ => rfl

theorem State.setTime_kept (s : State) (t : TimeState) (adj : Int) : Kept 0x1000002 s (State.setTime s t adj) := by
  have e1 : Nat.land 0x2 0x1000002 = 0x2 := rfl
  have e24 : Nat.land 0x1000000 0x1000002 = 0x1000000 := rfl
  unfold State.setTime
  try dsimp only
  repeat' first
    | exact (rfl : Nat.land _ _ = _)
    | with_reducible first
      | assumption | apply Kept.refl | fail_if_no_progress refine Kept.madeHearthCascade e1 e24 ?_

theorem State.freeTime_kept (s : State) : Kept 0x1000002 s (State.freeTime s) := by
  have e24 : Nat.land 0x1000000 0x1000002 = 0x1000000 := rfl
  unfold State.freeTime
  try dsimp only
  repeat' first
    | exact (rfl : Nat.land _ _ = _)
    | with_reducible first
      | assumption | apply Kept.refl | apply Kept.step (State.setTime_kept ..) | fail_if_no_progress refine Kept.madeCascade e24 ?_

theorem State.setRole_kept (s : State) (r : CascadeState) : Kept 0x1000002 s (State.setRole s r) := by
  have e24 : Nat.land 0x1000000 0x1000002 = 0x1000000 := rfl
  unfold State.setRole
  try dsimp only
  repeat' first
    | exact (rfl : Nat.land _ _ = _)
    | with_reducible first
      | assumption | apply Kept.refl | apply Kept.step (State.freeTime_kept ..) | fail_if_no_progress refine Kept.madeCascade e24 ?_

theorem State.abortGate_kept (s : State) (n : Nat) : Kept 0x2 s (State.abortGate s n) := by
  unfold State.abortGate
  try dsimp only
  repeat' first
    | exact (rfl : Nat.land _ _ = _)
    | with_reducible first
      | assumption | apply Kept.refl | apply Kept.step (State.modDomain_kept ..) | apply Kept.ite
    | dsimp only
    | split

theorem State.wakeOne_kept (s : State) (n : Nat) : Kept 0x2 s (State.wakeOne s n) := by
  unfold State.wakeOne
  try dsimp only
  repeat' first
    | exact (rfl : Nat.land _ _ = _)
    | with_reducible first
      | assumption | apply Kept.refl | apply Kept.step (State.abortGate_kept ..) | apply Kept.step (State.modDomain_kept ..)
      | apply Kept.ite
    | dsimp only
    | split

theorem State.wake_kept (s : State) (n : Nat) : Kept 0x2 s (State.wake s n) := by
  unfold State.wake
  try dsimp only
  repeat' first
    | exact (rfl : Nat.land _ _ = _)
    | (intro _; try dsimp only)
    | with_reducible first
      | assumption | apply Kept.refl | apply Kept.fold | apply Kept.step (State.wakeOne_kept ..)

theorem State.ownedBy_kept (s : State) (n : Nat) (f : State → State) {M : Nat} (hm : Nat.land 0x2 M = 0x2) (hf : ∀ s, Kept M s (f s)) :
    Kept M s (State.ownedBy s n f) := by
  unfold State.ownedBy
  try dsimp only
  repeat' first
    | exact (rfl : Nat.land _ _ = _)
    | exact land_trans (k := 0x2) rfl hm
    | with_reducible first
      | assumption | apply Kept.refl | apply Kept.then (hf ..) | apply Kept.step (State.wake_kept ..) | apply Kept.ite
    | dsimp only
    | split

theorem State.rouse_kept (s : State) (n : Nat) : Kept 0x2 s (State.rouse s n) := by
  unfold State.rouse
  try dsimp only
  repeat' first
    | exact (rfl : Nat.land _ _ = _)
    | with_reducible first
      | assumption | apply Kept.refl | apply Kept.step (State.wake_kept ..) | apply Kept.step (State.stir_kept ..) | apply Kept.ite
    | dsimp only
    | split

theorem State.setPorch_kept (s : State) (l : List PorchEntry) : Kept 0x2 s (State.setPorch s l) := by
  have e1 : Nat.land 0x2 0x2 = 0x2 := rfl
  unfold State.setPorch
  try dsimp only
  repeat' first
    | exact (rfl : Nat.land _ _ = _)
    | (intro _; try dsimp only)
    | with_reducible first
      | assumption | apply Kept.refl | apply Kept.fold | fail_if_no_progress refine Kept.madeHearth e1 ?_

theorem State.wakeFor_kept (s : State) (n : Nat) : Kept 0x2 s (State.wakeFor s n) := by
  unfold State.wakeFor
  try dsimp only
  repeat' first
    | exact (rfl : Nat.land _ _ = _)
    | with_reducible first
      | assumption | apply Kept.refl | apply Kept.step (State.wake_kept ..) | apply Kept.ite
    | dsimp only
    | split

theorem State.admitWithheld_kept (s : State) (l keep : List PorchEntry) : Kept 0x2 s (State.admitWithheld s l keep) := by
  induction l generalizing s keep with
  | nil => exact (Kept.refl _ s).madeHearth rfl
  | cons e r ih =>
    unfold State.admitWithheld
    split
    · exact (((State.setPorch_kept ..).mono rfl).trans ((State.wakeFor_kept ..).mono rfl)).trans (ih ..)
    · exact ih ..

theorem State.porchAdd_kept (s : State) (e : PorchEntry) : Kept 0x2 s (State.porchAdd s e).2 := by
  have e1 : Nat.land 0x2 0x2 = 0x2 := rfl
  unfold State.porchAdd
  try dsimp only
  repeat' first
    | exact (rfl : Nat.land _ _ = _)
    | with_reducible first
      | assumption | apply Kept.refl | apply Kept.step (State.setPorch_kept ..) | fail_if_no_progress refine Kept.madeHearth e1 ?_
      | apply Kept.ite
    | dsimp only
    | split

theorem State.atDomain_kept (s : State) (e : PorchEntry) (f : State → State) {M : Nat} (hm : Nat.land 0x2 M = 0x2) (hf : ∀ s, Kept M s (f s)) :
    Kept M s (State.atDomain s e f) := by
  have e1 : Nat.land 0x2 M = 0x2 := land_trans (k := 0x2) rfl hm
  unfold State.atDomain
  try dsimp only
  repeat' first
    | exact (rfl : Nat.land _ _ = _)
    | exact land_trans (k := 0x2) rfl hm
    | with_reducible first
      | assumption | apply Kept.refl | apply Kept.then (hf ..) | apply Kept.step (State.abortGate_kept ..)
      | apply Kept.step (State.wake_kept ..) | apply Kept.step (State.porchAdd_kept ..)
      | apply Kept.step (Kept.pair (by assumption) (State.porchAdd_kept ..)) | fail_if_no_progress refine Kept.madeHearth e1 ?_
      | apply Kept.ite
    | dsimp only
    | split

end Sys2Proof.Machine
end

