-- ==== Sys2Proof/Laws/Kept/HeadstockOps.lean ====
section
/-!
SUPPORT. What the operations and commands of Machine/HeadstockOps.lean keep.
-/

namespace Sys2Proof.Machine

theorem State.fillWalkCache_kept (s : State) (b va : Nat) : Kept 0x2000 s (State.fillWalkCache s b va) := by
  have e13 : Nat.land 0x2000 0x2000 = 0x2000 := rfl
  unfold State.fillWalkCache
  try dsimp only
  repeat' first
    | exact (rfl : Nat.land _ _ = _)
    | (intro _; try dsimp only)
    | with_reducible first
      | assumption | apply Kept.refl | apply Kept.fold | fail_if_no_progress refine Kept.madeHeadstock e13 ?_ | apply Kept.ite
    | dsimp only
    | split

theorem State.touch_kept (s : State) (e : CacheEntry) : Kept 0x2000 s (State.touch s e) := by
  have e13 : Nat.land 0x2000 0x2000 = 0x2000 := rfl
  unfold State.touch
  try dsimp only
  repeat' first
    | exact (rfl : Nat.land _ _ = _)
    | with_reducible first
      | assumption | apply Kept.refl | fail_if_no_progress refine Kept.madeHeadstock e13 ?_

theorem State.useEntry_kept (s : State) (b : Nat) (modeD : Bool) (pasid va : Nat) : Kept 0x20002000 s (State.useEntry s b modeD pasid va) := by
  unfold State.useEntry
  try dsimp only
  repeat' first
    | exact (rfl : Nat.land _ _ = _)
    | with_reducible first
      | assumption | apply Kept.refl | apply Kept.step (State.touch_kept ..) | apply Kept.step (State.countPerf_kept ..)
    | dsimp only
    | split

theorem State.pinFull_kept (s : State) (b dva : Nat) : Kept 0x2020 s (State.pinFull s b dva) := by
  have e13 : Nat.land 0x2000 0x2020 = 0x2000 := rfl
  unfold State.pinFull
  try dsimp only
  repeat' first
    | exact (rfl : Nat.land _ _ = _)
    | with_reducible first
      | assumption | apply Kept.refl | apply Kept.step (State.modBench_kept ..) | fail_if_no_progress refine Kept.madeHeadstock e13 ?_
      | apply Kept.ite
    | dsimp only
    | split

theorem State.install_kept (s : State) (e : CacheEntry) (low : Bool) : Kept 0x2020 s (State.install s e low) := by
  have e13 : Nat.land 0x2000 0x2020 = 0x2000 := rfl
  unfold State.install
  try dsimp only
  repeat' first
    | exact (rfl : Nat.land _ _ = _)
    | with_reducible first
      | assumption | apply Kept.refl | apply Kept.step (State.pinFull_kept ..) | fail_if_no_progress refine Kept.madeHeadstock e13 ?_
      | apply Kept.ite
    | dsimp only
    | split

theorem State.dropEntries_kept (s : State) (p : CacheEntry → Bool) : Kept 0x2000 s (State.dropEntries s p) := by
  have e13 : Nat.land 0x2000 0x2000 = 0x2000 := rfl
  unfold State.dropEntries
  try dsimp only
  repeat' first
    | exact (rfl : Nat.land _ _ = _)
    | with_reducible first
      | assumption | apply Kept.refl | fail_if_no_progress refine Kept.madeHeadstock e13 ?_

theorem State.request_kept (s : State) (b : Nat) (modeD : Bool) (pasid : Option Nat) (va : Nat) (write : Bool) (w : Waiter) :
    Kept 0x20002000 s (State.request s b modeD pasid va write w) := by
  have e13 : Nat.land 0x2000 0x20002000 = 0x2000 := rfl
  unfold State.request
  try dsimp only
  repeat' first
    | exact (rfl : Nat.land _ _ = _)
    | with_reducible first
      | assumption | apply Kept.refl | apply Kept.step (State.countPerf_kept ..) | fail_if_no_progress refine Kept.madeHeadstock e13 ?_
      | apply Kept.ite
    | dsimp only
    | split

theorem State.endMiss_kept (s : State) (m : Miss) : Kept 0x2002000 s (State.endMiss s m) := by
  have e13 : Nat.land 0x2000 0x2002000 = 0x2000 := rfl
  unfold State.endMiss
  try dsimp only
  repeat' first
    | exact (rfl : Nat.land _ _ = _)
    | with_reducible first
      | assumption | apply Kept.refl | apply Kept.step (State.endTally_kept ..) | fail_if_no_progress refine Kept.madeHeadstock e13 ?_
      | apply Kept.ite
    | dsimp only
    | split

theorem State.dropMisses_kept (s : State) (b : Nat) (p : Miss → Bool) : Kept 0x2000 s (State.dropMisses s b p) := by
  have e13 : Nat.land 0x2000 0x2000 = 0x2000 := rfl
  unfold State.dropMisses
  try dsimp only
  repeat' first
    | exact (rfl : Nat.land _ _ = _)
    | with_reducible first
      | assumption | apply Kept.refl | fail_if_no_progress refine Kept.madeHeadstock e13 ?_ | apply Kept.ite
    | dsimp only
    | split

theorem State.countAccess_kept (s : State) (b dva : Nat) : Kept 0x2020 s (State.countAccess s b dva) := by
  have e13 : Nat.land 0x2000 0x2020 = 0x2000 := rfl
  unfold State.countAccess
  try dsimp only
  repeat' first
    | exact (rfl : Nat.land _ _ = _)
    | (intro _; try dsimp only)
    | with_reducible first
      | assumption | apply Kept.refl | apply Kept.mapGetD | apply Kept.step (State.modBench_kept ..)
      | fail_if_no_progress refine Kept.madeHeadstock e13 ?_ | apply Kept.ite
    | dsimp only
    | split

theorem State.modPlacement_kept (s : State) (home b n : Nat) (f : Placement → Placement) : Kept 0x40000 s (State.modPlacement s home b n f) := by
  have e18 : Nat.land 0x40000 0x40000 = 0x40000 := rfl
  unfold State.modPlacement
  try dsimp only
  repeat' first
    | exact (rfl : Nat.land _ _ = _)
    | with_reducible first
      | assumption | apply Kept.refl | fail_if_no_progress refine Kept.madePlacements e18 ?_ | apply Kept.ite
    | dsimp only
    | split

end Sys2Proof.Machine
end

