-- ==== Sys2Proof/Laws/Kept/RingOps.lean ====
section
/-!
SUPPORT. What the operations and commands of Machine/RingOps.lean keep.
-/

namespace Sys2Proof.Machine

theorem State.modDesc_kept (s : State) (b r : Nat) (c : BitVec 32) (f : Desc → Desc) : Kept 0x20 s (State.modDesc s b r c f) := by
  unfold State.modDesc
  try dsimp only
  repeat' first
    | exact (rfl : Nat.land _ _ = _)
    | with_reducible first
      | assumption | apply Kept.refl | apply Kept.step (State.modRing_kept ..)

theorem State.traceRing_kept (s : State) (b r event arg1 : Nat) : Kept 0x24 s (State.traceRing s b r event arg1) := by
  unfold State.traceRing
  try dsimp only
  repeat' first
    | exact (rfl : Nat.land _ _ = _)
    | with_reducible first
      | assumption | apply Kept.refl | apply Kept.step (State.trace_kept ..)

theorem State.giveUp_kept (s : State) (b r reason : Nat) : Kept 0x2000224 s (State.giveUp s b r reason) := by
  unfold State.giveUp
  try dsimp only
  repeat' first
    | exact (rfl : Nat.land _ _ = _)
    | with_reducible first
      | assumption | apply Kept.refl | apply Kept.step (State.modRing_kept ..) | apply Kept.step (State.modLathe_kept ..)
      | apply Kept.step (State.endTally_kept ..) | apply Kept.step (State.trace_kept ..)
    | dsimp only
    | split

theorem State.chaffReads_kept (s : State) (b r : Nat) (c : BitVec 32) : Kept 0x200 s (State.chaffReads s b r c) := by
  have e9 : Nat.land 0x200 0x200 = 0x200 := rfl
  unfold State.chaffReads
  try dsimp only
  repeat' first
    | exact (rfl : Nat.land _ _ = _)
    | with_reducible first
      | assumption | apply Kept.refl | fail_if_no_progress refine Kept.madeLathes e9 ?_ | apply Kept.ite
    | dsimp only
    | split

theorem State.freeReorder_kept (s : State) (l : List Burst) : Kept 0x200 s (State.freeReorder s l) := by
  unfold State.freeReorder
  try dsimp only
  repeat' first
    | exact (rfl : Nat.land _ _ = _)
    | (intro _; try dsimp only)
    | with_reducible first
      | assumption | apply Kept.refl | apply Kept.fold | apply Kept.step (State.modLathe_kept ..)

theorem State.stopAtP_kept (s : State) (b r : Nat) (c : BitVec 32) : Kept 0x220 s (State.stopAtP s b r c) := by
  unfold State.stopAtP
  try dsimp only
  repeat' first
    | exact (rfl : Nat.land _ _ = _)
    | with_reducible first
      | assumption | apply Kept.refl | apply Kept.step (State.modDesc_kept ..) | apply Kept.step (State.chaffReads_kept ..)
      | apply Kept.step (State.freeReorder_kept ..)
    | dsimp only
    | split

theorem State.stopRing_kept (s : State) (b r : Nat) : Kept 0x220 s (State.stopRing s b r) := by
  unfold State.stopRing
  try dsimp only
  repeat' first
    | exact (rfl : Nat.land _ _ = _)
    | (intro _; try dsimp only)
    | with_reducible first
      | assumption | apply Kept.refl | apply Kept.fold | apply Kept.step (State.stopAtP_kept ..) | apply Kept.ite
    | dsimp only
    | split

theorem State.parkRing_kept (s : State) (b r : Nat) (cause : ParkCause) : Kept 0x2000224 s (State.parkRing s b r cause) := by
  unfold State.parkRing
  try dsimp only
  repeat' first
    | exact (rfl : Nat.land _ _ = _)
    | with_reducible first
      | assumption | apply Kept.refl | apply Kept.step (State.modRing_kept ..) | apply Kept.step (State.traceRing_kept ..)
      | apply Kept.step (State.giveUp_kept ..) | apply Kept.ite
    | dsimp only
    | split

theorem State.fetchPark_kept (s : State) (b r : Nat) : Kept 0x2000224 s (State.fetchPark s b r) := by
  unfold State.fetchPark
  try dsimp only
  repeat' first
    | exact (rfl : Nat.land _ _ = _)
    | with_reducible first
      | assumption | apply Kept.refl | apply Kept.step (State.parkRing_kept ..) | apply Kept.ite
    | dsimp only
    | split

theorem State.parkHost_kept (s : State) (b r : Nat) : Kept 0x2000224 s (State.parkHost s b r) := by
  unfold State.parkHost
  try dsimp only
  repeat' first
    | exact (rfl : Nat.land _ _ = _)
    | with_reducible first
      | assumption | apply Kept.refl | apply Kept.step (State.stopRing_kept ..) | apply Kept.step (State.parkRing_kept ..)
      | apply Kept.ite
    | dsimp only
    | split

theorem State.unparkRing_kept (s : State) (b r : Nat) (cause : ParkCause) : Kept 0x2000224 s (State.unparkRing s b r cause) := by
  unfold State.unparkRing
  try dsimp only
  repeat' first
    | exact (rfl : Nat.land _ _ = _)
    | with_reducible first
      | assumption | apply Kept.refl | apply Kept.step (State.modRing_kept ..) | apply Kept.step (State.traceRing_kept ..)
      | apply Kept.step (State.giveUp_kept ..) | apply Kept.step (State.fetchPark_kept ..) | apply Kept.ite
    | dsimp only
    | split

theorem State.resumeHost_kept (s : State) (b : Nat) : Kept 0x2000224 s (State.resumeHost s b) := by
  unfold State.resumeHost
  try dsimp only
  repeat' first
    | exact (rfl : Nat.land _ _ = _)
    | (intro _; try dsimp only)
    | with_reducible first
      | assumption | apply Kept.refl | apply Kept.fold | apply Kept.step (State.unparkRing_kept ..)

theorem State.endDesc_kept (s : State) (b r : Nat) (c : BitVec 32) (code detail operand : Nat) (result : BitVec 64) :
    Kept 0x220 s (State.endDesc s b r c code detail operand result) := by
  unfold State.endDesc
  try dsimp only
  repeat' first
    | exact (rfl : Nat.land _ _ = _)
    | with_reducible first
      | assumption | apply Kept.refl | apply Kept.step (State.modDesc_kept ..) | apply Kept.step (State.chaffReads_kept ..)
      | apply Kept.step (State.freeReorder_kept ..) | apply Kept.ite
    | dsimp only
    | split

theorem State.numberDesc_kept (s : State) (b r : Nat) (c : BitVec 32) : Kept 0x20 s (State.numberDesc s b r c) := by
  unfold State.numberDesc
  try dsimp only
  repeat' first
    | exact (rfl : Nat.land _ _ = _)
    | (intro _; try dsimp only)
    | with_reducible first
      | assumption | apply Kept.refl | apply Kept.mapGetD | apply Kept.step (State.modBench_kept ..)
      | apply Kept.step (State.modDesc_kept ..) | apply Kept.ite
    | dsimp only
    | split

theorem State.startDesc_kept (s : State) (b r : Nat) (c : BitVec 32) (total : Nat) : Kept 0x24 s (State.startDesc s b r c total) := by
  unfold State.startDesc
  try dsimp only
  repeat' first
    | exact (rfl : Nat.land _ _ = _)
    | (intro _; try dsimp only)
    | with_reducible first
      | assumption | apply Kept.refl | apply Kept.mapGetD | apply Kept.step (State.trace_kept ..)
      | apply Kept.step (State.modDesc_kept ..) | apply Kept.step (State.numberDesc_kept ..)
    | dsimp only
    | split

theorem State.knockMsg_kept (s : State) (b r : Nat) (m : CxlMsg) : Kept 0x100000000 s (State.knockMsg s b r m) := by
  unfold State.knockMsg
  try dsimp only
  repeat' first
    | exact (rfl : Nat.land _ _ = _)
    | with_reducible first
      | assumption | apply Kept.refl | apply Kept.step (State.emit_kept ..)
    | dsimp only
    | split

theorem State.readKnock_kept (s : State) (b r a : Nat) : Kept 0x100000020 s (State.readKnock s b r a) := by
  unfold State.readKnock
  try dsimp only
  repeat' first
    | exact (rfl : Nat.land _ _ = _)
    | with_reducible first
      | assumption | apply Kept.refl | apply Kept.step (State.modRing_kept ..) | apply Kept.step (State.knockMsg_kept ..)

theorem State.takeKnock_kept (s : State) (b r : Nat) : Kept 0x120002020 s (State.takeKnock s b r) := by
  unfold State.takeKnock
  try dsimp only
  repeat' first
    | exact (rfl : Nat.land _ _ = _)
    | with_reducible first
      | assumption | apply Kept.refl | apply Kept.step (State.request_kept ..) | apply Kept.step (State.modRing_kept ..)
      | apply Kept.step (State.readKnock_kept ..) | apply Kept.ite
    | dsimp only
    | split

theorem State.dropKnock_kept (s : State) (b r : Nat) : Kept 0x100000020 s (State.dropKnock s b r) := by
  unfold State.dropKnock
  try dsimp only
  repeat' first
    | exact (rfl : Nat.land _ _ = _)
    | with_reducible first
      | assumption | apply Kept.refl | apply Kept.step (State.modRing_kept ..) | apply Kept.step (State.knockMsg_kept ..) | apply Kept.ite
    | dsimp only
    | split

theorem State.askRing_kept (s : State) (b r va : Nat) (write : Bool) : Kept 0x20002000 s (State.askRing s b r va write) := by
  unfold State.askRing
  try dsimp only
  repeat' first
    | exact (rfl : Nat.land _ _ = _)
    | with_reducible first
      | assumption | apply Kept.refl | apply Kept.step (State.request_kept ..)

theorem State.fetchStops_kept (s : State) (b r : Nat) : Kept 0x2000224 s (State.fetchStops s b r) := by
  unfold State.fetchStops
  try dsimp only
  repeat' first
    | exact (rfl : Nat.land _ _ = _)
    | with_reducible first
      | assumption | apply Kept.refl | apply Kept.step (State.modRing_kept ..) | apply Kept.step (State.fetchPark_kept ..)

theorem State.ringUnmapped_kept (s : State) (b r : Nat) (write : Bool) : Kept 0x2000224 s (State.ringUnmapped s b r write) := by
  unfold State.ringUnmapped
  try dsimp only
  repeat' first
    | exact (rfl : Nat.land _ _ = _)
    | with_reducible first
      | assumption | apply Kept.refl | apply Kept.step (State.parkRing_kept ..) | apply Kept.step (State.fetchStops_kept ..)
      | apply Kept.ite
    | dsimp only
    | split

theorem State.readRing_kept (s : State) (b r va n : Nat) (coherent : Bool) : Kept 0x122002224 s (State.readRing s b r va n coherent).2 := by
  unfold State.readRing
  try dsimp only
  repeat' first
    | exact (rfl : Nat.land _ _ = _)
    | with_reducible first
      | assumption | apply Kept.refl | apply Kept.step (State.emit_kept ..) | apply Kept.step (State.readHost_kept ..)
      | apply Kept.step (State.askRing_kept ..) | apply Kept.step (State.fetchStops_kept ..) | apply Kept.ite
    | dsimp only
    | split

theorem State.readRing_some (s : State) (b r va n : Nat) (coherent : Bool) {t u : State} (e : State.readRing s b r va n coherent = (some t, u)) :
    Kept 0x122002224 s t := by
  unfold State.readRing at e
  dsimp only at e
  split at e
  · cases e; exact (State.emit_kept ..).mono rfl
  · repeat' split at e
    all_goals
      obtain ⟨f, -⟩ := Prod.mk.inj e
      try split at f
      all_goals
        cases f
        try first
          | exact (State.readHost_kept ..).mono rfl
          | exact .step (State.readHost_kept ..) rfl ((State.askRing_kept ..).mono rfl)

theorem State.setFault_kept (s : State) (i : Nat) (f : Option FaultRec) : Kept 0x2000 s (State.setFault s i f) := by
  have e13 : Nat.land 0x2000 0x2000 = 0x2000 := rfl
  unfold State.setFault
  try dsimp only
  repeat' first
    | exact (rfl : Nat.land _ _ = _)
    | with_reducible first
      | assumption | apply Kept.refl | fail_if_no_progress refine Kept.madeHeadstock e13 ?_

theorem State.sendPri_kept (s : State) (i : Nat) : Kept 0x2004 s (State.sendPri s i) := by
  have e13 : Nat.land 0x2000 0x2004 = 0x2000 := rfl
  unfold State.sendPri
  try dsimp only
  repeat' first
    | exact (rfl : Nat.land _ _ = _)
    | with_reducible first
      | assumption | apply Kept.refl | apply Kept.step (State.egress_kept ..) | apply Kept.step (State.setFault_kept ..)
      | fail_if_no_progress refine Kept.madeHeadstock e13 ?_ | apply Kept.ite
    | dsimp only
    | split

theorem State.postFault_kept (s : State) (f : FaultRec) : Kept 0x2024 s (State.postFault s f) := by
  unfold State.postFault
  try dsimp only
  repeat' first
    | exact (rfl : Nat.land _ _ = _)
    | with_reducible first
      | assumption | apply Kept.refl | apply Kept.step (State.notice_kept ..) | apply Kept.step (State.trace_kept ..)
      | apply Kept.step (State.setFault_kept ..) | apply Kept.step (State.sendPri_kept ..) | apply Kept.ite
    | dsimp only
    | split

theorem State.postWaiting_kept (s : State) (b : Nat) : Kept 0x2024 s (State.postWaiting s b) := by
  have e13 : Nat.land 0x2000 0x2024 = 0x2000 := rfl
  unfold State.postWaiting
  try dsimp only
  repeat' first
    | exact (rfl : Nat.land _ _ = _)
    | with_reducible first
      | assumption | apply Kept.refl | apply Kept.step (State.postFault_kept ..) | fail_if_no_progress refine Kept.madeHeadstock e13 ?_
      | apply Kept.ite
    | dsimp only
    | split

theorem State.settleFault_kept (s : State) (b r : Nat) : Kept 0x2000224 s (State.settleFault s b r) := by
  unfold State.settleFault
  try dsimp only
  repeat' first
    | exact (rfl : Nat.land _ _ = _)
    | with_reducible first
      | assumption | apply Kept.refl | apply Kept.step (State.parkRing_kept ..) | apply Kept.ite
    | dsimp only
    | split

theorem State.postAll_kept (s : State) : Kept 0x2024 s (State.postAll s) := by
  unfold State.postAll
  try dsimp only
  repeat' first
    | exact (rfl : Nat.land _ _ = _)
    | (intro _; try dsimp only)
    | with_reducible first
      | assumption | apply Kept.refl | apply Kept.fold | apply Kept.step (State.postWaiting_kept ..)

theorem State.raiseFault_kept (s : State) (b r : Nat) (c : BitVec 32) (operand kind pasid first addr : Nat) (write : Bool) :
    Kept 0x2002224 s (State.raiseFault s b r c operand kind pasid first addr write) := by
  have e13 : Nat.land 0x2000 0x2002224 = 0x2000 := rfl
  unfold State.raiseFault
  try dsimp only
  repeat' first
    | exact (rfl : Nat.land _ _ = _)
    | with_reducible first
      | assumption | apply Kept.refl | apply Kept.step (State.modBench_kept ..) | apply Kept.step (State.modDesc_kept ..)
      | apply Kept.step (State.stopAtP_kept ..) | apply Kept.step (State.postFault_kept ..) | apply Kept.step (State.settleFault_kept ..)
      | fail_if_no_progress refine Kept.madeHeadstock e13 ?_ | apply Kept.ite
    | dsimp only
    | split

theorem State.freeFaultEntry_kept (s : State) (i : Nat) : Kept 0x2024 s (State.freeFaultEntry s i) := by
  have e13 : Nat.land 0x2000 0x2024 = 0x2000 := rfl
  unfold State.freeFaultEntry
  try dsimp only
  repeat' first
    | exact (rfl : Nat.land _ _ = _)
    | with_reducible first
      | assumption | apply Kept.refl | apply Kept.step (State.setFault_kept ..) | apply Kept.step (State.postWaiting_kept ..)
      | fail_if_no_progress refine Kept.madeHeadstock e13 ?_ | apply Kept.ite
    | dsimp only
    | split

theorem State.unparkFault_kept (s : State) (b r : Nat) : Kept 0x2000224 s (State.unparkFault s b r) := by
  unfold State.unparkFault
  try dsimp only
  repeat' first
    | exact (rfl : Nat.land _ _ = _)
    | with_reducible first
      | assumption | apply Kept.refl | apply Kept.step (State.unparkRing_kept ..)

theorem State.faultUsable_kept (s : State) (i : Nat) : Kept 0x2002224 s (State.faultUsable s i) := by
  unfold State.faultUsable
  try dsimp only
  repeat' first
    | exact (rfl : Nat.land _ _ = _)
    | with_reducible first
      | assumption | apply Kept.refl | apply Kept.step (State.modDesc_kept ..) | apply Kept.step (State.freeFaultEntry_kept ..)
      | apply Kept.step (State.unparkFault_kept ..) | apply Kept.ite
    | dsimp only
    | split

theorem State.faultEnds_kept (s : State) (i code detail : Nat) : Kept 0x2002224 s (State.faultEnds s i code detail) := by
  unfold State.faultEnds
  try dsimp only
  repeat' first
    | exact (rfl : Nat.land _ _ = _)
    | with_reducible first
      | assumption | apply Kept.refl | apply Kept.step (State.endDesc_kept ..) | apply Kept.step (State.freeFaultEntry_kept ..)
      | apply Kept.step (State.unparkFault_kept ..)
    | dsimp only
    | split

theorem State.discardFaults_kept (s : State) (p : FaultRec → Bool) : Kept 0x2024 s (State.discardFaults s p) := by
  have e13 : Nat.land 0x2000 0x2024 = 0x2000 := rfl
  unfold State.discardFaults
  try dsimp only
  repeat' first
    | exact (rfl : Nat.land _ _ = _)
    | (intro _; try dsimp only)
    | with_reducible first
      | assumption | apply Kept.refl | apply Kept.fold | apply Kept.mapGetD | apply Kept.step (State.freeFaultEntry_kept ..)
      | fail_if_no_progress refine Kept.madeHeadstock e13 ?_

theorem State.dropWaiters_kept (s : State) (b : Nat) (p : Waiter → Bool) : Kept 0x2000 s (State.dropWaiters s b p) := by
  have e13 : Nat.land 0x2000 0x2000 = 0x2000 := rfl
  unfold State.dropWaiters
  try dsimp only
  repeat' first
    | exact (rfl : Nat.land _ _ = _)
    | with_reducible first
      | assumption | apply Kept.refl | fail_if_no_progress refine Kept.madeHeadstock e13 ?_ | apply Kept.ite
    | dsimp only
    | split

theorem State.abandonWork_kept (s : State) (b r : Nat) : Kept 0x102002224 s (State.abandonWork s b r) := by
  unfold State.abandonWork
  try dsimp only
  repeat' first
    | exact (rfl : Nat.land _ _ = _)
    | (intro _; try dsimp only)
    | with_reducible first
      | assumption | apply Kept.refl | apply Kept.fold | apply Kept.step (State.modRing_kept ..)
      | apply Kept.step (State.endTally_kept ..) | apply Kept.step (State.chaffReads_kept ..)
      | apply Kept.step (State.freeReorder_kept ..) | apply Kept.step (State.dropKnock_kept ..)
      | apply Kept.step (State.discardFaults_kept ..) | apply Kept.step (State.dropWaiters_kept ..) | apply Kept.ite
    | dsimp only
    | split

theorem State.abandonRing_kept (s : State) (b r : Nat) : Kept 0x102002224 s (State.abandonRing s b r) := by
  unfold State.abandonRing
  try dsimp only
  repeat' first
    | exact (rfl : Nat.land _ _ = _)
    | with_reducible first
      | assumption | apply Kept.refl | apply Kept.step (State.giveUp_kept ..) | apply Kept.step (State.abandonWork_kept ..)

theorem State.releaseCut_kept (s : State) (b r : Nat) : Kept 0x2000224 s (State.releaseCut s b r) := by
  unfold State.releaseCut
  try dsimp only
  repeat' first
    | exact (rfl : Nat.land _ _ = _)
    | with_reducible first
      | assumption | apply Kept.refl | apply Kept.step (State.giveUp_kept ..) | apply Kept.ite
    | dsimp only
    | split

theorem State.drainChannel_kept (s : State) (b r : Nat) : Kept 0x220 s (State.drainChannel s b r) := by
  unfold State.drainChannel
  try dsimp only
  repeat' first
    | exact (rfl : Nat.land _ _ = _)
    | with_reducible first
      | assumption | apply Kept.refl | apply Kept.step (State.modRing_kept ..) | apply Kept.step (State.modLathe_kept ..)
    | dsimp only
    | split

theorem State.settleDrain_kept (s : State) (b r : Nat) : Kept 0x2000200 s (State.settleDrain s b r) := by
  unfold State.settleDrain
  try dsimp only
  repeat' first
    | exact (rfl : Nat.land _ _ = _)
    | (intro _; try dsimp only)
    | with_reducible first
      | assumption | apply Kept.refl | apply Kept.fold | apply Kept.step (State.modLathe_kept ..)
      | apply Kept.step (State.endTally_kept ..) | apply Kept.ite
    | dsimp only
    | split

end Sys2Proof.Machine
end

