-- ==== Sys2Proof/Laws/Kept/LatheOps.lean ====
section
/-!
SUPPORT. What the operations and commands of Machine/LatheOps.lean keep.
-/

namespace Sys2Proof.Machine

theorem writeEnabled_wf (l : List (Byte × Bool)) : ∀ (k : Nat) {m : Memory}, m.wf = true → (writeEnabled m k l).wf = true := by
  induction l with
  | nil => intro _ _ h; exact h
  | cons x r ih =>
    intro k m h
    unfold writeEnabled
    apply ih
    split
    · exact memWrite_wf _ _ h
    · exact h

theorem State.loadPage_kept (s : State) (b : Nat) (o : Operand) (n : Nat) (x0 : Dest) : Kept 0x121008000 s (State.loadPage s b o n x0) := by
  unfold State.loadPage
  try dsimp only
  repeat' first
    | exact (rfl : Nat.land _ _ = _)
    | (intro _; try dsimp only)
    | with_reducible first
      | assumption | apply Kept.refl | apply Kept.mapGetD | apply Kept.step (State.sendDie_kept ..)
      | apply Kept.step (State.sendHub_kept ..) | apply Kept.step (State.readHost_kept ..)
    | dsimp only
    | split

theorem State.loadReads_kept (s : State) (b : Nat) (o : Operand) (fuel off n : Nat) : Kept 0x121008000 s (State.loadReads s b o fuel off n) := by
  induction fuel generalizing s off n with
  | zero => exact .refl _ _
  | succ k ih =>
    unfold State.loadReads
    refine .ite (.refl _ _) ?_
    dsimp only
    split
    · exact (State.loadPage_kept ..).trans (ih ..)
    · exact .refl _ _

theorem State.load_kept (s : State) (b : Nat) (o : Operand) (off n : Nat) {t : State} (e : State.load s b o off n = some t) : Kept 0x121008000 s t := by
  unfold State.load at e
  dsimp only at e
  split at e
  · cases e
  · cases e; exact State.loadReads_kept ..

theorem State.readIndex_kept (s : State) (b r : Nat) (c : BitVec 32) (index : List Nat) : Kept 0x121008020 s (State.readIndex s b r c index) := by
  unfold State.readIndex
  try dsimp only
  repeat' first
    | exact (rfl : Nat.land _ _ = _)
    | with_reducible first
      | assumption | apply Kept.refl | apply Kept.step (State.load_kept (e := by assumption) ..) | apply Kept.step (State.modDesc_kept ..)
      | apply Kept.ite
    | dsimp only
    | split

theorem State.touchOp_kept (s : State) (b : Nat) (o : Operand) (off : Nat) : Kept 0x20002000 s (State.touchOp s b o off) := by
  unfold State.touchOp
  try dsimp only
  repeat' first
    | exact (rfl : Nat.land _ _ = _)
    | with_reducible first
      | assumption | apply Kept.refl | apply Kept.step (State.useEntry_kept ..) | apply Kept.ite
    | dsimp only
    | split

theorem State.countOp_kept (s : State) (b : Nat) (o : Operand) (off : Nat) : Kept 0x2020 s (State.countOp s b o off) := by
  unfold State.countOp
  try dsimp only
  repeat' first
    | exact (rfl : Nat.land _ _ = _)
    | with_reducible first
      | assumption | apply Kept.refl | apply Kept.step (State.countAccess_kept ..) | apply Kept.ite
    | dsimp only
    | split

theorem State.takeRead_kept (s : State) (l : Nat) (u : SlotUse) : Kept 0x200 s (State.takeRead s l u) := by
  unfold State.takeRead
  try dsimp only
  repeat' first
    | exact (rfl : Nat.land _ _ = _)
    | with_reducible first
      | assumption | apply Kept.refl | apply Kept.step (State.modLathe_kept ..)

theorem State.issueRead_kept (s : State) (b r : Nat) (d : Desc) (u : Burst) (q : ReadPiece) : Kept 0x121009204 s (State.issueRead s b r d u q).2 := by
  unfold State.issueRead
  try dsimp only
  repeat' first
    | exact (rfl : Nat.land _ _ = _)
    | (intro _; try dsimp only)
    | with_reducible first
      | assumption | apply Kept.refl | apply Kept.mapGetD | apply Kept.step (State.takeRead_kept ..)
      | apply Kept.step (State.sendHub_kept ..) | apply Kept.step (State.egressRead_kept ..) | apply Kept.step (State.askDie_kept ..)
      | apply Kept.ite
    | dsimp only
    | split

theorem State.issueReads_kept (s : State) (b r : Nat) (d : Desc) (u : Burst) (l : List ReadPiece) :
    Kept 0x121009204 s (State.issueReads s b r d u l).2 := by
  induction l generalizing s with
  | nil => exact .refl _ _
  | cons q rest ih => exact Kept.trans (State.issueRead_kept ..) (ih _)

theorem State.issueWrite_kept (s : State) (b r : Nat) (d : Desc) (u : Burst) (off : Nat) (dest : Dest) (data : List (Byte × Bool)) :
    Kept 0x163009224 s (State.issueWrite s b r d u off dest data).2 := by
  unfold State.issueWrite
  dsimp only
  split
  · refine Kept.trans ?_ ((Kept.mem fun h => writeEnabled_wf _ _ h).mono rfl)
    exact .ite ((State.clearMarks_kept ..).mono rfl) (.refl _ _)
  · exact ((State.modLathe_kept ..).mono rfl).trans ((State.askDie_kept ..).mono rfl)
  · exact ((State.modLathe_kept ..).mono rfl).trans ((State.sendHub_kept ..).mono rfl)
  all_goals
    refine Kept.trans ?_ (Kept.mono (l := 0x20) (State.modDesc_kept ..) rfl)
    exact .ite (((State.egressData_kept ..).mono rfl).trans ((State.modBench_kept ..).mono rfl)) ((State.egressData_kept ..).mono rfl)

theorem State.issueWrites_kept (s : State) (b r : Nat) (d : Desc) (u : Burst) (l : List (Nat × Nat × Dest)) :
    Kept 0x163009224 s (State.issueWrites s b r d u l).2 := by
  induction l generalizing s with
  | nil => exact .refl _ _
  | cons x rest ih => exact Kept.trans (State.issueWrite_kept ..) (ih _)

theorem State.sendBurst_kept (s : State) (b r : Nat) (d : Desc) (u : Burst) : Kept 0x163009224 s (State.sendBurst s b r d u).2 := by
  unfold State.sendBurst
  try dsimp only
  repeat' first
    | exact (rfl : Nat.land _ _ = _)
    | with_reducible first
      | assumption | apply Kept.refl | apply Kept.step (State.issueWrite_kept ..)
      | apply Kept.step (Kept.pair (by assumption) (State.issueWrite_kept ..)) | apply Kept.step (State.issueWrites_kept ..)
      | apply Kept.step (Kept.pair (by assumption) (State.issueWrites_kept ..)) | apply Kept.ite
    | dsimp only
    | split

theorem State.writeBurst_kept (s : State) (b r : Nat) (c : BitVec 32) (start : Nat) : Kept 0x163009224 s (State.writeBurst s b r c start) := by
  unfold State.writeBurst
  try dsimp only
  repeat' first
    | exact (rfl : Nat.land _ _ = _)
    | with_reducible first
      | assumption | apply Kept.refl | apply Kept.step (State.sendBurst_kept ..)
      | apply Kept.step (Kept.pair (by assumption) (State.sendBurst_kept ..)) | apply Kept.step (State.modRing_kept ..)
      | apply Kept.step (State.modLathe_kept ..) | apply Kept.step (State.modDesc_kept ..) | apply Kept.ite
    | dsimp only
    | split

theorem State.tryFlush_kept (s : State) (b r : Nat) (c : BitVec 32) : Kept 0x2000224 s (State.tryFlush s b r c) := by
  unfold State.tryFlush
  try dsimp only
  repeat' first
    | exact (rfl : Nat.land _ _ = _)
    | with_reducible first
      | assumption | apply Kept.refl | apply Kept.step (State.takeRead_kept ..) | apply Kept.step (State.flushRead_kept ..)
      | apply Kept.step (State.modDesc_kept ..) | apply Kept.step (State.parkHost_kept ..) | apply Kept.ite
    | dsimp only
    | split

theorem State.advance_kept (s : State) (b r : Nat) (c : BitVec 32) : Kept 0x2000224 s (State.advance s b r c) := by
  unfold State.advance
  try dsimp only
  repeat' first
    | exact (rfl : Nat.land _ _ = _)
    | with_reducible first
      | assumption | apply Kept.refl | apply Kept.step (State.tryFlush_kept ..) | apply Kept.step (State.modDesc_kept ..)
      | apply Kept.step (State.endDesc_kept ..) | apply Kept.ite
    | dsimp only
    | split

theorem State.advanceRing_kept (s : State) (b r : Nat) : Kept 0x2000224 s (State.advanceRing s b r) := by
  unfold State.advanceRing
  try dsimp only
  repeat' first
    | exact (rfl : Nat.land _ _ = _)
    | (intro _; try dsimp only)
    | with_reducible first
      | assumption | apply Kept.refl | apply Kept.fold | apply Kept.step (State.advance_kept ..)
      | apply Kept.step (State.settleFault_kept ..)

theorem State.pumpBurst_kept (s : State) (b r : Nat) (c : BitVec 32) (start : Nat) : Kept 0x163009224 s (State.pumpBurst s b r c start) := by
  unfold State.pumpBurst
  try dsimp only
  repeat' first
    | exact (rfl : Nat.land _ _ = _)
    | (intro _; try dsimp only)
    | with_reducible first
      | assumption | apply Kept.refl | apply Kept.mapGetD | apply Kept.step (State.issueReads_kept ..)
      | apply Kept.step (Kept.pair (by assumption) (State.issueReads_kept ..)) | apply Kept.step (State.writeBurst_kept ..)
      | apply Kept.step (State.modDesc_kept ..) | apply Kept.ite
    | dsimp only
    | split

theorem State.pumpOnce_kept (s : State) (l : Nat) : Kept 0x163009224 s (State.pumpOnce s l) := by
  unfold State.pumpOnce
  try dsimp only
  repeat' first
    | exact (rfl : Nat.land _ _ = _)
    | (intro _; try dsimp only)
    | with_reducible first
      | assumption | apply Kept.refl | apply Kept.fold | apply Kept.step (State.advanceRing_kept ..)
      | apply Kept.step (State.pumpBurst_kept ..)

theorem State.pumpLathe_kept (s : State) (l : Nat) : Kept 0x163009224 s (State.pumpLathe s l) := by
  unfold State.pumpLathe
  try dsimp only
  repeat' first
    | exact (rfl : Nat.land _ _ = _)
    | with_reducible first
      | assumption | apply Kept.refl | apply Kept.step (State.pumpOnce_kept ..)

theorem State.pumpRing_kept (s : State) (b r : Nat) : Kept 0x163009224 s (State.pumpRing s b r) := by
  unfold State.pumpRing
  try dsimp only
  repeat' first
    | exact (rfl : Nat.land _ _ = _)
    | (intro _; try dsimp only)
    | with_reducible first
      | assumption | apply Kept.refl | apply Kept.fold | apply Kept.step (State.advanceRing_kept ..)
      | apply Kept.step (State.pumpLathe_kept ..)

theorem State.failSlot_kept (s : State) (u : SlotUse) (code detail operand : Nat) (result : BitVec 64) :
    Kept 0x2000224 s (State.failSlot s u code detail operand result) := by
  unfold State.failSlot
  try dsimp only
  repeat' first
    | exact (rfl : Nat.land _ _ = _)
    | with_reducible first
      | assumption | apply Kept.refl | apply Kept.step (State.tryFlush_kept ..) | apply Kept.step (State.endDesc_kept ..) | apply Kept.ite
    | dsimp only
    | split

theorem State.slotFreed_kept (s : State) (l : Nat) (write : Bool) (slot : Nat) : Kept 0x4024 s (State.slotFreed s l write slot) := by
  have e2 : Nat.land 0x4 0x4024 = 0x4 := rfl
  have e5 : Nat.land 0x20 0x4024 = 0x20 := rfl
  have e14 : Nat.land 0x4000 0x4024 = 0x4000 := rfl
  unfold State.slotFreed
  try dsimp only
  repeat' first
    | exact (rfl : Nat.land _ _ = _)
    | with_reducible first
      | assumption | apply Kept.refl | fail_if_no_progress refine Kept.madePortsBenchesMig e2 e5 e14 ?_ | apply Kept.ite
    | dsimp only
    | split

theorem State.deliver_kept (s : State) (l slot : Nat) (data : List Byte) : Kept 0x16300d224 s (State.deliver s l slot data) := by
  unfold State.deliver
  try dsimp only
  repeat' first
    | exact (rfl : Nat.land _ _ = _)
    | with_reducible first
      | assumption | apply Kept.refl | apply Kept.step (State.pumpLathe_kept ..) | apply Kept.step (State.slotFreed_kept ..)
      | apply Kept.step (State.modRing_kept ..) | apply Kept.step (State.modLathe_kept ..) | apply Kept.step (State.portDone_kept ..)
      | apply Kept.step (State.modDesc_kept ..) | apply Kept.ite
    | dsimp only
    | split

theorem State.failRead_kept (s : State) (l slot : Nat) (code detail : Nat) (result : SlotUse → BitVec 64) :
    Kept 0x16300d224 s (State.failRead s l slot code detail result) := by
  unfold State.failRead
  try dsimp only
  repeat' first
    | exact (rfl : Nat.land _ _ = _)
    | (intro _; try dsimp only)
    | with_reducible first
      | assumption | apply Kept.refl | apply Kept.mapGetD | apply Kept.step (State.pumpLathe_kept ..)
      | apply Kept.step (State.failSlot_kept ..) | apply Kept.step (State.slotFreed_kept ..) | apply Kept.step (State.modLathe_kept ..)
      | apply Kept.step (State.portDone_kept ..)
    | dsimp only
    | split

theorem State.ackWrite_kept (s : State) (l slot : Nat) (status : MemStatus) : Kept 0x16300d224 s (State.ackWrite s l slot status) := by
  unfold State.ackWrite
  try dsimp only
  repeat' first
    | exact (rfl : Nat.land _ _ = _)
    | with_reducible first
      | assumption | apply Kept.refl | apply Kept.step (State.pumpLathe_kept ..) | apply Kept.step (State.failSlot_kept ..)
      | apply Kept.step (State.slotFreed_kept ..) | apply Kept.step (State.modLathe_kept ..) | apply Kept.step (State.portDone_kept ..)
      | apply Kept.step (State.modDesc_kept ..) | apply Kept.step (State.releaseCut_kept ..) | apply Kept.step (State.settleDrain_kept ..)
      | apply Kept.ite
    | dsimp only
    | split

end Sys2Proof.Machine
end

