-- ==== Sys2Proof/Laws/Kept/EventOps.lean ====
section
/-!
SUPPORT. What the operations and commands of Machine/EventOps.lean keep.
-/

namespace Sys2Proof.Machine

theorem State.edgeRing_kept (s : State) (b r : Nat) (src : PaceSource) : Kept 0x20 s (State.edgeRing s b r src) := by
  unfold State.edgeRing
  try dsimp only
  repeat' first
    | exact (rfl : Nat.land _ _ = _)
    | with_reducible first
      | assumption | apply Kept.refl | apply Kept.step (State.modRing_kept ..) | apply Kept.step (State.modDesc_kept ..) | apply Kept.ite
    | dsimp only
    | split

theorem State.edgeBench_kept (s : State) (b : Nat) (src : PaceSource) : Kept 0x20 s (State.edgeBench s b src) := by
  unfold State.edgeBench
  try dsimp only
  repeat' first
    | exact (rfl : Nat.land _ _ = _)
    | (intro _; try dsimp only)
    | with_reducible first
      | assumption | apply Kept.refl | apply Kept.fold | apply Kept.step (State.edgeRing_kept ..)

theorem State.fireDesc_kept (s : State) (b r : Nat) (c : BitVec 32) : Kept 0x20 s (State.fireDesc s b r c) := by
  unfold State.fireDesc
  try dsimp only
  repeat' first
    | exact (rfl : Nat.land _ _ = _)
    | with_reducible first
      | assumption | apply Kept.refl | apply Kept.step (State.modDesc_kept ..) | apply Kept.step (State.numberDesc_kept ..)

theorem State.fireRing_kept (s : State) (b r : Nat) (src : PaceSource) : Kept 0x20 s (State.fireRing s b r src) := by
  unfold State.fireRing
  try dsimp only
  repeat' first
    | exact (rfl : Nat.land _ _ = _)
    | (intro _; try dsimp only)
    | with_reducible first
      | assumption | apply Kept.refl | apply Kept.fold | apply Kept.step (State.fireDesc_kept ..) | apply Kept.ite
    | dsimp only
    | split

theorem State.firing_kept (s : State) (b : Nat) (src : PaceSource) : Kept 0x20 s (State.firing s b src) := by
  unfold State.firing
  try dsimp only
  repeat' first
    | exact (rfl : Nat.land _ _ = _)
    | (intro _; try dsimp only)
    | with_reducible first
      | assumption | apply Kept.refl | apply Kept.fold | apply Kept.step (State.edgeRing_kept ..)
      | apply Kept.step (State.fireRing_kept ..)

theorem State.lineOp_kept (s : State) (n op : Nat) : Kept 0x420 s (State.lineOp s n op) := by
  unfold State.lineOp
  try dsimp only
  repeat' first
    | exact (rfl : Nat.land _ _ = _)
    | with_reducible first
      | assumption | apply Kept.refl | apply Kept.step (State.edgeBench_kept ..) | apply Kept.step (State.modEvent_kept ..)
      | apply Kept.ite
    | dsimp only
    | split

theorem State.endDependents_kept (s : State) (b : Nat) (src : PaceSource) : Kept 0x2000224 s (State.endDependents s b src) := by
  unfold State.endDependents
  try dsimp only
  repeat' first
    | exact (rfl : Nat.land _ _ = _)
    | (intro _; try dsimp only)
    | with_reducible first
      | assumption | apply Kept.refl | apply Kept.fold | apply Kept.step (State.tryFlush_kept ..)
      | apply Kept.step (State.endDesc_kept ..)

theorem State.takeLine_kept (s : State) (b n : Nat) : Kept 0x2000400 s (State.takeLine s b n) := by
  unfold State.takeLine
  try dsimp only
  repeat' first
    | exact (rfl : Nat.land _ _ = _)
    | with_reducible first
      | assumption | apply Kept.refl | apply Kept.step (State.modEvent_kept ..) | apply Kept.step (State.addTally_kept ..)

theorem State.dropLine_kept (s : State) (b n : Nat) : Kept 0x2000400 s (State.dropLine s b n) := by
  unfold State.dropLine
  try dsimp only
  repeat' first
    | exact (rfl : Nat.land _ _ = _)
    | with_reducible first
      | assumption | apply Kept.refl | apply Kept.step (State.modEvent_kept ..) | apply Kept.step (State.endTally_kept ..)

theorem State.modPaceSlot_kept (s : State) (b k : Nat) (f : PaceSlot → PaceSlot) : Kept 0x20 s (State.modPaceSlot s b k f) := by
  unfold State.modPaceSlot
  try dsimp only
  repeat' first
    | exact (rfl : Nat.land _ _ = _)
    | with_reducible first
      | assumption | apply Kept.refl | apply Kept.step (State.modBench_kept ..)

theorem State.dropTimer_kept (s : State) (b k : Nat) : Kept 0x2000820 s (State.dropTimer s b k) := by
  unfold State.dropTimer
  try dsimp only
  repeat' first
    | exact (rfl : Nat.land _ _ = _)
    | with_reducible first
      | assumption | apply Kept.refl | apply Kept.step (State.modPaceSlot_kept ..) | apply Kept.step (State.modPaceTimer_kept ..)
      | apply Kept.step (State.endTally_kept ..) | apply Kept.ite
    | dsimp only
    | split

end Sys2Proof.Machine
end

