-- ==== Sys2Proof/Laws/Kept/HotOps.lean ====
section
/-!
SUPPORT. What the operations and commands of Machine/HotOps.lean keep.
-/

namespace Sys2Proof.Machine

theorem State.setRegion_kept (s : State) (b n : Nat) (r : Option Region) : Kept 0x20 s (State.setRegion s b n r) := by
  unfold State.setRegion
  try dsimp only
  repeat' first
    | exact (rfl : Nat.land _ _ = _)
    | with_reducible first
      | assumption | apply Kept.refl | apply Kept.step (State.modBench_kept ..)

theorem State.makeRegion_kept (s : State) (b n : Nat) : Kept 0x20 s (State.makeRegion s b n).2 := by
  unfold State.makeRegion
  try dsimp only
  repeat' first
    | exact (rfl : Nat.land _ _ = _)
    | with_reducible first
      | assumption | apply Kept.refl | apply Kept.step (State.setRegion_kept ..) | apply Kept.step (State.modBench_kept ..)
      | apply Kept.ite
    | dsimp only
    | split

theorem State.mgmtWrite_kept (s : State) (addr : Nat) (data : List Byte) : Kept 0x4 s (State.mgmtWrite s addr data) := by
  unfold State.mgmtWrite
  try dsimp only
  repeat' first
    | exact (rfl : Nat.land _ _ = _)
    | with_reducible first
      | assumption | apply Kept.refl | apply Kept.step (State.egress_kept ..)

theorem State.migRequest_kept (s : State) (b n source : Nat) : Kept 0x4024 s (State.migRequest s b n source) := by
  have e14 : Nat.land 0x4000 0x4024 = 0x4000 := rfl
  unfold State.migRequest
  try dsimp only
  repeat' first
    | exact (rfl : Nat.land _ _ = _)
    | with_reducible first
      | assumption | apply Kept.refl | apply Kept.step (State.setRegion_kept ..) | apply Kept.step (State.mgmtWrite_kept ..)
      | fail_if_no_progress refine Kept.madeMig e14 ?_ | apply Kept.ite
    | dsimp only
    | split

theorem State.applyCount_kept (s : State) (b n : Nat) : Kept 0x4024 s (State.applyCount s b n) := by
  unfold State.applyCount
  try dsimp only
  repeat' first
    | exact (rfl : Nat.land _ _ = _)
    | with_reducible first
      | assumption | apply Kept.refl | apply Kept.step (State.setRegion_kept ..) | apply Kept.step (State.makeRegion_kept ..)
      | apply Kept.step (Kept.pair (by assumption) (State.makeRegion_kept ..)) | apply Kept.step (State.migRequest_kept ..)
      | apply Kept.step (State.notice_kept ..) | apply Kept.ite
    | dsimp only
    | split

theorem State.askPage_kept (s : State) (b sel pasid page : Nat) (w : Waiter) : Kept 0x20002000 s (State.askPage s b sel pasid page w) := by
  unfold State.askPage
  try dsimp only
  repeat' first
    | exact (rfl : Nat.land _ _ = _)
    | with_reducible first
      | assumption | apply Kept.refl | apply Kept.step (State.request_kept ..) | apply Kept.ite
    | dsimp only
    | split

theorem State.askTile_kept (s : State) (b : Nat) (y : List Byte) (i : Nat) (pages : List Nat) : Kept 0x20002000 s (State.askTile s b y i pages) := by
  unfold State.askTile
  try dsimp only
  repeat' first
    | exact (rfl : Nat.land _ _ = _)
    | (intro _; try dsimp only)
    | with_reducible first
      | assumption | apply Kept.refl | apply Kept.fold | apply Kept.step (State.askPage_kept ..) | apply Kept.ite
    | dsimp only
    | split

theorem State.lookAhead_kept (s : State) (b : Nat) (y : List Byte) : Kept 0x20002000 s (State.lookAhead s b y) := by
  unfold State.lookAhead
  generalize ([], []) = t
  generalize List.range 8 = l
  induction l generalizing s t with
  | nil => exact .refl _ _
  | cons i r ih => exact ((State.askTile_kept ..).trans (State.askTile_kept ..)).trans (ih ..)

theorem State.breadcrumb_kept (s : State) (b : Nat) (y : List Byte) : Kept 0x20002000 s (State.breadcrumb s b y) := by
  have e13 : Nat.land 0x2000 0x20002000 = 0x2000 := rfl
  unfold State.breadcrumb
  try dsimp only
  repeat' first
    | exact (rfl : Nat.land _ _ = _)
    | with_reducible first
      | assumption | apply Kept.refl | apply Kept.step (State.lookAhead_kept ..) | fail_if_no_progress refine Kept.madeHeadstock e13 ?_
      | apply Kept.ite
    | dsimp only
    | split

theorem State.endPrefetch_kept (s : State) (b r : Nat) (d : Desc) : Kept 0x4224 s (State.endPrefetch s b r d) := by
  unfold State.endPrefetch
  try dsimp only
  repeat' first
    | exact (rfl : Nat.land _ _ = _)
    | (intro _; try dsimp only)
    | with_reducible first
      | assumption | apply Kept.refl | apply Kept.fold | apply Kept.step (State.migRequest_kept ..)
      | apply Kept.step (State.endDesc_kept ..) | apply Kept.ite
    | dsimp only
    | split

theorem State.pumpPrefetch_kept (s : State) (b r : Nat) (c : BitVec 32) (n : Nat) : Kept 0x20006224 s (State.pumpPrefetch s b r c n) := by
  induction n generalizing s with
  | zero =>
    unfold State.pumpPrefetch
    split
    · exact (State.endPrefetch_kept ..).mono rfl
    · exact .refl _ _
  | succ n ih =>
    unfold State.pumpPrefetch
    split
    · exact .refl _ _
    · exact .ite (((State.modDesc_kept ..).mono rfl).trans (ih ..)) ((State.askPage_kept ..).mono rfl)

theorem State.prefetchTried_kept (s : State) (b r : Nat) (c : BitVec 32) (ok : Bool) : Kept 0x20006224 s (State.prefetchTried s b r c ok) := by
  unfold State.prefetchTried
  try dsimp only
  repeat' first
    | exact (rfl : Nat.land _ _ = _)
    | with_reducible first
      | assumption | apply Kept.refl | apply Kept.step (State.pumpPrefetch_kept ..) | apply Kept.step (State.modDesc_kept ..)
      | apply Kept.ite
    | dsimp only
    | split

theorem State.adviseFrom_kept (s : State) (b advice : Nat) (set : Bool) (arg n k : Nat) :
    Kept 0x20 s (State.adviseFrom s b advice set arg n k).2 := by
  induction k generalizing s n with
  | zero => exact .refl _ _
  | succ k ih =>
    unfold State.adviseFrom
    split
    · exact (((Kept.pair (by assumption) (State.makeRegion_kept ..)).mono rfl).trans ((State.setRegion_kept ..).mono rfl)).trans (ih ..)
    · exact (((Kept.pair (by assumption) (State.makeRegion_kept ..)).mono rfl).trans ((State.modBench_kept ..).mono rfl)).trans (ih ..)

end Sys2Proof.Machine
end

