-- ==== Sys2Proof/Laws/Kept/RegOps.lean ====
section
/-!
SUPPORT. What the operations and commands of Machine/RegOps.lean keep.
-/

namespace Sys2Proof.Machine

theorem State.discard_kept (s : State) (b : Nat) : Kept 0x21 s (State.discard s b) := by
  unfold State.discard
  try dsimp only
  repeat' first
    | exact (rfl : Nat.land _ _ = _)
    | with_reducible first
      | assumption | apply Kept.refl | apply Kept.step (State.countHub_kept ..) | apply Kept.step (State.countBench_kept ..)
      | apply Kept.ite
    | dsimp only
    | split

theorem State.unstage_kept (s : State) (b : Nat) : Kept 0x20 s (State.unstage s b) := by
  unfold State.unstage
  try dsimp only
  repeat' first
    | exact (rfl : Nat.land _ _ = _)
    | with_reducible first
      | assumption | apply Kept.refl | apply Kept.step (State.modBench_kept ..) | apply Kept.ite
    | dsimp only
    | split

theorem State.served_kept (s : State) (b : Nat) (f : State → State) {M : Nat} (hm : Nat.land 0x21 M = 0x21) (hf : ∀ s, Kept M s (f s)) :
    Kept M s (State.served s b f) := by
  unfold State.served
  try dsimp only
  repeat' first
    | exact (rfl : Nat.land _ _ = _)
    | exact land_trans (k := 0x21) rfl hm
    | with_reducible first
      | assumption | apply Kept.refl | apply Kept.then (hf ..) | apply Kept.step (State.discard_kept ..)
      | apply Kept.step (State.unstage_kept ..) | apply Kept.ite
    | dsimp only
    | split

theorem State.servedRing_kept (s : State) (b r offset : Nat) (value : BitVec 32) (f : State → State) {M : Nat} (hm : Nat.land 0x23 M = 0x23) (hf : ∀ s, Kept M s (f s)) :
    Kept M s (State.servedRing s b r offset value f) := by
  unfold State.servedRing
  try dsimp only
  repeat' first
    | exact (rfl : Nat.land _ _ = _)
    | exact land_trans (k := 0x23) rfl hm
    | (intro _; try dsimp only)
    | with_reducible first
      | assumption | apply Kept.refl | apply Kept.then (hf ..) | apply Kept.then (State.atDomain_kept (hm := ?_) (hf := ?_) ..)
      | apply Kept.step (State.countBench_kept ..) | apply Kept.then (State.served_kept (hm := ?_) (hf := ?_) ..) | apply Kept.ite
    | dsimp only
    | split

theorem State.boundary_kept (s : State) (b r : Nat) : Kept 0x2000224 s (State.boundary s b r) := by
  unfold State.boundary
  try dsimp only
  repeat' first
    | exact (rfl : Nat.land _ _ = _)
    | with_reducible first
      | assumption | apply Kept.refl | apply Kept.step (State.giveUp_kept ..) | apply Kept.ite
    | dsimp only
    | split

theorem State.settleRing_kept (s : State) (b r : Nat) : Kept 0x2000224 s (State.settleRing s b r) := by
  unfold State.settleRing
  try dsimp only
  repeat' first
    | exact (rfl : Nat.land _ _ = _)
    | with_reducible first
      | assumption | apply Kept.refl | apply Kept.step (State.modRing_kept ..) | apply Kept.step (State.giveUp_kept ..)
      | apply Kept.step (State.fetchPark_kept ..) | apply Kept.ite
    | dsimp only
    | split

theorem State.offerTail_kept (s : State) (b r : Nat) (v : BitVec 32) : Kept 0x22 s (State.offerTail s b r v) := by
  unfold State.offerTail
  try dsimp only
  repeat' first
    | exact (rfl : Nat.land _ _ = _)
    | with_reducible first
      | assumption | apply Kept.refl | apply Kept.step (State.modRing_kept ..) | apply Kept.step (State.stir_kept ..)

theorem State.enableRing_kept (s : State) (b r : Nat) : Kept 0x122002020 s (State.enableRing s b r) := by
  unfold State.enableRing
  try dsimp only
  repeat' first
    | exact (rfl : Nat.land _ _ = _)
    | with_reducible first
      | assumption | apply Kept.refl | apply Kept.step (State.modRing_kept ..) | apply Kept.step (State.addTally_kept ..)
      | apply Kept.step (State.takeKnock_kept ..) | apply Kept.ite
    | dsimp only
    | split

end Sys2Proof.Machine
end

