-- ==== Sys2Proof/Laws/Kept/BurstOps.lean ====
section
/-!
SUPPORT. What the operations and commands of Machine/BurstOps.lean keep.
-/

namespace Sys2Proof.Machine

theorem State.meetObstacle_kept (s : State) (b r : Nat) (d : Desc) (operand addr : Nat) (x : Xl) (write : Bool) :
    Kept 0x22002224 s (State.meetObstacle s b r d operand addr x write) := by
  unfold State.meetObstacle
  try dsimp only
  repeat' first
    | exact (rfl : Nat.land _ _ = _)
    | with_reducible first
      | assumption | apply Kept.refl | apply Kept.step (State.request_kept ..) | apply Kept.step (State.advance_kept ..)
      | apply Kept.step (State.parkHost_kept ..) | apply Kept.step (State.endDesc_kept ..) | apply Kept.step (State.raiseFault_kept ..)
      | apply Kept.ite
    | dsimp only
    | split

theorem State.engineCharge_kept (s : State) (b : Nat) (clusterB : Bool) (n : Nat) : Kept 0x1020 s (State.engineCharge s b clusterB n) := by
  unfold State.engineCharge
  try dsimp only
  repeat' first
    | exact (rfl : Nat.land _ _ = _)
    | with_reducible first
      | assumption | apply Kept.refl | apply Kept.step (State.charge_kept ..) | apply Kept.step (State.arbitrate_kept ..)
      | apply Kept.step (State.rateCharge_kept ..)
    | dsimp only
    | split

theorem State.attendDesc_kept (s : State) (l b r : Nat) (c : BitVec 32) : Kept 0x22002224 s (State.attendDesc s l b r c).2 := by
  unfold State.attendDesc
  try dsimp only
  repeat' first
    | exact (rfl : Nat.land _ _ = _)
    | with_reducible first
      | assumption | apply Kept.refl | apply Kept.step (State.meetObstacle_kept ..) | apply Kept.step (State.advance_kept ..)
      | apply Kept.step (State.modDesc_kept ..) | apply Kept.step (State.endDesc_kept ..) | apply Kept.ite
    | dsimp only
    | split

theorem State.attendTurns_kept (s : State) (l b r : Nat) (t : List (BitVec 32)) : Kept 0x22002224 s (State.attendTurns s l b r t).2 := by
  induction t generalizing s with
  | nil => exact .refl _ _
  | cons c rest ih =>
    unfold State.attendTurns
    split
    · exact .refl _ _
    · have h := ((State.attendDesc_kept s l b r c).mono (m := 0x22002224) rfl).trans (ih (s.attendDesc l b r c).2)
      dsimp only
      split
      · split
        · exact h.trans ((State.modDesc_kept ..).mono rfl)
        · split
          · exact h.trans ((State.modDesc_kept ..).mono rfl)
          · exact h
      · exact h

theorem State.attendLathe_kept (s : State) (l : Nat) (t : List (Nat × Option (Nat × Nat))) : Kept 0x22002224 s (State.attendLathe s l t).2 := by
  induction t generalizing s with
  | nil => exact .refl _ _
  | cons x rest ih =>
    obtain ⟨k, _ | ⟨b, r⟩⟩ := x
    · exact ih s
    · unfold State.attendLathe
      dsimp only
      have h := ((State.attendTurns_kept s l b r (s.ring b r).turns).mono (m := 0x22002224) rfl).trans (ih (s.attendTurns l b r (s.ring b r).turns).2)
      split
      · exact h
      · exact h

theorem State.accessBurst_kept (s : State) (b : Nat) (d : Desc) (u : Burst) : Kept 0x20002020 s (State.accessBurst s b d u) := by
  unfold State.accessBurst
  try dsimp only
  repeat' first
    | exact (rfl : Nat.land _ _ = _)
    | (intro _; try dsimp only)
    | with_reducible first
      | assumption | apply Kept.refl | apply Kept.fold | apply Kept.step (State.touchOp_kept ..) | apply Kept.step (State.countOp_kept ..)
      | apply Kept.ite
    | dsimp only
    | split

theorem State.grantBurst_kept (s : State) (l k b r : Nat) (c : BitVec 32) (u : Burst) : Kept 0x16300b224 s (State.grantBurst s l k b r c u) := by
  unfold State.grantBurst
  try dsimp only
  repeat' first
    | exact (rfl : Nat.land _ _ = _)
    | with_reducible first
      | assumption | apply Kept.refl | apply Kept.step (State.accessBurst_kept ..) | apply Kept.step (State.pumpLathe_kept ..)
      | apply Kept.step (State.modRing_kept ..) | apply Kept.step (State.modLathe_kept ..) | apply Kept.step (State.countPerf_kept ..)
      | apply Kept.step (State.charge_kept ..) | apply Kept.step (State.rateCharge_kept ..) | apply Kept.step (State.modDesc_kept ..)
      | apply Kept.ite
    | dsimp only
    | split

theorem State.takeChannel_kept (s : State) (b r l c : Nat) : Kept 0x6000220 s (State.takeChannel s b r l c) := by
  have e26 : Nat.land 0x4000000 0x6000220 = 0x4000000 := rfl
  unfold State.takeChannel
  try dsimp only
  repeat' first
    | exact (rfl : Nat.land _ _ = _)
    | with_reducible first
      | assumption | apply Kept.refl | apply Kept.step (State.modRing_kept ..) | apply Kept.step (State.modLathe_kept ..)
      | apply Kept.step (State.addTally_kept ..) | fail_if_no_progress refine Kept.madeBg e26 ?_

end Sys2Proof.Machine
end

