-- ==== Sys2Proof/Laws/Kept/HaltOps.lean ====
section
/-!
SUPPORT. What the operations and commands of Machine/HaltOps.lean keep.
-/

namespace Sys2Proof.Machine

theorem State.haltRing_kept (s : State) (b r : Nat) : Kept 0x2000224 s (State.haltRing s b r) := by
  unfold State.haltRing
  try dsimp only
  repeat' first
    | exact (rfl : Nat.land _ _ = _)
    | with_reducible first
      | assumption | apply Kept.refl | apply Kept.step (State.modRing_kept ..) | apply Kept.step (State.stopRing_kept ..)
      | apply Kept.step (State.parkRing_kept ..) | apply Kept.ite
    | dsimp only
    | split

theorem State.sendReplay_kept (s : State) (l : Nat) (i : ReplayItem) : Kept 0x121008000 s (State.sendReplay s l i) := by
  unfold State.sendReplay
  try dsimp only
  repeat' first
    | exact (rfl : Nat.land _ _ = _)
    | with_reducible first
      | assumption | apply Kept.refl | apply Kept.step (State.sendDie_kept ..) | apply Kept.step (State.sendHub_kept ..)
      | apply Kept.step (State.readHost_kept ..)
    | dsimp only
    | split

theorem State.replayNext_kept (s : State) (l : Nat) : Kept 0x121008200 s (State.replayNext s l) := by
  unfold State.replayNext
  try dsimp only
  repeat' first
    | exact (rfl : Nat.land _ _ = _)
    | with_reducible first
      | assumption | apply Kept.refl | apply Kept.step (State.sendReplay_kept ..) | apply Kept.step (State.modLathe_kept ..)
      | apply Kept.ite
    | dsimp only
    | split

theorem State.haltLathe_kept (s : State) (l : Nat) (tag : Option (BitVec 16)) : Kept 0x123008224 s (State.haltLathe s l tag) := by
  unfold State.haltLathe
  try dsimp only
  repeat' first
    | exact (rfl : Nat.land _ _ = _)
    | (intro _; try dsimp only)
    | with_reducible first
      | assumption | apply Kept.refl | apply Kept.fold | apply Kept.step (State.haltRing_kept ..)
      | apply Kept.step (State.replayNext_kept ..) | apply Kept.step (State.modLathe_kept ..) | apply Kept.step (State.logError_kept ..)
      | apply Kept.ite
    | dsimp only
    | split

theorem State.replayed_kept (s : State) (l : Nat) (reproduces : Bool) : Kept 0x121008200 s (State.replayed s l reproduces) := by
  unfold State.replayed
  try dsimp only
  repeat' first
    | exact (rfl : Nat.land _ _ = _)
    | with_reducible first
      | assumption | apply Kept.refl | apply Kept.step (State.replayNext_kept ..) | apply Kept.step (State.modLathe_kept ..)
      | apply Kept.ite
    | dsimp only
    | split

theorem State.haltNotice_kept (s : State) (b r cause l : Nat) (since : BitVec 64) : Kept 0x24 s (State.haltNotice s b r cause l since) := by
  unfold State.haltNotice
  try dsimp only
  repeat' first
    | exact (rfl : Nat.land _ _ = _)
    | with_reducible first
      | assumption | apply Kept.refl | apply Kept.step (State.notice_kept ..)

theorem State.endCulprit_kept (s : State) (l : Nat) (i : ReplayItem) (since : BitVec 64) : Kept 0x2000224 s (State.endCulprit s l i since) := by
  unfold State.endCulprit
  try dsimp only
  repeat' first
    | exact (rfl : Nat.land _ _ = _)
    | with_reducible first
      | assumption | apply Kept.refl | apply Kept.step (State.haltNotice_kept ..) | apply Kept.step (State.advance_kept ..)
      | apply Kept.step (State.modRing_kept ..) | apply Kept.step (State.unparkRing_kept ..) | apply Kept.step (State.endDesc_kept ..)
      | apply Kept.ite
    | dsimp only
    | split

theorem State.resumeInnocent_kept (s : State) (l : Nat) (e : Nat × Nat × Nat) (since : BitVec 64) :
    Kept 0x2000224 s (State.resumeInnocent s l e since) := by
  unfold State.resumeInnocent
  try dsimp only
  repeat' first
    | exact (rfl : Nat.land _ _ = _)
    | with_reducible first
      | assumption | apply Kept.refl | apply Kept.step (State.haltNotice_kept ..) | apply Kept.step (State.unparkRing_kept ..)

theorem State.fenceLathe_kept (s : State) (l : Nat) : Kept 0x2000224 s (State.fenceLathe s l) := by
  unfold State.fenceLathe
  try dsimp only
  repeat' first
    | exact (rfl : Nat.land _ _ = _)
    | with_reducible first
      | assumption | apply Kept.refl | apply Kept.step (State.modLathe_kept ..) | apply Kept.step (State.logError_kept ..)
      | apply Kept.step (State.logCause_kept ..) | apply Kept.ite
    | dsimp only
    | split

theorem State.unattributedHalt_kept (s : State) (l : Nat) : Kept 0x2000224 s (State.unattributedHalt s l) := by
  unfold State.unattributedHalt
  try dsimp only
  repeat' first
    | exact (rfl : Nat.land _ _ = _)
    | with_reducible first
      | assumption | apply Kept.refl | apply Kept.step (State.fenceLathe_kept ..) | apply Kept.step (State.modLathe_kept ..)
      | apply Kept.step (State.logError_kept ..) | apply Kept.ite
    | dsimp only
    | split

end Sys2Proof.Machine
end

