-- ==== Sys2Proof/Laws/Kept/DescOps.lean ====
section
/-!
SUPPORT. What the operations and commands of Machine/DescOps.lean keep.
-/

namespace Sys2Proof.Machine

theorem State.endPlain_kept (s : State) (b r : Nat) (d : Desc) (code : Nat) (result : BitVec 64) :
    Kept 0x220 s (State.endPlain s b r d code result) := by
  unfold State.endPlain
  try dsimp only
  repeat' first
    | exact (rfl : Nat.land _ _ = _)
    | with_reducible first
      | assumption | apply Kept.refl | apply Kept.step (State.endDesc_kept ..)

theorem State.begin_kept (s : State) (b r op : Nat) {a} {t : State} (e : State.begin s b r op = some (a, t)) : Kept 0x24 s t := by
  unfold State.begin at e
  split at e
  · obtain ⟨k, -, h⟩ := Option.map_eq_some_iff.mp e
    cases h
    exact State.startDesc_kept ..
  · split at e
    · cases e
    · obtain ⟨k, -, h⟩ := Option.map_eq_some_iff.mp e
      cases h
      exact .refl _ _

theorem State.modBillet_kept (s : State) (i : Nat) (f : Billet → Billet) : Kept 0x2000000 s (State.modBillet s i f) := by
  have e25 : Nat.land 0x2000000 0x2000000 = 0x2000000 := rfl
  unfold State.modBillet
  try dsimp only
  repeat' first
    | exact (rfl : Nat.land _ _ = _)
    | with_reducible first
      | assumption | apply Kept.refl | fail_if_no_progress refine Kept.madeRecovery e25 ?_
    | dsimp only
    | split

theorem State.allocBillet_kept (s : State) (b i kib : Nat) : Kept 0x42000000 s (State.allocBillet s b i kib) := by
  unfold State.allocBillet
  exact .step (State.addTally_kept ..) rfl (.step (State.clearMarks_kept ..) rfl (.step (Kept.mem fun h => memZero_wf _ _ h) rfl
    ((State.modBillet_kept ..).mono rfl)))

theorem State.endBillet_kept (s : State) (i : Nat) : Kept 0x2002000 s (State.endBillet s i) := by
  unfold State.endBillet
  try dsimp only
  repeat' first
    | exact (rfl : Nat.land _ _ = _)
    | with_reducible first
      | assumption | apply Kept.refl | apply Kept.step (State.modBillet_kept ..) | apply Kept.step (State.dropEntries_kept ..)
      | apply Kept.step (State.endTally_kept ..)
    | dsimp only
    | split

theorem State.settleFree_kept (s : State) (b r : Nat) (d : Desc) : Kept 0x2002220 s (State.settleFree s b r d) := by
  unfold State.settleFree
  try dsimp only
  repeat' first
    | exact (rfl : Nat.land _ _ = _)
    | with_reducible first
      | assumption | apply Kept.refl | apply Kept.step (State.endPlain_kept ..) | apply Kept.step (State.endBillet_kept ..)
      | apply Kept.ite
    | dsimp only
    | split

theorem State.foreignFree_kept (s : State) (to_ handle from_ : Nat) : Kept 0x24 s (State.foreignFree s to_ handle from_) := by
  unfold State.foreignFree
  try dsimp only
  repeat' first
    | exact (rfl : Nat.land _ _ = _)
    | with_reducible first
      | assumption | apply Kept.refl | apply Kept.step (State.notice_kept ..)

theorem State.freeRows_kept (s : State) (b r : Nat) (d : Desc) : Kept 0x2002224 s (State.freeRows s b r d) := by
  unfold State.freeRows
  try dsimp only
  repeat' first
    | exact (rfl : Nat.land _ _ = _)
    | with_reducible first
      | assumption | apply Kept.refl | apply Kept.step (State.endPlain_kept ..) | apply Kept.step (State.modBillet_kept ..)
      | apply Kept.step (State.settleFree_kept ..) | apply Kept.step (State.foreignFree_kept ..)
      | apply Kept.step (State.modBench_kept ..) | apply Kept.ite
    | dsimp only
    | split

theorem State.settleWaits_kept (s : State) (b : Nat) : Kept 0x2002220 s (State.settleWaits s b) := by
  unfold State.settleWaits
  try dsimp only
  repeat' first
    | exact (rfl : Nat.land _ _ = _)
    | (intro _; try dsimp only)
    | with_reducible first
      | assumption | apply Kept.refl | apply Kept.fold | apply Kept.step (State.endPlain_kept ..)
      | apply Kept.step (State.settleFree_kept ..) | apply Kept.ite
    | dsimp only
    | split

end Sys2Proof.Machine
end

