-- ==== Sys2Proof/Laws/Kept/Rings.lean ====
section
/-!
SUPPORT. What the operations and commands of Machine/Rings.lean keep.
-/

namespace Sys2Proof.Machine

theorem State.doorbellNow_kept (s : State) (b r : Nat) (tail : BitVec 32) : Kept 0x22 s (State.doorbellNow s b r tail) := by
  unfold State.doorbellNow
  try dsimp only
  repeat' first
    | exact (rfl : Nat.land _ _ = _)
    | with_reducible first
      | assumption | apply Kept.refl | apply Kept.step (State.countBench_kept ..) | apply Kept.step (State.offerTail_kept ..)
      | apply Kept.ite
    | dsimp only
    | split

theorem State.doorbell_kept (s : State) (b r : Nat) (tail : BitVec 32) : Kept 0x800000022 s (State.doorbell s b r tail) := by
  have e35 : Nat.land 0x800000000 0x800000022 = 0x800000000 := rfl
  unfold State.doorbell
  try dsimp only
  repeat' first
    | exact (rfl : Nat.land _ _ = _)
    | with_reducible first
      | assumption | apply Kept.refl | apply Kept.step (State.doorbellNow_kept ..) | fail_if_no_progress refine Kept.madeBar2Queue e35 ?_
      | apply Kept.ite
    | dsimp only
    | split

theorem execDoorbell_kept (bench ring : Nat) (tail : BitVec 32) (s : State) : KeptR 0x800000023 s (execDoorbell bench ring tail s) := by
  unfold execDoorbell
  try dsimp only
  repeat' first
    | exact (rfl : Nat.land _ _ = _)
    | (intro _; try dsimp only)
    | with_reducible first
      | assumption | apply Kept.refl | apply KeptR.next | apply Kept.then (State.servedRing_kept (hm := ?_) (hf := ?_) ..)
      | apply Kept.step (State.doorbell_kept ..)

theorem execGoS_kept (bench ring : Nat) (tail : BitVec 32) (s : State) : KeptR 0x20 s (execGoS bench ring tail s) := by
  unfold execGoS
  try dsimp only
  repeat' first
    | exact (rfl : Nat.land _ _ = _)
    | with_reducible first
      | assumption | apply Kept.refl | apply KeptR.next | apply Kept.step (State.modRing_kept ..) | apply Kept.ite | apply KeptR.ite
    | dsimp only
    | split

theorem State.knocked_kept (s : State) (b r : Nat) : Kept 0x100000020 s (State.knocked s b r) := by
  unfold State.knocked
  try dsimp only
  repeat' first
    | exact (rfl : Nat.land _ _ = _)
    | with_reducible first
      | assumption | apply Kept.refl | apply Kept.step (State.modRing_kept ..) | apply Kept.step (State.knockMsg_kept ..) | apply Kept.ite
    | dsimp only
    | split

theorem execSnpinv_kept (bench ring : Nat) (s : State) : KeptR 0x100000022 s (execSnpinv bench ring s) := by
  unfold execSnpinv
  try dsimp only
  repeat' first
    | exact (rfl : Nat.land _ _ = _)
    | (intro _; try dsimp only)
    | with_reducible first
      | assumption | apply Kept.refl | apply KeptR.next | apply Kept.then (State.atDomain_kept (hm := ?_) (hf := ?_) ..)
      | apply Kept.step (State.modRing_kept ..) | apply Kept.step (State.knockMsg_kept ..) | apply Kept.step (State.knocked_kept ..)
      | apply Kept.ite | apply KeptR.ite
    | dsimp only
    | split

theorem execSnpdata_kept (bench ring : Nat) (s : State) : KeptR 0x100000000 s (execSnpdata bench ring s) := by
  unfold execSnpdata
  try dsimp only
  repeat' first
    | exact (rfl : Nat.land _ _ = _)
    | with_reducible first
      | assumption | apply Kept.refl | apply KeptR.next | apply Kept.step (State.knockMsg_kept ..) | apply Kept.ite | apply KeptR.ite
    | dsimp only
    | split

theorem State.polled_kept (s : State) (b r : Nat) (tail : BitVec 32) : Kept 0x22 s (State.polled s b r tail) := by
  unfold State.polled
  try dsimp only
  repeat' first
    | exact (rfl : Nat.land _ _ = _)
    | with_reducible first
      | assumption | apply Kept.refl | apply Kept.step (State.wake_kept ..) | apply Kept.step (State.offerTail_kept ..) | apply Kept.ite
    | dsimp only
    | split

theorem execKnockPoll_kept (bench ring : Nat) (tail : BitVec 32) (s : State) : KeptR 0x122002226 s (execKnockPoll bench ring tail s) := by
  unfold execKnockPoll
  try dsimp only
  repeat' first
    | exact (rfl : Nat.land _ _ = _)
    | with_reducible first
      | assumption | apply Kept.refl | apply KeptR.next | apply Kept.step (State.readRing_kept ..)
      | apply Kept.step (Kept.pair (by assumption) (State.readRing_kept ..))
      | apply Kept.step (State.readRing_some (e := by assumption) ..) | apply Kept.step (State.polled_kept ..) | apply Kept.ite
      | apply KeptR.ite
    | dsimp only
    | split

theorem execOwnLateRetry_kept (bench ring : Nat) (s : State) : KeptR 0x20 s (execOwnLateRetry bench ring s) := by
  unfold execOwnLateRetry
  try dsimp only
  repeat' first
    | exact (rfl : Nat.land _ _ = _)
    | with_reducible first
      | assumption | apply Kept.refl | apply KeptR.next | apply Kept.step (State.modRing_kept ..) | apply Kept.ite | apply KeptR.ite
    | dsimp only
    | split

theorem State.takeEntry_kept (s : State) (b r : Nat) (y : List Byte) : Kept 0x20 s (State.takeEntry s b r y) := by
  unfold State.takeEntry
  try dsimp only
  repeat' first
    | exact (rfl : Nat.land _ _ = _)
    | with_reducible first
      | assumption | apply Kept.refl | apply Kept.step (State.modRing_kept ..) | apply Kept.ite
    | dsimp only
    | split

theorem execDescriptorFetch_kept (bench ring : Nat) (result : FetchResult) (s : State) :
    KeptR 0x12200222c s (execDescriptorFetch bench ring result s) := by
  unfold execDescriptorFetch
  try dsimp only
  repeat' first
    | exact (rfl : Nat.land _ _ = _)
    | with_reducible first
      | assumption | apply Kept.refl | apply KeptR.next | apply Kept.step (State.aer_kept ..) | apply Kept.step (State.parkHost_kept ..)
      | apply Kept.step (State.fetchStops_kept ..) | apply Kept.step (State.readRing_kept ..)
      | apply Kept.step (Kept.pair (by assumption) (State.readRing_kept ..))
      | apply Kept.step (State.readRing_some (e := by assumption) ..) | apply Kept.step (State.takeEntry_kept ..) | apply Kept.ite
      | apply KeptR.ite
    | dsimp only
    | split

theorem State.refuseSource_kept (s : State) (b r : Nat) : Kept 0x220 s (State.refuseSource s b r) := by
  unfold State.refuseSource
  try dsimp only
  repeat' first
    | exact (rfl : Nat.land _ _ = _)
    | with_reducible first
      | assumption | apply Kept.refl | apply Kept.step (State.endDesc_kept ..) | apply Kept.ite
    | dsimp only
    | split

theorem State.writeStatus_kept (s : State) (b r : Nat) (d : Desc) (st : Status) (a : Nat) (translated : Bool) :
    Kept 0x24 s (State.writeStatus s b r d st a translated) := by
  unfold State.writeStatus
  try dsimp only
  repeat' first
    | exact (rfl : Nat.land _ _ = _)
    | with_reducible first
      | assumption | apply Kept.refl | apply Kept.step (State.modBench_kept ..) | apply Kept.step (State.modRing_kept ..)
      | apply Kept.step (State.benchWrite_kept ..) | apply Kept.ite
    | dsimp only
    | split

theorem State.finish_kept (s : State) (b r : Nat) (d : Desc) (st : Status) : Kept 0x16300b224 s (State.finish s b r d st) := by
  unfold State.finish
  try dsimp only
  repeat' first
    | exact (rfl : Nat.land _ _ = _)
    | with_reducible first
      | assumption | apply Kept.refl | apply Kept.step (State.settleWaits_kept ..) | apply Kept.step (State.pumpRing_kept ..)
      | apply Kept.step (State.fireVector_kept ..) | apply Kept.step (State.trace_kept ..) | apply Kept.step (State.boundary_kept ..)
      | apply Kept.step (State.settleRing_kept ..) | apply Kept.step (State.parkRing_kept ..) | apply Kept.ite
    | dsimp only
    | split

theorem execDescriptorComplete_kept (bench ring : Nat) (s : State) : KeptR 0x16300b224 s (execDescriptorComplete bench ring s) := by
  unfold execDescriptorComplete
  try dsimp only
  repeat' first
    | exact (rfl : Nat.land _ _ = _)
    | with_reducible first
      | assumption | apply Kept.refl | apply KeptR.next | apply Kept.step (State.parkHost_kept ..)
      | apply Kept.step (State.askRing_kept ..) | apply Kept.step (State.ringUnmapped_kept ..)
      | apply Kept.step (State.refuseSource_kept ..) | apply Kept.step (State.writeStatus_kept ..)
      | apply Kept.step (State.finish_kept ..) | apply Kept.ite | apply KeptR.ite
    | dsimp only
    | split

end Sys2Proof.Machine
end

