-- ==== Sys2Proof/Laws/Kept/HostOps.lean ====
section
/-!
SUPPORT. What the operations and commands of Machine/HostOps.lean keep.
-/

namespace Sys2Proof.Machine

theorem State.complete_kept (s : State) (p f hid addr : Nat) (status : CplStatus) (data : List Byte) :
    Kept 0x4 s (State.complete s p f hid addr status data) := by
  unfold State.complete
  try dsimp only
  repeat' first
    | exact (rfl : Nat.land _ _ = _)
    | (intro _; try dsimp only)
    | with_reducible first
      | assumption | apply Kept.refl | apply Kept.fold | apply Kept.step (State.egress_kept ..)

theorem State.bar2Missed_kept (s : State) (b : Nat) : Kept 0x20 s (State.bar2Missed s b) := by
  unfold State.bar2Missed
  try dsimp only
  repeat' first
    | exact (rfl : Nat.land _ _ = _)
    | with_reducible first
      | assumption | apply Kept.refl | apply Kept.step (State.modBench_kept ..)

theorem State.bar2Ones_kept (s : State) (b p f off length hid : Nat) : Kept 0x24 s (State.bar2Ones s b p f off length hid) := by
  unfold State.bar2Ones
  try dsimp only
  repeat' first
    | exact (rfl : Nat.land _ _ = _)
    | with_reducible first
      | assumption | apply Kept.refl | apply Kept.step (State.complete_kept ..) | apply Kept.step (State.bar2Missed_kept ..)

theorem State.bar2Lost_kept (s : State) (q : Bar2Req) : Kept 0x10024 s (State.bar2Lost s q) := by
  have e16 : Nat.land 0x10000 0x10024 = 0x10000 := rfl
  unfold State.bar2Lost
  try dsimp only
  repeat' first
    | exact (rfl : Nat.land _ _ = _)
    | with_reducible first
      | assumption | apply Kept.refl | apply Kept.step (State.complete_kept ..) | apply Kept.step (State.bar2Ones_kept ..)
      | fail_if_no_progress refine Kept.madeBar2Reads e16 ?_
    | dsimp only
    | split

theorem State.bar2Count_kept (s : State) (b off : Nat) (counted : Bool) : Kept 0x20002020 s (State.bar2Count s b off counted) := by
  unfold State.bar2Count
  try dsimp only
  repeat' first
    | exact (rfl : Nat.land _ _ = _)
    | with_reducible first
      | assumption | apply Kept.refl | apply Kept.step (State.useEntry_kept ..) | apply Kept.step (State.countAccess_kept ..)
      | apply Kept.ite
    | dsimp only
    | split

theorem State.bar2ReadAt_kept (s : State) (b p f off length hid d o : Nat) (counted : Bool) :
    Kept 0x12001b020 s (State.bar2ReadAt s b p f off length hid d o counted) := by
  have e16 : Nat.land 0x10000 0x12001b020 = 0x10000 := rfl
  unfold State.bar2ReadAt
  try dsimp only
  repeat' first
    | exact (rfl : Nat.land _ _ = _)
    | (intro _; try dsimp only)
    | with_reducible first
      | assumption | apply Kept.refl | apply Kept.mapGetD | apply Kept.step (State.bar2Count_kept ..)
      | apply Kept.step (State.askDie_kept ..) | fail_if_no_progress refine Kept.madeBar2Reads e16 ?_

theorem State.sendPut_kept (s : State) (p f d o : Nat) (peer : Bool) (data : List (Byte × Bool)) :
    Kept 0x520009000 s (State.sendPut s p f d o peer data) := by
  have e34 : Nat.land 0x400000000 0x520009000 = 0x400000000 := rfl
  unfold State.sendPut
  try dsimp only
  repeat' first
    | exact (rfl : Nat.land _ _ = _)
    | with_reducible first
      | assumption | apply Kept.refl | apply Kept.step (State.askDie_kept ..) | fail_if_no_progress refine Kept.madeBar2Writes e34 ?_

theorem State.bar2WriteAt_kept (s : State) (b p f off : Nat) (data : List (Byte × Bool)) (d o : Nat) (counted : Bool) :
    Kept 0x52000b020 s (State.bar2WriteAt s b p f off data d o counted) := by
  unfold State.bar2WriteAt
  try dsimp only
  repeat' first
    | exact (rfl : Nat.land _ _ = _)
    | with_reducible first
      | assumption | apply Kept.refl | apply Kept.step (State.bar2Count_kept ..) | apply Kept.step (State.sendPut_kept ..)

theorem State.bar2Pop_kept (s : State) (p f : Nat) : Kept 0x800000000 s (State.bar2Pop s p f) := by
  have e35 : Nat.land 0x800000000 0x800000000 = 0x800000000 := rfl
  unfold State.bar2Pop
  try dsimp only
  repeat' first
    | exact (rfl : Nat.land _ _ = _)
    | with_reducible first
      | assumption | apply Kept.refl | fail_if_no_progress refine Kept.madeBar2Queue e35 ?_
    | dsimp only
    | split

theorem State.bar2Walking_kept (s : State) (p f : Nat) : Kept 0x800000000 s (State.bar2Walking s p f) := by
  have e35 : Nat.land 0x800000000 0x800000000 = 0x800000000 := rfl
  unfold State.bar2Walking
  try dsimp only
  repeat' first
    | exact (rfl : Nat.land _ _ = _)
    | with_reducible first
      | assumption | apply Kept.refl | fail_if_no_progress refine Kept.madeBar2Queue e35 ?_
    | dsimp only
    | split

theorem State.bar2ReadTurn_kept (s : State) (p f off length hid : Nat) : Kept 0x92001b024 s (State.bar2ReadTurn s p f off length hid).2 := by
  unfold State.bar2ReadTurn
  try dsimp only
  repeat' first
    | exact (rfl : Nat.land _ _ = _)
    | with_reducible first
      | assumption | apply Kept.refl | apply Kept.step (State.request_kept ..) | apply Kept.step (State.complete_kept ..)
      | apply Kept.step (State.bar2Ones_kept ..) | apply Kept.step (State.bar2ReadAt_kept ..) | apply Kept.step (State.bar2Pop_kept ..)
      | apply Kept.step (State.bar2Walking_kept ..)
    | dsimp only
    | split

theorem State.bar2WriteTurn_kept (s : State) (p f off : Nat) (data : List (Byte × Bool)) :
    Kept 0xd2000b020 s (State.bar2WriteTurn s p f off data).2 := by
  unfold State.bar2WriteTurn
  try dsimp only
  repeat' first
    | exact (rfl : Nat.land _ _ = _)
    | with_reducible first
      | assumption | apply Kept.refl | apply Kept.step (State.request_kept ..) | apply Kept.step (State.bar2Missed_kept ..)
      | apply Kept.step (State.bar2WriteAt_kept ..) | apply Kept.step (State.bar2Pop_kept ..)
      | apply Kept.step (State.bar2Walking_kept ..)
    | dsimp only
    | split

theorem State.bar2Turn_kept (s : State) (p f : Nat) : Kept 0xd2001b026 s (State.bar2Turn s p f).2 := by
  unfold State.bar2Turn
  try dsimp only
  repeat' first
    | exact (rfl : Nat.land _ _ = _)
    | with_reducible first
      | assumption | apply Kept.refl | apply Kept.step (State.bar2Pop_kept ..) | apply Kept.step (State.bar2ReadTurn_kept ..)
      | apply Kept.step (Kept.pair (by assumption) (State.bar2ReadTurn_kept ..)) | apply Kept.step (State.bar2WriteTurn_kept ..)
      | apply Kept.step (Kept.pair (by assumption) (State.bar2WriteTurn_kept ..)) | apply Kept.step (State.doorbellNow_kept ..)
      | apply Kept.ite
    | dsimp only
    | split

theorem State.pumpBar2_kept (s : State) (p f n : Nat) : Kept 0xd2001b026 s (State.pumpBar2 s p f n) := by
  induction n generalizing s with
  | zero => exact .refl _ _
  | succ k ih =>
    unfold State.pumpBar2
    split
    · exact ((Kept.pair (by assumption) (State.bar2Turn_kept ..)).mono rfl).trans (ih ..)
    · exact (Kept.pair (by assumption) (State.bar2Turn_kept ..)).mono rfl

theorem State.serveQueue_kept (s : State) (p f : Nat) : Kept 0xd2001b026 s (State.serveQueue s p f) := by
  unfold State.serveQueue
  try dsimp only
  repeat' first
    | exact (rfl : Nat.land _ _ = _)
    | with_reducible first
      | assumption | apply Kept.refl | apply Kept.step (State.pumpBar2_kept ..)

theorem State.arrive_kept (s : State) (p f : Nat) (i : Bar2Item) : Kept 0xd2001b026 s (State.arrive s p f i) := by
  have e35 : Nat.land 0x800000000 0xd2001b026 = 0x800000000 := rfl
  unfold State.arrive
  try dsimp only
  repeat' first
    | exact (rfl : Nat.land _ _ = _)
    | with_reducible first
      | assumption | apply Kept.refl | apply Kept.step (State.serveQueue_kept ..) | fail_if_no_progress refine Kept.madeBar2Queue e35 ?_

theorem State.bar2Served_kept (s : State) (p f : Nat) : Kept 0xd2001b026 s (State.bar2Served s p f) := by
  unfold State.bar2Served
  try dsimp only
  repeat' first
    | exact (rfl : Nat.land _ _ = _)
    | with_reducible first
      | assumption | apply Kept.refl | apply Kept.step (State.bar2Pop_kept ..) | apply Kept.step (State.serveQueue_kept ..)

theorem State.stopBar2_kept (s : State) (p f : Nat) : Kept 0xd2001b026 s (State.stopBar2 s p f) := by
  have e35 : Nat.land 0x800000000 0xd2001b026 = 0x800000000 := rfl
  unfold State.stopBar2
  try dsimp only
  repeat' first
    | exact (rfl : Nat.land _ _ = _)
    | with_reducible first
      | assumption | apply Kept.refl | apply Kept.step (State.serveQueue_kept ..) | fail_if_no_progress refine Kept.madeBar2Queue e35 ?_
      | apply Kept.ite
    | dsimp only
    | split

theorem State.putAcked_kept (s : State) (id : Nat) (status : MemStatus) : Kept 0xd2001b026 s (State.putAcked s id status) := by
  have e34 : Nat.land 0x400000000 0xd2001b026 = 0x400000000 := rfl
  unfold State.putAcked
  try dsimp only
  repeat' first
    | exact (rfl : Nat.land _ _ = _)
    | with_reducible first
      | assumption | apply Kept.refl | apply Kept.step (State.serveQueue_kept ..) | apply Kept.step (State.modDie_kept ..)
      | fail_if_no_progress refine Kept.madeBar2Writes e34 ?_ | apply Kept.ite
    | dsimp only
    | split

theorem State.modPeer_kept (s : State) (b : Nat) (f : Peer → Peer) : Kept 0x20 s (State.modPeer s b f) := by
  unfold State.modPeer
  try dsimp only
  repeat' first
    | exact (rfl : Nat.land _ _ = _)
    | with_reducible first
      | assumption | apply Kept.refl | apply Kept.step (State.modBench_kept ..)

theorem State.peerNotice_kept (s : State) (b cause off bytes : Nat) : Kept 0x24 s (State.peerNotice s b cause off bytes) := by
  unfold State.peerNotice
  try dsimp only
  repeat' first
    | exact (rfl : Nat.land _ _ = _)
    | with_reducible first
      | assumption | apply Kept.refl | apply Kept.step (State.notice_kept ..)

theorem State.peerDrop_kept (s : State) (b cause off bytes : Nat) : Kept 0x24 s (State.peerDrop s b cause off bytes) := by
  unfold State.peerDrop
  try dsimp only
  repeat' first
    | exact (rfl : Nat.land _ _ = _)
    | (intro _; try dsimp only)
    | with_reducible first
      | assumption | apply Kept.refl | apply Kept.mapGetD | apply Kept.step (State.modPeer_kept ..)
      | apply Kept.step (State.peerNotice_kept ..) | apply Kept.step (State.modBench_kept ..) | apply Kept.ite
    | dsimp only
    | split

theorem State.portIn_kept (s : State) (p n : Nat) : Kept 0x20000000 s (State.portIn s p n) := by
  unfold State.portIn
  try dsimp only
  repeat' first
    | exact (rfl : Nat.land _ _ = _)
    | with_reducible first
      | assumption | apply Kept.refl | apply Kept.step (State.countPerf_kept ..)

theorem State.count_kept (s : State) (b : Nat) (f : BenchCounters → BenchCounters) : Kept 0x20 s (State.count s b f) := by
  unfold State.count
  try dsimp only
  repeat' first
    | exact (rfl : Nat.land _ _ = _)
    | with_reducible first
      | assumption | apply Kept.refl | apply Kept.step (State.modBench_kept ..)

theorem State.serveBar4Write_kept (s : State) (p f off requester : Nat) (data : List (Byte × Bool)) (poisoned relaxed : Bool) :
    Kept 0x10000002e s (State.serveBar4Write s p f off requester data poisoned relaxed) := by
  have e1 : Nat.land 0x2 0x10000002e = 0x2 := rfl
  unfold State.serveBar4Write
  try dsimp only
  repeat' first
    | exact (rfl : Nat.land _ _ = _)
    | (intro _; try dsimp only)
    | with_reducible first
      | assumption | apply Kept.refl | apply Kept.mapGetD | apply Kept.step (State.modPeer_kept ..)
      | apply Kept.step (State.count_kept ..) | apply Kept.step (State.modPort_kept ..) | apply Kept.step (State.aer_kept ..)
      | fail_if_no_progress refine Kept.madeHearth e1 ?_ | apply Kept.ite
    | dsimp only
    | split

theorem State.admitPeer_kept (s : State) (p : Nat) (l : List PorchEntry) : Kept 0x10000002e s (State.admitPeer s p l) := by
  induction l generalizing s with
  | nil => exact .refl _ _
  | cons e r ih =>
    unfold State.admitPeer
    split
    · exact ih ..
    · split
      · split
        · exact .refl _ _
        · exact ((((Kept.refl _ s).madeHearth rfl).trans ((State.serveBar4Write_kept ..).mono rfl)).madeHearth rfl).trans (ih ..)
      · exact ih ..

theorem State.popPeer_kept (s : State) (b : Nat) : Kept 0x10000002e s (State.popPeer s b) := by
  unfold State.popPeer
  try dsimp only
  repeat' first
    | exact (rfl : Nat.land _ _ = _)
    | with_reducible first
      | assumption | apply Kept.refl | apply Kept.step (State.admitWithheld_kept ..) | apply Kept.step (State.modPeer_kept ..)
      | apply Kept.step (State.admitPeer_kept ..) | apply Kept.step (State.modPort_kept ..)
    | dsimp only
    | split

theorem State.modFrame_kept (s : State) (i : Nat) (f : Frame → Frame) : Kept 0x8000000 s (State.modFrame s i f) := by
  unfold State.modFrame
  try dsimp only
  repeat' first
    | exact (rfl : Nat.land _ _ = _)
    | with_reducible first
      | assumption | apply Kept.refl | apply Kept.step (State.modStream_kept ..)
    | dsimp only
    | split

theorem State.sendTrailer_kept (s : State) (i : Nat) : Kept 0x128009000 s (State.sendTrailer s i) := by
  unfold State.sendTrailer
  try dsimp only
  repeat' first
    | exact (rfl : Nat.land _ _ = _)
    | with_reducible first
      | assumption | apply Kept.refl | apply Kept.step (State.modFrame_kept ..) | apply Kept.step (State.askDie_kept ..) | apply Kept.ite
    | dsimp only
    | split

theorem State.frameAcked_kept (s : State) (id : Nat) : Kept 0x128009000 s (State.frameAcked s id) := by
  unfold State.frameAcked
  try dsimp only
  repeat' first
    | exact (rfl : Nat.land _ _ = _)
    | (intro _; try dsimp only)
    | with_reducible first
      | assumption | apply Kept.refl | apply Kept.mapGetD | apply Kept.step (State.modFrame_kept ..)
      | apply Kept.step (State.sendTrailer_kept ..)
    | dsimp only
    | split

theorem State.loadAcked_kept (s : State) (id : Nat) : Kept 0x80000 s (State.loadAcked s id) := by
  have e19 : Nat.land 0x80000 0x80000 = 0x80000 := rfl
  exact Kept.madeLaunches e19 (.refl _ _)

theorem State.applyPeer_kept (s : State) (b : Nat) (leaf : PeerLeaf) : Kept 0x52800b02e s (State.applyPeer s b leaf) := by
  unfold State.applyPeer
  try dsimp only
  repeat' first
    | exact (rfl : Nat.land _ _ = _)
    | with_reducible first
      | assumption | apply Kept.refl | apply Kept.step (State.useEntry_kept ..) | apply Kept.step (State.request_kept ..)
      | apply Kept.step (State.countAccess_kept ..) | apply Kept.step (State.sendPut_kept ..) | apply Kept.step (State.peerDrop_kept ..)
      | apply Kept.step (State.popPeer_kept ..) | apply Kept.step (State.modBench_kept ..) | apply Kept.step (State.modStream_kept ..)
      | apply Kept.ite
    | dsimp only
    | split

end Sys2Proof.Machine
end

