-- ==== Sys2Proof/Laws/Kept/InvOps.lean ====
section
/-!
SUPPORT. What the operations and commands of Machine/InvOps.lean keep.
-/

namespace Sys2Proof.Machine

theorem State.serveLathe_kept (s : State) (b r : Nat) (c : BitVec 32) (operand addr : Nat) (write : Bool) (e : WalkEnd) :
    Kept 0x2002224 s (State.serveLathe s b r c operand addr write e) := by
  unfold State.serveLathe
  try dsimp only
  repeat' first
    | exact (rfl : Nat.land _ _ = _)
    | with_reducible first
      | assumption | apply Kept.refl | apply Kept.step (State.advance_kept ..) | apply Kept.step (State.endDesc_kept ..)
      | apply Kept.step (State.raiseFault_kept ..) | apply Kept.ite
    | dsimp only
    | split

theorem State.serveRetry_kept (s : State) (i : Nat) (e : WalkEnd) : Kept 0x2002224 s (State.serveRetry s i e) := by
  unfold State.serveRetry
  try dsimp only
  repeat' first
    | exact (rfl : Nat.land _ _ = _)
    | with_reducible first
      | assumption | apply Kept.refl | apply Kept.step (State.setFault_kept ..) | apply Kept.step (State.faultUsable_kept ..)
      | apply Kept.step (State.faultEnds_kept ..) | apply Kept.ite
    | dsimp only
    | split

theorem State.serveBar2_kept (s : State) (b : Nat) (va : Nat) (e : WalkEnd) (w : Waiter) : Kept 0xd2001b026 s (State.serveBar2 s b va e w) := by
  unfold State.serveBar2
  try dsimp only
  repeat' first
    | exact (rfl : Nat.land _ _ = _)
    | with_reducible first
      | assumption | apply Kept.refl | apply Kept.step (State.bar2Missed_kept ..) | apply Kept.step (State.bar2Ones_kept ..)
      | apply Kept.step (State.bar2ReadAt_kept ..) | apply Kept.step (State.bar2WriteAt_kept ..)
      | apply Kept.step (State.bar2Served_kept ..) | apply Kept.ite
    | dsimp only
    | split

theorem State.serveWalk_kept (s : State) (b page : Nat) (ue : Bool) (w : Waiter) : Kept 0xd2a01f22e s (State.serveWalk s b page ue w) := by
  unfold State.serveWalk
  try dsimp only
  repeat' first
    | exact (rfl : Nat.land _ _ = _)
    | (intro _; try dsimp only)
    | with_reducible first
      | assumption | apply Kept.refl | apply Kept.mapGetD | apply Kept.step (State.applyPeer_kept ..)
      | apply Kept.step (State.prefetchTried_kept ..) | apply Kept.step (State.serveLathe_kept ..)
      | apply Kept.step (State.serveRetry_kept ..) | apply Kept.step (State.serveBar2_kept ..) | apply Kept.ite
    | dsimp only
    | split

theorem State.askAgain_kept (s : State) (m : Miss) (w : Waiter) : Kept 0x20002000 s (State.askAgain s m w) := by
  unfold State.askAgain
  try dsimp only
  repeat' first
    | exact (rfl : Nat.land _ _ = _)
    | with_reducible first
      | assumption | apply Kept.refl | apply Kept.step (State.request_kept ..)
    | dsimp only
    | split

theorem State.installWalk_kept (s : State) (m : Miss) (va : Nat) : Kept 0x20002020 s (State.installWalk s m va) := by
  unfold State.installWalk
  try dsimp only
  repeat' first
    | exact (rfl : Nat.land _ _ = _)
    | with_reducible first
      | assumption | apply Kept.refl | apply Kept.step (State.install_kept ..) | apply Kept.step (State.countPerf_kept ..)
      | apply Kept.ite
    | dsimp only
    | split

theorem State.serveRetryS_kept (s : State) (i : Nat) (granted : Bool) : Kept 0x2002224 s (State.serveRetryS s i granted) := by
  unfold State.serveRetryS
  try dsimp only
  repeat' first
    | exact (rfl : Nat.land _ _ = _)
    | with_reducible first
      | assumption | apply Kept.refl | apply Kept.step (State.setFault_kept ..) | apply Kept.step (State.sendPri_kept ..)
      | apply Kept.step (State.faultUsable_kept ..) | apply Kept.step (State.faultEnds_kept ..) | apply Kept.ite
    | dsimp only
    | split

theorem State.serveAts_kept (s : State) (m : Miss) (granted : Bool → Bool) (w : Waiter) : Kept 0x122006224 s (State.serveAts s m granted w) := by
  unfold State.serveAts
  try dsimp only
  repeat' first
    | exact (rfl : Nat.land _ _ = _)
    | with_reducible first
      | assumption | apply Kept.refl | apply Kept.step (State.prefetchTried_kept ..) | apply Kept.step (State.serveRetryS_kept ..)
      | apply Kept.step (State.advance_kept ..) | apply Kept.step (State.modRing_kept ..) | apply Kept.step (State.endDesc_kept ..)
      | apply Kept.step (State.readKnock_kept ..) | apply Kept.step (State.ringUnmapped_kept ..)
      | apply Kept.step (State.raiseFault_kept ..) | apply Kept.ite
    | dsimp only
    | split

theorem State.failAts_kept (s : State) (m : Miss) (w : Waiter) : Kept 0x22006224 s (State.failAts s m w) := by
  unfold State.failAts
  try dsimp only
  repeat' first
    | exact (rfl : Nat.land _ _ = _)
    | with_reducible first
      | assumption | apply Kept.refl | apply Kept.step (State.prefetchTried_kept ..) | apply Kept.step (State.serveLathe_kept ..)
      | apply Kept.step (State.modRing_kept ..) | apply Kept.step (State.ringUnmapped_kept ..) | apply Kept.step (State.faultEnds_kept ..)
      | apply Kept.ite
    | dsimp only
    | split

theorem State.portLost_kept (s : State) (m : Miss) : Kept 0x2002224 s (State.portLost s m) := by
  unfold State.portLost
  try dsimp only
  repeat' first
    | exact (rfl : Nat.land _ _ = _)
    | (intro _; try dsimp only)
    | with_reducible first
      | assumption | apply Kept.refl | apply Kept.fold | apply Kept.step (State.endMiss_kept ..)
      | apply Kept.step (State.parkHost_kept ..) | apply Kept.step (State.setFault_kept ..)
    | dsimp only
    | split

theorem State.sendAts_kept (s : State) (m : Miss) : Kept 0x22002224 s (State.sendAts s m) := by
  have e13 : Nat.land 0x2000 0x22002224 = 0x2000 := rfl
  unfold State.sendAts
  try dsimp only
  repeat' first
    | exact (rfl : Nat.land _ _ = _)
    | with_reducible first
      | assumption | apply Kept.refl | apply Kept.step (State.portLost_kept ..) | apply Kept.step (State.countPerf_kept ..)
      | apply Kept.step (State.egressRead_kept ..) | fail_if_no_progress refine Kept.madeHeadstock e13 ?_ | apply Kept.ite
    | dsimp only
    | split

theorem State.pumpAts_kept (s : State) : Kept 0x22002224 s (State.pumpAts s) := by
  unfold State.pumpAts
  try dsimp only
  repeat' first
    | exact (rfl : Nat.land _ _ = _)
    | (intro _; try dsimp only)
    | with_reducible first
      | assumption | apply Kept.refl | apply Kept.fold | apply Kept.step (State.sendAts_kept ..)

theorem State.modTable_kept (s : State) (b : Nat) (f : ModeD → ModeD) : Kept 0x1000020 s (State.modTable s b f) := by
  unfold State.modTable
  try dsimp only
  repeat' first
    | exact (rfl : Nat.land _ _ = _)
    | with_reducible first
      | assumption | apply Kept.refl | apply Kept.step (State.modBench_kept ..) | apply Kept.step (State.setGuest_kept ..)
      | apply Kept.ite
    | dsimp only
    | split

theorem State.setEntry_kept (s : State) (b level dva v : Nat) : Kept 0x1002020 s (State.setEntry s b level dva v).2 := by
  have e13 : Nat.land 0x2000 0x1002020 = 0x2000 := rfl
  unfold State.setEntry
  try dsimp only
  repeat' first
    | exact (rfl : Nat.land _ _ = _)
    | with_reducible first
      | assumption | apply Kept.refl | apply Kept.step (State.modTable_kept ..) | fail_if_no_progress refine Kept.madeHeadstock e13 ?_
      | apply Kept.ite
    | dsimp only
    | split

theorem State.returnPages_kept (s : State) (b : Nat) : Kept 0x1002020 s (State.returnPages s b) := by
  have e13 : Nat.land 0x2000 0x1002020 = 0x2000 := rfl
  unfold State.returnPages
  try dsimp only
  repeat' first
    | exact (rfl : Nat.land _ _ = _)
    | with_reducible first
      | assumption | apply Kept.refl | apply Kept.step (State.modTable_kept ..) | fail_if_no_progress refine Kept.madeHeadstock e13 ?_

theorem State.loadPins_kept (s : State) (b : Nat) (l : List (Nat × Nat)) : Kept 0x20002000 s (State.loadPins s b l) := by
  unfold State.loadPins
  try dsimp only
  repeat' first
    | exact (rfl : Nat.land _ _ = _)
    | (intro _; try dsimp only)
    | with_reducible first
      | assumption | apply Kept.refl | apply Kept.fold | apply Kept.step (State.request_kept ..)

theorem State.pinRange_kept (s : State) (b base len : Nat) : Kept 0x20002000 s (State.pinRange s b base len) := by
  unfold State.pinRange
  try dsimp only
  repeat' first
    | exact (rfl : Nat.land _ _ = _)
    | with_reducible first
      | assumption | apply Kept.refl | apply Kept.step (State.loadPins_kept ..)

theorem State.addBarrier_kept (s : State) (b : Nat) (l : List InFlight) : Kept 0x20 s (State.addBarrier s b l) := by
  unfold State.addBarrier
  try dsimp only
  repeat' first
    | exact (rfl : Nat.land _ _ = _)
    | with_reducible first
      | assumption | apply Kept.refl | apply Kept.step (State.modBench_kept ..) | apply Kept.ite
    | dsimp only
    | split

theorem State.invalidateRange_kept (s : State) (b base len : Nat) : Kept 0x20002020 s (State.invalidateRange s b base len) := by
  have e13 : Nat.land 0x2000 0x20002020 = 0x2000 := rfl
  unfold State.invalidateRange
  try dsimp only
  repeat' first
    | exact (rfl : Nat.land _ _ = _)
    | with_reducible first
      | assumption | apply Kept.refl | apply Kept.step (State.dropEntries_kept ..) | apply Kept.step (State.loadPins_kept ..)
      | apply Kept.step (State.addBarrier_kept ..) | fail_if_no_progress refine Kept.madeHeadstock e13 ?_ | apply Kept.ite
    | dsimp only
    | split

theorem State.pumpInvAcks_kept (s : State) : Kept 0x121000000 s (State.pumpInvAcks s) := by
  unfold State.pumpInvAcks
  try dsimp only
  repeat' first
    | exact (rfl : Nat.land _ _ = _)
    | (intro _; try dsimp only)
    | with_reducible first
      | assumption | apply Kept.refl | apply Kept.fold | apply Kept.step (State.setGuest_kept ..)
      | apply Kept.step (State.sendHub_kept ..)
    | dsimp only
    | split

theorem State.unwrite_kept (s : State) (l n : Nat) : Kept 0x4224 s (State.unwrite s l n) := by
  unfold State.unwrite
  try dsimp only
  repeat' first
    | exact (rfl : Nat.land _ _ = _)
    | with_reducible first
      | assumption | apply Kept.refl | apply Kept.step (State.slotFreed_kept ..) | apply Kept.step (State.modLathe_kept ..)
      | apply Kept.step (State.modDesc_kept ..) | apply Kept.ite
    | dsimp only
    | split

theorem State.unask_kept (s : State) (q : PortReq) : Kept 0x52003c224 s (State.unask s q) := by
  have e17 : Nat.land 0x20000 0x52003c224 = 0x20000 := rfl
  have e34 : Nat.land 0x400000000 0x52003c224 = 0x400000000 := rfl
  unfold State.unask
  try dsimp only
  repeat' first
    | exact (rfl : Nat.land _ _ = _)
    | with_reducible first
      | assumption | apply Kept.refl | apply Kept.step (State.bar2Lost_kept ..) | apply Kept.step (State.unwrite_kept ..)
      | apply Kept.step (State.slotFreed_kept ..) | apply Kept.step (State.modLathe_kept ..) | apply Kept.step (State.modDie_kept ..)
      | apply Kept.step (State.sendDie_kept ..) | fail_if_no_progress refine Kept.madeRemotes e17 ?_
      | fail_if_no_progress refine Kept.madeBar2Writes e34 ?_ | apply Kept.ite
    | dsimp only
    | split

theorem State.dropAsked_kept (s : State) (o : Nat) : Kept 0x52003c224 s (State.dropAsked s o) := by
  have e15 : Nat.land 0x8000 0x52003c224 = 0x8000 := rfl
  unfold State.dropAsked
  try dsimp only
  repeat' first
    | exact (rfl : Nat.land _ _ = _)
    | (intro _; try dsimp only)
    | with_reducible first
      | assumption | apply Kept.refl | apply Kept.fold | apply Kept.step (State.unask_kept ..)
      | fail_if_no_progress refine Kept.madeSpindles e15 ?_

theorem State.retryFault_kept (s : State) (i : Nat) : Kept 0x20002000 s (State.retryFault s i) := by
  have e13 : Nat.land 0x2000 0x20002000 = 0x2000 := rfl
  unfold State.retryFault
  try dsimp only
  repeat' first
    | exact (rfl : Nat.land _ _ = _)
    | with_reducible first
      | assumption | apply Kept.refl | apply Kept.step (State.request_kept ..) | apply Kept.step (State.setFault_kept ..)
      | fail_if_no_progress refine Kept.madeHeadstock e13 ?_ | apply Kept.ite
    | dsimp only
    | split

theorem State.retryFaults_kept (s : State) (b : Nat) (p : FaultRec → Bool) : Kept 0x20002000 s (State.retryFaults s b p) := by
  unfold State.retryFaults
  try dsimp only
  repeat' first
    | exact (rfl : Nat.land _ _ = _)
    | (intro _; try dsimp only)
    | with_reducible first
      | assumption | apply Kept.refl | apply Kept.fold | apply Kept.mapGetD | apply Kept.step (State.retryFault_kept ..)

theorem State.modInv_kept (s : State) (b : Nat) (f : InvRing → InvRing) : Kept 0x20 s (State.modInv s b f) := by
  unfold State.modInv
  try dsimp only
  repeat' first
    | exact (rfl : Nat.land _ _ = _)
    | with_reducible first
      | assumption | apply Kept.refl | apply Kept.step (State.modBench_kept ..)

theorem State.invStop_kept (s : State) (b : Nat) (code : BitVec 4) : Kept 0x20 s (State.invStop s b code) := by
  unfold State.invStop
  try dsimp only
  repeat' first
    | exact (rfl : Nat.land _ _ = _)
    | with_reducible first
      | assumption | apply Kept.refl | apply Kept.step (State.modInv_kept ..)

theorem State.readInv_kept (s : State) (b : Nat) : Kept 0x100000000 s (State.readInv s b) := by
  unfold State.readInv
  try dsimp only
  repeat' first
    | exact (rfl : Nat.land _ _ = _)
    | with_reducible first
      | assumption | apply Kept.refl | apply Kept.step (State.readFrom_kept ..)

theorem State.invNext_kept (s : State) (b : Nat) : Kept 0x20 s (State.invNext s b) := by
  unfold State.invNext
  try dsimp only
  repeat' first
    | exact (rfl : Nat.land _ _ = _)
    | with_reducible first
      | assumption | apply Kept.refl | apply Kept.step (State.modInv_kept ..)

theorem State.invForward_kept (s : State) (b : Nat) (entry : List Byte) (h : Nat) : Kept 0x121000020 s (State.invForward s b entry h) := by
  unfold State.invForward
  try dsimp only
  repeat' first
    | exact (rfl : Nat.land _ _ = _)
    | with_reducible first
      | assumption | apply Kept.refl | apply Kept.step (State.modInv_kept ..) | apply Kept.step (State.sendHub_kept ..)

end Sys2Proof.Machine
end

