-- ==== Sys2Proof/Laws/Kept/PlaceOps.lean ====
section
/-!
SUPPORT. What the operations and commands of Machine/PlaceOps.lean keep.
-/

namespace Sys2Proof.Machine

theorem State.pinPages_kept (s : State) (b : Nat) (write : Bool) (fuel va n : Nat) : Kept 0x2020 s (State.pinPages s b write fuel va n).2 := by
  induction fuel generalizing s va n with
  | zero => exact .refl _ _
  | succ k ih =>
    unfold State.pinPages
    repeat' (first
      | with_reducible exact Kept.refl _ _
      | split
      | with_reducible apply Kept.then (ih ..)
      | exact (State.install_kept ..).mono rfl
      | dsimp only)

theorem State.pinRanges_kept (s : State) (b : Nat) (l : List (Nat × Nat × Bool)) : Kept 0x2020 s (State.pinRanges s b l).2 := by
  induction l generalizing s with
  | nil => exact .refl _ _
  | cons x r ih =>
    unfold State.pinRanges
    split
    · exact Kept.pair (by assumption) (State.pinPages_kept ..)
    · exact (Kept.pair (by assumption) (State.pinPages_kept ..)).trans (ih _)

theorem State.tallyXlt_kept (s : State) (b : Nat) (l : List Nat) : Kept 0x2000000 s (State.tallyXlt s b l) := by
  induction l generalizing s with
  | nil => exact .refl _ _
  | cons d r ih => exact Kept.trans (.ite (.refl _ _) (State.addTally_kept ..)) (ih _)

theorem State.settleXlt_kept (s : State) (home b : Nat) : Kept 0x2000000 s (State.settleXlt s home b) := by
  unfold State.settleXlt
  try dsimp only
  repeat' first
    | exact (rfl : Nat.land _ _ = _)
    | (intro _; try dsimp only)
    | with_reducible first
      | assumption | apply Kept.refl | apply Kept.fold | apply Kept.step (State.endTally_kept ..) | apply Kept.ite
    | dsimp only
    | split

theorem State.loadBytes_kept (s : State) (d b off n : Nat) (l : List Byte) : Kept 0x120009000 s (State.loadBytes s d b off n l) := by
  induction n generalizing s off l with
  | zero => exact .refl _ _
  | succ k ih =>
    unfold State.loadBytes
    exact .ite (.refl _ _) (((State.askDie_kept ..).mono rfl).trans (ih ..))

theorem State.loadCore_kept (s : State) (b number : Nat) (y p : List Byte) (cores : List PlacedCore) (c : PlacedCore) :
    Kept 0x121009000 s (State.loadCore s b number y p cores c) := by
  unfold State.loadCore
  try dsimp only
  repeat' first
    | exact (rfl : Nat.land _ _ = _)
    | (intro _; try dsimp only)
    | with_reducible first
      | assumption | apply Kept.refl | apply Kept.fold | apply Kept.step (State.sendDie_kept ..) | apply Kept.step (State.sendHub_kept ..)
      | apply Kept.step (State.loadBytes_kept ..) | apply Kept.ite
    | dsimp only
    | split

theorem State.freezeHere_kept (s : State) (p : Placement) : Kept 0x120048000 s (State.freezeHere s p) := by
  unfold State.freezeHere
  try dsimp only
  repeat' first
    | exact (rfl : Nat.land _ _ = _)
    | (intro _; try dsimp only)
    | with_reducible first
      | assumption | apply Kept.refl | apply Kept.fold | apply Kept.step (State.modPlacement_kept ..)
      | apply Kept.step (State.sendDie_kept ..) | apply Kept.ite
    | dsimp only
    | split

theorem State.freezeAll_kept (s : State) (p : Placement) : Kept 0x121048000 s (State.freezeAll s p) := by
  unfold State.freezeAll
  try dsimp only
  repeat' first
    | exact (rfl : Nat.land _ _ = _)
    | (intro _; try dsimp only)
    | with_reducible first
      | assumption | apply Kept.refl | apply Kept.fold | apply Kept.step (State.sendHub_kept ..)
      | apply Kept.step (State.freezeHere_kept ..) | apply Kept.ite
    | dsimp only
    | split

theorem State.holdBench_kept (s : State) (b : Nat) : Kept 0x121048000 s (State.holdBench s b) := by
  unfold State.holdBench
  try dsimp only
  repeat' first
    | exact (rfl : Nat.land _ _ = _)
    | (intro _; try dsimp only)
    | with_reducible first
      | assumption | apply Kept.refl | apply Kept.fold | apply Kept.step (State.sendHub_kept ..)
      | apply Kept.step (State.freezeAll_kept ..) | apply Kept.ite
    | dsimp only
    | split

theorem State.tryRelease_kept (s : State) (b n : Nat) : Kept 0x121040000 s (State.tryRelease s b n) := by
  unfold State.tryRelease
  try dsimp only
  repeat' first
    | exact (rfl : Nat.land _ _ = _)
    | (intro _; try dsimp only)
    | with_reducible first
      | assumption | apply Kept.refl | apply Kept.fold | apply Kept.step (State.modPlacement_kept ..)
      | apply Kept.step (State.sendHub_kept ..) | apply Kept.ite
    | dsimp only
    | split

theorem State.lateHere_kept (s : State) (p : Placement) (e : Nat × Nat × Nat) : Kept 0x40000 s (State.lateHere s p e) := by
  unfold State.lateHere
  try dsimp only
  repeat' first
    | exact (rfl : Nat.land _ _ = _)
    | (intro _; try dsimp only)
    | with_reducible first
      | assumption | apply Kept.refl | apply Kept.mapGetD | apply Kept.step (State.modPlacement_kept ..) | apply Kept.ite
    | dsimp only
    | split

theorem State.stopPlacement_kept (s : State) (p : Placement) : Kept 0x120048000 s (State.stopPlacement s p) := by
  unfold State.stopPlacement
  try dsimp only
  repeat' first
    | exact (rfl : Nat.land _ _ = _)
    | (intro _; try dsimp only)
    | with_reducible first
      | assumption | apply Kept.refl | apply Kept.fold | apply Kept.step (State.modPlacement_kept ..)
      | apply Kept.step (State.sendDie_kept ..) | apply Kept.ite
    | dsimp only
    | split

theorem State.releasePlacement_kept (s : State) (b n : Nat) : Kept 0x121048000 s (State.releasePlacement s b n) := by
  unfold State.releasePlacement
  try dsimp only
  repeat' first
    | exact (rfl : Nat.land _ _ = _)
    | (intro _; try dsimp only)
    | with_reducible first
      | assumption | apply Kept.refl | apply Kept.fold | apply Kept.step (State.sendHub_kept ..)
      | apply Kept.step (State.stopPlacement_kept ..) | apply Kept.ite
    | dsimp only
    | split

theorem State.dropPlacement_kept (s : State) (home b n : Nat) : Kept 0x2040000 s (State.dropPlacement s home b n) := by
  have e18 : Nat.land 0x40000 0x2040000 = 0x40000 := rfl
  unfold State.dropPlacement
  try dsimp only
  repeat' first
    | exact (rfl : Nat.land _ _ = _)
    | with_reducible first
      | assumption | apply Kept.refl | apply Kept.step (State.settleXlt_kept ..) | fail_if_no_progress refine Kept.madePlacements e18 ?_

theorem State.modLaunch_kept (s : State) (b r : Nat) (f : Launch → Launch) : Kept 0x80000 s (State.modLaunch s b r f) := by
  have e19 : Nat.land 0x80000 0x80000 = 0x80000 := rfl
  unfold State.modLaunch
  try dsimp only
  repeat' first
    | exact (rfl : Nat.land _ _ = _)
    | with_reducible first
      | assumption | apply Kept.refl | fail_if_no_progress refine Kept.madeLaunches e19 ?_ | apply Kept.ite
    | dsimp only
    | split

theorem State.freeLaunch_kept (s : State) (b r : Nat) : Kept 0x2280000 s (State.freeLaunch s b r) := by
  have e19 : Nat.land 0x80000 0x2280000 = 0x80000 := rfl
  have e21 : Nat.land 0x200000 0x2280000 = 0x200000 := rfl
  unfold State.freeLaunch
  try dsimp only
  repeat' first
    | exact (rfl : Nat.land _ _ = _)
    | with_reducible first
      | assumption | apply Kept.refl | apply Kept.step (State.endTally_kept ..) | fail_if_no_progress refine Kept.madeLaunches e19 ?_
      | fail_if_no_progress refine Kept.madeDense e21 ?_ | apply Kept.ite
    | dsimp only
    | split

theorem State.abandonLaunch_kept (s : State) (b r : Nat) : Kept 0x1232c0000 s (State.abandonLaunch s b r) := by
  unfold State.abandonLaunch
  try dsimp only
  repeat' first
    | exact (rfl : Nat.land _ _ = _)
    | (intro _; try dsimp only)
    | with_reducible first
      | assumption | apply Kept.refl | apply Kept.fold | apply Kept.step (State.sendHub_kept ..)
      | apply Kept.step (State.dropPlacement_kept ..) | apply Kept.step (State.freeLaunch_kept ..)
    | dsimp only
    | split

theorem State.failLaunch_kept (s : State) (l : Launch) (code detail : Nat) (result : BitVec 64) :
    Kept 0x1232c0220 s (State.failLaunch s l code detail result) := by
  unfold State.failLaunch
  try dsimp only
  repeat' first
    | exact (rfl : Nat.land _ _ = _)
    | with_reducible first
      | assumption | apply Kept.refl | apply Kept.step (State.abandonLaunch_kept ..) | apply Kept.step (State.endDesc_kept ..)

end Sys2Proof.Machine
end

