-- ==== Sys2Proof/Laws/Kept/BurlOps.lean ====
section
/-!
SUPPORT. What the operations and commands of Machine/BurlOps.lean keep.
-/

namespace Sys2Proof.Machine

theorem State.setJob_kept (s : State) (j : Job) : Kept 0x100000 s (State.setJob s j) := by
  have e20 : Nat.land 0x100000 0x100000 = 0x100000 := rfl
  unfold State.setJob
  try dsimp only
  repeat' first
    | exact (rfl : Nat.land _ _ = _)
    | with_reducible first
      | assumption | apply Kept.refl | fail_if_no_progress refine Kept.madeJobs e20 ?_ | apply Kept.ite
    | dsimp only
    | split

theorem State.modEngine_kept (s : State) (lattice : Bool) (f : Engine → Engine) : Kept 0x600000 s (State.modEngine s lattice f) := by
  have e21 : Nat.land 0x200000 0x600000 = 0x200000 := rfl
  have e22 : Nat.land 0x400000 0x600000 = 0x400000 := rfl
  unfold State.modEngine
  try dsimp only
  repeat' first
    | exact (rfl : Nat.land _ _ = _)
    | with_reducible first
      | assumption | apply Kept.refl | fail_if_no_progress refine Kept.madeLattice e22 ?_
      | fail_if_no_progress refine Kept.madeDense e21 ?_ | apply Kept.ite
    | dsimp only
    | split

theorem State.addJob_kept (s : State) (j : Job) : Kept 0x100002 s (State.addJob s j) := by
  have e20 : Nat.land 0x100000 0x100002 = 0x100000 := rfl
  unfold State.addJob
  try dsimp only
  repeat' first
    | exact (rfl : Nat.land _ _ = _)
    | with_reducible first
      | assumption | apply Kept.refl | apply Kept.step (State.rouse_kept ..) | fail_if_no_progress refine Kept.madeJobs e20 ?_

theorem State.endSlice_kept (s : State) (j : Job) : Kept 0x2600000 s (State.endSlice s j) := by
  unfold State.endSlice
  try dsimp only
  repeat' first
    | exact (rfl : Nat.land _ _ = _)
    | with_reducible first
      | assumption | apply Kept.refl | apply Kept.step (State.modEngine_kept ..) | apply Kept.step (State.endTally_kept ..)

theorem State.startJob_kept (s : State) (j : Job) : Kept 0x6700000 s (State.startJob s j) := by
  have e26 : Nat.land 0x4000000 0x6700000 = 0x4000000 := rfl
  unfold State.startJob
  try dsimp only
  repeat' first
    | exact (rfl : Nat.land _ _ = _)
    | with_reducible first
      | assumption | apply Kept.refl | apply Kept.step (State.setJob_kept ..) | apply Kept.step (State.modEngine_kept ..)
      | apply Kept.step (State.addTally_kept ..) | fail_if_no_progress refine Kept.madeBg e26 ?_

theorem State.nextJob_kept (s : State) (lattice : Bool) : Kept 0x6700000 s (State.nextJob s lattice) := by
  unfold State.nextJob
  try dsimp only
  repeat' first
    | exact (rfl : Nat.land _ _ = _)
    | with_reducible first
      | assumption | apply Kept.refl | apply Kept.step (State.modEngine_kept ..) | apply Kept.step (State.startJob_kept ..)
      | apply Kept.ite
    | dsimp only
    | split

theorem State.dropJob_kept (s : State) (j : Job) : Kept 0x6700000 s (State.dropJob s j) := by
  have e20 : Nat.land 0x100000 0x6700000 = 0x100000 := rfl
  unfold State.dropJob
  try dsimp only
  repeat' first
    | exact (rfl : Nat.land _ _ = _)
    | with_reducible first
      | assumption | apply Kept.refl | apply Kept.step (State.endSlice_kept ..) | apply Kept.step (State.nextJob_kept ..)
      | apply Kept.step (State.endTally_kept ..) | fail_if_no_progress refine Kept.madeJobs e20 ?_ | apply Kept.ite
    | dsimp only
    | split

theorem State.writeStream_kept (s : State) (l : List (BitVec 64)) (d : List Byte) : Kept 0x42000000 s (State.writeStream s l d) := by
  induction l generalizing s d with
  | nil => exact .refl _ _
  | cons h r ih =>
    exact (((Kept.mem fun h => memWrites_wf _ _ h).mono rfl).trans ((State.clearMarks_kept ..).mono rfl)).trans (ih ..)

theorem State.traceSample_kept (s : State) (j : Job) (moves : Nat) (energy : Int) (sweep : Nat) :
    Kept 0x40100000 s (State.traceSample s j moves energy sweep) := by
  unfold State.traceSample
  split
  · exact .refl _ _
  · exact ((Kept.mem fun h => memWrites_wf _ _ (memWrites_wf _ _ h)).mono rfl).trans ((State.setJob_kept ..).mono rfl)

theorem State.writeResults_kept (s : State) (j : Job) (final : Int) (moves : Nat) (bestState finalState : List Bool) :
    Kept 0x46700000 s (State.writeResults s j final moves bestState finalState) := by
  unfold State.writeResults
  try dsimp only
  repeat' first
    | exact (rfl : Nat.land _ _ = _)
    | with_reducible first
      | assumption | apply Kept.refl | apply Kept.step (State.setJob_kept ..) | apply Kept.step (State.endSlice_kept ..)
      | apply Kept.step (State.nextJob_kept ..) | apply Kept.step (State.writeStream_kept ..)
      | apply Kept.step (State.traceSample_kept ..) | apply Kept.ite
    | dsimp only
    | split

theorem State.endSingle_kept (s : State) (j : Job) : Kept 0x46700000 s (State.endSingle s j) := by
  unfold State.endSingle
  try dsimp only
  repeat' first
    | exact (rfl : Nat.land _ _ = _)
    | with_reducible first
      | assumption | apply Kept.refl | apply Kept.step (State.writeResults_kept ..)

theorem State.moveSingle_kept (s : State) (j : Job) : Kept 0x46700000 s (State.moveSingle s j) := by
  unfold State.moveSingle
  try dsimp only
  repeat' first
    | exact (rfl : Nat.land _ _ = _)
    | with_reducible first
      | assumption | apply Kept.refl | apply Kept.step (State.setJob_kept ..) | apply Kept.step (State.traceSample_kept ..)
      | apply Kept.step (State.endSingle_kept ..) | apply Kept.ite
    | dsimp only
    | split

theorem State.toStrip_kept (s : State) (spec : JobSpec) (k : Nat) (m : EnvanMsg) (here : State → State) {M : Nat} (hm : Nat.land 0x121000000 M = 0x121000000) (hf : ∀ s, Kept M s (here s)) :
    Kept M s (State.toStrip s spec k m here) := by
  unfold State.toStrip
  try dsimp only
  repeat' first
    | exact (rfl : Nat.land _ _ = _)
    | exact land_trans (k := 0x121000000) rfl hm
    | with_reducible first
      | assumption | apply Kept.refl | apply Kept.then (hf ..) | apply Kept.step (State.sendHub_kept ..) | apply Kept.ite
    | dsimp only
    | split

theorem State.takeHalo_kept (s : State) (j : Job) (source sweep : Nat) (first last : List Bool) :
    Kept 0x6700000 s (State.takeHalo s j source sweep first last) := by
  unfold State.takeHalo
  try dsimp only
  repeat' first
    | exact (rfl : Nat.land _ _ = _)
    | (intro _; try dsimp only)
    | with_reducible first
      | assumption | apply Kept.refl | apply Kept.mapGetD | apply Kept.step (State.setJob_kept ..)
      | apply Kept.step (State.nextJob_kept ..) | apply Kept.ite
    | dsimp only
    | split

theorem State.stripBest_kept (s : State) (j : Job) (sweep : Nat) : Kept 0x100000 s (State.stripBest s j sweep) := by
  unfold State.stripBest
  try dsimp only
  repeat' first
    | exact (rfl : Nat.land _ _ = _)
    | with_reducible first
      | assumption | apply Kept.refl | apply Kept.step (State.setJob_kept ..)
    | dsimp only
    | split

theorem State.gather_kept (s : State) (j : Job) : Kept 0x46700000 s (State.gather s j) := by
  unfold State.gather
  try dsimp only
  repeat' first
    | exact (rfl : Nat.land _ _ = _)
    | with_reducible first
      | assumption | apply Kept.refl | apply Kept.step (State.writeResults_kept ..) | apply Kept.ite
    | dsimp only
    | split

theorem State.stripReturn_kept (s : State) (b r k : Nat) (best final : List Bool) : Kept 0x46700000 s (State.stripReturn s b r k best final) := by
  unfold State.stripReturn
  try dsimp only
  repeat' first
    | exact (rfl : Nat.land _ _ = _)
    | with_reducible first
      | assumption | apply Kept.refl | apply Kept.step (State.setJob_kept ..) | apply Kept.step (State.gather_kept ..) | apply Kept.ite
    | dsimp only
    | split

theorem State.stripStop_kept (s : State) (j : Job) (sweep : Nat) : Kept 0x167700000 s (State.stripStop s j sweep) := by
  unfold State.stripStop
  try dsimp only
  repeat' first
    | exact (rfl : Nat.land _ _ = _)
    | (intro _; try dsimp only)
    | with_reducible first
      | assumption | apply Kept.refl | apply Kept.mapGetD | apply Kept.step (State.dropJob_kept ..)
      | apply Kept.step (State.stripReturn_kept ..) | apply Kept.step (State.sendHub_kept ..) | apply Kept.ite
    | dsimp only
    | split

theorem State.stopStrips_kept (s : State) (j : Job) (sweep : Nat) (energy : Int) : Kept 0x167700000 s (State.stopStrips s j sweep energy) := by
  unfold State.stopStrips
  try dsimp only
  repeat' first
    | exact (rfl : Nat.land _ _ = _)
    | (intro _; try dsimp only)
    | with_reducible first
      | assumption | apply Kept.refl | apply Kept.fold | apply Kept.step (State.setJob_kept ..)
      | apply Kept.then (State.toStrip_kept (hm := ?_) (hf := ?_) ..) | apply Kept.step (State.gather_kept ..)
      | apply Kept.step (State.stripStop_kept ..) | apply Kept.ite
    | dsimp only
    | split

theorem State.judge_kept (s : State) (j : Job) : Kept 0x167700000 s (State.judge s j) := by
  unfold State.judge
  try dsimp only
  repeat' first
    | exact (rfl : Nat.land _ _ = _)
    | (intro _; try dsimp only)
    | with_reducible first
      | assumption | apply Kept.refl | apply Kept.fold | apply Kept.step (State.setJob_kept ..)
      | apply Kept.step (State.traceSample_kept ..) | apply Kept.then (State.toStrip_kept (hm := ?_) (hf := ?_) ..)
      | apply Kept.step (State.stripBest_kept ..) | apply Kept.step (State.stopStrips_kept ..) | apply Kept.ite
    | dsimp only
    | split

theorem State.report_kept (s : State) (b r source sweep : Nat) (first last : List Bool) (energy : Int) :
    Kept 0x167700000 s (State.report s b r source sweep first last energy) := by
  unfold State.report
  try dsimp only
  repeat' first
    | exact (rfl : Nat.land _ _ = _)
    | with_reducible first
      | assumption | apply Kept.refl | apply Kept.step (State.setJob_kept ..) | apply Kept.step (State.judge_kept ..)
    | dsimp only
    | split

theorem State.sendHalo_kept (s : State) (j : Job) : Kept 0x167700000 s (State.sendHalo s j) := by
  unfold State.sendHalo
  try dsimp only
  repeat' first
    | exact (rfl : Nat.land _ _ = _)
    | (intro _; try dsimp only)
    | with_reducible first
      | assumption | apply Kept.refl | apply Kept.mapGetD | apply Kept.then (State.toStrip_kept (hm := ?_) (hf := ?_) ..)
      | apply Kept.step (State.takeHalo_kept ..) | apply Kept.step (State.report_kept ..) | apply Kept.step (State.sendHub_kept ..)
      | apply Kept.ite
    | dsimp only
    | split

theorem State.moveStrip_kept (s : State) (j : Job) : Kept 0x167700000 s (State.moveStrip s j) := by
  unfold State.moveStrip
  try dsimp only
  repeat' first
    | exact (rfl : Nat.land _ _ = _)
    | with_reducible first
      | assumption | apply Kept.refl | apply Kept.step (State.setJob_kept ..) | apply Kept.step (State.endSlice_kept ..)
      | apply Kept.step (State.nextJob_kept ..) | apply Kept.step (State.sendHalo_kept ..) | apply Kept.ite
    | dsimp only
    | split

theorem State.admitJob_kept (s : State) (j : Job) : Kept 0x2100000 s (State.admitJob s j) := by
  unfold State.admitJob
  try dsimp only
  repeat' first
    | exact (rfl : Nat.land _ _ = _)
    | with_reducible first
      | assumption | apply Kept.refl | apply Kept.step (State.setJob_kept ..) | apply Kept.step (State.addTally_kept ..) | apply Kept.ite
    | dsimp only
    | split

theorem State.endUnrun_kept (s : State) (j : Job) (stop : Nat) : Kept 0xc6700000 s (State.endUnrun s j stop) := by
  unfold State.endUnrun
  try dsimp only
  repeat' first
    | exact (rfl : Nat.land _ _ = _)
    | with_reducible first
      | assumption | apply Kept.refl | apply Kept.step (State.writeResults_kept ..) | apply Kept.step (State.draw_kept ..)
      | apply Kept.step (Kept.pair (by assumption) (State.draw_kept ..)) | apply Kept.ite
    | dsimp only
    | split

theorem State.endStrips_kept (s : State) (j : Job) : Kept 0x127700000 s (State.endStrips s j) := by
  unfold State.endStrips
  try dsimp only
  repeat' first
    | exact (rfl : Nat.land _ _ = _)
    | (intro _; try dsimp only)
    | with_reducible first
      | assumption | apply Kept.refl | apply Kept.fold | apply Kept.step (State.dropJob_kept ..) | apply Kept.step (State.sendHub_kept ..)
      | apply Kept.ite
    | dsimp only
    | split

theorem State.tryAdmit_kept (s : State) (j : Job) (refused : List Nat) : Kept 0xc6700000 s (State.tryAdmit s j refused) := by
  unfold State.tryAdmit
  try dsimp only
  repeat' first
    | exact (rfl : Nat.land _ _ = _)
    | with_reducible first
      | assumption | apply Kept.refl | apply Kept.step (State.endUnrun_kept ..) | apply Kept.step (State.admitJob_kept ..) | apply Kept.ite
    | dsimp only
    | split

theorem State.runJob_kept (s : State) (j : Job) (coef init : List Byte) : Kept 0x167700002 s (State.runJob s j coef init) := by
  unfold State.runJob
  try dsimp only
  repeat' first
    | exact (rfl : Nat.land _ _ = _)
    | (intro _; try dsimp only)
    | with_reducible first
      | assumption | apply Kept.refl | apply Kept.fold | apply Kept.step (State.setJob_kept ..) | apply Kept.step (State.addJob_kept ..)
      | apply Kept.step (State.nextJob_kept ..) | apply Kept.step (State.endSingle_kept ..)
      | apply Kept.then (State.toStrip_kept (hm := ?_) (hf := ?_) ..) | apply Kept.step (State.stopStrips_kept ..) | apply Kept.ite
    | dsimp only
    | split

theorem State.abandonAnneal_kept (s : State) (b r : Nat) : Kept 0x127700000 s (State.abandonAnneal s b r) := by
  unfold State.abandonAnneal
  try dsimp only
  repeat' first
    | exact (rfl : Nat.land _ _ = _)
    | (intro _; try dsimp only)
    | with_reducible first
      | assumption | apply Kept.refl | apply Kept.step (State.dropJob_kept ..) | apply Kept.step (State.endStrips_kept ..)
    | dsimp only
    | split

theorem State.partnersLost_kept (s : State) (hubs : List Nat) : Kept 0x1e7700000 s (State.partnersLost s hubs) := by
  unfold State.partnersLost
  try dsimp only
  repeat' first
    | exact (rfl : Nat.land _ _ = _)
    | (intro _; try dsimp only)
    | with_reducible first
      | assumption | apply Kept.refl | apply Kept.fold | apply Kept.mapGetD | apply Kept.step (State.setJob_kept ..)
      | apply Kept.step (State.gather_kept ..) | apply Kept.step (State.stopStrips_kept ..)
      | apply Kept.step (State.endUnrun_kept ..) | apply Kept.ite
    | dsimp only
    | split

theorem State.toMembers_kept (s : State) (m : EnvanMsg) : Kept 0x121000000 s (State.toMembers s m) := by
  unfold State.toMembers
  try dsimp only
  repeat' first
    | exact (rfl : Nat.land _ _ = _)
    | (intro _; try dsimp only)
    | with_reducible first
      | assumption | apply Kept.refl | apply Kept.fold | apply Kept.mapGetD | apply Kept.step (State.sendHub_kept ..)

theorem State.setRoster_kept (s : State) (l : List RosterEntry) : Kept 0x121000000 s (State.setRoster s l) := by
  have e24 : Nat.land 0x1000000 0x121000000 = 0x1000000 := rfl
  unfold State.setRoster
  try dsimp only
  repeat' first
    | exact (rfl : Nat.land _ _ = _)
    | with_reducible first
      | assumption | apply Kept.refl | apply Kept.step (State.toMembers_kept ..) | fail_if_no_progress refine Kept.madeCascade e24 ?_
      | apply Kept.ite
    | dsimp only
    | split

theorem State.tellMaster_kept (s : State) (b : Nat) : Kept 0x121000000 s (State.tellMaster s b) := by
  unfold State.tellMaster
  try dsimp only
  repeat' first
    | exact (rfl : Nat.land _ _ = _)
    | with_reducible first
      | assumption | apply Kept.refl | apply Kept.step (State.setRoster_kept ..) | apply Kept.step (State.sendHub_kept ..)
      | apply Kept.ite
    | dsimp only
    | split

theorem State.takeReport_kept (s : State) (hub : Nat) (homes : List (Nat × BitVec 16)) (guests : List (Nat × Nat × BitVec 16)) :
    Kept 0x121000000 s (State.takeReport s hub homes guests) := by
  have e24 : Nat.land 0x1000000 0x121000000 = 0x1000000 := rfl
  unfold State.takeReport
  try dsimp only
  repeat' first
    | exact (rfl : Nat.land _ _ = _)
    | with_reducible first
      | assumption | apply Kept.refl | apply Kept.step (State.setRoster_kept ..) | fail_if_no_progress refine Kept.madeCascade e24 ?_
      | apply Kept.ite
    | dsimp only
    | split

theorem State.tellReport_kept (s : State) : Kept 0x121000000 s (State.tellReport s) := by
  unfold State.tellReport
  try dsimp only
  repeat' first
    | exact (rfl : Nat.land _ _ = _)
    | with_reducible first
      | assumption | apply Kept.refl | apply Kept.step (State.takeReport_kept ..) | apply Kept.step (State.sendHub_kept ..)
      | apply Kept.ite
    | dsimp only
    | split

theorem State.staleMessage_kept (s : State) : Kept 0x1000000 s (State.staleMessage s) := by
  have e24 : Nat.land 0x1000000 0x1000000 = 0x1000000 := rfl
  unfold State.staleMessage
  try dsimp only
  repeat' first
    | exact (rfl : Nat.land _ _ = _)
    | with_reducible first
      | assumption | apply Kept.refl | fail_if_no_progress refine Kept.madeCascade e24 ?_

theorem State.admitGuest_kept (s : State) (home b : Nat) (incarn : BitVec 16) (classId : Nat) (rateCap : BitVec 32) :
    Kept 0x123002000 s (State.admitGuest s home b incarn classId rateCap).2 := by
  have e13 : Nat.land 0x2000 0x123002000 = 0x2000 := rfl
  unfold State.admitGuest
  try dsimp only
  repeat' first
    | exact (rfl : Nat.land _ _ = _)
    | (intro _; try dsimp only)
    | with_reducible first
      | assumption | apply Kept.refl | apply Kept.mapGetD | apply Kept.step (State.tellReport_kept ..)
      | apply Kept.step (State.setGuest_kept ..) | apply Kept.step (State.addTally_kept ..)
      | fail_if_no_progress refine Kept.madeHeadstock e13 ?_ | apply Kept.ite
    | dsimp only
    | split

theorem State.beginFill_kept (s : State) (d off len : Nat) : Kept 0x120008040 s (State.beginFill s d off len) := by
  have e6 : Nat.land 0x40 0x120008040 = 0x40 := rfl
  unfold State.beginFill
  try dsimp only
  repeat' first
    | exact (rfl : Nat.land _ _ = _)
    | with_reducible first
      | assumption | apply Kept.refl | apply Kept.step (State.sendDie_kept ..) | fail_if_no_progress refine Kept.madeZeroFill e6 ?_

theorem State.fillGrants_kept (s : State) (l : List Grant) : Kept 0x120008040 s (State.fillGrants s l) := by
  unfold State.fillGrants
  try dsimp only
  repeat' first
    | exact (rfl : Nat.land _ _ = _)
    | (intro _; try dsimp only)
    | with_reducible first
      | assumption | apply Kept.refl | apply Kept.fold | apply Kept.step (State.beginFill_kept ..)

theorem State.cutGuest_kept (s : State) (g : Nat) (keep : Option (BitVec 16)) : Kept 0x52777f264 s (State.cutGuest s g keep) := by
  have e13 : Nat.land 0x2000 0x52777f264 = 0x2000 := rfl
  unfold State.cutGuest
  try dsimp only
  repeat' first
    | exact (rfl : Nat.land _ _ = _)
    | (intro _; try dsimp only)
    | with_reducible first
      | assumption | apply Kept.refl | apply Kept.fold | apply Kept.step (State.dropJob_kept ..)
      | apply Kept.step (State.fillGrants_kept ..) | apply Kept.step (State.dropEntries_kept ..)
      | apply Kept.step (State.dropMisses_kept ..) | apply Kept.step (State.dropAsked_kept ..) | apply Kept.step (State.setGuest_kept ..)
      | apply Kept.step (State.endTallies_kept ..) | apply Kept.step (State.leaveArbiters_kept ..)
      | apply Kept.step (State.stopPlacement_kept ..) | fail_if_no_progress refine Kept.madeHeadstock e13 ?_ | apply Kept.ite
    | dsimp only
    | split

theorem State.orphanGuest_kept (s : State) (g : Nat) : Kept 0x52777f264 s (State.orphanGuest s g) := by
  unfold State.orphanGuest
  try dsimp only
  repeat' first
    | exact (rfl : Nat.land _ _ = _)
    | with_reducible first
      | assumption | apply Kept.refl | apply Kept.step (State.cutGuest_kept ..) | apply Kept.step (State.logError_kept ..)
    | dsimp only
    | split

end Sys2Proof.Machine
end

