-- ==== Sys2Proof/Laws/Kept/SealOps.lean ====
section
/-!
SUPPORT. What the operations and commands of Machine/SealOps.lean keep.
-/

namespace Sys2Proof.Machine

theorem State.forwardPayload_kept (s : State) (b : Nat) (l : List (Nat × Nat)) (y : List Byte) : Kept 0x120009000 s (State.forwardPayload s b l y).2 := by
  induction l generalizing s y with
  | nil => exact .refl _ _
  | cons x r ih =>
    unfold State.forwardPayload
    split
    · exact .refl _ _
    · exact ((State.askDie_kept ..).mono rfl).trans (ih ..)

theorem State.forwardFrame_kept (s : State) (i : Nat) (f : Frame) (o : FrameOutcome) (pages : List (Nat × Nat)) :
    Kept 0x128009000 s (State.forwardFrame s i f o pages) := by
  unfold State.forwardFrame
  try dsimp only
  repeat' first
    | exact (rfl : Nat.land _ _ = _)
    | (intro _; try dsimp only)
    | with_reducible first
      | assumption | apply Kept.refl | apply Kept.mapGetD | apply Kept.step (State.modFrame_kept ..)
      | apply Kept.step (State.sendTrailer_kept ..) | apply Kept.step (State.forwardPayload_kept ..)
      | apply Kept.step (Kept.pair (by assumption) (State.forwardPayload_kept ..)) | apply Kept.ite
    | dsimp only
    | split

theorem State.fireFrameDesc_kept (s : State) (b r i : Nat) (o : FrameOutcome) (k expected : BitVec 32) (d : Desc) :
    Kept 0x220 s (State.fireFrameDesc s b r i o k expected d) := by
  unfold State.fireFrameDesc
  try dsimp only
  repeat' first
    | exact (rfl : Nat.land _ _ = _)
    | with_reducible first
      | assumption | apply Kept.refl | apply Kept.step (State.fireDesc_kept ..) | apply Kept.step (State.modDesc_kept ..)
      | apply Kept.step (State.endDesc_kept ..) | apply Kept.ite
    | dsimp only
    | split

theorem State.fireFrame_kept (s : State) (b r i : Nat) (o : FrameOutcome) (k expected : BitVec 32) :
    Kept 0x220 s (State.fireFrame s b r i o k expected) := by
  unfold State.fireFrame
  try dsimp only
  repeat' first
    | exact (rfl : Nat.land _ _ = _)
    | (intro _; try dsimp only)
    | with_reducible first
      | assumption | apply Kept.refl | apply Kept.fold | apply Kept.step (State.fireFrameDesc_kept ..)

theorem State.edgeFrame_kept (s : State) (b r i : Nat) (o : FrameOutcome) (k expected : BitVec 32) :
    Kept 0x20 s (State.edgeFrame s b r i o k expected) := by
  unfold State.edgeFrame
  try dsimp only
  repeat' first
    | exact (rfl : Nat.land _ _ = _)
    | with_reducible first
      | assumption | apply Kept.refl | apply Kept.step (State.edgeRing_kept ..) | apply Kept.step (State.modRing_kept ..) | apply Kept.ite
    | dsimp only
    | split

theorem State.frameDone_kept (s : State) (i : Nat) (f : Frame) (o : FrameOutcome) : Kept 0x8000220 s (State.frameDone s i f o) := by
  unfold State.frameDone
  try dsimp only
  repeat' first
    | exact (rfl : Nat.land _ _ = _)
    | (intro _; try dsimp only)
    | with_reducible first
      | assumption | apply Kept.refl | apply Kept.fold | apply Kept.step (State.modStream_kept ..)
      | apply Kept.step (State.fireFrame_kept ..) | apply Kept.step (State.edgeFrame_kept ..) | apply Kept.ite
    | dsimp only
    | split

theorem State.endStream_kept (s : State) (i : Nat) : Kept 0xa000000 s (State.endStream s i) := by
  unfold State.endStream
  try dsimp only
  repeat' first
    | exact (rfl : Nat.land _ _ = _)
    | with_reducible first
      | assumption | apply Kept.refl | apply Kept.step (State.modStream_kept ..) | apply Kept.step (State.endTally_kept ..)

theorem State.settleClose_kept (s : State) (i : Nat) : Kept 0xa000220 s (State.settleClose s i) := by
  unfold State.settleClose
  try dsimp only
  repeat' first
    | exact (rfl : Nat.land _ _ = _)
    | with_reducible first
      | assumption | apply Kept.refl | apply Kept.step (State.endPlain_kept ..) | apply Kept.step (State.endStream_kept ..)
      | apply Kept.ite
    | dsimp only
    | split

theorem State.closeStreams_kept (s : State) (b : Nat) : Kept 0xa000000 s (State.closeStreams s b) := by
  unfold State.closeStreams
  try dsimp only
  repeat' first
    | exact (rfl : Nat.land _ _ = _)
    | (intro _; try dsimp only)
    | with_reducible first
      | assumption | apply Kept.refl | apply Kept.fold | apply Kept.step (State.endStream_kept ..)

end Sys2Proof.Machine
end

