-- ==== Sys2Proof/Laws/Kept/SweepOps.lean ====
section
/-!
SUPPORT. What the operations and commands of Machine/SweepOps.lean keep.
-/

namespace Sys2Proof.Machine

theorem State.sweepDesc_kept (s : State) (b r : Nat) (d : Desc) : Kept 0x2000224 s (State.sweepDesc s b r d) := by
  unfold State.sweepDesc
  try dsimp only
  repeat' first
    | exact (rfl : Nat.land _ _ = _)
    | with_reducible first
      | assumption | apply Kept.refl | apply Kept.step (State.advance_kept ..) | apply Kept.step (State.modDesc_kept ..)
      | apply Kept.step (State.endDesc_kept ..)

theorem State.settleBench_kept (s : State) (b : Nat) : Kept 0x2002224 s (State.settleBench s b) := by
  unfold State.settleBench
  try dsimp only
  repeat' first
    | exact (rfl : Nat.land _ _ = _)
    | (intro _; try dsimp only)
    | with_reducible first
      | assumption | apply Kept.refl | apply Kept.fold | apply Kept.step (State.discardFaults_kept ..)
      | apply Kept.step (State.sweepDesc_kept ..)

theorem State.startSweep_kept (s : State) (b cause : Nat) (release command : Bool) :
    Kept 0x12304a324 s (State.startSweep s b cause release command) := by
  have e8 : Nat.land 0x100 0x12304a324 = 0x100 := rfl
  unfold State.startSweep
  try dsimp only
  repeat' first
    | exact (rfl : Nat.land _ _ = _)
    | with_reducible first
      | assumption | apply Kept.refl | apply Kept.step (State.modBench_kept ..) | apply Kept.step (State.holdBench_kept ..)
      | apply Kept.step (State.settleBench_kept ..) | fail_if_no_progress refine Kept.madeFormingFlr e8 ?_ | apply Kept.ite
    | dsimp only
    | split

theorem State.modSweep_kept (s : State) (b : Nat) (f : Sweep → Sweep) : Kept 0x20 s (State.modSweep s b f) := by
  unfold State.modSweep
  try dsimp only
  repeat' first
    | exact (rfl : Nat.land _ _ = _)
    | with_reducible first
      | assumption | apply Kept.refl | apply Kept.step (State.modBench_kept ..)

theorem State.unissue_kept (s : State) (p : Nat) (t : EgressTlp) : Kept 0x2224 s (State.unissue s p t) := by
  have e13 : Nat.land 0x2000 0x2224 = 0x2000 := rfl
  unfold State.unissue
  try dsimp only
  repeat' first
    | exact (rfl : Nat.land _ _ = _)
    | with_reducible first
      | assumption | apply Kept.refl | apply Kept.step (State.modPort_kept ..) | apply Kept.step (State.modRing_kept ..)
      | apply Kept.step (State.modLathe_kept ..) | fail_if_no_progress refine Kept.madeHeadstock e13 ?_ | apply Kept.ite
    | dsimp only
    | split

theorem State.dropEgress_kept (s : State) (b : Nat) : Kept 0x2224 s (State.dropEgress s b) := by
  unfold State.dropEgress
  try dsimp only
  repeat' first
    | exact (rfl : Nat.land _ _ = _)
    | (intro _; try dsimp only)
    | with_reducible first
      | assumption | apply Kept.refl | apply Kept.fold | apply Kept.step (State.modPort_kept ..) | apply Kept.step (State.unissue_kept ..)

theorem State.unsend_kept (s : State) (m : EnvanMsg) : Kept 0x200 s (State.unsend s m) := by
  unfold State.unsend
  try dsimp only
  repeat' first
    | exact (rfl : Nat.land _ _ = _)
    | with_reducible first
      | assumption | apply Kept.refl | apply Kept.step (State.modLathe_kept ..)
    | dsimp only
    | split

theorem State.dropRouteless_kept (s : State) (b : Nat) : Kept 0x1000200 s (State.dropRouteless s b) := by
  have e24 : Nat.land 0x1000000 0x1000200 = 0x1000000 := rfl
  unfold State.dropRouteless
  try dsimp only
  repeat' first
    | exact (rfl : Nat.land _ _ = _)
    | (intro _; try dsimp only)
    | with_reducible first
      | assumption | apply Kept.refl | apply Kept.fold | apply Kept.step (State.unsend_kept ..)
      | fail_if_no_progress refine Kept.madeCascade e24 ?_

theorem State.cutLathes_kept (s : State) (b : Nat) : Kept 0x102002224 s (State.cutLathes s b) := by
  have e9 : Nat.land 0x200 0x102002224 = 0x200 := rfl
  unfold State.cutLathes
  try dsimp only
  repeat' first
    | exact (rfl : Nat.land _ _ = _)
    | (intro _; try dsimp only)
    | with_reducible first
      | assumption | apply Kept.refl | apply Kept.fold | apply Kept.mapGetD | apply Kept.step (State.abandonWork_kept ..)
      | apply Kept.step (State.releaseCut_kept ..) | fail_if_no_progress refine Kept.madeLathes e9 ?_ | apply Kept.ite
    | dsimp only
    | split

theorem State.cutMig_kept (s : State) (b : Nat) : Kept 0x4000 s (State.cutMig s b) := by
  have e14 : Nat.land 0x4000 0x4000 = 0x4000 := rfl
  unfold State.cutMig
  try dsimp only
  repeat' first
    | exact (rfl : Nat.land _ _ = _)
    | with_reducible first
      | assumption | apply Kept.refl | fail_if_no_progress refine Kept.madeMig e14 ?_ | apply Kept.ite
    | dsimp only
    | split

theorem State.cutHeadstock_kept (s : State) (b : Nat) : Kept 0x2024 s (State.cutHeadstock s b) := by
  have e13 : Nat.land 0x2000 0x2024 = 0x2000 := rfl
  unfold State.cutHeadstock
  try dsimp only
  repeat' first
    | exact (rfl : Nat.land _ _ = _)
    | with_reducible first
      | assumption | apply Kept.refl | apply Kept.step (State.dropMisses_kept ..) | apply Kept.step (State.modBench_kept ..)
      | apply Kept.step (State.discardFaults_kept ..) | fail_if_no_progress refine Kept.madeHeadstock e13 ?_

theorem State.applyBuffered_kept (s : State) (b : Nat) : Kept 0x52800b02e s (State.applyBuffered s b) := by
  unfold State.applyBuffered
  try dsimp only
  repeat' first
    | exact (rfl : Nat.land _ _ = _)
    | (intro _; try dsimp only)
    | with_reducible first
      | assumption | apply Kept.refl | apply Kept.fold | apply Kept.step (State.modPeer_kept ..)
      | apply Kept.step (State.applyPeer_kept ..)

theorem State.cutCores_kept (s : State) (b : Nat) : Kept 0x1277c8000 s (State.cutCores s b) := by
  have e15 : Nat.land 0x8000 0x1277c8000 = 0x8000 := rfl
  have e18 : Nat.land 0x40000 0x1277c8000 = 0x40000 := rfl
  unfold State.cutCores
  try dsimp only
  repeat' first
    | exact (rfl : Nat.land _ _ = _)
    | (intro _; try dsimp only)
    | with_reducible first
      | assumption | apply Kept.refl | apply Kept.fold | apply Kept.step (State.abandonAnneal_kept ..)
      | apply Kept.step (State.freeLaunch_kept ..) | apply Kept.step (State.abandonLaunch_kept ..)
      | fail_if_no_progress refine Kept.madeSpindlesPlacements e15 e18 ?_ | apply Kept.ite
    | dsimp only
    | split

theorem State.cutHeld_kept (s : State) (b : Nat) : Kept 0xa002c20 s (State.cutHeld s b) := by
  unfold State.cutHeld
  try dsimp only
  repeat' first
    | exact (rfl : Nat.land _ _ = _)
    | (intro _; try dsimp only)
    | with_reducible first
      | assumption | apply Kept.refl | apply Kept.fold | apply Kept.step (State.endBillet_kept ..)
      | apply Kept.step (State.dropLine_kept ..) | apply Kept.step (State.dropTimer_kept ..)
      | apply Kept.step (State.closeStreams_kept ..)

theorem State.cutBench_kept (s : State) (b : Nat) : Kept 0xd2f7ffe3e s (State.cutBench s b) := by
  have e24 : Nat.land 0x1000000 0xd2f7ffe3e = 0x1000000 := rfl
  unfold State.cutBench
  try dsimp only
  repeat' first
    | exact (rfl : Nat.land _ _ = _)
    | (intro _; try dsimp only)
    | with_reducible first
      | assumption | apply Kept.refl | apply Kept.fold | apply Kept.mapGetD | apply Kept.step (State.endCommand_kept ..)
      | apply Kept.step (State.tellMaster_kept ..) | apply Kept.step (State.bar2Lost_kept ..) | apply Kept.step (State.stopBar2_kept ..)
      | apply Kept.step (State.dropAsked_kept ..) | apply Kept.step (State.modPort_kept ..) | apply Kept.step (State.modBench_kept ..)
      | apply Kept.step (State.sendHub_kept ..) | apply Kept.step (State.dropVectors_kept ..)
      | apply Kept.step (State.leaveArbiters_kept ..) | apply Kept.step (State.modSweep_kept ..)
      | apply Kept.step (State.dropEgress_kept ..) | apply Kept.step (State.dropRouteless_kept ..)
      | apply Kept.step (State.cutLathes_kept ..) | apply Kept.step (State.cutMig_kept ..) | apply Kept.step (State.cutHeadstock_kept ..)
      | apply Kept.step (State.applyBuffered_kept ..) | apply Kept.step (State.cutCores_kept ..) | apply Kept.step (State.cutHeld_kept ..)
      | fail_if_no_progress refine Kept.madeCascade e24 ?_ | apply Kept.ite
    | dsimp only
    | split

theorem State.takeLocks_kept (s : State) (b : Nat) : Kept 0x2000000 s (State.takeLocks s b) := by
  have e25 : Nat.land 0x2000000 0x2000000 = 0x2000000 := rfl
  unfold State.takeLocks
  try dsimp only
  repeat' first
    | exact (rfl : Nat.land _ _ = _)
    | with_reducible first
      | assumption | apply Kept.refl | apply Kept.step (State.endTallies_kept ..) | fail_if_no_progress refine Kept.madeRecovery e25 ?_

theorem State.reclaim_kept (s : State) (b : Nat) : Kept 0x12304a060 s (State.reclaim s b) := by
  have e13 : Nat.land 0x2000 0x12304a060 = 0x2000 := rfl
  unfold State.reclaim
  try dsimp only
  repeat' first
    | exact (rfl : Nat.land _ _ = _)
    | (intro _; try dsimp only)
    | with_reducible first
      | assumption | apply Kept.refl | apply Kept.fold | apply Kept.step (State.fillGrants_kept ..)
      | apply Kept.step (State.dropEntries_kept ..) | apply Kept.step (State.modBench_kept ..)
      | apply Kept.step (State.endTallies_kept ..) | apply Kept.step (State.breakTallies_kept ..)
      | apply Kept.step (State.releasePlacement_kept ..) | apply Kept.step (State.modSweep_kept ..)
      | fail_if_no_progress refine Kept.madeHeadstock e13 ?_

theorem State.dispose_kept (s : State) (b : Nat) : Kept 0x3603236 s (State.dispose s b) := by
  have e13 : Nat.land 0x2000 0x3603236 = 0x2000 := rfl
  have e24 : Nat.land 0x1000000 0x3603236 = 0x1000000 := rfl
  unfold State.dispose
  try dsimp only
  repeat' first
    | exact (rfl : Nat.land _ _ = _)
    | (intro _; try dsimp only)
    | with_reducible first
      | assumption | apply Kept.refl | apply Kept.fold | apply Kept.step (State.commandDone_kept ..)
      | apply Kept.step (State.endCommand_kept ..) | apply Kept.step (State.setBench_kept ..) | apply Kept.step (State.modBench_kept ..)
      | apply Kept.step (State.endTallies_kept ..) | apply Kept.step (State.cancelDeadline_kept ..)
      | apply Kept.step (State.notice_kept ..) | apply Kept.step (State.leaveArbiters_kept ..) | apply Kept.step (State.giveUp_kept ..)
      | apply Kept.step (State.drainChannel_kept ..) | fail_if_no_progress refine Kept.madeHeadstockCascade e13 e24 ?_ | apply Kept.ite
    | dsimp only
    | split

end Sys2Proof.Machine
end

