-- ==== Sys2Proof/Laws/Kept/AttachOps.lean ====
section
/-!
SUPPORT. What the operations and commands of Machine/AttachOps.lean keep.
-/

namespace Sys2Proof.Machine

theorem State.abortFlushed_kept (s : State) (b r : Nat) : Kept 0x20 s (State.abortFlushed s b r) := by
  unfold State.abortFlushed
  try dsimp only
  repeat' first
    | exact (rfl : Nat.land _ _ = _)
    | with_reducible first
      | assumption | apply Kept.refl | apply Kept.step (State.modRing_kept ..)

theorem State.endOwner_kept (s : State) (chaff : Bool) (o : TagOwner) : Kept 0x2006224 s (State.endOwner s chaff o) := by
  unfold State.endOwner
  try dsimp only
  repeat' first
    | exact (rfl : Nat.land _ _ = _)
    | with_reducible first
      | assumption | apply Kept.refl | apply Kept.step (State.abortFlushed_kept ..) | apply Kept.step (State.portLost_kept ..)
      | apply Kept.step (State.slotFreed_kept ..) | apply Kept.step (State.modLathe_kept ..) | apply Kept.step (State.parkHost_kept ..)
      | apply Kept.ite
    | dsimp only
    | split

theorem State.loseKnocks_kept (s : State) (b : Nat) (k : KnockState) : Kept 0x20 s (State.loseKnocks s b k) := by
  unfold State.loseKnocks
  try dsimp only
  repeat' first
    | exact (rfl : Nat.land _ _ = _)
    | (intro _; try dsimp only)
    | with_reducible first
      | assumption | apply Kept.refl | apply Kept.fold | apply Kept.step (State.modRing_kept ..) | apply Kept.ite
    | dsimp only
    | split

theorem State.abandonPages_kept (s : State) (b : Nat) : Kept 0x2000 s (State.abandonPages s b) := by
  have e13 : Nat.land 0x2000 0x2000 = 0x2000 := rfl
  unfold State.abandonPages
  try dsimp only
  repeat' first
    | exact (rfl : Nat.land _ _ = _)
    | with_reducible first
      | assumption | apply Kept.refl | fail_if_no_progress refine Kept.madeHeadstock e13 ?_ | apply Kept.ite
    | dsimp only
    | split

theorem State.detachBench_kept (s : State) (b : Nat) : Kept 0x2002226 s (State.detachBench s b) := by
  unfold State.detachBench
  try dsimp only
  repeat' first
    | exact (rfl : Nat.land _ _ = _)
    | (intro _; try dsimp only)
    | with_reducible first
      | assumption | apply Kept.refl | apply Kept.fold | apply Kept.step (State.loseKnocks_kept ..)
      | apply Kept.step (State.abandonPages_kept ..) | apply Kept.step (State.startDeadline_kept ..)
      | apply Kept.step (State.dropEntries_kept ..) | apply Kept.step (State.portLost_kept ..) | apply Kept.step (State.modBench_kept ..)
      | apply Kept.step (State.notice_kept ..) | apply Kept.ite
    | dsimp only
    | split

theorem State.linkLost_kept (s : State) (p : Nat) : Kept 0x80201622e s (State.linkLost s p) := by
  have e1 : Nat.land 0x2 0x80201622e = 0x2 := rfl
  have e3 : Nat.land 0x8 0x80201622e = 0x8 := rfl
  have e13 : Nat.land 0x2000 0x80201622e = 0x2000 := rfl
  have e16 : Nat.land 0x10000 0x80201622e = 0x10000 := rfl
  have e35 : Nat.land 0x800000000 0x80201622e = 0x800000000 := rfl
  unfold State.linkLost
  try dsimp only
  repeat' first
    | exact (rfl : Nat.land _ _ = _)
    | (intro _; try dsimp only)
    | with_reducible first
      | assumption | apply Kept.refl | apply Kept.fold | apply Kept.step (State.endOwner_kept ..)
      | apply Kept.step (State.detachBench_kept ..) | apply Kept.step (State.modPort_kept ..)
      | fail_if_no_progress refine Kept.madeHearthFnsHeadstockBar2ReadsBar2Queue e1 e3 e13 e16 e35 ?_
    | dsimp only
    | split

theorem State.portBack_kept (s : State) (b : Nat) : Kept 0x16300b224 s (State.portBack s b) := by
  unfold State.portBack
  try dsimp only
  repeat' first
    | exact (rfl : Nat.land _ _ = _)
    | (intro _; try dsimp only)
    | with_reducible first
      | assumption | apply Kept.refl | apply Kept.fold | apply Kept.mapGetD | apply Kept.step (State.pumpAts_kept ..)
      | apply Kept.step (State.pumpRing_kept ..) | apply Kept.step (State.flushVectors_kept ..)
      | apply Kept.step (State.resumeHost_kept ..) | apply Kept.step (State.takeKnock_kept ..) | apply Kept.step (State.sendPri_kept ..)
      | apply Kept.ite
    | dsimp only
    | split

theorem State.attachResult_kept (s : State) (b result : Nat) : Kept 0x20 s (State.attachResult s b result) := by
  unfold State.attachResult
  try dsimp only
  repeat' first
    | exact (rfl : Nat.land _ _ = _)
    | with_reducible first
      | assumption | apply Kept.refl | apply Kept.step (State.modBench_kept ..)

theorem State.attachRefuse_kept (s : State) (b result : Nat) : Kept 0x2000024 s (State.attachRefuse s b result) := by
  unfold State.attachRefuse
  try dsimp only
  repeat' first
    | exact (rfl : Nat.land _ _ = _)
    | with_reducible first
      | assumption | apply Kept.refl | apply Kept.step (State.attachResult_kept ..) | apply Kept.step (State.modBench_kept ..)
      | apply Kept.step (State.logError_kept ..) | apply Kept.ite
    | dsimp only
    | split

theorem State.closeRing_kept (s : State) (b r : Nat) : Kept 0x1277c2224 s (State.closeRing s b r) := by
  unfold State.closeRing
  try dsimp only
  repeat' first
    | exact (rfl : Nat.land _ _ = _)
    | (intro _; try dsimp only)
    | with_reducible first
      | assumption | apply Kept.refl | apply Kept.fold | apply Kept.step (State.abandonAnneal_kept ..)
      | apply Kept.step (State.abandonLaunch_kept ..) | apply Kept.step (State.endDesc_kept ..)
      | apply Kept.step (State.unparkFault_kept ..) | apply Kept.step (State.discardFaults_kept ..) | apply Kept.ite
    | dsimp only
    | split

theorem State.freshRing_kept (s : State) (b r : Nat) : Kept 0x1277c2224 s (State.freshRing s b r) := by
  unfold State.freshRing
  try dsimp only
  repeat' first
    | exact (rfl : Nat.land _ _ = _)
    | with_reducible first
      | assumption | apply Kept.refl | apply Kept.step (State.abandonAnneal_kept ..) | apply Kept.step (State.modRing_kept ..)
      | apply Kept.step (State.abandonLaunch_kept ..) | apply Kept.step (State.abandonRing_kept ..)

theorem State.freshBench_kept (s : State) (b : Nat) : Kept 0x1277c2224 s (State.freshBench s b) := by
  unfold State.freshBench
  try dsimp only
  repeat' first
    | exact (rfl : Nat.land _ _ = _)
    | (intro _; try dsimp only)
    | with_reducible first
      | assumption | apply Kept.refl | apply Kept.fold | apply Kept.step (State.freshRing_kept ..)
      | apply Kept.step (State.modBench_kept ..) | apply Kept.step (State.dropEgress_kept ..)

theorem State.attachAccept_kept (s : State) (b mode : Nat) : Kept 0x1677cb226 s (State.attachAccept s b mode) := by
  unfold State.attachAccept
  try dsimp only
  repeat' first
    | exact (rfl : Nat.land _ _ = _)
    | (intro _; try dsimp only)
    | with_reducible first
      | assumption | apply Kept.refl | apply Kept.fold | apply Kept.step (State.portBack_kept ..)
      | apply Kept.step (State.attachResult_kept ..) | apply Kept.step (State.closeRing_kept ..)
      | apply Kept.step (State.freshBench_kept ..) | apply Kept.step (State.modBench_kept ..)
      | apply Kept.step (State.cancelDeadline_kept ..) | apply Kept.step (State.notice_kept ..)
      | apply Kept.step (State.settleNotices_kept ..) | apply Kept.step (State.takeKnock_kept ..) | apply Kept.ite
    | dsimp only
    | split

theorem State.attachCmd_kept (s : State) (b mode : Nat) (epoch : BitVec 32) : Kept 0x1677cb227 s (State.attachCmd s b mode epoch) := by
  unfold State.attachCmd
  try dsimp only
  repeat' first
    | exact (rfl : Nat.land _ _ = _)
    | with_reducible first
      | assumption | apply Kept.refl | apply Kept.step (State.attachRefuse_kept ..) | apply Kept.step (State.attachAccept_kept ..)
      | apply Kept.step (State.modBench_kept ..) | apply Kept.step (State.countHub_kept ..) | apply Kept.step (State.countBench_kept ..)
      | apply Kept.ite
    | dsimp only
    | split

end Sys2Proof.Machine
end

