-- ==== Sys2Proof/Laws/Kept/HostPorts.lean ====
section
/-!
SUPPORT. What the operations and commands of Machine/HostPorts.lean keep.
-/

namespace Sys2Proof.Machine

theorem execPerstAssert_kept (port : Nat) (s : State) : KeptR 0x80201622e s (execPerstAssert port s) := by
  have e1 : Nat.land 0x2 0x80201622e = 0x2 := rfl
  unfold execPerstAssert
  try dsimp only
  repeat' first
    | exact (rfl : Nat.land _ _ = _)
    | with_reducible first
      | assumption | apply Kept.refl | apply KeptR.next | apply Kept.step (State.linkLost_kept ..)
      | apply Kept.step (State.modPort_kept ..) | fail_if_no_progress refine Kept.madeHearth e1 ?_ | apply Kept.ite | apply KeptR.ite
    | dsimp only
    | split

theorem State.wakePort_kept (s : State) (p : Nat) : Kept 0x2 s (State.wakePort s p) := by
  unfold State.wakePort
  try dsimp only
  repeat' first
    | exact (rfl : Nat.land _ _ = _)
    | with_reducible first
      | assumption | apply Kept.refl | apply Kept.step (State.wakeFor_kept ..) | apply Kept.ite
    | dsimp only
    | split

theorem execPerstDeassert_kept (port : Nat) (s : State) : KeptR 0x6 s (execPerstDeassert port s) := by
  unfold execPerstDeassert
  try dsimp only
  repeat' first
    | exact (rfl : Nat.land _ _ = _)
    | with_reducible first
      | assumption | apply Kept.refl | apply KeptR.next | apply Kept.step (State.wakePort_kept ..)
      | apply Kept.step (State.modPort_kept ..) | apply Kept.step (State.startDetect_kept ..) | apply Kept.ite | apply KeptR.ite
    | dsimp only
    | split

theorem State.absentPort_kept (s : State) (p : Nat) : Kept 0x6 s (State.absentPort s p) := by
  have e1 : Nat.land 0x2 0x6 = 0x2 := rfl
  unfold State.absentPort
  try dsimp only
  repeat' first
    | exact (rfl : Nat.land _ _ = _)
    | with_reducible first
      | assumption | apply Kept.refl | apply Kept.step (State.modPort_kept ..) | fail_if_no_progress refine Kept.madeHearth e1 ?_

theorem State.cxlGone_kept (s : State) (port : Nat) : Kept 0x24 s (State.cxlGone s port) := by
  unfold State.cxlGone
  try dsimp only
  repeat' first
    | exact (rfl : Nat.land _ _ = _)
    | (intro _; try dsimp only)
    | with_reducible first
      | assumption | apply Kept.refl | apply Kept.fold | apply Kept.step (State.loseKnocks_kept ..)
      | apply Kept.step (State.modPort_kept ..) | apply Kept.ite
    | dsimp only
    | split

theorem State.trainFailed_kept (s : State) (port : Nat) (cause : BitVec 3) : Kept 0x80201622e s (State.trainFailed s port cause) := by
  unfold State.trainFailed
  try dsimp only
  repeat' first
    | exact (rfl : Nat.land _ _ = _)
    | with_reducible first
      | assumption | apply Kept.refl | apply Kept.step (State.linkLost_kept ..) | apply Kept.step (State.absentPort_kept ..)
      | apply Kept.step (State.modPort_kept ..) | apply Kept.ite
    | dsimp only
    | split

theorem State.trained_kept (s : State) (port : Nat) (width speed : BitVec 3) (flit cxl refused : Bool) :
    Kept 0x120002024 s (State.trained s port width speed flit cxl refused) := by
  have e13 : Nat.land 0x2000 0x120002024 = 0x2000 := rfl
  unfold State.trained
  try dsimp only
  repeat' first
    | exact (rfl : Nat.land _ _ = _)
    | (intro _; try dsimp only)
    | with_reducible first
      | assumption | apply Kept.refl | apply Kept.fold | apply Kept.step (State.cxlGone_kept ..) | apply Kept.step (State.modPort_kept ..)
      | apply Kept.step (State.takeKnock_kept ..) | fail_if_no_progress refine Kept.madeHeadstock e13 ?_ | apply Kept.ite
    | dsimp only
    | split

theorem execLinkTrainingDone_kept (port : Nat) (result : TrainResult) (s : State) : KeptR 0x92201622e s (execLinkTrainingDone port result s) := by
  unfold execLinkTrainingDone
  try dsimp only
  repeat' first
    | exact (rfl : Nat.land _ _ = _)
    | with_reducible first
      | assumption | apply Kept.refl | apply KeptR.next | apply Kept.step (State.trainFailed_kept ..)
      | apply Kept.step (State.trained_kept ..) | apply Kept.ite | apply KeptR.ite
    | dsimp only
    | split

theorem execDetectTimeout_kept (port : Nat) (s : State) : KeptR 0x6 s (execDetectTimeout port s) := by
  unfold execDetectTimeout
  try dsimp only
  repeat' first
    | exact (rfl : Nat.land _ _ = _)
    | with_reducible first
      | assumption | apply Kept.refl | apply KeptR.next | apply Kept.step (State.absentPort_kept ..)
      | apply Kept.step (State.modPort_kept ..) | apply Kept.ite | apply KeptR.ite
    | dsimp only
    | split

theorem execDetectRetry_kept (port : Nat) (s : State) : KeptR 0x6 s (execDetectRetry port s) := by
  have e1 : Nat.land 0x2 0x6 = 0x2 := rfl
  unfold execDetectRetry
  try dsimp only
  repeat' first
    | exact (rfl : Nat.land _ _ = _)
    | with_reducible first
      | assumption | apply Kept.refl | apply KeptR.next | apply Kept.step (State.wake_kept ..) | apply Kept.step (State.modPort_kept ..)
      | fail_if_no_progress refine Kept.madeHearth e1 ?_ | apply Kept.ite | apply KeptR.ite
    | dsimp only
    | split

theorem State.dropLink_kept (s : State) (p : Nat) : Kept 0x80201622e s (State.dropLink s p) := by
  unfold State.dropLink
  try dsimp only
  repeat' first
    | exact (rfl : Nat.land _ _ = _)
    | with_reducible first
      | assumption | apply Kept.refl | apply Kept.step (State.linkLost_kept ..) | apply Kept.step (State.wakePort_kept ..)
      | apply Kept.step (State.startDetect_kept ..) | apply Kept.ite
    | dsimp only
    | split

theorem execLinkDown_kept (port : Nat) (error : Option AerError) (s : State) : KeptR 0x90201622e s (execLinkDown port error s) := by
  unfold execLinkDown
  try dsimp only
  repeat' first
    | exact (rfl : Nat.land _ _ = _)
    | with_reducible first
      | assumption | apply Kept.refl | apply KeptR.next | apply Kept.step (State.dropLink_kept ..) | apply Kept.step (State.aer_kept ..)
      | apply Kept.ite | apply KeptR.ite
    | dsimp only
    | split

theorem execHotReset_kept (port : Nat) (s : State) : KeptR 0x80201622e s (execHotReset port s) := by
  unfold execHotReset
  try dsimp only
  repeat' first
    | exact (rfl : Nat.land _ _ = _)
    | with_reducible first
      | assumption | apply Kept.refl | apply KeptR.next | apply Kept.step (State.dropLink_kept ..)

theorem execDpcContainment_kept (port : Nat) (s : State) : KeptR 0x80201622e s (execDpcContainment port s) := by
  unfold execDpcContainment
  try dsimp only
  repeat' first
    | exact (rfl : Nat.land _ _ = _)
    | with_reducible first
      | assumption | apply Kept.refl | apply KeptR.next | apply Kept.step (State.dropLink_kept ..)

theorem execCxlLost_kept (port : Nat) (s : State) : KeptR 0x24 s (execCxlLost port s) := by
  unfold execCxlLost
  try dsimp only
  repeat' first
    | exact (rfl : Nat.land _ _ = _)
    | with_reducible first
      | assumption | apply Kept.refl | apply KeptR.next | apply Kept.step (State.cxlGone_kept ..) | apply Kept.ite | apply KeptR.ite
    | dsimp only
    | split

theorem State.resetFn_kept (s : State) (p f : Nat) : Kept 0x8 s (State.resetFn s p f) := by
  have e3 : Nat.land 0x8 0x8 = 0x8 := rfl
  unfold State.resetFn
  try dsimp only
  repeat' first
    | exact (rfl : Nat.land _ _ = _)
    | with_reducible first
      | assumption | apply Kept.refl | fail_if_no_progress refine Kept.madeFns e3 ?_

theorem State.flrBench_kept (s : State) (b : Nat) : Kept 0x12304a324 s (State.flrBench s b) := by
  unfold State.flrBench
  try dsimp only
  repeat' first
    | exact (rfl : Nat.land _ _ = _)
    | with_reducible first
      | assumption | apply Kept.refl | apply Kept.step (State.dropVectors_kept ..) | apply Kept.step (State.startSweep_kept ..)

theorem State.flrVfs_kept (s : State) (p : Nat) : Kept 0x12304a32c s (State.flrVfs s p) := by
  have e3 : Nat.land 0x8 0x12304a32c = 0x8 := rfl
  unfold State.flrVfs
  try dsimp only
  repeat' first
    | exact (rfl : Nat.land _ _ = _)
    | (intro _; try dsimp only)
    | with_reducible first
      | assumption | apply Kept.refl | apply Kept.fold | apply Kept.step (State.flrBench_kept ..)
      | apply Kept.step (State.modPort_kept ..) | fail_if_no_progress refine Kept.madeFns e3 ?_

theorem execFlr_kept (port fn : Nat) (s : State) : KeptR 0x12304a32c s (execFlr port fn s) := by
  unfold execFlr
  try dsimp only
  repeat' first
    | exact (rfl : Nat.land _ _ = _)
    | (intro _; try dsimp only)
    | with_reducible first
      | assumption | apply Kept.refl | apply Kept.fold | apply KeptR.next | apply Kept.step (State.resetFn_kept ..)
      | apply Kept.step (State.flrBench_kept ..) | apply Kept.step (State.flrVfs_kept ..) | apply Kept.step (State.modPort_kept ..)
      | apply Kept.ite | apply KeptR.ite
    | dsimp only
    | split

theorem execVfEnableClear_kept (port : Nat) (s : State) : KeptR 0x12304a32c s (execVfEnableClear port s) := by
  unfold execVfEnableClear
  try dsimp only
  repeat' first
    | exact (rfl : Nat.land _ _ = _)
    | with_reducible first
      | assumption | apply Kept.refl | apply KeptR.next | apply Kept.step (State.flrVfs_kept ..) | apply Kept.ite | apply KeptR.ite
    | dsimp only
    | split

theorem execNumvfsWrite_kept (port value : Nat) (s : State) : KeptR 0x4 s (execNumvfsWrite port value s) := by
  unfold execNumvfsWrite
  try dsimp only
  repeat' first
    | exact (rfl : Nat.land _ _ = _)
    | with_reducible first
      | assumption | apply Kept.refl | apply KeptR.next | apply Kept.step (State.modPort_kept ..) | apply Kept.ite | apply KeptR.ite
    | dsimp only
    | split

theorem State.atsOff_kept (s : State) (b : Nat) : Kept 0x100000020 s (State.atsOff s b) := by
  unfold State.atsOff
  try dsimp only
  repeat' first
    | exact (rfl : Nat.land _ _ = _)
    | (intro _; try dsimp only)
    | with_reducible first
      | assumption | apply Kept.refl | apply Kept.fold | apply Kept.step (State.modRing_kept ..)
      | apply Kept.step (State.dropKnock_kept ..) | apply Kept.ite
    | dsimp only
    | split

theorem State.atsOn_kept (s : State) (b : Nat) : Kept 0x120002020 s (State.atsOn s b) := by
  unfold State.atsOn
  try dsimp only
  repeat' first
    | exact (rfl : Nat.land _ _ = _)
    | (intro _; try dsimp only)
    | with_reducible first
      | assumption | apply Kept.refl | apply Kept.fold | apply Kept.step (State.takeKnock_kept ..) | apply Kept.ite
    | dsimp only
    | split

theorem State.setAts_kept (s : State) (p f : Nat) (on : Bool) : Kept 0x120002028 s (State.setAts s p f on) := by
  unfold State.setAts
  try dsimp only
  repeat' first
    | exact (rfl : Nat.land _ _ = _)
    | with_reducible first
      | assumption | apply Kept.refl | apply Kept.step (State.atsOff_kept ..) | apply Kept.step (State.atsOn_kept ..)
      | apply Kept.step (State.modFn_kept ..) | apply Kept.ite
    | dsimp only
    | split

theorem State.configure_kept (s : State) (p f : Nat) (a : ConfigAccess) : Kept 0x12000202c s (State.configure s p f a) := by
  unfold State.configure
  try dsimp only
  repeat' first
    | exact (rfl : Nat.land _ _ = _)
    | with_reducible first
      | assumption | apply Kept.refl | apply Kept.step (State.setAts_kept ..) | apply Kept.step (State.modPort_kept ..)
      | apply Kept.step (State.modFn_kept ..) | apply Kept.step (State.emit_kept ..) | apply Kept.ite
    | dsimp only
    | split

theorem State.answered_kept (s : State) : Kept 0x4000001 s (State.answered s) := by
  have e0 : Nat.land 0x1 0x4000001 = 0x1 := rfl
  have e26 : Nat.land 0x4000000 0x4000001 = 0x4000000 := rfl
  unfold State.answered
  try dsimp only
  repeat' first
    | exact (rfl : Nat.land _ _ = _)
    | with_reducible first
      | assumption | apply Kept.refl | fail_if_no_progress refine Kept.madeChipBg rfl rfl rfl e0 e26 ?_ | apply Kept.ite
    | dsimp only
    | split

theorem execConfigRequest_kept (port fn : Nat) (access : ConfigAccess) (s : State) : KeptR 0x16700b22d s (execConfigRequest port fn access s) := by
  unfold execConfigRequest
  try dsimp only
  repeat' first
    | exact (rfl : Nat.land _ _ = _)
    | (intro _; try dsimp only)
    | with_reducible first
      | assumption | apply Kept.refl | apply Kept.fold | apply KeptR.next | apply Kept.step (State.portBack_kept ..)
      | apply Kept.step (State.configure_kept ..) | apply Kept.step (State.answered_kept ..) | apply Kept.step (State.emit_kept ..)
      | apply Kept.step (State.aer_kept ..) | apply Kept.ite | apply KeptR.ite
    | dsimp only
    | split

theorem State.fnBack_kept (s : State) (p f : Nat) : Kept 0x16300b224 s (State.fnBack s p f) := by
  unfold State.fnBack
  try dsimp only
  repeat' first
    | exact (rfl : Nat.land _ _ = _)
    | with_reducible first
      | assumption | apply Kept.refl | apply Kept.step (State.portBack_kept ..)
    | dsimp only
    | split

theorem State.fnStops_kept (s : State) (p f : Nat) : Kept 0x24 s (State.fnStops s p f) := by
  unfold State.fnStops
  try dsimp only
  repeat' first
    | exact (rfl : Nat.land _ _ = _)
    | with_reducible first
      | assumption | apply Kept.refl | apply Kept.step (State.unwriteNotices_kept ..)

theorem execPowerStateChange_kept (port fn : Nat) (d3hot : Bool) (s : State) : KeptR 0x16300b22c s (execPowerStateChange port fn d3hot s) := by
  unfold execPowerStateChange
  try dsimp only
  repeat' first
    | exact (rfl : Nat.land _ _ = _)
    | with_reducible first
      | assumption | apply Kept.refl | apply KeptR.next | apply Kept.step (State.fnBack_kept ..) | apply Kept.step (State.fnStops_kept ..)
      | apply Kept.step (State.modPort_kept ..) | apply Kept.step (State.modFn_kept ..) | apply Kept.step (State.emit_kept ..)
      | apply Kept.ite | apply KeptR.ite
    | dsimp only
    | split

theorem execBusMasterEnableChange_kept (port fn : Nat) (enable : Bool) (s : State) :
    KeptR 0x16300b22c s (execBusMasterEnableChange port fn enable s) := by
  unfold execBusMasterEnableChange
  try dsimp only
  repeat' first
    | exact (rfl : Nat.land _ _ = _)
    | with_reducible first
      | assumption | apply Kept.refl | apply KeptR.next | apply Kept.step (State.fnBack_kept ..) | apply Kept.step (State.fnStops_kept ..)
      | apply Kept.step (State.modFn_kept ..) | apply Kept.step (State.emit_kept ..) | apply Kept.ite | apply KeptR.ite
    | dsimp only
    | split

theorem execLinkPowerStateChange_kept (port : Nat) (l2 : Bool) (s : State) : KeptR 0x16300b224 s (execLinkPowerStateChange port l2 s) := by
  unfold execLinkPowerStateChange
  try dsimp only
  repeat' first
    | exact (rfl : Nat.land _ _ = _)
    | (intro _; try dsimp only)
    | with_reducible first
      | assumption | apply Kept.refl | apply Kept.fold | apply KeptR.next | apply Kept.step (State.portBack_kept ..)
      | apply Kept.step (State.modPort_kept ..) | apply Kept.step (State.unwriteNotices_kept ..) | apply Kept.ite | apply KeptR.ite
    | dsimp only
    | split

theorem execAspmL1Change_kept (port : Nat) (state : AspmState) (s : State) : KeptR 0x6 s (execAspmL1Change port state s) := by
  unfold execAspmL1Change
  try dsimp only
  repeat' first
    | exact (rfl : Nat.land _ _ = _)
    | with_reducible first
      | assumption | apply Kept.refl | apply KeptR.next | apply Kept.step (State.wake_kept ..) | apply Kept.step (State.modPort_kept ..)
      | apply Kept.step (State.stir_kept ..) | apply Kept.ite | apply KeptR.ite
    | dsimp only
    | split

theorem execEgressGrant_kept (port : Nat) (s : State) : KeptR 0x120001024 s (execEgressGrant port s) := by
  unfold execEgressGrant
  try dsimp only
  repeat' first
    | exact (rfl : Nat.land _ _ = _)
    | with_reducible first
      | assumption | apply Kept.refl | apply KeptR.next | apply Kept.step (State.modPort_kept ..) | apply Kept.step (State.emit_kept ..)
      | apply Kept.step (State.countPerf_kept ..) | apply Kept.step (State.tagOut_kept ..)
      | apply Kept.step (Kept.pair (by assumption) (State.tagOut_kept ..)) | apply Kept.step (State.noticeDone_kept ..)
      | apply Kept.step (State.arbitrate_kept ..) | apply Kept.step (Kept.pair (by assumption) (State.arbitrate_kept ..))
      | apply Kept.step (State.charge_kept ..) | apply Kept.step (State.rateCharge_kept ..) | apply Kept.ite | apply KeptR.ite
    | dsimp only
    | split

theorem State.flushDone_kept (s : State) (b r l n : Nat) (failed : Option Nat) : Kept 0x16300d224 s (State.flushDone s b r l n failed) := by
  unfold State.flushDone
  try dsimp only
  repeat' first
    | exact (rfl : Nat.land _ _ = _)
    | with_reducible first
      | assumption | apply Kept.refl | apply Kept.step (State.advance_kept ..) | apply Kept.step (State.pumpLathe_kept ..)
      | apply Kept.step (State.slotFreed_kept ..) | apply Kept.step (State.modBench_kept ..) | apply Kept.step (State.modLathe_kept ..)
      | apply Kept.step (State.modDesc_kept ..) | apply Kept.ite
    | dsimp only
    | split

theorem State.invFlushed_kept (s : State) (p f i : Nat) : Kept 0x4 s (State.invFlushed s p f i) := by
  unfold State.invFlushed
  try dsimp only
  repeat' first
    | exact (rfl : Nat.land _ _ = _)
    | with_reducible first
      | assumption | apply Kept.refl | apply Kept.step (State.modPort_kept ..) | apply Kept.ite
    | dsimp only
    | split

theorem State.failTag_kept (s : State) (p : Nat) (u : TagUse) (code : Nat) : Kept 0x16300f224 s (State.failTag s p u code) := by
  unfold State.failTag
  try dsimp only
  repeat' first
    | exact (rfl : Nat.land _ _ = _)
    | (intro _; try dsimp only)
    | with_reducible first
      | assumption | apply Kept.refl | apply Kept.fold | apply Kept.step (State.abortFlushed_kept ..)
      | apply Kept.step (State.endMiss_kept ..) | apply Kept.step (State.flushDone_kept ..) | apply Kept.step (State.invFlushed_kept ..)
      | apply Kept.step (State.failAts_kept ..) | apply Kept.step (State.failRead_kept ..) | apply Kept.step (State.freeTag_kept ..)
    | dsimp only
    | split

theorem execHostCompletion_kept (port tag : Nat) (status : CplStatus) (data : List Byte) (s : State) :
    KeptR 0x16300f22c s (execHostCompletion port tag status data s) := by
  unfold execHostCompletion
  try dsimp only
  repeat' first
    | exact (rfl : Nat.land _ _ = _)
    | with_reducible first
      | assumption | apply Kept.refl | apply KeptR.next | apply Kept.step (State.abortFlushed_kept ..)
      | apply Kept.step (State.portIn_kept ..) | apply Kept.step (State.flushDone_kept ..) | apply Kept.step (State.invFlushed_kept ..)
      | apply Kept.step (State.failTag_kept ..) | apply Kept.step (State.deliver_kept ..) | apply Kept.step (State.freeTag_kept ..)
      | apply Kept.step (State.aer_kept ..) | apply Kept.ite | apply KeptR.ite
    | dsimp only
    | split

theorem execCompletionTimeout_kept (port tag : Nat) (s : State) : KeptR 0x16300f22c s (execCompletionTimeout port tag s) := by
  unfold execCompletionTimeout
  try dsimp only
  repeat' first
    | exact (rfl : Nat.land _ _ = _)
    | with_reducible first
      | assumption | apply Kept.refl | apply KeptR.next | apply Kept.step (State.failTag_kept ..) | apply Kept.step (State.aer_kept ..)
    | dsimp only
    | split

theorem State.atBar2_kept (s : State) (p : Nat) (r : PorchRequest) (f : State → State) {M : Nat} (hm : Nat.land 0x2 M = 0x2) (hf : ∀ s, Kept M s (f s)) :
    Kept M s (State.atBar2 s p r f) := by
  unfold State.atBar2
  try dsimp only
  repeat' first
    | exact (rfl : Nat.land _ _ = _)
    | exact land_trans (k := 0x2) rfl hm
    | (intro _; try dsimp only)
    | with_reducible first
      | assumption | apply Kept.refl | apply Kept.then (hf ..) | apply Kept.then (State.atDomain_kept (hm := ?_) (hf := ?_) ..)

theorem State.serveBar2Read_kept (s : State) (p f off len hid : Nat) : Kept 0xd2001b026 s (State.serveBar2Read s p f off len hid) := by
  unfold State.serveBar2Read
  try dsimp only
  repeat' first
    | exact (rfl : Nat.land _ _ = _)
    | with_reducible first
      | assumption | apply Kept.refl | apply Kept.step (State.arrive_kept ..)

theorem State.serveBar2Write_kept (s : State) (p f off : Nat) (data : List (Byte × Bool)) (poisoned relaxed : Bool) :
    Kept 0xd2001b02e s (State.serveBar2Write s p f off data poisoned relaxed) := by
  unfold State.serveBar2Write
  try dsimp only
  repeat' first
    | exact (rfl : Nat.land _ _ = _)
    | with_reducible first
      | assumption | apply Kept.refl | apply Kept.step (State.arrive_kept ..) | apply Kept.step (State.aer_kept ..) | apply Kept.ite
    | dsimp only
    | split

theorem execBar2Read_kept (port fn offset length hid : Nat) (s : State) : KeptR 0xd2001b026 s (execBar2Read port fn offset length hid s) := by
  unfold execBar2Read
  try dsimp only
  repeat' first
    | exact (rfl : Nat.land _ _ = _)
    | (intro _; try dsimp only)
    | with_reducible first
      | assumption | apply Kept.refl | apply KeptR.next | apply Kept.then (State.atBar2_kept (hm := ?_) (hf := ?_) ..)
      | apply Kept.step (State.serveBar2Read_kept ..) | apply Kept.ite | apply KeptR.ite
    | dsimp only
    | split

theorem execBar2Write_kept (port fn offset : Nat) (data : List (Byte × Bool)) (poisoned relaxed : Bool) (s : State) :
    KeptR 0xd2001b02e s (execBar2Write port fn offset data poisoned relaxed s) := by
  unfold execBar2Write
  try dsimp only
  repeat' first
    | exact (rfl : Nat.land _ _ = _)
    | (intro _; try dsimp only)
    | with_reducible first
      | assumption | apply Kept.refl | apply KeptR.next | apply Kept.step (State.portIn_kept ..)
      | apply Kept.then (State.atBar2_kept (hm := ?_) (hf := ?_) ..) | apply Kept.step (State.serveBar2Write_kept ..) | apply Kept.ite
      | apply KeptR.ite
    | dsimp only
    | split

theorem execBar4Write_kept (port fn offset requester : Nat) (data : List (Byte × Bool)) (poisoned relaxed : Bool) (s : State) :
    KeptR 0x12000002e s (execBar4Write port fn offset requester data poisoned relaxed s) := by
  unfold execBar4Write
  try dsimp only
  repeat' first
    | exact (rfl : Nat.land _ _ = _)
    | (intro _; try dsimp only)
    | with_reducible first
      | assumption | apply Kept.refl | apply KeptR.next | apply Kept.step (State.portIn_kept ..)
      | apply Kept.step (State.serveBar4Write_kept ..) | apply Kept.then (State.atBar2_kept (hm := ?_) (hf := ?_) ..) | apply Kept.ite
      | apply KeptR.ite
    | dsimp only
    | split

theorem execBar4Read_kept (port fn hid : Nat) (s : State) : KeptR 0x10000002c s (execBar4Read port fn hid s) := by
  unfold execBar4Read
  try dsimp only
  repeat' first
    | exact (rfl : Nat.land _ _ = _)
    | with_reducible first
      | assumption | apply Kept.refl | apply KeptR.next | apply Kept.step (State.complete_kept ..) | apply Kept.step (State.count_kept ..)
      | apply Kept.step (State.aer_kept ..) | apply Kept.ite | apply KeptR.ite
    | dsimp only
    | split

theorem execAtomicop_kept (port fn _bar hid : Nat) (s : State) : KeptR 0x10000000c s (execAtomicop port fn _bar hid s) := by
  unfold execAtomicop
  try dsimp only
  repeat' first
    | exact (rfl : Nat.land _ _ = _)
    | with_reducible first
      | assumption | apply Kept.refl | apply KeptR.next | apply Kept.step (State.complete_kept ..) | apply Kept.step (State.aer_kept ..)
      | apply Kept.ite | apply KeptR.ite
    | dsimp only
    | split

theorem execMsixModerationExpiry_kept (bench vector : Nat) (s : State) : KeptR 0x24 s (execMsixModerationExpiry bench vector s) := by
  unfold execMsixModerationExpiry
  try dsimp only
  repeat' first
    | exact (rfl : Nat.land _ _ = _)
    | with_reducible first
      | assumption | apply Kept.refl | apply KeptR.next | apply Kept.step (State.modBench_kept ..)
      | apply Kept.step (State.fireVector_kept ..) | apply Kept.ite | apply KeptR.ite
    | dsimp only
    | split

theorem State.putMsix_kept (s : State) (b vector dword : Nat) (value : BitVec 32) : Kept 0x24 s (State.putMsix s b vector dword value) := by
  unfold State.putMsix
  try dsimp only
  repeat' first
    | exact (rfl : Nat.land _ _ = _)
    | with_reducible first
      | assumption | apply Kept.refl | apply Kept.step (State.modBench_kept ..) | apply Kept.step (State.flushVector_kept ..)

theorem execMsixEntryWrite_kept (port fn vector dword : Nat) (value : BitVec 32) (s : State) :
    KeptR 0x25 s (execMsixEntryWrite port fn vector dword value s) := by
  unfold execMsixEntryWrite
  try dsimp only
  repeat' first
    | exact (rfl : Nat.land _ _ = _)
    | with_reducible first
      | assumption | apply Kept.refl | apply KeptR.next | apply Kept.step (State.putMsix_kept ..)
      | apply Kept.step (State.countHub_kept ..) | apply Kept.step (State.countBench_kept ..) | apply Kept.ite | apply KeptR.ite
    | dsimp only
    | split

end Sys2Proof.Machine
end

