-- ==== Sys2Proof/Laws/Kept/Benches.lean ====
section
/-!
SUPPORT. What the operations and commands of Machine/Benches.lean keep.
-/

namespace Sys2Proof.Machine

theorem State.formCmd_kept (s : State) : Kept 0x20023b7 s (State.formCmd s) := by
  have e7 : Nat.land 0x80 0x20023b7 = 0x80 := rfl
  have e8 : Nat.land 0x100 0x20023b7 = 0x100 := rfl
  unfold State.formCmd
  try dsimp only
  repeat' first
    | exact (rfl : Nat.land _ _ = _)
    | (intro _; try dsimp only)
    | with_reducible first
      | assumption | apply Kept.refl | apply Kept.step (State.detachBench_kept ..) | apply Kept.step (State.formReserve_kept ..)
      | apply Kept.then (State.acceptCommand_kept (hm := ?_) (hf := ?_) ..) | apply Kept.step (State.endCommand_kept ..)
      | fail_if_no_progress refine Kept.madeFormingFormingFlr e7 e8 ?_ | apply Kept.ite
    | dsimp only
    | split

theorem execForm_kept (s : State) : KeptR 0x20023b7 s (execForm s) := by
  unfold execForm
  try dsimp only
  repeat' first
    | exact (rfl : Nat.land _ _ = _)
    | (intro _; try dsimp only)
    | with_reducible first
      | assumption | apply Kept.refl | apply KeptR.next | apply Kept.step (State.formCmd_kept ..)
      | apply Kept.then (State.fromMgmt_kept (hm := ?_) (hf := ?_) ..)

theorem State.unform_kept (s : State) (b : Nat) : Kept 0x2000022 s (State.unform s b) := by
  unfold State.unform
  try dsimp only
  repeat' first
    | exact (rfl : Nat.land _ _ = _)
    | with_reducible first
      | assumption | apply Kept.refl | apply Kept.step (State.setBench_kept ..) | apply Kept.step (State.endTallies_kept ..)
      | apply Kept.step (State.cancelDeadline_kept ..)

theorem execFormationDone_kept (s : State) : KeptR 0x1a304a3b6 s (execFormationDone s) := by
  have e7 : Nat.land 0x80 0x1a304a3b6 = 0x80 := rfl
  have e8 : Nat.land 0x100 0x1a304a3b6 = 0x100 := rfl
  unfold execFormationDone
  try dsimp only
  repeat' first
    | exact (rfl : Nat.land _ _ = _)
    | with_reducible first
      | assumption | apply Kept.refl | apply KeptR.next | apply Kept.step (State.formFinish_kept ..)
      | apply Kept.step (State.endCommand_kept ..) | apply Kept.step (State.unform_kept ..) | apply Kept.step (State.modBench_kept ..)
      | apply Kept.step (State.startSweep_kept ..) | fail_if_no_progress refine Kept.madeFormingFormingFlr e7 e8 ?_ | apply Kept.ite
      | apply KeptR.ite
    | dsimp only
    | split

theorem State.setLimitsCmd_kept (s : State) : Kept 0x37 s (State.setLimitsCmd s) := by
  unfold State.setLimitsCmd
  try dsimp only
  repeat' first
    | exact (rfl : Nat.land _ _ = _)
    | (intro _; try dsimp only)
    | with_reducible first
      | assumption | apply Kept.refl | apply Kept.then (State.acceptCommand_kept (hm := ?_) (hf := ?_) ..)
      | apply Kept.step (State.endCommand_kept ..) | apply Kept.step (State.modBench_kept ..) | apply Kept.ite
    | dsimp only
    | split

theorem execSetLimits_kept (s : State) : KeptR 0x37 s (execSetLimits s) := by
  unfold execSetLimits
  try dsimp only
  repeat' first
    | exact (rfl : Nat.land _ _ = _)
    | (intro _; try dsimp only)
    | with_reducible first
      | assumption | apply Kept.refl | apply KeptR.next | apply Kept.step (State.setLimitsCmd_kept ..)
      | apply Kept.then (State.fromMgmt_kept (hm := ?_) (hf := ?_) ..)

theorem State.putKeep_kept (s : State) (b : Nat) (keep : Bool) : Kept 0x22 s (State.putKeep s b keep) := by
  unfold State.putKeep
  try dsimp only
  repeat' first
    | exact (rfl : Nat.land _ _ = _)
    | with_reducible first
      | assumption | apply Kept.refl | apply Kept.step (State.startDeadline_kept ..) | apply Kept.step (State.modBench_kept ..)
      | apply Kept.step (State.cancelDeadline_kept ..) | apply Kept.ite
    | dsimp only
    | split

theorem State.setKeepCmd_kept (s : State) : Kept 0x37 s (State.setKeepCmd s) := by
  unfold State.setKeepCmd
  try dsimp only
  repeat' first
    | exact (rfl : Nat.land _ _ = _)
    | (intro _; try dsimp only)
    | with_reducible first
      | assumption | apply Kept.refl | apply Kept.then (State.acceptCommand_kept (hm := ?_) (hf := ?_) ..)
      | apply Kept.step (State.endCommand_kept ..) | apply Kept.step (State.putKeep_kept ..) | apply Kept.ite
    | dsimp only
    | split

theorem execSetKeep_kept (s : State) : KeptR 0x37 s (execSetKeep s) := by
  unfold execSetKeep
  try dsimp only
  repeat' first
    | exact (rfl : Nat.land _ _ = _)
    | (intro _; try dsimp only)
    | with_reducible first
      | assumption | apply Kept.refl | apply KeptR.next | apply Kept.step (State.setKeepCmd_kept ..)
      | apply Kept.then (State.fromMgmt_kept (hm := ?_) (hf := ?_) ..)

theorem State.holdFor_kept (s : State) (b cause : Nat) (address : BitVec 64) (core : BitVec 32) :
    Kept 0x121048024 s (State.holdFor s b cause address core) := by
  unfold State.holdFor
  try dsimp only
  repeat' first
    | exact (rfl : Nat.land _ _ = _)
    | with_reducible first
      | assumption | apply Kept.refl | apply Kept.step (State.modBench_kept ..) | apply Kept.step (State.notice_kept ..)
      | apply Kept.step (State.holdBench_kept ..) | apply Kept.ite
    | dsimp only
    | split

theorem State.holdCmd_kept (s : State) : Kept 0x121048037 s (State.holdCmd s) := by
  unfold State.holdCmd
  try dsimp only
  repeat' first
    | exact (rfl : Nat.land _ _ = _)
    | (intro _; try dsimp only)
    | with_reducible first
      | assumption | apply Kept.refl | apply Kept.then (State.acceptCommand_kept (hm := ?_) (hf := ?_) ..)
      | apply Kept.step (State.endCommand_kept ..) | apply Kept.step (State.holdFor_kept ..) | apply Kept.ite
    | dsimp only
    | split

theorem execHold_kept (s : State) : KeptR 0x121048037 s (execHold s) := by
  unfold execHold
  try dsimp only
  repeat' first
    | exact (rfl : Nat.land _ _ = _)
    | (intro _; try dsimp only)
    | with_reducible first
      | assumption | apply Kept.refl | apply KeptR.next | apply Kept.step (State.holdCmd_kept ..)
      | apply Kept.then (State.fromMgmt_kept (hm := ?_) (hf := ?_) ..)

theorem State.endHold_kept (s : State) (b : Nat) : Kept 0x121040020 s (State.endHold s b) := by
  unfold State.endHold
  try dsimp only
  repeat' first
    | exact (rfl : Nat.land _ _ = _)
    | (intro _; try dsimp only)
    | with_reducible first
      | assumption | apply Kept.refl | apply Kept.fold | apply Kept.step (State.modBench_kept ..)
      | apply Kept.step (State.tryRelease_kept ..)

theorem State.resumeCmd_kept (s : State) : Kept 0x121040037 s (State.resumeCmd s) := by
  unfold State.resumeCmd
  try dsimp only
  repeat' first
    | exact (rfl : Nat.land _ _ = _)
    | (intro _; try dsimp only)
    | with_reducible first
      | assumption | apply Kept.refl | apply Kept.then (State.acceptCommand_kept (hm := ?_) (hf := ?_) ..)
      | apply Kept.step (State.endCommand_kept ..) | apply Kept.step (State.endHold_kept ..) | apply Kept.ite
    | dsimp only
    | split

theorem execResume_kept (s : State) : KeptR 0x121040037 s (execResume s) := by
  unfold execResume
  try dsimp only
  repeat' first
    | exact (rfl : Nat.land _ _ = _)
    | (intro _; try dsimp only)
    | with_reducible first
      | assumption | apply Kept.refl | apply KeptR.next | apply Kept.step (State.resumeCmd_kept ..)
      | apply Kept.then (State.fromMgmt_kept (hm := ?_) (hf := ?_) ..)

theorem State.sweepCmd_kept (s : State) : Kept 0x12304a337 s (State.sweepCmd s) := by
  unfold State.sweepCmd
  try dsimp only
  repeat' first
    | exact (rfl : Nat.land _ _ = _)
    | (intro _; try dsimp only)
    | with_reducible first
      | assumption | apply Kept.refl | apply Kept.then (State.acceptCommand_kept (hm := ?_) (hf := ?_) ..)
      | apply Kept.step (State.endCommand_kept ..) | apply Kept.step (State.startSweep_kept ..) | apply Kept.ite
    | dsimp only
    | split

theorem execSweep_kept (s : State) : KeptR 0x12304a337 s (execSweep s) := by
  unfold execSweep
  try dsimp only
  repeat' first
    | exact (rfl : Nat.land _ _ = _)
    | (intro _; try dsimp only)
    | with_reducible first
      | assumption | apply Kept.refl | apply KeptR.next | apply Kept.step (State.sweepCmd_kept ..)
      | apply Kept.then (State.fromMgmt_kept (hm := ?_) (hf := ?_) ..)

theorem State.takeGrant_kept (s : State) (o d off len : Nat) : Kept 0x3000022 s (State.takeGrant s o d off len) := by
  unfold State.takeGrant
  try dsimp only
  repeat' first
    | exact (rfl : Nat.land _ _ = _)
    | with_reducible first
      | assumption | apply Kept.refl | apply Kept.step (State.modBench_kept ..) | apply Kept.step (State.stir_kept ..)
      | apply Kept.step (State.setGuest_kept ..) | apply Kept.step (State.addTally_kept ..) | apply Kept.ite
    | dsimp only
    | split

theorem State.spanBench_kept (s : State) (b : Nat) : Kept 0x121000000 s (State.spanBench s b) := by
  have e24 : Nat.land 0x1000000 0x121000000 = 0x1000000 := rfl
  unfold State.spanBench
  try dsimp only
  repeat' first
    | exact (rfl : Nat.land _ _ = _)
    | with_reducible first
      | assumption | apply Kept.refl | apply Kept.step (State.tellMaster_kept ..) | fail_if_no_progress refine Kept.madeCascade e24 ?_
      | apply Kept.ite
    | dsimp only
    | split

theorem State.answerGrant_kept (s : State) (home r : Nat) : Kept 0x121000000 s (State.answerGrant s home r) := by
  unfold State.answerGrant
  try dsimp only
  repeat' first
    | exact (rfl : Nat.land _ _ = _)
    | with_reducible first
      | assumption | apply Kept.refl | apply Kept.step (State.sendHub_kept ..)

theorem State.forward_kept (s : State) (a : BenchArg) (giveBack : Bool) : Kept 0x121000034 s (State.forward s a giveBack) := by
  have e24 : Nat.land 0x1000000 0x121000034 = 0x1000000 := rfl
  unfold State.forward
  try dsimp only
  repeat' first
    | exact (rfl : Nat.land _ _ = _)
    | with_reducible first
      | assumption | apply Kept.refl | apply Kept.step (State.endCommand_kept ..) | apply Kept.step (State.spanBench_kept ..)
      | apply Kept.step (State.sendHub_kept ..) | fail_if_no_progress refine Kept.madeCascade e24 ?_ | apply Kept.ite
    | dsimp only
    | split

theorem State.runGrant_kept (s : State) (a : BenchArg) : Kept 0x123000036 s (State.runGrant s a) := by
  unfold State.runGrant
  try dsimp only
  repeat' first
    | exact (rfl : Nat.land _ _ = _)
    | with_reducible first
      | assumption | apply Kept.refl | apply Kept.step (State.endCommand_kept ..) | apply Kept.step (State.takeGrant_kept ..)
      | apply Kept.step (State.forward_kept ..) | apply Kept.ite
    | dsimp only
    | split

theorem State.grantCmd_kept (s : State) : Kept 0x123000037 s (State.grantCmd s) := by
  unfold State.grantCmd
  try dsimp only
  repeat' first
    | exact (rfl : Nat.land _ _ = _)
    | (intro _; try dsimp only)
    | with_reducible first
      | assumption | apply Kept.refl | apply Kept.then (State.acceptCommand_kept (hm := ?_) (hf := ?_) ..)
      | apply Kept.step (State.runGrant_kept ..)

theorem execGrantDieMem_kept (s : State) : KeptR 0x123000037 s (execGrantDieMem s) := by
  unfold execGrantDieMem
  try dsimp only
  repeat' first
    | exact (rfl : Nat.land _ _ = _)
    | (intro _; try dsimp only)
    | with_reducible first
      | assumption | apply Kept.refl | apply KeptR.next | apply Kept.step (State.grantCmd_kept ..)
      | apply Kept.then (State.fromMgmt_kept (hm := ?_) (hf := ?_) ..)

theorem State.cutRange_kept (s : State) (o d off len : Nat) : Kept 0x3002020 s (State.cutRange s o d off len) := by
  have e25 : Nat.land 0x2000000 0x3002020 = 0x2000000 := rfl
  unfold State.cutRange
  try dsimp only
  repeat' first
    | exact (rfl : Nat.land _ _ = _)
    | (intro _; try dsimp only)
    | with_reducible first
      | assumption | apply Kept.refl | apply Kept.fold | apply Kept.step (State.dropEntries_kept ..)
      | apply Kept.step (State.modBench_kept ..) | apply Kept.step (State.setGuest_kept ..) | apply Kept.step (State.addTally_kept ..)
      | fail_if_no_progress refine Kept.madeRecovery e25 ?_ | apply Kept.ite
    | dsimp only
    | split

theorem State.endReturn_kept (s : State) : Kept 0x120008034 s (State.endReturn s) := by
  unfold State.endReturn
  try dsimp only
  repeat' first
    | exact (rfl : Nat.land _ _ = _)
    | with_reducible first
      | assumption | apply Kept.refl | apply Kept.step (State.endCommand_kept ..) | apply Kept.step (State.sendDie_kept ..)
      | apply Kept.ite
    | dsimp only
    | split

theorem State.runReturn_kept (s : State) (a : BenchArg) : Kept 0x12300a074 s (State.runReturn s a) := by
  have e6 : Nat.land 0x40 0x12300a074 = 0x40 := rfl
  unfold State.runReturn
  try dsimp only
  repeat' first
    | exact (rfl : Nat.land _ _ = _)
    | with_reducible first
      | assumption | apply Kept.refl | apply Kept.step (State.endCommand_kept ..) | apply Kept.step (State.forward_kept ..)
      | apply Kept.step (State.cutRange_kept ..) | apply Kept.step (State.endReturn_kept ..)
      | fail_if_no_progress refine Kept.madeZeroFill e6 ?_ | apply Kept.ite
    | dsimp only
    | split

theorem State.returnCmd_kept (s : State) : Kept 0x12300a077 s (State.returnCmd s) := by
  unfold State.returnCmd
  try dsimp only
  repeat' first
    | exact (rfl : Nat.land _ _ = _)
    | (intro _; try dsimp only)
    | with_reducible first
      | assumption | apply Kept.refl | apply Kept.then (State.acceptCommand_kept (hm := ?_) (hf := ?_) ..)
      | apply Kept.step (State.runReturn_kept ..)

theorem execReturnDieMem_kept (s : State) : KeptR 0x12300a077 s (execReturnDieMem s) := by
  unfold execReturnDieMem
  try dsimp only
  repeat' first
    | exact (rfl : Nat.land _ _ = _)
    | (intro _; try dsimp only)
    | with_reducible first
      | assumption | apply Kept.refl | apply KeptR.next | apply Kept.step (State.endReturn_kept ..)
      | apply Kept.step (State.returnCmd_kept ..) | apply Kept.then (State.fromMgmt_kept (hm := ?_) (hf := ?_) ..) | apply Kept.ite
      | apply KeptR.ite
    | dsimp only
    | split

theorem State.grantWaited_kept (s : State) (w : Nat × Nat × Nat × Nat × Nat × Nat) : Kept 0x123000022 s (State.grantWaited s w) := by
  have e24 : Nat.land 0x1000000 0x123000022 = 0x1000000 := rfl
  unfold State.grantWaited
  try dsimp only
  repeat' first
    | exact (rfl : Nat.land _ _ = _)
    | (intro _; try dsimp only)
    | with_reducible first
      | assumption | apply Kept.refl | apply Kept.mapGetD | apply Kept.step (State.takeGrant_kept ..)
      | apply Kept.step (State.answerGrant_kept ..) | fail_if_no_progress refine Kept.madeCascade e24 ?_ | apply Kept.ite
    | dsimp only
    | split

theorem execDieMemZeroFillDone_kept (die offset length : Nat) (s : State) : KeptR 0x123000076 s (execDieMemZeroFillDone die offset length s) := by
  have e6 : Nat.land 0x40 0x123000076 = 0x40 := rfl
  unfold execDieMemZeroFillDone
  try dsimp only
  repeat' first
    | exact (rfl : Nat.land _ _ = _)
    | (intro _; try dsimp only)
    | with_reducible first
      | assumption | apply Kept.refl | apply Kept.fold | apply KeptR.next | apply Kept.step (State.runGrant_kept ..)
      | apply Kept.step (State.grantWaited_kept ..) | fail_if_no_progress refine Kept.madeZeroFill e6 ?_ | apply Kept.ite
      | apply KeptR.ite
    | dsimp only
    | split

theorem execReattachDeadlineExpiry_kept (bench : Nat) (s : State) : KeptR 0x12304a326 s (execReattachDeadlineExpiry bench s) := by
  unfold execReattachDeadlineExpiry
  try dsimp only
  repeat' first
    | exact (rfl : Nat.land _ _ = _)
    | (intro _; try dsimp only)
    | with_reducible first
      | assumption | apply Kept.refl | apply KeptR.next | apply Kept.then (State.ownedBy_kept (hm := ?_) (hf := ?_) ..)
      | apply Kept.step (State.cancelDeadline_kept ..) | apply Kept.step (State.startSweep_kept ..) | apply Kept.ite | apply KeptR.ite
    | dsimp only
    | split

theorem execNoticeWrite_kept (bench : Nat) (s : State) : KeptR 0x24 s (execNoticeWrite bench s) := by
  unfold execNoticeWrite
  try dsimp only
  repeat' first
    | exact (rfl : Nat.land _ _ = _)
    | with_reducible first
      | assumption | apply Kept.refl | apply KeptR.next | apply Kept.step (State.modBench_kept ..)
      | apply Kept.step (State.egressNotice_kept ..) | apply Kept.ite | apply KeptR.ite
    | dsimp only
    | split

theorem State.putNoticeHead_kept (s : State) (b : Nat) (v : BitVec 32) : Kept 0x20 s (State.putNoticeHead s b v) := by
  unfold State.putNoticeHead
  try dsimp only
  repeat' first
    | exact (rfl : Nat.land _ _ = _)
    | with_reducible first
      | assumption | apply Kept.refl | apply Kept.step (State.modBench_kept ..) | apply Kept.step (State.countBench_kept ..)
      | apply Kept.ite
    | dsimp only
    | split

theorem execNoticeHeadWrite_kept (bench : Nat) (value : BitVec 32) (s : State) : KeptR 0x21 s (execNoticeHeadWrite bench value s) := by
  unfold execNoticeHeadWrite
  try dsimp only
  repeat' first
    | exact (rfl : Nat.land _ _ = _)
    | (intro _; try dsimp only)
    | with_reducible first
      | assumption | apply Kept.refl | apply KeptR.next | apply Kept.step (State.putNoticeHead_kept ..)
      | apply Kept.then (State.served_kept (hm := ?_) (hf := ?_) ..)

theorem execNoticeEnable_kept (bench : Nat) (s : State) : KeptR 0x21 s (execNoticeEnable bench s) := by
  unfold execNoticeEnable
  try dsimp only
  repeat' first
    | exact (rfl : Nat.land _ _ = _)
    | (intro _; try dsimp only)
    | with_reducible first
      | assumption | apply Kept.refl | apply KeptR.next | apply Kept.step (State.putNoticeCtrl_kept ..)
      | apply Kept.then (State.served_kept (hm := ?_) (hf := ?_) ..)

theorem execNoticeDisable_kept (bench : Nat) (s : State) : KeptR 0x21 s (execNoticeDisable bench s) := by
  unfold execNoticeDisable
  try dsimp only
  repeat' first
    | exact (rfl : Nat.land _ _ = _)
    | (intro _; try dsimp only)
    | with_reducible first
      | assumption | apply Kept.refl | apply KeptR.next | apply Kept.step (State.putNoticeCtrl_kept ..)
      | apply Kept.then (State.served_kept (hm := ?_) (hf := ?_) ..)

end Sys2Proof.Machine
end

