-- ==== Sys2Proof/Laws/Kept/Migration.lean ====
section
/-!
SUPPORT. What the operations and commands of Machine/Migration.lean keep.
-/

namespace Sys2Proof.Machine

theorem State.migEnd_kept (s : State) (result : BitVec 4) : Kept 0x4000 s (State.migEnd s result) := by
  have e14 : Nat.land 0x4000 0x4000 = 0x4000 := rfl
  unfold State.migEnd
  try dsimp only
  repeat' first
    | exact (rfl : Nat.land _ _ = _)
    | with_reducible first
      | assumption | apply Kept.refl | fail_if_no_progress refine Kept.madeMig e14 ?_

theorem State.migLeaf_kept (s : State) : Kept 0x4004 s (State.migLeaf s) := by
  have e14 : Nat.land 0x4000 0x4004 = 0x4000 := rfl
  unfold State.migLeaf
  try dsimp only
  repeat' first
    | exact (rfl : Nat.land _ _ = _)
    | with_reducible first
      | assumption | apply Kept.refl | apply Kept.step (State.mgmtWrite_kept ..) | apply Kept.step (State.migEnd_kept ..)
      | fail_if_no_progress refine Kept.madeMig e14 ?_ | apply Kept.ite
    | dsimp only
    | split

theorem State.startMig_kept (s : State) : Kept 0x4007 s (State.startMig s) := by
  have e14 : Nat.land 0x4000 0x4007 = 0x4000 := rfl
  unfold State.startMig
  try dsimp only
  repeat' first
    | exact (rfl : Nat.land _ _ = _)
    | with_reducible first
      | assumption | apply Kept.refl | apply Kept.step (State.migEnd_kept ..) | apply Kept.step (State.migLeaf_kept ..)
      | apply Kept.step (State.stir_kept ..) | apply Kept.step (State.countHub_kept ..) | fail_if_no_progress refine Kept.madeMig e14 ?_
      | apply Kept.ite
    | dsimp only
    | split

theorem execMigStart_kept (s : State) : KeptR 0x4007 s (execMigStart s) := by
  unfold execMigStart
  try dsimp only
  repeat' first
    | exact (rfl : Nat.land _ _ = _)
    | (intro _; try dsimp only)
    | with_reducible first
      | assumption | apply Kept.refl | apply KeptR.next | apply Kept.step (State.startMig_kept ..)
      | apply Kept.then (State.fromMgmt_kept (hm := ?_) (hf := ?_) ..)

theorem State.migRewrite_kept (s : State) : Kept 0x1000020 s (State.migRewrite s) := by
  unfold State.migRewrite
  try dsimp only
  repeat' first
    | exact (rfl : Nat.land _ _ = _)
    | with_reducible first
      | assumption | apply Kept.refl | apply Kept.step (State.modTable_kept ..) | apply Kept.ite
    | dsimp only
    | split

theorem State.hostBytes_kept (s : State) (b addr n : Nat) (l : List Byte) : Kept 0x4 s (State.hostBytes s b addr n l) := by
  induction n generalizing s addr l with
  | zero => exact .refl _ _
  | succ k ih =>
    unfold State.hostBytes
    exact .ite (.refl _ _) (((State.benchWrite_kept ..).mono rfl).trans (ih ..))

theorem State.migReads_kept (s : State) : Kept 0x121008000 s (State.migReads s) := by
  unfold State.migReads
  try dsimp only
  repeat' first
    | exact (rfl : Nat.land _ _ = _)
    | (intro _; try dsimp only)
    | with_reducible first
      | assumption | apply Kept.refl | apply Kept.fold | apply Kept.step (State.loadPage_kept ..)

theorem State.migWrites_kept (s : State) (data : List Byte) : Kept 0x120009004 s (State.migWrites s data) := by
  unfold State.migWrites
  try dsimp only
  repeat' first
    | exact (rfl : Nat.land _ _ = _)
    | with_reducible first
      | assumption | apply Kept.refl | apply Kept.step (State.hostBytes_kept ..) | apply Kept.step (State.loadBytes_kept ..)
      | apply Kept.ite
    | dsimp only
    | split

theorem execMigLeafCopyDone_kept (result : FetchResult) (s : State) : KeptR 0x12100f024 s (execMigLeafCopyDone result s) := by
  have e14 : Nat.land 0x4000 0x12100f024 = 0x4000 := rfl
  unfold execMigLeafCopyDone
  try dsimp only
  repeat' first
    | exact (rfl : Nat.land _ _ = _)
    | with_reducible first
      | assumption | apply Kept.refl | apply KeptR.next | apply Kept.step (State.dropEntries_kept ..)
      | apply Kept.step (State.migEnd_kept ..) | apply Kept.step (State.migRewrite_kept ..) | apply Kept.step (State.migReads_kept ..)
      | apply Kept.step (State.migWrites_kept ..) | apply Kept.step (State.charge_kept ..) | apply Kept.step (State.engineCharge_kept ..)
      | fail_if_no_progress refine Kept.madeMig e14 ?_ | apply Kept.ite | apply KeptR.ite
    | dsimp only
    | split

theorem execMigLeafDone_kept (s : State) : KeptR 0x20006024 s (execMigLeafDone s) := by
  have e14 : Nat.land 0x4000 0x20006024 = 0x4000 := rfl
  unfold execMigLeafDone
  try dsimp only
  repeat' first
    | exact (rfl : Nat.land _ _ = _)
    | with_reducible first
      | assumption | apply Kept.refl | apply KeptR.next | apply Kept.step (State.retryFaults_kept ..)
      | apply Kept.step (State.migLeaf_kept ..) | apply Kept.step (State.modBench_kept ..)
      | fail_if_no_progress refine Kept.madeMig e14 ?_ | apply Kept.ite | apply KeptR.ite
    | dsimp only
    | split

end Sys2Proof.Machine
end

