-- ==== Sys2Proof/Laws/Kept/Attach.lean ====
section
/-!
SUPPORT. What the operations and commands of Machine/Attach.lean keep.
-/

namespace Sys2Proof.Machine

theorem State.attachWrite_kept (s : State) (b : Nat) (f : State → State) {M : Nat} (hm : Nat.land 0x21 M = 0x21) (hf : ∀ s, Kept M s (f s)) :
    Kept M s (State.attachWrite s b f) := by
  unfold State.attachWrite
  try dsimp only
  repeat' first
    | exact (rfl : Nat.land _ _ = _)
    | exact land_trans (k := 0x21) rfl hm
    | with_reducible first
      | assumption | apply Kept.refl | apply Kept.then (hf ..) | apply Kept.step (State.discard_kept ..)
      | apply Kept.step (State.unstage_kept ..) | apply Kept.ite
    | dsimp only
    | split

theorem State.putToken_kept (s : State) (b part : Nat) (value : BitVec 64) : Kept 0x20 s (State.putToken s b part value) := by
  unfold State.putToken
  try dsimp only
  repeat' first
    | exact (rfl : Nat.land _ _ = _)
    | with_reducible first
      | assumption | apply Kept.refl | apply Kept.step (State.modBench_kept ..) | apply Kept.ite
    | dsimp only
    | split

theorem execAttachTokenWrite_kept (bench part : Nat) (value : BitVec 64) (s : State) : KeptR 0x21 s (execAttachTokenWrite bench part value s) := by
  unfold execAttachTokenWrite
  try dsimp only
  repeat' first
    | exact (rfl : Nat.land _ _ = _)
    | (intro _; try dsimp only)
    | with_reducible first
      | assumption | apply Kept.refl | apply KeptR.next | apply Kept.then (State.attachWrite_kept (hm := ?_) (hf := ?_) ..)
      | apply Kept.step (State.putToken_kept ..)

theorem execAttachResume_kept (bench : Nat) (epoch : BitVec 32) (s : State) : KeptR 0x1677cb227 s (execAttachResume bench epoch s) := by
  unfold execAttachResume
  try dsimp only
  repeat' first
    | exact (rfl : Nat.land _ _ = _)
    | with_reducible first
      | assumption | apply Kept.refl | apply KeptR.next | apply Kept.step (State.attachCmd_kept ..)
      | apply Kept.step (State.unstage_kept ..)

theorem execAttachClose_kept (bench : Nat) (epoch : BitVec 32) (s : State) : KeptR 0x1677cb227 s (execAttachClose bench epoch s) := by
  unfold execAttachClose
  try dsimp only
  repeat' first
    | exact (rfl : Nat.land _ _ = _)
    | with_reducible first
      | assumption | apply Kept.refl | apply KeptR.next | apply Kept.step (State.attachCmd_kept ..)
      | apply Kept.step (State.unstage_kept ..)

theorem execAttachFresh_kept (bench : Nat) (epoch : BitVec 32) (s : State) : KeptR 0x1677cb227 s (execAttachFresh bench epoch s) := by
  unfold execAttachFresh
  try dsimp only
  repeat' first
    | exact (rfl : Nat.land _ _ = _)
    | with_reducible first
      | assumption | apply Kept.refl | apply KeptR.next | apply Kept.step (State.attachCmd_kept ..)
      | apply Kept.step (State.unstage_kept ..)

theorem execAttachRefused_kept (bench mode : Nat) (epoch : BitVec 32) (s : State) : KeptR 0x1677cb227 s (execAttachRefused bench mode epoch s) := by
  unfold execAttachRefused
  try dsimp only
  repeat' first
    | exact (rfl : Nat.land _ _ = _)
    | with_reducible first
      | assumption | apply Kept.refl | apply KeptR.next | apply Kept.step (State.attachCmd_kept ..)
      | apply Kept.step (State.unstage_kept ..) | apply Kept.ite | apply KeptR.ite
    | dsimp only
    | split

theorem execPeerWindowOpen_kept (bench : Nat) (s : State) : KeptR 0x21 s (execPeerWindowOpen bench s) := by
  unfold execPeerWindowOpen
  try dsimp only
  repeat' first
    | exact (rfl : Nat.land _ _ = _)
    | (intro _; try dsimp only)
    | with_reducible first
      | assumption | apply Kept.refl | apply KeptR.next | apply Kept.step (State.modPeer_kept ..)
      | apply Kept.then (State.fromMgmt_kept (hm := ?_) (hf := ?_) ..) | apply Kept.then (State.tableServed_kept (hm := ?_) (hf := ?_) ..)

theorem execPeerWindowClose_kept (bench : Nat) (s : State) : KeptR 0x21 s (execPeerWindowClose bench s) := by
  unfold execPeerWindowClose
  try dsimp only
  repeat' first
    | exact (rfl : Nat.land _ _ = _)
    | (intro _; try dsimp only)
    | with_reducible first
      | assumption | apply Kept.refl | apply KeptR.next | apply Kept.step (State.modPeer_kept ..)
      | apply Kept.then (State.fromMgmt_kept (hm := ?_) (hf := ?_) ..) | apply Kept.then (State.tableServed_kept (hm := ?_) (hf := ?_) ..)

theorem execPeerWriteApply_kept (bench : Nat) (s : State) : KeptR 0x52800b02e s (execPeerWriteApply bench s) := by
  unfold execPeerWriteApply
  try dsimp only
  repeat' first
    | exact (rfl : Nat.land _ _ = _)
    | with_reducible first
      | assumption | apply Kept.refl | apply KeptR.next | apply Kept.step (State.applyPeer_kept ..)
    | dsimp only
    | split

theorem execPeerDroppedInterval_kept (bench cause : Nat) (s : State) : KeptR 0x24 s (execPeerDroppedInterval bench cause s) := by
  unfold execPeerDroppedInterval
  try dsimp only
  repeat' first
    | exact (rfl : Nat.land _ _ = _)
    | with_reducible first
      | assumption | apply Kept.refl | apply KeptR.next | apply Kept.step (State.modPeer_kept ..)
      | apply Kept.step (State.peerNotice_kept ..) | apply Kept.ite | apply KeptR.ite
    | dsimp only
    | split

end Sys2Proof.Machine
end

