-- ==== Sys2Proof/Laws/Kept/WhittlerOps.lean ====
section
/-!
SUPPORT. What the operations and commands of Machine/WhittlerOps.lean keep.
-/

namespace Sys2Proof.Machine

theorem State.setLocks_kept (s : State) (l : List Lock) : Kept 0x2002026 s (State.setLocks s l) := by
  have e1 : Nat.land 0x2 0x2002026 = 0x2 := rfl
  have e25 : Nat.land 0x2000000 0x2002026 = 0x2000000 := rfl
  unfold State.setLocks
  try dsimp only
  repeat' first
    | exact (rfl : Nat.land _ _ = _)
    | (intro _; try dsimp only)
    | with_reducible first
      | assumption | apply Kept.refl | apply Kept.fold | apply Kept.step (State.addDeadline_kept ..)
      | apply Kept.step (State.postAll_kept ..) | fail_if_no_progress refine Kept.madeHearthRecovery e1 e25 ?_ | apply Kept.ite
    | dsimp only
    | split

theorem State.holdLock_kept (s : State) (w : Nat) (h : LockHeld) : Kept 0x2002026 s (State.holdLock s w h) := by
  have e25 : Nat.land 0x2000000 0x2002026 = 0x2000000 := rfl
  unfold State.holdLock
  try dsimp only
  repeat' first
    | exact (rfl : Nat.land _ _ = _)
    | with_reducible first
      | assumption | apply Kept.refl | apply Kept.step (State.setLocks_kept ..) | fail_if_no_progress refine Kept.madeRecovery e25 ?_
      | apply Kept.ite
    | dsimp only
    | split

theorem State.modLocks_kept (s : State) (w : Nat) (f : Lock → Lock) : Kept 0x2002026 s (State.modLocks s w f) := by
  unfold State.modLocks
  try dsimp only
  repeat' first
    | exact (rfl : Nat.land _ _ = _)
    | with_reducible first
      | assumption | apply Kept.refl | apply Kept.step (State.setLocks_kept ..) | apply Kept.ite
    | dsimp only
    | split

theorem State.haltWhittler_kept (s : State) (w : Nat) (locks : List LockHeld) : Kept 0x6002026 s (State.haltWhittler s w locks) := by
  have e26 : Nat.land 0x4000000 0x6002026 = 0x4000000 := rfl
  unfold State.haltWhittler
  try dsimp only
  repeat' first
    | exact (rfl : Nat.land _ _ = _)
    | (intro _; try dsimp only)
    | with_reducible first
      | assumption | apply Kept.refl | apply Kept.fold | apply Kept.step (State.modWhittler_kept ..)
      | apply Kept.step (State.setLocks_kept ..) | apply Kept.step (State.holdLock_kept ..) | apply Kept.step (State.modLocks_kept ..)
      | fail_if_no_progress refine Kept.madeBg e26 ?_ | apply Kept.ite
    | dsimp only
    | split

theorem State.resumeWhittler_kept (s : State) (w : Nat) : Kept 0x2002026 s (State.resumeWhittler s w) := by
  unfold State.resumeWhittler
  try dsimp only
  repeat' first
    | exact (rfl : Nat.land _ _ = _)
    | with_reducible first
      | assumption | apply Kept.refl | apply Kept.step (State.modWhittler_kept ..) | apply Kept.step (State.modLocks_kept ..)

theorem State.fenceWhittler_kept (s : State) (w : Nat) : Kept 0x2002026 s (State.fenceWhittler s w) := by
  unfold State.fenceWhittler
  try dsimp only
  repeat' first
    | exact (rfl : Nat.land _ _ = _)
    | with_reducible first
      | assumption | apply Kept.refl | apply Kept.step (State.modWhittler_kept ..) | apply Kept.step (State.logError_kept ..)
      | apply Kept.step (State.logCause_kept ..) | apply Kept.step (State.modLocks_kept ..) | apply Kept.ite
    | dsimp only
    | split

theorem State.putDebugCtrl_kept (s : State) (v : BitVec 32) : Kept 0x12002026 s (State.putDebugCtrl s v) := by
  have e28 : Nat.land 0x10000000 0x12002026 = 0x10000000 := rfl
  unfold State.putDebugCtrl
  try dsimp only
  repeat' first
    | exact (rfl : Nat.land _ _ = _)
    | (intro _; try dsimp only)
    | with_reducible first
      | assumption | apply Kept.refl | apply Kept.fold | apply Kept.step (State.setLocks_kept ..)
      | apply Kept.step (State.resumeWhittler_kept ..) | fail_if_no_progress refine Kept.madeDebug rfl e28 ?_ | apply Kept.ite
    | dsimp only
    | split

end Sys2Proof.Machine
end

