-- ==== Sys2Proof/Laws/Kept/Background.lean ====
section
/-!
SUPPORT. What the operations and commands of Machine/Background.lean keep.
-/

namespace Sys2Proof.Machine

theorem State.recalLane_kept (s : State) (link : LinkName) (lane : Nat) (forced usable : Bool) :
    Kept 0x808000 s (State.recalLane s link lane forced usable) := by
  unfold State.recalLane
  try dsimp only
  repeat' first
    | exact (rfl : Nat.land _ _ = _)
    | with_reducible first
      | assumption | apply Kept.refl | apply Kept.step (State.modDie_kept ..) | apply Kept.step (State.modEnvan_kept ..) | apply Kept.ite
    | dsimp only
    | split

theorem execLaneRecal_kept (link : LinkName) (lane : Nat) (usable : Bool) (s : State) : KeptR 0x808000 s (execLaneRecal link lane usable s) := by
  unfold execLaneRecal
  try dsimp only
  repeat' first
    | exact (rfl : Nat.land _ _ = _)
    | with_reducible first
      | assumption | apply Kept.refl | apply KeptR.next | apply Kept.step (State.recalLane_kept ..)

theorem execRecalForce_kept (link : LinkName) (lane : Nat) (hold usable : Bool) (s : State) :
    KeptR 0x808000 s (execRecalForce link lane hold usable s) := by
  unfold execRecalForce
  try dsimp only
  repeat' first
    | exact (rfl : Nat.land _ _ = _)
    | with_reducible first
      | assumption | apply Kept.refl | apply KeptR.next | apply Kept.step (State.recalLane_kept ..) | apply Kept.ite | apply KeptR.ite
    | dsimp only
    | split

theorem State.scrubOn_kept (s : State) : Kept 0x4000000 s (State.scrubOn s) := by
  have e26 : Nat.land 0x4000000 0x4000000 = 0x4000000 := rfl
  unfold State.scrubOn
  try dsimp only
  repeat' first
    | exact (rfl : Nat.land _ _ = _)
    | with_reducible first
      | assumption | apply Kept.refl | fail_if_no_progress refine Kept.madeBg e26 ?_ | apply Kept.ite
    | dsimp only
    | split

theorem State.scrubUe_kept (s : State) : Kept 0x6000024 s (State.scrubUe s) := by
  have e25 : Nat.land 0x2000000 0x6000024 = 0x2000000 := rfl
  have e26 : Nat.land 0x4000000 0x6000024 = 0x4000000 := rfl
  unfold State.scrubUe
  try dsimp only
  repeat' first
    | exact (rfl : Nat.land _ _ = _)
    | with_reducible first
      | assumption | apply Kept.refl | apply Kept.step (State.logLedgerUe_kept ..)
      | fail_if_no_progress refine Kept.madeRecoveryBg e25 e26 ?_ | apply Kept.ite
    | dsimp only
    | split

theorem State.firmwareLost_kept (s : State) (x0 : Option Nat) : Kept 0x12304a324 s (State.firmwareLost s x0) := by
  unfold State.firmwareLost
  try dsimp only
  repeat' first
    | exact (rfl : Nat.land _ _ = _)
    | with_reducible first
      | assumption | apply Kept.refl | apply Kept.step (State.addFault_kept ..) | apply Kept.step (State.startSweep_kept ..)
    | dsimp only
    | split

theorem execScrubBlock_kept (find : ScrubFind) (s : State) : KeptR 0x12704a324 s (execScrubBlock find s) := by
  have e26 : Nat.land 0x4000000 0x12704a324 = 0x4000000 := rfl
  unfold execScrubBlock
  try dsimp only
  repeat' first
    | exact (rfl : Nat.land _ _ = _)
    | with_reducible first
      | assumption | apply Kept.refl | apply KeptR.next | apply Kept.step (State.scrubOn_kept ..)
      | apply Kept.step (State.scrubUe_kept ..) | apply Kept.step (State.firmwareLost_kept ..)
      | fail_if_no_progress refine Kept.madeBg e26 ?_ | apply Kept.ite | apply KeptR.ite
    | dsimp only
    | split

theorem execScrubPassStart_kept (s : State) : KeptR 0x4000000 s (execScrubPassStart s) := by
  have e26 : Nat.land 0x4000000 0x4000000 = 0x4000000 := rfl
  unfold execScrubPassStart
  try dsimp only
  repeat' first
    | exact (rfl : Nat.land _ _ = _)
    | with_reducible first
      | assumption | apply Kept.refl | apply KeptR.next | fail_if_no_progress refine Kept.madeBg e26 ?_ | apply Kept.ite | apply KeptR.ite
    | dsimp only
    | split

theorem execDieScrubRequest_kept (die : Nat) (s : State) : KeptR 0x120009000 s (execDieScrubRequest die s) := by
  unfold execDieScrubRequest
  try dsimp only
  repeat' first
    | exact (rfl : Nat.land _ _ = _)
    | with_reducible first
      | assumption | apply Kept.refl | apply KeptR.next | apply Kept.step (State.modDie_kept ..) | apply Kept.step (State.askDie_kept ..)
      | apply Kept.ite | apply KeptR.ite
    | dsimp only
    | split

theorem execDieScrubAck_kept (die : Nat) (s : State) : KeptR 0x120009000 s (execDieScrubAck die s) := by
  unfold execDieScrubAck
  try dsimp only
  repeat' first
    | exact (rfl : Nat.land _ _ = _)
    | with_reducible first
      | assumption | apply Kept.refl | apply KeptR.next | apply Kept.step (State.modDie_kept ..)
      | apply Kept.step (State.pumpPort_kept ..) | apply Kept.ite | apply KeptR.ite
    | dsimp only
    | split

theorem execTelemetrySnapshot_kept (s : State) : KeptR 0x4000004 s (execTelemetrySnapshot s) := by
  have e26 : Nat.land 0x4000000 0x4000004 = 0x4000000 := rfl
  unfold execTelemetrySnapshot
  try dsimp only
  repeat' first
    | exact (rfl : Nat.land _ _ = _)
    | with_reducible first
      | assumption | apply Kept.refl | apply KeptR.next | apply Kept.step (State.egress_kept ..)
      | fail_if_no_progress refine Kept.madeBg e26 ?_ | apply Kept.ite | apply KeptR.ite
    | dsimp only
    | split

theorem State.rehome_kept (s : State) (p : CacheEntry) : Kept 0x2000 s (State.rehome s p) := by
  have e13 : Nat.land 0x2000 0x2000 = 0x2000 := rfl
  unfold State.rehome
  try dsimp only
  repeat' first
    | exact (rfl : Nat.land _ _ = _)
    | with_reducible first
      | assumption | apply Kept.refl | fail_if_no_progress refine Kept.madeHeadstock e13 ?_ | apply Kept.ite
    | dsimp only
    | split

theorem State.quarantine_kept (s : State) (w : Nat) : Kept 0x2000 s (State.quarantine s w) := by
  have e13 : Nat.land 0x2000 0x2000 = 0x2000 := rfl
  unfold State.quarantine
  try dsimp only
  repeat' first
    | exact (rfl : Nat.land _ _ = _)
    | (intro _; try dsimp only)
    | with_reducible first
      | assumption | apply Kept.refl | apply Kept.fold | apply Kept.step (State.rehome_kept ..)
      | fail_if_no_progress refine Kept.madeHeadstock e13 ?_

theorem State.markTest_kept (s : State) (part : TestUnit) (on : Bool) : Kept 0x2600200 s (State.markTest s part on) := by
  unfold State.markTest
  try dsimp only
  repeat' first
    | exact (rfl : Nat.land _ _ = _)
    | with_reducible first
      | assumption | apply Kept.refl | apply Kept.step (State.modEngine_kept ..) | apply Kept.step (State.modLathe_kept ..)
      | apply Kept.step (State.modWhittler_kept ..)
    | dsimp only
    | split

theorem execSelftestStart_kept (part : TestUnit) (s : State) : KeptR 0x6602200 s (execSelftestStart part s) := by
  have e13 : Nat.land 0x2000 0x6602200 = 0x2000 := rfl
  have e26 : Nat.land 0x4000000 0x6602200 = 0x4000000 := rfl
  unfold execSelftestStart
  try dsimp only
  repeat' first
    | exact (rfl : Nat.land _ _ = _)
    | with_reducible first
      | assumption | apply Kept.refl | apply KeptR.next | apply Kept.step (State.quarantine_kept ..)
      | apply Kept.step (State.markTest_kept ..) | fail_if_no_progress refine Kept.madeBg e26 ?_
      | fail_if_no_progress refine Kept.madeHeadstock e13 ?_ | apply Kept.ite | apply KeptR.ite
    | dsimp only
    | split

theorem State.endTest_kept (s : State) (part : TestUnit) : Kept 0x6600200 s (State.endTest s part) := by
  have e26 : Nat.land 0x4000000 0x6600200 = 0x4000000 := rfl
  unfold State.endTest
  try dsimp only
  repeat' first
    | exact (rfl : Nat.land _ _ = _)
    | with_reducible first
      | assumption | apply Kept.refl | apply Kept.step (State.markTest_kept ..) | fail_if_no_progress refine Kept.madeBg e26 ?_

theorem State.stampTest_kept (s : State) (part : TestUnit) : Kept 0x4000000 s (State.stampTest s part) := by
  have e26 : Nat.land 0x4000000 0x4000000 = 0x4000000 := rfl
  unfold State.stampTest
  try dsimp only
  repeat' first
    | exact (rfl : Nat.land _ _ = _)
    | with_reducible first
      | assumption | apply Kept.refl | fail_if_no_progress refine Kept.madeBg e26 ?_

theorem execSelftestDone_kept (part : TestUnit) (ok : Bool) (s : State) : KeptR 0x6602226 s (execSelftestDone part ok s) := by
  have e13 : Nat.land 0x2000 0x6602226 = 0x2000 := rfl
  unfold execSelftestDone
  try dsimp only
  repeat' first
    | exact (rfl : Nat.land _ _ = _)
    | with_reducible first
      | assumption | apply Kept.refl | apply KeptR.next | apply Kept.step (State.endTest_kept ..)
      | apply Kept.step (State.stampTest_kept ..) | apply Kept.step (State.modEngine_kept ..) | apply Kept.step (State.fenceLathe_kept ..)
      | apply Kept.step (State.fenceWhittler_kept ..) | fail_if_no_progress refine Kept.madeHeadstock e13 ?_ | apply Kept.ite
      | apply KeptR.ite
    | dsimp only
    | split

theorem execSelftestOverdue_kept (part : TestUnit) (s : State) : KeptR 0x4000000 s (execSelftestOverdue part s) := by
  have e26 : Nat.land 0x4000000 0x4000000 = 0x4000000 := rfl
  unfold execSelftestOverdue
  try dsimp only
  repeat' first
    | exact (rfl : Nat.land _ _ = _)
    | with_reducible first
      | assumption | apply Kept.refl | apply KeptR.next | apply Kept.step (State.stampTest_kept ..)
      | fail_if_no_progress refine Kept.madeBg e26 ?_ | apply Kept.ite | apply KeptR.ite
    | dsimp only
    | split

end Sys2Proof.Machine
end

