-- ==== Sys2Proof/Laws/Kept/Lathes.lean ====
section
/-!
SUPPORT. What the operations and commands of Machine/Lathes.lean keep.
-/

namespace Sys2Proof.Machine

theorem execChannelTakeup_kept (clusterB : Bool) (s : State) : KeptR 0x6001220 s (execChannelTakeup clusterB s) := by
  unfold execChannelTakeup
  try dsimp only
  repeat' first
    | exact (rfl : Nat.land _ _ = _)
    | with_reducible first
      | assumption | apply Kept.refl | apply KeptR.next | apply Kept.step (State.takeChannel_kept ..)
      | apply Kept.step (State.modBench_kept ..) | apply Kept.step (State.arbitrate_kept ..)
      | apply Kept.step (Kept.pair (by assumption) (State.arbitrate_kept ..)) | apply Kept.step (State.charge_kept ..) | apply Kept.ite
      | apply KeptR.ite
    | dsimp only
    | split

theorem execBurstGrant_kept (lathe : Nat) (s : State) : KeptR 0x16300b224 s (execBurstGrant lathe s) := by
  unfold execBurstGrant
  try dsimp only
  repeat' first
    | exact (rfl : Nat.land _ _ = _)
    | with_reducible first
      | assumption | apply Kept.refl | apply KeptR.next | apply Kept.step (State.attendLathe_kept ..)
      | apply Kept.step (Kept.pair (by assumption) (State.attendLathe_kept ..)) | apply Kept.step (State.grantBurst_kept ..)
      | apply Kept.step (State.arbitrate_kept ..) | apply Kept.step (Kept.pair (by assumption) (State.arbitrate_kept ..)) | apply Kept.ite
      | apply KeptR.ite
    | dsimp only
    | split

theorem execReservationStart_kept (bench ring : Nat) (s : State) : KeptR 0x200 s (execReservationStart bench ring s) := by
  unfold execReservationStart
  try dsimp only
  repeat' first
    | exact (rfl : Nat.land _ _ = _)
    | with_reducible first
      | assumption | apply Kept.refl | apply KeptR.next | apply Kept.step (State.modLathe_kept ..) | apply Kept.ite | apply KeptR.ite
    | dsimp only
    | split

theorem State.strayResponse_kept (s : State) (l : Nat) : Kept 0x123008224 s (State.strayResponse s l) := by
  unfold State.strayResponse
  try dsimp only
  repeat' first
    | exact (rfl : Nat.land _ _ = _)
    | with_reducible first
      | assumption | apply Kept.refl | apply Kept.step (State.haltLathe_kept ..) | apply Kept.ite
    | dsimp only
    | split

theorem execReadDataReturn_kept (lathe slot : Nat) (status : MemStatus) (data : List Byte) (s : State) :
    KeptR 0x16300d224 s (execReadDataReturn lathe slot status data s) := by
  unfold execReadDataReturn
  try dsimp only
  repeat' first
    | exact (rfl : Nat.land _ _ = _)
    | (intro _; try dsimp only)
    | with_reducible first
      | assumption | apply Kept.refl | apply KeptR.next | apply Kept.mapGetD | apply Kept.step (State.deliver_kept ..)
      | apply Kept.step (State.failRead_kept ..) | apply Kept.step (State.strayResponse_kept ..)
      | apply Kept.step (State.countPerf_kept ..) | apply Kept.step (State.hubIn_kept ..) | apply Kept.step (State.logLedgerUe_kept ..)
      | apply Kept.step (State.logLoad_kept ..) | apply Kept.ite | apply KeptR.ite
    | dsimp only
    | split

theorem execWriteAck_kept (lathe slot : Nat) (status : MemStatus) (s : State) : KeptR 0xd6b09f226 s (execWriteAck lathe slot status s) := by
  unfold execWriteAck
  try dsimp only
  repeat' first
    | exact (rfl : Nat.land _ _ = _)
    | with_reducible first
      | assumption | apply Kept.refl | apply KeptR.next | apply Kept.step (State.replayNext_kept ..)
      | apply Kept.step (State.putAcked_kept ..) | apply Kept.step (State.frameAcked_kept ..) | apply Kept.step (State.loadAcked_kept ..) | apply Kept.step (State.ackWrite_kept ..)
      | apply Kept.step (State.strayResponse_kept ..) | apply Kept.step (State.modDie_kept ..) | apply Kept.step (State.portDone_kept ..)
      | apply Kept.ite | apply KeptR.ite
    | dsimp only
    | split

theorem execTriggerFire_kept (bench ring : Nat) (s : State) : KeptR 0x20 s (execTriggerFire bench ring s) := by
  unfold execTriggerFire
  try dsimp only
  repeat' first
    | exact (rfl : Nat.land _ _ = _)
    | with_reducible first
      | assumption | apply Kept.refl | apply KeptR.next | apply Kept.step (State.fireDesc_kept ..)
    | dsimp only
    | split

theorem execPaceTimerExpiry_kept (clusterB : Bool) (timer : Nat) (s : State) : KeptR 0x820 s (execPaceTimerExpiry clusterB timer s) := by
  unfold execPaceTimerExpiry
  try dsimp only
  repeat' first
    | exact (rfl : Nat.land _ _ = _)
    | with_reducible first
      | assumption | apply Kept.refl | apply KeptR.next | apply Kept.step (State.firing_kept ..)
      | apply Kept.step (State.modPaceTimer_kept ..) | apply Kept.ite | apply KeptR.ite
    | dsimp only
    | split

theorem execPacingYield_kept (bench ring : Nat) (s : State) : KeptR 0x2000224 s (execPacingYield bench ring s) := by
  unfold execPacingYield
  try dsimp only
  repeat' first
    | exact (rfl : Nat.land _ _ = _)
    | (intro _; try dsimp only)
    | with_reducible first
      | assumption | apply Kept.refl | apply KeptR.next | apply Kept.mapGetD | apply Kept.step (State.giveUp_kept ..) | apply Kept.ite
      | apply KeptR.ite
    | dsimp only
    | split

theorem State.claimFail_kept (s : State) (b : Nat) : Kept 0x20 s (State.claimFail s b) := by
  unfold State.claimFail
  try dsimp only
  repeat' first
    | exact (rfl : Nat.land _ _ = _)
    | with_reducible first
      | assumption | apply Kept.refl | apply Kept.step (State.modBench_kept ..)

theorem State.claimLine_kept (s : State) (bench line : Nat) : Kept 0x2000420 s (State.claimLine s bench line) := by
  unfold State.claimLine
  try dsimp only
  repeat' first
    | exact (rfl : Nat.land _ _ = _)
    | with_reducible first
      | assumption | apply Kept.refl | apply Kept.step (State.takeLine_kept ..) | apply Kept.step (State.claimFail_kept ..)
      | apply Kept.ite
    | dsimp only
    | split

theorem execEventClaim_kept (bench line : Nat) (s : State) : KeptR 0x2000421 s (execEventClaim bench line s) := by
  unfold execEventClaim
  try dsimp only
  repeat' first
    | exact (rfl : Nat.land _ _ = _)
    | (intro _; try dsimp only)
    | with_reducible first
      | assumption | apply Kept.refl | apply KeptR.next | apply Kept.step (State.claimLine_kept ..)
      | apply Kept.then (State.served_kept (hm := ?_) (hf := ?_) ..)

theorem State.releaseLine_kept (s : State) (bench line : Nat) : Kept 0x2000624 s (State.releaseLine s bench line) := by
  unfold State.releaseLine
  try dsimp only
  repeat' first
    | exact (rfl : Nat.land _ _ = _)
    | with_reducible first
      | assumption | apply Kept.refl | apply Kept.step (State.endDependents_kept ..) | apply Kept.step (State.dropLine_kept ..)
      | apply Kept.step (State.claimFail_kept ..) | apply Kept.ite
    | dsimp only
    | split

theorem execEventRelease_kept (bench line : Nat) (s : State) : KeptR 0x2000625 s (execEventRelease bench line s) := by
  unfold execEventRelease
  try dsimp only
  repeat' first
    | exact (rfl : Nat.land _ _ = _)
    | (intro _; try dsimp only)
    | with_reducible first
      | assumption | apply Kept.refl | apply KeptR.next | apply Kept.step (State.releaseLine_kept ..)
      | apply Kept.then (State.served_kept (hm := ?_) (hf := ?_) ..)

theorem State.claimPace_kept (s : State) (bench slot timer : Nat) (clusterB : Bool) :
    Kept 0x2000820 s (State.claimPace s bench slot timer clusterB) := by
  unfold State.claimPace
  try dsimp only
  repeat' first
    | exact (rfl : Nat.land _ _ = _)
    | with_reducible first
      | assumption | apply Kept.refl | apply Kept.step (State.modPaceSlot_kept ..) | apply Kept.step (State.claimFail_kept ..)
      | apply Kept.step (State.modPaceTimer_kept ..) | apply Kept.step (State.countBench_kept ..)
      | apply Kept.step (State.addTally_kept ..) | apply Kept.ite
    | dsimp only
    | split

theorem execPaceClaim_kept (bench slot timer : Nat) (clusterB : Bool) (s : State) :
    KeptR 0x2000821 s (execPaceClaim bench slot timer clusterB s) := by
  unfold execPaceClaim
  try dsimp only
  repeat' first
    | exact (rfl : Nat.land _ _ = _)
    | (intro _; try dsimp only)
    | with_reducible first
      | assumption | apply Kept.refl | apply KeptR.next | apply Kept.step (State.claimPace_kept ..)
      | apply Kept.then (State.served_kept (hm := ?_) (hf := ?_) ..)

theorem State.releasePace_kept (s : State) (bench slot : Nat) : Kept 0x2000a24 s (State.releasePace s bench slot) := by
  unfold State.releasePace
  try dsimp only
  repeat' first
    | exact (rfl : Nat.land _ _ = _)
    | with_reducible first
      | assumption | apply Kept.refl | apply Kept.step (State.endDependents_kept ..) | apply Kept.step (State.dropTimer_kept ..)
      | apply Kept.step (State.claimFail_kept ..) | apply Kept.ite
    | dsimp only
    | split

theorem execPaceRelease_kept (bench slot : Nat) (s : State) : KeptR 0x2000a25 s (execPaceRelease bench slot s) := by
  unfold execPaceRelease
  try dsimp only
  repeat' first
    | exact (rfl : Nat.land _ _ = _)
    | (intro _; try dsimp only)
    | with_reducible first
      | assumption | apply Kept.refl | apply KeptR.next | apply Kept.step (State.releasePace_kept ..)
      | apply Kept.then (State.served_kept (hm := ?_) (hf := ?_) ..)

theorem State.armPace_kept (s : State) (bench slot : Nat) : Kept 0x822 s (State.armPace s bench slot) := by
  unfold State.armPace
  try dsimp only
  repeat' first
    | exact (rfl : Nat.land _ _ = _)
    | with_reducible first
      | assumption | apply Kept.refl | apply Kept.step (State.modPaceSlot_kept ..) | apply Kept.step (State.rouse_kept ..)
      | apply Kept.step (State.modPaceTimer_kept ..) | apply Kept.step (State.countBench_kept ..) | apply Kept.ite
    | dsimp only
    | split

theorem execPaceArm_kept (bench slot : Nat) (s : State) : KeptR 0x823 s (execPaceArm bench slot s) := by
  unfold execPaceArm
  try dsimp only
  repeat' first
    | exact (rfl : Nat.land _ _ = _)
    | (intro _; try dsimp only)
    | with_reducible first
      | assumption | apply Kept.refl | apply KeptR.next | apply Kept.step (State.armPace_kept ..)
      | apply Kept.then (State.served_kept (hm := ?_) (hf := ?_) ..)

theorem State.disarmPace_kept (s : State) (bench slot : Nat) : Kept 0x820 s (State.disarmPace s bench slot) := by
  unfold State.disarmPace
  try dsimp only
  repeat' first
    | exact (rfl : Nat.land _ _ = _)
    | with_reducible first
      | assumption | apply Kept.refl | apply Kept.step (State.modPaceSlot_kept ..) | apply Kept.step (State.modPaceTimer_kept ..)
      | apply Kept.ite
    | dsimp only
    | split

theorem execPaceDisarm_kept (bench slot : Nat) (s : State) : KeptR 0x821 s (execPaceDisarm bench slot s) := by
  unfold execPaceDisarm
  try dsimp only
  repeat' first
    | exact (rfl : Nat.land _ _ = _)
    | (intro _; try dsimp only)
    | with_reducible first
      | assumption | apply Kept.refl | apply KeptR.next | apply Kept.step (State.disarmPace_kept ..)
      | apply Kept.then (State.served_kept (hm := ?_) (hf := ?_) ..)

theorem execLatheBusError_kept (lathe : Nat) (tag : Option (BitVec 16)) (s : State) : KeptR 0x123008224 s (execLatheBusError lathe tag s) := by
  unfold execLatheBusError
  try dsimp only
  repeat' first
    | exact (rfl : Nat.land _ _ = _)
    | with_reducible first
      | assumption | apply Kept.refl | apply KeptR.next | apply Kept.step (State.haltLathe_kept ..) | apply Kept.ite | apply KeptR.ite
    | dsimp only
    | split

theorem execHaltReplayResponse_kept (lathe : Nat) (reproduces : Bool) (s : State) :
    KeptR 0x121008200 s (execHaltReplayResponse lathe reproduces s) := by
  unfold execHaltReplayResponse
  try dsimp only
  repeat' first
    | exact (rfl : Nat.land _ _ = _)
    | with_reducible first
      | assumption | apply Kept.refl | apply KeptR.next | apply Kept.step (State.replayed_kept ..)

theorem execHaltReplayTimeout_kept (lathe : Nat) (s : State) : KeptR 0x121008200 s (execHaltReplayTimeout lathe s) := by
  unfold execHaltReplayTimeout
  try dsimp only
  repeat' first
    | exact (rfl : Nat.land _ _ = _)
    | with_reducible first
      | assumption | apply Kept.refl | apply KeptR.next | apply Kept.step (State.replayed_kept ..)

theorem execHaltIsolationDone_kept (lathe : Nat) (s : State) : KeptR 0x163009224 s (execHaltIsolationDone lathe s) := by
  unfold execHaltIsolationDone
  try dsimp only
  repeat' first
    | exact (rfl : Nat.land _ _ = _)
    | (intro _; try dsimp only)
    | with_reducible first
      | assumption | apply Kept.refl | apply Kept.fold | apply KeptR.next | apply Kept.step (State.endCulprit_kept ..)
      | apply Kept.step (State.resumeInnocent_kept ..) | apply Kept.step (State.unattributedHalt_kept ..)
      | apply Kept.step (State.pumpLathe_kept ..) | apply Kept.step (State.modLathe_kept ..) | apply Kept.ite | apply KeptR.ite
    | dsimp only
    | split

end Sys2Proof.Machine
end

