-- ==== Sys2Proof/Laws/Kept/Placements.lean ====
section
/-!
SUPPORT. What the operations and commands of Machine/Placements.lean keep.
-/

namespace Sys2Proof.Machine

theorem execLaunch_kept (bench ring : Nat) (s : State) : KeptR 0x2080226 s (execLaunch bench ring s) := by
  have e19 : Nat.land 0x80000 0x2080226 = 0x80000 := rfl
  unfold execLaunch
  try dsimp only
  repeat' first
    | exact (rfl : Nat.land _ _ = _)
    | with_reducible first
      | assumption | apply Kept.refl | apply KeptR.next | apply Kept.step (State.endPlain_kept ..)
      | apply Kept.step (State.begin_kept (e := by assumption) ..) | apply Kept.step (State.stir_kept ..)
      | apply Kept.step (State.addTally_kept ..) | apply Kept.step (State.giveUp_kept ..)
      | fail_if_no_progress refine Kept.madeLaunches e19 ?_ | apply Kept.ite | apply KeptR.ite
    | dsimp only
    | split

theorem State.checkLaunch_kept (s : State) (l : Launch) (d : Desc) (y p : List Byte) : Kept 0x1232c2222 s (State.checkLaunch s l d y p) := by
  have e18 : Nat.land 0x40000 0x1232c2222 = 0x40000 := rfl
  have e19 : Nat.land 0x80000 0x1232c2222 = 0x80000 := rfl
  unfold State.checkLaunch
  try dsimp only
  repeat' first
    | exact (rfl : Nat.land _ _ = _)
    | (intro _; try dsimp only)
    | with_reducible first
      | assumption | apply Kept.refl | apply Kept.mapGetD | apply Kept.step (State.rouse_kept ..)
      | apply Kept.step (State.pinRanges_kept ..) | apply Kept.step (Kept.pair (by assumption) (State.pinRanges_kept ..))
      | apply Kept.step (State.failLaunch_kept ..) | fail_if_no_progress refine Kept.madePlacementsLaunches e18 e19 ?_ | apply Kept.ite
    | dsimp only
    | split

theorem execLaunchStageDone_kept (bench ring : Nat) (result : LoadResult) (s : State) :
    KeptR 0x1232cb226 s (execLaunchStageDone bench ring result s) := by
  unfold execLaunchStageDone
  try dsimp only
  repeat' first
    | exact (rfl : Nat.land _ _ = _)
    | with_reducible first
      | assumption | apply Kept.refl | apply KeptR.next | apply Kept.step (State.meetObstacle_kept ..)
      | apply Kept.step (State.load_kept (e := by assumption) ..) | apply Kept.step (State.logLoad_kept ..)
      | apply Kept.step (State.engineCharge_kept ..) | apply Kept.step (State.failLaunch_kept ..)
      | apply Kept.step (State.checkLaunch_kept ..) | apply Kept.ite | apply KeptR.ite
    | dsimp only
    | split

theorem execLaunchPlaceStart_kept (bench ring : Nat) (free : List (Nat × Nat)) (s : State) :
    KeptR 0x1272c0220 s (execLaunchPlaceStart bench ring free s) := by
  have e21 : Nat.land 0x200000 0x1272c0220 = 0x200000 := rfl
  have e26 : Nat.land 0x4000000 0x1272c0220 = 0x4000000 := rfl
  unfold execLaunchPlaceStart
  try dsimp only
  repeat' first
    | exact (rfl : Nat.land _ _ = _)
    | (intro _; try dsimp only)
    | with_reducible first
      | assumption | apply Kept.refl | apply Kept.fold | apply KeptR.next | apply Kept.step (State.sendHub_kept ..)
      | apply Kept.step (State.modLaunch_kept ..) | apply Kept.step (State.failLaunch_kept ..)
      | fail_if_no_progress refine Kept.madeDenseBg e21 e26 ?_ | apply Kept.ite | apply KeptR.ite
    | dsimp only
    | split

theorem execPlacementDone_kept (bench ring : Nat) (bands : List (Nat × Nat × Nat × Nat × Nat)) (failure : Option (Nat × Nat × Nat)) (s : State) :
    KeptR 0x1277c9222 s (execPlacementDone bench ring bands failure s) := by
  have e21 : Nat.land 0x200000 0x1277c9222 = 0x200000 := rfl
  unfold execPlacementDone
  try dsimp only
  repeat' first
    | exact (rfl : Nat.land _ _ = _)
    | (intro _; try dsimp only)
    | with_reducible first
      | assumption | apply Kept.refl | apply Kept.fold | apply KeptR.next | apply Kept.step (State.nextJob_kept ..)
      | apply Kept.step (State.modPlacement_kept ..) | apply Kept.step (State.stir_kept ..) | apply Kept.step (State.sendHub_kept ..)
      | apply Kept.step (State.tallyXlt_kept ..) | apply Kept.step (State.loadCore_kept ..) | apply Kept.step (State.engineCharge_kept ..) | apply Kept.step (State.modLaunch_kept ..)
      | apply Kept.step (State.failLaunch_kept ..) | fail_if_no_progress refine Kept.madeDense e21 ?_ | apply Kept.ite | apply KeptR.ite
    | dsimp only
    | split

theorem execLaunchLoadDone_kept (bench ring : Nat) (s : State) : KeptR 0x121080000 s (execLaunchLoadDone bench ring s) := by
  unfold execLaunchLoadDone
  try dsimp only
  repeat' first
    | exact (rfl : Nat.land _ _ = _)
    | (intro _; try dsimp only)
    | with_reducible first
      | assumption | apply Kept.refl | apply Kept.fold | apply KeptR.next | apply Kept.step (State.sendHub_kept ..)
      | apply Kept.step (State.modLaunch_kept ..) | apply Kept.ite | apply KeptR.ite
    | dsimp only
    | split

theorem State.startPlacement_kept (s : State) (p : Placement) (held : Bool) : Kept 0x120048000 s (State.startPlacement s p held) := by
  unfold State.startPlacement
  try dsimp only
  repeat' first
    | exact (rfl : Nat.land _ _ = _)
    | (intro _; try dsimp only)
    | with_reducible first
      | assumption | apply Kept.refl | apply Kept.fold | apply Kept.step (State.modPlacement_kept ..)
      | apply Kept.step (State.sendDie_kept ..) | apply Kept.ite
    | dsimp only
    | split

theorem execLaunchStartTime_kept (bench ring : Nat) (s : State) : KeptR 0x1222c8220 s (execLaunchStartTime bench ring s) := by
  unfold execLaunchStartTime
  try dsimp only
  repeat' first
    | exact (rfl : Nat.land _ _ = _)
    | (intro _; try dsimp only)
    | with_reducible first
      | assumption | apply Kept.refl | apply KeptR.next | apply Kept.mapGetD | apply Kept.step (State.freeLaunch_kept ..)
      | apply Kept.step (State.startPlacement_kept ..) | apply Kept.step (State.endDesc_kept ..) | apply Kept.ite | apply KeptR.ite
    | dsimp only
    | split

theorem State.putPlaceRelease_kept (s : State) (bench number : Nat) : Kept 0x121048020 s (State.putPlaceRelease s bench number) := by
  unfold State.putPlaceRelease
  try dsimp only
  repeat' first
    | exact (rfl : Nat.land _ _ = _)
    | (intro _; try dsimp only)
    | with_reducible first
      | assumption | apply Kept.refl | apply Kept.mapGetD | apply Kept.step (State.countBench_kept ..)
      | apply Kept.step (State.releasePlacement_kept ..) | apply Kept.ite
    | dsimp only
    | split

theorem execPlaceRelease_kept (bench number : Nat) (s : State) : KeptR 0x121048021 s (execPlaceRelease bench number s) := by
  unfold execPlaceRelease
  try dsimp only
  repeat' first
    | exact (rfl : Nat.land _ _ = _)
    | (intro _; try dsimp only)
    | with_reducible first
      | assumption | apply Kept.refl | apply KeptR.next | apply Kept.step (State.putPlaceRelease_kept ..)
      | apply Kept.then (State.served_kept (hm := ?_) (hf := ?_) ..)

theorem execPlaceReleaseDone_kept (home bench number : Nat) (s : State) : KeptR 0x2040020 s (execPlaceReleaseDone home bench number s) := by
  unfold execPlaceReleaseDone
  try dsimp only
  repeat' first
    | exact (rfl : Nat.land _ _ = _)
    | with_reducible first
      | assumption | apply Kept.refl | apply KeptR.next | apply Kept.step (State.modBench_kept ..)
      | apply Kept.step (State.dropPlacement_kept ..) | apply Kept.ite | apply KeptR.ite
    | dsimp only
    | split

theorem execLateSet_kept (die core : Nat) (s : State) : KeptR 0x123048024 s (execLateSet die core s) := by
  unfold execLateSet
  try dsimp only
  repeat' first
    | exact (rfl : Nat.land _ _ = _)
    | with_reducible first
      | assumption | apply Kept.refl | apply KeptR.next | apply Kept.step (State.sendHub_kept ..)
      | apply Kept.step (State.logError_kept ..) | apply Kept.step (State.trace_kept ..) | apply Kept.step (State.freezeAll_kept ..)
      | apply Kept.step (State.lateHere_kept ..) | apply Kept.ite | apply KeptR.ite
    | dsimp only
    | split

theorem execLateClear_kept (die core : Nat) (s : State) : KeptR 0x123040024 s (execLateClear die core s) := by
  unfold execLateClear
  try dsimp only
  repeat' first
    | exact (rfl : Nat.land _ _ = _)
    | with_reducible first
      | assumption | apply Kept.refl | apply KeptR.next | apply Kept.step (State.modPlacement_kept ..)
      | apply Kept.step (State.sendHub_kept ..) | apply Kept.step (State.logError_kept ..) | apply Kept.step (State.tryRelease_kept ..)
      | apply Kept.ite | apply KeptR.ite
    | dsimp only
    | split

theorem execHoldForward_kept (home bench number : Nat) (incarn : BitVec 16) (s : State) :
    KeptR 0x121048000 s (execHoldForward home bench number incarn s) := by
  unfold execHoldForward
  try dsimp only
  repeat' first
    | exact (rfl : Nat.land _ _ = _)
    | with_reducible first
      | assumption | apply Kept.refl | apply KeptR.next | apply Kept.step (State.staleMessage_kept ..)
      | apply Kept.step (State.freezeHere_kept ..) | apply Kept.ite | apply KeptR.ite
    | dsimp only
    | split

theorem execLateReport_kept (hub bench number die core : Nat) (set : Bool) (incarn : BitVec 16) (s : State) :
    KeptR 0x121048024 s (execLateReport hub bench number die core set incarn s) := by
  unfold execLateReport
  try dsimp only
  repeat' first
    | exact (rfl : Nat.land _ _ = _)
    | with_reducible first
      | assumption | apply Kept.refl | apply KeptR.next | apply Kept.step (State.staleMessage_kept ..)
      | apply Kept.step (State.modPlacement_kept ..) | apply Kept.step (State.trace_kept ..) | apply Kept.step (State.freezeHere_kept ..)
      | apply Kept.step (State.tryRelease_kept ..) | apply Kept.step (State.lateHere_kept ..) | apply Kept.ite | apply KeptR.ite
    | dsimp only
    | split

theorem execReleaseMessage_kept (home bench number : Nat) (incarn : BitVec 16) (time : BitVec 64) (s : State) :
    KeptR 0x1040000 s (execReleaseMessage home bench number incarn time s) := by
  unfold execReleaseMessage
  try dsimp only
  repeat' first
    | exact (rfl : Nat.land _ _ = _)
    | with_reducible first
      | assumption | apply Kept.refl | apply KeptR.next | apply Kept.step (State.staleMessage_kept ..)
      | apply Kept.step (State.modPlacement_kept ..) | apply Kept.ite | apply KeptR.ite
    | dsimp only
    | split

theorem State.applyRelease_kept (s : State) (p : Placement) (t : BitVec 64) : Kept 0x120048024 s (State.applyRelease s p t) := by
  unfold State.applyRelease
  try dsimp only
  repeat' first
    | exact (rfl : Nat.land _ _ = _)
    | (intro _; try dsimp only)
    | with_reducible first
      | assumption | apply Kept.refl | apply Kept.fold | apply Kept.mapGetD | apply Kept.step (State.modPlacement_kept ..)
      | apply Kept.step (State.sendDie_kept ..) | apply Kept.step (State.trace_kept ..) | apply Kept.step (State.startPlacement_kept ..)
      | apply Kept.ite
    | dsimp only
    | split

theorem execReleaseTime_kept (home bench number : Nat) (s : State) : KeptR 0x120048024 s (execReleaseTime home bench number s) := by
  unfold execReleaseTime
  try dsimp only
  repeat' first
    | exact (rfl : Nat.land _ _ = _)
    | with_reducible first
      | assumption | apply Kept.refl | apply KeptR.next | apply Kept.step (State.applyRelease_kept ..) | apply Kept.ite | apply KeptR.ite
    | dsimp only
    | split

theorem execHoldLong_kept (bench placement : Nat) (s : State) : KeptR 0x40024 s (execHoldLong bench placement s) := by
  unfold execHoldLong
  try dsimp only
  repeat' first
    | exact (rfl : Nat.land _ _ = _)
    | with_reducible first
      | assumption | apply Kept.refl | apply KeptR.next | apply Kept.step (State.modPlacement_kept ..)
      | apply Kept.step (State.notice_kept ..) | apply Kept.ite | apply KeptR.ite
    | dsimp only
    | split

theorem execRemoteBandPlacement_kept (home bench : Nat) (incarn : BitVec 16) (classId : Nat) (rateCap : BitVec 32) (number row rows cols flags queues seed budget : Nat) (ranges : List (Nat × Nat × Bool)) (s : State) :
    KeptR 0x12304a020 s (execRemoteBandPlacement home bench incarn classId rateCap number row rows cols flags queues seed budget ranges s) := by
  have e18 : Nat.land 0x40000 0x12304a020 = 0x40000 := rfl
  unfold execRemoteBandPlacement
  try dsimp only
  repeat' first
    | exact (rfl : Nat.land _ _ = _)
    | (intro _; try dsimp only)
    | with_reducible first
      | assumption | apply Kept.refl | apply Kept.fold | apply KeptR.next | apply Kept.step (State.staleMessage_kept ..)
      | apply Kept.step (State.admitGuest_kept ..) | apply Kept.step (Kept.pair (by assumption) (State.admitGuest_kept ..))
      | apply Kept.step (State.sendDie_kept ..) | apply Kept.step (State.sendHub_kept ..) | apply Kept.step (State.pinRanges_kept ..)
      | apply Kept.step (Kept.pair (by assumption) (State.pinRanges_kept ..)) | apply Kept.step (State.tallyXlt_kept ..)
      | fail_if_no_progress refine Kept.madePlacements e18 ?_ | apply Kept.ite | apply KeptR.ite
    | dsimp only
    | split

end Sys2Proof.Machine
end

