-- ==== Sys2Proof/Laws/Kept/SpindleOps.lean ====
section
/-!
SUPPORT. What the operations and commands of Machine/SpindleOps.lean keep.
-/

namespace Sys2Proof.Machine

theorem State.dropLatheWork_kept (s : State) (d : Nat) : Kept 0x16300d224 s (State.dropLatheWork s d) := by
  unfold State.dropLatheWork
  try dsimp only
  repeat' first
    | exact (rfl : Nat.land _ _ = _)
    | (intro _; try dsimp only)
    | with_reducible first
      | assumption | apply Kept.refl | apply Kept.fold | apply Kept.step (State.failRead_kept ..)
      | apply Kept.step (State.ackWrite_kept ..)

theorem State.remoteLost_kept (s : State) (d : Nat) : Kept 0x121020000 s (State.remoteLost s d) := by
  have e17 : Nat.land 0x20000 0x121020000 = 0x20000 := rfl
  unfold State.remoteLost
  try dsimp only
  repeat' first
    | exact (rfl : Nat.land _ _ = _)
    | (intro _; try dsimp only)
    | with_reducible first
      | assumption | apply Kept.refl | apply Kept.fold | apply Kept.step (State.sendHub_kept ..)
      | fail_if_no_progress refine Kept.madeRemotes e17 ?_

theorem State.endDieRequests_kept (s : State) (d : Nat) : Kept 0xd6303f226 s (State.endDieRequests s d) := by
  have e15 : Nat.land 0x8000 0xd6303f226 = 0x8000 := rfl
  unfold State.endDieRequests
  try dsimp only
  repeat' first
    | exact (rfl : Nat.land _ _ = _)
    | (intro _; try dsimp only)
    | with_reducible first
      | assumption | apply Kept.refl | apply Kept.fold | apply Kept.step (State.bar2Lost_kept ..)
      | apply Kept.step (State.putAcked_kept ..) | apply Kept.step (State.pumpInvAcks_kept ..)
      | apply Kept.step (State.dropLatheWork_kept ..) | apply Kept.step (State.remoteLost_kept ..)
      | fail_if_no_progress refine Kept.madeSpindles e15 ?_

theorem State.endDieFills_kept (s : State) (d : Nat) : Kept 0x123000076 s (State.endDieFills s d) := by
  have e6 : Nat.land 0x40 0x123000076 = 0x40 := rfl
  unfold State.endDieFills
  try dsimp only
  repeat' first
    | exact (rfl : Nat.land _ _ = _)
    | (intro _; try dsimp only)
    | with_reducible first
      | assumption | apply Kept.refl | apply Kept.mapGetD | apply Kept.step (State.endCommand_kept ..)
      | apply Kept.step (State.runGrant_kept ..) | fail_if_no_progress refine Kept.madeZeroFill e6 ?_ | apply Kept.ite
    | dsimp only
    | split

theorem State.guestOffDie_kept (s : State) (g d : Nat) : Kept 0x123040000 s (State.guestOffDie s g d) := by
  have e18 : Nat.land 0x40000 0x123040000 = 0x40000 := rfl
  have e25 : Nat.land 0x2000000 0x123040000 = 0x2000000 := rfl
  unfold State.guestOffDie
  try dsimp only
  repeat' first
    | exact (rfl : Nat.land _ _ = _)
    | with_reducible first
      | assumption | apply Kept.refl | apply Kept.step (State.setGuest_kept ..) | apply Kept.step (State.sendHub_kept ..)
      | fail_if_no_progress refine Kept.madePlacementsRecovery e18 e25 ?_ | apply Kept.ite
    | dsimp only
    | split

theorem State.dieLost_kept (s : State) (d : Nat) (cause : BitVec 4) : Kept 0xd7307f376 s (State.dieLost s d cause) := by
  unfold State.dieLost
  try dsimp only
  repeat' first
    | exact (rfl : Nat.land _ _ = _)
    | exact fun _ => rfl
    | (intro _; try dsimp only)
    | with_reducible first
      | assumption | apply Kept.refl | apply Kept.fold | apply Kept.step (State.dropEntries_kept ..)
      | apply Kept.step (State.modDie_kept ..) | apply Kept.step (State.notice_kept ..) | apply Kept.step (State.logFault_kept ..)
      | apply Kept.step (State.modDebug_kept (hf := ?_) ..) | apply Kept.step (State.endDieRequests_kept ..)
      | apply Kept.step (State.endDieFills_kept ..) | apply Kept.step (State.guestOffDie_kept ..)
      | apply Kept.step (State.startSweep_kept ..) | apply Kept.ite
    | dsimp only
    | split

theorem State.dieCause_kept (s : State) (d : Nat) (cause : BitVec 4) : Kept 0xd7307f376 s (State.dieCause s d cause) := by
  unfold State.dieCause
  try dsimp only
  repeat' first
    | exact (rfl : Nat.land _ _ = _)
    | with_reducible first
      | assumption | apply Kept.refl | apply Kept.step (State.modDie_kept ..) | apply Kept.step (State.dieLost_kept ..) | apply Kept.ite
    | dsimp only
    | split

theorem State.portResumes_kept (s : State) (d : Nat) : Kept 0x120009000 s (State.portResumes s d) := by
  unfold State.portResumes
  try dsimp only
  repeat' first
    | exact (rfl : Nat.land _ _ = _)
    | (intro _; try dsimp only)
    | with_reducible first
      | assumption | apply Kept.refl | apply Kept.fold | apply Kept.step (State.modDie_kept ..) | apply Kept.step (State.sendDie_kept ..)
      | apply Kept.step (State.pumpPort_kept ..)

theorem State.refuseCore_kept (s : State) (d id : Nat) : Kept 0x120008000 s (State.refuseCore s d id) := by
  unfold State.refuseCore
  try dsimp only
  repeat' first
    | exact (rfl : Nat.land _ _ = _)
    | with_reducible first
      | assumption | apply Kept.refl | apply Kept.step (State.sendDie_kept ..)

theorem State.coreCause_kept (s : State) (o cause : Nat) (address : BitVec 64) (core : BitVec 32) :
    Kept 0x121048024 s (State.coreCause s o cause address core) := by
  unfold State.coreCause
  try dsimp only
  repeat' first
    | exact (rfl : Nat.land _ _ = _)
    | with_reducible first
      | assumption | apply Kept.refl | apply Kept.step (State.holdFor_kept ..) | apply Kept.step (State.sendHub_kept ..) | apply Kept.ite
    | dsimp only
    | split

theorem State.pinViolation_kept (s : State) (o d core id addr : Nat) : Kept 0x121048024 s (State.pinViolation s o d core id addr) := by
  unfold State.pinViolation
  try dsimp only
  repeat' first
    | exact (rfl : Nat.land _ _ = _)
    | with_reducible first
      | assumption | apply Kept.refl | apply Kept.step (State.refuseCore_kept ..) | apply Kept.step (State.coreCause_kept ..)

theorem State.answerCore_kept (s : State) (q : XltReq) (status : MemStatus) (data : List Byte) :
    Kept 0x121008000 s (State.answerCore s q status data) := by
  unfold State.answerCore
  try dsimp only
  repeat' first
    | exact (rfl : Nat.land _ _ = _)
    | with_reducible first
      | assumption | apply Kept.refl | apply Kept.step (State.pumpInvAcks_kept ..) | apply Kept.step (State.modDie_kept ..)
      | apply Kept.step (State.sendDie_kept ..) | apply Kept.step (State.refuseCore_kept ..) | apply Kept.ite
    | dsimp only
    | split

theorem State.answerBar2_kept (s : State) (q : Bar2Req) (status : MemStatus) (data : List Byte) :
    Kept 0x2010024 s (State.answerBar2 s q status data) := by
  have e16 : Nat.land 0x10000 0x2010024 = 0x10000 := rfl
  unfold State.answerBar2
  try dsimp only
  repeat' first
    | exact (rfl : Nat.land _ _ = _)
    | with_reducible first
      | assumption | apply Kept.refl | apply Kept.step (State.complete_kept ..) | apply Kept.step (State.bar2Lost_kept ..)
      | apply Kept.step (State.logError_kept ..) | fail_if_no_progress refine Kept.madeBar2Reads e16 ?_
    | dsimp only
    | split

end Sys2Proof.Machine
end

