-- ==== Sys2Proof/Laws/Kept/CascadeOps.lean ====
section
/-!
SUPPORT. What the operations and commands of Machine/CascadeOps.lean keep.
-/

namespace Sys2Proof.Machine

theorem State.envanFail_kept (s : State) (l : Nat) (cause : BitVec 4) : Kept 0x800002 s (State.envanFail s l cause) := by
  unfold State.envanFail
  try dsimp only
  repeat' first
    | exact (rfl : Nat.land _ _ = _)
    | with_reducible first
      | assumption | apply Kept.refl | apply Kept.step (State.modEnvan_kept ..) | apply Kept.step (State.addDeadline_kept ..)
      | apply Kept.step (State.cancelDeadline_kept ..) | apply Kept.ite
    | dsimp only
    | split

theorem State.settleRoutes_kept (s : State) : Kept 0x121048000 s (State.settleRoutes s) := by
  unfold State.settleRoutes
  try dsimp only
  repeat' first
    | exact (rfl : Nat.land _ _ = _)
    | (intro _; try dsimp only)
    | with_reducible first
      | assumption | apply Kept.refl | apply Kept.fold | apply Kept.step (State.sendWaiting_kept ..)
      | apply Kept.step (State.freezeHere_kept ..) | apply Kept.step (State.freezeAll_kept ..)
      | apply Kept.step (State.tryRelease_kept ..) | apply Kept.ite
    | dsimp only
    | split

theorem State.forwardStep_kept (s : State) (us : Nat) : Kept 0x1278c8a27 s (State.forwardStep s us) := by
  unfold State.forwardStep
  refine Kept.fold (fun s p => ?_) ?_
  · split
    · exact .ite ((State.applyRelease_kept ..).mono rfl) (.refl _ _)
    · exact .refl _ _
  · refine ⟨rfl, rfl, rfl, rfl, id, List.prefix_refl _, Nat.le_refl _, ?_⟩
    intro p k
    cases p <;> first | exact rfl | exact absurd k (by decide)

theorem State.slew_kept (s : State) (ns : Int) : Kept 0x81000002 s (State.slew s ns) := by
  unfold State.slew
  try dsimp only
  repeat' first
    | exact (rfl : Nat.land _ _ = _)
    | with_reducible first
      | assumption | apply Kept.refl | apply Kept.step (State.setTime_kept ..) | apply Kept.step (State.draw_kept ..)
      | apply Kept.step (Kept.pair (by assumption) (State.draw_kept ..)) | apply Kept.ite
    | dsimp only
    | split

theorem State.discipline_kept (s : State) (ns : Int) : Kept 0x1a78c8a27 s (State.discipline s ns) := by
  have e24 : Nat.land 0x1000000 0x1a78c8a27 = 0x1000000 := rfl
  unfold State.discipline
  try dsimp only
  repeat' first
    | exact (rfl : Nat.land _ _ = _)
    | with_reducible first
      | assumption | apply Kept.refl | apply Kept.step (State.forwardStep_kept ..) | apply Kept.step (State.slew_kept ..)
      | apply Kept.step (State.sendHub_kept ..) | fail_if_no_progress refine Kept.madeCascade e24 ?_ | apply Kept.ite
    | dsimp only
    | split

theorem State.flood_kept (s : State) (m : EnvanMsg) : Kept 0x121000000 s (State.flood s m) := by
  unfold State.flood
  try dsimp only
  repeat' first
    | exact (rfl : Nat.land _ _ = _)
    | (intro _; try dsimp only)
    | with_reducible first
      | assumption | apply Kept.refl | apply Kept.fold | apply Kept.step (State.sendHub_kept ..)

theorem State.sendPresence_kept (s : State) : Kept 0x121000000 s (State.sendPresence s) := by
  unfold State.sendPresence
  try dsimp only
  repeat' first
    | exact (rfl : Nat.land _ _ = _)
    | with_reducible first
      | assumption | apply Kept.refl | apply Kept.step (State.flood_kept ..)

theorem State.hubLost_kept (s : State) (h : Nat) : Kept 0x16302d234 s (State.hubLost s h) := by
  have e15 : Nat.land 0x8000 0x16302d234 = 0x8000 := rfl
  have e17 : Nat.land 0x20000 0x16302d234 = 0x20000 := rfl
  have e24 : Nat.land 0x1000000 0x16302d234 = 0x1000000 := rfl
  unfold State.hubLost
  try dsimp only
  repeat' first
    | exact (rfl : Nat.land _ _ = _)
    | (intro _; try dsimp only)
    | with_reducible first
      | assumption | apply Kept.refl | apply Kept.fold | apply Kept.mapGetD | apply Kept.step (State.endCommand_kept ..)
      | apply Kept.step (State.pumpInvAcks_kept ..) | apply Kept.step (State.modInv_kept ..) | apply Kept.step (State.failRead_kept ..)
      | apply Kept.step (State.ackWrite_kept ..) | fail_if_no_progress refine Kept.madeSpindlesRemotes e15 e17 ?_
      | fail_if_no_progress refine Kept.madeCascade e24 ?_ | apply Kept.ite
    | dsimp only
    | split

theorem State.hubsLost_kept (s : State) (l : List Nat) : Kept 0x1e772d234 s (State.hubsLost s l) := by
  unfold State.hubsLost
  try dsimp only
  repeat' first
    | exact (rfl : Nat.land _ _ = _)
    | (intro _; try dsimp only)
    | with_reducible first
      | assumption | apply Kept.refl | apply Kept.fold | apply Kept.step (State.partnersLost_kept ..)
      | apply Kept.step (State.hubLost_kept ..) | apply Kept.ite
    | dsimp only
    | split

theorem State.actGuest_kept (s : State) (new : List RosterEntry) (told : List (Nat × Nat × BitVec 16)) (g : Nat) :
    Kept 0x52777f264 s (State.actGuest s new told g) := by
  unfold State.actGuest
  try dsimp only
  repeat' first
    | exact (rfl : Nat.land _ _ = _)
    | with_reducible first
      | assumption | apply Kept.refl | apply Kept.step (State.orphanGuest_kept ..) | apply Kept.step (State.setGuest_kept ..)
      | apply Kept.ite
    | dsimp only
    | split

theorem State.actBench_kept (s : State) (old new : List RosterEntry) (told : List (Nat × BitVec 16)) (b : Nat) :
    Kept 0x12304a324 s (State.actBench s old new told b) := by
  unfold State.actBench
  try dsimp only
  repeat' first
    | exact (rfl : Nat.land _ _ = _)
    | (intro _; try dsimp only)
    | with_reducible first
      | assumption | apply Kept.refl | apply Kept.mapGetD | apply Kept.step (State.startSweep_kept ..) | apply Kept.ite
    | dsimp only
    | split

theorem State.actRoster_kept (s : State) (old new : List RosterEntry) : Kept 0x52777f364 s (State.actRoster s old new) := by
  have e24 : Nat.land 0x1000000 0x52777f364 = 0x1000000 := rfl
  unfold State.actRoster
  try dsimp only
  repeat' first
    | exact (rfl : Nat.land _ _ = _)
    | (intro _; try dsimp only)
    | with_reducible first
      | assumption | apply Kept.refl | apply Kept.fold | apply Kept.mapGetD | apply Kept.step (State.actGuest_kept ..)
      | apply Kept.step (State.actBench_kept ..) | fail_if_no_progress refine Kept.madeCascade e24 ?_

theorem State.settleRoster_kept (s : State) : Kept 0x52777f364 s (State.settleRoster s) := by
  have e24 : Nat.land 0x1000000 0x52777f364 = 0x1000000 := rfl
  unfold State.settleRoster
  try dsimp only
  repeat' first
    | exact (rfl : Nat.land _ _ = _)
    | with_reducible first
      | assumption | apply Kept.refl | apply Kept.step (State.toMembers_kept ..) | apply Kept.step (State.actRoster_kept ..)
      | fail_if_no_progress refine Kept.madeCascade e24 ?_
    | dsimp only
    | split

theorem State.keepReport_kept (s : State) : Kept 0x1000000 s (State.keepReport s) := by
  have e24 : Nat.land 0x1000000 0x1000000 = 0x1000000 := rfl
  unfold State.keepReport
  try dsimp only
  repeat' first
    | exact (rfl : Nat.land _ _ = _)
    | with_reducible first
      | assumption | apply Kept.refl | fail_if_no_progress refine Kept.madeCascade e24 ?_

theorem State.charterNotice_kept (s : State) (cause : Nat) (c : Charter) : Kept 0x24 s (State.charterNotice s cause c) := by
  unfold State.charterNotice
  try dsimp only
  repeat' first
    | exact (rfl : Nat.land _ _ = _)
    | with_reducible first
      | assumption | apply Kept.refl | apply Kept.step (State.notice_kept ..)

theorem State.heardCharter_kept (s : State) (c : Charter) : Kept 0x1000002 s (State.heardCharter s c) := by
  have e24 : Nat.land 0x1000000 0x1000002 = 0x1000000 := rfl
  unfold State.heardCharter
  try dsimp only
  repeat' first
    | exact (rfl : Nat.land _ _ = _)
    | with_reducible first
      | assumption | apply Kept.refl | apply Kept.step (State.addDeadline_kept ..) | apply Kept.step (State.cancelDeadline_kept ..)
      | fail_if_no_progress refine Kept.madeCascade e24 ?_

theorem State.follow_kept (s : State) (c : Charter) : Kept 0x5e7fffa77 s (State.follow s c) := by
  have e24 : Nat.land 0x1000000 0x5e7fffa77 = 0x1000000 := rfl
  unfold State.follow
  try dsimp only
  repeat' first
    | exact (rfl : Nat.land _ _ = _)
    | (intro _; try dsimp only)
    | with_reducible first
      | assumption | apply Kept.refl | apply Kept.fold | apply Kept.mapGetD | apply Kept.step (State.orphanGuest_kept ..)
      | apply Kept.step (State.settleRoutes_kept ..) | apply Kept.step (State.discipline_kept ..)
      | apply Kept.step (State.sendPresence_kept ..) | apply Kept.step (State.hubsLost_kept ..)
      | apply Kept.step (State.keepReport_kept ..) | apply Kept.step (State.charterNotice_kept ..)
      | apply Kept.step (State.heardCharter_kept ..) | apply Kept.step (State.sendHub_kept ..)
      | fail_if_no_progress refine Kept.madeCascade e24 ?_ | apply Kept.ite
    | dsimp only
    | split

theorem State.refresh_kept (s : State) (c : Charter) : Kept 0x52777f366 s (State.refresh s c) := by
  unfold State.refresh
  try dsimp only
  repeat' first
    | exact (rfl : Nat.land _ _ = _)
    | with_reducible first
      | assumption | apply Kept.refl | apply Kept.step (State.actRoster_kept ..) | apply Kept.step (State.heardCharter_kept ..)
      | apply Kept.ite
    | dsimp only
    | split

theorem State.snapCharter_kept (s : State) (offset : BitVec 32) : Kept 0x1000000 s (State.snapCharter s offset) := by
  have e24 : Nat.land 0x1000000 0x1000000 = 0x1000000 := rfl
  unfold State.snapCharter
  try dsimp only
  repeat' first
    | exact (rfl : Nat.land _ _ = _)
    | (intro _; try dsimp only)
    | with_reducible first
      | assumption | apply Kept.refl | apply Kept.mapGetD | fail_if_no_progress refine Kept.madeCascade e24 ?_

end Sys2Proof.Machine
end

