-- ==== Sys2Proof/Laws/Kept/Recovery.lean ====
section
/-!
SUPPORT. What the operations and commands of Machine/Recovery.lean keep.
-/

namespace Sys2Proof.Machine

theorem execSweepSettleTimeout_kept (bench : Nat) (s : State) : KeptR 0x20 s (execSweepSettleTimeout bench s) := by
  unfold execSweepSettleTimeout
  try dsimp only
  repeat' first
    | exact (rfl : Nat.land _ _ = _)
    | (intro _; try dsimp only)
    | with_reducible first
      | assumption | apply Kept.refl | apply KeptR.next | apply Kept.mapGetD | apply Kept.step (State.modSweep_kept ..) | apply Kept.ite
      | apply KeptR.ite
    | dsimp only
    | split

theorem execSweepCut_kept (bench : Nat) (s : State) : KeptR 0xd2f7ffe3e s (execSweepCut bench s) := by
  unfold execSweepCut
  try dsimp only
  repeat' first
    | exact (rfl : Nat.land _ _ = _)
    | with_reducible first
      | assumption | apply Kept.refl | apply KeptR.next | apply Kept.step (State.cutBench_kept ..) | apply Kept.ite | apply KeptR.ite
    | dsimp only
    | split

theorem execSweepDrainDone_kept (bench : Nat) (s : State) : KeptR 0x20 s (execSweepDrainDone bench s) := by
  unfold execSweepDrainDone
  try dsimp only
  repeat' first
    | exact (rfl : Nat.land _ _ = _)
    | with_reducible first
      | assumption | apply Kept.refl | apply KeptR.next | apply Kept.step (State.modSweep_kept ..) | apply Kept.ite | apply KeptR.ite
    | dsimp only
    | split

theorem execSweepLocksTaken_kept (bench : Nat) (s : State) : KeptR 0x12304a060 s (execSweepLocksTaken bench s) := by
  unfold execSweepLocksTaken
  try dsimp only
  repeat' first
    | exact (rfl : Nat.land _ _ = _)
    | with_reducible first
      | assumption | apply Kept.refl | apply KeptR.next | apply Kept.step (State.takeLocks_kept ..)
      | apply Kept.step (State.reclaim_kept ..) | apply Kept.ite | apply KeptR.ite
    | dsimp only
    | split

theorem execSweepReclaimDone_kept (bench : Nat) (s : State) : KeptR 0x3603236 s (execSweepReclaimDone bench s) := by
  unfold execSweepReclaimDone
  try dsimp only
  repeat' first
    | exact (rfl : Nat.land _ _ = _)
    | (intro _; try dsimp only)
    | with_reducible first
      | assumption | apply Kept.refl | apply KeptR.next | apply Kept.mapGetD | apply Kept.step (State.dispose_kept ..) | apply Kept.ite
      | apply KeptR.ite
    | dsimp only
    | split

theorem execLockExpiry_kept (lock : Nat) (s : State) : KeptR 0x2002026 s (execLockExpiry lock s) := by
  unfold execLockExpiry
  try dsimp only
  repeat' first
    | exact (rfl : Nat.land _ _ = _)
    | (intro _; try dsimp only)
    | with_reducible first
      | assumption | apply Kept.refl | apply KeptR.next | apply Kept.then (State.ownedBy_kept (hm := ?_) (hf := ?_) ..)
      | apply Kept.step (State.setLocks_kept ..) | apply Kept.ite | apply KeptR.ite
    | dsimp only
    | split

theorem execWhittlerWatchdog_kept (whittler : Nat) (s : State) : KeptR 0x6002026 s (execWhittlerWatchdog whittler s) := by
  have e26 : Nat.land 0x4000000 0x6002026 = 0x4000000 := rfl
  unfold execWhittlerWatchdog
  try dsimp only
  repeat' first
    | exact (rfl : Nat.land _ _ = _)
    | with_reducible first
      | assumption | apply Kept.refl | apply KeptR.next | apply Kept.step (State.modWhittler_kept ..)
      | apply Kept.step (State.logError_kept ..) | apply Kept.step (State.modLocks_kept ..)
      | apply Kept.step (State.fenceWhittler_kept ..) | fail_if_no_progress refine Kept.madeBg e26 ?_ | apply Kept.ite | apply KeptR.ite
    | dsimp only
    | split

theorem State.nextTally_kept (s : State) : Kept 0x2000000 s (State.nextTally s) := by
  have e25 : Nat.land 0x2000000 0x2000000 = 0x2000000 := rfl
  unfold State.nextTally
  try dsimp only
  repeat' first
    | exact (rfl : Nat.land _ _ = _)
    | with_reducible first
      | assumption | apply Kept.refl | fail_if_no_progress refine Kept.madeRecovery e25 ?_

theorem execTallyQuery_kept (s : State) : KeptR 0x2000000 s (execTallyQuery s) := by
  unfold execTallyQuery
  try dsimp only
  repeat' first
    | exact (rfl : Nat.land _ _ = _)
    | with_reducible first
      | assumption | apply Kept.refl | apply KeptR.next | apply Kept.step (State.nextTally_kept ..) | apply Kept.ite | apply KeptR.ite
    | dsimp only
    | split

theorem State.readLog_kept (s : State) (mirror : Bool) (slot : Nat) : Kept 0x2000000 s (State.readLog s mirror slot) := by
  have e25 : Nat.land 0x2000000 0x2000000 = 0x2000000 := rfl
  unfold State.readLog
  try dsimp only
  repeat' first
    | exact (rfl : Nat.land _ _ = _)
    | with_reducible first
      | assumption | apply Kept.refl | apply Kept.step (State.markRead_kept ..) | fail_if_no_progress refine Kept.madeRecovery e25 ?_
      | apply Kept.ite
    | dsimp only
    | split

theorem execErrlogEntryRead_kept (mirror : Bool) (slot : Nat) (s : State) : KeptR 0x2000000 s (execErrlogEntryRead mirror slot s) := by
  unfold execErrlogEntryRead
  try dsimp only
  repeat' first
    | exact (rfl : Nat.land _ _ = _)
    | with_reducible first
      | assumption | apply Kept.refl | apply KeptR.next | apply Kept.step (State.readLog_kept ..) | apply Kept.ite | apply KeptR.ite
    | dsimp only
    | split

end Sys2Proof.Machine
end

