-- ==== Sys2Proof/Laws/Kept/RegFile.lean ====
section
/-!
SUPPORT. What the operations and commands of Machine/RegFile.lean keep.
-/

namespace Sys2Proof.Machine

/-- Every operation of a register map keeps what `M` does not name. -/
structure RegMap.Keeps (M : Nat) (m : RegMap) : Prop where
  put : ∀ s o v, Kept M s (m.put s o v)
  put64 : ∀ s o v, Kept M s (m.put64 s o v)
  putBytes : ∀ s o d, Kept M s (m.putBytes s o d)
  effect : ∀ s o, Kept M s (m.effect s o)
  count : ∀ s, Kept M s (m.count s)
  stage : ∀ s v, Kept M s (m.stage s v)

theorem RegMap.Keeps.mono {l m : Nat} {r : RegMap} (h : r.Keeps l) (k : Nat.land l m = l) : r.Keeps m :=
  ⟨fun _ _ _ => (h.1 ..).mono k, fun _ _ _ => (h.2 ..).mono k, fun _ _ _ => (h.3 ..).mono k, fun _ _ => (h.4 ..).mono k,
    fun _ => (h.5 ..).mono k, fun _ _ => (h.6 ..).mono k⟩

theorem RegMap.missRead_kept {M : Nat} (m : RegMap) (h : m.Keeps M) (s : State) (n : Nat) : Kept M s (RegMap.missRead m s n).2 := h.count s

theorem RegMap.readDword_kept {M : Nat} (m : RegMap) (h : m.Keeps M) (s : State) (quiet : Bool) (o : Nat) :
    Kept M s (RegMap.readDword m s quiet o).2 := by
  unfold RegMap.readDword
  split
  · exact h.count s
  all_goals dsimp only
  all_goals first | exact .refl _ _ | (split; · exact .refl _ _
                                       · exact h.effect ..)

theorem RegMap.readQword_kept {M : Nat} (m : RegMap) (h : m.Keeps M) (s : State) (quiet : Bool) (o : Nat) :
    Kept M s (RegMap.readQword m s quiet o).2 := by
  unfold RegMap.readQword
  split
  · exact h.count s
  · exact (m.readDword_kept h ..).trans (m.readDword_kept h ..)

theorem RegMap.readNarrow_kept {M : Nat} (m : RegMap) (h : m.Keeps M) (s : State) (o n : Nat) : Kept M s (RegMap.readNarrow m s o n).2 := by
  unfold RegMap.readNarrow
  split
  · exact h.count s
  · exact .refl _ _

theorem RegMap.read_kept {M : Nat} (m : RegMap) (h : m.Keeps M) (s : State) (quiet : Bool) (a : RegAccess) :
    Kept M s (RegMap.read m s quiet a).2 := by
  unfold RegMap.read
  dsimp only
  repeat' split
  · exact .refl _ _
  · exact .refl _ _
  · exact h.count s
  · exact m.readDword_kept h ..
  · exact m.readQword_kept h ..
  · exact m.readNarrow_kept h ..
  · exact h.count s

theorem RegMap.writeDword_kept {M : Nat} (m : RegMap) (h : m.Keeps M) (s : State) (st : Option (Nat × BitVec 32)) (o : Nat) (v : BitVec 32) :
    Kept M s (RegMap.writeDword m s st o v) := by
  unfold RegMap.writeDword
  split
  all_goals first | exact h.count s | exact .refl _ _ | exact h.put .. | exact h.putBytes .. | exact h.stage .. | exact h.put64 ..

theorem RegMap.writeQword_kept {M : Nat} (m : RegMap) (h : m.Keeps M) (s : State) (st : Option (Nat × BitVec 32)) (o : Nat) (v : BitVec 64) :
    Kept M s (RegMap.writeQword m s st o v) := by
  unfold RegMap.writeQword
  split
  · exact h.count s
  · split
    · exact h.put64 ..
    · exact .refl _ _
    · exact h.count s
    · exact (m.writeDword_kept h ..).trans (m.writeDword_kept h ..)

theorem RegMap.writeNarrow_kept {M : Nat} (m : RegMap) (h : m.Keeps M) (s : State) (o : Nat) (data : List (Byte × Bool)) :
    Kept M s (RegMap.writeNarrow m s o data) := by
  unfold RegMap.writeNarrow
  split
  · exact h.putBytes ..
  · exact .refl _ _
  · exact h.count s

theorem RegMap.write_kept {M : Nat} (m : RegMap) (h : m.Keeps M) (s : State) (a : RegAccess) : Kept M s (RegMap.write m s a) := by
  unfold RegMap.write
  split
  · exact .refl _ _
  · dsimp only
    have k : Kept M s (if (m.staged s).isSome = true then m.stage s none else s) := .ite (h.stage ..) (.refl _ _)
    refine k.trans ?_
    generalize (if (m.staged s).isSome = true then m.stage s none else s) = t
    repeat' split
    · exact .refl _ _
    · exact h.count t
    · exact m.writeDword_kept h ..
    · exact m.writeQword_kept h ..
    · exact m.writeNarrow_kept h ..
    · exact h.count t

end Sys2Proof.Machine
end

