-- ==== Sys2Proof/Laws/Kept/RingCtl.lean ====
section
/-!
SUPPORT. What the operations and commands of Machine/RingCtl.lean keep.
-/

namespace Sys2Proof.Machine

theorem State.abortRing_kept (s : State) (b r : Nat) : Kept 0x1277c2224 s (State.abortRing s b r) := by
  unfold State.abortRing
  try dsimp only
  repeat' first
    | exact (rfl : Nat.land _ _ = _)
    | with_reducible first
      | assumption | apply Kept.refl | apply Kept.step (State.abandonAnneal_kept ..) | apply Kept.step (State.modRing_kept ..)
      | apply Kept.step (State.flushRead_kept ..) | apply Kept.step (State.abandonLaunch_kept ..)
      | apply Kept.step (State.abandonRing_kept ..)
    | dsimp only
    | split

theorem State.stopEnabled_kept (s : State) (b r : Nat) : Kept 0x102002224 s (State.stopEnabled s b r) := by
  unfold State.stopEnabled
  try dsimp only
  repeat' first
    | exact (rfl : Nat.land _ _ = _)
    | with_reducible first
      | assumption | apply Kept.refl | apply Kept.step (State.modRing_kept ..) | apply Kept.step (State.abandonRing_kept ..)

theorem State.resumeRing_kept (s : State) (b r : Nat) (was : Ring) : Kept 0x2000224 s (State.resumeRing s b r was) := by
  unfold State.resumeRing
  try dsimp only
  repeat' first
    | exact (rfl : Nat.land _ _ = _)
    | with_reducible first
      | assumption | apply Kept.refl | apply Kept.step (State.modRing_kept ..) | apply Kept.step (State.countBench_kept ..)
      | apply Kept.step (State.traceRing_kept ..) | apply Kept.step (State.giveUp_kept ..) | apply Kept.ite
    | dsimp only
    | split

theorem State.pauseRing_kept (s : State) (b r : Nat) (p : Bool) : Kept 0x2000224 s (State.pauseRing s b r p) := by
  unfold State.pauseRing
  try dsimp only
  repeat' first
    | exact (rfl : Nat.land _ _ = _)
    | with_reducible first
      | assumption | apply Kept.refl | apply Kept.step (State.modRing_kept ..) | apply Kept.step (State.giveUp_kept ..)
      | apply Kept.step (State.fetchPark_kept ..) | apply Kept.ite
    | dsimp only
    | split

theorem State.putRingCtrl_kept (s : State) (b r : Nat) (v : BitVec 32) : Kept 0x1277c2224 s (State.putRingCtrl s b r v) := by
  unfold State.putRingCtrl
  try dsimp only
  repeat' first
    | exact (rfl : Nat.land _ _ = _)
    | with_reducible first
      | assumption | apply Kept.refl | apply Kept.step (State.modRing_kept ..) | apply Kept.step (State.countBench_kept ..)
      | apply Kept.step (State.enableRing_kept ..) | apply Kept.step (State.abortRing_kept ..)
      | apply Kept.step (State.stopEnabled_kept ..) | apply Kept.step (State.resumeRing_kept ..)
      | apply Kept.step (State.pauseRing_kept ..) | apply Kept.ite
    | dsimp only
    | split

theorem State.ringCtrl_kept (s : State) (b r : Nat) (v : BitVec 32) : Kept 0x1277c2227 s (State.ringCtrl s b r v) := by
  unfold State.ringCtrl
  try dsimp only
  repeat' first
    | exact (rfl : Nat.land _ _ = _)
    | (intro _; try dsimp only)
    | with_reducible first
      | assumption | apply Kept.refl | apply Kept.then (State.servedRing_kept (hm := ?_) (hf := ?_) ..)
      | apply Kept.step (State.putRingCtrl_kept ..)

theorem execRingEnable_kept (bench ring : Nat) (value : BitVec 32) (s : State) : KeptR 0x1277c2227 s (execRingEnable bench ring value s) := by
  unfold execRingEnable
  try dsimp only
  repeat' first
    | exact (rfl : Nat.land _ _ = _)
    | with_reducible first
      | assumption | apply Kept.refl | apply KeptR.next | apply Kept.step (State.ringCtrl_kept ..)

theorem execRingDisable_kept (bench ring : Nat) (value : BitVec 32) (s : State) : KeptR 0x1277c2227 s (execRingDisable bench ring value s) := by
  unfold execRingDisable
  try dsimp only
  repeat' first
    | exact (rfl : Nat.land _ _ = _)
    | with_reducible first
      | assumption | apply Kept.refl | apply KeptR.next | apply Kept.step (State.ringCtrl_kept ..)

theorem execRingPause_kept (bench ring : Nat) (value : BitVec 32) (s : State) : KeptR 0x1277c2227 s (execRingPause bench ring value s) := by
  unfold execRingPause
  try dsimp only
  repeat' first
    | exact (rfl : Nat.land _ _ = _)
    | with_reducible first
      | assumption | apply Kept.refl | apply KeptR.next | apply Kept.step (State.ringCtrl_kept ..)

theorem execRingUnpause_kept (bench ring : Nat) (value : BitVec 32) (s : State) : KeptR 0x1277c2227 s (execRingUnpause bench ring value s) := by
  unfold execRingUnpause
  try dsimp only
  repeat' first
    | exact (rfl : Nat.land _ _ = _)
    | with_reducible first
      | assumption | apply Kept.refl | apply KeptR.next | apply Kept.step (State.ringCtrl_kept ..)

theorem execRingResume_kept (bench ring : Nat) (value : BitVec 32) (s : State) : KeptR 0x1277c2227 s (execRingResume bench ring value s) := by
  unfold execRingResume
  try dsimp only
  repeat' first
    | exact (rfl : Nat.land _ _ = _)
    | with_reducible first
      | assumption | apply Kept.refl | apply KeptR.next | apply Kept.step (State.ringCtrl_kept ..)

theorem execRingAbort_kept (bench ring : Nat) (value : BitVec 32) (s : State) : KeptR 0x1277c2227 s (execRingAbort bench ring value s) := by
  unfold execRingAbort
  try dsimp only
  repeat' first
    | exact (rfl : Nat.land _ _ = _)
    | with_reducible first
      | assumption | apply Kept.refl | apply KeptR.next | apply Kept.step (State.ringCtrl_kept ..)

theorem execRingDisableDone_kept (bench ring : Nat) (s : State) : KeptR 0x20 s (execRingDisableDone bench ring s) := by
  unfold execRingDisableDone
  try dsimp only
  repeat' first
    | exact (rfl : Nat.land _ _ = _)
    | with_reducible first
      | assumption | apply Kept.refl | apply KeptR.next | apply Kept.step (State.modRing_kept ..) | apply Kept.ite | apply KeptR.ite
    | dsimp only
    | split

theorem execAbortDone_kept (bench ring : Nat) (s : State) : KeptR 0x20 s (execAbortDone bench ring s) := by
  unfold execAbortDone
  try dsimp only
  repeat' first
    | exact (rfl : Nat.land _ _ = _)
    | with_reducible first
      | assumption | apply Kept.refl | apply KeptR.next | apply Kept.step (State.modRing_kept ..) | apply Kept.ite | apply KeptR.ite
    | dsimp only
    | split

end Sys2Proof.Machine
end

