-- ==== Sys2Proof/Laws/Kept/BenchRegs.lean ====
section
/-!
SUPPORT. What the operations and commands of Machine/BenchRegs.lean keep.
-/

namespace Sys2Proof.Machine

theorem State.modNotices_kept (s : State) (b : Nat) (f : NoticeQ → NoticeQ) : Kept 0x20 s (State.modNotices s b f) := by
  unfold State.modNotices
  try dsimp only
  repeat' first
    | exact (rfl : Nat.land _ _ = _)
    | with_reducible first
      | assumption | apply Kept.refl | apply Kept.step (State.modBench_kept ..)

theorem State.putNotice_kept (s : State) (b o : Nat) (v : BitVec 32) : Kept 0x20 s (State.putNotice s b o v) := by
  unfold State.putNotice
  try dsimp only
  repeat' first
    | exact (rfl : Nat.land _ _ = _)
    | with_reducible first
      | assumption | apply Kept.refl | apply Kept.step (State.modNotices_kept ..) | apply Kept.step (State.putNoticeHead_kept ..)
      | apply Kept.step (State.countBench_kept ..) | apply Kept.step (State.putNoticeCtrl_kept ..) | apply Kept.ite
    | dsimp only
    | split

theorem State.putEvent_kept (s : State) (b o : Nat) (v : BitVec 32) : Kept 0x2000624 s (State.putEvent s b o v) := by
  unfold State.putEvent
  try dsimp only
  repeat' first
    | exact (rfl : Nat.land _ _ = _)
    | with_reducible first
      | assumption | apply Kept.refl | apply Kept.step (State.claimLine_kept ..) | apply Kept.step (State.releaseLine_kept ..)
      | apply Kept.step (State.modBench_kept ..) | apply Kept.ite
    | dsimp only
    | split

theorem State.putPace_kept (s : State) (b k o : Nat) (v : BitVec 32) : Kept 0x2000a26 s (State.putPace s b k o v) := by
  unfold State.putPace
  try dsimp only
  repeat' first
    | exact (rfl : Nat.land _ _ = _)
    | with_reducible first
      | assumption | apply Kept.refl | apply Kept.step (State.modPaceSlot_kept ..) | apply Kept.step (State.claimPace_kept ..)
      | apply Kept.step (State.releasePace_kept ..) | apply Kept.step (State.armPace_kept ..) | apply Kept.step (State.disarmPace_kept ..)
      | apply Kept.step (State.countBench_kept ..) | apply Kept.ite
    | dsimp only
    | split

theorem State.putPlace_kept (s : State) (b o : Nat) (v : BitVec 32) : Kept 0x121048020 s (State.putPlace s b o v) := by
  unfold State.putPlace
  try dsimp only
  repeat' first
    | exact (rfl : Nat.land _ _ = _)
    | with_reducible first
      | assumption | apply Kept.refl | apply Kept.step (State.modBench_kept ..) | apply Kept.step (State.putPlaceRelease_kept ..)
    | dsimp only
    | split

theorem State.putSeal_kept (s : State) (b o : Nat) (v : BitVec 32) : Kept 0x8000020 s (State.putSeal s b o v) := by
  unfold State.putSeal
  try dsimp only
  repeat' first
    | exact (rfl : Nat.land _ _ = _)
    | with_reducible first
      | assumption | apply Kept.refl | apply Kept.step (State.modBench_kept ..) | apply Kept.step (State.modStream_kept ..)
      | apply Kept.ite
    | dsimp only
    | split

theorem State.modTrace_kept (s : State) (b : Nat) (f : Trace → Trace) : Kept 0x20 s (State.modTrace s b f) := by
  unfold State.modTrace
  try dsimp only
  repeat' first
    | exact (rfl : Nat.land _ _ = _)
    | with_reducible first
      | assumption | apply Kept.refl | apply Kept.step (State.modBench_kept ..)

theorem State.putTraceCtrl_kept (s : State) (b : Nat) (v : BitVec 32) : Kept 0x20 s (State.putTraceCtrl s b v) := by
  unfold State.putTraceCtrl
  try dsimp only
  repeat' first
    | exact (rfl : Nat.land _ _ = _)
    | with_reducible first
      | assumption | apply Kept.refl | apply Kept.step (State.modTrace_kept ..) | apply Kept.step (State.countBench_kept ..)
      | apply Kept.ite
    | dsimp only
    | split

theorem State.putTrace_kept (s : State) (b o : Nat) (v : BitVec 32) : Kept 0x20 s (State.putTrace s b o v) := by
  unfold State.putTrace
  try dsimp only
  repeat' first
    | exact (rfl : Nat.land _ _ = _)
    | with_reducible first
      | assumption | apply Kept.refl | apply Kept.step (State.modTrace_kept ..) | apply Kept.step (State.putTraceCtrl_kept ..)
      | apply Kept.step (State.countBench_kept ..) | apply Kept.ite
    | dsimp only
    | split

theorem State.setUpRing_kept (s : State) (b r : Nat) (f : Ring → Ring) : Kept 0x20 s (State.setUpRing s b r f) := by
  unfold State.setUpRing
  try dsimp only
  repeat' first
    | exact (rfl : Nat.land _ _ = _)
    | with_reducible first
      | assumption | apply Kept.refl | apply Kept.step (State.modRing_kept ..) | apply Kept.step (State.countBench_kept ..)
      | apply Kept.ite
    | dsimp only
    | split

theorem State.putRing_kept (s : State) (b r o : Nat) (v : BitVec 32) : Kept 0x1277c2224 s (State.putRing s b r o v) := by
  unfold State.putRing
  try dsimp only
  repeat' first
    | exact (rfl : Nat.land _ _ = _)
    | with_reducible first
      | assumption | apply Kept.refl | apply Kept.step (State.setUpRing_kept ..) | apply Kept.step (State.modRing_kept ..)
      | apply Kept.step (State.putRingCtrl_kept ..)
    | dsimp only
    | split

theorem State.putBench_kept (s : State) (b o : Nat) (v : BitVec 32) : Kept 0x92f7cae26 s (State.putBench s b o v) := by
  unfold State.putBench
  try dsimp only
  repeat' first
    | exact (rfl : Nat.land _ _ = _)
    | with_reducible first
      | assumption | apply Kept.refl | apply Kept.step (State.putNotice_kept ..) | apply Kept.step (State.putEvent_kept ..)
      | apply Kept.step (State.putPace_kept ..) | apply Kept.step (State.putPlace_kept ..) | apply Kept.step (State.putSeal_kept ..)
      | apply Kept.step (State.putTrace_kept ..) | apply Kept.step (State.putRing_kept ..) | apply Kept.step (State.putMsix_kept ..)
      | apply Kept.step (State.modBench_kept ..) | apply Kept.step (State.doorbell_kept ..) | apply Kept.ite
    | dsimp only
    | split

theorem State.putRing64_kept (s : State) (b r o : Nat) (v : BitVec 64) : Kept 0x20 s (State.putRing64 s b r o v) := by
  unfold State.putRing64
  try dsimp only
  repeat' first
    | exact (rfl : Nat.land _ _ = _)
    | with_reducible first
      | assumption | apply Kept.refl | apply Kept.step (State.setUpRing_kept ..) | apply Kept.step (State.modRing_kept ..)
    | dsimp only
    | split

theorem State.putBench64_kept (s : State) (b o : Nat) (v : BitVec 64) : Kept 0x1677cb227 s (State.putBench64 s b o v) := by
  unfold State.putBench64
  try dsimp only
  repeat' first
    | exact (rfl : Nat.land _ _ = _)
    | with_reducible first
      | assumption | apply Kept.refl | apply Kept.step (State.attachCmd_kept ..) | apply Kept.step (State.modNotices_kept ..)
      | apply Kept.step (State.modTrace_kept ..) | apply Kept.step (State.putRing64_kept ..) | apply Kept.step (State.modBench_kept ..)
      | apply Kept.step (State.countBench_kept ..) | apply Kept.ite
    | dsimp only
    | split

theorem benchMap_keeps (b : Nat) : (benchMap b).Keeps 0x96f7cbe27 :=
  ⟨fun s o v => (State.putBench_kept s b o v).mono rfl, fun s o v => (State.putBench64_kept s b o v).mono rfl, fun _ _ _ => .refl _ _,
    fun _ _ => .refl _ _, fun s => (State.countBench_kept s b).mono rfl,
    fun s v => (State.modBench_kept s b fun x => { x with staged := v }).mono rfl⟩

theorem State.benchRead_kept {M : Nat} (s : State) (m : RegMap) (h : m.Keeps M) (b : Nat) (quiet : Bool) (a : RegAccess) :
    Kept M s (State.benchRead s m b quiet a).2 := by
  unfold State.benchRead
  dsimp only
  repeat' split
  · exact .refl _ _
  · exact m.read_kept h ..
  · exact m.read_kept h ..

theorem State.benchWriteAt_kept (s : State) (b : Nat) (a : RegAccess) : Kept 0x96f7cbe27 s (State.benchWriteAt s b a) := by
  unfold State.benchWriteAt
  try dsimp only
  repeat' first
    | exact (rfl : Nat.land _ _ = _)
    | with_reducible first
      | assumption | apply Kept.refl | apply Kept.step (State.countHub_kept ..) | apply Kept.step (State.countBench_kept ..)
      | apply Kept.step (RegMap.write_kept (h := benchMap_keeps _) ..) | apply Kept.step (State.unstage_kept ..) | apply Kept.ite
    | dsimp only
    | split

end Sys2Proof.Machine
end

