-- ==== Sys2Proof/Laws/Kept/Burl.lean ====
section
/-!
SUPPORT. What the operations and commands of Machine/Burl.lean keep.
-/

namespace Sys2Proof.Machine

theorem State.loads_kept (s : State) (b : Nat) (o p : Operand) (i j n m : Nat) {t : State}
    (e : ((State.load s b o i n).bind fun t => State.load t b p j m) = some t) : Kept 0x121008000 s t := by
  obtain ⟨u, h, k⟩ := Option.bind_eq_some_iff.mp e
  exact ((State.load_kept (e := h) ..).mono rfl).trans ((State.load_kept (e := k) ..).mono rfl)

theorem State.checkAnneal_kept (s : State) (b r : Nat) (d : Desc) (y : List Byte) : Kept 0xc6700222 s (State.checkAnneal s b r d y) := by
  unfold State.checkAnneal
  try dsimp only
  repeat' first
    | exact (rfl : Nat.land _ _ = _)
    | (intro _; try dsimp only)
    | with_reducible first
      | assumption | apply Kept.refl | apply Kept.step (State.addJob_kept ..)
      | apply Kept.step (State.tryAdmit_kept ..)
      | apply Kept.step (State.endPlain_kept ..) | apply Kept.ite
    | dsimp only
    | split

theorem execAnneal_kept (bench ring : Nat) (block : LoadResult) (s : State) : KeptR 0x1e770b226 s (execAnneal bench ring block s) := by
  unfold execAnneal
  try dsimp only
  repeat' first
    | exact (rfl : Nat.land _ _ = _)
    | (intro _; try dsimp only)
    | with_reducible first
      | assumption | apply Kept.refl | apply KeptR.next | apply Kept.mapGetD | apply Kept.step (State.checkAnneal_kept ..)
      | apply Kept.step (State.meetObstacle_kept ..) | apply Kept.step (State.endPlain_kept ..)
      | apply Kept.step (State.begin_kept (e := by assumption) ..) | apply Kept.step (State.load_kept (e := by assumption) ..)
      | apply Kept.step (State.logLoad_kept ..) | apply Kept.step (State.engineCharge_kept ..) | apply Kept.step (State.giveUp_kept ..)
      | apply Kept.step (State.endDesc_kept ..) | apply Kept.ite | apply KeptR.ite
    | dsimp only
    | split

theorem execAnnealAdmit_kept (bench ring : Nat) (refused : List Nat) (s : State) : KeptR 0x1e7700000 s (execAnnealAdmit bench ring refused s) := by
  unfold execAnnealAdmit
  try dsimp only
  repeat' first
    | exact (rfl : Nat.land _ _ = _)
    | (intro _; try dsimp only)
    | with_reducible first
      | assumption | apply Kept.refl | apply KeptR.next | apply Kept.step (State.tryAdmit_kept ..)
      | apply Kept.step (State.endUnrun_kept ..) | apply Kept.step (State.endStrips_kept ..) | apply Kept.ite | apply KeptR.ite
    | dsimp only
    | split

theorem execAnnealLoadDone_kept (bench ring : Nat) (result : LoadResult) (s : State) :
    KeptR 0x16770b226 s (execAnnealLoadDone bench ring result s) := by
  unfold execAnnealLoadDone
  try dsimp only
  repeat' first
    | exact (rfl : Nat.land _ _ = _)
    | with_reducible first
      | assumption | apply Kept.refl | apply KeptR.next | apply Kept.step (State.dropJob_kept ..) | apply Kept.step (State.runJob_kept ..)
      | apply Kept.step (State.meetObstacle_kept ..) | apply Kept.step (State.load_kept (e := by assumption) ..)
      | apply Kept.step (State.loads_kept (e := by assumption) ..) | apply Kept.step (State.logLoad_kept ..)
      | apply Kept.step (State.engineCharge_kept ..) | apply Kept.step (State.endDesc_kept ..) | apply Kept.ite | apply KeptR.ite
    | dsimp only
    | split

theorem execBurlMove_kept (lattice : Bool) (s : State) : KeptR 0x167700000 s (execBurlMove lattice s) := by
  unfold execBurlMove
  try dsimp only
  repeat' first
    | exact (rfl : Nat.land _ _ = _)
    | with_reducible first
      | assumption | apply Kept.refl | apply KeptR.next | apply Kept.step (State.modEngine_kept ..)
      | apply Kept.step (State.moveSingle_kept ..) | apply Kept.step (State.moveStrip_kept ..) | apply Kept.step (State.countPerf_kept ..)
      | apply Kept.ite | apply KeptR.ite
    | dsimp only
    | split

theorem execBurlSliceEnd_kept (lattice : Bool) (s : State) : KeptR 0x2700000 s (execBurlSliceEnd lattice s) := by
  unfold execBurlSliceEnd
  try dsimp only
  repeat' first
    | exact (rfl : Nat.land _ _ = _)
    | with_reducible first
      | assumption | apply Kept.refl | apply KeptR.next | apply Kept.step (State.setJob_kept ..)
      | apply Kept.step (State.endSlice_kept ..) | apply Kept.ite | apply KeptR.ite
    | dsimp only
    | split

theorem execBurlCheckpointDone_kept (lattice : Bool) (s : State) : KeptR 0x6700000 s (execBurlCheckpointDone lattice s) := by
  unfold execBurlCheckpointDone
  try dsimp only
  repeat' first
    | exact (rfl : Nat.land _ _ = _)
    | with_reducible first
      | assumption | apply Kept.refl | apply KeptR.next | apply Kept.step (State.setJob_kept ..) | apply Kept.step (State.nextJob_kept ..)
      | apply Kept.ite | apply KeptR.ite
    | dsimp only
    | split

theorem execBurlHaloReceived_kept (home bench ring : Nat) (incarn : BitVec 16) (strip source sweep : Nat) (first last : List Bool) (energy : Int) (s : State) :
    KeptR 0x167700000 s (execBurlHaloReceived home bench ring incarn strip source sweep first last energy s) := by
  unfold execBurlHaloReceived
  try dsimp only
  repeat' first
    | exact (rfl : Nat.land _ _ = _)
    | with_reducible first
      | assumption | apply Kept.refl | apply KeptR.next | apply Kept.step (State.takeHalo_kept ..)
      | apply Kept.step (State.report_kept ..) | apply Kept.step (State.staleMessage_kept ..) | apply Kept.ite | apply KeptR.ite
    | dsimp only
    | split

theorem execAnnealWriteDone_kept (bench ring : Nat) (s : State) : KeptR 0x6700220 s (execAnnealWriteDone bench ring s) := by
  unfold execAnnealWriteDone
  try dsimp only
  repeat' first
    | exact (rfl : Nat.land _ _ = _)
    | with_reducible first
      | assumption | apply Kept.refl | apply KeptR.next | apply Kept.step (State.dropJob_kept ..)
      | apply Kept.step (State.endDesc_kept ..) | apply Kept.ite | apply KeptR.ite
    | dsimp only
    | split

theorem execStripAdmit_kept (home bench ring : Nat) (incarn : BitVec 16) (classId : Nat) (rateCap : BitVec 32) (strip : Nat) (job : JobSpec) (coef : List Byte) (init : List Bool) (s : State) :
    KeptR 0x127702002 s (execStripAdmit home bench ring incarn classId rateCap strip job coef init s) := by
  unfold execStripAdmit
  try dsimp only
  repeat' first
    | exact (rfl : Nat.land _ _ = _)
    | with_reducible first
      | assumption | apply Kept.refl | apply KeptR.next | apply Kept.step (State.addJob_kept ..) | apply Kept.step (State.nextJob_kept ..)
      | apply Kept.step (State.staleMessage_kept ..) | apply Kept.step (State.admitGuest_kept ..) | apply Kept.step (State.sendHub_kept ..)
      | apply Kept.step (Kept.pair (by assumption) (State.admitGuest_kept ..)) | apply Kept.step (State.addTally_kept ..) | apply Kept.ite
      | apply KeptR.ite
    | dsimp only
    | split

theorem execStripStateReturn_kept (bench ring : Nat) (incarn : BitVec 16) (strip : Nat) (best final : List Bool) (s : State) :
    KeptR 0x47700000 s (execStripStateReturn bench ring incarn strip best final s) := by
  unfold execStripStateReturn
  try dsimp only
  repeat' first
    | exact (rfl : Nat.land _ _ = _)
    | with_reducible first
      | assumption | apply Kept.refl | apply KeptR.next | apply Kept.step (State.stripReturn_kept ..)
      | apply Kept.step (State.staleMessage_kept ..) | apply Kept.ite | apply KeptR.ite
    | dsimp only
    | split

end Sys2Proof.Machine
end

