-- ==== Sys2Proof/Laws/Kept/Cascade.lean ====
section
/-!
SUPPORT. What the operations and commands of Machine/Cascade.lean keep.
-/

namespace Sys2Proof.Machine

theorem State.linkCame_kept (s : State) : Kept 0x121048002 s (State.linkCame s) := by
  have e24 : Nat.land 0x1000000 0x121048002 = 0x1000000 := rfl
  unfold State.linkCame
  try dsimp only
  repeat' first
    | exact (rfl : Nat.land _ _ = _)
    | with_reducible first
      | assumption | apply Kept.refl | apply Kept.step (State.settleRoutes_kept ..) | apply Kept.step (State.setRole_kept ..)
      | fail_if_no_progress refine Kept.madeCascade e24 ?_ | apply Kept.ite
    | dsimp only
    | split

theorem execElTrainingDone_kept (link : Nat) (result : ElResult) (s : State) : KeptR 0x121848002 s (execElTrainingDone link result s) := by
  unfold execElTrainingDone
  try dsimp only
  repeat' first
    | exact (rfl : Nat.land _ _ = _)
    | with_reducible first
      | assumption | apply Kept.refl | apply KeptR.next | apply Kept.step (State.linkCame_kept ..)
      | apply Kept.step (State.envanFail_kept ..) | apply Kept.step (State.modEnvan_kept ..) | apply Kept.step (State.stir_kept ..)
      | apply Kept.step (State.cancelDeadline_kept ..) | apply Kept.ite | apply KeptR.ite
    | dsimp only
    | split

theorem execElBackoffExpiry_kept (link : Nat) (s : State) : KeptR 0x800002 s (execElBackoffExpiry link s) := by
  unfold execElBackoffExpiry
  try dsimp only
  repeat' first
    | exact (rfl : Nat.land _ _ = _)
    | (intro _; try dsimp only)
    | with_reducible first
      | assumption | apply Kept.refl | apply KeptR.next | apply Kept.then (State.ownedBy_kept (hm := ?_) (hf := ?_) ..)
      | apply Kept.step (State.modEnvan_kept ..) | apply Kept.step (State.addDeadline_kept ..)
      | apply Kept.step (State.cancelDeadline_kept ..) | apply Kept.ite | apply KeptR.ite
    | dsimp only
    | split

theorem execElFlitSilence_kept (link : Nat) (s : State) : KeptR 0x121848002 s (execElFlitSilence link s) := by
  unfold execElFlitSilence
  try dsimp only
  repeat' first
    | exact (rfl : Nat.land _ _ = _)
    | with_reducible first
      | assumption | apply Kept.refl | apply KeptR.next | apply Kept.step (State.settleRoutes_kept ..)
      | apply Kept.step (State.setRole_kept ..) | apply Kept.step (State.modEnvan_kept ..) | apply Kept.ite | apply KeptR.ite
    | dsimp only
    | split

theorem execPresenceSend_kept (s : State) : KeptR 0x121000000 s (execPresenceSend s) := by
  unfold execPresenceSend
  try dsimp only
  repeat' first
    | exact (rfl : Nat.land _ _ = _)
    | with_reducible first
      | assumption | apply Kept.refl | apply KeptR.next | apply Kept.step (State.sendPresence_kept ..) | apply Kept.ite | apply KeptR.ite
    | dsimp only
    | split

theorem execPresenceReceived_kept (hub : Nat) (inst : BitVec 64) (eligible : Bool) (epoch : BitVec 64) (refusal : BitVec 3) (s : State) :
    KeptR 0x1000000 s (execPresenceReceived hub inst eligible epoch refusal s) := by
  have e24 : Nat.land 0x1000000 0x1000000 = 0x1000000 := rfl
  unfold execPresenceReceived
  try dsimp only
  repeat' first
    | exact (rfl : Nat.land _ _ = _)
    | (intro _; try dsimp only)
    | with_reducible first
      | assumption | apply Kept.refl | apply KeptR.next | apply Kept.mapGetD | fail_if_no_progress refine Kept.madeCascade e24 ?_
      | apply Kept.ite | apply KeptR.ite
    | dsimp only
    | split

theorem State.hubSilent_kept (s : State) (hub : Nat) : Kept 0x1000002 s (State.hubSilent s hub) := by
  have e24 : Nat.land 0x1000000 0x1000002 = 0x1000000 := rfl
  unfold State.hubSilent
  try dsimp only
  repeat' first
    | exact (rfl : Nat.land _ _ = _)
    | with_reducible first
      | assumption | apply Kept.refl | apply Kept.step (State.setRole_kept ..) | fail_if_no_progress refine Kept.madeCascade e24 ?_
      | apply Kept.ite
    | dsimp only
    | split

theorem execHubSilent_kept (hub : Nat) (s : State) : KeptR 0x1000002 s (execHubSilent hub s) := by
  unfold execHubSilent
  try dsimp only
  repeat' first
    | exact (rfl : Nat.land _ _ = _)
    | (intro _; try dsimp only)
    | with_reducible first
      | assumption | apply Kept.refl | apply KeptR.next | apply Kept.step (State.hubSilent_kept ..)
      | apply Kept.then (State.ownedBy_kept (hm := ?_) (hf := ?_) ..) | apply Kept.ite | apply KeptR.ite
    | dsimp only
    | split

theorem execMasterClaim_kept (s : State) : KeptR 0x1e772d236 s (execMasterClaim s) := by
  have e24 : Nat.land 0x1000000 0x1e772d236 = 0x1000000 := rfl
  unfold execMasterClaim
  try dsimp only
  repeat' first
    | exact (rfl : Nat.land _ _ = _)
    | (intro _; try dsimp only)
    | with_reducible first
      | assumption | apply Kept.refl | apply KeptR.next | apply Kept.mapGetD | apply Kept.step (State.hubsLost_kept ..)
      | apply Kept.step (State.keepReport_kept ..) | apply Kept.step (State.charterNotice_kept ..)
      | apply Kept.step (State.setRole_kept ..) | fail_if_no_progress refine Kept.madeCascade e24 ?_ | apply Kept.ite | apply KeptR.ite
    | dsimp only
    | split

theorem execCharterSend_kept (cables : List (Nat × Nat × Nat)) (s : State) : KeptR 0x5e777f374 s (execCharterSend cables s) := by
  have e24 : Nat.land 0x1000000 0x5e777f374 = 0x1000000 := rfl
  unfold execCharterSend
  try dsimp only
  repeat' first
    | exact (rfl : Nat.land _ _ = _)
    | (intro _; try dsimp only)
    | with_reducible first
      | assumption | apply Kept.refl | apply KeptR.next | apply Kept.mapGetD | apply Kept.step (State.settleRoutes_kept ..)
      | apply Kept.step (State.flood_kept ..) | apply Kept.step (State.hubsLost_kept ..) | apply Kept.step (State.settleRoster_kept ..)
      | apply Kept.step (State.keepReport_kept ..) | apply Kept.step (State.charterNotice_kept ..)
      | fail_if_no_progress refine Kept.madeCascade e24 ?_ | apply Kept.ite | apply KeptR.ite
    | dsimp only
    | split

theorem execCharterReceived_kept (charter : Charter) (s : State) : KeptR 0x5e7fffb77 s (execCharterReceived charter s) := by
  have e24 : Nat.land 0x1000000 0x5e7fffb77 = 0x1000000 := rfl
  unfold execCharterReceived
  try dsimp only
  repeat' first
    | exact (rfl : Nat.land _ _ = _)
    | with_reducible first
      | assumption | apply Kept.refl | apply KeptR.next | apply Kept.step (State.follow_kept ..) | apply Kept.step (State.refresh_kept ..)
      | apply Kept.step (State.logFault_kept ..) | fail_if_no_progress refine Kept.madeCascade e24 ?_ | apply Kept.ite | apply KeptR.ite
    | dsimp only
    | split

theorem execTimeStatementSend_kept (s : State) : KeptR 0x121000000 s (execTimeStatementSend s) := by
  unfold execTimeStatementSend
  try dsimp only
  repeat' first
    | exact (rfl : Nat.land _ _ = _)
    | with_reducible first
      | assumption | apply Kept.refl | apply KeptR.next | apply Kept.step (State.flood_kept ..) | apply Kept.ite | apply KeptR.ite
    | dsimp only
    | split

theorem execTimeStatementReceived_kept (statedNs delayNs : Nat) (s : State) : KeptR 0x1a78c8a27 s (execTimeStatementReceived statedNs delayNs s) := by
  unfold execTimeStatementReceived
  try dsimp only
  repeat' first
    | exact (rfl : Nat.land _ _ = _)
    | with_reducible first
      | assumption | apply Kept.refl | apply KeptR.next | apply Kept.step (State.discipline_kept ..) | apply Kept.ite | apply KeptR.ite
    | dsimp only
    | split

theorem execHearthTimeReport_kept (_hub : Nat) (time : BitVec 64) (s : State) : KeptR 0x1278c8a27 s (execHearthTimeReport _hub time s) := by
  have e24 : Nat.land 0x1000000 0x1278c8a27 = 0x1000000 := rfl
  unfold execHearthTimeReport
  try dsimp only
  repeat' first
    | exact (rfl : Nat.land _ _ = _)
    | with_reducible first
      | assumption | apply Kept.refl | apply KeptR.next | apply Kept.step (State.forwardStep_kept ..)
      | fail_if_no_progress refine Kept.madeCascade e24 ?_ | apply Kept.ite | apply KeptR.ite
    | dsimp only
    | split

theorem execDelayProbe_kept (link delayNs : Nat) (s : State) : KeptR 0x121800000 s (execDelayProbe link delayNs s) := by
  unfold execDelayProbe
  try dsimp only
  repeat' first
    | exact (rfl : Nat.land _ _ = _)
    | with_reducible first
      | assumption | apply Kept.refl | apply KeptR.next | apply Kept.step (State.modEnvan_kept ..)
      | apply Kept.step (State.sendHub_kept ..) | apply Kept.ite | apply KeptR.ite
    | dsimp only
    | split

theorem execRosterReport_kept (hub : Nat) (homes : List (Nat × BitVec 16)) (guests : List (Nat × Nat × BitVec 16)) (s : State) :
    KeptR 0x52777f364 s (execRosterReport hub homes guests s) := by
  unfold execRosterReport
  try dsimp only
  repeat' first
    | exact (rfl : Nat.land _ _ = _)
    | (intro _; try dsimp only)
    | with_reducible first
      | assumption | apply Kept.refl | apply KeptR.next | apply Kept.mapGetD | apply Kept.step (State.takeReport_kept ..)
      | apply Kept.step (State.settleRoster_kept ..) | apply Kept.ite | apply KeptR.ite
    | dsimp only
    | split

theorem execRosterUpdate_kept (seq : BitVec 64) (entries : List RosterEntry) (s : State) : KeptR 0x52777f364 s (execRosterUpdate seq entries s) := by
  have e24 : Nat.land 0x1000000 0x52777f364 = 0x1000000 := rfl
  unfold execRosterUpdate
  try dsimp only
  repeat' first
    | exact (rfl : Nat.land _ _ = _)
    | with_reducible first
      | assumption | apply Kept.refl | apply KeptR.next | apply Kept.step (State.actRoster_kept ..)
      | fail_if_no_progress refine Kept.madeCascade e24 ?_ | apply Kept.ite | apply KeptR.ite
    | dsimp only
    | split

theorem execBenchRegistration_kept (home bench : Nat) (incarn : BitVec 16) (classId : Nat) (rateCap : BitVec 32) (s : State) :
    KeptR 0x121000000 s (execBenchRegistration home bench incarn classId rateCap s) := by
  unfold execBenchRegistration
  try dsimp only
  repeat' first
    | exact (rfl : Nat.land _ _ = _)
    | (intro _; try dsimp only)
    | with_reducible first
      | assumption | apply Kept.refl | apply KeptR.next | apply Kept.mapGetD | apply Kept.step (State.spanBench_kept ..)
      | apply Kept.step (State.setRoster_kept ..) | apply Kept.ite | apply KeptR.ite
    | dsimp only
    | split

theorem State.grantGuest_kept (s : State) (home b : Nat) (incarn : BitVec 16) (classId : Nat) (rateCap : BitVec 32) (d off len room : Nat) :
    Kept 0x123002022 s (State.grantGuest s home b incarn classId rateCap d off len room) := by
  have e24 : Nat.land 0x1000000 0x123002022 = 0x1000000 := rfl
  unfold State.grantGuest
  try dsimp only
  repeat' first
    | exact (rfl : Nat.land _ _ = _)
    | with_reducible first
      | assumption | apply Kept.refl | apply Kept.step (State.takeGrant_kept ..) | apply Kept.step (State.answerGrant_kept ..)
      | apply Kept.step (State.admitGuest_kept ..) | apply Kept.step (Kept.pair (by assumption) (State.admitGuest_kept ..))
      | fail_if_no_progress refine Kept.madeCascade e24 ?_ | apply Kept.ite
    | dsimp only
    | split

theorem State.endGuestReturn_kept (s : State) (home o d off len : Nat) : Kept 0x121008000 s (State.endGuestReturn s home o d off len) := by
  unfold State.endGuestReturn
  try dsimp only
  repeat' first
    | exact (rfl : Nat.land _ _ = _)
    | with_reducible first
      | assumption | apply Kept.refl | apply Kept.step (State.answerGrant_kept ..) | apply Kept.step (State.sendDie_kept ..)
      | apply Kept.ite
    | dsimp only
    | split

theorem State.returnGuest_kept (s : State) (home g d off len : Nat) : Kept 0x12300a060 s (State.returnGuest s home g d off len) := by
  have e6 : Nat.land 0x40 0x12300a060 = 0x40 := rfl
  unfold State.returnGuest
  try dsimp only
  repeat' first
    | exact (rfl : Nat.land _ _ = _)
    | with_reducible first
      | assumption | apply Kept.refl | apply Kept.step (State.answerGrant_kept ..) | apply Kept.step (State.cutRange_kept ..)
      | apply Kept.step (State.endGuestReturn_kept ..) | fail_if_no_progress refine Kept.madeZeroFill e6 ?_ | apply Kept.ite
    | dsimp only
    | split

theorem execRemoteGrant_kept (home bench : Nat) (incarn : BitVec 16) (classId : Nat) (rateCap : BitVec 32) (giveBack : Bool) (die offset length room : Nat) (s : State) :
    KeptR 0x12300a062 s (execRemoteGrant home bench incarn classId rateCap giveBack die offset length room s) := by
  unfold execRemoteGrant
  try dsimp only
  repeat' first
    | exact (rfl : Nat.land _ _ = _)
    | with_reducible first
      | assumption | apply Kept.refl | apply KeptR.next | apply Kept.step (State.answerGrant_kept ..)
      | apply Kept.step (State.staleMessage_kept ..) | apply Kept.step (State.grantGuest_kept ..)
      | apply Kept.step (State.returnGuest_kept ..) | apply Kept.ite | apply KeptR.ite
    | dsimp only
    | split

theorem execRemoteGrantResult_kept (result : BitVec 8) (s : State) : KeptR 0x1000034 s (execRemoteGrantResult result s) := by
  have e24 : Nat.land 0x1000000 0x1000034 = 0x1000000 := rfl
  unfold execRemoteGrantResult
  try dsimp only
  repeat' first
    | exact (rfl : Nat.land _ _ = _)
    | with_reducible first
      | assumption | apply Kept.refl | apply KeptR.next | apply Kept.step (State.endCommand_kept ..)
      | apply Kept.step (State.modBench_kept ..) | fail_if_no_progress refine Kept.madeCascade e24 ?_ | apply Kept.ite | apply KeptR.ite
    | dsimp only
    | split

theorem execRemoteSweep_kept (home bench : Nat) (incarn : BitVec 16) (release : Bool) (s : State) :
    KeptR 0x52777f264 s (execRemoteSweep home bench incarn release s) := by
  unfold execRemoteSweep
  try dsimp only
  repeat' first
    | exact (rfl : Nat.land _ _ = _)
    | (intro _; try dsimp only)
    | with_reducible first
      | assumption | apply Kept.refl | apply KeptR.next | apply Kept.mapGetD | apply Kept.step (State.cutGuest_kept ..) | apply Kept.ite
      | apply KeptR.ite
    | dsimp only
    | split

theorem State.remoteToDie_kept (s : State) (sender home b id d off len : Nat) (held write : Bool) (data : List (Byte × Bool)) :
    Kept 0x121029000 s (State.remoteToDie s sender home b id d off len held write data) := by
  have e17 : Nat.land 0x20000 0x121029000 = 0x20000 := rfl
  unfold State.remoteToDie
  try dsimp only
  repeat' first
    | exact (rfl : Nat.land _ _ = _)
    | (intro _; try dsimp only)
    | with_reducible first
      | assumption | apply Kept.refl | apply Kept.mapGetD | apply Kept.step (State.sendHub_kept ..)
      | apply Kept.step (State.askDie_kept ..) | fail_if_no_progress refine Kept.madeRemotes e17 ?_ | apply Kept.ite
    | dsimp only
    | split

theorem execEnvanDataRequest_kept (sender home bench : Nat) (incarn : BitVec 16) (id : Nat) (request : DataRequest) (s : State) :
    KeptR 0x167769024 s (execEnvanDataRequest sender home bench incarn id request s) := by
  unfold execEnvanDataRequest
  try dsimp only
  repeat' first
    | exact (rfl : Nat.land _ _ = _)
    | with_reducible first
      | assumption | apply Kept.refl | apply KeptR.next | apply Kept.step (State.holdFor_kept ..)
      | apply Kept.step (State.dropJob_kept ..) | apply Kept.step (State.stripBest_kept ..) | apply Kept.step (State.stripStop_kept ..)
      | apply Kept.step (State.staleMessage_kept ..) | apply Kept.step (State.remoteToDie_kept ..)
      | apply Kept.step (State.modPlacement_kept ..) | apply Kept.step (State.sendHub_kept ..) | apply Kept.step (State.hubIn_kept ..)
      | apply Kept.step (State.loadBytes_kept ..) | apply Kept.step (State.stopPlacement_kept ..) | apply Kept.ite | apply KeptR.ite
    | dsimp only
    | split

theorem execCharterSnapshot_kept (offset : BitVec 32) (s : State) : KeptR 0x1000001 s (execCharterSnapshot offset s) := by
  unfold execCharterSnapshot
  try dsimp only
  repeat' first
    | exact (rfl : Nat.land _ _ = _)
    | (intro _; try dsimp only)
    | with_reducible first
      | assumption | apply Kept.refl | apply KeptR.next | apply Kept.step (State.snapCharter_kept ..)
      | apply Kept.then (State.fromMgmt_kept (hm := ?_) (hf := ?_) ..)

end Sys2Proof.Machine
end

