-- ==== Sys2Proof/Laws/Kept/Debug.lean ====
section
/-!
SUPPORT. What the operations and commands of Machine/Debug.lean keep.
-/

namespace Sys2Proof.Machine

theorem State.dapRefuse_kept (s : State) : Kept 0x10000000 s (State.dapRefuse s) := by
  unfold State.dapRefuse
  try dsimp only
  repeat' first
    | exact (rfl : Nat.land _ _ = _)
    | exact fun _ => rfl
    | with_reducible first
      | assumption | apply Kept.refl | apply Kept.step (State.modDebug_kept (hf := ?_) ..)

theorem State.granted_kept (s : State) (ok : Bool) (f : State → State) {M : Nat} (hm : Nat.land 0x10000000 M = 0x10000000) (hf : ∀ s, Kept M s (f s)) :
    Kept M s (State.granted s ok f) := by
  unfold State.granted
  try dsimp only
  repeat' first
    | exact (rfl : Nat.land _ _ = _)
    | exact land_trans (k := 0x10000000) rfl hm
    | with_reducible first
      | assumption | apply Kept.refl | apply Kept.then (hf ..) | apply Kept.step (State.dapRefuse_kept ..) | apply Kept.ite
    | dsimp only
    | split

theorem State.dapRead_kept (s : State) (space addr : Nat) : Kept 0x130009000 s (State.dapRead s space addr) := by
  unfold State.dapRead
  try dsimp only
  repeat' first
    | exact (rfl : Nat.land _ _ = _)
    | exact fun _ => rfl
    | with_reducible first
      | assumption | apply Kept.refl | apply Kept.step (State.emit_kept ..) | apply Kept.step (State.askDie_kept ..)
      | apply Kept.step (State.modDebug_kept (hf := ?_) ..) | apply Kept.ite
    | dsimp only
    | split

theorem State.dapMemory_kept (s : State) (space : BitVec 2) (addr : BitVec 64) : Kept 0x130009000 s (State.dapMemory s space addr) := by
  unfold State.dapMemory
  try dsimp only
  repeat' first
    | exact (rfl : Nat.land _ _ = _)
    | exact fun _ => rfl
    | (intro _; try dsimp only)
    | with_reducible first
      | assumption | apply Kept.refl | apply Kept.then (State.granted_kept (hm := ?_) (hf := ?_) ..)
      | apply Kept.step (State.dapRead_kept ..) | apply Kept.step (State.modDebug_kept (hf := ?_) ..) | apply Kept.ite
    | dsimp only
    | split

theorem execDapMemoryRead_kept (space : BitVec 2) (addr : BitVec 64) (s : State) : KeptR 0x130009000 s (execDapMemoryRead space addr s) := by
  unfold execDapMemoryRead
  try dsimp only
  repeat' first
    | exact (rfl : Nat.land _ _ = _)
    | with_reducible first
      | assumption | apply Kept.refl | apply KeptR.next | apply Kept.step (State.dapMemory_kept ..)

theorem execDapMemoryData_kept (data : Option (List Byte)) (s : State) : KeptR 0x130009000 s (execDapMemoryData data s) := by
  unfold execDapMemoryData
  try dsimp only
  repeat' first
    | exact (rfl : Nat.land _ _ = _)
    | exact fun _ => rfl
    | with_reducible first
      | assumption | apply Kept.refl | apply KeptR.next | apply Kept.step (State.portDone_kept ..)
      | apply Kept.step (State.modDebug_kept (hf := ?_) ..) | apply Kept.ite | apply KeptR.ite
    | dsimp only
    | split

theorem State.nameWhittler_kept (s : State) (w : Nat) : Kept 0x10000000 s (State.nameWhittler s w) := by
  unfold State.nameWhittler
  try dsimp only
  repeat' first
    | exact (rfl : Nat.land _ _ = _)
    | exact fun _ => rfl
    | with_reducible first
      | assumption | apply Kept.refl | apply Kept.step (State.modDebug_kept (hf := ?_) ..)

theorem State.loadReg_kept (s : State) : Kept 0x90000000 s (State.loadReg s) := by
  unfold State.loadReg
  try dsimp only
  repeat' first
    | exact (rfl : Nat.land _ _ = _)
    | exact fun _ => rfl
    | with_reducible first
      | assumption | apply Kept.refl | apply Kept.step (State.draw_kept ..)
      | apply Kept.step (Kept.pair (by assumption) (State.draw_kept ..)) | apply Kept.step (State.modDebug_kept (hf := ?_) ..)
      | apply Kept.ite
    | dsimp only
    | split

theorem State.putReg_kept (s : State) (v : BitVec 64) : Kept 0x10000000 s (State.putReg s v) := by
  unfold State.putReg
  try dsimp only
  repeat' first
    | exact (rfl : Nat.land _ _ = _)
    | exact fun _ => rfl
    | with_reducible first
      | assumption | apply Kept.refl | apply Kept.step (State.modDebug_kept (hf := ?_) ..)

theorem State.regsRun_kept (s : State) (w : Nat) : Kept 0x10000000 s (State.regsRun s w) := by
  unfold State.regsRun
  try dsimp only
  repeat' first
    | exact (rfl : Nat.land _ _ = _)
    | exact fun _ => rfl
    | with_reducible first
      | assumption | apply Kept.refl | apply Kept.step (State.modDebug_kept (hf := ?_) ..)

theorem State.haltFor_kept (s : State) (w : Nat) (locks : List LockHeld) : Kept 0x16002026 s (State.haltFor s w locks) := by
  unfold State.haltFor
  try dsimp only
  repeat' first
    | exact (rfl : Nat.land _ _ = _)
    | with_reducible first
      | assumption | apply Kept.refl | apply Kept.step (State.dapRefuse_kept ..) | apply Kept.step (State.haltWhittler_kept ..)
      | apply Kept.ite
    | dsimp only
    | split

theorem execWhittlerHalt_kept (whittler : Nat) (locks : List LockHeld) (s : State) : KeptR 0x96002026 s (execWhittlerHalt whittler locks s) := by
  unfold execWhittlerHalt
  try dsimp only
  repeat' first
    | exact (rfl : Nat.land _ _ = _)
    | (intro _; try dsimp only)
    | with_reducible first
      | assumption | apply Kept.refl | apply KeptR.next | apply Kept.then (State.granted_kept (hm := ?_) (hf := ?_) ..)
      | apply Kept.step (State.nameWhittler_kept ..) | apply Kept.step (State.loadReg_kept ..) | apply Kept.step (State.haltFor_kept ..)

theorem State.stepWhittler_kept (s : State) (w : Nat) : Kept 0x10000000 s (State.stepWhittler s w) := by
  unfold State.stepWhittler
  try dsimp only
  repeat' first
    | exact (rfl : Nat.land _ _ = _)
    | with_reducible first
      | assumption | apply Kept.refl | apply Kept.step (State.regsRun_kept ..) | apply Kept.ite
    | dsimp only
    | split

theorem State.letRun_kept (s : State) (w : Nat) : Kept 0x12002026 s (State.letRun s w) := by
  unfold State.letRun
  try dsimp only
  repeat' first
    | exact (rfl : Nat.land _ _ = _)
    | with_reducible first
      | assumption | apply Kept.refl | apply Kept.step (State.regsRun_kept ..) | apply Kept.step (State.resumeWhittler_kept ..)
      | apply Kept.ite
    | dsimp only
    | split

theorem execWhittlerStep_kept (whittler : Nat) (s : State) : KeptR 0x90000000 s (execWhittlerStep whittler s) := by
  unfold execWhittlerStep
  try dsimp only
  repeat' first
    | exact (rfl : Nat.land _ _ = _)
    | (intro _; try dsimp only)
    | with_reducible first
      | assumption | apply Kept.refl | apply KeptR.next | apply Kept.then (State.granted_kept (hm := ?_) (hf := ?_) ..)
      | apply Kept.step (State.nameWhittler_kept ..) | apply Kept.step (State.loadReg_kept ..)
      | apply Kept.step (State.stepWhittler_kept ..)

theorem execWhittlerResume_kept (whittler : Nat) (s : State) : KeptR 0x92002026 s (execWhittlerResume whittler s) := by
  unfold execWhittlerResume
  try dsimp only
  repeat' first
    | exact (rfl : Nat.land _ _ = _)
    | (intro _; try dsimp only)
    | with_reducible first
      | assumption | apply Kept.refl | apply KeptR.next | apply Kept.then (State.granted_kept (hm := ?_) (hf := ?_) ..)
      | apply Kept.step (State.nameWhittler_kept ..) | apply Kept.step (State.loadReg_kept ..) | apply Kept.step (State.letRun_kept ..)

theorem State.putHonour_kept (s : State) (w : Nat) (honour : Bool) : Kept 0x2002026 s (State.putHonour s w honour) := by
  unfold State.putHonour
  try dsimp only
  repeat' first
    | exact (rfl : Nat.land _ _ = _)
    | with_reducible first
      | assumption | apply Kept.refl | apply Kept.step (State.modWhittler_kept ..) | apply Kept.step (State.modLocks_kept ..)
      | apply Kept.ite
    | dsimp only
    | split

theorem execWhittlerHonour_kept (whittler : Nat) (honour : Bool) (s : State) : KeptR 0x12002026 s (execWhittlerHonour whittler honour s) := by
  unfold execWhittlerHonour
  try dsimp only
  repeat' first
    | exact (rfl : Nat.land _ _ = _)
    | (intro _; try dsimp only)
    | with_reducible first
      | assumption | apply Kept.refl | apply KeptR.next | apply Kept.then (State.granted_kept (hm := ?_) (hf := ?_) ..)
      | apply Kept.step (State.nameWhittler_kept ..) | apply Kept.step (State.putHonour_kept ..)

theorem execDebugCtrlWrite_kept (value : BitVec 32) (s : State) : KeptR 0x12002027 s (execDebugCtrlWrite value s) := by
  unfold execDebugCtrlWrite
  try dsimp only
  repeat' first
    | exact (rfl : Nat.land _ _ = _)
    | (intro _; try dsimp only)
    | with_reducible first
      | assumption | apply Kept.refl | apply KeptR.next | apply Kept.then (State.fromMgmt_kept (hm := ?_) (hf := ?_) ..)
      | apply Kept.step (State.putDebugCtrl_kept ..)

end Sys2Proof.Machine
end

