-- ==== Sys2Proof/Laws/Kept/Descriptors.lean ====
section
/-!
SUPPORT. What the operations and commands of Machine/Descriptors.lean keep.
-/

namespace Sys2Proof.Machine

theorem execCopy_kept (bench ring : Nat) (s : State) : KeptR 0x22002224 s (execCopy bench ring s) := by
  unfold execCopy
  try dsimp only
  repeat' first
    | exact (rfl : Nat.land _ _ = _)
    | with_reducible first
      | assumption | apply Kept.refl | apply KeptR.next | apply Kept.step (State.breadcrumb_kept ..)
      | apply Kept.step (State.advance_kept ..) | apply Kept.step (State.startDesc_kept ..)
    | dsimp only
    | split

theorem State.startIndexed_kept (s : State) (b r op : Nat) (index : List Nat) : Kept 0x121008024 s (State.startIndexed s b r op index) := by
  unfold State.startIndexed
  try dsimp only
  repeat' first
    | exact (rfl : Nat.land _ _ = _)
    | with_reducible first
      | assumption | apply Kept.refl | apply Kept.step (State.begin_kept (e := by assumption) ..)
      | apply Kept.step (State.readIndex_kept ..)
    | dsimp only
    | split

theorem execGather_kept (bench ring : Nat) (index : List Nat) (s : State) : KeptR 0x121008024 s (execGather bench ring index s) := by
  unfold execGather
  try dsimp only
  repeat' first
    | exact (rfl : Nat.land _ _ = _)
    | with_reducible first
      | assumption | apply Kept.refl | apply KeptR.next | apply Kept.step (State.startIndexed_kept ..)

theorem execScatter_kept (bench ring : Nat) (index : List Nat) (s : State) : KeptR 0x121008024 s (execScatter bench ring index s) := by
  unfold execScatter
  try dsimp only
  repeat' first
    | exact (rfl : Nat.land _ _ = _)
    | with_reducible first
      | assumption | apply Kept.refl | apply KeptR.next | apply Kept.step (State.startIndexed_kept ..)

theorem State.startData_kept (s : State) (b r op : Nat) : Kept 0x2000224 s (State.startData s b r op) := by
  unfold State.startData
  try dsimp only
  repeat' first
    | exact (rfl : Nat.land _ _ = _)
    | with_reducible first
      | assumption | apply Kept.refl | apply Kept.step (State.advance_kept ..) | apply Kept.step (State.startDesc_kept ..)
    | dsimp only
    | split

theorem execFill_kept (bench ring : Nat) (s : State) : KeptR 0x2000224 s (execFill bench ring s) := by
  unfold execFill
  try dsimp only
  repeat' first
    | exact (rfl : Nat.land _ _ = _)
    | with_reducible first
      | assumption | apply Kept.refl | apply KeptR.next | apply Kept.step (State.startData_kept ..)

theorem execCompare_kept (bench ring : Nat) (s : State) : KeptR 0x2000224 s (execCompare bench ring s) := by
  unfold execCompare
  try dsimp only
  repeat' first
    | exact (rfl : Nat.land _ _ = _)
    | with_reducible first
      | assumption | apply Kept.refl | apply KeptR.next | apply Kept.step (State.startData_kept ..)

theorem execAcquire_kept (bench ring : Nat) (s : State) : KeptR 0x224 s (execAcquire bench ring s) := by
  unfold execAcquire
  try dsimp only
  repeat' first
    | exact (rfl : Nat.land _ _ = _)
    | with_reducible first
      | assumption | apply Kept.refl | apply KeptR.next | apply Kept.step (State.endPlain_kept ..)
      | apply Kept.step (State.modRing_kept ..) | apply Kept.step (State.startDesc_kept ..)
    | dsimp only
    | split

theorem execFence_kept (bench ring : Nat) (s : State) : KeptR 0x224 s (execFence bench ring s) := by
  unfold execFence
  try dsimp only
  repeat' first
    | exact (rfl : Nat.land _ _ = _)
    | with_reducible first
      | assumption | apply Kept.refl | apply KeptR.next | apply Kept.step (State.endPlain_kept ..)
      | apply Kept.step (State.begin_kept (e := by assumption) ..) | apply Kept.ite | apply KeptR.ite
    | dsimp only
    | split

theorem execEventWait_kept (bench ring : Nat) (s : State) : KeptR 0x2000224 s (execEventWait bench ring s) := by
  unfold execEventWait
  try dsimp only
  repeat' first
    | exact (rfl : Nat.land _ _ = _)
    | with_reducible first
      | assumption | apply Kept.refl | apply KeptR.next | apply Kept.step (State.endPlain_kept ..)
      | apply Kept.step (State.modDesc_kept ..) | apply Kept.step (State.giveUp_kept ..) | apply Kept.step (State.startDesc_kept ..)
      | apply Kept.ite | apply KeptR.ite
    | dsimp only
    | split

theorem execEventWaitSatisfied_kept (bench ring : Nat) (s : State) : KeptR 0x620 s (execEventWaitSatisfied bench ring s) := by
  unfold execEventWaitSatisfied
  try dsimp only
  repeat' first
    | exact (rfl : Nat.land _ _ = _)
    | with_reducible first
      | assumption | apply Kept.refl | apply KeptR.next | apply Kept.step (State.endPlain_kept ..)
      | apply Kept.step (State.lineOp_kept ..) | apply Kept.ite | apply KeptR.ite
    | dsimp only
    | split

theorem execEventSignal_kept (bench ring : Nat) (s : State) : KeptR 0x624 s (execEventSignal bench ring s) := by
  unfold execEventSignal
  try dsimp only
  repeat' first
    | exact (rfl : Nat.land _ _ = _)
    | with_reducible first
      | assumption | apply Kept.refl | apply KeptR.next | apply Kept.step (State.endPlain_kept ..)
      | apply Kept.step (State.lineOp_kept ..) | apply Kept.step (State.startDesc_kept ..) | apply Kept.ite | apply KeptR.ite
    | dsimp only
    | split

theorem execPrefetch_kept (bench ring : Nat) (s : State) : KeptR 0x20006224 s (execPrefetch bench ring s) := by
  unfold execPrefetch
  try dsimp only
  repeat' first
    | exact (rfl : Nat.land _ _ = _)
    | with_reducible first
      | assumption | apply Kept.refl | apply KeptR.next | apply Kept.step (State.endPlain_kept ..)
      | apply Kept.step (State.pumpPrefetch_kept ..) | apply Kept.step (State.endDesc_kept ..) | apply Kept.step (State.startDesc_kept ..)
      | apply Kept.ite | apply KeptR.ite
    | dsimp only
    | split

theorem execAdvise_kept (bench ring : Nat) (s : State) : KeptR 0x224 s (execAdvise bench ring s) := by
  unfold execAdvise
  try dsimp only
  repeat' first
    | exact (rfl : Nat.land _ _ = _)
    | with_reducible first
      | assumption | apply Kept.refl | apply KeptR.next | apply Kept.step (State.endPlain_kept ..)
      | apply Kept.step (State.adviseFrom_kept ..) | apply Kept.step (Kept.pair (by assumption) (State.adviseFrom_kept ..))
      | apply Kept.step (State.endDesc_kept ..) | apply Kept.step (State.startDesc_kept ..) | apply Kept.ite | apply KeptR.ite
    | dsimp only
    | split

theorem execBilletAlloc_kept (bench ring : Nat) (s : State) : KeptR 0x42000224 s (execBilletAlloc bench ring s) := by
  unfold execBilletAlloc
  try dsimp only
  repeat' first
    | exact (rfl : Nat.land _ _ = _)
    | with_reducible first
      | assumption | apply Kept.refl | apply KeptR.next | apply Kept.step (State.endPlain_kept ..)
      | apply Kept.step (State.begin_kept (e := by assumption) ..) | apply Kept.step (State.allocBillet_kept ..) | apply Kept.ite
      | apply KeptR.ite
    | dsimp only
    | split

theorem execBilletFree_kept (bench ring : Nat) (s : State) : KeptR 0x2002224 s (execBilletFree bench ring s) := by
  unfold execBilletFree
  try dsimp only
  repeat' first
    | exact (rfl : Nat.land _ _ = _)
    | with_reducible first
      | assumption | apply Kept.refl | apply KeptR.next | apply Kept.step (State.freeRows_kept ..)
      | apply Kept.step (State.settleWaits_kept ..) | apply Kept.step (State.startDesc_kept ..) | apply Kept.ite | apply KeptR.ite
    | dsimp only
    | split

end Sys2Proof.Machine
end

