-- ==== Sys2Proof/Laws/Kept/Flash.lean ====
section
/-!
SUPPORT. What the operations and commands of Machine/Flash.lean keep.
-/

namespace Sys2Proof.Machine

theorem State.modFlash_kept (s : State) (f : FlashIf → FlashIf) : Kept 0x1 s (State.modFlash s f) := by
  have e0 : Nat.land 0x1 0x1 = 0x1 := rfl
  unfold State.modFlash
  try dsimp only
  repeat' first
    | exact (rfl : Nat.land _ _ = _)
    | with_reducible first
      | assumption | apply Kept.refl | fail_if_no_progress refine Kept.madeChip rfl rfl rfl e0 ?_

theorem State.flashCmd_kept (s : State) (op : Nat) (slotB : Bool) (len : Nat) : Kept 0x100000001 s (State.flashCmd s op slotB len) := by
  unfold State.flashCmd
  try dsimp only
  repeat' first
    | exact (rfl : Nat.land _ _ = _)
    | with_reducible first
      | assumption | apply Kept.refl | apply Kept.step (State.modFlash_kept ..) | apply Kept.step (State.spi_kept ..)
      | apply Kept.step (State.emit_kept ..) | apply Kept.step (State.countHub_kept ..) | apply Kept.ite
    | dsimp only
    | split

theorem execFlashRead_kept (slotB : Bool) (length : Nat) (s : State) : KeptR 0x100000001 s (execFlashRead slotB length s) := by
  unfold execFlashRead
  try dsimp only
  repeat' first
    | exact (rfl : Nat.land _ _ = _)
    | (intro _; try dsimp only)
    | with_reducible first
      | assumption | apply Kept.refl | apply KeptR.next | apply Kept.step (State.flashCmd_kept ..)
      | apply Kept.then (State.fromMgmt_kept (hm := ?_) (hf := ?_) ..)

theorem execFlashProgram_kept (slotB : Bool) (length : Nat) (s : State) : KeptR 0x100000001 s (execFlashProgram slotB length s) := by
  unfold execFlashProgram
  try dsimp only
  repeat' first
    | exact (rfl : Nat.land _ _ = _)
    | (intro _; try dsimp only)
    | with_reducible first
      | assumption | apply Kept.refl | apply KeptR.next | apply Kept.step (State.flashCmd_kept ..)
      | apply Kept.then (State.fromMgmt_kept (hm := ?_) (hf := ?_) ..)

theorem execFlashErase4k_kept (slotB : Bool) (s : State) : KeptR 0x100000001 s (execFlashErase4k slotB s) := by
  unfold execFlashErase4k
  try dsimp only
  repeat' first
    | exact (rfl : Nat.land _ _ = _)
    | (intro _; try dsimp only)
    | with_reducible first
      | assumption | apply Kept.refl | apply KeptR.next | apply Kept.step (State.flashCmd_kept ..)
      | apply Kept.then (State.fromMgmt_kept (hm := ?_) (hf := ?_) ..)

theorem execFlashCmdDone_kept (data : List Byte) (s : State) : KeptR 0x1 s (execFlashCmdDone data s) := by
  unfold execFlashCmdDone
  try dsimp only
  repeat' first
    | exact (rfl : Nat.land _ _ = _)
    | with_reducible first
      | assumption | apply Kept.refl | apply KeptR.next | apply Kept.step (State.modFlash_kept ..) | apply Kept.ite | apply KeptR.ite
    | dsimp only
    | split

theorem execFlashCmdTimeout_kept (s : State) : KeptR 0x1 s (execFlashCmdTimeout s) := by
  unfold execFlashCmdTimeout
  try dsimp only
  repeat' first
    | exact (rfl : Nat.land _ _ = _)
    | with_reducible first
      | assumption | apply Kept.refl | apply KeptR.next | apply Kept.step (State.modFlash_kept ..) | apply Kept.ite | apply KeptR.ite
    | dsimp only
    | split

end Sys2Proof.Machine
end

