-- ==== Sys2Proof/Laws/Kept/Headstock.lean ====
section
/-!
SUPPORT. What the operations and commands of Machine/Headstock.lean keep.
-/

namespace Sys2Proof.Machine

theorem execMissSlotGrant_kept (s : State) : KeptR 0x22003224 s (execMissSlotGrant s) := by
  have e13 : Nat.land 0x2000 0x22003224 = 0x2000 := rfl
  unfold execMissSlotGrant
  try dsimp only
  repeat' first
    | exact (rfl : Nat.land _ _ = _)
    | with_reducible first
      | assumption | apply Kept.refl | apply KeptR.next | apply Kept.step (State.pumpAts_kept ..)
      | apply Kept.step (State.addTally_kept ..) | apply Kept.step (State.arbitrate_kept ..)
      | apply Kept.step (Kept.pair (by assumption) (State.arbitrate_kept ..)) | apply Kept.step (State.charge_kept ..)
      | fail_if_no_progress refine Kept.madeHeadstock e13 ?_ | apply Kept.ite | apply KeptR.ite
    | dsimp only
    | split

theorem execWalkerGrant_kept (s : State) : KeptR 0x22003000 s (execWalkerGrant s) := by
  have e13 : Nat.land 0x2000 0x22003000 = 0x2000 := rfl
  unfold execWalkerGrant
  try dsimp only
  repeat' first
    | exact (rfl : Nat.land _ _ = _)
    | with_reducible first
      | assumption | apply Kept.refl | apply KeptR.next | apply Kept.step (State.countPerf_kept ..)
      | apply Kept.step (State.addTally_kept ..) | apply Kept.step (State.arbitrate_kept ..)
      | apply Kept.step (Kept.pair (by assumption) (State.arbitrate_kept ..)) | apply Kept.step (State.charge_kept ..)
      | fail_if_no_progress refine Kept.madeHeadstock e13 ?_ | apply Kept.ite | apply KeptR.ite
    | dsimp only
    | split

theorem execWalkDone_kept (bench page : Nat) (ledgerUe : Option (BitVec 64)) (s : State) :
    KeptR 0xd2b01f22e s (execWalkDone bench page ledgerUe s) := by
  unfold execWalkDone
  try dsimp only
  repeat' first
    | exact (rfl : Nat.land _ _ = _)
    | (intro _; try dsimp only)
    | with_reducible first
      | assumption | apply Kept.refl | apply Kept.fold | apply KeptR.next | apply Kept.step (State.fillWalkCache_kept ..)
      | apply Kept.step (State.endMiss_kept ..) | apply Kept.step (State.serveWalk_kept ..) | apply Kept.step (State.askAgain_kept ..)
      | apply Kept.step (State.installWalk_kept ..) | apply Kept.step (State.pumpInvAcks_kept ..)
      | apply Kept.step (State.logLedgerUe_kept ..) | apply Kept.ite | apply KeptR.ite
    | dsimp only
    | split

theorem execAtsTranslationCompletion_kept (port tag : Nat) (result : AtsResult) (s : State) :
    KeptR 0x12200622c s (execAtsTranslationCompletion port tag result s) := by
  unfold execAtsTranslationCompletion
  try dsimp only
  repeat' first
    | exact (rfl : Nat.land _ _ = _)
    | (intro _; try dsimp only)
    | with_reducible first
      | assumption | apply Kept.refl | apply Kept.fold | apply KeptR.next | apply Kept.step (State.install_kept ..)
      | apply Kept.step (State.endMiss_kept ..) | apply Kept.step (State.askAgain_kept ..) | apply Kept.step (State.serveAts_kept ..)
      | apply Kept.step (State.failAts_kept ..) | apply Kept.step (State.freeTag_kept ..) | apply Kept.step (State.aer_kept ..)
      | apply Kept.ite | apply KeptR.ite
    | dsimp only
    | split

theorem State.acceptInvalidate_kept (s : State) (port fn itag base length : Nat) (pasid : Option Nat) :
    Kept 0x120002026 s (State.acceptInvalidate s port fn itag base length pasid) := by
  have e13 : Nat.land 0x2000 0x120002026 = 0x2000 := rfl
  unfold State.acceptInvalidate
  try dsimp only
  repeat' first
    | exact (rfl : Nat.land _ _ = _)
    | (intro _; try dsimp only)
    | with_reducible first
      | assumption | apply Kept.refl | apply Kept.fold | apply Kept.step (State.dropEntries_kept ..)
      | apply Kept.step (State.modPort_kept ..) | apply Kept.step (State.stir_kept ..) | apply Kept.step (State.flushRead_kept ..)
      | apply Kept.step (State.takeKnock_kept ..) | apply Kept.step (State.dropKnock_kept ..)
      | fail_if_no_progress refine Kept.madeHeadstock e13 ?_ | apply Kept.ite
    | dsimp only
    | split

theorem execInvalidateRequest_kept (port fn itag base length : Nat) (pasid : Option Nat) (s : State) :
    KeptR 0x120002026 s (execInvalidateRequest port fn itag base length pasid s) := by
  unfold execInvalidateRequest
  try dsimp only
  repeat' first
    | exact (rfl : Nat.land _ _ = _)
    | with_reducible first
      | assumption | apply Kept.refl | apply KeptR.next | apply Kept.step (State.acceptInvalidate_kept ..)
      | apply Kept.step (State.modPort_kept ..) | apply Kept.ite | apply KeptR.ite
    | dsimp only
    | split

theorem State.admitInvalidates_kept (s : State) (port : Nat) (l : List (Nat × Nat × Nat × Nat × Option Nat)) :
    Kept 0x120002026 s (State.admitInvalidates s port l) := by
  induction l generalizing s with
  | nil => exact .refl _ _
  | cons q r ih =>
    unfold State.admitInvalidates
    exact .ite ((((State.modPort_kept ..).mono rfl).trans ((State.acceptInvalidate_kept ..).mono rfl)).trans (ih ..)) (.refl _ _)

theorem execInvalidateCompletion_kept (port fn itag : Nat) (s : State) : KeptR 0x120002026 s (execInvalidateCompletion port fn itag s) := by
  unfold execInvalidateCompletion
  try dsimp only
  repeat' first
    | exact (rfl : Nat.land _ _ = _)
    | (intro _; try dsimp only)
    | with_reducible first
      | assumption | apply Kept.refl | apply KeptR.next | apply Kept.mapGetD | apply Kept.step (State.admitInvalidates_kept ..)
      | apply Kept.step (State.modPort_kept ..) | apply Kept.step (State.egress_kept ..) | apply Kept.ite | apply KeptR.ite
    | dsimp only
    | split

theorem State.pumpPri_kept (s : State) (port : Nat) : Kept 0x2004 s (State.pumpPri s port) := by
  unfold State.pumpPri
  try dsimp only
  repeat' first
    | exact (rfl : Nat.land _ _ = _)
    | (intro _; try dsimp only)
    | with_reducible first
      | assumption | apply Kept.refl | apply Kept.fold | apply Kept.mapGetD | apply Kept.step (State.sendPri_kept ..)

theorem execPriResponse_kept (port fn group : Nat) (code : PriCode) (s : State) : KeptR 0x2200222c s (execPriResponse port fn group code s) := by
  have e13 : Nat.land 0x2000 0x2200222c = 0x2000 := rfl
  unfold execPriResponse
  try dsimp only
  repeat' first
    | exact (rfl : Nat.land _ _ = _)
    | with_reducible first
      | assumption | apply Kept.refl | apply KeptR.next | apply Kept.step (State.pumpPri_kept ..)
      | apply Kept.step (State.request_kept ..) | apply Kept.step (State.modFn_kept ..) | apply Kept.step (State.setFault_kept ..)
      | apply Kept.step (State.faultEnds_kept ..) | fail_if_no_progress refine Kept.madeHeadstock e13 ?_ | apply Kept.ite
      | apply KeptR.ite
    | dsimp only
    | split

theorem execTrackerExpiry_kept (bench stream : Nat) (s : State) : KeptR 0x2000 s (execTrackerExpiry bench stream s) := by
  have e13 : Nat.land 0x2000 0x2000 = 0x2000 := rfl
  unfold execTrackerExpiry
  try dsimp only
  repeat' first
    | exact (rfl : Nat.land _ _ = _)
    | with_reducible first
      | assumption | apply Kept.refl | apply KeptR.next | fail_if_no_progress refine Kept.madeHeadstock e13 ?_

theorem State.putInvCtrl_kept (s : State) (bench : Nat) (value : BitVec 32) : Kept 0x21 s (State.putInvCtrl s bench value) := by
  unfold State.putInvCtrl
  try dsimp only
  repeat' first
    | exact (rfl : Nat.land _ _ = _)
    | (intro _; try dsimp only)
    | with_reducible first
      | assumption | apply Kept.refl | apply Kept.step (State.modInv_kept ..) | apply Kept.step (State.countHub_kept ..)
      | apply Kept.then (State.tableServed_kept (hm := ?_) (hf := ?_) ..) | apply Kept.ite
    | dsimp only
    | split

theorem execInvRingEnable_kept (bench : Nat) (value : BitVec 32) (s : State) : KeptR 0x21 s (execInvRingEnable bench value s) := by
  unfold execInvRingEnable
  try dsimp only
  repeat' first
    | exact (rfl : Nat.land _ _ = _)
    | (intro _; try dsimp only)
    | with_reducible first
      | assumption | apply Kept.refl | apply KeptR.next | apply Kept.step (State.putInvCtrl_kept ..)
      | apply Kept.then (State.fromMgmt_kept (hm := ?_) (hf := ?_) ..)

theorem State.putInvTail_kept (s : State) (bench : Nat) (tail : BitVec 32) : Kept 0x21 s (State.putInvTail s bench tail) := by
  unfold State.putInvTail
  try dsimp only
  repeat' first
    | exact (rfl : Nat.land _ _ = _)
    | (intro _; try dsimp only)
    | with_reducible first
      | assumption | apply Kept.refl | apply Kept.step (State.modInv_kept ..) | apply Kept.step (State.countHub_kept ..)
      | apply Kept.then (State.tableServed_kept (hm := ?_) (hf := ?_) ..) | apply Kept.ite
    | dsimp only
    | split

theorem execInvDoorbell_kept (bench : Nat) (tail : BitVec 32) (s : State) : KeptR 0x21 s (execInvDoorbell bench tail s) := by
  unfold execInvDoorbell
  try dsimp only
  repeat' first
    | exact (rfl : Nat.land _ _ = _)
    | (intro _; try dsimp only)
    | with_reducible first
      | assumption | apply Kept.refl | apply KeptR.next | apply Kept.step (State.putInvTail_kept ..)
      | apply Kept.then (State.fromMgmt_kept (hm := ?_) (hf := ?_) ..)

theorem execSetEntry_kept (bench : Nat) (entry : List Byte) (s : State) : KeptR 0x121002020 s (execSetEntry bench entry s) := by
  unfold execSetEntry
  try dsimp only
  repeat' first
    | exact (rfl : Nat.land _ _ = _)
    | with_reducible first
      | assumption | apply Kept.refl | apply KeptR.next | apply Kept.step (State.setEntry_kept ..)
      | apply Kept.step (Kept.pair (by assumption) (State.setEntry_kept ..)) | apply Kept.step (State.invStop_kept ..)
      | apply Kept.step (State.readInv_kept ..) | apply Kept.step (State.invNext_kept ..) | apply Kept.step (State.invForward_kept ..)
      | apply Kept.ite | apply KeptR.ite
    | dsimp only
    | split

theorem execInvalidate_kept (bench : Nat) (entry : List Byte) (s : State) : KeptR 0x121002020 s (execInvalidate bench entry s) := by
  unfold execInvalidate
  try dsimp only
  repeat' first
    | exact (rfl : Nat.land _ _ = _)
    | (intro _; try dsimp only)
    | with_reducible first
      | assumption | apply Kept.refl | apply Kept.fold | apply KeptR.next | apply Kept.step (State.invalidateRange_kept ..)
      | apply Kept.step (State.invStop_kept ..) | apply Kept.step (State.readInv_kept ..) | apply Kept.step (State.invNext_kept ..)
      | apply Kept.step (State.invForward_kept ..) | apply Kept.ite | apply KeptR.ite
    | dsimp only
    | split

theorem execPinLoad_kept (bench : Nat) (entry : List Byte) (s : State) : KeptR 0x121002020 s (execPinLoad bench entry s) := by
  unfold execPinLoad
  try dsimp only
  repeat' first
    | exact (rfl : Nat.land _ _ = _)
    | (intro _; try dsimp only)
    | with_reducible first
      | assumption | apply Kept.refl | apply Kept.fold | apply KeptR.next | apply Kept.step (State.pinRange_kept ..)
      | apply Kept.step (State.invStop_kept ..) | apply Kept.step (State.readInv_kept ..) | apply Kept.step (State.invNext_kept ..)
      | apply Kept.step (State.invForward_kept ..) | apply Kept.ite | apply KeptR.ite
    | dsimp only
    | split

theorem execToken_kept (bench : Nat) (entry : List Byte) (s : State) : KeptR 0x120002020 s (execToken bench entry s) := by
  unfold execToken
  try dsimp only
  repeat' first
    | exact (rfl : Nat.land _ _ = _)
    | with_reducible first
      | assumption | apply Kept.refl | apply KeptR.next | apply Kept.step (State.retryFaults_kept ..)
      | apply Kept.step (State.modInv_kept ..) | apply Kept.step (State.invStop_kept ..) | apply Kept.step (State.readInv_kept ..)
      | apply Kept.step (State.invNext_kept ..) | apply Kept.ite | apply KeptR.ite
    | dsimp only
    | split

theorem execTokenComplete_kept (bench : Nat) (s : State) : KeptR 0x1002024 s (execTokenComplete bench s) := by
  unfold execTokenComplete
  try dsimp only
  repeat' first
    | exact (rfl : Nat.land _ _ = _)
    | with_reducible first
      | assumption | apply Kept.refl | apply KeptR.next | apply Kept.step (State.mgmtWrite_kept ..)
      | apply Kept.step (State.returnPages_kept ..) | apply Kept.step (State.modBench_kept ..) | apply Kept.ite | apply KeptR.ite
    | dsimp only
    | split

theorem State.resumeInv_kept (s : State) (bench : Nat) : Kept 0x21 s (State.resumeInv s bench) := by
  unfold State.resumeInv
  try dsimp only
  repeat' first
    | exact (rfl : Nat.land _ _ = _)
    | (intro _; try dsimp only)
    | with_reducible first
      | assumption | apply Kept.refl | apply Kept.step (State.modInv_kept ..) | apply Kept.step (State.countHub_kept ..)
      | apply Kept.then (State.tableServed_kept (hm := ?_) (hf := ?_) ..) | apply Kept.ite
    | dsimp only
    | split

theorem execInvResume_kept (bench : Nat) (s : State) : KeptR 0x21 s (execInvResume bench s) := by
  unfold execInvResume
  try dsimp only
  repeat' first
    | exact (rfl : Nat.land _ _ = _)
    | (intro _; try dsimp only)
    | with_reducible first
      | assumption | apply Kept.refl | apply KeptR.next | apply Kept.step (State.resumeInv_kept ..)
      | apply Kept.then (State.fromMgmt_kept (hm := ?_) (hf := ?_) ..)

theorem execXlateInvReceived_kept (home bench : Nat) (incarn : BitVec 16) (entry : List Byte) (count : BitVec 32) (s : State) :
    KeptR 0x121002020 s (execXlateInvReceived home bench incarn entry count s) := by
  unfold execXlateInvReceived
  try dsimp only
  repeat' first
    | exact (rfl : Nat.land _ _ = _)
    | with_reducible first
      | assumption | apply Kept.refl | apply KeptR.next | apply Kept.step (State.staleMessage_kept ..)
      | apply Kept.step (State.setEntry_kept ..) | apply Kept.step (Kept.pair (by assumption) (State.setEntry_kept ..))
      | apply Kept.step (State.pinRange_kept ..) | apply Kept.step (State.invalidateRange_kept ..)
      | apply Kept.step (State.pumpInvAcks_kept ..) | apply Kept.step (State.setGuest_kept ..) | apply Kept.ite | apply KeptR.ite
    | dsimp only
    | split

theorem execXlateInvAck_kept (holder bench : Nat) (count : BitVec 32) (s : State) : KeptR 0x20 s (execXlateInvAck holder bench count s) := by
  unfold execXlateInvAck
  try dsimp only
  repeat' first
    | exact (rfl : Nat.land _ _ = _)
    | with_reducible first
      | assumption | apply Kept.refl | apply KeptR.next | apply Kept.step (State.modInv_kept ..) | apply Kept.ite | apply KeptR.ite
    | dsimp only
    | split

theorem State.faultCmd_kept (s : State) (index action : Nat) : Kept 0x22002225 s (State.faultCmd s index action) := by
  unfold State.faultCmd
  try dsimp only
  repeat' first
    | exact (rfl : Nat.land _ _ = _)
    | with_reducible first
      | assumption | apply Kept.refl | apply Kept.step (State.retryFault_kept ..) | apply Kept.step (State.countHub_kept ..)
      | apply Kept.step (State.faultEnds_kept ..) | apply Kept.ite
    | dsimp only
    | split

theorem execFaultCmdRetry_kept (index : Nat) (s : State) : KeptR 0x22002225 s (execFaultCmdRetry index s) := by
  unfold execFaultCmdRetry
  try dsimp only
  repeat' first
    | exact (rfl : Nat.land _ _ = _)
    | (intro _; try dsimp only)
    | with_reducible first
      | assumption | apply Kept.refl | apply KeptR.next | apply Kept.step (State.faultCmd_kept ..)
      | apply Kept.then (State.fromMgmt_kept (hm := ?_) (hf := ?_) ..)

theorem execFaultCmdFatal_kept (index : Nat) (s : State) : KeptR 0x22002225 s (execFaultCmdFatal index s) := by
  unfold execFaultCmdFatal
  try dsimp only
  repeat' first
    | exact (rfl : Nat.land _ _ = _)
    | (intro _; try dsimp only)
    | with_reducible first
      | assumption | apply Kept.refl | apply KeptR.next | apply Kept.step (State.faultCmd_kept ..)
      | apply Kept.then (State.fromMgmt_kept (hm := ?_) (hf := ?_) ..)

theorem State.findFault_kept (s : State) (value : BitVec 32) : Kept 0x2000 s (State.findFault s value) := by
  have e13 : Nat.land 0x2000 0x2000 = 0x2000 := rfl
  unfold State.findFault
  try dsimp only
  repeat' first
    | exact (rfl : Nat.land _ _ = _)
    | (intro _; try dsimp only)
    | with_reducible first
      | assumption | apply Kept.refl | apply Kept.mapGetD | fail_if_no_progress refine Kept.madeHeadstock e13 ?_
    | dsimp only
    | split

theorem execFaultFind_kept (value : BitVec 32) (s : State) : KeptR 0x2001 s (execFaultFind value s) := by
  unfold execFaultFind
  try dsimp only
  repeat' first
    | exact (rfl : Nat.land _ _ = _)
    | (intro _; try dsimp only)
    | with_reducible first
      | assumption | apply Kept.refl | apply KeptR.next | apply Kept.step (State.findFault_kept ..)
      | apply Kept.then (State.fromMgmt_kept (hm := ?_) (hf := ?_) ..)

theorem State.nextFault_kept (s : State) : Kept 0x2000 s (State.nextFault s) := by
  have e13 : Nat.land 0x2000 0x2000 = 0x2000 := rfl
  unfold State.nextFault
  try dsimp only
  repeat' first
    | exact (rfl : Nat.land _ _ = _)
    | with_reducible first
      | assumption | apply Kept.refl | fail_if_no_progress refine Kept.madeHeadstock e13 ?_

theorem execFaultRead_kept (s : State) : KeptR 0x2000 s (execFaultRead s) := by
  unfold execFaultRead
  try dsimp only
  repeat' first
    | exact (rfl : Nat.land _ _ = _)
    | with_reducible first
      | assumption | apply Kept.refl | apply KeptR.next | apply Kept.step (State.nextFault_kept ..) | apply Kept.ite | apply KeptR.ite
    | dsimp only
    | split

theorem State.loadRegion_kept (s : State) (b : BitVec 8) (n : Nat) : Kept 0x2000 s (State.loadRegion s b n) := by
  have e13 : Nat.land 0x2000 0x2000 = 0x2000 := rfl
  unfold State.loadRegion
  try dsimp only
  repeat' first
    | exact (rfl : Nat.land _ _ = _)
    | with_reducible first
      | assumption | apply Kept.refl | fail_if_no_progress refine Kept.madeHeadstock e13 ?_ | apply Kept.ite
    | dsimp only
    | split

theorem State.selectRegion_kept (s : State) (value : BitVec 64) : Kept 0x2000 s (State.selectRegion s value) := by
  have e13 : Nat.land 0x2000 0x2000 = 0x2000 := rfl
  unfold State.selectRegion
  try dsimp only
  repeat' first
    | exact (rfl : Nat.land _ _ = _)
    | with_reducible first
      | assumption | apply Kept.refl | apply Kept.step (State.loadRegion_kept ..) | fail_if_no_progress refine Kept.madeHeadstock e13 ?_

theorem execRegionQuerySel_kept (value : BitVec 64) (s : State) : KeptR 0x2001 s (execRegionQuerySel value s) := by
  unfold execRegionQuerySel
  try dsimp only
  repeat' first
    | exact (rfl : Nat.land _ _ = _)
    | (intro _; try dsimp only)
    | with_reducible first
      | assumption | apply Kept.refl | apply KeptR.next | apply Kept.step (State.selectRegion_kept ..)
      | apply Kept.then (State.fromMgmt_kept (hm := ?_) (hf := ?_) ..)

theorem State.nextRegion_kept (s : State) : Kept 0x2000 s (State.nextRegion s) := by
  unfold State.nextRegion
  try dsimp only
  repeat' first
    | exact (rfl : Nat.land _ _ = _)
    | with_reducible first
      | assumption | apply Kept.refl | apply Kept.step (State.loadRegion_kept ..) | apply Kept.ite
    | dsimp only
    | split

theorem execRegionQuery_kept (s : State) : KeptR 0x2000 s (execRegionQuery s) := by
  unfold execRegionQuery
  try dsimp only
  repeat' first
    | exact (rfl : Nat.land _ _ = _)
    | with_reducible first
      | assumption | apply Kept.refl | apply KeptR.next | apply Kept.step (State.nextRegion_kept ..) | apply Kept.ite | apply KeptR.ite
    | dsimp only
    | split

theorem execCountUpdate_kept (s : State) : KeptR 0x6024 s (execCountUpdate s) := by
  have e13 : Nat.land 0x2000 0x6024 = 0x2000 := rfl
  unfold execCountUpdate
  try dsimp only
  repeat' first
    | exact (rfl : Nat.land _ _ = _)
    | with_reducible first
      | assumption | apply Kept.refl | apply KeptR.next | apply Kept.step (State.applyCount_kept ..)
      | fail_if_no_progress refine Kept.madeHeadstock e13 ?_ | apply Kept.ite | apply KeptR.ite
    | dsimp only
    | split

theorem execCountDecay_kept (s : State) : KeptR 0x2022 s (execCountDecay s) := by
  have e13 : Nat.land 0x2000 0x2022 = 0x2000 := rfl
  unfold execCountDecay
  try dsimp only
  repeat' first
    | exact (rfl : Nat.land _ _ = _)
    | (intro _; try dsimp only)
    | with_reducible first
      | assumption | apply Kept.refl | apply Kept.fold | apply KeptR.next | apply Kept.step (State.modBench_kept ..)
      | apply Kept.step (State.stir_kept ..) | fail_if_no_progress refine Kept.madeHeadstock e13 ?_ | apply Kept.ite | apply KeptR.ite
    | dsimp only
    | split

theorem execDecayOverdue_kept (s : State) : KeptR 0x2000 s (execDecayOverdue s) := by
  have e13 : Nat.land 0x2000 0x2000 = 0x2000 := rfl
  unfold execDecayOverdue
  try dsimp only
  repeat' first
    | exact (rfl : Nat.land _ _ = _)
    | with_reducible first
      | assumption | apply Kept.refl | apply KeptR.next | fail_if_no_progress refine Kept.madeHeadstock e13 ?_ | apply Kept.ite
      | apply KeptR.ite
    | dsimp only
    | split

end Sys2Proof.Machine
end

