-- ==== Sys2Proof/Laws/Kept/Hearth.lean ====
section
/-!
SUPPORT. What the operations and commands of Machine/Hearth.lean keep.
-/

namespace Sys2Proof.Machine

theorem execHearthDeadline_kept (index : Nat) (s : State) : KeptR 0x5000002 s (execHearthDeadline index s) := by
  have e1 : Nat.land 0x2 0x5000002 = 0x2 := rfl
  have e26 : Nat.land 0x4000000 0x5000002 = 0x4000000 := rfl
  unfold execHearthDeadline
  try dsimp only
  repeat' first
    | exact (rfl : Nat.land _ _ = _)
    | with_reducible first
      | assumption | apply Kept.refl | apply KeptR.next | apply Kept.step (State.setRole_kept ..) | apply Kept.step (State.wake_kept ..)
      | fail_if_no_progress refine Kept.madeHearth e1 ?_ | fail_if_no_progress refine Kept.madeBg e26 ?_
      | fail_if_no_progress refine Kept.madeHearthBg e1 e26 ?_ | apply Kept.ite | apply KeptR.ite
    | dsimp only
    | split

theorem execIdleGateExpiry_kept (domain : Nat) (s : State) : KeptR 0x8002 s (execIdleGateExpiry domain s) := by
  unfold execIdleGateExpiry
  try dsimp only
  repeat' first
    | exact (rfl : Nat.land _ _ = _)
    | (intro _; try dsimp only)
    | with_reducible first
      | assumption | apply Kept.refl | apply Kept.fold | apply KeptR.next | apply Kept.step (State.modDie_kept ..)
      | apply Kept.step (State.modDomain_kept ..) | apply Kept.ite | apply KeptR.ite
    | dsimp only
    | split

theorem execGateDrainDone_kept (domain : Nat) (s : State) : KeptR 0x2 s (execGateDrainDone domain s) := by
  unfold execGateDrainDone
  try dsimp only
  repeat' first
    | exact (rfl : Nat.land _ _ = _)
    | with_reducible first
      | assumption | apply Kept.refl | apply KeptR.next | apply Kept.step (State.modDomain_kept ..) | apply Kept.ite | apply KeptR.ite
    | dsimp only
    | split

theorem execGateSaveDone_kept (domain : Nat) (s : State) : KeptR 0x2002 s (execGateSaveDone domain s) := by
  have e1 : Nat.land 0x2 0x2002 = 0x2 := rfl
  have e13 : Nat.land 0x2000 0x2002 = 0x2000 := rfl
  unfold execGateSaveDone
  try dsimp only
  repeat' first
    | exact (rfl : Nat.land _ _ = _)
    | with_reducible first
      | assumption | apply Kept.refl | apply KeptR.next | apply Kept.step (State.modDomain_kept ..)
      | apply Kept.step (State.addDeadline_kept ..) | apply Kept.step (State.cancelDeadline_kept ..)
      | fail_if_no_progress refine Kept.madeHearthHeadstock e1 e13 ?_ | apply Kept.ite | apply KeptR.ite
    | dsimp only
    | split

theorem State.putPdWake_kept (s : State) (value : BitVec 32) : Kept 0x2 s (State.putPdWake s value) := by
  unfold State.putPdWake
  try dsimp only
  repeat' first
    | exact (rfl : Nat.land _ _ = _)
    | (intro _; try dsimp only)
    | with_reducible first
      | assumption | apply Kept.refl | apply Kept.fold | apply Kept.step (State.wake_kept ..) | apply Kept.ite
    | dsimp only
    | split

theorem execPdWake_kept (value : BitVec 32) (s : State) : KeptR 0x3 s (execPdWake value s) := by
  unfold execPdWake
  try dsimp only
  repeat' first
    | exact (rfl : Nat.land _ _ = _)
    | (intro _; try dsimp only)
    | with_reducible first
      | assumption | apply Kept.refl | apply KeptR.next | apply Kept.step (State.putPdWake_kept ..)
      | apply Kept.then (State.fromMgmt_kept (hm := ?_) (hf := ?_) ..)

theorem execScrubFloorDeadline_kept (s : State) : KeptR 0x4000002 s (execScrubFloorDeadline s) := by
  have e26 : Nat.land 0x4000000 0x4000002 = 0x4000000 := rfl
  unfold execScrubFloorDeadline
  try dsimp only
  repeat' first
    | exact (rfl : Nat.land _ _ = _)
    | with_reducible first
      | assumption | apply Kept.refl | apply KeptR.next | apply Kept.step (State.wake_kept ..)
      | apply Kept.step (State.cancelDeadline_kept ..) | fail_if_no_progress refine Kept.madeBg e26 ?_ | apply Kept.ite | apply KeptR.ite
    | dsimp only
    | split

end Sys2Proof.Machine
end

