-- ==== Sys2Proof/Laws/Kept/Start.lean ====
section
/-!
SUPPORT. What the operations and commands of Machine/Start.lean keep.
-/

namespace Sys2Proof.Machine

theorem execHearthPowerGood_kept (s : State) : KeptR 0x1 s (execHearthPowerGood s) := by
  have e0 : Nat.land 0x1 0x1 = 0x1 := rfl
  unfold execHearthPowerGood
  try dsimp only
  repeat' first
    | exact (rfl : Nat.land _ _ = _)
    | with_reducible first
      | assumption | apply Kept.refl | apply KeptR.next | fail_if_no_progress refine Kept.madeChip rfl rfl rfl e0 ?_ | apply Kept.ite
      | apply KeptR.ite
    | dsimp only
    | split

theorem execHearthPowerLoss_kept (s : State) : KeptR 0xfffffffff s (execHearthPowerLoss s) :=
  ⟨_, rfl, rfl, rfl, rfl, rfl, fun _ => rfl, List.prefix_refl _, Nat.le_refl _, by
    intro p k
    cases p with
    | out | draws => rfl
    | _ => exact absurd k (by decide)⟩

theorem execStrapLatch_kept (hubId : BitVec 5) (masterEligible : Bool) (slotForce : BitVec 2) (testMode refPresent : Bool) (s : State) :
    KeptR 0x300000003 s (execStrapLatch hubId masterEligible slotForce testMode refPresent s) := by
  unfold execStrapLatch
  have h (c : Chip) (h : Hearth) (a : c.grade = s.chip.grade) (b : c.keyDigest = s.chip.keyDigest) : Kept 0x300000003 s { s with chip := c, hearth := h } :=
    ⟨rfl, a, b, rfl, id, List.prefix_refl _, Nat.le_refl _, by
      intro p k
      cases p with
      | chip | hearth | straps => exact absurd k (by decide)
      | _ => rfl⟩
  repeat' split
  · exact .next (.refl _ _)
  · exact .next (.step (State.readSfdp_kept ..) rfl (.step (State.modDomain_kept ..) rfl (h _ _ rfl rfl)))
  · exact .next (h _ _ rfl rfl)

theorem execSfdpReadDone_kept (density : Nat) (x4 : Bool) (mhz : Nat) (s : State) : KeptR 0x100000003 s (execSfdpReadDone density x4 mhz s) := by
  have e0 : Nat.land 0x1 0x100000003 = 0x1 := rfl
  unfold execSfdpReadDone
  try dsimp only
  repeat' first
    | exact (rfl : Nat.land _ _ = _)
    | with_reducible first
      | assumption | apply Kept.refl | apply KeptR.next | apply Kept.step (State.slotResult_kept ..)
      | apply Kept.step (State.readHeaders_kept ..) | apply Kept.step (State.applyDefaults_kept ..)
      | fail_if_no_progress refine Kept.madeChip rfl rfl rfl e0 ?_ | apply Kept.ite | apply KeptR.ite
    | dsimp only
    | split

theorem execSlotHeadersRead_kept (slotA slotB : List Byte) (s : State) : KeptR 0x100000003 s (execSlotHeadersRead slotA slotB s) := by
  have e0 : Nat.land 0x1 0x100000003 = 0x1 := rfl
  unfold execSlotHeadersRead
  try dsimp only
  repeat' first
    | exact (rfl : Nat.land _ _ = _)
    | with_reducible first
      | assumption | apply Kept.refl | apply KeptR.next | apply Kept.step (State.slotResult_kept ..)
      | apply Kept.step (State.nextSlot_kept ..) | fail_if_no_progress refine Kept.madeChip rfl rfl rfl e0 ?_ | apply Kept.ite
      | apply KeptR.ite
    | dsimp only
    | split

theorem execSlotBodyReadDone_kept (slotB : Bool) (bytes : List Byte) (s : State) : KeptR 0x180000003 s (execSlotBodyReadDone slotB bytes s) := by
  have e0 : Nat.land 0x1 0x180000003 = 0x1 := rfl
  unfold execSlotBodyReadDone
  try dsimp only
  repeat' first
    | exact (rfl : Nat.land _ _ = _)
    | with_reducible first
      | assumption | apply Kept.refl | apply KeptR.next | apply Kept.step (State.slotResult_kept ..)
      | apply Kept.step (State.applySlot_kept ..) | apply Kept.step (State.nextSlot_kept ..)
      | fail_if_no_progress refine Kept.madeChip rfl rfl rfl e0 ?_ | apply Kept.ite | apply KeptR.ite
    | dsimp only
    | split

theorem State.timeOutSlot_kept (s : State) (slotB : Bool) : Kept 0x1 s (State.timeOutSlot s slotB) := by
  unfold State.timeOutSlot
  try dsimp only
  repeat' first
    | exact (rfl : Nat.land _ _ = _)
    | with_reducible first
      | assumption | apply Kept.refl | apply Kept.step (State.slotResult_kept ..) | apply Kept.ite
    | dsimp only
    | split

theorem execImageBoundExpiry_kept (s : State) : KeptR 0x3 s (execImageBoundExpiry s) := by
  unfold execImageBoundExpiry
  try dsimp only
  repeat' first
    | exact (rfl : Nat.land _ _ = _)
    | with_reducible first
      | assumption | apply Kept.refl | apply KeptR.next | apply Kept.step (State.applyDefaults_kept ..)
      | apply Kept.step (State.timeOutSlot_kept ..) | apply Kept.ite | apply KeptR.ite
    | dsimp only
    | split

theorem execLedgerTrainingDone_kept (failMask : BitVec 4) (s : State) : KeptR 0x42000027 s (execLedgerTrainingDone failMask s) := by
  unfold execLedgerTrainingDone
  refine .ite (.next (.refl _ _)) (.ite (.next ?_) (.next ?_))
  · refine Kept.trans (Kept.trans ?_ ((State.endFault_kept ..).mono rfl)) ((State.tryBist_kept ..).mono rfl)
    refine ⟨rfl, rfl, rfl, rfl, fun _ => rfl, List.prefix_refl _, Nat.le_refl _, ?_⟩
    intro p k
    cases p with
    | chip | billetMem => exact absurd k (by decide)
    | _ => rfl
  · exact .step (State.logCause_kept ..) rfl ((Kept.refl _ s).madeChip rfl rfl rfl rfl)

theorem execBistDone_kept (result : BistResult) (s : State) : KeptR 0x83e0a205 s (execBistDone result s) := by
  have e0 : Nat.land 0x1 0x83e0a205 = 0x1 := rfl
  have e24 : Nat.land 0x1000000 0x83e0a205 = 0x1000000 := rfl
  unfold execBistDone
  try dsimp only
  repeat' first
    | exact (rfl : Nat.land _ _ = _)
    | with_reducible first
      | assumption | apply Kept.refl | apply KeptR.next | apply Kept.step (State.draw_kept ..)
      | apply Kept.step (Kept.pair (by assumption) (State.draw_kept ..)) | apply Kept.step (State.disableLinks_kept ..)
      | apply Kept.step (State.startEnvans_kept ..) | apply Kept.step (State.bistStop_kept ..) | apply Kept.step (State.bistApply_kept ..)
      | fail_if_no_progress refine Kept.madeChipCascade rfl rfl rfl e0 e24 ?_ | apply Kept.ite | apply KeptR.ite
    | dsimp only
    | split

theorem execLinksPhaseEnd_kept (s : State) : KeptR 0x83002027 s (execLinksPhaseEnd s) := by
  have e0 : Nat.land 0x1 0x83002027 = 0x1 := rfl
  have e24 : Nat.land 0x1000000 0x83002027 = 0x1000000 := rfl
  unfold execLinksPhaseEnd
  try dsimp only
  repeat' first
    | exact (rfl : Nat.land _ _ = _)
    | (intro _; try dsimp only)
    | with_reducible first
      | assumption | apply Kept.refl | apply Kept.fold | apply KeptR.next | apply Kept.step (State.formBench0_kept ..)
      | apply Kept.step (State.modDomain_kept ..) | apply Kept.step (State.startDetect_kept ..)
      | fail_if_no_progress refine Kept.madeChipCascade rfl rfl rfl e0 e24 ?_ | apply Kept.ite | apply KeptR.ite
    | dsimp only
    | split

theorem State.putHubControl_kept (s : State) (value : BitVec 32) : Kept 0xdffffffff s (State.putHubControl s value) := by
  unfold State.putHubControl
  try dsimp only
  repeat' first
    | exact (rfl : Nat.land _ _ = _)
    | with_reducible first
      | assumption | apply Kept.refl | apply Kept.step (State.countHub_kept ..) | apply Kept.step (State.teardown_kept ..)
      | apply Kept.ite
    | dsimp only
    | split

theorem execManagementRestart_kept (value : BitVec 32) (s : State) : KeptR 0xdffffffff s (execManagementRestart value s) := by
  unfold execManagementRestart
  try dsimp only
  repeat' first
    | exact (rfl : Nat.land _ _ = _)
    | (intro _; try dsimp only)
    | with_reducible first
      | assumption | apply Kept.refl | apply KeptR.next | apply Kept.then (State.fromMgmt_kept (hm := ?_) (hf := ?_) ..)
      | apply Kept.step (State.putHubControl_kept ..)

theorem execRestartSequenceResume_kept (s : State) : KeptR 0x1 s (execRestartSequenceResume s) := by
  unfold execRestartSequenceResume
  try dsimp only
  repeat' first
    | exact (rfl : Nat.land _ _ = _)
    | with_reducible first
      | assumption | apply Kept.refl | apply KeptR.next | apply Kept.step (State.resumeStart_kept ..) | apply Kept.ite | apply KeptR.ite
    | dsimp only
    | split

theorem execHearthTrim_kept (errorPpm : Int) (s : State) : KeptR 0x80000002 s (execHearthTrim errorPpm s) := by
  unfold execHearthTrim
  refine .ite (.next (.refl _ _)) (.ite (.next ((Kept.refl _ s).madeHearth rfl)) (.next ?_))
  refine ⟨rfl, rfl, rfl, rfl, id, List.prefix_refl _, Nat.le_succ _, ?_⟩
  intro p k
  cases p with
  | hearth | draws => exact absurd k (by decide)
  | _ => rfl

theorem execRefLoss_kept (s : State) : KeptR 0xdffffffff s (execRefLoss s) := by
  have e1 : Nat.land 0x2 0xdffffffff = 0x2 := rfl
  unfold execRefLoss
  try dsimp only
  repeat' first
    | exact (rfl : Nat.land _ _ = _)
    | with_reducible first
      | assumption | apply Kept.refl | apply KeptR.next | apply Kept.step (State.logFault_kept ..)
      | apply Kept.step (State.teardown_kept ..) | fail_if_no_progress refine Kept.madeHearth e1 ?_ | apply Kept.ite | apply KeptR.ite
    | dsimp only
    | split

theorem execRefReturn_kept (s : State) : KeptR 0x100000003 s (execRefReturn s) := by
  have e0 : Nat.land 0x1 0x100000003 = 0x1 := rfl
  have e1 : Nat.land 0x2 0x100000003 = 0x2 := rfl
  unfold execRefReturn
  try dsimp only
  repeat' first
    | exact (rfl : Nat.land _ _ = _)
    | with_reducible first
      | assumption | apply Kept.refl | apply KeptR.next | apply Kept.step (State.readSfdp_kept ..)
      | apply Kept.step (State.applyDefaults_kept ..) | apply Kept.step (State.modDomain_kept ..)
      | fail_if_no_progress refine Kept.madeHearth e1 ?_ | fail_if_no_progress refine Kept.madeChip rfl rfl rfl e0 ?_
      | fail_if_no_progress refine Kept.madeChipHearth rfl rfl rfl e0 e1 ?_ | apply Kept.ite | apply KeptR.ite
    | dsimp only
    | split

theorem execJtagExtest_kept (s : State) : KeptR 0xdffffffff s (execJtagExtest s) := by
  unfold execJtagExtest
  try dsimp only
  repeat' first
    | exact (rfl : Nat.land _ _ = _)
    | with_reducible first
      | assumption | apply Kept.refl | apply KeptR.next | apply Kept.step (State.pinDrive_kept ..)

theorem execJtagClamp_kept (s : State) : KeptR 0xdffffffff s (execJtagClamp s) := by
  unfold execJtagClamp
  try dsimp only
  repeat' first
    | exact (rfl : Nat.land _ _ = _)
    | with_reducible first
      | assumption | apply Kept.refl | apply KeptR.next | apply Kept.step (State.pinDrive_kept ..)

theorem execJtagHighz_kept (s : State) : KeptR 0xdffffffff s (execJtagHighz s) := by
  unfold execJtagHighz
  try dsimp only
  repeat' first
    | exact (rfl : Nat.land _ _ = _)
    | with_reducible first
      | assumption | apply Kept.refl | apply KeptR.next | apply Kept.step (State.pinDrive_kept ..)

theorem execJtagTestLogicReset_kept (s : State) : KeptR 0x12000001 s (execJtagTestLogicReset s) := by
  have e0 : Nat.land 0x1 0x12000001 = 0x1 := rfl
  have e28 : Nat.land 0x10000000 0x12000001 = 0x10000000 := rfl
  unfold execJtagTestLogicReset
  try dsimp only
  repeat' first
    | exact (rfl : Nat.land _ _ = _)
    | with_reducible first
      | assumption | apply Kept.refl | apply KeptR.next | apply Kept.step (State.endFault_kept ..)
      | fail_if_no_progress refine Kept.madeDebug rfl e28 ?_ | fail_if_no_progress refine Kept.madeChip rfl rfl rfl e0 ?_
      | fail_if_no_progress refine Kept.madeChipDebug rfl rfl rfl rfl e0 e28 ?_ | apply Kept.ite | apply KeptR.ite
    | dsimp only
    | split

theorem execJtagIdcode_kept (s : State) : KeptR 0x100000000 s (execJtagIdcode s) := by
  unfold execJtagIdcode
  try dsimp only
  repeat' first
    | exact (rfl : Nat.land _ _ = _)
    | with_reducible first
      | assumption | apply Kept.refl | apply KeptR.next | apply Kept.step (State.emit_kept ..) | apply Kept.ite | apply KeptR.ite
    | dsimp only
    | split

theorem execJtagBypass_kept (s : State) : KeptR 0x0 s (execJtagBypass s) := by
  unfold execJtagBypass
  try dsimp only
  repeat' first
    | exact (rfl : Nat.land _ _ = _)
    | with_reducible first
      | assumption | apply Kept.refl | apply KeptR.next

theorem execJtagSamplePreload_kept (s : State) : KeptR 0x0 s (execJtagSamplePreload s) := by
  unfold execJtagSamplePreload
  try dsimp only
  repeat' first
    | exact (rfl : Nat.land _ _ = _)
    | with_reducible first
      | assumption | apply Kept.refl | apply KeptR.next

theorem execJtagDapAccess_kept (s : State) : KeptR 0x10000000 s (execJtagDapAccess s) := by
  have e28 : Nat.land 0x10000000 0x10000000 = 0x10000000 := rfl
  unfold execJtagDapAccess
  try dsimp only
  repeat' first
    | exact (rfl : Nat.land _ _ = _)
    | with_reducible first
      | assumption | apply Kept.refl | apply KeptR.next | fail_if_no_progress refine Kept.madeDebug rfl e28 ?_ | apply Kept.ite
      | apply KeptR.ite
    | dsimp only
    | split

theorem execThermalRecovery_kept (s : State) : KeptR 0x1 s (execThermalRecovery s) := by
  have e0 : Nat.land 0x1 0x1 = 0x1 := rfl
  unfold execThermalRecovery
  try dsimp only
  repeat' first
    | exact (rfl : Nat.land _ _ = _)
    | with_reducible first
      | assumption | apply Kept.refl | apply KeptR.next | fail_if_no_progress refine Kept.madeChip rfl rfl rfl e0 ?_ | apply Kept.ite
      | apply KeptR.ite
    | dsimp only
    | split

theorem execThermalSample_kept (sensors : List (BitVec 16)) (s : State) : KeptR 0xdffffffff s (execThermalSample sensors s) := by
  have e1 : Nat.land 0x2 0xdffffffff = 0x2 := rfl
  unfold execThermalSample
  try dsimp only
  repeat' first
    | exact (rfl : Nat.land _ _ = _)
    | (intro _; try dsimp only)
    | with_reducible first
      | assumption | apply Kept.refl | apply KeptR.next | apply Kept.mapGetD | apply Kept.step (State.notice_kept ..)
      | apply Kept.step (State.logFault_kept ..) | apply Kept.step (State.teardown_kept ..)
      | fail_if_no_progress refine Kept.madeHearth e1 ?_ | apply Kept.ite | apply KeptR.ite
    | dsimp only
    | split

end Sys2Proof.Machine
end

