-- ==== Sys2Proof/Laws/Kept/HubRegs.lean ====
section
/-!
SUPPORT. What the operations and commands of Machine/HubRegs.lean keep.
-/

namespace Sys2Proof.Machine

theorem State.putPower_kept (s : State) (o : Nat) (v : BitVec 32) : Kept 0x2 s (State.putPower s o v) := by
  have e1 : Nat.land 0x2 0x2 = 0x2 := rfl
  unfold State.putPower
  try dsimp only
  repeat' first
    | exact (rfl : Nat.land _ _ = _)
    | with_reducible first
      | assumption | apply Kept.refl | apply Kept.step (State.putPdWake_kept ..) | apply Kept.step (State.modDomain_kept ..)
      | fail_if_no_progress refine Kept.madeHearth e1 ?_ | apply Kept.ite
    | dsimp only
    | split

theorem State.putImage_kept (s : State) (o : Nat) (v : BitVec 32) : Kept 0x100000001 s (State.putImage s o v) := by
  unfold State.putImage
  try dsimp only
  repeat' first
    | exact (rfl : Nat.land _ _ = _)
    | with_reducible first
      | assumption | apply Kept.refl | apply Kept.step (State.modFlash_kept ..) | apply Kept.step (State.flashCmd_kept ..)
      | apply Kept.step (State.countHub_kept ..) | apply Kept.ite
    | dsimp only
    | split

theorem State.benchCmd_kept (s : State) (code : Nat) : Kept 0x12304a3f7 s (State.benchCmd s code) := by
  unfold State.benchCmd
  try dsimp only
  repeat' first
    | exact (rfl : Nat.land _ _ = _)
    | with_reducible first
      | assumption | apply Kept.refl | apply Kept.step (State.formCmd_kept ..) | apply Kept.step (State.setLimitsCmd_kept ..)
      | apply Kept.step (State.setKeepCmd_kept ..) | apply Kept.step (State.holdCmd_kept ..) | apply Kept.step (State.resumeCmd_kept ..)
      | apply Kept.step (State.sweepCmd_kept ..) | apply Kept.step (State.grantCmd_kept ..) | apply Kept.step (State.returnCmd_kept ..)
      | apply Kept.step (State.countHub_kept ..)
    | dsimp only
    | split

theorem State.putMailbox_kept (s : State) (o : Nat) (v : BitVec 32) : Kept 0x12304a3f7 s (State.putMailbox s o v) := by
  have e4 : Nat.land 0x10 0x12304a3f7 = 0x10 := rfl
  unfold State.putMailbox
  try dsimp only
  repeat' first
    | exact (rfl : Nat.land _ _ = _)
    | with_reducible first
      | assumption | apply Kept.refl | apply Kept.step (State.benchCmd_kept ..) | fail_if_no_progress refine Kept.madeMailbox e4 ?_
    | dsimp only
    | split

theorem State.setUpPeer_kept (s : State) (b : Nat) (f : Peer → Peer) : Kept 0x21 s (State.setUpPeer s b f) := by
  unfold State.setUpPeer
  try dsimp only
  repeat' first
    | exact (rfl : Nat.land _ _ = _)
    | with_reducible first
      | assumption | apply Kept.refl | apply Kept.step (State.modPeer_kept ..) | apply Kept.step (State.countHub_kept ..) | apply Kept.ite
    | dsimp only
    | split

theorem State.putTable_kept (s : State) (b o : Nat) (v : BitVec 32) : Kept 0x21 s (State.putTable s b o v) := by
  unfold State.putTable
  try dsimp only
  repeat' first
    | exact (rfl : Nat.land _ _ = _)
    | with_reducible first
      | assumption | apply Kept.refl | apply Kept.step (State.putInvCtrl_kept ..) | apply Kept.step (State.putInvTail_kept ..)
      | apply Kept.step (State.resumeInv_kept ..) | apply Kept.step (State.modPeer_kept ..) | apply Kept.step (State.setUpPeer_kept ..)
      | apply Kept.step (State.modBench_kept ..) | apply Kept.ite
    | dsimp only
    | split

theorem State.putXlt_kept (s : State) (o : Nat) (v : BitVec 32) : Kept 0x22002225 s (State.putXlt s o v) := by
  have e13 : Nat.land 0x2000 0x22002225 = 0x2000 := rfl
  unfold State.putXlt
  try dsimp only
  repeat' first
    | exact (rfl : Nat.land _ _ = _)
    | with_reducible first
      | assumption | apply Kept.refl | apply Kept.step (State.faultCmd_kept ..) | apply Kept.step (State.findFault_kept ..)
      | fail_if_no_progress refine Kept.madeHeadstock e13 ?_
    | dsimp only
    | split

theorem State.putMigCtrl_kept (s : State) (v : BitVec 32) : Kept 0x4001 s (State.putMigCtrl s v) := by
  have e14 : Nat.land 0x4000 0x4001 = 0x4000 := rfl
  unfold State.putMigCtrl
  try dsimp only
  repeat' first
    | exact (rfl : Nat.land _ _ = _)
    | with_reducible first
      | assumption | apply Kept.refl | apply Kept.step (State.countHub_kept ..) | fail_if_no_progress refine Kept.madeMig e14 ?_
      | apply Kept.ite
    | dsimp only
    | split

theorem State.putMig_kept (s : State) (o : Nat) (v : BitVec 32) : Kept 0x4007 s (State.putMig s o v) := by
  have e14 : Nat.land 0x4000 0x4007 = 0x4000 := rfl
  unfold State.putMig
  try dsimp only
  repeat' first
    | exact (rfl : Nat.land _ _ = _)
    | with_reducible first
      | assumption | apply Kept.refl | apply Kept.step (State.putMigCtrl_kept ..) | apply Kept.step (State.startMig_kept ..)
      | fail_if_no_progress refine Kept.madeMig e14 ?_ | apply Kept.ite
    | dsimp only
    | split

theorem State.putRec_kept (s : State) (o : Nat) (v : BitVec 32) : Kept 0x2000000 s (State.putRec s o v) := by
  have e25 : Nat.land 0x2000000 0x2000000 = 0x2000000 := rfl
  unfold State.putRec
  try dsimp only
  repeat' first
    | exact (rfl : Nat.land _ _ = _)
    | with_reducible first
      | assumption | apply Kept.refl | fail_if_no_progress refine Kept.madeRecovery e25 ?_
    | dsimp only
    | split

theorem State.putTelemetry_kept (s : State) (v : BitVec 32) : Kept 0x4000001 s (State.putTelemetry s v) := by
  have e26 : Nat.land 0x4000000 0x4000001 = 0x4000000 := rfl
  unfold State.putTelemetry
  try dsimp only
  repeat' first
    | exact (rfl : Nat.land _ _ = _)
    | with_reducible first
      | assumption | apply Kept.refl | apply Kept.step (State.countHub_kept ..) | fail_if_no_progress refine Kept.madeBg e26 ?_
      | apply Kept.ite
    | dsimp only
    | split

theorem State.putBg_kept (s : State) (o : Nat) (v : BitVec 32) : Kept 0x4000001 s (State.putBg s o v) := by
  have e26 : Nat.land 0x4000000 0x4000001 = 0x4000000 := rfl
  unfold State.putBg
  try dsimp only
  repeat' first
    | exact (rfl : Nat.land _ _ = _)
    | with_reducible first
      | assumption | apply Kept.refl | apply Kept.step (State.putTelemetry_kept ..) | fail_if_no_progress refine Kept.madeBg e26 ?_
    | dsimp only
    | split

theorem State.putCascade_kept (s : State) (o : Nat) (v : BitVec 32) : Kept 0x1000000 s (State.putCascade s o v) := by
  have e24 : Nat.land 0x1000000 0x1000000 = 0x1000000 := rfl
  unfold State.putCascade
  try dsimp only
  repeat' first
    | exact (rfl : Nat.land _ _ = _)
    | with_reducible first
      | assumption | apply Kept.refl | apply Kept.step (State.snapCharter_kept ..) | fail_if_no_progress refine Kept.madeCascade e24 ?_
    | dsimp only
    | split

theorem State.putHub_kept (s : State) (o : Nat) (v : BitVec 32) : Kept 0xdffffffff s (State.putHub s o v) := by
  have e0 : Nat.land 0x1 0xdffffffff = 0x1 := rfl
  unfold State.putHub
  try dsimp only
  repeat' first
    | exact (rfl : Nat.land _ _ = _)
    | with_reducible first
      | assumption | apply Kept.refl | apply Kept.step (State.putPower_kept ..) | apply Kept.step (State.putImage_kept ..)
      | apply Kept.step (State.putMailbox_kept ..) | apply Kept.step (State.putTable_kept ..) | apply Kept.step (State.putXlt_kept ..)
      | apply Kept.step (State.putMig_kept ..) | apply Kept.step (State.putRec_kept ..) | apply Kept.step (State.putBg_kept ..)
      | apply Kept.step (State.putCascade_kept ..) | apply Kept.step (State.modPort_kept ..) | apply Kept.step (State.modDie_kept ..)
      | apply Kept.step (State.modEnvan_kept ..) | apply Kept.step (State.putHubControl_kept ..)
      | apply Kept.step (State.putDebugCtrl_kept ..) | fail_if_no_progress refine Kept.madeChip rfl rfl rfl e0 ?_ | apply Kept.ite
    | dsimp only
    | split

theorem State.putHub64_kept (s : State) (o : Nat) (v : BitVec 64) : Kept 0x24006021 s (State.putHub64 s o v) := by
  have e14 : Nat.land 0x4000 0x24006021 = 0x4000 := rfl
  have e26 : Nat.land 0x4000000 0x24006021 = 0x4000000 := rfl
  have e29 : Nat.land 0x20000000 0x24006021 = 0x20000000 := rfl
  unfold State.putHub64
  try dsimp only
  repeat' first
    | exact (rfl : Nat.land _ _ = _)
    | with_reducible first
      | assumption | apply Kept.refl | apply Kept.step (State.selectRegion_kept ..) | apply Kept.step (State.setUpPeer_kept ..)
      | apply Kept.step (State.modBench_kept ..) | apply Kept.step (State.countHub_kept ..)
      | fail_if_no_progress refine Kept.madePerf e29 ?_ | fail_if_no_progress refine Kept.madeMig e14 ?_
      | fail_if_no_progress refine Kept.madeBg e26 ?_ | apply Kept.ite
    | dsimp only
    | split

theorem State.putHubBytes_kept (s : State) (o : Nat) (data : List (Byte × Bool)) : Kept 0x4011 s (State.putHubBytes s o data) := by
  have e4 : Nat.land 0x10 0x4011 = 0x10 := rfl
  have e14 : Nat.land 0x4000 0x4011 = 0x4000 := rfl
  unfold State.putHubBytes
  try dsimp only
  repeat' first
    | exact (rfl : Nat.land _ _ = _)
    | with_reducible first
      | assumption | apply Kept.refl | apply Kept.step (State.modFlash_kept ..) | apply Kept.step (State.countHub_kept ..)
      | fail_if_no_progress refine Kept.madeMailbox e4 ?_ | fail_if_no_progress refine Kept.madeMig e14 ?_ | apply Kept.ite
    | dsimp only
    | split

theorem State.hubEffect_kept (s : State) (o : Nat) : Kept 0x2002002 s (State.hubEffect s o) := by
  have e1 : Nat.land 0x2 0x2002002 = 0x2 := rfl
  unfold State.hubEffect
  try dsimp only
  repeat' first
    | exact (rfl : Nat.land _ _ = _)
    | with_reducible first
      | assumption | apply Kept.refl | apply Kept.step (State.nextFault_kept ..) | apply Kept.step (State.nextRegion_kept ..)
      | apply Kept.step (State.nextTally_kept ..) | apply Kept.step (State.readLog_kept ..)
      | fail_if_no_progress refine Kept.madeHearth e1 ?_ | apply Kept.ite
    | dsimp only
    | split

end Sys2Proof.Machine
end

