-- ==== Sys2Proof/Laws/Kept/RegPath.lean ====
section
/-!
SUPPORT. What the operations and commands of Machine/RegPath.lean keep.
-/

namespace Sys2Proof.Machine

theorem hubMap_keeps : hubMap.Keeps 0xdffffffff :=
  ⟨fun s o v => (State.putHub_kept s o v).mono rfl, fun s o v => (State.putHub64_kept s o v).mono rfl, fun s o v => (State.putHubBytes_kept s o v).mono rfl,
    fun s o => (State.hubEffect_kept s o).mono rfl, fun s => (State.countHub_kept s).mono rfl, fun s _ => (Kept.refl _ s).madeChip rfl rfl rfl rfl⟩

theorem benchView_keeps (b : Nat) : RegMap.Keeps 0xdffffffff { benchMap b with count := State.countHub } :=
  ⟨fun s o v => (State.putBench_kept s b o v).mono rfl, fun s o v => (State.putBench64_kept s b o v).mono rfl, fun _ _ _ => .refl _ _, fun _ _ => .refl _ _,
    fun s => (State.countHub_kept s).mono rfl, fun s v => (State.modBench_kept s b fun x => { x with staged := v }).mono rfl⟩

theorem State.hubRead_kept (s : State) (quiet : Bool) (a : RegAccess) : Kept 0xdffffffff s (State.hubRead s quiet a).2 := by
  unfold State.hubRead
  repeat' split
  · exact .refl _ _
  · exact State.benchRead_kept _ _ ((benchView_keeps _).mono rfl) ..
  · exact RegMap.read_kept _ (hubMap_keeps.mono rfl) ..

theorem State.putControlPair_kept (s : State) (v : BitVec 64) : Kept 0xdffffffff s (State.putControlPair s v) := by
  have e0 : Nat.land 0x1 0xdffffffff = 0x1 := rfl
  unfold State.putControlPair
  try dsimp only
  repeat' first
    | exact (rfl : Nat.land _ _ = _)
    | with_reducible first
      | assumption | apply Kept.refl | apply Kept.step (State.putHubControl_kept ..)
      | fail_if_no_progress refine Kept.madeChip rfl rfl rfl e0 ?_ | apply Kept.ite
    | dsimp only
    | split

theorem State.hubWrite_kept (s : State) (a : RegAccess) : Kept 0xdffffffff s (State.hubWrite s a) := by
  unfold State.hubWrite
  try dsimp only
  repeat' first
    | exact (rfl : Nat.land _ _ = _)
    | with_reducible first
      | assumption | apply Kept.refl | apply Kept.step (State.countHub_kept ..)
      | apply Kept.step (RegMap.write_kept (h := hubMap_keeps) ..) | apply Kept.step (State.putControlPair_kept ..)
      | apply Kept.step (State.unstageHub_kept ..) | apply Kept.ite
    | dsimp only
    | split

theorem State.barRead_kept (s : State) (a : RegAccess) : Kept 0xdffffffff s (State.barRead s a).2 := by
  unfold State.barRead
  try dsimp only
  repeat' first
    | exact (rfl : Nat.land _ _ = _)
    | with_reducible first
      | assumption | apply Kept.refl | apply Kept.step (State.benchRead_kept (h := benchMap_keeps _) ..)
      | apply Kept.step (State.hubRead_kept ..) | apply Kept.step (Kept.pair (by assumption) (State.hubRead_kept ..)) | apply Kept.ite
    | dsimp only
    | split

theorem State.barWrite_kept (s : State) (a : RegAccess) : Kept 0xdffffffff s (State.barWrite s a) := by
  unfold State.barWrite
  try dsimp only
  repeat' first
    | exact (rfl : Nat.land _ _ = _)
    | with_reducible first
      | assumption | apply Kept.refl | apply Kept.step (State.benchWriteAt_kept ..) | apply Kept.step (State.countHub_kept ..)
      | apply Kept.step (State.countBench_kept ..) | apply Kept.step (State.unstage_kept ..) | apply Kept.step (State.hubWrite_kept ..)
      | apply Kept.ite
    | dsimp only
    | split

theorem State.dapFill_kept (s : State) (d : List Byte) : Kept 0x10000000 s (State.dapFill s d) := by
  unfold State.dapFill
  try dsimp only
  repeat' first
    | exact (rfl : Nat.land _ _ = _)
    | exact fun _ => rfl
    | with_reducible first
      | assumption | apply Kept.refl | apply Kept.step (State.modDebug_kept (hf := ?_) ..)

theorem State.dapReadNow_kept (s : State) (quiet : Bool) (a : RegAccess) : Kept 0xdffffffff s (State.dapReadNow s quiet a) := by
  unfold State.dapReadNow
  try dsimp only
  repeat' first
    | exact (rfl : Nat.land _ _ = _)
    | with_reducible first
      | assumption | apply Kept.refl | apply Kept.step (State.countHub_kept ..) | apply Kept.step (State.hubRead_kept ..)
      | apply Kept.step (Kept.pair (by assumption) (State.hubRead_kept ..)) | apply Kept.step (State.dapFill_kept ..) | apply Kept.ite
    | dsimp only
    | split

theorem State.dapWriteNow_kept (s : State) (a : RegAccess) : Kept 0xdffffffff s (State.dapWriteNow s a) := by
  unfold State.dapWriteNow
  try dsimp only
  repeat' first
    | exact (rfl : Nat.land _ _ = _)
    | exact fun _ => rfl
    | with_reducible first
      | assumption | apply Kept.refl | apply Kept.step (State.countHub_kept ..) | apply Kept.step (State.modDebug_kept (hf := ?_) ..)
      | apply Kept.step (State.hubWrite_kept ..) | apply Kept.ite
    | dsimp only
    | split

theorem State.serve_kept (s : State) (r : PorchRequest) : Kept 0xdffffffff s (State.serve s r) := by
  unfold State.serve
  try dsimp only
  repeat' first
    | exact (rfl : Nat.land _ _ = _)
    | with_reducible first
      | assumption | apply Kept.refl | apply Kept.step (State.complete_kept ..) | apply Kept.step (State.serveBar4Write_kept ..)
      | apply Kept.step (State.serveBar2Read_kept ..) | apply Kept.step (State.serveBar2Write_kept ..)
      | apply Kept.step (State.barRead_kept ..) | apply Kept.step (Kept.pair (by assumption) (State.barRead_kept ..))
      | apply Kept.step (State.barWrite_kept ..) | apply Kept.step (State.dapReadNow_kept ..)
      | apply Kept.step (State.dapWriteNow_kept ..) | apply Kept.step (State.knocked_kept ..) | apply Kept.ite
    | dsimp only
    | split

theorem State.route_kept (s : State) (source : PorchSource) (r : PorchRequest) (named given : Nat) :
    Kept 0xdffffffff s (State.route s source r named given) := by
  unfold State.route
  try dsimp only
  repeat' first
    | exact (rfl : Nat.land _ _ = _)
    | (intro _; try dsimp only)
    | with_reducible first
      | assumption | apply Kept.refl | apply Kept.then (State.atDomain_kept (hm := ?_) (hf := ?_) ..)
      | apply Kept.step (State.serve_kept ..) | apply Kept.ite
    | dsimp only
    | split

theorem State.registerWrite_kept (s : State) (a : RegAccess) : Kept 0xdffffffff s (State.registerWrite s a) := by
  unfold State.registerWrite
  try dsimp only
  repeat' first
    | exact (rfl : Nat.land _ _ = _)
    | with_reducible first
      | assumption | apply Kept.refl | apply Kept.step (State.portIn_kept ..) | apply Kept.step (State.route_kept ..) | apply Kept.ite
    | dsimp only
    | split

theorem State.registerRead_kept (s : State) (a : RegAccess) (hid : Nat) : Kept 0xdffffffff s (State.registerRead s a hid) := by
  unfold State.registerRead
  try dsimp only
  repeat' first
    | exact (rfl : Nat.land _ _ = _)
    | with_reducible first
      | assumption | apply Kept.refl | apply Kept.step (State.route_kept ..) | apply Kept.ite
    | dsimp only
    | split

theorem State.dapSleeps_kept (s : State) : Kept 0x10000000 s (State.dapSleeps s) := by
  unfold State.dapSleeps
  try dsimp only
  repeat' first
    | exact (rfl : Nat.land _ _ = _)
    | exact fun _ => rfl
    | with_reducible first
      | assumption | apply Kept.refl | apply Kept.step (State.modDebug_kept (hf := ?_) ..)

theorem State.dapRegisterRead_kept (s : State) (quiet : Bool) (addr : Nat) : Kept 0xdffffffff s (State.dapRegisterRead s quiet addr) := by
  unfold State.dapRegisterRead
  try dsimp only
  repeat' first
    | exact (rfl : Nat.land _ _ = _)
    | exact fun _ => rfl
    | (intro _; try dsimp only)
    | with_reducible first
      | assumption | apply Kept.refl | apply Kept.then (State.granted_kept (hm := ?_) (hf := ?_) ..)
      | apply Kept.step (State.modDebug_kept (hf := ?_) ..) | apply Kept.step (State.dapReadNow_kept ..)
      | apply Kept.step (State.route_kept ..) | apply Kept.step (State.dapSleeps_kept ..) | apply Kept.ite
    | dsimp only
    | split

theorem execDapRegisterRead_kept (quiet : Bool) (addr : Nat) (s : State) : KeptR 0xdffffffff s (execDapRegisterRead quiet addr s) := by
  unfold execDapRegisterRead
  try dsimp only
  repeat' first
    | exact (rfl : Nat.land _ _ = _)
    | with_reducible first
      | assumption | apply Kept.refl | apply KeptR.next | apply Kept.step (State.dapRegisterRead_kept ..)

theorem State.dapRegisterWrite_kept (s : State) (addr : Nat) (value : BitVec 32) : Kept 0xdffffffff s (State.dapRegisterWrite s addr value) := by
  unfold State.dapRegisterWrite
  try dsimp only
  repeat' first
    | exact (rfl : Nat.land _ _ = _)
    | exact fun _ => rfl
    | (intro _; try dsimp only)
    | with_reducible first
      | assumption | apply Kept.refl | apply Kept.then (State.granted_kept (hm := ?_) (hf := ?_) ..)
      | apply Kept.step (State.modDebug_kept (hf := ?_) ..) | apply Kept.step (State.route_kept ..) | apply Kept.ite
    | dsimp only
    | split

theorem execDapRegisterWrite_kept (addr : Nat) (value : BitVec 32) (s : State) : KeptR 0xdffffffff s (execDapRegisterWrite addr value s) := by
  unfold execDapRegisterWrite
  try dsimp only
  repeat' first
    | exact (rfl : Nat.land _ _ = _)
    | with_reducible first
      | assumption | apply Kept.refl | apply KeptR.next | apply Kept.step (State.dapRegisterWrite_kept ..)

theorem State.dapGo_kept (s : State) : Kept 0xdffffffff s (State.dapGo s) := by
  unfold State.dapGo
  try dsimp only
  repeat' first
    | exact (rfl : Nat.land _ _ = _)
    | with_reducible first
      | assumption | apply Kept.refl | apply Kept.step (State.dapMemory_kept ..) | apply Kept.step (State.dapRegisterRead_kept ..)
      | apply Kept.step (State.dapRegisterWrite_kept ..) | apply Kept.ite
    | dsimp only
    | split

theorem State.putWhittlerDbg_kept (s : State) (v : BitVec 32) : Kept 0x96002026 s (State.putWhittlerDbg s v) := by
  unfold State.putWhittlerDbg
  try dsimp only
  repeat' first
    | exact (rfl : Nat.land _ _ = _)
    | exact fun _ => rfl
    | (intro _; try dsimp only)
    | with_reducible first
      | assumption | apply Kept.refl | apply Kept.then (State.granted_kept (hm := ?_) (hf := ?_) ..)
      | apply Kept.step (State.loadReg_kept ..) | apply Kept.step (State.haltFor_kept ..) | apply Kept.step (State.stepWhittler_kept ..)
      | apply Kept.step (State.letRun_kept ..) | apply Kept.step (State.putHonour_kept ..)
      | apply Kept.step (State.modDebug_kept (hf := ?_) ..) | apply Kept.ite
    | dsimp only
    | split

theorem State.putDap_kept (s : State) (o : Nat) (v : BitVec 32) : Kept 0xdffffffff s (State.putDap s o v) := by
  unfold State.putDap
  try dsimp only
  repeat' first
    | exact (rfl : Nat.land _ _ = _)
    | exact fun _ => rfl
    | with_reducible first
      | assumption | apply Kept.refl | apply Kept.step (State.modDebug_kept (hf := ?_) ..) | apply Kept.step (State.dapGo_kept ..)
      | apply Kept.step (State.putWhittlerDbg_kept ..) | apply Kept.ite
    | dsimp only
    | split

theorem State.putDap64_kept (s : State) (o : Nat) (v : BitVec 64) : Kept 0x10000000 s (State.putDap64 s o v) := by
  unfold State.putDap64
  try dsimp only
  repeat' first
    | exact (rfl : Nat.land _ _ = _)
    | exact fun _ => rfl
    | (intro _; try dsimp only)
    | with_reducible first
      | assumption | apply Kept.refl | apply Kept.then (State.granted_kept (hm := ?_) (hf := ?_) ..)
      | apply Kept.step (State.putReg_kept ..) | apply Kept.step (State.modDebug_kept (hf := ?_) ..) | apply Kept.ite
    | dsimp only
    | split

theorem State.dapSeen_kept (s : State) (o : Nat) : Kept 0x10000000 s (State.dapSeen s o) := by
  unfold State.dapSeen
  try dsimp only
  repeat' first
    | exact (rfl : Nat.land _ _ = _)
    | with_reducible first
      | assumption | apply Kept.refl | apply Kept.step (State.dapRefuse_kept ..) | apply Kept.ite
    | dsimp only
    | split

theorem dapMap_keeps : dapMap.Keeps 0xdffffffff :=
  ⟨fun s o v => (State.putDap_kept s o v).mono rfl, fun s o v => (State.putDap64_kept s o v).mono rfl, fun _ _ _ => .refl _ _,
    fun s o => (State.dapSeen_kept s o).mono rfl, fun _ => .refl _ _, fun s v => (State.modDebug_kept s (fun d => { d with staged := v }) fun _ => rfl).mono rfl⟩

theorem execRegisterWrite_kept (access : RegAccess) (s : State) : KeptR 0xdffffffff s (execRegisterWrite access s) := by
  unfold execRegisterWrite
  refine .next (.ite (.ite ?_ (.refl _ _)) ?_)
  · exact RegMap.write_kept _ (dapMap_keeps.mono rfl) ..
  · exact (State.registerWrite_kept ..).mono rfl

theorem execRegisterRead_kept (access : RegAccess) (hid : Nat) (s : State) : KeptR 0xdffffffff s (execRegisterRead access hid s) := by
  unfold execRegisterRead
  refine .ite (.ite (.next (.refl _ _)) (.next ?_)) ((State.registerRead_kept ..).mono rfl |> .next)
  exact (RegMap.read_kept _ (dapMap_keeps.mono rfl) ..).trans ((State.emit_kept ..).mono rfl)

theorem execPorchEnqueue_kept (source : PorchSource) (domain slots : Nat) (request : PorchRequest) (s : State) :
    KeptR 0xdffffffff s (execPorchEnqueue source domain slots request s) := by
  unfold execPorchEnqueue
  try dsimp only
  repeat' first
    | exact (rfl : Nat.land _ _ = _)
    | with_reducible first
      | assumption | apply Kept.refl | apply KeptR.next | apply Kept.step (State.route_kept ..) | apply Kept.ite | apply KeptR.ite
    | dsimp only
    | split

theorem State.replay_kept (s : State) (n : Nat) : Kept 0xdffffffff s (State.replay s n) := by
  have e1 : Nat.land 0x2 0xdffffffff = 0x2 := rfl
  unfold State.replay
  try dsimp only
  repeat' first
    | exact (rfl : Nat.land _ _ = _)
    | (intro _; try dsimp only)
    | with_reducible first
      | assumption | apply Kept.refl | apply Kept.fold | apply Kept.step (State.setPorch_kept ..)
      | apply Kept.step (State.admitWithheld_kept ..) | apply Kept.step (State.serve_kept ..)
      | fail_if_no_progress refine Kept.madeHearth e1 ?_

theorem execDomainWakeDone_kept (domain : Nat) (s : State) : KeptR 0xdffffffff s (execDomainWakeDone domain s) := by
  have e1 : Nat.land 0x2 0xdffffffff = 0x2 := rfl
  unfold execDomainWakeDone
  try dsimp only
  repeat' first
    | exact (rfl : Nat.land _ _ = _)
    | with_reducible first
      | assumption | apply Kept.refl | apply KeptR.next | apply Kept.step (State.nextJob_kept ..)
      | apply Kept.step (State.modDomain_kept ..) | apply Kept.step (State.cancelDeadline_kept ..)
      | apply Kept.step (State.replay_kept ..) | fail_if_no_progress refine Kept.madeHearth e1 ?_ | apply Kept.ite | apply KeptR.ite
    | dsimp only
    | split

theorem State.refillPin_kept (s : State) (p : CacheEntry) : Kept 0x20002020 s (State.refillPin s p) := by
  have e13 : Nat.land 0x2000 0x20002020 = 0x2000 := rfl
  unfold State.refillPin
  try dsimp only
  repeat' first
    | exact (rfl : Nat.land _ _ = _)
    | with_reducible first
      | assumption | apply Kept.refl | apply Kept.step (State.install_kept ..) | apply Kept.step (State.countPerf_kept ..)
      | fail_if_no_progress refine Kept.madeHeadstock e13 ?_ | apply Kept.ite
    | dsimp only
    | split

theorem execPd7RefillDone_kept (s : State) : KeptR 0x20002022 s (execPd7RefillDone s) := by
  have e1 : Nat.land 0x2 0x20002022 = 0x2 := rfl
  unfold execPd7RefillDone
  try dsimp only
  repeat' first
    | exact (rfl : Nat.land _ _ = _)
    | (intro _; try dsimp only)
    | with_reducible first
      | assumption | apply Kept.refl | apply Kept.fold | apply KeptR.next | apply Kept.step (State.refillPin_kept ..)
      | fail_if_no_progress refine Kept.madeHearth e1 ?_ | apply Kept.ite | apply KeptR.ite
    | dsimp only
    | split

theorem execGateDrainTimeout_kept (domain : Nat) (s : State) : KeptR 0x2 s (execGateDrainTimeout domain s) := by
  unfold execGateDrainTimeout
  try dsimp only
  repeat' first
    | exact (rfl : Nat.land _ _ = _)
    | with_reducible first
      | assumption | apply Kept.refl | apply KeptR.next | apply Kept.step (State.abortGate_kept ..) | apply Kept.ite | apply KeptR.ite
    | dsimp only
    | split

theorem execSmbusPointer_kept (offset : BitVec 24) (pecOk : Bool) (s : State) : KeptR 0x1 s (execSmbusPointer offset pecOk s) := by
  have e0 : Nat.land 0x1 0x1 = 0x1 := rfl
  unfold execSmbusPointer
  try dsimp only
  repeat' first
    | exact (rfl : Nat.land _ _ = _)
    | with_reducible first
      | assumption | apply Kept.refl | apply KeptR.next | apply Kept.step (State.countHub_kept ..)
      | fail_if_no_progress refine Kept.madeChip rfl rfl rfl e0 ?_ | apply Kept.ite | apply KeptR.ite
    | dsimp only
    | split

theorem execSmbusRead_kept (pecOk : Bool) (s : State) : KeptR 0xdffffffff s (execSmbusRead pecOk s) := by
  have e0 : Nat.land 0x1 0xdffffffff = 0x1 := rfl
  unfold execSmbusRead
  try dsimp only
  repeat' first
    | exact (rfl : Nat.land _ _ = _)
    | with_reducible first
      | assumption | apply Kept.refl | apply KeptR.next | apply Kept.step (State.emit_kept ..) | apply Kept.step (State.countHub_kept ..)
      | apply Kept.step (RegMap.read_kept (h := hubMap_keeps) ..) | fail_if_no_progress refine Kept.madeChip rfl rfl rfl e0 ?_
      | apply Kept.ite | apply KeptR.ite
    | dsimp only
    | split

theorem execSmbusRestart_kept (value : BitVec 16) (pecOk : Bool) (s : State) : KeptR 0xdffffffff s (execSmbusRestart value pecOk s) := by
  unfold execSmbusRestart
  try dsimp only
  repeat' first
    | exact (rfl : Nat.land _ _ = _)
    | with_reducible first
      | assumption | apply Kept.refl | apply KeptR.next | apply Kept.step (State.countHub_kept ..)
      | apply Kept.step (State.teardown_kept ..) | apply Kept.ite | apply KeptR.ite
    | dsimp only
    | split

end Sys2Proof.Machine
end

