-- ==== Sys2Proof/Laws/Kept/Seals.lean ====
section
/-!
SUPPORT. What the operations and commands of Machine/Seals.lean keep.
-/

namespace Sys2Proof.Machine

theorem State.checkSeal_kept (s : State) (b r : Nat) (d : Desc) (p : List Byte) : Kept 0xa000220 s (State.checkSeal s b r d p) := by
  unfold State.checkSeal
  try dsimp only
  repeat' first
    | exact (rfl : Nat.land _ _ = _)
    | with_reducible first
      | assumption | apply Kept.refl | apply Kept.step (State.endPlain_kept ..) | apply Kept.step (State.modStream_kept ..)
      | apply Kept.step (State.addTally_kept ..) | apply Kept.step (State.endDesc_kept ..) | apply Kept.ite
    | dsimp only
    | split

theorem execSealOpen_kept (bench ring : Nat) (block : LoadResult) (s : State) : KeptR 0x12b00a224 s (execSealOpen bench ring block s) := by
  unfold execSealOpen
  try dsimp only
  repeat' first
    | exact (rfl : Nat.land _ _ = _)
    | with_reducible first
      | assumption | apply Kept.refl | apply KeptR.next | apply Kept.step (State.meetObstacle_kept ..)
      | apply Kept.step (State.endPlain_kept ..) | apply Kept.step (State.begin_kept (e := by assumption) ..)
      | apply Kept.step (State.load_kept (e := by assumption) ..) | apply Kept.step (State.logLoad_kept ..)
      | apply Kept.step (State.endDesc_kept ..) | apply Kept.step (State.checkSeal_kept ..) | apply Kept.ite | apply KeptR.ite
    | dsimp only
    | split

theorem execSealClose_kept (bench ring : Nat) (s : State) : KeptR 0xa000224 s (execSealClose bench ring s) := by
  unfold execSealClose
  try dsimp only
  repeat' first
    | exact (rfl : Nat.land _ _ = _)
    | with_reducible first
      | assumption | apply Kept.refl | apply KeptR.next | apply Kept.step (State.endPlain_kept ..)
      | apply Kept.step (State.begin_kept (e := by assumption) ..) | apply Kept.step (State.endDependents_kept ..)
      | apply Kept.step (State.modStream_kept ..) | apply Kept.step (State.settleClose_kept ..) | apply Kept.ite | apply KeptR.ite
    | dsimp only
    | split

theorem execSealCheckDone_kept (stream : Nat) (s : State) : KeptR 0x12a009224 s (execSealCheckDone stream s) := by
  unfold execSealCheckDone
  try dsimp only
  repeat' first
    | exact (rfl : Nat.land _ _ = _)
    | with_reducible first
      | assumption | apply Kept.refl | apply KeptR.next | apply Kept.step (State.peerDrop_kept ..)
      | apply Kept.step (State.forwardFrame_kept ..) | apply Kept.step (State.frameDone_kept ..)
      | apply Kept.step (State.settleClose_kept ..) | apply Kept.ite | apply KeptR.ite
    | dsimp only
    | split

theorem execFrameEvent_kept (stream : Nat) (s : State) : KeptR 0x12a009220 s (execFrameEvent stream s) := by
  unfold execFrameEvent
  try dsimp only
  repeat' first
    | exact (rfl : Nat.land _ _ = _)
    | with_reducible first
      | assumption | apply Kept.refl | apply KeptR.next | apply Kept.step (State.portDone_kept ..)
      | apply Kept.step (State.frameDone_kept ..) | apply Kept.step (State.settleClose_kept ..) | apply Kept.ite | apply KeptR.ite
    | dsimp only
    | split

end Sys2Proof.Machine
end

