-- ==== Sys2Proof/Laws/Kept/Spindles.lean ====
section
/-!
SUPPORT. What the operations and commands of Machine/Spindles.lean keep.
-/

namespace Sys2Proof.Machine

theorem execSpAttemptStart_kept (die : Nat) (s : State) : KeptR 0x8000 s (execSpAttemptStart die s) := by
  unfold execSpAttemptStart
  try dsimp only
  repeat' first
    | exact (rfl : Nat.land _ _ = _)
    | with_reducible first
      | assumption | apply Kept.refl | apply KeptR.next | apply Kept.step (State.modDie_kept ..) | apply Kept.ite | apply KeptR.ite
    | dsimp only
    | split

theorem execDiePwrgoodRise_kept (die : Nat) (s : State) : KeptR 0x8000 s (execDiePwrgoodRise die s) := by
  unfold execDiePwrgoodRise
  try dsimp only
  repeat' first
    | exact (rfl : Nat.land _ _ = _)
    | with_reducible first
      | assumption | apply Kept.refl | apply KeptR.next | apply Kept.step (State.modDie_kept ..) | apply Kept.ite | apply KeptR.ite
    | dsimp only
    | split

theorem execDiePwrgoodFall_kept (die : Nat) (s : State) : KeptR 0xd7307f376 s (execDiePwrgoodFall die s) := by
  unfold execDiePwrgoodFall
  try dsimp only
  repeat' first
    | exact (rfl : Nat.land _ _ = _)
    | with_reducible first
      | assumption | apply Kept.refl | apply KeptR.next | apply Kept.step (State.modDie_kept ..)
      | apply Kept.step (State.dieCause_kept ..) | apply Kept.ite | apply KeptR.ite
    | dsimp only
    | split

theorem execDieFatal_kept (die : Nat) (s : State) : KeptR 0xd7307f376 s (execDieFatal die s) := by
  unfold execDieFatal
  try dsimp only
  repeat' first
    | exact (rfl : Nat.land _ _ = _)
    | with_reducible first
      | assumption | apply Kept.refl | apply KeptR.next | apply Kept.step (State.dieCause_kept ..) | apply Kept.ite | apply KeptR.ite
    | dsimp only
    | split

theorem execSpLanesAligned_kept (die : Nat) (half : Bool) (s : State) : KeptR 0x8000 s (execSpLanesAligned die half s) := by
  unfold execSpLanesAligned
  try dsimp only
  repeat' first
    | exact (rfl : Nat.land _ _ = _)
    | with_reducible first
      | assumption | apply Kept.refl | apply KeptR.next | apply Kept.step (State.modDie_kept ..) | apply Kept.ite | apply KeptR.ite
    | dsimp only
    | split

theorem execSpParametersExchanged_kept (die : Nat) (accepted : Bool) (memGiB : Nat) (defects : List Nat) (s : State) :
    KeptR 0x8000 s (execSpParametersExchanged die accepted memGiB defects s) := by
  unfold execSpParametersExchanged
  try dsimp only
  repeat' first
    | exact (rfl : Nat.land _ _ = _)
    | with_reducible first
      | assumption | apply Kept.refl | apply KeptR.next | apply Kept.step (State.modDie_kept ..) | apply Kept.ite | apply KeptR.ite
    | dsimp only
    | split

theorem execSpCreditsExchanged_kept (die : Nat) (s : State) : KeptR 0x120008000 s (execSpCreditsExchanged die s) := by
  unfold execSpCreditsExchanged
  try dsimp only
  repeat' first
    | exact (rfl : Nat.land _ _ = _)
    | with_reducible first
      | assumption | apply Kept.refl | apply KeptR.next | apply Kept.step (State.modDie_kept ..) | apply Kept.step (State.sendDie_kept ..)
      | apply Kept.ite | apply KeptR.ite
    | dsimp only
    | split

theorem execSpZeroFillDone_kept (die : Nat) (s : State) : KeptR 0x8002 s (execSpZeroFillDone die s) := by
  unfold execSpZeroFillDone
  try dsimp only
  repeat' first
    | exact (rfl : Nat.land _ _ = _)
    | with_reducible first
      | assumption | apply Kept.refl | apply KeptR.next | apply Kept.step (State.modDie_kept ..)
      | apply Kept.step (State.cancelDeadline_kept ..) | apply Kept.ite | apply KeptR.ite
    | dsimp only
    | split

theorem execSpStepTimeout_kept (die : Nat) (found : LaneFault) (s : State) : KeptR 0x8000 s (execSpStepTimeout die found s) := by
  unfold execSpStepTimeout
  try dsimp only
  repeat' first
    | exact (rfl : Nat.land _ _ = _)
    | with_reducible first
      | assumption | apply Kept.refl | apply KeptR.next | apply Kept.step (State.modDie_kept ..) | apply Kept.ite | apply KeptR.ite
    | dsimp only
    | split

theorem execSpBackoffExpiry_kept (die : Nat) (s : State) : KeptR 0x8002 s (execSpBackoffExpiry die s) := by
  unfold execSpBackoffExpiry
  try dsimp only
  repeat' first
    | exact (rfl : Nat.land _ _ = _)
    | (intro _; try dsimp only)
    | with_reducible first
      | assumption | apply Kept.refl | apply KeptR.next | apply Kept.then (State.ownedBy_kept (hm := ?_) (hf := ?_) ..)
      | apply Kept.step (State.modDie_kept ..) | apply Kept.step (State.addDeadline_kept ..) | apply Kept.ite | apply KeptR.ite
    | dsimp only
    | split

theorem execSpAbsentRetry_kept (die : Nat) (s : State) : KeptR 0x8002 s (execSpAbsentRetry die s) := by
  unfold execSpAbsentRetry
  try dsimp only
  repeat' first
    | exact (rfl : Nat.land _ _ = _)
    | (intro _; try dsimp only)
    | with_reducible first
      | assumption | apply Kept.refl | apply KeptR.next | apply Kept.then (State.ownedBy_kept (hm := ?_) (hf := ?_) ..)
      | apply Kept.step (State.modDie_kept ..) | apply Kept.step (State.addDeadline_kept ..)
      | apply Kept.step (State.cancelDeadline_kept ..) | apply Kept.ite | apply KeptR.ite
    | dsimp only
    | split

theorem execFlitCrcError_kept (link : LinkName) (same : Bool) (s : State) : KeptR 0x100808008 s (execFlitCrcError link same s) := by
  unfold execFlitCrcError
  try dsimp only
  repeat' first
    | exact (rfl : Nat.land _ _ = _)
    | with_reducible first
      | assumption | apply Kept.refl | apply KeptR.next | apply Kept.step (State.modDie_kept ..)
      | apply Kept.step (State.modEnvan_kept ..) | apply Kept.step (State.aer_kept ..) | apply Kept.ite | apply KeptR.ite
    | dsimp only
    | split

theorem execFlitAckTimeout_kept (die : Nat) (s : State) : KeptR 0x8000 s (execFlitAckTimeout die s) := by
  unfold execFlitAckTimeout
  try dsimp only
  repeat' first
    | exact (rfl : Nat.land _ _ = _)
    | with_reducible first
      | assumption | apply Kept.refl | apply KeptR.next | apply Kept.step (State.modDie_kept ..)

theorem execSpRecoveryDone_kept (die : Nat) (ok : Bool) (s : State) : KeptR 0xd7307f376 s (execSpRecoveryDone die ok s) := by
  unfold execSpRecoveryDone
  try dsimp only
  repeat' first
    | exact (rfl : Nat.land _ _ = _)
    | with_reducible first
      | assumption | apply Kept.refl | apply KeptR.next | apply Kept.step (State.modDie_kept ..) | apply Kept.step (State.dieLost_kept ..)
      | apply Kept.step (State.portResumes_kept ..) | apply Kept.ite | apply KeptR.ite
    | dsimp only
    | split

theorem execSpRequestTimeout_kept (die : Nat) (s : State) : KeptR 0xd7307f376 s (execSpRequestTimeout die s) := by
  unfold execSpRequestTimeout
  try dsimp only
  repeat' first
    | exact (rfl : Nat.land _ _ = _)
    | with_reducible first
      | assumption | apply Kept.refl | apply KeptR.next | apply Kept.step (State.dieLost_kept ..) | apply Kept.ite | apply KeptR.ite
    | dsimp only
    | split

theorem execXltRequest_kept (die core id bench : Nat) (target : XltTarget) (write : Bool) (length : Nat) (data : List (Byte × Bool)) (s : State) :
    KeptR 0x12304b024 s (execXltRequest die core id bench target write length data s) := by
  unfold execXltRequest
  try dsimp only
  repeat' first
    | exact (rfl : Nat.land _ _ = _)
    | with_reducible first
      | assumption | apply Kept.refl | apply KeptR.next | apply Kept.step (State.useEntry_kept ..)
      | apply Kept.step (State.modDie_kept ..) | apply Kept.step (State.countPerf_kept ..) | apply Kept.step (State.sendHub_kept ..)
      | apply Kept.step (State.logError_kept ..) | apply Kept.step (State.askDie_kept ..) | apply Kept.step (State.refuseCore_kept ..)
      | apply Kept.step (State.pinViolation_kept ..) | apply Kept.ite | apply KeptR.ite
    | dsimp only
    | split

theorem execDieReadResponse_kept (die id : Nat) (status : MemStatus) (data : List Byte) (s : State) :
    KeptR 0x123039024 s (execDieReadResponse die id status data s) := by
  have e17 : Nat.land 0x20000 0x123039024 = 0x20000 := rfl
  unfold execDieReadResponse
  try dsimp only
  repeat' first
    | exact (rfl : Nat.land _ _ = _)
    | with_reducible first
      | assumption | apply Kept.refl | apply KeptR.next | apply Kept.step (State.modDie_kept ..)
      | apply Kept.step (State.countPerf_kept ..) | apply Kept.step (State.sendHub_kept ..) | apply Kept.step (State.portDone_kept ..)
      | apply Kept.step (State.answerCore_kept ..) | apply Kept.step (State.answerBar2_kept ..)
      | fail_if_no_progress refine Kept.madeRemotes e17 ?_ | apply Kept.ite | apply KeptR.ite
    | dsimp only
    | split

theorem execCoreEventWrite_kept (die core line op : Nat) (s : State) : KeptR 0x2008424 s (execCoreEventWrite die core line op s) := by
  unfold execCoreEventWrite
  try dsimp only
  repeat' first
    | exact (rfl : Nat.land _ _ = _)
    | with_reducible first
      | assumption | apply Kept.refl | apply KeptR.next | apply Kept.step (State.lineOp_kept ..) | apply Kept.step (State.modDie_kept ..)
      | apply Kept.step (State.logError_kept ..) | apply Kept.ite | apply KeptR.ite
    | dsimp only
    | split

theorem execCoreFatalError_kept (die core : Nat) (address : BitVec 64) (s : State) : KeptR 0x123048024 s (execCoreFatalError die core address s) := by
  unfold execCoreFatalError
  try dsimp only
  repeat' first
    | exact (rfl : Nat.land _ _ = _)
    | with_reducible first
      | assumption | apply Kept.refl | apply KeptR.next | apply Kept.step (State.logError_kept ..)
      | apply Kept.step (State.coreCause_kept ..) | apply Kept.ite | apply KeptR.ite
    | dsimp only
    | split

theorem execDieUeReport_kept (die : Nat) (spa : BitVec 64) (s : State) : KeptR 0x2000024 s (execDieUeReport die spa s) := by
  unfold execDieUeReport
  try dsimp only
  repeat' first
    | exact (rfl : Nat.land _ _ = _)
    | with_reducible first
      | assumption | apply Kept.refl | apply KeptR.next | apply Kept.step (State.logError_kept ..) | apply Kept.ite | apply KeptR.ite
    | dsimp only
    | split

end Sys2Proof.Machine
end

