-- ==== Sys2Proof/Laws/Kept/Stalls.lean ====
section
/-!
SUPPORT. What the operations and commands of Machine/Stalls.lean keep.
-/

namespace Sys2Proof.Machine

theorem State.countBenchStalls_kept (s : State) (ns b : Nat) : Kept 0x20000020 s (State.countBenchStalls s ns b) := by
  unfold State.countBenchStalls
  try dsimp only
  repeat' first
    | exact (rfl : Nat.land _ _ = _)
    | (intro _; try dsimp only)
    | with_reducible first
      | assumption | apply Kept.refl | apply Kept.fold | apply Kept.step (State.modBench_kept ..)
      | apply Kept.step (State.countPerf_kept ..)

theorem State.countBusy_kept (s : State) (ns : Nat) : Kept 0x20000000 s (State.countBusy s ns) := by
  unfold State.countBusy
  try dsimp only
  repeat' first
    | exact (rfl : Nat.land _ _ = _)
    | (intro _; try dsimp only)
    | with_reducible first
      | assumption | apply Kept.refl | apply Kept.fold | apply Kept.step (State.countPerf_kept ..)

theorem State.countTime_kept (s : State) (us : Nat) : Kept 0x20000020 s (State.countTime s us) := by
  unfold State.countTime
  try dsimp only
  repeat' first
    | exact (rfl : Nat.land _ _ = _)
    | (intro _; try dsimp only)
    | with_reducible first
      | assumption | apply Kept.refl | apply Kept.fold | apply Kept.step (State.countBenchStalls_kept ..)
      | apply Kept.step (State.countBusy_kept ..) | apply Kept.ite
    | dsimp only
    | split

theorem State.idleTick_kept (s : State) : Kept 0xa0000022 s (State.idleTick s) := by
  unfold State.idleTick
  try dsimp only
  repeat' first
    | exact (rfl : Nat.land _ _ = _)
    | with_reducible first
      | assumption | apply Kept.refl | apply Kept.step (State.tick_kept ..) | apply Kept.step (State.countTime_kept ..)

end Sys2Proof.Machine
end

