-- ==== Sys2Proof/Laws/State.lean ====
section
/-!
SUPPORT. One lemma per field per update of the state, true by rfl, and the reading of a unit after an update of it or of another.
-/

namespace Sys2Proof.Machine

@[simp] theorem State.modPort_pending (s : State) (p : Nat) (f : Port → Port) : (s.modPort p f).pending = s.pending := rfl
@[simp] theorem State.modPort_chip (s : State) (p : Nat) (f : Port → Port) : (s.modPort p f).chip = s.chip := rfl
@[simp] theorem State.modPort_hearth (s : State) (p : Nat) (f : Port → Port) : (s.modPort p f).hearth = s.hearth := rfl
@[simp] theorem State.modPort_fns (s : State) (p : Nat) (f : Port → Port) : (s.modPort p f).fns = s.fns := rfl
@[simp] theorem State.modPort_mailbox (s : State) (p : Nat) (f : Port → Port) : (s.modPort p f).mailbox = s.mailbox := rfl
@[simp] theorem State.modPort_benches (s : State) (p : Nat) (f : Port → Port) : (s.modPort p f).benches = s.benches := rfl
@[simp] theorem State.modPort_zeroFill (s : State) (p : Nat) (f : Port → Port) : (s.modPort p f).zeroFill = s.zeroFill := rfl
@[simp] theorem State.modPort_forming (s : State) (p : Nat) (f : Port → Port) : (s.modPort p f).forming = s.forming := rfl
@[simp] theorem State.modPort_formingFlr (s : State) (p : Nat) (f : Port → Port) : (s.modPort p f).formingFlr = s.formingFlr := rfl
@[simp] theorem State.modPort_lathes (s : State) (p : Nat) (f : Port → Port) : (s.modPort p f).lathes = s.lathes := rfl
@[simp] theorem State.modPort_events (s : State) (p : Nat) (f : Port → Port) : (s.modPort p f).events = s.events := rfl
@[simp] theorem State.modPort_paceTimers (s : State) (p : Nat) (f : Port → Port) : (s.modPort p f).paceTimers = s.paceTimers := rfl
@[simp] theorem State.modPort_charges (s : State) (p : Nat) (f : Port → Port) : (s.modPort p f).charges = s.charges := rfl
@[simp] theorem State.modPort_headstock (s : State) (p : Nat) (f : Port → Port) : (s.modPort p f).headstock = s.headstock := rfl
@[simp] theorem State.modPort_mig (s : State) (p : Nat) (f : Port → Port) : (s.modPort p f).mig = s.mig := rfl
@[simp] theorem State.modPort_spindles (s : State) (p : Nat) (f : Port → Port) : (s.modPort p f).spindles = s.spindles := rfl
@[simp] theorem State.modPort_bar2Reads (s : State) (p : Nat) (f : Port → Port) : (s.modPort p f).bar2Reads = s.bar2Reads := rfl
@[simp] theorem State.modPort_bar2Writes (s : State) (p : Nat) (f : Port → Port) : (s.modPort p f).bar2Writes = s.bar2Writes := rfl
@[simp] theorem State.modPort_bar2Queue (s : State) (p : Nat) (f : Port → Port) : (s.modPort p f).bar2Queue = s.bar2Queue := rfl
@[simp] theorem State.modPort_remotes (s : State) (p : Nat) (f : Port → Port) : (s.modPort p f).remotes = s.remotes := rfl
@[simp] theorem State.modPort_placements (s : State) (p : Nat) (f : Port → Port) : (s.modPort p f).placements = s.placements := rfl
@[simp] theorem State.modPort_launches (s : State) (p : Nat) (f : Port → Port) : (s.modPort p f).launches = s.launches := rfl
@[simp] theorem State.modPort_jobs (s : State) (p : Nat) (f : Port → Port) : (s.modPort p f).jobs = s.jobs := rfl
@[simp] theorem State.modPort_dense (s : State) (p : Nat) (f : Port → Port) : (s.modPort p f).dense = s.dense := rfl
@[simp] theorem State.modPort_lattice (s : State) (p : Nat) (f : Port → Port) : (s.modPort p f).lattice = s.lattice := rfl
@[simp] theorem State.modPort_envans (s : State) (p : Nat) (f : Port → Port) : (s.modPort p f).envans = s.envans := rfl
@[simp] theorem State.modPort_cascade (s : State) (p : Nat) (f : Port → Port) : (s.modPort p f).cascade = s.cascade := rfl
@[simp] theorem State.modPort_recovery (s : State) (p : Nat) (f : Port → Port) : (s.modPort p f).recovery = s.recovery := rfl
@[simp] theorem State.modPort_bg (s : State) (p : Nat) (f : Port → Port) : (s.modPort p f).bg = s.bg := rfl
@[simp] theorem State.modPort_streams (s : State) (p : Nat) (f : Port → Port) : (s.modPort p f).streams = s.streams := rfl
@[simp] theorem State.modPort_dbg (s : State) (p : Nat) (f : Port → Port) : (s.modPort p f).dbg = s.dbg := rfl
@[simp] theorem State.modPort_perf (s : State) (p : Nat) (f : Port → Port) : (s.modPort p f).perf = s.perf := rfl
@[simp] theorem State.modPort_billetMem (s : State) (p : Nat) (f : Port → Port) : (s.modPort p f).billetMem = s.billetMem := rfl
@[simp] theorem State.modPort_draws (s : State) (p : Nat) (f : Port → Port) : (s.modPort p f).draws = s.draws := rfl
@[simp] theorem State.modPort_out (s : State) (p : Nat) (f : Port → Port) : (s.modPort p f).out = s.out := rfl
@[simp] theorem State.modPort_at_fnAt (s : State) (p : Nat) (f : Port → Port) (q k : Nat) : (s.modPort p f).fnAt q k = s.fnAt q k := rfl
@[simp] theorem State.modPort_at_bench (s : State) (p : Nat) (f : Port → Port) (c : Nat) : (s.modPort p f).bench c = s.bench c := rfl
@[simp] theorem State.modPort_at_ring (s : State) (p : Nat) (f : Port → Port) (c q : Nat) : (s.modPort p f).ring c q = s.ring c q := rfl
@[simp] theorem State.modPort_at_lathe (s : State) (p : Nat) (f : Port → Port) (q : Nat) : (s.modPort p f).lathe q = s.lathe q := rfl
@[simp] theorem State.modPort_at_die (s : State) (p : Nat) (f : Port → Port) (q : Nat) : (s.modPort p f).die q = s.die q := rfl
@[simp] theorem State.modPort_at_envan (s : State) (p : Nat) (f : Port → Port) (q : Nat) : (s.modPort p f).envan q = s.envan q := rfl
@[simp] theorem State.modPort_at_whittler (s : State) (p : Nat) (f : Port → Port) (q : Nat) : (s.modPort p f).whittler q = s.whittler q := rfl
@[simp] theorem State.modPort_at_stream (s : State) (p : Nat) (f : Port → Port) (q : Nat) : (s.modPort p f).stream q = s.stream q := rfl
@[simp] theorem State.modPort_at_event (s : State) (p : Nat) (f : Port → Port) (q : Nat) : (s.modPort p f).event q = s.event q := rfl
@[simp] theorem State.modPort_at_paceTimer (s : State) (p : Nat) (f : Port → Port) (q : Bool) (k : Nat) : (s.modPort p f).paceTimer q k = s.paceTimer q k := rfl
@[simp] theorem State.modPort_at_domain (s : State) (p : Nat) (f : Port → Port) (q : Nat) : (s.modPort p f).domain q = s.domain q := rfl
@[simp] theorem State.modPort_at_guest (s : State) (p : Nat) (f : Port → Port) (q : Nat) : (s.modPort p f).guest q = s.guest q := rfl
@[simp] theorem State.modPort_now (s : State) (p : Nat) (f : Port → Port) : (s.modPort p f).now = s.now := rfl
@[simp] theorem State.modPort_big (s : State) (p : Nat) (f : Port → Port) : (s.modPort p f).big = s.big := rfl

@[simp] theorem State.modFn_pending (s : State) (p n : Nat) (f : Fn → Fn) : (s.modFn p n f).pending = s.pending := rfl
@[simp] theorem State.modFn_chip (s : State) (p n : Nat) (f : Fn → Fn) : (s.modFn p n f).chip = s.chip := rfl
@[simp] theorem State.modFn_hearth (s : State) (p n : Nat) (f : Fn → Fn) : (s.modFn p n f).hearth = s.hearth := rfl
@[simp] theorem State.modFn_ports (s : State) (p n : Nat) (f : Fn → Fn) : (s.modFn p n f).ports = s.ports := rfl
@[simp] theorem State.modFn_mailbox (s : State) (p n : Nat) (f : Fn → Fn) : (s.modFn p n f).mailbox = s.mailbox := rfl
@[simp] theorem State.modFn_benches (s : State) (p n : Nat) (f : Fn → Fn) : (s.modFn p n f).benches = s.benches := rfl
@[simp] theorem State.modFn_zeroFill (s : State) (p n : Nat) (f : Fn → Fn) : (s.modFn p n f).zeroFill = s.zeroFill := rfl
@[simp] theorem State.modFn_forming (s : State) (p n : Nat) (f : Fn → Fn) : (s.modFn p n f).forming = s.forming := rfl
@[simp] theorem State.modFn_formingFlr (s : State) (p n : Nat) (f : Fn → Fn) : (s.modFn p n f).formingFlr = s.formingFlr := rfl
@[simp] theorem State.modFn_lathes (s : State) (p n : Nat) (f : Fn → Fn) : (s.modFn p n f).lathes = s.lathes := rfl
@[simp] theorem State.modFn_events (s : State) (p n : Nat) (f : Fn → Fn) : (s.modFn p n f).events = s.events := rfl
@[simp] theorem State.modFn_paceTimers (s : State) (p n : Nat) (f : Fn → Fn) : (s.modFn p n f).paceTimers = s.paceTimers := rfl
@[simp] theorem State.modFn_charges (s : State) (p n : Nat) (f : Fn → Fn) : (s.modFn p n f).charges = s.charges := rfl
@[simp] theorem State.modFn_headstock (s : State) (p n : Nat) (f : Fn → Fn) : (s.modFn p n f).headstock = s.headstock := rfl
@[simp] theorem State.modFn_mig (s : State) (p n : Nat) (f : Fn → Fn) : (s.modFn p n f).mig = s.mig := rfl
@[simp] theorem State.modFn_spindles (s : State) (p n : Nat) (f : Fn → Fn) : (s.modFn p n f).spindles = s.spindles := rfl
@[simp] theorem State.modFn_bar2Reads (s : State) (p n : Nat) (f : Fn → Fn) : (s.modFn p n f).bar2Reads = s.bar2Reads := rfl
@[simp] theorem State.modFn_bar2Writes (s : State) (p n : Nat) (f : Fn → Fn) : (s.modFn p n f).bar2Writes = s.bar2Writes := rfl
@[simp] theorem State.modFn_bar2Queue (s : State) (p n : Nat) (f : Fn → Fn) : (s.modFn p n f).bar2Queue = s.bar2Queue := rfl
@[simp] theorem State.modFn_remotes (s : State) (p n : Nat) (f : Fn → Fn) : (s.modFn p n f).remotes = s.remotes := rfl
@[simp] theorem State.modFn_placements (s : State) (p n : Nat) (f : Fn → Fn) : (s.modFn p n f).placements = s.placements := rfl
@[simp] theorem State.modFn_launches (s : State) (p n : Nat) (f : Fn → Fn) : (s.modFn p n f).launches = s.launches := rfl
@[simp] theorem State.modFn_jobs (s : State) (p n : Nat) (f : Fn → Fn) : (s.modFn p n f).jobs = s.jobs := rfl
@[simp] theorem State.modFn_dense (s : State) (p n : Nat) (f : Fn → Fn) : (s.modFn p n f).dense = s.dense := rfl
@[simp] theorem State.modFn_lattice (s : State) (p n : Nat) (f : Fn → Fn) : (s.modFn p n f).lattice = s.lattice := rfl
@[simp] theorem State.modFn_envans (s : State) (p n : Nat) (f : Fn → Fn) : (s.modFn p n f).envans = s.envans := rfl
@[simp] theorem State.modFn_cascade (s : State) (p n : Nat) (f : Fn → Fn) : (s.modFn p n f).cascade = s.cascade := rfl
@[simp] theorem State.modFn_recovery (s : State) (p n : Nat) (f : Fn → Fn) : (s.modFn p n f).recovery = s.recovery := rfl
@[simp] theorem State.modFn_bg (s : State) (p n : Nat) (f : Fn → Fn) : (s.modFn p n f).bg = s.bg := rfl
@[simp] theorem State.modFn_streams (s : State) (p n : Nat) (f : Fn → Fn) : (s.modFn p n f).streams = s.streams := rfl
@[simp] theorem State.modFn_dbg (s : State) (p n : Nat) (f : Fn → Fn) : (s.modFn p n f).dbg = s.dbg := rfl
@[simp] theorem State.modFn_perf (s : State) (p n : Nat) (f : Fn → Fn) : (s.modFn p n f).perf = s.perf := rfl
@[simp] theorem State.modFn_billetMem (s : State) (p n : Nat) (f : Fn → Fn) : (s.modFn p n f).billetMem = s.billetMem := rfl
@[simp] theorem State.modFn_draws (s : State) (p n : Nat) (f : Fn → Fn) : (s.modFn p n f).draws = s.draws := rfl
@[simp] theorem State.modFn_out (s : State) (p n : Nat) (f : Fn → Fn) : (s.modFn p n f).out = s.out := rfl
@[simp] theorem State.modFn_at_port (s : State) (p n : Nat) (f : Fn → Fn) (q : Nat) : (s.modFn p n f).port q = s.port q := rfl
@[simp] theorem State.modFn_at_bench (s : State) (p n : Nat) (f : Fn → Fn) (c : Nat) : (s.modFn p n f).bench c = s.bench c := rfl
@[simp] theorem State.modFn_at_ring (s : State) (p n : Nat) (f : Fn → Fn) (c q : Nat) : (s.modFn p n f).ring c q = s.ring c q := rfl
@[simp] theorem State.modFn_at_lathe (s : State) (p n : Nat) (f : Fn → Fn) (q : Nat) : (s.modFn p n f).lathe q = s.lathe q := rfl
@[simp] theorem State.modFn_at_die (s : State) (p n : Nat) (f : Fn → Fn) (q : Nat) : (s.modFn p n f).die q = s.die q := rfl
@[simp] theorem State.modFn_at_envan (s : State) (p n : Nat) (f : Fn → Fn) (q : Nat) : (s.modFn p n f).envan q = s.envan q := rfl
@[simp] theorem State.modFn_at_whittler (s : State) (p n : Nat) (f : Fn → Fn) (q : Nat) : (s.modFn p n f).whittler q = s.whittler q := rfl
@[simp] theorem State.modFn_at_stream (s : State) (p n : Nat) (f : Fn → Fn) (q : Nat) : (s.modFn p n f).stream q = s.stream q := rfl
@[simp] theorem State.modFn_at_event (s : State) (p n : Nat) (f : Fn → Fn) (q : Nat) : (s.modFn p n f).event q = s.event q := rfl
@[simp] theorem State.modFn_at_paceTimer (s : State) (p n : Nat) (f : Fn → Fn) (q : Bool) (k : Nat) : (s.modFn p n f).paceTimer q k = s.paceTimer q k := rfl
@[simp] theorem State.modFn_at_domain (s : State) (p n : Nat) (f : Fn → Fn) (q : Nat) : (s.modFn p n f).domain q = s.domain q := rfl
@[simp] theorem State.modFn_at_guest (s : State) (p n : Nat) (f : Fn → Fn) (q : Nat) : (s.modFn p n f).guest q = s.guest q := rfl
@[simp] theorem State.modFn_now (s : State) (p n : Nat) (f : Fn → Fn) : (s.modFn p n f).now = s.now := rfl
@[simp] theorem State.modFn_big (s : State) (p n : Nat) (f : Fn → Fn) : (s.modFn p n f).big = s.big := rfl

@[simp] theorem State.setBench_pending (s : State) (b : Nat) (v : Bench) : (s.setBench b v).pending = s.pending := rfl
@[simp] theorem State.setBench_chip (s : State) (b : Nat) (v : Bench) : (s.setBench b v).chip = s.chip := rfl
@[simp] theorem State.setBench_hearth (s : State) (b : Nat) (v : Bench) : (s.setBench b v).hearth = s.hearth := rfl
@[simp] theorem State.setBench_ports (s : State) (b : Nat) (v : Bench) : (s.setBench b v).ports = s.ports := rfl
@[simp] theorem State.setBench_fns (s : State) (b : Nat) (v : Bench) : (s.setBench b v).fns = s.fns := rfl
@[simp] theorem State.setBench_mailbox (s : State) (b : Nat) (v : Bench) : (s.setBench b v).mailbox = s.mailbox := rfl
@[simp] theorem State.setBench_zeroFill (s : State) (b : Nat) (v : Bench) : (s.setBench b v).zeroFill = s.zeroFill := rfl
@[simp] theorem State.setBench_forming (s : State) (b : Nat) (v : Bench) : (s.setBench b v).forming = s.forming := rfl
@[simp] theorem State.setBench_formingFlr (s : State) (b : Nat) (v : Bench) : (s.setBench b v).formingFlr = s.formingFlr := rfl
@[simp] theorem State.setBench_lathes (s : State) (b : Nat) (v : Bench) : (s.setBench b v).lathes = s.lathes := rfl
@[simp] theorem State.setBench_events (s : State) (b : Nat) (v : Bench) : (s.setBench b v).events = s.events := rfl
@[simp] theorem State.setBench_paceTimers (s : State) (b : Nat) (v : Bench) : (s.setBench b v).paceTimers = s.paceTimers := rfl
@[simp] theorem State.setBench_charges (s : State) (b : Nat) (v : Bench) : (s.setBench b v).charges = s.charges := rfl
@[simp] theorem State.setBench_headstock (s : State) (b : Nat) (v : Bench) : (s.setBench b v).headstock = s.headstock := rfl
@[simp] theorem State.setBench_mig (s : State) (b : Nat) (v : Bench) : (s.setBench b v).mig = s.mig := rfl
@[simp] theorem State.setBench_spindles (s : State) (b : Nat) (v : Bench) : (s.setBench b v).spindles = s.spindles := rfl
@[simp] theorem State.setBench_bar2Reads (s : State) (b : Nat) (v : Bench) : (s.setBench b v).bar2Reads = s.bar2Reads := rfl
@[simp] theorem State.setBench_bar2Writes (s : State) (b : Nat) (v : Bench) : (s.setBench b v).bar2Writes = s.bar2Writes := rfl
@[simp] theorem State.setBench_bar2Queue (s : State) (b : Nat) (v : Bench) : (s.setBench b v).bar2Queue = s.bar2Queue := rfl
@[simp] theorem State.setBench_remotes (s : State) (b : Nat) (v : Bench) : (s.setBench b v).remotes = s.remotes := rfl
@[simp] theorem State.setBench_placements (s : State) (b : Nat) (v : Bench) : (s.setBench b v).placements = s.placements := rfl
@[simp] theorem State.setBench_launches (s : State) (b : Nat) (v : Bench) : (s.setBench b v).launches = s.launches := rfl
@[simp] theorem State.setBench_jobs (s : State) (b : Nat) (v : Bench) : (s.setBench b v).jobs = s.jobs := rfl
@[simp] theorem State.setBench_dense (s : State) (b : Nat) (v : Bench) : (s.setBench b v).dense = s.dense := rfl
@[simp] theorem State.setBench_lattice (s : State) (b : Nat) (v : Bench) : (s.setBench b v).lattice = s.lattice := rfl
@[simp] theorem State.setBench_envans (s : State) (b : Nat) (v : Bench) : (s.setBench b v).envans = s.envans := rfl
@[simp] theorem State.setBench_cascade (s : State) (b : Nat) (v : Bench) : (s.setBench b v).cascade = s.cascade := rfl
@[simp] theorem State.setBench_recovery (s : State) (b : Nat) (v : Bench) : (s.setBench b v).recovery = s.recovery := rfl
@[simp] theorem State.setBench_bg (s : State) (b : Nat) (v : Bench) : (s.setBench b v).bg = s.bg := rfl
@[simp] theorem State.setBench_streams (s : State) (b : Nat) (v : Bench) : (s.setBench b v).streams = s.streams := rfl
@[simp] theorem State.setBench_dbg (s : State) (b : Nat) (v : Bench) : (s.setBench b v).dbg = s.dbg := rfl
@[simp] theorem State.setBench_perf (s : State) (b : Nat) (v : Bench) : (s.setBench b v).perf = s.perf := rfl
@[simp] theorem State.setBench_billetMem (s : State) (b : Nat) (v : Bench) : (s.setBench b v).billetMem = s.billetMem := rfl
@[simp] theorem State.setBench_draws (s : State) (b : Nat) (v : Bench) : (s.setBench b v).draws = s.draws := rfl
@[simp] theorem State.setBench_out (s : State) (b : Nat) (v : Bench) : (s.setBench b v).out = s.out := rfl
@[simp] theorem State.setBench_at_port (s : State) (b : Nat) (v : Bench) (q : Nat) : (s.setBench b v).port q = s.port q := rfl
@[simp] theorem State.setBench_at_fnAt (s : State) (b : Nat) (v : Bench) (q k : Nat) : (s.setBench b v).fnAt q k = s.fnAt q k := rfl
@[simp] theorem State.setBench_at_lathe (s : State) (b : Nat) (v : Bench) (q : Nat) : (s.setBench b v).lathe q = s.lathe q := rfl
@[simp] theorem State.setBench_at_die (s : State) (b : Nat) (v : Bench) (q : Nat) : (s.setBench b v).die q = s.die q := rfl
@[simp] theorem State.setBench_at_envan (s : State) (b : Nat) (v : Bench) (q : Nat) : (s.setBench b v).envan q = s.envan q := rfl
@[simp] theorem State.setBench_at_whittler (s : State) (b : Nat) (v : Bench) (q : Nat) : (s.setBench b v).whittler q = s.whittler q := rfl
@[simp] theorem State.setBench_at_stream (s : State) (b : Nat) (v : Bench) (q : Nat) : (s.setBench b v).stream q = s.stream q := rfl
@[simp] theorem State.setBench_at_event (s : State) (b : Nat) (v : Bench) (q : Nat) : (s.setBench b v).event q = s.event q := rfl
@[simp] theorem State.setBench_at_paceTimer (s : State) (b : Nat) (v : Bench) (q : Bool) (k : Nat) : (s.setBench b v).paceTimer q k = s.paceTimer q k := rfl
@[simp] theorem State.setBench_at_domain (s : State) (b : Nat) (v : Bench) (q : Nat) : (s.setBench b v).domain q = s.domain q := rfl
@[simp] theorem State.setBench_at_guest (s : State) (b : Nat) (v : Bench) (q : Nat) : (s.setBench b v).guest q = s.guest q := rfl
@[simp] theorem State.setBench_now (s : State) (b : Nat) (v : Bench) : (s.setBench b v).now = s.now := rfl
@[simp] theorem State.setBench_big (s : State) (b : Nat) (v : Bench) : (s.setBench b v).big = s.big := rfl

@[simp] theorem State.modBench_pending (s : State) (b : Nat) (f : Bench → Bench) : (s.modBench b f).pending = s.pending := rfl
@[simp] theorem State.modBench_chip (s : State) (b : Nat) (f : Bench → Bench) : (s.modBench b f).chip = s.chip := rfl
@[simp] theorem State.modBench_hearth (s : State) (b : Nat) (f : Bench → Bench) : (s.modBench b f).hearth = s.hearth := rfl
@[simp] theorem State.modBench_ports (s : State) (b : Nat) (f : Bench → Bench) : (s.modBench b f).ports = s.ports := rfl
@[simp] theorem State.modBench_fns (s : State) (b : Nat) (f : Bench → Bench) : (s.modBench b f).fns = s.fns := rfl
@[simp] theorem State.modBench_mailbox (s : State) (b : Nat) (f : Bench → Bench) : (s.modBench b f).mailbox = s.mailbox := rfl
@[simp] theorem State.modBench_zeroFill (s : State) (b : Nat) (f : Bench → Bench) : (s.modBench b f).zeroFill = s.zeroFill := rfl
@[simp] theorem State.modBench_forming (s : State) (b : Nat) (f : Bench → Bench) : (s.modBench b f).forming = s.forming := rfl
@[simp] theorem State.modBench_formingFlr (s : State) (b : Nat) (f : Bench → Bench) : (s.modBench b f).formingFlr = s.formingFlr := rfl
@[simp] theorem State.modBench_lathes (s : State) (b : Nat) (f : Bench → Bench) : (s.modBench b f).lathes = s.lathes := rfl
@[simp] theorem State.modBench_events (s : State) (b : Nat) (f : Bench → Bench) : (s.modBench b f).events = s.events := rfl
@[simp] theorem State.modBench_paceTimers (s : State) (b : Nat) (f : Bench → Bench) : (s.modBench b f).paceTimers = s.paceTimers := rfl
@[simp] theorem State.modBench_charges (s : State) (b : Nat) (f : Bench → Bench) : (s.modBench b f).charges = s.charges := rfl
@[simp] theorem State.modBench_headstock (s : State) (b : Nat) (f : Bench → Bench) : (s.modBench b f).headstock = s.headstock := rfl
@[simp] theorem State.modBench_mig (s : State) (b : Nat) (f : Bench → Bench) : (s.modBench b f).mig = s.mig := rfl
@[simp] theorem State.modBench_spindles (s : State) (b : Nat) (f : Bench → Bench) : (s.modBench b f).spindles = s.spindles := rfl
@[simp] theorem State.modBench_bar2Reads (s : State) (b : Nat) (f : Bench → Bench) : (s.modBench b f).bar2Reads = s.bar2Reads := rfl
@[simp] theorem State.modBench_bar2Writes (s : State) (b : Nat) (f : Bench → Bench) : (s.modBench b f).bar2Writes = s.bar2Writes := rfl
@[simp] theorem State.modBench_bar2Queue (s : State) (b : Nat) (f : Bench → Bench) : (s.modBench b f).bar2Queue = s.bar2Queue := rfl
@[simp] theorem State.modBench_remotes (s : State) (b : Nat) (f : Bench → Bench) : (s.modBench b f).remotes = s.remotes := rfl
@[simp] theorem State.modBench_placements (s : State) (b : Nat) (f : Bench → Bench) : (s.modBench b f).placements = s.placements := rfl
@[simp] theorem State.modBench_launches (s : State) (b : Nat) (f : Bench → Bench) : (s.modBench b f).launches = s.launches := rfl
@[simp] theorem State.modBench_jobs (s : State) (b : Nat) (f : Bench → Bench) : (s.modBench b f).jobs = s.jobs := rfl
@[simp] theorem State.modBench_dense (s : State) (b : Nat) (f : Bench → Bench) : (s.modBench b f).dense = s.dense := rfl
@[simp] theorem State.modBench_lattice (s : State) (b : Nat) (f : Bench → Bench) : (s.modBench b f).lattice = s.lattice := rfl
@[simp] theorem State.modBench_envans (s : State) (b : Nat) (f : Bench → Bench) : (s.modBench b f).envans = s.envans := rfl
@[simp] theorem State.modBench_cascade (s : State) (b : Nat) (f : Bench → Bench) : (s.modBench b f).cascade = s.cascade := rfl
@[simp] theorem State.modBench_recovery (s : State) (b : Nat) (f : Bench → Bench) : (s.modBench b f).recovery = s.recovery := rfl
@[simp] theorem State.modBench_bg (s : State) (b : Nat) (f : Bench → Bench) : (s.modBench b f).bg = s.bg := rfl
@[simp] theorem State.modBench_streams (s : State) (b : Nat) (f : Bench → Bench) : (s.modBench b f).streams = s.streams := rfl
@[simp] theorem State.modBench_dbg (s : State) (b : Nat) (f : Bench → Bench) : (s.modBench b f).dbg = s.dbg := rfl
@[simp] theorem State.modBench_perf (s : State) (b : Nat) (f : Bench → Bench) : (s.modBench b f).perf = s.perf := rfl
@[simp] theorem State.modBench_billetMem (s : State) (b : Nat) (f : Bench → Bench) : (s.modBench b f).billetMem = s.billetMem := rfl
@[simp] theorem State.modBench_draws (s : State) (b : Nat) (f : Bench → Bench) : (s.modBench b f).draws = s.draws := rfl
@[simp] theorem State.modBench_out (s : State) (b : Nat) (f : Bench → Bench) : (s.modBench b f).out = s.out := rfl
@[simp] theorem State.modBench_at_port (s : State) (b : Nat) (f : Bench → Bench) (q : Nat) : (s.modBench b f).port q = s.port q := rfl
@[simp] theorem State.modBench_at_fnAt (s : State) (b : Nat) (f : Bench → Bench) (q k : Nat) : (s.modBench b f).fnAt q k = s.fnAt q k := rfl
@[simp] theorem State.modBench_at_lathe (s : State) (b : Nat) (f : Bench → Bench) (q : Nat) : (s.modBench b f).lathe q = s.lathe q := rfl
@[simp] theorem State.modBench_at_die (s : State) (b : Nat) (f : Bench → Bench) (q : Nat) : (s.modBench b f).die q = s.die q := rfl
@[simp] theorem State.modBench_at_envan (s : State) (b : Nat) (f : Bench → Bench) (q : Nat) : (s.modBench b f).envan q = s.envan q := rfl
@[simp] theorem State.modBench_at_whittler (s : State) (b : Nat) (f : Bench → Bench) (q : Nat) : (s.modBench b f).whittler q = s.whittler q := rfl
@[simp] theorem State.modBench_at_stream (s : State) (b : Nat) (f : Bench → Bench) (q : Nat) : (s.modBench b f).stream q = s.stream q := rfl
@[simp] theorem State.modBench_at_event (s : State) (b : Nat) (f : Bench → Bench) (q : Nat) : (s.modBench b f).event q = s.event q := rfl
@[simp] theorem State.modBench_at_paceTimer (s : State) (b : Nat) (f : Bench → Bench) (q : Bool) (k : Nat) : (s.modBench b f).paceTimer q k = s.paceTimer q k := rfl
@[simp] theorem State.modBench_at_domain (s : State) (b : Nat) (f : Bench → Bench) (q : Nat) : (s.modBench b f).domain q = s.domain q := rfl
@[simp] theorem State.modBench_at_guest (s : State) (b : Nat) (f : Bench → Bench) (q : Nat) : (s.modBench b f).guest q = s.guest q := rfl
@[simp] theorem State.modBench_now (s : State) (b : Nat) (f : Bench → Bench) : (s.modBench b f).now = s.now := rfl
@[simp] theorem State.modBench_big (s : State) (b : Nat) (f : Bench → Bench) : (s.modBench b f).big = s.big := rfl

@[simp] theorem State.modRing_pending (s : State) (b r : Nat) (f : Ring → Ring) : (s.modRing b r f).pending = s.pending := rfl
@[simp] theorem State.modRing_chip (s : State) (b r : Nat) (f : Ring → Ring) : (s.modRing b r f).chip = s.chip := rfl
@[simp] theorem State.modRing_hearth (s : State) (b r : Nat) (f : Ring → Ring) : (s.modRing b r f).hearth = s.hearth := rfl
@[simp] theorem State.modRing_ports (s : State) (b r : Nat) (f : Ring → Ring) : (s.modRing b r f).ports = s.ports := rfl
@[simp] theorem State.modRing_fns (s : State) (b r : Nat) (f : Ring → Ring) : (s.modRing b r f).fns = s.fns := rfl
@[simp] theorem State.modRing_mailbox (s : State) (b r : Nat) (f : Ring → Ring) : (s.modRing b r f).mailbox = s.mailbox := rfl
@[simp] theorem State.modRing_zeroFill (s : State) (b r : Nat) (f : Ring → Ring) : (s.modRing b r f).zeroFill = s.zeroFill := rfl
@[simp] theorem State.modRing_forming (s : State) (b r : Nat) (f : Ring → Ring) : (s.modRing b r f).forming = s.forming := rfl
@[simp] theorem State.modRing_formingFlr (s : State) (b r : Nat) (f : Ring → Ring) : (s.modRing b r f).formingFlr = s.formingFlr := rfl
@[simp] theorem State.modRing_lathes (s : State) (b r : Nat) (f : Ring → Ring) : (s.modRing b r f).lathes = s.lathes := rfl
@[simp] theorem State.modRing_events (s : State) (b r : Nat) (f : Ring → Ring) : (s.modRing b r f).events = s.events := rfl
@[simp] theorem State.modRing_paceTimers (s : State) (b r : Nat) (f : Ring → Ring) : (s.modRing b r f).paceTimers = s.paceTimers := rfl
@[simp] theorem State.modRing_charges (s : State) (b r : Nat) (f : Ring → Ring) : (s.modRing b r f).charges = s.charges := rfl
@[simp] theorem State.modRing_headstock (s : State) (b r : Nat) (f : Ring → Ring) : (s.modRing b r f).headstock = s.headstock := rfl
@[simp] theorem State.modRing_mig (s : State) (b r : Nat) (f : Ring → Ring) : (s.modRing b r f).mig = s.mig := rfl
@[simp] theorem State.modRing_spindles (s : State) (b r : Nat) (f : Ring → Ring) : (s.modRing b r f).spindles = s.spindles := rfl
@[simp] theorem State.modRing_bar2Reads (s : State) (b r : Nat) (f : Ring → Ring) : (s.modRing b r f).bar2Reads = s.bar2Reads := rfl
@[simp] theorem State.modRing_bar2Writes (s : State) (b r : Nat) (f : Ring → Ring) : (s.modRing b r f).bar2Writes = s.bar2Writes := rfl
@[simp] theorem State.modRing_bar2Queue (s : State) (b r : Nat) (f : Ring → Ring) : (s.modRing b r f).bar2Queue = s.bar2Queue := rfl
@[simp] theorem State.modRing_remotes (s : State) (b r : Nat) (f : Ring → Ring) : (s.modRing b r f).remotes = s.remotes := rfl
@[simp] theorem State.modRing_placements (s : State) (b r : Nat) (f : Ring → Ring) : (s.modRing b r f).placements = s.placements := rfl
@[simp] theorem State.modRing_launches (s : State) (b r : Nat) (f : Ring → Ring) : (s.modRing b r f).launches = s.launches := rfl
@[simp] theorem State.modRing_jobs (s : State) (b r : Nat) (f : Ring → Ring) : (s.modRing b r f).jobs = s.jobs := rfl
@[simp] theorem State.modRing_dense (s : State) (b r : Nat) (f : Ring → Ring) : (s.modRing b r f).dense = s.dense := rfl
@[simp] theorem State.modRing_lattice (s : State) (b r : Nat) (f : Ring → Ring) : (s.modRing b r f).lattice = s.lattice := rfl
@[simp] theorem State.modRing_envans (s : State) (b r : Nat) (f : Ring → Ring) : (s.modRing b r f).envans = s.envans := rfl
@[simp] theorem State.modRing_cascade (s : State) (b r : Nat) (f : Ring → Ring) : (s.modRing b r f).cascade = s.cascade := rfl
@[simp] theorem State.modRing_recovery (s : State) (b r : Nat) (f : Ring → Ring) : (s.modRing b r f).recovery = s.recovery := rfl
@[simp] theorem State.modRing_bg (s : State) (b r : Nat) (f : Ring → Ring) : (s.modRing b r f).bg = s.bg := rfl
@[simp] theorem State.modRing_streams (s : State) (b r : Nat) (f : Ring → Ring) : (s.modRing b r f).streams = s.streams := rfl
@[simp] theorem State.modRing_dbg (s : State) (b r : Nat) (f : Ring → Ring) : (s.modRing b r f).dbg = s.dbg := rfl
@[simp] theorem State.modRing_perf (s : State) (b r : Nat) (f : Ring → Ring) : (s.modRing b r f).perf = s.perf := rfl
@[simp] theorem State.modRing_billetMem (s : State) (b r : Nat) (f : Ring → Ring) : (s.modRing b r f).billetMem = s.billetMem := rfl
@[simp] theorem State.modRing_draws (s : State) (b r : Nat) (f : Ring → Ring) : (s.modRing b r f).draws = s.draws := rfl
@[simp] theorem State.modRing_out (s : State) (b r : Nat) (f : Ring → Ring) : (s.modRing b r f).out = s.out := rfl
@[simp] theorem State.modRing_at_port (s : State) (b r : Nat) (f : Ring → Ring) (q : Nat) : (s.modRing b r f).port q = s.port q := rfl
@[simp] theorem State.modRing_at_fnAt (s : State) (b r : Nat) (f : Ring → Ring) (q k : Nat) : (s.modRing b r f).fnAt q k = s.fnAt q k := rfl
@[simp] theorem State.modRing_at_lathe (s : State) (b r : Nat) (f : Ring → Ring) (q : Nat) : (s.modRing b r f).lathe q = s.lathe q := rfl
@[simp] theorem State.modRing_at_die (s : State) (b r : Nat) (f : Ring → Ring) (q : Nat) : (s.modRing b r f).die q = s.die q := rfl
@[simp] theorem State.modRing_at_envan (s : State) (b r : Nat) (f : Ring → Ring) (q : Nat) : (s.modRing b r f).envan q = s.envan q := rfl
@[simp] theorem State.modRing_at_whittler (s : State) (b r : Nat) (f : Ring → Ring) (q : Nat) : (s.modRing b r f).whittler q = s.whittler q := rfl
@[simp] theorem State.modRing_at_stream (s : State) (b r : Nat) (f : Ring → Ring) (q : Nat) : (s.modRing b r f).stream q = s.stream q := rfl
@[simp] theorem State.modRing_at_event (s : State) (b r : Nat) (f : Ring → Ring) (q : Nat) : (s.modRing b r f).event q = s.event q := rfl
@[simp] theorem State.modRing_at_paceTimer (s : State) (b r : Nat) (f : Ring → Ring) (q : Bool) (k : Nat) : (s.modRing b r f).paceTimer q k = s.paceTimer q k := rfl
@[simp] theorem State.modRing_at_domain (s : State) (b r : Nat) (f : Ring → Ring) (q : Nat) : (s.modRing b r f).domain q = s.domain q := rfl
@[simp] theorem State.modRing_at_guest (s : State) (b r : Nat) (f : Ring → Ring) (q : Nat) : (s.modRing b r f).guest q = s.guest q := rfl
@[simp] theorem State.modRing_now (s : State) (b r : Nat) (f : Ring → Ring) : (s.modRing b r f).now = s.now := rfl
@[simp] theorem State.modRing_big (s : State) (b r : Nat) (f : Ring → Ring) : (s.modRing b r f).big = s.big := rfl

@[simp] theorem State.modLathe_pending (s : State) (l : Nat) (f : Lathe → Lathe) : (s.modLathe l f).pending = s.pending := rfl
@[simp] theorem State.modLathe_chip (s : State) (l : Nat) (f : Lathe → Lathe) : (s.modLathe l f).chip = s.chip := rfl
@[simp] theorem State.modLathe_hearth (s : State) (l : Nat) (f : Lathe → Lathe) : (s.modLathe l f).hearth = s.hearth := rfl
@[simp] theorem State.modLathe_ports (s : State) (l : Nat) (f : Lathe → Lathe) : (s.modLathe l f).ports = s.ports := rfl
@[simp] theorem State.modLathe_fns (s : State) (l : Nat) (f : Lathe → Lathe) : (s.modLathe l f).fns = s.fns := rfl
@[simp] theorem State.modLathe_mailbox (s : State) (l : Nat) (f : Lathe → Lathe) : (s.modLathe l f).mailbox = s.mailbox := rfl
@[simp] theorem State.modLathe_benches (s : State) (l : Nat) (f : Lathe → Lathe) : (s.modLathe l f).benches = s.benches := rfl
@[simp] theorem State.modLathe_zeroFill (s : State) (l : Nat) (f : Lathe → Lathe) : (s.modLathe l f).zeroFill = s.zeroFill := rfl
@[simp] theorem State.modLathe_forming (s : State) (l : Nat) (f : Lathe → Lathe) : (s.modLathe l f).forming = s.forming := rfl
@[simp] theorem State.modLathe_formingFlr (s : State) (l : Nat) (f : Lathe → Lathe) : (s.modLathe l f).formingFlr = s.formingFlr := rfl
@[simp] theorem State.modLathe_events (s : State) (l : Nat) (f : Lathe → Lathe) : (s.modLathe l f).events = s.events := rfl
@[simp] theorem State.modLathe_paceTimers (s : State) (l : Nat) (f : Lathe → Lathe) : (s.modLathe l f).paceTimers = s.paceTimers := rfl
@[simp] theorem State.modLathe_charges (s : State) (l : Nat) (f : Lathe → Lathe) : (s.modLathe l f).charges = s.charges := rfl
@[simp] theorem State.modLathe_headstock (s : State) (l : Nat) (f : Lathe → Lathe) : (s.modLathe l f).headstock = s.headstock := rfl
@[simp] theorem State.modLathe_mig (s : State) (l : Nat) (f : Lathe → Lathe) : (s.modLathe l f).mig = s.mig := rfl
@[simp] theorem State.modLathe_spindles (s : State) (l : Nat) (f : Lathe → Lathe) : (s.modLathe l f).spindles = s.spindles := rfl
@[simp] theorem State.modLathe_bar2Reads (s : State) (l : Nat) (f : Lathe → Lathe) : (s.modLathe l f).bar2Reads = s.bar2Reads := rfl
@[simp] theorem State.modLathe_bar2Writes (s : State) (l : Nat) (f : Lathe → Lathe) : (s.modLathe l f).bar2Writes = s.bar2Writes := rfl
@[simp] theorem State.modLathe_bar2Queue (s : State) (l : Nat) (f : Lathe → Lathe) : (s.modLathe l f).bar2Queue = s.bar2Queue := rfl
@[simp] theorem State.modLathe_remotes (s : State) (l : Nat) (f : Lathe → Lathe) : (s.modLathe l f).remotes = s.remotes := rfl
@[simp] theorem State.modLathe_placements (s : State) (l : Nat) (f : Lathe → Lathe) : (s.modLathe l f).placements = s.placements := rfl
@[simp] theorem State.modLathe_launches (s : State) (l : Nat) (f : Lathe → Lathe) : (s.modLathe l f).launches = s.launches := rfl
@[simp] theorem State.modLathe_jobs (s : State) (l : Nat) (f : Lathe → Lathe) : (s.modLathe l f).jobs = s.jobs := rfl
@[simp] theorem State.modLathe_dense (s : State) (l : Nat) (f : Lathe → Lathe) : (s.modLathe l f).dense = s.dense := rfl
@[simp] theorem State.modLathe_lattice (s : State) (l : Nat) (f : Lathe → Lathe) : (s.modLathe l f).lattice = s.lattice := rfl
@[simp] theorem State.modLathe_envans (s : State) (l : Nat) (f : Lathe → Lathe) : (s.modLathe l f).envans = s.envans := rfl
@[simp] theorem State.modLathe_cascade (s : State) (l : Nat) (f : Lathe → Lathe) : (s.modLathe l f).cascade = s.cascade := rfl
@[simp] theorem State.modLathe_recovery (s : State) (l : Nat) (f : Lathe → Lathe) : (s.modLathe l f).recovery = s.recovery := rfl
@[simp] theorem State.modLathe_bg (s : State) (l : Nat) (f : Lathe → Lathe) : (s.modLathe l f).bg = s.bg := rfl
@[simp] theorem State.modLathe_streams (s : State) (l : Nat) (f : Lathe → Lathe) : (s.modLathe l f).streams = s.streams := rfl
@[simp] theorem State.modLathe_dbg (s : State) (l : Nat) (f : Lathe → Lathe) : (s.modLathe l f).dbg = s.dbg := rfl
@[simp] theorem State.modLathe_perf (s : State) (l : Nat) (f : Lathe → Lathe) : (s.modLathe l f).perf = s.perf := rfl
@[simp] theorem State.modLathe_billetMem (s : State) (l : Nat) (f : Lathe → Lathe) : (s.modLathe l f).billetMem = s.billetMem := rfl
@[simp] theorem State.modLathe_draws (s : State) (l : Nat) (f : Lathe → Lathe) : (s.modLathe l f).draws = s.draws := rfl
@[simp] theorem State.modLathe_out (s : State) (l : Nat) (f : Lathe → Lathe) : (s.modLathe l f).out = s.out := rfl
@[simp] theorem State.modLathe_at_port (s : State) (l : Nat) (f : Lathe → Lathe) (q : Nat) : (s.modLathe l f).port q = s.port q := rfl
@[simp] theorem State.modLathe_at_fnAt (s : State) (l : Nat) (f : Lathe → Lathe) (q k : Nat) : (s.modLathe l f).fnAt q k = s.fnAt q k := rfl
@[simp] theorem State.modLathe_at_bench (s : State) (l : Nat) (f : Lathe → Lathe) (c : Nat) : (s.modLathe l f).bench c = s.bench c := rfl
@[simp] theorem State.modLathe_at_ring (s : State) (l : Nat) (f : Lathe → Lathe) (c q : Nat) : (s.modLathe l f).ring c q = s.ring c q := rfl
@[simp] theorem State.modLathe_at_die (s : State) (l : Nat) (f : Lathe → Lathe) (q : Nat) : (s.modLathe l f).die q = s.die q := rfl
@[simp] theorem State.modLathe_at_envan (s : State) (l : Nat) (f : Lathe → Lathe) (q : Nat) : (s.modLathe l f).envan q = s.envan q := rfl
@[simp] theorem State.modLathe_at_whittler (s : State) (l : Nat) (f : Lathe → Lathe) (q : Nat) : (s.modLathe l f).whittler q = s.whittler q := rfl
@[simp] theorem State.modLathe_at_stream (s : State) (l : Nat) (f : Lathe → Lathe) (q : Nat) : (s.modLathe l f).stream q = s.stream q := rfl
@[simp] theorem State.modLathe_at_event (s : State) (l : Nat) (f : Lathe → Lathe) (q : Nat) : (s.modLathe l f).event q = s.event q := rfl
@[simp] theorem State.modLathe_at_paceTimer (s : State) (l : Nat) (f : Lathe → Lathe) (q : Bool) (k : Nat) : (s.modLathe l f).paceTimer q k = s.paceTimer q k := rfl
@[simp] theorem State.modLathe_at_domain (s : State) (l : Nat) (f : Lathe → Lathe) (q : Nat) : (s.modLathe l f).domain q = s.domain q := rfl
@[simp] theorem State.modLathe_at_guest (s : State) (l : Nat) (f : Lathe → Lathe) (q : Nat) : (s.modLathe l f).guest q = s.guest q := rfl
@[simp] theorem State.modLathe_now (s : State) (l : Nat) (f : Lathe → Lathe) : (s.modLathe l f).now = s.now := rfl
@[simp] theorem State.modLathe_big (s : State) (l : Nat) (f : Lathe → Lathe) : (s.modLathe l f).big = s.big := rfl

@[simp] theorem State.modDie_pending (s : State) (d : Nat) (f : Spindle → Spindle) : (s.modDie d f).pending = s.pending := rfl
@[simp] theorem State.modDie_chip (s : State) (d : Nat) (f : Spindle → Spindle) : (s.modDie d f).chip = s.chip := rfl
@[simp] theorem State.modDie_hearth (s : State) (d : Nat) (f : Spindle → Spindle) : (s.modDie d f).hearth = s.hearth := rfl
@[simp] theorem State.modDie_ports (s : State) (d : Nat) (f : Spindle → Spindle) : (s.modDie d f).ports = s.ports := rfl
@[simp] theorem State.modDie_fns (s : State) (d : Nat) (f : Spindle → Spindle) : (s.modDie d f).fns = s.fns := rfl
@[simp] theorem State.modDie_mailbox (s : State) (d : Nat) (f : Spindle → Spindle) : (s.modDie d f).mailbox = s.mailbox := rfl
@[simp] theorem State.modDie_benches (s : State) (d : Nat) (f : Spindle → Spindle) : (s.modDie d f).benches = s.benches := rfl
@[simp] theorem State.modDie_zeroFill (s : State) (d : Nat) (f : Spindle → Spindle) : (s.modDie d f).zeroFill = s.zeroFill := rfl
@[simp] theorem State.modDie_forming (s : State) (d : Nat) (f : Spindle → Spindle) : (s.modDie d f).forming = s.forming := rfl
@[simp] theorem State.modDie_formingFlr (s : State) (d : Nat) (f : Spindle → Spindle) : (s.modDie d f).formingFlr = s.formingFlr := rfl
@[simp] theorem State.modDie_lathes (s : State) (d : Nat) (f : Spindle → Spindle) : (s.modDie d f).lathes = s.lathes := rfl
@[simp] theorem State.modDie_events (s : State) (d : Nat) (f : Spindle → Spindle) : (s.modDie d f).events = s.events := rfl
@[simp] theorem State.modDie_paceTimers (s : State) (d : Nat) (f : Spindle → Spindle) : (s.modDie d f).paceTimers = s.paceTimers := rfl
@[simp] theorem State.modDie_charges (s : State) (d : Nat) (f : Spindle → Spindle) : (s.modDie d f).charges = s.charges := rfl
@[simp] theorem State.modDie_headstock (s : State) (d : Nat) (f : Spindle → Spindle) : (s.modDie d f).headstock = s.headstock := rfl
@[simp] theorem State.modDie_mig (s : State) (d : Nat) (f : Spindle → Spindle) : (s.modDie d f).mig = s.mig := rfl
@[simp] theorem State.modDie_bar2Reads (s : State) (d : Nat) (f : Spindle → Spindle) : (s.modDie d f).bar2Reads = s.bar2Reads := rfl
@[simp] theorem State.modDie_bar2Writes (s : State) (d : Nat) (f : Spindle → Spindle) : (s.modDie d f).bar2Writes = s.bar2Writes := rfl
@[simp] theorem State.modDie_bar2Queue (s : State) (d : Nat) (f : Spindle → Spindle) : (s.modDie d f).bar2Queue = s.bar2Queue := rfl
@[simp] theorem State.modDie_remotes (s : State) (d : Nat) (f : Spindle → Spindle) : (s.modDie d f).remotes = s.remotes := rfl
@[simp] theorem State.modDie_placements (s : State) (d : Nat) (f : Spindle → Spindle) : (s.modDie d f).placements = s.placements := rfl
@[simp] theorem State.modDie_launches (s : State) (d : Nat) (f : Spindle → Spindle) : (s.modDie d f).launches = s.launches := rfl
@[simp] theorem State.modDie_jobs (s : State) (d : Nat) (f : Spindle → Spindle) : (s.modDie d f).jobs = s.jobs := rfl
@[simp] theorem State.modDie_dense (s : State) (d : Nat) (f : Spindle → Spindle) : (s.modDie d f).dense = s.dense := rfl
@[simp] theorem State.modDie_lattice (s : State) (d : Nat) (f : Spindle → Spindle) : (s.modDie d f).lattice = s.lattice := rfl
@[simp] theorem State.modDie_envans (s : State) (d : Nat) (f : Spindle → Spindle) : (s.modDie d f).envans = s.envans := rfl
@[simp] theorem State.modDie_cascade (s : State) (d : Nat) (f : Spindle → Spindle) : (s.modDie d f).cascade = s.cascade := rfl
@[simp] theorem State.modDie_recovery (s : State) (d : Nat) (f : Spindle → Spindle) : (s.modDie d f).recovery = s.recovery := rfl
@[simp] theorem State.modDie_bg (s : State) (d : Nat) (f : Spindle → Spindle) : (s.modDie d f).bg = s.bg := rfl
@[simp] theorem State.modDie_streams (s : State) (d : Nat) (f : Spindle → Spindle) : (s.modDie d f).streams = s.streams := rfl
@[simp] theorem State.modDie_dbg (s : State) (d : Nat) (f : Spindle → Spindle) : (s.modDie d f).dbg = s.dbg := rfl
@[simp] theorem State.modDie_perf (s : State) (d : Nat) (f : Spindle → Spindle) : (s.modDie d f).perf = s.perf := rfl
@[simp] theorem State.modDie_billetMem (s : State) (d : Nat) (f : Spindle → Spindle) : (s.modDie d f).billetMem = s.billetMem := rfl
@[simp] theorem State.modDie_draws (s : State) (d : Nat) (f : Spindle → Spindle) : (s.modDie d f).draws = s.draws := rfl
@[simp] theorem State.modDie_out (s : State) (d : Nat) (f : Spindle → Spindle) : (s.modDie d f).out = s.out := rfl
@[simp] theorem State.modDie_at_port (s : State) (d : Nat) (f : Spindle → Spindle) (q : Nat) : (s.modDie d f).port q = s.port q := rfl
@[simp] theorem State.modDie_at_fnAt (s : State) (d : Nat) (f : Spindle → Spindle) (q k : Nat) : (s.modDie d f).fnAt q k = s.fnAt q k := rfl
@[simp] theorem State.modDie_at_bench (s : State) (d : Nat) (f : Spindle → Spindle) (c : Nat) : (s.modDie d f).bench c = s.bench c := rfl
@[simp] theorem State.modDie_at_ring (s : State) (d : Nat) (f : Spindle → Spindle) (c q : Nat) : (s.modDie d f).ring c q = s.ring c q := rfl
@[simp] theorem State.modDie_at_lathe (s : State) (d : Nat) (f : Spindle → Spindle) (q : Nat) : (s.modDie d f).lathe q = s.lathe q := rfl
@[simp] theorem State.modDie_at_envan (s : State) (d : Nat) (f : Spindle → Spindle) (q : Nat) : (s.modDie d f).envan q = s.envan q := rfl
@[simp] theorem State.modDie_at_whittler (s : State) (d : Nat) (f : Spindle → Spindle) (q : Nat) : (s.modDie d f).whittler q = s.whittler q := rfl
@[simp] theorem State.modDie_at_stream (s : State) (d : Nat) (f : Spindle → Spindle) (q : Nat) : (s.modDie d f).stream q = s.stream q := rfl
@[simp] theorem State.modDie_at_event (s : State) (d : Nat) (f : Spindle → Spindle) (q : Nat) : (s.modDie d f).event q = s.event q := rfl
@[simp] theorem State.modDie_at_paceTimer (s : State) (d : Nat) (f : Spindle → Spindle) (q : Bool) (k : Nat) : (s.modDie d f).paceTimer q k = s.paceTimer q k := rfl
@[simp] theorem State.modDie_at_domain (s : State) (d : Nat) (f : Spindle → Spindle) (q : Nat) : (s.modDie d f).domain q = s.domain q := rfl
@[simp] theorem State.modDie_at_guest (s : State) (d : Nat) (f : Spindle → Spindle) (q : Nat) : (s.modDie d f).guest q = s.guest q := rfl
@[simp] theorem State.modDie_now (s : State) (d : Nat) (f : Spindle → Spindle) : (s.modDie d f).now = s.now := rfl
@[simp] theorem State.modDie_big (s : State) (d : Nat) (f : Spindle → Spindle) : (s.modDie d f).big = s.big := rfl

@[simp] theorem State.modEnvan_pending (s : State) (l : Nat) (f : Envan → Envan) : (s.modEnvan l f).pending = s.pending := rfl
@[simp] theorem State.modEnvan_chip (s : State) (l : Nat) (f : Envan → Envan) : (s.modEnvan l f).chip = s.chip := rfl
@[simp] theorem State.modEnvan_hearth (s : State) (l : Nat) (f : Envan → Envan) : (s.modEnvan l f).hearth = s.hearth := rfl
@[simp] theorem State.modEnvan_ports (s : State) (l : Nat) (f : Envan → Envan) : (s.modEnvan l f).ports = s.ports := rfl
@[simp] theorem State.modEnvan_fns (s : State) (l : Nat) (f : Envan → Envan) : (s.modEnvan l f).fns = s.fns := rfl
@[simp] theorem State.modEnvan_mailbox (s : State) (l : Nat) (f : Envan → Envan) : (s.modEnvan l f).mailbox = s.mailbox := rfl
@[simp] theorem State.modEnvan_benches (s : State) (l : Nat) (f : Envan → Envan) : (s.modEnvan l f).benches = s.benches := rfl
@[simp] theorem State.modEnvan_zeroFill (s : State) (l : Nat) (f : Envan → Envan) : (s.modEnvan l f).zeroFill = s.zeroFill := rfl
@[simp] theorem State.modEnvan_forming (s : State) (l : Nat) (f : Envan → Envan) : (s.modEnvan l f).forming = s.forming := rfl
@[simp] theorem State.modEnvan_formingFlr (s : State) (l : Nat) (f : Envan → Envan) : (s.modEnvan l f).formingFlr = s.formingFlr := rfl
@[simp] theorem State.modEnvan_lathes (s : State) (l : Nat) (f : Envan → Envan) : (s.modEnvan l f).lathes = s.lathes := rfl
@[simp] theorem State.modEnvan_events (s : State) (l : Nat) (f : Envan → Envan) : (s.modEnvan l f).events = s.events := rfl
@[simp] theorem State.modEnvan_paceTimers (s : State) (l : Nat) (f : Envan → Envan) : (s.modEnvan l f).paceTimers = s.paceTimers := rfl
@[simp] theorem State.modEnvan_charges (s : State) (l : Nat) (f : Envan → Envan) : (s.modEnvan l f).charges = s.charges := rfl
@[simp] theorem State.modEnvan_headstock (s : State) (l : Nat) (f : Envan → Envan) : (s.modEnvan l f).headstock = s.headstock := rfl
@[simp] theorem State.modEnvan_mig (s : State) (l : Nat) (f : Envan → Envan) : (s.modEnvan l f).mig = s.mig := rfl
@[simp] theorem State.modEnvan_spindles (s : State) (l : Nat) (f : Envan → Envan) : (s.modEnvan l f).spindles = s.spindles := rfl
@[simp] theorem State.modEnvan_bar2Reads (s : State) (l : Nat) (f : Envan → Envan) : (s.modEnvan l f).bar2Reads = s.bar2Reads := rfl
@[simp] theorem State.modEnvan_bar2Writes (s : State) (l : Nat) (f : Envan → Envan) : (s.modEnvan l f).bar2Writes = s.bar2Writes := rfl
@[simp] theorem State.modEnvan_bar2Queue (s : State) (l : Nat) (f : Envan → Envan) : (s.modEnvan l f).bar2Queue = s.bar2Queue := rfl
@[simp] theorem State.modEnvan_remotes (s : State) (l : Nat) (f : Envan → Envan) : (s.modEnvan l f).remotes = s.remotes := rfl
@[simp] theorem State.modEnvan_placements (s : State) (l : Nat) (f : Envan → Envan) : (s.modEnvan l f).placements = s.placements := rfl
@[simp] theorem State.modEnvan_launches (s : State) (l : Nat) (f : Envan → Envan) : (s.modEnvan l f).launches = s.launches := rfl
@[simp] theorem State.modEnvan_jobs (s : State) (l : Nat) (f : Envan → Envan) : (s.modEnvan l f).jobs = s.jobs := rfl
@[simp] theorem State.modEnvan_dense (s : State) (l : Nat) (f : Envan → Envan) : (s.modEnvan l f).dense = s.dense := rfl
@[simp] theorem State.modEnvan_lattice (s : State) (l : Nat) (f : Envan → Envan) : (s.modEnvan l f).lattice = s.lattice := rfl
@[simp] theorem State.modEnvan_cascade (s : State) (l : Nat) (f : Envan → Envan) : (s.modEnvan l f).cascade = s.cascade := rfl
@[simp] theorem State.modEnvan_recovery (s : State) (l : Nat) (f : Envan → Envan) : (s.modEnvan l f).recovery = s.recovery := rfl
@[simp] theorem State.modEnvan_bg (s : State) (l : Nat) (f : Envan → Envan) : (s.modEnvan l f).bg = s.bg := rfl
@[simp] theorem State.modEnvan_streams (s : State) (l : Nat) (f : Envan → Envan) : (s.modEnvan l f).streams = s.streams := rfl
@[simp] theorem State.modEnvan_dbg (s : State) (l : Nat) (f : Envan → Envan) : (s.modEnvan l f).dbg = s.dbg := rfl
@[simp] theorem State.modEnvan_perf (s : State) (l : Nat) (f : Envan → Envan) : (s.modEnvan l f).perf = s.perf := rfl
@[simp] theorem State.modEnvan_billetMem (s : State) (l : Nat) (f : Envan → Envan) : (s.modEnvan l f).billetMem = s.billetMem := rfl
@[simp] theorem State.modEnvan_draws (s : State) (l : Nat) (f : Envan → Envan) : (s.modEnvan l f).draws = s.draws := rfl
@[simp] theorem State.modEnvan_out (s : State) (l : Nat) (f : Envan → Envan) : (s.modEnvan l f).out = s.out := rfl
@[simp] theorem State.modEnvan_at_port (s : State) (l : Nat) (f : Envan → Envan) (q : Nat) : (s.modEnvan l f).port q = s.port q := rfl
@[simp] theorem State.modEnvan_at_fnAt (s : State) (l : Nat) (f : Envan → Envan) (q k : Nat) : (s.modEnvan l f).fnAt q k = s.fnAt q k := rfl
@[simp] theorem State.modEnvan_at_bench (s : State) (l : Nat) (f : Envan → Envan) (c : Nat) : (s.modEnvan l f).bench c = s.bench c := rfl
@[simp] theorem State.modEnvan_at_ring (s : State) (l : Nat) (f : Envan → Envan) (c q : Nat) : (s.modEnvan l f).ring c q = s.ring c q := rfl
@[simp] theorem State.modEnvan_at_lathe (s : State) (l : Nat) (f : Envan → Envan) (q : Nat) : (s.modEnvan l f).lathe q = s.lathe q := rfl
@[simp] theorem State.modEnvan_at_die (s : State) (l : Nat) (f : Envan → Envan) (q : Nat) : (s.modEnvan l f).die q = s.die q := rfl
@[simp] theorem State.modEnvan_at_whittler (s : State) (l : Nat) (f : Envan → Envan) (q : Nat) : (s.modEnvan l f).whittler q = s.whittler q := rfl
@[simp] theorem State.modEnvan_at_stream (s : State) (l : Nat) (f : Envan → Envan) (q : Nat) : (s.modEnvan l f).stream q = s.stream q := rfl
@[simp] theorem State.modEnvan_at_event (s : State) (l : Nat) (f : Envan → Envan) (q : Nat) : (s.modEnvan l f).event q = s.event q := rfl
@[simp] theorem State.modEnvan_at_paceTimer (s : State) (l : Nat) (f : Envan → Envan) (q : Bool) (k : Nat) : (s.modEnvan l f).paceTimer q k = s.paceTimer q k := rfl
@[simp] theorem State.modEnvan_at_domain (s : State) (l : Nat) (f : Envan → Envan) (q : Nat) : (s.modEnvan l f).domain q = s.domain q := rfl
@[simp] theorem State.modEnvan_at_guest (s : State) (l : Nat) (f : Envan → Envan) (q : Nat) : (s.modEnvan l f).guest q = s.guest q := rfl
@[simp] theorem State.modEnvan_now (s : State) (l : Nat) (f : Envan → Envan) : (s.modEnvan l f).now = s.now := rfl
@[simp] theorem State.modEnvan_big (s : State) (l : Nat) (f : Envan → Envan) : (s.modEnvan l f).big = s.big := rfl

@[simp] theorem State.modWhittler_pending (s : State) (w : Nat) (f : Whittler → Whittler) : (s.modWhittler w f).pending = s.pending := rfl
@[simp] theorem State.modWhittler_chip (s : State) (w : Nat) (f : Whittler → Whittler) : (s.modWhittler w f).chip = s.chip := rfl
@[simp] theorem State.modWhittler_hearth (s : State) (w : Nat) (f : Whittler → Whittler) : (s.modWhittler w f).hearth = s.hearth := rfl
@[simp] theorem State.modWhittler_ports (s : State) (w : Nat) (f : Whittler → Whittler) : (s.modWhittler w f).ports = s.ports := rfl
@[simp] theorem State.modWhittler_fns (s : State) (w : Nat) (f : Whittler → Whittler) : (s.modWhittler w f).fns = s.fns := rfl
@[simp] theorem State.modWhittler_mailbox (s : State) (w : Nat) (f : Whittler → Whittler) : (s.modWhittler w f).mailbox = s.mailbox := rfl
@[simp] theorem State.modWhittler_benches (s : State) (w : Nat) (f : Whittler → Whittler) : (s.modWhittler w f).benches = s.benches := rfl
@[simp] theorem State.modWhittler_zeroFill (s : State) (w : Nat) (f : Whittler → Whittler) : (s.modWhittler w f).zeroFill = s.zeroFill := rfl
@[simp] theorem State.modWhittler_forming (s : State) (w : Nat) (f : Whittler → Whittler) : (s.modWhittler w f).forming = s.forming := rfl
@[simp] theorem State.modWhittler_formingFlr (s : State) (w : Nat) (f : Whittler → Whittler) : (s.modWhittler w f).formingFlr = s.formingFlr := rfl
@[simp] theorem State.modWhittler_lathes (s : State) (w : Nat) (f : Whittler → Whittler) : (s.modWhittler w f).lathes = s.lathes := rfl
@[simp] theorem State.modWhittler_events (s : State) (w : Nat) (f : Whittler → Whittler) : (s.modWhittler w f).events = s.events := rfl
@[simp] theorem State.modWhittler_paceTimers (s : State) (w : Nat) (f : Whittler → Whittler) : (s.modWhittler w f).paceTimers = s.paceTimers := rfl
@[simp] theorem State.modWhittler_charges (s : State) (w : Nat) (f : Whittler → Whittler) : (s.modWhittler w f).charges = s.charges := rfl
@[simp] theorem State.modWhittler_headstock (s : State) (w : Nat) (f : Whittler → Whittler) : (s.modWhittler w f).headstock = s.headstock := rfl
@[simp] theorem State.modWhittler_mig (s : State) (w : Nat) (f : Whittler → Whittler) : (s.modWhittler w f).mig = s.mig := rfl
@[simp] theorem State.modWhittler_spindles (s : State) (w : Nat) (f : Whittler → Whittler) : (s.modWhittler w f).spindles = s.spindles := rfl
@[simp] theorem State.modWhittler_bar2Reads (s : State) (w : Nat) (f : Whittler → Whittler) : (s.modWhittler w f).bar2Reads = s.bar2Reads := rfl
@[simp] theorem State.modWhittler_bar2Writes (s : State) (w : Nat) (f : Whittler → Whittler) : (s.modWhittler w f).bar2Writes = s.bar2Writes := rfl
@[simp] theorem State.modWhittler_bar2Queue (s : State) (w : Nat) (f : Whittler → Whittler) : (s.modWhittler w f).bar2Queue = s.bar2Queue := rfl
@[simp] theorem State.modWhittler_remotes (s : State) (w : Nat) (f : Whittler → Whittler) : (s.modWhittler w f).remotes = s.remotes := rfl
@[simp] theorem State.modWhittler_placements (s : State) (w : Nat) (f : Whittler → Whittler) : (s.modWhittler w f).placements = s.placements := rfl
@[simp] theorem State.modWhittler_launches (s : State) (w : Nat) (f : Whittler → Whittler) : (s.modWhittler w f).launches = s.launches := rfl
@[simp] theorem State.modWhittler_jobs (s : State) (w : Nat) (f : Whittler → Whittler) : (s.modWhittler w f).jobs = s.jobs := rfl
@[simp] theorem State.modWhittler_dense (s : State) (w : Nat) (f : Whittler → Whittler) : (s.modWhittler w f).dense = s.dense := rfl
@[simp] theorem State.modWhittler_lattice (s : State) (w : Nat) (f : Whittler → Whittler) : (s.modWhittler w f).lattice = s.lattice := rfl
@[simp] theorem State.modWhittler_envans (s : State) (w : Nat) (f : Whittler → Whittler) : (s.modWhittler w f).envans = s.envans := rfl
@[simp] theorem State.modWhittler_cascade (s : State) (w : Nat) (f : Whittler → Whittler) : (s.modWhittler w f).cascade = s.cascade := rfl
@[simp] theorem State.modWhittler_bg (s : State) (w : Nat) (f : Whittler → Whittler) : (s.modWhittler w f).bg = s.bg := rfl
@[simp] theorem State.modWhittler_streams (s : State) (w : Nat) (f : Whittler → Whittler) : (s.modWhittler w f).streams = s.streams := rfl
@[simp] theorem State.modWhittler_dbg (s : State) (w : Nat) (f : Whittler → Whittler) : (s.modWhittler w f).dbg = s.dbg := rfl
@[simp] theorem State.modWhittler_perf (s : State) (w : Nat) (f : Whittler → Whittler) : (s.modWhittler w f).perf = s.perf := rfl
@[simp] theorem State.modWhittler_billetMem (s : State) (w : Nat) (f : Whittler → Whittler) : (s.modWhittler w f).billetMem = s.billetMem := rfl
@[simp] theorem State.modWhittler_draws (s : State) (w : Nat) (f : Whittler → Whittler) : (s.modWhittler w f).draws = s.draws := rfl
@[simp] theorem State.modWhittler_out (s : State) (w : Nat) (f : Whittler → Whittler) : (s.modWhittler w f).out = s.out := rfl
@[simp] theorem State.modWhittler_at_port (s : State) (w : Nat) (f : Whittler → Whittler) (q : Nat) : (s.modWhittler w f).port q = s.port q := rfl
@[simp] theorem State.modWhittler_at_fnAt (s : State) (w : Nat) (f : Whittler → Whittler) (q k : Nat) : (s.modWhittler w f).fnAt q k = s.fnAt q k := rfl
@[simp] theorem State.modWhittler_at_bench (s : State) (w : Nat) (f : Whittler → Whittler) (c : Nat) : (s.modWhittler w f).bench c = s.bench c := rfl
@[simp] theorem State.modWhittler_at_ring (s : State) (w : Nat) (f : Whittler → Whittler) (c q : Nat) : (s.modWhittler w f).ring c q = s.ring c q := rfl
@[simp] theorem State.modWhittler_at_lathe (s : State) (w : Nat) (f : Whittler → Whittler) (q : Nat) : (s.modWhittler w f).lathe q = s.lathe q := rfl
@[simp] theorem State.modWhittler_at_die (s : State) (w : Nat) (f : Whittler → Whittler) (q : Nat) : (s.modWhittler w f).die q = s.die q := rfl
@[simp] theorem State.modWhittler_at_envan (s : State) (w : Nat) (f : Whittler → Whittler) (q : Nat) : (s.modWhittler w f).envan q = s.envan q := rfl
@[simp] theorem State.modWhittler_at_stream (s : State) (w : Nat) (f : Whittler → Whittler) (q : Nat) : (s.modWhittler w f).stream q = s.stream q := rfl
@[simp] theorem State.modWhittler_at_event (s : State) (w : Nat) (f : Whittler → Whittler) (q : Nat) : (s.modWhittler w f).event q = s.event q := rfl
@[simp] theorem State.modWhittler_at_paceTimer (s : State) (w : Nat) (f : Whittler → Whittler) (q : Bool) (k : Nat) : (s.modWhittler w f).paceTimer q k = s.paceTimer q k := rfl
@[simp] theorem State.modWhittler_at_domain (s : State) (w : Nat) (f : Whittler → Whittler) (q : Nat) : (s.modWhittler w f).domain q = s.domain q := rfl
@[simp] theorem State.modWhittler_at_guest (s : State) (w : Nat) (f : Whittler → Whittler) (q : Nat) : (s.modWhittler w f).guest q = s.guest q := rfl
@[simp] theorem State.modWhittler_now (s : State) (w : Nat) (f : Whittler → Whittler) : (s.modWhittler w f).now = s.now := rfl
@[simp] theorem State.modWhittler_big (s : State) (w : Nat) (f : Whittler → Whittler) : (s.modWhittler w f).big = s.big := rfl

@[simp] theorem State.modStream_pending (s : State) (i : Nat) (f : Stream → Stream) : (s.modStream i f).pending = s.pending := rfl
@[simp] theorem State.modStream_chip (s : State) (i : Nat) (f : Stream → Stream) : (s.modStream i f).chip = s.chip := rfl
@[simp] theorem State.modStream_hearth (s : State) (i : Nat) (f : Stream → Stream) : (s.modStream i f).hearth = s.hearth := rfl
@[simp] theorem State.modStream_ports (s : State) (i : Nat) (f : Stream → Stream) : (s.modStream i f).ports = s.ports := rfl
@[simp] theorem State.modStream_fns (s : State) (i : Nat) (f : Stream → Stream) : (s.modStream i f).fns = s.fns := rfl
@[simp] theorem State.modStream_mailbox (s : State) (i : Nat) (f : Stream → Stream) : (s.modStream i f).mailbox = s.mailbox := rfl
@[simp] theorem State.modStream_benches (s : State) (i : Nat) (f : Stream → Stream) : (s.modStream i f).benches = s.benches := rfl
@[simp] theorem State.modStream_zeroFill (s : State) (i : Nat) (f : Stream → Stream) : (s.modStream i f).zeroFill = s.zeroFill := rfl
@[simp] theorem State.modStream_forming (s : State) (i : Nat) (f : Stream → Stream) : (s.modStream i f).forming = s.forming := rfl
@[simp] theorem State.modStream_formingFlr (s : State) (i : Nat) (f : Stream → Stream) : (s.modStream i f).formingFlr = s.formingFlr := rfl
@[simp] theorem State.modStream_lathes (s : State) (i : Nat) (f : Stream → Stream) : (s.modStream i f).lathes = s.lathes := rfl
@[simp] theorem State.modStream_events (s : State) (i : Nat) (f : Stream → Stream) : (s.modStream i f).events = s.events := rfl
@[simp] theorem State.modStream_paceTimers (s : State) (i : Nat) (f : Stream → Stream) : (s.modStream i f).paceTimers = s.paceTimers := rfl
@[simp] theorem State.modStream_charges (s : State) (i : Nat) (f : Stream → Stream) : (s.modStream i f).charges = s.charges := rfl
@[simp] theorem State.modStream_headstock (s : State) (i : Nat) (f : Stream → Stream) : (s.modStream i f).headstock = s.headstock := rfl
@[simp] theorem State.modStream_mig (s : State) (i : Nat) (f : Stream → Stream) : (s.modStream i f).mig = s.mig := rfl
@[simp] theorem State.modStream_spindles (s : State) (i : Nat) (f : Stream → Stream) : (s.modStream i f).spindles = s.spindles := rfl
@[simp] theorem State.modStream_bar2Reads (s : State) (i : Nat) (f : Stream → Stream) : (s.modStream i f).bar2Reads = s.bar2Reads := rfl
@[simp] theorem State.modStream_bar2Writes (s : State) (i : Nat) (f : Stream → Stream) : (s.modStream i f).bar2Writes = s.bar2Writes := rfl
@[simp] theorem State.modStream_bar2Queue (s : State) (i : Nat) (f : Stream → Stream) : (s.modStream i f).bar2Queue = s.bar2Queue := rfl
@[simp] theorem State.modStream_remotes (s : State) (i : Nat) (f : Stream → Stream) : (s.modStream i f).remotes = s.remotes := rfl
@[simp] theorem State.modStream_placements (s : State) (i : Nat) (f : Stream → Stream) : (s.modStream i f).placements = s.placements := rfl
@[simp] theorem State.modStream_launches (s : State) (i : Nat) (f : Stream → Stream) : (s.modStream i f).launches = s.launches := rfl
@[simp] theorem State.modStream_jobs (s : State) (i : Nat) (f : Stream → Stream) : (s.modStream i f).jobs = s.jobs := rfl
@[simp] theorem State.modStream_dense (s : State) (i : Nat) (f : Stream → Stream) : (s.modStream i f).dense = s.dense := rfl
@[simp] theorem State.modStream_lattice (s : State) (i : Nat) (f : Stream → Stream) : (s.modStream i f).lattice = s.lattice := rfl
@[simp] theorem State.modStream_envans (s : State) (i : Nat) (f : Stream → Stream) : (s.modStream i f).envans = s.envans := rfl
@[simp] theorem State.modStream_cascade (s : State) (i : Nat) (f : Stream → Stream) : (s.modStream i f).cascade = s.cascade := rfl
@[simp] theorem State.modStream_recovery (s : State) (i : Nat) (f : Stream → Stream) : (s.modStream i f).recovery = s.recovery := rfl
@[simp] theorem State.modStream_bg (s : State) (i : Nat) (f : Stream → Stream) : (s.modStream i f).bg = s.bg := rfl
@[simp] theorem State.modStream_dbg (s : State) (i : Nat) (f : Stream → Stream) : (s.modStream i f).dbg = s.dbg := rfl
@[simp] theorem State.modStream_perf (s : State) (i : Nat) (f : Stream → Stream) : (s.modStream i f).perf = s.perf := rfl
@[simp] theorem State.modStream_billetMem (s : State) (i : Nat) (f : Stream → Stream) : (s.modStream i f).billetMem = s.billetMem := rfl
@[simp] theorem State.modStream_draws (s : State) (i : Nat) (f : Stream → Stream) : (s.modStream i f).draws = s.draws := rfl
@[simp] theorem State.modStream_out (s : State) (i : Nat) (f : Stream → Stream) : (s.modStream i f).out = s.out := rfl
@[simp] theorem State.modStream_at_port (s : State) (i : Nat) (f : Stream → Stream) (q : Nat) : (s.modStream i f).port q = s.port q := rfl
@[simp] theorem State.modStream_at_fnAt (s : State) (i : Nat) (f : Stream → Stream) (q k : Nat) : (s.modStream i f).fnAt q k = s.fnAt q k := rfl
@[simp] theorem State.modStream_at_bench (s : State) (i : Nat) (f : Stream → Stream) (c : Nat) : (s.modStream i f).bench c = s.bench c := rfl
@[simp] theorem State.modStream_at_ring (s : State) (i : Nat) (f : Stream → Stream) (c q : Nat) : (s.modStream i f).ring c q = s.ring c q := rfl
@[simp] theorem State.modStream_at_lathe (s : State) (i : Nat) (f : Stream → Stream) (q : Nat) : (s.modStream i f).lathe q = s.lathe q := rfl
@[simp] theorem State.modStream_at_die (s : State) (i : Nat) (f : Stream → Stream) (q : Nat) : (s.modStream i f).die q = s.die q := rfl
@[simp] theorem State.modStream_at_envan (s : State) (i : Nat) (f : Stream → Stream) (q : Nat) : (s.modStream i f).envan q = s.envan q := rfl
@[simp] theorem State.modStream_at_whittler (s : State) (i : Nat) (f : Stream → Stream) (q : Nat) : (s.modStream i f).whittler q = s.whittler q := rfl
@[simp] theorem State.modStream_at_event (s : State) (i : Nat) (f : Stream → Stream) (q : Nat) : (s.modStream i f).event q = s.event q := rfl
@[simp] theorem State.modStream_at_paceTimer (s : State) (i : Nat) (f : Stream → Stream) (q : Bool) (k : Nat) : (s.modStream i f).paceTimer q k = s.paceTimer q k := rfl
@[simp] theorem State.modStream_at_domain (s : State) (i : Nat) (f : Stream → Stream) (q : Nat) : (s.modStream i f).domain q = s.domain q := rfl
@[simp] theorem State.modStream_at_guest (s : State) (i : Nat) (f : Stream → Stream) (q : Nat) : (s.modStream i f).guest q = s.guest q := rfl
@[simp] theorem State.modStream_now (s : State) (i : Nat) (f : Stream → Stream) : (s.modStream i f).now = s.now := rfl
@[simp] theorem State.modStream_big (s : State) (i : Nat) (f : Stream → Stream) : (s.modStream i f).big = s.big := rfl

@[simp] theorem State.modEvent_pending (s : State) (n : Nat) (f : EventLine → EventLine) : (s.modEvent n f).pending = s.pending := rfl
@[simp] theorem State.modEvent_chip (s : State) (n : Nat) (f : EventLine → EventLine) : (s.modEvent n f).chip = s.chip := rfl
@[simp] theorem State.modEvent_hearth (s : State) (n : Nat) (f : EventLine → EventLine) : (s.modEvent n f).hearth = s.hearth := rfl
@[simp] theorem State.modEvent_ports (s : State) (n : Nat) (f : EventLine → EventLine) : (s.modEvent n f).ports = s.ports := rfl
@[simp] theorem State.modEvent_fns (s : State) (n : Nat) (f : EventLine → EventLine) : (s.modEvent n f).fns = s.fns := rfl
@[simp] theorem State.modEvent_mailbox (s : State) (n : Nat) (f : EventLine → EventLine) : (s.modEvent n f).mailbox = s.mailbox := rfl
@[simp] theorem State.modEvent_benches (s : State) (n : Nat) (f : EventLine → EventLine) : (s.modEvent n f).benches = s.benches := rfl
@[simp] theorem State.modEvent_zeroFill (s : State) (n : Nat) (f : EventLine → EventLine) : (s.modEvent n f).zeroFill = s.zeroFill := rfl
@[simp] theorem State.modEvent_forming (s : State) (n : Nat) (f : EventLine → EventLine) : (s.modEvent n f).forming = s.forming := rfl
@[simp] theorem State.modEvent_formingFlr (s : State) (n : Nat) (f : EventLine → EventLine) : (s.modEvent n f).formingFlr = s.formingFlr := rfl
@[simp] theorem State.modEvent_lathes (s : State) (n : Nat) (f : EventLine → EventLine) : (s.modEvent n f).lathes = s.lathes := rfl
@[simp] theorem State.modEvent_paceTimers (s : State) (n : Nat) (f : EventLine → EventLine) : (s.modEvent n f).paceTimers = s.paceTimers := rfl
@[simp] theorem State.modEvent_charges (s : State) (n : Nat) (f : EventLine → EventLine) : (s.modEvent n f).charges = s.charges := rfl
@[simp] theorem State.modEvent_headstock (s : State) (n : Nat) (f : EventLine → EventLine) : (s.modEvent n f).headstock = s.headstock := rfl
@[simp] theorem State.modEvent_mig (s : State) (n : Nat) (f : EventLine → EventLine) : (s.modEvent n f).mig = s.mig := rfl
@[simp] theorem State.modEvent_spindles (s : State) (n : Nat) (f : EventLine → EventLine) : (s.modEvent n f).spindles = s.spindles := rfl
@[simp] theorem State.modEvent_bar2Reads (s : State) (n : Nat) (f : EventLine → EventLine) : (s.modEvent n f).bar2Reads = s.bar2Reads := rfl
@[simp] theorem State.modEvent_bar2Writes (s : State) (n : Nat) (f : EventLine → EventLine) : (s.modEvent n f).bar2Writes = s.bar2Writes := rfl
@[simp] theorem State.modEvent_bar2Queue (s : State) (n : Nat) (f : EventLine → EventLine) : (s.modEvent n f).bar2Queue = s.bar2Queue := rfl
@[simp] theorem State.modEvent_remotes (s : State) (n : Nat) (f : EventLine → EventLine) : (s.modEvent n f).remotes = s.remotes := rfl
@[simp] theorem State.modEvent_placements (s : State) (n : Nat) (f : EventLine → EventLine) : (s.modEvent n f).placements = s.placements := rfl
@[simp] theorem State.modEvent_launches (s : State) (n : Nat) (f : EventLine → EventLine) : (s.modEvent n f).launches = s.launches := rfl
@[simp] theorem State.modEvent_jobs (s : State) (n : Nat) (f : EventLine → EventLine) : (s.modEvent n f).jobs = s.jobs := rfl
@[simp] theorem State.modEvent_dense (s : State) (n : Nat) (f : EventLine → EventLine) : (s.modEvent n f).dense = s.dense := rfl
@[simp] theorem State.modEvent_lattice (s : State) (n : Nat) (f : EventLine → EventLine) : (s.modEvent n f).lattice = s.lattice := rfl
@[simp] theorem State.modEvent_envans (s : State) (n : Nat) (f : EventLine → EventLine) : (s.modEvent n f).envans = s.envans := rfl
@[simp] theorem State.modEvent_cascade (s : State) (n : Nat) (f : EventLine → EventLine) : (s.modEvent n f).cascade = s.cascade := rfl
@[simp] theorem State.modEvent_recovery (s : State) (n : Nat) (f : EventLine → EventLine) : (s.modEvent n f).recovery = s.recovery := rfl
@[simp] theorem State.modEvent_bg (s : State) (n : Nat) (f : EventLine → EventLine) : (s.modEvent n f).bg = s.bg := rfl
@[simp] theorem State.modEvent_streams (s : State) (n : Nat) (f : EventLine → EventLine) : (s.modEvent n f).streams = s.streams := rfl
@[simp] theorem State.modEvent_dbg (s : State) (n : Nat) (f : EventLine → EventLine) : (s.modEvent n f).dbg = s.dbg := rfl
@[simp] theorem State.modEvent_perf (s : State) (n : Nat) (f : EventLine → EventLine) : (s.modEvent n f).perf = s.perf := rfl
@[simp] theorem State.modEvent_billetMem (s : State) (n : Nat) (f : EventLine → EventLine) : (s.modEvent n f).billetMem = s.billetMem := rfl
@[simp] theorem State.modEvent_draws (s : State) (n : Nat) (f : EventLine → EventLine) : (s.modEvent n f).draws = s.draws := rfl
@[simp] theorem State.modEvent_out (s : State) (n : Nat) (f : EventLine → EventLine) : (s.modEvent n f).out = s.out := rfl
@[simp] theorem State.modEvent_at_port (s : State) (n : Nat) (f : EventLine → EventLine) (q : Nat) : (s.modEvent n f).port q = s.port q := rfl
@[simp] theorem State.modEvent_at_fnAt (s : State) (n : Nat) (f : EventLine → EventLine) (q k : Nat) : (s.modEvent n f).fnAt q k = s.fnAt q k := rfl
@[simp] theorem State.modEvent_at_bench (s : State) (n : Nat) (f : EventLine → EventLine) (c : Nat) : (s.modEvent n f).bench c = s.bench c := rfl
@[simp] theorem State.modEvent_at_ring (s : State) (n : Nat) (f : EventLine → EventLine) (c q : Nat) : (s.modEvent n f).ring c q = s.ring c q := rfl
@[simp] theorem State.modEvent_at_lathe (s : State) (n : Nat) (f : EventLine → EventLine) (q : Nat) : (s.modEvent n f).lathe q = s.lathe q := rfl
@[simp] theorem State.modEvent_at_die (s : State) (n : Nat) (f : EventLine → EventLine) (q : Nat) : (s.modEvent n f).die q = s.die q := rfl
@[simp] theorem State.modEvent_at_envan (s : State) (n : Nat) (f : EventLine → EventLine) (q : Nat) : (s.modEvent n f).envan q = s.envan q := rfl
@[simp] theorem State.modEvent_at_whittler (s : State) (n : Nat) (f : EventLine → EventLine) (q : Nat) : (s.modEvent n f).whittler q = s.whittler q := rfl
@[simp] theorem State.modEvent_at_stream (s : State) (n : Nat) (f : EventLine → EventLine) (q : Nat) : (s.modEvent n f).stream q = s.stream q := rfl
@[simp] theorem State.modEvent_at_paceTimer (s : State) (n : Nat) (f : EventLine → EventLine) (q : Bool) (k : Nat) : (s.modEvent n f).paceTimer q k = s.paceTimer q k := rfl
@[simp] theorem State.modEvent_at_domain (s : State) (n : Nat) (f : EventLine → EventLine) (q : Nat) : (s.modEvent n f).domain q = s.domain q := rfl
@[simp] theorem State.modEvent_at_guest (s : State) (n : Nat) (f : EventLine → EventLine) (q : Nat) : (s.modEvent n f).guest q = s.guest q := rfl
@[simp] theorem State.modEvent_now (s : State) (n : Nat) (f : EventLine → EventLine) : (s.modEvent n f).now = s.now := rfl
@[simp] theorem State.modEvent_big (s : State) (n : Nat) (f : EventLine → EventLine) : (s.modEvent n f).big = s.big := rfl

@[simp] theorem State.modPaceTimer_pending (s : State) (c : Bool) (t : Nat) (f : PaceTimer → PaceTimer) : (s.modPaceTimer c t f).pending = s.pending := rfl
@[simp] theorem State.modPaceTimer_chip (s : State) (c : Bool) (t : Nat) (f : PaceTimer → PaceTimer) : (s.modPaceTimer c t f).chip = s.chip := rfl
@[simp] theorem State.modPaceTimer_hearth (s : State) (c : Bool) (t : Nat) (f : PaceTimer → PaceTimer) : (s.modPaceTimer c t f).hearth = s.hearth := rfl
@[simp] theorem State.modPaceTimer_ports (s : State) (c : Bool) (t : Nat) (f : PaceTimer → PaceTimer) : (s.modPaceTimer c t f).ports = s.ports := rfl
@[simp] theorem State.modPaceTimer_fns (s : State) (c : Bool) (t : Nat) (f : PaceTimer → PaceTimer) : (s.modPaceTimer c t f).fns = s.fns := rfl
@[simp] theorem State.modPaceTimer_mailbox (s : State) (c : Bool) (t : Nat) (f : PaceTimer → PaceTimer) : (s.modPaceTimer c t f).mailbox = s.mailbox := rfl
@[simp] theorem State.modPaceTimer_benches (s : State) (c : Bool) (t : Nat) (f : PaceTimer → PaceTimer) : (s.modPaceTimer c t f).benches = s.benches := rfl
@[simp] theorem State.modPaceTimer_zeroFill (s : State) (c : Bool) (t : Nat) (f : PaceTimer → PaceTimer) : (s.modPaceTimer c t f).zeroFill = s.zeroFill := rfl
@[simp] theorem State.modPaceTimer_forming (s : State) (c : Bool) (t : Nat) (f : PaceTimer → PaceTimer) : (s.modPaceTimer c t f).forming = s.forming := rfl
@[simp] theorem State.modPaceTimer_formingFlr (s : State) (c : Bool) (t : Nat) (f : PaceTimer → PaceTimer) : (s.modPaceTimer c t f).formingFlr = s.formingFlr := rfl
@[simp] theorem State.modPaceTimer_lathes (s : State) (c : Bool) (t : Nat) (f : PaceTimer → PaceTimer) : (s.modPaceTimer c t f).lathes = s.lathes := rfl
@[simp] theorem State.modPaceTimer_events (s : State) (c : Bool) (t : Nat) (f : PaceTimer → PaceTimer) : (s.modPaceTimer c t f).events = s.events := rfl
@[simp] theorem State.modPaceTimer_charges (s : State) (c : Bool) (t : Nat) (f : PaceTimer → PaceTimer) : (s.modPaceTimer c t f).charges = s.charges := rfl
@[simp] theorem State.modPaceTimer_headstock (s : State) (c : Bool) (t : Nat) (f : PaceTimer → PaceTimer) : (s.modPaceTimer c t f).headstock = s.headstock := rfl
@[simp] theorem State.modPaceTimer_mig (s : State) (c : Bool) (t : Nat) (f : PaceTimer → PaceTimer) : (s.modPaceTimer c t f).mig = s.mig := rfl
@[simp] theorem State.modPaceTimer_spindles (s : State) (c : Bool) (t : Nat) (f : PaceTimer → PaceTimer) : (s.modPaceTimer c t f).spindles = s.spindles := rfl
@[simp] theorem State.modPaceTimer_bar2Reads (s : State) (c : Bool) (t : Nat) (f : PaceTimer → PaceTimer) : (s.modPaceTimer c t f).bar2Reads = s.bar2Reads := rfl
@[simp] theorem State.modPaceTimer_bar2Writes (s : State) (c : Bool) (t : Nat) (f : PaceTimer → PaceTimer) : (s.modPaceTimer c t f).bar2Writes = s.bar2Writes := rfl
@[simp] theorem State.modPaceTimer_bar2Queue (s : State) (c : Bool) (t : Nat) (f : PaceTimer → PaceTimer) : (s.modPaceTimer c t f).bar2Queue = s.bar2Queue := rfl
@[simp] theorem State.modPaceTimer_remotes (s : State) (c : Bool) (t : Nat) (f : PaceTimer → PaceTimer) : (s.modPaceTimer c t f).remotes = s.remotes := rfl
@[simp] theorem State.modPaceTimer_placements (s : State) (c : Bool) (t : Nat) (f : PaceTimer → PaceTimer) : (s.modPaceTimer c t f).placements = s.placements := rfl
@[simp] theorem State.modPaceTimer_launches (s : State) (c : Bool) (t : Nat) (f : PaceTimer → PaceTimer) : (s.modPaceTimer c t f).launches = s.launches := rfl
@[simp] theorem State.modPaceTimer_jobs (s : State) (c : Bool) (t : Nat) (f : PaceTimer → PaceTimer) : (s.modPaceTimer c t f).jobs = s.jobs := rfl
@[simp] theorem State.modPaceTimer_dense (s : State) (c : Bool) (t : Nat) (f : PaceTimer → PaceTimer) : (s.modPaceTimer c t f).dense = s.dense := rfl
@[simp] theorem State.modPaceTimer_lattice (s : State) (c : Bool) (t : Nat) (f : PaceTimer → PaceTimer) : (s.modPaceTimer c t f).lattice = s.lattice := rfl
@[simp] theorem State.modPaceTimer_envans (s : State) (c : Bool) (t : Nat) (f : PaceTimer → PaceTimer) : (s.modPaceTimer c t f).envans = s.envans := rfl
@[simp] theorem State.modPaceTimer_cascade (s : State) (c : Bool) (t : Nat) (f : PaceTimer → PaceTimer) : (s.modPaceTimer c t f).cascade = s.cascade := rfl
@[simp] theorem State.modPaceTimer_recovery (s : State) (c : Bool) (t : Nat) (f : PaceTimer → PaceTimer) : (s.modPaceTimer c t f).recovery = s.recovery := rfl
@[simp] theorem State.modPaceTimer_bg (s : State) (c : Bool) (t : Nat) (f : PaceTimer → PaceTimer) : (s.modPaceTimer c t f).bg = s.bg := rfl
@[simp] theorem State.modPaceTimer_streams (s : State) (c : Bool) (t : Nat) (f : PaceTimer → PaceTimer) : (s.modPaceTimer c t f).streams = s.streams := rfl
@[simp] theorem State.modPaceTimer_dbg (s : State) (c : Bool) (t : Nat) (f : PaceTimer → PaceTimer) : (s.modPaceTimer c t f).dbg = s.dbg := rfl
@[simp] theorem State.modPaceTimer_perf (s : State) (c : Bool) (t : Nat) (f : PaceTimer → PaceTimer) : (s.modPaceTimer c t f).perf = s.perf := rfl
@[simp] theorem State.modPaceTimer_billetMem (s : State) (c : Bool) (t : Nat) (f : PaceTimer → PaceTimer) : (s.modPaceTimer c t f).billetMem = s.billetMem := rfl
@[simp] theorem State.modPaceTimer_draws (s : State) (c : Bool) (t : Nat) (f : PaceTimer → PaceTimer) : (s.modPaceTimer c t f).draws = s.draws := rfl
@[simp] theorem State.modPaceTimer_out (s : State) (c : Bool) (t : Nat) (f : PaceTimer → PaceTimer) : (s.modPaceTimer c t f).out = s.out := rfl
@[simp] theorem State.modPaceTimer_at_port (s : State) (c : Bool) (t : Nat) (f : PaceTimer → PaceTimer) (q : Nat) : (s.modPaceTimer c t f).port q = s.port q := rfl
@[simp] theorem State.modPaceTimer_at_fnAt (s : State) (c : Bool) (t : Nat) (f : PaceTimer → PaceTimer) (q k : Nat) : (s.modPaceTimer c t f).fnAt q k = s.fnAt q k := rfl
@[simp] theorem State.modPaceTimer_at_bench (s : State) (c : Bool) (t : Nat) (f : PaceTimer → PaceTimer) (c : Nat) : (s.modPaceTimer c t f).bench c = s.bench c := rfl
@[simp] theorem State.modPaceTimer_at_ring (s : State) (c : Bool) (t : Nat) (f : PaceTimer → PaceTimer) (c q : Nat) : (s.modPaceTimer c t f).ring c q = s.ring c q := rfl
@[simp] theorem State.modPaceTimer_at_lathe (s : State) (c : Bool) (t : Nat) (f : PaceTimer → PaceTimer) (q : Nat) : (s.modPaceTimer c t f).lathe q = s.lathe q := rfl
@[simp] theorem State.modPaceTimer_at_die (s : State) (c : Bool) (t : Nat) (f : PaceTimer → PaceTimer) (q : Nat) : (s.modPaceTimer c t f).die q = s.die q := rfl
@[simp] theorem State.modPaceTimer_at_envan (s : State) (c : Bool) (t : Nat) (f : PaceTimer → PaceTimer) (q : Nat) : (s.modPaceTimer c t f).envan q = s.envan q := rfl
@[simp] theorem State.modPaceTimer_at_whittler (s : State) (c : Bool) (t : Nat) (f : PaceTimer → PaceTimer) (q : Nat) : (s.modPaceTimer c t f).whittler q = s.whittler q := rfl
@[simp] theorem State.modPaceTimer_at_stream (s : State) (c : Bool) (t : Nat) (f : PaceTimer → PaceTimer) (q : Nat) : (s.modPaceTimer c t f).stream q = s.stream q := rfl
@[simp] theorem State.modPaceTimer_at_event (s : State) (c : Bool) (t : Nat) (f : PaceTimer → PaceTimer) (q : Nat) : (s.modPaceTimer c t f).event q = s.event q := rfl
@[simp] theorem State.modPaceTimer_at_domain (s : State) (c : Bool) (t : Nat) (f : PaceTimer → PaceTimer) (q : Nat) : (s.modPaceTimer c t f).domain q = s.domain q := rfl
@[simp] theorem State.modPaceTimer_at_guest (s : State) (c : Bool) (t : Nat) (f : PaceTimer → PaceTimer) (q : Nat) : (s.modPaceTimer c t f).guest q = s.guest q := rfl
@[simp] theorem State.modPaceTimer_now (s : State) (c : Bool) (t : Nat) (f : PaceTimer → PaceTimer) : (s.modPaceTimer c t f).now = s.now := rfl
@[simp] theorem State.modPaceTimer_big (s : State) (c : Bool) (t : Nat) (f : PaceTimer → PaceTimer) : (s.modPaceTimer c t f).big = s.big := rfl

@[simp] theorem State.modDomain_pending (s : State) (n : Nat) (f : PdDomain → PdDomain) : (s.modDomain n f).pending = s.pending := rfl
@[simp] theorem State.modDomain_chip (s : State) (n : Nat) (f : PdDomain → PdDomain) : (s.modDomain n f).chip = s.chip := rfl
@[simp] theorem State.modDomain_ports (s : State) (n : Nat) (f : PdDomain → PdDomain) : (s.modDomain n f).ports = s.ports := rfl
@[simp] theorem State.modDomain_fns (s : State) (n : Nat) (f : PdDomain → PdDomain) : (s.modDomain n f).fns = s.fns := rfl
@[simp] theorem State.modDomain_mailbox (s : State) (n : Nat) (f : PdDomain → PdDomain) : (s.modDomain n f).mailbox = s.mailbox := rfl
@[simp] theorem State.modDomain_benches (s : State) (n : Nat) (f : PdDomain → PdDomain) : (s.modDomain n f).benches = s.benches := rfl
@[simp] theorem State.modDomain_zeroFill (s : State) (n : Nat) (f : PdDomain → PdDomain) : (s.modDomain n f).zeroFill = s.zeroFill := rfl
@[simp] theorem State.modDomain_forming (s : State) (n : Nat) (f : PdDomain → PdDomain) : (s.modDomain n f).forming = s.forming := rfl
@[simp] theorem State.modDomain_formingFlr (s : State) (n : Nat) (f : PdDomain → PdDomain) : (s.modDomain n f).formingFlr = s.formingFlr := rfl
@[simp] theorem State.modDomain_lathes (s : State) (n : Nat) (f : PdDomain → PdDomain) : (s.modDomain n f).lathes = s.lathes := rfl
@[simp] theorem State.modDomain_events (s : State) (n : Nat) (f : PdDomain → PdDomain) : (s.modDomain n f).events = s.events := rfl
@[simp] theorem State.modDomain_paceTimers (s : State) (n : Nat) (f : PdDomain → PdDomain) : (s.modDomain n f).paceTimers = s.paceTimers := rfl
@[simp] theorem State.modDomain_charges (s : State) (n : Nat) (f : PdDomain → PdDomain) : (s.modDomain n f).charges = s.charges := rfl
@[simp] theorem State.modDomain_headstock (s : State) (n : Nat) (f : PdDomain → PdDomain) : (s.modDomain n f).headstock = s.headstock := rfl
@[simp] theorem State.modDomain_mig (s : State) (n : Nat) (f : PdDomain → PdDomain) : (s.modDomain n f).mig = s.mig := rfl
@[simp] theorem State.modDomain_spindles (s : State) (n : Nat) (f : PdDomain → PdDomain) : (s.modDomain n f).spindles = s.spindles := rfl
@[simp] theorem State.modDomain_bar2Reads (s : State) (n : Nat) (f : PdDomain → PdDomain) : (s.modDomain n f).bar2Reads = s.bar2Reads := rfl
@[simp] theorem State.modDomain_bar2Writes (s : State) (n : Nat) (f : PdDomain → PdDomain) : (s.modDomain n f).bar2Writes = s.bar2Writes := rfl
@[simp] theorem State.modDomain_bar2Queue (s : State) (n : Nat) (f : PdDomain → PdDomain) : (s.modDomain n f).bar2Queue = s.bar2Queue := rfl
@[simp] theorem State.modDomain_remotes (s : State) (n : Nat) (f : PdDomain → PdDomain) : (s.modDomain n f).remotes = s.remotes := rfl
@[simp] theorem State.modDomain_placements (s : State) (n : Nat) (f : PdDomain → PdDomain) : (s.modDomain n f).placements = s.placements := rfl
@[simp] theorem State.modDomain_launches (s : State) (n : Nat) (f : PdDomain → PdDomain) : (s.modDomain n f).launches = s.launches := rfl
@[simp] theorem State.modDomain_jobs (s : State) (n : Nat) (f : PdDomain → PdDomain) : (s.modDomain n f).jobs = s.jobs := rfl
@[simp] theorem State.modDomain_dense (s : State) (n : Nat) (f : PdDomain → PdDomain) : (s.modDomain n f).dense = s.dense := rfl
@[simp] theorem State.modDomain_lattice (s : State) (n : Nat) (f : PdDomain → PdDomain) : (s.modDomain n f).lattice = s.lattice := rfl
@[simp] theorem State.modDomain_envans (s : State) (n : Nat) (f : PdDomain → PdDomain) : (s.modDomain n f).envans = s.envans := rfl
@[simp] theorem State.modDomain_cascade (s : State) (n : Nat) (f : PdDomain → PdDomain) : (s.modDomain n f).cascade = s.cascade := rfl
@[simp] theorem State.modDomain_recovery (s : State) (n : Nat) (f : PdDomain → PdDomain) : (s.modDomain n f).recovery = s.recovery := rfl
@[simp] theorem State.modDomain_bg (s : State) (n : Nat) (f : PdDomain → PdDomain) : (s.modDomain n f).bg = s.bg := rfl
@[simp] theorem State.modDomain_streams (s : State) (n : Nat) (f : PdDomain → PdDomain) : (s.modDomain n f).streams = s.streams := rfl
@[simp] theorem State.modDomain_dbg (s : State) (n : Nat) (f : PdDomain → PdDomain) : (s.modDomain n f).dbg = s.dbg := rfl
@[simp] theorem State.modDomain_perf (s : State) (n : Nat) (f : PdDomain → PdDomain) : (s.modDomain n f).perf = s.perf := rfl
@[simp] theorem State.modDomain_billetMem (s : State) (n : Nat) (f : PdDomain → PdDomain) : (s.modDomain n f).billetMem = s.billetMem := rfl
@[simp] theorem State.modDomain_draws (s : State) (n : Nat) (f : PdDomain → PdDomain) : (s.modDomain n f).draws = s.draws := rfl
@[simp] theorem State.modDomain_out (s : State) (n : Nat) (f : PdDomain → PdDomain) : (s.modDomain n f).out = s.out := rfl
@[simp] theorem State.modDomain_at_port (s : State) (n : Nat) (f : PdDomain → PdDomain) (q : Nat) : (s.modDomain n f).port q = s.port q := rfl
@[simp] theorem State.modDomain_at_fnAt (s : State) (n : Nat) (f : PdDomain → PdDomain) (q k : Nat) : (s.modDomain n f).fnAt q k = s.fnAt q k := rfl
@[simp] theorem State.modDomain_at_bench (s : State) (n : Nat) (f : PdDomain → PdDomain) (c : Nat) : (s.modDomain n f).bench c = s.bench c := rfl
@[simp] theorem State.modDomain_at_ring (s : State) (n : Nat) (f : PdDomain → PdDomain) (c q : Nat) : (s.modDomain n f).ring c q = s.ring c q := rfl
@[simp] theorem State.modDomain_at_lathe (s : State) (n : Nat) (f : PdDomain → PdDomain) (q : Nat) : (s.modDomain n f).lathe q = s.lathe q := rfl
@[simp] theorem State.modDomain_at_die (s : State) (n : Nat) (f : PdDomain → PdDomain) (q : Nat) : (s.modDomain n f).die q = s.die q := rfl
@[simp] theorem State.modDomain_at_envan (s : State) (n : Nat) (f : PdDomain → PdDomain) (q : Nat) : (s.modDomain n f).envan q = s.envan q := rfl
@[simp] theorem State.modDomain_at_whittler (s : State) (n : Nat) (f : PdDomain → PdDomain) (q : Nat) : (s.modDomain n f).whittler q = s.whittler q := rfl
@[simp] theorem State.modDomain_at_stream (s : State) (n : Nat) (f : PdDomain → PdDomain) (q : Nat) : (s.modDomain n f).stream q = s.stream q := rfl
@[simp] theorem State.modDomain_at_event (s : State) (n : Nat) (f : PdDomain → PdDomain) (q : Nat) : (s.modDomain n f).event q = s.event q := rfl
@[simp] theorem State.modDomain_at_paceTimer (s : State) (n : Nat) (f : PdDomain → PdDomain) (q : Bool) (k : Nat) : (s.modDomain n f).paceTimer q k = s.paceTimer q k := rfl
@[simp] theorem State.modDomain_at_guest (s : State) (n : Nat) (f : PdDomain → PdDomain) (q : Nat) : (s.modDomain n f).guest q = s.guest q := rfl
@[simp] theorem State.modDomain_now (s : State) (n : Nat) (f : PdDomain → PdDomain) : (s.modDomain n f).now = s.now := rfl
@[simp] theorem State.modDomain_big (s : State) (n : Nat) (f : PdDomain → PdDomain) : (s.modDomain n f).big = s.big := rfl

@[simp] theorem State.setGuest_pending (s : State) (g : Nat) (v : Option Guest) : (s.setGuest g v).pending = s.pending := rfl
@[simp] theorem State.setGuest_chip (s : State) (g : Nat) (v : Option Guest) : (s.setGuest g v).chip = s.chip := rfl
@[simp] theorem State.setGuest_hearth (s : State) (g : Nat) (v : Option Guest) : (s.setGuest g v).hearth = s.hearth := rfl
@[simp] theorem State.setGuest_ports (s : State) (g : Nat) (v : Option Guest) : (s.setGuest g v).ports = s.ports := rfl
@[simp] theorem State.setGuest_fns (s : State) (g : Nat) (v : Option Guest) : (s.setGuest g v).fns = s.fns := rfl
@[simp] theorem State.setGuest_mailbox (s : State) (g : Nat) (v : Option Guest) : (s.setGuest g v).mailbox = s.mailbox := rfl
@[simp] theorem State.setGuest_benches (s : State) (g : Nat) (v : Option Guest) : (s.setGuest g v).benches = s.benches := rfl
@[simp] theorem State.setGuest_zeroFill (s : State) (g : Nat) (v : Option Guest) : (s.setGuest g v).zeroFill = s.zeroFill := rfl
@[simp] theorem State.setGuest_forming (s : State) (g : Nat) (v : Option Guest) : (s.setGuest g v).forming = s.forming := rfl
@[simp] theorem State.setGuest_formingFlr (s : State) (g : Nat) (v : Option Guest) : (s.setGuest g v).formingFlr = s.formingFlr := rfl
@[simp] theorem State.setGuest_lathes (s : State) (g : Nat) (v : Option Guest) : (s.setGuest g v).lathes = s.lathes := rfl
@[simp] theorem State.setGuest_events (s : State) (g : Nat) (v : Option Guest) : (s.setGuest g v).events = s.events := rfl
@[simp] theorem State.setGuest_paceTimers (s : State) (g : Nat) (v : Option Guest) : (s.setGuest g v).paceTimers = s.paceTimers := rfl
@[simp] theorem State.setGuest_charges (s : State) (g : Nat) (v : Option Guest) : (s.setGuest g v).charges = s.charges := rfl
@[simp] theorem State.setGuest_headstock (s : State) (g : Nat) (v : Option Guest) : (s.setGuest g v).headstock = s.headstock := rfl
@[simp] theorem State.setGuest_mig (s : State) (g : Nat) (v : Option Guest) : (s.setGuest g v).mig = s.mig := rfl
@[simp] theorem State.setGuest_spindles (s : State) (g : Nat) (v : Option Guest) : (s.setGuest g v).spindles = s.spindles := rfl
@[simp] theorem State.setGuest_bar2Reads (s : State) (g : Nat) (v : Option Guest) : (s.setGuest g v).bar2Reads = s.bar2Reads := rfl
@[simp] theorem State.setGuest_bar2Writes (s : State) (g : Nat) (v : Option Guest) : (s.setGuest g v).bar2Writes = s.bar2Writes := rfl
@[simp] theorem State.setGuest_bar2Queue (s : State) (g : Nat) (v : Option Guest) : (s.setGuest g v).bar2Queue = s.bar2Queue := rfl
@[simp] theorem State.setGuest_remotes (s : State) (g : Nat) (v : Option Guest) : (s.setGuest g v).remotes = s.remotes := rfl
@[simp] theorem State.setGuest_placements (s : State) (g : Nat) (v : Option Guest) : (s.setGuest g v).placements = s.placements := rfl
@[simp] theorem State.setGuest_launches (s : State) (g : Nat) (v : Option Guest) : (s.setGuest g v).launches = s.launches := rfl
@[simp] theorem State.setGuest_jobs (s : State) (g : Nat) (v : Option Guest) : (s.setGuest g v).jobs = s.jobs := rfl
@[simp] theorem State.setGuest_dense (s : State) (g : Nat) (v : Option Guest) : (s.setGuest g v).dense = s.dense := rfl
@[simp] theorem State.setGuest_lattice (s : State) (g : Nat) (v : Option Guest) : (s.setGuest g v).lattice = s.lattice := rfl
@[simp] theorem State.setGuest_envans (s : State) (g : Nat) (v : Option Guest) : (s.setGuest g v).envans = s.envans := rfl
@[simp] theorem State.setGuest_recovery (s : State) (g : Nat) (v : Option Guest) : (s.setGuest g v).recovery = s.recovery := rfl
@[simp] theorem State.setGuest_bg (s : State) (g : Nat) (v : Option Guest) : (s.setGuest g v).bg = s.bg := rfl
@[simp] theorem State.setGuest_streams (s : State) (g : Nat) (v : Option Guest) : (s.setGuest g v).streams = s.streams := rfl
@[simp] theorem State.setGuest_dbg (s : State) (g : Nat) (v : Option Guest) : (s.setGuest g v).dbg = s.dbg := rfl
@[simp] theorem State.setGuest_perf (s : State) (g : Nat) (v : Option Guest) : (s.setGuest g v).perf = s.perf := rfl
@[simp] theorem State.setGuest_billetMem (s : State) (g : Nat) (v : Option Guest) : (s.setGuest g v).billetMem = s.billetMem := rfl
@[simp] theorem State.setGuest_draws (s : State) (g : Nat) (v : Option Guest) : (s.setGuest g v).draws = s.draws := rfl
@[simp] theorem State.setGuest_out (s : State) (g : Nat) (v : Option Guest) : (s.setGuest g v).out = s.out := rfl
@[simp] theorem State.setGuest_at_port (s : State) (g : Nat) (v : Option Guest) (q : Nat) : (s.setGuest g v).port q = s.port q := rfl
@[simp] theorem State.setGuest_at_fnAt (s : State) (g : Nat) (v : Option Guest) (q k : Nat) : (s.setGuest g v).fnAt q k = s.fnAt q k := rfl
@[simp] theorem State.setGuest_at_bench (s : State) (g : Nat) (v : Option Guest) (c : Nat) : (s.setGuest g v).bench c = s.bench c := rfl
@[simp] theorem State.setGuest_at_ring (s : State) (g : Nat) (v : Option Guest) (c q : Nat) : (s.setGuest g v).ring c q = s.ring c q := rfl
@[simp] theorem State.setGuest_at_lathe (s : State) (g : Nat) (v : Option Guest) (q : Nat) : (s.setGuest g v).lathe q = s.lathe q := rfl
@[simp] theorem State.setGuest_at_die (s : State) (g : Nat) (v : Option Guest) (q : Nat) : (s.setGuest g v).die q = s.die q := rfl
@[simp] theorem State.setGuest_at_envan (s : State) (g : Nat) (v : Option Guest) (q : Nat) : (s.setGuest g v).envan q = s.envan q := rfl
@[simp] theorem State.setGuest_at_whittler (s : State) (g : Nat) (v : Option Guest) (q : Nat) : (s.setGuest g v).whittler q = s.whittler q := rfl
@[simp] theorem State.setGuest_at_stream (s : State) (g : Nat) (v : Option Guest) (q : Nat) : (s.setGuest g v).stream q = s.stream q := rfl
@[simp] theorem State.setGuest_at_event (s : State) (g : Nat) (v : Option Guest) (q : Nat) : (s.setGuest g v).event q = s.event q := rfl
@[simp] theorem State.setGuest_at_paceTimer (s : State) (g : Nat) (v : Option Guest) (q : Bool) (k : Nat) : (s.setGuest g v).paceTimer q k = s.paceTimer q k := rfl
@[simp] theorem State.setGuest_at_domain (s : State) (g : Nat) (v : Option Guest) (q : Nat) : (s.setGuest g v).domain q = s.domain q := rfl
@[simp] theorem State.setGuest_now (s : State) (g : Nat) (v : Option Guest) : (s.setGuest g v).now = s.now := rfl
@[simp] theorem State.setGuest_big (s : State) (g : Nat) (v : Option Guest) : (s.setGuest g v).big = s.big := rfl

@[simp] theorem State.emit_pending (s : State) (o : Out) : (s.emit o).pending = s.pending := rfl
@[simp] theorem State.emit_chip (s : State) (o : Out) : (s.emit o).chip = s.chip := rfl
@[simp] theorem State.emit_hearth (s : State) (o : Out) : (s.emit o).hearth = s.hearth := rfl
@[simp] theorem State.emit_ports (s : State) (o : Out) : (s.emit o).ports = s.ports := rfl
@[simp] theorem State.emit_fns (s : State) (o : Out) : (s.emit o).fns = s.fns := rfl
@[simp] theorem State.emit_mailbox (s : State) (o : Out) : (s.emit o).mailbox = s.mailbox := rfl
@[simp] theorem State.emit_benches (s : State) (o : Out) : (s.emit o).benches = s.benches := rfl
@[simp] theorem State.emit_zeroFill (s : State) (o : Out) : (s.emit o).zeroFill = s.zeroFill := rfl
@[simp] theorem State.emit_forming (s : State) (o : Out) : (s.emit o).forming = s.forming := rfl
@[simp] theorem State.emit_formingFlr (s : State) (o : Out) : (s.emit o).formingFlr = s.formingFlr := rfl
@[simp] theorem State.emit_lathes (s : State) (o : Out) : (s.emit o).lathes = s.lathes := rfl
@[simp] theorem State.emit_events (s : State) (o : Out) : (s.emit o).events = s.events := rfl
@[simp] theorem State.emit_paceTimers (s : State) (o : Out) : (s.emit o).paceTimers = s.paceTimers := rfl
@[simp] theorem State.emit_charges (s : State) (o : Out) : (s.emit o).charges = s.charges := rfl
@[simp] theorem State.emit_headstock (s : State) (o : Out) : (s.emit o).headstock = s.headstock := rfl
@[simp] theorem State.emit_mig (s : State) (o : Out) : (s.emit o).mig = s.mig := rfl
@[simp] theorem State.emit_spindles (s : State) (o : Out) : (s.emit o).spindles = s.spindles := rfl
@[simp] theorem State.emit_bar2Reads (s : State) (o : Out) : (s.emit o).bar2Reads = s.bar2Reads := rfl
@[simp] theorem State.emit_bar2Writes (s : State) (o : Out) : (s.emit o).bar2Writes = s.bar2Writes := rfl
@[simp] theorem State.emit_bar2Queue (s : State) (o : Out) : (s.emit o).bar2Queue = s.bar2Queue := rfl
@[simp] theorem State.emit_remotes (s : State) (o : Out) : (s.emit o).remotes = s.remotes := rfl
@[simp] theorem State.emit_placements (s : State) (o : Out) : (s.emit o).placements = s.placements := rfl
@[simp] theorem State.emit_launches (s : State) (o : Out) : (s.emit o).launches = s.launches := rfl
@[simp] theorem State.emit_jobs (s : State) (o : Out) : (s.emit o).jobs = s.jobs := rfl
@[simp] theorem State.emit_dense (s : State) (o : Out) : (s.emit o).dense = s.dense := rfl
@[simp] theorem State.emit_lattice (s : State) (o : Out) : (s.emit o).lattice = s.lattice := rfl
@[simp] theorem State.emit_envans (s : State) (o : Out) : (s.emit o).envans = s.envans := rfl
@[simp] theorem State.emit_cascade (s : State) (o : Out) : (s.emit o).cascade = s.cascade := rfl
@[simp] theorem State.emit_recovery (s : State) (o : Out) : (s.emit o).recovery = s.recovery := rfl
@[simp] theorem State.emit_bg (s : State) (o : Out) : (s.emit o).bg = s.bg := rfl
@[simp] theorem State.emit_streams (s : State) (o : Out) : (s.emit o).streams = s.streams := rfl
@[simp] theorem State.emit_dbg (s : State) (o : Out) : (s.emit o).dbg = s.dbg := rfl
@[simp] theorem State.emit_perf (s : State) (o : Out) : (s.emit o).perf = s.perf := rfl
@[simp] theorem State.emit_billetMem (s : State) (o : Out) : (s.emit o).billetMem = s.billetMem := rfl
@[simp] theorem State.emit_draws (s : State) (o : Out) : (s.emit o).draws = s.draws := rfl
@[simp] theorem State.emit_at_port (s : State) (o : Out) (q : Nat) : (s.emit o).port q = s.port q := rfl
@[simp] theorem State.emit_at_fnAt (s : State) (o : Out) (q k : Nat) : (s.emit o).fnAt q k = s.fnAt q k := rfl
@[simp] theorem State.emit_at_bench (s : State) (o : Out) (c : Nat) : (s.emit o).bench c = s.bench c := rfl
@[simp] theorem State.emit_at_ring (s : State) (o : Out) (c q : Nat) : (s.emit o).ring c q = s.ring c q := rfl
@[simp] theorem State.emit_at_lathe (s : State) (o : Out) (q : Nat) : (s.emit o).lathe q = s.lathe q := rfl
@[simp] theorem State.emit_at_die (s : State) (o : Out) (q : Nat) : (s.emit o).die q = s.die q := rfl
@[simp] theorem State.emit_at_envan (s : State) (o : Out) (q : Nat) : (s.emit o).envan q = s.envan q := rfl
@[simp] theorem State.emit_at_whittler (s : State) (o : Out) (q : Nat) : (s.emit o).whittler q = s.whittler q := rfl
@[simp] theorem State.emit_at_stream (s : State) (o : Out) (q : Nat) : (s.emit o).stream q = s.stream q := rfl
@[simp] theorem State.emit_at_event (s : State) (o : Out) (q : Nat) : (s.emit o).event q = s.event q := rfl
@[simp] theorem State.emit_at_paceTimer (s : State) (o : Out) (q : Bool) (k : Nat) : (s.emit o).paceTimer q k = s.paceTimer q k := rfl
@[simp] theorem State.emit_at_domain (s : State) (o : Out) (q : Nat) : (s.emit o).domain q = s.domain q := rfl
@[simp] theorem State.emit_at_guest (s : State) (o : Out) (q : Nat) : (s.emit o).guest q = s.guest q := rfl
@[simp] theorem State.emit_now (s : State) (o : Out) : (s.emit o).now = s.now := rfl
@[simp] theorem State.emit_big (s : State) (o : Out) : (s.emit o).big = s.big := rfl

@[simp] theorem State.countHub_pending (s : State) : s.countHub.pending = s.pending := rfl
@[simp] theorem State.countHub_hearth (s : State) : s.countHub.hearth = s.hearth := rfl
@[simp] theorem State.countHub_ports (s : State) : s.countHub.ports = s.ports := rfl
@[simp] theorem State.countHub_fns (s : State) : s.countHub.fns = s.fns := rfl
@[simp] theorem State.countHub_mailbox (s : State) : s.countHub.mailbox = s.mailbox := rfl
@[simp] theorem State.countHub_benches (s : State) : s.countHub.benches = s.benches := rfl
@[simp] theorem State.countHub_zeroFill (s : State) : s.countHub.zeroFill = s.zeroFill := rfl
@[simp] theorem State.countHub_forming (s : State) : s.countHub.forming = s.forming := rfl
@[simp] theorem State.countHub_formingFlr (s : State) : s.countHub.formingFlr = s.formingFlr := rfl
@[simp] theorem State.countHub_lathes (s : State) : s.countHub.lathes = s.lathes := rfl
@[simp] theorem State.countHub_events (s : State) : s.countHub.events = s.events := rfl
@[simp] theorem State.countHub_paceTimers (s : State) : s.countHub.paceTimers = s.paceTimers := rfl
@[simp] theorem State.countHub_charges (s : State) : s.countHub.charges = s.charges := rfl
@[simp] theorem State.countHub_headstock (s : State) : s.countHub.headstock = s.headstock := rfl
@[simp] theorem State.countHub_mig (s : State) : s.countHub.mig = s.mig := rfl
@[simp] theorem State.countHub_spindles (s : State) : s.countHub.spindles = s.spindles := rfl
@[simp] theorem State.countHub_bar2Reads (s : State) : s.countHub.bar2Reads = s.bar2Reads := rfl
@[simp] theorem State.countHub_bar2Writes (s : State) : s.countHub.bar2Writes = s.bar2Writes := rfl
@[simp] theorem State.countHub_bar2Queue (s : State) : s.countHub.bar2Queue = s.bar2Queue := rfl
@[simp] theorem State.countHub_remotes (s : State) : s.countHub.remotes = s.remotes := rfl
@[simp] theorem State.countHub_placements (s : State) : s.countHub.placements = s.placements := rfl
@[simp] theorem State.countHub_launches (s : State) : s.countHub.launches = s.launches := rfl
@[simp] theorem State.countHub_jobs (s : State) : s.countHub.jobs = s.jobs := rfl
@[simp] theorem State.countHub_dense (s : State) : s.countHub.dense = s.dense := rfl
@[simp] theorem State.countHub_lattice (s : State) : s.countHub.lattice = s.lattice := rfl
@[simp] theorem State.countHub_envans (s : State) : s.countHub.envans = s.envans := rfl
@[simp] theorem State.countHub_cascade (s : State) : s.countHub.cascade = s.cascade := rfl
@[simp] theorem State.countHub_recovery (s : State) : s.countHub.recovery = s.recovery := rfl
@[simp] theorem State.countHub_bg (s : State) : s.countHub.bg = s.bg := rfl
@[simp] theorem State.countHub_streams (s : State) : s.countHub.streams = s.streams := rfl
@[simp] theorem State.countHub_dbg (s : State) : s.countHub.dbg = s.dbg := rfl
@[simp] theorem State.countHub_perf (s : State) : s.countHub.perf = s.perf := rfl
@[simp] theorem State.countHub_billetMem (s : State) : s.countHub.billetMem = s.billetMem := rfl
@[simp] theorem State.countHub_draws (s : State) : s.countHub.draws = s.draws := rfl
@[simp] theorem State.countHub_out (s : State) : s.countHub.out = s.out := rfl
@[simp] theorem State.countHub_at_port (s : State) (q : Nat) : s.countHub.port q = s.port q := rfl
@[simp] theorem State.countHub_at_fnAt (s : State) (q k : Nat) : s.countHub.fnAt q k = s.fnAt q k := rfl
@[simp] theorem State.countHub_at_bench (s : State) (c : Nat) : s.countHub.bench c = s.bench c := rfl
@[simp] theorem State.countHub_at_ring (s : State) (c q : Nat) : s.countHub.ring c q = s.ring c q := rfl
@[simp] theorem State.countHub_at_lathe (s : State) (q : Nat) : s.countHub.lathe q = s.lathe q := rfl
@[simp] theorem State.countHub_at_die (s : State) (q : Nat) : s.countHub.die q = s.die q := rfl
@[simp] theorem State.countHub_at_envan (s : State) (q : Nat) : s.countHub.envan q = s.envan q := rfl
@[simp] theorem State.countHub_at_whittler (s : State) (q : Nat) : s.countHub.whittler q = s.whittler q := rfl
@[simp] theorem State.countHub_at_stream (s : State) (q : Nat) : s.countHub.stream q = s.stream q := rfl
@[simp] theorem State.countHub_at_event (s : State) (q : Nat) : s.countHub.event q = s.event q := rfl
@[simp] theorem State.countHub_at_paceTimer (s : State) (q : Bool) (k : Nat) : s.countHub.paceTimer q k = s.paceTimer q k := rfl
@[simp] theorem State.countHub_at_domain (s : State) (q : Nat) : s.countHub.domain q = s.domain q := rfl
@[simp] theorem State.countHub_at_guest (s : State) (q : Nat) : s.countHub.guest q = s.guest q := rfl
@[simp] theorem State.countHub_now (s : State) : s.countHub.now = s.now := rfl
@[simp] theorem State.countHub_big (s : State) : s.countHub.big = s.big := rfl

@[simp] theorem State.countBench_pending (s : State) (b : Nat) : (s.countBench b).pending = s.pending := rfl
@[simp] theorem State.countBench_chip (s : State) (b : Nat) : (s.countBench b).chip = s.chip := rfl
@[simp] theorem State.countBench_hearth (s : State) (b : Nat) : (s.countBench b).hearth = s.hearth := rfl
@[simp] theorem State.countBench_ports (s : State) (b : Nat) : (s.countBench b).ports = s.ports := rfl
@[simp] theorem State.countBench_fns (s : State) (b : Nat) : (s.countBench b).fns = s.fns := rfl
@[simp] theorem State.countBench_mailbox (s : State) (b : Nat) : (s.countBench b).mailbox = s.mailbox := rfl
@[simp] theorem State.countBench_zeroFill (s : State) (b : Nat) : (s.countBench b).zeroFill = s.zeroFill := rfl
@[simp] theorem State.countBench_forming (s : State) (b : Nat) : (s.countBench b).forming = s.forming := rfl
@[simp] theorem State.countBench_formingFlr (s : State) (b : Nat) : (s.countBench b).formingFlr = s.formingFlr := rfl
@[simp] theorem State.countBench_lathes (s : State) (b : Nat) : (s.countBench b).lathes = s.lathes := rfl
@[simp] theorem State.countBench_events (s : State) (b : Nat) : (s.countBench b).events = s.events := rfl
@[simp] theorem State.countBench_paceTimers (s : State) (b : Nat) : (s.countBench b).paceTimers = s.paceTimers := rfl
@[simp] theorem State.countBench_charges (s : State) (b : Nat) : (s.countBench b).charges = s.charges := rfl
@[simp] theorem State.countBench_headstock (s : State) (b : Nat) : (s.countBench b).headstock = s.headstock := rfl
@[simp] theorem State.countBench_mig (s : State) (b : Nat) : (s.countBench b).mig = s.mig := rfl
@[simp] theorem State.countBench_spindles (s : State) (b : Nat) : (s.countBench b).spindles = s.spindles := rfl
@[simp] theorem State.countBench_bar2Reads (s : State) (b : Nat) : (s.countBench b).bar2Reads = s.bar2Reads := rfl
@[simp] theorem State.countBench_bar2Writes (s : State) (b : Nat) : (s.countBench b).bar2Writes = s.bar2Writes := rfl
@[simp] theorem State.countBench_bar2Queue (s : State) (b : Nat) : (s.countBench b).bar2Queue = s.bar2Queue := rfl
@[simp] theorem State.countBench_remotes (s : State) (b : Nat) : (s.countBench b).remotes = s.remotes := rfl
@[simp] theorem State.countBench_placements (s : State) (b : Nat) : (s.countBench b).placements = s.placements := rfl
@[simp] theorem State.countBench_launches (s : State) (b : Nat) : (s.countBench b).launches = s.launches := rfl
@[simp] theorem State.countBench_jobs (s : State) (b : Nat) : (s.countBench b).jobs = s.jobs := rfl
@[simp] theorem State.countBench_dense (s : State) (b : Nat) : (s.countBench b).dense = s.dense := rfl
@[simp] theorem State.countBench_lattice (s : State) (b : Nat) : (s.countBench b).lattice = s.lattice := rfl
@[simp] theorem State.countBench_envans (s : State) (b : Nat) : (s.countBench b).envans = s.envans := rfl
@[simp] theorem State.countBench_cascade (s : State) (b : Nat) : (s.countBench b).cascade = s.cascade := rfl
@[simp] theorem State.countBench_recovery (s : State) (b : Nat) : (s.countBench b).recovery = s.recovery := rfl
@[simp] theorem State.countBench_bg (s : State) (b : Nat) : (s.countBench b).bg = s.bg := rfl
@[simp] theorem State.countBench_streams (s : State) (b : Nat) : (s.countBench b).streams = s.streams := rfl
@[simp] theorem State.countBench_dbg (s : State) (b : Nat) : (s.countBench b).dbg = s.dbg := rfl
@[simp] theorem State.countBench_perf (s : State) (b : Nat) : (s.countBench b).perf = s.perf := rfl
@[simp] theorem State.countBench_billetMem (s : State) (b : Nat) : (s.countBench b).billetMem = s.billetMem := rfl
@[simp] theorem State.countBench_draws (s : State) (b : Nat) : (s.countBench b).draws = s.draws := rfl
@[simp] theorem State.countBench_out (s : State) (b : Nat) : (s.countBench b).out = s.out := rfl
@[simp] theorem State.countBench_at_port (s : State) (b : Nat) (q : Nat) : (s.countBench b).port q = s.port q := rfl
@[simp] theorem State.countBench_at_fnAt (s : State) (b : Nat) (q k : Nat) : (s.countBench b).fnAt q k = s.fnAt q k := rfl
@[simp] theorem State.countBench_at_lathe (s : State) (b : Nat) (q : Nat) : (s.countBench b).lathe q = s.lathe q := rfl
@[simp] theorem State.countBench_at_die (s : State) (b : Nat) (q : Nat) : (s.countBench b).die q = s.die q := rfl
@[simp] theorem State.countBench_at_envan (s : State) (b : Nat) (q : Nat) : (s.countBench b).envan q = s.envan q := rfl
@[simp] theorem State.countBench_at_whittler (s : State) (b : Nat) (q : Nat) : (s.countBench b).whittler q = s.whittler q := rfl
@[simp] theorem State.countBench_at_stream (s : State) (b : Nat) (q : Nat) : (s.countBench b).stream q = s.stream q := rfl
@[simp] theorem State.countBench_at_event (s : State) (b : Nat) (q : Nat) : (s.countBench b).event q = s.event q := rfl
@[simp] theorem State.countBench_at_paceTimer (s : State) (b : Nat) (q : Bool) (k : Nat) : (s.countBench b).paceTimer q k = s.paceTimer q k := rfl
@[simp] theorem State.countBench_at_domain (s : State) (b : Nat) (q : Nat) : (s.countBench b).domain q = s.domain q := rfl
@[simp] theorem State.countBench_at_guest (s : State) (b : Nat) (q : Nat) : (s.countBench b).guest q = s.guest q := rfl
@[simp] theorem State.countBench_now (s : State) (b : Nat) : (s.countBench b).now = s.now := rfl
@[simp] theorem State.countBench_big (s : State) (b : Nat) : (s.countBench b).big = s.big := rfl

/-! ### A unit read after an update of it, and after an update of another -/

@[simp] theorem State.modPort_port_same (s : State) (p : Nat) (f : Port → Port) : (s.modPort p f).port p = f (s.port p) :=
  tabGet_tabSet_same ..
theorem State.modPort_port_ne (s : State) {p q : Nat} (f : Port → Port) (h : q ≠ p) : (s.modPort p f).port q = s.port q :=
  tabGet_tabSet_ne _ _ _ h
@[simp] theorem State.modLathe_lathe_same (s : State) (l : Nat) (f : Lathe → Lathe) : (s.modLathe l f).lathe l = f (s.lathe l) :=
  tabGet_tabSet_same ..
theorem State.modLathe_lathe_ne (s : State) {l q : Nat} (f : Lathe → Lathe) (h : q ≠ l) : (s.modLathe l f).lathe q = s.lathe q :=
  tabGet_tabSet_ne _ _ _ h
@[simp] theorem State.modDie_die_same (s : State) (d : Nat) (f : Spindle → Spindle) : (s.modDie d f).die d = f (s.die d) :=
  tabGet_tabSet_same ..
theorem State.modDie_die_ne (s : State) {d q : Nat} (f : Spindle → Spindle) (h : q ≠ d) : (s.modDie d f).die q = s.die q :=
  tabGet_tabSet_ne _ _ _ h
@[simp] theorem State.modEnvan_envan_same (s : State) (l : Nat) (f : Envan → Envan) : (s.modEnvan l f).envan l = f (s.envan l) :=
  tabGet_tabSet_same ..
theorem State.modEnvan_envan_ne (s : State) {l q : Nat} (f : Envan → Envan) (h : q ≠ l) : (s.modEnvan l f).envan q = s.envan q :=
  tabGet_tabSet_ne _ _ _ h
@[simp] theorem State.modWhittler_whittler_same (s : State) (w : Nat) (f : Whittler → Whittler) : (s.modWhittler w f).whittler w = f (s.whittler w) :=
  tabGet_tabSet_same ..
theorem State.modWhittler_whittler_ne (s : State) {w q : Nat} (f : Whittler → Whittler) (h : q ≠ w) : (s.modWhittler w f).whittler q = s.whittler q :=
  tabGet_tabSet_ne _ _ _ h
@[simp] theorem State.modStream_stream_same (s : State) (i : Nat) (f : Stream → Stream) : (s.modStream i f).stream i = f (s.stream i) :=
  tabGet_tabSet_same ..
theorem State.modStream_stream_ne (s : State) {i q : Nat} (f : Stream → Stream) (h : q ≠ i) : (s.modStream i f).stream q = s.stream q :=
  tabGet_tabSet_ne _ _ _ h
@[simp] theorem State.modEvent_event_same (s : State) (n : Nat) (f : EventLine → EventLine) : (s.modEvent n f).event n = f (s.event n) :=
  tabGet_tabSet_same ..
theorem State.modEvent_event_ne (s : State) {n q : Nat} (f : EventLine → EventLine) (h : q ≠ n) : (s.modEvent n f).event q = s.event q :=
  tabGet_tabSet_ne _ _ _ h
@[simp] theorem State.modDomain_domain_same (s : State) (n : Nat) (f : PdDomain → PdDomain) : (s.modDomain n f).domain n = f (s.domain n) :=
  tabGet_tabSet_same ..
theorem State.modDomain_domain_ne (s : State) {n q : Nat} (f : PdDomain → PdDomain) (h : q ≠ n) : (s.modDomain n f).domain q = s.domain q :=
  tabGet_tabSet_ne _ _ _ h
@[simp] theorem State.modBench_bench_same (s : State) (b : Nat) (f : Bench → Bench) : (s.modBench b f).bench b = f (s.bench b) :=
  tabGet_tabSet_same ..
theorem State.modBench_bench_ne (s : State) {b q : Nat} (f : Bench → Bench) (h : q ≠ b) : (s.modBench b f).bench q = s.bench q :=
  tabGet_tabSet_ne _ _ _ h
@[simp] theorem State.setBench_bench_same (s : State) (b : Nat) (v : Bench) : (s.setBench b v).bench b = v := tabGet_tabSet_same ..
theorem State.setBench_bench_ne (s : State) {b c : Nat} (v : Bench) (h : c ≠ b) : (s.setBench b v).bench c = s.bench c :=
  tabGet_tabSet_ne _ _ _ h
@[simp] theorem State.setGuest_guest_same (s : State) (g : Nat) (v : Option Guest) : (s.setGuest g v).guest g = v := tabGet_tabSet_same ..
theorem State.setGuest_guest_ne (s : State) {g q : Nat} (v : Option Guest) (h : q ≠ g) : (s.setGuest g v).guest q = s.guest q :=
  tabGet_tabSet_ne _ _ _ h
@[simp] theorem State.modPaceTimer_paceTimer_same (s : State) (c : Bool) (t : Nat) (f : PaceTimer → PaceTimer) :
    (s.modPaceTimer c t f).paceTimer c t = f (s.paceTimer c t) := tabGet_tabSet_same ..
@[simp] theorem State.modFn_fnAt_same (s : State) (p n : Nat) (f : Fn → Fn) : (s.modFn p n f).fnAt p n = f (s.fnAt p n) :=
  tabGet_tabSet_same ..
/-- A ring changed reads as changed. -/
@[simp] theorem State.modRing_ring_same (s : State) (b r : Nat) (f : Ring → Ring) : (s.modRing b r f).ring b r = f (s.ring b r) := by
  unfold State.ring State.modRing
  rw [State.modBench_bench_same]
  exact tabGet_tabMod_same ..
/-- Another ring of the same bench is as before. -/
theorem State.modRing_ring_ne (s : State) (b : Nat) {r q : Nat} (f : Ring → Ring) (h : q ≠ r) : (s.modRing b r f).ring b q = s.ring b q := by
  unfold State.ring State.modRing
  rw [State.modBench_bench_same]
  exact tabGet_tabMod_ne _ _ _ h
/-- A ring of another bench is as before. -/
theorem State.modRing_ring_other (s : State) {b c : Nat} (r q : Nat) (f : Ring → Ring) (h : c ≠ b) : (s.modRing b r f).ring c q = s.ring c q := by
  unfold State.ring State.modRing
  rw [State.modBench_bench_ne _ _ h]
/-- A change of a bench that leaves its rings leaves each ring. -/
theorem State.modBench_ring_same (s : State) (b q : Nat) (f : Bench → Bench) (h : (f (s.bench b)).rings = (s.bench b).rings) :
    (s.modBench b f).ring b q = s.ring b q := by
  unfold State.ring
  rw [State.modBench_bench_same, h]
theorem State.modBench_ring_other (s : State) {b c : Nat} (q : Nat) (f : Bench → Bench) (h : c ≠ b) : (s.modBench b f).ring c q = s.ring c q := by
  unfold State.ring
  rw [State.modBench_bench_ne _ _ h]
/-- A change of a ring leaves every other bench. -/
theorem State.modRing_bench_ne (s : State) {b c : Nat} (r : Nat) (f : Ring → Ring) (h : c ≠ b) : (s.modRing b r f).bench c = s.bench c :=
  State.modBench_bench_ne _ _ h
@[simp] theorem State.countHub_badAccess (s : State) : s.countHub.chip.badAccess = s.chip.badAccess + 1 := rfl
@[simp] theorem State.emit_out (s : State) (o : Out) : (s.emit o).out = s.out ++ [o] := rfl
@[simp] theorem State.countBench_badAccess (s : State) (b : Nat) :
    ((s.countBench b).bench b).counters.badAccess = (s.bench b).counters.badAccess + 1 := by
  unfold State.countBench
  rw [State.modBench_bench_same]

/-! ### What a change of a ring leaves of its bench -/

@[simp] theorem State.modRing_bench_state (s : State) (b r c : Nat) (f : Ring → Ring) : ((s.modRing b r f).bench c).state = (s.bench c).state := by
  by_cases h : c = b
  · subst h; unfold State.modRing; rw [State.modBench_bench_same]
  · rw [State.modRing_bench_ne _ _ _ h]
@[simp] theorem State.modRing_bench_detached (s : State) (b r c : Nat) (f : Ring → Ring) : ((s.modRing b r f).bench c).detached = (s.bench c).detached := by
  by_cases h : c = b
  · subst h; unfold State.modRing; rw [State.modBench_bench_same]
  · rw [State.modRing_bench_ne _ _ _ h]
@[simp] theorem State.modRing_bench_keep (s : State) (b r c : Nat) (f : Ring → Ring) : ((s.modRing b r f).bench c).keep = (s.bench c).keep := by
  by_cases h : c = b
  · subst h; unfold State.modRing; rw [State.modBench_bench_same]
  · rw [State.modRing_bench_ne _ _ _ h]
@[simp] theorem State.modRing_bench_holdCause (s : State) (b r c : Nat) (f : Ring → Ring) : ((s.modRing b r f).bench c).holdCause = (s.bench c).holdCause := by
  by_cases h : c = b
  · subst h; unfold State.modRing; rw [State.modBench_bench_same]
  · rw [State.modRing_bench_ne _ _ _ h]
@[simp] theorem State.modRing_bench_sweepCause (s : State) (b r c : Nat) (f : Ring → Ring) : ((s.modRing b r f).bench c).sweepCause = (s.bench c).sweepCause := by
  by_cases h : c = b
  · subst h; unfold State.modRing; rw [State.modBench_bench_same]
  · rw [State.modRing_bench_ne _ _ _ h]
@[simp] theorem State.modRing_bench_port (s : State) (b r c : Nat) (f : Ring → Ring) : ((s.modRing b r f).bench c).port = (s.bench c).port := by
  by_cases h : c = b
  · subst h; unfold State.modRing; rw [State.modBench_bench_same]
  · rw [State.modRing_bench_ne _ _ _ h]
@[simp] theorem State.modRing_bench_fn (s : State) (b r c : Nat) (f : Ring → Ring) : ((s.modRing b r f).bench c).fn = (s.bench c).fn := by
  by_cases h : c = b
  · subst h; unfold State.modRing; rw [State.modBench_bench_same]
  · rw [State.modRing_bench_ne _ _ _ h]
@[simp] theorem State.modRing_bench_classId (s : State) (b r c : Nat) (f : Ring → Ring) : ((s.modRing b r f).bench c).classId = (s.bench c).classId := by
  by_cases h : c = b
  · subst h; unfold State.modRing; rw [State.modBench_bench_same]
  · rw [State.modRing_bench_ne _ _ _ h]
@[simp] theorem State.modRing_bench_ringCount (s : State) (b r c : Nat) (f : Ring → Ring) : ((s.modRing b r f).bench c).ringCount = (s.bench c).ringCount := by
  by_cases h : c = b
  · subst h; unfold State.modRing; rw [State.modBench_bench_same]
  · rw [State.modRing_bench_ne _ _ _ h]
@[simp] theorem State.modRing_bench_incarn (s : State) (b r c : Nat) (f : Ring → Ring) : ((s.modRing b r f).bench c).incarn = (s.bench c).incarn := by
  by_cases h : c = b
  · subst h; unfold State.modRing; rw [State.modBench_bench_same]
  · rw [State.modRing_bench_ne _ _ _ h]
@[simp] theorem State.modRing_bench_token (s : State) (b r c : Nat) (f : Ring → Ring) : ((s.modRing b r f).bench c).token = (s.bench c).token := by
  by_cases h : c = b
  · subst h; unfold State.modRing; rw [State.modBench_bench_same]
  · rw [State.modRing_bench_ne _ _ _ h]
@[simp] theorem State.modRing_bench_deadline (s : State) (b r c : Nat) (f : Ring → Ring) : ((s.modRing b r f).bench c).deadline = (s.bench c).deadline := by
  by_cases h : c = b
  · subst h; unfold State.modRing; rw [State.modBench_bench_same]
  · rw [State.modRing_bench_ne _ _ _ h]
@[simp] theorem State.modRing_bench_epoch (s : State) (b r c : Nat) (f : Ring → Ring) : ((s.modRing b r f).bench c).epoch = (s.bench c).epoch := by
  by_cases h : c = b
  · subst h; unfold State.modRing; rw [State.modBench_bench_same]
  · rw [State.modRing_bench_ne _ _ _ h]
@[simp] theorem State.modRing_bench_cutTime (s : State) (b r c : Nat) (f : Ring → Ring) : ((s.modRing b r f).bench c).cutTime = (s.bench c).cutTime := by
  by_cases h : c = b
  · subst h; unfold State.modRing; rw [State.modBench_bench_same]
  · rw [State.modRing_bench_ne _ _ _ h]
@[simp] theorem State.modRing_bench_limits (s : State) (b r c : Nat) (f : Ring → Ring) : ((s.modRing b r f).bench c).limits = (s.bench c).limits := by
  by_cases h : c = b
  · subst h; unfold State.modRing; rw [State.modBench_bench_same]
  · rw [State.modRing_bench_ne _ _ _ h]
@[simp] theorem State.modRing_bench_bar2Base (s : State) (b r c : Nat) (f : Ring → Ring) : ((s.modRing b r f).bench c).bar2Base = (s.bench c).bar2Base := by
  by_cases h : c = b
  · subst h; unfold State.modRing; rw [State.modBench_bench_same]
  · rw [State.modRing_bench_ne _ _ _ h]
@[simp] theorem State.modRing_bench_grants (s : State) (b r c : Nat) (f : Ring → Ring) : ((s.modRing b r f).bench c).grants = (s.bench c).grants := by
  by_cases h : c = b
  · subst h; unfold State.modRing; rw [State.modBench_bench_same]
  · rw [State.modRing_bench_ne _ _ _ h]
@[simp] theorem State.modRing_bench_counters (s : State) (b r c : Nat) (f : Ring → Ring) : ((s.modRing b r f).bench c).counters = (s.bench c).counters := by
  by_cases h : c = b
  · subst h; unfold State.modRing; rw [State.modBench_bench_same]
  · rw [State.modRing_bench_ne _ _ _ h]
@[simp] theorem State.modRing_bench_notices (s : State) (b r c : Nat) (f : Ring → Ring) : ((s.modRing b r f).bench c).notices = (s.bench c).notices := by
  by_cases h : c = b
  · subst h; unfold State.modRing; rw [State.modBench_bench_same]
  · rw [State.modRing_bench_ne _ _ _ h]
@[simp] theorem State.modRing_bench_msix (s : State) (b r c : Nat) (f : Ring → Ring) : ((s.modRing b r f).bench c).msix = (s.bench c).msix := by
  by_cases h : c = b
  · subst h; unfold State.modRing; rw [State.modBench_bench_same]
  · rw [State.modRing_bench_ne _ _ _ h]
@[simp] theorem State.modRing_bench_attach (s : State) (b r c : Nat) (f : Ring → Ring) : ((s.modRing b r f).bench c).attach = (s.bench c).attach := by
  by_cases h : c = b
  · subst h; unfold State.modRing; rw [State.modBench_bench_same]
  · rw [State.modRing_bench_ne _ _ _ h]
@[simp] theorem State.modRing_bench_tokenDone (s : State) (b r c : Nat) (f : Ring → Ring) : ((s.modRing b r f).bench c).tokenDone = (s.bench c).tokenDone := by
  by_cases h : c = b
  · subst h; unfold State.modRing; rw [State.modBench_bench_same]
  · rw [State.modRing_bench_ne _ _ _ h]
@[simp] theorem State.modRing_bench_lastToken (s : State) (b r c : Nat) (f : Ring → Ring) : ((s.modRing b r f).bench c).lastToken = (s.bench c).lastToken := by
  by_cases h : c = b
  · subst h; unfold State.modRing; rw [State.modBench_bench_same]
  · rw [State.modRing_bench_ne _ _ _ h]
@[simp] theorem State.modRing_bench_paceSlots (s : State) (b r c : Nat) (f : Ring → Ring) : ((s.modRing b r f).bench c).paceSlots = (s.bench c).paceSlots := by
  by_cases h : c = b
  · subst h; unfold State.modRing; rw [State.modBench_bench_same]
  · rw [State.modRing_bench_ne _ _ _ h]
@[simp] theorem State.modRing_bench_placeSelect (s : State) (b r c : Nat) (f : Ring → Ring) : ((s.modRing b r f).bench c).placeSelect = (s.bench c).placeSelect := by
  by_cases h : c = b
  · subst h; unfold State.modRing; rw [State.modBench_bench_same]
  · rw [State.modRing_bench_ne _ _ _ h]
@[simp] theorem State.modRing_bench_sealSelect (s : State) (b r c : Nat) (f : Ring → Ring) : ((s.modRing b r f).bench c).sealSelect = (s.bench c).sealSelect := by
  by_cases h : c = b
  · subst h; unfold State.modRing; rw [State.modBench_bench_same]
  · rw [State.modRing_bench_ne _ _ _ h]
@[simp] theorem State.modRing_bench_trace (s : State) (b r c : Nat) (f : Ring → Ring) : ((s.modRing b r f).bench c).trace = (s.bench c).trace := by
  by_cases h : c = b
  · subst h; unfold State.modRing; rw [State.modBench_bench_same]
  · rw [State.modRing_bench_ne _ _ _ h]
@[simp] theorem State.modRing_bench_stalls (s : State) (b r c : Nat) (f : Ring → Ring) : ((s.modRing b r f).bench c).stalls = (s.bench c).stalls := by
  by_cases h : c = b
  · subst h; unfold State.modRing; rw [State.modBench_bench_same]
  · rw [State.modRing_bench_ne _ _ _ h]
@[simp] theorem State.modRing_bench_invRing (s : State) (b r c : Nat) (f : Ring → Ring) : ((s.modRing b r f).bench c).invRing = (s.bench c).invRing := by
  by_cases h : c = b
  · subst h; unfold State.modRing; rw [State.modBench_bench_same]
  · rw [State.modRing_bench_ne _ _ _ h]
@[simp] theorem State.modRing_bench_peer (s : State) (b r c : Nat) (f : Ring → Ring) : ((s.modRing b r f).bench c).peer = (s.bench c).peer := by
  by_cases h : c = b
  · subst h; unfold State.modRing; rw [State.modBench_bench_same]
  · rw [State.modRing_bench_ne _ _ _ h]
@[simp] theorem State.modRing_bench_modeD (s : State) (b r c : Nat) (f : Ring → Ring) : ((s.modRing b r f).bench c).modeD = (s.bench c).modeD := by
  by_cases h : c = b
  · subst h; unfold State.modRing; rw [State.modBench_bench_same]
  · rw [State.modRing_bench_ne _ _ _ h]
@[simp] theorem State.modRing_bench_regions (s : State) (b r c : Nat) (f : Ring → Ring) : ((s.modRing b r f).bench c).regions = (s.bench c).regions := by
  by_cases h : c = b
  · subst h; unfold State.modRing; rw [State.modBench_bench_same]
  · rw [State.modRing_bench_ne _ _ _ h]
@[simp] theorem State.modRing_bench_regionEvict (s : State) (b r c : Nat) (f : Ring → Ring) : ((s.modRing b r f).bench c).regionEvict = (s.bench c).regionEvict := by
  by_cases h : c = b
  · subst h; unfold State.modRing; rw [State.modBench_bench_same]
  · rw [State.modRing_bench_ne _ _ _ h]
@[simp] theorem State.modRing_bench_countDropped (s : State) (b r c : Nat) (f : Ring → Ring) : ((s.modRing b r f).bench c).countDropped = (s.bench c).countDropped := by
  by_cases h : c = b
  · subst h; unfold State.modRing; rw [State.modBench_bench_same]
  · rw [State.modRing_bench_ne _ _ _ h]
@[simp] theorem State.modRing_bench_adviseDropped (s : State) (b r c : Nat) (f : Ring → Ring) : ((s.modRing b r f).bench c).adviseDropped = (s.bench c).adviseDropped := by
  by_cases h : c = b
  · subst h; unfold State.modRing; rw [State.modBench_bench_same]
  · rw [State.modRing_bench_ne _ _ _ h]
@[simp] theorem State.modRing_bench_takenRing (s : State) (b r c : Nat) (f : Ring → Ring) : ((s.modRing b r f).bench c).takenRing = (s.bench c).takenRing := by
  by_cases h : c = b
  · subst h; unfold State.modRing; rw [State.modBench_bench_same]
  · rw [State.modRing_bench_ne _ _ _ h]
@[simp] theorem State.modRing_bench_nextOrder (s : State) (b r c : Nat) (f : Ring → Ring) : ((s.modRing b r f).bench c).nextOrder = (s.bench c).nextOrder := by
  by_cases h : c = b
  · subst h; unfold State.modRing; rw [State.modBench_bench_same]
  · rw [State.modRing_bench_ne _ _ _ h]
@[simp] theorem State.modRing_bench_bucket (s : State) (b r c : Nat) (f : Ring → Ring) : ((s.modRing b r f).bench c).bucket = (s.bench c).bucket := by
  by_cases h : c = b
  · subst h; unfold State.modRing; rw [State.modBench_bench_same]
  · rw [State.modRing_bench_ne _ _ _ h]
@[simp] theorem State.modRing_bench_staged (s : State) (b r c : Nat) (f : Ring → Ring) : ((s.modRing b r f).bench c).staged = (s.bench c).staged := by
  by_cases h : c = b
  · subst h; unfold State.modRing; rw [State.modBench_bench_same]
  · rw [State.modRing_bench_ne _ _ _ h]
@[simp] theorem State.modRing_bench_sweep (s : State) (b r c : Nat) (f : Ring → Ring) : ((s.modRing b r f).bench c).sweep = (s.bench c).sweep := by
  by_cases h : c = b
  · subst h; unfold State.modRing; rw [State.modBench_bench_same]
  · rw [State.modRing_bench_ne _ _ _ h]

@[simp] theorem State.modRing_bench_posted (s : State) (b r c : Nat) (f : Ring → Ring) : ((s.modRing b r f).bench c).posted = (s.bench c).posted := by
  by_cases h : c = b
  · subst h; unfold State.modRing; rw [State.modBench_bench_same]
  · rw [State.modRing_bench_ne _ _ _ h]

end Sys2Proof.Machine
end

