-- ==== Sys2Proof/Tests/Slice0.lean ====
section
/-!
SUPPORT. The author's own tests: small states, the ill-formed terms that well-formedness refuses, a few values worked out by hand from the spec, and for each statement a state and operands that meet its hypotheses.
-/

namespace Sys2Proof.Machine

-- One proof after another: each waits for the kernel, and proofs side by side only hold memory.
set_option Elab.async false

/-! ### Small states -/

/-- A class with every permission. -/
def smallClass (id : Nat) (mgmt : Bool) : BenchClass :=
  { classId := id, qosClass := 0, maxRings := 4, modeS := true, modeD := true, channelQuota := 8, faultShare := 16,
    dieMemQuota := 2 ^ 30, coreLimit := 16, burlDense := true, burlLattice := true, keepAllowed := true, peerAllowed := true,
    sealAllowed := true, mgmt := mgmt, billetQuota := 4, rateCap := 0, hotThreshold := 4 }

/-- A running AX5216 with every domain ON: bench 0 is the management bench on function 0 of port 0, bench 1 stands on its function 1. -/
def small : State :=
  { State.reset with
    chip := { Chip.reset with
      powered := true, phase := .running, ledgerReady := true
      cfg := some { factoryDefaults true with
        classes := [smallClass 0 true, smallClass 1 false], vfCount := [4, 0, 0, 0], maxBenches := 4, defaults := false } }
    hearth := { Hearth.reset with counting := true, time := 5000000, domains := (List.range 12).map fun i => (i + 1, ⟨.on, 0, 0, 0⟩) }
    ports := [(0, { Port.reset with link := .l0, perst := false, cxl := true, vfEnable := true, numVfs := 2 })]
    fns := [(0, { Fn.reset with memSpace := true, busMaster := true }), (1, { Fn.reset with memSpace := true, busMaster := true })]
    benches := [(0, { Bench.reset with state := .active, ringCount := 2 }),
      (1, { Bench.reset with state := .active, fn := 1, classId := 1, ringCount := 2 })] }

/-- `small` on factory defaults, whose host port 0 is enabled without a LINKS section. -/
def smallRom : State := { small with chip := { small.chip with cfg := small.chip.cfg.map fun c => { c with defaults := true } } }

/-- `small` with domain n in a state. -/
def smallPd (n : Nat) (x : PdState) : State := small.modDomain n fun d => { d with state := x }

/-- A pinned leaf of bench 1 in the cache: the 4 KiB page at DVA 0 on die 0. -/
def smallLeaf : CacheEntry := ⟨0, 1, true, 0, 12, 0, 0, 0, true, true, false, true⟩
/-- `small` with that leaf, and bench 1's peer window enabled. -/
def smallMem : State :=
  { small.modBench 1 (fun x => { x with peer := { x.peer with enable := true } }) with headstock := { small.headstock with cache := [smallLeaf] } }
/-- `small` with these misses. -/
def smallMiss (l : List Miss) : State := { small with headstock := { small.headstock with misses := l } }
/-- A miss of bench 1 on page 3 in this stage. -/
def missAt (st : MissStage) : Miss := ⟨0, 1, true, none, 3, false, st, false, []⟩
/-- `small` with bench 1's invalidation ring enabled, one entry published. -/
def smallInv : State :=
  small.modBench 1 fun x => { x with invRing := { x.invRing with enable := true, log2 := 4, tail := 1 }, modeD := .fresh true }
/-- An entry of the invalidation ring. -/
def invEntry (op level hub : Byte) (a b : Nat) : List Byte := [op, level, hub] ++ List.replicate 5 0 ++ leBytes 8 a ++ leBytes 8 b ++ List.replicate 8 0
/-- A fault of bench 1 in this state. -/
def faultIn (st : FaultState) (modeD : Bool) : FaultRec := ⟨0x3000, 0, 1, 0, 0, false, modeD, 0, 1, st, 0, 0, 0, 0x3000⟩
/-- `small` with a debugger attached, full level, every grant. -/
def smallDap : State := { small with dbg := { small.dbg with level := 0, attached := true, dapWrite := true, haltAllow := true, honourAllow := true, data := List.replicate 64 0 } }
/-- A full-width 32-bit access of the management function of `small`. -/
def mgmtAccess (o : Nat) (d : List Byte) : RegAccess := ⟨0, 0, o, 4, [true, true, true, true], d, false⟩
/-- `small` with bench 1 in a step of its sweep. -/
def smallSweep (st : SweepStep) (release : Bool) : State :=
  small.modBench 1 fun x => { x with state := .sweeping, sweepCause := 4, sweep := some ⟨st, release, false, 0, [], false, 0⟩ }
/-- `small` with these locks. -/
def smallLocks (l : List Lock) : State := { small with recovery := { small.recovery with locks := l } }
/-- `small` with this ring as ring 0 of bench 1. -/
def smallRing (x : Ring) : State := small.modBench 1 fun b => { b with rings := [(0, x)] }
/-- A ring of 16 entries in this state. -/
def ringIn (st : RingState) : Ring := { Ring.reset with state := st, log2 := 4 }
/-- A descriptor's 64 bytes with these bytes set. -/
def descBytes (op : Byte) (l : List (Nat × Byte)) : List Byte :=
  l.foldl (fun d e => d.set e.1 e.2) (([op] ++ List.replicate 62 0) ++ [0x80])
/-- A descriptor of these bytes, ready to start. -/
def readyDesc (y : List Byte) : Desc := Desc.fetched 0 y
/-- `small` with this descriptor the only one of a running ring 0 of bench 1. -/
def smallDesc (d : Desc) : State := smallRing { ringIn .running with descs := [d], tail := 1, fetchNext := 1 }
/-- A FILL of 64 bytes at DVA 0 in execution on channel 0 of lathe 0, its leaf cached. -/
def fillDesc : Desc := { readyDesc (descBytes 0x04 [(6, 0x20), (0x20, 64)]) with phase := .started, total := 64 }
/-- `small` with that descriptor. -/
def smallFill : State :=
  { smallDesc fillDesc with
    headstock := { small.headstock with cache := [smallLeaf] }
    lathes := [(0, { Lathe.reset with channels := [(0, some (1, 0))] })]
    benches := (smallRing { ringIn .running with descs := [fillDesc], tail := 1, fetchNext := 1, channel := some (0, 0) }).benches }
/-- The same FILL, whose burst only the lathe's room has kept back since hearth time 0. -/
def keptDesc : Desc := { fillDesc with roomWait := some ⟨0, false, false, true, 0⟩ }
/-- `small` with that descriptor on a lathe whose reorder space is in use. -/
def smallKept : State :=
  { smallFill with
    lathes := [(0, { Lathe.reset with channels := [(0, some (1, 0))], reorder := 131073 })]
    benches := (smallRing { ringIn .running with descs := [keptDesc], tail := 1, fetchNext := 1, channel := some (0, 0) }).benches }
/-- `small` with this lathe 0. -/
def smallLathe (x : Lathe) : State := { small with lathes := [(0, x)] }
/-- A blank of one core: a resource declaration, one section of 8 bytes. -/
def smallBlank : List Byte :=
  [(0, leBytes 4 0x4B4E4C42), (4, [1]), (8, [160]), (0x10, [0x40]), (0x14, [0x80]), (0x18, [1]), (0x40, [1, 0, 1, 0, 0, 0, 0, 0, 0, 1]),
   (0x80, [1, 0]), (0x88, [0x98]), (0x8C, [8])].foldl (fun y e => splice y e.1 e.2) (List.replicate 160 0)
/-- The same with its checksum. -/
def smallBlankCrc : List Byte := splice smallBlank 0x0C (leBytes 4 (crc32c smallBlank))
/-- A LAUNCH of that blank in execution on ring 0 of bench 1, its page cached. -/
def launchDesc : Desc := { readyDesc (descBytes 0x20 [(6, 2), (0x20, 160)]) with phase := .started }
/-- That LAUNCH in this stage. -/
def launchIn (st : LaunchStage) : Launch := ⟨1, 0, 0, st, smallBlankCrc, [], 1, 1500, 0, 0, [(0, 0, 1)], [5], []⟩
/-- A placement of bench 1 on core 5 of die 0, in this state. -/
def smallPlace (st : PlaceState) : Placement := ⟨0, 1, 1, st, 1, 1, [⟨0, 0, 5, 0, 0⟩], 0, [], false, none, false, none, st != .loading⟩
/-- `small` with die 0 UP, that descriptor, launch and placement. -/
def smallLaunch (l : List Launch) (p : List Placement) : State :=
  { (smallDesc launchDesc).modBench 1 (fun x => { x with limits := { x.limits with cores := 4 } }) with
    headstock := { small.headstock with cache := [smallLeaf] }, spindles := [(0, { Spindle.reset with state := .up })]
    launches := l, placements := p }
/-- `small` with a 2 MiB leaf of bench 1 at DVA 0 with this entry, die 0 UP, and 16 MiB of it granted. -/
def smallTable (e : BitVec 64) : State :=
  { small.modBench 1 (fun x => { x with
      modeD := ⟨some 0, [⟨0, 4, [(0, 0x1001)]⟩, ⟨1, 3, [(0, 0x2001)]⟩, ⟨2, 2, [(0, e)]⟩], []⟩, peer := { x.peer with enable := true }
      grants := [⟨255, 0, 0, 2 ^ 24⟩], limits := { x.limits with billet := 64 } }) with
    spindles := [(0, { Spindle.reset with state := .up })] }
/-- `small` with a 2 MiB leaf of bench 1 in host memory, to be migrated to die 0. -/
def smallMig (m : Mig) : State :=
  { smallTable 0x001000000000000B with mig := { m with arg := [1, 1] ++ List.replicate 14 0 ++ leBytes 8 (2 ^ 21) ++ List.replicate 40 0, leafSize := 21 } }
/-- A job block: two dense spins with random initial state, one segment, one result billet. -/
def smallJobBlock : List Byte :=
  [(0, leBytes 4 0x4A525542), (4, [1, 16, 1, 1, 2]), (0x0D, [1, 2]), (0x60, [1]), (0x72, [0x30]), (0x75, [1])].foldl
    (fun y e => splice y e.1 e.2) (List.replicate 0x78 0)
/-- The ANNEAL of that block in execution on ring 0 of bench 1, its page cached, the billet held. -/
def annealDesc : Desc := { readyDesc (descBytes 0x21 [(6, 2), (0x20, 0x78)]) with phase := .started }
/-- A job of bench 1 in this phase: two dense spins. -/
def smallJob (p : JobPhase) : Job :=
  { home := 0, bench := 1, ring := 0, desc := 0, strip := none, spec := jobSpec smallJobBlock, phase := p, store := 12, coef := [1, 2, 3]
    spins := [true, false], best := [true, false], bestEnergy := 0, bestMove := 0, move := 0, sweeps := 0, written := 0, engineTime := 0, above := []
    below := [], haloAbove := 0, haloBelow := 0, snaps := [], reports := [], returned := [], lost := [], stop := none, nextAbove := [], nextBelow := [] }
/-- `small` with that descriptor and these jobs. -/
def smallAnneal (l : List Job) : State :=
  { (smallDesc annealDesc) with
    headstock := { small.headstock with cache := [smallLeaf] }, jobs := l
    chip := { small.chip with cfg := small.chip.cfg.map fun c => { c with burl := some ⟨true, 1500, []⟩ } }
    recovery := { small.recovery with billets := [(3, ⟨1, true, 1, 4, none⟩)] } }
/-- Two lattice strips of one row and two columns, on this hub and hub 3. -/
def stripSpec : JobSpec :=
  { jobSpec smallJobBlock with lattice := true, spins := 4, rows := 2, cols := 2, parts := [(0, 1), (3, 1)] }
/-- Strip 0 of that job, from hub 3. -/
def smallStrip (p : JobPhase) : Job := { smallJob p with home := 3, strip := some 0, spec := stripSpec, store := 0, coef := List.replicate 20 1 }
/-- `small` with a charter that has bench 1 of hub 3 as a guest in slot 0. -/
def smallGuest (l : List Job) : State :=
  { small with jobs := l, cascade := { small.cascade with state := .chartered, guests := [(0, some ⟨3, 1, 9, 1, 0, [], ModeD.reset, []⟩)] } }
/-- `s` with hub 3 one hop away over link 0, by the charter of hub 3. -/
def routed3 (s : State) : State :=
  { s with
    envans := [(0, { Envan.reset with state := .up, partner := 3 })]
    cascade := { s.cascade with charter := some {
      epoch := 2, master := 3, family := 0, version := 0, digest := [], members := 9, lost := 0, refused := 0, routes := [⟨0, 3, 0, 1, 15, 0⟩]
      timeBase := 1, step := 0, rosterSeq := 0, roster := [] } } }
/-- A guest of bench 1 of hub 3 with these grants. -/
def guestOf (l : List Grant) : Guest := ⟨3, 1, 9, 1, 0, l, .reset, []⟩
/-- `smallTable 0` under that charter, the bench of hub 3 a guest with these grants. -/
def smallRemote (l : List Grant) : State :=
  routed3 { smallTable 0 with cascade := { small.cascade with state := .chartered, guests := [(0, some (guestOf l))] } }
/-- BENCH_CMD_ARG with these bytes. -/
def argBytes (l : List (Nat × List Byte)) : List Byte := l.foldl (fun y e => splice y e.1 e.2) (List.replicate 64 0)
/-- `s` with this BENCH_CMD_ARG. -/
def argIn (s : State) (l : List (Nat × List Byte)) : State := { s with mailbox := { s.mailbox with arg := argBytes l } }
/-- `s` as a command with this code has been accepted. -/
def acceptedIn (s : State) (code : Nat) : State :=
  State.stir { s.unstageHub with mailbox := { s.mailbox with busy := true, code := BitVec.ofNat 8 code, token := 0, bench := (benchArg s.mailbox.arg).bench } } 8
/-- The header of a slot for the AX5216 with four sections, without its checksum. -/
def smallHeader0 : List Byte :=
  [(0, leBytes 4 0x48535251), (4, [3, 0, 4, 0, 1]), (0x0C, leBytes 4 0x200), (0x10, [1, 0xB0, 1, 100]),
   (0x40, [1, 0, 2, 0] ++ leBytes 4 0x80 ++ leBytes 4 64), (0x50, [2, 0, 1, 0] ++ leBytes 4 0xC0 ++ leBytes 4 64),
   (0x60, [3, 0, 1, 0] ++ leBytes 4 0x100 ++ leBytes 4 128), (0x70, [6, 0, 1, 0] ++ leBytes 4 0x180 ++ leBytes 4 64)].foldl
    (fun y e => splice y e.1 e.2) (List.replicate 0x200 0)
/-- The same with its checksum, which covers the section checks, all 0. -/
def smallHeader : List Byte := splice smallHeader0 0x3C (leBytes 4 (crc32c (slice smallHeader0 0 0x3C ++ List.replicate 16 0)))

/-! ### Well-formedness -/

theorem test_wf_refuses_bench : Instr.wf (.copy 256 0) = false := by decide
theorem test_wf_refuses_ring : Instr.wf (.copy 0 16) = false := by decide
theorem test_wf_refuses_port : Instr.wf (.linkDown 4 none) = false := by decide
theorem test_wf_refuses_fn : Instr.wf (.flr 0 64) = false := by decide
theorem test_wf_refuses_die : Instr.wf (.dieFatal 8) = false := by decide
theorem test_wf_refuses_lathe : Instr.wf (.burstGrant 16) = false := by decide
theorem test_wf_refuses_vector : Instr.wf (.msixModerationExpiry 0 32) = false := by decide
theorem test_wf_refuses_domain : Instr.wf (.gateDrainDone 0) = false := by decide
theorem test_wf_refuses_pin_failure : Instr.wf (.placementDone 0 0 [] (some (0x30, 0, 0))) = false := by decide
theorem test_wf_refuses_domain_high : Instr.wf (.gateDrainDone 13) = false := by decide
theorem test_wf_refuses_core : Instr.wf (.lateSet 0 256) = false := by decide
theorem test_wf_refuses_line : Instr.wf (.eventClaim 0 256) = false := by decide
theorem test_wf_refuses_timer : Instr.wf (.paceTimerExpiry false 64) = false := by decide
theorem test_wf_refuses_hub : Instr.wf (.hubSilent 32) = false := by decide
theorem test_wf_refuses_whittler : Instr.wf (.whittlerStep 128) = false := by decide
theorem test_wf_refuses_itag : Instr.wf (.invalidateCompletion 0 0 32) = false := by decide
theorem test_wf_refuses_tag : Instr.wf (.completionTimeout 0 2048) = false := by decide
theorem test_wf_refuses_number : Instr.wf (.placeRelease 0 256) = false := by decide
theorem test_wf_refuses_entry : Instr.wf (.setEntry 0 [1, 2, 3]) = false := by decide
theorem test_wf_refuses_seal_block : Instr.wf (.sealOpen 0 0 (.ok [] [])) = false := by decide
theorem test_wf_refuses_class : Instr.wf (.benchRegistration 0 0 0 32 0) = false := by decide
theorem test_wf_refuses_link : Instr.wf (.elFlitSilence 6) = false := by decide
theorem test_wf_refuses_link_name : Instr.wf (.laneRecal (.envan 6) 0 true) = false := by decide
theorem test_wf_refuses_part : Instr.wf (.selftestStart (.hsWay 16)) = false := by decide
theorem test_wf_refuses_owner : Instr.wf (.xltRequest 0 0 0 512 (.dva 0) false 4 []) = false := by decide
theorem test_wf_refuses_access_len : Instr.wf (.registerWrite ⟨0, 0, 0, 0, [], [], false⟩) = false := by decide
theorem test_wf_refuses_access_enables : Instr.wf (.registerRead ⟨0, 0, 0, 4, [true, true, true, false], [], false⟩ 0) = false := by decide
theorem test_wf_refuses_access_bytes : Instr.wf (.registerWrite ⟨0, 0, 0, 4, [true, true, true, true], [1], false⟩) = false := by decide
theorem test_wf_refuses_source : Instr.wf (.porchEnqueue (.host 4) 1 1 .internal) = false := by decide
theorem test_wf_refuses_request : Instr.wf (.porchEnqueue .internal 1 1 (.snpinv 0 16)) = false := by decide
theorem test_wf_refuses_fault : Instr.wf (.faultCmdRetry 4096) = false := by decide
theorem test_wf_refuses_pace_slot : Instr.wf (.paceArm 0 8) = false := by decide
theorem test_wf_refuses_slot : Instr.wf (.writeAck 0 256 .ok) = false := by decide
theorem test_wf_refuses_stream : Instr.wf (.frameEvent 64) = false := by decide
theorem test_wf_refuses_sensors : Instr.wf (.thermalSample []) = false := by decide
/-- The largest numbers that the spec allows are well formed. -/
theorem test_wf_accepts : Instr.wf (.copy 255 15) = true ∧ Instr.wf (.gateDrainDone 12) = true ∧ Instr.wf (.registerRead ⟨3, 63, 0x10000, 4, [true, true, true, true], [], false⟩ 0) = true ∧ Instr.wf (.selftestStart (.lathe 15)) = true := by decide

/-! ### Values worked out from the spec -/

/-- No row of the table has bits: no word spells a command, and a word placed at the front changes nothing. -/
theorem test_no_word_spells_a_command : decodeTableWord 32 0 = none ∧ State.withFetchWord small 32 0xFFFFFFFF = small := ⟨rfl, rfl⟩
/-- 00 R2: bytes 0 and 1 of HUB_IDENT on an AX5216. -/
theorem test_hub_ident : bits small.hubIdent.toNat 0 8 = 1 ∧ bits small.hubIdent.toNat 8 8 = 0xB0 := by decide +kernel
/-- 15 R433, by hand: e^(−1) is 0.36787944117…, times 2^24 is 6171992.8…, which rounds to 6171993; e^(−16 + 1/256) × 2^24 is 1.89…, which rounds to 2. -/
theorem test_weight : weight 256 = 6171993 ∧ weight 4095 = 2 := by decide +kernel
/-- 07 R193: index 3 in [39:20], generation 2 in [59:40]. -/
theorem test_handle : handleOf 3 2 = 0x0000020000300000 := by decide
/-- 15 R424: spin 9 is bit 1 of byte 1. -/
theorem test_spin_9 : unpackSpins 10 [0, 2] = [false, false, false, false, false, false, false, false, false, true] := by decide
/-- 06 R161: a tail behind the one held is stale, one more than the ring's entries ahead of the head is bad. -/
theorem test_tail : ((ringIn .idle).offer 0xFFFFFFFF).2 = ringIn .idle ∧ ((ringIn .idle).offer 0x10000).2.badTail = 1 := by decide +kernel
/-- A step takes the front command off the queue. -/
theorem test_step_front : step (small.withPending [.jtagBypass, .jtagIdcode]) = .next (small.withPending [.jtagIdcode]) := rfl
/-- 03 R62: hearth time counts one each microsecond once straps are latched. -/
theorem test_tick_counts : (match step small with | .next t => t.hearth.time | _ => 0) = small.hearth.time + 1 := by decide +kernel

/-! ### What each statement asks of the state and the operands is met somewhere -/

theorem test_witness_StepRunsTheFrontCommand :
    (let s : State := small.withPending [.jtagBypass]
     let c : Instr := .jtagBypass
     let r : List Instr := []
     s.pending = c :: r) ∧
    (let s : State := small
     s.pending = []) := by
  refine ⟨?_, ?_⟩ <;> decide +kernel

theorem test_witness_InvariantKeptByEveryStep :
    (let s : State := small
     let t : State := small.tick
     s.Inv ∧ step s = .next t) := ⟨rfl, rfl⟩

theorem test_witness_StrapsChangeOnlyAtTheirLatch :
    (let s : State := small
     let t : State := small
     let c : Instr := .jtagBypass
     (∀ h m f x r, c ≠ .strapLatch h m f x r) ∧ c ≠ .hearthPowerLoss ∧ (exec c s = .next t)) := ⟨fun _ _ _ _ _ h => (by decide : ¬ (Instr.ctorIdx .jtagBypass = 2)) (congrArg Instr.ctorIdx h), fun h => absurd (congrArg Instr.ctorIdx h) (by decide), rfl⟩

theorem test_witness_BilletMemory :
    (let m : Memory := []
     let a : Nat := 3
     let i : Nat := 1
     let l : List Byte := [7, 8]
     i < l.length) ∧
    (let m : Memory := []
     let a : Nat := 3
     let c : Nat := 5
     let l : List Byte := [7, 8]
     (c < a ∨ a + l.length ≤ c)) ∧
    (let m : Memory := [(4, 9)]
     let a : Nat := 3
     let l : List Byte := [7, 0]
     m.wf = true) ∧
    (let m : Memory := [(4, 9)]
     let a : Nat := 3
     let n : Nat := 2
     let c : Nat := 4
     m.wf = true) ∧
    (let m : Memory := [(4, 9)]
     let a : Nat := 3
     let n : Nat := 2
     let i : Nat := 1
     i < n) ∧
    (let m : Memory := [(4, 9)]
     let n : Memory := [(4, 9)]
     m.wf = true ∧ n.wf = true ∧ (∀ a, memRead m a = memRead n a)) := by
  refine ⟨?_, ?_, ?_, ?_, ?_, ⟨?_, ?_, fun _ => rfl⟩⟩ <;> decide +kernel

theorem test_witness_BitsAndBytesOfStructures :
    (let v : Nat := 0xF0
     let h : Nat := 7
     let l : Nat := 4
     let i : Nat := 3
     l ≤ h) ∧
    (let b : List Byte := [1, 2, 3]
     let o : Nat := 1
     let n : Nat := 2
     let k : Nat := 1
     let i : Nat := 0
     k < n ∧ i < 8) ∧
    (let v : Nat := 0x1234
     let n : Nat := 2
     let k : Nat := 1
     k < n) := by
  refine ⟨?_, ?_, ?_⟩ <;> decide +kernel

theorem test_witness_SpinsOfAState :
    (let n : Nat := 10
     let i : Nat := 9
     let y : List Byte := [0, 2]
     i < n) ∧
    (let cols : Nat := 2
     let row : Nat := 1
     let col : Nat := 1
     let l : List Bool := [true, false, true, true]
     col < cols) := by
  refine ⟨?_, ?_⟩ <;> decide +kernel

theorem test_witness_WeightsOfTheBurl :
    (let q : Int := 0
     q ≤ 0) ∧
    (let q : Int := 4095
     0 < q ∧ q < 4096) ∧
    (let q : Int := 4096
     4096 ≤ q) := by
  refine ⟨?_, ?_, ?_⟩ <;> decide +kernel

theorem test_witness_IdentityOfTheHub :
    (let s : State := small
     let p : Nat := 0
     let f : Nat := 0
     let hid : Nat := 7
     s.decodes p f = true ∧ s.mgmtFn = (p, f)) := by decide +kernel

theorem test_witness_RestartCutsEverything :
    (let s : State := small
     let c : Instr := .smbusRestart 0xA5C3 true
     s.running = true ∧ s.hearth.counting = true ∧ s.decodes s.mgmtFn.1 s.mgmtFn.2 = true ∧ (s.bench 0).detached = false ∧ (c = .managementRestart 0xA5C30001 ∨ c = .smbusRestart 0xA5C3 true ∨ c = .jtagExtest ∨ c = .jtagClamp ∨ c = .jtagHighz)) ∧
    (let s : State := small
     s.chip.powered = true ∧ s.hearth.counting = true ∧ s.hearth.refLost = false ∧ s.chip.wait = .none) := by
  refine ⟨?_, ?_⟩ <;> decide +kernel

theorem test_witness_PowerAndStraps :
    (let s : State := State.reset
     s.chip.powered = false) ∧
    (let s : State := small
     s.chip.powered = true) ∧
    (let s : State := { State.reset with chip := { Chip.reset with powered := true } }
     let hub : BitVec 5 := 3
     let e : Bool := true
     let x : Bool := false
     let f : BitVec 2 := 0
     s.chip.powered = true ∧ s.chip.phase = .straps ∧ s.chip.search.bound = none ∧ s.dbg.pinDriving = false) ∧
    (let s : State := { State.reset with chip := { Chip.reset with powered := true } }
     let hub : BitVec 5 := 3
     let e : Bool := true
     let x : Bool := false
     let f : BitVec 2 := 0
     s.chip.powered = true ∧ s.chip.phase = .straps ∧ s.chip.search.bound = none ∧ s.dbg.pinDriving = false) ∧
    (let s : State := small
     let hub : BitVec 5 := 3
     let e : Bool := true
     let x : Bool := false
     let r : Bool := true
     let f : BitVec 2 := 0
     s.chip.phase ≠ .straps) ∧
    (let s : State := small
     let v : Int := 12
     s.chip.powered = true ∧ s.hearth.refLost = false ∧ -50 ≤ v ∧ v ≤ 50) ∧
    (let s : State := small
     let v : Int := 51
     s.chip.powered = true ∧ s.hearth.refLost = false ∧ (v < -50 ∨ 50 < v)) ∧
    (let s : State := { small with hearth := { small.hearth with refLost := true } }
     let v : Int := 0
     s.hearth.refLost = true) := by
  refine ⟨?_, ?_, ?_, ?_, ?_, ?_, ?_, ?_⟩ <;> decide +kernel

theorem test_witness_ImageSearch :
    (let s : State := { State.reset with chip := { Chip.reset with powered := true, phase := .flash, search := { SlotSearch.reset with bound := some 60000000 } } }
     let d : Nat := 4
     let n : Nat := 50
     let x : Bool := true
     s.searching = true ∧ d ≠ 0 ∧ s.chip.straps.slotForce ≠ 3#2) ∧
    (let s : State := { State.reset with chip := { Chip.reset with powered := true, phase := .flash, search := { SlotSearch.reset with bound := some 60000000 } } }
     let d : Nat := 0
     let n : Nat := 50
     let x : Bool := true
     s.searching = true ∧ (d = 0 ∨ s.chip.straps.slotForce = 3#2)) ∧
    (let s : State := { State.reset with chip := { Chip.reset with powered := true, phase := .flash, search := { SlotSearch.reset with bound := some 60000000, density := 8 } } }
     let a : List Byte := smallHeader
     let b : List Byte := []
     let x : Option SlotHeader := (checkHeader true (2 ^ 27) smallHeader).2
     let y : Option SlotHeader := none
     s.searching = true ∧ s.chip.search.density ≠ 0 ∧ s.chip.search.reading = none ∧ x = (if s.chip.straps.slotForce = 2#2 ∨ (checkHeader s.big s.slotSize a).1 ≠ .ok then none else (checkHeader s.big s.slotSize a).2) ∧ y = (if s.chip.straps.slotForce = 1#2 ∨ (checkHeader s.big s.slotSize b).1 ≠ .ok then none else (checkHeader s.big s.slotSize b).2)) ∧
    (let s : State := { State.reset with chip := { Chip.reset with powered := true, phase := .flash, search := { SlotSearch.reset with bound := some 60000000, density := 8, reading := some false, headerA := some ⟨1, 64, false, 20, 0, 0, []⟩ } } }
     let x : Bool := false
     let h : SlotHeader := ⟨1, 64, false, 20, 0, 0, []⟩
     let y : List Byte := []
     s.searching = true ∧ s.chip.search.reading = some x ∧ (if x then s.chip.search.headerB else s.chip.search.headerA) = some h ∧ checkBody s.big s.chip.keyDigest h y = .ok) ∧
    (let s : State := { { State.reset with chip := { Chip.reset with powered := true, phase := .flash, search := { SlotSearch.reset with bound := some 60000000 } } } with hearth := { Hearth.reset with time := 60000000 } }
     let v : BitVec 64 := 60000000
     s.undecided = true ∧ s.chip.search.bound = some v ∧ v.toNat ≤ s.now.toNat) ∧
    (let s : State := { { State.reset with chip := { Chip.reset with powered := true, phase := .flash, search := { SlotSearch.reset with bound := some 60000000 } } } with hearth := { Hearth.reset with time := 60000000 } }
     let d : Nat := 4
     let n : Nat := 50
     let x : Bool := true
     let v : BitVec 64 := 60000000
     s.chip.search.bound = some v ∧ v.toNat ≤ s.now.toNat) ∧
    (let s : State := { State.reset with chip := { Chip.reset with powered := true, phase := .flash, search := { SlotSearch.reset with bound := some 60000000 } } }
     let v : BitVec 64 := 60000000
     s.chip.search.bound = some v ∧ s.now.toNat < v.toNat) := by
  refine ⟨?_, ?_, ?_, ?_, ?_, ?_, ?_⟩ <;> decide +kernel

theorem test_witness_BistAndLinks :
    (let s : State := { State.reset with chip := { Chip.reset with powered := true, phase := .flash } }
     s.chip.phase = .flash ∧ s.chip.ledgerReady = false ∧ s.chip.ledgerFail = false) ∧
    (let s : State := { State.reset with chip := { Chip.reset with powered := true, phase := .flash } }
     let m : BitVec 4 := 2
     m ≠ 0#4 ∧ s.chip.phase = .flash ∧ s.chip.ledgerReady = false ∧ s.chip.ledgerFail = false) ∧
    (let s : State := { small with chip := { small.chip with phase := .bist } }
     let r : BistResult := { whittlers := [], lathes := [], spindles := [], envans := [], ports := [], ways := [], fabric := true, walker := false, dense := false, lattice := true }
     s.chip.phase = .bist ∧ s.chip.bistFail = false ∧ r.fabric = true) ∧
    (let s : State := { small with chip := { small.chip with phase := .bist } }
     let r : BistResult := { whittlers := [], lathes := List.range 8, spindles := [], envans := [], ports := [], ways := [], fabric := false, walker := false, dense := false, lattice := true }
     s.chip.phase = .bist ∧ s.chip.bistFail = false ∧ r.fabric = false ∧ (s.bistApply r).clusterAFenced = true) ∧
    (let s : State := { small with chip := { small.chip with phase := .bist } }
     let r : BistResult := { whittlers := [], lathes := [], spindles := [], envans := [], ports := [], ways := [], fabric := false, walker := true, dense := false, lattice := true }
     s.chip.phase = .bist ∧ s.chip.bistFail = false ∧ r.fabric = false ∧ (s.bistApply r).clusterAFenced = false ∧ (r.walker = true ∨ 4 < r.ways.length)) ∧
    (let s : State := { small with chip := { small.chip with phase := .bist } }
     let r : BistResult := { whittlers := [], lathes := [], spindles := [], envans := [], ports := [], ways := [3], fabric := false, walker := false, dense := false, lattice := true }
     s.chip.phase = .bist ∧ s.chip.bistFail = false ∧ r.fabric = false ∧ (s.bistApply r).clusterAFenced = false ∧ r.walker = false ∧ r.ways.length ≤ 4) ∧
    (let s : State := { small with benches := [], chip := { small.chip with phase := .links } }
     let cfg : ImageCfg := (small.chip.cfg).getD (factoryDefaults true)
     let c : BenchClass := smallClass 0 true
     s.chip.phase = .links ∧ s.chip.cfg = some cfg ∧ s.findClass cfg.mgmtClass = some c ∧ (s.portsSettled = true ∨ s.chip.linksAt.toNat + 2000000 ≤ s.now.toNat)) ∧
    (let s : State := { small with chip := { small.chip with phase := .links, linksAt := 5000000 } }
     s.portsSettled = false ∧ s.now.toNat < s.chip.linksAt.toNat + 2000000) := by
  refine ⟨?_, ?_, ?_, ?_, ?_, ?_, ?_, ?_⟩ <;> decide +kernel

theorem test_witness_RestartSources :
    (let s : State := small
     let v : BitVec 32 := 0xA5C30001
     s.decodes s.mgmtFn.1 s.mgmtFn.2 = true ∧ (s.bench 0).detached = false ∧ v.getLsbD 0 = true ∧ v.extractLsb' 16 16 = 0xA5C3#16) ∧
    (let s : State := small
     let v : BitVec 32 := 0xA5C40001
     s.decodes s.mgmtFn.1 s.mgmtFn.2 = true ∧ (s.bench 0).detached = false ∧ v.getLsbD 0 = true ∧ v.extractLsb' 16 16 ≠ 0xA5C3#16) ∧
    (let s : State := { small with chip := { small.chip with phase := .restarting, wait := .diePower } }
     s.chip.wait = .diePower ∧ (s.chip.teardownAt.toNat + 100000 ≤ s.now.toNat ∨ s.hearth.counting = false) ∧ s.dbg.pinDriving = false) ∧
    (let s : State := { small with chip := { small.chip with phase := .restarting, wait := .diePower, teardownAt := 4900001 } }
     s.hearth.counting = true ∧ s.now.toNat < s.chip.teardownAt.toNat + 100000) ∧
    (let s : State := small
     s.chip.powered = true ∧ s.hearth.counting = true ∧ s.hearth.refLost = false ∧ s.chip.wait = .none) ∧
    (let s : State := { small with chip := { small.chip with phase := .restarting, wait := .reference }, hearth := { small.hearth with refLost := true } }
     s.chip.powered = true ∧ s.hearth.refLost = true ∧ s.chip.wait = .reference ∧ s.chip.phase = .restarting) ∧
    (let s : State := { State.reset with chip := { Chip.reset with powered := true, search := { SlotSearch.reset with bound := some 60000000 } }, hearth := { Hearth.reset with refLost := true } }
     let v : BitVec 64 := 60000000
     s.chip.powered = true ∧ s.hearth.refLost = true ∧ s.chip.phase = .straps ∧ s.chip.search.bound = some v ∧ s.now.toNat < v.toNat) ∧
    (let s : State := small
     let l : List (BitVec 16) := [700, 650]
     s.chip.powered = true ∧ hottest l < 1000) ∧
    (let s : State := small
     let l : List (BitVec 16) := [700, 1010]
     s.chip.powered = true ∧ 1000 ≤ hottest l ∧ hottest l < 1150) ∧
    (let s : State := small
     let l : List (BitVec 16) := [1150]
     s.chip.powered = true ∧ s.chip.wait ≠ .cool ∧ 1150 ≤ hottest l) ∧
    (let s : State := { small with chip := { small.chip with phase := .restarting, wait := .cool }, hearth := { small.hearth with time := 10000000, coolSince := some 0 } }
     s.chip.wait = .cool ∧ s.hearth.cooled = true) ∧
    (let s : State := { small with hearth := { small.hearth with coolSince := some 1 } }
     let v : BitVec 64 := 1
     s.hearth.counting = true ∧ (s.hearth.coolSince = none ∨ (s.hearth.coolSince = some v ∧ s.now.toNat < v.toNat + 10000000))) ∧
    (let s : State := small
     let l : List (BitVec 16) := [899, 100]
     s.chip.powered = true ∧ hottest l < 900) ∧
    (let s : State := small
     let l : List (BitVec 16) := [900, 100]
     s.chip.powered = true ∧ 900 ≤ hottest l) := by
  refine ⟨?_, ?_, ?_, ?_, ?_, ?_, ?_, ?_, ?_, ?_, ?_, ?_, ?_, ?_⟩ <;> decide +kernel

theorem test_witness_JtagInstructions :
    (let s : State := small
     s.chip.powered = true ∧ s.chip.phase ≠ .straps) ∧
    (let s : State := small
     s.chip.powered = true ∧ s.chip.phase ≠ .straps) ∧
    (let s : State := small
     s.chip.powered = true ∧ s.chip.phase ≠ .straps) ∧
    (let s : State := State.reset
     s.chip.phase = .straps) ∧
    (let s : State := State.reset
     s.chip.phase = .straps) ∧
    (let s : State := State.reset
     s.chip.phase = .straps) ∧
    (let s : State := { small with chip := { small.chip with phase := .restarting, wait := .testLogicReset }, dbg := { small.dbg with pinDriving := true, attached := true } }
     s.dbg.pinDriving = true ∧ s.chip.wait = .testLogicReset) ∧
    (let s : State := smallDap
     s.dbg.pinDriving = false) ∧
    (let s : State := small
     s.chip.powered = true) ∧
    (let s : State := small
     s.chip.powered = true ∧ s.dbg.attached = false) ∧
    (let s : State := smallDap
     s.dbg.attached = true) := by
  refine ⟨?_, ?_, ?_, ?_, ?_, ?_, ?_, ?_, ?_, ?_, ?_⟩ <;> decide +kernel

theorem test_witness_GateHandshake :
    (let s : State := { small with chip := { small.chip with cfg := small.chip.cfg.map fun c => { c with idleGateMs := List.replicate 12 5 } }, ports := [] }
     let n : Nat := 1
     s.domainPresent n = true ∧ s.domainOn n = true ∧ s.idleGateMs n ≠ 0 ∧ s.idle n = true ∧ (s.domain n).idleSince.toNat + s.idleGateMs n * 1000 ≤ s.now.toNat ∧ (n = 11 ∨ n = 12 → (s.groupDies n).all s.dieQuiet = true)) ∧
    (let s : State := small
     let n : Nat := 1
     (s.idleGateMs n = 0 ∨ s.idle n = false ∨ s.now.toNat < (s.domain n).idleSince.toNat + s.idleGateMs n * 1000)) ∧
    (let s : State := { small with spindles := [(0, { Spindle.reset with state := .up, scrubbing := true })] }
     let n : Nat := 11
     (n = 11 ∨ n = 12) ∧ (s.groupDies n).all s.dieQuiet = false) ∧
    (let s : State := smallPd 5 .closing
     let n : Nat := 5
     ((s.domain n).state = .closing ∨ (s.domain n).state = .draining)) ∧
    (let s : State := smallPd 5 .draining
     let n : Nat := 5
     (s.domain n).state = .draining ∧ (s.domain n).stepSince.toNat + 2000 ≤ s.now.toNat) ∧
    (let s : State := smallPd 7 .saving
     let n : Nat := 7
     (s.domain n).state = .saving ∧ n ≠ 8) ∧
    (let s : State := smallPd 8 .saving
     (s.domain 8).state = .saving ∧ s.hearth.deadlines.length < 1024) := by
  refine ⟨?_, ?_, ?_, ?_, ?_, ?_, ?_⟩ <;> decide +kernel

theorem test_witness_WakingAndDeadlines :
    (let s : State := small
     let v : BitVec 32 := 6
     s.decodes s.mgmtFn.1 s.mgmtFn.2 = true ∧ (s.bench 0).detached = false) ∧
    (let s : State := smallPd 5 .off
     let n : Nat := 5
     1 ≤ n ∧ n ≤ 12 ∧ s.decodes s.mgmtFn.1 s.mgmtFn.2 = true ∧ (s.bench 0).detached = false ∧ s.domainPresent n = true ∧ (s.domain n).state = .off) ∧
    (let s : State := { small with hearth := { small.hearth with deadlines := [⟨.spindleRetry 0, 5000000⟩] } }
     let i : Nat := 0
     let d : Deadline := ⟨.spindleRetry 0, 5000000⟩
     s.hearth.deadlines[i]? = some d ∧ d.time.toNat ≤ s.now.toNat ∧ s.domainOn d.kind.domain = true ∧ d.kind ≠ .scrubFloor ∧ d.kind ≠ .masterSilence) ∧
    (let s : State := { smallPd 11 .off with hearth := { (smallPd 11 .off).hearth with deadlines := [⟨.spindleRetry 2, 5000000⟩] } }
     let i : Nat := 0
     let d : Deadline := ⟨.spindleRetry 2, 5000000⟩
     s.hearth.deadlines[i]? = some d ∧ d.time.toNat ≤ s.now.toNat ∧ (s.domain d.kind.domain).state = .off ∧ s.domainPresent d.kind.domain = true) ∧
    (let s : State := { small with hearth := { (smallPd 8 .closing).hearth with deadlines := [⟨.masterSilence, 5000000⟩] } }
     let i : Nat := 0
     let d : Deadline := ⟨.masterSilence, 5000000⟩
     s.hearth.deadlines[i]? = some d ∧ d.time.toNat ≤ s.now.toNat ∧ (s.domain d.kind.domain).gating = true ∧ s.domainPresent d.kind.domain = true) ∧
    (let s : State := { small with hearth := { small.hearth with deadlines := [⟨.masterSilence, 5000001⟩] } }
     let i : Nat := 0
     let d : Deadline := ⟨.masterSilence, 5000001⟩
     s.hearth.deadlines[i]? = some d ∧ s.now.toNat < d.time.toNat) ∧
    (let s : State := smallPd 8 .off
     s.running = true ∧ (s.domain 8).state = .off ∧ s.floorTime.toNat ≤ s.now.toNat) ∧
    (let s : State := smallPd 5 .waking
     let n : Nat := 5
     (s.domain n).state = .waking ∧ s.depsOn n = true ∧ s.hearth.porch = [] ∧ s.hearth.withheld = []) ∧
    (let s : State := { smallPd 5 .waking with hearth := { (smallPd 5 .waking).hearth with porch := [⟨.internal, 5, 1, .internal⟩] } }
     let src : PorchSource := .internal
     let n : Nat := 5
     let k : Nat := 1
     n ≠ 0 ∧ (s.domain n).state = .waking ∧ s.depsOn n = true ∧ s.hearth.porch = [⟨src, n, k, .internal⟩] ∧ s.hearth.withheld = []) ∧
    (let s : State := { small with hearth := { small.hearth with refilling := true } }
     s.hearth.refilling = true) ∧
    (let s : State := { smallMem with hearth := { small.hearth with refilling := true }, headstock := { smallMem.headstock with pins := [smallLeaf] } }
     s.hearth.refilling = true ∧ (∀ e ∈ s.headstock.pins, s.headstock.cache.any e.same = true)) ∧
    (let s : State := smallPd 5 .off
     let src : PorchSource := .internal
     let n : Nat := 5
     let k : Nat := 1
     s.running = true ∧ n ≠ 0 ∧ s.domainPresent n = true ∧ (s.domain n).state = .off ∧ s.hearth.withheld = [] ∧ s.porchFits (s.hearth.porch ++ [⟨src, n, max 1 k, .internal⟩]) = true) ∧
    (let s : State := smallPd 5 .off
     let src : PorchSource := .internal
     let n : Nat := 5
     let k : Nat := 900
     s.running = true ∧ n ≠ 0 ∧ s.domainPresent n = true ∧ (s.domain n).state = .off ∧ s.hearth.withheld = [] ∧ s.porchFits (s.hearth.porch ++ [⟨src, n, max 1 k, .internal⟩]) = false) ∧
    (let s : State := small
     let n : Nat := 5
     let k : Nat := 1
     s.running = true ∧ n ≠ 0 ∧ s.domainPresent n = true ∧ s.domainOn n = true) := by
  refine ⟨?_, ?_, ?_, ?_, ?_, ?_, ?_, ?_, ?_, ?_, ?_, ?_, ?_, ?_⟩ <;> decide +kernel

theorem test_witness_PortTraining :
    (let s : State := small.modPort 0 fun x => { x with link := .detect }
     let p : Nat := 0
     p < s.nPorts ∧ (s.port p).link.isUp = false) ∧
    (let s : State := small
     let p : Nat := 0
     p < s.nPorts ∧ (s.port p).link.isUp = true) ∧
    (let s : State := smallRom.modPort 0 fun x => { x with link := .down, perst := true }
     let p : Nat := 0
     p < s.nPorts ∧ s.portEnabled p = true ∧ s.hostPhase = true) ∧
    (let s : State := small.modPort 0 fun x => { x with link := .training }
     let p : Nat := 0
     let w : BitVec 3 := 4
     let sp : BitVec 3 := 5
     let flit : Bool := false
     let cxl : Bool := true
     let refused : Bool := false
     w ≠ 0 ∧ (sp = 6 → flit = true) ∧ p < s.nPorts ∧ (s.port p).trains = true ∧ (s.port p).perst = false ∧ s.domainOn (p + 1) = true) ∧
    (let s : State := small.modPort 0 fun x => { x with link := .training, consecFails := 2 }
     let p : Nat := 0
     let cause : BitVec 3 := 3
     p < s.nPorts ∧ ((s.port p).link = .training ∨ (s.port p).link = .detect) ∧ (s.port p).perst = false ∧ s.domainOn (p + 1) = true ∧ (s.port p).consecFails < 3 ∧ (s.port p).retrying = false) ∧
    (let s : State := small.modPort 0 fun x => { x with link := .training, consecFails := 3 }
     let p : Nat := 0
     let cause : BitVec 3 := 3
     p < s.nPorts ∧ ((s.port p).link = .training ∨ (s.port p).link = .detect) ∧ (s.port p).perst = false ∧ s.domainOn (p + 1) = true ∧ (3 ≤ (s.port p).consecFails ∨ (s.port p).retrying = true)) ∧
    (let s : State := small.modPort 0 fun x => { x with link := .training }
     let p : Nat := 0
     let w : BitVec 3 := 4
     let sp : BitVec 3 := 6
     let flit : Bool := false
     let cxl : Bool := true
     let refused : Bool := false
     (w = 0 ∨ (sp = 6 ∧ flit = false)) ∧ p < s.nPorts ∧ ((s.port p).link = .training ∨ (s.port p).link = .detect) ∧ (s.port p).perst = false ∧ s.domainOn (p + 1) = true) ∧
    (let s : State := small.modPort 0 fun x => { x with link := .detect }
     let p : Nat := 0
     (s.port p).link = .detect ∧ s.domainOn (p + 1) = true) ∧
    (let s : State := { small.modPort 0 (fun x => { x with link := .absent }) with hearth := { small.hearth with detectRetry := [(0, some 5000000)] } }
     let p : Nat := 0
     let d : BitVec 64 := 5000000
     tabGet s.hearth.detectRetry none p = some d ∧ d.toNat ≤ s.now.toNat ∧ (s.port p).link = .absent ∧ (s.port p).perst = false) ∧
    (let s : State := { small.modPort 0 (fun x => { x with link := .absent }) with hearth := { small.hearth with detectRetry := [(0, some 5000001)] } }
     let p : Nat := 0
     let d : BitVec 64 := 5000001
     tabGet s.hearth.detectRetry none p = some d ∧ s.now.toNat < d.toNat) := by
  refine ⟨?_, ?_, ?_, ?_, ?_, ?_, ?_, ?_, ?_, ?_⟩ <;> decide +kernel

theorem test_witness_LinkLossAndResets :
    (let s : State := smallRom
     let c : Instr := .linkDown 0 none
     let p : Nat := 0
     let e : Option AerError := none
     (c = .linkDown p e ∨ c = .hotReset p ∨ c = .dpcContainment p) ∧ (s.port p).link.isUp = true ∧ s.portEnabled p = true ∧ s.hostPhase = true ∧ (s.port p).perst = false) ∧
    (let s : State := small.modPort 0 fun x => { x with link := .detect }
     let c : Instr := .hotReset 0
     let p : Nat := 0
     let e : Option AerError := none
     (c = .linkDown p e ∨ c = .hotReset p ∨ c = .dpcContainment p) ∧ (s.port p).link.isUp = false) ∧
    (let s : State := small
     let p : Nat := 0
     let e : AerError := .malformedTlp
     (s.port p).link.isUp = true) ∧
    (let s : State := small
     let p : Nat := 0
     (s.port p).cxl = true) ∧
    (let s : State := small
     let p : Nat := 0
     let f : Nat := 2
     f ≠ 0 ∧ (s.port p).link.isUp = true ∧ s.fnEnabled p f = true ∧ s.benchOf p f = none) ∧
    (let s : State := small
     let p : Nat := 0
     let f : Nat := 1
     let b : Nat := 1
     f ≠ 0 ∧ (s.port p).link.isUp = true ∧ s.fnEnabled p f = true ∧ s.benchOf p f = some b ∧ (s.bench b).state = .active) ∧
    (let s : State := { small with benches := [(0, small.bench 0)] }
     let p : Nat := 0
     (s.port p).vfEnable = true ∧ (∀ b ∈ s.portBenches p, (s.bench b).fn = 0)) ∧
    (let s : State := small.modPort 0 fun x => { x with vfEnable := false }
     let p : Nat := 0
     let v : Nat := 4
     (s.port p).vfEnable = false ∧ v ≤ s.totalVfs p) ∧
    (let s : State := small
     let p : Nat := 0
     let v : Nat := 4
     (s.port p).vfEnable = true) := by
  refine ⟨?_, ?_, ?_, ?_, ?_, ?_, ?_, ?_, ?_⟩ <;> decide +kernel

theorem test_witness_ConfigurationAndPower :
    (let s : State := small
     let p : Nat := 0
     let f : Nat := 3
     let a : ConfigAccess := .read .vendorId
     (s.port p).link.isUp = true ∧ s.fnEnabled p f = false) ∧
    (let s : State := small.modBench 1 fun x => { x with state := .sweeping, sweepCause := 2, sweep := some ⟨.cut, false, false, 0, [], true, 0⟩ }
     let p : Nat := 0
     let f : Nat := 1
     let b : Nat := 1
     let a : ConfigAccess := .read .vendorId
     (s.port p).link.isUp = true ∧ s.fnEnabled p f = true ∧ s.benchOf p f = some b ∧ (s.bench b).state = .sweeping ∧ (s.bench b).sweep.map Sweep.flr = some true) ∧
    (let s : State := { small with chip := { small.chip with phase := .hosts }, benches := [] }
     let p : Nat := 0
     let f : Nat := 1
     let r : ConfigReg := .deviceId
     (s.port p).link.isUp = true ∧ s.fnEnabled p f = true ∧ s.portBenches p = [] ∧ s.benchOf p f = none ∧ s.chip.phase = .hosts) ∧
    (let s : State := { small with benches := [] }
     let p : Nat := 0
     let f : Nat := 1
     let on : Bool := false
     (s.port p).link.isUp = true ∧ s.fnEnabled p f = true ∧ s.portBenches p = [] ∧ s.benchOf p f = none ∧ s.chip.phase = .running) ∧
    (let s : State := small
     let p : Nat := 0
     let f : Nat := 2
     (s.port p).link.isUp = true ∧ s.fnEnabled p f = true ∧ s.benchOf p f = none) ∧
    (let s : State := small
     let p : Nat := 0
     let f : Nat := 2
     (s.port p).link.isUp = true ∧ s.fnEnabled p f = true ∧ s.benchOf p f = none) ∧
    (let s : State := small
     let p : Nat := 0
     let f : Nat := 1
     let b : Nat := 1
     (s.port p).link.isUp = true ∧ s.fnEnabled p f = true ∧ s.benchOf p f = some b ∧ s.cfgRetry p f = false) ∧
    (let s : State := small
     let p : Nat := 0
     let f : Nat := 2
     let e : Bool := false
     (s.port p).link.isUp = true ∧ s.fnEnabled p f = true ∧ s.benchOf p f = none) ∧
    (let s : State := small.modBench 1 fun x => { x with state := .sweeping, sweepCause := 2, sweep := some ⟨.cut, false, false, 0, [], true, 0⟩ }
     let p : Nat := 0
     let f : Nat := 1
     let b : Nat := 1
     let e : Bool := true
     (s.port p).link.isUp = true ∧ s.fnEnabled p f = true ∧ s.benchOf p f = some b ∧ (s.bench b).state = .sweeping ∧ (s.bench b).sweep.map Sweep.flr = some true) ∧
    (let s : State := small
     let p : Nat := 0
     (s.port p).perst = false ∧ ((s.port p).link = .l0 ∨ (s.port p).link = .l1)) ∧
    (let s : State := small.modPort 0 fun x => { x with link := .l2, wake := true }
     let p : Nat := 0
     (s.port p).perst = false ∧ (s.port p).link = .l2) ∧
    (let s : State := small
     let p : Nat := 0
     let a : AspmState := .l1
     a ≠ .l0 ∧ ((s.port p).link = .l0 ∨ (s.port p).link = .l1)) ∧
    (let s : State := small.modPort 0 fun x => { x with link := .l1, l12 := true }
     let p : Nat := 0
     (s.port p).link = .l1) ∧
    (let s : State := small.modBench 1 fun x => { x with msix := { x.msix with inFloor := 6 } }
     let b : Nat := 1
     let v : Nat := 2
     v < 32 ∧ (s.bench b).msix.inFloor.getLsbD v = true ∧ (s.bench b).msix.heldMsg.getLsbD v = false) ∧
    (let s : State := { small.modBench 1 (fun x => { x with msix := { x.msix with inFloor := 6, heldMsg := 4, table := [(2, ⟨0x1000, 0, 7, false⟩)] } }) with fns := [(1, { Fn.reset with msixEn := true, busMaster := true })] }
     let b : Nat := 1
     let v : Nat := 2
     v < 32 ∧ (s.bench b).msix.inFloor.getLsbD v = true ∧ (s.bench b).msix.heldMsg.getLsbD v = true ∧ s.vectorOpen b v = true) ∧
    (let s : State := small
     let p : Nat := 0
     let f : Nat := 1
     let b : Nat := 1
     let v : Nat := 31
     let k : Nat := 3
     let x : BitVec 32 := 0
     s.decodes p f = true ∧ s.benchOf p f = some b ∧ ((s.bench b).state = .active ∨ (s.bench b).state = .held) ∧ v < 32 ∧ k < 4 ∧ (s.bench b).msix.pba = 0#32) ∧
    (let s : State := { small with benches := [(0, small.bench 0)] }
     let p : Nat := 0
     let f : Nat := 1
     let v : Nat := 31
     let k : Nat := 3
     let x : BitVec 32 := 0
     s.decodes p f = true ∧ s.benchOf p f = none) := by
  refine ⟨?_, ?_, ?_, ?_, ?_, ?_, ?_, ?_, ?_, ?_, ?_, ?_, ?_, ?_, ?_, ?_, ?_⟩ <;> decide +kernel

theorem test_witness_HostMemoryAccess :
    (let s : State := { smallMem with spindles := [(0, { Spindle.reset with state := .up })] }
     let p : Nat := 0
     let f : Nat := 1
     let off : Nat := 8
     let n : Nat := 4
     let hid : Nat := 7
     let b : Nat := 1
     let d : Nat := 0
     let o : Nat := 8
     let cnt : Bool := false
     s.decodes p f = true ∧ s.domainOn 7 = true ∧ s.bar2Head p f = none ∧ s.putOpen p f false = false ∧ off + n ≤ 2 ^ 36 ∧ s.bar2Bench p f = some b ∧ s.bar2Map b off false = .at d o cnt ∧ (s.die d).state = .up ∧ (s.die d).queue = [] ∧ (s.die d).room false (DieMsg.blocks (.hubRead 0 o n)) = true) ∧
    (let s : State := smallMem
     let p : Nat := 0
     let f : Nat := 1
     let off : Nat := 8
     let n : Nat := 4
     let hid : Nat := 9
     let b : Nat := 1
     let d : Nat := 0
     let o : Nat := 8
     let cnt : Bool := false
     s.decodes p f = true ∧ s.domainOn 7 = true ∧ s.bar2Head p f = none ∧ s.putOpen p f false = false ∧ off + n ≤ 2 ^ 36 ∧ s.bar2Bench p f = some b ∧ s.bar2Map b off false = .at d o cnt ∧ (s.die d).state ≠ .up) ∧
    (let s : State := { smallMem with bar2Writes := [⟨0, 0, 0, 1, false⟩] }
     let p : Nat := 0
     let f : Nat := 1
     let off : Nat := 8
     let n : Nat := 4
     let hid : Nat := 7
     s.decodes p f = true ∧ s.domainOn 7 = true ∧ s.bar2Head p f = none ∧ s.putOpen p f false = true ∧ off + n ≤ 2 ^ 36) ∧
    (let s : State := { smallMem with headstock := { smallMem.headstock with cache := [{ smallLeaf with pin := false }] } }
     let p : Nat := 0
     let f : Nat := 1
     let off : Nat := 8
     let n : Nat := 4
     let hid : Nat := 9
     let b : Nat := 1
     s.decodes p f = true ∧ s.domainOn 7 = true ∧ s.bar2Head p f = none ∧ s.putOpen p f false = false ∧ off + n ≤ 2 ^ 36 ∧ s.bar2Bench p f = some b ∧ s.bar2Map b off false = .unmapped) ∧
    (let s : State := { smallMem with spindles := [(0, { Spindle.reset with state := .up })] }
     let p : Nat := 0
     let f : Nat := 1
     let off : Nat := 8
     let b : Nat := 1
     let d : Nat := 0
     let o : Nat := 8
     let data : List (Byte × Bool) := [(7, true)]
     let cnt : Bool := false
     let ro : Bool := false
     s.decodes p f = true ∧ s.domainOn 7 = true ∧ s.bar2Head p f = none ∧ (ro = true ∨ s.putOpen p f false = false) ∧ off + data.length ≤ 2 ^ 36 ∧ s.bar2Bench p f = some b ∧ s.bar2Map b off true = .at d o cnt ∧ (s.die d).state = .up ∧ (s.die d).queue = [] ∧ (s.die d).room false (DieMsg.blocks (.hubWrite none o data)) = true) ∧
    (let s : State := { smallMem with bar2Writes := [⟨0, 0, 0, 1, false⟩] }
     let p : Nat := 0
     let f : Nat := 1
     let off : Nat := 8
     let data : List (Byte × Bool) := [(7, true)]
     s.decodes p f = true ∧ s.domainOn 7 = true ∧ s.bar2Head p f = none ∧ s.putOpen p f false = true ∧ off + data.length ≤ 2 ^ 36) ∧
    (let s : State := { smallMem with headstock := { smallMem.headstock with cache := [{ smallLeaf with pin := false }] } }
     let p : Nat := 0
     let f : Nat := 1
     let off : Nat := 8
     let b : Nat := 1
     let data : List (Byte × Bool) := [(7, true)]
     let ro : Bool := false
     s.decodes p f = true ∧ s.domainOn 7 = true ∧ s.bar2Head p f = none ∧ (ro = true ∨ s.putOpen p f false = false) ∧ off + data.length ≤ 2 ^ 36 ∧ s.bar2Bench p f = some b ∧ s.bar2Map b off true = .unmapped) ∧
    (let s : State := small
     let p : Nat := 0
     let f : Nat := 1
     let off : Nat := 8
     let data : List (Byte × Bool) := [(7, true)]
     let ro : Bool := false
     s.decodes p f = true ∧ s.domainOn 7 = true ∧ off + data.length ≤ 2 ^ 36) ∧
    (let s : State := smallMem
     let p : Nat := 0
     let f : Nat := 1
     let off : Nat := 8
     let q : Nat := 0
     let b : Nat := 1
     let data : List (Byte × Bool) := [(7, true)]
     let ro : Bool := false
     off + data.length ≤ 2 ^ 34 ∧ s.decodes p f = true ∧ s.domainOn 7 = true ∧ s.benchOf p f = some b ∧ s.benchServes b = true ∧ s.classHas b BenchClass.peerAllowed = true ∧ (s.bench b).peer.enable = true ∧ (s.bench b).peer.admits q = true ∧ s.streamAt b off = none ∧ (s.port p).peerBytes + data.length ≤ 131072 ∧ s.peerStalled p = false) ∧
    (let s : State := small
     let p : Nat := 0
     let f : Nat := 1
     let off : Nat := 8
     let q : Nat := 0
     let b : Nat := 1
     let data : List (Byte × Bool) := []
     let poisoned : Bool := true
     let ro : Bool := false
     off + data.length ≤ 2 ^ 34 ∧ s.decodes p f = true ∧ s.domainOn 7 = true ∧ s.benchOf p f = some b ∧ (s.classHas b BenchClass.peerAllowed = false ∨ (s.bench b).peer.enable = false)) ∧
    (let s : State := small
     let p : Nat := 0
     let f : Nat := 1
     let hid : Nat := 3
     let b : Nat := 1
     s.decodes p f = true ∧ s.benchOf p f = some b) ∧
    (let s : State := small
     let p : Nat := 0
     let f : Nat := 0
     let k : Nat := 2
     let hid : Nat := 3
     s.decodes p f = true) ∧
    (let s : State := small
     let c : Instr := .bar4Read 0 2 1
     let p : Nat := 0
     let f : Nat := 2
     let off : Nat := 0
     let n : Nat := 0
     let hid : Nat := 1
     let q : Nat := 0
     let data : List (Byte × Bool) := []
     let po : Bool := false
     let ro : Bool := false
     s.decodes p f = false ∧ (c = .bar2Read p f off n hid ∨ c = .bar2Write p f off data po ro ∨ c = .bar4Write p f off q data po ro ∨ c = .bar4Read p f hid ∨ c = .atomicop p f n hid)) := by
  refine ⟨?_, ?_, ?_, ?_, ?_, ?_, ?_, ?_, ?_, ?_, ?_, ?_, ?_⟩ <;> decide +kernel

theorem test_witness_PortTraffic :
    (let s : State := small.modPort 0 fun x => { x with egress := [⟨1, 1, 4, 0, false, none, none, .msix 0 1 4096 7⟩] }
     let p : Nat := 0
     let x : EgressTlp := ⟨1, 1, 4, 0, false, none, none, .msix 0 1 4096 7⟩
     (s.port p).egress = [x] ∧ s.tlpReady p x = true ∧ x.owner = none ∧ x.notice ≠ some true) ∧
    (let s : State := small.modPort 0 fun x => { x with egress := [⟨1, 1, 0, 0, false, some (.ats 0), none, .atsRequest 0 1 0 none 0 false⟩] }
     let p : Nat := 0
     let n : Nat := 0
     let x : EgressTlp := ⟨1, 1, 0, 0, false, some (.ats 0), none, .atsRequest 0 1 0 none 0 false⟩
     let o : TagOwner := .ats 0
     (s.port p).egress = [x] ∧ s.tlpReady p x = true ∧ x.owner = some o ∧ x.notice = none ∧ lowestTag ((s.port p).tags.map TagUse.tag) (s.port p).tagLimit 0 = some n) ∧
    (let s : State := small
     let p : Nat := 0
     (∀ x ∈ (s.port p).egress, s.tlpReady p x = false)) ∧
    (let s : State := small
     let p : Nat := 0
     let g : Nat := 5
     let st : CplStatus := .ok
     let data : List Byte := []
     s.tagUse p g = none) ∧
    (let s : State := small.modPort 0 fun x => { x with tags := [⟨5, 1, 1, .latheRead 0 0 0, false⟩] }
     let p : Nat := 0
     let g : Nat := 5
     let l : Nat := 0
     let c : Nat := 0
     let n : Nat := 0
     let u : TagUse := ⟨5, 1, 1, .latheRead 0 0 0, false⟩
     let data : List Byte := [1, 2]
     s.tagUse p g = some u ∧ u.owner = .latheRead l c n) ∧
    (let s : State := small.modPort 0 fun x => { x with tags := [⟨5, 1, 1, .invFlush 1 3, false⟩], invalidates := [⟨1, 3, 0, 4096, none, [], true⟩] }
     let p : Nat := 0
     let g : Nat := 5
     let f : Nat := 1
     let i : Nat := 3
     let u : TagUse := ⟨5, 1, 1, .invFlush 1 3, false⟩
     s.tagUse p g = some u ∧ u.owner = .invFlush f i) ∧
    (let s : State := small.modPort 0 fun x => { x with tags := [⟨5, 1, 1, .invFlush 1 3, false⟩], invalidates := [⟨1, 3, 0, 4096, none, [], true⟩] }
     let p : Nat := 0
     let g : Nat := 5
     let u : TagUse := ⟨5, 1, 1, .invFlush 1 3, false⟩
     s.tagUse p g = some u) ∧
    (let s : State := small.modPort 0 fun x => { x with tags := [⟨5, 1, 1, .invFlush 1 3, false⟩], invalidates := [⟨1, 3, 0, 4096, none, [], true⟩] }
     let p : Nat := 0
     let g : Nat := 5
     let f : Nat := 1
     let i : Nat := 3
     let u : TagUse := ⟨5, 1, 1, .invFlush 1 3, false⟩
     s.tagUse p g = some u ∧ u.tag = g ∧ u.owner = .invFlush f i) ∧
    (let s : State := { (smallMiss [⟨0, 1, false, some 7, 3, false, .ats 0, false, []⟩]) with ports := [(0, { small.port 0 with tags := [⟨5, 1, 1, .ats 0, false⟩] })] }
     let p : Nat := 0
     let g : Nat := 5
     let size : Nat := 12
     let addr : Nat := 65536
     let w : Bool := true
     let u : TagUse := ⟨5, 1, 1, .ats 0, false⟩
     let m : Miss := ⟨0, 1, false, some 7, 3, false, .ats 0, false, []⟩
     s.tagUse p g = some u ∧ u.owner = .ats m.id ∧ s.headstock.misses = [m] ∧ m.stale = false ∧ m.waiters = [] ∧ (s.bench m.bench).state ≠ .vacant) ∧
    (let s : State := smallMem
     let p : Nat := 0
     let f : Nat := 1
     let i : Nat := 3
     let base : Nat := 0
     let len : Nat := 4096
     let b : Nat := 1
     let pasid : Option Nat := none
     (s.port p).invalidates = [] ∧ (s.port p).invWaiting = [] ∧ s.benchOf p f = some b ∧ (s.bench b).rings = [] ∧ (s.bench b).posted = none) ∧
    (let s : State := small
     let p : Nat := 0
     let f : Nat := 2
     let i : Nat := 3
     let base : Nat := 0
     let len : Nat := 4096
     let pasid : Option Nat := none
     (s.port p).invalidates = [] ∧ (s.port p).invWaiting = [] ∧ s.benchOf p f = none) ∧
    (let s : State := small.modBench 1 fun x => { x with posted := some 64 }
     let p : Nat := 0
     let f : Nat := 1
     let i : Nat := 3
     let base : Nat := 0
     let len : Nat := 4096
     let b : Nat := 1
     let pasid : Option Nat := none
     let a : BitVec 64 := 64
     (s.port p).invalidates = [] ∧ (s.port p).invWaiting = [] ∧ s.benchOf p f = some b ∧ (s.bench b).port = p ∧ (s.bench b).rings = [] ∧ (s.bench b).posted = some a) ∧
    (let s : State := small.modPort 0 fun x => { x with invWaiting := [(1, 2, 0, 4096, none)] }
     let p : Nat := 0
     let f : Nat := 1
     let i : Nat := 3
     let base : Nat := 0
     let len : Nat := 4096
     let pasid : Option Nat := none
     ((s.port p).invRoom f = false ∨ (s.port p).invWaiting ≠ [])) ∧
    (let s : State := small.modPort 0 fun x => { x with invalidates := [⟨1, 3, 0, 4096, none, [], false⟩] }
     let p : Nat := 0
     let f : Nat := 1
     let i : Nat := 3
     let q : InvRequest := ⟨1, 3, 0, 4096, none, [], false⟩
     (s.port p).invalidates = [q] ∧ q.fn = f ∧ q.itag = i ∧ q.flush = false ∧ q.barrier = [] ∧ (s.port p).invWaiting = []) ∧
    (let s : State := small.modPort 0 fun x => { x with invalidates := [⟨1, 3, 0, 4096, none, [], true⟩] }
     let p : Nat := 0
     let f : Nat := 1
     let i : Nat := 3
     let q : InvRequest := ⟨1, 3, 0, 4096, none, [], true⟩
     (s.port p).invalidates = [q] ∧ q.fn = f ∧ q.itag = i ∧ q.flush = true) ∧
    (let s : State := { small with headstock := { small.headstock with pageReqs := [⟨0, 1, 2, some 4⟩], faults := [(4, some (faultIn .priSent false))] } }
     let p : Nat := 0
     let f : Nat := 1
     let g : Nat := 2
     let i : Nat := 4
     let x : FaultRec := faultIn .priSent false
     s.headstock.pageReqs = [⟨p, f, g, some i⟩] ∧ s.fault i = some x ∧ x.state = .priSent ∧ (∀ e ∈ s.headstock.faults, ∀ y, e.2 = some y → y.state ≠ .posted)) ∧
    (let s : State := { small with headstock := { small.headstock with pageReqs := [⟨0, 1, 2, none⟩] } }
     let p : Nat := 0
     let f : Nat := 1
     let g : Nat := 2
     s.headstock.pageReqs = [⟨p, f, g, none⟩]) := by
  refine ⟨?_, ?_, ?_, ?_, ?_, ?_, ?_, ?_, ?_, ?_, ?_, ?_, ?_, ?_, ?_, ?_, ?_⟩ <;> decide +kernel

theorem test_witness_MissesAndWalks :
    (let s : State := smallMiss [missAt .queued]
     let m : Miss := missAt .queued
     s.headstock.misses = [m] ∧ m.stage = .queued ∧ m.modeD = true) ∧
    (let s : State := smallMiss [missAt .slotted]
     let m : Miss := missAt .slotted
     s.headstock.misses = [m] ∧ m.stage = .slotted ∧ m.modeD = true) ∧
    (let s : State := smallMiss [missAt .walking]
     let m : Miss := missAt .walking
     let a : BitVec 64 := 0
     s.headstock.misses = [m] ∧ m.stage = .walking ∧ m.modeD = true ∧ m.stale = false ∧ m.waiters = []) ∧
    (let s : State := smallMiss [missAt .walking]
     let m : Miss := missAt .walking
     s.headstock.misses = [m] ∧ m.stage = .walking ∧ m.modeD = true ∧ m.stale = false ∧ m.waiters = []) ∧
    (let s : State := { small with headstock := { small.headstock with counts := [(1, 5)] } }
     let b : Nat := 1
     let n : Nat := 5
     let l : List (Nat × Nat) := []
     s.headstock.counts = (b, n) :: l ∧ (s.bench b).state ≠ .vacant) ∧
    (let s : State := { (small.modBench 1 fun x => { x with regions := [(5, some ⟨2, false, false, false, true, false, 0, 0⟩)] }) with headstock := { small.headstock with counts := [(1, 5)] } }
     let b : Nat := 1
     let n : Nat := 5
     let l : List (Nat × Nat) := []
     let r : Region := ⟨2, false, false, false, true, false, 0, 0⟩
     s.headstock.counts = (b, n) :: l ∧ (s.bench b).state ≠ .vacant ∧ s.region b n = some r ∧ r.count + 1 < s.hotThreshold b ∧ r.count < 0xFFFFFFFF) ∧
    (let s : State := { small with benches := [(1, small.bench 1)] }
     let b : Nat := 1
     s.running = true ∧ s.headstock.decaySecond < s.now.toNat / 1000000 ∧ s.liveBenches = [b] ∧ s.hotThreshold b ≠ 0) ∧
    (let s : State := { small with headstock := { small.headstock with decayStart := some 4500000 } }
     let d : BitVec 64 := 4500000
     s.headstock.decayStart = some d ∧ d.toNat + 500000 ≤ s.now.toNat) ∧
    (let s : State := { small with headstock := { small.headstock with decayStart := some 4500001 } }
     let d : BitVec 64 := 4500001
     s.headstock.decayStart = some d ∧ s.now.toNat < d.toNat + 500000) := by
  refine ⟨?_, ?_, ?_, ?_, ?_, ?_, ?_, ?_, ?_⟩ <;> decide +kernel

theorem test_witness_InvalidationRing :
    (let s : State := small
     let b : Nat := 1
     let v : BitVec 32 := 0x000C0001
     s.decodes s.mgmtFn.1 s.mgmtFn.2 = true ∧ (s.bench 0).detached = false ∧ b < s.nBenches ∧ (s.bench b).state ≠ .vacant ∧ (s.bench b).invRing.enable = false ∧ v.getLsbD 0 = true ∧ 4 ≤ (v.extractLsb' 16 4).toNat ∧ (v.extractLsb' 16 4).toNat ≤ 12) ∧
    (let s : State := smallInv
     let b : Nat := 1
     let v : BitVec 32 := 16
     s.decodes s.mgmtFn.1 s.mgmtFn.2 = true ∧ (s.bench 0).detached = false ∧ b < s.nBenches ∧ (s.bench b).state ≠ .vacant ∧ (s.bench b).invRing.enable = true ∧ 0 < (v - (s.bench b).invRing.tail).toInt ∧ (v - (s.bench b).invRing.head).toNat ≤ 2 ^ (s.bench b).invRing.log2.toNat) ∧
    (let s : State := smallInv
     let b : Nat := 1
     let v : BitVec 32 := 17
     s.decodes s.mgmtFn.1 s.mgmtFn.2 = true ∧ (s.bench 0).detached = false ∧ b < s.nBenches ∧ (s.bench b).state ≠ .vacant ∧ (s.bench b).invRing.enable = true ∧ 0 < (v - (s.bench b).invRing.tail).toInt ∧ 2 ^ (s.bench b).invRing.log2.toNat < (v - (s.bench b).invRing.head).toNat) ∧
    (let s : State := smallInv
     let b : Nat := 1
     let e : List Byte := invEntry 1 4 255 0 0
     s.invReads b = true ∧ s.migHolds b (field e 8 8) 4096 = false ∧ s.structureHeld .table b = false ∧ field e 0 1 = 1 ∧ 1 ≤ field e 1 1 ∧ field e 1 1 ≤ 4 ∧ zeroBytes e 3 5 = true ∧ zeroBytes e 24 8 = true ∧ invDvaOk e = true ∧ field e 2 1 = 255 ∧ ((s.readInv b).setEntry b (field e 1 1) (field e 8 8) (field e 16 8)).1 = 0) ∧
    (let s : State := smallInv
     let b : Nat := 1
     let c : Nat := 1
     let e : List Byte := invEntry 1 3 255 0 1
     s.invReads b = true ∧ s.migHolds b (field e 8 8) 4096 = false ∧ s.structureHeld .table b = false ∧ field e 0 1 = 1 ∧ 1 ≤ field e 1 1 ∧ field e 1 1 ≤ 4 ∧ zeroBytes e 3 5 = true ∧ zeroBytes e 24 8 = true ∧ invDvaOk e = true ∧ field e 2 1 = 255 ∧ ((s.readInv b).setEntry b (field e 1 1) (field e 8 8) (field e 16 8)).1 = c ∧ c ≠ 0) ∧
    (let s : State := smallTable 0x001000000000000B
     let b : Nat := 1
     let level : Nat := 2
     let dva : Nat := 0
     let v : Nat := 0x002000000000000B
     b < 256 ∧ (((s.tableOf b).pathPage level dva).bind ((s.tableOf b).page level)).isSome = true ∧ nonLeafAt level v = false ∧ 1 ≤ level ∧ level ≤ 4 ∧ v < 2 ^ 64) ∧
    (let s : State := { smallInv with headstock := { smallInv.headstock with cache := [smallLeaf] } }
     let b : Nat := 1
     let e : List Byte := invEntry 2 0 0 0 4096
     s.invReads b = true ∧ s.migHolds b (field e 8 8) (field e 16 8) = false ∧ field e 0 1 = 2 ∧ zeroBytes e 1 7 = true ∧ zeroBytes e 24 8 = true ∧ invDvaOk e = true ∧ field e 16 8 % 4096 = 0 ∧ field e 16 8 ≠ 0 ∧ s.holdersOf b = []) ∧
    (let s : State := smallInv
     let b : Nat := 1
     let e : List Byte := invEntry 3 0 0 0 4096
     s.invReads b = true ∧ s.migHolds b (field e 8 8) (field e 16 8) = false ∧ field e 0 1 = 3 ∧ zeroBytes e 1 7 = true ∧ zeroBytes e 24 8 = true ∧ invDvaOk e = true ∧ field e 16 8 % 4096 = 0 ∧ field e 16 8 ≠ 0 ∧ s.holdersOf b = []) ∧
    (let s : State := smallInv
     let b : Nat := 1
     let e : List Byte := invEntry 4 0 0 0x1000 0x7FFFFFFF
     s.invReads b = true ∧ field e 0 1 = 4 ∧ zeroBytes e 1 7 = true ∧ zeroBytes e 24 8 = true ∧ field e 8 8 % 4 = 0 ∧ field e 16 8 < 2 ^ 31) ∧
    (let s : State := small.modBench 1 fun x => { x with invRing := { x.invRing with token := some (4096, 9), pinFailed := true } }
     let b : Nat := 1
     let a : BitVec 64 := 4096
     let v : BitVec 31 := 9
     b < 256 ∧ (s.bench b).invRing.token = some (a, v) ∧ (s.bench b).invRing.unacked = [] ∧ (s.bench b).invRing.barrier = [] ∧ s.tokenWalks b = false ∧ s.fnMayIssue s.mgmtFn.1 0 = true) ∧
    (let s : State := small.modBench 1 fun x => { x with invRing := { x.invRing with stopped := true, code := 3 } }
     let b : Nat := 1
     s.decodes s.mgmtFn.1 s.mgmtFn.2 = true ∧ (s.bench 0).detached = false ∧ b < s.nBenches ∧ (s.bench b).state ≠ .vacant ∧ (s.bench b).invRing.stopped = true) ∧
    (let s : State := small
     let h : Nat := 3
     let b : Nat := 1
     let i : BitVec 16 := 0
     let e : List Byte := []
     let n : BitVec 32 := 0
     s.guestSlot h b = none) ∧
    (let s : State := { small with cascade := { small.cascade with guests := [(0, some ⟨3, 1, 0, 1, 0, [], .reset, []⟩)] } }
     let u : State := (s.setEntry 256 4 0 1).2
     let h : Nat := 3
     let b : Nat := 1
     let g : Nat := 0
     let i : BitVec 16 := 0
     let e : List Byte := invEntry 1 4 255 0 1
     let n : BitVec 32 := 0
     s.guestSlot h b = some g ∧ ((s.guest g).map Guest.incarn) = some i ∧ field e 0 1 = 1 ∧ u = (s.setEntry (256 + g) (field e 1 1) (field e 8 8) (field e 16 8)).2) ∧
    (let s : State := routed3 { small with cascade := { small.cascade with guests := [(0, some (guestOf []))] } }
     let h : Nat := 3
     let b : Nat := 1
     let g : Nat := 0
     let x : Guest := guestOf []
     let e : List Byte := invEntry 1 4 255 0 1
     let n : BitVec 32 := 5
     s.cascade.guests = [(g, some x)] ∧ x.home = h ∧ x.bench = b ∧ x.unanswered = [] ∧ s.headstock.misses = [] ∧ s.routed h = true ∧ field e 0 1 = 1) ∧
    (let s : State := small
     let h : Nat := 3
     let b : Nat := 1
     let n : BitVec 32 := 0
     (s.bench b).state ≠ .vacant) := by
  refine ⟨?_, ?_, ?_, ?_, ?_, ?_, ?_, ?_, ?_, ?_, ?_, ?_, ?_, ?_, ?_⟩ <;> decide +kernel

theorem test_witness_FaultsAndRegionQueries :
    (let s : State := { small with headstock := { small.headstock with faults := [(4, some (faultIn .posted true))] } }
     let i : Nat := 4
     let f : FaultRec := faultIn .posted true
     s.decodes s.mgmtFn.1 s.mgmtFn.2 = true ∧ (s.bench 0).detached = false ∧ s.fault i = some f ∧ f.state = .posted ∧ f.retries ≠ 0xFFFF) ∧
    (let s : State := { small with headstock := { small.headstock with faults := [(4, some (faultIn .posted true))] } }
     let i : Nat := 4
     let f : FaultRec := faultIn .posted true
     s.decodes s.mgmtFn.1 s.mgmtFn.2 = true ∧ (s.bench 0).detached = false ∧ s.fault i = some f) ∧
    (let s : State := small
     let i : Nat := 4
     let c : Instr := .faultCmdFatal 4
     s.decodes s.mgmtFn.1 s.mgmtFn.2 = true ∧ (s.bench 0).detached = false ∧ s.fault i = none ∧ (c = .faultCmdRetry i ∨ c = .faultCmdFatal i)) ∧
    (let s : State := small
     let v : BitVec 32 := 0x00020001
     s.decodes s.mgmtFn.1 s.mgmtFn.2 = true ∧ (s.bench 0).detached = false) ∧
    (let s : State := { small with headstock := { small.headstock with faults := [(4, some (faultIn .posted true))] } }
     let v : BitVec 32 := 0x00040001
     let i : Nat := 4
     let f : FaultRec := faultIn .posted true
     s.decodes s.mgmtFn.1 s.mgmtFn.2 = true ∧ (s.bench 0).detached = false ∧ s.headstock.faults = [(i, some f)] ∧ i < 4096 ∧ f.bench = (v.extractLsb' 0 8).toNat ∧ (v.extractLsb' 16 12).toNat ≤ i) ∧
    (let s : State := small
     s.running = true) ∧
    (let s : State := small.modBench 1 fun x => { x with regions := [(5, some ⟨2, false, false, false, true, false, 0, 0⟩)] }
     let v : BitVec 64 := 0x0001000000050000
     let k : Nat := 5
     s.decodes s.mgmtFn.1 s.mgmtFn.2 = true ∧ (s.bench 0).detached = false ∧ s.regionFrom (v.extractLsb' 48 8).toNat (v.extractLsb' 16 32).toNat = some k) ∧
    (let s : State := small
     let v : BitVec 64 := 0x0001000000050000
     s.decodes s.mgmtFn.1 s.mgmtFn.2 = true ∧ (s.bench 0).detached = false ∧ s.regionFrom (v.extractLsb' 48 8).toNat (v.extractLsb' 16 32).toNat = none) ∧
    (let s : State := { small with headstock := { small.headstock with queryFound := true } }
     s.running = true ∧ s.headstock.queryFound = true ∧ s.regionFrom s.headstock.queryBench.toNat (s.headstock.queryRegion.toNat + 1) = none) ∧
    (let s : State := { (small.modBench 1 fun x => { x with regions := [(5, some ⟨2, false, false, false, true, false, 0, 0⟩)] }) with headstock := { small.headstock with queryFound := true, queryBench := 1 } }
     let k : Nat := 5
     s.running = true ∧ s.headstock.queryFound = true ∧ s.regionFrom s.headstock.queryBench.toNat (s.headstock.queryRegion.toNat + 1) = some k) := by
  refine ⟨?_, ?_, ?_, ?_, ?_, ?_, ?_, ?_, ?_, ?_⟩ <;> decide +kernel

theorem test_witness_RegisterAccess :
    (let s : State := small
     let a : RegAccess := mgmtAccess 0x10000 []
     let hid : Nat := 7
     a.dap = false ∧ s.decodes a.port a.fn = true ∧ a.offset < 0x100000 ∧ (s.barDomain a = 0 ∨ (s.domainPresent (s.barDomain a) = true ∧ s.domainOn (s.barDomain a) = true))) ∧
    (let s : State := small
     let a : RegAccess := mgmtAccess 0x10014 [1, 2, 3, 4]
     a.dap = false ∧ s.decodes a.port a.fn = true ∧ a.offset < 0x100000 ∧ (s.barDomain a = 0 ∨ (s.domainPresent (s.barDomain a) = true ∧ s.domainOn (s.barDomain a) = true))) ∧
    (let s : State := small
     let c : Instr := .registerWrite (mgmtAccess 0x100000 [1, 2, 3, 4])
     let a : RegAccess := mgmtAccess 0x100000 [1, 2, 3, 4]
     let hid : Nat := 0
     (c = .registerRead a hid ∨ c = .registerWrite a) ∧ a.dap = false ∧ (s.decodes a.port a.fn = false ∨ 0x100000 ≤ a.offset)) ∧
    (let s : State := small
     let p : Nat := 0
     let f : Nat := 0
     let hid : Nat := 7
     s.decodes p f = true ∧ s.mgmtFn = (p, f) ∧ s.chip.grade = .ax5216) ∧
    (let s : State := small
     let p : Nat := 0
     let f : Nat := 0
     let v : BitVec 32 := 0xFFFFFFFF
     s.decodes p f = true ∧ s.mgmtFn = (p, f) ∧ (s.benchOf p f).isSome = true ∧ (s.bench 0).detached = false ∧ s.chip.staged = none) ∧
    (let s : State := small
     let p : Nat := 0
     let f : Nat := 0
     let o : Nat := 0x13FFC
     let hid : Nat := 7
     s.decodes p f = true ∧ s.mgmtFn = (p, f) ∧ 0x10000 ≤ o ∧ o < 0x14000 ∧ o % 4 = 0 ∧ s.hubKind o = .hole) ∧
    (let s : State := small
     let p : Nat := 0
     let f : Nat := 0
     let o : Nat := 0x10011
     let d : List Byte := [1, 2, 3, 4]
     s.decodes p f = true ∧ s.mgmtFn = (p, f) ∧ 0x10000 ≤ o ∧ o < 0x14000 ∧ o % 4 ≠ 0 ∧ hubMap.allAbsent s o 4 = false ∧ (s.benchOf p f).isSome = true ∧ (s.bench 0).detached = false) ∧
    (let s : State := small.modBench 0 fun x => { x with detached := true }
     let p : Nat := 0
     let f : Nat := 0
     let o : Nat := 0x10014
     let d : List Byte := [1, 2, 3, 4]
     s.decodes p f = true ∧ s.mgmtFn = (p, f) ∧ 0x10000 ≤ o ∧ o < 0x14000 ∧ (s.benchOf p f).isSome = true ∧ (s.bench 0).detached = true) := by
  refine ⟨?_, ?_, ?_, ?_, ?_, ?_, ?_, ?_⟩ <;> decide +kernel

theorem test_witness_SmbusAndDebugReads :
    (let s : State := small
     let o : BitVec 24 := 0x10010
     s.smbusOpen = true ∧ o.toNat % 4 = 0) ∧
    (let s : State := small
     let o : BitVec 24 := 0x10011
     let pec : Bool := true
     s.smbusOpen = true ∧ (pec = false ∨ o.toNat % 4 ≠ 0)) ∧
    (let s : State := { small with chip := { small.chip with smbusPtr := 0x10000 } }
     s.smbusOpen = true ∧ s.chip.smbusPtr = 0x10000 ∧ s.chip.grade = .ax5216) ∧
    (let s : State := { small with chip := { small.chip with smbusPtr := 0x11010 } }
     s.smbusOpen = true ∧ smbusReadable s.chip.smbusPtr.toNat = false) ∧
    (let s : State := { small with dbg := { small.dbg with busy := true } }
     s.smbusOpen = true) ∧
    (let s : State := small
     let v : BitVec 16 := 0xA5C2
     let pec : Bool := true
     s.smbusOpen = true ∧ (v ≠ 0xA5C3 ∨ pec = false)) ∧
    (let s : State := smallDap
     let a : Nat := 0x10000
     s.chip.powered = true ∧ s.dbg.attached = true ∧ s.dbg.observes = true ∧ s.dbg.busy = false ∧ 0x10000 ≤ a ∧ a < 0x14000) ∧
    (let s : State := { smallDap with dbg := { smallDap.dbg with level := 3 } }
     let q : Bool := true
     let a : Nat := 0x10008
     s.chip.powered = true ∧ s.dbg.attached = true ∧ s.dbg.observes = false ∧ s.dbg.full = false ∧ (q = false ∨ (a ≠ 0x10000 ∧ a ≠ 0x10004))) ∧
    (let s : State := smallDap
     let a : Nat := 0x80000
     let v : BitVec 32 := 0
     s.chip.powered = true ∧ s.dbg.attached = true ∧ (s.dbg.full = false ∨ s.dbg.dapWrite = false ∨ a / 4 = 0x20000)) ∧
    (let s : State := smallDap
     let v : BitVec 32 := 5
     s.running = true ∧ s.dbg.attached = true ∧ s.dbg.full = true ∧ s.dbg.dapWrite = true ∧ s.dbg.busy = false ∧ (s.bench 0).detached = false ∧ s.chip.staged = none) ∧
    (let s : State := smallDap
     let a : BitVec 64 := BitVec.ofNat 64 (ledgerBase + 63)
     s.chip.powered = true ∧ s.dbg.attached = true ∧ s.dbg.observes = true ∧ s.dbg.busy = false ∧ ledgerBase ≤ a.toNat / 64 * 64 ∧ a.toNat / 64 * 64 < ledgerBase + s.ledgerBytes ∧ s.domainOn 8 = true) ∧
    (let s : State := smallDap
     let a : BitVec 64 := 0
     s.chip.powered = true ∧ s.dbg.attached = true ∧ s.dbg.observes = true ∧ s.dbg.busy = false ∧ (s.nDies ≤ a.toNat / 64 * 64 / 2 ^ 36 ∨ (s.die (a.toNat / 64 * 64 / 2 ^ 36)).state ≠ .up)) ∧
    (let s : State := { smallDap with spindles := [(0, { Spindle.reset with state := .up })] }
     let a : BitVec 64 := 130
     let d : Nat := 0
     let o : Nat := 128
     s.chip.powered = true ∧ s.dbg.attached = true ∧ s.dbg.observes = true ∧ s.dbg.busy = false ∧ d = a.toNat / 64 * 64 / 2 ^ 36 ∧ o = a.toNat / 64 * 64 % 2 ^ 36 ∧ d < s.nDies ∧ o < dieBytes ∧ (s.die d).state = .up ∧ (s.die d).queue = [] ∧ (s.die d).room false 0 = true) ∧
    (let s : State := { small with dbg := { small.dbg with busy := true, space := 1 } }
     let d : List Byte := List.replicate 64 3
     s.dbg.busy = true ∧ s.dbg.space ≠ 0 ∧ s.unsent .dap = false) ∧
    (let s : State := { small with dbg := { small.dbg with busy := true, space := 1 } }
     s.dbg.busy = true ∧ s.dbg.space ≠ 0 ∧ s.unsent .dap = false) := by
  refine ⟨?_, ?_, ?_, ?_, ?_, ?_, ?_, ?_, ?_, ?_, ?_, ?_, ?_, ?_, ?_⟩ <;> decide +kernel

theorem test_witness_WhittlerDebug :
    (let s : State := smallDap
     let w : Nat := 0
     let l : List LockHeld := []
     s.chip.powered = true ∧ s.dbg.attached = true ∧ s.dbg.mayHalt = true ∧ s.whittlerRuns w = true ∧ 5 ≤ s.groupRunning w) ∧
    (let s : State := (List.range 12).foldl (fun s i => s.modWhittler i fun x => { x with fenced := true }) smallDap
     let w : Nat := 15
     let l : List LockHeld := []
     s.chip.powered = true ∧ s.dbg.attached = true ∧ s.dbg.mayHalt = true ∧ (s.whittler w).halted = false ∧ (s.whittlerRuns w = false ∨ s.groupRunning w < 5)) ∧
    (let s : State := smallDap
     let w : Nat := 3
     s.chip.powered = true ∧ s.dbg.attached = true ∧ s.dbg.mayHalt = true) ∧
    (let s : State := smallDap.modWhittler 3 fun x => { x with halted := true }
     let w : Nat := 3
     s.chip.powered = true ∧ s.dbg.attached = true ∧ s.dbg.mayHalt = true ∧ (s.whittler w).halted = true) ∧
    (let s : State := smallDap
     let w : Nat := 3
     let h : Bool := true
     s.chip.powered = true ∧ s.dbg.attached = true ∧ s.dbg.mayHonour = true ∧ w < s.nWhittlers) ∧
    (let s : State := small
     let v : BitVec 32 := 6
     s.decodes s.mgmtFn.1 s.mgmtFn.2 = true ∧ (s.bench 0).detached = false) ∧
    (let s : State := { smallDap with dbg := { smallDap.dbg with haltAllow := false } }
     let c : Instr := .whittlerStep 3
     let w : Nat := 3
     let l : List LockHeld := []
     (c = .whittlerHalt w l ∨ c = .whittlerStep w ∨ c = .whittlerResume w) ∧ s.chip.powered = true ∧ s.dbg.attached = true ∧ s.dbg.mayHalt = false) := by
  refine ⟨?_, ?_, ?_, ?_, ?_, ?_, ?_⟩ <;> decide +kernel

theorem test_witness_FlashProgramming :
    (let s : State := { small with chip := { small.chip with search := { small.chip.search with density := 25 } } }
     let b : Bool := false
     let n : Nat := 256
     s.decodes s.mgmtFn.1 s.mgmtFn.2 = true ∧ (s.bench 0).detached = false ∧ s.chip.flash.busy = false ∧ s.slotSelected b = false ∧ s.chip.search.density ≠ 0 ∧ s.flashRange 1 s.chip.flash.addr.toNat n = true) ∧
    (let s : State := { small with chip := { small.chip with search := { small.chip.search with density := 25 }, flash := { small.chip.flash with addr := 0xFF } } }
     let b : Bool := false
     let n : Nat := 1
     s.decodes s.mgmtFn.1 s.mgmtFn.2 = true ∧ (s.bench 0).detached = false ∧ s.chip.flash.busy = false ∧ s.slotSelected b = false ∧ s.chip.search.density ≠ 0 ∧ s.flashRange 2 s.chip.flash.addr.toNat n = true) ∧
    (let s : State := { small with chip := { small.chip with search := { small.chip.search with density := 25 }, flash := { small.chip.flash with addr := 0x1000 } } }
     let b : Bool := true
     s.decodes s.mgmtFn.1 s.mgmtFn.2 = true ∧ (s.bench 0).detached = false ∧ s.chip.flash.busy = false ∧ s.slotSelected b = false ∧ s.chip.search.density ≠ 0 ∧ s.flashRange 3 s.chip.flash.addr.toNat 0 = true) ∧
    (let s : State := { small with chip := { small.chip with cfgSource := 1 } }
     let c : Instr := .flashErase4k true
     let b : Bool := true
     let n : Nat := 0
     (c = .flashRead b n ∨ c = .flashProgram b n ∨ c = .flashErase4k b) ∧ s.decodes s.mgmtFn.1 s.mgmtFn.2 = true ∧ (s.bench 0).detached = false ∧ s.chip.flash.busy = false ∧ s.slotSelected b = true) ∧
    (let s : State := { small with chip := { small.chip with flash := { small.chip.flash with busy := true } } }
     let c : Instr := .flashErase4k true
     let b : Bool := true
     let n : Nat := 0
     (c = .flashRead b n ∨ c = .flashProgram b n ∨ c = .flashErase4k b) ∧ s.decodes s.mgmtFn.1 s.mgmtFn.2 = true ∧ (s.bench 0).detached = false ∧ s.chip.flash.busy = true) ∧
    (let s : State := { small with chip := { small.chip with flash := { small.chip.flash with busy := true, running := some (1, false, 0, 2) } } }
     let op : Nat := 1
     let off : Nat := 0
     let n : Nat := 2
     let b : Bool := false
     let d : List Byte := [1, 2]
     s.chip.flash.running = some (op, b, off, n)) ∧
    (let s : State := { small with chip := { small.chip with flash := { small.chip.flash with busy := true, running := some (3, false, 0, 2) } } }
     let op : Nat := 3
     let off : Nat := 0
     let n : Nat := 2
     let b : Bool := false
     s.chip.flash.running = some (op, b, off, n) ∧ op ≠ 1 ∧ s.chip.flash.since.toNat + (if op = 3 then 5000000 else 10000) ≤ s.now.toNat) ∧
    (let s : State := { small with chip := { small.chip with flash := { small.chip.flash with running := some (3, false, 0, 4), since := 1 } } }
     let op : Nat := 3
     let off : Nat := 0
     let n : Nat := 4
     let b : Bool := false
     s.chip.flash.running = some (op, b, off, n) ∧ (op = 1 ∨ s.now.toNat < s.chip.flash.since.toNat + (if op = 3 then 5000000 else 10000))) := by
  refine ⟨?_, ?_, ?_, ?_, ?_, ?_, ?_, ?_⟩ <;> decide +kernel

theorem test_witness_SweepsAndRecovery :
    (let s : State := smallSweep .settle false
     let b : Nat := 1
     let w : Sweep := ⟨.settle, false, false, 0, [], false, 0⟩
     s.sweepAt b .settle = true ∧ (s.bench b).sweep = some w ∧ w.since.toNat + 1000 ≤ s.now.toNat) ∧
    (let s : State := { smallSweep .settle false with hearth := { small.hearth with time := 999 } }
     let b : Nat := 1
     let w : Sweep := ⟨.settle, false, false, 0, [], false, 0⟩
     (s.bench b).sweep = some w ∧ s.now.toNat < w.since.toNat + 1000) ∧
    (let s : State := smallSweep .cut false
     let b : Nat := 1
     s.sweepAt b .cut = true ∧ (b ≠ 0 ∨ s.commandRuns = false)) ∧
    (let s : State := smallSweep .drain false
     let b : Nat := 1
     s.sweepAt b .drain = true ∧ s.dieWrites b = 0) ∧
    (let s : State := { smallSweep .drain false with lathes := [(0, { Lathe.reset with writes := [⟨0, 1, 0, 0, 0, some 0, none, 0, true, 0, 64, false⟩] })] }
     let b : Nat := 1
     s.sweepAt b .drain = true ∧ s.dieWrites b ≠ 0) ∧
    (let s : State := smallSweep .locks false
     let b : Nat := 1
     s.sweepAt b .locks = true ∧ s.locksFree b = true) ∧
    (let s : State := smallSweep .locks false
     let b : Nat := 1
     s.sweepAt b .locks = true ∧ s.locksFree b = true ∧ (∀ p ∈ s.placements, p.home ≠ s.hubId ∨ p.bench ≠ b)) ∧
    (let s : State := smallSweep .reclaim true
     let b : Nat := 1
     let w : Sweep := ⟨.reclaim, true, false, 0, [], false, 0⟩
     b ≠ 0 ∧ s.sweepAt b .reclaim = true ∧ (s.bench b).sweep = some w ∧ w.placements = [] ∧ w.release = true) ∧
    (let s : State := smallSweep .reclaim false
     let b : Nat := 1
     let w : Sweep := ⟨.reclaim, false, false, 0, [], false, 0⟩
     b ≠ 0 ∧ s.sweepAt b .reclaim = true ∧ (s.bench b).sweep = some w ∧ w.placements = [] ∧ w.release = false) ∧
    (let s : State := { small with recovery := { small.recovery with locks := [⟨.task, 1, 3, 5000000, none, false⟩], whittlers := [(3, { Whittler.reset with halted := true })] } }
     let l : Lock := ⟨.task, 1, 3, 5000000, none, false⟩
     s.recovery.locks = [l] ∧ l.broken = false ∧ l.frozen = none ∧ l.expiry.toNat ≤ s.now.toNat ∧ (s.whittler l.whittler).halted = true ∧ s.domainOn 8 = true) ∧
    (let s : State := smallLocks [⟨.task, 1, 3, 5000001, none, false⟩]
     let i : Nat := 0
     let l : Lock := ⟨.task, 1, 3, 5000001, none, false⟩
     s.recovery.locks[i]? = some l ∧ (l.broken = true ∨ l.frozen.isSome = true ∨ s.now.toNat < l.expiry.toNat)) ∧
    (let s : State := small
     let w : Nat := 3
     s.running = true ∧ s.whittlerRuns w = true ∧ (s.whittler w).resets = [] ∧ s.recovery.locks = []) ∧
    (let s : State := small.modWhittler 3 fun x => { x with resets := [4000001, 4000001] }
     let w : Nat := 3
     let a : BitVec 64 := 4000001
     let b : BitVec 64 := 4000001
     s.running = true ∧ s.whittlerRuns w = true ∧ (s.whittler w).resets = [a, b] ∧ s.now.toNat < a.toNat + 1000000 ∧ s.now.toNat < b.toNat + 1000000) ∧
    (let s : State := small
     s.running = true) ∧
    (let s : State := { small with recovery := { small.recovery with log := [(0, some ⟨0, 4, 1, true, false, 0, 0, 0⟩)], logSeq := 1 } }
     let n : Nat := 0
     let e : LogEntry := ⟨0, 4, 1, true, false, 0, 0, 0⟩
     s.running = true ∧ tabGet s.recovery.log none s.recovery.logIndex.toNat = some e ∧ e.seq.toNat % 1024 = s.recovery.logIndex.toNat) ∧
    (let s : State := { small with recovery := { small.recovery with mirror := [(63, some ⟨63, 4, 1, true, false, 0, 0, 0⟩)], logSeq := 64 } }
     let n : Nat := 63
     let e : LogEntry := ⟨63, 4, 1, true, false, 0, 0, 0⟩
     s.chip.powered = true ∧ s.chip.phase ≠ .restarting ∧ tabGet s.recovery.mirror none n = some e ∧ e.seq.toNat % 64 = n) ∧
    (let s : State := { small with chip := { small.chip with phase := .restarting }, recovery := { small.recovery with mirror := [(7, some ⟨7, 1, 1, true, false, 0, 0, 0⟩)] } }
     let n : Nat := 7
     let e : LogEntry := ⟨7, 1, 1, true, false, 0, 0, 0⟩
     s.chip.powered = true ∧ s.chip.phase = .restarting ∧ tabGet s.recovery.mirror none n = some e ∧ e.seq.toNat % 64 = n ∧ (e.cls = 1 ∨ e.cls = 2)) := by
  refine ⟨?_, ?_, ?_, ?_, ?_, ?_, ?_, ?_, ?_, ?_, ?_, ?_, ?_, ?_, ?_, ?_, ?_⟩ <;> decide +kernel

theorem test_witness_RingControl :
    (let s : State := smallRing (ringIn .disabled)
     let b : Nat := 1
     let r : Nat := 0
     let v : BitVec 32 := 0
     s.decodes (s.bench b).port (s.bench b).fn = true ∧ s.benchServes b = true ∧ r < (s.bench b).ringCount ∧ s.domainOn (clusterDomain (s.ring b r).clusterB) = true ∧ (s.ring b r).state = .disabled ∧ (s.ring b r).sizeOk = true ∧ v.getLsbD 4 = false) ∧
    (let s : State := smallRing { ringIn .disabled with log2 := 17 }
     let b : Nat := 1
     let r : Nat := 0
     let v : BitVec 32 := 0
     s.decodes (s.bench b).port (s.bench b).fn = true ∧ s.benchServes b = true ∧ r < (s.bench b).ringCount ∧ s.domainOn (clusterDomain (s.ring b r).clusterB) = true ∧ (s.ring b r).state = .disabled ∧ (s.ring b r).sizeOk = false) ∧
    (let s : State := smallRing (ringIn .idle)
     let b : Nat := 1
     let r : Nat := 0
     let v : BitVec 32 := 0
     s.decodes (s.bench b).port (s.bench b).fn = true ∧ s.benchServes b = true ∧ r < (s.bench b).ringCount ∧ s.domainOn (clusterDomain (s.ring b r).clusterB) = true ∧ (s.ring b r).disabling = false ∧ (s.ring b r).state = .idle ∧ ringMode v = (s.ring b r).mode ∧ v.getLsbD 2 = false ∧ v.getLsbD 3 = false) ∧
    (let s : State := smallRing (ringIn .running)
     let b : Nat := 1
     let r : Nat := 0
     let v : BitVec 32 := 0
     s.decodes (s.bench b).port (s.bench b).fn = true ∧ s.benchServes b = true ∧ r < (s.bench b).ringCount ∧ s.domainOn (clusterDomain (s.ring b r).clusterB) = true ∧ (s.ring b r).state = .running ∧ ringMode v = (s.ring b r).mode ∧ v.getLsbD 3 = false) ∧
    (let s : State := smallRing { ringIn .idle with disabling := true }
     let b : Nat := 1
     let r : Nat := 0
     (s.ring b r).disabling = true ∧ s.ringWrites b r = 0) ∧
    (let s : State := smallRing { ringIn .running with tail := 1 }
     let b : Nat := 1
     let r : Nat := 0
     let v : BitVec 32 := 1
     s.decodes (s.bench b).port (s.bench b).fn = true ∧ s.benchServes b = true ∧ r < (s.bench b).ringCount ∧ s.domainOn (clusterDomain (s.ring b r).clusterB) = true ∧ (s.ring b r).disabling = false ∧ ((s.ring b r).state = .idle ∨ (s.ring b r).state = .running) ∧ (s.ring b r).descs = [] ∧ ringMode v = (s.ring b r).mode ∧ v.getLsbD 0 = true ∧ v.getLsbD 2 = false ∧ v.getLsbD 3 = false) ∧
    (let s : State := smallRing { ringIn .paused with tail := 1, pause := true }
     let b : Nat := 1
     let r : Nat := 0
     let v : BitVec 32 := 3
     s.decodes (s.bench b).port (s.bench b).fn = true ∧ s.benchServes b = true ∧ r < (s.bench b).ringCount ∧ s.domainOn (clusterDomain (s.ring b r).clusterB) = true ∧ (s.ring b r).disabling = false ∧ (s.ring b r).fetchFailed = false ∧ (s.ring b r).state = .paused ∧ ringMode v = (s.ring b r).mode ∧ v.getLsbD 0 = true ∧ v.getLsbD 2 = false ∧ v.getLsbD 3 = false) ∧
    (let s : State := smallRing { ringIn .parked with tail := 1, park := .error }
     let b : Nat := 1
     let r : Nat := 0
     let v : BitVec 32 := 1
     s.decodes (s.bench b).port (s.bench b).fn = true ∧ s.benchServes b = true ∧ r < (s.bench b).ringCount ∧ s.domainOn (clusterDomain (s.ring b r).clusterB) = true ∧ (s.ring b r).disabling = false ∧ (s.ring b r).mayResume = true ∧ ringMode v = (s.ring b r).mode ∧ v.getLsbD 0 = true ∧ v.getLsbD 1 = false ∧ v.getLsbD 3 = false) ∧
    (let s : State := smallRing (ringIn .running)
     let b : Nat := 1
     let r : Nat := 0
     let v : BitVec 32 := 1
     s.decodes (s.bench b).port (s.bench b).fn = true ∧ s.benchServes b = true ∧ r < (s.bench b).ringCount ∧ s.domainOn (clusterDomain (s.ring b r).clusterB) = true ∧ (s.ring b r).state ≠ .disabled ∧ ringMode v = (s.ring b r).mode) ∧
    (let s : State := smallRing (ringIn .aborting)
     let b : Nat := 1
     let r : Nat := 0
     (s.ring b r).state = .aborting ∧ s.ringWrites b r = 0 ∧ (s.ring b r).flushing = false) ∧
    (let s : State := small
     let c : Instr := .ringPause 1 2 0
     let b : Nat := 1
     let r : Nat := 2
     let v : BitVec 32 := 0
     s.decodes (s.bench b).port (s.bench b).fn = true ∧ s.benchServes b = true ∧ (s.bench b).ringCount ≤ r ∧ (s.bench b).staged = none ∧ (c = .ringEnable b r v ∨ c = .ringDisable b r v ∨ c = .ringPause b r v ∨ c = .ringUnpause b r v ∨ c = .ringResume b r v ∨ c = .ringAbort b r v ∨ c = .doorbell b r v)) ∧
    (let s : State := (smallRing (ringIn .disabled)).modPort 0 fun x => { x with cxl := false }
     let b : Nat := 1
     let r : Nat := 0
     let v : BitVec 32 := 0x11
     s.decodes (s.bench b).port (s.bench b).fn = true ∧ s.benchServes b = true ∧ r < (s.bench b).ringCount ∧ s.domainOn (clusterDomain (s.ring b r).clusterB) = true ∧ (s.ring b r).state = .disabled ∧ (s.ring b r).sizeOk = true ∧ v.getLsbD 4 = true ∧ (s.port (s.bench b).port).cxl = false) ∧
    (let s : State := { smallRing { ringIn .idle with disabling := true } with lathes := [(0, { Lathe.reset with writes := [⟨0, 1, 0, 0, 0, some 0, none, 0, true, 0, 64, false⟩] })] }
     let b : Nat := 1
     let r : Nat := 0
     (s.ring b r).disabling = true ∧ s.ringWrites b r ≠ 0) ∧
    (let s : State := smallRing { ringIn .idle with disabling := true }
     let b : Nat := 1
     let r : Nat := 0
     let v : BitVec 32 := 0
     s.decodes (s.bench b).port (s.bench b).fn = true ∧ s.benchServes b = true ∧ r < (s.bench b).ringCount ∧ s.domainOn (clusterDomain (s.ring b r).clusterB) = true ∧ (s.ring b r).state ≠ .disabled ∧ (s.ring b r).disabling = true ∧ v.getLsbD 3 = false ∧ (s.bench b).staged = none) := by
  refine ⟨?_, ?_, ?_, ?_, ?_, ?_, ?_, ?_, ?_, ?_, ?_, ?_, ?_, ?_⟩ <;> decide +kernel

theorem test_witness_DoorbellsAndKnocks :
    (let s : State := smallRing (ringIn .idle)
     let b : Nat := 1
     let r : Nat := 0
     let v : BitVec 32 := 16
     s.decodes (s.bench b).port (s.bench b).fn = true ∧ s.benchServes b = true ∧ r < (s.bench b).ringCount ∧ s.domainOn (clusterDomain (s.ring b r).clusterB) = true ∧ s.putOpen (s.bench b).port (s.bench b).fn false = false ∧ s.bar2Head (s.bench b).port (s.bench b).fn = none ∧ (s.ring b r).disabling = false ∧ ((s.ring b r).state = .idle ∨ (s.ring b r).state = .running) ∧ (s.ring b r).pause = false ∧ 0 < (v - (s.ring b r).tail).toInt ∧ (v - (s.ring b r).head).toNat ≤ 2 ^ (s.ring b r).log2.toNat) ∧
    (let s : State := smallRing (ringIn .idle)
     let b : Nat := 1
     let r : Nat := 0
     let v : BitVec 32 := 0xFFFFFFFF
     s.decodes (s.bench b).port (s.bench b).fn = true ∧ s.benchServes b = true ∧ r < (s.bench b).ringCount ∧ s.domainOn (clusterDomain (s.ring b r).clusterB) = true ∧ s.putOpen (s.bench b).port (s.bench b).fn false = false ∧ s.bar2Head (s.bench b).port (s.bench b).fn = none ∧ (s.ring b r).disabling = false ∧ ((s.ring b r).state = .idle ∨ (s.ring b r).state = .running) ∧ (v - (s.ring b r).tail).toInt ≤ 0) ∧
    (let s : State := smallRing (ringIn .idle)
     let b : Nat := 1
     let r : Nat := 0
     let v : BitVec 32 := 17
     s.decodes (s.bench b).port (s.bench b).fn = true ∧ s.benchServes b = true ∧ r < (s.bench b).ringCount ∧ s.domainOn (clusterDomain (s.ring b r).clusterB) = true ∧ s.putOpen (s.bench b).port (s.bench b).fn false = false ∧ s.bar2Head (s.bench b).port (s.bench b).fn = none ∧ (s.ring b r).disabling = false ∧ ((s.ring b r).state = .idle ∨ (s.ring b r).state = .running) ∧ 0 < (v - (s.ring b r).tail).toInt ∧ 2 ^ (s.ring b r).log2.toNat < (v - (s.ring b r).head).toNat) ∧
    (let s : State := smallRing { ringIn .parked with park := .host }
     let b : Nat := 1
     let r : Nat := 0
     let v : BitVec 32 := 1
     s.decodes (s.bench b).port (s.bench b).fn = true ∧ s.benchServes b = true ∧ r < (s.bench b).ringCount ∧ s.domainOn (clusterDomain (s.ring b r).clusterB) = true ∧ s.putOpen (s.bench b).port (s.bench b).fn false = false ∧ s.bar2Head (s.bench b).port (s.bench b).fn = none ∧ (s.ring b r).disabling = false ∧ (s.ring b r).state ≠ .disabled ∧ (s.ring b r).state ≠ .aborting) ∧
    (let s : State := smallRing (ringIn .aborting)
     let b : Nat := 1
     let r : Nat := 0
     let v : BitVec 32 := 1
     s.decodes (s.bench b).port (s.bench b).fn = true ∧ s.benchServes b = true ∧ r < (s.bench b).ringCount ∧ s.domainOn (clusterDomain (s.ring b r).clusterB) = true ∧ s.putOpen (s.bench b).port (s.bench b).fn false = false ∧ s.bar2Head (s.bench b).port (s.bench b).fn = none ∧ (s.ring b r).state ≠ .disabled ∧ ((s.ring b r).state = .aborting ∨ (s.ring b r).disabling = true)) ∧
    (let s : State := smallRing (ringIn .disabled)
     let b : Nat := 1
     let r : Nat := 0
     let v : BitVec 32 := 16
     s.decodes (s.bench b).port (s.bench b).fn = true ∧ s.benchServes b = true ∧ r < (s.bench b).ringCount ∧ s.domainOn (clusterDomain (s.ring b r).clusterB) = true ∧ s.putOpen (s.bench b).port (s.bench b).fn false = false ∧ s.bar2Head (s.bench b).port (s.bench b).fn = none ∧ (s.ring b r).state = .disabled) ∧
    (let s : State := { smallRing (ringIn .idle) with bar2Writes := [⟨0, 0, 0, 1, false⟩] }
     let b : Nat := 1
     let r : Nat := 0
     let v : BitVec 32 := 1
     s.decodes (s.bench b).port (s.bench b).fn = true ∧ s.benchServes b = true ∧ r < (s.bench b).ringCount ∧ s.domainOn (clusterDomain (s.ring b r).clusterB) = true ∧ (s.putOpen (s.bench b).port (s.bench b).fn false = true ∨ (s.bar2Head (s.bench b).port (s.bench b).fn).isSome = true)) ∧
    (let s : State := smallRing { ringIn .idle with knock := .acquiring, knockEn := true }
     let b : Nat := 1
     let r : Nat := 0
     let v : BitVec 32 := 16
     (s.ring b r).knock = .acquiring ∧ s.benchLive b = true ∧ (s.bench b).detached = false ∧ (s.port (s.bench b).port).cxl = true) ∧
    (let s : State := (smallRing { ringIn .idle with knockEn := true, knock := .held, knockLine := some 4096 }).modFn 0 1 fun x => { x with atsEn := true }
     let b : Nat := 1
     let r : Nat := 0
     let a : Nat := 4096
     s.benchLive b = true ∧ (s.port (s.bench b).port).cxl = true ∧ (s.ring b r).knock = .held ∧ s.domainOn (clusterDomain (s.ring b r).clusterB) = true ∧ (s.ring b r).knockLine = some a ∧ (s.fnAt (s.bench b).port (s.bench b).fn).atsEn = true ∧ s.mayUsePort b = true) ∧
    (let s : State := (smallRing { ringIn .idle with knockEn := true, knock := .held, knockLine := some 4096 }).modFn 0 1 fun x => { x with atsEn := true, busMaster := false }
     let b : Nat := 1
     let r : Nat := 0
     let a : Nat := 4096
     s.benchLive b = true ∧ (s.port (s.bench b).port).cxl = true ∧ (s.ring b r).knock = .held ∧ s.domainOn (clusterDomain (s.ring b r).clusterB) = true ∧ (s.ring b r).knockLine = some a ∧ (s.fnAt (s.bench b).port (s.bench b).fn).atsEn = true ∧ s.mayUsePort b = false) ∧
    (let s : State := smallRing { ringIn .idle with knock := .held, knockEn := true, knockLine := some 0x7000 }
     let b : Nat := 1
     let r : Nat := 0
     let a : Nat := 0x7000
     s.benchLive b = true ∧ (s.port (s.bench b).port).cxl = true ∧ (s.ring b r).knock = .held ∧ s.domainOn (clusterDomain (s.ring b r).clusterB) = true ∧ (s.ring b r).knockLine = some a ∧ (s.fnAt (s.bench b).port (s.bench b).fn).atsEn = false) ∧
    (let s : State := smallRing (ringIn .idle)
     let b : Nat := 1
     let r : Nat := 0
     (s.port (s.bench b).port).cxl = true ∧ (s.ring b r).knock ≠ .held) ∧
    (let s : State := smallRing { ringIn .idle with knock := .held, knockEn := true }
     let b : Nat := 1
     let r : Nat := 0
     (s.port (s.bench b).port).cxl = true) ∧
    (let s : State := (smallRing (ringIn .idle)).modPort 0 fun x => { x with cxl := false }
     let b : Nat := 1
     let r : Nat := 0
     let c : Instr := .snpinv 1 0
     (c = .snpinv b r ∨ c = .snpdata b r) ∧ (s.port (s.bench b).port).cxl = false) ∧
    (let s : State := smallRing { ringIn .idle with knock := .held, knockEn := true, knockLine := some 0x7000 }
     let b : Nat := 1
     let r : Nat := 0
     let a : Nat := 0x7000
     let m : CxlMsg := .rdShared
     (s.ring b r).knockLine = some a) ∧
    (let s : State := smallRing { ringIn .idle with knock := .polling, knockAddr := 4096 }
     let b : Nat := 1
     let r : Nat := 0
     let a : Nat := 4096
     let tr : Bool := false
     let v : BitVec 32 := 1
     (s.ring b r).knock = .polling ∧ (s.ring b r).disabling = false ∧ s.mayUsePort b = true ∧ s.ringAt b r (s.ring b r).knockAddr.toNat false = .addr a tr ∧ (s.port (s.bench b).port).tagFree = true ∧ s.domainWorks (clusterDomain (s.ring b r).clusterB) = true) ∧
    (let s : State := smallRing { ringIn .running with ownStop := true }
     let b : Nat := 1
     let r : Nat := 0
     (s.ring b r).ownStop = true ∧ (s.ring b r).pause = false ∧ (s.ring b r).state ≠ .disabled) ∧
    (let s : State := smallRing (ringIn .idle)
     let b : Nat := 1
     let r : Nat := 0
     ((s.ring b r).ownStop = false ∨ (s.ring b r).pause = true ∨ (s.ring b r).state = .disabled)) := by
  refine ⟨?_, ?_, ?_, ?_, ?_, ?_, ?_, ?_, ?_, ?_, ?_, ?_, ?_, ?_, ?_, ?_, ?_, ?_⟩ <;> decide +kernel

theorem test_witness_FetchAndCompletion :
    (let s : State := smallRing { ringIn .running with tail := 1 }
     let u : State := (s.readRing 1 0 ((s.ring 1 0).entry (s.ring 1 0).fetchNext) 64 (s.ring 1 0).coherent).1.getD s
     let b : Nat := 1
     let r : Nat := 0
     let y : List Byte := descBytes 0x10 []
     s.mayFetch b r = true ∧ s.mayUsePort b = true ∧ (s.readRing b r ((s.ring b r).entry (s.ring b r).fetchNext) 64 (s.ring b r).coherent).1 = some u ∧ ownOf (slice y 0 64) = true ∧ fetchCheck (slice y 0 64) = none) ∧
    (let s : State := smallRing { ringIn .running with tail := 1 }
     let u : State := (s.readRing 1 0 ((s.ring 1 0).entry (s.ring 1 0).fetchNext) 64 (s.ring 1 0).coherent).1.getD s
     let b : Nat := 1
     let r : Nat := 0
     let k : Nat := 0
     let y : List Byte := descBytes 0xFF []
     s.mayFetch b r = true ∧ s.mayUsePort b = true ∧ (s.readRing b r ((s.ring b r).entry (s.ring b r).fetchNext) 64 (s.ring b r).coherent).1 = some u ∧ ownOf (slice y 0 64) = true ∧ fetchCheck (slice y 0 64) = some k) ∧
    (let s : State := smallRing { ringIn .running with tail := 1 }
     let u : State := (s.readRing 1 0 ((s.ring 1 0).entry (s.ring 1 0).fetchNext) 64 (s.ring 1 0).coherent).1.getD s
     let b : Nat := 1
     let r : Nat := 0
     let y : List Byte := List.replicate 64 0
     s.mayFetch b r = true ∧ s.mayUsePort b = true ∧ (s.readRing b r ((s.ring b r).entry (s.ring b r).fetchNext) 64 (s.ring b r).coherent).1 = some u ∧ ownOf (slice y 0 64) = false) ∧
    (let s : State := smallRing { ringIn .running with tail := 1 }
     let u : State := (s.readRing 1 0 ((s.ring 1 0).entry (s.ring 1 0).fetchNext) 64 (s.ring 1 0).coherent).1.getD s
     let b : Nat := 1
     let r : Nat := 0
     s.mayFetch b r = true ∧ s.mayUsePort b = true ∧ (s.readRing b r ((s.ring b r).entry (s.ring b r).fetchNext) 64 (s.ring b r).coherent).1 = some u ∧ (s.ring b r).descs = []) ∧
    (let s : State := smallRing { ringIn .running with tail := 2, fetchNext := 1, descs := [readyDesc (descBytes 0x10 [])] }
     let u : State := (s.readRing 1 0 ((s.ring 1 0).entry (s.ring 1 0).fetchNext) 64 (s.ring 1 0).coherent).1.getD s
     let b : Nat := 1
     let r : Nat := 0
     s.mayFetch b r = true ∧ s.mayUsePort b = true ∧ (s.readRing b r ((s.ring b r).entry (s.ring b r).fetchNext) 64 (s.ring b r).coherent).1 = some u ∧ (s.ring b r).descs ≠ []) ∧
    (let s : State := smallRing { ringIn .running with tail := 1, pasidEn := true }
     let u : State := (s.readRing 1 0 ((s.ring 1 0).entry (s.ring 1 0).fetchNext) 64 (s.ring 1 0).coherent).2
     let b : Nat := 1
     let r : Nat := 0
     let x : FetchResult := .hostError
     (s.readRing b r ((s.ring b r).entry (s.ring b r).fetchNext) 64 (s.ring b r).coherent) = (none, u) ∧ s.mayFetch b r = true ∧ s.mayUsePort b = true) ∧
    (let s : State := smallRing (ringIn .running)
     let b : Nat := 1
     let r : Nat := 0
     let va : Nat := 4096
     let n : Nat := 64
     let a : Nat := 4096
     let tr : Bool := false
     s.ringAt b r va false = .addr a tr ∧ (s.port (s.bench b).port).tagFree = true) ∧
    (let s : State := (smallRing { ringIn .running with pasidEn := true }).modFn 0 1 fun x => { x with atsEn := true }
     let b : Nat := 1
     let r : Nat := 0
     let va : Nat := 4096
     let n : Nat := 64
     let c : Bool := false
     s.ringAt b r va false = .miss ∧ (c = true → s.mayCxl b = true → (s.fnAt (s.bench b).port (s.bench b).fn).atsEn = true → s.ringHost b r va = none)) ∧
    (let s : State := { (smallRing (ringIn .running)).modFn 0 1 (fun x => { x with atsEn := true }) with headstock := { small.headstock with cache := [⟨0, 1, false, noPasid, 12, 1, 1, 32768, true, false, false, false⟩] } }
     let b : Nat := 1
     let r : Nat := 0
     let va : Nat := 4096
     let n : Nat := 64
     let a : Nat := 32768
     s.mayCxl b = true ∧ (s.fnAt (s.bench b).port (s.bench b).fn).atsEn = true ∧ s.ringHost b r va = some a) ∧
    (let s : State := smallRing (ringIn .running)
     let b : Nat := 1
     let r : Nat := 0
     let x : FetchResult := .hostTimeout
     s.mayFetch b r = false) ∧
    (let s : State := smallDesc { readyDesc (descBytes 0x10 []) with phase := .ending, status := some ⟨0, 0, 255, 0⟩ }
     let b : Nat := 1
     let r : Nat := 0
     let a : Nat := 0
     let tr : Bool := false
     let d : Desc := { readyDesc (descBytes 0x10 []) with phase := .ending, status := some ⟨0, 0, 255, 0⟩ }
     let st : Status := ⟨0, 0, 255, 0⟩
     (s.ring b r).oldest = some d ∧ d.awaitsTrigger = false ∧ d.status = some st ∧ s.mayComplete b r d = true ∧ s.mayUsePort b = true ∧ s.ringAt b r ((s.ring b r).entry d.count) true = .addr a tr) := by
  refine ⟨?_, ?_, ?_, ?_, ?_, ?_, ?_, ?_, ?_, ?_, ?_⟩ <;> decide +kernel

theorem test_witness_DescriptorStarts :
    (let s : State := smallDesc (readyDesc (descBytes 0x01 []))
     let b : Nat := 1
     let r : Nat := 0
     let d : Desc := readyDesc (descBytes 0x01 [])
     s.startable b r 0x01 = some d) ∧
    (let s : State := smallDesc (readyDesc (descBytes 0x02 []))
     let b : Nat := 1
     let r : Nat := 0
     let d : Desc := readyDesc (descBytes 0x02 [])
     let l : List Nat := [5]
     s.startable b r 0x02 = some d ∧ s.desc b r d.count = some d) ∧
    (let s : State := smallDesc (readyDesc (descBytes 0x03 []))
     let b : Nat := 1
     let r : Nat := 0
     let d : Desc := readyDesc (descBytes 0x03 [])
     let l : List Nat := [5]
     s.startable b r 0x03 = some d ∧ s.desc b r d.count = some d) ∧
    (let s : State := smallDesc { readyDesc (descBytes 0x02 []) with phase := .started }
     let b : Nat := 1
     let r : Nat := 0
     let d : Desc := { readyDesc (descBytes 0x02 []) with phase := .started }
     let l : List Nat := [1]
     let c : Instr := .gather 1 0 [1]
     let op : Nat := 2
     ((c = .gather b r l ∧ op = 2) ∨ (c = .scatter b r l ∧ op = 3)) ∧ s.startable b r op = none ∧ s.channelRuns b r = true ∧ ((s.ring b r).descs.find? fun e => opOf e.bytes == op && e.phase == .started && e.status.isNone) = some d) ∧
    (let s : State := smallDesc (readyDesc (descBytes 0x04 []))
     let b : Nat := 1
     let r : Nat := 0
     let d : Desc := readyDesc (descBytes 0x04 [])
     s.startable b r 0x04 = some d) ∧
    (let s : State := smallDesc (readyDesc (descBytes 0x05 []))
     let b : Nat := 1
     let r : Nat := 0
     let d : Desc := readyDesc (descBytes 0x05 [])
     s.startable b r 0x05 = some d) ∧
    (let s : State := smallDesc (readyDesc (descBytes 0x10 []))
     let b : Nat := 1
     let r : Nat := 0
     let total : Nat := 64
     let d : Desc := readyDesc (descBytes 0x10 [])
     s.desc b r d.count = some d) ∧
    (let s : State := smallDesc (readyDesc (descBytes 0x10 []))
     let b : Nat := 1
     let r : Nat := 0
     let d : Desc := readyDesc (descBytes 0x10 [])
     s.startable b r 0x10 = some d ∧ s.desc b r d.count = some d ∧ d.sealNote = none) ∧
    (let s : State := smallDesc (readyDesc (descBytes 0x11 []))
     let b : Nat := 1
     let r : Nat := 0
     let d : Desc := readyDesc (descBytes 0x11 [])
     s.startable b r 0x11 = some d ∧ (s.ring b r).descs = [d] ∧ d.sealNote = none ∧ field d.bytes 0x0C 1 ≠ 1) ∧
    (let s : State := smallDesc (readyDesc (descBytes 0x11 []))
     let u : State := s.startDesc 1 0 0 (totalOf (descBytes 0x11 []))
     let b : Nat := 1
     let r : Nat := 0
     let d : Desc := readyDesc (descBytes 0x11 [])
     let e : Desc := (u.desc 1 0 0).getD d
     s.startable b r 0x11 = some d ∧ u = s.startDesc b r d.count (totalOf d.bytes) ∧ u.desc b r d.count = some e) ∧
    (let s : State := { smallDesc (readyDesc (descBytes 0x12 [(12, 3)])) with events := [(3, ⟨some 1, false⟩)] }
     let b : Nat := 1
     let r : Nat := 0
     let d : Desc := readyDesc (descBytes 0x12 [(12, 3)])
     s.startable b r 0x12 = some d ∧ s.desc b r d.count = some d ∧ (s.event (field d.bytes 0x0C 2)).holder = some b) ∧
    (let s : State := smallDesc (readyDesc (descBytes 0x12 [(12, 3)]))
     let b : Nat := 1
     let r : Nat := 0
     let d : Desc := readyDesc (descBytes 0x12 [(12, 3)])
     s.startable b r 0x12 = some d ∧ s.desc b r d.count = some d ∧ (s.event (field d.bytes 0x0C 2)).holder ≠ some b) ∧
    (let s : State := { smallDesc { readyDesc (descBytes 0x12 [(12, 3)]) with phase := .eventWait } with events := [(3, ⟨some 1, true⟩)] }
     let b : Nat := 1
     let r : Nat := 0
     let d : Desc := { readyDesc (descBytes 0x12 [(12, 3)]) with phase := .eventWait }
     (s.ring b r).descs = [d] ∧ d.phase = .eventWait ∧ d.status = none ∧ d.sealNote = none ∧ s.channelRuns b r = true ∧ s.waitMet d = true ∧ field d.bytes 0x0E 1 ≠ 1) ∧
    (let s : State := { smallDesc { readyDesc (descBytes 0x12 [(0x0E, 1)]) with phase := .eventWait } with events := [(0, ⟨some 1, true⟩)] }
     let b : Nat := 1
     let r : Nat := 0
     let d : Desc := { readyDesc (descBytes 0x12 [(0x0E, 1)]) with phase := .eventWait }
     (s.ring b r).descs = [d] ∧ d.phase = .eventWait ∧ d.status = none ∧ d.sealNote = none ∧ s.channelRuns b r = true ∧ s.waitMet d = true ∧ field d.bytes 0x0E 1 = 1 ∧ s.earlierWaiter b d = false) ∧
    (let s : State := { smallDesc (readyDesc (descBytes 0x13 [(12, 3), (14, 1)])) with events := [(3, ⟨some 1, false⟩)] }
     let b : Nat := 1
     let r : Nat := 0
     let d : Desc := readyDesc (descBytes 0x13 [(12, 3), (14, 1)])
     s.startable b r 0x13 = some d ∧ s.desc b r d.count = some d ∧ d.sealNote = none ∧ (s.event (field d.bytes 0x0C 2)).holder = some b) ∧
    (let s : State := smallDesc (readyDesc (descBytes 0x13 []))
     let b : Nat := 1
     let r : Nat := 0
     let d : Desc := readyDesc (descBytes 0x13 [])
     s.startable b r 0x13 = some d ∧ s.desc b r d.count = some d ∧ (s.event (field d.bytes 0x0C 2)).holder ≠ some b) ∧
    (let s : State := smallDesc (readyDesc (descBytes 0x30 []))
     let b : Nat := 1
     let r : Nat := 0
     let d : Desc := readyDesc (descBytes 0x30 [])
     let c : Instr := .prefetch 1 0
     let op : Nat := 0x30
     ((c = .prefetch b r ∧ op = 0x30) ∨ (c = .advise b r ∧ op = 0x31)) ∧ s.startable b r op = some d ∧ s.desc b r d.count = some d ∧ d.sealNote = none ∧ lengthOf d.bytes = 0) ∧
    (let s : State := (smallDesc (readyDesc (descBytes 0x30 [(0x20, 64)]))).modBench 1 fun x => { x with classId := 9 }
     let b : Nat := 1
     let r : Nat := 0
     let d : Desc := readyDesc (descBytes 0x30 [(0x20, 64)])
     s.startable b r 0x30 = some d ∧ s.desc b r d.count = some d ∧ lengthOf d.bytes ≠ 0 ∧ (if selOf d.bytes 0 = 1 then s.classHas b BenchClass.modeS else s.classHas b BenchClass.modeD) = false) ∧
    (let s : State := smallDesc (readyDesc (descBytes 0x30 [(0x20, 64)]))
     let b : Nat := 1
     let r : Nat := 0
     let d : Desc := readyDesc (descBytes 0x30 [(0x20, 64)])
     s.startable b r 0x30 = some d ∧ lengthOf d.bytes ≠ 0 ∧ (if selOf d.bytes 0 = 1 then s.classHas b BenchClass.modeS else s.classHas b BenchClass.modeD) = true) ∧
    (let s : State := (smallDesc (readyDesc (descBytes 0x31 [(0x20, 64)]))).modBench 1 fun x => { x with classId := 9 }
     let b : Nat := 1
     let r : Nat := 0
     let d : Desc := readyDesc (descBytes 0x31 [(0x20, 64)])
     s.startable b r 0x31 = some d ∧ s.desc b r d.count = some d ∧ lengthOf d.bytes ≠ 0 ∧ (selOf d.bytes 0 = 1 ∨ s.classHas b BenchClass.modeD = false)) ∧
    (let s : State := smallDesc (readyDesc (descBytes 0x31 [(0x0C, 2), (0x20, 64), (0x28, 200)]))
     let b : Nat := 1
     let r : Nat := 0
     let d : Desc := readyDesc (descBytes 0x31 [(0x0C, 2), (0x20, 64), (0x28, 200)])
     s.startable b r 0x31 = some d ∧ s.desc b r d.count = some d ∧ lengthOf d.bytes ≠ 0 ∧ selOf d.bytes 0 ≠ 1 ∧ s.classHas b BenchClass.modeD = true ∧ field d.bytes 0x0C 1 = 2 ∧ s.nDies < field d.bytes 0x28 8) ∧
    (let s : State := smallDesc (readyDesc (descBytes 0x31 [(0x20, 64)]))
     let b : Nat := 1
     let r : Nat := 0
     let n : Nat := ((s.startDesc 1 0 0 0).adviseFrom 1 0 false 0 0 1).1
     let d : Desc := readyDesc (descBytes 0x31 [(0x20, 64)])
     let u : State := ((s.startDesc 1 0 0 0).adviseFrom 1 0 false 0 0 1).2
     s.startable b r 0x31 = some d ∧ s.desc b r d.count = some d ∧ d.sealNote = none ∧ lengthOf d.bytes ≠ 0 ∧ selOf d.bytes 0 ≠ 1 ∧ s.classHas b BenchClass.modeD = true ∧ (field d.bytes 0x0C 1 = 2 → field d.bytes 0x28 8 ≤ s.nDies) ∧ (s.startDesc b r d.count 0).adviseFrom b (field d.bytes 0x0C 1) (field d.bytes 0x0D 1 == 1) (field d.bytes 0x28 8 % 256) (addrOf d.bytes 0 / 65536) (adviseRegions d.bytes) = (n, u)) := by
  refine ⟨?_, ?_, ?_, ?_, ?_, ?_, ?_, ?_, ?_, ?_, ?_, ?_, ?_, ?_, ?_, ?_, ?_, ?_, ?_, ?_, ?_, ?_⟩ <;> decide +kernel

theorem test_witness_Billets :
    (let s : State := smallDesc (readyDesc (descBytes 0x40 [(0x21, 0x10)]))
     let b : Nat := 1
     let r : Nat := 0
     let d : Desc := readyDesc (descBytes 0x40 [(0x21, 0x10)])
     s.startable b r 0x40 = some d ∧ s.desc b r d.count = some d ∧ s.billetHeld b + lengthOf d.bytes / 1024 - (s.bench b).limits.billet.toNat ≠ 0) ∧
    (let s : State := (smallDesc (readyDesc (descBytes 0x40 [(0x21, 0x10)]))).modBench 1 fun x => { x with limits := { x.limits with billet := 4 } }
     let b : Nat := 1
     let r : Nat := 0
     let d : Desc := readyDesc (descBytes 0x40 [(0x21, 0x10)])
     s.startable b r 0x40 = some d ∧ s.desc b r d.count = some d ∧ d.sealNote = none ∧ s.structureHeld .billets b = false ∧ s.billetHeld b + lengthOf d.bytes / 1024 ≤ (s.bench b).limits.billet.toNat) ∧
    (let s : State := smallDesc (readyDesc (descBytes 0x41 [(0x28, 1)]))
     let b : Nat := 1
     let r : Nat := 0
     let d : Desc := readyDesc (descBytes 0x41 [(0x28, 1)])
     s.structureHeld .billets b = false ∧ s.startable b r 0x41 = some d ∧ s.desc b r d.count = some d ∧ freeHandle d.bytes % 2 ^ 20 ≠ 0) ∧
    (let s : State := { smallDesc (readyDesc (descBytes 0x41 [(0x2A, 0x30), (0x2D, 1)])) with recovery := { small.recovery with billets := [(3, ⟨1, true, 1, 4, none⟩)] } }
     let b : Nat := 1
     let r : Nat := 0
     let i : Nat := 3
     let d : Desc := readyDesc (descBytes 0x41 [(0x2A, 0x30), (0x2D, 1)])
     s.structureHeld .billets b = false ∧ s.startable b r 0x41 = some d ∧ s.desc b r d.count = some d ∧ d.sealNote = none ∧ freeHandle d.bytes % 2 ^ 20 = 0 ∧ freeHandle d.bytes < 2 ^ 60 ∧ i = bits (freeHandle d.bytes) 20 20 ∧ (s.billet i).live = true ∧ (s.billet i).gen = bits (freeHandle d.bytes) 40 20 ∧ (s.billet i).freeing = none ∧ (s.billet i).owner = b ∧ (s.startDesc b r d.count 0).billetBusy i = false) ∧
    (let s : State := { small with recovery := { small.recovery with locks := [⟨.billets, 1, 3, 9000000, none, false⟩], whittlers := [(3, { Whittler.reset with halted := true })] } }
     let b : Nat := 1
     let r : Nat := 0
     s.structureHeld .billets b = true) := by
  refine ⟨?_, ?_, ?_, ?_, ?_⟩ <;> decide +kernel

theorem test_witness_ChannelsAndBursts :
    (let s : State := { (smallRing { ringIn .running with descs := [fillDesc], tail := 1 }).modBench 1 (fun y => { y with limits := { y.limits with channels := 4 } }) with benches := [(1, ((smallRing { ringIn .running with descs := [fillDesc], tail := 1 }).modBench 1 (fun y => { y with limits := { y.limits with channels := 4 } })).bench 1)] }
     let b : Nat := 1
     let r : Nat := 0
     let l : Nat := 0
     let c : Nat := 0
     let x : Bool := false
     s.domainWorks (clusterDomain x) = true ∧ s.liveBenches = [b] ∧ (s.bench b).goesOn = true ∧ s.waitingRings b x = [r] ∧ s.channelFor b x = some (l, c)) ∧
    (let s : State := smallFill
     let l : Nat := 0
     let k : Nat := 0
     let b : Nat := 1
     let r : Nat := 0
     let c : BitVec 32 := 0
     let u : Burst := ⟨0, 64, 0, 0, [], [(0, 64, .die 0 0)], false, [], 0, 0⟩
     (s.lathe l).halt = none ∧ s.domainWorks (clusterDomain (decide (8 ≤ l))) = true ∧ (s.attendLathe l (s.lathe l).channels).1 = [(k, b, r, c, u)]) ∧
    (let s : State := smallLathe { Lathe.reset with halt := some ⟨0, none, [], [], false, none, []⟩ }
     let l : Nat := 0
     (s.lathe l).halt.isSome = true) ∧
    (let s : State := smallKept
     let b : Nat := 1
     let r : Nat := 0
     let l : Nat := 0
     let k : Nat := 0
     let u : Burst := ⟨0, 64, 0, 0, [], [(0, 64, .die 0 0)], false, [], 0, 0⟩
     (s.ring b r).channel = some (l, k) ∧ (s.lathe l).reserved = none ∧ (s.ring b r).descs.findSome? (s.keptBack b l) = some u) ∧
    (let s : State := smallKept
     let b : Nat := 1
     let l : Nat := 0
     let d : Desc := keptDesc
     let u : Burst := ⟨0, 64, 0, 0, [], [(0, 64, .die 0 0)], false, [], 0, 0⟩
     s.keptBack b l d = some u) ∧
    (let s : State := smallFill
     let b : Nat := 1
     let r : Nat := 0
     let l : Nat := 0
     let k : Nat := 0
     (s.ring b r).channel = some (l, k) ∧ ((s.lathe l).reserved.isSome = true ∨ (s.ring b r).descs.findSome? (s.keptBack b l) = none)) ∧
    (let s : State := smallLathe { Lathe.reset with reads := [⟨0, 1, 0, 0, 0, none, none, 0, true, 0, 64, false⟩] }
     let l : Nat := 0
     let n : Nat := 0
     let u : SlotUse := ⟨0, 1, 0, 0, 0, none, none, 0, true, 0, 64, false⟩
     let data : List Byte := []
     s.hostSlot l n = false ∧ s.unsent (.lathe l n false) = false ∧ (s.lathe l).reads.find? (fun u => u.slot == n) = some u ∧ u.die = none ∧ u.hub = none ∧ s.recovery.markIn (u.spa.toNat - ledgerBase) u.len = none) ∧
    (let s : State := { smallLathe { Lathe.reset with reads := [⟨0, 1, 0, 0, 0, none, none, BitVec.ofNat 64 ledgerBase, true, 0, 64, false⟩] } with recovery := { small.recovery with marked := [0] } }
     let l : Nat := 0
     let n : Nat := 0
     let p : Nat := 0
     let u : SlotUse := ⟨0, 1, 0, 0, 0, none, none, BitVec.ofNat 64 ledgerBase, true, 0, 64, false⟩
     let data : List Byte := []
     s.hostSlot l n = false ∧ s.unsent (.lathe l n false) = false ∧ (s.lathe l).reads.find? (fun u => u.slot == n) = some u ∧ u.die = none ∧ u.hub = none ∧ s.recovery.markIn (u.spa.toNat - ledgerBase) u.len = some p) ∧
    (let s : State := smallLathe { Lathe.reset with reads := [⟨0, 1, 0, 0, 0, some 0, none, 0, true, 0, 64, false⟩] }
     let l : Nat := 0
     let n : Nat := 0
     let d : Nat := 0
     let u : SlotUse := ⟨0, 1, 0, 0, 0, some 0, none, 0, true, 0, 64, false⟩
     let data : List Byte := []
     s.hostSlot l n = false ∧ s.unsent (.lathe l n false) = false ∧ (s.lathe l).reads.find? (fun u => u.slot == n) = some u ∧ u.die = some d ∧ u.hub = none) ∧
    (let s : State := smallLathe { Lathe.reset with reads := [⟨0, 1, 0, 0, 0, some 0, none, 0, true, 0, 64, true⟩] }
     let l : Nat := 0
     let n : Nat := 0
     let d : Nat := 0
     let u : SlotUse := ⟨0, 1, 0, 0, 0, some 0, none, 0, true, 0, 64, true⟩
     let data : List Byte := []
     s.hostSlot l n = false ∧ s.unsent (.lathe l n false) = false ∧ (s.lathe l).reads.find? (fun u => u.slot == n) = some u ∧ u.die = some d ∧ u.hub = none ∧ u.chaff = true ∧ s.admitted l = [] ∧ s.ringsOn l = []) ∧
    (let s : State := smallLathe { Lathe.reset with reads := [⟨0, 1, 0, 0, 0, some 0, none, 0, true, 0, 64, false⟩] }
     let l : Nat := 0
     let n : Nat := 0
     let d : Nat := 0
     let u : SlotUse := ⟨0, 1, 0, 0, 0, some 0, none, 0, true, 0, 64, false⟩
     s.hostSlot l n = false ∧ s.unsent (.lathe l n false) = false ∧ (s.lathe l).reads.find? (fun u => u.slot == n) = some u ∧ u.die = some d ∧ u.hub = none) ∧
    (let s : State := small
     let c : Instr := .writeAck 0 5 .ok
     let l : Nat := 0
     let n : Nat := 5
     let st : MemStatus := .ok
     let data : List Byte := []
     ((c = .readDataReturn l n st data ∧ s.hostSlot l n = false ∧ (s.lathe l).reads.find? (fun u => u.slot == n) = none) ∨ (c = .writeAck l n st ∧ l ≠ 16 ∧ (s.lathe l).writes.find? (fun u => u.slot == n) = none)) ∧ s.running = true ∧ l < s.nLathes) ∧
    (let s : State := smallLathe { Lathe.reset with writes := [⟨0, 1, 0, 0, 0, some 0, none, 0, true, 0, 64, false⟩] }
     let l : Nat := 0
     let n : Nat := 0
     let u : SlotUse := ⟨0, 1, 0, 0, 0, some 0, none, 0, true, 0, 64, false⟩
     l ≠ 16 ∧ s.unsent (.lathe l n true) = false ∧ (s.lathe l).writes.find? (fun u => u.slot == n) = some u) ∧
    (let s : State := smallLathe { Lathe.reset with writes := [⟨0, 1, 0, 0, 0, some 0, none, 0, true, 0, 64, false⟩] }
     let l : Nat := 0
     let n : Nat := 0
     let d : Nat := 0
     let u : SlotUse := ⟨0, 1, 0, 0, 0, some 0, none, 0, true, 0, 64, false⟩
     l ≠ 16 ∧ s.unsent (.lathe l n true) = false ∧ (s.lathe l).writes.find? (fun u => u.slot == n) = some u ∧ u.die = some d) ∧
    (let s : State := { small with bar2Writes := [⟨5, 0, 0, 1, false⟩] }
     let n : Nat := 5
     let q : Bar2Put := ⟨5, 0, 0, 1, false⟩
     s.unsent (.put n) = false ∧ s.isTrailer n = false ∧ s.bar2Writes = [q] ∧ q.id = n ∧ s.streams = []) ∧
    (let s : State := { smallDesc { readyDesc (descBytes 0x01 [(3, 2), (4, 3)]) with phase := .trigger } with events := [(3, ⟨some 1, true⟩)] }
     let b : Nat := 1
     let r : Nat := 0
     let d : Desc := { readyDesc (descBytes 0x01 [(3, 2), (4, 3)]) with phase := .trigger }
     (s.ring b r).descs.find? (fun d => d.phase == .trigger && trigOf d.bytes == 2 && s.mayStart b r d && s.lineSet b (trigArgOf d.bytes)) = some d ∧ s.desc b r d.count = some d) ∧
    (let s : State := { smallDesc { readyDesc (descBytes 0x01 [(3, 2), (4, 3)]) with phase := .trigger } with events := [(3, ⟨some 1, false⟩)] }
     let b : Nat := 1
     let r : Nat := 0
     (∀ d ∈ (s.ring b r).descs, d.phase = .trigger → trigOf d.bytes = 2 → s.mayStart b r d = true → s.lineSet b (trigArgOf d.bytes) = false)) ∧
    (let s : State := { (small.modBench 1 fun y => { y with paceSlots := [(2, ⟨5, false, true, 100, true⟩)] }) with paceTimers := [(5, ⟨some 1, 2, true, 0, 4999999⟩)] }
     let x : Bool := false
     let n : Nat := 5
     let b : Nat := 1
     s.domainWorks (clusterDomain x) = true ∧ s.paceDue x n = true ∧ (s.paceTimer x n).holder = some b) ∧
    (let s : State := small
     let x : Bool := false
     let n : Nat := 5
     s.paceDue x n = false) ∧
    (let s : State := smallRing { ringIn .running with descs := [{ fillDesc with bytes := descBytes 0x04 [(3, 4), (6, 0x20), (0x20, 64)], paceWait := some 4999990 }], tail := 1, channel := some (0, 0) }
     let b : Nat := 1
     let r : Nat := 0
     let l : Nat := 0
     let k : Nat := 0
     let d : Desc := { fillDesc with bytes := descBytes 0x04 [(3, 4), (6, 0x20), (0x20, 64)], paceWait := some 4999990 }
     let w : BitVec 64 := 4999990
     (s.ring b r).channel = some (l, k) ∧ (s.ring b r).descs = [d] ∧ d.issuing = true ∧ d.bursts = [] ∧ s.paceOpen b r d.bytes = false ∧ d.paceWait = some w ∧ w.toNat + 10 ≤ s.now.toNat) := by
  refine ⟨?_, ?_, ?_, ?_, ?_, ?_, ?_, ?_, ?_, ?_, ?_, ?_, ?_, ?_, ?_, ?_, ?_, ?_, ?_, ?_⟩ <;> decide +kernel

theorem test_witness_EventLinesAndPaceTimers :
    (let s : State := small
     let b : Nat := 1
     let n : Nat := 255
     s.decodes (s.bench b).port (s.bench b).fn = true ∧ s.benchServes b = true ∧ (s.event n).holder = none ∧ (b = 0 ∨ s.linesHeld b < 16)) ∧
    (let s : State := { small with events := (List.range 16).map fun i => (i, ⟨some 1, false⟩) }
     let b : Nat := 1
     let n : Nat := 16
     s.decodes (s.bench b).port (s.bench b).fn = true ∧ s.benchServes b = true ∧ (((s.event n).holder = none ∧ b ≠ 0 ∧ 16 ≤ s.linesHeld b) ∨ (∃ c, (s.event n).holder = some c ∧ c ≠ b))) ∧
    (let s : State := { small with events := [(3, ⟨some 1, true⟩)] }
     let b : Nat := 1
     let n : Nat := 3
     s.decodes (s.bench b).port (s.bench b).fn = true ∧ s.benchServes b = true ∧ (s.event n).holder = some b) ∧
    (let s : State := small
     let b : Nat := 1
     let n : Nat := 3
     s.decodes (s.bench b).port (s.bench b).fn = true ∧ s.benchServes b = true ∧ (s.event n).holder ≠ some b) ∧
    (let s : State := small
     let b : Nat := 1
     let k : Nat := 3
     let n : Nat := 63
     let x : Bool := true
     s.decodes (s.bench b).port (s.bench b).fn = true ∧ s.benchServes b = true ∧ (s.paceSlot b k).claim = false ∧ s.clusterPresent x = true ∧ (s.paceTimer x n).holder = none) ∧
    (let s : State := { small with paceTimers := [(5, ⟨some 0, 2, true, 0, 0⟩)] }
     let b : Nat := 1
     let k : Nat := 3
     let n : Nat := 5
     let x : Bool := false
     s.decodes (s.bench b).port (s.bench b).fn = true ∧ s.benchServes b = true ∧ (s.paceSlot b k).claim = false ∧ (s.clusterPresent x = false ∨ (s.paceTimer x n).holder.isSome = true)) ∧
    (let s : State := { (small.modBench 1 fun y => { y with paceSlots := [(2, ⟨5, false, true, 100, true⟩)] }) with paceTimers := [(5, ⟨some 1, 2, true, 0, 4999999⟩)] }
     let b : Nat := 1
     let k : Nat := 2
     s.decodes (s.bench b).port (s.bench b).fn = true ∧ s.benchServes b = true ∧ (s.paceSlot b k).claim = true) ∧
    (let s : State := small.modBench 1 fun y => { y with paceSlots := [(2, ⟨5, false, true, 10, false⟩)] }
     let b : Nat := 1
     let k : Nat := 2
     s.decodes (s.bench b).port (s.bench b).fn = true ∧ s.benchServes b = true ∧ (s.paceSlot b k).claim = true ∧ (s.paceSlot b k).arm = false ∧ 10 ≤ (s.paceSlot b k).period.toNat) ∧
    (let s : State := small.modBench 1 fun y => { y with paceSlots := [(2, ⟨5, false, true, 9, false⟩)] }
     let b : Nat := 1
     let k : Nat := 2
     s.decodes (s.bench b).port (s.bench b).fn = true ∧ s.benchServes b = true ∧ ((s.paceSlot b k).claim = false ∨ (s.paceSlot b k).period.toNat < 10)) ∧
    (let s : State := small.modBench 1 fun y => { y with paceSlots := [(2, ⟨5, false, true, 100, true⟩)] }
     let b : Nat := 1
     let k : Nat := 2
     s.decodes (s.bench b).port (s.bench b).fn = true ∧ s.benchServes b = true ∧ (s.paceSlot b k).claim = true) ∧
    (let s : State := { small with events := [(3, ⟨some 1, true⟩)] }
     let b : Nat := 1
     let n : Nat := 3
     s.decodes (s.bench b).port (s.bench b).fn = true ∧ s.benchServes b = true ∧ (s.event n).holder = some b) := by
  refine ⟨?_, ?_, ?_, ?_, ?_, ?_, ?_, ?_, ?_, ?_, ?_⟩ <;> decide +kernel

theorem test_witness_LatheHalts :
    (let s : State := smallFill
     let l : Nat := 0
     let g : Option (BitVec 16) := none
     s.running = true ∧ l < s.nLathes) ∧
    (let s : State := smallLathe { Lathe.reset with halt := some ⟨0, none, [], [⟨0, 1, 0, 0, false, none, 0⟩], true, none, []⟩ }
     let l : Nat := 0
     let h : Halt := ⟨0, none, [], [⟨0, 1, 0, 0, false, none, 0⟩], true, none, []⟩
     let i : ReplayItem := ⟨0, 1, 0, 0, false, none, 0⟩
     let rest : List ReplayItem := []
     (s.lathe l).halt = some h ∧ h.replay = i :: rest ∧ h.sent = true ∧ h.culprit = none) ∧
    (let s : State := smallLathe { Lathe.reset with halt := some ⟨0, none, [], [⟨0, 1, 0, 0, false, none, 0⟩], true, none, []⟩ }
     let c : Instr := .haltReplayTimeout 0
     let l : Nat := 0
     let h : Halt := ⟨0, none, [], [⟨0, 1, 0, 0, false, none, 0⟩], true, none, []⟩
     let i : ReplayItem := ⟨0, 1, 0, 0, false, none, 0⟩
     let rest : List ReplayItem := []
     (c = .haltReplayResponse l false ∨ c = .haltReplayTimeout l) ∧ (s.lathe l).halt = some h ∧ h.replay = i :: rest ∧ h.sent = true ∧ h.culprit = none) ∧
    (let s : State := smallLathe { Lathe.reset with halt := some ⟨0, none, [], [⟨0, 1, 0, 0, false, none, 0⟩], false, none, []⟩ }
     let l : Nat := 0
     let h : Halt := ⟨0, none, [], [⟨0, 1, 0, 0, false, none, 0⟩], false, none, []⟩
     let i : ReplayItem := ⟨0, 1, 0, 0, false, none, 0⟩
     let rest : List ReplayItem := []
     (s.lathe l).halt = some h ∧ h.replay = i :: rest ∧ h.sent = false ∧ h.culprit = none ∧ (s.lathe l).writes = []) ∧
    (let s : State := smallLathe { Lathe.reset with halt := some ⟨0, none, [], [], false, none, []⟩, writes := [⟨0, 1, 0, 0, 0, some 0, none, 0, true, 0, 64, false⟩] }
     let l : Nat := 0
     let h : Halt := ⟨0, none, [], [], false, none, []⟩
     (s.lathe l).halt = some h ∧ (s.lathe l).writes ≠ []) ∧
    (let s : State := smallLathe { Lathe.reset with halt := some ⟨0, none, [], [], false, none, []⟩ }
     let l : Nat := 0
     let h : Halt := ⟨0, none, [], [], false, none, []⟩
     (s.lathe l).halt = some h ∧ (s.lathe l).writes = [] ∧ h.replay = [] ∧ h.culprit = none ∧ h.halted = [] ∧ (s.lathe l).unattributed = []) ∧
    (let s : State := smallLathe { Lathe.reset with halt := some ⟨0, none, [], [], false, none, []⟩, unattributed := [4000001, 4000001] }
     let l : Nat := 0
     let h : Halt := ⟨0, none, [], [], false, none, []⟩
     let a : BitVec 64 := 4000001
     let b : BitVec 64 := 4000001
     (s.lathe l).halt = some h ∧ (s.lathe l).writes = [] ∧ h.replay = [] ∧ h.culprit = none ∧ h.halted = [] ∧ (s.lathe l).unattributed = [a, b] ∧ s.now.toNat < a.toNat + 1000000 ∧ s.now.toNat < b.toNat + 1000000) ∧
    (let s : State := smallLathe { Lathe.reset with halt := some ⟨0, none, [], [], false, some ⟨0, 1, 0, 0, false, none, 0⟩, [(0, 1, 0)]⟩ }
     let l : Nat := 0
     let k : Nat := 0
     let h : Halt := ⟨0, none, [], [], false, some ⟨0, 1, 0, 0, false, none, 0⟩, [(0, 1, 0)]⟩
     let i : ReplayItem := ⟨0, 1, 0, 0, false, none, 0⟩
     (s.lathe l).halt = some h ∧ (s.lathe l).writes = [] ∧ h.replay = [] ∧ h.culprit = some i ∧ h.halted = [(k, i.bench, i.ring)]) ∧
    (let s : State := smallLathe { Lathe.reset with halt := some ⟨0, none, [], [], false, some ⟨0, 1, 0, 0, false, none, 0⟩, []⟩ }
     let l : Nat := 0
     let h : Halt := ⟨0, none, [], [], false, some ⟨0, 1, 0, 0, false, none, 0⟩, []⟩
     let i : ReplayItem := ⟨0, 1, 0, 0, false, none, 0⟩
     (s.lathe l).halt = some h ∧ (s.lathe l).writes = [] ∧ h.replay = [] ∧ h.culprit = some i ∧ h.halted = []) := by
  refine ⟨?_, ?_, ?_, ?_, ?_, ?_, ?_, ?_, ?_⟩ <;> decide +kernel

theorem test_witness_LaunchSteps :
    (let s : State := smallLaunch [] []
     let u : State := smallLaunch [] []
     let b : Nat := 1
     let r : Nat := 0
     let d : Desc := launchDesc
     s.begin b r 0x20 = some (d, u) ∧ (u.giveUp b r 1).launchOf b r = none ∧ lengthOf d.bytes ≤ 2 ^ 28 ∧ (u.giveUp b r 1).launches.length < 4) ∧
    (let s : State := smallLaunch (List.replicate 4 ⟨2, 0, 0, .staging, [], [], 0, 0, 0, 0, [], [], []⟩) []
     let u : State := smallLaunch (List.replicate 4 ⟨2, 0, 0, .staging, [], [], 0, 0, 0, 0, [], [], []⟩) []
     let b : Nat := 1
     let r : Nat := 0
     let d : Desc := launchDesc
     s.begin b r 0x20 = some (d, u) ∧ (u.giveUp b r 1).launchOf b r = none ∧ lengthOf d.bytes ≤ 2 ^ 28 ∧ 4 ≤ (u.giveUp b r 1).launches.length) ∧
    (let s : State := smallLaunch [launchIn .staging] []
     let u : State := (s.load 1 (operandOf launchDesc.bytes launchDesc.order 0 false) 0 (lengthOf launchDesc.bytes)).getD s
     let b : Nat := 1
     let r : Nat := 0
     let l : Launch := launchIn .staging
     let d : Desc := launchDesc
     let blank : List Byte := smallBlankCrc
     let params : List Byte := []
     let y : List Byte := smallBlankCrc
     s.launchOf b r = some l ∧ l.bench = b ∧ s.desc b r l.desc = some d ∧ l.stage = .staging ∧ d.phase = .started ∧ (s.bench b).state ≠ .sweeping ∧ s.channelRuns b r = true ∧ (s.bench b).rateOpen = true ∧ selOf d.bytes 1 = 0 ∧ s.scanAll b (operandOf d.bytes d.order 0 false) (lengthOf d.bytes) = none ∧ s.load b (operandOf d.bytes d.order 0 false) 0 (lengthOf d.bytes) = some u ∧ s.loaded b (operandOf d.bytes d.order 0 false) (lengthOf d.bytes) (.ok blank params) = .ok blank params ∧ y = s.allBytes b (operandOf d.bytes d.order 0 false) blank (lengthOf d.bytes) ∧ blankFailure y (lengthOf d.bytes) = none ∧ (blankInfo y).ranges = 0 ∧ (blankInfo y).slots = 0 ∧ s.coresPlaced b + (blankInfo y).rows * (blankInfo y).cols ≤ (s.bench b).limits.cores.toNat ∧ s.placeNumber b ≠ 0) ∧
    (let s : State := smallLaunch [launchIn .staging] []
     let u : State := (s.load 1 (operandOf launchDesc.bytes launchDesc.order 0 false) 0 (lengthOf launchDesc.bytes)).getD s
     let b : Nat := 1
     let r : Nat := 0
     let l : Launch := launchIn .staging
     let d : Desc := launchDesc
     let code : Nat := 0x22
     let detail : Nat := 2
     let address : BitVec 64 := 0
     s.launchOf b r = some l ∧ l.bench = b ∧ s.desc b r l.desc = some d ∧ l.stage = .staging ∧ d.phase = .started ∧ (s.bench b).state ≠ .sweeping ∧ s.channelRuns b r = true ∧ (s.bench b).rateOpen = true ∧ selOf d.bytes 1 = 0 ∧ s.scanAll b (operandOf d.bytes d.order 0 false) (lengthOf d.bytes) = none ∧ s.load b (operandOf d.bytes d.order 0 false) 0 (lengthOf d.bytes) = some u) ∧
    (let s : State := (smallLaunch [launchIn .staging] []).modBench 1 fun x => { x with limits := { x.limits with rateCap := 1 }, bucket := -1 }
     let b : Nat := 1
     let r : Nat := 0
     let l : Launch := launchIn .staging
     let x : LoadResult := .ok [] []
     s.launchOf b r = some l ∧ (s.bench b).rateOpen = false) ∧
    (let s : State := smallLaunch [launchIn .ready] [smallPlace .loading]
     let b : Nat := 1
     let r : Nat := 0
     let free : List (Nat × Nat) := []
     let l : Launch := launchIn .ready
     s.launches.find? (fun l => l.stage == .ready && (s.bench l.bench).state != .sweeping) = some l ∧ l.bench = b ∧ l.ring = r ∧ s.dense.placing = none ∧ s.dense.outOfService = false ∧ s.structureHeld .placements b = false ∧ s.domainWorks 9 = true ∧ s.runningJob false = none ∧ (blankInfo l.blank).rows * (blankInfo l.blank).cols ≤ s.freeCores.length) ∧
    (let s : State := { smallLaunch [launchIn .ready] [{ smallPlace .loading with cores := [] }] with spindles := [] }
     let b : Nat := 1
     let r : Nat := 0
     let free : List (Nat × Nat) := []
     let l : Launch := launchIn .ready
     s.launches.find? (fun l => l.stage == .ready && (s.bench l.bench).state != .sweeping) = some l ∧ l.bench = b ∧ l.ring = r ∧ s.dense.placing = none ∧ s.dense.outOfService = false ∧ s.structureHeld .placements b = false ∧ s.domainWorks 9 = true ∧ s.runningJob false = none ∧ s.freeCores.length < (blankInfo l.blank).rows * (blankInfo l.blank).cols ∧ (blankInfo l.blank).span = false) ∧
    (let s : State := smallLaunch [{ launchIn .placing with bands := [] }] [smallPlace .loading]
     let b : Nat := 1
     let r : Nat := 0
     let bands : List (Nat × Nat × Nat × Nat × Nat) := []
     let f : Option (Nat × Nat × Nat) := none
     let l : Launch := { launchIn .placing with bands := [] }
     s.launchOf b r = some l ∧ l.stage = .placing ∧ s.structureHeld .placements b = false ∧ (s.bench b).state ≠ .sweeping ∧ l.bands = [] ∧ l.bench = b ∧ l.ring = r ∧ (blankInfo l.blank).rows * (blankInfo l.blank).cols ≠ 0) ∧
    (let s : State := smallLaunch [launchIn .placing] [{ smallPlace .loading with cores := [] }]
     let b : Nat := 1
     let r : Nat := 0
     let n : Nat := 1
     let bands : List (Nat × Nat × Nat × Nat × Nat) := []
     let f : Option (Nat × Nat × Nat) := none
     let l : Launch := launchIn .placing
     let p : Placement := { smallPlace .loading with cores := [] }
     let own : List PlacedCore := (smallLaunch [launchIn .placing] [{ smallPlace .loading with cores := [] }]).bandCores ((smallLaunch [launchIn .placing] [{ smallPlace .loading with cores := [] }]).placeInputs 1 (blankInfo smallBlankCrc).cols (blankInfo smallBlankCrc).seed 1500 [5]) [5] 0 1 (blankInfo smallBlankCrc).cols
     s.launchOf b r = some l ∧ l.stage = .placing ∧ s.structureHeld .placements b = false ∧ (s.bench b).state ≠ .sweeping ∧ l.bands = [(s.hubId, 0, n)] ∧ s.ownPlacement b l.number = some p ∧ p.state = .loading ∧ own = s.bandCores (s.placeInputs n (blankInfo l.blank).cols (blankInfo l.blank).seed l.budget (l.free.filter fun c => s.freeCores.contains c)) (l.free.filter fun c => s.freeCores.contains c) 0 n (blankInfo l.blank).cols) ∧
    (let s : State := smallLaunch [launchIn .loading] [smallPlace .loading]
     let b : Nat := 1
     let r : Nat := 0
     let l : Launch := launchIn .loading
     let p : Placement := smallPlace .loading
     s.launchOf b r = some l ∧ l.stage = .loading ∧ l.loads = [] ∧ (s.bench b).state ≠ .sweeping ∧ s.ownPlacement b l.number = some p ∧ s.placeHubs p = []) ∧
    (let s : State := smallLaunch [launchIn (.stamped 4)] [smallPlace .loading]
     let b : Nat := 1
     let r : Nat := 0
     let l : Launch := launchIn (.stamped 4)
     let p : Placement := smallPlace .loading
     let d : Desc := launchDesc
     let v : BitVec 64 := 4
     s.launchOf b r = some l ∧ l.stage = .stamped v ∧ v.toNat ≤ s.now.toNat ∧ (s.bench b).state ≠ .sweeping ∧ s.benchHeld b = false ∧ s.ownPlacement b l.number = some p ∧ p.state = .loading ∧ s.placeHubs p = [] ∧ s.desc b r l.desc = some d ∧ d.status = none ∧ d.sealNote = none) ∧
    (let s : State := routed3 { small with cascade := { small.cascade with state := .chartered, guests := [(0, some (guestOf []))] } }
     let home : Nat := 3
     let b : Nat := 1
     let g : Nat := 0
     let n : Nat := 1
     let row : Nat := 0
     let rows : Nat := 0
     let cols : Nat := 1
     let flags : Nat := 0
     let queues : Nat := 0
     let seed : Nat := 0
     let budget : Nat := 0
     let incarn : BitVec 16 := 9
     let cls : Nat := 1
     let cap : BitVec 32 := 0
     let ranges : List (Nat × Nat × Bool) := []
     s.chartered = true ∧ home ≠ s.hubId ∧ s.guestSlot home b = some g ∧ s.msgCurrent home b incarn = true ∧ s.pinRanges (256 + g) ranges = (none, s) ∧ s.routed home = true ∧ s.dense.outOfService = false ∧ s.domainWorks 9 = true ∧ s.dense.placing = none ∧ s.placement home b n = none ∧ rows * cols ≤ (s.bandCores (s.placeInputs rows cols seed budget s.freeCores) s.freeCores row rows cols).length) ∧
    (let s : State := { routed3 { small with cascade := { small.cascade with state := .chartered, guests := [(0, some (guestOf []))] } } with dense := { small.dense with outOfService := true } }
     let home : Nat := 3
     let b : Nat := 1
     let g : Nat := 0
     let n : Nat := 1
     let row : Nat := 0
     let rows : Nat := 0
     let cols : Nat := 1
     let flags : Nat := 0
     let queues : Nat := 0
     let seed : Nat := 0
     let budget : Nat := 0
     let incarn : BitVec 16 := 9
     let cls : Nat := 1
     let cap : BitVec 32 := 0
     let ranges : List (Nat × Nat × Bool) := []
     s.chartered = true ∧ home ≠ s.hubId ∧ s.guestSlot home b = some g ∧ s.msgCurrent home b incarn = true ∧ s.pinRanges (256 + g) ranges = (none, s) ∧ (s.dense.outOfService = true ∨ s.domainWorks 9 = false)) ∧
    (let s : State := routed3 { small with cascade := { small.cascade with state := .chartered, guests := [(0, some (guestOf []))] } }
     let u : State := (s.pinRanges 256 [(0, 4096, false)]).2
     let home : Nat := 3
     let b : Nat := 1
     let g : Nat := 0
     let n : Nat := 1
     let row : Nat := 0
     let rows : Nat := 0
     let cols : Nat := 1
     let flags : Nat := 0
     let queues : Nat := 0
     let seed : Nat := 0
     let budget : Nat := 0
     let incarn : BitVec 16 := 9
     let cls : Nat := 1
     let cap : BitVec 32 := 0
     let ranges : List (Nat × Nat × Bool) := [(0, 4096, false)]
     let e : Nat × Nat × Nat := ((s.pinRanges 256 [(0, 4096, false)]).1).getD (0, 0, 0)
     s.chartered = true ∧ home ≠ s.hubId ∧ s.guestSlot home b = some g ∧ s.msgCurrent home b incarn = true ∧ s.pinRanges (256 + g) ranges = (some e, u)) ∧
    (let s : State := routed3 { small with cascade := { small.cascade with state := .chartered, guests := [(0, some (guestOf []))] } }
     let home : Nat := 3
     let b : Nat := 1
     let n : Nat := 1
     let row : Nat := 0
     let rows : Nat := 0
     let cols : Nat := 1
     let flags : Nat := 0
     let queues : Nat := 0
     let seed : Nat := 0
     let budget : Nat := 0
     let incarn : BitVec 16 := 8
     let cls : Nat := 1
     let cap : BitVec 32 := 0
     let ranges : List (Nat × Nat × Bool) := []
     s.chartered = true ∧ home ≠ s.hubId ∧ (s.guestSlot home b).isSome = true ∧ s.msgCurrent home b incarn = false) ∧
    (let s : State := smallLaunch [{ launchIn .placing with bands := [(3, 0, 1)] }] [smallPlace .loading]
     let b : Nat := 1
     let r : Nat := 0
     let code : Nat := 0x11
     let detail : Nat := 0
     let va : Nat := 0
     let bands : List (Nat × Nat × Nat × Nat × Nat) := []
     let l : Launch := { launchIn .placing with bands := [(3, 0, 1)] }
     s.launchOf b r = some l ∧ l.stage = .placing ∧ s.structureHeld .placements b = false ∧ (s.bench b).state ≠ .sweeping ∧ (l.bands.any fun e => e.1 != s.hubId) = true) ∧
    (let s : State := smallLaunch [{ launchIn .loading with loads := [0] }] [smallPlace .loading]
     let b : Nat := 1
     let r : Nat := 0
     let l : Launch := { launchIn .loading with loads := [0] }
     s.launchOf b r = some l ∧ l.loads ≠ []) := by
  refine ⟨?_, ?_, ?_, ?_, ?_, ?_, ?_, ?_, ?_, ?_, ?_, ?_, ?_, ?_, ?_, ?_, ?_⟩ <;> decide +kernel

theorem test_witness_HoldAndRelease :
    (let s : State := smallLaunch [] [smallPlace .running]
     let b : Nat := 1
     let n : Nat := 1
     let p : Placement := smallPlace .running
     s.decodes (s.bench b).port (s.bench b).fn = true ∧ s.benchServes b = true ∧ s.ownPlacement b n = some p ∧ p.state = .running) ∧
    (let s : State := smallLaunch [] []
     let b : Nat := 1
     let n : Nat := 1
     s.decodes (s.bench b).port (s.bench b).fn = true ∧ s.benchServes b = true ∧ s.ownPlacement b n = none) ∧
    (let s : State := smallLaunch [] [smallPlace .releasing]
     let home : Nat := 0
     let b : Nat := 1
     let n : Nat := 1
     let p : Placement := smallPlace .releasing
     s.placement home b n = some p ∧ p.state = .releasing ∧ s.structureHeld .placements (s.ownerOf home b) = false ∧ s.launches = []) ∧
    (let s : State := smallLaunch [] [smallPlace .running]
     let d : Nat := 0
     let c : Nat := 5
     let p : Placement := smallPlace .running
     s.placementOf d c = some p ∧ s.placement p.home p.bench p.number = some p ∧ p.state ≠ .releasing ∧ p.home = s.hubId) ∧
    (let s : State := small
     let d : Nat := 0
     let c : Nat := 5
     s.placementOf d c = none) ∧
    (let s : State := small
     let d : Nat := 0
     let c : Nat := 5
     s.placementOf d c = none) ∧
    (let s : State := smallLaunch [] [{ smallPlace .held with frozen := true, lates := [(0, 0, 5)] }]
     let d : Nat := 0
     let c : Nat := 5
     let p : Placement := { smallPlace .held with frozen := true, lates := [(0, 0, 5)] }
     s.placementOf d c = some p ∧ s.placement p.home p.bench p.number = some p ∧ p.home = s.hubId ∧ p.state ≠ .releasing ∧ p.frozen = true ∧ p.started = true ∧ p.release = none ∧ s.benchHeld p.bench = false ∧ s.placeHubs p = [] ∧ p.lates = [(s.hubId, d, c)]) ∧
    (let s : State := smallLaunch [] [smallPlace .running]
     let home : Nat := 0
     let b : Nat := 1
     let n : Nat := 1
     let incarn : BitVec 16 := 0
     let p : Placement := smallPlace .running
     s.msgCurrent home b incarn = true ∧ s.placement home b n = some p ∧ p.state ≠ .releasing) ∧
    (let s : State := small
     let home : Nat := 3
     let b : Nat := 1
     let n : Nat := 1
     let incarn : BitVec 16 := 0
     s.msgCurrent home b incarn = false) ∧
    (let s : State := small
     let home : Nat := 3
     let b : Nat := 1
     let n : Nat := 1
     let incarn : BitVec 16 := 0
     let v : BitVec 64 := 0
     s.msgCurrent home b incarn = false) ∧
    (let s : State := smallLaunch [] [smallPlace .running]
     let hub : Nat := 3
     let b : Nat := 1
     let n : Nat := 1
     let d : Nat := 0
     let c : Nat := 5
     let incarn : BitVec 16 := 0
     let p : Placement := smallPlace .running
     s.msgCurrent s.hubId b incarn = true ∧ s.ownPlacement b n = some p ∧ p.state ≠ .releasing) ∧
    (let s : State := smallLaunch [] [smallPlace .held]
     let home : Nat := 0
     let b : Nat := 1
     let n : Nat := 1
     let incarn : BitVec 16 := 0
     let v : BitVec 64 := 9
     let p : Placement := smallPlace .held
     s.msgCurrent home b incarn = true ∧ s.placement home b n = some p ∧ p.state ≠ .releasing) ∧
    (let s : State := smallLaunch [] [{ smallPlace .held with release := some 4 }]
     let home : Nat := 0
     let b : Nat := 1
     let n : Nat := 1
     let v : BitVec 64 := 4
     let p : Placement := { smallPlace .held with release := some 4 }
     s.placement home b n = some p ∧ p.release = some v ∧ p.started = true ∧ v.toNat ≤ s.now.toNat) ∧
    (let s : State := smallLaunch [] [{ smallPlace .held with release := some 5000001 }]
     let home : Nat := 0
     let b : Nat := 1
     let n : Nat := 1
     let v : BitVec 64 := 5000001
     let p : Placement := { smallPlace .held with release := some 5000001 }
     s.placement home b n = some p ∧ p.release = some v ∧ s.now.toNat < v.toNat) ∧
    (let s : State := smallLaunch [] [{ smallPlace .held with frozen := true, holdStart := some 4, lates := [(0, 0, 5)] }]
     let b : Nat := 1
     let n : Nat := 1
     let v : BitVec 64 := 4
     let p : Placement := { smallPlace .held with frozen := true, holdStart := some 4, lates := [(0, 0, 5)] }
     s.ownPlacement b n = some p ∧ p.holdStart = some v ∧ p.frozen = true ∧ p.lates ≠ [] ∧ p.holdLong = false ∧ v.toNat + 1000 ≤ s.now.toNat ∧ (s.bench b).state ≠ .vacant ∧ (s.bench b).notices.pending.length + (s.bench b).notices.writing.toList.length < 64) ∧
    (let s : State := smallLaunch [] [{ smallPlace .held with holdLong := true }]
     let b : Nat := 1
     let n : Nat := 1
     let p : Placement := { smallPlace .held with holdLong := true }
     s.ownPlacement b n = some p ∧ p.holdLong = true) := by
  refine ⟨?_, ?_, ?_, ?_, ?_, ?_, ?_, ?_, ?_, ?_, ?_, ?_, ?_, ?_, ?_, ?_⟩ <;> decide +kernel

theorem test_witness_AnnealSteps :
    (let s : State := { smallAnneal [] with chip := small.chip }
     let u : State := { smallAnneal [] with chip := small.chip }
     let b : Nat := 1
     let r : Nat := 0
     let d : Desc := annealDesc
     let block : LoadResult := .ok [] []
     s.begin b r 0x21 = some (d, u) ∧ (u.giveUp b r 1).annealOf b r = none ∧ ((u.giveUp b r 1).chip.cfg.bind ImageCfg.burl).map BurlCfg.tenantEnable ≠ some true) ∧
    (let s : State := smallAnneal []
     let u : State := smallAnneal []
     let w : State := smallAnneal []
     let x : State := (w.load 1 (operandOf annealDesc.bytes annealDesc.order 0 false) 0 0x78).getD w
     let v : State := x.engineCharge 1 (w.ring 1 0).clusterB 0x78
     let b : Nat := 1
     let r : Nat := 0
     let n : Nat := 0x78
     let d : Desc := annealDesc
     let data : List Byte := smallJobBlock
     let params : List Byte := []
     let y : List Byte := smallJobBlock
     s.begin b r 0x21 = some (d, u) ∧ w = u.giveUp b r 1 ∧ w.jobs = [] ∧ (w.chip.cfg.bind ImageCfg.burl).map BurlCfg.tenantEnable = some true ∧ w.classHas b BenchClass.burlDense = true ∧ (w.bench b).rateOpen = true ∧ w.loaded b (operandOf d.bytes d.order 0 false) 96 (.ok data params) = .ok data params ∧ n = jobLength (w.allBytes b (operandOf d.bytes d.order 0 false) data 96) ∧ w.scanAll b (operandOf d.bytes d.order 0 false) 96 = none ∧ w.scanAll b (operandOf d.bytes d.order 0 false) n = none ∧ w.load b (operandOf d.bytes d.order 0 false) 0 n = some x ∧ v = x.engineCharge b (w.ring b r).clusterB n ∧ y = w.allBytes b (operandOf d.bytes d.order 0 false) data n ∧ field y 4 1 = 1 ∧ v.jobFailure y = none ∧ (jobSpec y).trace = false ∧ ((jobSpec y).results.all fun h => (v.billetKey b d.order h.toNat 0).isSome) = true ∧ 64 + 2 * stateBytes (jobSpec y).spins ≤ v.resultBytes (jobSpec y).results ∧ (jobSpec y).parts = [] ∧ w.dense.outOfService = false ∧ (jobSpec y).spins * (jobSpec y).spins * ((jobSpec y).width / 8) + (jobSpec y).spins * ((jobSpec y).width / 8) ≤ denseStore w.big) ∧
    (let s : State := smallAnneal [smallJob .admission]
     let b : Nat := 1
     let r : Nat := 0
     let l : List Nat := []
     let j : Job := smallJob .admission
     s.annealOf b r = some j ∧ j.phase = .admission ∧ (s.bench b).state ≠ .sweeping ∧ j.spec.parts = [] ∧ s.jobs.find? (fun x => x.spec.lattice == j.spec.lattice && x.phase == .admission) = some j ∧ (s.engine j.spec.lattice).outOfService = false ∧ (j.spec.lattice = true ∨ s.storeUsed + j.store ≤ denseStore s.big)) ∧
    (let s : State := smallAnneal [smallJob .load]
     let u : State := (s.load 1 ⟨0, annealDesc.order, (smallJob .load).spec.coefSel, pasidOf annealDesc.bytes, (smallJob .load).spec.coef.toNat, specCoefs (smallJob .load).spec * ((smallJob .load).spec.width / 8), false⟩ 0 (specCoefs (smallJob .load).spec * ((smallJob .load).spec.width / 8))).getD s
     let b : Nat := 1
     let r : Nat := 0
     let d : Desc := annealDesc
     let j : Job := smallJob .load
     let coef : List Byte := []
     let init : List Byte := []
     s.annealOf b r = some j ∧ s.desc b r j.desc = some d ∧ j.phase = .load ∧ d.phase = .started ∧ (s.bench b).state ≠ .sweeping ∧ s.channelRuns b r = true ∧ (s.bench b).rateOpen = true ∧ j.spec.parts = [] ∧ j.spec.initRandom = true ∧ j.spec.target = false ∧ s.scanAll b ⟨0, d.order, j.spec.coefSel, pasidOf d.bytes, j.spec.coef.toNat, specCoefs j.spec * (j.spec.width / 8), false⟩ (specCoefs j.spec * (j.spec.width / 8)) = none ∧ s.scanAll b ⟨0, d.order, j.spec.initSel, pasidOf d.bytes, j.spec.init.toNat, 0, false⟩ 0 = none ∧ s.load b ⟨0, d.order, j.spec.coefSel, pasidOf d.bytes, j.spec.coef.toNat, specCoefs j.spec * (j.spec.width / 8), false⟩ 0 (specCoefs j.spec * (j.spec.width / 8)) = some u ∧ s.loaded b ⟨0, d.order, j.spec.coefSel, pasidOf d.bytes, j.spec.coef.toNat, specCoefs j.spec * (j.spec.width / 8), false⟩ (specCoefs j.spec * (j.spec.width / 8)) (.ok coef init) = .ok coef init ∧ s.loaded b ⟨0, d.order, j.spec.initSel, pasidOf d.bytes, j.spec.init.toNat, 0, false⟩ 0 (.ok coef init) = .ok coef init) ∧
    (let s : State := smallAnneal [{ smallJob .running with sweeps := 1 }]
     let j : Job := { smallJob .running with sweeps := 1 }
     s.runningJob j.spec.lattice = some j ∧ j.phase = .running ∧ s.domainWorks 9 = true ∧ s.sliceDue j = false ∧ (s.bench j.bench).state ≠ .sweeping ∧ j.strip = none ∧ s.jobOf j.home j.bench j.ring none = some j) ∧
    (let s : State := { smallAnneal [smallJob .running] with dense := { small.dense with sliceTime := 20 * 64000000 } }
     let j : Job := smallJob .running
     s.runningJob j.spec.lattice = some j ∧ s.sliceDue j = true ∧ s.jobOf j.home j.bench j.ring j.strip = some j) ∧
    (let s : State := smallAnneal [smallJob .saving]
     let j : Job := smallJob .saving
     s.runningJob j.spec.lattice = some j ∧ j.phase = .saving) ∧
    (let s : State := smallGuest [{ smallStrip .barrier with strip := some 1 }]
     let home : Nat := 3
     let b : Nat := 1
     let r : Nat := 0
     let k : Nat := 1
     let source : Nat := 0
     let n : Nat := 1
     let incarn : BitVec 16 := 9
     let first : List Bool := []
     let last : List Bool := [true]
     let e : Int := 0
     let j : Job := { smallStrip .barrier with strip := some 1 }
     s.msgCurrent home b incarn = true ∧ (k ≠ 255 ∨ home ≠ s.hubId) ∧ s.jobOf home b r (some k) = some j ∧ source + 1 = k ∧ j.haloAbove < n) ∧
    (let s : State := smallGuest [smallStrip .running]
     let home : Nat := 3
     let b : Nat := 1
     let r : Nat := 0
     let k : Nat := 0
     let source : Nat := 1
     let n : Nat := 1
     let incarn : BitVec 16 := 9
     let first : List Bool := [true]
     let last : List Bool := [true]
     let e : Int := 0
     let j : Job := smallStrip .running
     s.msgCurrent home b incarn = true ∧ (k ≠ 255 ∨ home ≠ s.hubId) ∧ s.jobOf home b r (some k) = some j ∧ source = k + 1 ∧ j.haloBelow < n ∧ j.phase ≠ .barrier) ∧
    (let s : State := smallGuest []
     let home : Nat := 3
     let b : Nat := 1
     let r : Nat := 0
     let k : Nat := 0
     let source : Nat := 1
     let n : Nat := 1
     let incarn : BitVec 16 := 8
     let first : List Bool := [true]
     let last : List Bool := []
     let e : Int := 0
     s.msgCurrent home b incarn = false) ∧
    (let s : State := smallAnneal [smallJob .writing]
     let b : Nat := 1
     let r : Nat := 0
     let d : Desc := annealDesc
     let j : Job := smallJob .writing
     s.annealOf b r = some j ∧ j.phase = .writing ∧ (s.bench b).state ≠ .sweeping ∧ s.desc b r j.desc = some d ∧ d.status = none ∧ d.sealNote = none) ∧
    (let s : State := smallGuest []
     let home : Nat := 3
     let b : Nat := 1
     let r : Nat := 0
     let g : Nat := 0
     let k : Nat := 0
     let incarn : BitVec 16 := 9
     let cls : Nat := 1
     let cap : BitVec 32 := 0
     let j : JobSpec := stripSpec
     let coef : List Byte := []
     let init : List Bool := [true, false, true, true]
     s.chartered = true ∧ home ≠ s.hubId ∧ s.guestSlot home b = some g ∧ s.msgCurrent home b incarn = true ∧ s.jobOf home b r (some k) = none ∧ s.latticeStripTooBig j k = false) ∧
    (let s : State := smallAnneal [{ smallJob .gathering with spec := stripSpec }]
     let b : Nat := 1
     let r : Nat := 0
     let k : Nat := 0
     let incarn : BitVec 16 := 0
     let best : List Bool := []
     let final : List Bool := []
     let j : Job := { smallJob .gathering with spec := stripSpec }
     s.msgCurrent s.hubId b incarn = true ∧ s.jobOf s.hubId b r none = some j ∧ j.phase = .gathering ∧ (∃ i, i < j.spec.parts.length ∧ i ≠ k ∧ j.lost.contains i = false ∧ (j.returned.any fun x => x.strip == i) = false)) ∧
    (let s : State := small
     let b : Nat := 1
     let r : Nat := 0
     let k : Nat := 0
     let incarn : BitVec 16 := 7
     let best : List Bool := []
     let final : List Bool := []
     s.msgCurrent s.hubId b incarn = false) ∧
    (let s : State := { smallAnneal [smallJob .running] with hearth := (smallPd 9 .off).hearth }
     let j : Job := smallJob .running
     s.runningJob j.spec.lattice = some j ∧ s.domainWorks 9 = false) ∧
    (let s : State := smallGuest []
     let home : Nat := 3
     let b : Nat := 1
     let r : Nat := 0
     let k : Nat := 0
     let incarn : BitVec 16 := 9
     let cls : Nat := 1
     let cap : BitVec 32 := 0
     let j : JobSpec := { stripSpec with cols := 2048 }
     let coef : List Byte := []
     let init : List Bool := []
     s.chartered = true ∧ home ≠ s.hubId ∧ s.msgCurrent home b incarn = true ∧ s.jobOf home b r (some k) = none ∧ s.latticeStripTooBig j k = true) ∧
    (let s : State := smallAnneal [{ smallJob .barrier with spec := stripSpec }]
     let b : Nat := 1
     let r : Nat := 0
     let l : List Nat := [3]
     let j : Job := { smallJob .barrier with spec := stripSpec }
     s.annealOf b r = some j ∧ (s.bench b).state ≠ .sweeping ∧ j.phase = .barrier ∧ j.sweeps = 0 ∧ (j.spec.parts.any fun p => p.1 != s.hubId && l.contains p.1) = true) := by
  refine ⟨?_, ?_, ?_, ?_, ?_, ?_, ?_, ?_, ?_, ?_, ?_, ?_, ?_, ?_, ?_, ?_, ?_⟩ <;> decide +kernel

theorem test_witness_MovesOfTheBurl :
    (let j : Job := { smallJob .running with spins := [] }
     let w : List Nat := []
     w = (List.range j.spins.length).map (fun k => weight ((2 * spinVal ((j.spins[k]?).getD false) * j.localField k * ((betaAt j.spec.segments j.sweeps).1 : Int)).fdiv (2 ^ (betaAt j.spec.segments j.sweeps).2))) ∧ w.sum = 0) ∧
    (let j : Job := smallJob .running
     let w : List Nat := [16777216, 16777216]
     let o : Nat × Nat × Nat × Nat := philox (smallJob .running).spec.seed 0 0 0 0
     let r : Nat := 29545355
     let i : Nat := 1
     w = (List.range j.spins.length).map (fun k => weight ((2 * spinVal ((j.spins[k]?).getD false) * j.localField k * ((betaAt j.spec.segments j.sweeps).1 : Int)).fdiv (2 ^ (betaAt j.spec.segments j.sweeps).2))) ∧ o = philox j.spec.seed j.move (j.move / 2 ^ 32) (j.strip.getD 0) 0 ∧ r = (o.1 + 2 ^ 32 * o.2.1) * w.sum / 2 ^ 64 ∧ i < w.length ∧ (w.take i).sum ≤ r ∧ r < (w.take (i + 1)).sum) ∧
    (let g : Segment := ⟨3, 5, 9, 1⟩
     let l : List Segment := []
     let k : Nat := 4
     g.sweeps ≤ k) ∧
    (let g : Segment := ⟨3, 5, 9, 1⟩
     let l : List Segment := []
     let k : Nat := 1
     k < g.sweeps ∧ g.betaStart ≤ g.betaEnd) ∧
    (let g : Segment := ⟨3, 9, 5, 1⟩
     let l : List Segment := []
     let k : Nat := 1
     k < g.sweeps ∧ g.betaEnd ≤ g.betaStart) := by
  refine ⟨?_, ?_, ?_, ?_, ?_⟩ <;> decide +kernel

theorem test_witness_SealedStreams :
    (let s : State := (smallDesc { readyDesc (descBytes 0x50 [(6, 2)]) with phase := .started }).modBench 1 fun x => { x with classId := 9 }
     let u : State := (smallDesc { readyDesc (descBytes 0x50 [(6, 2)]) with phase := .started }).modBench 1 fun x => { x with classId := 9 }
     let b : Nat := 1
     let r : Nat := 0
     let d : Desc := { readyDesc (descBytes 0x50 [(6, 2)]) with phase := .started }
     let block : LoadResult := .ok [] []
     s.structureHeld .billets b = false ∧ s.begin b r 0x50 = some (d, u) ∧ (u.classHas b BenchClass.sealAllowed = false ∨ u.classHas b BenchClass.peerAllowed = false)) ∧
    (let s : State := { smallTable 0x2F with headstock := { small.headstock with cache := [smallLeaf] } }.modBench 1 fun x => { x with rings := [(0, { ringIn .running with descs := [{ readyDesc (descBytes 0x50 [(6, 2)]) with phase := .started }], tail := 1, fetchNext := 1 })] }
     let u : State := { smallTable 0x2F with headstock := { small.headstock with cache := [smallLeaf] } }.modBench 1 fun x => { x with rings := [(0, { ringIn .running with descs := [{ readyDesc (descBytes 0x50 [(6, 2)]) with phase := .started }], tail := 1, fetchNext := 1 })] }
     let v : State := (u.load 1 (operandOf (descBytes 0x50 [(6, 2)]) 0 0 false) 0 32).getD u
     let b : Nat := 1
     let r : Nat := 0
     let d : Desc := { readyDesc (descBytes 0x50 [(6, 2)]) with phase := .started }
     let data : List Byte := List.replicate 8 0 ++ leBytes 4 4096 ++ leBytes 4 2 ++ List.replicate 16 0
     let params : List Byte := []
     let p : List Byte := List.replicate 8 0 ++ leBytes 4 4096 ++ leBytes 4 2 ++ List.replicate 16 0
     s.structureHeld .billets b = false ∧ s.begin b r 0x50 = some (d, u) ∧ u.classHas b BenchClass.sealAllowed = true ∧ u.classHas b BenchClass.peerAllowed = true ∧ u.scanAll b (operandOf d.bytes d.order 0 false) 32 = none ∧ u.load b (operandOf d.bytes d.order 0 false) 0 32 = some v ∧ u.loaded b (operandOf d.bytes d.order 0 false) 32 (.ok data params) = .ok data params ∧ p = u.allBytes b (operandOf d.bytes d.order 0 false) data 32 ∧ sealFailure p = none ∧ v.sealOverlaps b (field p 0 8) (field p 8 4 * field p 0x0C 2) = false ∧ (v.bench b).peer.enable = true ∧ field p 0 8 + field p 8 4 * field p 0x0C 2 ≤ 2 ^ 34 ∧ v.unmappedPage b (field p 0 8) (field p 8 4 * field p 0x0C 2) = none ∧ (v.streams.filter fun e => e.2.isOpen && e.2.bench == b).length < 8 ∧ v.billetHeld b + field p 8 4 * field p 0x0C 2 / 1024 ≤ (v.bench b).limits.billet.toNat ∧ v.desc b r d.count = some d ∧ d.status = none ∧ d.sealNote = none) ∧
    (let s : State := { smallDesc { readyDesc (descBytes 0x51 [(12, 0x42)]) with phase := .started } with streams := [(2, { Stream.reset with isOpen := true, gen := 1, bench := 1, slotSize := 4096, slots := 2, captured := [⟨0, [], 0, none, [], (0, 0), none⟩] })] }
     let u : State := { smallDesc { readyDesc (descBytes 0x51 [(12, 0x42)]) with phase := .started } with streams := [(2, { Stream.reset with isOpen := true, gen := 1, bench := 1, slotSize := 4096, slots := 2, captured := [⟨0, [], 0, none, [], (0, 0), none⟩] })] }
     let b : Nat := 1
     let r : Nat := 0
     let d : Desc := { readyDesc (descBytes 0x51 [(12, 0x42)]) with phase := .started }
     s.begin b r 0x51 = some (d, u) ∧ u.holdsSource b (.stream (field d.bytes 0x0C 2)) = true ∧ (u.stream (field d.bytes 0x0C 2 % 64)).closing = none ∧ (u.stream (field d.bytes 0x0C 2 % 64)).captured ≠ []) ∧
    (let s : State := { smallDesc { readyDesc (descBytes 0x51 [(12, 0x42)]) with phase := .started } with streams := [(2, { Stream.reset with isOpen := true, gen := 1, bench := 1, slotSize := 4096, slots := 2 })] }
     let u : State := { smallDesc { readyDesc (descBytes 0x51 [(12, 0x42)]) with phase := .started } with streams := [(2, { Stream.reset with isOpen := true, gen := 1, bench := 1, slotSize := 4096, slots := 2 })] }
     let b : Nat := 1
     let r : Nat := 0
     let d : Desc := { readyDesc (descBytes 0x51 [(12, 0x42)]) with phase := .started }
     s.begin b r 0x51 = some (d, u) ∧ u.holdsSource b (.stream (field d.bytes 0x0C 2)) = true ∧ (u.stream (field d.bytes 0x0C 2 % 64)).closing = none ∧ (u.stream (field d.bytes 0x0C 2 % 64)).captured = []) ∧
    (let s : State := { small with streams := [(2, { Stream.reset with isOpen := true, gen := 1, bench := 1, slotSize := 64, slots := 2, captured := [⟨0, [], 0, none, [], (0, 0), none⟩] })] }
     let i : Nat := 2
     let f : Frame := ⟨0, [], 0, none, [], (0, 0), none⟩
     let rest : List Frame := []
     (s.stream i).captured = f :: rest ∧ (s.stream i).isOpen = true ∧ (s.stream i).closing = none ∧ f.outcome = none ∧ ((s.stream i).judge f).forwarded = false) ∧
    (let s : State := { small with streams := [(2, { Stream.reset with isOpen := true, gen := 1, bench := 1, slotSize := 32, slots := 2, expected := 0xFFFFFFFE, captured := [⟨0, splice (List.replicate 32 0) 0x14 (leBytes 4 (crc32c (List.replicate 20 0))), 0, none, [], (0, 0), none⟩] })] }
     let i : Nat := 2
     let f : Frame := ⟨0, splice (List.replicate 32 0) 0x14 (leBytes 4 (crc32c (List.replicate 20 0))), 0, none, [], (0, 0), none⟩
     let rest : List Frame := []
     let o : FrameOutcome := .gap 2
     let l : List (Nat × Nat) := []
     (s.stream i).captured = f :: rest ∧ (s.stream i).isOpen = true ∧ f.outcome = none ∧ (s.stream i).judge f = o ∧ o.forwarded = true ∧ s.forwardPages (s.stream i).bench ((s.stream i).window + f.slot * (s.stream i).slotSize) ((s.stream i).slotSize / 4096) = .inl l) ∧
    (let s : State := { small with streams := [(2, { Stream.reset with isOpen := true, gen := 1, bench := 1, slotSize := 4096, slots := 2, expected := 0xFFFFFFFE, captured := [⟨0, List.replicate 4084 0 ++ leBytes 4 (crc32c (List.replicate 20 0)) ++ List.replicate 8 0, 0, none, [], (0, 0), none⟩] })] }
     let i : Nat := 2
     let cause : Nat := 1
     let off : Nat := 0
     let f : Frame := ⟨0, List.replicate 4084 0 ++ leBytes 4 (crc32c (List.replicate 20 0)) ++ List.replicate 8 0, 0, none, [], (0, 0), none⟩
     let rest : List Frame := []
     (s.stream i).captured = f :: rest ∧ (s.stream i).isOpen = true ∧ f.outcome = none ∧ ((s.stream i).judge f).forwarded = true ∧ s.forwardPages (s.stream i).bench ((s.stream i).window + f.slot * (s.stream i).slotSize) ((s.stream i).slotSize / 4096) = .inr (cause, off)) ∧
    (let s : State := { small with streams := [(2, { Stream.reset with isOpen := true, gen := 1, bench := 1, slotSize := 64, slots := 2, captured := [⟨0, [], 0, some .good, [], (0, 0), some 5⟩] })] }
     let i : Nat := 2
     let f : Frame := ⟨0, [], 0, some .good, [], (0, 0), some 5⟩
     let rest : List Frame := []
     (s.stream i).captured = f :: rest ∧ (f.payload ≠ [] ∨ f.outcome = none ∨ f.trailer.isSome = true)) ∧
    (let s : State := { small with streams := [(2, { Stream.reset with isOpen := true, gen := 1, bench := 1, slotSize := 64, slots := 2, captured := [⟨0, [], 0, some .good, [], (0, 0), some 5⟩] })] }
     let i : Nat := 2
     let f : Frame := ⟨0, [], 0, some .good, [], (0, 0), some 5⟩
     let rest : List Frame := []
     let o : FrameOutcome := .good
     let id : Nat := 5
     (s.stream i).captured = f :: rest ∧ f.outcome = some o ∧ f.trailer = some id ∧ s.unsent (.put id) = false ∧ o.forwarded = true ∧ (s.stream i).closing = none) ∧
    (let s : State := { small with streams := [(2, { Stream.reset with isOpen := true, gen := 1, bench := 1, slotSize := 64, slots := 2, captured := [⟨0, [], 0, some .good, [], (0, 0), none⟩] })] }
     let i : Nat := 2
     let f : Frame := ⟨0, [], 0, some .good, [], (0, 0), none⟩
     let rest : List Frame := []
     (s.stream i).captured = f :: rest ∧ f.trailer = none) := by
  refine ⟨?_, ?_, ?_, ?_, ?_, ?_, ⟨rfl, ?_, rfl, ?_, ?_⟩, ?_, ?_, ?_⟩ <;> decide +kernel

theorem test_witness_LeafMigration :
    (let s : State := { small with mig := { small.mig with busy := true } }
     s.decodes s.mgmtFn.1 s.mgmtFn.2 = true ∧ (s.bench 0).detached = false ∧ s.mig.busy = true) ∧
    (let s : State := small
     s.decodes s.mgmtFn.1 s.mgmtFn.2 = true ∧ (s.bench 0).detached = false ∧ s.mig.busy = false ∧ field s.mig.arg 1 1 = 0) ∧
    (let s : State := smallMig Mig.reset
     let u : State := State.stir { s.unstageHub with mig := { s.mig with busy := true, result := 0, index := 0, leaf := s.mig.dva, dest := s.mig.first } } 8
     let e : Nat := 0x001000000000000B
     let n : Nat := 2
     s.decodes s.mgmtFn.1 s.mgmtFn.2 = true ∧ (s.bench 0).detached = false ∧ s.mig.busy = false ∧ u = State.stir { s.unstageHub with mig := { s.mig with busy := true, result := 0, index := 0, leaf := s.mig.dva, dest := s.mig.first } } 8 ∧ u.migBadArgs = false ∧ (u.bench u.mig.bench).state ≠ .sweeping ∧ 0 < s.mig.length ∧ (u.tableOf u.mig.bench).leaf u.mig.dva = some (n, e) ∧ u.migCheck n e = 0) ∧
    (let s : State := smallMig { Mig.reset with stage := .copying }
     let x : FetchResult := .hostError
     (x = .hostError ∨ x = .hostTimeout ∨ x = .poisoned) ∧ s.mig.stage = .copying ∧ s.structureHeld .table s.mig.bench = false ∧ s.migQuiet = true ∧ (s.bench s.mig.bench).rateOpen = true ∧ (s.mig.toDie = true → (s.port (s.bench s.mig.bench).port).tagFree = true)) ∧
    (let s : State := smallMig { Mig.reset with stage := .copying }
     let y : List Byte := []
     s.mig.stage = .copying ∧ s.structureHeld .table s.mig.bench = false ∧ s.migQuiet = true ∧ (s.bench s.mig.bench).rateOpen = true ∧ (s.mig.toDie = true → (s.port (s.bench s.mig.bench).port).tagFree = true)) ∧
    (let s : State := smallMig { Mig.reset with busy := true, stage := .draining }
     s.mig.stage = .draining ∧ s.mig.readers = [] ∧ s.mig.dva + s.mig.length ≤ s.mig.leaf + 2 ^ s.mig.leafSize) := by
  refine ⟨?_, ?_, ?_, ?_, ?_, ?_⟩ <;> decide +kernel

theorem test_witness_BenchCommands :
    (let s : State := { small with mailbox := { small.mailbox with busy := true } }
     s.decodes s.mgmtFn.1 s.mgmtFn.2 = true ∧ (s.bench 0).detached = false ∧ s.mailbox.busy = true) ∧
    (let s : State := { small with mailbox := { small.mailbox with busy := true } }
     s.decodes s.mgmtFn.1 s.mgmtFn.2 = true ∧ (s.bench 0).detached = false ∧ s.mailbox.busy = true) ∧
    (let s : State := { small with mailbox := { small.mailbox with busy := true } }
     s.decodes s.mgmtFn.1 s.mgmtFn.2 = true ∧ (s.bench 0).detached = false ∧ s.mailbox.busy = true) ∧
    (let s : State := { small with mailbox := { small.mailbox with busy := true } }
     s.decodes s.mgmtFn.1 s.mgmtFn.2 = true ∧ (s.bench 0).detached = false ∧ s.mailbox.busy = true) ∧
    (let s : State := { small with mailbox := { small.mailbox with busy := true } }
     s.decodes s.mgmtFn.1 s.mgmtFn.2 = true ∧ (s.bench 0).detached = false ∧ s.mailbox.busy = true) ∧
    (let s : State := { small with mailbox := { small.mailbox with busy := true } }
     s.decodes s.mgmtFn.1 s.mgmtFn.2 = true ∧ (s.bench 0).detached = false ∧ s.mailbox.busy = true) ∧
    (let s : State := { small with mailbox := { small.mailbox with busy := true } }
     s.decodes s.mgmtFn.1 s.mgmtFn.2 = true ∧ (s.bench 0).detached = false ∧ s.mailbox.busy = true) ∧
    (let s : State := { small with mailbox := { small.mailbox with busy := true } }
     s.decodes s.mgmtFn.1 s.mgmtFn.2 = true ∧ (s.bench 0).detached = false ∧ s.mailbox.busy = true ∧ s.returning = none) ∧
    (let s : State := argIn small [(0, [2]), (2, [1]), (4, [2, 1])]
     let u : State := acceptedIn (argIn small [(0, [2]), (2, [1]), (4, [2, 1])]) 1
     let a : BenchArg := benchArg (argIn small [(0, [2]), (2, [1]), (4, [2, 1])]).mailbox.arg
     s.decodes s.mgmtFn.1 s.mgmtFn.2 = true ∧ (s.bench 0).detached = false ∧ s.mailbox.busy = false ∧ ((s.bench 0).state = .active ∨ (s.bench 0).state = .held) ∧ a = benchArg s.mailbox.arg ∧ u = State.stir { s.unstageHub with mailbox := { s.mailbox with busy := true, code := 1, token := 0, bench := a.bench } } 8 ∧ u.formCheck a = 0 ∧ (s.port a.port).link.isUp = true) ∧
    (let s : State := argIn small [(0, [1])]
     let u : State := acceptedIn (argIn small [(0, [1])]) 1
     let a : BenchArg := benchArg (argIn small [(0, [1])]).mailbox.arg
     s.decodes s.mgmtFn.1 s.mgmtFn.2 = true ∧ (s.bench 0).detached = false ∧ s.mailbox.busy = false ∧ ((s.bench 0).state = .active ∨ (s.bench 0).state = .held) ∧ a = benchArg s.mailbox.arg ∧ u = State.stir { s.unstageHub with mailbox := { s.mailbox with busy := true, code := 1, token := 0, bench := a.bench } } 8 ∧ u.formCheck a ≠ 0) ∧
    (let s : State := { (small.modBench 2 fun x => { x with state := .forming, classId := 1 }) with forming := some 2, mailbox := { small.mailbox with busy := true, code := 1 } }
     let b : Nat := 2
     s.forming = some b ∧ s.formingFlr = false) ∧
    (let s : State := argIn small [(0, [1]), (0x30, [2])]
     let u : State := acceptedIn (argIn small [(0, [1]), (0x30, [2])]) 2
     let a : BenchArg := benchArg (argIn small [(0, [1]), (0x30, [2])]).mailbox.arg
     s.decodes s.mgmtFn.1 s.mgmtFn.2 = true ∧ (s.bench 0).detached = false ∧ s.mailbox.busy = false ∧ ((s.bench 0).state = .active ∨ (s.bench 0).state = .held) ∧ a = benchArg s.mailbox.arg ∧ u = State.stir { s.unstageHub with mailbox := { s.mailbox with busy := true, code := 2, token := 0, bench := a.bench } } 8 ∧ u.commandCheck a [.active, .held] = 0 ∧ u.limitsOverClass a.bench a.limits = false ∧ u.limitsInUse a.bench a.limits = false) ∧
    (let s : State := argIn small [(0, [1]), (0x30, [9])]
     let u : State := acceptedIn (argIn small [(0, [1]), (0x30, [9])]) 2
     let a : BenchArg := benchArg (argIn small [(0, [1]), (0x30, [9])]).mailbox.arg
     s.decodes s.mgmtFn.1 s.mgmtFn.2 = true ∧ (s.bench 0).detached = false ∧ s.mailbox.busy = false ∧ ((s.bench 0).state = .active ∨ (s.bench 0).state = .held) ∧ a = benchArg s.mailbox.arg ∧ u = State.stir { s.unstageHub with mailbox := { s.mailbox with busy := true, code := 2, token := 0, bench := a.bench } } 8 ∧ u.commandCheck a [.active, .held] = 0 ∧ u.limitsOverClass a.bench a.limits = true) ∧
    (let s : State := argIn small [(0, [1]), (6, [1])]
     let u : State := acceptedIn (argIn small [(0, [1]), (6, [1])]) 3
     let a : BenchArg := benchArg (argIn small [(0, [1]), (6, [1])]).mailbox.arg
     s.decodes s.mgmtFn.1 s.mgmtFn.2 = true ∧ (s.bench 0).detached = false ∧ s.mailbox.busy = false ∧ ((s.bench 0).state = .active ∨ (s.bench 0).state = .held) ∧ a = benchArg s.mailbox.arg ∧ u = State.stir { s.unstageHub with mailbox := { s.mailbox with busy := true, code := 3, token := 0, bench := a.bench } } 8 ∧ u.commandCheck a [.active, .held] = 0 ∧ u.classHas a.bench BenchClass.keepAllowed = true) ∧
    (let s : State := argIn small [(0, [1])]
     let u : State := acceptedIn (argIn small [(0, [1])]) 4
     let a : BenchArg := benchArg (argIn small [(0, [1])]).mailbox.arg
     s.decodes s.mgmtFn.1 s.mgmtFn.2 = true ∧ (s.bench 0).detached = false ∧ s.mailbox.busy = false ∧ ((s.bench 0).state = .active ∨ (s.bench 0).state = .held) ∧ a = benchArg s.mailbox.arg ∧ u = State.stir { s.unstageHub with mailbox := { s.mailbox with busy := true, code := 4, token := 0, bench := a.bench } } 8 ∧ a.bench ≠ 0 ∧ u.commandCheck a [.active] = 0) ∧
    (let s : State := argIn small []
     let u : State := acceptedIn (argIn small []) 4
     let a : BenchArg := benchArg (argIn small []).mailbox.arg
     s.decodes s.mgmtFn.1 s.mgmtFn.2 = true ∧ (s.bench 0).detached = false ∧ s.mailbox.busy = false ∧ ((s.bench 0).state = .active ∨ (s.bench 0).state = .held) ∧ a = benchArg s.mailbox.arg ∧ u = State.stir { s.unstageHub with mailbox := { s.mailbox with busy := true, code := 4, token := 0, bench := a.bench } } 8 ∧ a.bench = 0) ∧
    (let s : State := argIn (small.modBench 1 fun x => { x with state := .held, holdCause := 2 }) [(0, [1])]
     let u : State := acceptedIn (argIn (small.modBench 1 fun x => { x with state := .held, holdCause := 2 }) [(0, [1])]) 5
     let a : BenchArg := benchArg (argIn (small.modBench 1 fun x => { x with state := .held, holdCause := 2 }) [(0, [1])]).mailbox.arg
     s.decodes s.mgmtFn.1 s.mgmtFn.2 = true ∧ (s.bench 0).detached = false ∧ s.mailbox.busy = false ∧ ((s.bench 0).state = .active ∨ (s.bench 0).state = .held) ∧ a = benchArg s.mailbox.arg ∧ u = State.stir { s.unstageHub with mailbox := { s.mailbox with busy := true, code := 5, token := 0, bench := a.bench } } 8 ∧ u.commandCheck a [.held] = 0) ∧
    (let s : State := argIn small [(0, [1]), (6, [2])]
     let u : State := acceptedIn (argIn small [(0, [1]), (6, [2])]) 6
     let a : BenchArg := benchArg (argIn small [(0, [1]), (6, [2])]).mailbox.arg
     s.decodes s.mgmtFn.1 s.mgmtFn.2 = true ∧ (s.bench 0).detached = false ∧ s.mailbox.busy = false ∧ ((s.bench 0).state = .active ∨ (s.bench 0).state = .held) ∧ a = benchArg s.mailbox.arg ∧ u = State.stir { s.unstageHub with mailbox := { s.mailbox with busy := true, code := 6, token := 0, bench := a.bench } } 8 ∧ (a.bench ≠ 0 ∨ a.options / 2 % 2 = 0) ∧ u.commandCheck a [.active, .held] = 0) ∧
    (let s : State := argIn (small.modBench 1 fun x => { x with detached := true }) [(0, [1]), (6, [2])]
     let u : State := acceptedIn (argIn (small.modBench 1 fun x => { x with detached := true }) [(0, [1]), (6, [2])]) 6
     let a : BenchArg := benchArg (argIn (small.modBench 1 fun x => { x with detached := true }) [(0, [1]), (6, [2])]).mailbox.arg
     s.decodes s.mgmtFn.1 s.mgmtFn.2 = true ∧ (s.bench 0).detached = false ∧ s.mailbox.busy = false ∧ ((s.bench 0).state = .active ∨ (s.bench 0).state = .held) ∧ a = benchArg s.mailbox.arg ∧ u = State.stir { s.unstageHub with mailbox := { s.mailbox with busy := true, code := 6, token := 0, bench := a.bench } } 8 ∧ a.bench ≠ 0 ∧ u.commandCheck a [.active, .held] = 0 ∧ (s.bench a.bench).detached = true) := by
  refine ⟨?_, ?_, ?_, ?_, ?_, ?_, ?_, ?_, ?_, ?_, ?_, ?_, ?_, ?_, ?_, ?_, ?_, ?_, ?_⟩ <;> decide +kernel

theorem test_witness_DieMemoryGrants :
    (let s : State := argIn ((smallTable 0).modBench 1 fun x => { x with limits := { x.limits with dieMem := 2 ^ 30 } }) [(0, [1, 255]), (0x0B, [1]), (0x10, leBytes 8 (2 ^ 21))]
     let u : State := acceptedIn (argIn ((smallTable 0).modBench 1 fun x => { x with limits := { x.limits with dieMem := 2 ^ 30 } }) [(0, [1, 255]), (0x0B, [1]), (0x10, leBytes 8 (2 ^ 21))]) 7
     let a : BenchArg := benchArg (argIn ((smallTable 0).modBench 1 fun x => { x with limits := { x.limits with dieMem := 2 ^ 30 } }) [(0, [1, 255]), (0x0B, [1]), (0x10, leBytes 8 (2 ^ 21))]).mailbox.arg
     s.decodes s.mgmtFn.1 s.mgmtFn.2 = true ∧ (s.bench 0).detached = false ∧ s.mailbox.busy = false ∧ ((s.bench 0).state = .active ∨ (s.bench 0).state = .held) ∧ a = benchArg s.mailbox.arg ∧ u = State.stir { s.unstageHub with mailbox := { s.mailbox with busy := true, code := 7, token := 0, bench := a.bench } } 8 ∧ u.commandCheck a [.active, .held] = 0 ∧ u.here a.hub = true ∧ a.bench < 256 ∧ u.grantCheck a.die a.offset a.length (u.bench a.bench).dieMemHeld (u.bench a.bench).limits.dieMem.toNat = 0 ∧ u.filling a.die a.offset a.length = false) ∧
    (let s : State := { argIn ((smallTable 0).modBench 1 fun x => { x with limits := { x.limits with dieMem := 2 ^ 30 } }) [(0, [1, 255]), (0x0B, [1]), (0x10, leBytes 8 (2 ^ 21))] with zeroFill := [(0, 2 ^ 24, 4096)] }
     let u : State := acceptedIn ({ argIn ((smallTable 0).modBench 1 fun x => { x with limits := { x.limits with dieMem := 2 ^ 30 } }) [(0, [1, 255]), (0x0B, [1]), (0x10, leBytes 8 (2 ^ 21))] with zeroFill := [(0, 2 ^ 24, 4096)] }) 7
     let a : BenchArg := benchArg ({ argIn ((smallTable 0).modBench 1 fun x => { x with limits := { x.limits with dieMem := 2 ^ 30 } }) [(0, [1, 255]), (0x0B, [1]), (0x10, leBytes 8 (2 ^ 21))] with zeroFill := [(0, 2 ^ 24, 4096)] }).mailbox.arg
     s.decodes s.mgmtFn.1 s.mgmtFn.2 = true ∧ (s.bench 0).detached = false ∧ s.mailbox.busy = false ∧ ((s.bench 0).state = .active ∨ (s.bench 0).state = .held) ∧ a = benchArg s.mailbox.arg ∧ u = State.stir { s.unstageHub with mailbox := { s.mailbox with busy := true, code := 7, token := 0, bench := a.bench } } 8 ∧ u.commandCheck a [.active, .held] = 0 ∧ u.here a.hub = true ∧ u.grantCheck a.die a.offset a.length (u.bench a.bench).dieMemHeld (u.bench a.bench).limits.dieMem.toNat = 0 ∧ u.filling a.die a.offset a.length = true) ∧
    (let s : State := argIn (smallTable 0) [(0, [1, 255]), (0x10, leBytes 8 (2 ^ 21))]
     let u : State := acceptedIn (argIn (smallTable 0) [(0, [1, 255]), (0x10, leBytes 8 (2 ^ 21))]) 7
     let a : BenchArg := benchArg (argIn (smallTable 0) [(0, [1, 255]), (0x10, leBytes 8 (2 ^ 21))]).mailbox.arg
     s.decodes s.mgmtFn.1 s.mgmtFn.2 = true ∧ (s.bench 0).detached = false ∧ s.mailbox.busy = false ∧ ((s.bench 0).state = .active ∨ (s.bench 0).state = .held) ∧ a = benchArg s.mailbox.arg ∧ u = State.stir { s.unstageHub with mailbox := { s.mailbox with busy := true, code := 7, token := 0, bench := a.bench } } 8 ∧ u.commandCheck a [.active, .held] = 0 ∧ u.here a.hub = true ∧ u.grantCheck a.die a.offset a.length (u.bench a.bench).dieMemHeld (u.bench a.bench).limits.dieMem.toNat ≠ 0) ∧
    (let s : State := argIn (smallTable 0) [(0, [1, 255]), (0x10, leBytes 8 (2 ^ 21))]
     let u : State := acceptedIn (argIn (smallTable 0) [(0, [1, 255]), (0x10, leBytes 8 (2 ^ 21))]) 8
     let a : BenchArg := benchArg (argIn (smallTable 0) [(0, [1, 255]), (0x10, leBytes 8 (2 ^ 21))]).mailbox.arg
     s.decodes s.mgmtFn.1 s.mgmtFn.2 = true ∧ (s.bench 0).detached = false ∧ s.mailbox.busy = false ∧ ((s.bench 0).state = .active ∨ (s.bench 0).state = .held) ∧ a = benchArg s.mailbox.arg ∧ u = State.stir { s.unstageHub with mailbox := { s.mailbox with busy := true, code := 8, token := 0, bench := a.bench } } 8 ∧ u.commandCheck a [.active, .held] = 0 ∧ u.here a.hub = true ∧ a.bench < 256 ∧ u.rangeOk a.die a.offset a.length = true ∧ u.holds a.bench a.die a.offset a.length = true ∧ u.pinnedIn a.bench a.die a.offset a.length = false ∧ (s.die a.die).state ≠ .recovery) ∧
    (let s : State := { argIn (smallTable 0) [(0, [1, 255]), (0x10, leBytes 8 (2 ^ 21))] with headstock := { small.headstock with pins := [smallLeaf] } }
     let u : State := acceptedIn ({ argIn (smallTable 0) [(0, [1, 255]), (0x10, leBytes 8 (2 ^ 21))] with headstock := { small.headstock with pins := [smallLeaf] } }) 8
     let a : BenchArg := benchArg ({ argIn (smallTable 0) [(0, [1, 255]), (0x10, leBytes 8 (2 ^ 21))] with headstock := { small.headstock with pins := [smallLeaf] } }).mailbox.arg
     s.decodes s.mgmtFn.1 s.mgmtFn.2 = true ∧ (s.bench 0).detached = false ∧ s.mailbox.busy = false ∧ ((s.bench 0).state = .active ∨ (s.bench 0).state = .held) ∧ a = benchArg s.mailbox.arg ∧ u = State.stir { s.unstageHub with mailbox := { s.mailbox with busy := true, code := 8, token := 0, bench := a.bench } } 8 ∧ u.commandCheck a [.active, .held] = 0 ∧ u.here a.hub = true ∧ u.rangeOk a.die a.offset a.length = true ∧ u.holds a.bench a.die a.offset a.length = true ∧ u.pinnedIn a.bench a.die a.offset a.length = true) ∧
    (let s : State := argIn (smallTable 0) [(0, [1, 255]), (0x0C, [1]), (0x10, leBytes 8 (2 ^ 21))]
     let u : State := acceptedIn (argIn (smallTable 0) [(0, [1, 255]), (0x0C, [1]), (0x10, leBytes 8 (2 ^ 21))]) 8
     let a : BenchArg := benchArg (argIn (smallTable 0) [(0, [1, 255]), (0x0C, [1]), (0x10, leBytes 8 (2 ^ 21))]).mailbox.arg
     s.decodes s.mgmtFn.1 s.mgmtFn.2 = true ∧ (s.bench 0).detached = false ∧ s.mailbox.busy = false ∧ ((s.bench 0).state = .active ∨ (s.bench 0).state = .held) ∧ a = benchArg s.mailbox.arg ∧ u = State.stir { s.unstageHub with mailbox := { s.mailbox with busy := true, code := 8, token := 0, bench := a.bench } } 8 ∧ u.commandCheck a [.active, .held] = 0 ∧ u.here a.hub = true ∧ u.holds a.bench a.die a.offset a.length = false) ∧
    (let s : State := { small with zeroFill := [(0, 4096, 4096)] }
     let d : Nat := 0
     let o : Nat := 4096
     let n : Nat := 4096
     s.zeroFill.contains (d, o, n) = true ∧ s.mailbox.busy = false ∧ s.cascade.grantWaits = []) ∧
    (let s : State := { small with zeroFill := [(0, 0, 4096)], cascade := { small.cascade with grantWaits := [(3, 1, 0, 0, 0, 4096)] } }
     let d : Nat := 0
     let o : Nat := 0
     let n : Nat := 4096
     let w : Nat × Nat × Nat × Nat × Nat × Nat := (3, 1, 0, 0, 0, 4096)
     s.zeroFill.contains (d, o, n) = true ∧ s.mailbox.busy = false ∧ s.cascade.grantWaits = [w]) := by
  refine ⟨?_, ?_, ?_, ?_, ?_, ?_, ?_, ?_⟩ <;> decide +kernel

theorem test_witness_DetachDeadlineAndNotices :
    (let s : State := small.modBench 1 fun x => { x with detached := true, deadline := 5 }
     let b : Nat := 1
     b ≠ 0 ∧ ((s.bench b).state = .active ∨ (s.bench b).state = .held) ∧ (s.bench b).detached = true ∧ (s.bench b).keep = false ∧ (s.bench b).deadline ≠ 0 ∧ (s.bench b).deadline.toNat ≤ s.now.toNat ∧ s.domainOn 8 = true) ∧
    (let s : State := small.modBench 1 fun x => { x with detached := true, deadline := 5, keep := true }
     let b : Nat := 1
     ((s.bench b).keep = true ∨ b = 0 ∨ s.now.toNat < (s.bench b).deadline.toNat)) ∧
    (let s : State := small.modBench 1 fun x => { x with notices := { x.notices with enable := true, log2 := 4, tail := 15, phase := true, base := 0x10000, pending := [⟨3, 1, 7, 9, 100, 5, 6, 1⟩] } }
     let b : Nat := 1
     let n : Notice := ⟨3, 1, 7, 9, 100, 5, 6, 1⟩
     let q : NoticeQ := { ((small.modBench 1 fun x => { x with notices := { x.notices with enable := true, log2 := 4, tail := 15, phase := true, base := 0x10000, pending := [⟨3, 1, 7, 9, 100, 5, 6, 1⟩] } }).bench 1).notices with pending := [] }
     s.noticeOpen b = true ∧ (s.bench b).notices.next b s.now = some (n, q)) ∧
    (let s : State := small
     let b : Nat := 1
     s.noticeOpen b = false) ∧
    (let s : State := small.modPort 0 fun x => { x with egress := [⟨1, 1, 4, 0, false, none, some true, .hostWrite 0 1 plainAttr 4096 [1, 0, 0, 0]⟩] }
     let p : Nat := 0
     let x : EgressTlp := ⟨1, 1, 4, 0, false, none, some true, .hostWrite 0 1 plainAttr 4096 [1, 0, 0, 0]⟩
     (s.port p).egress = [x] ∧ s.tlpReady p x = true ∧ x.owner = none ∧ x.notice = some true ∧ x.capped = 0 ∧ (s.bench x.bench).notices.ctrlWait = none) ∧
    (let s : State := small.modBench 1 fun x => { x with notices := { x.notices with enable := true, log2 := 4, tail := 15, phase := true, base := 0x10000, pending := [⟨3, 1, 7, 9, 100, 5, 6, 1⟩] } }
     let b : Nat := 1
     let v : BitVec 32 := 15
     s.decodes (s.bench b).port (s.bench b).fn = true ∧ s.benchServes b = true ∧ (s.bench b).notices.enable = true ∧ ((s.bench b).notices.tail - v).toNat ≤ (s.bench b).notices.size) ∧
    (let s : State := small.modBench 1 fun x => { x with notices := { x.notices with enable := true, log2 := 4, tail := 15, phase := true, base := 0x10000, pending := [⟨3, 1, 7, 9, 100, 5, 6, 1⟩] } }
     let b : Nat := 1
     let v : BitVec 32 := 16
     s.decodes (s.bench b).port (s.bench b).fn = true ∧ s.benchServes b = true ∧ (s.bench b).notices.size < ((s.bench b).notices.tail - v).toNat) ∧
    (let s : State := small.modBench 1 fun x => { x with notices := { x.notices with enable := true, log2 := 4, tail := 15, phase := true, base := 0x10000, pending := [⟨3, 1, 7, 9, 100, 5, 6, 1⟩] } }
     let b : Nat := 1
     s.decodes (s.bench b).port (s.bench b).fn = true ∧ s.benchServes b = true ∧ s.noticeQueued b = false ∧ 4 ≤ (s.bench b).notices.log2.toNat ∧ (s.bench b).notices.log2.toNat ≤ 12) ∧
    (let s : State := small.modBench 1 fun x => { x with notices := { x.notices with log2 := 3 } }
     let b : Nat := 1
     s.decodes (s.bench b).port (s.bench b).fn = true ∧ s.benchServes b = true ∧ s.noticeQueued b = false ∧ ((s.bench b).notices.log2.toNat < 4 ∨ 12 < (s.bench b).notices.log2.toNat)) ∧
    (let s : State := small.modBench 1 fun x => { x with notices := { x.notices with enable := true, log2 := 4, tail := 15, phase := true, base := 0x10000, pending := [⟨3, 1, 7, 9, 100, 5, 6, 1⟩] } }
     let b : Nat := 1
     s.decodes (s.bench b).port (s.bench b).fn = true ∧ s.benchServes b = true ∧ s.noticeQueued b = false) ∧
    (let s : State := small.modPort 0 fun x => { x with egress := [⟨1, 1, 4, 0, false, none, some true, .hostWrite 0 1 plainAttr 4096 [1, 0, 0, 0]⟩] }
     let b : Nat := 1
     let c : Instr := .noticeEnable 1
     let x : Bool := true
     ((c = .noticeEnable b ∧ x = true) ∨ (c = .noticeDisable b ∧ x = false)) ∧ s.decodes (s.bench b).port (s.bench b).fn = true ∧ s.benchServes b = true ∧ s.noticeQueued b = true) := by
  refine ⟨?_, ?_, ?_, ?_, ?_, ?_, ?_, ?_, ?_, ?_, ?_⟩ <;> decide +kernel

theorem test_witness_AttachHandshake :
    (let s : State := small.modBench 1 fun x => { x with detached := true, epoch := 3, token := 77, attach := { x.attach with token := 77 } }
     let b : Nat := 1
     let v : BitVec 64 := 5
     s.running = true ∧ ((s.bench b).state = .active ∨ (s.bench b).state = .held)) ∧
    (let s : State := small.modBench 1 fun x => { x with detached := true, epoch := 3, token := 77, attach := { x.attach with token := 77 } }
     let b : Nat := 1
     let v : BitVec 64 := 5
     s.running = true ∧ ((s.bench b).state = .active ∨ (s.bench b).state = .held)) ∧
    (let s : State := (small.modBench 1 fun x => { x with detached := true, epoch := 3, token := 77, attach := { x.attach with token := 77 } }).modBench 1 fun x => { x with staged := some (0x200, 9) }
     let b : Nat := 1
     let v : BitVec 64 := 5
     let w : BitVec 32 := 9
     s.running = true ∧ ((s.bench b).state = .active ∨ (s.bench b).state = .held) ∧ (s.bench b).staged = some (0x200, w)) ∧
    (let s : State := small.modBench 1 fun x => { x with detached := true, epoch := 3, token := 77, attach := { x.attach with token := 77 } }
     let u : State := (small.modBench 1 fun x => { x with detached := true, epoch := 3, token := 77, attach := { x.attach with token := 77 } }).modBench 1 fun x => { x with attach := { x.attach with cmdLow := 3 } }
     let b : Nat := 1
     let e : BitVec 32 := 3
     s.running = true ∧ ((s.bench b).state = .active ∨ (s.bench b).state = .held) ∧ u = (s.unstage b).modBench b (fun x => { x with attach := { x.attach with cmdLow := e } }) ∧ u.attachCheck b 1 e = 0) ∧
    (let s : State := small.modBench 1 fun x => { x with detached := true, epoch := 3, token := 77, attach := { x.attach with token := 77 } }
     let u : State := (small.modBench 1 fun x => { x with detached := true, epoch := 3, token := 77, attach := { x.attach with token := 77 } }).modBench 1 fun x => { x with attach := { x.attach with cmdLow := 3 } }
     let b : Nat := 1
     let e : BitVec 32 := 3
     s.running = true ∧ ((s.bench b).state = .active ∨ (s.bench b).state = .held) ∧ u = (s.unstage b).modBench b (fun x => { x with attach := { x.attach with cmdLow := e } }) ∧ u.attachCheck b 2 e = 0) ∧
    (let s : State := small.modBench 1 fun x => { x with detached := true, epoch := 3, token := 77, attach := { x.attach with token := 77 } }
     let u : State := (small.modBench 1 fun x => { x with detached := true, epoch := 3, token := 77, attach := { x.attach with token := 77 } }).modBench 1 fun x => { x with attach := { x.attach with cmdLow := 3 } }
     let b : Nat := 1
     let e : BitVec 32 := 3
     s.running = true ∧ ((s.bench b).state = .active ∨ (s.bench b).state = .held) ∧ u = (s.unstage b).modBench b (fun x => { x with attach := { x.attach with cmdLow := e } }) ∧ u.attachCheck b 3 e = 0) ∧
    (let s : State := small.modBench 1 fun x => { x with detached := true, epoch := 3, token := 77, attach := { x.attach with token := 78 } }
     let b : Nat := 1
     let m : Nat := 1
     let e : BitVec 32 := 3
     s.running = true ∧ ((s.bench b).state = .active ∨ (s.bench b).state = .held) ∧ s.attachCheck b m e = 7) ∧
    (let s : State := small.modBench 1 fun x => { x with detached := true, epoch := 3, token := 77, attach := { x.attach with token := 77 } }
     let b : Nat := 1
     let m : Nat := 1
     let e : BitVec 32 := 4
     s.running = true ∧ ((s.bench b).state = .active ∨ (s.bench b).state = .held) ∧ s.attachCheck b m e ≠ 0 ∧ s.attachCheck b m e ≠ 7) ∧
    (let s : State := small.modBench 1 fun x => { x with state := .sweeping }
     let b : Nat := 1
     let e : BitVec 32 := 0
     s.running = true ∧ (s.bench b).state = .sweeping) := by
  refine ⟨?_, ?_, ?_, ?_, ?_, ?_, ?_, ?_, ?_⟩ <;> decide +kernel

theorem test_witness_PeerWindow :
    (let s : State := small
     let b : Nat := 1
     s.decodes s.mgmtFn.1 s.mgmtFn.2 = true ∧ (s.bench 0).detached = false ∧ b < s.nBenches ∧ (s.bench b).state ≠ .vacant) ∧
    (let s : State := smallMem
     let b : Nat := 1
     s.decodes s.mgmtFn.1 s.mgmtFn.2 = true ∧ (s.bench 0).detached = false ∧ b < s.nBenches ∧ (s.bench b).state ≠ .vacant) ∧
    (let s : State := { smallMem.modBench 1 (fun x => { x with peer := { x.peer with buffered := [(8, [(7, true)], false)] } }) with spindles := [(0, { Spindle.reset with state := .up })] }
     let b : Nat := 1
     let o : Nat := 8
     let d : Nat := 0
     let a : Nat := 8
     let x : Bool := false
     let ro : Bool := false
     let y : List (Byte × Bool) := [(7, true)]
     let r : List (Nat × List (Byte × Bool) × Bool) := []
     (s.bench b).peer.buffered = (o, y, ro) :: r ∧ s.peerLeaf b o = .at d a x ∧ s.streamAt b o = none ∧ s.hearth.withheld = [] ∧ (ro = true ∨ s.putOpen (s.bench b).port (s.bench b).fn true = false) ∧ (s.die d).state = .up ∧ (s.die d).queue = [] ∧ (s.die d).room false (DieMsg.blocks (.hubWrite none a y)) = true) ∧
    (let s : State := { smallMem.modBench 1 (fun x => { x with peer := { x.peer with buffered := [(8, [(7, true)], false)] } }) with bar2Writes := [⟨0, 0, 0, 1, true⟩] }
     let b : Nat := 1
     let o : Nat := 8
     let d : Nat := 0
     let a : Nat := 8
     let x : Bool := false
     let y : List (Byte × Bool) := [(7, true)]
     let r : List (Nat × List (Byte × Bool) × Bool) := []
     (s.bench b).peer.buffered = (o, y, false) :: r ∧ s.peerLeaf b o = .at d a x ∧ s.streamAt b o = none ∧ s.putOpen (s.bench b).port (s.bench b).fn true = true) ∧
    (let s : State := { smallMem with headstock := { small.headstock with cache := [{ smallLeaf with peer := false }] } }.modBench 1 fun x => { x with peer := { x.peer with buffered := [(8, [(7, true)], false)] } }
     let b : Nat := 1
     let o : Nat := 8
     let k : Nat := 1
     let ro : Bool := false
     let y : List (Byte × Bool) := [(7, true)]
     let r : List (Nat × List (Byte × Bool) × Bool) := []
     (s.bench b).peer.buffered = (o, y, ro) :: r ∧ s.peerLeaf b o = .refused k) ∧
    (let s : State := small.modPeer 1 fun p => { p with dropped1 := some (8, 4) }
     let b : Nat := 1
     let o : Nat := 8
     let n : Nat := 4
     (s.bench b).peer.dropped1 = some (o, n)) ∧
    (let s : State := small.modPeer 1 fun p => { p with dropped2 := some (8, 4) }
     let b : Nat := 1
     let o : Nat := 8
     let n : Nat := 4
     (s.bench b).peer.dropped2 = some (o, n)) ∧
    (let s : State := small.modPeer 1 fun p => { p with interval1 := true }
     let b : Nat := 1
     (s.bench b).peer.dropped1 = none ∧ (s.bench b).peer.interval1 = true) := by
  refine ⟨?_, ?_, ?_, ?_, ?_, ?_, ?_, ?_⟩ <;> decide +kernel

theorem test_witness_DieAttempts :
    (let s : State := smallRom
     let d : Nat := 0
     s.portFitted d = true ∧ s.mayPower = true ∧ s.domainOn (dieDomain d) = true ∧ (s.die d).state = .off ∧ s.dieTurn d = true) ∧
    (let s : State := smallPd 11 .off
     let d : Nat := 0
     (s.mayPower = false ∨ s.domainOn (dieDomain d) = false ∨ ((s.die d).state = .off ∧ s.dieTurn d = false))) ∧
    (let s : State := { small with spindles := [(0, { Spindle.reset with pwrEn := true, step := .power })] }
     let d : Nat := 0
     d < s.nDies ∧ (s.die d).pwrEn = true ∧ (s.die d).step = .power) ∧
    (let s : State := { small with spindles := [(0, { Spindle.reset with pwrEn := true, step := .lanes, state := .training })] }
     let d : Nat := 0
     d < s.nDies ∧ (s.die d).inService = false ∧ (s.die d).pastPower = true) ∧
    (let s : State := { small with spindles := [(0, { Spindle.reset with state := .up })] }
     let d : Nat := 0
     d < s.nDies ∧ (s.die d).inService = true) ∧
    (let s : State := { small with spindles := [(0, { Spindle.reset with state := .up })] }
     let d : Nat := 0
     d < s.nDies ∧ (s.die d).inService = true) ∧
    (let s : State := { small with spindles := [(0, { Spindle.reset with state := .zeroing, step := .zero })] }
     let d : Nat := 0
     d < s.nDies ∧ (s.die d).inService = false ∧ (s.die d).pastPower = true) ∧
    (let s : State := { small with spindles := [(0, { Spindle.reset with step := .lanes })] }
     let d : Nat := 0
     let x : Bool := true
     (s.die d).step = .lanes) ∧
    (let s : State := { small with spindles := [(0, { Spindle.reset with step := .parameters })] }
     let d : Nat := 0
     let n : Nat := 48
     let l : List Nat := [3]
     (s.die d).step = .parameters ∧ 48 ≤ n) ∧
    (let s : State := { small with spindles := [(0, { Spindle.reset with step := .parameters })] }
     let d : Nat := 0
     let n : Nat := 47
     let x : Bool := true
     let l : List Nat := []
     (s.die d).step = .parameters ∧ (x = false ∨ n < 48)) ∧
    (let s : State := { small with spindles := [(0, { Spindle.reset with step := .credits })] }
     let d : Nat := 0
     (s.die d).step = .credits) ∧
    (let s : State := { small with spindles := [(0, { Spindle.reset with step := .zero, state := .zeroing })] }
     let d : Nat := 0
     (s.die d).step = .zero ∧ s.hearth.refilling = false) ∧
    (let s : State := small
     let d : Nat := 0
     ((s.die d).step ≠ .zero ∨ s.hearth.refilling = true)) ∧
    (let s : State := { small with spindles := [(0, { Spindle.reset with step := .lanes })] }
     let d : Nat := 0
     let f : LaneFault := .noDie
     (s.die d).step = .lanes ∧ (s.die d).stepAt.toNat + 2000 ≤ s.now.toNat) ∧
    (let s : State := { small with spindles := [(0, { Spindle.reset with step := .credits })] }
     let d : Nat := 0
     let f : LaneFault := .lanes
     ((s.die d).step = .power ∧ (s.die d).stepAt.toNat + 50000 ≤ s.now.toNat ∨ (s.die d).step = .parameters ∧ (s.die d).stepAt.toNat + 1000 ≤ s.now.toNat ∨ (s.die d).step = .credits ∧ (s.die d).stepAt.toNat + 10 ≤ s.now.toNat)) ∧
    (let s : State := { small with spindles := [(0, { Spindle.reset with state := .backoff, fails := 1 })] }
     let d : Nat := 0
     (s.die d).state = .backoff ∧ (s.die d).lost = false ∧ s.mayPower = true ∧ s.domainOn (dieDomain d) = true ∧ (s.die d).offSince.toNat + 2 ^ ((s.die d).fails - 1) * 1000 ≤ s.now.toNat ∧ (s.die d).fails < 8) ∧
    (let s : State := { small with spindles := [(0, { Spindle.reset with state := .backoff, fails := 8 })] }
     let d : Nat := 0
     (s.die d).state = .backoff ∧ (s.die d).lost = false ∧ s.mayPower = true ∧ s.domainOn (dieDomain d) = true ∧ (s.die d).offSince.toNat + 2 ^ ((s.die d).fails - 1) * 1000 ≤ s.now.toNat ∧ 8 ≤ (s.die d).fails) ∧
    (let s : State := { small with spindles := [(0, { Spindle.reset with state := .absent })] }
     let d : Nat := 0
     (s.die d).state = .absent ∧ s.mayPower = true ∧ s.domainOn (dieDomain d) = true ∧ s.hearth.deadlines = []) := by
  refine ⟨?_, ?_, ?_, ?_, ?_, ?_, ?_, ?_, ?_, ?_, ?_, ?_, ?_, ?_, ?_, ?_, ?_, ?_⟩ <;> decide +kernel

theorem test_witness_DieLinksAndLoss :
    (let s : State := { small with spindles := [(0, { Spindle.reset with state := .up })] }
     let d : Nat := 0
     let x : Bool := true
     ((s.die d).state ≠ .up ∨ x = false ∨ (s.die d).crcRun + 1 < 16)) ∧
    (let s : State := { small with spindles := [(0, { Spindle.reset with state := .up, crcRun := 15 })] }
     let d : Nat := 0
     (s.die d).state = .up ∧ 16 ≤ (s.die d).crcRun + 1) ∧
    (let s : State := { small with envans := [(0, { Envan.reset with state := .up, crcRun := 15 })] }
     let l : Nat := 0
     (s.envan l).state = .up ∧ 16 ≤ (s.envan l).crcRun + 1) ∧
    (let s : State := { small with spindles := [(0, { Spindle.reset with state := .up })] }
     let d : Nat := 0
     (s.die d).state = .up) ∧
    (let s : State := { small with spindles := [(0, { Spindle.reset with state := .recovery, heldMsgs := [.hold 0 1 1] })] }
     let d : Nat := 0
     (s.die d).state = .recovery ∧ (s.die d).queue = []) ∧
    (let s : State := { small with spindles := [(0, { Spindle.reset with state := .recovery, failedRecovery := some 4500000 })] }
     let d : Nat := 0
     let v : BitVec 64 := 4500000
     (s.die d).state = .recovery ∧ (s.die d).failedRecovery = some v ∧ s.now.toNat ≤ v.toNat + 1000000) ∧
    (let s : State := { small with spindles := [(0, { Spindle.reset with state := .recovery })] }
     let d : Nat := 0
     (s.die d).state = .recovery ∧ (s.die d).failedRecovery = none) ∧
    (let s : State := { small with spindles := [(0, { Spindle.reset with state := .up, sent := [⟨.scrub, 0, false, 0, none⟩] })] }
     let d : Nat := 0
     (s.die d).inService = true ∧ s.dieOverdue d = true) ∧
    (let s : State := { small with spindles := [(0, { Spindle.reset with state := .up })] }
     let d : Nat := 0
     s.dieOverdue d = false) ∧
    (let s : State := { small with spindles := [(0, { Spindle.reset with state := .up, sent := [⟨.scrub, 0, false, 0, none⟩] })] }
     let d : Nat := 0
     (s.die d).inService = true ∧ s.dieOverdue d = true) := by
  refine ⟨?_, ?_, ?_, ?_, ?_, ?_, ?_, ?_, ?_, ?_⟩ <;> decide +kernel

theorem test_witness_CoreRequests :
    (let s : State := smallLaunch [] [smallPlace .running]
     let d : Nat := 0
     let k : Nat := 5
     let i : Nat := 9
     let o : Nat := 1
     let n : Nat := 4
     let e : Nat := 0
     let f : Nat := dieScr 5 16
     let g : XltTarget := .coord 1 0 0 16
     let w : Bool := true
     let y : List (Byte × Bool) := []
     let p : Placement := smallPlace .running
     s.dieMapped d = true ∧ ((s.die d).xlt.any fun q => q.id == i) = false ∧ s.placementOf d k = some p ∧ s.ownerOf p.home p.bench = o ∧ (o < 256 → (s.bench o).state ≠ .sweeping) ∧ ((s.die d).xltUsed o).1 < 64 ∧ ((s.die d).xltUsed o).2 + (if w then 1 else 0) ≤ 128 ∧ (s.die d).xltTotal.1 < 256 ∧ (s.die d).xltTotal.2 + (if w then 1 else 0) ≤ 512 ∧ s.coreTo o p g w n = .die e f ∧ (s.die e).state = .up ∧ (s.die e).queue = [] ∧ (s.die e).room true (DieMsg.blocks (.xltForward (xltKey d i) f n w y)) = true) ∧
    (let s : State := routed3 (smallLaunch [] [{ smallPlace .running with cores := [⟨0, 0, 5, 0, 0⟩, ⟨3, 0, 7, 0, 1⟩] }])
     let d : Nat := 0
     let k : Nat := 5
     let i : Nat := 9
     let o : Nat := 1
     let n : Nat := 4
     let h : Nat := 3
     let e : Nat := 0
     let f : Nat := dieScr 7 16
     let g : XltTarget := .coord 1 0 1 16
     let w : Bool := true
     let y : List (Byte × Bool) := []
     let p : Placement := { smallPlace .running with cores := [⟨0, 0, 5, 0, 0⟩, ⟨3, 0, 7, 0, 1⟩] }
     s.dieMapped d = true ∧ ((s.die d).xlt.any fun q => q.id == i) = false ∧ s.placementOf d k = some p ∧ s.ownerOf p.home p.bench = o ∧ (o < 256 → (s.bench o).state ≠ .sweeping) ∧ ((s.die d).xltUsed o).1 < 64 ∧ ((s.die d).xltUsed o).2 + (if w then 1 else 0) ≤ 128 ∧ (s.die d).xltTotal.1 < 256 ∧ (s.die d).xltTotal.2 + (if w then 1 else 0) ≤ 512 ∧ s.coreTo o p g w n = .hub h e f ∧ s.routed h = true) ∧
    (let s : State := { smallLaunch [] [smallPlace .running] with hearth := { small.hearth with refilling := true } }
     let d : Nat := 0
     let k : Nat := 5
     let i : Nat := 9
     let o : Nat := 1
     let n : Nat := 4
     let g : XltTarget := .dva (2 ^ 30)
     let w : Bool := true
     let y : List (Byte × Bool) := []
     let p : Placement := smallPlace .running
     s.dieMapped d = true ∧ ((s.die d).xlt.any fun q => q.id == i) = false ∧ s.placementOf d k = some p ∧ s.ownerOf p.home p.bench = o ∧ (o < 256 → (s.bench o).state ≠ .sweeping) ∧ ((s.die d).xltUsed o).1 < 64 ∧ ((s.die d).xltUsed o).2 + (if w then 1 else 0) ≤ 128 ∧ (s.die d).xltTotal.1 < 256 ∧ (s.die d).xltTotal.2 + (if w then 1 else 0) ≤ 512 ∧ s.coreTo o p g w n = .wait) ∧
    (let s : State := smallLaunch [] [smallPlace .running]
     let d : Nat := 0
     let k : Nat := 5
     let i : Nat := 9
     let o : Nat := 1
     let n : Nat := 4
     let c : Nat := 1
     let a : Nat := 0
     let g : XltTarget := .coord 2 0 0 16
     let w : Bool := true
     let y : List (Byte × Bool) := []
     let p : Placement := smallPlace .running
     s.dieMapped d = true ∧ ((s.die d).xlt.any fun q => q.id == i) = false ∧ s.placementOf d k = some p ∧ s.ownerOf p.home p.bench = o ∧ (o < 256 → (s.bench o).state ≠ .sweeping) ∧ ((s.die d).xltUsed o).1 < 64 ∧ ((s.die d).xltUsed o).2 + (if w then 1 else 0) ≤ 128 ∧ (s.die d).xltTotal.1 < 256 ∧ (s.die d).xltTotal.2 + (if w then 1 else 0) ≤ 512 ∧ (c ≠ o ∨ s.coreTo o p g w n = .violation a) ∧ o < 256 ∧ (s.bench o).state = .active ∧ (s.die d).state = .up) ∧
    (let s : State := routed3 { smallLaunch [] [{ smallPlace .running with home := 3 }] with cascade := { small.cascade with state := .chartered, guests := [(0, some (guestOf []))] } }
     let d : Nat := 0
     let k : Nat := 5
     let i : Nat := 9
     let o : Nat := 256
     let n : Nat := 4
     let a : Nat := 0
     let g : XltTarget := .coord 2 0 0 16
     let w : Bool := true
     let y : List (Byte × Bool) := []
     let p : Placement := { smallPlace .running with home := 3 }
     let x : Guest := guestOf []
     s.dieMapped d = true ∧ ((s.die d).xlt.any fun q => q.id == i) = false ∧ s.placementOf d k = some p ∧ s.ownerOf p.home p.bench = o ∧ (o < 256 → (s.bench o).state ≠ .sweeping) ∧ ((s.die d).xltUsed o).1 < 64 ∧ ((s.die d).xltUsed o).2 + (if w then 1 else 0) ≤ 128 ∧ (s.die d).xltTotal.1 < 256 ∧ (s.die d).xltTotal.2 + (if w then 1 else 0) ≤ 512 ∧ s.coreTo o p g w n = .violation a ∧ 256 ≤ o ∧ s.guest (o - 256) = some x ∧ s.routed x.home = true ∧ (s.die d).state = .up) ∧
    (let s : State := smallLaunch [] [smallPlace .running]
     let d : Nat := 0
     let k : Nat := 6
     let i : Nat := 9
     let c : Nat := 1
     let n : Nat := 4
     let g : XltTarget := .dva 0
     let w : Bool := false
     let y : List (Byte × Bool) := []
     s.dieMapped d = true ∧ ((s.die d).xlt.any fun q => q.id == i) = false ∧ s.placementOf d k = none) ∧
    (let s : State := { small with spindles := [(0, { Spindle.reset with state := .up, xlt := [⟨0, 0, 1, 0, false, 0, false⟩] })] }
     let d : Nat := 0
     let i : Nat := 1
     let m : MemStatus := .ok
     let y : List Byte := [7]
     let q : XltReq := ⟨0, 0, 1, 0, false, 0, false⟩
     s.unsent (.hub i) = false ∧ i % 3 = 1 ∧ (((s.portDone (.hub i)).die ((i - 1) / 3 % 8)).xlt.find? fun q => q.id == (i - 1) / 24) = some q ∧ q.target = d ∧ d < 8) ∧
    (let s : State := { small with bar2Reads := [⟨3, 0, 9, 0, 1, 1, 0⟩] }
     let d : Nat := 0
     let i : Nat := 3
     let m : MemStatus := .ok
     let y : List Byte := [7]
     let q : Bar2Req := ⟨3, 0, 9, 0, 1, 1, 0⟩
     s.unsent (.hub i) = false ∧ i % 3 ≠ 1 ∧ d < 8 ∧ ((s.portDone (.hub i)).bar2Reads.find? fun q => q.id == i && q.die == d) = some q) ∧
    (let s : State := routed3 { { small with spindles := [(0, { Spindle.reset with state := .up })] } with remotes := [⟨3, 1, 2, 0, 3, 1, 0, 64⟩] }
     let d : Nat := 0
     let i : Nat := 2
     let m : MemStatus := .ok
     let y : List Byte := [7]
     let q : RemoteReq := ⟨3, 1, 2, 0, 3, 1, 0, 64⟩
     s.unsent (.hub i) = false ∧ i % 3 ≠ 1 ∧ d < 8 ∧ ((s.portDone (.hub i)).bar2Reads.find? fun q => q.id == i && q.die == d) = none ∧ ((s.portDone (.hub i)).remotes.find? fun q => q.key == i && q.die == d) = some q ∧ s.routed q.sender = true) ∧
    (let s : State := small
     let d : Nat := 0
     let i : Nat := 3
     let y : List Byte := []
     s.unsent (.hub i) = false ∧ i % 3 ≠ 1 ∧ d < 8 ∧ ((s.portDone (.hub i)).bar2Reads.find? fun q => q.id == i && q.die == d) = none ∧ ((s.portDone (.hub i)).remotes.find? fun q => q.key == i && q.die == d) = none) ∧
    (let s : State := { small with spindles := [(0, { Spindle.reset with state := .up, queue := [⟨none, false, .hubRead 3 0 4⟩] })] }
     let d : Nat := 0
     let i : Nat := 3
     let m : MemStatus := .ok
     let y : List Byte := []
     s.unsent (.hub i) = true) ∧
    (let s : State := { smallLaunch [] [smallPlace .running] with events := [(3, ⟨some 1, false⟩)] }
     let d : Nat := 0
     let k : Nat := 5
     let n : Nat := 3
     let a : Nat := 1
     let o : Nat := 1
     let p : Placement := smallPlace .running
     s.dieMapped d = true ∧ s.placementOf d k = some p ∧ s.ownerOf p.home p.bench = o ∧ n < 256 ∧ 1 ≤ a ∧ a ≤ 3 ∧ (s.event n).holder = some o) ∧
    (let s : State := smallLaunch [] [smallPlace .running]
     let d : Nat := 0
     let k : Nat := 5
     let n : Nat := 3
     let a : Nat := 1
     let o : Nat := 1
     let p : Placement := smallPlace .running
     s.dieMapped d = true ∧ s.placementOf d k = some p ∧ s.ownerOf p.home p.bench = o ∧ (256 ≤ n ∨ (s.event n).holder ≠ some o)) ∧
    (let s : State := smallLaunch [] [smallPlace .running]
     let d : Nat := 0
     let k : Nat := 5
     let o : Nat := 1
     let v : BitVec 64 := 64
     let p : Placement := smallPlace .running
     s.dieMapped d = true ∧ s.placementOf d k = some p ∧ s.ownerOf p.home p.bench = o ∧ o < 256 ∧ (s.bench o).state = .active) ∧
    (let s : State := routed3 { smallLaunch [] [{ smallPlace .running with home := 3 }] with cascade := { small.cascade with state := .chartered, guests := [(0, some (guestOf []))] } }
     let d : Nat := 0
     let k : Nat := 5
     let o : Nat := 256
     let v : BitVec 64 := 64
     let p : Placement := { smallPlace .running with home := 3 }
     let x : Guest := guestOf []
     s.dieMapped d = true ∧ s.placementOf d k = some p ∧ s.ownerOf p.home p.bench = o ∧ 256 ≤ o ∧ s.guest (o - 256) = some x ∧ s.routed x.home = true) ∧
    (let s : State := smallLaunch [] [smallPlace .running]
     let d : Nat := 0
     let k : Nat := 6
     let v : BitVec 64 := 64
     s.dieMapped d = true ∧ s.placementOf d k = none) ∧
    (let s : State := smallLaunch [] [smallPlace .running]
     let d : Nat := 0
     let v : BitVec 64 := 64
     s.dieMapped d = true) := by
  refine ⟨?_, ?_, ?_, ?_, ?_, ?_, ?_, ?_, ?_, ?_, ?_, ?_, ?_, ?_, ?_, ?_, ?_⟩ <;> decide +kernel

theorem test_witness_BackgroundWork :
    (let s : State := { small with spindles := [(0, { Spindle.reset with state := .up })] }
     let d : Nat := 0
     let n : Nat := 3
     (s.die d).state = .up) ∧
    (let s : State := { small with envans := [(0, { Envan.reset with state := .up })] }
     let l : Nat := 0
     let n : Nat := 3
     (s.envan l).state = .up) ∧
    (let s : State := { small with spindles := [(0, { Spindle.reset with state := .up })] }
     let d : Nat := 0
     let n : Nat := 3
     (s.die d).state = .up) ∧
    (let s : State := { small with spindles := [(0, { Spindle.reset with state := .up, scrubbing := true })] }
     let d : Nat := 0
     let n : Nat := 0
     (s.die d).state = .up ∧ s.recalDue (.spindle d) n = true) ∧
    (let s : State := { small with spindles := [(0, { Spindle.reset with state := .up })] }
     let l : LinkName := .spindle 0
     let n : Nat := 0
     let x : Bool := true
     let u : Bool := false
     (x = true ∨ s.recalDue l n = false)) ∧
    (let s : State := { small with bg := { small.bg with scrubbing := true } }
     s.running = true ∧ s.domainOn 8 = true ∧ s.bg.scrubbing = true) ∧
    (let s : State := { small with bg := { small.bg with scrubbing := true } }
     let x : Bool := true
     s.running = true ∧ s.domainOn 8 = true ∧ s.bg.scrubbing = true) ∧
    (let s : State := { small with bg := { small.bg with scrubbing := true } }
     s.running = true ∧ s.domainOn 8 = true ∧ s.bg.scrubbing = true) ∧
    (let s : State := { small with bg := { small.bg with scrubbing := true } }
     let o : Option Nat := none
     s.running = true ∧ s.domainOn 8 = true ∧ s.bg.scrubbing = true) ∧
    (let s : State := { small with bg := { small.bg with scrubbing := true } }
     s.running = true ∧ s.domainOn 8 = true ∧ s.bg.scrubbing = true) ∧
    (let s : State := { small with hearth := { small.hearth with time := 14400000000 } }
     s.running = true ∧ s.domainOn 8 = true ∧ s.bg.scrubbing = false ∧ s.bg.passStart.toNat + 14400000000 ≤ s.now.toNat) ∧
    (let s : State := small
     s.now.toNat < s.bg.passStart.toNat + 14400000000) ∧
    (let s : State := { small with spindles := [(0, { Spindle.reset with state := .up })] }
     let d : Nat := 0
     (s.die d).state = .up ∧ (s.die d).scrubbing = false ∧ (s.die d).scrubAt.toNat + 100000 ≤ s.now.toNat ∧ (s.die d).queue = [] ∧ (s.die d).room false 0 = true) ∧
    (let s : State := { small with spindles := [(0, { Spindle.reset with state := .up, sent := List.replicate 320 ⟨.scrub, 0, false, 0, none⟩ })] }
     let d : Nat := 0
     (s.die d).state = .up ∧ (s.die d).scrubbing = false ∧ (s.die d).scrubAt.toNat + 100000 ≤ s.now.toNat ∧ (s.die d).queue = [] ∧ (s.die d).room false 0 = false) ∧
    (let s : State := { small with spindles := [(0, { Spindle.reset with state := .up, scrubbing := true, sent := [⟨.scrub, 0, false, 0, none⟩] })] }
     let d : Nat := 0
     (s.die d).scrubbing = true ∧ ((s.die d).sent.any fun u => u.key == .scrub) = true ∧ (s.die d).queue = []) ∧
    (let s : State := { small with bg := { small.bg with telemEnable := true, telemAddr := 0x2000 } }
     s.running = true ∧ s.bg.telemDue s.now = true ∧ s.telemetryQueued = false) ∧
    (let s : State := { (small.modPort 0 fun x => { x with egress := [⟨0, 0, 64, 0, false, none, none, .hostWrite 0 0 plainAttr 0x2000 (List.replicate 64 0)⟩] }) with bg := { small.bg with telemEnable := true, telemAddr := 0x2000 } }
     s.running = true ∧ s.bg.telemDue s.now = true ∧ s.telemetryQueued = true) ∧
    (let s : State := small
     s.bg.telemDue s.now = false) := by
  refine ⟨?_, ?_, ?_, ?_, ?_, ?_, ?_, ?_, ?_, ?_, ?_, ?_, ?_, ?_, ?_, ?_, ?_, ?_⟩ <;> decide +kernel

theorem test_witness_SelfTests :
    (let s : State := { small with headstock := { small.headstock with cache := [smallLeaf] } }
     let w : Nat := 0
     s.testMayStart (.hsWay w) = true) ∧
    (let s : State := small
     s.testMayStart .walkCache = true) ∧
    (let s : State := small
     let l : Nat := 0
     s.testMayStart (.lathe l) = true) ∧
    (let s : State := small
     let x : TestUnit := .hsWay 16
     s.testMayStart x = false) ∧
    (let s : State := { small with bg := { small.bg with testing := [.hsWay 2] } }
     let w : Nat := 2
     s.bg.testing.contains (.hsWay w) = true) ∧
    (let s : State := { small with bg := { small.bg with testing := [.lathe 2] } }
     let l : Nat := 2
     s.bg.testing.contains (.lathe l) = true) ∧
    (let s : State := { small with bg := { small.bg with testing := [.walkCache] } }
     let x : TestUnit := .walkCache
     s.bg.testing.contains x = true) ∧
    (let s : State := { small with bg := { small.bg with testing := [.burl true] } }
     let l : Bool := true
     s.bg.testing.contains (.burl l) = true ∧ (s.engine l).failedOnce = false) ∧
    (let s : State := { small with bg := { small.bg with testing := [.burl true] }, lattice := { small.lattice with failedOnce := true } }
     let l : Bool := true
     s.bg.testing.contains (.burl l) = true ∧ (s.engine l).failedOnce = true) ∧
    (let s : State := { small with hearth := { small.hearth with time := 86400000000 } }
     let x : TestUnit := .walkCache
     s.testOverdue x = true) ∧
    (let s : State := small
     let x : TestUnit := .walkCache
     s.testOverdue x = false) := by
  refine ⟨?_, ?_, ?_, ?_, ?_, ?_, ?_, ?_, ?_, ?_, ?_⟩ <;> decide +kernel

theorem test_witness_EnvanLinks :
    (let s : State := { small with envans := [(0, { Envan.reset with state := .training })] }
     let l : Nat := 0
     let h : Nat := 3
     let k : Nat := 1
     let n : Nat := 90
     let i : BitVec 64 := 7
     s.envanFitted l = true ∧ ((s.envan l).state = .training ∨ (s.envan l).state = .recovery) ∧ i ≠ s.cascade.inst) ∧
    (let s : State := { small with envans := [(0, { Envan.reset with state := .training })] }
     let l : Nat := 0
     let h : Nat := 0
     let k : Nat := 1
     let n : Nat := 90
     s.envanFitted l = true ∧ (s.envan l).state = .training ∧ (s.envan l).fails < 8) ∧
    (let s : State := { small with envans := [(0, { Envan.reset with state := .training, fails := 7 })] }
     let l : Nat := 0
     let k : BitVec 4 := 2
     s.envanFitted l = true ∧ (s.envan l).state = .training) ∧
    (let s : State := { small with envans := [(0, { Envan.reset with state := .recovery, failedRecovery := some 4000000 })] }
     let l : Nat := 0
     let k : BitVec 4 := 2
     let v : BitVec 64 := 4000000
     s.envanFitted l = true ∧ (s.envan l).state = .recovery ∧ (s.envan l).failedRecovery = some v ∧ s.now.toNat ≤ v.toNat + 1000000) ∧
    (let s : State := { small with envans := [(0, { Envan.reset with state := .recovery })] }
     let l : Nat := 0
     let k : BitVec 4 := 2
     s.envanFitted l = true ∧ (s.envan l).state = .recovery ∧ (s.envan l).failedRecovery = none) ∧
    (let s : State := { small with envans := [(0, { Envan.reset with state := .backoff, fails := 3 })] }
     let l : Nat := 0
     s.envanFitted l = true ∧ s.envanWaits l = false ∧ s.domainOn 10 = true ∧ s.chip.phase = .running ∧ (s.envan l).state = .backoff ∧ (s.envan l).fails < 8) ∧
    (let s : State := { small with envans := [(0, { Envan.reset with state := .backoff, fails := 8 })] }
     let l : Nat := 0
     s.envanFitted l = true ∧ s.envanWaits l = false ∧ s.domainOn 10 = true ∧ s.chip.phase = .running ∧ (s.envan l).state = .backoff ∧ 8 ≤ (s.envan l).fails) ∧
    (let s : State := { { small with envans := [(0, { Envan.reset with state := .backoff })] } with hearth := { small.hearth with deadlines := [⟨.envanRetry 0, 6000000⟩] } }
     let l : Nat := 0
     s.envanWaits l = true) ∧
    (let s : State := { small with envans := [(0, { Envan.reset with state := .up, partner := 3 })] }
     let l : Nat := 0
     s.linkUp l = true) := by
  refine ⟨?_, ?_, ?_, ?_, ?_, ?_, ?_, ?_, ?_⟩ <;> decide +kernel

theorem test_witness_PresenceAndCharters :
    (let s : State := { small with envans := [(0, { Envan.reset with state := .up, partner := 3 })] }
     s.anyLinkUp = true) ∧
    (let s : State := small
     s.anyLinkUp = false) ∧
    (let s : State := { small with envans := [(0, { Envan.reset with state := .up, partner := 3 })] }
     let h : Nat := 3
     let i : BitVec 64 := 7
     let e : BitVec 64 := 9
     let x : Bool := true
     let f : BitVec 3 := 0
     s.anyLinkUp = true ∧ i ≠ s.cascade.inst ∧ s.presenceOf h = none) ∧
    (let s : State := small
     let h : Nat := 3
     let i : BitVec 64 := 0
     let e : BitVec 64 := 9
     let x : Bool := true
     let f : BitVec 3 := 0
     i = s.cascade.inst) ∧
    (let s : State := { small with cascade := { small.cascade with presence := [(3, ⟨7, true, 4, false, 0⟩)], state := .master, charter := some ⟨5, 0, 0, 0, [], 9, 0, 0, [], 4, 0, 0, []⟩ }, envans := [(0, { Envan.reset with state := .up, partner := 3 })] }
     let h : Nat := 3
     let p : Presence := ⟨7, true, 4, false, 0⟩
     s.domainOn 8 = true ∧ s.presenceOf h = some p ∧ p.silent = false ∧ p.heard.toNat + 2000000 ≤ s.now.toNat) ∧
    (let s : State := { small with cascade := { small.cascade with presence := [(3, ⟨7, true, 4000000, false, 0⟩)] }, envans := [(0, { Envan.reset with state := .up, partner := 3 })] }
     let h : Nat := 3
     let p : Presence := ⟨7, true, 4000000, false, 0⟩
     s.presenceOf h = some p ∧ s.now.toNat < p.heard.toNat + 2000000) ∧
    (let s : State := { small with cascade := { small.cascade with charterHeard := some 0, state := .seeking }, envans := [(0, { Envan.reset with state := .up, partner := 3 })], chip := { small.chip with straps := { small.chip.straps with masterEligible := true }, cfg := small.chip.cfg.map fun c => { c with cascade := some ⟨true, [0], 2⟩ } } }
     s.eligible = true ∧ s.isMaster = false ∧ s.charterSilent = true ∧ s.firstInLine = true ∧ s.cascade.charter = none) ∧
    (let s : State := small
     (s.eligible = false ∨ s.isMaster = true ∨ s.charterSilent = false ∨ s.firstInLine = false)) ∧
    (let s : State := { small with cascade := { small.cascade with state := .master, charter := some { (⟨5, 0, 0, 0, [], 9, 0, 0, [], 4, 0, 0, []⟩ : Charter) with members := 1 } }, envans := [(0, { Envan.reset with state := .up, partner := 3 })] }
     let l : List (Nat × Nat × Nat) := []
     let c : Charter := { (⟨5, 0, 0, 0, [], 9, 0, 0, [], 4, 0, 0, []⟩ : Charter) with members := 1 }
     let m : List Nat := [0]
     let r : List Nat := []
     s.isMaster = true ∧ s.cascade.charter = some c ∧ c.timeBase ≠ 0 ∧ s.cascade.newLost = [] ∧ s.cascade.nextStep = 0 ∧ s.cascade.reports = [] ∧ s.nextMembers l (maskHubs c.members) = (m, r) ∧ hubMask m = c.members ∧ hubMask r = c.refused ∧ routesOf l m = c.routes) ∧
    (let s : State := { small with cascade := { small.cascade with state := .master, nextStep := 9, charter := some ⟨5, 0, 0, 0, [], 9, 0, 0, [], 4, 0, 0, []⟩ }, envans := [(0, { Envan.reset with state := .up, partner := 3 })] }
     let l : List (Nat × Nat × Nat) := []
     let c : Charter := ⟨5, 0, 0, 0, [], 9, 0, 0, [], 4, 0, 0, []⟩
     s.isMaster = true ∧ s.cascade.charter = some c ∧ s.cascade.newLost = [] ∧ s.cascade.nextStep ≠ 0) ∧
    (let s : State := small
     let l : List (Nat × Nat × Nat) := []
     s.isMaster = false) ∧
    (let s : State := { small with cascade := { small.cascade with state := .seeking }, envans := [(0, { Envan.reset with state := .up, partner := 3 })] }
     let c : Charter := ⟨5, 3, 1, 0, [], 9, 0, 0, [], 4, 0, 0, []⟩
     s.anyLinkUp = true ∧ c.master ≠ s.hubId ∧ s.cascade.charter = none ∧ c.lost = 0 ∧ c.step = 0 ∧ s.cascade.state = .seeking ∧ (s.chip.cfg.map ImageCfg.defaults) = some false ∧ c.family ≠ s.family ∧ s.cascade.guests = []) ∧
    (let s : State := { small with cascade := { small.cascade with state := .seeking }, envans := [(0, { Envan.reset with state := .up, partner := 3 })] }
     let c : Charter := ⟨5, 3, 0, 0, ({ small with cascade := { small.cascade with state := .seeking }, envans := [(0, { Envan.reset with state := .up, partner := 3 })] }).digest, 9, 0, 0, [], 4, 0, 0, []⟩
     s.anyLinkUp = true ∧ c.master ≠ s.hubId ∧ s.cascade.charter = none ∧ c.lost = 0 ∧ c.step = 0 ∧ s.cascade.state = .seeking ∧ (s.chip.cfg.map ImageCfg.defaults) = some false ∧ c.family = s.family ∧ c.version = s.version ∧ c.digest = s.digest ∧ c.members.getLsbD s.hubId = true ∧ s.live s.hubId = false) ∧
    (let s : State := small
     let c : Charter := ⟨5, 0, 0, 0, [], 9, 0, 0, [], 4, 0, 0, []⟩
     s.anyLinkUp = false) ∧
    (let s : State := small
     let v : BitVec 32 := 7
     s.decodes s.mgmtFn.1 s.mgmtFn.2 = true ∧ (s.bench 0).detached = false) := by
  refine ⟨?_, ?_, ?_, ?_, ?_, ?_, ?_, ?_, ?_, ?_, ?_, ?_, ⟨?_, ?_, ?_, ?_, ?_, ?_, ?_, ?_, ?_, rfl, ?_, ?_⟩, ?_, ?_⟩ <;> decide +kernel

theorem test_witness_RackTimeAndRoster :
    (let s : State := { small with cascade := { small.cascade with state := .master }, envans := [(0, { Envan.reset with state := .up, partner := 3 })] }
     s.isMaster = true) ∧
    (let s : State := small
     s.isMaster = false) ∧
    (let s : State := { small with cascade := { small.cascade with state := .chartered }, envans := [(0, { Envan.reset with state := .up, partner := 3 })] }
     let n : Nat := 5000000000
     let d : Nat := 90
     s.cascade.state = .chartered ∧ (n : Int) + d - s.now.toNat * 1000 ≤ 250 ∧ -250 ≤ (n : Int) + d - s.now.toNat * 1000) ∧
    (let s : State := { small with cascade := { small.cascade with state := .chartered }, envans := [(0, { Envan.reset with state := .up, partner := 3 })] }
     let n : Nat := 4999999000
     let d : Nat := 90
     let x : Int := -910
     s.cascade.state = .chartered ∧ x = (n : Int) + d - s.now.toNat * 1000 ∧ 250 < x.natAbs ∧ x.natAbs ≤ 20000) ∧
    (let s : State := { small with cascade := { small.cascade with state := .chartered }, envans := [(0, { Envan.reset with state := .up, partner := 3 })] }
     let n : Nat := 5000030000
     let d : Nat := 90
     let x : Int := 30090
     s.cascade.state = .chartered ∧ x = (n : Int) + d - s.now.toNat * 1000 ∧ 20000 < x) ∧
    (let s : State := small
     let n : Nat := 4
     let d : Nat := 0
     (s.cascade.state = .alone ∨ s.cascade.state = .seeking ∨ s.cascade.state = .master)) ∧
    (let s : State := { small with cascade := { small.cascade with state := .master }, envans := [(0, { Envan.reset with state := .up, partner := 3 })] }
     let h : Nat := 3
     let v : BitVec 64 := 5000100
     s.isMaster = true ∧ s.now.toNat < v.toNat) ∧
    (let s : State := { small with cascade := { small.cascade with state := .master }, envans := [(0, { Envan.reset with state := .up, partner := 3 })] }
     let h : Nat := 3
     let v : BitVec 64 := 5000000
     v.toNat ≤ s.now.toNat) ∧
    (let s : State := { small with envans := [(0, { Envan.reset with state := .up, partner := 3 })] }
     let l : Nat := 0
     let n : Nat := 80
     s.linkUp l = true) ∧
    (let s : State := { small with cascade := { small.cascade with state := .master, reports := [(0, [], [])], charter := some { (⟨5, 0, 0, 0, [], 9, 0, 0, [], 4, 0, 0, []⟩ : Charter) with members := 11 } }, envans := [(0, { Envan.reset with state := .up, partner := 3 })] }
     let h : Nat := 3
     let m : Nat := 1
     let x : List (Nat × BitVec 16) := []
     let y : List (Nat × Nat × BitVec 16) := []
     s.isMaster = true ∧ s.member h = true ∧ s.cascade.reports ≠ [] ∧ m < 32 ∧ m ≠ h ∧ s.member m = true ∧ (s.cascade.reports.any fun r => r.1 == m) = false) ∧
    (let s : State := small
     let h : Nat := 3
     let x : List (Nat × BitVec 16) := []
     let y : List (Nat × Nat × BitVec 16) := []
     (s.isMaster = false ∨ s.member h = false)) ∧
    (let s : State := { small with cascade := { small.cascade with state := .chartered, charter := some ⟨5, 0, 0, 0, [], 9, 0, 0, [], 4, 0, 0, []⟩ }, envans := [(0, { Envan.reset with state := .up, partner := 3 })] }
     let v : BitVec 64 := 1
     let e : List RosterEntry := [⟨3, 7, 9, 1, 8, 0⟩]
     let c : Charter := ⟨5, 0, 0, 0, [], 9, 0, 0, [], 4, 0, 0, []⟩
     s.cascade.charter = some c ∧ s.cascade.state = .chartered ∧ c.rosterSeq.toNat < v.toNat ∧ s.cascade.guests = [] ∧ s.cascade.spanning = []) ∧
    (let s : State := { small with cascade := { small.cascade with state := .chartered, charter := some ⟨5, 0, 0, 0, [], 9, 0, 0, [], 4, 0, 0, []⟩ }, envans := [(0, { Envan.reset with state := .up, partner := 3 })] }
     let v : BitVec 64 := 0
     let e : List RosterEntry := []
     let c : Charter := ⟨5, 0, 0, 0, [], 9, 0, 0, [], 4, 0, 0, []⟩
     s.cascade.charter = some c ∧ v.toNat ≤ c.rosterSeq.toNat) ∧
    (let s : State := { small with cascade := { small.cascade with state := .chartered, charter := some ⟨5, 0, 0, 0, [], 9, 0, 0, [], 4, 0, 0, []⟩ }, envans := [(0, { Envan.reset with state := .up, partner := 3 })] }
     let b : Nat := 1
     let k : Nat := 1
     let i : BitVec 16 := 0
     let v : BitVec 32 := 0
     s.chartered = true ∧ (s.bench b).state = .active) ∧
    (let s : State := { small with cascade := { small.cascade with state := .master, charter := some ⟨5, 0, 0, 0, [], 9, 0, 0, [], 4, 0, 0, []⟩ }, envans := [(0, { Envan.reset with state := .up, partner := 3 })] }
     let h : Nat := 3
     let b : Nat := 7
     let k : Nat := 1
     let i : BitVec 16 := 9
     let v : BitVec 32 := 0
     let c : Charter := ⟨5, 0, 0, 0, [], 9, 0, 0, [], 4, 0, 0, []⟩
     s.isMaster = true ∧ h ≠ s.hubId ∧ s.member h = true ∧ s.cascade.charter = some c) := by
  refine ⟨?_, ?_, ?_, ?_, ?_, ?_, ?_, ?_, ?_, ?_, ?_, ?_, ?_, ?_, ?_⟩ <;> decide +kernel

theorem test_witness_RemoteBenches :
    (let s : State := smallRemote []
     let h : Nat := 3
     let b : Nat := 1
     let g : Nat := 0
     let k : Nat := 1
     let d : Nat := 0
     let o : Nat := 2 ^ 24
     let n : Nat := 2 ^ 21
     let m : Nat := 2 ^ 21
     let i : BitVec 16 := 9
     let v : BitVec 32 := 0
     s.chartered = true ∧ h ≠ s.hubId ∧ s.guestSlot h b = some g ∧ s.msgCurrent h b i = true ∧ s.rangeOk d o n = true ∧ s.rangeHeld d o n = false ∧ n ≤ m ∧ s.filling d o n = false ∧ s.routed h = true) ∧
    (let s : State := { smallRemote [] with zeroFill := [(0, 2 ^ 24, 2 ^ 21)] }
     let h : Nat := 3
     let b : Nat := 1
     let g : Nat := 0
     let k : Nat := 1
     let d : Nat := 0
     let o : Nat := 2 ^ 24
     let n : Nat := 2 ^ 21
     let m : Nat := 2 ^ 21
     let i : BitVec 16 := 9
     let v : BitVec 32 := 0
     s.chartered = true ∧ h ≠ s.hubId ∧ s.guestSlot h b = some g ∧ s.msgCurrent h b i = true ∧ s.rangeOk d o n = true ∧ s.rangeHeld d o n = false ∧ n ≤ m ∧ s.filling d o n = true) ∧
    (let s : State := smallRemote []
     let h : Nat := 3
     let b : Nat := 1
     let g : Nat := 0
     let k : Nat := 1
     let d : Nat := 0
     let o : Nat := 2 ^ 24
     let n : Nat := 2 ^ 21
     let m : Nat := 0
     let i : BitVec 16 := 9
     let v : BitVec 32 := 0
     s.chartered = true ∧ h ≠ s.hubId ∧ s.guestSlot h b = some g ∧ s.msgCurrent h b i = true ∧ s.rangeOk d o n = true ∧ s.rangeHeld d o n = false ∧ m < n ∧ s.routed h = true) ∧
    (let s : State := smallRemote []
     let h : Nat := 3
     let b : Nat := 1
     let g : Nat := 0
     let k : Nat := 1
     let d : Nat := 0
     let o : Nat := 0
     let n : Nat := 2 ^ 21
     let m : Nat := 2 ^ 21
     let i : BitVec 16 := 9
     let v : BitVec 32 := 0
     s.chartered = true ∧ h ≠ s.hubId ∧ s.guestSlot h b = some g ∧ s.msgCurrent h b i = true ∧ (s.rangeOk d o n = false ∨ s.rangeHeld d o n = true) ∧ s.routed h = true) ∧
    (let s : State := smallRemote [⟨0, 0, 2 ^ 24, 2 ^ 21⟩]
     let h : Nat := 3
     let b : Nat := 1
     let g : Nat := 0
     let k : Nat := 1
     let d : Nat := 0
     let o : Nat := 2 ^ 24
     let n : Nat := 2 ^ 21
     let m : Nat := 2 ^ 21
     let i : BitVec 16 := 9
     let v : BitVec 32 := 0
     s.chartered = true ∧ h ≠ s.hubId ∧ s.guestSlot h b = some g ∧ s.msgCurrent h b i = true ∧ s.zeroFill.contains (d, o, n) = false ∧ s.rangeOk d o n = true ∧ s.holds (256 + g) d o n = true ∧ s.pinnedIn (256 + g) d o n = false) ∧
    (let s : State := smallRemote []
     let h : Nat := 3
     let b : Nat := 1
     let g : Nat := 0
     let k : Nat := 1
     let d : Nat := 0
     let o : Nat := 2 ^ 24
     let n : Nat := 2 ^ 21
     let m : Nat := 2 ^ 21
     let i : BitVec 16 := 8
     let v : BitVec 32 := 0
     let x : Bool := false
     s.chartered = true ∧ h ≠ s.hubId ∧ s.guestSlot h b = some g ∧ s.msgCurrent h b i = false) ∧
    (let s : State := { small with cascade := { small.cascade with forwarded := some (1, 3, false, 0, 0, 2097152) }, mailbox := { small.mailbox with busy := true } }
     let b : Nat := 1
     let h : Nat := 3
     let d : Nat := 0
     let o : Nat := 0
     let n : Nat := 2097152
     s.cascade.forwarded = some (b, h, false, d, o, n)) ∧
    (let s : State := { small with cascade := { small.cascade with forwarded := some (1, 3, false, 0, 0, 2097152) }, mailbox := { small.mailbox with busy := true } }
     let b : Nat := 1
     let h : Nat := 3
     let d : Nat := 0
     let o : Nat := 0
     let n : Nat := 2097152
     let r : BitVec 8 := 13
     s.cascade.forwarded = some (b, h, false, d, o, n) ∧ r ≠ 0) ∧
    (let s : State := smallRemote []
     let h : Nat := 3
     let b : Nat := 1
     let g : Nat := 0
     let i : BitVec 16 := 10
     let x : Guest := guestOf []
     s.guestSlot h b = some g ∧ s.guest g = some x ∧ x.incarn ≠ i) ∧
    (let s : State := smallRemote []
     let h : Nat := 3
     let b : Nat := 1
     let g : Nat := 0
     let i : BitVec 16 := 9
     let x : Guest := guestOf []
     let r : Bool := true
     s.guestSlot h b = some g ∧ s.guest g = some x ∧ x.incarn = i) ∧
    (let s : State := smallRemote [⟨0, 0, 2 ^ 24, 2 ^ 21⟩]
     let a : Nat := 3
     let h : Nat := 3
     let b : Nat := 1
     let n : Nat := 2 ^ 21
     let d : Nat := 0
     let o : Nat := 2 ^ 24
     let i : BitVec 16 := 9
     let y : List (Byte × Bool) := [(7, true)]
     s.msgCurrent h b i = true ∧ s.dieMapped d = true ∧ s.reaches h b (s.ownerOf h b) d o y.length = true ∧ (s.die d).state = .up ∧ (s.die d).queue = [] ∧ (∀ k, (s.die d).room true (DieMsg.blocks (.xltForward k o y.length true y)) = true)) ∧
    (let s : State := smallRemote [⟨0, 0, 2 ^ 24, 2 ^ 21⟩]
     let a : Nat := 3
     let h : Nat := 3
     let b : Nat := 1
     let n : Nat := 2 ^ 21
     let d : Nat := 0
     let o : Nat := 2 ^ 24
     let k : Nat := 64
     let i : BitVec 16 := 9
     s.msgCurrent h b i = true ∧ s.dieMapped d = true ∧ s.reaches h b (s.ownerOf h b) d o k = true ∧ (s.die d).state = .up ∧ (s.die d).queue = [] ∧ (s.die d).room true 0 = true) ∧
    (let s : State := smallRemote [⟨0, 0, 2 ^ 24, 2 ^ 21⟩]
     let a : Nat := 3
     let h : Nat := 3
     let b : Nat := 1
     let n : Nat := 2 ^ 21
     let d : Nat := 7
     let o : Nat := 2 ^ 24
     let k : Nat := 64
     let i : BitVec 16 := 9
     s.msgCurrent h b i = true ∧ s.dieMapped d = false ∧ s.routed a = true) ∧
    (let s : State := smallRemote []
     let a : Nat := 3
     let h : Nat := 3
     let b : Nat := 1
     let n : Nat := 2 ^ 21
     let d : Nat := 0
     let o : Nat := 2 ^ 24
     let i : BitVec 16 := 9
     let y : List (Byte × Bool) := [(7, true)]
     s.msgCurrent h b i = true ∧ s.dieMapped d = true ∧ s.reaches h b (s.ownerOf h b) d o y.length = false ∧ s.routed a = true) ∧
    (let s : State := small
     let h : Nat := 0
     let b : Nat := 1
     let n : Nat := 1
     let c : Nat := 2
     let i : BitVec 16 := 0
     let v : BitVec 64 := 64
     let k : BitVec 32 := 0
     s.msgCurrent s.hubId b i = true ∧ (s.bench b).state = .active) ∧
    (let s : State := smallRemote [⟨0, 0, 2 ^ 24, 2 ^ 21⟩]
     let a : Nat := 3
     let h : Nat := 3
     let b : Nat := 1
     let n : Nat := 2 ^ 21
     let i : BitVec 16 := 8
     let q : DataRequest := .release 1
     s.msgCurrent h b i = false) := by
  refine ⟨?_, ?_, ?_, ?_, ?_, ?_, ?_, ?_, ?_, ?_, ⟨?_, ?_, ?_, ?_, ?_, fun k => by rw [show DieMsg.blocks (.xltForward k (2 ^ 24) [((7 : Byte), true)].length true [(7, true)]) = 1 by simp [DieMsg.blocks, DieMsg.carries]]; decide +kernel⟩, ?_, ?_, ?_, ?_, ?_⟩ <;> decide +kernel

end Sys2Proof.Machine
end

/-! ## What every command leaves unchanged (O2)

Laws/Kept says of each command which components it changes, as a mask of `Kept`. Here a mask is made of the list that `mayChange` gives, and each command's mask is found within its list's. -/

namespace Sys2Proof.Machine

/-- The mask of `Kept` that admits the components of a list. -/
def Part.mask : List Part → Nat
  | [] => 0
  | p :: l => 2 ^ p.bit ||| Part.mask l

theorem Part.bit_injective : Function.Injective Part.bit := by
  intro p q
  cases p <;> cases q <;> simp [Part.bit]

@[simp] theorem Part.testBit_mask (p : Part) (l : List Part) : (Part.mask l).testBit p.bit = decide (p ∈ l) := by
  induction l with
  | nil => simp [Part.mask]
  | cons q l ih => simp [Part.mask, ih, Nat.testBit_two_pow, Part.bit_injective.eq_iff, eq_comm]

/-- A command whose mask lies within a list's completes and changes at most the components of the list. -/
theorem KeptR.within {m : Nat} {l : List Part} {s : State} {r : Result} (h : KeptR m s r)
    (e : Nat.land m (Part.mask l) = m) : ∃ t, r = .next t ∧ Unchanged l s t ∧ Lasting s t := by
  obtain ⟨t, hr, k⟩ := h
  have k : Kept (Part.mask l) s t := k.mono e
  exact ⟨t, hr, fun p hp => k.rest p (by simpa using hp), k.lasting⟩

/-- The table of commands: each one's law of Laws/Kept lies within the row that `mayChange` has for it. -/
theorem exec_within_mayChange (c : Instr) (s : State) :
    ∃ t, exec c s = .next t ∧ Unchanged (mayChange c) s t ∧ Lasting s t := by
  cases c with dsimp only [mayChange]
  | hearthPowerGood => exact (execHearthPowerGood_kept ..).within rfl
  | hearthPowerLoss => exact (execHearthPowerLoss_kept ..).within rfl
  | strapLatch => exact (execStrapLatch_kept ..).within rfl
  | sfdpReadDone => exact (execSfdpReadDone_kept ..).within rfl
  | slotHeadersRead => exact (execSlotHeadersRead_kept ..).within rfl
  | slotBodyReadDone => exact (execSlotBodyReadDone_kept ..).within rfl
  | imageBoundExpiry => exact (execImageBoundExpiry_kept ..).within rfl
  | ledgerTrainingDone => exact (execLedgerTrainingDone_kept ..).within rfl
  | bistDone => exact (execBistDone_kept ..).within rfl
  | linksPhaseEnd => exact (execLinksPhaseEnd_kept ..).within rfl
  | managementRestart => exact (execManagementRestart_kept ..).within rfl
  | restartSequenceResume => exact (execRestartSequenceResume_kept ..).within rfl
  | hearthTrim => exact (execHearthTrim_kept ..).within rfl
  | refLoss => exact (execRefLoss_kept ..).within rfl
  | refReturn => exact (execRefReturn_kept ..).within rfl
  | hearthDeadline => exact (execHearthDeadline_kept ..).within rfl
  | idleGateExpiry => exact (execIdleGateExpiry_kept ..).within rfl
  | gateDrainDone => exact (execGateDrainDone_kept ..).within rfl
  | gateDrainTimeout => exact (execGateDrainTimeout_kept ..).within rfl
  | gateSaveDone => exact (execGateSaveDone_kept ..).within rfl
  | porchEnqueue => exact (execPorchEnqueue_kept ..).within rfl
  | domainWakeDone => exact (execDomainWakeDone_kept ..).within rfl
  | pd7RefillDone => exact (execPd7RefillDone_kept ..).within rfl
  | pdWake => exact (execPdWake_kept ..).within rfl
  | thermalSample => exact (execThermalSample_kept ..).within rfl
  | thermalRecovery => exact (execThermalRecovery_kept ..).within rfl
  | perstAssert => exact (execPerstAssert_kept ..).within rfl
  | perstDeassert => exact (execPerstDeassert_kept ..).within rfl
  | linkTrainingDone => exact (execLinkTrainingDone_kept ..).within rfl
  | detectTimeout => exact (execDetectTimeout_kept ..).within rfl
  | detectRetry => exact (execDetectRetry_kept ..).within rfl
  | linkDown => exact (execLinkDown_kept ..).within rfl
  | hotReset => exact (execHotReset_kept ..).within rfl
  | dpcContainment => exact (execDpcContainment_kept ..).within rfl
  | cxlLost => exact (execCxlLost_kept ..).within rfl
  | flr => exact (execFlr_kept ..).within rfl
  | vfEnableClear => exact (execVfEnableClear_kept ..).within rfl
  | numvfsWrite => exact (execNumvfsWrite_kept ..).within rfl
  | configRequest => exact (execConfigRequest_kept ..).within rfl
  | powerStateChange => exact (execPowerStateChange_kept ..).within rfl
  | busMasterEnableChange => exact (execBusMasterEnableChange_kept ..).within rfl
  | linkPowerStateChange => exact (execLinkPowerStateChange_kept ..).within rfl
  | bar2Read => exact (execBar2Read_kept ..).within rfl
  | bar2Write => exact (execBar2Write_kept ..).within rfl
  | bar4Write => exact (execBar4Write_kept ..).within rfl
  | bar4Read => exact (execBar4Read_kept ..).within rfl
  | atomicop port fn bar hid => exact (execAtomicop_kept port fn bar hid s).within rfl
  | hostCompletion => exact (execHostCompletion_kept ..).within rfl
  | completionTimeout => exact (execCompletionTimeout_kept ..).within rfl
  | atsTranslationCompletion => exact (execAtsTranslationCompletion_kept ..).within rfl
  | invalidateRequest => exact (execInvalidateRequest_kept ..).within rfl
  | invalidateCompletion => exact (execInvalidateCompletion_kept ..).within rfl
  | priResponse => exact (execPriResponse_kept ..).within rfl
  | msixModerationExpiry => exact (execMsixModerationExpiry_kept ..).within rfl
  | msixEntryWrite => exact (execMsixEntryWrite_kept ..).within rfl
  | snpinv => exact (execSnpinv_kept ..).within rfl
  | snpdata => exact (execSnpdata_kept ..).within rfl
  | goS => exact (execGoS_kept ..).within rfl
  | knockPoll => exact (execKnockPoll_kept ..).within rfl
  | doorbell => exact (execDoorbell_kept ..).within rfl
  | ownLateRetry => exact (execOwnLateRetry_kept ..).within rfl
  | descriptorFetch => exact (execDescriptorFetch_kept ..).within rfl
  | descriptorComplete => exact (execDescriptorComplete_kept ..).within rfl
  | ringEnable => exact (execRingEnable_kept ..).within rfl
  | ringDisable => exact (execRingDisable_kept ..).within rfl
  | ringDisableDone => exact (execRingDisableDone_kept ..).within rfl
  | ringPause => exact (execRingPause_kept ..).within rfl
  | ringUnpause => exact (execRingUnpause_kept ..).within rfl
  | ringResume => exact (execRingResume_kept ..).within rfl
  | ringAbort => exact (execRingAbort_kept ..).within rfl
  | abortDone => exact (execAbortDone_kept ..).within rfl
  | copy => exact (execCopy_kept ..).within rfl
  | gather => exact (execGather_kept ..).within rfl
  | scatter => exact (execScatter_kept ..).within rfl
  | fill => exact (execFill_kept ..).within rfl
  | compare => exact (execCompare_kept ..).within rfl
  | acquire => exact (execAcquire_kept ..).within rfl
  | fence => exact (execFence_kept ..).within rfl
  | eventWait => exact (execEventWait_kept ..).within rfl
  | eventWaitSatisfied => exact (execEventWaitSatisfied_kept ..).within rfl
  | eventSignal => exact (execEventSignal_kept ..).within rfl
  | launch => exact (execLaunch_kept ..).within rfl
  | anneal => exact (execAnneal_kept ..).within rfl
  | prefetch => exact (execPrefetch_kept ..).within rfl
  | advise => exact (execAdvise_kept ..).within rfl
  | billetAlloc => exact (execBilletAlloc_kept ..).within rfl
  | billetFree => exact (execBilletFree_kept ..).within rfl
  | sealOpen => exact (execSealOpen_kept ..).within rfl
  | sealClose => exact (execSealClose_kept ..).within rfl
  | channelTakeup => exact (execChannelTakeup_kept ..).within rfl
  | burstGrant => exact (execBurstGrant_kept ..).within rfl
  | egressGrant => exact (execEgressGrant_kept ..).within rfl
  | reservationStart => exact (execReservationStart_kept ..).within rfl
  | readDataReturn => exact (execReadDataReturn_kept ..).within rfl
  | writeAck => exact (execWriteAck_kept ..).within rfl
  | triggerFire => exact (execTriggerFire_kept ..).within rfl
  | paceTimerExpiry => exact (execPaceTimerExpiry_kept ..).within rfl
  | pacingYield => exact (execPacingYield_kept ..).within rfl
  | eventClaim => exact (execEventClaim_kept ..).within rfl
  | eventRelease => exact (execEventRelease_kept ..).within rfl
  | paceClaim => exact (execPaceClaim_kept ..).within rfl
  | paceRelease => exact (execPaceRelease_kept ..).within rfl
  | paceArm => exact (execPaceArm_kept ..).within rfl
  | paceDisarm => exact (execPaceDisarm_kept ..).within rfl
  | latheBusError => exact (execLatheBusError_kept ..).within rfl
  | haltReplayResponse => exact (execHaltReplayResponse_kept ..).within rfl
  | haltReplayTimeout => exact (execHaltReplayTimeout_kept ..).within rfl
  | haltIsolationDone => exact (execHaltIsolationDone_kept ..).within rfl
  | missSlotGrant => exact (execMissSlotGrant_kept ..).within rfl
  | walkerGrant => exact (execWalkerGrant_kept ..).within rfl
  | walkDone => exact (execWalkDone_kept ..).within rfl
  | trackerExpiry => exact (execTrackerExpiry_kept ..).within rfl
  | invRingEnable => exact (execInvRingEnable_kept ..).within rfl
  | invDoorbell => exact (execInvDoorbell_kept ..).within rfl
  | setEntry => exact (execSetEntry_kept ..).within rfl
  | invalidate => exact (execInvalidate_kept ..).within rfl
  | pinLoad => exact (execPinLoad_kept ..).within rfl
  | token => exact (execToken_kept ..).within rfl
  | tokenComplete => exact (execTokenComplete_kept ..).within rfl
  | invResume => exact (execInvResume_kept ..).within rfl
  | xlateInvReceived => exact (execXlateInvReceived_kept ..).within rfl
  | xlateInvAck => exact (execXlateInvAck_kept ..).within rfl
  | faultCmdRetry => exact (execFaultCmdRetry_kept ..).within rfl
  | faultCmdFatal => exact (execFaultCmdFatal_kept ..).within rfl
  | faultFind => exact (execFaultFind_kept ..).within rfl
  | faultRead => exact (execFaultRead_kept ..).within rfl
  | regionQuerySel => exact (execRegionQuerySel_kept ..).within rfl
  | regionQuery => exact (execRegionQuery_kept ..).within rfl
  | countUpdate => exact (execCountUpdate_kept ..).within rfl
  | countDecay => exact (execCountDecay_kept ..).within rfl
  | decayOverdue => exact (execDecayOverdue_kept ..).within rfl
  | migStart => exact (execMigStart_kept ..).within rfl
  | migLeafCopyDone => exact (execMigLeafCopyDone_kept ..).within rfl
  | migLeafDone => exact (execMigLeafDone_kept ..).within rfl
  | form => exact (execForm_kept ..).within rfl
  | formationDone => exact (execFormationDone_kept ..).within rfl
  | setLimits => exact (execSetLimits_kept ..).within rfl
  | setKeep => exact (execSetKeep_kept ..).within rfl
  | hold => exact (execHold_kept ..).within rfl
  | resume => exact (execResume_kept ..).within rfl
  | sweep => exact (execSweep_kept ..).within rfl
  | grantDieMem => exact (execGrantDieMem_kept ..).within rfl
  | returnDieMem => exact (execReturnDieMem_kept ..).within rfl
  | dieMemZeroFillDone => exact (execDieMemZeroFillDone_kept ..).within rfl
  | reattachDeadlineExpiry => exact (execReattachDeadlineExpiry_kept ..).within rfl
  | noticeWrite => exact (execNoticeWrite_kept ..).within rfl
  | noticeHeadWrite => exact (execNoticeHeadWrite_kept ..).within rfl
  | noticeEnable => exact (execNoticeEnable_kept ..).within rfl
  | noticeDisable => exact (execNoticeDisable_kept ..).within rfl
  | holdLong => exact (execHoldLong_kept ..).within rfl
  | attachTokenWrite => exact (execAttachTokenWrite_kept ..).within rfl
  | attachResume => exact (execAttachResume_kept ..).within rfl
  | attachClose => exact (execAttachClose_kept ..).within rfl
  | attachFresh => exact (execAttachFresh_kept ..).within rfl
  | peerWindowOpen => exact (execPeerWindowOpen_kept ..).within rfl
  | peerWindowClose => exact (execPeerWindowClose_kept ..).within rfl
  | peerWriteApply => exact (execPeerWriteApply_kept ..).within rfl
  | peerDroppedInterval => exact (execPeerDroppedInterval_kept ..).within rfl
  | diePwrgoodRise => exact (execDiePwrgoodRise_kept ..).within rfl
  | diePwrgoodFall => exact (execDiePwrgoodFall_kept ..).within rfl
  | dieFatal => exact (execDieFatal_kept ..).within rfl
  | spAttemptStart => exact (execSpAttemptStart_kept ..).within rfl
  | spLanesAligned => exact (execSpLanesAligned_kept ..).within rfl
  | spParametersExchanged => exact (execSpParametersExchanged_kept ..).within rfl
  | spCreditsExchanged => exact (execSpCreditsExchanged_kept ..).within rfl
  | spZeroFillDone => exact (execSpZeroFillDone_kept ..).within rfl
  | spStepTimeout => exact (execSpStepTimeout_kept ..).within rfl
  | spBackoffExpiry => exact (execSpBackoffExpiry_kept ..).within rfl
  | spAbsentRetry => exact (execSpAbsentRetry_kept ..).within rfl
  | xltRequest => exact (execXltRequest_kept ..).within rfl
  | coreEventWrite => exact (execCoreEventWrite_kept ..).within rfl
  | coreFatalError => exact (execCoreFatalError_kept ..).within rfl
  | dieUeReport => exact (execDieUeReport_kept ..).within rfl
  | flitCrcError => exact (execFlitCrcError_kept ..).within rfl
  | flitAckTimeout => exact (execFlitAckTimeout_kept ..).within rfl
  | spRecoveryDone => exact (execSpRecoveryDone_kept ..).within rfl
  | spRequestTimeout => exact (execSpRequestTimeout_kept ..).within rfl
  | laneRecal => exact (execLaneRecal_kept ..).within rfl
  | recalForce => exact (execRecalForce_kept ..).within rfl
  | launchStageDone => exact (execLaunchStageDone_kept ..).within rfl
  | launchPlaceStart => exact (execLaunchPlaceStart_kept ..).within rfl
  | placementDone => exact (execPlacementDone_kept ..).within rfl
  | launchLoadDone => exact (execLaunchLoadDone_kept ..).within rfl
  | launchStartTime => exact (execLaunchStartTime_kept ..).within rfl
  | placeRelease => exact (execPlaceRelease_kept ..).within rfl
  | placeReleaseDone => exact (execPlaceReleaseDone_kept ..).within rfl
  | lateSet => exact (execLateSet_kept ..).within rfl
  | lateClear => exact (execLateClear_kept ..).within rfl
  | holdForward => exact (execHoldForward_kept ..).within rfl
  | lateReport => exact (execLateReport_kept ..).within rfl
  | releaseMessage => exact (execReleaseMessage_kept ..).within rfl
  | releaseTime => exact (execReleaseTime_kept ..).within rfl
  | annealAdmit => exact (execAnnealAdmit_kept ..).within rfl
  | annealLoadDone => exact (execAnnealLoadDone_kept ..).within rfl
  | burlMove => exact (execBurlMove_kept ..).within rfl
  | burlSliceEnd => exact (execBurlSliceEnd_kept ..).within rfl
  | burlCheckpointDone => exact (execBurlCheckpointDone_kept ..).within rfl
  | burlHaloReceived => exact (execBurlHaloReceived_kept ..).within rfl
  | annealWriteDone => exact (execAnnealWriteDone_kept ..).within rfl
  | elTrainingDone => exact (execElTrainingDone_kept ..).within rfl
  | elBackoffExpiry => exact (execElBackoffExpiry_kept ..).within rfl
  | elFlitSilence => exact (execElFlitSilence_kept ..).within rfl
  | presenceSend => exact (execPresenceSend_kept ..).within rfl
  | presenceReceived => exact (execPresenceReceived_kept ..).within rfl
  | hubSilent => exact (execHubSilent_kept ..).within rfl
  | masterClaim => exact (execMasterClaim_kept ..).within rfl
  | charterSend => exact (execCharterSend_kept ..).within rfl
  | charterReceived => exact (execCharterReceived_kept ..).within rfl
  | timeStatementSend => exact (execTimeStatementSend_kept ..).within rfl
  | timeStatementReceived => exact (execTimeStatementReceived_kept ..).within rfl
  | hearthTimeReport hub time => exact (execHearthTimeReport_kept hub time s).within rfl
  | delayProbe => exact (execDelayProbe_kept ..).within rfl
  | rosterReport => exact (execRosterReport_kept ..).within rfl
  | rosterUpdate => exact (execRosterUpdate_kept ..).within rfl
  | benchRegistration => exact (execBenchRegistration_kept ..).within rfl
  | remoteGrant => exact (execRemoteGrant_kept ..).within rfl
  | remoteSweep => exact (execRemoteSweep_kept ..).within rfl
  | sweepSettleTimeout => exact (execSweepSettleTimeout_kept ..).within rfl
  | sweepCut => exact (execSweepCut_kept ..).within rfl
  | sweepDrainDone => exact (execSweepDrainDone_kept ..).within rfl
  | sweepLocksTaken => exact (execSweepLocksTaken_kept ..).within rfl
  | sweepReclaimDone => exact (execSweepReclaimDone_kept ..).within rfl
  | lockExpiry => exact (execLockExpiry_kept ..).within rfl
  | whittlerWatchdog => exact (execWhittlerWatchdog_kept ..).within rfl
  | tallyQuery => exact (execTallyQuery_kept ..).within rfl
  | errlogEntryRead => exact (execErrlogEntryRead_kept ..).within rfl
  | scrubBlock => exact (execScrubBlock_kept ..).within rfl
  | scrubPassStart => exact (execScrubPassStart_kept ..).within rfl
  | scrubFloorDeadline => exact (execScrubFloorDeadline_kept ..).within rfl
  | dieScrubRequest => exact (execDieScrubRequest_kept ..).within rfl
  | dieScrubAck => exact (execDieScrubAck_kept ..).within rfl
  | telemetrySnapshot => exact (execTelemetrySnapshot_kept ..).within rfl
  | selftestStart => exact (execSelftestStart_kept ..).within rfl
  | selftestDone => exact (execSelftestDone_kept ..).within rfl
  | sealCheckDone => exact (execSealCheckDone_kept ..).within rfl
  | frameEvent => exact (execFrameEvent_kept ..).within rfl
  | jtagDapAccess => exact (execJtagDapAccess_kept ..).within rfl
  | jtagExtest => exact (execJtagExtest_kept ..).within rfl
  | jtagClamp => exact (execJtagClamp_kept ..).within rfl
  | jtagHighz => exact (execJtagHighz_kept ..).within rfl
  | jtagTestLogicReset => exact (execJtagTestLogicReset_kept ..).within rfl
  | jtagIdcode => exact (execJtagIdcode_kept ..).within rfl
  | jtagBypass => exact (execJtagBypass_kept ..).within rfl
  | jtagSamplePreload => exact (execJtagSamplePreload_kept ..).within rfl
  | dapMemoryRead => exact (execDapMemoryRead_kept ..).within rfl
  | dapMemoryData => exact (execDapMemoryData_kept ..).within rfl
  | dapRegisterRead => exact (execDapRegisterRead_kept ..).within rfl
  | dapRegisterWrite => exact (execDapRegisterWrite_kept ..).within rfl
  | whittlerHalt => exact (execWhittlerHalt_kept ..).within rfl
  | whittlerStep => exact (execWhittlerStep_kept ..).within rfl
  | whittlerResume => exact (execWhittlerResume_kept ..).within rfl
  | whittlerHonour => exact (execWhittlerHonour_kept ..).within rfl
  | debugCtrlWrite => exact (execDebugCtrlWrite_kept ..).within rfl
  | flashRead => exact (execFlashRead_kept ..).within rfl
  | flashProgram => exact (execFlashProgram_kept ..).within rfl
  | flashErase4k => exact (execFlashErase4k_kept ..).within rfl
  | flashCmdDone => exact (execFlashCmdDone_kept ..).within rfl
  | flashCmdTimeout => exact (execFlashCmdTimeout_kept ..).within rfl
  | smbusPointer => exact (execSmbusPointer_kept ..).within rfl
  | smbusRead => exact (execSmbusRead_kept ..).within rfl
  | smbusRestart => exact (execSmbusRestart_kept ..).within rfl
  | charterSnapshot => exact (execCharterSnapshot_kept ..).within rfl
  | registerWrite => exact (execRegisterWrite_kept ..).within rfl
  | aspmL1Change => exact (execAspmL1Change_kept ..).within rfl
  | attachRefused => exact (execAttachRefused_kept ..).within rfl
  | registerRead => exact (execRegisterRead_kept ..).within rfl
  | envanDataRequest => exact (execEnvanDataRequest_kept ..).within rfl
  | dieReadResponse => exact (execDieReadResponse_kept ..).within rfl
  | remoteBandPlacement => exact (execRemoteBandPlacement_kept ..).within rfl
  | stripAdmit => exact (execStripAdmit_kept ..).within rfl
  | stripStateReturn => exact (execStripStateReturn_kept ..).within rfl
  | remoteGrantResult => exact (execRemoteGrantResult_kept ..).within rfl
  | selftestOverdue => exact (execSelftestOverdue_kept ..).within rfl

/-- Settles O2, by the table of commands. -/
theorem everyCommandCompletesWithinItsFrame : Obligations.EveryCommandCompletesWithinItsFrame :=
  exec_within_mayChange

end Sys2Proof.Machine

/-! ## Bits and bytes of structures (O7)

What the reading of a bit range, of a little-endian number and of a field of a block says bit by bit and byte by byte (00 R10). -/

namespace Sys2Proof.Machine

/-- Bit `i` of `n` bits of a number from bit `l` on. -/
theorem testBit_bits (v l n i : Nat) : (bits v l n).testBit i = (decide (i < n) && v.testBit (l + i)) := by
  rw [bits, Nat.testBit_mod_two_pow, Nat.testBit_div_two_pow, Nat.add_comm]

/-- Bit `i` of byte `k` of a little-endian number. -/
theorem testBit_leNat (b : List Byte) (k : Nat) {i : Nat} (hi : i < 8) :
    (leNat b).testBit (8 * k + i) = (b.getD k 0).getLsbD i := by
  induction b generalizing k with
  | nil => simp [leNat]
  | cons c r ih =>
    have h : (leNat (c :: r)).testBit (8 * k + i)
        = if 8 * k + i < 8 then c.toNat.testBit (8 * k + i) else (leNat r).testBit (8 * k + i - 8) := by
      rw [leNat, Nat.add_comm, Nat.testBit_two_pow_mul_add (i := 8) _ c.isLt]
    rw [h]
    cases k with
    | zero => simp [hi, BitVec.getLsbD]
    | succ k =>
      rw [if_neg (by omega), show 8 * (k + 1) + i - 8 = 8 * k + i by omega, ih]
      rfl

/-- Byte `k` of a slice; bytes beyond the block read 0. -/
theorem getD_slice (b : List Byte) (o : Nat) {n k : Nat} (hk : k < n) : (slice b o n).getD k 0 = b.getD (o + k) 0 := by
  by_cases h : o + k < b.length
  · simp [slice, List.getD_eq_getElem?_getD, hk, h, show k < b.length - o by omega]
  · have hb : b[o + k]? = none := List.getElem?_eq_none (by omega)
    have ht : ((b.drop o).take n)[k]? = none := List.getElem?_eq_none (by simp; omega)
    rw [slice, List.getD_eq_getElem?_getD, List.getD_eq_getElem?_getD, hb,
      List.getElem?_append_right (List.getElem?_eq_none_iff.mp ht), List.getElem?_replicate]
    split <;> rfl

@[simp] theorem length_leBytes (n v : Nat) : (leBytes n v).length = n := by
  induction n generalizing v with
  | zero => rfl
  | succ n ih => rw [leBytes, List.length_cons, ih]

/-- Byte `k` of a number is its digit of weight 256 to the `k`. -/
theorem getElem?_leBytes (v : Nat) {n k : Nat} (hk : k < n) : (leBytes n v)[k]? = some (BitVec.ofNat 8 (v / 256 ^ k)) := by
  induction n generalizing v k with
  | zero => omega
  | succ n ih =>
    cases k with
    | zero => simp [leBytes, ← BitVec.toNat_inj]
    | succ k =>
      rw [leBytes, List.getElem?_cons_succ, ih _ (by omega), Nat.div_div_eq_div_mul, Nat.pow_succ']

/-- The bytes of a number spell its residue. -/
theorem leNat_leBytes (n v : Nat) : leNat (leBytes n v) = v % 256 ^ n := by
  induction n generalizing v with
  | zero => simp [leBytes, leNat, Nat.mod_one]
  | succ n ih => simp [leBytes, leNat, ih, Nat.pow_succ', Nat.mod_mul]

/-- Settles O7, one part for each function: the bit range, the field, the bytes of a number and the number they spell. -/
theorem bitsAndBytesOfStructures : Obligations.BitsAndBytesOfStructures := by
  refine ⟨fun v h l i _ => ?range, fun b o n k i hk hi => ?field, fun v n k hk => getElem?_leBytes v hk,
    fun v n => ⟨length_leBytes n v, leNat_leBytes n v⟩⟩
  case range => simp only [testBit_bits, Nat.lt_succ_iff]
  case field => rw [field, testBit_leNat _ _ hi, getD_slice _ _ hk]

end Sys2Proof.Machine

/-! ## Accesses by aligned dword (21 R569 Table 2) -/

namespace Sys2Proof.Machine

/-- An access of four bytes with every byte enabled, through BAR0 of a function. -/
abbrev dwordAccess (p f o : Nat) (d : List Byte) : RegAccess := ⟨p, f, o, 4, [true, true, true, true], d, false⟩

/-- An aligned dword is one register: absent or not. -/
theorem RegMap.allAbsent_dword (m : RegMap) (s : State) {o : Nat} (h : o % 4 = 0) :
    m.allAbsent s o 4 = (m.kind s o == .absent) := by
  simp [RegMap.allAbsent, h, show o / 4 * 4 = o by omega]

/-- An aligned four-byte read of a register that is present is a dword's read. -/
theorem RegMap.read_dword (m : RegMap) (s : State) (q : Bool) (p f : Nat) {o : Nat} (d : List Byte) (h : o % 4 = 0)
    (k : m.kind s o ≠ .absent) : m.read s q (dwordAccess p f o d) = m.readDword s q o := by
  simp [RegMap.read, m.allAbsent_dword s h, h, k]

/-- An aligned four-byte write of a register that is present is a dword's write, where nothing is staged. -/
theorem RegMap.write_dword (m : RegMap) (s : State) (p f : Nat) {o : Nat} (d : List Byte) (h : o % 4 = 0)
    (k : m.kind s o ≠ .absent) (e : m.staged s = none) : m.write s (dwordAccess p f o d) = m.writeDword s none o (dwordOf d 0) := by
  simp [RegMap.write, m.allAbsent_dword s h, h, k, e]

/-- A four-byte write that straddles dwords and meets a register that is present is counted; it discards what was staged. -/
theorem RegMap.write_dword_misaligned (m : RegMap) (s : State) (p f : Nat) {o : Nat} (d : List Byte) (h : o % 4 ≠ 0)
    (k : m.allAbsent (if (m.staged s).isSome then m.stage s none else s) o 4 = false) :
    m.write s (dwordAccess p f o d) = m.count (if (m.staged s).isSome then m.stage s none else s) := by
  simp [RegMap.write, h, k, show ¬ o % 4 + 4 ≤ 4 by omega]

/-- A dword spelt by its own four bytes. -/
@[simp] theorem dwordOf_leBytes (v : BitVec 32) : dwordOf (leBytes 4 v.toNat) 0 = v := by
  have h : slice (leBytes 4 v.toNat) (4 * 0) 4 = leBytes 4 v.toNat := by simp [slice, List.take_of_length_le]
  rw [dwordOf, field, h, leNat_leBytes, ← BitVec.toNat_inj, BitVec.toNat_ofNat]
  have := v.isLt
  omega

/-! ## The completion of a read (04 R99) -/

/-- Four bytes at an aligned address go in one completion, whatever the port's payload size. -/
theorem State.complete_dword (s : State) (p f hid : Nat) {o : Nat} (h : o % 4 = 0) (c : CplStatus) {d : List Byte}
    (hd : d.length = 4) :
    s.complete p f hid o c d = s.egress p f (s.cplPayer p f) 4 0 (.completion p f hid c d) := by
  have hk : d.length ≤ (o + pcieSize (s.port p).mps) / 128 * 128 - o := by
    have : 1 ≤ 2 ^ (s.port p).mps.toNat := Nat.one_le_two_pow
    rw [pcieSize]
    omega
  rw [State.complete, show splitCpl _ d.length o d = [d] by rw [hd, splitCpl, if_pos (hd ▸ hk)], List.foldl_cons,
    List.foldl_nil, hd]

/-- What joins a port's queue stands last in it. -/
theorem State.egress_last (s : State) (p f b size capped : Nat) (o : Out) :
    ((s.egress p f b size capped o).port p).egress.getLast?.map EgressTlp.tlp = some o := by
  simp [State.egress]

/-- A completion changes nothing of the chip. -/
theorem State.complete_chip (s : State) (p f hid addr : Nat) (c : CplStatus) (d : List Byte) :
    (s.complete p f hid addr c d).chip = s.chip :=
  (s.complete_kept p f hid addr c d).rest .chip rfl

/-! ## What the arrival of data at a port leaves (20 R562) -/

/-- What does not look at the performance counters is as it was before data arrived. -/
theorem State.portIn_blind {α : Type} {g : State → α} (h : ∀ s v, g { s with perf := v } = g s) (s : State) (p n : Nat) :
    g (s.portIn p n) = g s := by
  rw [State.portIn, State.countPerf]
  split
  · rfl
  · exact h s _

@[simp] theorem State.portIn_chip (s : State) (p n : Nat) : (s.portIn p n).chip = s.chip :=
  State.portIn_blind (g := State.chip) (fun _ _ => rfl) s p n
@[simp] theorem State.portIn_hearth (s : State) (p n : Nat) : (s.portIn p n).hearth = s.hearth :=
  State.portIn_blind (g := State.hearth) (fun _ _ => rfl) s p n
@[simp] theorem State.portIn_ports (s : State) (p n : Nat) : (s.portIn p n).ports = s.ports :=
  State.portIn_blind (g := State.ports) (fun _ _ => rfl) s p n
@[simp] theorem State.portIn_benches (s : State) (p n : Nat) : (s.portIn p n).benches = s.benches :=
  State.portIn_blind (g := State.benches) (fun _ _ => rfl) s p n
@[simp] theorem State.portIn_bench (s : State) (p n b : Nat) : (s.portIn p n).bench b = s.bench b :=
  State.portIn_blind (g := (State.bench · b)) (fun _ _ => rfl) s p n
@[simp] theorem State.portIn_benchOf (s : State) (p n q f : Nat) : (s.portIn p n).benchOf q f = s.benchOf q f :=
  State.portIn_blind (g := (State.benchOf · q f)) (fun _ _ => rfl) s p n
@[simp] theorem State.portIn_mgmtFn (s : State) (p n : Nat) : (s.portIn p n).mgmtFn = s.mgmtFn :=
  State.portIn_blind (g := State.mgmtFn) (fun _ _ => rfl) s p n
@[simp] theorem State.portIn_decodes (s : State) (p n q f : Nat) : (s.portIn p n).decodes q f = s.decodes q f :=
  State.portIn_blind (g := (State.decodes · q f)) (fun _ _ => rfl) s p n
@[simp] theorem State.portIn_barDomain (s : State) (p n : Nat) (a : RegAccess) : (s.portIn p n).barDomain a = s.barDomain a :=
  State.portIn_blind (g := (State.barDomain · a)) (fun _ _ => rfl) s p n
@[simp] theorem State.portIn_domainPresent (s : State) (p n d : Nat) : (s.portIn p n).domainPresent d = s.domainPresent d :=
  State.portIn_blind (g := (State.domainPresent · d)) (fun _ _ => rfl) s p n
@[simp] theorem State.portIn_domainOn (s : State) (p n d : Nat) : (s.portIn p n).domainOn d = s.domainOn d :=
  State.portIn_blind (g := (State.domainOn · d)) (fun _ _ => rfl) s p n

/-! ## Register accesses through BAR0 of a function (04 R94, R96; 21 R565) -/

/-- A request to a domain that is ON, or to PD0, is served at once. -/
theorem State.route_served (s : State) (src : PorchSource) (r : PorchRequest) (n g : Nat)
    (h : s.requestDomain r n = 0 ∨ (s.domainPresent (s.requestDomain r n) = true ∧ s.domainOn (s.requestDomain r n) = true)) :
    s.route src r n g = s.serve r := by
  rcases h with h | ⟨hp, ho⟩
  · simp [State.route, h]
  · simp [State.route, State.atDomain, hp, ho]

theorem exec_registerRead_served {s : State} {a : RegAccess} (hid : Nat) (hdap : a.dap = false)
    (hdec : s.decodes a.port a.fn = true) (ho : a.offset < 0x100000)
    (hdom : s.barDomain a = 0 ∨ (s.domainPresent (s.barDomain a) = true ∧ s.domainOn (s.barDomain a) = true)) :
    exec (.registerRead a hid) s = .next ((s.barRead a).2.complete a.port a.fn hid a.offset .ok (s.barRead a).1) := by
  have hroute : s.route (.host a.port) (.read a hid) 0 1 = s.serve (.read a hid) :=
    s.route_served _ _ _ _ (by simpa [State.requestDomain, hdap] using hdom)
  simp [execRegisterRead, State.registerRead, hdap, hdec, Nat.not_le.mpr ho, hroute, State.serve]

theorem exec_registerWrite_served {s : State} {a : RegAccess} (hdap : a.dap = false)
    (hdec : s.decodes a.port a.fn = true) (ho : a.offset < 0x100000)
    (hdom : s.barDomain a = 0 ∨ (s.domainPresent (s.barDomain a) = true ∧ s.domainOn (s.barDomain a) = true)) :
    exec (.registerWrite a) s = .next ((s.portIn a.port a.data.length).barWrite a) := by
  have hroute : (s.portIn a.port a.data.length).route (.host a.port) (.write a) 0 1
      = (s.portIn a.port a.data.length).serve (.write a) :=
    State.route_served _ _ _ _ _ (by simpa [State.requestDomain, hdap] using hdom)
  simp [execRegisterWrite, State.registerWrite, hdap, hdec, Nat.not_le.mpr ho, hroute, State.serve]

/-- A function that does not decode, or an offset beyond BAR0, is not reached. -/
theorem exec_register_unreached {s : State} {c : Instr} {a : RegAccess} {hid : Nat}
    (hc : c = .registerRead a hid ∨ c = .registerWrite a) (hdap : a.dap = false)
    (h : s.decodes a.port a.fn = false ∨ 0x100000 ≤ a.offset) : exec c s = .next s := by
  have h' : ¬ s.decodes a.port a.fn ∨ 0x100000 ≤ a.offset := h.imp_left (by simp [·])
  rcases hc with rfl | rfl
  · simp only [exec_registerRead, execRegisterRead, hdap, State.registerRead, if_pos h', Bool.false_eq_true, if_false]
  · simp only [exec_registerWrite, execRegisterWrite, hdap, State.registerWrite, if_pos h', Bool.false_eq_true, if_false]

/-! ### The management function's accesses to the blocks of PD0 (21 Table 1, R566) -/

section Mgmt

variable {s : State} {p f o : Nat} (hm : s.mgmtFn = (p, f)) (h1 : 0x10000 ≤ o) (h2 : o < 0x14000)

include hm h1 h2

theorem barDomain_mgmt (d : List Byte) : s.barDomain (dwordAccess p f o d) = 0 := by
  simp [State.barDomain, State.reachesHub, State.hubDomain, inView, hm, h1, h2, show ¬ 0x30000 ≤ o by omega]

theorem barRead_mgmt : s.barRead (dwordAccess p f o []) = hubMap.read s false (dwordAccess p f o []) := by
  simp [State.barRead, State.reachesHub, State.hubRead, inView, hm, h1, show ¬ 0x30000 ≤ o by omega]

/-- A write of the management function that no bench's detachment discards is the hub block's. -/
theorem barWrite_mgmt_attached (d : List Byte) (hb : (s.benchOf p f).isSome = true) (ha : (s.bench 0).detached = false) :
    s.barWrite (dwordAccess p f o d) = hubMap.write s (dwordAccess p f o d) := by
  obtain ⟨b, hb⟩ := Option.isSome_iff_exists.mp hb
  simp [State.barWrite, State.reachesHub, State.hubWrite, inView, hm, h1, hb, ha, show ¬ 0x30000 ≤ o by omega]

/-- While bench 0 is detached a write of the management function is discarded and counted (12 R348). -/
theorem barWrite_mgmt_detached (d : List Byte) (hb : (s.benchOf p f).isSome = true) (ha : (s.bench 0).detached = true) :
    s.barWrite (dwordAccess p f o d) = s.unstageHub.countHub := by
  obtain ⟨b, hb⟩ := Option.isSome_iff_exists.mp hb
  simp [State.barWrite, State.reachesHub, State.hubWrite, inView, hm, h1, hb, ha, show ¬ 0x30000 ≤ o by omega]

/-- An aligned read of a register that is present completes with the dword's bytes. -/
theorem exec_registerRead_mgmt (hid : Nat) (hdec : s.decodes p f = true) (h4 : o % 4 = 0) (hk : s.hubKind o ≠ .absent) :
    exec (.registerRead (dwordAccess p f o []) hid) s
      = .next ((hubMap.readDword s false o).2.complete p f hid o .ok (hubMap.readDword s false o).1) := by
  rw [exec_registerRead_served (a := dwordAccess p f o []) hid rfl hdec (by show o < _; omega) (.inl (barDomain_mgmt hm h1 h2 [])),
    barRead_mgmt hm h1 h2, hubMap.read_dword s false p f [] h4 hk]

theorem exec_registerWrite_mgmt (d : List Byte) (hdec : s.decodes p f = true) :
    exec (.registerWrite (dwordAccess p f o d)) s = .next ((s.portIn p d.length).barWrite (dwordAccess p f o d)) :=
  exec_registerWrite_served (a := dwordAccess p f o d) rfl hdec (by show o < _; omega) (.inl (barDomain_mgmt hm h1 h2 d))

end Mgmt

/-! ### HUB_IDENT (00 R2; 21 Table 4) -/

theorem State.hubIdent_eq (s : State) : s.hubIdent = if s.chip.grade = .ax5216 then 0x5216B001 else 0x5208B002 := by
  rw [State.hubIdent, State.big]
  cases s.chip.grade <;> rfl

/-- HUB_IDENT read by the management function: its four bytes, and nothing of the hub changes. -/
theorem exec_readHubIdent {s : State} {p f : Nat} (hid : Nat) (hdec : s.decodes p f = true) (hm : s.mgmtFn = (p, f)) :
    exec (.registerRead (dwordAccess p f 0x10000 []) hid) s = .next (s.complete p f hid 0x10000 .ok (leBytes 4 s.hubIdent.toNat)) :=
  exec_registerRead_mgmt hm (by decide) (by decide) hid hdec rfl (nofun : RegKind.word ≠ .absent)

/-- Settles O11: the bytes that HUB_IDENT gives hold the grade and the stepping. -/
theorem identityOfTheHub : Obligations.IdentityOfTheHub := by
  intro s p f hid hdec hm
  refine ⟨_, leBytes 4 s.hubIdent.toNat, exec_readHubIdent hid hdec hm, ?_, ?_, ?_⟩
  · rw [State.complete_dword s p f hid rfl _ (length_leBytes ..), State.egress_last]
  · rw [State.hubIdent_eq]; split <;> rfl
  · rw [State.hubIdent_eq]; split <;> rfl

end Sys2Proof.Machine

/-! ## Register reads and writes (O28) -/

namespace Sys2Proof.Machine

/-- BAD_ACCESS_COUNT written by the management function takes the value. -/
theorem exec_writeBadAccess {s : State} {p f : Nat} (v : BitVec 32) (hdec : s.decodes p f = true) (hm : s.mgmtFn = (p, f))
    (hb : (s.benchOf p f).isSome = true) (ha : (s.bench 0).detached = false) (hst : s.chip.staged = none) :
    exec (.registerWrite (dwordAccess p f 0x10014 (leBytes 4 v.toNat))) s
      = .next { s.portIn p 4 with chip := { s.chip with badAccess := v } } := by
  have hmap : hubMap.write (s.portIn p 4) (dwordAccess p f 0x10014 (leBytes 4 v.toNat)) = (s.portIn p 4).putHub 0x10014 v := by
    rw [hubMap.write_dword (s.portIn p 4) p f (o := 0x10014) _ rfl (nofun : RegKind.word ≠ .absent) (by simpa [hubMap] using hst), dwordOf_leBytes]
    rfl
  rw [exec_registerWrite_mgmt hm (by decide) (by decide) _ hdec, length_leBytes,
    barWrite_mgmt_attached (by simpa using hm) (by decide) (by decide) _ (by simpa using hb) (by simpa using ha), hmap]
  simp [State.putHub]

/-- A hole read by the management function: counted, and ones. -/
theorem exec_readHole {s : State} {p f o : Nat} (hid : Nat) (hdec : s.decodes p f = true) (hm : s.mgmtFn = (p, f))
    (h1 : 0x10000 ≤ o) (h2 : o < 0x14000) (h4 : o % 4 = 0) (hk : s.hubKind o = .hole) :
    exec (.registerRead (dwordAccess p f o []) hid) s = .next (s.countHub.complete p f hid o .ok (ones 4)) := by
  have hread : hubMap.readDword s false o = (ones 4, s.countHub) := by
    simp [RegMap.readDword, RegMap.missRead, hubMap, hk]
  rw [exec_registerRead_mgmt hm h1 h2 hid hdec h4 (by simp [hk]), hread]

/-- What the hub block's map discards of staging is what `unstageHub` discards. -/
theorem hubMap_unstage (s : State) : (if (hubMap.staged s).isSome then hubMap.stage s none else s) = s.unstageHub := by
  split
  · rfl
  · next h =>
    have hn : s.chip.staged = none := Option.not_isSome_iff_eq_none.mp h
    rw [State.unstageHub, ← hn]

/-- A four-byte write of the management function across dwords that are not all absent is discarded and counted. -/
theorem exec_writeMisaligned {s : State} {p f o : Nat} (d : List Byte) (hdec : s.decodes p f = true) (hm : s.mgmtFn = (p, f))
    (h1 : 0x10000 ≤ o) (h2 : o < 0x14000) (h4 : o % 4 ≠ 0) (hk : hubMap.allAbsent s o 4 = false)
    (hb : (s.benchOf p f).isSome = true) (ha : (s.bench 0).detached = false) :
    exec (.registerWrite (dwordAccess p f o d)) s = .next (s.portIn p d.length).unstageHub.countHub := by
  have hk' : hubMap.allAbsent (s.portIn p d.length).unstageHub o 4 = false := by
    rw [← hk, ← State.portIn_blind (g := (hubMap.allAbsent · o 4)) (fun _ _ => rfl) s p d.length]
    rfl
  have hmap : hubMap.write (s.portIn p d.length) (dwordAccess p f o d) = (s.portIn p d.length).unstageHub.countHub := by
    rw [hubMap.write_dword_misaligned _ p f d h4 (by rw [hubMap_unstage]; exact hk'), hubMap_unstage]
    rfl
  rw [exec_registerWrite_mgmt hm h1 h2 _ hdec,
    barWrite_mgmt_attached (by simpa using hm) h1 h2 _ (by simpa using hb) (by simpa using ha), hmap]

/-- While bench 0 is detached the management function's writes are discarded and counted. -/
theorem exec_writeDetached {s : State} {p f o : Nat} (d : List Byte) (hdec : s.decodes p f = true) (hm : s.mgmtFn = (p, f))
    (h1 : 0x10000 ≤ o) (h2 : o < 0x14000) (hb : (s.benchOf p f).isSome = true) (ha : (s.bench 0).detached = true) :
    exec (.registerWrite (dwordAccess p f o d)) s = .next (s.portIn p d.length).unstageHub.countHub := by
  rw [exec_registerWrite_mgmt hm h1 h2 _ hdec,
    barWrite_mgmt_detached (by simpa using hm) h1 h2 _ (by simpa using hb) (by simpa using ha)]

/-- Settles O28, clause by clause: accesses that are served or not reached, then the management function's five. -/
theorem registerAccess : Obligations.RegisterAccess := by
  refine ⟨fun s a hid hdap hdec ho hdom => exec_registerRead_served hid hdap hdec ho hdom,
    fun s a hdap hdec ho hdom => exec_registerWrite_served hdap hdec ho hdom,
    fun s c a hid hc hdap h => exec_register_unreached hc hdap h, ?ident,
    fun s p f v hdec hm hb ha hst => exec_writeBadAccess v hdec hm hb ha hst, ?hole, ?misaligned,
    fun s p f o d hdec hm h1 h2 hb ha => exec_writeDetached d hdec hm h1 h2 hb ha⟩
  case ident =>
    intro s p f hid hdec hm hg
    refine ⟨_, exec_readHubIdent hid hdec hm, ?_, State.complete_chip ..⟩
    rw [State.complete_dword s p f hid rfl _ (length_leBytes ..), State.egress_last, State.hubIdent_eq, if_pos hg]
    rfl
  case hole =>
    intro s p f o hid hdec hm h1 h2 h4 hk
    refine ⟨_, exec_readHole hid hdec hm h1 h2 h4 hk, ?_, ?_⟩
    · rw [State.complete_chip, State.countHub_badAccess]
    · rw [State.complete_dword _ p f hid h4 _ (by rfl), State.egress_last]
      rfl
  case misaligned =>
    intro s p f o d hdec hm h1 h2 h4 hk hb ha
    exact ⟨_, exec_writeMisaligned d hdec hm h1 h2 h4 hk hb ha, by simp [State.countHub, State.unstageHub],
      State.portIn_benches .., State.portIn_hearth .., State.portIn_ports ..⟩

end Sys2Proof.Machine

/-! ## Straps (O5)

Of the tables that `mayChange` gives, only those of STRAP_LATCH and HEARTH_POWER_LOSS list the straps (02 R34). -/

namespace Sys2Proof.Machine

/-- Only a strap latch and a power loss may change the straps. -/
theorem straps_notMem_mayChange (c : Instr) (hlatch : ∀ h m f x r, c ≠ .strapLatch h m f x r) (hloss : c ≠ .hearthPowerLoss) :
    Part.straps ∉ mayChange c := by
  cases c with
  | strapLatch h m f x r => exact absurd rfl (hlatch h m f x r)
  | hearthPowerLoss => exact absurd rfl hloss
  | _ => exact of_decide_eq_false rfl

/-- Settles O5: the straps are in the frame of no other command. -/
theorem strapsChangeOnlyAtTheirLatch : Obligations.StrapsChangeOnlyAtTheirLatch := by
  intro s t c hlatch hloss hexec
  obtain ⟨u, hu, hframe, -⟩ := exec_within_mayChange c s
  obtain rfl : u = t := by simpa [hu] using hexec
  exact hframe .straps (straps_notMem_mayChange c hlatch hloss)

end Sys2Proof.Machine

/-! ## CRC-32C (O8)

The model feeds a byte at a time, the rule a bit at a time: a bit fed later may as well be XORed into the register at once, one place higher. -/

namespace Sys2Proof.Machine

/-- The register after one bit: the bit that falls out, against the bit fed, says whether the polynomial is added (02 R43). -/
def crcFeed (c : Nat) (x : Bool) : Nat := crcBit (c ^^^ x.toNat)

/-- The number whose bits are the elements of a list, the first one lowest. -/
def bitsNat : List Bool → Nat
  | [] => 0
  | x :: l => Nat.bit x (bitsNat l)

/-- The 32 bits of the polynomial reversed are the constant of the model. -/
theorem reflected_castagnoli :
    (List.range 32).foldl (fun v i => v + (if (0x1EDC6F41 : Nat).testBit i then 2 ^ (31 - i) else 0)) 0 = 0x82F63B78 := by
  decide

theorem crcFeed_eq (c : Nat) (x : Bool) :
    crcFeed c x = if c.testBit 0 != x then (c / 2) ^^^ 0x82F63B78 else c / 2 := by
  have hx : (c ^^^ x.toNat) / 2 = c / 2 := by
    rw [← Nat.shiftRight_one, Nat.shiftRight_xor_distrib]
    cases x <;> simp [Nat.shiftRight_one]
  have hb : (c ^^^ x.toNat) % 2 = 1 ↔ (c.testBit 0 != x) = true := by
    rw [← decide_eq_true_iff (p := _ = 1), ← Nat.testBit_zero, Nat.testBit_xor]
    cases x <;> simp
  simp only [crcFeed, crcBit, hx, hb]

/-- What stands above the lowest bit moves down one place, whatever falls out. -/
theorem crcBit_xor_two_mul (c r : Nat) : crcBit (c ^^^ 2 * r) = crcBit c ^^^ r := by
  have hd : (c ^^^ 2 * r) / 2 = c / 2 ^^^ r := by
    rw [← Nat.shiftRight_one, Nat.shiftRight_xor_distrib, Nat.shiftRight_one, Nat.shiftRight_one]
    simp
  have hm : (c ^^^ 2 * r) % 2 = c % 2 := by simp [Nat.xor_mod_two_eq]
  simp only [crcBit, hd, hm]
  split
  · ac_rfl
  · rfl

theorem foldl_crcFeed (l : List Bool) (c : Nat) : l.foldl crcFeed c = crcBit^[l.length] (c ^^^ bitsNat l) := by
  induction l generalizing c with
  | nil => simp [bitsNat]
  | cons x l ih =>
    have hbit : c ^^^ Nat.bit x (bitsNat l) = (c ^^^ x.toNat) ^^^ 2 * bitsNat l := by
      rw [Nat.xor_assoc, show x.toNat = Nat.bit x 0 by cases x <;> rfl, ← Nat.bit_false_apply, Nat.xor_bit, Nat.zero_xor,
        Bool.bne_false]
    rw [List.foldl_cons, ih, List.length_cons, Function.iterate_succ_apply, bitsNat, hbit, crcBit_xor_two_mul]
    rfl

theorem testBit_bitsNat (l : List Bool) (i : Nat) : (bitsNat l).testBit i = l.getD i false := by
  induction l generalizing i with
  | nil => simp [bitsNat]
  | cons x l ih =>
    cases i with
    | zero => simp [bitsNat]
    | succ i => rw [bitsNat, Nat.testBit_bit_succ, ih, List.getD_cons_succ]

/-- A byte is made of its bits from bit 0 on. -/
theorem bitsNat_byte (b : Byte) : bitsNat ((List.range 8).map fun i => b.getLsbD i) = b.toNat := by
  apply Nat.eq_of_testBit_eq
  intro i
  rw [testBit_bitsNat, BitVec.testBit_toNat, List.getD_eq_getElem?_getD]
  by_cases h : i < 8
  · simp [h]
  · simp [h, BitVec.getLsbD_of_ge b i (by omega)]

theorem foldl_crcFeed_byte (c : Nat) (b : Byte) : ((List.range 8).map fun i => b.getLsbD i).foldl crcFeed c = crcByte c b := by
  rw [foldl_crcFeed, bitsNat_byte]
  rfl

/-- Settles O8: a byte's eight bits fed in turn are the model's step of the byte. -/
theorem crc32cOfAnImage : Obligations.Crc32cOfAnImage := by
  intro l
  rw [reflected_castagnoli, List.foldl_flatMap]
  simp only [← crcFeed_eq, foldl_crcFeed_byte]
  rfl

end Sys2Proof.Machine

/-! ## Writes of the management function to the hub block (05 R123; 12 R348) -/

namespace Sys2Proof.Machine

/-- Where the management function's memory is reached and bench 0 is attached, its write takes effect; a staged low dword is discarded. -/
theorem State.fromMgmt_served {s : State} (hdec : s.decodes s.mgmtFn.1 s.mgmtFn.2 = true) (ha : (s.bench 0).detached = false)
    (f : State → State) : s.fromMgmt f = f s.unstageHub := by
  simp [State.fromMgmt, hdec, ha]

@[simp] theorem State.unstageHub_flash (s : State) : s.unstageHub.chip.flash = s.chip.flash := rfl
@[simp] theorem State.unstageHub_now (s : State) : s.unstageHub.now = s.now := rfl
@[simp] theorem State.unstageHub_out (s : State) : s.unstageHub.out = s.out := rfl
@[simp] theorem State.unstageHub_slotSelected (s : State) (b : Bool) : s.unstageHub.slotSelected b = s.slotSelected b := rfl
@[simp] theorem State.unstageHub_flashRange (s : State) (op o n : Nat) : s.unstageHub.flashRange op o n = s.flashRange op o n := rfl
@[simp] theorem State.unstageHub_slotBase (s : State) (b : Bool) : s.unstageHub.slotBase b = s.slotBase b := rfl
@[simp] theorem State.unstageHub_density (s : State) : s.unstageHub.chip.search.density = s.chip.search.density := rfl

/-! ## Flash commands (O31; 02 R54, 21 R573, R577) -/

/-- While BUSY a command is discarded and counted. -/
theorem State.flashCmd_busy {s : State} (h : s.chip.flash.busy = true) (op : Nat) (b : Bool) (n : Nat) :
    s.flashCmd op b n = s.countHub := by
  simp [State.flashCmd, h]

/-- A command on the slot in use ends at once with RESULT 1. -/
theorem State.flashCmd_selected {s : State} {op : Nat} {b : Bool} (h : s.chip.flash.busy = false) (h0 : op ≠ 0) (h3 : op ≤ 3)
    (hsel : s.slotSelected b = true) (n : Nat) : s.flashCmd op b n = s.modFlash fun f => { f with result := 1 } := by
  simp [State.flashCmd, h, h0, hsel, flashPermission, Nat.not_lt.mpr h3]

/-- The flash operation of a command begins: BUSY, and the operation is sent. -/
def State.flashBegun (s : State) (op : Nat) (b : Bool) (n : Nat) (data : List Byte) : State :=
  (s.modFlash fun f => { f with busy := true, running := some (op, b, f.addr.toNat, n), since := s.now }).emit
    (.flash b op s.chip.flash.addr.toNat data)

/-- A command in range on a slot that is not in use begins; a read sends its read command too. -/
theorem State.flashCmd_begins {s : State} {op n : Nat} {b : Bool} (h : s.chip.flash.busy = false) (h0 : op ≠ 0) (h3 : op ≤ 3)
    (hsel : s.slotSelected b = false) (hd : s.chip.search.density ≠ 0) (hr : s.flashRange op s.chip.flash.addr.toNat n = true) :
    s.flashCmd op b n = if op = 1 then (s.flashBegun 1 b n []).spi false 12500 (s.slotBase b + s.chip.flash.addr.toNat) n
      else s.flashBegun op b n (if op = 2 then slice s.chip.flash.data 0 n else []) := by
  simp only [State.flashCmd, h, h0, hsel, hd, hr, Nat.not_lt.mpr h3, Bool.false_eq_true, or_self, if_false, not_true_eq_false]
  split
  · next h1 => subst h1; rfl
  · rfl

@[simp] theorem State.flashBegun_flash (s : State) (op : Nat) (b : Bool) (n : Nat) (d : List Byte) :
    (s.flashBegun op b n d).chip.flash
      = { s.chip.flash with busy := true, running := some (op, b, s.chip.flash.addr.toNat, n), since := s.now } := rfl

@[simp] theorem State.flashBegun_out (s : State) (op : Nat) (b : Bool) (n : Nat) (d : List Byte) :
    (s.flashBegun op b n d).out = s.out ++ [.flash b op s.chip.flash.addr.toNat d] := rfl

/-- A read at x1: the 3-byte command where its last byte lies in the first 16 MiB, else the 4-byte one (02 Table 4). -/
theorem State.spi_single (s : State) (khz addr n : Nat) :
    s.spi false khz addr n = s.emit (.spiRead (if addr + n ≤ 2 ^ 24 then 0x03 else 0x13) false khz addr n) := by
  simp [State.spi]

/-- FLASH_CMD is written by FLASH_READ, FLASH_PROGRAM and FLASH_ERASE_4K, each with its OP. -/
theorem exec_flashCommand {s : State} {c : Instr} {b : Bool} {n : Nat}
    (hc : c = .flashRead b n ∨ c = .flashProgram b n ∨ c = .flashErase4k b)
    (hdec : s.decodes s.mgmtFn.1 s.mgmtFn.2 = true) (ha : (s.bench 0).detached = false) :
    ∃ op m, op ≠ 0 ∧ op ≤ 3 ∧ exec c s = .next (s.unstageHub.flashCmd op b m) := by
  rcases hc with rfl | rfl | rfl
  · exact ⟨1, n, by decide, by decide, by rw [exec_flashRead, execFlashRead, State.fromMgmt_served hdec ha]⟩
  · exact ⟨2, n, by decide, by decide, by rw [exec_flashProgram, execFlashProgram, State.fromMgmt_served hdec ha]⟩
  · exact ⟨3, 0, by decide, by decide, by rw [exec_flashErase4k, execFlashErase4k, State.fromMgmt_served hdec ha]⟩

/-- The end of the operation under way: a read's bytes are kept. -/
theorem exec_flashCmdDone_running {s : State} {op off n : Nat} {b : Bool} (hrun : s.chip.flash.running = some (op, b, off, n))
    (d : List Byte) : exec (.flashCmdDone d) s = .next (s.modFlash fun f => { f with
      busy := false, running := none, result := 0
      data := if op = 1 then splice f.data 0 (slice d 0 n) else f.data }) := by
  rw [exec_flashCmdDone, execFlashCmdDone, hrun]
  rfl

/-- The time-out of the operation under way: none for a read, and none before its bound. -/
theorem exec_flashCmdTimeout_running {s : State} {op off n : Nat} {b : Bool}
    (hrun : s.chip.flash.running = some (op, b, off, n)) : exec .flashCmdTimeout s = .next
      (if op = 1 ∨ s.now.toNat < s.chip.flash.since.toNat + (if op = 3 then 5000000 else 10000) then s
        else s.modFlash fun f => { f with busy := false, running := none, result := 4 }) := by
  rw [exec_flashCmdTimeout, execFlashCmdTimeout, hrun]
  rfl

/-- Settles O31: the three commands, what refuses them, and their ends. -/
theorem flashProgramming : Obligations.FlashProgramming := by
  refine ⟨?read, ?program, ?erase, ?selected, ?busy, ?done, ?timeout, ?early⟩
  case read =>
    intro s b n hdec ha hb hsel hd hr
    refine ⟨_, by rw [exec_flashRead, execFlashRead, State.fromMgmt_served hdec ha], ?_⟩
    rw [State.flashCmd_begins (s := s.unstageHub) hb (by decide) (by decide) hsel hd hr, if_pos rfl, State.spi_single]
    exact ⟨rfl, List.append_assoc ..⟩
  case program =>
    intro s b n hdec ha hb hsel hd hr
    refine ⟨_, by rw [exec_flashProgram, execFlashProgram, State.fromMgmt_served hdec ha], ?_⟩
    rw [State.flashCmd_begins (s := s.unstageHub) hb (by decide) (by decide) hsel hd hr]
    simp
  case erase =>
    intro s b hdec ha hb hsel hd hr
    refine ⟨_, by rw [exec_flashErase4k, execFlashErase4k, State.fromMgmt_served hdec ha], ?_⟩
    rw [State.flashCmd_begins (s := s.unstageHub) hb (by decide) (by decide) hsel hd hr]
    simp
  case selected =>
    intro s c b n hc hdec ha hb hsel
    obtain ⟨op, m, h0, h3, hexec⟩ := exec_flashCommand hc hdec ha
    rw [State.flashCmd_selected (s := s.unstageHub) hb h0 h3 hsel] at hexec
    exact ⟨_, hexec, rfl, rfl⟩
  case busy =>
    intro s c b n hc hdec ha hb
    obtain ⟨op, m, -, -, hexec⟩ := exec_flashCommand hc hdec ha
    rw [hexec, State.flashCmd_busy (s := s.unstageHub) hb]
  case done =>
    intro s op off n b d hrun
    exact ⟨_, exec_flashCmdDone_running hrun d, rfl, rfl⟩
  case timeout =>
    intro s op off n b hrun hop hlate
    refine ⟨_, exec_flashCmdTimeout_running hrun, ?_⟩
    rw [if_neg (by omega)]
    rfl
  case early =>
    intro s op off n b hrun hearly
    rw [exec_flashCmdTimeout_running hrun, if_pos hearly]

end Sys2Proof.Machine

/-! ## What a teardown leaves (02 R56, R57; 03 R62, R66, R81)

The state after a teardown is written out by `State.teardown`; here stand the readings of its ports, of its domains and of the fault causes that outlive it. -/

namespace Sys2Proof.Machine

/-- A table changed entry by entry reads as changed, its default with it. -/
theorem tabGet_map {α : Type} (g : α → α) (t : Tab α) (d : α) (k : Nat) :
    tabGet (t.map fun e => (e.1, g e.2)) (g d) k = g (tabGet t d k) := by
  induction t with
  | nil => rfl
  | cons e r ih =>
    rw [List.map_cons, tabGet_cons, tabGet_cons, ih]
    split <;> rfl

@[simp] theorem State.teardown_hearth (s : State) (c : BitVec 4) (w : RestartWait) :
    (s.teardown c w).hearth = s.hearth.afterTeardown := rfl

@[simp] theorem State.teardown_port (s : State) (c : BitVec 4) (w : RestartWait) (p : Nat) :
    (s.teardown c w).port p = (s.port p).afterTeardown :=
  tabGet_map Port.afterTeardown s.ports .reset p

@[simp] theorem State.teardown_domain (s : State) (c : BitVec 4) (w : RestartWait) (n : Nat) :
    (s.teardown c w).domain n = { PdDomain.reset with gateAborts := (s.domain n).gateAborts } :=
  tabGet_map (fun d : PdDomain => { PdDomain.reset with gateAborts := d.gateAborts }) s.hearth.domains .reset n

/-- The fault of an entry of the log is among the causes that a teardown keeps (17 R508 Table 8). -/
theorem State.teardown_hubFault {s : State} {q : BitVec 32} (h : .entry q ∈ s.recovery.faults) (c : BitVec 4) (w : RestartWait) :
    (s.teardown c w).hubFault = true := by
  have hmem : .entry q ∈ (s.teardown c w).recovery.faults := List.mem_filter.mpr ⟨h, rfl⟩
  rw [State.hubFault, Bool.not_eq_true', List.isEmpty_eq_false_iff]
  exact List.ne_nil_of_mem hmem

/-! ## The error log (17 R507, R508) -/

/-- An entry takes the next number of the log and leaves the causes of HUB_FAULT_N. -/
theorem State.logEntry_recovery (s : State) (cls code : Nat) (fault : Bool) (a b : BitVec 64) :
    (s.logEntry cls code fault a b).recovery.logSeq = s.recovery.logSeq + 1 ∧
      (s.logEntry cls code fault a b).recovery.faults = s.recovery.faults := by
  rw [State.logEntry, (State.notice_kept ..).rest .recovery rfl]
  exact ⟨rfl, rfl⟩

theorem State.addFault_mem (s : State) (c : FaultCause) : c ∈ (s.addFault c).recovery.faults := by
  rw [State.addFault]
  split
  · next h => exact List.contains_iff_mem.mp h
  · exact List.mem_append_right _ (List.mem_singleton_self c)

@[simp] theorem State.addFault_logSeq (s : State) (c : FaultCause) : (s.addFault c).recovery.logSeq = s.recovery.logSeq := by
  rw [State.addFault]
  split <;> rfl

theorem State.logFault_logSeq (s : State) (cls code : Nat) (a b : BitVec 64) :
    (s.logFault cls code a b).recovery.logSeq = s.recovery.logSeq + 1 := by
  rw [State.logFault, (State.logEntry_recovery ..).1, State.addFault_logSeq]

theorem State.logFault_mem (s : State) (cls code : Nat) (a b : BitVec 64) :
    .entry s.recovery.logSeq ∈ (s.logFault cls code a b).recovery.faults := by
  rw [State.logFault, (State.logEntry_recovery ..).2]
  exact s.addFault_mem _

theorem State.logCause_hubFault (s : State) (cls code : Nat) (c : FaultCause) (a b : BitVec 64) :
    (s.logCause cls code c a b).hubFault = true := by
  rw [State.hubFault, Bool.not_eq_true', List.isEmpty_eq_false_iff, State.logCause, (State.logEntry_recovery ..).2]
  exact List.ne_nil_of_mem (s.addFault_mem c)

theorem State.logFault_chip (s : State) (cls code : Nat) (a b : BitVec 64) : (s.logFault cls code a b).chip = s.chip :=
  (s.logFault_kept cls code a b).rest .chip rfl

theorem State.logFault_hearth (s : State) (cls code : Nat) (a b : BitVec 64) : (s.logFault cls code a b).hearth = s.hearth :=
  (s.logFault_kept cls code a b).rest .hearth rfl

/-! ## Hub restarts (O12) -/

/-- HUB_CONTROL with RESTART and the key tears the hub down. -/
theorem State.putHubControl_key {v : BitVec 32} (h0 : v.getLsbD 0 = true) (hk : v.extractLsb' 16 16 = 0xA5C3#16) (s : State) :
    s.putHubControl v = s.teardown restartManagement .diePower := by
  simp [State.putHubControl, h0, hk]

/-- A restart is a teardown of a state with the same hearth and messages, whichever of its five sources asks for it; the debug port may have changed besides. -/
theorem exec_restart {s : State} {c : Instr} (hrun : s.running = true) (hcount : s.hearth.counting = true)
    (hdec : s.decodes s.mgmtFn.1 s.mgmtFn.2 = true) (ha : (s.bench 0).detached = false)
    (hc : c = .managementRestart 0xA5C30001 ∨ c = .smbusRestart 0xA5C3 true ∨ c = .jtagExtest ∨ c = .jtagClamp ∨ c = .jtagHighz) :
    ∃ u source w f, exec c s = .next ((State.teardown u source w).modDebug f) ∧ u.hearth = s.hearth ∧ u.out = s.out := by
  have hon : s.chip.powered = true ∧ s.chip.phase ≠ .straps := by
    simp only [State.running, Bool.and_eq_true, Bool.not_eq_true', beq_eq_false_iff_ne] at hrun
    exact ⟨hrun.1.1, hrun.1.2⟩
  have hpin : s.pinDrive
      = ((s.addFault .dbg).teardown restartDebug .testLogicReset).modDebug fun d => { d with pinDriving := true } := by
    rw [State.pinDrive, if_pos hon]
    rfl
  have hfault := (s.addFault_kept .dbg).rest
  rcases hc with rfl | rfl | rfl | rfl | rfl
  · refine ⟨s.unstageHub, restartManagement, .diePower, id, ?_, rfl, rfl⟩
    rw [exec_managementRestart, execManagementRestart, State.fromMgmt_served hdec ha, State.putHubControl_key rfl rfl]
    rfl
  · refine ⟨s, restartSmbus, if s.chip.wait = .none then .diePower else s.chip.wait, id, ?_, rfl, rfl⟩
    rw [exec_smbusRestart, execSmbusRestart, if_neg (by simp [State.smbusOpen, hon.1, hcount]), if_neg (by simp)]
    rfl
  · exact ⟨_, _, _, _, by rw [exec_jtagExtest, execJtagExtest, hpin], hfault .hearth rfl, hfault .out rfl⟩
  · exact ⟨_, _, _, _, by rw [exec_jtagClamp, execJtagClamp, hpin], hfault .hearth rfl, hfault .out rfl⟩
  · exact ⟨_, _, _, _, by rw [exec_jtagHighz, execJtagHighz, hpin], hfault .hearth rfl, hfault .out rfl⟩

/-- The loss of the reference while the hub is not waiting for anything: an entry of the log, then a teardown that waits for the reference (03 R60). -/
theorem exec_refLoss_restarts {s : State} (hpow : s.chip.powered = true) (hcount : s.hearth.counting = true)
    (href : s.hearth.refLost = false) (hw : s.chip.wait = .none) :
    exec .refLoss s = .next { (s.logFault 0x1 1 0 0).teardown restartRefLoss .reference with
      hearth := { s.hearth.afterTeardown with refLost := true } } := by
  rw [exec_refLoss, execRefLoss, if_neg (by simp [hpow, href]), if_neg (by simp [hcount]), ← s.logFault_hearth 0x1 1 0 0]
  simp only [hw, reduceCtorEq, or_self, if_false]
  rfl

/-- Settles O12: each source's command ends in a teardown, and the hearth torn down is the one it met. -/
theorem restartCutsEverything : Obligations.RestartCutsEverything := by
  refine ⟨?restart, ?refLoss⟩
  case restart =>
    intro s c hrun hcount hdec ha hc
    obtain ⟨u, source, w, f, hexec, hh, hout⟩ := exec_restart hrun hcount hdec ha hc
    have htime : (u.teardown source w).hearth.time = s.hearth.time := by rw [State.teardown_hearth, hh]; rfl
    have hcounting : (u.teardown source w).hearth.counting = s.hearth.counting := by rw [State.teardown_hearth, hh]; rfl
    have hport := u.teardown_port source w
    exact ⟨_, hexec, htime, hcounting, rfl, rfl, rfl, rfl, hout, rfl, rfl, rfl, rfl, rfl,
      fun p => ⟨congrArg Port.link (hport p), congrArg Port.egress (hport p), congrArg Port.tags (hport p)⟩,
      fun n => congrArg PdDomain.state (u.teardown_domain source w n), fun _ => rfl⟩
  case refLoss =>
    intro s hpow hcount href hw
    exact ⟨_, exec_refLoss_restarts hpow hcount href hw, rfl, rfl, rfl, rfl, rfl, rfl, rfl,
      fun p => congrArg Port.link (State.teardown_port _ restartRefLoss .reference p)⟩

end Sys2Proof.Machine

/-! ## Power, strap latch, oscillator trim (O13; 02 R34, R50; 03 R59–R62; 23 R618, R619) -/

namespace Sys2Proof.Machine

/-- The state once the straps are latched: they are stored, the image bound starts, hearth time counts. -/
def State.latched (s : State) (straps : Straps) : State :=
  { s with
    hearth := { s.hearth with counting := true }
    chip := { s.chip with straps := straps, search := { SlotSearch.reset with bound := some (s.now + 60000000) } } }

/-- PHASE becomes FLASH and PD8 is switched on, the reference being there. -/
def State.flashStarts (s : State) : State :=
  { s with chip := { s.chip with phase := .flash }, hearth := { s.hearth with refLost := false } }.modDomain 8
    fun d => { d with state := .on, idleSince := s.now }

/-- Straps latch in STRAPS; with the reference the flash phase starts, without it the loss is noted. -/
theorem exec_strapLatch_latches {s : State} (hpow : s.chip.powered = true) (hph : s.chip.phase = .straps)
    (hb : s.chip.search.bound = none) (hpin : s.dbg.pinDriving = false) (hub : BitVec 5) (e x r : Bool) (f : BitVec 2) :
    exec (.strapLatch hub e f x r) s = .next (if r then (s.latched ⟨hub, e, f, x⟩).flashStarts.readSfdp
      else { s.latched ⟨hub, e, f, x⟩ with hearth := { s.hearth with counting := true, refLost := true } }) := by
  rw [exec_strapLatch, execStrapLatch, if_neg (by simp [hpow, hph, hb, hpin])]
  cases r <;> rfl

/-- In any other phase a strap latch does nothing. -/
theorem exec_strapLatch_ignored {s : State} (hph : s.chip.phase ≠ .straps) (hub : BitVec 5) (e x r : Bool) (f : BitVec 2) :
    exec (.strapLatch hub e f x r) s = .next s := by
  rw [exec_strapLatch, execStrapLatch, if_pos (.inr (.inl hph))]

/-- An oscillator trimmed to within a bound is within it. -/
theorem State.driftWithin_bounds (s : State) {b : Int} (h : 0 ≤ b) : -b ≤ s.driftWithin b ∧ s.driftWithin b ≤ b := by
  rw [State.driftWithin]
  omega

/-- An error within 50 ppm stands; a greater one is trimmed to a free one within it. -/
theorem exec_hearthTrim_measured {s : State} (hpow : s.chip.powered = true) (href : s.hearth.refLost = false) (v : Int) :
    exec (.hearthTrim v) s = .next (if v.natAbs ≤ 50 then { s with hearth := { s.hearth with oscTrim := 100 * v } }
      else { s with hearth := { s.hearth with oscTrim := s.driftWithin 5000 }, draws := s.draws + 1 }) := by
  rw [exec_hearthTrim, execHearthTrim, if_neg (by simp [hpow, href])]
  split <;> rfl

/-- Settles O13, command by command. -/
theorem powerAndStraps : Obligations.PowerAndStraps := by
  refine ⟨fun s hoff => ?good, fun s hon => ?again, fun s => ⟨_, rfl, rfl, rfl, rfl, rfl, rfl, rfl, rfl, rfl⟩, ?latch, ?noRef,
    fun s hub e x r f hph => exec_strapLatch_ignored hph hub e x r f, ?trim, ?free, fun s v href => ?unmeasured⟩
  case good => simp [execHearthPowerGood, hoff]
  case again => simp [execHearthPowerGood, hon]
  case latch =>
    intro s hub e x f hpow hph hb hpin
    refine ⟨_, exec_strapLatch_latches hpow hph hb hpin hub e x true f, rfl, rfl, rfl, rfl, rfl, ?_, rfl⟩
    exact congrArg PdDomain.state (State.modDomain_domain_same ..)
  case noRef =>
    intro s hub e x f hpow hph hb hpin
    exact ⟨_, exec_strapLatch_latches hpow hph hb hpin hub e x false f, rfl, rfl, rfl, hph, rfl, rfl⟩
  case trim =>
    intro s v hpow href hlo hhi
    rw [exec_hearthTrim_measured hpow href, if_pos (by omega)]
  case free =>
    intro s v hpow href hv
    obtain ⟨hlo, hhi⟩ := s.driftWithin_bounds (b := 5000) (by decide)
    refine ⟨_, exec_hearthTrim_measured hpow href v, ?_⟩
    rw [if_neg (by omega)]
    exact ⟨hlo, hhi, rfl, rfl⟩
  case unmeasured => rw [exec_hearthTrim, execHearthTrim, if_pos (.inr href)]

end Sys2Proof.Machine

/-! ## Sources of a hub restart (O16; 02 R55, R56; 03 R60, R61, R86) -/

namespace Sys2Proof.Machine

/-- RESTART with another key is only counted. -/
theorem State.putHubControl_badKey {v : BitVec 32} (h0 : v.getLsbD 0 = true) (hk : v.extractLsb' 16 16 ≠ 0xA5C3#16) (s : State) :
    s.putHubControl v = s.countHub := by
  simp [State.putHubControl, h0, hk]

theorem exec_managementRestart_served {s : State} (hdec : s.decodes s.mgmtFn.1 s.mgmtFn.2 = true)
    (ha : (s.bench 0).detached = false) (v : BitVec 32) :
    exec (.managementRestart v) s = .next (s.unstageHub.putHubControl v) := by
  rw [exec_managementRestart, execManagementRestart, State.fromMgmt_served hdec ha]

/-! ### The reference comes back (03 R60, R61) -/

/-- A torn-down hub that waited for the reference waits out the die power next. -/
theorem exec_refReturn_restarting {s : State} (hpow : s.chip.powered = true) (href : s.hearth.refLost = true)
    (hw : s.chip.wait = .reference) (hph : s.chip.phase = .restarting) :
    exec .refReturn s = .next { s with hearth := { s.hearth with refLost := false }, chip := { s.chip with wait := .diePower } } := by
  rw [exec_refReturn, execRefReturn, if_neg (by simp [hpow, href])]
  simp [hph, hw]

/-- A cold start that waited in STRAPS, its image bound not passed, begins the flash phase. -/
theorem exec_refReturn_coldStart {s : State} {v : BitVec 64} (hpow : s.chip.powered = true) (href : s.hearth.refLost = true)
    (hph : s.chip.phase = .straps) (hb : s.chip.search.bound = some v) (hv : s.now.toNat < v.toNat) :
    exec .refReturn s = .next s.flashStarts.readSfdp := by
  rw [exec_refReturn, execRefReturn, if_neg (by simp [hpow, href])]
  simp only [hph, hb, Option.isSome_some, and_self, if_true]
  exact congrArg _ (if_neg (Nat.not_le.mpr hv))

/-! ### Junction temperature (03 R86; 18 R524) -/

/-- The hearth after a sample: the sensors and the hottest of them, the time from which all were cool, the warning that stays, the alert with its hysteresis. -/
def Hearth.sampled (h : Hearth) (l : List (BitVec 16)) : Hearth :=
  { h with
    sensors := l, tjMax := BitVec.ofInt 16 (hottest l), sensor := BitVec.ofNat 4 (l.findIdx fun x => x.toInt == hottest l)
    coolSince := if 900 ≤ hottest l then none else some (h.coolSince.getD h.time)
    thermalWarn := h.thermalWarn || decide (1000 ≤ hottest l)
    thermalAlert := decide (1000 ≤ hottest l) || (h.thermalAlert && decide (950 ≤ hottest l)) }

/-- The state after a sample, before a thermal cut: the hearth, and a notice to bench 0 when the alert begins. -/
def State.sampled (s : State) (l : List (BitVec 16)) : State :=
  if decide (1000 ≤ hottest l) && !s.hearth.thermalAlert then
    { s with hearth := s.hearth.sampled l }.notice 0 0x0C 1 noRing
      (BitVec.ofNat 64 (l.findIdx fun x : BitVec 16 => x.toInt == hottest l)) (BitVec.ofInt 32 (hottest l)) 0
  else { s with hearth := s.hearth.sampled l }

theorem State.sampled_kept (s : State) (l : List (BitVec 16)) : Kept 0x24 { s with hearth := s.hearth.sampled l } (s.sampled l) := by
  rw [State.sampled]
  split
  · exact State.notice_kept ..
  · exact .refl ..

theorem State.sampled_chip (s : State) (l : List (BitVec 16)) : (s.sampled l).chip = s.chip := (s.sampled_kept l).rest .chip rfl

theorem State.sampled_hearth (s : State) (l : List (BitVec 16)) : (s.sampled l).hearth = s.hearth.sampled l :=
  (s.sampled_kept l).rest .hearth rfl

/-- A sample below 100 °C makes no notice. -/
theorem State.sampled_mild (s : State) {l : List (BitVec 16)} (h : hottest l < 1000) :
    s.sampled l = { s with hearth := s.hearth.sampled l } := by
  rw [State.sampled, if_neg (by simp [Int.not_le.mpr h])]

/-- A sample cuts the hub at 115 °C, unless it is still waiting to cool. -/
theorem exec_thermalSample_powered {s : State} (hpow : s.chip.powered = true) (l : List (BitVec 16)) :
    exec (.thermalSample l) s = .next (if 1150 ≤ hottest l ∧ s.chip.wait ≠ .cool
      then ((s.sampled l).logFault 0x2 1 (BitVec.ofInt 64 (hottest l)) 0).teardown restartThermal .cool else s.sampled l) := by
  have hexec : exec (.thermalSample l) s = if 1150 ≤ hottest l ∧ (s.sampled l).chip.wait ≠ .cool
      then .next (((s.sampled l).logFault 0x2 1 (BitVec.ofInt 64 (hottest l)) 0).teardown restartThermal .cool)
      else .next (s.sampled l) := by
    rw [exec_thermalSample, execThermalSample, if_neg (by simp [hpow])]
    rfl
  rw [hexec, s.sampled_chip]
  split <;> rfl

/-- Cut or not, the hearth keeps what the sample says of cooling. -/
theorem exec_thermalSample_coolSince {s : State} (hpow : s.chip.powered = true) (l : List (BitVec 16)) :
    ∃ t, exec (.thermalSample l) s = .next t ∧ t.hearth.coolSince = if 900 ≤ hottest l then none else some (s.hearth.coolSince.getD s.now) := by
  refine ⟨_, exec_thermalSample_powered hpow l, ?_⟩
  split
  · rw [State.teardown_hearth, State.logFault_hearth, State.sampled_hearth]; rfl
  · rw [State.sampled_hearth]; rfl

/-- Once hearth time counts, the cool time must be 10 s old. -/
theorem Hearth.cooled_eq {h : Hearth} {v : BitVec 64} (hcount : h.counting = true) (hsince : h.coolSince = some v) :
    h.cooled = decide (v.toNat + 10000000 ≤ h.time.toNat) := by
  rw [Hearth.cooled, hsince, hcount, Option.map_some, Option.getD_some, Bool.not_true, Bool.false_or]

/-- Settles O16, source by source. -/
theorem restartSources : Obligations.RestartSources := by
  refine ⟨?restart, ?badKey, ?resume, ?early, ?refLoss, ?refReturn, ?coldStart, ?mild, ?alert, ?cut, ?recovered, ?hot, ?cool, ?warm⟩
  case restart =>
    intro s v hdec ha h0 hk
    refine ⟨_, exec_managementRestart_served hdec ha v, ?_⟩
    rw [State.putHubControl_key h0 hk]
    exact ⟨rfl, rfl, rfl, rfl, rfl, rfl, rfl, rfl, rfl, rfl, rfl⟩
  case badKey =>
    intro s v hdec ha h0 hk
    refine ⟨_, exec_managementRestart_served hdec ha v, ?_⟩
    rw [State.putHubControl_badKey h0 hk]
    exact ⟨rfl, rfl, rfl⟩
  case resume =>
    intro s hw hlate hpin
    rw [exec_restartSequenceResume, execRestartSequenceResume, if_pos ⟨hw, by simpa using hlate, by simp [hpin]⟩]
    rfl
  case early =>
    intro s hcount hearly
    rw [exec_restartSequenceResume, execRestartSequenceResume, if_neg (by simp [hcount]; omega)]
  case refLoss =>
    intro s hpow hcount href hw
    exact ⟨_, exec_refLoss_restarts hpow hcount href hw, rfl, rfl, State.teardown_hubFault (s.logFault_mem 0x1 1 0 0) restartRefLoss .reference,
      rfl, rfl, rfl, rfl, s.logFault_logSeq 0x1 1 0 0⟩
  case refReturn =>
    intro s hpow href hw hph
    exact ⟨_, exec_refReturn_restarting hpow href hw hph, rfl, rfl, hph⟩
  case coldStart =>
    intro s v hpow href hph hb hv
    exact ⟨_, exec_refReturn_coldStart hpow href hph hb hv, rfl, rfl,
      congrArg PdDomain.state (State.modDomain_domain_same ..)⟩
  case mild =>
    intro s l hpow hl
    refine ⟨_, exec_thermalSample_powered hpow l, ?_⟩
    rw [if_neg (by omega), s.sampled_mild hl]
    simp [Hearth.sampled, Int.not_le.mpr hl]
  case alert =>
    intro s l hpow hlo hhi
    refine ⟨_, exec_thermalSample_powered hpow l, ?_⟩
    rw [if_neg (by omega), State.hearthAlert, State.sampled_hearth, State.sampled_chip]
    simp [Hearth.sampled, hlo]
  case cut =>
    intro s l hpow hw hl
    refine ⟨_, exec_thermalSample_powered hpow l, ?_⟩
    rw [if_pos ⟨hl, hw⟩, State.hearthAlert, State.teardown_hearth, State.logFault_hearth, State.sampled_hearth]
    have hhot : 1000 ≤ hottest l := by omega
    exact ⟨by simp [Hearth.afterTeardown, Hearth.sampled, hhot], by simp [Hearth.afterTeardown, Hearth.sampled, hhot],
      State.teardown_hubFault (State.logFault_mem ..) _ .cool, rfl, rfl, rfl, rfl⟩
  case recovered =>
    intro s hw hcool
    rw [exec_thermalRecovery, execThermalRecovery, if_pos ⟨hw, hcool⟩]
  case hot =>
    intro s v hcount hsince
    have hwarm : s.hearth.cooled = false := by
      rcases hsince with hnone | ⟨hsome, hv⟩
      · simp [Hearth.cooled, hnone]
      · rw [Hearth.cooled_eq hcount hsome]
        exact decide_eq_false (Nat.not_le.mpr hv)
    rw [exec_thermalRecovery, execThermalRecovery, if_neg (by simp [hwarm])]
  case cool =>
    intro s l hpow hl
    obtain ⟨t, hexec, ht⟩ := exec_thermalSample_coolSince hpow l
    exact ⟨t, hexec, by rw [ht, if_neg (by omega)]⟩
  case warm =>
    intro s l hpow hl
    obtain ⟨t, hexec, ht⟩ := exec_thermalSample_coolSince hpow l
    exact ⟨t, hexec, by rw [ht, if_pos hl]⟩

end Sys2Proof.Machine

/-! ## Ledger training, start-up BIST, the end of LINKS (O15; 02 R35, R37; 13 R385; 18 R531, R532) -/

namespace Sys2Proof.Machine

/-- Switching on the present domains of a list changes the hearth only. -/
theorem State.switchOn_kept (l : List Nat) (s : State) : Kept 0x2 s (l.foldl (fun s n =>
    if s.domainPresent n then s.modDomain n fun d => { d with state := .on, idleSince := s.now } else s) s) :=
  .foldl (fun s n => .ite (s.modDomain_kept n _) (.refl _ s)) l s

/-- BIST begins once the flash phase has a configuration and the ledger is ready; nothing else of the chip changes. -/
theorem State.tryBist_chip (s : State) : s.tryBist.chip =
    if s.chip.phase = .flash ∧ s.chip.cfg.isSome ∧ s.chip.ledgerReady then { s.chip with phase := .bist } else s.chip := by
  rw [State.tryBist]
  split
  · exact (State.switchOn_kept _ _).rest .chip rfl
  · rfl

/-- Channels that all trained: the ledger is ready, its billets empty. -/
theorem exec_ledgerTrainingDone_trained {s : State} (hph : s.chip.phase = .flash) (hr : s.chip.ledgerReady = false)
    (hf : s.chip.ledgerFail = false) : exec (.ledgerTrainingDone 0#4) s
      = .next ({ s with chip := { s.chip with ledgerReady := true }, billetMem := [] }.endFault .ledger).tryBist := by
  rw [exec_ledgerTrainingDone, execLedgerTrainingDone, if_neg (by simp [hph, hr, hf])]
  rfl

/-- A channel that failed: LEDGER_FAIL with its mask, an entry of the log and HUB_FAULT_N. -/
theorem exec_ledgerTrainingDone_failed {s : State} {m : BitVec 4} (hm : m ≠ 0#4) (hph : s.chip.phase = .flash)
    (hr : s.chip.ledgerReady = false) (hf : s.chip.ledgerFail = false) : exec (.ledgerTrainingDone m) s
      = .next ({ s with chip := { s.chip with ledgerFail := true, ledgerMask := m } }.logCause 0x3 1 .ledger (m.setWidth 64) 0) := by
  rw [exec_ledgerTrainingDone, execLedgerTrainingDone, if_neg (by simp [hph, hr, hf])]
  exact if_neg hm

/-! ### Start-up BIST -/

/-- PHASE becomes LINKS, and INST is drawn. -/
def State.linksBegun (s : State) : State :=
  { s with
    draws := s.draws + 1
    chip := { s.chip with phase := .links, linksAt := s.now }
    cascade := { s.cascade with inst := Config.random s.draws } }

section Bist

variable {s : State} {r : BistResult} (hph : s.chip.phase = .bist) (hf : s.chip.bistFail = false)

include hph hf

/-- The failures that stop the start, each with its unit, in their order; otherwise the result goes on. -/
theorem exec_bistDone_once : exec (.bistDone r) s =
    if r.fabric then .next (s.bistStop 1) else
    if (s.bistApply r).clusterAFenced then .next (s.bistStop 2) else
    if r.walker ∨ 4 < r.ways.length then .next (s.bistStop 3) else
    .next ((s.bistApply r).linksBegun.disableLinks.startEnvans) := by
  rw [exec_bistDone, execBistDone, if_neg (by simp [hph, hf])]
  rfl

/-- A start whose tests pass goes on to LINKS with a fresh INST; only spindle ports and Envan links change after that. -/
theorem exec_bistDone_passes (h1 : r.fabric = false) (h2 : (s.bistApply r).clusterAFenced = false)
    (h3 : r.walker = false) (h4 : r.ways.length ≤ 4) :
    ∃ t, exec (.bistDone r) s = .next t ∧ t.chip.phase = .links ∧ t.cascade.inst = Config.random s.draws ∧
      t.headstock = (s.bistApply r).headstock ∧ t.dense = (s.bistApply r).dense ∧ t.lattice = (s.bistApply r).lattice := by
  have hexec : exec (.bistDone r) s = .next (s.bistApply r).linksBegun.disableLinks.startEnvans := by
    rw [exec_bistDone_once hph hf, if_neg (by simp [h1]), if_neg (by simp [h2]), if_neg (by simp [h3, h4])]
  have hkept : Kept 0x808000 (s.bistApply r).linksBegun (s.bistApply r).linksBegun.disableLinks.startEnvans :=
    (State.startEnvans_kept _).step rfl (State.disableLinks_kept _)
  have hdraws : (s.bistApply r).draws = s.draws := (s.bistApply_kept r).rest .draws rfl
  refine ⟨_, hexec, congrArg Chip.phase (hkept.rest .chip rfl), ?_, hkept.rest .headstock rfl, hkept.rest .dense rfl,
    hkept.rest .lattice rfl⟩
  rw [← hdraws]
  exact congrArg Cascade.inst (hkept.rest .cascade rfl)

end Bist

/-! ### Bench 0 -/

/-- The bench reserved is FORMING, with the function, class and rings it was asked for. -/
theorem State.formReserve_bench (s : State) (b cls p f n : Nat) (l : Limits) (bar2 : Nat) (keep : Bool) :
    (s.formReserve b cls p f n l bar2 keep).bench b = { Bench.reset with
      state := .forming, keep := keep, port := p, fn := f, classId := cls, ringCount := n
      incarn := (s.bench b).incarn, token := (s.bench b).token, limits := l
      bar2Base := BitVec.ofNat 64 bar2, rings := freshRings (s.chooseContexts n) 0, bucket := fullBucket l } := by
  have hkept : Kept 0x2000000 (s.setBench b _) (s.formReserve b cls p f n l bar2 keep) :=
    (State.addTally_kept ..).step rfl (.foldl (fun s c => s.addTally_kept 0x01 b (if c < 1024 then 0 else 1) c) _ _)
  rw [State.bench, hkept.rest .benches rfl]
  exact tabGet_tabSet_same ..

/-- The formation's end gives the bench a token and the root of its table. -/
theorem State.formFinish_bench (s : State) (b : Nat) : (s.formFinish b).bench b = { s.bench b with
    token := goodToken (Config.random s.draws) (s.bench b).token, modeD := .fresh (s.classHas b BenchClass.modeD) } := by
  rw [State.formFinish]
  dsimp only [State.draw]
  split <;> exact tabGet_tabSet_same ..

/-- Bench 0 formed: ACTIVE on the management function, with its class and the rings of the class. -/
theorem State.formBench0_bench {s : State} {cfg : ImageCfg} {c : BenchClass} (hcfg : s.chip.cfg = some cfg)
    (hc : s.findClass cfg.mgmtClass = some c) :
    let x := s.formBench0.bench 0
    x.state = .active ∧ x.port = cfg.mgmtPort ∧ x.fn = cfg.mgmtFunction ∧ x.classId = cfg.mgmtClass ∧ x.ringCount = c.maxRings := by
  simp only [State.formBench0, hcfg, hc, State.modBench_bench_same]
  rw [State.formFinish_bench, State.formReserve_bench]
  simp

/-- The state as LINKS ends, before bench 0 is formed: PHASE HOSTS, the domains of the host ports on. -/
def State.hostsBegun (s : State) : State :=
  [1, 2, 3, 4].foldl (fun s n => if s.domainPresent n then s.modDomain n fun d => { d with state := .on, idleSince := s.now } else s)
    { s with chip := { s.chip with phase := .hosts }, cascade := { s.cascade with charterHeard := some s.now } }

theorem State.hostsBegun_chip (s : State) : s.hostsBegun.chip = { s.chip with phase := .hosts } :=
  (State.switchOn_kept _ _).rest .chip rfl

/-- LINKS ends once every spindle port is settled, or 2 s after it began. -/
theorem exec_linksPhaseEnd_due {s : State} (hph : s.chip.phase = .links)
    (hdue : s.portsSettled = true ∨ s.chip.linksAt.toNat + 2000000 ≤ s.now.toNat) :
    exec .linksPhaseEnd s = .next ((List.range s.hostsBegun.nPorts).foldl State.startDetect s.hostsBegun.formBench0) := by
  rw [exec_linksPhaseEnd, execLinksPhaseEnd, if_neg (by simp only [hph, ne_eq, not_true_eq_false, false_or, not_not]; exact hdue)]
  rfl

/-- Settles O15, command by command. -/
theorem bistAndLinks : Obligations.BistAndLinks := by
  refine ⟨?trained, ?failed, ?fabric, ?lathes, ?headstock, ?passes, ?linksEnd, ?tooEarly⟩
  case trained =>
    intro s hph hr hf
    refine ⟨_, exec_ledgerTrainingDone_trained hph hr hf, ?_, (State.tryBist_kept _).rest .billetMem rfl, ?_⟩
    · rw [State.tryBist_chip]; split <;> rfl
    · rw [State.tryBist_chip]
      simp [State.endFault, hph, apply_ite Chip.phase]
  case failed =>
    intro s m hm hph hr hf
    have hchip := (State.logCause_kept { s with chip := { s.chip with ledgerFail := true, ledgerMask := m } } 0x3 1 .ledger
      (m.setWidth 64) 0).rest .chip rfl
    exact ⟨_, exec_ledgerTrainingDone_failed hm hph hr hf, congrArg Chip.ledgerFail hchip, congrArg Chip.ledgerMask hchip,
      (congrArg Chip.phase hchip).trans hph, State.logCause_hubFault ..⟩
  case fabric =>
    intro s r hph hf h1
    exact ⟨_, (exec_bistDone_once hph hf).trans (if_pos h1), rfl, rfl, hph⟩
  case lathes =>
    intro s r hph hf h1 h2
    exact ⟨_, (exec_bistDone_once hph hf).trans ((if_neg (by simp [h1])).trans (if_pos h2)), rfl, rfl, hph⟩
  case headstock =>
    intro s r hph hf h1 h2 h3
    exact ⟨_, (exec_bistDone_once hph hf).trans ((if_neg (by simp [h1])).trans ((if_neg (by simp [h2])).trans (if_pos h3))),
      rfl, rfl, hph⟩
  case passes =>
    intro s r hph hf h1 h2 h3 h4
    obtain ⟨t, hexec, hphase, hinst, hheadstock, hdense, hlattice⟩ := exec_bistDone_passes hph hf h1 h2 h3 h4
    exact ⟨t, hexec, hphase, hinst, by rw [hheadstock]; rfl, by rw [hdense]; rfl, by rw [hlattice]; rfl⟩
  case linksEnd =>
    intro s cfg c hph hcfg hc hdue
    have hports := Kept.foldl (m := 0x4) State.startDetect_kept (List.range s.hostsBegun.nPorts) s.hostsBegun.formBench0
    have hchip := (hports.rest .chip rfl).trans (s.hostsBegun.formBench0_kept.rest .chip rfl)
    refine ⟨_, exec_linksPhaseEnd_due hph hdue, by rw [hchip, s.hostsBegun_chip], ?_⟩
    rw [State.bench, hports.rest .benches rfl]
    refine State.formBench0_bench (by rw [s.hostsBegun_chip]; exact hcfg) ?_
    rw [State.findClass, s.hostsBegun_chip]
    exact hc
  case tooEarly =>
    intro s hs hearly
    rw [exec_linksPhaseEnd, execLinksPhaseEnd, if_pos (.inr (by simp [hs, Nat.not_le.mpr hearly]))]

end Sys2Proof.Machine

/-! ## A die's training attempt (O52; 13 R368, R383, R384, R388–R390) -/

namespace Sys2Proof.Machine

/-- A change of one die: that die is as changed, every other as before. -/
theorem State.modDie_die (s : State) (d : Nat) (f : Spindle → Spindle) :
    (s.modDie d f).die d = f (s.die d) ∧ ∀ e, e ≠ d → (s.modDie d f).die e = s.die e :=
  ⟨s.modDie_die_same d f, fun _ h => s.modDie_die_ne f h⟩

/-- A change of a die is what it makes of the die as it stands. -/
theorem State.modDie_congr {s : State} {d : Nat} {f g : Spindle → Spindle} (h : f (s.die d) = g (s.die d)) :
    s.modDie d f = s.modDie d g := by
  show { s with spindles := tabSet d (f (s.die d)) s.spindles } = _
  rw [h]
  rfl

@[simp] theorem State.cancelDeadline_at_die (s : State) (k : DeadlineKind) (d : Nat) : (s.cancelDeadline k).die d = s.die d := rfl

@[simp] theorem State.addDeadline_at_die (s : State) (k : DeadlineKind) (v : BitVec 64) (d : Nat) :
    (s.addDeadline k v).die d = s.die d :=
  congrArg (fun t : Tab Spindle => tabGet t .reset d) ((s.addDeadline_kept k v).rest .spindles rfl)

/-- The only deadline, where none stood. -/
theorem State.addDeadline_deadlines {s : State} (h : s.hearth.deadlines = []) (k : DeadlineKind) (v : BitVec 64) :
    (s.addDeadline k v).hearth.deadlines = [⟨k, v⟩] := by
  rw [State.addDeadline, h]
  rfl

/-- A message without data to a die that is not in RECOVERY goes out at once. -/
theorem State.sendDie_now {s : State} {d : Nat} {m : DieMsg} (h : (s.die d).state ≠ .recovery) (hm : m.bytes = 0) :
    s.sendDie d m = s.emit (.die d m) := by
  rw [State.sendDie, if_neg h, State.countPerf, if_pos hm]

/-- An event meets its owner at once while the owner's domain is ON. -/
theorem State.ownedBy_on {s : State} {n : Nat} (h : s.domainOn n = true) (f : State → State) : s.ownedBy n f = f s := by
  simp [State.ownedBy, h]

/-- An attempt past its power step has a step under way. -/
theorem Spindle.step_of_pastPower {x : Spindle} (h : x.pastPower = true) : x.step ≠ .none := by
  simp only [Spindle.pastPower, Bool.and_eq_true, bne_iff_ne] at h
  exact h.1

theorem State.dieCause_inService {s : State} {d : Nat} (h : (s.die d).inService = true) (c : BitVec 4) :
    s.dieCause d c = s.dieLost d c := by
  rw [State.dieCause, if_pos h]

theorem State.dieCause_attempt {s : State} {d : Nat} (h : (s.die d).inService = false) (hs : (s.die d).step ≠ .none) (c : BitVec 4) :
    s.dieCause d c = s.modDie d fun x => x.fail s.now c := by
  rw [State.dieCause, if_neg (by simp [h]), if_pos hs]

/-! ### The attempt begins -/

/-- In its turn an OFF die is powered. -/
theorem exec_spAttemptStart_off {s : State} {d : Nat} (hfit : s.portFitted d = true) (hmay : s.mayPower = true)
    (hon : s.domainOn (dieDomain d) = true) (hoff : (s.die d).state = .off) (hturn : s.dieTurn d = true) :
    exec (.spAttemptStart d) s = .next (s.modDie d (Spindle.attempt s.now)) := by
  simp [execSpAttemptStart, hfit, hmay, hon, hoff, hturn]

/-- A die that may not be powered, or an OFF die out of its turn, is not. -/
theorem exec_spAttemptStart_denied {s : State} {d : Nat}
    (h : s.mayPower = false ∨ s.domainOn (dieDomain d) = false ∨ ((s.die d).state = .off ∧ s.dieTurn d = false)) :
    exec (.spAttemptStart d) s = .next s := by
  rcases h with h | h | ⟨hoff, hturn⟩
  · simp [execSpAttemptStart, h]
  · simp [execSpAttemptStart, h]
  · simp [execSpAttemptStart, hoff, hturn]

/-! ### The supply and the die itself -/

theorem exec_diePwrgoodRise_powering {s : State} {d : Nat} (hd : d < s.nDies) (hen : (s.die d).pwrEn = true)
    (hst : (s.die d).step = .power) : exec (.diePwrgoodRise d) s = .next (s.modDie d fun x =>
      { x with pwrGood := true, step := .lanes, stepAt := s.now, state := .training }) := by
  rw [exec_diePwrgoodRise, execDiePwrgoodRise, if_neg (Nat.not_le.mpr hd)]
  exact congrArg _ (State.modDie_congr (if_pos ⟨hen, hst⟩))

theorem exec_diePwrgoodFall_present {s : State} {d : Nat} (hd : d < s.nDies)
    (h : (s.die d).inService = true ∨ (s.die d).pastPower = true) :
    exec (.diePwrgoodFall d) s = .next ((s.modDie d fun x => { x with pwrGood := false }).dieCause d 1) := by
  rw [exec_diePwrgoodFall, execDiePwrgoodFall, if_neg (Nat.not_le.mpr hd)]
  simp only [State.modDie_die_same]
  exact congrArg _ (if_pos h)

theorem exec_dieFatal_present {s : State} {d : Nat} (hd : d < s.nDies)
    (h : (s.die d).inService = true ∨ (s.die d).pastPower = true) : exec (.dieFatal d) s = .next (s.dieCause d 8) := by
  rw [exec_dieFatal, execDieFatal, if_neg (Nat.not_le.mpr hd), if_pos h]

/-! ### Its steps -/

/-- Aligned lanes: the parameters are next, but at half width only where that is permitted. -/
theorem exec_spLanesAligned_step {s : State} {d : Nat} (hst : (s.die d).step = .lanes) (x : Bool) :
    exec (.spLanesAligned d x) s = .next (s.modDie d fun y => if x = true ∧ s.halfPermitted d = false then y.fail s.now 3
      else { y with half := x, step := .parameters, stepAt := s.now }) := by
  refine congrArg _ (State.modDie_congr ?_)
  rw [if_neg (by simp [hst])]
  simp [Spindle.toStep]

/-- Parameters of an accepted die with 48 GiB: its defect map is kept, the credits are next. -/
theorem exec_spParametersExchanged_good {s : State} {d n : Nat} (hst : (s.die d).step = .parameters) (hn : 48 ≤ n) (l : List Nat) :
    exec (.spParametersExchanged d true n l) s
      = .next (s.modDie d fun y => { y with defects := l, step := .credits, stepAt := s.now }) := by
  refine congrArg _ (State.modDie_congr ?_)
  rw [if_neg (by simp [hst]), if_neg (by simp [hn])]
  rfl

/-- Other parameters fail the attempt. -/
theorem exec_spParametersExchanged_bad {s : State} {d n : Nat} {x : Bool} (hst : (s.die d).step = .parameters)
    (hbad : x = false ∨ n < 48) (l : List Nat) :
    exec (.spParametersExchanged d x n l) s = .next (s.modDie d fun y => y.fail s.now 4) := by
  refine congrArg _ (State.modDie_congr ?_)
  rw [if_neg (by simp [hst]), if_pos (by simpa using hbad)]

theorem exec_spZeroFillDone_ready {s : State} {d : Nat} (hst : (s.die d).step = .zero) (href : s.hearth.refilling = false) :
    exec (.spZeroFillDone d) s = .next ((s.modDie d fun x => { x with
      step := .none, state := .up, cause := 0, attempts := 0, fails := 0, crcRun := 0, failedRecovery := none
      scrubPos := 0 }).cancelDeadline (.spindleRetry d)) := by
  rw [exec_spZeroFillDone, execSpZeroFillDone, if_neg (by simp [hst, href])]

theorem exec_spCreditsExchanged_fills {s : State} {d : Nat} (h : (s.die d).step = .credits) :
    exec (.spCreditsExchanged d) s = .next
      ((s.modDie d fun x => { x with step := .zero, stepAt := s.now, state := .zeroing }).emit (.die d (.zeroFill 0 dieBytes))) := by
  rw [exec_spCreditsExchanged, execSpCreditsExchanged, if_neg (by simp [h]), State.sendDie_now (by simp) rfl]
  rfl

/-- A step that has lasted its bound fails with its cause. -/
theorem exec_spStepTimeout_due {s : State} {d n : Nat} (f : LaneFault) (hb : (s.die d).step.bound = some n)
    (hdue : (s.die d).stepAt.toNat + n ≤ s.now.toNat) :
    exec (.spStepTimeout d f) s = .next (s.modDie d fun x => x.fail s.now (x.stepCause f)) := by
  refine congrArg _ (State.modDie_congr ?_)
  rw [hb]
  exact if_pos hdue

/-! ### Back-off and absence -/

theorem exec_spBackoffExpiry_due {s : State} {d : Nat} (hst : (s.die d).state = .backoff) (hl : (s.die d).lost = false)
    (hmay : s.mayPower = true) (hon : s.domainOn (dieDomain d) = true)
    (hdue : (s.die d).offSince.toNat + 2 ^ ((s.die d).fails - 1) * 1000 ≤ s.now.toNat) :
    exec (.spBackoffExpiry d) s = .next (if 8 ≤ (s.die d).fails
      then (s.modDie d fun x => { x with state := .absent }).addDeadline (.spindleRetry d) s.in10s
      else s.modDie d (Spindle.attempt s.now)) := by
  rw [exec_spBackoffExpiry, execSpBackoffExpiry, if_neg (by simp [hst, hl, hmay, backoffMs, hdue]), State.ownedBy_on hon]

theorem exec_spAbsentRetry_due {s : State} {d : Nat} (hst : (s.die d).state = .absent) (hmay : s.mayPower = true)
    (hon : s.domainOn (dieDomain d) = true) (hdead : s.hearth.deadlines = []) :
    exec (.spAbsentRetry d) s = .next
      (((s.cancelDeadline (.spindleRetry d)).addDeadline (.spindleRetry d) s.in10s).modDie d (Spindle.attempt s.now)) := by
  rw [exec_spAbsentRetry, execSpAbsentRetry, if_neg (by simp [hst, hmay, hdead]), State.ownedBy_on hon]

/-- Settles O52, step by step. -/
theorem dieAttempts : Obligations.DieAttempts := by
  refine ⟨?start, fun s d h => exec_spAttemptStart_denied h, ?rise, ?fall, ?fallInService, ?fatalInService, ?fatal, ?lanes, ?parameters,
    ?badParameters, ?credits, ?zero, ?notZero, ?lanesTimeout, ?timeout, ?backoff, ?absent, ?retry⟩
  case start =>
    intro s d hfit hmay hon hoff hturn
    obtain ⟨hd, hne⟩ := s.modDie_die d (Spindle.attempt s.now)
    exact ⟨_, exec_spAttemptStart_off hfit hmay hon hoff hturn, hd, congrArg Spindle.state hd,
      congrArg Spindle.step hd, congrArg Spindle.pwrEn hd, rfl, hne⟩
  case rise =>
    intro s d hd hen hst
    exact ⟨_, exec_diePwrgoodRise_powering hd hen hst, s.modDie_die d _⟩
  case fall =>
    intro s d hd hs hp
    obtain ⟨hu, hune⟩ := s.modDie_die d fun x => { x with pwrGood := false }
    obtain ⟨ht, htne⟩ := (s.modDie d fun x => { x with pwrGood := false }).modDie_die d fun x => x.fail s.now 1
    rw [hu] at ht
    have hexec := exec_diePwrgoodFall_present hd (.inr hp)
    rw [State.dieCause_attempt (by rw [hu]; exact hs) (by rw [hu]; exact Spindle.step_of_pastPower hp)] at hexec
    exact ⟨_, hexec, ht, congrArg Spindle.pwrEn ht, congrArg Spindle.cause ht, fun e he => (htne e he).trans (hune e he)⟩
  case fallInService =>
    intro s d hd hs
    rw [exec_diePwrgoodFall_present hd (.inl hs), State.dieCause_inService (by rw [State.modDie_die_same]; exact hs)]
  case fatalInService =>
    intro s d hd hs
    rw [exec_dieFatal_present hd (.inl hs), State.dieCause_inService hs]
  case fatal =>
    intro s d hd hs hp
    refine ⟨_, exec_dieFatal_present hd (.inr hp), ?_⟩
    rw [State.dieCause_attempt hs (Spindle.step_of_pastPower hp)]
    exact s.modDie_die d _
  case lanes =>
    intro s d x hst
    exact ⟨_, exec_spLanesAligned_step hst x, s.modDie_die d _⟩
  case parameters =>
    intro s d n l hst hn
    exact ⟨_, exec_spParametersExchanged_good hst hn l, s.modDie_die d _⟩
  case badParameters =>
    intro s d n x l hst hbad
    obtain ⟨hd, hne⟩ := s.modDie_die d fun y => y.fail s.now 4
    exact ⟨_, exec_spParametersExchanged_bad hst hbad l, hd, congrArg Spindle.pwrEn hd, hne⟩
  case credits =>
    intro s d hst
    refine ⟨_, exec_spCreditsExchanged_fills hst, ?_, rfl, fun e he => ?_⟩
    · rw [State.emit_at_die, State.modDie_die_same]
    · rw [State.emit_at_die, State.modDie_die_ne _ _ he]
  case zero =>
    intro s d hst href
    refine ⟨_, exec_spZeroFillDone_ready hst href, ?_, rfl, fun e he => ?_⟩
    · rw [State.cancelDeadline_at_die, State.modDie_die_same]
    · rw [State.cancelDeadline_at_die, State.modDie_die_ne _ _ he]
  case notZero =>
    intro s d h
    rw [exec_spZeroFillDone, execSpZeroFillDone, if_pos h]
  case lanesTimeout =>
    intro s d f hst hdue
    obtain ⟨hd, hne⟩ := s.modDie_die d fun x => x.fail s.now (x.stepCause f)
    exact ⟨_, exec_spStepTimeout_due f (n := 2000) (by rw [hst]; rfl) hdue, by rw [hd, Spindle.stepCause, hst], hne⟩
  case timeout =>
    intro s d f h
    obtain ⟨hd, hne⟩ := s.modDie_die d fun x => x.fail s.now (x.stepCause f)
    rcases h with ⟨hst, hdue⟩ | ⟨hst, hdue⟩ | ⟨hst, hdue⟩
    all_goals exact ⟨_, exec_spStepTimeout_due f (by rw [hst]; rfl) hdue, by rw [hd, Spindle.stepCause, hst]; rfl, hne⟩
  case backoff =>
    intro s d hst hl hmay hon hdue hf
    refine ⟨_, exec_spBackoffExpiry_due hst hl hmay hon hdue, ?_⟩
    rw [if_neg (by omega)]
    exact s.modDie_die d _
  case absent =>
    intro s d hst hl hmay hon hdue hf
    refine ⟨_, exec_spBackoffExpiry_due hst hl hmay hon hdue, ?_⟩
    rw [if_pos hf]
    exact ⟨by rw [State.addDeadline_at_die, State.modDie_die_same],
      fun e he => by rw [State.addDeadline_at_die, State.modDie_die_ne _ _ he]⟩
  case retry =>
    intro s d hst hmay hon hdead
    refine ⟨_, exec_spAbsentRetry_due hst hmay hon hdead, ?_, ?_, fun e he => ?_⟩
    · rw [State.modDie_die_same, State.addDeadline_at_die, State.cancelDeadline_at_die]
    · rw [State.modDie_hearth, State.addDeadline_deadlines (by rw [State.cancelDeadline, hdead]; rfl)]
      rfl
    · rw [State.modDie_die_ne _ _ he, State.addDeadline_at_die, State.cancelDeadline_at_die]

end Sys2Proof.Machine

/-! ## The state right after reset (O4; 03 R58; 21 R567) -/

namespace Sys2Proof.Machine

/-- Settles O4: the tables of `State.reset` list nothing, so every unit reads its own reset value. -/
theorem resetState : Obligations.ResetState :=
  ⟨rfl, rfl, rfl, rfl, rfl, rfl, rfl, rfl, rfl, rfl, rfl, fun _ => rfl, fun _ _ => rfl, fun _ _ _ => rfl, fun _ => ⟨rfl, rfl⟩⟩

end Sys2Proof.Machine

/-! ## States of a switched domain (03 R72–R76)

What the operations of a gate and of a wake make of the domain they name, and what they leave of the other domains and of the hearth. -/

namespace Sys2Proof.Machine

theorem State.domainOn_iff (s : State) (n : Nat) : s.domainOn n = true ↔ (s.domain n).state = .on := by
  simp [State.domainOn]

theorem PdDomain.gating_iff (d : PdDomain) : d.gating = true ↔ d.state = .closing ∨ d.state = .draining ∨ d.state = .saving := by
  simp [PdDomain.gating, or_assoc]

theorem State.domainOn_of_off {s : State} {n : Nat} (h : (s.domain n).state = .off) : s.domainOn n = false := by
  simp [State.domainOn, h]

theorem State.domainOn_of_gating {s : State} {n : Nat} (h : (s.domain n).gating = true) : s.domainOn n = false := by
  rw [← Bool.not_eq_true, State.domainOn_iff]
  rcases (PdDomain.gating_iff _).mp h with h | h | h <;> simp [h]

theorem PdDomain.gating_of_off {d : PdDomain} (h : d.state = .off) : d.gating = false := by
  simp [PdDomain.gating, h]

/-- An abandoned gate leaves its domain ON, counted, with its idle time restarted (03 R73). -/
theorem State.abortGate_domain_gating {s : State} {n : Nat} (h : (s.domain n).gating = true) : (s.abortGate n).domain n =
    { s.domain n with state := .on, gateAborts := (s.domain n).gateAborts + 1, idleSince := s.now } := by
  rw [State.abortGate, State.modDomain_domain_same, if_pos h]

theorem State.abortGate_domain_idle {s : State} {n : Nat} (h : (s.domain n).gating = false) : (s.abortGate n).domain n = s.domain n := by
  rw [State.abortGate, State.modDomain_domain_same, if_neg (by simp [h])]

theorem State.abortGate_domain_ne (s : State) {m n : Nat} (h : m ≠ n) : (s.abortGate n).domain m = s.domain m :=
  State.modDomain_domain_ne _ _ h

/-! ### One domain wakes -/

/-- What its wake makes of a domain (03 R71, R73, R75). -/
def PdDomain.woken (now : BitVec 64) (d : PdDomain) : PdDomain :=
  if d.gating then { d with state := .on, gateAborts := d.gateAborts + 1, idleSince := now }
  else { d with state := if d.state = .off then .waking else d.state, idleSince := now }

theorem PdDomain.woken_idle {d : PdDomain} (h : d.gating = false) (now : BitVec 64) :
    d.woken now = { d with state := if d.state = .off then .waking else d.state, idleSince := now } :=
  if_neg (by simp [h])

theorem PdDomain.woken_off {d : PdDomain} (h : d.state = .off) (now : BitVec 64) :
    d.woken now = { d with state := .waking, idleSince := now } := by
  rw [PdDomain.woken_idle (PdDomain.gating_of_off h), if_pos h]

theorem PdDomain.woken_gating {d : PdDomain} (h : d.gating = true) (now : BitVec 64) :
    d.woken now = { d with state := .on, gateAborts := d.gateAborts + 1, idleSince := now } :=
  if_pos h

theorem State.wakeOne_domain_same {s : State} {n : Nat} (hp : s.domainPresent n = true) :
    (s.wakeOne n).domain n = (s.domain n).woken s.now := by
  rw [State.wakeOne, if_neg (by simp [hp]), State.modDomain_domain_same]
  cases h : (s.domain n).gating with
  | false => rw [State.abortGate_domain_idle h, PdDomain.woken_idle h]
  | true =>
    rw [State.abortGate_domain_gating h, PdDomain.woken_gating h]
    rfl

theorem State.wakeOne_domain_ne (s : State) {m n : Nat} (h : m ≠ n) : (s.wakeOne n).domain m = s.domain m := by
  rw [State.wakeOne]
  split
  · rfl
  · rw [State.modDomain_domain_ne _ _ h, State.abortGate_domain_ne _ h]

/-- What does not look at the table of domains is as it was before a domain woke. -/
theorem State.wakeOne_blind {α : Type} {g : State → α} (h : ∀ s v, g { s with hearth := { s.hearth with domains := v } } = g s)
    (s : State) (n : Nat) : g (s.wakeOne n) = g s := by
  rw [State.wakeOne]
  split
  · rfl
  · exact (h _ _).trans (h _ _)

theorem State.wakeAll_blind {α : Type} {g : State → α} (h : ∀ s v, g { s with hearth := { s.hearth with domains := v } } = g s)
    (l : List Nat) (s : State) : g (l.foldl State.wakeOne s) = g s := by
  induction l generalizing s with
  | nil => rfl
  | cons n l ih => rw [List.foldl_cons, ih, State.wakeOne_blind h]

theorem State.wakeAll_domain_notMem {l : List Nat} {m : Nat} (h : m ∉ l) (s : State) :
    (l.foldl State.wakeOne s).domain m = s.domain m := by
  induction l generalizing s with
  | nil => rfl
  | cons n l ih =>
    obtain ⟨hn, hl⟩ := not_or.mp (mt List.mem_cons.mpr h)
    rw [List.foldl_cons, ih hl, State.wakeOne_domain_ne s hn]

/-! ### A domain wakes with those it depends on (03 R75) -/

theorem notMem_domainDeps_self (n : Nat) : n ∉ domainDeps n := by
  unfold domainDeps
  split
  · simp
  · split <;> simp <;> omega

theorem State.wake_eq (s : State) (n : Nat) : s.wake n = ((domainDeps n).foldl State.wakeOne s).wakeOne n := by
  rw [State.wake, List.foldl_append]
  rfl

/-- What does not look at the table of domains is as it was before a domain and its dependencies woke. -/
theorem State.wake_blind {α : Type} {g : State → α} (h : ∀ s v, g { s with hearth := { s.hearth with domains := v } } = g s)
    (s : State) (n : Nat) : g (s.wake n) = g s :=
  State.wakeAll_blind h _ s

@[simp] theorem State.wake_bg (s : State) (n : Nat) : (s.wake n).bg = s.bg :=
  State.wake_blind (g := State.bg) (fun _ _ => rfl) s n
@[simp] theorem State.wake_deadlines (s : State) (n : Nat) : (s.wake n).hearth.deadlines = s.hearth.deadlines :=
  State.wake_blind (g := (·.hearth.deadlines)) (fun _ _ => rfl) s n
@[simp] theorem State.wake_porch (s : State) (n : Nat) : (s.wake n).hearth.porch = s.hearth.porch :=
  State.wake_blind (g := (·.hearth.porch)) (fun _ _ => rfl) s n
@[simp] theorem State.wake_withheld (s : State) (n : Nat) : (s.wake n).hearth.withheld = s.hearth.withheld :=
  State.wake_blind (g := (·.hearth.withheld)) (fun _ _ => rfl) s n

theorem State.wake_domain_ne (s : State) {m n : Nat} (hn : m ≠ n) (hd : m ∉ domainDeps n) : (s.wake n).domain m = s.domain m := by
  rw [State.wake_eq, State.wakeOne_domain_ne _ hn, State.wakeAll_domain_notMem hd]

section Wake

variable {s : State} {n : Nat} (hp : s.domainPresent n = true)

include hp

theorem State.wake_domain_same : (s.wake n).domain n = (s.domain n).woken s.now := by
  have hdomain := State.wakeAll_domain_notMem (notMem_domainDeps_self n) s
  have hnow := State.wakeAll_blind (g := State.now) (fun _ _ => rfl) (domainDeps n) s
  have hpresent := State.wakeAll_blind (g := (State.domainPresent · n)) (fun _ _ => rfl) (domainDeps n) s
  rw [State.wake_eq, State.wakeOne_domain_same (hpresent.trans hp), hdomain, hnow]

theorem State.wake_domain_off (h : (s.domain n).state = .off) :
    (s.wake n).domain n = { s.domain n with state := .waking, idleSince := s.now } := by
  rw [State.wake_domain_same hp, PdDomain.woken_off h]

theorem State.wake_domain_gating (h : (s.domain n).gating = true) : (s.wake n).domain n =
    { s.domain n with state := .on, gateAborts := (s.domain n).gateAborts + 1, idleSince := s.now } := by
  rw [State.wake_domain_same hp, PdDomain.woken_gating h]

end Wake

theorem State.wakeFor_on {s : State} {n : Nat} (h : s.domainOn n = true) : s.wakeFor n = s := if_pos h

theorem State.wakeFor_notOn {s : State} {n : Nat} (h : s.domainOn n = false) : s.wakeFor n = s.wake n :=
  if_neg (by simp [h])

end Sys2Proof.Machine

/-! ## The closing handshake of a domain (O18; 03 R69–R74; 18 R517) -/

namespace Sys2Proof.Machine

/-! ### The idle gate time has passed -/

/-- The supplies of a spindle domain's dies are cut before it closes; another domain has none (03 R69; 13 R390). -/
def State.groupOff (s : State) (n : Nat) : State :=
  if n = 11 ∨ n = 12 then (s.groupDies n).foldl (fun s d => s.modDie d (Spindle.powerOff s.now)) s else s

theorem State.groupOff_hearth (s : State) (n : Nat) : (s.groupOff n).hearth = s.hearth := by
  rw [State.groupOff]
  split
  · exact (Kept.foldl (fun s d => s.modDie_kept d _) _ s).rest .hearth rfl
  · rfl

theorem State.groupOff_domain (s : State) (n m : Nat) : (s.groupOff n).domain m = s.domain m :=
  congrArg (fun h : Hearth => tabGet h.domains .reset m) (s.groupOff_hearth n)

theorem State.groupOff_other (s : State) {n : Nat} (h1 : n ≠ 11) (h2 : n ≠ 12) : s.groupOff n = s :=
  if_neg (not_or.mpr ⟨h1, h2⟩)

theorem exec_idleGateExpiry_due {s : State} {n : Nat} (hp : s.domainPresent n = true) (hon : s.domainOn n = true)
    (hms : s.idleGateMs n ≠ 0) (hidle : s.idle n = true)
    (hdue : (s.domain n).idleSince.toNat + s.idleGateMs n * 1000 ≤ s.now.toNat)
    (hquiet : n = 11 ∨ n = 12 → (s.groupDies n).all s.dieQuiet = true) : exec (.idleGateExpiry n) s
      = .next ((s.groupOff n).modDomain n fun d => { d with state := .closing, stepSince := (s.groupOff n).now }) := by
  have hcond : ¬ (¬ s.domainPresent n ∨ ¬ s.domainOn n ∨ s.idleGateMs n = 0 ∨ ¬ s.idle n ∨
      s.now.toNat < (s.domain n).idleSince.toNat + s.idleGateMs n * 1000 ∨
      ((n = 11 ∨ n = 12) ∧ ¬ (s.groupDies n).all s.dieQuiet)) := by
    rintro (h | h | h | h | h | ⟨hn, h⟩)
    · exact h hp
    · exact h hon
    · exact hms h
    · exact h hidle
    · exact absurd hdue (Nat.not_le.mpr h)
    · exact h (hquiet hn)
  rw [exec_idleGateExpiry, execIdleGateExpiry, if_neg hcond]
  rfl

theorem exec_idleGateExpiry_notDue {s : State} {n : Nat} (h : s.idleGateMs n = 0 ∨ s.idle n = false ∨
    s.now.toNat < (s.domain n).idleSince.toNat + s.idleGateMs n * 1000) : exec (.idleGateExpiry n) s = .next s := by
  rw [exec_idleGateExpiry, execIdleGateExpiry, if_pos]
  rcases h with h | h | h <;> simp [h]

/-- While a request of a die of its group is outstanding a spindle domain does not close (13 R390). -/
theorem exec_idleGateExpiry_dieBusy {s : State} {n : Nat} (hn : n = 11 ∨ n = 12) (h : (s.groupDies n).all s.dieQuiet = false) :
    exec (.idleGateExpiry n) s = .next s := by
  rw [exec_idleGateExpiry, execIdleGateExpiry, if_pos]
  exact .inr (.inr (.inr (.inr (.inr ⟨hn, by simp [h]⟩))))

/-! ### The steps of the handshake -/

theorem exec_gateDrainDone_drains {s : State} {n : Nat} (h : (s.domain n).state = .closing ∨ (s.domain n).state = .draining) :
    ∃ t, exec (.gateDrainDone n) s = .next t ∧ t.domain n = { s.domain n with state := .saving, stepSince := s.now } ∧
      ∀ m, m ≠ n → t.domain m = s.domain m := by
  refine ⟨_, rfl, ?_, fun m hm => State.modDomain_domain_ne _ _ hm⟩
  rw [State.modDomain_domain_same, if_pos h]

theorem exec_gateDrainTimeout_due {s : State} {n : Nat} (h : (s.domain n).state = .draining)
    (hdue : (s.domain n).stepSince.toNat + 2000 ≤ s.now.toNat) : exec (.gateDrainTimeout n) s = .next (s.abortGate n) := by
  rw [exec_gateDrainTimeout, execGateDrainTimeout]
  exact congrArg _ (if_pos ⟨h, hdue⟩)

/-- The domain's power switch opens. -/
def State.switchOff (s : State) (n : Nat) : State := s.modDomain n fun d => { d with state := .off, stepSince := s.now }

theorem State.switchOff_domain (s : State) (n : Nat) :
    (s.switchOff n).domain n = { s.domain n with state := .off, stepSince := s.now } :=
  State.modDomain_domain_same ..

/-- What switches off besides: with PD7 the Headstock's caches are lost (03 R74), with PD8 a deadline stands for the scrub floor (18 R517). -/
theorem exec_gateSaveDone_saved {s : State} {n : Nat} (h : (s.domain n).state = .saving) : exec (.gateSaveDone n) s =
    if n = 7 then .next { s.switchOff 7 with
      hearth := { (s.switchOff 7).hearth with refilling := false }
      headstock := { s.headstock with cache := [], walkCache := [] } }
    else if n = 8 then .next (((s.switchOff 8).cancelDeadline .scrubFloor).addDeadline .scrubFloor s.floorTime)
    else .next (s.switchOff n) := by
  rw [exec_gateSaveDone, execGateSaveDone, if_neg (not_not.mpr h)]
  split
  · next h7 => subst h7; rfl
  · split
    · next h8 => subst h8; rfl
    · rfl

theorem State.cancelDeadline_notMem {s : State} {k : DeadlineKind} {d : Deadline} (h : d ∈ (s.cancelDeadline k).hearth.deadlines) :
    d.kind ≠ k := by
  simpa using (List.mem_filter.mp h).2

theorem State.cancelDeadline_length_le (s : State) (k : DeadlineKind) :
    (s.cancelDeadline k).hearth.deadlines.length ≤ s.hearth.deadlines.length :=
  List.length_filter_le _ _

theorem State.addDeadline_room {s : State} (h : s.hearth.deadlines.length < 1024) (k : DeadlineKind) (v : BitVec 64) :
    s.addDeadline k v = { s with hearth := { s.hearth with deadlines := s.hearth.deadlines ++ [⟨k, v⟩] } } :=
  if_pos h

/-- Settles O18, command by command. -/
theorem gateHandshake : Obligations.GateHandshake := by
  refine ⟨?closes, fun s n h => exec_idleGateExpiry_notDue h, fun s n hn h => exec_idleGateExpiry_dieBusy hn h,
    fun s n h => exec_gateDrainDone_drains h, ?timeout, ?saved, ?floor⟩
  case closes =>
    intro s n hp hon hms hidle hdue hquiet
    have hdom : ((s.groupOff n).modDomain n fun d => { d with state := .closing, stepSince := (s.groupOff n).now }).domain n
        = { s.domain n with state := .closing, stepSince := s.now } := by
      rw [State.modDomain_domain_same, State.groupOff_domain, State.now, State.groupOff_hearth]
      rfl
    refine ⟨_, exec_idleGateExpiry_due hp hon hms hidle hdue hquiet, congrArg PdDomain.state hdom, congrArg PdDomain.stepSince hdom,
      fun h1 h2 => by rw [State.modDomain_spindles, s.groupOff_other h1 h2], fun m hm => ?_⟩
    rw [State.modDomain_domain_ne _ _ hm, State.groupOff_domain]
  case timeout =>
    intro s n h hdue
    have hgating : (s.domain n).gating = true := (PdDomain.gating_iff _).mpr (.inr (.inl h))
    exact ⟨_, exec_gateDrainTimeout_due h hdue, State.abortGate_domain_gating hgating, fun m hm => s.abortGate_domain_ne hm⟩
  case saved =>
    intro s n h h8
    rw [exec_gateSaveDone_saved h, if_neg h8]
    by_cases h7 : n = 7
    · subst h7
      exact ⟨_, rfl, s.switchOff_domain 7, fun _ => ⟨rfl, rfl, rfl, rfl⟩, fun hne => absurd rfl hne⟩
    · rw [if_neg h7]
      exact ⟨_, rfl, s.switchOff_domain n, fun h => absurd h h7, fun _ => rfl⟩
  case floor =>
    intro s h hroom
    have hlen : ((s.switchOff 8).cancelDeadline .scrubFloor).hearth.deadlines.length < 1024 :=
      Nat.lt_of_le_of_lt (State.cancelDeadline_length_le _ _) hroom
    refine ⟨_, exec_gateSaveDone_saved h, ?_⟩
    rw [State.addDeadline_room hlen]
    exact ⟨congrArg PdDomain.state (s.switchOff_domain 8), List.getLast?_concat⟩

end Sys2Proof.Machine

/-! ## Waking by register and by deadline (O19; 03 R65, R71, R75; 18 R517; 21 R571) -/

namespace Sys2Proof.Machine

/-! ### PD_WAKE -/

/-- PD_WAKE wakes the present domains of the bits set, in rising order. -/
theorem State.putPdWake_eq (s : State) (v : BitVec 32) : s.putPdWake v =
    ((List.range 12).filter fun i => v.getLsbD (i + 1)).foldl (fun s i => if s.domainPresent (i + 1) then s.wake (i + 1) else s) s := by
  simp only [State.putPdWake, List.foldl_filter, ite_and]

/-- The only bit of PD_WAKE set in `1 <<< n` is that of PDn. -/
theorem pdWake_bits_single {n : Nat} (h1 : 1 ≤ n) (h2 : n ≤ 12) :
    (List.range 12).filter (fun i => (1#32 <<< n).getLsbD (i + 1)) = [n - 1] := by
  interval_cases n <;> rfl

theorem State.putPdWake_single {s : State} {n : Nat} (h1 : 1 ≤ n) (h2 : n ≤ 12) (hp : s.domainPresent n = true) :
    s.putPdWake (1#32 <<< n) = s.wake n := by
  rw [State.putPdWake_eq, pdWake_bits_single h1 h2, List.foldl_cons, List.foldl_nil, Nat.sub_add_cancel h1, if_pos hp]

theorem exec_pdWake_served {s : State} (hdec : s.decodes s.mgmtFn.1 s.mgmtFn.2 = true) (ha : (s.bench 0).detached = false)
    (v : BitVec 32) : exec (.pdWake v) s = .next (s.unstageHub.putPdWake v) := by
  rw [exec_pdWake, execPdWake, State.fromMgmt_served hdec ha]

/-! ### A general deadline -/

/-- The state in which a deadline has left the timer unit, before its domain wakes: the scrub is in floor mode for the scrub floor's (18 R517), and the hub seeks after the master's silence (16 Table 3). -/
def State.deadlineFired (s : State) (i : Nat) (k : DeadlineKind) : State :=
  let s := { s with hearth := { s.hearth with deadlines := s.hearth.deadlines.eraseIdx i } }
  if k = .scrubFloor then { s with bg := { s.bg with floor := true } }
  else if k = .masterSilence ∧ s.following ∧ s.cascade.state ≠ .master then s.setRole .seeking else s

theorem exec_hearthDeadline_due {s : State} {i : Nat} {d : Deadline} (hd : s.hearth.deadlines[i]? = some d)
    (hdue : d.time.toNat ≤ s.now.toNat) : exec (.hearthDeadline i) s = .next ((s.deadlineFired i d.kind).wakeFor d.kind.domain) := by
  simp only [exec_hearthDeadline, execHearthDeadline, hd, if_neg (Nat.not_lt.mpr hdue)]
  rfl

theorem exec_hearthDeadline_early {s : State} {i : Nat} {d : Deadline} (hd : s.hearth.deadlines[i]? = some d)
    (h : s.now.toNat < d.time.toNat) : exec (.hearthDeadline i) s = .next s := by
  simp only [exec_hearthDeadline, execHearthDeadline, hd, if_pos h]

/-- What looks neither at the deadlines, the rate, the background's floor mode nor the cascade is as it was before a deadline passed. -/
theorem State.deadlineFired_blind {α : Type} {g : State → α}
    (hdead : ∀ s l r, g { s with hearth := { s.hearth with deadlines := l, rateAdj := r } } = g s)
    (hbg : ∀ s v, g { s with bg := v } = g s) (hcascade : ∀ s v, g { s with cascade := v } = g s) (s : State) (i : Nat) (k : DeadlineKind) :
    g (s.deadlineFired i k) = g s := by
  rw [State.deadlineFired]
  have hplain := hdead s (s.hearth.deadlines.eraseIdx i) s.hearth.rateAdj
  split
  · exact (hbg _ _).trans hplain
  · split
    · exact (hcascade _ _).trans (hdead s _ _)
    · exact hplain

theorem State.deadlineFired_domain (s : State) (i : Nat) (k : DeadlineKind) (n : Nat) : (s.deadlineFired i k).domain n = s.domain n :=
  State.deadlineFired_blind (g := (State.domain · n)) (fun _ _ _ => rfl) (fun _ _ => rfl) (fun _ _ => rfl) s i k
theorem State.deadlineFired_now (s : State) (i : Nat) (k : DeadlineKind) : (s.deadlineFired i k).now = s.now :=
  State.deadlineFired_blind (g := State.now) (fun _ _ _ => rfl) (fun _ _ => rfl) (fun _ _ => rfl) s i k
theorem State.deadlineFired_domainPresent (s : State) (i : Nat) (k : DeadlineKind) (n : Nat) :
    (s.deadlineFired i k).domainPresent n = s.domainPresent n :=
  State.deadlineFired_blind (g := (State.domainPresent · n)) (fun _ _ _ => rfl) (fun _ _ => rfl) (fun _ _ => rfl) s i k
theorem State.deadlineFired_domainOn (s : State) (i : Nat) (k : DeadlineKind) (n : Nat) :
    (s.deadlineFired i k).domainOn n = s.domainOn n :=
  State.deadlineFired_blind (g := (State.domainOn · n)) (fun _ _ _ => rfl) (fun _ _ => rfl) (fun _ _ => rfl) s i k

theorem State.deadlineFired_deadlines (s : State) (i : Nat) (k : DeadlineKind) :
    (s.deadlineFired i k).hearth.deadlines = s.hearth.deadlines.eraseIdx i := by
  rw [State.deadlineFired]
  split
  · rfl
  · split <;> rfl

theorem State.deadlineFired_bg (s : State) (i : Nat) (k : DeadlineKind) :
    (s.deadlineFired i k).bg = { s.bg with floor := s.bg.floor || k == .scrubFloor } := by
  rw [State.deadlineFired]
  split
  · next h => simp [h]
  · next h =>
    have hk : (k == .scrubFloor) = false := beq_eq_false_iff_ne.mpr h
    rw [hk, Bool.or_false]
    split <;> rfl

theorem State.deadlineFired_plain {k : DeadlineKind} (hf : k ≠ .scrubFloor) (hm : k ≠ .masterSilence) (s : State) (i : Nat) :
    s.deadlineFired i k = { s with hearth := { s.hearth with deadlines := s.hearth.deadlines.eraseIdx i } } := by
  simp [State.deadlineFired, hf, hm]

/-! ### The scrub floor line -/

theorem exec_scrubFloorDeadline_due {s : State} (hrun : s.running = true) (hoff : (s.domain 8).state = .off)
    (hdue : s.floorTime.toNat ≤ s.now.toNat) : exec .scrubFloorDeadline s
      = .next ((({ s with bg := { s.bg with floor := true } }).cancelDeadline .scrubFloor).wake 8) := by
  rw [exec_scrubFloorDeadline, execScrubFloorDeadline, if_neg (by simp [hrun, State.domainOff, hoff, hdue])]

/-- PD8 is a domain of either grade. -/
theorem State.domainPresent_eight (s : State) : s.domainPresent 8 = true := by
  simp [State.domainPresent]

/-! ### A woken domain reports ON (03 R74–R76, R79) -/

/-- The state in which a woken domain reports ON, before its porch entries are replayed. -/
def State.reportedOn (s : State) (n : Nat) : State :=
  let s := s.modDomain n fun d => { d with state := .on, idleSince := s.now }
  let s := if n = 7 then { s with hearth := { s.hearth with refilling := !s.headstock.pins.isEmpty } } else s
  if n = 8 then s.cancelDeadline .scrubFloor else s

/-- What does not look at the domain's own entry, the refill and the deadlines is as it was before the domain reported ON. -/
theorem State.reportedOn_blind {α : Type} {g : State → α} {n : Nat}
    (h : ∀ s l r, g { s with hearth := { s.hearth with deadlines := l, refilling := r } } = g s) (s : State) :
    g (s.reportedOn n) = g (s.modDomain n fun d => { d with state := .on, idleSince := s.now }) := by
  have hcancel : ∀ u : State, g (if n = 8 then u.cancelDeadline .scrubFloor else u) = g u := by
    intro u
    split
    · exact h u _ u.hearth.refilling
    · rfl
  rw [State.reportedOn, hcancel]
  split
  · exact h _ (State.modDomain ..).hearth.deadlines _
  · rfl

theorem State.reportedOn_domain (s : State) (n : Nat) : (s.reportedOn n).domain n = { s.domain n with state := .on, idleSince := s.now } :=
  (State.reportedOn_blind (g := (State.domain · n)) (fun _ _ _ => rfl) s).trans (State.modDomain_domain_same ..)
theorem State.reportedOn_time (s : State) (n : Nat) : (s.reportedOn n).hearth.time = s.hearth.time :=
  State.reportedOn_blind (g := (·.hearth.time)) (fun _ _ _ => rfl) s
theorem State.reportedOn_porch (s : State) (n : Nat) : (s.reportedOn n).hearth.porch = s.hearth.porch :=
  State.reportedOn_blind (g := (·.hearth.porch)) (fun _ _ _ => rfl) s
theorem State.reportedOn_withheld (s : State) (n : Nat) : (s.reportedOn n).hearth.withheld = s.hearth.withheld :=
  State.reportedOn_blind (g := (·.hearth.withheld)) (fun _ _ _ => rfl) s

/-- Internal requests ask for the waking alone: served, they change nothing. -/
theorem State.serve_internal (l : List PorchEntry) (h : ∀ e ∈ l, e.request = .internal) (s : State) :
    l.foldl (fun (s : State) e => s.serve e.request) s = s :=
  List.foldlRecOn (motive := (· = s)) l _ rfl fun t ht e he => by rw [ht, h e he]; rfl

theorem State.withheld_none {s : State} (h : s.hearth.withheld = []) : { s with hearth := { s.hearth with withheld := [] } } = s := by
  rw [← h]

/-- The replay of a porch that holds internal requests of the domain alone empties it. -/
theorem State.replay_internal {s : State} {n : Nat} (hporch : ∀ e ∈ s.hearth.porch, e.domain = n ∧ e.request = .internal)
    (hheld : s.hearth.withheld = []) : s.replay n = s.setPorch [] := by
  have hmine : s.hearth.porch.filter (fun e => e.domain == n) = s.hearth.porch :=
    List.filter_eq_self.mpr fun e he => by simp [(hporch e he).1]
  have hothers : s.hearth.porch.filter (fun e => !(e.domain == n)) = [] :=
    List.filter_eq_nil_iff.mpr fun e he => by simp [(hporch e he).1]
  have hset : (s.setPorch []).hearth.withheld = [] := hheld
  simp only [State.replay, hmine, hothers, hheld, hset, List.filter_nil, List.append_nil,
    State.serve_internal _ fun e he => (hporch e he).2, State.admitWithheld]
  exact State.withheld_none hset

/-- Once the domains it depends on are ON a woken domain reports ON and replays its porch; after PD9 the engines take their jobs. -/
theorem exec_domainWakeDone_ready {s : State} {n : Nat} (hw : (s.domain n).state = .waking) (hdeps : s.depsOn n = true) :
    exec (.domainWakeDone n) s = .next (if n = 9 then (((s.reportedOn n).replay n).nextJob false).nextJob true
      else (s.reportedOn n).replay n) := by
  rw [exec_domainWakeDone, execDomainWakeDone, if_neg (by simp [hw, hdeps])]
  rfl

/-- The engines' next jobs leave the hearth. -/
theorem State.nextJobs_hearth (s : State) : ((s.nextJob false).nextJob true).hearth = s.hearth :=
  ((State.nextJob_kept _ true).rest .hearth rfl).trans ((s.nextJob_kept false).rest .hearth rfl)

/-- With nothing in the porch but internal requests of the domain, a waking domain reports ON and the porch is empty. -/
theorem exec_domainWakeDone_internal {s : State} {n : Nat} (hw : (s.domain n).state = .waking) (hdeps : s.depsOn n = true)
    (hporch : ∀ e ∈ s.hearth.porch, e.domain = n ∧ e.request = .internal) (hheld : s.hearth.withheld = []) :
    ∃ t, exec (.domainWakeDone n) s = .next t ∧ t.domain n = { s.domain n with state := .on, idleSince := s.now } ∧
      t.hearth.porch = [] ∧ t.hearth.time = s.hearth.time := by
  obtain ⟨t, hexec, ht⟩ : ∃ t, exec (.domainWakeDone n) s = .next t ∧ t.hearth = ((s.reportedOn n).setPorch []).hearth := by
    refine ⟨_, exec_domainWakeDone_ready hw hdeps, ?_⟩
    rw [State.replay_internal (by rwa [State.reportedOn_porch]) (by rw [State.reportedOn_withheld, hheld])]
    split
    · rw [State.nextJobs_hearth]
    · rfl
  have hdom : t.domain n = ((s.reportedOn n).setPorch []).domain n := congrArg (fun h : Hearth => tabGet h.domains .reset n) ht
  have htime : t.hearth.time = ((s.reportedOn n).setPorch []).hearth.time := congrArg Hearth.time ht
  exact ⟨t, hexec, hdom.trans (s.reportedOn_domain n), congrArg Hearth.porch ht, htime.trans (s.reportedOn_time n)⟩

/-! ### The pins after a gate of PD7 (03 R74) -/

theorem exec_pd7RefillDone_refills {s : State} (h : s.hearth.refilling = true) : exec .pd7RefillDone s
    = .next { s.headstock.pins.foldl State.refillPin s with
        hearth := { (s.headstock.pins.foldl State.refillPin s).hearth with refilling := false } } := by
  rw [exec_pd7RefillDone, execPd7RefillDone, if_neg (by simp [h])]

theorem State.refillPins_hearth (s : State) (l : List CacheEntry) : (l.foldl State.refillPin s).hearth = s.hearth :=
  (Kept.foldl State.refillPin_kept l s).rest .hearth rfl

theorem State.refillPin_cached {s : State} {p : CacheEntry} (h : s.headstock.cache.any p.same = true) : s.refillPin p = s :=
  if_pos h

theorem State.refillPins_cached {s : State} {l : List CacheEntry} (h : ∀ p ∈ l, s.headstock.cache.any p.same = true) :
    l.foldl State.refillPin s = s :=
  List.foldlRecOn (motive := (· = s)) l _ rfl fun t ht p hp => by rw [ht, State.refillPin_cached (h p hp)]

/-! ### Requests to a domain through the porch (03 R78, R80) -/

theorem State.porchAdd_fits {s : State} {e : PorchEntry} (hheld : s.hearth.withheld = [])
    (h : s.porchFits (s.hearth.porch ++ [e]) = true) : s.porchAdd e = (true, s.setPorch (s.hearth.porch ++ [e])) := by
  rw [State.porchAdd, if_pos ⟨by simp [hheld], h⟩]

theorem State.porchAdd_full {s : State} {e : PorchEntry} (h : s.porchFits (s.hearth.porch ++ [e]) = false) :
    s.porchAdd e = (false, { s with hearth := { s.hearth with withheld := s.hearth.withheld ++ [e] } }) := by
  rw [State.porchAdd, if_neg (by simp [h])]

theorem State.atDomain_on {s : State} {e : PorchEntry} (h : s.domainOn e.domain = true) (f : State → State) : s.atDomain e f = f s :=
  if_pos h

/-- A request to a domain that is off waits in the porch, or outside it, and in the porch wakes the domain. -/
theorem State.atDomain_off {s : State} {e : PorchEntry} (h : (s.domain e.domain).state = .off) (f : State → State) :
    s.atDomain e f = if (s.porchAdd e).1 then (s.porchAdd e).2.wake e.domain else (s.porchAdd e).2 := by
  rw [State.atDomain, if_neg (by simp [State.domainOn_of_off h]), if_neg (by simp [PdDomain.gating_of_off h])]
  rcases s.porchAdd e with ⟨_ | _, u⟩ <;> rfl

/-- An internal request for a present domain arrives at it, and has no effect of its own. -/
theorem exec_porchEnqueue_internal {s : State} {n : Nat} (hrun : s.running = true) (h0 : n ≠ 0) (hp : s.domainPresent n = true)
    (src : PorchSource) (k : Nat) :
    exec (.porchEnqueue src n k .internal) s = .next (s.atDomain ⟨src, n, max 1 k, .internal⟩ fun s => s) := by
  rw [exec_porchEnqueue, execPorchEnqueue, if_pos hrun, State.route]
  simp only [State.requestDomain, if_neg h0, hp, not_true_eq_false, if_false]
  rfl

/-- Settles O19, command by command. -/
theorem wakingAndDeadlines : Obligations.WakingAndDeadlines := by
  refine ⟨fun s v hdec ha => exec_pdWake_served hdec ha v, ?pdWake, ?plain, ?off, ?gating, fun s i d hd h => exec_hearthDeadline_early hd h,
    ?floor, ?emptyPorch, ?oneInternal, ?refill, ?cached, ?joins, ?withheld, ?on⟩
  case pdWake =>
    intro s n h1 h2 hdec ha hp hoff
    refine ⟨s.unstageHub.wake n, ?_, ?_⟩
    · rw [exec_pdWake_served hdec ha, State.putPdWake_single (s := s.unstageHub) h1 h2 hp]
    · have hdom : (s.unstageHub.wake n).domain n = { s.domain n with state := .waking, idleSince := s.now } :=
        State.wake_domain_off (s := s.unstageHub) hp hoff
      exact ⟨congrArg PdDomain.state hdom, congrArg PdDomain.idleSince hdom, fun m hm hd => State.wake_domain_ne _ hm hd⟩
  case plain =>
    intro s i d hd hdue hon hf hm
    rw [exec_hearthDeadline_due hd hdue, State.wakeFor_on (by rw [State.deadlineFired_domainOn, hon]), State.deadlineFired_plain hf hm]
  case off =>
    intro s i d hd hdue hoff hp
    refine ⟨_, exec_hearthDeadline_due hd hdue, ?_⟩
    rw [State.wakeFor_notOn (by rw [State.deadlineFired_domainOn, State.domainOn_of_off hoff]), State.wake_deadlines, State.wake_bg,
      State.wake_domain_off (by rw [State.deadlineFired_domainPresent, hp]) (by rw [State.deadlineFired_domain, hoff])]
    exact ⟨s.deadlineFired_deadlines i d.kind, rfl, s.deadlineFired_bg i d.kind⟩
  case gating =>
    intro s i d hd hdue hgating hp
    refine ⟨_, exec_hearthDeadline_due hd hdue, ?_⟩
    rw [State.wakeFor_notOn (by rw [State.deadlineFired_domainOn, State.domainOn_of_gating hgating]),
      State.wake_domain_gating (by rw [State.deadlineFired_domainPresent, hp]) (by rw [State.deadlineFired_domain, hgating]),
      State.deadlineFired_domain, State.deadlineFired_now]
  case floor =>
    intro s hrun hoff hdue
    refine ⟨_, exec_scrubFloorDeadline_due hrun hoff hdue, State.wake_bg .., ?_, fun d hd => ?_⟩
    · refine congrArg PdDomain.state (State.wake_domain_off (State.domainPresent_eight _) ?_)
      exact hoff
    · rw [State.wake_deadlines] at hd
      exact State.cancelDeadline_notMem hd
  case emptyPorch =>
    intro s n hw hdeps hporch hheld
    exact exec_domainWakeDone_internal hw hdeps (by simp [hporch]) hheld
  case oneInternal =>
    intro s src n k _ hw hdeps hporch hheld
    obtain ⟨t, hexec, hdom, hempty, -⟩ := exec_domainWakeDone_internal hw hdeps (by simp [hporch]) hheld
    exact ⟨t, hexec, congrArg PdDomain.state hdom, hempty⟩
  case refill =>
    intro s h
    have hhearth := s.refillPins_hearth s.headstock.pins
    exact ⟨_, exec_pd7RefillDone_refills h, rfl, by rw [hhearth]⟩
  case cached =>
    intro s h hall
    rw [exec_pd7RefillDone_refills h, State.refillPins_cached hall]
  case joins =>
    intro s src n k hrun h0 hp hoff hheld hfits
    refine ⟨_, exec_porchEnqueue_internal hrun h0 hp src k, ?_⟩
    rw [State.atDomain_off hoff, State.porchAdd_fits hheld hfits, if_pos rfl]
    exact ⟨State.wake_porch .., (State.wake_withheld ..).trans hheld,
      congrArg PdDomain.state (State.wake_domain_off (s := s.setPorch _) hp hoff)⟩
  case withheld =>
    intro s src n k hrun h0 hp hoff hheld hfull
    rw [exec_porchEnqueue_internal hrun h0 hp, State.atDomain_off hoff, State.porchAdd_full hfull, if_neg Bool.false_ne_true, hheld]
    rfl
  case on =>
    intro s n k hrun h0 hp hon
    rw [exec_porchEnqueue_internal hrun h0 hp, State.atDomain_on hon]

end Sys2Proof.Machine

/-! ## The line of a port: what the queues of a port leave alone (O20–O22; 04 R87, R91, R105) -/

namespace Sys2Proof.Machine

/-- What training, resets and power states make of a port: all but its queue, its WAKE_N and the requests its invalidations await. -/
def Port.line (x : Port) : Port := { x with egress := [], wake := false, invalidates := [] }

/-- That of a port of the hub. -/
def State.line (s : State) (p : Nat) : Port := (s.port p).line

theorem State.modPort_line {f : Port → Port} (h : ∀ x, (f x).line = x.line) (s : State) (q p : Nat) :
    (s.modPort q f).line p = s.line p := by
  rw [State.line]
  by_cases hq : p = q
  · subst hq; rw [State.modPort_port_same, h]; rfl
  · rw [State.modPort_port_ne _ _ hq]; rfl

/-- An operation that changes no port. -/
theorem Kept.line {m : Nat} {s t : State} (h : Kept m s t) (hm : m.testBit 2 = false) (p : Nat) : t.line p = s.line p :=
  congrArg (fun x : Tab Port => (tabGet x .reset p).line) (h.rest .ports hm)

@[simp] theorem State.foldl_line {α : Type} {f : State → α → State} {p : Nat} (h : ∀ s x, (f s x).line p = s.line p) (l : List α) (s : State) :
    (l.foldl f s).line p = s.line p :=
  List.foldlRecOn (motive := fun t => t.line p = s.line p) l f rfl fun t ht x _ => (h t x).trans ht

@[simp] theorem State.ite_line {c : Prop} [Decidable c] (a b : State) (p : Nat) :
    (if c then a else b).line p = if c then a.line p else b.line p :=
  apply_ite (State.line · p) c a b

@[simp] theorem State.modBench_line (s : State) (b : Nat) (f : Bench → Bench) (p : Nat) : (s.modBench b f).line p = s.line p := rfl
@[simp] theorem State.modRing_line (s : State) (b r : Nat) (f : Ring → Ring) (p : Nat) : (s.modRing b r f).line p = s.line p := rfl
@[simp] theorem State.modDesc_line (s : State) (b r : Nat) (c : BitVec 32) (f : Desc → Desc) (p : Nat) :
    (s.modDesc b r c f).line p = s.line p := rfl
@[simp] theorem State.modLathe_line (s : State) (l : Nat) (f : Lathe → Lathe) (p : Nat) : (s.modLathe l f).line p = s.line p := rfl
@[simp] theorem State.endTally_line (s : State) (k b n p : Nat) : (s.endTally k b n).line p = s.line p := rfl

@[simp] theorem State.egress_line (s : State) (q f b size capped : Nat) (o : Out) (p : Nat) : (s.egress q f b size capped o).line p = s.line p :=
  State.modPort_line (by exact fun _ => rfl) s q p
@[simp] theorem State.egressData_line (s : State) (q f b size : Nat) (o : Out) (p : Nat) : (s.egressData q f b size o).line p = s.line p :=
  State.modPort_line (by exact fun _ => rfl) s q p
@[simp] theorem State.egressRead_line (s : State) (b : Nat) (w : TagOwner) (o : Out) (p : Nat) : (s.egressRead b w o).line p = s.line p :=
  State.modPort_line (by exact fun _ => rfl) s _ p
@[simp] theorem State.flushRead_line (s : State) (b : Nat) (w : TagOwner) (x : Bool) (a p : Nat) : (s.flushRead b w x a).line p = s.line p :=
  State.egressRead_line ..

@[simp] theorem State.wakeHost_line (s : State) (b p : Nat) : (s.wakeHost b).line p = s.line p := by
  rw [State.wakeHost, State.ite_line, State.modPort_line (by exact fun _ => rfl), ite_self]
@[simp] theorem State.notice_line (s : State) (b type cause ring : Nat) (x : BitVec 64) (y : BitVec 32) (subject p : Nat) :
    (s.notice b type cause ring x y subject).line p = s.line p := by
  simp [State.notice]

@[simp] theorem State.sendVector_line (s : State) (b v p : Nat) : (s.sendVector b v).line p = s.line p := by
  simp [State.sendVector]
@[simp] theorem State.fireVector_line (s : State) (b v p : Nat) : (s.fireVector b v).line p = s.line p := by
  simp [State.fireVector]
@[simp] theorem State.flushVector_line (s : State) (b v p : Nat) : (s.flushVector b v).line p = s.line p := by
  simp [State.flushVector]
@[simp] theorem State.flushVectors_line (s : State) (b p : Nat) : (s.flushVectors b).line p = s.line p := by
  simp [State.flushVectors]

@[simp] theorem State.traceTo_line (s : State) (o b r e : Nat) (c : BitVec 32) (x : BitVec 64) (y : BitVec 32) (p : Nat) :
    (s.traceTo o b r e c x y).line p = s.line p := by
  simp [State.traceTo]
@[simp] theorem State.trace_line (s : State) (b r e : Nat) (c : BitVec 32) (x : BitVec 64) (y : BitVec 32) (p : Nat) :
    (s.trace b r e c x y).line p = s.line p := by
  simp [State.trace]
@[simp] theorem State.traceRing_line (s : State) (b r e n p : Nat) : (s.traceRing b r e n).line p = s.line p :=
  State.trace_line ..
@[simp] theorem State.giveUp_line (s : State) (b r n p : Nat) : (s.giveUp b r n).line p = s.line p := by
  rw [State.giveUp]
  split <;> simp
@[simp] theorem State.parkRing_line (s : State) (b r : Nat) (c : ParkCause) (p : Nat) : (s.parkRing b r c).line p = s.line p := by
  simp [State.parkRing]
@[simp] theorem State.fetchPark_line (s : State) (b r p : Nat) : (s.fetchPark b r).line p = s.line p := by
  simp [State.fetchPark]
@[simp] theorem State.parkHost_line (s : State) (b r p : Nat) : (s.parkHost b r).line p = s.line p := by
  simp [State.parkHost, (State.stopRing_kept _ b r).line rfl]
@[simp] theorem State.unparkRing_line (s : State) (b r : Nat) (c : ParkCause) (p : Nat) : (s.unparkRing b r c).line p = s.line p := by
  simp [State.unparkRing]
@[simp] theorem State.resumeHost_line (s : State) (b p : Nat) : (s.resumeHost b).line p = s.line p := by
  simp [State.resumeHost]
@[simp] theorem State.settleFault_line (s : State) (b r p : Nat) : (s.settleFault b r).line p = s.line p := by
  rw [State.settleFault]
  split <;> simp
@[simp] theorem State.sendPri_line (s : State) (i p : Nat) : (s.sendPri i).line p = s.line p := by
  rw [State.sendPri]
  split
  · rfl
  · dsimp only
    split
    · rfl
    · split
      · rfl
      · exact State.egress_line ..

/-! Descriptors that go on -/

@[simp] theorem State.issueRead_line (s : State) (b r : Nat) (d : Desc) (u : Burst) (q : ReadPiece) (p : Nat) :
    (s.issueRead b r d u q).2.line p = s.line p := by
  rw [State.issueRead]
  split
  · rfl
  · dsimp only
    split
    · rfl
    · split
      · exact (State.askDie_kept ..).line rfl p
      · exact (State.sendHub_kept ..).line rfl p
      · exact State.egressRead_line ..
      · exact State.egressRead_line ..
      · rfl
@[simp] theorem State.issueReads_line (s : State) (b r : Nat) (d : Desc) (u : Burst) (l : List ReadPiece) (p : Nat) :
    (s.issueReads b r d u l).2.line p = s.line p := by
  induction l generalizing s with
  | nil => rfl
  | cons q l ih => exact (ih _).trans (State.issueRead_line ..)
@[simp] theorem State.issueWrite_line (s : State) (b r : Nat) (d : Desc) (u : Burst) (o : Nat) (x : Dest) (data : List (Byte × Bool))
    (p : Nat) : (s.issueWrite b r d u o x data).2.line p = s.line p := by
  cases x with
  | die di a => exact (State.askDie_kept ..).line rfl p
  | remote h di a => exact (State.sendHub_kept ..).line rfl p
  | host a => simp [State.issueWrite]
  | peer a => simp [State.issueWrite]
  | billet k => 
    simp [State.issueWrite]
    split <;> rfl
@[simp] theorem State.issueWrites_line (s : State) (b r : Nat) (d : Desc) (u : Burst) (l : List (Nat × Nat × Dest)) (p : Nat) :
    (s.issueWrites b r d u l).2.line p = s.line p := by
  induction l generalizing s with
  | nil => rfl
  | cons x l ih => exact (ih _).trans (State.issueWrite_line ..)
@[simp] theorem State.sendBurst_line (s : State) (b r : Nat) (d : Desc) (u : Burst) (p : Nat) :
    (s.sendBurst b r d u).2.line p = s.line p := by
  rw [State.sendBurst]
  split
  · exact State.issueWrites_line ..
  · split
    · rfl
    · split
      · rfl
      · exact State.issueWrite_line ..
@[simp] theorem State.writeBurst_line (s : State) (b r : Nat) (c : BitVec 32) (n p : Nat) : (s.writeBurst b r c n).line p = s.line p := by
  rw [State.writeBurst]
  split
  · rfl
  · split
    · rfl
    · simp
@[simp] theorem State.tryFlush_line (s : State) (b r : Nat) (c : BitVec 32) (p : Nat) : (s.tryFlush b r c).line p = s.line p := by
  rw [State.tryFlush]
  split
  · rfl
  · split
    · rfl
    · split
      · exact State.parkHost_line ..
      · split
        · rfl
        · exact State.flushRead_line ..
@[simp] theorem State.endDesc_line (s : State) (b r : Nat) (c : BitVec 32) (k dt o : Nat) (v : BitVec 64) (p : Nat) :
    (s.endDesc b r c k dt o v).line p = s.line p :=
  (State.endDesc_kept ..).line rfl p
@[simp] theorem State.advance_line (s : State) (b r : Nat) (c : BitVec 32) (p : Nat) : (s.advance b r c).line p = s.line p := by
  rw [State.advance]
  split
  · rfl
  · dsimp only
    split <;> simp
@[simp] theorem State.advanceRing_line (s : State) (b r p : Nat) : (s.advanceRing b r).line p = s.line p := by
  simp [State.advanceRing]
@[simp] theorem State.pumpBurst_line (s : State) (b r : Nat) (c : BitVec 32) (n p : Nat) : (s.pumpBurst b r c n).line p = s.line p := by
  rw [State.pumpBurst]
  split
  · rfl
  · split
    · rfl
    · simp
@[simp] theorem State.pumpLathe_line (s : State) (l p : Nat) : (s.pumpLathe l).line p = s.line p := by
  simp [State.pumpLathe, State.pumpOnce]
@[simp] theorem State.pumpRing_line (s : State) (b r p : Nat) : (s.pumpRing b r).line p = s.line p := by
  simp [State.pumpRing]

@[simp] theorem State.portLost_line (s : State) (m : Miss) (p : Nat) : (s.portLost m).line p = s.line p := by
  rw [State.portLost, State.foldl_line, (State.endMiss_kept s m).line rfl]
  intro s w
  split
  · simp
  · simp
  · split <;> rfl
  · rfl
@[simp] theorem State.sendAts_line (s : State) (m : Miss) (p : Nat) : (s.sendAts m).line p = s.line p := by
  rw [State.sendAts, State.ite_line, State.portLost_line, State.egressRead_line, (State.countPerf_kept ..).line rfl]
  exact ite_self _
@[simp] theorem State.pumpAts_line (s : State) (p : Nat) : s.pumpAts.line p = s.line p := by
  simp [State.pumpAts]
@[simp] theorem State.takeKnock_line (s : State) (b r p : Nat) : (s.takeKnock b r).line p = s.line p :=
  (State.takeKnock_kept ..).line rfl p
@[simp] theorem State.portBack_line (s : State) (b p : Nat) : (s.portBack b).line p = s.line p := by
  simp [State.portBack]

/-- A port whose invalidations await this slot no longer. -/
def Port.unbar (x : Port) (l : Nat) (w : Bool) (n : Nat) : Port :=
  { x with invalidates := x.invalidates.map fun q => { q with barrier := q.barrier.filter fun y => y != .slot l w n } }

theorem State.slotFreed_port (s : State) (l : Nat) (w : Bool) (n p : Nat) : (s.slotFreed l w n).port p = (s.port p).unbar l w n :=
  tabGet_map (fun x : Port => x.unbar l w n) s.ports .reset p

@[simp] theorem State.slotFreed_line (s : State) (l : Nat) (w : Bool) (n p : Nat) : (s.slotFreed l w n).line p = s.line p :=
  (congrArg Port.line (s.slotFreed_port l w n p)).trans rfl
@[simp] theorem State.endOwner_line (s : State) (c : Bool) (w : TagOwner) (p : Nat) : (s.endOwner c w).line p = s.line p := by
  cases w with
  | latheRead l k n => rw [State.endOwner]; dsimp only; split <;> simp
  | flush b r l n => rw [State.endOwner]; dsimp only; split <;> simp
  | ats id => rw [State.endOwner]; split <;> simp
  | invFlush f i => rfl
  | abortFlush b r => rfl
@[simp] theorem State.detachBench_line (s : State) (b p : Nat) : (s.detachBench b).line p = s.line p := by
  simp [State.detachBench, (State.abandonPages_kept _ b).line rfl, (State.dropEntries_kept _ _).line rfl,
    (State.loseKnocks_kept _ b _).line rfl, (State.startDeadline_kept _ b).line rfl]

/-- What a lost link leaves of its port. -/
def Port.lost (x : Port) : Port :=
  { Port.reset with trainFails := x.trainFails, perst := x.perst, peerBytes := x.peerBytes, unfit := x.unfit }

theorem State.linkLost_line (s : State) (p : Nat) : (s.linkLost p).line p = (s.port p).lost := by
  rw [State.linkLost]
  dsimp only
  rw [State.foldl_line (fun s b => State.detachBench_line s b p), State.foldl_line (fun s o => State.endOwner_line s false o p),
    State.foldl_line (fun s u => State.endOwner_line s _ _ p)]
  simp only [State.line, State.port, State.modPort, tabGet_tabMod_same]
  rfl

end Sys2Proof.Machine

/-! ## Host-port training (O20; 04 R87, R89–R92) -/

namespace Sys2Proof.Machine

theorem State.portEnabled_congr {s t : State} {p : Nat} (hc : t.chip = s.chip) (hu : (t.port p).unfit = (s.port p).unfit) :
    t.portEnabled p = s.portEnabled p := by
  simp only [State.portEnabled, State.nPorts, State.big, State.linksSay, hc, hu]
  rfl

theorem State.hostPhase_congr {s t : State} (hc : t.chip = s.chip) : t.hostPhase = s.hostPhase := by
  rw [State.hostPhase, hc]; rfl

theorem State.startDetect_of {s : State} {p : Nat} (he : s.portEnabled p = true) (hh : s.hostPhase = true) (hp : (s.port p).perst = false) :
    s.startDetect p = s.modPort p fun x => { x with link := .detect, consecFails := 0, retrying := false } := by
  simp [State.startDetect, he, hh, hp]

@[simp] theorem State.wakePort_chip (s : State) (p : Nat) : (s.wakePort p).chip = s.chip := (State.wakePort_kept s p).rest .chip rfl
@[simp] theorem State.wakePort_port (s : State) (p q : Nat) : (s.wakePort p).port q = s.port q := by
  rw [State.port, (State.wakePort_kept s p).rest .ports rfl]; rfl

/-- An ABSENT port, its detect-retry timer running for 1 s. -/
theorem State.absentPort_port_same (s : State) (p : Nat) : (s.absentPort p).port p = { s.port p with link := .absent, retrying := false } := by
  simp only [State.absentPort, State.port, State.modPort, tabGet_tabMod_same]
theorem State.absentPort_detectRetry (s : State) (p : Nat) : tabGet (s.absentPort p).hearth.detectRetry none p = some (s.now + 1000000) :=
  tabGet_tabSet_same ..

/-- What a failed attempt makes of the port. -/
def Port.failed (x : Port) (cause : BitVec 3) : Port :=
  { x with link := .detect, failCause := cause, trainFails := x.trainFails + 1, consecFails := min 4 (x.consecFails + 1) }

theorem State.trainFailed_down {s : State} {p : Nat} {cause : BitVec 3} (hup : (s.port p).link.isUp = false) :
    s.trainFailed p cause =
      if 4 ≤ min 4 ((s.port p).consecFails + 1) ∨ (s.port p).retrying = true then (s.modPort p fun x => x.failed cause).absentPort p
      else s.modPort p fun x => x.failed cause := by
  simp only [State.trainFailed, hup, Bool.false_eq_true, if_false, State.modPort_port_same]
  rfl

theorem LinkState.isUp_of_trains {l : LinkState} (h : l = .training ∨ l = .detect) : l.isUp = false := by
  obtain rfl | rfl := h <;> rfl

theorem State.trainFailed_line_down {s : State} {p : Nat} (hl : (s.port p).link = .training ∨ (s.port p).link = .detect) (cause : BitVec 3) :
    ((s.trainFailed p cause).port p).link.isUp = false ∧ ((s.trainFailed p cause).port p).failCause = cause ∧
      ((s.trainFailed p cause).port p).trainFails = (s.port p).trainFails + 1 := by
  rw [State.trainFailed_down (LinkState.isUp_of_trains hl)]
  split
  · rw [State.absentPort_port_same, State.modPort_port_same]
    exact ⟨rfl, rfl, rfl⟩
  · rw [State.modPort_port_same]
    exact ⟨rfl, rfl, rfl⟩

theorem Port.trains_of {x : Port} (h : x.link = .training ∨ x.link = .detect) : x.trains = true := by
  obtain h | h := h <;> simp [Port.trains, h]

@[simp] theorem State.loseKnocks_line (s : State) (b : Nat) (k : KnockState) (p : Nat) : (s.loseKnocks b k).line p = s.line p :=
  (State.loseKnocks_kept s b k).line rfl p

/-- Without CXL a port keeps all else of its line. -/
theorem State.cxlGone_line_same (s : State) (p : Nat) : (s.cxlGone p).line p = { (s.port p).line with cxl := false } := by
  rw [State.cxlGone, State.foldl_line (by simp), State.line, State.modPort_port_same]
  rfl

/-- What the end of a successful training makes of the port. -/
def Port.trainedAs (x : Port) (w sp : BitVec 3) (flit cxl refused : Bool) : Port :=
  { x with
    link := .l0, width := w, speed := sp, flit := flit, cxl := cxl, consecFails := 0, retrying := false, l11 := false, l12 := false
    failCause := if refused then 6 else 0 }

theorem State.trained_line (s : State) (p : Nat) (w sp : BitVec 3) (flit cxl refused : Bool) :
    (s.trained p w sp flit cxl refused).line p = (s.line p).trainedAs w sp flit cxl refused := by
  rw [State.trained]
  dsimp only
  rw [State.foldl_line (by intro s b; simp)]
  have hgone : ∀ t : State, (t.line p = s.line p ∨ t.line p = { s.line p with cxl := false }) →
      (t.port p).line.trainedAs w sp flit cxl refused = (s.line p).trainedAs w sp flit cxl refused := by
    rintro t (ht | ht)
    · exact congrArg (Port.trainedAs · w sp flit cxl refused) ht
    · exact (congrArg (Port.trainedAs · w sp flit cxl refused) ht).trans rfl
  refine Eq.trans ?_ (hgone (if (s.port p).cxl ∧ ¬cxl then s.cxlGone p else s) ?_)
  · simp only [State.line, State.port, State.modPort, tabGet_tabMod_same]
    rfl
  · split
    · exact .inr (s.cxlGone_line_same p)
    · exact .inl rfl

/-! ### The rows -/

/-- A port's detect-retry timer stops. -/
def State.stopRetry (s : State) (p : Nat) : State :=
  { s with hearth := { s.hearth with detectRetry := tabDel p s.hearth.detectRetry } }

theorem State.stopRetry_detectRetry (s : State) (p : Nat) : tabGet (s.stopRetry p).hearth.detectRetry none p = none :=
  tabGet_tabDel_same ..
@[simp] theorem State.stopRetry_port (s : State) (p q : Nat) : (s.stopRetry p).port q = s.port q := rfl

theorem exec_perstAssert_of {s : State} {p : Nat} (hp : p < s.nPorts) :
    exec (.perstAssert p) s = .next (if (s.port p).link.isUp then ((s.modPort p fun x => { x with perst := true }).stopRetry p).linkLost p
      else ((s.modPort p fun x => { x with perst := true }).stopRetry p).modPort p fun x => { x with link := .down, width := 0, speed := 0 }) := by
  have hlink : (((s.modPort p fun x => { x with perst := true }).stopRetry p).port p).link = (s.port p).link := by
    rw [State.stopRetry_port, State.modPort_port_same]
  rw [exec_perstAssert, execPerstAssert, if_neg (Nat.not_le.mpr hp), ← hlink]
  rfl

theorem exec_perstDeassert_on {s : State} {p : Nat} (hp : p < s.nPorts) (he : s.portEnabled p = true) (hh : s.hostPhase = true) :
    ∃ u : State, u.port p = { s.port p with perst := false } ∧ (∀ q, q ≠ p → u.port q = s.port q) ∧
      exec (.perstDeassert p) s = .next (u.modPort p fun x => { x with link := .detect, consecFails := 0, retrying := false }) := by
  refine ⟨(s.modPort p fun x => { x with perst := false }).wakePort p, ?port, ?others, ?eq⟩
  case port => rw [State.wakePort_port, State.modPort_port_same]
  case others => intro q hq; rw [State.wakePort_port, State.modPort_port_ne _ _ hq]
  case eq =>
    rw [exec_perstDeassert, execPerstDeassert, if_neg (Nat.not_le.mpr hp), State.startDetect_of]
    · rw [State.portEnabled_congr (s := s) (by simp) (by simp), he]
    · rw [State.hostPhase_congr (s := s) (by simp), hh]
    · simp

section Trains

variable {s : State} {p : Nat} (hp : p < s.nPorts) (ht : (s.port p).trains = true) (hr : (s.port p).perst = false)
  (hd : s.domainOn (p + 1) = true)

include hp ht hr hd

theorem exec_linkTrainingDone_failed (cause : BitVec 3) :
    exec (.linkTrainingDone p (.failed cause)) s = .next (s.trainFailed p cause) := by
  rw [exec_linkTrainingDone, execLinkTrainingDone.eq_def, if_neg (by simp [ht, hr, hd, hp])]

theorem exec_linkTrainingDone_narrow (sp : BitVec 3) (flit cxl refused : Bool) :
    exec (.linkTrainingDone p (.up 0 sp flit cxl refused)) s = .next (s.trainFailed p 3) := by
  rw [exec_linkTrainingDone, execLinkTrainingDone.eq_def, if_neg (by simp [ht, hr, hd, hp])]
  exact if_pos rfl

variable {w : BitVec 3} (hw : w ≠ 0)

include hw

theorem exec_linkTrainingDone_flitRequired (cxl refused : Bool) :
    exec (.linkTrainingDone p (.up w 6 false cxl refused)) s = .next (s.trainFailed p 5) := by
  rw [exec_linkTrainingDone, execLinkTrainingDone.eq_def, if_neg (by simp [ht, hr, hd, hp])]
  exact (if_neg hw).trans (if_pos ⟨rfl, Bool.false_ne_true⟩)

theorem exec_linkTrainingDone_up {sp : BitVec 3} {flit : Bool} (hsp : sp = 6 → flit = true) (cxl refused : Bool) :
    exec (.linkTrainingDone p (.up w sp flit cxl refused)) s = .next (s.trained p w sp flit cxl refused) := by
  rw [exec_linkTrainingDone, execLinkTrainingDone.eq_def, if_neg (by simp [ht, hr, hd, hp])]
  exact (if_neg hw).trans (if_neg fun h => h.2 (hsp h.1))

end Trains

theorem exec_detectTimeout_on {s : State} {p : Nat} (hl : (s.port p).link = .detect) (hd : s.domainOn (p + 1) = true) :
    exec (.detectTimeout p) s = .next ((s.modPort p fun x => { x with failCause := 1 }).absentPort p) := by
  rw [exec_detectTimeout, execDetectTimeout, if_neg (by simp [hl, hd])]

theorem exec_detectRetry_due {s : State} {p : Nat} {d : BitVec 64} (ht : tabGet s.hearth.detectRetry none p = some d)
    (hd : d.toNat ≤ s.now.toNat) (hl : (s.port p).link = .absent) (hr : (s.port p).perst = false) :
    exec (.detectRetry p) s = .next (((s.stopRetry p).wake (p + 1)).modPort p fun x => { x with link := .detect, retrying := true }) := by
  rw [exec_detectRetry, execDetectRetry, ht]
  exact if_neg (by simp [hl, hr, hd])

theorem exec_detectRetry_early {s : State} {p : Nat} {d : BitVec 64} (ht : tabGet s.hearth.detectRetry none p = some d) (hd : s.now.toNat < d.toNat) :
    exec (.detectRetry p) s = .next s := by
  rw [exec_detectRetry, execDetectRetry, ht]
  exact if_pos (.inl hd)

/-! ### The statement -/

/-- Settles O20: each row's result, read off the port's line after training, reset or absence. -/
theorem portTraining : Obligations.PortTraining := by
  unfold Obligations.PortTraining
  refine ⟨?assertDown, ?assertUp, ?deassert, ?up, ?failed, ?absent, ?unfitPartner, ?timeout, ?retry, ?early⟩
  case assertDown =>
    intro s p hp hup
    refine ⟨_, exec_perstAssert_of hp, ?_⟩
    rw [hup, if_neg Bool.false_ne_true]
    refine ⟨?_, State.stopRetry_detectRetry (s.modPort p _) p, rfl, ?_⟩
    · rw [State.modPort_port_same, State.stopRetry_port, State.modPort_port_same]
    · intro q hq
      rw [State.modPort_port_ne _ _ hq, State.stopRetry_port, State.modPort_port_ne _ _ hq]
  case assertUp =>
    intro s p hp hup
    refine ⟨_, exec_perstAssert_of hp, ?_⟩
    rw [hup, if_pos rfl]
    have hline := State.linkLost_line ((s.modPort p fun x => { x with perst := true }).stopRetry p) p
    rw [State.stopRetry_port, State.modPort_port_same] at hline
    exact ⟨congrArg Port.perst hline, congrArg Port.link hline, congrArg Port.width hline, congrArg Port.numVfs hline⟩
  case deassert =>
    intro s p hp he hh
    obtain ⟨u, hport, hothers, heq⟩ := exec_perstDeassert_on hp he hh
    refine ⟨_, heq, ?_, fun q hq => (State.modPort_port_ne _ _ hq).trans (hothers q hq)⟩
    rw [State.modPort_port_same, hport]
  case up =>
    intro s p w sp flit cxl refused hw hsp hp ht hr hd
    refine ⟨_, exec_linkTrainingDone_up hp ht hr hd hw hsp cxl refused, ?_⟩
    have hline := s.trained_line p w sp flit cxl refused
    exact ⟨congrArg Port.link hline, congrArg Port.width hline, congrArg Port.speed hline, congrArg Port.flit hline,
      congrArg Port.cxl hline, congrArg Port.consecFails hline, congrArg Port.failCause hline⟩
  case failed =>
    intro s p cause hp hl hr hd hfew hretry
    refine ⟨_, exec_linkTrainingDone_failed hp (Port.trains_of hl) hr hd cause, ?_⟩
    have hgoes : ¬(4 ≤ min 4 ((s.port p).consecFails + 1) ∨ (s.port p).retrying = true) := fun h => h.elim (by omega) (by simp [hretry])
    rw [State.trainFailed_down (LinkState.isUp_of_trains hl), if_neg hgoes, State.modPort_port_same, Port.failed]
    have hmin : min 4 ((s.port p).consecFails + 1) = (s.port p).consecFails + 1 := by omega
    rw [hmin]
    exact ⟨rfl, rfl⟩
  case absent =>
    intro s p cause hp hl hr hd hlast
    refine ⟨_, exec_linkTrainingDone_failed hp (Port.trains_of hl) hr hd cause, ?_⟩
    have hends : 4 ≤ min 4 ((s.port p).consecFails + 1) ∨ (s.port p).retrying = true := hlast.imp (by omega) id
    rw [State.trainFailed_down (LinkState.isUp_of_trains hl), if_pos hends, State.absentPort_port_same, State.modPort_port_same,
      State.absentPort_detectRetry]
    exact ⟨rfl, rfl, rfl, rfl⟩
  case unfitPartner =>
    intro s p w sp flit cxl refused hbad hp hl hr hd
    by_cases hw : w = 0
    · subst hw
      exact ⟨_, exec_linkTrainingDone_narrow hp (Port.trains_of hl) hr hd sp flit cxl refused, State.trainFailed_line_down hl 3⟩
    · obtain ⟨rfl, rfl⟩ := hbad.resolve_left hw
      rw [if_neg hw]
      exact ⟨_, exec_linkTrainingDone_flitRequired hp (Port.trains_of hl) hr hd hw cxl refused, State.trainFailed_line_down hl 5⟩
  case timeout =>
    intro s p hl hd
    refine ⟨_, exec_detectTimeout_on hl hd, ?_, State.absentPort_detectRetry ..⟩
    rw [State.absentPort_port_same, State.modPort_port_same]
  case retry =>
    intro s p d ht hd hl hr
    refine ⟨_, exec_detectRetry_due ht hd hl hr, ?_, ?_⟩
    · rw [State.modPort_port_same, State.wake_blind (g := fun s => s.port p) (fun _ _ => rfl), State.stopRetry_port]
    · rw [State.modPort_hearth, State.wake_blind (g := fun s => tabGet s.hearth.detectRetry none p) (fun _ _ => rfl), State.stopRetry_detectRetry]
  case early => exact fun s p d ht hd => exec_detectRetry_early ht hd

end Sys2Proof.Machine

/-! ## Loss of a host link, CXL loss, FLR, VF Enable and NumVFs (O21; 04 R91, R92, R116–R118) -/

namespace Sys2Proof.Machine

theorem tabGet_filter_out {α : Type} {q : Nat × α → Bool} {k : Nat} (h : ∀ v, q (k, v) = false) (t : Tab α) (d : α) :
    tabGet (t.filter q) d k = d := by
  induction t with
  | nil => rfl
  | cons e r ih =>
    rw [List.filter_cons]
    split
    · rename_i hq
      have hk : e.1 ≠ k := by
        rintro rfl
        rw [h] at hq
        exact Bool.false_ne_true hq
      rw [tabGet_cons, if_neg hk, ih]
    · exact ih

/-! ### The link goes down -/

theorem State.linkLost_fns (s : State) (p : Nat) : (s.linkLost p).fns = s.fns.filter fun e => e.1 / 64 != p := by
  rw [State.linkLost]
  dsimp only
  rw [(Kept.foldl (fun s b => State.detachBench_kept s b) _ _).rest .fns rfl, (Kept.foldl (fun s o => State.endOwner_kept s false o) _ _).rest .fns rfl,
    (Kept.foldl (fun s u => State.endOwner_kept s _ _) _ _).rest .fns rfl]
  rfl

@[simp] theorem State.linkLost_chip (s : State) (p : Nat) : (s.linkLost p).chip = s.chip := (State.linkLost_kept s p).rest .chip rfl

theorem State.dropLink_notUp {s : State} {p : Nat} (hup : (s.port p).link.isUp = false) : s.dropLink p = s :=
  if_neg (by simp [hup])

theorem State.dropLink_line {s : State} {p : Nat} (hup : (s.port p).link.isUp = true) (he : s.portEnabled p = true) (hh : s.hostPhase = true)
    (hr : (s.port p).perst = false) : (s.dropLink p).line p = { (s.port p).lost with link := .detect } := by
  have hline := s.linkLost_line p
  rw [State.dropLink, if_pos hup, State.startDetect_of]
  · rw [State.line, State.modPort_port_same, State.wakePort_port]
    exact congrArg (fun x : Port => { x with link := .detect, consecFails := 0, retrying := false }) hline
  · rw [State.portEnabled_congr (s := s) (by simp), he]
    exact (congrArg Port.unfit (State.wakePort_port ..)).trans ((congrArg Port.unfit hline).trans rfl)
  · rw [State.hostPhase_congr (s := s) (by simp), hh]
  · rw [State.wakePort_port]
    exact (congrArg Port.perst hline).trans hr

theorem State.dropLink_fnAt {s : State} {p : Nat} (hup : (s.port p).link.isUp = true) : (s.dropLink p).fnAt p 0 = Fn.reset := by
  rw [State.dropLink, if_pos hup, State.fnAt, (State.startDetect_kept _ p).rest .fns rfl, (State.wakePort_kept _ p).rest .fns rfl, State.linkLost_fns]
  exact tabGet_filter_out (fun v => by simp) ..

theorem State.aer_line (s : State) (q f : Nat) (e : AerError) (p : Nat) : (s.aer q f e).line p = s.line p :=
  (State.aer_kept s q f e).line rfl p

theorem State.aer_aer (s : State) (p f : Nat) (e : AerError) : ((s.aer p f e).fnAt p f).aer = (s.fnAt p f).aer ++ [e] := by
  simp [State.aer]

theorem State.aer_out (s : State) (p f : Nat) (e : AerError) : (s.aer p f e).out = s.out ++ [.errorMessage p f e ((s.fnAt p f).severity e)] := rfl

/-- Each of the three rows loses the link; a fatal error adds its log entry. -/
theorem exec_linkLoss {s : State} {c : Instr} {p : Nat} {e : Option AerError} (hc : c = .linkDown p e ∨ c = .hotReset p ∨ c = .dpcContainment p)
    (hup : (s.port p).link.isUp = true) : ∃ t, exec c s = .next t ∧ t.line p = (s.dropLink p).line p := by
  obtain rfl | rfl | rfl := hc
  · rw [exec_linkDown, execLinkDown.eq_def]
    cases e with
    | none => exact ⟨_, rfl, rfl⟩
    | some e => exact ⟨_, rfl, by dsimp only; rw [if_pos hup, State.aer_line]⟩
  · exact ⟨_, rfl, rfl⟩
  · exact ⟨_, rfl, rfl⟩

theorem exec_linkLoss_notUp {s : State} {c : Instr} {p : Nat} {e : Option AerError} (hc : c = .linkDown p e ∨ c = .hotReset p ∨ c = .dpcContainment p)
    (hup : (s.port p).link.isUp = false) : exec c s = .next s := by
  have hdrop := State.dropLink_notUp hup
  obtain rfl | rfl | rfl := hc
  · rw [exec_linkDown, execLinkDown.eq_def, hdrop, hup]
    cases e <;> rfl
  · exact congrArg _ hdrop
  · exact congrArg _ hdrop

theorem exec_linkDown_error {s : State} {p : Nat} (hup : (s.port p).link.isUp = true) (e : AerError) :
    exec (.linkDown p (some e)) s = .next ((s.dropLink p).aer p 0 e) := by
  rw [exec_linkDown, execLinkDown.eq_def]
  dsimp only
  rw [if_pos hup]

/-! ### Functions -/

theorem exec_cxlLost_on {s : State} {p : Nat} (h : (s.port p).cxl = true) : exec (.cxlLost p) s = .next (s.cxlGone p) := by
  rw [exec_cxlLost, execCxlLost, if_pos h]

section Vf

variable {s : State} {p f : Nat} (hf : f ≠ 0) (hup : (s.port p).link.isUp = true) (he : s.fnEnabled p f = true)

include hf hup he

theorem exec_flr_unbound (hb : s.benchOf p f = none) : exec (.flr p f) s = .next (s.resetFn p f) := by
  rw [exec_flr, execFlr.eq_def, if_neg (by simp [hup, he]), if_neg hf, hb]

theorem exec_flr_bound {b : Nat} (hb : s.benchOf p f = some b) : exec (.flr p f) s = .next ((s.resetFn p f).flrBench b) := by
  rw [exec_flr, execFlr.eq_def, if_neg (by simp [hup, he]), if_neg hf, hb]

end Vf

@[simp] theorem State.holdBench_bench (s : State) (b c : Nat) : (s.holdBench b).bench c = s.bench c := by
  rw [State.bench, (State.holdBench_kept s b).rest .benches rfl]; rfl

theorem State.flrBench_active {s : State} {b : Nat} (h : (s.bench b).state = .active) :
    ((s.flrBench b).bench b).state = .sweeping ∧ ((s.flrBench b).bench b).sweepCause = 2 := by
  have hdropped : ((s.dropVectors b).bench b).state = .active := by rw [State.dropVectors, State.modBench_bench_same]; exact h
  rw [State.flrBench, State.startSweep.eq_def]
  simp [hdropped]

/-- The VFs of a port gone, with their configuration space. -/
def State.vfsOff (s : State) (p : Nat) : State :=
  { s.modPort p fun x => { x with vfEnable := false } with fns := s.fns.filter fun e => e.1 / 64 != p || e.1 % 64 == 0 }

theorem State.flrVfs_eq (s : State) (p : Nat) :
    s.flrVfs p = ((s.portBenches p).filter fun b => (s.bench b).fn != 0).foldl (fun s b => s.flrBench b) (s.vfsOff p) := rfl

theorem exec_vfEnableClear_noVf {s : State} {p : Nat} (hv : (s.port p).vfEnable = true) (hn : ∀ b ∈ s.portBenches p, (s.bench b).fn = 0) :
    exec (.vfEnableClear p) s = .next (s.vfsOff p) := by
  have hnone : (s.portBenches p).filter (fun b => (s.bench b).fn != 0) = [] := List.filter_eq_nil_iff.mpr fun b hb => by simp [hn b hb]
  rw [exec_vfEnableClear, execVfEnableClear, if_pos hv, State.flrVfs_eq, hnone]
  rfl

theorem exec_numvfsWrite_of (s : State) (p v : Nat) :
    exec (.numvfsWrite p v) s = .next (if (s.port p).vfEnable ∨ s.totalVfs p < v then s else s.modPort p fun x => { x with numVfs := v }) := rfl

/-! ### The statement -/

/-- Settles O21: the line of a port whose link is lost, the functions filtered with it, and the rows of the functions. -/
theorem linkLossAndResets : Obligations.LinkLossAndResets := by
  unfold Obligations.LinkLossAndResets
  refine ⟨?lost, ?notUp, ?error, ?cxl, ?flrUnbound, ?flrBound, ?vfClear, ?numVfs, ?numVfsHeld⟩
  case lost =>
    intro s c p e hc hup he hh hr
    obtain ⟨t, ht, hline⟩ := exec_linkLoss hc hup
    rw [State.dropLink_line hup he hh hr] at hline
    exact ⟨t, ht, congrArg Port.link hline, congrArg Port.width hline, congrArg Port.numVfs hline⟩
  case notUp => exact fun s c p e hc hup => exec_linkLoss_notUp hc hup
  case error =>
    intro s p e hup
    refine ⟨_, exec_linkDown_error hup e, ?_, ?_⟩
    · rw [State.aer_aer, State.dropLink_fnAt hup]
      rfl
    · rw [State.aer_out, State.dropLink_fnAt hup, List.getLast?_concat]
  case cxl =>
    intro s p h
    have hline := s.cxlGone_line_same p
    exact ⟨_, exec_cxlLost_on h, congrArg Port.cxl hline, (congrArg Port.link hline).trans rfl, (State.cxlGone_kept s p).rest .out rfl⟩
  case flrUnbound =>
    intro s p f hf hup he hb
    exact exec_flr_unbound hf hup he hb
  case flrBound =>
    intro s p f b hf hup he hb hs
    exact ⟨_, exec_flr_bound hf hup he hb, State.flrBench_active (s := s.resetFn p f) hs⟩
  case vfClear =>
    intro s p hv hn
    refine ⟨_, exec_vfEnableClear_noVf hv hn, ?_, rfl, ?_⟩
    · exact congrArg Port.vfEnable (s.modPort_port_same p fun x => { x with vfEnable := false })
    · intro e he
      simpa using (List.mem_filter.mp he).2
  case numVfs =>
    intro s p v hv hle
    rw [exec_numvfsWrite_of, if_neg (by simp [hv, hle])]
  case numVfsHeld =>
    intro s p v hv
    rw [exec_numvfsWrite_of, if_pos (.inl hv)]

end Sys2Proof.Machine

/-! ## Configuration requests, power states and the MSI-X table (O22; 04 R94, R106, R111–R113, R117, R119, R121; 05 R150) -/

namespace Sys2Proof.Machine

/-! ### The bench of a function -/

theorem tabGet_eq_or_mem {α : Type} (t : Tab α) (d : α) (k : Nat) : tabGet t d k = d ∨ (k, tabGet t d k) ∈ t := by
  induction t with
  | nil => exact .inl rfl
  | cons e r ih =>
    rw [tabGet_cons]
    split
    · rename_i hk
      exact .inr (hk ▸ List.mem_cons_self)
    · exact ih.imp id (List.mem_cons_of_mem _)

/-- The bench is bound to a function. -/
def Bench.boundTo (x : Bench) (p f : Nat) : Bool := x.state != .vacant && x.port == p && x.fn == f

theorem State.benchOf_eq_none {s : State} {p f : Nat} : s.benchOf p f = none ↔ ∀ e ∈ s.benches, e.2.boundTo p f = false := by
  simp [State.benchOf, Bench.boundTo]

theorem State.modBench_benchOf_none {s : State} {p f : Nat} {g : Bench → Bench} (hg : ∀ x, (g x).boundTo p f = x.boundTo p f)
    (h : s.benchOf p f = none) (b : Nat) : (s.modBench b g).benchOf p f = none := by
  rw [State.benchOf_eq_none] at h ⊢
  intro e he
  obtain rfl | he := mem_tabSet he
  · dsimp only
    rw [hg]
    obtain hd | hm := tabGet_eq_or_mem s.benches .reset b
    · exact (congrArg (Bench.boundTo · p f) hd).trans rfl
    · exact h _ hm
  · exact h e he

theorem State.settleNotices_benchOf_none {s : State} {p f : Nat} (h : s.benchOf p f = none) (b : Nat) : (s.settleNotices b).benchOf p f = none := by
  have hset : ∀ on, (s.setNotices b on).benchOf p f = none := by
    intro on
    rw [State.setNotices]
    dsimp only
    split_ifs
    · exact State.modBench_benchOf_none (by exact fun _ => rfl) (State.modBench_benchOf_none (by exact fun _ => rfl) h b) b
    · exact State.modBench_benchOf_none (by exact fun _ => rfl) (State.modBench_benchOf_none (by exact fun _ => rfl) h b) b
    · exact State.modBench_benchOf_none (by exact fun _ => rfl) h b
  rw [State.settleNotices]
  split
  · split_ifs
    · exact h
    · exact hset _
  · exact h

theorem State.unwriteNotices_benchOf_none {s : State} {p f : Nat} (h : s.benchOf p f = none) (q : Nat) (m : EgressTlp → Bool) :
    (s.unwriteNotices q m).benchOf p f = none :=
  List.foldlRecOn (motive := fun t : State => t.benchOf p f = none) _ State.settleNotices h fun _ ht b _ => State.settleNotices_benchOf_none ht b

theorem State.unwriteNotices_port (s : State) (p : Nat) (m : EgressTlp → Bool) :
    (s.unwriteNotices p m).port p = { s.port p with egress := (s.port p).egress.filter fun t => t.notice.isNone || !m t } := by
  rw [State.unwriteNotices, State.port, (Kept.foldl State.settleNotices_kept _ _).rest .ports rfl]
  exact State.modPort_port_same s p fun x => { x with egress := x.egress.filter fun t => t.notice.isNone || !m t }

theorem State.fnBack_unbound {s : State} {p f : Nat} (h : s.benchOf p f = none) : s.fnBack p f = s := by
  rw [State.fnBack, h]

theorem State.fnStops_benchOf_none {s : State} {p f : Nat} (h : s.benchOf p f = none) : (s.fnStops p f).benchOf p f = none :=
  State.unwriteNotices_benchOf_none h ..

theorem State.fnStops_port_unbound {s : State} {p f : Nat} (h : s.benchOf p f = none) :
    (s.fnStops p f).port p = { s.port p with egress := (s.port p).egress.filter fun t => t.notice.isNone || t.fn != f } := by
  rw [State.fnStops, State.unwriteNotices_port, h]
  simp [bne]

/-! ### Configuration requests -/

theorem State.cfgRetry_unbound {s : State} {p f : Nat} (h : s.benchOf p f = none) : s.cfgRetry p f = false := by
  rw [State.cfgRetry, h]

theorem State.cfgRetry_flr {s : State} {p f b : Nat} (hb : s.benchOf p f = some b) (hs : (s.bench b).state = .sweeping)
    (hw : (s.bench b).sweep.map Sweep.flr = some true) : s.cfgRetry p f = true := by
  rw [State.cfgRetry, hb]
  simp [hs, hw]

section Up

variable {s : State} {p f : Nat} (hup : (s.port p).link.isUp = true)

include hup

theorem exec_configRequest_disabled (he : s.fnEnabled p f = false) (a : ConfigAccess) :
    exec (.configRequest p f a) s = .next (s.aer p 0 .unsupportedRequest) := by
  rw [exec_configRequest, execConfigRequest, if_neg (by simp [hup]), if_pos (by simp [he])]

variable (he : s.fnEnabled p f = true)

include he

theorem exec_configRequest_retry (hr : s.cfgRetry p f = true) (a : ConfigAccess) :
    exec (.configRequest p f a) s = .next (s.emit (.retryStatus p f)) := by
  rw [exec_configRequest, execConfigRequest, if_neg (by simp [hup]), if_neg (by simp [he]), if_pos hr]

theorem exec_configRequest_served (hr : s.cfgRetry p f = false) (a : ConfigAccess) :
    exec (.configRequest p f a) s =
      .next (((s.answered.configure p f a).portBenches p).foldl (fun s b => s.portBack b) (s.answered.configure p f a)) := by
  rw [exec_configRequest, execConfigRequest, if_neg (by simp [hup]), if_neg (by simp [he]), if_neg (by simp [hr])]

theorem exec_powerStateChange_retry (hr : s.cfgRetry p f = true) (d3hot : Bool) :
    exec (.powerStateChange p f d3hot) s = .next (s.emit (.retryStatus p f)) := by
  rw [exec_powerStateChange, execPowerStateChange, if_neg (by simp [hup, he]), if_pos hr]

theorem exec_powerStateChange_d3hot (hr : s.cfgRetry p f = false) :
    exec (.powerStateChange p f true) s = .next (((s.modFn p f fun x => { x with d3hot := true }).fnStops p f).fnBack p f) := by
  rw [exec_powerStateChange, execPowerStateChange, if_neg (by simp [hup, he]), if_neg (by simp [hr])]
  rfl

theorem exec_powerStateChange_d0 (hr : s.cfgRetry p f = false) :
    exec (.powerStateChange p f false) s =
      .next (((s.modFn p f fun x => { x with d3hot := false }).modPort p fun x => { x with wake := false }).fnBack p f) := by
  rw [exec_powerStateChange, execPowerStateChange, if_neg (by simp [hup, he]), if_neg (by simp [hr])]
  rfl

theorem exec_busMasterEnableChange_retry (hr : s.cfgRetry p f = true) (on : Bool) :
    exec (.busMasterEnableChange p f on) s = .next (s.emit (.retryStatus p f)) := by
  rw [exec_busMasterEnableChange, execBusMasterEnableChange, if_neg (by simp [hup, he]), if_pos hr]

theorem exec_busMasterEnableChange_stored (hr : s.cfgRetry p f = false) (on : Bool) :
    exec (.busMasterEnableChange p f on) s = .next
      ((if on then s.modFn p f fun x => { x with busMaster := on } else (s.modFn p f fun x => { x with busMaster := on }).fnStops p f).fnBack p f) := by
  rw [exec_busMasterEnableChange, execBusMasterEnableChange, if_neg (by simp [hup, he]), if_neg (by simp [hr])]

end Up

theorem State.configRead_answered (s : State) (p f : Nat) (r : ConfigReg) : s.answered.configRead p f r = s.configRead p f r := by
  rw [State.answered]
  split_ifs
  · rfl
  · rfl

theorem State.answered_hosts {s : State} (h : s.chip.phase = .hosts) : s.answered = { s with
    chip := { s.chip with phase := .running }
    bg := { s.bg with scrubbing := true, position := 0, passStart := s.now, floor := false, runningAt := s.now, tested := [] } } :=
  if_neg (by simp [h])

theorem State.answered_running {s : State} (h : s.chip.phase = .running) : s.answered = s := if_pos (by simp [h])

/-! ### Link power states -/

theorem exec_linkPowerStateChange_enter {s : State} {p : Nat} (hr : (s.port p).perst = false) (hl : (s.port p).link = .l0 ∨ (s.port p).link = .l1) :
    exec (.linkPowerStateChange p true) s =
      .next ((s.modPort p fun x => { x with link := .l2, l11 := false, l12 := false }).unwriteNotices p fun _ => true) := by
  rw [exec_linkPowerStateChange, execLinkPowerStateChange]
  dsimp only
  rw [if_neg (by simp [hr]), if_pos rfl, if_pos hl]

theorem exec_linkPowerStateChange_leave {s : State} {p : Nat} (hr : (s.port p).perst = false) (hl : (s.port p).link = .l2) :
    exec (.linkPowerStateChange p false) s = .next
      ((s.portBenches p).foldl (fun s b => s.portBack b) (s.modPort p fun x => { x with link := .l0, wake := false })) := by
  rw [exec_linkPowerStateChange, execLinkPowerStateChange]
  dsimp only
  rw [if_neg (by simp [hr]), if_neg Bool.false_ne_true, if_neg (not_not_intro hl)]
  rfl

theorem exec_aspmL1Change_enter {s : State} {p : Nat} {a : AspmState} (ha : a ≠ .l0) (hl : (s.port p).link = .l0 ∨ (s.port p).link = .l1) :
    exec (.aspmL1Change p a) s = .next ((s.modPort p fun x => { x with link := .l1, l11 := a == .l11, l12 := a == .l12 }).stir (p + 1)) := by
  rw [exec_aspmL1Change, execAspmL1Change]
  rw [if_neg ha, if_neg (by tauto)]

theorem exec_aspmL1Change_leave {s : State} {p : Nat} (hl : (s.port p).link = .l1) :
    exec (.aspmL1Change p .l0) s = .next ((s.modPort p fun x => { x with link := .l0, l11 := false, l12 := false }).wake (p + 1)) := by
  rw [exec_aspmL1Change, execAspmL1Change]
  rw [if_pos rfl, if_pos hl]

/-! ### MSI-X moderation and the MSI-X table -/

/-- The moderation interval of a vector over, its held message taken. -/
def State.endFloor (s : State) (b v : Nat) : State :=
  s.modBench b fun x => { x with msix := { x.msix with
    inFloor := x.msix.inFloor &&& ~~~(1#32 <<< v), heldMsg := x.msix.heldMsg &&& ~~~(1#32 <<< v) } }

theorem exec_msixModerationExpiry_inFloor {s : State} {b v : Nat} (hv : v < 32) (hf : (s.bench b).msix.inFloor.getLsbD v = true) :
    exec (.msixModerationExpiry b v) s =
      .next (if (s.bench b).msix.heldMsg.getLsbD v then (s.endFloor b v).fireVector b v else s.endFloor b v) := by
  rw [exec_msixModerationExpiry, execMsixModerationExpiry]
  exact if_neg (by simp [hf, hv])

theorem getLsbD_clearBit (x : BitVec 32) (v : Nat) : (x &&& ~~~(1#32 <<< v)).getLsbD v = false := by
  by_cases hv : v < 32
  · simp [hv]
  · simp [hv]

theorem State.endFloor_bench_same (s : State) (b v : Nat) : (s.endFloor b v).bench b = { s.bench b with msix := { (s.bench b).msix with
    inFloor := (s.bench b).msix.inFloor &&& ~~~(1#32 <<< v), heldMsg := (s.bench b).msix.heldMsg &&& ~~~(1#32 <<< v) } } :=
  s.modBench_bench_same b _

theorem State.endFloor_reqFn (s : State) (b v : Nat) : (s.endFloor b v).reqFn b = s.reqFn b := by
  rw [State.reqFn, State.endFloor_bench_same]; rfl

theorem State.endFloor_vectorOpen (s : State) (b v : Nat) : (s.endFloor b v).vectorOpen b v = s.vectorOpen b v := by
  rw [State.vectorOpen, State.mayUsePort, State.endFloor_reqFn, State.endFloor_bench_same]
  rfl

theorem State.detached_of_vectorOpen {s : State} {b v : Nat} (h : s.vectorOpen b v = true) : (s.bench b).detached = false := by
  rw [State.vectorOpen, State.mayUsePort] at h
  simp_all

theorem State.fireVector_open {s : State} {b v : Nat} (h : s.vectorOpen b v = true) (hf : (s.bench b).msix.inFloor.getLsbD v = false) :
    s.fireVector b v = s.sendVector b v := by
  rw [State.fireVector, if_neg (by simp [State.detached_of_vectorOpen h]), if_neg (by simp [h]), if_neg (by simp [hf])]

/-- The message of a vector as it goes out (04 R111). -/
def State.msixTlp (s : State) (b v : Nat) : EgressTlp :=
  ⟨s.reqFn b, b, 4, 0, false, none, none, .msix (s.bench b).port (s.reqFn b) ((tabGet (s.bench b).msix.table .reset v).addrLo.toNat / 4 * 4 +
    2 ^ 32 * (tabGet (s.bench b).msix.table .reset v).addrHi.toNat) (tabGet (s.bench b).msix.table .reset v).data⟩

theorem State.sendVector_egress (s : State) (b v : Nat) :
    ((s.sendVector b v).port (s.bench b).port).egress = (s.port (s.bench b).port).egress ++ [s.msixTlp b v] := by
  rw [State.sendVector]
  dsimp only
  split_ifs
  · rw [State.egress, State.modPort_port_same]; rfl
  · rw [State.modBench_at_port, State.egress, State.modPort_port_same]; rfl

theorem State.sendVector_heldMsg (s : State) (b v : Nat) : ((s.sendVector b v).bench b).msix.heldMsg = (s.bench b).msix.heldMsg := by
  rw [State.sendVector]
  dsimp only
  split_ifs
  · rfl
  · rw [State.modBench_bench_same]; rfl

theorem exec_msixEntryWrite_bound {s : State} {p f b v k : Nat} (hd : s.decodes p f = true) (hb : s.benchOf p f = some b)
    (hs : (s.bench b).state = .active ∨ (s.bench b).state = .held) (hv : v < 32) (hk : k < 4) (x : BitVec 32) :
    exec (.msixEntryWrite p f v k x) s = .next (s.putMsix b v k x) := by
  have hserves : ¬((s.bench b).state = .forming ∨ (s.bench b).state = .sweeping) := by obtain h | h := hs <;> simp [h]
  rw [exec_msixEntryWrite, execMsixEntryWrite, if_neg (by simp [hd]), hb]
  dsimp only
  rw [if_neg hserves, if_neg (by omega)]

theorem exec_msixEntryWrite_unbound {s : State} {p f : Nat} (hd : s.decodes p f = true) (hb : s.benchOf p f = none) (v k : Nat) (x : BitVec 32) :
    exec (.msixEntryWrite p f v k x) s = .next s.countHub := by
  rw [exec_msixEntryWrite, execMsixEntryWrite, if_neg (by simp [hd]), hb]

theorem State.flushVector_idle {s : State} {b v : Nat} (h : (s.bench b).msix.pba = 0#32) : s.flushVector b v = s := by
  rw [State.flushVector, h, if_neg (by simp)]

/-- With nothing pending, a write of the table only stores. -/
theorem State.putMsix_table {s : State} {b : Nat} (h : (s.bench b).msix.pba = 0#32) (v k : Nat) (x : BitVec 32) :
    ((s.putMsix b v k x).bench b).msix.table =
      tabSet v ((tabGet (s.bench b).msix.table .reset v).put k x) (s.bench b).msix.table := by
  rw [State.putMsix, State.flushVector_idle (by rw [State.modBench_bench_same]; exact h), State.modBench_bench_same]

/-! ### The statement -/

/-- Settles O22: the rows by the state of the function's bench, its configuration space kept by what goes on after them. -/
theorem configurationAndPower : Obligations.ConfigurationAndPower := by
  unfold Obligations.ConfigurationAndPower
  refine ⟨?disabled, ?retry, ?read, ?memSpace, ?d3hot, ?d0, ?d3hotBound, ?busMaster, ?retryPower, ?enterL2, ?leaveL2, ?enterL1, ?leaveL1,
    ?floorEnds, ?floorSends, ?entry, ?entryUnbound⟩
  case disabled => exact fun s p f a hup he => exec_configRequest_disabled hup he a
  case retry => exact fun s p f b a hup he hb hs hw => exec_configRequest_retry hup he (State.cfgRetry_flr hb hs hw) a
  case read =>
    intro s p f r hup he hbenches hb hph
    refine ⟨_, exec_configRequest_served hup he (State.cfgRetry_unbound hb) _, ?_⟩
    have hconf : s.answered.configure p f (.read r) = s.answered.emit (.configData p f (s.configRead p f r)) := by
      rw [← State.configRead_answered]; rfl
    have hnone : (s.answered.emit (.configData p f (s.configRead p f r))).portBenches p = [] := by
      rw [State.answered_hosts hph]; exact hbenches
    rw [hconf, hnone, State.answered_hosts hph]
    exact ⟨rfl, rfl, rfl, rfl, rfl, rfl⟩
  case memSpace =>
    intro s p f on hup he hbenches hb hph
    have hconf : s.answered.configure p f (.memSpace on) = s.modFn p f fun x => { x with memSpace := on } := by
      rw [State.answered_running hph]; rfl
    have hnone : (s.modFn p f fun x => { x with memSpace := on }).portBenches p = [] := hbenches
    rw [exec_configRequest_served hup he (State.cfgRetry_unbound hb), hconf, hnone]
    rfl
  case d3hot =>
    intro s p f hup he hb
    refine ⟨_, exec_powerStateChange_d3hot hup he (State.cfgRetry_unbound hb), ?_⟩
    have hmod : (s.modFn p f fun x => { x with d3hot := true }).benchOf p f = none := hb
    rw [State.fnBack_unbound (State.fnStops_benchOf_none hmod)]
    refine ⟨(State.fnStops_kept ..).rest .fns rfl, (State.fnStops_kept ..).rest .out rfl, State.fnStops_port_unbound hmod⟩
  case d0 =>
    intro s p f hup he hb
    rw [exec_powerStateChange_d0 hup he (State.cfgRetry_unbound hb), State.fnBack_unbound]
    exact hb
  case d3hotBound =>
    intro s p f b hup he hb hr
    refine ⟨_, exec_powerStateChange_d3hot hup he hr, ?_⟩
    have hd3 : ((((s.modFn p f fun x => { x with d3hot := true }).fnStops p f).fnBack p f).fnAt p f).d3hot = true := by
      rw [State.fnAt, (State.fnBack_kept ..).rest .fns rfl, (State.fnStops_kept ..).rest .fns rfl]
      exact congrArg Fn.d3hot (s.modFn_fnAt_same p f _)
    exact ⟨hd3, by rw [State.fnMayIssue, hd3]; rfl⟩
  case busMaster =>
    intro s p f e hup he hb
    refine ⟨_, exec_busMasterEnableChange_stored hup he (State.cfgRetry_unbound hb) e, ?_⟩
    have hmod : (s.modFn p f fun x => { x with busMaster := e }).benchOf p f = none := hb
    cases e with
    | true =>
      rw [if_pos rfl, State.fnBack_unbound hmod]
      exact ⟨rfl, rfl, fun _ => rfl⟩
    | false =>
      rw [if_neg Bool.false_ne_true, State.fnBack_unbound (State.fnStops_benchOf_none hmod)]
      exact ⟨(State.fnStops_kept ..).rest .fns rfl, (State.fnStops_kept ..).rest .out rfl, fun h => absurd h Bool.false_ne_true⟩
  case retryPower =>
    intro s p f b e hup he hb hs hw
    have hr := State.cfgRetry_flr hb hs hw
    exact ⟨exec_powerStateChange_retry hup he hr e, exec_busMasterEnableChange_retry hup he hr e⟩
  case enterL2 =>
    intro s p hr hl
    refine ⟨_, exec_linkPowerStateChange_enter hr hl, ?_, (State.unwriteNotices_kept ..).rest .out rfl⟩
    rw [State.unwriteNotices_port, State.modPort_port_same]
    simp
  case leaveL2 =>
    intro s p hr hl
    refine ⟨_, exec_linkPowerStateChange_leave hr hl, ?_⟩
    have hline := State.foldl_line (fun s b => State.portBack_line s b p) (s.portBenches p) (s.modPort p fun x => { x with link := .l0, wake := false })
    rw [State.line, State.line, State.modPort_port_same] at hline
    exact (congrArg Port.link hline).trans rfl
  case enterL1 =>
    intro s p a ha hl
    refine ⟨_, exec_aspmL1Change_enter ha hl, s.modPort_port_same p fun x => { x with link := .l1, l11 := a == .l11, l12 := a == .l12 }, ?_⟩
    rw [State.stir, State.modDomain_domain_same]
    rfl
  case leaveL1 =>
    intro s p hl
    refine ⟨_, exec_aspmL1Change_leave hl, ?_⟩
    rw [State.wake_blind (g := fun s => s.port p) (fun _ _ => rfl), State.modPort_port_same]
  case floorEnds =>
    intro s b v hv hf hh
    refine ⟨_, exec_msixModerationExpiry_inFloor hv hf, ?_⟩
    rw [hh, if_neg Bool.false_ne_true, State.endFloor_bench_same]
    exact ⟨rfl, rfl, fun c hc => State.modBench_bench_ne _ _ hc⟩
  case floorSends =>
    intro s b v hv hf hh ho
    refine ⟨_, exec_msixModerationExpiry_inFloor hv hf, ?_⟩
    have hopen : (s.endFloor b v).vectorOpen b v = true := (s.endFloor_vectorOpen b v).trans ho
    have hfloor : ((s.endFloor b v).bench b).msix.inFloor.getLsbD v = false := by
      rw [State.endFloor_bench_same]; exact getLsbD_clearBit ..
    rw [hh, if_pos rfl, State.fireVector_open hopen hfloor, State.sendVector_heldMsg]
    refine ⟨by rw [State.endFloor_bench_same]; exact getLsbD_clearBit .., ?_⟩
    have hsent := (s.endFloor b v).sendVector_egress b v
    rw [State.msixTlp, State.endFloor_reqFn, State.endFloor_bench_same] at hsent
    exact hsent
  case entry =>
    intro s p f b v k x hd hb hs hv hk hp
    refine ⟨_, exec_msixEntryWrite_bound hd hb hs hv hk x, ?_⟩
    rw [State.putMsix_table hp]
    exact ⟨tabGet_tabSet_same .., fun w hw => tabGet_tabSet_ne _ _ _ hw⟩
  case entryUnbound => exact fun s p f v k x hd hb => exec_msixEntryWrite_unbound hd hb v k x

end Sys2Proof.Machine

/-! ## A request at a spindle port that waits for nothing (O23, O54; 13 R375, R376) -/

namespace Sys2Proof.Machine

theorem State.modDie_keeps {α : Type} {f : Spindle → Spindle} {g : Spindle → α} (h : ∀ x, g (f x) = g x) (s : State) (d k : Nat) :
    g ((s.modDie d f).die k) = g (s.die k) := by
  by_cases hk : k = d
  · rw [hk, State.modDie_die_same, h]
  · rw [State.modDie_die_ne s f hk]

@[simp] theorem State.countPerf_out (s : State) (q n : Nat) : (s.countPerf q n).out = s.out := (s.countPerf_kept q n).rest .out rfl
@[simp] theorem State.countPerf_at_die (s : State) (q n d : Nat) : (s.countPerf q n).die d = s.die d := by
  rw [State.countPerf]; split_ifs <;> rfl

theorem State.sendDie_xlt (s : State) (d : Nat) (m : DieMsg) (k : Nat) : ((s.sendDie d m).die k).xlt = (s.die k).xlt := by
  rw [State.sendDie]
  split_ifs
  · exact State.modDie_keeps (by exact fun _ => rfl) s d k
  · rw [State.emit_at_die, State.countPerf_at_die]

theorem State.sendDie_out {s : State} {d : Nat} (h : (s.die d).state = .up) (m : DieMsg) : (s.sendDie d m).out = s.out ++ [.die d m] := by
  rw [State.sendDie, if_neg (by simp [h]), State.emit_out, State.countPerf_out]

/-- The die with a request's credits taken. -/
def Spindle.granted (x : Spindle) (q : PortReq) (r : Bool) (now : BitVec 64) : Spindle :=
  { x with
    queue := x.queue.erase q, sent := x.sent ++ [⟨q.msg.key, q.msg.blocks, r, now, q.bench⟩]
    turns := if q.bench.isNone then 0 else if r then x.turns else x.turns + 1 }

/-- A grant charged to the bench of its request; one of reserved credits, or of no bench, to none. -/
def State.paid (s : State) (d : Nat) (q : PortReq) (r : Bool) : State :=
  match q.bench with
  | some b => if r then s else s.charge (arbSpindle d) b q.msg.moves (s.qosOf b).latheWeight
  | none => s

theorem State.grantPort_eq (s : State) (d : Nat) (q : PortReq) (r : Bool) :
    s.grantPort d q r = ((s.modDie d fun x => x.granted q r s.now).paid d q r).sendDie d q.msg := rfl

theorem State.paid_kept (s : State) (d : Nat) (q : PortReq) (r : Bool) : Kept 0x1000 s (s.paid d q r) := by
  rw [State.paid]
  split
  · exact .ite (.refl _ _) (State.charge_kept ..)
  · exact .refl _ _

@[simp] theorem State.paid_at_die (s : State) (d : Nat) (q : PortReq) (r : Bool) (k : Nat) : (s.paid d q r).die k = s.die k := by
  rw [State.die, (State.paid_kept s d q r).rest .spindles rfl]; rfl

theorem State.grantPort_xlt (s : State) (d : Nat) (q : PortReq) (r : Bool) (k : Nat) : ((s.grantPort d q r).die k).xlt = (s.die k).xlt := by
  rw [State.grantPort_eq, State.sendDie_xlt, State.paid_at_die]
  exact State.modDie_keeps (by exact fun _ => rfl) s d k

theorem State.grantPort_out {s : State} {d : Nat} (h : (s.die d).state = .up) (q : PortReq) (r : Bool) :
    (s.grantPort d q r).out = s.out ++ [.die d q.msg] := by
  rw [State.grantPort_eq, State.sendDie_out, (State.paid_kept ..).rest .out rfl]
  · rfl
  · rw [State.paid_at_die, State.modDie_die_same]
    exact h

/-- The message with the number that a write of the hub goes out under. -/
def State.numbered (s : State) (m : DieMsg) : DieMsg :=
  match m with
  | .hubWrite none o data => .hubWrite (some s.nextPut) o data
  | m => m

/-- The request waits at the port. -/
def State.queueDie (s : State) (d : Nat) (q : PortReq) : State := s.modDie d fun x => { x with queue := x.queue ++ [q] }

theorem State.askDie_eq (s : State) (d : Nat) (bench : Option Nat) (core : Bool) (m : DieMsg) :
    s.askDie d bench core m = (s.queueDie d ⟨bench, core, s.numbered m⟩).pumpPort d
      ((s.queueDie d ⟨bench, core, s.numbered m⟩).die d).queue.length := by
  cases m with
  | hubWrite id o data => cases id <;> rfl
  | _ => rfl

theorem State.queueDie_die_same (s : State) (d : Nat) (q : PortReq) : (s.queueDie d q).die d = { s.die d with queue := (s.die d).queue ++ [q] } :=
  s.modDie_die_same d _

theorem State.nextPort_notUp {s : State} {d : Nat} (h : (s.die d).state ≠ .up) : s.nextPort d = (none, s) := by
  rw [State.nextPort]
  exact if_pos h

theorem State.pumpPort_notUp {s : State} {d : Nat} (h : (s.die d).state ≠ .up) (n : Nat) : s.pumpPort d n = s := by
  cases n with
  | zero => rfl
  | succ n => rw [State.pumpPort, State.nextPort_notUp h]

theorem State.askDie_notUp {s : State} {d : Nat} (h : (s.die d).state ≠ .up) (bench : Option Nat) (core : Bool) (m : DieMsg) :
    s.askDie d bench core m = s.queueDie d ⟨bench, core, s.numbered m⟩ := by
  rw [State.askDie_eq, State.pumpPort_notUp]
  rw [State.queueDie_die_same]
  exact h

theorem arbPick_one (c : Tab Charge) (qos : Nat → Nat) (b : Nat) : arbPick c qos [b] = some b := rfl

theorem State.nextPort_only {s : State} {d : Nat} {q : PortReq} (hup : (s.die d).state = .up) (hq : (s.die d).queue = [q])
    (hroom : (s.die d).room q.core q.msg.blocks = true) : ∃ u, s.nextPort d = (some (q, q.core), u) ∧ Kept 0x1000 s u := by
  have hkept := s.nextPort_kept d
  rw [State.nextPort] at hkept ⊢
  dsimp only at hkept ⊢
  rw [if_neg (by simp [hup]), hq] at hkept ⊢
  obtain ⟨bench, core, m⟩ := q
  cases core with
  | true => 
    refine ⟨_, ?_, Kept.refl _ _⟩
    simp [hroom]
  | false =>
    cases bench with
    | none =>
      refine ⟨_, ?_, Kept.refl _ _⟩
      simp [hroom]
    | some b =>
      refine ⟨_, ?_, hkept⟩
      simp [hroom, State.arbitrate, arbPick_one]

/-- A port that is UP with credits free serves the one request that it has at once. -/
theorem State.askDie_free {s : State} {d : Nat} {core : Bool} {m : DieMsg} (hup : (s.die d).state = .up) (hq : (s.die d).queue = [])
    (hroom : (s.die d).room core (s.numbered m).blocks = true) (bench : Option Nat) :
    ∃ u, Kept 0x1000 (s.queueDie d ⟨bench, core, s.numbered m⟩) u ∧
      s.askDie d bench core m = u.grantPort d ⟨bench, core, s.numbered m⟩ core := by
  have hdie := s.queueDie_die_same d ⟨bench, core, s.numbered m⟩
  obtain ⟨u, hu, hkept⟩ := State.nextPort_only (s := s.queueDie d ⟨bench, core, s.numbered m⟩) (d := d) (q := ⟨bench, core, s.numbered m⟩)
    (by rw [hdie]; exact hup) (by rw [hdie, hq]; rfl) (by rw [hdie]; exact hroom)
  refine ⟨u, hkept, ?_⟩
  have hlen : ((s.queueDie d ⟨bench, core, s.numbered m⟩).die d).queue.length = 1 := by rw [hdie, hq]; rfl
  rw [State.askDie_eq, hlen, State.pumpPort, hu]
  rfl

section Free

variable {s : State} {d : Nat} {core : Bool} {m : DieMsg} (hup : (s.die d).state = .up) (hq : (s.die d).queue = [])
  (hroom : (s.die d).room core (s.numbered m).blocks = true)

include hup hq hroom

theorem State.askDie_free_out (bench : Option Nat) : (s.askDie d bench core m).out = s.out ++ [.die d (s.numbered m)] := by
  obtain ⟨u, hkept, hu⟩ := State.askDie_free hup hq hroom bench
  have hdie : (u.die d).state = .up := by
    rw [State.die, hkept.rest .spindles rfl]
    exact (congrArg Spindle.state (s.queueDie_die_same d _)).trans hup
  rw [hu, State.grantPort_out hdie, hkept.rest .out rfl]
  rfl

theorem State.askDie_free_xlt (bench : Option Nat) (k : Nat) : ((s.askDie d bench core m).die k).xlt = (s.die k).xlt := by
  obtain ⟨u, hkept, hu⟩ := State.askDie_free hup hq hroom bench
  rw [hu, State.grantPort_xlt, State.die, hkept.rest .spindles rfl]
  exact State.modDie_keeps (by exact fun _ => rfl) s d k

end Free

end Sys2Proof.Machine

/-! ## BAR2, BAR4 and AtomicOp requests of a host (O23; 04 R88, R97–R99, R117; 09 R274–R276; 12 R350, R361, R363; 13 R376) -/

namespace Sys2Proof.Machine

/-! ### The turn of the only access that waits of a function -/

/-- An access of a function waits behind the others. -/
def State.queueBar2 (s : State) (p f : Nat) (i : Bar2Item) : State := { s with bar2Queue := s.bar2Queue ++ [⟨p, f, i, false⟩] }

theorem State.arrive_eq (s : State) (p f : Nat) (i : Bar2Item) :
    s.arrive p f i = (s.queueBar2 p f i).pumpBar2 p f (s.bar2Queue.length + 1) := by
  rw [State.arrive, State.serveQueue]
  exact congrArg _ List.length_append

theorem State.arrive_waits {s : State} {p f : Nat} {i : Bar2Item} (ht : (s.queueBar2 p f i).bar2Turn p f = (false, s.queueBar2 p f i)) :
    s.arrive p f i = s.queueBar2 p f i := by
  rw [State.arrive_eq, State.pumpBar2, ht]

section Alone

variable {s : State} {p f : Nat} (hn : s.bar2Head p f = none)

include hn

theorem State.queueBar2_head (i : Bar2Item) : (s.queueBar2 p f i).bar2Head p f = some ⟨p, f, i, false⟩ := by
  rw [State.bar2Head] at hn
  rw [State.bar2Head, State.queueBar2, List.find?_append, hn]
  simp

theorem State.queueBar2_pop (i : Bar2Item) : (s.queueBar2 p f i).bar2Pop p f = s := by
  have hfree : (⟨p, f, i, false⟩ : Bar2Wait) ∉ s.bar2Queue := fun hm => by simpa using List.find?_eq_none.mp hn _ hm
  rw [State.bar2Pop, State.queueBar2_head hn]
  dsimp only [State.queueBar2]
  rw [List.erase_append_right _ hfree, List.erase_cons_head, List.append_nil]

/-- An access whose turn ends with it served is gone from the queue. -/
theorem State.arrive_served {i : Bar2Item} {t : State} (ht : (s.queueBar2 p f i).bar2Turn p f = (true, t)) (hq : t.bar2Queue = s.bar2Queue) :
    s.arrive p f i = t := by
  have hturn : t.bar2Turn p f = (false, t) := by
    rw [State.bar2Turn, State.bar2Head, hq]
    rw [State.bar2Head] at hn
    rw [hn]
  rw [State.arrive_eq, State.pumpBar2, ht]
  dsimp only
  cases s.bar2Queue.length with
  | zero => rfl
  | succ n => rw [State.pumpBar2, hturn]

theorem State.bar2Turn_read (off n hid : Nat) : (s.queueBar2 p f (.read off n hid)).bar2Turn p f =
    if s.putOpen p f false then (false, s.queueBar2 p f (.read off n hid)) else (s.queueBar2 p f (.read off n hid)).bar2ReadTurn p f off n hid := by
  rw [State.bar2Turn, State.queueBar2_head hn]
  rfl

theorem State.bar2Turn_write (off : Nat) (data : List (Byte × Bool)) (ro : Bool) : (s.queueBar2 p f (.write off data ro)).bar2Turn p f =
    if s.putOpen p f false && !ro then (false, s.queueBar2 p f (.write off data ro))
    else (s.queueBar2 p f (.write off data ro)).bar2WriteTurn p f off data := by
  rw [State.bar2Turn, State.queueBar2_head hn]
  rfl

theorem State.arrive_read_waits (hw : s.putOpen p f false = true) (off n hid : Nat) :
    s.arrive p f (.read off n hid) = s.queueBar2 p f (.read off n hid) :=
  State.arrive_waits (by rw [State.bar2Turn_read hn, if_pos hw])

theorem State.arrive_write_waits (hw : s.putOpen p f false = true) (off : Nat) (data : List (Byte × Bool)) :
    s.arrive p f (.write off data false) = s.queueBar2 p f (.write off data false) :=
  State.arrive_waits (by rw [State.bar2Turn_write hn, if_pos (by simp [hw])])

variable {off b : Nat} (hb : s.bar2Bench p f = some b)

include hb

theorem State.arrive_read_at (hw : s.putOpen p f false = false) {d o : Nat} {c : Bool} (hm : s.bar2Map b off false = .at d o c) (n hid : Nat) :
    s.arrive p f (.read off n hid) = s.bar2ReadAt b p f off n hid d o c := by
  have hb' : (s.queueBar2 p f (.read off n hid)).bar2Bench p f = some b := hb
  have hm' : (s.queueBar2 p f (.read off n hid)).bar2Map b off false = .at d o c := hm
  refine State.arrive_served hn ?_ ((State.bar2ReadAt_kept ..).rest .bar2Queue rfl)
  rw [State.bar2Turn_read hn, if_neg (by simp [hw])]
  simp only [State.bar2ReadTurn, hb', hm', State.queueBar2_pop hn]

theorem State.arrive_read_unmapped (hw : s.putOpen p f false = false) (hm : s.bar2Map b off false = .unmapped) (n hid : Nat) :
    s.arrive p f (.read off n hid) = s.bar2Ones b p f off n hid := by
  have hb' : (s.queueBar2 p f (.read off n hid)).bar2Bench p f = some b := hb
  have hm' : (s.queueBar2 p f (.read off n hid)).bar2Map b off false = .unmapped := hm
  refine State.arrive_served hn ?_ ((State.bar2Ones_kept ..).rest .bar2Queue rfl)
  rw [State.bar2Turn_read hn, if_neg (by simp [hw])]
  simp only [State.bar2ReadTurn, hb', hm', State.queueBar2_pop hn]

variable {data : List (Byte × Bool)} {ro : Bool} (hw : ro = true ∨ s.putOpen p f false = false)

include hw

theorem State.arrive_write_at {d o : Nat} {c : Bool} (hm : s.bar2Map b off true = .at d o c) :
    s.arrive p f (.write off data ro) = s.bar2WriteAt b p f off data d o c := by
  have hb' : (s.queueBar2 p f (.write off data ro)).bar2Bench p f = some b := hb
  have hm' : (s.queueBar2 p f (.write off data ro)).bar2Map b off true = .at d o c := hm
  refine State.arrive_served hn ?_ ((State.bar2WriteAt_kept ..).rest .bar2Queue rfl)
  rw [State.bar2Turn_write hn, if_neg (by obtain h | h := hw <;> simp [h])]
  simp only [State.bar2WriteTurn, hb', hm', State.queueBar2_pop hn]

theorem State.arrive_write_unmapped (hm : s.bar2Map b off true = .unmapped) : s.arrive p f (.write off data ro) = s.bar2Missed b := by
  have hb' : (s.queueBar2 p f (.write off data ro)).bar2Bench p f = some b := hb
  have hm' : (s.queueBar2 p f (.write off data ro)).bar2Map b off true = .unmapped := hm
  refine State.arrive_served hn ?_ rfl
  rw [State.bar2Turn_write hn, if_neg (by obtain h | h := hw <;> simp [h])]
  simp only [State.bar2WriteTurn, hb', hm', State.queueBar2_pop hn]

end Alone

/-! ### What is sent, counted and completed -/

/-- A BAR2 read is among those outstanding and asks its die under its number. -/
theorem State.bar2ReadAt_asks (s : State) (b p f off n hid d o : Nat) (c : Bool) :
    ∃ id u, Kept 0x20002020 { s with bar2Reads := s.bar2Reads ++ [⟨id, d, hid, p, f, n, spaOf d o⟩] } u ∧
      s.bar2ReadAt b p f off n hid d o c = u.askDie d (some b) false (.hubRead id o n) :=
  ⟨_, _, State.bar2Count_kept .., rfl⟩

theorem State.nextPut_congr {s t : State} (hw : t.bar2Writes = s.bar2Writes) (hd : t.spindles = s.spindles) : t.nextPut = s.nextPut := by
  rw [State.nextPut, State.nextPut, State.portPuts, State.portPuts, hw, hd]

/-- A BAR2 write is among those not yet acknowledged and goes to its die under its number. -/
theorem State.bar2WriteAt_asks (s : State) (b p f off : Nat) (data : List (Byte × Bool)) (d o : Nat) (c : Bool) :
    ∃ u a, Kept 0x420002020 s u ∧ u.bar2Writes = s.bar2Writes ++ [⟨s.nextPut, d, p, f, false⟩] ∧
      s.bar2WriteAt b p f off data d o c = u.askDie d a false (.hubWrite (some s.nextPut) o data) := by
  have hkept := s.bar2Count_kept b off c
  have hput : (s.bar2Count b off c).nextPut = s.nextPut := State.nextPut_congr (hkept.rest .bar2Writes rfl) (hkept.rest .spindles rfl)
  refine ⟨{ s.bar2Count b off c with bar2Writes := s.bar2Writes ++ [⟨s.nextPut, d, p, f, false⟩] }, (s.bar2Count b off c).benchOf p f, ?_, rfl, ?_⟩
  · exact Kept.madeBar2Writes rfl (hkept.mono rfl)
  · rw [State.bar2WriteAt, State.sendPut, hput, hkept.rest .bar2Writes rfl]

theorem State.egress_egress_same (s : State) (p f b size capped : Nat) (o : Out) :
    ((s.egress p f b size capped o).port p).egress = (s.port p).egress ++ [⟨f, b, size, capped, false, none, none, o⟩] := by
  rw [State.egress, State.modPort_port_same]

theorem foldl_completions (p f hid : Nat) (status : CplStatus) (l : List (List Byte)) (s : State) :
    ((l.foldl (fun s d => s.egress p f (s.cplPayer p f) d.length 0 (.completion p f hid status d)) s).port p).egress.map EgressTlp.tlp =
      (s.port p).egress.map EgressTlp.tlp ++ l.map (Out.completion p f hid status) := by
  induction l generalizing s with
  | nil => simp
  | cons d l ih =>
    rw [List.foldl_cons, ih, State.egress_egress_same]
    simp

/-- The completions of a request join the queue of its port in order. -/
theorem State.complete_tlps (s : State) (p f hid addr : Nat) (status : CplStatus) (data : List Byte) :
    ((s.complete p f hid addr status data).port p).egress.map EgressTlp.tlp =
      (s.port p).egress.map EgressTlp.tlp ++ (splitCpl (pcieSize (s.port p).mps) data.length addr data).map (Out.completion p f hid status) :=
  foldl_completions ..

theorem State.complete_empty_last (s : State) (p f hid addr : Nat) (status : CplStatus) :
    ((s.complete p f hid addr status []).port p).egress.getLast?.map EgressTlp.tlp = some (.completion p f hid status []) := by
  rw [← List.getLast?_map, State.complete_tlps]
  simp [splitCpl]

section Bench

variable {s : State} {p f off q b : Nat} {data : List (Byte × Bool)} (hb : s.benchOf p f = some b)

include hb

/-- An admitted write enters the peer write buffer (12 R361 Table 6, R363). -/
theorem State.serveBar4Write_admitted (hc : s.classHas b BenchClass.peerAllowed = true) (he : (s.bench b).peer.enable = true)
    (hs : s.benchServes b = true) (ha : (s.bench b).peer.admits q = true) (hst : s.streamAt b off = none)
    (hroom : (s.port p).peerBytes + data.length ≤ 131072) (hstall : s.peerStalled p = false) (ro : Bool) :
    s.serveBar4Write p f off q data false ro = (s.modPeer b fun x => { x with buffered := x.buffered ++ [(off, data, ro)] }).modPort p fun x =>
      { x with peerBytes := x.peerBytes + data.length } := by
  rw [State.serveBar4Write, hb]
  dsimp only
  rw [if_neg (by simp [hc]), if_neg (by simp [he, hs]), if_neg (by simp [ha]), if_neg Bool.false_ne_true, if_neg (by simp [hst]),
    if_pos ⟨hroom, by simp [hstall]⟩]

theorem State.serveBar4Write_dropped (hc : s.classHas b BenchClass.peerAllowed = false ∨ (s.bench b).peer.enable = false) (poisoned ro : Bool) :
    s.serveBar4Write p f off q data poisoned ro = s.count b fun c => { c with peerDrop := c.peerDrop + 1 } := by
  rw [State.serveBar4Write, hb]
  dsimp only
  by_cases hclass : s.classHas b BenchClass.peerAllowed = true
  · rw [if_neg (not_not_intro hclass), if_pos (.inl (by simp [hc.resolve_left (by simp [hclass])]))]
  · rw [if_pos hclass]

end Bench

/-- The arrival of data at a port changes the performance counters only. -/
theorem State.portIn_eq (s : State) (p n : Nat) : ∃ v, s.portIn p n = { s with perf := v } := by
  rw [State.portIn, State.countPerf]
  split_ifs
  · exact ⟨s.perf, rfl⟩
  · exact ⟨_, rfl⟩

/-! ### The rows -/

section Decodes

variable {s : State} {p f off : Nat} (hd : s.decodes p f = true)

include hd

theorem exec_bar4Read_bound {b : Nat} (hb : s.benchOf p f = some b) (hid : Nat) : exec (.bar4Read p f hid) s = .next
    (((s.aer p f .unsupportedRequest).complete p f hid 0 .unsupportedRequest []).count b fun c => { c with peerErr := c.peerErr + 1 }) := by
  have hbench : ((s.aer p f .unsupportedRequest).complete p f hid 0 .unsupportedRequest []).benchOf p f = some b := by
    rw [State.benchOf, (State.complete_kept ..).rest .benches rfl, (State.aer_kept ..).rest .benches rfl]
    exact hb
  rw [exec_bar4Read, execBar4Read, if_neg (by simp [hd])]
  dsimp only
  rw [hbench]

theorem exec_atomicop_decoded (k hid : Nat) : exec (.atomicop p f k hid) s = .next
    ((s.aer p f .unsupportedRequest).complete p f hid 0 .unsupportedRequest []) := by
  rw [exec_atomicop, execAtomicop, if_neg (by simp [hd])]

variable (hon : s.domainOn 7 = true)

include hon

theorem exec_bar2Read_on {n : Nat} (hn : off + n ≤ 2 ^ 36) (hid : Nat) :
    exec (.bar2Read p f off n hid) s = .next (s.arrive p f (.read off n hid)) := by
  rw [exec_bar2Read, execBar2Read, if_neg (not_or.mpr ⟨not_not_intro hd, Nat.not_lt.mpr hn⟩), State.atBar2, State.atDomain_on hon]
  rfl

theorem exec_bar2Write_on {data : List (Byte × Bool)} (hn : off + data.length ≤ 2 ^ 36) (poisoned ro : Bool) :
    exec (.bar2Write p f off data poisoned ro) s = .next ((s.portIn p data.length).serveBar2Write p f off data poisoned ro) := by
  rw [exec_bar2Write, execBar2Write, if_neg (not_or.mpr ⟨not_not_intro hd, Nat.not_lt.mpr hn⟩), State.atBar2,
    State.atDomain_on ((State.portIn_domainOn ..).trans hon)]

theorem exec_bar4Write_on {data : List (Byte × Bool)} (hn : off + data.length ≤ 2 ^ 34) (q : Nat) (poisoned ro : Bool) :
    exec (.bar4Write p f off q data poisoned ro) s = .next ((s.portIn p data.length).serveBar4Write p f off q data poisoned ro) := by
  rw [exec_bar4Write, execBar4Write, if_neg (not_or.mpr ⟨not_not_intro hd, Nat.not_lt.mpr hn⟩), State.atBar2,
    State.atDomain_on ((State.portIn_domainOn ..).trans hon)]

theorem exec_bar2Write_arrives {data : List (Byte × Bool)} (hn : off + data.length ≤ 2 ^ 36) (ro : Bool) :
    ∃ v, exec (.bar2Write p f off data false ro) s = .next ({ s with perf := v }.arrive p f (.write off data ro)) := by
  obtain ⟨v, hv⟩ := s.portIn_eq p data.length
  exact ⟨v, by rw [exec_bar2Write_on hd hon hn, hv]; rfl⟩

end Decodes

theorem exec_notDecoded {s : State} {c : Instr} {p f off n hid q : Nat} {data : List (Byte × Bool)} {po ro : Bool} (hd : s.decodes p f = false)
    (hc : c = .bar2Read p f off n hid ∨ c = .bar2Write p f off data po ro ∨ c = .bar4Write p f off q data po ro ∨ c = .bar4Read p f hid ∨
      c = .atomicop p f n hid) : exec c s = .next s := by
  have hnot : ¬s.decodes p f = true := by simp [hd]
  obtain rfl | rfl | rfl | rfl | rfl := hc
  · exact if_pos (.inl hnot)
  · exact if_pos (.inl hnot)
  · exact if_pos (.inl hnot)
  · exact if_pos hnot
  · exact if_pos hnot

/-! ### The statement -/

/-- Settles O23: each access at its turn, a free port's request sent at once, and the rows that are refused. -/
theorem hostMemoryAccess : Obligations.HostMemoryAccess := by
  unfold Obligations.HostMemoryAccess
  refine ⟨?readSent, ?readQueued, ?readWaits, ?readOnes, ?writeSent, ?writeWaits, ?writeMissed, ?poisoned, ?peerBuffered, ?peerDropped,
    ?bar4Read, ?atomicop, ?notDecoded⟩
  case readSent =>
    intro s p f off n hid b d o c hd hon hh hw hn hb hm hup hq hroom
    refine ⟨_, exec_bar2Read_on hd hon hn hid, ?_⟩
    obtain ⟨id, u, hkept, hu⟩ := s.bar2ReadAt_asks b p f off n hid d o c
    rw [State.arrive_read_at hh hb hw hm, hu]
    have hdie : u.die d = s.die d := by rw [State.die, hkept.rest .spindles rfl]; rfl
    have hask := State.askDie_kept u d (some b) false (.hubRead id o n)
    have hreads : (u.askDie d (some b) false (.hubRead id o n)).bar2Reads = s.bar2Reads ++ [⟨id, d, hid, p, f, n, spaOf d o⟩] :=
      (hask.rest .bar2Reads rfl).trans (hkept.rest .bar2Reads rfl)
    rw [hreads, State.askDie_free_out (by rw [hdie]; exact hup) (by rw [hdie]; exact hq) (by rw [hdie]; exact hroom), hkept.rest .out rfl]
    refine ⟨by simp, by simp, by simp [State.numbered], ?_, ?_⟩
    · exact (hask.rest .ports rfl).trans (hkept.rest .ports rfl)
    · exact (hask.rest .bar2Queue rfl).trans (hkept.rest .bar2Queue rfl)
  case readQueued =>
    intro s p f off n hid b d o c hd hon hh hw hn hb hm hdown
    refine ⟨_, exec_bar2Read_on hd hon hn hid, ?_⟩
    obtain ⟨id, u, hkept, hu⟩ := s.bar2ReadAt_asks b p f off n hid d o c
    have hdie : u.die d = s.die d := by rw [State.die, hkept.rest .spindles rfl]; rfl
    rw [State.arrive_read_at hh hb hw hm, hu, State.askDie_notUp (by rw [hdie]; exact hdown), State.queueDie_die_same, hdie]
    refine ⟨?_, by simp, hkept.rest .out rfl, hkept.rest .ports rfl⟩
    exact (congrArg List.length (hkept.rest .bar2Reads rfl)).trans List.length_append
  case readWaits =>
    intro s p f off n hid hd hon hh hw hn
    exact ⟨_, exec_bar2Read_on hd hon hn hid, State.arrive_read_waits hh hw off n hid⟩
  case readOnes =>
    intro s p f off n hid b hd hon hh hw hn hb hm
    refine ⟨_, exec_bar2Read_on hd hon hn hid, ?_⟩
    rw [State.arrive_read_unmapped hh hb hw hm, State.bar2Ones]
    have hkept := (s.bar2Missed b).complete_kept p f hid off .ok (List.replicate n 0xFF)
    refine ⟨?_, ?_, hkept.rest .out rfl⟩
    · rw [State.bench, hkept.rest .benches rfl]
      exact congrArg (fun x : Bench => x.counters.bar2Miss) (s.modBench_bench_same b _)
    · rw [State.complete_tlps, List.length_replicate]
      rfl
  case writeSent =>
    intro s p f off b d o data c ro hd hon hh hw hn hb hm hup hq hroom
    obtain ⟨v, hv⟩ := exec_bar2Write_arrives hd hon hn ro
    refine ⟨_, hv, ?_⟩
    obtain ⟨u, a, hkept, hwrites, hu⟩ := State.bar2WriteAt_asks { s with perf := v } b p f off data d o c
    have hnext : { s with perf := v }.nextPut = s.nextPut := rfl
    have hdie : u.die d = s.die d := by rw [State.die, hkept.rest .spindles rfl]; rfl
    rw [hnext] at hu hwrites
    have hask := State.askDie_kept u d a false (.hubWrite (some s.nextPut) o data)
    rw [State.arrive_write_at (s := { s with perf := v }) hh hb hw hm, hu,
      State.askDie_free_out (by rw [hdie]; exact hup) (by rw [hdie]; exact hq) (by rw [hdie]; exact hroom), hkept.rest .out rfl]
    refine ⟨rfl, (hask.rest .bar2Writes rfl).trans hwrites, (hask.rest .ports rfl).trans (hkept.rest .ports rfl),
      (hask.rest .bar2Reads rfl).trans (hkept.rest .bar2Reads rfl)⟩
  case writeWaits =>
    intro s p f off data hd hon hh hw hn
    obtain ⟨v, hv⟩ := exec_bar2Write_arrives hd hon hn false
    refine ⟨_, hv, ?_⟩
    rw [State.arrive_write_waits (s := { s with perf := v }) hh hw]
    exact ⟨rfl, rfl, rfl⟩
  case writeMissed =>
    intro s p f off b data ro hd hon hh hw hn hb hm
    obtain ⟨v, hv⟩ := exec_bar2Write_arrives hd hon hn ro
    refine ⟨_, hv, ?_⟩
    rw [State.arrive_write_unmapped (s := { s with perf := v }) hh hb hw hm]
    exact ⟨congrArg (fun x : Bench => x.counters.bar2Miss) (State.modBench_bench_same { s with perf := v } b _), rfl⟩
  case poisoned =>
    intro s p f off data ro hd hon hn
    exact exec_bar2Write_on hd hon hn true ro
  case peerBuffered =>
    intro s p f off q b data ro hn hd hon hb hs hc he ha hst hroom hstall
    obtain ⟨v, hv⟩ := s.portIn_eq p data.length
    refine ⟨_, exec_bar4Write_on hd hon hn q false ro, ?_⟩
    rw [hv, State.serveBar4Write_admitted (s := { s with perf := v }) hb hc he hs ha hst hroom hstall]
    refine ⟨?_, ?_, rfl⟩
    · exact congrArg Bench.peer (State.modBench_bench_same { s with perf := v } b fun x =>
        { x with peer := { x.peer with buffered := x.peer.buffered ++ [(off, data, ro)] } })
    · exact congrArg Port.peerBytes (State.modPort_port_same _ p fun x => { x with peerBytes := x.peerBytes + data.length })
  case peerDropped =>
    intro s p f off q b data poisoned ro hn hd hon hb hc
    obtain ⟨v, hv⟩ := s.portIn_eq p data.length
    refine ⟨_, exec_bar4Write_on hd hon hn q poisoned ro, ?_⟩
    rw [hv, State.serveBar4Write_dropped (s := { s with perf := v }) hb hc, State.count, State.modBench_bench_same]
    exact ⟨rfl, rfl, rfl⟩
  case bar4Read =>
    intro s p f hid b hd hb
    refine ⟨_, exec_bar4Read_bound hd hb hid, ?_, ?_, State.complete_empty_last (s.aer p f .unsupportedRequest) p f hid 0 _⟩
    · rw [State.count, State.modBench_bench_same, State.bench, (State.complete_kept ..).rest .benches rfl, (State.aer_kept ..).rest .benches rfl]
      rfl
    · rw [State.count, State.modBench_at_fnAt, State.fnAt, (State.complete_kept ..).rest .fns rfl]
      exact State.aer_aer ..
  case atomicop =>
    intro s p f k hid hd
    refine ⟨_, exec_atomicop_decoded hd k hid, ?_, State.complete_empty_last .., ?_⟩
    · rw [State.fnAt, (State.complete_kept ..).rest .fns rfl]
      exact State.aer_aer ..
    · exact ((State.complete_kept ..).rest .benches rfl).trans ((State.aer_kept ..).rest .benches rfl)
  case notDecoded => exact fun s c p f off n hid q data po ro hd hc => exec_notDecoded hd hc

end Sys2Proof.Machine

/-! ## Egress, completions and translations of a port (O24; 04 R102–R105, R107–R109; 10 R286, R288; 11 R323) -/

namespace Sys2Proof.Machine

/-! ### Egress (04 R103) -/

theorem firstOfFns_sub {l : List EgressTlp} {seen : List Nat} {x : EgressTlp} (h : x ∈ firstOfFns l seen) : x ∈ l := by
  induction l generalizing seen with
  | nil => exact h
  | cons t r ih =>
    rw [firstOfFns] at h
    split at h
    · exact List.mem_cons_of_mem _ (ih h)
    · exact (List.mem_cons.mp h).elim (fun e => e ▸ List.mem_cons_self) fun h => List.mem_cons_of_mem _ (ih h)

theorem firstOfFns_one (x : EgressTlp) : firstOfFns [x] [] = [x] := rfl

theorem exec_egressGrant_none {s : State} {p : Nat} (h : ∀ x ∈ (s.port p).egress, s.tlpReady p x = false) :
    exec (.egressGrant p) s = .next (s.arbitrate (arbEgress p) []).2 := by
  have hheads : (firstOfFns (s.port p).egress []).filter (s.tlpReady p) = [] :=
    List.filter_eq_nil_iff.mpr fun x hx => by simp [h x (firstOfFns_sub hx)]
  rw [exec_egressGrant, execEgressGrant, hheads]
  rfl

/-- The one TLP of a port is granted: its bench charged, its queue empty. -/
def State.egressGranted (s : State) (p : Nat) (x : EgressTlp) : State :=
  let s := (s.arbitrate (arbEgress p) [x.payer]).2
  let s := s.charge (arbEgress p) x.payer x.size (s.qosOf x.payer).egressWeight
  let s := if x.capped = 0 then s else s.rateCharge x.bench x.capped
  s.modPort p fun q => { q with egress := q.egress.erase x }

theorem State.egressGranted_out (s : State) (p : Nat) (x : EgressTlp) : (s.egressGranted p x).out = s.out := by
  rw [State.egressGranted]
  split_ifs <;> rfl

theorem State.egressGranted_port {s : State} {p : Nat} {x : EgressTlp} (he : (s.port p).egress = [x]) :
    (s.egressGranted p x).port p = { s.port p with egress := [] } := by
  have herase : (s.port p).egress.erase x = [] := by rw [he, List.erase_cons_head]
  rw [State.egressGranted]
  dsimp only
  rw [State.modPort_port_same, ← herase]
  split_ifs <;> rfl

theorem exec_egressGrant_one {s : State} {p : Nat} {x : EgressTlp} (he : (s.port p).egress = [x]) (hr : s.tlpReady p x = true)
    (hn : x.notice ≠ some true) : exec (.egressGrant p) s =
      .next ((((s.egressGranted p x).tagOut p x).2.countPerf (32 + 4 * p) x.tlp.hostBytes).emit ((s.egressGranted p x).tagOut p x).1) := by
  have hheads : (firstOfFns (s.port p).egress []).filter (s.tlpReady p) = [x] := by
    rw [he, firstOfFns_one, List.filter_cons_of_pos hr, List.filter_nil]
  have harb : s.arbitrate (arbEgress p) ([x].map EgressTlp.payer).eraseDups = (some x.payer, (s.arbitrate (arbEgress p) [x.payer]).2) := rfl
  have hfind : [x].find? (fun t => t.payer == x.payer) = some x := by simp
  rw [exec_egressGrant, execEgressGrant, hheads]
  dsimp only
  rw [harb]
  dsimp only
  rw [hfind]
  dsimp only
  rw [if_neg hn]
  rfl

theorem State.countPerf_emit_port (s : State) (q n : Nat) (o : Out) (p : Nat) : ((s.countPerf q n).emit o).port p = s.port p :=
  congrArg (fun x : Tab Port => tabGet x .reset p) ((s.countPerf_kept q n).rest .ports rfl)

theorem State.tagOut_untagged {x : EgressTlp} (h : x.owner = none) (s : State) (p : Nat) : s.tagOut p x = (x.tlp, s) := by
  rw [State.tagOut, h]

theorem State.tagOut_tagged {s : State} {p n : Nat} {x : EgressTlp} {o : TagOwner} (h : x.owner = some o)
    (hn : lowestTag ((s.port p).tags.map TagUse.tag) (s.port p).tagLimit 0 = some n) :
    s.tagOut p x = (x.tlp.withTag n, s.modPort p fun q => { q with tags := q.tags ++ [⟨n, x.fn, x.bench, o, false⟩] }) := by
  rw [State.tagOut, h]
  dsimp only
  rw [hn]
  rfl

/-! ### Completions (04 R102, R104, R105, R107) -/

theorem State.freeTag_tags (s : State) (p g : Nat) : ((s.freeTag p g).port p).tags = (s.port p).tags.filter fun u => u.tag != g := by
  rw [State.freeTag, State.modPort_port_same]

theorem State.invFlushed_tags (s : State) (p f i : Nat) : ((s.invFlushed p f i).port p).tags = (s.port p).tags := by
  rw [State.invFlushed, State.modPort_port_same]

theorem State.invFlushed_done {s : State} {p f i : Nat} {q : InvRequest} (hq : q ∈ ((s.invFlushed p f i).port p).invalidates)
    (hi : q.itag = i) (hf : q.fn = f) : q.flush = false := by
  rw [State.invFlushed, State.modPort_port_same] at hq
  obtain ⟨y, -, rfl⟩ := List.mem_map.mp hq
  split at hi
  · rw [if_pos (by assumption)]
  · rename_i h
    rw [if_neg h] at hf ⊢
    exact absurd ⟨hi, hf⟩ h

theorem exec_hostCompletion_unused {s : State} {p g : Nat} (h : s.tagUse p g = none) (st : CplStatus) (data : List Byte) :
    exec (.hostCompletion p g st data) s = .next (s.aer p 0 .unexpectedCompletion) := by
  rw [exec_hostCompletion, execHostCompletion, h]

section Used

variable {s : State} {p g : Nat} {u : TagUse} (hu : s.tagUse p g = some u)

include hu

theorem exec_hostCompletion_read {l c n : Nat} (ho : u.owner = .latheRead l c n) (data : List Byte) :
    exec (.hostCompletion p g .ok data) s = .next (((s.portIn p data.length).freeTag p g).deliver l n data) := by
  rw [exec_hostCompletion, execHostCompletion, hu]
  dsimp only
  rw [if_neg (by simp), if_neg (by simp), ho]

theorem exec_hostCompletion_flush {f i : Nat} (ho : u.owner = .invFlush f i) :
    exec (.hostCompletion p g .ok []) s = .next ((s.freeTag p g).invFlushed p f i) := by
  rw [exec_hostCompletion, execHostCompletion, hu]
  dsimp only
  rw [if_neg (by simp), if_neg (by simp), ho]
  rfl

theorem exec_completionTimeout_used :
    exec (.completionTimeout p g) s = .next ((s.aer p u.fn .completionTimeout).failTag p u 0x21) := by
  rw [exec_completionTimeout, execCompletionTimeout, hu]

end Used

theorem State.failTag_flush {u : TagUse} {f i : Nat} (ho : u.owner = .invFlush f i) (s : State) (p code : Nat) :
    s.failTag p u code = (s.freeTag p u.tag).invFlushed p f i := by
  rw [State.failTag, ho]

/-! ### Translations (10 R286, R288) -/

theorem State.bench_listed {s : State} {b : Nat} (h : (s.bench b).state ≠ .vacant) : (b, s.bench b) ∈ s.benches :=
  (tabGet_eq_or_mem s.benches .reset b).resolve_left fun hr => h (congrArg Bench.state hr)

theorem State.freeTag_misses (s : State) (p g : Nat) : (s.freeTag p g).headstock.misses = s.headstock.misses := rfl

theorem exec_atsTranslationCompletion_installs {s : State} {p g : Nat} {u : TagUse} {m : Miss} (hu : s.tagUse p g = some u)
    (ho : u.owner = .ats m.id) (hm : s.headstock.misses = [m]) (hs : m.stale = false) (hw : m.waiters = [])
    (hb : (s.bench m.bench).state ≠ .vacant) (size addr : Nat) (w : Bool) :
    exec (.atsTranslationCompletion p g (.translated size addr true w false)) s = .next
      (((s.freeTag p g).endMiss m).install (atsEntry m.bench (pasidTag m.pasid) m.page size addr w) m.prefetchOnly) := by
  have hmiss : (s.freeTag p g).missOf m.id = some m := by
    rw [State.missOf, State.freeTag_misses, hm]
    simp
  have hbenches : ((s.freeTag p g).endMiss m).benches = s.benches := (State.endMiss_kept ..).rest .benches rfl
  have hlive : ¬(((s.freeTag p g).endMiss m).benches.all fun e => e.1 != m.bench || e.2.state == .vacant) = true := by
    rw [hbenches, List.all_eq_true]
    intro hall
    simpa [hb] using hall _ (State.bench_listed hb)
  rw [exec_atsTranslationCompletion, execAtsTranslationCompletion, hu]
  dsimp only
  rw [ho]
  dsimp only
  rw [hmiss]
  dsimp only
  rw [if_neg (by simp [hs]), if_neg Bool.false_ne_true, if_pos ⟨rfl, hlive⟩, hw]
  rfl

/-! ### Invalidate Requests (04 R108; 10 R288) -/

/-- The bench's entries and misses under an Invalidate Request are gone, with nothing taken of its rings. -/
def State.modeSGone (s : State) (b base len : Nat) (pasid : Option Nat) : State :=
  let s := (s.stir 7).dropEntries fun e => e.bench == b && !e.modeD && (pasid.isNone || pasid == some e.pasid) && e.overlaps base len
  { s with headstock := { s.headstock with
    misses := s.headstock.misses.map fun (m : Miss) => if m.askedIn b base len pasid then { m with stale := true } else m } }

theorem State.acceptInvalidate_unbound {s : State} {p f : Nat} (hb : s.benchOf p f = none) (i base len : Nat) (pasid : Option Nat) :
    s.acceptInvalidate p f i base len pasid =
      (s.stir 7).modPort p fun x => { x with invalidates := x.invalidates ++ [⟨f, i, base, len, pasid, [], false⟩] } := by
  have hb' : (s.stir 7).benchOf p f = none := hb
  rw [State.acceptInvalidate]
  dsimp only
  rw [hb']

/-- The flush read that follows the bench's last write by a translation. -/
def State.flushBehind (s : State) (b f i : Nat) : State :=
  match (s.bench b).posted with
  | none => s
  | some a => s.flushRead b (.invFlush f i) true a.toNat

theorem State.acceptInvalidate_noRings {s : State} {p f b : Nat} (hb : s.benchOf p f = some b) (hr : (s.bench b).rings = []) (i base len : Nat)
    (pasid : Option Nat) : s.acceptInvalidate p f i base len pasid = ((s.modeSGone b base len pasid).flushBehind b f i).modPort p fun x =>
      { x with invalidates := x.invalidates ++ [⟨f, i, base, len, pasid, (s.stir 7).underModeS b base len pasid, (s.bench b).posted.isSome⟩] } := by
  have hb' : (s.stir 7).benchOf p f = some b := hb
  have hr' : ((s.stir 7).bench b).rings = [] := hr
  rw [State.acceptInvalidate]
  dsimp only
  rw [hb']
  dsimp only
  rw [hr', List.filter_nil, List.foldl_nil, List.foldl_nil]
  rfl

theorem State.flushBehind_none {s : State} {b : Nat} (h : (s.bench b).posted = none) (f i : Nat) : s.flushBehind b f i = s := by
  rw [State.flushBehind, h]

theorem State.flushBehind_some {s : State} {b : Nat} {a : BitVec 64} (h : (s.bench b).posted = some a) (f i : Nat) :
    s.flushBehind b f i = s.flushRead b (.invFlush f i) true a.toNat := by
  rw [State.flushBehind, h]

theorem State.flushRead_owner (s : State) (b : Nat) (o : TagOwner) (t : Bool) (addr : Nat) :
    ((s.flushRead b o t addr).port (s.bench b).port).egress.getLast?.map EgressTlp.owner = some (some o) := by
  rw [State.flushRead, State.egressRead, State.modPort_port_same, List.getLast?_concat]
  rfl

theorem State.flushRead_invalidates (s : State) (b : Nat) (o : TagOwner) (t : Bool) (addr p : Nat) :
    ((s.flushRead b o t addr).port p).invalidates = (s.port p).invalidates := by
  rw [State.flushRead, State.egressRead]
  by_cases hp : p = (s.bench b).port
  · rw [hp, State.modPort_port_same]
  · rw [State.modPort_port_ne _ _ hp]

theorem exec_invalidateRequest_accepted {s : State} {p : Nat} (hi : (s.port p).invalidates = []) (hw : (s.port p).invWaiting = [])
    (f i base len : Nat) (pasid : Option Nat) :
    exec (.invalidateRequest p f i base len pasid) s = .next (s.acceptInvalidate p f i base len pasid) := by
  rw [exec_invalidateRequest, execInvalidateRequest]
  exact congrArg _ (if_pos (by simp [Port.invRoom, hi, hw]))

theorem exec_invalidateRequest_waits {s : State} {p f : Nat} (h : (s.port p).invRoom f = false ∨ (s.port p).invWaiting ≠ [])
    (i base len : Nat) (pasid : Option Nat) : exec (.invalidateRequest p f i base len pasid) s =
      .next (s.modPort p fun x => { x with invWaiting := x.invWaiting ++ [(f, i, base, len, pasid)] }) := by
  rw [exec_invalidateRequest, execInvalidateRequest]
  refine congrArg _ (if_neg ?_)
  rintro ⟨hw, hroom⟩
  obtain h | h := h
  · exact Bool.false_ne_true (h.symm.trans hroom)
  · exact h (List.isEmpty_iff.mp hw)

section Completion

variable {s : State} {p f i : Nat} {q : InvRequest} (hq : (s.port p).invalidates = [q]) (hf : q.fn = f) (hi : q.itag = i)

include hq hf hi

theorem exec_invalidateCompletion_blocked (hflush : q.flush = true) : exec (.invalidateCompletion p f i) s = .next s := by
  have hfind : [q].find? (fun q => q.fn == f && q.itag == i) = some q := by simp [hf, hi]
  rw [exec_invalidateCompletion, execInvalidateCompletion, hq, hfind]
  exact if_pos (.inl hflush)

theorem exec_invalidateCompletion_sent (hflush : q.flush = false) (hbar : q.barrier = []) (hw : (s.port p).invWaiting = []) :
    exec (.invalidateCompletion p f i) s = .next ((s.modPort p fun x => { x with invalidates := x.invalidates.erase q }).egress p f
      ((s.benchOf p f).getD 256) 4 0 (.invCompletion p f i)) := by
  have hfind : [q].find? (fun q => q.fn == f && q.itag == i) = some q := by simp [hf, hi]
  have hwait : (((s.modPort p fun x => { x with invalidates := x.invalidates.erase q }).egress p f
      ((s.benchOf p f).getD 256) 4 0 (.invCompletion p f i)).port p).invWaiting = [] := by
    rw [State.egress, State.modPort_port_same, State.modPort_port_same]
    exact hw
  rw [exec_invalidateCompletion, execInvalidateCompletion, hq, hfind]
  dsimp only
  rw [if_neg (by simp [hflush, hbar]), hwait]
  rfl

end Completion

/-! ### Page responses (04 R109; 11 R323) -/

theorem State.pumpPri_idle {s : State} (h : ∀ e ∈ s.headstock.faults, ∀ y, e.2 = some y → y.state ≠ .posted) (p : Nat) : s.pumpPri p = s := by
  have hnone : (s.headstock.faults.filter fun e => (e.2.map fun f => !f.modeD && f.state == .posted && (s.bench f.bench).port == p).getD false) = [] := by
    refine List.filter_eq_nil_iff.mpr fun e he => ?_
    cases hy : e.2 with
    | none => simp
    | some y => simp [h e he y hy]
  rw [State.pumpPri, hnone, List.foldl_nil]

@[simp] theorem State.countPerf_headstock (s : State) (q n : Nat) : (s.countPerf q n).headstock = s.headstock :=
  (s.countPerf_kept q n).rest .headstock rfl

/-- A request of the Headstock leaves faults and page requests alone. -/
theorem State.request_faults (s : State) (b : Nat) (d : Bool) (pasid : Option Nat) (va : Nat) (write : Bool) (w : Waiter) :
    (s.request b d pasid va write w).headstock.faults = s.headstock.faults ∧
      (s.request b d pasid va write w).headstock.pageReqs = s.headstock.pageReqs := by
  rw [State.request]
  dsimp only
  split_ifs <;> simp

/-- The page request of a group is answered. -/
def State.answerPage (s : State) : State := { s with headstock := { s.headstock with pageReqs := [] } }

theorem State.setFault_faults_some (s : State) (i : Nat) (y : FaultRec) :
    (s.setFault i (some y)).headstock.faults = tabSet i (some y) s.headstock.faults := by
  rw [State.setFault, tabPut, if_neg (by simp)]

/-- A retried fault asks for its translation again. -/
def State.retranslate (s : State) (i : Nat) (x : FaultRec) : State :=
  (s.setFault i (some { x with successes := x.successes + 1, state := .retrying })).request
    x.bench false (some x.pasid) x.va.toNat x.write (.retry i)

theorem State.retranslate_faults (s : State) (i : Nat) (x : FaultRec) :
    (s.retranslate i x).headstock.faults = tabSet i (some { x with successes := x.successes + 1, state := .retrying }) s.headstock.faults :=
  (State.request_faults ..).1.trans (State.setFault_faults_some ..)

theorem State.retranslate_pageReqs (s : State) (i : Nat) (x : FaultRec) : (s.retranslate i x).headstock.pageReqs = s.headstock.pageReqs :=
  (State.request_faults ..).2

theorem exec_priResponse_success {s : State} {p f g i : Nat} {x : FaultRec} (hq : s.headstock.pageReqs = [⟨p, f, g, some i⟩])
    (hx : s.fault i = some x) (hs : x.state = .priSent) :
    exec (.priResponse p f g .success) s = .next ((s.answerPage.retranslate i x).pumpPri p) := by
  have hx' : s.answerPage.fault i = some x := hx
  have hfind : [(⟨p, f, g, some i⟩ : PageRequest)].find? (fun q => q.port == p && q.fn == f && q.group == g) = some ⟨p, f, g, some i⟩ := by simp
  have herase : { s with headstock := { s.headstock with pageReqs := s.headstock.pageReqs.erase ⟨p, f, g, some i⟩ } } = s.answerPage := by
    rw [hq, List.erase_cons_head]; rfl
  rw [exec_priResponse, execPriResponse, hq, hfind, ← hq]
  dsimp only
  rw [herase, if_neg (by simp), hx']
  dsimp only
  rw [if_neg (not_not_intro hs), if_pos rfl]
  rfl

theorem exec_priResponse_failure {s : State} {p f g : Nat} (hq : s.headstock.pageReqs = [⟨p, f, g, none⟩]) :
    exec (.priResponse p f g .responseFailure) s = .next ((s.answerPage.modFn p f fun x => { x with priFailure := true }).pumpPri p) := by
  have hfind : [(⟨p, f, g, none⟩ : PageRequest)].find? (fun q => q.port == p && q.fn == f && q.group == g) = some ⟨p, f, g, none⟩ := by simp
  have herase : { s with headstock := { s.headstock with pageReqs := s.headstock.pageReqs.erase ⟨p, f, g, none⟩ } } = s.answerPage := by
    rw [hq, List.erase_cons_head]; rfl
  rw [exec_priResponse, execPriResponse, hq, hfind, ← hq]
  dsimp only
  rw [herase, if_pos rfl]

/-! ### The statement -/

/-- Settles O24: each row on the one TLP, tag, miss, Invalidate Request or page request that it meets. -/
theorem portTraffic : Obligations.PortTraffic := by
  unfold Obligations.PortTraffic
  refine ⟨?grantPosted, ?grantTagged, ?grantNone, ?unexpected, ?readData, ?flushEnds, ?timeout, ?timeoutFlush, ?translated, ?accepted, ?acceptedUnbound,
    ?acceptedFlush, ?kept, ?completed, ?blocked, ?success, ?failure⟩
  case grantPosted =>
    intro s p x he hr ho hn
    refine ⟨_, exec_egressGrant_one he hr hn, ?_⟩
    rw [State.tagOut_untagged ho]
    rw [State.emit_out, State.countPerf_out, State.egressGranted_out, State.countPerf_emit_port, State.egressGranted_port he]
    exact ⟨rfl, rfl⟩
  case grantTagged =>
    intro s p n x o he hr ho hn hfree
    refine ⟨_, exec_egressGrant_one he hr (by simp [hn]), ?_⟩
    have htag : lowestTag (((s.egressGranted p x).port p).tags.map TagUse.tag) ((s.egressGranted p x).port p).tagLimit 0 = some n := by
      rw [State.egressGranted_port he]; exact hfree
    rw [State.tagOut_tagged ho htag, State.emit_out, State.countPerf_out, State.countPerf_emit_port, State.modPort_port_same,
      State.egressGranted_port he, State.modPort_out, State.egressGranted_out]
    exact ⟨rfl, rfl, rfl⟩
  case grantNone =>
    intro s p h
    exact ⟨_, exec_egressGrant_none h, rfl, rfl⟩
  case unexpected => exact fun s p g st data h => exec_hostCompletion_unused h st data
  case readData => exact fun s p g l c n u data hu ho => exec_hostCompletion_read hu ho data
  case flushEnds =>
    intro s p g f i u hu ho
    refine ⟨_, exec_hostCompletion_flush hu ho, ?_, fun q hq hi hf => State.invFlushed_done hq hi hf⟩
    rw [State.invFlushed_tags, State.freeTag_tags]
  case timeout => exact fun s p g u hu => exec_completionTimeout_used hu
  case timeoutFlush =>
    intro s p g f i u hu hg ho
    refine ⟨_, exec_completionTimeout_used hu, ?_⟩
    rw [State.failTag_flush ho, State.invFlushed_tags, State.freeTag_tags, hg]
    exact ⟨State.aer_aer .., rfl⟩
  case translated => exact fun s p g size addr w u m hu ho hm hs hw hb => exec_atsTranslationCompletion_installs hu ho hm hs hw hb size addr w
  case accepted =>
    intro s p f i base len b pasid hi hw hb hr hp
    refine ⟨_, exec_invalidateRequest_accepted hi hw f i base len pasid, ?_⟩
    rw [State.acceptInvalidate_noRings hb hr, State.flushBehind_none (s := s.modeSGone b base len pasid) hp]
    refine ⟨rfl, ?_⟩
    have hnone : ((s.modeSGone b base len pasid).port p).invalidates = [] := hi
    rw [State.modPort_port_same, hnone, hp]
    rfl
  case acceptedUnbound =>
    intro s p f i base len pasid hi hw hb
    rw [exec_invalidateRequest_accepted hi hw, State.acceptInvalidate_unbound hb]
  case acceptedFlush =>
    intro s p f i base len b pasid a hi hw hb hport hr hp
    refine ⟨_, exec_invalidateRequest_accepted hi hw f i base len pasid, ?_⟩
    have hnone : ((s.modeSGone b base len pasid).port p).invalidates = [] := hi
    have howner := (s.modeSGone b base len pasid).flushRead_owner b (.invFlush f i) true a.toNat
    have hport' : ((s.modeSGone b base len pasid).bench b).port = p := hport
    rw [hport'] at howner
    rw [State.acceptInvalidate_noRings hb hr, State.flushBehind_some (s := s.modeSGone b base len pasid) hp, State.modPort_port_same,
      State.flushRead_invalidates, hnone, hp]
    exact ⟨rfl, howner⟩
  case kept => exact fun s p f i base len pasid h => exec_invalidateRequest_waits h i base len pasid
  case completed =>
    intro s p f i q hq hf hi hflush hbar hw
    refine ⟨_, exec_invalidateCompletion_sent hq hf hi hflush hbar hw, ?_, State.egress_last ..⟩
    rw [State.egress, State.modPort_port_same, State.modPort_port_same, hq, List.erase_cons_head]
  case blocked => exact fun s p f i q hq hf hi hflush => exec_invalidateCompletion_blocked hq hf hi hflush
  case success =>
    intro s p f g i x hq hx hs hidle
    refine ⟨_, exec_priResponse_success hq hx hs, ?_⟩
    have hfaults := s.answerPage.retranslate_faults i x
    rw [State.pumpPri_idle]
    · refine ⟨State.retranslate_pageReqs .., ?_, (State.request_kept ..).rest .fns rfl⟩
      rw [State.fault, hfaults, tabGet_tabSet_same]
      rfl
    · intro e he y hy
      rw [hfaults] at he
      obtain rfl | he := mem_tabSet he
      · obtain rfl := Option.some.inj hy
        simp
      · exact hidle e he y hy
  case failure => exact fun s p f g hq => exec_priResponse_failure hq

end Sys2Proof.Machine

/-! ## Requests of cores (O54; 05 R126; 13 R370, R371, R377, R378, R380, R381) -/

namespace Sys2Proof.Machine

/-! ### Messages to dies and hubs -/

theorem State.countPerf_eq (s : State) (q n : Nat) : ∃ v, s.countPerf q n = { s with perf := v } := by
  rw [State.countPerf]
  split_ifs
  · exact ⟨s.perf, rfl⟩
  · exact ⟨_, rfl⟩

theorem State.sendHub_routed {s : State} {h : Nat} (hr : s.routed h = true) (m : EnvanMsg) : (s.sendHub h m).out = s.out ++ [.envan h m] := by
  rw [State.sendHub, if_neg (by simp [hr]), State.emit_out]
  split
  · rw [State.countPerf_out]
  · rfl

@[simp] theorem State.sendHub_at_die (s : State) (h : Nat) (m : EnvanMsg) (d : Nat) : (s.sendHub h m).die d = s.die d :=
  congrArg (fun x : Tab Spindle => tabGet x .reset d) ((s.sendHub_kept h m).rest .spindles rfl)

theorem State.foldl_xlt {α : Type} {f : State → α → State} {d : Nat} (h : ∀ s x, ((f s x).die d).xlt = (s.die d).xlt) (l : List α) (s : State) :
    ((l.foldl f s).die d).xlt = (s.die d).xlt :=
  List.foldlRecOn (motive := fun t : State => (t.die d).xlt = (s.die d).xlt) l f rfl fun t ht x _ => (h t x).trans ht

theorem State.freezeHere_xlt (s : State) (p : Placement) (d : Nat) : ((s.freezeHere p).die d).xlt = (s.die d).xlt := by
  rw [State.freezeHere]
  split_ifs
  · rfl
  · exact State.foldl_xlt (fun s e => State.sendDie_xlt s e _ d) _ _

theorem State.freezeAll_xlt (s : State) (p : Placement) (d : Nat) : ((s.freezeAll p).die d).xlt = (s.die d).xlt := by
  rw [State.freezeAll]
  split_ifs
  · exact s.freezeHere_xlt p d
  · rw [State.foldl_xlt (by simp), State.freezeHere_xlt]

/-- A hold sends messages to dies and hubs; the core requests outstanding stay. -/
theorem State.holdBench_xlt (s : State) (b d : Nat) : ((s.holdBench b).die d).xlt = (s.die d).xlt := by
  rw [State.holdBench]
  refine State.foldl_xlt (fun s p => ?_) _ s
  split_ifs
  · exact s.freezeAll_xlt p d
  · exact State.foldl_xlt (by simp) _ s

/-! ### Hold causes (05 R126) -/

theorem State.modBench_keeps {α : Type} {f : Bench → Bench} {g : Bench → α} (h : ∀ x, g (f x) = g x) (s : State) (b c : Nat) :
    g ((s.modBench b f).bench c) = g (s.bench c) := by
  by_cases hc : c = b
  · rw [hc, State.modBench_bench_same, h]
  · rw [State.modBench_bench_ne s f hc]

/-- State and hold cause of a bench. -/
def Bench.hold (x : Bench) : BenchState × BitVec 2 := (x.state, x.holdCause)

@[simp] theorem State.wakeHost_bench (s : State) (b c : Nat) : (s.wakeHost b).bench c = s.bench c :=
  congrArg (fun x : Tab Bench => tabGet x .reset c) ((s.wakeHost_kept b).rest .benches rfl)

theorem State.notice_hold (s : State) (b type cause ring : Nat) (a0 : BitVec 64) (a1 : BitVec 32) (subject c : Nat) :
    ((s.notice b type cause ring a0 a1 subject).bench c).hold = (s.bench c).hold := by
  rw [State.notice]
  split_ifs
  · rfl
  · refine (State.modBench_keeps (g := Bench.hold) ?_ _ b c).trans (congrArg Bench.hold (s.wakeHost_bench b c))
    intro x
    dsimp only
    split_ifs <;> rfl

@[simp] theorem State.notice_at_die (s : State) (b type cause ring : Nat) (a0 : BitVec 64) (a1 : BitVec 32) (subject d : Nat) :
    (s.notice b type cause ring a0 a1 subject).die d = s.die d :=
  congrArg (fun x : Tab Spindle => tabGet x .reset d) ((State.notice_kept ..).rest .spindles rfl)

/-- A cause HOLDS an ACTIVE bench. -/
theorem State.holdFor_active {s : State} {b : Nat} (h : (s.bench b).state = .active) (cause : Nat) (a : BitVec 64) (c : BitVec 32) :
    ((s.holdFor b cause a c).bench b).hold = (.held, BitVec.ofNat 2 cause) ∧ ∀ d, ((s.holdFor b cause a c).die d).xlt = (s.die d).xlt := by
  rw [State.holdFor, h]
  dsimp only
  split_ifs
  · rw [State.notice_hold, State.holdBench_bench, State.modBench_bench_same]
    exact ⟨rfl, fun d => by rw [State.notice_at_die, State.holdBench_xlt]; rfl⟩
  · rw [State.notice_hold, State.notice_hold, State.holdBench_bench, State.modBench_bench_same]
    exact ⟨rfl, fun d => by rw [State.notice_at_die, State.notice_at_die, State.holdBench_xlt]; rfl⟩

theorem State.coreCause_here {o : Nat} (ho : o < 256) (s : State) (cause : Nat) (a : BitVec 64) (c : BitVec 32) :
    s.coreCause o cause a c = s.holdFor o cause a c := by
  rw [State.coreCause, if_pos ho]

theorem State.coreCause_guest {s : State} {o : Nat} {x : Guest} (ho : 256 ≤ o) (hx : s.guest (o - 256) = some x) (cause : Nat) (a : BitVec 64)
    (c : BitVec 32) : s.coreCause o cause a c = s.sendHub x.home (.coreCause x.bench x.incarn cause a c) := by
  rw [State.coreCause, if_neg (Nat.not_lt.mpr ho), hx]

/-! ### Core requests (13 R370, R377) -/

/-- A core request takes its credits. -/
def State.xltTaken (s : State) (d i o : Nat) (w : Bool) (t : Nat) : State :=
  s.modDie d fun x => { x with xlt := x.xlt ++ [⟨d, i, o, if w then 1 else 0, w, t, false⟩] }

/-- The lookup of a core request that names a DVA counts as a use. -/
def State.xltUsing (s : State) (o : Nat) (g : XltTarget) : State :=
  match g with
  | .dva va => s.useEntry o true 0 va
  | .coord _ _ _ _ => s

/-- The DVA that a request of a core names, 0 of a coordinate. -/
def xltAddr : XltTarget → Nat
  | .dva a => a
  | .coord _ _ _ _ => 0

/-- A core request within its limits and of its own bench meets its target. -/
def State.serveCore (s : State) (d k i o n : Nat) (g : XltTarget) (w : Bool) (y : List (Byte × Bool)) (p : Placement) : State :=
  match s.coreTo o p g w n with
  | .wait => s.xltUsing o g
  | .violation a => (s.xltUsing o g).pinViolation o d k i a
  | .die e f => (s.xltTaken d i o w e).askDie e (some o) true (.xltForward (xltKey d i) f n w y)
  | .hub h e f => (s.xltTaken d i o w (8 + h)).sendHub h (.xltForward (xltKey d i) p.home p.bench ((s.xltUsing o g).placeIncarn p.home p.bench) e f n w y)

section Mapped

variable {s : State} {d k i : Nat} (hd : s.dieMapped d = true) (hi : ((s.die d).xlt.any fun q => q.id == i) = false)

include hd hi

theorem exec_xltRequest_unplaced (hp : s.placementOf d k = none) (c n : Nat) (g : XltTarget) (w : Bool) (y : List (Byte × Bool)) :
    exec (.xltRequest d k i c g w n y) s =
      .next (((s.countPerf (65 + 4 * d) y.length).refuseCore d i).logError 4 3 (BitVec.ofNat 64 (d * 256 + k)) 0) := by
  obtain ⟨v, hv⟩ := s.countPerf_eq (65 + 4 * d) y.length
  have hp' : { s with perf := v }.placementOf d k = none := hp
  rw [exec_xltRequest, execXltRequest.eq_def, if_neg (by simp [hd, hi]), hv]
  dsimp only
  rw [hp']

/-- The request of a placed core within its limits: refused where it names another bench, else served. -/
theorem exec_xltRequest_placed {o : Nat} {w : Bool} {p : Placement} (hp : s.placementOf d k = some p) (ho : s.ownerOf p.home p.bench = o)
    (hs : o < 256 → (s.bench o).state ≠ .sweeping) (hmine : ((s.die d).xltUsed o).1 < 64)
    (hmineBlocks : ((s.die d).xltUsed o).2 + (if w then 1 else 0) ≤ 128) (hall : (s.die d).xltTotal.1 < 256)
    (hallBlocks : (s.die d).xltTotal.2 + (if w then 1 else 0) ≤ 512) (c n : Nat) (g : XltTarget) (y : List (Byte × Bool)) :
    ∃ v, exec (.xltRequest d k i c g w n y) s =
      .next (if c ≠ o then { s with perf := v }.pinViolation o d k i (xltAddr g) else { s with perf := v }.serveCore d k i o n g w y p) := by
  obtain ⟨v, hv⟩ := s.countPerf_eq (65 + 4 * d) y.length
  refine ⟨v, ?_⟩
  have hp' : { s with perf := v }.placementOf d k = some p := hp
  have ho' : { s with perf := v }.ownerOf p.home p.bench = o := ho
  have hs' : ¬(o < 256 ∧ ({ s with perf := v }.bench o).state = .sweeping) := fun h => hs h.1 h.2
  have hlimits : ¬(64 ≤ (({ s with perf := v }.die d).xltUsed o).1 ∨ 128 < (({ s with perf := v }.die d).xltUsed o).2 + (if w then 1 else 0) ∨
      256 ≤ ({ s with perf := v }.die d).xltTotal.1 ∨ 512 < ({ s with perf := v }.die d).xltTotal.2 + (if w then 1 else 0)) := by
    simp only [not_or, Nat.not_le, Nat.not_lt]
    exact ⟨hmine, hmineBlocks, hall, hallBlocks⟩
  rw [exec_xltRequest, execXltRequest.eq_def, if_neg (by simp [hd, hi]), hv]
  dsimp only
  rw [hp']
  dsimp only
  rw [ho', if_neg hs', if_neg hlimits]
  by_cases hc : c ≠ o
  · rw [if_pos hc, if_pos hc]
    cases g <;> rfl
  · rw [if_neg hc, if_neg hc, State.serveCore]
    generalize { s with perf := v }.coreTo o p g w n = dest
    cases dest with
    | wait => cases g <;> rfl
    | violation a => cases g <;> rfl
    | die e f => rfl
    | hub h e f => cases g <;> rfl

end Mapped

theorem State.placeIncarn_congr {s t : State} (hchip : t.chip = s.chip) (hcascade : t.cascade = s.cascade) (hbenches : t.benches = s.benches)
    (home b : Nat) : t.placeIncarn home b = s.placeIncarn home b := by
  simp only [State.placeIncarn, State.incarnOf, State.ownerOf, State.hubId, State.guest, State.bench, hchip, hcascade, hbenches]
  rfl

theorem State.xltUsing_kept (s : State) (o : Nat) (g : XltTarget) : Kept 0x20002000 s (s.xltUsing o g) := by
  cases g with
  | dva va => exact State.useEntry_kept ..
  | coord => exact .refl _ _

theorem State.xltUsing_placeIncarn (s : State) (o : Nat) (g : XltTarget) (home b : Nat) :
    (s.xltUsing o g).placeIncarn home b = s.placeIncarn home b :=
  have hkept := s.xltUsing_kept o g
  State.placeIncarn_congr (hkept.rest .chip rfl) (hkept.rest .cascade rfl) (hkept.rest .benches rfl) home b

theorem State.routed_congr {s t : State} (hchip : t.chip = s.chip) (hcascade : t.cascade = s.cascade) (henvans : t.envans = s.envans) (h : Nat) :
    t.routed h = s.routed h := by
  have hlink : ∀ l, t.linkUp l = s.linkUp l := fun l => by rw [State.linkUp, State.linkUp, State.envan, State.envan, henvans]
  simp only [State.routed, State.routeHops, hchip, hcascade, hlink]

section Target

variable {s : State} {o n : Nat} {g : XltTarget} {w : Bool} {p : Placement}

theorem State.serveCore_wait (h : s.coreTo o p g w n = .wait) (d k i : Nat) (y : List (Byte × Bool)) :
    s.serveCore d k i o n g w y p = s.xltUsing o g := by
  rw [State.serveCore, h]

theorem State.serveCore_violation {a : Nat} (h : s.coreTo o p g w n = .violation a) (d k i : Nat) (y : List (Byte × Bool)) :
    s.serveCore d k i o n g w y p = (s.xltUsing o g).pinViolation o d k i a := by
  rw [State.serveCore, h]

theorem State.serveCore_die {e f : Nat} (h : s.coreTo o p g w n = .die e f) (d k i : Nat) (y : List (Byte × Bool)) :
    s.serveCore d k i o n g w y p = (s.xltTaken d i o w e).askDie e (some o) true (.xltForward (xltKey d i) f n w y) := by
  rw [State.serveCore, h]

theorem State.serveCore_hub {h e f : Nat} (hto : s.coreTo o p g w n = .hub h e f) (d k i : Nat) (y : List (Byte × Bool)) :
    s.serveCore d k i o n g w y p = (s.xltTaken d i o w (8 + h)).sendHub h
      (.xltForward (xltKey d i) p.home p.bench (s.placeIncarn p.home p.bench) e f n w y) := by
  rw [State.serveCore, hto]
  dsimp only
  rw [State.xltUsing_placeIncarn]

end Target

theorem State.xltTaken_xlt (s : State) (d i o : Nat) (w : Bool) (t : Nat) :
    ((s.xltTaken d i o w t).die d).xlt = (s.die d).xlt ++ [⟨d, i, o, if w then 1 else 0, w, t, false⟩] := by
  rw [State.xltTaken, State.modDie_die_same]

/-- What a port serves by is not its core requests outstanding. -/
theorem State.xltTaken_keeps {α : Type} {h : Spindle → α} (hh : ∀ x l, h { x with xlt := l } = h x) (s : State) (d i o : Nat) (w : Bool)
    (t e : Nat) :
    h ((s.xltTaken d i o w t).die e) = h (s.die e) :=
  State.modDie_keeps (fun x => hh x _) s d e

theorem State.refuseCore_out {s : State} {d : Nat} (h : (s.die d).state = .up) (i : Nat) :
    (s.refuseCore d i).out = s.out ++ [.die d (.xltAnswer i true false [])] :=
  State.sendDie_out h _

@[simp] theorem State.refuseCore_benches (s : State) (d i : Nat) : (s.refuseCore d i).benches = s.benches :=
  (s.refuseCore_kept d i).rest .benches rfl

section Violation

variable {s : State} {d : Nat} (hup : (s.die d).state = .up)

include hup

/-- A pin violation of a bench of this hub: HELD with cause 1, the request answered as refused. -/
theorem State.pinViolation_here {o : Nat} (ho : o < 256) (hact : (s.bench o).state = .active) (k i a : Nat) :
    ((s.pinViolation o d k i a).bench o).hold = (.held, 1) ∧ ((s.pinViolation o d k i a).die d).xlt = (s.die d).xlt ∧
      .die d (.xltAnswer i true false []) ∈ (s.pinViolation o d k i a).out := by
  have hact' : ((s.refuseCore d i).bench o).state = .active := by
    rw [State.bench, State.refuseCore_benches]; exact hact
  obtain ⟨hhold, hxlt⟩ := State.holdFor_active hact' 1 (BitVec.ofNat 64 a) (BitVec.ofNat 32 (d * 256 + k))
  rw [State.pinViolation, State.coreCause_here ho]
  refine ⟨hhold, (hxlt d).trans (State.sendDie_xlt ..), ?_⟩
  refine (State.holdFor_kept ..).out.subset ?_
  rw [State.refuseCore_out hup]
  exact List.mem_append_right _ List.mem_cons_self

/-- So is one met after the lookup of its target. -/
theorem State.pinViolation_held {u : State} (hkept : Kept 0x20002000 s u) {o : Nat} (ho : o < 256) (hact : (s.bench o).state = .active) (k i a : Nat) :
    ((u.pinViolation o d k i a).bench o).state = .held ∧ ((u.pinViolation o d k i a).bench o).holdCause = 1 ∧
      ((u.pinViolation o d k i a).die d).xlt = (s.die d).xlt ∧ .die d (.xltAnswer i true false []) ∈ (u.pinViolation o d k i a).out := by
  have hdie : u.die d = s.die d := by rw [State.die, hkept.rest .spindles rfl]; rfl
  have hbench : u.bench o = s.bench o := by rw [State.bench, hkept.rest .benches rfl]; rfl
  obtain ⟨hhold, hxlt, hout⟩ := State.pinViolation_here (hdie ▸ hup) ho (hbench ▸ hact) k i a
  exact ⟨congrArg Prod.fst hhold, congrArg Prod.snd hhold, hxlt.trans (congrArg Spindle.xlt hdie), hout⟩

/-- A pin violation of a guest: refused here, told at its home hub. -/
theorem State.pinViolation_guest {o : Nat} {x : Guest} (ho : 256 ≤ o) (hx : s.guest (o - 256) = some x) (hr : s.routed x.home = true) (k i a : Nat) :
    (s.pinViolation o d k i a).out = s.out ++ [.die d (.xltAnswer i true false []),
      .envan x.home (.coreCause x.bench x.incarn 1 (BitVec.ofNat 64 a) (BitVec.ofNat 32 (d * 256 + k)))] ∧
      (s.pinViolation o d k i a).benches = s.benches := by
  have hkept := s.refuseCore_kept d i
  have hx' : (s.refuseCore d i).guest (o - 256) = some x := by
    rw [State.guest, hkept.rest .cascade rfl]; exact hx
  have hr' : (s.refuseCore d i).routed x.home = true :=
    (State.routed_congr (hkept.rest .chip rfl) (hkept.rest .cascade rfl) (hkept.rest .envans rfl) _).trans hr
  rw [State.pinViolation, State.coreCause_guest ho hx', State.sendHub_routed hr', State.refuseCore_out hup]
  refine ⟨by simp, ?_⟩
  exact ((State.sendHub_kept ..).rest .benches rfl).trans (s.refuseCore_benches d i)

end Violation

/-! ### Answers of dies (13 R370, R380, R381) -/

section Answered

variable {s : State} {d i : Nat} (hs : s.unsent (.hub i) = false)

include hs

theorem exec_dieReadResponse_core {q : XltReq} (hi : i % 3 = 1)
    (hq : (((s.portDone (.hub i)).die ((i - 1) / 3 % 8)).xlt.find? fun q => q.id == (i - 1) / 24) = some q) (ht : q.target = d) (hd : d < 8)
    (m : MemStatus) (y : List Byte) :
    exec (.dieReadResponse d i m y) s = .next (((s.portDone (.hub i)).countPerf (65 + 4 * d) y.length).answerCore q m y) := by
  rw [exec_dieReadResponse, execDieReadResponse, if_neg (by simp [hs])]
  dsimp only
  rw [if_pos hi, hq]
  dsimp only
  rw [if_neg (not_not_intro ht), if_pos hd]

variable (hi : i % 3 ≠ 1) (hd : d < 8)

include hi hd

theorem exec_dieReadResponse_bar2 {q : Bar2Req} (hq : ((s.portDone (.hub i)).bar2Reads.find? fun q => q.id == i && q.die == d) = some q)
    (m : MemStatus) (y : List Byte) :
    exec (.dieReadResponse d i m y) s = .next (((s.portDone (.hub i)).countPerf (65 + 4 * d) y.length).answerBar2 q m y) := by
  obtain ⟨v, hv⟩ := (s.portDone (.hub i)).countPerf_eq (65 + 4 * d) y.length
  rw [exec_dieReadResponse, execDieReadResponse, if_neg (by simp [hs])]
  dsimp only
  rw [if_neg hi, if_neg (Nat.not_le.mpr hd), hv]
  dsimp only
  rw [hq]

variable (hb : ((s.portDone (.hub i)).bar2Reads.find? fun q => q.id == i && q.die == d) = none)

include hb

theorem exec_dieReadResponse_remote {q : RemoteReq} (hq : ((s.portDone (.hub i)).remotes.find? fun q => q.key == i && q.die == d) = some q)
    (m : MemStatus) (y : List Byte) :
    ∃ v, exec (.dieReadResponse d i m y) s = .next ({ s.portDone (.hub i) with
      perf := v, remotes := (s.portDone (.hub i)).remotes.filter fun r => r.key != i }.sendHub q.sender (.dataAnswer q.id m y)) := by
  obtain ⟨v, hv⟩ := (s.portDone (.hub i)).countPerf_eq (65 + 4 * d) y.length
  refine ⟨v, ?_⟩
  rw [exec_dieReadResponse, execDieReadResponse, if_neg (by simp [hs])]
  dsimp only
  rw [if_neg hi, if_neg (Nat.not_le.mpr hd), hv]
  dsimp only
  rw [hb, hq]

theorem exec_dieReadResponse_refused (hq : ((s.portDone (.hub i)).remotes.find? fun q => q.key == i && q.die == d) = none) (y : List Byte) :
    exec (.dieReadResponse d i .writeRefused y) s =
      .next (((s.portDone (.hub i)).countPerf (65 + 4 * d) y.length).modDie d fun x => { x with writeErr := x.writeErr + 1 }) := by
  obtain ⟨v, hv⟩ := (s.portDone (.hub i)).countPerf_eq (65 + 4 * d) y.length
  rw [exec_dieReadResponse, execDieReadResponse, if_neg (by simp [hs])]
  dsimp only
  rw [if_neg hi, if_neg (Nat.not_le.mpr hd), hv]
  dsimp only
  rw [hb, hq]
  rfl

end Answered

theorem exec_dieReadResponse_unsent {s : State} {i : Nat} (hs : s.unsent (.hub i) = true) (d : Nat) (m : MemStatus) (y : List Byte) :
    exec (.dieReadResponse d i m y) s = .next s := by
  rw [exec_dieReadResponse, execDieReadResponse, if_pos hs]

/-! ### Events and fatal errors (13 R371, R381) -/

section Placed

variable {s : State} {d k : Nat} (hd : s.dieMapped d = true)

include hd

theorem exec_coreFatalError_unplaced (hp : s.placementOf d k = none) (v : BitVec 64) :
    exec (.coreFatalError d k v) s = .next (s.logError 4 3 (BitVec.ofNat 64 (d * 256 + k)) 0) := by
  rw [exec_coreFatalError, execCoreFatalError, if_neg (not_not_intro hd), hp]

theorem exec_dieUeReport_mapped (v : BitVec 64) : exec (.dieUeReport d v) s = .next (s.logError 4 2 v 0) := by
  rw [exec_dieUeReport, execDieUeReport, if_pos hd]

variable {p : Placement} {o : Nat} (hp : s.placementOf d k = some p) (ho : s.ownerOf p.home p.bench = o)

include hp ho

theorem exec_coreFatalError_placed (v : BitVec 64) :
    exec (.coreFatalError d k v) s = .next (s.coreCause o 2 v (BitVec.ofNat 32 (d * 256 + k))) := by
  rw [exec_coreFatalError, execCoreFatalError, if_neg (not_not_intro hd), hp]
  dsimp only
  rw [ho]

theorem exec_coreEventWrite_held {n a : Nat} (hn : n < 256) (h1 : 1 ≤ a) (h3 : a ≤ 3) (hh : (s.event n).holder = some o) :
    exec (.coreEventWrite d k n a) s = .next (s.lineOp n a) := by
  rw [exec_coreEventWrite, execCoreEventWrite, if_neg (not_not_intro hd), hp]
  dsimp only
  rw [ho, if_pos ⟨hn, h1, h3, hh⟩]

theorem exec_coreEventWrite_rejected {n : Nat} (h : 256 ≤ n ∨ (s.event n).holder ≠ some o) (a : Nat) :
    exec (.coreEventWrite d k n a) s = .next (s.modDie d fun x => { x with eventReject := x.eventReject + 1 }) := by
  have hnot : ¬(n < 256 ∧ 1 ≤ a ∧ a ≤ 3 ∧ (s.event n).holder = some o) := by
    rintro ⟨hn, -, -, hh⟩
    exact h.elim (Nat.not_le.mpr hn) fun hne => hne hh
  rw [exec_coreEventWrite, execCoreEventWrite, if_neg (not_not_intro hd), hp]
  dsimp only
  rw [ho, if_neg hnot]

end Placed

@[simp] theorem State.edgeBench_at_event (s : State) (b : Nat) (src : PaceSource) (n : Nat) : (s.edgeBench b src).event n = s.event n :=
  congrArg (fun x : Tab EventLine => tabGet x .reset n) ((s.edgeBench_kept b src).rest .events rfl)

/-- An operation on a line sets its level and leaves its holder. -/
theorem State.lineOp_event (s : State) (n a : Nat) : (s.lineOp n a).event n =
    { s.event n with level := if a = 1 then true else if a = 2 then false else (s.event n).level } := by
  rw [State.lineOp]
  split
  · split
    · rw [State.edgeBench_at_event, State.modEvent_event_same]
    · rw [State.modEvent_event_same]
  · rw [State.modEvent_event_same]

/-- Clearing a line makes no edge. -/
theorem State.lineOp_clear (s : State) (n : Nat) : s.lineOp n 2 = s.modEvent n fun e => { e with level := false } := by
  rw [State.lineOp]
  split
  · rw [if_neg (by simp)]
    rfl
  · rfl

/-! ### The statement -/

/-- Settles O54: where a request of a placed core goes, whose answer a die's response is, and the hold causes that cores raise. -/
theorem coreRequests : Obligations.CoreRequests := by
  unfold Obligations.CoreRequests
  refine ⟨?toDie, ?toHub, ?waits, ?held, ?guest, ?unplaced, ?answerCore, ?answerBar2, ?answerRemote, ?writeRefused, ?unsent, ?eventHeld, ?eventRejected,
    ?fatal, ?fatalGuest, ?fatalUnplaced, ?ueReport⟩
  case toDie =>
    intro s d k i o n e f g w y p hd hi hp ho hs h1 h2 h3 h4 hto hup hq hroom
    obtain ⟨v, hv⟩ := exec_xltRequest_placed hd hi hp ho hs h1 h2 h3 h4 o n g y
    refine ⟨_, hv, ?_⟩
    rw [if_neg (not_not_intro rfl)]
    rw [State.serveCore_die (s := { s with perf := v }) hto]
    have hasked : ((({ s with perf := v } : State).xltTaken d i o w e).die e).state = .up := (State.xltTaken_keeps (by exact fun _ _ => rfl) ..).trans hup
    have hempty : ((({ s with perf := v } : State).xltTaken d i o w e).die e).queue = [] := (State.xltTaken_keeps (by exact fun _ _ => rfl) ..).trans hq
    have hfree : ((({ s with perf := v } : State).xltTaken d i o w e).die e).room true (DieMsg.blocks (.xltForward (xltKey d i) f n w y)) = true :=
      (State.xltTaken_keeps (h := fun x : Spindle => x.room true (DieMsg.blocks (.xltForward (xltKey d i) f n w y))) (fun _ _ => rfl) ..).trans hroom
    rw [State.askDie_free_xlt hasked hempty hfree, State.askDie_free_out hasked hempty hfree, State.xltTaken_xlt]
    exact ⟨rfl, rfl, (State.askDie_kept ..).rest .benches rfl⟩
  case toHub =>
    intro s d k i o n h e f g w y p hd hi hp ho hs h1 h2 h3 h4 hto hr
    obtain ⟨v, hv⟩ := exec_xltRequest_placed hd hi hp ho hs h1 h2 h3 h4 o n g y
    refine ⟨_, hv, ?_⟩
    rw [if_neg (not_not_intro rfl)]
    rw [State.serveCore_hub (s := { s with perf := v }) hto, State.sendHub_at_die, State.xltTaken_xlt]
    exact ⟨rfl, State.sendHub_routed (s := ({ s with perf := v } : State).xltTaken d i o w (8 + h)) hr _, (State.sendHub_kept ..).rest .benches rfl⟩
  case waits =>
    intro s d k i o n g w y p hd hi hp ho hs h1 h2 h3 h4 hto
    obtain ⟨v, hv⟩ := exec_xltRequest_placed hd hi hp ho hs h1 h2 h3 h4 o n g y
    refine ⟨_, hv, ?_⟩
    rw [if_neg (not_not_intro rfl)]
    rw [State.serveCore_wait (s := { s with perf := v }) hto]
    have hkept := State.xltUsing_kept { s with perf := v } o g
    exact ⟨hkept.rest .spindles rfl, hkept.rest .out rfl, hkept.rest .benches rfl⟩
  case held =>
    intro s d k i o n c a g w y p hd hi hp ho hs h1 h2 h3 h4 hbad hhere hact hup
    obtain ⟨v, hv⟩ := exec_xltRequest_placed hd hi hp ho hs h1 h2 h3 h4 c n g y
    refine ⟨_, hv, ?_⟩
    by_cases hc : c = o
    · rw [if_neg (not_not_intro hc), State.serveCore_violation (s := { s with perf := v }) (hbad.resolve_left (not_not_intro hc))]
      have hkept := State.xltUsing_kept { s with perf := v } o g
      exact State.pinViolation_held (s := { s with perf := v }) hup hkept hhere hact k i a
    · rw [if_pos hc]
      exact State.pinViolation_held (s := { s with perf := v }) hup (.refl _ _) hhere hact k i (xltAddr g)
  case guest =>
    intro s d k i o n a g w y p x hd hi hp ho hs h1 h2 h3 h4 hto hguest hx hr hup
    obtain ⟨v, hv⟩ := exec_xltRequest_placed hd hi hp ho hs h1 h2 h3 h4 o n g y
    refine ⟨_, hv, ?_⟩
    rw [if_neg (not_not_intro rfl)]
    rw [State.serveCore_violation (s := { s with perf := v }) hto]
    have hkept := State.xltUsing_kept { s with perf := v } o g
    have hup' : ((({ s with perf := v } : State).xltUsing o g).die d).state = .up := by
      rw [State.die, hkept.rest .spindles rfl]; exact hup
    have hx' : (({ s with perf := v } : State).xltUsing o g).guest (o - 256) = some x := by
      rw [State.guest, hkept.rest .cascade rfl]; exact hx
    have hr' : (({ s with perf := v } : State).xltUsing o g).routed x.home = true :=
      (State.routed_congr (hkept.rest .chip rfl) (hkept.rest .cascade rfl) (hkept.rest .envans rfl) _).trans hr
    obtain ⟨hout, hbenches⟩ := State.pinViolation_guest hup' hguest hx' hr' k i a
    exact ⟨by rw [hout, hkept.rest .out rfl], hbenches.trans (hkept.rest .benches rfl)⟩
  case unplaced => exact fun s d k i c n g w y hd hi hp => exec_xltRequest_unplaced hd hi hp c n g w y
  case answerCore => exact fun s d i m y q hs hi hq ht hd => exec_dieReadResponse_core hs hi hq ht hd m y
  case answerBar2 => exact fun s d i m y q hs hi hd hq => exec_dieReadResponse_bar2 hs hi hd hq m y
  case answerRemote =>
    intro s d i m y q hs hi hd hb hq hr
    obtain ⟨v, hv⟩ := exec_dieReadResponse_remote hs hi hd hb hq m y
    refine ⟨_, hv, ?_, (State.sendHub_kept ..).rest .remotes rfl⟩
    have hkept := s.portDone_kept (.hub i)
    refine State.sendHub_routed ?_ _
    exact (State.routed_congr (s := s) (hkept.rest .chip rfl) (hkept.rest .cascade rfl) (hkept.rest .envans rfl) q.sender).trans hr
  case writeRefused =>
    intro s d i y hs hi hd hb hq
    refine ⟨_, exec_dieReadResponse_refused hs hi hd hb hq y, ?_, State.countPerf_out .., fun e he => ?_⟩
    · rw [State.modDie_die_same, State.countPerf_at_die]
    · rw [State.modDie_die_ne _ _ he, State.countPerf_at_die]
  case unsent => exact fun s d i m y hs => exec_dieReadResponse_unsent hs d m y
  case eventHeld =>
    intro s d k n a o p hd hp ho hn h1 h3 hh
    refine ⟨_, exec_coreEventWrite_held hd hp ho hn h1 h3 hh, ?_⟩
    rw [State.lineOp_event]
    refine ⟨rfl, hh, ?_⟩
    rintro rfl
    rw [State.lineOp_clear]
    exact ⟨rfl, rfl, rfl⟩
  case eventRejected =>
    intro s d k n a o p hd hp ho h
    exact ⟨_, exec_coreEventWrite_rejected hd hp ho h a, State.modDie_die_same .., rfl, fun e he => State.modDie_die_ne _ _ he⟩
  case fatal =>
    intro s d k o v p hd hp ho hhere hact
    refine ⟨_, exec_coreFatalError_placed hd hp ho v, ?_⟩
    rw [State.coreCause_here hhere]
    have hheld := (State.holdFor_active hact 2 v (BitVec.ofNat 32 (d * 256 + k))).1
    exact ⟨congrArg Prod.fst hheld, congrArg Prod.snd hheld⟩
  case fatalGuest =>
    intro s d k o v p x hd hp ho hguest hx hr
    refine ⟨_, exec_coreFatalError_placed hd hp ho v, ?_⟩
    rw [State.coreCause_guest hguest hx]
    exact ⟨State.sendHub_routed hr _, (State.sendHub_kept ..).rest .benches rfl⟩
  case fatalUnplaced => exact fun s d k v hd hp => exec_coreFatalError_unplaced hd hp v
  case ueReport => exact fun s d v hd => exec_dieUeReport_mapped hd v

end Sys2Proof.Machine

/-! ## Commands of the mailbox (05 R138, R139): what a notice and a command's end leave of a bench, and a command's start -/

namespace Sys2Proof.Machine

/-- A notice changes its bench's notice queue and its counters alone. -/
theorem State.notice_keeps {α : Type} {g : Bench → α} (h : ∀ x q k, g { x with notices := q, counters := k } = g x) (s : State)
    (b type cause ring : Nat) (a0 : BitVec 64) (a1 : BitVec 32) (subject c : Nat) :
    g ((s.notice b type cause ring a0 a1 subject).bench c) = g (s.bench c) := by
  rw [State.notice]
  split_ifs
  · rfl
  · refine (State.modBench_keeps (g := g) (fun x => ?_) _ b c).trans (congrArg g (s.wakeHost_bench b c))
    dsimp only
    split
    · exact h x _ x.counters
    · exact h x _ _

/-- The end of a command changes the notices and counters of bench 0, or its sweep record. -/
theorem State.endCommand_keeps {α : Type} {g : Bench → α} (h : ∀ x q k w, g { x with notices := q, counters := k, sweep := w } = g x)
    (s : State) (r : Nat) (t : BitVec 64) (c : Nat) : g ((s.endCommand r t).bench c) = g (s.bench c) := by
  rw [State.endCommand]
  dsimp only
  split_ifs
  · exact State.modBench_keeps (g := g) (fun x => h x x.notices x.counters _) _ 0 c
  · exact State.notice_keeps (fun x q k => h x q k x.sweep) ..

@[simp] theorem State.endCommand_bench_state (s : State) (r : Nat) (t : BitVec 64) (c : Nat) :
    ((s.endCommand r t).bench c).state = (s.bench c).state := State.endCommand_keeps (g := Bench.state) (fun _ _ _ _ => rfl) s r t c
@[simp] theorem State.endCommand_bench_token (s : State) (r : Nat) (t : BitVec 64) (c : Nat) :
    ((s.endCommand r t).bench c).token = (s.bench c).token := State.endCommand_keeps (g := Bench.token) (fun _ _ _ _ => rfl) s r t c
@[simp] theorem State.endCommand_bench_limits (s : State) (r : Nat) (t : BitVec 64) (c : Nat) :
    ((s.endCommand r t).bench c).limits = (s.bench c).limits := State.endCommand_keeps (g := Bench.limits) (fun _ _ _ _ => rfl) s r t c
@[simp] theorem State.endCommand_bench_keep (s : State) (r : Nat) (t : BitVec 64) (c : Nat) :
    ((s.endCommand r t).bench c).keep = (s.bench c).keep := State.endCommand_keeps (g := Bench.keep) (fun _ _ _ _ => rfl) s r t c
@[simp] theorem State.endCommand_bench_grants (s : State) (r : Nat) (t : BitVec 64) (c : Nat) :
    ((s.endCommand r t).bench c).grants = (s.bench c).grants := State.endCommand_keeps (g := Bench.grants) (fun _ _ _ _ => rfl) s r t c
@[simp] theorem State.endCommand_bench_hold (s : State) (r : Nat) (t : BitVec 64) (c : Nat) :
    ((s.endCommand r t).bench c).hold = (s.bench c).hold := State.endCommand_keeps (g := Bench.hold) (fun _ _ _ _ => rfl) s r t c

theorem State.endCommand_mailbox (s : State) (r : Nat) (t : BitVec 64) :
    (s.endCommand r t).mailbox = { s.mailbox with busy := false, result := BitVec.ofNat 8 r, token := t } := by
  rw [State.endCommand]
  dsimp only
  split_ifs
  · rfl
  · exact (State.notice_kept ..).rest .mailbox rfl

theorem State.endCommand_busy (s : State) (r : Nat) (t : BitVec 64) : (s.endCommand r t).mailbox.busy = false :=
  congrArg Mailbox.busy (s.endCommand_mailbox r t)
theorem State.endCommand_result (s : State) (r : Nat) (t : BitVec 64) : (s.endCommand r t).mailbox.result = BitVec.ofNat 8 r :=
  congrArg Mailbox.result (s.endCommand_mailbox r t)
theorem State.endCommand_token (s : State) (r : Nat) (t : BitVec 64) : (s.endCommand r t).mailbox.token = t :=
  congrArg Mailbox.token (s.endCommand_mailbox r t)

/-- A command while BUSY is discarded and counted. -/
theorem State.fromMgmt_busy {s : State} (hdec : s.decodes s.mgmtFn.1 s.mgmtFn.2 = true) (ha : (s.bench 0).detached = false)
    (hb : s.mailbox.busy = true) (code : Nat) (run : State → BenchArg → State) :
    s.fromMgmt (fun t => t.acceptCommand code run) = s.unstageHub.countHub := by
  rw [State.fromMgmt_served hdec ha, State.acceptCommand, if_pos (.inl hb)]

/-- The bench command of a code is accepted: `a` is its argument, and `u` the state in which it runs. -/
structure Accepted (s : State) (code : Nat) (a : BenchArg) (u : State) : Prop where
  decodes : s.decodes s.mgmtFn.1 s.mgmtFn.2 = true
  attached : (s.bench 0).detached = false
  idle : s.mailbox.busy = false
  formed : (s.bench 0).state = .active ∨ (s.bench 0).state = .held
  arg : a = benchArg s.mailbox.arg
  state : u = State.stir { s.unstageHub with mailbox := { s.mailbox with
    busy := true, code := BitVec.ofNat 8 code, token := 0, bench := a.bench } } 8

section Accepted

variable {s u : State} {code : Nat} {a : BenchArg} (h : Accepted s code a u)

include h

theorem Accepted.runs (run : State → BenchArg → State) : s.fromMgmt (fun t => t.acceptCommand code run) = run u a := by
  obtain ⟨hdec, ha, hb, hf, rfl, rfl⟩ := h
  have hfree : ¬(s.unstageHub.mailbox.busy = true ∨ (s.unstageHub.bench 0).state = .sweeping) := by
    show ¬(s.mailbox.busy = true ∨ (s.bench 0).state = .sweeping)
    obtain hf | hf := hf <;> simp [hb, hf]
  have hformed : ¬((s.unstageHub.bench 0).state ≠ .active ∧ (s.unstageHub.bench 0).state ≠ .held) := by
    show ¬((s.bench 0).state ≠ .active ∧ (s.bench 0).state ≠ .held)
    obtain hf | hf := hf <;> simp [hf]
  rw [State.fromMgmt_served hdec ha, State.acceptCommand, if_neg hfree, if_neg hformed]
  rfl

theorem Accepted.bench (b : Nat) : u.bench b = s.bench b := by rw [h.state]; rfl
theorem Accepted.port (p : Nat) : u.port p = s.port p := by rw [h.state]; rfl
theorem Accepted.die (d : Nat) : u.die d = s.die d := by rw [h.state]; rfl
theorem Accepted.now : u.now = s.now := by rw [h.state]; rfl
theorem Accepted.out : u.out = s.out := by rw [h.state]; rfl
theorem Accepted.zeroFill : u.zeroFill = s.zeroFill := by rw [h.state]; rfl
theorem Accepted.mailbox_arg : a = benchArg u.mailbox.arg := by rw [h.state]; exact h.arg
theorem Accepted.busy : u.mailbox.busy = true := by rw [h.state]; rfl

end Accepted

/-- A command that passes its common checks meets its bench in one of its states. -/
theorem State.commandCheck_state {s : State} {a : BenchArg} {l : List BenchState} (h : s.commandCheck a l = resOk) :
    (s.bench a.bench).state ∈ l := by
  rw [State.commandCheck] at h
  split_ifs at h with _ hl
  · exact absurd h (by decide)
  · exact absurd h (by decide)
  · exact List.contains_iff_mem.mp hl
  · exact absurd h (by decide)

/-- A sweep without step 2 begins at the cut. -/
theorem State.startSweep_cut {s : State} {b cause : Nat} (hs : (s.bench b).state = .active ∨ (s.bench b).state = .held)
    (hcut : (cause ≠ 1 ∧ cause ≠ 4 ∧ cause ≠ 5) ∨ (s.bench b).detached = true) (release command : Bool) :
    s.startSweep b cause release command = (s.modBench b fun x => { x with
      state := .sweeping, sweepCause := BitVec.ofNat 3 cause, holdCause := 0
      sweep := some ⟨.cut, release && b != 0, command, 0, [], cause == 2, s.now⟩ }).holdBench b := by
  have hsettle : ((cause == 1 || cause == 4 || cause == 5) && !(s.bench b).detached) = false := by
    obtain ⟨h1, h4, h5⟩ | hd := hcut
    · simp [h1, h4, h5]
    · simp [hd]
  obtain hs | hs := hs <;> simp [State.startSweep, hs, hsettle]

end Sys2Proof.Machine

/-! ## Bench commands (O47; 05 R126–R140; 17 R492) -/

namespace Sys2Proof.Machine

/-! ### FORM and the end of a formation (05 R133, R140) -/

/-- A reservation is of its bench alone, but for tallies. -/
theorem State.formReserve_bench_ne (s : State) {b c : Nat} (h : c ≠ b) (cls p f n : Nat) (l : Limits) (bar2 : Nat) (keep : Bool) :
    (s.formReserve b cls p f n l bar2 keep).bench c = s.bench c := by
  have hkept : Kept 0x2000000 (s.setBench b _) (s.formReserve b cls p f n l bar2 keep) :=
    (State.addTally_kept ..).step rfl (.foldl (fun s c => s.addTally_kept 0x01 b (if c < 1024 then 0 else 1) c) _ _)
  rw [State.bench, hkept.rest .benches rfl]
  exact State.setBench_bench_ne s _ h

theorem goodToken_ne (t prev : BitVec 64) : goodToken t prev ≠ 0 ∧ goodToken t prev ≠ prev := by
  rw [goodToken]
  split_ifs with ht h1
  · exact ht
  · exact ⟨by decide, by rw [h1]; decide⟩
  · exact ⟨by decide, Ne.symm h1⟩

/-- A formation given up leaves the bench VACANT with the token it had. -/
theorem State.unform_bench (s : State) (b : Nat) :
    (s.unform b).bench b = { Bench.reset with incarn := (s.bench b).incarn, token := (s.bench b).token } := by
  rw [State.unform, State.setBench_bench_same]
  rfl

/-- The state when a formation has ended: nothing is being formed. -/
def State.formed (s : State) : State := { s with forming := none, formingFlr := false }

theorem exec_formationDone_noLedger {s : State} {b : Nat} (hb : s.forming = some b) (hd : s.classHas b BenchClass.modeD = true)
    (hp : Config.tablePages ≤ s.headstock.tablePages) :
    exec .formationDone s = .next ((s.formed.unform b).endCommand resNoLedger 0) := by
  rw [exec_formationDone, execFormationDone, hb]
  exact if_pos ⟨hd, hp⟩

/-- The bench that formation makes ACTIVE. -/
def State.formedActive (s : State) (b : Nat) : State := (s.formed.formFinish b).modBench b fun x => { x with state := .active }

theorem State.formedActive_bench (s : State) (b : Nat) : (s.formedActive b).bench b = { s.bench b with
    state := .active, token := goodToken (Config.random s.draws) (s.bench b).token, modeD := .fresh (s.classHas b BenchClass.modeD) } := by
  rw [State.formedActive, State.modBench_bench_same, State.formFinish_bench]
  rfl

theorem exec_formationDone_active {s : State} {b : Nat} (hb : s.forming = some b) (hf : s.formingFlr = false)
    (h : ¬(s.classHas b BenchClass.modeD = true ∧ Config.tablePages ≤ s.headstock.tablePages)) :
    exec .formationDone s = .next ((s.formedActive b).endCommand resOk ((s.formedActive b).bench b).token) := by
  rw [exec_formationDone, execFormationDone, hb]
  exact (if_neg h).trans (congrArg _ (if_neg (Bool.eq_false_iff.mp hf)))

section Commands

variable {s u : State} {a : BenchArg}

theorem exec_form_forms (h : Accepted s 1 a u) (hc : u.formCheck a = resOk) (hl : (s.port a.port).link.isUp = true) :
    exec .form s = .next { u.formReserve a.bench a.cls a.port a.fn a.rings a.limits a.bar2 (a.options % 2 == 1) with
      forming := some a.bench, formingFlr := false } := by
  have hkept := u.formReserve_kept a.bench a.cls a.port a.fn a.rings a.limits a.bar2 (a.options % 2 == 1)
  have hup : ((u.formReserve a.bench a.cls a.port a.fn a.rings a.limits a.bar2 (a.options % 2 == 1)).port a.port).link.isUp = true := by
    rw [State.port, hkept.rest .ports rfl, ← State.port, h.port, hl]
  refine (congrArg _ (h.runs _)).trans ?_
  dsimp only
  rw [if_neg (not_not_intro hc)]
  exact congrArg _ (if_pos hup)

theorem exec_form_refused (h : Accepted s 1 a u) (hc : u.formCheck a ≠ resOk) : exec .form s = .next (u.endCommand (u.formCheck a) 0) :=
  (congrArg _ (h.runs _)).trans (congrArg _ (if_pos hc))

/-! ### SET_LIMITS and SET_KEEP (05 R132, R135) -/

theorem exec_setLimits_sets (h : Accepted s 2 a u) (hc : u.commandCheck a [.active, .held] = resOk)
    (ho : u.limitsOverClass a.bench a.limits = false) (hu : u.limitsInUse a.bench a.limits = false) :
    exec .setLimits s = .next ((u.modBench a.bench fun x => { x with
      limits := a.limits, bucket := newBucket x.bucket x.limits.rateCap.toNat a.limits.rateCap.toNat }).endCommand resOk 0) := by
  refine (congrArg _ (h.runs _)).trans ?_
  dsimp only
  rw [if_neg (not_not_intro hc), ho, hu]
  rfl

theorem exec_setLimits_overClass (h : Accepted s 2 a u) (hc : u.commandCheck a [.active, .held] = resOk)
    (ho : u.limitsOverClass a.bench a.limits = true) : exec .setLimits s = .next (u.endCommand resOverClass 0) := by
  refine (congrArg _ (h.runs _)).trans ?_
  dsimp only
  rw [if_neg (not_not_intro hc), if_pos ho]

theorem State.startDeadline_keep (s : State) (b c : Nat) : ((s.startDeadline b).bench c).keep = (s.bench c).keep := by
  rw [State.startDeadline]
  split_ifs
  · exact State.modBench_keeps (g := Bench.keep) (by exact fun _ => rfl) s b c
  · rw [State.bench, (State.addDeadline_kept ..).rest .benches rfl]
    exact State.modBench_keeps (g := Bench.keep) (by exact fun _ => rfl) s b c

/-- KEEP of the bench takes the value; that of every other bench stays. -/
theorem State.putKeep_keep (s : State) (b : Nat) (keep : Bool) (c : Nat) :
    ((s.putKeep b keep).bench c).keep = if c = b then keep else (s.bench c).keep := by
  have hmod : ((s.modBench b fun x => { x with keep := keep }).bench c).keep = if c = b then keep else (s.bench c).keep := by
    split_ifs with hc
    · rw [hc, State.modBench_bench_same]
    · rw [State.modBench_bench_ne s _ hc]
  rw [State.putKeep]
  dsimp only
  split
  · next hsame =>
    split_ifs with hc
    · rw [hc, hsame]
    · rfl
  · split
    · exact hmod
    · rw [State.startDeadline_keep]
      exact hmod

theorem exec_setKeep_sets (h : Accepted s 3 a u) (hc : u.commandCheck a [.active, .held] = resOk)
    (hk : u.classHas a.bench BenchClass.keepAllowed = true) :
    exec .setKeep s = .next ((u.putKeep a.bench (a.options % 2 == 1)).endCommand resOk 0) := by
  refine (congrArg _ (h.runs _)).trans ?_
  dsimp only
  rw [if_neg (not_not_intro hc), if_neg (not_not_intro hk)]

/-! ### HOLD and RESUME (05 R126, R127; 14 R412, R418) -/

theorem exec_hold_holds (h : Accepted s 4 a u) (h0 : a.bench ≠ 0) (hc : u.commandCheck a [.active] = resOk) :
    exec .hold s = .next ((u.holdFor a.bench 3 0 0xFFFFFFFF).endCommand resOk 0) := by
  refine (congrArg _ (h.runs _)).trans ?_
  dsimp only
  rw [if_neg h0, if_neg (not_not_intro hc)]

theorem exec_hold_bench0 (h : Accepted s 4 a u) (h0 : a.bench = 0) : exec .hold s = .next (u.endCommand resBadBench 0) := by
  refine (congrArg _ (h.runs _)).trans ?_
  dsimp only
  rw [if_pos h0, if_pos (by decide)]

theorem exec_resume_ends (h : Accepted s 5 a u) (hc : u.commandCheck a [.held] = resOk) :
    exec .resume s = .next ((u.endHold a.bench).endCommand resOk 0) :=
  (congrArg _ (h.runs _)).trans (congrArg _ (if_neg (not_not_intro hc)))

/-- The end of a hold makes the bench ACTIVE; releases of its placements leave every bench alone. -/
theorem State.endHold_bench (s : State) (b c : Nat) :
    (s.endHold b).bench c = (s.modBench b fun x => { x with state := .active, holdCause := 0 }).bench c := by
  have hkept : Kept 0x121040000 (s.modBench b fun x => { x with state := .active, holdCause := 0 }) (s.endHold b) :=
    Kept.foldl (fun s n => s.tryRelease_kept b n) _ _
  rw [State.bench, hkept.rest .benches rfl]
  rfl

/-! ### SWEEP (17 R492) -/

theorem exec_sweep_starts (h : Accepted s 6 a u) (h0 : a.bench ≠ 0 ∨ a.options / 2 % 2 = 0)
    (hc : u.commandCheck a [.active, .held] = resOk) : exec .sweep s = .next (u.startSweep a.bench 1 (a.options / 2 % 2 == 1) true) := by
  have hkeep : ¬(a.bench = 0 ∧ (a.options / 2 % 2 == 1) = true) := by
    rintro ⟨hb, ho⟩
    obtain h0 | h0 := h0
    · exact h0 hb
    · simp [h0] at ho
  refine (congrArg _ (h.runs _)).trans ?_
  dsimp only
  rw [if_neg hkeep, if_neg (not_not_intro hc)]

end Commands

/-- Settles O47: each command refused while BUSY, then each command's run, read off the bench and the mailbox. -/
theorem benchCommands : Obligations.BenchCommands := by
  refine ⟨fun s hd ha hb => congrArg _ (State.fromMgmt_busy hd ha hb 1 _), fun s hd ha hb => congrArg _ (State.fromMgmt_busy hd ha hb 2 _),
    fun s hd ha hb => congrArg _ (State.fromMgmt_busy hd ha hb 3 _), fun s hd ha hb => congrArg _ (State.fromMgmt_busy hd ha hb 4 _),
    fun s hd ha hb => congrArg _ (State.fromMgmt_busy hd ha hb 5 _), fun s hd ha hb => congrArg _ (State.fromMgmt_busy hd ha hb 6 _),
    fun s hd ha hb => congrArg _ (State.fromMgmt_busy hd ha hb 7 _), ?returnBusy, ?form,
    fun s u a hd ha hb hs ea eu hc => exec_form_refused ⟨hd, ha, hb, hs, ea, eu⟩ hc, ?formed, ?limits, ?limitsOver, ?keep, ?hold,
    fun s u a hd ha hb hs ea eu h0 => exec_hold_bench0 ⟨hd, ha, hb, hs, ea, eu⟩ h0, ?resume,
    fun s u a hd ha hb hs ea eu h0 hc => exec_sweep_starts ⟨hd, ha, hb, hs, ea, eu⟩ h0 hc, ?sweep⟩
  case returnBusy =>
    intro s hd ha hb hr
    rw [exec_returnDieMem, execReturnDieMem, if_neg (by simp [hr])]
    exact congrArg _ (State.fromMgmt_busy hd ha hb 8 _)
  case form =>
    intro s u a hd ha hb hs ea eu hc hl
    have h : Accepted s 1 a u := ⟨hd, ha, hb, hs, ea, eu⟩
    have hbench := u.formReserve_bench a.bench a.cls a.port a.fn a.rings a.limits a.bar2 (a.options % 2 == 1)
    have hkept := u.formReserve_kept a.bench a.cls a.port a.fn a.rings a.limits a.bar2 (a.options % 2 == 1)
    refine ⟨_, exec_form_forms h hc hl, rfl, hkept.rest .mailbox rfl, congrArg Bench.state hbench, congrArg Bench.detached hbench,
      congrArg Bench.limits hbench, congrArg Bench.port hbench, congrArg Bench.fn hbench, congrArg Bench.classId hbench,
      congrArg Bench.ringCount hbench, ?_, fun b hne => ?_⟩
    · exact (congrArg Bench.incarn hbench).trans (by rw [h.bench])
    · exact (u.formReserve_bench_ne hne ..).trans (h.bench b)
  case formed =>
    intro s b hb hf
    by_cases hfull : s.classHas b BenchClass.modeD = true ∧ Config.tablePages ≤ s.headstock.tablePages
    · have hbench := s.formed.unform_bench b
      refine ⟨_, exec_formationDone_noLedger hb hfull.1 hfull.2, ?_, State.endCommand_busy .., fun hroom => ?_,
        fun _ _ => ⟨State.endCommand_result .., State.endCommand_token .., fun _ => ⟨?_, ?_⟩⟩⟩
      · exact ((State.endCommand_kept ..).rest .forming rfl).trans ((State.unform_kept ..).rest .forming rfl)
      · exact absurd hfull (not_and_or.mpr (hroom.imp (by simp [·]) Nat.not_le.mpr))
      · rw [State.endCommand_bench_state, hbench]; rfl
      · rw [State.endCommand_bench_token, hbench]; rfl
    · have hbench := s.formedActive_bench b
      refine ⟨_, exec_formationDone_active hb hf hfull, ?_, State.endCommand_busy ..,
        fun _ => ⟨?_, ?_, ?_, ?_, State.endCommand_result ..⟩, fun hd hp => absurd ⟨hd, hp⟩ hfull⟩
      · exact ((State.endCommand_kept ..).rest .forming rfl).trans ((State.formFinish_kept ..).rest .forming rfl)
      · rw [State.endCommand_bench_state, hbench]
      · rw [State.endCommand_bench_token, hbench]
        exact (goodToken_ne ..).1
      · rw [State.endCommand_bench_token, hbench]
        exact (goodToken_ne ..).2
      · rw [State.endCommand_bench_token, State.endCommand_token]
  case limits =>
    intro s u a hd ha hb hs ea eu hc ho hu
    have h : Accepted s 2 a u := ⟨hd, ha, hb, hs, ea, eu⟩
    refine ⟨_, exec_setLimits_sets h hc ho hu, ?_, State.endCommand_busy .., State.endCommand_result .., fun b hne => ?_⟩
    · rw [State.endCommand_bench_limits, State.modBench_bench_same]
    · rw [State.endCommand_bench_limits, State.modBench_bench_ne _ _ hne, h.bench]
  case limitsOver =>
    intro s u a hd ha hb hs ea eu hc ho
    have h : Accepted s 2 a u := ⟨hd, ha, hb, hs, ea, eu⟩
    refine ⟨_, exec_setLimits_overClass h hc ho, State.endCommand_busy .., State.endCommand_result .., fun b => ?_⟩
    rw [State.endCommand_bench_limits, h.bench]
  case keep =>
    intro s u a hd ha hb hs ea eu hc hk
    have h : Accepted s 3 a u := ⟨hd, ha, hb, hs, ea, eu⟩
    refine ⟨_, exec_setKeep_sets h hc hk, ?_, State.endCommand_busy .., State.endCommand_result .., fun b hne => ?_⟩
    · rw [State.endCommand_bench_keep, State.putKeep_keep, if_pos rfl]
    · rw [State.endCommand_bench_keep, State.putKeep_keep, if_neg hne, h.bench]
  case hold =>
    intro s u a hd ha hb hs ea eu h0 hc
    have hactive : (u.bench a.bench).state = .active := List.mem_singleton.mp (State.commandCheck_state hc)
    have hheld := (State.endCommand_bench_hold _ resOk 0 a.bench).trans
      (State.holdFor_active hactive 3 0 0xFFFFFFFF).1
    exact ⟨_, exec_hold_holds ⟨hd, ha, hb, hs, ea, eu⟩ h0 hc, congrArg Prod.fst hheld, congrArg Prod.snd hheld,
      State.endCommand_busy .., State.endCommand_result ..⟩
  case resume =>
    intro s u a hd ha hb hs ea eu hc
    have hfree : (((u.endHold a.bench).endCommand resOk 0).bench a.bench).hold = (.active, 0) := by
      rw [State.endCommand_bench_hold, State.endHold_bench, State.modBench_bench_same]
      rfl
    exact ⟨_, exec_resume_ends ⟨hd, ha, hb, hs, ea, eu⟩ hc, congrArg Prod.fst hfree, congrArg Prod.snd hfree,
      State.endCommand_busy .., State.endCommand_result ..⟩
  case sweep =>
    intro s u a hd ha hb hs ea eu h0 hc hdet
    have h : Accepted s 6 a u := ⟨hd, ha, hb, hs, ea, eu⟩
    have hstate : (u.bench a.bench).state = .active ∨ (u.bench a.bench).state = .held := by
      simpa using State.commandCheck_state hc
    have hcut := State.startSweep_cut (cause := 1) hstate (.inr (by rw [h.bench]; exact hdet)) (a.options / 2 % 2 == 1) true
    refine ⟨_, exec_sweep_starts h (.inl h0) hc, ?_⟩
    rw [hcut, State.holdBench_bench, State.modBench_bench_same]
    refine ⟨rfl, rfl, ?_, (State.holdBench_kept ..).rest .mailbox rfl⟩
    simp [h0, h.now]

end Sys2Proof.Machine

/-! ## Grants of die memory (O48; 05 R136, R137; 10 R309) -/

namespace Sys2Proof.Machine

/-- No return waits while no command is BUSY. -/
theorem State.returning_idle {s : State} (h : s.mailbox.busy = false) : s.returning = none :=
  if_neg fun hr => by simp [h] at hr

section Grants

variable {s u : State} {a : BenchArg}

/-! ### GRANT_DIE_MEM -/

/-- A grant of a bench is added to its own; no other bench is touched. -/
theorem State.takeGrant_bench {o : Nat} (ho : o < 256) (s : State) (d off len c : Nat) :
    (s.takeGrant o d off len).bench c = (s.modBench o fun x => { x with grants := x.grants ++ [⟨255, d, off, len⟩] }).bench c := by
  rw [State.takeGrant, if_pos ho]
  rfl

/-- What the checks of GRANT_DIE_MEM answer for the argument's bench. -/
def State.grantResult (s : State) (a : BenchArg) : Nat :=
  s.grantCheck a.die a.offset a.length (s.bench a.bench).dieMemHeld (s.bench a.bench).limits.dieMem.toNat

/-- GRANT_DIE_MEM of this hub's memory, its bench in order: refused, waiting for a zero fill, or granted. -/
theorem exec_grantDieMem_here (h : Accepted s 7 a u) (hc : u.commandCheck a [.active, .held] = resOk) (hhere : u.here a.hub = true) :
    exec .grantDieMem s = .next (if u.grantResult a ≠ resOk then u.endCommand (u.grantResult a) 0
      else if u.filling a.die a.offset a.length then u else (u.takeGrant a.bench a.die a.offset a.length).endCommand resOk 0) := by
  refine (congrArg _ (h.runs _)).trans ?_
  rw [State.runGrant, if_neg (not_not_intro hc), if_neg (not_not_intro hhere)]
  rfl

/-! ### RETURN_DIE_MEM -/

/-- Grants of this hub's memory without a range; those of other hubs stay. -/
def cutGrants (l : List Grant) (d off len : Nat) : List Grant := l.flatMap fun g => if g.hub = 255 then g.cut d off len else [g]

/-- A range cut from a bench's grants is cut from nothing else of any bench. -/
theorem State.cutRange_bench {o : Nat} (ho : o < 256) (s : State) (d off len c : Nat) :
    (s.cutRange o d off len).bench c = (s.modBench o fun x => { x with grants := cutGrants x.grants d off len }).bench c := by
  have hkept : Kept 0x2002000 (s.modBench o fun x => { x with grants := cutGrants x.grants d off len }) (s.cutRange o d off len) := by
    rw [State.cutRange, if_pos ho]
    refine (State.dropEntries_kept ..).step rfl (.madeRecovery rfl (.foldl (fun t g => ?_) _ _))
    exact .ite (.refl _ t) ((State.addTally_kept ..).mono rfl)
  exact congrArg (fun t : Tab Bench => tabGet t .reset c) (hkept.rest .benches rfl)

/-- The state in which a return of a range waits for what is in flight to it. -/
def State.returnBegun (s : State) (a : BenchArg) : State :=
  { s.cutRange a.bench a.die a.offset a.length with
    zeroFill := (s.cutRange a.bench a.die a.offset a.length).zeroFill ++ [(a.die, a.offset, a.length)] }

/-- RETURN_DIE_MEM of this hub's memory, its bench in order: not held, pinned, or returned. -/
theorem exec_returnDieMem_here (h : Accepted s 8 a u) (hc : u.commandCheck a [.active, .held] = resOk) (hhere : u.here a.hub = true) :
    exec .returnDieMem s = .next (
      if ¬u.rangeOk a.die a.offset a.length ∨ ¬u.holds a.bench a.die a.offset a.length then u.endCommand resRange 0
      else if u.pinnedIn a.bench a.die a.offset a.length then u.endCommand resInUse 0 else (u.returnBegun a).endReturn) := by
  rw [exec_returnDieMem, execReturnDieMem, if_neg (by simp [State.returning_idle h.idle])]
  refine (congrArg _ (h.runs _)).trans ?_
  rw [State.runReturn, if_neg (not_not_intro hc), if_neg (not_not_intro hhere)]
  rfl

end Grants

@[simp] theorem State.returnBegun_mailbox (s : State) (a : BenchArg) : (s.returnBegun a).mailbox = s.mailbox :=
  (State.cutRange_kept ..).rest .mailbox rfl
@[simp] theorem State.returnBegun_out (s : State) (a : BenchArg) : (s.returnBegun a).out = s.out :=
  (State.cutRange_kept ..).rest .out rfl
@[simp] theorem State.returnBegun_die (s : State) (a : BenchArg) (d : Nat) : (s.returnBegun a).die d = s.die d :=
  congrArg (fun t : Tab Spindle => tabGet t .reset d) ((State.cutRange_kept s a.bench a.die a.offset a.length).rest .spindles rfl)
@[simp] theorem State.returnBegun_zeroFill (s : State) (a : BenchArg) :
    (s.returnBegun a).zeroFill = s.zeroFill ++ [(a.die, a.offset, a.length)] :=
  congrArg (· ++ [(a.die, a.offset, a.length)]) ((State.cutRange_kept s a.bench a.die a.offset a.length).rest .zeroFill rfl)

/-- A return waits while something is in flight to its range, and else ends with its zero fill sent. -/
theorem State.endReturn_eq {s : State} {a : BenchArg} (ha : a = benchArg s.mailbox.arg) (hd : (s.die a.die).state ≠ .recovery) :
    s.endReturn = if s.busyIn a.bench a.die a.offset a.length then s
      else (s.emit (.die a.die (.zeroFill a.offset a.length))).endCommand resOk 0 := by
  subst ha
  rw [State.endReturn, State.sendDie_now hd rfl]

/-! ### The end of a zero fill -/

theorem exec_dieMemZeroFillDone_free {s : State} {d o n : Nat} (hz : s.zeroFill.contains (d, o, n) = true) (hb : s.mailbox.busy = false) :
    exec (.dieMemZeroFillDone d o n) s = .next
      (s.cascade.grantWaits.foldl State.grantWaited { s with zeroFill := s.zeroFill.erase (d, o, n) }) := by
  rw [exec_dieMemZeroFillDone, execDieMemZeroFillDone, if_neg (by simpa [State.returning_idle hb] using hz)]
  dsimp only
  rw [if_neg (by simp [hb])]

/-- Settles O48: the grant and the return by the check that decides them, then the end of a zero fill. -/
theorem dieMemoryGrants : Obligations.DieMemoryGrants := by
  refine ⟨?grant, ?grantWaits, ?grantRefused, ?giveBack, ?pinned, ?notHeld, ?noneWaits, ?oneWaits⟩
  case grant =>
    intro s u a hd ha hb hs ea eu hc hhere h256 (hg : u.grantResult a = resOk) hf
    have h : Accepted s 7 a u := ⟨hd, ha, hb, hs, ea, eu⟩
    have hrun : exec .grantDieMem s = .next ((u.takeGrant a.bench a.die a.offset a.length).endCommand resOk 0) := by
      rw [exec_grantDieMem_here h hc hhere, if_neg (not_not_intro hg), if_neg (Bool.eq_false_iff.mp hf)]
    refine ⟨_, hrun, ?_, State.endCommand_busy .., State.endCommand_result .., fun b hne => ?_⟩
    · rw [State.endCommand_bench_grants, State.takeGrant_bench h256, State.modBench_bench_same, h.bench]
    · rw [State.endCommand_bench_grants, State.takeGrant_bench h256, State.modBench_bench_ne _ _ hne,
        h.bench]
  case grantWaits =>
    intro s u a hd ha hb hs ea eu hc hhere (hg : u.grantResult a = resOk) hf
    rw [exec_grantDieMem_here ⟨hd, ha, hb, hs, ea, eu⟩ hc hhere, if_neg (not_not_intro hg), if_pos hf]
  case grantRefused =>
    intro s u a hd ha hb hs ea eu hc hhere hg
    rw [exec_grantDieMem_here ⟨hd, ha, hb, hs, ea, eu⟩ hc hhere]
    exact congrArg _ (if_pos hg)
  case giveBack =>
    intro s u a hd ha hb hs ea eu hc hhere h256 hr hh hp hdie
    have h : Accepted s 8 a u := ⟨hd, ha, hb, hs, ea, eu⟩
    have hgrants : ((u.returnBegun a).bench a.bench).grants = cutGrants (s.bench a.bench).grants a.die a.offset a.length := by
      rw [← h.bench]
      exact congrArg Bench.grants ((u.cutRange_bench h256 ..).trans (u.modBench_bench_same ..))
    have hrun : exec .returnDieMem s = .next (u.returnBegun a).endReturn := by
      rw [exec_returnDieMem_here h hc hhere, if_neg (by simp [hr, hh]), if_neg (Bool.eq_false_iff.mp hp)]
    refine ⟨_, hrun, ?_⟩
    rw [State.endReturn_eq (s := u.returnBegun a) (a := a) (by simpa using h.mailbox_arg) (by simpa [h.die] using hdie)]
    split
    · exact ⟨by simp [h.zeroFill], hgrants, fun hidle => absurd hidle (by simp [h.busy])⟩
    · refine ⟨((State.endCommand_kept ..).rest .zeroFill rfl).trans ?_, ?_, fun _ => ⟨State.endCommand_result .., ?_⟩⟩
      · exact (u.returnBegun_zeroFill a).trans (by rw [h.zeroFill])
      · exact (State.endCommand_bench_grants ..).trans hgrants
      · exact ((State.endCommand_kept ..).rest .out rfl).trans (by simp [h.out])
  case pinned =>
    intro s u a hd ha hb hs ea eu hc hhere hr hh hp
    rw [exec_returnDieMem_here ⟨hd, ha, hb, hs, ea, eu⟩ hc hhere, if_neg (by simp [hr, hh]), if_pos hp]
    rfl
  case notHeld =>
    intro s u a hd ha hb hs ea eu hc hhere hh
    rw [exec_returnDieMem_here ⟨hd, ha, hb, hs, ea, eu⟩ hc hhere, if_pos (.inr (by simp [hh]))]
    rfl
  case noneWaits =>
    intro s d o n hz hb hw
    rw [exec_dieMemZeroFillDone_free hz hb, hw, List.foldl_nil]
  case oneWaits =>
    intro s d o n w hz hb hw
    rw [exec_dieMemZeroFillDone_free hz hb, hw, List.foldl_cons, List.foldl_nil]

end Sys2Proof.Machine

/-! ## The re-attach deadline and the notice queue (O49; 05 R131, R132, R149–R152; 12 R356; 22 R596, R597) -/

namespace Sys2Proof.Machine

/-! ### The re-attach deadline -/

theorem exec_reattachDeadlineExpiry_due {s : State} {b : Nat} (h0 : b ≠ 0) (hs : (s.bench b).state = .active ∨ (s.bench b).state = .held)
    (hdet : (s.bench b).detached = true) (hk : (s.bench b).keep = false) (hset : (s.bench b).deadline ≠ 0)
    (hdue : (s.bench b).deadline.toNat ≤ s.now.toNat) (hon : s.domainOn 8 = true) :
    exec (.reattachDeadlineExpiry b) s = .next ((s.cancelDeadline (.reattach b)).startSweep b 3 true false) := by
  have hv : (s.bench b).state ≠ .vacant := by obtain hs | hs := hs <;> simp [hs]
  rw [exec_reattachDeadlineExpiry, execReattachDeadlineExpiry]
  rw [if_neg (by simpa [h0, hv, hdet, hk, hdue] using hset), State.ownedBy_on hon]

theorem exec_reattachDeadlineExpiry_notDue {s : State} {b : Nat}
    (h : (s.bench b).keep = true ∨ b = 0 ∨ s.now.toNat < (s.bench b).deadline.toNat) : exec (.reattachDeadlineExpiry b) s = .next s := by
  rw [exec_reattachDeadlineExpiry, execReattachDeadlineExpiry]
  refine if_pos ?_
  obtain hk | h0 | he := h <;> simp [*]

/-! ### Writing a notice (05 R150; 04 R103) -/

/-- A half of a notice joins the queue of its function. -/
theorem State.egressNotice_tlps {s : State} {b p f : Nat} (hp : (s.bench b).port = p) (hf : s.reqFn b = f) (last : Bool) (addr : Nat)
    (data : List Byte) : ((s.egressNotice b last addr data).port p).egress.map EgressTlp.tlp =
      (s.port p).egress.map EgressTlp.tlp ++ [.hostWrite p f plainAttr addr data] := by
  subst hp hf
  rw [State.egressNotice, State.modPort_port_same, List.map_append]
  rfl

/-- The address of the slot that the next notice is written to. -/
def NoticeQ.slot (q : NoticeQ) : Nat := q.base.toNat + 32 * (q.tail.toNat % q.size)

/-- The state in which a notice of the bench has begun to be written. -/
def State.noticeBegun (s : State) (b : Nat) (n : Notice) (q : NoticeQ) : State :=
  s.modBench b fun x => { x with notices := { q with writing := some n } }

/-- The state with both writes of a notice in the queue of its function. -/
def State.noticeWritten (s : State) (b : Nat) (n : Notice) (q : NoticeQ) : State :=
  ((s.noticeBegun b n q).egressNotice b false q.slot (n.bytes q.phase).1).egressNotice b true (q.slot + 28) (n.bytes q.phase).2

theorem exec_noticeWrite_writes {s : State} {b : Nat} {n : Notice} {q : NoticeQ} (ho : s.noticeOpen b = true)
    (hn : (s.bench b).notices.next b s.now = some (n, q)) : exec (.noticeWrite b) s = .next (s.noticeWritten b n q) := by
  rw [exec_noticeWrite, execNoticeWrite, if_neg (not_not_intro ho), hn]
  rfl

theorem exec_noticeWrite_closed {s : State} {b : Nat} (ho : s.noticeOpen b = false) : exec (.noticeWrite b) s = .next s :=
  if_pos (Bool.eq_false_iff.mp ho)

/-- The writes of a notice leave of the benches what its beginning left. -/
theorem State.noticeWritten_bench (s : State) (b : Nat) (n : Notice) (q : NoticeQ) (c : Nat) :
    (s.noticeWritten b n q).bench c = (s.noticeBegun b n q).bench c := rfl

theorem State.noticeWritten_tlps (s : State) (b : Nat) (n : Notice) (q : NoticeQ) :
    ((s.noticeWritten b n q).port (s.bench b).port).egress.map EgressTlp.tlp = (s.port (s.bench b).port).egress.map EgressTlp.tlp ++
      [.hostWrite (s.bench b).port (s.reqFn b) plainAttr q.slot (n.bytes q.phase).1,
       .hostWrite (s.bench b).port (s.reqFn b) plainAttr (q.slot + 28) (n.bytes q.phase).2] := by
  have hport : ((s.noticeBegun b n q).bench b).port = (s.bench b).port := by rw [State.noticeBegun, State.modBench_bench_same]
  have hfn : (s.noticeBegun b n q).reqFn b = s.reqFn b := by rw [State.reqFn, State.noticeBegun, State.modBench_bench_same]; rfl
  rw [State.noticeWritten, State.egressNotice_tlps (by exact hport) (by exact hfn), State.egressNotice_tlps hport hfn, List.append_assoc]
  rfl

/-! ### The second write of a notice is issued (05 R150) -/

/-- The queue of notices once the notice being written is out: TAIL advanced, PHASE inverted at the wrap. -/
def NoticeQ.issued (q : NoticeQ) : NoticeQ :=
  { q with writing := none, tail := q.tail + 1, phase := if q.tail.toNat % q.size + 1 = q.size then !q.phase else q.phase }

theorem State.sendVector_notices (s : State) (b v c : Nat) : ((s.sendVector b v).bench c).notices = (s.bench c).notices := by
  rw [State.sendVector]
  dsimp only
  split_ifs
  · rfl
  · exact State.modBench_keeps (g := Bench.notices) (by exact fun _ => rfl) _ b c

theorem State.fireVector_notices (s : State) (b v c : Nat) : ((s.fireVector b v).bench c).notices = (s.bench c).notices := by
  rw [State.fireVector]
  split_ifs
  · rfl
  · exact State.modBench_keeps (g := Bench.notices) (by exact fun _ => rfl) s b c
  · exact State.modBench_keeps (g := Bench.notices) (by exact fun _ => rfl) s b c
  · exact s.sendVector_notices b v c

theorem State.settleNotices_idle {s : State} {b : Nat} (h : (s.bench b).notices.ctrlWait = none) : s.settleNotices b = s := by
  rw [State.settleNotices, h]

/-- The notice written is out; no write of NOTICE_CTRL waited for it. -/
theorem State.noticeDone_notices {s : State} {b : Nat} (h : (s.bench b).notices.ctrlWait = none) :
    ((s.noticeDone b).bench b).notices = (s.bench b).notices.issued := by
  have hfired : (((s.modBench b fun x => { x with notices := x.notices.issued }).fireVector b 0).bench b).notices =
      (s.bench b).notices.issued := by
    rw [State.fireVector_notices, State.modBench_bench_same]
  exact (congrArg (fun t : State => (t.bench b).notices) (State.settleNotices_idle ((congrArg NoticeQ.ctrlWait hfired).trans h))).trans hfired

/-- The state in which the one TLP of a port, granted, has left it. -/
def State.tlpSent (s : State) (p : Nat) (x : EgressTlp) : State :=
  (((s.egressGranted p x).tagOut p x).2.countPerf (32 + 4 * p) x.tlp.hostBytes).emit ((s.egressGranted p x).tagOut p x).1

/-- The only TLP of a port, the last write of a notice, is granted. -/
theorem exec_egressGrant_notice {s : State} {p : Nat} {x : EgressTlp} (he : (s.port p).egress = [x]) (hr : s.tlpReady p x = true)
    (hn : x.notice = some true) : exec (.egressGrant p) s = .next ((s.tlpSent p x).noticeDone x.bench) := by
  have hheads : (firstOfFns (s.port p).egress []).filter (s.tlpReady p) = [x] := by
    rw [he, firstOfFns_one, List.filter_cons_of_pos hr, List.filter_nil]
  have hfind : [x].find? (fun t => t.payer == x.payer) = some x := by simp
  have harb : s.arbitrate (arbEgress p) ([x].map EgressTlp.payer).eraseDups = (some x.payer, (s.arbitrate (arbEgress p) [x.payer]).2) := rfl
  rw [exec_egressGrant, execEgressGrant, hheads]
  dsimp only
  rw [harb]
  dsimp only
  rw [hfind]
  dsimp only
  rw [if_pos hn]
  rfl

/-- A grant of bytes that no RATE_CAP counts leaves every bench. -/
theorem State.egressGranted_bench {x : EgressTlp} (hc : x.capped = 0) (s : State) (p b : Nat) : (s.egressGranted p x).bench b = s.bench b := by
  rw [State.egressGranted, if_pos hc]
  rfl

section Untagged

variable {x : EgressTlp} (howner : x.owner = none)

include howner

theorem State.tlpSent_bench (hc : x.capped = 0) (s : State) (p b : Nat) : (s.tlpSent p x).bench b = s.bench b := by
  rw [State.tlpSent, State.tagOut_untagged howner, ← s.egressGranted_bench hc p b]
  exact congrArg (fun t : Tab Bench => tabGet t .reset b) ((State.countPerf_kept ..).rest .benches rfl)

theorem State.tlpSent_out (s : State) (p : Nat) : (s.tlpSent p x).out = s.out ++ [x.tlp] := by
  rw [State.tlpSent, State.tagOut_untagged howner, State.emit_out, State.countPerf_out, State.egressGranted_out]

end Untagged

/-! ### NOTICE_HEAD and NOTICE_CTRL (22 R596, R597) -/

/-- A register write of an attached bench in service takes effect; a staged low dword is discarded. -/
theorem State.served_write {s : State} {b : Nat} (hdec : s.decodes (s.bench b).port (s.bench b).fn = true) (hs : s.benchServes b = true)
    (f : State → State) : s.served b f = f (s.unstage b) := by
  rw [State.served, if_neg (not_not_intro hdec), if_pos hs]

theorem State.unstage_keeps {α : Type} {g : Bench → α} (h : ∀ x w, g { x with staged := w } = g x) (s : State) (b c : Nat) :
    g ((s.unstage b).bench c) = g (s.bench c) := by
  rw [State.unstage]
  split_ifs
  · rfl
  · exact State.modBench_keeps (fun x => h x none) s b c

theorem State.unstage_bench_ne (s : State) {b c : Nat} (h : c ≠ b) : (s.unstage b).bench c = s.bench c := by
  rw [State.unstage]
  split_ifs
  · rfl
  · exact State.modBench_bench_ne s _ h

theorem State.unstage_notices (s : State) (b c : Nat) : ((s.unstage b).bench c).notices = (s.bench c).notices :=
  State.unstage_keeps (fun _ _ => rfl) s b c

theorem State.unstage_ports (s : State) (b : Nat) : (s.unstage b).ports = s.ports := (s.unstage_kept b).rest .ports rfl

theorem State.unstage_noticeQueued (s : State) (b : Nat) : (s.unstage b).noticeQueued b = s.noticeQueued b := by
  rw [State.noticeQueued, State.unstage_keeps (g := Bench.port) (fun _ _ => rfl), State.port, State.unstage_ports]
  rfl

/-- The queue of notices once a write of NOTICE_CTRL.ENABLE has taken effect: a size outside 4 to 12 leaves it disabled. -/
def NoticeQ.switched (q : NoticeQ) (on : Bool) : NoticeQ :=
  if on = true ∧ 4 ≤ q.log2.toNat ∧ q.log2.toNat ≤ 12 then { q with enable := true, ctrlWait := none, head := 0, tail := 0, phase := true }
  else { q with enable := false, ctrlWait := none }

theorem State.setNotices_notices (s : State) (b : Nat) (on : Bool) :
    ((s.setNotices b on).bench b).notices = (s.bench b).notices.switched on := by
  rw [State.setNotices, NoticeQ.switched]
  cases on with
  | false => simp
  | true =>
    by_cases hl : 4 ≤ (s.bench b).notices.log2.toNat ∧ (s.bench b).notices.log2.toNat ≤ 12
    · simp [hl, Nat.not_lt.mpr hl.1, Nat.not_lt.mpr hl.2]
    · have hout : (s.bench b).notices.log2.toNat < 4 ∨ 12 < (s.bench b).notices.log2.toNat := by omega
      have hen : (decide (4 ≤ (s.bench b).notices.log2.toNat) && decide ((s.bench b).notices.log2.toNat ≤ 12)) = false := by simpa using hl
      simp [hen, hl, hout, State.countBench]

theorem State.setNotices_bench_ne (s : State) {b c : Nat} (h : c ≠ b) (on : Bool) : (s.setNotices b on).bench c = s.bench c := by
  rw [State.setNotices]
  dsimp only
  split_ifs
  · rw [State.countBench, State.modBench_bench_ne _ _ h, State.modBench_bench_ne _ _ h]
  · rw [State.modBench_bench_ne _ _ h, State.modBench_bench_ne _ _ h]
  · exact State.modBench_bench_ne s _ h

section Served

variable {s : State} {b : Nat} (hdec : s.decodes (s.bench b).port (s.bench b).fn = true) (hs : s.benchServes b = true)

include hdec hs

theorem exec_noticeHeadWrite_stores {v : BitVec 32} (he : (s.bench b).notices.enable = true)
    (hv : ((s.bench b).notices.tail - v).toNat ≤ (s.bench b).notices.size) : exec (.noticeHeadWrite b v) s =
      .next ((s.unstage b).modBench b fun x => { x with notices := { x.notices with head := v } }) := by
  rw [exec_noticeHeadWrite, execNoticeHeadWrite, State.served_write hdec hs, State.putNoticeHead, s.unstage_notices b b]
  exact congrArg _ (if_pos ⟨he, hv⟩)

theorem exec_noticeHeadWrite_counts {v : BitVec 32} (hv : (s.bench b).notices.size < ((s.bench b).notices.tail - v).toNat) :
    exec (.noticeHeadWrite b v) s = .next ((s.unstage b).countBench b) := by
  rw [exec_noticeHeadWrite, execNoticeHeadWrite, State.served_write hdec hs, State.putNoticeHead, s.unstage_notices b b]
  exact congrArg _ (if_neg fun h => absurd hv (Nat.not_lt.mpr h.2))

theorem exec_noticeCtrl {c : Instr} {on : Bool} (hc : (c = .noticeEnable b ∧ on = true) ∨ (c = .noticeDisable b ∧ on = false)) :
    exec c s = .next ((s.unstage b).putNoticeCtrl b on) := by
  obtain ⟨rfl, rfl⟩ | ⟨rfl, rfl⟩ := hc
  · rw [exec_noticeEnable, execNoticeEnable, State.served_write hdec hs]
  · rw [exec_noticeDisable, execNoticeDisable, State.served_write hdec hs]

/-- A write of NOTICE_CTRL takes effect while no notice is being written. -/
theorem exec_noticeCtrl_sets {c : Instr} {on : Bool} (hc : (c = .noticeEnable b ∧ on = true) ∨ (c = .noticeDisable b ∧ on = false))
    (hq : s.noticeQueued b = false) : ∃ t, exec c s = .next t ∧ (t.bench b).notices = (s.bench b).notices.switched on ∧
      ∀ d, d ≠ b → t.bench d = s.bench d := by
  refine ⟨_, exec_noticeCtrl hdec hs hc, ?_⟩
  rw [State.putNoticeCtrl, s.unstage_noticeQueued, if_neg (Bool.eq_false_iff.mp hq)]
  exact ⟨(State.setNotices_notices ..).trans (by rw [s.unstage_notices]),
    fun d hd => (State.setNotices_bench_ne _ hd on).trans (s.unstage_bench_ne hd)⟩

end Served

/-- Settles O49: the deadline, the two writes of a notice and their grant, then the writes of NOTICE_HEAD and NOTICE_CTRL. -/
theorem detachDeadlineAndNotices : Obligations.DetachDeadlineAndNotices := by
  refine ⟨?due, fun s b h => exec_reattachDeadlineExpiry_notDue h, ?writes, fun s b ho => exec_noticeWrite_closed ho, ?issued, ?head,
    fun s b v hd hs hv => exec_noticeHeadWrite_counts hd hs hv, ?enable, ?badSize, ?disable, ?waits⟩
  case due =>
    intro s b h0 hs hdet hk hset hdue hon
    have hcut := State.startSweep_cut (s := s.cancelDeadline (.reattach b)) (b := b) (cause := 3) hs (.inl (by decide)) true false
    refine ⟨_, exec_reattachDeadlineExpiry_due h0 hs hdet hk hset hdue hon, ?_⟩
    rw [hcut, State.holdBench_bench, State.modBench_bench_same]
    refine ⟨rfl, rfl, by simp [h0]; rfl, fun c hc => ?_⟩
    rw [State.holdBench_bench, State.modBench_bench_ne _ _ hc]
    rfl
  case writes =>
    intro s b n q ho hn
    refine ⟨_, exec_noticeWrite_writes ho hn, ?_, s.noticeWritten_tlps b n q, rfl, fun c hc => ?_⟩
    · rw [State.noticeWritten_bench, State.noticeBegun, State.modBench_bench_same]
    · rw [State.noticeWritten_bench, State.noticeBegun, State.modBench_bench_ne _ _ hc]
  case issued =>
    intro s p x he hr howner hn hcap hw
    refine ⟨_, exec_egressGrant_notice he hr hn, ?_, ?_⟩
    · have hout : ((s.tlpSent p x).noticeDone x.bench).out = s.out ++ [x.tlp] :=
        ((State.noticeDone_kept ..).rest .out rfl).trans (State.tlpSent_out howner s p)
      rw [hout, List.take_of_length_le (by simp)]
    · have hbench := State.tlpSent_bench howner hcap s p x.bench
      rw [State.noticeDone_notices (by rw [hbench]; exact hw), hbench]
      rfl
  case head =>
    intro s b v hd hs he hv
    refine ⟨_, exec_noticeHeadWrite_stores hd hs he hv, ?_, fun c hc => ?_⟩
    · rw [State.modBench_bench_same, s.unstage_notices]
    · rw [State.modBench_bench_ne _ _ hc, s.unstage_bench_ne hc]
  case enable =>
    intro s b hd hs hq h4 h12
    obtain ⟨t, ht, hn, hother⟩ := exec_noticeCtrl_sets hd hs (.inl ⟨rfl, rfl⟩) hq
    exact ⟨t, ht, hn.trans (if_pos ⟨rfl, h4, h12⟩), hother⟩
  case badSize =>
    intro s b hd hs hq hl
    obtain ⟨t, ht, hn, hother⟩ := exec_noticeCtrl_sets hd hs (.inl ⟨rfl, rfl⟩) hq
    exact ⟨t, ht, congrArg NoticeQ.enable (hn.trans (if_neg (by omega))), hother⟩
  case disable =>
    intro s b hd hs hq
    obtain ⟨t, ht, hn, hother⟩ := exec_noticeCtrl_sets hd hs (.inr ⟨rfl, rfl⟩) hq
    exact ⟨t, ht, hn.trans (if_neg (by simp)), hother⟩
  case waits =>
    intro s b c x hc hd hs hq
    refine ⟨_, exec_noticeCtrl hd hs hc, ?_⟩
    rw [State.putNoticeCtrl, s.unstage_noticeQueued, if_pos hq, State.modBench_bench_same, s.unstage_notices]
    exact ⟨rfl, s.unstage_ports b⟩

end Sys2Proof.Machine

/-! ## Rings: what the shared operations leave of them (06 R156–R183) -/

namespace Sys2Proof.Machine

/-- A ring is a part of its bench. -/
theorem State.ring_congr {s t : State} (h : t.benches = s.benches) (b r : Nat) : t.ring b r = s.ring b r := by
  rw [State.ring, State.bench, h]
  rfl

theorem State.ring_eq_of_rings {s t : State} {b : Nat} (h : (t.bench b).rings = (s.bench b).rings) (r : Nat) : t.ring b r = s.ring b r := by
  rw [State.ring, h]
  rfl

@[simp] theorem State.countBench_ring (s : State) (b r : Nat) : (s.countBench b).ring b r = s.ring b r :=
  s.modBench_ring_same b r _ rfl

@[simp] theorem State.unstage_ring (s : State) (b c r : Nat) : (s.unstage b).ring c r = s.ring c r :=
  State.ring_eq_of_rings (State.unstage_keeps (g := Bench.rings) (fun _ _ => rfl) s b c) r

theorem State.unstage_none {s : State} {b : Nat} (h : (s.bench b).staged = none) : s.unstage b = s := by
  rw [State.unstage, h]
  rfl

/-- A record of the trace changes its bench's trace ring alone. -/
theorem State.traceTo_keeps {α : Type} {g : Bench → α} (h : ∀ x w, g { x with trace := w } = g x) (s : State) (o b r e : Nat)
    (c : BitVec 32) (x : BitVec 64) (y : BitVec 32) (k : Nat) : g ((s.traceTo o b r e c x y).bench k) = g (s.bench k) := by
  rw [State.traceTo]
  dsimp only
  split_ifs
  · rfl
  all_goals exact State.modBench_keeps (fun x => h x _) _ o k

@[simp] theorem State.trace_ring (s : State) (b r e : Nat) (c : BitVec 32) (x : BitVec 64) (y : BitVec 32) (k q : Nat) :
    (s.trace b r e c x y).ring k q = s.ring k q := by
  have hto (t : State) (o : Nat) : ((t.traceTo o b r e c x y).bench k).rings = (t.bench k).rings :=
    State.traceTo_keeps (g := Bench.rings) (fun _ _ => rfl) t o b r e c x y k
  refine State.ring_eq_of_rings ?_ q
  rw [State.trace]
  split_ifs
  · rw [hto, hto]
  · exact hto s b

@[simp] theorem State.traceRing_ring (s : State) (b r e n k q : Nat) : (s.traceRing b r e n).ring k q = s.ring k q :=
  s.trace_ring ..

theorem State.giveUp_ring (s : State) (b r n : Nat) : (s.giveUp b r n).ring b r = { s.ring b r with channel := none } := by
  rw [State.giveUp]
  cases hc : (s.ring b r).channel with
  | none =>
    show s.ring b r = { s.ring b r with channel := none }
    rw [← hc]
  | some k =>
    dsimp only
    rw [State.trace_ring]
    exact State.modRing_ring_same ..

/-- A ring parked; the rest of it is as it was but its channel and its pending edges. -/
theorem State.parkRing_ring (s : State) (b r : Nat) (c : ParkCause) : ∃ k e f m, (s.parkRing b r c).ring b r =
    { s.ring b r with state := .parked, park := c, channel := k, edges := e, edgesFrom := f, edgeMarks := m } := by
  rw [State.parkRing, State.traceRing_ring, State.modRing_ring_same]
  by_cases hc : c = .halt
  · rw [if_pos hc]
    exact ⟨_, _, _, _, rfl⟩
  · rw [if_neg hc, State.giveUp_ring]
    exact ⟨_, _, _, _, rfl⟩

theorem State.fetchPark_stays {s : State} {b r : Nat}
    (h : (s.ring b r).fetchFailed = false ∨ ((s.ring b r).state ≠ .running ∧ (s.ring b r).state ≠ .pausing)) : s.fetchPark b r = s := by
  rw [State.fetchPark]
  refine if_neg ?_
  rintro ⟨hf, -, hs⟩
  obtain h | ⟨hr, hp⟩ := h
  · simp [hf] at h
  · exact hs.elim hr hp

@[simp] theorem State.flushRead_ring (s : State) (b : Nat) (w : TagOwner) (x : Bool) (a c r : Nat) : (s.flushRead b w x a).ring c r = s.ring c r :=
  State.ring_congr ((s.flushRead_kept b w x a).rest .benches rfl) c r

theorem State.abandonRing_descs (s : State) (b r : Nat) : ((s.abandonRing b r).ring b r).descs = [] := by
  rw [State.abandonRing, State.giveUp_ring, State.abandonWork]
  dsimp only
  rw [State.modRing_ring_same]

end Sys2Proof.Machine

/-! ## Register writes to a ring (22 R590, R593) -/

namespace Sys2Proof.Machine

section Served

variable {s : State} {b : Nat} (hdec : s.decodes (s.bench b).port (s.bench b).fn = true) (hs : s.benchServes b = true)

include hdec hs

theorem State.servedRing_reached {r : Nat} (hr : r < (s.bench b).ringCount) (hon : s.domainOn (clusterDomain (s.ring b r).clusterB) = true)
    (o : Nat) (v : BitVec 32) (f : State → State) : s.servedRing b r o v f = f (s.unstage b) := by
  have hcount : ((s.unstage b).bench b).ringCount = (s.bench b).ringCount := State.unstage_keeps (fun _ _ => rfl) s b b
  have hdom (n : Nat) : (s.unstage b).domainOn n = s.domainOn n := by
    rw [State.domainOn, State.domain, (s.unstage_kept b).rest .hearth rfl]
    rfl
  rw [State.servedRing, State.served_write hdec hs]
  dsimp only
  rw [hcount, if_neg (Nat.not_le.mpr hr), State.unstage_ring, State.atDomain, hdom, if_pos hon]

theorem State.servedRing_absent {r : Nat} (hr : (s.bench b).ringCount ≤ r) (hst : (s.bench b).staged = none) (o : Nat) (v : BitVec 32)
    (f : State → State) : s.servedRing b r o v f = s.countBench b := by
  rw [State.servedRing, State.served_write hdec hs, State.unstage_none hst]
  exact if_pos hr

end Served

end Sys2Proof.Machine

/-! ## RING_CTRL (O33; 06 R156, R159, R165, R180–R183; 22 R606) -/

namespace Sys2Proof.Machine

/-! ### What a write of RING_CTRL does, by the ring it meets (22 R606) -/

section PutRingCtrl

variable {s : State} {b r : Nat} {v : BitVec 32}

/-- A DISABLED ring takes the mode bits and PAUSE, and is enabled by ENABLE. -/
theorem State.putRingCtrl_disabled (hd : (s.ring b r).state = .disabled) (h0 : v.getLsbD 0 = true) : ∃ u : State,
    s.putRingCtrl b r v = u.enableRing b r ∧ u.ring b r = { (s.ring b r).setMode v with pause := v.getLsbD 1 } ∧
      ((u.bench b).detached = (s.bench b).detached ∧ (u.bench b).port = (s.bench b).port ∧ (u.bench b).incarn = (s.bench b).incarn) ∧
      Kept 0x20 s u := by
  have hring (f : Ring → Ring) : (s.modRing b r f).ring b r = f (s.ring b r) := s.modRing_ring_same b r f
  rw [State.putRingCtrl]
  simp only [hd, h0, if_true]
  split_ifs
  · refine ⟨_, rfl, by rw [State.countBench_ring, hring], ?_, (State.countBench_kept ..).step rfl ((s.modRing_kept ..).mono rfl)⟩
    simp [State.countBench]
  · exact ⟨_, rfl, hring _, by simp, (s.modRing_kept ..).mono rfl⟩

/-- A command of a ring that is being disabled is refused and counted, ABORT apart, and ENABLE = 0 where it is not accepted. -/
theorem State.putRingCtrl_counts (hd : (s.ring b r).state ≠ .disabled)
    (h : (s.ring b r).disabling = true ∨ (v.getLsbD 0 = false ∧ (s.ring b r).mayDisable = false)) (h3 : v.getLsbD 3 = false) :
    s.putRingCtrl b r v = s.countBench b := by
  rw [State.putRingCtrl]
  dsimp only
  rw [if_neg hd]
  obtain hx | ⟨h0, hm⟩ := h
  · exact if_pos (.inr ⟨hx, h3⟩)
  · refine ite_eq_left_iff.mpr fun _ => ?_
    rw [if_neg (Bool.eq_false_iff.mp h3), if_pos ⟨Bool.eq_false_iff.mp h0, Bool.eq_false_iff.mp hm⟩]

theorem State.putRingCtrl_abort (hd : (s.ring b r).state ≠ .disabled) (hm : ringMode v = (s.ring b r).mode) (h3 : v.getLsbD 3 = true) :
    s.putRingCtrl b r v = (s.modRing b r fun x => { x with pause := v.getLsbD 1 }).abortRing b r := by
  rw [State.putRingCtrl]
  dsimp only
  rw [if_neg hd, if_neg (by simp [hm, h3]), if_pos h3]

end PutRingCtrl

/-- PAUSE and then RESUME, as a value of RING_CTRL has them. -/
def State.pauseResume (s : State) (b r : Nat) (v : BitVec 32) : State :=
  if v.getLsbD 2 then (s.pauseRing b r (v.getLsbD 1)).resumeRing b r (s.ring b r) else s.pauseRing b r (v.getLsbD 1)

/-- What is not refused takes effect in the order PAUSE, RESUME, ENABLE = 0. -/
theorem State.putRingCtrl_obeys {s : State} {b r : Nat} {v : BitVec 32} (hd : (s.ring b r).state ≠ .disabled)
    (hm : ringMode v = (s.ring b r).mode) (hx : (s.ring b r).disabling = false) (h3 : v.getLsbD 3 = false)
    (he : v.getLsbD 0 = true ∨ (s.ring b r).mayDisable = true) :
    s.putRingCtrl b r v = if v.getLsbD 0 then s.pauseResume b r v else (s.pauseResume b r v).stopEnabled b r := by
  rw [State.putRingCtrl]
  dsimp only
  rw [if_neg hd, if_neg (by simp [hm, hx]), if_neg (Bool.eq_false_iff.mp h3), if_neg (by rintro ⟨h0, hd⟩; exact he.elim h0 hd)]
  rfl

/-! ### PAUSE and RESUME of a ring (06 R180, R181) -/

section Ring

variable {x : Ring}

theorem Ring.setPause_idle (hs : x.state = .idle ∨ x.state = .running) (hd : x.descs = []) :
    x.setPause true = { x with pause := true, state := .paused } := by
  obtain h | h := hs <;> simp [Ring.setPause, Ring.mayResume, Ring.settle, h, hd]

theorem Ring.setPause_paused (hs : x.state = .paused) :
    x.setPause false = { x with pause := false, state := if x.head = x.tail then .idle else .running } := by
  simp [Ring.setPause, Ring.settle, hs]

theorem Ring.setPause_parked (hs : x.state = .parked) : x.setPause false = { x with pause := false } := by
  simp [Ring.setPause, Ring.settle, hs]

theorem Ring.resumed_unpaused (hp : x.pause = false) : x.resumed = { x with
    descs := x.kept, fetchNext := x.head + BitVec.ofNat 32 x.kept.length, ownStop := false, fetchFailed := false, park := .none
    state := if x.head = x.tail then .idle else .running } := by
  simp [Ring.resumed, Ring.unpark, Ring.settle, hp]

theorem Ring.mayResume_parked (h : x.mayResume = true) : x.state = .parked := by
  rw [Ring.mayResume, Bool.and_eq_true, beq_iff_eq] at h
  exact h.1

theorem Ring.started_eq (x : Ring) : x.started = { x with
    state := if x.pause then .paused else .idle, park := .none, configError := false, head := 0, tail := 0, badTail := 0, ownLate := 0, spurious := 0
    descs := [], fetchNext := 0, ownStop := false, fetchFailed := false, disabling := false, flushing := false, retake := false
    edges := 0, edgesFrom := none, edgeMarks := [], lastDesc := none } := by
  cases hp : x.pause <;> simp [Ring.started, Ring.settle, hp]

end Ring

/-- A ring gives up its channel where it stands PAUSED. -/
def Ring.unchannelled (x : Ring) : Ring := if x.state = .paused then { x with channel := none } else x

theorem State.pauseRing_ring {s : State} {b r : Nat} {p : Bool} {x : Ring} (hx : (s.ring b r).setPause p = x)
    (hf : x.fetchFailed = false ∨ (x.state ≠ .running ∧ x.state ≠ .pausing)) : (s.pauseRing b r p).ring b r = x.unchannelled := by
  have hset : (s.modRing b r fun x => x.setPause p).ring b r = x := (s.modRing_ring_same ..).trans hx
  rw [State.pauseRing, Ring.unchannelled, hset]
  by_cases hp : x.state = .paused
  · rw [if_pos hp, if_pos hp, State.fetchPark_stays, State.giveUp_ring, hset]
    rw [State.giveUp_ring, hset]
    exact .inr (by simp [hp])
  · rw [if_neg hp, if_neg hp, State.fetchPark_stays (by rw [hset]; exact hf), hset]

theorem State.resumeRing_ring {s : State} {b r : Nat} {was x : Ring} (hm : was.mayResume = true) (hx : (s.ring b r).resumed = x) :
    (s.resumeRing b r was).ring b r = x.unchannelled := by
  have hset : ((s.modRing b r Ring.resumed).traceRing b r 4 0).ring b r = x := by rw [State.traceRing_ring, s.modRing_ring_same, hx]
  rw [State.resumeRing, if_neg (not_not_intro hm), Ring.unchannelled]
  dsimp only
  rw [hset]
  by_cases hp : x.state = .paused
  · rw [if_pos hp, if_pos hp, State.giveUp_ring, hset]
  · rw [if_neg hp, if_neg hp, hset]

theorem State.benchServes_attached {s : State} {b : Nat} (hs : s.benchServes b = true) : (s.bench b).detached = false := by
  rw [State.benchServes, Bool.and_eq_true, Bool.not_eq_true'] at hs
  exact hs.2

theorem State.incarnOf_congr {s t : State} {b : Nat} (hi : (t.bench b).incarn = (s.bench b).incarn) (hc : t.cascade = s.cascade) :
    t.incarnOf b = s.incarnOf b := by
  rw [State.incarnOf, State.guest, hi, hc]
  rfl

theorem State.addTally_tallies (s : State) (k b unit n : Nat) : (s.addTally k b unit n).recovery.tallies =
    s.recovery.tallies ++ [⟨k, .held, benchOwner b, s.incarnOf b, unit, BitVec.ofNat 64 n, s.now, noExpiry⟩] := rfl

/-! ### ENABLE = 1 (06 R156, R159, R165) -/

theorem State.takeKnock_off {s : State} {b r : Nat} (h : (s.ring b r).knockEn = false) :
    s.takeKnock b r = s.modRing b r fun x => { x with knock := .off } :=
  if_pos (Bool.eq_false_iff.mp h)

/-- A port without CXL is polled. -/
theorem State.takeKnock_polling {s : State} {b r : Nat} (h : (s.ring b r).knockEn = true) (hd : (s.bench b).detached = false)
    (hc : (s.port (s.bench b).port).cxl = false) : s.takeKnock b r = s.modRing b r fun x => { x with knock := .polling } := by
  rw [State.takeKnock]
  dsimp only
  rw [if_neg (not_not_intro h), if_neg (Bool.eq_false_iff.mp hd), if_pos (Bool.eq_false_iff.mp hc)]

theorem State.enableRing_bare {s : State} {b r : Nat} (hz : (s.ring b r).sizeOk = true) (hk : (s.ring b r).knockEn = false) :
    (s.enableRing b r).ring b r = { (s.ring b r).started with knock := .off } := by
  have hk' : ((s.modRing b r Ring.started).ring b r).knockEn = false := by rw [s.modRing_ring_same, Ring.started_eq]; exact hk
  rw [State.enableRing]
  dsimp only
  rw [if_pos hz, if_neg (Bool.eq_false_iff.mp hk), State.takeKnock_off hk', State.modRing_ring_same, State.modRing_ring_same]

/-- A ring with KNOCK_EN on a port without CXL: its knock tracker is held under a tally, and it polls. -/
theorem State.enableRing_polls {s : State} {b r : Nat} (hz : (s.ring b r).sizeOk = true) (hk : (s.ring b r).knockEn = true)
    (hd : (s.bench b).detached = false) (hc : (s.port (s.bench b).port).cxl = false) : s.enableRing b r =
      ((s.modRing b r Ring.started).addTally 0x06 b (s.ring b r).clusterB.toNat (s.ring b r).context).modRing b r fun x =>
        { x with knock := .polling } := by
  have hk' : ((s.modRing b r Ring.started).ring b r).knockEn = true := by rw [s.modRing_ring_same, Ring.started_eq]; exact hk
  rw [State.enableRing]
  dsimp only
  rw [if_pos hz, if_pos hk]
  refine State.takeKnock_polling hk' ((s.modRing_bench_detached ..).trans hd) ?_
  show (s.port ((s.modRing b r Ring.started).bench b).port).cxl = false
  rw [s.modRing_bench_port, hc]

theorem State.enableRing_badSize {s : State} {b r : Nat} (hz : (s.ring b r).sizeOk = false) :
    (s.enableRing b r).ring b r = { s.ring b r with configError := true } := by
  rw [State.enableRing, if_neg (Bool.eq_false_iff.mp hz), State.modRing_ring_same]

/-! ### ENABLE = 0 and ABORT (06 R182, R183) -/

theorem State.stopEnabled_ring (s : State) (b r : Nat) :
    ((s.stopEnabled b r).ring b r).disabling = true ∧ ((s.stopEnabled b r).ring b r).descs = [] := by
  rw [State.stopEnabled, State.modRing_ring_same]
  exact ⟨rfl, s.abandonRing_descs b r⟩

theorem State.abortRing_ring (s : State) (b r : Nat) :
    ((s.abortRing b r).ring b r).state = .aborting ∧ ((s.abortRing b r).ring b r).park = .none := by
  rw [State.abortRing]
  split
  · rw [State.flushRead_ring, State.modRing_ring_same]
    exact ⟨rfl, rfl⟩
  · rw [State.modRing_ring_same]
    exact ⟨rfl, rfl⟩

/-! ### The commands -/

section Reached

variable {s : State} {b r : Nat} (hdec : s.decodes (s.bench b).port (s.bench b).fn = true) (hs : s.benchServes b = true)
  (hr : r < (s.bench b).ringCount) (hon : s.domainOn (clusterDomain (s.ring b r).clusterB) = true)

include hdec hs hr hon

theorem State.ringCtrl_reached (v : BitVec 32) : s.ringCtrl b r v = (s.unstage b).putRingCtrl b r v :=
  State.servedRing_reached hdec hs hr hon ..

/-- A write with ENABLE set of a DISABLED ring enables the ring with the mode bits and PAUSE as written. -/
theorem State.ringCtrl_enables {v : BitVec 32} (hd : (s.ring b r).state = .disabled) (h0 : v.getLsbD 0 = true) : ∃ u : State,
    s.ringCtrl b r v = u.enableRing b r ∧ u.ring b r = { (s.ring b r).setMode v with pause := v.getLsbD 1 } ∧
      ((u.bench b).detached = (s.bench b).detached ∧ (u.bench b).port = (s.bench b).port ∧ (u.bench b).incarn = (s.bench b).incarn) ∧
      Kept 0x20 s u := by
  have hk {α : Type} {g : Bench → α} (h : ∀ x w, g { x with staged := w } = g x) := State.unstage_keeps h s b b
  obtain ⟨u, hu, hring, ⟨h1, h2, h3⟩, hkept⟩ := State.putRingCtrl_disabled (s := s.unstage b) (by rw [State.unstage_ring]; exact hd) h0
  refine ⟨u, (State.ringCtrl_reached hdec hs hr hon v).trans hu, by rw [hring, State.unstage_ring], ?_, (s.unstage_kept b).trans hkept⟩
  exact ⟨h1.trans (hk (by exact fun _ _ => rfl)), h2.trans (hk (by exact fun _ _ => rfl)), h3.trans (hk (by exact fun _ _ => rfl))⟩

theorem State.ringCtrl_counts {v : BitVec 32} (hd : (s.ring b r).state ≠ .disabled)
    (h : (s.ring b r).disabling = true ∨ (v.getLsbD 0 = false ∧ (s.ring b r).mayDisable = false)) (h3 : v.getLsbD 3 = false) :
    s.ringCtrl b r v = (s.unstage b).countBench b := by
  have hring := s.unstage_ring b b r
  rw [State.ringCtrl_reached hdec hs hr hon]
  exact State.putRingCtrl_counts (by rw [hring]; exact hd) (by rw [hring]; exact h) h3

theorem State.ringCtrl_obeys {v : BitVec 32} (hd : (s.ring b r).state ≠ .disabled) (hm : ringMode v = (s.ring b r).mode)
    (hx : (s.ring b r).disabling = false) (h3 : v.getLsbD 3 = false) (he : v.getLsbD 0 = true ∨ (s.ring b r).mayDisable = true) :
    s.ringCtrl b r v = if v.getLsbD 0 then (s.unstage b).pauseResume b r v else ((s.unstage b).pauseResume b r v).stopEnabled b r := by
  have hring := s.unstage_ring b b r
  rw [State.ringCtrl_reached hdec hs hr hon]
  exact State.putRingCtrl_obeys (by rw [hring]; exact hd) (by rw [hring]; exact hm) (by rw [hring]; exact hx) h3 (by rw [hring]; exact he)

theorem State.ringCtrl_aborts {v : BitVec 32} (hd : (s.ring b r).state ≠ .disabled) (hm : ringMode v = (s.ring b r).mode)
    (h3 : v.getLsbD 3 = true) :
    s.ringCtrl b r v = ((s.unstage b).modRing b r fun x => { x with pause := v.getLsbD 1 }).abortRing b r := by
  have hring := s.unstage_ring b b r
  rw [State.ringCtrl_reached hdec hs hr hon]
  exact State.putRingCtrl_abort (by rw [hring]; exact hd) (by rw [hring]; exact hm) h3

/-- A write that keeps ENABLE and leaves RESUME clear does what PAUSE says. -/
theorem State.ringCtrl_pauses {v : BitVec 32} (hd : (s.ring b r).state ≠ .disabled) (hm : ringMode v = (s.ring b r).mode)
    (hx : (s.ring b r).disabling = false) (h3 : v.getLsbD 3 = false) (h0 : v.getLsbD 0 = true) (h2 : v.getLsbD 2 = false) :
    s.ringCtrl b r v = (s.unstage b).pauseRing b r (v.getLsbD 1) := by
  rw [State.ringCtrl_obeys hdec hs hr hon hd hm hx h3 (.inl h0), if_pos h0, State.pauseResume, if_neg (Bool.eq_false_iff.mp h2)]

end Reached

theorem exec_ringDisableDone_done {s : State} {b r : Nat} (hx : (s.ring b r).disabling = true) (hw : s.ringWrites b r = 0) :
    exec (.ringDisableDone b r) s = .next (s.modRing b r fun x => { x with state := .disabled, park := .none, disabling := false, descs := [] }) := by
  rw [exec_ringDisableDone, execRingDisableDone, if_neg (by simp [hx, hw])]

theorem exec_abortDone_done {s : State} {b r : Nat} (ha : (s.ring b r).state = .aborting) (hw : s.ringWrites b r = 0)
    (hf : (s.ring b r).flushing = false) :
    exec (.abortDone b r) s = .next (s.modRing b r fun x => { x with state := .disabled, descs := [] }) := by
  rw [exec_abortDone, execAbortDone]
  exact if_neg (by simp [ha, hw, hf])

/-- Settles O33: each command by what a write of RING_CTRL does to a ring in that state. -/
theorem ringControl : Obligations.RingControl := by
  refine ⟨?enable, ?badSize, ?disableIdle, ?disableRunning, ?disableDone, ?pause, ?unpause, ?resume, ?abort, ?abortDone, ?absent, ?polls,
    ?notDone, ?disabling⟩
  case enable =>
    intro s b r v hdec hs hr hon hd hz h4
    obtain ⟨u, hu, hring, -, -⟩ := State.ringCtrl_enables (v := v ||| 1) hdec hs hr hon hd (by simp)
    refine ⟨_, congrArg Host.Outcome.next hu, ?_⟩
    rw [State.enableRing_bare (by rw [hring]; exact hz) (by simpa [hring, Ring.setMode, ringMode] using h4), hring, Ring.started_eq]
    simp [Ring.setMode]
  case badSize =>
    intro s b r v hdec hs hr hon hd hz
    obtain ⟨u, hu, hring, -, -⟩ := State.ringCtrl_enables (v := v ||| 1) hdec hs hr hon hd (by simp)
    refine ⟨_, congrArg Host.Outcome.next hu, ?_⟩
    rw [State.enableRing_badSize (by rw [hring]; exact hz), hring]
    exact ⟨hd, rfl⟩
  case disableIdle =>
    intro s b r v hdec hs hr hon hx hi hm h2 h3
    have hobeys := State.ringCtrl_obeys (v := v &&& ~~~1#32) hdec hs hr hon (by simp [hi]) (by simpa [ringMode] using hm) hx
      (by simpa using h3) (.inr (by simp [Ring.mayDisable, hi]))
    exact ⟨_, congrArg Host.Outcome.next (hobeys.trans (if_neg (by simp))), State.stopEnabled_ring _ b r⟩
  case disableRunning =>
    intro s b r v hdec hs hr hon hrun hm h3
    have hcounts := State.ringCtrl_counts (v := v &&& ~~~1#32) hdec hs hr hon (by simp [hrun])
      (.inr ⟨by simp, by simp [Ring.mayDisable, hrun]⟩) (by simpa using h3)
    refine ⟨_, congrArg Host.Outcome.next hcounts, by rw [State.countBench_ring, State.unstage_ring], ?_⟩
    rw [State.countBench_badAccess, State.unstage_keeps (g := fun x => x.counters.badAccess) (fun _ _ => rfl)]
  case disableDone =>
    intro s b r hx hw
    exact ⟨_, exec_ringDisableDone_done hx hw, s.modRing_ring_same .., fun q hq => s.modRing_ring_ne b _ hq⟩
  case pause =>
    intro s b r v hdec hs hr hon hx hst hd hm h0 h2 h3
    have hpauses := State.ringCtrl_pauses (v := v ||| 2) hdec hs hr hon (by obtain h | h := hst <;> simp [h]) (by simpa [ringMode] using hm) hx
      (by simpa using h3) (by simpa using h0) (by simpa using h2)
    have hset : ((s.unstage b).ring b r).setPause ((v ||| 2).getLsbD 1) = { s.ring b r with pause := true, state := .paused } := by
      rw [State.unstage_ring, ← Ring.setPause_idle hst hd]
      simp
    refine ⟨_, congrArg Host.Outcome.next hpauses, ?_⟩
    rw [State.pauseRing_ring hset (.inr (by simp))]
    exact ⟨rfl, rfl, rfl, rfl⟩
  case unpause =>
    intro s b r v hdec hs hr hon hx hf hst hm h0 h2 h3
    have hpauses := State.ringCtrl_pauses (v := v &&& ~~~2#32) hdec hs hr hon (by simp [hst]) (by simpa [ringMode] using hm) hx
      (by simpa using h3) (by simpa using h0) (by simpa using h2)
    have hset : ((s.unstage b).ring b r).setPause ((v &&& ~~~2#32).getLsbD 1) =
        { s.ring b r with pause := false, state := if (s.ring b r).head = (s.ring b r).tail then .idle else .running } := by
      rw [State.unstage_ring, ← Ring.setPause_paused hst]
      simp
    refine ⟨_, congrArg Host.Outcome.next hpauses, ?_⟩
    rw [State.pauseRing_ring hset (.inl hf), Ring.unchannelled]
    exact if_neg (by dsimp only; split_ifs <;> simp)
  case resume =>
    intro s b r v hdec hs hr hon hx hres hm h0 h1 h3
    have hp := Ring.mayResume_parked hres
    have hobeys := State.ringCtrl_obeys (v := v ||| 4) hdec hs hr hon (by simp [hp]) (by simpa [ringMode] using hm) hx
      (by simpa using h3) (.inl (by simpa using h0))
    have hv : (v ||| 4).getLsbD 1 = false := by simpa using h1
    have hset : ((s.unstage b).ring b r).setPause ((v ||| 4).getLsbD 1) = { s.ring b r with pause := false } := by
      rw [State.unstage_ring, ← Ring.setPause_parked hp, hv]
    have hring := State.pauseRing_ring hset (.inr (by simp [hp]))
    rw [Ring.unchannelled, if_neg (by simp [hp])] at hring
    refine ⟨_, congrArg Host.Outcome.next (hobeys.trans ((if_pos (by simpa using h0)).trans (if_pos (by simp)))), ?_⟩
    rw [State.resumeRing_ring (by rw [State.unstage_ring]; exact hres) (congrArg Ring.resumed hring), Ring.resumed_unpaused rfl, Ring.unchannelled]
    rw [if_neg (by dsimp only; split_ifs <;> simp)]
    exact ⟨rfl, rfl, rfl, rfl⟩
  case abort =>
    intro s b r v hdec hs hr hon hd hm
    have haborts := State.ringCtrl_aborts (v := v ||| 8) hdec hs hr hon hd (by simpa [ringMode] using hm) (by simp)
    exact ⟨_, congrArg Host.Outcome.next haborts, State.abortRing_ring _ b r⟩
  case abortDone =>
    intro s b r ha hw hf
    exact ⟨_, exec_abortDone_done ha hw hf, s.modRing_ring_same .., fun q hq => s.modRing_ring_ne b _ hq⟩
  case absent =>
    intro s c b r v hdec hs hr hst hc
    have habsent := State.servedRing_absent hdec hs hr hst
    obtain rfl | rfl | rfl | rfl | rfl | rfl | rfl := hc <;> exact congrArg Host.Outcome.next (habsent ..)
  case polls =>
    intro s b r v hdec hs hr hon hd hz h4 hcxl
    obtain ⟨u, hu, hring, ⟨hdet, hport, hinc⟩, hkept⟩ := State.ringCtrl_enables (v := v ||| 1) hdec hs hr hon hd (by simp)
    have hk : (u.ring b r).knockEn = true := by simpa [hring, Ring.setMode, ringMode] using h4
    have hpolls := State.enableRing_polls (by rw [hring]; exact hz) hk (hdet.trans (State.benchServes_attached hs))
      (by rw [hport, State.port, hkept.rest .ports rfl]; exact hcxl)
    have hrecovery : u.recovery = s.recovery := hkept.rest .recovery rfl
    have hnow : u.now = s.now := congrArg Hearth.time (hkept.rest .hearth rfl)
    have hincarn : (u.modRing b r Ring.started).incarnOf b = s.incarnOf b :=
      State.incarnOf_congr ((u.modRing_bench_incarn ..).trans hinc) (hkept.rest .cascade rfl)
    refine ⟨_, congrArg Host.Outcome.next (hu.trans hpolls), ?_, ?_, ?_⟩
    · rw [State.modRing_ring_same]
    · rw [State.modRing_ring_same]
      show ((u.modRing b r Ring.started).ring b r).knockEn = true
      rw [State.modRing_ring_same, Ring.started_eq]
      exact hk
    · rw [State.modRing_recovery, State.addTally_tallies, hincarn, State.modRing_recovery, State.modRing_now, hrecovery, hnow, hring]
      rfl
  case notDone =>
    intro s b r _ hw
    exact if_pos (.inr hw)
  case disabling =>
    intro s b r v hdec hs hr hon hd hx h3 hst
    have hcounts := State.ringCtrl_counts (v := v ||| 4) hdec hs hr hon hd (.inl hx) (by simpa using h3)
    rw [State.unstage_none hst] at hcounts
    exact congrArg _ hcounts

end Sys2Proof.Machine

/-! ## Doorbells, knock lines, the OWN retry (O34; 06 R161–R170; 09 R275) -/

namespace Sys2Proof.Machine

/-! ### A tail offered (06 R161) -/

theorem notOff_of_working {x : RingState} (h : x = .idle ∨ x = .running) : x ≠ .disabled ∧ x ≠ .aborting := by
  obtain rfl | rfl := h <;> decide

section Offer

variable {x : Ring} {v : BitVec 32}

theorem Ring.offer_behind (h : (v - x.tail).toInt ≤ 0) : x.offer v = (true, x) := if_pos h

theorem Ring.offer_beyond (h : 0 < (v - x.tail).toInt) (hb : 2 ^ x.log2.toNat < (v - x.head).toNat) :
    x.offer v = (false, { x with badTail := x.badTail + 1 }) := by
  rw [Ring.offer, if_neg (Int.not_le.mpr h), if_neg (Nat.not_le.mpr hb)]

theorem Ring.offer_taken (h : 0 < (v - x.tail).toInt) (hb : (v - x.head).toNat ≤ 2 ^ x.log2.toNat)
    (hs : x.state = .idle ∨ x.state = .running) (hp : x.pause = false) :
    (x.offer v).2 = { x with tail := v, ownStop := false, state := if x.head = v then .idle else .running } := by
  rw [Ring.offer, if_neg (Int.not_le.mpr h), if_pos hb]
  obtain hs | hs := hs <;> simp [Ring.settle, hs, hp]

end Offer

theorem State.offerTail_ring (s : State) (b r : Nat) (v : BitVec 32) : (s.offerTail b r v).ring b r = ((s.ring b r).offer v).2 :=
  s.modRing_ring_same ..

theorem State.offerTail_ring_ne (s : State) (b : Nat) {r q : Nat} (v : BitVec 32) (h : q ≠ r) :
    (s.offerTail b r v).ring b q = s.ring b q := s.modRing_ring_ne b _ h

theorem State.offerTail_bench_ne (s : State) {b c : Nat} (r : Nat) (v : BitVec 32) (h : c ≠ b) :
    (s.offerTail b r v).bench c = s.bench c := s.modRing_bench_ne r _ h

/-! ### DOORBELL (06 R163; 09 R275) -/

section Reached

variable {s : State} {b r : Nat} (hdec : s.decodes (s.bench b).port (s.bench b).fn = true) (hs : s.benchServes b = true)
  (hr : r < (s.bench b).ringCount) (hon : s.domainOn (clusterDomain (s.ring b r).clusterB) = true)

include hdec hs hr hon

/-- Behind an access of its function that waits a doorbell waits too; else it takes effect. -/
theorem exec_doorbell_reached (v : BitVec 32) : exec (.doorbell b r v) s = .next
    (if s.putOpen (s.bench b).port (s.bench b).fn false = true ∨ (s.bar2Head (s.bench b).port (s.bench b).fn).isSome = true then
      { s.unstage b with bar2Queue := s.bar2Queue ++ [⟨(s.bench b).port, (s.bench b).fn, .doorbell b r v, false⟩] }
    else (s.unstage b).doorbellNow b r v) := by
  have hport : ((s.unstage b).bench b).port = (s.bench b).port := State.unstage_keeps (fun _ _ => rfl) s b b
  have hfn : ((s.unstage b).bench b).fn = (s.bench b).fn := State.unstage_keeps (fun _ _ => rfl) s b b
  have hwrites : (s.unstage b).bar2Writes = s.bar2Writes := (s.unstage_kept b).rest .bar2Writes rfl
  have hqueue : (s.unstage b).bar2Queue = s.bar2Queue := (s.unstage_kept b).rest .bar2Queue rfl
  rw [exec_doorbell, execDoorbell, State.servedRing_reached hdec hs hr hon, State.doorbell]
  simp only [hport, hfn, hqueue, State.putOpen, State.bar2Head, hwrites]

section Applied

variable (hput : s.putOpen (s.bench b).port (s.bench b).fn false = false) (hhead : s.bar2Head (s.bench b).port (s.bench b).fn = none)

include hput hhead

theorem exec_doorbell_applied (v : BitVec 32) : exec (.doorbell b r v) s = .next ((s.unstage b).doorbellNow b r v) := by
  rw [exec_doorbell_reached hdec hs hr hon, if_neg (by simp [hput, hhead])]

theorem exec_doorbell_offers (hx : (s.ring b r).disabling = false) (hd : (s.ring b r).state ≠ .disabled) (ha : (s.ring b r).state ≠ .aborting)
    (v : BitVec 32) : ∃ t, exec (.doorbell b r v) s = .next t ∧ t.ring b r = ((s.ring b r).offer v).2 ∧
      (∀ q, q ≠ r → t.ring b q = s.ring b q) ∧ ∀ c, c ≠ b → t.bench c = s.bench c := by
  have hnow : (s.unstage b).doorbellNow b r v = (s.unstage b).offerTail b r v := by
    rw [State.doorbellNow, State.unstage_ring, if_neg hd, if_neg (by simp [ha, hx])]
  refine ⟨_, (exec_doorbell_applied hdec hs hr hon hput hhead v).trans (congrArg Host.Outcome.next hnow), ?_, fun q hq => ?_, fun c hc => ?_⟩
  · rw [State.offerTail_ring, State.unstage_ring]
  · rw [State.offerTail_ring_ne _ _ _ hq, State.unstage_ring]
  · rw [State.offerTail_bench_ne _ _ _ hc, State.unstage_bench_ne _ hc]

end Applied

end Reached

/-! ### Snoops of the knock line (06 R167; 04 R115, R121, Table 8) -/

theorem State.knockMsg_held {s : State} {b r a : Nat} (h : (s.ring b r).knockLine = some a) (m : CxlMsg) :
    s.knockMsg b r m = { s with out := s.out ++ [.cxl (s.bench b).port m a] } := by
  rw [State.knockMsg, h]
  rfl

/-- The ring changed after its line was answered for, and what was sent. -/
theorem State.knockMsg_modRing {s : State} {b r a : Nat} (h : (s.ring b r).knockLine = some a) (m : CxlMsg) (f : Ring → Ring) :
    ((s.knockMsg b r m).modRing b r f).ring b r = f (s.ring b r) ∧
      ((s.knockMsg b r m).modRing b r f).out = s.out ++ [.cxl (s.bench b).port m a] := by
  rw [State.modRing_ring_same, State.knockMsg_held h]
  exact ⟨rfl, rfl⟩

section Snooped

variable {s : State} {b r a : Nat} (hlive : s.benchLive b = true) (hcxl : (s.port (s.bench b).port).cxl = true)
  (hheld : (s.ring b r).knock = .held) (hon : s.domainOn (clusterDomain (s.ring b r).clusterB) = true)

include hlive hcxl hheld hon

theorem exec_snpinv_held : exec (.snpinv b r) s = .next (s.knocked b r) := by
  rw [exec_snpinv, execSnpinv, if_neg (not_not_intro hcxl), if_neg (not_not_intro hheld), if_neg (not_not_intro hlive), State.atDomain, if_pos hon]

/-- The line is asked for again at once where the function may send. -/
theorem exec_snpinv_retakes (hline : (s.ring b r).knockLine = some a) (hats : (s.fnAt (s.bench b).port (s.bench b).fn).atsEn = true)
    (hmay : s.mayUsePort b = true) : ∃ t, exec (.snpinv b r) s = .next t ∧
      t.ring b r = { s.ring b r with knock := .acquiring, retake := true } ∧
      t.out = s.out ++ [.cxl (s.bench b).port .rspIHitSE a, .cxl (s.bench b).port .rdShared a] := by
  have hagain : s.knocked b r = ((s.knockMsg b r .rspIHitSE).modRing b r fun x =>
      { x with knock := .acquiring, retake := true }).knockMsg b r .rdShared := by
    rw [State.knocked, State.knockMsg_held hline]
    exact (if_neg (not_not_intro hats)).trans (if_neg (not_not_intro hmay))
  refine ⟨_, (exec_snpinv_held hlive hcxl hheld hon).trans (congrArg Host.Outcome.next hagain), ?_⟩
  obtain ⟨hring, hout⟩ := State.knockMsg_modRing hline .rspIHitSE fun x => { x with knock := .acquiring, retake := true }
  rw [State.knockMsg_held (a := a) (by rw [hring]; exact hline)]
  refine ⟨hring, ?_⟩
  rw [hout, State.modRing_bench_port, State.knockMsg_held hline]
  exact List.append_assoc ..

/-- It is asked for when the function may send again. -/
theorem exec_snpinv_postpones (hline : (s.ring b r).knockLine = some a) (hats : (s.fnAt (s.bench b).port (s.bench b).fn).atsEn = true)
    (hmay : s.mayUsePort b = false) : exec (.snpinv b r) s = .next ((s.knockMsg b r .rspIHitSE).modRing b r fun x =>
      { x with knock := .acquiring, retake := true, knockLine := none }) := by
  rw [exec_snpinv_held hlive hcxl hheld hon, State.knocked, State.knockMsg_held hline]
  exact congrArg _ ((if_neg (not_not_intro hats)).trans (if_pos (Bool.eq_false_iff.mp hmay)))

theorem exec_snpinv_refuses (hline : (s.ring b r).knockLine = some a) (hats : (s.fnAt (s.bench b).port (s.bench b).fn).atsEn = false) :
    exec (.snpinv b r) s = .next ((s.knockMsg b r .rspIHitSE).modRing b r fun x =>
      { x with knock := .refused, retake := false, knockLine := none }) := by
  rw [exec_snpinv_held hlive hcxl hheld hon, State.knocked, State.knockMsg_held hline]
  exact congrArg _ (if_pos (Bool.eq_false_iff.mp hats))

end Snooped

theorem exec_snpdata_cxl {s : State} {b r : Nat} (hcxl : (s.port (s.bench b).port).cxl = true) :
    exec (.snpdata b r) s = .next (s.knockMsg b r (if (s.ring b r).knock = .held then .rspSHitSE else .rspIHitSE)) :=
  if_neg (not_not_intro hcxl)

theorem exec_snpinv_other {s : State} {b r : Nat} (hcxl : (s.port (s.bench b).port).cxl = true) (hk : (s.ring b r).knock ≠ .held) :
    exec (.snpinv b r) s = .next (s.knockMsg b r .rspIHitSE) :=
  (if_neg (not_not_intro hcxl)).trans (if_pos hk)

theorem exec_goS_acquired {s : State} {b r : Nat} (hk : (s.ring b r).knock = .acquiring) (hlive : s.benchLive b = true)
    (hdet : (s.bench b).detached = false) (hcxl : (s.port (s.bench b).port).cxl = true) (v : BitVec 32) :
    exec (.goS b r v) s = .next (s.modRing b r fun _ => { ((s.ring b r).offer v).2 with
      knock := .held, retake := false
      spurious := if (s.ring b r).retake ∧ ((s.ring b r).offer v).1 then (s.ring b r).spurious + 1 else (s.ring b r).spurious }) := by
  rw [exec_goS, execGoS]
  exact if_neg (by simp [hk, hlive, hdet, hcxl])

/-! ### Reads that the ring makes (06 R170, R173) -/

/-- Reads of host memory are messages, and nothing else changes. -/
theorem State.readFrom_sends (s : State) (p f : Nat) (attr : TlpAttr) (fuel addr n : Nat) :
    ∃ l, s.readFrom p f attr fuel addr n = { s with out := s.out ++ l } := by
  induction fuel generalizing s addr n with
  | zero => exact ⟨[], by rw [List.append_nil]; rfl⟩
  | succ k ih =>
    rw [State.readFrom]
    split_ifs
    · exact ⟨[], by rw [List.append_nil]⟩
    all_goals
      obtain ⟨l, hl⟩ := ih (s.emit _) _ _
      exact ⟨_, hl.trans (by rw [State.emit_out, List.append_assoc]; rfl)⟩

theorem State.readRing_memory {s : State} {b r va a : Nat} {tr : Bool} (ha : s.ringAt b r va false = .addr a tr)
    (ht : (s.port (s.bench b).port).tagFree = true) (n : Nat) :
    s.readRing b r va n false = (some (s.readHost b ⟨false, tr⟩ 2 a n), s) := by
  simp [State.readRing, ha, ht]

theorem exec_knockPoll_reads {s : State} {b r a : Nat} {tr : Bool} (hk : (s.ring b r).knock = .polling) (hx : (s.ring b r).disabling = false)
    (hmay : s.mayUsePort b = true) (ha : s.ringAt b r (s.ring b r).knockAddr.toNat false = .addr a tr)
    (ht : (s.port (s.bench b).port).tagFree = true) (hw : s.domainWorks (clusterDomain (s.ring b r).clusterB) = true) (v : BitVec 32) :
    exec (.knockPoll b r v) s = .next ((s.readHost b ⟨false, tr⟩ 2 a 4).offerTail b r v) := by
  obtain ⟨l, hl⟩ := s.readFrom_sends (s.bench b).port (s.reqFn b) ⟨false, tr⟩ 2 a 4
  rw [exec_knockPoll, execKnockPoll, if_neg (by simp [hk, hx, hmay]), State.readRing_memory ha ht, State.readHost, hl]
  exact congrArg _ (if_pos hw)

theorem exec_ownLateRetry_ends {s : State} {b r : Nat} (ho : (s.ring b r).ownStop = true) (hp : (s.ring b r).pause = false)
    (hd : (s.ring b r).state ≠ .disabled) : exec (.ownLateRetry b r) s = .next (s.modRing b r fun x => { x with ownStop := false }) := by
  rw [exec_ownLateRetry, execOwnLateRetry]
  exact congrArg _ (if_pos (by simp [ho, hp, hd]))

theorem exec_ownLateRetry_stays {s : State} {b r : Nat}
    (h : (s.ring b r).ownStop = false ∨ (s.ring b r).pause = true ∨ (s.ring b r).state = .disabled) : exec (.ownLateRetry b r) s = .next s := by
  rw [exec_ownLateRetry, execOwnLateRetry]
  refine congrArg _ (if_neg ?_)
  rintro ⟨ho, hp, hd⟩
  obtain h | h | h := h <;> simp_all

/-- Settles O34: the doorbell by the ring's state, each snoop by the line, then the poll and the retry. -/
theorem doorbellsAndKnocks : Obligations.DoorbellsAndKnocks := by
  refine ⟨?taken, ?behind, ?beyond, ?alike, ?ignored, ?disabled, ?waits, ?goS, ?retakes, ?postpones, ?refuses, fun s b r hcxl hk => exec_snpinv_other hcxl hk,
    fun s b r hcxl => exec_snpdata_cxl hcxl, ?noCxl, fun s b r a m h => State.knockMsg_held h m, ?polled, ?retried,
    fun s b r h => exec_ownLateRetry_stays h⟩
  case taken =>
    intro s b r v hdec hs hr hon hput hhead hx hst hp hv hb
    obtain ⟨t, ht, hring, hother, -⟩ := exec_doorbell_offers hdec hs hr hon hput hhead hx
      (notOff_of_working hst).1 (notOff_of_working hst).2 v
    exact ⟨t, ht, hring.trans (Ring.offer_taken hv hb hst hp), hother⟩
  case behind =>
    intro s b r v hdec hs hr hon hput hhead hx hst hv
    obtain ⟨t, ht, hring, -, -⟩ := exec_doorbell_offers hdec hs hr hon hput hhead hx
      (notOff_of_working hst).1 (notOff_of_working hst).2 v
    exact ⟨t, ht, hring.trans (congrArg Prod.snd (Ring.offer_behind hv))⟩
  case beyond =>
    intro s b r v hdec hs hr hon hput hhead hx hst hv hb
    obtain ⟨t, ht, hring, -, -⟩ := exec_doorbell_offers hdec hs hr hon hput hhead hx
      (notOff_of_working hst).1 (notOff_of_working hst).2 v
    exact ⟨t, ht, hring.trans (congrArg Prod.snd (Ring.offer_beyond hv hb))⟩
  case alike =>
    intro s b r v hdec hs hr hon hput hhead hx hd ha
    exact exec_doorbell_offers hdec hs hr hon hput hhead hx hd ha v
  case ignored =>
    intro s b r v hdec hs hr hon hput hhead hd ha
    have hnow : (s.unstage b).doorbellNow b r v = s.unstage b := by
      rw [State.doorbellNow, State.unstage_ring, if_neg hd, if_pos ha]
    exact ⟨_, (exec_doorbell_applied hdec hs hr hon hput hhead v).trans (congrArg Host.Outcome.next hnow), s.unstage_ring b b r,
      (s.unstage_kept b).rest .out rfl⟩
  case disabled =>
    intro s b r v hdec hs hr hon hput hhead hd
    have hnow : (s.unstage b).doorbellNow b r v = (s.unstage b).countBench b := by
      rw [State.doorbellNow, State.unstage_ring, if_pos hd]
    refine ⟨_, (exec_doorbell_applied hdec hs hr hon hput hhead v).trans (congrArg Host.Outcome.next hnow), by simp, ?_⟩
    rw [State.countBench_badAccess, State.unstage_keeps (g := fun x => x.counters.badAccess) (fun _ _ => rfl)]
  case waits =>
    intro s b r v hdec hs hr hon hw
    exact ⟨_, (exec_doorbell_reached hdec hs hr hon v).trans (congrArg Host.Outcome.next (if_pos hw)), rfl, s.unstage_ring b b r⟩
  case goS =>
    intro s b r v hk hlive hdet hcxl
    exact ⟨_, exec_goS_acquired hk hlive hdet hcxl v, s.modRing_ring_same .., fun q hq => s.modRing_ring_ne b _ hq⟩
  case retakes =>
    intro s b r a hlive hcxl hk hon hline hats hmay
    exact exec_snpinv_retakes hlive hcxl hk hon hline hats hmay
  case postpones =>
    intro s b r a hlive hcxl hk hon hline hats hmay
    exact ⟨_, exec_snpinv_postpones hlive hcxl hk hon hline hats hmay, State.knockMsg_modRing hline ..⟩
  case refuses =>
    intro s b r a hlive hcxl hk hon hline hats
    exact ⟨_, exec_snpinv_refuses hlive hcxl hk hon hline hats, State.knockMsg_modRing hline ..⟩
  case noCxl =>
    intro s b r c hc hcxl
    obtain rfl | rfl := hc <;> exact if_pos (Bool.eq_false_iff.mp hcxl)
  case polled =>
    intro s b r a tr v hk hx hmay ha ht hw
    obtain ⟨l, hl⟩ := s.readFrom_sends (s.bench b).port (s.reqFn b) ⟨false, tr⟩ 2 a 4
    refine ⟨_, exec_knockPoll_reads hk hx hmay ha ht hw v, ?_, fun q hq => ?_, rfl⟩
    · rw [State.offerTail_ring, State.readHost, hl]
      rfl
    · rw [State.offerTail_ring_ne _ _ _ hq, State.readHost, hl]
      rfl
  case retried =>
    intro s b r ho hp hd
    exact ⟨_, exec_ownLateRetry_ends ho hp hd, s.modRing_ring_same .., fun q hq => s.modRing_ring_ne b _ hq⟩

end Sys2Proof.Machine

/-! ## Fetching and completing descriptors (O35; 06 R157, R162, R173, R175; 07 R219) -/

namespace Sys2Proof.Machine

/-! ### The read of an entry (06 R157, R173) -/

/-- RdCurr of the line at the address that the ring's translation gives. -/
theorem State.readRing_line {s : State} {b r va a : Nat} (hc : s.mayCxl b = true) (hats : (s.fnAt (s.bench b).port (s.bench b).fn).atsEn = true)
    (ha : s.ringHost b r va = some a) (n : Nat) :
    s.readRing b r va n true = (some (s.emit (.cxl (s.bench b).port .rdCurr (a / 64 * 64))), s) := by
  simp [State.readRing, hc, hats, ha]

/-- The state from which a read that is not of a line goes out: a coherent ring has asked for the line's translation. -/
def State.lineAsked (s : State) (b r va : Nat) (c : Bool) : State :=
  if c ∧ s.mayCxl b ∧ (s.fnAt (s.bench b).port (s.bench b).fn).atsEn then s.askRing b r va false else s

theorem State.lineAsked_kept (s : State) (b r va : Nat) (c : Bool) : Kept 0x20002000 s (s.lineAsked b r va c) :=
  Kept.ite (s.askRing_kept b r va false) (Kept.refl _ s)

theorem State.request_cache (s : State) (b : Nat) (d : Bool) (pasid : Option Nat) (va : Nat) (write : Bool) (w : Waiter) :
    (s.request b d pasid va write w).headstock.cache = s.headstock.cache := by
  rw [State.request]
  dsimp only
  split_ifs <;> simp

/-- What a ring address translates to does not depend on what has been asked for. -/
theorem State.lineAsked_ringAt (s : State) (b r va : Nat) (c : Bool) (w : Nat) (x : Bool) :
    (s.lineAsked b r va c).ringAt b r w x = s.ringAt b r w x := by
  have hkept := s.lineAsked_kept b r va c
  have hcache : (s.lineAsked b r va c).headstock.cache = s.headstock.cache := by
    rw [State.lineAsked]
    split_ifs
    · exact s.request_cache ..
    · rfl
  rw [State.ringAt, State.ringAt, State.ring_congr (hkept.rest .benches rfl), State.bench, State.fnAt, State.lookup,
    hkept.rest .benches rfl, hkept.rest .fns rfl, hcache]
  rfl

section Read

variable {s : State} {b r va n : Nat} {c : Bool}

/-- A read that is of no line, at an address whose translation is to be asked for: nothing is read. -/
theorem State.readRing_miss (hm : s.ringAt b r va false = .miss)
    (h : c = true → s.mayCxl b = true → (s.fnAt (s.bench b).port (s.bench b).fn).atsEn = true → s.ringHost b r va = none) :
    s.readRing b r va n c = (none, (s.lineAsked b r va c).askRing b r va false) := by
  have hline : (if (c && s.mayCxl b && (s.fnAt (s.bench b).port (s.bench b).fn).atsEn) = true then s.ringHost b r va else none) = none := by
    rw [ite_eq_right_iff, Bool.and_eq_true, Bool.and_eq_true]
    rintro ⟨⟨hc, hx⟩, hats⟩
    exact h hc hx hats
  rw [State.readRing]
  dsimp only
  rw [hline, ← State.lineAsked]
  dsimp only
  rw [State.lineAsked_ringAt, hm]

/-- A read that goes out leaves every bench. -/
theorem State.readRing_benches {u : State} (h : (s.readRing b r va n c).1 = some u) : u.benches = s.benches := by
  rw [State.readRing] at h
  dsimp only at h
  rw [← State.lineAsked] at h
  split at h
  · cases h
    rfl
  · have hasked : (s.lineAsked b r va c).benches = s.benches := (s.lineAsked_kept b r va c).rest .benches rfl
    split at h
    · split_ifs at h
      cases h
      exact ((State.readHost_kept ..).rest .benches rfl).trans hasked
    · cases h
    · cases h

end Read

/-! ### What an entry read gives the ring (06 R162; 07 R219, R226) -/

section Entry

variable {α : Type} {g : Ring → α} (h : ∀ x e f m, g { x with edges := e, edgesFrom := f, edgeMarks := m } = g x)

include h

/-- Edges left over are the edges of the ring and nothing else. -/
theorem Ring.claimEdges_keeps (x : Ring) (y : List Byte) : g (x.claimEdges y) = g x := by
  rw [Ring.claimEdges]
  split
  · rfl
  · split_ifs
    · exact h x x.edges none x.edgeMarks
    · exact h x 0 none []

theorem Ring.passEdges_keeps (x : Ring) (d : Desc) : g (x.passEdges d) = g x := by
  rw [Ring.passEdges]
  split
  · exact h x 0 none []
  · split
    · exact (Ring.claimEdges_keeps h _ _).trans (h x x.edges _ x.edgeMarks)
    · split_ifs
      · exact h x 0 none []
      · exact h x x.edges _ x.edgeMarks

end Entry

section TakeEntry

variable {s : State} {b r : Nat} {y : List Byte}

theorem State.takeEntry_unowned (ho : ownOf y = false) :
    (s.takeEntry b r y).ring b r = { s.ring b r with ownLate := (s.ring b r).ownLate + 1, ownStop := true } := by
  rw [State.takeEntry, State.modRing_ring_same, if_pos (Bool.eq_false_iff.mp ho)]

theorem State.takeEntry_good (ho : ownOf y = true) (hc : fetchCheck y = none) : (s.takeEntry b r y).ring b r = { (s.ring b r).claimEdges y with
    descs := (s.ring b r).descs ++ [Desc.fetched (s.ring b r).fetchNext y], fetchNext := (s.ring b r).fetchNext + 1 } := by
  have hdescs : ((s.ring b r).claimEdges y).descs = (s.ring b r).descs := Ring.claimEdges_keeps (fun _ _ _ _ => rfl) _ y
  have hnext : ((s.ring b r).claimEdges y).fetchNext = (s.ring b r).fetchNext := Ring.claimEdges_keeps (fun _ _ _ _ => rfl) _ y
  rw [State.takeEntry, State.modRing_ring_same, if_neg (not_not_intro ho), fetchStatus, hc]
  dsimp only [Option.map_none]
  rw [hdescs, hnext]

/-- An entry that fails the checks at fetch joins the ring with its status. -/
theorem State.takeEntry_bad {k : Nat} (ho : ownOf y = true) (hc : fetchCheck y = some k) : (s.takeEntry b r y).ring b r = { (s.ring b r).claimEdges y with
    descs := (s.ring b r).descs ++ [{ Desc.fetched (s.ring b r).fetchNext y with phase := .ready, status := some ⟨0x30, 0, 255, BitVec.ofNat 64 k⟩ }]
    fetchNext := (s.ring b r).fetchNext + 1 } := by
  have hdescs : ((s.ring b r).claimEdges y).descs = (s.ring b r).descs := Ring.claimEdges_keeps (fun _ _ _ _ => rfl) _ y
  have hnext : ((s.ring b r).claimEdges y).fetchNext = (s.ring b r).fetchNext := Ring.claimEdges_keeps (fun _ _ _ _ => rfl) _ y
  rw [State.takeEntry, State.modRing_ring_same, if_neg (not_not_intro ho), fetchStatus, hc]
  dsimp only [Option.map_some]
  rw [hdescs, hnext]

end TakeEntry

/-! ### DESCRIPTOR_FETCH -/

theorem State.mayFetch_running {s : State} {b r : Nat} (h : s.mayFetch b r = true) : (s.ring b r).state = .running := by
  simp only [State.mayFetch, Bool.and_eq_true, beq_iff_eq] at h
  tauto

/-- A fetch that fails with descriptors before its entry stops the ring's fetches. -/
theorem State.fetchStops_behind {s : State} {b r : Nat} (h : (s.ring b r).descs ≠ []) :
    (s.fetchStops b r).ring b r = { s.ring b r with fetchFailed := true } := by
  rw [State.fetchStops, State.fetchPark, State.modRing_ring_same, if_neg (by simp [h]), State.modRing_ring_same]

/-- One that fails with none before it parks the ring. -/
theorem State.fetchStops_parks {s : State} {b r : Nat} (hd : (s.ring b r).descs = []) (hs : (s.ring b r).state = .running) :
    ((s.fetchStops b r).ring b r).state = .parked ∧ ((s.fetchStops b r).ring b r).park = .fetch ∧
      ((s.fetchStops b r).ring b r).head = (s.ring b r).head := by
  rw [State.fetchStops, State.fetchPark, State.modRing_ring_same, if_pos (by simp [hd, hs])]
  obtain ⟨k, e, f, m, hp⟩ := (s.modRing b r fun x => { x with fetchFailed := true }).parkRing_ring b r .fetch
  rw [hp, State.modRing_ring_same]
  exact ⟨rfl, rfl, rfl⟩

section Fetch

variable {s : State} {b r : Nat} (hf : s.mayFetch b r = true) (hp : s.mayUsePort b = true)

include hf hp

theorem exec_descriptorFetch_unread {u : State}
    (hread : s.readRing b r ((s.ring b r).entry (s.ring b r).fetchNext) 64 (s.ring b r).coherent = (none, u)) (x : FetchResult) :
    exec (.descriptorFetch b r x) s = .next u := by
  rw [exec_descriptorFetch, execDescriptorFetch, if_neg (not_not_intro hf), if_neg (not_not_intro hp)]
  dsimp only
  rw [hread]

variable {u : State} (hread : (s.readRing b r ((s.ring b r).entry (s.ring b r).fetchNext) 64 (s.ring b r).coherent).1 = some u)

include hread

/-- What the fetch reads joins the ring's descriptors, or stops the fetch. -/
theorem exec_descriptorFetch_read (y : List Byte) :
    exec (.descriptorFetch b r (.ok y)) s = .next (u.takeEntry b r (slice y 0 64)) := by
  rw [exec_descriptorFetch, execDescriptorFetch, if_neg (not_not_intro hf), if_neg (not_not_intro hp)]
  dsimp only
  rw [← Prod.eta (s.readRing ..), hread]

theorem exec_descriptorFetch_fails : exec (.descriptorFetch b r .hostError) s = .next (u.fetchStops b r) := by
  rw [exec_descriptorFetch, execDescriptorFetch, if_neg (not_not_intro hf), if_neg (not_not_intro hp)]
  dsimp only
  rw [← Prod.eta (s.readRing ..), hread]

end Fetch

/-! ### DESCRIPTOR_COMPLETE (06 R175) -/

section Complete

variable {s : State} {b r : Nat} {d : Desc}

theorem State.refuseSource_stays (ho : (s.ring b r).oldest = some d) (hd : d.awaitsTrigger = false) : s.refuseSource b r = s := by
  rw [State.refuseSource, ho]
  dsimp only
  split
  · rfl
  · exact if_neg (by simp [hd])

theorem exec_descriptorComplete_writes {st : Status} {a : Nat} {tr : Bool} (ho : (s.ring b r).oldest = some d) (hd : d.awaitsTrigger = false)
    (hst : d.status = some st) (hm : s.mayComplete b r d = true) (hp : s.mayUsePort b = true)
    (ha : s.ringAt b r ((s.ring b r).entry d.count) true = .addr a tr) :
    exec (.descriptorComplete b r) s = .next ((s.writeStatus b r d st a tr).finish b r d st) := by
  rw [exec_descriptorComplete, execDescriptorComplete, State.refuseSource_stays ho hd]
  dsimp only
  rw [ho]
  dsimp only
  rw [hst]
  dsimp only
  rw [if_neg (not_not_intro hm), if_neg (not_not_intro hp), ha]

/-- A posted write of a bench joins the queue of its function. -/
theorem State.benchWrite_tlps {p f : Nat} (hp : (s.bench b).port = p) (hf : s.reqFn b = f) (addr : Nat) (attr : TlpAttr) (data : List Byte) :
    ((s.benchWrite b addr attr data).port p).egress.map EgressTlp.tlp =
      (s.port p).egress.map EgressTlp.tlp ++ [.hostWrite p f attr addr data] := by
  subst hp hf
  rw [State.benchWrite, State.egress_egress_same, List.map_append]
  rfl

/-- The state with both writes of a completion in the queue of its function: status, then OWN. -/
def State.statusSent (s : State) (b : Nat) (d : Desc) (st : Status) (a : Nat) (tr : Bool) : State :=
  (s.benchWrite b (a + 0x30) ⟨false, tr⟩ (statusBytes st d.lathe)).benchWrite b (a + 0x3C) ⟨false, tr⟩ (leBytes 4 (tagOf d.bytes))

theorem State.statusSent_tlps (s : State) (b : Nat) (d : Desc) (st : Status) (a : Nat) (tr : Bool) :
    ((s.statusSent b d st a tr).port (s.bench b).port).egress.map EgressTlp.tlp = (s.port (s.bench b).port).egress.map EgressTlp.tlp ++
      [.hostWrite (s.bench b).port (s.reqFn b) ⟨false, tr⟩ (a + 0x30) (statusBytes st d.lathe),
       .hostWrite (s.bench b).port (s.reqFn b) ⟨false, tr⟩ (a + 0x3C) (leBytes 4 (tagOf d.bytes))] := by
  rw [State.statusSent, State.benchWrite_tlps (by exact rfl) (by exact rfl), State.benchWrite_tlps rfl rfl, List.append_assoc]
  rfl

theorem State.writeStatus_port (s : State) (b r : Nat) (d : Desc) (st : Status) (a : Nat) (tr : Bool) (p : Nat) :
    (s.writeStatus b r d st a tr).port p = (s.statusSent b d st a tr).port p := by
  cases tr <;> rfl

/-- RING_HEAD moves on by one, past a descriptor that is one more done. -/
theorem State.writeStatus_ring (s : State) (b r : Nat) (d : Desc) (st : Status) (a : Nat) (tr : Bool) :
    (s.writeStatus b r d st a tr).ring b r = Ring.passEdges { s.ring b r with
      head := (s.ring b r).head + 1, descDone := (s.ring b r).descDone + 1
      descs := (s.ring b r).descs.filter fun e => e.count != d.count } d := by
  rw [State.writeStatus]
  dsimp only
  rw [State.modRing_ring_same]
  cases tr with
  | false => rfl
  | true =>
    rw [if_pos rfl, State.modBench_ring_same _ _ _ _ (by exact rfl)]
    rfl

end Complete

/-- Settles O35: the fetch by what its read gives, the read by the kind of port, the completion and its writes. -/
theorem fetchAndCompletion : Obligations.FetchAndCompletion := by
  refine ⟨?owned, ?bad, ?unowned, ?failsFirst, ?failsBehind, fun s u b r x hread hf hp => exec_descriptorFetch_unread hf hp hread x,
    fun s b r va n a tr ha ht => State.readRing_memory ha ht n, fun s b r va n c hm hline => congrArg Prod.fst (State.readRing_miss hm hline),
    fun s b r va n a hc hats ha => State.readRing_line hc hats ha n, fun s b r x hf => if_pos (Bool.eq_false_iff.mp hf),
    fun s b r a tr d st ho hd hst hm hp ha => exec_descriptorComplete_writes ho hd hst hm hp ha, ?written⟩
  case owned =>
    intro s u b r y hf hp hread ho hc
    have hring := State.ring_congr (State.readRing_benches hread) b
    refine ⟨_, exec_descriptorFetch_read hf hp hread y, ?_, fun q hq => (u.modRing_ring_ne b _ hq).trans (hring q), rfl⟩
    rw [State.takeEntry_good ho hc, hring]
  case bad =>
    intro s u b r k y hf hp hread ho hc
    have hring := State.ring_congr (State.readRing_benches hread) b r
    refine ⟨_, exec_descriptorFetch_read hf hp hread y, ?_⟩
    rw [State.takeEntry_bad ho hc, hring]
    exact ⟨rfl, rfl⟩
  case unowned =>
    intro s u b r y hf hp hread ho
    have hring := State.ring_congr (State.readRing_benches hread) b r
    refine ⟨_, exec_descriptorFetch_read hf hp hread y, ?_⟩
    rw [State.takeEntry_unowned ho, hring]
  case failsFirst =>
    intro s u b r hf hp hread hd
    have hring := State.ring_congr (State.readRing_benches hread) b r
    refine ⟨_, exec_descriptorFetch_fails hf hp hread, ?_⟩
    rw [← hring]
    exact State.fetchStops_parks (by rw [hring]; exact hd) (by rw [hring]; exact State.mayFetch_running hf)
  case failsBehind =>
    intro s u b r hf hp hread hd
    have hring := State.ring_congr (State.readRing_benches hread) b r
    refine ⟨_, exec_descriptorFetch_fails hf hp hread, ?_⟩
    rw [← hring]
    exact State.fetchStops_behind (by rw [hring]; exact hd)
  case written =>
    intro s b r a tr d st
    rw [State.writeStatus_ring, State.writeStatus_port]
    exact ⟨Ring.passEdges_keeps (g := Ring.head) (fun _ _ _ _ => rfl) .., Ring.passEdges_keeps (g := Ring.descDone) (fun _ _ _ _ => rfl) ..,
      Ring.passEdges_keeps (g := Ring.descs) (fun _ _ _ _ => rfl) .., s.statusSent_tlps b d st a tr⟩

end Sys2Proof.Machine

/-! ## Billet memory: what it reads, and its canonical form (O3, O6; 07 R211)

Laws/Kept has each command keep the canonical form where it keeps anything (`Kept.billets`). A command whose row of `mayChange` leaves the memory out keeps the memory itself; for the others the law of the command says it. -/

namespace Sys2Proof.Machine

/-! ### Every step keeps the canonical form (O3) -/

theorem KeptR.keepsInv {m : Nat} {s t : State} {r : Result} (h : KeptR m s r) (e : r = .next t) (hs : s.Inv) : t.Inv := by
  obtain ⟨u, hu, hk⟩ := h
  obtain rfl : u = t := Host.Outcome.next.inj (hu.symm.trans e)
  exact hk.billets hs

/-- Each command that may change billet memory has its law of Laws/Kept. -/
theorem exec_kept_of_billetMem {c : Instr} (h : decide (Part.billetMem ∈ mayChange c) = true) (s : State) : ∃ m, KeptR m s (exec c s) := by
  cases c with
  | hearthPowerLoss => exact ⟨_, execHearthPowerLoss_kept ..⟩
  | ledgerTrainingDone => exact ⟨_, execLedgerTrainingDone_kept ..⟩
  | managementRestart => exact ⟨_, execManagementRestart_kept ..⟩
  | refLoss => exact ⟨_, execRefLoss_kept ..⟩
  | porchEnqueue => exact ⟨_, execPorchEnqueue_kept ..⟩
  | domainWakeDone => exact ⟨_, execDomainWakeDone_kept ..⟩
  | thermalSample => exact ⟨_, execThermalSample_kept ..⟩
  | configRequest => exact ⟨_, execConfigRequest_kept ..⟩
  | powerStateChange => exact ⟨_, execPowerStateChange_kept ..⟩
  | busMasterEnableChange => exact ⟨_, execBusMasterEnableChange_kept ..⟩
  | linkPowerStateChange => exact ⟨_, execLinkPowerStateChange_kept ..⟩
  | hostCompletion => exact ⟨_, execHostCompletion_kept ..⟩
  | completionTimeout => exact ⟨_, execCompletionTimeout_kept ..⟩
  | descriptorComplete => exact ⟨_, execDescriptorComplete_kept ..⟩
  | anneal => exact ⟨_, execAnneal_kept ..⟩
  | billetAlloc => exact ⟨_, execBilletAlloc_kept ..⟩
  | burstGrant => exact ⟨_, execBurstGrant_kept ..⟩
  | readDataReturn => exact ⟨_, execReadDataReturn_kept ..⟩
  | writeAck => exact ⟨_, execWriteAck_kept ..⟩
  | haltIsolationDone => exact ⟨_, execHaltIsolationDone_kept ..⟩
  | attachResume => exact ⟨_, execAttachResume_kept ..⟩
  | attachClose => exact ⟨_, execAttachClose_kept ..⟩
  | attachFresh => exact ⟨_, execAttachFresh_kept ..⟩
  | diePwrgoodFall => exact ⟨_, execDiePwrgoodFall_kept ..⟩
  | dieFatal => exact ⟨_, execDieFatal_kept ..⟩
  | spRecoveryDone => exact ⟨_, execSpRecoveryDone_kept ..⟩
  | spRequestTimeout => exact ⟨_, execSpRequestTimeout_kept ..⟩
  | annealAdmit => exact ⟨_, execAnnealAdmit_kept ..⟩
  | annealLoadDone => exact ⟨_, execAnnealLoadDone_kept ..⟩
  | burlMove => exact ⟨_, execBurlMove_kept ..⟩
  | burlHaloReceived => exact ⟨_, execBurlHaloReceived_kept ..⟩
  | masterClaim => exact ⟨_, execMasterClaim_kept ..⟩
  | charterSend => exact ⟨_, execCharterSend_kept ..⟩
  | charterReceived => exact ⟨_, execCharterReceived_kept ..⟩
  | jtagExtest => exact ⟨_, execJtagExtest_kept ..⟩
  | jtagClamp => exact ⟨_, execJtagClamp_kept ..⟩
  | jtagHighz => exact ⟨_, execJtagHighz_kept ..⟩
  | dapRegisterRead => exact ⟨_, execDapRegisterRead_kept ..⟩
  | dapRegisterWrite => exact ⟨_, execDapRegisterWrite_kept ..⟩
  | smbusRead => exact ⟨_, execSmbusRead_kept ..⟩
  | smbusRestart => exact ⟨_, execSmbusRestart_kept ..⟩
  | registerWrite => exact ⟨_, execRegisterWrite_kept ..⟩
  | attachRefused => exact ⟨_, execAttachRefused_kept ..⟩
  | registerRead => exact ⟨_, execRegisterRead_kept ..⟩
  | envanDataRequest => exact ⟨_, execEnvanDataRequest_kept ..⟩
  | stripStateReturn => exact ⟨_, execStripStateReturn_kept ..⟩
  | _ => exact absurd h Bool.false_ne_true

/-- A component that is not in the command's row is as before. -/
theorem exec_frame {c : Instr} {s t : State} (e : exec c s = .next t) {p : Part} (hp : p ∉ mayChange c) : p.same s t := by
  obtain ⟨u, hu, hframe, -⟩ := exec_within_mayChange c s
  obtain rfl : u = t := Host.Outcome.next.inj (hu.symm.trans e)
  exact hframe p hp

theorem exec_keepsInv {c : Instr} {s t : State} (hs : s.Inv) (e : exec c s = .next t) : t.Inv := by
  by_cases hc : Part.billetMem ∈ mayChange c
  · obtain ⟨m, hk⟩ := exec_kept_of_billetMem (decide_eq_true hc) s
    exact hk.keepsInv e hs
  · have hmem : t.billetMem = s.billetMem := exec_frame e hc
    rwa [State.Inv, hmem]

/-- Settles O3: a step runs the front command, or lets a microsecond pass. -/
theorem invariantKeptByEveryStep : Obligations.InvariantKeptByEveryStep := by
  intro s t hs hstep
  unfold step at hstep
  split at hstep
  · obtain rfl := Host.Outcome.next.inj hstep
    exact s.idleTick_kept.billets hs
  next c rest _ =>
    have hrest : (s.withPending rest).Inv := hs
    exact exec_keepsInv hrest hstep

/-! ### What a byte reads after a write (O6) -/

theorem memRead_memWrites_inside (l : List Byte) :
    ∀ (m : Memory) (a i : Nat), i < l.length → memRead (memWrites m a l) (a + i) = l.getD i 0 := by
  induction l with
  | nil => intro m a i h; exact absurd h (Nat.not_lt_zero i)
  | cons b r ih =>
    intro m a i h
    rw [memWrites]
    cases i with
    | zero => rw [memRead_memWrites_outside _ _ _ _ (by omega), Nat.add_zero, memRead_memWrite_same, List.getD_cons_zero]
    | succ i =>
      rw [show a + (i + 1) = a + 1 + i by omega, ih _ _ _ (Nat.lt_of_succ_lt_succ h), List.getD_cons_succ]

/-- A range made 0 reads 0, and every other address reads as before. -/
theorem memRead_memZero (m : Memory) (a n c : Nat) :
    memRead (memZero m a n) c = if a ≤ c ∧ c < a + n then 0 else memRead m c := by
  unfold memRead memZero
  induction m with
  | nil => simp
  | cons e r ih =>
    rw [List.filter_cons]
    split <;> rename_i he <;> simp only [Bool.or_eq_true, decide_eq_true_eq] at he
    · rw [tabGet_cons, tabGet_cons, ih]
      split <;> [rw [if_neg (by omega)]; rfl]
    · rw [tabGet_cons, ih]
      split <;> [rfl; rw [if_neg (by omega)]]

theorem getElem?_memReads (m : Memory) {n i : Nat} (a : Nat) (h : i < n) : (memReads m a n)[i]? = some (memRead m (a + i)) := by
  induction n generalizing a i with
  | zero => omega
  | succ n ih =>
    rw [memReads]
    cases i with
    | zero => rfl
    | succ i => rw [List.getElem?_cons_succ, ih _ (by omega), Nat.succ_add_eq_add_succ a i]

/-! ### One memory for what it reads -/

theorem tabSorted_iff_pairwise {α : Type} (t : Tab α) : tabSorted t = true ↔ t.Pairwise (fun x y => x.1 < y.1) := by
  induction t with
  | nil => simp [tabSorted]
  | cons e r ih => rw [tabSorted_cons, List.pairwise_cons, ih, tabAbove]

theorem tabGet_of_mem {α : Type} {t : Tab α} (h : tabSorted t = true) (d : α) {e : Nat × α} (he : e ∈ t) : tabGet t d e.1 = e.2 := by
  induction t with
  | nil => exact absurd he List.not_mem_nil
  | cons f r ih =>
    obtain ⟨habove, hr⟩ := (tabSorted_cons f r).mp h
    rw [tabGet_cons]
    rcases List.mem_cons.mp he with rfl | he
    · exact if_pos rfl
    · rw [if_neg (Nat.ne_of_lt (habove e he)), ih hr he]

theorem mem_of_tabGet_ne {α : Type} {t : Tab α} {d : α} {k : Nat} (h : tabGet t d k ≠ d) : (k, tabGet t d k) ∈ t := by
  induction t with
  | nil => exact absurd rfl h
  | cons e r ih =>
    rw [tabGet_cons] at h ⊢
    split at h
    next hk => rw [if_pos hk, ← hk]; exact List.mem_cons_self
    next hk => rw [if_neg hk]; exact List.mem_cons_of_mem _ (ih h)

/-- A memory in canonical form lists the bytes that do not read 0, and no others. -/
theorem mem_iff_memRead {m : Memory} (h : m.wf = true) (c : Host.Cell) : c ∈ m ↔ c.2 ≠ 0 ∧ memRead m c.1 = c.2 := by
  obtain ⟨hsorted, hz⟩ := (memory_wf_iff m).mp h
  constructor
  · intro hc
    exact ⟨hz c hc, tabGet_of_mem hsorted 0 hc⟩
  · rintro ⟨hne, hr⟩
    have hlisted := mem_of_tabGet_ne (t := m) (d := 0) (k := c.1) (fun h0 => hne (hr.symm.trans h0))
    rwa [← memRead, hr] at hlisted

theorem memory_eq_of_memRead {m n : Memory} (hm : m.wf = true) (hn : n.wf = true) (h : ∀ a, memRead m a = memRead n a) : m = n := by
  have pairwise {l : Memory} (hl : l.wf = true) : l.Pairwise (fun x y => x.1 < y.1) :=
    (tabSorted_iff_pairwise l).mp ((memory_wf_iff l).mp hl).1
  have : Std.Irrefl fun x y : Host.Cell => x.1 < y.1 := ⟨fun x => Nat.lt_irrefl x.1⟩
  have : Std.Antisymm fun x y : Host.Cell => x.1 < y.1 := ⟨fun x y hxy hyx => absurd hxy (Nat.lt_asymm hyx)⟩
  refine (pairwise hm).eq_of_mem_iff (pairwise hn) fun c => ?_
  rw [mem_iff_memRead hm, mem_iff_memRead hn, h]

/-- Settles O6: what is read after a write and after zeroing, the canonical form, and its uniqueness. -/
theorem billetMemory : Obligations.BilletMemory :=
  ⟨fun m a i l hi => memRead_memWrites_inside l m a i hi, fun m a c l hc => memRead_memWrites_outside l m a c hc,
    fun _ a l hm => ⟨memWrites_wf l a hm, fun n => memZero_wf a n hm⟩, fun m a n c _ => memRead_memZero m a n c,
    fun m a _ _ hi => getElem?_memReads m a hi, fun _ _ hm hn h => memory_eq_of_memRead hm hn h⟩

end Sys2Proof.Machine

/-! ## Descriptors of a ring: start and outcome (06 R173, R185; 07 R208) -/

namespace Sys2Proof.Machine

/-! ### A descriptor by its count -/

theorem State.desc_congr {s t : State} {b r : Nat} (h : (t.ring b r).descs = (s.ring b r).descs) (c : BitVec 32) : t.desc b r c = s.desc b r c := by
  rw [State.desc, h]
  rfl

theorem State.desc_eq_of_benches {s t : State} (h : t.benches = s.benches) (b r : Nat) (c : BitVec 32) : t.desc b r c = s.desc b r c :=
  State.desc_congr (congrArg Ring.descs (State.ring_congr h b r)) c

theorem State.count_of_desc {s : State} {b r : Nat} {c : BitVec 32} {d : Desc} (h : s.desc b r c = some d) : d.count = c := by
  simpa using List.find?_some h

theorem State.desc_alone {s : State} {b r : Nat} {d : Desc} (h : (s.ring b r).descs = [d]) : s.desc b r d.count = some d := by
  rw [State.desc, h]
  simp

theorem Ring.modDesc_find {f : Desc → Desc} (hf : ∀ d, (f d).count = d.count) (x : Ring) (c k : BitVec 32) :
    (x.modDesc c f).descs.find? (fun d => d.count == k) = (x.descs.find? fun d => d.count == k).map fun d => if d.count = c then f d else d := by
  rw [Ring.modDesc, List.find?_map]
  congr 2
  funext d
  dsimp only [Function.comp_apply]
  split_ifs <;> simp [hf]

theorem State.modDesc_desc {s : State} {b r : Nat} {c : BitVec 32} {d : Desc} {f : Desc → Desc} (h : s.desc b r c = some d)
    (hf : ∀ e, (f e).count = e.count) : (s.modDesc b r c f).desc b r c = some (f d) := by
  rw [State.desc, State.modDesc, State.modRing_ring_same, Ring.modDesc_find hf, ← State.desc, h, Option.map_some, if_pos (State.count_of_desc h)]

/-- What a change of a ring leaves of it, it leaves of every ring. -/
theorem State.modRing_ring_keeps {α : Type} {f : Ring → Ring} {g : Ring → α} (h : ∀ x, g (f x) = g x) (s : State) (b e r q : Nat) :
    g ((s.modRing b r f).ring e q) = g (s.ring e q) := by
  by_cases he : e = b
  · subst he
    by_cases hq : q = r
    · rw [hq, State.modRing_ring_same, h]
    · rw [State.modRing_ring_ne _ _ _ hq]
  · rw [State.modRing_ring_other _ _ _ _ he]

/-- What a change of a descriptor leaves of it, it leaves of every descriptor of every ring. -/
theorem State.modDesc_desc_keeps {α : Type} {f : Desc → Desc} {g : Desc → α} (hf : ∀ d, (f d).count = d.count) (hg : ∀ d, g (f d) = g d)
    (s : State) (b e r q : Nat) (c k : BitVec 32) : ((s.modDesc b r c f).desc e q k).map g = (s.desc e q k).map g := by
  refine State.modRing_ring_keeps (g := fun x => (x.descs.find? fun d => d.count == k).map g) (fun x => ?_) s b e r q
  rw [Ring.modDesc_find hf, Option.map_map]
  congr 1
  funext d
  rw [Function.comp_apply]
  split_ifs
  · exact hg d
  · rfl

theorem State.modRing_keeps {α : Type} {g : Bench → α} (h : ∀ x l, g { x with rings := l } = g x) (s : State) (b r k : Nat) (f : Ring → Ring) :
    g ((s.modRing b r f).bench k) = g (s.bench k) :=
  State.modBench_keeps (fun x => h x _) s b k

theorem State.trace_keeps {α : Type} {g : Bench → α} (h : ∀ x w, g { x with trace := w } = g x) (s : State) (b r e : Nat)
    (c : BitVec 32) (x : BitVec 64) (y : BitVec 32) (k : Nat) : g ((s.trace b r e c x y).bench k) = g (s.bench k) := by
  rw [State.trace]
  split_ifs
  · rw [State.traceTo_keeps h, State.traceTo_keeps h]
  · exact State.traceTo_keeps h ..

/-! ### A descriptor starts (06 R173) -/

section Start

variable {s : State} {b r : Nat} {c : BitVec 32} {d : Desc}

/-- The number in the order of starting that the descriptor has once it starts. -/
def State.startOrder (s : State) (b : Nat) (d : Desc) : Nat := if d.phase = .fired then d.order else (s.bench b).nextOrder

theorem State.numberDesc_fired (h : s.desc b r c = some d) (hp : d.phase = .fired) : s.numberDesc b r c = s := by
  rw [State.numberDesc, h]
  exact if_pos (by simp [hp])

theorem State.numberDesc_unfired (h : s.desc b r c = some d) (hp : d.phase ≠ .fired) : s.numberDesc b r c =
    (s.modDesc b r c fun e => { e with order := (s.bench b).nextOrder }).modBench b fun x => { x with nextOrder := (s.bench b).nextOrder + 1 } := by
  rw [State.numberDesc, h]
  exact if_neg (by simp [hp])

theorem State.numberDesc_desc (h : s.desc b r c = some d) : (s.numberDesc b r c).desc b r c = some { d with order := s.startOrder b d } := by
  by_cases hp : d.phase = .fired
  · rw [State.numberDesc_fired h hp, State.startOrder, if_pos hp, h]
  · rw [State.numberDesc_unfired h hp, State.startOrder, if_neg hp]
    exact (State.desc_congr (congrArg Ring.descs (State.modBench_ring_same _ _ _ _ (by exact rfl))) c).trans (State.modDesc_desc h fun _ => rfl)

theorem State.numberDesc_nextOrder (h : s.desc b r c = some d) :
    ((s.numberDesc b r c).bench b).nextOrder = if d.phase = .fired then (s.bench b).nextOrder else (s.bench b).nextOrder + 1 := by
  by_cases hp : d.phase = .fired
  · rw [State.numberDesc_fired h hp, if_pos hp]
  · rw [State.numberDesc_unfired h hp, if_neg hp, State.modBench_bench_same]

theorem State.startDesc_desc (h : s.desc b r c = some d) (total : Nat) :
    (s.startDesc b r c total).desc b r c = some { d with phase := .started, order := s.startOrder b d, total := total } := by
  rw [State.startDesc]
  exact (State.desc_congr (congrArg Ring.descs (State.trace_ring ..)) c).trans (State.modDesc_desc (State.numberDesc_desc h) fun _ => rfl)

theorem State.startDesc_nextOrder (h : s.desc b r c = some d) (total : Nat) :
    ((s.startDesc b r c total).bench b).nextOrder = if d.phase = .fired then (s.bench b).nextOrder else (s.bench b).nextOrder + 1 := by
  rw [State.startDesc]
  refine (State.trace_keeps (g := Bench.nextOrder) (fun _ _ => rfl) ..).trans ?_
  exact (State.modRing_keeps (g := Bench.nextOrder) (fun _ _ => rfl) ..).trans (State.numberDesc_nextOrder h)

theorem State.numberDesc_ring (s : State) (b r : Nat) (c : BitVec 32) : ∃ f : Desc → Desc, (∀ e, (f e).count = e.count) ∧
    (s.numberDesc b r c).ring b r = (s.ring b r).modDesc c f := by
  rw [State.numberDesc]
  split_ifs
  · refine ⟨id, fun _ => rfl, ?_⟩
    simp [Ring.modDesc]
  · refine ⟨_, ?_, (State.modBench_ring_same _ _ _ _ (by exact rfl)).trans (State.modRing_ring_same ..)⟩
    exact fun _ => rfl

/-- A start that is alone in its ring is alone there once it has started. -/
theorem State.startDesc_alone (h : (s.ring b r).descs = [d]) (total : Nat) : ((s.startDesc b r d.count total).ring b r).descs =
    [{ d with phase := .started, order := s.startOrder b d, total := total }] := by
  have hd : s.desc b r d.count = some d := State.desc_alone h
  obtain ⟨f, hf, hnumber⟩ := s.numberDesc_ring b r d.count
  have hfd : f d = { d with order := s.startOrder b d } := by
    have hdesc := State.numberDesc_desc hd
    rw [State.desc, hnumber, Ring.modDesc_find hf, ← State.desc, hd, Option.map_some, if_pos rfl] at hdesc
    exact Option.some.inj hdesc
  rw [State.startDesc]
  refine (congrArg Ring.descs (State.trace_ring ..)).trans ?_
  rw [State.modDesc, State.modRing_ring_same, hnumber, Ring.modDesc, Ring.modDesc, h]
  simp [hfd]

/-- A start changes the rings of its bench, the bench's count of starts and its trace, and no more of a bench. -/
theorem State.startDesc_keeps {α : Type} {g : Bench → α} (h : ∀ x l w n, g { x with rings := l, trace := w, nextOrder := n } = g x)
    (s : State) (b r : Nat) (c : BitVec 32) (total k : Nat) : g ((s.startDesc b r c total).bench k) = g (s.bench k) := by
  have hrings (x : Bench) (l : Tab Ring) : g { x with rings := l } = g x := h x l x.trace x.nextOrder
  have hnumber : g ((s.numberDesc b r c).bench k) = g (s.bench k) := by
    rw [State.numberDesc]
    split_ifs
    · rfl
    · exact (State.modBench_keeps (fun x => h x x.rings x.trace _) _ b k).trans (State.modRing_keeps hrings s b r k _)
  rw [State.startDesc]
  exact ((State.trace_keeps (fun x w => h x x.rings w x.nextOrder) ..).trans (State.modRing_keeps hrings ..)).trans hnumber

theorem State.status_of_mayStart (h : s.mayStart b r d = true) : d.status = none := by
  rw [State.mayStart] at h
  simp only [Bool.and_eq_true, Option.isNone_iff_eq_none] at h
  tauto

theorem State.status_of_startable {op : Nat} (h : s.startable b r op = some d) : d.status = none := by
  have hd := List.find?_some h
  rw [Bool.and_eq_true] at hd
  exact State.status_of_mayStart hd.2

end Start

/-! ### An outcome is fixed (06 R185) -/

section End

variable {s : State} {b r code : Nat} {c : BitVec 32} {d : Desc} (h : s.desc b r c = some d) (hs : d.status = none)
  (detail operand : Nat) (result : BitVec 64)

include h hs

/-- An outcome for a descriptor without one changes that descriptor alone, of all that the benches hold. A frame that was not GOOD stands in for DONE. -/
theorem State.endDesc_open : ∃ (u : State) (f : Desc → Desc), s.endDesc b r c code detail operand result = u.modDesc b r c f ∧
    u.benches = s.benches ∧ (∀ e, (f e).count = e.count) ∧
    (d.sealNote = none ∨ code ≠ 0 → (f d).status = some ⟨code, detail, operand, result⟩) := by
  rw [State.endDesc, h]
  dsimp only
  rw [if_neg (by simp [hs])]
  refine ⟨_, _, rfl, ?_, fun _ => rfl, fun hn => ?_⟩
  · split_ifs
    · rfl
    · exact (s.freeReorder_kept _).rest .benches rfl
  · dsimp only
    split
    next hnote => rw [if_neg (hn.resolve_left (by simp [hnote]))]
    next => rfl

theorem State.endDesc_status (hn : d.sealNote = none ∨ code ≠ 0) :
    ((s.endDesc b r c code detail operand result).desc b r c).map Desc.status = some (some ⟨code, detail, operand, result⟩) := by
  obtain ⟨u, f, he, hu, hf, hst⟩ := State.endDesc_open (code := code) h hs detail operand result
  rw [he, State.modDesc_desc ((State.desc_eq_of_benches hu b r c).trans h) hf, Option.map_some, hst hn]

/-- Of a bench, an outcome changes the rings alone. -/
theorem State.endDesc_keeps {α : Type} {g : Bench → α} (hg : ∀ x l, g { x with rings := l } = g x) (k : Nat) :
    g ((s.endDesc b r c code detail operand result).bench k) = g (s.bench k) := by
  obtain ⟨u, f, he, hu, -, -⟩ := State.endDesc_open (code := code) h hs detail operand result
  rw [he, State.modDesc, State.modRing_keeps hg, State.bench, hu]
  rfl

/-- Of its ring, an outcome changes the descriptors alone, and none of their counts. -/
theorem State.endDesc_ring : ∃ f : Desc → Desc, (∀ e, (f e).count = e.count) ∧
    (s.endDesc b r c code detail operand result).ring b r = (s.ring b r).modDesc c f := by
  obtain ⟨u, f, he, hu, hf, -⟩ := State.endDesc_open (code := code) h hs detail operand result
  exact ⟨f, hf, by rw [he, State.modDesc, State.modRing_ring_same, State.ring_congr hu]⟩

end End

/-! ### What a line does to a descriptor (07 R210, R226) -/

theorem State.edgeRing_keeps {α : Type} {g : Desc → α} (h : ∀ x n, g { x with edgesLost := n } = g x) (s : State) (e q : Nat) (src : PaceSource)
    (b r : Nat) (c : BitVec 32) : ((s.edgeRing e q src).desc b r c).map g = (s.desc b r c).map g := by
  rw [State.edgeRing]
  split
  · rfl
  · split_ifs
    · exact congrArg (Option.map g) (State.desc_congr (State.modRing_ring_keeps (g := Ring.descs) (by exact fun _ => rfl) s e b q r) c)
    · exact State.modDesc_desc_keeps (f := fun x => { x with edgesLost := x.edgesLost + 1 }) (fun _ => rfl) (fun x => h x _) s e b q r _ c

theorem State.edgeBench_keeps {α : Type} {g : Desc → α} (h : ∀ x n, g { x with edgesLost := n } = g x) (s : State) (e : Nat) (src : PaceSource)
    (b r : Nat) (c : BitVec 32) : ((s.edgeBench e src).desc b r c).map g = (s.desc b r c).map g := by
  rw [State.edgeBench]
  generalize tabKeys (s.bench e).rings = l
  induction l generalizing s with
  | nil => rfl
  | cons q l ih => exact (ih _).trans (State.edgeRing_keeps h s e q src b r c)

theorem State.lineOp_keeps {α : Type} {g : Desc → α} (h : ∀ x n, g { x with edgesLost := n } = g x) (s : State) (n op b r : Nat) (c : BitVec 32) :
    ((s.lineOp n op).desc b r c).map g = (s.desc b r c).map g := by
  rw [State.lineOp]
  split
  · split
    · exact State.edgeBench_keeps h ..
    · rfl
  · rfl

/-! ### Index tables -/

/-- The reads that a load issues leave the benches. -/
theorem State.readIndex_keeps {α : Type} {g : Desc → α} (h : ∀ x l k, g { x with index := l, indexBase := k } = g x) (s : State) (b r : Nat)
    (c : BitVec 32) (l : List Nat) : ((s.readIndex b r c l).desc b r c).map g = (s.desc b r c).map g := by
  rw [State.readIndex]
  split
  · rfl
  next d hd =>
    dsimp only
    split_ifs
    · rfl
    · split
      · rfl
      next t ht =>
        have hload : t.desc b r c = s.desc b r c := State.desc_eq_of_benches ((State.load_kept (e := ht) ..).rest .benches rfl) b r c
        rw [← hload]
        exact State.modDesc_desc_keeps (by exact fun _ => rfl) (by exact fun x => h x _ _) ..

end Sys2Proof.Machine

/-! ## Starts of descriptors (O36; 07 R201–R210; 09 R267; 11 R335, R337) -/

namespace Sys2Proof.Machine

section StartKeeps

variable (s : State) (b r : Nat) (c : BitVec 32) (total : Nat)

@[simp] theorem State.startDesc_at_event (n : Nat) : (s.startDesc b r c total).event n = s.event n :=
  congrArg (fun x : Tab EventLine => tabGet x .reset n) ((s.startDesc_kept b r c total).rest .events rfl)

@[simp] theorem State.startDesc_nDies : (s.startDesc b r c total).nDies = s.nDies := by
  rw [State.nDies, State.big, (s.startDesc_kept b r c total).rest .chip rfl]
  rfl

@[simp] theorem State.startDesc_classHas (k : Nat) (f : BenchClass → Bool) : (s.startDesc b r c total).classHas k f = s.classHas k f := by
  rw [State.classHas, State.classOf, (s.startDesc_kept b r c total).rest .chip rfl,
    State.startDesc_keeps (g := Bench.classId) (fun _ _ _ _ => rfl)]
  rfl

end StartKeeps

/-! ### The next descriptor of an opcode -/

section Begin

variable {s : State} {b r op : Nat} {d : Desc}

theorem State.begin_starts {e : Desc} (hst : s.startable b r op = some d) (he : (s.startDesc b r d.count (totalOf d.bytes)).desc b r d.count = some e) :
    s.begin b r op = some (e, s.startDesc b r d.count (totalOf d.bytes)) := by
  rw [State.begin, hst]
  dsimp only
  rw [he, Option.map_some]

theorem State.begin_waiting (hst : s.startable b r op = none) (hrun : s.channelRuns b r = true)
    (hd : ((s.ring b r).descs.find? fun e => opOf e.bytes == op && e.phase == .started && e.status.isNone) = some d) :
    s.begin b r op = some (d, s) := by
  rw [State.begin, hst]
  dsimp only
  rw [if_neg (not_not_intro hrun), hd, Option.map_some]

theorem State.startIndexed_starts (hst : s.startable b r op = some d) (hd : s.desc b r d.count = some d) (l : List Nat) :
    s.startIndexed b r op l = (s.startDesc b r d.count (totalOf d.bytes)).readIndex b r d.count l := by
  rw [State.startIndexed, State.begin_starts hst (State.startDesc_desc hd _)]

theorem State.startIndexed_waiting (hst : s.startable b r op = none) (hrun : s.channelRuns b r = true)
    (hd : ((s.ring b r).descs.find? fun e => opOf e.bytes == op && e.phase == .started && e.status.isNone) = some d) (l : List Nat) :
    s.startIndexed b r op l = s.readIndex b r d.count l := by
  rw [State.startIndexed, State.begin_waiting hst hrun hd]

/-- An indexed descriptor that has started has its total and its place in the order of starting, and no outcome. -/
theorem State.startIndexed_desc (hst : s.startable b r op = some d) (hd : s.desc b r d.count = some d) (total : Nat) (l : List Nat) :
    (((s.startDesc b r d.count total).readIndex b r d.count l).desc b r d.count).map (fun e => (e.phase, e.total, e.order, e.status)) =
      some (.started, total, s.startOrder b d, none) := by
  rw [State.readIndex_keeps (g := fun e => (e.phase, e.total, e.order, e.status)) (fun _ _ _ => rfl), State.startDesc_desc hd, Option.map_some,
    State.status_of_startable hst]

theorem State.startData_starts (hst : s.startable b r op = some d) :
    s.startData b r op = (s.startDesc b r d.count (totalOf d.bytes)).advance b r d.count := by
  rw [State.startData, hst]

theorem exec_copy_starts (hst : s.startable b r 0x01 = some d) : exec (.copy b r) s =
    .next (((s.startDesc b r d.count (totalOf d.bytes)).breadcrumb b d.bytes).advance b r d.count) := by
  rw [exec_copy, execCopy, hst]

/-- The outcome of a descriptor that starts, fixed in a state that has the descriptor as it started. -/
theorem State.started_endDesc_status {t : State} {code total : Nat} (hst : s.startable b r op = some d) (hd : s.desc b r d.count = some d)
    (ht : t.desc b r d.count = (s.startDesc b r d.count total).desc b r d.count) (hn : d.sealNote = none ∨ code ≠ 0)
    (detail operand : Nat) (result : BitVec 64) :
    ((t.endDesc b r d.count code detail operand result).desc b r d.count).map Desc.status = some (some ⟨code, detail, operand, result⟩) :=
  State.endDesc_status (ht.trans (State.startDesc_desc hd total)) (State.status_of_startable (d := d) hst) detail operand result hn

end Begin

/-! ### ACQUIRE and FENCE (09 R267; 07 R208) -/

section Order

variable {s : State} {b r : Nat} {d : Desc}

/-- The ring with the ACQUIRE alone, to be fetched on from behind it. -/
def State.acquired (s : State) (b r : Nat) (d : Desc) : State :=
  (s.startDesc b r d.count 0).modRing b r fun x =>
    { x with descs := x.descs.filter fun e => e.count == d.count, fetchNext := d.count + 1, ownStop := false }

theorem exec_acquire_starts (hst : s.startable b r 0x10 = some d) : exec (.acquire b r) s = .next ((s.acquired b r d).endPlain b r d 0 0) := by
  rw [exec_acquire, execAcquire, hst]
  rfl

theorem State.acquired_desc (s : State) (b r : Nat) (d : Desc) :
    (s.acquired b r d).desc b r d.count = (s.startDesc b r d.count 0).desc b r d.count := by
  rw [State.acquired, State.desc, State.modRing_ring_same, List.find?_filter, State.desc]
  congr 1
  funext x
  rw [Bool.eq_iff_iff]
  simp

theorem acquire_completes (hst : s.startable b r 0x10 = some d) (hd : s.desc b r d.count = some d) (hn : d.sealNote = none) :
    ∃ t, exec (.acquire b r) s = .next t ∧ (t.ring b r).fetchNext = d.count + 1 ∧ (t.ring b r).ownStop = false ∧
      (∀ e ∈ (t.ring b r).descs, e.count = d.count) ∧ (t.desc b r d.count).map Desc.status = some (some ⟨0, 0, 255, 0⟩) := by
  have hdesc := (s.acquired_desc b r d).trans (State.startDesc_desc hd 0)
  obtain ⟨f, hf, hring⟩ := State.endDesc_ring (code := 0) hdesc (State.status_of_startable (d := d) hst) 0 255 0
  rw [State.acquired, State.modRing_ring_same] at hring
  refine ⟨_, exec_acquire_starts hst, ?_, ?_, ?_, State.started_endDesc_status hst hd (s.acquired_desc b r d) (.inl hn) ..⟩
  all_goals rw [State.endPlain, State.acquired, hring]
  · rfl
  · rfl
  · intro e he
    obtain ⟨x, hx, rfl⟩ := List.mem_map.mp he
    have hcount : x.count = d.count := by simpa using (List.mem_filter.mp hx).2
    rw [if_pos hcount, hf, hcount]

/-- A FENCE that starts completes unless a descriptor started earlier in its scope is left. -/
theorem exec_fence_starts {u : State} {e : Desc} (hst : s.startable b r 0x11 = some d) (hu : u = s.startDesc b r d.count (totalOf d.bytes))
    (he : u.desc b r d.count = some e) : exec (.fence b r) s = .next (if (if field e.bytes 0x0C 1 = 1
      then (u.bench b).rings.any (fun q => q.2.startedBefore e.order) else (u.ring b r).startedBefore e.order) then u else u.endPlain b r e 0 0) := by
  have hbegin : s.begin b r 0x11 = some (e, u) := by
    rw [hu] at he ⊢
    exact State.begin_starts hst he
  rw [exec_fence, execFence, hbegin]
  dsimp only
  rw [State.count_of_desc he, he]
  dsimp only
  by_cases hscope : field e.bytes 0x0C 1 = 1
  · simp only [State.fenceOpen, if_pos hscope]
    cases (u.bench b).rings.any fun q => q.2.startedBefore e.order <;> rfl
  · simp only [State.fenceOpen, if_neg hscope]
    cases (u.ring b r).startedBefore e.order <;> rfl

theorem fence_alone (hst : s.startable b r 0x11 = some d) (h : (s.ring b r).descs = [d]) (hn : d.sealNote = none) (hscope : field d.bytes 0x0C 1 ≠ 1) :
    ∃ t, exec (.fence b r) s = .next t ∧ (t.desc b r d.count).map Desc.status = some (some ⟨0, 0, 255, 0⟩) := by
  have hd := State.desc_alone h
  refine ⟨_, exec_fence_starts hst rfl (State.startDesc_desc hd _), ?_⟩
  rw [if_neg hscope, Ring.startedBefore, State.startDesc_alone h, if_neg (by simp)]
  exact State.started_endDesc_status hst hd rfl (.inl hn) ..

end Order

/-! ### Event lines (07 R209, R210) -/

section Lines

variable {s : State} {b r : Nat} {d : Desc}

@[simp] theorem State.endPlain_at_event (s : State) (b r : Nat) (d : Desc) (code : Nat) (v : BitVec 64) (n : Nat) :
    (s.endPlain b r d code v).event n = s.event n :=
  congrArg (fun x : Tab EventLine => tabGet x .reset n) ((s.endPlain_kept b r d code v).rest .events rfl)

@[simp] theorem State.giveUp_desc (s : State) (b r n : Nat) (c : BitVec 32) : (s.giveUp b r n).desc b r c = s.desc b r c :=
  State.desc_congr (by rw [State.giveUp_ring]) c

theorem exec_eventWait_waits (hst : s.startable b r 0x12 = some d) (hline : (s.event (field d.bytes 0x0C 2)).holder = some b) :
    exec (.eventWait b r) s =
      .next (((s.startDesc b r d.count 0).modDesc b r d.count fun e => { e with phase := .eventWait }).giveUp b r 1) := by
  rw [exec_eventWait, execEventWait, hst]
  dsimp only
  rw [State.startDesc_at_event, if_neg (not_not_intro hline)]

theorem exec_eventWait_refused (hst : s.startable b r 0x12 = some d) (hline : (s.event (field d.bytes 0x0C 2)).holder ≠ some b) :
    exec (.eventWait b r) s = .next ((s.startDesc b r d.count 0).endPlain b r d 0x12 0) := by
  rw [exec_eventWait, execEventWait, hst]
  dsimp only
  rw [State.startDesc_at_event, if_pos hline]

theorem eventWait_waits (hst : s.startable b r 0x12 = some d) (hd : s.desc b r d.count = some d)
    (hline : (s.event (field d.bytes 0x0C 2)).holder = some b) : ∃ t, exec (.eventWait b r) s = .next t ∧
      t.desc b r d.count = some { d with phase := .eventWait, order := s.startOrder b d, total := 0 } ∧ (t.ring b r).channel = none ∧
      t.events = s.events := by
  have hexec := exec_eventWait_waits hst hline
  refine ⟨_, hexec, ?_, ?_, exec_frame hexec (p := .events) (of_decide_eq_false rfl)⟩
  · rw [State.giveUp_desc]
    exact State.modDesc_desc (State.startDesc_desc hd 0) fun _ => rfl
  · rw [State.giveUp_ring]

/-- The waiter whose line is in the state waited for, and whose turn it is, is done. -/
theorem exec_eventWaitSatisfied_met (h : (s.ring b r).descs = [d]) (hp : d.phase = .eventWait) (hrun : s.channelRuns b r = true)
    (hmet : s.waitMet d = true) (hturn : ¬(field d.bytes 0x0E 1 = 1 ∧ s.earlierWaiter b d = true)) : exec (.eventWaitSatisfied b r) s =
      .next ((if field d.bytes 0x0E 1 = 1 then s.lineOp (field d.bytes 0x0C 2) 2 else s).endPlain b r d 0
        (if field d.bytes 0x0E 1 = 1 then s.lineOp (field d.bytes 0x0C 2) 2 else s).now) := by
  rw [exec_eventWaitSatisfied, execEventWaitSatisfied, h, List.find?_cons_of_pos (by simp [hp])]
  dsimp only
  exact if_neg (by simp [hrun, hmet, hturn])

theorem eventWaitSatisfied_keepsLine (h : (s.ring b r).descs = [d]) (hp : d.phase = .eventWait) (hs : d.status = none) (hn : d.sealNote = none)
    (hrun : s.channelRuns b r = true) (hmet : s.waitMet d = true) (hmode : field d.bytes 0x0E 1 ≠ 1) :
    ∃ t, exec (.eventWaitSatisfied b r) s = .next t ∧ (t.desc b r d.count).map Desc.status = some (some ⟨0, 0, 255, s.now⟩) ∧ t.events = s.events := by
  refine ⟨_, exec_eventWaitSatisfied_met h hp hrun hmet fun hm => hmode hm.1, ?_⟩
  rw [if_neg hmode]
  exact ⟨State.endDesc_status (State.desc_alone h) hs _ _ _ (.inl hn), (State.endPlain_kept ..).rest .events rfl⟩

theorem eventWaitSatisfied_clearsLine (h : (s.ring b r).descs = [d]) (hp : d.phase = .eventWait) (hs : d.status = none) (hn : d.sealNote = none)
    (hrun : s.channelRuns b r = true) (hmet : s.waitMet d = true) (hmode : field d.bytes 0x0E 1 = 1) (hfirst : s.earlierWaiter b d = false) :
    ∃ t, exec (.eventWaitSatisfied b r) s = .next t ∧ (t.desc b r d.count).map Desc.status = some (some ⟨0, 0, 255, s.now⟩) ∧
      (t.event (field d.bytes 0x0C 2)).level = false := by
  refine ⟨_, exec_eventWaitSatisfied_met h hp hrun hmet fun hm => Bool.false_ne_true (hfirst.symm.trans hm.2), ?_⟩
  rw [if_pos hmode, State.lineOp_clear]
  refine ⟨State.endDesc_status (State.desc_alone (by exact h)) hs _ _ _ (.inl hn), ?_⟩
  rw [State.endPlain_at_event, State.modEvent_event_same]

theorem exec_eventSignal_signals (hst : s.startable b r 0x13 = some d) (hline : (s.event (field d.bytes 0x0C 2)).holder = some b) :
    exec (.eventSignal b r) s = .next (((s.startDesc b r d.count 0).lineOp (field d.bytes 0x0C 2) (field d.bytes 0x0E 1)).endPlain b r d 0
      (BitVec.ofNat 64 (s.event (field d.bytes 0x0C 2)).level.toNat)) := by
  rw [exec_eventSignal, execEventSignal, hst]
  dsimp only
  rw [State.startDesc_at_event, if_neg (not_not_intro hline)]

theorem exec_eventSignal_refused (hst : s.startable b r 0x13 = some d) (hline : (s.event (field d.bytes 0x0C 2)).holder ≠ some b) :
    exec (.eventSignal b r) s = .next ((s.startDesc b r d.count 0).endPlain b r d 0x12 0) := by
  rw [exec_eventSignal, execEventSignal, hst]
  dsimp only
  rw [State.startDesc_at_event, if_pos hline]

theorem eventSignal_signals (hst : s.startable b r 0x13 = some d) (hd : s.desc b r d.count = some d) (hn : d.sealNote = none)
    (hline : (s.event (field d.bytes 0x0C 2)).holder = some b) : ∃ t, exec (.eventSignal b r) s = .next t ∧
      (t.desc b r d.count).map Desc.status = some (some ⟨0, 0, 255, BitVec.ofNat 64 (s.event (field d.bytes 0x0C 2)).level.toNat⟩) ∧
      (t.event (field d.bytes 0x0C 2)).level = (if field d.bytes 0x0E 1 = 1 then true else if field d.bytes 0x0E 1 = 2 then false
        else (s.event (field d.bytes 0x0C 2)).level) ∧ (t.event (field d.bytes 0x0C 2)).holder = some b := by
  refine ⟨_, exec_eventSignal_signals hst hline, ?_, ?_, ?_⟩
  · have hkept := State.lineOp_keeps (g := fun e => (e.status, e.sealNote)) (fun _ _ => rfl) (s.startDesc b r d.count 0) (field d.bytes 0x0C 2)
      (field d.bytes 0x0E 1) b r d.count
    rw [State.startDesc_desc hd, Option.map_some, State.status_of_startable hst, hn] at hkept
    obtain ⟨e, he, hopen⟩ := Option.map_eq_some_iff.mp hkept
    obtain ⟨hes, hen⟩ := Prod.mk.inj hopen
    exact State.endDesc_status he hes _ _ _ (.inl hen)
  · rw [State.endPlain_at_event, State.lineOp_event, State.startDesc_at_event]
  · rw [State.endPlain_at_event, State.lineOp_event, State.startDesc_at_event, hline]

end Lines

/-! ### PREFETCH and ADVISE (11 R335, R337) -/

section Ahead

variable {s : State} {b r : Nat} {d : Desc}

theorem exec_prefetch_none (hst : s.startable b r 0x30 = some d) (hl : lengthOf d.bytes = 0) :
    exec (.prefetch b r) s = .next ((s.startDesc b r d.count (lengthOf d.bytes)).endPlain b r d 0 0) := by
  rw [exec_prefetch, execPrefetch, hst]
  exact if_pos hl

theorem exec_prefetch_refused (hst : s.startable b r 0x30 = some d) (hl : lengthOf d.bytes ≠ 0)
    (hmode : (if selOf d.bytes 0 = 1 then s.classHas b BenchClass.modeS else s.classHas b BenchClass.modeD) = false) :
    exec (.prefetch b r) s = .next ((s.startDesc b r d.count (lengthOf d.bytes)).endDesc b r d.count 0x12 0 0 (BitVec.ofNat 64 (addrOf d.bytes 0))) := by
  rw [exec_prefetch, execPrefetch, hst]
  dsimp only
  rw [if_neg hl, State.startDesc_classHas, State.startDesc_classHas, hmode]
  rfl

theorem exec_prefetch_pages (hst : s.startable b r 0x30 = some d) (hl : lengthOf d.bytes ≠ 0)
    (hmode : (if selOf d.bytes 0 = 1 then s.classHas b BenchClass.modeS else s.classHas b BenchClass.modeD) = true) :
    exec (.prefetch b r) s = .next ((s.startDesc b r d.count (lengthOf d.bytes)).pumpPrefetch b r d.count (prefetchPages d.bytes)) := by
  rw [exec_prefetch, execPrefetch, hst]
  dsimp only
  rw [if_neg hl, State.startDesc_classHas, State.startDesc_classHas, hmode]
  rfl

theorem exec_advise_none (hst : s.startable b r 0x31 = some d) (hl : lengthOf d.bytes = 0) :
    exec (.advise b r) s = .next ((s.startDesc b r d.count 0).endPlain b r d 0 0) := by
  rw [exec_advise, execAdvise, hst]
  exact if_pos hl

theorem exec_advise_refused (hst : s.startable b r 0x31 = some d) (hl : lengthOf d.bytes ≠ 0)
    (hmode : selOf d.bytes 0 = 1 ∨ s.classHas b BenchClass.modeD = false) :
    exec (.advise b r) s = .next ((s.startDesc b r d.count 0).endDesc b r d.count 0x12 0 0 (BitVec.ofNat 64 (addrOf d.bytes 0))) := by
  have hrefused : selOf d.bytes 0 = 1 ∨ ¬(s.startDesc b r d.count 0).classHas b BenchClass.modeD = true := by
    rw [State.startDesc_classHas]
    exact hmode.imp_right Bool.eq_false_iff.mp
  rw [exec_advise, execAdvise, hst]
  exact (if_neg hl).trans (if_pos hrefused)

section Allowed

variable (hst : s.startable b r 0x31 = some d) (hl : lengthOf d.bytes ≠ 0) (hsel : selOf d.bytes 0 ≠ 1) (hmode : s.classHas b BenchClass.modeD = true)

include hst hl hsel hmode

theorem exec_advise_badDie (hadvice : field d.bytes 0x0C 1 = 2) (hdie : s.nDies < field d.bytes 0x28 8) :
    exec (.advise b r) s = .next ((s.startDesc b r d.count 0).endPlain b r d 0x30 0x28) := by
  rw [exec_advise, execAdvise, hst]
  refine (if_neg hl).trans ((if_neg (by simp [hsel, hmode])).trans (if_pos ⟨hadvice, ?_⟩))
  rwa [State.startDesc_nDies]

theorem exec_advise_records {n : Nat} {u : State} (hdie : field d.bytes 0x0C 1 = 2 → field d.bytes 0x28 8 ≤ s.nDies)
    (hu : (s.startDesc b r d.count 0).adviseFrom b (field d.bytes 0x0C 1) (field d.bytes 0x0D 1 == 1) (field d.bytes 0x28 8 % 256)
      (addrOf d.bytes 0 / 65536) (adviseRegions d.bytes) = (n, u)) :
    exec (.advise b r) s = .next (u.endPlain b r d 0 (BitVec.ofNat 64 n)) := by
  have hgrade : ¬(field d.bytes 0x0C 1 = 2 ∧ (s.startDesc b r d.count 0).nDies < field d.bytes 0x28 8) := by
    rw [State.startDesc_nDies]
    exact fun h => Nat.not_lt.mpr (hdie h.1) h.2
  rw [exec_advise, execAdvise, hst]
  refine (if_neg hl).trans ((if_neg (by simp [hsel, hmode])).trans ((if_neg hgrade).trans ?_))
  rw [hu]

end Allowed

/-- Advice changes the records of regions and their counts, and no more of a bench. -/
theorem State.makeRegion_keeps {α : Type} {g : Bench → α} (h : ∀ x l n, g { x with regions := l, regionEvict := n } = g x) (s : State)
    (b n k : Nat) : g ((s.makeRegion b n).2.bench k) = g (s.bench k) := by
  have hset (t : State) (m : Nat) (x : Option Region) : g ((t.setRegion b m x).bench k) = g (t.bench k) :=
    State.modBench_keeps (fun y => h y _ y.regionEvict) t b k
  rw [State.makeRegion]
  split
  · rfl
  · dsimp only
    split_ifs
    · exact hset ..
    · split
      · rfl
      · exact (State.modBench_keeps (fun y => h y y.regions _) _ b k).trans ((hset ..).trans (hset ..))

theorem State.adviseFrom_keeps {α : Type} {g : Bench → α} (h : ∀ x l m n, g { x with regions := l, regionEvict := m, adviseDropped := n } = g x)
    (b advice : Nat) (set : Bool) (arg fuel k : Nat) (s : State) (n : Nat) :
    g ((s.adviseFrom b advice set arg n fuel).2.bench k) = g (s.bench k) := by
  induction fuel generalizing s n with
  | zero => rfl
  | succ fuel ih =>
    have hmake : g ((s.makeRegion b n).2.bench k) = g (s.bench k) :=
      State.makeRegion_keeps (fun x l m => h x l m x.adviseDropped) s b n k
    rw [State.adviseFrom]
    split
    next t ht =>
      rw [ht] at hmake
      exact (ih ..).trans ((State.modBench_keeps (fun x => h x _ x.regionEvict x.adviseDropped) t b k).trans hmake)
    next t ht =>
      rw [ht] at hmake
      exact (ih ..).trans ((State.modBench_keeps (fun x => h x x.regions x.regionEvict _) t b k).trans hmake)

theorem ahead_none {c : Instr} {op : Nat} (hc : (c = .prefetch b r ∧ op = 0x30) ∨ (c = .advise b r ∧ op = 0x31))
    (hst : s.startable b r op = some d) (hd : s.desc b r d.count = some d) (hn : d.sealNote = none) (hl : lengthOf d.bytes = 0) :
    ∃ t, exec c s = .next t ∧ (t.desc b r d.count).map Desc.status = some (some ⟨0, 0, 255, 0⟩) ∧ t.headstock = s.headstock := by
  have hends (total : Nat) := State.started_endDesc_status (code := 0) (total := total) hst hd rfl (.inl hn) 0 255 0
  have hkept (total : Nat) : ((s.startDesc b r d.count total).endPlain b r d 0 0).headstock = s.headstock :=
    ((State.endPlain_kept ..).rest .headstock rfl).trans ((State.startDesc_kept ..).rest .headstock rfl)
  obtain ⟨rfl, rfl⟩ | ⟨rfl, rfl⟩ := hc
  · exact ⟨_, exec_prefetch_none hst hl, hends _, hkept _⟩
  · exact ⟨_, exec_advise_none hst hl, hends _, hkept _⟩

/-- An outcome right at its start leaves the bench's regions. -/
theorem State.started_endDesc_regions {op : Nat} (hst : s.startable b r op = some d) (hd : s.desc b r d.count = some d)
    (code total detail operand : Nat) (v : BitVec 64) :
    (((s.startDesc b r d.count total).endDesc b r d.count code detail operand v).bench b).regions = (s.bench b).regions :=
  (State.endDesc_keeps (g := Bench.regions) (State.startDesc_desc hd total) (State.status_of_startable (d := d) hst) _ _ _ (fun _ _ => rfl) b).trans
    (State.startDesc_keeps (g := Bench.regions) (fun _ _ _ _ => rfl) ..)

theorem advise_records {n : Nat} {u : State} (hst : s.startable b r 0x31 = some d) (hd : s.desc b r d.count = some d) (hn : d.sealNote = none)
    (hexec : exec (.advise b r) s = .next (u.endPlain b r d 0 (BitVec.ofNat 64 n)))
    (hu : (u.bench b).rings = ((s.startDesc b r d.count 0).bench b).rings) : ∃ t, exec (.advise b r) s = .next t ∧
      (t.desc b r d.count).map Desc.status = some (some ⟨0, 0, 255, BitVec.ofNat 64 n⟩) ∧ (t.bench b).regions = (u.bench b).regions := by
  have hdesc : u.desc b r d.count = (s.startDesc b r d.count 0).desc b r d.count :=
    State.desc_congr (congrArg Ring.descs (State.ring_eq_of_rings hu r)) d.count
  refine ⟨_, hexec, State.started_endDesc_status hst hd hdesc (.inl hn) .., ?_⟩
  exact State.endDesc_keeps (g := Bench.regions) (hdesc.trans (State.startDesc_desc hd 0)) (State.status_of_startable (d := d) hst) _ _ _ (fun _ _ => rfl) b

end Ahead

/-! ### The statement -/

/-- Settles O36, opcode by opcode: what the start of its next descriptor does, by what the start meets. -/
theorem descriptorStarts : Obligations.DescriptorStarts := by
  refine ⟨fun s b r d hst => exec_copy_starts hst, ?gather, ?scatter, ?readsOn, ?fill, ?compare,
    fun s b r total d hd => ⟨State.startDesc_desc hd total, State.startDesc_nextOrder hd total⟩,
    fun s b r d hst hd hn => acquire_completes hst hd hn, fun s b r d hst h hn hscope => fence_alone hst h hn hscope,
    fun s u b r d e hst hu he => exec_fence_starts hst hu he, fun s b r d hst hd hline => eventWait_waits hst hd hline, ?waitRefused,
    fun s b r d h hp hs hn hrun hmet hmode => eventWaitSatisfied_keepsLine h hp hs hn hrun hmet hmode,
    fun s b r d h hp hs hn hrun hmet hmode hfirst => eventWaitSatisfied_clearsLine h hp hs hn hrun hmet hmode hfirst,
    fun s b r d hst hd hn hline => eventSignal_signals hst hd hn hline, ?signalRefused,
    fun s b r d c op hc hst hd hn hl => ahead_none hc hst hd hn hl, ?prefetchRefused,
    fun s b r d hst hl hmode => exec_prefetch_pages hst hl hmode, ?adviseRefused, ?adviseBadDie, ?advised⟩
  case gather =>
    intro s b r d l hst hd
    exact ⟨_, rfl, State.startIndexed_starts hst hd l, State.startIndexed_starts hst hd l ▸ State.startIndexed_desc hst hd _ l⟩
  case scatter =>
    intro s b r d l hst hd
    exact ⟨_, rfl, State.startIndexed_starts hst hd l, State.startIndexed_starts hst hd l ▸ State.startIndexed_desc hst hd _ l⟩
  case readsOn =>
    rintro s b r d l c op (⟨rfl, rfl⟩ | ⟨rfl, rfl⟩) hst hrun hd
    · exact congrArg _ (State.startIndexed_waiting hst hrun hd l)
    · exact congrArg _ (State.startIndexed_waiting hst hrun hd l)
  case fill => exact fun s b r d hst => congrArg _ (State.startData_starts hst)
  case compare => exact fun s b r d hst => congrArg _ (State.startData_starts hst)
  case waitRefused =>
    intro s b r d hst hd hline
    have hexec := exec_eventWait_refused hst hline
    exact ⟨_, hexec, State.started_endDesc_status hst hd rfl (.inr (by decide)) .., exec_frame hexec (p := .events) (of_decide_eq_false rfl)⟩
  case signalRefused =>
    intro s b r d hst hd hline
    refine ⟨_, exec_eventSignal_refused hst hline, State.started_endDesc_status hst hd rfl (.inr (by decide)) .., ?_⟩
    exact ((State.endPlain_kept ..).rest .events rfl).trans ((State.startDesc_kept ..).rest .events rfl)
  case prefetchRefused =>
    intro s b r d hst hd hl hmode
    refine ⟨_, exec_prefetch_refused hst hl hmode, State.started_endDesc_status hst hd rfl (.inr (by decide)) .., ?_⟩
    exact ((State.endDesc_kept ..).rest .headstock rfl).trans ((State.startDesc_kept ..).rest .headstock rfl)
  case adviseRefused =>
    intro s b r d hst hd hl hmode
    exact ⟨_, exec_advise_refused hst hl hmode, State.started_endDesc_status hst hd rfl (.inr (by decide)) ..,
      State.started_endDesc_regions hst hd ..⟩
  case adviseBadDie =>
    intro s b r d hst hd hl hsel hmode hadvice hdie
    exact ⟨_, exec_advise_badDie hst hl hsel hmode hadvice hdie, State.started_endDesc_status hst hd rfl (.inr (by decide)) ..,
      State.started_endDesc_regions hst hd ..⟩
  case advised =>
    intro s b r n d u hst hd hn hl hsel hmode hdie hu
    refine advise_records hst hd hn (exec_advise_records hst hl hsel hmode hdie hu) ?_
    have hrings := State.adviseFrom_keeps (g := Bench.rings) (fun _ _ _ _ => rfl) b (field d.bytes 0x0C 1) (field d.bytes 0x0D 1 == 1)
      (field d.bytes 0x28 8 % 256) (adviseRegions d.bytes) b (s.startDesc b r d.count 0) (addrOf d.bytes 0 / 65536)
    rwa [hu] at hrings

end Sys2Proof.Machine

/-! ## Billets (O37; 07 R211; 17 R503–R505) -/

namespace Sys2Proof.Machine

/-! ### What a start and an outcome leave of the pool -/

section StartPool

variable (s : State) (b r : Nat) (c : BitVec 32) (total : Nat)

@[simp] theorem State.startDesc_recovery : (s.startDesc b r c total).recovery = s.recovery := (s.startDesc_kept b r c total).rest .recovery rfl

@[simp] theorem State.startDesc_billet (i : Nat) : (s.startDesc b r c total).billet i = s.billet i := by
  rw [State.billet, State.startDesc_recovery, State.billet]

@[simp] theorem State.startDesc_billetsTaken : (s.startDesc b r c total).billetsTaken = s.billetsTaken := by
  rw [State.billetsTaken, State.startDesc_recovery, State.billetsTaken]

@[simp] theorem State.startDesc_freeBillet : (s.startDesc b r c total).freeBillet = s.freeBillet := by
  rw [State.freeBillet, State.startDesc_recovery, State.freeBillet]

@[simp] theorem State.startDesc_structureHeld (k : LockStructure) (e : Nat) : (s.startDesc b r c total).structureHeld k e = s.structureHeld k e := by
  simp only [State.structureHeld, State.whittler, State.startDesc_recovery]

@[simp] theorem State.startDesc_billetHeld (e : Nat) : (s.startDesc b r c total).billetHeld e = s.billetHeld e := by
  rw [State.billetHeld, State.startDesc_recovery, (s.startDesc_kept b r c total).rest .streams rfl, State.billetHeld]

@[simp] theorem State.startDesc_limits (k : Nat) : ((s.startDesc b r c total).bench k).limits = (s.bench k).limits :=
  State.startDesc_keeps (g := Bench.limits) (fun _ _ _ _ => rfl) s b r c total k

end StartPool

@[simp] theorem State.endDesc_billet (s : State) (b r : Nat) (c : BitVec 32) (code detail operand : Nat) (v : BitVec 64) (i : Nat) :
    (s.endDesc b r c code detail operand v).billet i = s.billet i := by
  rw [State.billet, (State.endDesc_kept ..).rest .recovery rfl, State.billet]

/-! ### BILLET_ALLOC (17 R503) -/

@[simp] theorem State.modBillet_billet_same (s : State) (i : Nat) (f : Billet → Billet) : (s.modBillet i f).billet i = f (s.billet i) :=
  tabGet_tabMod_same ..

theorem State.allocBillet_billet (s : State) (b i kib : Nat) :
    (s.allocBillet b i kib).billet i = ⟨nextGen (s.billet i).gen, true, b, kib, none⟩ :=
  s.modBillet_billet_same i fun x => ⟨nextGen x.gen, true, b, kib, none⟩

theorem State.allocBillet_billetMem (s : State) (b i kib : Nat) : (s.allocBillet b i kib).billetMem = memZero s.billetMem (i * 2 ^ 20) (2 ^ 20) := rfl

@[simp] theorem State.allocBillet_desc (s : State) (b i kib e q : Nat) (c : BitVec 32) : (s.allocBillet b i kib).desc e q c = s.desc e q c :=
  State.desc_eq_of_benches ((s.allocBillet_kept b i kib).rest .benches rfl) e q c

section Alloc

variable {s : State} {b r : Nat} {d : Desc} (hst : s.startable b r 0x40 = some d) (hd : s.desc b r d.count = some d)

include hst hd

theorem exec_billetAlloc_short (hquota : s.billetHeld b + lengthOf d.bytes / 1024 - (s.bench b).limits.billet.toNat ≠ 0) :
    exec (.billetAlloc b r) s = .next ((s.startDesc b r d.count (totalOf d.bytes)).endDesc b r d.count 0x32 0 255
      (BitVec.ofNat 64 (s.billetHeld b + lengthOf d.bytes / 1024 - (s.bench b).limits.billet.toNat))) := by
  rw [exec_billetAlloc, execBilletAlloc, State.begin_starts hst (State.startDesc_desc hd _)]
  dsimp only
  rw [State.startDesc_billetHeld, State.startDesc_limits]
  exact if_pos hquota

section Quota

variable (hquota : s.billetHeld b + lengthOf d.bytes / 1024 ≤ (s.bench b).limits.billet.toNat)

include hquota

theorem exec_billetAlloc_waits (hpool : Config.billetKib < s.billetsTaken + lengthOf d.bytes / 1024) :
    exec (.billetAlloc b r) s = .next (s.startDesc b r d.count (totalOf d.bytes)) := by
  rw [exec_billetAlloc, execBilletAlloc, State.begin_starts hst (State.startDesc_desc hd _)]
  dsimp only
  rw [State.startDesc_billetHeld, State.startDesc_limits, State.startDesc_billetsTaken,
    if_neg (not_not_intro (Nat.sub_eq_zero_of_le hquota)), if_pos (.inl hpool)]

theorem exec_billetAlloc_takes {i : Nat} (hheld : s.structureHeld .billets b = false)
    (hpool : s.billetsTaken + lengthOf d.bytes / 1024 ≤ Config.billetKib) (hi : s.freeBillet = some i) :
    exec (.billetAlloc b r) s = .next (((s.startDesc b r d.count (totalOf d.bytes)).allocBillet b i (lengthOf d.bytes / 1024)).endDesc b r d.count 0 0 255
      (BitVec.ofNat 64 (handleOf i (nextGen (s.billet i).gen)))) := by
  rw [exec_billetAlloc, execBilletAlloc, State.begin_starts hst (State.startDesc_desc hd _)]
  dsimp only
  rw [State.startDesc_billetHeld, State.startDesc_limits, State.startDesc_billetsTaken, State.startDesc_structureHeld, State.startDesc_freeBillet, hi,
    if_neg (not_not_intro (Nat.sub_eq_zero_of_le hquota)), if_neg (by simp [hheld, hpool])]
  dsimp only
  rw [State.allocBillet_billet, State.startDesc_billet]
  rfl

end Quota

end Alloc

/-! ### BILLET_FREE (17 R504, R505) -/

section Free

variable {s : State} {b r i : Nat} {d : Desc}

theorem exec_billetFree_starts (hheld : s.structureHeld .billets b = false) (hst : s.startable b r 0x41 = some d) :
    exec (.billetFree b r) s = .next ((s.startDesc b r d.count 0).freeRows b r d) := by
  rw [exec_billetFree, execBilletFree, if_neg (by simp [hheld]), hst]

theorem State.freeRows_malformed (h : freeHandle d.bytes % 2 ^ 20 ≠ 0 ∨ 2 ^ 60 ≤ freeHandle d.bytes ∨ billetIndexes ≤ bits (freeHandle d.bytes) 20 20) :
    s.freeRows b r d = s.endPlain b r d 0x30 0x28 := by
  rw [State.freeRows]
  exact if_pos h

@[simp] theorem State.modBillet_billetBusy (s : State) (i k : Nat) (f : Billet → Billet) : (s.modBillet i f).billetBusy k = s.billetBusy k := rfl

theorem State.settleFree_idle (h : s.billetBusy (bits (freeHandle d.bytes) 20 20) = false) :
    s.settleFree b r d = (s.endBillet (bits (freeHandle d.bytes) 20 20)).endPlain b r d 0 0 := by
  rw [State.settleFree]
  exact if_neg (Bool.eq_false_iff.mp h)

/-- A well-formed handle of a live billet of the bench that no operation names ends the allocation at once. -/
theorem State.freeRows_frees (h : ¬(freeHandle d.bytes % 2 ^ 20 ≠ 0 ∨ 2 ^ 60 ≤ freeHandle d.bytes ∨ billetIndexes ≤ bits (freeHandle d.bytes) 20 20))
    (hi : i = bits (freeHandle d.bytes) 20 20) (hlive : (s.billet i).live = true) (hgen : (s.billet i).gen = bits (freeHandle d.bytes) 40 20)
    (hfreeing : (s.billet i).freeing = none) (howner : (s.billet i).owner = b) (hbusy : s.billetBusy i = false) :
    s.freeRows b r d = ((s.modBillet i fun x => { x with freeing := some (s.bench b).nextOrder }).endBillet i).endPlain b r d 0 0 := by
  subst hi
  rw [State.freeRows]
  refine (if_neg h).trans ((if_neg (by simp [hlive, hgen, hfreeing])).trans ((if_neg (by simp [howner])).trans ?_))
  dsimp only
  rw [if_neg (not_not_intro howner), howner, State.settleFree_idle ((State.modBillet_billetBusy ..).trans hbusy)]

theorem State.endBillet_live (s : State) (i : Nat) : ((s.endBillet i).billet i).live = false := by
  have hbillet : (s.endBillet i).billet i = { s.billet i with live := false, freeing := none } :=
    s.modBillet_billet_same i fun x => { x with live := false, freeing := none }
  rw [hbillet]

end Free

/-! ### The statement -/

/-- Settles O37: the allocation by quota and pool, the free by its handle. -/
theorem billets : Obligations.Billets := by
  refine ⟨?short, ?alloc, ?malformed, ?free, fun s b r hheld => if_pos hheld⟩
  case short =>
    intro s b r d hst hd hquota
    refine ⟨_, exec_billetAlloc_short hst hd hquota, State.started_endDesc_status hst hd rfl (.inr (by decide)) .., ?_, ?_⟩
    · rw [(State.endDesc_kept ..).rest .recovery rfl, State.startDesc_recovery]
    · exact ((State.endDesc_kept ..).rest .billetMem rfl).trans ((State.startDesc_kept ..).rest .billetMem rfl)
  case alloc =>
    intro s b r d hst hd hn hheld hquota
    by_cases hpool : Config.billetKib < s.billetsTaken + lengthOf d.bytes / 1024
    · refine ⟨_, exec_billetAlloc_waits hst hd hquota hpool, fun i hfits => absurd hpool (Nat.not_lt.mpr hfits), fun _ => ?_⟩
      rw [State.startDesc_recovery, State.startDesc_desc hd, Option.map_some, State.status_of_startable hst]
      exact ⟨rfl, rfl⟩
    · cases hfree : s.freeBillet with
      | none =>
        obtain ⟨t, ht, -⟩ := exec_within_mayChange (.billetAlloc b r) s
        exact ⟨t, ht, nofun, fun h => absurd h hpool⟩
      | some j =>
        refine ⟨_, exec_billetAlloc_takes hst hd hquota hheld (Nat.not_lt.mp hpool) hfree, fun i _ hi => ?_, fun h => absurd h hpool⟩
        obtain rfl := Option.some.inj hi
        refine ⟨?_, fun k hk => ?_, State.started_endDesc_status hst hd (State.allocBillet_desc ..) (.inl hn) ..⟩
        · rw [State.endDesc_billet, State.allocBillet_billet, State.startDesc_billet]
        · rw [(State.endDesc_kept ..).rest .billetMem rfl, State.allocBillet_billetMem, memRead_memZero]
          exact if_pos (by omega)
  case malformed =>
    intro s b r d hheld hst hd hbad
    refine ⟨_, exec_billetFree_starts hheld hst, ?_⟩
    rw [State.freeRows_malformed (.inl hbad)]
    refine ⟨State.started_endDesc_status hst hd rfl (.inr (by decide)) .., ?_⟩
    rw [(State.endPlain_kept ..).rest .recovery rfl, State.startDesc_recovery]
  case free =>
    intro s b r i d hheld hst hd hn hlow hhigh hi hlive hgen hfreeing howner hbusy
    by_cases hindex : i < billetIndexes
    · have hwell : ¬(freeHandle d.bytes % 2 ^ 20 ≠ 0 ∨ 2 ^ 60 ≤ freeHandle d.bytes ∨ billetIndexes ≤ bits (freeHandle d.bytes) 20 20) := by
        rw [← hi]
        rintro (h | h | h)
        · exact h hlow
        · exact Nat.not_lt.mpr h hhigh
        · exact Nat.not_lt.mpr h hindex
      rw [← s.startDesc_billet b r d.count 0 i] at hlive hgen hfreeing howner
      refine ⟨_, exec_billetFree_starts hheld hst, fun _ => ?_, fun h => absurd hindex (Nat.not_lt.mpr h)⟩
      rw [State.freeRows_frees hwell hi hlive hgen hfreeing howner hbusy, State.endPlain, State.endDesc_billet]
      refine ⟨State.endBillet_live .., State.started_endDesc_status (total := 0) hst hd (State.desc_eq_of_benches ?_ ..) (.inl hn) ..⟩
      exact ((State.endBillet_kept ..).rest .benches rfl).trans ((State.modBillet_kept ..).rest .benches rfl)
    · refine ⟨_, exec_billetFree_starts hheld hst, fun h => absurd h hindex, fun h => ?_⟩
      rw [State.freeRows_malformed (.inr (.inr (hi ▸ h)))]
      exact State.started_endDesc_status hst hd rfl (.inr (by decide)) ..

end Sys2Proof.Machine

/-! ## Of a bench, what its rings' outcomes leave (06 R179, R185; 08 R245) -/

namespace Sys2Proof.Machine

section Bench

variable {α : Type} {g : Bench → α} (h : ∀ x l w, g { x with rings := l, trace := w } = g x)

include h

theorem State.giveUp_keeps (s : State) (b r n k : Nat) : g ((s.giveUp b r n).bench k) = g (s.bench k) := by
  rw [State.giveUp]
  split
  · rfl
  · exact (State.trace_keeps (fun x w => h x x.rings w) ..).trans (State.modRing_keeps (fun x l => h x l x.trace) ..)

theorem State.stopAtP_keeps (s : State) (b r : Nat) (c : BitVec 32) (k : Nat) : g ((s.stopAtP b r c).bench k) = g (s.bench k) := by
  rw [State.stopAtP]
  split
  · rfl
  · refine (State.modRing_keeps (fun x l => h x l x.trace) ..).trans ?_
    exact congrArg (fun x => g (tabGet x .reset k)) ((s.freeReorder_kept _).rest .benches rfl)

theorem State.stopRing_keeps (s : State) (b r k : Nat) : g ((s.stopRing b r).bench k) = g (s.bench k) := by
  rw [State.stopRing]
  refine List.foldlRecOn (motive := fun t => g (State.bench t k) = g (s.bench k)) _ _ rfl fun t ht d _ => ?_
  split_ifs
  · exact (State.stopAtP_keeps h t b r d.count k).trans ht
  · exact ht

theorem State.parkRing_keeps (s : State) (b r : Nat) (c : ParkCause) (k : Nat) : g ((s.parkRing b r c).bench k) = g (s.bench k) := by
  rw [State.parkRing]
  refine (State.trace_keeps (fun x w => h x x.rings w) ..).trans ((State.modRing_keeps (fun x l => h x l x.trace) ..).trans ?_)
  split_ifs
  · rfl
  · exact State.giveUp_keeps h ..

theorem State.parkHost_keeps (s : State) (b r k : Nat) : g ((s.parkHost b r).bench k) = g (s.bench k) := by
  rw [State.parkHost]
  split_ifs
  · exact (State.parkRing_keeps h ..).trans (State.stopRing_keeps h ..)
  · rfl

theorem State.tryFlush_keeps (s : State) (b r : Nat) (c : BitVec 32) (k : Nat) : g ((s.tryFlush b r c).bench k) = g (s.bench k) := by
  rw [State.tryFlush]
  split
  · rfl
  · split
    · rfl
    · split
      · exact State.parkHost_keeps h ..
      · split
        · rfl
        · refine (State.modRing_keeps (fun x l => h x l x.trace) ..).trans ?_
          exact congrArg (fun x => g (tabGet x .reset k)) ((State.flushRead_kept ..).rest .benches rfl)

theorem State.endDependents_keeps (s : State) (b : Nat) (src : PaceSource) (k : Nat) : g ((s.endDependents b src).bench k) = g (s.bench k) := by
  rw [State.endDependents]
  refine List.foldlRecOn (motive := fun t => g (State.bench t k) = g (s.bench k)) _ _ rfl fun t ht e _ => ?_
  refine List.foldlRecOn (motive := fun t => g (State.bench t k) = g (s.bench k)) _ _ ht fun t ht d _ => ?_
  refine (State.tryFlush_keeps h ..).trans (Eq.trans ?_ ht)
  cases hd : t.desc b e.1 d.count with
  | none => rw [State.endDesc, hd]
  | some d' =>
    by_cases hs : d'.status = none
    · exact State.endDesc_keeps hd hs _ _ _ (fun x l => h x l x.trace) k
    · rw [State.endDesc, hd]
      exact congrArg (fun t => g (State.bench t k)) (if_pos (Option.isSome_iff_ne_none.mpr hs))

end Bench

end Sys2Proof.Machine

/-! ## Event lines and pace timers (O39; 08 R244–R248; 22 R599, R600) -/

namespace Sys2Proof.Machine

/-! ### What the write of a register leaves before its effect -/

theorem State.event_congr {s t : State} (h : t.events = s.events) (n : Nat) : t.event n = s.event n := by
  rw [State.event, h]
  rfl
theorem State.paceTimer_congr {s t : State} (h : t.paceTimers = s.paceTimers) (x : Bool) (n : Nat) : t.paceTimer x n = s.paceTimer x n := by
  rw [State.paceTimer, h]
  rfl
theorem State.paceSlot_congr {s t : State} {b : Nat} (h : (t.bench b).paceSlots = (s.bench b).paceSlots) (k : Nat) :
    t.paceSlot b k = s.paceSlot b k := by
  rw [State.paceSlot, h]
  rfl

@[simp] theorem State.unstage_events (s : State) (b : Nat) : (s.unstage b).events = s.events := (s.unstage_kept b).rest .events rfl
@[simp] theorem State.unstage_paceTimers (s : State) (b : Nat) : (s.unstage b).paceTimers = s.paceTimers := (s.unstage_kept b).rest .paceTimers rfl
@[simp] theorem State.unstage_event (s : State) (b n : Nat) : (s.unstage b).event n = s.event n := State.event_congr (s.unstage_events b) n
@[simp] theorem State.unstage_paceTimer (s : State) (b : Nat) (x : Bool) (n : Nat) : (s.unstage b).paceTimer x n = s.paceTimer x n :=
  State.paceTimer_congr (s.unstage_paceTimers b) x n
@[simp] theorem State.unstage_paceSlot (s : State) (b c k : Nat) : (s.unstage b).paceSlot c k = s.paceSlot c k :=
  State.paceSlot_congr (State.unstage_keeps (g := Bench.paceSlots) (fun _ _ => rfl) s b c) k
@[simp] theorem State.unstage_counters (s : State) (b c : Nat) : ((s.unstage b).bench c).counters = (s.bench c).counters :=
  State.unstage_keeps (fun _ _ => rfl) s b c
@[simp] theorem State.unstage_linesHeld (s : State) (b c : Nat) : (s.unstage b).linesHeld c = s.linesHeld c := by
  rw [State.linesHeld, s.unstage_events b]
  rfl
@[simp] theorem State.unstage_clusterPresent (s : State) (b : Nat) (x : Bool) : (s.unstage b).clusterPresent x = s.clusterPresent x :=
  congrArg (fun c : Chip => c.grade == .ax5216 || !x) ((s.unstage_kept b).rest .chip rfl)
@[simp] theorem State.unstage_now (s : State) (b : Nat) : (s.unstage b).now = s.now :=
  congrArg Hearth.time ((s.unstage_kept b).rest .hearth rfl)

/-! ### Lines -/

section Line

variable {s : State} {b n : Nat}

theorem State.claimLine_free (hfree : (s.event n).holder = none) (hroom : b = 0 ∨ s.linesHeld b < 16) : s.claimLine b n = s.takeLine b n := by
  rw [State.claimLine, hfree]
  exact if_neg (by omega)

theorem State.claimLine_own (hown : (s.event n).holder = some b) : s.claimLine b n = s := by
  rw [State.claimLine, hown]
  exact if_pos rfl

theorem State.claimLine_fails (h : ((s.event n).holder = none ∧ b ≠ 0 ∧ 16 ≤ s.linesHeld b) ∨ ∃ c, (s.event n).holder = some c ∧ c ≠ b) :
    s.claimLine b n = s.claimFail b := by
  obtain ⟨hfree, hb, hfull⟩ | ⟨c, hheld, hc⟩ := h
  · rw [State.claimLine, hfree]
    exact if_pos ⟨hb, hfull⟩
  · rw [State.claimLine, hheld]
    exact if_neg hc

theorem State.claimFail_counts (s : State) (b : Nat) :
    ((s.claimFail b).bench b).counters.claimFail = (s.bench b).counters.claimFail + 1 := by
  rw [State.claimFail, State.modBench_bench_same]

theorem State.takeLine_event (s : State) (b n : Nat) : (s.takeLine b n).event n = ⟨some b, false⟩ :=
  s.modEvent_event_same n fun _ => ⟨some b, false⟩

theorem State.takeLine_event_ne (s : State) (b : Nat) {n m : Nat} (h : m ≠ n) : (s.takeLine b n).event m = s.event m :=
  s.modEvent_event_ne (fun _ => ⟨some b, false⟩) h

theorem State.dropLine_event (s : State) (b n : Nat) : (s.dropLine b n).event n = EventLine.reset :=
  s.modEvent_event_same n fun _ => EventLine.reset

theorem State.dropLine_event_ne (s : State) (b : Nat) {n m : Nat} (h : m ≠ n) : (s.dropLine b n).event m = s.event m :=
  s.modEvent_event_ne (fun _ => EventLine.reset) h

theorem State.releaseLine_held (hown : (s.event n).holder = some b) :
    s.releaseLine b n = (s.dropLine b n).endDependents b (.line n) := if_pos hown

theorem State.releaseLine_fails (hown : (s.event n).holder ≠ some b) : s.releaseLine b n = s.claimFail b := if_neg hown

theorem State.endDependents_event (s : State) (b : Nat) (src : PaceSource) (m : Nat) : (s.endDependents b src).event m = s.event m :=
  State.event_congr ((s.endDependents_kept b src).rest .events rfl) m

end Line

/-! ### Pace timers -/

section Timer

variable {s : State} {b k : Nat}

@[simp] theorem State.modPaceSlot_paceSlot_same (s : State) (b k : Nat) (f : PaceSlot → PaceSlot) :
    (s.modPaceSlot b k f).paceSlot b k = f (s.paceSlot b k) := by
  rw [State.paceSlot, State.modPaceSlot, State.modBench_bench_same]
  exact tabGet_tabMod_same ..

@[simp] theorem State.modPaceTimer_paceSlot (s : State) (x : Bool) (n : Nat) (f : PaceTimer → PaceTimer) (b k : Nat) :
    (s.modPaceTimer x n f).paceSlot b k = s.paceSlot b k := rfl

theorem State.modPaceSlot_paceTimer (s : State) (b k : Nat) (f : PaceSlot → PaceSlot) (x : Bool) (n : Nat) :
    (s.modPaceSlot b k f).paceTimer x n = s.paceTimer x n := rfl
theorem State.addTally_paceTimer (s : State) (kind b unit n : Nat) (x : Bool) (k : Nat) : (s.addTally kind b unit n).paceTimer x k = s.paceTimer x k := rfl
theorem State.endTally_paceTimer (s : State) (kind b n : Nat) (x : Bool) (k : Nat) : (s.endTally kind b n).paceTimer x k = s.paceTimer x k := rfl

/-- A change of a bench that leaves its pace slots. -/
theorem State.modBench_paceSlot {f : Bench → Bench} (h : ∀ x, (f x).paceSlots = x.paceSlots) (s : State) (b c k : Nat) :
    (s.modBench b f).paceSlot c k = s.paceSlot c k :=
  State.paceSlot_congr (State.modBench_keeps h s b c) k

/-- The slot names the timer before it is known whether the timer is free. -/
def State.pacedBy (s : State) (b k n : Nat) (x : Bool) : State :=
  s.modPaceSlot b k fun p => { p with timer := BitVec.ofNat 6 n, clusterB := x }

theorem State.claimPace_free {n : Nat} {x : Bool} (hclaim : (s.paceSlot b k).claim = false) (hx : s.clusterPresent x = true)
    (hfree : (s.paceTimer x n).holder = none) : s.claimPace b k n x =
    (((s.pacedBy b k n x).modPaceSlot b k fun p => { p with claim := true }).modPaceTimer x n fun _ => ⟨some b, k, false, 0, 0⟩).addTally
      0x0C b x.toNat (x.toNat * 64 + n) := by
  have hopen : ¬(¬(s.pacedBy b k n x).clusterPresent x = true ∨ ((s.pacedBy b k n x).paceTimer x n).holder.isSome = true) := by
    rintro (hn | hs)
    · exact hn hx
    · exact absurd (show (s.paceTimer x n).holder.isSome = true from hs) (by simp [hfree])
  rw [State.claimPace]
  simp only [hclaim]
  exact if_neg hopen

theorem State.claimPace_fails {n : Nat} {x : Bool} (hclaim : (s.paceSlot b k).claim = false)
    (h : s.clusterPresent x = false ∨ (s.paceTimer x n).holder.isSome = true) : s.claimPace b k n x = (s.pacedBy b k n x).claimFail b := by
  rw [State.claimPace]
  simp only [hclaim]
  exact if_pos (h.imp (fun hx => by rw [Bool.not_eq_true]; exact hx) id)

theorem State.dropTimer_claimed (hclaim : (s.paceSlot b k).claim = true) : s.dropTimer b k =
    ((s.modPaceTimer (s.paceSlot b k).clusterB (s.paceSlot b k).timer.toNat fun _ => PaceTimer.reset).modPaceSlot b k fun p =>
      { p with claim := false, arm := false }).endTally 0x0C b ((s.paceSlot b k).clusterB.toNat * 64 + (s.paceSlot b k).timer.toNat) :=
  if_neg (by simp [hclaim])

theorem State.releasePace_claimed (hclaim : (s.paceSlot b k).claim = true) : s.releasePace b k =
    (s.dropTimer b k).endDependents b (.timer (s.paceSlot b k).clusterB (s.paceSlot b k).timer.toNat) := if_pos hclaim

theorem State.endDependents_paceSlot (s : State) (b : Nat) (src : PaceSource) (c k : Nat) :
    (s.endDependents b src).paceSlot c k = s.paceSlot c k :=
  State.paceSlot_congr (State.endDependents_keeps (g := Bench.paceSlots) (fun _ _ _ => rfl) s b src c) k

theorem State.endDependents_paceTimer (s : State) (b : Nat) (src : PaceSource) (x : Bool) (n : Nat) :
    (s.endDependents b src).paceTimer x n = s.paceTimer x n :=
  State.paceTimer_congr ((s.endDependents_kept b src).rest .paceTimers rfl) x n

theorem State.armPace_arms (hclaim : (s.paceSlot b k).claim = true) (harm : (s.paceSlot b k).arm = false)
    (hperiod : 10 ≤ (s.paceSlot b k).period.toNat) : s.armPace b k =
    ((s.modPaceSlot b k fun p => { p with arm := true }).modPaceTimer (s.paceSlot b k).clusterB (s.paceSlot b k).timer.toNat fun x =>
      { x with armed := true, expiries := 0, armedAt := s.now }).rouse (clusterDomain (s.paceSlot b k).clusterB) := by
  rw [State.armPace, if_neg (by simp [hclaim, hperiod]), if_neg (by simp [harm])]

theorem State.armPace_counts (h : (s.paceSlot b k).claim = false ∨ (s.paceSlot b k).period.toNat < 10) : s.armPace b k = s.countBench b :=
  if_pos (h.imp_left fun hc => by simp [hc])

theorem State.disarmPace_claimed (hclaim : (s.paceSlot b k).claim = true) : s.disarmPace b k =
    (s.modPaceSlot b k fun p => { p with arm := false }).modPaceTimer (s.paceSlot b k).clusterB (s.paceSlot b k).timer.toNat fun x =>
      { x with armed := false } :=
  if_neg (by simp [hclaim])

theorem State.rouse_paceSlot (s : State) (n b k : Nat) : (s.rouse n).paceSlot b k = s.paceSlot b k :=
  State.paceSlot_congr (congrArg (fun x => (tabGet x Bench.reset b).paceSlots) ((s.rouse_kept n).rest .benches rfl)) k

theorem State.rouse_paceTimer (s : State) (n : Nat) (x : Bool) (m : Nat) : (s.rouse n).paceTimer x m = s.paceTimer x m :=
  State.paceTimer_congr ((s.rouse_kept n).rest .paceTimers rfl) x m

end Timer

/-! ### The commands, in an attached bench in service -/

section Command

variable {s : State} {b : Nat} (hdec : s.decodes (s.bench b).port (s.bench b).fn = true) (hs : s.benchServes b = true)

include hdec hs

theorem exec_eventClaim_served (n : Nat) : exec (.eventClaim b n) s = .next ((s.unstage b).claimLine b n) :=
  congrArg Host.Outcome.next (State.served_write hdec hs _)
theorem exec_eventRelease_served (n : Nat) : exec (.eventRelease b n) s = .next ((s.unstage b).releaseLine b n) :=
  congrArg Host.Outcome.next (State.served_write hdec hs _)
theorem exec_paceClaim_served (k n : Nat) (x : Bool) : exec (.paceClaim b k n x) s = .next ((s.unstage b).claimPace b k n x) :=
  congrArg Host.Outcome.next (State.served_write hdec hs _)
theorem exec_paceRelease_served (k : Nat) : exec (.paceRelease b k) s = .next ((s.unstage b).releasePace b k) :=
  congrArg Host.Outcome.next (State.served_write hdec hs _)
theorem exec_paceArm_served (k : Nat) : exec (.paceArm b k) s = .next ((s.unstage b).armPace b k) :=
  congrArg Host.Outcome.next (State.served_write hdec hs _)
theorem exec_paceDisarm_served (k : Nat) : exec (.paceDisarm b k) s = .next ((s.unstage b).disarmPace b k) :=
  congrArg Host.Outcome.next (State.served_write hdec hs _)

end Command

/-- Settles O39: each write of a bench in service, by what it meets at the line or at the slot's timer. -/
theorem eventLinesAndPaceTimers : Obligations.EventLinesAndPaceTimers := by
  unfold Obligations.EventLinesAndPaceTimers
  refine ⟨?claim, ?claimFails, ?release, ?releaseFails, ?paceClaim, ?paceClaimFails, ?paceRelease, ?arm, ?armCounts, ?disarm, ?claimOwn⟩
  case claim =>
    intro s b n hdec hs hfree hroom
    refine ⟨_, exec_eventClaim_served hdec hs n, ?_⟩
    rw [State.claimLine_free (by simpa using hfree) (by simpa using hroom)]
    refine ⟨State.takeLine_event .., s.unstage_counters b b, fun m hm => ?_⟩
    rw [State.takeLine_event_ne _ _ hm, State.unstage_event]
  case claimFails =>
    intro s b n hdec hs hmeets
    refine ⟨_, exec_eventClaim_served hdec hs n, ?_⟩
    rw [State.claimLine_fails (by simpa using hmeets)]
    exact ⟨s.unstage_events b, by rw [State.claimFail_counts, State.unstage_counters]⟩
  case release =>
    intro s b n hdec hs hown
    refine ⟨_, exec_eventRelease_served hdec hs n, ?_⟩
    rw [State.releaseLine_held (by simpa using hown)]
    refine ⟨(State.endDependents_event ..).trans (State.dropLine_event ..), fun m hm => ?_⟩
    rw [State.endDependents_event, State.dropLine_event_ne _ _ hm, State.unstage_event]
  case releaseFails =>
    intro s b n hdec hs hown
    refine ⟨_, exec_eventRelease_served hdec hs n, ?_⟩
    rw [State.releaseLine_fails (by simpa using hown)]
    exact ⟨s.unstage_events b, by rw [State.claimFail_counts, State.unstage_counters]⟩
  case paceClaim =>
    intro s b k n x hdec hs hclaim hx hfree
    refine ⟨_, exec_paceClaim_served hdec hs k n x, ?_⟩
    rw [State.claimPace_free (by simpa using hclaim) (by simpa using hx) (by simpa using hfree)]
    rw [State.addTally_paceTimer, State.modPaceTimer_paceTimer_same]
    refine ⟨?_, rfl⟩
    refine (State.modPaceSlot_paceSlot_same ..).trans ?_
    rw [State.pacedBy, State.modPaceSlot_paceSlot_same, State.unstage_paceSlot]
  case paceClaimFails =>
    intro s b k n x hdec hs hclaim hmeets
    refine ⟨_, exec_paceClaim_served hdec hs k n x, ?_⟩
    rw [State.claimPace_fails (by simpa using hclaim) (by simpa using hmeets)]
    refine ⟨?_, ?_, s.unstage_paceTimers b⟩
    · rw [State.claimFail_counts, State.pacedBy, State.modPaceSlot, State.modBench_bench_same, State.unstage_counters]
    · rw [State.claimFail, State.modBench_paceSlot (by exact fun _ => rfl), State.pacedBy, State.modPaceSlot_paceSlot_same, State.unstage_paceSlot]
      exact hclaim
  case paceRelease =>
    intro s b k hdec hs hclaim
    have hclaim' : ((s.unstage b).paceSlot b k).claim = true := by simpa using hclaim
    refine ⟨_, exec_paceRelease_served hdec hs k, ?_⟩
    rw [State.releasePace_claimed hclaim', State.endDependents_paceSlot, State.endDependents_paceTimer, State.dropTimer_claimed hclaim']
    refine ⟨(State.modPaceSlot_paceSlot_same ..).trans ?_, ?_⟩
    · rw [State.modPaceTimer_paceSlot, State.unstage_paceSlot]
    · rw [State.endTally_paceTimer, State.modPaceSlot_paceTimer, State.unstage_paceSlot, State.modPaceTimer_paceTimer_same]
  case arm =>
    intro s b k hdec hs hclaim harm hperiod
    refine ⟨_, exec_paceArm_served hdec hs k, ?_⟩
    rw [State.armPace_arms (by simpa using hclaim) (by simpa using harm) (by simpa using hperiod), State.rouse_paceSlot, State.rouse_paceTimer,
      State.unstage_paceSlot, State.unstage_now, State.modPaceTimer_paceSlot, State.modPaceSlot_paceSlot_same, State.unstage_paceSlot,
      State.modPaceTimer_paceTimer_same, State.modPaceSlot_paceTimer, State.unstage_paceTimer]
    exact ⟨rfl, rfl⟩
  case armCounts =>
    intro s b k hdec hs hmeets
    refine ⟨_, exec_paceArm_served hdec hs k, ?_⟩
    rw [State.armPace_counts (by simpa using hmeets)]
    refine ⟨?_, s.unstage_paceTimers b, by rw [State.countBench_badAccess, State.unstage_counters]⟩
    rw [State.countBench, State.modBench_paceSlot (by exact fun _ => rfl), State.unstage_paceSlot]
  case disarm =>
    intro s b k hdec hs hclaim
    refine ⟨_, exec_paceDisarm_served hdec hs k, ?_⟩
    rw [State.disarmPace_claimed (by simpa using hclaim), State.modPaceTimer_paceSlot, State.modPaceSlot_paceSlot_same, State.unstage_paceSlot]
    exact ⟨rfl, congrArg PaceTimer.armed (State.modPaceTimer_paceTimer_same ..)⟩
  case claimOwn =>
    intro s b n hdec hs hown
    rw [exec_eventClaim_served hdec hs, State.claimLine_own (by simpa using hown)]

end Sys2Proof.Machine

/-! ## What the work of lathes leaves (08 R238–R243)

Bursts, slots, channels and stops at P change neither the halt of a lathe, nor the errors it remembers, nor its fence; neither a die's count of refused writes, nor the number of the error log's next entry. -/

namespace Sys2Proof.Machine

/-- The halt of a lathe, the errors it remembers and its fence. -/
abbrev Lathe.steady (x : Lathe) : Option Halt × List (BitVec 64) × Bool := (x.halt, x.unattributed, x.fenced)

/-- How every lathe stands, the refused writes of every die, and the number of the error log's next entry. -/
def State.steady (s : State) : (Nat → Option Halt × List (BitVec 64) × Bool) × (Nat → BitVec 32) × BitVec 32 :=
  (fun l => (s.lathe l).steady, fun d => (s.die d).writeErr, s.recovery.logSeq)

section Steady

variable {s t : State} (h : t.steady = s.steady)

include h

theorem State.lathe_of_steady (l : Nat) : (t.lathe l).steady = (s.lathe l).steady :=
  congrArg (fun x : (Nat → Option Halt × List (BitVec 64) × Bool) × (Nat → BitVec 32) × BitVec 32 => x.1 l) h
theorem State.halt_of_steady (l : Nat) : (t.lathe l).halt = (s.lathe l).halt := congrArg Prod.fst (State.lathe_of_steady h l)
theorem State.unattributed_of_steady (l : Nat) : (t.lathe l).unattributed = (s.lathe l).unattributed :=
  congrArg (fun x : Option Halt × List (BitVec 64) × Bool => x.2.1) (State.lathe_of_steady h l)
theorem State.fenced_of_steady (l : Nat) : (t.lathe l).fenced = (s.lathe l).fenced :=
  congrArg (fun x : Option Halt × List (BitVec 64) × Bool => x.2.2) (State.lathe_of_steady h l)
theorem State.writeErr_of_steady (d : Nat) : (t.die d).writeErr = (s.die d).writeErr :=
  congrArg (fun x : (Nat → Option Halt × List (BitVec 64) × Bool) × (Nat → BitVec 32) × BitVec 32 => x.2.1 d) h
theorem State.logSeq_of_steady : t.recovery.logSeq = s.recovery.logSeq :=
  congrArg (fun x : (Nat → Option Halt × List (BitVec 64) × Bool) × (Nat → BitVec 32) × BitVec 32 => x.2.2) h

end Steady

theorem State.steady_congr {s t : State} (hl : ∀ l, (t.lathe l).steady = (s.lathe l).steady)
    (hd : ∀ d, (t.die d).writeErr = (s.die d).writeErr) (hr : t.recovery.logSeq = s.recovery.logSeq) : t.steady = s.steady := by
  rw [State.steady, State.steady, funext hl, funext hd, hr]

/-- An operation that changes no lathe, no spindle port and nothing of recovery. -/
theorem Kept.steady {m : Nat} {s t : State} (h : Kept m s t) (hl : m.testBit 9 = false) (hd : m.testBit 15 = false)
    (hr : m.testBit 25 = false) : t.steady = s.steady :=
  State.steady_congr (fun l => congrArg (fun x => (tabGet x Lathe.reset l).steady) (h.rest .lathes hl))
    (fun d => congrArg (fun x => (tabGet x Spindle.reset d).writeErr) (h.rest .spindles hd)) (congrArg Recovery.logSeq (h.rest .recovery hr))

@[simp] theorem State.modLathe_steady {f : Lathe → Lathe} (h : ∀ x, (f x).steady = x.steady) (s : State) (l : Nat) :
    (s.modLathe l f).steady = s.steady := by
  refine State.steady_congr (fun m => ?_) (fun _ => rfl) rfl
  by_cases hm : m = l
  · subst hm; rw [State.modLathe_lathe_same, h]
  · rw [State.modLathe_lathe_ne _ _ hm]

@[simp] theorem State.modDie_steady {f : Spindle → Spindle} (h : ∀ x, (f x).writeErr = x.writeErr) (s : State) (d : Nat) :
    (s.modDie d f).steady = s.steady :=
  State.steady_congr (fun _ => rfl) (State.modDie_keeps h s d) rfl

@[simp] theorem State.foldl_steady {α : Type} {f : State → α → State} (h : ∀ s x, (f s x).steady = s.steady) (l : List α) (s : State) :
    (l.foldl f s).steady = s.steady :=
  List.foldlRecOn (motive := fun t => t.steady = s.steady) l f rfl fun t ht x _ => (h t x).trans ht
@[simp] theorem State.ite_steady {c : Prop} [Decidable c] (a b : State) :
    (if c then a else b).steady = if c then a.steady else b.steady :=
  apply_ite State.steady c a b

@[simp] theorem State.modRing_steady (s : State) (b r : Nat) (f : Ring → Ring) : (s.modRing b r f).steady = s.steady := rfl
@[simp] theorem State.modDesc_steady (s : State) (b r : Nat) (c : BitVec 32) (f : Desc → Desc) : (s.modDesc b r c f).steady = s.steady := rfl
@[simp] theorem State.endTally_steady (s : State) (k b n : Nat) : (s.endTally k b n).steady = s.steady := rfl
@[simp] theorem State.trace_steady (s : State) (b r e : Nat) (c : BitVec 32) (x : BitVec 64) (y : BitVec 32) :
    (s.trace b r e c x y).steady = s.steady :=
  (s.trace_kept ..).steady rfl rfl rfl
@[simp] theorem State.traceRing_steady (s : State) (b r e n : Nat) : (s.traceRing b r e n).steady = s.steady := s.trace_steady ..
@[simp] theorem State.flushRead_steady (s : State) (b : Nat) (w : TagOwner) (x : Bool) (a : Nat) : (s.flushRead b w x a).steady = s.steady :=
  (s.flushRead_kept ..).steady rfl rfl rfl
@[simp] theorem State.sendHub_steady (s : State) (h : Nat) (m : EnvanMsg) : (s.sendHub h m).steady = s.steady :=
  (s.sendHub_kept h m).steady rfl rfl rfl

/-! ### Channels, stops and outcomes -/

@[simp] theorem State.giveUp_steady (s : State) (b r n : Nat) : (s.giveUp b r n).steady = s.steady := by
  rw [State.giveUp]
  split
  · rfl
  · simp

@[simp] theorem State.freeReorder_steady (s : State) (l : List Burst) : (s.freeReorder l).steady = s.steady :=
  State.foldl_steady (fun s u => by simp) l s

@[simp] theorem State.chaffReads_steady (s : State) (b r : Nat) (c : BitVec 32) : (s.chaffReads b r c).steady = s.steady := by
  refine State.steady_congr (fun l => ?_) (fun _ => rfl) rfl
  exact (congrArg Lathe.steady (tabGet_map (fun x : Lathe => { x with reads := x.reads.map fun u =>
    if u.bench == b && u.ring == r && u.desc == c then { u with chaff := true } else u }) s.lathes .reset l) :)

@[simp] theorem State.stopAtP_steady (s : State) (b r : Nat) (c : BitVec 32) : (s.stopAtP b r c).steady = s.steady := by
  rw [State.stopAtP]
  split
  · rfl
  · simp
@[simp] theorem State.stopRing_steady (s : State) (b r : Nat) : (s.stopRing b r).steady = s.steady := by
  simp [State.stopRing]
@[simp] theorem State.parkRing_steady (s : State) (b r : Nat) (c : ParkCause) : (s.parkRing b r c).steady = s.steady := by
  simp [State.parkRing]
@[simp] theorem State.parkHost_steady (s : State) (b r : Nat) : (s.parkHost b r).steady = s.steady := by
  simp [State.parkHost]
@[simp] theorem State.settleFault_steady (s : State) (b r : Nat) : (s.settleFault b r).steady = s.steady := by
  rw [State.settleFault]
  split <;> simp
@[simp] theorem State.endDesc_steady (s : State) (b r : Nat) (c : BitVec 32) (k dt o : Nat) (v : BitVec 64) :
    (s.endDesc b r c k dt o v).steady = s.steady := by
  rw [State.endDesc]
  split
  · rfl
  · simp
@[simp] theorem State.takeRead_steady (s : State) (l : Nat) (u : SlotUse) : (s.takeRead l u).steady = s.steady :=
  State.modLathe_steady (by exact fun _ => rfl) s l
@[simp] theorem State.tryFlush_steady (s : State) (b r : Nat) (c : BitVec 32) : (s.tryFlush b r c).steady = s.steady := by
  rw [State.tryFlush]
  split
  · rfl
  · split
    · rfl
    · split
      · exact s.parkHost_steady b r
      · split <;> simp
@[simp] theorem State.advance_steady (s : State) (b r : Nat) (c : BitVec 32) : (s.advance b r c).steady = s.steady := by
  rw [State.advance]
  split
  · rfl
  · dsimp only
    split <;> simp
@[simp] theorem State.advanceRing_steady (s : State) (b r : Nat) : (s.advanceRing b r).steady = s.steady := by
  simp [State.advanceRing]

/-! ### Requests to dies -/

@[simp] theorem State.sendDie_steady (s : State) (d : Nat) (m : DieMsg) : (s.sendDie d m).steady = s.steady := by
  rw [State.sendDie]
  split_ifs
  · exact State.modDie_steady (by exact fun _ => rfl) s d
  · exact (s.countPerf_kept ..).steady rfl rfl rfl
@[simp] theorem State.grantPort_steady (s : State) (d : Nat) (q : PortReq) (reserved : Bool) : (s.grantPort d q reserved).steady = s.steady := by
  rw [State.grantPort, State.sendDie_steady]
  split
  · rw [State.ite_steady, (State.charge_kept ..).steady rfl rfl rfl]
    simp
  · simp
@[simp] theorem State.pumpPort_steady (s : State) (d n : Nat) : (s.pumpPort d n).steady = s.steady := by
  induction n generalizing s with
  | zero => rfl
  | succ n ih =>
    have hnext : (s.nextPort d).2.steady = s.steady := (s.nextPort_kept d).steady rfl rfl rfl
    rw [State.pumpPort]
    split
    next heq => rwa [heq] at hnext
    next heq =>
      rw [heq] at hnext
      exact (ih _).trans ((State.grantPort_steady ..).trans hnext)
@[simp] theorem State.askDie_steady (s : State) (d : Nat) (b : Option Nat) (core : Bool) (m : DieMsg) : (s.askDie d b core m).steady = s.steady := by
  rw [State.askDie_eq, State.pumpPort_steady]
  exact State.modDie_steady (by exact fun _ => rfl) s d
@[simp] theorem State.portDone_steady (s : State) (k : PortKey) : (s.portDone k).steady = s.steady := by
  rw [State.portDone]
  split
  · rfl
  · dsimp only
    rw [State.pumpPort_steady]
    exact State.modDie_steady (by exact fun _ => rfl) s _

/-! ### Bursts -/

@[simp] theorem State.issueRead_steady (s : State) (b r : Nat) (d : Desc) (u : Burst) (q : ReadPiece) :
    (s.issueRead b r d u q).2.steady = s.steady := by
  rw [State.issueRead]
  split
  · rfl
  · dsimp only
    split
    · rfl
    · split
      · simp
      · simp
      · exact ((State.egressRead_kept ..).steady rfl rfl rfl).trans (s.takeRead_steady ..)
      · exact ((State.egressRead_kept ..).steady rfl rfl rfl).trans (s.takeRead_steady ..)
      · exact s.takeRead_steady ..
@[simp] theorem State.issueReads_steady (s : State) (b r : Nat) (d : Desc) (u : Burst) (l : List ReadPiece) :
    (s.issueReads b r d u l).2.steady = s.steady := by
  induction l generalizing s with
  | nil => rfl
  | cons q l ih => exact (ih _).trans (State.issueRead_steady ..)
@[simp] theorem State.issueWrite_steady (s : State) (b r : Nat) (d : Desc) (u : Burst) (o : Nat) (x : Dest) (data : List (Byte × Bool)) :
    (s.issueWrite b r d u o x data).2.steady = s.steady := by
  have htake (v : SlotUse) : (s.modLathe u.lathe fun x => { x with writes := x.writes ++ [v] }).steady = s.steady :=
    State.modLathe_steady (by exact fun _ => rfl) s _
  rw [State.issueWrite.eq_def]
  dsimp only
  split
  · split_ifs <;> rfl
  · exact (State.askDie_steady ..).trans (htake _)
  · exact (State.sendHub_steady ..).trans (htake _)
  all_goals split_ifs <;> rfl
@[simp] theorem State.issueWrites_steady (s : State) (b r : Nat) (d : Desc) (u : Burst) (l : List (Nat × Nat × Dest)) :
    (s.issueWrites b r d u l).2.steady = s.steady := by
  induction l generalizing s with
  | nil => rfl
  | cons x l ih => exact (ih _).trans (State.issueWrite_steady ..)
@[simp] theorem State.sendBurst_steady (s : State) (b r : Nat) (d : Desc) (u : Burst) : (s.sendBurst b r d u).2.steady = s.steady := by
  rw [State.sendBurst]
  split_ifs
  · exact State.issueWrites_steady ..
  · rfl
  · split
    · rfl
    · exact State.issueWrite_steady ..
@[simp] theorem State.writeBurst_steady (s : State) (b r : Nat) (c : BitVec 32) (n : Nat) : (s.writeBurst b r c n).steady = s.steady := by
  rw [State.writeBurst]
  split
  · rfl
  · split
    · rfl
    · simp
@[simp] theorem State.pumpBurst_steady (s : State) (b r : Nat) (c : BitVec 32) (n : Nat) : (s.pumpBurst b r c n).steady = s.steady := by
  rw [State.pumpBurst]
  split
  · rfl
  · split
    · rfl
    · simp
@[simp] theorem State.pumpLathe_steady (s : State) (l : Nat) : (s.pumpLathe l).steady = s.steady := by
  simp [State.pumpLathe, State.pumpOnce]

/-! ### Data and acknowledgements -/

@[simp] theorem State.failSlot_steady (s : State) (u : SlotUse) (code detail operand : Nat) (v : BitVec 64) :
    (s.failSlot u code detail operand v).steady = s.steady := by
  simp [State.failSlot]
@[simp] theorem State.slotFreed_steady (s : State) (l : Nat) (write : Bool) (n : Nat) : (s.slotFreed l write n).steady = s.steady := rfl
@[simp] theorem State.releaseCut_steady (s : State) (b r : Nat) : (s.releaseCut b r).steady = s.steady := by
  simp [State.releaseCut]
@[simp] theorem State.settleDrain_steady (s : State) (b r : Nat) : (s.settleDrain b r).steady = s.steady := by
  rw [State.settleDrain]
  split_ifs
  · rfl
  · refine State.foldl_steady (fun s e => ?_) _ s
    exact (State.foldl_steady (fun s q => s.endTally_steady ..) _ _).trans (State.modLathe_steady (by exact fun _ => rfl) s _)
@[simp] theorem State.ackWrite_steady (s : State) (l n : Nat) (x : MemStatus) : (s.ackWrite l n x).steady = s.steady := by
  rw [State.ackWrite]
  split
  · rfl
  · have hfree : (s.modLathe l fun x => { x with writes := x.writes.filter fun v => v.slot != n }).steady = s.steady :=
      State.modLathe_steady (by exact fun _ => rfl) s l
    simp [hfree]

/-! ### Replays -/

@[simp] theorem State.sendReplay_steady (s : State) (l : Nat) (i : ReplayItem) : (s.sendReplay l i).steady = s.steady := by
  rw [State.sendReplay]
  split
  · exact s.sendDie_steady ..
  · exact s.sendHub_steady ..
  · exact (s.readHost_kept ..).steady rfl rfl rfl
  · rfl

theorem State.replayNext_writeErr (s : State) (l d : Nat) : ((s.replayNext l).die d).writeErr = (s.die d).writeErr := by
  rw [State.replayNext]
  split
  · rfl
  · split
    · rfl
    · split_ifs
      · rfl
      · exact State.writeErr_of_steady (State.sendReplay_steady ..) d

end Sys2Proof.Machine

/-! ## Channels and bursts of a lathe (O38; 08 R231–R242) -/

namespace Sys2Proof.Machine

/-! ### Taking up a channel (08 R231, R232) -/

/-- A turn through a list of one names that one, wherever the turn begins. -/
theorem head?_filter_append_one {α : Type} (p : α → Bool) (a : α) : ([a].filter p ++ [a]).head? = some a := by
  cases h : p a <;> simp [h]

theorem State.arbitrate_one (s : State) (k b : Nat) : s.arbitrate k [b] = (some b, (s.arbitrate k [b]).2) := rfl

theorem State.takeChannel_ring (s : State) (b r l c : Nat) :
    (s.takeChannel b r l c).ring b r = { s.ring b r with channel := some (l, c), channelSince := s.now } := s.modRing_ring_same b r _

theorem State.takeChannel_lathe (s : State) (b r l c : Nat) : (s.takeChannel b r l c).lathe l =
    { s.lathe l with testing := false, channels := tabSet c (some (b, r)) (s.lathe l).channels } :=
  s.modLathe_lathe_same l fun x => { x with testing := false, channels := tabSet c (some (b, r)) x.channels }

/-- The one ring of the one bench that waits takes the channel that there is. -/
theorem exec_channelTakeup_takes {s : State} {b r l c : Nat} {x : Bool} (hd : s.domainWorks (clusterDomain x) = true) (hb : s.liveBenches = [b])
    (hgo : (s.bench b).goesOn = true) (hw : s.waitingRings b x = [r]) (hc : s.channelFor b x = some (l, c)) :
    ∃ (v : Tab (Tab Charge)) (f : Bench → Tab Nat), exec (.channelTakeup x) s = .next (({ s with charges := v }.modBench b fun y => { y with takenRing := f y }).takeChannel b r l c) := by
  have hbenches : (s.liveBenches.filter fun b => (s.bench b).goesOn && !(s.waitingRings b x).isEmpty && (s.channelFor b x).isSome) = [b] := by
    simp [hb, hgo, hw, hc]
  show ∃ v f, execChannelTakeup x s = .next _
  rw [execChannelTakeup, if_neg (by simp [hd])]
  dsimp only
  rw [hbenches, State.arbitrate_one]
  dsimp only
  rw [show (s.arbitrate (arbTake x) [b]).2.waitingRings b x = [r] from hw, head?_filter_append_one,
    show (s.arbitrate (arbTake x) [b]).2.channelFor b x = some (l, c) from hc]
  exact ⟨_, _, rfl⟩

/-! ### Granting and reserving (08 R237–R239) -/

theorem State.channelTurn_one (s : State) (l k b r : Nat) (c : BitVec 32) (u : Burst) :
    s.channelTurn l b [(k, b, r, c, u)] = some (k, b, r, c, u) := by
  rw [State.channelTurn]
  simp only [beq_self_eq_true, List.filter_cons_of_pos, List.filter_nil]
  exact head?_filter_append_one ..

theorem exec_burstGrant_grants {s : State} {l k b r : Nat} {c : BitVec 32} {u : Burst} (hh : (s.lathe l).halt = none)
    (hd : s.domainWorks (clusterDomain (decide (8 ≤ l))) = true) (he : (s.attendLathe l (s.lathe l).channels).1 = [(k, b, r, c, u)]) :
    exec (.burstGrant l) s =
      .next (((s.attendLathe l (s.lathe l).channels).2.arbitrate (arbLathe l) [b]).2.grantBurst l k b r c u) := by
  show execBurstGrant l s = _
  rw [execBurstGrant, if_neg (by simp [hh, hd])]
  dsimp only
  rw [he, show ([(k, b, r, c, u)].map fun x => x.2.1).dedup = [b] from rfl, State.arbitrate_one]
  dsimp only
  rw [State.channelTurn_one]

section Reserve

variable {s : State} {b r l k : Nat} (hc : (s.ring b r).channel = some (l, k))

theorem State.keptBack_some {d : Desc} {u : Burst} (h : s.keptBack b l d = some u) : d.issuing = true ∧ s.nextBurst b d l = .burst u ∧
    (s.lathe l).fits u = false ∧ ∃ w, d.roomWait = some w ∧ w.since.toNat + 8 ≤ s.now.toNat := by
  rw [State.keptBack] at h
  split at h
  · cases h
  next hwaits =>
    rw [not_or, not_not, not_not] at hwaits
    obtain ⟨hissuing, hroom⟩ := hwaits
    have hwait : ∃ w, d.roomWait = some w ∧ w.since.toNat + 8 ≤ s.now.toNat := by
      cases hw : d.roomWait with
      | none => simp [hw] at hroom
      | some w => exact ⟨w, rfl, by simpa [hw] using hroom⟩
    split at h
    next v hnext =>
      split_ifs at h with hfits
      obtain rfl := Option.some.inj h
      exact ⟨hissuing, hnext, by simpa using hfits, hwait⟩
    · cases h

include hc

theorem exec_reservationStart_reserves {u : Burst} (hn : (s.lathe l).reserved = none)
    (hu : (s.ring b r).descs.findSome? (s.keptBack b l) = some u) : exec (.reservationStart b r) s =
      .next (s.modLathe l fun x => { x with reserved := some ⟨b, r, u.reorder, min 64 u.reads.length, min 64 u.dst.length⟩ }) := by
  show execReservationStart b r s = _
  rw [execReservationStart, hc]
  dsimp only
  rw [hu]
  exact congrArg Host.Outcome.next (if_neg (by simp [hn]))

theorem exec_reservationStart_stays (h : (s.lathe l).reserved.isSome = true ∨ (s.ring b r).descs.findSome? (s.keptBack b l) = none) :
    exec (.reservationStart b r) s = .next s := by
  show execReservationStart b r s = _
  rw [execReservationStart, hc]
  dsimp only
  split
  · rfl
  next hu => exact congrArg Host.Outcome.next (if_pos (h.resolve_right (by simp [hu])))

end Reserve

/-! ### Read data (08 R241, R242; 17 R510) -/

section Read

variable {s : State} {l n : Nat} {u : SlotUse} (hhost : s.hostSlot l n = false) (hsent : s.unsent (.lathe l n false) = false)
  (hu : (s.lathe l).reads.find? (fun u => u.slot == n) = some u)

include hhost hsent hu

theorem exec_readDataReturn_clean (hd : u.die = none) (hh : u.hub = none) (hm : s.recovery.markIn (u.spa.toNat - ledgerBase) u.len = none)
    (data : List Byte) : exec (.readDataReturn l n .ok data) s = .next (s.deliver l n data) := by
  show execReadDataReturn l n .ok data s = _
  rw [execReadDataReturn, if_neg (by simp [hhost]), if_neg (by simp [hsent]), hu]
  dsimp only
  rw [hd, hh]
  simp [hm]

theorem exec_readDataReturn_marked {p : Nat} (hd : u.die = none) (hh : u.hub = none)
    (hm : s.recovery.markIn (u.spa.toNat - ledgerBase) u.len = some p) (data : List Byte) : exec (.readDataReturn l n .ok data) s =
      .next ((s.logLedgerUe (BitVec.ofNat 64 (ledgerBase + p))).failRead l n 0x22 4 fun _ => BitVec.ofNat 64 (ledgerBase + p)) := by
  show execReadDataReturn l n .ok data s = _
  rw [execReadDataReturn, if_neg (by simp [hhost]), if_neg (by simp [hsent]), hu]
  dsimp only
  rw [hd, hh]
  simp [hm]

/-- A die's data counts at its port; what it gives is the data or an error. -/
theorem exec_readDataReturn_die {d : Nat} (hd : u.die = some d) (hh : u.hub = none) (st : MemStatus) (data : List Byte) :
    exec (.readDataReturn l n st data) s = .next (if st = .ok then (s.countPerf (65 + 4 * d) data.length).deliver l n data
      else ((s.countPerf (65 + 4 * d) data.length).logLoad 0x22 (memDetail st) u.spa).failRead l n 0x22 (memDetail st) SlotUse.spa) := by
  show execReadDataReturn l n st data s = _
  rw [execReadDataReturn, if_neg (by simp [hhost]), if_neg (by simp [hsent]), hu]
  dsimp only
  rw [hd, hh]
  simp only [Option.map_some, Option.map_none, Option.getD_some, Option.getD_none, Option.isNone_some, Bool.false_eq_true, false_and, if_false]
  split_ifs <;> rfl

end Read

/-- A lathe with nothing admitted and no ring of its own has nothing to do. -/
theorem State.pumpLathe_idle {s : State} {l : Nat} (ha : s.admitted l = []) (hr : s.ringsOn l = []) : s.pumpLathe l = s := by
  have honce : s.pumpOnce l = s := by rw [State.pumpOnce, ha, List.foldl_nil, hr, List.foldl_nil]
  rw [State.pumpLathe, honce, honce]

/-- Both lists of a lathe's work are made of the rings of the benches. -/
theorem State.work_of_benches {s t : State} (h : t.benches = s.benches) (l : Nat) : t.admitted l = s.admitted l ∧ t.ringsOn l = s.ringsOn l := by
  rw [State.admitted, State.ringsOn, h]
  exact ⟨rfl, rfl⟩

theorem State.slotFreed_work (s : State) (l : Nat) (w : Bool) (n m : Nat) :
    (s.slotFreed l w n).admitted m = s.admitted m ∧ (s.slotFreed l w n).ringsOn m = s.ringsOn m := by
  rw [State.admitted, State.ringsOn, State.slotFreed]
  dsimp only
  rw [List.flatMap_map, List.flatMap_map]
  exact ⟨rfl, rfl⟩

theorem State.slotFreed_ring (s : State) (l : Nat) (w : Bool) (n b r : Nat) : (s.slotFreed l w n).ring b r = s.ring b r :=
  (congrArg (fun x : Bench => tabGet x.rings .reset r) (tabGet_map (fun x : Bench =>
    { x with invRing := { x.invRing with barrier := x.invRing.barrier.filter fun y => y != .slot l w n } }) s.benches .reset b) :)

/-- What is left of the state once a read slot is free. -/
def State.readFreed (s : State) (l n : Nat) : State :=
  ((s.modLathe l fun x => { x with reads := x.reads.filter fun v => v.slot != n }).slotFreed l false n).portDone (.lathe l n false)

theorem State.readFreed_benches (s : State) (l n : Nat) : (s.readFreed l n).benches =
    ((s.modLathe l fun x => { x with reads := x.reads.filter fun v => v.slot != n }).slotFreed l false n).benches :=
  (State.portDone_kept ..).rest .benches rfl

theorem State.readFreed_ring (s : State) (l n b r : Nat) : (s.readFreed l n).ring b r = s.ring b r :=
  (State.ring_congr (s.readFreed_benches l n) b r).trans (State.slotFreed_ring ..)

theorem State.readFreed_lathe (s : State) (l n : Nat) :
    (s.readFreed l n).lathe l = { s.lathe l with reads := (s.lathe l).reads.filter fun v => v.slot != n } := by
  rw [State.lathe, State.readFreed, (State.portDone_kept ..).rest .lathes rfl]
  exact s.modLathe_lathe_same l fun x => { x with reads := x.reads.filter fun v => v.slot != n }

/-- A discarded read frees its slot, and a lathe without work does no more. -/
theorem State.deliver_chaff {s : State} {l n : Nat} {u : SlotUse} (hu : (s.lathe l).reads.find? (fun u => u.slot == n) = some u)
    (hc : u.chaff = true) (ha : s.admitted l = []) (hr : s.ringsOn l = []) (data : List Byte) : s.deliver l n data = s.readFreed l n := by
  obtain ⟨hadmitted, hrings⟩ := State.work_of_benches (s.readFreed_benches l n) l
  obtain ⟨hadmitted', hrings'⟩ := (s.modLathe l fun x => { x with reads := x.reads.filter fun v => v.slot != n }).slotFreed_work l false n l
  rw [State.deliver, hu]
  dsimp only
  rw [if_pos hc]
  exact State.pumpLathe_idle ((hadmitted.trans hadmitted').trans ha) ((hrings.trans hrings').trans hr)

/-! ### Strays and acknowledgements (08 R250; 13 R380) -/

section Stray

variable {s : State} {l n : Nat} (hrun : s.running = true) (hl : l < s.nLathes)

include hrun hl

theorem exec_readDataReturn_stray (hhost : s.hostSlot l n = false) (hu : (s.lathe l).reads.find? (fun u => u.slot == n) = none)
    (st : MemStatus) (data : List Byte) : exec (.readDataReturn l n st data) s = .next (s.haltLathe l none) := by
  have hstray : s.strayResponse l = s.haltLathe l none := if_pos ⟨hrun, hl⟩
  show execReadDataReturn l n st data s = _
  rw [execReadDataReturn, if_neg (by simp [hhost]), hu, hstray, ite_self]

theorem exec_writeAck_stray (h16 : l ≠ 16) (hu : (s.lathe l).writes.find? (fun u => u.slot == n) = none) (st : MemStatus) :
    exec (.writeAck l n st) s = .next (s.haltLathe l none) := by
  have hstray : s.strayResponse l = s.haltLathe l none := if_pos ⟨hrun, hl⟩
  show execWriteAck l n st s = _
  rw [execWriteAck, if_neg h16, if_neg h16, if_neg h16, hu, hstray, ite_self]

end Stray

section Ack

variable {s : State} {l n : Nat} {u : SlotUse} (h16 : l ≠ 16) (hsent : s.unsent (.lathe l n true) = false)
  (hu : (s.lathe l).writes.find? (fun u => u.slot == n) = some u)

include h16 hsent hu

theorem exec_writeAck_ok : exec (.writeAck l n .ok) s = .next ((s.ackWrite l n .ok).replayNext l) := by
  show execWriteAck l n .ok s = _
  rw [execWriteAck, if_neg h16, if_neg (by simp [hsent]), if_neg h16, hu]
  dsimp only
  cases u.die <;> rfl

theorem exec_writeAck_refused {d : Nat} (hd : u.die = some d) : exec (.writeAck l n .writeRefused) s =
    .next (((s.modDie d fun x => { x with writeErr := x.writeErr + 1 }).ackWrite l n .writeRefused).replayNext l) := by
  show execWriteAck l n .writeRefused s = _
  rw [execWriteAck, if_neg h16, if_neg (by simp [hsent]), if_neg h16, hu]
  dsimp only
  rw [hd]

end Ack

theorem exec_writeAck_put {s : State} {n : Nat} (hsent : s.unsent (.put n) = false) (ht : s.isTrailer n = false) (st : MemStatus) :
    exec (.writeAck 16 n st) s = .next ((((s.portDone (.put n)).putAcked n st).frameAcked n).loadAcked n) := by
  show execWriteAck 16 n st s = _
  rw [execWriteAck, if_pos rfl, if_neg (by simp [hsent]), if_pos rfl, ht]
  rfl

/-- The one write of the hub under way is acknowledged: its function's accesses go on. -/
theorem State.putAcked_one {s : State} {q : Bar2Put} (hq : s.bar2Writes = [q]) :
    s.putAcked q.id .ok = { s with bar2Writes := [] }.serveQueue q.port q.fn := by
  rw [State.putAcked, hq, show [q].find? (fun p => p.id == q.id) = some q from List.find?_cons_of_pos (beq_self_eq_true q.id)]
  dsimp only
  rw [if_neg (by decide), hq, List.erase_cons_head]

/-! ### Triggers, expiries, yields (07 R223; 08 R235, R248) -/

section Trigger

variable {s : State} {b r : Nat} {d : Desc}

theorem exec_triggerFire_fires (h : (s.ring b r).descs.find? (fun d => d.phase == .trigger && trigOf d.bytes == 2 && s.mayStart b r d &&
    s.lineSet b (trigArgOf d.bytes)) = some d) : exec (.triggerFire b r) s = .next (s.fireDesc b r d.count) ∧ d.phase = .trigger := by
  refine ⟨?_, ?_⟩
  · show execTriggerFire b r s = _
    rw [execTriggerFire, h]
  · have hd := List.find?_some h
    simp only [Bool.and_eq_true, beq_iff_eq] at hd
    obtain ⟨⟨⟨hp, -⟩, -⟩, -⟩ := hd
    exact hp

theorem exec_triggerFire_stays (h : ∀ d ∈ (s.ring b r).descs, d.phase = .trigger → trigOf d.bytes = 2 → s.mayStart b r d = true →
    s.lineSet b (trigArgOf d.bytes) = false) : exec (.triggerFire b r) s = .next s := by
  have hnone : (s.ring b r).descs.find? (fun d => d.phase == .trigger && trigOf d.bytes == 2 && s.mayStart b r d &&
      s.lineSet b (trigArgOf d.bytes)) = none := by
    rw [List.find?_eq_none]
    intro d hd hall
    simp only [Bool.and_eq_true, beq_iff_eq] at hall
    obtain ⟨⟨⟨hp, htrig⟩, hstart⟩, hset⟩ := hall
    simp [h d hd hp htrig hstart] at hset
  show execTriggerFire b r s = _
  rw [execTriggerFire, hnone]

theorem State.fireDesc_desc {c : BitVec 32} (hd : s.desc b r c = some d) (hp : d.phase ≠ .fired) :
    (s.fireDesc b r c).desc b r c = some { d with phase := .fired, order := (s.bench b).nextOrder } := by
  rw [State.fireDesc, State.modDesc_desc (State.numberDesc_desc hd) (by exact fun _ => rfl), State.startOrder, if_neg hp]

theorem State.fireDesc_nextOrder {c : BitVec 32} (hd : s.desc b r c = some d) (hp : d.phase ≠ .fired) :
    ((s.fireDesc b r c).bench b).nextOrder = (s.bench b).nextOrder + 1 := by
  rw [State.fireDesc]
  refine (State.modRing_keeps (g := Bench.nextOrder) (fun _ _ => rfl) ..).trans ?_
  rw [State.numberDesc_nextOrder hd, if_neg hp]

end Trigger

section Expiry

variable {s : State} {x : Bool} {n : Nat}

theorem exec_paceTimerExpiry_due {b : Nat} (hd : s.domainWorks (clusterDomain x) = true) (hdue : s.paceDue x n = true)
    (hb : (s.paceTimer x n).holder = some b) : exec (.paceTimerExpiry x n) s =
      .next ((s.modPaceTimer x n fun y => { y with expiries := y.expiries + 1 }).firing b (.timer x n)) := by
  show execPaceTimerExpiry x n s = _
  rw [execPaceTimerExpiry, if_neg (by simp [hd, hdue]), hb]

theorem exec_paceTimerExpiry_early (hdue : s.paceDue x n = false) : exec (.paceTimerExpiry x n) s = .next s :=
  if_pos (.inr (by simp [hdue]))

end Expiry

section Yield

variable {s : State} {b r l k : Nat} (hc : (s.ring b r).channel = some (l, k))

include hc

theorem State.giveUp_channels (n : Nat) : tabGet ((s.giveUp b r n).lathe l).channels none k = none := by
  rw [State.giveUp, hc]
  dsimp only
  rw [State.lathe, (State.trace_kept ..).rest .lathes rfl]
  refine (congrArg (fun x : Lathe => tabGet x.channels none k) (s.modLathe_lathe_same l fun x => { x with
    channels := tabSet k none x.channels, reserved := x.reserved.filter fun q => !(q.bench == b && q.ring == r) })).trans ?_
  exact tabGet_tabSet_same ..

theorem exec_pacingYield_yields {d : Desc} {w : BitVec 64} (hd : (s.ring b r).descs = [d]) (hi : d.issuing = true) (hbursts : d.bursts = [])
    (hp : s.paceOpen b r d.bytes = false) (hw : d.paceWait = some w) (hdue : w.toNat + 10 ≤ s.now.toNat) :
    exec (.pacingYield b r) s = .next (s.giveUp b r 4) :=
  congrArg Host.Outcome.next (if_pos (by simp [hc, hd, hi, hbursts, hp, hw, hdue]))

end Yield

/-- Settles O38, row by row: each command by what it meets at the lathe, at the slot that a response names, or at the ring. -/
theorem channelsAndBursts : Obligations.ChannelsAndBursts := by
  unfold Obligations.ChannelsAndBursts
  refine ⟨?takeup, ?grant, ?halted, ?reserve, ?kept, ?unreserved, ?clean, ?marked, ?die, ?chaff, ?dieEcc, ?stray, ?ack, ?refused, ?put,
    ?trigger, ?untriggered, ?expiry, ?early, ?yields⟩
  case takeup =>
    intro s b r l c x hd hb hgo hw hc
    obtain ⟨v, f, he⟩ := exec_channelTakeup_takes hd hb hgo hw hc
    refine ⟨_, he, ?_, ?_, ?_, (State.takeChannel_kept ..).rest .out rfl⟩
    · rw [State.takeChannel_ring]
    · rw [State.takeChannel_ring]
      rfl
    · rw [State.takeChannel_lathe]
      exact tabGet_tabSet_same ..
  case grant =>
    intro s l k b r c u hh hd he
    exact exec_burstGrant_grants hh hd he
  case halted =>
    intro s l hh
    exact if_pos (.inl hh)
  case reserve =>
    intro s b r l k u hc hn hu
    refine ⟨_, exec_reservationStart_reserves hc hn hu, ?_, ?_, fun m hm => State.modLathe_lathe_ne _ _ hm⟩
    · rw [State.modLathe_lathe_same]
    · rw [State.modLathe_lathe_same]
  case kept =>
    intro s b l d u h
    exact State.keptBack_some h
  case unreserved =>
    intro s b r l k hc h
    exact exec_reservationStart_stays hc h
  case clean =>
    intro s l n u data hhost hsent hu hd hh hm
    exact exec_readDataReturn_clean hhost hsent hu hd hh hm data
  case marked =>
    intro s l n p u data hhost hsent hu hd hh hm
    exact exec_readDataReturn_marked hhost hsent hu hd hh hm data
  case die =>
    intro s l n d u data hhost hsent hu hd hh
    exact exec_readDataReturn_die hhost hsent hu hd hh .ok data
  case chaff =>
    intro s l n d u data hhost hsent hu hd hh hc ha hr
    have hcount := s.countPerf_kept (65 + 4 * d) data.length
    have hbenches := hcount.rest .benches rfl
    have hlathe : (s.countPerf (65 + 4 * d) data.length).lathe l = s.lathe l :=
      congrArg (tabGet · Lathe.reset l) (hcount.rest .lathes rfl)
    obtain ⟨hadmitted, hrings⟩ := State.work_of_benches hbenches l
    refine ⟨_, exec_readDataReturn_die hhost hsent hu hd hh .ok data, ?_⟩
    rw [if_pos rfl, State.deliver_chaff (hlathe ▸ hu) hc (hadmitted.trans ha) (hrings.trans hr), State.readFreed_lathe, hlathe]
    exact ⟨rfl, fun b r => (State.readFreed_ring ..).trans (State.ring_congr hbenches b r)⟩
  case dieEcc =>
    intro s l n d u hhost hsent hu hd hh
    exact exec_readDataReturn_die hhost hsent hu hd hh .dieEcc []
  case stray =>
    rintro s c l n st data (⟨rfl, hhost, hu⟩ | ⟨rfl, h16, hu⟩) hrun hl
    · exact exec_readDataReturn_stray hrun hl hhost hu st data
    · exact exec_writeAck_stray hrun hl h16 hu st
  case ack =>
    intro s l n u h16 hsent hu
    exact exec_writeAck_ok h16 hsent hu
  case refused =>
    intro s l n d u h16 hsent hu hd
    have herr (e : Nat) := State.writeErr_of_steady
      ((s.modDie d fun x => { x with writeErr := x.writeErr + 1 }).ackWrite_steady l n .writeRefused) e
    refine ⟨_, exec_writeAck_refused h16 hsent hu hd, ?_, fun e he => ?_⟩
    · rw [State.replayNext_writeErr, herr, State.modDie_die_same]
    · rw [State.replayNext_writeErr, herr, State.modDie_die_ne _ _ he]
  case put =>
    rintro s n q hsent ht hq rfl -
    have hwrites : (s.portDone (.put q.id)).bar2Writes = [q] := ((s.portDone_kept _).rest .bar2Writes rfl).trans hq
    refine ⟨_, exec_writeAck_put hsent ht .ok, ?_⟩
    rw [State.putAcked_one hwrites]
    exact ((State.loadAcked_kept ..).rest .bar2Writes rfl).trans ((State.frameAcked_kept ..).rest .bar2Writes rfl)
  case trigger =>
    intro s b r d hfind hd
    obtain ⟨he, hp⟩ := exec_triggerFire_fires hfind
    have hunfired : d.phase ≠ .fired := by rw [hp]; decide
    exact ⟨_, he, State.fireDesc_desc hd hunfired, State.fireDesc_nextOrder hd hunfired, (State.fireDesc_kept ..).rest .events rfl⟩
  case untriggered =>
    intro s b r h
    exact exec_triggerFire_stays h
  case expiry =>
    intro s x n b hd hdue hb
    refine ⟨_, exec_paceTimerExpiry_due hd hdue hb, ?_, (State.firing_kept ..).rest .events rfl⟩
    rw [State.paceTimer, (State.firing_kept ..).rest .paceTimers rfl]
    exact s.modPaceTimer_paceTimer_same x n _
  case early =>
    intro s x n hdue
    exact exec_paceTimerExpiry_early hdue
  case yields =>
    intro s b r l k d w hc hd hi hbursts hp hw hdue
    refine ⟨_, exec_pacingYield_yields hc hd hi hbursts hp hw hdue, ?_, State.giveUp_channels hc 4, ?_⟩
    · rw [State.giveUp_ring]
    · rw [State.giveUp_ring]
      exact hd

end Sys2Proof.Machine

/-! ## Halts of a lathe (O40; 08 R250–R258) -/

namespace Sys2Proof.Machine

/-! ### The replay -/

section Replay

variable {s : State} {l : Nat} {h : Halt} (hh : (s.lathe l).halt = some h)

include hh

theorem State.replayNext_sends {i : ReplayItem} {rest : List ReplayItem} (hr : h.replay = i :: rest) (hsent : h.sent = false) (hc : h.culprit = none)
    (hw : (s.lathe l).writes = []) :
    s.replayNext l = (s.modLathe l fun x => { x with halt := some { h with sent := true } }).sendReplay l i := by
  rw [State.replayNext, hh]
  dsimp only
  rw [hr]
  exact if_neg (by simp [hsent, hc, hw])

/-- The replay waits for the acknowledgement of every write of the lathe. -/
theorem State.replayNext_waits (hw : (s.lathe l).writes ≠ []) : s.replayNext l = s := by
  rw [State.replayNext, hh]
  dsimp only
  split
  · rfl
  · exact if_pos (.inr (.inl (by simpa using hw)))

theorem State.replayNext_ended (hr : h.replay = []) : s.replayNext l = s := by
  rw [State.replayNext, hh]
  dsimp only
  rw [hr]

/-- The next request of a replay changes neither the time nor the tag of the halt, nor what is reserved. -/
theorem State.replayNext_halt : ((s.replayNext l).lathe l).halt.map (fun h => (h.since, h.tag)) = some (h.since, h.tag) ∧
    ((s.replayNext l).lathe l).reserved = (s.lathe l).reserved := by
  rw [State.replayNext, hh]
  dsimp only
  split
  · exact ⟨by rw [hh]; rfl, rfl⟩
  · split_ifs
    · exact ⟨by rw [hh]; rfl, rfl⟩
    · rw [State.lathe, (State.sendReplay_kept ..).rest .lathes rfl, ← State.lathe, State.modLathe_lathe_same]
      exact ⟨rfl, rfl⟩

variable {i : ReplayItem} {rest : List ReplayItem} (hr : h.replay = i :: rest) (hsent : h.sent = true) (hc : h.culprit = none)

include hr hsent hc

theorem State.replayed_reproduces : s.replayed l true =
    s.modLathe l fun x => { x with halt := some { h with replay := [], sent := false, culprit := some i } } := by
  rw [State.replayed, hh]
  dsimp only
  rw [hr]
  refine (if_neg (by simp [hsent, hc])).trans (State.replayNext_ended (h := { h with replay := [], sent := false, culprit := some i }) ?_ rfl)
  rw [State.modLathe_lathe_same]
  rfl

theorem State.replayed_goesOn : s.replayed l false =
    (s.modLathe l fun x => { x with halt := some { h with replay := rest, sent := false } }).replayNext l := by
  rw [State.replayed, hh]
  dsimp only
  rw [hr]
  exact if_neg (by simp [hsent, hc])

end Replay

/-! ### The halt -/

/-- A bus error notes a halt of this moment with its tag, and ends the lathe's reservation; then the replay begins. -/
theorem State.haltLathe_notes (s : State) (l : Nat) (g : Option (BitVec 16)) : ∃ (u : State) (h : Halt) (f : Lathe → Lathe),
    s.haltLathe l g = (u.modLathe l f).replayNext l ∧ h.since = u.now ∧ h.tag = g ∧ ∀ x, (f x).halt = some h ∧ (f x).reserved = none :=
  ⟨_, _, _, rfl, rfl, rfl, fun _ => ⟨rfl, rfl⟩⟩

theorem State.haltLathe_halt (s : State) (l : Nat) (g : Option (BitVec 16)) :
    ((s.haltLathe l g).lathe l).halt.map (fun h => (h.since, h.tag)) = some (s.now, g) ∧ ((s.haltLathe l g).lathe l).reserved = none := by
  have hkept := s.haltLathe_kept l g
  obtain ⟨u, h, f, he, hsince, htag, hf⟩ := s.haltLathe_notes l g
  have hnow : u.now = s.now := by
    rw [he] at hkept
    exact congrArg Hearth.time ((((u.modLathe l f).replayNext_kept l).rest .hearth rfl).symm.trans (hkept.rest .hearth rfl))
  have hhalt : ((u.modLathe l f).lathe l).halt = some h := by rw [State.modLathe_lathe_same]; exact (hf _).1
  obtain ⟨hnext, hreserved⟩ := State.replayNext_halt hhalt
  rw [he, hnext, hreserved, State.modLathe_lathe_same, hsince, hnow, htag]
  exact ⟨rfl, (hf _).2⟩

theorem exec_latheBusError_halts {s : State} {l : Nat} (hrun : s.running = true) (hl : l < s.nLathes) (g : Option (BitVec 16)) :
    exec (.latheBusError l g) s = .next (s.haltLathe l g) :=
  congrArg Host.Outcome.next (if_pos ⟨hrun, hl⟩)

/-! ### The end of the isolation -/

/-- An error without a culprit is remembered with those of the last second. -/
def State.remembered (s : State) (l : Nat) : List (BitVec 64) :=
  s.now :: (s.lathe l).unattributed.filter fun t => decide (s.now.toNat < t.toNat + 1000000)

theorem State.logError_lathe (s : State) (cls code : Nat) (a b : BitVec 64) (l : Nat) : (s.logError cls code a b).lathe l = s.lathe l := by
  rw [State.lathe, (s.logError_kept ..).rest .lathes rfl]
  rfl

theorem State.logError_now (s : State) (cls code : Nat) (a b : BitVec 64) : (s.logError cls code a b).now = s.now :=
  congrArg Hearth.time ((s.logError_kept ..).rest .hearth rfl)

theorem State.logError_remembered (s : State) (cls code : Nat) (a b : BitVec 64) (l : Nat) :
    (s.logError cls code a b).remembered l = s.remembered l := by
  rw [State.remembered, State.logError_now, State.logError_lathe]
  rfl

/-- The error logged and remembered. -/
def State.noted (s : State) (l : Nat) : State :=
  let t := s.logError 0x5 1 (BitVec.ofNat 64 l) s.now
  t.modLathe l fun x => { x with unattributed := t.remembered l }

theorem State.noted_lathe (s : State) (l : Nat) : (s.noted l).lathe l = { s.lathe l with unattributed := s.remembered l } := by
  rw [State.noted, State.modLathe_lathe_same, State.logError_lathe, State.logError_remembered]

theorem State.noted_logSeq (s : State) (l : Nat) : (s.noted l).recovery.logSeq = s.recovery.logSeq + 1 := (State.logEntry_recovery ..).1

theorem State.unattributedHalt_eq (s : State) (l : Nat) : s.unattributedHalt l =
    if 3 ≤ (s.remembered l).length ∧ ¬((s.noted l).lathe l).fenced then (s.noted l).fenceLathe l else s.noted l := by
  rw [← s.logError_remembered 0x5 1 (BitVec.ofNat 64 l) s.now l]
  rfl

theorem State.fenceLathe_fenced (s : State) (l : Nat) : ((s.fenceLathe l).lathe l).fenced = true := by
  have hfence : ((s.modLathe l fun x => { x with fenced := true }).lathe l).fenced = true := by rw [State.modLathe_lathe_same]
  rw [State.fenceLathe]
  split_ifs
  · rwa [State.lathe, (State.logCause_kept ..).rest .lathes rfl]
  · rwa [State.logError_lathe]

/-- The third error within a second finds its lathe fenced, or fences it. -/
theorem State.unattributedHalt_fenced {s : State} {l : Nat} (h : 3 ≤ (s.remembered l).length) : ((s.unattributedHalt l).lathe l).fenced = true := by
  rw [State.unattributedHalt_eq]
  split_ifs with hc
  · exact State.fenceLathe_fenced ..
  · simpa [h] using hc

theorem State.unattributedHalt_first {s : State} {l : Nat} (h : (s.remembered l).length < 3) : s.unattributedHalt l = s.noted l := by
  rw [State.unattributedHalt_eq]
  exact if_neg fun hc => absurd hc.1 (by omega)

section Isolation

variable {s : State} {l : Nat} {h : Halt} (hh : (s.lathe l).halt = some h) (hw : (s.lathe l).writes = []) (hr : h.replay = [])

/-- The lathe halted no longer. -/
def State.released (s : State) (l : Nat) : State := s.modLathe l fun x => { x with halt := none }

theorem State.released_lathe (s : State) (l : Nat) : (s.released l).lathe l = { s.lathe l with halt := none } := s.modLathe_lathe_same l _

theorem State.released_now (s : State) (l : Nat) : ((s.released l).pumpLathe l).now = s.now :=
  congrArg Hearth.time (((s.released l).pumpLathe_kept l).rest .hearth rfl)

include hh hw hr

theorem exec_haltIsolationDone_culprit {i : ReplayItem} (hc : h.culprit = some i) : exec (.haltIsolationDone l) s = .next
    (((h.halted.filter fun e => !(e.2.1 == i.bench && e.2.2 == i.ring)).foldl (fun s e => s.resumeInnocent l e h.since)
      (if h.halted.any fun e => e.2.1 == i.bench && e.2.2 == i.ring then (s.released l).endCulprit l i h.since else s.released l)).pumpLathe l) := by
  have hiso : (s.lathe l).isolated = true := by rw [Lathe.isolated, hh]; simp [hw, hr]
  show execHaltIsolationDone l s = _
  rw [execHaltIsolationDone, hh]
  dsimp only
  rw [if_neg (by simp [hiso]), hc]
  rfl

/-- No ring halted and no culprit named: the lathe goes on, and the error is remembered. -/
theorem exec_haltIsolationDone_none (hc : h.culprit = none) (hn : h.halted = []) :
    exec (.haltIsolationDone l) s = .next (((s.released l).pumpLathe l).unattributedHalt l) := by
  have hiso : (s.lathe l).isolated = true := by rw [Lathe.isolated, hh]; simp [hw, hr]
  show execHaltIsolationDone l s = _
  rw [execHaltIsolationDone, hh]
  dsimp only
  rw [if_neg (by simp [hiso]), hc, hn]
  rfl

end Isolation

theorem State.released_remembered (s : State) (l : Nat) : ((s.released l).pumpLathe l).remembered l = s.remembered l := by
  rw [State.remembered, State.released_now, State.unattributed_of_steady (State.pumpLathe_steady ..), State.released_lathe]
  rfl

/-- Settles O40: the halt, each answer to a replay, then the end of the isolation by its culprit. -/
theorem latheHalts : Obligations.LatheHalts := by
  unfold Obligations.LatheHalts
  refine ⟨?halts, ?reproduces, ?goesOn, ?sends, ?waits, ?unattributed, ?fences, ?culprit, ?swept⟩
  case halts =>
    intro s l g hrun hl
    obtain ⟨hhalt, hreserved⟩ := s.haltLathe_halt l g
    exact ⟨_, exec_latheBusError_halts hrun hl g, hhalt, hreserved, (s.haltLathe_kept l g).rest .headstock rfl⟩
  case reproduces =>
    intro s l h i rest hh hr hsent hc
    exact congrArg Host.Outcome.next (State.replayed_reproduces hh hr hsent hc)
  case goesOn =>
    rintro s c l h i rest (rfl | rfl) hh hr hsent hc
    · exact congrArg Host.Outcome.next (State.replayed_goesOn hh hr hsent hc)
    · exact congrArg Host.Outcome.next (State.replayed_goesOn hh hr hsent hc)
  case sends =>
    intro s l h i rest hh hr hsent hc hw
    exact State.replayNext_sends hh hr hsent hc hw
  case waits =>
    intro s l h hh hw
    exact State.replayNext_waits hh hw
  case unattributed =>
    intro s l h hh hw hr hc hn hu
    have hmem : s.remembered l = [s.now] := by rw [State.remembered, hu]; rfl
    have hpump := (s.released l).pumpLathe_steady l
    refine ⟨_, exec_haltIsolationDone_none hh hw hr hc hn, ?_⟩
    rw [State.unattributedHalt_first (by simp [State.released_remembered, hmem]), State.noted_lathe, State.noted_logSeq]
    exact ⟨by rw [State.halt_of_steady hpump, State.released_lathe], (s.released_remembered l).trans hmem,
      by rw [State.fenced_of_steady hpump, State.released_lathe], congrArg (· + 1) (State.logSeq_of_steady (s := s.released l) hpump)⟩
  case fences =>
    intro s l h a b hh hw hr hc hn hu ha hb
    refine ⟨_, exec_haltIsolationDone_none hh hw hr hc hn, State.unattributedHalt_fenced ?_⟩
    rw [State.released_remembered, State.remembered, hu]
    simp [ha, hb]
  case culprit =>
    intro s l k h i hh hw hr hc hn
    rw [exec_haltIsolationDone_culprit hh hw hr hc, hn]
    simp [State.released]
  case swept =>
    intro s l h i hh hw hr hc hn
    rw [exec_haltIsolationDone_culprit hh hw hr hc, hn]
    rfl

end Sys2Proof.Machine

/-! ## Misses, walks, trackers, access counts (O25; 10 R283, R284, R311; 11 R331, R333; 17 R510; 18 R523) -/

namespace Sys2Proof.Machine

/-! ### The one miss that waits -/

/-- Mode D misses send no Translation Request. -/
theorem State.pumpAts_modeD {s : State} (h : ∀ m ∈ s.headstock.misses, m.modeD = true) : s.pumpAts = s := by
  have hnone : (s.headstock.misses.filter fun m => !m.modeD && m.stage == .slotted) = [] :=
    List.filter_eq_nil_iff.mpr fun m hm => by simp [h m hm]
  rw [State.pumpAts, hnone, List.foldl_nil]

/-- The arbiter names the one bench that waits and charges it; its miss moves on to the stage. -/
def State.missGranted (s : State) (k : Nat) (m : Miss) (stage : MissStage) : State :=
  let u := (s.arbitrate k [m.bench]).2.charge k m.bench 1 (s.qosOf m.bench).walkerWeight
  { u with headstock := { u.headstock with misses := u.headstock.misses.map fun n => if n = m then { m with stage := stage } else n } }

/-- How a walk ends for the Headstock: the outcome installed and the walk cache filled, or an uncorrectable error logged. -/
def State.walkEnded (s : State) (m : Miss) : Option (BitVec 64) → State
  | some spa => (s.endMiss m).logLedgerUe spa
  | none => ((s.endMiss m).installWalk m (m.page * 4096)).fillWalkCache m.bench (m.page * 4096)

section OneMiss

variable {s : State} {m : Miss} (hm : s.headstock.misses = [m])

include hm

theorem State.missGranted_headstock (k : Nat) (stage : MissStage) :
    (s.missGranted k m stage).headstock = { s.headstock with misses := [{ m with stage := stage }] } := by
  have hmap : (s.headstock.misses.map fun n => if n = m then { m with stage := stage } else n) = [{ m with stage := stage }] := by
    simp [hm]
  rw [← hmap]
  rfl

theorem exec_missSlotGrant_one (hq : m.stage = .queued) (hd : m.modeD = true) :
    exec .missSlotGrant s = .next ((s.missGranted arbMiss m .slotted).addTally 0x04 m.bench 0 m.page) := by
  have hopen : s.slotOpen m = true := by simp [State.slotOpen, State.missSlots, hm, hq]
  have hwait : ((s.headstock.misses.filter s.slotOpen).map Miss.bench).dedup = [m.bench] := by simp [hm, hopen]
  have hfind : ((s.arbitrate arbMiss [m.bench]).2.headstock.misses.find? fun n =>
      n.bench == m.bench && (s.arbitrate arbMiss [m.bench]).2.slotOpen n) = some m := by
    show (s.headstock.misses.find? fun n => n.bench == m.bench && s.slotOpen n) = _
    simp [hm, hopen]
  have hall : ∀ n ∈ (s.missGranted arbMiss m .slotted).headstock.misses, n.modeD = true := by
    rw [State.missGranted_headstock hm]
    simp [hd]
  rw [exec_missSlotGrant, execMissSlotGrant, hwait, State.arbitrate_one]
  dsimp only
  rw [hfind]
  exact congrArg Host.Outcome.next (State.pumpAts_modeD (s := (s.missGranted arbMiss m .slotted).addTally 0x04 m.bench 0 m.page) hall)

theorem exec_walkerGrant_one (hs : m.stage = .slotted) (hd : m.modeD = true) :
    exec .walkerGrant s = .next (((s.missGranted arbWalker m .walking).countPerf 130 1).addTally 0x05 m.bench 0 m.page) := by
  have hready : (s.headstock.misses.filter fun n => n.modeD && n.stage == .slotted) = [m] := by simp [hm, hs, hd]
  have hfree : ¬ 32 ≤ s.walkers := by simp [State.walkers, hm, hs]
  have hserved : (if ([m].filter fun n => !n.prefetchOnly).isEmpty then [m] else [m].filter fun n => !n.prefetchOnly) = [m] := by
    cases h : m.prefetchOnly <;> simp [h]
  rw [exec_walkerGrant, execWalkerGrant]
  dsimp only
  rw [if_neg hfree, hready, hserved]
  have hfind : ((s.arbitrate arbWalker ([m].map Miss.bench).dedup).1.bind fun b => [m].find? fun n => n.bench == b) = some m := by
    show ((some m.bench).bind fun b => [m].find? fun n => n.bench == b) = _
    simp
  rw [hfind]
  rfl

theorem exec_walkDone_current (hw : m.stage = .walking) (hd : m.modeD = true) (hs : m.stale = false) (hn : m.waiters = [])
    (ue : Option (BitVec 64)) : exec (.walkDone m.bench m.page ue) s = .next (s.walkEnded m ue).pumpInvAcks := by
  have hfind : (s.headstock.misses.find? fun n => n.bench == m.bench && n.modeD && n.page == m.page && n.stage == .walking) = some m := by
    simp [hm, hd, hw]
  rw [exec_walkDone, execWalkDone, hfind]
  dsimp only
  rw [if_neg (by simp [hs]), hn]
  cases ue <;> rfl

end OneMiss

theorem State.endMiss_headstock (s : State) (m : Miss) : (s.endMiss m).headstock = { s.headstock with misses := s.headstock.misses.erase m } := by
  rw [State.endMiss]
  dsimp only
  split_ifs <;> rfl

theorem State.endMiss_logSeq (s : State) (m : Miss) : (s.endMiss m).recovery.logSeq = s.recovery.logSeq := by
  rw [State.endMiss]
  dsimp only
  split_ifs <;> rfl

/-! ### Access counts (11 R331, R333) -/

@[simp] theorem tabGet_tabPut_same {α : Type} [DecidableEq α] (t : Tab α) (d v : α) (k : Nat) : tabGet (tabPut d k v t) d k = v := by
  rw [tabPut]
  split_ifs with h
  · rw [h, tabGet_tabDel_same]
  · exact tabGet_tabSet_same ..

theorem State.setRegion_region_same (s : State) (b n : Nat) (r : Region) : (s.setRegion b n (some r)).region b n = some r := by
  rw [State.region, State.setRegion, State.modBench_bench_same]
  rw [tabGet_tabPut_same]

/-- A count below the threshold makes no crossing. -/
theorem State.applyCount_below {s : State} {b n : Nat} {r : Region} (hr : s.region b n = some r)
    (hlow : r.count + 1 < s.hotThreshold b) (hmax : r.count < 0xFFFFFFFF) :
    s.applyCount b n = s.setRegion b n (some { r with count := r.count + 1 }) := by
  have hmake : s.makeRegion b n = (some r, s) := by rw [State.makeRegion, hr]
  have hmin : min (r.count + 1) 0xFFFFFFFF = r.count + 1 := min_eq_left hmax
  have hcold : (r.armed && decide (s.hotThreshold b ≤ r.count + 1)) = false := by simp [hlow]
  rw [State.applyCount, hmake]
  dsimp only
  rw [hmin, hcold]
  simp

/-- The oldest queued count taken, the others left. -/
def State.countTaken (s : State) (l : List (Nat × Nat)) : State := { s with headstock := { s.headstock with counts := l } }

theorem exec_countUpdate_oldest {s : State} {b n : Nat} {l : List (Nat × Nat)} (hc : s.headstock.counts = (b, n) :: l)
    (hb : (s.bench b).state ≠ .vacant) : exec .countUpdate s = .next ((s.countTaken l).applyCount b n) := by
  rw [exec_countUpdate, execCountUpdate, hc]
  exact congrArg Host.Outcome.next (if_neg hb)

/-- The pass of a hearth second has begun. -/
def State.decayBegun (s : State) : State :=
  { s with headstock := { s.headstock with decaySecond := s.now.toNat / 1000000, decayStart := some s.now, decayFloor := false } }

/-- The records of a bench decayed, where its class counts accesses. -/
def State.decayBench (s : State) (b : Nat) : State :=
  if s.hotThreshold b = 0 then s
  else s.modBench b fun x => { x with regions := x.regions.map fun e => (e.1, e.2.map fun r => r.decay (s.hotThreshold b)) }

/-- The records of every live bench decayed. -/
def State.decayPass (s : State) : State := s.liveBenches.foldl State.decayBench s

/-- The pass over the one bench that counts accesses keeps PD8 busy and decays its records. -/
theorem exec_countDecay_one {s : State} {b : Nat} (hrun : s.running = true) (hsec : s.headstock.decaySecond < s.now.toNat / 1000000)
    (hlive : s.liveBenches = [b]) (hhot : s.hotThreshold b ≠ 0) :
    exec .countDecay s = .next ((s.decayBegun.stir 8).decayBench b) := by
  have hany : (s.decayBegun.liveBenches.any fun c => s.decayBegun.hotThreshold c != 0) = true := by
    rw [show s.decayBegun.liveBenches = [b] from hlive, List.any_cons, show s.decayBegun.hotThreshold b = s.hotThreshold b from rfl]
    simp [hhot]
  have hpass : exec .countDecay s = .next (if s.decayBegun.liveBenches.any fun c => s.decayBegun.hotThreshold c != 0 then
      s.decayBegun.stir 8 else s.decayBegun).decayPass := if_neg (by simp [hrun, hsec])
  rw [hpass, if_pos hany, State.decayPass, show (s.decayBegun.stir 8).liveBenches = [b] from hlive]
  rfl

/-- Settles O25: the stages of the one miss, the end of its walk, then trackers, counts and their decay. -/
theorem missesAndWalks : Obligations.MissesAndWalks := by
  unfold Obligations.MissesAndWalks
  refine ⟨?slot, ?walker, ?ledgerError, ?walked, ?trackers, ?oldest, ?counts, ?decay, ?overdue, ?early⟩
  case slot =>
    intro s m hm hq hd
    exact ⟨_, exec_missSlotGrant_one hm hq hd, State.missGranted_headstock hm .., rfl, rfl⟩
  case walker =>
    intro s m hm hs hd
    have hkept := (s.missGranted arbWalker m .walking).countPerf_kept 130 1
    exact ⟨_, exec_walkerGrant_one hm hs hd, (hkept.rest .headstock rfl).trans (State.missGranted_headstock hm ..),
      hkept.rest .benches rfl, hkept.rest .out rfl⟩
  case ledgerError =>
    intro s m a hm hw hd hs hn
    have hacks := (s.walkEnded m (some a)).pumpInvAcks_kept
    have hlog := (s.endMiss m).logLedgerUe_kept a
    have hhead := (hacks.rest .headstock rfl).trans ((hlog.rest .headstock rfl).trans (s.endMiss_headstock m))
    refine ⟨_, exec_walkDone_current hm hw hd hs hn (some a), ?_, ?_, ?_⟩
    · rw [hhead, hm]
      simp
    · rw [hhead]
    · rw [hacks.rest .recovery rfl, State.walkEnded, State.logLedgerUe, State.logError, (State.logEntry_recovery ..).1, State.endMiss_logSeq]
  case walked =>
    intro s m hm hw hd hs hn
    exact exec_walkDone_current hm hw hd hs hn none
  case trackers =>
    intro s b n
    exact ⟨_, rfl, rfl, rfl⟩
  case oldest =>
    intro s b n l hc hb
    exact exec_countUpdate_oldest hc hb
  case counts =>
    intro s b n l r hc hb hr hlow hmax
    refine ⟨_, exec_countUpdate_oldest hc hb, ?_⟩
    rw [State.applyCount_below (s := s.countTaken l) hr hlow hmax]
    exact ⟨rfl, State.setRegion_region_same ..⟩
  case decay =>
    intro s b hrun hsec hlive hhot
    refine ⟨_, exec_countDecay_one hrun hsec hlive hhot, ?_⟩
    rw [State.decayBench, if_neg (by exact hhot)]
    exact ⟨rfl, congrArg Bench.regions (State.modBench_bench_same ..), fun c hc => State.modBench_bench_ne _ _ hc⟩
  case overdue =>
    intro s d hstart hdue
    rw [exec_decayOverdue, execDecayOverdue, hstart]
    exact congrArg Host.Outcome.next (if_pos hdue)
  case early =>
    intro s d hstart hearly
    rw [exec_decayOverdue, execDecayOverdue, hstart]
    exact congrArg Host.Outcome.next (if_neg (by omega))

end Sys2Proof.Machine

/-! ## Writes of the management function to a bench's entry of BENCH_TABLE (O26, O51; 21 R581) -/

namespace Sys2Proof.Machine

theorem State.running_of_decodes {s : State} {p f : Nat} (h : s.decodes p f = true) : s.running = true := by
  simp only [State.decodes, Bool.and_eq_true] at h
  exact h.1.1.1

/-- Where the management function's memory is reached and bench 0 is attached, a write to the entry of a bench that is not VACANT takes effect. -/
theorem State.fromMgmt_tableServed {s : State} {b : Nat} (hdec : s.decodes s.mgmtFn.1 s.mgmtFn.2 = true)
    (ha : (s.bench 0).detached = false) (hb : b < s.nBenches) (hv : (s.bench b).state ≠ .vacant) (f : State → State) :
    (s.fromMgmt fun s => s.tableServed b f) = f s.unstageHub := by
  rw [State.fromMgmt_served hdec ha, State.tableServed, if_neg, if_neg (by exact hv)]
  exact not_or.mpr ⟨not_not_intro (State.running_of_decodes hdec), not_le.mpr hb⟩

@[simp] theorem State.unstageHub_at_bench (s : State) (b : Nat) : s.unstageHub.bench b = s.bench b := rfl
@[simp] theorem State.unstageHub_badAccess (s : State) : s.unstageHub.chip.badAccess = s.chip.badAccess := rfl

end Sys2Proof.Machine

/-! ## The peer window (O51; 10 R301; 12 R360–R364) -/

namespace Sys2Proof.Machine

@[simp] theorem State.modPeer_peer_same (s : State) (b : Nat) (f : Peer → Peer) : ((s.modPeer b f).bench b).peer = f (s.bench b).peer :=
  congrArg Bench.peer (s.modBench_bench_same b _)

theorem State.modPeer_bench_ne (s : State) {b c : Nat} (f : Peer → Peer) (h : c ≠ b) : (s.modPeer b f).bench c = s.bench c :=
  s.modBench_bench_ne _ h

/-- A change of the peer context changes nothing else of any bench. -/
theorem State.modPeer_only (s : State) (b : Nat) (f : Peer → Peer) :
    ((s.modPeer b f).bench b).peer = f (s.bench b).peer ∧ ∀ c, c ≠ b → (s.modPeer b f).bench c = s.bench c :=
  ⟨s.modPeer_peer_same b f, fun _ hc => s.modPeer_bench_ne f hc⟩

/-! ### The oldest buffered write (12 R361, R363) -/

theorem State.countAccess_peer (s : State) (b a c : Nat) : ((s.countAccess b a).bench c).peer = (s.bench c).peer := by
  rw [State.countAccess]
  split_ifs
  · rfl
  · rfl
  · exact State.modBench_keeps (g := Bench.peer) (by exact fun _ => rfl) s b c

/-- While nothing waits outside the buffer, the oldest write leaves it and gives its bytes back to its port. -/
theorem State.popPeer_alone {s : State} {b o : Nat} {y : List (Byte × Bool)} {ro : Bool} {r : List (Nat × List (Byte × Bool) × Bool)}
    (hbuf : (s.bench b).peer.buffered = (o, y, ro) :: r) (hheld : s.hearth.withheld = []) :
    s.popPeer b = (s.modPeer b fun p => { p with buffered := r }).modPort (s.bench b).port fun q => { q with peerBytes := q.peerBytes - y.length } := by
  rw [State.popPeer, hbuf]
  dsimp only
  rw [State.modPort_hearth, show (s.modPeer b fun p => { p with buffered := r }).hearth = s.hearth from rfl, hheld, State.admitPeer]
  rw [State.modPort_hearth, show (s.modPeer b fun p => { p with buffered := r }).hearth = s.hearth from rfl, hheld, State.admitWithheld]
  exact State.withheld_none hheld

/-- A write is among those not yet acknowledged. -/
def State.listPut (s : State) (q : Bar2Put) : State := { s with bar2Writes := s.bar2Writes ++ [q] }

/-- A write of a function goes at once to a die that is UP with credits free. -/
theorem State.sendPut_free {s : State} {d a : Nat} {y : List (Byte × Bool)} (hup : (s.die d).state = .up) (hq : (s.die d).queue = [])
    (hroom : (s.die d).room false (DieMsg.blocks (.hubWrite none a y)) = true) (p f : Nat) (peer : Bool) :
    (s.sendPut p f d a peer y).out = s.out ++ [.die d (.hubWrite (some s.nextPut) a y)] ∧
      (s.sendPut p f d a peer y).bar2Writes = s.bar2Writes ++ [⟨s.nextPut, d, p, f, peer⟩] ∧
      (s.sendPut p f d a peer y).benches = s.benches := by
  have hkept := (s.listPut ⟨s.nextPut, d, p, f, peer⟩).askDie_kept d (s.benchOf p f) false (.hubWrite (some s.nextPut) a y)
  exact ⟨State.askDie_free_out (s := s.listPut ⟨s.nextPut, d, p, f, peer⟩) (m := .hubWrite (some s.nextPut) a y) hup hq hroom _,
    hkept.rest .bar2Writes rfl, hkept.rest .benches rfl⟩

/-- The oldest buffered write, its leaf used, goes from the buffer to the die of that leaf. -/
def State.peerSent (s : State) (b o d a : Nat) (y : List (Byte × Bool)) : State :=
  ((s.useEntry b true 0 (s.peerDva b o)).popPeer b).sendPut (s.bench b).port (s.bench b).fn d a true y

section Buffered

variable {s : State} {b o : Nat} {y : List (Byte × Bool)} {ro : Bool} {r : List (Nat × List (Byte × Bool) × Bool)}
  (hbuf : (s.bench b).peer.buffered = (o, y, ro) :: r)

include hbuf

theorem exec_peerWriteApply_oldest : exec (.peerWriteApply b) s = .next (s.applyPeer b (s.peerLeaf b o)) := by
  rw [exec_peerWriteApply, execPeerWriteApply, hbuf]

theorem State.applyPeer_refused (k : Nat) : s.applyPeer b (.refused k) = (s.popPeer b).peerDrop b k o y.length := by
  rw [State.applyPeer, hbuf]

theorem State.applyPeer_at (hs : s.streamAt b o = none) (d a : Nat) (x : Bool) : s.applyPeer b (.at d a x) =
    if s.putOpen (s.bench b).port (s.bench b).fn true = true ∧ ¬ ro = true then s
    else if x then (s.peerSent b o d a y).countAccess b ((s.peerSent b o d a y).peerDva b o) else s.peerSent b o d a y := by
  rw [State.applyPeer, hbuf]
  dsimp only
  rw [hs]
  rfl

/-- With its die UP and idle, the write is sent at once under its number; the buffer holds the later ones. -/
theorem State.peerSent_free {d a : Nat} (hheld : s.hearth.withheld = []) (hup : (s.die d).state = .up) (hq : (s.die d).queue = [])
    (hroom : (s.die d).room false (DieMsg.blocks (.hubWrite none a y)) = true) :
    (s.peerSent b o d a y).out = s.out ++ [.die d (.hubWrite (some s.nextPut) a y)] ∧
      (s.peerSent b o d a y).bar2Writes = s.bar2Writes ++ [⟨s.nextPut, d, (s.bench b).port, (s.bench b).fn, true⟩] ∧
      ((s.peerSent b o d a y).bench b).peer.buffered = r := by
  have hused := s.useEntry_kept b true 0 (s.peerDva b o)
  generalize hu : s.useEntry b true 0 (s.peerDva b o) = u at hused
  have hbench : u.bench b = s.bench b := congrArg (fun x : Tab Bench => tabGet x .reset b) (hused.rest .benches rfl)
  have hpop := State.popPeer_alone (s := u) (by rw [hbench]; exact hbuf) (by rw [hused.rest .hearth rfl]; exact hheld)
  have hdie : (u.popPeer b).die d = s.die d := by
    rw [hpop]
    exact congrArg (fun x : Tab Spindle => tabGet x .reset d) (hused.rest .spindles rfl)
  have hnext : (u.popPeer b).nextPut = s.nextPut := by
    rw [hpop]
    exact State.nextPut_congr (hused.rest .bar2Writes rfl) (hused.rest .spindles rfl)
  obtain ⟨hout, hput, hbenches⟩ := State.sendPut_free (s := u.popPeer b) (by rw [hdie]; exact hup) (by rw [hdie]; exact hq)
    (by rw [hdie]; exact hroom) (s.bench b).port (s.bench b).fn true
  rw [hnext, hpop] at hout hput
  rw [State.peerSent, hu]
  refine ⟨?_, ?_, ?_⟩
  · rw [hpop, hout, ← hused.rest .out rfl]; rfl
  · rw [hpop, hput, ← hused.rest .bar2Writes rfl]; rfl
  · rw [State.bench, hbenches, hpop]
    exact congrArg Peer.buffered (u.modPeer_peer_same b fun p => { p with buffered := r })

end Buffered

/-- Settles O51: the enable, the oldest buffered write by its leaf and by what is not acknowledged, the interval of the notices. -/
theorem peerWindow : Obligations.PeerWindow := by
  unfold Obligations.PeerWindow
  refine ⟨?opens, ?closes, ?applied, ?waits, ?dropped, ?notice1, ?notice2, ?ends⟩
  case opens =>
    intro s b hdec ha hb hv
    exact ⟨_, congrArg Host.Outcome.next (State.fromMgmt_tableServed hdec ha hb hv _), s.unstageHub.modPeer_only b _⟩
  case closes =>
    intro s b hdec ha hb hv
    exact ⟨_, congrArg Host.Outcome.next (State.fromMgmt_tableServed hdec ha hb hv _), s.unstageHub.modPeer_only b _⟩
  case applied =>
    intro s b o d a x ro y r hbuf hleaf hs hheld hturn hup hq hroom
    obtain ⟨hout, hput, hrest⟩ := State.peerSent_free hbuf hheld hup hq hroom
    refine ⟨_, exec_peerWriteApply_oldest hbuf, ?_⟩
    rw [hleaf, State.applyPeer_at hbuf hs, if_neg (by rcases hturn with h | h <;> simp [h])]
    have hcount := (s.peerSent b o d a y).countAccess_kept b ((s.peerSent b o d a y).peerDva b o)
    split_ifs
    · exact ⟨by rw [State.countAccess_peer, hrest], (hcount.rest .bar2Writes rfl).trans hput, (hcount.rest .out rfl).trans hout⟩
    · exact ⟨hrest, hput, hout⟩
  case waits =>
    intro s b o d a x y r hbuf hleaf hs hopen
    rw [exec_peerWriteApply_oldest hbuf, hleaf, State.applyPeer_at hbuf hs, if_pos ⟨hopen, Bool.false_ne_true⟩]
  case dropped =>
    intro s b o k ro y r hbuf hleaf
    rw [exec_peerWriteApply_oldest hbuf, hleaf, State.applyPeer_refused hbuf]
  case notice1 =>
    intro s b o n hd
    rw [exec_peerDroppedInterval, execPeerDroppedInterval, hd]
    rfl
  case notice2 =>
    intro s b o n hd
    rw [exec_peerDroppedInterval, execPeerDroppedInterval, hd]
    rfl
  case ends =>
    intro s b hd hi
    refine ⟨s.modPeer b fun p => { p with interval1 := false }, ?_, s.modPeer_only b _⟩
    rw [exec_peerDroppedInterval, execPeerDroppedInterval, hd]
    exact congrArg Host.Outcome.next (if_pos hi)

end Sys2Proof.Machine

/-! ## SET_ENTRY in a table copy (O26; 10 R290–R293, R304) -/

namespace Sys2Proof.Machine

theorem ModeD.page_spec {t : ModeD} {k id : Nat} {p : TablePage} (h : t.page k id = some p) : p.id = id ∧ p.level = k := by
  simpa using List.find?_some h

/-- An entry of a page of one number and level written; another page is as before. -/
def TablePage.write (id level i : Nat) (v : BitVec 64) (p : TablePage) : TablePage :=
  if p.id = id ∧ p.level = level then { p with entries := tabPut 0 i v p.entries } else p

theorem TablePage.write_id_level (id level i : Nat) (v : BitVec 64) (p : TablePage) :
    (p.write id level i v).id = p.id ∧ (p.write id level i v).level = p.level := by
  rw [TablePage.write]
  split_ifs <;> exact ⟨rfl, rfl⟩

section Put

variable {t : ModeD} {level dva id : Nat} (hpath : t.pathPage level dva = some id)

include hpath

theorem ModeD.put_page (v : BitVec 64) (k j : Nat) :
    (t.put level dva v).page k j = (t.page k j).map (TablePage.write id level (dva / 2 ^ levelShift level % 512) v) := by
  rw [ModeD.put, hpath, ModeD.page, List.find?_map, ModeD.page]
  congr 1
  exact congrArg (List.find? · t.pages) (funext fun p => by
    obtain ⟨hid, hlevel⟩ := p.write_id_level id level (dva / 2 ^ levelShift level % 512) v
    exact congrArg₂ (fun a b => a == j && b == k) hid hlevel)

/-- An entry written leaves the pages of every other level. -/
theorem ModeD.put_page_ne (v : BitVec 64) {k : Nat} (h : k ≠ level) (j : Nat) : (t.put level dva v).page k j = t.page k j := by
  rw [ModeD.put_page hpath]
  cases hp : t.page k j with
  | none => rfl
  | some p =>
    have hlevel := (ModeD.page_spec hp).2
    rw [Option.map_some, TablePage.write, if_neg (by omega)]

/-- The page on the path shows the entry written. -/
theorem ModeD.put_page_same (v : BitVec 64) {p : TablePage} (hp : t.page level id = some p) :
    ((t.put level dva v).page level id).map (TablePage.at · dva) = some v.toNat := by
  obtain ⟨hid, hlevel⟩ := ModeD.page_spec hp
  rw [ModeD.put_page hpath, hp, Option.map_some, Option.map_some, TablePage.write, if_pos ⟨hid, hlevel⟩, TablePage.at, hlevel, tabGet_tabPut_same]

end Put

theorem ModeD.put_root (t : ModeD) (level dva : Nat) (v : BitVec 64) : (t.put level dva v).root = t.root := by
  rw [ModeD.put]
  split <;> rfl

/-- The path down to a level is that of another table with the same root and the same pages above that level. -/
theorem ModeD.pathPage_congr {t u : ModeD} {level : Nat} (hroot : u.root = t.root) (hl : level ≤ 4)
    (hpage : ∀ k, level < k → ∀ id, u.page k id = t.page k id) (dva : Nat) : u.pathPage level dva = t.pathPage level dva := by
  have hbelow : ∀ d ≤ 4 - level, u.pageBelow dva d = t.pageBelow dva d := by
    intro d
    induction d with
    | zero => exact fun _ => hroot
    | succ d ih =>
      intro hd
      rw [ModeD.pageBelow, ModeD.pageBelow, ih (by omega)]
      simp only [hpage (4 - d) (by omega)]
  exact hbelow _ le_rfl

/-- An entry on a present path that leads to no new page reads back as it was set. -/
theorem ModeD.entry_setAt {t : ModeD} {level dva v : Nat} (hl : level ≤ 4) (hpath : ((t.pathPage level dva).bind (t.page level)).isSome = true)
    (hleaf : nonLeafAt level v = false) (hv : v < 2 ^ 64) : (t.setAt level dva v).entry level dva = v := by
  obtain ⟨p, hp⟩ := Option.isSome_iff_exists.mp hpath
  obtain ⟨id, hid, hp⟩ := Option.bind_eq_some_iff.mp hp
  have hset : t.setAt level dva v =
      { t.put level dva (BitVec.ofNat 64 v) with limbo := t.limbo ++ t.subtree level (t.entry level dva) } := by
    rw [ModeD.setAt]
    exact if_neg (by simp [hleaf])
  have hsame : (t.setAt level dva v).pathPage level dva = some id := by
    rw [← hid, hset]
    refine ModeD.pathPage_congr ?_ hl (fun k hk j => ?_) dva
    · exact t.put_root level dva (BitVec.ofNat 64 v)
    · exact ModeD.put_page_ne hid (BitVec.ofNat 64 v) (Nat.ne_of_gt hk) j
  have hat := ModeD.put_page_same hid (BitVec.ofNat 64 v) hp
  rw [ModeD.entry, hsame, Option.bind_some, hset]
  show (Option.map _ ((t.put level dva (BitVec.ofNat 64 v)).page level id)).getD 0 = v
  rw [hat, Option.getD_some, BitVec.toNat_ofNat, Nat.mod_eq_of_lt hv]

/-! ### The table copy of a bench (10 R304) -/

theorem State.modTable_tableOf_same {b : Nat} (hb : b < 256) (s : State) (f : ModeD → ModeD) : (s.modTable b f).tableOf b = f (s.tableOf b) := by
  rw [State.modTable, if_pos hb, State.tableOf, if_pos hb, State.tableOf, if_pos hb, State.modBench_bench_same]

/-- An entry that leads to no new page, on a present path, is set. -/
theorem State.setEntry_leaf {s : State} {b level dva v : Nat} (hpath : (s.tableOf b).pathTo level dva = true) (hleaf : nonLeafAt level v = false) :
    s.setEntry b level dva v = (0, s.modTable b fun t => t.setAt level dva v) := by
  have hgrows : decide (nonLeafAt level v = true ∧ entV v = true) = false := by simp [hleaf]
  rw [State.setEntry]
  dsimp only
  rw [hgrows, if_neg (by simp [hpath, hleaf]), if_neg (by simp)]
  rfl

end Sys2Proof.Machine

/-! ## The invalidation ring and other hubs' copies (O26; 10 R302–R308; 16 R457; 21 R571, R581) -/

namespace Sys2Proof.Machine

@[simp] theorem State.modInv_invRing_same (s : State) (b : Nat) (f : InvRing → InvRing) :
    ((s.modInv b f).bench b).invRing = f (s.bench b).invRing := congrArg Bench.invRing (s.modBench_bench_same b _)

theorem State.modInv_bench_ne (s : State) {b c : Nat} (f : InvRing → InvRing) (h : c ≠ b) : (s.modInv b f).bench c = s.bench c :=
  s.modBench_bench_ne _ h

theorem State.invNext_head (s : State) (b : Nat) : ((s.invNext b).bench b).invRing.head = (s.bench b).invRing.head + 1 :=
  congrArg InvRing.head (s.modInv_invRing_same b _)

/-! ### INV_CTRL, INV_DOORBELL, INV_RESUME (10 R303, R305; 21 R571, R581) -/

/-- The ring enabled with a size: counts and status afresh, the base kept. -/
def InvRing.enabled (x : InvRing) (l : BitVec 4) : InvRing :=
  { x with
    log2 := l, enable := true, head := 0, tail := 0, code := 0, stopped := false, tokenDone := false, pinFull := false, index := 0
    pinFullDva := 0, pinFailed := false, token := none, barrier := [], unacked := [] }

section Table

variable {s : State} {b : Nat} (hdec : s.decodes s.mgmtFn.1 s.mgmtFn.2 = true) (ha : (s.bench 0).detached = false)
  (hb : b < s.nBenches) (hv : (s.bench b).state ≠ .vacant)

include hdec ha hb hv

theorem exec_invRingEnable_sized {v : BitVec 32} (hoff : (s.bench b).invRing.enable = false) (hon : v.getLsbD 0 = true)
    (h4 : 4 ≤ (v.extractLsb' 16 4).toNat) (h12 : (v.extractLsb' 16 4).toNat ≤ 12) :
    ∃ t, exec (.invRingEnable b v) s = .next t ∧ (t.bench b).invRing = (s.bench b).invRing.enabled (v.extractLsb' 16 4) ∧
      ∀ c, c ≠ b → t.bench c = s.bench c := by
  refine ⟨_, congrArg Host.Outcome.next (State.fromMgmt_tableServed hdec ha hb hv _), ?_⟩
  dsimp only
  rw [State.unstageHub_at_bench, if_neg (by simp [hoff]), if_neg (by simp [hon]), if_neg (by omega)]
  refine ⟨?_, fun c hc => ?_⟩
  · rw [State.modInv_invRing_same, State.modInv_invRing_same]
    rfl
  · rw [State.modInv_bench_ne _ _ hc, State.modInv_bench_ne _ _ hc]
    rfl

/-- A tail published beyond the last one moves the ring's tail where it lies within the ring, and is counted where not. -/
theorem exec_invDoorbell_ahead {v : BitVec 32} (hon : (s.bench b).invRing.enable = true) (hahead : 0 < (v - (s.bench b).invRing.tail).toInt) :
    exec (.invDoorbell b v) s = .next (if (v - (s.bench b).invRing.head).toNat ≤ 2 ^ (s.bench b).invRing.log2.toNat then
      s.unstageHub.modInv b fun x => { x with tail := v } else s.unstageHub.countHub) := by
  refine congrArg Host.Outcome.next ((State.fromMgmt_tableServed hdec ha hb hv _).trans ?_)
  dsimp only
  rw [State.unstageHub_at_bench, if_neg (not_not_intro hon), if_neg (not_le.mpr hahead)]

theorem exec_invResume_stopped (hst : (s.bench b).invRing.stopped = true) :
    exec (.invResume b) s = .next (s.unstageHub.modInv b fun x => { x with stopped := false, code := 0, head := x.head + 1 }) := by
  refine congrArg Host.Outcome.next ((State.fromMgmt_tableServed hdec ha hb hv _).trans ?_)
  exact if_pos hst

end Table

/-! ### Entries read from host memory (10 R303–R306) -/

/-- Holders are those of the roster. -/
theorem State.holdersOf_congr {s t : State} (hc : t.cascade = s.cascade) (hh : t.chip = s.chip) (b : Nat) : t.holdersOf b = s.holdersOf b := by
  rw [State.holdersOf, State.holdersOf, State.hubId, State.hubId, hc, hh]

/-- The ring after a SET_ENTRY: past it, or stopped at it with its code. -/
def State.entryEnded (b : Nat) : Nat × State → State
  | (0, s) => s.invNext b
  | (c, s) => s.invStop b (BitVec.ofNat 4 c)

theorem State.entryEnded_eq (b : Nat) (r : Nat × State) :
    State.entryEnded b r = if r.1 = 0 then r.2.invNext b else r.2.invStop b (BitVec.ofNat 4 r.1) := by
  rcases r with ⟨_ | c, s⟩ <;> rfl

section Entries

variable {s : State} {b : Nat} {e : List Byte} (hreads : s.invReads b = true)

include hreads

theorem exec_setEntry_read (hmig : s.migHolds b (field e 8 8) 4096 = false) (hheld : s.structureHeld .table b = false)
    (hop : field e 0 1 = 1) (h1 : 1 ≤ field e 1 1) (h4 : field e 1 1 ≤ 4) (hz : zeroBytes e 3 5 = true) (hz' : zeroBytes e 24 8 = true)
    (hdva : invDvaOk e = true) (hhub : field e 2 1 = 255) :
    exec (.setEntry b e) s = .next (State.entryEnded b ((s.readInv b).setEntry b (field e 1 1) (field e 8 8) (field e 16 8))) := by
  rw [exec_setEntry, execSetEntry]
  dsimp only
  rw [if_neg (not_not_intro hreads), if_neg (by simp [hmig, hheld]), if_neg (by simp [hop, hz, hz', hdva]; omega), if_neg (by simp [hhub])]
  rcases (s.readInv b).setEntry b (field e 1 1) (field e 8 8) (field e 16 8) with ⟨_ | c, u⟩ <;> rfl

section Range

variable (hmig : s.migHolds b (field e 8 8) (field e 16 8) = false) (hz : zeroBytes e 1 7 = true) (hz' : zeroBytes e 24 8 = true)
  (hdva : invDvaOk e = true) (hlen : field e 16 8 % 4096 = 0) (hne : field e 16 8 ≠ 0) (hhold : s.holdersOf b = [])

include hmig hz hz' hdva hlen hne hhold

theorem exec_invalidate_read (hop : field e 0 1 = 2) :
    exec (.invalidate b e) s = .next (((s.readInv b).invalidateRange b (field e 8 8) (field e 16 8)).invNext b) := by
  have hkept := ((s.readInv b).invalidateRange_kept b (field e 8 8) (field e 16 8)).step (m := 0x120002020) rfl ((s.readInv_kept b).mono rfl)
  have hnone : ((s.readInv b).invalidateRange b (field e 8 8) (field e 16 8)).holdersOf b = [] :=
    (State.holdersOf_congr (hkept.rest .cascade rfl) (hkept.rest .chip rfl) b).trans hhold
  rw [exec_invalidate, execInvalidate]
  dsimp only
  rw [if_neg (not_not_intro hreads), if_neg (by simp [hmig]), if_neg (by simp [hop, hz, hz', hdva, hlen]), if_neg hne, hnone, List.foldl_nil]

theorem exec_pinLoad_read (hop : field e 0 1 = 3) :
    exec (.pinLoad b e) s = .next (((s.readInv b).pinRange b (field e 8 8) (field e 16 8)).invNext b) := by
  have hkept := ((s.readInv b).pinRange_kept b (field e 8 8) (field e 16 8)).step (m := 0x120002000) rfl ((s.readInv_kept b).mono rfl)
  have hnone : ((s.readInv b).pinRange b (field e 8 8) (field e 16 8)).holdersOf b = [] :=
    (State.holdersOf_congr (hkept.rest .cascade rfl) (hkept.rest .chip rfl) b).trans hhold
  rw [exec_pinLoad, execPinLoad]
  dsimp only
  rw [if_neg (not_not_intro hreads), if_neg (by simp [hmig]), if_neg (by simp [hop, hz, hz', hdva, hlen, hne]), hnone, List.foldl_nil]

end Range

theorem exec_token_read (hop : field e 0 1 = 4) (hz : zeroBytes e 1 7 = true) (hz' : zeroBytes e 24 8 = true)
    (ha : field e 8 8 % 4 = 0) (hv : field e 16 8 < 2 ^ 31) :
    exec (.token b e) s = .next ((((s.readInv b).retryFaults b fun _ => true).modInv b fun x =>
      { x with token := some (BitVec.ofNat 64 (field e 8 8), BitVec.ofNat 31 (field e 16 8)) }).invNext b) := by
  rw [exec_token, execToken]
  dsimp only
  rw [if_neg (not_not_intro hreads), if_neg]
  simp [hop, hz, hz', ha]
  omega

end Entries

/-- Loading pins asks for walks and leaves the cache. -/
theorem State.loadPins_cache (s : State) (b : Nat) (l : List (Nat × Nat)) : (s.loadPins b l).headstock.cache = s.headstock.cache :=
  List.foldlRecOn (motive := fun t : State => t.headstock.cache = s.headstock.cache) l _ rfl fun _ ht _ _ => (State.request_cache ..).trans ht

/-- INVALIDATE of a range takes the overlapping Mode D entries of the bench from the cache. -/
theorem State.invalidateRange_cache (s : State) (b base : Nat) {len : Nat} (h : len ≠ 0) : (s.invalidateRange b base len).headstock.cache =
    s.headstock.cache.filter fun x => !(x.bench == b && x.modeD && x.overlaps base len) := by
  rw [State.invalidateRange]
  dsimp only
  rw [if_neg h, State.loadPins_cache, (State.addBarrier_kept ..).rest .headstock rfl]
  rfl

theorem State.addBarrier_head (s : State) (b : Nat) (l : List InFlight) (c : Nat) :
    ((s.addBarrier b l).bench c).invRing.head = (s.bench c).invRing.head := by
  rw [State.addBarrier]
  split_ifs
  · exact State.modBench_keeps (g := fun x => x.invRing.head) (by exact fun _ => rfl) s b c
  · rfl

theorem State.invalidateRange_head (s : State) (b base len c : Nat) :
    ((s.invalidateRange b base len).bench c).invRing.head = (s.bench c).invRing.head := by
  rw [State.invalidateRange]
  dsimp only
  rw [State.bench, (State.loadPins_kept ..).rest .benches rfl]
  exact State.addBarrier_head ..

/-! ### TOKEN_COMPLETE (10 R304, R306) -/

theorem exec_tokenComplete_done {s : State} {b : Nat} {a : BitVec 64} {v : BitVec 31} (ht : (s.bench b).invRing.token = some (a, v))
    (hu : (s.bench b).invRing.unacked = []) (hbar : (s.bench b).invRing.barrier = []) (hw : s.tokenWalks b = false)
    (hmay : s.fnMayIssue s.mgmtFn.1 0 = true) : exec (.tokenComplete b) s =
      .next (((s.mgmtWrite a.toNat (leBytes 4 (v.toNat + if (s.bench b).invRing.pinFailed then 2 ^ 31 else 0))).returnPages b).modBench b fun y =>
        { y with
          tokenDone := true, lastToken := v
          invRing := { y.invRing with token := none, tokenDone := true, pinFailed := false, barrier := [] } }) := by
  rw [exec_tokenComplete, execTokenComplete]
  dsimp only
  rw [ht]
  dsimp only
  rw [if_neg (by simp [hu, hbar, hw, hmay])]

/-- The removed table pages of a bench return to the pool. -/
theorem State.returnPages_tablePages {b : Nat} (hb : b < 256) (s : State) :
    (s.returnPages b).headstock.tablePages = s.headstock.tablePages - (s.bench b).modeD.limbo.length := by
  rw [State.returnPages, State.modTable, if_pos hb, State.tableOf, if_pos hb]
  rfl

/-! ### Copies of other hubs (10 R308; 16 R457) -/

theorem State.guestSlot_one {s : State} {g : Nat} {x : Guest} (hg : s.cascade.guests = [(g, some x)]) : s.guestSlot x.home x.bench = some g := by
  rw [State.guestSlot, hg]
  simp

theorem State.guest_one {s : State} {g : Nat} {v : Option Guest} (hg : s.cascade.guests = [(g, v)]) : s.guest g = v := by
  rw [State.guest, hg, tabGet_cons, if_pos rfl]

theorem exec_xlateInvReceived_set {s : State} {h b g : Nat} {i : BitVec 16} {e : List Byte} (hs : s.guestSlot h b = some g)
    (hi : (s.guest g).map Guest.incarn = some i) (hop : field e 0 1 = 1) (n : BitVec 32) :
    exec (.xlateInvReceived h b i e n) s = .next (((s.setEntry (256 + g) (field e 1 1) (field e 8 8) (field e 16 8)).2.setGuest g
      (((s.setEntry (256 + g) (field e 1 1) (field e 8 8) (field e 16 8)).2.guest g).map fun x =>
        { x with unanswered := x.unanswered ++ [(n, [])] })).pumpInvAcks) := by
  rw [exec_xlateInvReceived, execXlateInvReceived, hs]
  dsimp only
  rw [if_neg (not_not_intro hi), hop]
  rfl

/-- The table copy of the one guest and the table pages taken, changed. -/
def State.guestTable (s : State) (g : Nat) (x : Guest) (t : ModeD) (n : Nat) : State :=
  { s with cascade := { s.cascade with guests := [(g, some { x with modeD := t })] }, headstock := { s.headstock with tablePages := n } }

/-- SET_ENTRY for the one guest changes its table copy, if anything, and the table pages taken. -/
theorem State.setEntry_oneGuest {s : State} {g : Nat} {x : Guest} (hg : s.cascade.guests = [(g, some x)]) (level dva v : Nat) :
    ∃ t n, (s.setEntry (256 + g) level dva v).2 = s.guestTable g x t n := by
  have hsame : s = s.guestTable g x x.modeD s.headstock.tablePages := by rw [State.guestTable, ← hg]
  rw [State.setEntry]
  dsimp only
  split_ifs
  · exact ⟨_, _, hsame⟩
  · exact ⟨_, _, hsame⟩
  · refine ⟨x.modeD.setAt level dva v, s.headstock.tablePages + (decide (nonLeafAt level v = true ∧ entV v = true)).toNat, ?_⟩
    rw [State.modTable, if_neg (by omega), Nat.add_sub_cancel_left, State.guest_one hg, State.setGuest, hg]
    simp [tabSet, State.guestTable]

theorem State.sendHub_cascade {s : State} {h : Nat} (hr : s.routed h = true) (m : EnvanMsg) : (s.sendHub h m).cascade = s.cascade := by
  rw [State.sendHub, if_neg (by simp [hr]), State.emit_cascade]
  split
  · exact (State.countPerf_kept ..).rest .cascade rfl
  · rfl

/-- With no walk under way, an entry that left nothing in flight is acknowledged to the home of the one guest. -/
theorem State.pumpInvAcks_one {s : State} {g : Nat} {x : Guest} {n : BitVec 32} (hg : s.cascade.guests = [(g, some x)])
    (hu : x.unanswered = [(n, [])]) (hm : s.headstock.misses = []) (hr : s.routed x.home = true) :
    s.pumpInvAcks.out = s.out ++ [.envan x.home (.xlateInvAck x.bench n)] ∧ s.pumpInvAcks.guest g = some { x with unanswered := [] } := by
  have hdone : s.guestSettled g [] = true := by simp [State.guestSettled, hm]
  have hsent : s.pumpInvAcks = (s.setGuest g (some { x with unanswered := [] })).sendHub x.home (.xlateInvAck x.bench n) := by
    rw [State.pumpInvAcks, hg, List.foldl_cons, List.foldl_nil, State.guest_one hg]
    dsimp only
    rw [hu]
    simp [hdone]
  have hroute : (s.setGuest g (some { x with unanswered := [] })).routed x.home = true := hr
  rw [hsent]
  refine ⟨State.sendHub_routed hroute _, ?_⟩
  rw [State.guest, State.sendHub_cascade hroute]
  exact State.setGuest_guest_same ..

/-- The guest with its table copy changed by an entry that is not yet acknowledged. -/
def Guest.applied (x : Guest) (t : ModeD) (n : BitVec 32) : Guest := { x with modeD := t, unanswered := [(n, [])] }

/-- With no walk under way, an entry that sets the one guest's table is acknowledged at once. -/
theorem exec_xlateInvReceived_acked {s : State} {g : Nat} {x : Guest} {e : List Byte} (hg : s.cascade.guests = [(g, some x)])
    (hu : x.unanswered = []) (hm : s.headstock.misses = []) (hr : s.routed x.home = true) (hop : field e 0 1 = 1) (n : BitVec 32) :
    ∃ t, exec (.xlateInvReceived x.home x.bench x.incarn e n) s = .next t ∧
      t.out = s.out ++ [.envan x.home (.xlateInvAck x.bench n)] ∧ (t.guest g).map Guest.unanswered = some [] := by
  obtain ⟨y, k, hset⟩ := State.setEntry_oneGuest hg (field e 1 1) (field e 8 8) (field e 16 8)
  have hguest : (s.guestTable g x y k).guest g = some { x with modeD := y } := State.guest_one rfl
  have hwaits : ((s.guestTable g x y k).setGuest g (some (x.applied y n))).cascade.guests = [(g, some (x.applied y n))] := by
    simp [State.setGuest, State.guestTable, tabSet]
  have hexec := exec_xlateInvReceived_set (State.guestSlot_one hg) (by rw [State.guest_one hg]; rfl) hop n
  rw [hset, hguest, Option.map_some, hu] at hexec
  obtain ⟨hout, hacked⟩ := State.pumpInvAcks_one hwaits rfl hm hr
  exact ⟨_, hexec, hout, congrArg (Option.map Guest.unanswered) hacked⟩

/-- Settles O26: the ring's registers, each entry as it is read, the token, then copies of other hubs and their acknowledgement. -/
theorem invalidationRing : Obligations.InvalidationRing := by
  unfold Obligations.InvalidationRing
  refine ⟨?enable, ?tail, ?badTail, ?entrySet, ?entryFails, ?readBack, ?invalidate, ?pinLoad, ?token, ?tokenComplete, ?resume,
    ?noGuest, ?guest, ?acked, ?ack⟩
  case enable =>
    intro s b v hdec ha hb hv hoff hon h4 h12
    obtain ⟨t, hexec, hring, hrest⟩ := exec_invRingEnable_sized hdec ha hb hv hoff hon h4 h12
    refine ⟨t, hexec, ?_⟩
    rw [hring]
    exact ⟨rfl, rfl, rfl, rfl, rfl, rfl, hrest⟩
  case tail =>
    intro s b v hdec ha hb hv hon hahead hfits
    refine ⟨_, exec_invDoorbell_ahead hdec ha hb hv hon hahead, ?_⟩
    rw [if_pos hfits]
    exact ⟨State.modInv_invRing_same .., rfl⟩
  case badTail =>
    intro s b v hdec ha hb hv hon hahead hfar
    refine ⟨_, exec_invDoorbell_ahead hdec ha hb hv hon hahead, ?_⟩
    rw [if_neg (not_le.mpr hfar)]
    exact ⟨rfl, rfl⟩
  case entrySet =>
    intro s b e hreads hmig hheld hop h1 h4 hz hz' hdva hhub hok
    rw [exec_setEntry_read hreads hmig hheld hop h1 h4 hz hz' hdva hhub, State.entryEnded_eq, if_pos hok]
  case entryFails =>
    intro s b c e hreads hmig hheld hop h1 h4 hz hz' hdva hhub hcode hc
    rw [exec_setEntry_read hreads hmig hheld hop h1 h4 hz hz' hdva hhub, State.entryEnded_eq, hcode, if_neg hc]
  case readBack =>
    intro s b level dva v hb hpath hleaf h1 h4 hv
    have hpresent : (s.tableOf b).pathTo level dva = true := by
      rw [ModeD.pathTo]
      exact Option.isSome_of_isSome_bind hpath
    rw [State.setEntry_leaf hpresent hleaf, State.modTable_tableOf_same hb]
    exact ⟨rfl, ModeD.entry_setAt h4 hpath hleaf hv⟩
  case invalidate =>
    intro s b e hreads hmig hop hz hz' hdva hlen hne hhold
    refine ⟨_, exec_invalidate_read hreads hmig hz hz' hdva hlen hne hhold hop, ?_, ?_⟩
    · refine ((s.readInv b).invalidateRange_cache b (field e 8 8) hne).trans ?_
      rw [(s.readInv_kept b).rest .headstock rfl]
    · rw [State.invNext_head, State.invalidateRange_head, State.bench, (s.readInv_kept b).rest .benches rfl]
      rfl
  case pinLoad =>
    intro s b e hreads hmig hop hz hz' hdva hlen hne hhold
    have hkept := (s.readInv b).pinRange_kept b (field e 8 8) (field e 16 8)
    refine ⟨_, exec_pinLoad_read hreads hmig hz hz' hdva hlen hne hhold hop, ?_, ?_, hkept.rest .out rfl⟩
    · rw [State.invNext_head, State.bench, hkept.rest .benches rfl, (s.readInv_kept b).rest .benches rfl]
      rfl
    · refine ((s.readInv b).loadPins_cache b _).trans ?_
      rw [(s.readInv_kept b).rest .headstock rfl]
  case token =>
    intro s b e hreads hop hz hz' ha hv
    have hkept := (s.readInv b).retryFaults_kept b fun _ => true
    have hbench : ((s.readInv b).retryFaults b fun _ => true).bench b = s.bench b :=
      congrArg (fun x : Tab Bench => tabGet x .reset b) ((hkept.rest .benches rfl).trans ((s.readInv_kept b).rest .benches rfl))
    refine ⟨_, exec_token_read hreads hop hz hz' ha hv, ?_⟩
    rw [State.invNext, State.modInv_invRing_same, State.modInv_invRing_same, hbench]
    exact ⟨rfl, rfl⟩
  case tokenComplete =>
    intro s b a v hb ht hu hbar hw hmay
    refine ⟨_, exec_tokenComplete_done ht hu hbar hw hmay, ?_⟩
    rw [State.modBench_bench_same]
    refine ⟨rfl, rfl, rfl, rfl, State.returnPages_tablePages hb _, ?_⟩
    rw [State.modBench_at_port, State.port, (State.returnPages_kept ..).rest .ports rfl]
    exact State.egress_last ..
  case resume =>
    intro s b hdec ha hb hv hst
    exact ⟨_, exec_invResume_stopped hdec ha hb hv hst, State.modInv_invRing_same ..⟩
  case noGuest =>
    intro s h b i e n hs
    rw [exec_xlateInvReceived, execXlateInvReceived, hs]
  case guest =>
    intro s u h b g i e n hs hi hop hu
    rw [exec_xlateInvReceived_set hs hi hop, hu]
  case acked =>
    rintro s _ _ g x e n hg rfl rfl hu hm hr hop
    exact exec_xlateInvReceived_acked hg hu hm hr hop n
  case ack =>
    intro s h b n hv
    exact ⟨_, congrArg Host.Outcome.next (if_neg hv), State.modInv_invRing_same .., fun c hc => State.modInv_bench_ne _ _ hc⟩

end Sys2Proof.Machine

/-! ## Fault commands, the fault search and region queries (O27; 11 R320, R322; 21 R571, R583) -/

namespace Sys2Proof.Machine

@[simp] theorem State.unstageHub_fault (s : State) (i : Nat) : s.unstageHub.fault i = s.fault i := rfl

/-! ### FAULT_CMD (11 R320, R322) -/

/-- A fault record whose retry has begun: a Mode D one counts it, up to 65,535 (11 R322). -/
def FaultRec.retried (f : FaultRec) : FaultRec :=
  { f with state := .retrying, retries := if ¬ f.modeD ∨ f.retries = 0xFFFF then f.retries else f.retries + 1 }

theorem FaultRec.retried_below {f : FaultRec} (h : f.retries ≠ 0xFFFF) :
    f.retried = { f with state := .retrying, retries := if f.modeD then f.retries + 1 else f.retries } := by
  rw [FaultRec.retried]
  by_cases hd : f.modeD = true
  · rw [if_neg (not_or.mpr ⟨not_not_intro hd, h⟩), if_pos hd]
  · rw [if_pos (.inl hd), if_neg hd]

theorem State.setFault_fault_same (s : State) (i : Nat) (f : Option FaultRec) : (s.setFault i f).fault i = f := tabGet_tabPut_same ..

theorem State.request_fault (s : State) (b : Nat) (d : Bool) (pasid : Option Nat) (va : Nat) (write : Bool) (w : Waiter) (i : Nat) :
    (s.request b d pasid va write w).fault i = s.fault i :=
  congrArg (tabGet · none i) (s.request_faults b d pasid va write w).1

theorem State.retryFault_fault_same {s : State} {i : Nat} {f : FaultRec} (hf : s.fault i = some f) (hs : f.state ≠ .retrying) :
    (s.retryFault i).fault i = some f.retried := by
  rw [State.retryFault, hf]
  dsimp only
  rw [if_neg hs, State.request_fault, State.setFault_fault_same]
  rfl

theorem State.faultCmd_free {s : State} {i : Nat} (h : s.fault i = none) (a : Nat) : s.faultCmd i a = s.countHub := by
  rw [State.faultCmd, h, if_pos (by exact rfl)]

section Record

variable {s : State} {i : Nat} {f : FaultRec} (hf : s.fault i = some f)

include hf

theorem State.faultCmd_retry : s.faultCmd i 1 = s.retryFault i := by
  rw [State.faultCmd, hf, if_neg (by simp), if_pos rfl]

theorem State.faultCmd_fatal : s.faultCmd i 2 = s.faultEnds i 0x10 6 := by
  rw [State.faultCmd, hf, if_neg (by simp), if_neg (by decide), if_pos rfl]

end Record

/-! ### FAULT_FIND (21 R583) -/

/-- The search stores what it searches for, and changes no record. -/
theorem State.findFault_headstock (s : State) (v : BitVec 32) :
    (s.findFault v).headstock.findBench = v.extractLsb' 0 8 ∧ (s.findFault v).headstock.findStart = v.extractLsb' 16 12 ∧
      (s.findFault v).headstock.faults = s.headstock.faults := by
  rw [State.findFault]
  dsimp only
  split <;> exact ⟨rfl, rfl, rfl⟩

/-- The one record, of the bench searched for and at START or above, is found. -/
theorem State.findFault_one {s : State} {v : BitVec 32} {i : Nat} {f : FaultRec} (h : s.headstock.faults = [(i, some f)])
    (hb : f.bench = (v.extractLsb' 0 8).toNat) (hi : (v.extractLsb' 16 12).toNat ≤ i) :
    (s.findFault v).headstock.findFound = true ∧ (s.findFault v).headstock.faultSel = BitVec.ofNat 12 i := by
  have hhit : (s.headstock.faults.filter fun e => decide ((v.extractLsb' 16 12).toNat ≤ e.1) &&
      (e.2.map fun g => g.bench == (v.extractLsb' 0 8).toNat).getD false) = [(i, some f)] := by
    rw [h]
    exact List.filter_cons_of_pos (Bool.and_eq_true_iff.mpr ⟨decide_eq_true hi, beq_iff_eq.mpr hb⟩)
  rw [State.findFault]
  dsimp only
  rw [hhit]
  exact ⟨rfl, rfl⟩

/-! ### REGION_QUERY (21 R583 and Table 16) -/

section Query

variable {s : State} {b : BitVec 8} {n : Nat}

theorem State.loadRegion_found {k : Nat} (h : s.regionFrom b.toNat n = some k) : s.loadRegion b n =
    { s with headstock := { s.headstock with queryBench := b, queryRegion := BitVec.ofNat 32 k, queryFound := true } } := by
  rw [State.loadRegion, h]

theorem State.loadRegion_none (h : s.regionFrom b.toNat n = none) : s.loadRegion b n =
    { s with headstock := { s.headstock with queryBench := b, queryFound := false } } := by
  rw [State.loadRegion, h]

end Query

/-- Reading REGION_QUERY's last dword, while a record is shown, looks for the bench's next one. -/
theorem exec_regionQuery_shown {s : State} (hrun : s.running = true) (hshown : s.headstock.queryFound = true) :
    exec .regionQuery s = .next (s.loadRegion s.headstock.queryBench (s.headstock.queryRegion.toNat + 1)) := by
  rw [exec_regionQuery, execRegionQuery, if_pos hrun, State.nextRegion, if_pos hshown]

/-- Settles O27: FAULT_CMD by the fault's record, FAULT_FIND and FAULT_READ, then the two region queries by what is found. -/
theorem faultsAndRegionQueries : Obligations.FaultsAndRegionQueries := by
  unfold Obligations.FaultsAndRegionQueries
  refine ⟨?retry, ?fatal, ?free, ?stored, ?found, ?read, ?selected, ?nothing, ?last, ?next⟩
  case retry =>
    intro s i f hdec ha hf hposted hbelow
    refine ⟨s.unstageHub.retryFault i,
      congrArg Host.Outcome.next ((State.fromMgmt_served hdec ha _).trans (State.faultCmd_retry (by exact hf))), ?_, ?_⟩
    · rw [← FaultRec.retried_below hbelow]
      exact State.retryFault_fault_same (by exact hf) (by simp [hposted])
    · rw [(s.unstageHub.retryFault_kept i).rest .chip rfl, State.unstageHub_badAccess]
  case fatal =>
    intro s i f hdec ha hf
    exact congrArg Host.Outcome.next ((State.fromMgmt_served hdec ha _).trans (State.faultCmd_fatal (by exact hf)))
  case free =>
    intro s i c hdec ha hf hc
    rcases hc with rfl | rfl <;>
      exact congrArg Host.Outcome.next ((State.fromMgmt_served hdec ha _).trans (State.faultCmd_free (by exact hf) _))
  case stored =>
    intro s v hdec ha
    exact ⟨_, congrArg Host.Outcome.next (State.fromMgmt_served hdec ha _), s.unstageHub.findFault_headstock v⟩
  case found =>
    intro s v i f hdec ha hone _ hb hi
    exact ⟨_, congrArg Host.Outcome.next (State.fromMgmt_served hdec ha _), State.findFault_one (by exact hone) hb hi⟩
  case read =>
    intro s hrun
    rw [exec_faultRead, execFaultRead, if_pos hrun, State.nextFault]
  case selected =>
    intro s v k hdec ha hk
    refine ⟨_, congrArg Host.Outcome.next (State.fromMgmt_served hdec ha _), ?_⟩
    rw [State.selectRegion, State.loadRegion_found (by exact hk)]
    rfl
  case nothing =>
    intro s v hdec ha hk
    refine ⟨_, congrArg Host.Outcome.next (State.fromMgmt_served hdec ha _), ?_⟩
    rw [State.selectRegion, State.loadRegion_none (by exact hk)]
    rfl
  case last =>
    intro s hrun hshown hk
    rw [exec_regionQuery_shown hrun hshown, State.loadRegion_none hk]
  case next =>
    intro s k hrun hshown hk
    rw [exec_regionQuery_shown hrun hshown, State.loadRegion_found hk, ← hshown]

end Sys2Proof.Machine

/-! ## Migration of Mode D leaves (O46; 11 R339, R340, R342, R343; 21 R573) -/

namespace Sys2Proof.Machine

/-! ### MIG_START (11 R339, R340 steps 1 and 2) -/

/-- START accepted: BUSY, result and index cleared, the cursor at the first leaf and its destination, and PD8 busy. -/
def State.migAccepted (s : State) : State :=
  State.stir { s with mig := { s.mig with busy := true, result := 0, index := 0, leaf := s.mig.dva, dest := s.mig.first } } 8

/-- The leaf of this size at the cursor is COPYING. -/
def State.migCopying (s : State) (size : Nat) : State :=
  { s with mig := { s.mig with stage := .copying, leafSize := size, readers := [] } }

theorem State.startMig_free {s : State} (h : s.mig.busy = false) : s.startMig =
    if s.migAccepted.migBadArgs then s.migAccepted.migEnd 1
    else if (s.migAccepted.bench s.migAccepted.mig.bench).state = .sweeping then s.migAccepted.migEnd 9 else s.migAccepted.migLeaf := by
  rw [State.startMig, if_neg (by simp [h])]
  rfl

/-- A DIRECTION of 0 is BAD_ARGS (11 Table 5). -/
theorem State.migBadArgs_noDirection {s : State} (h : field s.mig.arg 1 1 = 0) : s.migBadArgs = true := by
  simp [State.migBadArgs, h]

theorem State.migLeaf_copies {s : State} {n e : Nat} (hopen : s.mig.leaf < s.mig.dva + s.mig.length)
    (hleaf : (s.tableOf s.mig.bench).leaf s.mig.leaf = some (n, e)) (hcheck : s.migCheck n e = 0) :
    s.migLeaf = s.migCopying (leafSize n e) := by
  rw [State.migLeaf]
  dsimp only
  rw [if_neg (not_le.mpr hopen), hleaf]
  exact if_neg (not_not_intro hcheck)

/-- Past the last leaf the migration is done, and DONE_ADDR is written (11 R343). -/
theorem State.migLeaf_past {s : State} (h : s.mig.dva + s.mig.length ≤ s.mig.leaf) :
    s.migLeaf = (s.migEnd 0).mgmtWrite s.mig.doneAddr (leBytes 4 s.mig.index) := if_pos h

/-! ### MIG_LEAF_COPY_DONE (11 R340 steps 3 and 4, R342) -/

/-- The copy of the leaf at the cursor may end: it is COPYING, no lock holds the table, the bench's writes and reads under the leaf have passed, and RATE_CAP and the port's tags admit its transfers. -/
def State.migMayEnd (s : State) : Prop :=
  s.mig.stage = .copying ∧ s.structureHeld .table s.mig.bench = false ∧ s.migQuiet = true ∧ (s.bench s.mig.bench).rateOpen = true ∧
    (s.mig.toDie = true → (s.port (s.bench s.mig.bench).port).tagFree = true)

/-- The bytes of the leaf read, written to their new place, and counted against the bench. -/
def State.migCopied (s : State) (y : List Byte) : State :=
  let u := s.migReads.migWrites (slice y 0 (2 ^ s.mig.leafSize))
  let v := u.engineCharge s.mig.bench (u.ring s.mig.bench 0).clusterB (2 ^ s.mig.leafSize)
  if s.mig.toDie then
    v.charge (arbEgress (v.bench s.mig.bench).port) s.mig.bench (2 ^ s.mig.leafSize) (v.qosOf s.mig.bench).egressWeight
  else v

/-- A cached translation of the bench that the leaf at the cursor covers. -/
def State.migCovers (s : State) (e : CacheEntry) : Bool :=
  e.bench == s.mig.bench && e.modeD && e.overlaps s.mig.leaf (2 ^ s.mig.leafSize)

/-- The leaf rewritten, its cached entries removed, and the reads issued under it to be waited for. -/
def State.migDrains (s : State) (covers : CacheEntry → Bool) : State :=
  let u := s.migRewrite.dropEntries covers
  { u with mig := { u.mig with stage := .draining, readers := s.migReaders } }

theorem State.migCopied_kept (s : State) (y : List Byte) : Kept 0x121009024 s (s.migCopied y) := by
  have hmoved : Kept 0x121009024 s (s.migReads.migWrites (slice y 0 (2 ^ s.mig.leafSize))) :=
    (State.migWrites_kept ..).step rfl (s.migReads_kept.mono rfl)
  have hcharged := (State.engineCharge_kept (s.migReads.migWrites (slice y 0 (2 ^ s.mig.leafSize))) s.mig.bench
    ((s.migReads.migWrites (slice y 0 (2 ^ s.mig.leafSize))).ring s.mig.bench 0).clusterB (2 ^ s.mig.leafSize)).step rfl hmoved
  exact Kept.ite ((State.charge_kept ..).step rfl hcharged) hcharged

/-- Which reads were issued under the leaf depends on the migration and on the lathes. -/
theorem State.migReaders_congr {s t : State} (hm : t.mig = s.mig) (hl : t.lathes = s.lathes) : t.migReaders = s.migReaders := by
  rw [State.migReaders, State.migReaders, hm, hl]

theorem State.migDrains_mig (s : State) (p : CacheEntry → Bool) :
    (s.migDrains p).mig = { s.mig with stage := .draining, readers := s.migReaders } := by
  have hkept : (s.migRewrite.dropEntries p).mig = s.mig := s.migRewrite_kept.rest .mig rfl
  rw [State.migDrains, ← hkept]

/-- No entry that the predicate covers stays in the cache. -/
theorem State.migDrains_cache (s : State) (p : CacheEntry → Bool) : ∀ e ∈ (s.migDrains p).headstock.cache, p e = false := by
  intro e he
  have hstays : (!p e) = true := (List.mem_filter.mp he).2
  simpa using hstays

/-- The end of a copy by its result: the leaf drains, or the migration ends under the old translation (11 R342). -/
def State.migCopyEnded (s : State) : FetchResult → State
  | .ok y => (s.migCopied y).migDrains s.migCovers
  | _ => s.migReads.migEnd 8

theorem State.migCopyEnded_failed (s : State) {x : FetchResult} (hx : x = .hostError ∨ x = .hostTimeout ∨ x = .poisoned) :
    s.migCopyEnded x = s.migReads.migEnd 8 := by
  rcases hx with rfl | rfl | rfl <;> rfl

theorem exec_migLeafCopyDone_mayEnd {s : State} (h : s.migMayEnd) (x : FetchResult) :
    exec (.migLeafCopyDone x) s = .next (s.migCopyEnded x) := by
  obtain ⟨hstage, hheld, hquiet, hrate, htag⟩ := h
  refine (if_neg (by simpa [hstage, hheld, hquiet, hrate] using htag)).trans ?_
  cases x <;> rfl

/-! ### MIG_LEAF_DONE (11 R340 step 5, R343, R326) -/

/-- The leaf at the cursor is done: it reopens, is counted, and the cursor moves past it. -/
def State.migPassed (s : State) : State :=
  { s with mig := { s.mig with
    stage := .idle, index := s.mig.index + 1, leaf := s.mig.leaf + 2 ^ s.mig.leafSize, dest := s.mig.dest + 2 ^ s.mig.leafSize } }

/-- MIG_WANTED is cleared in the regions of the leaf that was migrated, and its posted faults are retried. -/
def State.migReopened (s : State) : State :=
  (s.migPassed.modBench s.mig.bench fun x => { x with regions := unwant s.mig.leaf (2 ^ s.mig.leafSize) x.regions }).retryFaults s.mig.bench
    fun f => decide (s.mig.leaf ≤ f.va.toNat) && decide (f.va.toNat < s.mig.leaf + 2 ^ s.mig.leafSize)

theorem State.migReopened_mig (s : State) : s.migReopened.mig = s.migPassed.mig :=
  (State.retryFaults_kept ..).rest .mig rfl

theorem exec_migLeafDone_drained {s : State} (hstage : s.mig.stage = .draining) (hread : s.mig.readers = []) :
    exec .migLeafDone s = .next s.migReopened.migLeaf := by
  rw [exec_migLeafDone, execMigLeafDone]
  exact if_neg (by simp [hstage, hread])

/-- Settles O46: the start by what its arguments meet, the end of a copy by its result, and the last leaf. -/
theorem leafMigration : Obligations.LeafMigration := by
  unfold Obligations.LeafMigration
  refine ⟨?busy, ?noDirection, ?starts, ?failed, ?copied, ?done⟩
  case busy =>
    intro s hdec ha hbusy
    exact congrArg Host.Outcome.next ((State.fromMgmt_served hdec ha _).trans (if_pos hbusy))
  case noDirection =>
    intro s hdec ha hfree hdir
    refine ⟨s.unstageHub.migAccepted.migEnd 1, congrArg Host.Outcome.next ((State.fromMgmt_served hdec ha _).trans ?_), rfl, rfl, rfl, rfl⟩
    rw [State.startMig_free (by exact hfree), if_pos (State.migBadArgs_noDirection (by exact hdir))]
  case starts =>
    rintro s u e n hdec ha hfree (rfl : u = s.unstageHub.migAccepted) hargs hsweep hlen hleaf hcheck
    refine ⟨s.unstageHub.migAccepted.migCopying (leafSize n e),
      congrArg Host.Outcome.next ((State.fromMgmt_served hdec ha _).trans ?_), rfl, rfl⟩
    have hopen : s.unstageHub.migAccepted.mig.leaf < s.unstageHub.migAccepted.mig.dva + s.unstageHub.migAccepted.mig.length :=
      Nat.lt_add_of_pos_right hlen
    rw [State.startMig_free (by exact hfree), if_neg (Bool.eq_false_iff.mp hargs), if_neg (by exact hsweep)]
    exact State.migLeaf_copies hopen hleaf hcheck
  case failed =>
    intro s x hx hstage hheld hquiet hrate htag
    refine ⟨_, exec_migLeafCopyDone_mayEnd ⟨hstage, hheld, hquiet, hrate, htag⟩ x, ?_⟩
    rw [s.migCopyEnded_failed hx, State.migEnd, s.migReads_kept.rest .mig rfl]
    exact ⟨rfl, s.migReads_kept.rest .benches rfl⟩
  case copied =>
    intro s y hstage hheld hquiet hrate htag
    have hkept := s.migCopied_kept y
    have hmig : (s.migCopied y).mig = s.mig := hkept.rest .mig rfl
    refine ⟨_, exec_migLeafCopyDone_mayEnd ⟨hstage, hheld, hquiet, hrate, htag⟩ (.ok y), ?_, (s.migCopied y).migDrains_cache _⟩
    rw [State.migCopyEnded, State.migDrains_mig, State.migReaders_congr hmig (hkept.rest .lathes rfl), hmig]
  case done =>
    intro s hstage hread hlast
    have hpast : s.migReopened.mig.dva + s.migReopened.mig.length ≤ s.migReopened.mig.leaf := by
      rw [State.migReopened_mig]
      exact hlast
    refine ⟨_, exec_migLeafDone_drained hstage hread, ?_⟩
    rw [State.migLeaf_past hpast, (State.mgmtWrite_kept ..).rest .mig rfl, State.migEnd, State.migReopened_mig]
    exact ⟨rfl, rfl, rfl⟩

end Sys2Proof.Machine

/-! ## The attach handshake (O50; 12 R351–R354; 22 R593, R594, R598) -/

namespace Sys2Proof.Machine

/-- A change of one bench changes no other. -/
theorem State.modBench_only (s : State) (b : Nat) (f : Bench → Bench) :
    (s.modBench b f).bench b = f (s.bench b) ∧ ∀ c, c ≠ b → (s.modBench b f).bench c = s.bench c :=
  ⟨s.modBench_bench_same b f, fun _ hc => s.modBench_bench_ne f hc⟩

/-! ### ATTACH_TOKEN (21 R571; 22 R598) -/

/-- The low dword of a token is staged. -/
theorem State.putToken_low (s : State) (b : Nat) (v : BitVec 64) :
    s.putToken b 0 v = s.modBench b fun x => { x with staged := some (attachTokenAt, v.setWidth 32) } := rfl

theorem State.putToken_whole (s : State) (b : Nat) (v : BitVec 64) :
    s.putToken b 2 v = s.modBench b fun x => { x with staged := none, attach := { x.attach with token := v } } := rfl

/-- A high dword joins the low one staged. -/
theorem State.putToken_high {s : State} {b : Nat} {w : BitVec 32} (h : (s.bench b).staged = some (attachTokenAt, w)) (v : BitVec 64) :
    s.putToken b 1 v = s.modBench b fun x => { x with staged := none, attach := { x.attach with token := v.setWidth 32 ++ w } } := by
  rw [State.putToken, h]
  rfl

theorem exec_attachTokenWrite_taken {s : State} {b : Nat} (hrun : s.running = true)
    (hs : (s.bench b).state = .active ∨ (s.bench b).state = .held) (part : Nat) (v : BitVec 64) :
    exec (.attachTokenWrite b part v) s = .next (s.putToken b part v) := by
  rw [exec_attachTokenWrite, execAttachTokenWrite, State.attachWrite, if_neg (not_not_intro hrun), if_pos hs]

/-! ### An ATTACH_CMD taken: what its checks read (12 R351) -/

/-- ATTACH_CMD is written: a staged low dword is discarded, its own low dword is kept. -/
def State.attachTaken (s : State) (b : Nat) (e : BitVec 32) : State :=
  (s.unstage b).modBench b fun x => { x with attach := { x.attach with cmdLow := e } }

theorem State.attachTaken_kept (s : State) (b : Nat) (e : BitVec 32) : Kept 0x20 s (s.attachTaken b e) :=
  (State.modBench_kept ..).step rfl (s.unstage_kept b)

theorem State.unstage_bench_same (s : State) (b : Nat) : (s.unstage b).bench b = { s.bench b with staged := none } := by
  rw [State.unstage]
  split_ifs with h
  · rw [← Option.isNone_iff_eq_none.mp h]
  · exact s.modBench_bench_same b _

theorem State.attachTaken_bench_same (s : State) (b : Nat) (e : BitVec 32) : (s.attachTaken b e).bench b =
    { s.bench b with staged := none, attach := { (s.bench b).attach with cmdLow := e } } := by
  rw [State.attachTaken, State.modBench_bench_same, State.unstage_bench_same]

theorem State.attachTaken_bench_ne (s : State) {b c : Nat} (e : BitVec 32) (h : c ≠ b) : (s.attachTaken b e).bench c = s.bench c :=
  (State.modBench_bench_ne _ _ h).trans (s.unstage_bench_ne h)

theorem State.attachTaken_now (s : State) (b : Nat) (e : BitVec 32) : (s.attachTaken b e).now = s.now :=
  congrArg Hearth.time ((s.attachTaken_kept b e).rest .hearth rfl)

/-- No check reads what the write of ATTACH_CMD changes. -/
theorem State.attachTaken_check (s : State) (b : Nat) (e : BitVec 32) (m : Nat) (k : BitVec 32) :
    (s.attachTaken b e).attachCheck b m k = s.attachCheck b m k := by
  have hports : (s.attachTaken b e).ports = s.ports := (s.attachTaken_kept b e).rest .ports rfl
  have hfns : (s.attachTaken b e).fns = s.fns := (s.attachTaken_kept b e).rest .fns rfl
  simp only [State.attachCheck, State.lockedOut, State.attachTaken_bench_same, State.attachTaken_now, State.port, State.fnAt,
    hports, hfns] <;> rfl

/-- A token is compared only of a bench that is detached. -/
theorem State.detached_of_badToken {s : State} {b m : Nat} {e : BitVec 32} (h : s.attachCheck b m e = 7) : (s.bench b).detached = true := by
  by_contra hd
  have hearlier : s.attachCheck b m e = 1 ∨ s.attachCheck b m e = 2 := by
    rw [State.attachCheck, if_pos hd]
    exact ite_eq_or_eq ..
  omega

/-! ### An ATTACH_CMD by the state of its bench (22 R593) -/

theorem State.unstage_running (s : State) (b : Nat) : (s.unstage b).running = s.running :=
  congrArg (fun c : Chip => c.powered && !(c.phase == .straps) && !(c.phase == .restarting)) ((s.unstage_kept b).rest .chip rfl)

theorem State.unstage_state (s : State) (b c : Nat) : ((s.unstage b).bench c).state = (s.bench c).state :=
  State.unstage_keeps (g := Bench.state) (fun _ _ => rfl) s b c

/-- While the bench is SWEEPING the command is discarded and counted. -/
theorem State.attachCmd_sweeping {s : State} {b : Nat} (hrun : s.running = true) (hs : (s.bench b).state = .sweeping) (m : Nat) (e : BitVec 32) :
    (s.unstage b).attachCmd b m e = (s.unstage b).countBench b := by
  rw [State.attachCmd, if_neg (by simpa [State.unstage_running] using hrun), if_neg (by simp [State.unstage_state, hs]),
    if_pos (by simp [State.unstage_state, hs])]

section Taken

variable {s : State} {b : Nat} (hrun : s.running = true) (hs : (s.bench b).state = .active ∨ (s.bench b).state = .held)

include hrun hs

/-- An ACTIVE or HELD bench takes the command, and its checks decide. -/
theorem State.attachCmd_taken (m : Nat) (e : BitVec 32) : (s.unstage b).attachCmd b m e =
    if s.attachCheck b m e = 0 then (s.attachTaken b e).attachAccept b m else (s.attachTaken b e).attachRefuse b (s.attachCheck b m e) := by
  have hstate := s.unstage_state b b
  rw [State.attachCmd, if_neg (by simpa [State.unstage_running] using hrun), if_neg (by obtain hs | hs := hs <;> simp [hstate, hs]),
    if_neg (by obtain hs | hs := hs <;> simp [hstate, hs]), ← s.attachTaken_check b e m e]
  rfl

theorem State.attachCmd_accepted {m : Nat} {e : BitVec 32} (h : (s.attachTaken b e).attachCheck b m e = 0) :
    (s.unstage b).attachCmd b m e = (s.attachTaken b e).attachAccept b m := by
  rw [State.attachCmd_taken hrun hs, if_pos (by rwa [← s.attachTaken_check b e])]

theorem exec_attachRefused_fails {m : Nat} {e : BitVec 32} (h : s.attachCheck b m e ≠ 0) :
    exec (.attachRefused b m e) s = .next ((s.attachTaken b e).attachRefuse b (s.attachCheck b m e)) := by
  rw [exec_attachRefused, execAttachRefused, if_neg (fun hall => h hall.2), State.attachCmd_taken hrun hs, if_neg h]

end Taken

/-! ### The refusal (12 R351, R352) -/

/-- An error logged changes the notices and counters of bench 0 alone. -/
theorem State.logError_keeps {α : Type} {g : Bench → α} (h : ∀ x q k, g { x with notices := q, counters := k } = g x) (s : State)
    (cls code : Nat) (a0 a1 : BitVec 64) (c : Nat) : g ((s.logError cls code a0 a1).bench c) = g (s.bench c) :=
  State.notice_keeps h ..

theorem State.notice_bench_ne (s : State) {b c : Nat} (h : c ≠ b) (type cause ring : Nat) (a0 : BitVec 64) (a1 : BitVec 32) (subject : Nat) :
    (s.notice b type cause ring a0 a1 subject).bench c = s.bench c := by
  rw [State.notice]
  split_ifs
  · rfl
  · exact (State.modBench_bench_ne _ _ h).trans (s.wakeHost_bench b c)

theorem State.logError_bench_ne (s : State) {c : Nat} (h : c ≠ 0) (cls code : Nat) (a0 a1 : BitVec 64) :
    (s.logError cls code a0 a1).bench c = s.bench c :=
  State.notice_bench_ne _ h ..

/-- A check other than the token's only reports itself. -/
theorem State.attachRefuse_reports {r : Nat} (h : r ≠ 7) (s : State) (b : Nat) : s.attachRefuse b r = s.attachResult b r := if_pos h

/-- The attach registers after a BAD_TOKEN refusal at time `t`. -/
def Attach.badTokenAt (a : Attach) (t : BitVec 64) : Attach :=
  { a with token := 0, result := 7, badTokens := a.badTokens + 1, lastBad := some t }

/-- A BAD_TOKEN refusal before anything is logged: RESULT is set, the refusal counted. -/
def State.badTokenCounted (s : State) (b : Nat) : State :=
  (s.attachResult b 7).modBench b fun x => { x with
    counters := { x.counters with attachFail := x.counters.attachFail + 1 }
    attach := { x.attach with badTokens := x.attach.badTokens + 1, lastBad := some s.now } }

theorem State.badTokenCounted_bench_same (s : State) (b : Nat) : (s.badTokenCounted b).bench b =
    { s.bench b with
      counters := { (s.bench b).counters with attachFail := (s.bench b).counters.attachFail + 1 }
      attach := (s.bench b).attach.badTokenAt s.now } := by
  rw [State.badTokenCounted, State.modBench_bench_same, State.attachResult, State.modBench_bench_same]
  rfl

theorem State.badTokenCounted_bench_ne (s : State) {b c : Nat} (h : c ≠ b) : (s.badTokenCounted b).bench c = s.bench c :=
  (State.modBench_bench_ne _ _ h).trans (State.modBench_bench_ne _ _ h)

/-- The eighth BAD_TOKEN of an epoch is logged as well. -/
theorem State.attachRefuse_badToken (s : State) (b : Nat) : s.attachRefuse b 7 =
    if ((s.badTokenCounted b).bench b).attach.badTokens = 8 then
      (s.badTokenCounted b).logError 8 1 (BitVec.ofNat 64 b) (((s.badTokenCounted b).bench b).epoch.setWidth 64)
    else s.badTokenCounted b := by
  rw [State.attachRefuse, if_neg (not_not_intro rfl)]
  rfl

/-- Logged or not, a BAD_TOKEN refusal changes the bench in its attach registers, its notices and its counters alone. -/
theorem State.attachRefuse_badToken_keeps {α : Type} {g : Bench → α} (h : ∀ x q k, g { x with notices := q, counters := k } = g x)
    (s : State) (b : Nat) : g ((s.attachRefuse b 7).bench b) = g { s.bench b with attach := (s.bench b).attach.badTokenAt s.now } := by
  have hcounted : g ((s.badTokenCounted b).bench b) = g { s.bench b with attach := (s.bench b).attach.badTokenAt s.now } := by
    rw [State.badTokenCounted_bench_same]
    exact h { s.bench b with attach := (s.bench b).attach.badTokenAt s.now } _ _
  rw [State.attachRefuse_badToken]
  split_ifs
  · exact (State.logError_keeps h ..).trans hcounted
  · exact hcounted

theorem State.attachRefuse_badToken_bench_ne (s : State) {b c : Nat} (hb : c ≠ b) (h0 : c ≠ 0) :
    (s.attachRefuse b 7).bench c = s.bench c := by
  rw [State.attachRefuse_badToken]
  split_ifs
  · exact (State.logError_bench_ne _ h0 ..).trans (s.badTokenCounted_bench_ne hb)
  · exact s.badTokenCounted_bench_ne hb

/-! ### The statement -/

/-- Settles O50: the parts of the token, the three modes accepted, the refusal by the check that fails, the bench SWEEPING. -/
theorem attachHandshake : Obligations.AttachHandshake := by
  unfold Obligations.AttachHandshake
  refine ⟨?whole, ?low, ?high, ?resume, ?close, ?fresh, ?badToken, ?refused, ?sweeping⟩
  case whole =>
    intro s b v hrun hs
    exact ⟨_, (exec_attachTokenWrite_taken hrun hs 2 v).trans (congrArg _ (s.putToken_whole b v)), s.modBench_only b _⟩
  case low =>
    intro s b v hrun hs
    exact ⟨_, (exec_attachTokenWrite_taken hrun hs 0 v).trans (congrArg _ (s.putToken_low b v)), s.modBench_only b _⟩
  case high =>
    intro s b v w hrun hs hstaged
    exact ⟨_, (exec_attachTokenWrite_taken hrun hs 1 v).trans (congrArg _ (State.putToken_high hstaged v)), s.modBench_only b _⟩
  case resume | close | fresh =>
    rintro s u b e hrun hs rfl hcheck
    exact congrArg Host.Outcome.next (State.attachCmd_accepted hrun hs hcheck)
  case badToken =>
    intro s b m e hrun hs hcheck
    have hattach := State.attachRefuse_badToken_keeps (g := Bench.attach) (fun _ _ _ => rfl) (s.attachTaken b e) b
    have hdetached := State.attachRefuse_badToken_keeps (g := Bench.detached) (fun _ _ _ => rfl) (s.attachTaken b e) b
    have hepoch := State.attachRefuse_badToken_keeps (g := Bench.epoch) (fun _ _ _ => rfl) (s.attachTaken b e) b
    rw [State.attachTaken_bench_same] at hattach hdetached hepoch
    rw [State.attachTaken_now] at hattach
    refine ⟨(s.attachTaken b e).attachRefuse b 7, ?_, ?_, ?_, ?_, ?_, hdetached.trans (State.detached_of_badToken hcheck), hepoch,
      fun c hb h0 => (State.attachRefuse_badToken_bench_ne _ hb h0).trans (s.attachTaken_bench_ne e hb)⟩
    · rw [exec_attachRefused_fails hrun hs (by simp [hcheck]), hcheck]
    all_goals rw [hattach]; rfl
  case refused =>
    intro s b m e hrun hs hfails hother
    refine ⟨(s.attachTaken b e).attachResult b (s.attachCheck b m e), ?_, ?_, ?_, fun c hc =>
      (State.modBench_bench_ne _ _ hc).trans (s.attachTaken_bench_ne e hc)⟩
    · rw [exec_attachRefused_fails hrun hs hfails, State.attachRefuse_reports hother]
    all_goals rw [State.attachResult, State.modBench_bench_same, State.attachTaken_bench_same]
  case sweeping => exact fun s b e hrun hs => congrArg Host.Outcome.next (State.attachCmd_sweeping hrun hs 1 e)

end Sys2Proof.Machine

/-! ## A step of the queue (O1; log entry 2) -/

namespace Sys2Proof.Machine

theorem step_of_front {s : State} {c : Instr} {r : List Instr} (h : s.pending = c :: r) : step s = exec c (s.withPending r) := by
  rw [step, h]

theorem step_of_idle {s : State} (h : s.pending = []) : step s = .next s.idleTick := by
  rw [step, h]

/-- Settles O1: the front of the queue of `withPending (c :: r)` is `c`, and a second `withPending` replaces the first. -/
theorem stepRunsTheFrontCommand : Obligations.StepRunsTheFrontCommand :=
  ⟨fun s c r => step_of_front (s := s.withPending (c :: r)) rfl, fun _ _ _ => step_of_front, fun _ => step_of_idle⟩

end Sys2Proof.Machine

/-! ## Spins as bits (O9; 15 R424) -/

namespace Sys2Proof.Machine

theorem getElem?_unpackSpins {n i : Nat} (h : i < n) (y : List Byte) :
    (unpackSpins n y)[i]? = some ((y.getD (i / 8) 0).getLsbD (i % 8)) := by
  have hbyte : (field y (i / 8) 1).testBit (i % 8) = (y.getD (i / 8) 0).getLsbD (i % 8) := by
    rw [field, show i % 8 = 8 * 0 + i % 8 by omega, testBit_leNat _ _ (by omega), getD_slice _ _ (by omega)]
    simp
  rw [unpackSpins, List.getElem?_map, List.getElem?_range h, ← hbyte]
  simp only [Option.map_some, bits, Nat.testBit_eq_decide_div_mod_eq, pow_one]
  exact congrArg some (beq_eq_decide ..)

/-- The number that bits spell has them as its bits. -/
theorem testBit_leNatBits (l : List Bool) (i : Nat) : (packSpins.leNatBits l).testBit i = l.getD i false := by
  induction l generalizing i with
  | nil => simp [packSpins.leNatBits]
  | cons b r ih =>
    rw [packSpins.leNatBits]
    cases i with
    | zero => cases b <;> simp [Nat.add_mod]
    | succ i =>
      rw [Nat.testBit_succ, show (b.toNat + 2 * packSpins.leNatBits r) / 2 = packSpins.leNatBits r by have := b.toNat_lt; omega, ih]
      rfl

theorem length_packSpins (l : List Bool) (n : Nat) : (packSpins l n).length = n := by
  rw [packSpins, List.length_map, List.length_range]

/-- Bit `i` of the byte in which spin `k` lies. -/
theorem getD_packSpins (l : List Bool) {n k i : Nat} (hk : k < n) (hi : i < 8) :
    ((packSpins l n).getD k 0).getLsbD i = l.getD (8 * k + i) false := by
  have hbyte : (packSpins l n).getD k 0 = BitVec.ofNat 8 (packSpins.leNatBits ((l.drop (8 * k)).take 8)) := by
    simp [packSpins, List.getD_eq_getElem?_getD, hk]
  rw [hbyte, BitVec.getLsbD_ofNat, decide_eq_true hi, Bool.true_and, testBit_leNatBits, List.getD_eq_getElem?_getD,
    List.getElem?_take_of_lt hi, List.getElem?_drop, List.getD_eq_getElem?_getD]

theorem unpackSpins_packSpins (l : List Bool) : unpackSpins l.length (packSpins l ((l.length + 7) / 8)) = l := by
  refine List.ext_getElem? fun i => ?_
  by_cases h : i < l.length
  · rw [getElem?_unpackSpins h, getD_packSpins l (by omega) (by omega), Nat.div_add_mod, List.getD_eq_getElem?_getD,
      List.getElem?_eq_getElem h, Option.getD_some]
  · have hlength : (unpackSpins l.length (packSpins l ((l.length + 7) / 8))).length = l.length := by simp [unpackSpins]
    rw [List.getElem?_eq_none (by omega), List.getElem?_eq_none (by omega)]

theorem getElem?_rowOf {cols c : Nat} (h : c < cols) (l : List Bool) (row : Nat) : (rowOf cols l row)[c]? = l[row * cols + c]? := by
  rw [rowOf, List.getElem?_take_of_lt h, List.getElem?_drop]

/-- Settles O9: a spin's bit, packing and its reading back, and the spins of a row. -/
theorem spinsOfAState : Obligations.SpinsOfAState :=
  ⟨⟨rfl, rfl⟩, fun _ _ y h => getElem?_unpackSpins h y, fun l => ⟨length_packSpins l _, unpackSpins_packSpins l⟩,
    fun _ row _ l h => getElem?_rowOf h l row⟩

end Sys2Proof.Machine

/-! ## The weights of the Burl (O10; 15 R433)

The model's weight rounds 2^24 times a power of `expStep / 2^128`, which is e^(-1/256) but for 2^-70. The power's error stays below 2^-21, and no value of the table comes as near as that to the middle between two integers. -/

namespace Sys2Proof.Machine

/-- 2^25 times the `n`-th power of `expStep`, which has `128 n` bits after the point. -/
def weightFixed (n : Nat) : Nat := expStep ^ n * 2 ^ 25

/-- The weight of `n` where it is neither bound. -/
def weightMid (n : Nat) : Nat := (weightFixed n / 2 ^ (128 * n) + 1) / 2

theorem weight_of_nonpos {q : Int} (h : q ≤ 0) : weight q = 2 ^ 24 := if_pos h

theorem weight_of_large {q : Int} (h : 4096 ≤ q) : weight q = 0 := by
  rw [weight, if_neg (by omega), if_pos h]

theorem weight_between {q : Int} (h : 0 < q) (k : q < 4096) : weight q = weightMid q.toNat := by
  rw [weight, if_neg (by omega), if_neg (by omega), weightMid, weightFixed]

/-- Twice the value rounded lies by 2^-20 within the bounds that round to the weight. -/
def roundsClear (n : Nat) : Bool :=
  decide ((2 * weightMid n * 2 ^ 20 + 1) * 2 ^ (128 * n) ≤ (weightFixed n + 2 ^ (128 * n)) * 2 ^ 20) &&
  decide (weightFixed n * 2 ^ 20 + 2 ^ (128 * n) ≤ (2 * weightMid n + 1) * 2 ^ 20 * 2 ^ (128 * n))

/-- The table of weights, by rows of 64. -/
theorem roundsClear_table : ∀ i < 64, ∀ k < 64, roundsClear (64 * i + k) = true := by decide +kernel

theorem roundsClear_below {n : Nat} (h : n < 4096) : roundsClear n = true := by
  have hrow := roundsClear_table (n / 64) (by omega) (n % 64) (by omega)
  rwa [Nat.div_add_mod] at hrow

theorem weightMid_clear {n : Nat} (h : n < 4096) :
    2 * (weightMid n : ℝ) - 1 + 1 / 2 ^ 20 ≤ 2 ^ 25 * ((expStep : ℝ) / 2 ^ 128) ^ n ∧
    2 ^ 25 * ((expStep : ℝ) / 2 ^ 128) ^ n ≤ 2 * (weightMid n : ℝ) + 1 - 1 / 2 ^ 20 := by
  obtain ⟨hlow, hhigh⟩ : _ ∧ _ := by simpa only [roundsClear, Bool.and_eq_true, decide_eq_true_eq] using roundsClear_below h
  have hlow : ((2 * weightMid n * 2 ^ 20 + 1) * 2 ^ (128 * n) : ℝ) ≤ (weightFixed n + 2 ^ (128 * n)) * 2 ^ 20 := by exact_mod_cast hlow
  have hhigh : (weightFixed n * 2 ^ 20 + 2 ^ (128 * n) : ℝ) ≤ (2 * weightMid n + 1) * 2 ^ 20 * 2 ^ (128 * n) := by exact_mod_cast hhigh
  have hvalue : 2 ^ 25 * ((expStep : ℝ) / 2 ^ 128) ^ n = weightFixed n / 2 ^ (128 * n) := by
    rw [weightFixed, div_pow, ← pow_mul]
    push_cast
    ring
  have hscale : (0 : ℝ) < 2 ^ (128 * n) := by positivity
  rw [hvalue, le_div_iff₀ hscale, div_le_iff₀ hscale]
  constructor <;> linarith

/-- The exponential's series to its eighth term. -/
theorem expStep_close : |(expStep : ℝ) / 2 ^ 128 - Real.exp (-1 / 256)| ≤ 1 / 2 ^ 70 := by
  have hseries := Real.exp_bound (x := -1 / 256) (by norm_num [abs_le]) (n := 8) (by norm_num)
  have hrest : |(-1 / 256 : ℝ)| ^ 8 * ((Nat.succ 8 : ℕ) / ((Nat.factorial 8 : ℕ) * (8 : ℕ))) ≤ 1 / 2 ^ 71 := by
    norm_num [Nat.factorial, abs_of_neg]
  have hsum : |(expStep : ℝ) / 2 ^ 128 - ∑ m ∈ Finset.range 8, (-1 / 256 : ℝ) ^ m / (m.factorial : ℝ)| ≤ 1 / 2 ^ 71 := by
    norm_num [Finset.sum_range_succ, Nat.factorial, expStep, abs_le]
  rw [abs_le] at hseries hsum ⊢
  constructor <;> linarith

/-- A power keeps the error of its base, taken as often as the exponent says. -/
theorem expStep_pow_close (n : Nat) : |((expStep : ℝ) / 2 ^ 128) ^ n - Real.exp (-1 / 256) ^ n| ≤ 1 / 2 ^ 70 * (n : ℝ) := by
  have hstep : |(expStep : ℝ) / 2 ^ 128| ≤ 1 := by norm_num [expStep, abs_le]
  have hexp : |Real.exp (-1 / 256)| ≤ 1 := by
    rw [abs_of_pos (Real.exp_pos _), Real.exp_le_one_iff]
    norm_num
  calc |((expStep : ℝ) / 2 ^ 128) ^ n - Real.exp (-1 / 256) ^ n|
    _ ≤ |(expStep : ℝ) / 2 ^ 128 - Real.exp (-1 / 256)| * n * max |(expStep : ℝ) / 2 ^ 128| |Real.exp (-1 / 256)| ^ (n - 1) :=
      abs_pow_sub_pow_le ..
    _ ≤ 1 / 2 ^ 70 * n * 1 := by
      gcongr
      · exact expStep_close
      · exact pow_le_one₀ (by positivity) (max_le hstep hexp)
    _ = 1 / 2 ^ 70 * n := mul_one _

theorem weightMid_rounds {n : Nat} (h : n < 4096) : |(weightMid n : ℝ) - 2 ^ 24 * Real.exp (-(n : ℝ) / 256)| ≤ 1 / 2 := by
  have hpow : Real.exp (-(n : ℝ) / 256) = Real.exp (-1 / 256) ^ n := by
    rw [← Real.exp_nat_mul]
    congr 1
    ring
  have hn : (n : ℝ) ≤ 4096 := by exact_mod_cast h.le
  have hclose := abs_le.mp (expStep_pow_close n)
  have hclear := weightMid_clear h
  rw [hpow, abs_le]
  constructor <;> linarith [hclose.1, hclose.2, hclear.1, hclear.2]

/-- Settles O10: the two bounds, and between them the rounding of every value of the table. -/
theorem weightsOfTheBurl : Obligations.WeightsOfTheBurl := by
  refine ⟨fun q => weight_of_nonpos, fun q hlow hhigh => ?_, fun q => weight_of_large⟩
  have hq : (q : ℝ) = (q.toNat : ℝ) := by exact_mod_cast (Int.toNat_of_nonneg hlow.le).symm
  rw [weight_between hlow hhigh, hq]
  exact weightMid_rounds (by omega)

end Sys2Proof.Machine

/-! ## One move of the Burl (O44; 15 R432, R433, R435) -/

namespace Sys2Proof.Machine

/-! ### The spin that a sum of weights picks (15 R432) -/

/-- The first running sum above `r` is that of index `i`. -/
theorem pickWeighted_of_between {r : Nat} {w : List Nat} {i : Nat} (sum at_ : Nat) (hi : i < w.length)
    (hlow : sum + (w.take i).sum ≤ r) (hhigh : r < sum + (w.take (i + 1)).sum) : pickWeighted r w at_ sum = some (at_ + i) := by
  induction w generalizing i sum at_ with
  | nil => simp at hi
  | cons x w ih =>
    rw [pickWeighted]
    cases i with
    | zero => rw [if_pos (by simpa using hhigh), Nat.add_zero]
    | succ i =>
      simp only [List.take_succ_cons, List.sum_cons, ← Nat.add_assoc] at hlow hhigh
      rw [if_neg (by omega), ih (sum + x) (at_ + 1) (by simpa using hi) hlow hhigh]
      congr 1
      omega

theorem pickWeighted_bound {r : Nat} {w : List Nat} {at_ sum i : Nat} (h : pickWeighted r w at_ sum = some i) : i < at_ + w.length := by
  induction w generalizing at_ sum with
  | nil => simp [pickWeighted] at h
  | cons x w ih =>
    rw [pickWeighted] at h
    split_ifs at h with hx
    · simp only [Option.some.injEq] at h
      simp [← h]
    · have := ih h
      rw [List.length_cons]
      omega

/-! ### A move -/

/-- The weight of each spin's flip at the job's sweep. -/
def Job.flipWeights (j : Job) : List Nat := (List.range j.spins.length).map fun k =>
  weight ((2 * spinVal ((j.spins[k]?).getD false) * j.localField k * ((betaAt j.spec.segments j.sweeps).1 : Int)).fdiv
    (2 ^ (betaAt j.spec.segments j.sweeps).2))

/-- The number that the generator picks below the sum of the weights. -/
def Job.movePick (j : Job) : Nat :=
  ((philox j.spec.seed j.move (j.move / 2 ^ 32) (j.strip.getD 0) 0).1 +
    2 ^ 32 * (philox j.spec.seed j.move (j.move / 2 ^ 32) (j.strip.getD 0) 0).2.1) * j.flipWeights.sum / 2 ^ 64

theorem Job.length_flipWeights (j : Job) : j.flipWeights.length = j.spins.length := by simp [Job.flipWeights]

theorem Job.moveOnce_spins (j : Job) : j.moveOnce.spins =
    if j.flipWeights.sum = 0 then j.spins
    else match pickWeighted j.movePick j.flipWeights 0 0 with
      | some i => j.spins.set i !((j.spins[i]?).getD false)
      | none => j.spins := by
  rw [Job.movePick, List.sum_eq_foldl]
  rfl

theorem Job.moveOnce_still {j : Job} (h : j.flipWeights.sum = 0) : j.moveOnce.spins = j.spins := by
  rw [j.moveOnce_spins, if_pos h]

theorem Job.moveOnce_flips {j : Job} {i : Nat} (hi : i < j.flipWeights.length) (hlow : (j.flipWeights.take i).sum ≤ j.movePick)
    (hhigh : j.movePick < (j.flipWeights.take (i + 1)).sum) : j.moveOnce.spins = j.spins.set i !((j.spins[i]?).getD false) := by
  have hsome : j.flipWeights.sum ≠ 0 := by
    have := (j.flipWeights.take_sublist (i + 1)).sum_le_sum fun _ _ => Nat.zero_le _
    omega
  rw [j.moveOnce_spins, if_neg hsome, pickWeighted_of_between 0 0 hi (by omega) (by omega)]
  simp

/-- At most one spin of the state flips. -/
theorem Job.moveOnce_atMostOne (j : Job) :
    j.moveOnce.spins = j.spins ∨ ∃ i, i < j.spins.length ∧ j.moveOnce.spins = j.spins.set i !((j.spins[i]?).getD false) := by
  rw [j.moveOnce_spins]
  split_ifs
  · exact .inl rfl
  · cases hpick : pickWeighted j.movePick j.flipWeights 0 0 with
    | none => exact .inl rfl
    | some i => exact .inr ⟨i, by simpa [j.length_flipWeights] using pickWeighted_bound hpick, rfl⟩

theorem Job.moveOnce_length (j : Job) : j.moveOnce.spins.length = j.spins.length := by
  obtain h | ⟨i, -, h⟩ := j.moveOnce_atMostOne
  · rw [h]
  · rw [h, List.length_set]

/-! ### The schedule (15 R435) -/

theorem betaAt_later {g : Segment} (l : List Segment) {k : Nat} (h : g.sweeps ≤ k) : betaAt (g :: l) k = betaAt l (k - g.sweeps) := by
  rw [betaAt, if_neg (by omega)]

theorem betaAt_within {g : Segment} (l : List Segment) {k : Nat} (h : k < g.sweeps) : betaAt (g :: l) k =
    (((g.betaStart : Int) + (((g.betaEnd : Int) - g.betaStart) * k).tdiv g.sweeps).toNat, g.shift) := by
  rw [betaAt, if_pos h]

theorem betaAt_rising {g : Segment} (l : List Segment) {k : Nat} (h : k < g.sweeps) (hrise : g.betaStart ≤ g.betaEnd) :
    betaAt (g :: l) k = (g.betaStart + (g.betaEnd - g.betaStart) * k / g.sweeps, g.shift) := by
  have hdiff : ((g.betaEnd : Int) - g.betaStart) * k = ((g.betaEnd - g.betaStart) * k : Nat) := by push_cast [hrise]; rfl
  rw [betaAt_within l h, hdiff, ← Int.ofNat_tdiv]
  norm_cast

theorem betaAt_falling {g : Segment} (l : List Segment) {k : Nat} (h : k < g.sweeps) (hfall : g.betaEnd ≤ g.betaStart) :
    betaAt (g :: l) k = (g.betaStart - (g.betaStart - g.betaEnd) * k / g.sweeps, g.shift) := by
  have hdiff : ((g.betaEnd : Int) - g.betaStart) * k = -((g.betaStart - g.betaEnd) * k : Nat) := by push_cast [hfall]; ring
  have hsub (a b : Nat) : ((a : Int) + -(b : Int)).toNat = a - b := by omega
  rw [betaAt_within l h, hdiff, Int.neg_tdiv, ← Int.ofNat_tdiv, hsub]

/-- Settles O44: the move by the sum of the weights, what it keeps, the schedule's segments. -/
theorem movesOfTheBurl : Obligations.MovesOfTheBurl := by
  unfold Obligations.MovesOfTheBurl
  refine ⟨?still, ?flips, Job.moveOnce_atMostOne, fun j => ⟨rfl, j.moveOnce_length, rfl⟩, fun _ l _ => betaAt_later l,
    fun _ l _ => betaAt_rising l, fun _ l _ => betaAt_falling l⟩
  case still =>
    rintro j w rfl hsum
    exact Job.moveOnce_still hsum
  case flips =>
    rintro j w o r i rfl rfl rfl hi hlow hhigh
    exact Job.moveOnce_flips hi hlow hhigh

end Sys2Proof.Machine

/-! ## Replays, RECOVERY and the loss of a die (O53; 13 R379, R386, R388, R389; 16 R455) -/

namespace Sys2Proof.Machine

/-! ### One link changed -/

/-- A change of one Envan link: that link is as changed, every other as before. -/
theorem State.modEnvan_envan (s : State) (l : Nat) (f : Envan → Envan) :
    (s.modEnvan l f).envan l = f (s.envan l) ∧ ∀ m, m ≠ l → (s.modEnvan l f).envan m = s.envan m :=
  ⟨s.modEnvan_envan_same l f, fun _ h => s.modEnvan_envan_ne f h⟩

/-- A change of a link is what it makes of the link as it stands. -/
theorem State.modEnvan_congr {s : State} {l : Nat} {f g : Envan → Envan} (h : f (s.envan l) = g (s.envan l)) :
    s.modEnvan l f = s.modEnvan l g := by
  show { s with envans := tabSet l (f (s.envan l)) s.envans } = _
  rw [h]
  rfl

/-! ### Retraining in place (13 R379; 16 R455) -/

theorem Spindle.retrain_of_up {x : Spindle} (h : x.state = .up) : x.retrain = { x with state := .recovery, crcRun := 0 } := if_pos h

theorem Spindle.retrain_of_notUp {x : Spindle} (h : x.state ≠ .up) : x.retrain = x := if_neg h

theorem Envan.retrain_of_up {x : Envan} (h : x.state = .up) : x.retrain = { x with state := .recovery, crcRun := 0 } := if_pos h

theorem exec_flitCrcError_counts {s : State} {d : Nat} {x : Bool} (h : (s.die d).state ≠ .up ∨ x = false ∨ (s.die d).crcRun + 1 < 16) :
    exec (.flitCrcError (.spindle d) x) s =
      .next (s.modDie d fun y => { y with crc := y.crc + 1, crcRun := if x then y.crcRun + 1 else 1 }) := by
  refine congrArg Host.Outcome.next (State.modDie_congr ?_)
  by_cases hrun : 16 ≤ (if x then (s.die d).crcRun + 1 else 1)
  · refine (if_pos hrun).trans (Spindle.retrain_of_notUp ?_)
    obtain h | rfl | h := h
    · exact h
    · simp at hrun
    · split at hrun <;> omega
  · exact if_neg hrun

theorem exec_flitCrcError_retrains {s : State} {d : Nat} (hup : (s.die d).state = .up) (hrun : 16 ≤ (s.die d).crcRun + 1) :
    exec (.flitCrcError (.spindle d) true) s = .next (s.modDie d fun y => { y with crc := y.crc + 1, state := .recovery, crcRun := 0 }) := by
  refine congrArg Host.Outcome.next (State.modDie_congr ?_)
  exact (if_pos hrun).trans (Spindle.retrain_of_up hup)

theorem exec_flitCrcError_retrains_envan {s : State} {l : Nat} (hup : (s.envan l).state = .up) (hrun : 16 ≤ (s.envan l).crcRun + 1) :
    exec (.flitCrcError (.envan l) true) s = .next (s.modEnvan l fun y => { y with crc := y.crc + 1, state := .recovery, crcRun := 0 }) := by
  refine congrArg Host.Outcome.next (State.modEnvan_congr ?_)
  exact (if_pos hrun).trans (Envan.retrain_of_up hup)

theorem exec_flitAckTimeout_up {s : State} {d : Nat} (h : (s.die d).state = .up) :
    exec (.flitAckTimeout d) s = .next (s.modDie d fun x => { x with state := .recovery, crcRun := 0 }) :=
  congrArg Host.Outcome.next (State.modDie_congr (Spindle.retrain_of_up h))

/-! ### The end of RECOVERY (13 R386, R388) -/

/-- Messages to a die that is not in RECOVERY go out in order, and no port changes. -/
theorem State.foldl_sendDie {s : State} {d : Nat} (l : List DieMsg) (h : (s.die d).state ≠ .recovery) :
    (l.foldl (fun s m => s.sendDie d m) s).spindles = s.spindles ∧
    (l.foldl (fun s m => s.sendDie d m) s).out = s.out ++ l.map (Out.die d) := by
  induction l generalizing s with
  | nil => simp
  | cons m l ih =>
    obtain ⟨v, hv⟩ := s.countPerf_eq (64 + 4 * d) m.bytes
    have hsent : s.sendDie d m = { s with perf := v, out := s.out ++ [.die d m] } := by
      rw [State.sendDie, if_neg h, hv]
      rfl
    obtain ⟨hspindles, hout⟩ := ih (s := s.sendDie d m) (by rw [hsent]; exact h)
    rw [List.foldl_cons, hspindles, hout, hsent]
    simp

/-- A port that has no request queued resumes: it is UP, and the messages it held are sent, those of the HOLD class first. -/
theorem State.portResumes_unqueued {s : State} {d : Nat} (h : (s.die d).queue = []) :
    (s.portResumes d).spindles = (s.modDie d fun x => { x with state := .up, recoveries := x.recoveries + 1, heldMsgs := [] }).spindles ∧
    (s.portResumes d).out = s.out ++
      ((s.die d).heldMsgs.filter DieMsg.isHold ++ (s.die d).heldMsgs.filter fun m => !m.isHold).map (Out.die d) := by
  let up := s.modDie d fun x => { x with state := .up, recoveries := x.recoveries + 1, heldMsgs := [] }
  have hdie : up.die d = { s.die d with state := .up, recoveries := (s.die d).recoveries + 1, heldMsgs := [] } := s.modDie_die_same d _
  obtain ⟨hspindles, hout⟩ := up.foldl_sendDie (d := d)
    ((s.die d).heldMsgs.filter DieMsg.isHold ++ (s.die d).heldMsgs.filter fun m => !m.isHold) (by simp [hdie])
  have hqueue : ((((s.die d).heldMsgs.filter DieMsg.isHold ++ (s.die d).heldMsgs.filter fun m => !m.isHold).foldl
      (fun s m => s.sendDie d m) up).die d).queue = [] := by
    rw [State.die, hspindles]
    exact (congrArg Spindle.queue hdie).trans h
  have hresumes : s.portResumes d = (((s.die d).heldMsgs.filter DieMsg.isHold ++ (s.die d).heldMsgs.filter fun m => !m.isHold).foldl
      (fun s m => s.sendDie d m) up) := by
    show State.pumpPort _ d (List.length (State.die _ d).queue) = _
    rw [hqueue]
    rfl
  exact hresumes ▸ ⟨hspindles, hout⟩

theorem exec_spRecoveryDone_resumes {s : State} {d : Nat} (h : (s.die d).state = .recovery) :
    exec (.spRecoveryDone d true) s = .next (s.portResumes d) := by
  rw [exec_spRecoveryDone, execSpRecoveryDone]
  simp [h]

/-- A failure within a second of the one remembered loses the die. -/
theorem exec_spRecoveryDone_loses {s : State} {d : Nat} {v : BitVec 64} (h : (s.die d).state = .recovery)
    (hlast : (s.die d).failedRecovery = some v) (hsoon : s.now.toNat ≤ v.toNat + 1000000) :
    exec (.spRecoveryDone d false) s = .next (s.dieLost d 6) := by
  rw [exec_spRecoveryDone, execSpRecoveryDone]
  simp [h, hlast, hsoon]

theorem exec_spRecoveryDone_remembers {s : State} {d : Nat} (h : (s.die d).state = .recovery) (hlast : (s.die d).failedRecovery = none) :
    exec (.spRecoveryDone d false) s = .next (s.modDie d fun x => { x with failedRecovery := some s.now }) := by
  rw [exec_spRecoveryDone, execSpRecoveryDone]
  simp [h, hlast]

/-! ### A request outstanding for 2 ms (13 R388) -/

theorem exec_spRequestTimeout_overdue {s : State} {d : Nat} (h : (s.die d).inService = true) (hold : s.dieOverdue d = true) :
    exec (.spRequestTimeout d) s = .next (s.dieLost d 7) :=
  congrArg Host.Outcome.next (if_pos ⟨h, hold⟩)

theorem exec_spRequestTimeout_none {s : State} {d : Nat} (h : s.dieOverdue d = false) : exec (.spRequestTimeout d) s = .next s :=
  congrArg Host.Outcome.next (if_neg (by simp [h]))

theorem State.logFault_hubFault (s : State) (cls code : Nat) (a b : BitVec 64) : (s.logFault cls code a b).hubFault = true := by
  rw [State.hubFault, Bool.not_eq_true', List.isEmpty_eq_false_iff_exists_mem]
  exact ⟨_, s.logFault_mem cls code a b⟩

theorem State.dieLost_hubFault (s : State) (d : Nat) (cause : BitVec 4) : (s.dieLost d cause).hubFault = true :=
  State.logFault_hubFault ..

/-- Settles O53: the replays counted, the retraining of either kind of link, the end of RECOVERY, the request outstanding too long. -/
theorem dieLinksAndLoss : Obligations.DieLinksAndLoss := by
  unfold Obligations.DieLinksAndLoss
  refine ⟨?counts, ?retrains, ?retrainsEnvan, ?ack, ?resumes, ?loses, ?remembers,
    fun s d => exec_spRequestTimeout_overdue, fun s d => exec_spRequestTimeout_none, ?fault⟩
  case counts =>
    intro s d x h
    obtain ⟨hd, hother⟩ := s.modDie_die d fun y => { y with crc := y.crc + 1, crcRun := if x then y.crcRun + 1 else 1 }
    exact ⟨_, exec_flitCrcError_counts h, hd, hother, rfl⟩
  case retrains => exact fun s d hup hrun => ⟨_, exec_flitCrcError_retrains hup hrun, s.modDie_die d _⟩
  case retrainsEnvan =>
    intro s l hup hrun
    obtain ⟨hl, hother⟩ := s.modEnvan_envan l fun y => { y with crc := y.crc + 1, state := .recovery, crcRun := 0 }
    exact ⟨_, exec_flitCrcError_retrains_envan hup hrun, hl, rfl, hother⟩
  case ack => exact fun s d hup => ⟨_, exec_flitAckTimeout_up hup, s.modDie_die d _⟩
  case resumes =>
    intro s d hrec hqueue
    obtain ⟨hspindles, hout⟩ := State.portResumes_unqueued hqueue
    obtain ⟨hd, hother⟩ := s.modDie_die d fun x => { x with state := .up, recoveries := x.recoveries + 1, heldMsgs := [] }
    have hdie (e : Nat) : (s.portResumes d).die e =
        (s.modDie d fun x => { x with state := .up, recoveries := x.recoveries + 1, heldMsgs := [] }).die e :=
      congrArg (tabGet · Spindle.reset e) hspindles
    exact ⟨_, exec_spRecoveryDone_resumes hrec, (hdie d).trans hd, hout, fun e he => (hdie e).trans (hother e he)⟩
  case loses => exact fun s d v => exec_spRecoveryDone_loses
  case remembers => exact fun s d hrec hlast => ⟨_, exec_spRecoveryDone_remembers hrec hlast, s.modDie_die d _⟩
  case fault => exact fun s d hserves hold => ⟨_, exec_spRequestTimeout_overdue hserves hold, s.dieLost_hubFault d 7⟩

end Sys2Proof.Machine

/-! ## The cascade but for its messages that wait: what sending and settling routes leave of it (16 R456) -/

namespace Sys2Proof.Machine

/-- What each step of a fold keeps, the fold keeps. -/
theorem State.foldl_keeps {α β : Type} {g : State → β} {f : State → α → State} (h : ∀ s x, g (f s x) = g s) (l : List α) (s : State) :
    g (l.foldl f s) = g s :=
  l.foldlRecOn f (motive := fun t => g t = g s) rfl fun t ht x _ => (h t x).trans ht

/-- The cascade without the messages that wait for a route. -/
def State.cascadeCore (s : State) : Cascade := { s.cascade with waiting := [] }

theorem State.cascadeCore_of_eq {s t : State} (h : t.cascade = s.cascade) : t.cascadeCore = s.cascadeCore := by
  rw [State.cascadeCore, h, State.cascadeCore]

/-- What is kept of the cascade but for its waiting messages is kept of any other part of it. -/
theorem State.cascade_part {α : Type} {g : Cascade → α} (h : ∀ c l, g { c with waiting := l } = g c) {s t : State}
    (e : t.cascadeCore = s.cascadeCore) : g t.cascade = g s.cascade :=
  (h t.cascade []).symm.trans ((congrArg g e).trans (h s.cascade []))

@[simp] theorem State.sendHub_cascadeCore (s : State) (h : Nat) (m : EnvanMsg) : (s.sendHub h m).cascadeCore = s.cascadeCore := by
  rw [State.sendHub]
  split_ifs
  · rfl
  · cases s.linkTo h with
    | none => rfl
    | some l => exact State.cascadeCore_of_eq ((State.countPerf_kept ..).rest .cascade rfl)

@[simp] theorem State.foldl_sendHub_cascadeCore {α : Type} (l : List α) (h : State → α → Nat) (m : State → α → EnvanMsg) (s : State) :
    (l.foldl (fun s x => s.sendHub (h s x) (m s x)) s).cascadeCore = s.cascadeCore :=
  State.foldl_keeps (g := State.cascadeCore) (fun _ _ => State.sendHub_cascadeCore ..) l s

@[simp] theorem State.sendWaiting_cascadeCore (s : State) : s.sendWaiting.cascadeCore = s.cascadeCore := by
  rw [State.sendWaiting, State.foldl_keeps (g := State.cascadeCore)]
  · rfl
  · exact fun s k => State.foldl_sendHub_cascadeCore ..

@[simp] theorem State.freezeHere_cascadeCore (s : State) (p : Placement) : (s.freezeHere p).cascadeCore = s.cascadeCore :=
  State.cascadeCore_of_eq ((s.freezeHere_kept p).rest .cascade rfl)

@[simp] theorem State.freezeAll_cascadeCore (s : State) (p : Placement) : (s.freezeAll p).cascadeCore = s.cascadeCore := by
  rw [State.freezeAll]
  split_ifs
  · exact s.freezeHere_cascadeCore p
  · exact (State.foldl_sendHub_cascadeCore ..).trans (s.freezeHere_cascadeCore p)

@[simp] theorem State.modPlacement_cascadeCore (s : State) (home b n : Nat) (f : Placement → Placement) :
    (s.modPlacement home b n f).cascadeCore = s.cascadeCore :=
  rfl

@[simp] theorem State.tryRelease_cascadeCore (s : State) (b n : Nat) : (s.tryRelease b n).cascadeCore = s.cascadeCore := by
  rw [State.tryRelease]
  cases s.ownPlacement b n with
  | none => rfl
  | some p =>
    dsimp only
    split_ifs <;> simp

@[simp] theorem State.settleRoutes_cascadeCore (s : State) : s.settleRoutes.cascadeCore = s.cascadeCore := by
  refine (State.foldl_keeps (g := State.cascadeCore) (fun s p => ?_) s.placements s.sendWaiting).trans s.sendWaiting_cascadeCore
  split_ifs <;> simp

theorem State.settleRoutes_envan (s : State) (l : Nat) : s.settleRoutes.envan l = s.envan l :=
  congrArg (tabGet · Envan.reset l) (s.settleRoutes_kept.rest .envans rfl)

theorem State.setRole_state (s : State) (r : CascadeState) : (s.setRole r).cascade.state = r := rfl

end Sys2Proof.Machine

/-! ## Envan links: training, RECOVERY, back-off, silence (O57; 16 R384, R454, R455, R477) -/

namespace Sys2Proof.Machine

/-- A link changed first, and nothing of the links after it. -/
theorem Kept.oneEnvan {m : Nat} {s t : State} {l : Nat} {f : Envan → Envan} (h : Kept m (s.modEnvan l f) t)
    (hm : m.testBit Part.envans.bit = false) : t.envan l = f (s.envan l) ∧ ∀ k, k ≠ l → t.envan k = s.envan k := by
  have hsame (k : Nat) : t.envan k = (s.modEnvan l f).envan k := congrArg (tabGet · Envan.reset k) (h.rest .envans hm)
  exact ⟨(hsame l).trans (s.modEnvan_envan_same l f), fun k hk => (hsame k).trans (s.modEnvan_envan_ne f hk)⟩

/-! ### Training (16 R454) -/

theorem State.envanFail_envan (s : State) (l : Nat) (cause : BitVec 4) :
    (s.envanFail l cause).envan l = { s.envan l with
      state := if 8 ≤ (s.envan l).fails then .absent else .backoff
      fails := if 8 ≤ (s.envan l).fails then (s.envan l).fails else (s.envan l).fails + 1
      cause := cause, partner := 0, partnerLink := 0 } ∧
    ∀ m, m ≠ l → (s.envanFail l cause).envan m = s.envan m := by
  have h := Kept.oneEnvan (f := fun x => { x with
    state := if decide (8 ≤ (s.envan l).fails) then .absent else .backoff
    fails := if decide (8 ≤ (s.envan l).fails) then (s.envan l).fails else (s.envan l).fails + 1
    cause := cause, partner := 0, partnerLink := 0 }) ((State.addDeadline_kept ..).then (State.cancelDeadline_kept ..))
    rfl (s := s) (l := l) (t := s.envanFail l cause)
  simpa only [decide_eq_true_eq] using h

section Fitted

variable {s : State} {l : Nat} (hfit : s.envanFitted l = true)

include hfit

theorem exec_elTrainingDone_up {h k n : Nat} {i : BitVec 64} (hstate : (s.envan l).state = .training ∨ (s.envan l).state = .recovery)
    (hi : i ≠ s.cascade.inst) : exec (.elTrainingDone l (.up h i k n)) s = .next ((((s.modEnvan l fun x => { x with
      state := .up, cause := 0, partner := h, partnerLink := k, delayNs := BitVec.ofNat 32 n
      attempts := 0, fails := 0, crcRun := 0 }).cancelDeadline (.envanRetry l)).stir 10).linkCame) := by
  rw [exec_elTrainingDone, execElTrainingDone, if_neg (by obtain h | h := hstate <;> simp [hfit, h])]
  exact if_neg hi

/-- A link that trains to this very instance has failed. -/
theorem exec_elTrainingDone_own {h k n : Nat} (hstate : (s.envan l).state = .training) :
    exec (.elTrainingDone l (.up h s.cascade.inst k n)) s = .next (s.envanFail l 4) := by
  rw [exec_elTrainingDone, execElTrainingDone, if_neg (by simp [hfit, hstate])]
  exact if_pos rfl

theorem exec_elTrainingDone_failed {k : BitVec 4} (hstate : (s.envan l).state = .training) :
    exec (.elTrainingDone l (.failed k)) s = .next (s.envanFail l k) := by
  rw [exec_elTrainingDone, execElTrainingDone, if_neg (by simp [hfit, hstate])]
  exact if_pos hstate

/-! ### RECOVERY (13 R384; 16 R455) -/

theorem exec_elTrainingDone_retrains {k : BitVec 4} {v : BitVec 64} (hstate : (s.envan l).state = .recovery)
    (hlast : (s.envan l).failedRecovery = some v) (hsoon : s.now.toNat ≤ v.toNat + 1000000) :
    exec (.elTrainingDone l (.failed k)) s = .next (s.modEnvan l fun x => { x with
      state := .training, cause := 5, attempts := 1, fails := 0, partner := 0, partnerLink := 0, failedRecovery := none }) := by
  rw [exec_elTrainingDone, execElTrainingDone, if_neg (by simp [hfit, hstate])]
  simp [hstate, hlast, hsoon]

theorem exec_elTrainingDone_remembers {k : BitVec 4} (hstate : (s.envan l).state = .recovery)
    (hlast : (s.envan l).failedRecovery = none) :
    exec (.elTrainingDone l (.failed k)) s = .next (s.modEnvan l fun x => { x with failedRecovery := some s.now }) := by
  rw [exec_elTrainingDone, execElTrainingDone, if_neg (by simp [hfit, hstate])]
  simp [hstate, hlast]

/-! ### Back-off (16 R454) -/

/-- The back-off has passed, the link's domain is on: the link trains, or is given up after its eighth failure. -/
theorem exec_elBackoffExpiry_due (hwaits : s.envanWaits l = false) (hon : s.domainOn 10 = true) (hphase : s.chip.phase = .running)
    (hstate : (s.envan l).state = .backoff) : exec (.elBackoffExpiry l) s = .next (
      if 8 ≤ (s.envan l).fails then
        ((s.modEnvan l fun x => { x with state := .absent }).cancelDeadline (.envanRetry l)).addDeadline (.envanRetry l) s.in10s
      else (s.cancelDeadline (.envanRetry l)).modEnvan l Envan.attempt) := by
  rw [exec_elBackoffExpiry, execElBackoffExpiry, if_neg (by simp [hfit, hwaits, hphase, hstate]), State.ownedBy_on hon]
  simp only [hstate, true_and]

end Fitted

theorem exec_elBackoffExpiry_early {s : State} {l : Nat} (h : s.envanWaits l = true) : exec (.elBackoffExpiry l) s = .next s := by
  rw [exec_elBackoffExpiry, execElBackoffExpiry, if_pos (.inr (.inl h))]

/-! ### Silence (16 R477) -/

/-- The link that falls silent is DOWN. -/
def Envan.silent (x : Envan) : Envan := { x with state := .down, partner := 0, partnerLink := 0, crcRun := 0 }

theorem exec_elFlitSilence_up {s : State} {l : Nat} (h : s.linkUp l = true) : exec (.elFlitSilence l) s = .next (
    (if (s.modEnvan l Envan.silent).anyLinkUp ∨ s.isMaster then s.modEnvan l Envan.silent
      else (s.modEnvan l Envan.silent).setRole .alone).settleRoutes) := by
  rw [exec_elFlitSilence, execElFlitSilence, if_neg (not_not_intro h)]
  rfl

/-- The last link that was up has fallen silent. -/
theorem State.anyLinkUp_silent {s : State} {l : Nat} (h : ∀ m, m < s.nEnvans → m ≠ l → s.linkUp m = false) :
    (s.modEnvan l Envan.silent).anyLinkUp = false := by
  rw [State.anyLinkUp, List.any_eq_false]
  intro m hm
  rw [State.linkUp]
  by_cases hml : m = l
  · subst hml
    rw [State.modEnvan_envan_same, Envan.silent]
    simp
  · rw [State.modEnvan_envan_ne _ _ hml]
    have := h m (List.mem_range.mp hm) hml
    rw [State.linkUp] at this
    simpa using this

theorem silenced_kept (s : State) : Kept 0x121048002 s
    (if s.anyLinkUp ∨ s.isMaster then s else s.setRole .alone).settleRoutes :=
  (State.settleRoutes_kept _).step rfl (.ite (.refl ..) ((s.setRole_kept .alone).mono rfl))

/-- Settles O57: what training, RECOVERY, the end of the back-off and silence make of the link, and that only it changes. -/
theorem envanLinks : Obligations.EnvanLinks := by
  unfold Obligations.EnvanLinks
  refine ⟨?up, ?own, ?failed, ?retrains, ?remembers, ?trains, ?absent, fun s l => exec_elBackoffExpiry_early, ?silence⟩
  case up =>
    intro s l h k n i hfit hstate hi
    exact ⟨_, exec_elTrainingDone_up hfit hstate hi, Kept.oneEnvan ((State.linkCame_kept _).then
      ((State.stir_kept ..).step rfl ((State.cancelDeadline_kept ..).mono rfl))) rfl⟩
  case own =>
    intro s l h k n hfit hstate hfails
    obtain ⟨hl, hother⟩ := s.envanFail_envan l 4
    exact ⟨_, exec_elTrainingDone_own hfit hstate, by rw [hl]; simp; omega, by rw [hl], by rw [hl]; simp; omega, hother⟩
  case failed => exact fun s l k hfit hstate => ⟨_, exec_elTrainingDone_failed hfit hstate, s.envanFail_envan l k⟩
  case retrains =>
    intro s l k v hfit hstate hlast hsoon
    refine ⟨_, exec_elTrainingDone_retrains hfit hstate hlast hsoon, ?_, ?_, ?_, fun m hm => s.modEnvan_envan_ne _ hm⟩
    all_goals rw [State.modEnvan_envan_same]
  case remembers => exact fun s l k hfit hstate hlast => ⟨_, exec_elTrainingDone_remembers hfit hstate hlast, s.modEnvan_envan l _⟩
  case trains =>
    intro s l hfit hwaits hon hphase hstate hfails
    obtain ⟨hl, hother⟩ := (s.cancelDeadline (.envanRetry l)).modEnvan_envan l Envan.attempt
    exact ⟨_, (exec_elBackoffExpiry_due hfit hwaits hon hphase hstate).trans (congrArg _ (if_neg (by omega))), hl, by rw [hl]; rfl, hother⟩
  case absent =>
    intro s l hfit hwaits hon hphase hstate hfails
    exact ⟨_, (exec_elBackoffExpiry_due hfit hwaits hon hphase hstate).trans (congrArg _ (if_pos hfails)),
      Kept.oneEnvan ((State.addDeadline_kept ..).then (State.cancelDeadline_kept ..)) rfl⟩
  case silence =>
    intro s l hup
    obtain ⟨hl, hother⟩ := Kept.oneEnvan (silenced_kept (s.modEnvan l Envan.silent)) rfl
    refine ⟨_, exec_elFlitSilence_up hup, hl, hother, fun hlast hmaster => ?_⟩
    rw [if_neg (by simp [State.anyLinkUp_silent hlast, hmaster]),
      State.cascade_part (g := Cascade.state) (fun _ _ => rfl) (State.settleRoutes_cascadeCore _), State.setRole_state]

end Sys2Proof.Machine

/-! ## Presence, silence, the master claim, charters (O58; 16 R459–R475; 21 R586) -/

namespace Sys2Proof.Machine

/-! ### Messages that no route holds back (16 R456) -/

@[simp] theorem State.flood_cascadeCore (s : State) (m : EnvanMsg) : (s.flood m).cascadeCore = s.cascadeCore :=
  State.foldl_sendHub_cascadeCore ..

/-- A message of no credit class leaves at once. -/
theorem State.sendHub_unranked (s : State) (h : Nat) {m : EnvanMsg} (hm : m.rank = none) :
    (s.sendHub h m).out = s.out ++ [.envan h m] ∧ (s.sendHub h m).cascade = s.cascade := by
  rw [State.sendHub, if_neg (by simp [hm])]
  cases s.linkTo h with
  | none => exact ⟨rfl, rfl⟩
  | some l =>
    have hkept := s.countPerf_kept (96 + 4 * l) m.bytes
    exact ⟨congrArg (· ++ [Out.envan h m]) (hkept.rest .out rfl), hkept.rest .cascade rfl⟩

theorem State.foldl_sendHub_unranked {m : EnvanMsg} (hm : m.rank = none) (l : List Nat) (s : State) :
    (l.foldl (fun s h => s.sendHub h m) s).out = s.out ++ l.map (Out.envan · m) ∧
    (l.foldl (fun s h => s.sendHub h m) s).cascade = s.cascade := by
  induction l generalizing s with
  | nil => simp
  | cons h l ih =>
    obtain ⟨hout, hcascade⟩ := s.sendHub_unranked h hm
    obtain ⟨hout', hcascade'⟩ := ih (s.sendHub h m)
    rw [List.foldl_cons, hout', hcascade', hout, hcascade]
    simp

/-- What goes to every reachable hub. -/
theorem State.flood_unranked {m : EnvanMsg} (hm : m.rank = none) (s : State) :
    (∀ h ∈ s.reachable, Out.envan h m ∈ (s.flood m).out) ∧ (s.flood m).cascade = s.cascade := by
  obtain ⟨hout, hcascade⟩ := State.foldl_sendHub_unranked hm s.reachable s
  refine ⟨fun h hh => ?_, hcascade⟩
  rw [State.flood, hout]
  exact List.mem_append_right _ (List.mem_map_of_mem hh)

/-! ### Presence (16 R459, R464) -/

theorem exec_presenceSend_linked {s : State} (h : s.anyLinkUp = true) : exec .presenceSend s = .next s.sendPresence :=
  congrArg Host.Outcome.next (if_pos h)

theorem exec_presenceSend_alone {s : State} (h : s.anyLinkUp = false) : exec .presenceSend s = .next s :=
  congrArg Host.Outcome.next (if_neg (by simp [h]))

/-- A hub not heard before is added. -/
theorem exec_presenceReceived_new {s : State} {h : Nat} {i e : BitVec 64} {x : Bool} {f : BitVec 3} (hlink : s.anyLinkUp = true)
    (hi : i ≠ s.cascade.inst) (hnew : s.presenceOf h = none) :
    exec (.presenceReceived h i x e f) s = .next { s with cascade := { s.cascade with
      presence := s.cascade.presence ++ [(h, ⟨i, x, s.now, false, f⟩)]
      highest := if s.cascade.highest.toNat < e.toNat then e else s.cascade.highest } } := by
  rw [exec_presenceReceived, execPresenceReceived, if_neg (by simp [hlink, hi])]
  simp [hnew]

theorem exec_presenceReceived_own {s : State} {h : Nat} {i e : BitVec 64} {x : Bool} {f : BitVec 3} (hi : i = s.cascade.inst) :
    exec (.presenceReceived h i x e f) s = .next s := by
  rw [exec_presenceReceived, execPresenceReceived, if_pos (.inr hi)]

/-! ### Silence (16 R464, R475) -/

/-- The record of a hub that has fallen silent. -/
def presenceGone (hub : Nat) (e : Nat × Presence) : Nat × Presence := if e.1 = hub then (hub, { e.2 with silent := true }) else e

theorem State.live_of_gone {s t : State} {h : Nat} (ht : t.cascade.presence = s.cascade.presence.map (presenceGone h)) : t.live h = false := by
  have hgone (e : Nat × Presence) : ((presenceGone h e).1 == h) = (e.1 == h) := by
    unfold presenceGone
    split_ifs with he
    · simp [he]
    · rfl
  rw [State.live, State.presenceOf, ht, List.find?_map]
  cases hfind : s.cascade.presence.find? ((fun e => e.1 == h) ∘ presenceGone h) with
  | none => rfl
  | some e =>
    have he : e.1 = h := by simpa [hgone] using List.find?_some hfind
    simp [presenceGone, he]

theorem exec_hubSilent_due {s : State} {h : Nat} {p : Presence} (hon : s.domainOn 8 = true) (hp : s.presenceOf h = some p)
    (hheard : p.silent = false) (hdue : p.heard.toNat + 2000000 ≤ s.now.toNat) : exec (.hubSilent h) s = .next (s.hubSilent h) := by
  rw [exec_hubSilent, execHubSilent, hp]
  exact (if_neg (by simp [hheard]; omega)).trans (congrArg _ (State.ownedBy_on hon _))

theorem exec_hubSilent_heard {s : State} {h : Nat} {p : Presence} (hp : s.presenceOf h = some p)
    (hearly : s.now.toNat < p.heard.toNat + 2000000) : exec (.hubSilent h) s = .next s := by
  rw [exec_hubSilent, execHubSilent, hp]
  exact if_pos (.inr hearly)

/-- Whatever the hub's role, the silent hub's record is marked and the charter stays. -/
theorem State.hubSilent_marks (s : State) (h : Nat) :
    (s.hubSilent h).cascade.presence = s.cascade.presence.map (presenceGone h) ∧ (s.hubSilent h).cascade.charter = s.cascade.charter := by
  unfold State.hubSilent
  dsimp only
  split_ifs <;> exact ⟨rfl, rfl⟩

/-- The master notes a member that it has lost. -/
theorem State.hubSilent_master {s : State} {h : Nat} (hmaster : s.isMaster = true) (hmember : s.member h = true) (hother : h ≠ s.hubId)
    (hnew : s.cascade.newLost.contains h = false) : (s.hubSilent h).cascade.newLost = s.cascade.newLost ++ [h] :=
  congrArg (fun t : State => t.cascade.newLost) ((if_pos hmaster).trans (if_pos ⟨hmember, hother, by simpa using hnew⟩))

/-! ### The master's claim (16 R461, R462) -/

theorem maskHubs_zero : maskHubs 0 = [] := by decide

@[simp] theorem State.hubsLost_nil (s : State) : s.hubsLost [] = s := rfl

theorem State.charterNotice_cascade (s : State) (cause : Nat) (c : Charter) : (s.charterNotice cause c).cascade = s.cascade :=
  (s.charterNotice_kept cause c).rest .cascade rfl

/-- The charter that a hub issues which knew none: it has lost no one. -/
theorem exec_masterClaim_first {s : State} (he : s.eligible = true) (hm : s.isMaster = false) (hsilent : s.charterSilent = true)
    (hline : s.firstInLine = true) (hnone : s.cascade.charter = none) :
    ∃ c : Charter, (c.epoch, c.master, c.lost) = (s.cascade.highest + 1, s.hubId, 0) ∧
      exec .masterClaim s = .next ((({ s with cascade := { s.cascade with
        charter := some c, highest := s.cascade.highest + 1, charterHeard := some s.now, newLost := [], nextStep := 0 } }.setRole
          .master).keepReport).charterNotice 1 c) := by
  rw [exec_masterClaim, execMasterClaim, if_neg (by simp [he, hm, hsilent, hline])]
  simp only [hnone, Option.map_none, Option.getD_none, show maskHubs (0 : BitVec 32) = [] from maskHubs_zero, List.filter_nil,
    State.hubsLost_nil]
  exact ⟨_, rfl, rfl⟩

theorem exec_masterClaim_none {s : State} (h : s.eligible = false ∨ s.isMaster = true ∨ s.charterSilent = false ∨ s.firstInLine = false) :
    exec .masterClaim s = .next s := by
  rw [exec_masterClaim, execMasterClaim, if_pos (by simpa using h)]

/-! ### The charter sent (16 R462, R466, R472) -/

/-- The charter as the master has it from now on. -/
def State.issued (s : State) (d : Charter) : State := { s with cascade := { s.cascade with
  charter := some d, highest := d.epoch, charterHeard := some s.now, newLost := [], nextStep := 0 } }

/-- The master sends the charter that it has, and its routes settle. -/
def State.sendCharter (s : State) : State := ((s.cascade.charter.map fun e => s.flood (.charter e)).getD s).settleRoutes

theorem State.sendCharter_cascadeCore (s : State) : s.sendCharter.cascadeCore = s.cascadeCore := by
  rw [State.sendCharter, State.settleRoutes_cascadeCore]
  cases s.cascade.charter with
  | none => rfl
  | some e => exact s.flood_cascadeCore (.charter e)

section Master

variable {s : State} {l : List (Nat × Nat × Nat)} {c : Charter} (hmaster : s.isMaster = true) (hc : s.cascade.charter = some c)
  (hlost : s.cascade.newLost = [])

include hmaster hc hlost

/-- Members, refusals and routes are as the charter has them: only its time is new. -/
theorem exec_charterSend_refreshes {m r : List Nat} (htime : c.timeBase ≠ 0) (hstep : s.cascade.nextStep = 0)
    (hreports : s.cascade.reports.isEmpty = true) (hnext : s.nextMembers l (maskHubs c.members) = (m, r)) (hm : hubMask m = c.members)
    (hr : hubMask r = c.refused) (hroutes : routesOf l m = c.routes) :
    exec (.charterSend l) s = .next (s.issued { c with timeBase := s.now }).sendCharter := by
  have hkept : ((maskHubs c.members).filter fun h => !([] : List Nat).contains h) = maskHubs c.members := by simp
  rw [exec_charterSend, execCharterSend, hc]
  simp only [hmaster, not_true_eq_false, if_false, beq_eq_false_iff_ne.mpr htime, hkept, hnext, hm, hr, hroutes, hlost, hstep,
    hreports, List.isEmpty_nil, bne_self_eq_false, Bool.not_true, Bool.not_false, Bool.or_self, Bool.and_false, Bool.false_eq_true,
    not_false_eq_true, and_false]
  rfl

/-- A step that is pending makes a new epoch. -/
theorem exec_charterSend_issues (hstep : s.cascade.nextStep ≠ 0) :
    ∃ d : Charter, (d.epoch, d.master, d.step, d.timeBase) = (c.epoch + 1, c.master, s.cascade.nextStep, s.now) ∧
      exec (.charterSend l) s = .next ((s.issued d).keepReport.charterNotice 1 d).sendCharter := by
  rw [exec_charterSend, execCharterSend, hc]
  simp only [hmaster, not_true_eq_false, if_false, bne_iff_ne.mpr hstep, Bool.or_true, if_true, hlost, State.hubsLost_nil]
  exact ⟨_, rfl, rfl⟩

end Master

theorem exec_charterSend_notMaster {s : State} (l : List (Nat × Nat × Nat)) (h : s.isMaster = false) :
    exec (.charterSend l) s = .next s := by
  rw [exec_charterSend, execCharterSend]
  cases s.cascade.charter with
  | none => rfl
  | some c => exact if_pos (by simp [h])

/-! ### A charter followed (16 R462, R466, R473) -/

/-- What a hub is in the rack: its state with the reason, the charter it follows, its guests. -/
def State.role (s : State) : CascadeState × BitVec 3 × Option Charter × Tab (Option Guest) :=
  (s.cascade.state, s.cascade.reason, s.cascade.charter, s.cascade.guests)

theorem State.role_of_cascade {s t : State} (h : t.cascade = s.cascade) : t.role = s.role := by rw [State.role, h, State.role]

theorem State.role_of_core {s t : State} (h : t.cascadeCore = s.cascadeCore) : t.role = s.role :=
  State.cascade_part (g := fun c => (c.state, c.reason, c.charter, c.guests)) (fun _ _ => rfl) h

@[simp] theorem State.sendHub_role (s : State) (h : Nat) (m : EnvanMsg) : (s.sendHub h m).role = s.role :=
  State.role_of_core (State.sendHub_cascadeCore ..)

theorem State.slew_role (s : State) (ns : Int) : (s.slew ns).role = s.role := by
  rw [State.slew]
  split_ifs <;> rfl

theorem State.forwardStep_cascade (s : State) (us : Nat) : (s.forwardStep us).cascade = s.cascade.stepTime (BitVec.ofNat 64 us) := by
  refine State.foldl_keeps (g := State.cascade) (fun t p => ?_) _ _
  cases p.release with
  | none => rfl
  | some r =>
    dsimp only
    split_ifs
    · exact (t.applyRelease_kept p r).rest .cascade rfl
    · rfl

theorem State.forwardStep_role (s : State) (us : Nat) : (s.forwardStep us).role = s.role := by
  rw [State.role, State.forwardStep_cascade]
  rfl

@[simp] theorem State.discipline_role (s : State) (ns : Int) : (s.discipline ns).role = s.role := by
  unfold State.discipline
  dsimp only
  split_ifs
  · exact State.slew_role ..
  · exact (State.slew_role ..).trans (State.forwardStep_role ..)
  · split <;> rfl
  · split
    · exact State.sendHub_role ..
    · rfl

@[simp] theorem State.heardCharter_role (s : State) (c : Charter) :
    (s.heardCharter c).role = (s.cascade.state, s.cascade.reason, some c, s.cascade.guests) :=
  State.role_of_cascade (s := { s with cascade := { s.cascade with charter := some c, charterHeard := some s.now } })
    (((State.addDeadline_kept ..).then (State.cancelDeadline_kept ..)).rest .cascade rfl)

@[simp] theorem State.charterNotice_role (s : State) (cause : Nat) (c : Charter) : (s.charterNotice cause c).role = s.role :=
  State.role_of_cascade (s.charterNotice_cascade cause c)

@[simp] theorem State.sendPresence_role (s : State) : s.sendPresence.role = s.role := State.role_of_core (State.flood_cascadeCore ..)

@[simp] theorem State.keepReport_role (s : State) : s.keepReport.role = s.role := rfl

@[simp] theorem State.settleRoutes_role (s : State) : s.settleRoutes.role = s.role := State.role_of_core s.settleRoutes_cascadeCore

/-- With no guest in any slot no guest is orphaned. -/
theorem State.orphans_none {s : State} (h : s.role.2.2.2 = []) :
    (s.cascade.guests.map Prod.fst).foldl (fun s g => s.orphanGuest g) s = s := by
  rw [show s.cascade.guests = [] from h]
  rfl

/-- A charter that loses no hub is followed: the hub stands as the charter has it. A hub left UNCHARTERED orphans its guests, of which it has none. -/
theorem State.follow_role {s : State} {c : Charter} (hlost : c.lost = 0) (hguests : (s.standing c).1 = .uncharted → s.cascade.guests = []) :
    (s.follow c).role = ((s.standing c).1, (s.standing c).2, some c, s.cascade.guests) := by
  unfold State.follow
  rcases hstanding : s.standing c with ⟨st, reason⟩
  rw [hstanding] at hguests
  simp only [hlost, maskHubs_zero, State.hubsLost_nil, State.settleRoutes_role, State.sendHub_role, State.keepReport_role,
    State.sendPresence_role, State.discipline_role, State.charterNotice_role, State.heardCharter_role, apply_ite State.role, ite_self]
  refine ite_eq_right_iff.mpr fun hst => ?_
  rw [State.orphans_none]
  · simp only [State.sendPresence_role, State.discipline_role, State.charterNotice_role, State.heardCharter_role,
      apply_ite State.role, ite_self]
  · simp only [State.sendPresence_role, State.discipline_role, State.charterNotice_role, State.heardCharter_role,
      apply_ite State.role, ite_self]
    exact hguests hst

/-- The epoch of a charter heard is kept where it is the highest yet. -/
def State.heardEpoch (s : State) (c : Charter) : State := { s with cascade := { s.cascade with
  highest := if s.cascade.highest.toNat < c.epoch.toNat then c.epoch else s.cascade.highest } }

/-- A hub that has no charter follows the first it hears. -/
theorem exec_charterReceived_follows {s : State} {c : Charter} (hlink : s.anyLinkUp = true) (hmaster : c.master ≠ s.hubId)
    (hnone : s.cascade.charter = none) : exec (.charterReceived c) s = .next ((s.heardEpoch c).follow c) := by
  have hnone' : (s.heardEpoch c).cascade.charter = none := hnone
  have hwins : (s.heardEpoch c).charterWins c = true := by rw [State.charterWins, hnone']
  rw [exec_charterReceived, execCharterReceived, if_neg (by simp [hlink, hmaster])]
  refine (if_neg (not_not_intro hwins)).trans ?_
  split
  · rfl
  · next d hd => exact absurd (hnone.symm.trans hd) (by simp)

theorem exec_charterReceived_alone {s : State} (c : Charter) (h : s.anyLinkUp = false) : exec (.charterReceived c) s = .next s := by
  rw [exec_charterReceived, execCharterReceived, if_pos (.inl (by simp [h]))]

theorem State.standing_otherFamily {s : State} {c : Charter} (hcfg : s.chip.cfg.map ImageCfg.defaults = some false)
    (hfamily : c.family ≠ s.family) : s.standing c = (.uncharted, 1) := by
  rw [State.standing, hcfg, if_neg (by simp), if_pos hfamily]

/-- A hub that the charter names, and of whose name no other is heard. -/
theorem State.standing_named {s : State} {c : Charter} (hcfg : s.chip.cfg.map ImageCfg.defaults = some false) (hfamily : c.family = s.family)
    (hversion : c.version = s.version) (hdigest : c.digest = s.digest) (hnamed : c.members.getLsbD s.hubId = true)
    (halone : s.live s.hubId = false) : s.standing c = (.chartered, 0) := by
  simp [State.standing, hcfg, hfamily, hversion, hdigest, hnamed, halone]

theorem exec_charterSnapshot_copies {s : State} (hdec : s.decodes s.mgmtFn.1 s.mgmtFn.2 = true) (ha : (s.bench 0).detached = false)
    (v : BitVec 32) : exec (.charterSnapshot v) s = .next (s.unstageHub.snapCharter v) :=
  congrArg Host.Outcome.next (State.fromMgmt_served hdec ha _)

/-- Settles O58: presence sent, heard and lost; the claim; the charter sent, followed and copied to its window. -/
theorem presenceAndCharters : Obligations.PresenceAndCharters := by
  unfold Obligations.PresenceAndCharters
  refine ⟨?sends, fun s => exec_presenceSend_alone, ?new, fun s h i e x f => exec_presenceReceived_own, ?silent,
    fun s h p => exec_hubSilent_heard, ?claims, fun s => exec_masterClaim_none, ?refreshes, ?issues,
    fun s l => exec_charterSend_notMaster l, ?otherFamily, ?named, fun s c => exec_charterReceived_alone c, ?snapshot⟩
  case sends =>
    intro s hlink
    obtain ⟨hout, hcascade⟩ := s.flood_unranked (m := .presence s.hubId s.cascade.inst s.eligible s.cascade.highest) rfl
    exact ⟨_, exec_presenceSend_linked hlink, hout, hcascade, s.sendPresence_kept.rest .hearth rfl⟩
  case new => exact fun s h i e x f hlink hi hnew => ⟨_, exec_presenceReceived_new hlink hi hnew, rfl, rfl, rfl, rfl⟩
  case silent =>
    intro s h p hon hp hheard hdue
    obtain ⟨hpresence, hcharter⟩ := s.hubSilent_marks h
    exact ⟨_, exec_hubSilent_due hon hp hheard hdue, State.live_of_gone hpresence, hcharter, State.hubSilent_master⟩
  case claims =>
    intro s he hm hsilent hline hnone
    obtain ⟨c, hc, hexec⟩ := exec_masterClaim_first he hm hsilent hline hnone
    refine ⟨_, hexec, ?_, ?_, ?_, ?_⟩
    all_goals simp only [State.isMaster, State.charterNotice_cascade]
    · rfl
    · exact congrArg some hc
    · rfl
    · rfl
  case refreshes =>
    intro s l c m r hmaster hc htime hlost hstep hreports hnext hm hr hroutes
    have hcore := (s.issued { c with timeBase := s.now }).sendCharter_cascadeCore
    exact ⟨_, exec_charterSend_refreshes hmaster hc hlost htime hstep (by simp [hreports]) hnext hm hr hroutes,
      State.cascade_part (g := Cascade.charter) (fun _ _ => rfl) hcore, State.cascade_part (g := Cascade.charterHeard) (fun _ _ => rfl) hcore,
      State.cascade_part (g := Cascade.highest) (fun _ _ => rfl) hcore⟩
  case issues =>
    intro s l c hmaster hc hlost hstep
    obtain ⟨d, hd, hexec⟩ := exec_charterSend_issues (l := l) hmaster hc hlost hstep
    have hcore : ((s.issued d).keepReport.charterNotice 1 d).sendCharter.cascadeCore = (s.issued d).keepReport.cascadeCore :=
      (State.sendCharter_cascadeCore _).trans (State.cascadeCore_of_eq (State.charterNotice_cascade ..))
    have hcharter := State.cascade_part (g := Cascade.charter) (fun _ _ => rfl) hcore
    have hhighest := State.cascade_part (g := Cascade.highest) (fun _ _ => rfl) hcore
    refine ⟨_, hexec, ?_, State.cascade_part (g := Cascade.nextStep) (fun _ _ => rfl) hcore, hhighest.trans (congrArg Prod.fst hd)⟩
    rw [hcharter]
    exact congrArg some hd
  case otherFamily =>
    intro s c hlink hmaster hnone hlost _ _ hcfg hfamily hguests
    have hstanding : (s.heardEpoch c).standing c = (.uncharted, 1) := State.standing_otherFamily hcfg hfamily
    have hrole := State.follow_role (s := s.heardEpoch c) hlost fun _ => hguests
    rw [hstanding] at hrole
    exact ⟨_, exec_charterReceived_follows hlink hmaster hnone, congrArg Prod.fst hrole, congrArg (·.2.1) hrole, congrArg (·.2.2.1) hrole⟩
  case named =>
    intro s c hlink hmaster hnone hlost _ _ hcfg hfamily hversion hdigest hnamed halone
    have hstanding : (s.heardEpoch c).standing c = (.chartered, 0) :=
      State.standing_named hcfg hfamily hversion hdigest hnamed halone
    have hrole := State.follow_role (s := s.heardEpoch c) hlost (by simp [hstanding])
    rw [hstanding] at hrole
    exact ⟨_, exec_charterReceived_follows hlink hmaster hnone, congrArg Prod.fst hrole, congrArg (·.2.1) hrole, congrArg (·.2.2.1) hrole⟩
  case snapshot => exact fun s v hdec ha => ⟨_, exec_charterSnapshot_copies hdec ha v, rfl, rfl, rfl⟩

end Sys2Proof.Machine

/-! ## Rack time, rosters, registrations (O59; 16 R468–R470, R474, R479) -/

namespace Sys2Proof.Machine

/-! ### Time statements (16 R468, R469) -/

theorem exec_timeStatementSend_master {s : State} (h : s.isMaster = true) : exec .timeStatementSend s = .next (s.flood (.time s.now 0)) :=
  congrArg Host.Outcome.next (if_pos h)

theorem exec_timeStatementSend_notMaster {s : State} (h : s.isMaster = false) : exec .timeStatementSend s = .next s :=
  congrArg Host.Outcome.next (if_neg (by simp [h]))

theorem exec_timeStatementReceived_chartered {s : State} (n d : Nat) (h : s.cascade.state = .chartered) :
    exec (.timeStatementReceived n d) s = .next (s.discipline ((n : Int) + d - s.now.toNat * 1000)) :=
  congrArg Host.Outcome.next (if_pos (.inr (.inl h)))

theorem exec_timeStatementReceived_ignored {s : State} (n d : Nat)
    (h : s.cascade.state = .alone ∨ s.cascade.state = .seeking ∨ s.cascade.state = .master) :
    exec (.timeStatementReceived n d) s = .next s := by
  refine congrArg Host.Outcome.next (if_neg ?_)
  obtain h | h | h := h <;> simp [h]

theorem State.discipline_near {s : State} {x : Int} (h : x.natAbs ≤ 20000) :
    s.discipline x = State.slew { s with cascade := { s.cascade with offset := x } } x := if_pos h

theorem State.discipline_behind {s : State} {x : Int} (h : 20000 < x) : s.discipline x =
    (State.forwardStep { s with cascade := { s.cascade with offset := x } } (x / 1000).toNat).slew (x % 1000) := by
  rw [State.discipline]
  exact (if_neg (by omega)).trans (if_pos (by omega))

/-- Within 250 ns the rate is whatever lies within its bounds. -/
theorem State.slew_disciplined {s : State} {x : Int} (h : x.natAbs ≤ 250) :
    ∃ r : Int, -50000 ≤ r ∧ r ≤ 50000 ∧ s.slew x = s.draw.2.setTime .disciplined r := by
  refine ⟨(s.draw.1.toNat % 100001 : Nat) - 50000, by omega, by omega, ?_⟩
  exact if_pos h

theorem State.slew_slewing {s : State} {x : Int} (h : 250 < x.natAbs) :
    s.slew x = s.setTime .slewing (max (-50000) (min 50000 (2 * x))) := if_neg (by omega)

theorem State.slew_time (s : State) (x : Int) : (s.slew x).hearth.time = s.hearth.time := by
  rw [State.slew]
  split_ifs <;> rfl

/-! ### A forward step (16 R470) -/

theorem State.forwardStep_hearth (s : State) (us : Nat) : (s.forwardStep us).hearth = s.hearth.stepTime (BitVec.ofNat 64 us) := by
  refine State.foldl_keeps (g := State.hearth) (fun t p => ?_) _ _
  cases p.release with
  | none => rfl
  | some r =>
    dsimp only
    split_ifs
    · exact (t.applyRelease_kept p r).rest .hearth rfl
    · rfl

theorem exec_hearthTimeReport_ahead {s : State} (h : Nat) {v : BitVec 64} (hmaster : s.isMaster = true) (hahead : s.now.toNat < v.toNat) :
    exec (.hearthTimeReport h v) s = .next { s.forwardStep (v.toNat + 1000 - s.now.toNat) with
      cascade := { (s.forwardStep (v.toNat + 1000 - s.now.toNat)).cascade with
        nextStep := (s.forwardStep (v.toNat + 1000 - s.now.toNat)).cascade.nextStep +
          BitVec.ofNat 64 (v.toNat + 1000 - s.now.toNat) } } := by
  rw [exec_hearthTimeReport, execHearthTimeReport, if_neg (by simp [hmaster]; omega)]

theorem exec_hearthTimeReport_behind {s : State} (h : Nat) {v : BitVec 64} (hbehind : v.toNat ≤ s.now.toNat) :
    exec (.hearthTimeReport h v) s = .next s := by
  rw [exec_hearthTimeReport, execHearthTimeReport, if_pos (.inr hbehind)]

/-! ### Delay probes (16 R468) -/

theorem exec_delayProbe_up {s : State} {l : Nat} (n : Nat) (h : s.linkUp l = true) : exec (.delayProbe l n) s =
    .next ((s.modEnvan l fun x => { x with delayNs := BitVec.ofNat 32 n }).sendHub (s.envan l).partner .probe) := by
  rw [exec_delayProbe, execDelayProbe, if_neg (not_not_intro h)]

/-! ### Reports and rosters (16 R474) -/

/-- A report is collected; while a member's is missing nothing is settled. -/
theorem exec_rosterReport_collected {s : State} {h m : Nat} (x : List (Nat × BitVec 16)) (y : List (Nat × Nat × BitVec 16))
    (hmaster : s.isMaster = true) (hmember : s.member h = true) (hreports : s.cascade.reports ≠ []) (hm : m < 32) (hmh : m ≠ h)
    (hmissing : s.member m = true) (hnone : (s.cascade.reports.any fun r => r.1 == m) = false) :
    exec (.rosterReport h x y) s = .next { s with cascade := { s.cascade with
      reports := (s.cascade.reports.filter fun r => r.1 != h) ++ [(h, x, y)] } } := by
  have htaken : s.takeReport h x y = { s with cascade := { s.cascade with
      reports := (s.cascade.reports.filter fun r => r.1 != h) ++ [(h, x, y)] } } := if_neg (by simpa using hreports)
  have hmissed : ((maskHubs ((s.cascade.charter.map Charter.members).getD 0)).all fun k =>
      (s.takeReport h x y).cascade.reports.any fun r => r.1 == k) = false := by
    have hlisted : m ∈ maskHubs ((s.cascade.charter.map Charter.members).getD 0) :=
      List.mem_filter.mpr ⟨List.mem_range.mpr hm, hmissing⟩
    refine List.all_eq_false.mpr ⟨m, hlisted, ?_⟩
    rw [htaken, List.any_append, List.any_filter]
    have hunreported : ∀ r ∈ s.cascade.reports, ¬ r.1 = m := by simpa using hnone
    simpa [hmh.symm] using fun a b hr => absurd rfl (hunreported (m, a, b) hr)
  rw [exec_rosterReport, execRosterReport, if_neg (by simp [hmaster, hmember]), ← htaken]
  exact congrArg Host.Outcome.next (if_neg (by simpa [htaken] using hmissed))

theorem exec_rosterReport_ignored {s : State} {h : Nat} (x : List (Nat × BitVec 16)) (y : List (Nat × Nat × BitVec 16))
    (hno : s.isMaster = false ∨ s.member h = false) : exec (.rosterReport h x y) s = .next s := by
  rw [exec_rosterReport, execRosterReport, if_pos (by simpa using hno)]

/-- With no guest and no bench that spans sleds, a roster only ends the collection of reports. -/
theorem State.actRoster_unspanned {s : State} (hguests : s.cascade.guests = []) (hspan : s.cascade.spanning = []) (old new : List RosterEntry) :
    s.actRoster old new = { s with cascade := { s.cascade with reports := [] } } := by
  rw [State.actRoster]
  simp only [hguests, hspan, List.map_nil, List.foldl_nil]

theorem exec_rosterUpdate_newer {s : State} {v : BitVec 64} (e : List RosterEntry) {c : Charter} (hc : s.cascade.charter = some c)
    (hstate : s.cascade.state = .chartered) (hseq : c.rosterSeq.toNat < v.toNat) (hguests : s.cascade.guests = [])
    (hspan : s.cascade.spanning = []) : exec (.rosterUpdate v e) s =
      .next { s with cascade := { s.cascade with charter := some { c with roster := e, rosterSeq := v }, reports := [] } } := by
  have hact := State.actRoster_unspanned
    (s := { s with cascade := { s.cascade with charter := some { c with roster := e, rosterSeq := v } } }) hguests hspan c.roster e
  rw [exec_rosterUpdate, execRosterUpdate, hc]
  exact (if_neg (by simp [hstate]; omega)).trans (congrArg Host.Outcome.next hact)

theorem exec_rosterUpdate_older {s : State} {v : BitVec 64} (e : List RosterEntry) {c : Charter} (hc : s.cascade.charter = some c)
    (hseq : v.toNat ≤ c.rosterSeq.toNat) : exec (.rosterUpdate v e) s = .next s := by
  rw [exec_rosterUpdate, execRosterUpdate, hc]
  exact if_pos (.inr hseq)

/-! ### Registrations (16 R479) -/

theorem State.toMembers_cascadeCore (s : State) (m : EnvanMsg) : (s.toMembers m).cascadeCore = s.cascadeCore :=
  State.foldl_sendHub_cascadeCore ..

theorem State.setRoster_spanning (s : State) (l : List RosterEntry) : (s.setRoster l).cascade.spanning = s.cascade.spanning := by
  unfold State.setRoster
  split
  · rfl
  · split_ifs
    · rfl
    · dsimp only
      rw [State.cascade_part (g := Cascade.spanning) (fun _ _ => rfl) (State.toMembers_cascadeCore ..)]

/-- The roster that the master sets is its charter's. -/
theorem State.setRoster_roster {s : State} {c : Charter} (hc : s.cascade.charter = some c) (l : List RosterEntry) :
    (s.setRoster l).cascade.charter.map Charter.roster = some l := by
  unfold State.setRoster
  rw [hc]
  dsimp only
  split_ifs with hsame
  · rw [hc, Option.map_some, hsame]
  · rw [State.cascade_part (g := Cascade.charter) (fun _ _ => rfl) (State.toMembers_cascadeCore ..)]
    rfl

theorem State.tellMaster_spanning (s : State) (b : Nat) : (s.tellMaster b).cascade.spanning = s.cascade.spanning := by
  unfold State.tellMaster
  dsimp only
  split
  · rfl
  · split_ifs
    · exact s.setRoster_spanning _
    · exact State.cascade_part (g := Cascade.spanning) (fun _ _ => rfl) (State.sendHub_cascadeCore ..)

theorem State.spanBench_spans (s : State) (b : Nat) : (s.spanBench b).cascade.spanning.contains b = true := by
  rw [State.spanBench]
  split_ifs with h
  · exact h
  · rw [State.tellMaster_spanning]
    simp

theorem exec_benchRegistration_own {s : State} {b : Nat} (k : Nat) (i : BitVec 16) (v : BitVec 32) (h : s.chartered = true)
    (hactive : (s.bench b).state = .active) : exec (.benchRegistration s.hubId b i k v) s = .next (s.spanBench b) := by
  rw [exec_benchRegistration, execBenchRegistration, if_neg (not_not_intro h), if_pos rfl, if_pos (.inl hactive)]

theorem State.chartered_of_isMaster {s : State} (h : s.isMaster = true) : s.chartered = true := by
  rw [State.chartered, show (s.cascade.state == CascadeState.master) = true from h, Bool.or_true]

theorem exec_benchRegistration_member {s : State} {h : Nat} (b k : Nat) (i : BitVec 16) (v : BitVec 32) {c : Charter}
    (hmaster : s.isMaster = true) (hother : h ≠ s.hubId) (hmember : s.member h = true) (hc : s.cascade.charter = some c) :
    exec (.benchRegistration h b i k v) s = .next (s.setRoster (rosterPut h b i k v c.roster)) := by
  rw [exec_benchRegistration, execBenchRegistration, if_neg (not_not_intro (State.chartered_of_isMaster hmaster)), if_neg hother,
    if_pos ⟨hmaster, hmember⟩, hc]
  rfl

/-- Settles O59: time stated, followed and stepped; a delay; reports and rosters; registrations. -/
theorem rackTimeAndRoster : Obligations.RackTimeAndRoster := by
  unfold Obligations.RackTimeAndRoster
  refine ⟨?sends, fun s => exec_timeStatementSend_notMaster, ?disciplined, ?slewing, ?steps, fun s n d => exec_timeStatementReceived_ignored n d,
    ?ahead, fun s h v => exec_hearthTimeReport_behind h, ?probe,
    fun s h m x y hmaster hmember hreports hm hmh => exec_rosterReport_collected x y hmaster hmember hreports hm hmh,
    fun s h x y => exec_rosterReport_ignored x y, ?newer, fun s v e c => exec_rosterUpdate_older e, ?own, ?member⟩
  case sends =>
    intro s hmaster
    obtain ⟨hout, hcascade⟩ := s.flood_unranked (m := .time s.now 0) rfl
    exact ⟨_, exec_timeStatementSend_master hmaster, hout, (s.flood_kept _).rest .hearth rfl, hcascade⟩
  case disciplined =>
    intro s n d hstate hlow hhigh
    obtain ⟨r, hr, hr', hslew⟩ := State.slew_disciplined (s := { s with cascade := { s.cascade with
      offset := (n : Int) + d - s.now.toNat * 1000 } }) (x := (n : Int) + d - s.now.toNat * 1000) (by omega)
    refine ⟨_, exec_timeStatementReceived_chartered n d hstate, ?_⟩
    rw [State.discipline_near (by omega), hslew]
    exact ⟨rfl, rfl, rfl, hr, hr'⟩
  case slewing =>
    rintro s n d x hstate rfl hlow hhigh
    refine ⟨_, exec_timeStatementReceived_chartered n d hstate, ?_⟩
    rw [State.discipline_near hhigh, State.slew_slewing hlow]
    exact ⟨rfl, rfl, rfl⟩
  case steps =>
    rintro s n d x hstate rfl hbehind
    refine ⟨_, exec_timeStatementReceived_chartered n d hstate, ?_⟩
    rw [State.discipline_behind hbehind, State.slew_time, State.forwardStep_hearth]
    rfl
  case ahead =>
    intro s h v hmaster hahead
    refine ⟨_, exec_hearthTimeReport_ahead h hmaster hahead, ?_, ?_⟩
    · exact congrArg Hearth.time (s.forwardStep_hearth _)
    · dsimp only
      rw [State.forwardStep_cascade]
      rfl
  case probe =>
    intro s l n hup
    obtain ⟨hl, hother⟩ := Kept.oneEnvan (State.sendHub_kept (s.modEnvan l fun x => { x with delayNs := BitVec.ofNat 32 n })
      (s.envan l).partner .probe) rfl
    exact ⟨_, exec_delayProbe_up n hup, by rw [hl], (State.sendHub_unranked _ _ rfl).1, hother⟩
  case newer =>
    intro s v e c hc hstate hseq hguests hspan
    exact ⟨_, exec_rosterUpdate_newer e hc hstate hseq hguests hspan, rfl, rfl, rfl⟩
  case own =>
    intro s b k i v hchartered hactive
    exact ⟨_, exec_benchRegistration_own k i v hchartered hactive, s.spanBench_spans b, (s.spanBench_kept b).rest .benches rfl⟩
  case member =>
    intro s h b k i v c hmaster hother hmember hc
    exact ⟨_, exec_benchRegistration_member b k i v hmaster hother hmember hc, State.setRoster_roster hc _,
      (s.setRoster_kept _).rest .benches rfl⟩

end Sys2Proof.Machine

/-! ## Benches of other hubs: grants, sweeps, data requests (O60; 16 R456, R457, R480–R483) -/

namespace Sys2Proof.Machine

/-- Whether a hub has a route depends on the charter, the links and the hub's own name. -/
theorem State.routed_of_charter {s t : State} (hchip : t.chip = s.chip) (hcharter : t.cascade.charter = s.cascade.charter)
    (henvans : t.envans = s.envans) (h : Nat) : t.routed h = s.routed h := by
  have hlink : t.linkUp = s.linkUp := by
    funext l
    rw [State.linkUp, State.envan, henvans]
    rfl
  rw [State.routed, State.routed, State.routeHops, State.routeHops, hlink, hchip, hcharter]

theorem State.guest_congr {s t : State} (h : t.cascade.guests = s.cascade.guests) (g : Nat) : t.guest g = s.guest g :=
  congrArg (tabGet · none g) h

/-- A current message of another hub is about a guest. -/
theorem State.guest_of_current {s : State} {h b g : Nat} {i : BitVec 16} (hother : h ≠ s.hubId) (hslot : s.guestSlot h b = some g)
    (hcurrent : s.msgCurrent h b i = true) : ∃ x, s.guest g = some x := by
  rw [State.msgCurrent, if_neg hother, hslot] at hcurrent
  cases hx : s.guest g with
  | none => simp [hx] at hcurrent
  | some x => exact ⟨x, rfl⟩

/-! ### Grants of a guest (16 R480, R482) -/

section Current

variable {s : State} {h b g : Nat} {i : BitVec 16} (hchartered : s.chartered = true) (hother : h ≠ s.hubId)
  (hslot : s.guestSlot h b = some g)

include hchartered hother hslot

theorem exec_remoteGrant_stale (k : Nat) (v : BitVec 32) (x : Bool) (d o n m : Nat) (hstale : s.msgCurrent h b i = false) :
    exec (.remoteGrant h b i k v x d o n m) s = .next s.staleMessage := by
  rw [exec_remoteGrant, execRemoteGrant, if_neg (by simp [hchartered, hother]), hslot]
  exact if_pos (by simp [hstale])

theorem exec_remoteGrant_returns (k : Nat) (v : BitVec 32) (d o n m : Nat) (hcurrent : s.msgCurrent h b i = true) :
    exec (.remoteGrant h b i k v true d o n m) s = .next (s.returnGuest h g d o n) := by
  rw [exec_remoteGrant, execRemoteGrant, if_neg (by simp [hchartered, hother]), hslot]
  exact if_neg (by simp [hcurrent])

theorem exec_remoteGrant_grants (k : Nat) (v : BitVec 32) (d o n m : Nat) (hcurrent : s.msgCurrent h b i = true) :
    exec (.remoteGrant h b i k v false d o n m) s = .next (
      if s.grantCheck d o n 0 m ≠ resOk then s.answerGrant h (s.grantCheck d o n 0 m)
      else if s.filling d o n then { s with cascade := { s.cascade with grantWaits := s.cascade.grantWaits ++ [(h, b, g, d, o, n)] } }
      else (s.takeGrant (256 + g) d o n).answerGrant h resOk) := by
  have hadmit : s.admitGuest h b i k v = (some g, s) := by
    rw [State.admitGuest, hslot]
    simp [hcurrent]
  rw [exec_remoteGrant, execRemoteGrant, if_neg (by simp [hchartered, hother]), hslot]
  refine (if_neg (by simp [hcurrent])).trans ?_
  simp only [State.grantGuest, hadmit, Bool.false_eq_true, if_false]

end Current

theorem State.grantCheck_free {s : State} {d o n m : Nat} (hok : s.rangeOk d o n = true) (hfree : s.rangeHeld d o n = false) (hroom : n ≤ m) :
    s.grantCheck d o n 0 m = resOk := by
  rw [State.grantCheck, if_neg (by simp [hok, hfree]), if_neg (by omega)]

theorem State.grantCheck_over {s : State} {d o n m : Nat} (hok : s.rangeOk d o n = true) (hfree : s.rangeHeld d o n = false) (hroom : m < n) :
    s.grantCheck d o n 0 m = resOverQuota := by
  rw [State.grantCheck, if_neg (by simp [hok, hfree]), if_pos (by omega)]

theorem State.grantCheck_range {s : State} {d o n m : Nat} (h : s.rangeOk d o n = false ∨ s.rangeHeld d o n = true) :
    s.grantCheck d o n 0 m = resRange := by
  rw [State.grantCheck, if_pos (by simpa using h)]

/-- An answer to a hub with a route only leaves. -/
theorem State.answerGrant_routed {s : State} {h : Nat} (hr : s.routed h = true) (r : Nat) :
    (s.answerGrant h r).cascade = s.cascade ∧ (s.answerGrant h r).out = s.out ++ [.envan h (.remoteGrantResult (BitVec.ofNat 8 r))] ∧
    (s.answerGrant h r).benches = s.benches :=
  ⟨State.sendHub_cascade hr _, State.sendHub_routed hr _, (State.sendHub_kept ..).rest .benches rfl⟩

theorem State.takeGrant_guest {s : State} (g d o n : Nat) : (s.takeGrant (256 + g) d o n).cascade =
    (s.setGuest g ((s.guest g).map fun x => { x with grants := x.grants ++ [⟨s.hubId, d, o, n⟩] })).cascade := by
  rw [State.takeGrant, if_neg (by omega), Nat.add_sub_cancel_left]
  exact ((State.addTally_kept ..).step (m := 0x2000002) rfl ((State.stir_kept ..).mono rfl)).rest .cascade rfl

theorem State.takeGrant_guest_benches (s : State) (g d o n : Nat) : (s.takeGrant (256 + g) d o n).benches = s.benches := by
  rw [State.takeGrant, if_neg (by omega)]
  rfl

theorem State.takeGrant_out (s : State) (g d o n : Nat) : (s.takeGrant g d o n).out = s.out :=
  (s.takeGrant_kept g d o n).rest .out rfl

/-- A range cut from a guest's grants is cut from nothing else. -/
theorem State.cutRange_guest (s : State) (g d o n : Nat) :
    Kept 0x2002000 (s.setGuest g ((s.guest g).map fun x => { x with grants := x.grants.flatMap fun y => y.cut d o n }))
      (s.cutRange (256 + g) d o n) := by
  rw [State.cutRange, if_neg (by omega), Nat.add_sub_cancel_left]
  refine (State.dropEntries_kept ..).step rfl (.madeRecovery rfl (.foldl (fun t g => ?_) _ _))
  exact .ite (.refl _ t) ((State.addTally_kept ..).mono rfl)

theorem State.answerGrant_cascadeCore (s : State) (h r : Nat) : (s.answerGrant h r).cascadeCore = s.cascadeCore :=
  State.sendHub_cascadeCore ..

/-- However the return goes on, the cascade is left as it was but for messages that wait. -/
theorem State.endGuestReturn_cascadeCore (s : State) (h o d off n : Nat) : (s.endGuestReturn h o d off n).cascadeCore = s.cascadeCore := by
  rw [State.endGuestReturn]
  split_ifs
  · rfl
  · exact (State.answerGrant_cascadeCore ..).trans (State.cascadeCore_of_eq ((State.sendDie_kept ..).rest .cascade rfl))

/-- The range returned, before the die is told. -/
def State.guestReturned (s : State) (g d o n : Nat) : State :=
  { s.cutRange (256 + g) d o n with zeroFill := (s.cutRange (256 + g) d o n).zeroFill ++ [(d, o, n)] }

theorem State.returnGuest_held {s : State} {g d o n : Nat} (h : Nat) (hnew : s.zeroFill.contains (d, o, n) = false)
    (hok : s.rangeOk d o n = true) (hheld : s.holds (256 + g) d o n = true) (hpins : s.pinnedIn (256 + g) d o n = false) :
    s.returnGuest h g d o n = (s.guestReturned g d o n).endGuestReturn h (256 + g) d o n := by
  rw [State.returnGuest]
  exact (if_neg (by simpa using hnew)).trans ((if_neg (by simp [hok, hheld])).trans (if_neg (by simp [hpins])))

/-! ### The holder's answer (16 R482) -/

/-- The forwarded command's state as the answer finds it, the command no longer forwarded. -/
def State.unforwarded (s : State) : State := { s with cascade := { s.cascade with forwarded := none } }

theorem State.unforwarded_bench (s : State) (b : Nat) : s.unforwarded.bench b = s.bench b := rfl

theorem exec_remoteGrantResult_granted {s : State} {b h d o n : Nat} (hf : s.cascade.forwarded = some (b, h, false, d, o, n)) :
    exec (.remoteGrantResult 0) s =
      .next ((s.modBench b fun x => { x with grants := x.grants ++ [⟨h, d, o, n⟩] }).unforwarded.endCommand 0 0) := by
  rw [exec_remoteGrantResult, execRemoteGrantResult, hf]
  rfl

theorem exec_remoteGrantResult_refused {s : State} {b h d o n : Nat} {r : BitVec 8} (hf : s.cascade.forwarded = some (b, h, false, d, o, n))
    (hr : r ≠ 0) : exec (.remoteGrantResult r) s = .next (s.unforwarded.endCommand r.toNat 0) := by
  rw [exec_remoteGrantResult, execRemoteGrantResult, hf]
  simp only [show r.toNat ≠ resOk from fun h => hr (BitVec.eq_of_toNat_eq h), if_false]
  rfl

theorem State.endCommand_cascade (s : State) (r : Nat) (t : BitVec 64) : (s.endCommand r t).cascade = s.cascade :=
  (s.endCommand_kept r t).rest .cascade rfl

/-! ### Sweeps of guests (16 R481) -/

/-- A guest that is not kept ends: its slot is free, the other guests stay. -/
theorem State.cutGuest_frees {s : State} {g : Nat} {x : Guest} (hx : s.guest g = some x) :
    (s.cutGuest g none).guest g = none ∧ ∀ k, k ≠ g → (s.cutGuest g none).guest k = s.guest k := by
  obtain ⟨u, hu, hcut⟩ : ∃ u : State, u.cascade = s.cascade ∧ s.cutGuest g none = (u.setGuest g none).endTallies (256 + g) [0x0E] := by
    rw [State.cutGuest, hx]
    refine ⟨_, Kept.rest (m := 0x52677f264) ?_ .cascade rfl, rfl⟩
    refine .madeHeadstock rfl ((State.leaveArbiters_kept ..).step rfl ((State.endTallies_kept ..).step rfl (.madeHeadstock rfl ?_)))
    refine (State.dropMisses_kept ..).step rfl ((State.dropEntries_kept ..).step rfl ((State.fillGrants_kept ..).step rfl
      ((State.dropAsked_kept ..).step rfl ?_)))
    exact .fold (fun t j => (t.dropJob_kept j).mono rfl) (.foldl (fun t p => (t.stopPlacement_kept p).mono rfl) _ s)
  have hguests : (s.cutGuest g none).cascade.guests = (s.setGuest g none).cascade.guests := by
    rw [hcut, (State.endTallies_kept ..).rest .cascade rfl, State.setGuest, hu]
    rfl
  exact ⟨(State.guest_congr hguests g).trans (s.setGuest_guest_same g none),
    fun k hk => (State.guest_congr hguests k).trans (s.setGuest_guest_ne none hk)⟩

theorem exec_remoteSweep_other {s : State} {h b g : Nat} {i : BitVec 16} {x : Guest} (hslot : s.guestSlot h b = some g)
    (hx : s.guest g = some x) (hi : x.incarn ≠ i) : exec (.remoteSweep h b i true) s = .next (s.cutGuest g none) := by
  rw [exec_remoteSweep, execRemoteSweep, hslot]
  simp [hx, hi]

theorem exec_remoteSweep_current {s : State} {h b g : Nat} {i : BitVec 16} {x : Guest} (r : Bool) (hslot : s.guestSlot h b = some g)
    (hx : s.guest g = some x) (hi : x.incarn = i) : exec (.remoteSweep h b i r) s = .next s := by
  rw [exec_remoteSweep, execRemoteSweep, hslot]
  exact if_pos (by simp [hx, hi])

/-! ### Data requests (16 R456, R457, R483) -/

/-- The arrival of a message is counted, and nothing else. -/
theorem State.hubIn_eq (s : State) (h n : Nat) : ∃ v, s.hubIn h n = { s with perf := v } := by
  rw [State.hubIn]
  cases s.linkTo h with
  | none => exact ⟨s.perf, rfl⟩
  | some l => exact s.countPerf_eq _ n

theorem exec_envanDataRequest_stale {s : State} (a : Nat) {h b : Nat} {i : BitVec 16} (n : Nat) (q : DataRequest)
    (hstale : s.msgCurrent h b i = false) : exec (.envanDataRequest a h b i n q) s = .next s.staleMessage := by
  rw [exec_envanDataRequest, execEnvanDataRequest, if_pos (by simp [hstale])]

theorem exec_envanDataRequest_write {s : State} (a : Nat) {h b : Nat} {i : BitVec 16} (n d o : Nat) (y : List (Byte × Bool))
    (hcurrent : s.msgCurrent h b i = true) : exec (.envanDataRequest a h b i n (.dieWrite d o y)) s =
      .next ((s.hubIn a (requestBytes (.dieWrite d o y))).remoteToDie a h b n d o y.length
        (s.reaches h b (s.ownerOf h b) d o y.length) true y) := by
  obtain ⟨v, hv⟩ := s.hubIn_eq a (requestBytes (.dieWrite d o y))
  rw [exec_envanDataRequest, execEnvanDataRequest, if_neg (by simp [hcurrent]), hv]
  rfl

theorem exec_envanDataRequest_read {s : State} (a : Nat) {h b : Nat} {i : BitVec 16} (n d o k : Nat)
    (hcurrent : s.msgCurrent h b i = true) : exec (.envanDataRequest a h b i n (.dieRead d o k)) s =
      .next ((s.hubIn a (requestBytes (.dieRead d o k))).remoteToDie a h b n d o k
        (s.reaches h b (s.ownerOf h b) d o k) false []) := by
  obtain ⟨v, hv⟩ := s.hubIn_eq a (requestBytes (.dieRead d o k))
  rw [exec_envanDataRequest, execEnvanDataRequest, if_neg (by simp [hcurrent]), hv]
  rfl

theorem exec_envanDataRequest_cause {s : State} (h : Nat) {b : Nat} {i : BitVec 16} (n c : Nat) (v : BitVec 64) (k : BitVec 32)
    (hcurrent : s.msgCurrent s.hubId b i = true) : exec (.envanDataRequest h s.hubId b i n (.coreCause c v k)) s =
      .next ((s.hubIn h (requestBytes (.coreCause c v k))).holdFor b c v k) := by
  obtain ⟨w, hw⟩ := s.hubIn_eq h (requestBytes (.coreCause c v k))
  rw [exec_envanDataRequest, execEnvanDataRequest, if_neg (by simp [hcurrent]), hw]
  exact congrArg Host.Outcome.next (if_pos rfl)

section Mapped

variable {s : State} (a h b n d o k : Nat) (hmapped : s.dieMapped d = true) (write : Bool) (y : List (Byte × Bool))

include hmapped

/-- A request that its guest may make goes to the die and is recorded under the lowest free key. -/
theorem State.remoteToDie_asks : ∃ key, s.remoteToDie a h b n d o k true write y =
    State.askDie { s with remotes := s.remotes ++ [⟨a, n, key, d, h, b, o, k⟩] } d (some (s.ownerOf h b)) true
      (if write then .xltForward key o k true y else .hubRead key o k) := by
  rw [State.remoteToDie, if_neg (by simp [hmapped]), if_neg (by simp)]
  exact ⟨_, rfl⟩

/-- Where nothing waits at the die, the request leaves at once. -/
theorem State.remoteToDie_free (hup : (s.die d).state = .up) (hqueue : (s.die d).queue = [])
    (hroom : ∀ key, (s.die d).room true (DieMsg.blocks (if write then .xltForward key o k true y else .hubRead key o k)) = true) :
    ∃ key, (s.remoteToDie a h b n d o k true write y).out =
        s.out ++ [.die d (if write then .xltForward key o k true y else .hubRead key o k)] ∧
      (s.remoteToDie a h b n d o k true write y).remotes = s.remotes ++ [⟨a, n, key, d, h, b, o, k⟩] := by
  obtain ⟨key, hkey⟩ := State.remoteToDie_asks a h b n d o k hmapped write y
  let t : State := { s with remotes := s.remotes ++ [⟨a, n, key, d, h, b, o, k⟩] }
  let m : DieMsg := if write then .xltForward key o k true y else .hubRead key o k
  have hnumbered : t.numbered m = m := by cases write <;> rfl
  refine ⟨key, ?_, ?_⟩
  · have hout := State.askDie_free_out (s := t) (d := d) (core := true) (m := m) hup hqueue (by rw [hnumbered]; exact hroom key)
      (some (s.ownerOf h b))
    rw [hkey, hout, hnumbered]
  · rw [hkey, (State.askDie_kept ..).rest .remotes rfl]

theorem State.remoteToDie_unheld : s.remoteToDie a h b n d o k false write y =
    s.sendHub a (.dataAnswer n (if write then .writeRefused else .dieLost) []) := by
  rw [State.remoteToDie, if_neg (by simp [hmapped]), if_pos (by simp)]

end Mapped

theorem State.remoteToDie_lost {s : State} (a h b n : Nat) {d : Nat} (o k : Nat) (hlost : s.dieMapped d = false) (held write : Bool)
    (y : List (Byte × Bool)) : s.remoteToDie a h b n d o k held write y = s.sendHub a (.dataAnswer n .dieLost []) := by
  rw [State.remoteToDie, if_pos (by simp [hlost])]

/-- Settles O60: the grants given, refused and returned, the holder's answer, the sweeps, the data requests. -/
theorem remoteBenches : Obligations.RemoteBenches := by
  unfold Obligations.RemoteBenches
  refine ⟨?grants, ?waits, ?overQuota, ?range, ?returns, fun s h b g k d o n m i v x hc ho hslot => exec_remoteGrant_stale hc ho hslot k v x d o n m,
    ?granted, ?refused, ?sweeps, fun s h b g i x r => exec_remoteSweep_current r, ?writes, ?reads, ?lost, ?unheld, ?cause,
    fun s a h b n i q => exec_envanDataRequest_stale a n q⟩
  case grants =>
    intro s h b g k d o n m i v hchartered hother hslot hcurrent hok hfree hroom hfill hr
    refine ⟨_, (exec_remoteGrant_grants hchartered hother hslot k v d o n m hcurrent).trans (congrArg _ ((if_neg (by
      simp [State.grantCheck_free hok hfree hroom])).trans (if_neg (by simp [hfill])))), ?_⟩
    have hcascade := State.takeGrant_guest (s := s) g d o n
    have hkept := s.takeGrant_kept (256 + g) d o n
    have hr' : (s.takeGrant (256 + g) d o n).routed h = true :=
      (State.routed_of_charter (hkept.rest .chip rfl) (by rw [hcascade]; rfl) (hkept.rest .envans rfl) h).trans hr
    obtain ⟨hcascade', hout, hbenches⟩ := State.answerGrant_routed hr' resOk
    refine ⟨?_, ?_, hbenches.trans (s.takeGrant_guest_benches g d o n)⟩
    · rw [State.guest_congr (congrArg Cascade.guests (hcascade'.trans hcascade)), State.setGuest_guest_same]
      obtain ⟨x, hx⟩ := State.guest_of_current hother hslot hcurrent
      rw [hx]
      rfl
    · rw [hout, s.takeGrant_out]
      rfl
  case waits =>
    intro s h b g k d o n m i v hchartered hother hslot hcurrent hok hfree hroom hfill
    exact ⟨_, (exec_remoteGrant_grants hchartered hother hslot k v d o n m hcurrent).trans (congrArg _ ((if_neg (by
      simp [State.grantCheck_free hok hfree hroom])).trans (if_pos hfill))), rfl, rfl⟩
  case overQuota =>
    intro s h b g k d o n m i v hchartered hother hslot hcurrent hok hfree hroom hr
    have hcheck := State.grantCheck_over hok hfree hroom
    refine ⟨_, (exec_remoteGrant_grants hchartered hother hslot k v d o n m hcurrent).trans (congrArg _ (if_pos (by rw [hcheck]; decide))), ?_⟩
    rw [hcheck]
    exact State.answerGrant_routed hr resOverQuota
  case range =>
    intro s h b g k d o n m i v hchartered hother hslot hcurrent hbad hr
    have hcheck := State.grantCheck_range (m := m) hbad
    refine ⟨_, (exec_remoteGrant_grants hchartered hother hslot k v d o n m hcurrent).trans (congrArg _ (if_pos (by rw [hcheck]; decide))), ?_⟩
    rw [hcheck]
    exact State.answerGrant_routed hr resRange
  case returns =>
    intro s h b g k d o n m i v hchartered hother hslot hcurrent hnew hok hheld hpins
    refine ⟨_, exec_remoteGrant_returns hchartered hother hslot k v d o n m hcurrent, ?_⟩
    rw [State.returnGuest_held h hnew hok hheld hpins]
    have hcut := s.cutRange_guest g d o n
    have hend := (s.guestReturned g d o n).endGuestReturn_kept h (256 + g) d o n
    refine ⟨?_, ?_, (hend.rest .benches rfl).trans (hcut.rest .benches rfl)⟩
    · rw [hend.rest .zeroFill rfl]
      exact congrArg (· ++ [(d, o, n)]) (hcut.rest .zeroFill rfl)
    · have hguests := State.cascade_part (g := Cascade.guests) (fun _ _ => rfl)
        ((s.guestReturned g d o n).endGuestReturn_cascadeCore h (256 + g) d o n)
      rw [State.guest_congr (hguests.trans (congrArg Cascade.guests (hcut.rest .cascade rfl))), State.setGuest_guest_same]
      obtain ⟨x, hx⟩ := State.guest_of_current hother hslot hcurrent
      rw [hx]
      rfl
  case granted =>
    intro s b h d o n hf
    refine ⟨_, exec_remoteGrantResult_granted hf, ?_, congrArg Cascade.forwarded (State.endCommand_cascade ..), State.endCommand_busy ..,
      State.endCommand_result .., fun c hc => ?_⟩
    · rw [State.endCommand_bench_grants, State.unforwarded_bench, State.modBench_bench_same]
    · rw [State.endCommand_bench_grants, State.unforwarded_bench, State.modBench_bench_ne _ _ hc]
  case refused =>
    intro s b h d o n r hf hr
    exact ⟨_, exec_remoteGrantResult_refused hf hr, congrArg Cascade.forwarded (State.endCommand_cascade ..), State.endCommand_busy ..,
      (State.endCommand_result ..).trans (by simp), fun c => State.endCommand_bench_grants ..⟩
  case sweeps =>
    intro s h b g i x hslot hx hi
    exact ⟨_, exec_remoteSweep_other hslot hx hi, State.cutGuest_frees hx⟩
  case writes =>
    intro s a h b n d o i y hcurrent hmapped hreaches hup hqueue hroom
    obtain ⟨v, hv⟩ := s.hubIn_eq a (requestBytes (.dieWrite d o y))
    obtain ⟨key, hout, hremotes⟩ := State.remoteToDie_free (s := { s with perf := v }) a h b n d o y.length hmapped true y hup hqueue hroom
    refine ⟨_, key, exec_envanDataRequest_write a n d o y hcurrent, ?_⟩
    rw [hv, hreaches]
    exact ⟨hout, hremotes⟩
  case reads =>
    intro s a h b n d o k i hcurrent hmapped hreaches hup hqueue hroom
    obtain ⟨v, hv⟩ := s.hubIn_eq a (requestBytes (.dieRead d o k))
    obtain ⟨key, hout, hremotes⟩ := State.remoteToDie_free (s := { s with perf := v }) a h b n d o k hmapped false [] hup hqueue
      fun _ => hroom
    refine ⟨_, key, exec_envanDataRequest_read a n d o k hcurrent, ?_⟩
    rw [hv, hreaches]
    exact ⟨hout, hremotes⟩
  case lost =>
    intro s a h b n d o k i hcurrent hlost hr
    obtain ⟨v, hv⟩ := s.hubIn_eq a (requestBytes (.dieRead d o k))
    refine ⟨_, exec_envanDataRequest_read a n d o k hcurrent, ?_⟩
    rw [hv, State.remoteToDie_lost (s := { s with perf := v }) a h b n o k hlost]
    exact ⟨State.sendHub_routed (s := { s with perf := v }) hr _, (State.sendHub_kept ..).rest .remotes rfl⟩
  case unheld =>
    intro s a h b n d o i y hcurrent hmapped hreaches hr
    obtain ⟨v, hv⟩ := s.hubIn_eq a (requestBytes (.dieWrite d o y))
    refine ⟨_, exec_envanDataRequest_write a n d o y hcurrent, ?_⟩
    rw [hv, hreaches, State.remoteToDie_unheld (s := { s with perf := v }) a h b n d o y.length hmapped true y]
    exact ⟨State.sendHub_routed (s := { s with perf := v }) hr _, (State.sendHub_kept ..).rest .remotes rfl⟩
  case cause =>
    intro s h b n c i v k hcurrent hactive
    obtain ⟨w, hw⟩ := s.hubIn_eq h (requestBytes (.coreCause c v k))
    have hhold := (State.holdFor_active (s := { s with perf := w }) hactive c v k).1
    refine ⟨_, exec_envanDataRequest_cause h n c v k hcurrent, ?_⟩
    rw [hw]
    exact ⟨congrArg Prod.fst hhold, congrArg Prod.snd hhold⟩

end Sys2Proof.Machine

/-! ## JTAG instructions (O17; 19 R549, R553, R554) -/

namespace Sys2Proof.Machine

/-- A pin-driving instruction outside STRAPS tears the hub down and leaves the debug port's cause (R553). -/
theorem State.pinDrive_restarts {s : State} (hpow : s.chip.powered = true) (hphase : s.chip.phase ≠ .straps) :
    s.pinDrive = ((s.addFault .dbg).teardown restartDebug .testLogicReset).modDebug fun d => { d with pinDriving := true } := by
  rw [State.pinDrive, if_pos ⟨hpow, hphase⟩]
  rfl

theorem State.pinDrive_straps {s : State} (hphase : s.chip.phase = .straps) :
    s.pinDrive = { s with dbg := { s.dbg with pinDriving := true } } := by
  rw [State.pinDrive, if_neg (by simp [hphase])]

theorem State.hubFault_of_mem {s : State} {c : FaultCause} (h : c ∈ s.recovery.faults) : s.hubFault = true := by
  rw [State.hubFault, Bool.not_eq_true', List.isEmpty_eq_false_iff]
  exact List.ne_nil_of_mem h

/-- What any of the three instructions leaves outside STRAPS. -/
theorem State.pinDrive_leaves {s : State} (hpow : s.chip.powered = true) (hphase : s.chip.phase ≠ .straps) :
    s.pinDrive.dbg.pinDriving = true ∧ s.pinDrive.chip.phase = .restarting ∧ s.pinDrive.chip.lastRestart = 5#4 ∧
    s.pinDrive.chip.wait = .testLogicReset ∧ s.pinDrive.hubFault = true ∧ s.pinDrive.benches = [] := by
  rw [State.pinDrive_restarts hpow hphase]
  have hmem : .dbg ∈ ((s.addFault .dbg).teardown restartDebug .testLogicReset).recovery.faults :=
    List.mem_filter.mpr ⟨s.addFault_mem .dbg, rfl⟩
  exact ⟨rfl, rfl, rfl, rfl, State.hubFault_of_mem hmem, rfl⟩

/-! ### Test-Logic-Reset (R553, R554) -/

/-- The pins are let go and the debug port is detached. -/
def State.tapReset (s : State) : State := { s with dbg := { s.dbg with attached := false, pinDriving := false } }

theorem exec_jtagTestLogicReset_driven {s : State} (hpins : s.dbg.pinDriving = true) (hwait : s.chip.wait = .testLogicReset) :
    exec .jtagTestLogicReset s = .next (State.endFault { s.tapReset with
      chip := { s.chip with wait := if s.hearth.refLost then .reference else .diePower } } .dbg) := by
  rw [exec_jtagTestLogicReset, execJtagTestLogicReset]
  exact congrArg Host.Outcome.next ((if_pos hpins).trans (congrArg (State.endFault · .dbg) (if_pos hwait)))

theorem exec_jtagTestLogicReset_idle {s : State} (hpins : s.dbg.pinDriving = false) :
    exec .jtagTestLogicReset s = .next s.tapReset := by
  rw [exec_jtagTestLogicReset, execJtagTestLogicReset]
  exact congrArg Host.Outcome.next (if_neg (by simp [hpins]))

theorem State.endFault_notMem (s : State) (c : FaultCause) : (s.endFault c).recovery.faults.contains c = false := by
  simp [State.endFault]

/-! ### IDCODE and DAP_ACCESS (R549, R554) -/

theorem exec_jtagIdcode_powered {s : State} (h : s.chip.powered = true) :
    exec .jtagIdcode s = .next (s.emit (.tap (if s.chip.grade = .ax5216 then 0xB52167AB else 0xB52087AB))) := by
  rw [exec_jtagIdcode, execJtagIdcode, if_pos h, State.big]
  cases s.chip.grade <;> rfl

theorem exec_jtagDapAccess_attaches {s : State} (hpow : s.chip.powered = true) (ha : s.dbg.attached = false) :
    exec .jtagDapAccess s = .next { s with dbg := { s.dbg with attached := true, quiet := true } } := by
  rw [exec_jtagDapAccess, execJtagDapAccess, if_pos ⟨hpow, by simp [ha]⟩]

theorem exec_jtagDapAccess_attached {s : State} (ha : s.dbg.attached = true) : exec .jtagDapAccess s = .next s := by
  rw [exec_jtagDapAccess, execJtagDapAccess, if_neg (by simp [ha])]

/-- Settles O17: the pins driven in and outside STRAPS, the TAP's reset, the instructions that only answer or attach. -/
theorem jtagInstructions : Obligations.JtagInstructions := by
  unfold Obligations.JtagInstructions
  refine ⟨?drives, ?drives, ?drives, ?straps, ?straps, ?straps, ?reset, ?idle, ?idcode, fun _ => rfl, fun _ => rfl,
    fun s => exec_jtagDapAccess_attaches, fun s => exec_jtagDapAccess_attached⟩
  case drives => exact fun s hpow hphase => ⟨_, rfl, State.pinDrive_leaves hpow hphase⟩
  case straps => exact fun s hphase => congrArg Host.Outcome.next (State.pinDrive_straps hphase)
  case reset => exact fun s hpins hwait => ⟨_, exec_jtagTestLogicReset_driven hpins hwait, rfl, rfl, rfl, State.endFault_notMem ..⟩
  case idle => exact fun s hpins => ⟨_, exec_jtagTestLogicReset_idle hpins, rfl, rfl, rfl, rfl⟩
  case idcode => exact fun s hpow => ⟨_, exec_jtagIdcode_powered hpow, rfl, rfl, rfl⟩

end Sys2Proof.Machine

/-! ## SMBus and the debug access port's accesses (O29; 02 R55; 20 R549–R554; 21 R575, R588) -/

namespace Sys2Proof.Machine

/-! ### SMBus (02 R55; 21 R575, R588) -/

theorem smbusReadable_ident : smbusReadable 0x10000 = true := by decide

theorem State.smbusRead_ident (s : State) : hubMap.read s false (dapAccess 0x10000 []) = (leBytes 4 s.hubIdent.toNat, s) := by
  have hread : hubMap.read s false (dapAccess 0x10000 []) = hubMap.readDword s false 0x10000 :=
    hubMap.read_dword s false 0 0 (o := 0x10000) [] rfl (nofun : RegKind.word ≠ .absent)
  rw [hread]
  rfl

section Open

variable {s : State} (h : s.smbusOpen = true)

include h

theorem exec_smbusPointer_stores {o : BitVec 24} (ho : o.toNat % 4 = 0) :
    exec (.smbusPointer o true) s = .next { s with chip := { s.chip with smbusPtr := o } } := by
  rw [exec_smbusPointer, execSmbusPointer, if_neg (not_not_intro h), if_neg (by simp [ho])]

theorem exec_smbusPointer_counts {o : BitVec 24} {pec : Bool} (ho : pec = false ∨ o.toNat % 4 ≠ 0) :
    exec (.smbusPointer o pec) s = .next s.countHub := by
  rw [exec_smbusPointer, execSmbusPointer, if_neg (not_not_intro h), if_pos (by simpa using ho)]

theorem exec_smbusRestart_key : exec (.smbusRestart 0xA5C3 true) s =
    .next (s.teardown restartSmbus (if s.chip.wait = .none then .diePower else s.chip.wait)) := by
  rw [exec_smbusRestart, execSmbusRestart, if_neg (not_not_intro h), if_neg (by simp)]

theorem exec_smbusRestart_counts {v : BitVec 16} {pec : Bool} (hv : v ≠ 0xA5C3 ∨ pec = false) :
    exec (.smbusRestart v pec) s = .next s.countHub := by
  rw [exec_smbusRestart, execSmbusRestart, if_neg (not_not_intro h), if_pos (by simpa [or_comm] using hv)]

/-- What a read answers and leaves, by whether the register may be read so. -/
theorem exec_smbusRead_answers {d : List Byte} {t : State}
    (hd : (if smbusReadable s.chip.smbusPtr.toNat then hubMap.read s false (dapAccess s.chip.smbusPtr.toNat []) else (ones 4, s.countHub)) = (d, t)) :
    exec (.smbusRead true) s =
      .next (State.emit { t with chip := { t.chip with smbusPtr := t.chip.smbusPtr + 4 } } (.smbus (dwordOf d 0))) := by
  rw [exec_smbusRead, execSmbusRead, if_neg (not_not_intro h), if_neg (by simp)]
  dsimp only
  rw [hd]

/-- HUB_IDENT at the pointer. -/
theorem exec_smbusRead_ident (hptr : s.chip.smbusPtr = 0x10000) (hgrade : s.chip.grade = .ax5216) :
    exec (.smbusRead true) s = .next { s with chip := { s.chip with smbusPtr := 0x10004 }, out := s.out ++ [.smbus 0x5216B001] } := by
  have hpointer : s.chip.smbusPtr.toNat = 0x10000 := by simp [hptr]
  have hnext : s.chip.smbusPtr + 4 = 0x10004 := by simp [hptr]
  have hident : s.hubIdent = 0x5216B001 := by rw [s.hubIdent_eq, if_pos hgrade]
  rw [exec_smbusRead_answers h (d := leBytes 4 s.hubIdent.toNat) (t := s) (by rw [hpointer, if_pos smbusReadable_ident, s.smbusRead_ident]),
    dwordOf_leBytes, hident, hnext]
  rfl

theorem exec_smbusRead_unreadable (hr : smbusReadable s.chip.smbusPtr.toNat = false) :
    exec (.smbusRead true) s = .next { s with
      chip := { s.chip with smbusPtr := s.chip.smbusPtr + 4, badAccess := s.chip.badAccess + 1 }, out := s.out ++ [.smbus 0xFFFFFFFF] } := by
  rw [exec_smbusRead_answers h (d := ones 4) (t := s.countHub) (if_neg (by simp [hr]))]
  rfl

end Open

/-! ### Registers through the debug access port (20 R550, R552) -/

/-- The port with the space and the address of a memory access. -/
def Debug.aimed (m : BitVec 2) (a : BitVec 64) (d : Debug) : Debug := { d with space := m, addr := a }

section Attached

variable {s : State} (hpow : s.chip.powered = true) (ha : s.dbg.attached = true)

include hpow ha

theorem State.granted_yes (f : State → State) : s.granted true f = f s := by
  simp [State.granted, hpow, ha]

theorem State.granted_no (f : State → State) : s.granted false f = s.modDebug fun d => { d with refused := true } := by
  simp [State.granted, State.dapRefuse, hpow, ha]

/-- The identity and status registers lie in no switched domain. -/
theorem exec_dapRegisterRead_quiet {a : Nat} (hobs : s.dbg.observes = true) (hbusy : s.dbg.busy = false) (hlow : 0x10000 ≤ a)
    (hhigh : a < 0x14000) : exec (.dapRegisterRead true a) s = .next ((s.modDebug fun d => { d with
      quiet := true, write := false, space := 0, addr := BitVec.ofNat 64 a }).dapReadNow true (dapAccess a [])) := by
  have hdomain (t : State) : t.asleep (t.hubDomain a) = false := by
    rw [State.hubDomain, if_neg (by simp [inView]; omega), if_pos (by omega)]
    rfl
  rw [exec_dapRegisterRead, execDapRegisterRead, State.dapRegisterRead]
  simp only [hobs, Bool.true_or, if_true, State.granted_yes hpow ha, hbusy, hdomain, Bool.false_eq_true, if_false]

theorem exec_dapRegisterRead_refused {q : Bool} {a : Nat} (hobs : s.dbg.observes = false) (hfull : s.dbg.full = false)
    (hq : q = false ∨ (a ≠ 0x10000 ∧ a ≠ 0x10004)) : exec (.dapRegisterRead q a) s = .next (s.modDebug fun d => { d with refused := true }) := by
  have hno : (if q then s.dbg.observes || a == 0x10000 || a == 0x10004 else s.dbg.full) = false := by
    obtain rfl | ⟨h0, h4⟩ := hq
    · exact hfull
    · simp [hobs, h0, h4, hfull]
  rw [exec_dapRegisterRead, execDapRegisterRead, State.dapRegisterRead, hno]
  exact congrArg Host.Outcome.next (State.granted_no hpow ha _)

theorem exec_dapRegisterWrite_refused {a : Nat} (v : BitVec 32) (hno : s.dbg.full = false ∨ s.dbg.dapWrite = false ∨ a / 4 = 0x20000) :
    exec (.dapRegisterWrite a v) s = .next (s.modDebug fun d => { d with refused := true }) := by
  have hno : (s.dbg.full && s.dbg.dapWrite && a / 4 != 0x20000) = false := by
    obtain h | h | h := hno <;> simp [h]
  rw [exec_dapRegisterWrite, execDapRegisterWrite, State.dapRegisterWrite, hno]
  exact congrArg Host.Outcome.next (State.granted_no hpow ha _)

/-! ### Memory through the debug access port (20 R552) -/

theorem exec_dapMemoryRead_reads {m : BitVec 2} (a : BitVec 64) (hobs : s.dbg.observes = true) (hbusy : s.dbg.busy = false)
    (hm : m ≠ 0 ∧ m ≠ 3) : exec (.dapMemoryRead m a) s =
      .next ((s.modDebug (Debug.aimed m a)).dapRead m.toNat a.toNat) := by
  rw [exec_dapMemoryRead, execDapMemoryRead, State.dapMemory, hobs, State.granted_yes hpow ha, if_neg (by simp only [hbusy, Bool.false_eq_true, false_or, not_or]; exact hm)]
  rfl

end Attached

/-- A line of ledger memory is asked for. -/
theorem State.dapRead_ledger {s : State} {a : Nat} (hlow : ledgerBase ≤ a / 64 * 64) (hhigh : a / 64 * 64 < ledgerBase + s.ledgerBytes)
    (hon : s.domainOn 8 = true) : s.dapRead 1 a =
      (s.modDebug fun d => { d with busy := true }).emit (.ledgerRead (BitVec.ofNat 64 (a / 64 * 64))) := by
  rw [State.dapRead]
  exact (if_pos rfl).trans ((if_neg (not_not_intro ⟨hlow, hhigh⟩)).trans (if_neg (not_not_intro hon)))

theorem State.dapRead_hole {s : State} {a : Nat}
    (h : s.nDies ≤ a / 64 * 64 / 2 ^ 36 ∨ (s.die (a / 64 * 64 / 2 ^ 36)).state ≠ .up) : s.dapRead 2 a = s.modDebug Debug.atHole := by
  rw [State.dapRead]
  refine (if_neg (by decide)).trans (if_neg ?_)
  rintro ⟨hfitted, -, hup⟩
  exact h.elim (fun h => absurd hfitted (by omega)) (fun h => h hup)

theorem State.dapRead_die {s : State} {a : Nat} (hd : a / 64 * 64 / 2 ^ 36 < s.nDies) (ho : a / 64 * 64 % 2 ^ 36 < dieBytes)
    (hup : (s.die (a / 64 * 64 / 2 ^ 36)).state = .up) : s.dapRead 2 a =
      (s.modDebug fun d => { d with busy := true }).askDie (a / 64 * 64 / 2 ^ 36) none false (.dapRead (a / 64 * 64 % 2 ^ 36)) := by
  rw [State.dapRead]
  exact (if_neg (by decide)).trans (if_pos ⟨hd, ho, hup⟩)

/-- The answer to a read that is out ends the access. -/
theorem exec_dapMemoryData_answered {s : State} (x : Option (List Byte)) (hbusy : s.dbg.busy = true) (hspace : s.dbg.space ≠ 0)
    (hsent : s.unsent .dap = false) : exec (.dapMemoryData x) s = .next (match x with
      | some b => (s.portDone .dap).modDebug fun d => { d with busy := false, data := slice b 0 64 }
      | none => (s.portDone .dap).modDebug Debug.atHole) := by
  rw [exec_dapMemoryData, execDapMemoryData, if_neg (by simp only [hbusy, hsent, not_true_eq_false, Bool.false_eq_true, or_false, false_or]; exact hspace)]
  cases x <;> rfl

/-! ### A write of a register through the debug access port (20 R550, R552) -/

/-- BAD_ACCESS_COUNT is the dword of the hub block at 0x10014. -/
theorem State.dapWriteNow_badAccess {s : State} (v : BitVec 32) (hrun : s.running = true) (hbench : (s.bench 0).detached = false)
    (hstaged : s.chip.staged = none) : s.dapWriteNow (dapAccess 0x10014 (leBytes 4 v.toNat)) =
      { s.modDebug fun d => { d with busy := false } with chip := { s.chip with badAccess := v } } := by
  have hmap : hubMap.write (s.modDebug fun d => { d with busy := false }) (dapAccess 0x10014 (leBytes 4 v.toNat)) =
      (s.modDebug fun d => { d with busy := false }).putHub 0x10014 v := by
    refine (hubMap.write_dword (s.modDebug fun d => { d with busy := false }) 0 0 (o := 0x10014) _ rfl
      (nofun : RegKind.word ≠ .absent) hstaged).trans ?_
    have hdata : dwordOf (dapAccess 0x10014 (leBytes 4 v.toNat)).data 0 = v := dwordOf_leBytes v
    rw [hdata]
    rfl
  rw [State.dapWriteNow]
  refine (if_neg (not_not_intro hrun)).trans ((if_pos (show inHub 0x10014 = true by decide)).trans ?_)
  rw [State.hubWrite]
  have hview : inView 0x10014 = false := by decide
  refine (if_neg (show ¬ (4 : Nat) = 0 by decide)).trans ?_
  refine (if_neg (fun h => absurd (hview.symm.trans h.1) Bool.false_ne_true)).trans ?_
  refine (if_neg (fun h => h.elim (fun h => absurd (hbench.symm.trans h) Bool.false_ne_true) fun h =>
    absurd (hview.symm.trans h) Bool.false_ne_true)).trans ?_
  refine (if_neg (fun h => absurd h.1 (show ¬ (0x10014 : Nat) = 0x10010 by decide))).trans ?_
  rw [hmap]
  rfl

/-- A write of BAD_ACCESS_COUNT, which lies in no switched domain, is served at once. -/
theorem exec_dapRegisterWrite_badAccess {s : State} (v : BitVec 32) (hrun : s.running = true) (ha : s.dbg.attached = true)
    (hfull : s.dbg.full = true) (hwrite : s.dbg.dapWrite = true) (hbusy : s.dbg.busy = false) (hbench : (s.bench 0).detached = false)
    (hstaged : s.chip.staged = none) : ∃ f : Debug → Debug,
      exec (.dapRegisterWrite 0x10014 v) s =
        .next { (s.modDebug f).modDebug fun d => { d with busy := false } with chip := { s.chip with badAccess := v } } := by
  have hpow : s.chip.powered = true := by
    simp only [State.running, Bool.and_eq_true] at hrun
    exact hrun.1.1
  have hok : (s.dbg.full && s.dbg.dapWrite && (0x10014 / 4 : Nat) != 0x20000) = true := by simp [hfull, hwrite]
  rw [exec_dapRegisterWrite, execDapRegisterWrite, State.dapRegisterWrite, hok, State.granted_yes hpow ha, if_neg (by simp [hbusy])]
  refine ⟨fun d => { d with busy := true, write := true, space := 0, addr := BitVec.ofNat 64 0x10014, data := putBytes d.data 0 ((leBytes 4 v.toNat).map fun b => (b, true)) }, congrArg Host.Outcome.next ?_⟩
  refine (if_neg (fun h => h.1 hrun)).trans ((State.route_served _ _ _ _ _ (.inl rfl)).trans ?_)
  exact State.dapWriteNow_badAccess (s := s.modDebug _) v hrun hbench hstaged

/-- Settles O29: the SMBus commands, then the port's register accesses, memory accesses and their data. -/
theorem smbusAndDebugReads : Obligations.SmbusAndDebugReads := by
  unfold Obligations.SmbusAndDebugReads
  refine ⟨fun s o h => exec_smbusPointer_stores h, fun s o pec h => exec_smbusPointer_counts h, fun s h => exec_smbusRead_ident h,
    fun s h => exec_smbusRead_unreadable h, ?restarts, fun s v pec h => exec_smbusRestart_counts h, fun s a hpow ha => exec_dapRegisterRead_quiet hpow ha,
    fun s q a hpow ha => exec_dapRegisterRead_refused hpow ha, fun s a v hpow ha => exec_dapRegisterWrite_refused hpow ha v, ?writes, ?ledger, ?hole, ?die, ?data, ?none⟩
  case restarts => exact fun s h => ⟨_, exec_smbusRestart_key h, rfl, rfl, rfl, rfl, rfl⟩
  case writes =>
    intro s v hrun ha hfull hwrite hbusy hbench hstaged
    obtain ⟨f, hexec⟩ := exec_dapRegisterWrite_badAccess v hrun ha hfull hwrite hbusy hbench hstaged
    exact ⟨_, hexec, rfl, rfl, rfl⟩
  case ledger =>
    intro s a hpow ha hobs hbusy hlow hhigh hon
    refine ⟨_, exec_dapMemoryRead_reads hpow ha a hobs hbusy (by decide), ?_⟩
    rw [show (1 : BitVec 2).toNat = 1 from rfl, State.dapRead_ledger (s := s.modDebug _) hlow hhigh hon]
    exact ⟨rfl, rfl⟩
  case hole =>
    intro s a hpow ha hobs hbusy hhole
    refine ⟨_, exec_dapMemoryRead_reads hpow ha a hobs hbusy (by decide), ?_⟩
    rw [show (2 : BitVec 2).toNat = 2 from rfl, State.dapRead_hole (s := s.modDebug _) hhole]
    exact ⟨rfl, rfl⟩
  case die =>
    rintro s a d o hpow ha hobs hbusy rfl rfl hd ho hup hqueue hroom
    refine ⟨_, exec_dapMemoryRead_reads hpow ha a hobs hbusy (by decide), ?_⟩
    rw [show (2 : BitVec 2).toNat = 2 from rfl, State.dapRead_die (s := s.modDebug _) hd ho hup]
    exact ⟨congrArg Debug.busy ((State.askDie_kept ..).rest .dbg rfl), State.askDie_free_out (s := (s.modDebug _).modDebug _) (m := .dapRead (a.toNat / 64 * 64 % 2 ^ 36)) (core := false) hup hqueue hroom none⟩
  case data =>
    exact fun s d hbusy hspace hsent => ⟨_, exec_dapMemoryData_answered (some d) hbusy hspace hsent,
      congrArg (fun x : Debug => { x with busy := false, data := slice d 0 64 }) ((State.portDone_kept ..).rest .dbg rfl)⟩
  case none =>
    exact fun s hbusy hspace hsent => ⟨_, exec_dapMemoryData_answered none hbusy hspace hsent,
      congrArg Debug.atHole ((State.portDone_kept ..).rest .dbg rfl)⟩

end Sys2Proof.Machine

/-! ## Locks and debug of the whittlers (O30; 18 R499; 20 R550–R559) -/

namespace Sys2Proof.Machine

/-! ### What a change of the locks leaves (18 R499) -/

theorem State.setLocks_recovery (s : State) (l : List Lock) :
    ∃ ts, (s.setLocks l).recovery = { s.recovery with locks := l, tallies := ts } := by
  rw [State.setLocks]
  exact ⟨_, ((State.postAll_kept _).rest .recovery rfl).trans
    ((Kept.foldl (fun s x => State.addDeadline_kept s _ _) _ _).rest .recovery rfl)⟩

theorem State.whittler_congr {s t : State} (h : t.recovery.whittlers = s.recovery.whittlers) (w : Nat) : t.whittler w = s.whittler w :=
  congrArg (fun x : Tab Whittler => tabGet x Whittler.reset w) h

theorem State.whittler_of_recovery {s t : State} (h : t.recovery = s.recovery) (w : Nat) : t.whittler w = s.whittler w :=
  State.whittler_congr (congrArg Recovery.whittlers h) w

@[simp] theorem State.setLocks_whittler (s : State) (l : List Lock) (w : Nat) : (s.setLocks l).whittler w = s.whittler w := by
  obtain ⟨ts, h⟩ := s.setLocks_recovery l
  exact State.whittler_congr (by rw [h]) w

@[simp] theorem State.modLocks_whittler (s : State) (v : Nat) (f : Lock → Lock) (w : Nat) : (s.modLocks v f).whittler w = s.whittler w :=
  s.setLocks_whittler _ w

@[simp] theorem State.holdLock_whittler (s : State) (v : Nat) (h : LockHeld) (w : Nat) : (s.holdLock v h).whittler w = s.whittler w :=
  State.setLocks_whittler _ _ w

/-- A whittler that resumes is the only one that changes. -/
theorem State.resumeWhittler_whittler (s : State) (w v : Nat) :
    (s.resumeWhittler w).whittler v = if v = w then { s.whittler w with halted := false } else s.whittler v := by
  refine (State.modLocks_whittler _ _ _ v).trans ?_
  split
  next h => subst h; exact s.modWhittler_whittler_same v _
  next h => exact s.modWhittler_whittler_ne _ h

/-- A whittler that halts is the only one that changes. -/
theorem State.haltWhittler_whittler (s : State) (w v : Nat) (l : List LockHeld) :
    (s.haltWhittler w l).whittler v = if v = w then { s.whittler w with halted := true, testing := false } else s.whittler v := by
  have hfrozen (s : State) (c : Prop) [Decidable c] : (if c then s.modLocks w (Lock.freeze s.now) else s).whittler v = s.whittler v := by
    split
    · exact s.modLocks_whittler _ _ v
    · rfl
  refine (hfrozen _ _).trans ((State.foldl_keeps (g := fun s => s.whittler v) (fun s h => s.holdLock_whittler w h v) l _).trans ?_)
  split
  next h =>
    subst h
    refine (State.modWhittler_whittler_same _ v _).trans ?_
    rw [State.setLocks_whittler]
    rfl
  next h =>
    refine (State.modWhittler_whittler_ne _ _ h).trans ?_
    rw [State.setLocks_whittler]
    rfl

/-- The honour bit is that of one whittler. -/
theorem State.putHonour_whittler {s : State} {w : Nat} (h : Bool) (hw : w < s.nWhittlers) (v : Nat) :
    (s.putHonour w h).whittler v = if v = w then { s.whittler w with honour := h } else s.whittler v := by
  have hset : (s.modWhittler w fun x => { x with honour := h }).whittler v = if v = w then { s.whittler w with honour := h } else s.whittler v := by
    split
    next h => subst h; exact s.modWhittler_whittler_same v _
    next h => exact s.modWhittler_whittler_ne _ h
  rw [State.putHonour, if_neg (by omega), ← hset]
  dsimp only
  split
  · split
    · exact State.modLocks_whittler _ _ _ v
    · rfl
  · exact State.modLocks_whittler _ _ _ v

/-! ### The debug port's view of a whittler (20 R556) -/

/-- Loading the selected register changes the port's data word alone. -/
theorem State.loadReg_dbg (s : State) : ∃ v, s.loadReg.dbg = { s.dbg with regData := v } := by
  rw [State.loadReg]
  dsimp only
  split
  · exact ⟨_, rfl⟩
  · split <;> exact ⟨_, rfl⟩

theorem State.loadReg_recovery (s : State) : s.loadReg.recovery = s.recovery := s.loadReg_kept.rest .recovery rfl

section Attached

variable {s : State} (hpow : s.chip.powered = true) (ha : s.dbg.attached = true)

include hpow ha

section Halts

variable (hm : s.dbg.mayHalt = true)

include hm

theorem exec_whittlerHalt_named (w : Nat) (l : List LockHeld) :
    exec (.whittlerHalt w l) s = .next ((s.nameWhittler w).haltFor w l).loadReg := by
  rw [exec_whittlerHalt, execWhittlerHalt, hm, State.granted_yes hpow ha]

theorem exec_whittlerStep_named (w : Nat) : exec (.whittlerStep w) s = .next ((s.nameWhittler w).stepWhittler w).loadReg := by
  rw [exec_whittlerStep, execWhittlerStep, hm, State.granted_yes hpow ha]

theorem exec_whittlerResume_halted {w : Nat} (hh : (s.whittler w).halted = true) :
    exec (.whittlerResume w) s = .next (((s.nameWhittler w).resumeWhittler w).regsRun w).loadReg := by
  rw [exec_whittlerResume, execWhittlerResume, hm, State.granted_yes hpow ha]
  exact congrArg (fun s : State => Host.Outcome.next s.loadReg) (if_pos hh)

theorem exec_whittlerHalt_halts {w : Nat} (l : List LockHeld) (hrun : s.whittlerRuns w = true) (hgroup : 5 ≤ s.groupRunning w) :
    exec (.whittlerHalt w l) s = .next ((s.nameWhittler w).haltWhittler w l).loadReg := by
  have hlive : (s.whittler w).halted = false := by
    simp only [State.whittlerRuns, Bool.and_eq_true, Bool.not_eq_true'] at hrun
    exact hrun.2
  rw [exec_whittlerHalt_named hpow ha hm, State.haltFor]
  refine congrArg (fun s : State => Host.Outcome.next s.loadReg) ((if_neg ?_).trans (if_neg ?_))
  · exact fun h => absurd (hlive.symm.trans h) Bool.false_ne_true
  · exact fun h => h.elim (fun h => h hrun) (fun h => absurd hgroup (Nat.not_le_of_lt h))

theorem exec_whittlerHalt_refused {w : Nat} (l : List LockHeld) (hlive : (s.whittler w).halted = false)
    (hno : s.whittlerRuns w = false ∨ s.groupRunning w < 5) :
    exec (.whittlerHalt w l) s = .next (s.nameWhittler w).dapRefuse.loadReg := by
  rw [exec_whittlerHalt_named hpow ha hm, State.haltFor]
  refine congrArg (fun s : State => Host.Outcome.next s.loadReg) ((if_neg ?_).trans (if_pos ?_))
  · exact fun h => absurd (hlive.symm.trans h) Bool.false_ne_true
  · exact hno.imp (fun h c => absurd (h.symm.trans c) Bool.false_ne_true) id

end Halts

/-- Without the right to halt. -/
theorem exec_whittler_refused {c : Instr} {w : Nat} {l : List LockHeld}
    (hc : c = .whittlerHalt w l ∨ c = .whittlerStep w ∨ c = .whittlerResume w) (hm : s.dbg.mayHalt = false) :
    exec c s = .next (s.modDebug fun d => { d with refused := true }) := by
  obtain rfl | rfl | rfl := hc
  · rw [exec_whittlerHalt, execWhittlerHalt, hm, State.granted_no hpow ha]
  · rw [exec_whittlerStep, execWhittlerStep, hm, State.granted_no hpow ha]
  · rw [exec_whittlerResume, execWhittlerResume, hm, State.granted_no hpow ha]

theorem exec_whittlerHonour_named (w : Nat) (h : Bool) (hm : s.dbg.mayHonour = true) :
    exec (.whittlerHonour w h) s = .next ((s.nameWhittler w).putHonour w h) := by
  rw [exec_whittlerHonour, execWhittlerHonour, hm, State.granted_yes hpow ha]

end Attached

/-! ### DEBUG_CTRL (20 R559) -/

theorem State.putDebugCtrl_dbg (s : State) (v : BitVec 32) : (s.putDebugCtrl v).dbg =
    { s.dbg with dapWrite := v.getLsbD 0, haltAllow := v.getLsbD 1, honourAllow := v.getLsbD 2 } := by
  refine ((State.setLocks_kept _ _).rest .dbg rfl).trans ?_
  split
  · rfl
  · exact (Kept.foldl (fun s w => State.resumeWhittler_kept s w) _ _).rest .dbg rfl

/-- Settles O30: each command in turn, through the whittlers it leaves. -/
theorem whittlerDebug : Obligations.WhittlerDebug := by
  unfold Obligations.WhittlerDebug
  refine ⟨?halt, ?refused, ?step, ?resume, ?honour, ?ctrl, fun s c w l hc hpow ha hm => exec_whittler_refused hpow ha hc hm⟩
  case halt =>
    intro s w l hpow ha hm hrun hgroup
    have hw (v : Nat) := (State.whittler_of_recovery (State.loadReg_recovery _) v).trans (State.haltWhittler_whittler (s.nameWhittler w) w v l)
    obtain ⟨x, hdbg⟩ := ((s.nameWhittler w).haltWhittler w l).loadReg_dbg
    refine ⟨_, exec_whittlerHalt_halts hpow ha hm l hrun hgroup, (hw w).trans (if_pos rfl), ?_, fun v hv => (hw v).trans (if_neg hv)⟩
    rw [hdbg]
    exact congrArg Debug.whittler ((State.haltWhittler_kept _ w l).rest .dbg rfl)
  case refused =>
    intro s w l hpow ha hm hlive hno
    obtain ⟨x, hdbg⟩ := (s.nameWhittler w).dapRefuse.loadReg_dbg
    exact ⟨_, exec_whittlerHalt_refused hpow ha hm l hlive hno, by rw [hdbg]; rfl, State.loadReg_recovery _,
      (State.loadReg_kept _).rest .bg rfl⟩
  case step =>
    intro s w hpow ha hm
    obtain ⟨x, hdbg⟩ := ((s.nameWhittler w).stepWhittler w).loadReg_dbg
    refine ⟨_, exec_whittlerStep_named hpow ha hm w, ?_⟩
    rw [State.loadReg_recovery, (State.loadReg_kept _).rest .out rfl, hdbg, State.stepWhittler]
    split
    next h => exact ⟨rfl, rfl, (if_pos h).symm, rfl⟩
    next h => exact ⟨rfl, rfl, (if_neg h).symm, rfl⟩
  case resume =>
    intro s w hpow ha hm hh
    have hw (v : Nat) := (State.whittler_of_recovery (t := (((s.nameWhittler w).resumeWhittler w).regsRun w).loadReg) (s := (s.nameWhittler w).resumeWhittler w)
      (State.loadReg_recovery _) v).trans (State.resumeWhittler_whittler (s.nameWhittler w) w v)
    exact ⟨_, exec_whittlerResume_halted hpow ha hm hh, (hw w).trans (if_pos rfl), fun v hv => (hw v).trans (if_neg hv)⟩
  case honour =>
    intro s w h hpow ha hm hlt
    have hw (v : Nat) := State.putHonour_whittler (s := s.nameWhittler w) h hlt v
    exact ⟨_, exec_whittlerHonour_named hpow ha w h hm, (hw w).trans (if_pos rfl), fun v hv => (hw v).trans (if_neg hv)⟩
  case ctrl =>
    intro s v hdec hd
    refine ⟨_, ?_, s.unstageHub.putDebugCtrl_dbg v⟩
    rw [exec_debugCtrlWrite, execDebugCtrlWrite, State.fromMgmt_served hdec hd]

end Sys2Proof.Machine

/-! ## Sweeps, locks, the watchdog and the error log (O32; 17 R489–R509; 21 R582, R584) -/

namespace Sys2Proof.Machine

/-! ### The steps of a sweep (17 R494) -/

theorem exec_sweepSettleTimeout_due {s : State} {b : Nat} {w : Sweep} (hat : s.sweepAt b .settle = true) (hw : (s.bench b).sweep = some w)
    (hdue : w.since.toNat + 1000 ≤ s.now.toNat) : exec (.sweepSettleTimeout b) s = .next (s.modSweep b fun w => { w with step := .cut }) := by
  rw [exec_sweepSettleTimeout, execSweepSettleTimeout, hw]
  exact congrArg Host.Outcome.next (if_pos ⟨hat, decide_eq_true hdue⟩)

theorem exec_sweepSettleTimeout_early {s : State} {b : Nat} {w : Sweep} (hw : (s.bench b).sweep = some w)
    (hearly : s.now.toNat < w.since.toNat + 1000) : exec (.sweepSettleTimeout b) s = .next s := by
  rw [exec_sweepSettleTimeout, execSweepSettleTimeout, hw]
  exact congrArg Host.Outcome.next (if_neg fun h => absurd (of_decide_eq_true h.2) (Nat.not_le_of_lt hearly))

theorem exec_sweepCut_cuts {s : State} {b : Nat} (hat : s.sweepAt b .cut = true) (hb : b ≠ 0 ∨ s.commandRuns = false) :
    exec (.sweepCut b) s = .next (s.cutBench b) := by
  rw [exec_sweepCut, execSweepCut]
  refine congrArg Host.Outcome.next (if_pos ⟨by rw [hat, Bool.true_or], ?_⟩)
  rintro ⟨h0, hrun⟩
  exact hb.elim (fun h => h h0) fun h => absurd (h.symm.trans hrun) Bool.false_ne_true

theorem exec_sweepDrainDone_drained {s : State} {b : Nat} (hat : s.sweepAt b .drain = true) (hw : s.dieWrites b = 0) :
    exec (.sweepDrainDone b) s = .next (s.modSweep b fun w => { w with step := .locks }) := by
  rw [exec_sweepDrainDone, execSweepDrainDone, if_pos ⟨hat, hw⟩]

theorem exec_sweepDrainDone_waits {s : State} {b : Nat} (hw : s.dieWrites b ≠ 0) : exec (.sweepDrainDone b) s = .next s := by
  rw [exec_sweepDrainDone, execSweepDrainDone, if_neg (fun h => hw h.2)]

theorem exec_sweepLocksTaken_reclaims {s : State} {b : Nat} (hat : s.sweepAt b .locks = true) (hfree : s.locksFree b = true) :
    exec (.sweepLocksTaken b) s = .next ((s.takeLocks b).reclaim b) := by
  rw [exec_sweepLocksTaken, execSweepLocksTaken, if_pos ⟨hat, hfree⟩]

theorem exec_sweepReclaimDone_disposes {s : State} {b : Nat} {w : Sweep} (hat : s.sweepAt b .reclaim = true) (hw : (s.bench b).sweep = some w)
    (hnone : w.placements = []) : exec (.sweepReclaimDone b) s = .next (s.dispose b) := by
  rw [exec_sweepReclaimDone, execSweepReclaimDone, if_pos ⟨hat, by rw [hw, Option.map_some, hnone]; rfl⟩]

/-! ### Reclaiming (17 R494) -/

/-- A bench that is reclaimed while it has no placement. -/
theorem State.reclaim_bench {s : State} {b : Nat} (hnone : ∀ p ∈ s.placements, p.home ≠ s.hubId ∨ p.bench ≠ b) :
    (s.reclaim b).bench b = { s.bench b with
      modeD := .fresh (s.bench b).modeD.present, grants := [], regions := []
      sweep := (s.bench b).sweep.map fun w => { w with step := .reclaim, placements := [] } } := by
  have hmine : s.placements.filter (fun p => p.home == s.hubId && p.bench == b) = [] := by
    rw [List.filter_eq_nil_iff]
    intro p hp h
    rw [Bool.and_eq_true, beq_iff_eq, beq_iff_eq] at h
    exact (hnone p hp).elim (· h.1) (· h.2)
  have hfilled (t : State) (l : List Grant) (h : t.benches = s.benches) : (t.fillGrants l).bench b = s.bench b :=
    congrArg (fun x => tabGet x Bench.reset b) (((t.fillGrants_kept l).rest .benches rfl).trans h)
  rw [State.reclaim, hmine]
  have hswept (t : State) (f : Sweep → Sweep) : (t.modSweep b f).bench b = { t.bench b with sweep := (t.bench b).sweep.map f } :=
    t.modBench_bench_same b _
  refine (hswept _ _).trans ?_
  rw [State.modBench_bench_same, hfilled]
  · rfl
  · rfl

/-- Of the cached translations, those of other benches stay. -/
theorem State.reclaim_cache (s : State) (b : Nat) : ∀ e ∈ (s.reclaim b).headstock.cache, e.bench ≠ b := by
  rw [State.reclaim]
  dsimp only
  rw [(State.modSweep_kept ..).rest .headstock rfl, (State.modBench_kept ..).rest .headstock rfl, (State.fillGrants_kept ..).rest .headstock rfl]
  intro e he
  simpa using (List.mem_filter.mp he).2

/-! ### Disposing of the bench (17 R494, R495) -/

/-- What the end of a sweep settles of a bench. -/
def Bench.standing (x : Bench) : BenchState × BitVec 16 × Limits := (x.state, x.incarn, x.limits)

/-- The answer to the command that a sweep may run for. -/
def State.disposeAnswer (s : State) (b : Nat) (w : Sweep) : State :=
  if ¬ w.command then s
  else if ¬ s.mailbox.busy then s.commandDone
  else if s.mailbox.code = 1 then (if w.release then s.endCommand resBadState 0 else s.endCommand resOk (s.bench b).token)
  else s.endCommand resOk 0

/-- Each ring of the bench gives its channel up, or drains it where writes are out. -/
def State.disposeRings (s : State) (b : Nat) : State :=
  (s.bench b).rings.foldl (fun s e => if s.ringWrites b e.1 = 0 then s.giveUp b e.1 1 else s.drainChannel b e.1) s

theorem State.notice_standing (s : State) (b type cause ring : Nat) (a0 : BitVec 64) (a1 : BitVec 32) (subject c : Nat) :
    ((s.notice b type cause ring a0 a1 subject).bench c).standing = (s.bench c).standing :=
  State.notice_keeps (g := Bench.standing) (fun _ _ _ => rfl) ..

theorem State.endCommand_standing (s : State) (r : Nat) (t : BitVec 64) (c : Nat) : ((s.endCommand r t).bench c).standing = (s.bench c).standing :=
  State.endCommand_keeps (g := Bench.standing) (fun _ _ _ _ => rfl) ..

theorem State.disposeAnswer_standing (s : State) (b : Nat) (w : Sweep) (c : Nat) :
    ((s.disposeAnswer b w).bench c).standing = (s.bench c).standing := by
  rw [State.disposeAnswer]
  split
  · rfl
  split
  · exact State.notice_standing ..
  split
  · split <;> exact State.endCommand_standing ..
  · exact State.endCommand_standing ..

theorem State.disposeRings_standing (s : State) (b c : Nat) : ((s.disposeRings b).bench c).standing = (s.bench c).standing := by
  refine State.foldl_keeps (g := fun s => (s.bench c).standing) (fun s e => ?_) _ s
  split
  · exact State.giveUp_keeps (g := Bench.standing) (fun _ _ _ => rfl) ..
  · rw [State.drainChannel]
    split
    · rfl
    · exact State.modRing_keeps (g := Bench.standing) (fun _ _ => rfl) ..

section Dispose

variable {s : State} {b : Nat} {w : Sweep} (hw : (s.bench b).sweep = some w)

include hw

/-- A RELEASE sweep leaves the bench VACANT with its incarnation. -/
theorem State.dispose_released (hrelease : w.release = true) :
    ((s.dispose b).bench b).state = .vacant ∧ ((s.dispose b).bench b).incarn = (s.bench b).incarn := by
  have hstanding : ((s.dispose b).bench b).standing = ({ Bench.reset with incarn := (s.bench b).incarn } : Bench).standing := by
    rw [State.dispose, hw]
    dsimp only
    rw [if_pos hrelease]
    refine (State.disposeAnswer_standing _ b w b).trans ((State.notice_standing ..).trans ?_)
    rw [State.setBench_bench_same]
    exact congrArg (fun i => ((Bench.reset.state, i, Bench.reset.limits) : BenchState × BitVec 16 × Limits))
      (congrArg (fun x => x.2.1) (s.disposeRings_standing b b))
  exact ⟨congrArg Prod.fst hstanding, congrArg (fun x => x.2.1) hstanding⟩

/-- A RESET sweep leaves it ACTIVE with its incarnation and limits. -/
theorem State.dispose_reset (hrelease : w.release = false) (hb : b ≠ 0) :
    ((s.dispose b).bench b).state = .active ∧ ((s.dispose b).bench b).incarn = (s.bench b).incarn ∧
      ((s.dispose b).bench b).limits = (s.bench b).limits := by
  have hrings := s.disposeRings_standing b b
  have hkeeps : ¬ w.release = true := fun h => absurd (hrelease.symm.trans h) Bool.false_ne_true
  have hstanding : ((s.dispose b).bench b).standing = (.active, (s.bench b).incarn, (s.bench b).limits) := by
    rw [State.dispose, hw]
    dsimp only
    rw [if_neg hkeeps, if_neg hb]
    refine (State.disposeAnswer_standing _ b w b).trans ((State.notice_standing ..).trans ((State.notice_standing ..).trans ?_))
    rw [State.modBench_bench_same]
    exact congrArg (fun x => ((BenchState.active, x.2.1, x.2.2) : BenchState × BitVec 16 × Limits)) hrings
  exact ⟨congrArg Prod.fst hstanding, congrArg (fun x => x.2.1) hstanding, congrArg (fun x => x.2.2) hstanding⟩

end Dispose

/-! ### Locks (17 R499) and the watchdog (17 R489, R491) -/

theorem exec_lockExpiry_early {s : State} {i : Nat} {l : Lock} (hl : s.recovery.locks[i]? = some l)
    (hno : l.broken = true ∨ l.frozen.isSome = true ∨ s.now.toNat < l.expiry.toNat) : exec (.lockExpiry i) s = .next s := by
  rw [exec_lockExpiry, execLockExpiry, hl]
  exact if_pos hno

/-- The only lock there is, of a halted whittler, at its time. -/
theorem exec_lockExpiry_breaks {s : State} {l : Lock} (hl : s.recovery.locks = [l]) (hbroken : l.broken = false) (hfrozen : l.frozen = none)
    (hdue : l.expiry.toNat ≤ s.now.toNat) (hhalted : (s.whittler l.whittler).halted = true) (hon : s.domainOn 8 = true) :
    exec (.lockExpiry 0) s = .next (s.setLocks [{ l with broken := true }]) := by
  have hno : ¬ (l.broken = true ∨ l.frozen.isSome = true ∨ s.now.toNat < l.expiry.toNat) := by
    simp only [hbroken, hfrozen, Option.isSome_none, Bool.false_eq_true, false_or, Nat.not_lt]
    exact hdue
  have hbreak : l.break = { l with broken := true } := by rw [Lock.break, ← hfrozen]
  rw [exec_lockExpiry, execLockExpiry, hl]
  dsimp only [List.getElem?_cons_zero]
  rw [if_neg hno, State.ownedBy_on hon, if_pos hhalted, hl, ← hbreak]
  rfl

@[simp] theorem State.logEntry_whittler (s : State) (cls code : Nat) (fault : Bool) (a c : BitVec 64) (w : Nat) :
    (s.logEntry cls code fault a c).whittler w = s.whittler w := by
  rw [State.logEntry]
  exact State.whittler_of_recovery ((State.notice_kept ..).rest .recovery rfl) w

theorem State.fenceWhittler_fenced (s : State) (w : Nat) : ((s.fenceWhittler w).whittler w).fenced = true := by
  have hadd (t : State) (c : FaultCause) : (t.addFault c).whittler w = t.whittler w := by
    rw [State.addFault]
    split <;> rfl
  have hset (t : State) (h : (t.whittler w).fenced = true) (c : Prop) [Decidable c] (x y : BitVec 64) :
      ((if c then t.logCause 6 2 .whittlers x y else t.logError 6 2 x y).whittler w).fenced = true := by
    split
    · rw [State.logCause, State.logEntry_whittler, hadd]
      exact h
    · rw [State.logError, State.logEntry_whittler]
      exact h
  refine hset _ ?_ _ _ _
  rw [State.modLocks_whittler, State.modWhittler_whittler_same]

/-- The state after the watchdog's reset of a whittler, before a fence. -/
def State.watchdogReset (s : State) (w : Nat) (recent : List (BitVec 64)) : State :=
  let s := (s.modWhittler w fun x => { x with resets := recent, testing := false }).modLocks w Lock.break
  { s with bg := { s.bg with testing := s.bg.testing.filter fun t => t != TestUnit.whittler w } }

theorem exec_whittlerWatchdog_resets {s : State} {w : Nat} {recent : List (BitVec 64)} (hrun : s.running = true) (hw : s.whittlerRuns w = true)
    (hrecent : s.now :: ((s.whittler w).resets.filter fun t => decide (s.now.toNat < t.toNat + 1000000)).take 2 = recent) :
    exec (.whittlerWatchdog w) s = .next (if recent.length = 3
      then ((s.watchdogReset w recent).logError 6 1 (BitVec.ofNat 64 w) 0).fenceWhittler w
      else (s.watchdogReset w recent).logError 6 1 (BitVec.ofNat 64 w) 0) := by
  rw [exec_whittlerWatchdog, execWhittlerWatchdog, if_neg (by simp [hrun, hw])]
  dsimp only
  rw [hrecent]
  rfl

theorem State.watchdogReset_whittler (s : State) (w : Nat) (recent : List (BitVec 64)) :
    (s.watchdogReset w recent).whittler w = { s.whittler w with resets := recent, testing := false } :=
  (State.modLocks_whittler ..).trans (s.modWhittler_whittler_same w _)

theorem State.watchdogReset_logSeq (s : State) (w : Nat) (recent : List (BitVec 64)) :
    (s.watchdogReset w recent).recovery.logSeq = s.recovery.logSeq := by
  obtain ⟨ts, h⟩ := (s.modWhittler w fun x => { x with resets := recent, testing := false }).setLocks_recovery
    ((s.modWhittler w fun x => { x with resets := recent, testing := false }).recovery.locks.map fun l => if l.whittler = w then Lock.break l else l)
  have hseq := congrArg Recovery.logSeq h
  exact hseq

/-! ### Reads of the error log (17 R508; 21 R584) -/

/-- An entry whose number is the one that is read. -/
def LogEntry.readOnce (q : BitVec 32) (e : LogEntry) : LogEntry := if e.seq = q then { e with read := true } else e

/-- Both copies of the entry, the ring's and the mirror's, are marked. -/
theorem State.markRead_log (s : State) (q : BitVec 32) : (s.markRead q).recovery.log =
    tabMod none (q.toNat % 1024) (Option.map (LogEntry.readOnce q)) s.recovery.log := by
  rw [State.markRead]
  dsimp only
  split <;> rfl

theorem State.markRead_mirror (s : State) (q : BitVec 32) : (s.markRead q).recovery.mirror =
    tabMod none (q.toNat % 64) (Option.map (LogEntry.readOnce q)) s.recovery.mirror := by
  rw [State.markRead]
  dsimp only
  split <;> rfl

theorem State.markRead_logIndex (s : State) (q : BitVec 32) : (s.markRead q).recovery.logIndex = s.recovery.logIndex := by
  rw [State.markRead]
  dsimp only
  split <;> rfl

/-- Once a restart is over the entry's cause goes. -/
theorem State.markRead_ends {s : State} (hphase : s.chip.phase ≠ .restarting) (q : BitVec 32) :
    (s.markRead q).recovery.faults.contains (.entry q) = false := by
  have hphase : (s.chip.phase == .restarting) = false := by simpa using hphase
  rw [State.markRead]
  dsimp only
  rw [hphase, Bool.false_and, if_neg Bool.false_ne_true]
  exact State.endFault_notMem ..

/-- During a restart the cause of a clock or thermal entry stays. -/
theorem State.markRead_early {s : State} {e : LogEntry} (hphase : s.chip.phase = .restarting)
    (he : tabGet s.recovery.mirror none (e.seq.toNat % 64) = some e) (hcls : e.cls = 1 ∨ e.cls = 2) :
    (s.markRead e.seq).recovery.faults = s.recovery.faults := by
  have hearly : (s.chip.phase == .restarting && ((tabGet s.recovery.mirror none (e.seq.toNat % 64)).map fun x =>
      x.seq == e.seq && (x.cls == 1 || x.cls == 2)).getD false) = true := by
    simpa [hphase, he] using hcls
  rw [State.markRead]
  dsimp only
  rw [if_pos hearly]

theorem State.phase_of_running {s : State} (h : s.running = true) : s.chip.phase ≠ .restarting := by
  simp only [State.running, Bool.and_eq_true, Bool.not_eq_true', beq_eq_false_iff_ne] at h
  exact h.2

theorem exec_errlogEntryRead_log {s : State} {e : LogEntry} (n : Nat) (hrun : s.running = true)
    (he : tabGet s.recovery.log none s.recovery.logIndex.toNat = some e) : exec (.errlogEntryRead false n) s =
      .next { s.markRead e.seq with recovery := { (s.markRead e.seq).recovery with logIndex := s.recovery.logIndex + 1 } } := by
  rw [exec_errlogEntryRead, execErrlogEntryRead, if_neg Bool.false_ne_true, if_pos hrun, State.readLog]
  rw [if_neg Bool.false_ne_true]
  dsimp only
  rw [he]

theorem exec_errlogEntryRead_mirror {s : State} {e : LogEntry} {n : Nat} (hpow : s.chip.powered = true)
    (he : tabGet s.recovery.mirror none n = some e) : exec (.errlogEntryRead true n) s = .next (s.markRead e.seq) := by
  rw [exec_errlogEntryRead, execErrlogEntryRead, if_pos rfl, if_pos hpow, State.readLog, if_pos rfl, he]

/-- An entry found where its number puts it is marked there. -/
theorem markedThere {t : Tab (Option LogEntry)} {e : LogEntry} {k : Nat} (he : tabGet t none k = some e) :
    tabGet (tabMod none k (Option.map (LogEntry.readOnce e.seq)) t) none k = some { e with read := true } := by
  rw [tabGet_tabMod_same, he, Option.map_some, LogEntry.readOnce, if_pos rfl]

/-- Settles O32: the sweep's steps in order, then locks, watchdog, tally and error log. -/
theorem sweepsAndRecovery : Obligations.SweepsAndRecovery := by
  unfold Obligations.SweepsAndRecovery
  refine ⟨fun s b w => exec_sweepSettleTimeout_due, fun s b w => exec_sweepSettleTimeout_early, fun s b hat hb => exec_sweepCut_cuts hat hb,
    fun s b => exec_sweepDrainDone_drained, fun s b _ => exec_sweepDrainDone_waits, fun s b => exec_sweepLocksTaken_reclaims, ?reclaimed,
    ?released, ?reset, ?lock, fun s i l hl hno => exec_lockExpiry_early hl hno, ?watchdog, ?fence, ?tally, ?log, ?mirror, ?early⟩
  case reclaimed =>
    intro s b hat hfree hnone
    have hbench : ((s.takeLocks b).reclaim b).bench b = _ := State.reclaim_bench (s := s.takeLocks b) hnone
    refine ⟨_, exec_sweepLocksTaken_reclaims hat hfree, by rw [hbench], by rw [hbench], by rw [hbench]; rfl, State.reclaim_cache _ b, ?_⟩
    rw [State.sweepAt, Bool.and_eq_true] at hat ⊢
    obtain ⟨hstate, hstep⟩ := hat
    rw [hbench]
    refine ⟨hstate, ?_⟩
    cases hw : (s.bench b).sweep with
    | none => rw [hw] at hstep; exact absurd hstep Bool.false_ne_true
    | some w => exact (congrArg (fun o => ((o.map fun w : Sweep => { w with step := .reclaim, placements := [] }).map fun w =>
        w.step == .reclaim).getD false) hw).trans rfl
  case released =>
    exact fun s b w _ hat hw hnone hrelease => ⟨_, exec_sweepReclaimDone_disposes hat hw hnone, State.dispose_released hw hrelease⟩
  case reset =>
    exact fun s b w hb hat hw hnone hrelease => ⟨_, exec_sweepReclaimDone_disposes hat hw hnone, State.dispose_reset hw hrelease hb⟩
  case lock =>
    intro s l hl hbroken hfrozen hdue hhalted hon
    obtain ⟨ts, h⟩ := s.setLocks_recovery [{ l with broken := true }]
    exact ⟨_, exec_lockExpiry_breaks hl hbroken hfrozen hdue hhalted hon, by rw [h]⟩
  case watchdog =>
    intro s w hrun hw hresets _
    refine ⟨_, exec_whittlerWatchdog_resets (recent := [s.now]) hrun hw (by rw [hresets]; rfl), ?_⟩
    rw [if_neg (show ¬ [s.now].length = 3 by simp), State.logError, State.logEntry_whittler, State.watchdogReset_whittler]
    exact ⟨rfl, (State.logEntry_recovery ..).1.trans (congrArg (· + 1) (s.watchdogReset_logSeq w _))⟩
  case fence =>
    intro s w a b hrun hw hresets ha hb
    refine ⟨_, exec_whittlerWatchdog_resets (recent := [s.now, a, b]) hrun hw ?_, ?_⟩
    · rw [hresets, List.filter_cons_of_pos (by simpa using ha), List.filter_cons_of_pos (by simpa using hb)]
      rfl
    · rw [if_pos (show [s.now, a, b].length = 3 from rfl)]
      exact State.fenceWhittler_fenced ..
  case tally =>
    intro s hrun
    rw [exec_tallyQuery, execTallyQuery, if_pos hrun]
    rfl
  case log =>
    intro s n e hrun he hseq
    refine ⟨_, exec_errlogEntryRead_log n hrun he, rfl, ?_, State.markRead_ends (State.phase_of_running hrun) _⟩
    dsimp only
    rw [State.markRead_log, hseq]
    exact markedThere he
  case mirror =>
    intro s n e hpow hphase he hseq
    refine ⟨_, exec_errlogEntryRead_mirror hpow he, State.markRead_logIndex .., ?_, State.markRead_ends hphase _⟩
    rw [State.markRead_mirror, hseq]
    exact markedThere he
  case early =>
    intro s n e hpow hphase he hseq hcls
    refine ⟨_, exec_errlogEntryRead_mirror hpow he, ?_, State.markRead_early hphase (hseq.symm ▸ he) hcls⟩
    rw [State.markRead_mirror, hseq]
    exact markedThere he

end Sys2Proof.Machine

/-! ## Lane recalibration, the scrub and telemetry (O55; 18 R514–R525) -/

namespace Sys2Proof.Machine

/-! ### Of the dies, what a request at one port leaves (13 R375, R376) -/

theorem State.die_of_spindles {s t : State} (h : t.spindles = s.spindles) (d : Nat) : t.die d = s.die d :=
  congrArg (fun x : Tab Spindle => tabGet x Spindle.reset d) h

section Port

variable {α : Type} {g : Spindle → α} (h : ∀ x q u n l, g { x with queue := q, sent := u, turns := n, heldMsgs := l } = g x)

include h

theorem State.sendDie_keeps (s : State) (d : Nat) (m : DieMsg) (k : Nat) : g ((s.sendDie d m).die k) = g (s.die k) := by
  rw [State.sendDie]
  split_ifs
  · exact State.modDie_keeps (fun x => h x x.queue x.sent x.turns _) s d k
  · rw [State.emit_at_die, State.countPerf_at_die]

theorem State.grantPort_keeps (s : State) (d : Nat) (q : PortReq) (r : Bool) (k : Nat) : g ((s.grantPort d q r).die k) = g (s.die k) := by
  rw [State.grantPort_eq, State.sendDie_keeps h, State.paid_at_die]
  exact State.modDie_keeps (fun x => h x _ _ _ x.heldMsgs) s d k

theorem State.pumpPort_keeps (d k n : Nat) (s : State) : g ((s.pumpPort d n).die k) = g (s.die k) := by
  induction n generalizing s with
  | zero => rfl
  | succ n ih =>
    have hnext := s.nextPort_kept d
    rw [State.pumpPort]
    split
    next t ht =>
      rw [ht] at hnext
      exact congrArg g (State.die_of_spindles (hnext.rest .spindles rfl) k)
    next q r t ht =>
      rw [ht] at hnext
      rw [ih, State.grantPort_keeps h]
      exact congrArg g (State.die_of_spindles (hnext.rest .spindles rfl) k)

theorem State.askDie_keeps (s : State) (d : Nat) (b : Option Nat) (c : Bool) (m : DieMsg) (k : Nat) :
    g ((s.askDie d b c m).die k) = g (s.die k) := by
  rw [State.askDie_eq, State.pumpPort_keeps h]
  exact State.modDie_keeps (fun x => h x _ x.sent x.turns x.heldMsgs) s d k

end Port

theorem State.sendDie_die_ne (s : State) {d e : Nat} (he : e ≠ d) (m : DieMsg) : (s.sendDie d m).die e = s.die e := by
  rw [State.sendDie]
  split_ifs
  · exact s.modDie_die_ne _ he
  · rw [State.emit_at_die, State.countPerf_at_die]

theorem State.grantPort_die_ne (s : State) {d e : Nat} (he : e ≠ d) (q : PortReq) (r : Bool) : (s.grantPort d q r).die e = s.die e := by
  rw [State.grantPort_eq, State.sendDie_die_ne _ he, State.paid_at_die]
  exact s.modDie_die_ne _ he

theorem State.pumpPort_die_ne {d e : Nat} (he : e ≠ d) (n : Nat) (s : State) : (s.pumpPort d n).die e = s.die e := by
  induction n generalizing s with
  | zero => rfl
  | succ n ih =>
    have hnext := s.nextPort_kept d
    rw [State.pumpPort]
    split
    next t ht =>
      rw [ht] at hnext
      exact State.die_of_spindles (hnext.rest .spindles rfl) e
    next q r t ht =>
      rw [ht] at hnext
      rw [ih, State.grantPort_die_ne _ he]
      exact State.die_of_spindles (hnext.rest .spindles rfl) e

theorem State.askDie_die_ne (s : State) {d e : Nat} (he : e ≠ d) (b : Option Nat) (c : Bool) (m : DieMsg) :
    (s.askDie d b c m).die e = s.die e := by
  rw [State.askDie_eq, State.pumpPort_die_ne he]
  exact s.modDie_die_ne _ he

/-- The hub's own request waits at a port whose shared credits are used up. -/
theorem State.askDie_full {s : State} {d : Nat} {m : DieMsg} (hup : (s.die d).state = .up) (hq : (s.die d).queue = [])
    (hroom : (s.die d).room false (s.numbered m).blocks = false) : s.askDie d none false m = s.queueDie d ⟨none, false, s.numbered m⟩ := by
  have hdie := s.queueDie_die_same d ⟨none, false, s.numbered m⟩
  rw [hq] at hdie
  have hfull : ({ s.die d with queue := [⟨none, false, s.numbered m⟩] } : Spindle).room false (s.numbered m).blocks = false := hroom
  have hnone : (s.queueDie d ⟨none, false, s.numbered m⟩).nextPort d = (none, s.queueDie d ⟨none, false, s.numbered m⟩) := by
    rw [State.nextPort, hdie]
    dsimp only
    rw [if_neg (by simp [hup])]
    simp [hfull]
  rw [State.askDie_eq, hdie, List.nil_append, List.length_singleton, State.pumpPort, hnone]

/-! ### Lane recalibration (18 R521, R522) -/

section Recal

variable {s : State} {d : Nat} (hup : (s.die d).state = .up)

include hup

theorem State.recalLane_usable (n : Nat) : s.recalLane (.spindle d) n false true =
    s.modDie d fun x => { x with recal := tabSet n (s.now, s.hearth.tjMax) x.recal } :=
  State.modDie_congr (if_neg (not_not_intro hup))

theorem State.recalLane_unusable (n : Nat) : s.recalLane (.spindle d) n false false =
    s.modDie d fun x => { x with state := .recovery, crcRun := 0 } :=
  State.modDie_congr ((if_neg (not_not_intro hup)).trans (Spindle.retrain_of_up hup))

theorem State.recalLane_forced (n : Nat) : s.recalLane (.spindle d) n true true =
    s.modDie d fun x => { x with recalForced := x.recalForced + 1, recal := tabSet n (s.now, s.hearth.tjMax) x.recal } :=
  State.modDie_congr (if_neg (not_not_intro hup))

end Recal

theorem State.recalLane_envan {s : State} {l : Nat} (hup : (s.envan l).state = .up) (n : Nat) : s.recalLane (.envan l) n false true =
    s.modEnvan l fun x => { x with recal := tabSet n (s.now, s.hearth.tjMax) x.recal } :=
  State.modEnvan_congr (if_neg (not_not_intro hup))

theorem exec_recalForce_forces {s : State} {l : LinkName} {n : Nat} (hdue : s.recalDue l n = true) (u : Bool) :
    exec (.recalForce l n false u) s = .next (s.recalLane l n true u) := by
  rw [exec_recalForce, execRecalForce, if_neg (by simp [hdue])]

theorem exec_recalForce_idle {s : State} {l : LinkName} {n : Nat} {x : Bool} (u : Bool) (h : x = true ∨ s.recalDue l n = false) :
    exec (.recalForce l n x u) s = .next s := by
  rw [exec_recalForce, execRecalForce, if_pos (by simpa using h)]

/-! ### The scrub of the ledger (18 R514–R518) -/

theorem State.logEntry_marked (s : State) (cls code : Nat) (fault : Bool) (a b : BitVec 64) :
    (s.logEntry cls code fault a b).recovery.marked = s.recovery.marked := by
  rw [State.logEntry, (State.notice_kept ..).rest .recovery rfl]

/-- What the scrub does with a block, by what it finds there. -/
def State.scrubFound (s : State) : ScrubFind → State
  | .clean => s
  | .corrected _ => { s with bg := { s.bg with ce := s.bg.ce + 1 } }
  | .uncorrectable => s.scrubUe
  | .firmware owner => s.scrubUe.firmwareLost owner

theorem exec_scrubBlock_scrubs {s : State} (hrun : s.running = true) (hon : s.domainOn 8 = true) (hscrub : s.bg.scrubbing = true) (x : ScrubFind) :
    exec (.scrubBlock x) s = .next (s.scrubFound x).scrubOn := by
  rw [exec_scrubBlock]
  unfold execScrubBlock
  rw [if_neg (by simp [hrun, hon, hscrub])]
  cases x <;> rfl

theorem State.scrubUe_bg (s : State) : s.scrubUe.bg = { s.bg with ue := s.bg.ue + 1 } :=
  (State.logEntry_kept ..).rest .bg rfl

theorem State.scrubUe_marked (s : State) : s.scrubUe.recovery.marked.contains (s.bg.position.toNat / 256) = true := by
  have hmark (l : List Nat) (k : Nat) : (if l.contains k then l else l ++ [k]).contains k = true := by
    split
    next h => exact h
    next => simp
  refine (congrArg (fun l : List Nat => l.contains (s.bg.position.toNat / 256)) (State.logEntry_marked ..)).trans ?_
  exact hmark _ _

theorem exec_scrubPassStart_starts {s : State} (hrun : s.running = true) (hon : s.domainOn 8 = true) (hidle : s.bg.scrubbing = false)
    (hdue : s.bg.passStart.toNat + 14400000000 ≤ s.now.toNat) : exec .scrubPassStart s =
      .next { s with bg := { s.bg with scrubbing := true, position := 0, passStart := s.now, floor := false } } := by
  have hno : ¬ (¬ s.running ∨ ¬ s.domainOn 8 ∨ s.bg.scrubbing ∨ s.now.toNat < s.bg.passStart.toNat + 14400000000) := by
    simp only [hrun, hon, hidle, not_true_eq_false, Bool.false_eq_true, false_or, Nat.not_lt]
    exact hdue
  rw [exec_scrubPassStart, execScrubPassStart, if_neg hno]

theorem exec_scrubPassStart_early {s : State} (h : s.now.toNat < s.bg.passStart.toNat + 14400000000) : exec .scrubPassStart s = .next s := by
  rw [exec_scrubPassStart, execScrubPassStart, if_pos (.inr (.inr (.inr h)))]

/-! ### The scrub of a die (18 R519) -/

/-- The die with a scrub request out. -/
def Spindle.scrubAsked (now : BitVec 64) (x : Spindle) : Spindle :=
  { x with scrubbing := true, scrubAt := now, scrubStart := if x.scrubPos = 0 then now else x.scrubStart }

/-- The die with its position moved on past the scrubbed 1 MiB. -/
def Spindle.scrubbed (x : Spindle) : Spindle :=
  { x with
    scrubbing := false, scrubPos := if x.scrubPos.toNat + 2 ^ 20 < dieBytes then BitVec.ofNat 64 (x.scrubPos.toNat + 2 ^ 20) else 0
    sent := x.sent.eraseP fun u => u.key == .scrub }

theorem Spindle.scrubbed_queue (x : Spindle) : x.scrubbed.queue = x.queue := by rw [Spindle.scrubbed]

theorem exec_dieScrubRequest_asks {s : State} {d : Nat} (hup : (s.die d).state = .up) (hidle : (s.die d).scrubbing = false)
    (hdue : (s.die d).scrubAt.toNat + 100000 ≤ s.now.toNat) : exec (.dieScrubRequest d) s =
      .next ((s.modDie d (Spindle.scrubAsked s.now)).askDie d none false (.scrub (s.die d).scrubPos.toNat (2 ^ 20))) := by
  have hno : ¬ ((s.die d).state ≠ .up ∨ (s.die d).scrubbing ∨ s.now.toNat < (s.die d).scrubAt.toNat + 100000) := by
    simp only [hup, hidle, ne_eq, not_true_eq_false, Bool.false_eq_true, false_or, Nat.not_lt]
    exact hdue
  rw [exec_dieScrubRequest, execDieScrubRequest, if_neg hno]
  rfl

theorem exec_dieScrubAck_acknowledged {s : State} {d : Nat} (hscrub : (s.die d).scrubbing = true)
    (hsent : ((s.die d).sent.any fun u => u.key == .scrub) = true) (hq : (s.die d).queue = []) :
    exec (.dieScrubAck d) s = .next (s.modDie d Spindle.scrubbed) := by
  have hlen : ((s.modDie d Spindle.scrubbed).die d).queue.length = 0 := by
    rw [State.modDie_die_same]
    rw [Spindle.scrubbed_queue, hq, List.length_nil]
  rw [exec_dieScrubAck, execDieScrubAck, if_neg (by simp [hscrub, hsent])]
  show Host.Outcome.next ((s.modDie d Spindle.scrubbed).pumpPort d ((s.modDie d Spindle.scrubbed).die d).queue.length) = _
  rw [hlen, State.pumpPort]

/-! ### Telemetry (18 R525) -/

theorem exec_telemetrySnapshot_sends {s : State} (hrun : s.running = true) (hdue : s.bg.telemDue s.now = true) (hfree : s.telemetryQueued = false) :
    exec .telemetrySnapshot s = .next (({ s with bg := { s.bg with telemSeq := s.bg.telemSeq + 1, telemAt := some s.now } }).egress
      s.mgmtFn.1 0 0 64 0 (.hostWrite s.mgmtFn.1 0 plainAttr s.bg.telemAddr.toNat s.telemetry)) := by
  rw [exec_telemetrySnapshot, execTelemetrySnapshot, if_neg (by simp [hrun, hdue])]
  dsimp only
  rw [hfree]
  rfl

theorem exec_telemetrySnapshot_skips {s : State} (hrun : s.running = true) (hdue : s.bg.telemDue s.now = true) (hwaits : s.telemetryQueued = true) :
    exec .telemetrySnapshot s = .next { s with bg := { s.bg with
      telemSeq := s.bg.telemSeq + 1, telemAt := some s.now, telemSkipped := s.bg.telemSkipped + 1 } } := by
  rw [exec_telemetrySnapshot, execTelemetrySnapshot, if_neg (by simp [hrun, hdue])]
  dsimp only
  rw [hwaits]
  rfl

theorem exec_telemetrySnapshot_early {s : State} (h : s.bg.telemDue s.now = false) : exec .telemetrySnapshot s = .next s := by
  rw [exec_telemetrySnapshot, execTelemetrySnapshot, if_pos (by simp [h])]

/-- Settles O55: lanes, the ledger's scrub, the dies' scrub, telemetry. -/
theorem backgroundWork : Obligations.BackgroundWork := by
  unfold Obligations.BackgroundWork
  refine ⟨?usable, ?envan, ?unusable, ?forced, fun s l n x u h => exec_recalForce_idle u h, ?clean, ?corrected, ?uncorrectable,
    fun s o hrun hon hscrub => exec_scrubBlock_scrubs hrun hon hscrub (.firmware o), ?firmware, fun s => exec_scrubPassStart_starts,
    fun s => exec_scrubPassStart_early, ?asks, ?waits, ?acked, ?sends, ?skips, fun s => exec_telemetrySnapshot_early⟩
  case usable =>
    exact fun s d n hup => ⟨_, congrArg Host.Outcome.next (State.recalLane_usable hup n), (s.modDie_die d _).1, rfl, (s.modDie_die d _).2⟩
  case envan =>
    exact fun s l n hup => ⟨_, congrArg Host.Outcome.next (State.recalLane_envan hup n), (s.modEnvan_envan l _).1, rfl⟩
  case unusable =>
    exact fun s d n hup => ⟨_, congrArg Host.Outcome.next (State.recalLane_unusable hup n), s.modDie_die d _⟩
  case forced =>
    exact fun s d n hup hdue => ⟨_, (exec_recalForce_forces hdue true).trans (congrArg Host.Outcome.next (State.recalLane_forced hup n)),
      s.modDie_die d _⟩
  case clean => exact fun s hrun hon hscrub => ⟨_, exec_scrubBlock_scrubs hrun hon hscrub .clean, rfl, rfl, rfl, rfl, rfl⟩
  case corrected => exact fun s x hrun hon hscrub => ⟨_, exec_scrubBlock_scrubs hrun hon hscrub (.corrected x), rfl, rfl, rfl, rfl, rfl⟩
  case uncorrectable =>
    intro s hrun hon hscrub
    have hbg := s.scrubUe_bg
    have hposition := congrArg (fun x : Background => BitVec.ofNat 64 (x.position.toNat + 256)) hbg
    have hce := congrArg Background.ce hbg
    have hue := congrArg Background.ue hbg
    refine ⟨_, exec_scrubBlock_scrubs hrun hon hscrub .uncorrectable, hposition, hce, hue,
      s.scrubUe_marked, (State.logEntry_recovery ..).1, (State.logEntry_kept ..).rest .billetMem rfl⟩
  case firmware =>
    intro s hrun hon hscrub
    have hmem : FaultCause.firmware ∈ (s.scrubUe.addFault .firmware).recovery.faults := State.addFault_mem ..
    refine ⟨_, exec_scrubBlock_scrubs hrun hon hscrub (.firmware none), List.contains_iff_mem.mpr hmem, State.hubFault_of_mem hmem, ?_⟩
    have hbg : (s.scrubUe.addFault .firmware).bg = { s.bg with ue := s.bg.ue + 1 } :=
      ((State.addFault_kept ..).rest .bg rfl).trans s.scrubUe_bg
    have hue := congrArg Background.ue hbg
    exact hue
  case asks =>
    intro s d hup hidle hdue hq hroom
    have hdie := (s.modDie_die d (Spindle.scrubAsked s.now)).1
    have hkeep := State.askDie_keeps (g := fun x => (x.scrubbing, x.scrubAt)) (fun _ _ _ _ _ => rfl) (s.modDie d (Spindle.scrubAsked s.now))
      d none false (.scrub (s.die d).scrubPos.toNat (2 ^ 20)) d
    rw [hdie] at hkeep
    refine ⟨_, exec_dieScrubRequest_asks hup hidle hdue, congrArg Prod.fst hkeep, congrArg Prod.snd hkeep, ?_, fun e he => ?_⟩
    · exact State.askDie_free_out (core := false) (m := .scrub (s.die d).scrubPos.toNat (2 ^ 20)) (by rw [hdie]; exact hup)
        (by rw [hdie]; exact hq) (by rw [hdie]; exact hroom) none
    · exact (State.askDie_die_ne _ he ..).trans ((s.modDie_die d _).2 e he)
  case waits =>
    intro s d hup hidle hdue hq hroom
    have hdie := (s.modDie_die d (Spindle.scrubAsked s.now)).1
    have hfull := State.askDie_full (s := s.modDie d (Spindle.scrubAsked s.now)) (d := d) (m := .scrub (s.die d).scrubPos.toNat (2 ^ 20))
      (by rw [hdie]; exact hup) (by rw [hdie]; exact hq) (by rw [hdie]; exact hroom)
    have hqueued := (s.modDie d (Spindle.scrubAsked s.now)).queueDie_die_same d ⟨none, false, .scrub (s.die d).scrubPos.toNat (2 ^ 20)⟩
    rw [hdie] at hqueued
    refine ⟨_, (exec_dieScrubRequest_asks hup hidle hdue).trans (congrArg Host.Outcome.next hfull), congrArg Spindle.scrubbing hqueued,
      (congrArg Spindle.queue hqueued).trans (congrArg (· ++ _) hq), rfl, fun e he => ?_⟩
    exact (State.modDie_die_ne _ _ he).trans ((s.modDie_die d _).2 e he)
  case acked => exact fun s d hscrub hsent hq => ⟨_, exec_dieScrubAck_acknowledged hscrub hsent hq, s.modDie_die d _⟩
  case sends =>
    exact fun s hrun hdue hfree => ⟨_, exec_telemetrySnapshot_sends hrun hdue hfree, rfl, State.egress_egress_same .., rfl⟩
  case skips => exact fun s hrun hdue hwaits => ⟨_, exec_telemetrySnapshot_skips hrun hdue hwaits, rfl, rfl⟩

end Sys2Proof.Machine

/-! ## Periodic self-tests (O56; 18 R526–R530) -/

namespace Sys2Proof.Machine

/-! ### A test starts (18 R526) -/

/-- The part is in test. -/
def State.beginTest (s : State) (x : TestUnit) : State :=
  ({ s with bg := { s.bg with testing := s.bg.testing ++ [x] } }).markTest x true

/-- A way and the walk cache are emptied for their test. -/
def State.cleared (s : State) : TestUnit → State
  | .hsWay w => s.quarantine w
  | .walkCache => { s with headstock := { s.headstock with walkCache := [] } }
  | _ => s

theorem exec_selftestStart_begins {s : State} {x : TestUnit} (h : s.testMayStart x = true) :
    exec (.selftestStart x) s = .next ((s.beginTest x).cleared x) := by
  rw [exec_selftestStart, execSelftestStart, if_neg (not_not_intro h)]
  cases x <;> rfl

theorem exec_selftestStart_no {s : State} {x : TestUnit} (h : s.testMayStart x = false) : exec (.selftestStart x) s = .next s := by
  rw [exec_selftestStart, execSelftestStart, if_pos (by simp [h])]

theorem State.quarantine_empties (s : State) (w : Nat) : ∀ e ∈ (s.quarantine w).headstock.cache, e.way ≠ w := by
  intro e he
  simpa using (List.mem_filter.mp he).2

/-! ### A test ends (18 R528, R529) -/

theorem State.markTest_bg (s : State) (x : TestUnit) (on : Bool) : (s.markTest x on).bg = s.bg := (s.markTest_kept x on).rest .bg rfl

/-- Nothing of the error log and its causes is the test's own. -/
theorem State.markTest_recovery (s : State) (x : TestUnit) (on : Bool) :
    (s.markTest x on).recovery.log = s.recovery.log ∧ (s.markTest x on).recovery.faults = s.recovery.faults := by
  cases x with
  | whittler w => exact ⟨rfl, rfl⟩
  | hsWay w => exact ⟨rfl, rfl⟩
  | walkCache => exact ⟨rfl, rfl⟩
  | lathe l => exact ⟨rfl, rfl⟩
  | burl l => cases l <;> exact ⟨rfl, rfl⟩

theorem State.endTest_over (s : State) (x : TestUnit) : (s.endTest x).bg.testing.contains x = false := by
  rw [State.endTest, State.markTest_bg]
  simp

theorem State.engine_modEngine_same (s : State) (l : Bool) (f : Engine → Engine) : (s.modEngine l f).engine l = f (s.engine l) := by
  cases l <;> rfl

theorem State.modEngine_bg (s : State) (l : Bool) (f : Engine → Engine) : (s.modEngine l f).bg = s.bg := (s.modEngine_kept l f).rest .bg rfl

/-- The testing mark of a lathe is no part of its fence. -/
theorem State.fenceLathe_testing (s : State) (l : Nat) : ((s.fenceLathe l).lathe l).testing = (s.lathe l).testing := by
  have hset : ((s.modLathe l fun x => { x with fenced := true }).lathe l).testing = (s.lathe l).testing := by rw [State.modLathe_lathe_same]
  rw [State.fenceLathe]
  split_ifs
  · rwa [State.lathe, (State.logCause_kept ..).rest .lathes rfl]
  · rwa [State.logError_lathe]

/-- An engine that passes has no failure to remember. -/
def State.forgiven (s : State) : TestUnit → State
  | .burl l => s.modEngine l fun e => { e with failedOnce := false }
  | _ => s

section Done

variable {s : State}

theorem exec_selftestDone_passes {x : TestUnit} (h : s.bg.testing.contains x = true) :
    exec (.selftestDone x true) s = .next (((s.stampTest x).endTest x).forgiven x) := by
  rw [exec_selftestDone, execSelftestDone, if_neg (not_not_intro h)]
  cases x <;> rfl

theorem exec_selftestDone_retires {w : Nat} (h : s.bg.testing.contains (.hsWay w) = true) :
    exec (.selftestDone (.hsWay w) false) s = .next { (s.stampTest (.hsWay w)).endTest (.hsWay w) with
      headstock := { s.headstock with retired := s.headstock.retired ++ [w] } } := by
  rw [exec_selftestDone, execSelftestDone, if_neg (not_not_intro h)]
  rfl

theorem exec_selftestDone_fences {l : Nat} (h : s.bg.testing.contains (.lathe l) = true) :
    exec (.selftestDone (.lathe l) false) s = .next (((s.stampTest (.lathe l)).endTest (.lathe l)).fenceLathe l) := by
  rw [exec_selftestDone, execSelftestDone, if_neg (not_not_intro h)]
  rfl

/-- The engine's first failure and its second. -/
theorem exec_selftestDone_burlFails {l : Bool} (h : s.bg.testing.contains (.burl l) = true) :
    exec (.selftestDone (.burl l) false) s = .next (if (s.engine l).failedOnce
      then ((s.stampTest (.burl l)).endTest (.burl l)).modEngine l fun e => { e with outOfService := true }
      else (s.stampTest (.burl l)).modEngine l fun e => { e with failedOnce := true }) := by
  rw [exec_selftestDone, execSelftestDone, if_neg (not_not_intro h)]
  rfl

end Done

/-! ### A part's 24 h (18 R530) -/

theorem State.testOverdue_stamped {s : State} {x : TestUnit} (h : s.bg.tested.find? (fun e => e.1 == x) = some (x, s.now)) :
    s.testOverdue x = false := by
  rw [State.testOverdue, h]
  simp

theorem State.stampTest_found (s : State) (x : TestUnit) :
    (s.stampTest x).bg.tested.find? (fun e => e.1 == x) = some (x, (s.stampTest x).now) := by
  have hother : (s.bg.tested.filter fun e => e.1 != x).find? (fun e => e.1 == x) = none := by
    rw [List.find?_eq_none]
    intro e he
    simpa using (List.mem_filter.mp he).2
  refine List.find?_append.trans ?_
  rw [hother, Option.none_or, List.find?_cons_of_pos (by simp)]
  rfl

/-- Settles O56: starts by the part, results by the part, and the count of overdue parts. -/
theorem selfTests : Obligations.SelfTests := by
  unfold Obligations.SelfTests
  refine ⟨?way, ?walk, ?lathe, fun s x => exec_selftestStart_no, ?retires, ?fences, ?passes, ?first, ?second, ?late, ?timely⟩
  case way =>
    exact fun s w h => ⟨_, exec_selftestStart_begins h, congrArg Background.testing ((State.quarantine_kept _ w).rest .bg rfl),
      State.quarantine_empties _ w⟩
  case walk => exact fun s h => ⟨_, exec_selftestStart_begins h, rfl, rfl, rfl⟩
  case lathe =>
    exact fun s l h => ⟨_, exec_selftestStart_begins h, rfl, State.modLathe_lathe_same .., fun m hm => State.modLathe_lathe_ne _ _ hm⟩
  case retires => exact fun s w h => ⟨_, exec_selftestDone_retires h, rfl, State.endTest_over ..⟩
  case fences =>
    intro s l h
    refine ⟨_, exec_selftestDone_fences h, State.fenceLathe_fenced .., ?_, ?_⟩
    · rw [State.fenceLathe_testing, State.endTest, State.markTest, State.modLathe_lathe_same]
    · rw [(State.fenceLathe_kept ..).rest .bg rfl]
      exact State.endTest_over ..
  case passes =>
    intro s x h
    have hover := (s.stampTest x).endTest_over x
    have hlog := State.markTest_recovery { s.stampTest x with bg := { (s.stampTest x).bg with
      testing := (s.stampTest x).bg.testing.filter fun t => t != x } } x false
    have hhead : ((s.stampTest x).endTest x).headstock = s.headstock := (State.endTest_kept ..).rest .headstock rfl
    refine ⟨_, exec_selftestDone_passes h, ?_⟩
    cases x with
    | burl l =>
      have hkept := ((s.stampTest (.burl l)).endTest (.burl l)).modEngine_kept l fun e => { e with failedOnce := false }
      rw [State.forgiven, hkept.rest .bg rfl, hkept.rest .headstock rfl, hkept.rest .recovery rfl]
      exact ⟨hover, hhead, hlog⟩
    | hsWay w => exact ⟨hover, hhead, hlog⟩
    | walkCache => exact ⟨hover, hhead, hlog⟩
    | lathe l => exact ⟨hover, hhead, hlog⟩
    | whittler w => exact ⟨hover, hhead, hlog⟩
  case first =>
    intro s l h hfirst
    refine ⟨_, (exec_selftestDone_burlFails h).trans (congrArg Host.Outcome.next (if_neg (by simp [hfirst]))), ?_⟩
    rw [State.engine_modEngine_same, State.modEngine_bg]
    cases l <;> exact ⟨rfl, rfl, rfl⟩
  case second =>
    intro s l h hsecond
    refine ⟨_, (exec_selftestDone_burlFails h).trans (congrArg Host.Outcome.next (if_pos hsecond)), ?_⟩
    rw [State.engine_modEngine_same, State.modEngine_bg]
    exact ⟨rfl, State.endTest_over ..⟩
  case late =>
    intro s x h
    refine ⟨{ s.stampTest x with bg := { (s.stampTest x).bg with overdue := s.bg.overdue + 1 } }, ?_, rfl, State.testOverdue_stamped (s.stampTest_found x), rfl, rfl⟩
    rw [exec_selftestOverdue, execSelftestOverdue, if_pos h]
  case timely =>
    intro s x h
    rw [exec_selftestOverdue, execSelftestOverdue, if_neg (by simp [h])]

end Sys2Proof.Machine

/-! ## Sealed streams (O45; 19 R533–R547) -/

namespace Sys2Proof.Machine

theorem State.stream_of_streams {s t : State} (h : t.streams = s.streams) (i : Nat) : t.stream i = s.stream i :=
  congrArg (fun x : Tab Stream => tabGet x Stream.reset i) h

/-! ### SEAL_OPEN (19 R533–R535) -/

theorem exec_sealOpen_denied {s u : State} {b r : Nat} {d : Desc} (block : LoadResult) (hheld : s.structureHeld .billets b = false)
    (hb : s.begin b r 0x50 = some (d, u)) (hno : u.classHas b BenchClass.sealAllowed = false ∨ u.classHas b BenchClass.peerAllowed = false) :
    exec (.sealOpen b r block) s = .next (u.endDesc b r d.count 0x12 0 255 0) := by
  have hdenied : ¬ (u.classHas b BenchClass.sealAllowed ∧ u.classHas b BenchClass.peerAllowed) := fun h =>
    hno.elim (fun hno => absurd (hno.symm.trans h.1) Bool.false_ne_true) (fun hno => absurd (hno.symm.trans h.2) Bool.false_ne_true)
  rw [exec_sealOpen, execSealOpen, if_neg (by simp [hheld]), hb]
  exact if_pos hdenied

/-- The block with the parameters is read and checked. -/
theorem exec_sealOpen_checks {s u v : State} {b r : Nat} {d : Desc} {data params : List Byte} (hheld : s.structureHeld .billets b = false)
    (hb : s.begin b r 0x50 = some (d, u)) (hseal : u.classHas b BenchClass.sealAllowed = true) (hpeer : u.classHas b BenchClass.peerAllowed = true)
    (hscan : u.scanAll b (operandOf d.bytes d.order 0 false) 32 = none) (hload : u.load b (operandOf d.bytes d.order 0 false) 0 32 = some v)
    (hloaded : u.loaded b (operandOf d.bytes d.order 0 false) 32 (.ok data params) = .ok data params) :
    exec (.sealOpen b r (.ok data params)) s = .next (v.checkSeal b r d (u.allBytes b (operandOf d.bytes d.order 0 false) data 32)) := by
  rw [exec_sealOpen, execSealOpen, if_neg (by simp [hheld]), hb]
  dsimp only
  rw [if_neg (not_not_intro ⟨hseal, hpeer⟩), hscan, hload]
  dsimp only
  rw [hloaded]

/-- The free stream, where there is one, opens. -/
def State.openFree (v : State) (b r : Nat) (d : Desc) (p : List Byte) : Option Nat → State
  | none => v
  | some i =>
    let s := (v.modStream i fun x => openStream x.gen b p).addTally 0x09 b 0 (stagingNumber i)
    s.endPlain b r d 0x00 (BitVec.ofNat 64 ((s.stream i).handle i))

section Check

variable {v : State} {b r : Nat} {d : Desc} {p : List Byte} (hfail : sealFailure p = none)
  (hover : v.sealOverlaps b (field p 0 8) (field p 8 4 * field p 0x0C 2) = false) (hon : (v.bench b).peer.enable = true)
  (hin : field p 0 8 + field p 8 4 * field p 0x0C 2 ≤ 2 ^ 34)
  (hmapped : v.unmappedPage b (field p 0 8) (field p 8 4 * field p 0x0C 2) = none)
  (hfew : (v.streams.filter fun e => e.2.isOpen && e.2.bench == b).length < 8)
  (hquota : v.billetHeld b + field p 8 4 * field p 0x0C 2 / 1024 ≤ (v.bench b).limits.billet.toNat)

include hfail hover hon hin hmapped hfew hquota

/-- With every check passed, what is left is room in the staging pool and a free stream. -/
theorem State.checkSeal_passes : v.checkSeal b r d p =
    if Config.stagingKib < v.stagingUsed + field p 8 4 * field p 0x0C 2 / 1024 then v
    else v.openFree b r d p v.freeStream := by
  have hshort : v.billetHeld b + field p 8 4 * field p 0x0C 2 / 1024 - (v.bench b).limits.billet.toNat = 0 := Nat.sub_eq_zero_of_le hquota
  rw [State.checkSeal, hfail]
  dsimp only
  rw [if_neg (by simp [hover]), if_neg (not_not_intro hon), if_neg (Nat.not_lt_of_le hin), hmapped]
  dsimp only
  rw [if_neg (Nat.not_le_of_lt hfew), if_neg (not_not_intro hshort)]
  cases v.freeStream <;> rfl

theorem State.checkSeal_waits (hfull : Config.stagingKib < v.stagingUsed + field p 8 4 * field p 0x0C 2 / 1024) : v.checkSeal b r d p = v :=
  (State.checkSeal_passes hfail hover hon hin hmapped hfew hquota).trans (if_pos hfull)

/-- The stream opens, and the descriptor completes with its handle. -/
theorem State.checkSeal_opens {i : Nat} (hroom : v.stagingUsed + field p 8 4 * field p 0x0C 2 / 1024 ≤ Config.stagingKib)
    (hfree : v.freeStream = some i) (hd : v.desc b r d.count = some d) (hs : d.status = none) (hn : d.sealNote = none) :
    (v.checkSeal b r d p).stream i = openStream (v.stream i).gen b p ∧
      ((v.checkSeal b r d p).desc b r d.count).map Desc.status =
        some (some ⟨0, 0, 255, BitVec.ofNat 64 (((v.checkSeal b r d p).stream i).handle i)⟩) := by
  have hopen : ((v.modStream i fun x => openStream x.gen b p).addTally 0x09 b 0 (stagingNumber i)).stream i = openStream (v.stream i).gen b p :=
    (State.stream_of_streams ((State.addTally_kept ..).rest .streams rfl) i).trans (v.modStream_stream_same i _)
  have hdesc : ((v.modStream i fun x => openStream x.gen b p).addTally 0x09 b 0 (stagingNumber i)).desc b r d.count = some d :=
    (State.desc_eq_of_benches ((State.addTally_kept ..).rest .benches rfl) b r d.count).trans hd
  rw [State.checkSeal_passes hfail hover hon hin hmapped hfew hquota, if_neg (Nat.not_lt_of_le hroom), hfree]
  dsimp only [State.openFree, State.endPlain]
  rw [State.stream_of_streams ((State.endDesc_kept ..).rest .streams rfl), hopen]
  exact ⟨rfl, State.endDesc_status hdesc hs _ _ _ (.inl hn)⟩

end Check

/-! ### SEAL_CLOSE (19 R547) -/

section Close

variable {s u : State} {b r : Nat} {d : Desc} (hb : s.begin b r 0x51 = some (d, u))
  (hheld : u.holdsSource b (.stream (field d.bytes 0x0C 2)) = true) (hopen : (u.stream (field d.bytes 0x0C 2 % 64)).closing = none)

include hb hheld hopen

theorem exec_sealClose_closes : exec (.sealClose b r) s =
    .next (((u.modStream (field d.bytes 0x0C 2 % 64) fun x => { x with closing := some r, staging := [] }).endDependents b
      (.stream (field d.bytes 0x0C 2))).settleClose (field d.bytes 0x0C 2 % 64)) := by
  rw [exec_sealClose, execSealClose, hb]
  dsimp only
  rw [if_neg (by simp [hopen]), if_neg (by simp [hheld, hopen])]

end Close

/-- The stream that a close has marked. -/
theorem State.closing_stream (u : State) (b r h i : Nat) :
    ((u.modStream i fun x => { x with closing := some r, staging := [] }).endDependents b (.stream h)).stream i =
      { u.stream i with closing := some r, staging := [] } :=
  (State.stream_of_streams ((State.endDependents_kept ..).rest .streams rfl) i).trans (u.modStream_stream_same i _)

theorem State.settleClose_open {s : State} {i : Nat} (h : (s.stream i).closing = none) : s.settleClose i = s := by
  rw [State.settleClose, h]

theorem State.settleClose_waits {s : State} {i : Nat} (h : (s.stream i).captured ≠ []) : s.settleClose i = s := by
  rw [State.settleClose]
  cases (s.stream i).closing with
  | none => rfl
  | some r => exact if_pos (by simpa using h)

theorem State.endStream_stream (s : State) (i : Nat) : (s.endStream i).stream i = { Stream.reset with gen := (s.stream i).gen } :=
  s.modStream_stream_same i fun x => { Stream.reset with gen := x.gen }

/-- With no captured frame left the stream is freed. -/
theorem State.settleClose_frees {s : State} {i r : Nat} (h : (s.stream i).closing = some r) (hnone : (s.stream i).captured = []) :
    (s.settleClose i).stream i = { Stream.reset with gen := (s.stream i).gen } := by
  rw [State.settleClose, h]
  dsimp only
  rw [if_neg (by simp [hnone])]
  split
  · exact (State.stream_of_streams ((State.endPlain_kept ..).rest .streams rfl) i).trans (s.endStream_stream i)
  · exact s.endStream_stream i

/-! ### The outcome of a frame (19 R539–R542) -/

/-- What a frame's record leaves of its stream. -/
theorem Stream.record_keeps {α : Type} {g : Stream → α}
    (h : ∀ x u a m c d v k o e, g { x with
      unconsumed := u, good := a, gap := m, missing := c, broken := d, stale := v
      lastCounter := k, lastOutcome := o, lastDetail := e } = g x) (x : Stream) (o : FrameOutcome) (k : BitVec 32) (consumed : Bool) :
    g (x.record o k consumed) = g x := by
  cases o with
  | good => exact h x _ _ x.gap x.missing x.broken x.stale x.lastCounter x.lastOutcome x.lastDetail
  | gap n => exact h x _ x.good _ _ x.broken x.stale _ _ _
  | broken n => exact h x _ x.good x.gap x.missing _ x.stale _ _ _
  | stale n => exact h x _ x.good x.gap x.missing x.broken _ _ _ _

theorem Stream.record_lastCounter (x : Stream) {o : FrameOutcome} (ho : o.forwarded = false) (k : BitVec 32) (consumed : Bool) :
    (x.record o k consumed).lastCounter = k := by
  cases o with
  | good => exact absurd ho.symm Bool.false_ne_true
  | gap n => exact absurd ho.symm Bool.false_ne_true
  | broken n => rfl
  | stale n => rfl

/-- The stream without its oldest frame: with the counter and the chain moved on where the frame was forwarded, the slot discarded where not. -/
def Stream.shifted (x : Stream) (f : Frame) (o : FrameOutcome) : Stream :=
  if o.forwarded then
    { x with
      captured := x.captured.drop 1, expected := x.counterOf f + 1
      chain := BitVec.ofNat 32 (field f.bytes (x.trailerAt + 0x18) 4), forwarded := x.forwarded + 1 }
  else ({ x with captured := x.captured.drop 1 } : Stream).discardSlot f.slot

theorem State.frameDone_stream (s : State) (i : Nat) (f : Frame) (o : FrameOutcome) :
    (s.frameDone i f o).stream i = ((s.stream i).shifted f o).record o ((s.stream i).counterOf f)
      (s.consumes (s.stream i).bench (.stream ((s.stream i).handle i))) := by
  rw [State.frameDone]
  refine (State.stream_of_streams ((Kept.foldl (m := 0x220) (fun s r => ?_) _ _).rest .streams rfl) i).trans
    ((s.modStream_stream_same i _).trans rfl)
  exact ((State.edgeFrame_kept ..).mono rfl).trans (State.fireFrame_kept ..)

/-- Of a stream, what a frame that ends decides. -/
def Stream.course (x : Stream) : List Frame × BitVec 32 × BitVec 32 × Nat × Option Nat :=
  (x.captured, x.expected, x.chain, x.forwarded, x.closing)

theorem State.frameDone_course (s : State) (i : Nat) (f : Frame) (o : FrameOutcome) :
    ((s.frameDone i f o).stream i).course = ((s.stream i).shifted f o).course := by
  rw [State.frameDone_stream]
  exact Stream.record_keeps (g := Stream.course) (fun _ _ _ _ _ _ _ _ _ _ => rfl) ..

theorem Stream.shifted_dropped (x : Stream) (f : Frame) {o : FrameOutcome} (ho : o.forwarded = false) :
    (x.shifted f o).course = (x.captured.drop 1, x.expected, x.chain, x.forwarded, x.closing) :=
  congrArg Stream.course (if_neg (by simp [ho]))

theorem Stream.shifted_forwarded (x : Stream) (f : Frame) {o : FrameOutcome} (ho : o.forwarded = true) : (x.shifted f o).course =
    (x.captured.drop 1, x.counterOf f + 1, BitVec.ofNat 32 (field f.bytes (x.trailerAt + 0x18) 4), x.forwarded + 1, x.closing) :=
  congrArg Stream.course (if_pos ho)

/-! ### The checks of the oldest frame (19 R538–R540) -/

section Checked

variable {s : State} {i : Nat} {f : Frame} {rest : List Frame} (hcap : (s.stream i).captured = f :: rest)
  (hopen : (s.stream i).isOpen = true) (hnone : f.outcome = none)

include hcap hopen hnone

theorem exec_sealCheckDone_drops (hdrop : ((s.stream i).judge f).forwarded = false) :
    exec (.sealCheckDone i) s = .next ((s.frameDone i f ((s.stream i).judge f)).settleClose i) := by
  rw [exec_sealCheckDone, execSealCheckDone]
  dsimp only
  rw [hcap]
  dsimp only
  rw [if_neg (by simp [hopen, hnone]), if_pos (by simp [hdrop])]

theorem exec_sealCheckDone_unmapped {cause off : Nat} (hfwd : ((s.stream i).judge f).forwarded = true)
    (hpages : s.forwardPages (s.stream i).bench ((s.stream i).window + f.slot * (s.stream i).slotSize) ((s.stream i).slotSize / 4096) =
      .inr (cause, off)) : exec (.sealCheckDone i) s =
      .next (((s.peerDrop (s.stream i).bench cause off (s.stream i).slotSize).frameDone i f (.broken 6)).settleClose i) := by
  rw [exec_sealCheckDone, execSealCheckDone]
  dsimp only
  rw [hcap]
  dsimp only
  rw [if_neg (by simp [hopen, hnone]), if_neg (by simp [hfwd]), hpages]

theorem exec_sealCheckDone_forwards {l : List (Nat × Nat)} (hfwd : ((s.stream i).judge f).forwarded = true)
    (hpages : s.forwardPages (s.stream i).bench ((s.stream i).window + f.slot * (s.stream i).slotSize) ((s.stream i).slotSize / 4096) =
      .inl l) : exec (.sealCheckDone i) s = .next (s.forwardFrame i f ((s.stream i).judge f) l) := by
  rw [exec_sealCheckDone, execSealCheckDone]
  dsimp only
  rw [hcap]
  dsimp only
  rw [if_neg (by simp [hopen, hnone]), if_neg (by simp [hfwd]), hpages]

end Checked

theorem State.modFrame_stream {s : State} {i : Nat} {f : Frame} {rest : List Frame} (h : (s.stream i).captured = f :: rest) (g : Frame → Frame) :
    (s.modFrame i g).stream i = { s.stream i with captured := g f :: rest } := by
  refine (s.modStream_stream_same i _).trans ?_
  rw [h]

theorem State.sendTrailer_early {s : State} {i : Nat} {f : Frame} {rest : List Frame} (h : (s.stream i).captured = f :: rest)
    (hno : f.payload ≠ [] ∨ f.outcome = none ∨ f.trailer.isSome = true) : s.sendTrailer i = s := by
  rw [State.sendTrailer, h]
  refine if_pos ?_
  obtain hno | hno | hno := hno
  · exact .inr (.inl (by simpa using hno))
  · exact .inl (by simp [hno])
  · exact .inr (.inr hno)

/-- A trailer that goes out numbers its write in the frame. -/
theorem State.sendTrailer_stream {s : State} {i : Nat} {f : Frame} {rest : List Frame} (h : (s.stream i).captured = f :: rest) :
    ∃ x, (s.sendTrailer i).stream i = { s.stream i with captured := { f with trailer := x } :: rest } := by
  rw [State.sendTrailer, h]
  dsimp only
  split
  · exact ⟨f.trailer, by rw [← h]⟩
  · refine ⟨some s.nextPut, ?_⟩
    have hsame : (s.askDie f.target.1 (some (s.stream i).bench) false (.hubWrite (some s.nextPut) f.target.2
        ((f.bytes.drop (f.bytes.length - 32)).map fun v => (v, true)))).stream i = s.stream i :=
      State.stream_of_streams ((State.askDie_kept ..).rest .streams rfl) i
    rw [State.modFrame_stream (by rw [hsame]; exact h), hsame]

/-- A forwarded frame stays the oldest one, with its outcome. -/
theorem State.forwardFrame_stream {s : State} {i : Nat} {f : Frame} {rest : List Frame} (h : (s.stream i).captured = f :: rest)
    (o : FrameOutcome) (l : List (Nat × Nat)) : ∃ g : Frame, (s.forwardFrame i f o l).stream i = { s.stream i with captured := g :: rest } ∧
      (g.outcome, g.slot, g.arrival) = (some o, f.slot, f.arrival) := by
  have hpay (y : List Byte) : (s.forwardPayload (s.stream i).bench l y).2.stream i = s.stream i :=
    State.stream_of_streams ((State.forwardPayload_kept ..).rest .streams rfl) i
  rw [State.forwardFrame]
  dsimp only
  generalize hput : s.forwardPayload (s.stream i).bench l _ = put
  have hput : put.2.stream i = s.stream i := by rw [← hput, hpay]
  have hframe (e : Frame → Frame) := State.modFrame_stream (s := put.2) (i := i) (f := f) (rest := rest) (by rw [hput]; exact h) e
  obtain ⟨x, hx⟩ := State.sendTrailer_stream (congrArg Stream.captured (hframe _))
  rw [hx, hframe, hput]
  exact ⟨_, rfl, rfl⟩

/-! ### A forwarded frame's event (19 R541, R542) -/

theorem exec_frameEvent_ends {s : State} {i id : Nat} {f : Frame} {rest : List Frame} {o : FrameOutcome} (hcap : (s.stream i).captured = f :: rest)
    (ho : f.outcome = some o) (ht : f.trailer = some id) (hsent : s.unsent (.put id) = false) :
    exec (.frameEvent i) s = .next (((s.portDone (.put id)).frameDone i f o).settleClose i) := by
  rw [exec_frameEvent, execFrameEvent, hcap]
  dsimp only
  rw [ho, ht]
  exact congrArg Host.Outcome.next (if_neg (by simp [hsent]))

theorem exec_frameEvent_early {s : State} {i : Nat} {f : Frame} {rest : List Frame} (hcap : (s.stream i).captured = f :: rest)
    (ht : f.trailer = none) : exec (.frameEvent i) s = .next s := by
  rw [exec_frameEvent, execFrameEvent, hcap]
  dsimp only
  rw [ht]
  cases f.outcome <;> rfl

/-- Settles O45: opening, closing, then a frame's checks, forwarding and event. -/
theorem sealedStreams : Obligations.SealedStreams := by
  unfold Obligations.SealedStreams
  refine ⟨fun s u b r d block hheld hb hno => exec_sealOpen_denied block hheld hb hno, ?opens, ?waits, ?frees, ?drops, ?forwards, ?unmapped,
    fun s i f rest => State.sendTrailer_early, ?event, fun s i f rest => exec_frameEvent_early⟩
  case opens =>
    rintro s u v b r d data params p hheld hb hseal hpeer hscan hload hloaded rfl hfail hover hon hin hmapped hfew hquota hd hs hn
    exact ⟨_, exec_sealOpen_checks hheld hb hseal hpeer hscan hload hloaded,
      fun i hroom hfree => State.checkSeal_opens hfail hover hon hin hmapped hfew hquota hroom hfree hd hs hn,
      State.checkSeal_waits hfail hover hon hin hmapped hfew hquota⟩
  case waits =>
    intro s u b r d hb hheld hopen hcap
    have hclosing := u.closing_stream b r (field d.bytes 0x0C 2) (field d.bytes 0x0C 2 % 64)
    refine ⟨_, exec_sealClose_closes hb hheld hopen, ?_⟩
    rw [State.settleClose_waits (by rw [hclosing]; exact hcap), hclosing]
  case frees =>
    intro s u b r d hb hheld hopen hcap
    have hclosing := u.closing_stream b r (field d.bytes 0x0C 2) (field d.bytes 0x0C 2 % 64)
    refine ⟨_, exec_sealClose_closes hb hheld hopen, ?_⟩
    rw [State.settleClose_frees (r := r) (by rw [hclosing]) (by rw [hclosing]; exact hcap), hclosing]
  case drops =>
    intro s i f rest hcap hopen hclosing hnone hdrop
    have hcourse := (s.frameDone_course i f _).trans ((s.stream i).shifted_dropped f hdrop)
    rw [hcap] at hcourse
    have hsettle := State.settleClose_open ((congrArg (fun x => x.2.2.2.2) hcourse).trans hclosing)
    refine ⟨_, (exec_sealCheckDone_drops hcap hopen hnone hdrop).trans (congrArg Host.Outcome.next hsettle), congrArg (fun x => x.1) hcourse,
      congrArg (fun x => x.2.1) hcourse, congrArg (fun x => x.2.2.1) hcourse, ?_⟩
    rw [State.frameDone_stream]
    exact Stream.record_lastCounter _ hdrop ..
  case forwards =>
    rintro s i f rest o l hcap hopen hnone rfl hfwd hpages
    obtain ⟨g, hg, hframe⟩ := State.forwardFrame_stream hcap ((s.stream i).judge f) l
    refine ⟨_, exec_sealCheckDone_forwards hcap hopen hnone hfwd hpages, rfl, ?_, ?_, ?_, ?_, (State.forwardFrame_kept ..).rest .benches rfl⟩
    · rw [hg]; rfl
    · rw [hg]; exact congrArg some hframe
    · rw [hg]
    · rw [hg]
  case unmapped =>
    exact fun s i cause off f rest hcap hopen hnone hfwd hpages => exec_sealCheckDone_unmapped hcap hopen hnone hfwd hpages
  case event =>
    intro s i f rest o id hcap ho ht hsent hfwd hclosing
    have hstream : (s.portDone (.put id)).stream i = s.stream i := State.stream_of_streams ((State.portDone_kept ..).rest .streams rfl) i
    have hcourse := ((s.portDone (.put id)).frameDone_course i f o).trans (Stream.shifted_forwarded _ f hfwd)
    rw [hstream, hcap] at hcourse
    have hsettle := State.settleClose_open ((congrArg (fun x => x.2.2.2.2) hcourse).trans hclosing)
    exact ⟨_, (exec_frameEvent_ends hcap ho ht hsent).trans (congrArg Host.Outcome.next hsettle), congrArg (fun x => x.1) hcourse,
      congrArg (fun x => x.2.1) hcourse, congrArg (fun x => x.2.2.1) hcourse, congrArg (fun x => x.2.2.2.1) hcourse⟩

end Sys2Proof.Machine

/-! ## Schedule holds and releases (O42; 14 R409–R417) -/

namespace Sys2Proof.Machine

/-! ### Placements by home, bench and number -/

/-- What a placement is found by. -/
def Placement.key (p : Placement) : Nat × Nat × Nat := (p.home, p.bench, p.number)

theorem State.placement_key {s : State} {home b n : Nat} {p : Placement} (h : s.placement home b n = some p) :
    p.home = home ∧ p.bench = b ∧ p.number = n := by
  have hp := List.find?_some h
  simp only [Bool.and_eq_true, beq_iff_eq] at hp
  exact ⟨hp.1.1, hp.1.2, hp.2⟩

theorem State.placement_congr {s t : State} (h : t.placements = s.placements) (home b n : Nat) :
    t.placement home b n = s.placement home b n :=
  congrArg (fun l : List Placement => l.find? fun p : Placement => p.home == home && p.bench == b && p.number == n) h

theorem State.ownPlacement_congr {s t : State} (h : t.placements = s.placements) (hc : t.chip = s.chip) (b n : Nat) :
    t.ownPlacement b n = s.ownPlacement b n := by
  rw [State.ownPlacement, State.ownPlacement, State.hubId, State.hubId, hc, State.placement_congr h]

/-- A change that leaves the keys is found at the placement that it is for. -/
theorem State.modPlacement_placement {s : State} {home b n : Nat} {p : Placement} {f : Placement → Placement} (hf : ∀ p, (f p).key = p.key)
    (h : s.placement home b n = some p) : (s.modPlacement home b n f).placement home b n = some (f p) := by
  have hkey (x : Placement) (home b n : Nat) : ((f x).home == home && (f x).bench == b && (f x).number == n) =
      (x.home == home && x.bench == b && x.number == n) := by
    have h := hf x
    simp only [Placement.key, Prod.mk.injEq] at h
    rw [h.1, h.2.1, h.2.2]
  have hsame (x : Placement) : ((fun p : Placement => p.home == home && p.bench == b && p.number == n) ∘
      fun p : Placement => if p.home == home && p.bench == b && p.number == n then f p else p) x =
      (x.home == home && x.bench == b && x.number == n) := by
    rw [Function.comp]
    split
    · exact hkey x home b n
    · rfl
  have hp := List.find?_some h
  rw [State.placement] at h ⊢
  refine List.find?_map.trans ?_
  rw [funext hsame, h, Option.map_some]
  exact congrArg some (if_pos hp)

theorem State.modPlacement_own {s : State} {b n : Nat} {p : Placement} {f : Placement → Placement} (hf : ∀ p, (f p).key = p.key)
    (h : s.ownPlacement b n = some p) : (s.modPlacement p.home b n f).ownPlacement b n = some (f p) := by
  rw [(State.placement_key h).1]
  exact State.modPlacement_placement hf h

/-! ### Freezing (14 R412, R413) -/

/-- The placement frozen. -/
def Placement.freeze (x : Placement) : Placement :=
  { x with
    frozen := true, release := none, state := if x.state = .running then .held else x.state
    holds := if x.frozen ∧ x.release.isNone then x.holds else min (x.holds + 1) (2 ^ 32 - 1) }

theorem State.foldl_sendDie_placements {α : Type} (g : α → Nat × DieMsg) (l : List α) (s : State) :
    (l.foldl (fun s x => s.sendDie (g x).1 (g x).2) s).placements = s.placements :=
  (Kept.foldl (m := 0x120008000) (fun s _ => State.sendDie_kept s _ _) l s).rest .placements rfl

theorem State.freezeHere_placements (s : State) (p : Placement) :
    (s.freezeHere p).placements = (s.modPlacement p.home p.bench p.number Placement.freeze).placements := by
  rw [State.freezeHere]
  split
  · rfl
  · exact State.foldl_sendDie_placements (fun d => (d, .hold p.home p.bench p.number)) _ _

theorem State.freezeHere_placement {s : State} {p x : Placement} (h : s.placement p.home p.bench p.number = some x) :
    (s.freezeHere p).placement p.home p.bench p.number = some x.freeze :=
  (State.placement_congr (s.freezeHere_placements p) ..).trans (State.modPlacement_placement (fun _ => rfl) h)

theorem State.freezeAll_placement {s : State} {p x : Placement} (h : s.placement p.home p.bench p.number = some x) :
    (s.freezeAll p).placement p.home p.bench p.number = some x.freeze := by
  rw [State.freezeAll]
  split
  · exact State.freezeHere_placement h
  · refine (State.placement_congr ?_ ..).trans (State.freezeHere_placement h)
    exact (Kept.foldl (fun s x => State.sendHub_kept s _ _) _ _).rest .placements rfl

/-- The placement with a late input more. -/
def Placement.late (now : BitVec 64) (e : Nat × Nat × Nat) (x : Placement) : Placement :=
  { x with
    holdStart := if x.lates.isEmpty then some (x.holdStart.getD now) else x.holdStart
    lates := if x.lates.contains e then x.lates else x.lates ++ [e] }

theorem State.lateHere_placement {s : State} {p x : Placement} (h : s.placement p.home p.bench p.number = some x) (e : Nat × Nat × Nat) :
    (s.lateHere p e).placement p.home p.bench p.number = some (x.late s.now e) :=
  State.modPlacement_placement (f := Placement.late s.now e) (fun _ => rfl) h

theorem Placement.late_contains (now : BitVec 64) (e : Nat × Nat × Nat) (x : Placement) : (x.late now e).lates.contains e = true := by
  rw [Placement.late]
  dsimp only
  split
  next h => exact h
  next => simp

/-! ### PLACE_RELEASE (14 R409) -/

/-- The placement as it is released. -/
def Placement.stopped (x : Placement) : Placement :=
  { x with state := .releasing, frozen := true, lates := [], release := none, holdStart := none }

theorem State.stopPlacement_placements (s : State) (p : Placement) :
    (s.stopPlacement p).placements = (s.modPlacement p.home p.bench p.number Placement.stopped).placements := by
  rw [State.stopPlacement]
  refine (State.foldl_sendDie_placements (fun c : PlacedCore => (c.die, .stopCore c.core)) _ _).trans ?_
  split
  · rfl
  · exact State.foldl_sendDie_placements (fun d => (d, .hold p.home p.bench p.number)) _ _

theorem State.stopPlacement_own {s : State} {b n : Nat} {p : Placement} (h : s.ownPlacement b n = some p) :
    (s.stopPlacement p).ownPlacement b n = some p.stopped := by
  obtain ⟨-, hb, hn⟩ := State.placement_key h
  refine (State.ownPlacement_congr (s := s.modPlacement p.home b n Placement.stopped) ?_ ?_ b n).trans
    (State.modPlacement_own (fun _ => rfl) h)
  · rw [State.stopPlacement_placements, hb, hn]
  · exact (State.stopPlacement_kept ..).rest .chip rfl

theorem State.releasePlacement_own {s : State} {b n : Nat} {p : Placement} (h : s.ownPlacement b n = some p) (hrun : p.state ≠ .releasing) :
    (s.releasePlacement b n).ownPlacement b n = some p.stopped := by
  rw [State.releasePlacement, h]
  dsimp only
  rw [if_neg hrun]
  have hkept := Kept.foldl (m := 0x121000000) (f := fun s h => s.sendHub h (.bandRelease b n (s.bench b).incarn))
    (fun s x => (State.sendHub_kept s _ _).mono rfl) (s.placeHubs p) (s.stopPlacement p)
  exact (State.ownPlacement_congr (hkept.rest .placements rfl) (hkept.rest .chip rfl) b n).trans (State.stopPlacement_own h)

section Release

variable {s : State} {b : Nat} (hdec : s.decodes (s.bench b).port (s.bench b).fn = true) (hs : s.benchServes b = true)

include hdec hs

theorem exec_placeRelease_releases {n : Nat} {p : Placement} (hown : (s.unstage b).ownPlacement b n = some p) (hrun : p.state = .running) :
    exec (.placeRelease b n) s = .next ((s.unstage b).releasePlacement b n) := by
  rw [exec_placeRelease, execPlaceRelease, State.served_write hdec hs, State.putPlaceRelease, hown]
  exact congrArg Host.Outcome.next (if_pos (by simp [hrun]))

theorem exec_placeRelease_none {n : Nat} (hown : (s.unstage b).ownPlacement b n = none) :
    exec (.placeRelease b n) s = .next ((s.unstage b).countBench b) := by
  rw [exec_placeRelease, execPlaceRelease, State.served_write hdec hs, State.putPlaceRelease, hown]
  rfl

end Release

theorem State.unstage_ownPlacement (s : State) (b c n : Nat) : (s.unstage b).ownPlacement c n = s.ownPlacement c n :=
  State.ownPlacement_congr ((s.unstage_kept b).rest .placements rfl) ((s.unstage_kept b).rest .chip rfl) c n

theorem exec_placeReleaseDone_drops {s : State} {home b n : Nat} {p : Placement} (hp : s.placement home b n = some p)
    (hstate : p.state = .releasing) (hheld : s.structureHeld .placements (s.ownerOf home b) = false) (hl : s.launches = []) :
    ∃ f : Sweep → Sweep, exec (.placeReleaseDone home b n) s =
      .next (if home ≠ s.hubId then s.dropPlacement home b n else (s.dropPlacement home b n).modSweep b f) := by
  have hhub : (s.dropPlacement home b n).hubId = s.hubId := congrArg (fun c : Chip => c.straps.hubId.toNat)
    ((State.dropPlacement_kept ..).rest .chip rfl)
  rw [exec_placeReleaseDone, execPlaceReleaseDone, hp]
  dsimp only
  rw [if_neg (by simp [hstate, hheld, hl]), hhub]
  exact ⟨_, rfl⟩

/-! ### LATE inputs (14 R413–R415) -/

theorem exec_lateSet_unplaced {s : State} {d c : Nat} (h : s.placementOf d c = none) :
    exec (.lateSet d c) s = .next (s.logError 4 3 (BitVec.ofNat 64 (d * 256 + c)) 0) := by
  rw [exec_lateSet, execLateSet, h]

theorem exec_lateClear_unplaced {s : State} {d c : Nat} (h : s.placementOf d c = none) :
    exec (.lateClear d c) s = .next (s.logError 4 3 (BitVec.ofNat 64 (d * 256 + c)) 0) := by
  rw [exec_lateClear, execLateClear, h]

theorem exec_lateSet_home {s : State} {d c : Nat} {p : Placement} (h : s.placementOf d c = some p) (hstate : p.state ≠ .releasing)
    (hhome : p.home = s.hubId) : exec (.lateSet d c) s = .next (((s.lateHere p (s.hubId, d, c)).freezeAll p).trace p.bench 0xFF 6 0
      (BitVec.ofNat 64 p.number) (BitVec.ofNat 32 (d * 256 + c))) := by
  have hhub : ((s.lateHere p (s.hubId, d, c)).freezeAll p).hubId = s.hubId := congrArg (fun c : Chip => c.straps.hubId.toNat)
    ((State.freezeAll_kept ..).rest .chip rfl)
  rw [exec_lateSet, execLateSet, h]
  dsimp only
  rw [if_neg hstate, if_pos (hhome.trans hhub.symm)]

/-- The placement without a late input. -/
def Placement.unlate (e : Nat × Nat × Nat) (x : Placement) : Placement := { x with lates := x.lates.filter fun y => y != e }

theorem exec_lateClear_home {s : State} {d c : Nat} {p : Placement} (h : s.placementOf d c = some p) (hhome : p.home = s.hubId) :
    exec (.lateClear d c) s =
      .next ((s.modPlacement p.home p.bench p.number (Placement.unlate (s.hubId, d, c))).tryRelease p.bench p.number) := by
  rw [exec_lateClear, execLateClear, h]
  exact if_pos hhome

/-- A frozen placement of this hub alone, with no late input left, is released 2 us ahead. -/
theorem State.tryRelease_releases {s : State} {b n : Nat} {p : Placement} (h : s.ownPlacement b n = some p) (hfrozen : p.frozen = true)
    (hlates : p.lates = []) (hrelease : p.release = none) (hstate : p.state ≠ .releasing) (hstarted : p.started = true)
    (hheld : s.benchHeld b = false) (hhubs : s.placeHubs p = []) :
    s.tryRelease b n = s.modPlacement p.home b n fun x => { x with release := some (s.now + 2) } := by
  have hlead : s.releaseLead p = 2 := by rw [State.releaseLead, hhubs]; rfl
  rw [State.tryRelease, h]
  dsimp only
  have hno : ¬ (p.lates.isEmpty ∧ s.benchHeld b) := by simp [hheld]
  have hfree : ¬ (¬ p.frozen ∨ ¬ p.lates.isEmpty ∨ p.release.isSome ∨ p.state = .releasing ∨ ¬ p.started ∨ s.benchHeld b ∨
      ¬ (s.placeHubs p).all s.routed) := by
    simp [hfrozen, hlates, hrelease, hstate, hstarted, hheld, hhubs]
  rw [if_neg hno, if_neg hfree, hlead]
  exact congrArg (fun l : List Nat => l.foldl (fun t h => t.sendHub h (.release p.home b n (t.bench b).incarn (s.now + 2)))
    (s.modPlacement p.home b n fun x => { x with release := some (s.now + 2) })) hhubs

/-! ### Messages of the home hub (14 R414–R416; 16 R457, R484) -/

section Message

variable {s : State} {home b n : Nat} {incarn : BitVec 16}

theorem exec_holdForward_stale (h : s.msgCurrent home b incarn = false) : exec (.holdForward home b n incarn) s = .next s.staleMessage := by
  rw [exec_holdForward, execHoldForward, if_pos (by simp [h])]

theorem exec_releaseMessage_stale (h : s.msgCurrent home b incarn = false) (v : BitVec 64) :
    exec (.releaseMessage home b n incarn v) s = .next s.staleMessage := by
  rw [exec_releaseMessage, execReleaseMessage, if_pos (by simp [h])]

variable (h : s.msgCurrent home b incarn = true) {p : Placement}

include h

theorem exec_holdForward_freezes (hp : s.placement home b n = some p) (hstate : p.state ≠ .releasing) :
    exec (.holdForward home b n incarn) s = .next (s.freezeHere p) := by
  rw [exec_holdForward, execHoldForward, if_neg (not_not_intro h), hp]
  exact congrArg Host.Outcome.next (if_neg hstate)

theorem exec_releaseMessage_stamps (v : BitVec 64) : exec (.releaseMessage home b n incarn v) s =
    .next (s.modPlacement home b n fun x => if x.state = .releasing then x else { x with release := some v }) := by
  rw [exec_releaseMessage, execReleaseMessage, if_neg (not_not_intro h)]

end Message

theorem exec_lateReport_sets {s : State} {b n d c : Nat} {incarn : BitVec 16} {p : Placement} (hub : Nat)
    (h : s.msgCurrent s.hubId b incarn = true) (hp : s.ownPlacement b n = some p) (hstate : p.state ≠ .releasing) :
    exec (.lateReport hub b n d c true incarn) s = .next (((s.lateHere p (hub, d, c)).freezeHere p).trace b 0xFF 6 0 (BitVec.ofNat 64 n)
      (BitVec.ofNat 32 (d * 256 + c))) := by
  rw [exec_lateReport, execLateReport, if_neg (not_not_intro h), hp]
  exact (if_neg hstate).trans (if_pos rfl)

/-! ### The release time and HOLD_LONG (14 R415, R417) -/

/-- The placement as it runs again. -/
def Placement.resumed (x : Placement) : Placement :=
  { x with frozen := false, release := none, holdStart := none, holdLong := false, state := .running }

theorem State.applyRelease_placement {s : State} {home b n : Nat} {p : Placement} (h : s.placement home b n = some p)
    (hstarted : p.started = true) (v : BitVec 64) : (s.applyRelease p v).placement home b n = some p.resumed := by
  obtain ⟨hh, hb, hn⟩ := State.placement_key h
  have hplacements : (s.applyRelease p v).placements = (s.modPlacement p.home p.bench p.number Placement.resumed).placements := by
    rw [State.applyRelease, if_neg (not_not_intro hstarted)]
    dsimp only
    split
    · exact ((State.trace_kept ..).rest .placements rfl).trans
        (State.foldl_sendDie_placements (fun d => (d, .release p.home p.bench p.number v)) _ _)
    · exact State.foldl_sendDie_placements (fun d => (d, .release p.home p.bench p.number v)) _ _
  rw [State.placement_congr hplacements, hh, hb, hn]
  exact State.modPlacement_placement (fun _ => rfl) h

section Time

variable {s : State} {home b n : Nat} {v : BitVec 64} {p : Placement} (hp : s.placement home b n = some p) (hv : p.release = some v)

include hp hv

theorem exec_releaseTime_applies (hdue : v.toNat ≤ s.now.toNat) : exec (.releaseTime home b n) s = .next (s.applyRelease p v) := by
  rw [exec_releaseTime, execReleaseTime, hp]
  dsimp only
  rw [hv]
  exact congrArg Host.Outcome.next (if_neg (Nat.not_lt_of_le hdue))

theorem exec_releaseTime_early (hearly : s.now.toNat < v.toNat) : exec (.releaseTime home b n) s = .next s := by
  rw [exec_releaseTime, execReleaseTime, hp]
  dsimp only
  rw [hv]
  exact congrArg Host.Outcome.next (if_pos hearly)

end Time

theorem exec_holdLong_sends {s : State} {b n : Nat} {v : BitVec 64} {p : Placement} (hp : s.ownPlacement b n = some p)
    (hv : p.holdStart = some v) (hfrozen : p.frozen = true) (hlates : p.lates ≠ []) (hlong : p.holdLong = false)
    (hdue : v.toNat + 1000 ≤ s.now.toNat) : exec (.holdLong b n) s =
      .next ((s.modPlacement p.home b n fun x => { x with holdLong := true }).notice b 0x0A 0 noRing v
        (BitVec.ofNat 32 (s.now.toNat - v.toNat)) b) := by
  have hno : ¬ (¬ p.frozen ∨ p.lates.isEmpty ∨ p.holdLong ∨ s.now.toNat - v.toNat < 1000) := by
    simp only [hfrozen, hlong, not_true_eq_false, List.isEmpty_iff, Bool.false_eq_true, false_or, not_or, Nat.not_lt]
    exact ⟨hlates, by omega⟩
  rw [exec_holdLong, execHoldLong, hp]
  dsimp only
  rw [hv]
  exact if_neg hno

theorem exec_holdLong_once {s : State} {b n : Nat} {p : Placement} (hp : s.ownPlacement b n = some p) (hlong : p.holdLong = true) :
    exec (.holdLong b n) s = .next s := by
  rw [exec_holdLong, execHoldLong, hp]
  dsimp only
  cases p.holdStart with
  | none => rfl
  | some t => exact if_pos (.inr (.inr (.inl hlong)))

/-- A notice for a bench that is not VACANT, with room in its queue. -/
theorem State.notice_pending {s : State} {b : Nat} (hstate : (s.bench b).state ≠ .vacant)
    (hroom : (s.bench b).notices.pending.length + (s.bench b).notices.writing.toList.length < 64) (type cause ring : Nat) (a0 : BitVec 64)
    (a1 : BitVec 32) (subject : Nat) : ((s.notice b type cause ring a0 a1 subject).bench b).notices.pending =
      (s.bench b).notices.pending ++ [⟨type, cause, ring, (s.bench b).notices.seq, s.hearth.time, a0, a1, subject⟩] := by
  rw [State.notice, if_neg (by simpa using hstate), State.modBench_bench_same]
  dsimp only
  rw [State.wakeHost_bench, if_pos hroom]

/-- Settles O42: release, late inputs, the messages, the release time and HOLD_LONG. -/
theorem holdAndRelease : Obligations.HoldAndRelease := by
  unfold Obligations.HoldAndRelease
  refine ⟨?release, ?absent, ?done, ?lateSet, fun s d c => exec_lateSet_unplaced, fun s d c => exec_lateClear_unplaced, ?lateClear,
    ?hold, fun s home b n incarn => exec_holdForward_stale, fun s home b n incarn v h => exec_releaseMessage_stale h v, ?report, ?stamp, ?time,
    fun s home b n v p => exec_releaseTime_early, ?long, fun s b n p => exec_holdLong_once⟩
  case release =>
    intro s b n p hdec hs hp hrun
    have hown := (s.unstage_ownPlacement b b n).trans hp
    exact ⟨_, exec_placeRelease_releases hdec hs hown hrun, State.releasePlacement_own hown (by simp [hrun])⟩
  case absent => exact fun s b n hdec hs hp => exec_placeRelease_none hdec hs ((s.unstage_ownPlacement b b n).trans hp)
  case done =>
    intro s home b n p hp hstate hheld hl
    obtain ⟨f, hexec⟩ := exec_placeReleaseDone_drops hp hstate hheld hl
    have hdrop : (s.dropPlacement home b n).placements = s.placements.filter fun q => !(q.home == home && q.bench == b && q.number == n) :=
      (State.settleXlt_kept ..).rest .placements rfl
    have hlaunches : (s.dropPlacement home b n).launches = [] := ((State.dropPlacement_kept ..).rest .launches rfl).trans hl
    have hout : (s.dropPlacement home b n).out = s.out := (State.dropPlacement_kept ..).rest .out rfl
    refine ⟨_, hexec, ?_⟩
    split
    · exact ⟨hdrop, hlaunches, hout⟩
    · exact ⟨hdrop, hlaunches, hout⟩
  case lateSet =>
    intro s d c p hof hp hstate hhome
    refine ⟨_, exec_lateSet_home hof hstate hhome, ?_⟩
    rw [State.placement_congr ((State.trace_kept ..).rest .placements rfl), State.freezeAll_placement (State.lateHere_placement hp _),
      Option.map_some]
    exact congrArg (fun x => some (true, none, x, if p.state = .running then .held else p.state)) (p.late_contains s.now (s.hubId, d, c))
  case lateClear =>
    intro s d c p hof hp hhome hstate hfrozen hstarted hrelease hheld hhubs hlates
    have hunlate : p.unlate (s.hubId, d, c) = { p with lates := [] } := by rw [Placement.unlate, hlates]; simp
    have hown : (s.modPlacement p.home p.bench p.number (Placement.unlate (s.hubId, d, c))).ownPlacement p.bench p.number =
        some { p with lates := [] } := by
      rw [← hunlate]
      refine State.modPlacement_own (p := p) (f := Placement.unlate (s.hubId, d, c)) (fun _ => rfl) ?_
      rw [State.ownPlacement, ← hhome]
      exact hp
    refine ⟨_, (exec_lateClear_home hof hhome).trans (congrArg Host.Outcome.next
      (State.tryRelease_releases hown hfrozen rfl hrelease hstate hstarted hheld hhubs)), ?_, rfl⟩
    refine State.modPlacement_placement (p := { p with lates := [] }) (f := fun x => { x with release := some (s.now + 2) }) (fun _ => rfl) ?_
    rw [← hown, State.ownPlacement]
    exact congrArg (State.placement _ · _ _) hhome
  case hold =>
    intro s home b n incarn p hcur hp hstate
    obtain ⟨rfl, rfl, rfl⟩ := State.placement_key hp
    refine ⟨_, exec_holdForward_freezes hcur hp hstate, ?_⟩
    rw [State.freezeHere_placement hp]
    rfl
  case report =>
    intro s hub b n d c incarn p hcur hp hstate
    obtain ⟨hhome, rfl, rfl⟩ := State.placement_key hp
    refine ⟨_, exec_lateReport_sets hub hcur hp hstate, ?_⟩
    have hp : s.placement p.home p.bench p.number = some p := by rw [hhome]; exact hp
    have hfrozen := State.freezeHere_placement (State.lateHere_placement hp (hub, d, c))
    rw [State.ownPlacement_congr ((State.trace_kept ..).rest .placements rfl) ((State.trace_kept ..).rest .chip rfl), State.ownPlacement]
    have hhub : ((s.lateHere p (hub, d, c)).freezeHere p).hubId = p.home :=
      (congrArg (fun c : Chip => c.straps.hubId.toNat) ((State.freezeHere_kept ..).rest .chip rfl)).trans hhome.symm
    rw [hhub, hfrozen, Option.map_some]
    exact congrArg (fun x => some (true, none, x)) (p.late_contains s.now (hub, d, c))
  case stamp =>
    intro s home b n incarn v p hcur hp hstate
    refine ⟨_, exec_releaseMessage_stamps hcur v, ?_, rfl, rfl⟩
    refine (State.modPlacement_placement (fun x => ?_) hp).trans (congrArg some (if_neg hstate))
    split <;> rfl
  case time =>
    exact fun s home b n v p hp hv hstarted hdue => ⟨_, exec_releaseTime_applies hp hv hdue, State.applyRelease_placement hp hstarted v⟩
  case long =>
    intro s b n v p hp hv hfrozen hlates hlong hdue hstate hroom
    refine ⟨_, exec_holdLong_sends hp hv hfrozen hlates hlong hdue, ?_,
      State.notice_pending (s := s.modPlacement p.home b n fun x => { x with holdLong := true }) hstate hroom ..⟩
    rw [State.ownPlacement_congr ((State.notice_kept ..).rest .placements rfl) ((State.notice_kept ..).rest .chip rfl)]
    exact State.modPlacement_own (fun _ => rfl) hp

end Sys2Proof.Machine

/-! ## LAUNCH (O41; 14 R402, R405) -/

namespace Sys2Proof.Machine

/-- LAUNCH_PLACE_START with enough free cores: the one band has the rows of the launch that was found, for each launch of its ring. -/
theorem exec_launchPlaceStart_places {s : State} {b r : Nat} {l : Launch} (free : List (Nat × Nat))
    (hl : s.launches.find? (fun l => l.stage == .ready && (s.bench l.bench).state != .sweeping) = some l) (hb : l.bench = b) (hr : l.ring = r)
    (hplacing : s.dense.placing = none) (hservice : s.dense.outOfService = false) (hheld : s.structureHeld .placements b = false)
    (hworks : s.domainWorks 9 = true) (hjob : s.runningJob false = none)
    (hcores : (blankInfo l.blank).rows * (blankInfo l.blank).cols ≤ s.freeCores.length) :
    ∃ t, exec (.launchPlaceStart b r free) s = .next t ∧ t.launches = (s.modLaunch b r fun m => { m with
      stage := .placing, placeStart := s.now, bands := [(s.hubId, 0, (blankInfo l.blank).rows)], free := s.freeCores }).launches := by
  rw [exec_launchPlaceStart, execLaunchPlaceStart, hl]
  dsimp only
  rw [if_neg (by simp [hb, hr, hheld, hplacing, hservice, hworks, hjob]), if_pos hcores]
  dsimp only
  rw [if_neg (by simp [hcores]), if_neg (by simp), List.foldl_cons, List.foldl_nil]
  refine ⟨_, rfl, ?_⟩
  rw [if_pos]
  rfl

/-- A launch of ring 0 of bench 1 that is ready, with this blank. -/
def readyLaunch (blank : List Byte) : Launch := ⟨1, 0, 0, .ready, blank, [], 0, 0, 0, 0, [], [], []⟩

/-- A hub with PD9 on and two launches of one ring, their blanks of 0 rows and of 1 row: no run reaches it, and no premise excludes it. -/
def twoLaunches : State :=
  { State.reset with
    hearth := { Hearth.reset with domains := [(9, ⟨.on, 0, 0, 0⟩)] }
    launches := [readyLaunch [], readyLaunch [1]] }

/-- Refutes O41: at LAUNCH_PLACE_START the statement gives each launch of the ring the rows of that launch's own blank (its inner `l` hides the
launch that was found), the model those of the launch that was found. The two differ where a ring has two launches. -/
theorem not_launchSteps : ¬ Obligations.LaunchSteps := by
  unfold Obligations.LaunchSteps
  rintro ⟨-, -, -, -, -, hplace, -⟩
  have hfound : twoLaunches.launches.find? (fun l => l.stage == .ready && (twoLaunches.bench l.bench).state != .sweeping) =
      some (readyLaunch []) := by decide
  have hheld : twoLaunches.structureHeld .placements 1 = false := by decide
  have hworks : twoLaunches.domainWorks 9 = true := by decide
  have hcores : (blankInfo (readyLaunch []).blank).rows * (blankInfo (readyLaunch []).blank).cols ≤ twoLaunches.freeCores.length := by
    rw [show (blankInfo (readyLaunch []).blank).rows = 0 by decide, Nat.zero_mul]
    exact Nat.zero_le _
  obtain ⟨t, hexec, -, hstated, -, -⟩ := hplace twoLaunches 1 0 [] (readyLaunch []) hfound rfl rfl rfl rfl hheld hworks rfl hcores
  obtain ⟨u, hexec', hmodel⟩ := exec_launchPlaceStart_places [] hfound rfl rfl rfl rfl hheld hworks rfl hcores
  have hsame : t = u := Host.Outcome.next.inj (hexec.symm.trans hexec')
  have hbands := congrArg (List.map Launch.bands) (hstated.symm.trans ((congrArg State.launches hsame).trans hmodel))
  exact absurd hbands (by decide)

end Sys2Proof.Machine

/-! ## Steps of ANNEAL and strips of other hubs (O43; 15 R422–R450) -/

namespace Sys2Proof.Machine

/-! ### The jobs of one ANNEAL, or of one strip of it -/

/-- What a job is found by. -/
def Job.key (j : Job) : Nat × Nat × Nat × Option Nat := (j.home, j.bench, j.ring, j.strip)

theorem Job.same_iff (a b : Job) : a.same b = true ↔ a.key = b.key := by
  simp only [Job.same, Job.key, Bool.and_eq_true, beq_iff_eq, Prod.mk.injEq, and_assoc]

/-- The hub has a job of this key, and each job of the key is so. -/
def State.HasJob (s : State) (k : Nat × Nat × Nat × Option Nat) (P : Job → Prop) : Prop :=
  (∃ j ∈ s.jobs, j.key = k) ∧ ∀ j ∈ s.jobs, j.key = k → P j

theorem State.jobOf_some {s : State} {home b r : Nat} {strip : Option Nat} {j : Job} (h : s.jobOf home b r strip = some j) :
    j ∈ s.jobs ∧ j.key = (home, b, r, strip) := by
  have hkey := List.find?_some h
  simp only [Bool.and_eq_true, beq_iff_eq] at hkey
  obtain ⟨⟨⟨hhome, hbench⟩, hring⟩, hstrip⟩ := hkey
  exact ⟨List.mem_of_find?_eq_some h, by rw [Job.key, hhome, hbench, hring, hstrip]⟩

theorem State.jobOf_congr {s t : State} (h : t.jobs = s.jobs) (home b r : Nat) (strip : Option Nat) :
    t.jobOf home b r strip = s.jobOf home b r strip :=
  congrArg (fun l : List Job => l.find? fun j : Job => j.home == home && j.bench == b && j.ring == r && j.strip == strip) h

theorem State.annealOf_congr {s t : State} (h : t.jobs = s.jobs) (hc : t.chip = s.chip) (b r : Nat) : t.annealOf b r = s.annealOf b r := by
  rw [State.annealOf, State.annealOf, State.hubId, State.hubId, hc, State.jobOf_congr h]

theorem State.HasJob.jobOf {s : State} {home b r : Nat} {strip : Option Nat} {P : Job → Prop} (h : s.HasJob (home, b, r, strip) P) :
    ∃ j, s.jobOf home b r strip = some j ∧ P j := by
  obtain ⟨⟨j, hj, hkey⟩, hall⟩ := h
  cases hfound : s.jobOf home b r strip with
  | none =>
    rw [Job.key, Prod.mk.injEq, Prod.mk.injEq, Prod.mk.injEq] at hkey
    obtain ⟨rfl, rfl, rfl, rfl⟩ := hkey
    exact absurd (List.find?_eq_none.mp hfound j hj) (by simp)
  | some x => exact ⟨x, rfl, hall x (State.jobOf_some hfound).1 (State.jobOf_some hfound).2⟩

theorem State.HasJob.map {s : State} {home b r : Nat} {strip : Option Nat} {α : Type} {g : Job → α} {v : α}
    (h : s.HasJob (home, b, r, strip) fun j => g j = v) : (s.jobOf home b r strip).map g = some v := by
  obtain ⟨j, hj, hv⟩ := h.jobOf
  rw [hj, Option.map_some, hv]

theorem State.HasJob.congr {s t : State} {k : Nat × Nat × Nat × Option Nat} {P : Job → Prop} (h : s.HasJob k P) (ht : t.jobs = s.jobs) :
    t.HasJob k P := by
  rw [State.HasJob, ht]
  exact h

/-- A job that is set is every job of its key. -/
theorem State.setJob_hasJob {s : State} {k : Nat × Nat × Nat × Option Nat} {P : Job → Prop} {x j : Job} (hx : x ∈ s.jobs) (hkey : x.key = k)
    (hj : j.key = k) (hP : P j) : (s.setJob j).HasJob k P := by
  refine ⟨⟨j, List.mem_map.mpr ⟨x, hx, if_pos ((Job.same_iff ..).mpr (hkey.trans hj.symm))⟩, hj⟩, fun y hy hyk => ?_⟩
  obtain ⟨z, -, rfl⟩ := List.mem_map.mp hy
  by_cases hz : z.same j
  · rw [if_pos hz]
    exact hP
  · rw [if_neg hz] at hyk
    exact absurd ((Job.same_iff ..).mpr (hyk.trans hj.symm)) hz

theorem State.HasJob.setJob {s : State} {k : Nat × Nat × Nat × Option Nat} {P : Job → Prop} (h : s.HasJob k P) {j : Job}
    (hP : j.key = k → P j) : (s.setJob j).HasJob k P := by
  by_cases hj : j.key = k
  · obtain ⟨⟨x, hx, hkey⟩, -⟩ := h
    exact State.setJob_hasJob hx hkey hj (hP hj)
  · obtain ⟨⟨x, hx, hkey⟩, hall⟩ := h
    have hother {y : Job} (hy : y.key = k) : (if y.same j then j else y) = y :=
      if_neg fun hsame => hj (((Job.same_iff ..).mp hsame).symm.trans hy)
    refine ⟨⟨x, List.mem_map.mpr ⟨x, hx, hother hkey⟩, hkey⟩, fun y hy hyk => ?_⟩
    obtain ⟨z, hz, rfl⟩ := List.mem_map.mp hy
    by_cases hsame : z.same j
    · rw [if_pos hsame] at hyk
      exact absurd hyk hj
    · rw [if_neg hsame] at hyk ⊢
      exact hall z hz hyk

theorem State.startJob_jobs (s : State) (j : Job) : (s.startJob j).jobs = (s.setJob { j with phase := .running }).jobs := by
  rw [State.startJob]
  dsimp only
  rw [(State.addTally_kept ..).rest .jobs rfl]
  exact (State.modEngine_kept ..).rest .jobs rfl

theorem State.HasJob.startJob {s : State} {k : Nat × Nat × Nat × Option Nat} {P : Job → Prop} (h : s.HasJob k P) {j : Job}
    (hP : j.key = k → P { j with phase := .running }) : (s.startJob j).HasJob k P :=
  (h.setJob (j := { j with phase := .running }) hP).congr (s.startJob_jobs j)

/-- The job that an engine takes next is one of the hub's, its phase alone changed. -/
theorem State.HasJob.nextJob {s : State} {k : Nat × Nat × Nat × Option Nat} {P : Job → Prop} (h : s.HasJob k P)
    (hP : ∀ j, P j → P { j with phase := .running }) (lattice : Bool) : (s.nextJob lattice).HasJob k P := by
  rw [State.nextJob]
  dsimp only
  split
  · exact h
  · have hcharged (f : Engine → Engine) : (s.modEngine lattice f).HasJob k P := h.congr ((s.modEngine_kept lattice f).rest .jobs rfl)
    split
    · exact hcharged _
    · split
      · exact hcharged _
      next j hj =>
        have hmem : j ∈ s.jobs := (List.mem_filter.mp (List.mem_of_find?_eq_some hj)).1
        exact (hcharged _).startJob fun hkey => hP j (h.2 j hmem hkey)

end Sys2Proof.Machine

/-! ## ANNEAL's acceptance (15 R422, R426, R427; O43) -/

namespace Sys2Proof.Machine

theorem exec_anneal_denied {s u : State} {b r : Nat} {d : Desc} (block : LoadResult) (hb : s.begin b r 0x21 = some (d, u))
    (hnone : (u.giveUp b r 1).annealOf b r = none)
    (hno : ((u.giveUp b r 1).chip.cfg.bind ImageCfg.burl).map BurlCfg.tenantEnable ≠ some true) :
    exec (.anneal b r block) s = .next ((u.giveUp b r 1).endDesc b r d.count 0x12 0 255 0) := by
  have hoff : (((u.giveUp b r 1).chip.cfg.bind ImageCfg.burl).map BurlCfg.tenantEnable).getD false = false := by
    cases h : ((u.giveUp b r 1).chip.cfg.bind ImageCfg.burl).map BurlCfg.tenantEnable with
    | none => rfl
    | some x =>
      rw [h] at hno
      simpa using hno
  rw [exec_anneal, execAnneal, hb]
  dsimp only
  rw [hnone, hoff, if_neg (by simp), if_pos (by simp)]
  rfl

/-- The job block is read, with the Burl enabled and the class's right. -/
theorem exec_anneal_checks {s u w x v : State} {b r n : Nat} {d : Desc} {data params y : List Byte} (hb : s.begin b r 0x21 = some (d, u))
    (hw : w = u.giveUp b r 1) (hnone : w.annealOf b r = none) (hon : (w.chip.cfg.bind ImageCfg.burl).map BurlCfg.tenantEnable = some true)
    (hclass : w.classHas b BenchClass.burlDense = true) (hrate : (w.bench b).rateOpen = true)
    (hloaded : w.loaded b (operandOf d.bytes d.order 0 false) 96 (.ok data params) = .ok data params)
    (hn : n = jobLength (w.allBytes b (operandOf d.bytes d.order 0 false) data 96))
    (hscan : w.scanAll b (operandOf d.bytes d.order 0 false) 96 = none) (hscanAll : w.scanAll b (operandOf d.bytes d.order 0 false) n = none)
    (hload : w.load b (operandOf d.bytes d.order 0 false) 0 n = some x) (hv : v = x.engineCharge b (w.ring b r).clusterB n)
    (hy : y = w.allBytes b (operandOf d.bytes d.order 0 false) data n) :
    exec (.anneal b r (.ok data params)) s = .next (v.checkAnneal b r d y) := by
  rw [exec_anneal, execAnneal, hb]
  dsimp only
  rw [← hw, hnone, hon, if_neg (by simp), if_neg (by simp [hclass]), hscan]
  dsimp only
  rw [if_neg (not_not_intro hrate), hloaded]
  dsimp only
  rw [← hn, hscanAll, hload, hv, hy]

/-- A charge of the engine leaves a bench's class. -/
theorem State.engineCharge_classHas (s : State) (b n : Nat) (c : Bool) (k : Nat) (f : BenchClass → Bool) :
    (s.engineCharge b c n).classHas k f = s.classHas k f := by
  have hrate : ((s.rateCharge b n).bench k).classId = (s.bench k).classId :=
    State.modBench_keeps (g := Bench.classId) (fun x => by split <;> rfl) s b k
  have hbench : ((s.engineCharge b c n).bench k).classId = (s.bench k).classId := by
    rw [State.engineCharge]
    dsimp only
    split <;> exact hrate
  rw [State.classHas, State.classOf, hbench, (s.engineCharge_kept b c n).rest .chip rfl]
  rfl

/-- A new ANNEAL's job, before it is admitted. -/
def annealJob (s : State) (b r : Nat) (d : Desc) (spec : JobSpec) (store : Nat) : Job :=
  { home := s.hubId, bench := b, ring := r, desc := d.count, strip := none, spec := spec, phase := .admission, store := store, coef := []
    spins := [], best := [], bestEnergy := 0, bestMove := 0, move := 0, sweeps := 0, written := 0, engineTime := 0, above := [], below := []
    haloAbove := 0, haloBelow := 0, nextAbove := [], nextBelow := [], snaps := [], reports := [], returned := [], lost := [], stop := none }

/-- A well-formed dense job of this hub alone joins the jobs and tries to be admitted. -/
theorem State.checkAnneal_dense {v : State} {b r : Nat} {d : Desc} {y : List Byte} (hmode : field y 4 1 = 1)
    (hclass : v.classHas b BenchClass.burlDense = true) (hfail : v.jobFailure y = none) (htrace : (jobSpec y).trace = false)
    (hkeys : ((jobSpec y).results.all fun h => (v.billetKey b d.order h.toNat 0).isSome) = true)
    (hroom : 64 + 2 * stateBytes (jobSpec y).spins ≤ v.resultBytes (jobSpec y).results) (hparts : (jobSpec y).parts = []) :
    ∃ job : Job, job = annealJob v b r d (jobSpec y) ((jobSpec y).spins * (jobSpec y).spins * ((jobSpec y).width / 8) +
      (jobSpec y).spins * ((jobSpec y).width / 8)) ∧ v.checkAnneal b r d y = (v.addJob job).admitJob job := by
  have hdense : (jobSpec y).lattice = false := by
    simp [jobSpec, hmode]
  have hnamed : ((if (jobSpec y).trace then [(jobSpec y).traceBillet] else []) ++ (jobSpec y).results).find?
      (fun h => (v.billetKey b d.order h.toNat 0).isNone) = none := by
    rw [htrace, if_neg Bool.false_ne_true, List.nil_append, List.find?_eq_none]
    intro h hh
    simpa [Option.isSome_iff_ne_none] using List.all_eq_true.mp hkeys h hh
  refine ⟨_, rfl, ?_⟩
  rw [State.checkAnneal]
  dsimp only
  rw [if_neg (by simp [hmode, hclass]), hfail]
  dsimp only
  rw [hnamed]
  dsimp only
  rw [if_neg (Nat.not_lt_of_le hroom), hdense, if_neg Bool.false_ne_true, hparts, if_neg (by simp), State.tryAdmit]
  dsimp only [annealJob]
  rw [hparts, if_neg (by simp), if_neg (by simp)]

/-- The job that is first in line is admitted where the store has room. -/
theorem State.admitJob_admits {s : State} {j : Job}
    (hfirst : s.jobs.find? (fun x => x.spec.lattice == j.spec.lattice && x.phase == .admission) = some j)
    (hservice : (s.engine j.spec.lattice).outOfService = false) (hroom : j.spec.lattice = true ∨ s.storeUsed + j.store ≤ denseStore s.big) :
    s.admitJob j = (s.setJob { j with phase := .load }).addTally 0x07 (s.jobOwner j) j.spec.lattice.toNat j.ring := by
  have hsame : j.same j = true := (Job.same_iff ..).mpr rfl
  have hfull : ¬ (¬ j.spec.lattice ∧ denseStore s.big < s.storeUsed + j.store) := fun h =>
    hroom.elim (fun hl => h.1 hl) fun hle => absurd h.2 (Nat.not_lt_of_le hle)
  rw [State.admitJob]
  rw [hfirst, Option.map_some, hsame, if_neg]
  simp only [ne_eq, not_true_eq_false, hservice, Bool.false_eq_true, false_or]
  exact hfull

/-- The one dense job of a hub without others is admitted. -/
theorem State.admitJob_only {v : State} {job : Job} (hjobs : v.jobs = []) (hservice : v.dense.outOfService = false)
    (hdense : job.spec.lattice = false) (hphase : job.phase = .admission) (hroom : job.store ≤ denseStore v.big) :
    ((v.addJob job).admitJob job).HasJob job.key fun x => x = { job with phase := .load } := by
  have hadded : (v.addJob job).jobs = [job] := ((State.rouse_kept ..).rest .jobs rfl).trans (by rw [hjobs]; rfl)
  have hkept := v.addJob_kept job
  have hengine : ((v.addJob job).engine job.spec.lattice).outOfService = false := by
    rw [hdense, State.engine, if_neg Bool.false_ne_true, hkept.rest .dense rfl]
    exact hservice
  have hused : (v.addJob job).storeUsed = 0 := by rw [State.storeUsed, hadded]; simp [hphase]
  have hbig : (v.addJob job).big = v.big := congrArg (fun c : Chip => ({ v with chip := c } : State).big) (hkept.rest .chip rfl)
  rw [State.admitJob_admits (by rw [hadded]; simp [hphase]) hengine (.inr (by rw [hused, hbig, Nat.zero_add]; exact hroom))]
  refine State.HasJob.congr ?_ ((State.addTally_kept ..).rest .jobs rfl)
  exact State.setJob_hasJob (x := job) (by rw [hadded]; exact List.mem_singleton_self job) rfl rfl rfl

end Sys2Proof.Machine

/-! ## The Burl's moves, strips and results (15 R429–R450; O43) -/

namespace Sys2Proof.Machine

/-! ### ANNEAL_ADMIT and ANNEAL_LOAD_DONE (15 R429, R430) -/

/-- The job is gone, and its ANNEAL completes, or ends as stopped with the reason. -/
def State.annealEnded (s : State) (b r : Nat) (j : Job) : Option Nat → State
  | some k => (s.dropJob j).endDesc b r j.desc 0x70 k 255 (BitVec.ofNat 64 j.move)
  | none => (s.dropJob j).endDesc b r j.desc 0x00 0 255 (BitVec.ofNat 64 j.move)

section Anneal

variable {s : State} {b r : Nat} {j : Job} (hj : s.annealOf b r = some j) (hsweep : (s.bench b).state ≠ .sweeping)

include hj hsweep

theorem exec_annealAdmit_admits (l : List Nat) (hphase : j.phase = .admission) (hparts : j.spec.parts = []) :
    exec (.annealAdmit b r l) s = .next (s.admitJob j) := by
  rw [exec_annealAdmit, execAnnealAdmit, hj]
  dsimp only
  rw [if_neg hsweep, if_pos hphase, State.tryAdmit, hparts, if_neg (by simp), if_neg (by simp)]

theorem exec_annealAdmit_refused {l : List Nat} (hphase : j.phase = .barrier) (hsweeps : j.sweeps = 0)
    (hrefused : (j.spec.parts.any fun p => p.1 != s.hubId && l.contains p.1) = true) :
    exec (.annealAdmit b r l) s = .next ((s.endStrips j).endUnrun j 4) := by
  rw [exec_annealAdmit, execAnnealAdmit, hj]
  dsimp only
  rw [if_neg hsweep, if_neg (by simp [hphase]), if_pos ⟨hphase, hsweeps, hrefused⟩]

theorem exec_annealWriteDone_ends (hphase : j.phase = .writing) : exec (.annealWriteDone b r) s = .next (s.annealEnded b r j j.stop) := by
  rw [exec_annealWriteDone, execAnnealWriteDone, hj]
  dsimp only
  rw [if_neg (by simp [hphase, hsweep])]
  cases j.stop <;> rfl

end Anneal

theorem State.load_nothing (s : State) (b : Nat) (o : Operand) : s.load b o 0 0 = some s := by
  rw [State.load]
  simp [State.hasHost, State.loadReads]

/-- The operand of a job's coefficients. -/
def coefOperand (d : Desc) (j : Job) : Operand :=
  ⟨0, d.order, j.spec.coefSel, pasidOf d.bytes, j.spec.coef.toNat, specCoefs j.spec * (j.spec.width / 8), false⟩

/-- The operand of a job's initial state, of which a random one reads nothing. -/
def initOperand (d : Desc) (j : Job) : Operand := ⟨0, d.order, j.spec.initSel, pasidOf d.bytes, j.spec.init.toNat, 0, false⟩

theorem exec_annealLoadDone_random {s u : State} {b r : Nat} {d : Desc} {j : Job} {coef init : List Byte} (hj : s.annealOf b r = some j)
    (hd : s.desc b r j.desc = some d) (hphase : j.phase = .load) (hstarted : d.phase = .started) (hsweep : (s.bench b).state ≠ .sweeping)
    (hruns : s.channelRuns b r = true) (hrate : (s.bench b).rateOpen = true) (hrandom : j.spec.initRandom = true)
    (hscan : s.scanAll b (coefOperand d j) (specCoefs j.spec * (j.spec.width / 8)) = none) (hscanInit : s.scanAll b (initOperand d j) 0 = none)
    (hload : s.load b (coefOperand d j) 0 (specCoefs j.spec * (j.spec.width / 8)) = some u)
    (hloaded : s.loaded b (coefOperand d j) (specCoefs j.spec * (j.spec.width / 8)) (.ok coef init) = .ok coef init)
    (hloadedInit : s.loaded b (initOperand d j) 0 (.ok coef init) = .ok coef init) :
    exec (.annealLoadDone b r (.ok coef init)) s =
      .next ((u.engineCharge b (s.ring b r).clusterB (specCoefs j.spec * (j.spec.width / 8) + 0)).runJob j
        (s.allBytes b (coefOperand d j) coef (specCoefs j.spec * (j.spec.width / 8))) (s.allBytes b (initOperand d j) init 0)) := by
  rw [coefOperand] at hscan hload hloaded
  rw [initOperand] at hscanInit hloadedInit
  rw [exec_annealLoadDone, execAnnealLoadDone, hj]
  dsimp only
  rw [hd]
  dsimp only
  rw [if_neg (by simp [hphase, hstarted, hsweep, hruns, hrate]), if_pos hrandom, hscan]
  dsimp only
  rw [hscanInit]
  dsimp only
  rw [hload, Option.bind_some, State.load_nothing]
  dsimp only
  rw [hloaded, hloadedInit]
  rfl

/-- The job with these coefficients and the generator's spins. -/
def Job.randomStart (j : Job) (cs : List Int) : Job :=
  let st := (List.range j.spec.spins).map (randomSpin j.spec.seed 0)
  let j := { j with coef := cs, spins := st, best := st, phase := .ready }
  { j with bestEnergy := j.energy }

/-- A job of this hub alone without a target starts from the generator's spins. -/
theorem State.runJob_random {s : State} {j : Job} (hparts : j.spec.parts = []) (hrandom : j.spec.initRandom = true)
    (htarget : j.spec.target = false) (coef init : List Byte) : ∃ cs, s.runJob j coef init = (s.setJob (j.randomStart cs)).nextJob j.spec.lattice := by
  have hno (cs : List Int) : ¬ (j.randomStart cs).onTarget = true := by simp [Job.onTarget, Job.randomStart, htarget]
  rw [State.runJob]
  dsimp only
  rw [hparts, if_pos (by rfl), hrandom, if_pos rfl]
  exact ⟨_, if_neg (hno _)⟩

theorem Job.randomStart_course (j : Job) (cs : List Int) : ((j.randomStart cs).spins, (j.randomStart cs).best, (j.randomStart cs).move) =
    ((List.range j.spec.spins).map (randomSpin j.spec.seed 0), (List.range j.spec.spins).map (randomSpin j.spec.seed 0), j.move) := rfl

/-! ### One move (15 R432, R439) -/

/-- Of a job, where its run has come to. -/
def Job.course (j : Job) : List Bool × Nat := (j.spins, j.move)

theorem State.traceSample_hasJob {s : State} {k : Nat × Nat × Nat × Option Nat} {v : List Bool × Nat}
    (h : s.HasJob k fun x => x.course = v) {j : Job} (hj : j.course = v) (moves : Nat) (energy : Int) (sweep : Nat) :
    (s.traceSample j moves energy sweep).HasJob k fun x => x.course = v := by
  rw [State.traceSample]
  split
  · exact h
  · exact State.HasJob.setJob (h.congr rfl) fun _ => hj

theorem State.endSingle_hasJob {s : State} {k : Nat × Nat × Nat × Option Nat} {v : List Bool × Nat}
    (h : s.HasJob k fun x => x.course = v) {j : Job} (hj : j.course = v) : (s.endSingle j).HasJob k fun x => x.course = v := by
  have hsliced : (if j.phase == .running then s.endSlice j else s).HasJob k fun x => x.course = v := by
    split
    · exact h.congr ((State.endSlice_kept ..).rest .jobs rfl)
    · exact h
  have htraced := State.traceSample_hasJob hsliced hj j.move j.energy j.sweeps
  have hset := htraced.setJob (j := { j with phase := .writing, written := j.written + if j.spec.trace then 1 else 0 }) fun _ => hj
  rw [State.endSingle, State.writeResults]
  exact (hset.congr ((State.writeStream_kept ..).rest .jobs rfl)).nextJob (fun _ h => h) _

/-- The job after a move: its best state kept, and a sweep counted where the move ends one. -/
def Job.moved (j : Job) : Job :=
  let k := j.moveOnce.keepBest
  if k.move = (k.sweeps + 1) * k.spins.length then { k with sweeps := k.sweeps + 1 } else k

theorem Job.keepBest_keeps {α : Type} {g : Job → α} (h : ∀ x b e m, g { x with best := b, bestEnergy := e, bestMove := m } = g x) (j : Job) :
    g j.keepBest = g j := by
  rw [Job.keepBest]
  split
  · exact h ..
  · rfl

theorem Job.moved_course (j : Job) : j.moved.course = (j.moveOnce.spins, j.move + 1) := by
  have hbest : j.moveOnce.keepBest.course = (j.moveOnce.spins, j.move + 1) := Job.keepBest_keeps (g := Job.course) (fun _ _ _ _ => rfl) _
  rw [Job.moved]
  split <;> exact hbest

theorem Job.moved_key (j : Job) : j.moved.key = j.key := by
  have hbest : j.moveOnce.keepBest.key = j.key := Job.keepBest_keeps (g := Job.key) (fun _ _ _ _ => rfl) _
  rw [Job.moved]
  split <;> exact hbest

/-- The job once its trace sample is counted. -/
def Job.sampled (k : Job) : Job := if k.spec.trace ∧ k.move % k.spec.traceEvery = 0 then { k with written := k.written + 1 } else k

/-- The moved job set, and its trace sample written where one is due. -/
def State.moveSampled (s : State) (j k : Job) : State :=
  if k.spec.trace ∧ k.move % k.spec.traceEvery = 0 then (s.setJob k).traceSample k k.move k.energy j.sweeps else s.setJob k

/-- The job ends on its target, after its last sweep, or out of time. -/
def State.moveEnd (s : State) (j k : Job) : State :=
  if k.onTarget then s.endSingle { k with stop := some 1 }
  else if k.sweeps ≠ j.sweeps ∧ specSweeps k.spec ≤ k.sweeps then s.endSingle k
  else if k.sweeps ≠ j.sweeps ∧ k.overTime then s.endSingle { k with stop := some 2 }
  else s

theorem State.moveSingle_eq (s : State) (j : Job) : s.moveSingle j = (s.moveSampled j j.moved).moveEnd j j.moved.sampled := rfl

theorem Job.sampled_course (k : Job) : k.sampled.course = k.course := by
  rw [Job.sampled]
  split <;> rfl

/-- Whatever a move ends, its job has moved once. -/
theorem State.moveSingle_hasJob {s : State} {j : Job} (hmem : j ∈ s.jobs) :
    (s.moveSingle j).HasJob j.key fun x => x.course = (j.moveOnce.spins, j.move + 1) := by
  have hset : (s.setJob j.moved).HasJob j.key fun x => x.course = (j.moveOnce.spins, j.move + 1) :=
    State.setJob_hasJob hmem rfl j.moved_key j.moved_course
  have hsampled : (s.moveSampled j j.moved).HasJob j.key fun x => x.course = (j.moveOnce.spins, j.move + 1) := by
    rw [State.moveSampled]
    split
    · exact State.traceSample_hasJob hset j.moved_course ..
    · exact hset
  have hcourse : j.moved.sampled.course = (j.moveOnce.spins, j.move + 1) := j.moved.sampled_course.trans j.moved_course
  rw [State.moveSingle_eq, State.moveEnd]
  split
  · exact State.endSingle_hasJob hsampled hcourse
  split
  · exact State.endSingle_hasJob hsampled hcourse
  split
  · exact State.endSingle_hasJob hsampled hcourse
  · exact hsampled

/-- The state in which the engine's move takes effect: its time charged to the slice. -/
def State.burlUsed (s : State) (j : Job) : State :=
  (s.countPerf (136 + j.spec.lattice.toNat) 1).modEngine j.spec.lattice fun e =>
    { e with sliceTime := e.sliceTime + (j.moveOnce.engineTime - j.engineTime) }

section Running

variable {s : State} {j : Job} (hj : s.runningJob j.spec.lattice = some j)

include hj

theorem exec_burlMove_moves (hphase : j.phase = .running) (hworks : s.domainWorks 9 = true) (hdue : s.sliceDue j = false)
    (hsweep : (s.bench j.bench).state ≠ .sweeping) (hstrip : j.strip = none) :
    exec (.burlMove j.spec.lattice) s = .next ((s.burlUsed j).moveSingle j) := by
  rw [exec_burlMove, execBurlMove, hj]
  dsimp only
  rw [if_neg (by simp [hphase, hworks, hdue, hsweep]), hstrip, if_neg (by simp)]
  rfl

theorem exec_burlMove_unpowered (hworks : s.domainWorks 9 = false) : exec (.burlMove j.spec.lattice) s = .next s := by
  rw [exec_burlMove, execBurlMove, hj]
  exact if_pos (.inr (.inl (by simp [hworks])))

theorem exec_burlSliceEnd_saves (hdue : s.sliceDue j = true) :
    exec (.burlSliceEnd j.spec.lattice) s = .next ((s.endSlice j).setJob { j with phase := .saving }) := by
  rw [exec_burlSliceEnd, execBurlSliceEnd, hj]
  exact congrArg Host.Outcome.next (if_pos hdue)

theorem exec_burlCheckpointDone_readies (hphase : j.phase = .saving) :
    exec (.burlCheckpointDone j.spec.lattice) s = .next ((s.setJob { j with phase := .ready }).nextJob j.spec.lattice) := by
  rw [exec_burlCheckpointDone, execBurlCheckpointDone, hj]
  exact congrArg Host.Outcome.next (if_pos hphase)

end Running

theorem State.endSlice_sliceTime (s : State) (j : Job) : ((s.endSlice j).engine j.spec.lattice).sliceTime = 0 := by
  have hset := s.engine_modEngine_same j.spec.lattice fun e => { e with
    charges := arbCharge e.charges (s.jobOwner j) (e.sliceTime / 64000) (s.qosOf (s.jobOwner j)).latheWeight, sliceTime := 0 }
  exact congrArg Engine.sliceTime hset

/-! ### Strips (15 R447–R449) -/

theorem exec_burlHaloReceived_stale {s : State} {home b : Nat} {incarn : BitVec 16} (h : s.msgCurrent home b incarn = false)
    (r k source n : Nat) (first last : List Bool) (e : Int) : exec (.burlHaloReceived home b r incarn k source n first last e) s =
      .next s.staleMessage := by
  rw [exec_burlHaloReceived, execBurlHaloReceived, if_pos (by simp [h])]

theorem exec_burlHaloReceived_takes {s : State} {home b r k : Nat} {incarn : BitVec 16} {j : Job} (h : s.msgCurrent home b incarn = true)
    (hk : k ≠ 255 ∨ home ≠ s.hubId) (hj : s.jobOf home b r (some k) = some j) (source n : Nat) (first last : List Bool) (e : Int) :
    exec (.burlHaloReceived home b r incarn k source n first last e) s = .next (s.takeHalo j source n first last) := by
  rw [exec_burlHaloReceived, execBurlHaloReceived, if_neg (not_not_intro h), if_neg (fun c => hk.elim (· c.1) (· c.2)), hj]

/-- The strip with a neighbour's row that is newer than the one it holds. -/
def Job.noteHalo (j : Job) (source sweep : Nat) (first last : List Bool) : Job :=
  if source + 1 = j.strip.getD 0 ∧ j.haloAbove < sweep then { j with nextAbove := last, haloAbove := sweep }
  else if source = j.strip.getD 0 + 1 ∧ j.haloBelow < sweep then { j with nextBelow := first, haloBelow := sweep } else j

/-- A strip that waits for its rows goes on with them once it holds both. -/
def Job.passHalo (j : Job) : Job :=
  if j.phase = .barrier ∧ j.halosHeld j.sweeps ∧ j.sweeps < specSweeps j.spec then { j.exchange with phase := .ready } else j

theorem State.takeHalo_eq (s : State) (j : Job) (source sweep : Nat) (first last : List Bool) :
    s.takeHalo j source sweep first last = (s.setJob (j.noteHalo source sweep first last).passHalo).nextJob true := rfl

theorem Job.passHalo_keeps {α : Type} {g : Job → α} (h : ∀ x a b p, g { x with above := a, below := b, phase := p } = g x) (j : Job) :
    g j.passHalo = g j := by
  rw [Job.passHalo]
  split
  · exact h j ..
  · rfl

section Halo

variable {s : State} {home b r k : Nat} {j : Job} (hj : s.jobOf home b r (some k) = some j)

include hj

theorem State.takeHalo_above {source n : Nat} (hsource : source + 1 = k) (hnew : j.haloAbove < n) (first last : List Bool) :
    (s.takeHalo j source n first last).HasJob (home, b, r, some k) fun x => (x.nextAbove, x.haloAbove, x.spins) = (last, n, j.spins) := by
  obtain ⟨hmem, hkey⟩ := State.jobOf_some hj
  have hstrip : j.strip = some k := congrArg (fun x => x.2.2.2) hkey
  have hnote : j.noteHalo source n first last = { j with nextAbove := last, haloAbove := n } :=
    if_pos ⟨by rw [hstrip]; exact hsource, hnew⟩
  rw [State.takeHalo_eq, hnote]
  have hset := State.setJob_hasJob (P := fun x => (x.nextAbove, x.haloAbove, x.spins) = (last, n, j.spins)) hmem hkey
    ((Job.passHalo_keeps (g := Job.key) (fun _ _ _ _ => rfl) { j with nextAbove := last, haloAbove := n }).trans hkey)
    (Job.passHalo_keeps (g := fun x => (x.nextAbove, x.haloAbove, x.spins)) (fun _ _ _ _ => rfl) _)
  exact hset.nextJob (fun _ h => h) _

theorem State.takeHalo_below {source n : Nat} (hsource : source = k + 1) (hnew : j.haloBelow < n) (hphase : j.phase ≠ .barrier)
    (first last : List Bool) : (s.takeHalo j source n first last).HasJob (home, b, r, some k) fun x =>
      (x.nextBelow, x.haloBelow, x.above, x.below, x.spins) = (first, n, j.above, j.below, j.spins) := by
  obtain ⟨hmem, hkey⟩ := State.jobOf_some hj
  have hstrip : j.strip = some k := congrArg (fun x => x.2.2.2) hkey
  have hnote : j.noteHalo source n first last = { j with nextBelow := first, haloBelow := n } := by
    rw [Job.noteHalo, hstrip, Option.getD_some, if_neg (by omega), if_pos ⟨hsource, hnew⟩]
  have hstay : (j.noteHalo source n first last).passHalo = { j with nextBelow := first, haloBelow := n } := by
    rw [hnote]
    exact if_neg fun h => hphase h.1
  rw [State.takeHalo_eq, hstay]
  have hset := State.setJob_hasJob (P := fun x => (x.nextBelow, x.haloBelow, x.above, x.below, x.spins) =
    (first, n, j.above, j.below, j.spins)) (j := { j with nextBelow := first, haloBelow := n }) hmem hkey hkey rfl
  exact hset.nextJob (fun _ h => h) _

end Halo

section StripAdmit

variable {s : State} {home b r k : Nat} {incarn : BitVec 16} (cls : Nat) (cap : BitVec 32) {j : JobSpec} (coef : List Byte) (init : List Bool)
  (hchart : s.chartered = true) (hhome : home ≠ s.hubId) (hcur : s.msgCurrent home b incarn = true)
  (hnone : s.jobOf home b r (some k) = none)

include hchart hhome hcur hnone

theorem exec_stripAdmit_tooBig (hbig : s.latticeStripTooBig j k = true) : exec (.stripAdmit home b r incarn cls cap k j coef init) s =
    .next (s.sendHub home (.stripRefused home b r k incarn)) := by
  rw [exec_stripAdmit, execStripAdmit, if_neg (by simp [hchart, hhome]), if_neg (fun h => h.2 hcur), if_neg (by simp [hnone]), if_pos hbig]

theorem exec_stripAdmit_admits {g : Nat} (hslot : s.guestSlot home b = some g) (hfits : s.latticeStripTooBig j k = false) :
    exec (.stripAdmit home b r incarn cls cap k j coef init) s =
      .next (((s.addJob (stripJob home b r 0 k j (coefsOf j.width (5 * j.cols * (stripRows j k + 1)) coef) init)).addTally 0x07
        (256 + g) 1 r).nextJob true) := by
  have hadmit : s.admitGuest home b incarn cls cap = (some g, s) := by
    rw [State.admitGuest, hslot]
    dsimp only
    rw [if_pos hcur]
  rw [exec_stripAdmit, execStripAdmit, if_neg (by simp [hchart, hhome]), if_neg (fun h => h.2 hcur), if_neg (by simp [hnone]),
    if_neg (by simp [hfits]), hadmit]

end StripAdmit

/-- A job with a key that none of the hub's jobs has. -/
theorem State.addJob_hasJob {s : State} {home b r : Nat} {strip : Option Nat} (hnone : s.jobOf home b r strip = none) {j : Job}
    (hkey : j.key = (home, b, r, strip)) {P : Job → Prop} (hP : P j) : (s.addJob j).HasJob (home, b, r, strip) P := by
  have hjobs : (s.addJob j).jobs = s.jobs ++ [j] := (State.rouse_kept ..).rest .jobs rfl
  rw [State.HasJob, hjobs]
  refine ⟨⟨j, List.mem_append_right _ (List.mem_singleton_self j), hkey⟩, fun x hx hxk => ?_⟩
  obtain hx | hx := List.mem_append.mp hx
  · rw [Job.key, Prod.mk.injEq, Prod.mk.injEq, Prod.mk.injEq] at hxk
    obtain ⟨rfl, rfl, rfl, rfl⟩ := hxk
    exact absurd (List.find?_eq_none.mp hnone x hx) (by simp)
  · rw [List.mem_singleton.mp hx]
    exact hP

/-- The strips' states with those of strip `k` put there. -/
def Job.withReturn (j : Job) (k : Nat) (best final : List Bool) : List StripState :=
  j.returned.filter (fun x => x.strip != k) ++ [⟨k, best, final⟩]

/-- The home hub goes on waiting while a strip that it has not lost has not returned. -/
theorem State.stripReturn_waits {s : State} {b r k : Nat} {best final : List Bool} {j : Job} (hj : s.jobOf s.hubId b r none = some j)
    (hphase : j.phase = .gathering) (hout : ∃ i, i < j.spec.parts.length ∧ i ≠ k ∧ j.lost.contains i = false ∧
      (j.returned.any fun x => x.strip == i) = false) : s.stripReturn b r k best final =
      s.setJob { j with returned := j.withReturn k best final } := by
  obtain ⟨i, hi, hik, hlost, hret⟩ := hout
  have hret : (j.withReturn k best final).any (fun x => x.strip == i) = false := by
    rw [Job.withReturn, List.any_append, Bool.or_eq_false_iff]
    refine ⟨List.any_eq_false.mpr fun x hx => List.any_eq_false.mp hret x (List.mem_filter.mp hx).1, ?_⟩
    simpa using fun h => hik h.symm
  have hwaits : ¬ ((List.range j.spec.parts.length).all fun i => j.lost.contains i ||
      (j.withReturn k best final).any fun x => x.strip == i) = true := fun h => by
    have h := List.all_eq_true.mp h i (List.mem_range.mpr hi)
    rw [hlost, hret] at h
    exact absurd h Bool.false_ne_true
  rw [State.stripReturn, hj]
  dsimp only
  rw [if_neg (not_not_intro hphase), State.gather]
  exact if_pos (.inr hwaits)

/-! ### A job that ends (15 R450) -/

theorem State.setJob_keys (s : State) (j : Job) : (s.setJob j).jobs.map Job.key = s.jobs.map Job.key := by
  rw [State.setJob]
  refine (List.map_map ..).trans (List.map_congr_left fun x _ => ?_)
  rw [Function.comp]
  split
  next h => exact ((Job.same_iff ..).mp h).symm
  next => rfl

theorem State.nextJob_keys (s : State) (lattice : Bool) : (s.nextJob lattice).jobs.map Job.key = s.jobs.map Job.key := by
  have hengine (f : Engine → Engine) : (s.modEngine lattice f).jobs = s.jobs := (s.modEngine_kept lattice f).rest .jobs rfl
  have hstart (t : State) (j : Job) : (t.startJob j).jobs.map Job.key = t.jobs.map Job.key :=
    (congrArg (List.map Job.key) (t.startJob_jobs j)).trans (t.setJob_keys { j with phase := .running })
  rw [State.nextJob]
  dsimp only
  split
  · rfl
  · split
    · rw [hengine]
    · split
      · rw [hengine]
      · rw [hstart, hengine]

theorem State.jobOf_none {s : State} {home b r : Nat} {strip : Option Nat} (h : (home, b, r, strip) ∉ s.jobs.map Job.key) :
    s.jobOf home b r strip = none := by
  refine List.find?_eq_none.mpr fun x hx hkey => h (List.mem_map.mpr ⟨x, hx, ?_⟩)
  simp only [Bool.and_eq_true, beq_iff_eq] at hkey
  obtain ⟨⟨⟨hhome, hbench⟩, hring⟩, hstrip⟩ := hkey
  rw [Job.key, hhome, hbench, hring, hstrip]

theorem State.dropJob_gone {s : State} {home b r : Nat} {strip : Option Nat} {j : Job} (hj : s.jobOf home b r strip = some j) :
    (s.dropJob j).jobOf home b r strip = none := by
  obtain ⟨hmem, hkey⟩ := State.jobOf_some hj
  have hfirst : ((s.jobs.find? j.same).getD j).key = j.key := by
    cases h : s.jobs.find? j.same with
    | none => rfl
    | some x => exact ((Job.same_iff ..).mp (List.find?_some h)).symm
  refine State.jobOf_none ?_
  rw [State.dropJob, State.nextJob_keys, ← hkey, ← hfirst]
  have hgone (l : List Job) (x : Job) : x.key ∉ (l.filter fun y => !y.same x).map Job.key := fun h => by
    obtain ⟨y, hy, hxy⟩ := List.mem_map.mp h
    have hno := (List.mem_filter.mp hy).2
    rw [(Job.same_iff ..).mpr hxy] at hno
    exact absurd hno Bool.false_ne_true
  split
  · exact hgone _ _
  · exact hgone _ _

/-- Settles O43: acceptance and admission, loading, the moves and slices, the strips, and the result. -/
theorem annealSteps : Obligations.AnnealSteps := by
  unfold Obligations.AnnealSteps
  refine ⟨fun s u b r d block => exec_anneal_denied block, ?accepted, ?admits, ?loads, ?moves, ?saves, fun s j => exec_burlCheckpointDone_readies,
    ?above, ?below, fun s home b r k source n incarn first last e h => exec_burlHaloReceived_stale h r k source n first last e, ?ends, ?strip,
    ?returns, ?stale, fun s j => exec_burlMove_unpowered,
    fun s home b r k incarn cls cap j coef init => exec_stripAdmit_tooBig cls cap coef init,
    fun s b r l j hj hsweep => exec_annealAdmit_refused hj hsweep⟩
  case accepted =>
    intro s u w x v b r n d data params y hb hw hjobs hon hclass hrate hloaded hn hscan hscanAll hload hv hy hmode hfail htrace hkeys hroom
      hparts hservice hstore
    have hnone : w.annealOf b r = none := by rw [State.annealOf, State.jobOf, hjobs]; rfl
    have hload' := State.load_kept _ _ _ _ _ hload
    have hcharge : Kept 0x1020 x v := hv ▸ State.engineCharge_kept ..
    have hchip : v.chip = w.chip := (hcharge.rest .chip rfl).trans (hload'.rest .chip rfl)
    have hclass' : v.classHas b BenchClass.burlDense = true := by
      rw [hv, State.engineCharge_classHas, State.classHas, State.classOf, hload'.rest .chip rfl, State.bench, hload'.rest .benches rfl]
      exact hclass
    obtain ⟨job, hjob, hcheck⟩ := State.checkAnneal_dense hmode hclass' hfail htrace hkeys hroom hparts (r := r) (d := d)
    have hadmitted := State.admitJob_only (v := v) (job := job) ((hcharge.rest .jobs rfl).trans ((hload'.rest .jobs rfl).trans hjobs))
      (by rw [hcharge.rest .dense rfl, hload'.rest .dense rfl]; exact hservice) (by rw [hjob]; simp [annealJob, jobSpec, hmode])
      (by rw [hjob]; rfl) (by rw [hjob, State.big, hchip]; exact hstore)
    refine ⟨_, (exec_anneal_checks hb hw hnone hon hclass hrate hloaded hn hscan hscanAll hload hv hy).trans
      (congrArg Host.Outcome.next hcheck), ?_, ?_⟩
    · have hkey : job.key = (((v.addJob job).admitJob job).hubId, b, r, none) := by
        rw [State.hubId, (State.admitJob_kept ..).rest .chip rfl, (State.addJob_kept ..).rest .chip rfl, hjob]
        rfl
      rw [hkey] at hadmitted
      obtain ⟨k, hk, rfl⟩ := hadmitted.jobOf
      rw [hk, hjob]
      rfl
    · exact ((State.admitJob_kept ..).rest .billetMem rfl).trans (((State.addJob_kept ..).rest .billetMem rfl).trans
        ((hcharge.rest .billetMem rfl).trans (hload'.rest .billetMem rfl)))
  case admits =>
    intro s b r l j hj hphase hsweep hparts hfirst hservice hroom
    have hadmit := State.admitJob_admits hfirst hservice hroom
    refine ⟨_, (exec_annealAdmit_admits hj hsweep l hphase hparts).trans (congrArg Host.Outcome.next hadmit),
      (State.addTally_kept ..).rest .jobs rfl, (State.addTally_kept ..).rest .billetMem rfl⟩
  case loads =>
    intro s u b r d j coef init hj hd hphase hstarted hsweep hruns hrate hparts hrandom htarget hscan hscanInit hload hloaded hloadedInit
    refine ⟨_, exec_annealLoadDone_random hj hd hphase hstarted hsweep hruns hrate hrandom hscan hscanInit hload hloaded hloadedInit, ?_⟩
    have hloadKept := State.load_kept _ _ _ _ _ hload
    have hchargeKept := u.engineCharge_kept b (s.ring b r).clusterB (specCoefs j.spec * (j.spec.width / 8) + 0)
    have hchip := (hchargeKept.rest .chip rfl).trans (hloadKept.rest .chip rfl)
    obtain ⟨hmem, hkey⟩ := State.jobOf_some hj
    obtain ⟨cs, hrun⟩ := State.runJob_random (s := u.engineCharge b (s.ring b r).clusterB (specCoefs j.spec * (j.spec.width / 8) + 0)) hparts
      hrandom htarget (s.allBytes b (coefOperand d j) coef (specCoefs j.spec * (j.spec.width / 8))) (s.allBytes b (initOperand d j) init 0)
    have hset := State.setJob_hasJob (s := u.engineCharge b (s.ring b r).clusterB (specCoefs j.spec * (j.spec.width / 8) + 0))
      (P := fun k => (k.spins, k.best, k.move) = ((List.range j.spec.spins).map (randomSpin j.spec.seed 0),
        (List.range j.spec.spins).map (randomSpin j.spec.seed 0), j.move)) (j := j.randomStart cs)
      (by rw [hchargeKept.rest .jobs rfl, hloadKept.rest .jobs rfl]; exact hmem) hkey hkey (j.randomStart_course cs)
    have hhub : (State.runJob (u.engineCharge b (s.ring b r).clusterB (specCoefs j.spec * (j.spec.width / 8) + 0)) j
        (s.allBytes b (coefOperand d j) coef (specCoefs j.spec * (j.spec.width / 8))) (s.allBytes b (initOperand d j) init 0)).hubId = s.hubId := by
      rw [State.hubId, (State.runJob_kept ..).rest .chip rfl, hchip]
      rfl
    rw [State.annealOf, hhub, hrun]
    exact (hset.nextJob (fun _ h => h) _).map
  case moves =>
    intro s j hj hphase hworks hdue hsweep hstrip hfound
    refine ⟨_, exec_burlMove_moves hj hphase hworks hdue hsweep hstrip, ?_⟩
    have hjobs : (s.burlUsed j).jobs = s.jobs := ((State.modEngine_kept ..).rest .jobs rfl).trans ((s.countPerf_kept _ _).rest .jobs rfl)
    have hmoved := State.moveSingle_hasJob (s := s.burlUsed j) (j := j) (by rw [hjobs]; exact (State.jobOf_some hfound).1)
    rw [(State.jobOf_some hfound).2] at hmoved
    exact hmoved.map
  case saves =>
    intro s j hj hdue hfound
    obtain ⟨hmem, hkey⟩ := State.jobOf_some hfound
    refine ⟨_, exec_burlSliceEnd_saves hj hdue, ?_, s.endSlice_sliceTime j⟩
    have hset : ((s.endSlice j).setJob { j with phase := .saving }).HasJob (j.home, j.bench, j.ring, j.strip) fun x => x = { j with phase := .saving } :=
      State.setJob_hasJob (x := j) (by rw [(State.endSlice_kept ..).rest .jobs rfl]; exact hmem) hkey rfl rfl
    obtain ⟨x, hx, rfl⟩ := hset.jobOf
    exact hx
  case above =>
    exact fun s home b r k source n incarn first last e j h hk hj hsource hnew =>
      ⟨_, exec_burlHaloReceived_takes h hk hj source n first last e, (State.takeHalo_above hj hsource hnew first last).map⟩
  case below =>
    exact fun s home b r k source n incarn first last e j h hk hj hsource hnew hphase =>
      ⟨_, exec_burlHaloReceived_takes h hk hj source n first last e, (State.takeHalo_below hj hsource hnew hphase first last).map⟩
  case ends =>
    intro s b r d j hj hphase hsweep hd hs hn
    have hdropped : (s.dropJob j).annealOf b r = none := by
      rw [State.annealOf, State.hubId, (State.dropJob_kept ..).rest .chip rfl]
      exact State.dropJob_gone hj
    have hdesc : (s.dropJob j).desc b r j.desc = some d :=
      (State.desc_eq_of_benches ((State.dropJob_kept ..).rest .benches rfl) b r j.desc).trans hd
    have hended (code detail : Nat) : ((s.dropJob j).endDesc b r j.desc code detail 255 (BitVec.ofNat 64 j.move)).annealOf b r = none ∧
        ((s.dropJob j).endDesc b r j.desc code detail 255 (BitVec.ofNat 64 j.move)).billetMem = s.billetMem :=
      ⟨(State.annealOf_congr ((State.endDesc_kept ..).rest .jobs rfl) ((State.endDesc_kept ..).rest .chip rfl) b r).trans hdropped,
        ((State.endDesc_kept ..).rest .billetMem rfl).trans ((State.dropJob_kept ..).rest .billetMem rfl)⟩
    refine ⟨_, exec_annealWriteDone_ends hj hsweep hphase, ?_⟩
    cases j.stop with
    | some k => exact ⟨(hended 0x70 k).1, State.endDesc_status hdesc hs _ _ _ (.inl hn), (hended 0x70 k).2⟩
    | none => exact ⟨(hended 0x00 0).1, State.endDesc_status hdesc hs _ _ _ (.inl hn), (hended 0x00 0).2⟩
  case strip =>
    intro s home b r g k incarn cls cap j coef init hchart hhome hslot hcur hnone hfits
    refine ⟨_, exec_stripAdmit_admits cls cap coef init hchart hhome hcur hnone hslot hfits, ?_, ?_⟩
    · have hadded := State.addJob_hasJob hnone (j := stripJob home b r 0 k j (coefsOf j.width (5 * j.cols * (stripRows j k + 1)) coef) init) rfl
        (P := fun x => (x.spec, x.spins, x.coef, x.move) = (j, (init.drop (if k = 0 then 0 else j.cols)).take (stripRows j k * j.cols),
          coefsOf j.width (5 * j.cols * (stripRows j k + 1)) coef, 0)) rfl
      exact ((hadded.congr ((State.addTally_kept ..).rest .jobs rfl)).nextJob (fun _ h => h) true).map
    · exact ((State.nextJob_kept ..).rest .benches rfl).trans (((State.addTally_kept ..).rest .benches rfl).trans ((State.addJob_kept ..).rest .benches rfl))
  case returns =>
    intro s b r k incarn best final j hcur hj hphase hout
    rw [exec_stripStateReturn, execStripStateReturn, if_pos hcur, State.stripReturn_waits hj hphase hout]
    rfl
  case stale =>
    intro s b r k incarn best final hcur
    rw [exec_stripStateReturn, execStripStateReturn, if_neg (by simp [hcur])]

end Sys2Proof.Machine
